-- ==== Sys2Proof/Word.lean ====
section
/-!
DEFINITION. The word types: a byte, and the 32-bit register word of 00 R9 (every register is 32 bits wide).
-/

namespace Sys2Proof

/-- One byte of a frame, a buffer or a descriptor. -/
abbrev Byte := BitVec 8

/-- One 32-bit register word (00 R9). -/
abbrev Word := BitVec 32

end Sys2Proof
end

