-- ==== Sys2Proof/Syntax.lean ====
section
/-!
DEFINITION. The commands of the block (spec/opcode_table.json) with their operands. The table gives the rows no fields: each
constructor's operands are what the outside world supplies with the event (the register value written, a received frame, a
DMA result, a measured sample) or what names the object that the event concerns.
-/

namespace Sys2Proof
/-- The fields of a CM REQ that 05 R144 and R145 read; its IP addresses, VLAN and port are those of the frame that carried it. -/
structure CmReq where
  serviceId : Nat
  /-- The transport service type is RC. -/
  rc : Bool
  recfmt : Nat
  qid : Nat
  hsqsize : Nat
  hrqsize : Nat
  /-- Path MTU code: 3 for 1,024 B, 4 for 2,048 B, 5 for 4,096 B. -/
  pmtu : Nat
  respRes : Nat
  initDepth : Nat
  startPsn : Nat
  remoteQpn : Nat
  retryCnt : Nat
  rnrCnt : Nat
deriving DecidableEq, Repr

/-- What a drive reports at step 10 of bring-up (12 R369, R370): NVMe 1.4 or later; namespace 1 exists and is shared; the format of
R263 is in use or offered; I/O queue pairs granted; MDTS in bytes (0: none) and MQES; a volatile write cache, and whether it was
disabled; the data capacity in bytes; Command Retry Delay Times 1 to 3 in 100 ms; and whether namespace 1 supports reservations of type
Write Exclusive, Registrants Only, with Preempt and Abort (15 R460). -/
structure DriveReport where
  nvme14 : Bool
  ns1 : Bool
  shared : Bool
  format : Bool
  pairs : Nat
  mdts : Nat
  mqes : Nat
  vwc : Bool
  vwcOff : Bool
  capacity : Nat
  crdt : List Nat
  resv : Bool
deriving DecidableEq, Repr

/-- A volume record with its map entries as a map store holds it (09 R275, R276). -/
structure ImpVol where
  vol : Nat
  pool : Nat
  lbaf : Nat
  key : Option Nat
  kcv : Nat
  blocks : Nat
  nguid : List Byte
  uninit : Bool
  slabs : List Nat
  initNext : Nat
deriving DecidableEq, Repr

/-- A line of a dump chunk: its slot, directory entry and 4,160 B (09 R295). -/
structure ImpLine where
  slot : Nat
  vol : Nat
  unit : Nat
  valid : Nat
  wt : Bool
  shadow : Bool
  data : List Byte
deriving DecidableEq, Repr

/-- An entry of a lost-stripe table copy, with its pool (10 Table 10-2). -/
structure ImpLost where
  pool : Nat
  first : Nat
  count : Nat
  cause : Nat
  runGen : Nat
  tick : Nat
deriving DecidableEq, Repr

/-- A pass of a maintenance record (10 R311): its target slots with their target bays, and the frames still to visit. -/
structure ImpPass where
  pool : Nat
  kind : Nat
  mode : Nat
  targets : List (Nat × Option Nat)
  cov : List (Nat × Nat)
  done : Nat
  held : Bool
deriving DecidableEq, Repr

/-- A persistent reservation record (08 R254). -/
structure ImpResv where
  vol : Nat
  regs : List (Nat × Nat)
  rtype : Nat
  holder : Option Nat
  gen : Nat
deriving DecidableEq, Repr

/-- What management firmware reads from the members at an import (09 Table 9-13): both label copies of each reachable bay; a dump
header with a correct CRC, as its RUN_GEN and journal entries per pool; the journal copies with a correct CRC, as RUN_GEN and
slots, A's before B's; the summary, as volume and dirty-line count; the map stores, lost-stripe tables and records; the chunks. -/
structure Import where
  labels : List (Nat × List Byte × List Byte)
  header : Option (Nat × List Nat)
  journals : List (Nat × List (List Byte))
  summary : Option (List (Nat × Nat))
  vols : List ImpVol
  lost : List ImpLost
  passes : List ImpPass
  resvs : List ImpResv
  lines : List ImpLine
deriving DecidableEq, Repr

/-- The samples of a bay in one evaluation period (13 R382): the 12-bit codes of BAY_IMON and BAY_VMON, and the levels of BAY_GOK and,
inverted, of BAY_PRS_N. -/
structure BaySample where
  i : Nat
  v : Nat
  gok : Bool
  present : Bool
deriving DecidableEq, Repr

/-- The inputs of a loop step (14 R410 to R414): for each thermistor the sum of its 2,500 samples of the period, the hottest die sensor
in 1/16 °C, and each fan's tachometer pulses per minute. -/
structure EnvSample where
  therms : List Nat
  die : Int
  pulses : List Nat
deriving DecidableEq, Repr

/-- Work that the active has the standby repeat (15 R449; 03 R94): a ring command with what its buffer transfer returned, an unwrapped
key (a data key slot or, `kek`, a KEK with its import SEQ), and the connection messages of 05. -/
inductive Replica where
  | command (desc : List Byte) (ok : Bool) (data : List Byte)
  | key (kek : Bool) (index seq : Nat) (raw : List Byte)
  | cmReq (r : CmReq)
  | cmRtu (q : Nat)
  | cmDreq (q : Nat)
  | cmDrep (q : Nat)
deriving DecidableEq, Repr

/-- The operands of a rehearsal (15 R467). -/
structure Rehearse where
  kind : Nat
  index : Nat
  entry : Nat
  count : Nat
  family : Nat
  srcMac : List Byte
  srcIp : List Byte
deriving DecidableEq, Repr

/-- A message of an MGT frame (15 R434, R449, R463 to R467; 16 R493, R496). The spec gives what the messages carry, not their coding. -/
inductive MgtMsg where
  /-- The sender's pair state, running and staged management firmware versions, and whether it drives PAIR_ACT_N (R439, R463). -/
  | report (state fw staged : Nat) (claim : Bool)
  /-- Replicated work number `n`. -/
  | work (n : Nat) (r : Replica)
  /-- A checked image for buffer `b` (R449), and the standby's verdict on it. -/
  | image (b : Bool) (bytes : List Byte)
  | imageVerdict (b ok : Bool)
  /-- A join begins; the CRC of the copied state; lockstep begins after tick `t`; the join is aborted with a cause (R464, R466). -/
  | joinStart
  | joinCrc (crc : Nat)
  | joinEnd (t : Nat)
  | joinAbort (cause : Nat)
  /-- A rehearsal on the standby, and its result with the replies or units checked (R467). -/
  | rehearse (r : Rehearse)
  | rehearsed (result n : Nat)
  /-- A firmware package for the standby, its outcome, and an activation (16 R493 to R496). -/
  | package (bytes : List Byte)
  | packageDone (status : Nat)
  | activate (mode : Nat)
  | activated (status : Nat)
deriving DecidableEq, Repr

/-- A KEYX message (15 R436): the sender's ECDH share, its signature (r and s) under its device key, and its certificate chain. -/
structure Keyx where
  share : List Byte
  sigR : List Byte
  sigS : List Byte
  chain : List Byte
deriving DecidableEq, Repr

/-- What a device certificate chain says (16 R483): it leads to the Walsis root, its public key, the part and stepping, and the identity
in the layout of PAIR_PEER_PIN. -/
structure DevCert where
  rooted : Bool
  key : List Byte
  part : Nat
  stepping : Nat
  ident : List Nat
deriving DecidableEq, Repr

/-- Where an uncorrectable error of HBM was read (19 Table 19-2): the data of a cache line slot; a two-copy region (stripe journal, lost-stripe
tables); an image buffer, with the cluster that read it and its engine; a latched dump snapshot or a trace record, by its place; any other
region. -/
inductive HbmRegion where
  | line (slot : Nat)
  | twoCopy
  | image (b : Bool) (k : Fin 12) (engine : Fin 8)
  | snapshot (i : Nat)
  | trace (i : Nat)
  | other
deriving DecidableEq, Repr

/-- What an uncorrectable serai error hits (06 R198): nothing in use, a frame received or waiting (by number), a frame queued for egress, a
held packet of a QP by its first PSN, or the control area. -/
inductive SeraiHit where
  | unused
  | frame (id : Nat)
  | egress (id : Nat)
  | held (q psn : Nat)
  | control
deriving DecidableEq, Repr

/-- A request to the SPDM responder (16 Table 16-9): what each carries that the answer depends on. -/
inductive SpdmReq where
  | getVersion
  | getCapabilities
  | negotiateAlgorithms
  | getDigests
  | getCertificate (slot off len : Nat)
  | challenge (slot : Nat) (nonce : List Byte)
  | getMeasurements (index : Nat) (sign : Bool) (nonce : List Byte)
  /-- The requester's half of the session ID and its key share. -/
  | keyExchange (half : Nat) (share : List Byte)
  /-- `ok`: the requester's verification data is correct. -/
  | finish (session : Nat) (ok : Bool)
  | heartbeat (session : Nat)
  | keyUpdate (session : Nat)
  | endSession (session : Nat)
  | chunkSend
  | chunkGet
  | other
deriving DecidableEq, Repr

/-- An SPDM request with its version: 0x12 for 1.2, 0x13 for 1.3. -/
structure SpdmMsg where
  version : Nat
  req : SpdmReq
deriving DecidableEq, Repr

/-- A PLDM request (16 R491). -/
inductive PldmReq where
  | getTid
  | setTid (n : Nat)
  | getVersion (typ : Nat)
  | getTypes
  | getCommands (typ : Nat)
  | getRepositoryInfo
  | getPdr (sensor : Nat)
  | getSensorReading (sensor : Nat)
  | getStateSensorReadings (sensor : Nat)
  | other
deriving DecidableEq, Repr

/-- An MCTP control message (16 R490). -/
inductive MctpReq where
  | setEid (eid : Nat)
  | getEid
  | getTypes
  | other
deriving DecidableEq, Repr


/-- A read of a register: its offset in BAR0, and the size of the access in bytes (00 R9). -/
structure RegAccess where
  off : Nat
  size : Nat
deriving DecidableEq, Repr

/-- The commands of the block: one constructor per row of spec/opcode_table.json, in its order. -/
inductive Instr where
  /-- SEAM (R27): The 128-cycle seam that ends each tick runs its hand-off, latch, memory and change phases, and then the tick boundary. -/
  | seam
  /-- MEMORY_LANE_COMPLETE (R20): A memory-lane HBM request completes before the second tick after its posting, and the item's next leg becomes ready. -/
  | memoryLaneComplete
  /-- CIPHER_REQUEST_COMPLETE (R42): A cipher array request completes its passes, and the check unit reports its results. -/
  | cipherRequestComplete (k : Fin 12)
  /-- PARITY_REQUEST_COMPLETE (R43): A parity unit request completes with P and Q. -/
  | parityRequestComplete (k : Fin 12)
  /-- RX_PARSE (R238): The routine parses a capsule and applies rows 1 to 8 of the capsule disposition. -/
  | rxParse (k : Fin 12) (c : Fin 256)
  /-- CMD_ADMIT (R45): The routine takes an admission credit, applies the remaining disposition rows and creates the waybill. -/
  | cmdAdmit (k : Fin 12) (c : Fin 256)
  /-- LOCK_CHECK (R244): The routine places a range-lock entry as HOLDING or WAITING, or leaves the command queued when no entry is free. -/
  | lockCheck (k : Fin 12) (c : Fin 256)
  /-- MAP_XLATE (R269): The routine reads the volume map entry and resolves members, strips and member LBAs. -/
  | mapXlate (k : Fin 12) (c : Fin 256)
  /-- CACHE_PROBE (R286): The routine looks up the cache directory and, on a hit, reads the lines. -/
  | cacheProbe (k : Fin 12) (c : Fin 256)
  /-- DRV_SUBMIT (R373): The routine writes NVMe submission entries with tags and rings the drive doorbells. -/
  | drvSubmit (k : Fin 12) (c : Fin 256)
  /-- DRV_REAP (R374): The routine consumes latched drive completions and updates completion-queue head doorbells. -/
  | drvReap (k : Fin 12) (c : Fin 256)
  /-- PI_CHECK (R340): The routine posts the cipher and check request for a command's data. -/
  | piCheck (k : Fin 12) (c : Fin 256)
  /-- XFER_ARM (R166): The routine arms an RDMA WRITE with completion SEND, a completion SEND alone, or an RDMA READ of payload. -/
  | xferArm (k : Fin 12) (c : Fin 256)
  /-- CPL_RETIRE (R241): The routine releases the waybill, the range lock and the capsule's serai cells. -/
  | cplRetire (k : Fin 12) (c : Fin 256)
  /-- CACHE_FILL (R281): The routine allocates cache lines for write data, writes them and marks them dirty. -/
  | cacheFill (k : Fin 12) (c : Fin 256)
  /-- DESTAGE_STEP (R288): The routine selects the dirty lines of one stripe and copies them to staging. -/
  | destageStep (k : Fin 12) (c : Fin 256)
  /-- PARITY_PLAN (R289): The routine plans each row of a stripe, issues its member reads and posts the GF request. -/
  | parityPlan (k : Fin 12) (c : Fin 256)
  /-- JOURNAL_PUT (R294): The routine writes a stripe's journal entry to both HBM journal copies. -/
  | journalPut (k : Fin 12) (c : Fin 256)
  /-- JOURNAL_RETIRE (R25): The routine retires a journal entry once every member write of its stripe has completed. -/
  | journalRetire (k : Fin 12) (c : Fin 256)
  /-- REBUILD_STEP (R308): The routine recovers one stripe's target units and writes them to their destinations. -/
  | rebuildStep (k : Fin 12) (c : Fin 256)
  /-- SCRUB_STEP (R321): The routine reads a stripe, checks its syndromes and repairs or marks it. -/
  | scrubStep (k : Fin 12) (c : Fin 256)
  /-- RESYNC_STEP (R297): The routine recomputes or verifies the parity of one stripe, or initialises or sanitizes it. -/
  | resyncStep (k : Fin 12) (c : Fin 256)
  /-- META_FLUSH (R276): The routine writes volume-map, lost-stripe-table and reservation pages to the members. -/
  | metaFlush (k : Fin 12) (c : Fin 256)
  /-- SELFTEST_STEP (R260): The routine advances a Device Self-test by one step. -/
  | selftestStep (k : Fin 12) (c : Fin 256)
  /-- ADMIN_STEP (R231): The routine executes admin, fabrics, keep-alive and reservation commands that need no member I/O. -/
  | adminStep (k : Fin 12) (c : Fin 256)
  /-- ABORT_SCAN (R249): The routine looks up the command named by an Abort and decides its outcome. -/
  | abortScan (k : Fin 12) (c : Fin 256)
  /-- DUMP_STEP (R295): The routine moves the journal, the dirty lines and the dump headers to members during a dump. -/
  | dumpStep (k : Fin 12)
  /-- SUSPEND_RESP (R69): The routine answers a command of a suspended channel with Namespace Not Ready. -/
  | suspendResp (k : Fin 12) (c : Fin 256)
  /-- ITN_CTL_LOAD (R59): A write of ITN_CTL.LOAD starts copying an image into the buffer that BUF names. -/
  | itnCtlLoad (w : Word)
  /-- ITN_CTL_SWAP (R61): A write of ITN_CTL.SWAP requests a swap to the other buffer, subject to the swap checks. -/
  | itnCtlSwap (w : Word)
  /-- ITN_CTL_START (R60): A write of ITN_CTL.START starts the sequencer with buffer A when A is READY and HBM is ready. -/
  | itnCtlStart (w : Word)
  /-- IMAGE_COPY_COMPLETE (R59): An image copy ends, and the image checks run, leaving the buffer READY or EMPTY. -/
  | imageCopyComplete (b ok : Bool) (bytes : List Byte)
  /-- ITN_SWAPPED (R62): A pending swap takes effect at its seam, and ITN_SWAPPED is raised. -/
  | itnSwapped
  /-- CLUSTER_FAULT (R66): A fence cause is detected on a cluster, which is fenced at the seam that ends the tick. -/
  | clusterFault (k : Fin 12) (cause : Fin 8) (engine : Fin 8) (unit : Fin 16)
  /-- CHANNEL_RETURN_HOME (R71): A moved channel returns to its home cluster at the first seam at which it has no waybill in flight. -/
  | channelReturnHome (c : Fin 262144)
  /-- DUMP_ENTRY (R65): At a seam the dump is entered, and the sequencer replaces the running plan with the dump plan. -/
  | dumpEntry
  /-- REGISTER_WRITE (R76): A write to a register that has no row of its own is applied, or ignored, under the access codes and the setup lock. -/
  | registerWrite (off : Nat) (size : Nat) (w : BitVec 64) (abandoned : Bool)
  /-- REGISTER_READ_CLEAR (R12): A read of an RC field returns its value and clears it. -/
  | registerReadClear (off : RegAccess)
  /-- COUNTER_LOW_READ (R11): A read of the low word of a 64-bit counter latches its high word. -/
  | counterLowRead (off : RegAccess)
  /-- RING_CTL_ENABLE (R80): A write of RING_CTL.ENABLE as 1 enables a command ring and its completion ring, or records RING_FORMAT. -/
  | ringCtlEnable (k : Fin 64) (w : Word)
  /-- RING_CTL_DISABLE (R80): A write of RING_CTL.ENABLE as 0 stops fetching and starts disabling the ring. -/
  | ringCtlDisable (k : Fin 64) (w : Word)
  /-- RING_EVT_CTL_ENABLE (R80): A write of RING_EVT_CTL.ENABLE as 1 enables the event ring. -/
  | ringEvtCtlEnable (w : Word)
  /-- RING_EVT_CTL_DISABLE (R80): A write of RING_EVT_CTL.ENABLE as 0 disables the event ring, and later events go to the backlog. -/
  | ringEvtCtlDisable (w : Word)
  /-- RING_DISABLE_DRAINED (R80): The ring becomes DISABLED once every command already started on it has ended. -/
  | ringDisableDrained (k : Fin 64)
  /-- COMMAND_DOORBELL (R82): A command doorbell write publishes descriptors up to the producer index, or puts the ring in ERROR. -/
  | commandDoorbell (k : Fin 64) (v : Word)
  /-- COMPLETION_DOORBELL (R84): A completion doorbell write consumes completions and re-arms the ring's interrupt. -/
  | completionDoorbell (k : Fin 64) (v : Word)
  /-- EVENT_DOORBELL (R84): An event doorbell write consumes events and frees slots of the event ring. -/
  | eventDoorbell (v : Word)
  /-- DESCRIPTOR_FETCH (R90): The controller fetches a descriptor once a completion slot is reserved and queues it for management work. -/
  | descriptorFetch (k : Fin 64) (bytes : List Byte)
  /-- RING_DMA_ERR (R80): An unsuccessful DMA of a ring's descriptors, completions or events puts the ring in ERROR. -/
  | ringDmaErr (k : Fin 65) (addr : BitVec 64)
  /-- MGT_BUSY_RETRY (R92): A descriptor not started 977 ticks after its fetch tick completes with MGT_BUSY_RETRY and no effect. -/
  | mgtBusyRetry
  /-- MSIX_COALESCE_TIMEOUT (R98): The coalescing time limit expires and the ring's MSI-X message is sent. -/
  | msixCoalesceTimeout (k : Fin 65)
  /-- ENDPOINT_RESET (R99): A function level reset, hot reset, link down or CH_PERST_N stops every running ring. -/
  | endpointReset (kind : Fin 4) (ref : Bool)
  /-- NOP (R91): The descriptor completes with success at fetch. -/
  | nop (k : Fin 64) (bytes : List Byte)
  /-- RING_CREATE (R102): The command sets up and enables a command ring with its completion ring. -/
  | ringCreate
  /-- RING_DELETE (R102): The command stops a ring, waits for its started descriptors and disables it. -/
  | ringDelete
  /-- IMG_LOAD (R59): The command loads and checks an itinerary image in an image buffer. -/
  | imgLoad
  /-- IMG_SWAP (R61): The command requests a swap to the image in the other buffer. -/
  | imgSwap
  /-- VARIANT_EXIT (R71): The command ends a degraded variant once the faulted resources have passed their checks. -/
  | variantExit
  /-- HOST_ADD (R103): The command adds a host NQN and host identifier to the host table. -/
  | hostAdd (ok : Bool) (nqn : List Byte)
  /-- HOST_REMOVE (R103): The command removes a host entry that has no channels and no connected QPs. -/
  | hostRemove
  /-- CHAN_CREATE (R108): The command binds a host and an NSID into a new channel at a seam. -/
  | chanCreate
  /-- CHAN_MODIFY (R109): The command changes the selected channel fields at the next seam. -/
  | chanModify
  /-- CHAN_DESTROY (R110): The command makes a channel CLOSING and completes when the channel is FREE. -/
  | chanDestroy
  /-- CHANNEL_FREE (R104): A CLOSING channel whose last waybill has retired becomes FREE, and its generation advances. -/
  | channelFree (c : Fin 262144)
  /-- CHAN_QUERY (R111): The command returns a channel's state, class, clusters, waybills, host and NSID. -/
  | chanQuery
  /-- CHAN_LIST (R111): The command writes records of live channels to a buffer. -/
  | chanList (ok : Bool)
  /-- KEY_LOAD (R351): The command unwraps and loads a data key pair or a KEK into the key store. -/
  | keyLoad (ok : Bool) (blob : List Byte)
  /-- KEY_DESTROY (R352): The command empties a data key slot or a KEK. -/
  | keyDestroy
  /-- POOL_CREATE (R266): The command formats the members, writes the labels and brings a pool ONLINE. -/
  | poolCreate (ok : Bool) (list : List Byte)
  /-- POOL_DESTROY (R267): The command erases the labels of an empty pool and frees its index. -/
  | poolDestroy
  /-- POOL_MEMBER_ADD (R268): The command places a bay in a missing or vacant member slot. -/
  | poolMemberAdd
  /-- POOL_MEMBER_REMOVE (R268): The command declares a member failed. -/
  | poolMemberRemove
  /-- VOL_CREATE (R277): The command allocates slabs for a volume and starts its initialisation. -/
  | volCreate
  /-- VOL_DELETE (R280): The command discards a volume's lines and frees its slabs and map entries. -/
  | volDelete
  /-- VOL_RESIZE (R279): The command grows or shrinks a READY volume. -/
  | volResize
  /-- MAINT_START (R327): The command starts or queues a scrub or sanitize, or resumes held rebuild passes. -/
  | maintStart
  /-- MAINT_STOP (R327): The command stops a scrub or sanitize, or holds the rebuild passes. -/
  | maintStop
  /-- BAY_POWER (R404): The command turns a bay off, on or through a cycle, clears a latch or damage, or sets its LEDs. -/
  | bayPower
  /-- ENV_SET (R427): The command sets the fan loop to automatic or manual, or starts an orderly shutdown. -/
  | envSet
  /-- PAIR_JOIN (R463): The command starts a join of the standby into lockstep. -/
  | pairJoin
  /-- PAIR_TAKEOVER (R461): The command hands over the active role, or claims the role cold. -/
  | pairTakeover
  /-- PAIR_REHEARSE (R467): The command starts a takeover rehearsal of one standby output. -/
  | pairRehearse (peer : Bool)
  /-- FW_STAGE (R493): The command checks a firmware package and writes it to the slot that is not running. -/
  | fwStage (ok : Bool) (pkg : List Byte) (failed : BitVec 2)
  /-- FW_ACTIVATE (R494): The command activates staged firmware in service or at the next reset, or commits the SVN. -/
  | fwActivate (unread : BitVec 2)
  /-- TEL_CONFIG (R528): The command sets the dump and tagging settings at the next seam. -/
  | telConfig
  /-- LOG_READ (R535): The command copies entries of a log into a buffer. -/
  | logRead (ok : Bool)
  /-- NET_ADDR_SET (R120): The command sets or clears an address entry of a logical port. -/
  | netAddrSet
  /-- QP_DESTROY (R148): The command drains or immediately errors a QP. -/
  | qpDestroy
  /-- MAC_CTL_ENABLE (R127): A write of ENABLE as 1 starts bring-up of every logical port of the physical port. -/
  | macCtlEnable (p : Fin 16) (w : Word)
  /-- MAC_CTL_DISABLE (R128): A write of ENABLE as 0 takes every logical port of the physical port down at the next seam. -/
  | macCtlDisable (p : Fin 16) (w : Word)
  /-- MAC_CTL_RESET (R128): A write of RESET resets the port, takes its links down and restarts bring-up. -/
  | macCtlReset (p : Fin 16) (w : Word)
  /-- SERDES_CALIBRATION_DONE (R127): SerDes calibration of a logical port's lanes completes. -/
  | serdesCalibrationDone (m : Fin 128) (pass : Bool)
  /-- AUTONEG_COMPLETE (R127): Clause 73 auto-negotiation completes. -/
  | autonegComplete (m : Fin 128)
  /-- AUTONEG_RESTART (R127): Auto-negotiation restarts after 2,000 ms without a partner. -/
  | autonegRestart (m : Fin 128)
  /-- LINK_TRAINING_COMPLETE (R127): Link training completes. -/
  | linkTrainingComplete (m : Fin 128)
  /-- LINK_TRAINING_ABANDON (R127): Link training is abandoned after 3,000 ms and restarts at auto-negotiation. -/
  | linkTrainingAbandon (m : Fin 128)
  /-- PCS_FEC_LOCK (R127): PCS alignment lock and FEC lock are reached on every lane. -/
  | pcsFecLock (m : Fin 128)
  /-- UP_HOLD_EXPIRE (R127): Lock has held for UP_HOLD, and the link comes up at the next seam. -/
  | upHoldExpire (m : Fin 128)
  /-- LOCK_LOSS (R128): A logical port loses PCS alignment lock or FEC lock, and reception stops. -/
  | lockLoss (m : Fin 128)
  /-- DOWN_HOLD_EXPIRE (R128): Lock has not returned within DOWN_HOLD, so the link goes down and bring-up restarts. -/
  | downHoldExpire (m : Fin 128)
  /-- FRAME_HEADER_LOOKUP (R181): Header lookup completes and decides the received frame's classification, area, admission, marking and convoy. -/
  | frameHeaderLookup (m : Fin 128) (bytes : List Byte) (cycle : Fin 2048)
  /-- FRAME_TAIL (R187): A frame's tail is received, and a bad tail, a length mismatch or a runt is acted on. -/
  | frameTail (m : Fin 128) (rest : List Byte) (bad : Bool) (cycle : Fin 2048)
  /-- PFC_FRAME_RECEIVE (R124): A received PFC frame pauses egress of the enabled priorities it names. -/
  | pfcFrameReceive (m : Fin 128) (vec : BitVec 8) (quanta : List Nat)
  /-- PFC_PAUSE_EXPIRE (R124): The pause time of a priority runs out, and its egress resumes. -/
  | pfcPauseExpire (m : Fin 128) (pr : Fin 8)
  /-- PFC_XOFF_REPEAT (R125): While XOFF holds, the PFC frame is resent each time half the pause time passes. -/
  | pfcXoffRepeat (m : Fin 128) (pr : Fin 8)
  /-- FEC_WINDOW_END (R130): A 100 ms window ends, and FEC_DEGRADED is set or cleared. -/
  | fecWindowEnd (m : Fin 128) (corr uncorr : Word)
  /-- PORT_LOST (R131): A physical port's hardware fails, its links stop and a kind-3 variant may be selected. -/
  | portLost (p : Fin 16) (cause : Fin 4) (ref : Bool)
  /-- MANAGEMENT_FRAME (R121): Management firmware answers ARP, neighbour solicitations and echo requests, and handles PTP messages. -/
  | managementFrame
  /-- PTP_SOURCE_LOSS (R135): The PTP source link is down or its master is lost, so the servo moves to BACKUP or HOLDOVER. -/
  | ptpSourceLoss
  /-- PLL_TRIM_UPDATE (R136): At the seam that ends tick index 255, the core PLL trim is changed for tick discipline. -/
  | pllTrimUpdate
  /-- MAC_PTP_SEAM_NS_READ (R138): A read of MAC_PTP_SEAM_NS latches the seconds words for the next reads. -/
  | macPtpSeamNsRead
  /-- FRAME_DEPART (R182): A frame's last copy has been transmitted, and its cells are freed. -/
  | frameDepart (m : Fin 128) (cycle : Fin 2048)
  /-- EGRESS_SELECT (R217): When the MAC can begin a new frame, the scheduling hierarchy chooses the next eligible frame. -/
  | egressSelect (m : Fin 128)
  /-- MAC_AGE_OUT (R197): A MAC table entry not refreshed for AGE_S is removed. -/
  | macAgeOut (vlan : Fin 4096) (mac : List Byte)
  /-- SERAI_ECC_ERROR (R198): An uncorrectable serai error is handled by the area that holds it. -/
  | seraiEccError (area : Fin 5) (index : Word) (corrected : Bool) (hit : SeraiHit)
  /-- CM_REQ (R144): Management firmware checks a CM REQ and answers it with REP or REJ. -/
  | cmReq (r : CmReq)
  /-- REP_RESEND (R146): REP is resent every 16,384 ticks while the QP stays in RTR, and REJ follows the fourth REP. -/
  | repResend (q : Fin 1048576)
  /-- CM_RTU (R147): An RTU received moves the QP to RTS. -/
  | cmRtu (q : Fin 1048576)
  /-- CM_DREQ (R147): A received DREQ is answered with DREP, and a QP in RTS or DRAIN enters ERR. -/
  | cmDreq (q : Fin 1048576)
  /-- CM_DREP (R147): A received DREP moves a QP in DISC to TIMEWAIT. -/
  | cmDrep (q : Fin 1048576)
  /-- DREQ_RESEND (R147): A DREQ unanswered for 16,384 ticks is resent, and the QP goes to TIMEWAIT after the fourth. -/
  | dreqResend (q : Fin 1048576)
  /-- QP_DRAINED (R147): A QP in DRAIN with no waybill and no unacknowledged packet sends DREQ and enters DISC. -/
  | qpDrained (q : Fin 1048576)
  /-- DRAIN_TIMEOUT (R147): A QP in DRAIN for 976,563 ticks enters ERR. -/
  | drainTimeout (q : Fin 1048576)
  /-- QP_ERR_CLEARED (R147): A QP in ERR with no waybill left goes to TIMEWAIT. -/
  | qpErrCleared (q : Fin 1048576)
  /-- TIMEWAIT_EXPIRE (R147): The TIMEWAIT period ends, and the QP index returns to the free list. -/
  | timewaitExpire (q : Fin 1048576)
  /-- ROCE_PACKET_RECEIVE (R159): An inbound RoCEv2 packet is checked and handled by its opcode and PSN. -/
  | rocePacketReceive
  /-- ACK_RECEIVE (R167): An inbound ACK frees held packets and resets the retry count. -/
  | ackReceive
  /-- NAK_RECEIVE (R167): An inbound NAK causes a resend, an RNR wait or an ERR cause. -/
  | nakReceive
  /-- READ_RESPONSE_RECEIVE (R168): An RDMA READ Response packet is accepted, reissued for a gap or discarded. -/
  | readResponseReceive
  /-- CNP_RECEIVE (R174): A received CNP cuts the QP's rate unless CNP_HOLD is in force. -/
  | cnpReceive
  /-- ACK_TIMEOUT (R169): An expired ACK deadline resends the held packets or moves the QP to ERR. -/
  | ackTimeout (q : Fin 1048576)
  /-- RNR_RESUME (R167): An RNR wait ends, and the held packets from the NAK's PSN are resent. -/
  | rnrResume (q : Fin 1048576)
  /-- CONTEXT_FETCH_COMPLETE (R157): Two ticks after a QP context fetch is issued, the context is resident. -/
  | contextFetchComplete (q : Fin 1048576)
  /-- EGRESS_FETCH_RELEASE (R154): A transmission waiting for its context is released two ticks after its egress fetch is granted. -/
  | egressFetchRelease (q : Fin 1048576) (cycle : Fin 2048)
  /-- TIMER_FETCH_COMPLETE (R154): A timer fetch completes, and the expiry is acted on. -/
  | timerFetchComplete (q : Fin 1048576)
  /-- TRANSMISSION_RELEASE (R170): A waiting requester packet is released once pacing, ORD, READ pins, MAX_UNACKED and hold cells permit. -/
  | transmissionRelease (q : Fin 1048576) (cycle : Fin 2048)
  /-- RDM_QP_SEL_WRITE (R149): A write of RDM_QP_SEL takes a snapshot of the QP into RDM_QP_INFO at the next seam. -/
  | rdmQpSelWrite (w : Word)
  /-- TMG_CHAN_SEL_WRITE (R202): A write of TMG_CHAN_SEL takes a snapshot of the channel's meter into TMG_CHAN_INFO at the next seam. -/
  | tmgChanSelWrite (w : Word)
  /-- LAY_VOL_SEL_WRITE (R274): A write of LAY_VOL_SEL takes a snapshot of the volume into LAY_VOL_INFO at the next seam. -/
  | layVolSelWrite (w : Word)
  /-- CIP_KEY_SEL_WRITE (R348): A write of CIP_KEY_SEL takes a snapshot of the key slot into CIP_KEY_INFO at the next seam. -/
  | cipKeySelWrite (w : Word)
  /-- KEEP_ALIVE_EXPIRE (R233): A controller's keep-alive timer runs out, and its QPs are moved to ERR. -/
  | keepAliveExpire (k : Fin 49152)
  /-- CONTROLLER_SHUTDOWN_COMPLETE (R234): With no waybill of the controller in flight, CSTS.SHST becomes 10b. -/
  | controllerShutdownComplete (k : Fin 49152)
  /-- CONTROLLER_DISABLE_COMPLETE (R234): After CC.EN goes to 0 and its I/O QPs have left DRAIN, CSTS.RDY becomes 0. -/
  | controllerDisableComplete (k : Fin 49152)
  /-- POOL_IMPORT (R296): Management firmware imports the pools, classifies the stop and restores dirty lines. -/
  | poolImport (im : Import)
  /-- MAINT_ACTIVITY_START (R325): A queued or preempted maintenance activity starts or resumes when its members become free. -/
  | maintActivityStart (p : Fin 16)
  /-- MAINT_PREEMPTED (R324): A preempting activity's stripes in flight end and its record is written. -/
  | maintPreempted (p : Fin 16)
  /-- SCRUB_REPEAT (R322): A new scrub pass starts r times 24 hours after the previous one started. -/
  | scrubRepeat (p : Fin 16)
  /-- MAINT_LOAD_UPDATE (R314): At the seam that ends tick index 255, the host load L of adaptive pace is recomputed. -/
  | maintLoadUpdate
  /-- HBM_STACK_LOST (R547): An HBM stack is lost, and a stack-loss variant may be selected. -/
  | hbmStackLost (n : Fin 4) (cause : Fin 4)
  /-- HBM_UNCORRECTABLE (R548): An uncorrectable HBM error is handled by the region that holds it. -/
  | hbmUncorrectable (n : Fin 4) (r : HbmRegion)
  /-- CIPHER_ALARM (R354): An alarm source asserts and is latched in the always-on domain. -/
  | cipherAlarm (code : Fin 17) (k : Fin 12)
  /-- RNG_RETEST (R357): Every 977 ticks the halted generator repeats its start-up tests, and resumes when they pass. -/
  | rngRetest (pass : Bool)
  /-- CIP_ALARM_CLEAR (R357): A write of 1 to a latched CIP_ALARM bit clears it unless its source is present. -/
  | cipAlarmClear (w present : Word)
  /-- ZEROISE_MARKER (R438): A zeroise marker received from the peer zeroises this controller when ZERO_FOLLOW is 1. -/
  | zeroiseMarker (code : Fin 7)
  /-- CHK_SW_START (R359): A write of CHK_SW_CTL.START starts a software CRC over a host buffer. -/
  | chkSwStart (n : Fin 2) (w : Word)
  /-- CHK_SW_DONE (R359): A software check ends, with its result or CHK_LEN or CHK_DMA. -/
  | chkSwDone (n : Fin 2) (ok : Bool) (data : List Byte)
  /-- BAY_LINK_UP (R366): A root port's link comes up at its rate and width. -/
  | bayLinkUp (b : Fin 128) (rate width : Fin 16) (flit : Bool)
  /-- LINK_RATE_CHANGE (R366): A link recovery changes rate or width, setting DEGRADED or triggering containment. -/
  | linkRateChange (b : Fin 128) (rate width : Fin 16)
  /-- BAY_TRAINING_FAIL (R367): A training attempt fails, so BAY_PERST_N is asserted for a retry or the bay fails. -/
  | bayTrainingFail (b : Fin 128)
  /-- PERST_RETRY_RELEASE (R367): After 10 ms, BAY_PERST_N is released and training restarts at step 4. -/
  | perstRetryRelease (b : Fin 128)
  /-- BAY_CONFIG_COMPLETE (R368): Drive configuration completes, and CC.EN is written with the admin queue set. -/
  | bayConfigComplete (b : Fin 128) (capTo : Fin 256)
  /-- BAY_CONTROLLER_READY (R368): The drive's CSTS.RDY reads 1, and identify, format and queue setup begin. -/
  | bayControllerReady (b : Fin 128)
  /-- BAY_INIT_COMPLETE (R369): Step 10 of bring-up completes its checks, and the bay becomes ONLINE. -/
  | bayInitComplete (b : Fin 128) (r : DriveReport)
  /-- BRINGUP_STEP_TIMEOUT (R367): A bring-up step exceeds its maximum, and the bay fails with reason 9. -/
  | bringupStepTimeout (b : Fin 128)
  /-- CONTAINMENT_TRIGGER (R376): A root port disables its link and ends every outstanding command of the bay with DRV_PATH. -/
  | containmentTrigger (b : Fin 128) (cause : Fin 7) (ref : Bool)
  /-- CONTAINMENT_RELEASE (R377): Containment is released 10 ms after the trigger, and bring-up reruns. -/
  | containmentRelease (b : Fin 128)
  /-- RECOVER_TIMEOUT (R367): A recovering bay not ONLINE within RECOVER_MAX enters FAILED. -/
  | recoverTimeout (b : Fin 128)
  /-- DRIVE_COMPLETION (R374): A drive writes a completion entry, which is checked and latched for its cluster. -/
  | driveCompletion (b : Fin 128) (q : Fin 64) (cid : Fin 65536) (phase : Bool) (sct : Fin 8) (sc : Fin 256) (crd : Fin 4) (dnr : Bool)
  /-- DRIVE_COMMAND_TIMEOUT (R378): A drive command outstanding for CMD_TO is aborted on the admin queue. -/
  | driveCommandTimeout (t : Fin 65536)
  /-- DRIVE_ABORT_TIMEOUT (R378): A command not ended ABORT_TO after its Abort triggers containment. -/
  | driveAbortTimeout (t : Fin 65536)
  /-- DRIVE_DMA_ACCESS (R372): A drive memory access is translated through its window, or answered as a DMA violation. -/
  | driveDmaAccess (b : Fin 128) (addr : BitVec 64) (write : Bool) (data : List Byte) (len : Fin 4097)
  /-- WRITE_RETRY_PERMITTED (R378): The CRD delay of a retryable write error ends, and the write may be retried. -/
  | writeRetryPermitted (p : Fin 16)
  /-- SMART_POLL (R369): Each second, firmware reads the SMART log and the NVMe-MI data of each drive. -/
  | smartPoll (b : Fin 128) (warning : BitVec 8) (temp : Fin 65536)
  /-- BAY_EVALUATION (R386): Every 8 µs, the evaluator takes the steps of the evaluation order for every bay. -/
  | bayEvaluation (vbus hold : Fin 4096) (bays : List BaySample)
  /-- INRUSH_TIMEOUT (R390): The inrush timer reaches INRUSH_MAX, and the bay trips with cause 4. -/
  | inrushTimeout (b : Fin 128)
  /-- PRESENCE_CONFIRM (R401): A presence change held for 100 ms is confirmed as an insertion or a removal. -/
  | presenceConfirm (b : Fin 128)
  /-- RETRY_DELAY_EXPIRE (R399): The retry delay of a tripped bay ends, and inrush restarts when permitted. -/
  | retryDelayExpire (b : Fin 128)
  /-- RETRY_COUNT_RESET (R400): Power-good held for 10 s returns RETRIES to 0. -/
  | retryCountReset (b : Fin 128)
  /-- BAY_CYCLE_OFF_EXPIRE (R405): The OFF_MS of a CYCLE ends, and a power request is made. -/
  | bayCycleOffExpire (b : Fin 128)
  /-- FAN_LOOP_STEP (R412): Every 100 ms core 3 computes the fan duty and the holdup figures. -/
  | fanLoopStep (x : EnvSample)
  /-- FAN_FAIL (R414): A fan below TACH_MIN for 30 steps becomes FAILED. -/
  | fanFail (f : Fin 12)
  /-- FAN_RESTORE (R414): A failed fan at or above TACH_MIN for 30 steps stops being FAILED. -/
  | fanRestore (f : Fin 12)
  /-- CRITICAL_TEMP_SHUTDOWN (R415): A thermistor or the die critical for 100 steps starts an orderly shutdown. -/
  | criticalTempShutdown
  /-- PWM_LOOP_STALL (R417): With no duty written for 1 s, the PWM block drives the fans at FAIL_DUTY. -/
  | pwmLoopStall
  /-- CHARGER_TIMEOUT (R419): The charger enabled for CHG_TIMEOUT without reaching V_OFF sets FAULT. -/
  | chargerTimeout
  /-- HOLD_FAULT_CLEAR (R419): A write of 1 to ENV_HOLD_STATUS.FAULT clears it, and charging resumes. -/
  | holdFaultClear (w : Word)
  /-- POWER_FAIL_LATCH (R423): PWR_FAIL_N low for PF_FILTER is latched as a power failure. -/
  | powerFailLatch
  /-- DUMP_WRITE_COMPLETE (R425): A dump write completes or fails, and a failure is neither retried nor relocated. -/
  | dumpWriteComplete
  /-- DUMP_COMPLETE (R424): The drive flush completes on every member, and the dump outcome is recorded. -/
  | dumpComplete
  /-- RESTORE_RESET (R426): After a dump and RESTORE_MS of restored power, core 3 requests a chip reset. -/
  | restoreReset
  /-- PAIR_BUNDLE_LOCK_CHANGE (R431): A pair bundle loses FEC lock, and the link may go down. -/
  | pairBundleLockChange (k : Fin 16) (rx lock ref : Bool)
  /-- BUNDLE_REJOIN (R431): A bundle that has held lock for 100 ms rejoins striping. -/
  | bundleRejoin (k : Fin 16)
  /-- KEYX_RECEIVE (R436): A KEYX frame advances the ECDH exchange that keys the link. -/
  | keyxReceive (bytes : List Byte)
  /-- LINK_REKEY (R437): Every 1,048,576 ticks, the link keys advance one epoch. -/
  | linkRekey
  /-- INGRESS_FRAME_RECEIVE (R444): The standby presents a replicated ingress frame with its dispositions at the recorded cycle. -/
  | ingressFrameReceive (bytes : List Byte)
  /-- RECORD_APPLY (R445): The standby applies the record of a tick in its change phase. -/
  | recordApply (frames : List (List Byte))
  /-- STATUS_FRAME_RECEIVE (R447): The active receives a STATUS frame with receipts and mirror acknowledgements. -/
  | statusFrameReceive (bytes : List Byte) (cycle : Fin 2048)
  /-- MGT_FRAME_RECEIVE (R449): An MGT frame carries a replicated command, an image, a key or rehearsal control. -/
  | mgtFrameReceive (bytes : List Byte) (failed unread : BitVec 2)
  /-- JOIN_FRAME_RECEIVE (R464): The standby receives copied state during a join. -/
  | joinFrameReceive (bytes : List Byte)
  /-- RESEND_FRAME_RECEIVE (R435): A RESEND frame makes the sender resend its MGT stream from the named counter. -/
  | resendFrameReceive (bytes : List Byte)
  /-- RECORD_MISSING (R453): A record not complete by the standby's change phase puts the standby in HOLDING. -/
  | recordMissing
  /-- LOSS_WAIT_EXPIRE (R453): LOSS_WAIT passes without a release, and the standby leaves lockstep. -/
  | lossWaitExpire
  /-- STANDBY_LOST (R456): The active declares its standby lost, becomes ALONE and releases its held outputs. -/
  | standbyLost
  /-- ROLE_CLAIM_TIMEOUT (R439): PAIR_ACT_N high for the claim wait lets a controller claim the active role and become ALONE. -/
  | roleClaimTimeout
  /-- PEER_CLAIM_SENSED (R441): A releasing controller senses the peer's claim and stops driving the shared outputs. -/
  | peerClaimSensed
  /-- LOCKSTEP_OFFSET_LOSS (R443): A standby offset out of tolerance for 4 ticks leaves lockstep. -/
  | lockstepOffsetLoss
  /-- RELEASE_CONFIRMED (R458): PAIR_ACT_N high at ACT_FILTER seams lets the standby claim and take over. -/
  | releaseConfirmed
  /-- ADDRESS_ANNOUNCE_REPEAT (R459): The announcements are repeated after 1 ms and after 10 ms. -/
  | addressAnnounceRepeat
  /-- RESERVATION_PREEMPT_COMPLETE (R460): The preempt on a bay completes, and outstanding writes are resubmitted. -/
  | reservationPreemptComplete (b : Fin 128)
  /-- JOIN_PRECOPY_END (R464): The pre-copy passes end, and the hold begins. -/
  | joinPrecopyEnd (residue : Nat) (passes : Fin 33)
  /-- JOIN_HOLD_END (R464): The residue is copied and the CRCs compared, and lockstep begins. -/
  | joinHoldEnd
  /-- JOIN_HOLD_TIMEOUT (R466): The hold reaches HOLD_MAX, and the join is aborted. -/
  | joinHoldTimeout
  /-- REHEARSAL_END (R467): A rehearsal ends, and PAIR_REHEARSE_DONE is raised with its result. -/
  | rehearsalEnd (result : Fin 4) (n : Fin 17)
  /-- MGT_WATCHDOG_RESET (R473): The management watchdog resets cores 0 to 2, which restart from SRAM or SPI NOR. -/
  | mgtWatchdogReset (cause : Fin 4) (sram : Bool) (unread : BitVec 2)
  /-- CORE3_WATCHDOG_RESET (R474): The core 3 watchdog resets core 3 alone. -/
  | core3WatchdogReset (cause : Fin 4)
  /-- BOOT (R479): After a chip reset, the boot ROM checks and loads firmware, derives identity and sets READY. -/
  | boot (unread : BitVec 2)
  /-- RECOVERY_GO (R481): A write of MGT_RECOV_CTL.GO boots a recovery package from control-host memory. -/
  | recoveryGo (w : Word) (ok : Bool) (pkg : List Byte)
  /-- ITK_COMMIT (R487): A write of MGT_ITK_CTL.COMMIT enrols an itinerary signing key, or refuses it. -/
  | itkCommit (w : Word)
  /-- ITK_CLEAR (R487): A write of MGT_ITK_CTL.CLEAR empties the selected signing key slot. -/
  | itkClear (w : Word)
  /-- MGT_MEAS_SEL_WRITE (R486): A write of MGT_MEAS_SEL takes a snapshot of a measurement into MGT_MEAS_VAL at the next seam. -/
  | mgtMeasSelWrite (w : Word)
  /-- SPDM_REQUEST (R488): An SPDM request over MCTP is answered by the responder. -/
  | spdmRequest (smb good : Bool) (size : Nat) (m : SpdmMsg)
  /-- SPDM_HEARTBEAT_TIMEOUT (R488): A heartbeat missed for twice HeartbeatPeriod ends the SPDM session. -/
  | spdmHeartbeatTimeout (session : Nat)
  /-- PLDM_REQUEST (R491): A PLDM request is answered with sensor and repository data. -/
  | pldmRequest (smb good : Bool) (size : Nat) (m : PldmReq)
  /-- POWER_ON_RESET (R503): VDD_AUX or VDD_ADC rising resets everything, the always-on domain included. -/
  | powerOnReset (pairEn pairSlot chSris : Bool)
  /-- EXTERNAL_RESET (R504): SYS_RST_N held low for at least 10 µs causes a chip reset. -/
  | externalReset
  /-- CRS_CHIP_RESET_GO (R504): A write of CRS_CHIP_RESET.GO with the key starts a chip reset. -/
  | crsChipResetGo (w : Word)
  /-- CORE_CLOCK_LOSS (R504): The core PLL out of lock for 2 ticks causes a chip reset with cause 6. -/
  | coreClockLoss
  /-- CORE_SUPPLY_LOSS (R509): A monitored core supply leaving its limits raises the alarm and resets the chip. -/
  | coreSupplyLoss (sup : Fin 2)
  /-- FATAL_ERROR (R507): A fatal error in shared state resets the chip or enters the dump. -/
  | fatalError (src : Fin 8)
  /-- MGT_PLL_LOSS (R501): The management PLL loses lock, and cores 0 to 3 are held in reset. -/
  | mgtPllLoss
  /-- MGT_PLL_RELOCK (R501): The management PLL holds lock for 1 ms, and the cores restart. -/
  | mgtPllRelock
  /-- AUX_PLL_LOSS (R502): The auxiliary PLL loses lock, and the always-on domain switches to its oscillator. -/
  | auxPllLoss
  /-- AUX_PLL_RETURN (R502): The auxiliary PLL has held lock for 10 ms, and the domain returns to it. -/
  | auxPllReturn
  /-- HBM_TRAINING_DONE (R508): HBM is trained and cleared, and HBM_READY is set. -/
  | hbmTrainingDone (fail : BitVec 4)
  /-- CLUSTER_RESET_RELEASE (R511): One ms after a fence, the cluster reset is released and its check starts, or waits for the alarm clear. -/
  | clusterResetRelease (k : Fin 12)
  /-- CLUSTER_CHECK_DONE (R512): A cluster check passes or fails, and CRS_CLUSTER_CHECK is raised. -/
  | clusterCheckDone (k : Fin 12) (step : Fin 7)
  /-- CLUSTER_CHECK_TIMEOUT (R512): A check running past 200 ms fails at the step in progress. -/
  | clusterCheckTimeout (k : Fin 12) (step : Fin 7)
  /-- CRS_CLU_CTL_RETEST (R511): A write of RETEST resets and rechecks a PASSED or FAILED cluster. -/
  | crsCluCtlRetest (k : Fin 12) (w : Word)
  /-- TELEMETRY_DUMP_LATCH (R524): At the seam that ends tick index 255 of each INTERVAL-th cycle, a counter snapshot is latched. -/
  | telemetryDumpLatch
  /-- TEL_DUMP_COPY_DONE (R525): A snapshot is copied to its slot, the header is written last and the producer index advances. -/
  | telDumpCopyDone (ok : Bool)
  /-- TEL_CTR_SEL_WRITE (R523): A write of TEL_CTR_SEL takes a snapshot of one counter into TEL_CTR_VAL at the next seam. -/
  | telCtrSelWrite (w : Word)
  /-- ERROR_LOG_WRITE (R534): Core 3 writes a selected event to the SPI NOR error log, within its credit. -/
  | errorLogWrite
  /-- GLB_LOCK_SET (R542): A write of GLB_LOCK.SET is checked, and either sets the setup lock or records a refusal. -/
  | glbLockSet (w : Word)
  /-- BAY_PERST_RELEASE (R368): At least 100 ms after a bay's power-good, BAY_PERST_N is released and link training begins (step 4 of Table 12-3). -/
  | bayPerstRelease (b : Fin 128)
  /-- FIRST_CONFIG_REQUEST (R368): At least 100 ms after the bay link comes up, the first configuration request is issued to the drive (step 6 of Table 12-3). -/
  | firstConfigRequest (b : Fin 128)
  /-- MCTP_CONTROL_REQUEST (R490): An MCTP control message (type 0x00) from the bus owner, such as Set Endpoint ID, is answered and sets the endpoint's EID on its transport. -/
  | mctpControlRequest (smb good : Bool) (size : Nat) (m : MctpReq)
  /-- REFERENCE_CLOCK_RETURN (R517): A lost reference clock returns, CRS_CLOCK is raised as restored, and the crossings apply R515 or R516 before they accept new values. -/
  | referenceClockReturn (dom : Fin 8) (n : Fin 8)
  /-- ALWAYS_ON_SUPPLY_LOSS (R441): VDD_AUX is lost, and the controller stops driving BAY_EN, FAN_PWM and HOLD_CHG_EN at once and releases PAIR_ACT_N. -/
  | alwaysOnSupplyLoss
  /-- INPUT_POWER_RETURN (R423): PWR_FAIL_N rises: a pulse shorter than PF_FILTER is counted in PF_GLITCHES, and after a dump the RESTORE_MS wait begins. -/
  | inputPowerReturn
  /-- CLAIM_HOLD_EXPIRE (R439): 10 ms after a claim with no conflicting claim from the peer, the claimant begins to drive its shared outputs and network transmitters. -/
  | claimHoldExpire
  /-- TICK_BOUNDARY_MARK (R443): The standby receives the active's tick-boundary mark on bundle 0, measures its offset and trims its core PLL. -/
  | tickBoundaryMark (offset latency : Fin 65536)
  /-- ABANDONED_REGISTER_READ (R514): A register read abandoned at a handshake crossing, or a read of a block whose clock is lost, completes with 0xFFFF_FFFF and counts in ABANDONED_RD. -/
  | abandonedRegisterRead (off : Nat)
deriving DecidableEq, Repr

end Sys2Proof
end

