-- ==== Sys2Proof/Decode.lean ====
section
/-!
DEFINITION. Commands spelt as words. The command table of this block gives no row any bits (spec/opcode_table.json: its `fields` are empty), so
no word spells a command.
-/

namespace Sys2Proof

/-- The command that a word of `nbits` bits spells by the command table: none, since the table gives no row any bits. -/
def decodeTableWord (_nbits _w : Nat) : Option Instr := none

end Sys2Proof
end

