-- ==== Sys2Proof/Machine/RegMap.lean ====
section
/-!
DEFINITION. The register map (00 R9, R12; 19 R537, R538, Table 19-6): every register of BAR0 with its offset, its
instances and its fields, transcribed from the register tables of the chapters of spec/ (the tables under the headings
of the form NAME, title, offset), each field with its access code, its reset value and the condition that a write meets.
-/

namespace Sys2Proof.Machine

/-- A bit field of a 32-bit register: bits lsb + width - 1 down to lsb. -/
structure Fld where
  lsb : Nat
  width : Nat
deriving DecidableEq, Repr

/-- The access codes of Table 0-7 (00 R12). -/
inductive Access where
  | ro | rw | rwl | w1c | rc | wo
deriving DecidableEq, Repr

/-- The condition under which a write of a field takes effect; where it fails, the field stays unchanged.
`range` is stated in the field's own meaning; the named ones depend on other fields or on state. -/
inductive WRule where
  | any
  | range (lo hi : Nat)
  /-- The field has a row of its own in the table of commands and is not written by a plain register write. -/
  | ownRow
  /-- ITN_CTL.START (02 R60). -/
  | itnStart
  /-- SWC_SERAI_CFG.CONVOY_CELLS (06 R180). -/
  | convoyCells
  /-- SWC_HOLD_CFG.HOLD_RESERVE (06 R180). -/
  | holdReserve
  /-- SWC_PQ_BUF.MIN and HEADROOM (06 R180). -/
  | swcPq
  /-- MAC_LP_CFG.PFC_EN (06 R180). -/
  | pfcEn
  /-- MAC_CTL.BREAKOUT, PMD, AN_EN and LT_EN: at most `hi`, and only while ENABLE is 0 (04 R115). -/
  | macDown (hi : Nat)
  /-- MAC_PTP_CTL.SRC and BACKUP: a logical port or 0xFF (04, note below the table). -/
  | ptpPort
  /-- SWC_PQ_PFC.XON_THR at most XOFF_THR. -/
  | xonThr
  /-- TMG_PORT_CFG.OVERHEAD at least -32. -/
  | overhead
  /-- DRV_CFG.MODE (12 R363, R366). -/
  | drvMode
  /-- DRV_BAY_CFG.MAX_GTS, MIN_GTS and MIN_WIDTH (12 R366). -/
  | maxGts | minGts | minWidth
  /-- BAY_FUSE and BAY_CURVE: refused in INRUSH or ON (13 R391). -/
  | bayOff
  /-- BAY_LED: refused while the pins carry SMBus (13 R403). -/
  | bayLed
  /-- BAY_TH_LIMIT.RESTART_C below TRIP_C (13). -/
  | restartC
  /-- ENV_HOLD_CHG.V_ON below V_OFF (14). -/
  | vOn
  /-- TEL_DUMP_CONS.CONS below SLOTS (18). -/
  | dumpCons
deriving DecidableEq, Repr

/-- One field of a register definition. `lockFree` marks a field that stays writable after GLB_LOCK (03 R76). -/
structure FieldDef where
  name : String
  fld : Fld
  acc : Access
  reset : Nat
  rule : WRule
  lockFree : Bool
deriving DecidableEq, Repr

/-- One register definition: base offset and, per index, the number of instances and the stride (19 R538). -/
structure RegDef where
  name : String
  base : Nat
  dims : List (Nat × Nat)
  fields : List FieldDef
deriving DecidableEq, Repr

/-! ### Offsets -/

/-- ITN_CTL: Itinerary control. -/
def Reg.ITN_CTL : Nat := 0x00200000
/-- ITN_STATUS: Itinerary status. -/
def Reg.ITN_STATUS : Nat := 0x00200004
/-- ITN_LOAD_ADDR_LO: Image load address, low. -/
def Reg.ITN_LOAD_ADDR_LO : Nat := 0x00200008
/-- ITN_LOAD_ADDR_HI: Image load address, high. -/
def Reg.ITN_LOAD_ADDR_HI : Nat := 0x0020000C
/-- ITN_LOAD_SIZE: Image load size. -/
def Reg.ITN_LOAD_SIZE : Nat := 0x00200010
/-- ITN_LOAD_STATUS: Last load status. -/
def Reg.ITN_LOAD_STATUS : Nat := 0x00200014
/-- ITN_TICK_LO: Tick counter. -/
def Reg.ITN_TICK_LO : Nat := 0x00200018
/-- ITN_TICK_HI: Tick counter. -/
def Reg.ITN_TICK_HI : Nat := 0x0020001C
/-- ITN_IMAGE_ID_LO[0..1]: Buffer image identifiers. -/
def Reg.ITN_IMAGE_ID_LO (i : Nat) : Nat := 0x00200020 + 0x8 * i
/-- ITN_IMAGE_ID_HI[0..1]: Buffer image identifiers. -/
def Reg.ITN_IMAGE_ID_HI (i : Nat) : Nat := 0x00200024 + 0x8 * i
/-- ITN_FENCE: Fenced clusters. -/
def Reg.ITN_FENCE : Nat := 0x00200030
/-- ITN_FAULT_CAUSE[0..11]: Cluster fault cause. -/
def Reg.ITN_FAULT_CAUSE (i : Nat) : Nat := 0x00200040 + 0x4 * i
/-- ITN_OVERRUN_CNT: Budget overruns. -/
def Reg.ITN_OVERRUN_CNT : Nat := 0x00200070
/-- ITN_SUSPENDED: Suspended channels. -/
def Reg.ITN_SUSPENDED : Nat := 0x00200074
/-- RING_CMD_BASE_LO[0..63]: Command ring base. -/
def Reg.RING_CMD_BASE_LO (i : Nat) : Nat := 0x00400000 + 0x40 * i
/-- RING_CMD_BASE_HI[0..63]: Command ring base. -/
def Reg.RING_CMD_BASE_HI (i : Nat) : Nat := 0x00400004 + 0x40 * i
/-- RING_CPL_BASE_LO[0..63]: Completion ring base. -/
def Reg.RING_CPL_BASE_LO (i : Nat) : Nat := 0x00400008 + 0x40 * i
/-- RING_CPL_BASE_HI[0..63]: Completion ring base. -/
def Reg.RING_CPL_BASE_HI (i : Nat) : Nat := 0x0040000C + 0x40 * i
/-- RING_SIZE[0..63]: Ring size. -/
def Reg.RING_SIZE (i : Nat) : Nat := 0x00400010 + 0x40 * i
/-- RING_CTL[0..63]: Ring control. -/
def Reg.RING_CTL (i : Nat) : Nat := 0x00400014 + 0x40 * i
/-- RING_COAL[0..63]: Interrupt coalescing. -/
def Reg.RING_COAL (i : Nat) : Nat := 0x00400018 + 0x40 * i
/-- RING_STATUS[0..63]: Ring status. -/
def Reg.RING_STATUS (i : Nat) : Nat := 0x0040001C + 0x40 * i
/-- RING_IDX[0..63]: Ring indices. -/
def Reg.RING_IDX (i : Nat) : Nat := 0x00400020 + 0x40 * i
/-- RING_EVT_BASE_LO: Event ring base. -/
def Reg.RING_EVT_BASE_LO : Nat := 0x00401000
/-- RING_EVT_BASE_HI: Event ring base. -/
def Reg.RING_EVT_BASE_HI : Nat := 0x00401004
/-- RING_EVT_SIZE: Event ring size. -/
def Reg.RING_EVT_SIZE : Nat := 0x00401008
/-- RING_EVT_CTL: Event ring control. -/
def Reg.RING_EVT_CTL : Nat := 0x0040100C
/-- RING_EVT_COAL: Event ring coalescing. -/
def Reg.RING_EVT_COAL : Nat := 0x00401010
/-- RING_EVT_STATUS: Event ring status. -/
def Reg.RING_EVT_STATUS : Nat := 0x00401014
/-- RING_EVT_BACKLOG: Event backlog. -/
def Reg.RING_EVT_BACKLOG : Nat := 0x00401018
/-- RING_EVT_LOST: Events lost. -/
def Reg.RING_EVT_LOST : Nat := 0x0040101C
/-- RING_EVT_IDX: Event ring index. -/
def Reg.RING_EVT_IDX : Nat := 0x00401020
/-- MAC_CTL[0..15]: Port control. -/
def Reg.MAC_CTL (i : Nat) : Nat := 0x00800000 + 0x100 * i
/-- MAC_STATUS[0..15]: Port status. -/
def Reg.MAC_STATUS (i : Nat) : Nat := 0x00800004 + 0x100 * i
/-- MAC_LANE_POL[0..15]: Lane polarity. -/
def Reg.MAC_LANE_POL (i : Nat) : Nat := 0x00800008 + 0x100 * i
/-- MAC_TS_LAT[0..15]: Timestamp compensation. -/
def Reg.MAC_TS_LAT (i : Nat) : Nat := 0x0080000C + 0x100 * i
/-- MAC_LP_CFG[0..127]: Logical port configuration. -/
def Reg.MAC_LP_CFG (i : Nat) : Nat := 0x00801000 + 0x40 * i
/-- MAC_LP_TIMERS[0..127]: Link and PFC timers. -/
def Reg.MAC_LP_TIMERS (i : Nat) : Nat := 0x00801004 + 0x40 * i
/-- MAC_LP_STATUS[0..127]: Logical port status. -/
def Reg.MAC_LP_STATUS (i : Nat) : Nat := 0x00801008 + 0x40 * i
/-- MAC_LP_FEC_CORR[0..127]: FEC codewords. -/
def Reg.MAC_LP_FEC_CORR (i : Nat) : Nat := 0x0080100C + 0x40 * i
/-- MAC_LP_FEC_UNCORR[0..127]: FEC codewords. -/
def Reg.MAC_LP_FEC_UNCORR (i : Nat) : Nat := 0x00801010 + 0x40 * i
/-- MAC_LP_FEC_THR[0..127]: FEC degrade threshold. -/
def Reg.MAC_LP_FEC_THR (i : Nat) : Nat := 0x00801014 + 0x40 * i
/-- MAC_PTP_CTL: PTP control. -/
def Reg.MAC_PTP_CTL : Nat := 0x00804000
/-- MAC_PTP_STATUS: PTP status. -/
def Reg.MAC_PTP_STATUS : Nat := 0x00804004
/-- MAC_PTP_OFFSET: Tick phase error. -/
def Reg.MAC_PTP_OFFSET : Nat := 0x00804008
/-- MAC_PTP_SEAM_NS: Seam PTP time. -/
def Reg.MAC_PTP_SEAM_NS : Nat := 0x0080400C
/-- MAC_PTP_SEAM_SEC_LO: Seam PTP time. -/
def Reg.MAC_PTP_SEAM_SEC_LO : Nat := 0x00804010
/-- MAC_PTP_SEAM_SEC_HI: Seam PTP time. -/
def Reg.MAC_PTP_SEAM_SEC_HI : Nat := 0x00804014
/-- MAC_PTP_TRIM: Core PLL trim. -/
def Reg.MAC_PTP_TRIM : Nat := 0x00804018
/-- RDM_CFG: Transport configuration. -/
def Reg.RDM_CFG : Nat := 0x00A00000
/-- RDM_RETRY: Retry and timeout. -/
def Reg.RDM_RETRY : Nat := 0x00A00004
/-- RDM_CM_CFG: Connection management. -/
def Reg.RDM_CM_CFG : Nat := 0x00A00008
/-- RDM_CM_PORT: Service port. -/
def Reg.RDM_CM_PORT : Nat := 0x00A0000C
/-- RDM_CC_SEL: Profile selection. -/
def Reg.RDM_CC_SEL : Nat := 0x00A00010
/-- RDM_QP_COUNT: Live QPs. -/
def Reg.RDM_QP_COUNT : Nat := 0x00A00014
/-- RDM_CACHE_RES: Resident contexts. -/
def Reg.RDM_CACHE_RES : Nat := 0x00A00018
/-- RDM_CACHE_PIN: Pinned contexts. -/
def Reg.RDM_CACHE_PIN : Nat := 0x00A0001C
/-- RDM_PEN_STATUS: Pen occupancy. -/
def Reg.RDM_PEN_STATUS : Nat := 0x00A00020
/-- RDM_PEN_DROP: Pen drops. -/
def Reg.RDM_PEN_DROP : Nat := 0x00A00024
/-- RDM_FETCH_DROP: Fetch budget drops. -/
def Reg.RDM_FETCH_DROP : Nat := 0x00A00028
/-- RDM_CNT[0..15]: Transport counters. -/
def Reg.RDM_CNT (i : Nat) : Nat := 0x00A00040 + 0x4 * i
/-- RDM_CC_RATE[0..7]: Profile rates. -/
def Reg.RDM_CC_RATE (i : Nat) : Nat := 0x00A00100 + 0x20 * i
/-- RDM_CC_DELAY[0..7]: Profile delay. -/
def Reg.RDM_CC_DELAY (i : Nat) : Nat := 0x00A00104 + 0x20 * i
/-- RDM_CC_GAIN[0..7]: Profile gains. -/
def Reg.RDM_CC_GAIN (i : Nat) : Nat := 0x00A00108 + 0x20 * i
/-- RDM_CC_TIME[0..7]: Profile times. -/
def Reg.RDM_CC_TIME (i : Nat) : Nat := 0x00A0010C + 0x20 * i
/-- RDM_CC_BURST[0..7]: Profile burst. -/
def Reg.RDM_CC_BURST (i : Nat) : Nat := 0x00A00110 + 0x20 * i
/-- RDM_QP_SEL: QP probe select. -/
def Reg.RDM_QP_SEL : Nat := 0x00A00200
/-- RDM_QP_INFO[0]: QP probe snapshot. -/
def Reg.RDM_QP_INFO0 : Nat := 0x00A00204
/-- RDM_QP_INFO[1]: QP probe snapshot. -/
def Reg.RDM_QP_INFO1 : Nat := 0x00A00208
/-- RDM_QP_INFO[2]: QP probe snapshot. -/
def Reg.RDM_QP_INFO2 : Nat := 0x00A0020C
/-- RDM_QP_INFO[3]: QP probe snapshot. -/
def Reg.RDM_QP_INFO3 : Nat := 0x00A00210
/-- SWC_SERAI_CFG: Convoy pool size. -/
def Reg.SWC_SERAI_CFG : Nat := 0x00C00000
/-- SWC_HOLD_CFG: Hold reserve. -/
def Reg.SWC_HOLD_CFG : Nat := 0x00C00004
/-- SWC_SHARED_CFG: Shared pool thresholds. -/
def Reg.SWC_SHARED_CFG : Nat := 0x00C00008
/-- SWC_STATUS: Switch status. -/
def Reg.SWC_STATUS : Nat := 0x00C0000C
/-- SWC_OCC_SHARED: Shared pool free. -/
def Reg.SWC_OCC_SHARED : Nat := 0x00C00010
/-- SWC_OCC_HOLD: Hold account. -/
def Reg.SWC_OCC_HOLD : Nat := 0x00C00014
/-- SWC_OCC_CONVOY: Convoy pool free. -/
def Reg.SWC_OCC_CONVOY : Nat := 0x00C00018
/-- SWC_OCC_MGT: Management area. -/
def Reg.SWC_OCC_MGT : Nat := 0x00C0001C
/-- SWC_L2_CFG: Layer-2 configuration. -/
def Reg.SWC_L2_CFG : Nat := 0x00C00020
/-- SWC_MAC_COUNT: MAC table occupancy. -/
def Reg.SWC_MAC_COUNT : Nat := 0x00C00024
/-- SWC_CNT[0..15]: Switch counters. -/
def Reg.SWC_CNT (i : Nat) : Nat := 0x00C00100 + 0x4 * i
/-- SWC_PQ_BUF[0..127][0..7]: Pair minimum and headroom. -/
def Reg.SWC_PQ_BUF (i : Nat) (j : Nat) : Nat := 0x00C01000 + 0x100 * i + 0x20 * j
/-- SWC_PQ_PFC[0..127][0..7]: PFC thresholds. -/
def Reg.SWC_PQ_PFC (i : Nat) (j : Nat) : Nat := 0x00C01004 + 0x100 * i + 0x20 * j
/-- SWC_PQ_LIM[0..127][0..7]: Lossy limit and ingress ECN. -/
def Reg.SWC_PQ_LIM (i : Nat) (j : Nat) : Nat := 0x00C01008 + 0x100 * i + 0x20 * j
/-- SWC_PQ_ECN[0..127][0..7]: Egress ECN. -/
def Reg.SWC_PQ_ECN (i : Nat) (j : Nat) : Nat := 0x00C0100C + 0x100 * i + 0x20 * j
/-- SWC_PQ_OCC[0..127][0..7]: Pair occupancy. -/
def Reg.SWC_PQ_OCC (i : Nat) (j : Nat) : Nat := 0x00C01010 + 0x100 * i + 0x20 * j
/-- SWC_PQ_DROP[0..127][0..7]: Pair drops. -/
def Reg.SWC_PQ_DROP (i : Nat) (j : Nat) : Nat := 0x00C01014 + 0x100 * i + 0x20 * j
/-- SWC_LP_CFG[0..127]: Logical port forwarding. -/
def Reg.SWC_LP_CFG (i : Nat) : Nat := 0x00C09000 + 0x4 * i
/-- SWC_MAC_ST_LO[0..63]: Static entry MAC, low. -/
def Reg.SWC_MAC_ST_LO (i : Nat) : Nat := 0x00C0A000 + 0x10 * i
/-- SWC_MAC_ST_HI[0..63]: Static entry MAC, high, and VLAN. -/
def Reg.SWC_MAC_ST_HI (i : Nat) : Nat := 0x00C0A004 + 0x10 * i
/-- SWC_MAC_ST_PORT[0..63]: Static entry port. -/
def Reg.SWC_MAC_ST_PORT (i : Nat) : Nat := 0x00C0A008 + 0x10 * i
/-- TMG_CFG: Traffic manager configuration. -/
def Reg.TMG_CFG : Nat := 0x00D00000
/-- TMG_DEFER_CELLS: Deferral cell limit. -/
def Reg.TMG_DEFER_CELLS : Nat := 0x00D00004
/-- TMG_STATUS: Traffic manager status. -/
def Reg.TMG_STATUS : Nat := 0x00D00008
/-- TMG_DEFER_OCC: Deferral occupancy. -/
def Reg.TMG_DEFER_OCC : Nat := 0x00D0000C
/-- TMG_PRECOLOUR[0..3]: Pre-colour table. -/
def Reg.TMG_PRECOLOUR (i : Nat) : Nat := 0x00D00010 + 0x4 * i
/-- TMG_CNT[0..7]: Traffic manager counters. -/
def Reg.TMG_CNT (i : Nat) : Nat := 0x00D00040 + 0x4 * i
/-- TMG_CHAN_SEL: Channel probe select. -/
def Reg.TMG_CHAN_SEL : Nat := 0x00D00080
/-- TMG_CHAN_INFO[0]: Channel probe snapshot. -/
def Reg.TMG_CHAN_INFO0 : Nat := 0x00D00084
/-- TMG_CHAN_INFO[1]: Channel probe snapshot. -/
def Reg.TMG_CHAN_INFO1 : Nat := 0x00D00088
/-- TMG_CHAN_INFO[2]: Channel probe snapshot. -/
def Reg.TMG_CHAN_INFO2 : Nat := 0x00D0008C
/-- TMG_CHAN_INFO[3]: Channel probe snapshot. -/
def Reg.TMG_CHAN_INFO3 : Nat := 0x00D00090
/-- TMG_PRIO_CFG[0..127][0..7]: Priority scheduling. -/
def Reg.TMG_PRIO_CFG (i : Nat) (j : Nat) : Nat := 0x00D01000 + 0x40 * i + 0x8 * j
/-- TMG_PRIO_FWD[0..127][0..7]: Forward leaf weight. -/
def Reg.TMG_PRIO_FWD (i : Nat) (j : Nat) : Nat := 0x00D01004 + 0x40 * i + 0x8 * j
/-- TMG_PORT_CFG[0..127]: Port length overhead. -/
def Reg.TMG_PORT_CFG (i : Nat) : Nat := 0x00D03000 + 0x10 * i
/-- TMG_PORT_RATE[0..127]: Port shaper rate. -/
def Reg.TMG_PORT_RATE (i : Nat) : Nat := 0x00D03004 + 0x10 * i
/-- TMG_PORT_BURST[0..127]: Port shaper burst. -/
def Reg.TMG_PORT_BURST (i : Nat) : Nat := 0x00D03008 + 0x10 * i
/-- TMG_NODE_CFG[0..1023]: Node definition. -/
def Reg.TMG_NODE_CFG (i : Nat) : Nat := 0x00D08000 + 0x10 * i
/-- TMG_NODE_WEIGHT[0..1023]: Node weight. -/
def Reg.TMG_NODE_WEIGHT (i : Nat) : Nat := 0x00D08004 + 0x10 * i
/-- TMG_NODE_RATE[0..1023]: Node shaper rate. -/
def Reg.TMG_NODE_RATE (i : Nat) : Nat := 0x00D08008 + 0x10 * i
/-- TMG_NODE_BURST[0..1023]: Node shaper burst. -/
def Reg.TMG_NODE_BURST (i : Nat) : Nat := 0x00D0800C + 0x10 * i
/-- CMD_CFG: Target configuration. -/
def Reg.CMD_CFG : Nat := 0x00E00000
/-- CMD_KATO: Keep-alive limit. -/
def Reg.CMD_KATO : Nat := 0x00E00004
/-- CMD_SUBNQN[0..15]: Subsystem NQN suffix. -/
def Reg.CMD_SUBNQN (i : Nat) : Nat := 0x00E00100 + 0x4 * i
/-- CMD_SERIAL[0..4]: Serial number. -/
def Reg.CMD_SERIAL (i : Nat) : Nat := 0x00E00140 + 0x4 * i
/-- CMD_WB_USE: Waybills in use. -/
def Reg.CMD_WB_USE : Nat := 0x00E00200
/-- CMD_LOCK_USE: Lock entries in use. -/
def Reg.CMD_LOCK_USE : Nat := 0x00E00204
/-- CMD_CTRL_USE: Live controllers. -/
def Reg.CMD_CTRL_USE : Nat := 0x00E00208
/-- CMD_CNT[0..15]: Command engine counters. -/
def Reg.CMD_CNT (i : Nat) : Nat := 0x00E00240 + 0x4 * i
/-- LAY_CACHE_CFG: Cache configuration. -/
def Reg.LAY_CACHE_CFG : Nat := 0x01000000
/-- LAY_CACHE_HOLD: Destage hold. -/
def Reg.LAY_CACHE_HOLD : Nat := 0x01000004
/-- LAY_DUMP_CFG: Dump area size. -/
def Reg.LAY_DUMP_CFG : Nat := 0x01000008
/-- LAY_DIRTY_EFF: Effective dirty limit. -/
def Reg.LAY_DIRTY_EFF : Nat := 0x0100000C
/-- LAY_DIRTY_LINES: Dirty lines. -/
def Reg.LAY_DIRTY_LINES : Nat := 0x01000010
/-- LAY_CLEAN_LINES: Clean lines. -/
def Reg.LAY_CLEAN_LINES : Nat := 0x01000014
/-- LAY_JOURNAL_USE: Journal slots in use. -/
def Reg.LAY_JOURNAL_USE : Nat := 0x01000018
/-- LAY_STATUS: Layout status. -/
def Reg.LAY_STATUS : Nat := 0x0100001C
/-- LAY_CNT[0..15]: Layout counters. -/
def Reg.LAY_CNT (i : Nat) : Nat := 0x01000040 + 0x4 * i
/-- LAY_BAY_FD[0..127]: Bay failure domain. -/
def Reg.LAY_BAY_FD (i : Nat) : Nat := 0x01000100 + 0x4 * i
/-- LAY_POOL_GEOM[0..15]: Pool geometry. -/
def Reg.LAY_POOL_GEOM (i : Nat) : Nat := 0x01000400 + 0x20 * i
/-- LAY_POOL_STATUS[0..15]: Pool status. -/
def Reg.LAY_POOL_STATUS (i : Nat) : Nat := 0x01000404 + 0x20 * i
/-- LAY_POOL_FRAMES_LO[0..15]: Pool frames. -/
def Reg.LAY_POOL_FRAMES_LO (i : Nat) : Nat := 0x01000408 + 0x20 * i
/-- LAY_POOL_FRAMES_HI[0..15]: Pool frames. -/
def Reg.LAY_POOL_FRAMES_HI (i : Nat) : Nat := 0x0100040C + 0x20 * i
/-- LAY_POOL_SLABS[0..15]: Pool slabs. -/
def Reg.LAY_POOL_SLABS (i : Nat) : Nat := 0x01000410 + 0x20 * i
/-- LAY_POOL_FREE[0..15]: Free slabs. -/
def Reg.LAY_POOL_FREE (i : Nat) : Nat := 0x01000414 + 0x20 * i
/-- LAY_POOL_RESYNC[0..15]: Resynchronisation remaining. -/
def Reg.LAY_POOL_RESYNC (i : Nat) : Nat := 0x01000418 + 0x20 * i
/-- LAY_VOL_SEL: Volume probe select. -/
def Reg.LAY_VOL_SEL : Nat := 0x01000600
/-- LAY_VOL_INFO[0]: Volume probe snapshot. -/
def Reg.LAY_VOL_INFO0 : Nat := 0x01000604
/-- LAY_VOL_INFO[1]: Volume probe snapshot. -/
def Reg.LAY_VOL_INFO1 : Nat := 0x01000608
/-- LAY_VOL_INFO[2]: Volume probe snapshot. -/
def Reg.LAY_VOL_INFO2 : Nat := 0x0100060C
/-- LAY_VOL_INFO[3]: Volume probe snapshot. -/
def Reg.LAY_VOL_INFO3 : Nat := 0x01000610
/-- LAY_MNT_CFG[0..15]: Maintenance configuration. -/
def Reg.LAY_MNT_CFG (i : Nat) : Nat := 0x01000800 + 0x20 * i
/-- LAY_MNT_RATE[0..15]: Rebuild pace. -/
def Reg.LAY_MNT_RATE (i : Nat) : Nat := 0x01000804 + 0x20 * i
/-- LAY_MNT_RATE2[0..15]: Scrub and sanitize pace. -/
def Reg.LAY_MNT_RATE2 (i : Nat) : Nat := 0x01000808 + 0x20 * i
/-- LAY_MNT_LOAD[0..15]: Adaptive pace. -/
def Reg.LAY_MNT_LOAD (i : Nat) : Nat := 0x0100080C + 0x20 * i
/-- LAY_MNT_STATUS[0..15]: Maintenance status. -/
def Reg.LAY_MNT_STATUS (i : Nat) : Nat := 0x01000810 + 0x20 * i
/-- LAY_MNT_PASS[0..15][0..1]: Pass progress. -/
def Reg.LAY_MNT_PASS (i : Nat) (j : Nat) : Nat := 0x01000814 + 0x20 * i + 0x4 * j
/-- LAY_LOST_USE[0..15]: Lost-stripe table use. -/
def Reg.LAY_LOST_USE (i : Nat) : Nat := 0x0100081C + 0x20 * i
/-- LAY_MNT_CNT[0..7]: Maintenance counters. -/
def Reg.LAY_MNT_CNT (i : Nat) : Nat := 0x01000A00 + 0x4 * i
/-- CIP_CFG: Cipher configuration. -/
def Reg.CIP_CFG : Nat := 0x01200000
/-- CIP_STATUS: Cipher status. -/
def Reg.CIP_STATUS : Nat := 0x01200004
/-- CIP_ALARM: Latched alarms. -/
def Reg.CIP_ALARM : Nat := 0x01200008
/-- CIP_KEK: KEK state. -/
def Reg.CIP_KEK : Nat := 0x0120000C
/-- CIP_KEY_SEL: Key slot probe select. -/
def Reg.CIP_KEY_SEL : Nat := 0x01200010
/-- CIP_KEY_INFO[0]: Key slot probe snapshot. -/
def Reg.CIP_KEY_INFO0 : Nat := 0x01200014
/-- CIP_KEY_INFO[1]: Key slot probe snapshot. -/
def Reg.CIP_KEY_INFO1 : Nat := 0x01200018
/-- CIP_ARRAY_PASS[0..11]: Array pass use. -/
def Reg.CIP_ARRAY_PASS (i : Nat) : Nat := 0x01200040 + 0x4 * i
/-- CIP_CNT[0..7]: Cipher counters. -/
def Reg.CIP_CNT (i : Nat) : Nat := 0x01200080 + 0x4 * i
/-- CHK_CNT[0..7]: Check counters. -/
def Reg.CHK_CNT (i : Nat) : Nat := 0x01300000 + 0x4 * i
/-- CHK_SW_CTL[0..1]: Software check control. -/
def Reg.CHK_SW_CTL (i : Nat) : Nat := 0x01300040 + 0x20 * i
/-- CHK_SW_ADDR_LO[0..1]: Software check address. -/
def Reg.CHK_SW_ADDR_LO (i : Nat) : Nat := 0x01300044 + 0x20 * i
/-- CHK_SW_ADDR_HI[0..1]: Software check address. -/
def Reg.CHK_SW_ADDR_HI (i : Nat) : Nat := 0x01300048 + 0x20 * i
/-- CHK_SW_LEN[0..1]: Software check length. -/
def Reg.CHK_SW_LEN (i : Nat) : Nat := 0x0130004C + 0x20 * i
/-- CHK_SW_STATUS[0..1]: Software check status. -/
def Reg.CHK_SW_STATUS (i : Nat) : Nat := 0x01300050 + 0x20 * i
/-- CHK_SW_RES_LO[0..1]: Software check result. -/
def Reg.CHK_SW_RES_LO (i : Nat) : Nat := 0x01300054 + 0x20 * i
/-- CHK_SW_RES_HI[0..1]: Software check result. -/
def Reg.CHK_SW_RES_HI (i : Nat) : Nat := 0x01300058 + 0x20 * i
/-- CHK_ALIVE[0..63]: Alive counter stream. -/
def Reg.CHK_ALIVE (i : Nat) : Nat := 0x01300100 + 0x4 * i
/-- CHK_ALIVE_CNT: Alive counter totals. -/
def Reg.CHK_ALIVE_CNT : Nat := 0x01300200
/-- DRV_CFG: Drive fabric configuration. -/
def Reg.DRV_CFG : Nat := 0x01400000
/-- DRV_TIMERS: Command timers. -/
def Reg.DRV_TIMERS : Nat := 0x01400004
/-- DRV_RECOVER: Recovery limits. -/
def Reg.DRV_RECOVER : Nat := 0x01400008
/-- DRV_TAG_USE: Tags in use. -/
def Reg.DRV_TAG_USE : Nat := 0x0140000C
/-- DRV_CNT[0..15]: Drive fabric counters. -/
def Reg.DRV_CNT (i : Nat) : Nat := 0x01400040 + 0x4 * i
/-- DRV_BAY_CFG[0..127]: Bay configuration. -/
def Reg.DRV_BAY_CFG (i : Nat) : Nat := 0x01401000 + 0x20 * i
/-- DRV_BAY_STATUS[0..127]: Bay status. -/
def Reg.DRV_BAY_STATUS (i : Nat) : Nat := 0x01401004 + 0x20 * i
/-- DRV_BAY_ERR[0..127]: Bay error counts. -/
def Reg.DRV_BAY_ERR (i : Nat) : Nat := 0x01401008 + 0x20 * i
/-- DRV_BAY_OUT[0..127]: Bay commands outstanding. -/
def Reg.DRV_BAY_OUT (i : Nat) : Nat := 0x0140100C + 0x20 * i
/-- BAY_GLB_CFG: Bay power configuration. -/
def Reg.BAY_GLB_CFG : Nat := 0x01600000
/-- BAY_GLB_STATUS: Bay power status. -/
def Reg.BAY_GLB_STATUS : Nat := 0x01600004
/-- BAY_PRESENT[0..3]: Confirmed presence. -/
def Reg.BAY_PRESENT (i : Nat) : Nat := 0x01600008 + 0x4 * i
/-- BAY_PG[0..3]: Power-good. -/
def Reg.BAY_PG (i : Nat) : Nat := 0x01600018 + 0x4 * i
/-- BAY_CNT[0..7]: Bay power counters. -/
def Reg.BAY_CNT (i : Nat) : Nat := 0x01600040 + 0x4 * i
/-- BAY_CFG[0..127]: Bay policy. -/
def Reg.BAY_CFG (i : Nat) : Nat := 0x01601000 + 0x40 * i
/-- BAY_SENSE[0..127]: Sense scaling. -/
def Reg.BAY_SENSE (i : Nat) : Nat := 0x01601004 + 0x40 * i
/-- BAY_INRUSH[0..127]: Inrush. -/
def Reg.BAY_INRUSH (i : Nat) : Nat := 0x01601008 + 0x40 * i
/-- BAY_FUSE[0..127]: Fuse limits. -/
def Reg.BAY_FUSE (i : Nat) : Nat := 0x0160100C + 0x40 * i
/-- BAY_RETRY[0..127]: Retry and settle. -/
def Reg.BAY_RETRY (i : Nat) : Nat := 0x01601010 + 0x40 * i
/-- BAY_TH_R[0..127]: Thermal resistances. -/
def Reg.BAY_TH_R (i : Nat) : Nat := 0x01601014 + 0x40 * i
/-- BAY_TH_ALPHA1[0..127]: Thermal coefficients. -/
def Reg.BAY_TH_ALPHA1 (i : Nat) : Nat := 0x01601018 + 0x40 * i
/-- BAY_TH_ALPHA2[0..127]: Thermal coefficients. -/
def Reg.BAY_TH_ALPHA2 (i : Nat) : Nat := 0x0160101C + 0x40 * i
/-- BAY_TH_LIMIT[0..127]: Thermal limits. -/
def Reg.BAY_TH_LIMIT (i : Nat) : Nat := 0x01601020 + 0x40 * i
/-- BAY_DMG[0..127]: Damage checks. -/
def Reg.BAY_DMG (i : Nat) : Nat := 0x01601024 + 0x40 * i
/-- BAY_STATUS[0..127]: Bay state. -/
def Reg.BAY_STATUS (i : Nat) : Nat := 0x01601028 + 0x40 * i
/-- BAY_MEAS[0..127]: Last measurement. -/
def Reg.BAY_MEAS (i : Nat) : Nat := 0x0160102C + 0x40 * i
/-- BAY_MODEL[0..127]: Model state. -/
def Reg.BAY_MODEL (i : Nat) : Nat := 0x01601030 + 0x40 * i
/-- BAY_LED[0..127]: Bay LEDs. -/
def Reg.BAY_LED (i : Nat) : Nat := 0x01601034 + 0x40 * i
/-- BAY_FAULTS[0..127]: Bay fault counts. -/
def Reg.BAY_FAULTS (i : Nat) : Nat := 0x01601038 + 0x40 * i
/-- BAY_CURVE[0..127][0..3]: Time–current curve. -/
def Reg.BAY_CURVE (i : Nat) (j : Nat) : Nat := 0x01604000 + 0x10 * i + 0x4 * j
/-- ENV_CFG: Environment configuration. -/
def Reg.ENV_CFG : Nat := 0x01700000
/-- ENV_LOOP_GAIN: Loop gains. -/
def Reg.ENV_LOOP_GAIN : Nat := 0x01700004
/-- ENV_LOOP_FF: Feed-forward and slew. -/
def Reg.ENV_LOOP_FF : Nat := 0x01700008
/-- ENV_TEMP_TGT: Temperature limits. -/
def Reg.ENV_TEMP_TGT : Nat := 0x0170000C
/-- ENV_TEMP_WARN: Temperature limits. -/
def Reg.ENV_TEMP_WARN : Nat := 0x01700010
/-- ENV_TEMP_CRIT: Temperature limits. -/
def Reg.ENV_TEMP_CRIT : Nat := 0x01700014
/-- ENV_STATUS: Loop status. -/
def Reg.ENV_STATUS : Nat := 0x01700018
/-- ENV_THERM_PULL: Thermistor pull-up. -/
def Reg.ENV_THERM_PULL : Nat := 0x0170001C
/-- ENV_TEMPS: Shelf and die temperature. -/
def Reg.ENV_TEMPS : Nat := 0x01700020
/-- ENV_SENSE: Voltage scaling. -/
def Reg.ENV_SENSE : Nat := 0x01700024
/-- ENV_VBUS: Bus voltage. -/
def Reg.ENV_VBUS : Nat := 0x01700028
/-- ENV_CNT[0..7]: Environment counters. -/
def Reg.ENV_CNT (i : Nat) : Nat := 0x01700030 + 0x4 * i
/-- ENV_HOLD_CFG: Bank. -/
def Reg.ENV_HOLD_CFG : Nat := 0x01700050
/-- ENV_HOLD_V: Bank voltages. -/
def Reg.ENV_HOLD_V : Nat := 0x01700054
/-- ENV_HOLD_CHG: Charger. -/
def Reg.ENV_HOLD_CHG : Nat := 0x01700058
/-- ENV_HOLD_POWER: Hold power. -/
def Reg.ENV_HOLD_POWER : Nat := 0x0170005C
/-- ENV_DUMP_RATE: Dump write model. -/
def Reg.ENV_DUMP_RATE : Nat := 0x01700060
/-- ENV_DUMP_TIMING: Flush, filter and restore. -/
def Reg.ENV_DUMP_TIMING : Nat := 0x01700064
/-- ENV_HOLD_STATUS: Bank status. -/
def Reg.ENV_HOLD_STATUS : Nat := 0x01700068
/-- ENV_HOLD_EAVAIL: Energy figures. -/
def Reg.ENV_HOLD_EAVAIL : Nat := 0x0170006C
/-- ENV_HOLD_EREQ: Energy figures. -/
def Reg.ENV_HOLD_EREQ : Nat := 0x01700070
/-- ENV_HOLD_THOLD: Energy figures. -/
def Reg.ENV_HOLD_THOLD : Nat := 0x01700074
/-- ENV_HOLD_PHOLD: Energy figures. -/
def Reg.ENV_HOLD_PHOLD : Nat := 0x01700078
/-- ENV_FAN_CFG[0..11]: Fan configuration. -/
def Reg.ENV_FAN_CFG (i : Nat) : Nat := 0x01700100 + 0x10 * i
/-- ENV_FAN_STATUS[0..11]: Fan status. -/
def Reg.ENV_FAN_STATUS (i : Nat) : Nat := 0x01700104 + 0x10 * i
/-- ENV_THERM_CFG[0..7]: Thermistor configuration. -/
def Reg.ENV_THERM_CFG (i : Nat) : Nat := 0x01700200 + 0x10 * i
/-- ENV_THERM_TEMP[0..7]: Thermistor reading. -/
def Reg.ENV_THERM_TEMP (i : Nat) : Nat := 0x01700204 + 0x10 * i
/-- ENV_DUMP_LAST: Last dump. -/
def Reg.ENV_DUMP_LAST : Nat := 0x01700300
/-- ENV_DUMP_TIME: Dump time. -/
def Reg.ENV_DUMP_TIME : Nat := 0x01700304
/-- ENV_DUMP_ERR: Dump write failures. -/
def Reg.ENV_DUMP_ERR : Nat := 0x01700308
/-- PAIR_CFG: Pair configuration. -/
def Reg.PAIR_CFG : Nat := 0x01800000
/-- PAIR_STATUS: Pair status. -/
def Reg.PAIR_STATUS : Nat := 0x01800004
/-- PAIR_LINK: Link status. -/
def Reg.PAIR_LINK : Nat := 0x01800008
/-- PAIR_TIMING: Offset and latency. -/
def Reg.PAIR_TIMING : Nat := 0x0180000C
/-- PAIR_TICK_LO: Last complete tick. -/
def Reg.PAIR_TICK_LO : Nat := 0x01800010
/-- PAIR_TICK_HI: Last complete tick. -/
def Reg.PAIR_TICK_HI : Nat := 0x01800014
/-- PAIR_JOIN_CFG: Join limits. -/
def Reg.PAIR_JOIN_CFG : Nat := 0x01800018
/-- PAIR_JOIN_STATUS: Join status. -/
def Reg.PAIR_JOIN_STATUS : Nat := 0x0180001C
/-- PAIR_PEER_PIN[0]: Peer identity. -/
def Reg.PAIR_PEER_PIN0 : Nat := 0x01800020
/-- PAIR_PEER_PIN[1]: Peer identity. -/
def Reg.PAIR_PEER_PIN1 : Nat := 0x01800024
/-- PAIR_PEER_PIN[2]: Peer identity. -/
def Reg.PAIR_PEER_PIN2 : Nat := 0x01800028
/-- PAIR_PEER_SEEN[0]: Peer identity. -/
def Reg.PAIR_PEER_SEEN0 : Nat := 0x01800030
/-- PAIR_PEER_SEEN[1]: Peer identity. -/
def Reg.PAIR_PEER_SEEN1 : Nat := 0x01800034
/-- PAIR_PEER_SEEN[2]: Peer identity. -/
def Reg.PAIR_PEER_SEEN2 : Nat := 0x01800038
/-- PAIR_DIV[0..4]: Last divergence. -/
def Reg.PAIR_DIV (i : Nat) : Nat := 0x01800040 + 0x4 * i
/-- PAIR_CNT[0..15]: Pair counters. -/
def Reg.PAIR_CNT (i : Nat) : Nat := 0x01800080 + 0x4 * i
/-- PAIR_RHS_STATUS: Rehearsal status. -/
def Reg.PAIR_RHS_STATUS : Nat := 0x018000C0
/-- MGT_STATUS: Management status. -/
def Reg.MGT_STATUS : Nat := 0x01A00000
/-- MGT_FW_VER: Running firmware. -/
def Reg.MGT_FW_VER : Nat := 0x01A00004
/-- MGT_FW_STAGED: Staged firmware. -/
def Reg.MGT_FW_STAGED : Nat := 0x01A00008
/-- MGT_BOOT: Boot record and source. -/
def Reg.MGT_BOOT : Nat := 0x01A0000C
/-- MGT_SVN: Security version. -/
def Reg.MGT_SVN : Nat := 0x01A00010
/-- MGT_QUEUE[0..3]: Work queue levels. -/
def Reg.MGT_QUEUE (i : Nat) : Nat := 0x01A00020 + 0x4 * i
/-- MGT_SMB_CFG: Management SMBus. -/
def Reg.MGT_SMB_CFG : Nat := 0x01A00030
/-- MGT_MCTP: MCTP endpoints. -/
def Reg.MGT_MCTP : Nat := 0x01A00034
/-- MGT_RECOV_ADDR_LO: Recovery package address. -/
def Reg.MGT_RECOV_ADDR_LO : Nat := 0x01A00040
/-- MGT_RECOV_ADDR_HI: Recovery package address. -/
def Reg.MGT_RECOV_ADDR_HI : Nat := 0x01A00044
/-- MGT_RECOV_SIZE: Recovery package size. -/
def Reg.MGT_RECOV_SIZE : Nat := 0x01A00048
/-- MGT_RECOV_CTL: Recovery control. -/
def Reg.MGT_RECOV_CTL : Nat := 0x01A0004C
/-- MGT_CNT[0..7]: Management counters. -/
def Reg.MGT_CNT (i : Nat) : Nat := 0x01A00080 + 0x4 * i
/-- MGT_ITK_SEL: Signing key slot select. -/
def Reg.MGT_ITK_SEL : Nat := 0x01A00100
/-- MGT_ITK_CTL: Signing key control. -/
def Reg.MGT_ITK_CTL : Nat := 0x01A00104
/-- MGT_ITK_STATUS: Signing key status. -/
def Reg.MGT_ITK_STATUS : Nat := 0x01A00108
/-- MGT_ITK_DATA[0..25]: Signing key data. -/
def Reg.MGT_ITK_DATA (i : Nat) : Nat := 0x01A00110 + 0x4 * i
/-- MGT_MEAS_SEL: Measurement select. -/
def Reg.MGT_MEAS_SEL : Nat := 0x01A00200
/-- MGT_MEAS_VAL[0..11]: Measurement value. -/
def Reg.MGT_MEAS_VAL (i : Nat) : Nat := 0x01A00204 + 0x4 * i
/-- CRS_RESET_CAUSE: Reset cause. -/
def Reg.CRS_RESET_CAUSE : Nat := 0x00100000
/-- CRS_CHIP_RESET: Software chip reset. -/
def Reg.CRS_CHIP_RESET : Nat := 0x00100004
/-- CRS_CLK_STATUS: Clock status. -/
def Reg.CRS_CLK_STATUS : Nat := 0x00100008
/-- CRS_CLK_LOSS: Clock losses. -/
def Reg.CRS_CLK_LOSS : Nat := 0x0010000C
/-- CRS_STATUS: Reset status. -/
def Reg.CRS_STATUS : Nat := 0x00100010
/-- CRS_XING: Abandoned transfers. -/
def Reg.CRS_XING : Nat := 0x00100014
/-- CRS_CLU_CTL[0..11]: Cluster check control. -/
def Reg.CRS_CLU_CTL (i : Nat) : Nat := 0x00100040 + 0x4 * i
/-- CRS_CLU_STATUS[0..11]: Cluster check status. -/
def Reg.CRS_CLU_STATUS (i : Nat) : Nat := 0x00100080 + 0x4 * i
/-- TEL_DUMP_ADDR_LO: Dump region address. -/
def Reg.TEL_DUMP_ADDR_LO : Nat := 0x01C00000
/-- TEL_DUMP_ADDR_HI: Dump region address. -/
def Reg.TEL_DUMP_ADDR_HI : Nat := 0x01C00004
/-- TEL_DUMP_GEOM: Dump slots. -/
def Reg.TEL_DUMP_GEOM : Nat := 0x01C00008
/-- TEL_DUMP_CTL: Dump schedule. -/
def Reg.TEL_DUMP_CTL : Nat := 0x01C0000C
/-- TEL_GROUPS: Dump content. -/
def Reg.TEL_GROUPS : Nat := 0x01C00010
/-- TEL_TAG_CFG: Tagging. -/
def Reg.TEL_TAG_CFG : Nat := 0x01C00014
/-- TEL_TAG_FILTER: Tagging. -/
def Reg.TEL_TAG_FILTER : Nat := 0x01C00018
/-- TEL_TAG_SEED: Tagging. -/
def Reg.TEL_TAG_SEED : Nat := 0x01C0001C
/-- TEL_DUMP_PROD: Producer index. -/
def Reg.TEL_DUMP_PROD : Nat := 0x01C00020
/-- TEL_DUMP_CONS: Consumer index. -/
def Reg.TEL_DUMP_CONS : Nat := 0x01C00024
/-- TEL_PERSIST: Error log selection. -/
def Reg.TEL_PERSIST : Nat := 0x01C00028
/-- TEL_CTR_SEL: Counter select. -/
def Reg.TEL_CTR_SEL : Nat := 0x01C00030
/-- TEL_CTR_VAL_LO: Counter value. -/
def Reg.TEL_CTR_VAL_LO : Nat := 0x01C00034
/-- TEL_CTR_VAL_HI: Counter value. -/
def Reg.TEL_CTR_VAL_HI : Nat := 0x01C00038
/-- TEL_STATUS: Telemetry status. -/
def Reg.TEL_STATUS : Nat := 0x01C0003C
/-- TEL_CNT[0..7]: Telemetry counters. -/
def Reg.TEL_CNT (i : Nat) : Nat := 0x01C00040 + 0x4 * i
/-- GLB_CHIP_ID[0]: Chip identity. -/
def Reg.GLB_CHIP_ID0 : Nat := 0x00000000
/-- GLB_CHIP_ID[1]: Chip identity. -/
def Reg.GLB_CHIP_ID1 : Nat := 0x00000004
/-- GLB_CHIP_ID[2]: Chip identity. -/
def Reg.GLB_CHIP_ID2 : Nat := 0x00000008
/-- GLB_CHIP_ID[3]: Chip identity. -/
def Reg.GLB_CHIP_ID3 : Nat := 0x0000000C
/-- GLB_CAP[0]: Capabilities. -/
def Reg.GLB_CAP0 : Nat := 0x00000010
/-- GLB_CAP[1]: Capabilities. -/
def Reg.GLB_CAP1 : Nat := 0x00000014
/-- GLB_CAP[2]: Capabilities. -/
def Reg.GLB_CAP2 : Nat := 0x00000018
/-- GLB_CAP[3]: Capabilities. -/
def Reg.GLB_CAP3 : Nat := 0x0000001C
/-- GLB_STRAPS: Straps. -/
def Reg.GLB_STRAPS : Nat := 0x00000020
/-- GLB_SCRATCH[0..3]: Scratch. -/
def Reg.GLB_SCRATCH (i : Nat) : Nat := 0x000000F0 + 0x4 * i
/-- GLB_LOCK: Setup lock. -/
def Reg.GLB_LOCK : Nat := 0x00000040
/-- GLB_VIOL_ADDR: Last violation. -/
def Reg.GLB_VIOL_ADDR : Nat := 0x00000044
/-- GLB_VIOL_CNT: Violations. -/
def Reg.GLB_VIOL_CNT : Nat := 0x00000048
/-- GLB_ATTN: Attention summary. -/
def Reg.GLB_ATTN : Nat := 0x00000080
/-- GLB_IRQ_CPL_LO: Completion rings pending. -/
def Reg.GLB_IRQ_CPL_LO : Nat := 0x00000084
/-- GLB_IRQ_CPL_HI: Completion rings pending. -/
def Reg.GLB_IRQ_CPL_HI : Nat := 0x00000088
/-- GLB_IRQ_EVT: Event ring pending. -/
def Reg.GLB_IRQ_EVT : Nat := 0x0000008C
/-- HBM_STATUS: HBM status. -/
def Reg.HBM_STATUS : Nat := 0x01E00000
/-- HBM_ECC[0..3]: Stack error counts. -/
def Reg.HBM_ECC (i : Nat) : Nat := 0x01E00010 + 0x4 * i

/-! ### Fields -/

def Fd.ITN_CTL_SWAP : Fld := ⟨3, 1⟩
def Fd.ITN_CTL_LOAD : Fld := ⟨2, 1⟩
def Fd.ITN_CTL_BUF : Fld := ⟨1, 1⟩
def Fd.ITN_CTL_START : Fld := ⟨0, 1⟩
def Fd.ITN_STATUS_VARIANT : Fld := ⟨20, 5⟩
def Fd.ITN_STATUS_SWAP_PENDING : Fld := ⟨16, 2⟩
def Fd.ITN_STATUS_BUF_B_STATE : Fld := ⟨10, 2⟩
def Fd.ITN_STATUS_BUF_A_STATE : Fld := ⟨8, 2⟩
def Fd.ITN_STATUS_ACTIVE_BUF : Fld := ⟨1, 1⟩
def Fd.ITN_STATUS_RUNNING : Fld := ⟨0, 1⟩
def Fd.ITN_LOAD_ADDR_LO_ADDR_LO : Fld := ⟨12, 20⟩
def Fd.ITN_LOAD_ADDR_HI_ADDR_HI : Fld := ⟨0, 32⟩
def Fd.ITN_LOAD_SIZE_SIZE : Fld := ⟨0, 26⟩
def Fd.ITN_LOAD_STATUS_STATUS : Fld := ⟨0, 16⟩
def Fd.ITN_TICK_LO_TICK : Fld := ⟨0, 32⟩
def Fd.ITN_TICK_HI_TICK : Fld := ⟨0, 32⟩
def Fd.ITN_IMAGE_ID_LO_IMAGE_ID : Fld := ⟨0, 32⟩
def Fd.ITN_IMAGE_ID_HI_IMAGE_ID : Fld := ⟨0, 32⟩
def Fd.ITN_FENCE_IDLED : Fld := ⟨16, 12⟩
def Fd.ITN_FENCE_FENCED : Fld := ⟨0, 12⟩
def Fd.ITN_FAULT_CAUSE_VALID : Fld := ⟨31, 1⟩
def Fd.ITN_FAULT_CAUSE_CAUSE : Fld := ⟨16, 8⟩
def Fd.ITN_FAULT_CAUSE_ENGINE : Fld := ⟨0, 3⟩
def Fd.ITN_OVERRUN_CNT_COUNT : Fld := ⟨0, 32⟩
def Fd.ITN_SUSPENDED_COUNT : Fld := ⟨0, 19⟩
def Fd.RING_CMD_BASE_LO_BASE_LO : Fld := ⟨12, 20⟩
def Fd.RING_CMD_BASE_HI_BASE_HI : Fld := ⟨0, 32⟩
def Fd.RING_CPL_BASE_LO_BASE_LO : Fld := ⟨12, 20⟩
def Fd.RING_CPL_BASE_HI_BASE_HI : Fld := ⟨0, 32⟩
def Fd.RING_SIZE_ENTRIES : Fld := ⟨0, 17⟩
def Fd.RING_CTL_VECTOR : Fld := ⟨16, 11⟩
def Fd.RING_CTL_IRQ_EN : Fld := ⟨1, 1⟩
def Fd.RING_CTL_ENABLE : Fld := ⟨0, 1⟩
def Fd.RING_COAL_TIME_US : Fld := ⟨16, 16⟩
def Fd.RING_COAL_COUNT : Fld := ⟨0, 16⟩
def Fd.RING_STATUS_STATE : Fld := ⟨16, 2⟩
def Fd.RING_STATUS_ERR_STATUS : Fld := ⟨0, 16⟩
def Fd.RING_IDX_CPL_TAIL : Fld := ⟨16, 16⟩
def Fd.RING_IDX_CMD_HEAD : Fld := ⟨0, 16⟩
def Fd.RING_EVT_BASE_LO_BASE_LO : Fld := ⟨12, 20⟩
def Fd.RING_EVT_BASE_HI_BASE_HI : Fld := ⟨0, 32⟩
def Fd.RING_EVT_SIZE_ENTRIES : Fld := ⟨0, 17⟩
def Fd.RING_EVT_CTL_VECTOR : Fld := ⟨16, 11⟩
def Fd.RING_EVT_CTL_IRQ_EN : Fld := ⟨1, 1⟩
def Fd.RING_EVT_CTL_ENABLE : Fld := ⟨0, 1⟩
def Fd.RING_EVT_COAL_TIME_US : Fld := ⟨16, 16⟩
def Fd.RING_EVT_COAL_COUNT : Fld := ⟨0, 16⟩
def Fd.RING_EVT_STATUS_STATE : Fld := ⟨16, 2⟩
def Fd.RING_EVT_STATUS_ERR_STATUS : Fld := ⟨0, 16⟩
def Fd.RING_EVT_BACKLOG_COUNT : Fld := ⟨0, 17⟩
def Fd.RING_EVT_LOST_COUNT : Fld := ⟨0, 32⟩
def Fd.RING_EVT_IDX_TAIL : Fld := ⟨0, 16⟩
def Fd.MAC_CTL_LT_EN : Fld := ⟨11, 1⟩
def Fd.MAC_CTL_AN_EN : Fld := ⟨10, 1⟩
def Fd.MAC_CTL_PMD : Fld := ⟨8, 2⟩
def Fd.MAC_CTL_BREAKOUT : Fld := ⟨4, 3⟩
def Fd.MAC_CTL_RESET : Fld := ⟨1, 1⟩
def Fd.MAC_CTL_ENABLE : Fld := ⟨0, 1⟩
def Fd.MAC_STATUS_LOST : Fld := ⟨31, 1⟩
def Fd.MAC_STATUS_CDR_LOCK : Fld := ⟨16, 8⟩
def Fd.MAC_STATUS_CAL_OK : Fld := ⟨8, 8⟩
def Fd.MAC_STATUS_LOST_CAUSE : Fld := ⟨0, 4⟩
def Fd.MAC_LANE_POL_TX_INV : Fld := ⟨8, 8⟩
def Fd.MAC_LANE_POL_RX_INV : Fld := ⟨0, 8⟩
def Fd.MAC_TS_LAT_TX_PS : Fld := ⟨16, 16⟩
def Fd.MAC_TS_LAT_RX_PS : Fld := ⟨0, 16⟩
def Fd.MAC_LP_CFG_VLAN_MODE : Fld := ⟨30, 2⟩
def Fd.MAC_LP_CFG_PFC_EN : Fld := ⟨16, 8⟩
def Fd.MAC_LP_CFG_MAX_FRAME : Fld := ⟨0, 14⟩
def Fd.MAC_LP_TIMERS_UP_HOLD : Fld := ⟨24, 8⟩
def Fd.MAC_LP_TIMERS_DOWN_HOLD : Fld := ⟨16, 8⟩
def Fd.MAC_LP_TIMERS_QUANTA : Fld := ⟨0, 16⟩
def Fd.MAC_LP_STATUS_PAUSED : Fld := ⟨24, 8⟩
def Fd.MAC_LP_STATUS_XOFF_SENT : Fld := ⟨16, 8⟩
def Fd.MAC_LP_STATUS_LOSS_CNT : Fld := ⟨8, 8⟩
def Fd.MAC_LP_STATUS_RATE : Fld := ⟨4, 4⟩
def Fd.MAC_LP_STATUS_FEC_DEGRADED : Fld := ⟨3, 1⟩
def Fd.MAC_LP_STATUS_FEC_LOCK : Fld := ⟨2, 1⟩
def Fd.MAC_LP_STATUS_ALIGN_LOCK : Fld := ⟨1, 1⟩
def Fd.MAC_LP_STATUS_LINK_UP : Fld := ⟨0, 1⟩
def Fd.MAC_LP_FEC_CORR_COUNT : Fld := ⟨0, 32⟩
def Fd.MAC_LP_FEC_UNCORR_COUNT : Fld := ⟨0, 32⟩
def Fd.MAC_LP_FEC_THR_THR : Fld := ⟨0, 16⟩
def Fd.MAC_PTP_CTL_DISCIPLINE_EN : Fld := ⟨31, 1⟩
def Fd.MAC_PTP_CTL_ENABLE : Fld := ⟨30, 1⟩
def Fd.MAC_PTP_CTL_SRC : Fld := ⟨16, 8⟩
def Fd.MAC_PTP_CTL_BACKUP : Fld := ⟨8, 8⟩
def Fd.MAC_PTP_CTL_DOMAIN : Fld := ⟨0, 8⟩
def Fd.MAC_PTP_STATUS_CUR_SRC : Fld := ⟨16, 8⟩
def Fd.MAC_PTP_STATUS_STATE : Fld := ⟨0, 3⟩
def Fd.MAC_PTP_OFFSET_OFFSET : Fld := ⟨0, 32⟩
def Fd.MAC_PTP_SEAM_NS_NS : Fld := ⟨0, 30⟩
def Fd.MAC_PTP_SEAM_SEC_LO_SEC_LO : Fld := ⟨0, 32⟩
def Fd.MAC_PTP_SEAM_SEC_HI_SEC_HI : Fld := ⟨0, 16⟩
def Fd.MAC_PTP_TRIM_TRIM : Fld := ⟨0, 32⟩
def Fd.RDM_CFG_MAX_UNACKED : Fld := ⟨20, 8⟩
def Fd.RDM_CFG_IRD : Fld := ⟨8, 5⟩
def Fd.RDM_CFG_MAX_ORD : Fld := ⟨3, 5⟩
def Fd.RDM_CFG_NP_EN : Fld := ⟨2, 1⟩
def Fd.RDM_CFG_CC_EN : Fld := ⟨1, 1⟩
def Fd.RDM_RETRY_ACK_TO : Fld := ⟨16, 5⟩
def Fd.RDM_RETRY_RNR_RETRY : Fld := ⟨8, 3⟩
def Fd.RDM_RETRY_RETRY_CNT : Fld := ⟨0, 3⟩
def Fd.RDM_CM_CFG_TIMEWAIT : Fld := ⟨16, 16⟩
def Fd.RDM_CM_CFG_MAX_PENDING : Fld := ⟨0, 12⟩
def Fd.RDM_CM_PORT_PORT : Fld := ⟨0, 16⟩
def Fd.RDM_CC_SEL_PROF : Fld := ⟨0, 24⟩
def Fd.RDM_QP_COUNT_LIVE : Fld := ⟨0, 21⟩
def Fd.RDM_CACHE_RES_RESIDENT : Fld := ⟨0, 17⟩
def Fd.RDM_CACHE_PIN_READ_PINS : Fld := ⟨16, 16⟩
def Fd.RDM_CACHE_PIN_PEN_PINS : Fld := ⟨0, 16⟩
def Fd.RDM_PEN_STATUS_HIGH : Fld := ⟨16, 16⟩
def Fd.RDM_PEN_STATUS_CELLS : Fld := ⟨0, 16⟩
def Fd.RDM_PEN_DROP_COUNT : Fld := ⟨0, 32⟩
def Fd.RDM_FETCH_DROP_COUNT : Fld := ⟨0, 32⟩
def Fd.RDM_CNT_COUNT : Fld := ⟨0, 32⟩
def Fd.RDM_CC_RATE_AI : Fld := ⟨16, 16⟩
def Fd.RDM_CC_RATE_RATE_MIN : Fld := ⟨0, 16⟩
def Fd.RDM_CC_DELAY_Q_TARGET : Fld := ⟨16, 16⟩
def Fd.RDM_CC_DELAY_CNP_HOLD : Fld := ⟨8, 8⟩
def Fd.RDM_CC_DELAY_AI_MAX_MULT : Fld := ⟨4, 4⟩
def Fd.RDM_CC_DELAY_ALPHA_SHIFT : Fld := ⟨0, 4⟩
def Fd.RDM_CC_GAIN_KP : Fld := ⟨24, 8⟩
def Fd.RDM_CC_GAIN_KD : Fld := ⟨16, 8⟩
def Fd.RDM_CC_GAIN_F_MAX : Fld := ⟨8, 8⟩
def Fd.RDM_CC_GAIN_CNP_CUT : Fld := ⟨0, 8⟩
def Fd.RDM_CC_TIME_BASE_WIN : Fld := ⟨16, 16⟩
def Fd.RDM_CC_TIME_CNP_INTERVAL : Fld := ⟨8, 8⟩
def Fd.RDM_CC_TIME_UPDATE_MIN : Fld := ⟨0, 4⟩
def Fd.RDM_CC_BURST_BURST : Fld := ⟨0, 20⟩
def Fd.RDM_QP_SEL_QPN : Fld := ⟨0, 24⟩
def Fd.RDM_QP_INFO0_VALID : Fld := ⟨31, 1⟩
def Fd.RDM_QP_INFO0_RESIDENT : Fld := ⟨30, 1⟩
def Fd.RDM_QP_INFO0_STATE : Fld := ⟨24, 4⟩
def Fd.RDM_QP_INFO0_CAUSE : Fld := ⟨16, 8⟩
def Fd.RDM_QP_INFO0_HOST : Fld := ⟨0, 16⟩
def Fd.RDM_QP_INFO1_EPSN : Fld := ⟨0, 24⟩
def Fd.RDM_QP_INFO2_READS_OUT : Fld := ⟨24, 8⟩
def Fd.RDM_QP_INFO2_UNA_PSN : Fld := ⟨0, 24⟩
def Fd.RDM_QP_INFO3_RATE : Fld := ⟨0, 32⟩
def Fd.SWC_SERAI_CFG_CONVOY_CELLS : Fld := ⟨0, 17⟩
def Fd.SWC_HOLD_CFG_HOLD_RESERVE : Fld := ⟨0, 18⟩
def Fd.SWC_SHARED_CFG_XOFF_FREE : Fld := ⟨16, 16⟩
def Fd.SWC_SHARED_CFG_ECN_FREE : Fld := ⟨0, 16⟩
def Fd.SWC_STATUS_CFG_REFUSED : Fld := ⟨31, 1⟩
def Fd.SWC_STATUS_SHARED_CELLS : Fld := ⟨0, 19⟩
def Fd.SWC_OCC_SHARED_FREE : Fld := ⟨0, 19⟩
def Fd.SWC_OCC_HOLD_CELLS : Fld := ⟨0, 19⟩
def Fd.SWC_OCC_CONVOY_FREE : Fld := ⟨0, 17⟩
def Fd.SWC_OCC_MGT_CELLS : Fld := ⟨0, 14⟩
def Fd.SWC_L2_CFG_LEARN_EN : Fld := ⟨31, 1⟩
def Fd.SWC_L2_CFG_AGE_S : Fld := ⟨0, 16⟩
def Fd.SWC_MAC_COUNT_STATIC : Fld := ⟨16, 7⟩
def Fd.SWC_MAC_COUNT_LEARNED : Fld := ⟨0, 16⟩
def Fd.SWC_CNT_COUNT : Fld := ⟨0, 32⟩
def Fd.SWC_PQ_BUF_HEADROOM : Fld := ⟨16, 12⟩
def Fd.SWC_PQ_BUF_MIN : Fld := ⟨0, 12⟩
def Fd.SWC_PQ_PFC_XOFF_THR : Fld := ⟨16, 16⟩
def Fd.SWC_PQ_PFC_XON_THR : Fld := ⟨0, 16⟩
def Fd.SWC_PQ_LIM_ECN_IN_THR : Fld := ⟨16, 16⟩
def Fd.SWC_PQ_LIM_LIMIT : Fld := ⟨0, 16⟩
def Fd.SWC_PQ_ECN_ECN_OUT_THR : Fld := ⟨0, 16⟩
def Fd.SWC_PQ_OCC_EGRESS : Fld := ⟨16, 16⟩
def Fd.SWC_PQ_OCC_INGRESS : Fld := ⟨0, 16⟩
def Fd.SWC_PQ_DROP_COUNT : Fld := ⟨0, 32⟩
def Fd.SWC_LP_CFG_LEARN_EN : Fld := ⟨1, 1⟩
def Fd.SWC_LP_CFG_FWD_EN : Fld := ⟨0, 1⟩
def Fd.SWC_MAC_ST_LO_MAC_LO : Fld := ⟨0, 32⟩
def Fd.SWC_MAC_ST_HI_VALID : Fld := ⟨31, 1⟩
def Fd.SWC_MAC_ST_HI_VLAN : Fld := ⟨16, 12⟩
def Fd.SWC_MAC_ST_HI_MAC_HI : Fld := ⟨0, 16⟩
def Fd.SWC_MAC_ST_PORT_LPORT : Fld := ⟨0, 7⟩
def Fd.TMG_CFG_DEFER_DEPTH : Fld := ⟨0, 9⟩
def Fd.TMG_DEFER_CELLS_LIMIT : Fld := ⟨0, 18⟩
def Fd.TMG_STATUS_TREE_ERR : Fld := ⟨31, 1⟩
def Fd.TMG_STATUS_TREE_NODE : Fld := ⟨0, 10⟩
def Fd.TMG_DEFER_OCC_CELLS : Fld := ⟨0, 18⟩
def Fd.TMG_PRECOLOUR_COLOUR : Fld := ⟨0, 32⟩
def Fd.TMG_CNT_COUNT : Fld := ⟨0, 32⟩
def Fd.TMG_CHAN_SEL_HANDLE : Fld := ⟨0, 32⟩
def Fd.TMG_CHAN_INFO0_VALID : Fld := ⟨31, 1⟩
def Fd.TMG_CHAN_INFO0_ALG : Fld := ⟨24, 2⟩
def Fd.TMG_CHAN_INFO0_DEFERRED : Fld := ⟨0, 9⟩
def Fd.TMG_CHAN_INFO1_TC : Fld := ⟨0, 32⟩
def Fd.TMG_CHAN_INFO2_TPE : Fld := ⟨0, 32⟩
def Fd.TMG_CHAN_INFO3_LAST : Fld := ⟨0, 2⟩
def Fd.TMG_PRIO_CFG_LEVEL : Fld := ⟨29, 3⟩
def Fd.TMG_PRIO_CFG_CTL_RANK : Fld := ⟨20, 4⟩
def Fd.TMG_PRIO_CFG_MGT_RANK : Fld := ⟨16, 4⟩
def Fd.TMG_PRIO_CFG_PRIO_WEIGHT : Fld := ⟨0, 16⟩
def Fd.TMG_PRIO_FWD_FWD_WEIGHT : Fld := ⟨0, 16⟩
def Fd.TMG_PORT_CFG_OVERHEAD : Fld := ⟨0, 8⟩
def Fd.TMG_PORT_RATE_RATE : Fld := ⟨0, 17⟩
def Fd.TMG_PORT_BURST_BURST : Fld := ⟨0, 24⟩
def Fd.TMG_NODE_CFG_VALID : Fld := ⟨31, 1⟩
def Fd.TMG_NODE_CFG_ROOT : Fld := ⟨30, 1⟩
def Fd.TMG_NODE_CFG_STRICT : Fld := ⟨29, 1⟩
def Fd.TMG_NODE_CFG_PRIO : Fld := ⟨24, 3⟩
def Fd.TMG_NODE_CFG_RANK : Fld := ⟨20, 4⟩
def Fd.TMG_NODE_CFG_PARENT : Fld := ⟨0, 10⟩
def Fd.TMG_NODE_WEIGHT_WEIGHT : Fld := ⟨0, 16⟩
def Fd.TMG_NODE_RATE_RATE : Fld := ⟨0, 17⟩
def Fd.TMG_NODE_BURST_BURST : Fld := ⟨0, 24⟩
def Fd.CMD_CFG_MAX_IOQ : Fld := ⟨16, 8⟩
def Fd.CMD_CFG_MQES : Fld := ⟨0, 10⟩
def Fd.CMD_KATO_MAX : Fld := ⟨0, 16⟩
def Fd.CMD_SUBNQN_CHARS : Fld := ⟨0, 32⟩
def Fd.CMD_SERIAL_CHARS : Fld := ⟨0, 32⟩
def Fd.CMD_WB_USE_USED : Fld := ⟨0, 19⟩
def Fd.CMD_LOCK_USE_USED : Fld := ⟨0, 17⟩
def Fd.CMD_CTRL_USE_CONTROLLERS : Fld := ⟨0, 16⟩
def Fd.CMD_CNT_COUNT : Fld := ⟨0, 32⟩
def Fd.LAY_CACHE_CFG_DESTAGE_THR : Fld := ⟨24, 8⟩
def Fd.LAY_CACHE_CFG_DIRTY_GIB : Fld := ⟨0, 7⟩
def Fd.LAY_CACHE_HOLD_HOLD_TICKS : Fld := ⟨0, 16⟩
def Fd.LAY_DUMP_CFG_DUMP_GIB : Fld := ⟨0, 4⟩
def Fd.LAY_DIRTY_EFF_LINES : Fld := ⟨0, 25⟩
def Fd.LAY_DIRTY_LINES_LINES : Fld := ⟨0, 25⟩
def Fd.LAY_CLEAN_LINES_LINES : Fld := ⟨0, 25⟩
def Fd.LAY_JOURNAL_USE_SLOTS : Fld := ⟨0, 21⟩
def Fd.LAY_STATUS_FD_SINGLE : Fld := ⟨31, 1⟩
def Fd.LAY_STATUS_START : Fld := ⟨0, 2⟩
def Fd.LAY_CNT_COUNT : Fld := ⟨0, 32⟩
def Fd.LAY_BAY_FD_DOMAIN : Fld := ⟨0, 4⟩
def Fd.LAY_POOL_GEOM_LAYOUT : Fld := ⟨31, 1⟩
def Fd.LAY_POOL_GEOM_G : Fld := ⟨24, 6⟩
def Fd.LAY_POOL_GEOM_N : Fld := ⟨16, 8⟩
def Fd.LAY_POOL_GEOM_K : Fld := ⟨11, 5⟩
def Fd.LAY_POOL_GEOM_SPARE : Fld := ⟨8, 3⟩
def Fd.LAY_POOL_GEOM_STRIP_SHIFT : Fld := ⟨0, 5⟩
def Fd.LAY_POOL_STATUS_MISSING : Fld := ⟨16, 8⟩
def Fd.LAY_POOL_STATUS_RESYNC : Fld := ⟨3, 1⟩
def Fd.LAY_POOL_STATUS_STATE : Fld := ⟨0, 3⟩
def Fd.LAY_POOL_FRAMES_LO_FRAMES : Fld := ⟨0, 32⟩
def Fd.LAY_POOL_FRAMES_HI_FRAMES : Fld := ⟨0, 32⟩
def Fd.LAY_POOL_SLABS_TOTAL : Fld := ⟨0, 32⟩
def Fd.LAY_POOL_FREE_FREE : Fld := ⟨0, 32⟩
def Fd.LAY_POOL_RESYNC_LEFT : Fld := ⟨0, 32⟩
def Fd.LAY_VOL_SEL_VOLUME : Fld := ⟨0, 16⟩
def Fd.LAY_VOL_INFO0_VALID : Fld := ⟨31, 1⟩
def Fd.LAY_VOL_INFO0_STATE : Fld := ⟨24, 2⟩
def Fd.LAY_VOL_INFO0_POOL : Fld := ⟨16, 4⟩
def Fd.LAY_VOL_INFO0_LBAF : Fld := ⟨8, 3⟩
def Fd.LAY_VOL_INFO0_DIRTY_LOST : Fld := ⟨0, 1⟩
def Fd.LAY_VOL_INFO1_DIRTY : Fld := ⟨0, 32⟩
def Fd.LAY_VOL_INFO2_SLABS : Fld := ⟨0, 32⟩
def Fd.LAY_VOL_INFO3_INIT_LEFT : Fld := ⟨0, 32⟩
def Fd.LAY_MNT_CFG_CKPT_KFRAMES : Fld := ⟨24, 8⟩
def Fd.LAY_MNT_CFG_REBUILD_MODE : Fld := ⟨16, 1⟩
def Fd.LAY_MNT_CFG_INFLIGHT : Fld := ⟨0, 11⟩
def Fd.LAY_MNT_RATE_REBUILD_MBPS : Fld := ⟨0, 16⟩
def Fd.LAY_MNT_RATE2_SANITIZE_MBPS : Fld := ⟨16, 16⟩
def Fd.LAY_MNT_RATE2_SCRUB_MBPS : Fld := ⟨0, 16⟩
def Fd.LAY_MNT_LOAD_MIN_PCT : Fld := ⟨24, 8⟩
def Fd.LAY_MNT_LOAD_HOST_REF : Fld := ⟨0, 16⟩
def Fd.LAY_MNT_STATUS_LOAD : Fld := ⟨16, 9⟩
def Fd.LAY_MNT_STATUS_QUEUED : Fld := ⟨8, 5⟩
def Fd.LAY_MNT_STATUS_HELD : Fld := ⟨7, 1⟩
def Fd.LAY_MNT_STATUS_PASSES : Fld := ⟨5, 2⟩
def Fd.LAY_MNT_STATUS_RUNNING : Fld := ⟨0, 3⟩
def Fd.LAY_MNT_PASS_ACTIVE : Fld := ⟨31, 1⟩
def Fd.LAY_MNT_PASS_COPYBACK : Fld := ⟨30, 1⟩
def Fd.LAY_MNT_PASS_DONE_KFRAMES : Fld := ⟨0, 28⟩
def Fd.LAY_LOST_USE_OVERFLOW : Fld := ⟨31, 1⟩
def Fd.LAY_LOST_USE_ENTRIES : Fld := ⟨0, 15⟩
def Fd.LAY_MNT_CNT_COUNT : Fld := ⟨0, 32⟩
def Fd.CIP_CFG_TAMPER_EN : Fld := ⟨0, 1⟩
def Fd.CIP_STATUS_ZEROISED : Fld := ⟨31, 1⟩
def Fd.CIP_STATUS_HALT : Fld := ⟨30, 1⟩
def Fd.CIP_STATUS_LOADED : Fld := ⟨0, 17⟩
def Fd.CIP_ALARM_ARRAY : Fld := ⟨16, 12⟩
def Fd.CIP_ALARM_RNG : Fld := ⟨5, 1⟩
def Fd.CIP_ALARM_KEYSTORE : Fld := ⟨4, 1⟩
def Fd.CIP_ALARM_TEMP : Fld := ⟨3, 1⟩
def Fd.CIP_ALARM_CLOCK : Fld := ⟨2, 1⟩
def Fd.CIP_ALARM_SUPPLY : Fld := ⟨1, 1⟩
def Fd.CIP_ALARM_TAMPER : Fld := ⟨0, 1⟩
def Fd.CIP_KEK_LOADED : Fld := ⟨0, 16⟩
def Fd.CIP_KEY_SEL_SLOT : Fld := ⟨0, 16⟩
def Fd.CIP_KEY_INFO0_VALID : Fld := ⟨31, 1⟩
def Fd.CIP_KEY_INFO0_LOADED : Fld := ⟨30, 1⟩
def Fd.CIP_KEY_INFO0_VOLUMES : Fld := ⟨0, 17⟩
def Fd.CIP_KEY_INFO1_KCV : Fld := ⟨0, 32⟩
def Fd.CIP_ARRAY_PASS_HIGH : Fld := ⟨0, 8⟩
def Fd.CIP_CNT_COUNT : Fld := ⟨0, 32⟩
def Fd.CHK_CNT_COUNT : Fld := ⟨0, 32⟩
def Fd.CHK_SW_CTL_START : Fld := ⟨31, 1⟩
def Fd.CHK_SW_CTL_CONTINUE : Fld := ⟨30, 1⟩
def Fd.CHK_SW_CTL_POLY : Fld := ⟨0, 2⟩
def Fd.CHK_SW_ADDR_LO_ADDR : Fld := ⟨0, 32⟩
def Fd.CHK_SW_ADDR_HI_ADDR : Fld := ⟨0, 32⟩
def Fd.CHK_SW_LEN_LEN : Fld := ⟨0, 25⟩
def Fd.CHK_SW_STATUS_BUSY : Fld := ⟨31, 1⟩
def Fd.CHK_SW_STATUS_DONE : Fld := ⟨30, 1⟩
def Fd.CHK_SW_STATUS_STATUS : Fld := ⟨0, 16⟩
def Fd.CHK_SW_RES_LO_RESULT : Fld := ⟨0, 32⟩
def Fd.CHK_SW_RES_HI_RESULT : Fld := ⟨0, 32⟩
def Fd.CHK_ALIVE_GAP : Fld := ⟨31, 1⟩
def Fd.CHK_ALIVE_EXPECT : Fld := ⟨0, 16⟩
def Fd.CHK_ALIVE_CNT_GAPS : Fld := ⟨16, 16⟩
def Fd.CHK_ALIVE_CNT_REPEATS : Fld := ⟨0, 16⟩
def Fd.DRV_CFG_MODE : Fld := ⟨31, 1⟩
def Fd.DRV_CFG_HEALTH_FAIL : Fld := ⟨30, 1⟩
def Fd.DRV_CFG_MNT_DEPTH : Fld := ⟨16, 8⟩
def Fd.DRV_CFG_HPW : Fld := ⟨8, 8⟩
def Fd.DRV_CFG_LPW : Fld := ⟨0, 8⟩
def Fd.DRV_TIMERS_CMD_TO : Fld := ⟨16, 16⟩
def Fd.DRV_TIMERS_ABORT_TO : Fld := ⟨0, 16⟩
def Fd.DRV_RECOVER_RECOVER_MAX : Fld := ⟨16, 16⟩
def Fd.DRV_RECOVER_RESET_THR : Fld := ⟨8, 8⟩
def Fd.DRV_RECOVER_LINK_RETRIES : Fld := ⟨4, 4⟩
def Fd.DRV_TAG_USE_USED : Fld := ⟨0, 17⟩
def Fd.DRV_CNT_COUNT : Fld := ⟨0, 32⟩
def Fd.DRV_BAY_CFG_ENABLE : Fld := ⟨31, 1⟩
def Fd.DRV_BAY_CFG_SMBUS_EN : Fld := ⟨30, 1⟩
def Fd.DRV_BAY_CFG_SRIS : Fld := ⟨29, 1⟩
def Fd.DRV_BAY_CFG_MAX_GTS : Fld := ⟨20, 4⟩
def Fd.DRV_BAY_CFG_MIN_GTS : Fld := ⟨16, 4⟩
def Fd.DRV_BAY_CFG_MIN_WIDTH : Fld := ⟨8, 4⟩
def Fd.DRV_BAY_STATUS_STATE : Fld := ⟨28, 4⟩
def Fd.DRV_BAY_STATUS_REASON : Fld := ⟨24, 4⟩
def Fd.DRV_BAY_STATUS_RATE : Fld := ⟨20, 4⟩
def Fd.DRV_BAY_STATUS_WIDTH : Fld := ⟨16, 4⟩
def Fd.DRV_BAY_STATUS_FLIT : Fld := ⟨15, 1⟩
def Fd.DRV_BAY_STATUS_VWC_OFF : Fld := ⟨14, 1⟩
def Fd.DRV_BAY_STATUS_DEGRADED : Fld := ⟨13, 1⟩
def Fd.DRV_BAY_STATUS_HOSTQ : Fld := ⟨8, 5⟩
def Fd.DRV_BAY_STATUS_MNTQ : Fld := ⟨4, 4⟩
def Fd.DRV_BAY_ERR_RECOVERIES : Fld := ⟨24, 8⟩
def Fd.DRV_BAY_ERR_TIMEOUTS : Fld := ⟨16, 8⟩
def Fd.DRV_BAY_ERR_MEDIA_ERR : Fld := ⟨0, 16⟩
def Fd.DRV_BAY_OUT_MNT : Fld := ⟨16, 16⟩
def Fd.DRV_BAY_OUT_ALL : Fld := ⟨0, 16⟩
def Fd.BAY_GLB_CFG_TA_C : Fld := ⟨16, 8⟩
def Fd.BAY_GLB_CFG_INRUSH_BAYS : Fld := ⟨0, 8⟩
def Fd.BAY_GLB_STATUS_CFG_REFUSED : Fld := ⟨31, 1⟩
def Fd.BAY_GLB_STATUS_INRUSH_NOW : Fld := ⟨0, 8⟩
def Fd.BAY_PRESENT_PRESENT : Fld := ⟨0, 32⟩
def Fd.BAY_PG_PG : Fld := ⟨0, 32⟩
def Fd.BAY_CNT_COUNT : Fld := ⟨0, 32⟩
def Fd.BAY_CFG_AUTO_ON : Fld := ⟨31, 1⟩
def Fd.BAY_CFG_RETRY_MAX : Fld := ⟨8, 4⟩
def Fd.BAY_CFG_DUTY : Fld := ⟨0, 7⟩
def Fd.BAY_SENSE_VGAIN : Fld := ⟨16, 16⟩
def Fd.BAY_SENSE_IGAIN : Fld := ⟨0, 16⟩
def Fd.BAY_INRUSH_PG_MV : Fld := ⟨16, 16⟩
def Fd.BAY_INRUSH_INRUSH_MAX : Fld := ⟨0, 16⟩
def Fd.BAY_FUSE_ILIM_ABS : Fld := ⟨16, 16⟩
def Fd.BAY_FUSE_COOL : Fld := ⟨0, 16⟩
def Fd.BAY_RETRY_RETRY_DELAY : Fld := ⟨16, 16⟩
def Fd.BAY_RETRY_OFF_SETTLE : Fld := ⟨0, 16⟩
def Fd.BAY_TH_R_R2 : Fld := ⟨16, 16⟩
def Fd.BAY_TH_R_R1 : Fld := ⟨0, 16⟩
def Fd.BAY_TH_ALPHA1_ALPHA : Fld := ⟨0, 32⟩
def Fd.BAY_TH_ALPHA2_ALPHA : Fld := ⟨0, 32⟩
def Fd.BAY_TH_LIMIT_TRIP_C : Fld := ⟨16, 8⟩
def Fd.BAY_TH_LIMIT_RESTART_C : Fld := ⟨0, 8⟩
def Fd.BAY_DMG_RON_MAX : Fld := ⟨24, 8⟩
def Fd.BAY_DMG_DMG_EVALS : Fld := ⟨16, 8⟩
def Fd.BAY_DMG_VOFF_MAX : Fld := ⟨8, 8⟩
def Fd.BAY_DMG_IOFF_MAX : Fld := ⟨0, 8⟩
def Fd.BAY_STATUS_STATE : Fld := ⟨28, 4⟩
def Fd.BAY_STATUS_PG : Fld := ⟨27, 1⟩
def Fd.BAY_STATUS_PRESENT : Fld := ⟨26, 1⟩
def Fd.BAY_STATUS_PRS_RAW : Fld := ⟨25, 1⟩
def Fd.BAY_STATUS_GOK : Fld := ⟨24, 1⟩
def Fd.BAY_STATUS_EN : Fld := ⟨23, 1⟩
def Fd.BAY_STATUS_PENDING : Fld := ⟨22, 1⟩
def Fd.BAY_STATUS_COOL_WAIT : Fld := ⟨21, 1⟩
def Fd.BAY_STATUS_CURVE_VALID : Fld := ⟨20, 1⟩
def Fd.BAY_STATUS_RETRIES : Fld := ⟨16, 4⟩
def Fd.BAY_STATUS_LAST_TRIP : Fld := ⟨12, 4⟩
def Fd.BAY_STATUS_DMG_CAUSE : Fld := ⟨8, 4⟩
def Fd.BAY_MEAS_I_MA : Fld := ⟨16, 16⟩
def Fd.BAY_MEAS_V_MV : Fld := ⟨0, 16⟩
def Fd.BAY_MODEL_TJ : Fld := ⟨16, 16⟩
def Fd.BAY_MODEL_INTEG : Fld := ⟨0, 16⟩
def Fd.BAY_LED_LED1 : Fld := ⟨2, 2⟩
def Fd.BAY_LED_LED0 : Fld := ⟨0, 2⟩
def Fd.BAY_FAULTS_TRIPS : Fld := ⟨16, 16⟩
def Fd.BAY_FAULTS_PRS_GLITCHES : Fld := ⟨0, 16⟩
def Fd.BAY_CURVE_TIME : Fld := ⟨16, 16⟩
def Fd.BAY_CURVE_LIMIT : Fld := ⟨0, 16⟩
def Fd.ENV_CFG_CRIT_SHUTDOWN : Fld := ⟨31, 1⟩
def Fd.ENV_CFG_FAIL_DUTY : Fld := ⟨16, 8⟩
def Fd.ENV_CFG_DUTY_MIN : Fld := ⟨8, 8⟩
def Fd.ENV_CFG_DUMP_DUTY : Fld := ⟨0, 8⟩
def Fd.ENV_LOOP_GAIN_KP : Fld := ⟨16, 16⟩
def Fd.ENV_LOOP_GAIN_KI : Fld := ⟨0, 16⟩
def Fd.ENV_LOOP_FF_SLEW_DN : Fld := ⟨16, 16⟩
def Fd.ENV_LOOP_FF_FF_GAIN : Fld := ⟨0, 16⟩
def Fd.ENV_TEMP_TGT_THERM : Fld := ⟨24, 8⟩
def Fd.ENV_TEMP_TGT_DRIVE : Fld := ⟨16, 8⟩
def Fd.ENV_TEMP_TGT_DIE : Fld := ⟨8, 8⟩
def Fd.ENV_TEMP_WARN_THERM : Fld := ⟨24, 8⟩
def Fd.ENV_TEMP_WARN_DRIVE : Fld := ⟨16, 8⟩
def Fd.ENV_TEMP_WARN_DIE : Fld := ⟨8, 8⟩
def Fd.ENV_TEMP_CRIT_THERM : Fld := ⟨24, 8⟩
def Fd.ENV_TEMP_CRIT_DRIVE : Fld := ⟨16, 8⟩
def Fd.ENV_TEMP_CRIT_DIE : Fld := ⟨8, 8⟩
def Fd.ENV_STATUS_STALL : Fld := ⟨31, 1⟩
def Fd.ENV_STATUS_MANUAL : Fld := ⟨30, 1⟩
def Fd.ENV_STATUS_FLOOR_FAIL : Fld := ⟨29, 1⟩
def Fd.ENV_STATUS_DUTY : Fld := ⟨0, 11⟩
def Fd.ENV_THERM_PULL_RPULL : Fld := ⟨0, 17⟩
def Fd.ENV_TEMPS_SHELF : Fld := ⟨16, 16⟩
def Fd.ENV_TEMPS_DIE : Fld := ⟨0, 16⟩
def Fd.ENV_SENSE_HOLD_GAIN : Fld := ⟨16, 16⟩
def Fd.ENV_SENSE_VBUS_GAIN : Fld := ⟨0, 16⟩
def Fd.ENV_VBUS_VBUS : Fld := ⟨0, 16⟩
def Fd.ENV_CNT_COUNT : Fld := ⟨0, 32⟩
def Fd.ENV_HOLD_CFG_C_MF : Fld := ⟨16, 16⟩
def Fd.ENV_HOLD_CFG_EFF : Fld := ⟨8, 8⟩
def Fd.ENV_HOLD_CFG_MARGIN : Fld := ⟨0, 8⟩
def Fd.ENV_HOLD_V_V_MIN : Fld := ⟨16, 16⟩
def Fd.ENV_HOLD_V_V_OFF : Fld := ⟨0, 16⟩
def Fd.ENV_HOLD_CHG_V_ON : Fld := ⟨16, 16⟩
def Fd.ENV_HOLD_CHG_CHG_TIMEOUT : Fld := ⟨8, 8⟩
def Fd.ENV_HOLD_POWER_P_BASE : Fld := ⟨16, 16⟩
def Fd.ENV_HOLD_POWER_DRV_DUMP_W : Fld := ⟨0, 16⟩
def Fd.ENV_DUMP_RATE_RATE : Fld := ⟨16, 16⟩
def Fd.ENV_DUMP_RATE_WLAT : Fld := ⟨0, 16⟩
def Fd.ENV_DUMP_TIMING_FLUSH_US : Fld := ⟨16, 16⟩
def Fd.ENV_DUMP_TIMING_PF_FILTER : Fld := ⟨8, 8⟩
def Fd.ENV_DUMP_TIMING_RESTORE_MS : Fld := ⟨0, 8⟩
def Fd.ENV_HOLD_STATUS_READY : Fld := ⟨31, 1⟩
def Fd.ENV_HOLD_STATUS_FAULT : Fld := ⟨30, 1⟩
def Fd.ENV_HOLD_STATUS_CHG_EN : Fld := ⟨29, 1⟩
def Fd.ENV_HOLD_STATUS_PF : Fld := ⟨28, 1⟩
def Fd.ENV_HOLD_STATUS_V : Fld := ⟨0, 16⟩
def Fd.ENV_HOLD_EAVAIL_VALUE : Fld := ⟨0, 32⟩
def Fd.ENV_HOLD_EREQ_VALUE : Fld := ⟨0, 32⟩
def Fd.ENV_HOLD_THOLD_VALUE : Fld := ⟨0, 32⟩
def Fd.ENV_HOLD_PHOLD_VALUE : Fld := ⟨0, 32⟩
def Fd.ENV_FAN_CFG_PRESENT : Fld := ⟨31, 1⟩
def Fd.ENV_FAN_CFG_PULSES : Fld := ⟨16, 4⟩
def Fd.ENV_FAN_CFG_TACH_MIN : Fld := ⟨0, 16⟩
def Fd.ENV_FAN_STATUS_FAILED : Fld := ⟨31, 1⟩
def Fd.ENV_FAN_STATUS_RPM : Fld := ⟨0, 16⟩
def Fd.ENV_THERM_CFG_PRESENT : Fld := ⟨31, 1⟩
def Fd.ENV_THERM_CFG_BETA : Fld := ⟨16, 15⟩
def Fd.ENV_THERM_CFG_R25 : Fld := ⟨0, 16⟩
def Fd.ENV_THERM_TEMP_FAILED : Fld := ⟨31, 1⟩
def Fd.ENV_THERM_TEMP_LEVEL : Fld := ⟨16, 2⟩
def Fd.ENV_THERM_TEMP_TEMP : Fld := ⟨0, 16⟩
def Fd.ENV_DUMP_LAST_OUTCOME : Fld := ⟨28, 4⟩
def Fd.ENV_DUMP_LAST_LINES : Fld := ⟨0, 28⟩
def Fd.ENV_DUMP_TIME_US : Fld := ⟨0, 32⟩
def Fd.ENV_DUMP_ERR_CHUNKS : Fld := ⟨16, 16⟩
def Fd.ENV_DUMP_ERR_HEADERS : Fld := ⟨8, 8⟩
def Fd.ENV_DUMP_ERR_JOURNAL : Fld := ⟨0, 2⟩
def Fd.PAIR_CFG_ZERO_FOLLOW : Fld := ⟨31, 1⟩
def Fd.PAIR_CFG_COLD_AUTO : Fld := ⟨30, 1⟩
def Fd.PAIR_CFG_HO_FENCE : Fld := ⟨29, 1⟩
def Fd.PAIR_CFG_HO_SECOND : Fld := ⟨28, 1⟩
def Fd.PAIR_CFG_HO_STACK : Fld := ⟨27, 1⟩
def Fd.PAIR_CFG_HO_PORT : Fld := ⟨26, 1⟩
def Fd.PAIR_CFG_ACT_FILTER : Fld := ⟨8, 6⟩
def Fd.PAIR_CFG_CLAIM_WAIT : Fld := ⟨0, 8⟩
def Fd.PAIR_STATUS_STATE : Fld := ⟨28, 4⟩
def Fd.PAIR_STATUS_SLOT : Fld := ⟨27, 1⟩
def Fd.PAIR_STATUS_PAIRED_STRAP : Fld := ⟨26, 1⟩
def Fd.PAIR_STATUS_ACT_N : Fld := ⟨25, 1⟩
def Fd.PAIR_STATUS_CLAIMED : Fld := ⟨24, 1⟩
def Fd.PAIR_STATUS_PEER_STATE : Fld := ⟨16, 8⟩
def Fd.PAIR_STATUS_RHS_FAIL : Fld := ⟨15, 1⟩
def Fd.PAIR_LINK_UP : Fld := ⟨31, 1⟩
def Fd.PAIR_LINK_KEYED : Fld := ⟨30, 1⟩
def Fd.PAIR_LINK_BUNDLES : Fld := ⟨0, 16⟩
def Fd.PAIR_TIMING_LAT_MAX : Fld := ⟨16, 16⟩
def Fd.PAIR_TIMING_OFFSET : Fld := ⟨0, 16⟩
def Fd.PAIR_TICK_LO_TICK : Fld := ⟨0, 32⟩
def Fd.PAIR_TICK_HI_TICK : Fld := ⟨0, 32⟩
def Fd.PAIR_JOIN_CFG_HOLD_MAX : Fld := ⟨16, 16⟩
def Fd.PAIR_JOIN_CFG_PASSES : Fld := ⟨8, 8⟩
def Fd.PAIR_JOIN_CFG_RESIDUE : Fld := ⟨0, 8⟩
def Fd.PAIR_JOIN_STATUS_PHASE : Fld := ⟨28, 4⟩
def Fd.PAIR_JOIN_STATUS_CAUSE : Fld := ⟨24, 4⟩
def Fd.PAIR_JOIN_STATUS_PASS : Fld := ⟨16, 8⟩
def Fd.PAIR_JOIN_STATUS_HOLD_TICKS : Fld := ⟨0, 16⟩
def Fd.PAIR_PEER_PIN0_LOT_LO : Fld := ⟨0, 32⟩
def Fd.PAIR_PEER_PIN1_LOT_HI : Fld := ⟨16, 16⟩
def Fd.PAIR_PEER_PIN1_WAFER : Fld := ⟨0, 5⟩
def Fd.PAIR_PEER_PIN2_PIN_EN : Fld := ⟨31, 1⟩
def Fd.PAIR_PEER_PIN2_DIE_X : Fld := ⟨8, 8⟩
def Fd.PAIR_PEER_PIN2_DIE_Y : Fld := ⟨0, 8⟩
def Fd.PAIR_PEER_SEEN0_LOT_LO : Fld := ⟨0, 32⟩
def Fd.PAIR_PEER_SEEN1_LOT_HI : Fld := ⟨16, 16⟩
def Fd.PAIR_PEER_SEEN1_WAFER : Fld := ⟨0, 5⟩
def Fd.PAIR_PEER_SEEN2_PIN_EN : Fld := ⟨31, 1⟩
def Fd.PAIR_PEER_SEEN2_DIE_X : Fld := ⟨8, 8⟩
def Fd.PAIR_PEER_SEEN2_DIE_Y : Fld := ⟨0, 8⟩
def Fd.PAIR_DIV_VALUE : Fld := ⟨0, 32⟩
def Fd.PAIR_CNT_COUNT : Fld := ⟨0, 32⟩
def Fd.PAIR_RHS_STATUS_BUSY : Fld := ⟨31, 1⟩
def Fd.PAIR_RHS_STATUS_KIND : Fld := ⟨24, 3⟩
def Fd.PAIR_RHS_STATUS_RESULT : Fld := ⟨16, 4⟩
def Fd.PAIR_RHS_STATUS_INDEX : Fld := ⟨0, 16⟩
def Fd.MGT_STATUS_READY : Fld := ⟨31, 1⟩
def Fd.MGT_STATUS_FW_RUN : Fld := ⟨30, 1⟩
def Fd.MGT_STATUS_RECOVERY : Fld := ⟨29, 1⟩
def Fd.MGT_STATUS_FALLBACK : Fld := ⟨28, 1⟩
def Fd.MGT_STATUS_FLASH_DEGRADED : Fld := ⟨27, 1⟩
def Fd.MGT_STATUS_BOOT_FAIL : Fld := ⟨16, 8⟩
def Fd.MGT_STATUS_CORE_UP : Fld := ⟨0, 4⟩
def Fd.MGT_FW_VER_VERSION : Fld := ⟨0, 32⟩
def Fd.MGT_FW_STAGED_VERSION : Fld := ⟨0, 32⟩
def Fd.MGT_BOOT_TRIES : Fld := ⟨16, 2⟩
def Fd.MGT_BOOT_PENDING : Fld := ⟨8, 8⟩
def Fd.MGT_BOOT_DEVICE : Fld := ⟨2, 1⟩
def Fd.MGT_BOOT_RUN_SLOT : Fld := ⟨1, 1⟩
def Fd.MGT_BOOT_ACTIVE : Fld := ⟨0, 1⟩
def Fd.MGT_SVN_REVOKED : Fld := ⟨16, 4⟩
def Fd.MGT_SVN_FLOOR : Fld := ⟨8, 8⟩
def Fd.MGT_SVN_RUNNING : Fld := ⟨0, 8⟩
def Fd.MGT_QUEUE_INTERNAL : Fld := ⟨16, 11⟩
def Fd.MGT_QUEUE_RING : Fld := ⟨0, 11⟩
def Fd.MGT_SMB_CFG_ENABLE : Fld := ⟨31, 1⟩
def Fd.MGT_SMB_CFG_SPEED : Fld := ⟨8, 2⟩
def Fd.MGT_SMB_CFG_ADDR : Fld := ⟨0, 7⟩
def Fd.MGT_MCTP_SPDM_SESSIONS : Fld := ⟨16, 8⟩
def Fd.MGT_MCTP_EID_SMB : Fld := ⟨8, 8⟩
def Fd.MGT_MCTP_EID_VDM : Fld := ⟨0, 8⟩
def Fd.MGT_RECOV_ADDR_LO_ADDR : Fld := ⟨0, 32⟩
def Fd.MGT_RECOV_ADDR_HI_ADDR : Fld := ⟨0, 32⟩
def Fd.MGT_RECOV_SIZE_SIZE : Fld := ⟨0, 25⟩
def Fd.MGT_RECOV_CTL_GO : Fld := ⟨31, 1⟩
def Fd.MGT_RECOV_CTL_STATUS : Fld := ⟨0, 16⟩
def Fd.MGT_CNT_COUNT : Fld := ⟨0, 32⟩
def Fd.MGT_ITK_SEL_SLOT : Fld := ⟨0, 3⟩
def Fd.MGT_ITK_CTL_CLEAR : Fld := ⟨1, 1⟩
def Fd.MGT_ITK_CTL_COMMIT : Fld := ⟨0, 1⟩
def Fd.MGT_ITK_STATUS_ERR : Fld := ⟨31, 1⟩
def Fd.MGT_ITK_STATUS_VALID : Fld := ⟨0, 8⟩
def Fd.MGT_ITK_DATA_BYTES : Fld := ⟨0, 32⟩
def Fd.MGT_MEAS_SEL_INDEX : Fld := ⟨0, 4⟩
def Fd.MGT_MEAS_VAL_BYTES : Fld := ⟨0, 32⟩
def Fd.CRS_RESET_CAUSE_CAUSE : Fld := ⟨28, 4⟩
def Fd.CRS_RESET_CAUSE_PREV_CAUSE : Fld := ⟨24, 4⟩
def Fd.CRS_RESET_CAUSE_FATAL_SRC : Fld := ⟨16, 8⟩
def Fd.CRS_RESET_CAUSE_COUNT : Fld := ⟨0, 16⟩
def Fd.CRS_CHIP_RESET_KEY : Fld := ⟨16, 16⟩
def Fd.CRS_CHIP_RESET_GO : Fld := ⟨0, 1⟩
def Fd.CRS_CLK_STATUS_CORE_LOCK : Fld := ⟨31, 1⟩
def Fd.CRS_CLK_STATUS_MGT_LOCK : Fld := ⟨30, 1⟩
def Fd.CRS_CLK_STATUS_AUX_LOCK : Fld := ⟨29, 1⟩
def Fd.CRS_CLK_STATUS_AUX_FALLBACK : Fld := ⟨28, 1⟩
def Fd.CRS_CLK_STATUS_HBM_LOCK : Fld := ⟨24, 4⟩
def Fd.CRS_CLK_STATUS_PAIR_REF : Fld := ⟨20, 4⟩
def Fd.CRS_CLK_STATUS_PCIE_REF : Fld := ⟨12, 8⟩
def Fd.CRS_CLK_STATUS_NET_REF : Fld := ⟨8, 4⟩
def Fd.CRS_CLK_STATUS_CH_REF : Fld := ⟨7, 1⟩
def Fd.CRS_CLK_STATUS_SYS_REF : Fld := ⟨6, 1⟩
def Fd.CRS_CLK_LOSS_MGT_RELOCKS : Fld := ⟨16, 16⟩
def Fd.CRS_CLK_LOSS_AUX_FALLBACKS : Fld := ⟨0, 16⟩
def Fd.CRS_STATUS_HBM_READY : Fld := ⟨31, 1⟩
def Fd.CRS_STATUS_MON_ARMED : Fld := ⟨30, 1⟩
def Fd.CRS_STATUS_SUPPLY_OK : Fld := ⟨0, 8⟩
def Fd.CRS_XING_ABANDONED_WR : Fld := ⟨16, 16⟩
def Fd.CRS_XING_ABANDONED_RD : Fld := ⟨0, 16⟩
def Fd.CRS_CLU_CTL_RETEST : Fld := ⟨0, 1⟩
def Fd.CRS_CLU_STATUS_STATE : Fld := ⟨28, 4⟩
def Fd.CRS_CLU_STATUS_FAIL_STEP : Fld := ⟨24, 4⟩
def Fd.CRS_CLU_STATUS_CHECKS : Fld := ⟨0, 16⟩
def Fd.TEL_DUMP_ADDR_LO_ADDR_LO : Fld := ⟨12, 20⟩
def Fd.TEL_DUMP_ADDR_HI_ADDR_HI : Fld := ⟨0, 32⟩
def Fd.TEL_DUMP_GEOM_SLOT_4K : Fld := ⟨15, 17⟩
def Fd.TEL_DUMP_GEOM_SLOTS : Fld := ⟨0, 11⟩
def Fd.TEL_DUMP_CTL_CHAN_DIV : Fld := ⟨16, 16⟩
def Fd.TEL_DUMP_CTL_INTERVAL : Fld := ⟨0, 16⟩
def Fd.TEL_GROUPS_READY_EV : Fld := ⟨18, 1⟩
def Fd.TEL_GROUPS_CHAN_EN : Fld := ⟨17, 1⟩
def Fd.TEL_GROUPS_TRACE_EN : Fld := ⟨16, 1⟩
def Fd.TEL_GROUPS_MASK : Fld := ⟨1, 15⟩
def Fd.TEL_TAG_CFG_FILTER_KIND : Fld := ⟨8, 2⟩
def Fd.TEL_TAG_CFG_TAG_SHIFT : Fld := ⟨0, 5⟩
def Fd.TEL_TAG_FILTER_FILTER : Fld := ⟨0, 32⟩
def Fd.TEL_TAG_SEED_SEED : Fld := ⟨0, 32⟩
def Fd.TEL_DUMP_PROD_PROD : Fld := ⟨0, 10⟩
def Fd.TEL_DUMP_CONS_CONS : Fld := ⟨0, 10⟩
def Fd.TEL_PERSIST_MASK : Fld := ⟨0, 14⟩
def Fd.TEL_CTR_SEL_GROUP : Fld := ⟨28, 4⟩
def Fd.TEL_CTR_SEL_INDEX : Fld := ⟨23, 5⟩
def Fd.TEL_CTR_SEL_INSTANCE : Fld := ⟨0, 18⟩
def Fd.TEL_CTR_VAL_LO_VALUE : Fld := ⟨0, 32⟩
def Fd.TEL_CTR_VAL_HI_VALUE : Fld := ⟨0, 32⟩
def Fd.TEL_STATUS_VALID : Fld := ⟨31, 1⟩
def Fd.TEL_STATUS_DUMPING : Fld := ⟨30, 1⟩
def Fd.TEL_STATUS_BUFFERS : Fld := ⟨0, 2⟩
def Fd.TEL_CNT_COUNT : Fld := ⟨0, 32⟩
def Fd.GLB_CHIP_ID0_LOT_LO : Fld := ⟨0, 32⟩
def Fd.GLB_CHIP_ID1_LOT_HI : Fld := ⟨16, 16⟩
def Fd.GLB_CHIP_ID1_WAFER : Fld := ⟨0, 5⟩
def Fd.GLB_CHIP_ID2_DIE_X : Fld := ⟨8, 8⟩
def Fd.GLB_CHIP_ID2_DIE_Y : Fld := ⟨0, 8⟩
def Fd.GLB_CHIP_ID3_PART : Fld := ⟨16, 16⟩
def Fd.GLB_CHIP_ID3_STEPPING : Fld := ⟨8, 8⟩
def Fd.GLB_CAP0_ENGINES : Fld := ⟨24, 8⟩
def Fd.GLB_CAP0_CLUSTERS : Fld := ⟨20, 4⟩
def Fd.GLB_CAP0_STACKS : Fld := ⟨16, 4⟩
def Fd.GLB_CAP0_LPORTS : Fld := ⟨8, 8⟩
def Fd.GLB_CAP0_BAYS : Fld := ⟨0, 8⟩
def Fd.GLB_CAP1_MSIX : Fld := ⟨20, 12⟩
def Fd.GLB_CAP1_CMD_RINGS : Fld := ⟨12, 8⟩
def Fd.GLB_CAP1_POOLS : Fld := ⟨7, 5⟩
def Fd.GLB_CAP2_CATALOGUE : Fld := ⟨0, 32⟩
def Fd.GLB_CAP3_QPS_LOG2 : Fld := ⟨25, 5⟩
def Fd.GLB_CAP3_CHANNELS_LOG2 : Fld := ⟨20, 5⟩
def Fd.GLB_CAP3_WAYBILLS_LOG2 : Fld := ⟨15, 5⟩
def Fd.GLB_CAP3_VOLUMES_LOG2 : Fld := ⟨10, 5⟩
def Fd.GLB_CAP3_LOCKS_LOG2 : Fld := ⟨5, 5⟩
def Fd.GLB_CAP3_KEYS_LOG2 : Fld := ⟨0, 5⟩
def Fd.GLB_STRAPS_CH_SRIS : Fld := ⟨2, 1⟩
def Fd.GLB_STRAPS_PAIR_SLOT : Fld := ⟨1, 1⟩
def Fd.GLB_STRAPS_PAIR_EN : Fld := ⟨0, 1⟩
def Fd.GLB_SCRATCH_VALUE : Fld := ⟨0, 32⟩
def Fd.GLB_LOCK_LOCKED : Fld := ⟨31, 1⟩
def Fd.GLB_LOCK_REFUSED : Fld := ⟨16, 4⟩
def Fd.GLB_LOCK_SET : Fld := ⟨0, 1⟩
def Fd.GLB_VIOL_ADDR_OFFSET : Fld := ⟨0, 26⟩
def Fd.GLB_VIOL_CNT_COUNT : Fld := ⟨0, 32⟩
def Fd.GLB_ATTN_EVT : Fld := ⟨13, 1⟩
def Fd.GLB_ATTN_RING : Fld := ⟨12, 1⟩
def Fd.GLB_ATTN_CLUSTER : Fld := ⟨11, 1⟩
def Fd.GLB_ATTN_MGT : Fld := ⟨10, 1⟩
def Fd.GLB_ATTN_PAIR : Fld := ⟨9, 1⟩
def Fd.GLB_ATTN_HOLD : Fld := ⟨8, 1⟩
def Fd.GLB_ATTN_ENV : Fld := ⟨7, 1⟩
def Fd.GLB_ATTN_BAY : Fld := ⟨6, 1⟩
def Fd.GLB_ATTN_DRIVE : Fld := ⟨5, 1⟩
def Fd.GLB_ATTN_RESYNC : Fld := ⟨4, 1⟩
def Fd.GLB_ATTN_POOL : Fld := ⟨3, 1⟩
def Fd.GLB_ATTN_CIPHER : Fld := ⟨2, 1⟩
def Fd.GLB_ATTN_PORT : Fld := ⟨1, 1⟩
def Fd.GLB_ATTN_FENCE : Fld := ⟨0, 1⟩
def Fd.GLB_IRQ_CPL_LO_PENDING : Fld := ⟨0, 32⟩
def Fd.GLB_IRQ_CPL_HI_PENDING : Fld := ⟨0, 32⟩
def Fd.GLB_IRQ_EVT_BACKLOG : Fld := ⟨1, 1⟩
def Fd.GLB_IRQ_EVT_PENDING : Fld := ⟨0, 1⟩
def Fd.HBM_STATUS_LOST_CAUSE : Fld := ⟨8, 8⟩
def Fd.HBM_STATUS_LOST : Fld := ⟨4, 4⟩
def Fd.HBM_STATUS_READY : Fld := ⟨0, 4⟩
def Fd.HBM_ECC_UNCORR : Fld := ⟨16, 16⟩
def Fd.HBM_ECC_CORR : Fld := ⟨0, 16⟩

/-! ### The table -/

def regsGlb0 : List RegDef := [
  ⟨"GLB_CHIP_ID0", 0x00000000, [], [
    ⟨"LOT_LO", ⟨0, 32⟩, .ro, 0, .any, false⟩]⟩,
  ⟨"GLB_CHIP_ID1", 0x00000004, [], [
    ⟨"LOT_HI", ⟨16, 16⟩, .ro, 0, .any, false⟩,
    ⟨"WAFER", ⟨0, 5⟩, .ro, 0, .any, false⟩]⟩,
  ⟨"GLB_CHIP_ID2", 0x00000008, [], [
    ⟨"DIE_X", ⟨8, 8⟩, .ro, 0, .any, false⟩,
    ⟨"DIE_Y", ⟨0, 8⟩, .ro, 0, .any, false⟩]⟩,
  ⟨"GLB_CHIP_ID3", 0x0000000C, [], [
    ⟨"PART", ⟨16, 16⟩, .ro, 38400, .any, false⟩,
    ⟨"STEPPING", ⟨8, 8⟩, .ro, 176, .any, false⟩]⟩,
  ⟨"GLB_CAP0", 0x00000010, [], [
    ⟨"ENGINES", ⟨24, 8⟩, .ro, 96, .any, false⟩,
    ⟨"CLUSTERS", ⟨20, 4⟩, .ro, 12, .any, false⟩,
    ⟨"STACKS", ⟨16, 4⟩, .ro, 4, .any, false⟩,
    ⟨"LPORTS", ⟨8, 8⟩, .ro, 128, .any, false⟩,
    ⟨"BAYS", ⟨0, 8⟩, .ro, 128, .any, false⟩]⟩,
  ⟨"GLB_CAP1", 0x00000014, [], [
    ⟨"MSIX", ⟨20, 12⟩, .ro, 2048, .any, false⟩,
    ⟨"CMD_RINGS", ⟨12, 8⟩, .ro, 64, .any, false⟩,
    ⟨"POOLS", ⟨7, 5⟩, .ro, 16, .any, false⟩]⟩,
  ⟨"GLB_CAP2", 0x00000018, [], [
    ⟨"CATALOGUE", ⟨0, 32⟩, .ro, 65539, .any, false⟩]⟩,
  ⟨"GLB_CAP3", 0x0000001C, [], [
    ⟨"QPS_LOG2", ⟨25, 5⟩, .ro, 20, .any, false⟩,
    ⟨"CHANNELS_LOG2", ⟨20, 5⟩, .ro, 18, .any, false⟩,
    ⟨"WAYBILLS_LOG2", ⟨15, 5⟩, .ro, 18, .any, false⟩,
    ⟨"VOLUMES_LOG2", ⟨10, 5⟩, .ro, 16, .any, false⟩,
    ⟨"LOCKS_LOG2", ⟨5, 5⟩, .ro, 16, .any, false⟩,
    ⟨"KEYS_LOG2", ⟨0, 5⟩, .ro, 16, .any, false⟩]⟩,
  ⟨"GLB_STRAPS", 0x00000020, [], [
    ⟨"CH_SRIS", ⟨2, 1⟩, .ro, 0, .any, false⟩,
    ⟨"PAIR_SLOT", ⟨1, 1⟩, .ro, 0, .any, false⟩,
    ⟨"PAIR_EN", ⟨0, 1⟩, .ro, 0, .any, false⟩]⟩,
  ⟨"GLB_SCRATCH", 0x000000F0, [(4, 0x4)], [
    ⟨"VALUE", ⟨0, 32⟩, .rw, 0, .any, true⟩]⟩,
  ⟨"GLB_LOCK", 0x00000040, [], [
    ⟨"LOCKED", ⟨31, 1⟩, .ro, 0, .any, false⟩,
    ⟨"REFUSED", ⟨16, 4⟩, .ro, 0, .any, false⟩,
    ⟨"SET", ⟨0, 1⟩, .wo, 0, .ownRow, false⟩]⟩,
  ⟨"GLB_VIOL_ADDR", 0x00000044, [], [
    ⟨"OFFSET", ⟨0, 26⟩, .ro, 0, .any, false⟩]⟩]

def regsGlb1 : List RegDef := [
  ⟨"GLB_VIOL_CNT", 0x00000048, [], [
    ⟨"COUNT", ⟨0, 32⟩, .rc, 0, .any, false⟩]⟩,
  ⟨"GLB_ATTN", 0x00000080, [], [
    ⟨"EVT", ⟨13, 1⟩, .ro, 0, .any, false⟩,
    ⟨"RING", ⟨12, 1⟩, .ro, 0, .any, false⟩,
    ⟨"CLUSTER", ⟨11, 1⟩, .ro, 0, .any, false⟩,
    ⟨"MGT", ⟨10, 1⟩, .ro, 0, .any, false⟩,
    ⟨"PAIR", ⟨9, 1⟩, .ro, 0, .any, false⟩,
    ⟨"HOLD", ⟨8, 1⟩, .ro, 0, .any, false⟩,
    ⟨"ENV", ⟨7, 1⟩, .ro, 0, .any, false⟩,
    ⟨"BAY", ⟨6, 1⟩, .ro, 0, .any, false⟩,
    ⟨"DRIVE", ⟨5, 1⟩, .ro, 0, .any, false⟩,
    ⟨"RESYNC", ⟨4, 1⟩, .ro, 0, .any, false⟩,
    ⟨"POOL", ⟨3, 1⟩, .ro, 0, .any, false⟩,
    ⟨"CIPHER", ⟨2, 1⟩, .ro, 0, .any, false⟩,
    ⟨"PORT", ⟨1, 1⟩, .ro, 0, .any, false⟩,
    ⟨"FENCE", ⟨0, 1⟩, .ro, 0, .any, false⟩]⟩,
  ⟨"GLB_IRQ_CPL_LO", 0x00000084, [], [
    ⟨"PENDING", ⟨0, 32⟩, .ro, 0, .any, false⟩]⟩,
  ⟨"GLB_IRQ_CPL_HI", 0x00000088, [], [
    ⟨"PENDING", ⟨0, 32⟩, .ro, 0, .any, false⟩]⟩,
  ⟨"GLB_IRQ_EVT", 0x0000008C, [], [
    ⟨"BACKLOG", ⟨1, 1⟩, .ro, 0, .any, false⟩,
    ⟨"PENDING", ⟨0, 1⟩, .ro, 0, .any, false⟩]⟩]

def regsCrs0 : List RegDef := [
  ⟨"CRS_RESET_CAUSE", 0x00100000, [], [
    ⟨"CAUSE", ⟨28, 4⟩, .ro, 1, .any, false⟩,
    ⟨"PREV_CAUSE", ⟨24, 4⟩, .ro, 0, .any, false⟩,
    ⟨"FATAL_SRC", ⟨16, 8⟩, .ro, 0, .any, false⟩,
    ⟨"COUNT", ⟨0, 16⟩, .ro, 0, .any, false⟩]⟩,
  ⟨"CRS_CHIP_RESET", 0x00100004, [], [
    ⟨"KEY", ⟨16, 16⟩, .wo, 0, .any, false⟩,
    ⟨"GO", ⟨0, 1⟩, .wo, 0, .any, true⟩]⟩,
  ⟨"CRS_CLK_STATUS", 0x00100008, [], [
    ⟨"CORE_LOCK", ⟨31, 1⟩, .ro, 0, .any, false⟩,
    ⟨"MGT_LOCK", ⟨30, 1⟩, .ro, 0, .any, false⟩,
    ⟨"AUX_LOCK", ⟨29, 1⟩, .ro, 0, .any, false⟩,
    ⟨"AUX_FALLBACK", ⟨28, 1⟩, .ro, 0, .any, false⟩,
    ⟨"HBM_LOCK", ⟨24, 4⟩, .ro, 0, .any, false⟩,
    ⟨"PAIR_REF", ⟨20, 4⟩, .ro, 0, .any, false⟩,
    ⟨"PCIE_REF", ⟨12, 8⟩, .ro, 0, .any, false⟩,
    ⟨"NET_REF", ⟨8, 4⟩, .ro, 0, .any, false⟩,
    ⟨"CH_REF", ⟨7, 1⟩, .ro, 0, .any, false⟩,
    ⟨"SYS_REF", ⟨6, 1⟩, .ro, 0, .any, false⟩]⟩,
  ⟨"CRS_CLK_LOSS", 0x0010000C, [], [
    ⟨"MGT_RELOCKS", ⟨16, 16⟩, .rc, 0, .any, false⟩,
    ⟨"AUX_FALLBACKS", ⟨0, 16⟩, .rc, 0, .any, false⟩]⟩,
  ⟨"CRS_STATUS", 0x00100010, [], [
    ⟨"HBM_READY", ⟨31, 1⟩, .ro, 0, .any, false⟩,
    ⟨"MON_ARMED", ⟨30, 1⟩, .ro, 0, .any, false⟩,
    ⟨"SUPPLY_OK", ⟨0, 8⟩, .ro, 0, .any, false⟩]⟩,
  ⟨"CRS_XING", 0x00100014, [], [
    ⟨"ABANDONED_WR", ⟨16, 16⟩, .rc, 0, .any, false⟩,
    ⟨"ABANDONED_RD", ⟨0, 16⟩, .rc, 0, .any, false⟩]⟩,
  ⟨"CRS_CLU_CTL", 0x00100040, [(12, 0x4)], [
    ⟨"RETEST", ⟨0, 1⟩, .wo, 0, .any, true⟩]⟩,
  ⟨"CRS_CLU_STATUS", 0x00100080, [(12, 0x4)], [
    ⟨"STATE", ⟨28, 4⟩, .ro, 0, .any, false⟩,
    ⟨"FAIL_STEP", ⟨24, 4⟩, .ro, 0, .any, false⟩,
    ⟨"CHECKS", ⟨0, 16⟩, .ro, 0, .any, false⟩]⟩]

def regsItn0 : List RegDef := [
  ⟨"ITN_CTL", 0x00200000, [], [
    ⟨"SWAP", ⟨3, 1⟩, .wo, 0, .any, false⟩,
    ⟨"LOAD", ⟨2, 1⟩, .wo, 0, .any, false⟩,
    ⟨"BUF", ⟨1, 1⟩, .rwl, 0, .any, false⟩,
    ⟨"START", ⟨0, 1⟩, .rwl, 0, .itnStart, false⟩]⟩,
  ⟨"ITN_STATUS", 0x00200004, [], [
    ⟨"VARIANT", ⟨20, 5⟩, .ro, 0, .any, false⟩,
    ⟨"SWAP_PENDING", ⟨16, 2⟩, .ro, 0, .any, false⟩,
    ⟨"BUF_B_STATE", ⟨10, 2⟩, .ro, 0, .any, false⟩,
    ⟨"BUF_A_STATE", ⟨8, 2⟩, .ro, 0, .any, false⟩,
    ⟨"ACTIVE_BUF", ⟨1, 1⟩, .ro, 0, .any, false⟩,
    ⟨"RUNNING", ⟨0, 1⟩, .ro, 0, .any, false⟩]⟩,
  ⟨"ITN_LOAD_ADDR_LO", 0x00200008, [], [
    ⟨"ADDR_LO", ⟨12, 20⟩, .rwl, 0, .any, false⟩]⟩,
  ⟨"ITN_LOAD_ADDR_HI", 0x0020000C, [], [
    ⟨"ADDR_HI", ⟨0, 32⟩, .rwl, 0, .any, false⟩]⟩,
  ⟨"ITN_LOAD_SIZE", 0x00200010, [], [
    ⟨"SIZE", ⟨0, 26⟩, .rwl, 0, .any, false⟩]⟩,
  ⟨"ITN_LOAD_STATUS", 0x00200014, [], [
    ⟨"STATUS", ⟨0, 16⟩, .ro, 0, .any, false⟩]⟩,
  ⟨"ITN_TICK_LO", 0x00200018, [], [
    ⟨"TICK", ⟨0, 32⟩, .ro, 0, .any, false⟩]⟩,
  ⟨"ITN_TICK_HI", 0x0020001C, [], [
    ⟨"TICK", ⟨0, 32⟩, .ro, 0, .any, false⟩]⟩,
  ⟨"ITN_IMAGE_ID_LO", 0x00200020, [(2, 0x8)], [
    ⟨"IMAGE_ID", ⟨0, 32⟩, .ro, 0, .any, false⟩]⟩,
  ⟨"ITN_IMAGE_ID_HI", 0x00200024, [(2, 0x8)], [
    ⟨"IMAGE_ID", ⟨0, 32⟩, .ro, 0, .any, false⟩]⟩,
  ⟨"ITN_FENCE", 0x00200030, [], [
    ⟨"IDLED", ⟨16, 12⟩, .ro, 0, .any, false⟩,
    ⟨"FENCED", ⟨0, 12⟩, .ro, 0, .any, false⟩]⟩,
  ⟨"ITN_FAULT_CAUSE", 0x00200040, [(12, 0x4)], [
    ⟨"VALID", ⟨31, 1⟩, .w1c, 0, .any, false⟩,
    ⟨"CAUSE", ⟨16, 8⟩, .ro, 0, .any, false⟩,
    ⟨"ENGINE", ⟨0, 3⟩, .ro, 0, .any, false⟩]⟩]

def regsItn1 : List RegDef := [
  ⟨"ITN_OVERRUN_CNT", 0x00200070, [], [
    ⟨"COUNT", ⟨0, 32⟩, .rc, 0, .any, false⟩]⟩,
  ⟨"ITN_SUSPENDED", 0x00200074, [], [
    ⟨"COUNT", ⟨0, 19⟩, .ro, 0, .any, false⟩]⟩]

def regsRing0 : List RegDef := [
  ⟨"RING_CMD_BASE_LO", 0x00400000, [(64, 0x40)], [
    ⟨"BASE_LO", ⟨12, 20⟩, .rwl, 0, .any, false⟩]⟩,
  ⟨"RING_CMD_BASE_HI", 0x00400004, [(64, 0x40)], [
    ⟨"BASE_HI", ⟨0, 32⟩, .rwl, 0, .any, false⟩]⟩,
  ⟨"RING_CPL_BASE_LO", 0x00400008, [(64, 0x40)], [
    ⟨"BASE_LO", ⟨12, 20⟩, .rwl, 0, .any, false⟩]⟩,
  ⟨"RING_CPL_BASE_HI", 0x0040000C, [(64, 0x40)], [
    ⟨"BASE_HI", ⟨0, 32⟩, .rwl, 0, .any, false⟩]⟩,
  ⟨"RING_SIZE", 0x00400010, [(64, 0x40)], [
    ⟨"ENTRIES", ⟨0, 17⟩, .rwl, 0, .any, false⟩]⟩,
  ⟨"RING_CTL", 0x00400014, [(64, 0x40)], [
    ⟨"VECTOR", ⟨16, 11⟩, .rwl, 0, .any, false⟩,
    ⟨"IRQ_EN", ⟨1, 1⟩, .rw, 0, .any, true⟩,
    ⟨"ENABLE", ⟨0, 1⟩, .rwl, 0, .ownRow, false⟩]⟩,
  ⟨"RING_COAL", 0x00400018, [(64, 0x40)], [
    ⟨"TIME_US", ⟨16, 16⟩, .rw, 0, .any, true⟩,
    ⟨"COUNT", ⟨0, 16⟩, .rw, 1, .any, true⟩]⟩,
  ⟨"RING_STATUS", 0x0040001C, [(64, 0x40)], [
    ⟨"STATE", ⟨16, 2⟩, .ro, 0, .any, false⟩,
    ⟨"ERR_STATUS", ⟨0, 16⟩, .ro, 0, .any, false⟩]⟩,
  ⟨"RING_IDX", 0x00400020, [(64, 0x40)], [
    ⟨"CPL_TAIL", ⟨16, 16⟩, .ro, 0, .any, false⟩,
    ⟨"CMD_HEAD", ⟨0, 16⟩, .ro, 0, .any, false⟩]⟩,
  ⟨"RING_EVT_BASE_LO", 0x00401000, [], [
    ⟨"BASE_LO", ⟨12, 20⟩, .rwl, 0, .any, false⟩]⟩,
  ⟨"RING_EVT_BASE_HI", 0x00401004, [], [
    ⟨"BASE_HI", ⟨0, 32⟩, .rwl, 0, .any, false⟩]⟩,
  ⟨"RING_EVT_SIZE", 0x00401008, [], [
    ⟨"ENTRIES", ⟨0, 17⟩, .rwl, 0, .any, false⟩]⟩]

def regsRing1 : List RegDef := [
  ⟨"RING_EVT_CTL", 0x0040100C, [], [
    ⟨"VECTOR", ⟨16, 11⟩, .rwl, 0, .any, false⟩,
    ⟨"IRQ_EN", ⟨1, 1⟩, .rw, 0, .any, true⟩,
    ⟨"ENABLE", ⟨0, 1⟩, .rwl, 0, .ownRow, false⟩]⟩,
  ⟨"RING_EVT_COAL", 0x00401010, [], [
    ⟨"TIME_US", ⟨16, 16⟩, .rw, 0, .any, true⟩,
    ⟨"COUNT", ⟨0, 16⟩, .rw, 1, .any, true⟩]⟩,
  ⟨"RING_EVT_STATUS", 0x00401014, [], [
    ⟨"STATE", ⟨16, 2⟩, .ro, 0, .any, false⟩,
    ⟨"ERR_STATUS", ⟨0, 16⟩, .ro, 0, .any, false⟩]⟩,
  ⟨"RING_EVT_BACKLOG", 0x00401018, [], [
    ⟨"COUNT", ⟨0, 17⟩, .ro, 0, .any, false⟩]⟩,
  ⟨"RING_EVT_LOST", 0x0040101C, [], [
    ⟨"COUNT", ⟨0, 32⟩, .rc, 0, .any, false⟩]⟩,
  ⟨"RING_EVT_IDX", 0x00401020, [], [
    ⟨"TAIL", ⟨0, 16⟩, .ro, 0, .any, false⟩]⟩]

def regsMac0 : List RegDef := [
  ⟨"MAC_CTL", 0x00800000, [(16, 0x100)], [
    ⟨"LT_EN", ⟨11, 1⟩, .rwl, 1, (.macDown 1), false⟩,
    ⟨"AN_EN", ⟨10, 1⟩, .rwl, 1, (.macDown 1), false⟩,
    ⟨"PMD", ⟨8, 2⟩, .rwl, 0, (.macDown 2), false⟩,
    ⟨"BREAKOUT", ⟨4, 3⟩, .rwl, 0, (.macDown 3), false⟩,
    ⟨"RESET", ⟨1, 1⟩, .wo, 0, .any, true⟩,
    ⟨"ENABLE", ⟨0, 1⟩, .rw, 0, .ownRow, true⟩]⟩,
  ⟨"MAC_STATUS", 0x00800004, [(16, 0x100)], [
    ⟨"LOST", ⟨31, 1⟩, .ro, 0, .any, false⟩,
    ⟨"CDR_LOCK", ⟨16, 8⟩, .ro, 0, .any, false⟩,
    ⟨"CAL_OK", ⟨8, 8⟩, .ro, 0, .any, false⟩,
    ⟨"LOST_CAUSE", ⟨0, 4⟩, .ro, 0, .any, false⟩]⟩,
  ⟨"MAC_LANE_POL", 0x00800008, [(16, 0x100)], [
    ⟨"TX_INV", ⟨8, 8⟩, .rwl, 0, .any, false⟩,
    ⟨"RX_INV", ⟨0, 8⟩, .rwl, 0, .any, false⟩]⟩,
  ⟨"MAC_TS_LAT", 0x0080000C, [(16, 0x100)], [
    ⟨"TX_PS", ⟨16, 16⟩, .rwl, 0, .any, false⟩,
    ⟨"RX_PS", ⟨0, 16⟩, .rwl, 0, .any, false⟩]⟩,
  ⟨"MAC_LP_CFG", 0x00801000, [(128, 0x40)], [
    ⟨"VLAN_MODE", ⟨30, 2⟩, .rwl, 0, (.range 0 2), false⟩,
    ⟨"PFC_EN", ⟨16, 8⟩, .rwl, 0, .pfcEn, false⟩,
    ⟨"MAX_FRAME", ⟨0, 14⟩, .rwl, 9216, (.range 1518 9216), false⟩]⟩,
  ⟨"MAC_LP_TIMERS", 0x00801004, [(128, 0x40)], [
    ⟨"UP_HOLD", ⟨24, 8⟩, .rwl, 10, .any, false⟩,
    ⟨"DOWN_HOLD", ⟨16, 8⟩, .rwl, 0, .any, false⟩,
    ⟨"QUANTA", ⟨0, 16⟩, .rwl, 65535, .any, false⟩]⟩,
  ⟨"MAC_LP_STATUS", 0x00801008, [(128, 0x40)], [
    ⟨"PAUSED", ⟨24, 8⟩, .ro, 0, .any, false⟩,
    ⟨"XOFF_SENT", ⟨16, 8⟩, .ro, 0, .any, false⟩,
    ⟨"LOSS_CNT", ⟨8, 8⟩, .rc, 0, .any, false⟩,
    ⟨"RATE", ⟨4, 4⟩, .ro, 0, .any, false⟩,
    ⟨"FEC_DEGRADED", ⟨3, 1⟩, .ro, 0, .any, false⟩,
    ⟨"FEC_LOCK", ⟨2, 1⟩, .ro, 0, .any, false⟩,
    ⟨"ALIGN_LOCK", ⟨1, 1⟩, .ro, 0, .any, false⟩,
    ⟨"LINK_UP", ⟨0, 1⟩, .ro, 0, .any, false⟩]⟩,
  ⟨"MAC_LP_FEC_CORR", 0x0080100C, [(128, 0x40)], [
    ⟨"COUNT", ⟨0, 32⟩, .rc, 0, .any, false⟩]⟩,
  ⟨"MAC_LP_FEC_UNCORR", 0x00801010, [(128, 0x40)], [
    ⟨"COUNT", ⟨0, 32⟩, .rc, 0, .any, false⟩]⟩,
  ⟨"MAC_LP_FEC_THR", 0x00801014, [(128, 0x40)], [
    ⟨"THR", ⟨0, 16⟩, .rw, 16, .any, true⟩]⟩,
  ⟨"MAC_PTP_CTL", 0x00804000, [], [
    ⟨"DISCIPLINE_EN", ⟨31, 1⟩, .rw, 0, .any, true⟩,
    ⟨"ENABLE", ⟨30, 1⟩, .rwl, 0, .any, false⟩,
    ⟨"SRC", ⟨16, 8⟩, .rwl, 255, .ptpPort, false⟩,
    ⟨"BACKUP", ⟨8, 8⟩, .rwl, 255, .ptpPort, false⟩,
    ⟨"DOMAIN", ⟨0, 8⟩, .rwl, 0, .any, false⟩]⟩,
  ⟨"MAC_PTP_STATUS", 0x00804004, [], [
    ⟨"CUR_SRC", ⟨16, 8⟩, .ro, 255, .any, false⟩,
    ⟨"STATE", ⟨0, 3⟩, .ro, 0, .any, false⟩]⟩]

def regsMac1 : List RegDef := [
  ⟨"MAC_PTP_OFFSET", 0x00804008, [], [
    ⟨"OFFSET", ⟨0, 32⟩, .ro, 0, .any, false⟩]⟩,
  ⟨"MAC_PTP_SEAM_NS", 0x0080400C, [], [
    ⟨"NS", ⟨0, 30⟩, .ro, 0, .any, false⟩]⟩,
  ⟨"MAC_PTP_SEAM_SEC_LO", 0x00804010, [], [
    ⟨"SEC_LO", ⟨0, 32⟩, .ro, 0, .any, false⟩]⟩,
  ⟨"MAC_PTP_SEAM_SEC_HI", 0x00804014, [], [
    ⟨"SEC_HI", ⟨0, 16⟩, .ro, 0, .any, false⟩]⟩,
  ⟨"MAC_PTP_TRIM", 0x00804018, [], [
    ⟨"TRIM", ⟨0, 32⟩, .ro, 0, .any, false⟩]⟩]

def regsRdm0 : List RegDef := [
  ⟨"RDM_CFG", 0x00A00000, [], [
    ⟨"MAX_UNACKED", ⟨20, 8⟩, .rwl, 64, .any, false⟩,
    ⟨"IRD", ⟨8, 5⟩, .rwl, 16, (.range 1 16), false⟩,
    ⟨"MAX_ORD", ⟨3, 5⟩, .rwl, 16, (.range 1 16), false⟩,
    ⟨"NP_EN", ⟨2, 1⟩, .rwl, 1, .any, false⟩,
    ⟨"CC_EN", ⟨1, 1⟩, .rwl, 1, .any, false⟩]⟩,
  ⟨"RDM_RETRY", 0x00A00004, [], [
    ⟨"ACK_TO", ⟨16, 5⟩, .rwl, 8, (.range 0 20), false⟩,
    ⟨"RNR_RETRY", ⟨8, 3⟩, .rwl, 7, .any, false⟩,
    ⟨"RETRY_CNT", ⟨0, 3⟩, .rwl, 7, .any, false⟩]⟩,
  ⟨"RDM_CM_CFG", 0x00A00008, [], [
    ⟨"TIMEWAIT", ⟨16, 16⟩, .rwl, 256, .any, false⟩,
    ⟨"MAX_PENDING", ⟨0, 12⟩, .rwl, 4095, .any, false⟩]⟩,
  ⟨"RDM_CM_PORT", 0x00A0000C, [], [
    ⟨"PORT", ⟨0, 16⟩, .rwl, 4420, .any, false⟩]⟩,
  ⟨"RDM_CC_SEL", 0x00A00010, [], [
    ⟨"PROF", ⟨0, 24⟩, .rwl, 0, .any, false⟩]⟩,
  ⟨"RDM_QP_COUNT", 0x00A00014, [], [
    ⟨"LIVE", ⟨0, 21⟩, .ro, 0, .any, false⟩]⟩,
  ⟨"RDM_CACHE_RES", 0x00A00018, [], [
    ⟨"RESIDENT", ⟨0, 17⟩, .ro, 0, .any, false⟩]⟩,
  ⟨"RDM_CACHE_PIN", 0x00A0001C, [], [
    ⟨"READ_PINS", ⟨16, 16⟩, .ro, 0, .any, false⟩,
    ⟨"PEN_PINS", ⟨0, 16⟩, .ro, 0, .any, false⟩]⟩,
  ⟨"RDM_PEN_STATUS", 0x00A00020, [], [
    ⟨"HIGH", ⟨16, 16⟩, .rc, 0, .any, false⟩,
    ⟨"CELLS", ⟨0, 16⟩, .ro, 0, .any, false⟩]⟩,
  ⟨"RDM_PEN_DROP", 0x00A00024, [], [
    ⟨"COUNT", ⟨0, 32⟩, .rc, 0, .any, false⟩]⟩,
  ⟨"RDM_FETCH_DROP", 0x00A00028, [], [
    ⟨"COUNT", ⟨0, 32⟩, .rc, 0, .any, false⟩]⟩,
  ⟨"RDM_CNT", 0x00A00040, [(16, 0x4)], [
    ⟨"COUNT", ⟨0, 32⟩, .rc, 0, .any, false⟩]⟩]

def regsRdm1 : List RegDef := [
  ⟨"RDM_CC_RATE", 0x00A00100, [(8, 0x20)], [
    ⟨"AI", ⟨16, 16⟩, .rwl, 50, .any, false⟩,
    ⟨"RATE_MIN", ⟨0, 16⟩, .rwl, 100, .any, false⟩]⟩,
  ⟨"RDM_CC_DELAY", 0x00A00104, [(8, 0x20)], [
    ⟨"Q_TARGET", ⟨16, 16⟩, .rwl, 4000, .any, false⟩,
    ⟨"CNP_HOLD", ⟨8, 8⟩, .rwl, 50, .any, false⟩,
    ⟨"AI_MAX_MULT", ⟨4, 4⟩, .rwl, 8, .any, false⟩,
    ⟨"ALPHA_SHIFT", ⟨0, 4⟩, .rwl, 3, (.range 1 8), false⟩]⟩,
  ⟨"RDM_CC_GAIN", 0x00A00108, [(8, 0x20)], [
    ⟨"KP", ⟨24, 8⟩, .rwl, 64, .any, false⟩,
    ⟨"KD", ⟨16, 8⟩, .rwl, 128, .any, false⟩,
    ⟨"F_MAX", ⟨8, 8⟩, .rwl, 128, .any, false⟩,
    ⟨"CNP_CUT", ⟨0, 8⟩, .rwl, 64, .any, false⟩]⟩,
  ⟨"RDM_CC_TIME", 0x00A0010C, [(8, 0x20)], [
    ⟨"BASE_WIN", ⟨16, 16⟩, .rwl, 256, .any, false⟩,
    ⟨"CNP_INTERVAL", ⟨8, 8⟩, .rwl, 50, .any, false⟩,
    ⟨"UPDATE_MIN", ⟨0, 4⟩, .rwl, 2, .any, false⟩]⟩,
  ⟨"RDM_CC_BURST", 0x00A00110, [(8, 0x20)], [
    ⟨"BURST", ⟨0, 20⟩, .rwl, 65536, (.range 8192 1048575), false⟩]⟩,
  ⟨"RDM_QP_SEL", 0x00A00200, [], [
    ⟨"QPN", ⟨0, 24⟩, .rw, 0, .any, true⟩]⟩,
  ⟨"RDM_QP_INFO0", 0x00A00204, [], [
    ⟨"VALID", ⟨31, 1⟩, .ro, 0, .any, false⟩,
    ⟨"RESIDENT", ⟨30, 1⟩, .ro, 0, .any, false⟩,
    ⟨"STATE", ⟨24, 4⟩, .ro, 0, .any, false⟩,
    ⟨"CAUSE", ⟨16, 8⟩, .ro, 0, .any, false⟩,
    ⟨"HOST", ⟨0, 16⟩, .ro, 0, .any, false⟩]⟩,
  ⟨"RDM_QP_INFO1", 0x00A00208, [], [
    ⟨"EPSN", ⟨0, 24⟩, .ro, 0, .any, false⟩]⟩,
  ⟨"RDM_QP_INFO2", 0x00A0020C, [], [
    ⟨"READS_OUT", ⟨24, 8⟩, .ro, 0, .any, false⟩,
    ⟨"UNA_PSN", ⟨0, 24⟩, .ro, 0, .any, false⟩]⟩,
  ⟨"RDM_QP_INFO3", 0x00A00210, [], [
    ⟨"RATE", ⟨0, 32⟩, .ro, 0, .any, false⟩]⟩]

def regsSwc0 : List RegDef := [
  ⟨"SWC_SERAI_CFG", 0x00C00000, [], [
    ⟨"CONVOY_CELLS", ⟨0, 17⟩, .rwl, 32768, .convoyCells, false⟩]⟩,
  ⟨"SWC_HOLD_CFG", 0x00C00004, [], [
    ⟨"HOLD_RESERVE", ⟨0, 18⟩, .rwl, 65536, .holdReserve, false⟩]⟩,
  ⟨"SWC_SHARED_CFG", 0x00C00008, [], [
    ⟨"XOFF_FREE", ⟨16, 16⟩, .rwl, 16384, .any, false⟩,
    ⟨"ECN_FREE", ⟨0, 16⟩, .rwl, 32768, .any, false⟩]⟩,
  ⟨"SWC_STATUS", 0x00C0000C, [], [
    ⟨"CFG_REFUSED", ⟨31, 1⟩, .w1c, 0, .any, false⟩,
    ⟨"SHARED_CELLS", ⟨0, 19⟩, .ro, 204800, .any, false⟩]⟩,
  ⟨"SWC_OCC_SHARED", 0x00C00010, [], [
    ⟨"FREE", ⟨0, 19⟩, .ro, 204800, .any, false⟩]⟩,
  ⟨"SWC_OCC_HOLD", 0x00C00014, [], [
    ⟨"CELLS", ⟨0, 19⟩, .ro, 0, .any, false⟩]⟩,
  ⟨"SWC_OCC_CONVOY", 0x00C00018, [], [
    ⟨"FREE", ⟨0, 17⟩, .ro, 32768, .any, false⟩]⟩,
  ⟨"SWC_OCC_MGT", 0x00C0001C, [], [
    ⟨"CELLS", ⟨0, 14⟩, .ro, 0, .any, false⟩]⟩,
  ⟨"SWC_L2_CFG", 0x00C00020, [], [
    ⟨"LEARN_EN", ⟨31, 1⟩, .rwl, 1, .any, false⟩,
    ⟨"AGE_S", ⟨0, 16⟩, .rwl, 300, .any, false⟩]⟩,
  ⟨"SWC_MAC_COUNT", 0x00C00024, [], [
    ⟨"STATIC", ⟨16, 7⟩, .ro, 0, .any, false⟩,
    ⟨"LEARNED", ⟨0, 16⟩, .ro, 0, .any, false⟩]⟩,
  ⟨"SWC_CNT", 0x00C00100, [(16, 0x4)], [
    ⟨"COUNT", ⟨0, 32⟩, .rc, 0, .any, false⟩]⟩,
  ⟨"SWC_PQ_BUF", 0x00C01000, [(128, 0x100), (8, 0x20)], [
    ⟨"HEADROOM", ⟨16, 12⟩, .rwl, 0, .swcPq, false⟩,
    ⟨"MIN", ⟨0, 12⟩, .rwl, 16, .swcPq, false⟩]⟩]

def regsSwc1 : List RegDef := [
  ⟨"SWC_PQ_PFC", 0x00C01004, [(128, 0x100), (8, 0x20)], [
    ⟨"XOFF_THR", ⟨16, 16⟩, .rwl, 2048, .swcPq, false⟩,
    ⟨"XON_THR", ⟨0, 16⟩, .rwl, 1024, .xonThr, false⟩]⟩,
  ⟨"SWC_PQ_LIM", 0x00C01008, [(128, 0x100), (8, 0x20)], [
    ⟨"ECN_IN_THR", ⟨16, 16⟩, .rwl, 512, .any, false⟩,
    ⟨"LIMIT", ⟨0, 16⟩, .rwl, 16384, .any, false⟩]⟩,
  ⟨"SWC_PQ_ECN", 0x00C0100C, [(128, 0x100), (8, 0x20)], [
    ⟨"ECN_OUT_THR", ⟨0, 16⟩, .rw, 512, .any, true⟩]⟩,
  ⟨"SWC_PQ_OCC", 0x00C01010, [(128, 0x100), (8, 0x20)], [
    ⟨"EGRESS", ⟨16, 16⟩, .ro, 0, .any, false⟩,
    ⟨"INGRESS", ⟨0, 16⟩, .ro, 0, .any, false⟩]⟩,
  ⟨"SWC_PQ_DROP", 0x00C01014, [(128, 0x100), (8, 0x20)], [
    ⟨"COUNT", ⟨0, 32⟩, .rc, 0, .any, false⟩]⟩,
  ⟨"SWC_LP_CFG", 0x00C09000, [(128, 0x4)], [
    ⟨"LEARN_EN", ⟨1, 1⟩, .rwl, 0, .any, false⟩,
    ⟨"FWD_EN", ⟨0, 1⟩, .rwl, 0, .any, false⟩]⟩,
  ⟨"SWC_MAC_ST_LO", 0x00C0A000, [(64, 0x10)], [
    ⟨"MAC_LO", ⟨0, 32⟩, .rwl, 0, .any, false⟩]⟩,
  ⟨"SWC_MAC_ST_HI", 0x00C0A004, [(64, 0x10)], [
    ⟨"VALID", ⟨31, 1⟩, .rwl, 0, .any, false⟩,
    ⟨"VLAN", ⟨16, 12⟩, .rwl, 0, .any, false⟩,
    ⟨"MAC_HI", ⟨0, 16⟩, .rwl, 0, .any, false⟩]⟩,
  ⟨"SWC_MAC_ST_PORT", 0x00C0A008, [(64, 0x10)], [
    ⟨"LPORT", ⟨0, 7⟩, .rwl, 0, .any, false⟩]⟩]

def regsTmg0 : List RegDef := [
  ⟨"TMG_CFG", 0x00D00000, [], [
    ⟨"DEFER_DEPTH", ⟨0, 9⟩, .rwl, 64, (.range 1 256), false⟩]⟩,
  ⟨"TMG_DEFER_CELLS", 0x00D00004, [], [
    ⟨"LIMIT", ⟨0, 18⟩, .rwl, 16384, (.range 0 131072), false⟩]⟩,
  ⟨"TMG_STATUS", 0x00D00008, [], [
    ⟨"TREE_ERR", ⟨31, 1⟩, .w1c, 0, .any, false⟩,
    ⟨"TREE_NODE", ⟨0, 10⟩, .ro, 0, .any, false⟩]⟩,
  ⟨"TMG_DEFER_OCC", 0x00D0000C, [], [
    ⟨"CELLS", ⟨0, 18⟩, .ro, 0, .any, false⟩]⟩,
  ⟨"TMG_PRECOLOUR", 0x00D00010, [(4, 0x4)], [
    ⟨"COLOUR", ⟨0, 32⟩, .rwl, 0, .any, false⟩]⟩,
  ⟨"TMG_CNT", 0x00D00040, [(8, 0x4)], [
    ⟨"COUNT", ⟨0, 32⟩, .rc, 0, .any, false⟩]⟩,
  ⟨"TMG_CHAN_SEL", 0x00D00080, [], [
    ⟨"HANDLE", ⟨0, 32⟩, .rw, 0, .any, true⟩]⟩,
  ⟨"TMG_CHAN_INFO0", 0x00D00084, [], [
    ⟨"VALID", ⟨31, 1⟩, .ro, 0, .any, false⟩,
    ⟨"ALG", ⟨24, 2⟩, .ro, 0, .any, false⟩,
    ⟨"DEFERRED", ⟨0, 9⟩, .ro, 0, .any, false⟩]⟩,
  ⟨"TMG_CHAN_INFO1", 0x00D00088, [], [
    ⟨"TC", ⟨0, 32⟩, .ro, 0, .any, false⟩]⟩,
  ⟨"TMG_CHAN_INFO2", 0x00D0008C, [], [
    ⟨"TPE", ⟨0, 32⟩, .ro, 0, .any, false⟩]⟩,
  ⟨"TMG_CHAN_INFO3", 0x00D00090, [], [
    ⟨"LAST", ⟨0, 2⟩, .ro, 0, .any, false⟩]⟩,
  ⟨"TMG_PRIO_CFG", 0x00D01000, [(128, 0x40), (8, 0x8)], [
    ⟨"LEVEL", ⟨29, 3⟩, .rwl, 0, .any, false⟩,
    ⟨"CTL_RANK", ⟨20, 4⟩, .rwl, 15, .any, false⟩,
    ⟨"MGT_RANK", ⟨16, 4⟩, .rwl, 14, .any, false⟩,
    ⟨"PRIO_WEIGHT", ⟨0, 16⟩, .rwl, 1, .any, false⟩]⟩]

def regsTmg1 : List RegDef := [
  ⟨"TMG_PRIO_FWD", 0x00D01004, [(128, 0x40), (8, 0x8)], [
    ⟨"FWD_WEIGHT", ⟨0, 16⟩, .rwl, 1, .any, false⟩]⟩,
  ⟨"TMG_PORT_CFG", 0x00D03000, [(128, 0x10)], [
    ⟨"OVERHEAD", ⟨0, 8⟩, .rwl, 20, .overhead, false⟩]⟩,
  ⟨"TMG_PORT_RATE", 0x00D03004, [(128, 0x10)], [
    ⟨"RATE", ⟨0, 17⟩, .rwl, 0, (.range 0 100000), false⟩]⟩,
  ⟨"TMG_PORT_BURST", 0x00D03008, [(128, 0x10)], [
    ⟨"BURST", ⟨0, 24⟩, .rwl, 65536, (.range 9343 16777215), false⟩]⟩,
  ⟨"TMG_NODE_CFG", 0x00D08000, [(1024, 0x10)], [
    ⟨"VALID", ⟨31, 1⟩, .rwl, 0, .any, false⟩,
    ⟨"ROOT", ⟨30, 1⟩, .rwl, 0, .any, false⟩,
    ⟨"STRICT", ⟨29, 1⟩, .rwl, 0, .any, false⟩,
    ⟨"PRIO", ⟨24, 3⟩, .rwl, 0, .any, false⟩,
    ⟨"RANK", ⟨20, 4⟩, .rwl, 0, .any, false⟩,
    ⟨"PARENT", ⟨0, 10⟩, .rwl, 0, .any, false⟩]⟩,
  ⟨"TMG_NODE_WEIGHT", 0x00D08004, [(1024, 0x10)], [
    ⟨"WEIGHT", ⟨0, 16⟩, .rwl, 1, .any, false⟩]⟩,
  ⟨"TMG_NODE_RATE", 0x00D08008, [(1024, 0x10)], [
    ⟨"RATE", ⟨0, 17⟩, .rwl, 0, (.range 0 100000), false⟩]⟩,
  ⟨"TMG_NODE_BURST", 0x00D0800C, [(1024, 0x10)], [
    ⟨"BURST", ⟨0, 24⟩, .rwl, 65536, (.range 9343 16777215), false⟩]⟩]

def regsCmd0 : List RegDef := [
  ⟨"CMD_CFG", 0x00E00000, [], [
    ⟨"MAX_IOQ", ⟨16, 8⟩, .rwl, 128, (.range 1 128), false⟩,
    ⟨"MQES", ⟨0, 10⟩, .rwl, 1023, .any, false⟩]⟩,
  ⟨"CMD_KATO", 0x00E00004, [], [
    ⟨"MAX", ⟨0, 16⟩, .rwl, 36000, (.range 10 65535), false⟩]⟩,
  ⟨"CMD_SUBNQN", 0x00E00100, [(16, 0x4)], [
    ⟨"CHARS", ⟨0, 32⟩, .rwl, 0, .any, false⟩]⟩,
  ⟨"CMD_SERIAL", 0x00E00140, [(5, 0x4)], [
    ⟨"CHARS", ⟨0, 32⟩, .rwl, 0, .any, false⟩]⟩,
  ⟨"CMD_WB_USE", 0x00E00200, [], [
    ⟨"USED", ⟨0, 19⟩, .ro, 0, .any, false⟩]⟩,
  ⟨"CMD_LOCK_USE", 0x00E00204, [], [
    ⟨"USED", ⟨0, 17⟩, .ro, 0, .any, false⟩]⟩,
  ⟨"CMD_CTRL_USE", 0x00E00208, [], [
    ⟨"CONTROLLERS", ⟨0, 16⟩, .ro, 0, .any, false⟩]⟩,
  ⟨"CMD_CNT", 0x00E00240, [(16, 0x4)], [
    ⟨"COUNT", ⟨0, 32⟩, .rc, 0, .any, false⟩]⟩]

def regsLay0 : List RegDef := [
  ⟨"LAY_CACHE_CFG", 0x01000000, [], [
    ⟨"DESTAGE_THR", ⟨24, 8⟩, .rwl, 50, (.range 1 100), false⟩,
    ⟨"DIRTY_GIB", ⟨0, 7⟩, .rwl, 16, (.range 1 64), false⟩]⟩,
  ⟨"LAY_CACHE_HOLD", 0x01000004, [], [
    ⟨"HOLD_TICKS", ⟨0, 16⟩, .rw, 977, .any, true⟩]⟩,
  ⟨"LAY_DUMP_CFG", 0x01000008, [], [
    ⟨"DUMP_GIB", ⟨0, 4⟩, .rwl, 2, (.range 1 8), false⟩]⟩,
  ⟨"LAY_DIRTY_EFF", 0x0100000C, [], [
    ⟨"LINES", ⟨0, 25⟩, .ro, 0, .any, false⟩]⟩,
  ⟨"LAY_DIRTY_LINES", 0x01000010, [], [
    ⟨"LINES", ⟨0, 25⟩, .ro, 0, .any, false⟩]⟩,
  ⟨"LAY_CLEAN_LINES", 0x01000014, [], [
    ⟨"LINES", ⟨0, 25⟩, .ro, 0, .any, false⟩]⟩,
  ⟨"LAY_JOURNAL_USE", 0x01000018, [], [
    ⟨"SLOTS", ⟨0, 21⟩, .ro, 0, .any, false⟩]⟩,
  ⟨"LAY_STATUS", 0x0100001C, [], [
    ⟨"FD_SINGLE", ⟨31, 1⟩, .w1c, 0, .any, false⟩,
    ⟨"START", ⟨0, 2⟩, .ro, 0, .any, false⟩]⟩,
  ⟨"LAY_CNT", 0x01000040, [(16, 0x4)], [
    ⟨"COUNT", ⟨0, 32⟩, .rc, 0, .any, false⟩]⟩,
  ⟨"LAY_BAY_FD", 0x01000100, [(128, 0x4)], [
    ⟨"DOMAIN", ⟨0, 4⟩, .rwl, 0, .any, false⟩]⟩,
  ⟨"LAY_POOL_GEOM", 0x01000400, [(16, 0x20)], [
    ⟨"LAYOUT", ⟨31, 1⟩, .ro, 0, .any, false⟩,
    ⟨"G", ⟨24, 6⟩, .ro, 0, .any, false⟩,
    ⟨"N", ⟨16, 8⟩, .ro, 0, .any, false⟩,
    ⟨"K", ⟨11, 5⟩, .ro, 0, .any, false⟩,
    ⟨"SPARE", ⟨8, 3⟩, .ro, 0, .any, false⟩,
    ⟨"STRIP_SHIFT", ⟨0, 5⟩, .ro, 0, .any, false⟩]⟩,
  ⟨"LAY_POOL_STATUS", 0x01000404, [(16, 0x20)], [
    ⟨"MISSING", ⟨16, 8⟩, .ro, 0, .any, false⟩,
    ⟨"RESYNC", ⟨3, 1⟩, .ro, 0, .any, false⟩,
    ⟨"STATE", ⟨0, 3⟩, .ro, 0, .any, false⟩]⟩]

def regsLay1 : List RegDef := [
  ⟨"LAY_POOL_FRAMES_LO", 0x01000408, [(16, 0x20)], [
    ⟨"FRAMES", ⟨0, 32⟩, .ro, 0, .any, false⟩]⟩,
  ⟨"LAY_POOL_FRAMES_HI", 0x0100040C, [(16, 0x20)], [
    ⟨"FRAMES", ⟨0, 32⟩, .ro, 0, .any, false⟩]⟩,
  ⟨"LAY_POOL_SLABS", 0x01000410, [(16, 0x20)], [
    ⟨"TOTAL", ⟨0, 32⟩, .ro, 0, .any, false⟩]⟩,
  ⟨"LAY_POOL_FREE", 0x01000414, [(16, 0x20)], [
    ⟨"FREE", ⟨0, 32⟩, .ro, 0, .any, false⟩]⟩,
  ⟨"LAY_POOL_RESYNC", 0x01000418, [(16, 0x20)], [
    ⟨"LEFT", ⟨0, 32⟩, .ro, 0, .any, false⟩]⟩,
  ⟨"LAY_VOL_SEL", 0x01000600, [], [
    ⟨"VOLUME", ⟨0, 16⟩, .rw, 0, .any, true⟩]⟩,
  ⟨"LAY_VOL_INFO0", 0x01000604, [], [
    ⟨"VALID", ⟨31, 1⟩, .ro, 0, .any, false⟩,
    ⟨"STATE", ⟨24, 2⟩, .ro, 0, .any, false⟩,
    ⟨"POOL", ⟨16, 4⟩, .ro, 0, .any, false⟩,
    ⟨"LBAF", ⟨8, 3⟩, .ro, 0, .any, false⟩,
    ⟨"DIRTY_LOST", ⟨0, 1⟩, .ro, 0, .any, false⟩]⟩,
  ⟨"LAY_VOL_INFO1", 0x01000608, [], [
    ⟨"DIRTY", ⟨0, 32⟩, .ro, 0, .any, false⟩]⟩,
  ⟨"LAY_VOL_INFO2", 0x0100060C, [], [
    ⟨"SLABS", ⟨0, 32⟩, .ro, 0, .any, false⟩]⟩,
  ⟨"LAY_VOL_INFO3", 0x01000610, [], [
    ⟨"INIT_LEFT", ⟨0, 32⟩, .ro, 0, .any, false⟩]⟩,
  ⟨"LAY_MNT_CFG", 0x01000800, [(16, 0x20)], [
    ⟨"CKPT_KFRAMES", ⟨24, 8⟩, .rw, 16, .any, true⟩,
    ⟨"REBUILD_MODE", ⟨16, 1⟩, .rw, 0, .any, true⟩,
    ⟨"INFLIGHT", ⟨0, 11⟩, .rw, 256, (.range 1 1024), true⟩]⟩,
  ⟨"LAY_MNT_RATE", 0x01000804, [(16, 0x20)], [
    ⟨"REBUILD_MBPS", ⟨0, 16⟩, .rw, 32000, .any, true⟩]⟩]

def regsLay2 : List RegDef := [
  ⟨"LAY_MNT_RATE2", 0x01000808, [(16, 0x20)], [
    ⟨"SANITIZE_MBPS", ⟨16, 16⟩, .rw, 4000, .any, true⟩,
    ⟨"SCRUB_MBPS", ⟨0, 16⟩, .rw, 2000, .any, true⟩]⟩,
  ⟨"LAY_MNT_LOAD", 0x0100080C, [(16, 0x20)], [
    ⟨"MIN_PCT", ⟨24, 8⟩, .rw, 20, (.range 1 100), true⟩,
    ⟨"HOST_REF", ⟨0, 16⟩, .rw, 3000, .any, true⟩]⟩,
  ⟨"LAY_MNT_STATUS", 0x01000810, [(16, 0x20)], [
    ⟨"LOAD", ⟨16, 9⟩, .ro, 0, .any, false⟩,
    ⟨"QUEUED", ⟨8, 5⟩, .ro, 0, .any, false⟩,
    ⟨"HELD", ⟨7, 1⟩, .ro, 0, .any, false⟩,
    ⟨"PASSES", ⟨5, 2⟩, .ro, 0, .any, false⟩,
    ⟨"RUNNING", ⟨0, 3⟩, .ro, 0, .any, false⟩]⟩,
  ⟨"LAY_MNT_PASS", 0x01000814, [(16, 0x20), (2, 0x4)], [
    ⟨"ACTIVE", ⟨31, 1⟩, .ro, 0, .any, false⟩,
    ⟨"COPYBACK", ⟨30, 1⟩, .ro, 0, .any, false⟩,
    ⟨"DONE_KFRAMES", ⟨0, 28⟩, .ro, 0, .any, false⟩]⟩,
  ⟨"LAY_LOST_USE", 0x0100081C, [(16, 0x20)], [
    ⟨"OVERFLOW", ⟨31, 1⟩, .w1c, 0, .any, false⟩,
    ⟨"ENTRIES", ⟨0, 15⟩, .ro, 0, .any, false⟩]⟩,
  ⟨"LAY_MNT_CNT", 0x01000A00, [(8, 0x4)], [
    ⟨"COUNT", ⟨0, 32⟩, .rc, 0, .any, false⟩]⟩]

def regsCip0 : List RegDef := [
  ⟨"CIP_CFG", 0x01200000, [], [
    ⟨"TAMPER_EN", ⟨0, 1⟩, .rwl, 1, .any, false⟩]⟩,
  ⟨"CIP_STATUS", 0x01200004, [], [
    ⟨"ZEROISED", ⟨31, 1⟩, .ro, 0, .any, false⟩,
    ⟨"HALT", ⟨30, 1⟩, .ro, 0, .any, false⟩,
    ⟨"LOADED", ⟨0, 17⟩, .ro, 0, .any, false⟩]⟩,
  ⟨"CIP_ALARM", 0x01200008, [], [
    ⟨"ARRAY", ⟨16, 12⟩, .w1c, 0, .ownRow, false⟩,
    ⟨"RNG", ⟨5, 1⟩, .w1c, 0, .ownRow, false⟩,
    ⟨"KEYSTORE", ⟨4, 1⟩, .w1c, 0, .ownRow, false⟩,
    ⟨"TEMP", ⟨3, 1⟩, .w1c, 0, .ownRow, false⟩,
    ⟨"CLOCK", ⟨2, 1⟩, .w1c, 0, .ownRow, false⟩,
    ⟨"SUPPLY", ⟨1, 1⟩, .w1c, 0, .ownRow, false⟩,
    ⟨"TAMPER", ⟨0, 1⟩, .w1c, 0, .ownRow, true⟩]⟩,
  ⟨"CIP_KEK", 0x0120000C, [], [
    ⟨"LOADED", ⟨0, 16⟩, .ro, 0, .any, false⟩]⟩,
  ⟨"CIP_KEY_SEL", 0x01200010, [], [
    ⟨"SLOT", ⟨0, 16⟩, .rw, 0, .any, true⟩]⟩,
  ⟨"CIP_KEY_INFO0", 0x01200014, [], [
    ⟨"VALID", ⟨31, 1⟩, .ro, 0, .any, false⟩,
    ⟨"LOADED", ⟨30, 1⟩, .ro, 0, .any, false⟩,
    ⟨"VOLUMES", ⟨0, 17⟩, .ro, 0, .any, false⟩]⟩,
  ⟨"CIP_KEY_INFO1", 0x01200018, [], [
    ⟨"KCV", ⟨0, 32⟩, .ro, 0, .any, false⟩]⟩,
  ⟨"CIP_ARRAY_PASS", 0x01200040, [(12, 0x4)], [
    ⟨"HIGH", ⟨0, 8⟩, .rc, 0, .any, false⟩]⟩,
  ⟨"CIP_CNT", 0x01200080, [(8, 0x4)], [
    ⟨"COUNT", ⟨0, 32⟩, .rc, 0, .any, false⟩]⟩]

def regsChk0 : List RegDef := [
  ⟨"CHK_CNT", 0x01300000, [(8, 0x4)], [
    ⟨"COUNT", ⟨0, 32⟩, .rc, 0, .any, false⟩]⟩,
  ⟨"CHK_SW_CTL", 0x01300040, [(2, 0x20)], [
    ⟨"START", ⟨31, 1⟩, .wo, 0, .any, true⟩,
    ⟨"CONTINUE", ⟨30, 1⟩, .rw, 0, .any, true⟩,
    ⟨"POLY", ⟨0, 2⟩, .rw, 0, (.range 0 2), true⟩]⟩,
  ⟨"CHK_SW_ADDR_LO", 0x01300044, [(2, 0x20)], [
    ⟨"ADDR", ⟨0, 32⟩, .rw, 0, .any, true⟩]⟩,
  ⟨"CHK_SW_ADDR_HI", 0x01300048, [(2, 0x20)], [
    ⟨"ADDR", ⟨0, 32⟩, .rw, 0, .any, true⟩]⟩,
  ⟨"CHK_SW_LEN", 0x0130004C, [(2, 0x20)], [
    ⟨"LEN", ⟨0, 25⟩, .rw, 0, .any, true⟩]⟩,
  ⟨"CHK_SW_STATUS", 0x01300050, [(2, 0x20)], [
    ⟨"BUSY", ⟨31, 1⟩, .ro, 0, .any, false⟩,
    ⟨"DONE", ⟨30, 1⟩, .w1c, 0, .any, true⟩,
    ⟨"STATUS", ⟨0, 16⟩, .ro, 0, .any, false⟩]⟩,
  ⟨"CHK_SW_RES_LO", 0x01300054, [(2, 0x20)], [
    ⟨"RESULT", ⟨0, 32⟩, .ro, 0, .any, false⟩]⟩,
  ⟨"CHK_SW_RES_HI", 0x01300058, [(2, 0x20)], [
    ⟨"RESULT", ⟨0, 32⟩, .ro, 0, .any, false⟩]⟩,
  ⟨"CHK_ALIVE", 0x01300100, [(64, 0x4)], [
    ⟨"GAP", ⟨31, 1⟩, .w1c, 0, .any, true⟩,
    ⟨"EXPECT", ⟨0, 16⟩, .ro, 0, .any, false⟩]⟩,
  ⟨"CHK_ALIVE_CNT", 0x01300200, [], [
    ⟨"GAPS", ⟨16, 16⟩, .rc, 0, .any, false⟩,
    ⟨"REPEATS", ⟨0, 16⟩, .rc, 0, .any, false⟩]⟩]

def regsDrv0 : List RegDef := [
  ⟨"DRV_CFG", 0x01400000, [], [
    ⟨"MODE", ⟨31, 1⟩, .rwl, 0, .drvMode, false⟩,
    ⟨"HEALTH_FAIL", ⟨30, 1⟩, .rwl, 1, .any, false⟩,
    ⟨"MNT_DEPTH", ⟨16, 8⟩, .rwl, 32, .any, false⟩,
    ⟨"HPW", ⟨8, 8⟩, .rwl, 63, .any, false⟩,
    ⟨"LPW", ⟨0, 8⟩, .rwl, 3, .any, false⟩]⟩,
  ⟨"DRV_TIMERS", 0x01400004, [], [
    ⟨"CMD_TO", ⟨16, 16⟩, .rw, 2000, .any, true⟩,
    ⟨"ABORT_TO", ⟨0, 16⟩, .rw, 1000, .any, true⟩]⟩,
  ⟨"DRV_RECOVER", 0x01400008, [], [
    ⟨"RECOVER_MAX", ⟨16, 16⟩, .rw, 2000, (.range 200 65535), true⟩,
    ⟨"RESET_THR", ⟨8, 8⟩, .rw, 3, .any, true⟩,
    ⟨"LINK_RETRIES", ⟨4, 4⟩, .rw, 3, .any, true⟩]⟩,
  ⟨"DRV_TAG_USE", 0x0140000C, [], [
    ⟨"USED", ⟨0, 17⟩, .ro, 0, .any, false⟩]⟩,
  ⟨"DRV_CNT", 0x01400040, [(16, 0x4)], [
    ⟨"COUNT", ⟨0, 32⟩, .rc, 0, .any, false⟩]⟩,
  ⟨"DRV_BAY_CFG", 0x01401000, [(128, 0x20)], [
    ⟨"ENABLE", ⟨31, 1⟩, .rw, 1, .any, true⟩,
    ⟨"SMBUS_EN", ⟨30, 1⟩, .rwl, 1, .any, false⟩,
    ⟨"SRIS", ⟨29, 1⟩, .rwl, 0, .any, false⟩,
    ⟨"MAX_GTS", ⟨20, 4⟩, .rwl, 6, .maxGts, false⟩,
    ⟨"MIN_GTS", ⟨16, 4⟩, .rwl, 4, .minGts, false⟩,
    ⟨"MIN_WIDTH", ⟨8, 4⟩, .rwl, 1, .minWidth, false⟩]⟩,
  ⟨"DRV_BAY_STATUS", 0x01401004, [(128, 0x20)], [
    ⟨"STATE", ⟨28, 4⟩, .ro, 0, .any, false⟩,
    ⟨"REASON", ⟨24, 4⟩, .ro, 0, .any, false⟩,
    ⟨"RATE", ⟨20, 4⟩, .ro, 0, .any, false⟩,
    ⟨"WIDTH", ⟨16, 4⟩, .ro, 0, .any, false⟩,
    ⟨"FLIT", ⟨15, 1⟩, .ro, 0, .any, false⟩,
    ⟨"VWC_OFF", ⟨14, 1⟩, .ro, 0, .any, false⟩,
    ⟨"DEGRADED", ⟨13, 1⟩, .ro, 0, .any, false⟩,
    ⟨"HOSTQ", ⟨8, 5⟩, .ro, 0, .any, false⟩,
    ⟨"MNTQ", ⟨4, 4⟩, .ro, 0, .any, false⟩]⟩,
  ⟨"DRV_BAY_ERR", 0x01401008, [(128, 0x20)], [
    ⟨"RECOVERIES", ⟨24, 8⟩, .ro, 0, .any, false⟩,
    ⟨"TIMEOUTS", ⟨16, 8⟩, .rc, 0, .any, false⟩,
    ⟨"MEDIA_ERR", ⟨0, 16⟩, .rc, 0, .any, false⟩]⟩,
  ⟨"DRV_BAY_OUT", 0x0140100C, [(128, 0x20)], [
    ⟨"MNT", ⟨16, 16⟩, .ro, 0, .any, false⟩,
    ⟨"ALL", ⟨0, 16⟩, .ro, 0, .any, false⟩]⟩]

def regsBay0 : List RegDef := [
  ⟨"BAY_GLB_CFG", 0x01600000, [], [
    ⟨"TA_C", ⟨16, 8⟩, .rwl, 55, (.range 0 125), false⟩,
    ⟨"INRUSH_BAYS", ⟨0, 8⟩, .rwl, 8, .any, false⟩]⟩,
  ⟨"BAY_GLB_STATUS", 0x01600004, [], [
    ⟨"CFG_REFUSED", ⟨31, 1⟩, .w1c, 0, .any, false⟩,
    ⟨"INRUSH_NOW", ⟨0, 8⟩, .ro, 0, .any, false⟩]⟩,
  ⟨"BAY_PRESENT", 0x01600008, [(4, 0x4)], [
    ⟨"PRESENT", ⟨0, 32⟩, .ro, 0, .any, false⟩]⟩,
  ⟨"BAY_PG", 0x01600018, [(4, 0x4)], [
    ⟨"PG", ⟨0, 32⟩, .ro, 0, .any, false⟩]⟩,
  ⟨"BAY_CNT", 0x01600040, [(8, 0x4)], [
    ⟨"COUNT", ⟨0, 32⟩, .rc, 0, .any, false⟩]⟩,
  ⟨"BAY_CFG", 0x01601000, [(128, 0x40)], [
    ⟨"AUTO_ON", ⟨31, 1⟩, .rwl, 0, .any, false⟩,
    ⟨"RETRY_MAX", ⟨8, 4⟩, .rwl, 3, .any, false⟩,
    ⟨"DUTY", ⟨0, 7⟩, .rwl, 10, (.range 1 100), false⟩]⟩,
  ⟨"BAY_SENSE", 0x01601004, [(128, 0x40)], [
    ⟨"VGAIN", ⟨16, 16⟩, .rwl, 256, .any, false⟩,
    ⟨"IGAIN", ⟨0, 16⟩, .rwl, 512, .any, false⟩]⟩,
  ⟨"BAY_INRUSH", 0x01601008, [(128, 0x40)], [
    ⟨"PG_MV", ⟨16, 16⟩, .rwl, 10800, .any, false⟩,
    ⟨"INRUSH_MAX", ⟨0, 16⟩, .rwl, 782, .any, false⟩]⟩,
  ⟨"BAY_FUSE", 0x0160100C, [(128, 0x40)], [
    ⟨"ILIM_ABS", ⟨16, 16⟩, .rwl, 20000, .bayOff, false⟩,
    ⟨"COOL", ⟨0, 16⟩, .rwl, 1563, .bayOff, false⟩]⟩,
  ⟨"BAY_RETRY", 0x01601010, [(128, 0x40)], [
    ⟨"RETRY_DELAY", ⟨16, 16⟩, .rwl, 1000, .any, false⟩,
    ⟨"OFF_SETTLE", ⟨0, 16⟩, .rwl, 100, .any, false⟩]⟩,
  ⟨"BAY_TH_R", 0x01601014, [(128, 0x40)], [
    ⟨"R2", ⟨16, 16⟩, .rwl, 20000, .any, false⟩,
    ⟨"R1", ⟨0, 16⟩, .rwl, 500, .any, false⟩]⟩,
  ⟨"BAY_TH_ALPHA1", 0x01601018, [(128, 0x40)], [
    ⟨"ALPHA", ⟨0, 32⟩, .rwl, 34359738, .any, false⟩]⟩]

def regsBay1 : List RegDef := [
  ⟨"BAY_TH_ALPHA2", 0x0160101C, [(128, 0x40)], [
    ⟨"ALPHA", ⟨0, 32⟩, .rwl, 17180, .any, false⟩]⟩,
  ⟨"BAY_TH_LIMIT", 0x01601020, [(128, 0x40)], [
    ⟨"TRIP_C", ⟨16, 8⟩, .rwl, 125, .any, false⟩,
    ⟨"RESTART_C", ⟨0, 8⟩, .rwl, 65, .restartC, false⟩]⟩,
  ⟨"BAY_DMG", 0x01601024, [(128, 0x40)], [
    ⟨"RON_MAX", ⟨24, 8⟩, .rwl, 20, .any, false⟩,
    ⟨"DMG_EVALS", ⟨16, 8⟩, .rwl, 125, .any, false⟩,
    ⟨"VOFF_MAX", ⟨8, 8⟩, .rwl, 100, .any, false⟩,
    ⟨"IOFF_MAX", ⟨0, 8⟩, .rwl, 20, .any, false⟩]⟩,
  ⟨"BAY_STATUS", 0x01601028, [(128, 0x40)], [
    ⟨"STATE", ⟨28, 4⟩, .ro, 0, .any, false⟩,
    ⟨"PG", ⟨27, 1⟩, .ro, 0, .any, false⟩,
    ⟨"PRESENT", ⟨26, 1⟩, .ro, 0, .any, false⟩,
    ⟨"PRS_RAW", ⟨25, 1⟩, .ro, 0, .any, false⟩,
    ⟨"GOK", ⟨24, 1⟩, .ro, 0, .any, false⟩,
    ⟨"EN", ⟨23, 1⟩, .ro, 0, .any, false⟩,
    ⟨"PENDING", ⟨22, 1⟩, .ro, 0, .any, false⟩,
    ⟨"COOL_WAIT", ⟨21, 1⟩, .ro, 0, .any, false⟩,
    ⟨"CURVE_VALID", ⟨20, 1⟩, .ro, 0, .any, false⟩,
    ⟨"RETRIES", ⟨16, 4⟩, .ro, 0, .any, false⟩,
    ⟨"LAST_TRIP", ⟨12, 4⟩, .ro, 0, .any, false⟩,
    ⟨"DMG_CAUSE", ⟨8, 4⟩, .ro, 0, .any, false⟩]⟩,
  ⟨"BAY_MEAS", 0x0160102C, [(128, 0x40)], [
    ⟨"I_MA", ⟨16, 16⟩, .ro, 0, .any, false⟩,
    ⟨"V_MV", ⟨0, 16⟩, .ro, 0, .any, false⟩]⟩,
  ⟨"BAY_MODEL", 0x01601030, [(128, 0x40)], [
    ⟨"TJ", ⟨16, 16⟩, .ro, 0, .any, false⟩,
    ⟨"INTEG", ⟨0, 16⟩, .ro, 0, .any, false⟩]⟩,
  ⟨"BAY_LED", 0x01601034, [(128, 0x40)], [
    ⟨"LED1", ⟨2, 2⟩, .rwl, 0, .bayLed, false⟩,
    ⟨"LED0", ⟨0, 2⟩, .rwl, 0, .bayLed, false⟩]⟩,
  ⟨"BAY_FAULTS", 0x01601038, [(128, 0x40)], [
    ⟨"TRIPS", ⟨16, 16⟩, .rc, 0, .any, false⟩,
    ⟨"PRS_GLITCHES", ⟨0, 16⟩, .rc, 0, .any, false⟩]⟩,
  ⟨"BAY_CURVE", 0x01604000, [(128, 0x10), (4, 0x4)], [
    ⟨"TIME", ⟨16, 16⟩, .rwl, 0, .bayOff, false⟩,
    ⟨"LIMIT", ⟨0, 16⟩, .rwl, 0, .bayOff, false⟩]⟩]

def regsEnv0 : List RegDef := [
  ⟨"ENV_CFG", 0x01700000, [], [
    ⟨"CRIT_SHUTDOWN", ⟨31, 1⟩, .rwl, 1, .any, false⟩,
    ⟨"FAIL_DUTY", ⟨16, 8⟩, .rwl, 100, (.range 0 100), false⟩,
    ⟨"DUTY_MIN", ⟨8, 8⟩, .rwl, 20, (.range 0 100), false⟩,
    ⟨"DUMP_DUTY", ⟨0, 8⟩, .rwl, 0, .any, false⟩]⟩,
  ⟨"ENV_LOOP_GAIN", 0x01700004, [], [
    ⟨"KP", ⟨16, 16⟩, .rwl, 51, .any, false⟩,
    ⟨"KI", ⟨0, 16⟩, .rwl, 328, .any, false⟩]⟩,
  ⟨"ENV_LOOP_FF", 0x01700008, [], [
    ⟨"SLEW_DN", ⟨16, 16⟩, .rwl, 10, .any, false⟩,
    ⟨"FF_GAIN", ⟨0, 16⟩, .rwl, 0, .any, false⟩]⟩,
  ⟨"ENV_TEMP_TGT", 0x0170000C, [], [
    ⟨"THERM", ⟨24, 8⟩, .rwl, 35, .any, false⟩,
    ⟨"DRIVE", ⟨16, 8⟩, .rwl, 55, .any, false⟩,
    ⟨"DIE", ⟨8, 8⟩, .rwl, 85, .any, false⟩]⟩,
  ⟨"ENV_TEMP_WARN", 0x01700010, [], [
    ⟨"THERM", ⟨24, 8⟩, .rwl, 45, .any, false⟩,
    ⟨"DRIVE", ⟨16, 8⟩, .rwl, 65, .any, false⟩,
    ⟨"DIE", ⟨8, 8⟩, .rwl, 100, .any, false⟩]⟩,
  ⟨"ENV_TEMP_CRIT", 0x01700014, [], [
    ⟨"THERM", ⟨24, 8⟩, .rwl, 55, .any, false⟩,
    ⟨"DRIVE", ⟨16, 8⟩, .rwl, 75, .any, false⟩,
    ⟨"DIE", ⟨8, 8⟩, .rwl, 105, .any, false⟩]⟩,
  ⟨"ENV_STATUS", 0x01700018, [], [
    ⟨"STALL", ⟨31, 1⟩, .w1c, 0, .any, true⟩,
    ⟨"MANUAL", ⟨30, 1⟩, .ro, 0, .any, false⟩,
    ⟨"FLOOR_FAIL", ⟨29, 1⟩, .ro, 0, .any, false⟩,
    ⟨"DUTY", ⟨0, 11⟩, .ro, 0, .any, false⟩]⟩,
  ⟨"ENV_THERM_PULL", 0x0170001C, [], [
    ⟨"RPULL", ⟨0, 17⟩, .rwl, 10000, .any, false⟩]⟩,
  ⟨"ENV_TEMPS", 0x01700020, [], [
    ⟨"SHELF", ⟨16, 16⟩, .ro, 0, .any, false⟩,
    ⟨"DIE", ⟨0, 16⟩, .ro, 0, .any, false⟩]⟩,
  ⟨"ENV_SENSE", 0x01700024, [], [
    ⟨"HOLD_GAIN", ⟨16, 16⟩, .rwl, 256, .any, false⟩,
    ⟨"VBUS_GAIN", ⟨0, 16⟩, .rwl, 256, .any, false⟩]⟩,
  ⟨"ENV_VBUS", 0x01700028, [], [
    ⟨"VBUS", ⟨0, 16⟩, .ro, 0, .any, false⟩]⟩,
  ⟨"ENV_CNT", 0x01700030, [(8, 0x4)], [
    ⟨"COUNT", ⟨0, 32⟩, .rc, 0, .any, false⟩]⟩]

def regsEnv1 : List RegDef := [
  ⟨"ENV_HOLD_CFG", 0x01700050, [], [
    ⟨"C_MF", ⟨16, 16⟩, .rwl, 0, .any, false⟩,
    ⟨"EFF", ⟨8, 8⟩, .rwl, 85, (.range 1 100), false⟩,
    ⟨"MARGIN", ⟨0, 8⟩, .rwl, 20, .any, false⟩]⟩,
  ⟨"ENV_HOLD_V", 0x01700054, [], [
    ⟨"V_MIN", ⟨16, 16⟩, .rwl, 8000, .any, false⟩,
    ⟨"V_OFF", ⟨0, 16⟩, .rwl, 16000, .any, false⟩]⟩,
  ⟨"ENV_HOLD_CHG", 0x01700058, [], [
    ⟨"V_ON", ⟨16, 16⟩, .rwl, 15500, .vOn, false⟩,
    ⟨"CHG_TIMEOUT", ⟨8, 8⟩, .rwl, 120, .any, false⟩]⟩,
  ⟨"ENV_HOLD_POWER", 0x0170005C, [], [
    ⟨"P_BASE", ⟨16, 16⟩, .rwl, 900, .any, false⟩,
    ⟨"DRV_DUMP_W", ⟨0, 16⟩, .rwl, 25, .any, false⟩]⟩,
  ⟨"ENV_DUMP_RATE", 0x01700060, [], [
    ⟨"RATE", ⟨16, 16⟩, .rwl, 5000, .any, false⟩,
    ⟨"WLAT", ⟨0, 16⟩, .rwl, 2000, .any, false⟩]⟩,
  ⟨"ENV_DUMP_TIMING", 0x01700064, [], [
    ⟨"FLUSH_US", ⟨16, 16⟩, .rwl, 2000, .any, false⟩,
    ⟨"PF_FILTER", ⟨8, 8⟩, .rwl, 2, .any, false⟩,
    ⟨"RESTORE_MS", ⟨0, 8⟩, .rwl, 100, .any, false⟩]⟩,
  ⟨"ENV_HOLD_STATUS", 0x01700068, [], [
    ⟨"READY", ⟨31, 1⟩, .ro, 0, .any, false⟩,
    ⟨"FAULT", ⟨30, 1⟩, .w1c, 0, .ownRow, true⟩,
    ⟨"CHG_EN", ⟨29, 1⟩, .ro, 0, .any, false⟩,
    ⟨"PF", ⟨28, 1⟩, .ro, 0, .any, false⟩,
    ⟨"V", ⟨0, 16⟩, .ro, 0, .any, false⟩]⟩,
  ⟨"ENV_HOLD_EAVAIL", 0x0170006C, [], [
    ⟨"VALUE", ⟨0, 32⟩, .ro, 0, .any, false⟩]⟩,
  ⟨"ENV_HOLD_EREQ", 0x01700070, [], [
    ⟨"VALUE", ⟨0, 32⟩, .ro, 0, .any, false⟩]⟩,
  ⟨"ENV_HOLD_THOLD", 0x01700074, [], [
    ⟨"VALUE", ⟨0, 32⟩, .ro, 0, .any, false⟩]⟩,
  ⟨"ENV_HOLD_PHOLD", 0x01700078, [], [
    ⟨"VALUE", ⟨0, 32⟩, .ro, 0, .any, false⟩]⟩,
  ⟨"ENV_FAN_CFG", 0x01700100, [(12, 0x10)], [
    ⟨"PRESENT", ⟨31, 1⟩, .rwl, 0, .any, false⟩,
    ⟨"PULSES", ⟨16, 4⟩, .rwl, 2, .any, false⟩,
    ⟨"TACH_MIN", ⟨0, 16⟩, .rwl, 1000, .any, false⟩]⟩]

def regsEnv2 : List RegDef := [
  ⟨"ENV_FAN_STATUS", 0x01700104, [(12, 0x10)], [
    ⟨"FAILED", ⟨31, 1⟩, .ro, 0, .any, false⟩,
    ⟨"RPM", ⟨0, 16⟩, .ro, 0, .any, false⟩]⟩,
  ⟨"ENV_THERM_CFG", 0x01700200, [(8, 0x10)], [
    ⟨"PRESENT", ⟨31, 1⟩, .rwl, 0, .any, false⟩,
    ⟨"BETA", ⟨16, 15⟩, .rwl, 3950, .any, false⟩,
    ⟨"R25", ⟨0, 16⟩, .rwl, 10000, .any, false⟩]⟩,
  ⟨"ENV_THERM_TEMP", 0x01700204, [(8, 0x10)], [
    ⟨"FAILED", ⟨31, 1⟩, .ro, 0, .any, false⟩,
    ⟨"LEVEL", ⟨16, 2⟩, .ro, 0, .any, false⟩,
    ⟨"TEMP", ⟨0, 16⟩, .ro, 0, .any, false⟩]⟩,
  ⟨"ENV_DUMP_LAST", 0x01700300, [], [
    ⟨"OUTCOME", ⟨28, 4⟩, .ro, 0, .any, false⟩,
    ⟨"LINES", ⟨0, 28⟩, .ro, 0, .any, false⟩]⟩,
  ⟨"ENV_DUMP_TIME", 0x01700304, [], [
    ⟨"US", ⟨0, 32⟩, .ro, 0, .any, false⟩]⟩,
  ⟨"ENV_DUMP_ERR", 0x01700308, [], [
    ⟨"CHUNKS", ⟨16, 16⟩, .ro, 0, .any, false⟩,
    ⟨"HEADERS", ⟨8, 8⟩, .ro, 0, .any, false⟩,
    ⟨"JOURNAL", ⟨0, 2⟩, .ro, 0, .any, false⟩]⟩]

def regsPair0 : List RegDef := [
  ⟨"PAIR_CFG", 0x01800000, [], [
    ⟨"ZERO_FOLLOW", ⟨31, 1⟩, .rwl, 1, .any, false⟩,
    ⟨"COLD_AUTO", ⟨30, 1⟩, .rwl, 0, .any, false⟩,
    ⟨"HO_FENCE", ⟨29, 1⟩, .rwl, 0, .any, false⟩,
    ⟨"HO_SECOND", ⟨28, 1⟩, .rwl, 1, .any, false⟩,
    ⟨"HO_STACK", ⟨27, 1⟩, .rwl, 1, .any, false⟩,
    ⟨"HO_PORT", ⟨26, 1⟩, .rwl, 1, .any, false⟩,
    ⟨"ACT_FILTER", ⟨8, 6⟩, .rwl, 8, (.range 1 42), false⟩,
    ⟨"CLAIM_WAIT", ⟨0, 8⟩, .rwl, 20, .any, false⟩]⟩,
  ⟨"PAIR_STATUS", 0x01800004, [], [
    ⟨"STATE", ⟨28, 4⟩, .ro, 1, .any, false⟩,
    ⟨"SLOT", ⟨27, 1⟩, .ro, 0, .any, false⟩,
    ⟨"PAIRED_STRAP", ⟨26, 1⟩, .ro, 0, .any, false⟩,
    ⟨"ACT_N", ⟨25, 1⟩, .ro, 0, .any, false⟩,
    ⟨"CLAIMED", ⟨24, 1⟩, .ro, 0, .any, false⟩,
    ⟨"PEER_STATE", ⟨16, 8⟩, .ro, 0, .any, false⟩,
    ⟨"RHS_FAIL", ⟨15, 1⟩, .w1c, 0, .any, true⟩]⟩,
  ⟨"PAIR_LINK", 0x01800008, [], [
    ⟨"UP", ⟨31, 1⟩, .ro, 0, .any, false⟩,
    ⟨"KEYED", ⟨30, 1⟩, .ro, 0, .any, false⟩,
    ⟨"BUNDLES", ⟨0, 16⟩, .ro, 0, .any, false⟩]⟩,
  ⟨"PAIR_TIMING", 0x0180000C, [], [
    ⟨"LAT_MAX", ⟨16, 16⟩, .rc, 0, .any, false⟩,
    ⟨"OFFSET", ⟨0, 16⟩, .ro, 0, .any, false⟩]⟩,
  ⟨"PAIR_TICK_LO", 0x01800010, [], [
    ⟨"TICK", ⟨0, 32⟩, .ro, 0, .any, false⟩]⟩,
  ⟨"PAIR_TICK_HI", 0x01800014, [], [
    ⟨"TICK", ⟨0, 32⟩, .ro, 0, .any, false⟩]⟩,
  ⟨"PAIR_JOIN_CFG", 0x01800018, [], [
    ⟨"HOLD_MAX", ⟨16, 16⟩, .rw, 1024, (.range 64 65535), true⟩,
    ⟨"PASSES", ⟨8, 8⟩, .rw, 8, (.range 1 32), true⟩,
    ⟨"RESIDUE", ⟨0, 8⟩, .rw, 64, .any, true⟩]⟩,
  ⟨"PAIR_JOIN_STATUS", 0x0180001C, [], [
    ⟨"PHASE", ⟨28, 4⟩, .ro, 0, .any, false⟩,
    ⟨"CAUSE", ⟨24, 4⟩, .ro, 0, .any, false⟩,
    ⟨"PASS", ⟨16, 8⟩, .ro, 0, .any, false⟩,
    ⟨"HOLD_TICKS", ⟨0, 16⟩, .ro, 0, .any, false⟩]⟩,
  ⟨"PAIR_PEER_PIN0", 0x01800020, [], [
    ⟨"LOT_LO", ⟨0, 32⟩, .rwl, 0, .any, false⟩]⟩,
  ⟨"PAIR_PEER_PIN1", 0x01800024, [], [
    ⟨"LOT_HI", ⟨16, 16⟩, .rwl, 0, .any, false⟩,
    ⟨"WAFER", ⟨0, 5⟩, .rwl, 0, .any, false⟩]⟩,
  ⟨"PAIR_PEER_PIN2", 0x01800028, [], [
    ⟨"PIN_EN", ⟨31, 1⟩, .rwl, 0, .any, false⟩,
    ⟨"DIE_X", ⟨8, 8⟩, .rwl, 0, .any, false⟩,
    ⟨"DIE_Y", ⟨0, 8⟩, .rwl, 0, .any, false⟩]⟩,
  ⟨"PAIR_PEER_SEEN0", 0x01800030, [], [
    ⟨"LOT_LO", ⟨0, 32⟩, .ro, 0, .any, false⟩]⟩]

def regsPair1 : List RegDef := [
  ⟨"PAIR_PEER_SEEN1", 0x01800034, [], [
    ⟨"LOT_HI", ⟨16, 16⟩, .ro, 0, .any, false⟩,
    ⟨"WAFER", ⟨0, 5⟩, .ro, 0, .any, false⟩]⟩,
  ⟨"PAIR_PEER_SEEN2", 0x01800038, [], [
    ⟨"PIN_EN", ⟨31, 1⟩, .ro, 0, .any, false⟩,
    ⟨"DIE_X", ⟨8, 8⟩, .ro, 0, .any, false⟩,
    ⟨"DIE_Y", ⟨0, 8⟩, .ro, 0, .any, false⟩]⟩,
  ⟨"PAIR_DIV", 0x01800040, [(5, 0x4)], [
    ⟨"VALUE", ⟨0, 32⟩, .ro, 0, .any, false⟩]⟩,
  ⟨"PAIR_CNT", 0x01800080, [(16, 0x4)], [
    ⟨"COUNT", ⟨0, 32⟩, .rc, 0, .any, false⟩]⟩,
  ⟨"PAIR_RHS_STATUS", 0x018000C0, [], [
    ⟨"BUSY", ⟨31, 1⟩, .ro, 0, .any, false⟩,
    ⟨"KIND", ⟨24, 3⟩, .ro, 0, .any, false⟩,
    ⟨"RESULT", ⟨16, 4⟩, .ro, 0, .any, false⟩,
    ⟨"INDEX", ⟨0, 16⟩, .ro, 0, .any, false⟩]⟩]

def regsMgt0 : List RegDef := [
  ⟨"MGT_STATUS", 0x01A00000, [], [
    ⟨"READY", ⟨31, 1⟩, .ro, 0, .any, false⟩,
    ⟨"FW_RUN", ⟨30, 1⟩, .ro, 0, .any, false⟩,
    ⟨"RECOVERY", ⟨29, 1⟩, .ro, 0, .any, false⟩,
    ⟨"FALLBACK", ⟨28, 1⟩, .ro, 0, .any, false⟩,
    ⟨"FLASH_DEGRADED", ⟨27, 1⟩, .w1c, 0, .any, false⟩,
    ⟨"BOOT_FAIL", ⟨16, 8⟩, .ro, 0, .any, false⟩,
    ⟨"CORE_UP", ⟨0, 4⟩, .ro, 0, .any, false⟩]⟩,
  ⟨"MGT_FW_VER", 0x01A00004, [], [
    ⟨"VERSION", ⟨0, 32⟩, .ro, 0, .any, false⟩]⟩,
  ⟨"MGT_FW_STAGED", 0x01A00008, [], [
    ⟨"VERSION", ⟨0, 32⟩, .ro, 0, .any, false⟩]⟩,
  ⟨"MGT_BOOT", 0x01A0000C, [], [
    ⟨"TRIES", ⟨16, 2⟩, .ro, 0, .any, false⟩,
    ⟨"PENDING", ⟨8, 8⟩, .ro, 255, .any, false⟩,
    ⟨"DEVICE", ⟨2, 1⟩, .ro, 0, .any, false⟩,
    ⟨"RUN_SLOT", ⟨1, 1⟩, .ro, 0, .any, false⟩,
    ⟨"ACTIVE", ⟨0, 1⟩, .ro, 0, .any, false⟩]⟩,
  ⟨"MGT_SVN", 0x01A00010, [], [
    ⟨"REVOKED", ⟨16, 4⟩, .ro, 0, .any, false⟩,
    ⟨"FLOOR", ⟨8, 8⟩, .ro, 0, .any, false⟩,
    ⟨"RUNNING", ⟨0, 8⟩, .ro, 0, .any, false⟩]⟩,
  ⟨"MGT_QUEUE", 0x01A00020, [(4, 0x4)], [
    ⟨"INTERNAL", ⟨16, 11⟩, .ro, 0, .any, false⟩,
    ⟨"RING", ⟨0, 11⟩, .ro, 0, .any, false⟩]⟩,
  ⟨"MGT_SMB_CFG", 0x01A00030, [], [
    ⟨"ENABLE", ⟨31, 1⟩, .rwl, 1, .any, false⟩,
    ⟨"SPEED", ⟨8, 2⟩, .rwl, 1, (.range 0 2), false⟩,
    ⟨"ADDR", ⟨0, 7⟩, .rwl, 29, .any, false⟩]⟩,
  ⟨"MGT_MCTP", 0x01A00034, [], [
    ⟨"SPDM_SESSIONS", ⟨16, 8⟩, .ro, 0, .any, false⟩,
    ⟨"EID_SMB", ⟨8, 8⟩, .ro, 0, .any, false⟩,
    ⟨"EID_VDM", ⟨0, 8⟩, .ro, 0, .any, false⟩]⟩,
  ⟨"MGT_RECOV_ADDR_LO", 0x01A00040, [], [
    ⟨"ADDR", ⟨0, 32⟩, .rw, 0, .any, false⟩]⟩,
  ⟨"MGT_RECOV_ADDR_HI", 0x01A00044, [], [
    ⟨"ADDR", ⟨0, 32⟩, .rw, 0, .any, false⟩]⟩,
  ⟨"MGT_RECOV_SIZE", 0x01A00048, [], [
    ⟨"SIZE", ⟨0, 25⟩, .rw, 0, .any, false⟩]⟩,
  ⟨"MGT_RECOV_CTL", 0x01A0004C, [], [
    ⟨"GO", ⟨31, 1⟩, .wo, 0, .any, false⟩,
    ⟨"STATUS", ⟨0, 16⟩, .ro, 0, .any, false⟩]⟩]

def regsMgt1 : List RegDef := [
  ⟨"MGT_CNT", 0x01A00080, [(8, 0x4)], [
    ⟨"COUNT", ⟨0, 32⟩, .rc, 0, .any, false⟩]⟩,
  ⟨"MGT_ITK_SEL", 0x01A00100, [], [
    ⟨"SLOT", ⟨0, 3⟩, .rwl, 0, .any, false⟩]⟩,
  ⟨"MGT_ITK_CTL", 0x01A00104, [], [
    ⟨"CLEAR", ⟨1, 1⟩, .wo, 0, .any, false⟩,
    ⟨"COMMIT", ⟨0, 1⟩, .wo, 0, .any, false⟩]⟩,
  ⟨"MGT_ITK_STATUS", 0x01A00108, [], [
    ⟨"ERR", ⟨31, 1⟩, .w1c, 0, .any, false⟩,
    ⟨"VALID", ⟨0, 8⟩, .ro, 0, .any, false⟩]⟩,
  ⟨"MGT_ITK_DATA", 0x01A00110, [(26, 0x4)], [
    ⟨"BYTES", ⟨0, 32⟩, .rwl, 0, .any, false⟩]⟩,
  ⟨"MGT_MEAS_SEL", 0x01A00200, [], [
    ⟨"INDEX", ⟨0, 4⟩, .rw, 1, (.range 1 9), true⟩]⟩,
  ⟨"MGT_MEAS_VAL", 0x01A00204, [(12, 0x4)], [
    ⟨"BYTES", ⟨0, 32⟩, .ro, 0, .any, false⟩]⟩]

def regsTel0 : List RegDef := [
  ⟨"TEL_DUMP_ADDR_LO", 0x01C00000, [], [
    ⟨"ADDR_LO", ⟨12, 20⟩, .rwl, 0, .any, false⟩]⟩,
  ⟨"TEL_DUMP_ADDR_HI", 0x01C00004, [], [
    ⟨"ADDR_HI", ⟨0, 32⟩, .rwl, 0, .any, false⟩]⟩,
  ⟨"TEL_DUMP_GEOM", 0x01C00008, [], [
    ⟨"SLOT_4K", ⟨15, 17⟩, .rwl, 256, (.range 16 65536), false⟩,
    ⟨"SLOTS", ⟨0, 11⟩, .rwl, 16, (.range 2 1024), false⟩]⟩,
  ⟨"TEL_DUMP_CTL", 0x01C0000C, [], [
    ⟨"CHAN_DIV", ⟨16, 16⟩, .rwl, 1, .any, false⟩,
    ⟨"INTERVAL", ⟨0, 16⟩, .rwl, 0, .any, false⟩]⟩,
  ⟨"TEL_GROUPS", 0x01C00010, [], [
    ⟨"READY_EV", ⟨18, 1⟩, .rwl, 0, .any, false⟩,
    ⟨"CHAN_EN", ⟨17, 1⟩, .rwl, 0, .any, false⟩,
    ⟨"TRACE_EN", ⟨16, 1⟩, .rwl, 0, .any, false⟩,
    ⟨"MASK", ⟨1, 15⟩, .rwl, 16383, .any, false⟩]⟩,
  ⟨"TEL_TAG_CFG", 0x01C00014, [], [
    ⟨"FILTER_KIND", ⟨8, 2⟩, .rwl, 0, (.range 0 2), false⟩,
    ⟨"TAG_SHIFT", ⟨0, 5⟩, .rwl, 0, (.range 0 24), false⟩]⟩,
  ⟨"TEL_TAG_FILTER", 0x01C00018, [], [
    ⟨"FILTER", ⟨0, 32⟩, .rwl, 0, .any, false⟩]⟩,
  ⟨"TEL_TAG_SEED", 0x01C0001C, [], [
    ⟨"SEED", ⟨0, 32⟩, .rwl, 1, (.range 1 4294967295), false⟩]⟩,
  ⟨"TEL_DUMP_PROD", 0x01C00020, [], [
    ⟨"PROD", ⟨0, 10⟩, .ro, 0, .any, false⟩]⟩,
  ⟨"TEL_DUMP_CONS", 0x01C00024, [], [
    ⟨"CONS", ⟨0, 10⟩, .rw, 0, .dumpCons, true⟩]⟩,
  ⟨"TEL_PERSIST", 0x01C00028, [], [
    ⟨"MASK", ⟨0, 14⟩, .rw, 0, .any, true⟩]⟩,
  ⟨"TEL_CTR_SEL", 0x01C00030, [], [
    ⟨"GROUP", ⟨28, 4⟩, .rw, 0, .any, false⟩,
    ⟨"INDEX", ⟨23, 5⟩, .rw, 0, .any, false⟩,
    ⟨"INSTANCE", ⟨0, 18⟩, .rw, 0, .any, true⟩]⟩]

def regsTel1 : List RegDef := [
  ⟨"TEL_CTR_VAL_LO", 0x01C00034, [], [
    ⟨"VALUE", ⟨0, 32⟩, .ro, 0, .any, false⟩]⟩,
  ⟨"TEL_CTR_VAL_HI", 0x01C00038, [], [
    ⟨"VALUE", ⟨0, 32⟩, .ro, 0, .any, false⟩]⟩,
  ⟨"TEL_STATUS", 0x01C0003C, [], [
    ⟨"VALID", ⟨31, 1⟩, .ro, 0, .any, false⟩,
    ⟨"DUMPING", ⟨30, 1⟩, .ro, 0, .any, false⟩,
    ⟨"BUFFERS", ⟨0, 2⟩, .ro, 0, .any, false⟩]⟩,
  ⟨"TEL_CNT", 0x01C00040, [(8, 0x4)], [
    ⟨"COUNT", ⟨0, 32⟩, .rc, 0, .any, false⟩]⟩]

def regsHbm0 : List RegDef := [
  ⟨"HBM_STATUS", 0x01E00000, [], [
    ⟨"LOST_CAUSE", ⟨8, 8⟩, .ro, 0, .any, false⟩,
    ⟨"LOST", ⟨4, 4⟩, .ro, 0, .any, false⟩,
    ⟨"READY", ⟨0, 4⟩, .ro, 0, .any, false⟩]⟩,
  ⟨"HBM_ECC", 0x01E00010, [(4, 0x4)], [
    ⟨"UNCORR", ⟨16, 16⟩, .rc, 0, .any, false⟩,
    ⟨"CORR", ⟨0, 16⟩, .rc, 0, .any, false⟩]⟩]

/-- The MSI-X table of 2,048 entries of four words (03 R74, R75): message address low and high, message data, vector
control; GLB_LOCK does not affect it (19 R537). PRESUMED from the PCIe specification: the mask bit is 1 at reset. -/
def regsMsix : List RegDef := [
  ⟨"MSIX_ADDR_LO", 0x00440000, [(2048, 0x10)], [⟨"ADDR", ⟨0, 32⟩, .rw, 0, .any, true⟩]⟩,
  ⟨"MSIX_ADDR_HI", 0x00440004, [(2048, 0x10)], [⟨"ADDR", ⟨0, 32⟩, .rw, 0, .any, true⟩]⟩,
  ⟨"MSIX_DATA", 0x00440008, [(2048, 0x10)], [⟨"DATA", ⟨0, 32⟩, .rw, 0, .any, true⟩]⟩,
  ⟨"MSIX_CTRL", 0x0044000C, [(2048, 0x10)], [⟨"MASK", ⟨0, 1⟩, .rw, 1, .any, true⟩]⟩,
  ⟨"MSIX_PBA", 0x00448000, [(64, 0x4)], [⟨"PENDING", ⟨0, 32⟩, .ro, 0, .any, true⟩]⟩]

def Reg.MSIX_ADDR_LO (i : Nat) : Nat := 0x00440000 + 0x10 * i
def Reg.MSIX_ADDR_HI (i : Nat) : Nat := 0x00440004 + 0x10 * i
def Reg.MSIX_DATA (i : Nat) : Nat := 0x00440008 + 0x10 * i
def Reg.MSIX_CTRL (i : Nat) : Nat := 0x0044000C + 0x10 * i
def Reg.MSIX_PBA (i : Nat) : Nat := 0x00448000 + 0x4 * i

/-- The blocks of BAR0 (19 R537, Table 19-1), each with the first offset past it and its registers; RING_ with the MSI-X structures. -/
def regBlocks : List (Nat × List RegDef) := [
  (0x00100000, regsGlb0 ++ regsGlb1), (0x00200000, regsCrs0), (0x00400000, regsItn0 ++ regsItn1),
  (0x00800000, regsRing0 ++ (regsRing1 ++ regsMsix)), (0x00A00000, regsMac0 ++ regsMac1), (0x00C00000, regsRdm0 ++ regsRdm1),
  (0x00D00000, regsSwc0 ++ regsSwc1), (0x00E00000, regsTmg0 ++ regsTmg1), (0x01000000, regsCmd0),
  (0x01200000, regsLay0 ++ (regsLay1 ++ regsLay2)), (0x01300000, regsCip0), (0x01400000, regsChk0), (0x01600000, regsDrv0),
  (0x01700000, regsBay0 ++ regsBay1), (0x01800000, regsEnv0 ++ (regsEnv1 ++ regsEnv2)), (0x01A00000, regsPair0 ++ regsPair1),
  (0x01C00000, regsMgt0 ++ regsMgt1), (0x01E00000, regsTel0 ++ regsTel1), (0x02000000, regsHbm0)]

/-- Every register of BAR0 (19 R538), with the MSI-X structures. -/
def regTable : List RegDef := regBlocks.flatMap (·.2)

end Sys2Proof.Machine
end

