-- ==== Sys2Proof/Machine/Bits.lean ====
section
/-!
DEFINITION. Bit fields of a register word, little-endian fields of a byte string (00 R8), saturating and modular counts.
-/

namespace Sys2Proof.Machine

open Sys2Proof

/-- The value of field `f` of word `w` (00, bit numbering). -/
def Fld.get (f : Fld) (w : Word) : Nat := (w.toNat >>> f.lsb) % 2 ^ f.width

/-- The mask of field `f`. -/
def Fld.mask (f : Fld) : Word := BitVec.ofNat 32 ((2 ^ f.width - 1) <<< f.lsb)

/-- Word `w` with field `f` set to `v`, truncated to the width of the field. -/
def Fld.put (f : Fld) (w : Word) (v : Nat) : Word :=
  (w &&& ~~~f.mask) ||| BitVec.ofNat 32 ((v % 2 ^ f.width) <<< f.lsb)

/-- The largest value of field `f`. -/
def Fld.max (f : Fld) : Nat := 2 ^ f.width - 1

/-- A count that stops at `top` (00: the counters saturate). -/
def satAdd (top a b : Nat) : Nat := min top (a + b)

/-- The little-endian number of `bs` (00 R8). -/
def leNat : List Byte → Nat
  | [] => 0
  | b :: bs => b.toNat + 256 * leNat bs

/-- The `n` bytes of `v`, little-endian (00 R8). -/
def leBytes : Nat → Nat → List Byte
  | 0, _ => []
  | n + 1, v => BitVec.ofNat 8 v :: leBytes n (v / 256)

/-- The big-endian number of `bs`. -/
def beNat (bs : List Byte) : Nat := leNat bs.reverse

/-- `n` bytes of `bs` from byte offset `off`. -/
def sliceB (bs : List Byte) (off n : Nat) : List Byte := (bs.drop off).take n

/-- The little-endian field of `n` bytes at byte offset `off`. -/
def leField (bs : List Byte) (off n : Nat) : Nat := leNat (sliceB bs off n)

/-- `bs` holds only zero bytes. -/
def allZero (bs : List Byte) : Bool := bs.all (· == 0)

/-- `n` zero bytes. -/
def zeros (n : Nat) : List Byte := List.replicate n 0

/-- Bit `i` of the number `v`. -/
def natBit (v i : Nat) : Bool := (v / 2 ^ i) % 2 == 1

/-- `v` with bit `i` set to `b`. -/
def setNatBit (v i : Nat) (b : Bool) : Nat :=
  if natBit v i == b then v else if b then v + 2 ^ i else v - 2 ^ i

/-- 1 for true, 0 for false. -/
def b2n (b : Bool) : Nat := if b then 1 else 0

/-- A value of 0 is taken as 1, as many field meanings state. -/
def or1 (v : Nat) : Nat := if v = 0 then 1 else v

/-- The number of set bits among the low `n` bits of `v`. -/
def popcount (n v : Nat) : Nat := ((List.range n).filter (natBit v)).length

/-- The 64-bit number whose low and high words are `lo` and `hi` (00 R11). -/
def hiLo (hi lo : Nat) : Nat := hi * 4294967296 + lo

/-- `a` placed in the list sorted by rising key, after the entries of the same key. -/
def insertBy {α : Type} (key : α → Nat) (a : α) : List α → List α
  | [] => [a]
  | b :: bs => if key a < key b then a :: b :: bs else b :: insertBy key a bs

/-- The list sorted by rising key; entries of one key keep their order. -/
def sortBy {α : Type} (key : α → Nat) : List α → List α
  | [] => []
  | a :: as => sortBy.go key [a] as
where
  go (key : α → Nat) (acc : List α) : List α → List α
    | [] => acc
    | a :: as => go key (insertBy key a acc) as

/-- The first element of the list with the largest value; none of an empty list. -/
def maxBy {α : Type} (val : α → Nat) : List α → Option α
  | [] => none
  | a :: as => some (as.foldl (fun m b => if val m < val b then b else m) a)

/-- The first element of the list with the smallest value; none of an empty list. -/
def minBy {α : Type} (val : α → Nat) : List α → Option α
  | [] => none
  | a :: as => some (as.foldl (fun m b => if val b < val m then b else m) a)

/-- ⌈a / b⌉. -/
def ceilDiv (a b : Nat) : Nat := (a + b - 1) / b

end Sys2Proof.Machine
end

