-- ==== Sys2Proof/Machine/Codes.lean ====
section
/-!
DEFINITION. Status codes and event codes toward control software (00 R14, Table 0-8), transcribed from the code tables of
the chapters (Tables 2-17, 3-12, 4-8, 5-13, 6-6, 7-8, 8-16, 9-17, 10-10, 11-17, 12-9, 13-14, 14-7, 15-14, 16-14, 17-12, 18-9, 19-5).
-/

namespace Sys2Proof.Machine

def St.ITN_CRC : Nat := 0x0301
def St.ITN_SIGNATURE : Nat := 0x0302
def St.ITN_FORMAT : Nat := 0x0303
def St.ITN_TARGET : Nat := 0x0304
def St.ITN_CATALOGUE : Nat := 0x0305
def St.ITN_PLAN_INVALID : Nat := 0x0306
def St.ITN_NOT_SUCCESSOR : Nat := 0x0307
def St.ITN_CAPACITY : Nat := 0x0308
def St.ITN_NO_VARIANT : Nat := 0x0309
def St.ITN_BUSY : Nat := 0x030A
def Ev.ITN_SWAPPED : Nat := 0x0381
def Ev.ITN_VARIANT_ENTERED : Nat := 0x0382
def Ev.ITN_VARIANT_EXITED : Nat := 0x0383
def Ev.ITN_CHANNEL_SUSPENDED : Nat := 0x0384
def Ev.ITN_CHANNEL_RESUMED : Nat := 0x0385
def Ev.ITN_CHANNEL_MOVED : Nat := 0x0386
def Ev.ITN_CLUSTER_IDLED : Nat := 0x0387
def Ev.ITN_BUDGET_OVERRUN : Nat := 0x0388
def St.CFG_CONFLICT : Nat := 0x0001
def St.GEN_OPCODE : Nat := 0x0002
def St.GEN_FIELD : Nat := 0x0003
def St.GEN_NOT_ACTIVE : Nat := 0x0004
def St.GEN_STATE : Nat := 0x0005
def St.GEN_DMA : Nat := 0x0006
def St.RING_FORMAT : Nat := 0x0101
def St.RING_STATE : Nat := 0x0102
def St.RING_SELF : Nat := 0x0103
def Ev.RING_DOORBELL_ERR : Nat := 0x0181
def Ev.RING_DMA_ERR : Nat := 0x0182
def Ev.RING_EVENTS_LOST : Nat := 0x0183
def Ev.RING_STOPPED : Nat := 0x0184
def St.CHAN_CAPACITY : Nat := 0x0201
def St.CHAN_TABLE_FULL : Nat := 0x0202
def St.CHAN_STALE_HANDLE : Nat := 0x0203
def St.CHAN_EXISTS : Nat := 0x0204
def St.CHAN_NO_HOST : Nat := 0x0205
def St.CHAN_NO_VOLUME : Nat := 0x0206
def St.CHAN_CLASS : Nat := 0x0207
def St.CHAN_KEY_MISMATCH : Nat := 0x0208
def St.CHAN_CLOSING : Nat := 0x0209
def St.CHAN_SUSPENDED : Nat := 0x020A
def St.CHAN_HOST_EXISTS : Nat := 0x020B
def St.CHAN_HOST_IN_USE : Nat := 0x020C
def St.MGT_BUSY_RETRY : Nat := 0x0C01
def St.MGT_RESET_ABORTED : Nat := 0x0C02
def St.MAC_NO_PORT : Nat := 0x0010
def St.MAC_ADDR_IN_USE : Nat := 0x0011
def St.MAC_ADDR_BUSY : Nat := 0x0012
def Ev.MAC_LINK_UP : Nat := 0x0081
def Ev.MAC_LINK_DOWN : Nat := 0x0082
def Ev.MAC_PORT_LOST : Nat := 0x0083
def Ev.MAC_FEC_DEGRADED : Nat := 0x0084
def Ev.MAC_PTP_STATE : Nat := 0x0085
def St.RDM_NO_QP : Nat := 0x0401
def St.RDM_QP_STATE : Nat := 0x0402
def Ev.RDM_QP_CONNECTED : Nat := 0x0481
def Ev.RDM_QP_ERROR : Nat := 0x0482
def Ev.RDM_QP_FREED : Nat := 0x0483
def Ev.RDM_CM_REJECT : Nat := 0x0484
def Ev.SWC_MAC_TABLE_FULL : Nat := 0x0091
def Ev.SWC_ECC_UNCORR : Nat := 0x0092
def Ev.SWC_HOLD_EXHAUSTED : Nat := 0x0093
def Ev.CMD_CTRL_CREATED : Nat := 0x0581
def Ev.CMD_CTRL_ENDED : Nat := 0x0582
def Ev.CMD_KATO_EXPIRED : Nat := 0x0583
def Ev.CMD_RESERVATION : Nat := 0x0584
def Ev.CMD_SELFTEST_DONE : Nat := 0x0585
def Ev.CMD_LOCK_EXHAUSTED : Nat := 0x0586
def Ev.CMD_WAYBILL_EXHAUSTED : Nat := 0x0587
def St.LAY_POOL_EXISTS : Nat := 0x0601
def St.LAY_NO_POOL : Nat := 0x0602
def St.LAY_NO_POOL_CLASS : Nat := 0x0603
def St.LAY_BAY_UNAVAILABLE : Nat := 0x0604
def St.LAY_MEMBER_FORMAT : Nat := 0x0605
def St.LAY_CAPACITY : Nat := 0x0606
def St.LAY_POOL_BUSY : Nat := 0x0607
def St.LAY_REDUNDANCY : Nat := 0x0608
def St.LAY_MEMBER_STATE : Nat := 0x0609
def St.LAY_VOL_EXISTS : Nat := 0x060A
def St.LAY_POOL_FULL : Nat := 0x060B
def St.LAY_KEY_ABSENT : Nat := 0x060C
def St.LAY_NGUID : Nat := 0x060D
def St.LAY_VOL_BUSY : Nat := 0x060E
def St.LAY_NO_VOLUME : Nat := 0x0612
def Ev.LAY_POOL_STATE : Nat := 0x0681
def Ev.LAY_VOL_READY : Nat := 0x0682
def Ev.LAY_DIRTY_FULL : Nat := 0x0683
def Ev.LAY_RESYNC_START : Nat := 0x0684
def Ev.LAY_RESYNC_DONE : Nat := 0x0685
def Ev.LAY_DIRTY_LOST : Nat := 0x0686
def Ev.LAY_DESTAGE_FAIL : Nat := 0x0687
def Ev.LAY_IMPORT_DONE : Nat := 0x0688
def St.MAINT_QUEUED : Nat := 0x060F
def St.MAINT_ACTIVE : Nat := 0x0610
def St.MAINT_NONE : Nat := 0x0611
def Ev.MAINT_STARTED : Nat := 0x0689
def Ev.MAINT_PREEMPTED : Nat := 0x068A
def Ev.MAINT_RESUMED : Nat := 0x068B
def Ev.MAINT_DONE : Nat := 0x068C
def Ev.LAY_STRIPE_LOST : Nat := 0x068D
def Ev.LAY_LOST_TABLE_FULL : Nat := 0x068E
def St.CIP_LEN : Nat := 0x0701
def St.CIP_SLOT_STATE : Nat := 0x0702
def St.CIP_NO_KEK : Nat := 0x0703
def St.CIP_UNWRAP : Nat := 0x0704
def St.CIP_AUTH : Nat := 0x0705
def St.CIP_KEY_WEAK : Nat := 0x0706
def St.CIP_KEY_MISMATCH : Nat := 0x0707
def St.CIP_KEY_IN_USE : Nat := 0x0708
def St.CIP_ALARMED : Nat := 0x0709
def St.CHK_LEN : Nat := 0x070A
def St.CHK_DMA : Nat := 0x070B
def Ev.CIP_ALARM : Nat := 0x0781
def Ev.CIP_ZEROISED : Nat := 0x0782
def Ev.CIP_HALT : Nat := 0x0783
def Ev.CIP_REQ_REFUSED : Nat := 0x0784
def Ev.CHK_INTEGRITY : Nat := 0x0785
def Ev.CHK_LINE_POISONED : Nat := 0x0786
def Ev.CHK_ALIVE_GAP : Nat := 0x0787
def Ev.DRV_BAY_ONLINE : Nat := 0x0881
def Ev.DRV_BAY_RECOVERING : Nat := 0x0882
def Ev.DRV_BAY_FAILED : Nat := 0x0883
def Ev.DRV_LINK_DEGRADED : Nat := 0x0884
def Ev.DRV_HEALTH : Nat := 0x0885
def Ev.DRV_BAY_REMOVED : Nat := 0x0886
def St.BAY_NO_BAY : Nat := 0x0901
def St.BAY_NOT_PRESENT : Nat := 0x0902
def St.BAY_CURVE_INVALID : Nat := 0x0903
def St.BAY_DAMAGED_STATE : Nat := 0x0904
def St.BAY_DAMAGE_PRESENT : Nat := 0x0905
def Ev.BAY_PRESENCE : Nat := 0x0981
def Ev.BAY_POWER_GOOD : Nat := 0x0982
def Ev.BAY_TRIP : Nat := 0x0983
def Ev.BAY_DAMAGED : Nat := 0x0984
def Ev.BAY_COOL_WAIT : Nat := 0x0985
def Ev.BAY_POWER_OFF : Nat := 0x0986
def St.ENV_DUMP_ACTIVE : Nat := 0x0A01
def Ev.ENV_FAN : Nat := 0x0A81
def Ev.ENV_TEMP : Nat := 0x0A82
def Ev.ENV_LOOP_STALL : Nat := 0x0A83
def Ev.ENV_HOLD : Nat := 0x0A84
def Ev.ENV_DUMP_REPORT : Nat := 0x0A85
def Ev.ENV_SHUTDOWN_DONE : Nat := 0x0A86
def St.PAIR_NOT_PAIRED : Nat := 0x0B01
def St.PAIR_STATE : Nat := 0x0B02
def St.PAIR_LINK_DOWN : Nat := 0x0B03
def St.PAIR_PEER_MISMATCH : Nat := 0x0B04
def St.PAIR_BUSY : Nat := 0x0B05
def St.PAIR_JOIN_ABORTED : Nat := 0x0B06
def St.PAIR_PEER_CHECK : Nat := 0x0B07
def St.PAIR_REHEARSE_REFUSED : Nat := 0x0B08
def St.PAIR_NOT_RELEASED : Nat := 0x0B09
def Ev.PAIR_LINK_STATE : Nat := 0x0B81
def Ev.PAIR_ROLE : Nat := 0x0B82
def Ev.PAIR_LOCKSTEP : Nat := 0x0B83
def Ev.PAIR_STANDBY_LOST : Nat := 0x0B84
def Ev.PAIR_DIVERGED : Nat := 0x0B85
def Ev.PAIR_TAKEOVER_DONE : Nat := 0x0B86
def Ev.PAIR_REHEARSE_DONE : Nat := 0x0B87
def St.MGT_FW_BUSY : Nat := 0x0C03
def St.MGT_FW_FORMAT : Nat := 0x0C04
def St.MGT_FW_SIGNATURE : Nat := 0x0C05
def St.MGT_FW_KEY_REVOKED : Nat := 0x0C06
def St.MGT_FW_SVN : Nat := 0x0C07
def St.MGT_FW_HASH : Nat := 0x0C08
def St.MGT_FW_FLASH : Nat := 0x0C09
def St.MGT_FW_NONE : Nat := 0x0C0A
def St.MGT_FW_NEEDS_RESET : Nat := 0x0C0B
def St.MGT_FW_PEER : Nat := 0x0C0C
def Ev.MGT_BOOT_REPORT : Nat := 0x0C81
def Ev.MGT_WATCHDOG : Nat := 0x0C82
def Ev.MGT_FW_STAGED : Nat := 0x0C83
def Ev.MGT_FW_ACTIVATED : Nat := 0x0C84
def Ev.MGT_FW_FALLBACK : Nat := 0x0C85
def Ev.MGT_FLASH_DEGRADED : Nat := 0x0C86
def Ev.MGT_SVN_COMMITTED : Nat := 0x0C87
def Ev.MGT_SPDM_SESSION : Nat := 0x0C88
def Ev.CRS_RESET_REPORT : Nat := 0x00A1
def Ev.CRS_CLOCK : Nat := 0x00A2
def Ev.CRS_CLUSTER_CHECK : Nat := 0x00A3
def St.TEL_SLOT_SMALL : Nat := 0x0D01
def Ev.TEL_DUMP_READY : Nat := 0x0D81
def Ev.TEL_TRACE_LOST : Nat := 0x0D82
def Ev.TEL_ERRLOG_SUPPRESSED : Nat := 0x0D83
def Ev.GLB_LOCK_VIOLATION : Nat := 0x00B1
def Ev.HBM_STACK_LOST : Nat := 0x00B2
def St.OK : Nat := 0

end Sys2Proof.Machine
end

