-- ==== Sys2Proof/Config.lean ====
section
/-!
DEFINITION. What an implementation fixes and the spec leaves open: the identity fuses, the values drawn from the generator or
left undefined (free values), and the cryptographic primitives, which the spec takes from their standards. Every one is a
constant without a body: nothing can be proved of its value.
-/

namespace Sys2Proof.Config

open Sys2Proof

/-- Character `i` of the fused lot (00 R4), 0 to 5. -/
opaque lotChar : Nat → Byte
/-- The fused wafer number (00 R4). -/
opaque wafer : BitVec 5
/-- The fused die X and die Y (00 R4). -/
opaque dieX : Byte
opaque dieY : Byte

/-- Free value number `n`: a value the spec leaves open, drawn once per use. -/
opaque freeValue : Nat → BitVec 64

/-- Whether routine `code` of the signed catalogue flags its memory-lane request as a prefetch (02 R38): the spec does not list the catalogue's
flags. -/
opaque prefetches : (code : Nat) → Bool

/-- SHA-384 (FIPS 180-4), 48 bytes. -/
opaque sha384 : List Byte → List Byte
/-- ECDSA P-384 verification (FIPS 186-5) of a digest under a public key X ‖ Y with signature r, s. -/
opaque ecdsaVerify : (key digest r s : List Byte) → Bool
/-- The point X ‖ Y lies on P-384 (16 R487). -/
opaque onCurve : List Byte → Bool
/-- ECDSA P-384 signature of a digest under a key seed (16 R488). -/
opaque ecdsaSign : (seed digest : List Byte) → List Byte
/-- HKDF with SHA-384 over a secret with a label, `n` bytes (16 R483, R489). -/
opaque hkdf : (secret label : List Byte) → Nat → List Byte
/-- Public keys of the Walsis firmware signing keys 0 to 3, held by the boot ROM as digests (16 R478). -/
opaque fwKey : Nat → List Byte
/-- The unique device secret of the fuse block (16 R482). -/
opaque deviceSecret : List Byte
/-- Measurement 1: the digest of the boot ROM (16 Table 16-7). -/
opaque romDigest : List Byte

/-- AES-256 of one 16-byte block under a 32-byte key, and its inverse (FIPS 197). -/
opaque aes256 : (key block : List Byte) → List Byte
opaque aes256Inv : (key block : List Byte) → List Byte
/-- RFC 3394 key unwrap with the default initial value; none when the integrity check fails. -/
opaque unwrapKey : (kek blob : List Byte) → Option (List Byte)
/-- AES-256-GCM decryption (SP 800-38D); none when the tag is wrong. -/
opaque gcmOpen : (key iv aad ct tag : List Byte) → Option (List Byte)

/-- AES-256-GCM encryption: ciphertext and tag. -/
opaque gcmSeal : (key iv aad plain : List Byte) → List Byte × List Byte
/-- ECDH on P-384: the share X ‖ Y of a seed, and the secret of a seed with the peer's share (15 R436). -/
opaque ecdhShare : (seed : List Byte) → List Byte
opaque ecdhSecret : (seed share : List Byte) → List Byte
/-- The AES-256 key of the direction sent by slot `slot`, derived by HKDF with SHA-384 from the shared secret and the shares of slot 0 and
slot 1 (15 R436; its label is not given). -/
opaque linkKey : (secret share0 share1 : List Byte) → (slot : Nat) → List Byte
/-- The export master secret of an SPDM session from the requester's share and the responder's drawn seed; and what a signed SPDM response
signs, of its nonce and its blocks (16 R488, R489; DSP0274 gives both). -/
opaque spdmSecret : (share : List Byte) → (seed : Nat) → List Byte
opaque spdmTranscript : (nonce : List Byte) → (blocks : List (Nat × List Byte)) → List Byte
/-- The coding of KEYX and MGT payloads (15 Table 15-3 gives their content, not their coding). -/
opaque keyxBytes : Keyx → List Byte
opaque keyxRead : List Byte → Option Keyx
/-- A message as the payloads of its frames; and what payloads in a row say, none while the message is incomplete. -/
opaque mgtBytes : MgtMsg → List (List Byte)
opaque mgtRead : List (List Byte) → Option MgtMsg
/-- What a device certificate chain says (16 R483), and this controller's own chain with an alias key of a seed. -/
opaque devCert : (chain : List Byte) → Option DevCert
opaque ownChain : (aliasSeed : List Byte) → List Byte
/-- The 16 B event record of the digest (15 R451 gives its fields, not their layout): its kind and fields. -/
opaque digestRecord : (kind : Nat) → (fields : List Nat) → List Byte

/-- The HBM stack of the cache line of a slot, and of a volume map entry: 01 Table 1-3 interleaves them over the four stacks in 4 KiB units
from an origin that it does not give. Part of the staging of pool work `id` lies on stack `n`. -/
opaque lineStack : (slot : Nat) → Nat
opaque mapStack : (entry : Nat) → Nat
opaque stagingOn : (id n : Nat) → Bool

/-- Header octets of a transmitted IP packet that the spec leaves open: 0 and 1 the IPv4 identification, 2 and 3 its flags and
fragment offset, 4 the TTL or hop limit, 5 to 7 the low 20 bits of the IPv6 flow label. -/
opaque ipOctet : Nat → Byte

/-- Octet `i` of the MAD of a CM message, coded as the listed numbers (05 R144 to R147 give what the messages say, and take their coding from
InfiniBand); octet `i` of a PTP Delay_Req after its first fields (04 R135: IEEE 1588 gives its coding). -/
opaque cmOctet : (message : List Nat) → (i : Nat) → Byte
opaque ptpOctet : (i : Nat) → Byte
/-- The packet sequence number and UDP source port of a CM packet, which has no context of its own. -/
opaque cmPsn : (message : List Nat) → Nat
opaque cmPort : (message : List Nat) → Nat

/-- Byte `i` of a staging buffer that the drive has not written (12 R372). -/
opaque staleByte : Nat → Byte
/-- Byte `i` of a record of kind `kind` that holds the listed values (0 volume, 64 B; 1 reservation, 1 KiB; 3 maintenance, 16 KiB): 09 R275 and
Table 9-9 and 10 R311 give their sizes and content, not their coding. -/
opaque mapByte : (kind : Nat) → (content : List Nat) → (i : Nat) → Byte
/-- Where page `page` of kind `kind` lies in the map store of a member, in pages of 16 KiB: 09 Table 9-2 gives the store's place and size, not
its layout. -/
opaque storePage : (kind page : Nat) → Nat
/-- Byte `i` of a directory entry, copy header or dump header of a dump that holds the listed values: 09 R281 and R295 give its content,
not its coding. -/
opaque dumpByte : (content : List Nat) → (i : Nat) → Byte
/-- Byte `i` of a log page field that this specification does not fill, for draw `n` (08 R225: reported to the NVMe base specification). -/
opaque logByte : (n i : Nat) → Byte

/-- The reservation key that a controller forms from its identity fuses (three words; 15 R460 does not say how): a free value. -/
opaque drvKey : Nat → Nat → Nat → Nat

end Sys2Proof.Config
end

