-- ==== Sys2Proof/Machine/State.lean ====
section
/-!
DEFINITION. The state of the block as plain data: the register file, the hidden state of every subsystem that the chapters
of spec/ give it, the always-on domain, what has left the chip, and the queue of waiting commands; and `State.reset`.
Tables (lists of key and value) are in the canonical form of Machine/Tab.lean; each has its value for an unlisted key beside it.
-/

namespace Sys2Proof.Machine

open Sys2Proof

/-- Why a step stops the machine. No command of this block ends so: the spec gives each of them an effect, or, where its
condition does not hold, leaves the state unchanged (00, Tables of sequences and state machines). -/
inductive Fault where
  /-- Raised by nothing: the spec names no machine stop. Safe: no run ends in it. -/
  | none
deriving DecidableEq, Repr

/-- Why a command has no meaning. -/
inductive Refusal where
  /-- Raised by `exec` for a command whose meaning is not written yet. Safe: nothing can be proved of it. -/
  | notModelled (mnemonic : String)
deriving DecidableEq, Repr


/-! ### Control host interface (03) -/

/-- A command descriptor (03 Table 3-4), with the ring it came from, the fetch tick and its place in fetch order. -/
structure Desc where
  ring : Nat
  seq : Nat
  fetchTick : Nat
  opcode : Nat
  flags : Nat
  cmdId : Nat
  handle : Nat
  /-- The 56 bytes from offset 8 on. -/
  ops : List Byte
  /-- A FENCE held it back when it was fetched: it joined its level of the management work queue later (R91). -/
  late : Bool := false
  /-- The bays of a POOL_CREATE, once its bay list has been read at its start (R95). -/
  bays : Option (List Nat) := none
deriving DecidableEq, Repr

/-- A completion entry (03 Table 3-5). -/
structure Cpl where
  status : Nat
  cmdId : Nat
  ring : Nat
  sqHead : Nat
  result0 : Nat
  result1 : Nat
  backoff : Nat
  phase : Bool
deriving DecidableEq, Repr

/-- An event entry (03 Table 3-6), without its phase. -/
structure EvEntry where
  code : Nat
  seq : Nat
  tick : Nat
  v0 : Nat
  v1 : Nat
  v2 : Nat
deriving DecidableEq, Repr

/-- What a ring holds beside its registers (03 R80 to R90, R98, R99). Ring 64 is the event ring. -/
structure Ring where
  /-- ENTRIES in force since the ring was enabled. -/
  entries : Nat
  /-- Last accepted command doorbell (R82): the producer index. -/
  producer : Nat
  /-- Last accepted completion or event doorbell (R84): the consumer index. -/
  cons : Nat
  phase : Bool
  /-- Descriptors fetched and not completed (R90). -/
  outst : Nat
  /-- Entries posted and not signalled, and the tick of the first of them (R98). -/
  unsig : Nat
  firstUnsig : Nat
  /-- A message has been sent and no consumer doorbell has followed (R98). -/
  sent : Bool
  /-- ENABLE has been written 0 and the ring is not yet DISABLED (R80). -/
  draining : Bool
  /-- The RING_DELETE that waits for this ring (R102). -/
  deleting : Option Desc
  /-- Ring registers accept writes whatever GLB_LOCK, after STOPPED or ERROR (R99). -/
  resetup : Bool
  /-- Completions held back in ERROR (Table 3-3). -/
  held : List Cpl
deriving DecidableEq, Repr

def Ring.reset : Ring :=
  { entries := 0, producer := 0, cons := 0, phase := true, outst := 0, unsig := 0, firstUnsig := 0, sent := false,
    draining := false, deleting := none, resetup := false, held := [] }

/-- A host entry (03 R103); an empty NQN means that the index holds no host. -/
structure HostEnt where
  nqn : List Byte
  hostid : List Byte
deriving DecidableEq, Repr

def HostEnt.reset : HostEnt := { nqn := [], hostid := [] }

/-- Channel states (03 Table 3-9). -/
inductive ChanSt where
  | free | opened | suspended | closing
deriving DecidableEq, Repr

/-- A channel index (03 R104 to R110; its admission credit in 1/256 commands, 02 R45). -/
structure Chan where
  st : ChanSt
  gen : Nat
  host : Nat
  nsid : Nat
  cls : Nat
  /-- The classes it has still to leave, each when its last waybill admitted under it retires (R109). -/
  oldCls : List Nat
  cluster : Nat
  home : Nat
  keySlot : Nat
  policy : Nat
  attr : Nat
  meterMode : Nat
  cir : Nat
  pir : Nat
  cbs : Nat
  pbs : Nat
  node : Nat
  weight : Nat
  credit : Nat
  /-- Creation order, for R67's oldest first. -/
  born : Nat
  /-- The CHAN_DESTROY that waits for the channel to become FREE, and the commands it answered (R110). -/
  destroy : Option Desc
  answered : Nat
  /-- The tick at whose seam it became CLOSING. -/
  closedAt : Nat
  /-- Toll meter (07 R202): Tc and Tp or Te in 1/1,000 B, the colour of the last command metered, and the deferral queue as
  capsule ids, oldest first. -/
  tc : Nat
  tp : Nat
  colour : Nat
  defq : List Nat
  /-- FIRST_ENTRY and the slab count of its volume (09 R275). -/
  firstEntry : Nat
  slabCount : Nat
deriving DecidableEq, Repr

def Chan.reset : Chan :=
  { st := .free, gen := 1, host := 0, nsid := 0, cls := 0, oldCls := [], cluster := 0, home := 0, keySlot := 0,
    policy := 0, attr := 0, meterMode := 0, cir := 0, pir := 0, cbs := 0, pbs := 0, node := 0, weight := 0, credit := 0,
    born := 0, destroy := none, answered := 0, closedAt := 0, tc := 0, tp := 0, colour := 0, defq := [], firstEntry := 0, slabCount := 0 }

/-- The configuration space of the control host endpoint, as far as 00 Table 0-4 and Table 3-1 (R74) give its values: identity, class code,
Interrupt Pin, BAR0 (its size in bytes; 64-bit; prefetchable), the expansion ROM and the other BARs, the payload and read request sizes supported
in bytes, tags of 10 bits, MSI-X vectors with the BAR0 offsets of table and pending bits, and the capabilities that are there. Configuration
reads of the control host return it; nothing changes it. -/
structure PciFn where
  vendor : Nat
  device : Nat
  revision : Nat
  classCode : Nat
  intPin : Nat
  bar0Size : Nat
  bar0Wide : Bool
  bar0Prefetch : Bool
  otherBars : Bool
  mps : Nat
  mrrs : Nat
  tags10 : Bool
  vectors : Nat
  msixTable : Nat
  msixPba : Nat
  msi : Bool
  aer : Bool
  flr : Bool
  sriov : Bool
  ats : Bool
  pri : Bool
  /-- The link: lanes, and the highest rate in GT/s. -/
  lanes : Nat
  rate : Nat
deriving DecidableEq, Repr

def PciFn.reset : PciFn :=
  { vendor := 0x1E9D, device := 0x9600, revision := 0x10, classCode := 0x058000, intPin := 0, bar0Size := 67108864, bar0Wide := true,
    bar0Prefetch := false, otherBars := false, mps := 512, mrrs := 4096, tags10 := true, vectors := 2048, msixTable := 0x00440000,
    msixPba := 0x00448000, msi := false, aer := true, flr := true, sriov := false, ats := false, pri := false, lanes := 8, rate := 32 }

/-- The hidden state of the control host interface. -/
structure HostIf where
  rings : List (Nat × Ring)
  /-- The management work queue: descriptors fetched and not started, in fetch order (R91). -/
  queue : List Desc
  /-- Descriptors started and not completed (R93, R95). -/
  started : List Desc
  /-- Started descriptors whose change takes effect in the change phase of the next seam (R21). -/
  atSeam : List Desc
  fetchSeq : Nat
  /-- The SEQ of the next event (R88). -/
  evSeq : Nat
  /-- Events not yet posted, oldest first (R89). -/
  backlog : List EvEntry
  /-- Events discarded since the last RING_EVENTS_LOST (R89). -/
  lostOwed : Nat
  hosts : List (Nat × HostEnt)
  chans : List (Nat × Chan)
  /-- Indices never allocated begin here; `freed` holds the returned ones, oldest first (R106). -/
  chanFresh : Nat
  chanFreed : List Nat
  chanBorn : Nat
  /-- High words latched by a low-word read (00 R11), by offset of the high word. -/
  latched : List (Nat × Option Word)
  /-- Fetching goes round the rings (R90): the ring served last, and the descriptors fetched from it in its turn. -/
  turn : Nat
  turnCount : Nat
  fn : PciFn
deriving DecidableEq, Repr

def HostIf.reset : HostIf :=
  { rings := [], queue := [], started := [], atSeam := [], fetchSeq := 0, evSeq := 0, backlog := [], lostOwed := 0,
    hosts := [], chans := [], chanFresh := 0, chanFreed := [], chanBorn := 0, latched := [], turn := 63, turnCount := 64, fn := PciFn.reset }


/-! ### Itinerary (02) -/

/-- Image buffer states (02 Table 2-9). -/
inductive BufSt where
  | empty | loading | ready | pending | running
deriving DecidableEq, Repr

/-- A class table entry (02 Table 2-6), with its capacity on each cluster in the full plan. -/
structure Cls where
  id : Nat
  kind : Nat
  prio : Nat
  commands : Nat
  /-- Commands per tick in 1/256. -/
  quota : Nat
  maxXfer : Nat
  bounds : List Nat
  pool : Nat
  bandwidth : Nat
  caps : List Nat
deriving DecidableEq, Repr

/-- A variant entry (02 R56) with its array of capacities, twelve per class in the order of the class table. -/
structure Vart where
  id : Nat
  kind : Nat
  index : Nat
  mask : Nat
  plan : Nat
  caps : List Nat
deriving DecidableEq, Repr

/-- A chain (02 R54): its identifier, its worst-case cycles, and its leg descriptors as code, leg and extra. -/
structure Chain where
  id : Nat
  worst : Nat
  legs : List (Nat × Nat × Nat)
deriving DecidableEq, Repr

/-- What the controller reads from a checked image (02 R53 to R58). -/
structure Image where
  id : Nat
  base : Nat
  flags : Nat
  tlanes : Nat
  chains : List Chain
  classes : List Cls
  varts : List Vart
  /-- Per plan, and within it per class in table order: the clusters (bits 11:0) on which the plan has runs of the class. -/
  runs : List (List Nat)
  /-- Per plan: the pairs of class and chain for which it has runs. -/
  uses : List (List (Nat × Nat)) := []
  /-- The SHA-384 digest of the whole image, its measurement (16 Table 16-7). -/
  meas : List Byte
deriving DecidableEq, Repr

def Image.blank : Image :=
  { id := 0, base := 0, flags := 0, tlanes := 0, chains := [], classes := [], varts := [], runs := [], meas := [] }

/-- An image buffer in HBM: the bytes, and what the checks of R59 read from them (`Image.blank` while EMPTY or LOADING). -/
structure ImgBuf where
  st : BufSt
  bytes : List Byte
  img : Image
  /-- The IMG_LOAD that waits for the load to end; none when ITN_CTL started it. -/
  loader : Option Desc
  /-- Bytes to load, checked against IMAGE_SIZE. -/
  loadSize : Nat
deriving DecidableEq, Repr

def ImgBuf.reset : ImgBuf := { st := .empty, bytes := [], img := Image.blank, loader := none, loadSize := 0 }

/-- A slot run of the current tick (02 R31, Table 2-7): its engine (8 × cluster + engine in cluster), its first slot and its slots, its class and
chain, the items that it can still start, and whether it has started one. -/
structure SlotRun where
  engine : Nat
  pos : Nat
  len : Nat
  cls : Nat
  chain : Nat
  left : Nat
  used : Bool := false
deriving DecidableEq, Repr

/-- A fence cause detected in this tick and not yet acted on (02 R66). -/
structure PendFault where
  cluster : Nat
  cause : Nat
  engine : Nat
deriving DecidableEq, Repr

/-- The hidden state of the sequencer. -/
structure Itn where
  bufA : ImgBuf
  bufB : ImgBuf
  /-- START has been accepted and the sequencer runs (02 R60, R64). -/
  running : Bool
  /-- START has been accepted in this tick: tick 0 begins at the next boundary. -/
  starting : Bool
  /-- Buffer of the running image: false A, true B. -/
  activeB : Bool
  /-- Ticks since START (ITN_TICK). -/
  tick : Nat
  /-- 0 none, 1 at the next seam, 2 at the cycle end (02 R62). -/
  swapPend : Nat
  /-- The IMG_SWAP that waits for the swap. -/
  swapDesc : Option Desc
  variant : Nat
  /-- Fault kind and index of the variant in force (02 R56). -/
  faultKind : Nat
  faultIndex : Nat
  pendFaults : List PendFault
  /-- HBM stacks and network ports whose loss waits for its seam (02 R66). -/
  pendStacks : List Nat
  pendPorts : List Nat
  /-- VARIANT_EXIT waits for the next seam. -/
  exitDesc : Option Desc
  /-- A dump is to be entered at the next seam: 0 none, 1 power loss, 2 orderly shutdown, 3 fatal error (02 R64). -/
  dumpDue : Nat
  /-- The dump plan is in force (02 R65). -/
  dumpPlan : Bool
  /-- The sequencer has stopped after a dump, until the next chip reset (02 R64). -/
  stopped : Bool
  /-- The slot entries loaded for the current tick, as runs in engine and slot order (02 R27). -/
  slots : List SlotRun
  /-- The owner of each memory lane in the current tick, by lane number (02 R39, R58). -/
  owners : List Nat
  /-- The lane accounts of the current tick: bytes by class and stack (02 R39). -/
  laneUse : List (Nat × Nat × Nat)
  /-- Requests flagged as prefetches in the current tick: engine, class, stack and bytes; they count in the next tick's accounts (02 R38). -/
  prefetch : List (Nat × Nat × Nat × Nat)
  /-- Input posted in the current tick to the parity unit of each cluster, in bytes (02 R43). -/
  parityIn : List (Nat × Nat)
deriving DecidableEq, Repr

def Itn.reset : Itn :=
  { bufA := ImgBuf.reset, bufB := ImgBuf.reset, running := false, starting := false, activeB := false, tick := 0, swapPend := 0,
    swapDesc := none, variant := 0, faultKind := 0, faultIndex := 0, pendFaults := [], pendStacks := [], pendPorts := [],
    exitDesc := none, dumpDue := 0, dumpPlan := false, stopped := false, slots := [], owners := [], laneUse := [], prefetch := [], parityIn := [] }



/-! ### Network ports (04), serai (06) and egress (07) -/

/-- An address entry of a logical port (04 Table 4-3). -/
structure AddrEnt where
  family : Nat
  vlan : Nat
  prio : Nat
  dscp : Nat
  mac : List Byte
  pfx : Nat
  ip : List Byte
deriving DecidableEq, Repr

/-- A logical port beside its registers (04 Table 4-6): the step of bring-up that it waits for (0 none, 7 up, 8 up with its
lock lost), the link changes due at the next seam, and the count of failed calibrations in a row. -/
structure LPort where
  step : Nat
  pendUp : Bool
  /-- The reason of the MAC_LINK_DOWN due at the next seam; 0 none. -/
  pendDown : Nat
  calFails : Nat
  /-- The step from which bring-up goes on once the seam has taken the link down; none for step 3 (R128). -/
  next : Option Nat
  /-- Calibrated on every lane since the last port reset, and such a reset since the port was lost (R131). -/
  calOk : Bool
  resetDone : Bool
  /-- Answers of management firmware in the second that began at `ansTick` (R121). -/
  answers : Nat
  ansTick : Nat
deriving DecidableEq, Repr

def LPort.reset : LPort :=
  { step := 0, pendUp := false, pendDown := 0, calFails := 0, next := none, calOk := false, resetDone := false, answers := 0, ansTick := 0 }

/-- The account from which a frame's cells were taken (06 R179, R182 to R184, R192). -/
inductive Acct where
  | none
  /-- The ingress pair; `head` when they came from its headroom (Table 6-2 row 4). -/
  | ing (m i : Nat) (head : Bool)
  | mgt | pen | hold
  /-- The management area's reserve of 256 cells for control packets (R184). -/
  | ctl
  | convoy
deriving DecidableEq, Repr

/-- Where a received frame goes (04 Table 4-5, 06 R195). -/
inductive Dest where
  | drop | rdma | mgt | ptp
  | fwd (m : Nat)
  | flood (ms : List Nat)
deriving DecidableEq, Repr

/-- A received frame, without its FCS: its ingress pair, the length L of R181, its cells, its destination and its arrival. -/
structure Frame where
  id : Nat
  m : Nat
  i : Nat
  bytes : List Byte
  len : Nat
  cells : Nat
  acct : Acct
  dest : Dest
  bad : Bool
  /-- A pair convoy reserves cells for a copy (R191). -/
  pairCopy : Bool
  /-- Admission or the convoy refused it: as though it had never been received (06 R193). -/
  refused : Bool
  /-- CE was marked at its admission (06 R188). -/
  ce : Bool
  /-- Its arrival in core cycles since START (05 R172), and its receive timestamp, the PTP time of that instant in picoseconds (04 R134). -/
  stamp : Nat
  ptp : Nat
  /-- The entry of the port that it matched (rows 4 to 6). -/
  entry : Nat
deriving DecidableEq, Repr

/-- Why a CM REJ is sent (05 Table 5-3, R146, Table 5-4), by its InfiniBand CM name. -/
inductive RejReason where
  | invalidServiceId | consumerReject | invalidGid | staleConnection | noResources | noQpAvailable | timeout
deriving DecidableEq, Repr

/-- A CM message of management firmware (05 R144 to R147). -/
inductive CmMsg where
  | rep (qpn psn ord ird crqsize : Nat)
  | rej (reason : RejReason) (status : Nat)
  | dreq (qpn : Nat)
  | drep (qpn : Nat)
deriving DecidableEq, Repr

/-- The leaf of the egress hierarchy in which a frame waits (07 R215). -/
inductive Leaf where
  /-- The flow of a channel: its index, weight, and the node that it is a child of, if any. -/
  | flow (chan weight : Nat) (node : Option Nat)
  | ctl | mgt | fwd
deriving DecidableEq, Repr

/-- A frame queued for egress on logical port `m` and priority `i`. -/
structure EgFrame where
  id : Nat
  m : Nat
  i : Nat
  leaf : Leaf
  bytes : List Byte
  cells : Nat
  acct : Acct
  /-- Release under 06 R186 is permitted. -/
  ready : Bool
  bad : Bool
  /-- A held packet: its cells stay until it is acknowledged or freed (06 R184). -/
  held : Bool
  /-- Received frame whose tail is still to come: its id. -/
  src : Option Nat
  /-- A copy of a flood convoy: the id of the received frame. -/
  group : Option Nat
  /-- In a pair it leaves only after the receipt of the record of this tick (15 R448). -/
  wait : Option Nat
  /-- A CM packet: the remote address and QPN, and the message that its bytes code. -/
  cm : Option (List Byte × Nat × CmMsg) := none
deriving DecidableEq, Repr

/-- A flooded frame whose copies have not all left: its id, the copies left, its account and cells (06 R182). -/
structure Flood where
  id : Nat
  left : Nat
  acct : Acct
  cells : Nat
deriving DecidableEq, Repr

/-- A learned MAC table entry (06 R197): VLAN, MAC, port, and the tick of its last refresh. -/
structure MacEnt where
  vlan : Nat
  mac : List Byte
  port : Nat
  seen : Nat
deriving DecidableEq, Repr

/-- The hidden state of ports, serai and egress. -/
structure Net where
  /-- Address entries, keyed 4 × logical port + entry. -/
  addrs : List (Nat × Option AddrEnt)
  lports : List (Nat × LPort)
  /-- Remaining quanta of received pauses, keyed 8 × logical port + priority (04 R124). -/
  quanta : List (Nat × Nat)
  /-- Frames in reception, by logical port; frames waiting for the transport and for management firmware. -/
  rx : List (Nat × Option Frame)
  toRdma : List Frame
  toMgt : List Frame
  frameSeq : Nat
  /-- Numbers of frames queued for egress, their serai handles in a DEPART entry (15 R445); those of management firmware have their own. -/
  egSeq : Nat
  mgtSeq : Nat
  /-- Ingress occupancy o and headroom in use, keyed 8m + i (06 R182). -/
  occ : List (Nat × (Nat × Nat))
  holdCells : Nat
  mgtCells : Nat
  ctlCells : Nat
  convoyCells : Nat
  /-- Ticks of the last SWC_MAC_TABLE_FULL and SWC_HOLD_EXHAUSTED, and the learns refused since. -/
  fullLast : Option Nat
  fullCount : Nat
  holdLast : Option Nat
  learned : List MacEnt
  floods : List Flood
  /-- Frames queued for egress, in arrival order; the frame in transmission on each logical port. -/
  egress : List EgFrame
  tx : List (Nat × Option EgFrame)
  /-- Virtual time V and the largest F given, by scheduling point; start and finish tags, by child (07 R219). -/
  vt : List (Nat × (Nat × Nat))
  tags : List (Nat × (Nat × Nat))
  /-- BURST × 1,000 less the bucket, by shaper (07 R221). -/
  deficit : List (Nat × Nat)
  /-- PFC frames that wait for the frame in transmission of their port: port, priority and quanta (04 R125). -/
  pfcDue : List (Nat × Nat × Nat)
  /-- Discards that the spec counts without naming a counter, by `discardKey` (04 Table 4-5 rows 2, 3 and 7, R124, R129; 06 R195). -/
  discards : List (Nat × Nat)
  /-- The PTP time counter (04 R134) at the current tick's start, with its fraction in 10⁻⁹ ns, and its value latched at the last seam (R138). -/
  ptpSec : Nat
  ptpNs : Nat
  ptpFrac : Nat
  /-- The timestamp of the last transmitted PTP event message, in picoseconds (04 R134). -/
  ptpTx : Option Nat
  /-- The tick at whose seam the trim last changed (04 R136). -/
  trimTick : Option Nat
  seamSec : Nat
  seamNs : Nat
  /-- TMG_CHAN_SEL was written: a snapshot is due at the next seam (07). -/
  tmgSel : Bool
deriving DecidableEq, Repr

def Net.reset : Net :=
  { addrs := [], lports := [], quanta := [], rx := [], toRdma := [], toMgt := [], frameSeq := 0, egSeq := 0, mgtSeq := 0, occ := [], holdCells := 0,
    mgtCells := 0, ctlCells := 0, convoyCells := 0, fullLast := none, fullCount := 0, holdLast := none, learned := [],
    floods := [], egress := [], tx := [], vt := [], tags := [], deficit := [], pfcDue := [], discards := [], ptpSec := 0, ptpNs := 0, ptpFrac := 0, ptpTx := none,
    trimTick := none, seamSec := 0, seamNs := 0, tmgSel := false }

/-! ### RDMA transport (05) -/

/-- QP states (05 Table 5-4), in the order of their codes in RDM_QP_INFO. -/
inductive QpSt where
  | free | rtr | rts | drain | disc | err | timewait
deriving DecidableEq, Repr

/-- A change of QP state that waits for the change phase of the next seam (05 R147). -/
inductive QpNext where
  | none | rtr | rts | drain | disc
  /-- With a cause of Table 5-12. -/
  | err (cause : Nat)
  | timewait | free
deriving DecidableEq, Repr

/-- A held packet (05 R166): its first PSN, the PSNs it takes, the frame, its serai cells, and whether each resend carries an
inverted FCS (06 R198). -/
structure Held where
  psn : Nat
  count : Nat
  read : Bool
  chan : Option Nat
  bytes : List Byte
  cells : Nat
  stomp : Bool
  /-- Its serai handle. -/
  handle : Nat
deriving DecidableEq, Repr

/-- An armed transmission in the transmit queue of a QP (05 R152, R166): an RDMA WRITE (op 0), a SEND (1) or an RDMA READ (2),
with the bytes already released, the channel of its command and the ticks of its pin and of its egress fetch. -/
structure Msg where
  op : Nat
  chan : Option Nat
  wb : Nat
  data : List Byte
  len : Nat
  va : Nat
  rkey : Nat
  off : Nat
  /-- It holds a transmit pin up to and including this tick; 0 none. -/
  pinTo : Nat
  /-- It is not released before this tick (R154). -/
  after : Nat
  /-- The tick at which it was armed. -/
  armed : Nat
deriving DecidableEq, Repr

/-- An entry of READ_TABLE (05 Table 5-5). -/
structure ReadEnt where
  psn : Nat
  len : Nat
  wb : Nat
  got : Nat
  va : Nat
  rkey : Nat
  /-- A gap at this byte count has been reissued (R168: once for each gap). -/
  gap : Option Nat
deriving DecidableEq, Repr

/-- A fetch pending for a QP (05 R153): 0 for an arriving packet, 1 egress, 2 timer; the tick of its request, and of its grant. -/
structure Fetch where
  kind : Nat
  asked : Nat
  grant : Option Nat
deriving DecidableEq, Repr

/-- A QP index: its directory entry (05 R143) and its context (Table 5-5). -/
structure Qp where
  st : QpSt
  epoch : Nat
  /-- The changes of state due at the next seam, in their order. -/
  next : QpNext
  next2 : QpNext
  cause : Nat
  host : Nat
  qid : Nat
  lport : Nat
  entry : Nat
  pmtu : Nat
  prof : Nat
  rqpn : Nat
  rmac : List Byte
  vlan : Nat
  v6 : Bool
  rip : List Byte
  sport : Nat
  dscp : Nat
  probe : Bool
  nakSent : Bool
  reasm : Bool
  epsn : Nat
  msn : Nat
  recMsn : Nat
  recRead : Nat
  recEnd : Nat
  nextPsn : Nat
  unaPsn : Nat
  readsOut : Nat
  ord : Nat
  ird : Nat
  inReads : Nat
  retryCnt : Nat
  retryLeft : Nat
  rnrCnt : Nat
  rnrLeft : Nat
  rate : Nat
  /-- Tick of the ACK timeout, and of the end of an RNR wait; 0 when none. -/
  ackDeadline : Nat
  rnrResume : Nat
  /-- The PSN from which an RNR wait resends. -/
  rnrPsn : Nat
  bucket : Int
  baseRtt : Int
  lastQ : Int
  grad : Int
  inc : Nat
  probePsn : Nat
  probeStamp : Nat
  baseSet : Nat
  lastUpdate : Nat
  cnpHold : Nat
  cnpSent : Nat
  /-- The capsule in reassembly: its bytes, the account and cells of its packets, the DSCP of its first packet. -/
  rx : List Byte
  rxCells : List (Acct × Nat)
  rxDscp : Nat
  /-- Its serai handle. -/
  rxHandle : Nat
  reads : List ReadEnt
  held : List Held
  tx : List Msg
  /-- The first PSNs of held packets that are still to be resent, in PSN order (R167, R175). -/
  resend : List Nat
  -- Directory
  resident : Bool
  /-- The context's home in HBM (R149, R150): its 512 B as last written there. -/
  home : List Byte
  /-- The tick at whose start an expired deadline is acted on, its context being fetched already (R154). -/
  timerAt : Option Nat
  pen : List Frame
  fetch : Option Fetch
  /-- Order of last use; 0 never. -/
  used : Nat
  -- Due at the seam
  ackDue : Bool
  /-- Zero-length READ responses to release: PSN and MSN (R163, R164). -/
  readDue : List (Nat × Nat)
  -- Connection management
  /-- REPs or DREQs sent and the tick of the last. -/
  cmSent : Nat
  cmTick : Nat
  /-- A DREQ was the cause: no DREQ is sent on leaving ERR. -/
  dreqCause : Bool
  drainTick : Nat
  twTick : Nat
  destroy : Option Desc
  /-- Waybills in flight when it left RTS (R148). -/
  left : Nat
  -- Command engine (08)
  /-- Queue depth N (R230), capsules accepted, the same as of the last seam (R236), and bound by a Connect (R231). -/
  depth : Nat
  accepted : Nat
  sqhd : Nat
  bound : Bool
  /-- The key of its controller, once bound. -/
  ctrl : Nat
  /-- ERR with cause ENGINE is to be requested at the next seam (08 R232). -/
  engineErr : Bool
deriving DecidableEq, Repr

def Qp.reset : Qp :=
  { st := .free, epoch := 0, next := .none, next2 := .none, cause := 0, host := 0xFFFF, qid := 0, lport := 0, entry := 0, pmtu := 0, prof := 0,
    rqpn := 0, rmac := [], vlan := 0, v6 := false, rip := [], sport := 0, dscp := 0, probe := false, nakSent := false,
    reasm := false, epsn := 0, msn := 0, recMsn := 0, recRead := 0, recEnd := 0, nextPsn := 0, unaPsn := 0,
    readsOut := 0, ord := 0, ird := 0, inReads := 0, retryCnt := 0, retryLeft := 0, rnrCnt := 0, rnrLeft := 0, rate := 0,
    ackDeadline := 0, rnrResume := 0, rnrPsn := 0, bucket := 0, baseRtt := 0, lastQ := 0, grad := 0, inc := 0, probePsn := 0,
    probeStamp := 0, baseSet := 0, lastUpdate := 0, cnpHold := 0, cnpSent := 0, rx := [], rxCells := [], rxDscp := 0, rxHandle := 0, reads := [],
    held := [], tx := [], resend := [], resident := false, home := [], timerAt := none, pen := [], fetch := none, used := 0, ackDue := false, readDue := [],
    cmSent := 0, cmTick := 0, dreqCause := false, drainTick := 0, twTick := 0, destroy := none, left := 0, depth := 0,
    accepted := 0, sqhd := 0, bound := false, ctrl := 0, engineErr := false }

/-- The hidden state of the transport beside the QPs. -/
structure Rdm where
  qps : List (Nat × Qp)
  /-- The free list (R142): indices never allocated begin at `fresh`; `freed` holds the returned ones, oldest first. -/
  fresh : Nat
  freed : List Nat
  useSeq : Nat
  /-- Serai handles given to held packets and to capsules in reassembly. -/
  handles : Nat
  penCells : Nat
  /-- Context transfers of this tick, by stack (R153). -/
  xfers : List (Nat × Nat)
  /-- CM packets that wait for management firmware (Table 5-7 check 3). -/
  cm : List Frame
  /-- RDM_QP_SEL was written: a snapshot is due at the next seam. -/
  selDue : Bool
deriving DecidableEq, Repr

def Rdm.reset : Rdm :=
  { qps := [], fresh := 0, freed := [], useSeq := 0, handles := 0, penCells := 0, xfers := [], cm := [], selDue := false }



/-! ### Command engine (08) -/

/-- Waybill states (08 Table 8-9); FREE waybills are not listed. -/
inductive WbSt where
  | free | admitted | lockWait | locked | payload | media | fill | durableWait | committed | abandoned
deriving DecidableEq, Repr

/-- A unit of a volume taken from the cache, or about to be written to it: its valid sectors and its 4,160 B (09 R281, R286). -/
structure UnitPart where
  unit : Nat
  valid : Nat
  data : List Byte
  /-- It came from a DIRTY or DESTAGING line. -/
  dirty : Bool
deriving DecidableEq, Repr

/-- A unit of a stripe: its stripe, row, strip position, and its 4,160 B. -/
structure UnitVal where
  stripe : Nat
  row : Nat
  pos : Nat
  data : List Byte
deriving DecidableEq, Repr

/-- A waybill (08 Table 8-8), with the capsule it keeps and its progress through the transfer. -/
structure Waybill where
  st : WbSt
  write : Bool
  ordered : Bool
  abortReq : Bool
  filled : Bool
  hit : Bool
  restarted : Bool
  preempt : Bool
  lockValid : Bool
  /-- WRITE_THROUGH and CHECK_POLICY of its channel at admission (03 R109). -/
  wt : Bool
  policy : Nat
  cid : Nat
  qpn : Nat
  opcode : Nat
  chan : Nat
  cls : Nat
  pendingIo : Nat
  lock : Nat
  slba : Nat
  blocks : Nat
  capsule : Nat
  admitTick : Nat
  status : Nat
  progress : Nat
  tag : Nat
  volume : Nat
  cluster : Nat
  /-- The capsule: the 64 B command and the in-capsule data. -/
  sqe : List Byte
  icd : List Byte
  /-- An Abort that arrived when four Aborts of its controller were outstanding (R248). -/
  beyond : Bool
  /-- XFER_ARM has armed its completion or its data transfer to the host (02 R68, 08 R250). -/
  armed : Bool
  /-- Payload bytes accepted so far, and the data gathered for the host. -/
  data : List Byte
  /-- HBM writes posted and not complete (08 Table 8-9, ABANDONED). -/
  posted : Nat
  /-- The tick of the last CACHE_FILL leg 2 (15 R450). -/
  fillTick : Nat
  /-- DW0 of the completion. -/
  dw0 : Nat
  /-- For a trace record (18 Table 18-4): arrival in core cycles since START, PARKED, DEFERRED, and the stamps taken so far. -/
  arrive : Nat
  parked : Bool
  wasDeferred : Bool
  stamps : List (Nat × Nat)
  /-- Cells that it holds, by account. -/
  cells : List (Acct × Nat)
  /-- Cells of payload that RDMA READs have brought, until CACHE_FILL has posted its writes (06 R183). -/
  pay : List (Acct × Nat)
  /-- Where its units lie, resolved by MAP_XLATE leg 2: unit, stripe, row and position (09 R269). -/
  map : List (Nat × Nat × Nat × Nat)
  /-- Read data: units from the cache; units from members, those recovered, those that count as missing, those with a media
  error, and those still to be read, as stripe, row and position. -/
  lines : List UnitPart
  got : List UnitVal
  recov : List UnitVal
  bad : List (Nat × Nat × Nat)
  media : List (Nat × Nat × Nat)
  need : List (Nat × Nat × Nat)
  /-- Write data as it is stored, by unit; units for which it holds a reservation (09 R283). -/
  stored : List UnitPart
  resv : List Nat
  /-- Invocations of PI_CHECK posted, completed and armed by XFER_ARM; the lowest failing block with its status (11 R341, R343). -/
  piPosted : Nat
  piDone : Nat
  sent : Nat
  piFail : Option (Nat × Nat)
deriving DecidableEq, Repr

def Waybill.reset : Waybill :=
  { st := .free, write := false, ordered := false, abortReq := false, filled := false, hit := false, restarted := false,
    preempt := false, lockValid := false, wt := false, policy := 0, cid := 0, qpn := 0, opcode := 0, chan := 0, cls := 0, pendingIo := 0, lock := 0,
    slba := 0, blocks := 0, capsule := 0, admitTick := 0, status := 0, progress := 0, tag := 0, volume := 0, cluster := 0,
    sqe := [], icd := [], beyond := false, armed := false, data := [], posted := 0, fillTick := 0, dw0 := 0, arrive := 0, parked := false, wasDeferred := false,
    stamps := [], cells := [], pay := [], map := [], lines := [], got := [], recov := [], bad := [], media := [], need := [], stored := [], resv := [],
    piPosted := 0, piDone := 0, sent := 0, piFail := none }

/-- A capsule accepted and neither admitted nor answered (08 R235, R236). -/
structure Capsule where
  id : Nat
  qpn : Nat
  /-- The channel it belongs to, by index (R571: none). -/
  chan : Option Nat
  cid : Nat
  sqe : List Byte
  icd : List Byte
  tick : Nat
  /-- The reject mark of 07 R206, and the abort recorded before admission (R249). -/
  reject : Bool
  abort : Bool
  /-- It counts as outstanding (R236). -/
  counted : Bool
  /-- The short answer decided for it (R237): status and DW0. -/
  answer : Option (Nat × Nat)
  /-- Its cells by account (06 R183). -/
  cells : List (Acct × Nat)
  cluster : Nat
  /-- The class in which it is served when it belongs to no channel (R571). -/
  cls : Nat
  /-- The DSCP of the packet that carried its first byte, and its pre-colour when it was accepted (07 R204, R207). -/
  dscp : Nat
  pre : Nat
  /-- An Abort that arrived when four Aborts of its controller were outstanding (R248). -/
  beyond : Bool := false
  /-- It waits in the deferral queue of its channel; it has once done so; it was parked in the pen (18 Table 18-4). -/
  deferred : Bool
  wasDeferred : Bool
  parked : Bool
  /-- Arrival in core cycles since START. -/
  stamp : Nat
deriving DecidableEq, Repr

/-- A range-lock entry (08 Table 8-10). -/
structure Lock where
  volume : Nat
  /-- 0 FREE, 1 WAITING, 2 HOLDING. -/
  state : Nat
  write : Bool
  ordered : Bool
  waybill : Nat
  first : Nat
  last : Nat
  seq : Nat
  blockers : Nat
  chan : Nat
  /-- The range is empty: the entry conflicts by channel only (R244). -/
  noRange : Bool
deriving DecidableEq, Repr

def Lock.reset : Lock :=
  { volume := 0, state := 0, write := false, ordered := false, waybill := 0, first := 0, last := 0, seq := 0, blockers := 0,
    chan := 0, noRange := false }

/-- What an item of a ready queue works for: a capsule before admission, a waybill, or pool work. -/
inductive Ref where
  | cap (id : Nat) | wb (w : Nat) | work (id : Nat)
deriving DecidableEq, Repr

/-- Why an item is not yet ready (02 R33). -/
inductive Wait where
  | none
  /-- A memory-lane request posted in this tick. -/
  | lane (post : Nat)
  /-- An event that another step brings. -/
  | event
deriving DecidableEq, Repr

/-- An item of a ready queue (02 R32): its cluster, class, routine and leg, and the tick from which it is ready. -/
structure Item where
  ref : Ref
  cluster : Nat
  cls : Nat
  code : Nat
  leg : Nat
  wait : Wait
  ready : Nat
  /-- It became ready by an input of a latch bank, not by a leg record (R32). -/
  input : Bool := false
  /-- The run of this tick, as engine and first slot, that serves it, and the place of its leg in that run's chain (R30, R31). -/
  on : Option (Nat × Nat) := none
  step : Nat := 0
  /-- The engine that produced its leg record (R32). -/
  eng : Nat := 0
  /-- What a run found lacking for it (00 R570): 0 nothing, 1 an admission credit, 2 a waybill, 3 dirty lines, 4 a range-lock entry, 5 a drive
  tag, 6 a submission queue slot, 7 a maintenance slot, 8 a journal slot; 9 it waits behind a write that waits for dirty lines. -/
  why : Nat := 0
  /-- In this tick it is passed over (R45, 09 R283). -/
  passed : Bool := false
deriving DecidableEq, Repr

/-- An outstanding Asynchronous Event Request (R256): its QPN and CID. -/
structure AerSlot where
  qpn : Nat
  cid : Nat
deriving DecidableEq, Repr

/-- An asynchronous event raised and not delivered (R257): type, info and log page. -/
structure Aev where
  typ : Nat
  info : Nat
  page : Nat
deriving DecidableEq, Repr

/-- A self-test in progress (R258 to R260): extended or short, NSID, the steps of the short test done, the activities of the extended part
have been asked for, and the first failing LBA. -/
structure SelfTest where
  ext : Bool
  nsid : Nat
  step : Nat
  asked : Bool
  bad : Option Nat
  /-- The volumes that it names and the clusters whose units the short test covers, as it was started (R259, R260). -/
  vols : List Nat := []
  units : List Nat := []
deriving DecidableEq, Repr

/-- A result of the Device Self-test log (R258). -/
structure SelfRes where
  result : Nat
  ext : Bool
  nsid : Nat
  lba : Option Nat
deriving DecidableEq, Repr

/-- A Reservation Notification log entry (R254): type and NSID. -/
structure ResNote where
  typ : Nat
  nsid : Nat
deriving DecidableEq, Repr

/-- A controller (R229, R233, R234, R256 to R258), keyed host + 16384 × slot. -/
structure Ctrl where
  live : Bool
  disc : Bool
  /-- QP index of its admin queue. -/
  adminQ : Nat
  /-- KATO in ms, and the tick of the last restart of its timer. -/
  kato : Nat
  last : Nat
  /-- The keep-alive has expired (R233). -/
  expired : Bool
  cc : Nat
  rdy : Bool
  shst : Nat
  /-- CC.EN went to 1: RDY at the next seam; CC.EN went to 0: RDY to 0 once its I/O QPs have left DRAIN (R234). -/
  enabling : Bool
  disabling : Bool
  /-- CC.SHN was set: SHST once no waybill is in flight. -/
  shutting : Bool
  /-- I/O queues granted; none until Set Features Number of Queues (Table 8-5). -/
  ioq : Option Nat
  /-- Feature values set, by feature identifier (with the NSID in the high part for 0x82 and 0x83). -/
  feats : List (Nat × Nat)
  aers : List AerSlot
  held : List Aev
  /-- Event types delivered and not yet cleared by a read of their log page. -/
  masked : List Nat
  test : Option SelfTest
  results : List SelfRes
  notes : List ResNote
  /-- Reservation Notification entries set so far. -/
  noteSeq : Nat
  /-- Namespaces of the Changed Namespace List log. -/
  changed : List Nat
  /-- The temperature threshold has been crossed (Table 8-11). -/
  hot : Bool
deriving DecidableEq, Repr

def Ctrl.reset : Ctrl :=
  { live := false, disc := false, adminQ := 0, kato := 0, last := 0, expired := false, cc := 0, rdy := false, shst := 0,
    enabling := false, disabling := false, shutting := false, ioq := none, feats := [], aers := [], held := [], masked := [],
    test := none, results := [], notes := [], noteSeq := 0, changed := [], hot := false }

/-- The reservation record of a volume (R253): registrants as host and key, type, holder, generation, and Persist Through Power
Loss. -/
structure Resv where
  regs : List (Nat × Nat)
  rtype : Nat
  holder : Option Nat
  gen : Nat
  ptpl : Bool
deriving DecidableEq, Repr

def Resv.reset : Resv := { regs := [], rtype := 0, holder := none, gen := 0, ptpl := false }

/-- A change of a reservation record that takes effect at the seam (R254, R255): the new record, the action of Table 8-14, the
host, the notes for registrants as host and type, and the hosts that Preempt and Abort names. -/
structure ResvChange where
  vol : Nat
  resv : Resv
  action : Nat
  host : Nat
  notes : List (Nat × Nat)
  abort : List Nat
deriving DecidableEq, Repr

/-- A binding of a QP that a passing Connect makes at the seam (R231). -/
structure Bind where
  q : Nat
  host : Nat
  ctrl : Nat
  /-- A new controller: on the discovery NQN, with its KATO. -/
  fresh : Option (Bool × Nat)
deriving DecidableEq, Repr

/-- The hidden state of the command engine. -/
structure CmdSt where
  items : List Item
  caps : List Capsule
  capSeq : Nat
  wbs : List (Nat × Waybill)
  locks : List (Nat × Lock)
  lockSeq : Nat
  /-- Entries that the hand-off phase of the seam releases (R245), and the waybills that Aborts name (R249). -/
  unlock : List Nat
  abortDue : List Nat
  ctrls : List (Nat × Ctrl)
  resvs : List (Nat × Resv)
  resvDue : List ResvChange
  binds : List Bind
  /-- Asynchronous events raised in this tick, by controller (R257). -/
  aevDue : List (Nat × Aev)
  /-- Ticks of the last CMD_LOCK_EXHAUSTED and CMD_WAYBILL_EXHAUSTED. -/
  lockEv : Option Nat
  /-- Changes of the Discovery log so far. -/
  discGen : Nat
  wbEv : Option Nat
deriving DecidableEq, Repr

def CmdSt.reset : CmdSt :=
  { items := [], caps := [], capSeq := 0, wbs := [], locks := [], lockSeq := 0, unlock := [], abortDue := [], ctrls := [],
    resvs := [], resvDue := [], binds := [], aevDue := [], lockEv := none, discGen := 0, wbEv := none }



/-! ### Volumes, layouts and the cache (09), maintenance (10) -/

/-- Member slot states (10 Table 10-1). -/
inductive SlotSt where
  | present | missing | vacant | copyback
deriving DecidableEq, Repr

/-- A slot as a rebuild saw it: its state, whether it had a target bay, and its generation. -/
structure SlotView where
  st : SlotSt
  home : Bool
  gen : Nat
deriving DecidableEq, Repr

/-- Frames `lo` to `hi − 1` rebuilt, under the failure order and the slots of that time (R305: what their destinations were). -/
structure Rebuilt where
  lo : Nat
  hi : Nat
  order : List Nat
  slots : List SlotView
deriving DecidableEq, Repr

/-- A member slot (10 R303): its bay (0xFF: none), the target bay of a rebuild or copyback, and the frames rebuilt since it
failed. `gen` tells one tenure of the slot from the next. -/
structure Slot where
  st : SlotSt
  bay : Nat
  target : Option Nat
  gen : Nat
  built : List Rebuilt
  /-- Data capacity of its bay in bytes. -/
  bytes : Nat
deriving DecidableEq, Repr

/-- Activity states (10 Table 10-4). `ending`: it was stopped and its stripes in flight end; `holding`: the same for a rebuild. -/
inductive ActState where
  | running | queued | preempting | preempted | held | ending | holding
deriving DecidableEq, Repr

/-- A maintenance activity of a pool (10 R306 to R324). Kinds: 1 scrub, 2 sanitize, 3 rebuild pass, 4 copyback pass, 5 extended
self-test. -/
structure Activity where
  id : Nat
  kind : Nat
  st : ActState
  mode : Nat
  /-- Pace credit in 1/1,000 B (R312). -/
  credit : Nat
  /-- Pass targets (R306); empty for other kinds. -/
  targets : List Nat
  /-- Intervals of frames (kinds 3 and 4) or stripes still to visit, in visiting order. -/
  cov : List (Nat × Nat)
  /-- Stripes started beyond the start of `cov`. -/
  issued : Nat
  /-- Stripes done, frames passed, and the frames passed at the last record (R311). -/
  done : Nat
  passed : Nat
  record : Nat
  /-- A destination has been written (Table 10-4, result 2). -/
  wrote : Bool
  /-- REPEAT and the tick of its start (R322). -/
  rep : Nat
  begun : Nat
  /-- Kind of the activity that preempts it. -/
  preemptor : Nat
  /-- The MAINT_STOP or MAINT_START that waits for it. -/
  desc : Option Desc
  /-- Slabs withdrawn from a sanitize (R323). -/
  withdrawn : Nat
  /-- The controller whose self-test it is. -/
  ctrl : Nat
  /-- Which of the two running passes it is (LAY_MNT_PASS); its record: 0 not asked for, 1 due, 2 written (R311). -/
  idx : Nat
  recSt : Nat
deriving DecidableEq, Repr

/-- A stripe on the destage list of a pool (R288): the tick at which it first became dirty; REDO with its journal slot (R291);
the bay and the tick that hold a redo back (12 R376, Table 12-5). -/
structure DirtyStripe where
  stripe : Nat
  tick : Nat
  redo : Option Nat
  bay : Option Nat
  after : Nat
deriving DecidableEq, Repr

/-- A resynchronisation (R297 to R299): full or listed, the stripes moved to its head, the next stripe of a full one, and the
stripes with the journal slots of a listed one. -/
structure Resync where
  full : Bool
  first : List Nat
  next : Nat
  listed : List (Nat × Nat)
  left : Nat
  lost : Nat
  unverified : Nat
deriving DecidableEq, Repr

/-- A lost-stripe table entry (10 Table 10-2). -/
structure LostEnt where
  first : Nat
  count : Nat
  cause : Nat
  runGen : Nat
  tick : Nat
deriving DecidableEq, Repr

/-- What waits for a META_FLUSH: a volume opcode (R276), a maintenance record (R311), a reservation command (08 R254), or the
marking of a stripe with its cause (R316). -/
inductive FlushFor where
  | vol (v : Nat) | act (id : Nat) | wb (w : Nat) | mark (stripe cause : Nat)
deriving DecidableEq, Repr

/-- A pool (R262 to R271), beside its registers. -/
structure Pool where
  /-- 0 none, 1 importing, 2 ONLINE, 3 DEGRADED, 4 CRITICAL, 5 FAILED. -/
  st : Nat
  uuid : List Byte
  layout : Nat
  k : Nat
  n : Nat
  spare : Nat
  shift : Nat
  dump : Nat
  frames : Nat
  slots : List Slot
  failOrder : List Nat
  acts : List Activity
  actSeq : Nat
  /-- The checkpoint of a stopped scrub (R327 FROM_CKPT). -/
  scrubCkpt : Nat
  /-- The scrub repetition due: its start tick, REPEAT and MODE (R322). -/
  scrubNext : Option (Nat × Nat × Nat)
  dirty : List DirtyStripe
  resync : Option Resync
  lost : List LostEnt
  /-- Stripes to be marked lost, with the cause (R315, R316). -/
  marks : List (Nat × Nat)
  lostEv : Option Nat
  lostUnrec : Nat
  /-- Host-path bytes of the itinerary cycle (R314), and L. -/
  hostBytes : Nat
  load : Nat
  /-- POOL_CREATE or POOL_DESTROY that waits for its seam; slot changes due at the seam: slot and target bay, none to fail. -/
  desc : Option Desc
  changes : List (Nat × Option Nat × Option Desc)
  /-- Map, table and record writes to members that are due (R276, R311, R316), by what waits for them. -/
  flushFor : List FlushFor
  /-- Stripes marked lost and still to be poisoned, with the cause (R316 step 3). -/
  poison : List (Nat × Nat)
  /-- Units that a host read has recovered after a media error and that are to be rewritten (R293). -/
  repairs : List (Nat × Nat × Nat)
  /-- META_FLUSH items created so far: the sequence number of the next (01 R16). -/
  flushes : Nat
deriving DecidableEq, Repr

def Pool.reset : Pool :=
  { st := 0, uuid := [], layout := 0, k := 0, n := 0, spare := 0, shift := 0, dump := 0, frames := 0, slots := [], failOrder := [],
    acts := [], actSeq := 0, scrubCkpt := 0, scrubNext := none, dirty := [], resync := none, lost := [], marks := [], lostEv := none,
    lostUnrec := 0, hostBytes := 0, load := 0, desc := none, changes := [], flushFor := [], poison := [], repairs := [], flushes := 0 }

/-- Volume states: 0 free, 1 INITIALISING, 2 READY, 3 deleting. -/
structure Vol where
  st : Nat
  pool : Nat
  lbaf : Nat
  key : Option Nat
  kcv : Nat
  blocks : Nat
  nguid : List Byte
  uninit : Bool
  /-- Its first map entry, and the pool slab of each of its slabs (R274, R275). -/
  first : Nat
  slabs : List Nat
  /-- Stripes of `slabs` that initialisation has still to write, ascending (R278): the next and how many are left. -/
  initNext : Nat
  initEnd : Nat
  initFly : Nat
  /-- A resize in progress: the new size (R279), and the opcode that waits. -/
  grow : Option Nat
  desc : Option Desc
  /-- The opcode waits for its META_FLUSH, with its result (R276). -/
  flushing : Bool
  result : Nat
  /-- LAY_DIRTY_LOST has been raised; its map entries have been lost with a stack and are not reloaded (R301). -/
  dirtyLost : Bool
  unmapped : Bool
  /-- Slabs cut off by a shrink that waybills may still name. -/
  tail : List Nat
  /-- Further runs of map entries that it holds, as first entry and length: while it grows the one it grows into; after a change, what it had
  before, until the META_FLUSH of the change has completed (R275, R276). -/
  runs : List (Nat × Nat)
deriving DecidableEq, Repr

def Vol.reset : Vol :=
  { st := 0, pool := 0, lbaf := 0, key := none, kcv := 0, blocks := 0, nguid := [], uninit := false, first := 0, slabs := [],
    initNext := 0, initEnd := 0, initFly := 0, grow := none, desc := none, flushing := false, result := 0, dirtyLost := false,
    unmapped := false, tail := [], runs := [] }

/-- Line states (Table 9-10). -/
inductive LineSt where
  | free | filling | dirty | destaging | clean
  /-- A shadow line (R292). -/
  | shadow
deriving DecidableEq, Repr

/-- A cache line with its directory entry (R281): 4,096 B of data and 64 B of tail. -/
structure Line where
  st : LineSt
  vol : Nat
  unit : Nat
  valid : Nat
  wgen : Nat
  wt : Bool
  ref : Bool
  firstDirty : Nat
  data : List Byte
deriving DecidableEq, Repr

def Line.reset : Line :=
  { st := .free, vol := 0, unit := 0, valid := 0, wgen := 0, wt := false, ref := false, firstDirty := 0, data := [] }

/-- A journal slot (Table 9-12), held in both HBM copies. -/
structure JEnt where
  /-- 0 free, 1 in flight, 2 in flight with REDO. -/
  st : Nat
  pool : Nat
  kind : Nat
  degraded : Bool
  rows : Nat
  stripe : Nat
  positions : Nat
  shadow : Nat
  seq : Nat
deriving DecidableEq, Repr

def JEnt.reset : JEnt := { st := 0, pool := 0, kind := 0, degraded := false, rows := 0, stripe := 0, positions := 0, shadow := 0, seq := 0 }

/-- What an item of pool work does. -/
inductive WorkKind where
  | destage
  /-- A rewrite of recovered units in place (R293, R315). -/
  | repair
  | mark (cause : Nat)
  | init (vol : Nat)
  | sanitize (act : Nat)
  /-- Of a listed stripe: its journal slot. -/
  | resync (slot : Option Nat)
  | rebuild (act : Nat)
  | scrub (act : Nat)
  /-- A write to members: region 0 the map store, 1 the lost-stripe table. -/
  | flush (region : Nat)
  | test (ctrl act : Nat)
  | dump
deriving DecidableEq, Repr

/-- Where an item of pool work stands (Table 9-11; `mark` and `ended` beside it). -/
inductive WorkSt where
  | planned | reading | parity | journalled | writing | marking | ended
deriving DecidableEq, Repr

/-- A data key pair with its KCV (11 R348). -/
structure KeyPair where
  k1 : List Byte
  k2 : List Byte
  kcv : Nat
deriving DecidableEq, Repr

/-- An item of pool work on one stripe: the units read, those that count as missing, the new values of its data units and the
member writes computed from them. -/
structure Work where
  id : Nat
  kind : WorkKind
  pool : Nat
  /-- The stripe it works on; for a META_FLUSH, which is tied to none, its sequence number within the pool's metadata work (01 R16). -/
  stripe : Nat
  st : WorkSt
  rows : List Nat
  /-- Units to be read and units that count as missing, as stripe, row and position. -/
  need : List (Nat × Nat × Nat)
  vals : List UnitVal
  bad : List (Nat × Nat × Nat)
  /-- Those of `bad` with a media error; and of `new`, the units whose line is partly valid, as row, position and VALID. -/
  media : List (Nat × Nat × Nat)
  partials : List (Nat × Nat × Nat)
  new : List UnitVal
  puts : List UnitVal
  /-- Copied lines: slot and the WGEN recorded. -/
  lines : List (Nat × Nat)
  shadows : List Nat
  jslot : Option Nat
  redo : Bool
  /-- A member write of it has failed: the bay, and the tick from which a retry is permitted. -/
  failed : Option (Nat × Nat)
  /-- Bytes still to be written to members other than units (flushes), as bay, member LBA and bytes. -/
  raw : List (Nat × Nat × List Byte)
  /-- What a flush is for. -/
  fors : List FlushFor
  /-- The key pair of an initialisation's request (11 R348). -/
  pair : Option KeyPair
deriving DecidableEq, Repr

/-- A request posted to the parity unit of a cluster (02 R43). -/
structure ParReq where
  cluster : Nat
  ref : Ref
  posted : Nat
deriving DecidableEq, Repr

/-- The hidden state of layouts. -/
structure Lay where
  pools : List (Nat × Pool)
  vols : List (Nat × Vol)
  lines : List (Nat × Line)
  hand : Nat
  journal : List (Nat × JEnt)
  jseq : Nat
  works : List Work
  workSeq : Nat
  parity : List ParReq
  runGen : Nat
  imported : Bool
  /-- Tick of the last LAY_DIRTY_FULL. -/
  fullEv : Option Nat
  selDue : Bool
deriving DecidableEq, Repr

def Lay.reset : Lay :=
  { pools := [], vols := [], lines := [], hand := 0, journal := [], jseq := 0, works := [], workSeq := 0, parity := [],
    runGen := 0, imported := false, fullEv := none, selDue := false }


/-! ### Cipher engine and check units (11) -/

/-- A change of a key slot or KEK due at the seam (R348, R351, R352): the new contents, none for EMPTY, and the opcode that waits
with its RESULT0. -/
structure KeyChange where
  kek : Bool
  index : Nat
  pair : Option KeyPair
  raw : List Byte
  desc : Option Desc
  result : Nat
deriving DecidableEq, Repr

/-- A request posted to the cipher array of a cluster (02 R42, R344): what it works for, its invocation, its passes, the queue it
waits in, whether it uses a key, and the tick of its posting. -/
structure CipReq where
  cluster : Nat
  ref : Ref
  inv : Nat
  passes : Nat
  latency : Bool
  /-- It uses a key, and the key pair that its slot held in the tick of the posting (R348). -/
  keyed : Bool
  pair : Option KeyPair
  posted : Nat
deriving DecidableEq, Repr

/-- A software check in progress (R359). -/
structure SwRun where
  poly : Nat
  cont : Bool
  addr : Nat
  len : Nat
deriving DecidableEq, Repr

/-- The hidden state of the cipher and check units. -/
structure Cip where
  keys : List (Nat × Option KeyPair)
  /-- KEKs; an empty one is not listed. -/
  keks : List (Nat × List Byte)
  changes : List KeyChange
  reqs : List CipReq
  sw : List (Nat × Option SwRun)
  /-- CIP_ALARM and CIP_ZEROISED to be raised at the next seam (Table 11-11 step 4): code and cluster; keys and KEKs cleared. -/
  alarms : List (Nat × Nat)
  zeroed : Option (Nat × Nat)
  /-- The generator's halt: in force from the next tick; ends at the next seam (R357). -/
  halting : Bool
  resuming : Bool
  /-- The tick of the generator's last start-up test during a halt, or of the halt. -/
  testTick : Nat
  /-- BIND and guard failures not yet reported, and the tick of the last CHK_INTEGRITY. -/
  bindFails : Nat
  guardFails : Nat
  integEv : Option Nat
  /-- Passes posted to each array in this tick (CIP_ARRAY_PASS). -/
  passes : List (Nat × Nat)
  selDue : Bool
deriving DecidableEq, Repr

def Cip.reset : Cip :=
  { keys := [], keks := [], changes := [], reqs := [], sw := [], alarms := [], zeroed := none, halting := false, resuming := false, testTick := 0,
    bindFails := 0, guardFails := 0, integEv := none, passes := [], selDue := false }


/-! ### Drive fabric (12) -/

/-- A drive command (R372 to R374), by its tag. -/
structure DrvCmd where
  bay : Nat
  queue : Nat
  cluster : Nat
  write : Bool
  maint : Bool
  lba : Nat
  units : Nat
  ref : Ref
  /-- What each of its units is: stripe, row and position; empty for a flush or dump write. -/
  keys : List (Nat × Nat × Nat)
  /-- The data window: data to write, or what the drive has written. -/
  buf : List Byte
  /-- The tick of its doorbell. -/
  tick : Nat
  /-- 0 outstanding, 1 its completion is latched, 2 consumed and its staging data still in use. -/
  st : Nat
  /-- SCT × 256 + SC, or 0xFFFF for DRV_PATH; DNR and CRD. -/
  status : Nat
  dnr : Bool
  crd : Nat
  /-- The tick at which its Abort was sent. -/
  abort : Option Nat
  /-- The tick in which its completion was latched. -/
  latched : Nat
  /-- Its slot in the submission queue. -/
  slot : Nat
deriving DecidableEq, Repr

/-- What Identify of a drive reported at step 10 of bring-up (R369, R370). -/
structure DrvIdent where
  /-- Data capacity in bytes of the format of R263, and whether the drive offers that format. -/
  bytes : Nat
  fmt : Bool
  mdts : Nat
  /-- Entries of an I/O queue: MQES + 1, at most 1,024. -/
  depth : Nat
  /-- Command Retry Delay Times 1 to 3, in 100 ms. -/
  crdt : List Nat
deriving DecidableEq, Repr

/-- A change of bay state due at the seam (Table 12-2). -/
inductive BayNext where
  | none | linking | init | online | recovering (cause : Nat)
  /-- With its reason. -/
  | failed (reason : Nat)
  /-- Removed (reason 1), or commanded off (0). -/
  | absent (reason : Nat)
deriving DecidableEq, Repr

/-- A bay of the drive fabric beside its registers. -/
structure Bay where
  next : BayNext
  /-- Step of Table 12-3 last reached: 2 power-good, 3 CLKREQ low, 4 PERST released, 5 link up, 6 first configuration request,
  7 configured, 8 CC.EN written, 9 ready, 10 done; 0 without power. -/
  step : Nat
  /-- Training attempts that failed in a row; PERST is asserted for a retry. -/
  fails : Nat
  retrying : Bool
  perst : Bool
  clkreq : Bool
  ident : DrvIdent
  /-- The tick of the containment in force and of the start of the recovery; ticks of recoveries within 600 s. -/
  contained : Option Nat
  recStart : Nat
  recs : List Nat
  /-- CAP.TO of the drive, in 500 ms. -/
  capTo : Nat
  /-- Completion entries posted, by queue. -/
  posted : List (Nat × Nat)
  /-- Power-good as the drive fabric has seen it (13 R398), the tick at which it came, a power retry to come, and power turned off
  while FAILED. -/
  pg : Bool
  pgTick : Nat
  retryPg : Bool
  cycled : Bool
  /-- Submission entries written, by queue: the next slot is this count modulo the depth. -/
  tails : List (Nat × Nat)
  /-- The same as far as the doorbells have been rung: a standby writes entries and rings none (15 R460). -/
  rung : List (Nat × Nat)
  /-- Critical Warning byte last reported; composite temperature in K, and the tick of that reading. -/
  warning : Nat
  temp : Nat
  tempTick : Option Nat
deriving DecidableEq, Repr

def DrvIdent.none : DrvIdent := { bytes := 0, fmt := false, mdts := 0, depth := 0, crdt := [] }

def Bay.reset : Bay :=
  { next := .none, step := 0, fails := 0, retrying := false, perst := true, clkreq := false, ident := DrvIdent.none, contained := none,
    recStart := 0, recs := [], capTo := 0, posted := [], pg := false, pgTick := 0, retryPg := false, cycled := false, tails := [], rung := [], warning := 0, temp := 0, tempTick := none }

/-- The hidden state of the drive fabric. -/
structure Drv where
  cmds : List (Nat × Option DrvCmd)
  bays : List (Nat × Bay)
deriving DecidableEq, Repr

def Drv.reset : Drv := { cmds := [], bays := [] }


/-! ### Bay power (13), in the always-on domain -/

/-- A bay of the evaluator beside its registers. -/
structure BayPw where
  /-- The shared timer: evaluations in INRUSH, the curve integrator A in ON (R390, R392). -/
  timer : Nat
  pgc : Nat
  /-- θ1 and θ2 with 32 fractional bits (R393). -/
  th1 : Int
  th2 : Int
  /-- Consecutive evaluations in which the conditions of Table 13-4 have held. -/
  dmg1 : Nat
  dmg2 : Nat
  dmg3 : Nat
  dmg4 : Nat
  /-- Evaluations since the gate was commanded off. -/
  offAge : Nat
  /-- Evaluations for which the presence level has differed from the confirmed one (R401). -/
  debounce : Nat
  /-- Evaluations left of the retry delay (R399). -/
  delay : Nat
  /-- The fault time in evaluations: since A rose from 0, or since entry to INRUSH. -/
  fault : Nat
  /-- Evaluations since entry to INRUSH, and since power-good was asserted. -/
  age : Nat
  pgAge : Nat
  /-- Evaluations left of the off time of a CYCLE, with its opcode. -/
  cycle : Option (Nat × Option Desc)
  /-- A committed command for the next evaluation: OP, OFF_MS and its opcode (none: ordered by core 3, 14 R415). -/
  cmd : Option (Nat × Nat × Option Desc)
  /-- An opcode to complete at the next seam, with its status. -/
  done : Option (Desc × Nat)
deriving DecidableEq, Repr

def BayPw.reset : BayPw :=
  { timer := 0, pgc := 0, th1 := 0, th2 := 0, dmg1 := 0, dmg2 := 0, dmg3 := 0, dmg4 := 0, offAge := 0, debounce := 0, delay := 0,
    fault := 0, age := 0, pgAge := 0, cycle := none, cmd := none, done := none }

/-- The hidden state of the bay evaluator. -/
structure Pwr where
  bays : List (Nat × BayPw)
  /-- Due at the seam: events as code and values, and the changes for the drive fabric as bay and cause, 0 for power-good (R398). -/
  events : List (Nat × Nat × Nat × Nat)
  notes : List (Nat × Nat)
deriving DecidableEq, Repr

def Pwr.reset : Pwr := { bays := [], events := [], notes := [] }

/-! ### Shelf environment (14) -/

/-- A write of a dump (09 R295): what it is (0 journal copy, 1 summary, 2 copy header, 3 chunk, 4 dump header), which one, its bay, its
member LBA and units; the units submitted and finished; the tick from which it may be submitted; and a failure of it. -/
structure DumpJob where
  id : Nat
  kind : Nat
  idx : Nat
  bay : Nat
  lba : Nat
  units : Nat
  sent : Nat
  finished : Nat
  /-- DUMP_STEP has read its data: from this tick on it is submitted; none before. -/
  ready : Option Nat
  cluster : Nat
  bad : Bool
deriving DecidableEq, Repr

/-- A dump under way (14 Table 14-3): the tick of its entry, its members A and B and its members in all, the jobs of its phase, the
phase (0 journal, 1 chunks, 2 headers, 3 flush, 4 ended), the lines dumped, and whether the bank fell below V_MIN before step 7. -/
structure Dump where
  entered : Nat
  members : List Nat
  copies : List Nat
  phase : Nat
  jobs : List DumpJob
  lines : Nat
  low : Bool
deriving DecidableEq, Repr

/-- A sensor's level (R415): 0 normal, 1 warning, 2 critical; for a die or thermistor, the consecutive steps at critical. -/
structure SensLevel where
  level : Nat
  crit : Nat
deriving DecidableEq, Repr

/-- The hidden state of the shelf environment. -/
structure Env where
  /-- The integrator I and the previous u (R412). -/
  integ : Nat
  prev : Nat
  /-- Manual duty in force (R416); OP 0 and OP 1 commands that wait for the next step, with their opcodes. -/
  manual : Option Nat
  setDue : List (Option Nat × Desc)
  /-- Consecutive steps that ask for a change of a fan's state. -/
  fans : List (Nat × Nat)
  /-- Levels by sensor as ENV_TEMP codes it. -/
  levels : List (Nat × SensLevel)
  /-- Always-on: the tick of the last duty written to the PWM block, and whether it has stalled since. -/
  dutyTick : Nat
  stalled : Bool
  /-- Journal use in the last 10 s, as tick and largest use of each loop step (R421). -/
  journal : List (Nat × Nat)
  /-- Always-on: the charger has been enabled since this tick; PWR_FAIL_N is low; it is high again since this tick. -/
  chargeTick : Option Nat
  low : Bool
  highTick : Option Nat
  /-- A dump; the ENV_SET that started an orderly shutdown; the dump ends so that core 3 turns every bay off (R415). -/
  dump : Option Dump
  shutdown : Option Desc
  critical : Bool
  /-- Always-on: an ENV_DUMP_REPORT is owed after the next import. -/
  report : Bool
deriving DecidableEq, Repr

def Env.reset : Env :=
  { integ := 0, prev := 0, manual := none, setDue := [], fans := [], levels := [], dutyTick := 0, stalled := false, journal := [],
    chargeTick := none, low := false, highTick := none, dump := none, shutdown := none, critical := false, report := false }

/-! ### Pair (15) -/

/-- A completion that the active holds back until the receipt of the record of tick `tick` (R448). -/
structure HeldCpl where
  tick : Nat
  desc : Desc
  status : Nat
  r0 : Nat
  r1 : Nat
  backoff : Nat
deriving DecidableEq, Repr

/-- A join (R464): the PAIR_JOIN that waits on the active; the phase of PAIR_JOIN_STATUS; images whose verdict is still to come; the
hold's ticks so far; this controller's CRC of the copied state and the peer's; and, on the standby, the JOIN payloads received. -/
structure Join where
  desc : Option Desc
  images : Nat
  holdTicks : Nat
  crc : Option Nat
  peerCrc : Option Nat
  pages : List (List Byte)
  /-- The tick after which lockstep begins, once the active has named it. -/
  endTick : Option Nat
  /-- The pre-copy passes have ended: the hold begins at the next seam. -/
  holdDue : Bool
  /-- The cause of an abort that waits for the next seam (R466). -/
  abort : Option Nat
deriving DecidableEq, Repr

/-- The outcome of the checks of a unit that a host read takes (R445 READ_DIGEST): tag, unit, outcome and CRC. -/
structure ReadDig where
  tag : Nat
  unit : Nat
  outcome : Nat
  crc : Nat
deriving DecidableEq, Repr

/-- The hidden state of the pair. -/
structure Pair where
  /-- The state of Table 15-5, and a change of it that waits for the next seam (R442). -/
  st : Nat
  next : Option Nat
  /-- Always-on: this controller drives the shared outputs (R441), its network transmitters and root ports are enabled (R439, R440), and
  the peer drives PAIR_ACT_N. -/
  shared : Bool
  net : Bool
  peerLow : Bool
  /-- The tick since which PAIR_ACT_N is high, and the tick of a claim at which outputs do not follow at once (R439). -/
  highTick : Nat
  claimTick : Option Nat
  -- The link (R431 to R437)
  /-- Bundles with FEC lock, received and sent, and since when each bundle out of striping has held lock again. -/
  rxLock : Nat
  txLock : Nat
  rejoin : List (Nat × Nat)
  /-- Bundles dropped from striping that have not rejoined. -/
  dropped : Nat
  /-- The link has changed since the last seam, with its cause: 0 none to report, 1 + the cause of PAIR_LINK_STATE. -/
  linkDue : Option Nat
  /-- The tick since which the link has been down or unkeyed. -/
  downTick : Option Nat
  /-- The seed of this side's share, the peer's share, and the share and chain sent. -/
  seed : List Byte
  shareSent : Bool
  keyTx : List Byte
  keyRx : List Byte
  epochTx : Nat
  epochRx : Nat
  fcnt : Nat
  /-- The tick whose seam's change of epoch has been made (R437). -/
  rekeyTick : Option Nat
  /-- The state, versions and claim last reported to the peer. -/
  told : Option (Nat × Nat × Nat × Bool)
  /-- The next alive counter of each stream sent, and the frames of the MGT stream kept for RESEND, oldest first, with their counters. -/
  aliveTx : List (Nat × Nat)
  mgtLog : List (Nat × List Byte)
  /-- Payloads of an MGT message that is not complete. -/
  mgtBuf : List (List Byte)
  /-- Replicated work: the next number, and the work received and not yet committed. -/
  workSeq : Nat
  work : List (Nat × Replica)
  /-- The peer's running and staged management firmware versions, and whether the peer reports a claim. -/
  peerFw : Nat
  peerStaged : Nat
  peerClaim : Bool
  -- The active in lockstep (R445 to R450)
  /-- Entries of this tick's record, INGRESS frames sent in it, and the digest's events (R451). -/
  entries : List (List Byte)
  /-- The bay records last sent, as state, RETRIES and power-good (Table 15-7, BAY). -/
  bayTold : List (Nat × (Nat × Nat × Bool))
  ingress : Nat
  events : List (Nat × List Nat)
  /-- The tick of the last STATUS frame; RCVD_TICK and ACK_TICK last received; none before the first. -/
  statusTick : Nat
  /-- A STATUS frame has reported SUSPECT or IDLE: that state. -/
  peerLeft : Option Nat
  receipt : Option Nat
  mirror : Option Nat
  /-- The ACK_TICK of the last ACK_APPLIED entry (R450). -/
  ackTold : Option Nat
  /-- Completions held back, oldest first. -/
  held : List HeldCpl
  /-- The PAIR_TAKEOVER that waits, and the seam H of the handover (R461). -/
  handDesc : Option Desc
  handTick : Option Nat
  -- The standby (R443 to R458)
  /-- The last tick whose record it holds complete and applied, and the last whose digest it found equal. -/
  rcvd : Option Nat
  digestTick : Option Nat
  /-- It holds: ticks since the release has been waited for (R453, R454), with the reason it then leaves lockstep for. -/
  waitTick : Option Nat
  waitReason : Nat
  /-- The record of this tick has been applied, or its seam has passed without it (R453). -/
  recordDone : Bool
  /-- INGRESS payloads of a tick that has not begun here (R444). -/
  early : List (List Byte)
  /-- Consecutive ticks with the offset out of tolerance, and the trim of the core PLL in ppb (R443). -/
  offBad : Nat
  trim : Int
  digs : List ReadDig
  /-- Values of RANDOM entries not yet used, by purpose (R445). -/
  randoms : List (Nat × Nat)
  /-- Links of the active that are up (R445 LINK). -/
  links : List Nat
  /-- SEQ of the last KEK import (11 R353). -/
  kekSeq : Nat
  -- Takeover (R458 to R460)
  /-- The takeover seam S and T, and the kind of PAIR_TAKEOVER_DONE. -/
  takeTick : Option Nat
  lastTick : Nat
  kind : Nat
  releaseTick : Nat
  /-- Step 7's tick and the announcements sent (R459). -/
  annTick : Option Nat
  announced : Nat
  /-- Bays whose preempt has not completed (R460). -/
  preempts : List Nat
  /-- QPs whose next resend does not decrease RETRY_LEFT (R459). -/
  freeResend : List Nat
  -- Join and rehearsal
  join : Option Join
  rehearsal : Option Rehearse
  /-- OFF_SETTLE still runs for the bay of a rehearsal of kind 3, from this tick. -/
  rhsTick : Nat
deriving DecidableEq, Repr

def Pair.reset : Pair :=
  { st := 1, next := none, shared := false, net := false, peerLow := false, highTick := 0, claimTick := none, rxLock := 0,
    txLock := 0, rejoin := [], dropped := 0, linkDue := none, downTick := none, seed := [], shareSent := false, keyTx := [], keyRx := [], epochTx := 0,
    epochRx := 0, fcnt := 0, rekeyTick := none, told := none, aliveTx := [], mgtLog := [], mgtBuf := [], workSeq := 0, work := [], peerFw := 0, peerStaged := 0, peerClaim := false, entries := [], bayTold := [], early := [], ackTold := none,
    ingress := 0, events := [], statusTick := 0, peerLeft := none, receipt := none, mirror := none, held := [], handDesc := none, handTick := none,
    rcvd := none, digestTick := none, waitTick := none, waitReason := 0, recordDone := false, offBad := 0, trim := 0, digs := [], randoms := [], links := [],
    kekSeq := 0, takeTick := none, lastTick := 0, kind := 0, releaseTick := 0, annTick := none, announced := 0, preempts := [], freeResend := [], join := none,
    rehearsal := none, rhsTick := 0 }


/-! ### Management complex (16) -/

/-- A boot record copy (16 R477). -/
structure BootRec where
  seq : Nat
  active : Nat
  /-- 0, 1 or 0xFF. -/
  pending : Nat
  tries : Nat
deriving DecidableEq, Repr

/-- An error log record (18 Table 18-7). -/
structure ErrRec where
  code : Nat
  lseq : Nat
  tick : Nat
  ptpSec : Nat
  ptpNs : Nat
  boot : Nat
  v0 : Nat
  v1 : Nat
  v2 : Nat
  seq : Nat
deriving DecidableEq, Repr

/-- One SPI NOR device (16 Table 16-3): an invalid boot record copy is none, an erased slot is empty. -/
structure Flash where
  rec0 : Option BootRec
  rec1 : Option BootRec
  slotA : List Byte
  slotB : List Byte
  errLog : List ErrRec
deriving DecidableEq, Repr

def Flash.reset : Flash := { rec0 := none, rec1 := none, slotA := [], slotB := [], errLog := [] }

/-- An SPDM session (16 R488, R489). -/
structure SpdmSess where
  id : Nat
  /-- 1 PCIe VDM, 2 SMBus. -/
  transport : Nat
  /-- Its export master secret, and the key-import key, which exists once FINISH has been answered (R489). -/
  secret : List Byte
  key : List Byte
  lastSeq : Nat
deriving DecidableEq, Repr

/-- A schedule log record (16 Table 16-8). -/
structure SchedRec where
  tick : Nat
  seq : Nat
  kind : Nat
  variant : Nat
  fault : Nat
  imageId : Nat
  meas : List Byte
deriving DecidableEq, Repr

/-- The hidden state of the management complex. -/
structure Mgt where
  flash0 : Flash
  flash1 : Flash
  /-- The package that runs from management SRAM (empty before boot). -/
  running : List Byte
  /-- The loaded catalogue's digest (measurement 3). -/
  catalogue : List Byte
  /-- Fused SVN floor and revocation bits (16 R482). -/
  floor : Nat
  revoked : Nat
  /-- Steps 1 to 8 of Table 16-5 reached so far. -/
  bootStep : Nat
  /-- Cores 0 to 2 are held in reset, and core 3 is (R501). -/
  coresDown : Bool
  core3Down : Bool
  /-- Ticks of the watchdog resets of cores 0 to 2 in the last 60 s (R475). -/
  wdog : List Nat
  /-- Ticks of the resets of core 3 in the last 60 s. -/
  wdog3 : List Nat
  /-- Enrolled itinerary signing keys, 104 bytes each (R487); empty when none. -/
  itk : List (Nat × List Byte)
  /-- Measurements 1 to 9 (Table 16-7); a listed value replaces 48 zero bytes. -/
  meas : List (Nat × List Byte)
  /-- Kept schedule log records, oldest first, at most 1,024; and the next record sequence. -/
  schedLog : List SchedRec
  schedSeq : Nat
  sessions : List SpdmSess
  /-- A FW_ACTIVATE MODE 0 that waits for the standby to run its own activation (R496). -/
  act : Option Desc
  /-- A staging is in progress on the standby (R493, paired shelf): the descriptor that waits, and its results. -/
  staging : Option (Desc × Nat × Nat)
  /-- MGT_MEAS_SEL was written: a snapshot is due at the next seam (R486). -/
  measDue : Bool
  /-- Measurement index 6 is due at the next seam (19 R543). -/
  meas6Due : Bool
  /-- MGT_BOOT_REPORT waits for the event ring: its three values. -/
  bootReport : Option (Nat × Nat × Nat)
  /-- SPDM requests whose answer awaits the measurement snapshot of the seam (R486): transport and request. -/
  measReqs : List (Nat × SpdmMsg)
  /-- The device secret is locked (R482). -/
  secretLocked : Bool
  /-- The alias key's seed (R483); empty before step 7. -/
  aliasSeed : List Byte
  /-- PLDM terminus identifier (DSP0240, R491). -/
  tid : Nat
deriving DecidableEq, Repr

def Mgt.reset : Mgt :=
  { flash0 := Flash.reset, flash1 := Flash.reset, running := [], catalogue := [], floor := 0, revoked := 0, bootStep := 0,
    coresDown := false, core3Down := false, wdog := [], wdog3 := [], itk := [], meas := [], schedLog := [], schedSeq := 0,
    sessions := [], act := none, staging := none, measDue := false, meas6Due := false, bootReport := none,
    measReqs := [], secretLocked := false, aliasSeed := [], tid := 0 }


/-! ### Clocks, resets and straps (17) -/

/-- The straps (19 GLB_STRAPS; 15 R432), sensed by the always-on domain. -/
structure Straps where
  pairEn : Bool
  pairSlot : Bool
  chSris : Bool
deriving DecidableEq, Repr

/-- A cluster's check beside CRS_CLU_STATUS (17 Table 17-8): the tick at which its state was entered, and the cause code that fenced or
idled it. -/
structure CluChk where
  since : Nat
  cause : Nat
deriving DecidableEq, Repr

def CluChk.reset : CluChk := { since := 0, cause := 0 }

/-- The hidden state of clocks and resets. -/
structure Crs where
  clu : List (Nat × CluChk)
  /-- Changes of cluster checks that are due in the next change phase, as cluster, next state and the step that failed (17 R511). -/
  due : List (Nat × Nat × Nat)
  /-- CRS_RESET_REPORT waits for the event ring (17 R520). -/
  resetReport : Bool
  /-- The endpoint's link is up (17 R505, R500). -/
  linkUp : Bool
  /-- Always-on: the auxiliary PLL has lost lock, and the internal oscillator is in use (17 R502). -/
  auxLost : Bool
  /-- VDD_AUX is absent: nothing runs until the next power-on reset (17 Table 17-6). -/
  dead : Bool
deriving DecidableEq, Repr

def Crs.reset : Crs := { clu := [], due := [], resetReport := true, linkUp := true, auxLost := false, dead := false }


/-! ### Telemetry (18) -/

/-- An entry of the event history (18 R532). -/
structure HistEnt where
  ev : EvEntry
  ptpSec : Nat
  ptpNs : Nat
deriving DecidableEq, Repr

/-- A trace record (18 Table 18-4). -/
structure Trace where
  tag : Nat
  channel : Nat
  qpn : Nat
  opcode : Nat
  cid : Nat
  cls : Nat
  flags : Nat
  tick : Nat
  cycle : Nat
  status : Nat
  blocks : Nat
  stamps : List Nat
  slba : Nat
  volume : Nat
  cluster : Nat
deriving DecidableEq, Repr

/-- A latched dump snapshot (18 R524, R526). -/
structure Snap where
  seq : Nat
  tick : Nat
  ptpSec : Nat
  ptpNs : Nat
  groups : Nat
  chans : Bool
  /-- The accumulators and gauges taken, by catalogue key. -/
  values : List (Nat × Nat)
  role : Nat
deriving DecidableEq, Repr

/-- A counter at the crossing into the telemetry domain (17 R515): the sender's 4-bit reset epoch and its count since its reset; the epoch
that the receiver has seen, and the count that it has taken in. -/
structure Xing where
  epoch : Nat
  count : Nat
  seen : Nat
  base : Nat
deriving DecidableEq, Repr

def Xing.reset : Xing := { epoch := 0, count := 0, seen := 0, base := 0 }

/-- The hidden state of telemetry. -/
structure Tel where
  /-- 64-bit accumulators of Table 18-1, by catalogue key. -/
  acc : List (Nat × Nat)
  /-- The crossings of those counters, by the same key (17 R515). -/
  xings : List (Nat × Xing)
  hist : List HistEnt
  traces : List Trace
  /-- Records of waybills that became FREE in this tick, to be appended at its seam (R531). -/
  traceDue : List Trace
  /-- Trace records appended since the last that a dump carried (R531). -/
  uncarried : Nat
  traceLost : Nat
  traceLostEv : Nat
  lastTraceLostEv : Option Nat
  snaps : List Snap
  dumpSeq : Nat
  /-- Itinerary cycles and dumps since the dump settings took effect (R524), and the tick at whose seam the last cycle was counted. -/
  cycles : Nat
  latchTick : Option Nat
  dumps : Nat
  skipped : Nat
  /-- Tagging (R529): the 32-bit state and the next tag. -/
  x : Nat
  nextTag : Nat
  /-- Events that wait for core 3's error log (R533), oldest first. -/
  errQ : List HistEnt
  /-- Credit of R534 in 1/976563 records per second units is held as whole records and the ticks since the last one. -/
  credit : Nat
  creditTicks : Nat
  suppressed : Nat
  supFirst : Nat
  supLast : Nat
  lseq : Nat
  boot : Nat
  ctrDue : Bool
  /-- GLB_LOCK_VIOLATION (19 R544): tick of the last event and violations not reported since. -/
  violLast : Option Nat
  violUnrep : Nat
deriving DecidableEq, Repr

def Tel.reset : Tel :=
  { acc := [], xings := [], hist := [], traces := [], traceDue := [], uncarried := 0, traceLost := 0, traceLostEv := 0, lastTraceLostEv := none, snaps := [],
    dumpSeq := 0, cycles := 0, latchTick := none, dumps := 0, skipped := 0, x := 1, nextTag := 1, errQ := [], credit := 512, creditTicks := 0,
    suppressed := 0, supFirst := 0, supLast := 0, lseq := 0, boot := 0, ctrDue := false, violLast := none, violUnrep := 0 }


/-! ### What leaves the chip -/

/-- An SPDM response (16 Table 16-9). The spec gives what the responder supports; the coding of its messages is that of DSP0274. -/
inductive SpdmRsp where
  /-- ERROR UnsupportedRequest, and ERROR SessionLimitExceeded. -/
  | unsupported
  | sessionLimit
  /-- ERROR for a request that names no provisioned slot, no measurement index or no open session. -/
  | invalid
  /-- Versions 1.3 and 1.2. -/
  | version (versions : List Nat)
  /-- CTExponent and DataTransferSize; the capabilities are those of Table 16-9. -/
  | capabilities (ctExponent transferSize : Nat)
  | algorithms
  /-- The digest of the chain in slot 0. -/
  | digests (chain : List Byte)
  | certificate (bytes : List Byte)
  | challengeAuth (chain signature : List Byte)
  /-- Measurement blocks by index, and the signature when asked for. -/
  | measurements (blocks : List (Nat × List Byte)) (signature : List Byte)
  | keyExchange (session heartbeat : Nat)
  | finish (session : Nat)
  | heartbeatAck (session : Nat)
  | keyUpdateAck (session : Nat)
  | endSessionAck (session : Nat)
  | chunkSendAck
  | chunk
deriving DecidableEq, Repr

/-- A PLDM response (16 R491). -/
inductive PldmRsp where
  /-- An error completion code: an unsupported command, or no such sensor or type. -/
  | error
  | tid (n : Nat)
  /-- The version of a PLDM type: base (0), or Platform Monitoring and Control (2), version 1.2. -/
  | version (typ : Nat)
  | types (ts : List Nat)
  | commands (codes : List Nat)
  /-- The number of sensor PDRs. -/
  | repository (records : Nat)
  /-- The PDR of a sensor, and the next sensor's handle, 0 after the last. -/
  | pdr (sensor next : Nat)
  /-- A reading, none while unavailable. -/
  | reading (value : Option Int)
deriving DecidableEq, Repr

/-- An answer to an MCTP control message (16 R490). -/
inductive MctpRsp where
  | error
  | eid (n : Nat)
  | types (ts : List Nat)
deriving DecidableEq, Repr

/-- An item that the block sends out: DMA writes to control-host memory, interrupts, register read data, and the frames and
signals of the chapters. The list of a state is newest first. -/
inductive Out where
  /-- A completion: the 32 B written to a slot of completion ring `ring` at `addr` (03 R86, R87). -/
  | cpl (ring addr : Nat) (bytes : List Byte)
  /-- An event: the 32 B written to a slot of the event ring at `addr` (03 R87, R88). -/
  | evt (addr : Nat) (bytes : List Byte)
  /-- A read of control-host memory: a descriptor at its slot of the command ring (03 R78). -/
  | hostRead (addr len : Nat)
  /-- An MSI-X message (03 R98): vector, address and data of its table entry. -/
  | msix (vector addr data : Nat)
  /-- Data written to control-host memory (03 R97). -/
  | hostWrite (addr : Nat) (bytes : List Byte)
  /-- The data that a register read returned. -/
  | regRead (off : Nat) (value : Word)
  /-- A frame transmitted on logical port `m`, with an inverted FCS when `bad` (06 R187). -/
  | frame (m : Nat) (bytes : List Byte) (bad : Bool)
  /-- A PFC frame for priority `i` with `quanta` (04 R125). -/
  | pfc (m i quanta : Nat)
  /-- A CM message on logical port `m` to a remote IP address and QPN. -/
  | cm (m : Nat) (rip : List Byte) (rqpn : Nat) (msg : CmMsg)
  /-- A submission entry of a drive queue and its doorbell (12 R373): bay, queue, slot and the 64 B of the entry. -/
  | drvSubmit (bay queue slot : Nat) (entry : List Byte)
  /-- An Abort of command `cid` on the admin queue of a bay (12 R378). -/
  | drvAbort (bay cid : Nat)
  /-- Asynchronous Event Requests posted on the admin queue of a bay (12 R369). -/
  | drvAer (bay count : Nat)
  /-- The answer to a drive's memory read (12 R372), and Unsupported Request. -/
  | drvRead (bay addr : Nat) (bytes : List Byte)
  | drvRefused (bay addr : Nat)
  /-- A Flush sent to the drive of a bay at the end of a dump (14 Table 14-3 step 8). -/
  | drvFlush (bay : Nat)
  /-- A label copy written to a member (09 R265). -/
  | label (bay copy : Nat) (bytes : List Byte)
  /-- NVMe Format NVM of a member's drive, to 4,096 B of data and 64 B of metadata (09 R263). -/
  | format (bay : Nat)
  /-- A region of a member written as empty: the map store or the lost-stripe table (09 R266, Table 9-2), by offset and size. -/
  | memberEmpty (bay offset len : Nat)
  /-- A frame of the pair link (15 R433), and a tick-boundary mark on bundle 0 (R443). -/
  | linkFrame (bytes : List Byte)
  | linkMark (tick : Nat)
  /-- A zeroise marker on every bundle (15 R438), with the source code of the alarm. -/
  | zeroMarker (code : Nat)
  /-- A rehearsal's action on the standby (15 Table 15-10). -/
  | rehearse (r : Rehearse)
  /-- Reservation Register and Reservation Acquire with this controller's key, and Acquire, Preempt and Abort naming the old active's key, to
  the drive of a bay (15 R460). -/
  | drvRegister (bay key : Nat)
  | drvAcquire (bay key : Nat)
  | drvPreempt (bay key : Nat)
  /-- An answer of the SPDM responder, of PLDM and of MCTP control on an MCTP transport (16 R488 to R491): 1 PCIe VDM, 2 SMBus. -/
  | spdm (transport : Nat) (r : SpdmRsp)
  | pldm (transport : Nat) (r : PldmRsp)
  | mctp (transport : Nat) (r : MctpRsp)
deriving DecidableEq, Repr


/-- The whole block. -/
structure State where
  /-- Registers by BAR0 offset, those that differ from their reset value (19 R537, R538). -/
  regs : List (Nat × Word)
  /-- Ticks since power-on: the core's count of seams. -/
  now : Nat
  straps : Straps
  itn : Itn
  hst : HostIf
  net : Net
  rdm : Rdm
  cmd : CmdSt
  lay : Lay
  cip : Cip
  drv : Drv
  pwr : Pwr
  env : Env
  pair : Pair
  mgt : Mgt
  crs : Crs
  tel : Tel
  /-- What has been sent out, newest first. -/
  out : List Out
  /-- MODEL'S OWN: how many free values have been drawn. -/
  drawn : Nat
  /-- MODEL'S OWN: the commands that wait, first in, first out. -/
  pending : List Instr
deriving DecidableEq, Repr

/-- The block right after reset: a power-on reset in the configuration of a single controller, with erased SPI NOR devices. -/
def State.reset : State :=
  { regs := [], now := 0, straps := { pairEn := false, pairSlot := false, chSris := false }, itn := Itn.reset,
    hst := HostIf.reset, net := Net.reset, rdm := Rdm.reset, cmd := CmdSt.reset, lay := Lay.reset, cip := Cip.reset, drv := Drv.reset, pwr := Pwr.reset, env := Env.reset, pair := Pair.reset, mgt := Mgt.reset, crs := Crs.reset, tel := Tel.reset, out := [], drawn := 0, pending := [] }

end Sys2Proof.Machine
end

