-- ==== Sys2Proof/Machine/Tab.lean ====
section
/-!
DEFINITION. Sparse tables: a list of (key, value) pairs in one canonical form, keys strictly rising and no entry equal to
what an unlisted key reads as. Equal tables are equal data. Registers, per-channel, per-QP, per-bay records and the like
are held so.
-/

namespace Sys2Proof.Machine

/-- The value at `k`; an unlisted key reads as `d k`. -/
def Tab.rd {α : Type} (d : Nat → α) : List (Nat × α) → Nat → α
  | [], k => d k
  | (k', v) :: t, k => if k = k' then v else Tab.rd d t k

/-- The table with `v` at `k`, in canonical form again. -/
def Tab.wr {α : Type} [DecidableEq α] (d : Nat → α) : List (Nat × α) → Nat → α → List (Nat × α)
  | [], k, v => if v = d k then [] else [(k, v)]
  | (k', v') :: t, k, v =>
    if k < k' then (if v = d k then (k', v') :: t else (k, v) :: (k', v') :: t)
    else if k = k' then (if v = d k then t else (k, v) :: t)
    else (k', v') :: Tab.wr d t k v

/-- Every listed key lies above `lo` and the keys strictly rise. -/
def Tab.above {α : Type} : Nat → List (Nat × α) → Bool
  | _, [] => true
  | lo, (k, _) :: t => decide (lo < k) && Tab.above k t

/-- The keys strictly rise. -/
def Tab.rising {α : Type} : List (Nat × α) → Bool
  | [] => true
  | (k, _) :: t => Tab.above k t

/-- No entry equals what an unlisted key reads as. -/
def Tab.tight {α : Type} [DecidableEq α] (d : Nat → α) (t : List (Nat × α)) : Bool :=
  t.all fun p => decide (p.2 ≠ d p.1)

/-- The canonical form. -/
def Tab.wf {α : Type} [DecidableEq α] (d : Nat → α) (t : List (Nat × α)) : Bool :=
  Tab.rising t && Tab.tight d t

/-- The keys whose value satisfies `p`, in rising order, among the listed ones. -/
def Tab.keys {α : Type} (p : α → Bool) (t : List (Nat × α)) : List Nat :=
  (t.filter fun e => p e.2).map (·.1)

/-- The lowest number from `i` on that is not in the rising list `ks`. -/
def lowestFrom : Nat → List Nat → Nat
  | i, [] => i
  | i, k :: ks => if k < i then lowestFrom i ks else if k = i then lowestFrom (i + 1) ks else i

/-- The lowest key that a table does not list. -/
def Tab.lowest {α : Type} (t : List (Nat × α)) : Nat := lowestFrom 0 (t.map (·.1))

end Sys2Proof.Machine
end

