-- ==== Sys2Proof/Machine/Ops.lean ====
section
/-!
DEFINITION. The operations that the meanings share: registers and their fields, counters and the telemetry accumulators
behind them, free values, events and the event ring, completions, interrupts.
-/

namespace Sys2Proof.Machine

open Sys2Proof

/-! ### Registers (00 R9, R12; 19 R538) -/

/-- The register definition `r` has an instance at offset `off`. -/
def RegDef.hit (r : RegDef) (off : Nat) : Bool :=
  match r.dims with
  | [] => off == r.base
  | [(n, st)] => decide (r.base ≤ off) && (off - r.base) % st == 0 && decide ((off - r.base) / st < n)
  | (n, st) :: (n', st') :: _ =>
    decide (r.base ≤ off) && decide ((off - r.base) / st < n) && (off - r.base) % st % st' == 0
      && decide ((off - r.base) % st / st' < n')

/-- The register at offset `off` of its block, if there is one (00 R10; 19 R537). -/
def regAt (off : Nat) : Option RegDef :=
  match regBlocks.find? fun b => decide (off < b.1) with
  | none => none
  | some b => b.2.find? (·.hit off)

/-- The two decimal digits of a number below 100 as ASCII. -/
def dec2 (n : Nat) : List Nat := [48 + n / 10 % 10, 48 + n % 10]

/-- One uppercase hexadecimal digit as ASCII. -/
def hexDigit (n : Nat) : Nat := if n % 16 < 10 then 48 + n % 16 else 55 + n % 16

/-- Two uppercase hexadecimal digits of a byte as ASCII. -/
def hex2 (n : Nat) : List Nat := [hexDigit (n / 16), hexDigit n]

/-- The 20 characters of the fused serial number (08 CMD_SERIAL): lot, wafer, die X, die Y and eight spaces. -/
def serialChars : List Nat :=
  ((List.range 6).map fun i => (Config.lotChar i).toNat) ++ dec2 Config.wafer.toNat ++ hex2 Config.dieX.toNat
    ++ hex2 Config.dieY.toNat ++ List.replicate 8 32

/-- Characters 4n to 4n + 3 of a byte string, character 4n in bits 7:0. -/
def charWord (cs : List Nat) (n : Nat) : Nat :=
  cs.getD (4 * n) 0 + 256 * (cs.getD (4 * n + 1) 0 + 256 * (cs.getD (4 * n + 2) 0 + 256 * cs.getD (4 * n + 3) 0))

/-- What the identity fuses put into a register's reset value (19 R540; 08 CMD_SERIAL). -/
def fuseReset (off : Nat) : Nat :=
  if off = Reg.GLB_CHIP_ID0 then charWord ((List.range 6).map fun i => (Config.lotChar i).toNat) 0
  else if off = Reg.GLB_CHIP_ID1 then
    (Config.lotChar 4).toNat * 65536 + (Config.lotChar 5).toNat * 16777216 + Config.wafer.toNat
  else if off = Reg.GLB_CHIP_ID2 then Config.dieX.toNat * 256 + Config.dieY.toNat
  else if Reg.CMD_SERIAL 0 ≤ off ∧ off ≤ Reg.CMD_SERIAL 4 then charWord serialChars ((off - Reg.CMD_SERIAL 0) / 4)
  else 0

/-- The reset value of the register at `off`: its fields' reset values; an offset without a register reads as zero. -/
def regReset (off : Nat) : Word :=
  match regAt off with
  | none => 0
  | some r => BitVec.ofNat 32 (r.fields.foldl (fun a f => a + f.reset * 2 ^ f.fld.lsb) 0 + fuseReset off)

/-- The stored word of the register at `off`. -/
def State.rd (s : State) (off : Nat) : Word := Tab.rd regReset s.regs off

/-- The stored word replaced. -/
def State.wrReg (s : State) (off : Nat) (w : Word) : State := { s with regs := Tab.wr regReset s.regs off w }

/-- Field `f` of the register at `off`. -/
def State.fld (s : State) (off : Nat) (f : Fld) : Nat := f.get (s.rd off)

/-- Field `f` of the register at `off` set to `v`. -/
def State.setFld (s : State) (off : Nat) (f : Fld) (v : Nat) : State := s.wrReg off (f.put (s.rd off) v)

/-- Field `f` increased by `n`, stopping at its largest value. -/
def State.satFld (s : State) (off : Nat) (f : Fld) (n : Nat) : State := s.setFld off f (satAdd f.max (s.fld off f) n)

/-- Bit flag read as a Bool. -/
def State.flag (s : State) (off : Nat) (f : Fld) : Bool := s.fld off f == 1

/-- A count field of 0 taken as 1. -/
def State.fld1 (s : State) (off : Nat) (f : Fld) : Nat := or1 (s.fld off f)

/-! ### Counters (18 R521) -/

/-- The key of a counter of Table 18-1: group, instance, index. -/
def telKey (g i j : Nat) : Nat := (g * 262144 + i) * 32 + j

/-- The sender counts `n` events. -/
def Xing.add (x : Xing) (n : Nat) : Xing := { x with count := x.count + n }

/-- The sending side leaves reset: a new epoch, and nothing counted (R515). -/
def Xing.fresh (x : Xing) : Xing := { x with epoch := (x.epoch + 1) % 16, count := 0 }

/-- What the receiving side adds when it takes the count: the change since the last, or, in a new epoch, nothing (R515). -/
def Xing.gain (x : Xing) : Nat := if x.seen = x.epoch then x.count - x.base else 0

/-- The crossing once the receiving side has taken the count. -/
def Xing.taken (x : Xing) : Xing := { x with seen := x.epoch, base := x.count }

/-- The crossing of a counter of the catalogue (17 R515). -/
def State.xing (s : State) (g i j : Nat) : Xing := Tab.rd (fun _ => Xing.reset) s.tel.xings (telKey g i j)

/-- The receiving side takes the count of crossing `x` into its central accumulator: 64 bits, never saturating (18 R521, 17 R515). -/
def State.cross (s : State) (g i j : Nat) (x : Xing) : State :=
  { s with tel := { s.tel with
      xings := Tab.wr (fun _ => Xing.reset) s.tel.xings (telKey g i j) x.taken
      acc := Tab.wr (fun _ => 0) s.tel.acc (telKey g i j)
        ((Tab.rd (fun _ => 0) s.tel.acc (telKey g i j) + x.gain) % 18446744073709551616) } }

/-- A counter counts `n` events, and the count crosses (18 R521: the counters cross into the telemetry domain under R515). -/
def State.acc (s : State) (g i j n : Nat) : State := s.cross g i j ((s.xing g i j).add n)

/-- The domain that counts instance `i` of group `g` leaves reset: its counters begin a new epoch, and the receiving side takes their next
count as the new base (17 R515). -/
def State.senderReset (s : State) (g i : Nat) : State := (List.range 32).foldl (fun (s : State) j => s.cross g i j (s.xing g i j).fresh) s

/-- The whole word as a field. -/
def wordFld : Fld := ⟨0, 32⟩

/-- A counter register at `off` and its accumulator increased by `n`. -/
def State.cnt (s : State) (off g i j n : Nat) : State := (s.satFld off wordFld n).acc g i j n

def State.cntSwc (s : State) (n k : Nat) : State := s.cnt (Reg.SWC_CNT n) 2 0 n k
def State.cntTmg (s : State) (n k : Nat) : State := s.cnt (Reg.TMG_CNT n) 4 0 n k
def State.cntRdm (s : State) (n k : Nat) : State := s.cnt (Reg.RDM_CNT n) 5 0 n k
def State.cntCmd (s : State) (n k : Nat) : State := s.cnt (Reg.CMD_CNT n) 6 0 n k
def State.cntLay (s : State) (n k : Nat) : State := s.cnt (Reg.LAY_CNT n) 7 0 n k
def State.cntMnt (s : State) (n k : Nat) : State := s.cnt (Reg.LAY_MNT_CNT n) 7 0 (16 + n) k
def State.cntCip (s : State) (n k : Nat) : State := s.cnt (Reg.CIP_CNT n) 9 0 n k
def State.cntChk (s : State) (n k : Nat) : State := s.cnt (Reg.CHK_CNT n) 9 0 (8 + n) k
def State.cntDrv (s : State) (n k : Nat) : State := s.cnt (Reg.DRV_CNT n) 10 0 n k
def State.cntBay (s : State) (n k : Nat) : State := s.cnt (Reg.BAY_CNT n) 12 0 n k
def State.cntEnv (s : State) (n k : Nat) : State := s.cnt (Reg.ENV_CNT n) 12 0 (8 + n) k
def State.cntPair (s : State) (n k : Nat) : State := s.cnt (Reg.PAIR_CNT n) 13 0 n k
def State.cntMgt (s : State) (n k : Nat) : State := s.cnt (Reg.MGT_CNT n) 13 0 (16 + n) k
/-- Telemetry's own counters have no accumulator. -/
def State.cntTel (s : State) (n k : Nat) : State := s.satFld (Reg.TEL_CNT n) wordFld k

/-! ### The pair (15 R442, R448) -/

/-- PAIR_STATUS.STATE codes (15 Table 15-9). -/
def pairSingle : Nat := 0
def pairInit : Nat := 1
def pairAlone : Nat := 2
def pairJoinActive : Nat := 3
def pairPaired : Nat := 4
def pairIdle : Nat := 5
def pairJoinStandby : Nat := 6
def pairLocked : Nat := 7
def pairHolding : Nat := 8
def pairSuspect : Nat := 9
def pairTakingOver : Nat := 10

/-- The pair state: SINGLE while PAIR_EN is low (15 R432). -/
def State.pairState (s : State) : Nat := if s.straps.pairEn then s.pair.st else pairSingle

/-- The controller is a standby: it drives none of the shelf's outputs (15 Table 15-9). -/
def State.isStandby (s : State) : Bool :=
  decide (pairIdle ≤ s.pairState) && decide (s.pairState ≤ pairSuspect)

/-- This controller drives the shared outputs: BAY_EN, FAN_PWM and HOLD_CHG_EN; none without VDD_AUX, and without change from
the seam of a handover on (15 R441, R461). -/
def State.drives (s : State) : Bool := !s.crs.dead && (!s.straps.pairEn || (s.pair.shared && s.pair.handTick.isNone))

/-- The network transmitters and drive root ports are enabled (15 R439, R440). -/
def State.netOn (s : State) : Bool := !s.straps.pairEn || s.pair.net

/-- Outputs wait for the receipt of their record (R448). -/
def State.pairHolds (s : State) : Bool := s.pairState == pairPaired || s.pairState == pairJoinActive

/-- A join holds: the sequencer runs idle slots and the change phase applies nothing (R465). -/
def State.joinHold (s : State) : Bool :=
  s.pairState == pairJoinActive && s.fld Reg.PAIR_JOIN_STATUS Fd.PAIR_JOIN_STATUS_PHASE == 3

/-- The record of tick `t` has been receipted, or no output waits for it. -/
def State.receipted (s : State) (t : Nat) : Bool := !s.pairHolds || s.pair.receipt.any fun r => decide (t ≤ r)

/-- An entry of this tick's record: its kind and its fields, 16 B in all (Table 15-7). -/
def State.entry (s : State) (kind : Nat) (fields : List Byte) : State :=
  if s.pairHolds then
    { s with pair := { s.pair with entries := s.pair.entries ++ [(leBytes 1 kind ++ fields ++ zeros 15).take 16] } }
  else s

/-- An event of this tick's digest (R451): 1 transmission, 2 drive command, 3 read outcome, 4 waybill COMMITTED, 5 gate command. -/
def State.digest (s : State) (kind : Nat) (fields : List Nat) : State :=
  if s.pairHolds || s.pairState == pairLocked || s.pairState == pairHolding then
    { s with pair := { s.pair with events := s.pair.events ++ [(kind, fields)] } }
  else s

/-! ### Outputs and free values -/

/-- An item sent out. -/
def State.emit (s : State) (o : Out) : State := { s with out := o :: s.out }

/-- An item sent on a network port or to a drive, while those outputs are enabled. -/
def State.emitNet (s : State) (o : Out) : State := if s.netOn then s.emit o else s

/-- A free value: the next of the sequence that the spec leaves open. -/
def State.draw (s : State) : Nat × State := ((Config.freeValue s.drawn).toNat, { s with drawn := s.drawn + 1 })

/-- A draw of the generator that both controllers of a pair use (15 Table 15-7, RANDOM): a standby takes the active's, by purpose (1 a
starting PSN). -/
def State.drawShared (s : State) (purpose : Nat) : Nat × State :=
  match (if s.isStandby then s.pair.randoms.find? (·.1 == purpose) else none) with
  | some e => (e.2, { s with pair := { s.pair with randoms := s.pair.randoms.erase e } })
  | none =>
    let r := s.draw
    (r.1, r.2.entry 9 (leBytes 1 purpose ++ leBytes 8 r.1))

/-! ### MSI-X (03 R74, R98) -/

/-- The message of `v` is sent, or, while the vector is masked, its pending bit is set. -/
def State.msix (s : State) (v : Nat) : State :=
  if s.fld (Reg.MSIX_CTRL v) ⟨0, 1⟩ = 1 then s.setFld (Reg.MSIX_PBA (v / 32)) ⟨v % 32, 1⟩ 1
  else s.emit (.msix v (hiLo (s.rd (Reg.MSIX_ADDR_HI v)).toNat (s.rd (Reg.MSIX_ADDR_LO v)).toNat) (s.rd (Reg.MSIX_DATA v)).toNat)

/-! ### Rings (03 R78 to R90) -/

/-- The number of the event ring among the rings. -/
def evtRing : Nat := 64

def ringCtl (k : Nat) : Nat := if k = evtRing then Reg.RING_EVT_CTL else Reg.RING_CTL k
def ringSize (k : Nat) : Nat := if k = evtRing then Reg.RING_EVT_SIZE else Reg.RING_SIZE k
def ringCoal (k : Nat) : Nat := if k = evtRing then Reg.RING_EVT_COAL else Reg.RING_COAL k
def ringStatus (k : Nat) : Nat := if k = evtRing then Reg.RING_EVT_STATUS else Reg.RING_STATUS k
def ringIdx (k : Nat) : Nat := if k = evtRing then Reg.RING_EVT_IDX else Reg.RING_IDX k
/-- The base of the ring that the controller writes: completions, or events. -/
def ringBaseLo (k : Nat) : Nat := if k = evtRing then Reg.RING_EVT_BASE_LO else Reg.RING_CPL_BASE_LO k
def ringBaseHi (k : Nat) : Nat := if k = evtRing then Reg.RING_EVT_BASE_HI else Reg.RING_CPL_BASE_HI k
/-- The tail index field: CPL_TAIL, or TAIL of the event ring. -/
def ringTailF (k : Nat) : Fld := if k = evtRing then Fd.RING_EVT_IDX_TAIL else Fd.RING_IDX_CPL_TAIL

/-- Ring states as RING_STATUS.STATE codes them (Table 3-3). -/
def ringDisabled : Nat := 0
def ringRunning : Nat := 1
def ringError : Nat := 2
def ringStopped : Nat := 3

def State.ring (s : State) (k : Nat) : Ring := Tab.rd (fun _ => Ring.reset) s.hst.rings k
def State.setRing (s : State) (k : Nat) (r : Ring) : State :=
  { s with hst := { s.hst with rings := Tab.wr (fun _ => Ring.reset) s.hst.rings k r } }
def State.ringState (s : State) (k : Nat) : Nat := s.fld (ringStatus k) Fd.RING_STATUS_STATE
def State.setRingState (s : State) (k v : Nat) : State := s.setFld (ringStatus k) Fd.RING_STATUS_STATE v
def State.ringTail (s : State) (k : Nat) : Nat := s.fld (ringIdx k) (ringTailF k)

/-- Entries posted and not consumed, modulo ENTRIES (R84). -/
def State.ringPosted (s : State) (k : Nat) : Nat :=
  let r := s.ring k
  if r.entries = 0 then 0 else (s.ringTail k + r.entries - r.cons % r.entries) % r.entries

/-- The base address of the completion or event ring. -/
def State.ringBase (s : State) (k : Nat) : Nat :=
  hiLo (s.rd (ringBaseHi k)).toNat (s.fld (ringBaseLo k) ⟨12, 20⟩ * 4096)

/-- The ring's message is sent when R98 asks for it: entries not signalled, the interrupt enabled, no message since the last
consumer doorbell, and COUNT reached. -/
def State.irqCheck (s : State) (k : Nat) : State :=
  let r := s.ring k
  if s.fld (ringCtl k) Fd.RING_CTL_IRQ_EN = 1 ∧ r.sent = false ∧ 0 < r.unsig ∧ s.fld1 (ringCoal k) Fd.RING_COAL_COUNT ≤ r.unsig then
    (s.setRing k { r with sent := true, unsig := 0 }).msix (s.fld (ringCtl k) Fd.RING_CTL_VECTOR)
  else s

/-- One entry has been written at the tail of ring `k`: the tail advances, the phase inverts on a wrap, the entry counts as
posted and not signalled (R87, R98). -/
def State.ringAdvance (s : State) (k : Nat) : State :=
  let r := s.ring k
  let t := s.ringTail k
  let t' := if r.entries ≤ t + 1 then 0 else t + 1
  let s := s.setFld (ringIdx k) (ringTailF k) t'
  let r := { r with phase := if t' = 0 then !r.phase else r.phase }
  let r := if r.sent then r else { r with unsig := r.unsig + 1, firstUnsig := if r.unsig = 0 then s.now else r.firstUnsig }
  (s.setRing k r).irqCheck k

/-! ### Events (03 R88, R89; 18 R532, R533) -/

/-- The events that are always written to the error log (18 Table 18-6). -/
def alwaysLogged : List Nat :=
  [Ev.CRS_RESET_REPORT, Ev.CRS_CLUSTER_CHECK, Ev.MAC_PORT_LOST, Ev.SWC_ECC_UNCORR, Ev.ITN_VARIANT_ENTERED,
   Ev.ITN_CLUSTER_IDLED, Ev.ITN_BUDGET_OVERRUN, Ev.LAY_POOL_STATE, Ev.LAY_DIRTY_LOST, Ev.LAY_STRIPE_LOST,
   Ev.LAY_LOST_TABLE_FULL, Ev.CIP_ALARM, Ev.CIP_ZEROISED, Ev.CIP_HALT, Ev.CHK_LINE_POISONED, Ev.DRV_BAY_FAILED,
   Ev.BAY_TRIP, Ev.BAY_DAMAGED, Ev.ENV_FAN, Ev.ENV_TEMP, Ev.ENV_DUMP_REPORT, Ev.PAIR_STANDBY_LOST, Ev.PAIR_DIVERGED,
   Ev.PAIR_TAKEOVER_DONE, Ev.MGT_WATCHDOG, Ev.MGT_FW_ACTIVATED, Ev.MGT_FW_FALLBACK, Ev.MGT_SVN_COMMITTED]

/-- The event is selected for the error log (18 R533). -/
def State.logged (s : State) (code : Nat) : Bool :=
  alwaysLogged.contains code || natBit (s.fld Reg.TEL_PERSIST Fd.TEL_PERSIST_MASK) (code / 256)

/-- The largest backlog (03 R89) and the length of the event history (18 R532). -/
def backlogMax : Nat := 65536
def historyMax : Nat := 262144

/-- The PTP seconds and nanoseconds of the last tick boundary (04 R138). -/
def State.seamPtp (s : State) : Nat × Nat := (s.net.seamSec, s.net.seamNs)

/-- An event takes its SEQ and enters the history and, when selected, core 3's queue (R88, R532, R533). -/
def State.newEvent (s : State) (code v0 v1 v2 : Nat) : EvEntry × State :=
  let e : EvEntry := { code := code, seq := s.hst.evSeq, tick := s.itn.tick % 18446744073709551616, v0 := v0 % 4294967296,
                       v1 := v1 % 4294967296, v2 := v2 % 4294967296 }
  let h : HistEnt := { ev := e, ptpSec := s.seamPtp.1, ptpNs := s.seamPtp.2 }
  (e, { s with
    hst := { s.hst with evSeq := (s.hst.evSeq + 1) % 4294967296 }
    tel := { s.tel with
      hist := (s.tel.hist ++ [h]).drop (s.tel.hist.length + 1 - historyMax)
      errQ := if s.logged code && !s.itn.dumpPlan && !s.itn.stopped then s.tel.errQ ++ [h] else s.tel.errQ } })

/-- Once the backlog has room again, the owed RING_EVENTS_LOST enters it (R89). -/
def State.payLost (s : State) : State :=
  if s.hst.lostOwed = 0 ∨ backlogMax ≤ s.hst.backlog.length then s
  else
    let (e, s) := s.newEvent Ev.RING_EVENTS_LOST s.hst.lostOwed 0 0
    { s with hst := { s.hst with backlog := s.hst.backlog ++ [e], lostOwed := 0 } }

/-- The event ring is RUNNING and has a free slot (R84, R89). -/
def State.evtFree (s : State) : Bool :=
  s.ringState evtRing == ringRunning && decide (s.ringPosted evtRing + 1 < (s.ring evtRing).entries)

/-- The 32 bytes of an event (Table 3-6), little-endian (00 R8), with its phase in bit 0 of the last. -/
def EvEntry.entry (e : EvEntry) (phase : Bool) : List Byte :=
  leBytes 2 e.code ++ zeros 2 ++ leBytes 4 e.seq ++ leBytes 8 e.tick ++ leBytes 4 e.v0 ++ leBytes 4 e.v1 ++ leBytes 4 e.v2 ++ zeros 3
    ++ leBytes 1 (b2n phase)

/-- The oldest event of the backlog is posted, if a slot is free and its record is receipted (15 R448). -/
def State.postEvent (s : State) : State :=
  match s.hst.backlog with
  | [] => s
  | e :: es =>
    if s.evtFree && s.receipted e.tick then
      let t := s.ringTail evtRing
      ({ s with hst := { s.hst with backlog := es } }.emit (.evt (s.ringBase evtRing + 32 * t) (e.entry (s.ring evtRing).phase))).ringAdvance evtRing
    else s

/-- Events are posted from the backlog in SEQ order as slots free, at most `n` of them. -/
def State.postEvents : Nat → State → State
  | 0, s => s
  | n + 1, s => State.postEvents n s.postEvent.payLost

/-- The backlog is drained into the event ring as far as slots are free (R89). -/
def State.drainEvents (s : State) : State := State.postEvents (s.hst.backlog.length + 1) s.payLost

/-- An event is raised (03 R88, R89). -/
def State.raise (s : State) (code v0 v1 v2 : Nat) : State :=
  let s := s.payLost
  let (e, s) := s.newEvent code v0 v1 v2
  if backlogMax ≤ s.hst.backlog.length then
    { s with hst := { s.hst with lostOwed := s.hst.lostOwed + 1 } }.satFld Reg.RING_EVT_LOST Fd.RING_EVT_LOST_COUNT 1
  else { s with hst := { s.hst with backlog := s.hst.backlog ++ [e] } }.drainEvents

/-! ### Completions (03 R86, R90, R97) -/

/-- The 32 bytes of a completion (Table 3-5), little-endian (00 R8), with its phase in bit 0 of the last. -/
def Cpl.bytes (c : Cpl) : List Byte :=
  leBytes 2 c.status ++ leBytes 2 c.cmdId ++ leBytes 1 c.ring ++ zeros 1 ++ leBytes 2 c.sqHead ++ leBytes 8 c.result0 ++ leBytes 8 c.result1
    ++ leBytes 4 c.backoff ++ zeros 3 ++ leBytes 1 (b2n c.phase)

/-- A completion of ring `d.ring`: on a RUNNING ring the entry is posted, in ERROR it is held back, otherwise it is discarded (R80, R86).
Work that a standby repeats names no ring (15 R449), and completes nothing. -/
def State.postCpl (s : State) (d : Desc) (status r0 r1 backoff : Nat) : State :=
  let k := d.ring
  if 64 ≤ k then s else
  let r := s.ring k
  let s := s.setRing k { r with outst := r.outst - 1 }
  let r := s.ring k
  let c : Cpl := { status := status, cmdId := d.cmdId, ring := k, sqHead := s.fld (Reg.RING_IDX k) Fd.RING_IDX_CMD_HEAD,
                   result0 := r0, result1 := r1, backoff := backoff, phase := r.phase }
  if s.ringState k = ringRunning then
    let t := s.ringTail k
    (s.emit (.cpl k (s.ringBase k + 32 * t) c.bytes)).ringAdvance k
  else if s.ringState k = ringError then s.setRing k { r with held := r.held ++ [c] }
  else s

/-- A descriptor completes: it leaves the started ones, and its completion is posted, in a pair once its record is receipted (15 R448). -/
def State.complete (s : State) (d : Desc) (status r0 r1 backoff : Nat) : State :=
  let s := { s with hst := { s.hst with started := s.hst.started.filter (fun e => e.seq ≠ d.seq) } }
  if s.pairHolds then { s with pair := { s.pair with held := s.pair.held ++ [⟨s.itn.tick, d, status, r0, r1, backoff⟩] } }
  else s.postCpl d status r0 r1 backoff

/-- A completion without results. -/
def State.done (s : State) (d : Desc) (status : Nat) : State := s.complete d status 0 0 0

/-- A completion when a descriptor waits for it; a register write has none. -/
def State.doneOpt (s : State) (d : Option Desc) (status r0 r1 : Nat) : State :=
  match d with
  | none => s
  | some d => s.complete d status r0 r1 0

/-- A command started on ring `k` has not ended, or its completion is still held back (15 R448). -/
def State.ringBusy (s : State) (k : Nat) : Bool := s.hst.started.any (·.ring == k) || s.pair.held.any (·.desc.ring == k)

/-- Ring `k` settles once every command started on it has ended: a drained ring becomes DISABLED, and the RING_DELETE that waited for it
completes (R80, R102). The permission of R99 stays when it was ENABLE written as 0 that took it out of ERROR or STOPPED. What was fetched on it
and has not started stays on the management work queue (log entry 114). -/
def State.settleRing (s : State) (k : Nat) : State :=
  let r := s.ring k
  if s.ringBusy k = false ∧ (r.draining = true ∨ r.deleting ≠ none) then
    let keep := r.draining && (s.ringState k == ringError || s.ringState k == ringStopped)
    let s := (s.setRing k { r with draining := false, deleting := none, resetup := r.resetup || keep, held := [] }).setRingState k
      ringDisabled
    let s := s.setFld (ringCtl k) Fd.RING_CTL_ENABLE 0
    s.doneOpt r.deleting St.OK 0 0
  else s

/-- A ring leaves RUNNING for ERROR and raises the event that says why; a drain under way ends, since ERROR asks for ENABLE to be written as 0
once more (Table 3-3). -/
def State.ringToError (s : State) (k code v0 v1 v2 : Nat) : State :=
  (((s.setRingState k ringError).setFld (ringStatus k) Fd.RING_STATUS_ERR_STATUS code).setRing k { s.ring k with draining := false }).raise
    code v0 v1 v2

end Sys2Proof.Machine
end

