-- ==== Sys2Proof/Machine/Link.lean ====
section
/-!
DEFINITION. The sending side of the pair link (15 R430 to R437, R449): frames, alive counters, link keys, and the work that the active
has its standby repeat.
-/

namespace Sys2Proof.Machine

open Sys2Proof

def State.pairUp (s : State) : Bool := s.flag Reg.PAIR_LINK Fd.PAIR_LINK_UP
def State.pairKeyed (s : State) : Bool := s.flag Reg.PAIR_LINK Fd.PAIR_LINK_KEYED

/-- This controller's slot (R432). -/
def State.slotNo (s : State) : Nat := b2n s.straps.pairSlot

/-- Frame types of Table 15-3. -/
def lfIngress : Nat := 1
def lfRecord : Nat := 2
def lfStatus : Nat := 3
def lfMgt : Nat := 4
def lfJoin : Nat := 5
def lfResend : Nat := 6
def lfKeyx : Nat := 7

/-- The stream of a frame type (Table 15-4), sent to the standby or by it; 0xFF none. -/
def linkStream (typ : Nat) (toStandby : Bool) : Nat :=
  if typ = lfIngress then 0 else if typ = lfRecord then 1 else if typ = lfMgt then (if toStandby then 2 else 5)
  else if typ = lfJoin then 3 else if typ = lfStatus then 4 else 0xFF

/-- A payload padded with zeros to 16 B (R433). -/
def pad16 (bs : List Byte) : List Byte := bs ++ zeros ((16 - bs.length % 16) % 16)

/-- The largest payload of a frame. -/
def linkMax : Nat := 16384

/-- The bytes split into payloads, at most `n` of them. -/
def chunks16k : Nat → List Byte → List (List Byte)
  | 0, _ => []
  | n + 1, bs => if bs.isEmpty then [] else bs.take linkMax :: chunks16k n (bs.drop linkMax)

/-- MGT frames kept for RESEND: the last 1 MiB (R435). -/
def trimLog (n : Nat) : List (Nat × List Byte) → List (Nat × List Byte)
  | [] => []
  | e :: es => if n ≤ 1048576 then e :: es else trimLog (n - e.2.length) es

/-- The header of a frame (Table 15-2). -/
def linkHeader (typ stream alive plen epoch fcnt : Nat) : List Byte :=
  leBytes 1 typ ++ leBytes 1 stream ++ leBytes 2 alive ++ leBytes 2 plen ++ leBytes 2 epoch ++ leBytes 8 fcnt

/-- The IV of a frame: the sender's slot and FCNT (R437). -/
def linkIv (slot fcnt : Nat) : List Byte := leBytes 4 slot ++ leBytes 8 fcnt

/-- A frame is sent with the alive counter `alive`: sealed under the key of its direction, KEYX as plaintext (R433, R436). -/
def State.linkPut (s : State) (typ stream alive : Nat) (payload : List Byte) : State :=
  let p := pad16 payload
  let h := linkHeader typ stream alive p.length s.pair.epochTx s.pair.fcnt
  let body := if typ = lfKeyx then (p, zeros 16) else Config.gcmSeal s.pair.keyTx (linkIv s.slotNo s.pair.fcnt) h p
  ({ s with pair := { s.pair with fcnt := s.pair.fcnt + 1 } }.cntPair 0 1).emit (.linkFrame (h ++ body.1 ++ body.2))

/-- One payload of a type: nothing is sent while the link is down, and only KEYX while it is unkeyed (R436). Each stream counts its
messages; MGT payloads are kept for RESEND. -/
def State.linkSend (s : State) (typ : Nat) (payload : List Byte) : State :=
  if !s.pairUp || (!s.pairKeyed && typ != lfKeyx) then s
  else
    let st := linkStream typ (!s.isStandby)
    let a := if st = 0xFF then 0 else Tab.rd (fun _ => 0) s.pair.aliveTx st
    let s := if st = 0xFF then s else { s with pair := { s.pair with aliveTx := Tab.wr (fun _ => 0) s.pair.aliveTx st ((a + 1) % 65536) } }
    let log := s.pair.mgtLog ++ [(a, payload)]
    let s := if typ = lfMgt then { s with pair := { s.pair with mgtLog := trimLog (log.foldl (fun n (e : Nat × List Byte) => n + e.2.length) 0) log } }
      else s
    s.linkPut typ st a payload

/-- A message of the MGT stream. -/
def State.mgtSend (s : State) (m : MgtMsg) : State := (Config.mgtBytes m).foldl (State.linkSend · lfMgt ·) s

/-- The link becomes unkeyed, with a cause of PAIR_LINK_STATE: the link keys are cleared (R438). -/
def State.unkey (s : State) (cause : Nat) : State :=
  if s.pairKeyed then
    { s.setFld Reg.PAIR_LINK Fd.PAIR_LINK_KEYED 0 with
      pair := { s.pair with keyTx := [], keyRx := [], seed := [], shareSent := false, linkDue := some (cause + 1), downTick := some s.now } }
  else s

/-- A zeroisation with alarm source `code` sends the zeroise marker on every bundle and then clears the link keys (R438). -/
def State.zeroLink (s : State) (code : Nat) : State :=
  if s.straps.pairEn then ((if s.pairUp then s.emit (.zeroMarker code) else s).unkey 3) else s

/-- The active has the standby repeat work at this tick's seam: an MGT message, and a COMMIT entry that names it (R449). -/
def State.replicate (s : State) (r : Replica) : State :=
  if s.pairState = pairPaired then
    let n := s.pair.workSeq
    ({ s with pair := { s.pair with workSeq := n + 1 } }.mgtSend (.work n r)).entry 5 (leBytes 8 n)
  else s

/-- The pair state that this controller reports to its peer (R439, R463). -/
def State.report (s : State) : State :=
  s.mgtSend (.report s.pairState (s.rd Reg.MGT_FW_VER).toNat (s.rd Reg.MGT_FW_STAGED).toNat (s.flag Reg.PAIR_STATUS Fd.PAIR_STATUS_CLAIMED))

end Sys2Proof.Machine
end

