-- ==== Sys2Proof/Machine/Operands.lean ====
section
/-!
DEFINITION. Ring descriptors as operands: their fields (03 Table 3-4), the objects they name (R95), which descriptor starts
next (R91), and the start of a command: the checks that every opcode shares (R85, R94).
-/

namespace Sys2Proof.Machine

open Sys2Proof

/-! ### Opcodes (03 Table 3-7) -/

def Op.NOP : Nat := 0x00
def Op.RING_CREATE : Nat := 0x01
def Op.RING_DELETE : Nat := 0x02
def Op.IMG_LOAD : Nat := 0x08
def Op.IMG_SWAP : Nat := 0x09
def Op.VARIANT_EXIT : Nat := 0x0A
def Op.HOST_ADD : Nat := 0x10
def Op.HOST_REMOVE : Nat := 0x11
def Op.CHAN_CREATE : Nat := 0x18
def Op.CHAN_MODIFY : Nat := 0x19
def Op.CHAN_DESTROY : Nat := 0x1A
def Op.CHAN_QUERY : Nat := 0x1B
def Op.CHAN_LIST : Nat := 0x1C
def Op.KEY_LOAD : Nat := 0x20
def Op.KEY_DESTROY : Nat := 0x21
def Op.POOL_CREATE : Nat := 0x28
def Op.POOL_DESTROY : Nat := 0x29
def Op.POOL_MEMBER_ADD : Nat := 0x2A
def Op.POOL_MEMBER_REMOVE : Nat := 0x2B
def Op.VOL_CREATE : Nat := 0x30
def Op.VOL_DELETE : Nat := 0x31
def Op.VOL_RESIZE : Nat := 0x32
def Op.MAINT_START : Nat := 0x38
def Op.MAINT_STOP : Nat := 0x39
def Op.BAY_POWER : Nat := 0x40
def Op.ENV_SET : Nat := 0x41
def Op.PAIR_JOIN : Nat := 0x48
def Op.PAIR_TAKEOVER : Nat := 0x49
def Op.PAIR_REHEARSE : Nat := 0x4A
def Op.FW_STAGE : Nat := 0x50
def Op.FW_ACTIVATE : Nat := 0x51
def Op.TEL_CONFIG : Nat := 0x58
def Op.LOG_READ : Nat := 0x59
def Op.NET_ADDR_SET : Nat := 0x60
def Op.QP_DESTROY : Nat := 0x61

/-- The ring opcodes are exactly those of Table 3-7 (R100). -/
def opcodes : List Nat :=
  [Op.NOP, Op.RING_CREATE, Op.RING_DELETE, Op.IMG_LOAD, Op.IMG_SWAP, Op.VARIANT_EXIT, Op.HOST_ADD, Op.HOST_REMOVE,
   Op.CHAN_CREATE, Op.CHAN_MODIFY, Op.CHAN_DESTROY, Op.CHAN_QUERY, Op.CHAN_LIST, Op.KEY_LOAD, Op.KEY_DESTROY,
   Op.POOL_CREATE, Op.POOL_DESTROY, Op.POOL_MEMBER_ADD, Op.POOL_MEMBER_REMOVE, Op.VOL_CREATE, Op.VOL_DELETE,
   Op.VOL_RESIZE, Op.MAINT_START, Op.MAINT_STOP, Op.BAY_POWER, Op.ENV_SET, Op.PAIR_JOIN, Op.PAIR_TAKEOVER,
   Op.PAIR_REHEARSE, Op.FW_STAGE, Op.FW_ACTIVATE, Op.TEL_CONFIG, Op.LOG_READ, Op.NET_ADDR_SET, Op.QP_DESTROY]

/-- Opcodes that a standby accepts (03 R94; 15 R449). -/
def standbyOpcodes : List Nat := [Op.NOP, Op.CHAN_QUERY, Op.CHAN_LIST, Op.LOG_READ, Op.TEL_CONFIG, Op.PAIR_TAKEOVER]

/-- Opcodes that the active applies on both controllers (03 R94). Images and keys travel in messages of their own (15 R449); rings, the
bay and environment commands, firmware and the pair commands concern one controller, whose records or messages tell the other. -/
def replicatedOpcodes : List Nat :=
  [Op.IMG_SWAP, Op.VARIANT_EXIT, Op.HOST_ADD, Op.HOST_REMOVE, Op.CHAN_CREATE, Op.CHAN_MODIFY, Op.CHAN_DESTROY, Op.KEY_DESTROY,
   Op.POOL_CREATE, Op.POOL_DESTROY, Op.POOL_MEMBER_ADD, Op.POOL_MEMBER_REMOVE, Op.VOL_CREATE, Op.VOL_DELETE, Op.VOL_RESIZE,
   Op.MAINT_START, Op.MAINT_STOP, Op.TEL_CONFIG, Op.NET_ADDR_SET, Op.QP_DESTROY]

/-! ### Descriptor fields -/

/-- The field of `n` bytes at descriptor offset `off` (8 or more), little-endian (00 R8). -/
def Desc.f (d : Desc) (off n : Nat) : Nat := leField d.ops (off - 8) n

/-- The `n` bytes at descriptor offset `off`. -/
def Desc.bytes (d : Desc) (off n : Nat) : List Byte := sliceB d.ops (off - 8) n

/-- PRIO, 0 highest to 3 lowest. -/
def Desc.prio (d : Desc) : Nat := d.flags / 2 % 4

def Desc.fence (d : Desc) : Bool := d.flags % 2 == 1

/-- The operand bytes outside the listed (offset, size) fields are zero (R85: unused bytes reserved). -/
def Desc.reservedZero (d : Desc) (used : List (Nat × Nat)) : Bool :=
  (List.range 56).all fun i => used.any (fun u => decide (u.1 ≤ i + 8) && decide (i + 8 < u.1 + u.2)) || d.ops.getD i 0 == 0

/-- A descriptor of 64 bytes as fetched from ring `k`. -/
def Desc.ofBytes (k seq tick : Nat) (bs : List Byte) : Desc :=
  { ring := k, seq := seq, fetchTick := tick, opcode := leField bs 0 1, flags := leField bs 1 1, cmdId := leField bs 2 2,
    handle := leField bs 4 4, ops := sliceB bs 8 56 }

/-- The 64 bytes of a descriptor. -/
def Desc.toBytes (d : Desc) : List Byte :=
  leBytes 1 d.opcode ++ leBytes 1 d.flags ++ leBytes 2 d.cmdId ++ leBytes 4 d.handle ++ d.ops

/-! ### Objects (03 R95) -/

/-- An object that a descriptor names. -/
inductive Obj where
  | chan (i : Nat) | host (i : Nat) | ring (i : Nat) | buf (i : Nat) | key (i : Nat) | kek (i : Nat) | vol (i : Nat)
  | pool (i : Nat) | bay (i : Nat) | port (i : Nat) | qp (i : Nat)
deriving DecidableEq, Repr

/-- The objects that a descriptor names, as R95 lists them by opcode. The bays of POOL_CREATE are those of its bay list in control-host memory,
which is read at its start. -/
def State.objects (s : State) (d : Desc) : List Obj :=
  let o := d.opcode
  if o = Op.RING_CREATE ∨ o = Op.RING_DELETE then [.ring (d.f 8 1)]
  else if o = Op.IMG_LOAD then [.buf (d.f 8 1)]
  else if o = Op.IMG_SWAP ∨ o = Op.VARIANT_EXIT then [.buf 0, .buf 1]
  else if o = Op.HOST_ADD ∨ o = Op.HOST_REMOVE then [.host (d.f 8 2)]
  else if o = Op.CHAN_CREATE then .host (d.f 8 2) :: (if d.f 12 4 = 0 then [] else [.vol (d.f 12 4 - 1)])
  else if o = Op.CHAN_MODIFY ∨ o = Op.CHAN_DESTROY ∨ o = Op.CHAN_QUERY then [.chan (d.handle % 262144)]
  else if o = Op.KEY_LOAD then
    (if d.f 8 1 = 2 then [.kek (d.handle % 16)] else if d.f 8 1 = 1 then [.kek (d.handle % 16)]
     else [.key (d.handle % 65536), .kek (d.f 9 1)])
  else if o = Op.KEY_DESTROY then (if d.f 8 1 = 1 then [.kek (d.handle % 16)] else [.key (d.handle % 65536)])
  else if o = Op.POOL_CREATE then
    .pool (d.handle % 16) :: (d.bays.getD []).map .bay
  else if o = Op.POOL_DESTROY ∨ o = Op.POOL_MEMBER_REMOVE ∨ o = Op.MAINT_START ∨ o = Op.MAINT_STOP then
    [.pool (d.handle % 16)]
  else if o = Op.POOL_MEMBER_ADD then [.pool (d.handle % 16), .bay (d.f 9 1)]
  else if o = Op.VOL_CREATE then
    .vol (d.handle % 65536) :: .pool (d.f 8 1) :: (if d.f 12 4 = 0xFFFFFFFF then [] else [.key (d.f 12 4)])
  else if o = Op.VOL_DELETE ∨ o = Op.VOL_RESIZE then
    [.vol (d.handle % 65536), .pool (Tab.rd (fun _ => Vol.reset) s.lay.vols (d.handle % 65536)).pool]
  else if o = Op.BAY_POWER then [.bay (d.handle % 128)]
  else if o = Op.NET_ADDR_SET then [.port (d.f 8 1)]
  else if o = Op.QP_DESTROY then [.qp (d.f 8 4 % 1048576)]
  else []

/-- An object is a bay. -/
def Obj.isBay : Obj → Bool
  | .bay _ => true
  | _ => false

/-- A POOL_CREATE whose bay list has not been read. -/
def Desc.unread (d : Desc) : Bool := d.opcode == Op.POOL_CREATE && d.bays.isNone

/-- Descriptor `a` names an object of `b`; a `b` whose bay list has not been read is taken to name every bay (log entry 115). -/
def State.clash (s : State) (a b : Desc) : Bool := (s.objects a).any fun o => (s.objects b).contains o || (b.unread && o.isBay)

/-- The descriptor with its bay list as the DMA read returned it: N bytes of `list` (09 Table 9-5). -/
def Desc.withBays (d : Desc) (list : List Byte) : Desc :=
  if d.opcode = Op.POOL_CREATE then { d with bays := some ((list.take (d.f 10 1)).map (·.toNat)) } else d

/-! ### Which descriptor starts next (03 R91, R95) -/

/-- The earlier descriptors of the ring of `d` that have not completed. -/
def State.earlier (s : State) (d : Desc) : List Desc :=
  (s.hst.queue ++ s.hst.started ++ s.pair.held.map (·.desc)).filter fun e => e.ring = d.ring ∧ e.seq < d.seq

/-- FENCE holds a fetched descriptor back from the management work queue (R91): its own, until every earlier one of its ring has completed, or
that of an earlier one that has not completed. -/
def State.fenceHeld (s : State) (d : Desc) : Bool := (d.fence && !(s.earlier d).isEmpty) || (s.earlier d).any (·.fence)

/-- The descriptors of the management work queue at level `l`: those that no FENCE holds back. -/
def State.levelCount (s : State) (l : Nat) : Nat := (s.hst.queue.filter fun d => d.prio = l ∧ s.fenceHeld d = false).length

/-- A descriptor that a FENCE held back found its level full when it joined it (R91, R92). -/
def State.overfull (s : State) (d : Desc) : Bool := d.late && !s.fenceHeld d && decide (1024 < s.levelCount d.prio)

/-- An earlier descriptor of the ring of `d` that has not ended, or a started one, names an object of it (R95). -/
def State.objectBusy (s : State) (d : Desc) : Bool :=
  ((s.hst.queue ++ s.hst.started).filter fun e => e.ring = d.ring ∧ e.seq < d.seq).any (s.clash d ·) || s.hst.started.any (s.clash d ·)

/-- A queued descriptor may start: no FENCE holds it back, its level had room for it, and its objects are free. -/
def State.mayStart (s : State) (d : Desc) : Bool := !s.fenceHeld d && !s.overfull d && !s.objectBusy d

/-- Whole ticks after its fetch tick within which a descriptor starts (R92). -/
def startLimit : Nat := 977

/-- The first queued descriptor of level `l` that may start, in fetch order; one past its limit only completes (R92). -/
def State.nextAt (s : State) (l : Nat) : Option Desc :=
  s.hst.queue.find? (fun d => d.prio = l && decide (s.now ≤ d.fetchTick + startLimit) && s.mayStart d)

/-- The descriptor that management cores 0 to 2 take next: from the highest level that has one (R91). -/
def State.nextDesc (s : State) : Option Desc :=
  (s.nextAt 0) <|> (s.nextAt 1) <|> (s.nextAt 2) <|> (s.nextAt 3)

/-- Management firmware runs on cores 0 to 2 (16 MGT_STATUS.FW_RUN). -/
def State.fwRuns (s : State) : Bool := s.flag Reg.MGT_STATUS Fd.MGT_STATUS_FW_RUN && !s.mgt.coresDown

/-- The descriptor leaves the queue and is started. -/
def State.start (s : State) (d : Desc) : State :=
  { s with hst := { s.hst with queue := s.hst.queue.filter (fun e => e.seq ≠ d.seq), started := s.hst.started ++ [d] } }

/-- The start of a ring command of opcode `op` with what its buffer transfer returned: when the next descriptor to start has that opcode
it is started and `body` runs on it; otherwise the command's condition does not hold and nothing changes. A standby completes an
opcode that it does not accept with GEN_NOT_ACTIVE (R94); a POOL_CREATE whose bay list names a bay in use by another waits (R95); an active in lockstep has the standby repeat the command; ring work waits
while a join holds (15 R465). -/
def State.ringData (s : State) (op : Nat) (ok : Bool) (data : List Byte) (body : Desc → State → State) : State :=
  match (if s.fwRuns && !s.joinHold then s.nextDesc else none) with
  | none => s
  | some d =>
    let d := d.withBays data
    if d.opcode = op ∧ (op = Op.POOL_CREATE → s.objectBusy d = false) then
      let s := s.start d
      if s.isStandby && !standbyOpcodes.contains op then s.done d St.GEN_NOT_ACTIVE
      else if replicatedOpcodes.contains op then (body d s).replicate (.command d.toBytes ok data)
      else body d s
    else s

/-- The start of a ring command that reads no buffer. -/
def State.ringCmd (s : State) (op : Nat) (body : Desc → State → State) : State := s.ringData op true [] body

/-- The effect waits for the change phase of the next seam (02 R21). -/
def State.defer (s : State) (d : Desc) : State := { s with hst := { s.hst with atSeam := s.hst.atSeam ++ [d] } }

/-- A table of checks in order: the status of the first that fails. -/
def firstFail : List (Bool × Nat) → Option Nat
  | [] => none
  | (ok, st) :: cs => if ok then firstFail cs else some st

/-- The checks in order, then the effect; the first failure completes the command with its status and no effect. -/
def State.checked (s : State) (d : Desc) (cs : List (Bool × Nat)) (ok : State → State) : State :=
  match firstFail cs with
  | some st => s.done d st
  | none => ok s

end Sys2Proof.Machine
end

