-- ==== Sys2Proof/Machine/Acc.lean ====
section
/-!
DEFINITION. Named reads and updates of the records in State: image buffers, channels and their capacities, and the views that
several chapters share.
-/

namespace Sys2Proof.Machine

open Sys2Proof

/-! ### Image buffers and the running image (02) -/

def State.buf (s : State) (b : Bool) : ImgBuf := if b then s.itn.bufB else s.itn.bufA

def State.setBuf (s : State) (b : Bool) (x : ImgBuf) : State :=
  if b then { s with itn := { s.itn with bufB := x } } else { s with itn := { s.itn with bufA := x } }

/-- The running image; the empty one while the sequencer does not run. -/
def State.img (s : State) : Image := if s.itn.running then (s.buf s.itn.activeB).img else Image.blank

/-- The class `c` of an image. -/
def Image.cls (im : Image) (c : Nat) : Option Cls := im.classes.find? (·.id == c)

/-- The place of class `c` in the class table. -/
def Image.pos (im : Image) (c : Nat) : Nat := im.classes.findIdx (·.id == c)

/-- CAP(C, k) in variant `v` of an image (02 R47, R56); 0 for an absent class or variant. -/
def Image.cap (im : Image) (v c k : Nat) : Nat :=
  match im.cls c with
  | none => 0
  | some e =>
    if v = 0 then e.caps.getD k 0
    else match im.varts.find? (·.id == v) with
      | none => 0
      | some x => x.caps.getD (12 * im.pos c + k) 0

/-- CAP(C, k) in the plan and variant in force. -/
def State.cap (s : State) (c k : Nat) : Nat := s.img.cap s.itn.variant c k

/-- Cluster `k` is fenced, or idled (ITN_FENCE). -/
def State.fenced (s : State) (k : Nat) : Bool := natBit (s.fld Reg.ITN_FENCE Fd.ITN_FENCE_FENCED) k
def State.idled (s : State) (k : Nat) : Bool := natBit (s.fld Reg.ITN_FENCE Fd.ITN_FENCE_IDLED) k
def State.serves (s : State) (k : Nat) : Bool := !s.fenced k && !s.idled k

/-- The twelve clusters. -/
def clusters : List Nat := List.range 12

/-- The clusters, ascending, that are neither fenced nor idled. -/
def State.servers (s : State) : List Nat := clusters.filter s.serves

/-- The number of the plan in force: 0, or the one of the variant in force (02 R56). -/
def State.planNo (s : State) : Nat :=
  if s.itn.variant = 0 then 0 else ((s.img.varts.find? (·.id == s.itn.variant)).map (·.plan)).getD 0

/-- The clusters on which the plan in force has runs of class `c` (01 R16). -/
def State.runMask (s : State) (c : Nat) : Nat := (s.img.runs.getD s.planNo []).getD (s.img.pos c) 0

/-- The place, from `i` on, of leg `leg` of routine `code` in a chain. -/
def Chain.legFrom (ch : Chain) (i code leg : Nat) : Option Nat :=
  (List.range ch.legs.length).find? fun j => decide (i ≤ j) && (ch.legs.getD j (0, 0, 0)).1 == code && (ch.legs.getD j (0, 0, 0)).2.1 == leg

/-- The chain with identifier `id` of the running image. -/
def State.chain (s : State) (id : Nat) : Option Chain := s.img.chains.find? (·.id == id)

/-- The ready queue in which an item of class `c` waits for a leg, as chain and place (02 R32): of the chains that the plan in force gives the
class, the one in which the leg stands first, the lowest identifier on a tie. The spec does not say which, where a leg stands in several chains
of a class: DESIGN CHOICE, log 118. -/
def State.queueOf (s : State) (c code leg : Nat) : Option (Nat × Nat) :=
  minBy (fun (e : Nat × Nat) => e.2 * 256 + e.1)
    ((s.img.chains.filter fun ch => (s.img.uses.getD s.planNo []).contains (c, ch.id)).filterMap fun ch => (ch.legFrom 0 code leg).map fun j => (ch.id, j))

/-- The pool class of pool `p` in the running image. -/
def State.poolClass (s : State) (p : Nat) : Option Cls := s.img.classes.find? fun c => c.kind == 3 && c.pool == p

/-- The cluster of an item of pool work of pool `p` with placement number `n`: the candidate at position n mod their count
(01 R16); 0xFF when there is none. -/
def State.poolCluster (s : State) (p n : Nat) : Nat :=
  match s.poolClass p with
  | none => 0xFF
  | some c =>
    let cs := s.servers.filter fun k => natBit (s.runMask c.id) k
    if cs.isEmpty then 0xFF else cs.getD (n % cs.length) 0xFF

/-- The number that places an item of pool work: its stripe, or for work tied to none its sequence number. -/
def Work.place (w : Work) : Nat := w.stripe

/-! ### Channels (03 R104 to R111) -/

def State.chan (s : State) (i : Nat) : Chan := Tab.rd (fun _ => Chan.reset) s.hst.chans i
def State.setChan (s : State) (i : Nat) (c : Chan) : State :=
  { s with hst := { s.hst with chans := Tab.wr (fun _ => Chan.reset) s.hst.chans i c } }

/-- A handle: generation and index (R105). -/
def State.handleOf (s : State) (i : Nat) : Nat := (s.chan i).gen * 262144 + i

/-- The channel that a handle names, unless it is stale (R105). -/
def State.chanOf (s : State) (h : Nat) : Option Nat :=
  let i := h % 262144
  if (s.chan i).st ≠ .free ∧ (s.chan i).gen = h / 262144 then some i else none

/-- The channels that are not FREE, in index order. -/
def State.liveChans (s : State) : List Nat := Tab.keys (fun c => c.st != .free) s.hst.chans

/-- The same, oldest first. -/
def State.chansByAge (s : State) : List Nat := sortBy (fun i => (s.chan i).born) s.liveChans

/-- The channel of a host for an NSID, if there is one that is not FREE. -/
def State.findChan (s : State) (host nsid : Nat) : Option Nat :=
  s.liveChans.find? fun i => (s.chan i).host == host && (s.chan i).nsid == nsid

/-- A channel belongs to class `c`: its own, or one that it has not yet left (R109). -/
def Chan.ofClass (ch : Chan) (c : Nat) : Bool := ch.cls == c || ch.oldCls.contains c

/-- The live channels of class `c` on cluster `k` (02 R47): a moved channel counts on its current cluster and, once the
variant has ended, on its home cluster as well. -/
def State.liveOn (s : State) (c k : Nat) : Nat :=
  (s.liveChans.filter fun i =>
    let ch := s.chan i
    ch.ofClass c && (ch.cluster == k || (s.itn.variant == 0 && ch.home == k))).length

/-- What remains of CAP(C, k). -/
def State.capLeft (s : State) (c k : Nat) : Nat := s.cap c k - s.liveOn c k

/-- Channels now suspended (ITN_SUSPENDED). -/
def State.suspended (s : State) : List Nat := s.liveChans.filter fun i => (s.chan i).st == .suspended

/-- Quota of the class of a channel in 1/256 commands per tick, and the cap of its credit, max(Q, 1) (02 R45). -/
def State.quota (s : State) (c : Nat) : Nat := ((s.img.cls c).map (·.quota)).getD 0
def State.creditCap (s : State) (c : Nat) : Nat := max (s.quota c) 256

/-- The cluster that serves a channel's commands: its own, or, when that is fenced or idled, the lowest that serves (02 R69). Only a suspended
channel, or a CLOSING one for which its suspension found no capacity, is left on a cluster that does not serve. -/
def State.serveCluster (s : State) (i : Nat) : Nat :=
  let ch := s.chan i
  if s.serves ch.cluster then ch.cluster else s.servers.headD ch.cluster

/-! ### Waybills (08) -/

def State.wb (s : State) (w : Nat) : Waybill := Tab.rd (fun _ => Waybill.reset) s.cmd.wbs w
def State.setWb (s : State) (w : Nat) (x : Waybill) : State :=
  { s with cmd := { s.cmd with wbs := Tab.wr (fun _ => Waybill.reset) s.cmd.wbs w x } }
def State.updWb (s : State) (w : Nat) (f : Waybill → Waybill) : State := s.setWb w (f (s.wb w))

/-- The waybills that are not FREE and satisfy `p`, in index order. -/
def State.wbsThat (s : State) (p : Waybill → Bool) : List Nat := Tab.keys (fun x => x.st != .free && p x) s.cmd.wbs

/-- The waybills in flight of channel index `i` (02 R48). -/
def State.inFlight (s : State) (i : Nat) : Nat := (s.wbsThat fun x => x.chan == s.handleOf i).length

/-! ### Capsules and items (02 R32, 08 R235) -/

def State.cap? (s : State) (id : Nat) : Option Capsule := s.cmd.caps.find? (·.id == id)
def State.updCap (s : State) (id : Nat) (f : Capsule → Capsule) : State :=
  { s with cmd := { s.cmd with caps := s.cmd.caps.map fun c => if c.id == id then f c else c } }
def State.dropCap (s : State) (id : Nat) : State := { s with cmd := { s.cmd with caps := s.cmd.caps.filter (·.id != id) } }

/-- An item joins the end of the ready queues. -/
def State.addItem (s : State) (it : Item) : State := { s with cmd := { s.cmd with items := s.cmd.items ++ [it] } }
/-- The order of a ready queue (R32): by the tick, and within it leg records, in engine order, before what the latch banks bring. -/
def Item.key (it : Item) : Nat := if it.input then 256 * it.ready + 255 else 256 * it.ready + it.eng
/-- The items that wait for an event and satisfy `p` become ready, as `f` says, in the order in which the events come. -/
def State.wakeItems (s : State) (p : Item → Bool) (f : Item → Item) : State :=
  let hit (it : Item) : Bool := p it && it.wait == .event
  { s with cmd := { s.cmd with items := s.cmd.items.filter (fun it => !hit it) ++ (s.cmd.items.filter hit).map f } }
def State.dropItems (s : State) (p : Item → Bool) : State := { s with cmd := { s.cmd with items := s.cmd.items.filter fun it => !p it } }

/-- The class in which an item of a channel's command is served; 0xFE for a capsule of no class (08 R571). -/
def noClass : Nat := 0xFE

/-- The class in which a channel's commands are served: `c`, or 0xFE while the channel is suspended, or is CLOSING and left on a cluster that
does not serve: the class that serves every command type on every cluster (02 R55, R69; log 119). -/
def State.classOf (s : State) (i c : Nat) : Nat :=
  if (s.chan i).st = .suspended ∨ ((s.chan i).st = .closing ∧ ¬ s.serves (s.chan i).cluster) then noClass else c

/-- The class in which a capsule is served: its channel's, or the one of R571. -/
def State.serveClass (s : State) (c : Capsule) : Nat :=
  match c.chan with
  | some i => s.classOf i (s.chan i).cls
  | none => c.cls

/-- A capsule is posted to a task register of its cluster: RX_PARSE may take it from the next tick on (02 R29). -/
def State.postCap (s : State) (id : Nat) (reject : Bool) : State :=
  match s.cap? id with
  | none => s
  | some c =>
    let cls := s.serveClass c
    (s.updCap id fun c => { c with reject := reject, deferred := false }).addItem
      { ref := .cap id, cluster := c.cluster, cls := cls, code := 0x01, leg := 1, wait := .none, ready := s.now + 1, input := true }

/-- Every deferred command of channel `i` is posted: suspension, destruction and a meter set to none end its deferral (07
R209). -/
def State.releaseDeferred (s : State) (i : Nat) : State :=
  let ids := (s.chan i).defq
  ids.foldl (fun s id => s.postCap id false) (s.setChan i { s.chan i with defq := [] })

/-! ### Controllers (08 R229) -/

def State.ctrl (s : State) (k : Nat) : Ctrl := Tab.rd (fun _ => Ctrl.reset) s.cmd.ctrls k
def State.setCtrl (s : State) (k : Nat) (x : Ctrl) : State :=
  { s with cmd := { s.cmd with ctrls := Tab.wr (fun _ => Ctrl.reset) s.cmd.ctrls k x } }
def State.updCtrl (s : State) (k : Nat) (f : Ctrl → Ctrl) : State := s.setCtrl k (f (s.ctrl k))

/-- The key of a controller is h + 16,384 × slot; its CNTLID is one more. -/
def ctrlHost (k : Nat) : Nat := k % 16384
def cntlid (k : Nat) : Nat := k + 1
def State.liveCtrls (s : State) : List Nat := Tab.keys (fun c => c.live) s.cmd.ctrls

/-- An event on which the items of waybill `w` wait is handed off: they are ready from the next tick (02 R33). -/
def State.wakeWb (s : State) (w : Nat) : State :=
  s.wakeItems (fun it => it.ref == .wb w) fun it => { it with wait := .none, ready := s.now + 1, input := true }

/-- Core cycles since START at cycle `c` of the current tick (05 R172). -/
def State.stampAt (s : State) (c : Nat) : Nat := s.itn.tick * 2048 + c

/-! ### Changes of the change phase (01 R21) -/

/-- The rows that are changes of the change phase of a seam, or its latching of the telemetry dump. -/
def isChange : Instr → Bool
  | .itnSwapped => true
  | .channelFree _ => true
  | .channelReturnHome _ => true
  | .dumpEntry => true
  | .pllTrimUpdate => true
  | .maintActivityStart _ => true
  | .maintPreempted _ => true
  | .scrubRepeat _ => true
  | .maintLoadUpdate => true
  | .telemetryDumpLatch => true
  | _ => false

/-- The tick has come to its seam: SEAM follows, perhaps after other rows that belong to its change phase. Such a row changes nothing within a tick
(R21): it takes effect when the sender gives it at the seam, and SEAM itself makes every change that is due at it (DEDUCED, log 122). -/
def State.atSeam (s : State) : Bool := (s.pending.dropWhile isChange).head? == some .seam

/-- A run-time change of R21 may take effect: at a seam, and not at the one that enters a dump or at any later one (02 R65). -/
def State.changesRun (s : State) : Bool := s.atSeam && s.itn.dumpDue == 0 && !s.itn.dumpPlan

/-! ### The pair (15) -/

def State.setPair (s : State) (f : Pair → Pair) : State := { s with pair := f s.pair }

/-- A join ends at the next seam, with a cause of R466; the first cause stands. -/
def State.joinAbort (s : State) (cause : Nat) : State :=
  if s.pairState == pairJoinActive || s.pairState == pairJoinStandby then
    s.setPair fun p => { p with join := p.join.map fun j => if j.abort.isSome then j else { j with abort := some cause } }
  else s

end Sys2Proof.Machine
end

