-- ==== Sys2Proof/Machine/Crc.lean ====
section
/-!
DEFINITION. The three CRCs of 11 R358, Table 11-12, bit by bit.
-/

namespace Sys2Proof.Machine

open Sys2Proof

/-- One bit step of a reflected CRC: the register moves right, and the reflected polynomial enters on a 1. -/
def crcStepR {n : Nat} (poly c : BitVec n) : BitVec n := if c.getLsbD 0 then (c >>> 1) ^^^ poly else c >>> 1

/-- One bit step of an unreflected CRC: the register moves left, and the polynomial enters on a 1. -/
def crcStepL {n : Nat} (poly c : BitVec n) : BitVec n := if c.msb then (c <<< 1) ^^^ poly else c <<< 1

/-- Eight bit steps. -/
def eight {n : Nat} (f : BitVec n → BitVec n) (c : BitVec n) : BitVec n := f (f (f (f (f (f (f (f c)))))))

/-- A reflected CRC register over bytes, least significant bit first. -/
def crcRunR {n : Nat} (poly : BitVec n) (c : BitVec n) : List Byte → BitVec n
  | [] => c
  | b :: bs => crcRunR poly (eight (crcStepR poly) (c ^^^ b.setWidth n)) bs

/-- The unreflected 16-bit CRC register over bytes. -/
def crcRun16 (c : BitVec 16) : List Byte → BitVec 16
  | [] => c
  | b :: bs => crcRun16 (eight (crcStepL 0x8BB7) (c ^^^ (b.setWidth 16 <<< 8))) bs

/-- CRC-32C's reflected polynomial, and CRC-64 NVMe's. -/
def poly32 : BitVec 32 := 0x82F63B78
def poly64 : BitVec 64 := 0x9A6C9329AC4BC9B5

/-- CRC-32C continued from the result `prev`; a fresh one starts from 0 (Table 11-12: initial value and final XOR are ones). -/
def crc32cFrom (prev : BitVec 32) (bs : List Byte) : BitVec 32 := ~~~ (crcRunR poly32 (~~~ prev) bs)
def crc32c (bs : List Byte) : BitVec 32 := crc32cFrom 0 bs
/-- CRC-16 T10-DIF. -/
def crc16From (prev : BitVec 16) (bs : List Byte) : BitVec 16 := crcRun16 prev bs
def crc16 (bs : List Byte) : BitVec 16 := crc16From 0 bs
/-- CRC-64 NVMe. -/
def crc64From (prev : BitVec 64) (bs : List Byte) : BitVec 64 := ~~~ (crcRunR poly64 (~~~ prev) bs)
def crc64 (bs : List Byte) : BitVec 64 := crc64From 0 bs

/-- The CRC-32 of the Ethernet FCS (06 R187), which RoCEv2 uses for its ICRC as well. -/
def crc32 (bs : List Byte) : BitVec 32 := ~~~ (crcRunR 0xEDB88320 (~~~ (0 : BitVec 32)) bs)

end Sys2Proof.Machine
end

