-- ==== Sys2Proof/Machine/Parity.lean ====
section
/-!
DEFINITION. Parity arithmetic in GF(2^8) (09 R272, R273), the syndromes of a scrub (10 R321), and the units with a fixed
content (10 R316, R323).
-/

namespace Sys2Proof.Machine

open Sys2Proof

/-- Bytes of a unit: 4,096 of data and 64 of tail (09 R263). -/
def unitBytes : Nat := 4160

/-- The all-zero unit of a sanitize (10 R323), and the poison unit (10 R316). -/
def zeroUnit : List Byte := zeros unitBytes
def poisonUnit : List Byte := zeros 4096 ++ List.replicate 64 0xFF

/-- Multiplication by g = 0x02 under 0x11D. -/
def gf2 (b : Byte) : Byte := if b.msb then (b <<< 1) ^^^ 0x1D else b <<< 1

/-- `g^n · b`. -/
def gfShift : Nat → Byte → Byte
  | 0, b => b
  | n + 1, b => gf2 (gfShift n b)

/-- The product of two field elements. -/
def gfMul (a b : Byte) : Byte :=
  (List.range 8).foldl (fun r i => if a.getLsbD i then r ^^^ gfShift i b else r) 0

/-- `a^n`. -/
def gfPow (a : Byte) : Nat → Byte
  | 0 => 1
  | n + 1 => gfMul a (gfPow a n)

/-- The inverse of a non-zero element, `a^254`. -/
def gfInv (a : Byte) : Byte := gfPow a 254

def xorB (a b : List Byte) : List Byte := List.zipWith (· ^^^ ·) a b

/-- `g^n` times every byte of a unit. -/
def gfScale (n : Nat) (u : List Byte) : List Byte := u.map (gfShift n)

/-- Σ Dj and Σ g^j·Dj over the listed data units, as position and bytes. -/
def sumP (ds : List (Nat × List Byte)) : List Byte := ds.foldl (fun a e => xorB a e.2) zeroUnit
def sumQ (ds : List (Nat × List Byte)) : List Byte := ds.foldl (fun a e => xorB a (gfScale e.1 e.2)) zeroUnit

/-- The unit of a row at strip position `j`, when it is among `vals` (position and bytes). -/
def rowAt (vals : List (Nat × List Byte)) (j : Nat) : Option (List Byte) := (vals.find? (fun (e : Nat × List Byte) => e.1 == j)).map (·.2)

/-- The data units of a row of `k` data strips: those present, and those that Table 9-7 recovers when at most two units of the
row are missing. -/
def rowData (k : Nat) (vals : List (Nat × List Byte)) : Option (List (Nat × List Byte)) :=
  let ds := vals.filter fun e => decide (e.1 < k)
  match (List.range k).filter (fun j => (rowAt vals j).isNone), rowAt vals k, rowAt vals (k + 1) with
  | [], _, _ => some ds
  | [x], some p, _ => some (ds ++ [(x, xorB p (sumP ds))])
  | [x], none, some q => some (ds ++ [(x, (xorB q (sumQ ds)).map fun b => gfMul (gfInv (gfShift x 1)) b)])
  | [x, y], some p, some q =>
    let a := xorB p (sumP ds)
    let b := xorB q (sumQ ds)
    let dx := (xorB b (gfScale y a)).map fun v => gfMul (gfInv (gfShift x 1 ^^^ gfShift y 1)) v
    some (ds ++ [(x, dx), (y, xorB a dx)])
  | _, _, _ => none

/-- The whole row, P at position k and Q at k + 1, when it can be recovered (R273). -/
def rowAll (k : Nat) (vals : List (Nat × List Byte)) : Option (List (Nat × List Byte)) :=
  (rowData k vals).map fun ds => ds ++ [(k, sumP ds), (k + 1, sumQ ds)]

/-- What a scrub finds in a row with no unit missing (10 Table 10-3). -/
inductive ScrubRow where
  | consistent
  /-- The unit at a position is wrong, with its corrected bytes. -/
  | wrong (pos : Nat) (data : List Byte)
  | lost
deriving DecidableEq, Repr

def scrubRow (k : Nat) (vals : List (Nat × List Byte)) : ScrubRow :=
  let ds := vals.filter fun e => decide (e.1 < k)
  let p := (rowAt vals k).getD zeroUnit
  let q := (rowAt vals (k + 1)).getD zeroUnit
  let sp := xorB p (sumP ds)
  let sq := xorB q (sumQ ds)
  if allZero sp && allZero sq then .consistent
  else if allZero sq then .wrong k (xorB p sp)
  else if allZero sp then .wrong (k + 1) (xorB q sq)
  else match (List.range k).find? (fun z => gfScale z sp == sq) with
    | some z => .wrong z (xorB ((rowAt vals z).getD zeroUnit) sp)
    | none => .lost

end Sys2Proof.Machine
end

