-- ==== Sys2Proof/Machine/Layout.lean ====
section
/-!
DEFINITION. Pools, frames and placement (09 R262 to R274), the member slots and where each strip now lies (R270; 10 R303 to
R306), volumes and their maps, the cache and its dirty limit (R281 to R285), the journal (R294) and the destage list (R288).
-/

namespace Sys2Proof.Machine

open Sys2Proof

/-! ### The division of on-chip SRAM and of HBM (01 R17, Table 1-2; R18, Table 1-3) -/

inductive Sram where
  | packets | contexts | scratch | waybills | locks | staging | management | keys
deriving DecidableEq, Repr

def Sram.all : List Sram := [.packets, .contexts, .scratch, .waybills, .locks, .staging, .management, .keys]

/-- Bytes of a use of the on-chip SRAM, fixed in silicon. -/
def Sram.bytes : Sram → Nat
  | .packets => 96 * 1048576
  | .contexts => 65536 * 512
  | .scratch => 96 * 262144
  | .waybills => 262144 * 48
  | .locks => 65536 * 64
  | .staging => 16 * 1048576
  | .management => 4 * 1048576
  | .keys => 65536 * 64

inductive Hbm where
  | homes | maps | journal | lost | queues | telemetry | maintenance | images | management | cache
deriving DecidableEq, Repr

def Hbm.all : List Hbm := [.homes, .maps, .journal, .lost, .queues, .telemetry, .maintenance, .images, .management, .cache]

/-- MiB of a region of HBM. -/
def Hbm.mib : Hbm → Nat
  | .homes => 512
  | .maps => 3072
  | .journal => 128
  | .lost => 32
  | .queues => 1024
  | .telemetry => 1024
  | .maintenance => 2048
  | .images => 96
  | .management => 256
  | .cache => 90112

/-- Bytes of the parity and staging buffers that the buffers of outstanding drive commands hold; maintenance reads land in the maintenance staging
region of HBM instead (10 R307, 12 R372). The spec gives nothing that happens when they are full: log 143. -/
def State.stagingUse (s : State) : Nat :=
  (((s.drv.cmds.filterMap fun (e : Nat × Option DrvCmd) => e.2).filter fun c => !c.maint || c.write).map fun c => c.units * 4160).sum

/-! ### Named reads and updates -/

def State.pool (s : State) (p : Nat) : Pool := Tab.rd (fun _ => Pool.reset) s.lay.pools p
def State.setPool (s : State) (p : Nat) (x : Pool) : State :=
  { s with lay := { s.lay with pools := Tab.wr (fun _ => Pool.reset) s.lay.pools p x } }
def State.updPool (s : State) (p : Nat) (f : Pool → Pool) : State := s.setPool p (f (s.pool p))

def State.vol (s : State) (v : Nat) : Vol := Tab.rd (fun _ => Vol.reset) s.lay.vols v
def State.setVol (s : State) (v : Nat) (x : Vol) : State :=
  { s with lay := { s.lay with vols := Tab.wr (fun _ => Vol.reset) s.lay.vols v x } }
def State.updVol (s : State) (v : Nat) (f : Vol → Vol) : State := s.setVol v (f (s.vol v))

def State.line (s : State) (i : Nat) : Line := Tab.rd (fun _ => Line.reset) s.lay.lines i
def State.setLine (s : State) (i : Nat) (x : Line) : State :=
  { s with lay := { s.lay with lines := Tab.wr (fun _ => Line.reset) s.lay.lines i x } }
def State.updLine (s : State) (i : Nat) (f : Line → Line) : State := s.setLine i (f (s.line i))

def State.jent (s : State) (i : Nat) : JEnt := Tab.rd (fun _ => JEnt.reset) s.lay.journal i
def State.setJent (s : State) (i : Nat) (x : JEnt) : State :=
  { s with lay := { s.lay with journal := Tab.wr (fun _ => JEnt.reset) s.lay.journal i x } }

def State.work? (s : State) (id : Nat) : Option Work := s.lay.works.find? (·.id == id)
def State.updWork (s : State) (id : Nat) (f : Work → Work) : State :=
  { s with lay := { s.lay with works := s.lay.works.map fun w => if w.id == id then f w else w } }
def State.dropWork (s : State) (id : Nat) : State := { s with lay := { s.lay with works := s.lay.works.filter (·.id != id) } }

/-- The pools that exist, and the volumes that are not free. -/
def State.pools (s : State) : List Nat := Tab.keys (fun p => p.st != 0) s.lay.pools
def State.vols (s : State) : List Nat := Tab.keys (fun v => v.st != 0) s.lay.vols
def State.volsOf (s : State) (p : Nat) : List Nat := s.vols.filter fun v => (s.vol v).pool == p

/-- The reservation record of a volume (08 R253). -/
def State.resv (s : State) (v : Nat) : Resv := Tab.rd (fun _ => Resv.reset) s.cmd.resvs v
def State.setResv (s : State) (v : Nat) (r : Resv) : State :=
  { s with cmd := { s.cmd with resvs := Tab.wr (fun _ => Resv.reset) s.cmd.resvs v r } }

/-! ### Geometry (R262, R264, R269) -/

def Pool.w (P : Pool) : Nat := P.k + 2
/-- Stripes per frame. -/
def Pool.g (P : Pool) : Nat := if P.layout = 0 then 1 else (P.n - P.spare) / P.w
def Pool.strip (P : Pool) : Nat := 2 ^ P.shift
/-- Units in a strip, and data units in a stripe. -/
def Pool.u (P : Pool) : Nat := P.strip / 4096
def Pool.d (P : Pool) : Nat := P.k * P.u
def gib : Nat := 1073741824
def Pool.base (P : Pool) : Nat := (1 + P.dump) * gib
def Pool.stripes (P : Pool) : Nat := P.frames * P.g
/-- Whole stripes of a slab, and the slabs of the pool (R274). -/
def Pool.slabStripes (P : Pool) : Nat := ceilDiv 268435456 (P.k * P.strip)
def Pool.slabs (P : Pool) : Nat := P.stripes / P.slabStripes
/-- Data units in a slab. -/
def Pool.slabUnits (P : Pool) : Nat := P.slabStripes * P.d

/-- The integers from 1 to N − 1 that share no factor with N. -/
def coprimes (n : Nat) : List Nat := (List.range n).filter fun c => decide (1 ≤ c) && Nat.gcd c n == 1

/-- The multiplier a_f of frame `f`, and the member that holds its position `p` (R269). -/
def Pool.mult (P : Pool) (f : Nat) : Nat :=
  if P.layout = 0 then 1
  else
    let cs := coprimes P.n
    cs.getD (f / P.n % cs.length) 1
def Pool.memberAt (P : Pool) (f p : Nat) : Nat := (P.mult f * p + f % P.n) % P.n
/-- The frame position of member `m` (the inverse). -/
def Pool.posOf (P : Pool) (f m : Nat) : Nat := ((List.range P.n).find? fun p => P.memberAt f p == m).getD 0

/-- The frame of a stripe, and the frame position of its strip `j`. -/
def Pool.frameOf (P : Pool) (st : Nat) : Nat := st / P.g
def Pool.stripPos (P : Pool) (st j : Nat) : Nat := st % P.g * P.w + j

/-- Pool unit `u` as stripe, row and strip position (R269), and the inverse. -/
def Pool.place (P : Pool) (u : Nat) : Nat × Nat × Nat := (u / P.d, u % P.d % P.u, u % P.d / P.u)
def Pool.unitOf (P : Pool) (st row pos : Nat) : Nat := st * P.d + pos * P.u + row

/-- The member LBA of row `row` of frame `f`. -/
def Pool.lba (P : Pool) (f row : Nat) : Nat := (P.base + f * P.strip + row * 4096) / 4096

/-! ### Where a strip lies (R270; 10 R303, R305) -/

def Slot.reset : Slot := { st := .vacant, bay := 0xFF, target := none, gen := 0, built := [], bytes := 0 }
def Pool.slot (P : Pool) (z : Nat) : Slot := P.slots.getD z Slot.reset
def Pool.setSlot (P : Pool) (z : Nat) (x : Slot) : Pool := { P with slots := P.slots.set z x }
def Slot.view (x : Slot) : SlotView := { st := x.st, home := x.target.isSome, gen := x.gen }
def Pool.views (P : Pool) : List SlotView := P.slots.map Slot.view

/-- Members whose strips are relocated, in the order of FAIL_ORDER: those that hold a strip of a stripe in frame `f`. -/
def Pool.displaced (P : Pool) (order : List Nat) (f : Nat) : List Nat :=
  order.filter fun z => decide (P.posOf f z < P.g * P.w)

/-- The members of the spare positions of frame `f`, ascending by position, that are not in the failure order. -/
def Pool.spares (P : Pool) (order : List Nat) (f : Nat) : List Nat :=
  ((List.range (P.n - P.g * P.w)).map fun i => P.memberAt f (P.g * P.w + i)).filter fun m => !order.contains m

/-- The member that holds the spare position assigned to slot `z` in frame `f`. -/
def Pool.spareOf (P : Pool) (order : List Nat) (f z : Nat) : Option Nat :=
  (((P.displaced order f).zip (P.spares order f)).find? fun (e : Nat × Nat) => e.1 == z).map (·.2)

/-- The destination of slot `z`'s strip in frame `f` (R305) as the holding slot and its generation: home when a target bay is
set, otherwise the assigned spare position. -/
def Pool.destIn (P : Pool) (order : List Nat) (views : List SlotView) (f z : Nat) : Option (Nat × Nat) :=
  let gen (m : Nat) : Nat := ((views[m]?).map (·.gen)).getD 0
  if ((views[z]?).map (·.home)).getD false then some (z, gen z)
  else (P.spareOf order f z).map fun m => (m, gen m)

def Pool.dest (P : Pool) (f z : Nat) : Option (Nat × Nat) := P.destIn P.failOrder P.views f z

/-- The strip of slot `z` in frame `f` has been rebuilt at destination `d`. -/
def Pool.builtAt (P : Pool) (f z : Nat) (d : Nat × Nat) : Bool :=
  (P.slot z).built.any fun r => decide (r.lo ≤ f) && decide (f < r.hi) && P.destIn r.order r.slots f z == some d

/-- The spare position of slot `z` in frame `f`, with the generation of its holder. -/
def Pool.spareDest (P : Pool) (f z : Nat) : Option (Nat × Nat) :=
  (P.spareOf P.failOrder f z).map fun m => (m, (P.slot m).gen)

/-- The bay that now holds the strip of slot `z` in frame `f`; none while it is missing. A strip that lies at its spare position
is used there until it is rebuilt on the target bay (R306). -/
def Pool.holder (P : Pool) (f z : Nat) : Option Nat :=
  let x := P.slot z
  if x.st = .present then some x.bay
  else
    match P.dest f z with
    | none => none
    | some d =>
      if P.builtAt f z d then (if d.1 = z then x.target else some (P.slot d.1).bay)
      else match P.spareDest f z with
        | some e => if P.builtAt f z e then some (P.slot e.1).bay else none
        | none => none

/-- The bay and member LBA of a unit of a stripe; none while its member is missing. -/
def Pool.unitLoc (P : Pool) (st row pos : Nat) : Option (Nat × Nat) :=
  let f := P.frameOf st
  (P.holder f (P.memberAt f (P.stripPos st pos))).map fun bay => (bay, P.lba f row)

/-- MISSING slots, and the state that their number gives (R304). -/
def Pool.missing (P : Pool) : Nat := (P.slots.filter fun x => x.st == .missing).length
def Pool.stateOf (P : Pool) : Nat := min 5 (2 + P.missing)

/-- The bays of the members that are not missing, ascending by slot. -/
def Pool.bays (P : Pool) : List Nat :=
  (P.slots.filter fun x => x.st == .present || x.st == .copyback).map fun x => if x.st = .present then x.bay else x.target.getD x.bay

/-- The bays of all pools that are not missing. -/
def State.memberBays (s : State) : List Nat := s.pools.flatMap fun p => (s.pool p).bays

/-- Bay `b` belongs to pool and slot. -/
def State.memberOf (s : State) (b : Nat) : Option (Nat × Nat) :=
  (s.pools.flatMap fun p => ((List.range (s.pool p).slots.length).filter fun z =>
    let x := (s.pool p).slot z
    (x.bay == b && x.st != .vacant && x.st != .missing) || x.target == some b).map fun z => (p, z)).head?

/-! ### Volumes and maps (R274, R275) -/

/-- LBA data size and metadata size of an LBA format (08 Table 8-2). -/
def lbaData (f : Nat) : Nat := if f ≤ 1 then 512 else 4096
def lbaMeta (f : Nat) : Nat := if f = 1 ∨ f = 3 then 8 else if f = 4 then 16 else 0
/-- Blocks in a unit. -/
def unitBlocks (f : Nat) : Nat := if f ≤ 1 then 8 else 1

/-- Volume units of a number of blocks. -/
def Vol.units (x : Vol) : Nat := ceilDiv x.blocks (unitBlocks x.lbaf)

/-- Slabs for `blocks` blocks of format `f` in pool `P`. -/
def Pool.slabsFor (P : Pool) (f blocks : Nat) : Nat := ceilDiv (ceilDiv blocks (unitBlocks f)) P.slabUnits

/-- The pool unit of volume unit `t` (R274). -/
def State.poolUnit (s : State) (v t : Nat) : Nat :=
  let x := s.vol v
  let n := (s.pool x.pool).slabUnits
  (x.slabs ++ x.tail).getD (t / n) 0 * n + t % n

/-- Stripe, row and position of volume unit `t`. -/
def State.unitPlace (s : State) (v t : Nat) : Nat × Nat × Nat := (s.pool (s.vol v).pool).place (s.poolUnit v t)

/-- The volume and volume unit that a data unit of a stripe of pool `p` holds. -/
def State.unitOwner (s : State) (p st row pos : Nat) : Option (Nat × Nat) :=
  let P := s.pool p
  let u := P.unitOf st row pos
  let slab := u / P.slabUnits
  ((s.volsOf p).find? fun v => (s.vol v).slabs.contains slab).map fun v =>
    (v, (s.vol v).slabs.findIdx (· == slab) * P.slabUnits + u % P.slabUnits)

/-- The `i`-th stripe of a volume's slabs, and the place of a stripe among them (R278). -/
def State.initStripe (s : State) (v i : Nat) : Nat :=
  let n := (s.pool (s.vol v).pool).slabStripes
  (s.vol v).slabs.getD (i / n) 0 * n + i % n
def State.initIndex (s : State) (v st : Nat) : Nat :=
  let n := (s.pool (s.vol v).pool).slabStripes
  (s.vol v).slabs.findIdx (· == st / n) * n + st % n

/-- Slabs of pool `p` that a volume holds. -/
def State.slabsUsed (s : State) (p : Nat) : List Nat := (s.volsOf p).flatMap fun v => (s.vol v).slabs ++ (s.vol v).tail
/-- The `n` lowest free slabs, if there are so many. -/
def lowestFree (used : List Nat) (total n : Nat) : List Nat :=
  ((List.range total).filter fun i => !used.contains i).take n
def State.slabsFree (s : State) (p : Nat) : Nat := (s.pool p).slabs - (s.slabsUsed p).length

/-- The runs of map entries that a volume holds. -/
def Vol.heldRuns (x : Vol) : List (Nat × Nat) := (x.first, x.slabs.length) :: x.runs

/-- Map entries of the region (Table 9-9), and the lowest run of `n` that no other volume holds. -/
def mapEntries : Nat := 268435456
def State.mapRun (s : State) (v n : Nat) : Option Nat :=
  let runs := sortBy (fun (r : Nat × Nat) => r.1) ((s.vols.filter (· != v)).flatMap fun i => (s.vol i).heldRuns)
  let at_ := runs.foldl (fun (a : Nat) r => if a + n ≤ r.1 then a else max a (r.1 + r.2)) 0
  let first := (0 :: runs.map fun r => r.1 + r.2).find? fun a => runs.all fun r => decide (a + n ≤ r.1) || decide (r.1 + r.2 ≤ a)
  let a := first.getD at_
  if a + n ≤ mapEntries then some a else none

/-- The map entry at index `i` of the region names a pool slab; none when it is not VALID (R275). Slabs that a shrink has cut off keep their entries
until they are freed (R279). -/
def State.mapEntry (s : State) (i : Nat) : Option Nat :=
  s.vols.findSome? fun v =>
    let x := s.vol v
    if x.first ≤ i then (x.slabs ++ x.tail)[i - x.first]? else none

/-- The 8 B of a map entry (R275): POOL_SLAB, FLAGS with bit 0 VALID, reserved. -/
def State.entryBytes (s : State) (i : Nat) : List Byte :=
  match s.mapEntry i with
  | some g => leBytes 4 g ++ [1, 0, 0, 0]
  | none => zeros 8

/-- Offsets in the volume map region (Table 9-9): a volume record, a reservation record, a map entry, and the 64 B line that holds an entry. -/
def volRecordAt (v : Nat) : Nat := 64 * v
def resvRecordAt (v : Nat) : Nat := 4194304 + 1024 * v
def mapEntryAt (i : Nat) : Nat := 71303168 + 8 * i
def mapLineAt (i : Nat) : Nat := mapEntryAt i / 64 * 64

/-- Where unit `t` of volume `v` lies by the entry that MAP_XLATE finds from FIRST_ENTRY `first` of the channel (R274, R275). -/
def State.mapPlace (s : State) (first v t : Nat) : Nat × Nat × Nat :=
  let P := s.pool (s.vol v).pool
  match s.mapEntry (first + t / P.slabUnits) with
  | some g => P.place (g * P.slabUnits + t % P.slabUnits)
  | none => s.unitPlace v t

/-- FIRST_ENTRY and the slab count of the channels of volume `v` (R275). -/
def State.chanMaps (s : State) (v : Nat) : State :=
  (s.liveChans.filter fun i => (s.chan i).nsid == v + 1).foldl
    (fun (s : State) i => s.setChan i { s.chan i with firstEntry := (s.vol v).first, slabCount := (s.vol v).slabs.length }) s

/-! ### The cache (R281 to R285) -/

def lineSlots : Nat := 22020096

/-- The line of a volume unit and its slot; shadow lines are not found (R292). -/
def State.findLine (s : State) (v t : Nat) : Option (Nat × Line) :=
  s.lay.lines.find? fun (e : Nat × Line) => e.2.vol == v && e.2.unit == t && e.2.st != .shadow && e.2.st != .free

def Line.isDirty (x : Line) : Bool := x.st == .dirty || x.st == .destaging

/-- DIRTY, DESTAGING and SHADOW lines (LAY_DIRTY_LINES); those of a volume; and CLEAN lines. -/
def State.dirtyLines (s : State) : Nat := (s.lay.lines.filter fun (e : Nat × Line) => e.2.isDirty || e.2.st == .shadow).length
def State.dirtyOf (s : State) (v : Nat) : Nat := (s.lay.lines.filter fun (e : Nat × Line) => e.2.isDirty && e.2.vol == v).length
def State.cleanLines (s : State) : Nat := (s.lay.lines.filter fun (e : Nat × Line) => e.2.st == .clean).length

/-- Chunk slots in one dump area (R295: 132 KiB each, from 1 MiB on). -/
def chunkSlots (gibs : Nat) : Nat := (gibs * gib - 1048576) / 135168

/-- The effective dirty limit is recomputed (R284). -/
def State.dirtyLimit (s : State) : State :=
  let slots := s.pools.foldl (fun a p => a + (s.pool p).bays.length * chunkSlots (s.pool p).dump) 0
  s.setFld Reg.LAY_DIRTY_EFF Fd.LAY_DIRTY_EFF_LINES (min (s.fld Reg.LAY_CACHE_CFG Fd.LAY_CACHE_CFG_DIRTY_GIB * 262144) (32 * slots))

def State.dirtyEff (s : State) : Nat := s.fld Reg.LAY_DIRTY_EFF Fd.LAY_DIRTY_EFF_LINES

/-- The clock hand's sweep (R285): the CLEAN lines from the hand on, cyclic; the referenced ones before the victim lose their
bit. The line evicted, if a CLEAN line exists. -/
def State.evict (s : State) : State :=
  let clean := Tab.keys (fun x => x.st == .clean) s.lay.lines
  let order := (clean.filter fun i => decide (s.lay.hand ≤ i)) ++ clean.filter fun i => decide (i < s.lay.hand)
  let pass := order.takeWhile fun i => (s.line i).ref
  match order.drop pass.length ++ order.take 1 with
  | [] => s
  | v :: _ =>
    let s := pass.foldl (fun s i => s.updLine i fun x => { x with ref := false }) s
    let s := (s.setLine v Line.reset).cntLay 11 1
    { s with lay := { s.lay with hand := (v + 1) % lineSlots } }

/-- A slot for a new line: the lowest FREE one, after an eviction when there is none. -/
def State.freeSlot (s : State) : Nat × State :=
  let s := if Tab.lowest s.lay.lines < lineSlots then s else s.evict
  (Tab.lowest s.lay.lines, s)

/-- Pieces of two units by sectors: where `mask` names a sector, its 512 B and its 8 B tail entry come from `a` (11 R336; a whole
unit when every sector is named). -/
def mergeUnit (mask : Nat) (a b : List Byte) : List Byte :=
  if mask % 256 = 255 then a
  else
    ((List.range 8).flatMap fun i => sliceB (if natBit mask i then a else b) (512 * i) 512)
      ++ (List.range 8).flatMap fun i => sliceB (if natBit mask i then a else b) (4096 + 8 * i) 8

/-! ### The destage list (R288) -/

/-- A stripe of pool `p` joins the destage list, ordered by the tick at which it first became dirty. -/
def State.addDirty (s : State) (p st tick : Nat) : State :=
  s.updPool p fun P =>
    if P.dirty.any (·.stripe == st) then P
    else { P with dirty := insertBy (·.tick) { stripe := st, tick := tick, redo := none, bay := none, after := 0 } P.dirty }

/-- Lines of stripe `st` of pool `p` in state DIRTY: slot, row and position. -/
def State.dirtyIn (s : State) (p st : Nat) : List (Nat × Nat × Nat) :=
  s.lay.lines.filterMap fun (e : Nat × Line) =>
    if e.2.st = .dirty ∧ (s.vol e.2.vol).pool = p then
      let a := s.unitPlace e.2.vol e.2.unit
      if a.1 = st then some (e.1, a.2.1, a.2.2) else none
    else none

/-! ### The journal (R294) -/

def journalSlots : Nat := 1048576

/-- The bytes of a journal slot (Table 9-12). -/
def JEnt.bytes (e : JEnt) : List Byte :=
  let b := leBytes 1 e.st ++ leBytes 1 e.pool ++ leBytes 1 e.kind ++ leBytes 1 (b2n e.degraded) ++ leBytes 4 e.rows
    ++ leBytes 8 e.stripe ++ leBytes 4 e.positions ++ leBytes 4 e.shadow ++ leBytes 8 e.seq ++ zeros 28
  b ++ leBytes 4 (crc32c b).toNat

/-- Slots not free. -/
def State.journalUse (s : State) : Nat := s.lay.journal.length

/-! ### Pool work (01 R16) -/

/-- A stripe is held by an item of pool work of pool `p` (10 R310). -/
def State.stripeHeld (s : State) (p st : Nat) : Bool :=
  s.lay.works.any fun w => w.pool == p && w.stripe == st && (match w.kind with | .flush _ => false | .dump => false | _ => true)

/-- A new item of pool work on cluster `k` in the class of its pool: its first leg is ready in tick `at_`. -/
def State.newWork (s : State) (w : Work) (k code : Nat) (wait : Wait) (at_ : Nat) : State :=
  let id := s.lay.workSeq
  let cls := match s.poolClass w.pool with | some c => c.id | none => noClass
  let s := { s with lay := { s.lay with works := s.lay.works ++ [{ w with id := id }], workSeq := id + 1 } }
  s.addItem { ref := .work id, cluster := k, cls := cls, code := code, leg := if 0x10 ≤ code ∧ code ≤ 0x12 then 2 else 1, wait := wait, ready := at_ }

/-- A blank item of pool work. -/
def Work.of (kind : WorkKind) (p st : Nat) : Work :=
  { id := 0, kind := kind, pool := p, stripe := st, st := .planned, rows := [], need := [], vals := [], bad := [], media := [], partials := [], new := [], puts := [],
    lines := [], shadows := [], jslot := none, redo := false, failed := none, raw := [], fors := [], pair := none }

end Sys2Proof.Machine
end

