-- ==== Sys2Proof/Machine/Image.lean ====
section
/-!
DEFINITION. The itinerary image (02 R53 to R58): what the controller reads from its bytes, and the checks of R59 in the order
of Table 2-8.
-/

namespace Sys2Proof.Machine

open Sys2Proof

/-! ### The routine catalogue (02 R35, Table 2-2) -/

/-- Cost of one unit and of each further unit, and the most further units, of leg `leg` of routine `code`; none for a leg that
the catalogue does not have. Table 2-2 gives CACHE_FILL one extra for its two legs: the model lets both carry it (DESIGN CHOICE, log 124). -/
def routineCost (code leg : Nat) : Option (Nat × Nat × Nat) :=
  match code, leg with
  | 0x01, 1 => some (28, 0, 0)
  | 0x02, 1 => some (40, 0, 0)
  | 0x03, 1 => some (36, 0, 0)
  | 0x04, 1 => some (18, 0, 0)
  | 0x04, 2 => some (30, 0, 0)
  | 0x05, 1 => some (16, 0, 0)
  | 0x05, 2 => some (26, 0, 0)
  | 0x06, 1 => some (44, 12, 7)
  | 0x07, 1 => some (30, 8, 7)
  | 0x08, 1 => some (62, 6, 31)
  | 0x09, 1 => some (58, 4, 31)
  | 0x0A, 1 => some (42, 0, 0)
  | 0x0B, 1 => some (20, 6, 31)
  | 0x0B, 2 => some (26, 6, 31)
  | 0x0C, 1 => some (32, 0, 0)
  | 0x0D, 1 => some (22, 0, 0)
  | 0x0D, 2 => some (26, 0, 0)
  | 0x0E, 1 => some (30, 0, 0)
  | 0x0F, 1 => some (24, 0, 0)
  | 0x10, 1 => some (40, 0, 0)
  | 0x10, 2 => some (36, 0, 0)
  | 0x11, 1 => some (34, 0, 0)
  | 0x11, 2 => some (30, 0, 0)
  | 0x12, 1 => some (38, 0, 0)
  | 0x12, 2 => some (34, 0, 0)
  | 0x13, 1 => some (52, 0, 0)
  | 0x14, 1 => some (40, 0, 0)
  | 0x15, 1 => some (96, 0, 0)
  | 0x16, 1 => some (38, 0, 0)
  | 0x17, 1 => some (60, 0, 0)
  | 0x18, 1 => some (34, 0, 0)
  | _, _ => none

/-- Cycles of a leg at its extra count; none when the catalogue has no such leg or the count lies above its maximum (R54). -/
def legCost (l : Nat × Nat × Nat) : Option Nat :=
  match routineCost l.1 l.2.1 with
  | none => none
  | some (base, per, most) => if l.2.2 ≤ most then some (base + per * l.2.2) else none

/-! ### Reading the image -/

/-- The 2-byte little-endian values from `off` on. -/
def halfwords (bs : List Byte) (off n : Nat) : List Nat := (List.range n).map fun i => leField bs (off + 2 * i) 2

/-- Entry `i` of the section directory (Table 2-4): offset and size. Sections 0 chains, 1 classes, 2 variants, 3 plans,
4 lanes, 5 trailer. -/
def section_ (bs : List Byte) (i : Nat) : Nat × Nat := (leField bs (0xA0 + 8 * i) 4, leField bs (0xA4 + 8 * i) 4)

/-- The chain at byte offset `o` (R54). -/
def readChain (bs : List Byte) (o : Nat) : Chain :=
  { id := leField bs o 1, worst := leField bs (o + 2) 2,
    legs := ((List.range (leField bs (o + 1) 1)).map fun i =>
      let d := leField bs (o + 4 + 2 * i) 2
      (d / 256, d / 32 % 8, d % 32)) }

/-- The class entry at byte offset `o` (Table 2-6). -/
def readCls (bs : List Byte) (o : Nat) : Cls :=
  { id := leField bs o 1, kind := leField bs (o + 1) 1, prio := leField bs (o + 2) 1, commands := leField bs (o + 3) 1,
    quota := leField bs (o + 4) 2, maxXfer := leField bs (o + 6) 2,
    bounds := (List.range 5).map fun i => leField bs (o + 8 + i) 1,
    pool := leField bs (o + 13) 1, bandwidth := leField bs (o + 16) 4, caps := halfwords bs (o + 20) 12 }

/-- The variant entry at byte offset `o` (R56). -/
def readVart (bs : List Byte) (nCls o : Nat) : Vart :=
  { id := leField bs o 1, kind := leField bs (o + 1) 1, index := leField bs (o + 2) 2, mask := leField bs (o + 4) 4,
    plan := leField bs (o + 12) 4, caps := halfwords bs (leField bs (o + 8) 4) (12 * nCls) }

/-- The fields of a slot entry (Table 2-7). -/
structure SlotEnt where
  res : Nat
  len : Nat
  pos : Nat
  cls : Nat
  chain : Nat
deriving DecidableEq, Repr

def readSlot (bs : List Byte) (o : Nat) : SlotEnt :=
  let w := leField bs o 4
  { res := w / 67108864, len := w / 2097152 % 32, pos := w / 65536 % 32, cls := w / 256 % 256, chain := w % 256 }

/-- An engine's entry of a plan (R57). -/
structure EngEnt where
  area : Nat
  patterns : Nat
  tail : Nat
deriving DecidableEq, Repr

def readEng (bs : List Byte) (o : Nat) : EngEnt :=
  { area := leField bs o 4, patterns := leField bs (o + 4) 1, tail := leField bs (o + 5) 3 }

/-- The 96 engine entries of the plan that begins at `o`. -/
def planEngs (bs : List Byte) (o : Nat) : List EngEnt := (List.range 96).map fun e => readEng bs (o + 8 * e)

/-- Where the plan that begins at `o` ends: after its engine entries and its engines' areas. -/
def planEnd (bs : List Byte) (o : Nat) : Nat :=
  (planEngs bs o).foldl (fun m e => max m (e.area + 256 + 128 * e.patterns)) (o + 768)

/-- The offsets of `n` plans. R57 does not say where a plan after the first begins: the model lays them one after the other, the next at the
greatest end of the areas of the one before (DESIGN CHOICE, log 125). -/
def planStarts (bs : List Byte) : Nat → Nat → List Nat
  | 0, _ => []
  | n + 1, o => o :: planStarts bs n (planEnd bs o)

/-- The 30 slots of pattern `p` of an engine. -/
def patternSlots (bs : List Byte) (e : EngEnt) (p : Nat) : List SlotEnt :=
  (List.range 30).map fun i => readSlot bs (e.area + 256 + 128 * p + 4 * i)

/-- Engine `e` serves class `c` in some tick of the cycle. -/
def engServes (bs : List Byte) (e : EngEnt) (c : Nat) : Bool :=
  (List.range e.patterns).any fun p => (patternSlots bs e p).any fun s => s.chain != 0 && s.cls == c

/-- The clusters, as a mask, on which the plan at `o` has runs of class `c`. -/
def planMask (bs : List Byte) (o c : Nat) : Nat :=
  (List.range 12).foldl (fun m k =>
    if ((planEngs bs o).drop (8 * k) |>.take 8).any (engServes bs · c) then m + 2 ^ k else m) 0

/-- The pairs of class and chain of the runs of the plan at `o`. -/
def planUses (bs : List Byte) (o : Nat) : List (Nat × Nat) :=
  ((planEngs bs o).flatMap fun e => (List.range e.patterns).flatMap fun p =>
    ((patternSlots bs e p).filter (·.chain != 0)).map fun s => (s.cls, s.chain)).eraseDups

/-- The offset of plan `p` of the image. -/
def planAt (bs : List Byte) (p : Nat) : Nat := (planStarts bs (p + 1) (section_ bs 3).1).getD p 0

/-- The slot runs of engine `g` of the plan at `o` in the tick of index `t`: the pattern that the engine's tick index names (R57), as runs in slot
order, each with the items that it can start, floor(64 × L / W) (R31). -/
def engineRuns (bs : List Byte) (chains : List Chain) (o g t : Nat) : List SlotRun :=
  let e := readEng bs (o + 8 * g)
  let ss := patternSlots bs e (leField bs (e.area + t) 1)
  (List.range 30).filterMap fun i =>
    let x := ss.getD i ⟨0, 0, 0, 0, 0⟩
    if x.chain = 0 ∨ x.pos ≠ 0 then none
    else some { engine := g, pos := i, len := x.len, cls := x.cls, chain := x.chain,
                left := match chains.find? (·.id == x.chain) with | some c => 64 * x.len / max 1 c.worst | none => 0 }

/-- The slot entries of plan `p` for the tick of index `t`, as runs in engine order. -/
def planRuns (bs : List Byte) (chains : List Chain) (p t : Nat) : List SlotRun :=
  (List.range 96).flatMap fun g => engineRuns bs chains (planAt bs p) g t

/-- The owners of the 256 lanes in the tick of index `t` of plan `p` (R58): 4 stacks × 64 lanes of one byte. -/
def laneOwners (bs : List Byte) (p t : Nat) : List Nat :=
  (List.range 256).map fun l => leField bs ((section_ bs 4).1 + 65536 * p + 256 * t + l) 1

/-- What the controller reads from the image's bytes. -/
def readImage (bs : List Byte) : Image :=
  let nChain := leField bs 0x8E 2
  let nCls := leField bs 0x8D 1
  let nVar := leField bs 0x8C 1
  let classes := (List.range nCls).map fun i => readCls bs ((section_ bs 1).1 + 64 * i)
  { id := leField bs 0x10 8, base := leField bs 0x18 8, flags := leField bs 0x0B 1, tlanes := leField bs 0x90 1,
    chains := (List.range nChain).map fun i => readChain bs ((section_ bs 0).1 + 16 * i),
    classes := classes,
    varts := (List.range nVar).map fun i => readVart bs nCls ((section_ bs 2).1 + 16 * i),
    runs := (planStarts bs (nVar + 1) (section_ bs 3).1).map fun o => classes.map fun c => planMask bs o c.id,
    uses := (planStarts bs (nVar + 1) (section_ bs 3).1).map (planUses bs),
    meas := Config.sha384 bs }

/-! ### Structure (R59 check 7) -/

/-- A chain is well formed: 1 to 6 legs at the catalogue's cost, unused descriptors and their bits zero (R54). -/
def chainOk (bs : List Byte) (o : Nat) : Bool :=
  let c := readChain bs o
  let costs := c.legs.map legCost
  decide (1 ≤ c.id) && decide (1 ≤ c.legs.length) && decide (c.legs.length ≤ 6) && decide (c.worst ≤ 1920)
    && costs.all Option.isSome && c.worst == (costs.map fun x => x.getD 0).sum
    && allZero (sliceB bs (o + 4 + 2 * c.legs.length) (2 * (6 - c.legs.length)))

/-- A class entry is within the ranges of Table 2-6. -/
def clsOk (bs : List Byte) (o : Nat) : Bool :=
  let c := readCls bs o
  decide (c.id ≤ 253) && decide (c.kind ≤ 3) && decide (c.commands ≤ 15) && decide (1 ≤ c.quota) && decide (c.quota ≤ 65280)
    && decide (1 ≤ c.maxXfer) && decide (c.maxXfer ≤ 512) && (if c.kind = 3 then decide (c.pool ≤ 15) else c.pool == 255)
    && allZero (sliceB bs (o + 14) 2) && allZero (sliceB bs (o + 44) 20)

/-- Variants 1 to 12 are present and of kind 1 for their cluster; the others are of kind 2 or 3 (R56). -/
def vartsOk (vs : List Vart) : Bool :=
  (vs.map (·.id)).Nodup && vs.all (fun v => decide (1 ≤ v.id) && decide (v.id ≤ 16) && decide (v.plan ≤ vs.length)
      && (if v.id ≤ 12 then v.kind == 1 && v.index == v.id - 1
          else (v.kind == 2 && decide (v.index ≤ 3)) || (v.kind == 3 && decide (v.mask < 65536))))
    && (List.range 12).all fun i => vs.any (·.id == i + 1)

/-- Slot `i` of a pattern is consistent: an idle slot has class 0xFF; otherwise the run of RUN_LEN slots around it lies within
the 30 slots, every slot of it agrees, and its chain fits (R31, Table 2-7). -/
def slotOk (im : Image) (ss : List SlotEnt) (i : Nat) : Bool :=
  let e := ss.getD i ⟨0, 0, 0, 0, 0⟩
  e.res == 0 &&
  if e.chain = 0 then e.cls == 0xFF
  else
    decide (1 ≤ e.len) && decide (e.pos < e.len) && decide (e.pos ≤ i) && decide (i - e.pos + e.len ≤ 30)
      && (List.range e.len).all (fun j =>
        let f := ss.getD (i - e.pos + j) ⟨0, 0, 0, 0, 0⟩
        f.len == e.len && f.pos == j && f.cls == e.cls && f.chain == e.chain)
      && (e.cls == 0xFE || im.classes.any (·.id == e.cls))
      && im.chains.any fun c => c.id == e.chain && decide (c.worst ≤ 64 * e.len)

/-- An engine's area is consistent. -/
def engOk (im : Image) (bs : List Byte) (e : EngEnt) : Bool :=
  decide (1 ≤ e.patterns) && decide (e.patterns ≤ 128) && e.tail == 0 && decide (e.area + 256 + 128 * e.patterns ≤ bs.length)
    && (List.range 256).all (fun t => decide (leField bs (e.area + t) 1 < e.patterns))
    && (List.range e.patterns).all fun p =>
      (List.range 30).all (slotOk im (patternSlots bs e p)) && leField bs (e.area + 256 + 128 * p + 120) 8 == 0

/-- The whole of check 7. A stack has 64 lane entries per tick, so the owners of a stack total at most 64 by the layout. -/
def structureOk (im : Image) (bs : List Byte) : Bool :=
  (List.range im.chains.length).all (fun i => chainOk bs ((section_ bs 0).1 + 16 * i))
    && (im.chains.map (·.id)).Nodup && (im.classes.map (·.id)).Nodup
    && (List.range im.classes.length).all (fun i => clsOk bs ((section_ bs 1).1 + 64 * i))
    && vartsOk im.varts
    && (planStarts bs (im.varts.length + 1) (section_ bs 3).1).all (fun o => (planEngs bs o).all (engOk im bs))
    && decide (im.flags < 4) && allZero (sliceB bs 0x91 15) && allZero (sliceB bs 0xD0 48)

/-! ### The checks in order (Table 2-8) -/

/-- Sections lie within the image, start on 64-byte boundaries (the trailer apart), do not overlap and have the sizes that the
counts give; the trailer is the last 112 bytes (R53). -/
def directoryOk (bs : List Byte) : Bool :=
  let n := leField bs 0x0C 4
  let secs := (List.range 5).map (section_ bs)
  let nVar := leField bs 0x8C 1
  section_ bs 5 == (n - 112, 112)
    && secs.all (fun x => x.1 % 64 == 0 && decide (256 ≤ x.1) && decide (x.1 + x.2 ≤ n - 112))
    && secs.Pairwise (fun a b => a.1 + a.2 ≤ b.1 ∨ b.1 + b.2 ≤ a.1)
    && (section_ bs 0).2 == 16 * leField bs 0x8E 2 && (section_ bs 1).2 == 64 * leField bs 0x8D 1
    && (section_ bs 2).2 == 16 * nVar && (section_ bs 4).2 == 65536 * (nVar + 1)

/-- Check 4: the header's fixed values, counts and section directory. Table 2-8 names no check for an IMAGE_ID of 0 or a TRANSPORT_LANES outside 2
to 8: the model fails them here (DESIGN CHOICE, log 126). -/
def headerOk (bs : List Byte) : Bool :=
  leField bs 0 4 == 0x54495856 && leField bs 4 2 == 1 && leField bs 6 2 == 0x100 && leField bs 0x10 8 != 0
    && leField bs 0x88 2 == 256 && leField bs 0x8A 1 == 30 && leField bs 0x8B 1 == 96
    && decide (12 ≤ leField bs 0x8C 1) && decide (leField bs 0x8C 1 ≤ 16)
    && decide (1 ≤ leField bs 0x8D 1) && decide (leField bs 0x8D 1 ≤ 254)
    && decide (1 ≤ leField bs 0x8E 2) && decide (leField bs 0x8E 2 ≤ 255)
    && decide (2 ≤ leField bs 0x90 1) && decide (leField bs 0x90 1 ≤ 8) && directoryOk bs

/-- The public key X ‖ Y enrolled under identifier `id` (16 R487). -/
def State.itkKey (s : State) (id : List Byte) : Option (List Byte) :=
  (s.mgt.itk.find? fun e => sliceB e.2 0 8 == id).map fun e => sliceB e.2 8 96

/-- Check 3: the signature over bytes 0 to IMAGE_SIZE − 105 under the enrolled key that SIGN_KEY_ID names. -/
def State.imgSigned (s : State) (bs : List Byte) : Bool :=
  let t := bs.drop (bs.length - 112)
  match s.itkKey (sliceB t 0 8) with
  | none => false
  | some k => Config.ecdsaVerify k (Config.sha384 (bs.take (bs.length - 104))) (sliceB t 8 48) (sliceB t 56 48)

/-- The status of the first check of Table 2-8 that the image fails. -/
def State.imgCheck (s : State) (bs : List Byte) : Option Nat :=
  let n := bs.length
  firstFail [
    (leField bs 0x0C 4 == n && decide (4096 ≤ n) && decide (n ≤ 50331648) && n % 64 == 0, St.ITN_FORMAT),
    (crc64 (bs.take (n - 8)) == BitVec.ofNat 64 (leField bs (n - 8) 8), St.ITN_CRC),
    (s.imgSigned bs, St.ITN_SIGNATURE),
    (headerOk bs, St.ITN_FORMAT),
    (leField bs 8 2 == 0x9600 && leField bs 0x0A 1 == 0xB0, St.ITN_TARGET),
    (leField bs 0x24 4 == 0x00010003 && sliceB bs 0x28 48 == s.mgt.catalogue, St.ITN_CATALOGUE),
    (structureOk (readImage bs) bs, St.ITN_PLAN_INVALID),
    (natBit (leField bs 0x0B 1) 1 == s.straps.pairEn, St.ITN_TARGET)]

end Sys2Proof.Machine
end

