-- ==== Sys2Proof/Machine/RegRules.lean ====
section
/-!
DEFINITION. A register write and a register read: access codes (00 R12), the setup lock (03 R76, 19 R544), the conditions
that field meanings put on a write, and the writes that are refused with a flag (06 R180, 13 R391, R403).
-/

namespace Sys2Proof.Machine

open Sys2Proof

/-- GLB_LOCK is set (19, Setup lock). -/
def State.locked (s : State) : Bool := s.flag Reg.GLB_LOCK Fd.GLB_LOCK_LOCKED

/-! ### Refused configurations -/

/-- The 1,024 pairs (m, i) of logical port and priority. -/
def pairs : List (Nat × Nat) := (List.range 128).flatMap fun m => (List.range 8).map fun i => (m, i)

/-- ΣMIN over every pair (06 R180). -/
def State.sumMin (s : State) : Nat :=
  pairs.foldl (fun a p => a + s.fld (Reg.SWC_PQ_BUF p.1 p.2) Fd.SWC_PQ_BUF_MIN) 0

/-- ΣHEADROOM over the pairs whose priority is enabled for PFC (06 R180). -/
def State.sumHeadroom (s : State) : Nat :=
  pairs.foldl (fun a p =>
    if natBit (s.fld (Reg.MAC_LP_CFG p.1) Fd.MAC_LP_CFG_PFC_EN) p.2 then a + s.fld (Reg.SWC_PQ_BUF p.1 p.2) Fd.SWC_PQ_BUF_HEADROOM
    else a) 0

/-- Cells of the unicast area: 78 MiB less the convoy pool (06 Table 6-1). -/
def State.unicastCells (s : State) : Nat := 319488 - s.fld Reg.SWC_SERAI_CFG Fd.SWC_SERAI_CFG_CONVOY_CELLS

/-- The first inequality of 06 R180. -/
def State.swcFits (s : State) : Bool :=
  decide (s.fld Reg.SWC_HOLD_CFG Fd.SWC_HOLD_CFG_HOLD_RESERVE + s.sumMin + s.sumHeadroom + 32768 ≤ s.unicastCells)

/-- The second inequality of 06 R180 for the pair whose block begins at `off`. -/
def State.pqFits (s : State) (off : Nat) : Bool :=
  decide (s.fld (off - off % 0x20 + 0x4) Fd.SWC_PQ_PFC_XOFF_THR + s.fld (off - off % 0x20) Fd.SWC_PQ_BUF_HEADROOM ≤ 65535)

/-- Lanes of a bay: 4 in MODE 0, 2 in MODE 1 (12 R363). -/
def modeWidth (mode : Nat) : Nat := if mode = 0 then 4 else 2

/-- Bay state codes of BAY_STATUS.STATE (13 Table 13-2). -/
def bayInrush : Nat := 1
def bayOn : Nat := 2

/-- Where a field write stands: it takes effect, it leaves the field unchanged, or it is refused and a flag records it. -/
inductive WriteFate where
  | apply
  | keep
  | refuse (flagReg : Nat) (flag : Fld)
deriving DecidableEq, Repr

/-- What a write of `v` to field `f` of the register at `off` does, by the field's rule (its meaning in the register table). -/
def State.writeFate (s : State) (off : Nat) (f : FieldDef) (v : Nat) : WriteFate :=
  let keepUnless (b : Bool) : WriteFate := if b then .apply else .keep
  let s' := s.setFld off f.fld v
  match f.rule with
  | .any => .apply
  | .range lo hi => keepUnless (decide (lo ≤ v) && decide (v ≤ hi))
  | .ownRow => .keep
  | .itnStart => .keep
  | .convoyCells =>
    if 8192 ≤ v ∧ v ≤ 65536 then (if s'.swcFits then .apply else .refuse Reg.SWC_STATUS Fd.SWC_STATUS_CFG_REFUSED) else .keep
  | .holdReserve =>
    if 16384 ≤ v ∧ v ≤ 131072 then (if s'.swcFits then .apply else .refuse Reg.SWC_STATUS Fd.SWC_STATUS_CFG_REFUSED) else .keep
  | .swcPq => if s'.swcFits && s'.pqFits off then .apply else .refuse Reg.SWC_STATUS Fd.SWC_STATUS_CFG_REFUSED
  | .pfcEn => if s'.swcFits then .apply else .refuse Reg.SWC_STATUS Fd.SWC_STATUS_CFG_REFUSED
  | .ptpPort => keepUnless (decide (v ≤ 127) || v == 255)
  | .macDown hi => keepUnless (decide (v ≤ hi) && s.fld off Fd.MAC_CTL_ENABLE == 0)
  | .xonThr => keepUnless (decide (v ≤ s.fld off Fd.SWC_PQ_PFC_XOFF_THR))
  | .overhead => keepUnless (decide (v ≤ 127) || decide (224 ≤ v))
  | .drvMode =>
    keepUnless ((List.range 128).all fun b => decide (s.fld (Reg.DRV_BAY_CFG b) Fd.DRV_BAY_CFG_MIN_WIDTH ≤ modeWidth v))
  | .maxGts => keepUnless (decide (4 ≤ v) && decide (v ≤ 6) && decide (s.fld off Fd.DRV_BAY_CFG_MIN_GTS ≤ v))
  | .minGts => keepUnless (decide (4 ≤ v) && decide (v ≤ s.fld off Fd.DRV_BAY_CFG_MAX_GTS))
  | .minWidth =>
    keepUnless ([1, 2, 4].contains v && decide (v ≤ modeWidth (s.fld Reg.DRV_CFG Fd.DRV_CFG_MODE)))
  | .bayOff =>
    let n := if off < Reg.BAY_CURVE 0 0 then (off - Reg.BAY_CFG 0) / 0x40 else (off - Reg.BAY_CURVE 0 0) / 0x10
    let st := s.fld (Reg.BAY_STATUS n) Fd.BAY_STATUS_STATE
    if st = bayInrush ∨ st = bayOn then .refuse Reg.BAY_GLB_STATUS Fd.BAY_GLB_STATUS_CFG_REFUSED else .apply
  | .bayLed =>
    let n := (off - Reg.BAY_LED 0) / 0x40
    if s.fld (Reg.DRV_BAY_CFG n) Fd.DRV_BAY_CFG_SMBUS_EN = 1 ∧ v ≠ 0 then
      .refuse Reg.BAY_GLB_STATUS Fd.BAY_GLB_STATUS_CFG_REFUSED
    else .apply
  | .restartC => keepUnless (decide (v < s.fld off Fd.BAY_TH_LIMIT_TRIP_C))
  | .vOn => keepUnless (decide (v < s.fld Reg.ENV_HOLD_V Fd.ENV_HOLD_V_V_OFF))
  | .dumpCons => keepUnless (decide (v < s.fld Reg.TEL_DUMP_GEOM Fd.TEL_DUMP_GEOM_SLOTS))

/-! ### Lock exemptions (03 R76, R99) -/

/-- The ring whose register lies at `off` (64 for the event ring), if it is a ring register. -/
def ringOfReg (off : Nat) : Option Nat :=
  if 0x00400000 ≤ off ∧ off < 0x00401000 then some ((off - 0x00400000) / 0x40)
  else if 0x00401000 ≤ off ∧ off < 0x00401040 then some evtRing
  else none

/-- The ring's registers accept writes whatever GLB_LOCK: while it is STOPPED or in ERROR, and after that until it is next
enabled (R99). -/
def State.resetupOpen (s : State) (off : Nat) : Bool :=
  match ringOfReg off with
  | none => false
  | some k => s.ringState k == ringStopped || s.ringState k == ringError || (s.ring k).resetup

/-- A field write is let through by the setup lock (R12, R76). -/
def State.lockOpen (s : State) (off : Nat) (f : FieldDef) : Bool :=
  !s.locked || f.lockFree || f.acc == .w1c || s.resetupOpen off

/-- The fields that a plain write of this access code and lock state can set. -/
def FieldDef.writable (f : FieldDef) : Bool := f.acc == .rw || f.acc == .rwl

/-! ### Writes -/

/-- One field of a register write (R12): RW and RWL are set when the lock and the field's rule allow it, W1C is cleared by a
1; RO and RC ignore the write, WO acts elsewhere. -/
def State.writeField (s : State) (off : Nat) (w : Word) (f : FieldDef) : State :=
  let v := f.fld.get w
  if f.acc = .w1c then
    -- Each bit written 1 is cleared; a bit with a row of its own is left to that row.
    if f.rule = .ownRow then s else s.wrReg off (s.rd off &&& ~~~(w &&& f.fld.mask))
  else if f.writable && s.lockOpen off f then
    match s.writeFate off f v with
    | .apply => s.setFld off f.fld v
    | .keep => s
    | .refuse r b => s.setFld r b 1
  else s

/-! ### Before READY (16 R480) -/

/-- The blocks that a register access reaches before MGT_STATUS.READY: GLB, CRS and MGT (16 R480). -/
def earlyBlock (off : Nat) : Bool :=
  decide (off < 0x00200000) || (decide (0x01A00000 ≤ off) && decide (off < 0x01C00000))

def State.mgtReady (s : State) : Bool := s.flag Reg.MGT_STATUS Fd.MGT_STATUS_READY

/-- A write of control software to `off` acts as `f`; until READY a write to another block, or to a doorbell, is ignored and counted in
EARLY_WRITES. -/
def State.hostWrite (s : State) (off : Nat) (f : State → State) : State :=
  if s.mgtReady || earlyBlock off then f s else s.cntMgt 6 1

/-- The write, ignored by the lock, would have changed this RWL field (19 R544). -/
def State.violates (s : State) (off : Nat) (w : Word) (f : FieldDef) : Bool :=
  f.acc == .rwl && !s.lockOpen off f && s.fld off f.fld != f.fld.get w &&
    (f.rule == .ownRow || f.rule == .itnStart && f.fld.get w == 1 || s.writeFate off f (f.fld.get w) == .apply)

/-- The write sets to 1 a WO field whose meaning says that it is ignored once GLB_LOCK is set (19 R544): SWAP and LOAD of ITN_CTL here; CLEAR
and COMMIT of MGT_ITK_CTL in the rows of their own. -/
def lockedWo (off : Nat) (w : Word) : Bool :=
  off == Reg.ITN_CTL && (Fd.ITN_CTL_SWAP.get w == 1 || Fd.ITN_CTL_LOAD.get w == 1)

/-- Ticks of 1.000 s (19 R544). -/
def ticksPerSecond : Nat := 976563

/-- A setup-lock violation is recorded, counted, and reported at most once per second (19 R544). -/
def State.violation (s : State) (off : Nat) (w : Word) : State :=
  let s := (s.setFld Reg.GLB_VIOL_ADDR Fd.GLB_VIOL_ADDR_OFFSET off).satFld Reg.GLB_VIOL_CNT Fd.GLB_VIOL_CNT_COUNT 1
  let due := match s.tel.violLast with
    | none => true
    | some t => decide (t + ticksPerSecond ≤ s.now)
  if due then
    let n := s.tel.violUnrep
    { s with tel := { s.tel with violLast := some s.now, violUnrep := 0 } }.raise Ev.GLB_LOCK_VIOLATION off w.toNat n
  else { s with tel := { s.tel with violUnrep := s.tel.violUnrep + 1 } }

/-- The registers of the second software check engine are read-only from BAR0 (11, CHK_SW_CTL). -/
def chkSw1 (off : Nat) : Bool := decide (0x01300060 ≤ off) && decide (off < 0x01300080)

/-- The write would enable PFC on a priority whose headroom breaks 06 R180: it leaves the whole of MAC_LP_CFG[m] unchanged. -/
def State.pfcRefused (s : State) (off : Nat) (w : Word) (r : RegDef) : Bool :=
  r.fields.any fun f => f.rule == .pfcEn && f.writable && s.lockOpen off f && s.writeFate off f (f.fld.get w) != .apply

/-- A 32-bit write of `w` to the register at `off`: every field by its access code, highest bits first; a violation of the
setup lock is recorded (00 R12, R13; 19 R544). An offset without a register ignores it (00 R10). -/
def State.regWrite (s : State) (off : Nat) (w : Word) : State :=
  match regAt off with
  | none => s
  | some r =>
    if chkSw1 off then s
    else
      let bad := off != Reg.GLB_LOCK && s.locked && (r.fields.any (s.violates off w) || lockedWo off w)
      let s := if s.pfcRefused off w r then s.setFld Reg.SWC_STATUS Fd.SWC_STATUS_CFG_REFUSED 1
        else r.fields.foldl (fun s f => s.writeField off w f) s
      if bad then s.violation off w else s

end Sys2Proof.Machine
end

