-- ==== Sys2Proof/Machine/Reset.lean ====
section
/-!
DEFINITION. Resets and clocks that other chapters reach: the release of PAIR_ACT_N (15 R440), a chip reset (17 R504, R505), the loss
of a reference clock (R500), and the reset that begins a cluster's check (R511).
-/

namespace Sys2Proof.Machine

open Sys2Proof

/-! ### PAIR_ACT_N (15 R432, R440) -/

def State.claimed (s : State) : Bool := s.flag Reg.PAIR_STATUS Fd.PAIR_STATUS_CLAIMED

/-- PAIR_ACT_N is low: either controller drives it. -/
def State.actLow (s : State) : Bool := s.claimed || s.pair.peerLow

/-- The network transmitters and root ports are disabled, and PAIR_ACT_N is released when this controller held it. -/
def State.releaseRole (s : State) : State :=
  let held := s.claimed
  let s : State := { s with pair := { s.pair with net := false, claimTick := none } }
  if held then
    let s := s.setFld Reg.PAIR_STATUS Fd.PAIR_STATUS_CLAIMED 0
    if s.pair.peerLow then s else { s with pair := { s.pair with highTick := s.now } }
  else s

/-! ### Chip reset (17 R504, R505) -/

/-- Causes of Table 17-4. -/
def rcExternal : Nat := 2
def rcSoftware : Nat := 3
def rcRestore : Nat := 4
def rcFatal : Nat := 5
def rcClock : Nat := 6
def rcSupply : Nat := 7

/-- Registers of the always-on domain that a chip reset leaves as they are: CRS_RESET_CAUSE, CIP_ALARM, the ENV_DUMP registers and the BAY
registers but for BAY_LED. -/
def alwaysOnReg (off : Nat) : Bool :=
  off == Reg.CRS_RESET_CAUSE || off == Reg.CIP_ALARM || off == Reg.ENV_DUMP_LAST || off == Reg.ENV_DUMP_TIME || off == Reg.ENV_DUMP_ERR
    || (decide (0x01600000 ≤ off) && decide (off < 0x01700000) && !(List.range 128).any fun b => off == Reg.BAY_LED b)

/-- What the bay evaluator keeps when the control host's commands are forgotten. -/
def BayPw.orphan (x : BayPw) : BayPw :=
  { x with cycle := x.cycle.map fun c => (c.1, none), cmd := x.cmd.map fun c => (c.1, c.2.1, none), done := none }

/-- A bay of the drive fabric after a chip reset: PERST is asserted, and power-good is seen again (R505, R516). -/
def State.bayAfterReset (s : State) (b : Nat) : Bay :=
  if s.flag (Reg.BAY_STATUS b) Fd.BAY_STATUS_PG then { Bay.reset with pg := true, pgTick := s.now } else Bay.reset

/-- The cause is recorded in CRS_RESET_CAUSE. -/
def State.recordReset (s : State) (cause fatal : Nat) : State :=
  let r := Reg.CRS_RESET_CAUSE
  let s := s.setFld r Fd.CRS_RESET_CAUSE_PREV_CAUSE (s.fld r Fd.CRS_RESET_CAUSE_CAUSE)
  let s := s.setFld r Fd.CRS_RESET_CAUSE_CAUSE cause
  (s.setFld r Fd.CRS_RESET_CAUSE_FATAL_SRC fatal).satFld r Fd.CRS_RESET_CAUSE_COUNT 1

/-- A chip reset: the cause is recorded, PAIR_ACT_N released, and everything but the always-on domain, the SPI NOR devices and the fuses
returns to its reset value. -/
def State.chipReset (s : State) (cause fatal : Nat) : State :=
  let s := (s.recordReset cause fatal).releaseRole
  let duty := s.fld Reg.ENV_STATUS Fd.ENV_STATUS_DUTY
  let stall := s.fld Reg.ENV_STATUS Fd.ENV_STATUS_STALL
  let charge := s.fld Reg.ENV_HOLD_STATUS Fd.ENV_HOLD_STATUS_CHG_EN
  let t : State :=
    { State.reset with
      regs := s.regs.filter fun (e : Nat × Word) => alwaysOnReg e.1
      now := s.now
      straps := s.straps
      drv := { Drv.reset with bays := (List.range 128).foldl (fun t b => Tab.wr (fun _ => Bay.reset) t b (s.bayAfterReset b)) [] }
      pwr := { s.pwr with bays := s.pwr.bays.map fun (e : Nat × BayPw) => (e.1, e.2.orphan) }
      env := { Env.reset with dutyTick := s.env.dutyTick, stalled := s.env.stalled, chargeTick := s.env.chargeTick, low := s.env.low,
                              highTick := s.env.highTick, report := s.env.report }
      pair := { Pair.reset with shared := s.pair.shared, peerLow := s.pair.peerLow, highTick := s.pair.highTick }
      crs := { Crs.reset with auxLost := s.crs.auxLost, dead := s.crs.dead }
      mgt := { Mgt.reset with flash0 := s.mgt.flash0, flash1 := s.mgt.flash1, floor := s.mgt.floor, revoked := s.mgt.revoked }
      out := s.out, drawn := s.drawn, pending := s.pending }
  let t := t.setFld Reg.ENV_STATUS Fd.ENV_STATUS_DUTY duty
  (t.setFld Reg.ENV_STATUS Fd.ENV_STATUS_STALL stall).setFld Reg.ENV_HOLD_STATUS Fd.ENV_HOLD_STATUS_CHG_EN charge

/-! ### Reference clocks (R500, Table 17-12) -/

/-- A domain of CRS_CLOCK with the field and the number of clocks of CRS_CLK_STATUS that shows it: 3 HBM, 4 REFCLK_NET, 5 REFCLK_PCIE, 6
REFCLK_PAIR, 7 CH_REFCLK. -/
def clockField (dom : Nat) : Fld :=
  if dom = 3 then Fd.CRS_CLK_STATUS_HBM_LOCK else if dom = 4 then Fd.CRS_CLK_STATUS_NET_REF else if dom = 5 then Fd.CRS_CLK_STATUS_PCIE_REF
  else if dom = 6 then Fd.CRS_CLK_STATUS_PAIR_REF else Fd.CRS_CLK_STATUS_CH_REF

/-- The clock of a domain is lost or restored: CRS_CLK_STATUS shows it, and a change raises CRS_CLOCK. -/
def State.clockSet (s : State) (dom i : Nat) (on : Bool) : State :=
  let f := clockField dom
  let v := s.fld Reg.CRS_CLK_STATUS f
  if decide (f.width ≤ i) || natBit v i == on then s
  else (s.setFld Reg.CRS_CLK_STATUS f (setNatBit v i on)).raise Ev.CRS_CLOCK (dom * 256 + i) (b2n (!on)) 0

/-! ### Cluster reset (R511) -/

/-- States of Table 17-8. -/
def cluInService : Nat := 0
def cluReset : Nat := 1
def cluWaitClear : Nat := 2
def cluChecking : Nat := 3
def cluPassed : Nat := 4
def cluFailed : Nat := 5

def State.cluState (s : State) (k : Nat) : Nat := s.fld (Reg.CRS_CLU_STATUS k) Fd.CRS_CLU_STATUS_STATE
def State.cluChk (s : State) (k : Nat) : CluChk := Tab.rd (fun _ => CluChk.reset) s.crs.clu k

/-- Cluster `k` enters a state of its check at this tick. -/
def State.cluEnter (s : State) (k st : Nat) (cause : Nat) : State :=
  let s := s.setFld (Reg.CRS_CLU_STATUS k) Fd.CRS_CLU_STATUS_STATE st
  let s := if st = cluReset then s.senderReset 14 k else s
  { s with crs := { s.crs with clu := Tab.wr (fun _ => CluChk.reset) s.crs.clu k { since := s.now, cause := cause } } }

/-- A change of cluster `k`'s check is due in the next change phase, with the step that failed; one already due stands (R511). -/
def State.cluWant (s : State) (k st step : Nat) : State :=
  if s.crs.due.any fun (e : Nat × Nat × Nat) => e.1 == k then s else { s with crs := { s.crs with due := s.crs.due ++ [(k, st, step)] } }

/-- The check of cluster `k` starts. -/
def State.cluCheck (s : State) (k : Nat) : State :=
  (s.cluEnter k cluChecking (s.cluChk k).cause).satFld (Reg.CRS_CLU_STATUS k) Fd.CRS_CLU_STATUS_CHECKS 1

end Sys2Proof.Machine
end

