-- ==== Sys2Proof/Machine/Itinerary.lean ====
section
/-!
DEFINITION. The itinerary (02): image buffers, loads and swaps (R59 to R62), the sequencer's start and the dump plan (R60, R64,
R65), fences and degraded variants (R66 to R71), and the schedule log (16 R485).
-/

namespace Sys2Proof.Machine

open Sys2Proof

/-! ### The schedule log (16 R485) -/

/-- Measurement `i` (16 Table 16-7); 48 zero bytes unless set. -/
def State.meas (s : State) (i : Nat) : List Byte := Tab.rd (fun _ => zeros 48) s.mgt.meas i
def State.setMeas (s : State) (i : Nat) (v : List Byte) : State :=
  { s with mgt := { s.mgt with meas := Tab.wr (fun _ => zeros 48) s.mgt.meas i v } }

/-- The 80 bytes of a schedule log record (16 Table 16-8). -/
def SchedRec.bytes (r : SchedRec) : List Byte :=
  leBytes 8 r.tick ++ leBytes 4 r.seq ++ leBytes 1 r.kind ++ leBytes 1 r.variant ++ leBytes 2 r.fault ++ leBytes 8 r.imageId
    ++ r.meas ++ zeros 8

/-- A schedule event extends measurement 9 by its record; the last 1,024 records are kept (R485). -/
def State.schedEvent (s : State) (kind fault : Nat) : State :=
  let r : SchedRec := { tick := s.itn.tick, seq := s.mgt.schedSeq, kind := kind, variant := s.itn.variant, fault := fault,
                        imageId := s.img.id, meas := s.meas (if s.itn.activeB then 8 else 7) }
  let s := s.setMeas 9 (Config.sha384 (s.meas 9 ++ r.bytes))
  { s with mgt := { s.mgt with schedLog := (s.mgt.schedLog ++ [r]).drop (s.mgt.schedLog.length + 1 - 1024),
                               schedSeq := (s.mgt.schedSeq + 1) % 4294967296 } }

/-! ### Loads (R59, R60) -/

def State.loadStatus (s : State) (st : Nat) : State := s.setFld Reg.ITN_LOAD_STATUS Fd.ITN_LOAD_STATUS_STATUS st

/-- A load request into buffer `b`: EMPTY and READY start the copy; LOADING, PENDING and RUNNING refuse with ITN_BUSY
(Table 2-9). Answers whether it was accepted. -/
def State.loadStart (s : State) (b : Bool) (size : Nat) (d : Option Desc) : Bool × State :=
  if (s.buf b).st = .empty ∨ (s.buf b).st = .ready then
    let s := s.setBuf b { st := .loading, bytes := [], img := Image.blank, loader := d, loadSize := size }
    let n := b2n b
    (true, ((s.wrReg (Reg.ITN_IMAGE_ID_LO n) 0).wrReg (Reg.ITN_IMAGE_ID_HI n) 0).setMeas (7 + n) (zeros 48))
  else (false, s.loadStatus St.ITN_BUSY)

/-- A write of ITN_CTL with LOAD set (R59): BUF is written, and, before GLB_LOCK, the load into the buffer it names starts. -/
def State.itnCtlLoad (s : State) (w : Word) : State :=
  let lock := s.locked
  let s := s.regWrite Reg.ITN_CTL w
  if lock || Fd.ITN_CTL_LOAD.get w == 0 then s
  else (s.loadStart (s.flag Reg.ITN_CTL Fd.ITN_CTL_BUF) (s.fld Reg.ITN_LOAD_SIZE Fd.ITN_LOAD_SIZE_SIZE) none).2

/-- ITN_CTL_LOAD. -/
def execItnCtlLoad (w : Word) (s : State) : Host.Outcome State Fault Refusal := .next (s.hostWrite Reg.ITN_CTL (State.itnCtlLoad · w))

/-- The load ends with status `st`: a failure empties the buffer; success records IMAGE_ID and measures the image. -/
def State.loadEnd (s : State) (b : Bool) (bytes : List Byte) (st : Option Nat) : State :=
  let x := s.buf b
  let s := s.loadStatus (st.getD St.OK)
  match st with
  | some c => (s.setBuf b ImgBuf.reset).doneOpt x.loader c 0 0
  | none =>
    let im := readImage bytes
    let s := s.setBuf b { st := .ready, bytes := bytes, img := im, loader := none, loadSize := x.loadSize }
    let s := s.wrReg (Reg.ITN_IMAGE_ID_LO (b2n b)) (BitVec.ofNat 32 im.id)
    let s := s.wrReg (Reg.ITN_IMAGE_ID_HI (b2n b)) (BitVec.ofNat 32 (im.id / 4294967296))
    (s.setMeas (7 + b2n b) im.meas).doneOpt x.loader St.OK 0 0

/-! ### Swaps (R61, R62) -/

/-- The variant that the controller selects for lost ports `mask` in image `im`: the kind-3 variant that contains every lost
port with the fewest bits, the lowest number on a tie (04 R132). -/
def Image.portVariant (im : Image) (mask : Nat) : Option Vart :=
  minBy (fun v => popcount 16 v.mask * 32 + v.id)
    (im.varts.filter fun v => v.kind == 3 && (List.range 16).all fun p => !natBit mask p || natBit v.mask p)

/-- The lost ports, as a mask (04 R131: MAC_STATUS.LOST). -/
def State.lostPorts (s : State) : Nat :=
  ((List.range 16).filter fun p => s.flag (Reg.MAC_STATUS p) Fd.MAC_STATUS_LOST).foldl (fun a p => a + 2 ^ p) 0

/-- The variant of image `y` for the fault in force: of the same kind and index, or by the ports lost; the lowest number when
several match (R61 check 4). -/
def State.variantIn (s : State) (y : Image) : Option Nat :=
  if s.itn.variant = 0 then some 0
  else if s.itn.faultKind = 3 then (y.portVariant s.lostPorts).map (·.id)
  else (minBy (·.id) (y.varts.filter fun v => v.kind == s.itn.faultKind && v.index == s.itn.faultIndex)).map (·.id)

/-- The status with which a swap request is refused, by the checks of R61 in order. A buffer that is PENDING passes check 1, so that a second
request meets check 2 and gets ITN_BUSY: read alone, check 1 would leave check 2 nothing to refuse (DESIGN CHOICE, log 123). -/
def State.swapRefusal (s : State) : Option Nat :=
  let x := s.img
  let yb := s.buf (!s.itn.activeB)
  let y := yb.img
  let v := s.variantIn y
  firstFail [
    (s.itn.running && (yb.st == .ready || s.itn.swapPend != 0), St.GEN_STATE),
    (s.itn.swapPend == 0, St.ITN_BUSY),
    (y.base == x.id || x.base == y.id || s.liveChans.isEmpty, St.ITN_NOT_SUCCESSOR),
    (v.isSome, St.ITN_NO_VARIANT),
    (x.classes.all (fun c => clusters.all fun k =>
        let n := s.liveOn c.id k
        n == 0 || ((y.cls c.id).isSome && decide (n ≤ y.cap (v.getD 0) c.id k))), St.ITN_CAPACITY)]

/-- A swap request: refused with its status, which ITN_LOAD_STATUS records, or pending (Table 2-9, R62). -/
def State.swapRequest (s : State) (mode : Nat) (d : Option Desc) : State :=
  match s.swapRefusal with
  | some st => (s.loadStatus st).doneOpt d st 0 0
  | none =>
    let b := !s.itn.activeB
    let pend := if mode = 0 ∧ natBit (s.buf b).img.flags 0 then 1 else 2
    let s := s.setBuf b { s.buf b with st := .pending }
    { s with itn := { s.itn with swapPend := pend, swapDesc := d } }

/-- ITN_CTL_SWAP: a write of ITN_CTL with SWAP set; ignored once GLB_LOCK is set. -/
def execItnCtlSwap (w : Word) (s : State) : Host.Outcome State Fault Refusal :=
  .next (s.hostWrite Reg.ITN_CTL fun s =>
    let lock := s.locked
    let s := s.regWrite Reg.ITN_CTL w
    if lock || Fd.ITN_CTL_SWAP.get w == 0 then s else s.swapRequest 0 none)

/-- The swap seam is reached: the pending swap is for the next seam, or for the cycle end and this tick has index 255 (R62). -/
def State.swapDue (s : State) : Bool := s.itn.swapPend == 1 || (s.itn.swapPend == 2 && s.itn.tick % 256 == 255)

/-- Items of pool work take their cluster by 01 R16 from the plan in force: an item whose cluster is fenced, or on which the
plan has no runs of its class, is placed again by the number that placed it (`Work.place`). -/
def State.replaceWork (s : State) : State :=
  { s with cmd := { s.cmd with items := s.cmd.items.map fun it =>
      match it.ref with
      | .work id =>
        if s.fenced it.cluster || !natBit (s.runMask it.cls) it.cluster then
          let cs := s.servers.filter fun k => natBit (s.runMask it.cls) k
          let n := ((s.lay.works.find? (·.id == id)).map Work.place).getD 0
          if cs.isEmpty then it else { it with cluster := cs.getD (n % cs.length) it.cluster, on := none }
        else it
      | _ => it } }

/-- A SEAM entry of the record (15 Table 15-7): 1 variant switch, 2 image swap, 3 dump entry, 4 handover. -/
def State.seamEntry (s : State) (kind : Nat) (vals : List Byte) : State := s.entry 7 (leBytes 1 kind ++ vals)

/-- A pending swap whose seam is reached takes effect (R21, R61, R62): the plans change, ITN_SWAPPED is raised, the schedule
log is extended, and the request completes with the new IMAGE_ID. -/
def State.swapNow (s : State) : State :=
  if s.swapDue then
    let b := !s.itn.activeB
    let v := (s.variantIn (s.buf b).img).getD 0
    let d := s.itn.swapDesc
    let s := s.setBuf s.itn.activeB { s.buf s.itn.activeB with st := .ready }
    let s := s.setBuf b { s.buf b with st := .running }
    let s := { s with itn := { s.itn with activeB := b, swapPend := 0, swapDesc := none, variant := v } }
    let s := (s.replaceWork.loadStatus St.OK).raise Ev.ITN_SWAPPED (s.img.id % 4294967296) (s.img.id / 4294967296) 0
    ((s.schedEvent 2 0).seamEntry 2 (leBytes 1 (b2n b))).doneOpt d St.OK s.img.id 0
  else s

/-- ITN_SWAPPED: at its seam a pending swap takes effect (R21, R62); within a tick the plan in force stays (log 122). -/
def execItnSwapped (s : State) : Host.Outcome State Fault Refusal := .next (if s.changesRun then s.swapNow else s)

/-! ### The sequencer (R60, R64, R65) -/

/-- A write of ITN_CTL with START set (R60): with buffer A READY and HBM ready, before GLB_LOCK, the sequencer starts; tick 0
is the first tick that begins after the write. -/
def State.itnStart (s : State) (w : Word) : State :=
  let lock := s.locked
  let s := s.regWrite Reg.ITN_CTL w
  if lock || Fd.ITN_CTL_START.get w == 0 || s.itn.running || s.itn.stopped || s.itn.bufA.st != .ready
      || !s.flag Reg.CRS_STATUS Fd.CRS_STATUS_HBM_READY then s
  else
    let s := (s.setFld Reg.ITN_CTL Fd.ITN_CTL_START 1).setBuf false { s.itn.bufA with st := .running }
    { s with itn := { s.itn with running := true, starting := true, activeB := false, tick := 0 } }

/-- ITN_CTL_START. -/
def execItnCtlStart (w : Word) (s : State) : Host.Outcome State Fault Refusal := .next (s.hostWrite Reg.ITN_CTL (State.itnStart · w))

/-- A dump that is due is entered in the change phase (R65): the dump plan replaces the plan in force, and every ready queue
is discarded. -/
def State.dumpEnter (s : State) : State :=
  if s.itn.dumpDue ≠ 0 ∧ ¬ s.itn.dumpPlan ∧ ¬ s.itn.stopped then
    { s with itn := { s.itn with dumpPlan := true }, cmd := { s.cmd with items := [] } }
  else s

/-- The sequencer stops after a dump: a pending swap is abandoned with GEN_STATE (R64, Table 2-9). -/
def State.sequencerStop (s : State) : State :=
  let d := s.itn.swapDesc
  let b := !s.itn.activeB
  let s := if s.itn.swapPend = 0 then s else ((s.setBuf b { s.buf b with st := .ready }).loadStatus St.GEN_STATE).doneOpt d St.GEN_STATE 0 0
  { s with itn := { s.itn with running := false, stopped := true, swapPend := 0, swapDesc := none } }

/-! ### Fences and variants (R66 to R71) -/

/-- A fence cause is detected on cluster `k`: the first is recorded in ITN_FAULT_CAUSE, and the fence waits for the seam that
ends the tick (R66). -/
def State.detect (s : State) (k cause engine : Nat) : State :=
  let r := Reg.ITN_FAULT_CAUSE k
  let s := if s.flag r Fd.ITN_FAULT_CAUSE_VALID then s
    else ((s.setFld r Fd.ITN_FAULT_CAUSE_VALID 1).setFld r Fd.ITN_FAULT_CAUSE_CAUSE cause).setFld r Fd.ITN_FAULT_CAUSE_ENGINE
      (if cause = 4 ∨ cause = 5 then 0 else engine)
  { s with itn := { s.itn with pendFaults := s.itn.pendFaults ++ [{ cluster := k, cause := cause, engine := engine }] } }

/-- A channel is suspended: its event carries handle and class (R67, Table 3-9: a CLOSING channel stays so). -/
def State.suspendChan (s : State) (i : Nat) : State :=
  if (s.chan i).st = .opened then
    ((s.setChan i { s.chan i with st := .suspended }).raise Ev.ITN_CHANNEL_SUSPENDED (s.handleOf i) (s.chan i).cls 0).releaseDeferred i
  else s

def State.suspendAll (s : State) (is : List Nat) : State := is.foldl State.suspendChan s

/-- The channels of class `c` that are on cluster `k` and not suspended, oldest first. -/
def State.activeOn (s : State) (c k : Nat) : List Nat :=
  s.chansByAge.filter fun i => (s.chan i).cls == c && (s.chan i).cluster == k && (s.chan i).st != .suspended

/-- The surviving cluster with the most remaining capacity for class `c`, the lowest on a tie; none when none remains. -/
def State.bestCluster (s : State) (c : Nat) : Option Nat :=
  match maxBy (s.capLeft c) (s.servers.filter fun k => s.cap c k != 0) with
  | none => none
  | some k => if s.capLeft c k = 0 then none else some k

/-- A channel of the fenced cluster is placed on the best surviving one, or suspended (R67 steps 3 and 4). The capacity of a
class on a cluster counts its live channels there; the channel itself is still on the fenced cluster. -/
def State.moveChan (s : State) (i : Nat) : State :=
  let ch := s.chan i
  match s.bestCluster ch.cls with
  | some k => (s.setChan i { ch with cluster := k }).raise Ev.ITN_CHANNEL_MOVED (s.handleOf i) ch.cluster k
  | none => s.suspendChan i

/-- The reassignment of one class (R67): on each surviving cluster the oldest are kept up to the capacity and the excess is
suspended, newest first; then the channels of the fenced clusters are placed, oldest first. -/
def State.reassignClass (s : State) (c : Nat) : State :=
  let s := s.servers.foldl (fun s k => s.suspendAll ((s.activeOn c k).drop (s.cap c k)).reverse) s
  (s.chansByAge.filter fun i => (s.chan i).cls == c && !s.serves (s.chan i).cluster && (s.chan i).st != .suspended).foldl
    State.moveChan s

/-- The classes of the running image in priority order (Table 2-6). -/
def State.classOrder (s : State) : List Nat := (sortBy (fun c => c.prio * 256 + c.id) s.img.classes).map (·.id)

/-- The channel of a waybill; none for a command that belongs to none (08 R571). -/
def State.wbChannel (s : State) (x : Waybill) : Option Nat := if x.chan = 0 then none else s.chanOf x.chan

/-- The cluster to which a command goes on from a cluster that does not serve: its channel's; for one of no channel, the lowest that serves. -/
def State.restartCluster (s : State) (x : Waybill) : Nat :=
  match s.wbChannel x with
  | some i => s.serveCluster i
  | none => s.servers.headD x.cluster

/-- The class in which a command is served: the one under which it was admitted, or 0xFE where its channel's class has no service (log 119). -/
def State.wbClass (s : State) (x : Waybill) : Nat :=
  match s.wbChannel x with
  | some i => s.classOf i x.cls
  | none => x.cls

/-- Commands on a cluster that does not serve go to the cluster that now serves their channel (R68): one whose transfer or SEND is not armed
restarts at CMD_ADMIT with its waybill, its state and its lock. An armed one goes on there, to CPL_RETIRE when its completion SEND is armed; an
armed read of several invocations (R36) goes on with those that are left: a request that the array of its cluster has lost is posted again (17
R511). -/
def State.restartWaybill (s : State) (w : Nat) : State :=
  let x := s.wb w
  if s.serves x.cluster then s
  else
    let k := s.restartCluster x
    let s := s.updWb w fun x => { x with cluster := k, restarted := x.restarted || !x.armed, piPosted := if x.armed then x.progress else x.piPosted }
    let s := if x.armed then s else s.cntCmd 13 1
    -- A write's map lookup is made again.
    let s := s.dropItems fun it => it.ref == (.wb w) && it.code == 0x04 && it.leg == 2 && x.write
    let cut := x.armed && !x.write && x.st == .media
    { s with
      cip := { s.cip with reqs := if cut then s.cip.reqs.filter (fun r => r.ref != Ref.wb w) else s.cip.reqs }
      cmd := { s.cmd with items := s.cmd.items.map fun it =>
        if it.ref == (.wb w) then
          (if cut && it.wait == .event && it.code == 0x09 then
             { it with cluster := k, on := none, why := 0, code := 0x08, leg := 1, wait := .none, ready := s.now + 1 }
           else if x.armed then { it with cluster := k, on := none }
           else { it with cluster := k, on := none, why := 0, code := 0x02, leg := 1, wait := .none, ready := s.now + 1 })
        else it } }

/-- Capsules not yet admitted go with their channel: to the cluster that serves it and the class in which it is served (01 R16). One of no channel
leaves only a cluster that does not serve. Items of commands take the class in which theirs are served. -/
def State.moveCapsules (s : State) : State :=
  let move (c : Capsule) : Nat :=
    match c.chan with
    | some i => s.serveCluster i
    | none => if s.serves c.cluster then c.cluster else s.servers.headD c.cluster
  let caps := s.cmd.caps.map fun c => { c with cluster := move c }
  { s with cmd := { s.cmd with caps := caps, items := s.cmd.items.map fun it =>
      match it.ref with
      | .cap id =>
        (match s.cap? id with
         | some c => { it with cluster := move c, cls := s.serveClass c }
         | none => it)
      | .wb w => { it with cls := s.wbClass (s.wb w) }
      | .work _ => it } }

/-- The consequences of a fence, an idling or a variant for commands and pool work (R68, 01 R16). -/
def State.restartAll (s : State) : State :=
  ((s.wbsThat fun _ => true).foldl State.restartWaybill s).moveCapsules.replaceWork

/-- The record names a variant switch (15 R455): the variant in force with the fenced and idled clusters, and the HBM stacks whose
contents are dropped at this seam. -/
def State.variantDrop (s : State) (lost : Nat) : State :=
  s.seamEntry 1 (leBytes 1 s.itn.variant ++ leBytes 2 (s.fld Reg.ITN_FENCE Fd.ITN_FENCE_FENCED) ++ leBytes 2 (s.fld Reg.ITN_FENCE Fd.ITN_FENCE_IDLED)
    ++ leBytes 1 lost)

/-- A variant switch without a lost stack. -/
def State.variantEntry (s : State) : State := s.variantDrop 0

/-- The controller switches to variant `v` (R66, R67): ITN_VARIANT_ENTERED, the schedule log, and the reassignment. -/
def State.enterVariant (s : State) (v : Vart) : State :=
  let s := { s with itn := { s.itn with variant := v.id, faultKind := v.kind, faultIndex := v.index } }
  let s := (s.raise Ev.ITN_VARIANT_ENTERED v.id v.kind v.index).schedEvent 3 (v.kind * 256 + v.index % 256)
  (s.classOrder.foldl State.reassignClass s.variantEntry).restartAll

/-- Cluster `k` is fenced at the seam (R66): from variant 0 its variant is entered; while a variant is in force it is idled
and every channel on it is suspended (R70), oldest first: R70 gives the suspensions no order (DESIGN CHOICE, log 121). -/
def State.fenceNow (s : State) (f : PendFault) : State :=
  let k := f.cluster
  if !s.serves k then s
  else if s.itn.variant = 0 then
    let s := s.cluEnter k cluReset f.cause
    let s := s.setFld Reg.ITN_FENCE Fd.ITN_FENCE_FENCED (setNatBit (s.fld Reg.ITN_FENCE Fd.ITN_FENCE_FENCED) k true)
    match s.img.varts.find? (fun v => v.kind == 1 && v.index == k) with
    | some v => s.enterVariant v
    | none => s
  else
    let s := s.cluEnter k cluReset f.cause
    let s := s.setFld Reg.ITN_FENCE Fd.ITN_FENCE_IDLED (setNatBit (s.fld Reg.ITN_FENCE Fd.ITN_FENCE_IDLED) k true)
    let s := s.suspendAll (s.chansByAge.filter fun i => (s.chan i).cluster == k)
    let s := s.raise Ev.ITN_CLUSTER_IDLED k f.cause 0
    ((s.schedEvent 5 (256 + k)).variantEntry).restartAll

/-- A lost stack selects its variant from variant 0 (R66). -/
def State.stackVariant (s : State) (n : Nat) : State :=
  if s.itn.variant = 0 then
    match s.img.varts.find? (fun v => v.kind == 2 && v.index == n) with
    | some v => s.enterVariant v
    | none => s
  else s

/-- Lost ports select a variant from variant 0 or from a kind-3 variant (04 R132). -/
def State.portsVariant (s : State) : State :=
  if s.itn.variant = 0 ∨ s.itn.faultKind = 3 then
    match s.img.portVariant s.lostPorts with
    | some v => if v.id = s.itn.variant then s else s.enterVariant v
    | none => s
  else s

/-- A moved channel goes home at the first seam at which it has no waybill in flight, once variant 0 is restored (R71); its commands that are not
yet admitted go with it. -/
def State.returnHome (s : State) (i : Nat) : State :=
  let ch := s.chan i
  if ch.st ≠ .free ∧ ch.cluster ≠ ch.home ∧ s.itn.variant = 0 ∧ s.inFlight i = 0 then
    (s.setChan i { ch with cluster := ch.home }).moveCapsules
  else s

/-- CHANNEL_RETURN_HOME of channel index `c`, at a seam (R21, R71); within a tick the channel stays where it is (log 122). -/
def execChannelReturnHome (c : Fin 262144) (s : State) : Host.Outcome State Fault Refusal :=
  .next (if s.changesRun then s.returnHome c.val else s)

/-- A suspended channel resumes (R71, Table 3-9). -/
def State.resumeChan (s : State) (i : Nat) : State :=
  if (s.chan i).st = .suspended then
    (s.setChan i { s.chan i with st := .opened }).raise Ev.ITN_CHANNEL_RESUMED (s.handleOf i) (s.chan i).cls 0
  else s

/-- Variant 0 is restored at the seam (R71): ITN_VARIANT_EXITED, the schedule log, and the suspended channels resume, in ascending index order, which
the spec does not give (DESIGN CHOICE, log 121); the fenced and idled clusters serve again. -/
def State.exitVariant (s : State) : State :=
  let v := s.itn.variant
  let s := { s with itn := { s.itn with variant := 0, faultKind := 0, faultIndex := 0 } }
  let s := (clusters.filter fun k => !s.serves k).foldl (fun (s : State) k => s.cluEnter k cluInService 0) s
  let s := s.wrReg Reg.ITN_FENCE 0
  let s := ((s.raise Ev.ITN_VARIANT_EXITED v 0 0).schedEvent 4 0).variantEntry
  (s.suspended.foldl State.resumeChan s).moveCapsules.replaceWork

end Sys2Proof.Machine
end

