-- ==== Sys2Proof/Machine/Plan.lean ====
section
/-!
DEFINITION. The plan in force, tick by tick (02 R27, R30 to R43): the slot runs and lane owners that the sequencer loads, the runs that take
items, lane accounts and unit budgets, and what their excess does (R41).
-/

namespace Sys2Proof.Machine

open Sys2Proof

/-! ### Columns of the routine catalogue beside its costs (02 R35, Table 2-2) -/

/-- The most bytes that one invocation of a leg moves on memory lanes: requests smaller than 4 KiB, and whole 4 KiB units. DRV_SUBMIT moves 64 B for
each of up to eight entries. -/
def laneUseOf (code leg : Nat) : Nat × Nat :=
  match code, leg with
  | 0x04, 1 => (64, 0)
  | 0x05, 1 => (64, 0)
  | 0x05, 2 => (0, 131072)
  | 0x06, 1 => (512, 0)
  | 0x0B, 1 => (64, 0)
  | 0x0B, 2 => (64, 131072)
  | 0x0C, 1 => (64, 0)
  | 0x0E, 1 => (128, 0)
  | 0x0F, 1 => (192, 0)
  | 0x10, _ => (128, 0)
  | 0x11, _ => (128, 0)
  | 0x12, _ => (128, 0)
  | 0x13, 1 => (0, 16384)
  | 0x14, 1 => (128, 0)
  | 0x15, 1 => (0, 4096)
  | 0x17, 1 => (0, 131072)
  | _, _ => (0, 0)

/-- Bytes of scratch that a routine's item carries to a later leg (R34). -/
def carriedScratch (code : Nat) : Nat :=
  match code with
  | 0x01 => 128
  | 0x02 => 64
  | 0x03 => 64
  | 0x04 => 96
  | 0x05 => 64
  | 0x08 => 32
  | 0x09 => 32
  | 0x0B => 64
  | 0x0C => 64
  | 0x0D => 128
  | 0x10 => 256
  | 0x11 => 192
  | 0x12 => 192
  | 0x13 => 64
  | 0x14 => 128
  | 0x15 => 256
  | 0x16 => 64
  | 0x17 => 64
  | _ => 0

/-- Scratch of one engine that items may carry state in: 240 KiB of its 256 KiB (R34). -/
def scratchLimit : Nat := 245760

/-- Carried state that the items on engine `g` (8 × cluster + engine) hold. The compiler's reservation bounds it by `scratchLimit` (R34); the spec
gives nothing that happens beyond. -/
def State.scratchUse (s : State) (g : Nat) : Nat :=
  ((s.cmd.items.filter fun it => 8 * it.cluster + it.eng % 8 == g).map fun it => carriedScratch it.code).sum

/-! ### Lane accounts and unit budgets (02 R39 to R43) -/

/-- Bytes that one lane carries per tick (R37). -/
def laneBytes : Nat := 16384

/-- Bytes that the lane table in force reserves for class `c` on stack `n` in the current tick (R39). The dump plan reserves every lane to its one
chain (R65). -/
def State.laneReserve (s : State) (c n : Nat) : Nat :=
  if s.itn.dumpPlan then 64 * laneBytes
  else laneBytes * ((List.range 64).filter fun l => s.itn.owners.getD (64 * n + l) 0xFF == c).length

/-- An account of bytes by class and stack, with `b` more. -/
def addUse (t : List (Nat × Nat × Nat)) (c n b : Nat) : List (Nat × Nat × Nat) :=
  if t.any fun e => e.1 == c && e.2.1 == n then t.map fun e => if e.1 = c ∧ e.2.1 = n then (c, n, e.2.2 + b) else e else t ++ [(c, n, b)]

def useOf (t : List (Nat × Nat × Nat)) (c n : Nat) : Nat := ((t.find? fun e => e.1 == c && e.2.1 == n).map fun e => e.2.2).getD 0

/-- A budget overrun of a stack (0 to 3) or unit, posted by engine `g` (R41): it is counted and reported, and the cluster is fenced at the next
seam. R41 gives the units of a cluster no number: the model reports its cipher array as 4 and its parity unit as 5 (DESIGN CHOICE, log 128). -/
def State.overrun (s : State) (g unit : Nat) : State :=
  (((s.satFld Reg.ITN_OVERRUN_CNT wordFld 1).acc 14 (g / 8) 5 1).raise Ev.ITN_BUDGET_OVERRUN (g / 8) unit 0).detect (g / 8) 6 (g % 8)

/-- Bytes of class `c` on stack `n` join the account of the tick; a request that takes it beyond the reservation is still made (R41). -/
def State.laneAdd (s : State) (g c n b : Nat) : State :=
  let s := { s with itn := { s.itn with laneUse := addUse s.itn.laneUse c n b } }
  if s.laneReserve c n < useOf s.itn.laneUse c n then s.overrun g n else s

/-- A request of `b` bytes of class `c` is posted by engine `g`. Its 4 KiB units lie on successive stacks (01 R18) from one on that the addresses
of the HBM regions decide, which the model does not hold: a free value (log 129). -/
def State.lanePost (s : State) (g c b : Nat) : State :=
  if b = 0 then s
  else
    let (u, s) := s.draw
    if b < 4096 then s.laneAdd g c (u % 4) b
    else (List.range (b / 4096)).foldl (fun s i => s.laneAdd g c ((u + i) % 4) 4096) s

/-- A request flagged as a prefetch (R38): it is issued at cycle 0 of the next tick and counts against that tick's reservations. -/
def State.lanePrefetch (s : State) (g c b : Nat) : State :=
  if b = 0 then s
  else
    let (u, s) := s.draw
    let parts := if b < 4096 then [b] else List.replicate (b / 4096) 4096
    { s with itn := { s.itn with prefetch := s.itn.prefetch ++ parts.mapIdx fun i n => (g, c, (u + i) % 4, n) } }

/-- The engine of an item, numbered 8 × cluster + engine in cluster. -/
def Item.engine (it : Item) : Nat := 8 * it.cluster + it.eng % 8

/-- The lane requests of an item's leg: `small` bytes in requests below 4 KiB and `units` bytes in whole units. Which routines flag theirs as
prefetches the spec does not say: `Config.prefetches` is free. -/
def State.lane (s : State) (it : Item) (small units : Nat) : State :=
  if Config.prefetches it.code then (s.lanePrefetch it.engine it.cls small).lanePrefetch it.engine it.cls units
  else (s.lanePost it.engine it.cls small).lanePost it.engine it.cls units

/-- The wait for a lane request posted now (R33): its next leg is ready two ticks later, and one later still when the routine flags it as a
prefetch. -/
def State.laneWait (s : State) (code : Nat) : Wait := .lane (s.now + b2n (Config.prefetches code))

/-- Work posted in the current tick to the cipher array of cluster `k` is bounded by 113 passes (R42), to its parity unit by 256 KiB of input
(R43). -/
def passLimit : Nat := 113
def parityLimit : Nat := 262144

/-- Input is posted to the parity unit of cluster `k`. A request for more than 256 KiB is made as requests of at most 256 KiB each (10 R308), of which one
is posted in the tick (DESIGN CHOICE, log 144). -/
def State.parityAdd (s : State) (k b : Nat) : State :=
  let n := Tab.rd (fun _ => 0) s.itn.parityIn k + min parityLimit b
  let s := { s with itn := { s.itn with parityIn := Tab.wr (fun _ => 0) s.itn.parityIn k n } }
  if parityLimit < n then s.overrun (8 * k) 5 else s

/-! ### Loading the next tick (02 R27, R29) -/

/-- The hand-off and latch phases count the ended tick's idle slots (18 Table 18-1, group 14): the slots of no run, and those of runs that started no
item. -/
def State.idleSlots (s : State) : State :=
  if !s.itn.running || s.itn.starting || s.itn.dumpPlan then s
  else
    clusters.foldl (fun (s : State) k =>
      s.acc 14 k 2 (240 - ((s.itn.slots.filter fun r => r.engine / 8 == k && r.used).map fun (r : SlotRun) => r.len).sum)) s

/-- The memory phase of the seam: the lane accounts of the tick close, and those of the units. -/
def State.memoryPhase (s : State) : State := { s with itn := { s.itn with laneUse := [], parityIn := [] } }

/-- The slot entries and the lane reservations of the tick of index `t` are loaded from the plan in force, and no item is in a run. -/
def State.loadPlan (s : State) (t : Nat) : State :=
  let b := s.buf s.itn.activeB
  let on := s.itn.running && !s.itn.dumpPlan
  { s with
    itn := { s.itn with
      slots := if on then planRuns b.bytes b.img.chains s.planNo (t % 256) else []
      owners := if on then laneOwners b.bytes s.planNo (t % 256) else [] }
    cmd := { s.cmd with items := s.cmd.items.map fun it => { it with on := none, step := 0, passed := false } } }

/-- The tick of index `t` is loaded, and each prefetch is confirmed against its reservations (R38): it opens the tick's accounts. R27 loads the
reservations and confirms in the memory phase and loads the slot entries in the change phase; all are the next tick's, so all come from the plan
that the change phase leaves in force (DEDUCED, log 130). -/
def State.loadTick (s : State) (t : Nat) : State :=
  let ps := s.itn.prefetch
  let s := s.loadPlan t
  ps.foldl (fun (s : State) (p : Nat × Nat × Nat × Nat) => s.laneAdd p.1 p.2.1 p.2.2.1 p.2.2.2)
    { s with itn := { s.itn with prefetch := [] } }

/-! ### Items that wait for a resource (00 R570) -/

/-- Items that a run has found waiting for `why`. -/
def State.waiting (s : State) (why : Nat) : Nat := (s.cmd.items.filter fun it => it.why == why).length

/-- An item that a run cannot take stays at the head of its queue for the next run of its chain (R32), marked with what it lacks; `passed`: the
items behind it are taken first in this tick. -/
def State.stay (s : State) (it : Item) (why : Nat) (passed : Bool) : State :=
  { s with cmd := { s.cmd with items := s.cmd.items.map fun x =>
      if x = it then { it with on := none, step := 0, ready := 0, input := false, why := why, passed := passed } else x } }

end Sys2Proof.Machine
end

