-- ==== Sys2Proof/Machine/Cipher.lean ====
section
/-!
DEFINITION. The cipher engine and check units (11): XTS and the stored unit (R331 to R336), protection information and the
checks of a block (R337 to R342), requests to the arrays (R344), key slots and their opcodes (R348 to R352), alarms and
zeroisation (R354 to R357), and the software check engines (R359).
-/

namespace Sys2Proof.Machine

open Sys2Proof

/-! ### XTS (R331) -/

/-- Multiplication of a 16-byte tweak by α: the little-endian number moves left, and 0x87 enters byte 0 when bit 127 was set. -/
def mulAlpha (t : List Byte) : List Byte :=
  let n := leNat t
  leBytes 16 ((2 * n % 2 ^ 128) ^^^ (if natBit n 127 then 0x87 else 0))

/-- T0 of block `b` of volume `v`: AES-256 under K2 of v × 2^64 + b. -/
def tweak0 (k2 : List Byte) (v b : Nat) : List Byte := Config.aes256 k2 (leBytes 8 b ++ leBytes 8 v)

/-- The 16-byte blocks of a data unit under `f`, the tweak advancing from `t`; `n` blocks. -/
def xtsRun (f : List Byte → List Byte) : Nat → List Byte → List Byte → List Byte
  | 0, _, _ => []
  | n + 1, t, bs => xorB (f (xorB (bs.take 16) t)) t ++ xtsRun f n (mulAlpha t) (bs.drop 16)

def xtsEnc (k : KeyPair) (v b : Nat) (data : List Byte) : List Byte :=
  xtsRun (Config.aes256 k.k1) (data.length / 16) (tweak0 k.k2 v b) data
def xtsDec (k : KeyPair) (v b : Nat) (data : List Byte) : List Byte :=
  xtsRun (Config.aes256Inv k.k1) (data.length / 16) (tweak0 k.k2 v b) data

/-! ### The stored unit (R334 to R336) -/

/-- Bytes of a guard (R337): 2, or 8 of LBAF 4; 0 without protection information. -/
def guardBytes (f : Nat) : Nat := if f = 1 ∨ f = 3 then 2 else if f = 4 then 8 else 0
/-- The guard of a block's data in NVMe byte order. -/
def guardOf (f : Nat) (data : List Byte) : List Byte :=
  if guardBytes f = 2 then (leBytes 2 (crc16 data).toNat).reverse
  else if guardBytes f = 8 then (leBytes 8 (crc64 data).toNat).reverse else []
/-- Bytes of the reference tag, and the tag of block `b` (R337). -/
def refBytes (f : Nat) : Nat := if f = 4 then 6 else 4
def refTag (f b : Nat) : List Byte := (leBytes (refBytes f) b).reverse

/-- T0, taken as zero for a volume without a key slot (R334). -/
def maskOf (kp : Option KeyPair) (v b : Nat) : List Byte := match kp with | some k => tweak0 k.k2 v b | none => zeros 16

/-- The bytes of a tail entry that follow BIND (Table 11-2). -/
def entryRest (f : Nat) (t0 guard app : List Byte) : List Byte :=
  let g := xorB guard t0
  let a := xorB app (sliceB t0 8 2)
  if f = 0 then zeros 4
  else if f = 1 then g ++ a
  else if f = 2 then zeros 60
  else g ++ zeros (8 - guardBytes f) ++ a ++ zeros 50

/-- BIND (R335). -/
def bindOf (nguid : List Byte) (b : Nat) (stored rest : List Byte) : List Byte :=
  leBytes 4 (crc32c (nguid ++ leBytes 8 b ++ stored ++ rest)).toNat

/-- Block `b` of volume `v` as it is stored: its data and its tail entry (R340 steps 2 and 3). -/
def storeBlock (x : Vol) (kp : Option KeyPair) (v b : Nat) (plain guard app : List Byte) : List Byte × List Byte :=
  let ct := match kp with | some k => xtsEnc k v b plain | none => plain
  let rest := entryRest x.lbaf (maskOf kp v b) guard app
  (ct, bindOf x.nguid b ct rest ++ rest)

/-- Tail bytes of a block: 8 of each of eight sectors, or the whole 64. -/
def entryBytes (f : Nat) : Nat := if f ≤ 1 then 8 else 64
/-- The data and the tail entry of block `i` of a unit. -/
def unitBlock (f : Nat) (u : List Byte) (i : Nat) : List Byte × List Byte :=
  (sliceB u (lbaData f * i) (lbaData f), sliceB u (4096 + entryBytes f * i) (entryBytes f))

/-- A unit of `n` blocks that all hold zeros, as initialisation stores it (R338): first block `b`. -/
def zeroVolUnit (x : Vol) (kp : Option KeyPair) (v t : Nat) : List Byte :=
  let f := x.lbaf
  let z := zeros (lbaData f)
  let bs := (List.range (unitBlocks f)).map fun i => storeBlock x kp v (t * unitBlocks f + i) z (guardOf f z) (zeros 2)
  bs.flatMap (·.1) ++ bs.flatMap (·.2)

/-! ### The checks of a block (R338 to R342) -/

/-- What Table 11-4 selects for a command: ESCAPE, and the application tag check with ELBAT and ELBATM. -/
structure CheckSet where
  escape : Bool
  app : Bool
  elbat : Nat
  elbatm : Nat
deriving DecidableEq, Repr

/-- Statuses of Table 11-6 as SCT × 256 + SC. -/
def stGuard : Nat := 0x282
def stApp : Nat := 0x283
def stRef : Nat := 0x284
def stDenied : Nat := 0x286
def stUnrecovered : Nat := 0x281
def stInternal : Nat := 0x006

/-- The application tag fails the check. -/
def CheckSet.appBad (c : CheckSet) (app : List Byte) : Bool := c.app && ((beNat app ^^^ c.elbat) &&& c.elbatm) != 0

/-- Protection information on the wire (Table 11-3): guard, application tag, reference tag. -/
def piGuard (f : Nat) (m : List Byte) : List Byte := m.take (guardBytes f)
def piApp (f : Nat) (m : List Byte) : List Byte := sliceB m (guardBytes f) 2
def piRef (f : Nat) (m : List Byte) : List Byte := m.drop (guardBytes f + 2)

/-- A block is exempt from the checks under ESCAPE. -/
def CheckSet.exempt (c : CheckSet) (f : Nat) (app : List Byte) : Bool := guardBytes f != 0 && c.escape && beNat app == 0xFFFF

/-- The status with which a written block fails (R340), the guard before the reference tag before the application tag. -/
def writeCheck (f : Nat) (c : CheckSet) (b : Nat) (data mdata : List Byte) : Option Nat :=
  if guardBytes f = 0 ∨ c.exempt f (piApp f mdata) then none
  else if piGuard f mdata ≠ guardOf f data then some stGuard
  else if piRef f mdata ≠ refTag f b then some stRef
  else if c.appBad (piApp f mdata) then some stApp
  else none

/-- A block of a stored unit as a read takes it (R342): BIND matches, the plaintext, the unmasked guard and application tag. -/
structure ReadBlk where
  bind : Bool
  plain : List Byte
  guard : List Byte
  app : List Byte

def readBlk (x : Vol) (kp : Option KeyPair) (v b : Nat) (data entry : List Byte) : ReadBlk :=
  let f := x.lbaf
  let t0 := maskOf kp v b
  let rest := entry.drop 4
  let app := if f ≤ 1 then sliceB rest 2 2 else sliceB rest 8 2
  { bind := entry.take 4 == bindOf x.nguid b data rest
    plain := match kp with | some k => xtsDec k v b data | none => data
    guard := xorB (rest.take (guardBytes f)) t0
    app := xorB app (sliceB t0 8 2) }

/-- The status with which a read block fails after BIND has passed. -/
def readCheck (f : Nat) (c : CheckSet) (r : ReadBlk) : Option Nat :=
  if guardBytes f = 0 ∨ c.exempt f r.app then none
  else if r.guard ≠ guardOf f r.plain then some stGuard
  else if c.appBad r.app then some stApp
  else none

/-- The block as the host receives it: data, then the metadata of the format (R342 step 6, R339). -/
def wireBlock (f b : Nat) (r : ReadBlk) : List Byte :=
  r.plain ++ (if guardBytes f = 0 then [] else r.guard ++ r.app ++ refTag f b)

/-! ### Key slots (R348) -/

def State.keyPair (s : State) (i : Nat) : Option KeyPair := Tab.rd (fun _ => none) s.cip.keys i
def State.setKey (s : State) (i : Nat) (k : Option KeyPair) : State :=
  { s with cip := { s.cip with keys := Tab.wr (fun _ => none) s.cip.keys i k } }
def State.kek (s : State) (i : Nat) : List Byte := Tab.rd (fun _ => []) s.cip.keks i
def State.setKek (s : State) (i : Nat) (k : List Byte) : State :=
  { s with cip := { s.cip with keks := Tab.wr (fun _ => []) s.cip.keks i k } }

/-- The key check value of a key: bytes 0 to 3 of AES-256 of sixteen zero bytes. -/
def kcvOf (k : List Byte) : Nat := leField (Config.aes256 k (zeros 16)) 0 4

/-- Volumes that name key slot `i`. -/
def State.volsOfKey (s : State) (i : Nat) : List Nat := s.vols.filter fun v => (s.vol v).key == some i

/-- Requests that use a key are refused: zeroised, or the generator halted (R355, R357). -/
def State.keyStop (s : State) : Bool := s.flag Reg.CIP_STATUS Fd.CIP_STATUS_ZEROISED || s.flag Reg.CIP_STATUS Fd.CIP_STATUS_HALT

/-- The key of a volume may be used: it has none, or its slot is LOADED and key use is not stopped. -/
def State.keyReady (s : State) (x : Vol) : Bool :=
  match x.key with
  | none => true
  | some i => (s.keyPair i).isSome && !s.keyStop
def State.volKey (s : State) (x : Vol) : Option KeyPair := x.key.bind s.keyPair

/-! ### Requests to the arrays (R344, 02 R42) -/

/-- Passes of a request of `n` data units of `size` bytes. -/
def passesOf (n size : Nat) : Nat := ceilDiv (n * (size + 16)) 3072

/-- The most passes of one invocation, for 128 KiB of 512 B blocks (02 R36). A larger request, for a whole stripe, is made as one request for each
128 KiB, of which one is posted in the tick (DESIGN CHOICE, log 144). -/
def invPasses : Nat := passesOf 256 512

/-- A request is posted to the array of cluster `k`; CIP_ARRAY_PASS keeps the most passes of a tick, and one beyond the budget of the tick is an
overrun (02 R42). -/
def State.postCipher (s : State) (k : Nat) (ref : Ref) (inv passes : Nat) (latency : Bool) (pair : Option KeyPair) : State :=
  let n := Tab.rd (fun _ => 0) s.cip.passes k + min invPasses passes
  let s := s.acc 14 k 3 passes
  let s := { s with cip := { s.cip with
    reqs := s.cip.reqs ++ [{ cluster := k, ref := ref, inv := inv, passes := passes, latency := latency, keyed := pair.isSome, pair := pair, posted := s.now }]
    passes := Tab.wr (fun _ => 0) s.cip.passes k n } }
  let s := if s.fld (Reg.CIP_ARRAY_PASS k) Fd.CIP_ARRAY_PASS_HIGH < n then
    s.setFld (Reg.CIP_ARRAY_PASS k) Fd.CIP_ARRAY_PASS_HIGH (min 255 n) else s
  if passLimit < n then s.overrun (8 * k) 4 else s

/-- The request that the array of cluster `k` completes next: the oldest latency request before any bulk one. -/
def State.nextCipher (s : State) (k : Nat) : Option CipReq :=
  (s.cip.reqs.find? fun r => r.cluster == k && r.latency) <|> s.cip.reqs.find? fun r => r.cluster == k

def State.dropCipher (s : State) (r : CipReq) : State := { s with cip := { s.cip with reqs := s.cip.reqs.erase r } }

/-! ### KEY_LOAD and KEY_DESTROY (R350 to R352) -/

/-- A change of the key store is due at the seam. -/
def State.keyChange (s : State) (c : KeyChange) : State := { s with cip := { s.cip with changes := s.cip.changes ++ [c] } }

/-- No alarm bit is latched in CIP_ALARM. -/
def State.noAlarm (s : State) : Bool := s.rd Reg.CIP_ALARM == 0

/-- The SPDM session `id` that holds a key-import key. -/
def State.session (s : State) (id : Nat) : Option SpdmSess := s.mgt.sessions.find? fun x => x.id == id && !x.key.isEmpty

/-- KEY_LOAD of a data key pair (KIND 0) with the blob as the DMA read returned it (Table 11-9). -/
def keyLoadPair (ok : Bool) (blob : List Byte) (d : Desc) (s : State) : State :=
  let slot := d.handle % 65536
  let kek := s.kek (d.f 9 1)
  let plain := Config.unwrapKey kek blob
  let bs := plain.getD []
  let k1 := bs.take 32
  let k2 := sliceB bs 32 32
  let s' := if plain.isNone && ok then s.cntCip 6 1 else s
  match firstFail [(d.f 24 2 == 72, St.CIP_LEN), (s.noAlarm && !s.keyStop, St.CIP_ALARMED),
      ((s.keyPair slot).isNone && !s.cip.changes.any (fun c => !c.kek && c.index == slot), St.CIP_SLOT_STATE),
      (!kek.isEmpty, St.CIP_NO_KEK)] with
  | some st => s.done d st
  | none =>
    s'.checked d
      [(ok, St.GEN_DMA), (plain.isSome, St.CIP_UNWRAP), (k1 != k2, St.CIP_KEY_WEAK),
       ((s.volsOfKey slot).all (fun v => (s.vol v).kcv == kcvOf k1), St.CIP_KEY_MISMATCH)]
      fun s => (s.keyChange { kek := false, index := slot, pair := some { k1 := k1, k2 := k2, kcv := kcvOf k1 }, raw := [],
                              desc := some d, result := kcvOf k1 }).replicate (.key false slot 0 (k1 ++ k2))

/-- KEY_LOAD of a KEK (KIND 1): an AES-256-GCM blob under the key-import key of the session. -/
def keyLoadKek (ok : Bool) (blob : List Byte) (d : Desc) (s : State) : State :=
  let i := d.handle % 16
  let id := d.f 12 4
  let sess := s.session id
  let seq := leField blob 0 8
  let aad := leBytes 1 i ++ leBytes 4 id ++ blob.take 8
  let plain := match sess with
    | some x => if x.lastSeq < seq then Config.gcmOpen x.key (sliceB blob 8 12) aad (sliceB blob 20 32) (sliceB blob 52 16) else none
    | none => none
  match firstFail [(d.f 24 2 == 68, St.CIP_LEN), (s.noAlarm && !s.keyStop, St.CIP_ALARMED), (sess.isSome, St.CIP_AUTH)] with
  | some st => s.done d st
  | none =>
    let s := if plain.isNone && ok then s.cntCip 6 1 else s
    s.checked d [(ok, St.GEN_DMA), (plain.isSome, St.CIP_AUTH)] fun s =>
      let s := { s with mgt := { s.mgt with sessions := s.mgt.sessions.map fun (x : SpdmSess) => if x.id == id then { x with lastSeq := seq } else x } }
      (s.keyChange { kek := true, index := i, pair := none, raw := plain.getD [], desc := some d, result := kcvOf (plain.getD []) }).replicate
        (.key true i seq (plain.getD []))

/-- KEY_LOAD: the field check, then by KIND. -/
def keyLoad (ok : Bool) (blob : List Byte) (d : Desc) (s : State) : State :=
  let kind := d.f 8 1
  s.checked d
    [(decide (kind ≤ 1) && d.reservedZero [(8, 1), (9, 1), (12, 4), (16, 8), (24, 2)]
        && (if kind = 0 then decide (d.handle < 65536) && decide (d.f 9 1 < 16) && d.f 12 4 == 0
            else decide (d.handle < 16) && d.f 9 1 == 0), St.GEN_FIELD)]
    fun s => if kind = 0 then keyLoadPair ok blob d s else keyLoadKek ok blob d s

/-- KEY_LOAD with the outcome of the blob's DMA read. -/
def execKeyLoad (ok : Bool) (blob : List Byte) (s : State) : Host.Outcome State Fault Refusal :=
  .next (s.ringData Op.KEY_LOAD ok blob (keyLoad ok blob))

/-- KEY_DESTROY (R352). -/
def keyDestroy (d : Desc) (s : State) : State :=
  let kind := d.f 8 1
  let slot := d.handle % 65536
  let n := if kind = 0 then (s.volsOfKey slot).length else 0
  s.checked d
    [(decide (kind ≤ 1) && d.reservedZero [(8, 1), (9, 1)] && decide (d.f 9 1 ≤ 1)
        && (if kind = 0 then decide (d.handle < 65536) else decide (d.handle < 16) && d.f 9 1 == 0), St.GEN_FIELD),
     (if kind = 0 then (s.keyPair slot).isSome else !(s.kek slot).isEmpty, St.CIP_SLOT_STATE),
     (kind == 1 || d.f 9 1 == 1 || n == 0, St.CIP_KEY_IN_USE)]
    fun s => s.keyChange { kek := kind == 1, index := slot, pair := none, raw := [], desc := some d, result := n }

def execKeyDestroy (s : State) : Host.Outcome State Fault Refusal := .next (s.ringCmd Op.KEY_DESTROY keyDestroy)

/-- A change of the key store takes effect (R348), and its opcode completes. -/
def State.keyApply (s : State) (c : KeyChange) : State :=
  (if c.kek then s.setKek c.index c.raw else s.setKey c.index c.pair).doneOpt c.desc St.OK c.result 0

/-- CIP_KEY_SEL_WRITE: a snapshot is taken at the next seam. -/
def execCipKeySelWrite (w : Word) (s : State) : Host.Outcome State Fault Refusal :=
  .next (s.hostWrite Reg.CIP_KEY_SEL fun s =>
    let s := s.regWrite Reg.CIP_KEY_SEL w
    { s with cip := { s.cip with selDue := true } })

def State.keySnap (s : State) : State :=
  if !s.cip.selDue then s
  else
    let i := s.fld Reg.CIP_KEY_SEL Fd.CIP_KEY_SEL_SLOT
    let k := s.keyPair i
    let s := { s with cip := { s.cip with selDue := false } }
    (s.wrReg Reg.CIP_KEY_INFO0 (BitVec.ofNat 32 (2147483648 + (if k.isSome then 1073741824 else 0) + (s.volsOfKey i).length))).wrReg
      Reg.CIP_KEY_INFO1 (BitVec.ofNat 32 ((k.map (·.kcv)).getD 0))

/-! ### Alarms and zeroisation (R354 to R357) -/

/-- An outstanding request of the arrays is discarded: a command completes with Access Denied when `denied`, or restarts and posts
it again (R355, R356); an initialisation stripe is taken again later (R333). -/
def State.discardCipher (s : State) (denied : Bool) (r : CipReq) : State :=
  let s := (s.dropCipher r).cntCip 5 1
  match r.ref with
  | .wb w =>
    if denied then
      let s := s.updWb w fun x => { x with status := stDenied, piFail := some (0, stDenied), piDone := x.piPosted }
      (s.cntCip 4 1).wakeWb w
    else s.updWb w fun x => { x with piPosted := x.piDone }
  | .work id =>
    match s.work? id with
    | some w =>
      let s := (s.dropWork id).dropItems fun it => it.ref == .work id
      (match w.kind with
       | .init v => s.updVol v fun x => { x with initNext := min x.initNext (s.initIndex v w.stripe), initFly := x.initFly - 1 }
       | _ => s)
    | none => s
  | .cap _ => s

/-- Step 3 of Table 11-11: key slots and KEKs are cleared; a change that waits is answered with CIP_ALARMED. -/
def State.zeroise (s : State) : State :=
  let n := (s.cip.keys.filter fun (e : Nat × Option KeyPair) => e.2.isSome).length
  let m := s.cip.keks.length
  let s := s.setFld Reg.CIP_STATUS Fd.CIP_STATUS_ZEROISED 1
  let s := (s.cip.reqs.filter (·.keyed)).foldl (fun s r => s.discardCipher true r) s
  let cs := s.cip.changes
  let s := { s with cip := { s.cip with keys := [], keks := [], changes := [], zeroed := some (n, m) } }
  cs.foldl (fun s c => s.doneOpt c.desc St.CIP_ALARMED 0 0) s

/-- The bit of CIP_ALARM for a source code of scope zeroisation or halt. -/
def alarmFld (code : Nat) : Fld := ⟨code - 1, 1⟩

/-- A zeroisation under source code `code`: the alarm is latched and reported, and the pair link is told (15 R438). -/
def State.zeroAlarm (s : State) (code : Nat) : State :=
  let s : State := { s with cip := { s.cip with alarms := s.cip.alarms ++ [(code, 0xFF)] } }
  (s.setFld Reg.CIP_ALARM (alarmFld code) 1).zeroise.zeroLink code

/-- An alarm source asserts (Table 11-10): it is latched, and acts by its scope. -/
def State.alarm (s : State) (code k : Nat) : State :=
  if code = 0 ∨ (6 < code ∧ code ≠ 16) ∨ (code = 1 ∧ !s.flag Reg.CIP_CFG Fd.CIP_CFG_TAMPER_EN) then s
  else if code = 16 then
    let s : State := { s with cip := { s.cip with alarms := s.cip.alarms ++ [(code, k)] } }
    let s := s.setFld Reg.CIP_ALARM Fd.CIP_ALARM_ARRAY (setNatBit (s.fld Reg.CIP_ALARM Fd.CIP_ALARM_ARRAY) k true)
    let s := (s.cip.reqs.filter fun r => r.cluster == k).foldl (fun s r => s.discardCipher false r) s
    s.detect k 5 0
  else if code = 6 then
    let s : State := { s with cip := { s.cip with alarms := s.cip.alarms ++ [(code, 0xFF)], halting := true, testTick := s.now } }
    s.setFld Reg.CIP_ALARM (alarmFld code) 1
  else s.zeroAlarm code

/-- CIPHER_ALARM of a source code, for cluster `k` when it is an array's. -/
def execCipherAlarm (code : Fin 17) (k : Fin 12) (s : State) : Host.Outcome State Fault Refusal := .next (s.alarm code.val k.val)

/-- Ticks between the start-up tests of a halted generator (R357). -/
def retestTicks : Nat := 977

/-- RNG_RETEST: the halted generator repeats its start-up tests, every 977 ticks; when they pass, key use resumes at the next seam (R357). -/
def execRngRetest (pass : Bool) (s : State) : Host.Outcome State Fault Refusal :=
  .next (if s.flag Reg.CIP_STATUS Fd.CIP_STATUS_HALT && decide (s.cip.testTick + retestTicks ≤ s.now) then
      { s with cip := { s.cip with resuming := s.cip.resuming || pass, testTick := s.now } }
    else s)

/-- CIP_ALARM_CLEAR: each latched bit written as 1 is cleared unless its source is among `present`; ZEROISED ends once no bit is
latched (R357); a cluster that waits for its array's alarm is checked (17 R511). -/
def State.alarmClear (w present : Word) (s : State) : State :=
  let s := s.wrReg Reg.CIP_ALARM (s.rd Reg.CIP_ALARM &&& ~~~(w &&& ~~~present))
  let s := (clusters.filter fun k => s.cluState k == cluWaitClear && !natBit (s.fld Reg.CIP_ALARM Fd.CIP_ALARM_ARRAY) k).foldl (fun (s : State) k => s.cluWant k cluChecking 0) s
  if s.noAlarm then s.setFld Reg.CIP_STATUS Fd.CIP_STATUS_ZEROISED 0 else s

def execCipAlarmClear (w present : Word) (s : State) : Host.Outcome State Fault Refusal :=
  .next (s.hostWrite Reg.CIP_ALARM (State.alarmClear w present))

/-- A count of failures is reported at most once per second (CHK_INTEGRITY). -/
def State.integrity (s : State) : State :=
  let due := match s.cip.integEv with | none => true | some t => decide (t + ticksPerSecond ≤ s.now)
  if due && (s.cip.bindFails != 0 || s.cip.guardFails != 0) then
    let b := s.cip.bindFails
    let g := s.cip.guardFails
    ({ s with cip := { s.cip with bindFails := 0, guardFails := 0, integEv := some s.now } }).raise Ev.CHK_INTEGRITY b g 0
  else s

/-- The cipher's part of a seam: key changes, alarms and zeroisation reported, the halt, the pass counts of the new tick. -/
def State.cipSeam (s : State) : State :=
  let cs := s.cip.changes
  let as_ := s.cip.alarms
  let z := s.cip.zeroed
  let h := s.cip.halting
  let r := s.cip.resuming
  let s := { s with cip := { s.cip with changes := [], alarms := [], zeroed := none, halting := false, resuming := false, passes := [] } }
  let s := cs.foldl State.keyApply s
  let s := as_.foldl (fun s (a : Nat × Nat) => s.raise Ev.CIP_ALARM a.1 a.2 0) s
  let s := match z with | some (n, m) => s.raise Ev.CIP_ZEROISED n m 0 | none => s
  let s := if h then (s.setFld Reg.CIP_STATUS Fd.CIP_STATUS_HALT 1).raise Ev.CIP_HALT 1 0 0 else s
  let s := if r then (s.setFld Reg.CIP_STATUS Fd.CIP_STATUS_HALT 0).raise Ev.CIP_HALT 0 0 0 else s
  s.integrity.keySnap

/-! ### Software checks (R359) -/

/-- CHK_SW_START: a write of CHK_SW_CTL[n] with START; engine 1 is read-only from BAR0; a START while BUSY is ignored. -/
def State.chkStart (n : Nat) (w : Word) (s : State) : State :=
  if n = 1 then s
  else
    let s := s.regWrite (Reg.CHK_SW_CTL 0) w
    let r := Reg.CHK_SW_STATUS 0
    (if Fd.CHK_SW_CTL_START.get w == 0 || s.flag r Fd.CHK_SW_STATUS_BUSY then s
      else
        let run : SwRun :=
          { poly := s.fld (Reg.CHK_SW_CTL 0) Fd.CHK_SW_CTL_POLY, cont := s.flag (Reg.CHK_SW_CTL 0) Fd.CHK_SW_CTL_CONTINUE
            addr := hiLo (s.rd (Reg.CHK_SW_ADDR_HI 0)).toNat (s.rd (Reg.CHK_SW_ADDR_LO 0)).toNat
            len := s.fld (Reg.CHK_SW_LEN 0) Fd.CHK_SW_LEN_LEN }
        ({ s with cip := { s.cip with sw := Tab.wr (fun _ => none) s.cip.sw 0 (some run) } }).setFld r Fd.CHK_SW_STATUS_BUSY 1)

def execChkSwStart (n : Fin 2) (w : Word) (s : State) : Host.Outcome State Fault Refusal :=
  .next (s.hostWrite (Reg.CHK_SW_CTL n.val) (State.chkStart n.val w))

/-- The result of a software check over `data`, continued from `prev` with CONTINUE. -/
def SwRun.result (r : SwRun) (prev : Nat) (data : List Byte) : Nat :=
  let p := if r.cont then prev else 0
  if r.poly = 0 then (crc32cFrom (BitVec.ofNat 32 p) data).toNat
  else if r.poly = 1 then (crc16From (BitVec.ofNat 16 p) data).toNat
  else (crc64From (BitVec.ofNat 64 p) data).toNat

/-- CHK_SW_DONE: the check of engine `n` ends, with the bytes that its read returned (`ok` false: it failed). -/
def execChkSwDone (n : Fin 2) (ok : Bool) (data : List Byte) (s : State) : Host.Outcome State Fault Refusal :=
  match Tab.rd (fun _ => none) s.cip.sw n.val with
  | none => .next s
  | some r =>
    let st := Reg.CHK_SW_STATUS n.val
    let bad := decide (r.len = 0) || decide (16777216 < r.len)
    let code := if bad then St.CHK_LEN else if ok then 0 else St.CHK_DMA
    let s := { s with cip := { s.cip with sw := Tab.wr (fun _ => none) s.cip.sw n.val none } }
    let s := ((s.setFld st Fd.CHK_SW_STATUS_BUSY 0).setFld st Fd.CHK_SW_STATUS_DONE 1).setFld st Fd.CHK_SW_STATUS_STATUS code
    .next (if code = 0 then
        let v := r.result (hiLo (s.rd (Reg.CHK_SW_RES_HI n.val)).toNat (s.rd (Reg.CHK_SW_RES_LO n.val)).toNat) (data.take r.len)
        (s.wrReg (Reg.CHK_SW_RES_LO n.val) (BitVec.ofNat 32 v)).wrReg (Reg.CHK_SW_RES_HI n.val) (BitVec.ofNat 32 (v / 4294967296))
      else s)

/-! ### Alive counters (R360) -/

/-- A message with counter `c` is received on stream `n`: accepted, a repeat, or a gap, which is reported once until GAP is cleared. -/
def State.alive (s : State) (n c : Nat) : Bool × State :=
  let r := Reg.CHK_ALIVE n
  let e := s.fld r Fd.CHK_ALIVE_EXPECT
  let d := (c + 65536 - e) % 65536
  if d = 0 then (true, s.setFld r Fd.CHK_ALIVE_EXPECT ((e + 1) % 65536))
  else if 0x8000 ≤ d then (false, s.satFld Reg.CHK_ALIVE_CNT Fd.CHK_ALIVE_CNT_REPEATS 1)
  else
    let s := s.satFld Reg.CHK_ALIVE_CNT Fd.CHK_ALIVE_CNT_GAPS 1
    if s.flag r Fd.CHK_ALIVE_GAP then (false, s) else (false, (s.setFld r Fd.CHK_ALIVE_GAP 1).raise Ev.CHK_ALIVE_GAP n e c)

end Sys2Proof.Machine
end

