-- ==== Sys2Proof/Machine/Aen.lean ====
section
/-!
DEFINITION. Asynchronous events (08 R256, R257): which controllers an event of Table 8-11 applies to, and raising it. Delivery
is ADMIN_STEP's.
-/

namespace Sys2Proof.Machine

open Sys2Proof

/-- The value of a feature of a controller when none has been set. Asynchronous Event Configuration: every event of Table 8-11 is
enabled; Temperature Threshold: the highest; every other feature: zero. -/
def featDefault (f : Nat) : Nat := if f = 0x0B then 0x8000031F else if f = 0x04 then 0xFFFF else 0

/-- Feature `f` of a controller. -/
def Ctrl.feat (c : Ctrl) (f : Nat) : Nat := Tab.rd featDefault c.feats f

/-- The bit of Asynchronous Event Configuration that enables an event (NVMe base specification); none for an event that it does
not cover. -/
def aecBit (typ info : Nat) : Option Nat :=
  if typ = 2 then (if info = 0 then some 8 else if info = 1 then some 9 else if info = 0xF0 then some 31 else none)
  else if typ = 1 then (if info = 0 then some 2 else some 1)
  else none

/-- An event is raised for controller `k`, unless its configuration leaves it out; it is delivered after the seam. -/
def State.aev (s : State) (e : Aev) (k : Nat) : State :=
  let c := s.ctrl k
  let on := match aecBit e.typ e.info with | some b => natBit (c.feat 0x0B) b | none => true
  if c.live && on then { s with cmd := { s.cmd with aevDue := s.cmd.aevDue ++ [(k, e)] } } else s

/-- The NVM controllers of the hosts that satisfy `p`. -/
def State.nvmCtrls (s : State) (p : Nat → Bool) : List Nat := s.liveCtrls.filter fun k => !(s.ctrl k).disc && p (ctrlHost k)

/-- Hosts with a channel of volume `v`. -/
def State.hostHas (s : State) (v h : Nat) : Bool := (s.findChan h (v + 1)).isSome

/-- Namespace Attribute Changed for volume `v` to the NVM controllers of the hosts that satisfy `p`: it joins their changed lists. -/
def State.nsChangedTo (s : State) (v : Nat) (p : Nat → Bool) : State :=
  (s.nvmCtrls p).foldl
    (fun s k => (s.updCtrl k fun c => { c with changed := if c.changed.contains (v + 1) then c.changed else c.changed ++ [v + 1] }).aev
      { typ := 2, info := 0, page := 0x04 } k) s

/-- The same for every host with a channel of the volume. -/
def State.nsChanged (s : State) (v : Nat) : State := s.nsChangedTo v (s.hostHas v)

/-- NVM Subsystem Reliability for volume `v`. -/
def State.reliability (s : State) (v : Nat) : State := (s.nvmCtrls (s.hostHas v)).foldl (State.aev · { typ := 1, info := 0, page := 0x02 } ·) s

/-- Firmware Activation Starting, for every NVM controller. -/
def State.fwStarting (s : State) : State := (s.nvmCtrls fun _ => true).foldl (State.aev · { typ := 2, info := 1, page := 0x03 } ·) s

/-- Discovery Log Page Change, for every discovery controller. -/
def State.discoveryChanged (s : State) : State :=
  let s := { s with cmd := { s.cmd with discGen := s.cmd.discGen + 1 } }
  (s.liveCtrls.filter fun k => (s.ctrl k).disc).foldl (State.aev · { typ := 2, info := 0xF0, page := 0x70 } ·) s

end Sys2Proof.Machine
end

