-- ==== Sys2Proof/Machine/Drive.lean ====
section
/-!
DEFINITION. The drive fabric (12): bays and their bring-up (R366 to R369), queues, tags and the DMA windows (R370 to R374),
containment and recovery (R376, R377), and drive errors (R378, R379).
-/

namespace Sys2Proof.Machine

open Sys2Proof

/-! ### Bays -/

def State.bay (s : State) (b : Nat) : Bay := Tab.rd (fun _ => Bay.reset) s.drv.bays b
def State.setBay (s : State) (b : Nat) (x : Bay) : State :=
  { s with drv := { s.drv with bays := Tab.wr (fun _ => Bay.reset) s.drv.bays b x } }
def State.updBay (s : State) (b : Nat) (f : Bay → Bay) : State := s.setBay b (f (s.bay b))

/-- States of Table 12-2 as DRV_BAY_STATUS.STATE codes them. -/
def dbAbsent : Nat := 0
def dbLinking : Nat := 1
def dbInit : Nat := 2
def dbOnline : Nat := 3
def dbRecovering : Nat := 4
def dbFailed : Nat := 5

def State.bayState (s : State) (b : Nat) : Nat := s.fld (Reg.DRV_BAY_STATUS b) Fd.DRV_BAY_STATUS_STATE
def State.setBayState (s : State) (b st : Nat) : State := s.setFld (Reg.DRV_BAY_STATUS b) Fd.DRV_BAY_STATUS_STATE st
def State.online (s : State) (b : Nat) : Bool := s.bayState b == dbOnline
/-- LINKING, INIT, ONLINE or RECOVERING. -/
def State.bayLive (s : State) (b : Nat) : Bool := decide (1 ≤ s.bayState b) && decide (s.bayState b ≤ 4)

/-- Bays that exist under DRV_CFG.MODE (R363). -/
def State.bayCount (s : State) : Nat := if s.fld Reg.DRV_CFG Fd.DRV_CFG_MODE = 0 then 64 else 128
def State.fullWidth (s : State) : Nat := modeWidth (s.fld Reg.DRV_CFG Fd.DRV_CFG_MODE)

def State.bayEnabled (s : State) (b : Nat) : Bool := s.flag (Reg.DRV_BAY_CFG b) Fd.DRV_BAY_CFG_ENABLE && decide (b < s.bayCount)

/-- A change of state is due at the seam; removal and failure stand against the others. -/
def BayNext.rank : BayNext → Nat
  | .none => 0 | .linking => 1 | .init => 2 | .online => 3 | .recovering _ => 4 | .failed _ => 5 | .absent _ => 6
def State.bayWant (s : State) (b : Nat) (n : BayNext) : State :=
  s.updBay b fun x => if x.next.rank ≤ n.rank then { x with next := n } else x

/-! ### Commands and tags (R372 to R374) -/

def State.cmd? (s : State) (t : Nat) : Option DrvCmd := Tab.rd (fun _ => none) s.drv.cmds t
def State.setCmd (s : State) (t : Nat) (c : Option DrvCmd) : State :=
  { s with drv := { s.drv with cmds := Tab.wr (fun _ => none) s.drv.cmds t c } }
def State.freeTag (s : State) (t : Nat) : State := s.setCmd t none

/-- The commands, as tag and record, that satisfy `p`. -/
def State.cmdsThat (s : State) (p : DrvCmd → Bool) : List (Nat × DrvCmd) :=
  s.drv.cmds.filterMap fun (e : Nat × Option DrvCmd) => match e.2 with
    | some c => if p c then some (e.1, c) else none
    | none => none

/-- Outstanding commands of bay `b` (DRV_BAY_OUT), and those of maintenance. -/
def State.outstanding (s : State) (b : Nat) : List (Nat × DrvCmd) := s.cmdsThat fun c => c.bay == b && c.st == 0
def State.mntOut (s : State) (b : Nat) : Nat := ((s.outstanding b).filter fun (e : Nat × DrvCmd) => e.2.maint).length

/-- The queue on which cluster `k` submits to bay `b` (R370). -/
def State.drvQueue (s : State) (b k : Nat) (maint : Bool) : Nat :=
  let h := s.fld (Reg.DRV_BAY_STATUS b) Fd.DRV_BAY_STATUS_HOSTQ
  let m := s.fld (Reg.DRV_BAY_STATUS b) Fd.DRV_BAY_STATUS_MNTQ
  if maint then h + 1 + k % or1 m else 1 + k % or1 h

/-- The most units of one command (R373). -/
def State.unitsMax (s : State) (b : Nat) : Nat :=
  let m := (s.bay b).ident.mdts
  if m = 0 then 256 else min 256 (m / unitBytes)

/-- Windows of Table 12-4. -/
def queueWindow (b : Nat) : Nat := 0x1000000000000 + b * 0x800000
def dataWindow (t : Nat) : Nat := 0x10000000000000 + t * 0x200000
def prpWindow (t : Nat) : Nat := 0x20000000000000 + t * 0x1000

/-- The submission entry of a command (NVMe Read and Write; R372). -/
def DrvCmd.entry (c : DrvCmd) (t : Nat) : List Byte :=
  leBytes 1 (if c.write then 1 else 2) ++ zeros 1 ++ leBytes 2 t ++ leBytes 4 1 ++ zeros 16 ++ leBytes 8 (dataWindow t)
    ++ leBytes 8 (prpWindow t) ++ leBytes 8 c.lba ++ leBytes 4 (c.units - 1) ++ zeros 12

/-- What DRV_SUBMIT finds for one command (R371, R373, R376). -/
inductive SubmitRes where
  | ok (s : State)
  | noTag | noSlot | noMnt

/-- Status of a command ended by containment (R376). -/
def drvPath : Nat := 0xFFFF

/-- The DRV_CPL entry of a latched completion (15 Table 15-7): its tag, the latch cycle (which the command does not tell: 0), and its
status, 0xFFFF for DRV_PATH. -/
def State.drvEntry (s : State) (t status crd : Nat) (dnr : Bool) : State :=
  s.entry 1 (leBytes 2 t ++ zeros 2 ++ leBytes 2 (if status = drvPath then drvPath else status % 2048 + 2048 * crd + 16384 * b2n dnr) ++ zeros 4)

/-- One drive command is submitted: a free tag and a free submission entry are taken. On a bay that is not ONLINE the command ends
with DRV_PATH at once, without an entry; a standby writes the entry and its root port discards the doorbell (R375);
after a takeover a write waits for the preempt on its bay (15 R460). The command is an event of the pair's digest (15 R451). -/
def State.submit (s : State) (c : DrvCmd) : SubmitRes :=
  let t := Tab.lowest s.drv.cmds
  if 65536 ≤ t then .noTag
  else if !s.online c.bay ∧ ¬ s.isStandby then
    .ok ((s.drvEntry t drvPath 0 false).setCmd t (some { c with st := 1, status := drvPath, tick := s.now, latched := s.now }))
  else
    let q := s.drvQueue c.bay c.cluster c.maint
    let x := s.bay c.bay
    let depth := or1 x.ident.depth
    if c.write && s.pair.preempts.contains c.bay then .noSlot
    else if c.maint ∧ s.fld1 Reg.DRV_CFG Fd.DRV_CFG_MNT_DEPTH ≤ s.mntOut c.bay then .noMnt
    else if depth ≤ ((s.outstanding c.bay).filter fun (e : Nat × DrvCmd) => e.2.queue == q).length + 1 then .noSlot
    else
      let n := Tab.rd (fun _ => 0) x.tails q
      let c := { c with queue := q, tick := s.now, slot := n % depth }
      let s := (s.setCmd t (some c)).updBay c.bay fun x => { x with tails := Tab.wr (fun _ => 0) x.tails q (n + 1) }
      let s := if s.isStandby then s else s.updBay c.bay fun x => { x with rung := x.tails }
      let s := (s.acc 11 c.bay (b2n c.write) 1).acc 11 c.bay (2 + b2n c.write) (c.units * 4160)
      .ok ((s.digest 2 [c.bay, t, if c.write then 1 else 2, c.lba, c.units]).emitNet (.drvSubmit c.bay q (n % depth) (c.entry t)))

/-- The items of `r` that wait for an event are ready from the next tick. -/
def State.wakeRef (s : State) (r : Ref) : State :=
  s.wakeItems (fun it => it.ref == r) fun it => { it with wait := .none, ready := s.now + 1, input := true }

/-- A command's completion is latched for its cluster (R374). -/
def State.latch (s : State) (t : Nat) (c : DrvCmd) (status crd : Nat) (dnr : Bool) : State :=
  let s := s.drvEntry t status crd dnr
  (s.setCmd t (some { c with st := 1, status := status, crd := crd, dnr := dnr, latched := s.now })).wakeRef c.ref

/-- The outstanding I/O commands of a bay end with DRV_PATH (R376); a standby takes the ends of its commands from the record (15 R446). -/
def State.endAll (s : State) (b : Nat) : State :=
  if s.isStandby then s
  else (s.outstanding b).foldl (fun s (e : Nat × DrvCmd) => (s.cntDrv 1 1).latch e.1 e.2 drvPath 0 false) s

/-! ### Containment (R376) -/

/-- The root port disables the link and discards the bay's later accesses; PERST is asserted until step 4 of the next bring-up. -/
def State.cutLink (s : State) (b : Nat) : State :=
  let r := Reg.DRV_BAY_STATUS b
  let s := (((s.setFld r Fd.DRV_BAY_STATUS_RATE 0).setFld r Fd.DRV_BAY_STATUS_WIDTH 0).setFld r Fd.DRV_BAY_STATUS_FLIT 0).setFld r
    Fd.DRV_BAY_STATUS_DEGRADED 0
  (s.senderReset 11 b).updBay b fun x => { x with perst := true, step := if x.pg then min x.step 3 else 0, contained := some s.now, fails := 0, retrying := false }

/-- Containment triggers unless it holds already. -/
def State.containNow (s : State) (b : Nat) : State := if (s.bay b).contained = none then (s.cntDrv 6 1).cutLink b else s

/-- Containment of an ONLINE bay with a cause of Table 12-7; the bay recovers from the next seam on. -/
def State.contain (s : State) (b cause : Nat) : State :=
  if s.online b ∧ (s.bay b).contained = none then (s.containNow b).bayWant b (.recovering cause) else s

/-- CONTAINMENT_TRIGGER of bay `b`: 1 link down, 2 fatal status, 3 protocol error, 4 timeout, 5 DMA violation, 6 rate or width; `ref` when
the link fell because the reference clock of its drive group was lost (17 R500: two lanes or four per bay, 32 lanes per group). -/
def execContainmentTrigger (b : Fin 128) (cause : Fin 7) (ref : Bool) (s : State) : Host.Outcome State Fault Refusal :=
  let c := cause.val
  let s := if ref && c == 1 then s.clockSet 5 (b.val * s.fullWidth / 32) false else s
  .next (if c = 0 then s
    else if c = 5 ∧ s.online b.val then ((s.contain b.val 5).cntDrv 10 1).bayWant b.val (.failed 6)
    else s.contain b.val c)

/-- A time in ms has passed since tick `t`. -/
def State.msSince (s : State) (t ms : Nat) : Bool := decide (ms * 1000000 ≤ (s.now - t) * 1024)

/-- CONTAINMENT_RELEASE: 10 ms after the trigger, bring-up reruns from step 4, or from step 3 when bay power is being retried (R377);
PERST is released with it when power-good has held for the 100 ms of step 4 (Table 12-6). -/
def execContainmentRelease (b : Fin 128) (s : State) : Host.Outcome State Fault Refusal :=
  .next (if s.bayState b.val = dbRecovering ∧ ((s.bay b.val).contained.any fun t => s.msSince t 10) = true then
      let go := (s.bay b.val).pg && !(s.bay b.val).retryPg && s.msSince (s.bay b.val).pgTick 100
      s.updBay b.val fun x => { x with contained := none, perst := !go, step := if go then 4 else if x.pg then 3 else 0 }
    else s)

/-! ### Training and bring-up (R366 to R369) -/

/-- A training attempt fails: PERST is asserted for a retry, or the attempts are exhausted. -/
def State.trainFail (s : State) (b : Nat) : State :=
  if (s.bayState b = dbLinking ∨ s.bayState b = dbRecovering) ∧ (s.bay b).step = 4 then
    let n := (s.bay b).fails + 1
    let s := (s.cntDrv 9 1).updBay b fun x => { x with fails := n, perst := true, retrying := true, step := 3 }
    if s.fld Reg.DRV_RECOVER Fd.DRV_RECOVER_LINK_RETRIES < n then s.bayWant b (.failed 2) else s
  else s

/-- BAY_TRAINING_FAIL. -/
def execBayTrainingFail (b : Fin 128) (s : State) : Host.Outcome State Fault Refusal := .next (s.trainFail b.val)

/-- PERST_RETRY_RELEASE: after 10 ms, PERST is released and training restarts at step 4. -/
def execPerstRetryRelease (b : Fin 128) (s : State) : Host.Outcome State Fault Refusal :=
  .next (if (s.bay b.val).retrying && s.bayLive b.val then
      s.updBay b.val fun x => { x with perst := false, retrying := false, step := 4 }
    else s)

/-- BAY_PERST_RELEASE: at least 100 ms after power-good, PERST is released and training begins (step 4). -/
def execBayPerstRelease (b : Fin 128) (s : State) : Host.Outcome State Fault Refusal :=
  let x := s.bay b.val
  .next (if (s.bayState b.val = dbLinking ∨ s.bayState b.val = dbRecovering) ∧ x.step = 3 ∧ x.pg ∧ s.msSince x.pgTick 100 ∧ !x.retrying ∧ x.contained = none then
      s.updBay b.val fun x => { x with perst := false, step := 4 }
    else s)

/-- The rate and width of a link are at or above the limits, and whether they are below MAX_GTS or the full width (R366). -/
def State.linkOk (s : State) (b rate width : Nat) : Bool :=
  decide (s.fld (Reg.DRV_BAY_CFG b) Fd.DRV_BAY_CFG_MIN_GTS ≤ rate) && decide (s.fld (Reg.DRV_BAY_CFG b) Fd.DRV_BAY_CFG_MIN_WIDTH ≤ width)
def State.linkBelow (s : State) (b rate width : Nat) : Bool :=
  decide (rate < s.fld (Reg.DRV_BAY_CFG b) Fd.DRV_BAY_CFG_MAX_GTS) || decide (width < s.fullWidth)

/-- A rate code and a width at which a root port can come up (R363, R364, R366): an operating rate up to MAX_GTS, a width up to that of
R363, and flit mode at 64 GT/s. -/
def State.linkCan (s : State) (b rate width : Nat) (flit : Bool) : Bool :=
  decide (4 ≤ rate) && decide (rate ≤ s.fld (Reg.DRV_BAY_CFG b) Fd.DRV_BAY_CFG_MAX_GTS) && [1, 2, 4].contains width
    && decide (width ≤ s.fullWidth) && (flit || rate != 6)

/-- DRV_BAY_STATUS takes the link's rate, width and degradation; a degraded link is reported. -/
def State.linkSet (s : State) (b rate width : Nat) : State :=
  let r := Reg.DRV_BAY_STATUS b
  let deg := s.linkBelow b rate width
  let s := ((s.setFld r Fd.DRV_BAY_STATUS_RATE rate).setFld r Fd.DRV_BAY_STATUS_WIDTH width).setFld r Fd.DRV_BAY_STATUS_DEGRADED (b2n deg)
  if deg then s.raise Ev.DRV_LINK_DEGRADED b (rate * 16 + width) 0 else s

/-- BAY_LINK_UP at a rate code and a width that the root port supports: below a limit it is a failed training attempt. -/
def execBayLinkUp (b : Fin 128) (rate width : Fin 16) (flit : Bool) (s : State) : Host.Outcome State Fault Refusal :=
  .next (if (s.bayState b.val = dbLinking ∨ s.bayState b.val = dbRecovering) ∧ (s.bay b.val).step = 4 then
      if !s.linkCan b.val rate.val width.val flit then s
      else if s.linkOk b.val rate.val width.val then
        ((s.linkSet b.val rate.val width.val).setFld (Reg.DRV_BAY_STATUS b.val) Fd.DRV_BAY_STATUS_FLIT (b2n flit)).updBay b.val fun x =>
          { x with step := 5, fails := 0 }
      else s.trainFail b.val
    else s)

/-- LINK_RATE_CHANGE: a link recovery changed rate or width in service; one that keeps both is only counted (R366). -/
def execLinkRateChange (b : Fin 128) (rate width : Fin 16) (s : State) : Host.Outcome State Fault Refusal :=
  let r := Reg.DRV_BAY_STATUS b.val
  .next (if (s.bay b.val).step < 5 ∨ !s.bayLive b.val ∨ !s.linkCan b.val rate.val width.val (s.flag r Fd.DRV_BAY_STATUS_FLIT) then s
    else
      let s := s.cntDrv 9 1
      if s.fld r Fd.DRV_BAY_STATUS_RATE = rate.val ∧ s.fld r Fd.DRV_BAY_STATUS_WIDTH = width.val then s
      else if s.linkOk b.val rate.val width.val then s.linkSet b.val rate.val width.val
      else s.contain b.val 6)

/-- FIRST_CONFIG_REQUEST (step 6). -/
def execFirstConfigRequest (b : Fin 128) (s : State) : Host.Outcome State Fault Refusal :=
  .next (if s.bayLive b.val && (s.bay b.val).step == 5 then s.updBay b.val fun x => { x with step := 6 } else s)

/-- BAY_CONFIG_COMPLETE: steps 7 and 8; `capTo` is the drive's CAP.TO. A LINKING bay enters INIT. -/
def execBayConfigComplete (b : Fin 128) (capTo : Fin 256) (s : State) : Host.Outcome State Fault Refusal :=
  .next (if s.fwRuns && s.bayLive b.val && (s.bay b.val).step == 6 then
      let s := s.updBay b.val fun x => { x with step := 8, capTo := capTo.val }
      if s.bayState b.val = dbLinking then s.bayWant b.val .init else s
    else s)

/-- BAY_CONTROLLER_READY (step 9). -/
def execBayControllerReady (b : Fin 128) (s : State) : Host.Outcome State Fault Refusal :=
  .next (if s.fwRuns && s.bayLive b.val && (s.bay b.val).step == 8 then s.updBay b.val fun x => { x with step := 9 } else s)

/-- BAY_INIT_COMPLETE: step 10. The drive's answers meet R369 and the bay becomes ONLINE, or bring-up ends with reason 9. -/
def execBayInitComplete (b : Fin 128) (r : DriveReport) (s : State) : Host.Outcome State Fault Refusal :=
  let st := s.bayState b.val
  .next (if s.fwRuns && (st == dbInit || st == dbRecovering || (s.bay b.val).next == .init) && (s.bay b.val).step == 9 then
      let ok := r.nvme14 && r.ns1 && (!s.straps.pairEn || (r.shared && r.resv)) && r.format && decide (2 ≤ r.pairs)
        && (r.mdts == 0 || decide (65536 ≤ r.mdts)) && (!r.vwc || r.vwcOff)
      if !ok then s.bayWant b.val (.failed 9)
      else
        let reg := Reg.DRV_BAY_STATUS b.val
        let h := min 12 ((r.pairs + 1) / 2)
        let s := (s.setFld reg Fd.DRV_BAY_STATUS_HOSTQ h).setFld reg Fd.DRV_BAY_STATUS_MNTQ (min 12 (r.pairs - h))
        let s := s.setFld reg Fd.DRV_BAY_STATUS_VWC_OFF (b2n r.vwc)
        let id : DrvIdent := { bytes := r.capacity, fmt := r.format, mdts := r.mdts, depth := min 1024 (r.mqes + 1), crdt := r.crdt }
        (s.updBay b.val fun x => { x with step := 10, ident := id, posted := [], tails := [], rung := [] }).bayWant b.val .online
    else s)

/-- BRINGUP_STEP_TIMEOUT: a step exceeds its maximum. A link that does not come up is a failed training attempt; later steps fail
the bay with reason 9; a RECOVERING bay runs on to RECOVER_MAX. -/
def execBringupStepTimeout (b : Fin 128) (s : State) : Host.Outcome State Fault Refusal :=
  .next (if s.bayState b.val = dbInit ∨ (s.bayState b.val = dbLinking ∧ 5 ≤ (s.bay b.val).step) then s.bayWant b.val (.failed 9)
    else if s.bayState b.val = dbLinking then s.trainFail b.val
    else s)

/-- RECOVER_TIMEOUT: RECOVER_MAX has elapsed. -/
def execRecoverTimeout (b : Fin 128) (s : State) : Host.Outcome State Fault Refusal :=
  .next (if s.bayState b.val = dbRecovering ∧ (s.bay b.val).next ≠ .online
      ∧ s.msSince (s.bay b.val).recStart (s.fld Reg.DRV_RECOVER Fd.DRV_RECOVER_RECOVER_MAX) = true then s.bayWant b.val (.failed 3) else s)

/-! ### Completions and errors (R374, R378) -/

/-- A drive status counts and acts by Table 12-5. -/
def State.driveStatus (s : State) (c : DrvCmd) (status : Nat) (dnr : Bool) : State :=
  if status = 0 then s
  else if c.write then
    if dnr then (s.cntDrv 3 1).bayWant c.bay (.failed 5) else s.cntDrv 2 1
  else if status / 256 = 2 then ((s.cntDrv 0 1).acc 11 c.bay 4 1).satFld (Reg.DRV_BAY_ERR c.bay) Fd.DRV_BAY_ERR_MEDIA_ERR 1
  else s.cntDrv 1 1

/-- CPL_CYCLES (18 Table 18-1): core cycles from the doorbell to the latched completion; the cycles within their ticks are no state of the
model and are free values. -/
def State.cplCycles (s : State) (b : Nat) (c : DrvCmd) : State :=
  let (x, s) := s.draw
  s.acc 11 b 7 ((s.now - c.tick) * 2048 + x / 2048 % 2048 - x % 2048)

/-- DRIVE_COMPLETION: a completion entry written by bay `b` for queue `q` with its CID and phase tag; one that does not fit is a
protocol error. -/
def State.driveCompletion (s : State) (b q cid : Nat) (phase : Bool) (status crd : Nat) (dnr : Bool) : State :=
  let x := s.bay b
  if x.contained ≠ none ∨ x.step < 8 then s
  else if q = 0 then s
  else
    let n := Tab.rd (fun _ => 0) x.posted q
    let want := n / or1 x.ident.depth % 2 == 0
    match s.cmd? cid with
    | some c =>
      if c.st = 0 ∧ c.bay = b ∧ c.queue = q ∧ phase = want then
        let s := s.updBay b fun x => { x with posted := Tab.wr (fun _ => 0) x.posted q (n + 1) }
        ((s.driveStatus c status dnr).cplCycles b c).latch cid c status crd dnr
      else (s.cntDrv 11 1).contain b 3
    | none => (s.cntDrv 11 1).contain b 3

def execDriveCompletion (b : Fin 128) (q : Fin 64) (cid : Fin 65536) (phase : Bool) (sct : Fin 8) (sc : Fin 256) (crd : Fin 4) (dnr : Bool)
    (s : State) : Host.Outcome State Fault Refusal :=
  .next (s.driveCompletion b.val q.val cid.val phase (sct.val * 256 + sc.val) crd.val dnr)

/-- DRIVE_COMMAND_TIMEOUT of a tag: CMD_TO has passed since its doorbell, and an Abort is sent. -/
def execDriveCommandTimeout (t : Fin 65536) (s : State) : Host.Outcome State Fault Refusal :=
  .next (match s.cmd? t.val with
    | some c =>
      if c.st = 0 ∧ c.abort = none ∧ s.msSince c.tick (s.fld1 Reg.DRV_TIMERS Fd.DRV_TIMERS_CMD_TO) then
        let s := (((s.cntDrv 4 1).cntDrv 5 1).acc 11 c.bay 5 1).satFld (Reg.DRV_BAY_ERR c.bay) Fd.DRV_BAY_ERR_TIMEOUTS 1
        (s.setCmd t.val (some { c with abort := some s.now })).emitNet (.drvAbort c.bay t.val)
      else s
    | none => s)

/-- DRIVE_ABORT_TIMEOUT of a tag: the command has not ended ABORT_TO after its Abort. -/
def execDriveAbortTimeout (t : Fin 65536) (s : State) : Host.Outcome State Fault Refusal :=
  .next (match s.cmd? t.val with
    | some c =>
      (match c.abort with
       | some a => if c.st = 0 ∧ s.msSince a (s.fld1 Reg.DRV_TIMERS Fd.DRV_TIMERS_ABORT_TO) then s.contain c.bay 4 else s
       | none => s)
    | none => s)

/-- The bytes of a submission queue area of bay `b` that a drive reads: the entry that holds `addr`, as far as it is outstanding. -/
def State.sqBytes (s : State) (b off len : Nat) : List Byte :=
  let q := off / 0x20000
  let i := off % 0x20000 / 64
  match (s.outstanding b).find? fun (e : Nat × DrvCmd) => e.2.queue == q && e.2.slot == i with
  | some (t, c) => sliceB (c.entry t) (off % 64) len
  | none => []

/-- DRIVE_DMA_ACCESS: a memory access of bay `b` at `addr`, a write of `data` or a read of `len` bytes, translated through its
window or refused as a DMA violation (R372). -/
def State.driveDma (s : State) (b addr : Nat) (write : Bool) (data : List Byte) (len : Nat) : State :=
  let n := if write then data.length else len
  let violation := (((s.emit (.drvRefused b addr)).contain b 5).cntDrv 10 1).bayWant b (if s.online b then .failed 6 else (s.bay b).next)
  if (s.bay b).contained ≠ none ∨ (s.bay b).step < 5 then s
  else if queueWindow b ≤ addr ∧ addr + n ≤ queueWindow b + 0x800000 then
    let off := addr - queueWindow b
    if write then (if 0x10000 ≤ off % 0x20000 then s else violation)
    else if off % 0x20000 < 0x10000 then s.emit (.drvRead b addr (s.sqBytes b off len)) else violation
  else if 0x20000000000000 ≤ addr then
    let t := (addr - 0x20000000000000) / 0x1000
    match s.cmd? t with
    | some c =>
      if c.bay = b ∧ c.st = 0 ∧ write = false ∧ addr % 0x1000 + n ≤ 0x1000 then
        let list := (List.range 512).flatMap fun i => leBytes 8 (dataWindow t + (i + 1) * 4096)
        s.emit (.drvRead b addr (sliceB list (addr % 0x1000) n))
      else violation
    | none => violation
  else if 0x10000000000000 ≤ addr then
    let t := (addr - 0x10000000000000) / 0x200000
    let off := (addr - 0x10000000000000) % 0x200000
    match s.cmd? t with
    | some c =>
      if c.bay = b ∧ c.st = 0 ∧ write = !c.write ∧ off + n ≤ c.units * unitBytes then
        if write then s.setCmd t (some { c with buf := c.buf.take off ++ (List.range (off - c.buf.length)).map (fun i => Config.staleByte (c.buf.length + i)) ++ data ++ c.buf.drop (off + n) })
        else s.emit (.drvRead b addr (sliceB c.buf off n))
      else violation
    | none => violation
  else violation

def execDriveDmaAccess (b : Fin 128) (addr : BitVec 64) (write : Bool) (data : List Byte) (len : Fin 4097) (s : State) :
    Host.Outcome State Fault Refusal := .next (s.driveDma b.val addr.toNat write data len.val)

/-- WRITE_RETRY_PERMITTED: the CRD delays of pool `p` that have ended permit their writes to be retried (Table 12-5). -/
def State.retryPermitted (s : State) (p : Nat) : State :=
  s.updPool p fun P => { P with dirty := P.dirty.map fun e => if e.after ≤ s.now then { e with after := 0 } else e }

def execWriteRetryPermitted (p : Fin 16) (s : State) : Host.Outcome State Fault Refusal := .next (s.retryPermitted p.val)

/-- SMART_POLL of bay `b`: firmware reads the Critical Warning byte and the composite temperature in K (R369, Table 12-5), or, on
a bay that is not ONLINE, the NVMe-MI temperature over the SMBus. -/
def execSmartPoll (b : Fin 128) (warning : BitVec 8) (temp : Fin 65536) (s : State) : Host.Outcome State Fault Refusal :=
  let w := warning.toNat
  .next (if !s.fwRuns then s
    else if s.online b.val then
      let was := (s.bay b.val).warning
      let s := s.updBay b.val fun x => { x with warning := w, temp := temp.val, tempTick := some s.now }
      let s := if w ≠ was ∧ (natBit w 0 || natBit w 1 || natBit w 4) then s.raise Ev.DRV_HEALTH b.val w temp.val else s
      if (natBit w 2 || natBit w 3) && s.flag Reg.DRV_CFG Fd.DRV_CFG_HEALTH_FAIL then s.bayWant b.val (.failed 7) else s
    else if s.flag (Reg.DRV_BAY_CFG b.val) Fd.DRV_BAY_CFG_SMBUS_EN then s.updBay b.val fun x => { x with temp := temp.val, tempTick := some s.now }
    else s)

/-! ### Power events (13 R398, Table 13-5) -/

/-- Power-good of bay `b` is passed to the drive fabric. -/
def State.bayPowerGood (s : State) (b : Nat) : State := s.updBay b fun x => { x with pg := true, pgTick := s.now }

/-- The gate of bay `b` has been turned off: 1 command, 2 removal, 3 trip with a retry to come, 4 latched off. -/
def State.bayGateOff (s : State) (b cause : Nat) : State :=
  let s := s.updBay b fun x => { x with pg := false, clkreq := false, cycled := x.cycled || (s.bayState b == dbFailed && cause != 2) }
  let live := s.bayLive b
  let s := if live && cause != 3 then s.containNow b else s
  if cause = 2 then (if live ∨ s.bayState b = dbFailed then s.bayWant b (.absent 1) else s)
  else if !live then s
  else if cause = 1 then s.bayWant b (.absent 0)
  else if cause = 4 then s.bayWant b (.failed 8)
  else
    let s := s.updBay b fun x => { x with retryPg := true }
    if s.online b then (s.contain b 1).updBay b fun x => { x with step := 0 }
    else (s.cutLink b).updBay b fun x => { x with step := 0, contained := none }

/-! ### The seam: changes of bay state (R367, R379) -/

/-- Ticks in 600 s. -/
def tenMinutes : Nat := 585937500

/-- A declared failure of bay `b` reaches its pool: the slot's change takes effect at the same seam (R379; 10 R303). -/
def State.declareFailed (s : State) (b : Nat) : State :=
  match s.memberOf b with
  | some (p, z) => s.updPool p fun P => { P with changes := P.changes ++ [(z, none, none)] }
  | none => s

/-- Pool and slot of a bay as DRV_BAY_FAILED carries them. -/
def State.poolSlot (s : State) (b : Nat) : Nat := match s.memberOf b with | some (p, z) => p * 256 + z | none => 0xFFFF

/-- A bay fails with a reason: PERST stays asserted and the link disabled. -/
def State.bayFails (s : State) (b reason : Nat) : State :=
  let ps := s.poolSlot b
  let s := ((s.cutLink b).endAll b).updBay b fun x => { x with contained := none, next := .none, cycled := false }
  let s := (s.setBayState b dbFailed).setFld (Reg.DRV_BAY_STATUS b) Fd.DRV_BAY_STATUS_REASON reason
  (s.raise Ev.DRV_BAY_FAILED b reason ps).declareFailed b

/-- A bay leaves service for ABSENT: 1 removed, 0 commanded off, 2 disabled (no failure is declared). -/
def State.bayGoes (s : State) (b reason : Nat) : State :=
  let was := s.bayState b
  let ps := s.poolSlot b
  let live := s.bayLive b
  let s := ((s.cutLink b).endAll b).updBay b fun x => { x with contained := none, next := .none, retryPg := false, cycled := false }
  let s := s.setBayState b dbAbsent
  let s := if was = dbFailed then s.setFld (Reg.DRV_BAY_STATUS b) Fd.DRV_BAY_STATUS_REASON 0 else s
  let s := if reason = 1 then s.raise Ev.DRV_BAY_REMOVED b was 0 else s
  let s := if reason = 1 && live then s.raise Ev.DRV_BAY_FAILED b 1 ps else s
  if live && reason != 2 then s.declareFailed b else s

/-- A bay starts Table 12-3 at step 3: BAY_CLKREQ_N is driven low. -/
def State.bayLinks (s : State) (b : Nat) : State :=
  (s.setBayState b dbLinking).updBay b fun x => { x with step := 3, clkreq := true, perst := true, fails := 0, retrying := false, contained := none }

/-- A bay recovers; the RESET_THR-th recovery within 600 s fails it. -/
def State.bayRecovers (s : State) (b cause : Nat) : State :=
  let n := (s.outstanding b).length
  let recs := ((s.bay b).recs.filter fun t => decide (s.now < t + tenMinutes)) ++ [s.now]
  let s := ((s.endAll b).setBayState b dbRecovering).cntDrv 7 1
  let s := (s.updBay b fun x => { x with next := .none, recs := recs, recStart := s.now }).raise Ev.DRV_BAY_RECOVERING b cause n
  if s.fld1 Reg.DRV_RECOVER Fd.DRV_RECOVER_RESET_THR ≤ recs.length then s.bayFails b 3 else s

/-- The reservation keys of this controller and of its peer on namespace 1 of a drive (15 R460). -/
def State.ownKey (s : State) : Nat := Config.drvKey (s.rd Reg.GLB_CHIP_ID0).toNat (s.rd Reg.GLB_CHIP_ID1).toNat (s.rd Reg.GLB_CHIP_ID2).toNat
def State.peerKey (s : State) : Nat :=
  Config.drvKey (s.rd Reg.PAIR_PEER_SEEN0).toNat (s.rd Reg.PAIR_PEER_SEEN1).toNat ((s.rd Reg.PAIR_PEER_SEEN2).toNat % 65536)

/-- In a paired shelf a controller registers its key on namespace 1 of a drive that comes ONLINE, and the active acquires the reservation
(15 R460). -/
def State.drvRegister (s : State) (b : Nat) : State :=
  if !s.straps.pairEn then s
  else
    let s := s.emit (.drvRegister b s.ownKey)
    if s.isStandby then s else s.emit (.drvAcquire b s.ownKey)

/-- One bay at the seam: its pending change, then what its power and ENABLE ask for. -/
def State.baySeam (s : State) (b : Nat) : State :=
  let nx := (s.bay b).next
  let s := s.updBay b fun x => { x with next := .none, recs := x.recs.filter fun t => decide (s.now < t + tenMinutes) }
  let s := match nx with
    | .none => s
    | .linking => s.bayLinks b
    | .init => if s.bayState b = dbLinking then s.setBayState b dbInit else s
    | .online =>
      let r := Reg.DRV_BAY_STATUS b
      let s := (s.setBayState b dbOnline).updBay b fun x => { x with contained := none, fails := 0 }
      let s := (s.emit (.drvAer b 4)).drvRegister b
      s.raise Ev.DRV_BAY_ONLINE b (s.fld r Fd.DRV_BAY_STATUS_RATE * 16 + s.fld r Fd.DRV_BAY_STATUS_WIDTH)
        (s.fld r Fd.DRV_BAY_STATUS_HOSTQ + s.fld r Fd.DRV_BAY_STATUS_MNTQ)
    | .recovering c => s.bayRecovers b c
    | .failed r => s.bayFails b r
    | .absent r => s.bayGoes b r
  let s := if s.bayLive b && !s.bayEnabled b then s.bayGoes b 2 else s
  let x := s.bay b
  if x.pg && s.bayEnabled b then
    if s.bayState b = dbFailed ∧ x.cycled then
      ((s.setFld (Reg.DRV_BAY_STATUS b) Fd.DRV_BAY_STATUS_REASON 0).updBay b fun x => { x with cycled := false }).bayLinks b
    else if s.bayState b = dbAbsent then s.bayLinks b
    else if x.retryPg then
      s.updBay b fun x => { x with retryPg := false, step := 3, clkreq := true, perst := true }
    else s
  else s

/-- The drive fabric's part of a seam, in bay order. -/
def State.driveSeam (s : State) : State := (List.range 128).foldl State.baySeam s

end Sys2Proof.Machine
end

