-- ==== Sys2Proof/Machine/Maint.lean ====
section
/-!
DEFINITION. Maintenance of a pool (10): slot changes and passes (R303 to R307, R309), maintenance activities and their
concurrency (R311 to R314, R322 to R326), lost stripes (R316, R318 to R320), and MAINT_START and MAINT_STOP (R327).
-/

namespace Sys2Proof.Machine

open Sys2Proof

/-! ### Labels (09 R265) -/

/-- A list of bytes padded with 0xFF to 128. -/
def pad128 (l : List Nat) : List Byte := (l.map fun n => BitVec.ofNat 8 n) ++ List.replicate (128 - l.length) 0xFF

/-- The bay that a label gives for a slot. -/
def Slot.labelBay (x : Slot) : Nat := x.target.getD x.bay

/-- The label of slot `z` of pool index `p` (Table 9-3). -/
def Pool.label (P : Pool) (p z runGen : Nat) : List Byte :=
  let magic : List Byte := [0x56, 0x58, 0x50, 0x4F, 0x4F, 0x4C, 0x30, 0x31]
  let b := magic ++ P.uuid ++ leBytes 1 p ++ leBytes 1 P.layout ++ leBytes 1 P.k ++ leBytes 1 P.n ++ leBytes 1 P.spare
    ++ leBytes 1 P.shift ++ leBytes 1 z ++ leBytes 1 P.dump ++ leBytes 8 P.frames ++ leBytes 8 runGen
    ++ pad128 (P.slots.map Slot.labelBay) ++ pad128 P.failOrder ++ zeros 3784
  b ++ leBytes 8 (crc64 b).toNat

/-- Both labels of every member that is not missing are written, copy 0 first. -/
def State.writeLabels (s : State) (p : Nat) : State :=
  let P := s.pool p
  ((List.range P.slots.length).filter fun z => (P.slot z).st == .present || (P.slot z).st == .copyback).foldl
    (fun s z =>
      let b := (P.slot z).labelBay
      let l := P.label p z s.lay.runGen
      (s.emitNet (.label b 0 l)).emitNet (.label b 1 l)) s

/-! ### Lost stripes (R316, R318 to R320) -/

def LostEnt.has (e : LostEnt) (st : Nat) : Bool := decide (e.first ≤ st) && decide (st < e.first + e.count)
def Pool.isLost (P : Pool) (st : Nat) : Bool := P.lost.any (·.has st)
def lostMax : Nat := 16384

/-- Neighbours that touch become one entry, which keeps the cause, run and tick of its first stripe. -/
def joinLost : List LostEnt → List LostEnt
  | [] => []
  | a :: as =>
    match joinLost as with
    | [] => [a]
    | b :: bs => if b.first ≤ a.first + a.count then { a with count := a.count + b.count } :: bs else a :: b :: bs

/-- A stripe enters the table, kept sorted: it extends an entry that it touches. -/
def addLost (e : LostEnt) (t : List LostEnt) : List LostEnt :=
  match t.find? fun x => x.first + x.count == e.first with
  | some x => joinLost (t.map fun y => if y.first == x.first then { y with count := y.count + 1 } else y)
  | none =>
    match t.find? fun x => e.first + 1 == x.first with
    | some x => t.map fun y => if y.first == x.first then { y with first := e.first, count := y.count + 1 } else y
    | none => insertBy (·.first) e t

/-- The mark of a stripe is cleared: its entry is removed or split; a full table keeps an entry that would split. -/
def Pool.clearLost (P : Pool) (st : Nat) : Pool :=
  { P with lost := P.lost.flatMap fun e =>
      if !e.has st then [e]
      else
        let lo := if st = e.first then [] else [{ e with count := st - e.first }]
        let hi := if st + 1 = e.first + e.count then [] else [{ e with first := st + 1, count := e.first + e.count - st - 1 }]
        if lo.length + hi.length = 2 ∧ lostMax ≤ P.lost.length then [e] else lo ++ hi }

/-- The bytes of an entry (Table 10-2). -/
def LostEnt.bytes (e : LostEnt) : List Byte :=
  let b := leBytes 8 e.first ++ leBytes 4 e.count ++ leBytes 1 e.cause ++ zeros 3 ++ leBytes 8 e.runGen ++ leBytes 8 e.tick ++ zeros 28
  b ++ leBytes 4 (crc32c b).toNat

/-- A stripe is to be marked lost: the entry is placed in the change phase of the seam. -/
def State.wantMark (s : State) (p st cause : Nat) : State :=
  s.updPool p fun P => if P.marks.any (fun (m : Nat × Nat) => m.1 == st) then P else { P with marks := P.marks ++ [(st, cause)] }

/-- Step 1 of R316 for one stripe, and what a full table asks for (R320). -/
def State.markLost (s : State) (p st cause : Nat) : State :=
  let P := s.pool p
  let e : LostEnt := { first := st, count := 1, cause := cause, runGen := s.lay.runGen, tick := s.itn.tick }
  let s := s.updPool p fun P => { P with flushFor := P.flushFor ++ [.mark st cause] }
  if P.isLost st then s
  else
    let t := addLost e P.lost
    let s := s.cntMnt 4 1
    let s := if lostMax < t.length then
        let s := (s.cntMnt 5 1).setFld (Reg.LAY_LOST_USE p) Fd.LAY_LOST_USE_OVERFLOW 1
        let n := P.lostUnrec + 1
        let due := match P.lostEv with | none => true | some t => decide (t + ticksPerSecond ≤ s.now)
        if due then (s.updPool p fun P => { P with lostUnrec := 0, lostEv := some s.now }).raise Ev.LAY_LOST_TABLE_FULL p n 0
        else s.updPool p fun P => { P with lostUnrec := n }
      else (s.updPool p fun P => { P with lost := t }).raise Ev.LAY_STRIPE_LOST p st cause
    match s.unitOwner p st 0 0 with
    | some (v, _) => s.reliability v
    | none => s

/-- The marks of a pool that are due at the seam. -/
def State.marksSeam (s : State) (p : Nat) : State :=
  let ms := (s.pool p).marks
  ms.foldl (fun s (m : Nat × Nat) => s.markLost p m.1 m.2) (s.updPool p fun P => { P with marks := [] })

/-! ### Activities -/

/-- A rebuild or copyback pass. -/
def Activity.isPass (a : Activity) : Bool := a.kind == 3 || a.kind == 4

/-- Rank in the priority order of R324: rebuild, sanitize, scrub, extended self-test. -/
def Activity.rank (a : Activity) : Nat := if a.isPass then 0 else if a.kind = 2 then 1 else if a.kind = 1 then 2 else 3

/-- It holds members now. -/
def Activity.holds (a : Activity) : Bool := a.st == .running || a.st == .preempting || a.st == .ending || a.st == .holding

def Activity.of (kind mode : Nat) (targets : List Nat) (cov : List (Nat × Nat)) : Activity :=
  { id := 0, kind := kind, st := .queued, mode := mode, credit := 0, targets := targets, cov := cov, issued := 0, done := 0, passed := 0,
    record := 0, wrote := false, rep := 0, begun := 0, preemptor := 0, desc := none, withdrawn := 0, ctrl := 0, idx := 0, recSt := 0 }

/-- A requested activity joins those of the pool, in order of request. -/
def Pool.addAct (P : Pool) (a : Activity) : Pool := { P with acts := P.acts ++ [{ a with id := P.actSeq }], actSeq := P.actSeq + 1 }

def Pool.updAct (P : Pool) (id : Nat) (f : Activity → Activity) : Pool :=
  { P with acts := P.acts.map fun a => if a.id == id then f a else a }

/-- Pool work of activity `id`. -/
def WorkKind.ofAct (k : WorkKind) (id : Nat) : Bool :=
  match k with
  | .sanitize a => a == id
  | .rebuild a => a == id
  | .scrub a => a == id
  | .test _ a => a == id
  | _ => false

/-- Stripes that activity `id` of pool `p` has in flight. -/
def State.actWorks (s : State) (p id : Nat) : List Work := s.lay.works.filter fun w => w.pool == p && w.kind.ofAct id

/-- Frames or stripes of intervals. -/
def covSize (c : List (Nat × Nat)) : Nat := c.foldl (fun a (e : Nat × Nat) => a + (e.2 - e.1)) 0

/-- Frames that an activity covers from here on. -/
def Pool.framesOf (P : Pool) (a : Activity) : Nat := if a.isPass then covSize a.cov else ceilDiv (covSize a.cov) P.g

/-- The checkpoint of an activity in units of 1,024 frames. -/
def Pool.ckptOf (P : Pool) (a : Activity) : Nat := (if a.isPass then a.passed else a.done / P.g) / 1024

/-! ### Slot changes (R303, R305, R306) -/

/-- The frames that the intervals do not cover, ascending. -/
def covGap (frames : Nat) (cs : List (Nat × Nat)) : List (Nat × Nat) :=
  let go := (sortBy (fun (e : Nat × Nat) => e.1) cs).foldl
    (fun (a : Nat × List (Nat × Nat)) (e : Nat × Nat) => (max a.1 e.2, if a.1 < e.1 then a.2 ++ [(a.1, e.1)] else a.2)) (0, [])
  if go.1 < frames then go.2 ++ [(go.1, frames)] else go.2

/-- A pass for slot `z` over `cov` is created. -/
def Pool.newPass (P : Pool) (kind mode z : Nat) (cov : List (Nat × Nat)) : Pool :=
  if cov.isEmpty then P else P.addAct (Activity.of kind mode [z] cov)

/-- Slot `z` becomes MISSING, or loses its target bay (Table 10-1). -/
def Pool.failSlot (P : Pool) (z : Nat) : Pool :=
  let x := P.slot z
  if x.st = .vacant ∨ (x.st = .missing ∧ x.target = none) then P
  else
    { P.setSlot z { x with st := .missing, target := none, gen := x.gen + 1, built := [] } with
        failOrder := if P.failOrder.contains z then P.failOrder else P.failOrder ++ [z] }

/-- Passes that named `z` when its target bay failed lose that target when they are copybacks, when no destination is left, or when
it was the only one and nothing was written (Table 10-4, result 2). -/
def Pool.loseTarget (P : Pool) (z : Nat) : Pool :=
  { P with acts := P.acts.map fun a =>
      if a.isPass && (a.kind == 4 || P.layout == 0 || (a.targets == [z] && !a.wrote)) then { a with targets := a.targets.filter (· != z) }
      else a }

/-- A newly missing slot joins the running passes, and a pass covers the frames that none of them has still to visit (R306). -/
def Pool.coverSlot (P : Pool) (z mode : Nat) : Pool :=
  let run := P.acts.filter fun a => a.isPass && a.st == .running && !a.targets.isEmpty
  let P : Pool := { P with acts := P.acts.map fun a =>
    if a.isPass && a.st == .running && !a.targets.isEmpty && !a.targets.contains z then { a with targets := a.targets ++ [z] } else a }
  if P.layout = 0 then P else P.newPass 3 mode z (covGap P.frames (run.flatMap (·.cov)))

/-- Every pass visits again the frames that it has begun and not passed: their destinations may have changed. -/
def Pool.restartFrames (P : Pool) : Pool := { P with acts := P.acts.map fun a => if a.isPass then { a with issued := 0 } else a }

/-- A bay is added to slot `z` of `bytes` data bytes (R306). -/
def Pool.addBay (P : Pool) (z b bytes mode : Nat) : Pool :=
  let x := P.slot z
  let st := if x.st = .vacant then .copyback else x.st
  (P.setSlot z { x with st := st, target := some b, gen := x.gen + 1, bytes := bytes }).newPass (if x.st = .vacant then 4 else 3) mode z [(0, P.frames)]

/-- One slot change. -/
def Pool.change (P : Pool) (mode z : Nat) (add : Option (Nat × Nat)) : Pool :=
  match add with
  | some (b, n) => (P.addBay z b n mode).restartFrames
  | none =>
    let x := P.slot z
    if x.st = .vacant ∨ (x.st = .missing ∧ x.target = none) then P
    else
      let Q := P.failSlot z
      let Q := if x.target.isSome then Q.loseTarget z else Q
      (Q.coverSlot z mode).restartFrames

/-- The slots have changed: pool state, dirty limit, event and labels (R304). -/
def State.slotsChanged (s : State) (p was : Nat) : State :=
  let P := s.pool p
  let s := s.setPool p { P with st := P.stateOf }
  let s := (s.dirtyLimit.raise Ev.LAY_POOL_STATE p P.stateOf P.missing).writeLabels p
  if was < P.missing then (s.volsOf p).foldl State.reliability s else s

/-- The slot changes of pool `p` that are due: the drive of a bay that is added is formatted before the labels are written (R263, R268). -/
def State.changesSeam (s : State) (p : Nat) : State :=
  let P := s.pool p
  let mode := s.fld (Reg.LAY_MNT_CFG p) Fd.LAY_MNT_CFG_REBUILD_MODE
  if P.changes.isEmpty then s
  else
    let cs := P.changes
    let s := s.setPool p (cs.foldl (fun (P : Pool) c => P.change mode c.1 (c.2.1.map fun b => (b, (s.bay b).ident.bytes))) { P with changes := [] })
    let s := cs.foldl (fun (s : State) c => match c.2.1 with | some b => s.emitNet (.format b) | none => s) s
    let s := s.slotsChanged p P.missing
    cs.foldl (fun s c => s.doneOpt c.2.2 St.OK 0 0) s

/-- Slot `z` holds a strip of a stripe in frame `f`. -/
def Pool.holdsStrip (P : Pool) (f z : Nat) : Bool := decide (P.posOf f z < P.g * P.w)

/-- Every strip of slot `z` has been rebuilt at its destination. -/
def Pool.allBuilt (P : Pool) (z : Nat) : Bool :=
  (List.range P.frames).all fun f => !P.holdsStrip f z || (match P.dest f z with | some d => P.builtAt f z d | none => false)

/-- The transitions of a slot once no pass names it (Table 10-1). -/
def Pool.settleSlot (P : Pool) (z : Nat) : Pool :=
  let x := P.slot z
  if P.acts.any (fun a => a.isPass && a.targets.contains z) then P
  else if x.st = .copyback ∨ (x.st = .missing ∧ x.target ≠ none ∧ P.allBuilt z) then
    { P.setSlot z { x with st := .present, bay := x.target.getD x.bay, target := none, built := [] } with
        failOrder := P.failOrder.filter (· != z) }
  else if x.st = .missing ∧ x.target = none ∧ P.allBuilt z then P.setSlot z { x with st := .vacant, bay := 0xFF }
  else P

def State.settleSlots (s : State) (p : Nat) : State :=
  let P := s.pool p
  if P.slots.all fun x => x.st == .present || x.st == .vacant then s
  else
    let Q := (List.range P.slots.length).foldl Pool.settleSlot P
    if Q.slots.map (·.st) = P.slots.map (·.st) then s else (s.setPool p Q).slotsChanged p P.missing

/-! ### Progress (R309, R311) -/

/-- Frame `f` has been visited by a pass with these targets: it is recorded for each of them. -/
def Pool.visited (P : Pool) (f : Nat) (targets : List Nat) : Pool :=
  let order := P.failOrder
  let views := P.views
  let add (x : Slot) : Slot :=
    match x.built.getLast? with
    | some r => if r.hi = f ∧ r.order = order ∧ r.slots = views then { x with built := x.built.dropLast ++ [{ r with hi := f + 1 }] }
                else { x with built := x.built ++ [{ lo := f, hi := f + 1, order := order, slots := views }] }
    | none => { x with built := [{ lo := f, hi := f + 1, order := order, slots := views }] }
  { P with slots := P.slots.mapIdx fun z x => if targets.contains z then add x else x }

/-- The first frame or stripe is taken from the intervals. -/
def covNext : List (Nat × Nat) → List (Nat × Nat)
  | [] => []
  | (a, b) :: cs => if a + 1 < b then (a + 1, b) :: cs else cs

/-- The frames at the head of a pass whose stripes have all ended are passed: at most `n`. -/
def Pool.popFrames (busy : Nat → Bool) (id : Nat) : Nat → Pool → Pool
  | 0, P => P
  | n + 1, P =>
    match P.acts.find? (·.id == id) with
    | none => P
    | some a =>
      match a.cov with
      | [] => P
      | (f, _) :: _ =>
        if a.issued < P.g ∨ busy f then P
        else
          Pool.popFrames busy id n ((P.visited f a.targets).updAct id fun a =>
            { a with cov := covNext a.cov, issued := a.issued - P.g, passed := a.passed + 1 })

/-- The stripes at the head of a scrub, sanitize or self-test that have ended are passed. -/
def Pool.popStripes (busy : Nat → Bool) (id : Nat) : Nat → Pool → Pool
  | 0, P => P
  | n + 1, P =>
    match P.acts.find? (·.id == id) with
    | none => P
    | some a =>
      match a.cov with
      | [] => P
      | (st, _) :: _ =>
        if a.issued = 0 ∨ busy st then P
        else Pool.popStripes busy id n (P.updAct id fun a => { a with cov := covNext a.cov, issued := a.issued - 1 })

/-- The progress of one activity at the seam, and the record that CKPT_KFRAMES asks for. -/
def State.actProgress (s : State) (p : Nat) (a : Activity) : State :=
  let ws := s.actWorks p a.id
  let P := s.pool p
  let s := s.setPool p (if a.isPass then P.popFrames (fun f => ws.any fun w => w.stripe / P.g == f) a.id (a.issued / P.g + 1) 
                        else P.popStripes (fun st => ws.any fun w => w.stripe == st) a.id (a.issued + 1))
  let every := s.fld1 (Reg.LAY_MNT_CFG p) Fd.LAY_MNT_CFG_CKPT_KFRAMES * 1024
  s.updPool p fun P =>
    match P.acts.find? (·.id == a.id) with
    | none => P
    | some b =>
      if every ≤ b.passed - b.record then { P.updAct a.id fun b => { b with record := b.passed } with flushFor := P.flushFor ++ [.act a.id] }
      else P

/-! ### Starting, preempting and ending (R324 to R326) -/

/-- The resynchronisation of the pool holds an activity back (R326). -/
def Pool.yields (P : Pool) (a : Activity) : Bool :=
  match P.resync with
  | none => false
  | some r => !r.full || !a.isPass

/-- An activity that waits cannot have its members: one of a higher rank is unfinished, or as many of its own rank hold them as may. -/
def Pool.blocked (P : Pool) (a : Activity) : Bool :=
  P.yields a || P.acts.any (fun b => decide (b.rank < a.rank))
    || (let n := (P.acts.filter fun b => b.id != a.id && b.rank == a.rank && b.holds).length
        if a.isPass then decide (2 ≤ n) else decide (1 ≤ n))

/-- Stripes of the free slabs of pool `p`, as intervals (R323). -/
def State.freeStripes (s : State) (p : Nat) : List (Nat × Nat) :=
  let P := s.pool p
  let used := s.slabsUsed p
  ((List.range P.slabs).filter fun i => !used.contains i).map fun i => (i * P.slabStripes, (i + 1) * P.slabStripes)

/-- An activity starts or resumes. -/
def State.startAct (s : State) (p : Nat) (a : Activity) : State :=
  let P := s.pool p
  let idx := if a.isPass && P.acts.any (fun b => b.isPass && b.holds && b.idx == 0) then 1 else 0
  let cov := if a.st = .queued ∧ a.kind = 2 then s.freeStripes p else a.cov
  let a' := { a with st := .running, idx := idx, cov := cov, credit := 0, issued := 0, recSt := 0, begun := if a.st = .queued then s.now else a.begun }
  let s := s.setPool p { P.updAct a.id (fun _ => a') with flushFor := P.flushFor ++ [.act a.id] }
  if a.st = .preempted then s.raise Ev.MAINT_RESUMED p a.kind (P.ckptOf a)
  else s.raise Ev.MAINT_STARTED p (a.kind + (if a.isPass then 256 * idx else 0)) (P.framesOf a')

/-- One waiting activity: blocked it waits on; otherwise it preempts those of lower rank that run, and starts once none of them
holds a member. -/
def State.tryAct (s : State) (p id : Nat) : State :=
  let P := s.pool p
  match P.acts.find? (·.id == id) with
  | none => s
  | some a =>
    if P.blocked a then s
    else
      let low := P.acts.filter fun b => decide (a.rank < b.rank) && b.holds
      if low.isEmpty then s.startAct p a
      else s.setPool p { P with acts := P.acts.map fun b =>
        if a.rank < b.rank ∧ b.st = .running then { b with st := .preempting, preemptor := a.kind, recSt := 0 } else b }

/-- The waiting activities of pool `p`, in priority order and among equals in order of request. -/
def Pool.waiting (P : Pool) : List Activity :=
  sortBy (fun a => a.rank * 18446744073709551616 + a.id) (P.acts.filter fun a => a.st == .queued || a.st == .preempted)

/-- MAINT_START completes with success when the activity runs, and with MAINT_QUEUED when it waits for members held by an activity of higher or equal
priority (R327). One that waits only for the activities it preempts is answered when it starts (Table 10-4). -/
def State.answerStarts (s : State) (p : Nat) : State :=
  let P := s.pool p
  (P.acts.filter fun a => a.desc.isSome && (a.st == .running || (a.st == .queued && P.blocked a))).foldl
    (fun s a => (s.updPool p fun P => P.updAct a.id fun a => { a with desc := none }).doneOpt a.desc
      (if a.st = .running then St.OK else St.MAINT_QUEUED) 0 0) s

/-- MAINT_ACTIVITY_START of pool `p`: the waiting activities whose members are free start (R325). -/
def State.maintStarts (s : State) (p : Nat) : State := (s.pool p).waiting.foldl (fun s a => s.tryAct p a.id) s

def execMaintActivityStart (p : Fin 16) (s : State) : Host.Outcome State Fault Refusal :=
  .next (if (s.pool p.val).st ≠ 0 ∧ s.atSeam = true then s.maintStarts p.val else s)

/-- An activity ends with a result: MAINT_DONE (the slabs withdrawn from a sanitize, R323, stand in bits 31:16 of its second value: Table 10-8 gives
them no place; DESIGN CHOICE, log 145), its opcode, its last record and, for a scrub, its repetition or checkpoint. -/
def State.endAct (s : State) (p : Nat) (a : Activity) (result : Nat) : State :=
  let s := s.updPool p fun P =>
    { P with
      acts := P.acts.filter (·.id != a.id)
      flushFor := P.flushFor ++ [.act a.id]
      scrubCkpt := if a.kind = 1 ∧ result = 1 then ((a.cov.head?).map (·.1)).getD P.scrubCkpt else P.scrubCkpt
      scrubNext := if a.kind = 1 ∧ result = 0 ∧ a.rep ≠ 0 then some (a.begun, a.rep, a.mode) else P.scrubNext }
  (s.raise Ev.MAINT_DONE p (a.kind + 256 * result + 65536 * (a.withdrawn % 65536)) a.done).doneOpt a.desc St.OK a.done 0

/-- Stripes done by the passes of a pool. -/
def Pool.passesDone (P : Pool) : Nat := (P.acts.filter (·.isPass)).foldl (fun n a => n + a.done) 0

/-- An activity's record is asked for, once. -/
def State.askRecord (s : State) (p : Nat) (a : Activity) : State :=
  if a.recSt = 0 then
    s.updPool p fun P => { P.updAct a.id (fun a => { a with recSt := 1 }) with flushFor := P.flushFor ++ [.act a.id] }
  else s

/-- A preempting activity whose stripes in flight have ended and whose record is written is PREEMPTED. -/
def State.preemptNow (s : State) (p : Nat) (a : Activity) : State :=
  if a.st = .preempting ∧ (s.actWorks p a.id).isEmpty then
    if a.recSt = 2 then
      (s.updPool p fun P => P.updAct a.id fun a => { a with st := .preempted, recSt := 0 }).raise Ev.MAINT_PREEMPTED p a.kind a.preemptor
    else s.askRecord p a
  else s

/-- MAINT_PREEMPTED of pool `p`. -/
def execMaintPreempted (p : Fin 16) (s : State) : Host.Outcome State Fault Refusal :=
  .next (if s.atSeam then (s.pool p.val).acts.foldl (fun s a => s.preemptNow p.val a) s else s)

/-- What one activity does at the seam beside starting (Table 10-4). -/
def State.actSeam (s : State) (p : Nat) (a : Activity) : State :=
  let idle := (s.actWorks p a.id).isEmpty
  if a.isPass ∧ a.targets.isEmpty then s.endAct p a 2
  else if a.st = .running ∧ a.cov.isEmpty ∧ idle ∧ a.kind ≠ 5 then s.endAct p a 0
  else if a.st = .preempting then s.preemptNow p a
  else if a.st = .ending ∧ idle then (if a.recSt = 2 then s.endAct p a 1 else s.askRecord p a)
  else if a.st = .holding ∧ idle then
    (if a.recSt = 2 then s.updPool p fun P => P.updAct a.id fun a => { a with st := .held, recSt := 0 } else s.askRecord p a)
  else s

/-- The MAINT_STOP that holds the passes completes once each of them is HELD or has ended. -/
def State.holdDone (s : State) (p : Nat) : State :=
  let P := s.pool p
  if P.acts.any fun a => a.st == .holding then s
  else
    (P.acts.filter fun a => a.st == .held && a.desc.isSome).foldl
      (fun s a => (s.updPool p fun P => P.updAct a.id fun a => { a with desc := none }).doneOpt a.desc St.OK P.passesDone 0) s

/-! ### Pace and load (R312 to R314) -/

/-- Base pace of an activity in MB/s. -/
def State.basePace (s : State) (p : Nat) (a : Activity) : Nat :=
  if a.isPass then s.fld1 (Reg.LAY_MNT_RATE p) Fd.LAY_MNT_RATE_REBUILD_MBPS
  else if a.kind = 1 then s.fld1 (Reg.LAY_MNT_RATE2 p) Fd.LAY_MNT_RATE2_SCRUB_MBPS
  else if a.kind = 2 then s.fld1 (Reg.LAY_MNT_RATE2 p) Fd.LAY_MNT_RATE2_SANITIZE_MBPS
  else 0

/-- The largest charge of one step in 1/1,000 B. -/
def Pool.maxCharge (P : Pool) (a : Activity) : Nat := (if a.isPass then max 1 a.targets.length else P.w) * P.strip * 1000

/-- The refill of one activity's credit at the seam. -/
def State.refill (s : State) (p : Nat) (a : Activity) : Activity :=
  if a.st = .running then
    let pct := if a.mode = 1 then max (s.fld (Reg.LAY_MNT_LOAD p) Fd.LAY_MNT_LOAD_MIN_PCT) (100 - (s.pool p).load) else 100
    { a with credit := min (2 * (s.pool p).maxCharge a) (a.credit + s.basePace p a * 1024 * pct / 100) }
  else a

/-- Stripes of maintenance that pool `p` may have in flight, E (R313). -/
def State.inflightMax (s : State) (p : Nat) : Nat :=
  let P := s.pool p
  let n := (s.pools.filter fun q => (s.pool q).acts.any fun a => a.st == .running).length
  min (s.fld (Reg.LAY_MNT_CFG p) Fd.LAY_MNT_CFG_INFLIGHT) (2147483648 / or1 n / (P.w * P.strip))

/-- The stripes of maintenance in flight in pool `p`. -/
def State.maintWorks (s : State) (p : Nat) : Nat :=
  (s.lay.works.filter fun w => w.pool == p && (match w.kind with
    | .destage => false | .repair => false | .flush _ => false | .dump => false | _ => true)).length

/-- L of pool `p` (R314): the host-path bytes of an itinerary cycle of 262.144 µs against HOST_REF for each member not missing. -/
def State.hostLoad (s : State) (p : Nat) : Nat :=
  let P := s.pool p
  min 100 (100 * P.hostBytes * 1000 / (262144 * s.fld1 (Reg.LAY_MNT_LOAD p) Fd.LAY_MNT_LOAD_HOST_REF * P.bays.length))

/-- The load is recomputed; the count of the next cycle begins when `clear`. -/
def State.loadUpdate (clear : Bool) (s : State) (p : Nat) : State :=
  let l := s.hostLoad p
  (s.updPool p fun P => { P with load := l, hostBytes := if clear then 0 else P.hostBytes }).setFld (Reg.LAY_MNT_STATUS p) Fd.LAY_MNT_STATUS_LOAD l

/-- MAINT_LOAD_UPDATE: in a tick of index 255, the load of every pool is recomputed. -/
def execMaintLoadUpdate (s : State) : Host.Outcome State Fault Refusal :=
  .next (if s.itn.tick % 256 = 255 ∧ s.atSeam = true then s.pools.foldl (State.loadUpdate false) s else s)

/-! ### Scrub repetition (R322) -/

/-- Ticks of 24 hours. -/
def dayTicks : Nat := 84375000000

/-- A new scrub pass is requested once it is due. -/
def State.scrubRepeat (s : State) (p : Nat) : State :=
  let P := s.pool p
  match P.scrubNext with
  | none => s
  | some (t, r, m) =>
    if t + r * dayTicks ≤ s.now ∧ P.acts.all (fun a => a.kind != 1) then
      s.setPool p ({ P with scrubNext := none }.addAct { (Activity.of 1 m [] [(0, P.stripes)]) with rep := r })
    else s

/-- SCRUB_REPEAT of pool `p`. -/
def execScrubRepeat (p : Fin 16) (s : State) : Host.Outcome State Fault Refusal := .next (if s.atSeam then s.scrubRepeat p.val else s)

/-! ### MAINT_START and MAINT_STOP (R327) -/

/-- Activities of an opcode's kind: passes count as one kind. -/
def Pool.ofKind (P : Pool) (kind : Nat) : List Activity := P.acts.filter fun a => if kind = 3 then a.isPass else a.kind == kind

/-- MAINT_START: its checks; the decision is made at the seam. -/
def maintStart (d : Desc) (s : State) : State :=
  let p := d.handle % 16
  let P := s.pool p
  let k := d.f 8 1
  let none_ := (P.ofKind k).isEmpty
  s.checked d
    [(decide (d.handle < 16) && d.reservedZero [(8, 1), (9, 1), (10, 1), (11, 1)] && decide (1 ≤ k) && decide (k ≤ 3)
        && decide (d.f 9 1 ≤ 1) && decide (d.f 11 1 ≤ 1) && (k == 1 || (d.f 10 1 == 0 && d.f 11 1 == 0)), St.GEN_FIELD),
     (P.st != 0, St.LAY_NO_POOL),
     (k == 3 || none_, St.MAINT_ACTIVE),
     (k != 3 || P.acts.any (fun a => a.st == .held), St.MAINT_NONE)]
    (State.defer · d)

def execMaintStart (s : State) : Host.Outcome State Fault Refusal := .next (s.ringCmd Op.MAINT_START maintStart)

/-- The request of a MAINT_START at its seam. -/
def State.maintRequest (s : State) (d : Desc) : State :=
  let p := d.handle % 16
  let k := d.f 8 1
  let mode := d.f 9 1
  s.updPool p fun P =>
    if k = 3 then
      let first := ((P.acts.find? fun a => a.st == .held).map (·.id)).getD 0
      { P with acts := P.acts.map fun a =>
          if a.isPass then
            let a := { a with mode := mode }
            if a.st = .held then { a with st := .queued, desc := if a.id == first then some d else none } else a
          else a }
    else
      let from_ := if k = 1 ∧ d.f 11 1 = 1 then P.scrubCkpt else 0
      let cov := if k = 1 then (if from_ < P.stripes then [(from_, P.stripes)] else []) else []
      { P with scrubNext := if k = 1 then none else P.scrubNext }.addAct
        { (Activity.of k mode [] cov) with rep := d.f 10 1, desc := some d }

/-- MAINT_STOP: its checks; the activity is stopped at the seam. -/
def maintStop (d : Desc) (s : State) : State :=
  let p := d.handle % 16
  let P := s.pool p
  let k := d.f 8 1
  s.checked d
    [(decide (d.handle < 16) && d.reservedZero [(8, 1)] && decide (1 ≤ k) && decide (k ≤ 3), St.GEN_FIELD),
     (P.st != 0, St.LAY_NO_POOL),
     (!(P.ofKind k).isEmpty, St.MAINT_NONE)]
    (State.defer · d)

def execMaintStop (s : State) : Host.Outcome State Fault Refusal := .next (s.ringCmd Op.MAINT_STOP maintStop)

/-- The stop of a MAINT_STOP at its seam: running work ends its stripes in flight, a waiting activity has none. -/
def State.maintHalt (s : State) (d : Desc) : State :=
  let p := d.handle % 16
  let k := d.f 8 1
  let as_ := (s.pool p).ofKind k
  match as_.head? with
  | none => s.done d St.MAINT_NONE
  | some h =>
    s.updPool p fun P => { P with acts := P.acts.map fun a =>
      if (as_.map fun x => x.id).contains a.id then
        if k = 3 then
          { a with st := if a.st = .held then .held else .holding, recSt := 0, desc := if a.id == h.id then some d else a.desc }
        else { a with st := .ending, recSt := 0, desc := some d }
      else a }

/-! ### The pool's part of a seam -/

/-- The maintenance of pool `p` at a seam. -/
def State.maintSeam (s : State) (p : Nat) : State :=
  let s := (s.changesSeam p).marksSeam p
  let s := (s.scrubRepeat p).maintStarts p
  let s := s.answerStarts p
  let s := (s.pool p).acts.foldl (fun s a => s.actProgress p a) s
  let s := (s.pool p).acts.foldl (fun s a => s.actSeam p a) s
  let s := (s.holdDone p).settleSlots p
  let s := s.updPool p fun P => { P with acts := P.acts.map (s.refill p) }
  if s.itn.tick % 256 = 255 then s.loadUpdate true p else s

end Sys2Proof.Machine
end

