-- ==== Sys2Proof/Machine/Pools.lean ====
section
/-!
DEFINITION. Pool opcodes (09 R266 to R268), volume opcodes (R277 to R280), resynchronisation (R297 to R299), and the import of
the pools (R296, R300).
-/

namespace Sys2Proof.Machine

open Sys2Proof

/-! ### POOL_CREATE and POOL_DESTROY -/

/-- The geometry operands agree with Table 9-1. -/
def geomOk (layout k n spare shift : Nat) : Bool :=
  decide (2 ≤ k) && decide (k ≤ 30) && decide (14 ≤ shift) && decide (shift ≤ 20)
    && (if layout = 0 then n == k + 2 && spare == 0
        else layout == 1 && decide (k + 3 ≤ n) && decide (n ≤ 128) && decide (spare ≤ 4) && decide (k + 2 ≤ n - spare))

/-- The pool that operands of a POOL_CREATE describe, on `bays` with capacities; DUMP_GIB as given. -/
def poolOf (d : Desc) (dump : Nat) (bays : List (Nat × Nat)) : Pool :=
  let slots : List Slot := bays.map fun e => { st := .present, bay := e.1, target := none, gen := 0, built := [], bytes := e.2 }
  let least := ((minBy (fun (e : Nat × Nat) => e.2) bays).map (·.2)).getD 0
  let P : Pool := { Pool.reset with layout := d.f 8 1, k := d.f 9 1, n := d.f 10 1, spare := d.f 11 1, shift := d.f 12 1, dump := dump, slots := slots }
  { P with frames := (least - P.base) / P.strip }

/-- Bay `b` belongs to a pool, or is about to. -/
def State.bayTaken (s : State) (b : Nat) : Bool :=
  s.lay.pools.any fun (e : Nat × Pool) =>
    e.2.slots.any (fun x => (x.bay == b && (x.st == .present)) || x.target == some b)
      || e.2.changes.any (fun c => c.2.1 == some b)

/-- Check 4 of Table 9-5 for one bay. -/
def State.bayReady (s : State) (b : Nat) : Bool := s.online b && !s.bayTaken b

/-- POOL_CREATE with its bay list as the DMA read returned it. -/
def poolCreate (ok : Bool) (list : List Byte) (d : Desc) (s : State) : State :=
  let p := d.handle % 16
  let n := d.f 10 1
  let bays := ((list.take 128).take n).map (·.toNat)
  let dump := s.fld Reg.LAY_DUMP_CFG Fd.LAY_DUMP_CFG_DUMP_GIB
  let P := poolOf d dump (bays.map fun b => (b, (s.bay b).ident.bytes))
  s.checked d
    [(decide (d.handle < 16) && d.reservedZero [(8, 1), (9, 1), (10, 1), (11, 1), (12, 1), (16, 8)]
        && geomOk (d.f 8 1) (d.f 9 1) n (d.f 11 1) (d.f 12 1), St.GEN_FIELD),
     (ok, St.GEN_DMA),
     (list.length == 128 && bays.all (fun b => decide (b < 128)) && (list.drop n).all (· == 0xFF), St.GEN_FIELD),
     ((s.pool p).st == 0 && (s.pool p).desc.isNone, St.LAY_POOL_EXISTS),
     ((s.poolClass p).isSome, St.LAY_NO_POOL_CLASS),
     (bays.eraseDups.length == n && bays.all s.bayReady, St.LAY_BAY_UNAVAILABLE),
     (bays.all fun b => (s.bay b).ident.fmt, St.LAY_MEMBER_FORMAT),
     (decide (1 ≤ P.frames) && decide (1 ≤ P.slabs), St.LAY_CAPACITY)]
    fun s =>
      let (a, s) := s.draw
      let (b, s) := s.draw
      s.setPool p { P with uuid := leBytes 8 a ++ leBytes 8 b, desc := some d }

def execPoolCreate (ok : Bool) (list : List Byte) (s : State) : Host.Outcome State Fault Refusal :=
  .next (s.ringData Op.POOL_CREATE ok list (poolCreate ok list))

/-- The members of a new pool: each is formatted (R263), then the labels are written, and the empty map store and lost-stripe table (R266,
Table 9-2). -/
def State.formatPool (s : State) (p : Nat) : State :=
  let bays := (s.pool p).bays
  let s := bays.foldl (fun (s : State) b => s.emitNet (.format b)) s
  bays.foldl (fun (s : State) b => (s.emitNet (.memberEmpty b (67 * 1048576) (512 * 1048576))).emitNet (.memberEmpty b (65 * 1048576) (2 * 1048576)))
    (s.writeLabels p)

/-- The pool that POOL_CREATE made becomes ONLINE at its seam, unless one of its bays has left service meanwhile. -/
def State.poolOnline (s : State) (p : Nat) : State :=
  let P := s.pool p
  if P.st ≠ 0 ∨ P.desc = none then s
  else if P.slots.all fun x => s.online x.bay then
    let s := (s.setPool p { P with st := 2, desc := none }).dirtyLimit
    ((s.raise Ev.LAY_POOL_STATE p 2 0).formatPool p).doneOpt P.desc St.OK P.slabs P.frames
  else (s.setPool p Pool.reset).doneOpt P.desc St.LAY_BAY_UNAVAILABLE 0 0

/-- POOL_DESTROY. -/
def poolDestroy (d : Desc) (s : State) : State :=
  let p := d.handle % 16
  let P := s.pool p
  s.checked d
    [(decide (d.handle < 16) && d.reservedZero [], St.GEN_FIELD),
     (P.st != 0, St.LAY_NO_POOL),
     ((s.volsOf p).isEmpty && P.acts.isEmpty, St.LAY_POOL_BUSY)]
    fun s =>
      let s := (P.bays.filter s.online).foldl (fun s b => (s.emitNet (.label b 0 (zeros 4096))).emitNet (.label b 1 (zeros 4096))) s
      s.defer d

def execPoolDestroy (s : State) : Host.Outcome State Fault Refusal := .next (s.ringCmd Op.POOL_DESTROY poolDestroy)

/-- The pool index is freed at the seam. -/
def State.poolGone (s : State) (d : Desc) : State :=
  let p := d.handle % 16
  let ids := (s.lay.works.filter fun w => w.pool == p).map (·.id)
  let s := ids.foldl (fun s id => (s.dropWork id).dropItems fun it => it.ref == .work id) s
  ((s.setPool p Pool.reset).dirtyLimit).done d St.OK

/-! ### POOL_MEMBER_ADD and POOL_MEMBER_REMOVE (R268) -/

/-- The slot operand names a slot of the pool; of an absent pool, any slot number. -/
def Pool.slotOk (P : Pool) (z : Nat) : Bool := decide (z < if P.st = 0 then 128 else P.n)

def poolMemberAdd (d : Desc) (s : State) : State :=
  let p := d.handle % 16
  let P := s.pool p
  let z := d.f 8 1
  let b := d.f 9 1
  let st := (P.slot z).st
  s.checked d
    [(decide (d.handle < 16) && d.reservedZero [(8, 1), (9, 1)] && P.slotOk z && decide (b < 128), St.GEN_FIELD),
     (P.st != 0, St.LAY_NO_POOL),
     (st == .missing || st == .vacant, St.LAY_MEMBER_STATE),
     (s.bayReady b, St.LAY_BAY_UNAVAILABLE),
     ((s.bay b).ident.fmt, St.LAY_MEMBER_FORMAT),
     (decide (P.base + P.frames * P.strip ≤ (s.bay b).ident.bytes), St.LAY_CAPACITY)]
    fun s => s.updPool p fun P => { P with changes := P.changes ++ [(z, some b, some d)] }

def execPoolMemberAdd (s : State) : Host.Outcome State Fault Refusal := .next (s.ringCmd Op.POOL_MEMBER_ADD poolMemberAdd)

def poolMemberRemove (d : Desc) (s : State) : State :=
  let p := d.handle % 16
  let P := s.pool p
  let z := d.f 8 1
  let st := (P.slot z).st
  s.checked d
    [(decide (d.handle < 16) && d.reservedZero [(8, 1)] && P.slotOk z, St.GEN_FIELD),
     (P.st != 0, St.LAY_NO_POOL),
     (st == .present || st == .copyback, St.LAY_MEMBER_STATE),
     (decide (P.missing < 2), St.LAY_REDUNDANCY)]
    fun s => s.updPool p fun P => { P with changes := P.changes ++ [(z, none, some d)] }

def execPoolMemberRemove (s : State) : Host.Outcome State Fault Refusal := .next (s.ringCmd Op.POOL_MEMBER_REMOVE poolMemberRemove)

/-! ### Volumes -/

/-- A line is discarded: a destage that has copied it forgets it. -/
def State.dropLine (s : State) (i : Nat) : State :=
  { s.setLine i Line.reset with lay := { (s.setLine i Line.reset).lay with
      works := s.lay.works.map fun w => { w with lines := w.lines.filter fun (l : Nat × Nat) => l.1 != i } } }

/-- The lines of volume `v` from unit `t` on are discarded, shadow lines among them only with `shadows`. -/
def State.dropLines (s : State) (v t : Nat) (shadows : Bool) : State :=
  ((s.lay.lines.filter fun (e : Nat × Line) => e.2.vol == v && decide (t ≤ e.2.unit) && (e.2.st != .shadow || shadows) && e.2.st != .free).map
    (·.1)).foldl State.dropLine s

/-- A stripe stays on the destage list only while a line of it is dirty. -/
def State.trimDirty (s : State) (p : Nat) : State :=
  s.updPool p fun P => { P with dirty := P.dirty.filter fun e => e.redo.isSome || !(s.dirtyIn p e.stripe).isEmpty || s.stripeHeld p e.stripe }

/-- Where `n` map entries of volume `v` go: its present run when that can hold them, otherwise the lowest free run. -/
def State.mapFor (s : State) (v n : Nat) : Option Nat :=
  let f := (s.vol v).first
  let clear := (s.vols.filter (· != v)).all fun i =>
    (s.vol i).heldRuns.all fun (r : Nat × Nat) => decide (f + n ≤ r.1) || decide (r.1 + r.2 ≤ f)
  if (s.vol v).st ≠ 0 ∧ clear ∧ f + n ≤ mapEntries then some f else s.mapRun v n

/-- The pool has `n` free slabs and the region a run of `total` entries (R277 check 6). -/
def State.canHold (s : State) (v p n total : Nat) : Bool := decide (n ≤ s.slabsFree p) && (s.mapFor v total).isSome

/-- VOL_CREATE. -/
def volCreate (d : Desc) (s : State) : State :=
  let v := d.handle % 65536
  let p := d.f 8 1
  let P := s.pool p
  let f := d.f 9 1
  let k := d.f 12 4
  let n := d.bytes 24 16
  let need := P.slabsFor f (d.f 16 8)
  s.checked d
    [(decide (d.handle < 65536) && d.reservedZero [(8, 1), (9, 1), (10, 1), (12, 4), (16, 8), (24, 16)] && decide (p < 16) && decide (f ≤ 4)
        && decide (d.f 10 1 ≤ 1) && (decide (k < 65536) || k == 0xFFFFFFFF) && decide (1 ≤ d.f 16 8), St.GEN_FIELD),
     ((s.vol v).st == 0, St.LAY_VOL_EXISTS),
     (P.st != 0 && P.st != 5, St.LAY_NO_POOL),
     (k == 0xFFFFFFFF || (s.keyPair k).isSome, St.LAY_KEY_ABSENT),
     (!allZero n && s.vols.all (fun i => (s.vol i).nguid != n), St.LAY_NGUID),
     (s.canHold v p need need, St.LAY_POOL_FULL)]
    (State.defer · d)

def execVolCreate (s : State) : Host.Outcome State Fault Refusal := .next (s.ringCmd Op.VOL_CREATE volCreate)

/-- Slabs taken from a running sanitize leave its set (10 R323). -/
def Pool.withdraw (P : Pool) (slabs : List Nat) : Pool :=
  { P with acts := P.acts.map fun a =>
      if a.kind = 2 then
        let hit (e : Nat × Nat) : Bool := slabs.contains (e.1 / P.slabStripes)
        { a with cov := a.cov.filter (fun e => !hit e), withdrawn := a.withdrawn + (a.cov.filter hit).length
                 issued := if (a.cov.head?.map hit).getD false then 0 else a.issued }
      else a }

/-- The volume becomes INITIALISING at its seam, or READY at once with UNINIT (R277, R278). Checks 5 and 6 are made again: another VOL_CREATE may
have taken the NGUID, the slabs or the entries since. -/
def State.volCreateNow (s : State) (d : Desc) : State :=
  let v := d.handle % 65536
  let p := d.f 8 1
  let P := s.pool p
  let f := d.f 9 1
  let k := d.f 12 4
  let need := P.slabsFor f (d.f 16 8)
  let uninit := d.f 10 1 == 1
  if s.vols.any fun i => (s.vol i).nguid == d.bytes 24 16 then s.done d St.LAY_NGUID
  else if !s.canHold v p need need then s.done d St.LAY_POOL_FULL
  else
    let slabs := lowestFree (s.slabsUsed p) P.slabs need
    let key := if k = 0xFFFFFFFF then none else some k
    let x : Vol := { Vol.reset with
      st := if uninit then 2 else 1, pool := p, lbaf := f, key := key, kcv := ((key.bind s.keyPair).map (·.kcv)).getD 0, blocks := d.f 16 8
      nguid := d.bytes 24 16, uninit := uninit, first := (s.mapFor v need).getD 0, slabs := slabs
      initEnd := if uninit then 0 else need * P.slabStripes, desc := some d, flushing := true, result := need }
    let s := (s.setVol v x).updPool p fun P => { P.withdraw slabs with flushFor := P.flushFor ++ [.vol v] }
    let s := (s.nsChanged v).chanMaps v
    if uninit then s.raise Ev.LAY_VOL_READY v need 0 else s

/-- VOL_RESIZE. -/
def volResize (d : Desc) (s : State) : State :=
  let v := d.handle % 65536
  let x := s.vol v
  let P := s.pool x.pool
  let total := P.slabsFor x.lbaf (d.f 16 8)
  s.checked d
    [(decide (d.handle < 65536) && d.reservedZero [(16, 8)] && decide (1 ≤ d.f 16 8), St.GEN_FIELD),
     (x.st != 0, St.LAY_NO_VOLUME),
     (x.st == 2, St.GEN_STATE),
     (decide (total ≤ x.slabs.length) || s.canHold v x.pool (total - x.slabs.length) total, St.LAY_POOL_FULL)]
    (State.defer · d)

def execVolResize (s : State) : Host.Outcome State Fault Refusal := .next (s.ringCmd Op.VOL_RESIZE volResize)

/-- A volume has its new size (R279): its entries are those of the run it grew into, its channels carry them from this seam on (R275), the hosts are
told, and the opcode waits for its META_FLUSH. -/
def State.volSized (s : State) (v blocks : Nat) : State :=
  let x := s.vol v
  let old := (x.first, (s.pool x.pool).slabsFor x.lbaf x.blocks)
  let s := s.updVol v fun x =>
    { x with blocks := blocks, grow := none, flushing := true, first := (x.runs.head?.map (·.1)).getD x.first, runs := [old] }
  ((s.nsChanged v).chanMaps v).updPool (s.vol v).pool fun P => { P with flushFor := P.flushFor ++ [.vol v] }

/-- The resize at its seam: a shrink changes the size, discards the lines beyond it and gives up the slabs past it; a growth takes
its slabs and initialises them first, unless the volume was created with UNINIT. -/
def State.volResizeNow (s : State) (d : Desc) : State :=
  let v := d.handle % 65536
  let x := s.vol v
  let P := s.pool x.pool
  let n := d.f 16 8
  let total := P.slabsFor x.lbaf n
  let have_ := x.slabs.length
  let s := s.updVol v fun x => { x with desc := some d, result := 0 }
  if n ≤ x.blocks then
    let s := s.updVol v fun x => { x with slabs := x.slabs.take total, tail := x.slabs.drop total ++ x.tail }
    let s := ((s.volSized v n).dropLines v (ceilDiv n (unitBlocks x.lbaf)) true)
    s.trimDirty x.pool
  else if total ≤ have_ then s.volSized v n
  else if !s.canHold v x.pool (total - have_) total then (s.updVol v fun x => { x with desc := none }).done d St.LAY_POOL_FULL
  else
    let more := lowestFree (s.slabsUsed x.pool) P.slabs (total - have_)
    let first := (s.mapFor v total).getD 0
    let s := (s.updVol v fun x => { x with slabs := x.slabs ++ more, runs := [(first, total)] }).updPool x.pool fun P => P.withdraw more
    if x.uninit then s.volSized v n
    else s.updVol v fun x => { x with grow := some n, initNext := have_ * P.slabStripes, initEnd := total * P.slabStripes }

/-- VOL_DELETE. -/
def volDelete (d : Desc) (s : State) : State :=
  let v := d.handle % 65536
  let x := s.vol v
  s.checked d
    [(decide (d.handle < 65536) && d.reservedZero [], St.GEN_FIELD),
     (x.st != 0, St.LAY_NO_VOLUME),
     (s.liveChans.all (fun i => (s.chan i).nsid != v + 1), St.LAY_VOL_BUSY),
     (x.st != 1, St.GEN_STATE)]
    (State.defer · d)

def execVolDelete (s : State) : Host.Outcome State Fault Refusal := .next (s.ringCmd Op.VOL_DELETE volDelete)

/-- The deletion at its seam: the volume's lines are discarded without destage (R280). -/
def State.volDeleteNow (s : State) (d : Desc) : State :=
  let v := d.handle % 65536
  let s := (s.updVol v fun x => { x with st := 3, desc := some d, result := 0 }).dropLines v 0 false
  s.trimDirty (s.vol v).pool

/-- A stripe of one of the slabs is held by pool work. -/
def State.slabsHeld (s : State) (p : Nat) (slabs : List Nat) : Bool :=
  s.lay.works.any fun w => w.pool == p && slabs.contains (w.stripe / (s.pool p).slabStripes)
    && (match w.kind with | .flush _ => false | .dump => false | _ => true)

/-- One volume at the seam: initialisation or a growth ends; a deleted volume whose stripes have retired frees its slabs; slabs
cut off by a shrink are freed once no waybill names blocks past the size and no work holds them. -/
def State.volSeam (s : State) (v : Nat) : State :=
  let x := s.vol v
  let initDone := decide (x.initEnd ≤ x.initNext) && x.initFly == 0
  let s := if x.st = 1 ∧ initDone then (s.updVol v fun x => { x with st := 2 }).raise Ev.LAY_VOL_READY v x.slabs.length 0 else s
  let s := match x.grow with
    | some n => if x.st = 2 ∧ initDone then s.volSized v n else s
    | none => s
  let s := if x.tail ≠ [] ∧ !s.slabsHeld x.pool x.tail ∧ (s.wbsThat fun w => w.volume == v && w.lockValid && decide (x.blocks < w.slba + w.blocks)).isEmpty
    then s.updVol v fun x => { x with tail := [] } else s
  if x.st = 3 ∧ x.flushing = false ∧ !s.slabsHeld x.pool x.slabs then
    (s.updVol v fun x => { x with slabs := [], runs := [(x.first, x.slabs.length)], flushing := true }).updPool x.pool fun P => { P with flushFor := P.flushFor ++ [.vol v] }
  else s

/-- The META_FLUSH that a volume opcode waited for has completed (R276). -/
def State.volFlushed (s : State) (v : Nat) : State :=
  let x := s.vol v
  if !x.flushing then s
  else
    let s := if x.st = 3 then ((s.setVol v Vol.reset).dropLines v 0 true).nsChanged v else s.updVol v fun x => { x with flushing := false, desc := none, runs := [] }
    s.doneOpt x.desc St.OK x.result 0

/-- LAY_VOL_SEL_WRITE: a snapshot is taken at the next seam. -/
def execLayVolSelWrite (w : Word) (s : State) : Host.Outcome State Fault Refusal :=
  .next (s.hostWrite Reg.LAY_VOL_SEL fun s =>
    let s := s.regWrite Reg.LAY_VOL_SEL w
    { s with lay := { s.lay with selDue := true } })

def State.volSnap (s : State) : State :=
  if !s.lay.selDue then s
  else
    let v := s.fld Reg.LAY_VOL_SEL Fd.LAY_VOL_SEL_VOLUME
    let x := s.vol v
    let s := { s with lay := { s.lay with selDue := false } }
    let s := s.wrReg Reg.LAY_VOL_INFO0 (BitVec.ofNat 32
      (2147483648 + x.st * 16777216 + (if x.st = 0 then 0 else x.pool * 65536 + x.lbaf * 256) + b2n x.dirtyLost))
    let s := s.wrReg Reg.LAY_VOL_INFO1 (BitVec.ofNat 32 (s.dirtyOf v))
    let s := s.wrReg Reg.LAY_VOL_INFO2 (BitVec.ofNat 32 x.slabs.length)
    s.wrReg Reg.LAY_VOL_INFO3 (BitVec.ofNat 32 (x.initEnd - x.initNext + x.initFly))

/-! ### Resynchronisation (R297 to R299) -/

/-- A resynchronisation of pool `p` starts: full, or of the listed stripes with their journal slots. -/
def State.startResync (s : State) (p : Nat) (full : Bool) (listed : List (Nat × Nat)) : State :=
  let P := s.pool p
  let left := if full then P.stripes else listed.length
  if left = 0 then s
  else
    let r : Resync := { full := full, first := [], next := 0, listed := listed, left := left, lost := 0, unverified := 0 }
    (s.setPool p { P with resync := some r }).raise Ev.LAY_RESYNC_START p (if full then 2 else 1) left

/-- Stripe `st` of pool `p` is still to be resynchronised. -/
def Pool.unsynced (P : Pool) (st : Nat) : Bool :=
  match P.resync with
  | none => false
  | some r =>
    r.first.contains st || (if r.full then decide (r.next ≤ st) && !r.listed.any (fun (e : Nat × Nat) => e.1 == st)
      else r.listed.any (fun (e : Nat × Nat) => e.1 == st))

/-- The resynchronisation of pool `p` ends at the seam once no stripe is left (R299). -/
def State.resyncSeam (s : State) (p : Nat) : State :=
  match (s.pool p).resync with
  | none => s
  | some r => if r.left = 0 then (s.updPool p fun P => { P with resync := none }).raise Ev.LAY_RESYNC_DONE p r.lost r.unverified else s

/-! ### Import (R296, R300) -/

/-- A label copy is valid; the copy of two that is used. -/
def labelValid (b : List Byte) : Bool :=
  b.length == 4096 && b.take 8 == [0x56, 0x58, 0x50, 0x4F, 0x4F, 0x4C, 0x30, 0x31] && leField b 4088 8 == (crc64 (b.take 4088)).toNat
def labelRun (b : List Byte) : Nat := leField b 40 8
def bestLabel (a b : List Byte) : Option (List Byte) :=
  if labelValid a then (if labelValid b && decide (labelRun a < labelRun b) then some b else some a)
  else if labelValid b then some b else none

/-- The bytes of a 128-entry list up to its end mark. -/
def listTo (b : List Byte) : List Nat := ((b.map (·.toNat)).takeWhile (· != 0xFF))

/-- The frames of slot `z` that the recorded passes have visited, given those that name it. -/
def visitedBy (frames : Nat) (ps : List ImpPass) : List (Nat × Nat) := if ps.isEmpty then [] else covGap frames (ps.flatMap (·.cov))

/-- A slot as the label `l` and the records give it: `found` is the bay at which its label was read. -/
def importSlot (l : List Byte) (order : List Nat) (ps : List ImpPass) (found : Option (Nat × Nat)) (z : Nat) : Slot :=
  let bay := leField l (48 + z) 1
  let mine := ps.filter fun q => q.targets.any fun (t : Nat × Option Nat) => t.1 == z
  let target := (mine.flatMap (·.targets)).findSome? fun (t : Nat × Option Nat) => if t.1 = z then t.2 else none
  let bytes := (found.map (·.2)).getD 0
  if ¬ order.contains z then { st := .present, bay := ((found.map (·.1)).getD bay), target := none, gen := 0, built := [], bytes := bytes }
  else if mine.any (·.kind == 4) then { st := .copyback, bay := 0xFF, target := target, gen := 0, built := [], bytes := bytes }
  else if bay = 0xFF then { st := .vacant, bay := 0xFF, target := none, gen := 0, built := [], bytes := 0 }
  else { st := .missing, bay := bay, target := target, gen := 0, built := [], bytes := bytes }

/-- What has been rebuilt of each slot: every frame of a vacant slot at its spares, every frame of a copyback slot at its spares and
those visited on its bay, and the visited frames of a missing slot. -/
def Pool.importBuilt (P : Pool) (ps : List ImpPass) : Pool :=
  let order := P.failOrder
  let views := P.views
  let home (z : Nat) (v : List SlotView) : List SlotView := v.mapIdx fun i w => if i = z then { w with home := false } else w
  { P with slots := P.slots.mapIdx fun z x =>
      let mine := ps.filter fun q => q.targets.any fun (t : Nat × Option Nat) => t.1 == z
      let seen := (visitedBy P.frames mine).map fun (e : Nat × Nat) => ({ lo := e.1, hi := e.2, order := order, slots := views } : Rebuilt)
      let all : List Rebuilt := [{ lo := 0, hi := P.frames, order := order, slots := home z views }]
      { x with built := if x.st = .vacant then all else if x.st = .copyback then all ++ seen else if x.st = .missing then seen else [] } }

/-- The pool of one UUID: its label with the highest RUN_GEN rules, and its members are the bays at which its labels were found. -/
def State.importPool (s : State) (im : Import) (ls : List (Nat × List Byte)) (l : List Byte) : State :=
  let p := leField l 24 1 % 16
  let order := listTo (sliceB l 176 128)
  let ps := im.passes.filter (·.pool == p)
  let same := ls.filter fun (e : Nat × List Byte) => sliceB e.2 8 16 == sliceB l 8 16
  let found (z : Nat) : Option (Nat × Nat) :=
    (same.find? fun (e : Nat × List Byte) => leField e.2 30 1 == z).map fun e => (e.1, (s.bay e.1).ident.bytes)
  let n := leField l 27 1
  let P : Pool := { Pool.reset with
    st := 2, uuid := sliceB l 8 16, layout := leField l 25 1, k := leField l 26 1, n := n, spare := leField l 28 1, shift := leField l 29 1
    dump := leField l 31 1, frames := leField l 32 8, failOrder := order, slots := (List.range n).map fun z => importSlot l order ps (found z) z
    lost := (im.lost.filter (·.pool == p)).map fun e =>
      ({ first := e.first, count := e.count, cause := e.cause, runGen := e.runGen, tick := e.tick } : LostEnt) }
  let P := P.importBuilt ps
  let P := ps.foldl (fun (P : Pool) q =>
    P.addAct { (Activity.of q.kind q.mode (q.targets.map (·.1)) q.cov) with done := q.done, st := if q.held then .held else .queued }) P
  -- Members that are not reachable have failed.
  let gone := (List.range n).filter fun z => (P.slot z).st == .present && (found z).isNone
  let mode := s.fld (Reg.LAY_MNT_CFG p) Fd.LAY_MNT_CFG_REBUILD_MODE
  let P := gone.foldl (fun (P : Pool) z => P.change mode z none) P
  (s.setPool p P).slotsChanged p P.missing

/-- A journal slot read from a copy. -/
def jentOf (b : List Byte) : JEnt :=
  { st := leField b 0 1, pool := leField b 1 1, kind := leField b 2 1, degraded := natBit (leField b 3 1) 0, rows := leField b 4 4
    stripe := leField b 8 8, positions := leField b 16 4, shadow := leField b 20 4, seq := leField b 24 8 }

/-- A restored line: DIRTY, on the destage list of its pool, or SHADOW. -/
def State.importLine (s : State) (l : ImpLine) : State :=
  let x := s.vol l.vol
  if x.st = 0 then s
  else
    let s := s.setLine l.slot { Line.reset with
      st := if l.shadow then .shadow else .dirty, vol := l.vol, unit := l.unit, valid := l.valid, wt := l.wt, firstDirty := s.now, data := l.data }
    if l.shadow then s else s.addDirty x.pool (s.unitPlace l.vol l.unit).1 s.now

/-- A volume of an imported pool. -/
def State.importVol (s : State) (r : ImpVol) : State :=
  if (s.pool r.pool).st = 0 then s
  else
    let end_ := if r.uninit then 0 else r.slabs.length * (s.pool r.pool).slabStripes
    s.setVol r.vol { Vol.reset with
      st := if r.initNext < end_ then 1 else 2, pool := r.pool, lbaf := r.lbaf, key := r.key, kcv := r.kcv, blocks := r.blocks, nguid := r.nguid
      uninit := r.uninit, first := (s.mapRun r.vol r.slabs.length).getD 0, slabs := r.slabs, initNext := r.initNext, initEnd := end_ }

/-- LAY_DIRTY_LOST for a volume (R300). -/
def State.dirtyLost (s : State) (v cause n : Nat) : State :=
  ((s.updVol v fun x => { x with dirtyLost := true }).raise Ev.LAY_DIRTY_LOST v cause n).reliability v

/-- POOL_IMPORT: management firmware imports the pools once after a reset, by the steps of Table 9-13. -/
def State.poolImport (s : State) (im : Import) : State :=
  let ls := im.labels.filterMap fun (e : Nat × List Byte × List Byte) => (bestLabel e.2.1 e.2.2).map fun l => (e.1, l)
  let top := ls.foldl (fun a (e : Nat × List Byte) => max a (labelRun e.2)) 0
  -- The ruling label of each UUID.
  let rulers := ls.foldl (fun (a : List (List Byte)) (e : Nat × List Byte) =>
    match a.find? fun l => sliceB l 8 16 == sliceB e.2 8 16 with
    | some l => if labelRun l < labelRun e.2 then a.map (fun m => if m == l then e.2 else m) else a
    | none => a ++ [e.2]) []
  let header := im.header.filter fun (h : Nat × List Nat) => h.1 == top && !ls.isEmpty
  let journal := header.bind fun h => (im.journals.find? fun (j : Nat × List (List Byte)) => j.1 == h.1).map (·.2)
  let row : Nat := if header.isNone then 3 else if journal.isSome then 1 else 2
  let s := { s with lay := { s.lay with runGen := top + 1, imported := true } }
  let s := s.setFld Reg.LAY_STATUS Fd.LAY_STATUS_START row
  let s : State := rulers.foldl (fun (s : State) l => s.importPool im ls l) s
  let s := im.vols.foldl State.importVol s
  let s := { s with cmd := { s.cmd with resvs := im.resvs.foldl (fun t r =>
    Tab.wr (fun _ => Resv.reset) t r.vol { regs := r.regs, rtype := r.rtype, holder := r.holder, gen := r.gen, ptpl := true }) s.cmd.resvs } }
  let s : State := if row = 3 then s else im.lines.foldl State.importLine s
  let js := ((journal.getD []).map jentOf).filter fun j => j.st != 0 && (s.pool j.pool).st != 0
  let js := sortBy (fun (j : JEnt) => j.seq) js
  let s := { s with lay := { s.lay with
    journal := js.mapIdx fun i j => (i, j)
    jseq := js.foldl (fun (a : Nat) (j : JEnt) => max a (j.seq + 1)) s.lay.jseq } }
  let s := s.pools.foldl (fun (s : State) p =>
    let mine := s.lay.journal.filterMap fun (e : Nat × JEnt) => if e.2.pool = p then some (e.2.stripe, e.1) else none
    let full := row == 3 || (row == 2 && ((header.map (·.2)).getD []).getD p 0 != 0)
    let s := if full then s.startResync p true [] else s.startResync p false mine
    s.raise Ev.LAY_IMPORT_DONE p row (s.lay.runGen % 4294967296)) s
  s.vols.foldl (fun (s : State) v =>
    match (if row = 3 then none else im.summary) with
    | none => s.dirtyLost v (if row = 3 then 2 else 1) 0xFFFFFFFF
    | some t =>
      let want := ((t.find? fun (e : Nat × Nat) => e.1 == v).map (·.2)).getD 0
      if s.dirtyOf v < want then s.dirtyLost v 1 (want - s.dirtyOf v) else s) s

/-- POOL_IMPORT; in a paired shelf only a controller that has become ALONE imports (15 R439). -/
def execPoolImport (im : Import) (s : State) : Host.Outcome State Fault Refusal :=
  .next (if s.fwRuns && !s.lay.imported && (s.pairState == pairSingle || s.pairState == pairAlone) then s.poolImport im else s)

end Sys2Proof.Machine
end

