-- ==== Sys2Proof/Machine/Routine.lean ====
section
/-!
DEFINITION. Items in the ready queues (02 R32, R33), the drive transfers of a routine (12 R372 to R374), and what completes
outside the routines: memory-lane and parity requests.
-/

namespace Sys2Proof.Machine

open Sys2Proof

/-! ### Routine codes (02 Table 2-2) -/

def Rt.rxParse : Nat := 0x01
def Rt.cmdAdmit : Nat := 0x02
def Rt.lockCheck : Nat := 0x03
def Rt.mapXlate : Nat := 0x04
def Rt.cacheProbe : Nat := 0x05
def Rt.drvSubmit : Nat := 0x06
def Rt.drvReap : Nat := 0x07
def Rt.piCheck : Nat := 0x08
def Rt.xferArm : Nat := 0x09
def Rt.cplRetire : Nat := 0x0A
def Rt.cacheFill : Nat := 0x0B
def Rt.destageStep : Nat := 0x0C
def Rt.parityPlan : Nat := 0x0D
def Rt.journalPut : Nat := 0x0E
def Rt.journalRetire : Nat := 0x0F
def Rt.rebuildStep : Nat := 0x10
def Rt.scrubStep : Nat := 0x11
def Rt.resyncStep : Nat := 0x12
def Rt.metaFlush : Nat := 0x13
def Rt.selftestStep : Nat := 0x14
def Rt.adminStep : Nat := 0x15
def Rt.abortScan : Nat := 0x16
def Rt.dumpStep : Nat := 0x17
def Rt.suspendResp : Nat := 0x18

/-! ### Items -/

/-- The engines of cluster `k` run the plan: the sequencer runs and its tick 0 has begun, no dump plan is in force, no join holds (15 R465), and
the cluster serves. -/
def State.runsOn (s : State) (k : Nat) : Bool := s.itn.running && !s.itn.starting && !s.itn.dumpPlan && !s.joinHold && s.serves k

/-- The runs of class `c` on cluster `k` in the current tick, in engine and slot order. -/
def State.runsOf (s : State) (k c : Nat) : List SlotRun := s.itn.slots.filter fun r => r.engine / 8 == k && r.cls == c

/-- A run by its engine and first slot. -/
def SlotRun.key (r : SlotRun) : Nat × Nat := (r.engine, r.pos)

/-- The item is ready in the queue from which run `r` takes its items: of its cluster, class and chain (R32). -/
def State.inQueue (s : State) (r : SlotRun) (it : Item) : Bool :=
  it.cluster == r.engine / 8 && it.cls == r.cls && it.on.isNone && !it.passed && it.wait == .none && decide (it.ready ≤ s.now)
    && ((s.queueOf it.cls it.code it.leg).map (·.1)) == some r.chain

/-- The head of that queue. -/
def State.headOf (s : State) (r : SlotRun) : Option Item := minBy Item.key (s.cmd.items.filter (s.inQueue r))

/-- The item that run `r` serves and that has come to routine `code`: its legs follow one another on one engine. -/
def State.inRun (s : State) (r : SlotRun) (code : Nat) : Option Item :=
  s.cmd.items.find? fun it => it.on == some r.key && it.code == code && it.wait == .none && decide (it.ready ≤ s.now)

/-- What a run of routine `code` for class `c` on cluster `k` takes: an item that one of the runs of the tick already serves and that has come to
the routine, or the head of a run's queue when the run can start one more item (R31, R32). -/
def State.nextRun (s : State) (k c code : Nat) : Option (SlotRun × Item) :=
  if !s.runsOn k then none
  else
    (s.runsOf k c).findSome? fun r =>
      ((s.inRun r code) <|> (if r.left = 0 then none else (s.headOf r).filter (·.code == code))).map fun it => (r, it)

/-- The item, once run `r` serves it. -/
def State.begun (s : State) (r : SlotRun) (it : Item) : Item :=
  if it.on.isSome then it
  else { it with on := some r.key, step := ((s.queueOf it.cls it.code it.leg).map (·.2)).getD 0, eng := r.engine % 8 }

/-- Cycles of a leg of the chain of a run, at the extra count of the image (R30, R54). -/
def State.legCycles (s : State) (chain code leg : Nat) : Nat :=
  match s.chain chain with
  | none => 0
  | some ch => ((ch.legs.find? fun l => l.1 == code && l.2.1 == leg).bind legCost).getD 0

/-- A run has started an item: it can start one less. -/
def State.spend (s : State) (r : SlotRun) : State :=
  { (s.acc 14 (r.engine / 8) 1 1) with
    itn := { s.itn with slots := s.itn.slots.map fun x => if x.key = r.key then { x with left := x.left - 1, used := true } else x } }

/-- Run `r` takes the item for a leg: its cycles are counted, and an item that starts its chain is counted with them (18 Table 18-1, group 14). -/
def State.enter (s : State) (r : SlotRun) (it : Item) : State :=
  let s := s.acc 14 (r.engine / 8) 0 (s.legCycles r.chain it.code it.leg)
  let s := if it.on.isSome then s else s.spend r
  { s with cmd := { s.cmd with items := s.cmd.items.map fun x => if x = it then s.begun r it else x } }

/-- A run that can start new work with leg 1 of routine `code`: a run of a chain that begins with it, with no item ready in its queue. -/
def State.openRun (s : State) (k c code : Nat) : Option SlotRun :=
  if !s.runsOn k then none
  else
    (s.runsOf k c).find? fun r => decide (0 < r.left) && (s.headOf r).isNone
      && (match s.chain r.chain with | some ch => ch.legFrom 0 code 1 == some 0 | none => false)

/-- The item as it goes on to leg `leg` of routine `code`, ready from tick `at_`. A later leg of the chain of the run that serves it follows in the
same run. Any other leg is a leg record: it enters a ready queue at the hand-off, for the next tick (R27, R32), but that of a further invocation
in the same chain (R36) follows as a further item. -/
def State.onward (s : State) (it : Item) (code leg : Nat) (wait : Wait) (at_ : Nat) : Item :=
  let it' : Item := { it with code := code, leg := leg, wait := wait, ready := at_, input := false, why := 0, passed := false }
  match it.on with
  | none => it'
  | some key =>
    let chain := (s.itn.slots.find? fun r => r.key == key).bind fun r => s.chain r.chain
    match chain.bind fun ch => ch.legFrom (it.step + 1) code leg with
    | some j => { it' with step := j }
    | none =>
      if (chain.bind fun ch => ch.legFrom 0 code leg).isSome then { it' with on := none, step := 0 }
      else { it' with on := none, step := 0, ready := if wait = .none then max at_ (s.now + 1) else at_ }

/-- The item goes on to leg `leg` of routine `code`. -/
def State.advance (s : State) (it : Item) (code leg : Nat) (wait : Wait) (at_ : Nat) : State :=
  { s with cmd := { s.cmd with items := s.cmd.items.erase it ++ [s.onward it code leg wait at_] } }

def State.endItem (s : State) (it : Item) : State := { s with cmd := { s.cmd with items := s.cmd.items.erase it } }

/-- The item's leg is ready again in the next tick: what it waits for is looked at tick by tick. -/
def State.later (s : State) (it : Item) : State := s.advance it it.code it.leg .none (s.now + 1)

/-- A run of a routine: the item it takes, if there is one. -/
def State.run (s : State) (k : Fin 12) (c : Fin 256) (code : Nat) (body : Item → State → State) : State :=
  match s.nextRun k.val c.val code with
  | none => s
  | some (r, it) => body (s.begun r it) (s.enter r it)

/-- The pool that class `c` serves, when it is a pool class. -/
def State.classPool (s : State) (c : Nat) : Option Nat :=
  match s.img.cls c with
  | some e => if e.kind = 3 ∧ (s.pool e.pool).st ≠ 0 then some e.pool else none
  | none => none

/-! ### Memory lanes and parity units (02 R20, R33, R43) -/

/-- The oldest memory-lane request of the items completes: the item's next leg is ready two ticks after its posting. -/
def State.laneDone (s : State) : State :=
  match s.cmd.items.find? fun it => match it.wait with | .lane _ => true | _ => false with
  | none => s
  | some it =>
    let t := match it.wait with | .lane p => p + 2 | _ => s.now
    { s with cmd := { s.cmd with items := s.cmd.items.map fun x => if x = it then { it with wait := .none, ready := t } else x } }

/-- MEMORY_LANE_COMPLETE. -/
def execMemoryLaneComplete (s : State) : Host.Outcome State Fault Refusal := .next s.laneDone

/-- Tags whose data the ref has used are free (12 R374). -/
def State.releaseRef (s : State) (r : Ref) : State :=
  (s.cmdsThat fun c => c.ref == r && c.st == 2).foldl (fun s (e : Nat × DrvCmd) => s.freeTag e.1) s

/-- Units that a parity request takes as its input: those read and the new ones, or those that it forms the parity of. -/
def State.parityUnits (s : State) (r : Ref) : Nat :=
  match r with
  | .work id =>
    (match s.work? id with
     | some w => if w.vals.isEmpty && w.new.isEmpty then w.puts.length else w.vals.length + w.new.length
     | none => 0)
  | .wb w => (s.wb w).got.length
  | .cap _ => 0

/-- A request is posted to the parity unit of cluster `k`. -/
def State.postParity (s : State) (k : Nat) (r : Ref) : State :=
  let s := (s.acc 14 k 4 (s.parityUnits r * 4160)).parityAdd k (s.parityUnits r * 4160)
  { s with lay := { s.lay with parity := s.lay.parity ++ [{ cluster := k, ref := r, posted := s.now }] } }

/-- The oldest request of the parity unit of cluster `k` completes. -/
def State.parityDone (s : State) (k : Nat) : State :=
  match s.lay.parity.find? (·.cluster == k) with
  | none => s
  | some q => ((({ s with lay := { s.lay with parity := s.lay.parity.erase q } }).releaseRef q.ref).wakeRef q.ref)

/-- PARITY_REQUEST_COMPLETE on cluster `k`. -/
def execParityRequestComplete (k : Fin 12) (s : State) : Host.Outcome State Fault Refusal := .next (s.parityDone k.val)

/-! ### Member transfers (12 R373, R376) -/

/-- A unit to read or write: its bay, member LBA, its key and, for a write, its bytes. -/
structure Xfer where
  bay : Nat
  lba : Nat
  key : Nat × Nat × Nat
  data : List Byte

/-- The transfers at the head of the list that one command covers: at most `cap` at consecutive LBAs of one bay. -/
def splitRun (cap bay lba : Nat) : List Xfer → List Xfer × List Xfer
  | [] => ([], [])
  | x :: xs =>
    if cap = 0 ∨ x.bay ≠ bay ∨ x.lba ≠ lba then ([], x :: xs)
    else
      let r := splitRun (cap - 1) bay (lba + 1) xs
      (x :: r.1, r.2)

/-- What a run of DRV_SUBMIT comes to: the state, the transfers left, the entries written, and what the next one lacks (`Item.why`), 0 when it
stopped at the most entries of an invocation. -/
structure Submitted where
  st : State
  left : List Xfer
  sent : Nat
  why : Nat

/-- Commands are submitted for the transfers, at most `n` of them; the rest is left, with the resource that is lacking. `p` is the pool whose
host-path bytes they count in (10 R314). -/
def State.submitMany (ref : Ref) (k p : Nat) (write maint : Bool) : Nat → List Xfer → State → Submitted
  | 0, xs, s => { st := s, left := xs, sent := 0, why := 0 }
  | _, [], s => { st := s, left := [], sent := 0, why := 0 }
  | n + 1, x :: xs, s =>
    let r := splitRun (s.unitsMax x.bay) x.bay x.lba (x :: xs)
    let c : DrvCmd := { bay := x.bay, queue := 0, cluster := k, write := write, maint := maint, lba := x.lba, units := r.1.length, ref := ref,
                        keys := r.1.map (·.key), buf := r.1.flatMap (·.data), tick := 0, st := 0, status := 0, dnr := false, crd := 0,
                        abort := none, latched := 0, slot := 0 }
    match s.submit c with
    | .ok s =>
      let s := if maint then s else s.updPool p fun P => { P with hostBytes := P.hostBytes + r.1.length * unitBytes }
      let t := State.submitMany ref k p write maint n r.2 s
      { t with sent := t.sent + 1 }
    | .noTag => { st := s, left := x :: xs, sent := 0, why := 5 }
    | .noSlot => { st := s, left := x :: xs, sent := 0, why := 6 }
    | .noMnt => { st := s, left := x :: xs, sent := 0, why := 7 }

/-- Commands of a ref that have not been reaped, and those that a run of DRV_REAP can consume: latched in an earlier tick. -/
def State.refCmds (s : State) (r : Ref) : List (Nat × DrvCmd) := s.cmdsThat fun c => c.ref == r && decide (c.st ≤ 1)
def State.refLatched (s : State) (r : Ref) : List (Nat × DrvCmd) :=
  ((s.refCmds r).filter fun (e : Nat × DrvCmd) => e.2.st == 1 && decide (e.2.latched < s.now)).take 8

/-- An item that has submitted commands waits for their completions; one whose commands have all ended at once does not. -/
def State.toReap (s : State) (it : Item) : State :=
  if (s.refCmds it.ref).any (fun (e : Nat × DrvCmd) => e.2.st == 1) || (s.refCmds it.ref).isEmpty then s.advance it Rt.drvReap 1 .none (s.now + 1)
  else s.advance it Rt.drvReap 1 .event s.now

/-- The bytes of unit `i` of a read command; a drive that has written less leaves the rest as it was. -/
def DrvCmd.unit (c : DrvCmd) (i : Nat) : List Byte :=
  let b := sliceB c.buf (unitBytes * i) unitBytes
  b ++ (List.range (unitBytes - b.length)).map fun j => Config.staleByte (unitBytes * i + b.length + j)

/-- The tick from which a failed write may be retried (12 Table 12-5). -/
def State.retryAt (s : State) (c : DrvCmd) : Nat :=
  if c.status = drvPath ∨ c.crd = 0 then s.now
  else c.latched + ceilDiv ((s.bay c.bay).ident.crdt.getD (c.crd - 1) 0 * 100 * 1000000) 1024

end Sys2Proof.Machine
end

