-- ==== Sys2Proof/Machine/PoolWork.lean ====
section
/-!
DEFINITION. The routines of pool work: destage (09 R288 to R292), the journal (R294), rebuild, scrub, resynchronisation,
initialisation, sanitize and marking (09 R278, R297, R298; 10 R308, R315 to R318, R321, R323), and META_FLUSH (R276).
-/

namespace Sys2Proof.Machine

open Sys2Proof

/-! ### Rows -/

/-- The units of row `r` that a work item has read, by position. -/
def Work.rowVals (w : Work) (r : Nat) : List (Nat × List Byte) :=
  w.vals.filterMap fun u => if u.stripe = w.stripe ∧ u.row = r then some (u.pos, u.data) else none

/-- Positions of row `r` that are missing: their member is, or a read of them has failed. -/
def Pool.absent (P : Pool) (w : Work) (r : Nat) : List Nat :=
  (List.range P.w).filter fun j => (P.unitLoc w.stripe r j).isNone || w.bad.contains (w.stripe, r, j)
def Pool.present (P : Pool) (w : Work) (r : Nat) : List Nat := (List.range P.w).filter fun j => !(P.absent w r).contains j

/-- A whole row: recovered, or of a lost stripe with the poison unit for every missing data unit (10 R316). -/
def rowFill (k : Nat) (lost : Bool) (vals : List (Nat × List Byte)) : Option (List (Nat × List Byte)) :=
  match rowAll k vals with
  | some f => some f
  | none =>
    if lost then
      let ds := (List.range k).map fun j => (j, (rowAt vals j).getD poisonUnit)
      some (ds ++ [(k, sumP ds), (k + 1, sumQ ds)])
    else none

/-- Data unit `x` of a row agrees when it is recovered once from P and once from Q (09 R297). -/
def crossCheck (k x : Nat) (vals : List (Nat × List Byte)) : Bool :=
  let d (drop : Nat) := (rowData k (vals.filter fun (e : Nat × List Byte) => e.1 != drop)).bind (rowAt · x)
  d (k + 1) == d k

/-! ### Destage: planning (R289, R290) -/

inductive RowPlan where
  | full | rmw | rcw | degraded | beyond
deriving DecidableEq, Repr

/-- New data units of row `r`, and the plan of the row. -/
def Work.dirtyAt (w : Work) (r : Nat) : List Nat := (w.new.filter fun u => u.row == r).map (·.pos)
def Pool.rowPlan (P : Pool) (w : Work) (r : Nat) : RowPlan :=
  let d := (w.dirtyAt r).length
  let n := (P.absent w r).length
  if 2 < n ∧ ¬ P.isLost w.stripe then .beyond
  else if n ≠ 0 then .degraded
  else if d = P.k then .full
  else if d + 2 ≤ P.k - d ∧ ¬ P.unsynced w.stripe then .rmw
  else .rcw

/-- Positions that the plan of row `r` reads. -/
def Pool.rowReads (P : Pool) (w : Work) (r : Nat) : List Nat :=
  let ds := w.dirtyAt r
  let part := (w.partials.filter fun (e : Nat × Nat × Nat) => e.1 == r).map (·.2.1)
  match P.rowPlan w r with
  | .beyond => []
  | .degraded => P.present w r
  | .full => part
  | .rmw => ds ++ [P.k, P.k + 1]
  | .rcw => (List.range P.k).filter fun j => !ds.contains j || part.contains j

/-- Units that a destage or repair still has to read. -/
def Pool.destageNeed (P : Pool) (w : Work) : List (Nat × Nat × Nat) :=
  (w.rows.flatMap fun r => (P.rowReads w r).map fun j => (w.stripe, r, j)).filter fun u =>
    !w.vals.any fun v => v.stripe == u.1 && v.row == u.2.1 && v.pos == u.2.2

/-- What a planned row writes: the units, and the values kept as shadow lines. -/
def Pool.rowWrites (P : Pool) (w : Work) (r : Nat) : List UnitVal × List (Nat × List Byte) :=
  let k := P.k
  let vals := w.rowVals r
  let full := if P.rowPlan w r = .degraded then rowFill k (P.isLost w.stripe) vals else none
  let oldOf (j : Nat) : Option (List Byte) := match full with | some f => rowAt f j | none => rowAt vals j
  let newOf (j : Nat) : Option (List Byte) :=
    (w.new.find? fun u => u.row == r && u.pos == j).map fun u =>
      match w.partials.find? fun (e : Nat × Nat × Nat) => e.1 == r && e.2.1 == j with
      | some e => mergeUnit e.2.2 u.data ((oldOf j).getD zeroUnit)
      | none => u.data
  let data := (List.range k).map fun j => (j, ((newOf j) <|> (oldOf j)).getD zeroUnit)
  let ds := w.dirtyAt r
  let deltas := ds.map fun j => (j, xorB ((oldOf j).getD zeroUnit) ((newOf j).getD zeroUnit))
  let p := if P.rowPlan w r = .rmw then xorB ((rowAt vals k).getD zeroUnit) (sumP deltas) else sumP data
  let q := if P.rowPlan w r = .rmw then xorB ((rowAt vals (k + 1)).getD zeroUnit) (sumQ deltas) else sumQ data
  let row := data ++ [(k, p), (k + 1, q)]
  let repaired := (w.media.filter fun (u : Nat × Nat × Nat) => u.2.1 == r).map (·.2.2)
  let written := (ds ++ (if ds.isEmpty then [] else [k, k + 1]) ++ repaired).eraseDups
  let here (j : Nat) : Bool := (P.unitLoc w.stripe r j).isSome
  ((written.filter here).map fun j => { stripe := w.stripe, row := r, pos := j, data := (rowAt row j).getD zeroUnit },
   if ds.isEmpty then [] else (data.filter fun (e : Nat × List Byte) => !here e.1))

/-! ### DESTAGE_STEP (R288) -/

/-- Rows of a stripe that can be destaged: at most two members missing, or the stripe is marked lost. -/
def Pool.rowOpen (P : Pool) (st r : Nat) : Bool :=
  P.isLost st || decide (((List.range P.w).filter fun j => (P.unitLoc st r j).isNone).length ≤ 2)

/-- The dirty lines of a stripe that a destage takes: of a row with more than two units missing, those on present members. -/
def State.takeable (s : State) (p st : Nat) : List (Nat × Nat × Nat) :=
  let P := s.pool p
  (s.dirtyIn p st).filter fun (l : Nat × Nat × Nat) =>
    P.rowOpen st l.2.1 && ((P.unitLoc st l.2.1 l.2.2).isSome
      || decide (((List.range P.w).filter fun j => (P.unitLoc st l.2.1 j).isNone).length ≤ 2))

/-- A REDO stripe may be taken again: its bay is no longer recovering, and the retry delay has passed (12 R376, Table 12-5). -/
def State.redoOpen (s : State) (e : DirtyStripe) : Bool :=
  decide (e.after ≤ s.now) && (match e.bay with | none => true | some b => s.bayState b != dbRecovering)

/-- Stripes that a DESTAGE_STEP can take, in order: those with a WT line first, then the list. -/
def State.destageOrder (s : State) (p : Nat) : List DirtyStripe :=
  let open_ := (s.pool p).dirty.filter fun e => !s.stripeHeld p e.stripe && s.redoOpen e && (e.redo.isSome || !(s.takeable p e.stripe).isEmpty)
  let wt (e : DirtyStripe) : Bool := (s.dirtyIn p e.stripe).any fun (l : Nat × Nat × Nat) => (s.line l.1).wt
  open_.filter wt ++ open_.filter fun e => !wt e

/-- A condition of R288 holds for a stripe. -/
def State.destageDue (s : State) (p : Nat) (e : DirtyStripe) : Bool :=
  let ls := s.dirtyIn p e.stripe
  e.redo.isSome || ls.any (fun (l : Nat × Nat × Nat) => (s.line l.1).wt) || ls.length == (s.pool p).d
    || decide (e.tick + s.fld Reg.LAY_CACHE_HOLD Fd.LAY_CACHE_HOLD_HOLD_TICKS ≤ s.now)
    || decide (s.fld Reg.LAY_CACHE_CFG Fd.LAY_CACHE_CFG_DESTAGE_THR * s.dirtyEff < 100 * s.dirtyLines)

/-- The stripe is taken: its dirty lines are copied with their WGEN, and its plan begins. -/
def State.takeStripe (s : State) (p k : Nat) (e : DirtyStripe) : State :=
  let ls := s.takeable p e.stripe
  let w : Work := { (Work.of .destage p e.stripe) with
    rows := (ls.map fun (l : Nat × Nat × Nat) => l.2.1).eraseDups
    new := ls.map fun (l : Nat × Nat × Nat) => { stripe := e.stripe, row := l.2.1, pos := l.2.2, data := (s.line l.1).data }
    partials := (ls.filter fun (l : Nat × Nat × Nat) => (s.line l.1).valid != 255).map fun (l : Nat × Nat × Nat) => (l.2.1, l.2.2, (s.line l.1).valid)
    lines := ls.map fun (l : Nat × Nat × Nat) => (l.1, (s.line l.1).wgen)
    jslot := e.redo, redo := e.redo.isSome }
  let s := ls.foldl (fun s (l : Nat × Nat × Nat) => s.updLine l.1 fun x => { x with st := .destaging }) s
  let s := s.updPool p fun P => { P with dirty := P.dirty.filter fun x => x.stripe != e.stripe }
  s.newWork w k Rt.parityPlan (s.laneWait Rt.destageStep) s.now

/-- What leg 1 of a routine starts for a pool: new work of pool `p`, when there is some. -/
abbrev Starts := State → (p : Nat) → Option State

/-- Run `r` starts new work with leg 1 of routine `code`, which reads 64 B (Table 2-2). -/
def State.openStart (s : State) (r : SlotRun) (code : Nat) : State :=
  ((s.acc 14 (r.engine / 8) 0 (s.legCycles r.chain code 1)).spend r).lanePost r.engine r.cls 64

/-- New work that a run of class `c` on cluster `k` starts with routine `code`. -/
def State.startRun (s : State) (k c code : Nat) (start : Starts) : State :=
  match s.openRun k c code, s.classPool c with
  | some r, some p =>
    (match start s p with
     | some t => t.openStart r code
     | none => s)
  | _, _ => s

/-- A run of a pool routine: the item it takes, or else new work. -/
def State.poolRun (s : State) (k c code : Nat) (leg : Item → State → State) (start : Starts) : State :=
  match s.nextRun k c code with
  | some (r, it) => leg (s.begun r it) (s.enter r it)
  | none => s.startRun k c code start

/-- The first stripe in order, when R288 lets it go and it is placed on cluster `k`. -/
def State.beginDestage (k : Nat) : Starts := fun s p =>
  match (s.destageOrder p).head? with
  | some e => if s.destageDue p e && s.poolCluster p e.stripe == k then some (s.takeStripe p k e) else none
  | none => none

/-- DESTAGE_STEP on cluster `k` for class `c`. -/
def State.destageStep (s : State) (k c : Nat) : State := s.startRun k c Rt.destageStep (State.beginDestage k)

def execDestageStep (k : Fin 12) (c : Fin 256) (s : State) : Host.Outcome State Fault Refusal := .next (s.destageStep k.val c.val)

/-! ### The end of an item of pool work -/

/-- The shadow lines of a work item are freed. -/
def State.dropShadows (s : State) (is : List Nat) : State := is.foldl (fun s i => s.setLine i Line.reset) s

/-- Lines that a destage had copied become dirty again, and their stripe is on the list. -/
def State.linesBack (s : State) (w : Work) : State :=
  let s := w.lines.foldl (fun s (l : Nat × Nat) => s.updLine l.1 fun x => if x.st = .destaging then { x with st := .dirty } else x) s
  if (s.dirtyIn w.pool w.stripe).isEmpty then s else s.addDirty w.pool w.stripe s.now

/-- One stripe of an activity is done. -/
def State.actDone (s : State) (p id : Nat) : State := s.updPool p fun P => P.updAct id fun a => { a with done := a.done + 1 }

/-- What waited for a flush goes on. -/
def State.flushed (s : State) (p : Nat) (f : FlushFor) : State :=
  match f with
  | .vol v => s.volFlushed v
  | .act id => s.updPool p fun P => P.updAct id fun a => if a.recSt = 1 then { a with recSt := 2 } else a
  | .wb w => s.wakeWb w
  | .mark st cause => s.updPool p fun P => { P with poison := P.poison ++ [(st, cause)] }

/-- A journal entry and its shadow lines are retired. -/
def State.retireEntry (s : State) (slot : Nat) (shadows : List Nat) : State := (s.setJent slot JEnt.reset).dropShadows shadows

/-- Shadow lines of a stripe, as slot, row and position. -/
def State.shadowsOf (s : State) (p st : Nat) : List (Nat × Nat × Nat) :=
  s.lay.lines.filterMap fun (e : Nat × Line) =>
    if e.2.st = .shadow ∧ (s.vol e.2.vol).pool = p then
      let a := s.unitPlace e.2.vol e.2.unit
      if a.1 = st then some (e.1, a.2.1, a.2.2) else none
    else none

/-- The counts and marks of a work item that has ended. -/
def State.workCounts (s : State) (w : Work) (copied : Bool) : State :=
  match w.kind with
  | .rebuild a => ((if copied then s.cntMnt 1 1 else s.cntMnt 0 1)).actDone w.pool a
  | .scrub a => (s.cntMnt 2 1).actDone w.pool a
  | .sanitize a => ((s.cntMnt 6 1).updPool w.pool fun P => P.clearLost w.stripe).actDone w.pool a
  | .init v => (s.updVol v fun x => { x with initFly := x.initFly - 1 }).updPool w.pool fun P => P.clearLost w.stripe
  | .resync slot =>
    let s := match slot with
      | some i => s.retireEntry i ((s.shadowsOf w.pool w.stripe).map fun (e : Nat × Nat × Nat) => e.1)
      | none => s
    (s.cntLay 13 1).updPool w.pool fun P => { P with resync := P.resync.map fun (r : Resync) => { r with left := r.left - 1 } }
  | .flush _ => w.fors.foldl (fun s f => s.flushed w.pool f) s
  | _ => s

/-- A work item ends. -/
def State.endWork (s : State) (it : Item) (w : Work) (copied : Bool) : State :=
  (((s.endItem it).releaseRef it.ref).dropWork w.id).workCounts w copied

/-! ### PARITY_PLAN -/

/-- Rows beyond parity leave the destage: their lines stay dirty and the stripe is to be marked lost (R290, 10 R315). -/
def State.dropRows (s : State) (w : Work) (rows : List Nat) : State :=
  let mine (l : Nat × Nat) : Bool := rows.contains (s.unitPlace (s.line l.1).vol (s.line l.1).unit).2.1
  let back := w.lines.filter mine
  let s := back.foldl (fun s (l : Nat × Nat) => s.updLine l.1 fun x => { x with st := .dirty }) s
  let s := s.updWork w.id fun w => { w with
    rows := w.rows.filter (fun r => !rows.contains r), new := w.new.filter (fun u => !rows.contains u.row)
    partials := w.partials.filter (fun (e : Nat × Nat × Nat) => !rows.contains e.1)
    lines := w.lines.filter (fun l => !(back.contains l)) }
  s.wantMark w.pool w.stripe (if w.kind = .repair then 2 else 3)

/-- A destage with nothing left to do: a REDO entry retires with it. -/
def State.emptyDestage (s : State) (it : Item) (w : Work) : State :=
  match w.jslot with
  | some _ => s.advance it Rt.journalRetire 1 .none s.now
  | none => (s.endWork it w false).linesBack w

/-- Leg 1: the rows are planned and the reads named. Leg 2: the new units are formed, and the parity request is posted. -/
def State.parityPlan (it : Item) (s : State) : State :=
  match it.ref with
  | .work id =>
    (match s.work? id with
     | none => s.endItem it
     | some w =>
       let P := s.pool w.pool
       if it.leg = 1 then
         let gone := w.rows.filter fun r => P.rowPlan w r == .beyond
         let s := if gone.isEmpty then s else s.dropRows w gone
         let w := (s.work? id).getD w
         let need := P.destageNeed w
         if w.rows.isEmpty then s.emptyDestage it w
         else if need.isEmpty then (s.updWork id fun w => { w with st := .reading }).advance it Rt.parityPlan 2 .none s.now
         else (s.updWork id fun w => { w with st := .reading, need := need }).advance it Rt.drvSubmit 1 .none s.now
       else
         let plans := w.rows.map fun r => P.rowPlan w r
         let n (x : RowPlan) : Nat := (plans.filter (· == x)).length
         let s := if w.kind = .destage then (((s.cntLay 0 (n .full)).cntLay 1 (n .rmw)).cntLay 2 (n .rcw)).cntLay 3 (n .degraded) else s
         let outs := w.rows.map fun r => (r, P.rowWrites w r)
         let puts := outs.flatMap fun (o : Nat × List UnitVal × List (Nat × List Byte)) => o.2.1
         let shadow := outs.flatMap fun (o : Nat × List UnitVal × List (Nat × List Byte)) =>
           o.2.2.map fun (e : Nat × List Byte) => ({ stripe := w.stripe, row := o.1, pos := e.1, data := e.2 } : UnitVal)
         let repairs := (w.media.filter fun u => puts.any fun x => x.row == u.2.1 && x.pos == u.2.2 && !(w.dirtyAt x.row).contains x.pos).length
         ((((s.cntLay 5 repairs).updWork id fun w => { w with st := .parity, puts := puts, need := [], new := if w.kind = .destage then shadow else [] }).postParity
           it.cluster it.ref).advance it Rt.journalPut 1 .event s.now))
  | _ => s.endItem it

def execParityPlan (k : Fin 12) (c : Fin 256) (s : State) : Host.Outcome State Fault Refusal :=
  .next (s.run k c Rt.parityPlan State.parityPlan)

/-! ### JOURNAL_PUT and JOURNAL_RETIRE (R294) -/

/-- KIND of a journal entry: 0 destage (a marking's writes as one), 1 repair, 2 initialisation (a sanitize's writes as one). -/
def Work.jkind (w : Work) : Nat :=
  match w.kind with
  | .repair => 1
  | .scrub _ => 1
  | .init _ => 2
  | .sanitize _ => 2
  | _ => 0

/-- ROWS of an entry: all set when U ≤ 32. -/
def Pool.rowBits (P : Pool) (rows : List Nat) : Nat :=
  if P.u ≤ 32 then 0xFFFFFFFF
  else ((rows.map fun r => r / (P.u / 32)).eraseDups).foldl (fun a i => a + 2 ^ (i % 32)) 0

/-- A shadow line is written for one missing unit (R292). -/
def State.putShadow (s : State) (w : Work) (u : UnitVal) : State :=
  match s.unitOwner w.pool u.stripe u.row u.pos with
  | none => s
  | some (v, t) =>
    let (i, s) := s.freeSlot
    (s.setLine i { Line.reset with st := .shadow, vol := v, unit := t, valid := 255, firstDirty := s.now, data := u.data }).updWork w.id
      fun w => { w with shadows := w.shadows ++ [i] }

/-- The entry of a stripe is put into the lowest free slot, or its REDO slot; without a slot the stripe waits at the head
of its queue (R294). -/
def State.journalPut (it : Item) (s : State) : State :=
  match it.ref with
  | .work id =>
    (match s.work? id with
     | none => s.endItem it
     | some w =>
       let slot := w.jslot.getD (Tab.lowest s.lay.journal)
       if journalSlots ≤ slot then s.stay it 8 false
       else
         let P := s.pool w.pool
         let old := match w.jslot with | some _ => (s.shadowsOf w.pool w.stripe).map (·.1) | none => []
         let s := (s.dropShadows old).updWork id fun w => { w with shadows := [] }
         let s := (if w.kind = .destage then w.new else []).foldl (fun s u => s.putShadow w u) s
         let shadows := ((s.work? id).map (·.shadows)).getD []
         let rows := (w.puts.map (·.row)).eraseDups
         let e : JEnt :=
           { st := if w.redo then 2 else 1, pool := w.pool, kind := w.jkind, degraded := rows.any fun r => !(P.absent w r).isEmpty
             rows := P.rowBits rows, stripe := w.stripe
             positions := ((w.puts.map (·.pos)).eraseDups).foldl (fun a j => a + 2 ^ (j % 32)) 0
             shadow := shadows.headD 0xFFFFFFFF, seq := s.lay.jseq }
         let s := s.setJent slot e
         let s := { s with lay := { s.lay with jseq := s.lay.jseq + 1 } }
         ((s.updWork id fun w => { w with st := .journalled, jslot := some slot }).lane it 128 0).advance it Rt.drvSubmit 1 (s.laneWait Rt.journalPut) s.now)
  | _ => s.endItem it

def execJournalPut (k : Fin 12) (c : Fin 256) (s : State) : Host.Outcome State Fault Refusal :=
  .next (s.run k c Rt.journalPut State.journalPut)

/-- A line of a retired destage: CLEAN when its WGEN is the recorded one, otherwise DIRTY (Table 9-10). -/
def State.retireLine (s : State) (l : Nat × Nat) : State :=
  s.updLine l.1 fun x => if x.st = .destaging then { x with st := if x.wgen = l.2 then .clean else .dirty, wt := x.wt && x.wgen != l.2 } else x

/-- The entry retires, the lines are marked, and the stripe is free again; a stripe whose every data unit was written loses its mark. -/
def State.journalRetire (it : Item) (s : State) : State :=
  match it.ref with
  | .work id =>
    (match s.work? id with
     | none => s.endItem it
     | some w =>
       let P := s.pool w.pool
       let s := match w.jslot with | some i => (s.lane it 192 0).retireEntry i w.shadows | none => s
       let s := w.lines.foldl State.retireLine s
       let s := if w.kind = .destage ∧ w.lines.length = P.d then s.updPool w.pool fun P => P.clearLost w.stripe else s
       let s := s.endWork it w false
       if w.kind = .destage ∧ ¬ (s.dirtyIn w.pool w.stripe).isEmpty then s.addDirty w.pool w.stripe s.now else s)
  | _ => s.endItem it

def execJournalRetire (k : Fin 12) (c : Fin 256) (s : State) : Host.Outcome State Fault Refusal :=
  .next (s.run k c Rt.journalRetire State.journalRetire)

/-- A destage write failed: the entry stays, the lines stay dirty, and the stripe heads the list with REDO set (Table 9-11, R291). -/
def State.redoDestage (s : State) (it : Item) (w : Work) : State :=
  let s := (s.linesBack w).endItem it
  let s := (s.releaseRef it.ref).dropWork w.id
  let bay := w.failed.map (·.1)
  let after := ((w.failed).map (·.2)).getD 0
  let s := match w.jslot with | some i => s.setJent i { s.jent i with st := 2 } | none => s
  s.updPool w.pool fun P =>
    { P with dirty := { stripe := w.stripe, tick := 0, redo := w.jslot, bay := bay, after := after } :: P.dirty.filter fun e => e.stripe != w.stripe }

/-! ### Transfers of pool work -/

/-- Whether the commands of a work item are maintenance commands (12 R370). -/
def WorkKind.maint : WorkKind → Bool
  | .destage => false
  | .repair => false
  | .dump => false
  | _ => true

/-- Where a unit is written: its member; for a rebuild, its destination when the slot is not present; for a marking, wherever it lies
or has a destination (10 R308, R316). -/
def Pool.putLoc (P : Pool) (k : WorkKind) (u : UnitVal) : Option (Nat × Nat) :=
  let f := P.frameOf u.stripe
  let z := P.memberAt f (P.stripPos u.stripe u.pos)
  let dest := (P.dest f z).map fun d => if d.1 = z then ((P.slot z).target.getD 0xFF) else (P.slot d.1).bay
  let bay := match k with
    | .rebuild _ => if (P.slot z).st = SlotSt.present then some (P.slot z).bay else dest
    | .mark _ => (P.holder f z) <|> dest
    | _ => P.holder f z
  bay.map fun b => (b, P.lba f u.row)

/-- A work item has come to its writes. -/
def Work.putting (w : Work) : Bool := w.st != .reading && w.st != .planned
/-- The transfers that a work item has still to submit: writes once it has come to them, reads before. -/
def State.workXfers (s : State) (w : Work) : Bool × List Xfer :=
  let P := s.pool w.pool
  if !w.raw.isEmpty then (true, w.raw.map fun (e : Nat × Nat × List Byte) => { bay := e.1, lba := e.2.1, key := (0, 0, 0), data := e.2.2 })
  else if w.putting then
    (true, w.puts.filterMap fun u => (P.putLoc w.kind u).map fun l => { bay := l.1, lba := l.2, key := (u.stripe, u.row, u.pos), data := u.data })
  else
    (false, w.need.filterMap fun u => (P.unitLoc u.1 u.2.1 u.2.2).map fun l => { bay := l.1, lba := l.2, key := u, data := [] })

/-- The code with which a work item goes on once its reads have been reaped. -/
def State.afterReads (s : State) (it : Item) (w : Work) : State :=
  let at_ := s.now
  match w.kind with
  | .destage => s.advance it Rt.parityPlan (if ((s.pool w.pool).destageNeed w).isEmpty then 2 else 1) .none at_
  | .repair => s.advance it Rt.parityPlan (if ((s.pool w.pool).destageNeed w).isEmpty then 2 else 1) .none at_
  | .rebuild _ => s.advance it Rt.rebuildStep 2 .none at_
  | .scrub _ => s.advance it Rt.scrubStep 2 .none at_
  | .test _ _ => s.advance it Rt.selftestStep 1 .none at_
  | .flush _ => s.endWork it w false
  | .dump => s.endWork it w false
  | _ => s.advance it Rt.resyncStep 2 .none at_

/-- The code with which a work item goes on once its writes have been reaped: a failed destage is redone, another failed write is
retried, a journalled entry retires, and the rest has ended. -/
def State.afterWrites (s : State) (it : Item) (w : Work) : State :=
  match w.kind, w.failed with
  | .destage, some _ => s.redoDestage it w
  | .repair, some _ => s.redoDestage it w
  | _, some _ => (s.updWork w.id fun w => { w with puts := w.vals, vals := [] }).advance it Rt.drvSubmit 1 .none (s.now + 1)
  | _, none =>
    if w.jslot.isSome then s.advance it Rt.journalRetire 1 .none s.now
    else s.endWork it w w.redo

/-- DRV_SUBMIT of pool work: up to eight commands; with some left the item stays at the head of its queue for a later run (12 R373). A retry waits until its bay has recovered. -/
def State.submitWork (it : Item) (w : Work) (s : State) : State :=
  let held := match w.failed with | some f => decide (s.now < f.2) || s.bayState f.1 == dbRecovering | none => false
  if held then s.later it
  else
    let s := s.updWork w.id fun w => { w with failed := none }
    let x := s.workXfers w
    let start := w.putting
    let s := if start && w.st != .writing then s.updWork w.id fun w => { w with st := .writing, vals := [] } else s
    let w := (s.work? w.id).getD w
    if x.2.isEmpty then
      (if start then (if (s.refCmds it.ref).isEmpty then (s.updWork w.id fun w => { w with puts := [] }).afterWrites it { w with puts := [] } else s.toReap it)
       else if (s.refCmds it.ref).isEmpty then (s.updWork w.id fun w => { w with need := [] }).afterReads it { w with need := [] } else s.toReap it)
    else
      let r := s.submitMany it.ref it.cluster w.pool x.1 w.kind.maint 8 x.2
      let keys := r.left.map (·.key)
      let raws := r.left.map fun x => (x.bay, x.lba, x.data)
      let s := (r.st.lane it (64 * r.sent) 0).updWork w.id fun w =>
        { w with raw := if w.raw.isEmpty then [] else raws
                 puts := w.puts.filter (fun u => keys.contains (u.stripe, u.row, u.pos)), need := w.need.filter (fun u => keys.contains u) }
      let s := match w.kind with
        | .rebuild a => if x.1 then s.updPool w.pool fun P => P.updAct a fun a => { a with wrote := true } else s
        | _ => s
      if r.left.isEmpty then s.toReap it else s.stay it r.why false

/-- One reaped command of pool work. A read that failed, or whose member has become MISSING, makes its units missing; a media error is
remembered for the rewrite. A write that failed, or whose member has become MISSING, is counted. -/
def State.reapWork (id : Nat) (s : State) (e : Nat × DrvCmd) : State :=
  match s.work? id with
  | none => s.freeTag e.1
  | some w =>
    let c := e.2
    let P := s.pool w.pool
    if c.write then
      let gone := w.raw.isEmpty && !c.keys.isEmpty && w.fors.isEmpty && (c.keys.any fun u =>
        match P.putLoc w.kind { stripe := u.1, row := u.2.1, pos := u.2.2, data := [] } with | some l => l.1 != c.bay | none => false)
      let bad := c.status != 0 || gone
      let s := s.freeTag e.1
      if !bad then s
      else
        let s := if w.kind.maint then s else (s.cntLay 6 1).raise Ev.LAY_DESTAGE_FAIL w.pool w.stripe c.bay
        let back := c.keys.mapIdx fun i u => ({ stripe := u.1, row := u.2.1, pos := u.2.2, data := sliceB c.buf (unitBytes * i) unitBytes } : UnitVal)
        s.updWork id fun w => { w with
          failed := some (c.bay, s.retryAt c)
          raw := if w.fors.isEmpty then w.raw else w.raw ++ [(c.bay, c.lba, c.buf)]
          vals := if w.fors.isEmpty then w.vals ++ back else w.vals }
    else
      let gone (u : Nat × Nat × Nat) : Bool := match P.unitLoc u.1 u.2.1 u.2.2 with | some l => l.1 != c.bay | none => true
      let ok (u : Nat × Nat × Nat) : Bool := c.status == 0 && !gone u
      let got := (c.keys.mapIdx fun i u => (u, c.unit i)).filter fun x => ok x.1
      (s.setCmd e.1 (some { c with st := 2, ref := .work id })).updWork id fun w => { w with
        vals := w.vals ++ got.map fun x => { stripe := x.1.1, row := x.1.2.1, pos := x.1.2.2, data := x.2 }
        bad := w.bad ++ c.keys.filter fun u => !ok u
        media := if c.status / 256 = 2 ∧ c.status ≠ drvPath then w.media ++ c.keys.filter fun u => !gone u else w.media
        st := if c.status ≠ 0 ∧ (w.kind = .destage ∨ w.kind = .repair) then .planned else w.st }

/-- DRV_REAP of pool work: up to eight latched completions; after the last, the item goes on. -/
def State.reapWorkItem (it : Item) (w : Work) (s : State) : State :=
  let s := (s.refLatched it.ref).foldl (State.reapWork w.id) s
  let w := (s.work? w.id).getD w
  if !(s.refCmds it.ref).isEmpty then s.toReap it
  else if w.st = .writing then
    (if !w.puts.isEmpty || (!w.raw.isEmpty && w.failed.isNone) then s.advance it Rt.drvSubmit 1 .none (s.now + 1)
     else if !w.raw.isEmpty then
       -- A flush write that failed is written again while its member is not missing.
       let left := w.raw.filter fun (e : Nat × Nat × List Byte) => (s.pool w.pool).bays.contains e.1
       let s := s.updWork w.id fun w => { w with raw := left }
       (if left.isEmpty then s.endWork it { w with raw := [] } false else s.advance it Rt.drvSubmit 1 .none (s.now + 1))
     else s.afterWrites it w)
  else s.afterReads it w

/-! ### REBUILD_STEP (10 R308) -/

/-- The stripe that comes `n` stripes after the start of a pass's coverage. -/
def Pool.passStripe (P : Pool) (a : Activity) (n : Nat) : Option Nat :=
  let rec go (i : Nat) : List (Nat × Nat) → Option Nat
    | [] => none
    | (lo, hi) :: cs => if i < hi - lo then some (lo + i) else go (i - (hi - lo)) cs
  (go (n / P.g) a.cov).map fun f => f * P.g + n % P.g

/-- The stripe that comes `n` stripes after the start of a coverage in stripes. -/
def covStripe (n : Nat) : List (Nat × Nat) → Option Nat
  | [] => none
  | (lo, hi) :: cs => if n < hi - lo then some (lo + n) else covStripe (n - (hi - lo)) cs

/-- Positions of stripe `st` that a pass rebuilds, and those of its targets that have no destination. -/
def Pool.targetsIn (P : Pool) (a : Activity) (st : Nat) : List Nat × Nat :=
  let f := P.frameOf st
  let mine := (List.range P.w).filter fun j => a.targets.contains (P.memberAt f (P.stripPos st j))
  let slot (j : Nat) : Nat := P.memberAt f (P.stripPos st j)
  (mine.filter fun j => (match P.dest f (slot j) with | some d => !P.builtAt f (slot j) d | none => false),
   (mine.filter fun j => (P.dest f (slot j)).isNone).length)

/-- Units that a rebuild reads in row `r`: those that lie at a spare position as they are, and, to recover the others, k present
units, data before P before Q. -/
def Pool.rebuildReads (P : Pool) (w : Work) (ts : List Nat) (r : Nat) : List Nat :=
  let here := P.present w r
  let copy := ts.filter here.contains
  let recover := ts.any (fun j => !here.contains j) || w.media.any (fun (u : Nat × Nat × Nat) => u.2.1 == r)
  let src := here.filter fun j => !ts.contains j
  (copy ++ (if recover then (if P.isLost w.stripe ∧ src.length + copy.length < P.k then src else (copy ++ src).take P.k) else [])).eraseDups

def Pool.rebuildNeed (P : Pool) (w : Work) (ts : List Nat) : List (Nat × Nat × Nat) :=
  ((List.range P.u).flatMap fun r => (P.rebuildReads w ts r).map fun j => (w.stripe, r, j)).filter fun u =>
    !w.vals.any fun v => v.row == u.2.1 && v.pos == u.2.2

/-- A row of a rebuild cannot be recovered. -/
def Pool.rebuildLost (P : Pool) (w : Work) (ts : List Nat) : Bool :=
  !P.isLost w.stripe && (List.range P.u).any fun r => ts.any (fun j => !(P.present w r).contains j) && decide (2 < (P.absent w r).length)

/-- The units that a rebuild writes: its targets, and the units whose read failed with a media error. -/
def Pool.rebuildPuts (P : Pool) (w : Work) (ts : List Nat) : List UnitVal :=
  (List.range P.u).flatMap fun r =>
    let vals := w.rowVals r
    let full := (rowFill P.k (P.isLost w.stripe) vals).getD []
    let repaired := (w.media.filter fun (u : Nat × Nat × Nat) => u.2.1 == r).map (·.2.2)
    (ts ++ repaired).eraseDups.map fun j =>
      { stripe := w.stripe, row := r, pos := j, data := ((rowAt vals j) <|> (rowAt full j)).getD zeroUnit }

/-- A stripe of a pass may be started: credit, E, its cluster, no holder. -/
def State.mayBegin (s : State) (p k st charge : Nat) (a : Activity) : Bool :=
  a.st == .running && decide (charge ≤ a.credit) && decide (s.maintWorks p < s.inflightMax p) && s.poolCluster p st == k && !s.stripeHeld p st

/-- An activity's step is charged and its stripe counted as begun. -/
def State.begin (s : State) (p id charge : Nat) : State :=
  s.updPool p fun P => P.updAct id fun a => { a with credit := a.credit - charge, issued := a.issued + 1 }

/-- A full resynchronisation moves a stripe to its head (09 R299, 10 R326). -/
def State.syncFirst (s : State) (p st : Nat) : State :=
  s.updPool p fun P => { P with resync := P.resync.map fun (r : Resync) => if r.first.contains st then r else { r with first := r.first ++ [st] } }

/-- The next stripe of one pass. -/
def State.beginRebuild (s : State) (p k : Nat) (a : Activity) : Option State :=
  let P := s.pool p
  match P.passStripe a a.issued with
  | none => none
  | some st =>
    let t := P.targetsIn a st
    let charge := t.1.length * P.strip * 1000
    if a.st != .running || (match P.resync with | some r => !r.full | none => false) then none
    else if P.unsynced st ∧ ¬ t.1.isEmpty then (if s.poolCluster p st = k then some (s.syncFirst p st) else none)
    else if !s.mayBegin p k st charge a then none
    else
      let s := (s.begin p a.id charge).cntMnt 7 t.2
      if t.1.isEmpty then some (s.actDone p a.id)
      else some (s.newWork (Work.of (.rebuild a.id) p st) k Rt.rebuildStep (s.laneWait Rt.rebuildStep) s.now)

/-- Leg 2 of REBUILD_STEP: it names the reads and, once they are in, recovers and writes; then it writes its 64 B on the lanes (Table 2-2). The same
holds of leg 2 of SCRUB_STEP and RESYNC_STEP. The spec gives the lane use of the routine, not of its legs: leg 1 reads, leg 2 writes (DESIGN CHOICE,
log 132). -/
def State.rebuildLeg (it : Item) (s : State) : State :=
  match it.ref with
  | .work id =>
    (match s.work? id with
     | none => s.endItem it
     | some w =>
       let P := s.pool w.pool
       match w.kind, (match w.kind with | .rebuild a => P.acts.find? (·.id == a) | _ => none) with
       | .rebuild _, some a =>
         let ts := (P.targetsIn a w.stripe).1
         if P.rebuildLost w ts then (s.endWork it w false).wantMark w.pool w.stripe 1
         else
           let need := P.rebuildNeed w ts
           if !need.isEmpty then (s.updWork id fun w => { w with st := .reading, need := need }).advance it Rt.drvSubmit 1 .none s.now
           else
             let puts := P.rebuildPuts w ts
             let copied := (List.range P.u).all fun r => ts.all fun j => (P.present w r).contains j
             let s := ((s.lane it 64 0).cntLay 5 w.media.length).updWork id fun w => { w with st := .parity, puts := puts, redo := copied }
             if copied then s.advance it Rt.drvSubmit 1 .none s.now
             else (s.postParity it.cluster it.ref).advance it Rt.drvSubmit 1 .event s.now
       | _, _ => s.endWork it w false)
  | _ => s.endItem it

/-- REBUILD_STEP on cluster `k` for class `c`: a stripe under way, or the next stripe of a running pass. -/
def State.rebuildStep (s : State) (k c : Nat) : State :=
  s.poolRun k c Rt.rebuildStep State.rebuildLeg fun s p => ((s.pool p).acts.filter (·.isPass)).findSome? fun a => s.beginRebuild p k a

def execRebuildStep (k : Fin 12) (c : Fin 256) (s : State) : Host.Outcome State Fault Refusal := .next (s.rebuildStep k.val c.val)

/-! ### SCRUB_STEP (10 R321) -/

/-- Units that a scrub or check of a stripe reads: every present one. -/
def Pool.allNeed (P : Pool) (w : Work) : List (Nat × Nat × Nat) :=
  ((List.range P.u).flatMap fun r => (P.present w r).map fun j => (w.stripe, r, j)).filter fun u =>
    !w.vals.any fun v => v.row == u.2.1 && v.pos == u.2.2

/-- What a row asks for: units to rewrite, whether the stripe is lost, whether the row could not be checked. -/
structure RowFound where
  puts : List UnitVal
  lost : Bool
  unchecked : Bool

/-- The scrub of one row: Table 10-3, R315 for unreadable units, and R297 with a missing member. -/
def Pool.scrubRow (P : Pool) (w : Work) (r : Nat) : RowFound :=
  let k := P.k
  let vals := w.rowVals r
  let unit (j : Nat) (b : List Byte) : UnitVal := { stripe := w.stripe, row := r, pos := j, data := b }
  let away := (List.range P.w).filter fun j => (P.unitLoc w.stripe r j).isNone
  let bad := (P.absent w r).filter fun j => !away.contains j
  if !bad.isEmpty then
    match rowAll k vals with
    | some f => { puts := bad.map fun j => unit j ((rowAt f j).getD zeroUnit), lost := false, unchecked := false }
    | none => { puts := [], lost := !P.isLost w.stripe, unchecked := false }
  else match away with
    | [] =>
      (match Machine.scrubRow k vals with
       | .consistent => { puts := [], lost := false, unchecked := false }
       | .wrong j b => { puts := [unit j b], lost := false, unchecked := false }
       | .lost => { puts := [], lost := true, unchecked := false })
    | [x] => { puts := [], lost := decide (x < k) && !crossCheck k x vals, unchecked := false }
    | _ => { puts := [], lost := false, unchecked := true }

/-- The charge of a step of a scrub or sanitize in 1/1,000 B: the bytes of the stripe's present units, which it reads or writes (R312). -/
def Pool.stripeCharge (P : Pool) (st : Nat) : Nat := ((List.range P.w).filter fun j => (P.unitLoc st 0 j).isSome).length * P.strip * 1000

/-- The next stripe of a scrub or sanitize, when it may begin. -/
def State.beginStripe (s : State) (p k : Nat) (a : Activity) : Option (Nat × State) :=
  match covStripe a.issued a.cov with
  | none => none
  | some st =>
    let charge := (s.pool p).stripeCharge st
    if (s.pool p).resync.isNone && s.mayBegin p k st charge a then some (st, s.begin p a.id charge) else none

def State.scrubLeg (it : Item) (s : State) : State :=
  match it.ref with
  | .work id =>
    (match s.work? id with
     | none => s.endItem it
     | some w =>
       let P := s.pool w.pool
       let need := P.allNeed w
       if !need.isEmpty then (s.updWork id fun w => { w with st := .reading, need := need }).advance it Rt.drvSubmit 1 .none s.now
       else
         let fs := (List.range P.u).map fun r => P.scrubRow w r
         let puts := fs.flatMap (·.puts)
         let s := s.lane it 64 0
         let s := s.cntLay 15 (fs.filter (·.unchecked)).length
         if fs.any (·.lost) then (s.endWork it w false).wantMark w.pool w.stripe 4
         else if puts.isEmpty then s.endWork it w false
         else
           let mend := (puts.filter fun u => !w.bad.contains (u.stripe, u.row, u.pos)).length
           let s := (s.cntMnt 3 mend).cntLay 5 (puts.length - mend)
           ((s.updWork id fun w => { w with st := .parity, puts := puts }).postParity it.cluster it.ref).advance it Rt.journalPut 1 .event s.now)
  | _ => s.endItem it

/-- The next stripe of the running scrub. -/
def State.beginScrub (k : Nat) : Starts := fun s p =>
  match (s.pool p).acts.find? (fun (a : Activity) => a.kind == 1 && a.st == .running) with
  | none => none
  | some a =>
    (s.beginStripe p k a).map fun (e : Nat × State) =>
      e.2.newWork (Work.of (.scrub a.id) p e.1) k Rt.scrubStep (s.laneWait Rt.scrubStep) s.now

/-- SCRUB_STEP on cluster `k` for class `c`. -/
def State.scrubStep (s : State) (k c : Nat) : State := s.poolRun k c Rt.scrubStep State.scrubLeg (State.beginScrub k)

def execScrubStep (k : Fin 12) (c : Fin 256) (s : State) : Host.Outcome State Fault Refusal := .next (s.scrubStep k.val c.val)

/-! ### RESYNC_STEP (09 R278, R297, R298; 10 R316, R323) -/

/-- Every unit of a stripe holds `f pos` data, with P and Q to match. -/
def Pool.stripeOf (P : Pool) (st : Nat) (f : (row pos : Nat) → List Byte) : List UnitVal :=
  (List.range P.u).flatMap fun r =>
    let ds := (List.range P.k).map fun j => (j, f r j)
    (ds ++ [(P.k, sumP ds), (P.k + 1, sumQ ds)]).map fun e => { stripe := st, row := r, pos := e.1, data := e.2 }

/-- The resynchronisation of one row: with a shadow value for every missing unit, or none missing, P and Q are recomputed and written
where they differ; with one unit missing it is checked from P and from Q; with two it is accepted. -/
def State.syncRow (s : State) (P : Pool) (w : Work) (r : Nat) : RowFound :=
  let k := P.k
  let gone := P.absent w r
  let shadow := (s.shadowsOf w.pool w.stripe).filterMap fun (e : Nat × Nat × Nat) =>
    if e.2.1 = r ∧ gone.contains e.2.2 then some (e.2.2, (s.line e.1).data) else none
  let vals := w.rowVals r ++ shadow
  let left := gone.filter fun j => !(shadow.map (·.1)).contains j
  let ds := vals.filter fun (e : Nat × List Byte) => decide (e.1 < k)
  let redo : List UnitVal := ([(k, sumP ds), (k + 1, sumQ ds)].filter fun (e : Nat × List Byte) =>
    !gone.contains e.1 && rowAt vals e.1 != some e.2).map fun e => { stripe := w.stripe, row := r, pos := e.1, data := e.2 }
  match left.filter fun j => decide (j < k), left.length with
  | [], n => { puts := if n ≤ 1 then redo else [], lost := false, unchecked := decide (2 ≤ n) }
  | [x], 1 => { puts := [], lost := !crossCheck k x vals, unchecked := false }
  | _, n => { puts := [], lost := decide (2 < n) && !P.isLost w.stripe, unchecked := decide (n = 2) }

/-- The next stripe that a resynchronisation works on, with its journal slot: those moved to its head first. -/
def Pool.nextSync (P : Pool) (held : Nat → Bool) : Option (Nat × Option Nat) :=
  match P.resync with
  | none => none
  | some r =>
    match r.first.find? fun st => !held st with
    | some st => some (st, if r.full then none else (r.listed.find? fun (e : Nat × Nat) => e.1 == st).map (·.2))
    | none =>
      if r.full then (if r.next < P.stripes then some (r.next, none) else none)
      else (r.listed.head?).map fun (e : Nat × Nat) => (e.1, some e.2)

/-- The first number from `n` on that is not among `ds`, within `fuel` steps. -/
def skipDone (ds : List Nat) : Nat → Nat → Nat
  | 0, n => n
  | fuel + 1, n => if ds.contains n then skipDone ds fuel (n + 1) else n

/-- The stripe leaves the list of a resynchronisation. A full one remembers in `listed` the stripes taken out of turn, and passes
them over. -/
def Resync.take (r : Resync) (st : Nat) (slot : Option Nat) : Resync :=
  let first := r.first.filter (· != st)
  if r.full then
    let ahead := if r.next = st then r.listed else (st, 0) :: r.listed
    { r with first := first, listed := ahead
             next := skipDone (ahead.map (·.1)) (ahead.length + 1) (if r.next = st then st + 1 else r.next) }
  else { r with first := first, listed := match slot with | some i => r.listed.filter fun (e : Nat × Nat) => e.2 != i | none => r.listed }

/-- The next item of RESYNC_STEP in pool `p`: marking, then resynchronisation, then initialisation, then sanitize. -/
def State.beginSync (k : Nat) : Starts := fun s p =>
  let P := s.pool p
  let room := decide (s.maintWorks p < s.inflightMax p)
  let free (st : Nat) : Bool := s.poolCluster p st == k && !s.stripeHeld p st
  let new (s : State) (kind : WorkKind) (st : Nat) : Option State := some (s.newWork (Work.of kind p st) k Rt.resyncStep (s.laneWait Rt.resyncStep) s.now)
  match (if room then P.poison.find? (fun (m : Nat × Nat) => free m.1) else none) with
  | some m => new (s.updPool p fun P => { P with poison := P.poison.erase m }) (.mark m.2) m.1
  | none =>
    match (if room then P.nextSync (s.stripeHeld p) else none) with
    | some (st, slot) =>
      if free st then
        new (s.updPool p fun P => { P with resync := P.resync.map fun (r : Resync) => r.take st slot }) (.resync slot) st
      else none
    | none =>
      let vols := (s.volsOf p).filter fun v =>
        let x := s.vol v
        decide (x.initNext < x.initEnd) && s.keyReady x && free (s.initStripe v x.initNext)
      match (if room then vols.head? else none) with
      | some v => new (s.updVol v fun x => { x with initNext := x.initNext + 1, initFly := x.initFly + 1 }) (.init v) (s.initStripe v (s.vol v).initNext)
      | none =>
        match P.acts.find? fun a => a.kind == 2 && a.st == .running with
        | none => none
        | some a =>
          match s.beginStripe p k a with
          | none => none
          | some (st, s) => new s (.sanitize a.id) st

/-- The writes of a stripe go on: the parity request, then the journal unless the stripe is only resynchronised. -/
def State.putStripe (s : State) (it : Item) (id : Nat) (puts : List UnitVal) (code : Nat) : State :=
  (((s.lane it 64 0).updWork id fun w => { w with st := .parity, puts := puts, vals := [] }).postParity it.cluster it.ref).advance it code 1 .event s.now

/-- A resynchronised stripe is done, counted as lost or unverified. -/
def State.syncEnd (s : State) (it : Item) (w : Work) (lost unchecked : Bool) : State :=
  let s := s.updPool w.pool fun P => { P with resync := P.resync.map fun r =>
    { r with lost := r.lost + b2n lost, unverified := r.unverified + b2n unchecked } }
  let s := if unchecked then s.cntLay 15 1 else s
  if lost then ((s.cntLay 14 1).endWork it w false).wantMark w.pool w.stripe 5 else s.endWork it w false

/-- The parts of RESYNC_STEP that work on a stripe. -/
def State.syncLeg (it : Item) (s : State) : State :=
  match it.ref with
  | .work id =>
    (match s.work? id with
     | none => s.endItem it
     | some w =>
       let P := s.pool w.pool
       match w.kind with
       | .mark _ => s.putStripe it id (P.stripeOf w.stripe fun _ _ => poisonUnit) Rt.journalPut
       | .sanitize _ => s.putStripe it id ((List.range P.u).flatMap fun r => (List.range P.w).map fun j =>
           { stripe := w.stripe, row := r, pos := j, data := zeroUnit }) Rt.journalPut
       | .init v =>
         let x := s.vol v
         if w.st = .planned ∧ x.key.isSome then
           -- Every unit of the stripe is encrypted as one bulk request per 128 KiB.
           ((s.updWork id fun w => { w with st := .reading, pair := s.volKey x }).postCipher it.cluster it.ref 0 (passesOf (P.d * unitBlocks x.lbaf) (lbaData x.lbaf)) false
             (s.volKey x)).advance it Rt.resyncStep 2 .event s.now
         else
           let kp := w.pair
           let owner (r j : Nat) : Nat := ((s.unitOwner w.pool w.stripe r j).map (·.2)).getD 0
           s.putStripe it id (P.stripeOf w.stripe fun r j => zeroVolUnit x kp v (owner r j)) Rt.journalPut
       | .resync slot =>
         if slot.isSome ∧ P.isLost w.stripe then
           s.putStripe it id (P.stripeOf w.stripe fun _ _ => poisonUnit) Rt.drvSubmit
         else
           let two := (List.range P.u).all fun r => decide (2 ≤ (P.absent w r).length)
           let need := if two then [] else P.allNeed w
           if !need.isEmpty then (s.updWork id fun w => { w with st := .reading, need := need }).advance it Rt.drvSubmit 1 .none s.now
           else
             let fs := (List.range P.u).map fun r => s.syncRow P w r
             let puts := fs.flatMap (·.puts)
             let lost := fs.any (·.lost)
             let un := fs.any (·.unchecked)
             if lost ∨ puts.isEmpty then s.syncEnd it w lost un
             else
               let s := if un then (s.cntLay 15 1).updPool w.pool fun P => { P with resync := P.resync.map fun (r : Resync) => { r with unverified := r.unverified + 1 } } else s
               s.putStripe it id puts Rt.drvSubmit
       | _ => s.endWork it w false)
  | _ => s.endItem it

/-- RESYNC_STEP on cluster `k` for class `c`. -/
def State.resyncStep (s : State) (k c : Nat) : State := s.poolRun k c Rt.resyncStep State.syncLeg (State.beginSync k)

def execResyncStep (k : Fin 12) (c : Fin 256) (s : State) : Host.Outcome State Fault Refusal := .next (s.resyncStep k.val c.val)

/-! ### META_FLUSH (09 R276, 10 R316) -/

/-- Units of one META_FLUSH write: 16 KiB. -/
def flushPage : Nat := 16384

/-- Units with zero tails that carry `bytes`. -/
def plainUnits (bytes : List Byte) : List Byte :=
  (List.range (ceilDiv bytes.length 4096)).flatMap fun i =>
    let b := sliceB bytes (4096 * i) 4096
    b ++ zeros (4096 - b.length) ++ zeros 64

/-- The pages of the lost-stripe table from the entry of stripe `st` on, as page and bytes (Table 9-2: 65 MiB on the member). -/
def Pool.lostPages (P : Pool) (st : Nat) : List (Nat × List Byte) :=
  let i := P.lost.findIdx fun e => e.has st
  let n := ceilDiv (max 1 P.lost.length) 256
  (List.range n).filterMap fun g =>
    if i / 256 ≤ g then some (g, (((P.lost.drop (256 * g)).take 256).flatMap LostEnt.bytes) ++ zeros (64 * (256 - ((P.lost.drop (256 * g)).take 256).length)))
    else none

/-- The volume record, 64 B: state, pool, LBAF, key slot, size, FIRST_ENTRY, slab count, NGUID, and the initialisation checkpoint (Table 9-9). Of a
volume that is not the pool's, zeros. -/
def State.volRecord (s : State) (p v : Nat) : List Byte :=
  let x := s.vol v
  if x.st = 0 ∨ x.pool ≠ p then zeros 64
  else
    (List.range 64).map (Config.mapByte 0 ([v, x.st, x.pool, x.lbaf, x.key.getD 0xFFFFFFFF, x.blocks, x.first, x.slabs.length, leNat x.nguid, x.initNext]))

/-- The reservation record, 1 KiB, when it persists through power loss (08 R254); otherwise zeros. -/
def State.resvRecord (s : State) (p v : Nat) : List Byte :=
  let r := s.resv v
  if (s.vol v).st = 0 ∨ (s.vol v).pool ≠ p ∨ !r.ptpl then zeros 1024
  else
    (List.range 1024).map (Config.mapByte 1 ([v, r.rtype, match r.holder with | some h => h + 1 | none => 0, r.gen]
      ++ r.regs.flatMap fun (e : Nat × Nat) => [e.1, e.2]))

/-- The maintenance record of a pool: targets, coverage and progress of its passes (10 R311). -/
def Pool.maintRecord (P : Pool) : List Byte :=
  (List.range flushPage).map (Config.mapByte 3 (P.acts.flatMap fun a =>
    [a.id, a.kind, a.mode, a.passed, a.targets.length] ++ a.targets ++ [a.cov.length] ++ a.cov.flatMap fun (e : Nat × Nat) => [e.1, e.2]))

/-- A page of the map store, by kind and number (256 volume records, 16 reservation records, 2,048 map entries, the maintenance record). -/
def State.storeBytes (s : State) (p kind page : Nat) : List Byte :=
  match kind with
  | 0 => (List.range 256).flatMap fun i => s.volRecord p (256 * page + i)
  | 1 => (List.range 16).flatMap fun i => s.resvRecord p (16 * page + i)
  | 2 => (List.range 2048).flatMap fun i => s.entryBytes (2048 * page + i)
  | _ => (s.pool p).maintRecord

/-- The pages that hold a run of map entries. -/
def entryPages (r : Nat × Nat) : List Nat := (List.range ((r.1 + r.2 + 2047) / 2048 - r.1 / 2048)).map (r.1 / 2048 + ·)

/-- The pages of the map store that a flush for `f` writes (R276, 10 R311): a volume's record and its map entries, the persistent reservation record of
a command's volume, the maintenance record. -/
def State.storePages (s : State) : FlushFor → List (Nat × Nat)
  | .vol v => (0, v / 256) :: ((s.vol v).heldRuns.flatMap entryPages).eraseDups.map fun g => (2, g)
  | .wb w => [(1, (s.wb w).volume / 16)]
  | .act _ => [(3, 0)]
  | .mark .. => []

/-- What a flush for `f` writes to one member of pool `p`: member LBA and bytes. The map store lies at 67 MiB, the lost-stripe table at 65 MiB
(Table 9-2). -/
def State.flushBytes (s : State) (p : Nat) (f : FlushFor) : List (Nat × List Byte) :=
  match f with
  | .mark st _ => ((s.pool p).lostPages st).map fun (g : Nat × List Byte) => ((65 * 1048576 + flushPage * g.1) / 4096, plainUnits g.2)
  | f => (s.storePages f).map fun (g : Nat × Nat) =>
      ((67 * 1048576 + flushPage * (Config.storePage g.1 g.2 % 32768)) / 4096, plainUnits (s.storeBytes p g.1 g.2))

/-- At a seam, the flushes that are due become one item of META_FLUSH. Its sequence number within its activity is its number among the META_FLUSH
items of its pool: the spec does not say what the activity of metadata work is (DESIGN CHOICE, log 127). -/
def State.flushSeam (s : State) (p : Nat) : State :=
  let P := s.pool p
  if P.flushFor.isEmpty ∨ P.st = 0 then s
  else
    let k := s.poolCluster p P.flushes
    (s.setPool p { P with flushFor := [], flushes := P.flushes + 1 }).newWork { (Work.of (.flush 0) p P.flushes) with fors := P.flushFor } k
      Rt.metaFlush .none (s.now + 1)

/-- META_FLUSH: the pages are read and written to every member that is not missing. -/
def State.metaFlush (it : Item) (s : State) : State :=
  match it.ref with
  | .work id =>
    (match s.work? id with
     | none => s.endItem it
     | some w =>
       let P := s.pool w.pool
       let pages := (w.fors.flatMap (s.flushBytes w.pool)).eraseDups
       let raw := P.bays.flatMap fun b => pages.map fun (g : Nat × List Byte) => (b, g.1, g.2)
       let s := s.updWork id fun w => { w with raw := raw, st := .journalled }
       if raw.isEmpty then s.endWork it w false else (s.lane it 0 flushPage).advance it Rt.drvSubmit 1 (s.laneWait Rt.metaFlush) s.now)
  | _ => s.endItem it

def execMetaFlush (k : Fin 12) (c : Fin 256) (s : State) : Host.Outcome State Fault Refusal :=
  .next (s.run k c Rt.metaFlush State.metaFlush)

/-- The pool work of a seam: what is due becomes items, and stripes waiting for a journal slot are counted (R294). -/
def State.poolSeam (s : State) (p : Nat) : State := ((s.maintSeam p).resyncSeam p).flushSeam p

def State.journalWaits (s : State) : State :=
  s.cntLay 12 (s.waiting 8)

end Sys2Proof.Machine
end

