-- ==== Sys2Proof/Machine/Ports.lean ====
section
/-!
DEFINITION. Network ports (04): logical ports and address entries, bring-up and link loss (R127 to R131), priority flow control
(R123 to R125), FEC degradation (R130), PTP and tick discipline (R134 to R138), and the parsing of received frames (R121); the
serai's accounts and PFC thresholds (06 R179 to R185).
-/

namespace Sys2Proof.Machine

open Sys2Proof

/-! ### Logical ports (R113) -/

def State.lport (s : State) (m : Nat) : LPort := Tab.rd (fun _ => LPort.reset) s.net.lports m
def State.setLport (s : State) (m : Nat) (x : LPort) : State :=
  { s with net := { s.net with lports := Tab.wr (fun _ => LPort.reset) s.net.lports m x } }
def State.updLport (s : State) (m : Nat) (f : LPort → LPort) : State := s.setLport m (f (s.lport m))

/-- Logical ports of physical port `p` under its breakout (Table 4-1). -/
def State.lportCount (s : State) (p : Nat) : Nat := 2 ^ s.fld (Reg.MAC_CTL p) Fd.MAC_CTL_BREAKOUT

def State.lportsOf (s : State) (p : Nat) : List Nat := (List.range (s.lportCount p)).map (8 * p + ·)

/-- Logical port `m` exists under the breakout of its physical port. -/
def State.lportExists (s : State) (m : Nat) : Bool := decide (m < 128) && decide (m % 8 < s.lportCount (m / 8))

/-- The lanes of logical port `m`, as a mask of the eight lanes of its physical port (R113). -/
def State.laneMask (s : State) (m : Nat) : Nat :=
  let w := 8 / s.lportCount (m / 8)
  (2 ^ w - 1) * 2 ^ (m % 8 * w)

/-- The rate code of MAC_LP_STATUS.RATE and the rate in MB/s under the breakout (Table 4-1). -/
def State.rateCode (s : State) (m : Nat) : Nat := 4 - s.fld (Reg.MAC_CTL (m / 8)) Fd.MAC_CTL_BREAKOUT
def State.rateMBs (s : State) (m : Nat) : Nat := 100000 / s.lportCount (m / 8)

def State.linkUp (s : State) (m : Nat) : Bool := s.flag (Reg.MAC_LP_STATUS m) Fd.MAC_LP_STATUS_LINK_UP
def State.portLost (s : State) (p : Nat) : Bool := s.flag (Reg.MAC_STATUS p) Fd.MAC_STATUS_LOST

/-- The port receives frames: its link is up, it has not lost lock, and it is not lost (R128, R131). -/
def State.passes (s : State) (m : Nat) : Bool := s.linkUp m && (s.lport m).step == 7 && !s.portLost (m / 8)

/-- The port transmits frames: its link is up and it is not lost (R127, R129, R131). -/
def State.sends (s : State) (m : Nat) : Bool := s.linkUp m && !s.portLost (m / 8)

/-- Discards that the spec counts without naming a counter (log 134): EtherType 0x8808 with an opcode other than PAUSE and PFC (0), a VLAN that
VLAN_MODE refuses (1), a frame of row 7 of Table 4-5 (2), a frame to forward whose port has FWD_EN 0 (3), frames for egress while the link is down
(4), PFC bits of priorities not enabled (5). -/
def discardKey (m kind : Nat) : Nat := 8 * m + kind
def State.countDiscard (s : State) (m kind n : Nat) : State :=
  let t := s.net.discards
  let k := discardKey m kind
  { s with net := { s.net with discards := Tab.wr (fun _ => 0) t k (Tab.rd (fun _ => 0) t k + n) } }

/-- A counter of group 1 of Table 18-1 for logical port `m`. -/
def State.cntMac (s : State) (m j n : Nat) : State := s.acc 1 m j n

/-! ### Address entries (R119, R120) -/

def State.addr (s : State) (m e : Nat) : Option AddrEnt := Tab.rd (fun _ => none) s.net.addrs (4 * m + e)
def State.setAddr (s : State) (m e : Nat) (a : Option AddrEnt) : State :=
  { s with net := { s.net with addrs := Tab.wr (fun _ => none) s.net.addrs (4 * m + e) a } }

/-- The set entries of logical port `m`, with their numbers. -/
def State.entries (s : State) (m : Nat) : List (Nat × AddrEnt) :=
  (List.range 4).filterMap fun e => (s.addr m e).map fun a => (e, a)

/-- The MAC address of logical port `m`: that of its set entries. -/
def State.portMac (s : State) (m : Nat) : Option (List Byte) := (s.entries m).head?.map (·.2.mac)

/-! ### Parsing a received frame -/

/-- What the classifier reads of a frame: Ethernet and IP headers in network byte order. -/
structure Hdr where
  dst : List Byte
  src : List Byte
  tagged : Bool
  vlan : Nat
  pcp : Nat
  etype : Nat
  /-- Offset of the bytes after the Ethernet header. -/
  l3 : Nat
  /-- 4, 6, or 0 for another protocol. -/
  ipVer : Nat
  tos : Nat
  ipLen : Nat
  proto : Nat
  srcIp : List Byte
  dstIp : List Byte
  /-- Offset of the bytes after the IP header. -/
  l4 : Nat
deriving DecidableEq, Repr

def beField (bs : List Byte) (off n : Nat) : Nat := beNat (sliceB bs off n)

/-- IPv4 addresses are held in the first 4 of 16 bytes, as NET_ADDR_SET gives them. -/
def ip16 (bs : List Byte) : List Byte := bs ++ zeros (16 - bs.length)

def parseHdr (bs : List Byte) : Hdr :=
  let tagged := beField bs 12 2 == 0x8100
  let tci := beField bs 14 2
  let l3 := if tagged then 18 else 14
  let et := beField bs (l3 - 2) 2
  let v := if et = 0x0800 then 4 else if et = 0x86DD then 6 else 0
  { dst := sliceB bs 0 6, src := sliceB bs 6 6, tagged := tagged, vlan := if tagged then tci % 4096 else 0,
    pcp := if tagged then tci / 8192 else 0, etype := et, l3 := l3, ipVer := v,
    tos := if v = 4 then beField bs (l3 + 1) 1 else if v = 6 then beField bs l3 2 / 16 % 256 else 0,
    ipLen := if v = 4 then beField bs (l3 + 2) 2 else if v = 6 then 40 + beField bs (l3 + 4) 2 else 0,
    proto := if v = 4 then beField bs (l3 + 9) 1 else if v = 6 then beField bs (l3 + 6) 1 else 0,
    srcIp := if v = 4 then ip16 (sliceB bs (l3 + 12) 4) else if v = 6 then sliceB bs (l3 + 8) 16 else [],
    dstIp := if v = 4 then ip16 (sliceB bs (l3 + 16) 4) else if v = 6 then sliceB bs (l3 + 24) 16 else [],
    l4 := if v = 4 then l3 + 4 * (beField bs l3 1 % 16) else l3 + 40 }

def Hdr.dscp (h : Hdr) : Nat := h.tos / 4
def Hdr.ecn (h : Hdr) : Nat := h.tos % 4

/-- The PFC priority of a received frame: PCP when tagged, DSCP[5:3] when untagged (R123). -/
def Hdr.prio (h : Hdr) : Nat := if h.tagged then h.pcp else if h.ipVer = 0 then 0 else h.dscp / 8

def broadcastMac : List Byte := List.replicate 6 0xFF

/-- The length L of 06 R181. -/
def Hdr.len (h : Hdr) (maxFrame : Nat) : Nat :=
  if h.ipVer = 0 then maxFrame else min (maxFrame + 1) (max 64 (18 + (if h.tagged then 4 else 0) + h.ipLen))

/-- MAX_FRAME of a logical port (R117). -/
def State.maxFrame (s : State) (m : Nat) : Nat := s.fld (Reg.MAC_LP_CFG m) Fd.MAC_LP_CFG_MAX_FRAME

/-- VLAN_MODE accepts a frame: 0 both, 1 untagged only, 2 tagged only. -/
def State.vlanOk (s : State) (m : Nat) (tagged : Bool) : Bool :=
  let v := s.fld (Reg.MAC_LP_CFG m) Fd.MAC_LP_CFG_VLAN_MODE
  v == 0 || (v == 1 && !tagged) || (v == 2 && tagged)

/-- The set entry of logical port `m` that an IP destination and a VLAN match. -/
def State.matchEntry (s : State) (m vlan : Nat) (ip : List Byte) : Option Nat :=
  ((s.entries m).find? fun e => e.2.vlan == vlan && e.2.ip == ip).map (·.1)

/-! ### Receive classification (R121, Table 4-5) -/

/-- The row of Table 4-5 that a frame on logical port `m` takes, and the entry that it matches. -/
inductive Class where
  | pfc | control | vlanRefused
  | ptp
  | roce (e : Nat)
  | answer (e : Nat)
  | ownOther
  | other
deriving DecidableEq, Repr

def State.classify (s : State) (m : Nat) (bs : List Byte) : Class :=
  let h := parseHdr bs
  let own := s.portMac m == some h.dst
  let dport := beField bs (h.l4 + 2) 2
  let ptpPort := s.fld Reg.MAC_PTP_CTL Fd.MAC_PTP_CTL_SRC == m || s.fld Reg.MAC_PTP_CTL Fd.MAC_PTP_CTL_BACKUP == m
  let ipEntry := if h.ipVer = 0 then none else s.matchEntry m h.vlan h.dstIp
  let typ := beField bs h.l4 1
  let arpEntry := if h.etype = 0x0806 then s.matchEntry m h.vlan (ip16 (sliceB bs (h.l3 + 24) 4)) else none
  -- Neighbour discovery: a solicitation for an entry, or any of its messages sent to one.
  let ndEntry := if h.ipVer = 6 ∧ h.proto = 58 then
      (if typ = 135 then s.matchEntry m h.vlan (sliceB bs (h.l4 + 8) 16) else none) <|> (if 133 ≤ typ ∧ typ ≤ 137 then ipEntry else none)
    else none
  let echo := (h.ipVer == 4 && h.proto == 1 && (typ == 8 || typ == 0)) || (h.ipVer == 6 && h.proto == 58 && (typ == 128 || typ == 129))
  if h.etype = 0x8808 then (if beField bs h.l3 2 = 0x0101 then .pfc else .control)
  else if !s.vlanOk m h.tagged then .vlanRefused
  else if ptpPort && (h.etype == 0x88F7 || (h.ipVer != 0 && h.proto == 17 && (dport == 319 || dport == 320) && ipEntry.isSome)) then .ptp
  else match (if own && h.ipVer != 0 && h.proto == 17 && dport == 4791 then ipEntry else none) with
    | some e => .roce e
    | none =>
      match arpEntry <|> ndEntry <|> (if own && echo then ipEntry else none) with
      | some e => .answer e
      | none => if own then .ownOther else .other

/-! ### Serai accounts (06 R179 to R183) -/

/-- ⌈n / 256⌉ cells for a frame of n bytes (06 R179). -/
def cellsOf (n : Nat) : Nat := (n + 255) / 256

/-- The cells of a frame given without its FCS. -/
def frameCells (bytes : List Byte) : Nat := cellsOf (bytes.length + 4)

/-- Ingress occupancy o and headroom in use of pair (m, i). -/
def State.occ (s : State) (m i : Nat) : Nat × Nat := Tab.rd (fun _ => (0, 0)) s.net.occ (8 * m + i)
def State.setOcc (s : State) (m i : Nat) (x : Nat × Nat) : State :=
  { s with net := { s.net with occ := Tab.wr (fun _ => (0, 0)) s.net.occ (8 * m + i) x } }

def State.pqMin (s : State) (m i : Nat) : Nat := s.fld (Reg.SWC_PQ_BUF m i) Fd.SWC_PQ_BUF_MIN
def State.lossless (s : State) (m i : Nat) : Bool := natBit (s.fld (Reg.MAC_LP_CFG m) Fd.MAC_LP_CFG_PFC_EN) i

/-- SWC_STATUS.SHARED_CELLS: the unicast area less the hold reserve, the minima and the headrooms (06 R179, R180). -/
def State.sharedCells (s : State) : Nat :=
  s.unicastCells - s.fld Reg.SWC_HOLD_CFG Fd.SWC_HOLD_CFG_HOLD_RESERVE - s.sumMin - s.sumHeadroom

/-- Free cells of the shared pool: pairs use it beyond MIN, the hold account beyond the reserve (Table 6-2, R183). -/
def State.sharedFree (s : State) : Nat :=
  let used := s.net.occ.foldl (fun a e => a + (e.2.1 - e.2.2 - s.pqMin (e.1 / 8) (e.1 % 8))) 0
  s.sharedCells - used - (s.net.holdCells - s.fld Reg.SWC_HOLD_CFG Fd.SWC_HOLD_CFG_HOLD_RESERVE)

def State.xoff (s : State) (m i : Nat) : Bool := natBit (s.fld (Reg.MAC_LP_STATUS m) Fd.MAC_LP_STATUS_XOFF_SENT) i

/-- Table 6-2: the account that admits a frame of `c` cells on (m, i); none when it is discarded. -/
def State.unicastAdmit (s : State) (m i c : Nat) : Acct :=
  let (o, hr) := s.occ m i
  let free := decide (c ≤ s.sharedFree)
  if o + c ≤ s.pqMin m i then .ing m i false
  else if !s.lossless m i && decide (o + c ≤ s.fld (Reg.SWC_PQ_LIM m i) Fd.SWC_PQ_LIM_LIMIT) && free then .ing m i false
  else if s.lossless m i && !s.xoff m i && free then .ing m i false
  else if s.lossless m i && decide (hr + c ≤ s.fld (Reg.SWC_PQ_BUF m i) Fd.SWC_PQ_BUF_HEADROOM) then .ing m i true
  else .none

/-! ### PFC (R123 to R125, 06 R185) -/

/-- One PFC frame leaves. -/
def State.emitPfc (s : State) (m i quanta : Nat) : State := if s.netOn then (s.emit (.pfc m i quanta)).cntMac m 8 1 else s

/-- One PFC frame is due: it leaves at once, or right after the frame in transmission, which it never preempts (R125). -/
def State.sendPfc (s : State) (m i quanta : Nat) : State :=
  if (Tab.rd (fun _ => none) s.net.tx m).isSome then { s with net := { s.net with pfcDue := s.net.pfcDue ++ [(m, i, quanta)] } }
  else s.emitPfc m i quanta

/-- The frame in transmission on port `m` has left: the PFC frames that waited for it go before any data frame. -/
def State.flushPfc (s : State) (m : Nat) : State :=
  let due := s.net.pfcDue.filter fun (e : Nat × Nat × Nat) => e.1 == m
  due.foldl (fun (s : State) (e : Nat × Nat × Nat) => s.emitPfc m e.2.1 e.2.2)
    { s with net := { s.net with pfcDue := s.net.pfcDue.filter fun (e : Nat × Nat × Nat) => e.1 != m } }

/-- The link that egress takes to be up: in lockstep a standby follows the active's links (15 R445, LINK). -/
def State.egressUp (s : State) (m : Nat) : Bool :=
  if s.pairState == pairLocked || s.pairState == pairHolding then s.pair.links.contains m else s.sends m

def State.setXoff (s : State) (m i : Nat) (b : Bool) : State :=
  let r := Reg.MAC_LP_STATUS m
  s.setFld r Fd.MAC_LP_STATUS_XOFF_SENT (setNatBit (s.fld r Fd.MAC_LP_STATUS_XOFF_SENT) i b)

/-- 06 R185 for one pair: XOFF or XON is signalled as its conditions become true; nothing is signalled while the link is down (R127, R129), and a
lossy priority has no XOFF in force. -/
def State.pfcPair (s : State) (m i : Nat) : State :=
  if !s.lossless m i then (if s.xoff m i then s.setXoff m i false else s)
  else if !s.egressUp m then s
  else
    let o := (s.occ m i).1
    let short := decide (s.sharedFree < s.fld Reg.SWC_SHARED_CFG Fd.SWC_SHARED_CFG_XOFF_FREE)
    let r := Reg.SWC_PQ_PFC m i
    if !s.xoff m i && (decide (s.fld r Fd.SWC_PQ_PFC_XOFF_THR ≤ o) || (decide (s.pqMin m i < o) && short)) then
      (s.setXoff m i true).sendPfc m i (s.fld1 (Reg.MAC_LP_TIMERS m) Fd.MAC_LP_TIMERS_QUANTA)
    else if s.xoff m i && decide (o ≤ s.fld r Fd.SWC_PQ_PFC_XON_THR) && !short then (s.setXoff m i false).sendPfc m i 0
    else s

/-- The pairs with XOFF in force. -/
def State.xoffPairs (s : State) : List (Nat × Nat) :=
  (List.range 128).flatMap fun m =>
    let x := s.fld (Reg.MAC_LP_STATUS m) Fd.MAC_LP_STATUS_XOFF_SENT
    if x = 0 then [] else ((List.range 8).filter (natBit x)).map fun i => (m, i)

/-- R185 is evaluated again after a change of occupancy or of the shared pool: over every pair that holds cells or has XOFF in
force, the pairs being those of ports 0 to 127. -/
def State.pfcCheck (s : State) : State :=
  ((s.net.occ.filter fun (e : Nat × (Nat × Nat)) => decide (e.1 < 1024)).map (fun (e : Nat × (Nat × Nat)) => (e.1 / 8, e.1 % 8)) ++ s.xoffPairs).foldl (fun s (p : Nat × Nat) => s.pfcPair p.1 p.2) s

/-! ### Taking and freeing cells -/

/-- `c` cells are taken from an account. -/
def State.takeCells (s : State) (a : Acct) (c : Nat) : State :=
  match a with
  | .none => s
  | .pen =>
    let n := s.rdm.penCells + c
    let s := { s with rdm := { s.rdm with penCells := n } }
    s.setFld Reg.RDM_PEN_STATUS Fd.RDM_PEN_STATUS_HIGH (max n (s.fld Reg.RDM_PEN_STATUS Fd.RDM_PEN_STATUS_HIGH))
  | .ing m i head =>
    let (o, hr) := s.occ m i
    (s.setOcc m i (o + c, if head then hr + c else hr)).pfcCheck
  | .mgt => { s with net := { s.net with mgtCells := s.net.mgtCells + c } }
  | .ctl => { s with net := { s.net with ctlCells := s.net.ctlCells + c } }
  | .convoy => { s with net := { s.net with convoyCells := s.net.convoyCells + c } }
  | .hold => { s with net := { s.net with holdCells := s.net.holdCells + c } }.pfcCheck

/-- `c` cells go back to their account. -/
def State.freeCells (s : State) (a : Acct) (c : Nat) : State :=
  match a with
  | .none => s
  | .pen => { s with rdm := { s.rdm with penCells := s.rdm.penCells - c } }
  | .ing m i head =>
    let (o, hr) := s.occ m i
    (s.setOcc m i (o - c, if head then hr - c else hr)).pfcCheck
  | .mgt => { s with net := { s.net with mgtCells := s.net.mgtCells - c } }
  | .ctl => { s with net := { s.net with ctlCells := s.net.ctlCells - c } }
  | .convoy => { s with net := { s.net with convoyCells := s.net.convoyCells - c } }
  | .hold => { s with net := { s.net with holdCells := s.net.holdCells - c } }.pfcCheck

/-- The hold account has room for `c` cells: in the reserve, or in the shared pool beyond it (06 R183). -/
def State.holdRoom (s : State) (c : Nat) : Bool :=
  let r := s.fld Reg.SWC_HOLD_CFG Fd.SWC_HOLD_CFG_HOLD_RESERVE
  decide (s.net.holdCells + c - max r s.net.holdCells ≤ s.sharedFree)

/-- The cells of an accepted capsule or of payload go from the ingress account to the hold account, when it has room; otherwise
they stay charged to the ingress pair (06 R183). Answers the account that then holds them. -/
def State.toHold (s : State) (a : Acct) (c : Nat) : Acct × State :=
  if s.holdRoom c then (.hold, (s.freeCells a c).takeCells .hold c) else (a, s)

/-! ### Bring-up (R127, Table 4-6) -/

def State.macFld (s : State) (m : Nat) (f : Fld) : Nat := s.fld (Reg.MAC_CTL (m / 8)) f

/-- Steps 3 and 4 apply: a CR or KR PMD with AN_EN, or LT_EN. -/
def State.needsAn (s : State) (m : Nat) : Bool := s.macFld m Fd.MAC_CTL_PMD != 2 && s.macFld m Fd.MAC_CTL_AN_EN == 1
def State.needsLt (s : State) (m : Nat) : Bool := s.macFld m Fd.MAC_CTL_PMD != 2 && s.macFld m Fd.MAC_CTL_LT_EN == 1

/-- The first step from step 3 on that is not skipped; from step 4 on. -/
def State.step4 (s : State) (m : Nat) : Nat := if s.needsLt m then 4 else 5
def State.step3 (s : State) (m : Nat) : Nat := if s.needsAn m then 3 else s.step4 m

def State.setStep (s : State) (m n : Nat) : State := s.updLport m fun x => { x with step := n }

def State.setLocks (s : State) (m b : Nat) : State :=
  (s.setFld (Reg.MAC_LP_STATUS m) Fd.MAC_LP_STATUS_ALIGN_LOCK b).setFld (Reg.MAC_LP_STATUS m) Fd.MAC_LP_STATUS_FEC_LOCK b

/-- A mask of lanes is set or cleared in an 8-bit lane field of MAC_STATUS. -/
def State.setLanes (s : State) (m : Nat) (f : Fld) (b : Bool) : State :=
  let r := Reg.MAC_STATUS (m / 8)
  let k := s.laneMask m
  s.setFld r f ((List.range 8).foldl (fun v i => if natBit k i then setNatBit v i b else v) (s.fld r f))

/-- Every logical port of `p` begins bring-up at step 2; one whose link goes down at the seam begins there (R127). -/
def State.bringUp (s : State) (p : Nat) : State :=
  (s.lportsOf p).foldl (fun s m => s.updLport m fun x =>
    if x.pendDown = 0 then { x with step := 2, calFails := 0, pendUp := false } else { x with next := some 2, calFails := 0 }) s

/-- ENABLE of MAC_CTL[p] goes from 0 to 1 (R115, R127). The write's other fields are written first. -/
def State.macEnable (s : State) (p : Nat) (w : Word) : State :=
  let r := Reg.MAC_CTL p
  let was := s.fld r Fd.MAC_CTL_ENABLE
  let s := s.regWrite r w
  if Fd.MAC_CTL_ENABLE.get w = 1 ∧ was = 0 then
    (s.setFld r Fd.MAC_CTL_ENABLE 1).bringUp p
  else s

def execMacCtlEnable (p : Fin 16) (w : Word) (s : State) : Host.Outcome State Fault Refusal := .next (s.hostWrite (Reg.MAC_CTL p.val) (State.macEnable · p.val w))

/-- A link that is up goes down at the next seam with `reason`, the first one given, and its bring-up goes on from step `n` there; one that is not
goes on from it at once. -/
def State.linkDownDue (s : State) (reason n : Nat) (m : Nat) : State :=
  s.updLport m fun x =>
    if s.linkUp m then { x with pendUp := false, pendDown := if x.pendDown = 0 then reason else x.pendDown, next := some n }
    else { x with pendUp := false, step := n }

/-- ENABLE of MAC_CTL[p] is written 0: every logical port goes down at the next seam with reason 2 (R128). -/
def State.macDisable (s : State) (p : Nat) (w : Word) : State :=
  let r := Reg.MAC_CTL p
  let s := s.regWrite r w
  if Fd.MAC_CTL_ENABLE.get w = 0 ∧ s.fld r Fd.MAC_CTL_ENABLE = 1 then
    (s.lportsOf p).foldl (State.linkDownDue · 2 0) (s.setFld r Fd.MAC_CTL_ENABLE 0)
  else s

def execMacCtlDisable (p : Fin 16) (w : Word) (s : State) : Host.Outcome State Fault Refusal := .next (s.hostWrite (Reg.MAC_CTL p.val) (State.macDisable · p.val w))

/-- MAC_CTL[p] is written with RESET 1 (R128, register tables): links that are up go down at the seam with reason 4; the port's own registers are reset
apart from MAC_CTL and the configuration of its logical ports, a loss apart, which ends once calibration passes; with ENABLE 1 bring-up restarts at
step 2. -/
def State.macReset (s : State) (p : Nat) (w : Word) : State :=
  let r := Reg.MAC_CTL p
  let s := s.regWrite r w
  if Fd.MAC_CTL_RESET.get w = 0 then s
  else
    let s := (s.lportsOf p).foldl (State.linkDownDue · 4 (if s.fld r Fd.MAC_CTL_ENABLE = 1 then 2 else 0)) s
    let lost := s.rd (Reg.MAC_STATUS p) &&& (Fd.MAC_STATUS_LOST.mask ||| Fd.MAC_STATUS_LOST_CAUSE.mask)
    let s := ((s.wrReg (Reg.MAC_STATUS p) lost).wrReg (Reg.MAC_LANE_POL p) (regReset (Reg.MAC_LANE_POL p))).wrReg
      (Reg.MAC_TS_LAT p) (regReset (Reg.MAC_TS_LAT p))
    (s.lportsOf p).foldl (fun s m =>
      let s := (((s.setLocks m 0).wrReg (Reg.MAC_LP_FEC_CORR m) 0).wrReg (Reg.MAC_LP_FEC_UNCORR m) 0).senderReset 1 m
      s.updLport m fun x => { x with calFails := 0, calOk := false, resetDone := true }) s

def execMacCtlReset (p : Fin 16) (w : Word) (s : State) : Host.Outcome State Fault Refusal := .next (s.hostWrite (Reg.MAC_CTL p.val) (State.macReset · p.val w))

/-! ### Bring-up steps (Table 4-6) -/

/-- The logical port moves from step `a` to step `b`. -/
def State.stepTo (s : State) (m a b : Nat) : State := if (s.lport m).step = a then s.setStep m b else s

/-- AUTONEG_COMPLETE: step 3 is complete. -/
def execAutonegComplete (m : Fin 128) (s : State) : Host.Outcome State Fault Refusal := .next (s.stepTo m.val 3 (s.step4 m.val))
/-- AUTONEG_RESTART: without a partner step 3 begins again. -/
def execAutonegRestart (m : Fin 128) (s : State) : Host.Outcome State Fault Refusal := .next (s.stepTo m.val 3 3)
/-- LINK_TRAINING_COMPLETE: step 4 is complete. -/
def execLinkTrainingComplete (m : Fin 128) (s : State) : Host.Outcome State Fault Refusal := .next (s.stepTo m.val 4 5)
/-- LINK_TRAINING_ABANDON: step 4 is abandoned, and step 3 restarts. -/
def execLinkTrainingAbandon (m : Fin 128) (s : State) : Host.Outcome State Fault Refusal := .next (s.stepTo m.val 4 (s.step3 m.val))

/-- PCS_FEC_LOCK: step 5 is reached; or, on a link that lost its lock, the lock returns within DOWN_HOLD and the loss counts. -/
def State.pcsLock (s : State) (m : Nat) : State :=
  let st := (s.lport m).step
  if st = 5 then ((s.setLocks m 1).setLanes m Fd.MAC_STATUS_CDR_LOCK true).setStep m 6
  else if st = 8 ∧ (s.lport m).pendDown = 0 then
    (((s.setLocks m 1).setStep m 7).satFld (Reg.MAC_LP_STATUS m) Fd.MAC_LP_STATUS_LOSS_CNT 1).cntMac m 11 1
  else s

def execPcsFecLock (m : Fin 128) (s : State) : Host.Outcome State Fault Refusal := .next (s.pcsLock m.val)

/-- UP_HOLD_EXPIRE: the lock has held for UP_HOLD, and the link comes up at the next seam (Table 4-6 step 6). -/
def execUpHoldExpire (m : Fin 128) (s : State) : Host.Outcome State Fault Refusal :=
  .next (if (s.lport m.val).step = 6 then s.updLport m.val fun x => { x with pendUp := true } else s)

/-- DOWN_HOLD_EXPIRE: the lock has not returned, and the link goes down at the next seam with reason 1 (R128). -/
def execDownHoldExpire (m : Fin 128) (s : State) : Host.Outcome State Fault Refusal :=
  .next (if (s.lport m.val).step = 8 then s.updLport m.val fun x => { x with pendDown := if x.pendDown = 0 then 1 else x.pendDown } else s)

/-! ### Received pauses (R124), XOFF repeats (R125), FEC windows (R130) -/

/-- PFC_FRAME_RECEIVE on logical port `m`: the enabled priorities of the vector pause for their quanta; quanta 0 ends a pause; bits for other
priorities are ignored and counted. -/
def State.pfcReceive (s : State) (m vec : Nat) (quanta : List Nat) : State :=
  if !s.passes m then s
  else
    let s := s.cntMac m 7 1
    let other := ((List.range 8).filter fun i => natBit vec i && !s.lossless m i).length
    (List.range 8).foldl (fun s i =>
      if natBit vec i && s.lossless m i then
        let q := quanta.getD i 0 % 65536
        let r := Reg.MAC_LP_STATUS m
        let s := { s with net := { s.net with quanta := Tab.wr (fun _ => 0) s.net.quanta (8 * m + i) q } }
        s.setFld r Fd.MAC_LP_STATUS_PAUSED (setNatBit (s.fld r Fd.MAC_LP_STATUS_PAUSED) i (q != 0))
      else s) (if other = 0 then s else s.countDiscard m 5 other)

def execPfcFrameReceive (m : Fin 128) (vec : BitVec 8) (quanta : List Nat) (s : State) : Host.Outcome State Fault Refusal :=
  .next (s.pfcReceive m.val vec.toNat quanta)

/-- PFC_PAUSE_EXPIRE: the pause of a priority has run out. -/
def execPfcPauseExpire (m : Fin 128) (i : Fin 8) (s : State) : Host.Outcome State Fault Refusal :=
  let r := Reg.MAC_LP_STATUS m.val
  let s := { s with net := { s.net with quanta := Tab.wr (fun _ => 0) s.net.quanta (8 * m.val + i.val) 0 } }
  .next (s.setFld r Fd.MAC_LP_STATUS_PAUSED (setNatBit (s.fld r Fd.MAC_LP_STATUS_PAUSED) i.val false))

/-- PFC_XOFF_REPEAT: while XOFF holds and the link is up, the PFC frame is sent again. -/
def execPfcXoffRepeat (m : Fin 128) (i : Fin 8) (s : State) : Host.Outcome State Fault Refusal :=
  .next (if s.xoff m.val i.val && s.egressUp m.val then s.sendPfc m.val i.val (s.fld1 (Reg.MAC_LP_TIMERS m.val) Fd.MAC_LP_TIMERS_QUANTA) else s)

/-- FEC_WINDOW_END: a 100 ms window of logical port `m` held `corr` corrected and `uncorr` uncorrected codewords. -/
def State.fecWindow (s : State) (m corr uncorr : Nat) : State :=
  let s := (s.satFld (Reg.MAC_LP_FEC_CORR m) wordFld corr).cntMac m 9 corr
  let s := (s.satFld (Reg.MAC_LP_FEC_UNCORR m) wordFld uncorr).cntMac m 10 uncorr
  let thr := s.fld (Reg.MAC_LP_FEC_THR m) Fd.MAC_LP_FEC_THR_THR
  let r := Reg.MAC_LP_STATUS m
  if thr ≠ 0 ∧ thr ≤ uncorr then
    if s.fld r Fd.MAC_LP_STATUS_FEC_DEGRADED = 1 then s
    else (s.setFld r Fd.MAC_LP_STATUS_FEC_DEGRADED 1).raise Ev.MAC_FEC_DEGRADED m uncorr 0
  else s.setFld r Fd.MAC_LP_STATUS_FEC_DEGRADED 0

def execFecWindowEnd (m : Fin 128) (corr uncorr : Word) (s : State) : Host.Outcome State Fault Refusal :=
  .next (s.fecWindow m.val corr.toNat uncorr.toNat)

/-! ### PTP (R134 to R138) -/

/-- The PTP time at cycle `c` of the tick, in picoseconds: a core cycle takes 500 ps. -/
def State.ptpAt (s : State) (c : Nat) : Nat := (s.net.ptpSec * 1000000000 + s.net.ptpNs) * 1000 + s.net.ptpFrac / 1000000 + 500 * c

/-- The receive timestamp of a frame that arrives on logical port `m` at cycle `c`, less RX_PS of its physical port (R134). -/
def State.rxStamp (s : State) (m c : Nat) : Nat := s.ptpAt c - s.fld (Reg.MAC_TS_LAT (m / 8)) Fd.MAC_TS_LAT_RX_PS

/-- Where a PTP message begins in a frame, over Ethernet or UDP, and its type. -/
def ptpOff (h : Hdr) : Nat := if h.etype = 0x88F7 then h.l3 else h.l4 + 8
def ptpType (bs : List Byte) : Nat := beField bs (ptpOff (parseHdr bs)) 1 % 16

/-- A PTP event message: one over Ethernet with a type below 8, or one on UDP port 319. -/
def ptpEvent (bs : List Byte) : Bool :=
  let h := parseHdr bs
  (h.etype == 0x88F7 && decide (ptpType bs < 8)) || (h.ipVer != 0 && h.proto == 17 && beField bs (h.l4 + 2) 2 == 319)

/-- The transmit timestamp of a PTP event message that has left logical port `m` at cycle `c`: the end of its start-of-frame delimiter, plus TX_PS
(R134). -/
def State.txStamp (s : State) (m c : Nat) (bytes : List Byte) : State :=
  if ptpEvent bytes && s.netOn then
    let t := s.ptpAt c + s.fld (Reg.MAC_TS_LAT (m / 8)) Fd.MAC_TS_LAT_TX_PS - (bytes.length + 4) * 1000000 / s.rateMBs m
    { s with net := { s.net with ptpTx := some t } }
  else s

def State.ptpState (s : State) : Nat := s.fld Reg.MAC_PTP_STATUS Fd.MAC_PTP_STATUS_STATE

/-- A change of MAC_PTP_STATUS.STATE raises MAC_PTP_STATE (R135). -/
def State.setPtpState (s : State) (st src : Nat) : State :=
  let s := s.setFld Reg.MAC_PTP_STATUS Fd.MAC_PTP_STATUS_CUR_SRC src
  if s.ptpState = st then s
  else (s.setFld Reg.MAC_PTP_STATUS Fd.MAC_PTP_STATUS_STATE st).raise Ev.MAC_PTP_STATE st src 0

/-- MAC_PTP_CTL has been written: ENABLE 1 starts the slave, which listens on SRC; ENABLE 0 stops it (R135, MAC_PTP_CTL). -/
def State.ptpCtl (s : State) : State :=
  if s.flag Reg.MAC_PTP_CTL Fd.MAC_PTP_CTL_ENABLE then
    (if s.ptpState = 0 then s.setPtpState 1 (s.fld Reg.MAC_PTP_CTL Fd.MAC_PTP_CTL_SRC) else s)
  else if s.ptpState = 0 then s
  else s.setPtpState 0 255

/-- PTP_SOURCE_LOSS: the source's link is down or its master is lost; the servo moves to BACKUP, if one is set and is not the
source in use, and otherwise enters HOLDOVER (R135). -/
def execPtpSourceLoss (s : State) : Host.Outcome State Fault Refusal :=
  let cur := s.fld Reg.MAC_PTP_STATUS Fd.MAC_PTP_STATUS_CUR_SRC
  let b := s.fld Reg.MAC_PTP_CTL Fd.MAC_PTP_CTL_BACKUP
  .next (if s.ptpState = 0 then s
    else if b ≠ 255 ∧ cur ≠ b then s.setPtpState 1 b
    else s.setPtpState 4 cur)

/-- A two's complement 32-bit number as an Int, and back. -/
def toInt32 (n : Nat) : Int := if n < 2147483648 then n else (n : Int) - 4294967296
def ofInt32 (i : Int) : Nat := (i % 4294967296).toNat

/-- The trim in force, in units of 0.001 ppm. -/
def State.trimNow (s : State) : Int := toInt32 (s.fld Reg.MAC_PTP_TRIM Fd.MAC_PTP_TRIM_TRIM)

/-- At the seam that ends tick index 255, with discipline on and the clock LOCKED, the trim changes once, by at most 0.05 ppm, and stays within
100 ppm (R136); by how much within that the spec leaves to the servo: a free value. -/
def State.trimUpdate (s : State) : State :=
  if s.itn.tick % 256 = 255 ∧ s.flag Reg.MAC_PTP_CTL Fd.MAC_PTP_CTL_DISCIPLINE_EN ∧ s.ptpState = 3 ∧ ¬ s.isStandby ∧ s.net.trimTick ≠ some s.now then
    let (v, s) := s.draw
    let t := s.trimNow + ((v % 101 : Nat) : Int) - 50
    { s with net := { s.net with trimTick := some s.now } }.setFld Reg.MAC_PTP_TRIM Fd.MAC_PTP_TRIM_TRIM (ofInt32 (max (-100000) (min 100000 t)))
  else s

/-- PLL_TRIM_UPDATE: the change belongs to the change phase of a seam, and nothing changes within a tick (log 122). -/
def execPllTrimUpdate (s : State) : Host.Outcome State Fault Refusal := .next (if s.atSeam then s.trimUpdate else s)

/-- MAC_PTP_SEAM_NS_READ: a read of MAC_PTP_SEAM_NS latches both seconds words for their next reads (R138). -/
def execMacPtpSeamNsRead (s : State) : Host.Outcome State Fault Refusal :=
  let lo := BitVec.ofNat 32 s.net.seamSec
  let hi := BitVec.ofNat 32 (s.net.seamSec / 4294967296 % 65536)
  let t := Tab.wr (fun _ => none) (Tab.wr (fun _ => none) s.hst.latched Reg.MAC_PTP_SEAM_SEC_LO (some lo)) Reg.MAC_PTP_SEAM_SEC_HI (some hi)
  let s := { s with hst := { s.hst with latched := t } }
  .next (s.emit (.regRead Reg.MAC_PTP_SEAM_NS (if s.mgtReady then BitVec.ofNat 32 s.net.seamNs else 0)))

/-- What a tick adds to the PTP time counter, in 10⁻⁹ ns: 1.024 µs of the untrimmed clock, shortened by the trim in force (R134, R136; log 135). -/
def State.ptpStep (s : State) : Nat := 1024 * 10 ^ 18 / (1000000000 + s.trimNow).toNat

/-- At each seam the counter advances by one tick and the PTP time of the tick boundary is latched; the phase error to the nearest whole multiple of
1.024 µs is shown (R134, R138, MAC_PTP_OFFSET). -/
def State.ptpSeam (s : State) : State :=
  let f := s.net.ptpFrac + s.ptpStep
  let ns := s.net.ptpNs + f / 1000000000
  let sec := (s.net.ptpSec + ns / 1000000000) % 281474976710656
  let ns := ns % 1000000000
  let s := { s with net := { s.net with ptpSec := sec, ptpNs := ns, ptpFrac := f % 1000000000, seamSec := sec, seamNs := ns } }
  let r := (sec * 1000000000 + ns) % 1024
  s.setFld Reg.MAC_PTP_OFFSET Fd.MAC_PTP_OFFSET_OFFSET (ofInt32 (if r ≤ 512 then -(r : Int) else 1024 - (r : Int)))

end Sys2Proof.Machine
end

