-- ==== Sys2Proof/Machine/Egress.lean ====
section
/-!
DEFINITION. The egress hierarchy (07 R213 to R222): scheduling points, eligibility, strict and fair choice, tags and virtual
times, shapers; joining an egress queue with ECN marking (06 R186, R189, R190); and the departure of a frame.
-/

namespace Sys2Proof.Machine

open Sys2Proof

/-! ### The template (R214) -/

def State.nodeValid (s : State) (k : Nat) : Bool := s.flag (Reg.TMG_NODE_CFG k) Fd.TMG_NODE_CFG_VALID
def State.nodeRoot (s : State) (k : Nat) : Bool := s.flag (Reg.TMG_NODE_CFG k) Fd.TMG_NODE_CFG_ROOT
def State.nodeStrict (s : State) (k : Nat) : Bool := s.flag (Reg.TMG_NODE_CFG k) Fd.TMG_NODE_CFG_STRICT

/-- The path from node `k` up to its root, root first, of at most `fuel` nodes; none when a node is not valid or the path is
longer, as a cycle is. -/
def State.nodePath (s : State) : Nat → Nat → Option (List Nat)
  | 0, _ => none
  | fuel + 1, k =>
    if !s.nodeValid k then none
    else if s.nodeRoot k then some [k]
    else (s.nodePath fuel (s.fld (Reg.TMG_NODE_CFG k) Fd.TMG_NODE_CFG_PARENT)).map (· ++ [k])

/-- A path holds at most 4 nodes (R214). -/
def State.path4 (s : State) (k : Nat) : Option (List Nat) := s.nodePath 4 k

/-- The lowest valid node whose path breaks R214, if there is one. -/
def State.treeFault (s : State) : Option Nat := (List.range 1024).find? fun k => s.nodeValid k && (s.path4 k).isNone

/-- A node's priority is the PRIO of its root. -/
def State.nodePrio (s : State) (k : Nat) : Option Nat :=
  (s.path4 k).bind fun p => p.head?.map fun r => s.fld (Reg.TMG_NODE_CFG r) Fd.TMG_NODE_CFG_PRIO

/-! ### Points and children -/

/-- A scheduling point of a port: the port itself, a priority, a node. -/
inductive Point where
  | port | prio (i : Nat) | node (k : Nat)
deriving DecidableEq, Repr

/-- A child of a point. -/
inductive Child where
  | prio (i : Nat) | node (k : Nat) | flow (i c : Nat) | fwd (i : Nat) | ctl | mgt
deriving DecidableEq, Repr

def pointKey (m : Nat) : Point → Nat
  | .port => m * 4194304
  | .prio i => m * 4194304 + 1 + i
  | .node k => m * 4194304 + 16 + k

def childKey (m : Nat) : Child → Nat
  | .prio i => m * 4194304 + 1 + i
  | .node k => m * 4194304 + 16 + k
  | .fwd i => m * 4194304 + 1040 + i
  | .ctl => m * 4194304 + 1050
  | .mgt => m * 4194304 + 1051
  | .flow i c => m * 4194304 + 2048 + i * 262144 + c

/-- The chain from the port down to a frame's leaf: each point with the child through which the frame is reached (R213, R215). -/
def State.framePath (s : State) (f : EgFrame) : List (Point × Child) :=
  match f.leaf with
  | .flow c _ node =>
    let ns := (node.bind s.path4).getD []
    let pts := Point.prio f.i :: ns.map Point.node
    let chs := ns.map Child.node ++ [Child.flow f.i c]
    (.port, .prio f.i) :: pts.zip chs
  | .ctl => [(.port, .prio f.i), (.prio f.i, .ctl)]
  | .mgt => [(.port, .prio f.i), (.prio f.i, .mgt)]
  | .fwd => [(.port, .prio f.i), (.prio f.i, .fwd f.i)]

/-- The child of point `p` on the frame's path. -/
def State.childAt (s : State) (f : EgFrame) (p : Point) : Option Child := ((s.framePath f).find? (·.1 = p)).map (·.2)

/-! ### Tags, modulo 2^48 (R219) -/

def tagMod : Nat := 281474976710656
/-- a < b modulo 2^48. -/
def tagLt (a b : Nat) : Bool := decide (0 < (b + tagMod - a) % tagMod) && decide ((b + tagMod - a) % tagMod < tagMod / 2)
def tagMax (a b : Nat) : Nat := if tagLt a b then b else a

def State.vt (s : State) (m : Nat) (p : Point) : Nat × Nat := Tab.rd (fun _ => (0, 0)) s.net.vt (pointKey m p)
def State.setVt (s : State) (m : Nat) (p : Point) (x : Nat × Nat) : State :=
  { s with net := { s.net with vt := Tab.wr (fun _ => (0, 0)) s.net.vt (pointKey m p) x } }
def State.tag (s : State) (m : Nat) (c : Child) : Nat × Nat := Tab.rd (fun _ => (0, 0)) s.net.tags (childKey m c)
def State.setTag (s : State) (m : Nat) (c : Child) (x : Nat × Nat) : State :=
  { s with net := { s.net with tags := Tab.wr (fun _ => (0, 0)) s.net.tags (childKey m c) x } }

/-- Strict children carry no tags: strict nodes, the control leaf and the management leaf (R218). -/
def State.strictChild (s : State) : Child → Bool
  | .node k => s.nodeStrict k
  | .ctl | .mgt => true
  | _ => false

/-- The frames queued on port `m`, in arrival order; those reached through child `c`. -/
def State.queued (s : State) (m : Nat) : List EgFrame := s.net.egress.filter (·.m = m)
def State.backlogged (s : State) (m : Nat) (c : Child) : Bool := (s.queued m).any fun f => (s.framePath f).any (·.2 = c)

/-- A weight of a child at its parent: PRIO_WEIGHT, TMG_NODE_WEIGHT, the channel's WEIGHT, FWD_WEIGHT (R219). -/
def State.childWeight (s : State) (m : Nat) (f : EgFrame) : Child → Nat
  | .prio i => s.fld1 (Reg.TMG_PRIO_CFG m i) Fd.TMG_PRIO_CFG_PRIO_WEIGHT
  | .node k => s.fld1 (Reg.TMG_NODE_WEIGHT k) Fd.TMG_NODE_WEIGHT_WEIGHT
  | .fwd i => s.fld1 (Reg.TMG_PRIO_FWD m i) Fd.TMG_PRIO_FWD_FWD_WEIGHT
  | .flow _ _ => match f.leaf with | .flow _ w _ => or1 w | _ => 1
  | .ctl | .mgt => 1

/-! ### Joining a queue (06 R186, R189; 07 R215, R219) -/

/-- Cells queued for egress on (m, i). -/
def State.egressCells (s : State) (m i : Nat) : Nat := ((s.queued m).filter (·.i = i)).foldl (fun a f => a + f.cells) 0

/-- The ones' complement sum of 16-bit words, and the checksum of bytes. -/
def sum16 : List Byte → Nat
  | a :: b :: t => a.toNat * 256 + b.toNat + sum16 t
  | [a] => a.toNat * 256
  | [] => 0
def fold16 (n : Nat) : Nat := let m := n % 65536 + n / 65536; m % 65536 + m / 65536
def inetSum (bs : List Byte) : Nat := 65535 - fold16 (sum16 bs)

def beBytes (n v : Nat) : List Byte := (leBytes n v).reverse

/-- `v` written over the bytes at `off`. -/
def patch (bs : List Byte) (off : Nat) (v : List Byte) : List Byte := bs.take off ++ v ++ bs.drop (off + v.length)

/-- CE marked on an IP frame, with the IPv4 header checksum recomputed; the ICRC is unchanged (06 R190). -/
def markCe (bs : List Byte) : List Byte :=
  let h := parseHdr bs
  if h.ipVer = 4 then
    let n := 4 * (beField bs h.l3 1 % 16)
    let b := patch (patch bs (h.l3 + 1) [BitVec.ofNat 8 (h.tos / 4 * 4 + 3)]) (h.l3 + 10) [0, 0]
    patch b (h.l3 + 10) (beBytes 2 (inetSum (sliceB b h.l3 n)))
  else if h.ipVer = 6 then
    let w := beField bs h.l3 2
    patch bs h.l3 (beBytes 2 (w / 4096 * 4096 + (h.tos / 4 * 4 + 3) * 16 + w % 16))
  else bs

/-- ECT(0) or ECT(1): the frames that may be marked. -/
def ectMarkable (bs : List Byte) : Bool := let h := parseHdr bs; h.ipVer != 0 && (h.ecn == 1 || h.ecn == 2)

/-- The child is on the path of the frame in transmission: it has not yet been charged for it. -/
def State.inService (s : State) (m : Nat) (c : Child) : Bool :=
  match Tab.rd (fun _ => none) s.net.tx m with
  | none => false
  | some f => (s.framePath f).any (·.2 = c)

/-- A frame joins the egress queue of its port and priority: it is discarded while the link is down; CE is marked when the
queue already holds ECN_OUT_THR cells (06 R189); every point on its path at which a child becomes backlogged wakes it. -/
def State.wake (s : State) (f : EgFrame) : State :=
  (s.framePath f).foldl (fun s pc =>
    if s.strictChild pc.2 || s.backlogged f.m pc.2 || s.inService f.m pc.2 then s
    else
      let v := (s.vt f.m pc.1).1
      match pc.2 with
      | .flow _ _ => s.setTag f.m pc.2 (v, 0)
      | c => s.setTag f.m c (tagMax v (s.tag f.m c).2, (s.tag f.m c).2)) s

/-- One copy of flooded frame `id` has left or been discarded: with the last one, the frame's own cells are freed (06 R182). -/
def State.floodLeft (s : State) (id : Nat) : State :=
  match s.net.floods.find? (·.id == id) with
  | none => s
  | some f =>
    if f.left ≤ 1 then ({ s with net := { s.net with floods := s.net.floods.filter (·.id != id) } }).freeCells f.acct f.cells
    else { s with net := { s.net with floods := s.net.floods.map fun g => if g.id == id then { g with left := g.left - 1 } else g } }

/-- The cells of a frame that has left or been discarded are freed; a held packet keeps its own. -/
def State.freeFrame (s : State) (f : EgFrame) : State :=
  let s := if f.held then s else s.freeCells f.acct f.cells
  match f.group with
  | some id => s.floodLeft id
  | none => s

/-- The controller follows an active's record: it applies the dispositions of the copies it receives, and decides no marking of them (06 R194). -/
def State.shadows (s : State) : Bool := s.pairState == pairLocked || s.pairState == pairHolding

def State.enqueue (s : State) (f : EgFrame) : State :=
  if !s.egressUp f.m then (s.countDiscard f.m 4 1).freeFrame f
  else
    let thr := s.fld (Reg.SWC_PQ_ECN f.m f.i) Fd.SWC_PQ_ECN_ECN_OUT_THR
    let mark := ectMarkable f.bytes && thr != 0 && decide (thr ≤ s.egressCells f.m f.i) && !(f.leaf == .fwd && s.shadows)
    let own := f.leaf == Leaf.mgt
    let f := { f with id := if own then s.net.mgtSeq else s.net.egSeq, bytes := if mark then markCe f.bytes else f.bytes }
    let s := if mark then s.cntSwc 6 1 else s
    let s := s.wake f
    { s with net := { s.net with egress := s.net.egress ++ [f], egSeq := s.net.egSeq + b2n !own, mgtSeq := s.net.mgtSeq + b2n own } }

/-- A frame of management firmware joins the management leaf of a priority, with its cells in the management area (R215). -/
def State.sendMgtOf (s : State) (m prio : Nat) (bytes : List Byte) (cm : Option (List Byte × Nat × CmMsg)) : State :=
  let c := frameCells bytes
  if 8192 - 256 < s.net.mgtCells + c then s
  else (s.takeCells .mgt c).enqueue { id := 0, m := m, i := prio, leaf := .mgt, bytes := bytes, cells := c, acct := .mgt,
                                      ready := true, bad := false, held := false, src := none, group := none, wait := none, cm := cm }

def State.sendMgt (s : State) (m prio : Nat) (bytes : List Byte) : State := s.sendMgtOf m prio bytes none

/-! ### Leaving a queue without departing (R216, R219, R222) -/

/-- Child `c` of port `m` has a frame queued or in transmission. -/
def State.live (s : State) (m : Nat) (c : Child) : Bool := s.backlogged m c || s.inService m c

/-- Point `p` of port `m` has a fair child with a frame queued or in transmission. -/
def State.pointLive (s : State) (m : Nat) (p : Point) : Bool :=
  (s.queued m ++ (Tab.rd (fun _ => none) s.net.tx m).toList).any fun g => (s.framePath g).any fun q => q.1 == p && !s.strictChild q.2

/-- A frame has been taken out of its queue: a flow that ends so keeps no tags (R216), and a point left without backlog is idle (R219 rule 4). -/
def State.unqueued (s : State) (f : EgFrame) : State :=
  (s.framePath f).foldl (fun s pc =>
    if s.strictChild pc.2 then s
    else
      let s := match pc.2 with
        | .flow _ _ => if s.live f.m pc.2 then s else s.setTag f.m pc.2 (0, 0)
        | _ => s
      if s.pointLive f.m pc.1 then s else s.setVt f.m pc.1 ((s.vt f.m pc.1).2, (s.vt f.m pc.1).2)) s

/-- The queued frames that `p` selects are discarded, and their cells freed. -/
def State.discardQueued (s : State) (p : EgFrame → Bool) : State :=
  let gone := s.net.egress.filter p
  gone.foldl (fun s g => (s.freeFrame g).unqueued g) { s with net := { s.net with egress := s.net.egress.filter fun g => !p g } }

/-! ### Eligibility (R217) -/

/-- The shaper of a point: its RATE in MB/s and BURST in bytes; RATE 0, and a port rate at or above the port's, leaves it
unshaped (R221). -/
def State.shaper (s : State) (m : Nat) : Point → Nat × Nat
  | .port =>
    let r := s.fld (Reg.TMG_PORT_RATE m) Fd.TMG_PORT_RATE_RATE
    (if s.rateMBs m ≤ r then 0 else r, s.fld (Reg.TMG_PORT_BURST m) Fd.TMG_PORT_BURST_BURST)
  | .node k => (s.fld (Reg.TMG_NODE_RATE k) Fd.TMG_NODE_RATE_RATE, s.fld (Reg.TMG_NODE_BURST k) Fd.TMG_NODE_BURST_BURST)
  | .prio _ => (0, 0)

def State.deficit (s : State) (m : Nat) (p : Point) : Nat := Tab.rd (fun _ => 0) s.net.deficit (pointKey m p)
def State.setDeficit (s : State) (m : Nat) (p : Point) (v : Nat) : State :=
  { s with net := { s.net with deficit := Tab.wr (fun _ => 0) s.net.deficit (pointKey m p) v } }

/-- The shaper, if there is one, holds at least zero tokens. -/
def State.shaperOk (s : State) (m : Nat) (p : Point) : Bool :=
  (s.shaper m p).1 == 0 || decide (s.deficit m p ≤ (s.shaper m p).2 * 1000)

def State.paused (s : State) (m i : Nat) : Bool := natBit (s.fld (Reg.MAC_LP_STATUS m) Fd.MAC_LP_STATUS_PAUSED) i

/-- A leaf is first in, first out: only the earliest frame of each leaf can be chosen, and only when its release is permitted, in a pair by
the receipt of its record (15 R448). -/
def State.heads (s : State) (m : Nat) : List EgFrame :=
  (s.queued m).filter fun f =>
    f.ready && f.wait.all s.receipted && !(s.queued m).any fun g => decide (g.id < f.id) && g.i == f.i && g.leaf == f.leaf

/-- The eligible frames of port `m`: a head whose priority is not paused and whose nodes' shapers hold at least zero. -/
def State.eligible (s : State) (m : Nat) : List EgFrame :=
  (s.heads m).filter fun f => !s.paused m f.i && (s.framePath f).all fun pc =>
    match pc.2 with
    | .node k => s.shaperOk m (.node k)
    | _ => true

/-! ### Choice (R218, R219) -/

/-- The order of an eligible strict child at a priority or node: rank, then strict nodes by index, the management leaf, the
control leaf. -/
def State.strictOrder (s : State) (m i : Nat) : Child → Nat
  | .node k => s.fld (Reg.TMG_NODE_CFG k) Fd.TMG_NODE_CFG_RANK * 4096 + k
  | .mgt => s.fld (Reg.TMG_PRIO_CFG m i) Fd.TMG_PRIO_CFG_MGT_RANK * 4096 + 2048
  | .ctl => s.fld (Reg.TMG_PRIO_CFG m i) Fd.TMG_PRIO_CFG_CTL_RANK * 4096 + 2049
  | _ => 0

/-- The order of fair children of equal start tag: child nodes by index, flows by channel index, the forward leaf. -/
def fairOrder : Child → Nat
  | .prio i => i
  | .node k => k
  | .flow _ c => 2048 + c
  | .fwd _ => 300000
  | _ => 300001

/-- The fair child with the least start tag, ties by `fairOrder`. -/
def State.leastFair (s : State) (m : Nat) (cs : List Child) : Option Child :=
  match cs with
  | [] => none
  | a :: t => some (t.foldl (fun x c =>
      let sx := (s.tag m x).1
      let sc := (s.tag m c).1
      if tagLt sc sx || (sc == sx && decide (fairOrder c < fairOrder x)) then c else x) a)

/-- The child that a point chooses among the eligible frames beneath it (R218, R219 rule 2). -/
def State.choose (s : State) (m : Nat) (p : Point) (fs : List EgFrame) : Option Child :=
  let cs := fs.filterMap fun f => s.childAt f p
  match p with
  | .port =>
    let lvl := fun c => match c with | Child.prio i => s.fld (Reg.TMG_PRIO_CFG m i) Fd.TMG_PRIO_CFG_LEVEL | _ => 0
    match minBy lvl cs with
    | none => none
    | some c0 => s.leastFair m (cs.filter fun c => lvl c == lvl c0)
  | _ =>
    let i := (fs.head?.map (·.i)).getD 0
    match minBy (s.strictOrder m i) (cs.filter s.strictChild) with
    | some c => some c
    | none => s.leastFair m (cs.filter fun c => !s.strictChild c)

/-- Descending from point `p` among the frames `fs`: at each point a child is chosen, and a fair choice sets V (R219). -/
def State.descend (s : State) (m : Nat) : Nat → Point → List EgFrame → Option EgFrame × State
  | 0, _, _ => (none, s)
  | fuel + 1, p, fs =>
    match s.choose m p fs with
    | none => (none, s)
    | some c =>
      let s := if s.strictChild c then s else s.setVt m p ((s.tag m c).1, (s.vt m p).2)
      let fs := fs.filter fun f => s.childAt f p == some c
      match c with
      | .prio i => s.descend m fuel (.prio i) fs
      | .node k => s.descend m fuel (.node k) fs
      | _ => (fs.head?, s)

/-- EGRESS_SELECT of port `m` (R217): when no frame is in transmission, the port transmits frames and its shaper holds at least
zero tokens, the hierarchy chooses the next frame, whose transmission begins. -/
def State.egressSelect (s : State) (m : Nat) : State :=
  if (Tab.rd (fun _ => none) s.net.tx m).isSome || !s.sends m || !s.netOn || s.joinHold || !s.shaperOk m .port then s
  else
    match s.descend m 7 .port (s.eligible m) with
    | (none, s) => s
    | (some f, s) =>
      { s with net := { s.net with egress := s.net.egress.filter (fun (g : EgFrame) => g.id ≠ f.id || (g.leaf == Leaf.mgt) != (f.leaf == Leaf.mgt)),
                                   tx := Tab.wr (fun _ => none) s.net.tx m (some f) } }

def execEgressSelect (m : Fin 128) (s : State) : Host.Outcome State Fault Refusal := .next (s.egressSelect m.val)

/-! ### Departure (R219 to R221) -/

/-- L of a frame on port `m` (R220): its bytes with the FCS, plus the signed OVERHEAD, at least 1. -/
def State.frameLen (s : State) (m n : Nat) : Nat :=
  let o := s.fld (Reg.TMG_PORT_CFG m) Fd.TMG_PORT_CFG_OVERHEAD
  max 1 (if o < 128 then n + 4 + o else n + 4 - (256 - o))

/-- One point charges a frame of length L (R219 rules 3 and 4). -/
def State.chargePoint (s : State) (m : Nat) (f : EgFrame) (L : Nat) (pc : Point × Child) : State :=
  if s.strictChild pc.2 then s
  else
    let (st, _) := s.tag m pc.2
    let fin := (st + L * 65536 / s.childWeight m f pc.2) % tagMod
    let more := s.backlogged m pc.2
    let (v, mf) := s.vt m pc.1
    let mf := tagMax mf fin
    let s := match pc.2 with
      | .flow _ _ => s.setTag m pc.2 (if more then (fin, fin) else (0, 0))
      | c => s.setTag m c (if more then fin else st, fin)
    let idle := !(s.queued m).any fun g => (s.framePath g).any fun q => q.1 == pc.1 && !s.strictChild q.2
    s.setVt m pc.1 (if idle then mf else v, mf)

/-- Every shaper on the frame's path pays L × 1,000 (R221). -/
def State.payShapers (s : State) (m : Nat) (f : EgFrame) (L : Nat) : State :=
  (.port :: (s.framePath f).filterMap fun pc => match pc.2 with | .node k => some (Point.node k) | _ => none).foldl
    (fun s p => if (s.shaper m p).1 = 0 then s else s.setDeficit m p (s.deficit m p + L * 1000)) s

/-- A DEPART entry on the standby (15 R445): the frame with that handle has left the active, and its cells are freed. -/
def State.departed (s : State) (id : Nat) : State :=
  s.discardQueued fun (g : EgFrame) => g.id == id && !(g.leaf == Leaf.mgt)

/-- What leaves with a frame. -/
def EgFrame.out (f : EgFrame) : Out :=
  match f.cm with
  | some (rip, rqpn, msg) => .cm f.m rip rqpn msg
  | none => .frame f.m f.bytes f.bad

/-- FRAME_DEPART of port `m` at cycle `cycle` of the tick: the frame in transmission has left, its tail received if it is forwarded; its cells are
freed unless it is held, PFC frames that waited for it leave, the points on its path are charged, and the counters of the port advance. -/
def State.frameDepart (s : State) (m cycle : Nat) : State :=
  match Tab.rd (fun _ => none) s.net.tx m with
  | none => s
  | some f =>
    if f.src.isSome then s else
    let L := s.frameLen m f.bytes.length
    let s := { s with net := { s.net with tx := Tab.wr (fun _ => none) s.net.tx m none } }
    let s := (((s.emitNet f.out).txStamp m cycle f.bytes).flushPfc m).freeFrame f
    let s := if f.leaf == Leaf.mgt then s else s.entry 3 (leBytes 4 f.id ++ leBytes 2 cycle ++ leBytes 2 (if f.held then 0 else f.cells))
    let s := (s.cntMac m 2 1).cntMac m 3 (f.bytes.length + 4)
    let s := if f.bad && !f.held then s.cntSwc 3 1 else s
    (s.framePath f).foldl (fun s pc => s.chargePoint m f L pc) (s.payShapers m f L)

def execFrameDepart (m : Fin 128) (cycle : Fin 2048) (s : State) : Host.Outcome State Fault Refusal := .next (s.frameDepart m.val cycle.val)

/-- A write of a shaper's RATE or BURST configures it: its bucket starts at BURST × 1,000 (R221). -/
def State.shaperStart (s : State) (p : Nat → Bool) : State :=
  { s with net := { s.net with deficit := s.net.deficit.filter fun (e : Nat × Nat) => !p e.1 } }

/-- The refill of every shaper in the change phase (R221). -/
def State.shaperRefill (s : State) : State :=
  s.net.deficit.foldl (fun s (e : Nat × Nat) =>
    let m := e.1 / 4194304
    let n := e.1 % 4194304
    let p := if n = 0 then Point.port else .node (n - 16)
    s.setDeficit m p (e.2 - (s.shaper m p).1 * 1024)) s

/-- A port's hierarchy starts afresh (R222): V and every tag 0, every bucket full. -/
def State.hierarchyReset (s : State) (m : Nat) : State :=
  let keep := fun (k : Nat) => k / 4194304 != m
  { s with net := { s.net with vt := s.net.vt.filter (fun e => keep e.1), tags := s.net.tags.filter (fun e => keep e.1),
                               deficit := s.net.deficit.filter (fun e => keep e.1) } }

/-- Transmission on port `m` stops (04 R129, R131): queued frames are discarded and counted, the frame in transmission is cut off with an invalid FCS,
and no PFC frame follows. -/
def State.portStop (s : State) (m : Nat) : State :=
  let n := (s.queued m).length
  let s := if n = 0 then s else s.countDiscard m 4 n
  let s := match Tab.rd (fun _ => none) s.net.tx m with
    | none => s
    | some f => ({ s with net := { s.net with tx := Tab.wr (fun _ => none) s.net.tx m none } }.emitNet (.frame m f.bytes true)).freeFrame f
  let s := { s with net := { s.net with pfcDue := s.net.pfcDue.filter fun (e : Nat × Nat × Nat) => e.1 != m } }
  s.discardQueued fun g => g.m == m

/-- The hierarchy of port `m` starts from the state of R222: no frame is queued, V and every tag are 0, every bucket is full. -/
def State.hierarchyFresh (s : State) (m : Nat) : State := (s.discardQueued fun g => g.m == m).hierarchyReset m

/-- A link goes down (04 R129, 07 R222, 06 R197): transmission stops, pauses and XOFF are cleared, and the MAC entries of the port are removed. -/
def State.portFlush (s : State) (m : Nat) : State :=
  let s := s.portStop m
  let r := Reg.MAC_LP_STATUS m
  let s := (s.setFld r Fd.MAC_LP_STATUS_PAUSED 0).setFld r Fd.MAC_LP_STATUS_XOFF_SENT 0
  let s := { s with net := { s.net with quanta := s.net.quanta.filter (fun e => e.1 / 8 ≠ m),
                                        learned := s.net.learned.filter (fun e => e.port ≠ m) } }
  s.hierarchyReset m

end Sys2Proof.Machine
end

