-- ==== Sys2Proof/Machine/Qps.lean ====
section
/-!
DEFINITION. Queue pairs (05): the directory and its contexts, PSN arithmetic, the connection cache and its fetches (R150 to
R155), RoCEv2 packets, control packets, and the causes that move a QP to ERR (R177).
-/

namespace Sys2Proof.Machine

open Sys2Proof

/-! ### The directory (R142, R143) -/

def State.qp (s : State) (q : Nat) : Qp := Tab.rd (fun _ => Qp.reset) s.rdm.qps q
def State.setQp (s : State) (q : Nat) (x : Qp) : State :=
  { s with rdm := { s.rdm with qps := Tab.wr (fun _ => Qp.reset) s.rdm.qps q x } }
def State.updQp (s : State) (q : Nat) (f : Qp → Qp) : State := s.setQp q (f (s.qp q))

/-- QPN = EPOCH × 2^20 + index. -/
def State.qpn (s : State) (q : Nat) : Nat := (s.qp q).epoch * 1048576 + q

/-- The index that a QPN names, when it is not FREE and the epoch is its own. -/
def State.qpOf (s : State) (n : Nat) : Option Nat :=
  let q := n % 1048576
  if (s.qp q).st ≠ .free ∧ (s.qp q).epoch = n / 1048576 % 16 then some q else none

/-- The indices that are not FREE, or are about to leave FREE. -/
def State.liveQps (s : State) : List Nat := Tab.keys (fun x => x.st != .free) s.rdm.qps
def State.knownQps (s : State) : List Nat := Tab.keys (fun x => x.st != .free || x.next != .none) s.rdm.qps

/-- The QP takes part in a connection (R147): neither FREE nor TIMEWAIT. -/
def QpSt.connected : QpSt → Bool
  | .rtr | .rts | .drain | .disc | .err => true
  | .free | .timewait => false

/-- The code of RDM_QP_INFO[0].STATE. -/
def QpSt.code : QpSt → Nat
  | .free => 0 | .rtr => 1 | .rts => 2 | .drain => 3 | .disc => 4 | .err => 5 | .timewait => 6

/-! ### PSNs, 24 bits (R140) -/

def psnMod : Nat := 16777216
def psnSub (a b : Nat) : Nat := (a + psnMod - b % psnMod) % psnMod
def psnAdd (a b : Nat) : Nat := (a + b) % psnMod

/-- Path MTU in bytes: 3 for 1,024, 4 for 2,048, 5 for 4,096. -/
def Qp.mtu (x : Qp) : Nat := 128 * 2 ^ x.pmtu

/-- The bytes of held packets, UNACKED (R166). -/
def Qp.unacked (x : Qp) : Nat := x.held.foldl (fun a h => a + h.bytes.length) 0

/-- The waybills of QP `q`, and those in flight. -/
def State.wbsOf (s : State) (q : Nat) : List Nat := s.wbsThat fun x => x.qpn == s.qpn q

/-! ### Profiles (Table 5-10) -/

def State.ccRateMin (s : State) (p : Nat) : Nat := s.fld1 (Reg.RDM_CC_RATE p) Fd.RDM_CC_RATE_RATE_MIN
def State.ccBurst (s : State) (p : Nat) : Nat := s.fld (Reg.RDM_CC_BURST p) Fd.RDM_CC_BURST_BURST
def State.ccTime (s : State) (p : Nat) (f : Fld) : Nat := s.fld1 (Reg.RDM_CC_TIME p) f

/-! ### Causes (R177) and changes of state (R147) -/

/-- A change of state becomes due at the next seam. One that follows RTS is made after it at the same seam; ERR takes the place of any other that
waits, but for RTS, TIMEWAIT and FREE. -/
def Qp.want (x : Qp) (n : QpNext) : Qp :=
  match x.next, n with
  | .none, _ => { x with next := n }
  | .err _, _ | .timewait, _ | .free, _ => x
  | .rts, .rts => x
  | .rts, .err c => (match x.next2 with | .err _ => x | _ => { x with next2 := .err c })
  | .rts, _ => (match x.next2 with | .none => { x with next2 := n } | _ => x)
  | _, .err c => { x with next := .err c }
  | _, _ => x

def State.qpWant (s : State) (q : Nat) (n : QpNext) : State := s.updQp q (·.want n)

/-- The state by which an event of this tick is judged: a QP in RTR whose change to RTS waits for the seam counts as in RTS (log 138). -/
def Qp.stNow (x : Qp) : QpSt := if x.st = .rtr ∧ x.next = .rts then .rts else x.st

/-- A cause of Table 5-12 acts on a QP in RTS or DRAIN (Table 5-4). -/
def State.qpFail (s : State) (q cause : Nat) : State :=
  let st := (s.qp q).stNow
  if st = .rts ∨ st = .drain then s.qpWant q (.err cause) else s

/-- A change is due that is an ERR. -/
def QpNext.isErr : QpNext → Bool
  | .err _ => true
  | _ => false

/-- A cause already waits for the seam. -/
def Qp.failing (x : Qp) : Bool := x.next.isErr || x.next2.isErr

/-! ### The connection cache (R150 to R155) -/

def cacheSize : Nat := 65536

/-- The stack of the home of QP index `q` (R150). -/
def homeStack (q : Nat) : Nat := q / 8 % 4

/-- R151. -/
def Qp.pinned (x : Qp) (now : Nat) : Bool :=
  !x.pen.isEmpty || decide (0 < x.readsOut) || x.tx.any fun m => decide (now ≤ m.pinTo) && m.pinTo != 0

/-! ### The context in memory (R149, R150) -/

/-- Bytes of Table 5-5: each field of `n` bytes, little-endian. -/
def ctxField (f : Nat × Nat) : List Byte := leBytes f.1 f.2

/-- A signed field of `n` bytes in two's complement. -/
def signedNat (n : Nat) (i : Int) : Nat := (i % (256 ^ n : Nat)).toNat

/-- The 512 B of the context of QP index `q` (Table 5-5). -/
def Qp.ctxBytes (q : Nat) (x : Qp) : List Byte :=
  let ip := x.rip ++ zeros (16 - x.rip.length)
  let flags := b2n x.v6 + 2 * b2n x.probe + 4 * b2n x.nakSent + 8 * b2n x.reasm
  let reads := (List.range 16).flatMap fun i => match x.reads[i]? with
    | some e => leBytes 4 e.psn ++ leBytes 4 e.len ++ leBytes 4 e.wb ++ leBytes 4 e.got
    | none => zeros 16
  [(3, x.epoch * 1048576 + q), (1, x.st.code), (2, x.host), (2, x.qid), (1, x.lport), (1, x.entry), (1, x.pmtu), (1, x.prof), (4, x.rqpn)].flatMap ctxField
    ++ x.rmac.take 6 ++ zeros (6 - x.rmac.length) ++ leBytes 2 x.vlan ++ ip.take 16
    ++ [(2, x.sport), (1, x.dscp), (1, flags), (4, x.epsn), (4, x.msn), (4, x.recMsn), (8, x.recRead), (8, x.recEnd), (4, x.nextPsn), (4, x.unaPsn),
        (4, x.unacked), (1, x.readsOut), (1, x.ord), (1, x.ird), (1, x.inReads), (1, x.retryCnt), (1, x.retryLeft), (1, x.rnrCnt), (1, x.rnrLeft),
        (4, x.rate), (8, x.ackDeadline), (8, x.rnrResume), (4, signedNat 4 x.bucket), (4, signedNat 4 x.baseRtt), (4, signedNat 4 x.lastQ),
        (4, signedNat 4 x.grad), (4, x.probePsn), (1, x.inc), (3, 0), (8, x.probeStamp), (8, x.baseSet), (8, x.lastUpdate), (8, x.cnpHold), (8, x.cnpSent),
        (4, ((x.held.head?).map (·.handle)).getD 0), (4, ((x.held.getLast?).map (·.handle)).getD 0), (4, x.rxHandle), (4, x.rx.length)].flatMap ctxField
    ++ zeros 64 ++ reads

/-- The context has changed since it was fetched: it differs from its home (R153). -/
def State.dirtyQp (s : State) (q : Nat) : Bool := (s.qp q).ctxBytes q != (s.qp q).home

def State.residents (s : State) : List Nat := Tab.keys (fun x => x.resident) s.rdm.qps
def State.readPins (s : State) : Nat := (Tab.keys (fun x => x.resident && decide (0 < x.readsOut)) s.rdm.qps).length
def State.penPins (s : State) : Nat := (Tab.keys (fun x => x.resident && !x.pen.isEmpty) s.rdm.qps).length

/-- The context is used (R151). -/
def State.useQp (s : State) (q : Nat) : State :=
  let n := s.rdm.useSeq + 1
  ({ s with rdm := { s.rdm with useSeq := n } }).updQp q fun x => { x with used := n }

/-- Cache entries in use: resident contexts, and those being fetched. -/
def State.cacheUse (s : State) : Nat := s.residents.length + (Tab.keys (fun (x : Qp) => x.fetch.any fun f => f.grant.isSome) s.rdm.qps).length

/-- The victim of a fetch (R151): none is needed while the cache has a free entry. -/
def State.victim (s : State) : Option Nat :=
  if s.cacheUse < cacheSize then none
  else
    let free := s.residents.filter fun q => !(s.qp q).pinned s.now
    (minBy (fun q => (s.qp q).used) (free.filter fun q => (s.wbsOf q).isEmpty)) <|> minBy (fun q => (s.qp q).used) free

/-- The transfers of a tick on stack `n`, and their limit TRANSPORT_LANES × 32 (R153). -/
def State.xfers (s : State) (n : Nat) : Nat := Tab.rd (fun _ => 0) s.rdm.xfers n
def State.addXfer (s : State) (n : Nat) : State :=
  { s with rdm := { s.rdm with xfers := Tab.wr (fun _ => 0) s.rdm.xfers n (s.xfers n + 1) } }
def State.xferMax (s : State) : Nat := s.img.tlanes * 32

/-- A fetch for QP `q` fits in this tick's budget: its read on its home's stack, and its victim's write-back on the victim's. -/
def State.fetchFits (s : State) (q : Nat) : Bool :=
  let room (n k : Nat) : Bool := decide (s.xfers n + k ≤ s.xferMax)
  match s.victim with
  | some v =>
    if s.dirtyQp v then
      (if homeStack v = homeStack q then room (homeStack q) 2 else room (homeStack q) 1 && room (homeStack v) 1)
    else room (homeStack q) 1
  | none => room (homeStack q) 1 && decide (s.cacheUse < cacheSize)

/-- The transmissions that wait for the context take their pin, and are released at the start of the second tick from now (R152, R154). -/
def Qp.pinWaiting (x : Qp) (now : Nat) : Qp :=
  { x with tx := x.tx.map fun m => if m.after ≤ now then { m with pinTo := now + 2, after := now + 2 } else m }

/-- A granted fetch: the victim is written back to its home when it has changed and leaves the cache, and the read is issued (R153). -/
def State.grantFetch (s : State) (q : Nat) : State :=
  let s := match s.victim with
    | some v => (if s.dirtyQp v then s.addXfer (homeStack v) else s).updQp v fun x => { x with resident := false, home := x.ctxBytes v }
    | none => s
  (s.addXfer (homeStack q)).updQp q fun x =>
    let x := if x.fetch.any (·.kind == 1) then x.pinWaiting s.now else x
    { x with fetch := x.fetch.map fun f => { f with grant := some s.now } }

/-- A fetch of kind `k` is asked for, unless one is pending: an egress or timer fetch beyond the budget waits for it; a fetch
for an arriving packet is not made (R153, R158). Answers whether a fetch is pending now. -/
def State.askFetch (s : State) (q k : Nat) : Bool × State :=
  if (s.qp q).fetch.isSome then (true, s)
  else
    let fits := s.fetchFits q
    if k = 0 ∧ ¬ fits then (false, s)
    else
      let s := s.updQp q fun x => { x with fetch := some { kind := k, asked := s.now, grant := none } }
      (true, if fits then s.grantFetch q else s)

/-- A transmission of QP `q` is armed, or can be released again, while its context is not resident (R152, R154): an egress fetch is issued. A fetch of
the same context that is already on its way serves it too: granted, its transmission takes its pin now; waiting, it takes the place of an egress fetch
(log 139). -/
def State.askEgress (s : State) (q : Nat) : State :=
  match (s.qp q).fetch with
  | none => (s.askFetch q 1).2
  | some f =>
    if f.grant.isSome then (if f.kind = 1 then s else s.updQp q (·.pinWaiting s.now))
    else if f.kind = 2 then s.updQp q fun x => { x with fetch := some { f with kind := 1, asked := s.now } }
    else s

/-- A deadline of QP `q` has expired while its context is not resident (R154): a timer fetch is issued; with a fetch of the context already on its way
the expiry is acted on 2 ticks from now, or from the grant (log 139). -/
def State.askTimer (s : State) (q : Nat) : State :=
  match (s.qp q).fetch with
  | none => (s.askFetch q 2).2
  | some f => if f.kind = 2 ∨ (s.qp q).timerAt.isSome = true then s else s.updQp q fun x => { x with timerAt := some (s.now + 2) }

/-- Pending fetches in the order of R153: egress fetches, oldest first, then timer fetches. -/
def State.waitingFetches (s : State) : List Nat :=
  let of (k : Nat) := Tab.keys (fun (x : Qp) => x.fetch.any fun f => f.kind == k && f.grant.isNone) s.rdm.qps
  sortBy (fun q => ((s.qp q).fetch.map (·.asked)).getD 0) (of 1) ++ sortBy (fun q => ((s.qp q).fetch.map (·.asked)).getD 0) (of 2)

/-- A tick begins: its budget is fresh, and the fetches that waited are granted as far as it goes. -/
def State.tickFetches (s : State) : State :=
  let s := { s with rdm := { s.rdm with xfers := [] } }
  s.waitingFetches.foldl (fun s q => if s.fetchFits q then s.grantFetch q else s) s

/-- The fetch of QP `q`, of kind `k`, granted in tick t, is complete from cycle 0 of tick t + 2 (R154, R157). -/
def State.fetchDue (s : State) (q k : Nat) : Bool :=
  match (s.qp q).fetch with
  | some f => !s.joinHold && f.kind == k && (match f.grant with | some t => decide (t + 2 ≤ s.now) | none => false)
  | none => false

/-- The context is in the cache; from here on it may differ from its home. -/
def State.fetchDone (s : State) (q : Nat) : State := s.updQp q fun x => { x with fetch := none, resident := true, home := x.ctxBytes q }

/-! ### Packets -/

/-- The bytes that the ICRC covers, with the fields that change on the way as ones (InfiniBand RoCEv2): eight octets of ones,
then the IP header on. -/
def icrcInput (bs : List Byte) : List Byte :=
  let h := parseHdr bs
  let ff := fun (n : Nat) => List.replicate n (0xFF : Byte)
  let b := bs
  let b := if h.ipVer = 4 then patch (patch (patch b (h.l3 + 1) (ff 1)) (h.l3 + 8) (ff 1)) (h.l3 + 10) (ff 2)
    else patch (patch b h.l3 [(beField b h.l3 1 / 16 * 16 + 15 : Nat), 0xFF, 0xFF, 0xFF]) (h.l3 + 7) (ff 1)
  let b := patch (patch b (h.l4 + 6) (ff 2)) (h.l4 + 12) (ff 1)
  ff 8 ++ b.drop h.l3

/-- The end of the IP packet within a frame. -/
def Hdr.end_ (h : Hdr) : Nat := h.l3 + h.ipLen

/-- The ICRC of a received frame is right. -/
def icrcOk (bs : List Byte) : Bool :=
  let e := (parseHdr bs).end_
  decide (4 ≤ e) && decide (e ≤ bs.length) && (crc32 (icrcInput (bs.take (e - 4)))).toNat == leField bs (e - 4) 4

/-- The base transport header of a received frame. -/
structure Bth where
  op : Nat
  pad : Nat
  tver : Nat
  pkey : Nat
  qpn : Nat
  psn : Nat
deriving DecidableEq, Repr

def parseBth (bs : List Byte) : Bth :=
  let o := (parseHdr bs).l4 + 8
  { op := beField bs o 1, pad := beField bs (o + 1) 1 / 16 % 4, tver := beField bs (o + 1) 1 % 16, pkey := beField bs (o + 2) 2,
    qpn := beField bs (o + 5) 3, psn := beField bs (o + 9) 3 }

/-- The bytes between the BTH and the ICRC, padding excluded. -/
def bthBody (bs : List Byte) : List Byte :=
  let h := parseHdr bs
  let o := h.l4 + 20
  (bs.take (h.end_ - 4 - (parseBth bs).pad)).drop o

/-- An Ethernet header under address entry `a` (04 R122): the entry's MAC as its source, and its tag. -/
def ethHeader (dst : List Byte) (a : AddrEnt) (etype : Nat) : List Byte :=
  dst ++ a.mac ++ (if a.vlan = 0 then [] else beBytes 2 0x8100 ++ beBytes 2 (a.prio * 8192 + a.vlan)) ++ beBytes 2 etype

/-- An IP packet from the address of entry `a` to `rip`, with the entry's DSCP (04 R122); `hop` is its TTL or hop limit. -/
def ipPacket (a : AddrEnt) (rip : List Byte) (dscp ecn proto : Nat) (hop : Byte) (body : List Byte) : List Byte :=
  let tos := dscp * 4 + ecn
  if a.family = 6 then
    [BitVec.ofNat 8 (96 + tos / 16), BitVec.ofNat 8 (tos % 16 * 16) ||| (Config.ipOctet 5 &&& 15), Config.ipOctet 6,
      Config.ipOctet 7] ++ beBytes 2 body.length ++ [BitVec.ofNat 8 proto, hop] ++ a.ip ++ rip ++ body
  else
    let h := [0x45, BitVec.ofNat 8 tos] ++ beBytes 2 (20 + body.length) ++ [Config.ipOctet 0, Config.ipOctet 1, Config.ipOctet 2,
      Config.ipOctet 3, hop, BitVec.ofNat 8 proto, 0, 0] ++ a.ip.take 4 ++ rip.take 4
    patch h 10 (beBytes 2 (inetSum h)) ++ body

/-- A RoCEv2 packet under address entry `a` of the QP, with the ICRC at its end. -/
def udpPacket (x : Qp) (a : AddrEnt) (ecn : Nat) (body : List Byte) : List Byte :=
  let n := 8 + body.length + 4
  let udp := beBytes 2 x.sport ++ beBytes 2 4791 ++ beBytes 2 n ++ [0, 0] ++ body
  -- The lengths count the ICRC, which is computed over the packet with room for it.
  let p := ethHeader x.rmac a (if x.v6 then 0x86DD else 0x0800) ++ ipPacket a x.rip x.dscp ecn 17 (Config.ipOctet 4) (udp ++ zeros 4)
  let p := p.take (p.length - 4)
  p ++ leBytes 4 (crc32 (icrcInput p)).toNat

/-- A RoCEv2 packet of QP `q`: BTH, extension header, payload padded to a multiple of 4 (R140, R165: ECT(0), CNPs Not-ECT). -/
def State.rocePacket (s : State) (q op psn : Nat) (ack : Bool) (ext payload : List Byte) : List Byte :=
  let x := s.qp q
  let a := (s.addr x.lport x.entry).getD { family := 4, vlan := 0, prio := 0, dscp := 0, mac := zeros 6, pfx := 0, ip := zeros 16 }
  let pad := (4 - payload.length % 4) % 4
  let bth := beBytes 1 op ++ beBytes 1 (pad * 16) ++ beBytes 2 0xFFFF ++ [0] ++ beBytes 3 x.rqpn
    ++ beBytes 1 (if ack then 128 else 0) ++ beBytes 3 psn
  udpPacket x a (if op = 0x81 then 0 else 2) (bth ++ ext ++ payload ++ zeros pad)

/-- The PRIO of the QP's address entry. -/
def State.qpPrio (s : State) (q : Nat) : Nat := ((s.addr (s.qp q).lport (s.qp q).entry).map (·.prio)).getD 0

/-- A control packet takes its cells from the reserve of the management area and joins the control leaf (06 R184, 07 R215). -/
def State.sendCtl (s : State) (q : Nat) (wait : Option Nat) (bytes : List Byte) : State :=
  let c := frameCells bytes
  (s.takeCells .ctl c).enqueue
    { id := 0, m := (s.qp q).lport, i := s.qpPrio q, leaf := .ctl, bytes := bytes, cells := c, acct := .ctl, ready := true,
      bad := false, held := false, src := none, group := none, wait := wait }

/-- The AETH: syndrome and MSN. -/
def aeth (syn msn : Nat) : List Byte := beBytes 1 syn ++ beBytes 3 msn

/-- AETH syndromes (InfiniBand): an ACK with credits not counted (R162), and the NAK codes. -/
def synAck : Nat := 0x1F
def synSeq : Nat := 0x60
def synInv : Nat := 0x61
def synAccess : Nat := 0x62
def synOp : Nat := 0x63

def State.sendAck (s : State) (q : Nat) : State :=
  let x := s.qp q
  s.sendCtl q (some s.itn.tick) (s.rocePacket q 0x11 (psnSub x.epsn 1) false (aeth synAck x.msn) [])

/-- A NAK carries EPSN. -/
def State.sendNak (s : State) (q syn : Nat) : State :=
  let x := s.qp q
  s.sendCtl q (some s.itn.tick) (s.rocePacket q 0x11 x.epsn false (aeth syn x.msn) [])

/-- An in-sequence request with a NAK disposition (R141): it ends RTR as any in-sequence request does (Table 5-4); the NAK of its cause goes first, and no
other follows it (R177); EPSN advances (R160). -/
def State.nakFail (s : State) (q syn cause : Nat) : State :=
  let s := if (s.qp q).st = .rtr then s.qpWant q .rts else s
  let s := if (s.qp q).failing then s else (s.sendNak q syn).qpFail q cause
  s.updQp q fun x => { x with epsn := psnAdd x.epsn 1 }

/-- The CNP (R165): 16 bytes of zeros after the BTH. -/
def State.cnp (s : State) (q : Nat) : State :=
  let x := s.qp q
  let iv := s.ccTime x.prof Fd.RDM_CC_TIME_CNP_INTERVAL
  if s.flag Reg.RDM_CFG Fd.RDM_CFG_NP_EN ∧ (x.cnpSent = 0 ∨ x.cnpSent + iv ≤ s.now) then
    ((s.sendCtl q none (s.rocePacket q 0x81 0 false [] (zeros 16))).updQp q fun x => { x with cnpSent := s.now }).cntRdm 11 1
  else s

/-! ### Pacing and wire bytes (R175) -/

/-- The line rate of the QP's logical port, MB/s. -/
def State.lineRate (s : State) (q : Nat) : Nat := s.rateMBs (s.qp q).lport

def State.ccEn (s : State) : Bool := s.flag Reg.RDM_CFG Fd.RDM_CFG_CC_EN

/-- The rate in force: the line rate for every QP while CC_EN is 0. -/
def State.qpRate (s : State) (q : Nat) : Nat := if s.ccEn then (s.qp q).rate else s.lineRate q

def State.paced (s : State) (q : Nat) : Bool := decide (s.qpRate q < s.lineRate q)

/-- Bytes on the wire: the frame with its FCS, and 20 bytes of preamble and gap. -/
def wireBytes (n : Nat) : Nat := max 64 (n + 4) + 20

/-! ### Resending held packets (R167, R169) -/

/-- The leaf of a transmission of a channel (07 R215): the channel's flow under its node while the node's priority is that of
the entry and its path is valid, otherwise directly under the priority. A transmission of no channel has a flow of its own. -/
def State.flowLeaf (s : State) (q : Nat) (ch : Option Nat) : Leaf × Bool :=
  match ch with
  | none => (.flow (262144 + q) 1 none, false)
  | some i =>
    let c := s.chan i
    if s.nodeValid c.node && s.nodePrio c.node == some (s.qpPrio q) then (.flow i c.weight (some c.node), false)
    else (.flow i c.weight none, true)

/-- A requester packet joins the egress queue; its cells stay with the held packet. -/
def State.sendHeld (s : State) (q : Nat) (ch wait : Option Nat) (bytes : List Byte) (stomp : Bool) : State :=
  let (leaf, fb) := s.flowLeaf q ch
  let s := if fb then s.cntTmg 6 1 else s
  s.enqueue { id := 0, m := (s.qp q).lport, i := s.qpPrio q, leaf := leaf, bytes := bytes, cells := frameCells bytes,
              acct := .hold, ready := true, bad := stomp, held := true, src := none, group := none, wait := wait }

/-- The RETH: address, key and DMA length. -/
def reth (va rkey len : Nat) : List Byte := beBytes 8 va ++ beBytes 4 rkey ++ beBytes 4 len

/-- The channel of waybill `w`, by index. -/
def State.wbChan (s : State) (w : Nat) : Option Nat := s.chanOf (s.wb w).chan

/-- The request that reissues an outstanding READ for its remaining bytes, at its next response PSN. -/
def State.reissueBytes (s : State) (q : Nat) (e : ReadEnt) : List Byte :=
  s.rocePacket q 0x0C (psnAdd e.psn (e.got / (s.qp q).mtu)) true (reth (e.va + e.got) e.rkey (e.len - e.got)) []

/-- A held packet is sent again: a READ for its remaining bytes. The sample of a probe that is resent is discarded (R172), and a paced QP pays for the
packet (R175). -/
def State.resendOne (s : State) (q : Nat) (h : Held) : State :=
  let bytes := match (if h.read then (s.qp q).reads.find? (·.psn == h.psn) else none) with
    | some e => s.reissueBytes q e
    | none => h.bytes
  let paced := s.paced q
  (s.updQp q fun x => { x with
    probe := x.probe && h.psn != x.probePsn
    bucket := if paced then x.bucket - wireBytes bytes.length else x.bucket }).sendHeld q h.chan none bytes h.stomp

/-- The packets that wait to be resent leave in PSN order while nothing holds them back, at most `n`: a paced QP's BUCKET (R175). One that has been freed
meanwhile is passed over; each that leaves counts in RETX (R167). -/
def State.resendSome (q : Nat) : Nat → State → State
  | 0, s => s
  | n + 1, s =>
    match (s.qp q).resend with
    | [] => s
    | p :: rest =>
      match (s.qp q).held.find? (·.psn == p) with
      | none => State.resendSome q n (s.updQp q fun x => { x with resend := rest })
      | some h =>
        if s.paced q && decide ((s.qp q).bucket < 0) then s
        else State.resendSome q n (((s.updQp q fun x => { x with resend := rest }).cntRdm 7 1).resendOne q h)

/-- Every held packet from PSN `p` is to be resent in PSN order, and the READs from `p` reissued (R167, R169). -/
def State.resendFrom (s : State) (q p : Nat) : State :=
  let x := s.qp q
  let span := psnSub x.nextPsn p
  let hs := x.held.filter fun h => decide (psnSub (psnAdd h.psn (h.count - 1)) p < span)
  State.resendSome q hs.length (s.updQp q fun x => { x with resend := hs.map (·.psn) })

/-- The ACK timeout, 4 × 2^ACK_TO ticks from now (R169). -/
def State.ackDeadline (s : State) : Nat := s.now + 4 * 2 ^ s.fld Reg.RDM_RETRY Fd.RDM_RETRY_ACK_TO

/-- The deadline set afresh while a packet is held and no RNR wait is in force; cleared otherwise. -/
def State.setDeadline (s : State) (q : Nat) : State :=
  s.updQp q fun x => { x with ackDeadline := if x.held.isEmpty || x.rnrResume != 0 then 0 else s.ackDeadline }

end Sys2Proof.Machine
end

