-- ==== Sys2Proof/Machine/Meter.lean ====
section
/-!
DEFINITION. Toll meters and deferral (07 R200 to R212), and the acceptance of a capsule (08 R233, R235, R571; 07 R200).
-/

namespace Sys2Proof.Machine

open Sys2Proof

/-! ### What a capsule says (08 R247) -/

/-- The SGL descriptor of a submission queue entry: bytes 24 to 39, its type and subtype in the last. -/
def sglType (sqe : List Byte) : Nat := leField sqe 39 1 / 16
def sglSub (sqe : List Byte) : Nat := leField sqe 39 1 % 16
/-- The length that the descriptor states: 3 bytes of a Keyed SGL Data Block, 4 of an SGL Data Block; none for another type. -/
def sglLen (sqe : List Byte) : Option Nat :=
  if sglType sqe = 4 then some (leField sqe 32 3) else if sglType sqe = 0 then some (leField sqe 32 4) else none
def sglAddr (sqe : List Byte) : Nat := leField sqe 24 8
def sglKey (sqe : List Byte) : Nat := leField sqe 35 4
def sqeNsid (sqe : List Byte) : Nat := leField sqe 4 4
def sqeCid (sqe : List Byte) : Nat := leField sqe 2 2
def sqeOp (sqe : List Byte) : Nat := leField sqe 0 1
def sqeDw (sqe : List Byte) (n : Nat) : Nat := leField sqe (4 * n) 4

/-- The charge of R201: 64 B plus the data length, taken as at most 2 MiB. -/
def chargeOf (sqe : List Byte) : Nat := 64 + min 2097152 ((sglLen sqe).getD 0)

/-! ### Colours (R203, R204) -/

/-- Colours: 0 green, 1 yellow, 2 red. -/
def meterAlg (mode : Nat) : Nat := mode % 4
def meterAware (mode : Nat) : Bool := natBit mode 2
def yellowAction (mode : Nat) : Nat := mode / 8 % 4
def redAction (mode : Nat) : Nat := mode / 32 % 4

/-- Table 7-1 after the pre-colour of R204: the colour, and the tokens taken from Tc and from Tp or Te. -/
def colourOf (alg pre tc tp b : Nat) : Nat × Nat × Nat :=
  if alg = 0 then (0, 0, 0)
  else if pre = 2 then (2, 0, 0)
  else if alg = 2 then (if tp < b then (2, 0, 0) else if pre = 1 ∨ tc < b then (1, 0, b) else (0, b, b))
  else if pre = 0 ∧ b ≤ tc then (0, b, 0)
  else if b ≤ tp then (1, 0, b)
  else (2, 0, 0)

/-- The pre-colour of a DSCP: TMG_PRECOLOUR, 3 taken as green (R204). -/
def State.preColour (s : State) (dscp : Nat) : Nat :=
  let v := (s.rd (Reg.TMG_PRECOLOUR (dscp / 16))).toNat / 4 ^ (dscp % 16) % 4
  if v = 3 then 0 else v

/-- Actions of Table 7-2. -/
def actPass : Nat := 0
def actDefer : Nat := 1
def actReject : Nat := 2

/-- A counter of channel index `i` in telemetry group 15 (18 Table 18-1). -/
def State.cntChan (s : State) (i j n : Nat) : State := s.acc 15 i j n

/-- A command of channel `i` is metered: its colour is counted, its action decided, and its tokens taken when it passes
(R203 to R205). -/
def State.meterCap (s : State) (i : Nat) (c : Capsule) : Nat × State :=
  let ch := s.chan i
  let alg := meterAlg ch.meterMode
  let pre := if meterAware ch.meterMode then c.pre else 0
  let (col, dc, dp) := colourOf alg pre ch.tc ch.tp (chargeOf c.sqe * 1000)
  let act := if col = 0 then actPass else if col = 1 then yellowAction ch.meterMode else redAction ch.meterMode
  let s := (s.cntTmg col 1).cntChan i (4 + col) 1
  let ch := { ch with colour := col }
  (act, s.setChan i (if act = actPass then { ch with tc := ch.tc - dc, tp := ch.tp - dp } else ch))

/-- Cells held by deferred capsules (TMG_DEFER_OCC). -/
def capCells (c : Capsule) : Nat := c.cells.foldl (fun a e => a + e.2) 0
def State.deferCells (s : State) : Nat := (s.cmd.caps.filter (·.deferred)).foldl (fun a c => a + capCells c) 0

/-- The command joins the deferral queue of its channel, or is answered when the queue or the cell limit turns it away (R207,
R208). -/
def State.deferCap (s : State) (i : Nat) (c : Capsule) : State :=
  let ch := s.chan i
  if s.fld Reg.TMG_CFG Fd.TMG_CFG_DEFER_DEPTH ≤ ch.defq.length
      ∨ s.fld Reg.TMG_DEFER_CELLS Fd.TMG_DEFER_CELLS_LIMIT < s.deferCells + capCells c then
    ((s.cntTmg 4 1).cntTmg 5 1).postCap c.id true
  else
    ((s.setChan i { ch with defq := ch.defq ++ [c.id] }).updCap c.id fun c => { c with deferred := true, wasDeferred := true }).cntTmg
      3 1

/-- The capsule of channel `i` is charged and goes on by its action (R200, R205 to R207); a suspended or closing channel is
not metered. -/
def State.chargeCap (s : State) (i : Nat) (c : Capsule) : State :=
  let ch := s.chan i
  if ch.st ≠ .opened then s.postCap c.id false
  else if !ch.defq.isEmpty then s.deferCap i c
  else
    let (act, s) := s.meterCap i c
    if act = actPass then s.postCap c.id false
    else if act = actDefer then s.deferCap i c
    else (s.cntTmg 4 1).postCap c.id true

/-- The refill of one meter at a seam (R202). -/
def refillMeter (ch : Chan) : Chan :=
  let cap := ch.cbs * 1000
  let top := ch.pbs * 1000
  if meterAlg ch.meterMode = 2 then { ch with tc := min cap (ch.tc + ch.cir * 1024), tp := min top (ch.tp + ch.pir * 1024) }
  else if meterAlg ch.meterMode = 1 then
    let t := ch.tc + ch.cir * 1024
    { ch with tc := min cap t, tp := min top (ch.tp + (t - cap)) }
  else ch

/-- The deferral queue of channel `i` is served (R207): at most `n` heads. -/
def State.serveDefer (i : Nat) : Nat → State → State
  | 0, s => s
  | n + 1, s =>
    match (s.chan i).defq with
    | [] => s
    | id :: rest =>
      match s.cap? id with
      | none => State.serveDefer i n (s.setChan i { s.chan i with defq := rest })
      | some c =>
        let (act, s) := s.meterCap i c
        if act = actDefer then s
        else
          let s := s.setChan i { s.chan i with defq := rest }
          let s := if act = actReject then s.cntTmg 4 1 else s
          State.serveDefer i n (s.postCap id (act == actReject))

/-- The refill of every meter at a seam, before any other change of its channel (R202). -/
def State.meterRefill (s : State) : State := s.liveChans.foldl (fun s i => s.setChan i (refillMeter (s.chan i))) s

/-- The deferral queues are served, in ascending channel order (R207). -/
def State.meterSeam (s : State) : State := s.liveChans.foldl (fun s i => State.serveDefer i (s.chan i).defq.length s) s

/-- TMG_CHAN_INFO takes the snapshot that a write of TMG_CHAN_SEL asked for, after the refill. -/
def State.meterSnap (s : State) : State :=
  if !s.net.tmgSel then s
  else
    let s := { s with net := { s.net with tmgSel := false } }
    let put (s : State) (a b c d : Nat) : State :=
      (((s.wrReg Reg.TMG_CHAN_INFO0 (BitVec.ofNat 32 a)).wrReg Reg.TMG_CHAN_INFO1 (BitVec.ofNat 32 b)).wrReg Reg.TMG_CHAN_INFO2
        (BitVec.ofNat 32 c)).wrReg Reg.TMG_CHAN_INFO3 (BitVec.ofNat 32 d)
    match s.chanOf (s.rd Reg.TMG_CHAN_SEL).toNat with
    | none => put s 0 0 0 0
    | some i =>
      let ch := s.chan i
      put s (2147483648 + meterAlg ch.meterMode * 16777216 + ch.defq.length) (ch.tc / 1000) (ch.tp / 1000) ch.colour

/-- TMG_CHAN_SEL_WRITE: the snapshot is taken at the next seam. -/
def execTmgChanSelWrite (w : Word) (s : State) : Host.Outcome State Fault Refusal :=
  .next (s.hostWrite Reg.TMG_CHAN_SEL fun s =>
    let s := s.regWrite Reg.TMG_CHAN_SEL w
    { s with net := { s.net with tmgSel := true } })

/-! ### Acceptance of a capsule (08 R233, R235, R571) -/

/-- The channel to which the capsule `sqe` of QP `q` belongs, by index (07 R200): the host's admin channel for an admin queue; for an I/O queue
the channel of the NSID. No I/O capsule belongs to the admin channel: NSID 0 names no namespace. -/
def State.capChan (s : State) (q : Nat) (sqe : List Byte) : Option Nat :=
  let x := s.qp q
  if !x.bound then none
  else if x.qid = 0 then s.findChan x.host 0
  else if sqeNsid sqe = 0 then none
  else s.findChan x.host (sqeNsid sqe)

/-- The OPEN admin channel of the QP's host. -/
def State.adminChan (s : State) (host : Nat) : Option Nat :=
  match s.findChan host 0 with
  | some i => if (s.chan i).st = .opened then some i else none
  | none => none

/-- The cluster to which a capsule is posted: its channel's; for a capsule of no channel, as R571 gives. -/
def State.capCluster (s : State) (q : Nat) (ch : Option Nat) : Nat :=
  match ch with
  | some i => s.serveCluster i
  | none =>
    match (if (s.qp q).bound then s.adminChan (s.qp q).host else none) with
    | some i => (s.chan i).cluster
    | none => s.servers.headD 0

/-- The class in which a capsule of no channel is served (R571). -/
def State.capClass (s : State) (q : Nat) : Nat :=
  match (if (s.qp q).bound then s.adminChan (s.qp q).host else none) with
  | some i => (s.chan i).cls
  | none => noClass

/-- Commands of cluster `k` accepted and neither admitted nor answered; those posted to its collecting bank in this tick. -/
def State.capsOn (s : State) (k : Nat) : Nat := (s.cmd.caps.filter (·.cluster == k)).length
def State.bankUse (s : State) (k : Nat) : Nat :=
  (s.cmd.items.filter fun it => it.cluster == k && it.code == 1 && it.ready == s.now + 1).length

/-- Aborts of the controller of QP `q` that are outstanding (08 R236, R248). -/
def State.abortsOut (s : State) (q : Nat) : Nat :=
  let key := (s.qp q).ctrl
  let mine (qpn : Nat) : Bool := match s.qpOf qpn with | some p => (s.qp p).bound && (s.qp p).ctrl == key && (s.qp p).qid == 0 | none => false
  (s.cmd.caps.filter fun c => sqeOp c.sqe == 0x08 && mine c.qpn).length
    + (s.wbsThat fun x => x.opcode == 0x08 && x.st != .committed && mine x.qpn).length

/-- The last packet of a capsule is accepted when R235 allows: the capsule exists, its controller's keep-alive timer restarts,
and it is charged or posted. None: TR_FULL. -/
def State.acceptCapsule (s : State) (q : Nat) (bytes : List Byte) (cells : List (Acct × Nat)) (dscp stamp : Nat) (parked : Bool) :
    Option State :=
  let sqe := bytes.take 64
  let ch := s.capChan q sqe
  let k := s.capCluster q ch
  if 4096 ≤ s.bankUse k ∨ 32768 ≤ s.capsOn k then none
  else
    let x := s.qp q
    let c : Capsule :=
      { id := s.cmd.capSeq, qpn := s.qpn q, chan := ch, cid := sqeCid sqe, sqe := sqe, icd := bytes.drop 64, tick := s.now,
        reject := false, abort := false, counted := true, answer := none, cells := cells, cluster := k, cls := s.capClass q, dscp := dscp, pre := s.preColour dscp,
        beyond := x.bound && x.qid == 0 && sqeOp sqe == 0x08 && decide (4 ≤ s.abortsOut q)
        deferred := false, wasDeferred := false, parked := parked, stamp := stamp }
    let s := { s with cmd := { s.cmd with caps := s.cmd.caps ++ [c], capSeq := s.cmd.capSeq + 1 } }
    let s := s.updQp q fun x => { x with accepted := x.accepted + 1 }
    let s := if x.bound then s.updCtrl x.ctrl fun e => { e with last := s.now } else s
    some (match ch with
      | some i => s.chargeCap i c
      | none => s.postCap c.id false)

end Sys2Proof.Machine
end

