-- ==== Sys2Proof/Machine/Rdma.lean ====
section
/-!
DEFINITION. The RDMA transport at work (05): receiving (R156 to R165), acknowledgements and READ responses (R167, R168),
congestion control (R172 to R175), transmission (R166, R170), timers, connection management and QP states (R144 to R148), and the
seam's part.
-/

namespace Sys2Proof.Machine

open Sys2Proof

/-! ### Freeing held packets (Table 5-8) -/

/-- Held packets up to PSN `p` are freed, their cells with them; UNA_PSN becomes p + 1. -/
def State.freeTo (s : State) (q p : Nat) : State :=
  let x := s.qp q
  let n := psnSub (psnAdd p 1) x.unaPsn
  let gone := x.held.filter fun h => decide (psnSub (psnAdd h.psn h.count) x.unaPsn ≤ n)
  let s := gone.foldl (fun s h => s.freeCells .hold h.cells) s
  let s := s.updQp q fun x => { x with
    held := x.held.filter fun h => decide (n < psnSub (psnAdd h.psn h.count) x.unaPsn)
    unaPsn := psnAdd p 1 }
  if gone.isEmpty then (if (s.qp q).held.isEmpty then s.setDeadline q else s) else s.setDeadline q

/-- PSN `p` is valid for a response (R167). -/
def Qp.validRsp (x : Qp) (p : Nat) : Bool := decide (psnSub p x.unaPsn < psnSub x.nextPsn x.unaPsn)

/-! ### The rate (R172 to R174) -/

/-- The update of R173 with a round-trip time of `rtt` ns; RATE is kept at line rate while CC_EN is 0 (R175). -/
def State.rateUpdate (s : State) (q : Nat) (rtt : Int) : State :=
  let x := s.qp q
  let p := x.prof
  let d := Reg.RDM_CC_DELAY p
  let g := Reg.RDM_CC_GAIN p
  let fresh := x.baseRtt == 0 || decide (x.baseSet + s.ccTime p Fd.RDM_CC_TIME_BASE_WIN * 256 ≤ s.now)
  let base := if fresh then rtt else min x.baseRtt rtt
  let qd := rtt - base
  let grad := x.grad + (qd - x.lastQ - x.grad).tdiv (2 ^ s.fld d Fd.RDM_CC_DELAY_ALPHA_SHIFT : Nat)
  let tgt := s.fld1 d Fd.RDM_CC_DELAY_Q_TARGET
  let e := qd - tgt
  let x := { x with baseRtt := base, baseSet := if fresh then s.now else x.baseSet, grad := grad, lastQ := qd, lastUpdate := s.now }
  if e < 0 ∧ grad ≤ 0 ∧ x.cnpHold ≤ s.now then
    let inc := min (x.inc + 1) (s.fld1 d Fd.RDM_CC_DELAY_AI_MAX_MULT)
    let ai := s.fld1 (Reg.RDM_CC_RATE p) Fd.RDM_CC_RATE_AI
    s.setQp q { x with inc := inc, rate := if s.ccEn then min (s.lineRate q) (x.rate + ai * inc) else x.rate }
  else
    let kp := s.fld g Fd.RDM_CC_GAIN_KP
    let kd := s.fld g Fd.RDM_CC_GAIN_KD
    let f := min (s.fld1 g Fd.RDM_CC_GAIN_F_MAX * 256) ((kp * (max e 0).toNat + kd * (max grad 0).toNat) * 65536 / (256 * tgt))
    if 0 < f then s.setQp q { x with inc := 0, rate := if s.ccEn then max (s.ccRateMin p) (x.rate * (65536 - f) / 65536) else x.rate }
    else s.setQp q x

/-- A sample completes when the probe is acknowledged by PSN `p`, received at `stamp` (R172). -/
def State.sample (s : State) (q p stamp : Nat) : State :=
  let x := s.qp q
  if x.probe ∧ psnSub x.probePsn x.unaPsn ≤ psnSub p x.unaPsn then
    (s.updQp q fun x => { x with probe := false }).rateUpdate q (((stamp : Int) - x.probeStamp).tdiv 2)
  else s

/-- A CNP (R174); RATE is kept at line rate while CC_EN is 0 (R175). -/
def State.cnpIn (s : State) (q : Nat) : State :=
  let s := s.cntRdm 10 1
  let x := s.qp q
  if x.cnpHold ≤ s.now then
    let cut := s.fld1 (Reg.RDM_CC_GAIN x.prof) Fd.RDM_CC_GAIN_CNP_CUT
    s.setQp q { x with rate := if s.ccEn then max (s.ccRateMin x.prof) (x.rate * (256 - cut) / 256) else x.rate, inc := 0,
                       cnpHold := s.now + s.fld1 (Reg.RDM_CC_DELAY x.prof) Fd.RDM_CC_DELAY_CNP_HOLD }
  else s

/-! ### Acknowledgements (R167) -/

/-- An ACK of PSN `p`. -/
def State.ackIn (s : State) (q p stamp : Nat) : State :=
  let s := s.sample q p stamp
  (s.freeTo q p).updQp q fun x => { x with retryLeft := x.retryCnt }

/-- The InfiniBand RNR timer codes, in units of 10 µs. -/
def rnrTable : List Nat :=
  [65536, 1, 2, 3, 4, 6, 8, 12, 16, 24, 32, 48, 64, 96, 128, 192, 256, 384, 512, 768, 1024, 1536, 2048, 3072, 4096, 6144, 8192,
   12288, 16384, 24576, 32768, 49152]

/-- The ticks of an RNR timer code, rounded up: 10 µs is 10,000/1,024 ticks. -/
def rnrTicks (c : Nat) : Nat := ceilDiv (rnrTable.getD c 0 * 10000) 1024

/-- The held packets before PSN `p` are freed. -/
def State.freeBefore (s : State) (q p : Nat) : State := if (s.qp q).unaPsn = p then s else s.freeTo q (psnSub p 1)

/-- A NAK of PSN `p` with its syndrome (Table 5-8). -/
def State.nakIn (s : State) (q p syn : Nat) : State :=
  if syn / 32 % 4 = 1 then
    let s := s.freeBefore q p
    let x := s.qp q
    if x.rnrLeft = 0 ∧ x.rnrCnt ≠ 7 then (s.updQp q fun x => { x with ackDeadline := 0 }).qpFail q 0x02
    else s.setQp q { x with rnrLeft := if x.rnrCnt = 7 then x.rnrLeft else x.rnrLeft - 1, rnrResume := s.now + rnrTicks (syn % 32),
                            rnrPsn := p, ackDeadline := 0 }
  else if syn % 32 = 0 then
    let s := s.freeBefore q p
    let x := s.qp q
    if x.retryLeft = 0 then s.qpFail q 0x01
    else ((s.setQp q { x with retryLeft := x.retryLeft - 1 }).resendFrom q p).setDeadline q
  else if syn % 32 = 1 then s.qpFail q 0x03
  else if syn % 32 = 2 then s.qpFail q 0x04
  else if syn % 32 = 3 then s.qpFail q 0x05
  else s.cntRdm 1 1

/-- An Acknowledge packet (R167). -/
def State.aethIn (s : State) (q : Nat) (f : Frame) : State :=
  let b := parseBth f.bytes
  let syn := beField f.bytes ((parseHdr f.bytes).l4 + 20) 1
  if !(s.qp q).validRsp b.psn then s.cntRdm 9 1
  else if syn / 32 % 4 = 0 then s.ackIn q b.psn f.stamp
  else s.nakIn q b.psn syn

/-! ### READ responses (R168) -/

/-- The next response PSN of an entry. -/
def ReadEnt.next (e : ReadEnt) (mtu : Nat) : Nat := psnAdd e.psn (e.got / mtu)

/-- The bytes of the data transfer of waybill `w` that its READs bring. -/
def Waybill.want (x : Waybill) : Nat := (sglLen x.sqe).getD 0

/-- An accepted response packet: its data joins the waybill's payload, and its cells move to the hold account (06 R183). When
the last byte of the command is in, its next leg becomes ready (02 R33). Data of a command that has ended is discarded (08 R250). -/
def State.payloadIn (s : State) (w : Nat) (data : List Byte) (a : Acct) (c : Nat) : State :=
  if (s.wb w).st = .free then s.freeCells a c else
  let (a, s) := s.toHold a c
  let s := s.updWb w fun x => { x with data := x.data ++ data, pay := x.pay ++ [(a, c)] }
  if (s.wb w).want ≤ (s.wb w).data.length then s.wakeWb w else s

/-- The outstanding READ `e` is reissued after a gap in its responses (R168), at once or when BUCKET allows (R175). -/
def State.reissueGap (s : State) (q : Nat) (e : ReadEnt) : State :=
  let wait := (s.qp q).resend
  State.resendSome q (wait.length + 1) (s.updQp q fun x => { x with resend := if wait.contains e.psn then wait else e.psn :: wait })

/-- A READ Response packet of QP `q`. Answers whether the frame's cells were kept. -/
def State.readIn (s : State) (q : Nat) (f : Frame) : Bool × State :=
  let x := s.qp q
  let b := parseBth f.bytes
  -- First, Last and Only carry an AETH.
  let data := if b.op = 0x0E then bthBody f.bytes else (bthBody f.bytes).drop 4
  match x.reads with
  | [] => (false, s.cntRdm 9 1)
  | e :: rest =>
    let nx := e.next x.mtu
    if b.psn = nx then
      let left := e.len - e.got
      let last := b.op == 0x0F || b.op == 0x10
      if (if last then data.length != left else data.length != x.mtu || decide (left ≤ x.mtu)) then (false, s.qpFail q 0x09)
      else
        let s := s.ackIn q b.psn f.stamp
        let s := if (parseHdr f.bytes).ecn = 3 then s.cnp q else s
        let e := { e with got := e.got + data.length, gap := none }
        let s := s.updQp q fun x =>
          if last then { x with reads := rest, readsOut := x.readsOut - 1 } else { x with reads := e :: rest }
        if (s.wb e.wb).st = .payload ∨ (s.wb e.wb).st = .locked then (true, s.payloadIn e.wb data f.acct f.cells)
        else (false, s)
    else if x.validRsp b.psn ∧ psnSub b.psn nx < 8388608 then
      if e.gap = some e.got then (false, s)
      else (false, (s.updQp q fun x => { x with reads := { e with gap := some e.got } :: rest }).reissueGap q e)
    else (false, s.cntRdm 9 1)

/-! ### Requests (R160 to R165) -/

/-- The response record after an accepted PSN (R163). -/
def Qp.record (x : Qp) (read ends : Bool) : Qp :=
  { x with recMsn := if natBit x.recEnd 0 then psnAdd x.recMsn 1 else x.recMsn
           recRead := x.recRead / 2 + (if read then 2 ^ 63 else 0), recEnd := x.recEnd / 2 + (if ends then 2 ^ 63 else 0)
           epsn := psnAdd x.epsn 1, msn := if ends then psnAdd x.msn 1 else x.msn, nakSent := false }

/-- An in-sequence request has been accepted: the record moves on, RTR ends, and a CE mark is answered (R160, R147, R165). -/
def State.accepted (s : State) (q : Nat) (f : Frame) (read ends : Bool) : State :=
  let s := s.updQp q fun x => x.record read ends
  let s := if (s.qp q).st = .rtr then s.qpWant q .rts else s
  if (parseHdr f.bytes).ecn = 3 then s.cnp q else s

/-- Capsule and payload cells charged to an ingress pair move to the hold account as far as it has room (06 R183). -/
def State.settleList (s : State) (cs : List (Acct × Nat)) : List (Acct × Nat) × State :=
  cs.foldl (fun (r : List (Acct × Nat) × State) e =>
    if e.1 = .hold then (r.1 ++ [e], r.2) else
      let (a, s) := r.2.toHold e.1 e.2
      (r.1 ++ [(a, e.2)], s)) ([], s)

/-- The cells of a capsule in reassembly are freed. -/
def State.dropRx (s : State) (q : Nat) : State :=
  let x := s.qp q
  let s := x.rxCells.foldl (fun s e => s.freeCells e.1 e.2) s
  s.updQp q fun x => { x with rx := [], rxCells := [], reasm := false }

/-- A SEND packet in sequence (R161, Table 5-9). Answers whether the frame's cells were kept. -/
def State.sendIn (s : State) (q : Nat) (f : Frame) (parked : Bool) : Bool × State :=
  let x := s.qp q
  let op := (parseBth f.bytes).op
  let data := bthBody f.bytes
  let first := op == 0x00 || op == 0x04
  let last := op == 0x02 || op == 0x04
  let n := (if first then 0 else x.rx.length) + data.length
  if first == x.reasm then (false, s.nakFail q synInv 0x06)
  else if (if last then data.isEmpty || decide (x.mtu < data.length) else data.length != x.mtu) then (false, s.nakFail q synInv 0x07)
  else if 16448 < n ∨ (last ∧ n < 64) then (false, s.nakFail q synInv 0x07)
  else
    let h := parseHdr f.bytes
    let dscp := if first then h.dscp else x.rxDscp
    if last then
      -- The cells of the capsule are transferred with its acceptance (06 R183).
      let (cs, s') := s.settleList (x.rxCells ++ [(f.acct, f.cells)])
      match s'.acceptCapsule q ((if first then [] else x.rx) ++ data) cs dscp f.stamp parked with
      | none => (false, s.cntCmd 1 1)
      | some s => (true, (s.updQp q fun x => { x with rx := [], rxCells := [], reasm := false, ackDue := true }).accepted q f false true)
    else
      let h := s.rdm.handles
      let s := if first then { s with rdm := { s.rdm with handles := h + 1 } } else s
      let s := s.updQp q fun x => { x with rx := (if first then [] else x.rx) ++ data, rxCells := x.rxCells ++ [(f.acct, f.cells)],
                                           rxDscp := dscp, rxHandle := if first then h % 4294967296 else x.rxHandle, reasm := true, ackDue := true }
      (true, s.accepted q f false false)

/-- An in-sequence request by its opcode (Table 5-2). Answers whether the frame's cells were kept. -/
def State.requestIn (s : State) (q : Nat) (f : Frame) (parked : Bool) : Bool × State :=
  let b := parseBth f.bytes
  let op := b.op
  if op = 0x00 ∨ op = 0x01 ∨ op = 0x02 ∨ op = 0x04 then s.sendIn q f parked
  else if op = 0x0C then
    let len := beField f.bytes ((parseHdr f.bytes).l4 + 32) 4
    if len = 0 then
      let x := s.qp q
      if x.ird ≤ x.inReads then (false, s.nakFail q synInv 0x07)
      else
        let s := (s.updQp q fun x => { x with inReads := x.inReads + 1, ackDue := true }).accepted q f true true
        (false, s.updQp q fun x => { x with readDue := x.readDue ++ [(b.psn, x.msn)] })
    else if len ≤ 2147483648 then (false, s.nakFail q synAccess 0x08)
    else (false, s.nakFail q synInv 0x07)
  else if 0x06 ≤ op ∧ op ≤ 0x0B then (false, s.nakFail q synAccess 0x08)
  else (false, s.nakFail q synInv 0x06)

/-- The number of set REC_END bits up to and including bit `i` (R163). -/
def Qp.endsTo (x : Qp) (i : Nat) : Nat := popcount (i + 1) x.recEnd

/-- A duplicate (R163). -/
def State.duplicate (s : State) (q : Nat) (f : Frame) : State :=
  let b := parseBth f.bytes
  let x := s.qp q
  let s := s.cntRdm 5 1
  let s := if (parseHdr f.bytes).ecn = 3 then s.cnp q else s
  if b.op = 0x0C then
    let k := psnSub x.epsn b.psn
    if k ≤ 64 ∧ natBit x.recRead (64 - k) then
      s.updQp q fun x => { x with readDue := x.readDue ++ [(b.psn, psnAdd x.recMsn (x.endsTo (64 - k)))] }
    else s.cntRdm 6 1
  else s.updQp q fun x => { x with ackDue := true }

/-- A packet is a request by its opcode: SEND, RDMA WRITE, READ and atomic requests. -/
def isRequest (op : Nat) : Bool := decide (op ≤ 0x0C) || op == 0x13 || op == 0x14 || op == 0x16 || op == 0x17

/-- Checks 5 to 7 of Table 5-7 and what follows; the frame's cells are freed unless they were kept. -/
def State.process (s : State) (q : Nat) (f : Frame) (parked : Bool) : State :=
  let h := parseHdr f.bytes
  let b := parseBth f.bytes
  let x := s.qp q
  let drop (s : State) : State := s.freeCells f.acct f.cells
  if h.srcIp ≠ x.rip ∨ h.vlan ≠ x.vlan then drop (s.cntRdm 3 1)
  else if x.st = .err then drop (s.cntRdm 4 1)
  else
    let s := s.useQp q
    let (kept, s) :=
      if isRequest b.op then
        let d := psnSub b.psn x.epsn
        if d = 0 then s.requestIn q f parked
        else if d < 8388608 then
          (false, if x.nakSent || x.failing then s else ((s.sendNak q synSeq).updQp q fun x => { x with nakSent := true }).cntRdm 12 1)
        else (false, s.duplicate q f)
      else if 0x0D ≤ b.op ∧ b.op ≤ 0x10 then s.readIn q f
      else if b.op = 0x11 then (false, s.aethIn q f)
      else if b.op = 0x81 then (false, s.cnpIn q)
      else (false, s.cntRdm 1 1)
    if kept then s else drop s

/-- The pen (R156, R158): the packet joins the pen queue of QP `q`, and the fetch is issued in the tick of arrival unless one
is pending or packets are parked. -/
def penMax : Nat := 16384

def State.park (s : State) (q : Nat) (f : Frame) : State :=
  let x := s.qp q
  let room := f.acct == .pen || decide (s.rdm.penCells + f.cells ≤ penMax)
  if !room then ((s.freeCells f.acct f.cells).satFld Reg.RDM_PEN_DROP wordFld 1).acc 5 0 15 1
  else
    let (ok, s) := if x.resident || !x.pen.isEmpty then (true, s) else s.askFetch q 0
    if !ok then ((s.freeCells f.acct f.cells).satFld Reg.RDM_FETCH_DROP wordFld 1).acc 5 0 16 1
    else
      let s := if f.acct = .pen then s else (s.freeCells f.acct f.cells).takeCells .pen f.cells
      s.updQp q fun x => { x with pen := x.pen ++ [{ f with acct := .pen }] }

/-- QP `q` parks an arriving packet (R156). -/
def State.parks (s : State) (q : Nat) : Bool := !(s.qp q).resident || !(s.qp q).pen.isEmpty

/-- A QP that Table 5-7 check 4 passes. -/
def QpSt.receives : QpSt → Bool
  | .rtr | .rts | .drain | .err => true
  | _ => false

/-- Checks 1 to 4 of Table 5-7, then the packet is parked or processed (R156, R159). -/
def State.roceIn (s : State) (f : Frame) : State :=
  let b := parseBth f.bytes
  let drop (s : State) : State := s.freeCells f.acct f.cells
  if f.bad ∨ ¬ icrcOk f.bytes then drop (s.cntRdm 0 1)
  else if b.tver ≠ 0 ∨ (b.pkey ≠ 0xFFFF ∧ b.pkey ≠ 0x7FFF) then drop (s.cntRdm 1 1)
  else if b.qpn = 1 then drop { s with rdm := { s.rdm with cm := s.rdm.cm ++ [f] } }
  else
    match s.qpOf b.qpn with
    | none => drop (s.cntRdm 2 1)
    | some q =>
      if !(s.qp q).st.receives then drop (s.cntRdm 2 1)
      else if s.parks q then s.park q f
      else s.process q f false

/-- The next frame for the transport that `p` selects by its opcode and AETH, if it is at the head. -/
def State.takeRoce (s : State) (p : Nat → Nat → Bool) : State :=
  match (if s.joinHold then [] else s.net.toRdma) with
  | [] => s
  | f :: rest =>
    if p (parseBth f.bytes).op (beField f.bytes ((parseHdr f.bytes).l4 + 20) 1 / 32 % 4) then
      ({ s with net := { s.net with toRdma := rest } }).roceIn f
    else s

/-- ROCE_PACKET_RECEIVE: the first frame that waits for the transport is checked and handled (R159). -/
def execRocePacketReceive (s : State) : Host.Outcome State Fault Refusal := .next (s.takeRoce fun _ _ => true)
/-- ACK_RECEIVE: it is an Acknowledge with an ACK syndrome. -/
def execAckReceive (s : State) : Host.Outcome State Fault Refusal := .next (s.takeRoce fun op k => op == 0x11 && k == 0)
/-- NAK_RECEIVE: it is an Acknowledge with a NAK or RNR NAK syndrome. -/
def execNakReceive (s : State) : Host.Outcome State Fault Refusal := .next (s.takeRoce fun op k => op == 0x11 && k != 0)
/-- READ_RESPONSE_RECEIVE. -/
def execReadResponseReceive (s : State) : Host.Outcome State Fault Refusal :=
  .next (s.takeRoce fun op _ => decide (0x0D ≤ op) && decide (op ≤ 0x10))
/-- CNP_RECEIVE. -/
def execCnpReceive (s : State) : Host.Outcome State Fault Refusal := .next (s.takeRoce fun op _ => op == 0x81)

/-! ### Transmission (R152, R154, R166, R170, R175) -/

/-- XFER_ARM arms a transmission (R152, R154, R177): on a QP in ERR, or on its way there, it is discarded. On a resident context
it takes a transmit pin; otherwise an egress fetch is asked for. -/
def State.armMsg (s : State) (q : Nat) (m : Msg) : State :=
  let x := s.qp q
  if x.st = .rts ∨ x.st = .drain ∨ x.st = .rtr then
    let s := s.updQp q fun x => { x with tx := x.tx ++ [{ m with armed := s.itn.tick, pinTo := if x.resident then s.now + 2 else 0 }] }
    if x.resident then s else s.askEgress q
  else s

/-- The packet that is released next from the head of the transmit queue: its bytes of payload and its PSNs. -/
def Msg.chunk (m : Msg) (mtu : Nat) : Nat := if m.op = 2 then 0 else min mtu (m.len - m.off)
def Msg.psns (m : Msg) (mtu : Nat) : Nat := if m.op = 2 then ceilDiv m.len mtu else 1
def Msg.lastAt (m : Msg) (mtu : Nat) : Bool := m.op == 2 || decide (m.len ≤ m.off + mtu)

/-- The opcode of the next packet of a message: WRITE and SEND First, Middle, Last, Only; READ request. -/
def Msg.opcode (m : Msg) (mtu : Nat) : Nat :=
  let first := m.off == 0
  let last := m.lastAt mtu
  if m.op = 2 then 0x0C
  else if m.op = 0 then (if first && last then 0x0A else if first then 0x06 else if last then 0x08 else 0x07)
  else (if first && last then 0x04 else if first then 0x00 else if last then 0x02 else 0x01)

/-- The bytes of the next packet of QP `q`, from the head message `m`. -/
def State.nextPacket (s : State) (q : Nat) (m : Msg) : List Byte :=
  let x := s.qp q
  let ext := if m.op = 2 ∨ (m.op = 0 ∧ m.off = 0) then reth m.va m.rkey m.len else []
  s.rocePacket q (m.opcode x.mtu) x.nextPsn (m.lastAt x.mtu) ext (if m.op = 2 then [] else sliceB m.data m.off (m.chunk x.mtu))

/-- A QP in this state sends as a requester. -/
def QpSt.sends : QpSt → Bool
  | .rts | .drain => true
  | _ => false

/-- What holds back the next packet of a QP (R170, R175, R184): packets to be resent go before those of new transmissions. -/
inductive TxWait where
  | go | idle | fetch | pace | limit | cells
  /-- A held packet can be resent. -/
  | again
deriving DecidableEq, Repr

def State.txWait (s : State) (q : Nat) : TxWait :=
  let x := s.qp q
  if !x.resend.isEmpty && x.st.sends && !x.failing && x.rnrResume == 0 then
    (if s.paced q && decide (x.bucket < 0) then .pace else if x.resident then .again else .fetch)
  else
  match x.tx with
  | [] => .idle
  | m :: _ =>
    if (x.st != .rts && x.st != .drain) || x.failing || x.rnrResume != 0 then .idle
    else if s.fld1 Reg.RDM_CFG Fd.RDM_CFG_MAX_UNACKED * 65536 ≤ x.unacked then .limit
    else if m.op = 2 ∧ (x.ord ≤ x.readsOut ∨ (x.readsOut = 0 ∧ 32768 ≤ s.readPins)) then .limit
    else if s.paced q && decide (x.bucket < 0) then .pace
    else if !s.holdRoom (frameCells (s.nextPacket q m)) then .cells
    else if !x.resident ∨ s.now < m.after then .fetch
    else .go

/-- The next packet of QP `q` is released to egress at core-cycle stamp `stamp` (R166, R169, R172, R175). In a pair it leaves after the receipt of
the record before the tick in which it was armed (15 R448). -/
def State.releaseOne (s : State) (q stamp : Nat) : State :=
  let x := s.qp q
  match x.tx with
  | [] => s
  | m :: rest =>
    let n := m.chunk x.mtu
    let last := m.lastAt x.mtu
    let bytes := s.nextPacket q m
    let c := frameCells bytes
    let h : Held := { psn := x.nextPsn, count := m.psns x.mtu, read := m.op == 2, chan := m.chan, bytes := bytes, cells := c, stomp := false,
                      handle := s.rdm.handles % 4294967296 }
    let s := { s with rdm := { s.rdm with handles := s.rdm.handles + 1 } }
    let mark := !x.probe && decide (x.lastUpdate + s.ccTime x.prof Fd.RDM_CC_TIME_UPDATE_MIN ≤ s.now)
    let x' := { x with
      tx := if last then rest else { m with off := m.off + n } :: rest
      held := x.held ++ [h]
      nextPsn := psnAdd x.nextPsn (m.psns x.mtu)
      ackDeadline := if x.held.isEmpty then s.ackDeadline else x.ackDeadline
      bucket := if s.paced q then x.bucket - wireBytes bytes.length else x.bucket
      reads := if m.op = 2 then x.reads ++ [{ psn := x.nextPsn, len := m.len, wb := m.wb, got := 0, va := m.va, rkey := m.rkey, gap := none }]
               else x.reads
      readsOut := if m.op = 2 then x.readsOut + 1 else x.readsOut
      probe := x.probe || mark
      probePsn := if mark then x.nextPsn else x.probePsn
      probeStamp := if mark then stamp else x.probeStamp }
    let s := if m.off = 0 then s.digest 1 [s.qpn q, x.nextPsn, m.opcode x.mtu, m.len] else s
    (((s.setQp q x').takeCells .hold c).useQp q).sendHeld q m.chan (if m.armed = 0 then none else some (m.armed - 1)) bytes false

/-- Packets of the head transmission are released while nothing holds them back, at most `n`. -/
def State.releaseMany (q stamp : Nat) : Nat → State → State
  | 0, s => s
  | n + 1, s => match s.txWait q with
    | .go => State.releaseMany q stamp n (s.releaseOne q stamp)
    | .again => State.releaseMany q stamp n (State.resendSome q 1 s)
    | _ => s

/-- TRANSMISSION_RELEASE of QP `q` at cycle `cycle` of the tick: its next packet leaves when nothing holds it back; a context
that is not resident has an egress fetch asked for first (R152, R154). -/
def execTransmissionRelease (q : Fin 1048576) (cycle : Fin 2048) (s : State) : Host.Outcome State Fault Refusal :=
  .next (if s.joinHold then s else match s.txWait q.val with
    | .go => s.releaseOne q.val (s.stampAt cycle.val)
    | .again => State.resendSome q.val 1 s
    | .fetch => if (s.qp q.val).resident then s else s.askEgress q.val
    | _ => s)

/-! ### Fetches complete (R154, R157) -/

/-- Every parked packet of QP `q` is processed in arrival order (R157); one that an error of the serai has given a bad tail is discarded (06 R198). -/
def State.penRelease (s : State) (q : Nat) : State :=
  let fs := (s.qp q).pen
  fs.foldl (fun s f => if f.bad then (s.freeCells f.acct f.cells).cntRdm 0 1 else s.process q f true) (s.updQp q fun x => { x with pen := [] })

/-- A fetch for arriving packets completes. -/
def State.contextFetched (s : State) (q : Nat) : State := if s.fetchDue q 0 then (s.fetchDone q).penRelease q else s

/-- CONTEXT_FETCH_COMPLETE. -/
def execContextFetchComplete (q : Fin 1048576) (s : State) : Host.Outcome State Fault Refusal := .next (s.contextFetched q.val)

/-- The head transmission of QP `q` leaves at the start of this tick: its pin was taken two ticks ago, and its context is there (R154). -/
def State.releaseDue (s : State) (q : Nat) : Bool :=
  !s.joinHold && (s.qp q).resident && (match (s.qp q).tx with | m :: _ => m.after == s.now && m.after != 0 | [] => false)

/-- An egress fetch completes: packets parked meanwhile are processed, and the transmission that waited is released; so is one that waited with a fetch
of another kind. -/
def State.egressFetched (s : State) (q stamp : Nat) : State :=
  if s.fetchDue q 1 then State.releaseMany q stamp 4096 ((s.fetchDone q).penRelease q)
  else if s.releaseDue q then State.releaseMany q stamp 4096 s
  else s

/-- EGRESS_FETCH_RELEASE. -/
def execEgressFetchRelease (q : Fin 1048576) (cycle : Fin 2048) (s : State) : Host.Outcome State Fault Refusal :=
  .next (s.egressFetched q.val (s.stampAt cycle.val))

/-! ### Deadlines (R167, R169) -/

/-- An expired ACK deadline of a resident QP is acted on (R169). -/
def State.ackExpired (s : State) (q : Nat) : State :=
  let s := s.cntRdm 8 1
  let x := s.qp q
  if x.retryLeft = 0 ∧ ¬ s.pair.freeResend.contains q then (s.updQp q fun x => { x with ackDeadline := 0 }).qpFail q 0x01
  else
    let free := s.pair.freeResend.contains q
    let s := { s with pair := { s.pair with freeResend := s.pair.freeResend.filter (· != q) } }
    ((s.setQp q { x with retryLeft := if free then x.retryLeft else x.retryLeft - 1 }).resendFrom q x.unaPsn).setDeadline q

/-- An RNR wait ends: the packets from its PSN are resent, and the ACK deadline is set afresh (R167). -/
def State.rnrEnds (s : State) (q : Nat) : State :=
  let x := s.qp q
  ((s.setQp q { x with rnrResume := 0 }).resendFrom q x.rnrPsn).setDeadline q

def State.ackDue (s : State) (q : Nat) : Bool :=
  let x := s.qp q
  !s.joinHold && x.st.sends && x.ackDeadline != 0 && decide (x.ackDeadline ≤ s.now)
def State.rnrDue (s : State) (q : Nat) : Bool :=
  let x := s.qp q
  !s.joinHold && x.st.sends && x.rnrResume != 0 && decide (x.rnrResume ≤ s.now)

/-- An expired deadline is acted on when the context is resident and no earlier expiry waits for its tick; otherwise a timer fetch is asked for
(R154). -/
def State.deadline (s : State) (q : Nat) (due : Bool) (act : State → State) : State :=
  if !due then s
  else if !(s.qp q).resident then s.askTimer q
  else if (s.qp q).timerAt.any fun t => decide (s.now < t) then s
  else act s

/-- ACK_TIMEOUT. -/
def execAckTimeout (q : Fin 1048576) (s : State) : Host.Outcome State Fault Refusal :=
  .next (s.deadline q.val (s.ackDue q.val) fun s => s.ackExpired q.val)

/-- RNR_RESUME. -/
def execRnrResume (q : Fin 1048576) (s : State) : Host.Outcome State Fault Refusal :=
  .next (s.deadline q.val (s.rnrDue q.val) fun s => s.rnrEnds q.val)

/-- Both deadlines of a QP at the seam. -/
def State.deadlines (s : State) (q : Nat) : State :=
  let s := s.deadline q (s.ackDue q) fun s => s.ackExpired q
  s.deadline q (s.rnrDue q) fun s => s.rnrEnds q

/-- A timer fetch completes: packets parked meanwhile are processed, and the expiry is acted on; so is one that waited with a fetch of another kind. -/
def State.timerFetched (s : State) (q : Nat) : State :=
  if s.fetchDue q 2 then ((s.fetchDone q).penRelease q).deadlines q
  else if (s.qp q).resident && (s.qp q).timerAt.any fun t => decide (t ≤ s.now) then
    (s.updQp q fun x => { x with timerAt := none }).deadlines q
  else s

/-- TIMER_FETCH_COMPLETE. -/
def execTimerFetchComplete (q : Fin 1048576) (s : State) : Host.Outcome State Fault Refusal := .next (s.timerFetched q.val)

/-! ### Connection management (R144 to R147) -/

/-- A CM message as numbers, for its coding. -/
def CmMsg.code : CmMsg → List Nat
  | .rep a b c d e => [0, a, b, c, d, e]
  | .rej r st => [1, (match r with
      | .invalidServiceId => 0 | .consumerReject => 1 | .invalidGid => 2 | .staleConnection => 3 | .noResources => 4 | .noQpAvailable => 5
      | .timeout => 6), st]
  | .dreq n => [2, n]
  | .drep n => [3, n]

/-- The frame of a CM packet from address entry `a`: an InfiniBand CM MAD of 256 B to QP 1. -/
def cmFrame (a : AddrEnt) (rmac rip : List Byte) (msg : CmMsg) : List Byte :=
  let c := msg.code
  let bth := [0x64, 0] ++ beBytes 2 0xFFFF ++ [0] ++ beBytes 3 1 ++ [0] ++ beBytes 3 (Config.cmPsn c)
  let deth := beBytes 4 0x80010000 ++ [0] ++ beBytes 3 1
  let x := { Qp.reset with rmac := rmac, rip := rip, v6 := a.family == 6, sport := Config.cmPort c, dscp := a.dscp }
  udpPacket x a 2 (bth ++ deth ++ (List.range 256).map (Config.cmOctet c))

/-- An address entry, or an empty one in its place. -/
def State.addrOr (s : State) (m e : Nat) : AddrEnt :=
  (s.addr m e).getD { family := 4, vlan := 0, prio := 0, dscp := 0, mac := zeros 6, pfx := 0, ip := zeros 16 }

/-- A CM packet is a frame of management firmware: it joins the management leaf of its entry's priority (07 R215). A controller whose network side is off
sends none. -/
def State.cmPut (s : State) (m e : Nat) (rmac rip : List Byte) (rqpn : Nat) (msg : CmMsg) : State :=
  if s.netOn then
    let a := s.addrOr m e
    s.sendMgtOf m a.prio (cmFrame a rmac rip msg) (some (rip, rqpn, msg))
  else s

def State.cmSend (s : State) (q : Nat) (msg : CmMsg) : State :=
  let x := s.qp q
  s.cmPut x.lport x.entry x.rmac x.rip x.rqpn msg

/-- REP (R145). -/
def State.sendRep (s : State) (q : Nat) : State :=
  let x := s.qp q
  (s.cmSend q (.rep (s.qpn q) x.unaPsn x.ord x.ird (x.depth - 1))).updQp q fun x => { x with cmSent := x.cmSent + 1, cmTick := s.now }

def State.sendDreq (s : State) (q : Nat) : State :=
  (s.cmSend q (.dreq (s.qpn q))).updQp q fun x => { x with cmSent := x.cmSent + 1, cmTick := s.now }

/-- A REJ with the order of the failed check of Table 5-3 and its NVMe over Fabrics status. -/
def State.cmReject (s : State) (f : Frame) (rqpn order : Nat) (why : RejReason) (status : Nat) : State :=
  let h := parseHdr f.bytes
  (s.cmPut f.m f.entry h.src h.srcIp rqpn (.rej why status)).raise Ev.RDM_CM_REJECT f.m order status

/-- The RDMA CM service ID: the TCP port space, with the port of RDM_CM_PORT. -/
def State.serviceId (s : State) : Nat := 0x01060000 + s.fld Reg.RDM_CM_PORT Fd.RDM_CM_PORT_PORT

/-- Reject statuses of the NVMe over Fabrics RDMA binding. -/
def cmInvalidRecfmt : Nat := 2
def cmInvalidQid : Nat := 3
def cmInvalidHsqsize : Nat := 4
def cmInvalidHrqsize : Nat := 5

/-- Check 6 of Table 5-3 (08 R230): the status of its first failure. -/
def State.reqLimits (s : State) (r : CmReq) : Option Nat :=
  if s.fld Reg.CMD_CFG Fd.CMD_CFG_MAX_IOQ < r.qid then some cmInvalidQid
  else if r.hsqsize = 0 ∨ (if r.qid = 0 then 31 else s.fld1 Reg.CMD_CFG Fd.CMD_CFG_MQES) < r.hsqsize then some cmInvalidHsqsize
  else if r.hrqsize ≠ r.hsqsize + 1 then some cmInvalidHrqsize
  else none

/-- The free list is empty; the index that it gives next. -/
def State.nextQp (s : State) : Option Nat :=
  if s.rdm.fresh < 1048576 then some s.rdm.fresh else s.rdm.freed.head?

/-- The context that management firmware builds (R145); it is committed at the next seam. -/
def State.buildQp (s : State) (r : CmReq) (f : Frame) (q e : Nat) : State :=
  let s := if s.rdm.fresh < 1048576 then { s with rdm := { s.rdm with fresh := s.rdm.fresh + 1 } }
    else { s with rdm := { s.rdm with freed := s.rdm.freed.drop 1 } }
  let h := parseHdr f.bytes
  let (v, s) := s.drawShared 1
  let prio := ((s.addr f.m e).map (·.prio)).getD 0
  let prof := s.fld Reg.RDM_CC_SEL ⟨3 * prio, 3⟩
  let retry := min r.retryCnt (s.fld Reg.RDM_RETRY Fd.RDM_RETRY_RETRY_CNT)
  let rnr := min r.rnrCnt (s.fld Reg.RDM_RETRY Fd.RDM_RETRY_RNR_RETRY)
  s.setQp q { Qp.reset with
    epoch := (s.qp q).epoch % 15 + 1, next := .rtr, qid := r.qid, lport := f.m, entry := e, pmtu := r.pmtu, prof := prof
    rqpn := r.remoteQpn, rmac := h.src, vlan := h.vlan, v6 := h.ipVer == 6, rip := h.srcIp, sport := 0xC000 + q % 16384
    dscp := ((s.addr f.m e).map (·.dscp)).getD 0, epsn := r.startPsn % psnMod, nextPsn := v % psnMod, unaPsn := v % psnMod
    ord := min r.respRes (s.fld Reg.RDM_CFG Fd.RDM_CFG_MAX_ORD), ird := min (max r.initDepth 1) (s.fld Reg.RDM_CFG Fd.RDM_CFG_IRD)
    retryCnt := retry, retryLeft := retry, rnrCnt := rnr, rnrLeft := rnr, rate := s.rateMBs f.m, bucket := s.ccBurst prof
    depth := r.hsqsize + 1 }

/-- The checks of Table 5-3 in order, and the answer (R144, R145). -/
def State.cmReq (s : State) (r : CmReq) (f : Frame) : State :=
  let h := parseHdr f.bytes
  let m := f.m
  let rej (o : Nat) (why : RejReason) (st : Nat) : State := s.cmReject f r.remoteQpn o why st
  let peer (x : Qp) : Bool := x.rip == h.srcIp && x.rqpn == r.remoteQpn
  let rtr := s.knownQps.find? fun q => peer (s.qp q) && ((s.qp q).st == .rtr || (s.qp q).next == .rtr)
  if r.serviceId ≠ s.serviceId then rej 1 .invalidServiceId 0
  else if !r.rc then rej 2 .consumerReject 0
  else match s.matchEntry m h.vlan h.dstIp with
    | none => rej 3 .invalidGid 0
    | some e =>
      if s.liveQps.any (fun q => peer (s.qp q) && ((s.qp q).st == .rts || (s.qp q).st == .drain || (s.qp q).st == .disc)) then
        rej 4 .staleConnection 0
      else match rtr with
        | some q => if (s.qp q).st = .rtr then
            let x := s.qp q
            s.cmSend q (.rep (s.qpn q) x.unaPsn x.ord x.ird (x.depth - 1)) else s
        | none =>
          if r.recfmt ≠ 0 then rej 5 .consumerReject cmInvalidRecfmt
          else match s.reqLimits r with
            | some st => rej 6 .consumerReject st
            | none =>
              if (r.pmtu < 3 ∨ 5 < r.pmtu) ∨ s.maxFrame m < 128 * 2 ^ r.pmtu + 102 ∨ r.respRes = 0 then
                rej 7 .consumerReject 0
              else if s.fld1 Reg.RDM_CM_CFG Fd.RDM_CM_CFG_MAX_PENDING
                  ≤ (s.knownQps.filter fun q => (s.qp q).st == .rtr || (s.qp q).next == .rtr).length then rej 8 .noResources 0
              else match s.nextQp with
                | none => rej 9 .noQpAvailable 0
                | some q => s.buildQp r f q e

/-- Management firmware takes the first CM packet that waits. -/
def State.takeCm (s : State) (k : Frame → State → State) : State :=
  match s.rdm.cm with
  | [] => s
  | f :: rest => k f { s with rdm := { s.rdm with cm := rest } }

/-- A CM packet is handled on the active, and, as the same work at the same seam, on its standby (15 R449); a standby's own firmware
handles none. -/
def State.withCm (s : State) (rep : Replica) (k : Frame → State → State) : State :=
  if s.fwRuns && !s.isStandby && !s.rdm.cm.isEmpty then (s.takeCm k).replicate rep else s

/-- CM_REQ: the first CM packet that waits is a REQ with the fields of `r`. -/
def execCmReq (r : CmReq) (s : State) : Host.Outcome State Fault Refusal := .next (s.withCm (.cmReq r) fun f s => s.cmReq r f)

/-- The interval between REPs, and between DREQs: 16,384 ticks (R146, R147). -/
def cmInterval : Nat := 16384

/-- REP_RESEND (R146). -/
def State.repResend (s : State) (q : Nat) : State :=
  let x := s.qp q
  if x.st ≠ .rtr ∨ s.now < x.cmTick + cmInterval ∨ x.next ≠ .none then s
  else if x.cmSent < 4 then s.sendRep q
  else (s.cmSend q (.rej .timeout 0)).qpWant q .timewait

def execRepResend (q : Fin 1048576) (s : State) : Host.Outcome State Fault Refusal := .next (s.repResend q.val)

/-- An RTU of QP `q`. -/
def State.rtuIn (s : State) (q : Nat) : State := if (s.qp q).st = .rtr then s.qpWant q .rts else s

/-- CM_RTU. -/
def execCmRtu (q : Fin 1048576) (s : State) : Host.Outcome State Fault Refusal :=
  .next (s.withCm (.cmRtu q.val) fun _ s => s.rtuIn q.val)

/-- CM_DREQ (R147): one DREP answers it; a QP in RTS or DRAIN enters ERR, one in DISC enters TIMEWAIT. -/
def State.dreqIn (s : State) (q : Nat) : State :=
  let x := s.qp q
  let s := if x.st = .rts ∨ x.st = .drain ∨ x.st = .disc ∨ x.st = .err ∨ x.st = .timewait then s.cmSend q (.drep (s.qpn q)) else s
  if x.stNow = .rts ∨ x.stNow = .drain then (s.updQp q fun x => { x with dreqCause := true }).qpFail q 0x0A
  else if x.st = .disc then s.qpWant q .timewait
  else s

def execCmDreq (q : Fin 1048576) (s : State) : Host.Outcome State Fault Refusal := .next (s.withCm (.cmDreq q.val) fun _ s => s.dreqIn q.val)

/-- A DREP of QP `q`. -/
def State.drepIn (s : State) (q : Nat) : State := if (s.qp q).st = .disc then s.qpWant q .timewait else s

/-- CM_DREP. -/
def execCmDrep (q : Fin 1048576) (s : State) : Host.Outcome State Fault Refusal :=
  .next (s.withCm (.cmDrep q.val) fun _ s => s.drepIn q.val)

/-- DREQ_RESEND (Table 5-4): the fourth DREQ unanswered ends in TIMEWAIT. -/
def State.dreqResend (s : State) (q : Nat) : State :=
  let x := s.qp q
  if x.st ≠ .disc ∨ s.now < x.cmTick + cmInterval ∨ x.next ≠ .none then s
  else if x.cmSent < 4 then s.sendDreq q
  else s.qpWant q .timewait

def execDreqResend (q : Fin 1048576) (s : State) : Host.Outcome State Fault Refusal := .next (s.dreqResend q.val)

/-- A QP in DRAIN has no waybill and no packet left (Table 5-4). -/
def State.drained (s : State) (q : Nat) : State :=
  let x := s.qp q
  if x.st = .drain ∧ (s.wbsOf q).isEmpty ∧ x.held.isEmpty ∧ x.tx.isEmpty then s.qpWant q .disc else s

def execQpDrained (q : Fin 1048576) (s : State) : Host.Outcome State Fault Refusal := .next (s.drained q.val)

/-- Ticks in DRAIN before DRAIN_TIMEOUT, 1.000 s (Table 5-4). -/
def drainLimit : Nat := 976563

def State.drainExpired (s : State) (q : Nat) : State :=
  let x := s.qp q
  if x.st = .drain ∧ x.drainTick + drainLimit ≤ s.now then s.qpFail q 0x0C else s

def execDrainTimeout (q : Fin 1048576) (s : State) : Host.Outcome State Fault Refusal := .next (s.drainExpired q.val)

/-- A QP in ERR with no waybill left (Table 5-4). -/
def State.errCleared (s : State) (q : Nat) : State :=
  let x := s.qp q
  if x.st = .err ∧ (s.wbsOf q).isEmpty then s.qpWant q .timewait else s

def execQpErrCleared (q : Fin 1048576) (s : State) : Host.Outcome State Fault Refusal := .next (s.errCleared q.val)

/-- The TIMEWAIT period ends (Table 5-4). -/
def State.timewaitEnds (s : State) (q : Nat) : State :=
  let x := s.qp q
  if x.st = .timewait ∧ x.twTick + s.fld1 Reg.RDM_CM_CFG Fd.RDM_CM_CFG_TIMEWAIT * 256 ≤ s.now then s.qpWant q .free else s

def execTimewaitExpire (q : Fin 1048576) (s : State) : Host.Outcome State Fault Refusal := .next (s.timewaitEnds q.val)

/-! ### QP_DESTROY (R148) -/

/-- What a destroy does to QP `q`: MODE 0 drains it, MODE 1 ends it, in DISC too. -/
def State.qpEnd (s : State) (q mode : Nat) : State :=
  let x := s.qp q
  if x.stNow = .rtr then (s.cmSend q (.rej .consumerReject 0)).qpWant q .timewait
  else if mode = 1 then (if x.stNow = .rts ∨ x.st = .drain ∨ x.st = .disc then s.qpWant q (.err 0x0B) else s)
  else if x.stNow = .rts then s.qpWant q .drain
  else s

def qpDestroy (d : Desc) (s : State) : State :=
  let n := d.f 8 4
  let mode := d.f 12 1
  let q := n % 1048576
  let x := s.qp q
  s.checked d
    [(d.handle == 0 && d.reservedZero [(8, 4), (12, 1)] && decide (n < 16777216) && decide (mode ≤ 1), St.GEN_FIELD),
     (s.qpOf n == some q, St.RDM_NO_QP),
     (x.st != .timewait && !(mode == 0 && (x.st == .drain || x.st == .disc || x.st == .err)), St.RDM_QP_STATE)]
    fun s => (s.updQp q fun x => { x with destroy := some d }).qpEnd q mode

def execQpDestroy (s : State) : Host.Outcome State Fault Refusal := .next (s.ringCmd Op.QP_DESTROY qpDestroy)

/-! ### The seam: changes of state (R147, R177) -/

/-- The packets parked for the QP are freed, each counted in counter `n`. -/
def State.flushPen (s : State) (q n : Nat) : State :=
  let fs := (s.qp q).pen
  (fs.foldl (fun s f => (s.freeCells f.acct f.cells).cntRdm n 1) s).updQp q fun x => { x with pen := [] }

/-- Held packets, READs, armed transmissions and the capsule in reassembly are freed. -/
def State.flushTx (s : State) (q : Nat) : State :=
  let hs := (s.qp q).held
  let s := hs.foldl (fun s h => s.freeCells .hold h.cells) s
  (s.dropRx q).updQp q fun x => { x with held := [], reads := [], readsOut := 0, tx := [], ackDeadline := 0, rnrResume := 0,
                                         ackDue := false, readDue := [], inReads := 0, probe := false, resend := [], timerAt := none }

/-- Causes of the requester (Table 5-12): RDM_QP_ERROR then carries UNA_PSN. -/
def requesterCause (c : Nat) : Bool := decide (c ≤ 5) || c == 9

/-- The QP enters ERR (R177). -/
def State.enterErr (s : State) (q c : Nat) : State :=
  let x := s.qp q
  let left := if x.st = .rts then (s.wbsOf q).length else x.left
  let s := (s.flushPen q 4).flushTx q
  let s := s.updQp q fun x => { x with st := .err, cause := c, left := left }
  s.raise Ev.RDM_QP_ERROR (s.qpn q) c (if requesterCause c then x.unaPsn else x.epsn)

/-- The QP enters TIMEWAIT: the QP_DESTROY that waits for it completes (R148). -/
def State.enterTimewait (s : State) (q : Nat) : State :=
  let x := s.qp q
  let s := if x.st = .err ∧ !x.dreqCause then s.cmSend q (.dreq (s.qpn q)) else s
  let s := (s.flushPen q 2).flushTx q
  let s := s.updQp q fun x => { x with st := .timewait, twTick := s.now, destroy := none, resident := false }
  s.doneOpt x.destroy St.OK x.left 0

/-- One change of state of a QP (Table 5-4), but for what the command engine does at ERR. -/
def State.qpStep (s : State) (q : Nat) (n : QpNext) : State :=
  let x := s.qp q
  match n with
  | .none => s
  | .rtr => (s.updQp q fun x => { x with st := .rtr, home := { x with st := .rtr }.ctxBytes q }).sendRep q
  | .rts => if x.st = .rtr then (s.updQp q fun x => { x with st := .rts, cmSent := 0 }).raise Ev.RDM_QP_CONNECTED (s.qpn q) x.lport x.rqpn else s
  | .drain => s.updQp q fun x => { x with st := .drain, drainTick := s.now, left := (s.wbsOf q).length }
  | .disc => (s.updQp q fun x => { x with st := .disc, cmSent := 0 }).sendDreq q
  | .err c => s.enterErr q c
  | .timewait => s.enterTimewait q
  | .free =>
    let s := (s.setQp q { Qp.reset with epoch := x.epoch }).raise Ev.RDM_QP_FREED (x.epoch * 1048576 + q) 0 0
    { s with rdm := { s.rdm with freed := s.rdm.freed ++ [q] } }

/-- One QP's changes of state at the seam, in their order. -/
def State.qpChange (s : State) (q : Nat) : State :=
  let x := s.qp q
  ((s.updQp q fun x => { x with next := .none, next2 := .none }).qpStep q x.next).qpStep q x.next2

/-- The conditions of Table 5-4 that the seam itself finds. -/
def State.qpTimers (s : State) (q : Nat) : State := (((s.drained q).drainExpired q).errCleared q).timewaitEnds q

/-- The QPs that enter ERR at this seam. -/
def State.failingQps (s : State) : List Nat := Tab.keys (fun x => x.failing) s.rdm.qps

/-! ### The seam: releases, refill, waits -/

/-- At most one ACK per QP, then its zero-length READ responses (R162, R164). -/
def State.ackSeam (s : State) (q : Nat) : State :=
  let x := s.qp q
  let s := if x.ackDue then s.sendAck q else s
  let s := x.readDue.foldl (fun s e => s.sendCtl q (some s.itn.tick) (s.rocePacket q 0x10 e.1 false (aeth synAck e.2) [])) s
  if x.ackDue || !x.readDue.isEmpty then s.updQp q fun x => { x with ackDue := false, readDue := [], inReads := 0 } else s

/-- The pacing refill (R175): RATE × 1.024 µs in whole bytes, up to BURST; an unpaced QP keeps BURST, and RATE is line rate while CC_EN is 0. -/
def State.refillQp (s : State) (q : Nat) : State :=
  let top : Int := s.ccBurst (s.qp q).prof
  s.updQp q fun x => { x with rate := if s.ccEn then x.rate else s.lineRate q, bucket := if s.paced q then min top (x.bucket + (x.rate * 1024 / 1000 : Nat)) else top }

/-- The waits of R176 counted for this tick; a wait for hold cells raises SWC_HOLD_EXHAUSTED at most once per second (06 R184). -/
def State.countWait (s : State) (q : Nat) : State :=
  match s.txWait q with
  | .pace => s.cntRdm 13 1
  | .limit => s.cntRdm 14 1
  | .cells =>
    let s := s.cntRdm 14 1
    let due := match s.net.holdLast with | none => true | some t => decide (t + 976563 ≤ s.now)
    if due then ({ s with net := { s.net with holdLast := some s.now } }).raise Ev.SWC_HOLD_EXHAUSTED s.net.holdCells s.sharedFree 0
    else s
  | .fetch =>
    -- An egress fetch waits for budget beyond the tick of its request.
    if (s.qp q).fetch.any fun f => f.kind == 1 && f.grant.isNone && decide (f.asked < s.now) then s.cntRdm 14 1 else s
  | _ => s

/-- RDM_QP_INFO takes the snapshot that a write of RDM_QP_SEL asked for. -/
def State.qpSnap (s : State) : State :=
  if !s.rdm.selDue then s
  else
    let s := { s with rdm := { s.rdm with selDue := false } }
    let n := s.fld Reg.RDM_QP_SEL Fd.RDM_QP_SEL_QPN
    let x := s.qp (n % 1048576)
    let put (s : State) (a b c d : Nat) : State :=
      (((s.wrReg Reg.RDM_QP_INFO0 (BitVec.ofNat 32 a)).wrReg Reg.RDM_QP_INFO1 (BitVec.ofNat 32 b)).wrReg Reg.RDM_QP_INFO2
        (BitVec.ofNat 32 c)).wrReg Reg.RDM_QP_INFO3 (BitVec.ofNat 32 d)
    if x.epoch = n / 1048576 then
      put s (2147483648 + (if x.resident then 1073741824 else 0) + x.st.code * 16777216 + x.cause % 256 * 65536 + x.host) x.epsn
        (x.readsOut * 16777216 + x.unaPsn) x.rate
    else put s 0 0 0 0

/-- RDM_QP_SEL_WRITE: a snapshot is taken at the next seam without changing residency or use order. -/
def execRdmQpSelWrite (w : Word) (s : State) : Host.Outcome State Fault Refusal :=
  .next (s.hostWrite Reg.RDM_QP_SEL fun s =>
    let s := s.regWrite Reg.RDM_QP_SEL w
    { s with rdm := { s.rdm with selDue := true } })

/-- Cells that stayed charged to their ingress pair move to the hold account when it has room (06 R183). -/
def State.settleCells (s : State) : State :=
  let s := (s.cmd.caps.filter fun c => c.cells.any fun e => e.1 != .hold).foldl (fun s c =>
    let (cs, s) := s.settleList c.cells
    s.updCap c.id fun c => { c with cells := cs }) s
  (s.wbsThat fun x => (x.cells ++ x.pay).any fun e => e.1 != .hold).foldl (fun s w =>
    let (cs, s) := s.settleList (s.wb w).cells
    let (ps, s) := s.settleList (s.wb w).pay
    s.updWb w fun x => { x with cells := cs, pay := ps }) s

/-- What the transport does at a seam before states change: releases, deadlines, waits, the pacing refill and SQHD (08 R236). -/
def State.rdmSeam (s : State) : State :=
  s.liveQps.foldl (fun s q =>
    let s := (((s.ackSeam q).deadlines q).countWait q).refillQp q
    s.updQp q fun x => { x with sqhd := if x.depth = 0 then 0 else x.accepted % x.depth }) s

/-- A tick begins: fetches that waited are granted, and those granted two ticks ago complete (R153, R154, R157). -/
def State.rdmTick (s : State) : State :=
  let s := s.liveQps.foldl (fun s q => ((s.contextFetched q).egressFetched q (s.stampAt 0)).timerFetched q) s
  s.tickFetches

end Sys2Proof.Machine
end

