-- ==== Sys2Proof/Machine/Cmd.lean ====
section
/-!
DEFINITION. The command engine from capsule to lock (08 R236 to R255): the disposition of a capsule, admission, range locks, the
answer, retirement, abort, and what the seam does with them.
-/

namespace Sys2Proof.Machine

open Sys2Proof

/-! ### Statuses of Table 8-4, as SCT × 256 + SC -/

def Nv.opcode : Nat := 0x001
def Nv.field : Nat := 0x002
def Nv.cidConflict : Nat := 0x003
def Nv.abortReq : Nat := 0x007
def Nv.sqDeleted : Nat := 0x008
def Nv.badNs : Nat := 0x00B
def Nv.sequence : Nat := 0x00C
def Nv.sglLength : Nat := 0x00F
def Nv.sglType : Nat := 0x011
def Nv.sglOffset : Nat := 0x016
def Nv.preempted : Nat := 0x01B
def Nv.writeProt : Nat := 0x020
def Nv.interrupted : Nat := 0x021
def Nv.lbaRange : Nat := 0x080
def Nv.notReady : Nat := 0x082
def Nv.resConflict : Nat := 0x083
def Nv.abortLimit : Nat := 0x103
def Nv.aerLimit : Nat := 0x105
def Nv.testBusy : Nat := 0x11D
def Nv.cxFormat : Nat := 0x180
def Nv.cxBusy : Nat := 0x181
def Nv.cxParam : Nat := 0x182
def Nv.cxHost : Nat := 0x184

/-! ### What a command is -/

def isFabrics (sqe : List Byte) : Bool := sqeOp sqe == 0x7F
def fctype (sqe : List Byte) : Nat := leField sqe 4 1
def isConnect (sqe : List Byte) : Bool := isFabrics sqe && fctype sqe == 1

/-- Bit of COMMANDS for a command of Table 8-1: 0 read, 1 write, 2 other I/O, 3 admin; none for an opcode that the queue type does
not have (Property commands belong to the admin queue). -/
def cmdType (qid : Nat) (sqe : List Byte) : Option Nat :=
  let op := sqeOp sqe
  if op = 0x7F then (if fctype sqe = 1 ∨ (qid = 0 ∧ (fctype sqe = 0 ∨ fctype sqe = 4)) then some 3 else none)
  else if qid = 0 then (if [0x02, 0x06, 0x08, 0x09, 0x0A, 0x0C, 0x14, 0x18].contains op then some 3 else none)
  else if op = 0x02 then some 0
  else if op = 0x01 ∨ op = 0x08 then some 1
  else if [0x00, 0x0D, 0x0E, 0x11, 0x15].contains op then some 2
  else none

/-- Read, Write and Write Zeroes. -/
def isRw (qid : Nat) (sqe : List Byte) : Bool := qid != 0 && !isFabrics sqe && [0x01, 0x02, 0x08].contains (sqeOp sqe)
def isResv (qid : Nat) (sqe : List Byte) : Bool := qid != 0 && [0x0D, 0x0E, 0x11, 0x15].contains (sqeOp sqe)

/-- SLBA, NLB + 1 and PRINFO of a Read or Write. -/
def sqeSlba (sqe : List Byte) : Nat := leField sqe 40 8
def sqeBlocks (sqe : List Byte) : Nat := leField sqe 48 2 + 1
def sqePrinfo (sqe : List Byte) : Nat := sqeDw sqe 12 / 0x4000000 % 16
/-- CDW13[31]: the command is ordered (R246). -/
def sqeOrdered (sqe : List Byte) : Bool := natBit (sqeDw sqe 13) 31

/-- The data length of R226. -/
def dataLen (f blocks : Nat) : Nat := blocks * (lbaData f + lbaMeta f)

/-- The volume of an I/O command's channel. -/
def State.chanVol (s : State) (i : Nat) : Nat := (s.chan i).nsid - 1

/-! ### Outstanding commands (R236) -/

/-- CIDs outstanding on QP `q` from capsules accepted before capsule `id`. -/
def State.cidsOut (s : State) (q id : Nat) : List Nat :=
  let n := s.qpn q
  ((s.cmd.caps.filter fun c => c.qpn == n && c.counted && decide (c.id < id)).map (·.cid))
    ++ ((s.wbsThat fun x => x.qpn == n && x.st != .committed).map fun w => (s.wb w).cid)
    ++ ((s.ctrl (s.qp q).ctrl).aers.filter fun a => a.qpn == n).map (·.cid)

/-- A Connect of the QP is in progress, or its binding is due. -/
def State.connecting (s : State) (q id : Nat) : Bool :=
  let n := s.qpn q
  (s.cmd.caps.any fun c => c.qpn == n && decide (c.id < id) && isConnect c.sqe) || s.cmd.binds.any (·.q == q)
    || !(s.wbsThat fun x => x.qpn == n && isConnect x.sqe).isEmpty

/-! ### SGL checks (R247) -/

/-- Table 8-7 for the descriptor, in its order. Property commands move no data and carry no descriptor. -/
def sglCheck (qid : Nat) (c : Capsule) (want : Option Nat) : Option Nat :=
  let sqe := c.sqe
  let op := sqeOp sqe
  if isFabrics sqe && !isConnect sqe then none
  else
    let keyed := sglType sqe == 4 && sglSub sqe == 0
    let inCap := sglType sqe == 0 && sglSub sqe == 1
    let inOk := isConnect sqe || (qid != 0 && op == 0x01)
    let len := (sglLen sqe).getD 0
    if !(keyed || (inCap && inOk)) then some Nv.sglType
    else if inCap && sglAddr sqe != 0 then some Nv.sglOffset
    else if inCap && (len != c.icd.length || decide (16384 < len)) then some Nv.sglLength
    else if (match want with | some n => len != n | none => false) then some Nv.sglLength
    else if isConnect sqe && len != 1024 then some Nv.sglLength
    else if qid != 0 && (op == 0x00 || op == 0x08) && len != 0 then some Nv.sglLength
    else none

/-! ### Rows 1 to 8 of Table 8-6 (R238) -/

/-- An answer with the counter that it adds to, and whether the capsule is outstanding. -/
structure Answer where
  status : Nat
  cnt : Option Nat
  counted : Bool
deriving DecidableEq, Repr

def Answer.plain (st : Nat) : Answer := { status := st, cnt := none, counted := true }

/-- Row 2 of Table 8-6: the QP is in DRAIN, or on its way out of it, or the controller's CC.EN is 0 on an I/O queue. -/
def State.sqGone (s : State) (q : Nat) : Bool :=
  let x := s.qp q
  x.st == .drain || x.st == .disc || (x.bound && x.qid != 0 && (s.ctrl x.ctrl).cc % 2 == 0)

/-- The first of rows 1 to 8 that applies. -/
def State.parseRows (s : State) (q : Nat) (c : Capsule) : Option Answer :=
  let x := s.qp q
  let sqe := c.sqe
  let out := s.cidsOut q c.id
  if c.reject then some (.plain Nv.interrupted)
  else if s.sqGone q then some (.plain Nv.sqDeleted)
  else if c.abort then some (.plain Nv.abortReq)
  else if x.bound == isConnect sqe || (isConnect sqe && s.connecting q c.id) then some (.plain Nv.sequence)
  else if out.contains c.cid then some { status := Nv.cidConflict, cnt := some 2, counted := false }
  else if x.depth ≤ out.length then some { status := Nv.interrupted, cnt := some 3, counted := false }
  else
    match cmdType x.qid sqe with
    | none => some (.plain Nv.opcode)
    | some t =>
      let served := match c.chan with
        | some i => (match s.img.cls (s.chan i).cls with | some e => natBit e.commands t | none => true)
        | none => true
      let b1 := leField sqe 1 1
      if !served then some (.plain Nv.opcode)
      else if (if isFabrics sqe then b1 != 0 else b1 % 4 != 0 || b1 / 64 == 0) then some (.plain Nv.field)
      else
        let want := match c.chan with
          | some i => if isRw x.qid sqe ∧ sqeOp sqe ≠ 0x08 then some (dataLen (s.vol (s.chanVol i)).lbaf (sqeBlocks sqe)) else none
          | none => none
        (sglCheck x.qid c want).map fun st => { status := st, cnt := some 5, counted := true }

/-! ### Short answers and completions (R236, R237) -/

/-- The 16 bytes of a completion: DW0 and DW1, SQHD, CID and the status with Do Not Retry where Table 11-6 sets it. -/
def cqeBytes (dw sqhd cid st : Nat) : List Byte :=
  leBytes 8 dw ++ leBytes 2 sqhd ++ zeros 2 ++ leBytes 2 cid ++ leBytes 2 ((st + if st = stUnrecovered then 0x4000 else 0) * 2)

/-- A transmission of a command. -/
def Msg.of (op : Nat) (chan : Option Nat) (w : Nat) (data : List Byte) (len va rkey : Nat) : Msg :=
  { op := op, chan := chan, wb := w, data := data, len := len, va := va, rkey := rkey, off := 0, pinTo := 0, after := 0, armed := 0 }

/-- No waybill: a transmission that belongs to none. -/
def noWb : Nat := 262144

/-- A completion SEND is armed on QP `q`. -/
def State.sendCqe (s : State) (q : Nat) (chan : Option Nat) (w dw cid st : Nat) : State :=
  let bs := cqeBytes dw (s.qp q).sqhd cid st
  s.armMsg q (Msg.of 1 chan w bs bs.length 0 0)

/-- Cells go back to their accounts. -/
def State.freeAll (s : State) (cs : List (Acct × Nat)) : State := cs.foldl (fun s (e : Acct × Nat) => s.freeCells e.1 e.2) s

/-- A short answer is decided for the capsule: the item goes straight to XFER_ARM. -/
def State.shortAnswer (s : State) (it : Item) (c : Capsule) (a : Answer) : State :=
  let s := match a.cnt with | some n => s.cntCmd n 1 | none => s
  let s := s.updCap c.id fun c => { c with answer := some (a.status, 0), counted := c.counted && a.counted }
  s.advance it Rt.xferArm 1 .none s.now

/-- RX_PARSE of a capsule. -/
def State.rxParse (it : Item) (s : State) : State :=
  match it.ref with
  | .cap id =>
    (match s.cap? id with
     | none => s.endItem it
     | some c =>
       match s.qpOf c.qpn with
       | none => ((s.endItem it).freeAll c.cells).dropCap id
       | some q =>
         match s.parseRows q c with
         | some a => s.shortAnswer it c a
         | none => s.advance it Rt.cmdAdmit 1 .none s.now)
  | _ => s.endItem it

/-- RX_PARSE in class `c` on cluster `k`. -/
def execRxParse (k : Fin 12) (c : Fin 256) (s : State) : Host.Outcome State Fault Refusal := .next (s.run k c Rt.rxParse State.rxParse)

/-- The status with which a short answer leaves: a command that has not been admitted is answered under row 2 or row 3 of Table 8-6 when the
queue goes or an Abort names it while its answer waits (R249, R251); row 1 stands before both. -/
def State.lastStatus (s : State) (c : Capsule) (st : Nat) : Nat :=
  if c.reject then st
  else if (match s.qpOf c.qpn with | some q => s.sqGone q | none => false) then Nv.sqDeleted
  else if c.abort then Nv.abortReq
  else st

/-- XFER_ARM of a short answer: the completion SEND alone; the cells are freed. A failed Connect asks for ERR (R232). -/
def State.armAnswer (s : State) (it : Item) (c : Capsule) : State :=
  let st := s.lastStatus c (c.answer.getD (0, 0)).1
  let dw := (c.answer.getD (0, 0)).2
  let s := (s.cntCmd 0 1).endItem it
  let s := match s.qpOf c.qpn with
    | none => s
    | some q =>
      let s := s.sendCqe q c.chan noWb dw c.cid st
      if isConnect c.sqe && st != 0 && !(s.qp q).bound then s.updQp q fun x => { x with engineErr := true } else s
  -- R110: commands that waited when the channel became CLOSING.
  let s := match c.chan with
    | some i =>
      if (s.chan i).st = ChanSt.closing ∧ st = Nv.badNs ∧ c.tick ≤ (s.chan i).closedAt then
        s.setChan i { s.chan i with answered := (s.chan i).answered + 1 } else s
    | none => s
  (s.freeAll c.cells).dropCap c.id

/-- SUSPEND_RESP (02 R69): Namespace Not Ready, as a short answer. -/
def State.suspendResp (it : Item) (s : State) : State :=
  match it.ref with
  | .cap id => (match s.cap? id with
    | none => s.endItem it
    | some c => s.armAnswer it { c with answer := some (Nv.notReady, 0) })
  | _ => s.endItem it

/-! ### Reservations at admission (R254) -/

/-- A host's command of a volume conflicts with the record: `write` for Write, Write Zeroes and Flush. -/
def Resv.conflicts (r : Resv) (host : Nat) (write : Bool) : Bool :=
  let reg := r.regs.any fun (e : Nat × Nat) => e.1 == host
  let held := r.holder.isSome || r.rtype == 5 || r.rtype == 6
  if r.rtype = 0 || !held then false
  else if r.rtype = 1 then write && r.holder != some host
  else if r.rtype = 2 then r.holder != some host
  else if r.rtype = 3 ∨ r.rtype = 5 then write && !reg
  else !reg


/-! ### Rows 9 to 15 (R238, R239, R283) -/

/-- The units of a range of blocks of format `f`. -/
def unitsOf (f slba n : Nat) : List Nat :=
  let u := unitBlocks f
  if n = 0 then [] else (List.range ((slba + n - 1) / u + 1 - slba / u)).map (slba / u + ·)

/-- Units of a write that are not already DIRTY or DESTAGING (R283). -/
def State.newUnits (s : State) (v f slba n : Nat) : List Nat :=
  (unitsOf f slba n).filter fun t => match s.findLine v t with | some (_, l) => !l.isDirty | none => true

/-- Lines reserved by admitted writes. -/
def State.reserved (s : State) : Nat := s.cmd.wbs.foldl (fun a (e : Nat × Waybill) => a + e.2.resv.length) 0

/-- The largest transfer of an admin or reservation command (R247): the structure's size; for Get Log Page and Reservation Report
what NUMD says. -/
def State.structLen (s : State) (qid : Nat) (sqe : List Byte) (len : Nat) : Bool :=
  let op := sqeOp sqe
  if isFabrics sqe then true
  else if qid = 0 then
    (if op = 0x06 then decide (len ≤ 4096)
     else if op = 0x02 then len == 4 * (sqeDw sqe 10 / 65536 + sqeDw sqe 11 % 65536 * 65536 + 1)
     else if op = 0x09 ∨ op = 0x0A then decide (len ≤ 16)
     else len == 0)
  else if op = 0x0E then len == 4 * (sqeDw sqe 10 + 1)
  else if op = 0x0D ∨ op = 0x11 then decide (len ≤ 16)
  else if op = 0x15 then decide (len ≤ 8)
  else true

/-- What CMD_ADMIT does with a capsule. -/
inductive Admit where
  | answer (a : Answer)
  | suspend
  | pass
  /-- It waits: 1 for a credit, 2 for a waybill, 3 for dirty lines. -/
  | wait (why : Nat)
deriving DecidableEq, Repr

/-- The first of rows 9 to 15 that applies to a capsule of QP `q`; before them rows 2 and 3 again, for a capsule that came by them before its queue
went or an Abort named it (R249, R251). -/
def State.admitRows (s : State) (q : Nat) (c : Capsule) : Admit :=
  let x := s.qp q
  let sqe := c.sqe
  let io := x.qid != 0 && !isFabrics sqe
  let short (st : Nat) (n : Option Nat) : Admit := .answer { status := st, cnt := n, counted := true }
  let ch := match c.chan with | some i => s.chan i | none => Chan.reset
  let v := ch.nsid - 1
  let V := s.vol v
  let rw := isRw x.qid sqe
  let n := sqeBlocks sqe
  let len := (sglLen sqe).getD 0
  let write := rw && sqeOp sqe != 0x02
  if s.sqGone q then short Nv.sqDeleted none
  else if c.abort then short Nv.abortReq none
  else if (io && c.chan.isNone) || (c.chan.isSome && (ch.st == .closing || ch.st == .free)) then short Nv.badNs none
  else if c.chan.isSome && ch.st == .suspended then .suspend
  else if rw && decide (2097152 < dataLen V.lbaf n) then short Nv.field (some 4)
  else if !rw && !s.structLen x.qid sqe len then short Nv.field (some 4)
  else if rw && sqeOp sqe != 0x08 && guardBytes V.lbaf != 0 && natBit (sqePrinfo sqe) 3 then short Nv.field (some 4)
  else if io && (V.st != 2 || V.unmapped) then short Nv.notReady none
  else if rw && decide (V.blocks < sqeSlba sqe + n) then short Nv.lbaRange (some 4)
  else if write && natBit ch.attr 2 then short Nv.writeProt none
  else if io && (rw || sqeOp sqe == 0) && (s.resv v).conflicts x.host (sqeOp sqe != 0x02) then short Nv.resConflict (some 6)
  else if c.chan.isSome && decide (ch.credit < 256) then .wait 1
  else if 262144 ≤ Tab.lowest s.cmd.wbs then .wait 2
  else if write && decide (s.dirtyEff < s.dirtyLines + s.reserved + (s.newUnits v V.lbaf (sqeSlba sqe) n).length) then .wait 3
  else .pass

/-! ### Admission (R238 row 15, R240; 02 R45; 18 R529) -/

/-- One step of the tagging state (R529). -/
def xorshift (x : Nat) : Nat :=
  let a := x ^^^ (x * 8192 % 4294967296)
  let b := a ^^^ (a / 131072)
  b ^^^ (b * 32 % 4294967296)

/-- The tag of the command being admitted on channel `i` in class `cls`: 0 for none (R529). -/
def State.tagFor (s : State) (chan : Option Nat) (cls : Nat) : Nat × State :=
  let sh := s.fld Reg.TEL_TAG_CFG Fd.TEL_TAG_CFG_TAG_SHIFT
  let kind := s.fld Reg.TEL_TAG_CFG Fd.TEL_TAG_CFG_FILTER_KIND
  let f := (s.rd Reg.TEL_TAG_FILTER).toNat
  let hit := match kind with
    | 1 => (match chan with | some i => s.handleOf i == f | none => false)
    | 2 => cls == f % 256
    | _ => true
  if sh = 0 ∨ !hit then (0, s)
  else
    let x := xorshift s.tel.x
    let s := { s with tel := { s.tel with x := x } }
    if x < 2 ^ (32 - sh) then
      let t := s.tel.nextTag
      (t, { s with tel := { s.tel with nextTag := if t = 4294967295 then 1 else t + 1 } }.cntTel 4 1)
    else (0, s)

/-- Event `n` of a tagged command's trace is stamped: in this tick, at a cycle that the plan gives (R530). -/
def State.stamp (s : State) (w n : Nat) : State :=
  if (s.wb w).tag = 0 then s
  else
    let (v, s) := s.draw
    s.updWb w fun x => { x with stamps := x.stamps.filter (fun e => e.1 != n) ++ [(n, s.stampAt (v % 2048))] }
/-- The same, for an event of which the first counts. -/
def State.stampFirst (s : State) (w n : Nat) : State := if (s.wb w).stamps.any (fun e => e.1 == n) then s else s.stamp w n

/-- The capsule is admitted: one credit is taken, and its waybill created at the lowest free index. -/
def State.admitCap (s : State) (it : Item) (q : Nat) (c : Capsule) : State :=
  let x := s.qp q
  let sqe := c.sqe
  let w := Tab.lowest s.cmd.wbs
  let s := match c.chan with
    | some i => s.setChan i { s.chan i with credit := (s.chan i).credit - 256 }
    | none => s
  let (tag, s) := s.tagFor c.chan it.cls
  let ch := match c.chan with | some i => s.chan i | none => Chan.reset
  let v := ch.nsid - 1
  let rw := isRw x.qid sqe
  let write := rw && sqeOp sqe != 0x02
  let wb : Waybill := { Waybill.reset with
    st := .admitted, write := write, ordered := x.qid != 0 && !isFabrics sqe && (natBit ch.attr 0 || sqeOrdered sqe)
    wt := natBit ch.attr 1, policy := ch.policy, cid := c.cid, qpn := c.qpn
    opcode := sqeOp sqe, chan := (match c.chan with | some i => s.handleOf i | none => 0), cls := it.cls
    slba := if rw then sqeSlba sqe else 0, blocks := if rw then sqeBlocks sqe else 0, capsule := c.id % 4294967296, admitTick := s.itn.tick % 4294967296, tag := tag
    volume := if x.qid = 0 then 0 else v, cluster := it.cluster, sqe := sqe, icd := c.icd, beyond := c.beyond, arrive := c.stamp, parked := c.parked
    wasDeferred := c.wasDeferred, cells := c.cells
    resv := if write then s.newUnits v (s.vol v).lbaf (sqeSlba sqe) (sqeBlocks sqe) else [] }
  let s := (((s.setWb w wb).stamp w 0).stamp w 1).dropCap c.id
  let s := if c.wasDeferred then s.stamp w 18 else s
  { s with cmd := { s.cmd with items := s.cmd.items.erase it ++ [{ s.onward it Rt.lockCheck 1 .none s.now with ref := .wb w }] } }

/-- Its data moves by an RDMA READ: the descriptor is keyed. A write with an SGL Data Block descriptor carries its data in the capsule (R247). -/
def Waybill.keyed (x : Waybill) : Bool := sglType x.sqe == 4
/-- A command of blocks. -/
def Waybill.io (x : Waybill) : Bool := x.blocks != 0
def isAbort (x : Waybill) : Bool := x.opcode == 0x08 && !x.io
/-- A command whose data the host sends and that ADMIN_STEP executes. -/
def Waybill.takesData (x : Waybill) : Bool :=
  isConnect x.sqe || (!x.io && !isFabrics x.sqe && (x.opcode == 0x0D || x.opcode == 0x11 || x.opcode == 0x15 || x.opcode == 0x09)
    && decide (0 < (sglLen x.sqe).getD 0))
/-- The code with which a LOCKED command goes on: MAP_XLATE for a command of blocks, ABORT_SCAN for an Abort, the fetch of its data or
ADMIN_STEP for the rest. -/
def Waybill.afterLock (x : Waybill) : Nat :=
  if x.io then Rt.mapXlate
  else if x.opcode = 0x08 then Rt.abortScan
  else if x.takesData && x.keyed then Rt.xferArm
  else Rt.adminStep

/-- Blocks of one invocation of 128 KiB (02 R36), and the invocations of a command. -/
def invBlocks (f : Nat) : Nat := 131072 / lbaData f
def Waybill.invs (x : Waybill) (f : Nat) : Nat := ceilDiv x.blocks (invBlocks f)

/-- A restarted command goes on by its state (R241; 02 R68): requests on the old cluster are dropped and made again. -/
def State.resumeWb (s : State) (it : Item) (w : Nat) : State :=
  let x := s.wb w
  let s := { s with cip := { s.cip with reqs := s.cip.reqs.filter fun r => r.ref != Ref.wb w } }
  let s := { s with lay := { s.lay with parity := s.lay.parity.filter fun r => r.ref != Ref.wb w } }
  let s := s.updWb w fun x => { x with piPosted := 0, piDone := 0, stored := [], piFail := none }
  match x.st with
  | .admitted => s.advance it Rt.lockCheck 1 .none s.now
  | .lockWait => s.advance it x.afterLock 1 .event s.now
  | .locked => s.advance it x.afterLock 1 .none s.now
  | .payload =>
    if x.keyed ∧ x.sent < x.invs (s.vol x.volume).lbaf then s.advance it Rt.xferArm 1 .none s.now
    else if x.keyed ∧ x.data.length < x.want then s.advance it Rt.piCheck 1 .event s.now
    else s.advance it Rt.piCheck 1 .none s.now
  | .media =>
    if (s.refCmds it.ref).isEmpty then (s.updWb w fun x => { x with recov := [] }).advance it Rt.drvSubmit 1 .none s.now else s.toReap it
  | .fill => s.advance it Rt.piCheck 1 .none s.now
  | .durableWait => s.advance it Rt.xferArm 1 .event s.now
  | _ => s.advance it Rt.cplRetire 1 .none s.now

/-- A write of the same channel, accepted before this one, waits for dirty lines (09 R283). -/
def State.behind (s : State) (c : Capsule) : Bool :=
  s.cmd.items.any fun it => it.why == 3 && (match it.ref with
    | .cap j => decide (j < c.id) && (match s.cap? j with | some e => e.chan == c.chan | none => false)
    | _ => false)

/-- CMD_ADMIT. A command that waits for a credit or for dirty lines stays in its queue and those behind it are taken first (R45, 09 R283); one that
waits for a waybill stays at the head (R239); a write behind one of its channel that waits for dirty lines waits with it. -/
def State.cmdAdmit (it : Item) (s : State) : State :=
  match it.ref with
  | .cap id =>
    (match s.cap? id with
     | none => s.endItem it
     | some cap =>
       match s.qpOf cap.qpn with
       | none => ((s.endItem it).freeAll cap.cells).dropCap id
       | some q =>
         match s.admitRows q cap with
         | .answer a => s.shortAnswer it cap a
         | .suspend => s.advance it Rt.suspendResp 1 .none s.now
         | .pass =>
           if isRw (s.qp q).qid cap.sqe && sqeOp cap.sqe != 0x02 && s.behind cap then s.stay it 9 true else s.admitCap it q cap
         | .wait n => s.stay it n (n != 2))
  | .wb w => s.resumeWb it w
  | .work _ => s.endItem it

def execCmdAdmit (k : Fin 12) (c : Fin 256) (s : State) : Host.Outcome State Fault Refusal := .next (s.run k c Rt.cmdAdmit State.cmdAdmit)

/-- SUSPEND_RESP in class `c` on cluster `k`. -/
def execSuspendResp (k : Fin 12) (c : Fin 256) (s : State) : Host.Outcome State Fault Refusal :=
  .next (s.run k c Rt.suspendResp State.suspendResp)

/-! ### Range locks (R243 to R246) -/

def State.lock (s : State) (l : Nat) : Lock := Tab.rd (fun _ => Lock.reset) s.cmd.locks l
def State.setLock (s : State) (l : Nat) (x : Lock) : State :=
  { s with cmd := { s.cmd with locks := Tab.wr (fun _ => Lock.reset) s.cmd.locks l x } }

/-- Two entries of one volume conflict (R244). -/
def Lock.conflicts (e x : Lock) : Bool :=
  e.volume == x.volume &&
    ((!e.noRange && !x.noRange && decide (e.first ≤ x.last) && decide (x.first ≤ e.last) && (e.write || x.write))
      || (e.chan == x.chan && (e.ordered || x.ordered)))

/-- A command takes an entry: a command of blocks always, a Flush or reservation command when it is ordered. -/
def Waybill.locks (x : Waybill) : Bool := x.io || (x.ordered && [0x00, 0x0D, 0x0E, 0x11, 0x15].contains x.opcode)

/-- An item's command is to be cut short: ABORT_REQ or PREEMPT is set and FILLED is clear, or it has been abandoned. -/
def Waybill.cut (x : Waybill) : Bool := (x.abortReq || x.preempt) && !x.filled
def State.cutOff (s : State) (it : Item) (w : Nat) : State :=
  if (s.wb w).st = .abandoned then (if (s.refCmds it.ref).isEmpty then s.advance it Rt.cplRetire 1 .none s.now else s.toReap it)
  else if (s.refCmds it.ref).isEmpty then s.advance it Rt.xferArm 1 .none s.now
  else s.toReap it

/-- A run on a waybill: its normal action, unless the command is cut short (R241). -/
def State.onWb (s : State) (it : Item) (body : Nat → Waybill → State → State) : State :=
  match it.ref with
  | .wb w =>
    let x := s.wb w
    if x.st = .free then s.endItem it
    else if x.cut || x.st == .abandoned then s.cutOff it w
    else body w x s
  | _ => s.endItem it

/-- LOCK_CHECK places an entry, HOLDING or WAITING; without a free entry the command stays at the head of its queue (R246). -/
def State.lockCheck (it : Item) (s : State) : State :=
  s.onWb it fun w x s =>
    if !x.locks then (s.updWb w fun x => { x with st := .locked }).advance it x.afterLock 1 .none s.now
    else
      let l := Tab.lowest s.cmd.locks
      if 65536 ≤ l then s.stay it 4 false
      else
        let e : Lock :=
          { volume := x.volume, state := 0, write := x.write, ordered := x.ordered, waybill := w, first := x.slba, last := x.slba + x.blocks - 1
            seq := s.cmd.lockSeq, blockers := 0, chan := x.chan % 262144, noRange := !x.io }
        let n := (s.cmd.locks.filter fun (o : Nat × Lock) => e.conflicts o.2).length
        let s := s.setLock l { e with state := if n = 0 then 2 else 1, blockers := n }
        let s := { s with cmd := { s.cmd with lockSeq := (s.cmd.lockSeq + 1) % 4294967296 } }
        let s := s.updWb w fun x => { x with st := if n = 0 then .locked else .lockWait, lock := l, lockValid := true }
        if n = 0 then (s.stamp w 2).advance it x.afterLock 1 .none s.now
        else (s.cntCmd 7 1).advance it x.afterLock 1 .event s.now

def execLockCheck (k : Fin 12) (c : Fin 256) (s : State) : Host.Outcome State Fault Refusal := .next (s.run k c Rt.lockCheck State.lockCheck)

/-- The age of a SEQ: how many entries have been placed since, modulo 2^32 (Table 8-10). -/
def State.seqAge (s : State) (seq : Nat) : Nat := (s.cmd.lockSeq + 4294967296 - seq) % 4294967296

/-- One entry is released: later entries that counted it have a blocker less, and those at 0 become HOLDING (R245). -/
def State.unlock (s : State) (l : Nat) : State :=
  let e := s.lock l
  if e.state = 0 then s
  else
    let s := s.setLock l Lock.reset
    (s.cmd.locks.filter fun (o : Nat × Lock) => decide (s.seqAge o.2.seq < s.seqAge e.seq) && e.conflicts o.2).foldl (fun s (o : Nat × Lock) =>
      let x := o.2
      let n := x.blockers - 1
      if x.state = 1 ∧ n = 0 then
        let s := s.setLock o.1 { x with blockers := 0, state := 2 }
        (((if (s.wb x.waybill).st = .lockWait then s.updWb x.waybill fun y => { y with st := .locked } else s).stamp x.waybill 2).wakeWb x.waybill)
      else s.setLock o.1 { x with blockers := n }) s

/-- The hand-off phase: the entries released at one seam are processed in SEQ order, those of CPL_RETIRE and those of Aborts alike. -/
def State.unlockSeam (s : State) : State :=
  let ls := sortBy (fun l => 4294967296 - s.seqAge (s.lock l).seq) s.cmd.unlock
  ls.foldl State.unlock { s with cmd := { s.cmd with unlock := [] } }

/-- The entry of a waybill is to be released at the seam. -/
def State.releaseLock (s : State) (w : Nat) : State :=
  let x := s.wb w
  if x.lockValid then
    let s := { s with cmd := { s.cmd with unlock := s.cmd.unlock ++ [x.lock] } }
    s.updWb w fun x => { x with lockValid := false, lock := 0 }
  else s

/-! ### Retirement -/

/-- The trace record of a waybill that becomes FREE (18 Table 18-4). The start of its frames at the MDI is no time of the model: a free
value, unless the controller is a standby. -/
def State.traceOf (s : State) (w : Nat) : State :=
  let s := if (s.wb w).armed && s.netOn then (s.stamp w 15).stamp w 16 else s
  let x := s.wb w
  let at_ (n : Nat) : Nat :=
    match x.stamps.find? fun (e : Nat × Nat) => e.1 == n with
    | some e => min 0xFFFFFFFE (e.2 - x.arrive)
    | none => if n = 19 then 0 else 0xFFFFFFFF
  let t : Trace :=
    { tag := x.tag, channel := x.chan, qpn := x.qpn, opcode := x.opcode, cid := x.cid, cls := x.cls
      flags := b2n x.hit + 2 * b2n x.restarted + 4 * b2n (x.abortReq || x.preempt) + 8 * b2n (x.st == .abandoned) + 16 * b2n x.parked
        + 32 * b2n x.wasDeferred
      tick := x.arrive / 2048, cycle := x.arrive % 2048, status := x.status, blocks := x.blocks, stamps := (List.range 20).map at_
      slba := x.slba, volume := x.volume, cluster := x.cluster }
  { s with tel := { s.tel with traceDue := s.tel.traceDue ++ [t] } }

/-- Lines that the waybill left FILLING: with valid data CLEAN again, otherwise FREE. -/
def State.dropFilling (s : State) (x : Waybill) : State :=
  if x.filled || !x.write then s
  else
    (unitsOf (s.vol x.volume).lbaf x.slba x.blocks).foldl (fun s t =>
      match s.findLine x.volume t with
      | some (i, l) => if l.st = .filling then s.setLine i (if l.valid = 0 then Line.reset else { l with st := .clean }) else s
      | none => s) s

/-- Reads and transmissions of a waybill that ends: an armed READ completes, and its data belongs to no command (R250). -/
def State.forgetWb (s : State) (w : Nat) : State :=
  match s.qpOf (s.wb w).qpn with
  | none => s
  | some q => s.updQp q fun x => { x with
      tx := x.tx.map fun m => if m.wb = w then { m with wb := noWb } else m
      reads := x.reads.map fun e => if e.wb = w then { e with wb := noWb } else e }

/-- The waybill becomes FREE: its lock, its cells, its reservations and its drive tags with it; the counters of its channel. -/
def State.freeWb (s : State) (w : Nat) : State :=
  let x := s.wb w
  let s := (s.stamp w 17).releaseLock w
  let s := if x.tag = 0 then s else s.traceOf w
  let s := (s.dropFilling x).forgetWb w
  let s := (s.freeAll (x.cells ++ x.pay)).releaseRef (Ref.wb w)
  let s := { s with cip := { s.cip with reqs := s.cip.reqs.filter fun r => r.ref != Ref.wb w }
                    lay := { s.lay with parity := s.lay.parity.filter fun r => r.ref != Ref.wb w } }
  let s := s.dropItems fun it => it.ref == Ref.wb w
  let s := match s.chanOf x.chan with
    | some i =>
      let bytes := if x.status = 0 ∧ x.io then x.blocks * lbaData (s.vol x.volume).lbaf else 0
      let s := (s.cntChan i 1 1).cntChan i (if x.write then 3 else 2) bytes
      let s := if x.status = 0 then s else s.cntChan i 7 1
      s.cntChan i 8 (s.itn.tick - x.arrive / 2048)
    | none => s
  s.setWb w Waybill.reset

/-- CPL_RETIRE: a COMMITTED waybill, or an ABANDONED one with nothing outstanding, becomes FREE. -/
def State.cplRetire (it : Item) (s : State) : State :=
  match it.ref with
  | .wb w =>
    let x := s.wb w
    if x.st = .committed then s.freeWb w
    else if x.st = .abandoned then
      (if !(s.refCmds it.ref).isEmpty then s.toReap it
       else if x.filled ∧ s.now < x.fillTick + 2 then s.later it
       else s.freeWb w)
    else s.endItem it
  | _ => s.endItem it

def execCplRetire (k : Fin 12) (c : Fin 256) (s : State) : Host.Outcome State Fault Refusal := .next (s.run k c Rt.cplRetire State.cplRetire)

/-! ### Abort (R248 to R250) and connection loss (R252) -/

/-- The waiting item of a command that is cut short becomes ready; a write's map lookup beside it ends. -/
def State.wakeCut (s : State) (w : Nat) : State :=
  let x := s.wb w
  let s := s.dropItems fun it => it.ref == Ref.wb w && it.code == Rt.mapXlate && it.leg == 2 && x.write
  if (s.refCmds (Ref.wb w)).isEmpty then s.wakeWb w else s

/-- The flag and the status are set in the hand-off phase; a WAITING entry is released at the same phase (R249, R255). -/
def State.cutWb (s : State) (w : Nat) (preempt : Bool) : State :=
  let x := s.wb w
  if x.st = .free ∨ x.st = .committed ∨ x.st = .abandoned then s
  else
    let s := s.updWb w fun x => { x with
      abortReq := x.abortReq || !preempt, preempt := x.preempt || preempt, status := if preempt then Nv.preempted else Nv.abortReq }
    let s := s.cntCmd 10 1
    let s := if x.lockValid && (s.lock x.lock).state == 1 then s.releaseLock w else s
    if (s.wb w).filled then s else s.wakeCut w

/-- The hand-off phase: ABORT_REQ is set in the waybills that Aborts name. -/
def State.abortSeam (s : State) : State :=
  s.cmd.abortDue.foldl (fun s w => s.cutWb w false) { s with cmd := { s.cmd with abortDue := [] } }

/-- ABORT_SCAN: the outcome of an Abort by the state of the command that it names. Its own completion is armed in the next tick. -/
def State.abortScan (it : Item) (s : State) : State :=
  s.onWb it fun w x s =>
    let q := (s.qpOf x.qpn).getD 0
    let key := (s.qp q).ctrl
    let sqid := sqeDw x.sqe 10 % 65536
    let cid := sqeDw x.sqe 10 / 65536
    let done (st dw : Nat) (s : State) : State :=
      (s.updWb w fun x => { x with status := st, dw0 := dw }).advance it Rt.xferArm 1 .none (s.now + 1)
    if x.beyond then done Nv.abortLimit 0 s
    else
      match (Tab.keys (fun y => y.bound && y.ctrl == key && y.qid == sqid) s.rdm.qps).head? with
      | none => done 0 1 (s.cntCmd 11 1)
      | some p =>
        let n := s.qpn p
        match s.cmd.caps.find? fun c => c.qpn == n && c.cid == cid && c.counted with
        | some c =>
          let s := s.updCap c.id fun c => { c with abort := true }
          done 0 0 s
        | none =>
          match (s.wbsThat fun y => y.qpn == n && y.cid == cid && y.st != .committed && y.st != .abandoned && !isAbort y).head? with
          | some v => done 0 0 { s with cmd := { s.cmd with abortDue := s.cmd.abortDue ++ [v] } }
          | none =>
            if (s.ctrl key).aers.any fun a => a.qpn == n && a.cid == cid then
              -- It completes in the next tick, as an event would complete it.
              let s := s.updCtrl key fun c => { c with aers := c.aers.filter fun a => !(a.qpn == n && a.cid == cid) }
              let id := s.cmd.capSeq
              let cap : Capsule :=
                { id := id, qpn := n, chan := s.chanOf x.chan, cid := cid, sqe := zeros 64, icd := [], tick := s.now, reject := false, abort := false
                  counted := true, answer := some (Nv.abortReq, 0), cells := [], cluster := it.cluster, cls := it.cls, dscp := 0, pre := 0, deferred := false
                  wasDeferred := false, parked := false, stamp := 0 }
              let s := { s with cmd := { s.cmd with caps := s.cmd.caps ++ [cap], capSeq := id + 1 } }
              done 0 0 (s.addItem { ref := .cap id, cluster := it.cluster, cls := it.cls, code := Rt.xferArm, leg := 1, wait := .none, ready := s.now + 1 })
            else done 0 1 (s.cntCmd 11 1)

def execAbortScan (k : Fin 12) (c : Fin 256) (s : State) : Host.Outcome State Fault Refusal := .next (s.run k c Rt.abortScan State.abortScan)

/-- Deferred commands named by an Abort are answered at the seam (R249). -/
def State.abortDeferred (s : State) : State :=
  (s.cmd.caps.filter fun c => c.deferred && c.abort).foldl (fun s c =>
    let s := match c.chan with
      | some i => s.setChan i { s.chan i with defq := (s.chan i).defq.filter (· != c.id) }
      | none => s
    s.postCap c.id false) s

/-- A QP enters ERR (R252): its unadmitted commands are freed without answer, and its waybills that are not COMMITTED become
ABANDONED. -/
def State.cmdErr (s : State) (q : Nat) : State :=
  let n := s.qpn q
  let cs := s.cmd.caps.filter fun c => c.qpn == n
  let s := cs.foldl (fun s c =>
    let s := match c.chan with
      | some i => if c.deferred then s.setChan i { s.chan i with defq := (s.chan i).defq.filter (· != c.id) } else s
      | none => s
    ((s.freeAll c.cells).dropItems fun it => it.ref == Ref.cap c.id).dropCap c.id) s
  (s.wbsThat fun x => x.qpn == n && x.st != .committed && x.st != .abandoned).foldl (fun s w =>
    let s := (s.updWb w fun x => { x with st := .abandoned }).cntCmd 12 1
    s.wakeCut w) s

/-- The waiting counters of a seam (00 R570): each grows by the items that wait for its reason; the events that report waits for a waybill, a lock
entry and dirty lines come at most once per second (R239, R246, 09 R283). -/
def State.admitWaits (s : State) : State :=
  let nWb := s.waiting 2
  let nDirty := s.waiting 3
  let nLock := s.waiting 4
  let due (t : Option Nat) : Bool := match t with | none => true | some t => decide (t + ticksPerSecond ≤ s.now)
  let s := ((s.cntCmd 9 nWb).cntLay 7 nDirty).cntCmd 8 nLock
  let s := ((s.cntDrv 12 (s.waiting 5)).cntDrv 13 (s.waiting 6)).cntDrv 14 (s.waiting 7)
  let s := if nWb ≠ 0 && due s.cmd.wbEv then ({ s with cmd := { s.cmd with wbEv := some s.now } }).raise Ev.CMD_WAYBILL_EXHAUSTED s.cmd.wbs.length nWb 0 else s
  let s := if nLock ≠ 0 && due s.cmd.lockEv then
      ({ s with cmd := { s.cmd with lockEv := some s.now } }).raise Ev.CMD_LOCK_EXHAUSTED s.cmd.locks.length nLock 0 else s
  if nDirty ≠ 0 && due s.lay.fullEv then ({ s with lay := { s.lay with fullEv := some s.now } }).raise Ev.LAY_DIRTY_FULL s.dirtyLines nDirty 0 else s

/-- Each channel's credit grows by its quota up to its cap (02 R45). -/
def State.creditSeam (s : State) : State :=
  s.liveChans.foldl (fun s i =>
    let ch := s.chan i
    s.setChan i { ch with credit := min (s.creditCap ch.cls) (ch.credit + s.quota ch.cls) }) s

end Sys2Proof.Machine
end

