-- ==== Sys2Proof/Machine/CmdData.lean ====
section
/-!
DEFINITION. The data path of a command: map and cache lookup, member reads and recovery, checks and the cipher, the transfers to and
from the host, and cache writes (08 Table 8-9; 09 R281 to R287, R293, R299; 11 R334 to R343; 01 R24).
-/

namespace Sys2Proof.Machine

open Sys2Proof

/-! ### Blocks and units of a command -/

/-- The LBAs of invocation `i`. -/
def Waybill.invRange (x : Waybill) (f i : Nat) : List Nat :=
  (List.range (min (invBlocks f) (x.blocks - i * invBlocks f))).map (x.slba + i * invBlocks f + ·)

/-- The sectors of unit `t` that blocks `lo` to `hi − 1` name: bit per 512 B sector. -/
def sectorMask (f t lo hi : Nat) : Nat :=
  if f ≤ 1 then (List.range 8).foldl (fun a i => if lo ≤ 8 * t + i ∧ 8 * t + i < hi then a + 2 ^ i else a) 0 else 255
def Waybill.maskOf (x : Waybill) (f t : Nat) : Nat := sectorMask f t x.slba (x.slba + x.blocks)

/-- Every sector of `mask` is valid. -/
def covers (valid mask : Nat) : Bool := Nat.land valid mask == mask

/-! ### MAP_XLATE and CACHE_PROBE -/

/-- MAP_XLATE: leg 1 reads the map entry; a read's cache lookup and a write's payload follow in the same tick. Leg 2 resolves members,
strips and member LBAs. -/
def State.mapXlate (it : Item) (s : State) : State :=
  s.onWb it fun w x s =>
    if it.leg = 1 then
      let s := s.lane it 64 0
      (if x.write then
         -- The lookup goes on beside the payload.
         (s.addItem { it with code := Rt.mapXlate, leg := 2, wait := s.laneWait Rt.mapXlate, ready := s.now, on := none, step := 0 }).advance it
           (if x.opcode = 0x08 then Rt.piCheck else Rt.xferArm) 1 .none s.now
       else s.advance it Rt.cacheProbe 1 .none s.now)
    else
      let v := x.volume
      let s := (s.updWb w fun x => { x with map := (unitsOf (s.vol v).lbaf x.slba x.blocks).map fun t => (t, s.mapPlace (s.chan x.chan).firstEntry v t) }).stamp w 3
      if x.write then s.endItem it else s.advance it Rt.cacheProbe 2 .none s.now

def execMapXlate (k : Fin 12) (c : Fin 256) (s : State) : Host.Outcome State Fault Refusal := .next (s.run k c Rt.mapXlate State.mapXlate)

/-- CACHE_PROBE: leg 1 reads the directory entries. Leg 2 takes the lines that hold units of the read; a hit has every sector in lines
(R286), and the line read follows. -/
def State.cacheProbe (it : Item) (s : State) : State :=
  s.onWb it fun w x s =>
    if it.leg = 1 then (s.lane it 64 0).advance it Rt.mapXlate 2 (if Config.prefetches Rt.mapXlate then s.laneWait Rt.mapXlate else s.laneWait Rt.cacheProbe) s.now
    else
      let f := (s.vol x.volume).lbaf
      let us := x.map.map fun (e : Nat × Nat × Nat × Nat) => e.1
      let found := us.filterMap fun t => (s.findLine x.volume t).map fun l => (t, l.1, l.2)
      let parts := (found.filter fun (e : Nat × Nat × Line) => Nat.land e.2.2.valid (x.maskOf f e.1) != 0).map
        fun (e : Nat × Nat × Line) => ({ unit := e.1, valid := e.2.2.valid, data := e.2.2.data, dirty := e.2.2.isDirty } : UnitPart)
      let full := parts.filter fun u => covers u.valid (x.maskOf f u.unit)
      let hit := full.length == us.length
      let s := found.foldl (fun s (e : Nat × Nat × Line) => if full.any (fun u => u.unit == e.1) then s.updLine e.2.1 fun l => { l with ref := true } else s) s
      let s := (s.cntLay 8 full.length).cntLay 9 (us.length - full.length)
      let s := (s.updWb w fun x => { x with lines := parts, hit := hit, st := if hit then .media else x.st, pendingIo := if hit then min 255 full.length else 0 }).stamp w 4
      if hit then (s.lane it 0 (min 131072 (4096 * full.length))).advance it Rt.piCheck 1 (s.laneWait Rt.cacheProbe) s.now
      else s.advance it Rt.drvSubmit 1 .none s.now

def execCacheProbe (k : Fin 12) (c : Fin 256) (s : State) : Host.Outcome State Fault Refusal := .next (s.run k c Rt.cacheProbe State.cacheProbe)

/-! ### Member reads and recovery (R293, R299; 10 R315) -/

/-- Places of the units that the cache does not cover. -/
def State.wanted (s : State) (x : Waybill) : List (Nat × Nat × Nat) :=
  let f := (s.vol x.volume).lbaf
  (x.map.filter fun (e : Nat × Nat × Nat × Nat) => !x.lines.any fun u => u.unit == e.1 && covers u.valid (x.maskOf f e.1)).map (·.2)

/-- A unit counts as missing for the read: its member is, or a read of it has failed. -/
def Pool.unread (P : Pool) (x : Waybill) (u : Nat × Nat × Nat) : Bool := (P.unitLoc u.1 u.2.1 u.2.2).isNone || x.bad.contains u
def Pool.rowMissing (P : Pool) (x : Waybill) (st r : Nat) : List Nat := (List.range P.w).filter fun j => P.unread x (st, r, j)

/-- The units of a read that have to be recovered, and of those the ones that can be. -/
def State.toRecover (s : State) (x : Waybill) : List (Nat × Nat × Nat) :=
  (s.wanted x).filter fun u => (s.pool (s.vol x.volume).pool).unread x u
def Pool.recoverable (P : Pool) (x : Waybill) (u : Nat × Nat × Nat) : Bool := decide ((P.rowMissing x u.1 u.2.1).length ≤ 2)

/-- A unit has been read. -/
def Waybill.hasUnit (x : Waybill) (u : Nat × Nat × Nat) : Bool := x.got.any fun v => v.stripe == u.1 && v.row == u.2.1 && v.pos == u.2.2

/-- Units that the read still needs from members: those it wants, and the rest of each row in which one is to be recovered. -/
def State.readNeed (s : State) (x : Waybill) : List (Nat × Nat × Nat) :=
  let P := s.pool (s.vol x.volume).pool
  let want := (s.wanted x).filter fun u => !P.unread x u
  let rows := ((s.toRecover x).filter (P.recoverable x)).map (fun u => (u.1, u.2.1)) |>.eraseDups
  let help := rows.flatMap fun (e : Nat × Nat) => ((List.range P.w).map fun j => (e.1, e.2, j)).filter fun u => !P.unread x u
  (want ++ help).eraseDups.filter fun u => !x.hasUnit u

/-- Recovered units of a read (Table 9-7). -/
def State.recovered (s : State) (x : Waybill) : List UnitVal :=
  let P := s.pool (s.vol x.volume).pool
  ((s.toRecover x).filter (P.recoverable x)).filterMap fun u =>
    let vals := x.got.filterMap fun v => if v.stripe = u.1 ∧ v.row = u.2.1 then some (v.pos, v.data) else none
    ((rowData P.k vals).bind (rowAt · u.2.2)).map fun d => ({ stripe := u.1, row := u.2.1, pos := u.2.2, data := d } : UnitVal)

/-- A stripe not yet resynchronised moves to the head of the resynchronisation (R299). -/
def State.hurry (s : State) (p st : Nat) : State :=
  s.updPool p fun P => { P with resync := P.resync.map fun (r : Resync) => if r.first.contains st then r else { r with first := r.first ++ [st] } }

/-- A read goes on: it submits what it needs and stays at the head of its queue while some is left (12 R373), waits for a stripe to be resynchronised, posts the GF request for what it recovers, or
comes to its checks. -/
def State.readOn (s : State) (it : Item) (w : Nat) : State :=
  let x := s.wb w
  let p := (s.vol x.volume).pool
  let P := s.pool p
  let out := (s.refCmds it.ref).flatMap fun (e : Nat × DrvCmd) => e.2.keys
  let rec_ := s.toRecover x
  let gone := (rec_.filter fun u => !P.recoverable x u).map (fun u => u.1) |>.eraseDups
  let s := gone.foldl (fun s st => if P.isLost st then s else s.wantMark p st 2) s
  let wait := ((rec_.filter fun u => P.recoverable x u && P.unsynced u.1).map (fun u => u.1)).eraseDups
  if !wait.isEmpty then (wait.foldl (fun s st => s.hurry p st) s).later it
  else
    let need := (s.readNeed x).filter fun u => !out.contains u
    let s := s.updWb w fun x => { x with need := need }
    if !need.isEmpty then
      let xs : List Xfer := need.filterMap fun u => (P.unitLoc u.1 u.2.1 u.2.2).map fun l => { bay := l.1, lba := l.2, key := u, data := [] }
      let r := s.submitMany it.ref it.cluster p false false 8 xs
      let s := ((r.st.stampFirst w 5).stamp w 6).updWb w fun x => { x with st := .media, pendingIo := min 255 (r.st.refCmds it.ref).length, need := r.left.map (·.key) }
      let s := s.lane it (64 * r.sent) 0
      if r.left.isEmpty then s.toReap it else s.stay it r.why false
    else if !out.isEmpty then s.toReap it
    else
      let s := s.updWb w fun x => { x with st := .media, pendingIo := 0 }
      let vals := s.recovered x
      if vals.isEmpty || vals == x.recov then s.advance it Rt.piCheck 1 .none s.now
      else
        (((s.cntLay 4 vals.length).updWb w fun x => { x with recov := vals }).postParity it.cluster it.ref).advance it Rt.piCheck 1 .event s.now

/-- DRV_SUBMIT of a read or of pool work: up to eight commands. -/
def State.drvSubmit (it : Item) (s : State) : State :=
  match it.ref with
  | .work id => (match s.work? id with | some w => s.submitWork it w | none => s.endItem it)
  | _ => s.onWb it fun w _ s => s.readOn it w


/-- One reaped read of a command: units that failed, or whose member has become MISSING, count as missing in their row. -/
def State.reapRead (w : Nat) (s : State) (e : Nat × DrvCmd) : State :=
  let c := e.2
  let x := s.wb w
  let P := s.pool (s.vol x.volume).pool
  let gone (u : Nat × Nat × Nat) : Bool := match P.unitLoc u.1 u.2.1 u.2.2 with | some l => l.1 != c.bay | none => true
  let ok (u : Nat × Nat × Nat) : Bool := c.status == 0 && !gone u
  let got := (c.keys.mapIdx fun i u => (u, c.unit i)).filter fun y => ok y.1
  let media := c.status / 256 == 2 && c.status != drvPath
  ((s.setCmd e.1 (some { c with st := 2 })).stampFirst w 7).stamp w 8 |>.updWb w fun x => { x with
    got := x.got ++ got.map fun y => { stripe := y.1.1, row := y.1.2.1, pos := y.1.2.2, data := y.2 }
    bad := x.bad ++ c.keys.filter fun u => !ok u
    media := if media then x.media ++ c.keys.filter fun u => !gone u else x.media
    pendingIo := x.pendingIo - 1 }

/-- DRV_REAP: up to eight latched completions of a read, of pool work, or of a command that is cut short. -/
def State.drvReap (it : Item) (s : State) : State :=
  match it.ref with
  | .work id => (match s.work? id with | some w => s.reapWorkItem it w | none => s.endItem it)
  | .wb w =>
    if (s.wb w).st = .free then s.endItem it
    else
      let s := (s.refLatched it.ref).foldl (State.reapRead w) s
      let x := s.wb w
      if !(s.refCmds it.ref).isEmpty then s.toReap it
      else if x.cut || x.st == .abandoned then s.cutOff it w
      else s.readOn it w
  | .cap _ => s.endItem it


/-! ### PI_CHECK (11 R340 to R344) -/

/-- The class is of kind latency (02 R42). -/
def State.latencyClass (s : State) (c : Nat) : Bool := match s.img.cls c with | some e => e.kind == 0 | none => false

/-- The requests of waybill `w` that are not complete are given up. -/
def State.forgetCipher (s : State) (w : Nat) : State :=
  { s with cip := { s.cip with reqs := s.cip.reqs.filter fun r => r.ref != .wb w } }

/-- The largest array request in bytes of data (Table 11-5). -/
def arrayMax : Nat := 131072
/-- The mode of an array request as CIP_REQ_REFUSED reports it: 0 XTS encrypt, 1 XTS decrypt, 2 check-only. Table 11-14 gives the modes no code
(DESIGN CHOICE, log 146). -/
def Vol.cipherMode (V : Vol) (write : Bool) : Nat := if V.key.isNone then 2 else if write then 0 else 1

/-- PI_CHECK posts the cipher and check request of the next invocation; a key slot that is not LOADED ends the command with Access
Denied (R343), a request longer than Table 11-5 allows with Internal Error (R345). -/
def State.piCheck (it : Item) (s : State) : State :=
  s.onWb it fun w x s =>
    let V := s.vol x.volume
    let s := if x.write then s.updWb w fun x => { x with st := .fill } else s
    let s := if x.st = .payload then s.stampFirst w 11 else s
    -- The line reads of a hit have come in.
    let s := if x.hit then s.updWb w fun x => { x with pendingIo := 0 } else s
    let i := if x.write then x.piPosted else x.progress
    let len := (x.invRange V.lbaf i).length * lbaData V.lbaf
    if !s.keyReady V then
      ((s.forgetCipher w).cntCip 4 1 |>.updWb w fun x => { x with status := stDenied, piFail := some (x.slba, stDenied) }).advance it Rt.xferArm 1 .none s.now
    else if arrayMax < len then
      ((((s.forgetCipher w).cntCip 3 1).raise Ev.CIP_REQ_REFUSED it.cluster (V.cipherMode x.write) len).updWb w fun x =>
        { x with status := stInternal, piFail := some (x.slba, stInternal) }).advance it Rt.xferArm 1 .none s.now
    else
      let s := s.postCipher it.cluster it.ref i (passesOf (x.invRange V.lbaf i).length (lbaData V.lbaf)) (s.latencyClass it.cls) (s.volKey V)
      let s := s.updWb w fun x => { x with piPosted := i + 1 }
      if !x.write then s.advance it Rt.xferArm 1 .event s.now
      else if i + 1 < x.invs V.lbaf then s.advance it Rt.piCheck 1 .none s.now
      else s.advance it Rt.cacheFill 1 .event s.now

def execPiCheck (k : Fin 12) (c : Fin 256) (s : State) : Host.Outcome State Fault Refusal := .next (s.run k c Rt.piCheck State.piCheck)

/-- The check settings of a command (Table 11-4). -/
def State.checkSet (s : State) (x : Waybill) : CheckSet :=
  let pr := sqePrinfo x.sqe
  { escape := natBit x.policy 0, app := natBit pr 1 || natBit x.policy 1, elbat := sqeDw x.sqe 15 % 65536, elbatm := sqeDw x.sqe 15 / 65536 }

/-! ### The arrays complete a request (11 R340, R342) -/

/-- Data units handled by an array (Table 11-15). -/
def State.countUnits (s : State) (V : Vol) (enc : Bool) (n : Nat) : State := s.cntCip (if V.key.isNone then 2 else if enc then 0 else 1) n

/-- A written block: its data and metadata on the wire; Write Zeroes has zeros with the guard of zeros. -/
def Waybill.wireAt (x : Waybill) (f b : Nat) : List Byte × List Byte :=
  let n := lbaData f + lbaMeta f
  let o := (b - x.slba) * n
  (sliceB x.data o (lbaData f), sliceB x.data (o + lbaData f) (lbaMeta f))

/-- Blocks as they are stored, joined into the parts of units that they fill (Table 11-2, R336). -/
def joinUnits (f : Nat) (bs : List (Nat × List Byte × List Byte)) : List UnitPart :=
  let n := unitBlocks f
  ((bs.map fun (e : Nat × List Byte × List Byte) => e.1 / n).eraseDups).map fun t =>
    let at_ (i : Nat) : Option (List Byte × List Byte) := (bs.find? fun (e : Nat × List Byte × List Byte) => e.1 == t * n + i).map (·.2)
    { unit := t
      valid := if f ≤ 1 then (List.range 8).foldl (fun a i => if (at_ i).isSome then a + 2 ^ i else a) 0 else 255
      data := (List.range n).flatMap (fun i => ((at_ i).map (·.1)).getD (zeros (lbaData f)))
        ++ (List.range n).flatMap (fun i => ((at_ i).map (·.2)).getD (zeros (entryBytes f)))
      dirty := false }

/-- The item of a waybill that waits for an event goes on with `code` from tick `at_`. -/
def State.wakeTo (s : State) (w code at_ : Nat) : State :=
  s.wakeItems (fun it => it.ref == .wb w) fun it =>
    { it with wait := .none, code := code, leg := 1, ready := at_, input := decide (s.now < at_) }

/-- A write's invocation has been checked and stored in staging under the key pair of its request (R340, R341, R348). -/
def State.cipherWrite (s : State) (kp : Option KeyPair) (w inv at_ : Nat) : State :=
  let x := s.wb w
  let v := x.volume
  let V := s.vol v
  let f := V.lbaf
  let cs := s.checkSet x
  let zero := x.opcode == 0x08
  let bs := x.invRange f inv
  let outs := bs.map fun b =>
    let wire := x.wireAt f b
    (b, wire, if zero then none else writeCheck f cs b wire.1 wire.2)
  let bad := outs.filterMap fun (e : Nat × (List Byte × List Byte) × Option Nat) => e.2.2.map fun st => (e.1, st)
  let n (st : Nat) : Nat := (bad.filter fun e => e.2 == st).length
  let esc := if zero then 0 else (outs.filter fun e => cs.exempt f (piApp f e.2.1.2)).length
  let s := ((((s.cntChk 2 (n stGuard)).cntChk 5 (n stRef)).cntChk 4 (n stApp)).cntChk 7 esc).countUnits V true bs.length
  let stored := outs.map fun e =>
    let z := zeros (lbaData f)
    (e.1, if zero then storeBlock V kp v e.1 z (guardOf f z) (zeros 2) else storeBlock V kp v e.1 e.2.1.1 (piGuard f e.2.1.2) (piApp f e.2.1.2))
  let fail := (x.piFail <|> (minBy (fun (e : Nat × Nat) => e.1) bad))
  let s := s.updWb w fun x => { x with stored := x.stored ++ joinUnits f stored, piDone := x.piDone + 1, piFail := fail }
  let x := s.wb w
  if x.piDone < x.invs f then s
  else
    let s := s.stamp w 9
    match x.piFail with
    | some e => (s.updWb w fun x => { x with status := e.2, stored := [] }).wakeTo w Rt.xferArm at_
    | none => s.wakeTo w Rt.cacheFill at_

/-- What a block of a read comes to. -/
inductive BlkOut where
  | ok (bytes : List Byte)
  | fail (st : Nat)
  /-- A CLEAN line's BIND does not match: it is evicted. A member unit's does not: it counts as a media error. -/
  | evict (t : Nat)
  | reread (u : Nat × Nat × Nat)
deriving DecidableEq, Repr

/-- One block, from the stored bytes of its unit; `whenBad` is the outcome when BIND does not match (R342). -/
def blockOut (V : Vol) (kp : Option KeyPair) (v b : Nat) (cs : CheckSet) (u : List Byte) (whenBad : BlkOut) : BlkOut :=
  if u = poisonUnit then .fail stUnrecovered
  else
    let e := unitBlock V.lbaf u (b % unitBlocks V.lbaf)
    let r := readBlk V kp v b e.1 e.2
    if !r.bind then whenBad
    else match readCheck V.lbaf cs r with
      | some st => .fail st
      | none => .ok (wireBlock V.lbaf b r)

/-- The READ_DIGEST entry for volume unit `t` of the read of waybill `w` (15 R445): the tag is the low half of the waybill index, the
unit its place in the command. -/
def State.dig? (s : State) (w t : Nat) : Option ReadDig :=
  let x := s.wb w
  s.pair.digs.find? fun g => g.tag == w % 65536 && g.unit == t - x.slba / unitBlocks (s.vol x.volume).lbaf

/-- What a standby takes an outcome of READ_DIGEST for (R446). -/
def digOut (f : Nat) (u : Nat × Nat × Nat) : Option Nat → BlkOut
  | some 0 => .ok (zeros (lbaData f + lbaMeta f))
  | some 1 => .reread u
  | some 3 => .fail stGuard
  | some 4 => .fail stApp
  | _ => .fail stUnrecovered

/-- Where block `b` of a read comes from, and its outcome; `dirty` when it fails in a DIRTY or DESTAGING line. A standby takes the
outcome of a member's unit from the active's record (15 R446). -/
def State.readBlock (s : State) (kp : Option KeyPair) (w : Nat) (x : Waybill) (cs : CheckSet) (b : Nat) : BlkOut × Bool :=
  let V := s.vol x.volume
  let f := V.lbaf
  let t := b / unitBlocks f
  let m := sectorMask f t b (b + 1)
  match x.lines.find? fun u => u.unit == t && covers u.valid m with
  | some part => (blockOut V kp x.volume b cs part.data (if part.dirty then .fail stUnrecovered else .evict t), part.dirty)
  | none =>
    match (x.map.find? fun (e : Nat × Nat × Nat × Nat) => e.1 == t).map (·.2) with
    | none => (.fail stUnrecovered, false)
    | some u =>
      if s.isStandby then (digOut f u ((s.dig? w t).map (·.outcome)), false) else
      let same (v : UnitVal) : Bool := v.stripe == u.1 && v.row == u.2.1 && v.pos == u.2.2
      match x.got.find? fun v => same v && !x.bad.contains u, x.recov.find? same with
      | some v, _ => (blockOut V kp x.volume b cs v.data (.reread u), false)
      | none, some v => (blockOut V kp x.volume b cs v.data (.fail stUnrecovered), false)
      | none, none => (.fail stUnrecovered, false)

/-- BIND of block `b` in a line of the read matches. -/
def State.lineBind (s : State) (x : Waybill) (part : UnitPart) (b : Nat) : Bool :=
  let V := s.vol x.volume
  let e := unitBlock V.lbaf part.data (b % unitBlocks V.lbaf)
  (readBlk V (s.volKey V) x.volume b e.1 e.2).bind

/-- The lines whose content becomes the poison unit: DIRTY or DESTAGING, with a block whose BIND does not match (Table 11-6). -/
def State.poisonLines (s : State) (x : Waybill) (bs : List Nat) : List Nat :=
  let f := (s.vol x.volume).lbaf
  ((x.lines.filter fun u => u.dirty && u.data != poisonUnit
    && bs.any fun b => b / unitBlocks f == u.unit && covers u.valid (sectorMask f u.unit b (b + 1)) && !s.lineBind x u b).map (·.unit)).eraseDups

/-- A dirty line's content becomes the poison unit; it stays dirty. -/
def State.poisonLine (s : State) (v t : Nat) : State :=
  let s := match s.findLine v t with
    | some (i, l) => if l.isDirty then s.setLine i { l with data := poisonUnit, valid := 255 } else s
    | none => s
  s.raise Ev.CHK_LINE_POISONED v (t % 4294967296) (t / 4294967296)

/-- A CLEAN line is evicted. -/
def State.evictLine (s : State) (v t : Nat) : State :=
  match s.findLine v t with
  | some (i, l) => if l.st = .clean then s.setLine i Line.reset else s
  | none => s

/-- The stored bytes of volume unit `t` as the read has them: from its line, or from its member. -/
def Waybill.unitData (x : Waybill) (t : Nat) : List Byte :=
  match x.lines.find? (·.unit == t) with
  | some part => part.data
  | none =>
    match x.map.find? fun (e : Nat × Nat × Nat × Nat) => e.1 == t with
    | none => []
    | some e => (((x.got ++ x.recov).find? fun y => (y.stripe, y.row, y.pos) == e.2).map (·.data)).getD []

/-- Outcome code of a READ_DIGEST entry (15 Table 15-7): 0 pass, 1 BIND, 2 poison, 3 guard, 4 application tag. -/
def outcomeOf (poison : Bool) : BlkOut → Nat
  | .ok _ => 0
  | .fail st => if st = stGuard then 3 else if st = stApp then 4 else if poison then 2 else 1
  | _ => 1

/-- The read digests of an invocation (11 R361): an entry of the record and an event of the digest for each unit. -/
def State.readDigests (s : State) (w : Nat) (outs : List (Nat × BlkOut × Bool)) : State :=
  let x := s.wb w
  let n := unitBlocks (s.vol x.volume).lbaf
  let us := (outs.map fun (e : Nat × BlkOut × Bool) => e.1 / n).eraseDups
  let s := us.foldl (fun (s : State) t =>
    let d := x.unitData t
    let codes := (outs.filter fun (e : Nat × BlkOut × Bool) => e.1 / n == t).map fun (e : Nat × BlkOut × Bool) => outcomeOf (d == poisonUnit) e.2.1
    let own := ((codes.find? (· != 0)).getD 0, (crc64 d).toNat)
    let r := match (if s.isStandby then s.dig? w t else none) with | some g => (g.outcome, g.crc) | none => own
    (s.entry 2 (leBytes 2 w ++ leBytes 2 (t - x.slba / n) ++ leBytes 1 r.1 ++ leBytes 8 r.2)).digest 3 [r.1, r.2]) s
  { s with pair := { s.pair with digs := s.pair.digs.filter fun g => !(g.tag == w % 65536) } }

/-- A standby waits for the READ_DIGEST entries of the members' units of an invocation. -/
def State.digsReady (s : State) (w inv : Nat) : Bool :=
  let x := s.wb w
  let f := (s.vol x.volume).lbaf
  !s.isStandby || (x.invRange f inv).all fun b => x.lines.any (fun u => u.unit == b / unitBlocks f) || (s.dig? w (b / unitBlocks f)).isSome

/-- A read's invocation has been checked (R342, R343, Table 11-6): its data is ready, it fails, or some of its units are read again. -/
def State.cipherRead (s : State) (kp : Option KeyPair) (w inv at_ : Nat) : State :=
  let x := s.wb w
  let v := x.volume
  let V := s.vol v
  let f := V.lbaf
  let p := V.pool
  let bs := x.invRange f inv
  let cs := s.checkSet x
  let outs := bs.map fun b => (b, s.readBlock kp w x cs b)
  let evs := (outs.filterMap fun (e : Nat × BlkOut × Bool) => match e.2.1 with | .evict t => some t | _ => none).eraseDups
  let res := (outs.filterMap fun (e : Nat × BlkOut × Bool) => match e.2.1 with | .reread u => some u | _ => none).eraseDups
  let nOf (q : BlkOut → Bool) : Nat := (outs.filter fun (e : Nat × BlkOut × Bool) => q e.2.1).length
  let poisoned := s.poisonLines x bs
  let nPois := ((outs.filter fun (e : Nat × BlkOut × Bool) => e.2.1 == .fail stUnrecovered).map fun e => e.1 / unitBlocks f).eraseDups
  let hits := (nPois.filter fun t => x.lines.any (fun u => u.unit == t && u.data == poisonUnit)
    || x.map.any fun (m : Nat × Nat × Nat × Nat) => m.1 == t && ((x.got ++ x.recov).any fun y => (y.stripe, y.row, y.pos) == m.2 && y.data == poisonUnit)).length
  let nEv := nOf fun o => match o with | .evict _ => true | _ => false
  let nRe := nOf fun o => match o with | .reread _ => true | _ => false
  let nLine := (outs.filter fun (e : Nat × BlkOut × Bool) => e.2.2 && e.2.1 == .fail stUnrecovered && poisoned.contains (e.1 / unitBlocks f)).length
  let guards := nOf (· == .fail stGuard)
  let s := ((((s.cntChk 0 nRe).cntChk 1 (nEv + nLine)).cntChk 3 guards).cntChk 4 (nOf (· == .fail stApp))).cntChk 6 hits
  let s := { s with cip := { s.cip with bindFails := s.cip.bindFails + nRe + nEv + nLine, guardFails := s.cip.guardFails + guards } }
  let s := (s.countUnits V false bs.length).readDigests w outs
  let s := poisoned.foldl (fun s t => s.poisonLine v t) s
  if !evs.isEmpty || !res.isEmpty then
    let s := evs.foldl (fun s t => s.evictLine v t) s
    (s.updWb w fun x => { x with
      lines := x.lines.filter (fun u => !evs.contains u.unit), got := x.got.filter (fun y => !res.contains (y.stripe, y.row, y.pos))
      bad := x.bad ++ res, media := x.media ++ res, piPosted := x.progress, hit := false }).wakeTo w Rt.drvSubmit at_
  else
    let fails := outs.filterMap fun (e : Nat × BlkOut × Bool) => match e.2.1 with | .fail st => some (e.1, st) | _ => none
    let us := (bs.map fun b => b / unitBlocks f).eraseDups
    let merged := (us.filter fun t => x.lines.any fun u => u.unit == t && !covers u.valid (x.maskOf f t)).length
    let okU (u : Nat × Nat × Nat) : Bool := x.map.any fun (m : Nat × Nat × Nat × Nat) => m.2 == u && us.contains m.1
      && !fails.any fun e => e.1 / unitBlocks f == m.1 && e.2 == stUnrecovered
    let fix := x.media.filter fun u => x.recov.any (fun y => (y.stripe, y.row, y.pos) == u) && okU u
    let s := (s.cntLay 10 merged).updPool p fun P => { P with repairs := P.repairs ++ fix.filter fun u => !P.repairs.contains u }
    let s := (s.updWb w fun x => { x with media := x.media.filter (fun u => !fix.contains u), piDone := inv + 1 }).stamp w 9
    let s := match minBy (fun (e : Nat × Nat) => e.1) fails with
      | some e => s.updWb w fun x => { x with status := e.2, piFail := some e, data := [] }
      | none => s.updWb w fun x => { x with data := outs.flatMap fun (e : Nat × BlkOut × Bool) => match e.2.1 with | .ok d => d | _ => [] }
    s.wakeTo w Rt.xferArm at_

/-- The oldest request of the array of cluster `k` completes: a latency request in the tick of its posting, any other before the tick
after the next (02 R42). -/
def State.cipherDone (s : State) (k : Nat) : State :=
  match s.nextCipher k with
  | none => s
  | some r =>
    if (match r.ref with | .wb w => !(s.wb w).write && !s.digsReady w r.inv | _ => false) then s else
    let s := s.dropCipher r
    let at_ := if r.latency then s.now else s.now + 1
    match r.ref with
    | .wb w =>
      let x := s.wb w
      if x.st = .free || x.cut || x.st == .abandoned then s
      else if x.write then s.cipherWrite r.pair w r.inv at_
      else s.cipherRead r.pair w r.inv at_
    | .work id =>
      let s := match (s.work? id).map (·.kind) with
        | some (.init v) => s.countUnits (s.vol v) true (((s.pool (s.vol v).pool).d) * unitBlocks (s.vol v).lbaf)
        | _ => s
      s.wakeRef r.ref
    | .cap _ => s

/-- CIPHER_REQUEST_COMPLETE on cluster `k`. -/
def execCipherRequestComplete (k : Fin 12) (s : State) : Host.Outcome State Fault Refusal := .next (s.cipherDone k.val)

/-! ### CACHE_FILL (09 R281 to R283) -/

/-- Leg 1: lines for the units of the invocation. -/
def State.allocLine (s : State) (v t : Nat) : State :=
  match s.findLine v t with
  | some (i, l) => if l.st = .clean then s.setLine i { l with st := .filling } else s
  | none =>
    let r := s.freeSlot
    r.2.setLine r.1 { Line.reset with st := .filling, vol := v, unit := t, data := zeroUnit }

/-- Leg 2: one part of a unit is written to its line. -/
def State.fillPart (wt : Bool) (v : Nat) (s : State) (u : UnitPart) : State :=
  let s := s.allocLine v u.unit
  match s.findLine v u.unit with
  | none => s
  | some (i, l) =>
    let dirty := l.isDirty
    let valid := Nat.lor l.valid u.valid
    let s := s.setLine i { l with
      st := if l.st = .destaging then .destaging else .dirty, valid := valid, wgen := (l.wgen + 1) % 256, wt := l.wt || wt
      firstDirty := if dirty then l.firstDirty else s.now, data := mergeUnit u.valid u.data l.data }
    let place := s.unitPlace v u.unit
    if l.st = .destaging then s else s.addDirty (s.vol v).pool place.1 s.now

/-- A completion waits for the standby's acknowledgement (15 R450). -/
def State.mirrors (s : State) : Bool := s.pairState == pairPaired || s.pairState == pairJoinActive

/-- CACHE_FILL: leg 1 allocates lines for one invocation, leg 2 posts its writes. The writes of every invocation take effect with the
last (R242), which sets FILLED. -/
def State.cacheFill (it : Item) (s : State) : State :=
  s.onWb it fun w x s =>
    let v := x.volume
    let V := s.vol v
    let f := V.lbaf
    if it.leg = 1 then
      let us := ((x.invRange f x.progress).map fun b => b / unitBlocks f).eraseDups
      (us.foldl (fun s t => s.allocLine v t) (s.lane it 64 0)).advance it Rt.cacheFill 2 (s.laneWait Rt.cacheFill) s.now
    else
      let us := ((x.invRange f x.progress).map fun b => b / unitBlocks f).eraseDups
      let s := (s.lane it 64 (4096 * us.length)).updWb w fun x => { x with progress := x.progress + 1 }
      if x.progress + 1 < x.invs f then s.advance it Rt.cacheFill 1 .none s.now
      else
        let wt := x.wt
        let s := (x.stored.foldl (State.fillPart wt v) s).freeAll x.pay
        let s := (s.updWb w fun x => { x with pay := [], filled := true, resv := [], st := .durableWait, fillTick := s.now, stored := [], posted := x.progress }).stamp w 12
        if wt || s.mirrors then s.advance it Rt.xferArm 1 .event s.now else s.advance it Rt.xferArm 1 (s.laneWait Rt.cacheFill) s.now

def execCacheFill (k : Fin 12) (c : Fin 256) (s : State) : Host.Outcome State Fault Refusal := .next (s.run k c Rt.cacheFill State.cacheFill)

/-- Every stripe that holds a line of a write-through write has retired (R287): none of its lines is dirty with WT set. -/
def State.retired (s : State) (x : Waybill) : Bool :=
  (unitsOf (s.vol x.volume).lbaf x.slba x.blocks).all fun t => match s.findLine x.volume t with | some (_, l) => !(l.isDirty && l.wt) | none => true

/-- Writes whose event of R24 has come: every stripe of a write-through write has retired; the fills of a write-back write are complete,
in a pair at the standby as well (15 R450). -/
def State.durableSeam (s : State) : State :=
  (s.wbsThat fun x => x.st == .durableWait).foldl (fun s w =>
    let x := s.wb w
    let acked := s.pair.mirror.any fun a => decide (x.fillTick + s.itn.tick ≤ a + s.now)
    let pair := s.mirrors || s.pairState == pairLocked || s.pairState == pairHolding
    if (x.wt && s.retired x) || (!x.wt && (if pair then acked else decide (x.fillTick + 2 ≤ s.now + 1))) then (s.stampFirst w 13).wakeWb w else s) s

/-! ### XFER_ARM -/

/-- The completion SEND is armed, and the waybill becomes COMMITTED. -/
def State.finishWb (s : State) (it : Item) (w : Nat) : State :=
  let x := s.wb w
  let s := match s.qpOf x.qpn with
    | none => s
    | some q =>
      let s := s.sendCqe q (s.wbChan w) w x.dw0 x.cid x.status
      if isConnect x.sqe && x.status != 0 then s.updQp q fun y => { y with engineErr := true } else s
  let s := s.digest 4 [w, (s.wb w).cid, (s.wb w).status]
  ((s.updWb w fun x => { x with st := .committed, armed := true, data := [] }).stamp w 14).advance it Rt.cplRetire 1 .none s.now

/-- An RDMA WRITE of `data` at byte `off` of the host's buffer is armed. -/
def State.armData (s : State) (w off : Nat) (data : List Byte) : State :=
  let x := s.wb w
  match s.qpOf x.qpn with
  | none => s
  | some q =>
    if data.isEmpty then s
    else (s.updWb w fun x => { x with armed := true }).armMsg q
      (Msg.of 0 (s.wbChan w) w data data.length ((sglAddr x.sqe + off) % 18446744073709551616) (sglKey x.sqe))

/-- The READ of `n` bytes at byte `off` of the host's buffer is armed. -/
def State.armRead (s : State) (w off n : Nat) : State :=
  let x := s.wb w
  match s.qpOf x.qpn with
  | none => s
  | some q => (s.armMsg q (Msg.of 2 (s.wbChan w) w [] n ((sglAddr x.sqe + off) % 18446744073709551616) (sglKey x.sqe))).stampFirst w 10

/-- The payload READ of the next invocation of a write is armed (02 R36); after the last, the item goes on when the last byte is in. -/
def State.armPayload (s : State) (it : Item) (w f : Nat) : State :=
  let x := s.wb w
  let unit := lbaData f + lbaMeta f
  let i := x.sent
  let s := (s.armRead w (i * invBlocks f * unit) ((x.invRange f i).length * unit)).updWb w fun x => { x with st := .payload, sent := i + 1 }
  if i + 1 < x.invs f then s.advance it Rt.xferArm 1 .none s.now else s.advance it Rt.piCheck 1 .event s.now

/-- XFER_ARM (Table 8-9). -/
def State.xferArm (it : Item) (s : State) : State :=
  match it.ref with
  | .cap id => (match s.cap? id with | some c => s.armAnswer it c | none => s.endItem it)
  | .work _ => s.endItem it
  | .wb w =>
    let x := s.wb w
    let f := (s.vol x.volume).lbaf
    match x.st with
    | .free => s.endItem it
    | .abandoned => s.cutOff it w
    | .committed => s.advance it Rt.cplRetire 1 .none s.now
    | .durableWait => s.finishWb it w
    | _ =>
      if x.cut then (if (s.refCmds it.ref).isEmpty then (s.updWb w fun x => { x with data := [] }).finishWb it w else s.toReap it)
      else if x.io then
        (if x.piFail.isSome then s.finishWb it w
         else if x.write then
           (if x.keyed then s.armPayload it w f
            else (s.updWb w fun x => { x with st := .payload, data := x.icd }).advance it Rt.piCheck 1 .none s.now)
         else
           let s := s.armData w (x.progress * invBlocks f * (lbaData f + lbaMeta f)) x.data
           let s := s.updWb w fun x => { x with progress := x.progress + 1, sent := x.sent + 1, data := [] }
           if x.progress + 1 < x.invs f then s.advance it Rt.piCheck 1 .none s.now else (s.releaseRef it.ref).finishWb it w)
      else if x.progress = 0 ∧ x.takesData && x.keyed then
        (s.armRead w 0 ((sglLen x.sqe).getD 0)).advance it Rt.adminStep 1 .event s.now
      else
        -- ADMIN_STEP has executed it: its data, if any, and the completion.
        (s.armData w 0 x.data).finishWb it w

def execXferArm (k : Fin 12) (c : Fin 256) (s : State) : Host.Outcome State Fault Refusal := .next (s.run k c Rt.xferArm State.xferArm)

/-! ### Rewrites after a media error (R293) -/

/-- Each stripe with units to rewrite, held by no other work, becomes a repair of one row in the pool class. -/
def State.repairSeam (s : State) (p : Nat) : State :=
  ((s.pool p).repairs.map fun (u : Nat × Nat × Nat) => (u.1, u.2.1)).eraseDups.foldl (fun s (e : Nat × Nat) =>
    let P := s.pool p
    let us := P.repairs.filter fun (u : Nat × Nat × Nat) => u.1 == e.1 && u.2.1 == e.2
    if us.isEmpty || s.stripeHeld p e.1 then s
    else
      let s := s.updPool p fun P => { P with repairs := P.repairs.filter fun u => !us.contains u }
      let us := us.filter fun u => (P.unitLoc u.1 u.2.1 u.2.2).isSome
      if us.isEmpty then s
      else s.newWork { Work.of .repair p e.1 with rows := [e.2], bad := us, media := us } (s.poolCluster p e.1) Rt.parityPlan .none (s.now + 1)) s

end Sys2Proof.Machine
end

