-- ==== Sys2Proof/Machine/HostIf.lean ====
section
/-!
DEFINITION. The control host interface (03): enabling and disabling rings, doorbells, fetching, interrupts, endpoint resets,
and the ring and host opcodes.
-/

namespace Sys2Proof.Machine

open Sys2Proof

/-! ### Enabling and disabling (R79, R80) -/

/-- A ring setup is valid: ENTRIES of 2 to 65,536; a base register has no bits below 4 KiB (R79). -/
def entriesOk (n : Nat) : Bool := decide (2 ≤ n) && decide (n ≤ 65536)

/-- Ring `k` is enabled with the setup in its registers (Table 3-3): RUNNING with indices 0 and phase 1, or RING_FORMAT. -/
def State.ringEnable (s : State) (k : Nat) : State :=
  let n := s.fld (ringSize k) Fd.RING_SIZE_ENTRIES
  if entriesOk n then
    let s := (s.setFld (ringCtl k) Fd.RING_CTL_ENABLE 1).setRingState k ringRunning
    (s.wrReg (ringIdx k) 0).setRing k { Ring.reset with entries := n, outst := (s.ring k).outst }
  else s.setFld (ringStatus k) Fd.RING_STATUS_ERR_STATUS St.RING_FORMAT

/-- ENABLE of ring `k` accepts a write: before GLB_LOCK, or under the re-setup rule (R76, R99). -/
def State.enableOpen (s : State) (k : Nat) : Bool := !s.locked || s.resetupOpen (ringCtl k)

/-- RING_CTL[k] is written with ENABLE 1: the other fields first, then a DISABLED ring is enabled. -/
def State.ctlEnable (s : State) (k : Nat) (w : Word) : State :=
  let ok := s.enableOpen k
  let s := s.regWrite (ringCtl k) w
  if ok && Fd.RING_CTL_ENABLE.get w == 1 && s.ringState k == ringDisabled then s.ringEnable k else s

/-- RING_CTL_ENABLE of ring `k`. -/
def execRingCtlEnable (k : Fin 64) (w : Word) (s : State) : Host.Outcome State Fault Refusal :=
  .next (s.hostWrite (ringCtl k.val) fun s => (s.ctlEnable k.val w).irqCheck k.val)

/-- The reports that wait for the event ring: CRS_RESET_REPORT (17 R520) and, once firmware has run, MGT_BOOT_REPORT and
MGT_FW_FALLBACK (16). Each is raised when the event ring is first enabled. -/
def State.owedReports (s : State) : State :=
  let s := if s.crs.resetReport then
      let r := Reg.CRS_RESET_CAUSE
      ({ s with crs := { s.crs with resetReport := false } }).raise Ev.CRS_RESET_REPORT (s.fld r Fd.CRS_RESET_CAUSE_CAUSE)
        (s.fld r Fd.CRS_RESET_CAUSE_FATAL_SRC) (s.fld r Fd.CRS_RESET_CAUSE_COUNT)
    else s
  match s.mgt.bootReport with
  | some v => ({ s with mgt := { s.mgt with bootReport := none } }).raise Ev.MGT_BOOT_REPORT v.1 v.2.1 v.2.2
  | none => s

/-- RING_EVT_CTL_ENABLE: the event ring is enabled, and the backlog is posted as slots are free (R80, R89). -/
def State.evtCtlEnable (w : Word) (s : State) : State :=
  let was := s.ringState evtRing
  let s := s.ctlEnable evtRing w
  (if was != ringRunning && s.ringState evtRing == ringRunning then s.owedReports.drainEvents.irqCheck evtRing
   else s.irqCheck evtRing)

def execRingEvtCtlEnable (w : Word) (s : State) : Host.Outcome State Fault Refusal :=
  .next (s.hostWrite Reg.RING_EVT_CTL (State.evtCtlEnable w))

/-- RING_CTL[k] is written with ENABLE 0 (R80): a RUNNING, ERROR or STOPPED command ring stops fetching and drains. -/
def State.ctlDisable (s : State) (k : Nat) (w : Word) : State :=
  let ok := s.enableOpen k
  let s := s.regWrite (ringCtl k) w
  if ok && Fd.RING_CTL_ENABLE.get w == 0 && s.ringState k != ringDisabled then
    (s.setFld (ringCtl k) Fd.RING_CTL_ENABLE 0).setRing k { s.ring k with draining := true }
  else s

/-- RING_CTL_DISABLE of ring `k`. -/
def execRingCtlDisable (k : Fin 64) (w : Word) (s : State) : Host.Outcome State Fault Refusal :=
  .next (s.hostWrite (ringCtl k.val) fun s => (s.ctlDisable k.val w).irqCheck k.val)

/-- RING_EVT_CTL_DISABLE: the event ring is DISABLED at once; later events go to the backlog. -/
def execRingEvtCtlDisable (w : Word) (s : State) : Host.Outcome State Fault Refusal :=
  .next (s.hostWrite Reg.RING_EVT_CTL fun s =>
    let s := s.ctlDisable evtRing w
    (if (s.ring evtRing).draining then s.settleRing evtRing else s).irqCheck evtRing)

/-- RING_DISABLE_DRAINED: ring `k` becomes DISABLED once every command started on it has ended, and the RING_DELETE that named it completes
(R80, R102). -/
def execRingDisableDrained (k : Fin 64) (s : State) : Host.Outcome State Fault Refusal := .next (s.settleRing k.val)

/-! ### Doorbells (R81, R82, R84) -/

/-- The ring number that an event of R112 carries: bit 8 marks the event ring. -/
def ringValue (k : Nat) : Nat := if k = evtRing then 0x100 else k

/-- The doorbell pages begin here (19 Table 19-1). -/
def doorbellBase : Nat := 0x02000000

/-- COMMAND_DOORBELL of ring `k` with value `v` (R81, R82). -/
def State.cmdDoorbell (s : State) (k v : Nat) : State :=
  let r := s.ring k
  if s.ringState k ≠ ringRunning ∨ s.fld (ringCtl k) Fd.RING_CTL_ENABLE = 0 ∨ v = r.producer then s
  else if r.entries ≤ v then s.ringToError k Ev.RING_DOORBELL_ERR (ringValue k) k v
  else s.setRing k { r with producer := v }

def execCommandDoorbell (k : Fin 64) (v : Word) (s : State) : Host.Outcome State Fault Refusal :=
  .next (s.hostWrite doorbellBase (State.cmdDoorbell · k.val v.toNat))

/-- A consumer doorbell of ring `k` (R81, R84, R98): in range it frees the slots behind it and re-arms the interrupt; the
entries that remain count again as posted and not signalled, with the time limit running from now. -/
def State.consDoorbell (s : State) (k page v : Nat) : State :=
  let r := s.ring k
  if s.ringState k ≠ ringRunning then s
  else if r.entries ≤ v ∨ (s.ringTail k + r.entries - r.cons) % r.entries < (v + r.entries - r.cons) % r.entries then
    s.ringToError k Ev.RING_DOORBELL_ERR (ringValue k) page v
  else
    let left := (s.ringTail k + r.entries - v) % r.entries
    let r := if r.sent then { r with cons := v, sent := false, unsig := left, firstUnsig := s.now }
      else { r with cons := v, unsig := min r.unsig left }
    (s.setRing k r).irqCheck k

def execCompletionDoorbell (k : Fin 64) (v : Word) (s : State) : Host.Outcome State Fault Refusal :=
  .next (s.hostWrite doorbellBase (State.consDoorbell · k.val (64 + k.val) v.toNat))

/-- EVENT_DOORBELL: as a completion doorbell; then the backlog is posted into the freed slots (R89). -/
def execEventDoorbell (v : Word) (s : State) : Host.Outcome State Fault Refusal :=
  .next (s.hostWrite doorbellBase fun s => (s.consDoorbell evtRing 128 v.toNat).drainEvents)

/-! ### Fetching (R90 to R92) -/

/-- Ring `k` may be fetched from: RUNNING and enabled, a descriptor is published, fewer than 256 are outstanding, and a
completion slot can be reserved beside those already promised (R82, R90). -/
def State.canFetch (s : State) (k : Nat) : Bool :=
  let r := s.ring k
  s.ringState k == ringRunning && s.fld (ringCtl k) Fd.RING_CTL_ENABLE == 1 && r.deleting.isNone
    && s.fld (Reg.RING_IDX k) Fd.RING_IDX_CMD_HEAD != r.producer && decide (r.outst < 256)
    && decide (s.ringPosted k + r.outst + 1 < r.entries)

/-- Descriptors that one turn of a ring takes at most (R90). -/
def turnLimit : Nat := 64

/-- The ring from which the next descriptor is fetched (R90): the one whose turn it is while it has had fewer than 64, otherwise the next in
ring-number order that may be fetched from; none when no ring may. -/
def State.fetchRing (s : State) : Option Nat :=
  if s.hst.turnCount < turnLimit ∧ s.canFetch s.hst.turn then some s.hst.turn
  else ((List.range 64).map fun i => (s.hst.turn + 1 + i) % 64).find? s.canFetch

/-- Ring `k` is fetched from: the descriptor counts in its turn, or begins a turn of it. -/
def State.takeTurn (s : State) (k : Nat) : State :=
  let n := if s.hst.turn = k ∧ s.hst.turnCount < turnLimit then s.hst.turnCount + 1 else 1
  { s with hst := { s.hst with turn := k, turnCount := n } }

/-- BACKOFF_US: a free value from 100 to 100,000 (R92). -/
def State.backoff (s : State) : Nat × State :=
  let (v, s) := s.draw
  (100 + v % 99901, s)

/-- A descriptor completes with MGT_BUSY_RETRY and no effect (R92). -/
def State.busy (s : State) (d : Desc) : State :=
  let (b, s) := s.backoff
  s.complete d St.MGT_BUSY_RETRY 0 0 b

/-- The address of slot `h` of command ring `k`: its entries are contiguous, 64 B each, from its base on (R78). -/
def State.cmdSlot (s : State) (k h : Nat) : Nat :=
  hiLo (s.rd (Reg.RING_CMD_BASE_HI k)).toNat (s.fld (Reg.RING_CMD_BASE_LO k) ⟨12, 20⟩ * 4096) + 64 * h

/-- The descriptor of 64 bytes at the head of ring `k` is fetched (R78, R85, R90 to R92): a NOP, an unknown opcode and a reserved flag complete at
once; one that a FENCE holds back waits to join the management work queue; any other joins it unless its level is full. -/
def State.fetch (s : State) (k : Nat) (bytes : List Byte) : State :=
  let r := s.ring k
  let h := s.fld (Reg.RING_IDX k) Fd.RING_IDX_CMD_HEAD
  let s := (s.takeTurn k).emit (.hostRead (s.cmdSlot k h) 64)
  let s := s.setFld (Reg.RING_IDX k) Fd.RING_IDX_CMD_HEAD (if r.entries ≤ h + 1 then 0 else h + 1)
  let s := s.setRing k { r with outst := r.outst + 1 }
  let d := Desc.ofBytes k s.hst.fetchSeq s.now bytes
  let s := { s with hst := { s.hst with fetchSeq := s.hst.fetchSeq + 1 } }
  if ¬ opcodes.contains d.opcode then s.done d St.GEN_OPCODE
  else if 8 ≤ d.flags then s.done d St.GEN_FIELD
  else if d.opcode = Op.NOP then s.done d (if d.handle = 0 ∧ d.reservedZero [] then St.OK else St.GEN_FIELD)
  else if s.fenceHeld d then { s with hst := { s.hst with queue := s.hst.queue ++ [{ d with late := true }] } }
  else if 1024 ≤ s.levelCount d.prio then s.busy d
  else { s with hst := { s.hst with queue := s.hst.queue ++ [d] } }

/-- DESCRIPTOR_FETCH of ring `k`: `bytes` is what the DMA read returned. -/
def execDescriptorFetch (k : Fin 64) (bytes : List Byte) (s : State) : Host.Outcome State Fault Refusal :=
  .next (if s.fetchRing = some k.val then s.fetch k.val bytes else s)

/-- NOP: a NOP descriptor is fetched and completes with success at fetch (R91). -/
def execNop (k : Fin 64) (bytes : List Byte) (s : State) : Host.Outcome State Fault Refusal :=
  .next (if s.fetchRing = some k.val ∧ leField bytes 0 1 = Op.NOP then s.fetch k.val bytes else s)

/-- RING_DMA_ERR: an unsuccessful DMA of ring `k` (64: the event ring) at `addr` puts a RUNNING ring in ERROR (Table 3-3). -/
def execRingDmaErr (k : Fin 65) (addr : BitVec 64) (s : State) : Host.Outcome State Fault Refusal :=
  .next (if s.ringState k.val = ringRunning then
    s.ringToError k.val Ev.RING_DMA_ERR (ringValue k.val) (addr.toNat % 4294967296) (addr.toNat / 4294967296) else s)

/-- A queued descriptor has waited to the end of tick f + 977 (R92). -/
def Desc.overdue (d : Desc) (now : Nat) : Bool := decide (d.fetchTick + startLimit ≤ now)

/-- MGT_BUSY_RETRY: the first fetched descriptor that has not started by the end of tick f + 977, or that found its level full when its FENCE
let it join, completes (R91, R92). -/
def execMgtBusyRetry (s : State) : Host.Outcome State Fault Refusal :=
  .next (match s.hst.queue.find? fun d => d.overdue s.now || s.overfull d with
    | none => s
    | some d => { s with hst := { s.hst with queue := s.hst.queue.filter (fun e => e.seq ≠ d.seq) } }.busy d)

/-! ### Interrupts (R98) -/

/-- MSIX_COALESCE_TIMEOUT of ring `k`: TIME_US has passed since the first entry not signalled; one tick is 1.024 µs. -/
def execMsixCoalesceTimeout (k : Fin 65) (s : State) : Host.Outcome State Fault Refusal :=
  let r := s.ring k.val
  let t := s.fld (ringCoal k.val) Fd.RING_COAL_TIME_US
  .next (if s.fld (ringCtl k.val) Fd.RING_CTL_IRQ_EN = 1 ∧ r.sent = false ∧ 0 < r.unsig ∧ t ≠ 0 ∧ t * 125 ≤ (s.now - r.firstUnsig) * 128 then
      (s.setRing k.val { r with sent := true, unsig := 0 }).msix (s.fld (ringCtl k.val) Fd.RING_CTL_VECTOR)
    else s)

/-! ### Endpoint resets (R99) -/

/-- One RUNNING or ERROR ring goes to STOPPED; completions not yet written are discarded, and a drain under way ends, since STOPPED asks for
ENABLE to be written as 0 once more (Table 3-3). -/
def State.stopRing (s : State) (k : Nat) : State :=
  (s.setRingState k ringStopped).setRing k { s.ring k with held := [], draining := false }

/-- The rings that an endpoint reset stops, and RING_STOPPED once for them (R80, R99). -/
def State.stopRings (s : State) (kind : Nat) : State :=
  let ks := (List.range 65).filter fun k => s.ringState k == ringRunning || s.ringState k == ringError
  let s := ks.foldl State.stopRing s
  if ks.isEmpty then s else s.raise Ev.RING_STOPPED kind ks.length 0

/-! ### Ring opcodes (R102) -/

/-- RING_CREATE: the checks of R102, then the setup is written to the ring's registers and the ring is enabled. -/
def ringCreate (d : Desc) (s : State) : State :=
  let k := d.f 8 1
  let cmd := d.f 16 8
  let cpl := d.f 24 8
  s.checked d
    [(d.handle == 0 && d.reservedZero [(8, 1), (10, 2), (12, 4), (16, 8), (24, 8), (32, 2), (34, 2)] && decide (k ≤ 63)
        && decide (d.f 10 2 ≤ 2047), St.GEN_FIELD),
     (entriesOk (d.f 12 4) && cmd % 4096 == 0 && cpl % 4096 == 0, St.RING_FORMAT),
     (k != 0 && s.ringState k == ringDisabled, St.RING_STATE)]
    fun s =>
      let s := s.wrReg (Reg.RING_CMD_BASE_LO k) (BitVec.ofNat 32 cmd)
      let s := s.wrReg (Reg.RING_CMD_BASE_HI k) (BitVec.ofNat 32 (cmd / 4294967296))
      let s := s.wrReg (Reg.RING_CPL_BASE_LO k) (BitVec.ofNat 32 cpl)
      let s := s.wrReg (Reg.RING_CPL_BASE_HI k) (BitVec.ofNat 32 (cpl / 4294967296))
      let s := s.setFld (Reg.RING_SIZE k) Fd.RING_SIZE_ENTRIES (d.f 12 4)
      let s := s.setFld (Reg.RING_CTL k) Fd.RING_CTL_VECTOR (d.f 10 2)
      let s := (s.setFld (Reg.RING_COAL k) Fd.RING_COAL_COUNT (d.f 32 2)).setFld (Reg.RING_COAL k) Fd.RING_COAL_TIME_US (d.f 34 2)
      (s.ringEnable k).done d St.OK

def execRingCreate (s : State) : Host.Outcome State Fault Refusal := .next (s.ringCmd Op.RING_CREATE ringCreate)

/-- RING_DELETE: the named ring stops fetching; the command completes once nothing fetched there remains. -/
def ringDelete (d : Desc) (s : State) : State :=
  let k := d.f 8 1
  s.checked d
    [(d.handle == 0 && d.reservedZero [(8, 1)] && decide (k ≤ 63), St.GEN_FIELD),
     (k != d.ring, St.RING_SELF),
     (k != 0 && s.ringState k != ringDisabled, St.RING_STATE)]
    fun s => s.setRing k { s.ring k with deleting := some d }

def execRingDelete (s : State) : Host.Outcome State Fault Refusal := .next (s.ringCmd Op.RING_DELETE ringDelete)

/-! ### Image opcodes (R102) -/

/-- An aligned buffer address of a descriptor. -/
def Desc.aligned (d : Desc) (off n : Nat) : Bool := d.f off 8 % n == 0

/-! ### Host opcodes (R103) -/

def State.hostEnt (s : State) (h : Nat) : HostEnt := Tab.rd (fun _ => HostEnt.reset) s.hst.hosts h
def State.setHost (s : State) (h : Nat) (e : HostEnt) : State :=
  { s with hst := { s.hst with hosts := Tab.wr (fun _ => HostEnt.reset) s.hst.hosts h e } }

/-- The bytes of a NUL-terminated string. -/
def cString (bs : List Byte) : List Byte := bs.takeWhile (· != 0)

/-- HOST_ADD with the NQN buffer as the DMA read returned it (`ok` false: it failed, R569). -/
def hostAdd (ok : Bool) (nqn : List Byte) (d : Desc) (s : State) : State :=
  let h := d.f 8 2
  let n := cString (nqn.take 256)
  s.checked d
    [(d.handle == 0 && d.reservedZero [(8, 2), (16, 8), (24, 16)] && decide (h ≤ 16383), St.GEN_FIELD),
     (ok, St.GEN_DMA),
     (!n.isEmpty && decide (n.length < 224), St.GEN_FIELD),
     ((s.hostEnt h).nqn.isEmpty && !s.hst.hosts.any (fun e => e.2.nqn == n), St.CHAN_HOST_EXISTS)]
    fun s => (s.setHost h { nqn := n, hostid := d.bytes 24 16 }).done d St.OK

def execHostAdd (ok : Bool) (nqn : List Byte) (s : State) : Host.Outcome State Fault Refusal :=
  .next (s.ringData Op.HOST_ADD ok nqn (hostAdd ok nqn))

end Sys2Proof.Machine
end

