-- ==== Sys2Proof/Machine/Identify.lean ====
section
/-!
DEFINITION. What the target reports to hosts (08 R225 to R227, R253, R256, R258): Identify data, properties, log pages and
reservation reports.
-/

namespace Sys2Proof.Machine

open Sys2Proof

/-- `bs` cut or filled with zeros to `n` bytes. -/
def fitB (n : Nat) (bs : List Byte) : List Byte := bs.take n ++ zeros (n - bs.length)

/-- Fields at byte offsets, in rising order, as a structure of `n` bytes; what no field names is zero. -/
def layB (n : Nat) (fs : List (Nat × List Byte)) : List Byte :=
  fitB n (fs.foldl (fun bs (e : Nat × List Byte) => fitB e.1 bs ++ e.2) [])

/-- ASCII characters as bytes. -/
def ascii (t : String) : List Byte := t.toList.map fun c => BitVec.ofNat 8 c.toNat
/-- A string padded with `fill` to `n` bytes. -/
def padB (fill : Byte) (n : Nat) (bs : List Byte) : List Byte := bs.take n ++ List.replicate (n - bs.length) fill

/-- The SN: CMD_SERIAL[0..4]. -/
def State.serial (s : State) : List Byte := (List.range 5).flatMap fun i => leBytes 4 (s.rd (Reg.CMD_SERIAL i)).toNat

/-- The bytes before the first NUL. -/
def toNul (bs : List Byte) : List Byte := bs.takeWhile (· != 0)
def trimEnd (bs : List Byte) : List Byte := (bs.reverse.dropWhile (· == 0x20)).reverse

/-- SUBNQN of R227, and the discovery NQN. -/
def State.subNqn (s : State) : List Byte :=
  let suffix := toNul (((List.range 16).flatMap fun i => leBytes 4 (s.rd (Reg.CMD_SUBNQN i)).toNat).take 63)
  ascii "nqn.2019-10.com.walsis:vx9600:" ++ (if suffix.isEmpty then trimEnd s.serial else suffix)
def discoveryNqn : List Byte := ascii "nqn.2014-08.org.nvmexpress.discovery"

/-- Decimal digits of a number below 1,000, `n` of them. -/
def decDigits (n v : Nat) : List Byte := ((List.range n).reverse.map fun i => BitVec.ofNat 8 (48 + v / 10 ^ i % 10))
/-- VERSION as eight characters (16, FR). -/
def versionText (v : Nat) : List Byte :=
  decDigits 1 (v / 16777216) ++ ascii "." ++ decDigits 2 (v / 65536 % 256) ++ ascii "." ++ decDigits 3 (v % 65536)
/-- VERSION of the running package (16 Table 16-4: offset 16). -/
def State.runVersion (s : State) : Nat := leField s.mgt.running 16 4

/-- EDSTT: minutes, rounded up, to read the largest pool once at its pool class's rate (R259). A class without a rate gives no time: a
free value. -/
def State.edstt (s : State) : Nat :=
  let of (p : Nat) : Nat :=
    let P := s.pool p
    let bytes := P.n * P.frames * P.strip / 4096 * unitBytes
    match s.poolClass p with
    | some c => if c.bandwidth = 0 then (Config.freeValue s.drawn).toNat else ceilDiv bytes (c.bandwidth * 60000000)
    | none => (Config.freeValue s.drawn).toNat
  match maxBy (fun p => (s.pool p).stripes * (s.pool p).strip) s.pools with
  | some p => of p
  | none => 0

/-- Identify Controller (Table 8-3) for the controller with key `k`. -/
def State.identCtrl (s : State) (k : Nat) : List Byte :=
  let disc := (s.ctrl k).disc
  layB 4096
    [(0, leBytes 2 0x1E9D), (2, leBytes 2 0x1E9D), (4, s.serial), (24, padB 0x20 40 (ascii "Walsis VX-9600")), (64, versionText s.runVersion),
     (77, leBytes 1 9), (78, leBytes 2 (cntlid k)), (80, leBytes 4 0x00020000), (92, leBytes 4 (if disc then 0x80000000 else 0x300)),
     (96, leBytes 4 1), (111, leBytes 1 (if disc then 2 else 1)), (256, leBytes 2 0x10), (258, leBytes 1 3), (259, leBytes 1 3),
     (261, leBytes 1 4), (316, leBytes 2 (if disc then 0 else min 0xFFFF s.edstt)), (320, leBytes 2 1), (512, leBytes 1 0x66), (513, leBytes 1 0x44),
     (516, leBytes 4 65536), (520, leBytes 2 0x28), (536, leBytes 4 0x100005), (768, fitB 256 (if disc then discoveryNqn else s.subNqn)),
     (1792, leBytes 4 1028), (1796, leBytes 4 1), (1803, leBytes 1 1)]

/-- Identify Namespace of volume `v` (Table 8-2, 11 R337). -/
def State.identNs (s : State) (v : Nat) : List Byte :=
  let V := s.vol v
  let f := V.lbaf
  let pi := guardBytes f != 0
  let fmt (i : Nat) : List Byte := leBytes 2 (lbaMeta i) ++ leBytes 2 (if i ≤ 1 then 9 else 12)
  layB 4096
    [(0, leBytes 8 V.blocks), (8, leBytes 8 V.blocks), (16, leBytes 8 V.blocks), (25, leBytes 1 4), (26, leBytes 1 (f + if lbaMeta f = 0 then 0 else 16)),
     (27, leBytes 1 1), (28, leBytes 1 (if pi then 0x11 else 0)), (29, leBytes 1 (b2n pi)), (30, leBytes 1 1), (31, leBytes 1 0x7F), (104, fitB 16 V.nguid),
     (128, (List.range 5).flatMap fmt)]

/-- The NSIDs for which a host has a channel, ascending. -/
def State.hostNs (s : State) (host : Nat) : List Nat :=
  sortBy id (((s.liveChans.filter fun i => (s.chan i).host == host && (s.chan i).nsid != 0).map fun i => (s.chan i).nsid).eraseDups)

/-- Identify by CNS; none for a CNS or NSID that is refused, with its status. -/
def State.identify (s : State) (k : Nat) (sqe : List Byte) : Except Nat (List Byte) :=
  let cns := sqeDw sqe 10 % 256
  let n := sqeNsid sqe
  let ns := s.hostNs (ctrlHost k)
  if cns = 1 then .ok (s.identCtrl k)
  else if (s.ctrl k).disc then .error Nv.field
  else if cns = 0 then
    (if n = 0 ∨ 65536 < n then .error Nv.badNs else .ok (if ns.contains n then s.identNs (n - 1) else zeros 4096))
  else if cns = 2 then
    (if 0xFFFFFFFE ≤ n then .error Nv.badNs else .ok (fitB 4096 ((ns.filter fun m => decide (n < m)).flatMap (leBytes 4))))
  else if cns = 3 then
    (if ns.contains n then .ok (fitB 4096 (leBytes 4 0x00001002 ++ fitB 16 (s.vol (n - 1)).nguid)) else .error Nv.badNs)
  else .error Nv.field

/-! ### Properties (R234) -/

def State.propCap (s : State) : Nat := s.fld1 Reg.CMD_CFG Fd.CMD_CFG_MQES + 0x10000 + 0x1000000 + 2 ^ 37
def Ctrl.csts (c : Ctrl) : Nat := b2n c.rdy + 4 * c.shst

/-- The value of a property, with its size code. -/
def State.propGet (s : State) (k off size : Nat) : Option Nat :=
  if off = 0 ∧ size = 1 then some s.propCap
  else if size ≠ 0 then none
  else if off = 0x08 then some 0x00020000
  else if off = 0x14 then some (s.ctrl k).cc
  else if off = 0x1C then some (s.ctrl k).csts
  else none

/-! ### Log pages -/

/-- Bytes that this specification does not fill. -/
def openBytes (n seed : Nat) : List Byte := (List.range n).map fun i => Config.logByte seed i

/-- An IPv4 or IPv6 address as text (NVMe over Fabrics TRADDR). -/
def decText (v : Nat) : List Byte := if v < 10 then decDigits 1 v else if v < 100 then decDigits 2 v else decDigits 3 v
def ipText (family : Nat) (ip : List Byte) : List Byte :=
  let hexB (v : Nat) : Byte := BitVec.ofNat 8 (if v < 10 then 48 + v else 87 + v)
  if family = 4 then ascii "." |> fun dot => ((ip.take 4).map fun b => decText b.toNat).intersperse dot |>.flatten
  else ((List.range 8).map fun i => (sliceB ip (2 * i) 2).flatMap fun b => [hexB (b.toNat / 16), hexB (b.toNat % 16)]).intersperse (ascii ":") |>.flatten

/-- The Discovery log: one entry for each address entry of a port. -/
def State.discoveryLog (s : State) : List Byte :=
  let es := s.net.addrs.filterMap fun (e : Nat × Option AddrEnt) => e.2.map fun a => (e.1, a)
  layB 1024 [(0, leBytes 8 s.cmd.discGen), (8, leBytes 8 es.length)] ++ es.flatMap fun (e : Nat × AddrEnt) =>
    layB 1024
      [(0, leBytes 1 1), (1, leBytes 1 (if e.2.family = 4 then 1 else 2)), (2, leBytes 1 2), (4, leBytes 2 (e.1 / 4)), (6, leBytes 2 0xFFFF), (8, leBytes 2 32),
       (32, padB 0x20 32 (decText ((s.fld Reg.RDM_CM_PORT Fd.RDM_CM_PORT_PORT) / 100) ++ decDigits 2 (s.fld Reg.RDM_CM_PORT Fd.RDM_CM_PORT_PORT % 100)))
       , (256, fitB 256 s.subNqn), (512, padB 0x20 256 (ipText e.2.family e.2.ip)), (768, leBytes 1 1 ++ leBytes 1 5 ++ leBytes 1 1)]

/-- Steps of the pattern test: 64 MiB of staging, 64 B in each (R259, 02 Table 2-2). -/
def patternSteps : Nat := 1048576

/-- Steps of the short test: the known-answer tests of each cluster that was not fenced when it started, and the pattern test. -/
def SelfTest.steps (t : SelfTest) : Nat := t.units.length + patternSteps

/-- The Device Self-test log (R258): the test in progress and up to 20 results, the newest first. -/
def State.selfLog (s : State) (k : Nat) : List Byte :=
  let c := s.ctrl k
  let acts := s.pools.flatMap fun p => (s.pool p).acts.filter fun a => a.kind == 5 && a.ctrl == k
  let cur := match c.test with
    | none => leBytes 2 0
    | some t =>
      let done := acts.foldl (fun n a => n + a.done) 0
      let left := acts.foldl (fun n a => n + covSize a.cov) 0
      leBytes 1 (if t.ext then 2 else 1) ++ leBytes 1 (if t.asked then (if done + left = 0 then 0 else 100 * done / (done + left)) else if t.ext then 0 else 100 * t.step / t.steps)
  let ent (r : SelfRes) : List Byte :=
    layB 28 [(0, leBytes 1 (r.result + (if r.ext then 2 else 1) * 16)), (2, leBytes 1 (1 + if r.lba.isSome then 2 else 0)), (4, openBytes 8 s.drawn),
             (12, leBytes 4 r.nsid), (16, leBytes 8 (r.lba.getD 0))]
  let none_ : List Byte := layB 28 [(0, leBytes 1 0xF)]
  cur ++ zeros 2 ++ (c.results.map ent).flatten ++ ((List.range (20 - c.results.length)).map fun _ => none_).flatten

/-- The Reservation Notification log: the oldest entry. -/
def State.noteLog (s : State) (k : Nat) : List Byte :=
  let c := s.ctrl k
  match c.notes with
  | [] => zeros 64
  | n :: _ => layB 64 [(0, leBytes 8 (c.noteSeq - c.notes.length + 1)), (8, leBytes 1 n.typ), (9, leBytes 1 (min 255 (c.notes.length - 1))), (12, leBytes 4 n.nsid)]

/-- A log page of controller `k`; none for one that it does not have. -/
def State.logPage (s : State) (k lid : Nat) : Option (List Byte) :=
  let c := s.ctrl k
  if c.disc then (if lid = 0x70 then some s.discoveryLog else none)
  else if lid = 0x01 then some (zeros 64)
  else if lid = 0x02 then some (openBytes 512 s.drawn)
  else if lid = 0x03 then some (openBytes 512 s.drawn)
  else if lid = 0x04 then some (fitB 4096 (c.changed.flatMap (leBytes 4)))
  else if lid = 0x06 then some (s.selfLog k)
  else if lid = 0x80 then some (s.noteLog k)
  else none

/-- The report of a reservation record (R253): extended data structures. -/
def State.resvReport (s : State) (v : Nat) : List Byte :=
  let r := s.resv v
  let ent (e : Nat × Nat) : List Byte :=
    let ks := (s.nvmCtrls fun h => h == e.1)
    let held := r.holder == some e.1 || r.rtype == 5 || r.rtype == 6
    layB 64 [(0, leBytes 2 (match ks.head? with | some k => cntlid k | none => 0xFFFF)), (2, leBytes 1 (b2n held)), (8, leBytes 8 e.2),
             (16, fitB 16 (s.hostEnt e.1).hostid)]
  layB 64 [(0, leBytes 4 r.gen), (4, leBytes 1 r.rtype), (5, leBytes 2 r.regs.length), (9, leBytes 1 (b2n r.ptpl))] ++ (r.regs.map ent).flatten

end Sys2Proof.Machine
end

