-- ==== Sys2Proof/Machine/Admin.lean ====
section
/-!
DEFINITION. Controllers and what ADMIN_STEP executes (08 R229 to R234, R253 to R260): Connect, properties, Identify, log pages,
features, asynchronous events, reservations, self-tests; keep-alive, shutdown and the end of a controller.
-/

namespace Sys2Proof.Machine

open Sys2Proof

/-- What ADMIN_STEP has decided for a command: its status, DW0 and DW1, the data for the host. -/
structure Reply where
  status : Nat
  dw : Nat
  data : List Byte

def Reply.err (st : Nat) : Reply := { status := st, dw := 0, data := [] }
def Reply.ok (dw : Nat) : Reply := { status := 0, dw := dw, data := [] }
def Reply.bytes (bs : List Byte) : Reply := { status := 0, dw := 0, data := bs }

/-! ### Connect (R229, R231) -/

/-- The free controller slots of a host, among three; a slot that a Connect of this tick has taken is not free. -/
def State.freeCtrl (s : State) (h : Nat) : Option Nat :=
  ((List.range 3).map fun i => h + 16384 * i).find? fun k => !(s.ctrl k).live && !s.cmd.binds.any (fun b => b.fresh.isSome && b.ctrl == k)

/-- The host of a HOSTNQN. -/
def State.hostOf (s : State) (nqn : List Byte) : Option Nat :=
  (s.hst.hosts.find? fun (e : Nat × HostEnt) => !e.2.nqn.isEmpty && e.2.nqn == nqn).map (·.1)

/-- KATO rounded up to 100 ms (R233). -/
def roundKato (ms : Nat) : Nat := ceilDiv ms 100 * 100

/-- Connect Invalid Parameters with the offset of the parameter, in the command or in the data (NVMe over Fabrics). -/
def badParam (off : Nat) (inData : Bool) : Reply := { status := Nv.cxParam, dw := off + if inData then 65536 else 0, data := [] }

/-- Table 8-5: the answer, and the binding that a passing Connect makes. -/
def State.connect (s : State) (q : Nat) (sqe data : List Byte) : Reply × Option Bind :=
  let x := s.qp q
  let recfmt := leField sqe 40 2
  let qid := leField sqe 42 2
  let sqsize := leField sqe 44 2
  let kato := roundKato (leField sqe 48 4)
  let hostid := sliceB data 0 16
  let cid := leField data 16 2
  let sub := toNul (sliceB data 256 256)
  let nqn := toNul (sliceB data 512 256)
  let disc := sub == discoveryNqn
  let k := cid - 1
  match s.hostOf nqn with
  | none =>
    (if recfmt ≠ 0 then .err Nv.cxFormat
     else if qid ≠ x.qid then badParam 42 false
     else if sqsize + 1 ≠ x.depth then badParam 44 false
     else if sub ≠ s.subNqn ∧ ¬(disc ∧ qid = 0) then badParam 256 true
     else .err Nv.cxHost, none)
  | some h =>
    let id := (s.hostEnt h).hostid
    if recfmt ≠ 0 then (.err Nv.cxFormat, none)
    else if qid ≠ x.qid then (badParam 42 false, none)
    else if sqsize + 1 ≠ x.depth then (badParam 44 false, none)
    else if sub ≠ s.subNqn ∧ ¬(disc ∧ qid = 0) then (badParam 256 true, none)
    else if hostid ≠ fitB 16 id ∧ ¬ allZero id then (.err Nv.cxHost, none)
    else if qid = 0 then
      (if (s.adminChan h).isNone then (.err Nv.cxHost, none)
       else if cid ≠ 0xFFFF then (badParam 16 true, none)
       else if (if disc then kato ≠ 0 else kato < 1000 ∨ s.fld Reg.CMD_KATO Fd.CMD_KATO_MAX * 100 < kato) then (badParam 48 false, none)
       else match s.freeCtrl h with
         | none => (.err Nv.cxBusy, none)
         | some c => (.ok (cntlid c), some { q := q, host := h, ctrl := c, fresh := some (disc, kato) }))
    else
      let c := s.ctrl k
      let granted := c.ioq.getD (s.fld Reg.CMD_CFG Fd.CMD_CFG_MAX_IOQ)
      if cid = 0 ∨ !c.live ∨ c.disc ∨ ctrlHost k ≠ h ∨ !c.rdy then (badParam 16 true, none)
      else if granted < qid ∨ (s.rdm.qps.any fun (e : Nat × Qp) => e.2.bound && e.2.ctrl == k && e.2.qid == qid)
          ∨ (s.cmd.binds.any fun b => b.ctrl == k && (s.qp b.q).qid == qid) then (badParam 42 false, none)
      else (.ok (cntlid k), some { q := q, host := h, ctrl := k, fresh := none })

/-- The change phase: bindings of passing Connects (R231). -/
def State.bindSeam (s : State) : State :=
  let bs := s.cmd.binds
  bs.foldl (fun s b =>
    let x := s.qp b.q
    if x.st ≠ .rtr ∧ x.st ≠ .rts ∧ x.st ≠ .drain then s
    else
      let s := s.updQp b.q fun x => { x with bound := true, host := b.host, ctrl := b.ctrl }
      match b.fresh with
      | none => s
      | some (disc, kato) =>
        let s := s.setCtrl b.ctrl { Ctrl.reset with live := true, disc := disc, adminQ := b.q, kato := kato, last := s.now }
        s.raise Ev.CMD_CTRL_CREATED b.host (cntlid b.ctrl) (s.qpn b.q)) { s with cmd := { s.cmd with binds := [] } }

/-! ### Self-tests (R258 to R260) -/

/-- The self-test of controller `k` ends with a result. -/
def State.endTest (s : State) (k result : Nat) : State :=
  match (s.ctrl k).test with
  | none => s
  | some t =>
    let s := s.updCtrl k fun c => { c with test := none, results := ({ result := result, ext := t.ext, nsid := t.nsid, lba := t.bad } :: c.results).take 20 }
    -- Its activities and its work end with it.
    let ws := s.lay.works.filter fun w => match w.kind with | .test c _ => c == k | _ => false
    let s := ws.foldl (fun s w => ((s.dropItems fun it => it.ref == Ref.work w.id).releaseRef (.work w.id)).dropWork w.id) s
    let s := s.pools.foldl (fun s p => ((s.pool p).acts.filter fun a => a.kind == 5 && a.ctrl == k).foldl (fun s a => s.endAct p a (if result = 0 ∨ result = 7 then 0 else 1)) s) s
    s.raise Ev.CMD_SELFTEST_DONE (cntlid k) result t.nsid

/-- Volumes that a self-test names (R258). -/
def State.testVols (s : State) (k nsid : Nat) : List Nat :=
  let ns := s.hostNs (ctrlHost k)
  if nsid = 0xFFFFFFFF then ns.map (· - 1) else if nsid = 0 then [] else [nsid - 1]

/-- Runs of consecutive numbers of a rising list, as intervals. -/
def toRuns (xs : List Nat) : List (Nat × Nat) :=
  xs.foldl (fun rs n => match rs.reverse with
    | (lo, hi) :: t => if hi = n then ((lo, n + 1) :: t).reverse else rs ++ [(n, n + 1)]
    | [] => [(n, n + 1)]) []

/-- Stripes of pool `p` that hold blocks of the volumes. -/
def State.testCov (s : State) (p : Nat) (vs : List Nat) : List (Nat × Nat) :=
  let n := (s.pool p).slabStripes
  let slabs := sortBy id ((vs.filter fun v => (s.vol v).pool == p && (s.vol v).st != 0).flatMap fun v => (s.vol v).slabs).eraseDups
  (toRuns slabs).map fun (e : Nat × Nat) => (e.1 * n, min (e.2 * n) (s.pool p).stripes)

/-- Device Self-test. -/
def State.selfTest (s : State) (k : Nat) (sqe : List Byte) : Reply × State :=
  let stc := sqeDw sqe 10 % 16
  let n := sqeNsid sqe
  let okNs := n == 0 || n == 0xFFFFFFFF || (s.hostNs (ctrlHost k)).contains n
  if !okNs then (.err Nv.badNs, s)
  else if stc = 0xF then (.ok 0, s.endTest k 1)
  else if stc ≠ 1 ∧ stc ≠ 2 then (.err Nv.field, s)
  else if (s.ctrl k).test.isSome then (.err Nv.testBusy, s)
  else (.ok 0, s.updCtrl k fun c => { c with
    test := some { ext := stc == 2, nsid := n, step := 0, asked := false, bad := none, vols := s.testVols k n, units := clusters.filter fun k => !s.fenced k } })

/-- A self-test without work gets it at the seam: the steps of the short test in the class of the lowest pool, then an activity on each
pool that holds blocks of the named volumes; a test with neither left has ended. -/
def State.testSeam (s : State) : State :=
  (s.liveCtrls.filter fun k => (s.ctrl k).test.isSome).foldl (fun s k =>
    match (s.ctrl k).test, s.pools.head? with
    | some t, some p0 =>
      let vs := t.vols
      let busy := s.lay.works.any fun w => match w.kind with | .test c _ => c == k | _ => false
      if (vs.any fun v => (s.vol v).st == 0 ∨ (s.vol v).st == 3) then s.endTest k 3
      else if t.step < t.steps then
        (if busy then s
         else s.newWork { Work.of (.test k 0) p0 t.step with redo := true, rows := (t.units[t.step]?).toList } (s.poolCluster p0 t.step) Rt.selftestStep
           .none (s.now + 1))
      else if t.ext && !t.asked then
        let s := s.pools.foldl (fun s p =>
          let cov := s.testCov p vs
          if cov.isEmpty then s else s.updPool p fun P => P.addAct { Activity.of 5 0 [] cov with ctrl := k }) s
        s.updCtrl k fun c => { c with test := some { t with asked := true } }
      else
        let acts := s.pools.flatMap fun p => ((s.pool p).acts.filter fun a => a.kind == 5 && a.ctrl == k).map fun a => (p, a)
        let done := acts.filter fun (e : Nat × Activity) => e.2.st == .running && e.2.cov.isEmpty && (s.actWorks e.1 e.2.id).isEmpty
        let s := done.foldl (fun s (e : Nat × Activity) => s.endAct e.1 e.2 0) s
        if acts.length = done.length && !busy then s.endTest k (if t.bad.isSome then 7 else 0) else s
    | _, _ => s) s

/-- The first LBA of a unit of a named volume. -/
def State.unitLba (s : State) (p : Nat) (u : UnitVal) (vs : List Nat) : Option Nat :=
  match s.unitOwner p u.stripe u.row u.pos with
  | some (v, t) => if vs.contains v then some (t * unitBlocks (s.vol v).lbaf) else none
  | none => none

/-- A data unit of a named volume fails its checks: the poison unit, or a block whose BIND does not match, or, without a key slot, whose
guard does not (R259; 11 R333: a self-test uses no key). -/
def State.unitBad (s : State) (p : Nat) (u : UnitVal) : Bool :=
  match s.unitOwner p u.stripe u.row u.pos with
  | none => false
  | some (v, t) =>
    let V := s.vol v
    u.data == poisonUnit || (List.range (unitBlocks V.lbaf)).any fun i =>
      let e := unitBlock V.lbaf u.data i
      let r := readBlk V none v (t * unitBlocks V.lbaf + i) e.1 e.2
      !r.bind || (V.key.isNone && (readCheck V.lbaf { escape := true, app := false, elbat := 0, elbatm := 0 } r).isSome)

/-- The first failing LBA of a stripe that a self-test has read. -/
def State.testFinds (s : State) (w : Work) (vs : List Nat) : Option Nat :=
  let P := s.pool w.pool
  let rows := (List.range P.u).filter fun r =>
    let f := P.scrubRow w r
    f.lost || !f.puts.isEmpty
  let bad := w.vals.filter fun u => decide (u.pos < P.k) && (rows.contains u.row || P.isLost w.stripe || s.unitBad w.pool u)
  (bad.filterMap fun u => s.unitLba w.pool u vs) |> minBy id

/-- A step of the short test (R259). The known-answer tests of a cluster post a request to its cipher array, with its check unit, and then one to its
parity unit; a step of the pattern test writes 64 B of staging and reads them back. A unit that gives a wrong answer comes to the model as a
CLUSTER_FAULT, memory that does as HBM_UNCORRECTABLE: the steps themselves find nothing (DESIGN CHOICE, log 133). -/
def State.shortStep (s : State) (it : Item) (w : Work) (k : Nat) : State :=
  let next := s.endWork it w false |>.updCtrl k fun c => { c with test := c.test.map fun t => { t with step := t.step + 1 } }
  match w.rows with
  | c :: _ =>
    if !s.serves c then next
    else if w.st = .planned then
      ((s.updWork w.id fun w => { w with st := .reading }).postCipher c it.ref 0 1 false none).advance it Rt.selftestStep 1 .event s.now
    else if w.st = .reading then
      ((s.updWork w.id fun w => { w with st := .parity }).postParity c it.ref).advance it Rt.selftestStep 1 .event s.now
    else next
  | [] =>
    if w.st = .planned then
      ((s.updWork w.id fun w => { w with st := .reading }).lane it 128 0).advance it Rt.selftestStep 1 (s.laneWait Rt.selftestStep) s.now
    else next

/-- SELFTEST_STEP on an item: a step of the short test, or a stripe of the extended one. -/
def State.testLeg (it : Item) (s : State) : State :=
  match it.ref with
  | .work id =>
    (match s.work? id with
     | none => s.endItem it
     | some w =>
       match w.kind with
       | .test k a =>
         if w.redo then s.shortStep it w k
         else
           let P := s.pool w.pool
           let need := P.allNeed w
           if !need.isEmpty then (s.updWork id fun w => { w with st := .reading, need := need }).advance it Rt.drvSubmit 1 .none s.now
           else
             let t := (s.ctrl k).test
             let found := s.testFinds w (match t with | some t => t.vols | none => [])
             let s := ((s.lane it 64 0).endWork it w false).actDone w.pool a
             s.updCtrl k fun c => { c with test := c.test.map fun t => { t with bad := t.bad <|> found } }
       | _ => s.endItem it)
  | _ => s.endItem it

/-- The next stripe of a running extended test. -/
def State.beginTest (k : Nat) : Starts := fun s p =>
  match (s.pool p).acts.find? (fun (a : Activity) => a.kind == 5 && a.st == .running) with
  | none => none
  | some a =>
    (s.beginStripe p k a).map fun (e : Nat × State) =>
      e.2.newWork (Work.of (.test a.ctrl a.id) p e.1) k Rt.selftestStep (s.laneWait Rt.selftestStep) s.now

/-- SELFTEST_STEP on cluster `k` for class `c`: an item, or the next stripe of an extended test. -/
def State.selftestStep (s : State) (k c : Nat) : State := s.poolRun k c Rt.selftestStep State.testLeg (State.beginTest k)

def execSelftestStep (k : Fin 12) (c : Fin 256) (s : State) : Host.Outcome State Fault Refusal := .next (s.selftestStep k.val c.val)

/-! ### Controllers end (R229, R233, R234) -/

/-- QPs of a controller, and those of its I/O queues. -/
def State.ctrlQps (s : State) (k : Nat) : List Nat := Tab.keys (fun x => x.bound && x.ctrl == k && x.st != .free) s.rdm.qps
def State.ioQps (s : State) (k : Nat) : List Nat := (s.ctrlQps k).filter fun q => (s.qp q).qid != 0

/-- The keep-alive timer of controller `k` has run out: KATO in ms against ticks of 1.024 µs (R233). -/
def State.katoDue (s : State) (k : Nat) : Bool :=
  let c := s.ctrl k
  c.live && c.kato != 0 && !c.expired && decide (c.kato * 1000000 ≤ (s.now - c.last) * 1024)

/-- What the expiry does. -/
def State.katoExpire (s : State) (k : Nat) : State :=
  if !s.katoDue k then s
  else
    let c := s.ctrl k
    let s := ((s.ctrlQps k).filter fun q => (s.qp q).st == .rtr || (s.qp q).st == .rts || (s.qp q).st == .drain).foldl (fun s q => s.qpFail q 0x0D) s
    let s := (s.endTest k 2).updCtrl k fun c => { c with expired := true, aers := [] }
    ((s.cntCmd 14 1).raise Ev.CMD_KATO_EXPIRED (ctrlHost k) (cntlid k) c.kato)

/-- KEEP_ALIVE_EXPIRE of the controller with key `k`. -/
def execKeepAliveExpire (k : Fin 49152) (s : State) : Host.Outcome State Fault Refusal := .next (s.katoExpire k.val)

/-- No waybill of the controller is in flight: the shutdown is complete (R234). -/
def State.shutdownDone (s : State) (k : Nat) : State :=
  let c := s.ctrl k
  let flying := !(s.wbsThat fun x => match s.qpOf x.qpn with | some q => (s.qp q).bound && (s.qp q).ctrl == k | none => false).isEmpty
  if c.live && c.shutting && !flying then s.updCtrl k fun c => { c with shutting := false, shst := 2 } else s

/-- CONTROLLER_SHUTDOWN_COMPLETE of the controller with key `k`. -/
def execControllerShutdownComplete (k : Fin 49152) (s : State) : Host.Outcome State Fault Refusal := .next (s.shutdownDone k.val)

/-- The I/O QPs have left DRAIN after CC.EN went to 0: RDY is 0 (R234). -/
def State.disableDone (s : State) (k : Nat) : State :=
  let c := s.ctrl k
  let busy := (s.ioQps k).any fun q => let x := s.qp q; x.st == .rts || x.st == .drain || x.next == .drain || x.next2 == .drain
  if c.live && c.disabling && !busy then s.updCtrl k fun c => { c with disabling := false, rdy := false } else s

/-- CONTROLLER_DISABLE_COMPLETE of the controller with key `k`. -/
def execControllerDisableComplete (k : Fin 49152) (s : State) : Host.Outcome State Fault Refusal := .next (s.disableDone k.val)

/-- A controller whose last QP has reached FREE has ended (R229). -/
def State.ctrlEnd (s : State) (k : Nat) : State :=
  let c := s.ctrl k
  if c.live && (s.ctrlQps k).isEmpty && !s.cmd.binds.any (·.ctrl == k) then
    let s := (s.endTest k 2).setCtrl k Ctrl.reset
    s.raise Ev.CMD_CTRL_ENDED (ctrlHost k) (cntlid k) (if c.expired then 1 else 2)
  else s

/-- Property Set of CC (R234). -/
def State.ccSet (s : State) (k w : Nat) : State :=
  let c := s.ctrl k
  let en := w % 2
  let s := s.updCtrl k fun c => { c with cc := w }
  let s :=
    if c.cc % 2 = 0 ∧ en = 1 then s.updCtrl k fun c => { c with enabling := true, disabling := false, shst := 0 }
    else if c.cc % 2 = 1 ∧ en = 0 then
      let s := (s.ioQps k).foldl (fun s q => s.qpEnd q 0) s
      (s.endTest k 2).updCtrl k fun c => { c with disabling := true, enabling := false }
    else s
  let shn := w / 16384 % 4
  if shn = 1 ∨ shn = 2 then s.updCtrl k fun c => { c with shutting := true } else s

/-! ### Features -/

def featIds : List Nat := [0x01, 0x02, 0x04, 0x05, 0x07, 0x0A, 0x0B, 0x0F, 0x81, 0x82, 0x83]

/-- The key of a feature value: the namespace in the high part for 0x82 and 0x83. -/
def featKey (f n : Nat) : Nat := if f = 0x82 then f + 256 * n else f

/-- Set Features. -/
def State.setFeat (s : State) (k : Nat) (sqe : List Byte) : Reply × State :=
  let f := sqeDw sqe 10 % 256
  let v := sqeDw sqe 11
  let n := sqeNsid sqe
  let ns := s.hostNs (ctrlHost k)
  let targets := if n = 0xFFFFFFFF then ns else if ns.contains n then [n] else []
  let put (key : Nat) (s : State) : State := s.updCtrl k fun c => { c with feats := Tab.wr featDefault c.feats key v }
  if natBit (sqeDw sqe 10) 31 then (.err 0x10D, s)
  else if f = 0x07 then
    let a := v % 65536
    let b := v / 65536
    if a = 0xFFFF ∨ b = 0xFFFF then (.err Nv.field, s)
    else if !(s.ioQps k).isEmpty then (.err Nv.sequence, s)
    else
      let g := min (min a b + 1) (s.fld Reg.CMD_CFG Fd.CMD_CFG_MAX_IOQ)
      (.ok ((g - 1) * 65537), s.updCtrl k fun c => { c with ioq := some g })
  else if f = 0x0F then
    let t := roundKato v
    if (s.ctrl k).disc then (if t = 0 then (.ok 0, s) else (.err 0x01A, s))
    else if t < 1000 ∨ s.fld Reg.CMD_KATO Fd.CMD_KATO_MAX * 100 < t then (.err 0x01A, s)
    else (.ok 0, s.updCtrl k fun c => { c with kato := t, last := s.now })
  else if f = 0x82 then
    (if targets.isEmpty then (.err Nv.badNs, s) else (.ok 0, targets.foldl (fun s n => put (featKey f n) s) s))
  else if f = 0x83 then
    (if targets.isEmpty then (.err Nv.badNs, s)
     else (.ok 0, targets.foldl (fun s n => s.setResv (n - 1) { s.resv (n - 1) with ptpl := v % 2 == 1 }) s))
  else if f = 0x81 then (.err Nv.sequence, s)
  else if featIds.contains f then (.ok 0, put f s)
  else (.err Nv.field, s)

/-- Get Features. -/
def State.getFeat (s : State) (k : Nat) (sqe : List Byte) : Reply :=
  let f := sqeDw sqe 10 % 256
  let sel := sqeDw sqe 10 / 256 % 8
  let n := sqeNsid sqe
  let c := s.ctrl k
  let ns := s.hostNs (ctrlHost k)
  if !featIds.contains f ∨ 3 < sel then .err Nv.field
  else if sel = 3 then .ok (if f = 0x81 then 0 else if f = 0x82 ∨ f = 0x83 then 6 else 4)
  else if f = 0x81 then .bytes (fitB 16 (s.hostEnt (ctrlHost k)).hostid)
  else if (f = 0x82 ∨ f = 0x83) ∧ !ns.contains n then .err Nv.badNs
  else if sel ≠ 0 then .ok (if f = 0x07 then (s.fld Reg.CMD_CFG Fd.CMD_CFG_MAX_IOQ - 1) * 65537 else featDefault f)
  else if f = 0x07 then .ok ((c.ioq.getD (s.fld Reg.CMD_CFG Fd.CMD_CFG_MAX_IOQ) - 1) * 65537)
  else if f = 0x0F then .ok c.kato
  else if f = 0x83 then .ok (b2n (s.resv (n - 1)).ptpl)
  else .ok (c.feat (featKey f n))

/-! ### Log pages and asynchronous events (R256, R257) -/

/-- Get Log Page: `len` bytes from the offset; without Retain Asynchronous Event the page's event types are cleared, the Changed
Namespace List empties and the oldest reservation notification goes. -/
def State.getLog (s : State) (k len : Nat) (sqe : List Byte) : Reply × State :=
  let lid := sqeDw sqe 10 % 256
  let rae := natBit (sqeDw sqe 10) 15
  let off := sqeDw sqe 12 + 4294967296 * sqeDw sqe 13
  match s.logPage k lid with
  | none => (.err 0x109, s)
  | some page =>
    if page.length < off ∧ off ≠ 0 then (.err Nv.field, s)
    else
      let s := s.draw.2
      let s := if rae then s else s.updCtrl k fun c => { c with
        masked := c.masked.filter (fun m => m % 256 != lid)
        changed := if lid = 0x04 then [] else c.changed
        notes := if lid = 0x80 then c.notes.drop 1 else c.notes }
      (.bytes (fitB len (page.drop off)), s)

/-- An event of a type that has been delivered and not read since is not delivered. -/
def Ctrl.ready (c : Ctrl) (e : Aev) : Bool := !c.masked.any fun m => m / 256 == e.typ

/-- Events of the seam join those held, one per type and info (R257). -/
def State.aevMerge (s : State) : State :=
  let es := s.cmd.aevDue
  es.foldl (fun s (e : Nat × Aev) =>
    let c := s.ctrl e.1
    if !c.live || c.held.any (fun h => h.typ == e.2.typ && h.info == e.2.info) then s
    else s.setCtrl e.1 { c with held := c.held ++ [e.2] }) { s with cmd := { s.cmd with aevDue := [] } }

/-- A held event is delivered to the oldest AER slot: ADMIN_STEP completes it in the following tick. -/
def State.aevDeliver (k : Nat) : Nat → State → State
  | 0, s => s
  | n + 1, s =>
    let c := s.ctrl k
    match c.aers, c.held.find? c.ready with
    | a :: rest, some e =>
      let ch := s.adminChan (ctrlHost k)
      let cl := match ch with | some i => s.serveCluster i | none => s.servers.headD 0
      let cls := match ch with | some i => (s.chan i).cls | none => noClass
      let id := s.cmd.capSeq
      let cap : Capsule :=
        { id := id, qpn := a.qpn, chan := ch, cid := a.cid, sqe := zeros 64, icd := [], tick := s.now, reject := false, abort := false, counted := true
          answer := some (0, e.typ + 256 * e.info + 65536 * e.page), cells := [], cluster := cl, cls := cls, dscp := 0, pre := 0, deferred := false
          wasDeferred := false, parked := false, stamp := 0 }
      let s := s.setCtrl k { c with aers := rest, held := c.held.erase e, masked := c.masked ++ [e.typ * 256 + e.page] }
      let s := { s with cmd := { s.cmd with caps := s.cmd.caps ++ [cap], capSeq := id + 1 } }
      State.aevDeliver k n (s.addItem { ref := .cap id, cluster := cl, cls := cls, code := Rt.adminStep, leg := 1, wait := .none, ready := s.now + 1 })
    | _, _ => s

/-- The change phase of a seam: events are raised and delivered. -/
def State.aevSeam (s : State) : State :=
  let s := s.aevMerge
  s.liveCtrls.foldl (fun s k => State.aevDeliver k (s.ctrl k).aers.length s) s

/-! ### Reservations (R253 to R255; NVMe base specification) -/

/-- The record that a command of this tick meets: one changed in it already, or the one in force. -/
def State.resvNow (s : State) (v : Nat) : Resv :=
  match s.cmd.resvDue.reverse.find? (·.vol == v) with | some c => c.resv | none => s.resv v

/-- Types: 1 Write Exclusive, 2 Exclusive Access, 3 and 4 the same for registrants only, 5 and 6 for all registrants. -/
def allReg (t : Nat) : Bool := t == 5 || t == 6
def Resv.keyOf (r : Resv) (h : Nat) : Option Nat := (r.regs.find? fun (e : Nat × Nat) => e.1 == h).map (·.2)
def Resv.held (r : Resv) : Bool := r.rtype != 0
def Resv.holds (r : Resv) (h : Nat) : Bool := r.held && (r.holder == some h || (allReg r.rtype && (r.keyOf h).isSome))
def Resv.release (r : Resv) : Resv := { r with rtype := 0, holder := none }

/-- A registrant leaves; the reservation that it alone holds is released with it. -/
def Resv.unregister (r : Resv) (h : Nat) : Resv :=
  let r' := { r with regs := r.regs.filter fun (e : Nat × Nat) => e.1 != h }
  if r.held && ((!allReg r.rtype && r.holder == some h) || (allReg r.rtype && r'.regs.isEmpty)) then r'.release else r'

/-- Other registrants of a record, with a notification type each: 1 registration preempted, 2 reservation released, 3 reservation
preempted. -/
def Resv.tell (r : Resv) (h typ : Nat) : List (Nat × Nat) := (r.regs.filter fun (e : Nat × Nat) => e.1 != h).map fun e => (e.1, typ)

/-- The outcome of a reservation command of host `h`: a status, or the new record with its action and notifications. -/
def resvExec (r : Resv) (v h op dw10 crkey prkey : Nat) : Except Nat (Option ResvChange) :=
  let key := r.keyOf h
  let iekey := natBit dw10 3
  let act := dw10 % 8
  let typ := dw10 / 256 % 256
  let change (r' : Resv) (a : Nat) (ns : List (Nat × Nat)) (ab : List Nat) : Except Nat (Option ResvChange) :=
    .ok (some { vol := v, resv := r', action := a, host := h, notes := ns, abort := ab })
  let bump (r : Resv) : Resv := { r with gen := (r.gen + 1) % 4294967296 }
  if op = 0x0D then
    let pt := dw10 / 1073741824
    let p (r : Resv) : Resv := if pt = 2 then { r with ptpl := false } else if pt = 3 then { r with ptpl := true } else r
    if act = 0 then
      (match key with
       | some k => if k = prkey then change (bump (p r)) 1 [] [] else .error Nv.resConflict
       | none => if 32 ≤ r.regs.length then .error Nv.field else change (bump (p { r with regs := r.regs ++ [(h, prkey)] })) 1 [] [])
    else if act = 1 then
      (match key with
       | none => .error Nv.resConflict
       | some k =>
         if k ≠ crkey ∧ !iekey then .error Nv.resConflict
         else
           let r' := r.unregister h
           change (bump (p r')) 1 (if r.held && !r'.held && (r.rtype == 3 || r.rtype == 4) then r'.tell h 2 else []) [])
    else if act = 2 then
      (match key with
       | none => .error Nv.resConflict
       | some k =>
         if k ≠ crkey ∧ !iekey then .error Nv.resConflict
         else change (bump (p { r with regs := r.regs.map fun (e : Nat × Nat) => if e.1 = h then (h, prkey) else e })) 1 [] [])
    else .error Nv.field
  else if iekey then .error Nv.field
  else if key ≠ some crkey then .error Nv.resConflict
  else if op = 0x11 then
    if typ = 0 ∨ 6 < typ then .error Nv.field
    else if act = 0 then
      (if !r.held then change { r with rtype := typ, holder := some h } 2 [] []
       else if r.holds h && r.rtype == typ then .ok none
       else .error Nv.resConflict)
    else if act = 1 ∨ act = 2 then
      let a := if act = 1 then 4 else 5
      let out : List Nat :=
        if r.held && allReg r.rtype && prkey == 0 then (r.regs.filter fun (e : Nat × Nat) => e.1 != h).map (·.1)
        else (r.regs.filter fun (e : Nat × Nat) => e.2 == prkey && e.1 != h).map (·.1)
      let takes := r.held && (if allReg r.rtype then prkey == 0 else match r.holder with | some o => r.keyOf o == some prkey | none => false)
      if prkey = 0 ∧ !(r.held && allReg r.rtype) then .error Nv.field
      else if out.isEmpty && !takes && key ≠ some prkey then .error Nv.resConflict
      else
        let regs := r.regs.filter fun (e : Nat × Nat) => !out.contains e.1
        let r' := if takes then { r with regs := regs, rtype := typ, holder := some h } else { r with regs := regs }
        let r' := if r'.held && allReg r'.rtype && r'.regs.isEmpty then r'.release else r'
        let old := r.holder
        let tell := out.map fun o => (o, if takes && old == some o then 3 else 1)
        let rel := if takes && decide (3 ≤ r.rtype) && r.rtype != typ then (regs.filter fun (e : Nat × Nat) => e.1 != h).map fun e => (e.1, 2) else []
        change (bump r') a (tell ++ rel) (if act = 2 then out else [])
    else .error Nv.field
  else if act = 0 then
    (if !r.holds h then .ok none
     else if r.rtype ≠ typ then .error Nv.field
     else change r.release 3 (if 3 ≤ r.rtype then r.tell h 2 else []) [])
  else if act = 1 then change (bump { r.release with regs := [] }) 6 (r.tell h 3) []
  else .error Nv.field

/-- The change phase: a record changes; its registrants are told under the masks of Feature 0x82; Preempt and Abort marks the
commands of the preempted hosts (R254, R255). -/
def State.resvApply (s : State) (c : ResvChange) : State :=
  let s := (s.setResv c.vol c.resv).raise Ev.CMD_RESERVATION c.vol c.action c.host
  let s := c.notes.foldl (fun s (n : Nat × Nat) =>
    (s.nvmCtrls fun h => h == n.1).foldl (fun s k =>
      let C := s.ctrl k
      if natBit (C.feat (featKey 0x82 (c.vol + 1))) n.2 then s
      else (s.setCtrl k { C with notes := C.notes ++ [{ typ := n.2, nsid := c.vol + 1 }], noteSeq := C.noteSeq + 1 }).aev { typ := 6, info := 0, page := 0x80 } k) s) s
  (s.wbsThat fun x => x.volume == c.vol && (match s.qpOf x.qpn with | some q => c.abort.contains (s.qp q).host && (s.qp q).qid != 0 | none => false)).foldl
    (fun s w => s.cutWb w true) s

def State.resvSeam (s : State) : State :=
  let cs := s.cmd.resvDue
  cs.foldl State.resvApply { s with cmd := { s.cmd with resvDue := [] } }

/-- A reservation command: its answer, and the change of the record that it makes due; with Persist Through Power Loss the record is
written to members first (R254). -/
def State.resvCommand (s : State) (w : Nat) (q : Nat) (x : Waybill) : Reply × State :=
  let h := (s.qp q).host
  let v := x.volume
  let data := fitB 16 x.data
  if allZero (s.hostEnt h).hostid then (.err Nv.field, s)
  else if x.opcode = 0x0E then
    (if sqeDw x.sqe 11 % 2 = 0 then (.err 0x024, s) else (.bytes (fitB ((sglLen x.sqe).getD 0) (s.resvReport v)), s))
  else
    match resvExec (s.resvNow v) v h x.opcode (sqeDw x.sqe 10) (leField data 0 8) (leField data 8 8) with
    | .error st => (.err st, if st = Nv.resConflict then s.cntCmd 6 1 else s)
    | .ok none => (.ok 0, s)
    | .ok (some c) =>
      let s := { s with cmd := { s.cmd with resvDue := s.cmd.resvDue ++ [c] } }
      (.ok 0, if c.resv.ptpl then s.updPool (s.vol v).pool fun P => { P with flushFor := P.flushFor ++ [.wb w] } else s)

/-! ### ADMIN_STEP -/

/-- A command of the admin queue, by its opcode; AERs are taken apart. -/
def State.adminCommand (s : State) (k : Nat) (x : Waybill) : Reply × State :=
  let sqe := x.sqe
  let len := (sglLen sqe).getD 0
  match x.opcode with
  | 0x06 => (match s.identify k sqe with | .ok bs => (.bytes (bs.take len), s) | .error st => (.err st, s))
  | 0x02 => s.getLog k len sqe
  | 0x09 => s.setFeat k sqe
  | 0x0A => let r := s.getFeat k sqe; ({ r with data := r.data.take len }, s)
  | 0x14 => s.selfTest k sqe
  | _ => (.ok 0, s)

/-- An invocation of ADMIN_STEP moves `n` bytes, up to 4 KiB, on memory lanes (02 Table 2-2); one that moves none waits for none (02 R33). -/
def State.adminLane (s : State) (it : Item) (n : Nat) : State := s.lane it (if n < 4096 then n else 0) (if n < 4096 then 0 else 4096)
def State.adminWait (s : State) (n : Nat) : Wait := if n = 0 then .none else s.laneWait Rt.adminStep

/-- The decision of ADMIN_STEP is recorded, and the data it took from the host or has for it is moved; a transfer above 4 KiB takes further
invocations; then XFER_ARM. -/
def State.adminDone (s : State) (it : Item) (w : Nat) (r : Reply) (wait : Bool) : State :=
  let x := s.wb w
  let n := r.data.length + (if x.takesData then max x.data.length x.icd.length else 0)
  let s := (s.adminLane it n).updWb w fun x => { x with status := r.status, dw0 := r.dw, data := r.data, progress := 1 }
  if wait then s.advance it Rt.xferArm 1 .event s.now
  else if 4096 < r.data.length then s.advance it Rt.adminStep 1 (s.adminWait n) s.now
  else s.advance it Rt.xferArm 1 (s.adminWait n) s.now

/-- ADMIN_STEP. -/
def State.adminStep (it : Item) (s : State) : State :=
  match it.ref with
  | .cap _ => s.advance it Rt.xferArm 1 .none s.now
  | _ =>
    s.onWb it fun w x s =>
      let q := (s.qpOf x.qpn).getD 0
      let Q := s.qp q
      let sqe := x.sqe
      let data := if x.icd.isEmpty then x.data else x.icd
      if 0 < x.progress then
        -- A further invocation of the same transfer (R247).
        let n := ceilDiv x.data.length 4096
        let left := x.data.length - 4096 * x.progress
        let s := (s.adminLane it left).updWb w fun x => { x with progress := x.progress + 1 }
        (if x.progress + 1 < n then s.advance it Rt.adminStep 1 (s.adminWait left) s.now
         else s.advance it Rt.xferArm 1 (s.adminWait left) s.now)
      else if isFabrics sqe then
        (if isConnect sqe then
           let r := s.connect q sqe data
           let s := match r.2 with | some b => { s with cmd := { s.cmd with binds := s.cmd.binds ++ [b] } } | none => s
           s.adminDone it w r.1 false
         else
           let off := leField sqe 44 4
           let size := leField sqe 40 1 % 8
           if fctype sqe = 4 then
             s.adminDone it w (match s.propGet Q.ctrl off size with | some v => .ok v | none => .err Nv.field) false
           else if off = 0x14 ∧ size = 0 then (s.ccSet Q.ctrl (leField sqe 48 4)).adminDone it w (.ok 0) false
           else s.adminDone it w (.err Nv.field) false)
      else if Q.qid ≠ 0 then
        (if x.opcode = 0 then s.adminDone it w (.ok 0) false
         else
           let r := s.resvCommand w q { x with data := data }
           let wait := r.2.cmd.resvDue.length != s.cmd.resvDue.length && (match r.2.cmd.resvDue.getLast? with | some c => c.resv.ptpl | none => false)
           r.2.adminDone it w r.1 wait)
      else if x.opcode = 0x0C then
        let c := s.ctrl Q.ctrl
        (if 4 ≤ c.aers.length then ((s.updWb w fun x => { x with status := Nv.aerLimit }).finishWb it w).freeWb w
         else (s.setCtrl Q.ctrl { c with aers := c.aers ++ [{ qpn := x.qpn, cid := x.cid }] }).freeWb w)
      else
        let r := s.adminCommand Q.ctrl { x with data := data }
        r.2.adminDone it w r.1 false

def execAdminStep (k : Fin 12) (c : Fin 256) (s : State) : Host.Outcome State Fault Refusal := .next (s.run k c Rt.adminStep State.adminStep)

/-! ### The seam -/

/-- Controllers at the seam: readiness, timers, shutdown, disabling, and their end (R229, R233, R234). -/
def State.ctrlSeam (s : State) : State :=
  let s := s.liveCtrls.foldl (fun s k => if (s.ctrl k).enabling then s.updCtrl k fun c => { c with enabling := false, rdy := true } else s) s
  s.liveCtrls.foldl (fun s k => (((s.katoExpire k).shutdownDone k).disableDone k)) s

/-- ERR that the engine requests (R232). -/
def State.engineSeam (s : State) : State :=
  (Tab.keys (fun x => x.engineErr) s.rdm.qps).foldl (fun s q => (s.updQp q fun x => { x with engineErr := false }).qpFail q 0x0D) s

end Sys2Proof.Machine
end

