-- ==== Sys2Proof/Machine/Chan.lean ====
section
/-!
DEFINITION. The host, image and channel opcodes of the control host interface (03 R102 to R111; 02 R71; 17 R513).
-/

namespace Sys2Proof.Machine

open Sys2Proof

/-! ### HOST_REMOVE (R103) -/

/-- A QP of host `h` is connected. -/
def State.hostConnected (s : State) (h : Nat) : Bool := s.liveQps.any fun q => (s.qp q).host == h

def hostRemove (d : Desc) (s : State) : State :=
  let h := d.f 8 2
  s.checked d
    [(d.handle == 0 && d.reservedZero [(8, 2)] && decide (h ≤ 16383), St.GEN_FIELD),
     (!(s.hostEnt h).nqn.isEmpty, St.CHAN_NO_HOST),
     (!(s.liveChans.any fun i => (s.chan i).host == h) && !s.hostConnected h, St.CHAN_HOST_IN_USE)]
    fun s => (s.setHost h HostEnt.reset).done d St.OK

def execHostRemove (s : State) : Host.Outcome State Fault Refusal := .next (s.ringCmd Op.HOST_REMOVE hostRemove)

/-! ### Image opcodes (R102) -/

/-- IMG_LOAD: the copy starts, and the command completes when the checks end. -/
def imgLoad (d : Desc) (s : State) : State :=
  s.checked d
    [(d.handle == 0 && d.reservedZero [(8, 1), (16, 8), (24, 4)] && decide (d.f 8 1 ≤ 1) && d.aligned 16 4096, St.GEN_FIELD)]
    fun s =>
      let r := s.loadStart (d.f 8 1 == 1) (d.f 24 4) (some d)
      if r.1 then r.2 else r.2.done d St.ITN_BUSY

def execImgLoad (s : State) : Host.Outcome State Fault Refusal := .next (s.ringCmd Op.IMG_LOAD imgLoad)

/-- The status with which a load into buffer `b` fails once its copy has ended with `bytes`, or failed: the checks of Table 2-8, the load
size among the first. -/
def State.imageVerdict (s : State) (b ok : Bool) (bytes : List Byte) : Option Nat :=
  if !ok then some St.GEN_DMA
  else if leField bytes 0x0C 4 ≠ (s.buf b).loadSize then some St.ITN_FORMAT
  else s.imgCheck bytes

/-- IMAGE_COPY_COMPLETE of buffer `b`: the load ends with the outcome of the checks. An active in lockstep sends a checked image to its
standby; until the standby's own verdict the buffer stays LOADING (15 R449). -/
def State.copyDone (s : State) (b ok : Bool) (bytes : List Byte) : State :=
  if (s.buf b).st ≠ .loading then s
  else
    match s.imageVerdict b ok bytes with
    | none =>
      if s.pairState = pairPaired then (s.setBuf b { s.buf b with bytes := bytes }).mgtSend (.image b bytes)
      else s.loadEnd b bytes none
    | some c => s.loadEnd b [] (some c)

def execImageCopyComplete (b ok : Bool) (bytes : List Byte) (s : State) : Host.Outcome State Fault Refusal := .next (s.copyDone b ok bytes)

/-- The standby's verdict on an image (15 R449): one that fails its checks leaves both buffers EMPTY. -/
def State.imageVerdictIn (s : State) (b ok : Bool) : State :=
  let x := s.buf b
  if x.st ≠ .loading ∨ x.bytes.isEmpty then s
  else if ok then s.loadEnd b x.bytes none
  else (s.setBuf b { ImgBuf.reset with loader := x.loader, loadSize := x.loadSize, st := .loading }).loadEnd b [] (some St.PAIR_PEER_CHECK)

/-- IMG_SWAP. -/
def imgSwap (d : Desc) (s : State) : State :=
  s.checked d [(d.handle == 0 && d.reservedZero [(8, 1)] && decide (d.f 8 1 ≤ 1), St.GEN_FIELD)]
    fun s => s.swapRequest (d.f 8 1) (some d)

def execImgSwap (s : State) : Host.Outcome State Fault Refusal := .next (s.ringCmd Op.IMG_SWAP imgSwap)

/-- VARIANT_EXIT is accepted (R71, 17 R513, 04 R133): every cluster fenced or idled is PASSED, the stack of a kind-2 variant is not
lost here, and no port of a kind-3 variant is lost. -/
def State.exitOk (s : State) : Bool :=
  (clusters.all fun k => s.serves k || s.cluState k == cluPassed)
    && (s.itn.faultKind != 2 || !natBit (s.fld Reg.HBM_STATUS Fd.HBM_STATUS_LOST) s.itn.faultIndex)
    && (s.itn.faultKind != 3 || (match s.img.varts.find? (·.id == s.itn.variant) with
        | some v => (List.range 16).all fun p => !natBit v.mask p || !s.portLost p
        | none => true))

/-- VARIANT_EXIT: accepted, it waits for the next seam. -/
def variantExit (d : Desc) (s : State) : State :=
  let v := d.f 8 1
  s.checked d
    [(d.handle == 0 && d.reservedZero [(8, 1)] && decide (1 ≤ v) && decide (v ≤ 16), St.GEN_FIELD),
     (s.itn.running && s.itn.variant == v && s.itn.exitDesc.isNone && s.exitOk, St.GEN_STATE)]
    fun s => { s with itn := { s.itn with exitDesc := some d } }

def execVariantExit (s : State) : Host.Outcome State Fault Refusal := .next (s.ringCmd Op.VARIANT_EXIT variantExit)

/-- The exit at its seam: what was accepted takes place (R71); a cluster that faulted in the tick is then fenced from variant 0. -/
def State.exitNow (s : State) : State :=
  match s.itn.exitDesc with
  | none => s
  | some d => ({ s with itn := { s.itn with exitDesc := none } }).exitVariant.done d St.OK

/-! ### Channel operands (Table 3-10, 07 Table 7-3) -/

/-- The smallest burst of Table 7-3. -/
def minBurst : Nat := 2097216
def maxRate : Nat := 1600000

/-- The meter fields are in range (07 R205, R211). -/
def meterOk (mode cir pir cbs pbs : Nat) : Bool :=
  let alg := meterAlg mode
  decide (alg ≤ 2) && decide (yellowAction mode ≤ 2) && decide (redAction mode ≤ 2) && decide (yellowAction mode ≤ redAction mode) && !natBit mode 7
    && (if alg = 0 then cir == 0 else decide (1 ≤ cir) && decide (cir ≤ maxRate))
    && (if alg = 2 then decide (cir ≤ pir) && decide (pir ≤ maxRate) else pir == 0)
    && (if alg = 0 then cbs == 0 else decide (minBurst ≤ cbs))
    && (if alg = 0 then pbs == 0 else decide (minBurst ≤ pbs) || (alg == 1 && pbs == 0))

/-- SCHED_NODE and WEIGHT are in range. -/
def State.schedOk (s : State) (node weight : Nat) : Bool := decide (node ≤ 1023) && s.nodeValid node && decide (1 ≤ weight)

def Desc.meterOk (d : Desc) : Bool := Machine.meterOk (d.f 22 1) (d.f 24 4) (d.f 28 4) (d.f 32 4) (d.f 36 4)

/-- Check 5 of Table 3-11 for NSID `nsid`. -/
def State.classOk (s : State) (c nsid : Nat) : Bool :=
  match s.img.cls c with
  | none => false
  | some e => if nsid = 0 then e.kind == 2 && natBit e.commands 3 else e.kind == 0 || e.kind == 1

/-- The key slot that a channel of NSID `nsid` names. -/
def State.keyOf (s : State) (nsid : Nat) : Nat := if nsid = 0 then 0xFFFFFFFF else (s.vol (nsid - 1)).key.getD 0xFFFFFFFF

/-! ### CHAN_CREATE (R107, R108) -/

/-- CHAN_CREATE: checks 1 to 8; check 9 follows at the seam. -/
def chanCreate (d : Desc) (s : State) : State :=
  let nsid := d.f 12 4
  let cl := d.f 11 1
  let key := d.f 16 4
  s.checked d
    [(d.handle == 0 && d.reservedZero [(8, 15), (24, 20)] && decide (d.f 8 2 ≤ 16383) && decide (d.f 10 1 ≤ 253)
        && (decide (cl ≤ 11) || cl == 0xFF) && decide (nsid ≤ 65536) && (decide (key ≤ 65535) || key == 0xFFFFFFFF)
        && decide (d.f 20 1 ≤ 3) && decide (d.f 21 1 ≤ 7) && d.meterOk && s.schedOk (d.f 40 2) (d.f 42 2), St.GEN_FIELD),
     (!(s.hostEnt (d.f 8 2)).nqn.isEmpty, St.CHAN_NO_HOST),
     (nsid == 0 || ((s.vol (nsid - 1)).st != 0 && (s.vol (nsid - 1)).st != 3), St.CHAN_NO_VOLUME),
     ((s.findChan (d.f 8 2) nsid).isNone, St.CHAN_EXISTS),
     (s.classOk (d.f 10 1) nsid, St.CHAN_CLASS),
     (key == s.keyOf nsid, St.CHAN_KEY_MISMATCH),
     (decide (s.liveChans.length < 262144), St.CHAN_TABLE_FULL)]
    fun s => s.defer d

def execChanCreate (s : State) : Host.Outcome State Fault Refusal := .next (s.ringCmd Op.CHAN_CREATE chanCreate)

/-- The cluster of a new channel (02 R47): the one named, or the serving one with the most capacity left, the lowest on a tie. -/
def State.pickCluster (s : State) (c cl : Nat) : Option Nat :=
  if cl = 0xFF then (maxBy (fun k => s.capLeft c k) s.servers).bind fun k => if 0 < s.capLeft c k then some k else none
  else if s.serves cl && decide (0 < s.capLeft c cl) then some cl else none

/-- The highest remaining capacity of class `c` on any serving cluster. -/
def State.mostLeft (s : State) (c : Nat) : Nat := s.servers.foldl (fun a k => max a (s.capLeft c k)) 0

/-- The head of the free list, if it holds an index (R106). -/
def State.freeChan (s : State) : Option Nat := if s.hst.chanFresh < 262144 then some s.hst.chanFresh else s.hst.chanFreed.head?

/-- The head of the free list is taken. -/
def State.takeChan (s : State) : State :=
  if s.hst.chanFresh < 262144 then { s with hst := { s.hst with chanFresh := s.hst.chanFresh + 1 } }
  else { s with hst := { s.hst with chanFreed := s.hst.chanFreed.drop 1 } }

/-- The channel is bound at its seam, or check 9 or a check that has failed since its start refuses it. A creation that passed check 8 and finds
the free list empty at its seam, because others committed before it, gets the status of check 8: Table 3-11 names none for it (DESIGN CHOICE, log
120). -/
def State.chanCreateNow (s : State) (d : Desc) : State :=
  let c := d.f 10 1
  let nsid := d.f 12 4
  if (s.findChan (d.f 8 2) nsid).isSome then s.done d St.CHAN_EXISTS
  else
    match s.pickCluster c (d.f 11 1), s.freeChan with
    | none, _ => s.complete d St.CHAN_CAPACITY 0 (s.mostLeft c) 0
    | _, none => s.done d St.CHAN_TABLE_FULL
    | some k, some i =>
      let s := s.takeChan
      let ch : Chan := { st := .opened, gen := (s.chan i).gen, host := d.f 8 2, nsid := nsid, cls := c, oldCls := [], cluster := k, home := k,
                         keySlot := d.f 16 4, policy := d.f 20 1, attr := d.f 21 1, meterMode := d.f 22 1, cir := d.f 24 4, pir := d.f 28 4,
                         cbs := d.f 32 4, pbs := d.f 36 4, node := d.f 40 2, weight := d.f 42 2, credit := s.creditCap c, born := s.hst.chanBorn,
                         destroy := none, answered := 0, closedAt := 0, tc := d.f 32 4 * 1000, tp := d.f 36 4 * 1000, colour := 0, defq := []
                         firstEntry := (s.vol (nsid - 1)).first, slabCount := (s.vol (nsid - 1)).slabs.length }
      let s := s.setChan i ch
      let s := { s with tel := { s.tel with acc := (List.range 32).foldl (fun t j => Tab.wr (fun _ => 0) t (telKey 15 i j) 0) s.tel.acc } }
      let s := { s with hst := { s.hst with chanBorn := s.hst.chanBorn + 1 } }
      let s := if nsid = 0 then s else s.nsChanged (nsid - 1)
      s.complete d St.OK (s.handleOf i + k * 4294967296) (s.capLeft c k) 0

/-! ### CHAN_MODIFY (R109) -/

/-- CHAN_MODIFY: only the fields that MASK selects are checked. -/
def chanModify (d : Desc) (s : State) : State :=
  let m := d.f 44 2
  let i := (s.chanOf d.handle).getD 0
  let ch := s.chan i
  s.checked d
    [(d.reservedZero [(8, 15), (24, 22)] && m != 0 && decide (m < 16) && (!natBit m 0 || decide (d.f 10 1 ≤ 253)) && (!natBit m 1 || decide (d.f 21 1 ≤ 7))
        && (!natBit m 2 || d.meterOk) && (!natBit m 3 || s.schedOk (d.f 40 2) (d.f 42 2)), St.GEN_FIELD),
     ((s.chanOf d.handle).isSome, St.CHAN_STALE_HANDLE),
     (ch.st != .closing, St.CHAN_CLOSING),
     (!natBit m 0 || ch.st != .suspended, St.CHAN_SUSPENDED),
     (!natBit m 0 || s.classOk (d.f 10 1) ch.nsid, St.CHAN_CLASS)]
    fun s => s.defer d

def execChanModify (s : State) : Host.Outcome State Fault Refusal := .next (s.ringCmd Op.CHAN_MODIFY chanModify)

/-- The meter fields of a descriptor in a channel, with its counts carried over as R109 gives. -/
def Chan.withMeter (ch : Chan) (d : Desc) : Chan :=
  let old := meterAlg ch.meterMode
  let new := meterAlg (d.f 22 1)
  let cap := d.f 32 4 * 1000
  let top := d.f 36 4 * 1000
  { ch with
    meterMode := d.f 22 1, cir := d.f 24 4, pir := d.f 28 4, cbs := d.f 32 4, pbs := d.f 36 4
    tc := if new = 0 then 0 else if old = 0 then cap else min cap ch.tc
    tp := if new = 0 then 0 else if old = 0 then top else min top ch.tp }

/-- A channel leaves each old class when its last waybill admitted under that class retires. -/
def State.leaveClass (s : State) (i : Nat) : State :=
  s.setChan i { s.chan i with
    oldCls := (s.chan i).oldCls.filter fun c => !(s.wbsThat fun x => x.chan == s.handleOf i && x.cls == c).isEmpty }

/-- The change at its seam, after the refill of that seam. Commands not yet admitted are served in the new class from then on. -/
def State.chanModifyNow (s : State) (d : Desc) : State :=
  let m := d.f 44 2
  match s.chanOf d.handle with
  | none => s.done d St.CHAN_STALE_HANDLE
  | some i =>
    let ch := s.chan i
    let c := d.f 10 1
    let moves := natBit m 0 && c != ch.cls
    if moves && ch.st != .opened then s.done d (if ch.st = .closing then St.CHAN_CLOSING else St.CHAN_SUSPENDED)
    else if moves && !ch.ofClass c && s.capLeft c ch.cluster == 0 then s.complete d St.CHAN_CAPACITY 0 (s.mostLeft c) 0
    else
      let ch := if moves then { ch with cls := c, oldCls := ch.oldCls ++ [ch.cls], credit := min ch.credit (s.creditCap c) } else ch
      let ch := if natBit m 1 then { ch with attr := d.f 21 1 } else ch
      let ch := if natBit m 2 then ch.withMeter d else ch
      let ch := if natBit m 3 then { ch with node := d.f 40 2, weight := d.f 42 2 } else ch
      let s := (s.setChan i ch).leaveClass i
      let s := if moves then s.moveCapsules else s
      let s := if natBit m 2 && meterAlg ch.meterMode == 0 then s.releaseDeferred i else s
      s.done d St.OK

/-! ### CHAN_DESTROY (R110) -/

def chanDestroy (d : Desc) (s : State) : State :=
  s.checked d
    [(d.reservedZero [], St.GEN_FIELD),
     ((s.chanOf d.handle).isSome, St.CHAN_STALE_HANDLE),
     ((s.chan ((s.chanOf d.handle).getD 0)).st != .closing, St.CHAN_CLOSING)]
    fun s => s.defer d

def execChanDestroy (s : State) : Host.Outcome State Fault Refusal := .next (s.ringCmd Op.CHAN_DESTROY chanDestroy)

/-- The channel becomes CLOSING at its seam. -/
def State.chanDestroyNow (s : State) (d : Desc) : State :=
  match s.chanOf d.handle with
  | none => s.done d St.CHAN_STALE_HANDLE
  | some i =>
    if (s.chan i).st = .closing then s.done d St.CHAN_CLOSING
    else ((s.setChan i { s.chan i with st := .closing, destroy := some d, answered := 0, closedAt := s.now }).releaseDeferred i).moveCapsules

/-- A CLOSING channel whose last waybill has retired becomes FREE, not at the seam at which it became CLOSING: its generation advances,
its index joins the free list, and the opcode completes (R105, R106, R110). -/
def State.channelFree (s : State) (i : Nat) : State :=
  let ch := s.chan i
  if ch.st ≠ .closing ∨ s.now ≤ ch.closedAt ∨ s.inFlight i ≠ 0 then s
  else
    let s := { s with cmd := { s.cmd with caps := s.cmd.caps.map fun (c : Capsule) => if c.chan = some i then { c with chan := none } else c } }
    let s := s.setChan i { Chan.reset with gen := if ch.gen = 16383 then 1 else ch.gen + 1 }
    let s := { s with hst := { s.hst with chanFreed := s.hst.chanFreed ++ [i] } }
    let s := if ch.nsid = 0 then s else s.nsChangedTo (ch.nsid - 1) (· == ch.host)
    s.doneOpt ch.destroy St.OK ch.answered 0

/-- Channels that become FREE at one seam do so in ascending index order, and join the free list in it: the spec gives no order (DESIGN CHOICE,
log 121). -/
def State.freeChans (s : State) : State := s.liveChans.foldl State.channelFree s

/-- CHANNEL_FREE of channel index `c`, at a seam (R104, R110); within a tick a CLOSING channel stays CLOSING (log 122). -/
def execChannelFree (c : Fin 262144) (s : State) : Host.Outcome State Fault Refusal := .next (if s.changesRun then s.channelFree c.val else s)

/-! ### CHAN_QUERY and CHAN_LIST (R111) -/

/-- State codes of CHAN_QUERY. -/
def chanCode : ChanSt → Nat
  | .free => 0 | .opened => 1 | .suspended => 2 | .closing => 3

def chanQuery (d : Desc) (s : State) : State :=
  let i := (s.chanOf d.handle).getD 0
  let ch := s.chan i
  s.checked d
    [(d.reservedZero [], St.GEN_FIELD), ((s.chanOf d.handle).isSome, St.CHAN_STALE_HANDLE)]
    fun s => s.complete d St.OK (chanCode ch.st + 256 * ch.cls + 65536 * ch.cluster + 16777216 * ch.home + 4294967296 * s.inFlight i)
      (ch.host + 4294967296 * ch.nsid) 0

def execChanQuery (s : State) : Host.Outcome State Fault Refusal := .next (s.ringCmd Op.CHAN_QUERY chanQuery)

/-- The 8 B record of a channel. -/
def State.chanRecord (s : State) (i : Nat) : List Byte :=
  let ch := s.chan i
  leBytes 4 (s.handleOf i) ++ leBytes 1 (chanCode ch.st) ++ leBytes 1 ch.cls ++ leBytes 1 ch.cluster ++ [0]

/-- CHAN_LIST; `ok` tells whether the write of the buffer succeeds (R569). -/
def chanList (ok : Bool) (d : Desc) (s : State) : State :=
  let n := d.f 8 2
  let all := s.liveChans.filter fun i => decide (d.f 12 4 ≤ i)
  let is := all.take n
  s.checked d
    [(d.handle == 0 && d.reservedZero [(8, 2), (12, 4), (16, 8)] && d.aligned 16 8 && decide (d.f 12 4 < 262144), St.GEN_FIELD),
     (decide (1 ≤ n) && decide (n ≤ 4096), St.RING_FORMAT),
     (ok, St.GEN_DMA)]
    fun s =>
      let s := if is.isEmpty then s else s.emit (.hostWrite (d.f 16 8) (is.flatMap s.chanRecord))
      s.complete d St.OK is.length ((all.drop n).headD 0xFFFFFFFF) 0

def execChanList (ok : Bool) (s : State) : Host.Outcome State Fault Refusal := .next (s.ringCmd Op.CHAN_LIST (chanList ok))

end Sys2Proof.Machine
end

