-- ==== Sys2Proof/Machine/Bay.lean ====
section
/-!
DEFINITION. Bay power (13): the evaluator of the always-on domain, by the steps of Table 13-1, and BAY_POWER. What the evaluator
finds becomes visible to the drive fabric and as events at the seam that ends the tick (R398, R408).
-/

namespace Sys2Proof.Machine

open Sys2Proof

def State.pw (s : State) (b : Nat) : BayPw := Tab.rd (fun _ => BayPw.reset) s.pwr.bays b
def State.setPw (s : State) (b : Nat) (x : BayPw) : State := { s with pwr := { s.pwr with bays := Tab.wr (fun _ => BayPw.reset) s.pwr.bays b x } }
def State.updPw (s : State) (b : Nat) (f : BayPw → BayPw) : State := s.setPw b (f (s.pw b))

/-! ### Registers of a bay -/

/-- States of Table 13-2 beside INRUSH and ON. -/
def bayOff : Nat := 0
def bayRetry : Nat := 3
def bayLatched : Nat := 4
def bayDamaged : Nat := 5

def State.pwSt (s : State) (b : Nat) : Nat := s.fld (Reg.BAY_STATUS b) Fd.BAY_STATUS_STATE
def State.setPwSt (s : State) (b st : Nat) : State := s.setFld (Reg.BAY_STATUS b) Fd.BAY_STATUS_STATE st
def State.pwBit (s : State) (b : Nat) (f : Fld) : Bool := s.flag (Reg.BAY_STATUS b) f
def State.setPwBit (s : State) (b : Nat) (f : Fld) (v : Bool) : State := s.setFld (Reg.BAY_STATUS b) f (b2n v)

/-- Presence of a bay is confirmed (R401); its power-good (R397). -/
def State.bayPresent (s : State) (b : Nat) : Bool := s.pwBit b Fd.BAY_STATUS_PRESENT
def State.bayPg (s : State) (b : Nat) : Bool := s.pwBit b Fd.BAY_STATUS_PG

def State.setPresent (s : State) (b : Nat) (v : Bool) : State :=
  let r := Reg.BAY_PRESENT (b / 32)
  (s.setPwBit b Fd.BAY_STATUS_PRESENT v).wrReg r (BitVec.ofNat 32 (setNatBit (s.rd r).toNat (b % 32) v))

def State.setPg (s : State) (b : Nat) (v : Bool) : State :=
  let r := Reg.BAY_PG (b / 32)
  (s.setPwBit b Fd.BAY_STATUS_PG v).wrReg r (BitVec.ofNat 32 (setNatBit (s.rd r).toNat (b % 32) v))

/-- An event of bay power and a change for the drive fabric, due at the seam (R398, R408). -/
def State.pwEvent (s : State) (code v0 v1 v2 : Nat) : State := { s with pwr := { s.pwr with events := s.pwr.events ++ [(code, v0, v1, v2)] } }
def State.pwNote (s : State) (b cause : Nat) : State := { s with pwr := { s.pwr with notes := s.pwr.notes ++ [(b, cause)] } }

/-- The used points of a bay's curve as LIMIT and TIME, and its validity (R391). -/
def State.curve (s : State) (b : Nat) : List (Nat × Nat) :=
  (List.range 4).map fun j => (s.fld (Reg.BAY_CURVE b j) Fd.BAY_CURVE_LIMIT, s.fld (Reg.BAY_CURVE b j) Fd.BAY_CURVE_TIME)

/-- LIMIT rises and TIME falls from one point to the next. -/
def curveRuns : List (Nat × Nat) → Bool
  | [] => true
  | [_] => true
  | p :: q :: r => decide (p.1 < q.1) && decide (q.2 < p.2) && curveRuns (q :: r)

def curveOk (ilim : Nat) (c : List (Nat × Nat)) : Bool :=
  let used := c.takeWhile (·.1 != 0)
  !used.isEmpty && (c.drop used.length).all (·.1 == 0) && used.all (fun p => decide (1 ≤ p.2)) && curveRuns used
    && decide ((used.getLastD (0, 0)).1 < ilim)

def State.ilim (s : State) (b : Nat) : Nat := s.fld (Reg.BAY_FUSE b) Fd.BAY_FUSE_ILIM_ABS
def State.curveValid (s : State) (b : Nat) : Bool := curveOk (s.ilim b) (s.curve b)

/-- FULL, the end of the curve integrator (R392). -/
def curveFull : Nat := 16777216

/-- A after an evaluation in ON at current `i` (R392). -/
def curveStep (c : List (Nat × Nat)) (cool i a : Nat) : Nat :=
  match ((c.takeWhile (·.1 != 0)).filter fun p => decide (p.1 ≤ i)).getLast? with
  | some p => a + ceilDiv curveFull (8 * p.2)
  | none => a - ceilDiv curveFull (8 * cool)

/-- One stage of the thermal model after an evaluation at `p` mW (R393). -/
def thermStep (p r alpha : Nat) (th : Int) : Int :=
  let target := (((p * r : Nat) : Int) * 4294967296).tdiv 1000000
  th + ((target - th) * (alpha : Int)).tdiv 4294967296

/-- Tj with 32 fractional bits, and in 1/16 °C. -/
def State.tj (s : State) (b : Nat) : Int :=
  (s.fld Reg.BAY_GLB_CFG Fd.BAY_GLB_CFG_TA_C : Int) * 4294967296 + (s.pw b).th1 + (s.pw b).th2
def State.tj16 (s : State) (b : Nat) : Nat := ((s.tj b).tdiv 268435456 % 65536).toNat

/-- The modelled temperature is at or above `c` °C. -/
def State.hotterThan (s : State) (b c : Nat) : Bool := decide ((c : Int) * 4294967296 ≤ s.tj b)

/-- A dump or an orderly shutdown is in progress, from its order to step 8 of Table 14-3. -/
def State.dumpBusy (s : State) : Bool := s.itn.dumpDue != 0 && !s.itn.stopped

/-- Bays in INRUSH. -/
def State.inrushNow (s : State) : Nat := ((List.range 128).filter fun b => s.pwSt b == bayInrush).length

/-! ### Transitions of Table 13-2 -/

/-- The gate is commanded off and power-good cleared; the shared timer stops. -/
def State.gateOff (s : State) (b : Nat) : State :=
  let s0 := if s.pwBit b Fd.BAY_STATUS_EN then s.digest 5 [b, 0] else s
  ((s0.setPwBit b Fd.BAY_STATUS_EN false).setPg b false).updPw b fun x => { x with timer := 0, pgc := 0, offAge := if s.pwBit b Fd.BAY_STATUS_EN then 0 else x.offAge }

def State.setRetries (s : State) (b n : Nat) : State := s.setFld (Reg.BAY_STATUS b) Fd.BAY_STATUS_RETRIES n
def State.retries (s : State) (b : Nat) : Nat := s.fld (Reg.BAY_STATUS b) Fd.BAY_STATUS_RETRIES

/-- A held request is dropped. -/
def State.dropRequest (s : State) (b : Nat) : State :=
  ((s.setPwBit b Fd.BAY_STATUS_PENDING false).setPwBit b Fd.BAY_STATUS_COOL_WAIT false)

/-- The bay goes to OFF with RETRIES 0; `note` is the cause for the drive fabric. -/
def State.toOff (s : State) (b note reason : Nat) : State :=
  let st := s.pwSt b
  let s' := ((s.gateOff b).setPwSt b bayOff |>.setRetries b 0 |>.dropRequest b).updPw b fun x => { x with delay := 0 }
  let s' := s'.pwNote b note
  if st = bayInrush ∨ st = bayOn ∨ st = bayRetry ∨ (st = bayLatched ∧ reason = 2) then s'.pwEvent Ev.BAY_POWER_OFF b reason 0 else s'

/-- Every trip found is counted and sets LAST_TRIP (R387). -/
def State.countTrips (s : State) (b : Nat) (trips : List Nat) : State :=
  trips.foldl (fun (s : State) c => ((s.cntBay (c - 1) 1).satFld (Reg.BAY_FAULTS b) Fd.BAY_FAULTS_TRIPS 1).setFld (Reg.BAY_STATUS b) Fd.BAY_STATUS_LAST_TRIP c) s

/-- The retry delay in evaluations of 8 µs (R399): max(RETRY_DELAY, FT × (100 − DUTY) / DUTY). -/
def State.retryDelay (s : State) (b : Nat) : Nat :=
  let duty := s.fld (Reg.BAY_CFG b) Fd.BAY_CFG_DUTY
  max (125 * s.fld1 (Reg.BAY_RETRY b) Fd.BAY_RETRY_RETRY_DELAY) (ceilDiv ((s.pw b).fault * (100 - duty)) duty)

/-- A trip takes the bay to RETRY_WAIT or LATCHED. -/
def State.tripped (s : State) (b : Nat) : State :=
  if s.retries b < s.fld (Reg.BAY_CFG b) Fd.BAY_CFG_RETRY_MAX then
    let d := s.retryDelay b
    (((s.gateOff b).setPwSt b bayRetry).updPw b fun x => { x with delay := d }).pwNote b 3
  else (((s.gateOff b).setPwSt b bayLatched).cntBay 5 1).pwNote b 4

/-- A bay enters DAMAGED with a cause of Table 13-4. -/
def State.damaged (s : State) (b cause : Nat) : State :=
  let i := s.fld (Reg.BAY_MEAS b) Fd.BAY_MEAS_I_MA
  ((((s.gateOff b).setPwSt b bayDamaged).dropRequest b).setFld (Reg.BAY_STATUS b) Fd.BAY_STATUS_DMG_CAUSE cause).updPw b (fun x => { x with delay := 0 })
    |>.cntBay 6 1 |>.pwNote b 4 |>.pwEvent Ev.BAY_DAMAGED b cause i

/-- A power request (Table 13-2): held until the conditions of R389 are met. It is dropped without confirmed presence. -/
def State.request (s : State) (b : Nat) : State :=
  if s.pwSt b = bayOff ∧ s.bayPresent b then s.setPwBit b Fd.BAY_STATUS_PENDING true else s

/-- The start of inrush of a bay that asks for it: a held request, or a retry whose delay has elapsed. -/
def State.startInrush (s : State) (b : Nat) : State :=
  let st := s.pwSt b
  let asks := (st == bayOff && s.pwBit b Fd.BAY_STATUS_PENDING) || (st == bayRetry && (s.pw b).delay == 0)
  if !asks then s
  else
    let hot := s.hotterThan b (s.fld (Reg.BAY_TH_LIMIT b) Fd.BAY_TH_LIMIT_RESTART_C)
    let was := s.pwBit b Fd.BAY_STATUS_COOL_WAIT
    let s := s.setPwBit b Fd.BAY_STATUS_COOL_WAIT hot
    let s := if hot && !was then
        (s.cntBay 7 1).pwEvent Ev.BAY_COOL_WAIT b (s.tj16 b) (s.fld (Reg.BAY_TH_LIMIT b) Fd.BAY_TH_LIMIT_RESTART_C)
      else s
    if hot || !s.bayPresent b || !s.curveValid b || s.dumpBusy || decide (s.fld1 Reg.BAY_GLB_CFG Fd.BAY_GLB_CFG_INRUSH_BAYS ≤ s.inrushNow) then s
    else
      let s := if st = bayRetry then (s.setRetries b (s.retries b + 1)).cntBay 4 1 else s
      (((s.dropRequest b).digest 5 [b, 1]).setPwBit b Fd.BAY_STATUS_EN true).setPwSt b bayInrush |>.updPw b fun x =>
        { x with timer := 0, pgc := 0, fault := 0, age := 0, pgAge := 0, dmg3 := 0, dmg4 := 0 }

/-! ### The steps of Table 13-1 -/

/-- The measurement of R382 in mA and mV, from the codes of a sample. -/
def State.bayAmps (s : State) (b : Nat) (x : BaySample) : Nat := x.i % 4096 * s.fld1 (Reg.BAY_SENSE b) Fd.BAY_SENSE_IGAIN / 64
def State.bayVolts (s : State) (b : Nat) (x : BaySample) : Nat := x.v % 4096 * s.fld1 (Reg.BAY_SENSE b) Fd.BAY_SENSE_VGAIN / 64

def State.inrushMax (s : State) (b : Nat) : Nat := 8 * s.fld1 (Reg.BAY_INRUSH b) Fd.BAY_INRUSH_INRUSH_MAX

/-- Step 2 in INRUSH when the test of R390 fails: the timer counts, and at INRUSH_MAX the bay trips with cause 4. -/
def State.inrushFails (s : State) (b : Nat) : List Nat × State :=
  let s := s.updPw b fun x => { x with timer := x.timer + 1, fault := x.fault + 1, age := x.age + 1 }
  (if s.inrushMax b ≤ (s.pw b).timer then [4] else [], s)

/-- Step 2 in ON (R392). -/
def State.curveEval (s : State) (b i : Nat) : List Nat × State :=
  let a := curveStep (s.curve b) (s.fld1 (Reg.BAY_FUSE b) Fd.BAY_FUSE_COOL) i (s.pw b).timer
  (if curveFull ≤ a then [2] else [], s.updPw b fun x => { x with timer := min a curveFull, fault := if a = 0 then 0 else x.fault + 1 })

/-- Step 2: the shared timer. -/
def State.timerEval (s : State) (b i v : Nat) (gok : Bool) : List Nat × State :=
  let st := s.pwSt b
  if st = bayInrush then
    if gok && decide (s.fld (Reg.BAY_INRUSH b) Fd.BAY_INRUSH_PG_MV ≤ v) then
      ((s.setPwSt b bayOn).updPw b fun x => { x with timer := 0, pgc := 0, fault := 0, age := x.age + 1 }).curveEval b i
    else s.inrushFails b
  else if st = bayOn then (s.updPw b fun x => { x with age := x.age + 1 }).curveEval b i
  else ([], s)

/-- Step 3: the thermal model (R393), and its trip. -/
def State.modelEval (s : State) (b p : Nat) : List Nat × State :=
  let s := s.updPw b fun x => { x with
    th1 := thermStep p (s.fld (Reg.BAY_TH_R b) Fd.BAY_TH_R_R1) (s.fld (Reg.BAY_TH_ALPHA1 b) wordFld) x.th1
    th2 := thermStep p (s.fld (Reg.BAY_TH_R b) Fd.BAY_TH_R_R2) (s.fld (Reg.BAY_TH_ALPHA2 b) wordFld) x.th2 }
  let on := s.pwSt b == bayInrush || s.pwSt b == bayOn
  (if on && s.hotterThan b (s.fld (Reg.BAY_TH_LIMIT b) Fd.BAY_TH_LIMIT_TRIP_C) then [3] else [], s)

/-- Conditions of Table 13-4 for the present sample, cause 1 to 4. -/
def State.dmgCond (s : State) (b i v drop : Nat) (gok : Bool) (cause : Nat) : Bool :=
  let r := Reg.BAY_DMG b
  if cause = 1 then decide (10 * s.fld r Fd.BAY_DMG_IOFF_MAX ≤ i) || decide (10 * s.fld r Fd.BAY_DMG_VOFF_MAX ≤ v)
  else if cause = 2 then gok
  else if cause = 3 then !gok
  else decide (1000 ≤ i) && decide (i * s.fld1 r Fd.BAY_DMG_RON_MAX < drop * 1000)

/-- The checks of Table 13-4 are suspended for the bay of a rehearsal of kind 3, until OFF_SETTLE after it (15 Table 15-10). -/
def State.checksOff (s : State) (b : Nat) : Bool :=
  let last := s.fld Reg.PAIR_RHS_STATUS Fd.PAIR_RHS_STATUS_KIND == 3 && s.fld Reg.PAIR_RHS_STATUS Fd.PAIR_RHS_STATUS_INDEX == b
  s.straps.pairEn && last && (s.pair.rehearsal.isSome || !s.msSince s.pair.rhsTick (s.fld1 (Reg.BAY_RETRY b) Fd.BAY_RETRY_OFF_SETTLE))

/-- Step 4: the run of each check, and the first that holds. -/
def State.damageEval (s : State) (b i v drop : Nat) (gok : Bool) : Option Nat × State :=
  let en := s.pwBit b Fd.BAY_STATUS_EN
  let off := !en && decide (125 * s.fld1 (Reg.BAY_RETRY b) Fd.BAY_RETRY_OFF_SETTLE ≤ (s.pw b).offAge)
  let on := s.pwSt b == bayOn
  let run (armed : Bool) (c n : Nat) : Nat := if armed && !s.checksOff b && s.dmgCond b i v drop gok c then n + 1 else 0
  let s := s.updPw b fun x => { x with
    offAge := if en then 0 else x.offAge + 1
    dmg1 := run off 1 x.dmg1, dmg2 := run off 2 x.dmg2, dmg3 := run on 3 x.dmg3, dmg4 := run on 4 x.dmg4 }
  let n := s.fld1 (Reg.BAY_DMG b) Fd.BAY_DMG_DMG_EVALS
  let x := s.pw b
  (if n ≤ x.dmg1 then some 1 else if n ≤ x.dmg2 then some 2 else if n ≤ x.dmg3 then some 3 else if n ≤ x.dmg4 then some 4 else none, s)

/-- Step 5: power-good (R397), and the count of its 10 s (R400). -/
def State.pgEval (s : State) (b i : Nat) (clean : Bool) : State :=
  if s.pwSt b ≠ bayOn then s
  else if s.bayPg b then
    let s := s.updPw b fun x => { x with pgAge := x.pgAge + 1 }
    if (s.pw b).pgAge = 1250000 then s.setRetries b 0 else s
  else
    let x := s.pw b
    let good := clean && decide (x.timer < curveFull / 2) && decide (i < s.fld (Reg.BAY_CURVE b 0) Fd.BAY_CURVE_LIMIT)
    let s := s.updPw b fun x => { x with pgc := if good then x.pgc + 1 else 0 }
    if (s.pw b).pgc = 16 then
      (((s.setPg b true).updPw b fun x => { x with pgAge := 0 }).pwNote b 0).pwEvent Ev.BAY_POWER_GOOD b (8 * x.age) (s.retries b)
    else s

/-- Evaluations of the presence debounce (R401). -/
def debounceMax : Nat := 12500

/-- A presence change is confirmed. -/
def State.confirm (s : State) (b : Nat) (v : Bool) : State :=
  ((s.setPresent b v).updPw b fun x => { x with debounce := 0 }).pwEvent Ev.BAY_PRESENCE b (b2n v) 0

/-- Step 6: the debounce. Answers whether a change was confirmed. -/
def State.presenceEval (s : State) (b : Nat) (raw : Bool) : Bool × State :=
  let n := (s.pw b).debounce
  if raw = s.bayPresent b then
    (false, (if n = 0 then s else s.satFld (Reg.BAY_FAULTS b) Fd.BAY_FAULTS_PRS_GLITCHES 1).updPw b fun x => { x with debounce := 0 })
  else if n + 1 < debounceMax then (false, s.updPw b fun x => { x with debounce := n + 1 })
  else (true, s.confirm b raw)

/-- What a confirmed presence change does to the bay's power (R402). -/
def State.presenceAct (s : State) (b : Nat) : State :=
  if s.bayPresent b then (if s.flag (Reg.BAY_CFG b) Fd.BAY_CFG_AUTO_ON && !s.dumpBusy then s.request b else s)
  else
    let s := s.dropRequest b
    if [bayInrush, bayOn, bayRetry, bayLatched].contains (s.pwSt b) then s.toOff b 2 2 else (s.setRetries b 0).pwNote b 2

/-- The opcode of a command is due for completion. -/
def State.pwDone (s : State) (b : Nat) (d : Option Desc) (status : Nat) : State :=
  match d with
  | some d => s.updPw b fun x => { x with done := some (d, status) }
  | none => s

/-- A BAY_POWER command at step 7 (R405). `still`: the condition of the cause of a DAMAGED bay holds in this evaluation. -/
def State.commandEval (s : State) (b : Nat) (still : Bool) : State :=
  match (s.pw b).cmd with
  | none => s
  | some (op, off, d) =>
    let st := s.pwSt b
    let s := match (s.pw b).cycle with
      | some (_, e) => if op = 0 ∨ op = 2 then (s.updPw b fun x => { x with cycle := none }).pwDone b e St.OK else s
      | none => s
    let s := s.updPw b fun x => { x with cmd := none }
    let offNow (s : State) : State :=
      if st = bayInrush ∨ st = bayOn ∨ st = bayRetry then s.toOff b 1 1
      else if st = bayLatched then s.toOff b 1 1
      else (s.dropRequest b).setRetries b 0
    if op = 0 then (offNow s).pwDone b d St.OK
    else if op = 1 then (s.request b).pwDone b d St.OK
    else if op = 2 then (offNow s).updPw b fun x => { x with cycle := some (125 * off, d) }
    else if st = bayDamaged ∧ still then s.pwDone b d St.BAY_DAMAGE_PRESENT
    else if st = bayDamaged ∨ st = bayLatched then
      (((s.setPwSt b bayOff).setRetries b 0).setFld (Reg.BAY_STATUS b) Fd.BAY_STATUS_DMG_CAUSE 0).updPw b (fun x => { x with dmg1 := 0, dmg2 := 0, dmg3 := 0, dmg4 := 0 })
        |>.pwDone b d St.OK
    else s.pwDone b d St.OK

/-- The off time of a CYCLE has ended: the request is made. -/
def State.cycleEnd (s : State) (b : Nat) : State :=
  match (s.pw b).cycle with
  | some (_, d) => ((s.updPw b fun x => { x with cycle := none }).request b).pwDone b d St.OK
  | none => s

/-- The retry timer and the off time of a CYCLE count down at step 7; `fresh` when they were set in this evaluation. -/
def State.countdown (s : State) (b : Nat) : State :=
  let s := s.updPw b fun x => { x with delay := x.delay - 1 }
  match (s.pw b).cycle with
  | some (n, d) => if n ≤ 1 then s.cycleEnd b else s.updPw b fun x => { x with cycle := some (n - 1, d) }
  | none => s

/-- The outcome of an evaluation (R387): damage, removal, command, trip, in this order. BAY_TRIP carries the state that the bay goes to. -/
def State.resolve (s : State) (b : Nat) (trips : List Nat) (dmg : Option Nat) (presence still : Bool) : State :=
  let retries := s.retries b
  let s := s.countTrips b trips
  let s := s.countdown b
  let s := match dmg with | some c => if s.pwSt b = bayDamaged then s else s.damaged b c | none => s
  let s := if presence then s.presenceAct b else s
  let s := s.commandEval b still
  let s := if !trips.isEmpty && (s.pwSt b == bayInrush || s.pwSt b == bayOn) then s.tripped b else s
  trips.foldl (fun (s : State) c => s.pwEvent Ev.BAY_TRIP b c (retries + 256 * s.pwSt b)) s

/-- The measured values and the model become visible (BAY_MEAS, BAY_MODEL, BAY_STATUS, BAY_GLB_STATUS). -/
def State.pwShow (s : State) (b : Nat) : State :=
  let x := s.pw b
  ((s.setFld (Reg.BAY_MODEL b) Fd.BAY_MODEL_TJ (s.tj16 b)).setFld (Reg.BAY_MODEL b) Fd.BAY_MODEL_INTEG (x.timer / 256)).setPwBit b Fd.BAY_STATUS_CURVE_VALID (s.curveValid b)

def State.showInrush (s : State) : State := s.setFld Reg.BAY_GLB_STATUS Fd.BAY_GLB_STATUS_INRUSH_NOW s.inrushNow

/-- The state that an evaluation leaves for a standby's own samples: steps 1 to 6 without a decision, damage as a report (R407). -/
def State.bayShadow (s : State) (b i v p drop : Nat) (x : BaySample) : State :=
  let r2 := s.timerEval b i v x.gok
  let r3 := (r2.2.setPwSt b (s.pwSt b)).modelEval b p
  let r4 := r3.2.damageEval b i v drop x.gok
  let s := r4.2.setFld (Reg.BAY_STATUS b) Fd.BAY_STATUS_DMG_CAUSE (r4.1.getD 0)
  let good := r2.1.isEmpty && r3.1.isEmpty && r4.1.isNone && decide ((s.pw b).timer < curveFull / 2) && decide (i < s.fld (Reg.BAY_CURVE b 0) Fd.BAY_CURVE_LIMIT)
  let s := if s.pwSt b = bayOn ∧ ¬ s.bayPg b then s.updPw b fun y => { y with pgc := if good then y.pgc + 1 else 0 } else s
  if x.present = s.bayPresent b then s.updPw b fun y => { y with debounce := 0 }
  else if (s.pw b).debounce + 1 < debounceMax then s.updPw b fun y => { y with debounce := y.debounce + 1 }
  else (s.setPresent b x.present).updPw b fun y => { y with debounce := 0 }

/-- The bays that exist under DRV_CFG.MODE; BAY_PRS_N of another is unused (12 R363). -/
def State.bayExists (s : State) (b : Nat) : Bool := decide (b < s.bayCount)

/-- One bay of an evaluation, all but the start of inrush (Table 13-1, R386). -/
def State.bayEval (s : State) (b : Nat) (x : BaySample) : State :=
  let i := s.bayAmps b x
  let v := s.bayVolts b x
  let drop := s.fld Reg.ENV_VBUS Fd.ENV_VBUS_VBUS - v
  let p := drop * i / 1000
  let s := (s.setFld (Reg.BAY_MEAS b) Fd.BAY_MEAS_I_MA (min 0xFFFF i)).setFld (Reg.BAY_MEAS b) Fd.BAY_MEAS_V_MV (min 0xFFFF v)
  let x := { x with present := x.present && s.bayExists b }
  let s := (s.setPwBit b Fd.BAY_STATUS_GOK x.gok).setPwBit b Fd.BAY_STATUS_PRS_RAW x.present
  if !s.drives then (s.bayShadow b i v p drop x).pwShow b
  else
    let t1 := if (s.pwSt b == bayInrush || s.pwSt b == bayOn) && decide (s.ilim b ≤ i) then [1] else []
    let r2 := s.timerEval b i v x.gok
    let r3 := r2.2.modelEval b p
    let r4 := r3.2.damageEval b i v drop x.gok
    let trips := t1 ++ r2.1 ++ r3.1
    let r6 := (r4.2.pgEval b i (trips.isEmpty && r4.1.isNone)).presenceEval b x.present
    let cause := r6.2.fld (Reg.BAY_STATUS b) Fd.BAY_STATUS_DMG_CAUSE
    let still := decide (cause ≤ 2) && r6.2.dmgCond b i v drop x.gok cause
    (r6.2.resolve b trips r4.1 r6.1 still).pwShow b

/-- The starts of inrush of an evaluation, in ascending bay order (R389), and INRUSH_NOW. -/
def State.startAll (s : State) : State := (if !s.drives then s else (List.range 128).foldl State.startInrush s).showInrush

/-- A bay without a sample in the list reads zero codes, GOK low and no drive. -/
def BaySample.zero : BaySample := { i := 0, v := 0, gok := false, present := false }

/-! ### The steps on their own -/

/-- INRUSH_TIMEOUT of bay `b`: the evaluation at which the inrush timer reaches INRUSH_MAX (R390). -/
def execInrushTimeout (b : Fin 128) (s : State) : Host.Outcome State Fault Refusal :=
  .next (if s.pwSt b.val = bayInrush ∧ s.drives = true ∧ s.inrushMax b.val ≤ (s.pw b.val).timer + 1 then
      let r := s.inrushFails b.val
      ((r.2.resolve b.val r.1 none false false).pwShow b.val).startAll
    else s)

/-- PRESENCE_CONFIRM of bay `b`: the evaluation at which a presence change has held for 100 ms (R401). -/
def execPresenceConfirm (b : Fin 128) (s : State) : Host.Outcome State Fault Refusal :=
  .next (if s.pwBit b.val Fd.BAY_STATUS_PRS_RAW = s.bayPresent b.val ∨ (s.pw b.val).debounce + 1 < debounceMax then s
    else if !s.drives then (s.setPresent b.val !s.bayPresent b.val).updPw b.val fun y => { y with debounce := 0 }
    else ((s.confirm b.val !s.bayPresent b.val).presenceAct b.val).startAll)

/-- RETRY_DELAY_EXPIRE of bay `b`: the evaluation at which the retry delay ends (R399). -/
def execRetryDelayExpire (b : Fin 128) (s : State) : Host.Outcome State Fault Refusal :=
  .next (if s.pwSt b.val = bayRetry ∧ (s.pw b.val).delay ≤ 1 ∧ s.drives = true then (s.updPw b.val fun x => { x with delay := 0 }).startAll else s)

/-- RETRY_COUNT_RESET of bay `b`: power-good has stayed asserted for 10 s (R400). -/
def execRetryCountReset (b : Fin 128) (s : State) : Host.Outcome State Fault Refusal :=
  .next (if s.bayPg b.val ∧ 1250000 ≤ (s.pw b.val).pgAge + 1 ∧ s.drives = true then s.setRetries b.val 0 else s)

/-- BAY_CYCLE_OFF_EXPIRE of bay `b`: OFF_MS of a CYCLE has ended (R405). -/
def execBayCycleOffExpire (b : Fin 128) (s : State) : Host.Outcome State Fault Refusal :=
  .next (match (s.pw b.val).cycle with
    | some (n, _) => if n ≤ 1 then (s.cycleEnd b.val).startAll else s
    | none => s)

/-! ### BAY_POWER (R404, R405) -/

/-- BAY_POWER: the checks of Table 13-8; the command is committed at the next seam. -/
def bayPower (d : Desc) (s : State) : State :=
  let b := d.handle % 128
  let op := d.f 8 1
  let off := d.f 10 2
  let leds := decide (d.f 12 1 ≤ 3) && decide (d.f 13 1 ≤ 3)
  let ok := decide (d.handle < 128) && d.reservedZero [(8, 1), (10, 2), (12, 1), (13, 1)] && decide (op ≤ 4)
    && (if op = 2 then decide (100 ≤ off) && decide (off ≤ 60000) else off == 0) && (if op = 4 then leds else d.f 12 2 == 0)
  let st := s.pwSt b
  let on := op == 1 || op == 2
  if ok && s.bayExists b && op == 4 && s.flag (Reg.DRV_BAY_CFG b) Fd.DRV_BAY_CFG_SMBUS_EN then
    s.complete d St.CFG_CONFLICT (12 + 0xFF * 256) (Reg.DRV_BAY_CFG b) 0
  else
    s.checked d
      [(ok, St.GEN_FIELD),
       (s.bayExists b, St.BAY_NO_BAY),
       (!on || s.curveValid b, St.BAY_CURVE_INVALID),
       (!on || st != bayDamaged, St.BAY_DAMAGED_STATE),
       (op != 1 || st != bayLatched, St.GEN_STATE),
       (op != 1 || s.bayPresent b, St.BAY_NOT_PRESENT),
       (op != 3 || st == bayDamaged || st == bayLatched, St.GEN_STATE)]
      fun s => s.defer d

def execBayPower (s : State) : Host.Outcome State Fault Refusal := .next (s.ringCmd Op.BAY_POWER bayPower)

/-- RESULT0 of BAY_POWER: the state after the command, and PENDING. -/
def State.pwResult (s : State) (b : Nat) : Nat := s.pwSt b + 256 * b2n (s.pwBit b Fd.BAY_STATUS_PENDING)

/-- A BAY_POWER at its seam: LED patterns apply; another OP is for the first evaluation after the seam. -/
def State.bayPowerNow (s : State) (d : Desc) : State :=
  let b := d.handle % 128
  if d.f 8 1 = 4 then
    let s := (s.setFld (Reg.BAY_LED b) Fd.BAY_LED_LED0 (d.f 12 1)).setFld (Reg.BAY_LED b) Fd.BAY_LED_LED1 (d.f 13 1)
    s.complete d St.OK (s.pwResult b) 0 0
  else s.updPw b fun x => { x with cmd := some (d.f 8 1, d.f 10 2, some d) }

/-- The seam's part: opcodes complete, the drive fabric sees power-good and gate-off causes, and the events are raised (R398, R408). -/
def State.powerSeam (s : State) : State :=
  let s := (Tab.keys (fun x => x.done.isSome) s.pwr.bays).foldl (fun (s : State) b =>
    match (s.pw b).done with
    | some (d, st) => (s.updPw b fun x => { x with done := none }).complete d st (s.pwResult b) 0 0
    | none => s) s
  let s := s.pwr.notes.foldl (fun (s : State) (e : Nat × Nat) => if e.2 = 0 then s.bayPowerGood e.1 else s.bayGateOff e.1 e.2) s
  let s := s.pwr.events.foldl (fun (s : State) (e : Nat × Nat × Nat × Nat) => s.raise e.1 e.2.1 e.2.2.1 e.2.2.2) s
  { s with pwr := { s.pwr with events := [], notes := [] } }

/-- Core 3 commands every bay OFF (14 R415); an opcode whose command has not reached its evaluation ends with it. -/
def State.allBaysOff (s : State) : State :=
  (List.range 128).foldl (fun (s : State) b =>
    if s.pwSt b = bayOff then s
    else s.updPw b fun x => { x with cmd := some (0, 0, match x.cmd with | some (_, _, d) => d | none => none) }) s

end Sys2Proof.Machine
end

