-- ==== Sys2Proof/Machine/Env.lean ====
section
/-!
DEFINITION. The shelf environment (14): sensors, the fan loop, the holdup bank, power failure, and the evaluation period of the
always-on domain, which samples the bays and the environment inputs (13 R385, 14 R409).
-/

namespace Sys2Proof.Machine

open Sys2Proof

/-! ### Temperatures (R410, R411) -/

/-- log2 of `a / b` in 2^-48: the whole part is found by shifting, the rest by squaring (`m` is a number of [1, 2) in 2^-64). -/
def log2Frac : Nat → Nat → Nat → Nat
  | 0, _, acc => acc
  | n + 1, m, acc =>
    let q := m * m / 2 ^ 64
    if 2 ^ 65 ≤ q then log2Frac n (q / 2) (2 * acc + 1) else log2Frac n q (2 * acc)

/-- ln(a / b) in 2^-48, from ln 2 = 12786308645202655660 / 2^64. -/
def lnFix (a b : Nat) : Int :=
  let e : Int := (a.log2 : Int) - b.log2
  let m := if a.log2 ≥ b.log2 then a * 2 ^ 64 / (b * 2 ^ (a.log2 - b.log2)) else a * 2 ^ (64 + b.log2 - a.log2) / b
  let r : Int × Nat := if m < 2 ^ 64 then (e - 1, m * 2) else (e, m)
  ((r.1 * 2 ^ 48 + log2Frac 48 r.2 0) * 12786308645202655660) / 2 ^ 64

/-- Samples of a thermistor in a loop period. -/
def thermSamples : Nat := 2500

/-- T of R410 in 1/16 °C, truncated; none when the formula divides by zero. -/
def thermTemp (rpull r25 beta sum : Nat) : Option Int :=
  let l := lnFix (rpull * sum) ((4095 * thermSamples - sum) * r25)
  let den : Int := 20 * beta * 2 ^ 48 + 5963 * l
  let num : Int := 5963 * beta * 2 ^ 48
  if den = 0 then none else some ((80 * num - 21852 * den).tdiv (5 * den))

def toI16 (v : Int) : Nat := (v % 65536).toNat

/-- A 16-bit two's complement field value. -/
def ofI16 (v : Nat) : Int := if v < 32768 then v else (v : Int) - 65536

/-! ### Levels (R415) -/

/-- Threshold of a sensor's class in one of the three limit registers: ENV_TEMP_TGT, ENV_TEMP_WARN, ENV_TEMP_CRIT. -/
def tempField (sensor : Nat) : Fld :=
  if sensor < 8 then Fd.ENV_TEMP_TGT_THERM else if sensor < 0x200 then Fd.ENV_TEMP_TGT_DRIVE else Fd.ENV_TEMP_TGT_DIE

/-- The threshold in 1/16 °C. -/
def State.tempLimit (s : State) (reg sensor : Nat) : Int := 16 * (s.fld reg (tempField sensor) : Int)

/-- The level after a reading: it rises at a threshold, and falls 2 °C below it. -/
def levelOf (old : Nat) (t warn crit : Int) : Nat :=
  if crit ≤ t ∨ (old = 2 ∧ crit - 32 < t) then 2
  else if warn ≤ t ∨ (1 ≤ old ∧ warn - 32 < t) then 1 else 0

def State.sensLevel (s : State) (k : Nat) : SensLevel := Tab.rd (fun _ => { level := 0, crit := 0 }) s.env.levels k
def State.setSens (s : State) (k : Nat) (x : SensLevel) : State :=
  { s with env := { s.env with levels := Tab.wr (fun _ => { level := 0, crit := 0 }) s.env.levels k x } }

/-- A sensor's reading of a loop step: its level, its run at critical, and ENV_TEMP on a change. -/
def State.sense (s : State) (k : Nat) (t : Int) : State :=
  let x := s.sensLevel k
  let l := levelOf x.level t (s.tempLimit Reg.ENV_TEMP_WARN k) (s.tempLimit Reg.ENV_TEMP_CRIT k)
  let s := s.setSens k { level := l, crit := if l = 2 then x.crit + 1 else 0 }
  if l = x.level then s else s.raise Ev.ENV_TEMP k l (toI16 t)

/-- Thermistor `i` of a loop step: its conversion, its failure, its level (R410). A thermistor that fails keeps no run at critical. -/
def State.thermStep (s : State) (i sum : Nat) : State :=
  if !s.flag (Reg.ENV_THERM_CFG i) Fd.ENV_THERM_CFG_PRESENT then s
  else
    let r := Reg.ENV_THERM_TEMP i
    let was := s.flag r Fd.ENV_THERM_TEMP_FAILED
    let bad := decide (sum < 16 * thermSamples) || decide (4079 * thermSamples < sum)
    let s := s.setFld r Fd.ENV_THERM_TEMP_FAILED (b2n bad)
    if bad then
      let s := s.setSens i { s.sensLevel i with crit := 0 }
      if was then s else (s.cntEnv 7 1).raise Ev.ENV_TEMP i 3 (s.fld r Fd.ENV_THERM_TEMP_TEMP)
    else
      let t := thermTemp (s.fld1 Reg.ENV_THERM_PULL Fd.ENV_THERM_PULL_RPULL) (s.fld1 (Reg.ENV_THERM_CFG i) Fd.ENV_THERM_CFG_R25)
        (s.fld1 (Reg.ENV_THERM_CFG i) Fd.ENV_THERM_CFG_BETA) sum
      let (v, s) := match t with | some t => (toI16 t, s) | none => let d := s.draw; (d.1 % 65536, d.2)
      let s := (s.setFld r Fd.ENV_THERM_TEMP_TEMP v).sense i (ofI16 v)
      s.setFld r Fd.ENV_THERM_TEMP_LEVEL (s.sensLevel i).level

/-- Valid thermistors. -/
def State.validTherms (s : State) : List Nat :=
  (List.range 8).filter fun i => s.flag (Reg.ENV_THERM_CFG i) Fd.ENV_THERM_CFG_PRESENT && !s.flag (Reg.ENV_THERM_TEMP i) Fd.ENV_THERM_TEMP_FAILED

def State.thermT (s : State) (i : Nat) : Int := ofI16 (s.fld (Reg.ENV_THERM_TEMP i) Fd.ENV_THERM_TEMP_TEMP)

/-- The largest of a list. -/
def maxInt : List Int → Option Int
  | [] => none
  | x :: xs => some (xs.foldl max x)

/-- Drives whose composite temperature counts: ONLINE, read within 5 s (R411); a temperature in K is taken as K − 273 °C. -/
def State.validDrives (s : State) : List Nat :=
  (List.range 128).filter fun b => s.online b && (match (s.bay b).tempTick with | some t => !s.msSince t 5001 | none => false)

def State.driveT (s : State) (b : Nat) : Int := 16 * (((s.bay b).temp : Int) - 273)

/-- The valid sensors of the loop, as sensor and temperature. -/
def State.sensors (s : State) : List (Nat × Int) :=
  s.validTherms.map (fun i => (i, s.thermT i)) ++ s.validDrives.map (fun b => (0x100 + b, s.driveT b))
    ++ [(0x200, ofI16 (s.fld Reg.ENV_TEMPS Fd.ENV_TEMPS_DIE))]

/-- The shelf temperature crosses the threshold of Feature 0x04 of a controller, which is in K (R411; 08 Table 8-11). -/
def State.shelfEvents (s : State) : State :=
  let t := ofI16 (s.fld Reg.ENV_TEMPS Fd.ENV_TEMPS_SHELF)
  (s.nvmCtrls fun _ => true).foldl (fun (s : State) k =>
    let hot := decide (16 * (((s.ctrl k).feat 0x04 : Int) - 273) ≤ t)
    let s' := s.updCtrl k fun c => { c with hot := hot }
    if hot && !(s.ctrl k).hot then s'.aev { typ := 1, info := 1, page := 0x02 } k else s') s

/-! ### Fans (R413, R414) -/

def State.fanRun (s : State) (f : Nat) : Nat := Tab.rd (fun _ => 0) s.env.fans f
def State.setFanRun (s : State) (f n : Nat) : State := { s with env := { s.env with fans := Tab.wr (fun _ => 0) s.env.fans f n } }

def State.fanFailed (s : State) (f : Nat) : Bool := s.flag (Reg.ENV_FAN_STATUS f) Fd.ENV_FAN_STATUS_FAILED
def State.fanRpm (s : State) (f : Nat) : Nat := s.fld (Reg.ENV_FAN_STATUS f) Fd.ENV_FAN_STATUS_RPM
def State.fanSlow (s : State) (f : Nat) : Bool := decide (s.fanRpm f < s.fld (Reg.ENV_FAN_CFG f) Fd.ENV_FAN_CFG_TACH_MIN)

/-- Steps of R414. -/
def fanSteps : Nat := 30

/-- A fan changes between FAILED and not (R414). -/
def State.fanSet (s : State) (f : Nat) (bad : Bool) : State :=
  let s := (s.setFld (Reg.ENV_FAN_STATUS f) Fd.ENV_FAN_STATUS_FAILED (b2n bad)).setFanRun f 0
  (if bad then s.cntEnv 3 1 else s).raise Ev.ENV_FAN f (b2n bad) (s.fanRpm f)

/-- This step counts towards a change of fan `f`: below TACH_MIN at a duty of 307 or more, or, when FAILED, not below it. -/
def State.fanAsks (s : State) (f : Nat) : Bool :=
  if s.fanFailed f then !s.fanSlow f else s.fanSlow f && decide (307 ≤ s.fld Reg.ENV_STATUS Fd.ENV_STATUS_DUTY)

/-- A step of fan `f` with its pulses per minute. -/
def State.fanStep (s : State) (f pulses : Nat) : State :=
  if !s.flag (Reg.ENV_FAN_CFG f) Fd.ENV_FAN_CFG_PRESENT then s
  else
    let rpm := pulses / s.fld1 (Reg.ENV_FAN_CFG f) Fd.ENV_FAN_CFG_PULSES
    let s := s.setFld (Reg.ENV_FAN_STATUS f) Fd.ENV_FAN_STATUS_RPM (min 0xFFFF rpm)
    if !s.fanAsks f then s.setFanRun f 0
    else if s.fanRun f + 1 < fanSteps then s.setFanRun f (s.fanRun f + 1)
    else s.fanSet f !s.fanFailed f

/-- FAN_FAIL of fan `f`: the step at which it has been below TACH_MIN for 30 steps. -/
def execFanFail (f : Fin 12) (s : State) : Host.Outcome State Fault Refusal :=
  .next (if s.flag (Reg.ENV_FAN_CFG f.val) Fd.ENV_FAN_CFG_PRESENT && !s.fanFailed f.val && s.fanAsks f.val && decide (fanSteps ≤ s.fanRun f.val + 1)
    then s.fanSet f.val true else s)

/-- FAN_RESTORE of fan `f`: the step at which a failed fan has been at or above TACH_MIN for 30 steps. -/
def execFanRestore (f : Fin 12) (s : State) : Host.Outcome State Fault Refusal :=
  .next (if s.flag (Reg.ENV_FAN_CFG f.val) Fd.ENV_FAN_CFG_PRESENT && s.fanFailed f.val && s.fanAsks f.val && decide (fanSteps ≤ s.fanRun f.val + 1)
    then s.fanSet f.val false else s)

def percent (p : Nat) : Nat := p * 1024 / 100

/-- A condition of R413 holds. -/
def State.floorFail (s : State) : Bool :=
  (List.range 12).any (fun f => s.flag (Reg.ENV_FAN_CFG f) Fd.ENV_FAN_CFG_PRESENT && s.fanFailed f)
    || (List.range 8).any (fun i => s.flag (Reg.ENV_THERM_CFG i) Fd.ENV_THERM_CFG_PRESENT && s.flag (Reg.ENV_THERM_TEMP i) Fd.ENV_THERM_TEMP_FAILED)
    || s.sensors.isEmpty || s.sensors.any (fun e => decide (s.tempLimit Reg.ENV_TEMP_WARN e.1 ≤ e.2))

def State.floor (s : State) : Nat :=
  percent (if s.floorFail then s.fld Reg.ENV_CFG Fd.ENV_CFG_FAIL_DUTY else s.fld Reg.ENV_CFG Fd.ENV_CFG_DUTY_MIN)

/-! ### The holdup bank (R419 to R422) -/

/-- Bays in ON, each with VBUS × I in µW. -/
def State.onPower (s : State) : List Nat :=
  ((List.range 128).filter fun b => s.pwSt b == bayOn).map fun b => s.fld Reg.ENV_VBUS Fd.ENV_VBUS_VBUS * s.fld (Reg.BAY_MEAS b) Fd.BAY_MEAS_I_MA

def State.pBase (s : State) : Nat := s.fld Reg.ENV_HOLD_POWER Fd.ENV_HOLD_POWER_P_BASE * 1000000

/-- P_shelf and P_hold in µW (R421). -/
def State.pShelf (s : State) : Nat := s.onPower.foldl (· + ·) s.pBase
def State.pHold (s : State) : Nat :=
  s.onPower.foldl (fun a p => a + max p (s.fld Reg.ENV_HOLD_POWER Fd.ENV_HOLD_POWER_DRV_DUMP_W * 1000000)) s.pBase

/-- E_avail in mJ (R420). -/
def State.eAvail (s : State) : Nat :=
  let v := s.fld Reg.ENV_HOLD_STATUS Fd.ENV_HOLD_STATUS_V
  let m := s.fld Reg.ENV_HOLD_V Fd.ENV_HOLD_V_V_MIN
  s.fld Reg.ENV_HOLD_CFG Fd.ENV_HOLD_CFG_C_MF * (v * v - m * m) * s.fld Reg.ENV_HOLD_CFG Fd.ENV_HOLD_CFG_EFF / 200000000

/-- T_hold in µs (Table 14-2). -/
def State.tHold (s : State) : Nat :=
  let rate := s.fld1 Reg.ENV_DUMP_RATE Fd.ENV_DUMP_RATE_RATE
  let wlat := s.fld Reg.ENV_DUMP_RATE Fd.ENV_DUMP_RATE_WLAT
  let peak := s.env.journal.foldl (fun a (e : Nat × Nat) => max a e.2) 0
  let chunks := ceilDiv (ceilDiv s.dirtyEff 32) s.memberBays.length
  (s.fld1 Reg.ENV_DUMP_TIMING Fd.ENV_DUMP_TIMING_PF_FILTER + 4) + (wlat + ceilDiv (4096 + peak * 64 + 262144) rate)
    + (wlat + ceilDiv (chunks * 135168) rate) + (wlat + ceilDiv 4096 rate) + s.fld Reg.ENV_DUMP_TIMING Fd.ENV_DUMP_TIMING_FLUSH_US

/-- E_req in mJ. -/
def State.eReq (s : State) : Nat :=
  ceilDiv (s.pHold * s.tHold * (100 + s.fld Reg.ENV_HOLD_CFG Fd.ENV_HOLD_CFG_MARGIN)) (100000 * 1000000)

def State.holdFault (s : State) : Bool := s.flag Reg.ENV_HOLD_STATUS Fd.ENV_HOLD_STATUS_FAULT

/-- ENV_HOLD with its values. -/
def State.holdEvent (s : State) : State :=
  s.raise Ev.ENV_HOLD (s.fld Reg.ENV_HOLD_STATUS Fd.ENV_HOLD_STATUS_READY) (b2n s.holdFault) (s.fld Reg.ENV_HOLD_EAVAIL wordFld)

/-- READY follows the figures of the last loop step and FAULT (R422); `always` raises ENV_HOLD even without a change. -/
def State.readyUpdate (s : State) (always : Bool) : State :=
  let was := s.fld Reg.ENV_HOLD_STATUS Fd.ENV_HOLD_STATUS_READY
  let now_ := b2n (!s.holdFault && decide (s.fld Reg.ENV_HOLD_EREQ wordFld ≤ s.fld Reg.ENV_HOLD_EAVAIL wordFld))
  let s := s.setFld Reg.ENV_HOLD_STATUS Fd.ENV_HOLD_STATUS_READY now_
  if always || was != now_ then s.holdEvent else s

/-- A power-loss dump, or the dump after a fatal error, runs: the charger is off (R419). An orderly shutdown keeps it running (R428). -/
def State.lossDump (s : State) : Bool := s.dumpBusy && s.itn.dumpDue != 2

def State.setCharge (s : State) (on : Bool) : State :=
  let s := s.setFld Reg.ENV_HOLD_STATUS Fd.ENV_HOLD_STATUS_CHG_EN (b2n on)
  { s with env := { s.env with chargeTick := if on then some (s.env.chargeTick.getD s.now) else none } }

/-- HOLD_CHG_EN by the bank voltage (R419); a controller that is not active drives none (R418). -/
def State.chargerSwitch (s : State) : State :=
  let v := s.fld Reg.ENV_HOLD_STATUS Fd.ENV_HOLD_STATUS_V
  let on := s.flag Reg.ENV_HOLD_STATUS Fd.ENV_HOLD_STATUS_CHG_EN
  if !s.drives || s.holdFault || s.env.low || s.lossDump || decide (s.fld Reg.ENV_HOLD_V Fd.ENV_HOLD_V_V_OFF ≤ v) then s.setCharge false
  else s.setCharge (on || decide (v ≤ s.fld Reg.ENV_HOLD_CHG Fd.ENV_HOLD_CHG_V_ON))

/-- The charger has been enabled for CHG_TIMEOUT without reaching V_OFF: FAULT (R419). -/
def State.chargerTimeout (s : State) : State :=
  match s.env.chargeTick with
  | some t =>
    if s.msSince t (1000 * s.fld1 Reg.ENV_HOLD_CHG Fd.ENV_HOLD_CHG_CHG_TIMEOUT)
        && decide (s.fld Reg.ENV_HOLD_STATUS Fd.ENV_HOLD_STATUS_V < s.fld Reg.ENV_HOLD_V Fd.ENV_HOLD_V_V_OFF) then
      (((s.setFld Reg.ENV_HOLD_STATUS Fd.ENV_HOLD_STATUS_FAULT 1).setCharge false).cntEnv 5 1).readyUpdate true
    else s
  | none => s

/-- CHARGER_TIMEOUT. -/
def execChargerTimeout (s : State) : Host.Outcome State Fault Refusal := .next s.chargerTimeout

/-- FAULT is cleared and charging resumes below V_OFF (R419). -/
def State.holdClear (s : State) : State :=
  if !s.holdFault then s
  else
    let s := s.setFld Reg.ENV_HOLD_STATUS Fd.ENV_HOLD_STATUS_FAULT 0
    ((s.setCharge (decide (s.fld Reg.ENV_HOLD_STATUS Fd.ENV_HOLD_STATUS_V < s.fld Reg.ENV_HOLD_V Fd.ENV_HOLD_V_V_OFF))).chargerSwitch).readyUpdate false

/-- HOLD_FAULT_CLEAR: a write of ENV_HOLD_STATUS with FAULT 1; it stays writable after GLB_LOCK. -/
def execHoldFaultClear (w : Word) (s : State) : Host.Outcome State Fault Refusal :=
  .next (s.hostWrite Reg.ENV_HOLD_STATUS fun s => if Fd.ENV_HOLD_STATUS_FAULT.get w = 1 then s.holdClear else s)

/-! ### The fan loop (R412, R416, R417) -/

/-- An integrator step (R412 step 2). -/
def integStep (integ ki prev floor : Nat) (e : Int) : Nat :=
  let d := ((ki : Int) * e).tdiv 16
  if (0 < d ∧ prev = 1024) ∨ (d < 0 ∧ prev = floor) then integ
  else (max 0 (min 65536 ((integ : Int) + d))).toNat

/-- u of R412 step 4, with P_shelf in µW. -/
def loopU (ff p kp integ : Nat) (e : Int) : Int :=
  ((32 * ff * p : Nat) + 20 * 1000000 * ((kp : Int) * e) + 5 * 1000000 * (integ : Int)).tdiv (320 * 1000000)

/-- Limits of R412 steps 5 and 6. -/
def limitU (u : Int) (floor prev slew : Nat) : Nat :=
  let u := (max (floor : Int) (min 1024 u)).toNat
  if u + slew < prev then prev - slew else u

/-- A duty is written to the PWM block; after a stall, core 3 reports its length (R417). -/
def State.writeDuty (s : State) (u : Nat) : State :=
  let ms := (s.now - s.env.dutyTick) * 1024 / 1000000
  let stalled := s.env.stalled
  let s := (s.setFld Reg.ENV_STATUS Fd.ENV_STATUS_DUTY u)
  let s := { s with env := { s.env with dutyTick := s.now, stalled := false } }
  if stalled then s.raise Ev.ENV_LOOP_STALL ms 0 0 else s

/-- The excess of the hottest sensor over its target, in 1/16 °C (R412 step 1). -/
def State.loopError (s : State) : Option Int := maxInt (s.sensors.map fun e => e.2 - s.tempLimit Reg.ENV_TEMP_TGT e.1)

/-- The duty of the step: steps 1 to 7 of R412, with R416. -/
def State.dutyStep (s : State) : State :=
  let e := s.loopError.getD 0
  let floor := s.floor
  let integ := if s.env.manual.isSome then 0
    else integStep s.env.integ (s.fld Reg.ENV_LOOP_GAIN Fd.ENV_LOOP_GAIN_KI) s.env.prev floor e
  let auto := loopU (s.fld Reg.ENV_LOOP_FF Fd.ENV_LOOP_FF_FF_GAIN) s.pShelf (s.fld Reg.ENV_LOOP_GAIN Fd.ENV_LOOP_GAIN_KP) integ e
  let warm := s.sensors.any fun x => decide (s.tempLimit Reg.ENV_TEMP_WARN x.1 ≤ x.2)
  let want : Int := match s.env.manual with
    | some d => if warm then max (d : Int) auto else d
    | none => auto
  let u := limitU want floor s.env.prev (s.fld1 Reg.ENV_LOOP_FF Fd.ENV_LOOP_FF_SLEW_DN)
  let s := { s with env := { s.env with integ := integ, prev := u } }
  let s := (s.setFld Reg.ENV_STATUS Fd.ENV_STATUS_FLOOR_FAIL (b2n s.floorFail)).setFld Reg.ENV_STATUS Fd.ENV_STATUS_MANUAL (b2n s.env.manual.isSome)
  if !s.drives then s
  else s.writeDuty (if s.lossDump then percent (s.fld Reg.ENV_CFG Fd.ENV_CFG_DUMP_DUTY) else u)

/-- The figures of R420 to R422. -/
def State.holdStep (s : State) : State :=
  let journal : List (Nat × Nat) := ((s.now, s.journalUse) :: s.env.journal).filter fun (e : Nat × Nat) => !s.msSince e.1 10001
  let s : State := { s with env := { s.env with journal := journal } }
  let s := s.setFld Reg.ENV_HOLD_EAVAIL wordFld s.eAvail
  let s := s.setFld Reg.ENV_HOLD_THOLD wordFld s.tHold
  let s := s.setFld Reg.ENV_HOLD_PHOLD wordFld (s.pHold / 1000000)
  let s := s.setFld Reg.ENV_HOLD_EREQ wordFld (min 0xFFFFFFFF s.eReq)
  let s := s.readyUpdate false
  if s.fld Reg.ENV_HOLD_STATUS Fd.ENV_HOLD_STATUS_READY = 0 then s.cntEnv 6 1 else s

/-- ENV_SET OP 0 and OP 1 take effect at the step and complete after it (R427). -/
def State.setNow (s : State) : State :=
  s.env.setDue.foldl (fun (s : State) (e : Option Nat × Desc) =>
    ({ s with env := { s.env with manual := e.1, integ := 0 } }).done e.2 St.OK) { s with env := { s.env with setDue := [] } }

/-- A dump is ordered: 1 power loss, 2 orderly shutdown, 3 fatal error. One in progress or ended is not ordered again (R426). -/
def State.orderDump (s : State) (why : Nat) : State :=
  if s.itn.dumpDue ≠ 0 ∨ s.itn.stopped then s else { s with itn := { s.itn with dumpDue := why } }

/-- A thermistor or the die sensor has been critical for `n` steps and CRIT_SHUTDOWN is 1 (R415). -/
def State.critFor (s : State) (n : Nat) : Bool :=
  s.flag Reg.ENV_CFG Fd.ENV_CFG_CRIT_SHUTDOWN && ((List.range 8) ++ [0x200]).any fun k => decide (n ≤ (s.sensLevel k).crit)

/-- The orderly shutdown of R415. -/
def State.critShutdown (s : State) : State :=
  if !s.drives || s.itn.dumpDue != 0 || s.itn.stopped then s
  else { s.orderDump 2 with env := { s.env with critical := true } }

/-- CRITICAL_TEMP_SHUTDOWN: the step at which a thermistor or the die has been critical for 100 steps. -/
def execCriticalTempShutdown (s : State) : Host.Outcome State Fault Refusal := .next (if s.critFor 99 then s.critShutdown else s)

/-- FAN_LOOP_STEP: the 100 ms step of core 3. -/
def State.fanLoop (s : State) (x : EnvSample) : State :=
  if s.mgt.core3Down then s
  else
    let s := s.setNow
    let s := (List.range 8).foldl (fun (s : State) i => s.thermStep i (x.therms.getD i 0)) s
    let s := s.setFld Reg.ENV_TEMPS Fd.ENV_TEMPS_DIE (toI16 x.die)
    let s := match maxInt (s.validTherms.map s.thermT) with
      | some t => s.setFld Reg.ENV_TEMPS Fd.ENV_TEMPS_SHELF (toI16 t)
      | none => s
    let s := s.validDrives.foldl (fun (s : State) b => s.sense (0x100 + b) (s.driveT b)) s
    let s := s.sense 0x200 (ofI16 (toI16 x.die))
    let s := s.shelfEvents
    let s := (List.range 12).foldl (fun (s : State) f => s.fanStep f (x.pulses.getD f 0)) s
    let s := if s.critFor 100 then s.critShutdown else s
    s.dutyStep.holdStep

def execFanLoopStep (x : EnvSample) (s : State) : Host.Outcome State Fault Refusal := .next (s.fanLoop x)

/-- PWM_LOOP_STALL: core 3 has written no duty for 1 s (R417). -/
def execPwmLoopStall (s : State) : Host.Outcome State Fault Refusal :=
  .next (if s.msSince s.env.dutyTick 1000 && !s.env.stalled && s.drives then
      let s := (((s.setFld Reg.ENV_STATUS Fd.ENV_STATUS_STALL 1).setFld Reg.ENV_STATUS Fd.ENV_STATUS_DUTY (percent (s.fld Reg.ENV_CFG Fd.ENV_CFG_FAIL_DUTY))).cntEnv 4 1)
      { s with env := { s.env with stalled := true } }
    else s)

/-! ### Power failure (R423) and ENV_SET (R427) -/

/-- POWER_FAIL_LATCH: PWR_FAIL_N has been low for PF_FILTER µs. -/
def State.powerFail (s : State) : State :=
  let s := { s with env := { s.env with low := true, highTick := none } }
  let s := s.setFld Reg.ENV_HOLD_STATUS Fd.ENV_HOLD_STATUS_PF 1
  let s := if s.itn.dumpDue != 0 || s.itn.stopped then s
    else (s.orderDump 1).setFld Reg.ENV_STATUS Fd.ENV_STATUS_DUTY (percent (s.fld Reg.ENV_CFG Fd.ENV_CFG_DUMP_DUTY))
  s.chargerSwitch

def execPowerFailLatch (s : State) : Host.Outcome State Fault Refusal := .next s.powerFail

/-- INPUT_POWER_RETURN: PWR_FAIL_N rises. A pulse that was not latched is counted; otherwise the wait of R426 begins. -/
def execInputPowerReturn (s : State) : Host.Outcome State Fault Refusal :=
  .next (if s.env.low then ({ s with env := { s.env with low := false, highTick := some s.now } }).chargerSwitch else s.cntEnv 0 1)

/-- ENV_SET. -/
def envSet (d : Desc) (s : State) : State :=
  let op := d.f 8 1
  let duty := d.f 10 2
  s.checked d
    [(d.handle == 0 && d.reservedZero [(8, 1), (10, 2)] && decide (op ≤ 2) && decide (duty ≤ 1024) && (op == 1 || duty == 0), St.GEN_FIELD),
     (op != 2 || (s.itn.dumpDue == 0 && !s.itn.stopped), St.ENV_DUMP_ACTIVE)]
    fun s =>
      if op = 2 then { s.orderDump 2 with env := { s.env with shutdown := some d } }
      else { s with env := { s.env with setDue := s.env.setDue ++ [(if op = 1 then some duty else none, d)] } }

def execEnvSet (s : State) : Host.Outcome State Fault Refusal := .next (s.ringCmd Op.ENV_SET envSet)

/-! ### The evaluation period (13 R385) -/

/-- BAY_EVALUATION: the environment's voltages and every bay, with the samples of the period; a fall of the bank below V_MIN before the
dump headers are written makes a dump incomplete (R425). -/
def State.evaluation (s : State) (vbus hold : Nat) (bays : List BaySample) : State :=
  let s := s.setFld Reg.ENV_VBUS Fd.ENV_VBUS_VBUS (min 0xFFFF (vbus * s.fld1 Reg.ENV_SENSE Fd.ENV_SENSE_VBUS_GAIN / 64))
  let s := s.setFld Reg.ENV_HOLD_STATUS Fd.ENV_HOLD_STATUS_V (min 0xFFFF (hold * s.fld1 Reg.ENV_SENSE Fd.ENV_SENSE_HOLD_GAIN / 64))
  let s := match s.env.dump with
    | some x => if x.phase < 3 ∧ s.fld Reg.ENV_HOLD_STATUS Fd.ENV_HOLD_STATUS_V < s.fld Reg.ENV_HOLD_V Fd.ENV_HOLD_V_V_MIN
        then { s with env := { s.env with dump := some { x with low := true } } } else s
    | none => s
  let s := (s.chargerSwitch).chargerTimeout
  ((List.range 128).foldl (fun (s : State) b => s.bayEval b (bays.getD b BaySample.zero)) s).startAll

def execBayEvaluation (vbus hold : Fin 4096) (bays : List BaySample) (s : State) : Host.Outcome State Fault Refusal :=
  .next (s.evaluation vbus.val hold.val bays)

end Sys2Proof.Machine
end

