-- ==== Sys2Proof/Machine/Serai.lean ====
section
/-!
DEFINITION. Frames through the serai (06): header lookup, admission, convoys and layer-2 forwarding (R181 to R197), tails (R187),
serai errors (R198); management frames (04 R121, R135), address entries (04 R119, R120), and links going up and down at seams
(04 R127 to R131).
-/

namespace Sys2Proof.Machine

open Sys2Proof

/-! ### The MAC table (R195, R197) -/

/-- The number of a MAC whose first byte on the wire is its bits 47:40. -/
def macNat (mac : List Byte) : Nat := beNat mac

/-- The static entry of a VLAN and MAC, the lowest index first: its port. -/
def State.macStatic (s : State) (vlan : Nat) (mac : List Byte) : Option Nat :=
  ((List.range 64).find? fun k =>
    let hi := Reg.SWC_MAC_ST_HI k
    s.flag hi Fd.SWC_MAC_ST_HI_VALID && s.fld hi Fd.SWC_MAC_ST_HI_VLAN == vlan
      && hiLo (s.fld hi Fd.SWC_MAC_ST_HI_MAC_HI) (s.rd (Reg.SWC_MAC_ST_LO k)).toNat == macNat mac).map fun k =>
    s.fld (Reg.SWC_MAC_ST_PORT k) Fd.SWC_MAC_ST_PORT_LPORT

def State.macLearned (s : State) (vlan : Nat) (mac : List Byte) : Option MacEnt :=
  s.net.learned.find? fun e => e.vlan == vlan && e.mac == mac

/-- Lookup consults the static entries first (R197). -/
def State.macLookup (s : State) (vlan : Nat) (mac : List Byte) : Option Nat :=
  (s.macStatic vlan mac) <|> (s.macLearned vlan mac).map (·.port)

/-- The bucket of a MAC and VLAN: the CRC-32C of the 6-byte MAC followed by the 2-byte VLAN, mod 8,192. -/
def macBucket (vlan : Nat) (mac : List Byte) : Nat := (crc32c (mac ++ leBytes 2 vlan)).toNat % 8192

/-- A learn into a full bucket is refused: LEARN_FULL, and SWC_MAC_TABLE_FULL at most once per 976,563 ticks. -/
def State.learnFull (s : State) (vlan : Nat) : State :=
  let s := s.cntSwc 11 1
  let n := s.net.fullCount + 1
  let due := match s.net.fullLast with | none => true | some t => decide (t + 976563 ≤ s.now)
  if due then ({ s with net := { s.net with fullLast := some s.now, fullCount := 0 } }).raise Ev.SWC_MAC_TABLE_FULL vlan n 0
  else { s with net := { s.net with fullCount := n } }

/-- The source MAC and VLAN of a frame from port `m` are learned (R197). -/
def State.learn (s : State) (m vlan : Nat) (mac : List Byte) : State :=
  if !s.flag Reg.SWC_L2_CFG Fd.SWC_L2_CFG_LEARN_EN || !s.flag (Reg.SWC_LP_CFG m) Fd.SWC_LP_CFG_LEARN_EN
      || (s.macStatic vlan mac).isSome then s
  else
    let e : MacEnt := { vlan := vlan, mac := mac, port := m, seen := s.now }
    match s.macLearned vlan mac with
    | some _ => { s with net := { s.net with learned := s.net.learned.map fun x => if x.vlan == vlan && x.mac == mac then e else x } }
    | none =>
      let b := macBucket vlan mac
      if 4 ≤ (s.net.learned.filter fun x => macBucket x.vlan x.mac == b).length then s.learnFull vlan
      else { s with net := { s.net with learned := s.net.learned ++ [e] } }

/-- An entry has not been refreshed for AGE_S seconds; AGE_S 0 disables ageing. -/
def State.aged (s : State) (e : MacEnt) : Bool :=
  let a := s.fld Reg.SWC_L2_CFG Fd.SWC_L2_CFG_AGE_S
  a != 0 && decide (a * 1000000000 ≤ (s.now - e.seen) * 1024)

/-- Aged entries are removed at a seam. -/
def State.ageOut (s : State) : State := { s with net := { s.net with learned := s.net.learned.filter fun e => !s.aged e } }

/-- MAC_AGE_OUT of one VLAN and MAC. -/
def execMacAgeOut (vlan : Fin 4096) (mac : List Byte) (s : State) : Host.Outcome State Fault Refusal :=
  .next { s with net := { s.net with learned := s.net.learned.filter fun e => !(e.vlan == vlan.val && e.mac == mac && s.aged e) } }

/-! ### Forwarding (R195) -/

/-- Port `n` takes a forwarded frame of ingress port `m`; a standby in lockstep goes by the active's links. -/
def State.fwdOk (s : State) (m n : Nat) (tagged : Bool) : Bool :=
  n != m && s.flag (Reg.SWC_LP_CFG n) Fd.SWC_LP_CFG_FWD_EN && s.egressUp n && s.vlanOk n tagged

/-- 01-80-C2-00-00-00 to 01-80-C2-00-00-0F. -/
def linkLocal (mac : List Byte) : Bool := decide (macNat mac / 16 = 0x0180C200000)

/-- Where a frame of row 8 goes. -/
def State.forward (s : State) (m : Nat) (h : Hdr) : Dest :=
  if !s.flag (Reg.SWC_LP_CFG m) Fd.SWC_LP_CFG_FWD_EN || linkLocal h.dst then .drop
  else
    let multi := leField h.dst 0 1 % 2 == 1
    match (if multi then none else s.macLookup h.vlan h.dst) with
    | some n => if s.fwdOk m n h.tagged then .fwd n else .drop
    | none => .flood ((List.range 128).filter fun n => s.fwdOk m n h.tagged)

/-! ### Header lookup (R181 to R195) -/

/-- The standby is in lockstep: received frames are copied to it (R191). -/
def State.lockstep (s : State) : Bool := s.pairState == pairPaired

/-- The destination of a frame by the row of Table 4-5 that it takes. -/
def State.destOf (s : State) (m : Nat) (bs : List Byte) : Dest × Nat :=
  match s.classify m bs with
  | .pfc | .control | .vlanRefused | .ownOther => (.drop, 0)
  | .ptp => (.ptp, 0)
  | .roce e => (.rdma, e)
  | .answer e => (.mgt, e)
  | .other => (s.forward m (parseHdr bs), 0)

/-- Rows 4 to 8 of Table 4-5 are copied to a standby in lockstep (R191). -/
def State.copied (s : State) (m : Nat) (bs : List Byte) : Bool :=
  s.lockstep && (match s.classify m bs with | .pfc | .control | .vlanRefused => false | _ => true)

/-- The QP to which a RoCEv2 packet goes parks it (R156, R182). -/
def State.lookupParks (s : State) (bs : List Byte) : Bool :=
  match s.qpOf (parseBth bs).qpn with
  | some q => (parseBth bs).qpn != 1 && (s.qp q).st.receives && s.parks q
  | none => false

/-- The fetch that a packet to be parked needs is pending, or fits in the budget of this tick (R158). -/
def State.lookupFetch (s : State) (bs : List Byte) : Bool :=
  match s.qpOf (parseBth bs).qpn with
  | some q => (s.qp q).resident || !(s.qp q).pen.isEmpty || (s.qp q).fetch.isSome || s.fetchFits q
  | none => true

def Dest.isDrop : Dest → Bool
  | .drop => true
  | _ => false

/-- The account that admits a frame by its destination (R182); none when it is refused. -/
def State.areaOf (s : State) (m i c : Nat) (d : Dest) (bs : List Byte) : Acct :=
  match d with
  | .drop => .none
  | .mgt | .ptp => if s.net.mgtCells + c ≤ 8192 - 256 then .mgt else .none
  | .rdma => if s.lookupParks bs then (if s.rdm.penCells + c ≤ penMax ∧ s.lookupFetch bs then .pen else .none) else s.unicastAdmit m i c
  | .fwd _ | .flood _ => s.unicastAdmit m i c

/-- A refused admission is counted (Table 6-2 row 5, MGT_DROP, RDM_PEN_DROP, RDM_FETCH_DROP). -/
def State.countRefused (s : State) (m i c : Nat) (d : Dest) (bs : List Byte) : State :=
  match d with
  | .drop => s
  | .mgt | .ptp => s.cntSwc 13 1
  | _ =>
    if d == .rdma && s.lookupParks bs then
      (if s.rdm.penCells + c ≤ penMax then (s.satFld Reg.RDM_FETCH_DROP wordFld 1).acc 5 0 16 1
       else (s.satFld Reg.RDM_PEN_DROP wordFld 1).acc 5 0 15 1)
    else (s.cntSwc (if s.lossless m i then 1 else 0) 1).cnt (Reg.SWC_PQ_DROP m i) 3 (8 * m + i) 0 1

/-- CE is marked at admission on a RoCEv2 frame for the transport (R188). -/
def State.ecnIn (s : State) (m i : Nat) (bs : List Byte) : Bool :=
  let thr := s.fld (Reg.SWC_PQ_LIM m i) Fd.SWC_PQ_LIM_ECN_IN_THR
  ectMarkable bs && ((thr != 0 && decide (thr ≤ (s.occ m i).1))
    || decide (s.sharedFree < s.fld Reg.SWC_SHARED_CFG Fd.SWC_SHARED_CFG_ECN_FREE))

/-- The number of copies of the frame's convoy (R192). -/
def copiesOf (d : Dest) (pair : Bool) : Nat := (match d with | .flood ms => ms.length | _ => 0) + b2n pair

/-- Free convoy cells. -/
def State.convoyFree (s : State) : Nat := s.fld Reg.SWC_SERAI_CFG Fd.SWC_SERAI_CFG_CONVOY_CELLS - s.net.convoyCells

/-- One copy of a forwarded or flooded frame joins the egress queue (R186, R195): it may leave before its tail when the egress
rate is at most the ingress rate. -/
def State.fwdCopy (s : State) (f : Frame) (acct : Acct) (group : Option Nat) (n : Nat) : State :=
  s.enqueue { id := 0, m := n, i := f.i, leaf := .fwd, bytes := f.bytes, cells := f.cells, acct := acct,
              ready := decide (s.rateMBs n ≤ s.rateMBs f.m), bad := false, held := false, src := some f.id, group := group, wait := none }

/-- The frame is admitted and its convoy starts: the copies are queued, and the frame is in reception. -/
def State.admitFrame (s : State) (f : Frame) : State :=
  let s := s.takeCells f.acct f.cells
  let s := { s with net := { s.net with frameSeq := s.net.frameSeq + 1, rx := Tab.wr (fun _ => none) s.net.rx f.m (some f) } }
  let s := if f.pairCopy then s.takeCells .convoy f.cells else s
  match f.dest with
  | .fwd n => (s.cntSwc 9 1).fwdCopy f f.acct none n
  | .flood ms =>
    let s := { s with net := { s.net with floods := s.net.floods ++ [{ id := f.id, left := ms.length + 1, acct := f.acct, cells := f.cells }] } }
    ms.foldl (fun s n => ((s.cntSwc 10 1).takeCells .convoy f.cells).fwdCopy f .convoy (some f.id) n) s
  | _ => s

/-- The discards of Table 4-5 rows 2, 3 and 7 and of R195, each counted. -/
def State.countDropped (s : State) (m : Nat) (h : Hdr) (bytes : List Byte) : State :=
  match s.classify m bytes with
  | .control => if beField bytes h.l3 2 = 0x0001 then s.cntMac m 6 1 else s.countDiscard m 0 1
  | .vlanRefused => s.countDiscard m 1 1
  | .ownOther => s.countDiscard m 2 1
  | .other =>
    if !s.flag (Reg.SWC_LP_CFG m) Fd.SWC_LP_CFG_FWD_EN then s.countDiscard m 3 1
    else if linkLocal h.dst then s.cntSwc 12 1 else s
  | _ => s

/-- FRAME_HEADER_LOOKUP: `bytes` are the first 128 bytes of a frame on logical port `m`, or the whole frame if it is shorter,
without its FCS; it arrived at cycle `cycle` of the tick. A controller whose network side is off counts and discards it (15 R444), as does
an active while a join holds (15 R465). -/
def State.headerLookup (s : State) (m : Nat) (bytes : List Byte) (cycle : Nat) : State :=
  if !s.passes m || (Tab.rd (fun _ => none) s.net.rx m).isSome || s.itn.dumpPlan then s
  else if !s.netOn || s.joinHold then (s.cntMac m 0 1).cntMac m 5 1
  else
    let h := parseHdr bytes
    let i := h.prio
    let L := h.len (s.maxFrame m)
    let c := cellsOf L
    let (d, e) := s.destOf m bytes
    let s := s.countDropped m h bytes
    let a := s.areaOf m i c d bytes
    let turned := a == .none && !d.isDrop
    let s := if turned then s.countRefused m i c d bytes else s
    let pair := s.copied m bytes && !turned
    let d := if turned then .drop else d
    let k := copiesOf d pair
    let refused := decide (s.convoyFree < k * c)
    let s := if refused then s.cntSwc (match d with | .flood _ => 8 | _ => 7) 1 else s
    let ce := d == .rdma && !refused && s.ecnIn m i bytes
    let s := if ce then s.cntSwc 5 1 else s
    s.admitFrame
      { id := s.net.frameSeq, m := m, i := i, bytes := if ce then markCe bytes else bytes, len := L,
        cells := c, acct := if refused then .none else a, dest := if refused then .drop else d, bad := false,
        pairCopy := pair && !refused, refused := turned || refused, ce := ce, stamp := s.stampAt cycle, ptp := s.rxStamp m cycle, entry := e }

def execFrameHeaderLookup (m : Fin 128) (bytes : List Byte) (cycle : Fin 2048) (s : State) : Host.Outcome State Fault Refusal :=
  .next (s.headerLookup m.val bytes cycle.val)

/-! ### Tails (R187) -/

/-- The copies of frame `f` still in a queue or in transmission take its bytes and its tail: a good one lets them go; a bad one
removes those not begun and ends the others with an inverted FCS. -/
def State.tailCopies (s : State) (f : Frame) : State :=
  let mine := fun (g : EgFrame) => g.src == some f.id
  let done (g : EgFrame) : EgFrame :=
    -- A copy that was marked as it joined its queue stays marked; a frame that arrived CE keeps its bytes.
    { g with bytes := if (parseHdr g.bytes).ecn == 3 && (parseHdr f.bytes).ecn != 3 then markCe f.bytes else f.bytes, ready := true, src := none,
             bad := f.bad }
  let tx := s.net.tx.map fun (e : Nat × Option EgFrame) => (e.1, e.2.map fun g => if mine g then done g else g)
  let s := { s with net := { s.net with tx := tx } }
  if f.bad then
    let n := (s.net.egress.filter mine).length
    (if n = 0 then s else s.cntSwc 4 n).discardQueued mine
  else { s with net := { s.net with egress := s.net.egress.map fun g => if mine g then done g else g } }

/-- Cells beyond the frame's actual length go back at its tail (R181, R192). -/
def State.returnExcess (s : State) (f : Frame) (c : Nat) : State :=
  let k := f.cells - c
  let cut := fun (g : EgFrame) => if g.src == some f.id then { g with cells := c } else g
  let convoys := (s.net.egress ++ s.net.tx.filterMap (·.2)).filter fun g => g.src == some f.id && g.acct == .convoy
  let copies := (s.net.egress ++ s.net.tx.filterMap (·.2)).any fun g => g.src == some f.id
  let gone := match f.dest with | .fwd _ => !copies | _ => false
  let s := (if gone then s else s.freeCells f.acct k).freeCells .convoy (k * (convoys.length + b2n f.pairCopy))
  { s with net := { s.net with
      egress := s.net.egress.map cut
      tx := s.net.tx.map fun (e : Nat × Option EgFrame) => (e.1, e.2.map cut)
      floods := s.net.floods.map fun g => if g.id == f.id then { g with cells := c } else g } }

/-- The whole frame is in: it goes where its lookup decided. -/
def State.deliver (s : State) (f : Frame) : State :=
  match f.dest with
  | .drop => s.freeCells f.acct f.cells
  | .rdma => { s with net := { s.net with toRdma := s.net.toRdma ++ [f] } }
  | .mgt | .ptp => { s with net := { s.net with toMgt := s.net.toMgt ++ [f] } }
  | .fwd _ => s.tailCopies f
  | .flood _ => (s.tailCopies f).floodLeft f.id

/-- A frame that ends in a bad tail and goes no further: its copies are removed or end with it, and its cells are freed once (R182, R187). -/
def State.dropTail (s : State) (f : Frame) : State :=
  match f.dest with
  | .fwd _ | .flood _ => s.deliver { f with bad := true }
  | _ => s.freeCells f.acct f.cells

/-- The disposition record of a copy (15 Table 15-6): area 0 unicast, 1 pen, 2 management, 3 forwarding only. -/
def Frame.disposition (f : Frame) (ce : Bool) (len tick cycle : Nat) : List Byte :=
  let area := match f.acct, f.dest with | .pen, _ => 1 | .mgt, _ => 2 | _, .rdma => 0 | _, _ => 3
  let flags := b2n ce + 2 * b2n f.bad + 4 * (match f.dest with | .fwd _ => 1 | _ => 0) + 8 * (match f.dest with | .flood _ => 1 | _ => 0)
  leBytes 4 tick ++ leBytes 2 cycle ++ leBytes 1 f.m ++ leBytes 1 area ++ leBytes 1 flags ++ leBytes 1 f.i ++ leBytes 2 len ++ zeros 4

/-- The pair copy leaves as an INGRESS frame once the tail is in (15 R444). -/
def State.copySend (s : State) (f : Frame) (ce : Bool) (len cycle : Nat) : State :=
  { s with pair := { s.pair with ingress := s.pair.ingress + 1 } }.linkSend lfIngress (f.disposition ce len s.itn.tick cycle ++ f.bytes)

/-- FRAME_TAIL of the frame in reception on `m`, at cycle `cycle` of the tick: the rest of its bytes, without the FCS; `bad` with an FCS error or an
uncorrected codeword (04 R117). -/
def State.frameTail (s : State) (m : Nat) (rest : List Byte) (bad : Bool) (cycle : Nat) : State :=
  match Tab.rd (fun _ => none) s.net.rx m with
  | none => s
  | some f =>
    let s := { s with net := { s.net with rx := Tab.wr (fun _ => none) s.net.rx m none } }
    if s.joinHold then
      (s.dropTail f).freeCells .convoy (if f.pairCopy then f.cells else 0)
    else
    let n := f.bytes.length + rest.length + 4
    let max := s.maxFrame m
    let runt := decide (n < 64)
    let cut := decide (max < n)
    let n := min n (max + 1)
    let h := parseHdr f.bytes
    let mismatch := !runt && h.ipVer != 0 && n != f.len
    let bytes := (f.bytes ++ rest).take (n - 4)
    let s := ((s.cntMac m 0 1).cntMac m 1 n)
    let s := if runt then s.cntMac m 4 1 else s
    let s := if mismatch then s.cntSwc 2 1 else s
    let isBad := bad || cut || mismatch
    let s := if isBad then s.cntMac m 5 1 else s
    let c := min f.cells (cellsOf n)
    let s := s.returnExcess f c
    let f := { f with bytes := bytes, bad := isBad || runt || f.bad, cells := c }
    let s := if !f.bad && !f.refused && s.classify m bytes == .other then s.learn m h.vlan h.src else s
    let s := if f.pairCopy then
        (if runt then s else s.copySend f f.ce n cycle).freeCells .convoy c
      else s
    match runt, f.dest with
    | true, .rdma | true, .mgt | true, .ptp => s.freeCells f.acct f.cells
    | _, _ => s.deliver f

def execFrameTail (m : Fin 128) (rest : List Byte) (bad : Bool) (cycle : Fin 2048) (s : State) : Host.Outcome State Fault Refusal :=
  .next (s.frameTail m.val rest bad cycle.val)

/-! ### Link loss (04 R128 to R131) -/

/-- LOCK_LOSS: reception stops and the frame in reception gets a bad tail; a link that was up waits for DOWN_HOLD; a lock that
had not held for UP_HOLD begins again. -/
def State.lockLoss (s : State) (m : Nat) : State :=
  let x := s.lport m
  let s := if x.step = 6 ∨ x.step = 7 then s.setLocks m 0 else s
  if x.step = 7 then (s.frameTail m [] true 2047).setStep m 8
  else if x.step = 6 then s.updLport m fun x => { x with step := 5, pendUp := false }
  else s

def execLockLoss (m : Fin 128) (s : State) : Host.Outcome State Fault Refusal := .next (s.lockLoss m.val)

/-- A LINK entry of the record (15 Table 15-7): links change at the seam, after cycle 2,047. -/
def State.linkEntry (s : State) (m : Nat) (up : Bool) : State := s.entry 8 (leBytes 1 m ++ leBytes 1 (b2n up) ++ leBytes 2 2047)

/-! ### Lost ports (04 R131) -/

/-- Physical port `p` is lost with `cause` in this tick: reception and transmission stop at once; the links go down at the seam. -/
def State.losePort (s : State) (p cause : Nat) : State :=
  if s.portLost p then s
  else
    let s := (s.setFld (Reg.MAC_STATUS p) Fd.MAC_STATUS_LOST 1).setFld (Reg.MAC_STATUS p) Fd.MAC_STATUS_LOST_CAUSE cause
    let s := (s.lportsOf p).foldl (fun s m =>
      let s := s.frameTail m [] true 2047
      ((if s.shadows then s else s.portStop m).linkDownDue 3 0 m).updLport m fun x => { x with calOk := false, resetDone := false }) s
    { s with itn := { s.itn with pendPorts := s.itn.pendPorts ++ [p] } }

/-- A logical port has calibrated: a lost port whose every logical port has calibrated since its reset is lost no longer. -/
def State.calibrated (s : State) (m : Nat) : State :=
  let s := s.setLanes m Fd.MAC_STATUS_CAL_OK true
  let s := s.updLport m fun x => { x with step := s.step3 m, calFails := 0, calOk := true }
  if s.portLost (m / 8) ∧ (s.lportsOf (m / 8)).all (fun n => (s.lport n).calOk && (s.lport n).resetDone) then
    (s.setFld (Reg.MAC_STATUS (m / 8)) Fd.MAC_STATUS_LOST 0).setFld (Reg.MAC_STATUS (m / 8)) Fd.MAC_STATUS_LOST_CAUSE 0
  else s

/-- SERDES_CALIBRATION_DONE of logical port `m`: step 2 passes, or fails; the third failure in a row loses the port (R131). The row names no lane, so
failures are counted by logical port (log 136). -/
def State.calibration (s : State) (m : Nat) (pass : Bool) : State :=
  if (s.lport m).step ≠ 2 ∨ ¬ s.lportExists m then s
  else if pass then s.calibrated m
  else
    let s := (s.setLanes m Fd.MAC_STATUS_CAL_OK false).updLport m fun x => { x with calFails := x.calFails + 1 }
    if 3 ≤ (s.lport m).calFails then s.losePort (m / 8) 1 else s

def execSerdesCalibrationDone (m : Fin 128) (pass : Bool) (s : State) : Host.Outcome State Fault Refusal := .next (s.calibration m.val pass)

/-! ### Links at the seam -/

/-- The links whose UP_HOLD has run out come up (Table 4-6 step 7), but not those of a lost port; the PFC conditions of their pairs are evaluated. -/
def State.linkUps (s : State) : State :=
  (List.range 128).foldl (fun s m =>
    if (s.lport m).pendUp && (s.lport m).step == 6 && !s.portLost (m / 8) then
      let r := Reg.MAC_LP_STATUS m
      let s := (s.setFld r Fd.MAC_LP_STATUS_LINK_UP 1).setFld r Fd.MAC_LP_STATUS_RATE (s.rateCode m)
      (List.range 8).foldl (fun s i => s.pfcPair m i)
        (((s.updLport m fun x => { x with pendUp := false, step := 7 }).linkEntry m true).raise Ev.MAC_LINK_UP m (s.rateCode m) 0)
    else s) s

/-- The links that are due go down (R128, R129): bring-up goes on from the step that a disable, a reset or a loss gave, otherwise from step 3. -/
def State.linkDowns (s : State) : State :=
  (List.range 128).foldl (fun s m =>
    let x := s.lport m
    if x.pendDown = 0 then s
    else
      let s := (s.frameTail m [] true 2047).setFld (Reg.MAC_LP_STATUS m) Fd.MAC_LP_STATUS_LINK_UP 0
      let s := s.updLport m fun y => { y with pendDown := 0, next := none, step := match x.next with | some n => n | none => s.step3 m }
      let s := (s.linkEntry m false).raise Ev.MAC_LINK_DOWN m x.pendDown 0
      if s.pairState == pairLocked || s.pairState == pairHolding then s else s.portFlush m) s

/-! ### Management frames (04 R121, R135) -/

/-- The ICMPv6 checksum covers a pseudo-header (RFC 4443). -/
def icmp6 (src dst body : List Byte) : List Byte :=
  patch body 2 (beBytes 2 (inetSum (src ++ dst ++ beBytes 4 body.length ++ [0, 0, 0, 58] ++ body)))

/-- The frame asks for an answer: an ARP request, a neighbour solicitation or an echo request; other frames of row 6 get none. -/
def asks (bs : List Byte) : Bool :=
  let h := parseHdr bs
  let typ := beField bs h.l4 1
  if h.etype = 0x0806 then beField bs (h.l3 + 6) 2 == 1
  else if h.ipVer = 4 then typ == 8
  else typ == 135 || typ == 128

/-- The answer to an ARP request, a neighbour solicitation or an echo request to entry `a`. -/
def answerFrame (f : Frame) (a : AddrEnt) : List Byte :=
  let h := parseHdr f.bytes
  if h.etype = 0x0806 then
    ethHeader h.src a 0x0806 ++ beBytes 2 1 ++ beBytes 2 0x0800 ++ [6, 4] ++ beBytes 2 2 ++ a.mac ++ a.ip.take 4
      ++ sliceB f.bytes (h.l3 + 8) 10
  else if h.ipVer = 4 then
    let b := patch (sliceB f.bytes h.l4 (h.end_ - h.l4)) 0 [0, 0, 0, 0]
    ethHeader h.src a 0x0800 ++ ipPacket a h.srcIp a.dscp 0 1 (Config.ipOctet 4) (patch b 2 (beBytes 2 (inetSum b)))
  else if beField f.bytes h.l4 1 = 128 then
    let b := patch (sliceB f.bytes h.l4 (h.end_ - h.l4)) 0 [129, 0, 0, 0]
    ethHeader h.src a 0x86DD ++ ipPacket a h.srcIp a.dscp 0 58 (Config.ipOctet 4) (icmp6 a.ip h.srcIp b)
  else
    let b := [136, 0, 0, 0, 0x60, 0, 0, 0] ++ a.ip ++ [2, 1] ++ a.mac
    ethHeader h.src a 0x86DD ++ ipPacket a h.srcIp a.dscp 0 58 255 (icmp6 a.ip h.srcIp b)

/-- At most 4,096 answers per second per logical port; the excess is discarded (R121). -/
def State.answer (s : State) (f : Frame) (a : AddrEnt) : State :=
  let x := s.lport f.m
  let fresh := decide (x.ansTick + 976563 ≤ s.now) || x.answers == 0
  let n := if fresh then 0 else x.answers
  if 4096 ≤ n ∨ asks f.bytes = false then s
  else (s.updLport f.m fun x => { x with answers := n + 1, ansTick := if fresh then s.now else x.ansTick }).sendMgt f.m a.prio
    (answerFrame f a)

/-- A Delay_Req of the slave on the port in use, sent the way the Sync came: over Ethernet, or over UDP from the entry that it matched (R135; its
coding is IEEE 1588's). -/
def State.delayReq (s : State) (f : Frame) : State :=
  let h := parseHdr f.bytes
  let body : List Byte := [1, 2, 0, 44, BitVec.ofNat 8 (s.fld Reg.MAC_PTP_CTL Fd.MAC_PTP_CTL_DOMAIN)] ++ (List.range 39).map Config.ptpOctet
  if h.etype = 0x88F7 then
    s.sendMgt f.m 0 ([0x01, 0x1B, 0x19, 0, 0, 0] ++ (s.portMac f.m).getD (zeros 6) ++ beBytes 2 0x88F7 ++ body)
  else
    match s.addr f.m f.entry with
    | none => s
    | some a =>
      let udp := beBytes 2 319 ++ beBytes 2 319 ++ beBytes 2 52 ++ [0, 0] ++ body
      s.sendMgt f.m a.prio (ethHeader h.src a (if a.family = 6 then 0x86DD else 0x0800) ++ ipPacket a h.srcIp a.dscp 0 17 (Config.ipOctet 4) udp)

/-- The logical ports on which the slave listens: the one in use; in HOLDOVER SRC and BACKUP (R135). -/
def State.ptpHears (s : State) (m : Nat) : Bool :=
  if s.ptpState = 4 then s.fld Reg.MAC_PTP_CTL Fd.MAC_PTP_CTL_SRC == m || s.fld Reg.MAC_PTP_CTL Fd.MAC_PTP_CTL_BACKUP == m
  else s.fld Reg.MAC_PTP_STATUS Fd.MAC_PTP_STATUS_CUR_SRC == m

/-- A PTP message in the clock's domain on the port in use (R135): listening, or in HOLDOVER, an Announce selects the master; a Sync is followed by a
Delay_Req, and the servo then steers the time counter and locks, by how much and when the spec leaves to it. -/
def State.ptpMessage (s : State) (f : Frame) : State :=
  let typ := ptpType f.bytes
  if s.ptpState = 0 ∨ s.ptpHears f.m = false
      ∨ beField f.bytes (ptpOff (parseHdr f.bytes) + 4) 1 ≠ s.fld Reg.MAC_PTP_CTL Fd.MAC_PTP_CTL_DOMAIN then s
  else if typ = 0xB then (if s.ptpState = 1 ∨ s.ptpState = 4 then s.setPtpState 2 f.m else s)
  else if s.ptpState = 2 ∨ s.ptpState = 3 then
    let s := if typ = 0 ∧ s.netOn = true then s.delayReq f else s
    let (v, s) := s.draw
    let t := s.net.ptpSec * 1000000000 + s.net.ptpNs + v % 4294967296
    let (u, s) := s.draw
    let s := { s with net := { s.net with ptpSec := t / 1000000000 % 281474976710656, ptpNs := t % 1000000000 } }
    s.setPtpState (if u % 2 = 1 then 3 else 2) f.m
  else s

/-- MANAGEMENT_FRAME: management firmware takes the first frame that waits for it; one with a bad tail it discards. -/
def State.managementFrame (s : State) : State :=
  match s.net.toMgt with
  | [] => s
  | f :: rest =>
    if !s.fwRuns then s
    else
      let s := ({ s with net := { s.net with toMgt := rest } }).freeCells f.acct f.cells
      if f.bad then s
      else if f.dest = .ptp then s.ptpMessage f
      else match s.addr f.m f.entry with
        | some a => if s.netOn then s.answer f a else s
        | none => s

def execManagementFrame (s : State) : Host.Outcome State Fault Refusal := .next s.managementFrame

/-! ### Address entries (04 R119, R120) -/

/-- Multicast, broadcast and zero addresses are refused. -/
def unicastMac (mac : List Byte) : Bool := leField mac 0 1 % 2 == 0 && macNat mac != 0

/-- A connected QP uses entry `e` of logical port `m` (Table 4-4 check 6). -/
def State.addrBusy (s : State) (m e : Nat) : Bool :=
  s.knownQps.any fun q => ((s.qp q).st.connected || (s.qp q).next == .rtr) && (s.qp q).lport == m && (s.qp q).entry == e

/-- Checks 2 to 6 of Table 4-4: the status and results of the first failure. For OP 0 only checks 2 and 6 apply. -/
def State.addrRefusal (s : State) (d : Desc) : Option (Nat × Nat × Nat) :=
  let m := d.f 8 1
  let e := d.f 9 1
  let op := d.f 10 1
  let vlan := d.f 12 2
  let prio := d.f 14 1
  let mac := d.bytes 16 6
  let ip := d.bytes 24 16
  let others := (s.entries m).filter fun x => x.1 != e
  let inUse := (List.range 128).any fun n => (s.entries n).any fun x => x.2.vlan == vlan && x.2.ip == ip
  let pfc := s.fld (Reg.MAC_LP_CFG m) Fd.MAC_LP_CFG_PFC_EN
  if !s.lportExists m then some (St.MAC_NO_PORT, 0, 0)
  else match (if op = 0 then none else others.find? fun x => x.2.mac != mac) with
    | some x => some (St.CFG_CONFLICT, 16 + 255 * 256, hiLo x.1 0xFFFFFFFF)
    | none =>
      if op = 1 ∧ inUse then some (St.MAC_ADDR_IN_USE, 0, 0)
      else if op = 1 ∧ pfc ≠ 0 ∧ ¬ natBit pfc prio then some (St.CFG_CONFLICT, 14 + 255 * 256, Reg.MAC_LP_CFG m)
      else if (s.addr m e).isSome ∧ s.addrBusy m e then some (St.MAC_ADDR_BUSY, 0, 0)
      else none

/-- NET_ADDR_SET: the checks of Table 4-4; the change takes effect at the next seam. -/
def netAddrSet (d : Desc) (s : State) : State :=
  let op := d.f 10 1
  let fam := d.f 11 1
  let vlan := d.f 12 2
  let prio := d.f 14 1
  let dscp := d.f 15 1
  let fields := decide (d.f 8 1 ≤ 127) && decide (d.f 9 1 ≤ 3) && decide (op ≤ 1) && d.handle == 0 && d.f 23 1 == 0 && allZero (d.bytes 40 24)
  let setOk := (fam == 4 || fam == 6) && decide (vlan ≤ 4094) && decide (prio ≤ 7) && decide (dscp ≤ 63) && unicastMac (d.bytes 16 6)
    && decide (1 ≤ d.f 22 1) && decide (d.f 22 1 ≤ if fam = 4 then 32 else 128) && (fam != 4 || allZero (d.bytes 28 12))
    && (vlan != 0 || prio == dscp / 8)
  if !(fields && (op == 0 || setOk)) then s.done d St.GEN_FIELD
  else match s.addrRefusal d with
    | some r => s.complete d r.1 r.2.1 r.2.2 0
    | none => s.defer d

/-- The change of an address entry at the seam (R120), unless a change before it at that seam makes one of checks 2 to 6 fail (log 137). -/
def State.addrApply (s : State) (d : Desc) : State :=
  let a : AddrEnt := { family := d.f 11 1, vlan := d.f 12 2, prio := d.f 14 1, dscp := d.f 15 1, mac := d.bytes 16 6,
                       pfx := d.f 22 1, ip := d.bytes 24 16 }
  match s.addrRefusal d with
  | some r => s.complete d r.1 r.2.1 r.2.2 0
  | none => (s.setAddr (d.f 8 1) (d.f 9 1) (if d.f 10 1 = 0 then none else some a)).done d St.OK

def execNetAddrSet (s : State) : Host.Outcome State Fault Refusal := .next (s.ringCmd Op.NET_ADDR_SET netAddrSet)

end Sys2Proof.Machine
end

