-- ==== Sys2Proof/Machine/Flags.lean ====
section
/-!
DEFINITION. The status registers that show other state (00 R9 to R12; 19 R539, R545, R546): the fields that the register file does not
hold, computed from the state, and what a read of a register returns.
-/

namespace Sys2Proof.Machine

open Sys2Proof

/-- A field with the value that it shows. -/
abbrev View := List (Fld × Nat)

/-- A word with its shown fields in place. -/
def View.over (v : View) (w : Word) : Word := v.foldl (fun (w : Word) (e : Fld × Nat) => e.1.put w e.2) w

/-- The place of `off` in an array of registers. -/
def regIdx (base stride off : Nat) : Nat := (off - base) / stride

/-! ### Itinerary and rings -/

/-- Buffer states as ITN_STATUS codes them. -/
def bufCode : BufSt → Nat
  | .empty => 0
  | .loading => 1
  | .ready => 2
  | .pending => 2
  | .running => 3

def State.itnView (s : State) (off : Nat) : View :=
  if off = Reg.ITN_STATUS then
    [(Fd.ITN_STATUS_VARIANT, s.itn.variant), (Fd.ITN_STATUS_SWAP_PENDING, s.itn.swapPend),
     (Fd.ITN_STATUS_BUF_B_STATE, bufCode s.itn.bufB.st), (Fd.ITN_STATUS_BUF_A_STATE, bufCode s.itn.bufA.st),
     (Fd.ITN_STATUS_ACTIVE_BUF, b2n s.itn.activeB), (Fd.ITN_STATUS_RUNNING, b2n s.itn.running)]
  else if off = Reg.ITN_TICK_LO then [(wordFld, s.itn.tick)]
  else if off = Reg.ITN_TICK_HI then [(wordFld, s.itn.tick / 4294967296)]
  else if off = Reg.ITN_SUSPENDED then [(Fd.ITN_SUSPENDED_COUNT, s.suspended.length)]
  else []

def State.ringView (s : State) (off : Nat) : View :=
  if off = Reg.RING_EVT_BACKLOG then [(Fd.RING_EVT_BACKLOG_COUNT, s.hst.backlog.length)] else []

/-! ### Ports, transport, serai, traffic manager -/

def State.macView (s : State) (off : Nat) : View :=
  if off = Reg.MAC_PTP_SEAM_NS then [(Fd.MAC_PTP_SEAM_NS_NS, s.net.seamNs)]
  else if off = Reg.MAC_PTP_SEAM_SEC_LO then [(wordFld, s.net.seamSec)]
  else if off = Reg.MAC_PTP_SEAM_SEC_HI then [(Fd.MAC_PTP_SEAM_SEC_HI_SEC_HI, s.net.seamSec / 4294967296)]
  else []

def State.rdmView (s : State) (off : Nat) : View :=
  if off = Reg.RDM_QP_COUNT then [(Fd.RDM_QP_COUNT_LIVE, s.liveQps.length)]
  else if off = Reg.RDM_CACHE_RES then [(Fd.RDM_CACHE_RES_RESIDENT, s.residents.length)]
  else if off = Reg.RDM_CACHE_PIN then [(Fd.RDM_CACHE_PIN_READ_PINS, s.readPins), (Fd.RDM_CACHE_PIN_PEN_PINS, s.penPins)]
  else if off = Reg.RDM_PEN_STATUS then [(Fd.RDM_PEN_STATUS_CELLS, s.rdm.penCells)]
  else []

/-- Valid static MAC entries. -/
def State.staticMacs (s : State) : Nat :=
  ((List.range 64).filter fun k => s.flag (Reg.SWC_MAC_ST_HI k) Fd.SWC_MAC_ST_HI_VALID).length

def State.swcView (s : State) (off : Nat) : View :=
  if off = Reg.SWC_STATUS then [(Fd.SWC_STATUS_SHARED_CELLS, s.sharedCells)]
  else if off = Reg.SWC_OCC_SHARED then [(Fd.SWC_OCC_SHARED_FREE, s.sharedFree)]
  else if off = Reg.SWC_OCC_HOLD then [(Fd.SWC_OCC_HOLD_CELLS, s.net.holdCells)]
  else if off = Reg.SWC_OCC_CONVOY then [(Fd.SWC_OCC_CONVOY_FREE, s.convoyFree)]
  else if off = Reg.SWC_OCC_MGT then [(Fd.SWC_OCC_MGT_CELLS, s.net.mgtCells + s.net.ctlCells)]
  else if off = Reg.SWC_MAC_COUNT then
    [(Fd.SWC_MAC_COUNT_STATIC, s.staticMacs), (Fd.SWC_MAC_COUNT_LEARNED, s.net.learned.length)]
  else if Reg.SWC_PQ_OCC 0 0 ≤ off ∧ (off - Reg.SWC_PQ_OCC 0 0) % 0x20 = 0 ∧ off < Reg.SWC_PQ_OCC 128 0 then
    let m := regIdx (Reg.SWC_PQ_OCC 0 0) 0x100 off
    let i := regIdx (Reg.SWC_PQ_OCC m 0) 0x20 off
    [(Fd.SWC_PQ_OCC_EGRESS, min 0xFFFF (s.egressCells m i)), (Fd.SWC_PQ_OCC_INGRESS, (s.occ m i).1)]
  else []

def State.tmgView (s : State) (off : Nat) : View :=
  if off = Reg.TMG_DEFER_OCC then [(Fd.TMG_DEFER_OCC_CELLS, s.deferCells)] else []

/-! ### Command engine, layouts, cipher, drives -/

def State.cmdView (s : State) (off : Nat) : View :=
  if off = Reg.CMD_WB_USE then [(Fd.CMD_WB_USE_USED, (s.wbsThat fun _ => true).length)]
  else if off = Reg.CMD_LOCK_USE then [(Fd.CMD_LOCK_USE_USED, (Tab.keys (fun (l : Lock) => l.state != 0) s.cmd.locks).length)]
  else if off = Reg.CMD_CTRL_USE then [(Fd.CMD_CTRL_USE_CONTROLLERS, s.liveCtrls.length)]
  else []

/-- LAY_MNT_STATUS of a pool but for LOAD. -/
def Pool.mntView (P : Pool) : View :=
  let kinds := (P.acts.filter fun a => a.st == .queued || a.st == .preempted).map (·.kind)
  [(Fd.LAY_MNT_STATUS_QUEUED, (List.range 5).foldl (fun n j => if kinds.contains (j + 1) then n + 2 ^ j else n) 0),
   (Fd.LAY_MNT_STATUS_HELD, b2n (P.acts.any fun a => a.isPass && a.st == .held)),
   (Fd.LAY_MNT_STATUS_PASSES, (P.acts.filter fun a => a.isPass && a.holds).length),
   (Fd.LAY_MNT_STATUS_RUNNING, ((P.acts.find? fun a => !a.isPass && a.holds).map (·.kind)).getD 0)]

/-- LAY_MNT_PASS of pass `i` of a pool; while pass 1 does not run, its place shows LAY_MNT_PROG (R539). -/
def Pool.passView (P : Pool) (i : Nat) : View :=
  match P.acts.find? fun a => a.isPass && a.holds && a.idx == i with
  | some a =>
    [(Fd.LAY_MNT_PASS_ACTIVE, 1), (Fd.LAY_MNT_PASS_COPYBACK, b2n (a.kind == 4)), (Fd.LAY_MNT_PASS_DONE_KFRAMES, P.ckptOf a)]
  | none =>
    if i = 0 then []
    else match P.acts.find? fun a => (a.kind == 1 || a.kind == 2) && a.holds with
      | some a => [(Fd.LAY_MNT_PASS_DONE_KFRAMES, P.ckptOf a)]
      | none => []

/-- The pool registers of pool `p` at place `r` of its block. -/
def State.poolView (s : State) (p r : Nat) : View :=
  let P := s.pool p
  if P.st = 0 then []
  else if r = 0x00 then
    [(Fd.LAY_POOL_GEOM_LAYOUT, P.layout), (Fd.LAY_POOL_GEOM_G, P.g), (Fd.LAY_POOL_GEOM_N, P.n), (Fd.LAY_POOL_GEOM_K, P.k),
     (Fd.LAY_POOL_GEOM_SPARE, P.spare), (Fd.LAY_POOL_GEOM_STRIP_SHIFT, P.shift)]
  else if r = 0x04 then
    [(Fd.LAY_POOL_STATUS_MISSING, P.missing), (Fd.LAY_POOL_STATUS_RESYNC, b2n P.resync.isSome), (Fd.LAY_POOL_STATUS_STATE, P.st)]
  else if r = 0x08 then [(wordFld, P.frames)]
  else if r = 0x0C then [(wordFld, P.frames / 4294967296)]
  else if r = 0x10 then [(wordFld, P.slabs)]
  else if r = 0x14 then [(wordFld, s.slabsFree p)]
  else if r = 0x18 then [(wordFld, min 0xFFFFFFFF ((P.resync.map (·.left)).getD 0))]
  else []

def State.layView (s : State) (off : Nat) : View :=
  if off = Reg.LAY_DIRTY_LINES then [(Fd.LAY_DIRTY_LINES_LINES, s.dirtyLines)]
  else if off = Reg.LAY_CLEAN_LINES then [(Fd.LAY_CLEAN_LINES_LINES, s.cleanLines)]
  else if off = Reg.LAY_JOURNAL_USE then [(Fd.LAY_JOURNAL_USE_SLOTS, s.journalUse)]
  else if Reg.LAY_POOL_GEOM 0 ≤ off ∧ off < Reg.LAY_POOL_GEOM 16 then
    s.poolView (regIdx (Reg.LAY_POOL_GEOM 0) 0x20 off) ((off - Reg.LAY_POOL_GEOM 0) % 0x20)
  else if Reg.LAY_MNT_CFG 0 ≤ off ∧ off < Reg.LAY_MNT_CFG 16 then
    let p := regIdx (Reg.LAY_MNT_CFG 0) 0x20 off
    let r := (off - Reg.LAY_MNT_CFG 0) % 0x20
    if r = 0x10 then (s.pool p).mntView
    else if r = 0x14 then (s.pool p).passView 0
    else if r = 0x18 then (s.pool p).passView 1
    else if r = 0x1C then [(Fd.LAY_LOST_USE_ENTRIES, (s.pool p).lost.length)]
    else []
  else []

/-- The KEKs that are LOADED, as a mask. -/
def State.kekMask (s : State) : Nat := (Tab.keys (fun (k : List Byte) => !k.isEmpty) s.cip.keks).foldl (fun a i => a + 2 ^ i) 0

def State.cipView (s : State) (off : Nat) : View :=
  if off = Reg.CIP_STATUS then [(Fd.CIP_STATUS_LOADED, (Tab.keys (fun (k : Option KeyPair) => k.isSome) s.cip.keys).length)]
  else if off = Reg.CIP_KEK then [(Fd.CIP_KEK_LOADED, s.kekMask)]
  else []

def State.drvView (s : State) (off : Nat) : View :=
  if off = Reg.DRV_TAG_USE then [(Fd.DRV_TAG_USE_USED, (s.cmdsThat fun _ => true).length)]
  else if Reg.DRV_BAY_CFG 0 ≤ off ∧ off < Reg.DRV_BAY_CFG 128 then
    let b := regIdx (Reg.DRV_BAY_CFG 0) 0x20 off
    let r := (off - Reg.DRV_BAY_CFG 0) % 0x20
    if r = 0x08 then
      [(Fd.DRV_BAY_ERR_RECOVERIES, min 255 ((s.bay b).recs.filter fun t => decide (s.now < t + tenMinutes)).length)]
    else if r = 0x0C then [(Fd.DRV_BAY_OUT_MNT, s.mntOut b), (Fd.DRV_BAY_OUT_ALL, (s.outstanding b).length)]
    else []
  else []

/-! ### Pair, management, telemetry -/

/-- PAIR_TICK: on a standby the last tick whose record it holds complete, otherwise the last tick receipted. -/
def State.pairTick (s : State) : Nat := ((if s.isStandby then s.pair.rcvd else s.pair.receipt)).getD 0

def State.pairView (s : State) (off : Nat) : View :=
  if off = Reg.PAIR_STATUS then
    [(Fd.PAIR_STATUS_STATE, s.pairState), (Fd.PAIR_STATUS_SLOT, b2n s.straps.pairSlot), (Fd.PAIR_STATUS_PAIRED_STRAP, b2n s.straps.pairEn),
     (Fd.PAIR_STATUS_ACT_N, b2n (!s.actLow))]
  else if off = Reg.PAIR_TICK_LO then [(wordFld, s.pairTick)]
  else if off = Reg.PAIR_TICK_HI then [(wordFld, s.pairTick / 4294967296)]
  else []

/-- The signing key of slot `i`, 104 bytes; empty when it holds none. -/
def State.itkEntry (s : State) (i : Nat) : List Byte := Tab.rd (fun _ => []) s.mgt.itk i

def State.mgtView (s : State) (off : Nat) : View :=
  if off = Reg.MGT_SVN then [(Fd.MGT_SVN_REVOKED, s.mgt.revoked), (Fd.MGT_SVN_FLOOR, s.mgt.floor)]
  else if Reg.MGT_QUEUE 0 ≤ off ∧ off < Reg.MGT_QUEUE 4 then
    [(Fd.MGT_QUEUE_RING, s.levelCount (regIdx (Reg.MGT_QUEUE 0) 4 off))]
  else if off = Reg.MGT_MCTP then [(Fd.MGT_MCTP_SPDM_SESSIONS, s.mgt.sessions.length)]
  else if off = Reg.MGT_ITK_STATUS then
    [(Fd.MGT_ITK_STATUS_VALID, (Tab.keys (fun (k : List Byte) => !k.isEmpty) s.mgt.itk).foldl (fun a i => a + 2 ^ i) 0)]
  else if Reg.MGT_ITK_DATA 0 ≤ off ∧ off < Reg.MGT_ITK_DATA 26 then
    let k := s.itkEntry (s.fld Reg.MGT_ITK_SEL Fd.MGT_ITK_SEL_SLOT)
    if k.isEmpty then [] else [(wordFld, leField k (off - Reg.MGT_ITK_DATA 0) 4)]
  else []

def State.telView (s : State) (off : Nat) : View :=
  if off = Reg.TEL_STATUS then [(Fd.TEL_STATUS_BUFFERS, s.tel.snaps.length)] else []

/-! ### Global summary (19 R545, R546) -/

/-- Ring `k` holds entries that control software has not consumed (R546). -/
def State.unconsumed (s : State) (k : Nat) : Bool := s.ringTail k != (s.ring k).cons

/-- The pending bits of completion rings `first` to `first + 31`. -/
def State.pendingMask (s : State) (first : Nat) : Nat :=
  ((List.range 32).filter fun i => s.unconsumed (first + i)).foldl (fun a i => a + 2 ^ i) 0

/-- GLB_ATTN (R545). -/
def State.attention (s : State) : View :=
  let bays := List.range 128
  let pools := s.pools
  let mgt := Reg.MGT_STATUS
  [(Fd.GLB_ATTN_EVT, b2n (!s.hst.backlog.isEmpty)),
   (Fd.GLB_ATTN_RING, b2n ((List.range 65).any fun k => s.ringState k == ringError || s.ringState k == ringStopped)),
   (Fd.GLB_ATTN_CLUSTER, b2n (clusters.any fun k => s.cluState k == cluFailed)),
   (Fd.GLB_ATTN_MGT, b2n (s.flag mgt Fd.MGT_STATUS_FALLBACK || s.flag mgt Fd.MGT_STATUS_RECOVERY || s.flag mgt Fd.MGT_STATUS_FLASH_DEGRADED)),
   (Fd.GLB_ATTN_PAIR, b2n (s.straps.pairEn && s.pairState != pairPaired && s.pairState != pairLocked)),
   (Fd.GLB_ATTN_HOLD, b2n (!s.flag Reg.ENV_HOLD_STATUS Fd.ENV_HOLD_STATUS_READY || s.flag Reg.ENV_HOLD_STATUS Fd.ENV_HOLD_STATUS_FAULT)),
   (Fd.GLB_ATTN_ENV, b2n (((List.range 12).any fun f => s.flag (Reg.ENV_FAN_STATUS f) Fd.ENV_FAN_STATUS_FAILED)
     || s.env.levels.any fun (e : Nat × SensLevel) => decide (1 ≤ e.2.level))),
   (Fd.GLB_ATTN_BAY, b2n (bays.any fun b =>
     let st := s.fld (Reg.BAY_STATUS b) Fd.BAY_STATUS_STATE
     st == bayLatched || st == bayDamaged)),
   (Fd.GLB_ATTN_DRIVE, b2n (bays.any fun b => s.bayState b == dbFailed)),
   (Fd.GLB_ATTN_RESYNC, b2n (pools.any fun p => (s.pool p).resync.isSome)),
   (Fd.GLB_ATTN_POOL, b2n ((pools.any fun p => decide (3 ≤ (s.pool p).st))
     || (List.range 16).any fun p => s.flag (Reg.LAY_LOST_USE p) Fd.LAY_LOST_USE_OVERFLOW)),
   (Fd.GLB_ATTN_CIPHER, b2n (!s.noAlarm || s.flag Reg.CIP_STATUS Fd.CIP_STATUS_HALT)),
   (Fd.GLB_ATTN_PORT, b2n (((List.range 16).any fun p => s.portLost p) || s.fld Reg.HBM_STATUS Fd.HBM_STATUS_LOST != 0)),
   (Fd.GLB_ATTN_FENCE, b2n (s.rd Reg.ITN_FENCE != 0))]

def State.glbView (s : State) (off : Nat) : View :=
  if off = Reg.GLB_STRAPS then
    [(Fd.GLB_STRAPS_CH_SRIS, b2n s.straps.chSris), (Fd.GLB_STRAPS_PAIR_SLOT, b2n s.straps.pairSlot),
     (Fd.GLB_STRAPS_PAIR_EN, b2n s.straps.pairEn)]
  else if off = Reg.GLB_ATTN then s.attention
  else if off = Reg.GLB_IRQ_CPL_LO then [(wordFld, s.pendingMask 0)]
  else if off = Reg.GLB_IRQ_CPL_HI then [(wordFld, s.pendingMask 32)]
  else if off = Reg.GLB_IRQ_EVT then
    [(Fd.GLB_IRQ_EVT_BACKLOG, b2n (!s.hst.backlog.isEmpty)), (Fd.GLB_IRQ_EVT_PENDING, b2n (s.unconsumed evtRing))]
  else []

/-! ### Reads -/

/-- The shown fields of the register at `off`, by its block (19 Table 19-1). -/
def State.view (s : State) (off : Nat) : View :=
  let b := off / 0x100000
  if b = 0x00 then s.glbView off
  else if b = 0x02 then s.itnView off
  else if b = 0x04 then s.ringView off
  else if b = 0x08 then s.macView off
  else if b = 0x0A then s.rdmView off
  else if b = 0x0C then s.swcView off
  else if b = 0x0D then s.tmgView off
  else if b = 0x0E then s.cmdView off
  else if b = 0x10 then s.layView off
  else if b = 0x12 then s.cipView off
  else if b = 0x14 then s.drvView off
  else if b = 0x18 then s.pairView off
  else if b = 0x1A then s.mgtView off
  else if b = 0x1C then s.telView off
  else []

/-- What a read of a doorbell page returns (03 R75, R81): at offset 0 of pages 0 to 128 the last value accepted there, elsewhere zero. -/
def State.doorbell (s : State) (off : Nat) : Nat :=
  let p := (off - doorbellBase) / 4096
  if off % 4096 ≠ 0 ∨ 128 < p then 0
  else if p < 64 then (s.ring p).producer
  else if p < 128 then (s.ring (p - 64)).cons
  else (s.ring evtRing).cons

/-- What a read of the register at `off` returns: its shown fields over its stored word, or, before READY, its reset value (16 R480); a doorbell
page its last accepted value (03 R81); an offset without a register reads as zero (00 R10). -/
def State.readReg (s : State) (off : Nat) : Word :=
  if doorbellBase ≤ off then (if s.mgtReady then BitVec.ofNat 32 (s.doorbell off) else 0)
  else if (regAt off).isNone then 0
  else if !s.mgtReady && !earlyBlock off then regReset off
  else (s.view off).over (s.rd off)

end Sys2Proof.Machine
end

