-- ==== Sys2Proof/Machine/Tel.lean ====
section
/-!
DEFINITION. Telemetry (18): the counter catalogue and single counters (R521 to R523), hardware dumps (R524 to R527), TEL_CONFIG (R528),
trace records (R530, R531), the error log (R533, R534) and LOG_READ (R535).
-/

namespace Sys2Proof.Machine

open Sys2Proof

/-! ### The catalogue (Table 18-1) -/

/-- Group, instances and COUNTERS of Table 18-1. -/
def catalogue : List (Nat × Nat × Nat) :=
  [(1, 128, 12), (2, 1, 16), (3, 1024, 4), (4, 1, 7), (5, 1, 18), (6, 1, 17), (7, 1, 24), (8, 16, 4), (9, 1, 16), (10, 1, 15),
   (11, 128, 8), (12, 1, 16), (13, 1, 24), (14, 12, 6), (15, 262144, 9)]

/-- The value of a gauge; none for an accumulator. -/
def State.gauge (s : State) (g i j : Nat) : Option Nat :=
  match g, j with
  | 3, 1 => some (s.occ (i / 8) (i % 8)).1
  | 3, 2 => some (s.egressCells (i / 8) (i % 8))
  | 5, 17 => some s.rdm.penCells
  | 6, 15 => some (s.wbsThat fun _ => true).length
  | 6, 16 => some (Tab.keys (fun (l : Lock) => l.state != 0) s.cmd.locks).length
  | 8, 0 => some (s.pool i).missing
  | 8, 1 => some (((s.pool i).resync.map (·.left)).getD 0)
  | 8, 2 => some (s.pool i).lost.length
  | 8, 3 => some (s.fld (Reg.LAY_MNT_STATUS i) Fd.LAY_MNT_STATUS_LOAD)
  | 11, 6 => some (s.outstanding i).length
  | 15, 0 => some (if (s.chan i).st = .free then 0 else s.handleOf i)
  | _, _ => none

/-- Value `j` of instance `i` of group `g`. -/
def State.counter (s : State) (g i j : Nat) : Nat :=
  (s.gauge g i j).getD (Tab.rd (fun _ => 0) s.tel.acc (telKey g i j))

/-- The catalogue holds value `j` of instance `i` of group `g`. -/
def catalogued (g i j : Nat) : Bool := catalogue.any fun (e : Nat × Nat × Nat) => e.1 == g && decide (i < e.2.1) && decide (j < e.2.2)

/-- TEL_CTR_SEL_WRITE: a snapshot is taken at the next seam. -/
def execTelCtrSelWrite (w : Word) (s : State) : Host.Outcome State Fault Refusal :=
  .next (s.hostWrite Reg.TEL_CTR_SEL fun s =>
    let s := s.regWrite Reg.TEL_CTR_SEL w
    { s with tel := { s.tel with ctrDue := true } })

/-- The snapshot into TEL_CTR_VAL at its seam (R523). -/
def State.ctrSnap (s : State) : State :=
  if !s.tel.ctrDue then s
  else
    let r := Reg.TEL_CTR_SEL
    let g := s.fld r Fd.TEL_CTR_SEL_GROUP
    let i := s.fld r Fd.TEL_CTR_SEL_INSTANCE
    let j := s.fld r Fd.TEL_CTR_SEL_INDEX
    let ok := catalogued g i j
    let v := if ok then s.counter g i j else 0
    let s := { s with tel := { s.tel with ctrDue := false } }
    let s := s.wrReg Reg.TEL_CTR_VAL_LO (BitVec.ofNat 32 v)
    let s := s.wrReg Reg.TEL_CTR_VAL_HI (BitVec.ofNat 32 (v / 4294967296))
    s.setFld Reg.TEL_STATUS Fd.TEL_STATUS_VALID (b2n ok)

/-! ### Hardware dumps (R524 to R527) -/

/-- A dump is entered or under way: no snapshot, no copy and no error log record (R524, R533). -/
def State.dumping (s : State) : Bool := s.itn.dumpDue != 0 || s.itn.dumpPlan || s.itn.stopped

/-- A snapshot is not delivered. -/
def State.skipSnap (s : State) : State := { s with tel := { s.tel with skipped := (s.tel.skipped + 1) % 4294967296 } }

/-- The snapshots that wait are copied in SEQ order, one at a time, while the endpoint's link is up; one whose slot is not free is
discarded and counted in DUMP_FULL (R525). -/
def State.copyNext : Nat → State → State
  | 0, s => s
  | n + 1, s =>
    let slots := s.fld Reg.TEL_DUMP_GEOM Fd.TEL_DUMP_GEOM_SLOTS
    let p := s.fld Reg.TEL_DUMP_PROD Fd.TEL_DUMP_PROD_PROD
    if s.tel.snaps.isEmpty || s.flag Reg.TEL_STATUS Fd.TEL_STATUS_DUMPING || !s.crs.linkUp || s.dumping then s
    else if (p + 1) % slots = s.fld Reg.TEL_DUMP_CONS Fd.TEL_DUMP_CONS_CONS then
      State.copyNext n (({ s with tel := { s.tel with snaps := s.tel.snaps.drop 1 } }).skipSnap.cntTel 2 1)
    else s.setFld Reg.TEL_STATUS Fd.TEL_STATUS_DUMPING 1

/-- The gauges of the snapshot's groups that are not zero, by key. -/
def State.gauges (s : State) (groups : List (Nat × Nat × Nat)) : List (Nat × Nat) :=
  groups.flatMap fun (e : Nat × Nat × Nat) =>
    ([0, 1, 2, 3, 6, 15, 16, 17].filter fun j => decide (j < e.2.2)).flatMap fun j =>
      if (s.gauge e.1 0 j).isNone then []
      else
        let is := if e.1 = 15 then s.liveChans else List.range e.2.1
        is.filterMap fun i => match s.gauge e.1 i j with
          | some v => if v = 0 then none else some (telKey e.1 i j, v)
          | none => none

/-- The groups that a snapshot carries: those of the mask, and group 15 only with `chans`. -/
def snapGroups (mask : Nat) (chans : Bool) : List (Nat × Nat × Nat) :=
  catalogue.filter fun (e : Nat × Nat × Nat) => natBit mask e.1 && (e.1 != 15 || chans)

/-- A snapshot of this seam. -/
def State.takeSnap (s : State) : State :=
  let mask := s.fld Reg.TEL_GROUPS Fd.TEL_GROUPS_MASK * 2
  let div := or1 (s.fld Reg.TEL_DUMP_CTL Fd.TEL_DUMP_CTL_CHAN_DIV)
  let chans := s.flag Reg.TEL_GROUPS Fd.TEL_GROUPS_CHAN_EN && s.tel.dumps % div == 0
  let gs := snapGroups mask chans
  let vals := (s.gauges gs).foldl (fun t (e : Nat × Nat) => Tab.wr (fun _ => 0) t e.1 e.2)
    (s.tel.acc.filter fun (e : Nat × Nat) => gs.any fun (x : Nat × Nat × Nat) => x.1 == e.1 / 32 / 262144)
  let snap : Snap :=
    { seq := s.tel.dumpSeq + 1, tick := s.itn.tick, ptpSec := s.seamPtp.1, ptpNs := s.seamPtp.2, groups := mask, chans := chans, values := vals
      role := s.pairState }
  { s with tel := { s.tel with snaps := s.tel.snaps ++ [snap], dumpSeq := s.tel.dumpSeq + 1, dumps := s.tel.dumps + 1 } }

/-- The latch of a dump snapshot (R524): at the seam that ends tick index 255 of every INTERVAL-th cycle, once a cycle. -/
def State.dumpLatch (s : State) : State :=
  let n := s.fld Reg.TEL_DUMP_CTL Fd.TEL_DUMP_CTL_INTERVAL
  if s.itn.tick % 256 ≠ 255 ∨ ¬ s.itn.running ∨ s.tel.latchTick = some s.now then s
  else if n = 0 ∨ s.dumping then { s with tel := { s.tel with cycles := 0, latchTick := some s.now } }
  else
    let c := s.tel.cycles + 1
    let s := { s with tel := { s.tel with cycles := c, latchTick := some s.now } }
    let s := if c % n ≠ 0 then s else if 2 ≤ s.tel.snaps.length then s.skipSnap.cntTel 1 1 else s.takeSnap
    if c % n = 0 then s.copyNext 3 else s

/-- TELEMETRY_DUMP_LATCH. -/
def execTelemetryDumpLatch (s : State) : Host.Outcome State Fault Refusal := .next (if s.atSeam then s.dumpLatch else s)

/-- The 128 bytes of a trace record (Table 18-4). -/
def Trace.bytes (t : Trace) : List Byte :=
  let b := leBytes 4 t.tag ++ leBytes 4 t.channel ++ leBytes 3 t.qpn ++ leBytes 1 t.opcode ++ leBytes 2 t.cid ++ leBytes 1 t.cls
    ++ leBytes 1 t.flags ++ leBytes 8 t.tick ++ leBytes 2 t.cycle ++ leBytes 2 t.status ++ leBytes 4 t.blocks
    ++ t.stamps.flatMap (leBytes 4) ++ leBytes 8 t.slba ++ leBytes 2 t.volume ++ leBytes 1 t.cluster ++ [0]
  b ++ leBytes 4 (crc32c b).toNat

/-- A group block: its header, then the values of every instance (R526). -/
def Snap.block (x : Snap) (e : Nat × Nat × Nat) : List Byte :=
  leBytes 1 e.1 ++ leBytes 1 e.2.2 ++ zeros 2 ++ leBytes 4 e.2.1 ++ leBytes 4 (16 + 8 * e.2.1 * e.2.2) ++ zeros 4
    ++ (List.range e.2.1).flatMap fun i => (List.range e.2.2).flatMap fun j => leBytes 8 (Tab.rd (fun _ => 0) x.values (telKey e.1 i j))

/-- Bytes of the group blocks of `gs`. -/
def blocksLen (gs : List (Nat × Nat × Nat)) : Nat := gs.foldl (fun a (e : Nat × Nat × Nat) => a + 16 + 8 * e.2.1 * e.2.2) 0

/-- The header of a dump (Table 18-2) over the bytes that follow it. -/
def State.snapHeader (s : State) (x : Snap) (traces : Nat) (body : List Byte) : List Byte :=
  let h := leBytes 4 0x44545856 ++ leBytes 2 1 ++ leBytes 2 (snapGroups x.groups x.chans).length ++ leBytes 8 x.seq ++ leBytes 8 x.tick
    ++ leBytes 8 x.ptpSec ++ leBytes 4 x.ptpNs ++ leBytes 4 (64 + body.length) ++ leBytes 4 traces ++ leBytes 4 s.tel.traceLost
    ++ leBytes 4 s.tel.skipped ++ leBytes 1 x.role ++ zeros 7
  h ++ leBytes 4 (crc32c (h ++ body)).toNat

/-- The trace records that a dump carries: the oldest not carried, as many as fit, in TAG order. -/
def State.carried (s : State) (start slotSize : Nat) : List Trace :=
  if s.flag Reg.TEL_GROUPS Fd.TEL_GROUPS_TRACE_EN then
    sortBy (·.tag) ((s.tel.traces.drop (s.tel.traces.length - s.tel.uncarried)).take ((slotSize - start) / 128))
  else []

/-- A copy ends without a header: its snapshot is not delivered, and the next copy waits for the next latch seam (R527). -/
def State.copyAbort (s : State) : State :=
  if s.flag Reg.TEL_STATUS Fd.TEL_STATUS_DUMPING then
    (({ s with tel := { s.tel with snaps := s.tel.snaps.drop 1 } }).skipSnap.cntTel 3 1).setFld Reg.TEL_STATUS Fd.TEL_STATUS_DUMPING 0
  else s

/-- A copy ends: the bytes from 64 on, then the header; the producer index advances and TEL_DUMP_READY follows (R525). -/
def State.copyDumpDone (s : State) (x : Snap) : State :=
  let slots := s.fld Reg.TEL_DUMP_GEOM Fd.TEL_DUMP_GEOM_SLOTS
  let size := s.fld Reg.TEL_DUMP_GEOM Fd.TEL_DUMP_GEOM_SLOT_4K * 4096
  let p := s.fld Reg.TEL_DUMP_PROD Fd.TEL_DUMP_PROD_PROD
  let addr := hiLo (s.rd Reg.TEL_DUMP_ADDR_HI).toNat (s.rd Reg.TEL_DUMP_ADDR_LO).toNat + p * size
  let gs := snapGroups x.groups x.chans
  let len := 64 + blocksLen gs
  let start := (len + 63) / 64 * 64
  let ts := s.carried start size
  let body := gs.flatMap x.block ++ (if ts.isEmpty then [] else zeros (start - len) ++ ts.flatMap Trace.bytes)
  let s := (s.emit (.hostWrite (addr + 64) body)).emit (.hostWrite addr (s.snapHeader x ts.length body))
  let s := { s with tel := { s.tel with snaps := s.tel.snaps.drop 1, skipped := 0, traceLost := 0, uncarried := s.tel.uncarried - ts.length } }
  let s := (s.setFld Reg.TEL_DUMP_PROD Fd.TEL_DUMP_PROD_PROD ((p + 1) % slots)).setFld Reg.TEL_STATUS Fd.TEL_STATUS_DUMPING 0
  let s := s.cntTel 0 1
  if s.flag Reg.TEL_GROUPS Fd.TEL_GROUPS_READY_EV then s.raise Ev.TEL_DUMP_READY p x.seq (64 + body.length) else s

/-- TEL_DUMP_COPY_DONE: the copy in progress ends, with every write successful when `ok`. -/
def execTelDumpCopyDone (ok : Bool) (s : State) : Host.Outcome State Fault Refusal :=
  .next (match s.tel.snaps with
    | [] => s
    | x :: _ =>
      if s.flag Reg.TEL_STATUS Fd.TEL_STATUS_DUMPING then (if ok then (s.copyDumpDone x).copyNext 3 else s.copyAbort) else s)

/-! ### TEL_CONFIG (R528) -/

/-- The dump settings of a descriptor are in range. -/
def Desc.dumpSetOk (d : Desc) : Bool :=
  d.f 16 8 % 4096 == 0 && d.f 24 4 % 4096 == 0 && decide (65536 ≤ d.f 24 4) && decide (d.f 24 4 ≤ 268435456)
    && decide (2 ≤ d.f 28 2) && decide (d.f 28 2 ≤ 1024) && decide (1 ≤ d.f 34 2)

/-- The tagging settings of a descriptor are in range. -/
def Desc.tagSetOk (d : Desc) : Bool := decide (d.f 9 1 ≤ 24) && decide (d.f 10 1 ≤ 2) && d.f 36 4 != 0

/-- TEL_CONFIG: the checks of R528; the changes take effect at the next seam. A standby refuses the tagging settings unless the active
has it repeat the command (`d.ring` 255), whose dump settings are then not its own. -/
def telConfig (d : Desc) (s : State) : State :=
  let a := d.f 8 1
  let chans := natBit (d.f 11 1) 1
  s.checked d
    [(d.handle == 0 && d.reservedZero [(8, 32)] && decide (1 ≤ a) && decide (a ≤ 3) && decide (d.f 11 1 ≤ 7) && d.f 32 2 % 2 == 0
        && (!natBit a 0 || d.dumpSetOk) && (!natBit a 1 || d.tagSetOk), St.GEN_FIELD),
     (!natBit a 1 || !s.isStandby || d.ring == 255, St.GEN_NOT_ACTIVE),
     (!natBit a 0 || decide (64 + blocksLen (snapGroups (d.f 32 2) chans) ≤ d.f 24 4), St.TEL_SLOT_SMALL)]
    fun s => s.defer d

def execTelConfig (s : State) : Host.Outcome State Fault Refusal := .next (s.ringCmd Op.TEL_CONFIG telConfig)

/-- The dump settings of a TEL_CONFIG take effect: P, TEL_DUMP_CONS and SEQ start again, and the snapshots not yet copied are discarded. -/
def State.dumpSettings (s : State) (d : Desc) : State :=
  let s := s.wrReg Reg.TEL_DUMP_ADDR_LO (BitVec.ofNat 32 (d.f 16 4))
  let s := s.wrReg Reg.TEL_DUMP_ADDR_HI (BitVec.ofNat 32 (d.f 20 4))
  let s := (s.setFld Reg.TEL_DUMP_GEOM Fd.TEL_DUMP_GEOM_SLOT_4K (d.f 24 4 / 4096)).setFld Reg.TEL_DUMP_GEOM Fd.TEL_DUMP_GEOM_SLOTS (d.f 28 2)
  let s := (s.setFld Reg.TEL_DUMP_CTL Fd.TEL_DUMP_CTL_CHAN_DIV (d.f 34 2)).setFld Reg.TEL_DUMP_CTL Fd.TEL_DUMP_CTL_INTERVAL (d.f 30 2)
  let s := s.wrReg Reg.TEL_GROUPS (BitVec.ofNat 32 (d.f 11 1 * 65536 + d.f 32 2))
  let s := ((s.wrReg Reg.TEL_DUMP_PROD 0).wrReg Reg.TEL_DUMP_CONS 0).setFld Reg.TEL_STATUS Fd.TEL_STATUS_DUMPING 0
  { s with tel := { s.tel with snaps := [], dumpSeq := 0, cycles := 0, dumps := 0 } }

/-- The tagging settings of a TEL_CONFIG take effect: x is loaded with SEED (R529). -/
def State.tagSettings (s : State) (d : Desc) : State :=
  let s := (s.setFld Reg.TEL_TAG_CFG Fd.TEL_TAG_CFG_FILTER_KIND (d.f 10 1)).setFld Reg.TEL_TAG_CFG Fd.TEL_TAG_CFG_TAG_SHIFT (d.f 9 1)
  let s := (s.wrReg Reg.TEL_TAG_FILTER (BitVec.ofNat 32 (d.f 12 4))).wrReg Reg.TEL_TAG_SEED (BitVec.ofNat 32 (d.f 36 4))
  { s with tel := { s.tel with x := d.f 36 4 } }

/-- A TEL_CONFIG at its seam. -/
def State.telConfigNow (s : State) (d : Desc) : State :=
  let s := if natBit (d.f 8 1) 0 && d.ring != 255 then s.dumpSettings d else s
  (if natBit (d.f 8 1) 1 then s.tagSettings d else s).done d St.OK

/-! ### Trace records (R531) -/

/-- Records of the trace buffer. -/
def traceMax : Nat := 4194304

/-- One record is appended; a full buffer overwrites the oldest, which counts in TRACE_LOST when no dump has carried it. -/
def State.addTrace (s : State) (t : Trace) : State :=
  let full := decide (traceMax ≤ s.tel.traces.length)
  let lost := full && decide (traceMax ≤ s.tel.uncarried)
  let s := if lost then
      ({ s with tel := { s.tel with traceLost := s.tel.traceLost + 1, traceLostEv := s.tel.traceLostEv + 1 } }).cntTel 5 1
    else { s with tel := { s.tel with uncarried := s.tel.uncarried + 1 } }
  { s with tel := { s.tel with traces := (if full then s.tel.traces.drop 1 else s.tel.traces) ++ [t] } }

/-- The hand-off phase of a seam appends the records of the waybills that became FREE; overwritten records are reported once per second. -/
def State.traceSeam (s : State) : State :=
  let s := s.tel.traceDue.foldl State.addTrace { s with tel := { s.tel with traceDue := [] } }
  let due := match s.tel.lastTraceLostEv with
    | none => true
    | some t => decide (t + ticksPerSecond ≤ s.now)
  if s.tel.traceLostEv ≠ 0 ∧ due = true then
    let n := s.tel.traceLostEv
    ({ s with tel := { s.tel with traceLostEv := 0, lastTraceLostEv := some s.now } }).raise Ev.TEL_TRACE_LOST n 0 0
  else s

/-- A trace record lost to an HBM error (19 Table 19-2): it is discarded and counted as lost. -/
def State.dropTrace (s : State) (i : Nat) : State :=
  if i < s.tel.traces.length then
    let young := decide (s.tel.traces.length - s.tel.uncarried ≤ i)
    let s := { s with tel := { s.tel with traces := s.tel.traces.eraseIdx i, uncarried := s.tel.uncarried - b2n young } }
    ({ s with tel := { s.tel with traceLost := s.tel.traceLost + 1, traceLostEv := s.tel.traceLostEv + 1 } }).cntTel 5 1
  else s

/-- A latched snapshot lost to an HBM error: it is discarded and counted as skipped. -/
def State.dropSnap (s : State) (i : Nat) : State :=
  if i < s.tel.snaps.length then
    let s := if i = 0 then s.setFld Reg.TEL_STATUS Fd.TEL_STATUS_DUMPING 0 else s
    ({ s with tel := { s.tel with snaps := s.tel.snaps.eraseIdx i } }).skipSnap.cntTel 1 1
  else s

/-! ### The error log (R533, R534) -/

/-- Core 3 runs its firmware. -/
def State.core3Runs (s : State) : Bool := natBit (s.fld Reg.MGT_STATUS Fd.MGT_STATUS_CORE_UP) 3 && !s.mgt.core3Down

/-- Events whose records take no credit. -/
def freeOfCredit : List Nat := [Ev.CIP_ALARM, Ev.CIP_ZEROISED, Ev.CRS_RESET_REPORT, Ev.MGT_WATCHDOG]

/-- Records that the log keeps at least, and all its positions: 7,935 and 7,936 sectors of 64. -/
def errLogKeep : Nat := 507840
def errLogMax : Nat := 507904

/-- A record joins the log of a device; a full log has lost its oldest sector. -/
def Flash.logPut (f : Flash) (r : ErrRec) : Flash :=
  let l := f.errLog ++ [r]
  { f with errLog := if errLogMax ≤ l.length then l.drop (errLogMax - errLogKeep) else l }

/-- A record of an event is written, on device 0 first and then on device 1. -/
def State.logWrite (s : State) (h : HistEnt) : State :=
  let r : ErrRec := { code := h.ev.code, lseq := s.tel.lseq, tick := h.ev.tick, ptpSec := h.ptpSec, ptpNs := h.ptpNs, boot := s.tel.boot
                      v0 := h.ev.v0, v1 := h.ev.v1, v2 := h.ev.v2, seq := h.ev.seq }
  ({ s with mgt := { s.mgt with flash0 := s.mgt.flash0.logPut r, flash1 := s.mgt.flash1.logPut r }
            tel := { s.tel with lseq := s.tel.lseq + 1 } }).cntTel 6 1

/-- The TEL_ERRLOG_SUPPRESSED record that precedes the first record after credit has returned: the event is raised, and its record takes
a credit. -/
def State.logSuppressed (s : State) : State :=
  if s.tel.suppressed = 0 ∨ s.tel.credit = 0 then s
  else
    let t := s.tel
    let s := { s with tel := { s.tel with suppressed := 0, credit := s.tel.credit - 1 } }
    let q := s.tel.errQ
    let s := s.raise Ev.TEL_ERRLOG_SUPPRESSED t.suppressed t.supFirst t.supLast
    let s := { s with tel := { s.tel with errQ := q } }
    match s.tel.hist.find? (fun h => h.ev.seq == (s.hst.evSeq + 4294967295) % 4294967296) with
    | some h => s.logWrite h
    | none => s

/-- ERROR_LOG_WRITE: the oldest selected event is written, or counted as suppressed. -/
def State.errorLog (s : State) : State :=
  if !s.core3Runs || s.dumping then s
  else
    let s := s.logSuppressed
    match s.tel.errQ with
    | [] => s
    | h :: q =>
      let s := { s with tel := { s.tel with errQ := q } }
      if freeOfCredit.contains h.ev.code then s.logWrite h
      else if s.tel.credit = 0 then
        ({ s with tel := { s.tel with suppressed := s.tel.suppressed + 1, supLast := h.ev.code
                                      supFirst := if s.tel.suppressed = 0 then h.ev.code else s.tel.supFirst } }).cntTel 7 1
      else ({ s with tel := { s.tel with credit := s.tel.credit - 1 } }).logWrite h

def execErrorLogWrite (s : State) : Host.Outcome State Fault Refusal := .next s.errorLog

/-- The credit is refilled at 64 records per second, to 512. -/
def State.creditRefill (s : State) : State :=
  let n := s.tel.creditTicks + 64
  if ticksPerSecond ≤ n then { s with tel := { s.tel with credit := min 512 (s.tel.credit + 1), creditTicks := n - ticksPerSecond } }
  else { s with tel := { s.tel with creditTicks := n } }

/-- At each start of its firmware core 3 continues LSEQ and BOOT from the device whose newest record has the higher LSEQ. -/
def State.logResume (s : State) : State :=
  let last (f : Flash) : Nat := ((f.errLog.getLast?).map (·.lseq + 1)).getD 0
  let boots := (s.mgt.flash0.errLog ++ s.mgt.flash1.errLog).foldl (fun a (r : ErrRec) => max a (r.boot + 1)) 0
  { s with tel := { s.tel with lseq := max (last s.mgt.flash0) (last s.mgt.flash1), boot := boots } }

/-! ### LOG_READ (R535) -/

/-- The 64 bytes of an error log record (Table 18-7). -/
def ErrRec.bytes (r : ErrRec) : List Byte :=
  let b := leBytes 4 0x474C5856 ++ leBytes 2 r.code ++ zeros 2 ++ leBytes 8 r.lseq ++ leBytes 8 r.tick ++ leBytes 8 r.ptpSec
    ++ leBytes 4 r.ptpNs ++ leBytes 4 r.boot ++ leBytes 4 r.v0 ++ leBytes 4 r.v1 ++ leBytes 4 r.v2 ++ leBytes 4 r.seq ++ zeros 4
  b ++ leBytes 4 (crc32c b).toNat

/-- The 32 bytes of an event entry with PHASE 0 (03 Table 3-6). -/
def EvEntry.bytes (e : EvEntry) : List Byte := e.entry false

/-- The 48 bytes of an event history entry. -/
def HistEnt.bytes (h : HistEnt) : List Byte := h.ev.bytes ++ leBytes 8 h.ptpSec ++ leBytes 4 h.ptpNs ++ zeros 4

/-- The error log as core 3 reads it: that of the device with the newer record. -/
def State.errLog (s : State) : List ErrRec :=
  let last (f : Flash) : Nat := ((f.errLog.getLast?).map (·.lseq + 1)).getD 0
  if last s.mgt.flash0 < last s.mgt.flash1 then s.mgt.flash1.errLog else s.mgt.flash0.errLog

/-- The entries of a log by key, in key order (Table 18-8). -/
def State.logEntries (s : State) (log pool : Nat) : List (Nat × List Byte) :=
  match log with
  | 1 => s.errLog.map fun r => (r.lseq, r.bytes)
  | 2 => s.tel.hist.map fun h => (h.ev.seq, h.bytes)
  | 3 => sortBy (fun (e : Nat × List Byte) => e.1) (s.tel.traces.map fun t => (t.tag, t.bytes))
  | 4 => s.mgt.schedLog.map fun r => (r.seq, r.bytes)
  | _ => (s.pool pool).lost.zipIdx.map fun (e : LostEnt × Nat) => (e.2, e.1.bytes)

/-- LOG_READ: its checks; the entries are taken from the snapshot of the next seam. `ok` tells whether the write of the buffer succeeds
(03 R569); a COUNT out of range is RING_FORMAT (03 R79). -/
def logRead (ok : Bool) (d : Desc) (s : State) : State :=
  let l := d.f 8 1
  s.checked d
    [(d.handle == 0 && d.reservedZero [(8, 1), (9, 1), (10, 2), (16, 8), (24, 8)] && decide (1 ≤ l) && decide (l ≤ 5)
        && (l == 5 || d.f 9 1 == 0) && decide (d.f 9 1 ≤ 15) && d.f 24 8 % 64 == 0, St.GEN_FIELD),
     (decide (1 ≤ d.f 10 2) && decide (d.f 10 2 ≤ 4096), St.RING_FORMAT),
     (l != 5 || (s.pool (d.f 9 1)).st != 0, St.LAY_NO_POOL),
     (ok, St.GEN_DMA)]
    fun s => s.defer d

def execLogRead (ok : Bool) (s : State) : Host.Outcome State Fault Refusal := .next (s.ringCmd Op.LOG_READ (logRead ok))

/-- A LOG_READ at its seam. -/
def State.logReadNow (s : State) (d : Desc) : State :=
  let es := s.logEntries (d.f 8 1) (d.f 9 1)
  let start := d.f 16 8
  let from_ := es.filter fun (e : Nat × List Byte) => decide (start ≤ e.1)
  let n := min (d.f 10 2) from_.length
  let skipped := ((es.head?).map fun (e : Nat × List Byte) => e.1 - start).getD 0
  let next := ((from_.drop n).head?.map fun (e : Nat × List Byte) => e.1).getD 0xFFFFFFFFFFFFFFFF
  let s := if n = 0 then s else s.emit (.hostWrite (d.f 24 8) ((from_.take n).flatMap fun (e : Nat × List Byte) => e.2))
  s.complete d St.OK (hiLo (skipped % 4294967296) n) next 0

end Sys2Proof.Machine
end

