-- ==== Sys2Proof/Machine/Faults.lean ====
section
/-!
DEFINITION. Faults of hardware units: cluster faults and budget overruns (02 R41, R66), network ports (04 R131), the loss of an HBM stack
(19 R547, 09 R301), uncorrectable errors of HBM (19 R548) and of the serai (06 R198), and fatal errors in shared state (17 R506, R507).
-/

namespace Sys2Proof.Machine

open Sys2Proof

/-! ### Clusters (02 Table 2-10) and ports -/

/-- CLUSTER_FAULT: a fence cause of Table 2-10 is detected on cluster `k`; a budget overrun (cause 6) of a stack or unit is counted and
reported first (R41). -/
def State.clusterFault (s : State) (k cause engine unit : Nat) : State :=
  if cause = 0 then s
  else
    if cause = 6 then s.overrun (8 * k + engine) unit else s.detect k cause engine

def execClusterFault (k : Fin 12) (cause engine : Fin 8) (unit : Fin 16) (s : State) : Host.Outcome State Fault Refusal :=
  .next (s.clusterFault k.val cause.val engine.val unit.val)

/-- PORT_LOST: physical port `p` is lost with a cause of MAC_STATUS.LOST_CAUSE; a loss of its PLL's lock (cause 2) concerns an enabled port only (R131),
and `ref` tells that its REFCLK_NET is absent (17 R500). -/
def execPortLost (p : Fin 16) (cause : Fin 4) (ref : Bool) (s : State) : Host.Outcome State Fault Refusal :=
  let s := if ref then s.clockSet 4 (p.val / 4) false else s
  .next (if cause.val = 0 ∨ (cause.val = 2 ∧ s.fld (Reg.MAC_CTL p.val) Fd.MAC_CTL_ENABLE = 0) then s else s.losePort p.val cause.val)

/-! ### Loss of a stack (19 R547, 09 R301) -/

def State.stackLost (s : State) (n : Nat) : Bool := natBit (s.fld Reg.HBM_STATUS Fd.HBM_STATUS_LOST) n

/-- The variant that the controller will select for the loss of stack `n`, or 0xFF. -/
def State.stackChoice (s : State) (n : Nat) : Nat :=
  if s.itn.running && s.itn.variant == 0 then
    ((s.img.varts.find? fun v => v.kind == 2 && v.index == n).map (·.id)).getD 0xFF
  else 0xFF

/-- HBM stack `n` is lost with a cause: the status, the event, and the seam's selection of a variant (R66). -/
def State.loseStack (s : State) (n cause : Nat) : State :=
  if s.stackLost n then s
  else
    let r := Reg.HBM_STATUS
    let s := s.setFld r Fd.HBM_STATUS_LOST (setNatBit (s.fld r Fd.HBM_STATUS_LOST) n true)
    let s := s.setFld r Fd.HBM_STATUS_LOST_CAUSE (s.fld r Fd.HBM_STATUS_LOST_CAUSE + cause * 4 ^ n)
    let s := if cause = 1 then s.clockSet 3 n false else s
    let s := { s with itn := { s.itn with pendStacks := s.itn.pendStacks ++ [n] } }
    s.raise Ev.HBM_STACK_LOST n cause (s.stackChoice n)

/-- HBM_STACK_LOST: the PLL (1) or the PHY (2) of stack `n` reports its loss; an uncorrectable error (3) comes with HBM_UNCORRECTABLE. -/
def execHbmStackLost (n : Fin 4) (cause : Fin 4) (s : State) : Host.Outcome State Fault Refusal :=
  .next (if cause.val = 1 ∨ cause.val = 2 then s.loseStack n.val cause.val else s)

/-- The cache lines whose slots lie on stack `n` are dropped; the dirty and shadow lines of each volume are reported as lost. -/
def State.dropStackLines (s : State) (n : Nat) : State :=
  let gone := s.lay.lines.filter fun (e : Nat × Line) => e.2.st != .free && e.2.st != .filling && Config.lineStack e.1 == n
  let lost := (gone.filter fun (e : Nat × Line) => e.2.isDirty || e.2.st == .shadow).map fun (e : Nat × Line) => e.2.vol
  let s := gone.foldl (fun (s : State) (e : Nat × Line) => s.dropLine e.1) s
  (lost.eraseDups).foldl (fun (s : State) v => s.dirtyLost v 3 (lost.filter (· == v)).length) s

/-- The destages that had copied a line of stack `n`, or whose staging lay there: their items end, what is left of their lines is dirty
again, and their stripes are resynchronised as listed stripes. -/
def State.stackDestages (s : State) (n : Nat) (ws : List Work) : State :=
  let hit := ws.filter fun w => w.kind == .destage && (w.lines.any (fun (l : Nat × Nat) => Config.lineStack l.1 == n) || Config.stagingOn w.id n)
  let s := hit.foldl (fun (s : State) w =>
    let s := (s.dropItems fun it => it.ref == .work w.id).releaseRef (.work w.id)
    ((match s.work? w.id with | some w => s.linesBack w | none => s)).dropWork w.id) s
  (hit.map (·.pool)).eraseDups.foldl (fun (s : State) p =>
    let listed := (hit.filter fun w => w.pool == p).map fun w => (w.stripe, w.jslot.getD 1048576)
    match (s.pool p).resync with
    | none => s.startResync p false listed
    | some r =>
      if r.full then s
      else s.updPool p fun P => { P with resync := some { r with listed := r.listed ++ listed, left := r.left + listed.length } }) s

/-- The volumes whose map entries lay on stack `n` answer Namespace Not Ready until their maps are reloaded. -/
def State.stackMaps (s : State) (n : Nat) : State :=
  (s.vols.filter fun v => (List.range (s.vol v).slabs.length).any fun i => Config.mapStack ((s.vol v).first + i) == n).foldl
    (fun (s : State) v => s.updVol v fun x => { x with unmapped := true }) s

/-- The contents of stack `n` at the seam that ends the tick of its loss (09 R301). -/
def State.stackDrop (s : State) (n : Nat) : State :=
  let ws := s.lay.works
  ((s.dropStackLines n).stackDestages n ws).stackMaps n

/-! ### Uncorrectable HBM errors (19 R548) -/

/-- A line's data could not be read: as a BIND failure of the line (11 Table 11-6). -/
def State.badLine (s : State) (i : Nat) : State :=
  let x := s.line i
  if x.st = .free ∨ x.st = .filling then s
  else
    let s := ({ s with cip := { s.cip with bindFails := s.cip.bindFails + 1 } }).cntChk 1 1
    if x.isDirty then s.poisonLine x.vol x.unit
    else if x.st = .shadow then s.setLine i { x with data := poisonUnit }
    else s.evictLine x.vol x.unit

/-- An image buffer could not be read: its image counts as failed check 2; a running image fences the cluster that read it. -/
def State.badImage (s : State) (b : Bool) (k engine : Nat) : State :=
  match (s.buf b).st with
  | .empty => s
  | .loading => s.loadEnd b [] (some St.ITN_CRC)
  | .ready => (s.setBuf b ImgBuf.reset).loadStatus St.ITN_CRC
  | .pending =>
    let d := s.itn.swapDesc
    let s : State := { s with itn := { s.itn with swapPend := 0, swapDesc := none } }
    ((s.setBuf b ImgBuf.reset).loadStatus St.ITN_CRC).doneOpt d St.ITN_CRC 0 0
  | .running => s.detect k 7 engine

/-- HBM_UNCORRECTABLE on stack `n`: counted, and handled by the region that holds it (Table 19-2). -/
def execHbmUncorrectable (n : Fin 4) (r : HbmRegion) (s : State) : Host.Outcome State Fault Refusal :=
  let s := s.satFld (Reg.HBM_ECC n.val) Fd.HBM_ECC_UNCORR 1
  .next (if s.stackLost n.val then s else match r with
    | .line i => s.badLine i
    | .twoCopy => s
    | .image b k e => s.badImage b k.val e.val
    | .snapshot i => s.dropSnap i
    | .trace i => s.dropTrace i
    | .other => s.loseStack n.val 3)

/-! ### Fatal errors in shared state (17 R506, R507) -/

/-- A fatal error of a source of Table 17-5: during a dump it is only recorded; in a paired shelf a chip reset follows at once; otherwise
the dump path is entered at the next seam, and the reset follows its end. -/
def State.fatalError (s : State) (src : Nat) : State :=
  if src = 0 ∨ 5 < src then s
  else
    let r := Reg.CRS_RESET_CAUSE
    if s.itn.dumpDue ≠ 0 then s.setFld r Fd.CRS_RESET_CAUSE_FATAL_SRC src
    else if s.straps.pairEn then s.chipReset rcFatal src
    else (s.setFld r Fd.CRS_RESET_CAUSE_FATAL_SRC src).orderDump 3

/-- FATAL_ERROR of source `src`. -/
def execFatalError (src : Fin 8) (s : State) : Host.Outcome State Fault Refusal := .next (s.fatalError src.val)

/-! ### Errors of the serai (06 R198) -/

/-- A received frame that has not left yet gets a bad tail. -/
def State.spoilFrame (s : State) (id : Nat) : State :=
  let bad (f : Frame) : Frame := if f.id = id then { f with bad := true } else f
  let s : State := { s with net := { s.net with
    rx := s.net.rx.map fun (e : Nat × Option Frame) => (e.1, e.2.map bad)
    toRdma := s.net.toRdma.map bad, toMgt := s.net.toMgt.map bad } }
  s.knownQps.foldl (fun (s : State) q =>
    if (s.qp q).pen.any fun f => f.id == id then s.updQp q fun x => { x with pen := x.pen.map bad } else s) s

/-- A frame for egress gets a bad tail (06 R187): one in transmission ends with an inverted FCS; one whose transmission has not begun is removed from
its queue, and counted. -/
def State.spoilEgress (s : State) (id : Nat) : State :=
  let bad (f : EgFrame) : EgFrame := if f.id = id then { f with bad := true } else f
  let s := { s with net := { s.net with tx := s.net.tx.map fun (e : Nat × Option EgFrame) => (e.1, e.2.map bad) } }
  let n := (s.net.egress.filter fun (f : EgFrame) => f.id == id).length
  (if n = 0 then s else s.cntSwc 4 n).discardQueued fun f => f.id == id

/-- SERAI_ECC_ERROR in an area of Table 6-4 at a cell or word index: a corrected error is counted; an uncorrectable one is counted,
reported and handled by what it hits. -/
def execSeraiEccError (area : Fin 5) (index : Word) (corrected : Bool) (hit : SeraiHit) (s : State) : Host.Outcome State Fault Refusal :=
  if corrected then .next (s.cntSwc 14 1)
  else
    let s := (s.cntSwc 15 1).raise Ev.SWC_ECC_UNCORR area.val index.toNat 0
    .next (match hit with
      | .unused => s
      | .frame id => s.spoilFrame id
      | .egress id => s.spoilEgress id
      | .held q psn => s.updQp q fun x => { x with held := x.held.map fun h => if h.psn = psn then { h with stomp := true } else h }
      | .control => s.fatalError 1)

end Sys2Proof.Machine
end

