-- ==== Sys2Proof/Machine/Glb.lean ====
section
/-!
DEFINITION. Register accesses (00 R9 to R12; 03 R76; 17 R514), the setup lock (19 R542, R543) and endpoint resets (03 R99).
-/

namespace Sys2Proof.Machine

open Sys2Proof

/-- The registers whose writes have rows of their own. -/
def ownRegister (off : Nat) : Bool :=
  decide (0x02000000 ≤ off) || (List.range 64).any (fun k => off == Reg.RING_CTL k) || (List.range 16).any (fun p => off == Reg.MAC_CTL p)
    || (List.range 12).any (fun k => off == Reg.CRS_CLU_CTL k)
    || [Reg.RING_EVT_CTL, Reg.ITN_CTL, Reg.RDM_QP_SEL, Reg.TMG_CHAN_SEL, Reg.LAY_VOL_SEL, Reg.CIP_KEY_SEL, Reg.CIP_ALARM, Reg.CHK_SW_CTL 0,
        Reg.CHK_SW_CTL 1, Reg.ENV_HOLD_STATUS, Reg.MGT_MEAS_SEL, Reg.MGT_ITK_CTL, Reg.MGT_RECOV_CTL, Reg.CRS_CHIP_RESET, Reg.TEL_CTR_SEL,
        Reg.GLB_LOCK].contains off

/-- Vector `v` is unmasked while its message is pending: the pending bit is cleared and the message sent (03 R98, the PCIe MSI-X rules). -/
def State.msixUnmask (s : State) (v : Nat) : State :=
  let off := Reg.MSIX_PBA (v / 32)
  let f : Fld := ⟨v % 32, 1⟩
  if s.fld (Reg.MSIX_CTRL v) ⟨0, 1⟩ = 0 ∧ s.fld off f = 1 then (s.setFld off f 0).msix v else s

/-- What some writes bring with them: a change of the coalescing may make a message due, and the unmasking of a vector sends its pending
message (03 R98); SMBUS_EN clears a lit LED (13 R403); a change of the tagging settings loads x with SEED (18 R529). -/
def State.afterWrite (s : State) (off : Nat) : State :=
  match ringOfReg off with
  | some k => s.irqCheck k
  | none =>
    if Reg.MSIX_CTRL 0 ≤ off ∧ off ≤ Reg.MSIX_CTRL 2047 then s.msixUnmask (regIdx (Reg.MSIX_CTRL 0) 0x10 off)
    else if Reg.DRV_BAY_CFG 0 ≤ off ∧ off < Reg.DRV_BAY_CFG 128 ∧ (off - Reg.DRV_BAY_CFG 0) % 0x20 = 0 then
      let b := regIdx (Reg.DRV_BAY_CFG 0) 0x20 off
      if s.flag (Reg.DRV_BAY_CFG b) Fd.DRV_BAY_CFG_SMBUS_EN then s.wrReg (Reg.BAY_LED b) 0 else s
    else if (off = Reg.TEL_TAG_CFG ∨ off = Reg.TEL_TAG_FILTER ∨ off = Reg.TEL_TAG_SEED) ∧ ¬ s.locked then
      { s with tel := { s.tel with x := (s.rd Reg.TEL_TAG_SEED).toNat } }
    else s

/-- The thresholds, areas or enables of PFC have changed: R185 is evaluated again, for every pair of port `m` too if the register is one of its own
(06 R185). -/
def State.pfcChanged (s : State) (m : Option Nat) : State :=
  match m with
  | some m => (List.range 8).foldl (fun s i => s.pfcPair m i) s.pfcCheck
  | none => s.pfcCheck

/-- The register at `off` has a new value: the serai's settings and PFC (06 R185), a shaper (07 R221), the PTP slave (04 R135). -/
def State.reconfigured (s : State) (off : Nat) : State :=
  if Reg.MAC_LP_CFG 0 ≤ off ∧ off < Reg.MAC_LP_CFG 128 ∧ off % 0x40 = 0 then s.pfcChanged (some (regIdx (Reg.MAC_LP_CFG 0) 0x40 off))
  else if off = Reg.SWC_SERAI_CFG ∨ off = Reg.SWC_HOLD_CFG ∨ off = Reg.SWC_SHARED_CFG then s.pfcChanged none
  else if Reg.SWC_PQ_BUF 0 0 ≤ off ∧ off < Reg.SWC_PQ_BUF 128 0 ∧ off % 0x20 ≤ 4 then s.pfcChanged (some (regIdx (Reg.SWC_PQ_BUF 0 0) 0x100 off))
  else if Reg.TMG_PORT_RATE 0 ≤ off ∧ off < Reg.TMG_PORT_RATE 128 ∧ (off % 0x10 = 4 ∨ off % 0x10 = 8) then
    s.shaperStart fun k => k == pointKey (regIdx (Reg.TMG_PORT_RATE 0) 0x10 off) .port
  else if Reg.TMG_NODE_RATE 0 ≤ off ∧ off < Reg.TMG_NODE_RATE 1024 ∧ (off % 0x10 = 8 ∨ off % 0x10 = 12) then
    s.shaperStart fun k => k % 4194304 == pointKey 0 (.node (regIdx (Reg.TMG_NODE_RATE 0) 0x10 off))
  else if off = Reg.MAC_PTP_CTL then s.ptpCtl
  else s

/-- A 32-bit write of `w` to the register at `off`; a register with a row of its own is written by that row. -/
def State.write32 (s : State) (off : Nat) (w : Word) : State :=
  if ownRegister off then s else s.hostWrite off fun s =>
    let t := (s.regWrite off w).afterWrite off
    if t.rd off = s.rd off then t else t.reconfigured off

/-- REGISTER_WRITE at `off`, an access of `size` bytes with the data `w`: one narrower than 32 bits is ignored, and one of 64 bits is two of
32 bits, the lower offset first (R9); one of 32 bits has its word in bits 31:0; a word for a register with a row of its own is left to that row. One
that a handshake crossing abandons is discarded and counted, whatever its register (17 R514). -/
def State.registerWrite (s : State) (off size : Nat) (w : BitVec 64) (abandoned : Bool) : State :=
  if size != 4 && size != 8 then s
  else if abandoned then s.satFld Reg.CRS_XING Fd.CRS_XING_ABANDONED_WR 1
  else if size = 8 then (s.write32 off (w.setWidth 32)).write32 (off + 4) ((w >>> 32).setWidth 32)
  else s.write32 off (w.setWidth 32)

def execRegisterWrite (off size : Nat) (w : BitVec 64) (abandoned : Bool) (s : State) : Host.Outcome State Fault Refusal :=
  .next (s.registerWrite off size w abandoned)

/-- The RC fields of the register at `off` are cleared by the read (R12). -/
def State.readClear (s : State) (off : Nat) : State :=
  match regAt off with
  | none => s
  | some r => (r.fields.filter fun f => f.acc == .rc).foldl (fun (s : State) f => s.setFld off f.fld 0) s

/-- The low words of 64-bit counters, whose read latches the high word 4 above (R11). TEL_CTR_VAL_LO is not among them: it shows a snapshot
that only a seam changes (18 R523), which the model takes to be no counter in the sense of R11 (DESIGN CHOICE, log entry 117). -/
def counterLow : List Nat := [Reg.ITN_TICK_LO, Reg.PAIR_TICK_LO]

/-- A 32-bit read of the register at `off`, with the word that it returns: the low word of a counter latches its high word; a word latched for
`off` is returned and used up (R11); RC fields are cleared (R12), but before READY nothing of another block is reached (16 R480). -/
def State.read32 (s : State) (off : Nat) : Word × State :=
  let latch (t : List (Nat × Option Word)) : State := { s with hst := { s.hst with latched := t } }
  if counterLow.contains off then
    (s.readReg off, latch (Tab.wr (fun _ => none) s.hst.latched (off + 4) (some (s.readReg (off + 4)))))
  else
    match Tab.rd (fun _ => none) s.hst.latched off with
    | some w => (w, latch (Tab.wr (fun _ => none) s.hst.latched off none))
    | none => (s.readReg off, if s.mgtReady || earlyBlock off then s.readClear off else s)

/-- A 32-bit read whose word is returned to the control host. -/
def State.readOut (s : State) (off : Nat) : State :=
  let r := s.read32 off
  r.2.emit (.regRead off r.1)

/-- A register read at `off` of `size` bytes (R9): one of 64 bits is two of 32 bits, the lower offset first; one narrower than 32 bits does what
a read of its whole word does and returns the addressed bytes. -/
def State.registerRead (s : State) (off size : Nat) : State :=
  if size = 8 then (s.readOut off).readOut (off + 4)
  else if size = 4 then s.readOut off
  else
    let r := s.read32 (off - off % 4)
    r.2.emit (.regRead off (BitVec.ofNat 32 (r.1.toNat / 2 ^ (8 * (off % 4)) % 2 ^ (8 * size))))

/-- REGISTER_READ_CLEAR of the register that the access `a` names. -/
def execRegisterReadClear (a : RegAccess) (s : State) : Host.Outcome State Fault Refusal := .next (s.registerRead a.off a.size)

/-- COUNTER_LOW_READ by the access `a`: the low word is returned and the high word latched for its next read. -/
def execCounterLowRead (a : RegAccess) (s : State) : Host.Outcome State Fault Refusal := .next (s.registerRead a.off a.size)

/-- ABANDONED_REGISTER_READ at `off`. -/
def execAbandonedRegisterRead (off : Nat) (s : State) : Host.Outcome State Fault Refusal :=
  .next ((s.satFld Reg.CRS_XING Fd.CRS_XING_ABANDONED_RD 1).emit (.regRead off 0xFFFFFFFF))

/-! ### The setup lock (19 R542, R543) -/

/-- The first check that a request of the lock fails: its REFUSED code. -/
def State.lockRefusal (s : State) : Option Nat :=
  firstFail [
    (s.itn.running, 1),
    (s.ringState 0 == ringRunning && s.ringState evtRing == ringRunning, 2),
    (s.treeFault.isNone, 3)]

/-- A write of GLB_LOCK: SET is checked while LOCKED is 0; a refusal is recorded, with the node of an invalid tree (07 R214). -/
def State.lockWrite (s : State) (w : Word) : State :=
  if Fd.GLB_LOCK_SET.get w = 0 ∨ s.locked then s
  else
    match s.lockRefusal with
    | some c =>
      let s := s.setFld Reg.GLB_LOCK Fd.GLB_LOCK_REFUSED c
      (match (if c = 3 then s.treeFault else none) with
       | some n => (s.setFld Reg.TMG_STATUS Fd.TMG_STATUS_TREE_ERR 1).setFld Reg.TMG_STATUS Fd.TMG_STATUS_TREE_NODE n
       | none => s)
    | none =>
      let s := (s.setFld Reg.GLB_LOCK Fd.GLB_LOCK_REFUSED 0).setFld Reg.GLB_LOCK Fd.GLB_LOCK_LOCKED 1
      { s with mgt := { s.mgt with meas6Due := true } }

/-- GLB_LOCK_SET. -/
def execGlbLockSet (w : Word) (s : State) : Host.Outcome State Fault Refusal := .next (s.lockWrite w)

/-! ### Endpoint resets (03 R99; 18 R527) -/

/-- ENDPOINT_RESET of a kind of RING_STOPPED; `ref` tells that CH_REFCLK is absent (17 R500). The rings stop, and a dump copy ends; a link
that went down is up again only with its clock. -/
def execEndpointReset (kind : Fin 4) (ref : Bool) (s : State) : Host.Outcome State Fault Refusal :=
  let s := (s.stopRings kind.val).copyAbort
  .next (if ref then { s.clockSet 7 0 false with crs := { s.crs with linkUp := false } } else s)

end Sys2Proof.Machine
end

