-- ==== Sys2Proof/Machine/Crs.lean ====
section
/-!
DEFINITION. Clocks, resets and power (17): power-on and chip resets, the loss and return of clocks and supplies, HBM training, and the
reset and check of a cluster.
-/

namespace Sys2Proof.Machine

open Sys2Proof

/-! ### Power-on (R503, R508) and the loss of the always-on supply (15 R441) -/

/-- What outlives the loss of every supply: the SPI NOR devices and the fuses; with what the outside world has seen and sent. -/
def State.powerOff (s : State) (straps : Straps) (dead : Bool) : State :=
  { State.reset with
    straps := straps
    crs := { Crs.reset with dead := dead }
    pair := { Pair.reset with peerLow := s.pair.peerLow }
    mgt := { Mgt.reset with flash0 := s.mgt.flash0, flash1 := s.mgt.flash1, floor := s.mgt.floor, revoked := s.mgt.revoked }
    out := s.out, drawn := s.drawn, pending := s.pending }

/-- POWER_ON_RESET: VDD_AUX or VDD_ADC rises into its limits; everything is reset, and the straps are sensed (Table 17-6 step 3). -/
def execPowerOnReset (pairEn pairSlot chSris : Bool) (s : State) : Host.Outcome State Fault Refusal :=
  .next (s.powerOff { pairEn := pairEn, pairSlot := pairSlot, chSris := chSris } false)

/-- ALWAYS_ON_SUPPLY_LOSS: VDD_AUX is lost; no output is driven, PAIR_ACT_N is released, and nothing is kept. -/
def execAlwaysOnSupplyLoss (s : State) : Host.Outcome State Fault Refusal := .next (s.powerOff s.straps true)

/-! ### Chip resets (R504, R509) -/

/-- EXTERNAL_RESET: SYS_RST_N has been low for 10 µs. -/
def execExternalReset (s : State) : Host.Outcome State Fault Refusal := .next (s.chipReset rcExternal 0)

/-- CRS_CHIP_RESET_GO: a write of CRS_CHIP_RESET; GO acts with the key only. -/
def execCrsChipResetGo (w : Word) (s : State) : Host.Outcome State Fault Refusal :=
  .next (if Fd.CRS_CHIP_RESET_KEY.get w = 0xC5A5 ∧ Fd.CRS_CHIP_RESET_GO.get w = 1 then s.chipReset rcSoftware 0 else s)

/-- RESTORE_RESET: after a power-loss dump has stopped the controller, PWR_FAIL_N has been high for RESTORE_MS (14 R426). -/
def execRestoreReset (s : State) : Host.Outcome State Fault Refusal :=
  let ms := s.fld1 Reg.ENV_DUMP_TIMING Fd.ENV_DUMP_TIMING_RESTORE_MS
  .next (if s.itn.stopped && s.itn.dumpDue == 1 && s.core3Runs && s.env.highTick.any (s.msSince · ms) then s.chipReset rcRestore 0 else s)

/-- CORE_CLOCK_LOSS: the core PLL is out of lock, or REFCLK_SYS absent, for 2 ticks. -/
def execCoreClockLoss (s : State) : Host.Outcome State Fault Refusal := .next (s.chipReset rcClock 0)

/-- CORE_SUPPLY_LOSS: VDD_CORE (0) or VDD_SRAM (1) leaves its limits. While the monitors are armed, alarm source 0x02 and a chip reset
follow; while they are disarmed nothing is raised, and the loss of VDD_CORE releases PAIR_ACT_N (15 R440). -/
def execCoreSupplyLoss (sup : Fin 2) (s : State) : Host.Outcome State Fault Refusal :=
  .next (
    if s.flag Reg.CRS_STATUS Fd.CRS_STATUS_MON_ARMED then (s.zeroAlarm 2).chipReset rcSupply 0
    else
      let r := Reg.CRS_STATUS
      let s := s.setFld r Fd.CRS_STATUS_SUPPLY_OK (setNatBit (s.fld r Fd.CRS_STATUS_SUPPLY_OK) sup.val false)
      if sup.val = 0 then s.releaseRole else s)

/-! ### The release of a chip reset (Table 17-6 steps 4 to 7) -/

/-- The chip reset is released: supplies and clocks are in order, and the monitors are armed. -/
def State.resetReleased (s : State) : State :=
  if s.flag Reg.CRS_CLK_STATUS Fd.CRS_CLK_STATUS_CORE_LOCK then s
  else
    let r := Reg.CRS_CLK_STATUS
    let s := s.setFld r Fd.CRS_CLK_STATUS_CORE_LOCK 1
    let s := s.setFld r Fd.CRS_CLK_STATUS_MGT_LOCK 1
    let s := s.setFld r Fd.CRS_CLK_STATUS_AUX_LOCK (b2n (!s.crs.auxLost))
    let s := s.setFld r Fd.CRS_CLK_STATUS_AUX_FALLBACK (b2n s.crs.auxLost)
    let s := s.setFld r Fd.CRS_CLK_STATUS_PAIR_REF 0xF
    let s := s.setFld r Fd.CRS_CLK_STATUS_PCIE_REF 0xFF
    let s := s.setFld r Fd.CRS_CLK_STATUS_NET_REF 0xF
    let s := s.setFld r Fd.CRS_CLK_STATUS_CH_REF 1
    let s := s.setFld r Fd.CRS_CLK_STATUS_SYS_REF 1
    let s := s.setFld Reg.CRS_STATUS Fd.CRS_STATUS_SUPPLY_OK 0xFF
    s.setFld Reg.CRS_STATUS Fd.CRS_STATUS_MON_ARMED 1

/-! ### Management and auxiliary PLLs (R501, R502) -/

/-- AUX_PLL_LOSS: the always-on domain runs from its oscillator. -/
def execAuxPllLoss (s : State) : Host.Outcome State Fault Refusal :=
  .next (
    if s.crs.auxLost || s.crs.dead then s
    else
      let s : State := { s with crs := { s.crs with auxLost := true } }
      let s := s.setFld Reg.CRS_CLK_STATUS Fd.CRS_CLK_STATUS_AUX_LOCK 0
      let s := s.setFld Reg.CRS_CLK_STATUS Fd.CRS_CLK_STATUS_AUX_FALLBACK 1
      (s.satFld Reg.CRS_CLK_LOSS Fd.CRS_CLK_LOSS_AUX_FALLBACKS 1).raise Ev.CRS_CLOCK 0x200 2 0)

/-- AUX_PLL_RETURN: the PLL has held lock for 10 ms. -/
def execAuxPllReturn (s : State) : Host.Outcome State Fault Refusal :=
  .next (
    if s.crs.auxLost then
      let s : State := { s with crs := { s.crs with auxLost := false } }
      let s := s.setFld Reg.CRS_CLK_STATUS Fd.CRS_CLK_STATUS_AUX_LOCK 1
      (s.setFld Reg.CRS_CLK_STATUS Fd.CRS_CLK_STATUS_AUX_FALLBACK 0).raise Ev.CRS_CLOCK 0x200 3 0
    else s)

/-- REFERENCE_CLOCK_RETURN of clock `i` of a domain of CRS_CLOCK (4 to 7): it is shown and reported as restored; with CH_REFCLK the
endpoint's link comes up again. -/
def execReferenceClockReturn (dom i : Fin 8) (s : State) : Host.Outcome State Fault Refusal :=
  .next (
    if dom.val < 4 ∨ natBit (s.fld Reg.CRS_CLK_STATUS (clockField dom.val)) i.val = true then s
    else
      let s := s.clockSet dom.val i.val true
      if dom.val = 7 then { s with crs := { s.crs with linkUp := true } }.copyNext (s.tel.snaps.length + 1) else s)

/-! ### Cluster reset and check (R511, R512) -/

/-- CLUSTER_RESET_RELEASE of cluster `k`: 1 ms after it entered RESET its check starts at the next seam, or, with a latched array alarm as the
cause, waits for the clear. -/
def execClusterResetRelease (k : Fin 12) (s : State) : Host.Outcome State Fault Refusal :=
  let x := s.cluChk k.val
  .next (
    if s.cluState k.val == cluReset && s.msSince x.since 1 then
      if x.cause == 5 && natBit (s.fld Reg.CIP_ALARM Fd.CIP_ALARM_ARRAY) k.val then s.cluWant k.val cluWaitClear 0
      else s.cluWant k.val cluChecking 0
    else s)

/-- A check ends: 0 passed, or the step that failed. -/
def State.checkEnd (s : State) (k step : Nat) : State :=
  if s.cluState k != cluChecking then s
  else
    let s := s.cluEnter k (if step = 0 then cluPassed else cluFailed) (s.cluChk k).cause
    let s := if step = 0 then s else s.setFld (Reg.CRS_CLU_STATUS k) Fd.CRS_CLU_STATUS_FAIL_STEP step
    s.raise Ev.CRS_CLUSTER_CHECK k step (s.fld (Reg.CRS_CLU_STATUS k) Fd.CRS_CLU_STATUS_CHECKS)

/-- The end of a running check is due at the next seam (R511). -/
def State.checkDue (s : State) (k step : Nat) : State :=
  if s.cluState k = cluChecking then s.cluWant k (if step = 0 then cluPassed else cluFailed) step else s

/-- CLUSTER_CHECK_DONE of cluster `k`: every step has passed (0), or `step` has failed. -/
def execClusterCheckDone (k : Fin 12) (step : Fin 7) (s : State) : Host.Outcome State Fault Refusal := .next (s.checkDue k.val step.val)

/-- CLUSTER_CHECK_TIMEOUT of cluster `k`: after 200 ms the check fails at the step in progress. -/
def execClusterCheckTimeout (k : Fin 12) (step : Fin 7) (s : State) : Host.Outcome State Fault Refusal :=
  .next (if step.val ≠ 0 ∧ s.msSince (s.cluChk k.val).since 200 = true then s.checkDue k.val step.val else s)

/-- CRS_CLU_CTL_RETEST: a write of CRS_CLU_CTL[k]; RETEST acts in PASSED and FAILED only, at the next seam. -/
def execCrsCluCtlRetest (k : Fin 12) (w : Word) (s : State) : Host.Outcome State Fault Refusal :=
  .next (
    if Fd.CRS_CLU_CTL_RETEST.get w = 1 ∧ (s.cluState k.val = cluPassed ∨ s.cluState k.val = cluFailed) then
      s.cluWant k.val cluReset 0
    else s)

/-- A change of a cluster's check takes effect, as far as its state still is the one from which Table 17-8 makes it. -/
def State.cluNow (s : State) (e : Nat × Nat × Nat) : State :=
  let st := s.cluState e.1
  if e.2.1 = cluChecking then (if st = cluReset ∨ st = cluWaitClear then s.cluCheck e.1 else s)
  else if e.2.1 = cluWaitClear then (if st = cluReset then s.cluEnter e.1 cluWaitClear (s.cluChk e.1).cause else s)
  else if e.2.1 = cluReset then (if st = cluPassed ∨ st = cluFailed then s.cluEnter e.1 cluReset (s.cluChk e.1).cause else s)
  else s.checkEnd e.1 e.2.2

/-- The cluster checks' part of the change phase (R511). -/
def State.cluSeam (s : State) : State := s.crs.due.foldl State.cluNow { s with crs := { s.crs with due := [] } }

end Sys2Proof.Machine
end

