-- ==== Sys2Proof/Machine/Boot.lean ====
section
/-!
DEFINITION. Firmware packages and the boot (16 R476 to R484): boot records, the checks of a package, the choice of the slot, identity and
measurements, READY; the resets of the management cores (R473 to R475, 17 R501); and HBM training (17 Table 17-6 step 9).
-/

namespace Sys2Proof.Machine

open Sys2Proof

/-! ### Boot records (R477) -/

/-- The copy in force on one device, with its number. -/
def Flash.record (f : Flash) : Option (Nat × BootRec) :=
  match f.rec0, f.rec1 with
  | some a, some b => if b.seq ≤ a.seq then some (0, a) else some (1, b)
  | some a, none => some (0, a)
  | none, some b => some (1, b)
  | none, none => none

/-- The record that the boot ROM uses before any has been written: slot A, nothing pending. -/
def BootRec.blank : BootRec := { seq := 0, active := 0, pending := 0xFF, tries := 0 }

/-- The record in force: device 0's, or device 1's when device 0 holds no valid copy; devices of the mask `unread` cannot be read. -/
def State.bootRec (s : State) (unread : Nat) : BootRec :=
  let a := if natBit unread 0 then none else s.mgt.flash0.record
  let b := if natBit unread 1 then none else s.mgt.flash1.record
  ((a <|> b).map (fun (e : Nat × BootRec) => e.2)).getD BootRec.blank

/-- A record is written over the copy that is not in force. -/
def Flash.putRecord (f : Flash) (r : BootRec) : Flash :=
  match f.record with
  | some (0, _) => { f with rec1 := some r }
  | _ => { f with rec0 := some r }

/-- A boot record with SEQ increased is written on both devices, and MGT_BOOT shows it. -/
def State.writeRecord (s : State) (r : BootRec) : State :=
  let r := { r with seq := r.seq + 1 }
  let s := { s with mgt := { s.mgt with flash0 := s.mgt.flash0.putRecord r, flash1 := s.mgt.flash1.putRecord r } }
  let s := s.setFld Reg.MGT_BOOT Fd.MGT_BOOT_ACTIVE r.active
  let s := s.setFld Reg.MGT_BOOT Fd.MGT_BOOT_PENDING r.pending
  s.setFld Reg.MGT_BOOT Fd.MGT_BOOT_TRIES r.tries

/-- MGT_BOOT shows the record in force. -/
def State.showRecord (s : State) (r : BootRec) : State :=
  let s := s.setFld Reg.MGT_BOOT Fd.MGT_BOOT_ACTIVE r.active
  let s := s.setFld Reg.MGT_BOOT Fd.MGT_BOOT_PENDING r.pending
  s.setFld Reg.MGT_BOOT Fd.MGT_BOOT_TRIES r.tries

/-! ### Packages (R478, Table 16-4) -/

def pkgVersion (bs : List Byte) : Nat := leField bs 16 4
def pkgSvn (bs : List Byte) : Nat := leField bs 20 1
def pkgSize (bs : List Byte) : Nat := leField bs 24 4
def pkgMajor (bs : List Byte) : Nat := pkgVersion bs / 16777216
/-- Offset, size and digest of component `i`: 0 code, 1 catalogue, 2 data. -/
def pkgComp (bs : List Byte) (i : Nat) : Nat × Nat × List Byte :=
  (leField bs (36 + 64 * i) 4, leField bs (40 + 64 * i) 4, sliceB bs (48 + 64 * i) 48)

/-- Check 1: MAGIC, FORMAT, DEVICE, STEPPING and the ranges of the version fields. -/
def pkgFormat (bs : List Byte) : Bool :=
  let v := pkgVersion bs
  sliceB bs 0 8 == [0x56, 0x58, 0x46, 0x57, 0x50, 0x4B, 0x47, 0x31] && leField bs 8 2 == 1 && leField bs 10 2 == 0x9600
    && leField bs 12 1 == 0xB0 && decide (v / 16777216 ≤ 9) && decide (v / 65536 % 256 ≤ 99) && decide (v % 65536 ≤ 999)

/-- Check 2: the signing key exists and is not revoked. -/
def State.pkgKeyOk (s : State) (bs : List Byte) : Bool := decide (leField bs 13 1 < 4) && !natBit s.mgt.revoked (leField bs 13 1)

/-- Check 3: the signature over bytes 0 to 3,991. -/
def pkgSigned (bs : List Byte) : Bool :=
  Config.ecdsaVerify (Config.fwKey (leField bs 13 1)) (Config.sha384 (bs.take 3992)) (sliceB bs 3992 48) (sliceB bs 4040 48)

/-- The first of checks 1 to 4 that the manifest fails. -/
def State.manifestFail (s : State) (bs : List Byte) : Option Nat :=
  firstFail [(pkgFormat bs, 1), (s.pkgKeyOk bs, 2), (pkgSigned bs, 3), (decide (s.mgt.floor ≤ pkgSvn bs), 4)]

/-- Check 5 of component `i` as the bytes `src` hold it. -/
def compOk (manifest src : List Byte) (i : Nat) : Bool :=
  let c := pkgComp manifest i
  Config.sha384 (sliceB src c.1 c.2.1) == c.2.2

/-- The first check of R478 that a whole package fails. -/
def State.pkgFail (s : State) (bs : List Byte) : Option Nat :=
  s.manifestFail bs <|> (if (List.range 3).all (compOk bs bs) then none else some 5)

/-- The status of R493 for a check of R478. -/
def pkgStatus (check : Nat) : Nat :=
  if check = 1 then St.MGT_FW_FORMAT else if check = 2 then St.MGT_FW_KEY_REVOKED else if check = 3 then St.MGT_FW_SIGNATURE
  else if check = 4 then St.MGT_FW_SVN else St.MGT_FW_HASH

def Flash.slot (f : Flash) (i : Nat) : List Byte := if i = 0 then f.slotA else f.slotB
def Flash.setSlot (f : Flash) (i : Nat) (bs : List Byte) : Flash := if i = 0 then { f with slotA := bs } else { f with slotB := bs }

/-- A package read from a slot: its bytes, the device of its code component, and the components read from device 1 after device 0. -/
structure Loaded where
  bytes : List Byte
  device : Nat
  retries : Nat
deriving DecidableEq, Repr

/-- Bytes `src` placed over `bs` at `off`. -/
def overlayAt (bs : List Byte) (off : Nat) (src : List Byte) : List Byte :=
  bs.take off ++ src ++ bs.drop (off + src.length)

/-- The package of a slot as the boot ROM reads it (R478): manifest and components from device 0, and what fails there from device 1.
A failure is its check, with 0x10 added when neither device can be read. -/
def State.loadSlot (s : State) (slot unread : Nat) : Except Nat Loaded :=
  let d0 := if natBit unread 0 then [] else s.mgt.flash0.slot slot
  let d1 := if natBit unread 1 then [] else s.mgt.flash1.slot slot
  let dead := if unread % 4 = 3 then 0x10 else 0
  let f0 := s.manifestFail d0
  let m := if f0.isNone then d0 else d1
  match (if f0.isNone then none else s.manifestFail d1) with
  | some c => .error ((if unread % 4 = 2 then f0.getD c else c) + dead)
  | none =>
    if (List.range 3).all fun i => compOk m d0 i || compOk m d1 i then
      let retried := (List.range 3).filter fun i => !compOk m d0 i
      let bytes := (List.range 3).foldl (fun bs i =>
        let c := pkgComp m i
        overlayAt bs c.1 (sliceB (if compOk m d0 i then d0 else d1) c.1 c.2.1)) m
      .ok { bytes := bytes, device := if compOk m d0 0 then 0 else 1, retries := retried.length }
    else .error (5 + dead)

/-- The digest of a package's catalogue. -/
def pkgCatalogue (bs : List Byte) : List Byte := (pkgComp bs 1).2.2

/-- The slot that does not run. -/
def State.spareSlot (s : State) : Nat := 1 - s.fld Reg.MGT_BOOT Fd.MGT_BOOT_RUN_SLOT

/-- The package of the slot that does not run, when it passes R478. -/
def State.stagedPkg (s : State) : Option Loaded :=
  match s.loadSlot s.spareSlot 0 with
  | .ok l => some l
  | .error _ => none

/-- MGT_FW_STAGED shows the version in the slot that does not run, or 0. -/
def State.showStaged (s : State) : State :=
  s.setFld Reg.MGT_FW_STAGED Fd.MGT_FW_STAGED_VERSION ((s.stagedPkg.map fun l => pkgVersion l.bytes).getD 0)

/-! ### Identity and measurements (R482 to R484) -/

/-- The label of the DeviceID seed, as ASCII: "vx9600 deviceid". -/
def deviceIdLabel : List Byte := [0x76, 0x78, 0x39, 0x36, 0x30, 0x30, 0x20, 0x64, 0x65, 0x76, 0x69, 0x63, 0x65, 0x69, 0x64]

/-- The alias seed of a package under a floor (R483). -/
def aliasOf (bytes : List Byte) (floor : Nat) : List Byte :=
  Config.hkdf (Config.hkdf Config.deviceSecret deviceIdLabel 48) (Config.sha384 (bytes.take 4088 ++ leBytes 1 floor)) 48

/-- The identity keys are derived and the device secret is locked; measurement 4 is set (Table 16-7: floor, revocation bits, the straps,
slot and device in one byte, RECOVERY, zeros). -/
def State.identityKeys (s : State) : State :=
  let b := Reg.MGT_BOOT
  let where_ := s.fld b Fd.MGT_BOOT_RUN_SLOT + 2 * s.fld b Fd.MGT_BOOT_DEVICE
  let r := leBytes 1 s.mgt.floor ++ leBytes 1 s.mgt.revoked ++ leBytes 1 (b2n s.straps.pairEn) ++ leBytes 1 (b2n s.straps.pairSlot)
    ++ leBytes 1 where_ ++ leBytes 1 (s.fld Reg.MGT_STATUS Fd.MGT_STATUS_RECOVERY) ++ zeros 10
  ({ s with mgt := { s.mgt with aliasSeed := aliasOf s.mgt.running s.mgt.floor, secretLocked := true } }).setMeas 4 (Config.sha384 r)

/-- A package is in management SRAM: MGT_FW_VER, MGT_SVN and MGT_BOOT show it, and measurement 2 and the identity follow. -/
def State.runPackage (s : State) (slot : Nat) (l : Loaded) : State :=
  let s := { s with mgt := { s.mgt with running := l.bytes } }
  let s := s.setFld Reg.MGT_FW_VER Fd.MGT_FW_VER_VERSION (pkgVersion l.bytes)
  let s := s.setFld Reg.MGT_SVN Fd.MGT_SVN_RUNNING (pkgSvn l.bytes)
  let s := s.setFld Reg.MGT_BOOT Fd.MGT_BOOT_RUN_SLOT slot
  let s := s.setFld Reg.MGT_BOOT Fd.MGT_BOOT_DEVICE l.device
  let s := s.cntMgt 7 l.retries
  ((s.setMeas 2 (Config.sha384 (l.bytes.take 4088))).identityKeys).showStaged

/-- The catalogue of a package becomes the loaded one (Table 16-5 step 6): measurements 1 and 3. -/
def State.loadCatalogue (s : State) : State :=
  let c := pkgCatalogue s.mgt.running
  (({ s with mgt := { s.mgt with catalogue := c } }).setMeas 1 Config.romDigest).setMeas 3 c

/-- Firmware runs on cores 0 to 3 (Table 16-5 step 8): core 3 continues the error log (18 R534). -/
def State.fwStart (s : State) : State :=
  let s := { s with mgt := { s.mgt with coresDown := false, core3Down := false } }
  let s := s.setFld Reg.MGT_STATUS Fd.MGT_STATUS_FW_RUN 1
  (s.setFld Reg.MGT_STATUS Fd.MGT_STATUS_CORE_UP 0xF).logResume

/-- A fallback is in force and reported: 1 tries exhausted, 2 watchdog, 3 check failed. -/
def State.fellBack (s : State) (refused cause : Nat) : State :=
  (s.setFld Reg.MGT_STATUS Fd.MGT_STATUS_FALLBACK 1).raise Ev.MGT_FW_FALLBACK (pkgVersion s.mgt.running) refused cause

/-- READY (Table 16-5 step 9) once firmware runs and HBM is ready: a pending slot that has reached it becomes ACTIVE (R477), and
MGT_BOOT_REPORT is raised once the event ring runs. -/
def State.bootReady (s : State) : State :=
  let m := Reg.MGT_STATUS
  if s.fld m Fd.MGT_STATUS_READY = 1 ∨ s.fwRuns = false ∨ s.fld Reg.CRS_STATUS Fd.CRS_STATUS_HBM_READY = 0 then s
  else
    let s := s.setFld m Fd.MGT_STATUS_READY 1
    let r := s.bootRec 0
    let slot := s.fld Reg.MGT_BOOT Fd.MGT_BOOT_RUN_SLOT
    let s := if s.fld m Fd.MGT_STATUS_RECOVERY = 0 ∧ r.pending = slot then
        s.writeRecord { r with active := slot, pending := 0xFF, tries := 0 }
      else s
    { s with mgt := { s.mgt with bootReport := some (pkgVersion s.mgt.running, slot + 256 * s.fld Reg.MGT_BOOT Fd.MGT_BOOT_DEVICE,
        s.fld m Fd.MGT_STATUS_FALLBACK) } }

/-- The slot of this boot by R477, with the record after it: the slot, whether a pending slot was given up, and the record to write. -/
def BootRec.choose (r : BootRec) : Nat × Bool × Option BootRec :=
  if r.pending = 0xFF then (r.active, false, none)
  else if r.tries < 2 then (r.pending, false, some { r with tries := r.tries + 1 })
  else (r.active, true, some { r with pending := 0xFF })

/-- The version in a slot as far as it can be read. -/
def State.slotVersion (s : State) (slot unread : Nat) : Nat :=
  pkgVersion (if natBit unread 0 then s.mgt.flash1.slot slot else s.mgt.flash0.slot slot)

/-- BOOT: the chip reset is released and the boot ROM runs (Table 16-5). The slot of R477 is loaded, or the other slot when it fails;
when neither passes, the boot stops in recovery (R481). Devices of `unread` cannot be read. -/
def State.boot (s : State) (unread : Nat) : State :=
  let s := s.resetReleased
  let r := s.bootRec unread
  let (slot, gaveUp, w) := r.choose
  let s := match w with | some r => s.writeRecord r | none => s.showRecord r
  let first := s.loadSlot slot unread
  let second := s.loadSlot (1 - slot) unread
  match first, second with
  | .ok l, _ =>
    let s := ((s.runPackage slot l).loadCatalogue).fwStart
    let s := { s with mgt := { s.mgt with bootStep := 9 } }
    (if gaveUp then s.fellBack (s.slotVersion r.pending unread) 1 else s).bootReady
  | .error _, .ok l =>
    let refused := s.slotVersion slot unread
    let s := ((s.runPackage (1 - slot) l).loadCatalogue).fwStart
    let s := { s with mgt := { s.mgt with bootStep := 9 } }
    (s.fellBack refused 3).bootReady
  | .error _, .error c =>
    let s := s.setFld Reg.MGT_STATUS Fd.MGT_STATUS_RECOVERY 1
    let s := s.setFld Reg.MGT_STATUS Fd.MGT_STATUS_BOOT_FAIL c
    { s with mgt := { s.mgt with bootStep := 5 } }

def execBoot (unread : BitVec 2) (s : State) : Host.Outcome State Fault Refusal :=
  .next (if s.crs.dead || s.mgt.bootStep != 0 then s else s.boot unread.toNat)

/-! ### Recovery (R481) -/

/-- A recovery package is refused with a status. -/
def State.recoveryRefused (s : State) (st : Nat) : State := s.setFld Reg.MGT_RECOV_CTL Fd.MGT_RECOV_CTL_STATUS st

/-- RECOVERY_GO: a write of MGT_RECOV_CTL; `pkg` is what the read of control-host memory returned (`ok` false: it failed). -/
def execRecoveryGo (w : Word) (ok : Bool) (pkg : List Byte) (s : State) : Host.Outcome State Fault Refusal :=
  let size := s.fld Reg.MGT_RECOV_SIZE Fd.MGT_RECOV_SIZE_SIZE
  .next (
    if Fd.MGT_RECOV_CTL_GO.get w = 0 ∨ s.fld Reg.MGT_STATUS Fd.MGT_STATUS_RECOVERY = 0 ∨ s.fld Reg.MGT_STATUS Fd.MGT_STATUS_FW_RUN = 1 then s
    else if size < 8192 ∨ 16777216 < size ∨ (s.rd Reg.MGT_RECOV_ADDR_LO).toNat % 4096 ≠ 0 then s.recoveryRefused St.GEN_FIELD
    else if ok = false then s.recoveryRefused St.GEN_DMA
    else
      match s.pkgFail pkg with
      | some c => s.recoveryRefused (pkgStatus c)
      | none =>
        let s := s.recoveryRefused 0
        let s := s.runPackage 0 { bytes := pkg, device := 0, retries := 0 }
        let s := (if s.mgt.bootStep = 9 then s else s.loadCatalogue).fwStart
        ({ s with mgt := { s.mgt with bootStep := 9 } }).bootReady)

/-! ### Resets of the management cores (R473 to R475, 17 R501) -/

/-- Descriptors whose change waits to be committed end with MGT_RESET_ABORTED and no effect (03 R93): those that satisfy `p`. -/
def State.abortStarted (s : State) (p : Desc → Bool) : State :=
  let ds := s.hst.atSeam.filter p
  let keys := s.cip.changes.filter fun c => c.desc.any p
  let s := { s with
    hst := { s.hst with atSeam := s.hst.atSeam.filter fun d => !p d }
    cip := { s.cip with changes := s.cip.changes.filter fun c => !c.desc.any p } }
  let pools := s.pools.foldl (fun l q => l ++ ((s.pool q).changes.filterMap fun (c : Nat × Option Nat × Option Desc) => c.2.2.filter p)) []
  let s := s.pools.foldl (fun (s : State) q =>
    s.updPool q fun P => { P with changes := P.changes.filter fun (c : Nat × Option Nat × Option Desc) => !c.2.2.any p }) s
  let sets := s.env.setDue.filter fun (e : Option Nat × Desc) => p e.2
  let s := { s with env := { s.env with setDue := s.env.setDue.filter fun (e : Option Nat × Desc) => !p e.2 } }
  let ends := ds ++ keys.filterMap (·.desc) ++ pools ++ sets.map fun (e : Option Nat × Desc) => e.2
  ends.foldl (fun (s : State) d => s.done d St.MGT_RESET_ABORTED) s

/-- The image commands that have not taken effect end the same way: a load, a pending swap, a VARIANT_EXIT and a staging. -/
def State.abortImages (s : State) : State :=
  let s := [false, true].foldl (fun (s : State) b =>
    let x := s.buf b
    if x.st == .loading && x.loader.isSome then s.loadEnd b [] (some St.MGT_RESET_ABORTED) else s) s
  let s := match s.itn.swapDesc with
    | some d =>
      let b := !s.itn.activeB
      let s := s.setBuf b { s.buf b with st := .ready }
      ({ s with itn := { s.itn with swapPend := 0, swapDesc := none } }).done d St.MGT_RESET_ABORTED
    | none => s
  let s := match s.itn.exitDesc with
    | some d => ({ s with itn := { s.itn with exitDesc := none } }).done d St.MGT_RESET_ABORTED
    | none => s
  let s := match s.mgt.act with
    | some d => ({ s with mgt := { s.mgt with act := none } }).done d St.MGT_RESET_ABORTED
    | none => s
  match s.mgt.staging with
  | some (d, _, _) => ({ s with mgt := { s.mgt with staging := none } }).done d St.MGT_RESET_ABORTED
  | none => s

/-- The change that a QP_DESTROY asked for has not been committed: it waits for the seam (05 R148). -/
def Qp.destroyWaits (x : Qp) : Bool :=
  x.destroy.isSome && (x.next == .drain || x.next2 == .drain || x.next == .err 0x0B || x.next2 == .err 0x0B || (x.next == .timewait && x.st == .rtr))

/-- The opcodes that wait for the end of other work and have changed nothing yet end the same way: a RING_DELETE whose ring has not drained, a
POOL_CREATE before its seam, a QP_DESTROY whose change waits for its seam, and a PAIR_JOIN, whose join is given up with cause 2 (log entry 116). -/
def State.abortWaits (s : State) : State :=
  let s := (List.range 64).foldl (fun (s : State) k =>
    match (s.ring k).deleting with
    | some d => (s.setRing k { s.ring k with deleting := none }).done d St.MGT_RESET_ABORTED
    | none => s) s
  let s := (List.range 16).foldl (fun (s : State) p =>
    match (if (s.pool p).st = 0 then (s.pool p).desc else none) with
    | some d => (s.setPool p Pool.reset).done d St.MGT_RESET_ABORTED
    | none => s) s
  let s := (Tab.keys (fun (x : Qp) => x.destroyWaits) s.rdm.qps).foldl (fun (s : State) q =>
    let x := s.qp q
    (s.setQp q { x with next := if x.next = .rts then .rts else .none, next2 := .none, destroy := none }).doneOpt x.destroy St.MGT_RESET_ABORTED 0 0) s
  match s.pair.join.bind (·.desc) with
  | some d =>
    let s : State := { s with pair := { s.pair with join := s.pair.join.map fun (j : Join) => { j with desc := none } } }
    let s := s.done d St.MGT_RESET_ABORTED
    if s.pairState = pairJoinActive then s.joinAbort 2
    else { s with pair := { s.pair with join := none, next := if s.pair.next = some pairJoinActive then none else s.pair.next } }
  | none => s

/-- Session `id` ends: its key is erased, and MGT_SPDM_SESSION is raised (R488, R489). -/
def State.sessionEnd (s : State) (id : Nat) : State :=
  match s.mgt.sessions.find? (·.id == id) with
  | none => s
  | some x =>
    ({ s with mgt := { s.mgt with sessions := s.mgt.sessions.filter (·.id != id) } }).raise Ev.MGT_SPDM_SESSION id 0 x.transport

/-- What every reset of cores 0 to 2 does: uncommitted descriptors are aborted, and every SPDM session ends. -/
def State.coresReset (s : State) : State :=
  let s := (s.abortStarted fun _ => true).abortImages.abortWaits
  let s := { s with mgt := { s.mgt with measReqs := [] } }
  (s.mgt.sessions.map (·.id)).foldl State.sessionEnd s

/-- Core 3's reset: BAY_POWER and ENV_SET commands not yet committed are aborted (17 Table 17-10). -/
def State.core3Reset (s : State) : State := s.abortStarted fun d => d.opcode == Op.BAY_POWER || d.opcode == Op.ENV_SET

/-- Resets in the last 60 s, this one included. -/
def State.lastMinute (s : State) (ts : List Nat) : List Nat := s.now :: ts.filter fun t => !s.msSince t 60000

/-- Cores 0 to 2 run again (R473): from SRAM, or from the running slot when SRAM does not match; a running slot that can no longer be
loaded gives way to the other slot, and, with no slot left, to recovery. -/
def State.restart (s : State) (sram : Bool) (unread : Nat) : State :=
  if sram then s.identityKeys
  else
    let slot := s.fld Reg.MGT_BOOT Fd.MGT_BOOT_RUN_SLOT
    match s.loadSlot slot unread, s.loadSlot (1 - slot) unread with
    | .ok l, _ => s.runPackage slot l
    | .error _, .ok l => (s.runPackage (1 - slot) l).fellBack (pkgVersion s.mgt.running) 3
    | .error _, .error c =>
      let s := s.setFld Reg.MGT_STATUS Fd.MGT_STATUS_RECOVERY 1
      let s := s.setFld Reg.MGT_STATUS Fd.MGT_STATUS_BOOT_FAIL c
      let s := s.setFld Reg.MGT_STATUS Fd.MGT_STATUS_CORE_UP 8
      s.setFld Reg.MGT_STATUS Fd.MGT_STATUS_FW_RUN 0

/-- The other slot, when it may replace the running one at the fourth watchdog reset (R475). -/
def State.fallbackSlot (s : State) (unread : Nat) : Option Loaded :=
  match s.loadSlot s.spareSlot unread with
  | .ok l => if pkgCatalogue l.bytes == s.mgt.catalogue then some l else none
  | .error _ => none

/-- MGT_WATCHDOG_RESET with its cause (1 no signal, 2 SRAM error, 3 machine check); `sram` tells that management SRAM matches the running
package. -/
def State.watchdog (s : State) (cause : Nat) (sram : Bool) (unread : Nat) : State :=
  let ts := s.lastMinute s.mgt.wdog
  let s := { s with mgt := { s.mgt with wdog := ts } }
  let s := (s.cntMgt 0 1).coresReset
  let s := match (if 4 ≤ ts.length then s.fallbackSlot unread else none) with
    | some l =>
      let old := pkgVersion s.mgt.running
      let s := { s with mgt := { s.mgt with wdog := [] } }
      (s.runPackage s.spareSlot l).fellBack old 2
    | none => s.restart sram unread
  s.raise Ev.MGT_WATCHDOG 1 cause ts.length

def execMgtWatchdogReset (cause : Fin 4) (sram : Bool) (unread : BitVec 2) (s : State) : Host.Outcome State Fault Refusal :=
  .next (if cause.val = 0 ∨ s.fwRuns = false then s else s.watchdog cause.val sram unread.toNat)

/-- CORE3_WATCHDOG_RESET: core 3 alone restarts from SRAM. -/
def execCore3WatchdogReset (cause : Fin 4) (s : State) : Host.Outcome State Fault Refusal :=
  .next (
    if cause.val = 0 ∨ s.core3Runs = false then s
    else
      let ts := s.lastMinute s.mgt.wdog3
      let s := { s with mgt := { s.mgt with wdog3 := ts } }
      (((s.cntMgt 1 1).core3Reset).logResume).raise Ev.MGT_WATCHDOG 2 cause.val ts.length)

/-- MGT_PLL_LOSS: the always-on domain holds cores 0 to 3 in reset. -/
def execMgtPllLoss (s : State) : Host.Outcome State Fault Refusal :=
  .next (
    if s.fld Reg.CRS_CLK_STATUS Fd.CRS_CLK_STATUS_MGT_LOCK = 0 then s
    else
      let s := (s.setFld Reg.CRS_CLK_STATUS Fd.CRS_CLK_STATUS_MGT_LOCK 0).raise Ev.CRS_CLOCK 0x100 1 0
      let s := s.coresReset.core3Reset
      let s := { s with mgt := { s.mgt with coresDown := true, core3Down := true } }
      let s := s.setFld Reg.MGT_STATUS Fd.MGT_STATUS_FW_RUN 0
      s.setFld Reg.MGT_STATUS Fd.MGT_STATUS_CORE_UP 0)

/-- MGT_PLL_RELOCK: lock has held for 1 ms; cores 0 to 2 restart as R473 and core 3 as R474 states. A boot or recovery that had not ended
stays where it was. -/
def execMgtPllRelock (s : State) : Host.Outcome State Fault Refusal :=
  .next (
    if s.mgt.coresDown = false then s
    else
      let s := s.setFld Reg.CRS_CLK_STATUS Fd.CRS_CLK_STATUS_MGT_LOCK 1
      let s := s.satFld Reg.CRS_CLK_LOSS Fd.CRS_CLK_LOSS_MGT_RELOCKS 1
      let s := if s.mgt.running.isEmpty then { s with mgt := { s.mgt with coresDown := false, core3Down := false } }
        else (s.restart true 0).fwStart
      (s.raise Ev.CRS_CLOCK 0x100 0 0).bootReady)

/-! ### HBM training (17 Table 17-6 step 9) -/

/-- HBM_TRAINING_DONE: HBM is trained and cleared; the stacks of `fail` failed training and are lost (19 R547). -/
def execHbmTrainingDone (fail : BitVec 4) (s : State) : Host.Outcome State Fault Refusal :=
  .next (
    if s.crs.dead || s.flag Reg.CRS_STATUS Fd.CRS_STATUS_HBM_READY then s
    else
      let s := s.resetReleased
      let s := s.setFld Reg.HBM_STATUS Fd.HBM_STATUS_READY (15 - fail.toNat)
      let s := s.setFld Reg.CRS_CLK_STATUS Fd.CRS_CLK_STATUS_HBM_LOCK 15
      let s := s.setFld Reg.CRS_STATUS Fd.CRS_STATUS_HBM_READY 1
      let s := ((List.range 4).filter (natBit fail.toNat ·)).foldl (fun (s : State) n => s.loseStack n 2) s
      s.bootReady)

end Sys2Proof.Machine
end

