-- ==== Sys2Proof/Machine/Attest.lean ====
section
/-!
DEFINITION. Signing keys, measurements and the management protocols (16 R484 to R492): the enrolment of itinerary signing keys, measurement
snapshots, the SPDM responder, PLDM and MCTP control.
-/

namespace Sys2Proof.Machine

open Sys2Proof

/-! ### Itinerary signing keys (R487) -/

/-- Measurement 5: the eight entries in slot order, empty ones zero; 48 zero bytes while no key is enrolled. -/
def State.measureKeys (s : State) : State :=
  if s.mgt.itk.isEmpty then s.setMeas 5 (zeros 48)
  else
    s.setMeas 5 (Config.sha384 ((List.range 8).foldl (fun bs i =>
      let k := s.itkEntry i
      bs ++ (if k.isEmpty then zeros 104 else k)) []))

/-- The 104 bytes of MGT_ITK_DATA as written. -/
def State.itkData (s : State) : List Byte :=
  (List.range 26).foldl (fun bs i => bs ++ leBytes 4 (s.rd (Reg.MGT_ITK_DATA i)).toNat) []

/-- The selected slot takes the entry, or is emptied. -/
def State.setItk (s : State) (k : List Byte) : State :=
  let i := s.fld Reg.MGT_ITK_SEL Fd.MGT_ITK_SEL_SLOT
  ({ s with mgt := { s.mgt with itk := Tab.wr (fun _ => []) s.mgt.itk i k } }).measureKeys

/-- ITK_COMMIT: a write of MGT_ITK_CTL with COMMIT set; under the setup lock it is ignored and a violation (19 R544). -/
def execItkCommit (w : Word) (s : State) : Host.Outcome State Fault Refusal :=
  let k := s.itkData
  let i := s.fld Reg.MGT_ITK_SEL Fd.MGT_ITK_SEL_SLOT
  let taken := (List.range 8).any fun j => j != i && !(s.itkEntry j).isEmpty && (s.itkEntry j).take 8 == k.take 8
  .next (
    if Fd.MGT_ITK_CTL_COMMIT.get w = 0 then s
    else if s.locked then s.violation Reg.MGT_ITK_CTL w
    else if allZero (k.take 8) || taken || !Config.onCurve (k.drop 8) then s.setFld Reg.MGT_ITK_STATUS Fd.MGT_ITK_STATUS_ERR 1
    else s.setItk k)

/-- ITK_CLEAR: a write of MGT_ITK_CTL with CLEAR set; under the setup lock it is ignored and a violation, which one write with COMMIT set as well
counts once, there (19 R544). -/
def execItkClear (w : Word) (s : State) : Host.Outcome State Fault Refusal :=
  .next (
    if Fd.MGT_ITK_CTL_CLEAR.get w = 0 then s
    else if s.locked then (if Fd.MGT_ITK_CTL_COMMIT.get w = 1 then s else s.violation Reg.MGT_ITK_CTL w)
    else s.setItk [])

/-! ### Measurement snapshots (R486) -/

/-- MGT_MEAS_SEL_WRITE: an index of 1 to 9 is taken, and a snapshot is due at the next seam. -/
def execMgtMeasSelWrite (w : Word) (s : State) : Host.Outcome State Fault Refusal :=
  let i := Fd.MGT_MEAS_SEL_INDEX.get w
  let s := if 1 ≤ i ∧ i ≤ 9 then s.setFld Reg.MGT_MEAS_SEL Fd.MGT_MEAS_SEL_INDEX i else s
  .next { s with mgt := { s.mgt with measDue := true } }

/-- MGT_MEAS_VAL takes the selected measurement. -/
def State.measSnap (s : State) : State :=
  if s.mgt.measDue then
    let m := s.meas (s.fld Reg.MGT_MEAS_SEL Fd.MGT_MEAS_SEL_INDEX)
    let s := { s with mgt := { s.mgt with measDue := false } }
    (List.range 12).foldl (fun (s : State) n => s.wrReg (Reg.MGT_MEAS_VAL n) (BitVec.ofNat 32 (leField m (4 * n) 4))) s
  else s

/-! ### SPDM (R488, R489) -/

/-- The answer to a measurement request from the snapshot of the seam, signed with the alias key when asked. -/
def State.measAnswer (s : State) (transport : Nat) (m : SpdmMsg) : State :=
  match m.req with
  | .getMeasurements index sign nonce =>
    let is := if index = 0xFF then (List.range 9).map (· + 1) else [index]
    let blocks := is.map fun i => (i, s.meas i)
    let sig := if sign then Config.ecdsaSign s.mgt.aliasSeed (Config.sha384 (Config.spdmTranscript nonce blocks)) else []
    s.emit (.spdm transport (.measurements blocks sig))
  | _ => s

/-- The measurement requests that wait are answered at the seam. -/
def State.measAnswers (s : State) : State :=
  s.mgt.measReqs.foldl (fun (s : State) (e : Nat × SpdmMsg) => s.measAnswer e.1 e.2) { s with mgt := { s.mgt with measReqs := [] } }

/-- An error is answered and counted. -/
def State.spdmError (s : State) (transport : Nat) (r : SpdmRsp) : State := (s.cntMgt 3 1).emit (.spdm transport r)

/-- The open session `id` of a transport. -/
def State.sessionOn (s : State) (transport id : Nat) : Option SpdmSess :=
  s.mgt.sessions.find? fun x => x.id == id && x.transport == transport

/-- The label of a session's key-import key, as ASCII: "vx9600 kek import". -/
def kekLabel : List Byte := [0x76, 0x78, 0x39, 0x36, 0x30, 0x30, 0x20, 0x6B, 0x65, 0x6B, 0x20, 0x69, 0x6D, 0x70, 0x6F, 0x72, 0x74]

/-- The responder's half of a session ID: the drawn value, or the next after it that gives an ID not in use. -/
def State.freeHalf (s : State) (half v : Nat) : Nat :=
  (((List.range 9).map fun i => (v + i) % 65536).find? fun r => !s.mgt.sessions.any fun x => x.id == half + 65536 * r).getD (v % 65536)

/-- An answer within session `id`, or an error when that session is not open on the transport. -/
def State.inSession (s : State) (t id : Nat) (k : SpdmSess → State → State) : State :=
  match s.sessionOn t id with
  | some x => k x s
  | none => s.spdmError t .invalid

/-- A request to the SPDM responder (Table 16-9). -/
def State.spdm (s : State) (t : Nat) (m : SpdmMsg) : State :=
  let s := s.cntMgt 2 1
  let chain := Config.ownChain s.mgt.aliasSeed
  let put (r : SpdmRsp) (s : State) := s.emit (.spdm t r)
  if m.version ≠ 0x12 ∧ m.version ≠ 0x13 ∧ m.req ≠ .getVersion then s.spdmError t .invalid
  else
    match m.req with
    | .getVersion => put (.version [0x13, 0x12]) s
    | .getCapabilities => put (.capabilities 21 4096) s
    | .negotiateAlgorithms => put .algorithms s
    | .getDigests => put (.digests (Config.sha384 chain)) s
    | .getCertificate slot off len => if slot = 0 then put (.certificate (sliceB chain off len)) s else s.spdmError t .invalid
    | .challenge slot nonce =>
      if slot = 0 then
        put (.challengeAuth (Config.sha384 chain) (Config.ecdsaSign s.mgt.aliasSeed (Config.sha384 (Config.spdmTranscript nonce [])))) s
      else s.spdmError t .invalid
    | .getMeasurements index _ _ =>
      if (1 ≤ index ∧ index ≤ 9) ∨ index = 0xFF then { s with mgt := { s.mgt with measReqs := s.mgt.measReqs ++ [(t, m)] } }
      else s.spdmError t .invalid
    | .keyExchange half share =>
      if 8 ≤ s.mgt.sessions.length then s.spdmError t .sessionLimit
      else
        let (v, s) := s.draw
        let (seed, s) := s.draw
        let id := half % 65536 + 65536 * s.freeHalf (half % 65536) v
        let x : SpdmSess := { id := id, transport := t, secret := Config.spdmSecret share seed, key := [], lastSeq := 0 }
        let s := { s with mgt := { s.mgt with sessions := s.mgt.sessions ++ [x] } }
        put (.keyExchange id 60) (s.raise Ev.MGT_SPDM_SESSION id 1 t)
    | .finish id ok =>
      s.inSession t id fun x s =>
        if ok then
          let y : SpdmSess := { x with key := Config.hkdf x.secret kekLabel 32 }
          let s := { s with mgt := { s.mgt with sessions := s.mgt.sessions.map fun (z : SpdmSess) => if z.id == id then y else z } }
          put (.finish id) s
        else s.spdmError t .invalid
    | .heartbeat id => s.inSession t id fun _ s => put (.heartbeatAck id) s
    | .keyUpdate id => s.inSession t id fun _ s => put (.keyUpdateAck id) s
    | .endSession id => s.inSession t id fun _ s => (put (.endSessionAck id) s).sessionEnd id
    | .chunkSend => put .chunkSendAck s
    | .chunkGet => put .chunk s
    | .other => s.spdmError t .unsupported

/-! ### MCTP (R490) -/

/-- Numbers of the transports: 1 PCIe VDM, 2 SMBus. -/
def mctpTransport (smb : Bool) : Nat := if smb then 2 else 1

/-- A message reaches management firmware: its transport works; a bad or oversized message, or one that no firmware takes, is dropped. -/
def State.mctpIn (s : State) (smb good : Bool) (size : Nat) (k : State → State) : State :=
  if (if smb then s.flag Reg.MGT_SMB_CFG Fd.MGT_SMB_CFG_ENABLE else s.crs.linkUp) then
    if good && decide (size ≤ 4096) && s.fwRuns then k s else s.cntMgt 5 1
  else s

/-- SPDM_REQUEST on a transport: `good` tells that its packets are intact (PEC on SMBus). -/
def execSpdmRequest (smb good : Bool) (size : Nat) (m : SpdmMsg) (s : State) : Host.Outcome State Fault Refusal :=
  .next (s.mctpIn smb good size fun s => s.spdm (mctpTransport smb) m)

/-- SPDM_HEARTBEAT_TIMEOUT: session `session` has missed its heartbeat for twice HeartbeatPeriod. -/
def execSpdmHeartbeatTimeout (session : Nat) (s : State) : Host.Outcome State Fault Refusal := .next (s.sessionEnd session)

/-- MCTP_CONTROL_REQUEST from the bus owner. -/
def execMctpControlRequest (smb good : Bool) (size : Nat) (m : MctpReq) (s : State) : Host.Outcome State Fault Refusal :=
  let f := if smb then Fd.MGT_MCTP_EID_SMB else Fd.MGT_MCTP_EID_VDM
  let t := mctpTransport smb
  .next (s.mctpIn smb good size fun s =>
    match m with
    | .setEid n => (s.setFld Reg.MGT_MCTP f n).emit (.mctp t (.eid (n % 256)))
    | .getEid => s.emit (.mctp t (.eid (s.fld Reg.MGT_MCTP f)))
    | .getTypes => s.emit (.mctp t (.types [0, 1, 5, 6]))
    | .other => s.emit (.mctp t .error))

/-! ### PLDM (R491, Table 16-11) -/

/-- A 16-bit two's complement value. -/
def int16 (n : Nat) : Int := if 32768 ≤ n then (n : Int) - 65536 else n

/-- The sensors of Table 16-11, in order. -/
def pldmSensors : List Nat :=
  [1, 2, 3, 4] ++ (List.range 12).map (0x10 + ·) ++ (List.range 8).map (0x20 + ·) ++ (List.range 128).map (0x100 + ·) ++ [0x200]
    ++ (List.range 16).map (0x300 + ·)

/-- The sensor is a state sensor. -/
def stateSensor (n : Nat) : Bool := decide (0x200 ≤ n)

/-- The reading of a sensor from its register; none while it is absent or FAILED. -/
def State.sensor (s : State) (n : Nat) : Option Int :=
  let get (off : Nat) (f : Fld) : Nat := f.get (s.readReg off)
  if n = 1 then some (int16 (get Reg.ENV_TEMPS Fd.ENV_TEMPS_SHELF))
  else if n = 2 then some (int16 (get Reg.ENV_TEMPS Fd.ENV_TEMPS_DIE))
  else if n = 3 then some (get Reg.ENV_VBUS Fd.ENV_VBUS_VBUS)
  else if n = 4 then some (get Reg.ENV_HOLD_STATUS Fd.ENV_HOLD_STATUS_V)
  else if 0x10 ≤ n ∧ n ≤ 0x1B then
    let f := n - 0x10
    if get (Reg.ENV_FAN_CFG f) Fd.ENV_FAN_CFG_PRESENT = 0 ∨ get (Reg.ENV_FAN_STATUS f) Fd.ENV_FAN_STATUS_FAILED = 1 then none
    else some (get (Reg.ENV_FAN_STATUS f) Fd.ENV_FAN_STATUS_RPM)
  else if 0x20 ≤ n ∧ n ≤ 0x27 then
    let i := n - 0x20
    if get (Reg.ENV_THERM_CFG i) Fd.ENV_THERM_CFG_PRESENT = 0 ∨ get (Reg.ENV_THERM_TEMP i) Fd.ENV_THERM_TEMP_FAILED = 1 then none
    else some (int16 (get (Reg.ENV_THERM_TEMP i) Fd.ENV_THERM_TEMP_TEMP))
  else if 0x100 ≤ n ∧ n ≤ 0x17F then
    let b := n - 0x100
    if get (Reg.BAY_STATUS b) Fd.BAY_STATUS_PRESENT = 0 then none else some (get (Reg.BAY_MEAS b) Fd.BAY_MEAS_I_MA)
  else if n = 0x200 then some (get Reg.PAIR_STATUS Fd.PAIR_STATUS_STATE)
  else some (get (Reg.LAY_POOL_STATUS (n - 0x300)) Fd.LAY_POOL_STATUS_STATE)

/-- The answer to a PLDM request. -/
def State.pldm (s : State) (t : Nat) (m : PldmReq) : State :=
  let s := s.cntMgt 4 1
  let put (r : PldmRsp) (s : State) := s.emit (.pldm t r)
  match m with
  | .getTid => put (.tid s.mgt.tid) s
  | .setTid n => put (.tid (n % 256)) { s with mgt := { s.mgt with tid := n % 256 } }
  | .getVersion typ => put (if typ = 0 ∨ typ = 2 then .version typ else .error) s
  | .getTypes => put (.types [0, 2]) s
  | .getCommands typ => put (if typ = 0 then .commands [1, 2, 3, 4, 5] else if typ = 2 then .commands [0x11, 0x21, 0x50, 0x51] else .error) s
  | .getRepositoryInfo => put (.repository pldmSensors.length) s
  | .getPdr n => put (if pldmSensors.contains n then .pdr n ((pldmSensors.dropWhile (· != n)).getD 1 0) else .error) s
  | .getSensorReading n => put (if pldmSensors.contains n && !stateSensor n then .reading (s.sensor n) else .error) s
  | .getStateSensorReadings n => put (if pldmSensors.contains n && stateSensor n then .reading (s.sensor n) else .error) s
  | .other => put .error s

/-- PLDM_REQUEST on a transport. -/
def execPldmRequest (smb good : Bool) (size : Nat) (m : PldmReq) (s : State) : Host.Outcome State Fault Refusal :=
  .next (s.mctpIn smb good size fun s => s.pldm (mctpTransport smb) m)

end Sys2Proof.Machine
end

