-- ==== Sys2Proof/Machine/Dump.lean ====
section
/-!
DEFINITION. The dump (01 R26, 02 R65, 09 R295, 14 R424 to R428): entry, the three parts as the items of the dump plan, the flush, and
the recorded outcome; and the DRV_SUBMIT and DRV_REAP rows, which serve the plan in force or the dump plan.
-/

namespace Sys2Proof.Machine

open Sys2Proof

/-- The dump plan serves on cluster `k`. -/
def State.dumpsOn (s : State) (k : Nat) : Bool := s.itn.dumpPlan && !s.itn.stopped && s.serves k

/-! ### What a dump writes (R295) -/

/-- The lines of a dump in slot order: dirty and shadow. -/
def State.dumpLines (s : State) : List (Nat × Line) := s.lay.lines.filter fun (e : Nat × Line) => e.2.isDirty || e.2.st == .shadow

/-- The live journal, in slot order. -/
def State.dumpJournal (s : State) : List JEnt := (s.lay.journal.map fun (e : Nat × JEnt) => e.2).filter (·.st != 0)

/-- Journal entries per pool. -/
def State.perPool (s : State) : List Nat := (List.range 16).map fun p => (s.dumpJournal.filter fun e => e.pool == p).length

def lineCode : LineSt → Nat
  | .free => 0 | .filling => 1 | .dirty => 2 | .destaging => 3 | .clean => 4 | .shadow => 5

/-- The directory entry of a line (R281), 64 B. -/
def dirEntry (e : Nat × Line) : List Byte :=
  let x := e.2
  (List.range 64).map (Config.dumpByte [e.1, lineCode x.st, x.vol, x.unit, x.valid, x.wgen, b2n x.wt, x.firstDirty])

/-- The summary: the dirty-line count of each volume, 4 B each. -/
def State.dumpSummary (s : State) : List Byte := (List.range 65536).flatMap fun v => leBytes 4 (s.dirtyOf v)

/-- The copy header: RUN_GEN, entry count, entries per pool, and the CRC over the header and the slots written. -/
def State.copyHeader (s : State) : List Byte :=
  let slots := s.dumpJournal.flatMap JEnt.bytes
  (List.range 4096).map (Config.dumpByte ([s.lay.runGen, s.dumpJournal.length] ++ s.perPool ++ [(crc64 slots).toNat]))

/-- Chunk `c`: 32 directory entries with their tails, then the data of the 32 lines; what a last chunk has too few of is zero. -/
def State.chunkBytes (s : State) (c : Nat) : List Byte :=
  let ls := (s.dumpLines.drop (32 * c)).take 32
  let head := ls.flatMap fun e => dirEntry e ++ sliceB e.2.data 4096 64
  let data := ls.flatMap fun e => sliceB e.2.data 0 4096
  head ++ zeros (4096 - head.length) ++ data ++ zeros (131072 - data.length)

/-- The dump header: RUN_GEN, the bays of A and B, the chunk count, the bitmap of members, the entries per pool. -/
def State.dumpHeader (s : State) (x : Dump) : List Byte :=
  (List.range 4096).map (Config.dumpByte ([s.lay.runGen, x.copies.getD 0 0xFF, x.copies.getD 1 0xFF, ceilDiv s.dumpLines.length 32,
    x.members.foldl (fun a b => a + 2 ^ b) 0] ++ s.perPool))

/-- Member LBAs of Table 9-2: the journal area at 1 MiB, the dump area at 1 GiB. -/
def journalLba : Nat := 256
def dumpLba : Nat := 262144

/-- The bytes of a write. -/
def State.dumpBytes (s : State) (x : Dump) (j : DumpJob) : List Byte :=
  if j.kind = 0 then sliceB (s.dumpJournal.flatMap JEnt.bytes) (131072 * j.idx) 131072
  else if j.kind = 1 then sliceB s.dumpSummary (131072 * j.idx) 131072
  else if j.kind = 2 then s.copyHeader
  else if j.kind = 3 then s.chunkBytes j.idx
  else s.dumpHeader x

/-- A write without its identifier. -/
def dumpJob (kind idx bay lba units : Nat) : DumpJob :=
  { id := 0, kind := kind, idx := idx, bay := bay, lba := lba, units := units, sent := 0, finished := 0, ready := none, cluster := 0, bad := false }

/-- Pieces of at most 32 units of `total` bytes from `lba` on. -/
def pieces (kind bay lba total : Nat) : List DumpJob :=
  (List.range (ceilDiv total 131072)).map fun i => dumpJob kind i bay (lba + 32 * i) (min 32 (ceilDiv total 4096 - 32 * i))

/-- The writes of a phase: journal copies with summary and copy header, chunks, dump headers. -/
def State.phaseJobs (s : State) (x : Dump) : List DumpJob :=
  if x.phase = 0 then
    x.copies.flatMap fun b => pieces 0 b journalLba (64 * s.dumpJournal.length) ++ pieces 1 b (dumpLba + 1) 262144 ++ [dumpJob 2 0 b (dumpLba + 128) 1]
  else if x.phase = 1 then
    let m := x.members.length
    if m = 0 then []
    else (List.range (ceilDiv s.dumpLines.length 32)).map fun c => dumpJob 3 c (x.members.getD (c % m) 0) (dumpLba + 256 + 33 * (c / m)) 33
  else x.members.map fun b => dumpJob 4 0 b dumpLba 1

/-! ### Phases -/

/-- Phase `n` begins: its writes get identifiers. A phase without writes is passed over; after the headers the drives are flushed. -/
def State.dumpPhase : Nat → Nat → State → State
  | 0, _, s => s
  | fuel + 1, n, s =>
    match s.env.dump with
    | none => s
    | some x =>
      let x := { x with phase := n, jobs := [] }
      if 3 ≤ n then
        let s : State := { s with env := { s.env with dump := some x } }
        (x.members.filter s.online).foldl (fun (s : State) b => s.emitNet (.drvFlush b)) s
      else
        let js := s.phaseJobs x
        if js.isEmpty then State.dumpPhase fuel (n + 1) { s with env := { s.env with dump := some x } }
        else
          let js := js.mapIdx fun i j => { j with id := s.lay.workSeq + i }
          { s with env := { s.env with dump := some { x with jobs := js } }, lay := { s.lay with workSeq := s.lay.workSeq + js.length } }

/-- Member A and B of R295: the lowest bay, and the lowest of another failure domain, or, with FD_SINGLE, the next lowest. -/
def State.copyMembers (s : State) (bays : List Nat) : List Nat × Bool :=
  match bays with
  | [] => ([], false)
  | a :: rest =>
    match rest.find? fun b => s.fld (Reg.LAY_BAY_FD b) Fd.LAY_BAY_FD_DOMAIN != s.fld (Reg.LAY_BAY_FD a) Fd.LAY_BAY_FD_DOMAIN with
    | some b => ([a, b], false)
    | none => (a :: rest.take 1, true)

/-- Steps 2 and 3 of Table 1-8: the ready queues and the commands of hosts are abandoned, and no completion is sent any more. -/
def State.abandonAll (s : State) : State :=
  let s : State := { s with
    cmd := { s.cmd with items := [], caps := [], wbs := s.cmd.wbs.map fun (e : Nat × Waybill) => (e.1, { e.2 with st := .abandoned }) }
    lay := { s.lay with works := [], parity := [] }
    cip := { s.cip with reqs := [] }
    net := { s.net with toRdma := [], rx := [] } }
  s.liveQps.foldl (fun (s : State) q => s.updQp q fun x => { x with tx := x.tx.filter (·.op != 1) }) s

/-- The writes of a dump begin on this controller's members. -/
def State.dumpStart (s : State) : State :=
    let bays := sortBy (fun b => b) s.memberBays
    let c := s.copyMembers bays
    let s := if c.2 then s.setFld Reg.LAY_STATUS Fd.LAY_STATUS_FD_SINGLE 1 else s
    let s := s.wrReg Reg.ENV_DUMP_ERR 0
    let x : Dump := { entered := s.now, members := bays, copies := c.1, phase := 0, jobs := [], lines := 0, low := false }
    State.dumpPhase 4 0 { s with env := { s.env with dump := some x } }

/-- A dump that is due is entered in the change phase (R65); a standby enters the dump state and performs no write (15 R457). -/
def State.dumpBegin (s : State) : State :=
  if s.itn.dumpDue ≠ 0 ∧ ¬ s.itn.dumpPlan ∧ ¬ s.itn.stopped then
    let s := ((s.seamEntry 3 (leBytes 1 s.itn.dumpDue)).dumpEnter).abandonAll
    if s.isStandby then s else s.dumpStart
  else s

/-- DUMP_ENTRY: at a seam the dump is entered; within a tick the plan in force serves on (R65). -/
def execDumpEntry (s : State) : Host.Outcome State Fault Refusal := .next (if s.atSeam then s.dumpBegin else s)

/-! ### The dump plan's chain -/

def State.updDump (s : State) (f : Dump → Dump) : State := { s with env := { s.env with dump := s.env.dump.map f } }
def State.updJob (s : State) (id : Nat) (f : DumpJob → DumpJob) : State :=
  s.updDump fun x => { x with jobs := x.jobs.map fun j => if j.id = id then f j else j }

/-- DUMP_STEP on cluster `k`: the first write of the phase that has not been taken; its data is there two ticks later, and not before
the lanes have drained (Table 14-3 step 4). -/
def State.dumpStep (s : State) (k : Nat) : State :=
  if !s.dumpsOn k then s
  else
    match s.env.dump with
    | none => s
    | some x =>
      match (if s.now < x.entered + 2 then none else x.jobs.find? (·.ready.isNone)) with
      | none => s
      | some j => (s.lanePost (8 * k) noClass (4096 * j.units)).updJob j.id fun j => { j with ready := some (s.now + 2), cluster := k }

def execDumpStep (k : Fin 12) (s : State) : Host.Outcome State Fault Refusal := .next (s.dumpStep k.val)

/-- One drive command of a write. -/
def State.dumpCmd (s : State) (x : Dump) (j : DumpJob) : State :=
  let n := min (j.units - j.sent) (s.unitsMax j.bay)
  let c : DrvCmd := { bay := j.bay, queue := 0, cluster := j.cluster, write := true, maint := false, lba := j.lba + j.sent, units := n, ref := .work j.id,
                      keys := [], buf := plainUnits (sliceB (s.dumpBytes x j) (4096 * j.sent) (4096 * n)), tick := 0, st := 0, status := 0, dnr := false,
                      crd := 0, abort := none, latched := 0, slot := 0 }
  match s.submit c with
  | .ok s => s.updJob j.id fun j => { j with sent := j.sent + n }
  | _ => s

/-- DRV_SUBMIT of the dump plan: up to eight commands of one write; without a tag or an entry it is tried again. -/
def State.dumpSubmit (s : State) (k : Nat) : State :=
  match s.env.dump with
  | none => s
  | some x =>
    match x.jobs.find? fun j => j.cluster == k && decide (j.sent < j.units) && (match j.ready with | some t => decide (t ≤ s.now) | none => false) with
    | none => s
    | some j => (List.range 8).foldl (fun (s : State) _ =>
        match s.env.dump.bind fun x => x.jobs.find? (·.id == j.id) with
        | some j => if j.sent < j.units then s.dumpCmd x j else s
        | none => s) s

/-- DRV_REAP of the dump plan: up to eight latched completions of writes; those of earlier work are dropped. -/
def State.dumpReap (s : State) (k : Nat) : State :=
  ((s.cmdsThat fun c => c.cluster == k && c.st == 1 && decide (c.latched < s.now)).take 8).foldl (fun (s : State) (e : Nat × DrvCmd) =>
    let s := s.freeTag e.1
    match e.2.ref with
    | .work id => s.updJob id fun j => { j with finished := j.finished + e.2.units, bad := j.bad || e.2.status != 0 }
    | _ => s) s

def execDrvSubmit (k : Fin 12) (c : Fin 256) (s : State) : Host.Outcome State Fault Refusal :=
  .next (if s.dumpsOn k.val then s.dumpSubmit k.val else s.run k c Rt.drvSubmit (fun it s => s.drvSubmit it))

def execDrvReap (k : Fin 12) (c : Fin 256) (s : State) : Host.Outcome State Fault Refusal :=
  .next (if s.dumpsOn k.val then s.dumpReap k.val else s.run k c Rt.drvReap (fun it s => s.drvReap it))

/-- A write of the dump has ended: a failure is counted and neither retried nor relocated (R425); after the last, the next phase begins. -/
def State.jobEnd (s : State) (x : Dump) (j : DumpJob) : State :=
  let s :=
    if !j.bad then s.updDump fun x => if j.kind = 3 then { x with lines := x.lines + ((s.dumpLines.drop (32 * j.idx)).take 32).length } else x
    else if j.kind = 3 then s.satFld Reg.ENV_DUMP_ERR Fd.ENV_DUMP_ERR_CHUNKS 1
    else if j.kind = 4 then s.satFld Reg.ENV_DUMP_ERR Fd.ENV_DUMP_ERR_HEADERS 1
    else
      let m := s.fld Reg.ENV_DUMP_ERR Fd.ENV_DUMP_ERR_JOURNAL
      s.setFld Reg.ENV_DUMP_ERR Fd.ENV_DUMP_ERR_JOURNAL (setNatBit m (if x.copies.head? = some j.bay then 0 else 1) true)
  let s := s.updDump fun x => { x with jobs := x.jobs.filter (·.id != j.id) }
  match s.env.dump with
  | some x => if x.jobs.isEmpty then State.dumpPhase 4 (x.phase + 1) s else s
  | none => s

/-- DUMP_WRITE_COMPLETE: the first write whose commands have all ended. -/
def State.dumpWriteDone (s : State) : State :=
  match s.env.dump with
  | none => s
  | some x =>
    match x.jobs.find? fun j => j.finished == j.units with
    | some j => s.jobEnd x j
    | none => s

def execDumpWriteComplete (s : State) : Host.Outcome State Fault Refusal := .next s.dumpWriteDone

/-- Step 8 of Table 14-3: the outcome and the time are recorded, and the sequencer stops (R64, R424, R428); the
monitors are disarmed (17 R509), and a fatal error ends in a chip reset (R507). -/
def State.dumpEnd (s : State) (x : Dump) : State :=
  let us := ((s.now - x.entered) * 1024) / 1000
  let down := s.itn.dumpDue == 2
  let s := s.setFld Reg.ENV_DUMP_LAST Fd.ENV_DUMP_LAST_OUTCOME (if x.low then 2 else if down then 3 else 1)
  let s := s.setFld Reg.ENV_DUMP_LAST Fd.ENV_DUMP_LAST_LINES (min 0xFFFFFFF x.lines)
  let s := s.setFld Reg.ENV_DUMP_TIME wordFld (min 0xFFFFFFFF us)
  let s := (s.cntEnv (if down then 2 else 1) 1).sequencerStop
  let d := s.env.shutdown
  let crit := s.env.critical
  let s : State := { s with env := { s.env with dump := none, shutdown := none, critical := false, report := true } }
  let fatal := s.itn.dumpDue == 3
  let s := s.setFld Reg.CRS_STATUS Fd.CRS_STATUS_MON_ARMED 0
  let s := if down then (s.raise Ev.ENV_SHUTDOWN_DONE x.lines us 0).doneOpt d St.OK x.lines us else s
  let s := if crit then s.allBaysOff else s
  if fatal then s.chipReset rcFatal (s.fld Reg.CRS_RESET_CAUSE Fd.CRS_RESET_CAUSE_FATAL_SRC) else s

/-- DUMP_COMPLETE: every member has completed its flush. -/
def execDumpComplete (s : State) : Host.Outcome State Fault Refusal :=
  .next (match s.env.dump with
    | some x => if x.phase = 3 then s.dumpEnd x else s
    | none => s)

/-- Core 3 raises ENV_DUMP_REPORT after the import that follows a dump (R424). -/
def State.dumpReport (s : State) : State :=
  if s.env.report && s.lay.imported then
    ({ s with env := { s.env with report := false } }).raise Ev.ENV_DUMP_REPORT (s.fld Reg.ENV_DUMP_LAST Fd.ENV_DUMP_LAST_OUTCOME)
      (s.fld Reg.ENV_DUMP_TIME wordFld) (s.fld Reg.ENV_DUMP_LAST Fd.ENV_DUMP_LAST_LINES)
  else s

end Sys2Proof.Machine
end

