-- ==== Sys2Proof/Machine/Firmware.lean ====
section
/-!
DEFINITION. Firmware update (16 R493 to R497): FW_STAGE, FW_ACTIVATE, the activation in service, and their parts on the two controllers of
a pair.
-/

namespace Sys2Proof.Machine

open Sys2Proof

/-! ### Staging (R493) -/

/-- SPI NOR offset of a slot (Table 16-3). -/
def slotBase (slot : Nat) : Nat := 1048576 + 16777216 * slot

/-- A device has failed a write: MGT_FLASH_DEGRADED with an offset within the slot, which the spec leaves open. -/
def State.flashFailed (s : State) (dev slot : Nat) : State :=
  let (v, s) := s.draw
  s.raise Ev.MGT_FLASH_DEGRADED dev (slotBase slot + v % 16777216) 0

/-- The package is written to the slot that does not run, device 0 first; devices of the mask `failed` fail. A PENDING that names the slot is
cleared first. -/
def State.writePackage (s : State) (pkg : List Byte) (failed : Nat) : State :=
  let slot := s.spareSlot
  let r := s.bootRec 0
  let s := if r.pending = slot then s.writeRecord { r with pending := 0xFF, tries := 0 } else s
  let put (i : Nat) (f : Flash) := f.setSlot slot (if natBit failed i then [] else pkg)
  let s := { s with mgt := { s.mgt with flash0 := put 0 s.mgt.flash0, flash1 := put 1 s.mgt.flash1 } }
  let s := if failed % 4 = 0 then s else s.setFld Reg.MGT_STATUS Fd.MGT_STATUS_FLASH_DEGRADED 1
  let s := if failed % 4 = 1 then s.flashFailed 0 slot else if failed % 4 = 2 then s.flashFailed 1 slot else s
  let s := s.showStaged
  if failed % 4 = 3 then s else s.raise Ev.MGT_FW_STAGED (pkgVersion pkg) (pkgSvn pkg) (3 - failed % 4)

/-- The status of checks 3 to 7 on a package of `size` bytes. -/
def State.packageStatus (s : State) (pkg : List Byte) (size : Nat) : Option Nat :=
  (if pkgFormat pkg && pkgSize pkg == size && pkg.length == size then none else some St.MGT_FW_FORMAT) <|> (s.pkgFail pkg).map pkgStatus

/-- The standby stages a package sent by the active under the same checks; its status. -/
def State.stagePeer (s : State) (pkg : List Byte) (failed : Nat) : Nat × State :=
  match s.packageStatus pkg pkg.length with
  | some st => (st, s)
  | none => (if failed % 4 = 3 then St.MGT_FW_FLASH else St.OK, s.writePackage pkg failed)

/-- A staging or activation is in progress, or a dump or shutdown runs. -/
def State.fwBusy (s : State) : Bool := s.mgt.staging.isSome || s.mgt.act.isSome || s.dumping || s.env.shutdown.isSome

/-- A failed read by FW_STAGE: the slot that does not run may hold no valid package, and MGT_FW_STAGED then reads 0; the boot record and the
running slot are unchanged (03 R569). The spec leaves open which of the two it is: a free value. -/
def State.stageRead (s : State) : State :=
  let (v, s) := s.draw
  let slot := s.spareSlot
  if v % 2 = 0 then s
  else ({ s with mgt := { s.mgt with flash0 := s.mgt.flash0.setSlot slot [], flash1 := s.mgt.flash1.setSlot slot [] } }).showStaged

/-- FW_STAGE: `pkg` is what the read of the buffer returned (`ok` false: it failed). -/
def fwStage (ok : Bool) (pkg : List Byte) (failed : Nat) (d : Desc) (s : State) : State :=
  let size := d.f 24 4
  s.checked d
    [(d.handle == 0 && d.reservedZero [(16, 8), (24, 4)] && d.aligned 16 4096 && decide (8192 ≤ size) && decide (size ≤ 16777216), St.GEN_FIELD),
     (!s.fwBusy, St.MGT_FW_BUSY)]
    fun s =>
      if !ok then s.stageRead.done d St.GEN_DMA
      else match s.packageStatus pkg size with
      | some st => s.done d st
      | none =>
        let s := s.writePackage pkg failed
        if failed % 4 = 3 then s.done d St.MGT_FW_FLASH
        else
          let r0 := pkgVersion pkg + pkgSvn pkg * 4294967296
          let r1 := 3 - failed % 4
          if s.pairHolds then ({ s with mgt := { s.mgt with staging := some (d, r0, r1) } }).mgtSend (.package pkg)
          else s.complete d St.OK r0 r1 0

/-- FW_STAGE with the buffer's contents, and the devices whose writes fail. -/
def execFwStage (ok : Bool) (pkg : List Byte) (failed : BitVec 2) (s : State) : Host.Outcome State Fault Refusal :=
  .next (s.ringData Op.FW_STAGE ok pkg (fwStage ok pkg failed.toNat))

/-- The standby has finished its staging, with a status; a standby that is lost has failed. -/
def State.stagePeerDone (s : State) (status : Nat) : State :=
  match s.mgt.staging with
  | none => s
  | some (d, r0, r1) =>
    let s := { s with mgt := { s.mgt with staging := none } }
    if status = St.OK then s.complete d St.OK r0 r1 0 else s.complete d St.MGT_FW_PEER r0 (r1 + status % 65536 * 65536) 0

/-! ### Activation (R494 to R497) -/

/-- The activation in service on one controller (Table 16-12): its status. -/
def State.activateNow (s : State) (unread : Nat) : Nat × State :=
  let slot := s.spareSlot
  let old := pkgVersion s.mgt.running
  let s := s.writeRecord { s.bootRec 0 with pending := slot, tries := 0 }
  let s := s.coresReset
  let r := s.bootRec 0
  let s := s.writeRecord { r with tries := r.tries + 1 }
  match s.loadSlot slot unread with
  | .ok l =>
    let s := ((s.runPackage slot l).core3Reset).fwStart
    let s := (s.writeRecord { s.bootRec 0 with active := slot, pending := 0xFF, tries := 0 }).showStaged
    (St.OK, s.raise Ev.MGT_FW_ACTIVATED (pkgVersion l.bytes) old 0)
  | .error c =>
    let refused := s.slotVersion slot unread
    let s := match s.loadSlot r.active unread with
      | .ok l => s.runPackage r.active l
      | .error _ => s.restart false unread
    (pkgStatus (c % 16), s.fellBack refused 3)

/-- PENDING is written for the next chip reset (MODE 1). -/
def State.activateLater (s : State) : State := s.writeRecord { s.bootRec 0 with pending := s.spareSlot, tries := 0 }

/-- The SVN floor rises to the running package's SVN (R497). -/
def State.commitSvn (s : State) : State :=
  let n := pkgSvn s.mgt.running
  if n ≤ s.mgt.floor then s else ({ s with mgt := { s.mgt with floor := n } }).raise Ev.MGT_SVN_COMMITTED n 0 0

/-- An activation ends on this controller. -/
def State.activateDone (s : State) (d : Desc) (unread : Nat) : State :=
  let (st, s) := s.activateNow unread
  s.complete d st (if st = St.OK then pkgVersion s.mgt.running else 0) 0 0

/-- FW_ACTIVATE: MODE 0 in service, 1 at the next chip reset, 2 commits the SVN. -/
def fwActivate (unread : Nat) (d : Desc) (s : State) : State :=
  let mode := d.f 8 1
  let st := s.stagedPkg
  let bytes := (st.map (·.bytes)).getD []
  let field := d.handle == 0 && d.reservedZero [(8, 1)] && decide (mode ≤ 2)
  if mode = 2 then
    let r := s.bootRec 0
    let m := Reg.MGT_STATUS
    s.checked d
      [(field, St.GEN_FIELD),
       (s.fld Reg.MGT_BOOT Fd.MGT_BOOT_RUN_SLOT == r.active && r.pending == 0xFF && !s.flag m Fd.MGT_STATUS_FALLBACK
          && !s.flag m Fd.MGT_STATUS_RECOVERY, St.GEN_STATE)]
      fun s =>
        let s := if s.pairHolds then s.mgtSend (.activate 2) else s
        let s := s.commitSvn
        s.complete d St.OK s.mgt.floor 0 0
  else
    s.checked d
      [(field, St.GEN_FIELD), (!s.fwBusy, St.MGT_FW_BUSY), (st.isSome, St.MGT_FW_NONE),
       (mode == 1 || (pkgCatalogue bytes == s.mgt.catalogue && pkgMajor bytes == pkgMajor s.mgt.running), St.MGT_FW_NEEDS_RESET),
       (!s.pairHolds || s.pair.peerStaged == pkgVersion bytes, St.MGT_FW_PEER)]
      fun s =>
        let s := s.fwStarting
        let s := if s.pairHolds then s.mgtSend (.activate mode) else s
        if mode = 1 then s.activateLater.done d St.OK
        else if s.pairHolds then { s with mgt := { s.mgt with act := some d } }
        else s.activateDone d unread

/-- FW_ACTIVATE; devices of `unread` cannot be read during the activation. -/
def execFwActivate (unread : BitVec 2) (s : State) : Host.Outcome State Fault Refusal :=
  .next (s.ringCmd Op.FW_ACTIVATE (fwActivate unread.toNat))

/-- An activation that the active orders on this standby; MODE 0 is answered with its status (R496). -/
def State.activatePeer (s : State) (mode unread : Nat) : State :=
  if mode = 1 then s.activateLater
  else if mode = 2 then s.commitSvn
  else
    let (st, s) := s.activateNow unread
    s.mgtSend (.activated st)

/-- The standby has run its activation: the active runs its own, or gives up. -/
def State.activatePeerDone (s : State) (status unread : Nat) : State :=
  match s.mgt.act with
  | none => s
  | some d =>
    let s := { s with mgt := { s.mgt with act := none } }
    if status = St.OK then s.activateDone d unread else s.complete d St.MGT_FW_PEER 0 (status % 65536 * 65536) 0

end Sys2Proof.Machine
end

