-- ==== Sys2Proof/Machine/Pair.lean ====
section
/-!
DEFINITION. The pair link (15 R431 to R438) and the active role outside lockstep (R439 to R442): bundles, key exchange, received frames with
their alive counters, claims, and the changes of pair state that wait for the seam.
-/

namespace Sys2Proof.Machine

open Sys2Proof

/-! ### Changes of pair state (R442) -/

/-- A change of pair state is due at the next seam. -/
def State.pairWant (s : State) (st : Nat) : State := s.setPair fun p => { p with next := some st }

/-- The standby will leave lockstep for IDLE at the seam, with a reason of PAIR_STANDBY_LOST (R454). -/
def State.leaveLockstep (s : State) (reason : Nat) : State :=
  if (s.pairState == pairLocked || s.pairState == pairHolding) && s.pair.next != some pairIdle && s.pair.next != some pairTakingOver then
    s.setPair fun p => { p with next := some pairIdle, waitReason := reason }
  else s

/-- LOSS_WAIT in ticks (R453). -/
def State.lossWait (s : State) : Nat := s.fld Reg.PAIR_CFG Fd.PAIR_CFG_ACT_FILTER + 4

/-- The standby will be out of lockstep after LOSS_WAIT ticks without a release, with a reason. -/
def State.startWait (s : State) (reason : Nat) : State :=
  if s.pair.waitTick.isSome then s else s.setPair fun p => { p with waitTick := some s.now, waitReason := reason }

/-! ### Bundles (R431) -/

/-- At least 12 bundles hold FEC lock in each direction. -/
def State.bundlesUp (s : State) : Bool := decide (12 ≤ popcount 16 s.pair.rxLock) && decide (12 ≤ popcount 16 s.pair.txLock)

/-- Bundles in striping. -/
def State.setStriping (s : State) (k : Nat) (on : Bool) : State :=
  s.setFld Reg.PAIR_LINK Fd.PAIR_LINK_BUNDLES (setNatBit (s.fld Reg.PAIR_LINK Fd.PAIR_LINK_BUNDLES) k on)

/-- The link goes up or down with its bundles; down, it is unkeyed from that moment, and PAIR_LINK_STATE follows at the seam. -/
def State.linkCheck (s : State) : State :=
  let up := s.bundlesUp
  if up == s.pairUp then s
  else if up then
    (s.setFld Reg.PAIR_LINK Fd.PAIR_LINK_UP 1).setPair fun p =>
      { p with linkDue := some 1, shareSent := false, seed := [], downTick := p.downTick <|> some s.now }
  else
    let s := (s.unkey 1).setFld Reg.PAIR_LINK Fd.PAIR_LINK_UP 0
    let s := s.setPair fun p => { p with linkDue := some 2, downTick := p.downTick <|> some s.now, shareSent := false, seed := [] }
    let s := if s.pairState == pairLocked || s.pairState == pairHolding then s.startWait 1 else s
    s.joinAbort 4

/-- PAIR_BUNDLE_LOCK_CHANGE of bundle `k` in a direction (`rx`: received); `ref` tells that its REFCLK_PAIR is absent. A bundle that loses
lock leaves striping; one that has been dropped rejoins after 100 ms. -/
def State.bundleLock (s : State) (k : Nat) (rx lock : Bool) : State :=
  let s := s.setPair fun p =>
    if rx then { p with rxLock := setNatBit p.rxLock k lock } else { p with txLock := setNatBit p.txLock k lock }
  let both := natBit s.pair.rxLock k && natBit s.pair.txLock k
  let out := s.pair.rejoin.filter fun (e : Nat × Nat) => e.1 != k
  let s :=
    if !both then
      let was := natBit (s.fld Reg.PAIR_LINK Fd.PAIR_LINK_BUNDLES) k
      (s.setPair fun p => { p with rejoin := out, dropped := if was then setNatBit p.dropped k true else p.dropped }).setStriping k false
    else if natBit s.pair.dropped k then s.setPair fun p => { p with rejoin := out ++ [(k, s.now)] }
    else s.setStriping k true
  s.linkCheck

def execPairBundleLockChange (k : Fin 16) (rx lock ref : Bool) (s : State) : Host.Outcome State Fault Refusal :=
  .next (
    if !s.straps.pairEn then s
    else
      let s := if ref then s.clockSet 6 (k.val / 4) false else s
      s.bundleLock k.val rx lock)

/-- BUNDLE_REJOIN of bundle `k`: it has held lock for 100 ms. -/
def execBundleRejoin (k : Fin 16) (s : State) : Host.Outcome State Fault Refusal :=
  .next (match s.pair.rejoin.find? fun (e : Nat × Nat) => e.1 == k.val with
    | some e =>
      if s.msSince e.2 100 then
        (s.setPair fun p => { p with rejoin := p.rejoin.filter fun (e : Nat × Nat) => e.1 != k.val, dropped := setNatBit p.dropped k.val false }).setStriping
          k.val true
      else s
    | none => s)

/-! ### Key exchange (R436) -/

/-- The share is drawn and sent with its signature and the certificate chain, once after the link has come up. -/
def State.shareSend (s : State) : State :=
  if !s.pairUp || s.pair.shareSent || !s.fwRuns then s
  else
    let (seed, s) := (List.range 6).foldl (fun (a : List Byte × State) _ => let r := a.2.draw; (a.1 ++ leBytes 8 r.1, r.2)) ([], s)
    let share := Config.ecdhShare seed
    let sig := Config.ecdsaSign s.mgt.aliasSeed (Config.sha384 share)
    let k : Keyx := { share := share, sigR := sig.take 48, sigS := sig.drop 48, chain := Config.ownChain s.mgt.aliasSeed }
    (s.setPair fun p => { p with seed := seed, shareSent := true }).linkSend lfKeyx (Config.keyxBytes k)

/-- Word 1 of an identity in the layout of PAIR_PEER_PIN: lot characters 4 and 5, and the wafer. -/
def identWord1 (ident : List Nat) : Nat := ident.getD 1 0 / 65536 * 65536 + ident.getD 1 0 % 32

/-- The peer's identity fuses equal the pinned ones (PAIR_PEER_PIN). -/
def State.pinOk (s : State) (ident : List Nat) : Bool :=
  !s.flag Reg.PAIR_PEER_PIN2 ⟨31, 1⟩
    || (s.fld Reg.PAIR_PEER_PIN0 wordFld == ident.getD 0 0 && s.fld Reg.PAIR_PEER_PIN1 wordFld == identWord1 ident
        && s.fld Reg.PAIR_PEER_PIN2 ⟨0, 16⟩ == ident.getD 2 0 % 65536)

/-- The exchange is accepted: the chain leads to the Walsis root, the peer is a VX-9600 of stepping B0, its share is signed by its device
key, and the pin holds. -/
def State.keyxOk (s : State) (k : Keyx) : Bool :=
  match Config.devCert k.chain with
  | none => false
  | some c =>
    c.rooted && c.part == 0x9600 && c.stepping == 0xB0 && Config.ecdsaVerify c.key (Config.sha384 k.share) k.sigR k.sigS && s.pinOk c.ident

/-- PAIR_PEER_SEEN shows an authenticated peer. -/
def State.peerSeen (s : State) (ident : List Nat) : State :=
  let s := s.wrReg Reg.PAIR_PEER_SEEN0 (BitVec.ofNat 32 (ident.getD 0 0))
  let s := s.wrReg Reg.PAIR_PEER_SEEN1 (BitVec.ofNat 32 (identWord1 ident))
  s.wrReg Reg.PAIR_PEER_SEEN2 (BitVec.ofNat 32 (ident.getD 2 0 % 65536 + 2147483648))

/-- The streams of the link are opened with first counter 0 (R435). -/
def State.openStreams (s : State) : State :=
  (List.range 6).foldl (fun (s : State) n => (s.setFld (Reg.CHK_ALIVE n) Fd.CHK_ALIVE_EXPECT 0).setFld (Reg.CHK_ALIVE n) Fd.CHK_ALIVE_GAP 0) s

/-- Link keys are established from the shared secret and both shares; both directions start at epoch 0 (R436, R437). -/
def State.keyLink (s : State) (k : Keyx) : State :=
  let own := Config.ecdhShare s.pair.seed
  let z := Config.ecdhSecret s.pair.seed k.share
  let me := s.slotNo
  let s0 := if me = 0 then own else k.share
  let s1 := if me = 0 then k.share else own
  let s := s.setPair fun p =>
    { p with keyTx := Config.linkKey z s0 s1 me, keyRx := Config.linkKey z s0 s1 (1 - me), epochTx := 0, epochRx := 0, fcnt := 0, aliveTx := [],
             mgtLog := [], mgtBuf := [], downTick := none, told := none, work := [], peerLeft := none, statusTick := s.now }
  (s.setFld Reg.PAIR_LINK Fd.PAIR_LINK_KEYED 1).openStreams

/-- A KEYX frame: its payload follows the 16 B header. A refusal keeps the link up and unkeyed (cause 2). -/
def State.keyxIn (s : State) (bytes : List Byte) : State :=
  if !s.pairUp || s.pairKeyed || !s.fwRuns then s
  else
    let s := s.cntPair 1 1
    let n := leField bytes 4 2
    match (if leField bytes 0 1 = lfKeyx then Config.keyxRead (sliceB bytes 16 n) else none) with
    | none => s.cntPair 2 1
    | some k =>
      if s.keyxOk k then
        let s := s.shareSend
        let s := match Config.devCert k.chain with | some c => s.peerSeen c.ident | none => s
        s.keyLink k
      else s.setPair fun p => { p with linkDue := some 3 }

/-- KEYX_RECEIVE of a frame. -/
def execKeyxReceive (bytes : List Byte) (s : State) : Host.Outcome State Fault Refusal :=
  .next (if s.straps.pairEn then s.keyxIn bytes else s)

/-! ### Epochs (R437) -/

/-- The label of the next key, as ASCII: "caerob rekey". -/
def rekeyLabel : List Byte := [0x63, 0x61, 0x65, 0x72, 0x6F, 0x62, 0x20, 0x72, 0x65, 0x6B, 0x65, 0x79]

/-- The key of the next epoch. -/
def nextKey (k : List Byte) : List Byte := Config.hkdf k rekeyLabel 32

/-- This side's sending key advances one epoch. -/
def State.rekeyTx (s : State) : State :=
  s.setPair fun p => { p with keyTx := nextKey p.keyTx, epochTx := (p.epochTx + 1) % 65536 }

/-- The active advances the epoch at the seam that ends a tick whose counter is a multiple of 1,048,576; the standby's direction follows
when it has accepted a frame of the new epoch. -/
def State.linkRekey (s : State) : State :=
  if s.pairKeyed && !s.isStandby && s.itn.tick % 1048576 == 0 && s.pair.rekeyTick != some s.now then
    (s.setPair fun p => { p with rekeyTick := some s.now }).rekeyTx
  else s

/-- LINK_REKEY. -/
def execLinkRekey (s : State) : Host.Outcome State Fault Refusal := .next s.linkRekey

/-! ### Received frames (R433 to R437) -/

/-- The types that go from the active to the standby: INGRESS, RECORD and JOIN; STATUS goes the other way, MGT and RESEND either. -/
def State.rightWay (s : State) (typ : Nat) : Bool :=
  if typ = lfIngress ∨ typ = lfRecord ∨ typ = lfJoin then s.isStandby else if typ = lfStatus then !s.isStandby else true

/-- The stream field that a frame of a type carries. -/
def streamOk (typ stream : Nat) : Bool :=
  if typ = lfMgt then stream == 2 || stream == 5 else stream == linkStream typ true

/-- The sender is asked to resend an MGT stream from the counter expected. -/
def State.resendAsk (s : State) (stream : Nat) : State :=
  (s.linkSend lfResend (leBytes 1 stream ++ leBytes 2 (s.fld (Reg.CHK_ALIVE stream) Fd.CHK_ALIVE_EXPECT) ++ zeros 13)).cntPair 5 1

/-- The response to a gap by its stream (Table 15-4). -/
def State.gapOn (s : State) (stream : Nat) : State :=
  if stream = 0 ∨ stream = 1 then s.leaveLockstep 6
  else if stream = 2 ∨ stream = 5 then s.resendAsk stream
  else if stream = 3 then s.joinAbort 4
  else s

/-- The key of a received epoch: the current one, or the next. -/
def State.epochKey (s : State) (e : Nat) : Option (List Byte) :=
  if e = s.pair.epochRx then some s.pair.keyRx
  else if e = (s.pair.epochRx + 1) % 65536 then some (nextKey s.pair.keyRx) else none

/-- A frame of epoch `e` has been accepted: the next epoch becomes current, and a standby's own direction follows. -/
def State.epochSeen (s : State) (e : Nat) : State :=
  if e = s.pair.epochRx then s
  else
    let s := s.setPair fun p => { p with keyRx := nextKey p.keyRx, epochRx := e }
    if s.isStandby then s.rekeyTx else s

/-- A frame is received while the link is keyed: its type, direction, stream, epoch and tag are checked, then its alive counter. The payload,
when the frame is accepted. -/
def State.linkOpen (s : State) (typ : Nat) (bytes : List Byte) : Option (List Byte) × State :=
  if !s.pairUp || !s.pairKeyed then (none, s)
  else
    let s := s.cntPair 1 1
    let stream := leField bytes 1 1
    let n := leField bytes 4 2
    let e := leField bytes 6 2
    let bad := s.cntPair 2 1
    if leField bytes 0 1 ≠ typ ∨ s.rightWay typ = false ∨ streamOk typ stream = false then (none, bad)
    else
      match s.epochKey e with
      | none => (none, bad)
      | some key =>
        match Config.gcmOpen key (linkIv (1 - s.slotNo) (leField bytes 8 8)) (bytes.take 16) (sliceB bytes 16 n) (sliceB bytes (16 + n) 16) with
        | none => (none, bad)
        | some p =>
          let s := s.epochSeen e
          if stream = 0xFF then (some p, s)
          else
            let before := s.fld (Reg.CHK_ALIVE stream) Fd.CHK_ALIVE_EXPECT
            let ahead := (leField bytes 2 2 + 65536 - before) % 65536
            let (ok, s) := s.alive stream (leField bytes 2 2)
            if ok then (some p, s) else (none, if ahead < 0x8000 then s.gapOn stream else s)

/-- RESEND_FRAME_RECEIVE: the frames of the MGT stream from the named counter on are sent again, with their counters. -/
def State.resend (s : State) (bytes : List Byte) : State :=
  match s.linkOpen lfResend bytes with
  | (none, s) => s
  | (some p, s) =>
    let stream := leField p 0 1
    let c := leField p 1 2
    (s.pair.mgtLog.filter fun (e : Nat × List Byte) => decide ((e.1 + 65536 - c) % 65536 < 0x8000)).foldl
      (fun (s : State) (e : Nat × List Byte) => s.linkPut lfMgt stream e.1 e.2) s

def execResendFrameReceive (bytes : List Byte) (s : State) : Host.Outcome State Fault Refusal := .next (s.resend bytes)

/-! ### Zeroise markers (R438) -/

/-- ZEROISE_MARKER with the source code of the peer's alarm: with ZERO_FOLLOW this controller zeroises too; the link becomes unkeyed. -/
def execZeroiseMarker (code : Fin 7) (s : State) : Host.Outcome State Fault Refusal :=
  .next (
    if !s.pairUp then s
    else
      let s := if s.flag Reg.PAIR_CFG Fd.PAIR_CFG_ZERO_FOLLOW && code.val != 0 && code.val != 6 then s.zeroAlarm code.val else s.unkey 3
      if s.pairState == pairLocked || s.pairState == pairHolding then s.startWait 1 else s)

/-! ### The active role (R439 to R441) -/

/-- The claim wait of R439 in milliseconds: 100 ms in slot 0, CLAIM_WAIT × 100 ms in slot 1. -/
def State.claimMs (s : State) : Nat := if s.straps.pairSlot then 100 * s.fld1 Reg.PAIR_CFG Fd.PAIR_CFG_CLAIM_WAIT else 100

/-- PAIR_ACT_N is driven low. -/
def State.claim (s : State) : State := s.setFld Reg.PAIR_STATUS Fd.PAIR_STATUS_CLAIMED 1

/-- ROLE_CLAIM_TIMEOUT: in INIT, with PAIR_ACT_N high for the claim wait, the controller claims the role; with the line low it becomes a
standby. Outputs follow 10 ms after the claim. -/
def State.roleClaim (s : State) : State :=
  if s.pairState ≠ pairInit ∨ s.pair.next.isSome = true ∨ s.crs.dead = true then s
  else if s.actLow then s.pairWant pairIdle
  else if s.msSince s.pair.highTick s.claimMs then
    (s.claim.setPair fun p => { p with claimTick := some s.now }).pairWant pairAlone
  else s

def execRoleClaimTimeout (s : State) : Host.Outcome State Fault Refusal := .next s.roleClaim

/-- A claim is confirmed: the shared outputs, network transmitters and root ports are driven. -/
def State.takeOutputs (s : State) : State := s.setPair fun p => { p with shared := true, net := true, claimTick := none }

/-- CLAIM_HOLD_EXPIRE: 10 ms have passed since the claim, with no conflicting claim. -/
def execClaimHoldExpire (s : State) : Host.Outcome State Fault Refusal :=
  .next (match s.pair.claimTick with
    | some t => if s.claimed && s.msSince t 10 then s.takeOutputs else s
    | none => s)

/-- The peer reports a claim while this controller's own has not been confirmed: slot 1 gives way (R439). -/
def State.yieldClaim (s : State) : State :=
  if s.claimed && s.pair.claimTick.isSome && s.pair.peerClaim && s.straps.pairSlot then s.releaseRole.pairWant pairIdle else s

/-- PEER_CLAIM_SENSED: PAIR_ACT_N is driven low by the peer. A controller that does not claim stops driving the shared outputs, and a
handover that waited for the new active completes (R461). -/
def State.peerClaims (s : State) : State :=
  let s := s.setPair fun p => { p with peerLow := true }
  if s.claimed then s
  else
    let s := s.setPair fun p => { p with shared := false }
    let d := s.pair.handDesc
    let h := s.pair.handTick.getD 0
    let s := if s.pair.handTick.isSome && s.pairState == pairIdle then
        (s.setPair fun p => { p with handDesc := none, handTick := none }).doneOpt d St.OK (h % 4294967296) 0
      else s
    if s.pairState == pairInit then s.roleClaim else s

def execPeerClaimSensed (s : State) : Host.Outcome State Fault Refusal := .next (if s.straps.pairEn then s.peerClaims else s)

end Sys2Proof.Machine
end

