-- ==== Sys2Proof/Machine/Lockstep.lean ====
section
/-!
DEFINITION. Lockstep (15 R443 to R457): the digest, the record of a tick and what a standby does with its entries, INGRESS and STATUS
frames, held outputs, and the ways in which lockstep ends.
-/

namespace Sys2Proof.Machine

open Sys2Proof

/-! ### The digest (R451) -/

/-- The digest of the events so far. Gate commands, which the standby learns from the record, come last, by bay. -/
def State.digestNow (s : State) : Nat :=
  let es := s.pair.events
  let gates := sortBy (fun (e : Nat × List Nat) => e.2.headD 0) (es.filter fun (e : Nat × List Nat) => e.1 == 5)
  (crc64 ((es.filter (fun (e : Nat × List Nat) => e.1 != 5) ++ gates).flatMap fun (e : Nat × List Nat) => Config.digestRecord e.1 e.2)).toNat

/-- The digest closes: what follows is of the next tick. -/
def State.digestClose (s : State) : Nat × State := (s.digestNow, s.setPair fun p => { p with events := [] })

/-! ### The record (R445) -/

/-- State, RETRIES and power-good of a bay, as a BAY entry holds them. -/
def State.bayRec (s : State) (b : Nat) : Nat × Nat × Bool := (s.pwSt b, s.retries b, s.bayPg b)

/-- BAY entries: every bay whose record changed, and every bay at tick index 255 of each 256; the delay in ms is rounded up. -/
def State.bayEntries (s : State) : State :=
  let bs := (List.range 128).filter fun b =>
    s.itn.tick % 256 == 255 || s.bayRec b != Tab.rd (fun _ => (0, 0, false)) s.pair.bayTold b
  bs.foldl (fun (s : State) b =>
    let r := s.bayRec b
    (s.entry 6 (leBytes 1 b ++ leBytes 1 r.1 ++ leBytes 1 r.2.1 ++ leBytes 1 (b2n r.2.2) ++ leBytes 4 (ceilDiv (s.pw b).delay 125))).setPair
      fun p => { p with bayTold := Tab.wr (fun _ => (0, 0, false)) p.bayTold b r }) s

/-- The record of this tick is sent, its DIGEST entry last. During the hold of a join it holds no other entry: those wait for the first
lockstep record (R465). -/
def State.recordSend (s : State) (digest : Nat) : State :=
  if !s.pairHolds then s
  else
    let hold := s.joinHold
    let s := if hold then s else s.bayEntries
    let es := (if hold then [] else s.pair.entries) ++ [leBytes 1 0x0F ++ leBytes 8 digest ++ zeros 7]
    let bytes := leBytes 8 s.itn.tick ++ leBytes 4 es.length ++ leBytes 4 s.pair.ingress ++ es.flatten
    let s := (chunks16k (bytes.length / linkMax + 1) bytes).foldl (fun (s : State) (b : List Byte) => s.linkSend lfRecord b) s
    s.setPair fun p => { p with entries := if hold then p.entries else [], ingress := 0 }

/-- A STATUS frame of a standby (R447). -/
def State.statusSend (s : State) (ack : Nat) : State :=
  s.linkSend lfStatus (leBytes 8 (s.pair.rcvd.getD 0) ++ leBytes 8 ack ++ leBytes 8 (s.pair.digestTick.getD 0) ++ leBytes 1 s.pairState ++ zeros 7)

/-! ### Replicated work on the standby (R449) -/

/-- The work of a replicated ring command: the same body as on the active, for a descriptor of no ring. -/
def runCommand (ok : Bool) (data : List Byte) (d : Desc) (s : State) : State :=
  let op := d.opcode
  if op = Op.IMG_SWAP then imgSwap d s else if op = Op.VARIANT_EXIT then variantExit d s
  else if op = Op.HOST_ADD then hostAdd ok data d s else if op = Op.HOST_REMOVE then hostRemove d s
  else if op = Op.CHAN_CREATE then chanCreate d s else if op = Op.CHAN_MODIFY then chanModify d s
  else if op = Op.CHAN_DESTROY then chanDestroy d s else if op = Op.KEY_DESTROY then keyDestroy d s
  else if op = Op.POOL_CREATE then poolCreate ok data d s else if op = Op.POOL_DESTROY then poolDestroy d s
  else if op = Op.POOL_MEMBER_ADD then poolMemberAdd d s else if op = Op.POOL_MEMBER_REMOVE then poolMemberRemove d s
  else if op = Op.VOL_CREATE then volCreate d s else if op = Op.VOL_DELETE then volDelete d s
  else if op = Op.VOL_RESIZE then volResize d s else if op = Op.MAINT_START then maintStart d s
  else if op = Op.MAINT_STOP then maintStop d s else if op = Op.TEL_CONFIG then telConfig d s
  else if op = Op.NET_ADDR_SET then netAddrSet d s else if op = Op.QP_DESTROY then qpDestroy d s else s

/-- Replicated work is applied: a COMMIT entry names it. -/
def State.applyReplica (s : State) (r : Replica) : State :=
  match r with
  | .command bytes ok data =>
    let d := Desc.ofBytes 255 s.hst.fetchSeq s.now bytes
    runCommand ok data d ({ s with hst := { s.hst with fetchSeq := s.hst.fetchSeq + 1 } }.start d)
  | .key kek index seq raw =>
    let k1 := raw.take 32
    let s := if kek then s.setPair fun p => { p with kekSeq := seq } else s
    s.keyChange { kek := kek, index := index, raw := if kek then raw else [], desc := none, result := 0,
                  pair := if kek then none else some { k1 := k1, k2 := sliceB raw 32 32, kcv := kcvOf k1 } }
  | .cmReq r => s.takeCm fun f s => s.cmReq r f
  | .cmRtu q => s.takeCm fun _ s => s.rtuIn q
  | .cmDreq q => s.takeCm fun _ s => s.dreqIn q
  | .cmDrep q => s.takeCm fun _ s => s.drepIn q

/-! ### Entries on the standby (Table 15-7) -/

/-- DRV_CPL: the completion is latched. One that ended with DRV_PATH in the tick of its submission was never written on the active, and is
no event of the digest. -/
def State.applyCpl (s : State) (t st : Nat) : State :=
  match s.cmd? t with
  | some c =>
    if c.st ≠ 0 then s
    else
      let s := if st = drvPath && c.tick == s.now then
          s.setPair fun p => { p with events := p.events.filter fun (e : Nat × List Nat) => !(e.1 == 2 && e.2.take 2 == [c.bay, t]) }
        else s
      let c := if st = drvPath then { c with status := drvPath } else { c with status := st % 2048, crd := st / 2048 % 4, dnr := natBit st 14 }
      (s.setCmd t (some { c with st := 1, latched := s.now })).wakeRef c.ref
  | none => s

/-- The cause of a gate-off for the drive fabric (13 Table 13-5), by the state that follows. -/
def State.gateCause (s : State) (b st : Nat) : Nat :=
  if st = bayRetry then 3 else if st = bayOff then (if s.bayPresent b then 1 else 2) else 4

/-- BAY: state, RETRIES, retry delay and power-good follow the active's (13 R407); a change of the gate is an event of the digest. -/
def State.applyBay (s : State) (b st retries : Nat) (pg : Bool) (ms : Nat) : State :=
  let en := st == bayInrush || st == bayOn
  let s := if en == s.pwBit b Fd.BAY_STATUS_EN then s else (s.digest 5 [b, b2n en]).setPwBit b Fd.BAY_STATUS_EN en
  let s := if pg == s.bayPg b then s else (s.pwNote b (if pg then 0 else s.gateCause b st)).setPg b pg
  ((s.setPwSt b st).setRetries b retries).updPw b fun x => { x with delay := 125 * ms }

/-- SEAM kind 1: the variant in force, and the fenced and idled clusters, are the active's (R455). -/
def State.applyVariant (s : State) (v fenced idled : Nat) : State :=
  if v = 0 then (if s.itn.variant = 0 then s else s.exitVariant)
  else
    let newly := clusters.filter fun k => natBit idled k && !s.idled k
    let s := (s.setFld Reg.ITN_FENCE Fd.ITN_FENCE_FENCED fenced).setFld Reg.ITN_FENCE Fd.ITN_FENCE_IDLED idled
    if v = s.itn.variant then
      (newly.foldl (fun (s : State) k => s.suspendAll (s.chansByAge.filter fun i => (s.chan i).cluster == k)) s).restartAll
    else
      match s.img.varts.find? (fun (x : Vart) => x.id == v) with
      | some x => s.enterVariant x
      | none => s

/-- SEAM: the same action as the active's at this seam. A handover names no action here: the release follows. -/
def State.applySeam (s : State) (kind : Nat) (v : List Byte) : State :=
  if kind = 1 then
    (((List.range 4).filter (natBit (leField v 5 1))).foldl State.stackDrop s).applyVariant (leField v 0 1) (leField v 1 2) (leField v 3 2)
  else if kind = 2 then { s with itn := { s.itn with swapPend := 1 } }.swapNow
  else if kind = 3 then { s with itn := { s.itn with dumpDue := leField v 0 1 } }
  else s.setPair fun p => { p with kind := 2 }

/-- LINK: a link of the active has come up, or gone down with the effects of 04 R129. -/
def State.applyLink (s : State) (m : Nat) (up : Bool) : State :=
  let s := s.setPair fun p => { p with links := if up then m :: p.links.filter (· != m) else p.links.filter (· != m) }
  if up then s else s.portFlush m

/-- One entry of a record. -/
def State.applyEntry (s : State) (e : List Byte) : State :=
  match leField e 0 1 with
  | 1 => s.applyCpl (leField e 1 2) (leField e 5 2)
  | 2 => s.setPair fun p => { p with digs := p.digs ++ [{ tag := leField e 1 2, unit := leField e 3 2, outcome := leField e 5 1, crc := leField e 6 8 }] }
  | 3 => s.departed (leField e 1 4)
  | 4 => s.setPair fun p => { p with mirror := some (leField e 1 8) }
  | 5 =>
    match s.pair.work.find? fun (w : Nat × Replica) => w.1 == leField e 1 8 with
    | some w => (s.setPair fun p => { p with work := p.work.erase w }).applyReplica w.2
    | none => s
  | 6 => s.applyBay (leField e 1 1) (leField e 2 1) (leField e 3 1) (leField e 4 1 == 1) (leField e 5 4)
  | 7 => s.applySeam (leField e 1 1) (sliceB e 2 8)
  | 8 => s.applyLink (leField e 1 1) (leField e 2 1 == 1)
  | 9 => s.setPair fun p => { p with randoms := p.randoms ++ [(leField e 1 1, leField e 2 8)] }
  | _ => s

/-- The digests of a tick differ: PAIR_DIV shows them, and the standby is SUSPECT at this seam (R452). -/
def State.diverged (s : State) (own active : Nat) : State :=
  let s := s.wrReg (Reg.PAIR_DIV 0) (BitVec.ofNat 32 s.itn.tick)
  let s := (s.wrReg (Reg.PAIR_DIV 1) (BitVec.ofNat 32 own)).wrReg (Reg.PAIR_DIV 2) (BitVec.ofNat 32 (own / 4294967296))
  let s := (s.wrReg (Reg.PAIR_DIV 3) (BitVec.ofNat 32 active)).wrReg (Reg.PAIR_DIV 4) (BitVec.ofNat 32 (active / 4294967296))
  (((s.cntPair 6 1).raise Ev.PAIR_DIVERGED (s.itn.tick % 4294967296) (own % 4294967296) (active % 4294967296)).setPair
    fun p => { p with waitReason := 3 }).pairWant pairSuspect

/-- Payloads of RECORD frames in a row; none of them is lost. -/
def State.openRecords : List (List Byte) → State → Option (List Byte) × State
  | [], s => (some [], s)
  | f :: fs, s =>
    let r := s.linkOpen lfRecord f
    let rest := State.openRecords fs r.2
    match r.1, rest.1 with
    | some p, some q => (some (p ++ q), rest.2)
    | _, _ => (none, rest.2)

/-- The entries of a record, 16 B each. -/
def recordEntries (n : Nat) (bytes : List Byte) : List (List Byte) := (List.range n).map fun i => sliceB bytes (16 + 16 * i) 16

/-- RECORD_APPLY: the record of this tick is complete at the standby's change phase: its entries take effect in order, and the digests are
compared. In JOIN_STANDBY a record is only receipted. -/
def State.recordApply (s : State) (frames : List (List Byte)) : State :=
  let (p, s) := State.openRecords frames s
  match p with
  | none => s
  | some bytes =>
    let tick := leField bytes 0 8
    let n := leField bytes 8 4
    let es := recordEntries n bytes
    let last := es.getLastD []
    let full := decide (16 + 16 * n ≤ bytes.length) && leField last 0 1 == 0x0F
    if !full then s
    else if s.pairState = pairJoinStandby then (s.setPair fun p => { p with rcvd := some tick }).statusSend tick
    else if s.pairState ≠ pairLocked ∨ s.pair.next.isSome = true ∨ tick ≠ s.itn.tick ∨ s.pair.recordDone = true
        ∨ leField bytes 12 4 ≠ s.pair.ingress then s
    else
      let s := es.foldl State.applyEntry s
      let (own, s) := s.digestClose
      let active := leField last 1 8
      let s := s.setPair fun p => { p with rcvd := some tick, recordDone := true }
      let s := if own = active then s.setPair fun p => { p with digestTick := some tick } else s.diverged own active
      s.statusSend (tick - 2)

def execRecordApply (frames : List (List Byte)) (s : State) : Host.Outcome State Fault Refusal := .next (s.recordApply frames)

/-! ### INGRESS frames (R444) -/

/-- A copy is presented to the standby's switch core with its dispositions (Table 15-6). Its cells are accounted as the active's were;
a frame for management firmware is answered by nobody here. -/
def State.present (s : State) (p : List Byte) : State :=
  let m := leField p 6 1
  let area := leField p 7 1
  let flags := leField p 8 1
  let i := leField p 9 1
  let n := leField p 10 2
  let bytes := sliceB p 16 (n - 4)
  let c := cellsOf n
  let (d, e) := s.destOf m bytes
  let dest : Dest := if area ≤ 1 then .rdma else if area = 2 then .drop
    else match d with
      | .fwd k => if natBit flags 2 then .fwd k else .drop
      | .flood ms => if natBit flags 3 then .flood ms else .drop
      | _ => .drop
  let a := s.unicastAdmit m i c
  -- The active admitted it: its cells are accounted here too, whatever the pair's room.
  let acct : Acct := if area = 1 then .pen else if area = 2 then .mgt else if a = .none then .ing m i false else a
  let h := parseHdr bytes
  let f : Frame := { id := s.net.frameSeq, m := m, i := i, bytes := bytes, len := n, cells := c, acct := acct, dest := dest,
                     bad := natBit flags 1, pairCopy := false, refused := false, ce := natBit flags 0, stamp := s.stampAt (leField p 4 2),
                     ptp := s.rxStamp m (leField p 4 2), entry := e }
  let s := s.setPair fun q => { q with ingress := q.ingress + 1 }
  let s := if !f.bad && s.classify m bytes == .other then s.learn m h.vlan h.src else s
  let s := s.admitFrame f
  { s with net := { s.net with rx := Tab.wr (fun _ => none) s.net.rx m none } }.deliver f

/-- INGRESS_FRAME_RECEIVE: a copy of a later tick waits for that tick; HOLDING and the states outside lockstep take no input. -/
def execIngressFrameReceive (bytes : List Byte) (s : State) : Host.Outcome State Fault Refusal :=
  .next (match s.linkOpen lfIngress bytes with
    | (none, s) => s
    | (some p, s) =>
      if s.pairState ≠ pairLocked ∨ s.pair.next.isSome = true then s
      else if leField p 0 4 = s.itn.tick % 4294967296 then s.present p
      else s.setPair fun q => { q with early := q.early ++ [p] })

/-- A tick begins on the standby: the copies that arrived before it are presented. -/
def State.presentEarly (s : State) : State :=
  let now := s.pair.early.filter fun p => leField p 0 4 == s.itn.tick % 4294967296
  let s := s.setPair fun q => { q with early := q.early.filter fun p => !(leField p 0 4 == s.itn.tick % 4294967296) }
  if s.pairState = pairLocked then now.foldl State.present s else s

/-! ### STATUS frames and held outputs (R447, R448) -/

/-- Completions and events whose record is receipted are posted. -/
def State.releaseHeld (s : State) : State :=
  let ready := s.pair.held.filter fun (h : HeldCpl) => s.receipted h.tick
  let s := s.setPair fun p => { p with held := p.held.filter fun (h : HeldCpl) => !s.receipted h.tick }
  (ready.foldl (fun (s : State) (h : HeldCpl) => s.postCpl h.desc h.status h.r0 h.r1 h.backoff) s).drainEvents

/-- Something is held back. -/
def State.holding (s : State) : Bool :=
  !s.pair.held.isEmpty || !s.hst.backlog.isEmpty || s.net.egress.any fun (f : EgFrame) => f.wait.any fun t => !s.receipted t

/-- The larger of a number and one seen before. -/
def maxOpt (a : Option Nat) (b : Nat) : Option Nat := some (max (a.getD 0) b)

/-- A handover releases the line on the receipt of the record of its seam (R461). -/
def State.handRelease (s : State) : State :=
  match s.pair.handTick with
  | some h =>
    if s.pairState = pairPaired && (s.pair.receipt.any fun r => decide (h ≤ r)) then ((s.cntPair 10 1).releaseRole).pairWant pairIdle else s
  | none => s

/-- STATUS_FRAME_RECEIVE at cycle `cycle` of the tick. Its values are cumulative; a late receipt of the record before this tick counts in
HELD_TICKS. -/
def State.statusIn (s : State) (bytes : List Byte) (cycle : Nat) : State :=
  match s.linkOpen lfStatus bytes with
  | (none, s) => s
  | (some p, s) =>
    let st := leField p 24 1
    let s := (s.setPair fun q => { q with statusTick := s.now }).setFld Reg.PAIR_STATUS Fd.PAIR_STATUS_PEER_STATE st
    if st = pairIdle ∨ st = pairSuspect then
      if s.pairState = pairPaired then s.setPair fun q => { q with peerLeft := some st } else s
    else if st ≠ pairJoinStandby ∧ st ≠ pairLocked ∧ st ≠ pairHolding then s
    else
      let late := s.pairHolds && decide (992 < cycle) && decide (0 < s.itn.tick) && !s.receipted (s.itn.tick - 1) && s.holding
      let s := s.setPair fun q => { q with receipt := maxOpt q.receipt (leField p 0 8), mirror := maxOpt q.mirror (leField p 8 8) }
      let s := if late && s.receipted (s.itn.tick - 1) then s.cntPair 13 1 else s
      s.releaseHeld.handRelease

def execStatusFrameReceive (bytes : List Byte) (cycle : Fin 2048) (s : State) : Host.Outcome State Fault Refusal :=
  .next (s.statusIn bytes cycle.val)

/-- The ACK_TICK received is handed off at the seam, and named in the record (R450). -/
def State.ackApply (s : State) : State :=
  if s.pairHolds && s.pair.mirror.isSome && s.pair.mirror != s.pair.ackTold then
    (s.entry 4 (leBytes 8 (s.pair.mirror.getD 0))).setPair fun p => { p with ackTold := p.mirror }
  else s

/-! ### Ends of lockstep -/

/-- Why the active declares its standby lost now, as a reason of PAIR_STANDBY_LOST; none while it does not (R456). A standby that reports
IDLE, or sends nothing, does not say why it left: a free value. -/
def State.lossReason (s : State) : Option (Option Nat) :=
  let down := s.pair.downTick.any fun t => decide (t + s.lossWait ≤ s.now)
  if s.pair.peerLeft = some pairSuspect then some (some 3)
  else if s.pair.peerLeft.isSome = true then some none
  else if down then some (some 1)
  else if s.pair.statusTick + s.lossWait ≤ s.now then some none
  else none

/-- STANDBY_LOST: at the seam the active becomes ALONE. -/
def State.standbyLost (s : State) : State :=
  if s.pairState ≠ pairPaired ∨ s.pair.next.isSome = true then s
  else
    match s.lossReason with
    | none => s
    | some r =>
      let (v, s) := match r with | some v => (v, s) | none => let d := s.draw; (1 + d.1 % 7, d.2)
      (s.setPair fun p => { p with waitReason := v }).pairWant pairAlone

def execStandbyLost (s : State) : Host.Outcome State Fault Refusal := .next s.standbyLost

/-- RECORD_MISSING: the record of this tick is not complete at the standby's change phase: it is HOLDING, and waits for the release. -/
def State.recordMissing (s : State) : State :=
  if s.pairState = pairLocked && s.pair.next.isNone && !s.pair.recordDone then ((s.cntPair 8 1).pairWant pairHolding).startWait 2 else s

def execRecordMissing (s : State) : Host.Outcome State Fault Refusal := .next s.recordMissing

/-- LOSS_WAIT_EXPIRE: no release has come within LOSS_WAIT (R453, R454). -/
def State.lossExpired (s : State) : State :=
  if s.pair.waitTick.any fun t => decide (t + s.lossWait ≤ s.now) then s.leaveLockstep s.pair.waitReason else s

def execLossWaitExpire (s : State) : Host.Outcome State Fault Refusal := .next s.lossExpired

/-- The tolerance of the offset, and the tick after the active's by which the standby runs. -/
def offsetOk (offset : Nat) : Bool := decide (992 ≤ offset) && decide (offset ≤ 1056)

/-- TICK_BOUNDARY_MARK on a standby in lockstep: the offset of its ticks and the largest latency are shown, and the core PLL is trimmed
within 200 ppm; by how much the spec leaves to it: a free value. -/
def execTickBoundaryMark (offset latency : Fin 65536) (s : State) : Host.Outcome State Fault Refusal :=
  .next (
    if !s.pairUp || !s.isStandby then s
    else
      let s := s.setFld Reg.PAIR_TIMING Fd.PAIR_TIMING_OFFSET offset.val
      let s := s.setFld Reg.PAIR_TIMING Fd.PAIR_TIMING_LAT_MAX (max (s.fld Reg.PAIR_TIMING Fd.PAIR_TIMING_LAT_MAX) latency.val)
      let (t, s) := s.draw
      s.setPair fun p => { p with trim := (t % 400001 : Int) - 200000, offBad := if offsetOk offset.val then 0 else p.offBad + 1 })

/-- LOCKSTEP_OFFSET_LOSS: four ticks in a row out of tolerance (R443). -/
def State.offsetLoss (s : State) : State := if 4 ≤ s.pair.offBad then s.leaveLockstep 5 else s

def execLockstepOffsetLoss (s : State) : Host.Outcome State Fault Refusal := .next s.offsetLoss

/-- What a controller in IDLE or SUSPECT no longer holds (R452, R454, R461): the state that lockstep kept. The itinerary, registers,
rings, keys and bays are its own. -/
def State.dropLockstep (s : State) : State :=
  let n := s.net
  { s with
    net := { Net.reset with addrs := n.addrs, lports := n.lports, quanta := n.quanta, rx := n.rx, frameSeq := n.frameSeq, egSeq := n.egSeq,
                            mgtSeq := n.mgtSeq, tx := n.tx, pfcDue := n.pfcDue, discards := n.discards, ptpSec := n.ptpSec, ptpNs := n.ptpNs,
                            ptpFrac := n.ptpFrac, ptpTx := n.ptpTx, trimTick := n.trimTick, seamSec := n.seamSec, seamNs := n.seamNs,
                            tmgSel := n.tmgSel, fullLast := n.fullLast, holdLast := n.holdLast }
    rdm := Rdm.reset
    cmd := CmdSt.reset
    lay := Lay.reset
    cip := { s.cip with reqs := [] }
    drv := { s.drv with cmds := [] }
    hst := { s.hst with hosts := [], chans := [], chanFresh := 0, chanFreed := [], chanBorn := 0
                        started := s.hst.started.filter fun (d : Desc) => d.ring != 255
                        atSeam := s.hst.atSeam.filter fun (d : Desc) => d.ring != 255 }
    pair := { s.pair with entries := [], ingress := 0, events := [], early := [], digs := [], randoms := [], links := [], work := [],
                          waitTick := none, offBad := 0, recordDone := false, mirror := none, ackTold := none } }

end Sys2Proof.Machine
end

