-- ==== Sys2Proof/Machine/Takeover.lean ====
section
/-!
DEFINITION. Takeover and handover (15 R455, R458 to R462): the confirmed release, the claim and its seam, step 7 of Table 15-8 with the address
announcements, the preempts and the resubmission of drive commands, PAIR_TAKEOVER and the cold claim.
-/

namespace Sys2Proof.Machine

open Sys2Proof

/-! ### Claims of a standby (R458, R462) -/

/-- The line has been high at ACT_FILTER seams, the last of them this tick's. -/
def State.claimFor (s : State) (kind : Nat) : State :=
  (s.claim.setPair fun p => { p with shared := true, kind := kind, takeTick := some s.itn.tick, lastTick := p.rcvd.getD 0, waitTick := none
                                     releaseTick := s.now + 1 - s.fld Reg.PAIR_CFG Fd.PAIR_CFG_ACT_FILTER })

/-- A standby without usable state claims, and becomes ALONE; it imports pools afterwards. -/
def State.coldClaim (s : State) : State := (s.claimFor 3).pairWant pairAlone

/-- RELEASE_CONFIRMED: PAIR_ACT_N has been high at ACT_FILTER consecutive seams. A standby in lockstep takes over, of kind 2 when the active
had named a handover; one without state claims with COLD_AUTO; a join has lost its active. -/
def State.releaseConfirmed (s : State) : State :=
  if !s.straps.pairEn || s.claimed || s.crs.dead then s
  else
    let s := s.setPair fun p => { p with peerLow := false, highTick := s.now }
    if s.pairState = pairLocked ∨ s.pairState = pairHolding then (s.claimFor (if s.pair.kind = 2 then 2 else 1)).pairWant pairTakingOver
    else if (s.pairState = pairIdle ∨ s.pairState = pairSuspect) ∧ s.flag Reg.PAIR_CFG Fd.PAIR_CFG_COLD_AUTO ∧ s.pair.handTick.isNone then s.coldClaim
    else s.joinAbort 4

def execReleaseConfirmed (s : State) : Host.Outcome State Fault Refusal := .next s.releaseConfirmed

/-- The takeover seam S: the new active has none of the faults that the variant answers (R455), and ACK deadlines later than S + 16 ticks are
brought forward (R459). -/
def State.takeoverSeam (s : State) : State :=
  let s := (clusters.filter fun k => !s.serves k).foldl (fun (s : State) k => s.cluEnter k cluPassed 0) s
  let s := s.wrReg Reg.ITN_FENCE 0
  let late := Tab.keys (fun (x : Qp) => decide (s.now + 16 < x.ackDeadline)) s.rdm.qps
  let s := late.foldl (fun (s : State) q => s.updQp q fun x => { x with ackDeadline := s.now + 16 }) s
  s.setPair fun p => { p with freeResend := late, early := [], digs := [], randoms := [] }

/-! ### Step 7 (Table 15-8) -/

/-- The announcement of an address entry: a gratuitous ARP request, or an unsolicited neighbour advertisement with the override flag to all
nodes. -/
def announcement (a : AddrEnt) : List Byte :=
  if a.family = 4 then
    let f := ethHeader broadcastMac a 0x0806 ++ beBytes 2 1 ++ beBytes 2 0x0800 ++ [6, 4] ++ beBytes 2 1 ++ a.mac ++ a.ip.take 4 ++ zeros 6 ++ a.ip.take 4
    f ++ zeros (60 - f.length)
  else
    let dst : List Byte := [0xFF, 2] ++ zeros 13 ++ [1]
    let b : List Byte := [136, 0, 0, 0, 0x20, 0, 0, 0] ++ a.ip ++ [2, 1] ++ a.mac
    ethHeader [0x33, 0x33, 0, 0, 0, 1] a 0x86DD ++ ipPacket a dst a.dscp 0 58 255 (icmp6 a.ip dst b)

/-- An announcement for every address entry that is set (R459). -/
def State.announce (s : State) : State :=
  (List.range 128).foldl (fun (s : State) m => (s.entries m).foldl (fun (s : State) (e : Nat × AddrEnt) => s.sendMgt m e.2.prio (announcement e.2)) s) s

/-- ADDRESS_ANNOUNCE_REPEAT: the announcements are repeated after 1 ms and after 10 ms. -/
def State.announceAgain (s : State) : State :=
  match s.pair.annTick with
  | some t =>
    if (s.pair.announced = 1 ∧ s.msSince t 1) ∨ (s.pair.announced = 2 ∧ s.msSince t 10) then
      s.announce.setPair fun p => { p with announced := p.announced + 1, annTick := if p.announced = 2 then none else p.annTick }
    else s
  | none => s

def execAddressAnnounceRepeat (s : State) : Host.Outcome State Fault Refusal := .next s.announceAgain

/-- Outstanding commands of a bay are written again with their tags: reads, or writes (R460). -/
def State.resubmit (s : State) (b : Nat) (write : Bool) : State :=
  ((s.outstanding b).filter fun (e : Nat × DrvCmd) => e.2.write == write).foldl (fun (s : State) (e : Nat × DrvCmd) =>
    let x := s.bay b
    let n := Tab.rd (fun _ => 0) x.tails e.2.queue
    let c := { e.2 with tick := s.now, slot := n % or1 x.ident.depth, abort := none }
    let t := Tab.wr (fun _ => 0) x.tails e.2.queue (n + 1)
    ((s.setCmd e.1 (some c)).updBay b fun x => { x with tails := t, rung := t }).emitNet (.drvSubmit b c.queue c.slot (c.entry e.1))) s

/-- What step 7 does for one bay: an ONLINE one gets the preempt, its queues stand where the drive last saw them, and reads are resubmitted;
the commands of another end. -/
def State.takeBay (s : State) (b : Nat) : State :=
  if s.online b then
    let s := s.emitNet (.drvPreempt b s.peerKey)
    let s := s.setPair fun p => { p with preempts := p.preempts ++ [b] }
    (s.updBay b fun x => { x with tails := x.rung }).resubmit b false
  else s.endAll b

/-- Step 7: transmitters are enabled, announcements leave, hierarchies start afresh (07 R222), frames of links that are down here are
discarded, and drive commands resume. -/
def State.takeoverSeven (s : State) : State :=
  let s := s.takeOutputs
  let s := (List.range 128).foldl (fun (s : State) m => if s.linkUp m then s.hierarchyFresh m else s.portFlush m) s
  let s := (List.range s.bayCount).foldl State.takeBay s
  let s := s.announce.setPair fun p => { p with annTick := some s.now, announced := 1, takeTick := none, handTick := none }
  ((s.cntPair 9 1).raise Ev.PAIR_TAKEOVER_DONE s.pair.kind (s.pair.lastTick % 4294967296) (s.now - s.pair.releaseTick)).pairWant pairAlone

/-- A takeover during a dump: once the preempts have completed, the new active performs the whole dump (R457). -/
def State.dumpTakeover (s : State) : State :=
  if s.itn.dumpPlan && !s.itn.stopped && s.env.dump.isNone && !s.isStandby && s.pair.preempts.isEmpty && s.straps.pairEn then s.dumpStart else s

/-- RESERVATION_PREEMPT_COMPLETE of bay `b`: writes outstanding there are resubmitted. -/
def State.preempted (s : State) (b : Nat) : State :=
  if s.pair.preempts.contains b then
    let s := s.setPair fun p => { p with preempts := p.preempts.filter (· != b) }
    if s.online b then s.resubmit b true else s
  else s

def execReservationPreemptComplete (b : Fin 128) (s : State) : Host.Outcome State Fault Refusal := .next (s.preempted b.val)

/-! ### Handover (R455, R461) -/

/-- At seam H the handover is named in the record; from here on nothing is transmitted, rung or switched. -/
def State.handover (s : State) : State :=
  if s.pairState = pairPaired && s.pair.handTick.isNone then
    (s.seamEntry 4 []).setPair fun p => { p with handTick := some s.itn.tick, net := false }
  else s

/-- The standby is lost before the release: the handover is given up. -/
def State.handAbandon (s : State) : State :=
  if s.pair.handTick.isSome || s.pair.handDesc.isSome then
    let d := s.pair.handDesc
    (s.setPair fun p => { p with handDesc := none, handTick := none, net := true }).doneOpt d St.PAIR_STATE 0 0
  else s

/-- PAIR_TAKEOVER: MODE 0 hands over at the next seam, MODE 1 claims cold. -/
def pairTakeover (d : Desc) (s : State) : State :=
  let mode := d.f 8 1
  let idle := s.pairState == pairIdle || s.pairState == pairSuspect
  s.checked d
    [(d.handle == 0 && d.reservedZero [(8, 1)] && decide (mode ≤ 1), St.GEN_FIELD), (s.straps.pairEn, St.PAIR_NOT_PAIRED),
     (if mode = 0 then s.pairState == pairPaired && s.pair.handDesc.isNone && s.pair.handTick.isNone else idle, St.PAIR_STATE),
     (mode == 0 || !s.actLow, St.PAIR_NOT_RELEASED)]
    fun s => if mode = 0 then s.setPair fun p => { p with handDesc := some d } else s.coldClaim.done d St.OK

def execPairTakeover (s : State) : Host.Outcome State Fault Refusal := .next (s.ringCmd Op.PAIR_TAKEOVER pairTakeover)

end Sys2Proof.Machine
end

