-- ==== Sys2Proof/Machine/Join.lean ====
section
/-!
DEFINITION. Joining (15 R463 to R466), management frames (R449) and takeover rehearsal (R467).
-/

namespace Sys2Proof.Machine

open Sys2Proof

/-! ### The copied state (R464) -/

/-- What a join copies: the sequencer with both image buffers; hosts, channels and the changes that wait for the next seam; the serai and
schedulers; the transport; the command engine; layouts with cache, journal and maintenance; the key store and array requests; the drive
commands; and the active's tick and links. -/
structure JoinImage where
  now : Nat
  tick : Nat
  itn : Itn
  fence : Word
  hst : HostIf
  net : Net
  rdm : Rdm
  cmd : CmdSt
  lay : Lay
  keys : List (Nat × Option KeyPair)
  keks : List (Nat × List Byte)
  changes : List KeyChange
  reqs : List CipReq
  cmds : List (Nat × Option DrvCmd)
  links : List Nat
deriving DecidableEq, Repr

end Sys2Proof.Machine

namespace Sys2Proof.Config

/-- The payloads of JOIN frames that carry a copied state, and what received payloads hold: 15 R464 gives the content, not the coding. -/
opaque joinPages : Machine.JoinImage → List (List Byte)
opaque joinRead : List (List Byte) → Option Machine.JoinImage

end Sys2Proof.Config

namespace Sys2Proof.Machine

open Sys2Proof

def State.joinImage (s : State) : JoinImage :=
  { now := s.now, tick := s.itn.tick, itn := s.itn, fence := s.rd Reg.ITN_FENCE, hst := s.hst, net := s.net, rdm := s.rdm, cmd := s.cmd,
    lay := s.lay, keys := s.cip.keys, keks := s.cip.keks, changes := s.cip.changes, reqs := s.cip.reqs, cmds := s.drv.cmds,
    links := (List.range 128).filter s.linkUp }

/-- A descriptor of the active's rings, on the standby: its completion goes nowhere here. -/
def Desc.away (d : Desc) : Desc := { d with ring := 255 }

def Chan.away (c : Chan) : Chan := { c with destroy := c.destroy.map Desc.away }
def Qp.away (x : Qp) : Qp := { x with destroy := x.destroy.map Desc.away }
def Vol.away (x : Vol) : Vol := { x with desc := x.desc.map Desc.away }
def Pool.away (x : Pool) : Pool :=
  { x with desc := x.desc.map Desc.away
           changes := x.changes.map fun (e : Nat × Option Nat × Option Desc) => (e.1, e.2.1, e.2.2.map Desc.away)
           acts := x.acts.map fun (a : Activity) => { a with desc := a.desc.map Desc.away } }
def ImgBuf.away (x : ImgBuf) : ImgBuf := { x with loader := x.loader.map Desc.away }

/-- A stamp of this controller's own in the copied count of ticks. -/
def shifted (own copied t : Nat) : Nat := t + copied - own

/-- What this controller keeps keeps its ages when its count of ticks becomes the active's. -/
def State.rebase (s : State) (now : Nat) : State :=
  let f := shifted s.now now
  let p := s.pair
  let desc := fun (d : Desc) => { d with fetchTick := f d.fetchTick }
  { s with
    now := now
    hst := { s.hst with rings := s.hst.rings.map fun (e : Nat × Ring) => (e.1, { e.2 with firstUnsig := f e.2.firstUnsig })
                        queue := s.hst.queue.map desc, started := s.hst.started.map desc }
    net := { s.net with lports := s.net.lports.map fun (e : Nat × LPort) => (e.1, { e.2 with ansTick := f e.2.ansTick })
                        trimTick := s.net.trimTick.map f }
    cip := { s.cip with testTick := f s.cip.testTick, integEv := s.cip.integEv.map f }
    drv := { s.drv with bays := s.drv.bays.map fun (e : Nat × Bay) =>
        (e.1, { e.2 with contained := e.2.contained.map f, recStart := f e.2.recStart, recs := e.2.recs.map f, pgTick := f e.2.pgTick
                         tempTick := e.2.tempTick.map f }) }
    env := { s.env with dutyTick := f s.env.dutyTick, chargeTick := s.env.chargeTick.map f, highTick := s.env.highTick.map f
                        journal := s.env.journal.map fun (e : Nat × Nat) => (f e.1, e.2) }
    crs := { s.crs with clu := s.crs.clu.map fun (e : Nat × CluChk) => (e.1, { e.2 with since := f e.2.since }) }
    mgt := { s.mgt with wdog := s.mgt.wdog.map f, wdog3 := s.mgt.wdog3.map f }
    tel := { s.tel with latchTick := s.tel.latchTick.map f, lastTraceLostEv := s.tel.lastTraceLostEv.map f, violLast := s.tel.violLast.map f }
    pair := { p with highTick := f p.highTick, claimTick := p.claimTick.map f, downTick := p.downTick.map f, statusTick := f p.statusTick
                     rejoin := p.rejoin.map fun (e : Nat × Nat) => (e.1, f e.2), rekeyTick := p.rekeyTick.map f, rhsTick := f p.rhsTick } }

/-- The standby takes the copied state: tick `t` has ended, and the next is its first in lockstep (R464). Its registers, rings, ports, bays,
telemetry and management data stay its own. A frame that was in reception on the active was discarded there. -/
def State.adopt (s : State) (x : JoinImage) (t : Nat) : State :=
  let s := s.rebase (x.now + t - x.tick)
  let n := s.net
  let frames := x.net.rx.filterMap fun (e : Nat × Option Frame) => e.2
  let s := { s with
    itn := { x.itn with tick := t, bufA := x.itn.bufA.away, bufB := x.itn.bufB.away, swapDesc := x.itn.swapDesc.map Desc.away
                        exitDesc := x.itn.exitDesc.map Desc.away }
    hst := { s.hst with hosts := x.hst.hosts, chans := x.hst.chans.map (fun (e : Nat × Chan) => (e.1, e.2.away)), chanFresh := x.hst.chanFresh
                        chanFreed := x.hst.chanFreed, chanBorn := x.hst.chanBorn, atSeam := x.hst.atSeam.map Desc.away }
    net := { x.net with addrs := x.net.addrs, lports := n.lports, rx := [], tx := [], pfcDue := n.pfcDue, discards := n.discards
                        ptpSec := n.ptpSec, ptpNs := n.ptpNs, ptpFrac := n.ptpFrac, ptpTx := n.ptpTx, trimTick := n.trimTick, seamSec := n.seamSec
                        seamNs := n.seamNs, tmgSel := n.tmgSel }
    rdm := { x.rdm with qps := x.rdm.qps.map fun (e : Nat × Qp) => (e.1, e.2.away) }
    cmd := x.cmd
    lay := { x.lay with pools := x.lay.pools.map (fun (e : Nat × Pool) => (e.1, e.2.away)), vols := x.lay.vols.map fun (e : Nat × Vol) => (e.1, e.2.away) }
    cip := { s.cip with keys := x.keys, keks := x.keks, reqs := x.reqs
                        changes := x.changes.map fun (c : KeyChange) => { c with desc := c.desc.map Desc.away } }
    drv := { s.drv with cmds := x.cmds }
    pair := { s.pair with links := x.links } }
  frames.foldl (fun (s : State) (f : Frame) => (s.freeCells f.acct f.cells).freeCells .convoy (if f.pairCopy then f.cells else 0))
    (s.wrReg Reg.ITN_FENCE x.fence)

/-! ### A join (Table 15-9) -/

/-- PHASE of PAIR_JOIN_STATUS. -/
def State.joinPhase (s : State) : Nat := s.fld Reg.PAIR_JOIN_STATUS Fd.PAIR_JOIN_STATUS_PHASE

def State.setPhase (s : State) (n : Nat) : State := s.setFld Reg.PAIR_JOIN_STATUS Fd.PAIR_JOIN_STATUS_PHASE n

def State.updJoin (s : State) (f : Join → Join) : State := s.setPair fun p => { p with join := p.join.map f }

def Join.start (d : Option Desc) : Join :=
  { desc := d, images := 0, holdTicks := 0, crc := none, peerCrc := none, pages := [], endTick := none, holdDue := false, abort := none }

/-- PAIR_JOIN: its checks in the order of R463. -/
def pairJoin (d : Desc) (s : State) : State :=
  let peer := s.fld Reg.PAIR_STATUS Fd.PAIR_STATUS_PEER_STATE
  s.checked d
    [(d.handle == 0 && d.reservedZero [], St.GEN_FIELD), (s.straps.pairEn, St.PAIR_NOT_PAIRED),
     (s.pairState == pairAlone && s.pair.next.isNone && (peer == pairIdle || peer == pairSuspect), St.PAIR_STATE),
     (s.pair.rehearsal.isNone, St.PAIR_BUSY), (s.pairUp && s.pairKeyed, St.PAIR_LINK_DOWN),
     (s.pair.peerFw == (s.rd Reg.MGT_FW_VER).toNat, St.PAIR_PEER_MISMATCH)]
    fun s => (s.setPair fun p => { p with join := some (Join.start (some d)) }).pairWant pairJoinActive

def execPairJoin (s : State) : Host.Outcome State Fault Refusal := .next (s.ringCmd Op.PAIR_JOIN pairJoin)

/-- Step 1: the standby is told, and the checked images are sent (R449). -/
def State.joinBegin (s : State) : State :=
  let s := ((s.wrReg Reg.PAIR_JOIN_STATUS 0).setPhase 1).mgtSend .joinStart
  let bs := [false, true].filter fun b => (s.buf b).st == .ready || (s.buf b).st == .pending || (s.buf b).st == .running
  let s := bs.foldl (fun (s : State) b => s.mgtSend (.image b (s.buf b).bytes)) s
  if bs.isEmpty then s.setPhase 2 else s.updJoin fun j => { j with images := bs.length }

/-- The standby's verdict on an image of the join (step 2). -/
def State.joinVerdict (s : State) (ok : Bool) : State :=
  if s.joinPhase ≠ 1 then s
  else if !ok then s.joinAbort 6
  else
    let s := s.updJoin fun j => { j with images := j.images - 1 }
    if s.pair.join.any fun j => j.images == 0 then s.setPhase 2 else s

/-- JOIN_PRECOPY_END with a residue in MiB after `passes` passes: the hold begins at the next seam (step 3). -/
def execJoinPrecopyEnd (residue : Nat) (passes : Fin 33) (s : State) : Host.Outcome State Fault Refusal :=
  .next (
    if s.pairState = pairJoinActive ∧ s.joinPhase = 2
        ∧ (residue ≤ s.fld1 Reg.PAIR_JOIN_CFG Fd.PAIR_JOIN_CFG_RESIDUE ∨ s.fld Reg.PAIR_JOIN_CFG Fd.PAIR_JOIN_CFG_PASSES ≤ passes.val) then
      (s.setFld Reg.PAIR_JOIN_STATUS Fd.PAIR_JOIN_STATUS_PASS passes.val).updJoin fun j => { j with holdDue := true }
    else s)

/-- Seam J: CLEAN lines are dropped, and the state is copied with its CRC (steps 4 and 5). -/
def State.holdBegin (s : State) : State :=
  let clean := Tab.keys (fun (x : Line) => x.st == .clean) s.lay.lines
  let s := (clean.foldl (fun (s : State) i => s.setLine i Line.reset) s).setPhase 3
  let pages := Config.joinPages s.joinImage
  let crc := (crc64 pages.flatten).toNat
  let s := s.updJoin fun j => { j with holdDue := false, crc := some crc, holdTicks := 0 }
  (pages.foldl (fun (s : State) (p : List Byte) => s.linkSend lfJoin p) s).mgtSend (.joinCrc crc)

/-- JOIN_FRAME_RECEIVE: a payload of the copied state. -/
def execJoinFrameReceive (bytes : List Byte) (s : State) : Host.Outcome State Fault Refusal :=
  .next (match s.linkOpen lfJoin bytes with
    | (none, s) => s
    | (some p, s) => if s.pairState = pairJoinStandby then s.updJoin fun j => { j with pages := j.pages ++ [p] } else s)

/-- JOIN_HOLD_END: both CRCs are known. Equal, the hold ends at the next seam and the standby is told; otherwise the join is aborted. -/
def State.holdEnd (s : State) : State :=
  if s.pairState ≠ pairJoinActive ∨ s.joinPhase ≠ 3 then s
  else
    match s.pair.join with
    | some j =>
      if j.peerCrc.isNone || j.endTick.isSome || j.abort.isSome then s
      else if j.peerCrc = j.crc then (s.updJoin fun j => { j with endTick := some s.itn.tick }).mgtSend (.joinEnd s.itn.tick)
      else s.joinAbort 5
    | none => s

def execJoinHoldEnd (s : State) : Host.Outcome State Fault Refusal := .next s.holdEnd

/-- JOIN_HOLD_TIMEOUT: the hold has reached HOLD_MAX. -/
def State.holdTimeout (s : State) : State :=
  if s.joinHold && s.pair.join.any (fun j => j.endTick.isNone && decide (s.fld Reg.PAIR_JOIN_CFG Fd.PAIR_JOIN_CFG_HOLD_MAX ≤ j.holdTicks)) then s.joinAbort 3 else s

def execJoinHoldTimeout (s : State) : Host.Outcome State Fault Refusal := .next s.holdTimeout

/-- The causes of an abort that the seam finds: 1 a port in the hold, 2 a fault, an alarm or a power failure (R466). -/
def State.joinFaults (s : State) : State :=
  let port := s.joinHold && ((List.range 128).any (fun m => (s.lport m).pendUp || (s.lport m).pendDown != 0) || !s.itn.pendPorts.isEmpty)
  let fault := !s.itn.pendFaults.isEmpty || !s.itn.pendStacks.isEmpty || !s.noAlarm || s.itn.dumpDue != 0
  let s := if port then s.joinAbort 1 else s
  if fault then
    let was := s.pair.join.any fun j => j.abort.isSome
    let s := s.joinAbort 2
    if s.pairState = pairJoinStandby ∧ ¬ was then s.mgtSend (.joinAbort 2) else s
  else s

/-- The end of a join on the active, at the seam that ends its hold. -/
def State.joinDone (s : State) (j : Join) : State :=
  let s := ((s.setPhase 4).cntPair 11 1).setFld Reg.PAIR_JOIN_STATUS Fd.PAIR_JOIN_STATUS_HOLD_TICKS (min 0xFFFF j.holdTicks)
  let s := s.raise Ev.PAIR_LOCKSTEP ((s.itn.tick + 1) % 4294967296) j.holdTicks 0
  (s.setPair fun p => { p with join := none, peerLeft := none, statusTick := s.now, handTick := none, handDesc := none }).doneOpt j.desc St.OK j.holdTicks 0

/-- An abort at its seam. -/
def State.joinStop (s : State) (j : Join) (cause : Nat) : State :=
  let active := s.pairState == pairJoinActive
  let s := if active then s.mgtSend (.joinAbort cause) else s
  let s := ((s.setPhase 5).setFld Reg.PAIR_JOIN_STATUS Fd.PAIR_JOIN_STATUS_CAUSE cause).cntPair 12 1
  let s := s.setFld Reg.PAIR_JOIN_STATUS Fd.PAIR_JOIN_STATUS_HOLD_TICKS (min 0xFFFF j.holdTicks)
  let s := (s.setPair fun p => { p with join := none }).doneOpt j.desc St.PAIR_JOIN_ABORTED 0 cause
  s.pairWant (if active then pairAlone else pairIdle)

/-- The join at a seam: an abort, the hold's beginning, its count, its end, or, on the standby, the first lockstep tick. -/
def State.joinSeam (s : State) : State :=
  let s := if s.pairState == pairJoinActive || s.pairState == pairJoinStandby then s.joinFaults else s
  let s := if s.joinHold then s.updJoin fun j => { j with holdTicks := j.holdTicks + 1 } else s
  let s := s.holdTimeout
  match s.pair.join with
  | none => s
  | some j =>
    if s.pairState = pairJoinActive then
      match j.abort with
      | some c => s.joinStop j c
      | none =>
        if j.endTick.isSome then (s.joinDone j).pairWant pairPaired
        else if j.holdDue then s.holdBegin else s
    else if s.pairState = pairJoinStandby then
      match j.abort with
      | some c => s.joinStop j c
      | none =>
        match j.endTick, Config.joinRead j.pages with
        | some t, some x =>
          let s := (s.setPair fun p => { p with join := none, rcvd := some t, digestTick := some t, kind := 1, recordDone := true }).adopt x t
          (s.schedEvent 6 0).pairWant pairLocked
        | _, _ => s
    else s

/-! ### Rehearsal (R467) -/

/-- The operands of a PAIR_REHEARSE. -/
def Rehearse.ofDesc (d : Desc) : Rehearse :=
  { kind := d.f 8 1, index := d.f 10 2, entry := d.f 12 1, count := d.f 13 1, family := d.f 14 1, srcMac := d.bytes 16 6, srcIp := d.bytes 24 16 }

/-- Every address entry that is set. -/
def State.allEntries (s : State) : List AddrEnt := (List.range 128).flatMap fun m => (s.entries m).map fun (e : Nat × AddrEnt) => e.2

/-- The operands are in range. -/
def State.rehearseOk (s : State) (r : Rehearse) : Bool :=
  let index := match r.kind with
    | 1 => s.lportExists r.index
    | 2 | 3 => decide (r.index < s.bayCount)
    | 4 => decide (r.index < 12)
    | 5 => r.index == 0
    | _ => false
  index && decide (r.entry ≤ 3) && (r.family == 4 || r.family == 6) && unicastMac r.srcMac
    && s.allEntries.all fun (a : AddrEnt) => a.mac != r.srcMac && !(a.family == r.family && a.ip == r.srcIp)

/-- The preconditions of the target; `peer` tells that those on the standby hold. -/
def State.rehearsable (s : State) (r : Rehearse) (peer : Bool) : Bool :=
  match r.kind with
  | 1 => peer && (s.addr r.index r.entry).isSome
  | 2 => peer && s.online r.index && (s.memberOf r.index).isSome
  | 3 => s.pwSt r.index == bayOff && !s.bayPresent r.index && s.curveValid r.index
  | 4 => s.flag (Reg.ENV_FAN_CFG r.index) Fd.ENV_FAN_CFG_PRESENT
  | _ => true

/-- A rehearsal starts: the standby acts. -/
def State.rehearseStart (s : State) (d : Desc) (r : Rehearse) : State :=
  let o := Reg.PAIR_RHS_STATUS
  let s := (((s.wrReg o 0).setFld o Fd.PAIR_RHS_STATUS_BUSY 1).setFld o Fd.PAIR_RHS_STATUS_KIND r.kind).setFld o Fd.PAIR_RHS_STATUS_INDEX r.index
  (((s.setPair fun p => { p with rehearsal := some r }).cntPair 14 1).mgtSend (.rehearse r)).done d St.OK

/-- PAIR_REHEARSE. -/
def pairRehearse (peer : Bool) (d : Desc) (s : State) : State :=
  let r := Rehearse.ofDesc d
  s.checked d
    [(d.handle == 0 && d.reservedZero [(8, 1), (10, 5), (16, 6), (24, 16)] && s.rehearseOk r, St.GEN_FIELD),
     (decide (1 ≤ r.count) && decide (r.count ≤ 16), St.RING_FORMAT), (s.straps.pairEn, St.PAIR_NOT_PAIRED),
     (s.pairState == pairPaired, St.PAIR_STATE), (s.pair.join.isNone && s.pair.rehearsal.isNone, St.PAIR_BUSY),
     (s.rehearsable r peer, St.PAIR_REHEARSE_REFUSED)]
    fun s => s.rehearseStart d r

def execPairRehearse (peer : Bool) (s : State) : Host.Outcome State Fault Refusal := .next (s.ringCmd Op.PAIR_REHEARSE (pairRehearse peer))

/-- A rehearsal ends on the active with a result and the replies or units checked. -/
def State.rehearseEnd (s : State) (result n : Nat) : State :=
  match s.pair.rehearsal with
  | none => s
  | some r =>
    let o := Reg.PAIR_RHS_STATUS
    let s := (s.setFld o Fd.PAIR_RHS_STATUS_BUSY 0).setFld o Fd.PAIR_RHS_STATUS_RESULT result
    let s := if result = 0 then s else (s.cntPair 15 1).setFld Reg.PAIR_STATUS Fd.PAIR_STATUS_RHS_FAIL 1
    (s.setPair fun p => { p with rehearsal := none, rhsTick := s.now }).raise Ev.PAIR_REHEARSE_DONE (r.kind * 256 + r.index % 256) result n

/-- REHEARSAL_END with result 0 to 3: the standby reports its part, the active ends the rehearsal. -/
def execRehearsalEnd (result : Fin 4) (n : Fin 17) (s : State) : Host.Outcome State Fault Refusal :=
  .next (
    if s.pair.rehearsal.isNone then s
    else if s.isStandby then (s.setPair fun p => { p with rehearsal := none }).mgtSend (.rehearsed result.val n.val)
    else s.rehearseEnd result.val n.val)

/-- A takeover, or the end of lockstep, aborts a rehearsal. -/
def State.rehearseSeam (s : State) : State :=
  if s.pair.rehearsal.isNone then s
  else if s.pairState = pairPaired ∨ s.pairState = pairLocked then s
  else if s.fld Reg.PAIR_RHS_STATUS Fd.PAIR_RHS_STATUS_BUSY = 1 then s.rehearseEnd 4 0
  else s.setPair fun p => { p with rehearsal := none }

/-! ### Management frames (R449) -/

/-- An image from the active: the standby applies R59 itself, and answers. During a join the image is only checked: the copied state brings
it. -/
def State.imageIn (s : State) (b : Bool) (bytes : List Byte) : State :=
  let bad := s.imgCheck bytes
  if s.pairState = pairJoinStandby then s.mgtSend (.imageVerdict b bad.isNone)
  else if s.pairState = pairLocked then
    ((s.setBuf b { ImgBuf.reset with st := .loading, loadSize := bytes.length }).loadEnd b bytes bad).mgtSend (.imageVerdict b bad.isNone)
  else s

/-- A complete management message. `failed` and `unread` are the SPI NOR devices that fail a staging or an activation here. -/
def State.mgtMsg (s : State) (m : MgtMsg) (failed unread : Nat) : State :=
  match m with
  | .report st fw staged claim =>
    ((s.setFld Reg.PAIR_STATUS Fd.PAIR_STATUS_PEER_STATE st).setPair fun p => { p with peerFw := fw, peerStaged := staged, peerClaim := claim }).yieldClaim
  | .work n r => if s.isStandby then s.setPair fun p => { p with work := p.work ++ [(n, r)] } else s
  | .image b bytes => s.imageIn b bytes
  | .imageVerdict b ok => if s.pairState = pairJoinActive then s.joinVerdict ok else s.imageVerdictIn b ok
  | .joinStart =>
    if (s.pairState = pairIdle ∨ s.pairState = pairSuspect) ∧ s.pair.next.isNone then
      (s.setPair fun p => { p with join := some (Join.start none) }).pairWant pairJoinStandby
    else s
  | .joinCrc c =>
    let s := s.updJoin fun j => { j with peerCrc := some c }
    if s.pairState = pairJoinStandby then
      match s.pair.join with
      | some j => s.mgtSend (.joinCrc (crc64 j.pages.flatten).toNat)
      | none => s
    else s
  | .joinEnd t => if s.pairState = pairJoinStandby then s.updJoin fun j => { j with endTick := some t } else s
  | .joinAbort c => s.joinAbort c
  | .rehearse r => if s.pairState = pairLocked then (s.setPair fun p => { p with rehearsal := some r }).emit (.rehearse r) else s
  | .rehearsed result n => if s.isStandby then s else s.rehearseEnd result n
  | .package bytes =>
    if s.isStandby then let r := s.stagePeer bytes failed
                        r.2.mgtSend (.packageDone r.1)
    else s
  | .packageDone st => s.stagePeerDone st
  | .activate mode => if s.isStandby then s.activatePeer mode unread else s
  | .activated st => s.activatePeerDone st unread

/-- MGT_FRAME_RECEIVE: the frame's payload joins those before it; a complete message takes effect. -/
def State.mgtIn (s : State) (bytes : List Byte) (failed unread : Nat) : State :=
  match s.linkOpen lfMgt bytes with
  | (none, s) => s
  | (some p, s) =>
    let buf := s.pair.mgtBuf ++ [p]
    match Config.mgtRead buf with
    | none => s.setPair fun q => { q with mgtBuf := buf }
    | some m =>
      let s := s.setPair fun q => { q with mgtBuf := [] }
      if s.fwRuns then s.mgtMsg m failed unread else s

def execMgtFrameReceive (bytes : List Byte) (failed unread : BitVec 2) (s : State) : Host.Outcome State Fault Refusal :=
  .next (s.mgtIn bytes failed.toNat unread.toNat)

end Sys2Proof.Machine
end

