-- ==== Sys2Proof/Machine/Seam.lean ====
section
/-!
DEFINITION. The seam that ends each tick (02 R27): hand-off, latch, change phase and tick boundary; in a paired shelf with what a
pair does at it (15 R442 to R466).
-/

namespace Sys2Proof.Machine

open Sys2Proof

/-- `f` for each number of a list, in order. -/
def State.each (s : State) (ks : List Nat) (f : State → Nat → State) : State := ks.foldl f s

/-! ### Hand-off (R20, R29, R33) -/

/-- Every memory-lane request posted before the next tick completes: the next legs are ready two ticks after their posting. -/
def State.lanesDue (s : State) : State :=
  { s with cmd := { s.cmd with items := s.cmd.items.map fun (it : Item) =>
      match it.wait with
      | .lane p => if p + 1 ≤ s.now then { it with wait := .none, ready := p + 2 } else it
      | _ => it } }

/-- The oldest requests of the cipher array of cluster `k` that are due by this seam complete, at most `n` of them (R42). -/
def State.cipherDue (k : Nat) : Nat → State → State
  | 0, s => s
  | n + 1, s =>
    match s.nextCipher k with
    | some r => if (r.latency && decide (r.posted ≤ s.now)) || decide (r.posted + 1 ≤ s.now) then State.cipherDue k n (s.cipherDone k) else s
    | none => s

/-- The same for the parity unit of cluster `k` (R43). -/
def State.parityDue (k : Nat) : Nat → State → State
  | 0, s => s
  | n + 1, s =>
    match s.lay.parity.find? (·.cluster == k) with
    | some q => if q.posted + 1 ≤ s.now then State.parityDue k n (s.parityDone k) else s
    | none => s

/-- A drive command works for something that no longer exists. -/
def State.orphan (s : State) (r : Ref) : Bool :=
  match r with
  | .wb w => (s.wb w).st == .free
  | .work id => (s.work? id).isNone
  | .cap _ => true

/-- Tags of completed commands whose waybill or pool item has ended are free (12 R374). -/
def State.tagsDue (s : State) : State :=
  if s.itn.dumpPlan then s
  else (s.cmdsThat fun c => decide (1 ≤ c.st) && s.orphan c.ref).foldl (fun (s : State) (e : Nat × DrvCmd) => s.freeTag e.1) s

/-- The hand-off phase. -/
def State.handOff (s : State) : State :=
  let s := s.lanesDue
  let s := s.each clusters fun s k => State.parityDue k s.lay.parity.length (State.cipherDue k s.cip.reqs.length s)
  let s := s.ackApply.abortSeam.unlockSeam.abortDeferred
  s.durableSeam.traceSeam.rdmSeam.settleCells.tagsDue

/-! ### Variants (R21, R61, R66; 04 R132; 15 R455) -/

/-- The standby follows the active's variant, swaps and dumps, by the record. -/
def State.follows (s : State) : Bool := (s.pairState == pairLocked || s.pairState == pairHolding) && s.pair.next.isNone

/-- The active hands over at this seam, in place of what a fault of its own asks for, or because PAIR_TAKEOVER waits. -/
def State.handsOver (s : State) : Bool :=
  s.pairState == pairPaired && s.pair.next.isNone && s.pair.handTick.isNone
    && (s.pair.handDesc.isSome
      || (!s.itn.pendFaults.isEmpty && s.itn.variant == 0 && s.flag Reg.PAIR_CFG Fd.PAIR_CFG_HO_FENCE)
      || (!s.itn.pendFaults.isEmpty && s.itn.variant != 0 && s.flag Reg.PAIR_CFG Fd.PAIR_CFG_HO_SECOND)
      || (!s.itn.pendStacks.isEmpty && s.flag Reg.PAIR_CFG Fd.PAIR_CFG_HO_STACK)
      || (!s.itn.pendPorts.isEmpty && s.flag Reg.PAIR_CFG Fd.PAIR_CFG_HO_PORT))

/-- A stack lost in this tick: its contents are dropped, and its variant is selected. -/
def State.stackNow (s : State) (n : Nat) : State := ((s.variantDrop (2 ^ n)).stackDrop n).stackVariant n

/-- The ports lost in this tick: the variant is selected, and MAC_PORT_LOST carries it, or 0xFF. -/
def State.portsNow (s : State) (ps : List Nat) : State :=
  let open_ := decide (s.itn.variant = 0) || decide (s.itn.faultKind = 3)
  let v := if open_ && !ps.isEmpty then ((s.img.portVariant s.lostPorts).map (·.id)).getD 0xFF else 0xFF
  let s := if ps.isEmpty then s else s.portsVariant
  s.each ps fun s p => s.raise Ev.MAC_PORT_LOST p (s.fld (Reg.MAC_STATUS p) Fd.MAC_STATUS_LOST_CAUSE) v

/-- A sequencer started in the ended tick has begun (R60). -/
def State.startSeam (s : State) : State :=
  if s.itn.starting then { s with itn := { s.itn with starting := false } }.schedEvent 1 0 else s

/-- During a dump a faulted cluster is fenced, so that the dump plan passes it over, and a lost stack's contents are dropped; no variant is entered
(02 R65). -/
def State.fenceDump (s : State) (f : PendFault) : State :=
  if !s.serves f.cluster then s
  else
    (s.cluEnter f.cluster cluReset f.cause).setFld Reg.ITN_FENCE Fd.ITN_FENCE_FENCED
      (setNatBit (s.fld Reg.ITN_FENCE Fd.ITN_FENCE_FENCED) f.cluster true)
def State.faultsDump (s : State) : State :=
  let fs := s.itn.pendFaults
  let ss := s.itn.pendStacks
  let ps := s.itn.pendPorts
  let s := fs.foldl State.fenceDump { s with itn := { s.itn with pendFaults := [], pendStacks := [], pendPorts := [] } }
  let s := s.each ss State.stackDrop
  s.each ps fun s p => s.raise Ev.MAC_PORT_LOST p (s.fld (Reg.MAC_STATUS p) Fd.MAC_STATUS_LOST_CAUSE) 0xFF

/-- Swaps come first, then VARIANT_EXIT, then the faults of the tick (R21), those of clusters in the order in which they were detected: of two from
variant 0 the first enters its variant and the second is idled (the spec gives no order: DESIGN CHOICE, log 121). A standby that follows the record
does none of this; its own ports show their loss. -/
def State.variants (s : State) : State :=
  let ho := s.handsOver
  let s := if ho then s.handover else s
  let fs := if ho then [] else s.itn.pendFaults
  let ss := if ho then [] else s.itn.pendStacks
  let ps := s.itn.pendPorts
  if s.follows then
    s.each ps fun s p => s.raise Ev.MAC_PORT_LOST p (s.fld (Reg.MAC_STATUS p) Fd.MAC_STATUS_LOST_CAUSE) 0xFF
  else
    let s := s.swapNow.exitNow
    let s := { s with itn := { s.itn with pendFaults := [], pendStacks := [], pendPorts := [] } }
    let s := if s.itn.running then fs.foldl State.fenceNow s else s
    let s := s.each ss State.stackNow
    if ho || !s.itn.running then
      s.each ps fun s p => s.raise Ev.MAC_PORT_LOST p (s.fld (Reg.MAC_STATUS p) Fd.MAC_STATUS_LOST_CAUSE) 0xFF
    else s.portsNow ps

/-! ### Commands that take effect at the seam (R21, 03 R93) -/

/-- A descriptor whose change waited for this seam. -/
def State.seamCommand (s : State) (d : Desc) : State :=
  let op := d.opcode
  if op = Op.MAINT_START then s.maintRequest d
  else if op = Op.MAINT_STOP then s.maintHalt d
  else if op = Op.POOL_DESTROY then s.poolGone d
  else if op = Op.VOL_CREATE then s.volCreateNow d
  else if op = Op.VOL_RESIZE then s.volResizeNow d
  else if op = Op.VOL_DELETE then s.volDeleteNow d
  else if op = Op.NET_ADDR_SET then (s.addrApply d).discoveryChanged
  else if op = Op.BAY_POWER then s.bayPowerNow d
  else if op = Op.CHAN_CREATE then s.chanCreateNow d
  else if op = Op.CHAN_MODIFY then s.chanModifyNow d
  else if op = Op.CHAN_DESTROY then s.chanDestroyNow d
  else if op = Op.TEL_CONFIG then s.telConfigNow d
  else if op = Op.LOG_READ then s.logReadNow d
  else s

/-- A command that waits for a run-time change of R21. -/
def Desc.changesChannel (d : Desc) : Bool := d.opcode == Op.CHAN_CREATE || d.opcode == Op.CHAN_MODIFY || d.opcode == Op.CHAN_DESTROY

/-- All of them, in the order in which they came due. From a dump's entry on, those that wait for a run-time change of R21 go on waiting (02 R65). -/
def State.seamCommands (s : State) : State :=
  let held := if s.itn.dumpPlan then s.hst.atSeam.filter Desc.changesChannel else []
  (s.hst.atSeam.filter fun d => !(s.itn.dumpPlan && d.changesChannel)).foldl State.seamCommand { s with hst := { s.hst with atSeam := held } }

/-! ### The change phase -/

/-- Ticks with XOFF in force count (18 Table 18-1). -/
def State.xoffTicks (s : State) : State := s.xoffPairs.foldl (fun (s : State) (e : Nat × Nat) => s.acc 3 (8 * e.1 + e.2) 3 1) s

/-- Management firmware reloads the maps lost with a stack (09 R301): at a seam that the spec leaves to it, a free value for each volume. -/
def State.mapReload (s : State) : State :=
  if !s.fwRuns then s
  else
    s.each (Tab.keys (fun (x : Vol) => x.unmapped) s.lay.vols) fun s v =>
      let (n, s) := s.draw
      if n % 2 = 0 then s.updVol v fun x => { x with unmapped := false } else s

/-- The RWL fields of a register. -/
def RegDef.rwlMask (r : RegDef) : Nat :=
  (r.fields.filter fun f => f.acc == .rwl).foldl (fun n f => n + f.fld.max * 2 ^ f.fld.lsb) 0

/-- The offsets of the instances of a register. -/
def RegDef.offsets (r : RegDef) : List Nat :=
  match r.dims with
  | [] => [r.base]
  | [(n, st)] => (List.range n).map fun i => r.base + st * i
  | (n, st) :: (n', st') :: _ => (List.range n).flatMap fun i => (List.range n').map fun j => r.base + st * i + st' * j

/-- Measurement 6: the RWL fields of every block as 32-bit registers, by ascending offset (16 Table 16-7, 19 R543). -/
def State.setup (s : State) : List Byte :=
  (sortBy (fun (e : Nat × Nat) => e.1) ((regTable.filter fun r => r.rwlMask != 0).flatMap fun r => r.offsets.map fun o => (o, r.rwlMask))).flatMap
    fun (e : Nat × Nat) => leBytes 4 ((s.rd e.1).toNat &&& e.2)

def State.lockMeasure (s : State) : State :=
  if s.mgt.meas6Due then ({ s with mgt := { s.mgt with meas6Due := false } }).setMeas 6 (Config.sha384 s.setup) else s

/-- Pools and volumes. -/
def State.layoutChanges (s : State) : State :=
  let pools := List.range 16
  let s := s.each pools fun s p => ((s.poolOnline p).poolSeam p).repairSeam p
  let s := s.each (Tab.keys (fun (x : Vol) => x.st != 0) s.lay.vols) State.volSeam
  s.volSnap.journalWaits.mapReload

/-- QPs and controllers (05 R147; 08 R231 to R258). -/
def State.hostChanges (s : State) : State :=
  let s := (s.each s.knownQps fun s q => ((s.qpTimers q).repResend q).dreqResend q).engineSeam
  let failing := s.failingQps
  let s := (s.each s.knownQps State.qpChange).each failing State.cmdErr
  let s := s.bindSeam.ctrlSeam
  let s := s.each s.liveCtrls State.ctrlEnd
  s.resvSeam.testSeam.aevSeam

/-- Channels, meters and shapers (02 R45, 03 R104 to R110, 07 R202 to R221). -/
def State.channelChanges (s : State) : State :=
  let s := s.meterSeam.meterSnap.admitWaits.creditSeam
  let s := if s.itn.dumpPlan then s else s.freeChans
  let s := if s.itn.dumpPlan then s else s.each s.liveChans fun s i => (s.leaveClass i).returnHome i
  s.shaperRefill.ageOut.xoffTicks

/-- The change phase. A dump that is due is entered before any other change; from then on no run-time change of R21 is made (02 R65). The meters
are refilled before any change of their channels (03 R109, 07 R202). -/
def State.changes (s : State) : State :=
  let s := s.dumpBegin.dumpTakeover
  let s := s.meterRefill.cipSeam.startSeam
  let s := (if s.itn.dumpPlan then s.faultsDump else s.variants).cluSeam
  let s := s.seamCommands
  let s := s.powerSeam.driveSeam.layoutChanges
  let s := s.linkUps.linkDowns.hostChanges.channelChanges
  let s := if s.fwRuns then s.trimUpdate else s
  let s := s.qpSnap.lockMeasure.measSnap.measAnswers
  s.dumpWriteDone.dumpReport.creditRefill

/-! ### The pair at the seam (15 R442) -/

/-- The standby's own reasons to leave lockstep, and its record (R453, R454); the active's loss of its standby (R456). -/
def State.pairDecide (s : State) : State :=
  let s := s.roleClaim
  let s := match s.pair.claimTick with
    | some t => if s.claimed && s.msSince t 10 then s.takeOutputs else s
    | none => s
  let s := if s.pairState = pairTakingOver ∧ s.pair.next = none then s.takeoverSeven else s
  let s := s.recordMissing.offsetLoss.lossExpired
  let s := if !s.itn.pendFaults.isEmpty || !s.itn.pendStacks.isEmpty || !s.itn.pendPorts.isEmpty then s.leaveLockstep 4 else s
  let s := if s.cip.zeroed.isSome then s.leaveLockstep 7 else s
  let late := s.pairHolds && decide (0 < s.itn.tick) && !s.receipted (s.itn.tick - 1) && s.holding
  (if late then s.cntPair 13 1 else s).standbyLost

/-- What waited for the standby ends without it. -/
def State.withoutPeer (s : State) : State :=
  let (v, s) := s.draw
  let s := (s.stagePeerDone (1 + v % 65535)).activatePeerDone (1 + v % 65535) 0
  let s := [false, true].foldl (fun (s : State) b =>
    if (s.buf b).st == .loading && !(s.buf b).bytes.isEmpty then s.loadEnd b (s.buf b).bytes none else s) s
  s.releaseHeld

/-- The change of pair state from `old` to `new` takes effect. -/
def State.pairMove (s : State) (old new : Nat) : State :=
  let s := (s.setPair fun p => { p with st := new, next := none }).raise Ev.PAIR_ROLE new old 0
  if new = pairAlone then
    if old = pairPaired then
      let s := (s.cntPair 7 1).raise Ev.PAIR_STANDBY_LOST s.pair.waitReason (s.pairTick % 4294967296) 0
      s.handAbandon.withoutPeer
    else if old = pairJoinActive then s.releaseHeld
    else if old = pairIdle ∨ old = pairSuspect then
      let s := (s.takeOutputs.cntPair 9 1).raise Ev.PAIR_TAKEOVER_DONE 3 (s.pair.lastTick % 4294967296) (s.now - s.pair.releaseTick)
      { s with lay := { s.lay with imported := false } }
    else s
  else if new = pairIdle ∨ new = pairSuspect then
    if old = pairLocked ∨ old = pairHolding then
      ((s.cntPair 7 1).raise Ev.PAIR_STANDBY_LOST s.pair.waitReason ((s.pair.rcvd.getD 0) % 4294967296) 0).dropLockstep
    else if old = pairPaired then s.withoutPeer.dropLockstep
    else if old = pairInit then s
    else s.dropLockstep
  else if new = pairJoinActive then s.joinBegin
  else if new = pairJoinStandby then s.dropLockstep.setPhase 1
  else if new = pairLocked then s.setPhase 4
  else if new = pairTakingOver then s.takeoverSeam
  else s

/-- What this controller last told its peer of itself is told again when it has changed (R439, R463). -/
def State.tellPeer (s : State) : State :=
  let now := (s.pairState, (s.rd Reg.MGT_FW_VER).toNat, (s.rd Reg.MGT_FW_STAGED).toNat, s.claimed)
  if s.pairKeyed && s.pair.told != some now then (s.setPair fun p => { p with told := some now }).report else s

/-- A change of the link since the last seam is reported. -/
def State.linkReport (s : State) : State :=
  match s.pair.linkDue with
  | some v => (s.setPair fun p => { p with linkDue := none }).raise Ev.PAIR_LINK_STATE (b2n s.pairUp) (s.fld Reg.PAIR_LINK Fd.PAIR_LINK_BUNDLES) (v - 1)
  | none => s

/-- The pair's part of the seam, after the change phase: joins and rehearsals, the record or the status, and the change of state. -/
def State.pairSeam (s : State) (digest : Nat) : State :=
  let s := s.joinSeam.rehearseSeam
  let s := if s.pair.handTick.all fun h => decide (s.itn.tick ≤ h) then s.recordSend digest else s
  let s := if s.isStandby then s.statusSend (s.itn.tick - 1) else s
  let s := s.shareSend.linkRekey.linkReport.announceAgain
  let s := match s.pair.next with
    | some st => s.pairMove s.pair.st st
    | none => s
  let s := s.tellPeer
  s.setPair fun p => { p with recordDone := false, ingress := if s.isStandby then 0 else p.ingress }

/-! ### The seam -/

/-- The tick boundary: the PTP time and the count of ticks advance, and inputs of the ended tick become visible (R29). A sequencer that
was started in the ended tick (`fresh`) begins its tick 0 (R60). -/
def State.boundary (s : State) (fresh : Bool) : State :=
  let s := s.ptpSeam
  let s := if s.itn.running && !fresh then { s with itn := { s.itn with tick := s.itn.tick + 1 } } else s
  { s with now := s.now + 1, rdm := { s.rdm with xfers := [] } }

/-- The hand-off phase of Table 2-1, while no join holds. -/
def State.handOffPhase (s : State) : State := if s.joinHold then s else s.handOff

/-- The latch phase: performance counters latch, and the digest of the tick closes, but for a standby that has the record of its tick. -/
def State.latchPhase (s : State) : State := (if s.joinHold then s else s.idleSlots.dumpLatch).ctrSnap
def State.digestPhase (s : State) : Nat × State := if s.pair.recordDone && s.isStandby then (0, s) else s.digestClose

/-- The change phase, with the pair's part of the seam. While a join holds, it applies nothing but bay power (15 R465). -/
def State.changePhase (s : State) (hold : Bool) (digest : Nat) : State :=
  let s := if s.straps.pairEn then s.pairDecide else s
  let s := if hold then s.powerSeam else s.changes
  if s.straps.pairEn then s.pairSeam digest else s

/-- The tick boundary, and the load of the next tick's slot entries and lane reservations. -/
def State.boundaryPhase (s : State) (fresh : Bool) : State :=
  let s := s.drainEvents.boundary fresh
  let s := s.loadTick s.itn.tick
  let s := if s.joinHold then s else s.rdmTick
  s.presentEarly

/-- The seam that ends the tick, phase by phase (Table 2-1). While a join holds, hand-off and change phase apply nothing but bay power (15
R465). -/
def State.seam (s : State) : State :=
  if s.crs.dead then { s with now := s.now + 1 }
  else
    let t := s.handOffPhase.latchPhase.digestPhase
    (t.2.memoryPhase.changePhase s.joinHold t.1).boundaryPhase s.itn.starting

/-- SEAM. -/
def execSeam (s : State) : Host.Outcome State Fault Refusal := .next s.seam

end Sys2Proof.Machine
end

