-- ==== Sys2Proof/Machine/Dispatch.lean ====
section
/-!
DEFINITION. The dispatch of a command to its meaning: one arm per constructor of Instr.
-/

namespace Sys2Proof.Machine

open Sys2Proof

def exec (i : Instr) (s : State) : Host.Outcome State Fault Refusal :=
  match i with
  | .seam => Sys2Proof.Machine.execSeam s
  | .memoryLaneComplete => Sys2Proof.Machine.execMemoryLaneComplete s
  | .cipherRequestComplete k => Sys2Proof.Machine.execCipherRequestComplete k s
  | .parityRequestComplete k => Sys2Proof.Machine.execParityRequestComplete k s
  | .rxParse k c => Sys2Proof.Machine.execRxParse k c s
  | .cmdAdmit k c => Sys2Proof.Machine.execCmdAdmit k c s
  | .lockCheck k c => Sys2Proof.Machine.execLockCheck k c s
  | .mapXlate k c => Sys2Proof.Machine.execMapXlate k c s
  | .cacheProbe k c => Sys2Proof.Machine.execCacheProbe k c s
  | .drvSubmit k c => Sys2Proof.Machine.execDrvSubmit k c s
  | .drvReap k c => Sys2Proof.Machine.execDrvReap k c s
  | .piCheck k c => Sys2Proof.Machine.execPiCheck k c s
  | .xferArm k c => Sys2Proof.Machine.execXferArm k c s
  | .cplRetire k c => Sys2Proof.Machine.execCplRetire k c s
  | .cacheFill k c => Sys2Proof.Machine.execCacheFill k c s
  | .destageStep k c => Sys2Proof.Machine.execDestageStep k c s
  | .parityPlan k c => Sys2Proof.Machine.execParityPlan k c s
  | .journalPut k c => Sys2Proof.Machine.execJournalPut k c s
  | .journalRetire k c => Sys2Proof.Machine.execJournalRetire k c s
  | .rebuildStep k c => Sys2Proof.Machine.execRebuildStep k c s
  | .scrubStep k c => Sys2Proof.Machine.execScrubStep k c s
  | .resyncStep k c => Sys2Proof.Machine.execResyncStep k c s
  | .metaFlush k c => Sys2Proof.Machine.execMetaFlush k c s
  | .selftestStep k c => Sys2Proof.Machine.execSelftestStep k c s
  | .adminStep k c => Sys2Proof.Machine.execAdminStep k c s
  | .abortScan k c => Sys2Proof.Machine.execAbortScan k c s
  | .dumpStep k => Sys2Proof.Machine.execDumpStep k s
  | .suspendResp k c => Sys2Proof.Machine.execSuspendResp k c s
  | .itnCtlLoad w => Sys2Proof.Machine.execItnCtlLoad w s
  | .itnCtlSwap w => Sys2Proof.Machine.execItnCtlSwap w s
  | .itnCtlStart w => Sys2Proof.Machine.execItnCtlStart w s
  | .imageCopyComplete b ok bytes => Sys2Proof.Machine.execImageCopyComplete b ok bytes s
  | .itnSwapped => Sys2Proof.Machine.execItnSwapped s
  | .clusterFault k cause engine unit => Sys2Proof.Machine.execClusterFault k cause engine unit s
  | .channelReturnHome c => Sys2Proof.Machine.execChannelReturnHome c s
  | .dumpEntry => Sys2Proof.Machine.execDumpEntry s
  | .registerWrite off size w abandoned => Sys2Proof.Machine.execRegisterWrite off size w abandoned s
  | .registerReadClear off => Sys2Proof.Machine.execRegisterReadClear off s
  | .counterLowRead off => Sys2Proof.Machine.execCounterLowRead off s
  | .ringCtlEnable k w => Sys2Proof.Machine.execRingCtlEnable k w s
  | .ringCtlDisable k w => Sys2Proof.Machine.execRingCtlDisable k w s
  | .ringEvtCtlEnable w => Sys2Proof.Machine.execRingEvtCtlEnable w s
  | .ringEvtCtlDisable w => Sys2Proof.Machine.execRingEvtCtlDisable w s
  | .ringDisableDrained k => Sys2Proof.Machine.execRingDisableDrained k s
  | .commandDoorbell k v => Sys2Proof.Machine.execCommandDoorbell k v s
  | .completionDoorbell k v => Sys2Proof.Machine.execCompletionDoorbell k v s
  | .eventDoorbell v => Sys2Proof.Machine.execEventDoorbell v s
  | .descriptorFetch k bytes => Sys2Proof.Machine.execDescriptorFetch k bytes s
  | .ringDmaErr k addr => Sys2Proof.Machine.execRingDmaErr k addr s
  | .mgtBusyRetry => Sys2Proof.Machine.execMgtBusyRetry s
  | .msixCoalesceTimeout k => Sys2Proof.Machine.execMsixCoalesceTimeout k s
  | .endpointReset kind ref => Sys2Proof.Machine.execEndpointReset kind ref s
  | .nop k bytes => Sys2Proof.Machine.execNop k bytes s
  | .ringCreate => Sys2Proof.Machine.execRingCreate s
  | .ringDelete => Sys2Proof.Machine.execRingDelete s
  | .imgLoad => Sys2Proof.Machine.execImgLoad s
  | .imgSwap => Sys2Proof.Machine.execImgSwap s
  | .variantExit => Sys2Proof.Machine.execVariantExit s
  | .hostAdd ok nqn => Sys2Proof.Machine.execHostAdd ok nqn s
  | .hostRemove => Sys2Proof.Machine.execHostRemove s
  | .chanCreate => Sys2Proof.Machine.execChanCreate s
  | .chanModify => Sys2Proof.Machine.execChanModify s
  | .chanDestroy => Sys2Proof.Machine.execChanDestroy s
  | .channelFree c => Sys2Proof.Machine.execChannelFree c s
  | .chanQuery => Sys2Proof.Machine.execChanQuery s
  | .chanList ok => Sys2Proof.Machine.execChanList ok s
  | .keyLoad ok blob => Sys2Proof.Machine.execKeyLoad ok blob s
  | .keyDestroy => Sys2Proof.Machine.execKeyDestroy s
  | .poolCreate ok list => Sys2Proof.Machine.execPoolCreate ok list s
  | .poolDestroy => Sys2Proof.Machine.execPoolDestroy s
  | .poolMemberAdd => Sys2Proof.Machine.execPoolMemberAdd s
  | .poolMemberRemove => Sys2Proof.Machine.execPoolMemberRemove s
  | .volCreate => Sys2Proof.Machine.execVolCreate s
  | .volDelete => Sys2Proof.Machine.execVolDelete s
  | .volResize => Sys2Proof.Machine.execVolResize s
  | .maintStart => Sys2Proof.Machine.execMaintStart s
  | .maintStop => Sys2Proof.Machine.execMaintStop s
  | .bayPower => Sys2Proof.Machine.execBayPower s
  | .envSet => Sys2Proof.Machine.execEnvSet s
  | .pairJoin => Sys2Proof.Machine.execPairJoin s
  | .pairTakeover => Sys2Proof.Machine.execPairTakeover s
  | .pairRehearse peer => Sys2Proof.Machine.execPairRehearse peer s
  | .fwStage ok pkg failed => Sys2Proof.Machine.execFwStage ok pkg failed s
  | .fwActivate unread => Sys2Proof.Machine.execFwActivate unread s
  | .telConfig => Sys2Proof.Machine.execTelConfig s
  | .logRead ok => Sys2Proof.Machine.execLogRead ok s
  | .netAddrSet => Sys2Proof.Machine.execNetAddrSet s
  | .qpDestroy => Sys2Proof.Machine.execQpDestroy s
  | .macCtlEnable p w => Sys2Proof.Machine.execMacCtlEnable p w s
  | .macCtlDisable p w => Sys2Proof.Machine.execMacCtlDisable p w s
  | .macCtlReset p w => Sys2Proof.Machine.execMacCtlReset p w s
  | .serdesCalibrationDone m pass => Sys2Proof.Machine.execSerdesCalibrationDone m pass s
  | .autonegComplete m => Sys2Proof.Machine.execAutonegComplete m s
  | .autonegRestart m => Sys2Proof.Machine.execAutonegRestart m s
  | .linkTrainingComplete m => Sys2Proof.Machine.execLinkTrainingComplete m s
  | .linkTrainingAbandon m => Sys2Proof.Machine.execLinkTrainingAbandon m s
  | .pcsFecLock m => Sys2Proof.Machine.execPcsFecLock m s
  | .upHoldExpire m => Sys2Proof.Machine.execUpHoldExpire m s
  | .lockLoss m => Sys2Proof.Machine.execLockLoss m s
  | .downHoldExpire m => Sys2Proof.Machine.execDownHoldExpire m s
  | .frameHeaderLookup m bytes cycle => Sys2Proof.Machine.execFrameHeaderLookup m bytes cycle s
  | .frameTail m rest bad cycle => Sys2Proof.Machine.execFrameTail m rest bad cycle s
  | .pfcFrameReceive m vec quanta => Sys2Proof.Machine.execPfcFrameReceive m vec quanta s
  | .pfcPauseExpire m pr => Sys2Proof.Machine.execPfcPauseExpire m pr s
  | .pfcXoffRepeat m pr => Sys2Proof.Machine.execPfcXoffRepeat m pr s
  | .fecWindowEnd m corr uncorr => Sys2Proof.Machine.execFecWindowEnd m corr uncorr s
  | .portLost p cause ref => Sys2Proof.Machine.execPortLost p cause ref s
  | .managementFrame => Sys2Proof.Machine.execManagementFrame s
  | .ptpSourceLoss => Sys2Proof.Machine.execPtpSourceLoss s
  | .pllTrimUpdate => Sys2Proof.Machine.execPllTrimUpdate s
  | .macPtpSeamNsRead => Sys2Proof.Machine.execMacPtpSeamNsRead s
  | .frameDepart m cycle => Sys2Proof.Machine.execFrameDepart m cycle s
  | .egressSelect m => Sys2Proof.Machine.execEgressSelect m s
  | .macAgeOut vlan mac => Sys2Proof.Machine.execMacAgeOut vlan mac s
  | .seraiEccError area index corrected hit => Sys2Proof.Machine.execSeraiEccError area index corrected hit s
  | .cmReq r => Sys2Proof.Machine.execCmReq r s
  | .repResend q => Sys2Proof.Machine.execRepResend q s
  | .cmRtu q => Sys2Proof.Machine.execCmRtu q s
  | .cmDreq q => Sys2Proof.Machine.execCmDreq q s
  | .cmDrep q => Sys2Proof.Machine.execCmDrep q s
  | .dreqResend q => Sys2Proof.Machine.execDreqResend q s
  | .qpDrained q => Sys2Proof.Machine.execQpDrained q s
  | .drainTimeout q => Sys2Proof.Machine.execDrainTimeout q s
  | .qpErrCleared q => Sys2Proof.Machine.execQpErrCleared q s
  | .timewaitExpire q => Sys2Proof.Machine.execTimewaitExpire q s
  | .rocePacketReceive => Sys2Proof.Machine.execRocePacketReceive s
  | .ackReceive => Sys2Proof.Machine.execAckReceive s
  | .nakReceive => Sys2Proof.Machine.execNakReceive s
  | .readResponseReceive => Sys2Proof.Machine.execReadResponseReceive s
  | .cnpReceive => Sys2Proof.Machine.execCnpReceive s
  | .ackTimeout q => Sys2Proof.Machine.execAckTimeout q s
  | .rnrResume q => Sys2Proof.Machine.execRnrResume q s
  | .contextFetchComplete q => Sys2Proof.Machine.execContextFetchComplete q s
  | .egressFetchRelease q cycle => Sys2Proof.Machine.execEgressFetchRelease q cycle s
  | .timerFetchComplete q => Sys2Proof.Machine.execTimerFetchComplete q s
  | .transmissionRelease q cycle => Sys2Proof.Machine.execTransmissionRelease q cycle s
  | .rdmQpSelWrite w => Sys2Proof.Machine.execRdmQpSelWrite w s
  | .tmgChanSelWrite w => Sys2Proof.Machine.execTmgChanSelWrite w s
  | .layVolSelWrite w => Sys2Proof.Machine.execLayVolSelWrite w s
  | .cipKeySelWrite w => Sys2Proof.Machine.execCipKeySelWrite w s
  | .keepAliveExpire k => Sys2Proof.Machine.execKeepAliveExpire k s
  | .controllerShutdownComplete k => Sys2Proof.Machine.execControllerShutdownComplete k s
  | .controllerDisableComplete k => Sys2Proof.Machine.execControllerDisableComplete k s
  | .poolImport im => Sys2Proof.Machine.execPoolImport im s
  | .maintActivityStart p => Sys2Proof.Machine.execMaintActivityStart p s
  | .maintPreempted p => Sys2Proof.Machine.execMaintPreempted p s
  | .scrubRepeat p => Sys2Proof.Machine.execScrubRepeat p s
  | .maintLoadUpdate => Sys2Proof.Machine.execMaintLoadUpdate s
  | .hbmStackLost n cause => Sys2Proof.Machine.execHbmStackLost n cause s
  | .hbmUncorrectable n r => Sys2Proof.Machine.execHbmUncorrectable n r s
  | .cipherAlarm code k => Sys2Proof.Machine.execCipherAlarm code k s
  | .rngRetest pass => Sys2Proof.Machine.execRngRetest pass s
  | .cipAlarmClear w present => Sys2Proof.Machine.execCipAlarmClear w present s
  | .zeroiseMarker code => Sys2Proof.Machine.execZeroiseMarker code s
  | .chkSwStart n w => Sys2Proof.Machine.execChkSwStart n w s
  | .chkSwDone n ok data => Sys2Proof.Machine.execChkSwDone n ok data s
  | .bayLinkUp b rate width flit => Sys2Proof.Machine.execBayLinkUp b rate width flit s
  | .linkRateChange b rate width => Sys2Proof.Machine.execLinkRateChange b rate width s
  | .bayTrainingFail b => Sys2Proof.Machine.execBayTrainingFail b s
  | .perstRetryRelease b => Sys2Proof.Machine.execPerstRetryRelease b s
  | .bayConfigComplete b capTo => Sys2Proof.Machine.execBayConfigComplete b capTo s
  | .bayControllerReady b => Sys2Proof.Machine.execBayControllerReady b s
  | .bayInitComplete b r => Sys2Proof.Machine.execBayInitComplete b r s
  | .bringupStepTimeout b => Sys2Proof.Machine.execBringupStepTimeout b s
  | .containmentTrigger b cause ref => Sys2Proof.Machine.execContainmentTrigger b cause ref s
  | .containmentRelease b => Sys2Proof.Machine.execContainmentRelease b s
  | .recoverTimeout b => Sys2Proof.Machine.execRecoverTimeout b s
  | .driveCompletion b q cid phase sct sc crd dnr => Sys2Proof.Machine.execDriveCompletion b q cid phase sct sc crd dnr s
  | .driveCommandTimeout t => Sys2Proof.Machine.execDriveCommandTimeout t s
  | .driveAbortTimeout t => Sys2Proof.Machine.execDriveAbortTimeout t s
  | .driveDmaAccess b addr write data len => Sys2Proof.Machine.execDriveDmaAccess b addr write data len s
  | .writeRetryPermitted p => Sys2Proof.Machine.execWriteRetryPermitted p s
  | .smartPoll b warning temp => Sys2Proof.Machine.execSmartPoll b warning temp s
  | .bayEvaluation vbus hold bays => Sys2Proof.Machine.execBayEvaluation vbus hold bays s
  | .inrushTimeout b => Sys2Proof.Machine.execInrushTimeout b s
  | .presenceConfirm b => Sys2Proof.Machine.execPresenceConfirm b s
  | .retryDelayExpire b => Sys2Proof.Machine.execRetryDelayExpire b s
  | .retryCountReset b => Sys2Proof.Machine.execRetryCountReset b s
  | .bayCycleOffExpire b => Sys2Proof.Machine.execBayCycleOffExpire b s
  | .fanLoopStep x => Sys2Proof.Machine.execFanLoopStep x s
  | .fanFail f => Sys2Proof.Machine.execFanFail f s
  | .fanRestore f => Sys2Proof.Machine.execFanRestore f s
  | .criticalTempShutdown => Sys2Proof.Machine.execCriticalTempShutdown s
  | .pwmLoopStall => Sys2Proof.Machine.execPwmLoopStall s
  | .chargerTimeout => Sys2Proof.Machine.execChargerTimeout s
  | .holdFaultClear w => Sys2Proof.Machine.execHoldFaultClear w s
  | .powerFailLatch => Sys2Proof.Machine.execPowerFailLatch s
  | .dumpWriteComplete => Sys2Proof.Machine.execDumpWriteComplete s
  | .dumpComplete => Sys2Proof.Machine.execDumpComplete s
  | .restoreReset => Sys2Proof.Machine.execRestoreReset s
  | .pairBundleLockChange k rx lock ref => Sys2Proof.Machine.execPairBundleLockChange k rx lock ref s
  | .bundleRejoin k => Sys2Proof.Machine.execBundleRejoin k s
  | .keyxReceive bytes => Sys2Proof.Machine.execKeyxReceive bytes s
  | .linkRekey => Sys2Proof.Machine.execLinkRekey s
  | .ingressFrameReceive bytes => Sys2Proof.Machine.execIngressFrameReceive bytes s
  | .recordApply frames => Sys2Proof.Machine.execRecordApply frames s
  | .statusFrameReceive bytes cycle => Sys2Proof.Machine.execStatusFrameReceive bytes cycle s
  | .mgtFrameReceive bytes failed unread => Sys2Proof.Machine.execMgtFrameReceive bytes failed unread s
  | .joinFrameReceive bytes => Sys2Proof.Machine.execJoinFrameReceive bytes s
  | .resendFrameReceive bytes => Sys2Proof.Machine.execResendFrameReceive bytes s
  | .recordMissing => Sys2Proof.Machine.execRecordMissing s
  | .lossWaitExpire => Sys2Proof.Machine.execLossWaitExpire s
  | .standbyLost => Sys2Proof.Machine.execStandbyLost s
  | .roleClaimTimeout => Sys2Proof.Machine.execRoleClaimTimeout s
  | .peerClaimSensed => Sys2Proof.Machine.execPeerClaimSensed s
  | .lockstepOffsetLoss => Sys2Proof.Machine.execLockstepOffsetLoss s
  | .releaseConfirmed => Sys2Proof.Machine.execReleaseConfirmed s
  | .addressAnnounceRepeat => Sys2Proof.Machine.execAddressAnnounceRepeat s
  | .reservationPreemptComplete b => Sys2Proof.Machine.execReservationPreemptComplete b s
  | .joinPrecopyEnd residue passes => Sys2Proof.Machine.execJoinPrecopyEnd residue passes s
  | .joinHoldEnd => Sys2Proof.Machine.execJoinHoldEnd s
  | .joinHoldTimeout => Sys2Proof.Machine.execJoinHoldTimeout s
  | .rehearsalEnd result n => Sys2Proof.Machine.execRehearsalEnd result n s
  | .mgtWatchdogReset cause sram unread => Sys2Proof.Machine.execMgtWatchdogReset cause sram unread s
  | .core3WatchdogReset cause => Sys2Proof.Machine.execCore3WatchdogReset cause s
  | .boot unread => Sys2Proof.Machine.execBoot unread s
  | .recoveryGo w ok pkg => Sys2Proof.Machine.execRecoveryGo w ok pkg s
  | .itkCommit w => Sys2Proof.Machine.execItkCommit w s
  | .itkClear w => Sys2Proof.Machine.execItkClear w s
  | .mgtMeasSelWrite w => Sys2Proof.Machine.execMgtMeasSelWrite w s
  | .spdmRequest smb good size m => Sys2Proof.Machine.execSpdmRequest smb good size m s
  | .spdmHeartbeatTimeout session => Sys2Proof.Machine.execSpdmHeartbeatTimeout session s
  | .pldmRequest smb good size m => Sys2Proof.Machine.execPldmRequest smb good size m s
  | .powerOnReset pairEn pairSlot chSris => Sys2Proof.Machine.execPowerOnReset pairEn pairSlot chSris s
  | .externalReset => Sys2Proof.Machine.execExternalReset s
  | .crsChipResetGo w => Sys2Proof.Machine.execCrsChipResetGo w s
  | .coreClockLoss => Sys2Proof.Machine.execCoreClockLoss s
  | .coreSupplyLoss sup => Sys2Proof.Machine.execCoreSupplyLoss sup s
  | .fatalError src => Sys2Proof.Machine.execFatalError src s
  | .mgtPllLoss => Sys2Proof.Machine.execMgtPllLoss s
  | .mgtPllRelock => Sys2Proof.Machine.execMgtPllRelock s
  | .auxPllLoss => Sys2Proof.Machine.execAuxPllLoss s
  | .auxPllReturn => Sys2Proof.Machine.execAuxPllReturn s
  | .hbmTrainingDone fail => Sys2Proof.Machine.execHbmTrainingDone fail s
  | .clusterResetRelease k => Sys2Proof.Machine.execClusterResetRelease k s
  | .clusterCheckDone k step => Sys2Proof.Machine.execClusterCheckDone k step s
  | .clusterCheckTimeout k step => Sys2Proof.Machine.execClusterCheckTimeout k step s
  | .crsCluCtlRetest k w => Sys2Proof.Machine.execCrsCluCtlRetest k w s
  | .telemetryDumpLatch => Sys2Proof.Machine.execTelemetryDumpLatch s
  | .telDumpCopyDone ok => Sys2Proof.Machine.execTelDumpCopyDone ok s
  | .telCtrSelWrite w => Sys2Proof.Machine.execTelCtrSelWrite w s
  | .errorLogWrite => Sys2Proof.Machine.execErrorLogWrite s
  | .glbLockSet w => Sys2Proof.Machine.execGlbLockSet w s
  | .bayPerstRelease b => Sys2Proof.Machine.execBayPerstRelease b s
  | .firstConfigRequest b => Sys2Proof.Machine.execFirstConfigRequest b s
  | .mctpControlRequest smb good size m => Sys2Proof.Machine.execMctpControlRequest smb good size m s
  | .referenceClockReturn dom n => Sys2Proof.Machine.execReferenceClockReturn dom n s
  | .alwaysOnSupplyLoss => Sys2Proof.Machine.execAlwaysOnSupplyLoss s
  | .inputPowerReturn => Sys2Proof.Machine.execInputPowerReturn s
  | .claimHoldExpire => Sys2Proof.Machine.execClaimHoldExpire s
  | .tickBoundaryMark offset latency => Sys2Proof.Machine.execTickBoundaryMark offset latency s
  | .abandonedRegisterRead off => Sys2Proof.Machine.execAbandonedRegisterRead off s

end Sys2Proof.Machine
end

