-- ==== Sys2Proof/Laws/Tab.lean ====
section
/-!
SUPPORT. What the operations on sparse tables do: reading back, leaving other keys alone, and keeping the canonical form.
-/

namespace Sys2Proof.Machine

open Sys2Proof

variable {α : Type} {d : Nat → α} {t : List (Nat × α)} {k j lo : Nat} {v : α}

theorem Tab.above_mono (h : lo ≤ j) : Tab.above j t = true → Tab.above lo t = true := by
  cases t with
  | nil => simp [Tab.above]
  | cons e t =>
    simp only [Tab.above, Bool.and_eq_true, decide_eq_true_eq]
    exact fun hx => ⟨Nat.lt_of_le_of_lt h hx.1, hx.2⟩

/-- A key at or below `lo` is not listed. -/
theorem Tab.rd_of_above (h : Tab.above lo t = true) (hk : k ≤ lo) : Tab.rd d t k = d k := by
  induction t generalizing lo with
  | nil => rfl
  | cons e t ih =>
    simp only [Tab.above, Bool.and_eq_true, decide_eq_true_eq] at h
    have : k ≠ e.1 := by omega
    simp [Tab.rd, this, ih h.2 (by omega)]

theorem Tab.above_of_rising {e : Nat × α} (h : Tab.rising (e :: t) = true) : Tab.above e.1 t = true := h

theorem Tab.rising_tail {e : Nat × α} (h : Tab.rising (e :: t) = true) : Tab.rising t = true := by
  cases t with
  | nil => rfl
  | cons f t => simp only [Tab.rising, Tab.above, Bool.and_eq_true] at h ⊢; exact h.2

variable [DecidableEq α]

/-- Another key reads as before. -/
@[simp] theorem Tab.rd_wr_ne (h : j ≠ k) : Tab.rd d (Tab.wr d t k v) j = Tab.rd d t j := by
  induction t with
  | nil => by_cases hv : v = d k <;> simp [Tab.wr, hv, Tab.rd, h]
  | cons e t ih =>
    simp only [Tab.wr]
    split
    · split <;> simp [Tab.rd, h]
    · split
      · rename_i hk
        subst hk
        split <;> simp [Tab.rd, h]
      · by_cases hj : j = e.1 <;> simp [Tab.rd, hj, ih]

/-- The key written reads as the value written. -/
theorem Tab.rd_wr_same (h : Tab.rising t = true) : Tab.rd d (Tab.wr d t k v) k = v := by
  induction t with
  | nil => by_cases hv : v = d k <;> simp [Tab.wr, hv, Tab.rd]
  | cons e t ih =>
    have ha := Tab.above_of_rising h
    simp only [Tab.wr]
    split
    · rename_i hk
      have hne : k ≠ e.1 := by omega
      split
      · rename_i hv; simp [Tab.rd, hne, Tab.rd_of_above ha (k := k) (by omega), hv]
      · simp [Tab.rd]
    · split
      · rename_i hk
        split
        · rename_i hv; rw [Tab.rd_of_above ha (by omega), hv]
        · simp [Tab.rd]
      · rename_i hk; simp [Tab.rd, hk, ih (Tab.rising_tail h)]

/-- A write of a key above `lo` keeps every key above `lo`. -/
theorem Tab.above_wr (h : Tab.above lo t = true) (hk : lo < k) : Tab.above lo (Tab.wr d t k v) = true := by
  induction t generalizing lo with
  | nil => by_cases hv : v = d k <;> simp [Tab.wr, hv, Tab.above, hk]
  | cons e t ih =>
    simp only [Tab.above, Bool.and_eq_true, decide_eq_true_eq] at h
    simp only [Tab.wr]
    split
    · split
      · simp [Tab.above, h]
      · simp only [Tab.above, Bool.and_eq_true, decide_eq_true_eq]; exact ⟨hk, by omega, h.2⟩
    · split
      · split
        · exact Tab.above_mono (Nat.le_of_lt (by omega)) h.2
        · rename_i hke _; simp only [Tab.above, Bool.and_eq_true, decide_eq_true_eq]; exact ⟨hk, hke ▸ h.2⟩
      · simp only [Tab.above, Bool.and_eq_true, decide_eq_true_eq]; exact ⟨h.1, ih h.2 (by omega)⟩

theorem Tab.rising_wr (h : Tab.rising t = true) : Tab.rising (Tab.wr d t k v) = true := by
  cases t with
  | nil => by_cases hv : v = d k <;> simp [Tab.wr, hv, Tab.rising, Tab.above]
  | cons e t =>
    have ha := Tab.above_of_rising h
    simp only [Tab.wr]
    split
    · split
      · exact h
      · rename_i hk _; simp only [Tab.rising, Tab.above, Bool.and_eq_true, decide_eq_true_eq]; exact ⟨hk, ha⟩
    · split
      · split
        · exact Tab.rising_tail h
        · rename_i hk _; exact hk ▸ ha
      · exact Tab.above_wr ha (by omega)

theorem Tab.tight_wr (h : Tab.tight d t = true) : Tab.tight d (Tab.wr d t k v) = true := by
  induction t with
  | nil => by_cases hv : v = d k <;> simp [Tab.wr, hv, Tab.tight]
  | cons e t ih =>
    simp only [Tab.tight, List.all_cons, Bool.and_eq_true, decide_eq_true_eq] at h ih ⊢
    simp only [Tab.wr]
    split
    · split <;> simp_all
    · split
      · split <;> simp_all
      · simp_all

/-- A write keeps the canonical form. -/
theorem Tab.wf_wr (h : Tab.wf d t = true) : Tab.wf d (Tab.wr d t k v) = true := by
  simp only [Tab.wf, Bool.and_eq_true] at h ⊢
  exact ⟨Tab.rising_wr h.1, Tab.tight_wr h.2⟩

omit [DecidableEq α] in
theorem Tab.above_filter (p : Nat × α → Bool) (h : Tab.above lo t = true) : Tab.above lo (t.filter p) = true := by
  induction t generalizing lo with
  | nil => rfl
  | cons e t ih =>
    simp only [Tab.above, Bool.and_eq_true, decide_eq_true_eq] at h
    by_cases hp : p e = true
    · simp only [List.filter_cons, hp, if_true, Tab.above, Bool.and_eq_true, decide_eq_true_eq]; exact ⟨h.1, ih h.2⟩
    · simp only [List.filter_cons, hp]; exact ih (Tab.above_mono (Nat.le_of_lt h.1) h.2)

/-- Leaving out entries keeps the canonical form. -/
theorem Tab.wf_filter (p : Nat × α → Bool) (h : Tab.wf d t = true) : Tab.wf d (t.filter p) = true := by
  simp only [Tab.wf, Bool.and_eq_true] at h ⊢
  refine ⟨?_, List.all_eq_true.mpr fun e he => List.all_eq_true.mp h.2 e ((List.mem_filter.mp he).1)⟩
  have hr := h.1
  clear h
  induction t with
  | nil => rfl
  | cons e t ih =>
    by_cases hp : p e = true
    · simp only [List.filter_cons, hp, if_true]; exact Tab.above_filter p (Tab.above_of_rising hr)
    · simp only [List.filter_cons, hp]; exact ih (Tab.rising_tail hr)

theorem Tab.rising_of_wf (h : Tab.wf d t = true) : Tab.rising t = true := (Bool.and_eq_true _ _ ▸ h).1

/-- Two canonical tables that read alike are equal. -/
theorem Tab.ext_of_wf {u : List (Nat × α)} (ht : Tab.wf d t = true) (hu : Tab.wf d u = true) (h : ∀ k, Tab.rd d t k = Tab.rd d u k) :
    t = u := by
  have tight : ∀ {e : Nat × α} {x : List (Nat × α)}, Tab.wf d (e :: x) = true → e.2 ≠ d e.1 ∧ Tab.above e.1 x = true ∧ Tab.wf d x = true := by
    intro e x hx
    simp only [Tab.wf, Tab.tight, Bool.and_eq_true, List.all_cons, decide_eq_true_eq] at hx ⊢
    exact ⟨hx.2.1, hx.1, Tab.rising_tail hx.1, hx.2.2⟩
  induction t generalizing u with
  | nil =>
    cases u with
    | nil => rfl
    | cons f u => have := h f.1; simp only [Tab.rd, if_true] at this; exact absurd this.symm (tight hu).1
  | cons e t ih =>
    cases u with
    | nil => have := h e.1; simp only [Tab.rd, if_true] at this; exact absurd this (tight ht).1
    | cons f u =>
      obtain ⟨h1, h2, h3⟩ := tight ht
      obtain ⟨g1, g2, g3⟩ := tight hu
      have he := h e.1
      have hf := h f.1
      have hkey : e.1 = f.1 := by
        rcases Nat.lt_trichotomy e.1 f.1 with hlt | heq | hgt
        · simp only [Tab.rd, if_true, Nat.ne_of_lt hlt, if_false, Tab.rd_of_above g2 (Nat.le_of_lt hlt)] at he; exact absurd he h1
        · exact heq
        · simp only [Tab.rd, if_true, Nat.ne_of_lt hgt, if_false, Tab.rd_of_above h2 (Nat.le_of_lt hgt)] at hf; exact absurd hf.symm g1
      have hval : e.2 = f.2 := by simpa [Tab.rd, hkey] using he
      have hrest : t = u := ih h3 g3 fun k => by
        by_cases hk : k ≤ e.1
        · rw [Tab.rd_of_above h2 hk, Tab.rd_of_above g2 (hkey ▸ hk)]
        · have := h k; simpa [Tab.rd, show k ≠ e.1 by omega, show k ≠ f.1 by omega] using this
      rw [hrest]; exact congrArg (· :: u) (Prod.ext hkey hval)

end Sys2Proof.Machine
end

