-- ==== Sys2Proof/Safety.lean ====
section
/-!
DEFINITION. What a safe run of the block is, and the invariant that every step keeps.
-/

namespace Sys2Proof.Machine

open Sys2Proof

/-- What every state that the block reaches satisfies: the register file is in canonical form (each offset once, none at its reset value);
at most 65,536 events wait (03 R89); the event history holds at most 262,144 entries (18 R532) and the schedule log at most 1,024 records
(16 R485). -/
structure State.Inv (s : State) : Prop where
  regs : Tab.wf regReset s.regs = true
  backlog : s.hst.backlog.length ≤ backlogMax
  history : s.tel.hist.length ≤ historyMax
  schedule : s.mgt.schedLog.length ≤ 1024

/-- A run is safe when each of its steps answers a next state: no command stops the block. -/
def Safe (s : State) : Nat → Prop
  | 0 => True
  | n + 1 => ∃ t, step s = .next t ∧ Safe t n

/-- Management firmware takes descriptor `d` next, for the ring command `op`: firmware runs, no join holds the ring work (15 R465), `d` is the
descriptor that comes next (03 R91, R95), and this controller is no standby or accepts `op` as one (03 R94). -/
structure State.Takes (s : State) (op : Nat) (d : Desc) : Prop where
  firmware : s.fwRuns = true
  noHold : s.joinHold = false
  next : s.nextDesc = some d
  code : d.opcode = op
  role : s.isStandby = false ∨ standbyOpcodes.contains op = true

/-- A run of class `c` on cluster `k` takes an item for routine `code` (02 R30 to R32): the item is then `it`, and the state `u`. -/
def State.Enters (s : State) (k : Fin 12) (c : Fin 256) (code : Nat) (u : State) (it : Item) : Prop :=
  ∃ r x, s.nextRun k.val c.val code = some (r, x) ∧ it = s.begun r x ∧ u = s.enter r x

/-- A run of class `c` on cluster `k` takes item `it` of waybill `w` for routine `code`, which leaves the state `u`, and the waybill's command is
neither at its end nor to be cut short (08 R241, R250). -/
structure State.RunsWb (s : State) (k : Fin 12) (c : Fin 256) (code : Nat) (u : State) (it : Item) (w : Nat) : Prop where
  enters : s.Enters k c code u it
  ref : it.ref = .wb w
  live : (u.wb w).st ≠ .free
  kept : (u.wb w).st ≠ .abandoned
  whole : (u.wb w).cut = false

/-- A run of class `c` on cluster `k` takes item `it` of pool work `w` for routine `code`, which leaves the state `u`. -/
structure State.RunsWork (s : State) (k : Fin 12) (c : Fin 256) (code : Nat) (u : State) (it : Item) (w : Work) : Prop where
  enters : s.Enters k c code u it
  ref : it.ref = .work w.id
  item : u.work? w.id = some w

/-- A run of class `c` on cluster `k` has no item ready for routine `code`, and run `r` can start new work with it for pool `p` (02 R30 to R32). -/
structure State.Opens (s : State) (k : Fin 12) (c : Fin 256) (code : Nat) (r : SlotRun) (p : Nat) : Prop where
  idle : s.nextRun k c code = none
  run : s.openRun k c code = some r
  pool : s.classPool c = some p

/-- Frame `f` is the first that waits for the transport, and no join holds; taking it leaves `u`. -/
structure State.FirstFrame (s u : State) (f : Frame) : Prop where
  free : s.joinHold = false
  head : s.net.toRdma.head? = some f
  taken : u = { s with net := { s.net with toRdma := s.net.toRdma.tail } }

/-- The first frame passes checks 1 to 4 of 05 Table 5-7 for QP `q`, whose context is resident and parks nothing. -/
structure State.Reaches (s u : State) (f : Frame) (q : Nat) : Prop where
  first : s.FirstFrame u f
  sound : f.bad = false
  icrc : icrcOk f.bytes = true
  tver : (parseBth f.bytes).tver = 0
  pkey : (parseBth f.bytes).pkey = 0xFFFF ∨ (parseBth f.bytes).pkey = 0x7FFF
  data : (parseBth f.bytes).qpn ≠ 1
  qp : u.qpOf (parseBth f.bytes).qpn = some q
  receives : (u.qp q).st.receives = true
  atOnce : u.parks q = false

/-- The frame then passes checks 5 and 6 of Table 5-7 and is handled by its opcode. -/
structure State.Handles (s u : State) (f : Frame) (q : Nat) : Prop extends s.Reaches u f q where
  addr : (parseHdr f.bytes).srcIp = (u.qp q).rip
  vlan : (parseHdr f.bytes).vlan = (u.qp q).vlan
  live : (u.qp q).st ≠ .err

/-- The registers that telling the control host changes: the indices of rings, the count of lost events, and the pending bits of interrupts. -/
def tellOff (off : Nat) : Bool :=
  decide (0x00400020 ≤ off ∧ off < 0x00401000 ∧ (off - 0x00400020) % 0x40 = 0) || off == Reg.RING_EVT_IDX || off == Reg.RING_EVT_LOST
    || decide (0x00448000 ≤ off ∧ off < 0x00448100)

/-- `t` differs from `s` only in what tells the control host: the rings' positions, pending interrupts, the queue of events, the started
descriptors, the event history, the completions that wait for a standby, and what has been sent. -/
structure Tells (s t : State) : Prop where
  regs : ∀ off, tellOff off = false → t.rd off = s.rd off
  hst : t.hst = { s.hst with rings := t.hst.rings, evSeq := t.hst.evSeq, backlog := t.hst.backlog, lostOwed := t.hst.lostOwed
                             started := t.hst.started }
  tel : t.tel = { s.tel with hist := t.tel.hist, errQ := t.tel.errQ }
  pair : t.pair = { s.pair with held := t.pair.held }
  out : ∃ os, t.out = os ++ s.out
  parts : t.now = s.now ∧ t.straps = s.straps ∧ t.itn = s.itn ∧ t.net = s.net ∧ t.rdm = s.rdm ∧ t.cmd = s.cmd ∧ t.lay = s.lay ∧ t.cip = s.cip ∧
    t.drv = s.drv ∧ t.pwr = s.pwr ∧ t.env = s.env ∧ t.mgt = s.mgt ∧ t.crs = s.crs ∧ t.drawn = s.drawn ∧ t.pending = s.pending

end Sys2Proof.Machine
end

