-- ==== Sys2Proof/Laws/Keep.lean ====
section
/-!
SUPPORT. What every meaning keeps: the queue of waiting commands, and the invariant. The lemmas of the files Keep*.lean say so of each
operation; those of this file put them together.
-/

namespace Sys2Proof.Machine

open Sys2Proof

/-- `t` follows `s`: the queue is unchanged, the invariant is kept, the fuses of revoked keys stand, and the security version floor has not
fallen. -/
structure Follows (s t : State) : Prop where
  queue : t.pending = s.pending
  inv : s.Inv → t.Inv
  revoked : t.mgt.revoked = s.mgt.revoked
  floor : s.mgt.floor ≤ t.mgt.floor

/-- `t` follows `s` without a power-on: the straps stand. -/
structure Runs (s t : State) : Prop extends Follows s t where
  straps : t.straps = s.straps

/-- `t` follows `s` within one tick: the count of ticks stands, and the pair state stands unless a chip reset has put it back. -/
structure Keeps (s t : State) : Prop extends Runs s t where
  now : t.now = s.now
  role : t.pair.st = s.pair.st ∨ t.pair.st = Pair.reset.st

variable {s t u : State}

theorem Follows.refl (s : State) : Follows s s := ⟨rfl, id, rfl, Nat.le_refl _⟩

theorem Follows.trans (h : Follows s t) (g : Follows t u) : Follows s u :=
  ⟨g.queue.trans h.queue, g.inv ∘ h.inv, g.revoked.trans h.revoked, h.floor.trans g.floor⟩

theorem Runs.refl (s : State) : Runs s s := ⟨.refl s, rfl⟩

theorem Runs.trans (h : Runs s t) (g : Runs t u) : Runs s u := ⟨h.toFollows.trans g.toFollows, g.straps.trans h.straps⟩

theorem Keeps.refl (s : State) : Keeps s s := ⟨.refl s, rfl, .inl rfl⟩

theorem Keeps.trans (h : Keeps s t) (g : Keeps t u) : Keeps s u :=
  ⟨h.toRuns.trans g.toRuns, g.now.trans h.now, by
    cases g.role with
    | inl e => rw [e]; exact h.role
    | inr e => exact .inr e⟩

theorem Keeps.after (g : Keeps t u) (h : Keeps s t) : Keeps s u := h.trans g

/-- An update of other fields. -/
theorem Keeps.mk' {itn hst net rdm cmd lay cip drv pwr env pair mgt crs tel out drawn} (h : Keeps s t)
    (hb : HostIf.backlog hst = t.hst.backlog) (hh : Tel.hist tel = t.tel.hist) (hs : Mgt.schedLog mgt = t.mgt.schedLog)
    (hr : Mgt.revoked mgt = t.mgt.revoked) (hf : Mgt.floor mgt = t.mgt.floor) (hp : Pair.st pair = t.pair.st) :
    Keeps s (State.mk t.regs t.now t.straps itn hst net rdm cmd lay cip drv pwr env pair mgt crs tel out drawn t.pending) where
  queue := h.queue
  inv i := ⟨(h.inv i).regs, hb ▸ (h.inv i).backlog, hh ▸ (h.inv i).history, hs ▸ (h.inv i).schedule⟩
  revoked := hr.trans h.revoked
  floor := hf ▸ h.floor
  now := h.now
  straps := h.straps
  role := hp ▸ h.role

/-- An update that the invariant is proved for apart. -/
theorem Keeps.upd (h : Keeps s t) (hi : s.Inv → u.Inv) (hq : u.pending = t.pending) (hr : u.mgt.revoked = t.mgt.revoked)
    (hf : u.mgt.floor = t.mgt.floor) (hn : u.now = t.now) (hs : u.straps = t.straps) (hp : u.pair.st = t.pair.st) : Keeps s u :=
  ⟨⟨⟨hq.trans h.queue, hi, hr.trans h.revoked, hf ▸ h.floor⟩, hs.trans h.straps⟩, hn.trans h.now, hp ▸ h.role⟩

theorem Keeps.ite {c : Prop} [Decidable c] (h : Keeps s t) (g : Keeps s u) : Keeps s (if c then t else u) := by
  split
  · exact h
  · exact g

theorem Keeps.ite2 {α : Type} {c : Prop} [Decidable c] {p q : α × State} (h : Keeps s p.2) (g : Keeps s q.2) :
    Keeps s (if c then p else q).2 := by
  split
  · exact h
  · exact g

theorem Keeps.ite1 {α : Type} {c : Prop} [Decidable c] {p q : State × α} (h : Keeps s p.1) (g : Keeps s q.1) :
    Keeps s (if c then p else q).1 := by
  split
  · exact h
  · exact g

theorem Keeps.foldl {α : Type} {f : State → α → State} {l : List α} (h : Keeps s t) (hf : ∀ x a, Keeps x (f x a)) :
    Keeps s (l.foldl f t) := by
  induction l generalizing t with
  | nil => exact h
  | cons a l ih => exact ih (h.trans (hf t a))

/-- The same for a fold that carries a value beside the state. -/
theorem Keeps.foldlPair {α β : Type} {f : β × State → α → β × State} {l : List α} {b : β × State} (h : Keeps s b.2)
    (hf : ∀ x a, Keeps x.2 (f x a).2) : Keeps s (l.foldl f b).2 := by
  induction l generalizing b with
  | nil => exact h
  | cons a l ih => exact ih (h.trans (hf b a))

theorem Keeps.pair {β : Type} {p : β × State} {a : β} (h : p = (a, t)) (g : Keeps s p.2) : Keeps s t := by
  rw [h] at g; exact g

theorem Keeps.pairL {β : Type} {p : State × β} {a : β} (h : p = (t, a)) (g : Keeps s p.1) : Keeps s t := by
  rw [h] at g; exact g

/-- An outcome whose next state, if it has one, keeps both. -/
def OKeeps (s : State) (o : Host.Outcome State Fault Refusal) : Prop := ∀ t, o = .next t → Keeps s t

theorem OKeeps.next (h : Keeps s t) : OKeeps s (.next t) := by
  intro x hx; cases hx; exact h

theorem OKeeps.ite {c : Prop} [Decidable c] {o p : Host.Outcome State Fault Refusal} (h : OKeeps s o) (g : OKeeps s p) :
    OKeeps s (if c then o else p) := by
  split
  · exact h
  · exact g

/-- A written register keeps the register file canonical. -/
theorem State.wrReg_keeps (s : State) (off : Nat) (w : Word) : Keeps s (s.wrReg off w) :=
  ⟨⟨⟨rfl, fun i => ⟨Tab.wf_wr i.regs, i.backlog, i.history, i.schedule⟩, rfl, Nat.le_refl _⟩, rfl⟩, rfl, .inl rfl⟩

end Sys2Proof.Machine
end

