-- ==== Sys2Proof/Laws/KeepOps.lean ====
section
/-!
SUPPORT. What the operations of Machine/Ops.lean keep (Laws/Keep.lean).
-/

namespace Sys2Proof.Machine

open Sys2Proof

theorem State.setFld_keeps (s : State) (off : Nat) (f : Fld) (v : Nat) :
    Keeps s (State.setFld s off f v) := by
  unfold State.setFld
  repeat' first
    | (with_reducible first
        | assumption
        | exact .refl _
        | apply Keeps.ite
        | apply Keeps.after (State.wrReg_keeps ..)
        | fail_if_no_progress refine Keeps.mk' ?_ rfl rfl rfl rfl rfl rfl)
    | intro _

theorem State.satFld_keeps (s : State) (off : Nat) (f : Fld) (n : Nat) :
    Keeps s (State.satFld s off f n) := by
  unfold State.satFld
  repeat' first
    | (with_reducible first
        | assumption
        | exact .refl _
        | apply Keeps.ite
        | apply Keeps.after (State.setFld_keeps ..)
        | fail_if_no_progress refine Keeps.mk' ?_ rfl rfl rfl rfl rfl rfl)
    | intro _

theorem State.cross_keeps (s : State) (g i j : Nat) (x : Xing) :
    Keeps s (State.cross s g i j x) := by
  unfold State.cross
  repeat' first
    | (with_reducible first
        | assumption
        | exact .refl _
        | apply Keeps.ite
        | apply Keeps.ite2
        | apply Keeps.ite1
        | apply Keeps.after (State.acc_keeps ..)
        | fail_if_no_progress refine Keeps.mk' ?_ rfl rfl rfl rfl rfl rfl
        | apply Keeps.foldl
        | apply Keeps.foldlPair)
    | split
    | intro _
    | extract_lets
    | (dsimp +zetaDelta only; split)

theorem State.acc_keeps (s : State) (g i j n : Nat) :
    Keeps s (State.acc s g i j n) := by
  unfold State.acc
  repeat' first
    | (with_reducible first
        | assumption
        | exact .refl _
        | apply Keeps.ite
        | apply Keeps.ite2
        | apply Keeps.ite1
        | apply Keeps.after (State.cross_keeps ..)
        | fail_if_no_progress refine Keeps.mk' ?_ rfl rfl rfl rfl rfl rfl
        | apply Keeps.foldl
        | apply Keeps.foldlPair)
    | split
    | intro _
    | extract_lets
    | (dsimp +zetaDelta only; split)

theorem State.senderReset_keeps (s : State) (g i : Nat) :
    Keeps s (State.senderReset s g i) := by
  unfold State.senderReset
  repeat' first
    | (with_reducible first
        | assumption
        | exact .refl _
        | apply Keeps.ite
        | apply Keeps.ite2
        | apply Keeps.ite1
        | apply Keeps.after (State.cross_keeps ..)
        | fail_if_no_progress refine Keeps.mk' ?_ rfl rfl rfl rfl rfl rfl
        | apply Keeps.foldl
        | apply Keeps.foldlPair)
    | split
    | intro _
    | extract_lets
    | (dsimp +zetaDelta only; split)

theorem State.cnt_keeps (s : State) (off g i j n : Nat) :
    Keeps s (State.cnt s off g i j n) := by
  unfold State.cnt
  repeat' first
    | (with_reducible first
        | assumption
        | exact .refl _
        | apply Keeps.ite
        | apply Keeps.after (State.satFld_keeps ..)
        | apply Keeps.after (State.acc_keeps ..)
        | fail_if_no_progress refine Keeps.mk' ?_ rfl rfl rfl rfl rfl rfl)
    | intro _

theorem State.cntSwc_keeps (s : State) (n k : Nat) :
    Keeps s (State.cntSwc s n k) := by
  unfold State.cntSwc
  repeat' first
    | (with_reducible first
        | assumption
        | exact .refl _
        | apply Keeps.ite
        | apply Keeps.after (State.cnt_keeps ..)
        | fail_if_no_progress refine Keeps.mk' ?_ rfl rfl rfl rfl rfl rfl)
    | intro _

theorem State.cntTmg_keeps (s : State) (n k : Nat) :
    Keeps s (State.cntTmg s n k) := by
  unfold State.cntTmg
  repeat' first
    | (with_reducible first
        | assumption
        | exact .refl _
        | apply Keeps.ite
        | apply Keeps.after (State.cnt_keeps ..)
        | fail_if_no_progress refine Keeps.mk' ?_ rfl rfl rfl rfl rfl rfl)
    | intro _

theorem State.cntRdm_keeps (s : State) (n k : Nat) :
    Keeps s (State.cntRdm s n k) := by
  unfold State.cntRdm
  repeat' first
    | (with_reducible first
        | assumption
        | exact .refl _
        | apply Keeps.ite
        | apply Keeps.after (State.cnt_keeps ..)
        | fail_if_no_progress refine Keeps.mk' ?_ rfl rfl rfl rfl rfl rfl)
    | intro _

theorem State.cntCmd_keeps (s : State) (n k : Nat) :
    Keeps s (State.cntCmd s n k) := by
  unfold State.cntCmd
  repeat' first
    | (with_reducible first
        | assumption
        | exact .refl _
        | apply Keeps.ite
        | apply Keeps.after (State.cnt_keeps ..)
        | fail_if_no_progress refine Keeps.mk' ?_ rfl rfl rfl rfl rfl rfl)
    | intro _

theorem State.cntLay_keeps (s : State) (n k : Nat) :
    Keeps s (State.cntLay s n k) := by
  unfold State.cntLay
  repeat' first
    | (with_reducible first
        | assumption
        | exact .refl _
        | apply Keeps.ite
        | apply Keeps.after (State.cnt_keeps ..)
        | fail_if_no_progress refine Keeps.mk' ?_ rfl rfl rfl rfl rfl rfl)
    | intro _

theorem State.cntMnt_keeps (s : State) (n k : Nat) :
    Keeps s (State.cntMnt s n k) := by
  unfold State.cntMnt
  repeat' first
    | (with_reducible first
        | assumption
        | exact .refl _
        | apply Keeps.ite
        | apply Keeps.after (State.cnt_keeps ..)
        | fail_if_no_progress refine Keeps.mk' ?_ rfl rfl rfl rfl rfl rfl)
    | intro _

theorem State.cntCip_keeps (s : State) (n k : Nat) :
    Keeps s (State.cntCip s n k) := by
  unfold State.cntCip
  repeat' first
    | (with_reducible first
        | assumption
        | exact .refl _
        | apply Keeps.ite
        | apply Keeps.after (State.cnt_keeps ..)
        | fail_if_no_progress refine Keeps.mk' ?_ rfl rfl rfl rfl rfl rfl)
    | intro _

theorem State.cntChk_keeps (s : State) (n k : Nat) :
    Keeps s (State.cntChk s n k) := by
  unfold State.cntChk
  repeat' first
    | (with_reducible first
        | assumption
        | exact .refl _
        | apply Keeps.ite
        | apply Keeps.after (State.cnt_keeps ..)
        | fail_if_no_progress refine Keeps.mk' ?_ rfl rfl rfl rfl rfl rfl)
    | intro _

theorem State.cntDrv_keeps (s : State) (n k : Nat) :
    Keeps s (State.cntDrv s n k) := by
  unfold State.cntDrv
  repeat' first
    | (with_reducible first
        | assumption
        | exact .refl _
        | apply Keeps.ite
        | apply Keeps.after (State.cnt_keeps ..)
        | fail_if_no_progress refine Keeps.mk' ?_ rfl rfl rfl rfl rfl rfl)
    | intro _

theorem State.cntBay_keeps (s : State) (n k : Nat) :
    Keeps s (State.cntBay s n k) := by
  unfold State.cntBay
  repeat' first
    | (with_reducible first
        | assumption
        | exact .refl _
        | apply Keeps.ite
        | apply Keeps.after (State.cnt_keeps ..)
        | fail_if_no_progress refine Keeps.mk' ?_ rfl rfl rfl rfl rfl rfl)
    | intro _

theorem State.cntEnv_keeps (s : State) (n k : Nat) :
    Keeps s (State.cntEnv s n k) := by
  unfold State.cntEnv
  repeat' first
    | (with_reducible first
        | assumption
        | exact .refl _
        | apply Keeps.ite
        | apply Keeps.after (State.cnt_keeps ..)
        | fail_if_no_progress refine Keeps.mk' ?_ rfl rfl rfl rfl rfl rfl)
    | intro _

theorem State.cntPair_keeps (s : State) (n k : Nat) :
    Keeps s (State.cntPair s n k) := by
  unfold State.cntPair
  repeat' first
    | (with_reducible first
        | assumption
        | exact .refl _
        | apply Keeps.ite
        | apply Keeps.after (State.cnt_keeps ..)
        | fail_if_no_progress refine Keeps.mk' ?_ rfl rfl rfl rfl rfl rfl)
    | intro _

theorem State.cntMgt_keeps (s : State) (n k : Nat) :
    Keeps s (State.cntMgt s n k) := by
  unfold State.cntMgt
  repeat' first
    | (with_reducible first
        | assumption
        | exact .refl _
        | apply Keeps.ite
        | apply Keeps.after (State.cnt_keeps ..)
        | fail_if_no_progress refine Keeps.mk' ?_ rfl rfl rfl rfl rfl rfl)
    | intro _

theorem State.cntTel_keeps (s : State) (n k : Nat) :
    Keeps s (State.cntTel s n k) := by
  unfold State.cntTel
  repeat' first
    | (with_reducible first
        | assumption
        | exact .refl _
        | apply Keeps.ite
        | apply Keeps.after (State.satFld_keeps ..)
        | fail_if_no_progress refine Keeps.mk' ?_ rfl rfl rfl rfl rfl rfl)
    | intro _

theorem State.entry_keeps (s : State) (kind : Nat) (fields : List Byte) :
    Keeps s (State.entry s kind fields) := by
  unfold State.entry
  extract_lets _
  repeat' first
    | (with_reducible first
        | assumption
        | exact .refl _
        | apply Keeps.ite
        | fail_if_no_progress refine Keeps.mk' ?_ rfl rfl rfl rfl rfl rfl)
    | intro _

theorem State.digest_keeps (s : State) (kind : Nat) (fields : List Nat) :
    Keeps s (State.digest s kind fields) := by
  unfold State.digest
  extract_lets _
  repeat' first
    | (with_reducible first
        | assumption
        | exact .refl _
        | apply Keeps.ite
        | fail_if_no_progress refine Keeps.mk' ?_ rfl rfl rfl rfl rfl rfl)
    | intro _

theorem State.emit_keeps (s : State) (o : Out) :
    Keeps s (State.emit s o) := by
  unfold State.emit
  repeat' first
    | (with_reducible first
        | assumption
        | exact .refl _
        | apply Keeps.ite
        | fail_if_no_progress refine Keeps.mk' ?_ rfl rfl rfl rfl rfl rfl)
    | intro _

theorem State.emitNet_keeps (s : State) (o : Out) :
    Keeps s (State.emitNet s o) := by
  unfold State.emitNet
  repeat' first
    | (with_reducible first
        | assumption
        | exact .refl _
        | apply Keeps.ite
        | apply Keeps.after (State.emit_keeps ..)
        | fail_if_no_progress refine Keeps.mk' ?_ rfl rfl rfl rfl rfl rfl)
    | intro _

theorem State.draw_keeps (s : State) :
    Keeps s (State.draw s).2 := by
  unfold State.draw
  repeat' first
    | (with_reducible first
        | assumption
        | exact .refl _
        | apply Keeps.ite
        | apply Keeps.ite2
        | fail_if_no_progress refine Keeps.mk' ?_ rfl rfl rfl rfl rfl rfl)
    | intro _

theorem State.drawShared_keeps (s : State) (purpose : Nat) :
    Keeps s (State.drawShared s purpose).2 := by
  unfold State.drawShared
  extract_lets v1 _
  repeat' first
    | (with_reducible first
        | assumption
        | exact .refl _
        | apply Keeps.ite
        | apply Keeps.ite2
        | apply Keeps.ite1
        | apply Keeps.after (State.entry_keeps ..)
        | refine Keeps.trans ?_ (.pair (by assumption) (State.draw_keeps ..))
        | apply Keeps.after (State.draw_keeps ..)
        | fail_if_no_progress refine Keeps.mk' ?_ rfl rfl rfl rfl rfl rfl)
    | split
    | unfold v1
    | intro _
    | extract_lets
    | (dsimp +zetaDelta only; split)

theorem State.msix_keeps (s : State) (v : Nat) :
    Keeps s (State.msix s v) := by
  unfold State.msix
  repeat' first
    | (with_reducible first
        | assumption
        | exact .refl _
        | apply Keeps.ite
        | apply Keeps.after (State.setFld_keeps ..)
        | apply Keeps.after (State.emit_keeps ..)
        | fail_if_no_progress refine Keeps.mk' ?_ rfl rfl rfl rfl rfl rfl)
    | intro _

theorem State.setRing_keeps (s : State) (k : Nat) (r : Ring) :
    Keeps s (State.setRing s k r) := by
  unfold State.setRing
  extract_lets _
  repeat' first
    | (with_reducible first
        | assumption
        | exact .refl _
        | apply Keeps.ite
        | fail_if_no_progress refine Keeps.mk' ?_ rfl rfl rfl rfl rfl rfl)
    | intro _
    | extract_lets

theorem State.setRingState_keeps (s : State) (k v : Nat) :
    Keeps s (State.setRingState s k v) := by
  unfold State.setRingState
  repeat' first
    | (with_reducible first
        | assumption
        | exact .refl _
        | apply Keeps.ite
        | apply Keeps.after (State.setFld_keeps ..)
        | fail_if_no_progress refine Keeps.mk' ?_ rfl rfl rfl rfl rfl rfl)
    | intro _

theorem State.irqCheck_keeps (s : State) (k : Nat) :
    Keeps s (State.irqCheck s k) := by
  unfold State.irqCheck
  extract_lets _
  repeat' first
    | (with_reducible first
        | assumption
        | exact .refl _
        | apply Keeps.ite
        | apply Keeps.after (State.msix_keeps ..)
        | apply Keeps.after (State.setRing_keeps ..)
        | fail_if_no_progress refine Keeps.mk' ?_ rfl rfl rfl rfl rfl rfl)
    | intro _

theorem State.ringAdvance_keeps (s : State) (k : Nat) :
    Keeps s (State.ringAdvance s k) := by
  unfold State.ringAdvance
  extract_lets _ _ _ s1 _ _
  have hs1 : Keeps s s1 := by
    unfold s1
    repeat' first
      | (with_reducible first
          | assumption
          | exact .refl _
          | apply Keeps.ite
          | apply Keeps.after (State.setFld_keeps ..)
          | apply Keeps.after (State.setRing_keeps ..)
          | apply Keeps.after (State.irqCheck_keeps ..)
          | fail_if_no_progress refine Keeps.mk' ?_ rfl rfl rfl rfl rfl rfl)
      | intro _
  repeat' first
    | (with_reducible first
        | assumption
        | exact .refl _
        | apply Keeps.ite
        | apply Keeps.after (State.setFld_keeps ..)
        | apply Keeps.after (State.setRing_keeps ..)
        | apply Keeps.after (State.irqCheck_keeps ..)
        | fail_if_no_progress refine Keeps.mk' ?_ rfl rfl rfl rfl rfl rfl)
    | intro _

theorem State.newEvent_backlog (s : State) (code v0 v1 v2 : Nat) :
    (State.newEvent s code v0 v1 v2).2.hst.backlog = s.hst.backlog := rfl

theorem State.newEvent_history (s : State) (code v0 v1 v2 : Nat) :
    (State.newEvent s code v0 v1 v2).2.tel.hist.length ≤ historyMax := by
  simp only [State.newEvent, List.length_drop, List.length_append, List.length_singleton]; omega

theorem State.newEvent_keeps (s : State) (code v0 v1 v2 : Nat) : Keeps s (State.newEvent s code v0 v1 v2).2 :=
  (Keeps.refl s).upd (fun i => ⟨i.regs, by rw [State.newEvent_backlog]; exact i.backlog, State.newEvent_history .., i.schedule⟩)
    rfl rfl rfl rfl rfl rfl

theorem State.payLost_keeps (s : State) : Keeps s (State.payLost s) := by
  unfold State.payLost
  split
  · exact .refl _
  · rename_i h
    have k := State.newEvent_keeps s Ev.RING_EVENTS_LOST s.hst.lostOwed 0 0
    refine k.upd (fun i => ⟨(k.inv i).regs, ?_, (k.inv i).history, (k.inv i).schedule⟩) rfl rfl rfl rfl rfl rfl
    simp only [List.length_append, List.length_singleton, State.newEvent_backlog]; omega

theorem State.postEvent_keeps (s : State) : Keeps s (State.postEvent s) := by
  unfold State.postEvent
  split
  · exact .refl _
  · rename_i e es h
    split
    · refine .trans ?_ (State.ringAdvance_keeps ..)
      refine .trans ?_ (State.emit_keeps ..)
      exact (Keeps.refl s).upd (fun i => ⟨i.regs, Nat.le_trans (by simp [h]) i.backlog, i.history, i.schedule⟩) rfl rfl rfl rfl rfl rfl
    · exact .refl _

theorem State.postEvents_keeps (n : Nat) (s : State) : Keeps s (State.postEvents n s) := by
  induction n generalizing s with
  | zero => exact .refl _
  | succ n ih =>
    unfold State.postEvents
    repeat' first
      | (with_reducible first
          | exact .refl _
          | refine .ite ?_ ?_
          | refine .trans ?_ (ih ..)
          | refine .trans ?_ (State.payLost_keeps ..)
          | refine .trans ?_ (State.postEvent_keeps ..))
      | split

theorem State.drainEvents_keeps (s : State) :
    Keeps s (State.drainEvents s) := by
  unfold State.drainEvents
  repeat' first
    | (with_reducible first
        | assumption
        | exact .refl _
        | apply Keeps.ite
        | apply Keeps.after (State.payLost_keeps ..)
        | apply Keeps.after (State.postEvents_keeps ..)
        | fail_if_no_progress refine Keeps.mk' ?_ rfl rfl rfl rfl rfl rfl)
    | intro _

theorem State.raise_keeps (s : State) (code v0 v1 v2 : Nat) : Keeps s (State.raise s code v0 v1 v2) := by
  unfold State.raise
  extract_lets s1
  have h1 : Keeps s s1 := State.payLost_keeps s
  clear_value s1
  split
  rename_i e s2 h
  have h2 : Keeps s s2 := h1.trans (.pair h (State.newEvent_keeps ..))
  split
  · refine .trans ?_ (State.satFld_keeps ..)
    exact h2.mk' rfl rfl rfl rfl rfl rfl
  · rename_i hb
    refine .trans ?_ (State.drainEvents_keeps ..)
    refine h2.upd (fun i => ⟨(h2.inv i).regs, ?_, (h2.inv i).history, (h2.inv i).schedule⟩) rfl rfl rfl rfl rfl rfl
    simp only [List.length_append, List.length_singleton]; omega

theorem State.postCpl_keeps (s : State) (d : Desc) (status r0 r1 backoff : Nat) :
    Keeps s (State.postCpl s d status r0 r1 backoff) := by
  unfold State.postCpl
  extract_lets _ _ s1 _ _ _
  have hs1 : Keeps s s1 := by
    unfold s1
    repeat' first
      | (with_reducible first
          | assumption
          | exact .refl _
          | apply Keeps.ite
          | apply Keeps.after (State.emit_keeps ..)
          | apply Keeps.after (State.setRing_keeps ..)
          | apply Keeps.after (State.ringAdvance_keeps ..)
          | refine Keeps.trans ?_ (.pair (by assumption) (State.backoff_keeps ..))
          | apply Keeps.after (State.backoff_keeps ..)
          | fail_if_no_progress refine Keeps.mk' ?_ rfl rfl rfl rfl rfl rfl)
      | intro _
  repeat' first
    | (with_reducible first
        | assumption
        | exact .refl _
        | apply Keeps.ite
        | apply Keeps.after (State.emit_keeps ..)
        | apply Keeps.after (State.setRing_keeps ..)
        | apply Keeps.after (State.ringAdvance_keeps ..)
        | refine Keeps.trans ?_ (.pair (by assumption) (State.backoff_keeps ..))
        | apply Keeps.after (State.backoff_keeps ..)
        | fail_if_no_progress refine Keeps.mk' ?_ rfl rfl rfl rfl rfl rfl)
    | intro _

theorem State.complete_keeps (s : State) (d : Desc) (status r0 r1 backoff : Nat) :
    Keeps s (State.complete s d status r0 r1 backoff) := by
  unfold State.complete
  extract_lets _ s1 _
  have hs1 : Keeps s s1 := by
    unfold s1
    repeat' first
      | (with_reducible first
          | assumption
          | exact .refl _
          | apply Keeps.ite
          | apply Keeps.after (State.postCpl_keeps ..)
          | refine Keeps.trans ?_ (.pair (by assumption) (State.backoff_keeps ..))
          | apply Keeps.after (State.backoff_keeps ..)
          | fail_if_no_progress refine Keeps.mk' ?_ rfl rfl rfl rfl rfl rfl)
      | intro _
      | extract_lets
  repeat' first
    | (with_reducible first
        | assumption
        | exact .refl _
        | apply Keeps.ite
        | apply Keeps.after (State.postCpl_keeps ..)
        | refine Keeps.trans ?_ (.pair (by assumption) (State.backoff_keeps ..))
        | apply Keeps.after (State.backoff_keeps ..)
        | fail_if_no_progress refine Keeps.mk' ?_ rfl rfl rfl rfl rfl rfl)
    | intro _
    | extract_lets

theorem State.done_keeps (s : State) (d : Desc) (status : Nat) :
    Keeps s (State.done s d status) := by
  unfold State.done
  repeat' first
    | (with_reducible first
        | assumption
        | exact .refl _
        | apply Keeps.ite
        | apply Keeps.after (State.complete_keeps ..)
        | fail_if_no_progress refine Keeps.mk' ?_ rfl rfl rfl rfl rfl rfl)
    | intro _

theorem State.doneOpt_keeps (s : State) (d : Option Desc) (status r0 r1 : Nat) :
    Keeps s (State.doneOpt s d status r0 r1) := by
  unfold State.doneOpt
  repeat' first
    | (with_reducible first
        | assumption
        | exact .refl _
        | apply Keeps.ite
        | apply Keeps.after (State.complete_keeps ..)
        | fail_if_no_progress refine Keeps.mk' ?_ rfl rfl rfl rfl rfl rfl)
    | split
    | intro _
    | extract_lets
    | (dsimp +zetaDelta only; split)

theorem State.settleRing_keeps (s : State) (k : Nat) :
    Keeps s (State.settleRing s k) := by
  unfold State.settleRing
  extract_lets _ _ s1 s2
  have hs1 : Keeps s s1 := by
    unfold s1
    repeat' first
      | (with_reducible first
          | assumption
          | exact .refl _
          | apply Keeps.ite
          | apply Keeps.after (State.setFld_keeps ..)
          | apply Keeps.after (State.setRing_keeps ..)
          | apply Keeps.after (State.setRingState_keeps ..)
          | apply Keeps.after (State.doneOpt_keeps ..)
          | fail_if_no_progress refine Keeps.mk' ?_ rfl rfl rfl rfl rfl rfl)
      | intro _
  have hs2 : Keeps s s2 := by
    unfold s2
    repeat' first
      | (with_reducible first
          | assumption
          | exact .refl _
          | apply Keeps.ite
          | apply Keeps.after (State.setFld_keeps ..)
          | apply Keeps.after (State.setRing_keeps ..)
          | apply Keeps.after (State.setRingState_keeps ..)
          | apply Keeps.after (State.doneOpt_keeps ..)
          | fail_if_no_progress refine Keeps.mk' ?_ rfl rfl rfl rfl rfl rfl)
      | intro _
  repeat' first
    | (with_reducible first
        | assumption
        | exact .refl _
        | apply Keeps.ite
        | apply Keeps.after (State.setFld_keeps ..)
        | apply Keeps.after (State.setRing_keeps ..)
        | apply Keeps.after (State.setRingState_keeps ..)
        | apply Keeps.after (State.doneOpt_keeps ..)
        | fail_if_no_progress refine Keeps.mk' ?_ rfl rfl rfl rfl rfl rfl)
    | intro _

theorem State.ringToError_keeps (s : State) (k code v0 v1 v2 : Nat) :
    Keeps s (State.ringToError s k code v0 v1 v2) := by
  unfold State.ringToError
  repeat' first
    | (with_reducible first
        | assumption
        | exact .refl _
        | apply Keeps.ite
        | apply Keeps.ite2
        | apply Keeps.ite1
        | apply Keeps.after (State.setFld_keeps ..)
        | apply Keeps.after (State.setRing_keeps ..)
        | apply Keeps.after (State.setRingState_keeps ..)
        | apply Keeps.after (State.raise_keeps ..)
        | fail_if_no_progress refine Keeps.mk' ?_ rfl rfl rfl rfl rfl rfl
        | apply Keeps.foldl
        | apply Keeps.foldlPair)
    | split
    | intro _
    | extract_lets
    | (dsimp +zetaDelta only; split)

end Sys2Proof.Machine
end

