-- ==== Sys2Proof/Laws/KeepLink.lean ====
section
/-!
SUPPORT. What the operations of Machine/Link.lean keep (Laws/Keep.lean).
-/

namespace Sys2Proof.Machine

open Sys2Proof

theorem State.linkPut_keeps (s : State) (typ stream alive : Nat) (payload : List Byte) :
    Keeps s (State.linkPut s typ stream alive payload) := by
  unfold State.linkPut
  extract_lets _ _ _ _
  repeat' first
    | (with_reducible first
        | assumption
        | exact .refl _
        | apply Keeps.ite
        | apply Keeps.ite2
        | apply Keeps.ite1
        | apply Keeps.after (State.cntPair_keeps ..)
        | apply Keeps.after (State.emit_keeps ..)
        | refine Keeps.trans ?_ (.pair (by assumption) (State.alive_keeps ..))
        | apply Keeps.after (State.alive_keeps ..)
        | fail_if_no_progress refine Keeps.mk' ?_ rfl rfl rfl rfl rfl rfl)
    | intro _

theorem State.linkSend_keeps (s : State) (typ : Nat) (payload : List Byte) :
    Keeps s (State.linkSend s typ payload) := by
  unfold State.linkSend
  extract_lets _ _ _ s1 _ _ s2
  have hs1 : Keeps s s1 := by
    unfold s1
    repeat' first
      | (with_reducible first
          | assumption
          | exact .refl _
          | apply Keeps.ite
          | apply Keeps.ite2
          | apply Keeps.after (State.linkPut_keeps ..)
          | fail_if_no_progress refine Keeps.mk' ?_ rfl rfl rfl rfl rfl rfl
          | apply Keeps.foldl
          | apply Keeps.foldlPair)
      | intro _
      | extract_lets
  have hs2 : Keeps s s2 := by
    unfold s2
    repeat' first
      | (with_reducible first
          | assumption
          | exact .refl _
          | apply Keeps.ite
          | apply Keeps.ite2
          | apply Keeps.after (State.linkPut_keeps ..)
          | fail_if_no_progress refine Keeps.mk' ?_ rfl rfl rfl rfl rfl rfl
          | apply Keeps.foldl
          | apply Keeps.foldlPair)
      | intro _
      | extract_lets
  repeat' first
    | (with_reducible first
        | assumption
        | exact .refl _
        | apply Keeps.ite
        | apply Keeps.ite2
        | apply Keeps.after (State.linkPut_keeps ..)
        | fail_if_no_progress refine Keeps.mk' ?_ rfl rfl rfl rfl rfl rfl
        | apply Keeps.foldl
        | apply Keeps.foldlPair)
    | intro _
    | extract_lets

theorem State.mgtSend_keeps (s : State) (m : MgtMsg) :
    Keeps s (State.mgtSend s m) := by
  unfold State.mgtSend
  repeat' first
    | (with_reducible first
        | assumption
        | exact .refl _
        | apply Keeps.ite
        | apply Keeps.after (State.linkSend_keeps ..)
        | fail_if_no_progress refine Keeps.mk' ?_ rfl rfl rfl rfl rfl rfl
        | apply Keeps.foldl
        | apply Keeps.foldlPair)
    | intro _

theorem State.unkey_keeps (s : State) (cause : Nat) :
    Keeps s (State.unkey s cause) := by
  unfold State.unkey
  extract_lets s1 _
  have hs1 : Keeps s s1 := by
    unfold s1
    repeat' first
      | (with_reducible first
          | assumption
          | exact .refl _
          | apply Keeps.ite
          | apply Keeps.after (State.setFld_keeps ..)
          | fail_if_no_progress refine Keeps.mk' ?_ rfl rfl rfl rfl rfl rfl)
      | intro _
  repeat' first
    | (with_reducible first
        | assumption
        | exact .refl _
        | apply Keeps.ite
        | apply Keeps.after (State.setFld_keeps ..)
        | fail_if_no_progress refine Keeps.mk' ?_ rfl rfl rfl rfl rfl rfl)
    | intro _

theorem State.zeroLink_keeps (s : State) (code : Nat) :
    Keeps s (State.zeroLink s code) := by
  unfold State.zeroLink
  repeat' first
    | (with_reducible first
        | assumption
        | exact .refl _
        | apply Keeps.ite
        | apply Keeps.after (State.emit_keeps ..)
        | apply Keeps.after (State.unkey_keeps ..)
        | fail_if_no_progress refine Keeps.mk' ?_ rfl rfl rfl rfl rfl rfl)
    | intro _

theorem State.replicate_keeps (s : State) (r : Replica) :
    Keeps s (State.replicate s r) := by
  unfold State.replicate
  extract_lets _ _
  repeat' first
    | (with_reducible first
        | assumption
        | exact .refl _
        | apply Keeps.ite
        | apply Keeps.after (State.entry_keeps ..)
        | apply Keeps.after (State.mgtSend_keeps ..)
        | fail_if_no_progress refine Keeps.mk' ?_ rfl rfl rfl rfl rfl rfl)
    | intro _

theorem State.report_keeps (s : State) :
    Keeps s (State.report s) := by
  unfold State.report
  repeat' first
    | (with_reducible first
        | assumption
        | exact .refl _
        | apply Keeps.ite
        | apply Keeps.after (State.mgtSend_keeps ..)
        | fail_if_no_progress refine Keeps.mk' ?_ rfl rfl rfl rfl rfl rfl)
    | intro _

end Sys2Proof.Machine
end

