-- ==== Sys2Proof/Laws/KeepOperands.lean ====
section
/-!
SUPPORT. What the operations of Machine/Operands.lean keep (Laws/Keep.lean).
-/

namespace Sys2Proof.Machine

open Sys2Proof

theorem State.start_keeps (s : State) (d : Desc) :
    Keeps s (State.start s d) := by
  unfold State.start
  extract_lets _
  repeat' first
    | (with_reducible first
        | assumption
        | exact .refl _
        | apply Keeps.ite
        | fail_if_no_progress refine Keeps.mk' ?_ rfl rfl rfl rfl rfl rfl)

theorem State.ringData_keeps (s : State) (op : Nat) (ok : Bool) (data : List Byte) (body : Desc → State → State) (hbody : ∀ a0 x, Keeps x (body a0 x)) :
    Keeps s (State.ringData s op ok data body) := by
  unfold State.ringData
  repeat' first
    | (with_reducible first
        | assumption
        | exact .refl _
        | apply Keeps.ite
        | apply Keeps.after (State.done_keeps ..)
        | apply Keeps.after (State.replicate_keeps ..)
        | apply Keeps.after (State.start_keeps ..)
        | apply Keeps.after (hbody ..)
        | fail_if_no_progress refine Keeps.mk' ?_ rfl rfl rfl rfl rfl rfl)
    | split

theorem State.ringCmd_keeps (s : State) (op : Nat) (body : Desc → State → State) (hbody : ∀ a0 x, Keeps x (body a0 x)) :
    Keeps s (State.ringCmd s op body) := by
  unfold State.ringCmd
  repeat' first
    | (with_reducible first
        | assumption
        | exact .refl _
        | apply Keeps.ite
        | apply Keeps.after (State.ringData_keeps (hbody := ?_) ..))

theorem State.defer_keeps (s : State) (d : Desc) :
    Keeps s (State.defer s d) := by
  unfold State.defer
  extract_lets _
  repeat' first
    | (with_reducible first
        | assumption
        | exact .refl _
        | apply Keeps.ite
        | fail_if_no_progress refine Keeps.mk' ?_ rfl rfl rfl rfl rfl rfl)

theorem State.checked_keeps (s : State) (d : Desc) (cs : List (Bool × Nat)) (ok : State → State) (hok : ∀ x, Keeps x (ok x)) :
    Keeps s (State.checked s d cs ok) := by
  unfold State.checked
  repeat' first
    | (with_reducible first
        | assumption
        | exact .refl _
        | apply Keeps.ite
        | apply Keeps.after (State.done_keeps ..)
        | apply Keeps.after (hok ..)
        | fail_if_no_progress refine Keeps.mk' ?_ rfl rfl rfl rfl rfl rfl)
    | split

end Sys2Proof.Machine
end

