-- ==== Sys2Proof/Laws/KeepAcc.lean ====
section
/-!
SUPPORT. What the operations of Machine/Acc.lean keep (Laws/Keep.lean).
-/

namespace Sys2Proof.Machine

open Sys2Proof

theorem State.setBuf_keeps (s : State) (b : Bool) (x : ImgBuf) :
    Keeps s (State.setBuf s b x) := by
  unfold State.setBuf
  extract_lets _
  repeat' first
    | (with_reducible first
        | assumption
        | exact .refl _
        | apply Keeps.ite
        | fail_if_no_progress refine Keeps.mk' ?_ rfl rfl rfl rfl rfl rfl)

theorem State.setChan_keeps (s : State) (i : Nat) (c : Chan) :
    Keeps s (State.setChan s i c) := by
  unfold State.setChan
  extract_lets _
  repeat' first
    | (with_reducible first
        | assumption
        | exact .refl _
        | apply Keeps.ite
        | fail_if_no_progress refine Keeps.mk' ?_ rfl rfl rfl rfl rfl rfl)

theorem State.setWb_keeps (s : State) (w : Nat) (x : Waybill) :
    Keeps s (State.setWb s w x) := by
  unfold State.setWb
  extract_lets _
  repeat' first
    | (with_reducible first
        | assumption
        | exact .refl _
        | apply Keeps.ite
        | fail_if_no_progress refine Keeps.mk' ?_ rfl rfl rfl rfl rfl rfl)

theorem State.updWb_keeps (s : State) (w : Nat) (f : Waybill → Waybill) :
    Keeps s (State.updWb s w f) := by
  unfold State.updWb
  repeat' first
    | (with_reducible first
        | assumption
        | exact .refl _
        | apply Keeps.ite
        | apply Keeps.after (State.setWb_keeps ..))

theorem State.updCap_keeps (s : State) (id : Nat) (f : Capsule → Capsule) :
    Keeps s (State.updCap s id f) := by
  unfold State.updCap
  extract_lets _
  repeat' first
    | (with_reducible first
        | assumption
        | exact .refl _
        | apply Keeps.ite
        | fail_if_no_progress refine Keeps.mk' ?_ rfl rfl rfl rfl rfl rfl)

theorem State.dropCap_keeps (s : State) (id : Nat) :
    Keeps s (State.dropCap s id) := by
  unfold State.dropCap
  extract_lets _
  repeat' first
    | (with_reducible first
        | assumption
        | exact .refl _
        | apply Keeps.ite
        | fail_if_no_progress refine Keeps.mk' ?_ rfl rfl rfl rfl rfl rfl)

theorem State.addItem_keeps (s : State) (it : Item) :
    Keeps s (State.addItem s it) := by
  unfold State.addItem
  extract_lets _
  repeat' first
    | (with_reducible first
        | assumption
        | exact .refl _
        | apply Keeps.ite
        | fail_if_no_progress refine Keeps.mk' ?_ rfl rfl rfl rfl rfl rfl)

theorem State.dropItems_keeps (s : State) (p : Item → Bool) :
    Keeps s (State.dropItems s p) := by
  unfold State.dropItems
  extract_lets _
  repeat' first
    | (with_reducible first
        | assumption
        | exact .refl _
        | apply Keeps.ite
        | fail_if_no_progress refine Keeps.mk' ?_ rfl rfl rfl rfl rfl rfl)

theorem State.wakeItems_keeps (s : State) (p : Item → Bool) (f : Item → Item) :
    Keeps s (State.wakeItems s p f) := by
  unfold State.wakeItems
  extract_lets _
  repeat' first
    | (with_reducible first
        | assumption
        | exact .refl _
        | apply Keeps.ite
        | fail_if_no_progress refine Keeps.mk' ?_ rfl rfl rfl rfl rfl rfl)

theorem State.postCap_keeps (s : State) (id : Nat) (reject : Bool) :
    Keeps s (State.postCap s id reject) := by
  unfold State.postCap
  repeat' first
    | (with_reducible first
        | assumption
        | exact .refl _
        | apply Keeps.ite
        | apply Keeps.after (State.updCap_keeps ..)
        | apply Keeps.after (State.addItem_keeps ..)
        | fail_if_no_progress refine Keeps.mk' ?_ rfl rfl rfl rfl rfl rfl)
    | split

theorem State.releaseDeferred_keeps (s : State) (i : Nat) :
    Keeps s (State.releaseDeferred s i) := by
  unfold State.releaseDeferred
  extract_lets _ _
  repeat' first
    | (with_reducible first
        | assumption
        | exact .refl _
        | apply Keeps.ite
        | apply Keeps.after (State.setChan_keeps ..)
        | apply Keeps.after (State.postCap_keeps ..)
        | fail_if_no_progress refine Keeps.mk' ?_ rfl rfl rfl rfl rfl rfl
        | apply Keeps.foldl
        | apply Keeps.foldlPair)
    | intro _

theorem State.setCtrl_keeps (s : State) (k : Nat) (x : Ctrl) :
    Keeps s (State.setCtrl s k x) := by
  unfold State.setCtrl
  extract_lets _
  repeat' first
    | (with_reducible first
        | assumption
        | exact .refl _
        | apply Keeps.ite
        | fail_if_no_progress refine Keeps.mk' ?_ rfl rfl rfl rfl rfl rfl)

theorem State.updCtrl_keeps (s : State) (k : Nat) (f : Ctrl → Ctrl) :
    Keeps s (State.updCtrl s k f) := by
  unfold State.updCtrl
  repeat' first
    | (with_reducible first
        | assumption
        | exact .refl _
        | apply Keeps.ite
        | apply Keeps.after (State.setCtrl_keeps ..))

theorem State.wakeWb_keeps (s : State) (w : Nat) :
    Keeps s (State.wakeWb s w) := by
  exact State.wakeItems_keeps ..

theorem State.setPair_keeps (s : State) (f : Pair → Pair) (h : ∀ p, (f p).st = p.st) : Keeps s (State.setPair s f) :=
  Keeps.mk' (.refl s) rfl rfl rfl rfl rfl (h _)

theorem State.joinAbort_keeps (s : State) (cause : Nat) :
    Keeps s (State.joinAbort s cause) := by
  unfold State.joinAbort
  repeat' first
    | (with_reducible first
        | assumption
        | exact .refl _
        | apply Keeps.ite
        | apply Keeps.after (State.setPair_keeps ..)
        | (intro _; exact rfl)
        | fail_if_no_progress refine Keeps.mk' ?_ rfl rfl rfl rfl rfl rfl)
    | intro _
    | extract_lets

end Sys2Proof.Machine
end

