-- ==== Sys2Proof/Laws/KeepLayout.lean ====
section
/-!
SUPPORT. What the operations of Machine/Layout.lean keep (Laws/Keep.lean).
-/

namespace Sys2Proof.Machine

open Sys2Proof

theorem State.setPool_keeps (s : State) (p : Nat) (x : Pool) :
    Keeps s (State.setPool s p x) := by
  unfold State.setPool
  extract_lets _
  repeat' first
    | (with_reducible first
        | assumption
        | exact .refl _
        | apply Keeps.ite
        | fail_if_no_progress refine Keeps.mk' ?_ rfl rfl rfl rfl rfl rfl)

theorem State.updPool_keeps (s : State) (p : Nat) (f : Pool → Pool) :
    Keeps s (State.updPool s p f) := by
  unfold State.updPool
  repeat' first
    | (with_reducible first
        | assumption
        | exact .refl _
        | apply Keeps.ite
        | apply Keeps.after (State.setPool_keeps ..))

theorem State.setVol_keeps (s : State) (v : Nat) (x : Vol) :
    Keeps s (State.setVol s v x) := by
  unfold State.setVol
  extract_lets _
  repeat' first
    | (with_reducible first
        | assumption
        | exact .refl _
        | apply Keeps.ite
        | fail_if_no_progress refine Keeps.mk' ?_ rfl rfl rfl rfl rfl rfl)

theorem State.updVol_keeps (s : State) (v : Nat) (f : Vol → Vol) :
    Keeps s (State.updVol s v f) := by
  unfold State.updVol
  repeat' first
    | (with_reducible first
        | assumption
        | exact .refl _
        | apply Keeps.ite
        | apply Keeps.after (State.setVol_keeps ..))

theorem State.setLine_keeps (s : State) (i : Nat) (x : Line) :
    Keeps s (State.setLine s i x) := by
  unfold State.setLine
  extract_lets _
  repeat' first
    | (with_reducible first
        | assumption
        | exact .refl _
        | apply Keeps.ite
        | fail_if_no_progress refine Keeps.mk' ?_ rfl rfl rfl rfl rfl rfl)

theorem State.updLine_keeps (s : State) (i : Nat) (f : Line → Line) :
    Keeps s (State.updLine s i f) := by
  unfold State.updLine
  repeat' first
    | (with_reducible first
        | assumption
        | exact .refl _
        | apply Keeps.ite
        | apply Keeps.after (State.setLine_keeps ..))

theorem State.setJent_keeps (s : State) (i : Nat) (x : JEnt) :
    Keeps s (State.setJent s i x) := by
  unfold State.setJent
  extract_lets _
  repeat' first
    | (with_reducible first
        | assumption
        | exact .refl _
        | apply Keeps.ite
        | fail_if_no_progress refine Keeps.mk' ?_ rfl rfl rfl rfl rfl rfl)

theorem State.updWork_keeps (s : State) (id : Nat) (f : Work → Work) :
    Keeps s (State.updWork s id f) := by
  unfold State.updWork
  extract_lets _
  repeat' first
    | (with_reducible first
        | assumption
        | exact .refl _
        | apply Keeps.ite
        | fail_if_no_progress refine Keeps.mk' ?_ rfl rfl rfl rfl rfl rfl)

theorem State.dropWork_keeps (s : State) (id : Nat) :
    Keeps s (State.dropWork s id) := by
  unfold State.dropWork
  extract_lets _
  repeat' first
    | (with_reducible first
        | assumption
        | exact .refl _
        | apply Keeps.ite
        | fail_if_no_progress refine Keeps.mk' ?_ rfl rfl rfl rfl rfl rfl)

theorem State.chanMaps_keeps (s : State) (v : Nat) :
    Keeps s (State.chanMaps s v) := by
  unfold State.chanMaps
  repeat' first
    | (with_reducible first
        | assumption
        | exact .refl _
        | apply Keeps.ite
        | apply Keeps.ite2
        | apply Keeps.ite1
        | apply Keeps.after (State.setChan_keeps ..)
        | fail_if_no_progress refine Keeps.mk' ?_ rfl rfl rfl rfl rfl rfl
        | apply Keeps.foldl
        | apply Keeps.foldlPair)
    | split
    | intro _
    | extract_lets
    | (dsimp +zetaDelta only; split)

theorem State.dirtyLimit_keeps (s : State) :
    Keeps s (State.dirtyLimit s) := by
  unfold State.dirtyLimit
  extract_lets _
  repeat' first
    | (with_reducible first
        | assumption
        | exact .refl _
        | apply Keeps.ite
        | apply Keeps.after (State.setFld_keeps ..))

theorem State.evict_keeps (s : State) :
    Keeps s (State.evict s) := by
  unfold State.evict
  extract_lets v1 v2 v3 s1
  have hs1 : Keeps s s1 := by
    unfold s1
    repeat' first
      | (with_reducible first
          | assumption
          | exact .refl _
          | apply Keeps.ite
          | apply Keeps.after (State.cntLay_keeps ..)
          | apply Keeps.after (State.setLine_keeps ..)
          | apply Keeps.after (State.updLine_keeps ..)
          | fail_if_no_progress refine Keeps.mk' ?_ rfl rfl rfl rfl rfl rfl
          | apply Keeps.foldl
          | apply Keeps.foldlPair)
      | split
      | unfold v1
      | unfold v2
      | unfold v3
      | intro _
  repeat' first
    | (with_reducible first
        | assumption
        | exact .refl _
        | apply Keeps.ite
        | apply Keeps.after (State.cntLay_keeps ..)
        | apply Keeps.after (State.setLine_keeps ..)
        | apply Keeps.after (State.updLine_keeps ..)
        | fail_if_no_progress refine Keeps.mk' ?_ rfl rfl rfl rfl rfl rfl
        | apply Keeps.foldl
        | apply Keeps.foldlPair)
    | split

theorem State.freeSlot_keeps (s : State) :
    Keeps s (State.freeSlot s).2 := by
  unfold State.freeSlot
  extract_lets s1
  have hs1 : Keeps s s1 := by
    unfold s1
    repeat' first
      | (with_reducible first
          | assumption
          | exact .refl _
          | apply Keeps.ite
          | apply Keeps.ite2
          | apply Keeps.after (State.evict_keeps ..))
  repeat' first
    | (with_reducible first
        | assumption)

theorem State.addDirty_keeps (s : State) (p st tick : Nat) :
    Keeps s (State.addDirty s p st tick) := by
  unfold State.addDirty
  repeat' first
    | (with_reducible first
        | assumption
        | exact .refl _
        | apply Keeps.ite
        | apply Keeps.after (State.updPool_keeps ..))

theorem State.newWork_keeps (s : State) (w : Work) (k code : Nat) (wait : Wait) (at_ : Nat) :
    Keeps s (State.newWork s w k code wait at_) := by
  unfold State.newWork
  extract_lets v1 v2 v3 s1
  have hs1 : Keeps s s1 := by
    unfold s1
    repeat' first
      | (with_reducible first
          | assumption
          | exact .refl _
          | apply Keeps.ite
          | apply Keeps.after (State.addItem_keeps ..)
          | fail_if_no_progress refine Keeps.mk' ?_ rfl rfl rfl rfl rfl rfl)
  repeat' first
    | (with_reducible first
        | assumption
        | exact .refl _
        | apply Keeps.ite
        | apply Keeps.after (State.addItem_keeps ..))

end Sys2Proof.Machine
end

