-- ==== Sys2Proof/Laws/KeepAen.lean ====
section
/-!
SUPPORT. What the operations of Machine/Aen.lean keep (Laws/Keep.lean).
-/

namespace Sys2Proof.Machine

open Sys2Proof

theorem State.aev_keeps (s : State) (e : Aev) (k : Nat) :
    Keeps s (State.aev s e k) := by
  unfold State.aev
  extract_lets v1 v2 v3
  repeat' first
    | (with_reducible first
        | assumption
        | exact .refl _
        | apply Keeps.ite
        | fail_if_no_progress refine Keeps.mk' ?_ rfl rfl rfl rfl rfl rfl)

theorem State.nsChangedTo_keeps (s : State) (v : Nat) (p : Nat → Bool) :
    Keeps s (State.nsChangedTo s v p) := by
  unfold State.nsChangedTo
  repeat' first
    | (with_reducible first
        | assumption
        | exact .refl _
        | apply Keeps.ite
        | apply Keeps.after (State.updCtrl_keeps ..)
        | apply Keeps.after (State.aev_keeps ..)
        | fail_if_no_progress refine Keeps.mk' ?_ rfl rfl rfl rfl rfl rfl
        | apply Keeps.foldl
        | apply Keeps.foldlPair)
    | intro _

theorem State.nsChanged_keeps (s : State) (v : Nat) :
    Keeps s (State.nsChanged s v) := by
  unfold State.nsChanged
  repeat' first
    | (with_reducible first
        | assumption
        | exact .refl _
        | apply Keeps.ite
        | apply Keeps.after (State.nsChangedTo_keeps ..))

theorem State.reliability_keeps (s : State) (v : Nat) :
    Keeps s (State.reliability s v) := by
  unfold State.reliability
  repeat' first
    | (with_reducible first
        | assumption
        | exact .refl _
        | apply Keeps.ite
        | apply Keeps.after (State.aev_keeps ..)
        | fail_if_no_progress refine Keeps.mk' ?_ rfl rfl rfl rfl rfl rfl
        | apply Keeps.foldl
        | apply Keeps.foldlPair)
    | intro _

theorem State.fwStarting_keeps (s : State) :
    Keeps s (State.fwStarting s) := by
  unfold State.fwStarting
  repeat' first
    | (with_reducible first
        | assumption
        | exact .refl _
        | apply Keeps.ite
        | apply Keeps.after (State.aev_keeps ..)
        | fail_if_no_progress refine Keeps.mk' ?_ rfl rfl rfl rfl rfl rfl
        | apply Keeps.foldl
        | apply Keeps.foldlPair)
    | intro _

theorem State.discoveryChanged_keeps (s : State) :
    Keeps s (State.discoveryChanged s) := by
  unfold State.discoveryChanged
  extract_lets _ s1
  have hs1 : Keeps s s1 := by
    unfold s1
    repeat' first
      | (with_reducible first
          | assumption
          | exact .refl _
          | apply Keeps.ite
          | apply Keeps.after (State.aev_keeps ..)
          | fail_if_no_progress refine Keeps.mk' ?_ rfl rfl rfl rfl rfl rfl)
  repeat' first
    | (with_reducible first
        | assumption
        | exact .refl _
        | apply Keeps.ite
        | apply Keeps.after (State.aev_keeps ..)
        | fail_if_no_progress refine Keeps.mk' ?_ rfl rfl rfl rfl rfl rfl
        | apply Keeps.foldl
        | apply Keeps.foldlPair)
    | intro _

end Sys2Proof.Machine
end

