-- ==== Sys2Proof/Laws/KeepRegRules.lean ====
section
/-!
SUPPORT. What the operations of Machine/RegRules.lean keep (Laws/Keep.lean).
-/

namespace Sys2Proof.Machine

open Sys2Proof

theorem State.writeField_keeps (s : State) (off : Nat) (w : Word) (f : FieldDef) :
    Keeps s (State.writeField s off w f) := by
  unfold State.writeField
  extract_lets v1
  repeat' first
    | (with_reducible first
        | assumption
        | exact .refl _
        | apply Keeps.ite
        | apply Keeps.after (State.wrReg_keeps ..)
        | apply Keeps.after (State.setFld_keeps ..)
        | apply Keeps.after (State.acc_keeps ..)
        | fail_if_no_progress refine Keeps.mk' ?_ rfl rfl rfl rfl rfl rfl)
    | split

theorem State.hostWrite_keeps (s : State) (off : Nat) (f : State → State) (hf : ∀ x, Keeps x (f x)) :
    Keeps s (State.hostWrite s off f) := by
  unfold State.hostWrite
  repeat' first
    | (with_reducible first
        | assumption
        | exact .refl _
        | apply Keeps.ite
        | apply Keeps.after (State.cntMgt_keeps ..)
        | apply Keeps.after (hf ..))

theorem State.violation_keeps (s : State) (off : Nat) (w : Word) :
    Keeps s (State.violation s off w) := by
  unfold State.violation
  extract_lets s1 v1 v2 v3
  have hs1 : Keeps s s1 := by
    unfold s1
    repeat' first
      | (with_reducible first
          | assumption
          | exact .refl _
          | apply Keeps.ite
          | apply Keeps.after (State.setFld_keeps ..)
          | apply Keeps.after (State.satFld_keeps ..))
  repeat' first
    | (with_reducible first
        | assumption
        | exact .refl _
        | apply Keeps.ite
        | apply Keeps.after (State.setFld_keeps ..)
        | apply Keeps.after (State.satFld_keeps ..)
        | apply Keeps.after (State.raise_keeps ..)
        | fail_if_no_progress refine Keeps.mk' ?_ rfl rfl rfl rfl rfl rfl)

theorem State.regWrite_keeps (s : State) (off : Nat) (w : Word) :
    Keeps s (State.regWrite s off w) := by
  unfold State.regWrite
  repeat' first
    | (with_reducible first
        | assumption
        | exact .refl _
        | apply Keeps.ite
        | apply Keeps.ite2
        | apply Keeps.ite1
        | apply Keeps.after (State.setFld_keeps ..)
        | apply Keeps.after (State.writeField_keeps ..)
        | apply Keeps.after (State.violation_keeps ..)
        | fail_if_no_progress refine Keeps.mk' ?_ rfl rfl rfl rfl rfl rfl
        | apply Keeps.foldl
        | apply Keeps.foldlPair)
    | split
    | intro _
    | extract_lets
    | (dsimp +zetaDelta only; split)

end Sys2Proof.Machine
end

