-- ==== Sys2Proof/Laws/KeepReset.lean ====
section
/-!
SUPPORT. What the operations of Machine/Reset.lean keep (Laws/Keep.lean).
-/

namespace Sys2Proof.Machine

open Sys2Proof

theorem State.releaseRole_keeps (s : State) :
    Keeps s (State.releaseRole s) := by
  unfold State.releaseRole
  extract_lets _ _ s1 s2 _
  have hs1 : Keeps s s1 := by
    unfold s1
    repeat' first
      | (with_reducible first
          | assumption
          | exact .refl _
          | apply Keeps.ite
          | apply Keeps.after (State.setFld_keeps ..)
          | fail_if_no_progress refine Keeps.mk' ?_ rfl rfl rfl rfl rfl rfl)
  have hs2 : Keeps s s2 := by
    unfold s2
    repeat' first
      | (with_reducible first
          | assumption
          | exact .refl _
          | apply Keeps.ite
          | apply Keeps.after (State.setFld_keeps ..))
  repeat' first
    | (with_reducible first
        | assumption
        | exact .refl _
        | apply Keeps.ite
        | apply Keeps.after (State.setFld_keeps ..)
        | fail_if_no_progress refine Keeps.mk' ?_ rfl rfl rfl rfl rfl rfl)

theorem State.recordReset_keeps (s : State) (cause fatal : Nat) :
    Keeps s (State.recordReset s cause fatal) := by
  unfold State.recordReset
  extract_lets _ s1 s2
  have hs1 : Keeps s s1 := by
    unfold s1
    repeat' first
      | (with_reducible first
          | assumption
          | exact .refl _
          | apply Keeps.ite
          | apply Keeps.after (State.setFld_keeps ..))
  have hs2 : Keeps s s2 := by
    unfold s2
    repeat' first
      | (with_reducible first
          | assumption
          | exact .refl _
          | apply Keeps.ite
          | apply Keeps.after (State.setFld_keeps ..))
  repeat' first
    | (with_reducible first
        | assumption
        | exact .refl _
        | apply Keeps.ite
        | apply Keeps.after (State.setFld_keeps ..)
        | apply Keeps.after (State.satFld_keeps ..))

theorem State.chipReset_keeps (s : State) (cause fatal : Nat) : Keeps s (State.chipReset s cause fatal) := by
  unfold State.chipReset
  extract_lets s1 _ _ _ s2 _ _ _ _ _ _ s3 s4
  have h1 : Keeps s s1 := (State.recordReset_keeps ..).trans (State.releaseRole_keeps ..)
  have h3 : Keeps s s3 :=
    ⟨⟨⟨h1.queue, fun i => ⟨Tab.wf_filter _ (h1.inv i).regs, Nat.zero_le _, Nat.zero_le _, Nat.zero_le _⟩, h1.revoked, h1.floor⟩,
      h1.straps⟩, h1.now, .inr rfl⟩
  exact ((h3.trans (State.setFld_keeps ..)).trans (State.setFld_keeps ..)).trans (State.setFld_keeps ..)

theorem State.clockSet_keeps (s : State) (dom i : Nat) (on : Bool) :
    Keeps s (State.clockSet s dom i on) := by
  unfold State.clockSet
  extract_lets _ _
  repeat' first
    | (with_reducible first
        | assumption
        | exact .refl _
        | apply Keeps.ite
        | apply Keeps.after (State.setFld_keeps ..)
        | apply Keeps.after (State.raise_keeps ..))

theorem State.cluEnter_keeps (s : State) (k st : Nat) (cause : Nat) :
    Keeps s (State.cluEnter s k st cause) := by
  unfold State.cluEnter
  repeat' first
    | (with_reducible first
        | assumption
        | exact .refl _
        | apply Keeps.ite
        | apply Keeps.ite2
        | apply Keeps.ite1
        | apply Keeps.after (State.setFld_keeps ..)
        | apply Keeps.after (State.senderReset_keeps ..)
        | fail_if_no_progress refine Keeps.mk' ?_ rfl rfl rfl rfl rfl rfl
        | apply Keeps.foldl
        | apply Keeps.foldlPair)
    | split
    | intro _
    | extract_lets
    | (dsimp +zetaDelta only; split)

theorem State.cluWant_keeps (s : State) (k st step : Nat) :
    Keeps s (State.cluWant s k st step) := by
  unfold State.cluWant
  repeat' first
    | (with_reducible first
        | assumption
        | exact .refl _
        | apply Keeps.ite
        | apply Keeps.ite2
        | apply Keeps.ite1
        | fail_if_no_progress refine Keeps.mk' ?_ rfl rfl rfl rfl rfl rfl
        | apply Keeps.foldl
        | apply Keeps.foldlPair)
    | split
    | intro _
    | extract_lets
    | (dsimp +zetaDelta only; split)

theorem State.cluCheck_keeps (s : State) (k : Nat) : Keeps s (State.cluCheck s k) :=
  (State.cluEnter_keeps ..).trans (State.satFld_keeps ..)

end Sys2Proof.Machine
end

