-- ==== Sys2Proof/Laws/KeepDrive.lean ====
section
/-!
SUPPORT. What the operations of Machine/Drive.lean keep (Laws/Keep.lean).
-/

namespace Sys2Proof.Machine

open Sys2Proof

theorem State.setBay_keeps (s : State) (b : Nat) (x : Bay) :
    Keeps s (State.setBay s b x) := by
  unfold State.setBay
  extract_lets _
  repeat' first
    | (with_reducible first
        | assumption
        | exact .refl _
        | apply Keeps.ite
        | fail_if_no_progress refine Keeps.mk' ?_ rfl rfl rfl rfl rfl rfl)

theorem State.updBay_keeps (s : State) (b : Nat) (f : Bay → Bay) :
    Keeps s (State.updBay s b f) := by
  unfold State.updBay
  repeat' first
    | (with_reducible first
        | assumption
        | exact .refl _
        | apply Keeps.ite
        | apply Keeps.after (State.setBay_keeps ..))

theorem State.setBayState_keeps (s : State) (b st : Nat) :
    Keeps s (State.setBayState s b st) := by
  unfold State.setBayState
  repeat' first
    | (with_reducible first
        | assumption
        | exact .refl _
        | apply Keeps.ite
        | apply Keeps.after (State.setFld_keeps ..))

theorem State.bayWant_keeps (s : State) (b : Nat) (n : BayNext) :
    Keeps s (State.bayWant s b n) := by
  unfold State.bayWant
  repeat' first
    | (with_reducible first
        | assumption
        | exact .refl _
        | apply Keeps.ite
        | apply Keeps.after (State.updBay_keeps ..))

theorem State.setCmd_keeps (s : State) (t : Nat) (c : Option DrvCmd) :
    Keeps s (State.setCmd s t c) := by
  unfold State.setCmd
  extract_lets _
  repeat' first
    | (with_reducible first
        | assumption
        | exact .refl _
        | apply Keeps.ite
        | fail_if_no_progress refine Keeps.mk' ?_ rfl rfl rfl rfl rfl rfl)

theorem State.freeTag_keeps (s : State) (t : Nat) :
    Keeps s (State.freeTag s t) := by
  unfold State.freeTag
  repeat' first
    | (with_reducible first
        | assumption
        | exact .refl _
        | apply Keeps.ite
        | apply Keeps.after (State.setCmd_keeps ..))

theorem State.drvEntry_keeps (s : State) (t status crd : Nat) (dnr : Bool) :
    Keeps s (State.drvEntry s t status crd dnr) := by
  unfold State.drvEntry
  repeat' first
    | (with_reducible first
        | assumption
        | exact .refl _
        | apply Keeps.ite
        | apply Keeps.after (State.entry_keeps ..))

theorem State.wakeRef_keeps (s : State) (r : Ref) :
    Keeps s (State.wakeRef s r) := by
  exact State.wakeItems_keeps ..

theorem State.latch_keeps (s : State) (t : Nat) (c : DrvCmd) (status crd : Nat) (dnr : Bool) :
    Keeps s (State.latch s t c status crd dnr) := by
  unfold State.latch
  extract_lets s1
  have hs1 : Keeps s s1 := by
    unfold s1
    repeat' first
      | (with_reducible first
          | assumption
          | exact .refl _
          | apply Keeps.ite
          | apply Keeps.after (State.setCmd_keeps ..)
          | apply Keeps.after (State.drvEntry_keeps ..))
  repeat' first
    | (with_reducible first
        | assumption
        | exact .refl _
        | apply Keeps.ite
        | apply Keeps.after (State.setCmd_keeps ..)
        | apply Keeps.after (State.drvEntry_keeps ..)
        | apply Keeps.after (State.wakeRef_keeps ..))

theorem State.endAll_keeps (s : State) (b : Nat) :
    Keeps s (State.endAll s b) := by
  unfold State.endAll
  repeat' first
    | (with_reducible first
        | assumption
        | exact .refl _
        | apply Keeps.ite
        | apply Keeps.ite2
        | apply Keeps.ite1
        | apply Keeps.after (State.cntDrv_keeps ..)
        | apply Keeps.after (State.latch_keeps ..)
        | fail_if_no_progress refine Keeps.mk' ?_ rfl rfl rfl rfl rfl rfl
        | apply Keeps.foldl
        | apply Keeps.foldlPair)
    | intro _

theorem State.cutLink_keeps (s : State) (b : Nat) :
    Keeps s (State.cutLink s b) := by
  unfold State.cutLink
  repeat' first
    | (with_reducible first
        | assumption
        | exact .refl _
        | apply Keeps.ite
        | apply Keeps.ite2
        | apply Keeps.ite1
        | apply Keeps.after (State.updBay_keeps ..)
        | apply Keeps.after (State.setFld_keeps ..)
        | apply Keeps.after (State.senderReset_keeps ..)
        | fail_if_no_progress refine Keeps.mk' ?_ rfl rfl rfl rfl rfl rfl
        | apply Keeps.foldl
        | apply Keeps.foldlPair)
    | split
    | intro _
    | extract_lets
    | (dsimp +zetaDelta only; split)

theorem State.containNow_keeps (s : State) (b : Nat) :
    Keeps s (State.containNow s b) := by
  unfold State.containNow
  repeat' first
    | (with_reducible first
        | assumption
        | exact .refl _
        | apply Keeps.ite
        | apply Keeps.ite2
        | apply Keeps.ite1
        | apply Keeps.after (State.cutLink_keeps ..)
        | apply Keeps.after (State.cntDrv_keeps ..)
        | fail_if_no_progress refine Keeps.mk' ?_ rfl rfl rfl rfl rfl rfl
        | apply Keeps.foldl
        | apply Keeps.foldlPair)
    | split
    | intro _
    | extract_lets
    | (dsimp +zetaDelta only; split)

theorem State.contain_keeps (s : State) (b cause : Nat) :
    Keeps s (State.contain s b cause) := by
  unfold State.contain
  repeat' first
    | (with_reducible first
        | assumption
        | exact .refl _
        | apply Keeps.ite
        | apply Keeps.ite2
        | apply Keeps.ite1
        | apply Keeps.after (State.bayWant_keeps ..)
        | apply Keeps.after (State.containNow_keeps ..)
        | fail_if_no_progress refine Keeps.mk' ?_ rfl rfl rfl rfl rfl rfl
        | apply Keeps.foldl
        | apply Keeps.foldlPair)
    | split
    | intro _
    | extract_lets
    | (dsimp +zetaDelta only; split)

theorem execContainmentTrigger_keeps (b : Fin 128) (cause : Fin 7) (ref : Bool) (s : State) :
    OKeeps s (execContainmentTrigger b cause ref s) := by
  unfold execContainmentTrigger
  extract_lets _ s1
  have hs1 : Keeps s s1 := by
    unfold s1
    repeat' first
      | (with_reducible first
          | assumption
          | exact .refl _
          | apply OKeeps.next
          | apply OKeeps.ite
          | apply Keeps.ite
          | apply Keeps.after (State.cntDrv_keeps ..)
          | apply Keeps.after (State.clockSet_keeps ..))
  repeat' first
    | (with_reducible first
        | assumption
        | exact .refl _
        | apply OKeeps.next
        | apply OKeeps.ite
        | apply Keeps.ite
        | apply Keeps.after (State.cntDrv_keeps ..)
        | apply Keeps.after (State.clockSet_keeps ..)
        | apply Keeps.after (State.bayWant_keeps ..)
        | apply Keeps.after (State.contain_keeps ..))

theorem execContainmentRelease_keeps (b : Fin 128) (s : State) :
    OKeeps s (execContainmentRelease b s) := by
  unfold execContainmentRelease
  repeat' first
    | (with_reducible first
        | assumption
        | exact .refl _
        | apply OKeeps.next
        | apply OKeeps.ite
        | apply Keeps.ite
        | apply Keeps.after (State.updBay_keeps ..))

theorem State.trainFail_keeps (s : State) (b : Nat) :
    Keeps s (State.trainFail s b) := by
  unfold State.trainFail
  extract_lets _ s1
  have hs1 : Keeps s s1 := by
    unfold s1
    repeat' first
      | (with_reducible first
          | assumption
          | exact .refl _
          | apply Keeps.ite
          | apply Keeps.after (State.cntDrv_keeps ..)
          | apply Keeps.after (State.updBay_keeps ..))
  repeat' first
    | (with_reducible first
        | assumption
        | exact .refl _
        | apply Keeps.ite
        | apply Keeps.after (State.cntDrv_keeps ..)
        | apply Keeps.after (State.updBay_keeps ..)
        | apply Keeps.after (State.bayWant_keeps ..))

theorem execBayTrainingFail_keeps (b : Fin 128) (s : State) :
    OKeeps s (execBayTrainingFail b s) := by
  unfold execBayTrainingFail
  repeat' first
    | (with_reducible first
        | assumption
        | exact .refl _
        | apply OKeeps.next
        | apply OKeeps.ite
        | apply Keeps.ite
        | apply Keeps.after (State.trainFail_keeps ..))

theorem execPerstRetryRelease_keeps (b : Fin 128) (s : State) :
    OKeeps s (execPerstRetryRelease b s) := by
  unfold execPerstRetryRelease
  repeat' first
    | (with_reducible first
        | assumption
        | exact .refl _
        | apply OKeeps.next
        | apply OKeeps.ite
        | apply Keeps.ite
        | apply Keeps.after (State.updBay_keeps ..))

theorem execBayPerstRelease_keeps (b : Fin 128) (s : State) :
    OKeeps s (execBayPerstRelease b s) := by
  unfold execBayPerstRelease
  extract_lets _
  repeat' first
    | (with_reducible first
        | assumption
        | exact .refl _
        | apply OKeeps.next
        | apply OKeeps.ite
        | apply Keeps.ite
        | apply Keeps.after (State.updBay_keeps ..))

theorem State.linkSet_keeps (s : State) (b rate width : Nat) :
    Keeps s (State.linkSet s b rate width) := by
  unfold State.linkSet
  extract_lets _ _ s1
  have hs1 : Keeps s s1 := by
    unfold s1
    repeat' first
      | (with_reducible first
          | assumption
          | exact .refl _
          | apply Keeps.ite
          | apply Keeps.after (State.setFld_keeps ..))
  repeat' first
    | (with_reducible first
        | assumption
        | exact .refl _
        | apply Keeps.ite
        | apply Keeps.after (State.setFld_keeps ..)
        | apply Keeps.after (State.raise_keeps ..))

theorem execBayLinkUp_keeps (b : Fin 128) (rate width : Fin 16) (flit : Bool) (s : State) :
    OKeeps s (execBayLinkUp b rate width flit s) := by
  unfold execBayLinkUp
  repeat' first
    | (with_reducible first
        | assumption
        | exact .refl _
        | apply OKeeps.next
        | apply OKeeps.ite
        | apply Keeps.ite
        | apply Keeps.after (State.setFld_keeps ..)
        | apply Keeps.after (State.updBay_keeps ..)
        | apply Keeps.after (State.trainFail_keeps ..)
        | apply Keeps.after (State.linkSet_keeps ..))

theorem execLinkRateChange_keeps (b : Fin 128) (rate width : Fin 16) (s : State) :
    OKeeps s (execLinkRateChange b rate width s) := by
  unfold execLinkRateChange
  extract_lets _ s1
  have hs1 : Keeps s s1 := by
    unfold s1
    repeat' first
      | (with_reducible first
          | assumption
          | exact .refl _
          | apply OKeeps.next
          | apply OKeeps.ite
          | apply Keeps.ite
          | apply Keeps.after (State.cntDrv_keeps ..))
  repeat' first
    | (with_reducible first
        | assumption
        | exact .refl _
        | apply OKeeps.next
        | apply OKeeps.ite
        | apply Keeps.ite
        | apply Keeps.after (State.cntDrv_keeps ..)
        | apply Keeps.after (State.contain_keeps ..)
        | apply Keeps.after (State.linkSet_keeps ..))

theorem execFirstConfigRequest_keeps (b : Fin 128) (s : State) :
    OKeeps s (execFirstConfigRequest b s) := by
  unfold execFirstConfigRequest
  repeat' first
    | (with_reducible first
        | assumption
        | exact .refl _
        | apply OKeeps.next
        | apply OKeeps.ite
        | apply Keeps.ite
        | apply Keeps.after (State.updBay_keeps ..))

theorem execBayConfigComplete_keeps (b : Fin 128) (capTo : Fin 256) (s : State) :
    OKeeps s (execBayConfigComplete b capTo s) := by
  unfold execBayConfigComplete
  extract_lets s1
  have hs1 : Keeps s s1 := by
    unfold s1
    repeat' first
      | (with_reducible first
          | assumption
          | exact .refl _
          | apply OKeeps.next
          | apply OKeeps.ite
          | apply Keeps.ite
          | apply Keeps.after (State.updBay_keeps ..))
  repeat' first
    | (with_reducible first
        | assumption
        | exact .refl _
        | apply OKeeps.next
        | apply OKeeps.ite
        | apply Keeps.ite
        | apply Keeps.after (State.updBay_keeps ..)
        | apply Keeps.after (State.bayWant_keeps ..))

theorem execBayControllerReady_keeps (b : Fin 128) (s : State) :
    OKeeps s (execBayControllerReady b s) := by
  unfold execBayControllerReady
  repeat' first
    | (with_reducible first
        | assumption
        | exact .refl _
        | apply OKeeps.next
        | apply OKeeps.ite
        | apply Keeps.ite
        | apply Keeps.after (State.updBay_keeps ..))

theorem execBayInitComplete_keeps (b : Fin 128) (r : DriveReport) (s : State) :
    OKeeps s (execBayInitComplete b r s) := by
  unfold execBayInitComplete
  extract_lets _ _ _ _ s1 s2 _
  have hs1 : Keeps s s1 := by
    unfold s1
    repeat' first
      | (with_reducible first
          | assumption
          | exact .refl _
          | apply OKeeps.next
          | apply OKeeps.ite
          | apply Keeps.ite
          | apply Keeps.after (State.setFld_keeps ..))
  have hs2 : Keeps s s2 := by
    unfold s2
    repeat' first
      | (with_reducible first
          | assumption
          | exact .refl _
          | apply OKeeps.next
          | apply OKeeps.ite
          | apply Keeps.ite
          | apply Keeps.after (State.setFld_keeps ..))
  repeat' first
    | (with_reducible first
        | assumption
        | exact .refl _
        | apply OKeeps.next
        | apply OKeeps.ite
        | apply Keeps.ite
        | apply Keeps.after (State.setFld_keeps ..)
        | apply Keeps.after (State.updBay_keeps ..)
        | apply Keeps.after (State.bayWant_keeps ..))

theorem execBringupStepTimeout_keeps (b : Fin 128) (s : State) :
    OKeeps s (execBringupStepTimeout b s) := by
  unfold execBringupStepTimeout
  repeat' first
    | (with_reducible first
        | assumption
        | exact .refl _
        | apply OKeeps.next
        | apply OKeeps.ite
        | apply Keeps.ite
        | apply Keeps.after (State.bayWant_keeps ..)
        | apply Keeps.after (State.trainFail_keeps ..))

theorem execRecoverTimeout_keeps (b : Fin 128) (s : State) :
    OKeeps s (execRecoverTimeout b s) := by
  unfold execRecoverTimeout
  repeat' first
    | (with_reducible first
        | assumption
        | exact .refl _
        | apply OKeeps.next
        | apply OKeeps.ite
        | apply Keeps.ite
        | apply Keeps.after (State.bayWant_keeps ..))

theorem State.driveStatus_keeps (s : State) (c : DrvCmd) (status : Nat) (dnr : Bool) :
    Keeps s (State.driveStatus s c status dnr) := by
  unfold State.driveStatus
  repeat' first
    | (with_reducible first
        | assumption
        | exact .refl _
        | apply Keeps.ite
        | apply Keeps.after (State.satFld_keeps ..)
        | apply Keeps.after (State.acc_keeps ..)
        | apply Keeps.after (State.cntDrv_keeps ..)
        | apply Keeps.after (State.bayWant_keeps ..))

theorem State.cplCycles_keeps (s : State) (b : Nat) (c : DrvCmd) :
    Keeps s (State.cplCycles s b c) := by
  unfold State.cplCycles
  repeat' first
    | (with_reducible first
        | assumption
        | exact .refl _
        | apply Keeps.ite
        | apply Keeps.after (State.acc_keeps ..)
        | refine Keeps.trans ?_ (.pair (by assumption) (State.draw_keeps ..))
        | apply Keeps.after (State.draw_keeps ..))

theorem State.driveCompletion_keeps (s : State) (b q cid : Nat) (phase : Bool) (status crd : Nat) (dnr : Bool) :
    Keeps s (State.driveCompletion s b q cid phase status crd dnr) := by
  unfold State.driveCompletion
  extract_lets v1 v2 v3 s1
  have hs1 : Keeps s s1 := by
    unfold s1
    repeat' first
      | (with_reducible first
          | assumption
          | exact .refl _
          | apply Keeps.ite
          | apply Keeps.after (State.cntDrv_keeps ..)
          | apply Keeps.after (State.updBay_keeps ..))
  repeat' first
    | (with_reducible first
        | assumption
        | exact .refl _
        | apply Keeps.ite
        | apply Keeps.after (State.cntDrv_keeps ..)
        | apply Keeps.after (State.updBay_keeps ..)
        | apply Keeps.after (State.latch_keeps ..)
        | apply Keeps.after (State.contain_keeps ..)
        | apply Keeps.after (State.driveStatus_keeps ..)
        | apply Keeps.after (State.cplCycles_keeps ..)
        | fail_if_no_progress refine Keeps.mk' ?_ rfl rfl rfl rfl rfl rfl)
    | split

theorem execDriveCompletion_keeps (b : Fin 128) (q : Fin 64) (cid : Fin 65536) (phase : Bool) (sct : Fin 8) (sc : Fin 256) (crd : Fin 4) (dnr : Bool) (s : State) :
    OKeeps s (execDriveCompletion b q cid phase sct sc crd dnr s) := by
  unfold execDriveCompletion
  repeat' first
    | (with_reducible first
        | assumption
        | exact .refl _
        | apply OKeeps.next
        | apply OKeeps.ite
        | apply Keeps.ite
        | apply Keeps.after (State.driveCompletion_keeps ..))

theorem execDriveCommandTimeout_keeps (t : Fin 65536) (s : State) :
    OKeeps s (execDriveCommandTimeout t s) := by
  unfold execDriveCommandTimeout
  repeat' first
    | (with_reducible first
        | assumption
        | exact .refl _
        | apply OKeeps.next
        | apply OKeeps.ite
        | apply Keeps.ite
        | apply Keeps.after (State.satFld_keeps ..)
        | apply Keeps.after (State.acc_keeps ..)
        | apply Keeps.after (State.cntDrv_keeps ..)
        | apply Keeps.after (State.emitNet_keeps ..)
        | apply Keeps.after (State.setCmd_keeps ..)
        | fail_if_no_progress refine Keeps.mk' ?_ rfl rfl rfl rfl rfl rfl)
    | split

theorem execDriveAbortTimeout_keeps (t : Fin 65536) (s : State) :
    OKeeps s (execDriveAbortTimeout t s) := by
  unfold execDriveAbortTimeout
  repeat' first
    | (with_reducible first
        | assumption
        | exact .refl _
        | apply OKeeps.next
        | apply OKeeps.ite
        | apply Keeps.ite
        | apply Keeps.after (State.contain_keeps ..)
        | fail_if_no_progress refine Keeps.mk' ?_ rfl rfl rfl rfl rfl rfl)
    | split

theorem State.driveDma_keeps (s : State) (b addr : Nat) (write : Bool) (data : List Byte) (len : Nat) :
    Keeps s (State.driveDma s b addr write data len) := by
  unfold State.driveDma
  extract_lets v1 s1 v2 v3 v4 v5 v6
  have hs1 : Keeps s s1 := by
    unfold s1
    repeat' first
      | (with_reducible first
          | assumption
          | exact .refl _
          | apply Keeps.ite
          | apply Keeps.after (State.cntDrv_keeps ..)
          | apply Keeps.after (State.emit_keeps ..)
          | apply Keeps.after (State.violation_keeps ..)
          | apply Keeps.after (State.bayWant_keeps ..)
          | apply Keeps.after (State.setCmd_keeps ..)
          | apply Keeps.after (State.contain_keeps ..))
  repeat' first
    | (with_reducible first
        | assumption
        | exact .refl _
        | apply Keeps.ite
        | apply Keeps.after (State.cntDrv_keeps ..)
        | apply Keeps.after (State.emit_keeps ..)
        | apply Keeps.after (State.violation_keeps ..)
        | apply Keeps.after (State.bayWant_keeps ..)
        | apply Keeps.after (State.setCmd_keeps ..)
        | apply Keeps.after (State.contain_keeps ..)
        | fail_if_no_progress refine Keeps.mk' ?_ rfl rfl rfl rfl rfl rfl)
    | split

theorem execDriveDmaAccess_keeps (b : Fin 128) (addr : BitVec 64) (write : Bool) (data : List Byte) (len : Fin 4097) (s : State) :
    OKeeps s (execDriveDmaAccess b addr write data len s) := by
  unfold execDriveDmaAccess
  repeat' first
    | (with_reducible first
        | assumption
        | exact .refl _
        | apply OKeeps.next
        | apply OKeeps.ite
        | apply Keeps.ite
        | apply Keeps.after (State.driveDma_keeps ..))

theorem State.retryPermitted_keeps (s : State) (p : Nat) :
    Keeps s (State.retryPermitted s p) := by
  unfold State.retryPermitted
  repeat' first
    | (with_reducible first
        | assumption
        | exact .refl _
        | apply Keeps.ite
        | apply Keeps.after (State.updPool_keeps ..))

theorem execWriteRetryPermitted_keeps (p : Fin 16) (s : State) :
    OKeeps s (execWriteRetryPermitted p s) := by
  unfold execWriteRetryPermitted
  repeat' first
    | (with_reducible first
        | assumption
        | exact .refl _
        | apply OKeeps.next
        | apply OKeeps.ite
        | apply Keeps.ite
        | apply Keeps.after (State.retryPermitted_keeps ..))

theorem execSmartPoll_keeps (b : Fin 128) (warning : BitVec 8) (temp : Fin 65536) (s : State) :
    OKeeps s (execSmartPoll b warning temp s) := by
  unfold execSmartPoll
  extract_lets _ _ s1
  have hs1 : Keeps s s1 := by
    unfold s1
    repeat' first
      | (with_reducible first
          | assumption
          | exact .refl _
          | apply OKeeps.next
          | apply OKeeps.ite
          | apply Keeps.ite
          | apply Keeps.after (State.raise_keeps ..)
          | apply Keeps.after (State.updBay_keeps ..))
  repeat' first
    | (with_reducible first
        | assumption
        | exact .refl _
        | apply OKeeps.next
        | apply OKeeps.ite
        | apply Keeps.ite
        | apply Keeps.after (State.raise_keeps ..)
        | apply Keeps.after (State.updBay_keeps ..)
        | apply Keeps.after (State.bayWant_keeps ..))

theorem State.bayPowerGood_keeps (s : State) (b : Nat) :
    Keeps s (State.bayPowerGood s b) := by
  unfold State.bayPowerGood
  repeat' first
    | (with_reducible first
        | assumption
        | exact .refl _
        | apply Keeps.ite
        | apply Keeps.after (State.updBay_keeps ..))

theorem State.bayGateOff_keeps (s : State) (b cause : Nat) :
    Keeps s (State.bayGateOff s b cause) := by
  unfold State.bayGateOff
  repeat' first
    | (with_reducible first
        | assumption
        | exact .refl _
        | apply Keeps.ite
        | apply Keeps.ite2
        | apply Keeps.ite1
        | apply Keeps.after (State.updBay_keeps ..)
        | apply Keeps.after (State.bayWant_keeps ..)
        | apply Keeps.after (State.cutLink_keeps ..)
        | apply Keeps.after (State.containNow_keeps ..)
        | apply Keeps.after (State.contain_keeps ..)
        | fail_if_no_progress refine Keeps.mk' ?_ rfl rfl rfl rfl rfl rfl
        | apply Keeps.foldl
        | apply Keeps.foldlPair)
    | split
    | intro _
    | extract_lets
    | (dsimp +zetaDelta only; split)

theorem State.declareFailed_keeps (s : State) (b : Nat) :
    Keeps s (State.declareFailed s b) := by
  unfold State.declareFailed
  repeat' first
    | (with_reducible first
        | assumption
        | exact .refl _
        | apply Keeps.ite
        | apply Keeps.after (State.updPool_keeps ..)
        | apply Keeps.after (State.changes_keeps ..)
        | fail_if_no_progress refine Keeps.mk' ?_ rfl rfl rfl rfl rfl rfl)
    | split

theorem State.bayFails_keeps (s : State) (b reason : Nat) :
    Keeps s (State.bayFails s b reason) := by
  unfold State.bayFails
  extract_lets _ s1 s2
  have hs1 : Keeps s s1 := by
    unfold s1
    repeat' first
      | (with_reducible first
          | assumption
          | exact .refl _
          | apply Keeps.ite
          | apply Keeps.after (State.setFld_keeps ..)
          | apply Keeps.after (State.raise_keeps ..)
          | apply Keeps.after (State.updBay_keeps ..)
          | apply Keeps.after (State.setBayState_keeps ..)
          | apply Keeps.after (State.endAll_keeps ..)
          | apply Keeps.after (State.cutLink_keeps ..))
  have hs2 : Keeps s s2 := by
    unfold s2
    repeat' first
      | (with_reducible first
          | assumption
          | exact .refl _
          | apply Keeps.ite
          | apply Keeps.after (State.setFld_keeps ..)
          | apply Keeps.after (State.raise_keeps ..)
          | apply Keeps.after (State.updBay_keeps ..)
          | apply Keeps.after (State.setBayState_keeps ..))
  repeat' first
    | (with_reducible first
        | assumption
        | exact .refl _
        | apply Keeps.ite
        | apply Keeps.after (State.setFld_keeps ..)
        | apply Keeps.after (State.raise_keeps ..)
        | apply Keeps.after (State.updBay_keeps ..)
        | apply Keeps.after (State.setBayState_keeps ..)
        | apply Keeps.after (State.endAll_keeps ..)
        | apply Keeps.after (State.cutLink_keeps ..)
        | apply Keeps.after (State.declareFailed_keeps ..))

theorem State.bayGoes_keeps (s : State) (b reason : Nat) :
    Keeps s (State.bayGoes s b reason) := by
  unfold State.bayGoes
  repeat' first
    | (with_reducible first
        | assumption
        | exact .refl _
        | apply Keeps.ite
        | apply Keeps.ite2
        | apply Keeps.ite1
        | apply Keeps.after (State.updBay_keeps ..)
        | apply Keeps.after (State.setBayState_keeps ..)
        | apply Keeps.after (State.endAll_keeps ..)
        | apply Keeps.after (State.cutLink_keeps ..)
        | apply Keeps.after (State.declareFailed_keeps ..)
        | apply Keeps.after (State.setFld_keeps ..)
        | apply Keeps.after (State.raise_keeps ..)
        | fail_if_no_progress refine Keeps.mk' ?_ rfl rfl rfl rfl rfl rfl
        | apply Keeps.foldl
        | apply Keeps.foldlPair)
    | split
    | intro _
    | extract_lets
    | (dsimp +zetaDelta only; split)

theorem State.bayLinks_keeps (s : State) (b : Nat) :
    Keeps s (State.bayLinks s b) := by
  unfold State.bayLinks
  repeat' first
    | (with_reducible first
        | assumption
        | exact .refl _
        | apply Keeps.ite
        | apply Keeps.after (State.updBay_keeps ..)
        | apply Keeps.after (State.setBayState_keeps ..))

theorem State.bayRecovers_keeps (s : State) (b cause : Nat) :
    Keeps s (State.bayRecovers s b cause) := by
  unfold State.bayRecovers
  extract_lets _ _ s1 s2
  have hs1 : Keeps s s1 := by
    unfold s1
    repeat' first
      | (with_reducible first
          | assumption
          | exact .refl _
          | apply Keeps.ite
          | apply Keeps.after (State.cntDrv_keeps ..)
          | apply Keeps.after (State.raise_keeps ..)
          | apply Keeps.after (State.updBay_keeps ..)
          | apply Keeps.after (State.setBayState_keeps ..)
          | apply Keeps.after (State.endAll_keeps ..))
  have hs2 : Keeps s s2 := by
    unfold s2
    repeat' first
      | (with_reducible first
          | assumption
          | exact .refl _
          | apply Keeps.ite
          | apply Keeps.after (State.cntDrv_keeps ..)
          | apply Keeps.after (State.raise_keeps ..)
          | apply Keeps.after (State.updBay_keeps ..))
  repeat' first
    | (with_reducible first
        | assumption
        | exact .refl _
        | apply Keeps.ite
        | apply Keeps.after (State.cntDrv_keeps ..)
        | apply Keeps.after (State.raise_keeps ..)
        | apply Keeps.after (State.updBay_keeps ..)
        | apply Keeps.after (State.setBayState_keeps ..)
        | apply Keeps.after (State.endAll_keeps ..)
        | apply Keeps.after (State.bayFails_keeps ..))

theorem State.drvRegister_keeps (s : State) (b : Nat) :
    Keeps s (State.drvRegister s b) := by
  unfold State.drvRegister
  repeat' first
    | (with_reducible first
        | assumption
        | exact .refl _
        | apply Keeps.ite
        | apply Keeps.ite2
        | apply Keeps.ite1
        | apply Keeps.after (State.emit_keeps ..)
        | fail_if_no_progress refine Keeps.mk' ?_ rfl rfl rfl rfl rfl rfl
        | apply Keeps.foldl
        | apply Keeps.foldlPair)
    | split
    | intro _
    | extract_lets
    | (dsimp +zetaDelta only; split)

theorem State.baySeam_keeps (s : State) (b : Nat) :
    Keeps s (State.baySeam s b) := by
  unfold State.baySeam
  repeat' first
    | (with_reducible first
        | assumption
        | exact .refl _
        | apply Keeps.ite
        | apply Keeps.ite2
        | apply Keeps.ite1
        | apply Keeps.after (State.updBay_keeps ..)
        | apply Keeps.after (State.setBayState_keeps ..)
        | apply Keeps.after (State.bayFails_keeps ..)
        | apply Keeps.after (State.bayGoes_keeps ..)
        | apply Keeps.after (State.bayLinks_keeps ..)
        | apply Keeps.after (State.bayRecovers_keeps ..)
        | apply Keeps.after (State.drvRegister_keeps ..)
        | apply Keeps.after (State.setFld_keeps ..)
        | apply Keeps.after (State.emit_keeps ..)
        | apply Keeps.after (State.raise_keeps ..)
        | fail_if_no_progress refine Keeps.mk' ?_ rfl rfl rfl rfl rfl rfl
        | apply Keeps.foldl
        | apply Keeps.foldlPair)
    | split
    | intro _
    | extract_lets
    | (dsimp +zetaDelta only; split)

theorem State.driveSeam_keeps (s : State) :
    Keeps s (State.driveSeam s) := by
  unfold State.driveSeam
  repeat' first
    | (with_reducible first
        | assumption
        | exact .refl _
        | apply Keeps.ite
        | apply Keeps.after (State.baySeam_keeps ..)
        | fail_if_no_progress refine Keeps.mk' ?_ rfl rfl rfl rfl rfl rfl
        | apply Keeps.foldl
        | apply Keeps.foldlPair)
    | intro _

end Sys2Proof.Machine
end

