-- ==== Sys2Proof/Laws/KeepMaint.lean ====
section
/-!
SUPPORT. What the operations of Machine/Maint.lean keep (Laws/Keep.lean).
-/

namespace Sys2Proof.Machine

open Sys2Proof

theorem State.writeLabels_keeps (s : State) (p : Nat) :
    Keeps s (State.writeLabels s p) := by
  unfold State.writeLabels
  extract_lets _
  repeat' first
    | (with_reducible first
        | assumption
        | exact .refl _
        | apply Keeps.ite
        | apply Keeps.after (State.emitNet_keeps ..)
        | apply Keeps.after (State.present_keeps ..)
        | fail_if_no_progress refine Keeps.mk' ?_ rfl rfl rfl rfl rfl rfl
        | apply Keeps.foldl
        | apply Keeps.foldlPair)
    | intro _

theorem State.wantMark_keeps (s : State) (p st cause : Nat) :
    Keeps s (State.wantMark s p st cause) := by
  unfold State.wantMark
  repeat' first
    | (with_reducible first
        | assumption
        | exact .refl _
        | apply Keeps.ite
        | apply Keeps.ite1
        | apply Keeps.after (State.updPool_keeps ..))

theorem State.markLost_keeps (s : State) (p st cause : Nat) :
    Keeps s (State.markLost s p st cause) := by
  unfold State.markLost
  extract_lets v1 v2 s1 v3 s2 s3 v4 v5 s4
  have hs1 : Keeps s s1 := by
    unfold s1
    repeat' first
      | (with_reducible first
          | assumption
          | exact .refl _
          | apply Keeps.ite
          | apply Keeps.after (State.setFld_keeps ..)
          | apply Keeps.after (State.cntMnt_keeps ..)
          | apply Keeps.after (State.raise_keeps ..)
          | apply Keeps.after (State.updPool_keeps ..))
  have hs2 : Keeps s s2 := by
    unfold s2
    repeat' first
      | (with_reducible first
          | assumption
          | exact .refl _
          | apply Keeps.ite
          | apply Keeps.after (State.setFld_keeps ..)
          | apply Keeps.after (State.cntMnt_keeps ..))
  have hs3 : Keeps s s3 := by
    unfold s3
    repeat' first
      | (with_reducible first
          | assumption
          | exact .refl _
          | apply Keeps.ite
          | apply Keeps.after (State.setFld_keeps ..)
          | apply Keeps.after (State.cntMnt_keeps ..))
  have hs4 : Keeps s s4 := by
    unfold s4
    repeat' first
      | (with_reducible first
          | assumption
          | exact .refl _
          | apply Keeps.ite
          | apply Keeps.after (State.setFld_keeps ..)
          | apply Keeps.after (State.cntMnt_keeps ..)
          | apply Keeps.after (State.raise_keeps ..)
          | apply Keeps.after (State.updPool_keeps ..))
  repeat' first
    | (with_reducible first
        | assumption
        | exact .refl _
        | apply Keeps.ite
        | apply Keeps.after (State.setFld_keeps ..)
        | apply Keeps.after (State.cntMnt_keeps ..)
        | apply Keeps.after (State.raise_keeps ..)
        | apply Keeps.after (State.updPool_keeps ..)
        | apply Keeps.after (State.reliability_keeps ..)
        | fail_if_no_progress refine Keeps.mk' ?_ rfl rfl rfl rfl rfl rfl)
    | split

theorem State.marksSeam_keeps (s : State) (p : Nat) :
    Keeps s (State.marksSeam s p) := by
  unfold State.marksSeam
  extract_lets _
  repeat' first
    | (with_reducible first
        | assumption
        | exact .refl _
        | apply Keeps.ite
        | apply Keeps.ite2
        | apply Keeps.ite1
        | apply Keeps.after (State.updPool_keeps ..)
        | apply Keeps.after (State.markLost_keeps ..)
        | fail_if_no_progress refine Keeps.mk' ?_ rfl rfl rfl rfl rfl rfl
        | apply Keeps.foldl
        | apply Keeps.foldlPair)
    | intro _

theorem State.slotsChanged_keeps (s : State) (p was : Nat) :
    Keeps s (State.slotsChanged s p was) := by
  unfold State.slotsChanged
  extract_lets _ s1 s2
  have hs1 : Keeps s s1 := by
    unfold s1
    repeat' first
      | (with_reducible first
          | assumption
          | exact .refl _
          | apply Keeps.ite
          | apply Keeps.after (State.raise_keeps ..)
          | apply Keeps.after (State.setPool_keeps ..))
  have hs2 : Keeps s s2 := by
    unfold s2
    repeat' first
      | (with_reducible first
          | assumption
          | exact .refl _
          | apply Keeps.ite
          | apply Keeps.after (State.raise_keeps ..)
          | apply Keeps.after (State.setPool_keeps ..)
          | apply Keeps.after (State.dirtyLimit_keeps ..)
          | apply Keeps.after (State.reliability_keeps ..)
          | apply Keeps.after (State.writeLabels_keeps ..))
  repeat' first
    | (with_reducible first
        | assumption
        | exact .refl _
        | apply Keeps.ite
        | apply Keeps.after (State.raise_keeps ..)
        | apply Keeps.after (State.setPool_keeps ..)
        | apply Keeps.after (State.dirtyLimit_keeps ..)
        | apply Keeps.after (State.reliability_keeps ..)
        | apply Keeps.after (State.writeLabels_keeps ..)
        | fail_if_no_progress refine Keeps.mk' ?_ rfl rfl rfl rfl rfl rfl
        | apply Keeps.foldl
        | apply Keeps.foldlPair)
    | intro _

theorem State.changesSeam_keeps (s : State) (p : Nat) :
    Keeps s (State.changesSeam s p) := by
  unfold State.changesSeam
  repeat' first
    | (with_reducible first
        | assumption
        | exact .refl _
        | apply Keeps.ite
        | apply Keeps.ite2
        | apply Keeps.ite1
        | apply Keeps.after (State.setPool_keeps ..)
        | apply Keeps.after (State.slotsChanged_keeps ..)
        | apply Keeps.after (State.emitNet_keeps ..)
        | apply Keeps.after (State.doneOpt_keeps ..)
        | apply Keeps.after (State.changes_keeps ..)
        | fail_if_no_progress refine Keeps.mk' ?_ rfl rfl rfl rfl rfl rfl
        | apply Keeps.foldl
        | apply Keeps.foldlPair)
    | split
    | intro _
    | extract_lets
    | (dsimp +zetaDelta only; split)

theorem State.settleSlots_keeps (s : State) (p : Nat) :
    Keeps s (State.settleSlots s p) := by
  unfold State.settleSlots
  extract_lets _ _
  repeat' first
    | (with_reducible first
        | assumption
        | exact .refl _
        | apply Keeps.ite
        | apply Keeps.after (State.setPool_keeps ..)
        | apply Keeps.after (State.slotsChanged_keeps ..))

theorem State.actProgress_keeps (s : State) (p : Nat) (a : Activity) :
    Keeps s (State.actProgress s p a) := by
  unfold State.actProgress
  extract_lets v1 v2 s1 v3
  have hs1 : Keeps s s1 := by
    unfold s1
    repeat' first
      | (with_reducible first
          | assumption
          | exact .refl _
          | apply Keeps.ite
          | apply Keeps.after (State.setPool_keeps ..))
  repeat' first
    | (with_reducible first
        | assumption
        | exact .refl _
        | apply Keeps.ite
        | apply Keeps.after (State.setPool_keeps ..)
        | apply Keeps.after (State.updPool_keeps ..))

theorem State.startAct_keeps (s : State) (p : Nat) (a : Activity) :
    Keeps s (State.startAct s p a) := by
  unfold State.startAct
  extract_lets _ _ _ _ _ s1
  have hs1 : Keeps s s1 := by
    unfold s1
    repeat' first
      | (with_reducible first
          | assumption
          | exact .refl _
          | apply Keeps.ite
          | apply Keeps.after (State.raise_keeps ..)
          | apply Keeps.after (State.setPool_keeps ..))
  repeat' first
    | (with_reducible first
        | assumption
        | exact .refl _
        | apply Keeps.ite
        | apply Keeps.after (State.raise_keeps ..))

theorem State.tryAct_keeps (s : State) (p id : Nat) :
    Keeps s (State.tryAct s p id) := by
  unfold State.tryAct
  extract_lets v1
  repeat' first
    | (with_reducible first
        | assumption
        | exact .refl _
        | apply Keeps.ite
        | apply Keeps.after (State.setPool_keeps ..)
        | apply Keeps.after (State.startAct_keeps ..)
        | fail_if_no_progress refine Keeps.mk' ?_ rfl rfl rfl rfl rfl rfl)
    | split

theorem State.answerStarts_keeps (s : State) (p : Nat) :
    Keeps s (State.answerStarts s p) := by
  unfold State.answerStarts
  extract_lets _
  repeat' first
    | (with_reducible first
        | assumption
        | exact .refl _
        | apply Keeps.ite
        | apply Keeps.after (State.doneOpt_keeps ..)
        | apply Keeps.after (State.updPool_keeps ..)
        | fail_if_no_progress refine Keeps.mk' ?_ rfl rfl rfl rfl rfl rfl
        | apply Keeps.foldl
        | apply Keeps.foldlPair)
    | intro _

theorem State.maintStarts_keeps (s : State) (p : Nat) :
    Keeps s (State.maintStarts s p) := by
  unfold State.maintStarts
  repeat' first
    | (with_reducible first
        | assumption
        | exact .refl _
        | apply Keeps.ite
        | apply Keeps.after (State.tryAct_keeps ..)
        | fail_if_no_progress refine Keeps.mk' ?_ rfl rfl rfl rfl rfl rfl
        | apply Keeps.foldl
        | apply Keeps.foldlPair)
    | intro _

theorem execMaintActivityStart_keeps (p : Fin 16) (s : State) :
    OKeeps s (execMaintActivityStart p s) := by
  unfold execMaintActivityStart
  repeat' first
    | (with_reducible first
        | assumption
        | exact .refl _
        | apply OKeeps.next
        | apply OKeeps.ite
        | apply Keeps.ite
        | apply Keeps.after (State.maintStarts_keeps ..))

theorem State.endAct_keeps (s : State) (p : Nat) (a : Activity) (result : Nat) :
    Keeps s (State.endAct s p a result) := by
  unfold State.endAct
  extract_lets s1
  have hs1 : Keeps s s1 := by
    unfold s1
    repeat' first
      | (with_reducible first
          | assumption
          | exact .refl _
          | apply Keeps.ite
          | apply Keeps.ite1
          | apply Keeps.after (State.raise_keeps ..)
          | apply Keeps.after (State.done_keeps ..)
          | apply Keeps.after (State.doneOpt_keeps ..)
          | apply Keeps.after (State.updPool_keeps ..))
  repeat' first
    | (with_reducible first
        | assumption
        | exact .refl _
        | apply Keeps.ite
        | apply Keeps.ite1
        | apply Keeps.after (State.raise_keeps ..)
        | apply Keeps.after (State.done_keeps ..)
        | apply Keeps.after (State.doneOpt_keeps ..))

theorem State.askRecord_keeps (s : State) (p : Nat) (a : Activity) :
    Keeps s (State.askRecord s p a) := by
  unfold State.askRecord
  repeat' first
    | (with_reducible first
        | assumption
        | exact .refl _
        | apply Keeps.ite
        | apply Keeps.after (State.updPool_keeps ..))

theorem State.preemptNow_keeps (s : State) (p : Nat) (a : Activity) :
    Keeps s (State.preemptNow s p a) := by
  unfold State.preemptNow
  repeat' first
    | (with_reducible first
        | assumption
        | exact .refl _
        | apply Keeps.ite
        | apply Keeps.after (State.raise_keeps ..)
        | apply Keeps.after (State.updPool_keeps ..)
        | apply Keeps.after (State.askRecord_keeps ..))

theorem execMaintPreempted_keeps (p : Fin 16) (s : State) :
    OKeeps s (execMaintPreempted p s) := by
  unfold execMaintPreempted
  repeat' first
    | (with_reducible first
        | assumption
        | exact .refl _
        | apply OKeeps.next
        | apply OKeeps.ite
        | apply Keeps.ite
        | apply Keeps.after (State.preemptNow_keeps ..)
        | fail_if_no_progress refine Keeps.mk' ?_ rfl rfl rfl rfl rfl rfl
        | apply Keeps.foldl
        | apply Keeps.foldlPair)
    | intro _

theorem State.actSeam_keeps (s : State) (p : Nat) (a : Activity) :
    Keeps s (State.actSeam s p a) := by
  unfold State.actSeam
  extract_lets _
  repeat' first
    | (with_reducible first
        | assumption
        | exact .refl _
        | apply Keeps.ite
        | apply Keeps.after (State.updPool_keeps ..)
        | apply Keeps.after (State.endAct_keeps ..)
        | apply Keeps.after (State.askRecord_keeps ..)
        | apply Keeps.after (State.preemptNow_keeps ..))

theorem State.holdDone_keeps (s : State) (p : Nat) :
    Keeps s (State.holdDone s p) := by
  unfold State.holdDone
  extract_lets _
  repeat' first
    | (with_reducible first
        | assumption
        | exact .refl _
        | apply Keeps.ite
        | apply Keeps.after (State.doneOpt_keeps ..)
        | apply Keeps.after (State.updPool_keeps ..)
        | fail_if_no_progress refine Keeps.mk' ?_ rfl rfl rfl rfl rfl rfl
        | apply Keeps.foldl
        | apply Keeps.foldlPair)
    | intro _

theorem State.loadUpdate_keeps (clear : Bool) (s : State) (p : Nat) :
    Keeps s (State.loadUpdate clear s p) := by
  unfold State.loadUpdate
  extract_lets _
  repeat' first
    | (with_reducible first
        | assumption
        | exact .refl _
        | apply Keeps.ite
        | apply Keeps.after (State.setFld_keeps ..)
        | apply Keeps.after (State.updPool_keeps ..))

theorem execMaintLoadUpdate_keeps (s : State) :
    OKeeps s (execMaintLoadUpdate s) := by
  unfold execMaintLoadUpdate
  repeat' first
    | (with_reducible first
        | assumption
        | exact .refl _
        | apply OKeeps.next
        | apply OKeeps.ite
        | apply Keeps.ite
        | apply Keeps.after (State.loadUpdate_keeps ..)
        | fail_if_no_progress refine Keeps.mk' ?_ rfl rfl rfl rfl rfl rfl
        | apply Keeps.foldl
        | apply Keeps.foldlPair)
    | intro _

theorem State.scrubRepeat_keeps (s : State) (p : Nat) :
    Keeps s (State.scrubRepeat s p) := by
  unfold State.scrubRepeat
  extract_lets v1
  repeat' first
    | (with_reducible first
        | assumption
        | exact .refl _
        | apply Keeps.ite
        | apply Keeps.after (State.setPool_keeps ..)
        | fail_if_no_progress refine Keeps.mk' ?_ rfl rfl rfl rfl rfl rfl)
    | split

theorem execScrubRepeat_keeps (p : Fin 16) (s : State) :
    OKeeps s (execScrubRepeat p s) := by
  unfold execScrubRepeat
  repeat' first
    | (with_reducible first
        | assumption
        | exact .refl _
        | apply OKeeps.next
        | apply OKeeps.ite
        | apply Keeps.ite
        | apply Keeps.after (State.scrubRepeat_keeps ..))

theorem maintStart_keeps (d : Desc) (s : State) :
    Keeps s (maintStart d s) := by
  unfold maintStart
  extract_lets _ _ _ _
  repeat' first
    | (with_reducible first
        | assumption
        | exact .refl _
        | apply Keeps.ite
        | apply Keeps.after (State.defer_keeps ..)
        | apply Keeps.after (State.checked_keeps (hok := ?_) ..)
        | fail_if_no_progress refine Keeps.mk' ?_ rfl rfl rfl rfl rfl rfl)
    | intro _

theorem execMaintStart_keeps (s : State) :
    OKeeps s (execMaintStart s) := by
  unfold execMaintStart
  repeat' first
    | (with_reducible first
        | assumption
        | exact .refl _
        | apply OKeeps.next
        | apply OKeeps.ite
        | apply Keeps.ite
        | apply Keeps.after (State.ringCmd_keeps (hbody := ?_) ..)
        | apply Keeps.after (maintStart_keeps ..)
        | fail_if_no_progress refine Keeps.mk' ?_ rfl rfl rfl rfl rfl rfl)
    | intro _

theorem State.maintRequest_keeps (s : State) (d : Desc) :
    Keeps s (State.maintRequest s d) := by
  unfold State.maintRequest
  extract_lets _ _ _
  repeat' first
    | (with_reducible first
        | assumption
        | exact .refl _
        | apply Keeps.ite
        | apply Keeps.after (State.updPool_keeps ..))

theorem maintStop_keeps (d : Desc) (s : State) :
    Keeps s (maintStop d s) := by
  unfold maintStop
  extract_lets _ _ _
  repeat' first
    | (with_reducible first
        | assumption
        | exact .refl _
        | apply Keeps.ite
        | apply Keeps.after (State.defer_keeps ..)
        | apply Keeps.after (State.checked_keeps (hok := ?_) ..)
        | fail_if_no_progress refine Keeps.mk' ?_ rfl rfl rfl rfl rfl rfl)
    | intro _

theorem execMaintStop_keeps (s : State) :
    OKeeps s (execMaintStop s) := by
  unfold execMaintStop
  repeat' first
    | (with_reducible first
        | assumption
        | exact .refl _
        | apply OKeeps.next
        | apply OKeeps.ite
        | apply Keeps.ite
        | apply Keeps.after (State.ringCmd_keeps (hbody := ?_) ..)
        | apply Keeps.after (maintStop_keeps ..)
        | fail_if_no_progress refine Keeps.mk' ?_ rfl rfl rfl rfl rfl rfl)
    | intro _

theorem State.maintHalt_keeps (s : State) (d : Desc) :
    Keeps s (State.maintHalt s d) := by
  unfold State.maintHalt
  extract_lets v1 v2 v3
  repeat' first
    | (with_reducible first
        | assumption
        | exact .refl _
        | apply Keeps.ite
        | apply Keeps.after (State.done_keeps ..)
        | apply Keeps.after (State.updPool_keeps ..)
        | fail_if_no_progress refine Keeps.mk' ?_ rfl rfl rfl rfl rfl rfl)
    | split

theorem State.maintSeam_keeps (s : State) (p : Nat) :
    Keeps s (State.maintSeam s p) := by
  unfold State.maintSeam
  extract_lets s1 s2 s3 s4 s5 s6 s7
  have hs1 : Keeps s s1 := by
    unfold s1
    repeat' first
      | (with_reducible first
          | assumption
          | exact .refl _
          | apply Keeps.ite
          | apply Keeps.after (State.updPool_keeps ..)
          | apply Keeps.after (State.marksSeam_keeps ..)
          | apply Keeps.after (State.changesSeam_keeps ..))
  have hs2 : Keeps s s2 := by
    unfold s2
    repeat' first
      | (with_reducible first
          | assumption
          | exact .refl _
          | apply Keeps.ite
          | apply Keeps.after (State.updPool_keeps ..)
          | apply Keeps.after (State.marksSeam_keeps ..)
          | apply Keeps.after (State.changesSeam_keeps ..)
          | apply Keeps.after (State.settleSlots_keeps ..)
          | apply Keeps.after (State.actProgress_keeps ..)
          | apply Keeps.after (State.answerStarts_keeps ..)
          | apply Keeps.after (State.maintStarts_keeps ..)
          | apply Keeps.after (State.actSeam_keeps ..)
          | apply Keeps.after (State.holdDone_keeps ..)
          | apply Keeps.after (State.loadUpdate_keeps ..)
          | apply Keeps.after (State.scrubRepeat_keeps ..))
  have hs3 : Keeps s s3 := by
    unfold s3
    repeat' first
      | (with_reducible first
          | assumption
          | exact .refl _
          | apply Keeps.ite
          | apply Keeps.after (State.updPool_keeps ..)
          | apply Keeps.after (State.marksSeam_keeps ..)
          | apply Keeps.after (State.changesSeam_keeps ..)
          | apply Keeps.after (State.settleSlots_keeps ..)
          | apply Keeps.after (State.actProgress_keeps ..)
          | apply Keeps.after (State.answerStarts_keeps ..))
  have hs4 : Keeps s s4 := by
    unfold s4
    repeat' first
      | (with_reducible first
          | assumption
          | exact .refl _
          | apply Keeps.ite
          | apply Keeps.after (State.updPool_keeps ..)
          | apply Keeps.after (State.marksSeam_keeps ..)
          | apply Keeps.after (State.changesSeam_keeps ..)
          | apply Keeps.after (State.settleSlots_keeps ..)
          | apply Keeps.after (State.actProgress_keeps ..)
          | apply Keeps.after (State.answerStarts_keeps ..)
          | apply Keeps.after (State.maintStarts_keeps ..)
          | apply Keeps.after (State.actSeam_keeps ..)
          | apply Keeps.after (State.holdDone_keeps ..)
          | apply Keeps.after (State.loadUpdate_keeps ..)
          | apply Keeps.after (State.scrubRepeat_keeps ..)
          | fail_if_no_progress refine Keeps.mk' ?_ rfl rfl rfl rfl rfl rfl
          | apply Keeps.foldl
          | apply Keeps.foldlPair)
      | intro _
  have hs5 : Keeps s s5 := by
    unfold s5
    repeat' first
      | (with_reducible first
          | assumption
          | exact .refl _
          | apply Keeps.ite
          | apply Keeps.after (State.updPool_keeps ..)
          | apply Keeps.after (State.marksSeam_keeps ..)
          | apply Keeps.after (State.changesSeam_keeps ..)
          | apply Keeps.after (State.settleSlots_keeps ..)
          | apply Keeps.after (State.actProgress_keeps ..)
          | apply Keeps.after (State.answerStarts_keeps ..)
          | apply Keeps.after (State.maintStarts_keeps ..)
          | apply Keeps.after (State.actSeam_keeps ..)
          | apply Keeps.after (State.holdDone_keeps ..)
          | apply Keeps.after (State.loadUpdate_keeps ..)
          | apply Keeps.after (State.scrubRepeat_keeps ..)
          | fail_if_no_progress refine Keeps.mk' ?_ rfl rfl rfl rfl rfl rfl
          | apply Keeps.foldl
          | apply Keeps.foldlPair)
      | intro _
  have hs6 : Keeps s s6 := by
    unfold s6
    repeat' first
      | (with_reducible first
          | assumption
          | exact .refl _
          | apply Keeps.ite
          | apply Keeps.after (State.updPool_keeps ..)
          | apply Keeps.after (State.marksSeam_keeps ..)
          | apply Keeps.after (State.changesSeam_keeps ..)
          | apply Keeps.after (State.settleSlots_keeps ..)
          | apply Keeps.after (State.actProgress_keeps ..)
          | apply Keeps.after (State.answerStarts_keeps ..)
          | apply Keeps.after (State.maintStarts_keeps ..)
          | apply Keeps.after (State.actSeam_keeps ..)
          | apply Keeps.after (State.holdDone_keeps ..))
  have hs7 : Keeps s s7 := by
    unfold s7
    repeat' first
      | (with_reducible first
          | assumption
          | exact .refl _
          | apply Keeps.ite
          | apply Keeps.after (State.updPool_keeps ..))
  repeat' first
    | (with_reducible first
        | assumption
        | exact .refl _
        | apply Keeps.ite
        | apply Keeps.after (State.updPool_keeps ..)
        | apply Keeps.after (State.marksSeam_keeps ..)
        | apply Keeps.after (State.changesSeam_keeps ..)
        | apply Keeps.after (State.settleSlots_keeps ..)
        | apply Keeps.after (State.actProgress_keeps ..)
        | apply Keeps.after (State.answerStarts_keeps ..)
        | apply Keeps.after (State.maintStarts_keeps ..)
        | apply Keeps.after (State.actSeam_keeps ..)
        | apply Keeps.after (State.holdDone_keeps ..)
        | apply Keeps.after (State.loadUpdate_keeps ..))

end Sys2Proof.Machine
end

