-- ==== Sys2Proof/Laws/KeepItinerary.lean ====
section
/-!
SUPPORT. What the operations of Machine/Itinerary.lean keep (Laws/Keep.lean).
-/

namespace Sys2Proof.Machine

open Sys2Proof

theorem State.setMeas_keeps (s : State) (i : Nat) (v : List Byte) :
    Keeps s (State.setMeas s i v) := by
  unfold State.setMeas
  extract_lets _
  repeat' first
    | (with_reducible first
        | assumption
        | exact .refl _
        | apply Keeps.ite
        | fail_if_no_progress refine Keeps.mk' ?_ rfl rfl rfl rfl rfl rfl)
    | intro _
    | extract_lets

theorem State.schedEvent_length (s : State) (kind fault : Nat) : (State.schedEvent s kind fault).mgt.schedLog.length ≤ 1024 := by
  simp only [State.schedEvent, List.length_drop, List.length_append, List.length_singleton, State.setMeas]; omega

theorem State.schedEvent_keeps (s : State) (kind fault : Nat) : Keeps s (State.schedEvent s kind fault) :=
  (Keeps.refl s).upd (fun i => ⟨i.regs, i.backlog, i.history, State.schedEvent_length ..⟩) rfl rfl rfl rfl rfl rfl

theorem State.loadStatus_keeps (s : State) (st : Nat) :
    Keeps s (State.loadStatus s st) := by
  unfold State.loadStatus
  repeat' first
    | (with_reducible first
        | assumption
        | exact .refl _
        | apply Keeps.ite
        | apply Keeps.after (State.setFld_keeps ..)
        | fail_if_no_progress refine Keeps.mk' ?_ rfl rfl rfl rfl rfl rfl)
    | intro _

theorem State.loadStart_keeps (s : State) (b : Bool) (size : Nat) (d : Option Desc) :
    Keeps s (State.loadStart s b size d).2 := by
  unfold State.loadStart
  extract_lets s1 _
  have hs1 : Keeps s s1 := by
    unfold s1
    repeat' first
      | (with_reducible first
          | assumption
          | exact .refl _
          | apply Keeps.ite
          | apply Keeps.ite2
          | apply Keeps.after (State.wrReg_keeps ..)
          | apply Keeps.after (State.setBuf_keeps ..)
          | apply Keeps.after (State.setMeas_keeps ..)
          | apply Keeps.after (State.loadStatus_keeps ..)
          | fail_if_no_progress refine Keeps.mk' ?_ rfl rfl rfl rfl rfl rfl)
      | intro _
  repeat' first
    | (with_reducible first
        | assumption
        | exact .refl _
        | apply Keeps.ite
        | apply Keeps.ite2
        | apply Keeps.after (State.wrReg_keeps ..)
        | apply Keeps.after (State.setBuf_keeps ..)
        | apply Keeps.after (State.setMeas_keeps ..)
        | apply Keeps.after (State.loadStatus_keeps ..)
        | fail_if_no_progress refine Keeps.mk' ?_ rfl rfl rfl rfl rfl rfl)
    | intro _

theorem State.itnCtlLoad_keeps (s : State) (w : Word) :
    Keeps s (State.itnCtlLoad s w) := by
  unfold State.itnCtlLoad
  extract_lets _ s1
  have hs1 : Keeps s s1 := by
    unfold s1
    repeat' first
      | (with_reducible first
          | assumption
          | exact .refl _
          | apply Keeps.ite
          | apply Keeps.ite2
          | apply Keeps.after (State.regWrite_keeps ..)
          | refine Keeps.trans ?_ (.pair (by assumption) (State.loadStart_keeps ..))
          | apply Keeps.after (State.loadStart_keeps ..)
          | fail_if_no_progress refine Keeps.mk' ?_ rfl rfl rfl rfl rfl rfl)
      | intro _
  repeat' first
    | (with_reducible first
        | assumption
        | exact .refl _
        | apply Keeps.ite
        | apply Keeps.ite2
        | apply Keeps.after (State.regWrite_keeps ..)
        | refine Keeps.trans ?_ (.pair (by assumption) (State.loadStart_keeps ..))
        | apply Keeps.after (State.loadStart_keeps ..)
        | fail_if_no_progress refine Keeps.mk' ?_ rfl rfl rfl rfl rfl rfl)
    | intro _

theorem execItnCtlLoad_keeps (w : Word) (s : State) :
    OKeeps s (execItnCtlLoad w s) := by
  unfold execItnCtlLoad
  repeat' first
    | (with_reducible first
        | assumption
        | exact .refl _
        | apply OKeeps.next
        | apply OKeeps.ite
        | apply Keeps.ite
        | apply Keeps.after (State.hostWrite_keeps (hf := ?_) ..)
        | apply Keeps.after (State.itnCtlLoad_keeps ..)
        | fail_if_no_progress refine Keeps.mk' ?_ rfl rfl rfl rfl rfl rfl)
    | intro _

theorem State.loadEnd_keeps (s : State) (b : Bool) (bytes : List Byte) (st : Option Nat) :
    Keeps s (State.loadEnd s b bytes st) := by
  unfold State.loadEnd
  extract_lets v1 s1 v2 s2 s3 s4
  have hs1 : Keeps s s1 := by
    unfold s1
    repeat' first
      | (with_reducible first
          | assumption
          | exact .refl _
          | apply Keeps.ite
          | apply Keeps.after (State.wrReg_keeps ..)
          | apply Keeps.after (State.doneOpt_keeps ..)
          | apply Keeps.after (State.setBuf_keeps ..)
          | apply Keeps.after (State.setMeas_keeps ..)
          | apply Keeps.after (State.loadStatus_keeps ..)
          | fail_if_no_progress refine Keeps.mk' ?_ rfl rfl rfl rfl rfl rfl)
      | split
      | unfold v1
      | unfold v2
      | intro _
      | extract_lets
      | (dsimp +zetaDelta only; split)
  have hs2 : Keeps s s2 := by
    unfold s2
    repeat' first
      | (with_reducible first
          | assumption
          | exact .refl _
          | apply Keeps.ite
          | apply Keeps.after (State.wrReg_keeps ..)
          | apply Keeps.after (State.doneOpt_keeps ..)
          | apply Keeps.after (State.setBuf_keeps ..)
          | apply Keeps.after (State.setMeas_keeps ..)
          | apply Keeps.after (State.loadStatus_keeps ..)
          | fail_if_no_progress refine Keeps.mk' ?_ rfl rfl rfl rfl rfl rfl)
      | split
      | unfold v1
      | unfold v2
      | intro _
      | extract_lets
      | (dsimp +zetaDelta only; split)
  have hs3 : Keeps s s3 := by
    unfold s3
    repeat' first
      | (with_reducible first
          | assumption
          | exact .refl _
          | apply Keeps.ite
          | apply Keeps.after (State.wrReg_keeps ..)
          | apply Keeps.after (State.doneOpt_keeps ..)
          | apply Keeps.after (State.setBuf_keeps ..)
          | apply Keeps.after (State.setMeas_keeps ..)
          | apply Keeps.after (State.loadStatus_keeps ..)
          | fail_if_no_progress refine Keeps.mk' ?_ rfl rfl rfl rfl rfl rfl)
      | split
      | unfold v1
      | unfold v2
      | intro _
      | extract_lets
      | (dsimp +zetaDelta only; split)
  have hs4 : Keeps s s4 := by
    unfold s4
    repeat' first
      | (with_reducible first
          | assumption
          | exact .refl _
          | apply Keeps.ite
          | apply Keeps.after (State.wrReg_keeps ..)
          | apply Keeps.after (State.doneOpt_keeps ..)
          | apply Keeps.after (State.setBuf_keeps ..)
          | apply Keeps.after (State.setMeas_keeps ..)
          | apply Keeps.after (State.loadStatus_keeps ..)
          | fail_if_no_progress refine Keeps.mk' ?_ rfl rfl rfl rfl rfl rfl)
      | split
      | unfold v1
      | unfold v2
      | intro _
      | extract_lets
      | (dsimp +zetaDelta only; split)
  repeat' first
    | (with_reducible first
        | assumption
        | exact .refl _
        | apply Keeps.ite
        | apply Keeps.after (State.wrReg_keeps ..)
        | apply Keeps.after (State.doneOpt_keeps ..)
        | apply Keeps.after (State.setBuf_keeps ..)
        | apply Keeps.after (State.setMeas_keeps ..)
        | apply Keeps.after (State.loadStatus_keeps ..)
        | fail_if_no_progress refine Keeps.mk' ?_ rfl rfl rfl rfl rfl rfl)
    | split
    | unfold v1
    | unfold v2
    | intro _
    | extract_lets
    | (dsimp +zetaDelta only; split)

theorem State.swapRequest_keeps (s : State) (mode : Nat) (d : Option Desc) :
    Keeps s (State.swapRequest s mode d) := by
  unfold State.swapRequest
  extract_lets v1 v2 v3 s1 v4
  have hs1 : Keeps s s1 := by
    unfold s1
    repeat' first
      | (with_reducible first
          | assumption
          | exact .refl _
          | apply Keeps.ite
          | apply Keeps.after (State.doneOpt_keeps ..)
          | apply Keeps.after (State.setBuf_keeps ..)
          | apply Keeps.after (State.loadStatus_keeps ..)
          | fail_if_no_progress refine Keeps.mk' ?_ rfl rfl rfl rfl rfl rfl)
      | split
      | unfold v1
      | unfold v2
      | unfold v3
      | unfold v4
      | intro _
      | extract_lets
      | (dsimp +zetaDelta only; split)
  repeat' first
    | (with_reducible first
        | assumption
        | exact .refl _
        | apply Keeps.ite
        | apply Keeps.after (State.doneOpt_keeps ..)
        | apply Keeps.after (State.setBuf_keeps ..)
        | apply Keeps.after (State.loadStatus_keeps ..)
        | fail_if_no_progress refine Keeps.mk' ?_ rfl rfl rfl rfl rfl rfl)
    | split
    | unfold v1
    | unfold v2
    | unfold v3
    | unfold v4
    | intro _
    | extract_lets
    | (dsimp +zetaDelta only; split)

theorem execItnCtlSwap_keeps (w : Word) (s : State) :
    OKeeps s (execItnCtlSwap w s) := by
  unfold execItnCtlSwap
  repeat' first
    | (with_reducible first
        | assumption
        | exact .refl _
        | apply OKeeps.next
        | apply OKeeps.ite
        | apply Keeps.ite
        | apply Keeps.after (State.hostWrite_keeps (hf := ?_) ..)
        | apply Keeps.after (State.regWrite_keeps ..)
        | apply Keeps.after (State.swapRequest_keeps ..)
        | fail_if_no_progress refine Keeps.mk' ?_ rfl rfl rfl rfl rfl rfl)
    | intro _
    | extract_lets

theorem State.replaceWork_keeps (s : State) :
    Keeps s (State.replaceWork s) := by
  unfold State.replaceWork
  extract_lets v1
  repeat' first
    | (with_reducible first
        | assumption
        | exact .refl _
        | apply Keeps.ite
        | fail_if_no_progress refine Keeps.mk' ?_ rfl rfl rfl rfl rfl rfl)
    | split
    | unfold v1
    | intro _
    | extract_lets
    | (dsimp +zetaDelta only; split)

theorem State.seamEntry_keeps (s : State) (kind : Nat) (vals : List Byte) :
    Keeps s (State.seamEntry s kind vals) := by
  unfold State.seamEntry
  repeat' first
    | (with_reducible first
        | assumption
        | exact .refl _
        | apply Keeps.ite
        | apply Keeps.after (State.entry_keeps ..)
        | fail_if_no_progress refine Keeps.mk' ?_ rfl rfl rfl rfl rfl rfl)
    | intro _

theorem State.swapNow_keeps (s : State) :
    Keeps s (State.swapNow s) := by
  unfold State.swapNow
  extract_lets _ _ _ _ s1 _ s2 _ s3 s4
  have hs1 : Keeps s s1 := by
    unfold s1
    repeat' first
      | (with_reducible first
          | assumption
          | exact .refl _
          | apply Keeps.ite
          | apply Keeps.after (State.raise_keeps ..)
          | apply Keeps.after (State.doneOpt_keeps ..)
          | apply Keeps.after (State.setBuf_keeps ..)
          | apply Keeps.after (State.schedEvent_keeps ..)
          | apply Keeps.after (State.loadStatus_keeps ..)
          | apply Keeps.after (State.replaceWork_keeps ..)
          | apply Keeps.after (State.seamEntry_keeps ..)
          | fail_if_no_progress refine Keeps.mk' ?_ rfl rfl rfl rfl rfl rfl)
      | intro _
  have hs2 : Keeps s s2 := by
    unfold s2
    repeat' first
      | (with_reducible first
          | assumption
          | exact .refl _
          | apply Keeps.ite
          | apply Keeps.after (State.raise_keeps ..)
          | apply Keeps.after (State.doneOpt_keeps ..)
          | apply Keeps.after (State.setBuf_keeps ..)
          | apply Keeps.after (State.schedEvent_keeps ..)
          | apply Keeps.after (State.loadStatus_keeps ..)
          | apply Keeps.after (State.replaceWork_keeps ..)
          | apply Keeps.after (State.seamEntry_keeps ..)
          | fail_if_no_progress refine Keeps.mk' ?_ rfl rfl rfl rfl rfl rfl)
      | intro _
  have hs3 : Keeps s s3 := by
    unfold s3
    repeat' first
      | (with_reducible first
          | assumption
          | exact .refl _
          | apply Keeps.ite
          | apply Keeps.after (State.raise_keeps ..)
          | apply Keeps.after (State.doneOpt_keeps ..)
          | apply Keeps.after (State.setBuf_keeps ..)
          | apply Keeps.after (State.schedEvent_keeps ..)
          | apply Keeps.after (State.loadStatus_keeps ..)
          | apply Keeps.after (State.replaceWork_keeps ..)
          | apply Keeps.after (State.seamEntry_keeps ..)
          | fail_if_no_progress refine Keeps.mk' ?_ rfl rfl rfl rfl rfl rfl)
      | intro _
  have hs4 : Keeps s s4 := by
    unfold s4
    repeat' first
      | (with_reducible first
          | assumption
          | exact .refl _
          | apply Keeps.ite
          | apply Keeps.after (State.raise_keeps ..)
          | apply Keeps.after (State.doneOpt_keeps ..)
          | apply Keeps.after (State.setBuf_keeps ..)
          | apply Keeps.after (State.schedEvent_keeps ..)
          | apply Keeps.after (State.loadStatus_keeps ..)
          | apply Keeps.after (State.replaceWork_keeps ..)
          | apply Keeps.after (State.seamEntry_keeps ..)
          | fail_if_no_progress refine Keeps.mk' ?_ rfl rfl rfl rfl rfl rfl)
      | intro _
  repeat' first
    | (with_reducible first
        | assumption
        | exact .refl _
        | apply Keeps.ite
        | apply Keeps.after (State.raise_keeps ..)
        | apply Keeps.after (State.doneOpt_keeps ..)
        | apply Keeps.after (State.setBuf_keeps ..)
        | apply Keeps.after (State.schedEvent_keeps ..)
        | apply Keeps.after (State.loadStatus_keeps ..)
        | apply Keeps.after (State.replaceWork_keeps ..)
        | apply Keeps.after (State.seamEntry_keeps ..)
        | fail_if_no_progress refine Keeps.mk' ?_ rfl rfl rfl rfl rfl rfl)
    | intro _

theorem execItnSwapped_keeps (s : State) :
    OKeeps s (execItnSwapped s) := by
  unfold execItnSwapped
  repeat' first
    | (with_reducible first
        | assumption
        | exact .refl _
        | apply OKeeps.next
        | apply OKeeps.ite
        | apply Keeps.ite
        | apply Keeps.after (State.swapNow_keeps ..)
        | fail_if_no_progress refine Keeps.mk' ?_ rfl rfl rfl rfl rfl rfl)
    | intro _

theorem State.itnStart_keeps (s : State) (w : Word) :
    Keeps s (State.itnStart s w) := by
  unfold State.itnStart
  extract_lets _ s1 _ s2 _
  have hs1 : Keeps s s1 := by
    unfold s1
    repeat' first
      | (with_reducible first
          | assumption
          | exact .refl _
          | apply Keeps.ite
          | apply Keeps.after (State.setFld_keeps ..)
          | apply Keeps.after (State.setBuf_keeps ..)
          | apply Keeps.after (State.regWrite_keeps ..)
          | fail_if_no_progress refine Keeps.mk' ?_ rfl rfl rfl rfl rfl rfl)
      | intro _
  have hs2 : Keeps s s2 := by
    unfold s2
    repeat' first
      | (with_reducible first
          | assumption
          | exact .refl _
          | apply Keeps.ite
          | apply Keeps.after (State.setFld_keeps ..)
          | apply Keeps.after (State.setBuf_keeps ..)
          | apply Keeps.after (State.regWrite_keeps ..)
          | fail_if_no_progress refine Keeps.mk' ?_ rfl rfl rfl rfl rfl rfl)
      | intro _
  repeat' first
    | (with_reducible first
        | assumption
        | exact .refl _
        | apply Keeps.ite
        | apply Keeps.after (State.setFld_keeps ..)
        | apply Keeps.after (State.setBuf_keeps ..)
        | apply Keeps.after (State.regWrite_keeps ..)
        | fail_if_no_progress refine Keeps.mk' ?_ rfl rfl rfl rfl rfl rfl)
    | intro _

theorem execItnCtlStart_keeps (w : Word) (s : State) :
    OKeeps s (execItnCtlStart w s) := by
  unfold execItnCtlStart
  repeat' first
    | (with_reducible first
        | assumption
        | exact .refl _
        | apply OKeeps.next
        | apply OKeeps.ite
        | apply Keeps.ite
        | apply Keeps.after (State.hostWrite_keeps (hf := ?_) ..)
        | apply Keeps.after (State.itnStart_keeps ..)
        | fail_if_no_progress refine Keeps.mk' ?_ rfl rfl rfl rfl rfl rfl)
    | intro _

theorem State.dumpEnter_keeps (s : State) :
    Keeps s (State.dumpEnter s) := by
  unfold State.dumpEnter
  extract_lets _ _
  repeat' first
    | (with_reducible first
        | assumption
        | exact .refl _
        | apply Keeps.ite
        | fail_if_no_progress refine Keeps.mk' ?_ rfl rfl rfl rfl rfl rfl)
    | intro _

theorem State.sequencerStop_keeps (s : State) :
    Keeps s (State.sequencerStop s) := by
  unfold State.sequencerStop
  extract_lets _ _ _ s1 _
  have hs1 : Keeps s s1 := by
    unfold s1
    repeat' first
      | (with_reducible first
          | assumption
          | exact .refl _
          | apply Keeps.ite
          | apply Keeps.after (State.doneOpt_keeps ..)
          | apply Keeps.after (State.setBuf_keeps ..)
          | apply Keeps.after (State.loadStatus_keeps ..)
          | fail_if_no_progress refine Keeps.mk' ?_ rfl rfl rfl rfl rfl rfl)
      | intro _
  repeat' first
    | (with_reducible first
        | assumption
        | exact .refl _
        | apply Keeps.ite
        | apply Keeps.after (State.doneOpt_keeps ..)
        | apply Keeps.after (State.setBuf_keeps ..)
        | apply Keeps.after (State.loadStatus_keeps ..)
        | fail_if_no_progress refine Keeps.mk' ?_ rfl rfl rfl rfl rfl rfl)
    | intro _

theorem State.detect_keeps (s : State) (k cause engine : Nat) :
    Keeps s (State.detect s k cause engine) := by
  unfold State.detect
  extract_lets _ s1 _
  have hs1 : Keeps s s1 := by
    unfold s1
    repeat' first
      | (with_reducible first
          | assumption
          | exact .refl _
          | apply Keeps.ite
          | apply Keeps.after (State.setFld_keeps ..)
          | fail_if_no_progress refine Keeps.mk' ?_ rfl rfl rfl rfl rfl rfl)
      | intro _
  repeat' first
    | (with_reducible first
        | assumption
        | exact .refl _
        | apply Keeps.ite
        | apply Keeps.after (State.setFld_keeps ..)
        | fail_if_no_progress refine Keeps.mk' ?_ rfl rfl rfl rfl rfl rfl)
    | intro _

theorem State.suspendChan_keeps (s : State) (i : Nat) :
    Keeps s (State.suspendChan s i) := by
  unfold State.suspendChan
  extract_lets _
  repeat' first
    | (with_reducible first
        | assumption
        | exact .refl _
        | apply Keeps.ite
        | apply Keeps.after (State.raise_keeps ..)
        | apply Keeps.after (State.setChan_keeps ..)
        | apply Keeps.after (State.releaseDeferred_keeps ..)
        | fail_if_no_progress refine Keeps.mk' ?_ rfl rfl rfl rfl rfl rfl)
    | intro _

theorem State.suspendAll_keeps (s : State) (is : List Nat) :
    Keeps s (State.suspendAll s is) := by
  unfold State.suspendAll
  repeat' first
    | (with_reducible first
        | assumption
        | exact .refl _
        | apply Keeps.ite
        | apply Keeps.after (State.suspendChan_keeps ..)
        | fail_if_no_progress refine Keeps.mk' ?_ rfl rfl rfl rfl rfl rfl
        | apply Keeps.foldl
        | apply Keeps.foldlPair)
    | intro _

theorem State.moveChan_keeps (s : State) (i : Nat) :
    Keeps s (State.moveChan s i) := by
  unfold State.moveChan
  extract_lets v1
  repeat' first
    | (with_reducible first
        | assumption
        | exact .refl _
        | apply Keeps.ite
        | apply Keeps.after (State.raise_keeps ..)
        | apply Keeps.after (State.setChan_keeps ..)
        | apply Keeps.after (State.suspendChan_keeps ..)
        | fail_if_no_progress refine Keeps.mk' ?_ rfl rfl rfl rfl rfl rfl)
    | split
    | unfold v1
    | intro _
    | extract_lets
    | (dsimp +zetaDelta only; split)

theorem State.reassignClass_keeps (s : State) (c : Nat) :
    Keeps s (State.reassignClass s c) := by
  unfold State.reassignClass
  extract_lets s1
  have hs1 : Keeps s s1 := by
    unfold s1
    repeat' first
      | (with_reducible first
          | assumption
          | exact .refl _
          | apply Keeps.ite
          | apply Keeps.after (State.suspendAll_keeps ..)
          | apply Keeps.after (State.moveChan_keeps ..)
          | fail_if_no_progress refine Keeps.mk' ?_ rfl rfl rfl rfl rfl rfl
          | apply Keeps.foldl
          | apply Keeps.foldlPair)
      | intro _
      | extract_lets
  repeat' first
    | (with_reducible first
        | assumption
        | exact .refl _
        | apply Keeps.ite
        | apply Keeps.after (State.suspendAll_keeps ..)
        | apply Keeps.after (State.moveChan_keeps ..)
        | fail_if_no_progress refine Keeps.mk' ?_ rfl rfl rfl rfl rfl rfl
        | apply Keeps.foldl
        | apply Keeps.foldlPair)
    | intro _
    | extract_lets

theorem State.restartWaybill_keeps (s : State) (w : Nat) :
    Keeps s (State.restartWaybill s w) := by
  unfold State.restartWaybill
  extract_lets _ _ s1 s2 s3 _
  have hs1 : Keeps s s1 := by
    unfold s1
    repeat' first
      | (with_reducible first
          | assumption
          | exact .refl _
          | apply Keeps.ite
          | apply Keeps.after (State.cntCmd_keeps ..)
          | apply Keeps.after (State.updWb_keeps ..)
          | apply Keeps.after (State.dropItems_keeps ..)
          | fail_if_no_progress refine Keeps.mk' ?_ rfl rfl rfl rfl rfl rfl)
      | intro _
      | extract_lets
  have hs2 : Keeps s s2 := by
    unfold s2
    repeat' first
      | (with_reducible first
          | assumption
          | exact .refl _
          | apply Keeps.ite
          | apply Keeps.after (State.cntCmd_keeps ..)
          | apply Keeps.after (State.updWb_keeps ..)
          | apply Keeps.after (State.dropItems_keeps ..)
          | fail_if_no_progress refine Keeps.mk' ?_ rfl rfl rfl rfl rfl rfl)
      | intro _
      | extract_lets
  have hs3 : Keeps s s3 := by
    unfold s3
    repeat' first
      | (with_reducible first
          | assumption
          | exact .refl _
          | apply Keeps.ite
          | apply Keeps.after (State.cntCmd_keeps ..)
          | apply Keeps.after (State.updWb_keeps ..)
          | apply Keeps.after (State.dropItems_keeps ..)
          | fail_if_no_progress refine Keeps.mk' ?_ rfl rfl rfl rfl rfl rfl)
      | intro _
      | extract_lets
  repeat' first
    | (with_reducible first
        | assumption
        | exact .refl _
        | apply Keeps.ite
        | apply Keeps.after (State.cntCmd_keeps ..)
        | apply Keeps.after (State.updWb_keeps ..)
        | apply Keeps.after (State.dropItems_keeps ..)
        | fail_if_no_progress refine Keeps.mk' ?_ rfl rfl rfl rfl rfl rfl)
    | intro _
    | extract_lets

theorem State.moveCapsules_keeps (s : State) :
    Keeps s (State.moveCapsules s) := by
  unfold State.moveCapsules
  extract_lets _ v1 v2
  repeat' first
    | (with_reducible first
        | assumption
        | exact .refl _
        | apply Keeps.ite
        | fail_if_no_progress refine Keeps.mk' ?_ rfl rfl rfl rfl rfl rfl)
    | split
    | unfold v1
    | unfold v2
    | intro _
    | extract_lets
    | (dsimp +zetaDelta only; split)

theorem State.restartAll_keeps (s : State) :
    Keeps s (State.restartAll s) := by
  unfold State.restartAll
  repeat' first
    | (with_reducible first
        | assumption
        | exact .refl _
        | apply Keeps.ite
        | apply Keeps.after (State.replaceWork_keeps ..)
        | apply Keeps.after (State.restartWaybill_keeps ..)
        | apply Keeps.after (State.moveCapsules_keeps ..)
        | fail_if_no_progress refine Keeps.mk' ?_ rfl rfl rfl rfl rfl rfl
        | apply Keeps.foldl
        | apply Keeps.foldlPair)
    | intro _
    | extract_lets

theorem State.variantDrop_keeps (s : State) (lost : Nat) :
    Keeps s (State.variantDrop s lost) := by
  unfold State.variantDrop
  repeat' first
    | (with_reducible first
        | assumption
        | exact .refl _
        | apply Keeps.ite
        | apply Keeps.after (State.seamEntry_keeps ..)
        | fail_if_no_progress refine Keeps.mk' ?_ rfl rfl rfl rfl rfl rfl)
    | intro _

theorem State.variantEntry_keeps (s : State) :
    Keeps s (State.variantEntry s) := by
  unfold State.variantEntry
  repeat' first
    | (with_reducible first
        | assumption
        | exact .refl _
        | apply Keeps.ite
        | apply Keeps.after (State.variantDrop_keeps ..)
        | fail_if_no_progress refine Keeps.mk' ?_ rfl rfl rfl rfl rfl rfl)
    | intro _

theorem State.enterVariant_keeps (s : State) (v : Vart) :
    Keeps s (State.enterVariant s v) := by
  unfold State.enterVariant
  extract_lets _ s1 s2
  have hs1 : Keeps s s1 := by
    unfold s1
    repeat' first
      | (with_reducible first
          | assumption
          | exact .refl _
          | apply Keeps.ite
          | apply Keeps.after (State.raise_keeps ..)
          | apply Keeps.after (State.schedEvent_keeps ..)
          | apply Keeps.after (State.reassignClass_keeps ..)
          | apply Keeps.after (State.restartAll_keeps ..)
          | apply Keeps.after (State.variantEntry_keeps ..)
          | fail_if_no_progress refine Keeps.mk' ?_ rfl rfl rfl rfl rfl rfl
          | apply Keeps.foldl
          | apply Keeps.foldlPair)
      | intro _
  have hs2 : Keeps s s2 := by
    unfold s2
    repeat' first
      | (with_reducible first
          | assumption
          | exact .refl _
          | apply Keeps.ite
          | apply Keeps.after (State.raise_keeps ..)
          | apply Keeps.after (State.schedEvent_keeps ..)
          | apply Keeps.after (State.reassignClass_keeps ..)
          | apply Keeps.after (State.restartAll_keeps ..)
          | apply Keeps.after (State.variantEntry_keeps ..)
          | fail_if_no_progress refine Keeps.mk' ?_ rfl rfl rfl rfl rfl rfl
          | apply Keeps.foldl
          | apply Keeps.foldlPair)
      | intro _
  repeat' first
    | (with_reducible first
        | assumption
        | exact .refl _
        | apply Keeps.ite
        | apply Keeps.after (State.raise_keeps ..)
        | apply Keeps.after (State.schedEvent_keeps ..)
        | apply Keeps.after (State.reassignClass_keeps ..)
        | apply Keeps.after (State.restartAll_keeps ..)
        | apply Keeps.after (State.variantEntry_keeps ..)
        | fail_if_no_progress refine Keeps.mk' ?_ rfl rfl rfl rfl rfl rfl
        | apply Keeps.foldl
        | apply Keeps.foldlPair)
    | intro _

theorem State.fenceNow_keeps (s : State) (f : PendFault) :
    Keeps s (State.fenceNow s f) := by
  unfold State.fenceNow
  extract_lets v1 s1 s2 s3 s4 s5
  have hs1 : Keeps s s1 := by
    unfold s1
    repeat' first
      | (with_reducible first
          | assumption
          | exact .refl _
          | apply Keeps.ite
          | apply Keeps.after (State.setFld_keeps ..)
          | apply Keeps.after (State.raise_keeps ..)
          | apply Keeps.after (State.cluEnter_keeps ..)
          | apply Keeps.after (State.schedEvent_keeps ..)
          | apply Keeps.after (State.suspendAll_keeps ..)
          | apply Keeps.after (State.restartAll_keeps ..)
          | apply Keeps.after (State.variantEntry_keeps ..)
          | apply Keeps.after (State.enterVariant_keeps ..)
          | fail_if_no_progress refine Keeps.mk' ?_ rfl rfl rfl rfl rfl rfl)
      | split
      | unfold v1
      | intro _
      | extract_lets
      | (dsimp +zetaDelta only; split)
  have hs2 : Keeps s s2 := by
    unfold s2
    repeat' first
      | (with_reducible first
          | assumption
          | exact .refl _
          | apply Keeps.ite
          | apply Keeps.after (State.setFld_keeps ..)
          | apply Keeps.after (State.raise_keeps ..)
          | apply Keeps.after (State.cluEnter_keeps ..)
          | apply Keeps.after (State.schedEvent_keeps ..)
          | apply Keeps.after (State.suspendAll_keeps ..)
          | apply Keeps.after (State.restartAll_keeps ..)
          | apply Keeps.after (State.variantEntry_keeps ..)
          | apply Keeps.after (State.enterVariant_keeps ..)
          | fail_if_no_progress refine Keeps.mk' ?_ rfl rfl rfl rfl rfl rfl)
      | split
      | unfold v1
      | intro _
      | extract_lets
      | (dsimp +zetaDelta only; split)
  have hs3 : Keeps s s3 := by
    unfold s3
    repeat' first
      | (with_reducible first
          | assumption
          | exact .refl _
          | apply Keeps.ite
          | apply Keeps.after (State.setFld_keeps ..)
          | apply Keeps.after (State.raise_keeps ..)
          | apply Keeps.after (State.cluEnter_keeps ..)
          | apply Keeps.after (State.schedEvent_keeps ..)
          | apply Keeps.after (State.suspendAll_keeps ..)
          | apply Keeps.after (State.restartAll_keeps ..)
          | apply Keeps.after (State.variantEntry_keeps ..)
          | apply Keeps.after (State.enterVariant_keeps ..)
          | fail_if_no_progress refine Keeps.mk' ?_ rfl rfl rfl rfl rfl rfl)
      | split
      | unfold v1
      | intro _
      | extract_lets
      | (dsimp +zetaDelta only; split)
  have hs4 : Keeps s s4 := by
    unfold s4
    repeat' first
      | (with_reducible first
          | assumption
          | exact .refl _
          | apply Keeps.ite
          | apply Keeps.after (State.setFld_keeps ..)
          | apply Keeps.after (State.raise_keeps ..)
          | apply Keeps.after (State.cluEnter_keeps ..)
          | apply Keeps.after (State.schedEvent_keeps ..)
          | apply Keeps.after (State.suspendAll_keeps ..)
          | apply Keeps.after (State.restartAll_keeps ..)
          | apply Keeps.after (State.variantEntry_keeps ..)
          | apply Keeps.after (State.enterVariant_keeps ..)
          | fail_if_no_progress refine Keeps.mk' ?_ rfl rfl rfl rfl rfl rfl)
      | split
      | unfold v1
      | intro _
      | extract_lets
      | (dsimp +zetaDelta only; split)
  have hs5 : Keeps s s5 := by
    unfold s5
    repeat' first
      | (with_reducible first
          | assumption
          | exact .refl _
          | apply Keeps.ite
          | apply Keeps.after (State.setFld_keeps ..)
          | apply Keeps.after (State.raise_keeps ..)
          | apply Keeps.after (State.cluEnter_keeps ..)
          | apply Keeps.after (State.schedEvent_keeps ..)
          | apply Keeps.after (State.suspendAll_keeps ..)
          | apply Keeps.after (State.restartAll_keeps ..)
          | apply Keeps.after (State.variantEntry_keeps ..)
          | apply Keeps.after (State.enterVariant_keeps ..)
          | fail_if_no_progress refine Keeps.mk' ?_ rfl rfl rfl rfl rfl rfl)
      | split
      | unfold v1
      | intro _
      | extract_lets
      | (dsimp +zetaDelta only; split)
  repeat' first
    | (with_reducible first
        | assumption
        | exact .refl _
        | apply Keeps.ite
        | apply Keeps.after (State.setFld_keeps ..)
        | apply Keeps.after (State.raise_keeps ..)
        | apply Keeps.after (State.cluEnter_keeps ..)
        | apply Keeps.after (State.schedEvent_keeps ..)
        | apply Keeps.after (State.suspendAll_keeps ..)
        | apply Keeps.after (State.restartAll_keeps ..)
        | apply Keeps.after (State.variantEntry_keeps ..)
        | apply Keeps.after (State.enterVariant_keeps ..)
        | fail_if_no_progress refine Keeps.mk' ?_ rfl rfl rfl rfl rfl rfl)
    | split
    | unfold v1
    | intro _
    | extract_lets
    | (dsimp +zetaDelta only; split)

theorem State.stackVariant_keeps (s : State) (n : Nat) :
    Keeps s (State.stackVariant s n) := by
  unfold State.stackVariant
  repeat' first
    | (with_reducible first
        | assumption
        | exact .refl _
        | apply Keeps.ite
        | apply Keeps.after (State.enterVariant_keeps ..)
        | fail_if_no_progress refine Keeps.mk' ?_ rfl rfl rfl rfl rfl rfl)
    | split
    | intro _
    | extract_lets
    | (dsimp +zetaDelta only; split)

theorem State.portsVariant_keeps (s : State) :
    Keeps s (State.portsVariant s) := by
  unfold State.portsVariant
  repeat' first
    | (with_reducible first
        | assumption
        | exact .refl _
        | apply Keeps.ite
        | apply Keeps.after (State.enterVariant_keeps ..)
        | fail_if_no_progress refine Keeps.mk' ?_ rfl rfl rfl rfl rfl rfl)
    | split
    | intro _
    | extract_lets
    | (dsimp +zetaDelta only; split)

theorem State.returnHome_keeps (s : State) (i : Nat) :
    Keeps s (State.returnHome s i) := by
  unfold State.returnHome
  repeat' first
    | (with_reducible first
        | assumption
        | exact .refl _
        | apply Keeps.ite
        | apply Keeps.ite2
        | apply Keeps.ite1
        | apply Keeps.after (State.setChan_keeps ..)
        | apply Keeps.after (State.moveCapsules_keeps ..)
        | fail_if_no_progress refine Keeps.mk' ?_ rfl rfl rfl rfl rfl rfl
        | apply Keeps.foldl
        | apply Keeps.foldlPair)
    | split
    | intro _
    | extract_lets
    | (dsimp +zetaDelta only; split)

theorem execChannelReturnHome_keeps (c : Fin 262144) (s : State) :
    OKeeps s (execChannelReturnHome c s) := by
  unfold execChannelReturnHome
  repeat' first
    | (with_reducible first
        | assumption
        | exact .refl _
        | apply OKeeps.next
        | apply OKeeps.ite
        | apply Keeps.ite
        | apply Keeps.after (State.returnHome_keeps ..)
        | fail_if_no_progress refine Keeps.mk' ?_ rfl rfl rfl rfl rfl rfl)
    | intro _

theorem State.resumeChan_keeps (s : State) (i : Nat) :
    Keeps s (State.resumeChan s i) := by
  unfold State.resumeChan
  extract_lets _
  repeat' first
    | (with_reducible first
        | assumption
        | exact .refl _
        | apply Keeps.ite
        | apply Keeps.after (State.raise_keeps ..)
        | apply Keeps.after (State.setChan_keeps ..)
        | fail_if_no_progress refine Keeps.mk' ?_ rfl rfl rfl rfl rfl rfl)
    | intro _

theorem State.exitVariant_keeps (s : State) :
    Keeps s (State.exitVariant s) := by
  unfold State.exitVariant
  repeat' first
    | (with_reducible first
        | assumption
        | exact .refl _
        | apply Keeps.ite
        | apply Keeps.ite2
        | apply Keeps.ite1
        | apply Keeps.after (State.schedEvent_keeps ..)
        | apply Keeps.after (State.replaceWork_keeps ..)
        | apply Keeps.after (State.moveCapsules_keeps ..)
        | apply Keeps.after (State.variantEntry_keeps ..)
        | apply Keeps.after (State.resumeChan_keeps ..)
        | apply Keeps.after (State.wrReg_keeps ..)
        | apply Keeps.after (State.raise_keeps ..)
        | apply Keeps.after (State.cluEnter_keeps ..)
        | fail_if_no_progress refine Keeps.mk' ?_ rfl rfl rfl rfl rfl rfl
        | apply Keeps.foldl
        | apply Keeps.foldlPair)
    | split
    | intro _
    | extract_lets
    | (dsimp +zetaDelta only; split)

end Sys2Proof.Machine
end

