-- ==== Sys2Proof/Laws/KeepCipher.lean ====
section
/-!
SUPPORT. What the operations of Machine/Cipher.lean keep (Laws/Keep.lean).
-/

namespace Sys2Proof.Machine

open Sys2Proof

theorem State.setKey_keeps (s : State) (i : Nat) (k : Option KeyPair) :
    Keeps s (State.setKey s i k) := by
  unfold State.setKey
  extract_lets _
  repeat' first
    | (with_reducible first
        | assumption
        | exact .refl _
        | apply Keeps.ite
        | fail_if_no_progress refine Keeps.mk' ?_ rfl rfl rfl rfl rfl rfl)

theorem State.setKek_keeps (s : State) (i : Nat) (k : List Byte) :
    Keeps s (State.setKek s i k) := by
  unfold State.setKek
  extract_lets _
  repeat' first
    | (with_reducible first
        | assumption
        | exact .refl _
        | apply Keeps.ite
        | fail_if_no_progress refine Keeps.mk' ?_ rfl rfl rfl rfl rfl rfl)

theorem State.postCipher_keeps (s : State) (k : Nat) (ref : Ref) (inv passes : Nat) (latency : Bool) (pair : Option KeyPair) :
    Keeps s (State.postCipher s k ref inv passes latency pair) := by
  unfold State.postCipher
  repeat' first
    | (with_reducible first
        | assumption
        | exact .refl _
        | apply Keeps.ite
        | apply Keeps.ite2
        | apply Keeps.ite1
        | apply Keeps.after (State.setFld_keeps ..)
        | apply Keeps.after (State.acc_keeps ..)
        | apply Keeps.after (State.overrun_keeps ..)
        | fail_if_no_progress refine Keeps.mk' ?_ rfl rfl rfl rfl rfl rfl
        | apply Keeps.foldl
        | apply Keeps.foldlPair)
    | split
    | intro _
    | extract_lets
    | (dsimp +zetaDelta only; split)

theorem State.dropCipher_keeps (s : State) (r : CipReq) :
    Keeps s (State.dropCipher s r) := by
  unfold State.dropCipher
  extract_lets _
  repeat' first
    | (with_reducible first
        | assumption
        | exact .refl _
        | apply Keeps.ite
        | fail_if_no_progress refine Keeps.mk' ?_ rfl rfl rfl rfl rfl rfl)

theorem State.keyChange_keeps (s : State) (c : KeyChange) :
    Keeps s (State.keyChange s c) := by
  unfold State.keyChange
  extract_lets _
  repeat' first
    | (with_reducible first
        | assumption
        | exact .refl _
        | apply Keeps.ite
        | apply Keeps.after (State.changes_keeps ..)
        | fail_if_no_progress refine Keeps.mk' ?_ rfl rfl rfl rfl rfl rfl)

theorem keyLoadPair_keeps (ok : Bool) (blob : List Byte) (d : Desc) (s : State) :
    Keeps s (keyLoadPair ok blob d s) := by
  unfold keyLoadPair
  extract_lets v1 v2 v3 v4 v5 v6 s1
  have hs1 : Keeps s s1 := by
    unfold s1
    repeat' first
      | (with_reducible first
          | assumption
          | exact .refl _
          | apply Keeps.ite
          | apply Keeps.after (State.cntCip_keeps ..))
  repeat' first
    | (with_reducible first
        | assumption
        | exact .refl _
        | apply Keeps.ite
        | apply Keeps.after (State.cntCip_keeps ..)
        | apply Keeps.after (State.done_keeps ..)
        | apply Keeps.after (State.replicate_keeps ..)
        | apply Keeps.after (State.checked_keeps (hok := ?_) ..)
        | apply Keeps.after (State.keyChange_keeps ..)
        | apply Keeps.after (State.changes_keeps ..)
        | fail_if_no_progress refine Keeps.mk' ?_ rfl rfl rfl rfl rfl rfl)
    | split
    | unfold v1
    | unfold v2
    | unfold v3
    | unfold v4
    | unfold v5
    | unfold v6
    | intro _

theorem keyLoadKek_keeps (ok : Bool) (blob : List Byte) (d : Desc) (s : State) :
    Keeps s (keyLoadKek ok blob d s) := by
  unfold keyLoadKek
  extract_lets v1 v2 v3 v4 v5 v6 s1
  have hs1 : Keeps s s1 := by
    unfold s1
    repeat' first
      | (with_reducible first
          | assumption
          | exact .refl _
          | apply Keeps.ite
          | apply Keeps.after (State.cntCip_keeps ..))
  repeat' first
    | (with_reducible first
        | assumption
        | exact .refl _
        | apply Keeps.ite
        | apply Keeps.after (State.cntCip_keeps ..)
        | apply Keeps.after (State.done_keeps ..)
        | apply Keeps.after (State.replicate_keeps ..)
        | apply Keeps.after (State.checked_keeps (hok := ?_) ..)
        | apply Keeps.after (State.keyChange_keeps ..)
        | fail_if_no_progress refine Keeps.mk' ?_ rfl rfl rfl rfl rfl rfl)
    | split
    | unfold v1
    | unfold v2
    | unfold v3
    | unfold v4
    | unfold v5
    | unfold v6
    | intro _

theorem keyLoad_keeps (ok : Bool) (blob : List Byte) (d : Desc) (s : State) :
    Keeps s (keyLoad ok blob d s) := by
  unfold keyLoad
  extract_lets _
  repeat' first
    | (with_reducible first
        | assumption
        | exact .refl _
        | apply Keeps.ite
        | apply Keeps.after (State.checked_keeps (hok := ?_) ..)
        | apply Keeps.after (keyLoadPair_keeps ..)
        | apply Keeps.after (keyLoadKek_keeps ..)
        | fail_if_no_progress refine Keeps.mk' ?_ rfl rfl rfl rfl rfl rfl)
    | intro _

theorem execKeyLoad_keeps (ok : Bool) (blob : List Byte) (s : State) :
    OKeeps s (execKeyLoad ok blob s) := by
  unfold execKeyLoad
  repeat' first
    | (with_reducible first
        | assumption
        | exact .refl _
        | apply OKeeps.next
        | apply OKeeps.ite
        | apply Keeps.ite
        | apply Keeps.after (State.ringData_keeps (hbody := ?_) ..)
        | apply Keeps.after (keyLoad_keeps ..)
        | fail_if_no_progress refine Keeps.mk' ?_ rfl rfl rfl rfl rfl rfl)
    | intro _

theorem keyDestroy_keeps (d : Desc) (s : State) :
    Keeps s (keyDestroy d s) := by
  unfold keyDestroy
  extract_lets _ _ _
  repeat' first
    | (with_reducible first
        | assumption
        | exact .refl _
        | apply Keeps.ite
        | apply Keeps.after (State.checked_keeps (hok := ?_) ..)
        | apply Keeps.after (State.keyChange_keeps ..)
        | fail_if_no_progress refine Keeps.mk' ?_ rfl rfl rfl rfl rfl rfl)
    | intro _

theorem execKeyDestroy_keeps (s : State) :
    OKeeps s (execKeyDestroy s) := by
  unfold execKeyDestroy
  repeat' first
    | (with_reducible first
        | assumption
        | exact .refl _
        | apply OKeeps.next
        | apply OKeeps.ite
        | apply Keeps.ite
        | apply Keeps.after (State.ringCmd_keeps (hbody := ?_) ..)
        | apply Keeps.after (keyDestroy_keeps ..)
        | fail_if_no_progress refine Keeps.mk' ?_ rfl rfl rfl rfl rfl rfl)
    | intro _

theorem State.keyApply_keeps (s : State) (c : KeyChange) :
    Keeps s (State.keyApply s c) := by
  unfold State.keyApply
  repeat' first
    | (with_reducible first
        | assumption
        | exact .refl _
        | apply Keeps.ite
        | apply Keeps.after (State.doneOpt_keeps ..)
        | apply Keeps.after (State.setKey_keeps ..)
        | apply Keeps.after (State.setKek_keeps ..))

theorem execCipKeySelWrite_keeps (w : Word) (s : State) :
    OKeeps s (execCipKeySelWrite w s) := by
  unfold execCipKeySelWrite
  repeat' first
    | (with_reducible first
        | assumption
        | exact .refl _
        | apply OKeeps.next
        | apply OKeeps.ite
        | apply Keeps.ite
        | apply Keeps.after (State.hostWrite_keeps (hf := ?_) ..)
        | apply Keeps.after (State.regWrite_keeps ..)
        | fail_if_no_progress refine Keeps.mk' ?_ rfl rfl rfl rfl rfl rfl)
    | intro _

theorem State.keySnap_keeps (s : State) :
    Keeps s (State.keySnap s) := by
  unfold State.keySnap
  extract_lets _ _ _ s1
  have hs1 : Keeps s s1 := by
    unfold s1
    repeat' first
      | (with_reducible first
          | assumption
          | exact .refl _
          | apply Keeps.ite
          | apply Keeps.after (State.wrReg_keeps ..)
          | fail_if_no_progress refine Keeps.mk' ?_ rfl rfl rfl rfl rfl rfl)
  repeat' first
    | (with_reducible first
        | assumption
        | exact .refl _
        | apply Keeps.ite
        | apply Keeps.after (State.wrReg_keeps ..))

theorem State.discardCipher_keeps (s : State) (denied : Bool) (r : CipReq) :
    Keeps s (State.discardCipher s denied r) := by
  unfold State.discardCipher
  extract_lets s1
  have hs1 : Keeps s s1 := by
    unfold s1
    repeat' first
      | (with_reducible first
          | assumption
          | exact .refl _
          | apply Keeps.ite
          | apply Keeps.after (State.cntCip_keeps ..)
          | apply Keeps.after (State.updWb_keeps ..)
          | apply Keeps.after (State.dropItems_keeps ..)
          | apply Keeps.after (State.wakeWb_keeps ..)
          | apply Keeps.after (State.updVol_keeps ..)
          | apply Keeps.after (State.dropWork_keeps ..)
          | apply Keeps.after (State.dropCipher_keeps ..))
  repeat' first
    | (with_reducible first
        | assumption
        | exact .refl _
        | apply Keeps.ite
        | apply Keeps.after (State.cntCip_keeps ..)
        | apply Keeps.after (State.updWb_keeps ..)
        | apply Keeps.after (State.dropItems_keeps ..)
        | apply Keeps.after (State.wakeWb_keeps ..)
        | apply Keeps.after (State.updVol_keeps ..)
        | apply Keeps.after (State.dropWork_keeps ..)
        | apply Keeps.after (State.dropCipher_keeps ..)
        | fail_if_no_progress refine Keeps.mk' ?_ rfl rfl rfl rfl rfl rfl)
    | split

theorem State.zeroise_keeps (s : State) :
    Keeps s (State.zeroise s) := by
  unfold State.zeroise
  extract_lets _ _ s1 s2 _ _ s3
  have hs1 : Keeps s s1 := by
    unfold s1
    repeat' first
      | (with_reducible first
          | assumption
          | exact .refl _
          | apply Keeps.ite
          | apply Keeps.ite2
          | apply Keeps.after (State.setFld_keeps ..))
  have hs2 : Keeps s s2 := by
    unfold s2
    repeat' first
      | (with_reducible first
          | assumption
          | exact .refl _
          | apply Keeps.ite
          | apply Keeps.ite2
          | apply Keeps.after (State.setFld_keeps ..)
          | apply Keeps.after (State.doneOpt_keeps ..)
          | apply Keeps.after (State.discardCipher_keeps ..)
          | apply Keeps.after (State.changes_keeps ..)
          | fail_if_no_progress refine Keeps.mk' ?_ rfl rfl rfl rfl rfl rfl
          | apply Keeps.foldl
          | apply Keeps.foldlPair)
      | intro _
  have hs3 : Keeps s s3 := by
    unfold s3
    repeat' first
      | (with_reducible first
          | assumption
          | exact .refl _
          | apply Keeps.ite
          | apply Keeps.ite2
          | apply Keeps.after (State.setFld_keeps ..)
          | apply Keeps.after (State.doneOpt_keeps ..)
          | apply Keeps.after (State.discardCipher_keeps ..)
          | apply Keeps.after (State.changes_keeps ..)
          | fail_if_no_progress refine Keeps.mk' ?_ rfl rfl rfl rfl rfl rfl)
  repeat' first
    | (with_reducible first
        | assumption
        | exact .refl _
        | apply Keeps.ite
        | apply Keeps.ite2
        | apply Keeps.after (State.setFld_keeps ..)
        | apply Keeps.after (State.doneOpt_keeps ..)
        | apply Keeps.after (State.discardCipher_keeps ..)
        | apply Keeps.after (State.changes_keeps ..)
        | fail_if_no_progress refine Keeps.mk' ?_ rfl rfl rfl rfl rfl rfl
        | apply Keeps.foldl
        | apply Keeps.foldlPair)
    | intro _

theorem State.zeroAlarm_keeps (s : State) (code : Nat) :
    Keeps s (State.zeroAlarm s code) := by
  unfold State.zeroAlarm
  extract_lets _ s1
  have hs1 : Keeps s s1 := by
    unfold s1
    repeat' first
      | (with_reducible first
          | assumption
          | exact .refl _
          | apply Keeps.ite
          | apply Keeps.after (State.setFld_keeps ..)
          | apply Keeps.after (State.zeroLink_keeps ..)
          | apply Keeps.after (State.zeroise_keeps ..)
          | fail_if_no_progress refine Keeps.mk' ?_ rfl rfl rfl rfl rfl rfl)
  repeat' first
    | (with_reducible first
        | assumption
        | exact .refl _
        | apply Keeps.ite
        | apply Keeps.after (State.setFld_keeps ..)
        | apply Keeps.after (State.zeroLink_keeps ..)
        | apply Keeps.after (State.zeroise_keeps ..))

theorem State.alarm_keeps (s : State) (code k : Nat) :
    Keeps s (State.alarm s code k) := by
  unfold State.alarm
  extract_lets _ s1 s2 s3 s4
  have hs1 : Keeps s s1 := by
    unfold s1
    repeat' first
      | (with_reducible first
          | assumption
          | exact .refl _
          | apply Keeps.ite
          | apply Keeps.after (State.setFld_keeps ..)
          | apply Keeps.after (State.detect_keeps ..)
          | apply Keeps.after (State.discardCipher_keeps ..)
          | apply Keeps.after (State.zeroAlarm_keeps ..)
          | fail_if_no_progress refine Keeps.mk' ?_ rfl rfl rfl rfl rfl rfl)
  have hs2 : Keeps s s2 := by
    unfold s2
    repeat' first
      | (with_reducible first
          | assumption
          | exact .refl _
          | apply Keeps.ite
          | apply Keeps.after (State.setFld_keeps ..))
  have hs3 : Keeps s s3 := by
    unfold s3
    repeat' first
      | (with_reducible first
          | assumption
          | exact .refl _
          | apply Keeps.ite
          | apply Keeps.after (State.setFld_keeps ..)
          | apply Keeps.after (State.detect_keeps ..)
          | apply Keeps.after (State.discardCipher_keeps ..)
          | apply Keeps.after (State.zeroAlarm_keeps ..)
          | fail_if_no_progress refine Keeps.mk' ?_ rfl rfl rfl rfl rfl rfl
          | apply Keeps.foldl
          | apply Keeps.foldlPair)
      | intro _
  have hs4 : Keeps s s4 := by
    unfold s4
    repeat' first
      | (with_reducible first
          | assumption
          | exact .refl _
          | apply Keeps.ite
          | apply Keeps.after (State.setFld_keeps ..)
          | apply Keeps.after (State.detect_keeps ..)
          | apply Keeps.after (State.discardCipher_keeps ..)
          | apply Keeps.after (State.zeroAlarm_keeps ..)
          | fail_if_no_progress refine Keeps.mk' ?_ rfl rfl rfl rfl rfl rfl)
  repeat' first
    | (with_reducible first
        | assumption
        | exact .refl _
        | apply Keeps.ite
        | apply Keeps.after (State.setFld_keeps ..)
        | apply Keeps.after (State.detect_keeps ..)
        | apply Keeps.after (State.discardCipher_keeps ..)
        | apply Keeps.after (State.zeroAlarm_keeps ..))

theorem execCipherAlarm_keeps (code : Fin 17) (k : Fin 12) (s : State) :
    OKeeps s (execCipherAlarm code k s) := by
  unfold execCipherAlarm
  repeat' first
    | (with_reducible first
        | assumption
        | exact .refl _
        | apply OKeeps.next
        | apply OKeeps.ite
        | apply Keeps.ite
        | apply Keeps.after (State.alarm_keeps ..))

theorem execRngRetest_keeps (pass : Bool) (s : State) :
    OKeeps s (execRngRetest pass s) := by
  unfold execRngRetest
  extract_lets _
  repeat' first
    | (with_reducible first
        | assumption
        | exact .refl _
        | apply OKeeps.next
        | apply OKeeps.ite
        | apply Keeps.ite
        | fail_if_no_progress refine Keeps.mk' ?_ rfl rfl rfl rfl rfl rfl)

theorem State.alarmClear_keeps (w present : Word) (s : State) :
    Keeps s (State.alarmClear w present s) := by
  unfold State.alarmClear
  repeat' first
    | (with_reducible first
        | assumption
        | exact .refl _
        | apply Keeps.ite
        | apply Keeps.ite2
        | apply Keeps.ite1
        | apply Keeps.after (State.present_keeps ..)
        | apply Keeps.after (State.wrReg_keeps ..)
        | apply Keeps.after (State.setFld_keeps ..)
        | apply Keeps.after (State.cluWant_keeps ..)
        | fail_if_no_progress refine Keeps.mk' ?_ rfl rfl rfl rfl rfl rfl
        | apply Keeps.foldl
        | apply Keeps.foldlPair)
    | split
    | intro _
    | extract_lets
    | (dsimp +zetaDelta only; split)

theorem execCipAlarmClear_keeps (w present : Word) (s : State) :
    OKeeps s (execCipAlarmClear w present s) := by
  unfold execCipAlarmClear
  repeat' first
    | (with_reducible first
        | assumption
        | exact .refl _
        | apply OKeeps.next
        | apply OKeeps.ite
        | apply Keeps.ite
        | apply Keeps.after (State.hostWrite_keeps (hf := ?_) ..)
        | apply Keeps.after (State.alarmClear_keeps ..)
        | apply Keeps.after (State.present_keeps ..)
        | fail_if_no_progress refine Keeps.mk' ?_ rfl rfl rfl rfl rfl rfl)
    | intro _

theorem State.integrity_keeps (s : State) :
    Keeps s (State.integrity s) := by
  unfold State.integrity
  extract_lets v1 v2 v3 v4
  repeat' first
    | (with_reducible first
        | assumption
        | exact .refl _
        | apply Keeps.ite
        | apply Keeps.after (State.raise_keeps ..)
        | fail_if_no_progress refine Keeps.mk' ?_ rfl rfl rfl rfl rfl rfl)

theorem State.cipSeam_keeps (s : State) :
    Keeps s (State.cipSeam s) := by
  unfold State.cipSeam
  extract_lets v1 v2 v3 v4 v5 v6 s1 s2 s3 s4 s5 s6
  have hs1 : Keeps s s1 := by
    unfold s1
    repeat' first
      | (with_reducible first
          | assumption
          | exact .refl _
          | apply Keeps.ite
          | apply Keeps.ite2
          | apply Keeps.ite1
          | apply Keeps.after (State.setFld_keeps ..)
          | apply Keeps.after (State.raise_keeps ..)
          | apply Keeps.after (State.keyApply_keeps ..)
          | apply Keeps.after (State.keySnap_keeps ..)
          | apply Keeps.after (State.integrity_keeps ..)
          | apply Keeps.after (State.changes_keeps ..)
          | fail_if_no_progress refine Keeps.mk' ?_ rfl rfl rfl rfl rfl rfl)
  have hs2 : Keeps s s2 := by
    unfold s2
    repeat' first
      | (with_reducible first
          | assumption
          | exact .refl _
          | apply Keeps.ite
          | apply Keeps.ite2
          | apply Keeps.ite1
          | apply Keeps.after (State.setFld_keeps ..)
          | apply Keeps.after (State.raise_keeps ..)
          | apply Keeps.after (State.keyApply_keeps ..)
          | apply Keeps.after (State.keySnap_keeps ..)
          | apply Keeps.after (State.integrity_keeps ..)
          | apply Keeps.after (State.changes_keeps ..)
          | fail_if_no_progress refine Keeps.mk' ?_ rfl rfl rfl rfl rfl rfl
          | apply Keeps.foldl
          | apply Keeps.foldlPair)
      | split
      | unfold v1
      | unfold v2
      | unfold v3
      | unfold v4
      | unfold v5
      | unfold v6
      | intro _
  have hs3 : Keeps s s3 := by
    unfold s3
    repeat' first
      | (with_reducible first
          | assumption
          | exact .refl _
          | apply Keeps.ite
          | apply Keeps.ite2
          | apply Keeps.ite1
          | apply Keeps.after (State.setFld_keeps ..)
          | apply Keeps.after (State.raise_keeps ..)
          | apply Keeps.after (State.keyApply_keeps ..)
          | apply Keeps.after (State.keySnap_keeps ..)
          | apply Keeps.after (State.integrity_keeps ..)
          | apply Keeps.after (State.changes_keeps ..)
          | fail_if_no_progress refine Keeps.mk' ?_ rfl rfl rfl rfl rfl rfl
          | apply Keeps.foldl
          | apply Keeps.foldlPair)
      | split
      | unfold v1
      | unfold v2
      | unfold v3
      | unfold v4
      | unfold v5
      | unfold v6
      | intro _
  have hs4 : Keeps s s4 := by
    unfold s4
    repeat' first
      | (with_reducible first
          | assumption
          | exact .refl _
          | apply Keeps.ite
          | apply Keeps.ite2
          | apply Keeps.ite1
          | apply Keeps.after (State.setFld_keeps ..)
          | apply Keeps.after (State.raise_keeps ..)
          | apply Keeps.after (State.keyApply_keeps ..)
          | apply Keeps.after (State.keySnap_keeps ..)
          | apply Keeps.after (State.integrity_keeps ..)
          | apply Keeps.after (State.changes_keeps ..)
          | fail_if_no_progress refine Keeps.mk' ?_ rfl rfl rfl rfl rfl rfl
          | apply Keeps.foldl
          | apply Keeps.foldlPair)
      | split
      | unfold v1
      | unfold v2
      | unfold v3
  have hs5 : Keeps s s5 := by
    unfold s5
    repeat' first
      | (with_reducible first
          | assumption
          | exact .refl _
          | apply Keeps.ite
          | apply Keeps.ite2
          | apply Keeps.ite1
          | apply Keeps.after (State.setFld_keeps ..)
          | apply Keeps.after (State.raise_keeps ..))
  have hs6 : Keeps s s6 := by
    unfold s6
    repeat' first
      | (with_reducible first
          | assumption
          | exact .refl _
          | apply Keeps.ite
          | apply Keeps.ite2
          | apply Keeps.ite1
          | apply Keeps.after (State.setFld_keeps ..)
          | apply Keeps.after (State.raise_keeps ..))
  repeat' first
    | (with_reducible first
        | assumption
        | exact .refl _
        | apply Keeps.ite
        | apply Keeps.ite2
        | apply Keeps.ite1
        | apply Keeps.after (State.setFld_keeps ..)
        | apply Keeps.after (State.raise_keeps ..)
        | apply Keeps.after (State.keyApply_keeps ..)
        | apply Keeps.after (State.keySnap_keeps ..)
        | apply Keeps.after (State.integrity_keeps ..))

theorem State.chkStart_keeps (n : Nat) (w : Word) (s : State) :
    Keeps s (State.chkStart n w s) := by
  unfold State.chkStart
  extract_lets s1 _ _ _
  have hs1 : Keeps s s1 := by
    unfold s1
    repeat' first
      | (with_reducible first
          | assumption
          | exact .refl _
          | apply Keeps.ite
          | apply Keeps.after (State.setFld_keeps ..)
          | apply Keeps.after (State.regWrite_keeps ..))
  repeat' first
    | (with_reducible first
        | assumption
        | exact .refl _
        | apply Keeps.ite
        | apply Keeps.after (State.setFld_keeps ..)
        | apply Keeps.after (State.regWrite_keeps ..)
        | apply Keeps.after (State.run_keeps (hbody := ?_) ..)
        | fail_if_no_progress refine Keeps.mk' ?_ rfl rfl rfl rfl rfl rfl)

theorem execChkSwStart_keeps (n : Fin 2) (w : Word) (s : State) :
    OKeeps s (execChkSwStart n w s) := by
  unfold execChkSwStart
  repeat' first
    | (with_reducible first
        | assumption
        | exact .refl _
        | apply OKeeps.next
        | apply OKeeps.ite
        | apply Keeps.ite
        | apply Keeps.after (State.hostWrite_keeps (hf := ?_) ..)
        | apply Keeps.after (State.chkStart_keeps ..)
        | fail_if_no_progress refine Keeps.mk' ?_ rfl rfl rfl rfl rfl rfl)
    | intro _

theorem execChkSwDone_keeps (n : Fin 2) (ok : Bool) (data : List Byte) (s : State) :
    OKeeps s (execChkSwDone n ok data s) := by
  unfold execChkSwDone
  extract_lets v1 v2 s1
  have hs1 : Keeps s s1 := by
    unfold s1
    repeat' first
      | (with_reducible first
          | assumption
          | exact .refl _
          | apply OKeeps.next
          | apply OKeeps.ite
          | apply Keeps.ite
          | apply Keeps.after (State.wrReg_keeps ..)
          | apply Keeps.after (State.setFld_keeps ..)
          | fail_if_no_progress refine Keeps.mk' ?_ rfl rfl rfl rfl rfl rfl)
  repeat' first
    | (with_reducible first
        | assumption
        | exact .refl _
        | apply OKeeps.next
        | apply OKeeps.ite
        | apply Keeps.ite
        | apply Keeps.after (State.wrReg_keeps ..)
        | apply Keeps.after (State.setFld_keeps ..)
        | fail_if_no_progress refine Keeps.mk' ?_ rfl rfl rfl rfl rfl rfl)
    | split

theorem State.alive_keeps (s : State) (n c : Nat) :
    Keeps s (State.alive s n c).2 := by
  unfold State.alive
  extract_lets _ _ _ s1
  have hs1 : Keeps s s1 := by
    unfold s1
    repeat' first
      | (with_reducible first
          | assumption
          | exact .refl _
          | apply Keeps.ite
          | apply Keeps.ite2
          | apply Keeps.after (State.setFld_keeps ..)
          | apply Keeps.after (State.satFld_keeps ..))
  repeat' first
    | (with_reducible first
        | assumption
        | exact .refl _
        | apply Keeps.ite
        | apply Keeps.ite2
        | apply Keeps.after (State.setFld_keeps ..)
        | apply Keeps.after (State.satFld_keeps ..)
        | apply Keeps.after (State.raise_keeps ..))

end Sys2Proof.Machine
end

