-- ==== Sys2Proof/Laws/KeepPools.lean ====
section
/-!
SUPPORT. What the operations of Machine/Pools.lean keep (Laws/Keep.lean).
-/

namespace Sys2Proof.Machine

open Sys2Proof

theorem poolCreate_keeps (ok : Bool) (list : List Byte) (d : Desc) (s : State) :
    Keeps s (poolCreate ok list d s) := by
  unfold poolCreate
  extract_lets _ _ _ _ _
  repeat' first
    | (with_reducible first
        | assumption
        | exact .refl _
        | apply Keeps.ite
        | refine Keeps.trans ?_ (.pair (by assumption) (State.draw_keeps ..))
        | apply Keeps.after (State.draw_keeps ..)
        | apply Keeps.after (State.checked_keeps (hok := ?_) ..)
        | apply Keeps.after (State.setPool_keeps ..)
        | fail_if_no_progress refine Keeps.mk' ?_ rfl rfl rfl rfl rfl rfl)
    | split
    | intro _

theorem execPoolCreate_keeps (ok : Bool) (list : List Byte) (s : State) :
    OKeeps s (execPoolCreate ok list s) := by
  unfold execPoolCreate
  repeat' first
    | (with_reducible first
        | assumption
        | exact .refl _
        | apply OKeeps.next
        | apply OKeeps.ite
        | apply Keeps.ite
        | apply Keeps.after (State.ringData_keeps (hbody := ?_) ..)
        | apply Keeps.after (poolCreate_keeps ..)
        | fail_if_no_progress refine Keeps.mk' ?_ rfl rfl rfl rfl rfl rfl)
    | intro _

theorem State.formatPool_keeps (s : State) (p : Nat) :
    Keeps s (State.formatPool s p) := by
  unfold State.formatPool
  repeat' first
    | (with_reducible first
        | assumption
        | exact .refl _
        | apply Keeps.ite
        | apply Keeps.ite2
        | apply Keeps.ite1
        | apply Keeps.after (State.writeLabels_keeps ..)
        | apply Keeps.after (State.emitNet_keeps ..)
        | fail_if_no_progress refine Keeps.mk' ?_ rfl rfl rfl rfl rfl rfl
        | apply Keeps.foldl
        | apply Keeps.foldlPair)
    | split
    | intro _
    | extract_lets
    | (dsimp +zetaDelta only; split)

theorem State.poolOnline_keeps (s : State) (p : Nat) :
    Keeps s (State.poolOnline s p) := by
  unfold State.poolOnline
  repeat' first
    | (with_reducible first
        | assumption
        | exact .refl _
        | apply Keeps.ite
        | apply Keeps.ite2
        | apply Keeps.ite1
        | apply Keeps.after (State.setPool_keeps ..)
        | apply Keeps.after (State.dirtyLimit_keeps ..)
        | apply Keeps.after (State.raise_keeps ..)
        | apply Keeps.after (State.doneOpt_keeps ..)
        | apply Keeps.after (State.formatPool_keeps ..)
        | fail_if_no_progress refine Keeps.mk' ?_ rfl rfl rfl rfl rfl rfl
        | apply Keeps.foldl
        | apply Keeps.foldlPair)
    | split
    | intro _
    | extract_lets
    | (dsimp +zetaDelta only; split)

theorem poolDestroy_keeps (d : Desc) (s : State) :
    Keeps s (poolDestroy d s) := by
  unfold poolDestroy
  extract_lets _ _
  repeat' first
    | (with_reducible first
        | assumption
        | exact .refl _
        | apply Keeps.ite
        | apply Keeps.after (State.emitNet_keeps ..)
        | apply Keeps.after (State.defer_keeps ..)
        | apply Keeps.after (State.checked_keeps (hok := ?_) ..)
        | fail_if_no_progress refine Keeps.mk' ?_ rfl rfl rfl rfl rfl rfl
        | apply Keeps.foldl
        | apply Keeps.foldlPair)
    | intro _

theorem execPoolDestroy_keeps (s : State) :
    OKeeps s (execPoolDestroy s) := by
  unfold execPoolDestroy
  repeat' first
    | (with_reducible first
        | assumption
        | exact .refl _
        | apply OKeeps.next
        | apply OKeeps.ite
        | apply Keeps.ite
        | apply Keeps.after (State.ringCmd_keeps (hbody := ?_) ..)
        | apply Keeps.after (poolDestroy_keeps ..)
        | fail_if_no_progress refine Keeps.mk' ?_ rfl rfl rfl rfl rfl rfl)
    | intro _

theorem State.poolGone_keeps (s : State) (d : Desc) :
    Keeps s (State.poolGone s d) := by
  unfold State.poolGone
  extract_lets _ _ s1
  have hs1 : Keeps s s1 := by
    unfold s1
    repeat' first
      | (with_reducible first
          | assumption
          | exact .refl _
          | apply Keeps.ite
          | apply Keeps.after (State.done_keeps ..)
          | apply Keeps.after (State.dropItems_keeps ..)
          | apply Keeps.after (State.setPool_keeps ..)
          | apply Keeps.after (State.dropWork_keeps ..)
          | apply Keeps.after (State.dirtyLimit_keeps ..)
          | fail_if_no_progress refine Keeps.mk' ?_ rfl rfl rfl rfl rfl rfl
          | apply Keeps.foldl
          | apply Keeps.foldlPair)
      | intro _
  repeat' first
    | (with_reducible first
        | assumption
        | exact .refl _
        | apply Keeps.ite
        | apply Keeps.after (State.done_keeps ..)
        | apply Keeps.after (State.dropItems_keeps ..)
        | apply Keeps.after (State.setPool_keeps ..)
        | apply Keeps.after (State.dropWork_keeps ..)
        | apply Keeps.after (State.dirtyLimit_keeps ..))

theorem poolMemberAdd_keeps (d : Desc) (s : State) :
    Keeps s (poolMemberAdd d s) := by
  unfold poolMemberAdd
  extract_lets _ _ _ _ _
  repeat' first
    | (with_reducible first
        | assumption
        | exact .refl _
        | apply Keeps.ite
        | apply Keeps.after (State.checked_keeps (hok := ?_) ..)
        | apply Keeps.after (State.updPool_keeps ..)
        | apply Keeps.after (State.changes_keeps ..)
        | fail_if_no_progress refine Keeps.mk' ?_ rfl rfl rfl rfl rfl rfl)
    | intro _

theorem execPoolMemberAdd_keeps (s : State) :
    OKeeps s (execPoolMemberAdd s) := by
  unfold execPoolMemberAdd
  repeat' first
    | (with_reducible first
        | assumption
        | exact .refl _
        | apply OKeeps.next
        | apply OKeeps.ite
        | apply Keeps.ite
        | apply Keeps.after (State.ringCmd_keeps (hbody := ?_) ..)
        | apply Keeps.after (poolMemberAdd_keeps ..)
        | fail_if_no_progress refine Keeps.mk' ?_ rfl rfl rfl rfl rfl rfl)
    | intro _

theorem poolMemberRemove_keeps (d : Desc) (s : State) :
    Keeps s (poolMemberRemove d s) := by
  unfold poolMemberRemove
  extract_lets _ _ _ _
  repeat' first
    | (with_reducible first
        | assumption
        | exact .refl _
        | apply Keeps.ite
        | apply Keeps.after (State.checked_keeps (hok := ?_) ..)
        | apply Keeps.after (State.updPool_keeps ..)
        | apply Keeps.after (State.present_keeps ..)
        | apply Keeps.after (State.changes_keeps ..)
        | fail_if_no_progress refine Keeps.mk' ?_ rfl rfl rfl rfl rfl rfl)
    | intro _

theorem execPoolMemberRemove_keeps (s : State) :
    OKeeps s (execPoolMemberRemove s) := by
  unfold execPoolMemberRemove
  repeat' first
    | (with_reducible first
        | assumption
        | exact .refl _
        | apply OKeeps.next
        | apply OKeeps.ite
        | apply Keeps.ite
        | apply Keeps.after (State.ringCmd_keeps (hbody := ?_) ..)
        | apply Keeps.after (poolMemberRemove_keeps ..)
        | fail_if_no_progress refine Keeps.mk' ?_ rfl rfl rfl rfl rfl rfl)
    | intro _

theorem State.dropLine_keeps (s : State) (i : Nat) :
    Keeps s (State.dropLine s i) := by
  unfold State.dropLine
  extract_lets s1 _
  have hs1 : Keeps s s1 := by
    unfold s1
    repeat' first
      | (with_reducible first
          | assumption
          | exact .refl _
          | apply Keeps.ite
          | apply Keeps.ite1
          | apply Keeps.after (State.setLine_keeps ..))
  repeat' first
    | (with_reducible first
        | assumption
        | exact .refl _
        | apply Keeps.ite
        | apply Keeps.ite1
        | apply Keeps.after (State.setLine_keeps ..)
        | fail_if_no_progress refine Keeps.mk' ?_ rfl rfl rfl rfl rfl rfl)

theorem State.dropLines_keeps (s : State) (v t : Nat) (shadows : Bool) :
    Keeps s (State.dropLines s v t shadows) := by
  unfold State.dropLines
  repeat' first
    | (with_reducible first
        | assumption
        | exact .refl _
        | apply Keeps.ite
        | apply Keeps.ite2
        | apply Keeps.ite1
        | apply Keeps.after (State.dropLine_keeps ..)
        | fail_if_no_progress refine Keeps.mk' ?_ rfl rfl rfl rfl rfl rfl
        | apply Keeps.foldl
        | apply Keeps.foldlPair)
    | intro _

theorem State.trimDirty_keeps (s : State) (p : Nat) :
    Keeps s (State.trimDirty s p) := by
  unfold State.trimDirty
  repeat' first
    | (with_reducible first
        | assumption
        | exact .refl _
        | apply Keeps.ite
        | apply Keeps.after (State.updPool_keeps ..))

theorem volCreate_keeps (d : Desc) (s : State) :
    Keeps s (volCreate d s) := by
  unfold volCreate
  extract_lets _ _ _ _ _ _ _
  repeat' first
    | (with_reducible first
        | assumption
        | exact .refl _
        | apply Keeps.ite
        | apply Keeps.after (State.defer_keeps ..)
        | apply Keeps.after (State.checked_keeps (hok := ?_) ..)
        | fail_if_no_progress refine Keeps.mk' ?_ rfl rfl rfl rfl rfl rfl)
    | intro _

theorem execVolCreate_keeps (s : State) :
    OKeeps s (execVolCreate s) := by
  unfold execVolCreate
  repeat' first
    | (with_reducible first
        | assumption
        | exact .refl _
        | apply OKeeps.next
        | apply OKeeps.ite
        | apply Keeps.ite
        | apply Keeps.after (State.ringCmd_keeps (hbody := ?_) ..)
        | apply Keeps.after (volCreate_keeps ..)
        | fail_if_no_progress refine Keeps.mk' ?_ rfl rfl rfl rfl rfl rfl)
    | intro _

theorem State.volCreateNow_keeps (s : State) (d : Desc) :
    Keeps s (State.volCreateNow s d) := by
  unfold State.volCreateNow
  repeat' first
    | (with_reducible first
        | assumption
        | exact .refl _
        | apply Keeps.ite
        | apply Keeps.ite2
        | apply Keeps.ite1
        | apply Keeps.after (State.nsChanged_keeps ..)
        | apply Keeps.after (State.updPool_keeps ..)
        | apply Keeps.after (State.setVol_keeps ..)
        | apply Keeps.after (State.chanMaps_keeps ..)
        | apply Keeps.after (State.raise_keeps ..)
        | apply Keeps.after (State.done_keeps ..)
        | fail_if_no_progress refine Keeps.mk' ?_ rfl rfl rfl rfl rfl rfl
        | apply Keeps.foldl
        | apply Keeps.foldlPair)
    | split
    | intro _
    | extract_lets
    | (dsimp +zetaDelta only; split)

theorem volResize_keeps (d : Desc) (s : State) :
    Keeps s (volResize d s) := by
  unfold volResize
  extract_lets _ _ _ _
  repeat' first
    | (with_reducible first
        | assumption
        | exact .refl _
        | apply Keeps.ite
        | apply Keeps.after (State.defer_keeps ..)
        | apply Keeps.after (State.checked_keeps (hok := ?_) ..)
        | fail_if_no_progress refine Keeps.mk' ?_ rfl rfl rfl rfl rfl rfl)
    | intro _

theorem execVolResize_keeps (s : State) :
    OKeeps s (execVolResize s) := by
  unfold execVolResize
  repeat' first
    | (with_reducible first
        | assumption
        | exact .refl _
        | apply OKeeps.next
        | apply OKeeps.ite
        | apply Keeps.ite
        | apply Keeps.after (State.ringCmd_keeps (hbody := ?_) ..)
        | apply Keeps.after (volResize_keeps ..)
        | fail_if_no_progress refine Keeps.mk' ?_ rfl rfl rfl rfl rfl rfl)
    | intro _

theorem State.volSized_keeps (s : State) (v blocks : Nat) :
    Keeps s (State.volSized s v blocks) := by
  unfold State.volSized
  repeat' first
    | (with_reducible first
        | assumption
        | exact .refl _
        | apply Keeps.ite
        | apply Keeps.ite2
        | apply Keeps.ite1
        | apply Keeps.after (State.nsChanged_keeps ..)
        | apply Keeps.after (State.updPool_keeps ..)
        | apply Keeps.after (State.updVol_keeps ..)
        | apply Keeps.after (State.chanMaps_keeps ..)
        | fail_if_no_progress refine Keeps.mk' ?_ rfl rfl rfl rfl rfl rfl
        | apply Keeps.foldl
        | apply Keeps.foldlPair)
    | split
    | intro _
    | extract_lets
    | (dsimp +zetaDelta only; split)

theorem State.volResizeNow_keeps (s : State) (d : Desc) :
    Keeps s (State.volResizeNow s d) := by
  unfold State.volResizeNow
  extract_lets _ _ _ _ _ _ s1 s2 s3 _ _ s4
  have hs1 : Keeps s s1 := by
    unfold s1
    repeat' first
      | (with_reducible first
          | assumption
          | exact .refl _
          | apply Keeps.ite
          | apply Keeps.after (State.done_keeps ..)
          | apply Keeps.after (State.updPool_keeps ..)
          | apply Keeps.after (State.updVol_keeps ..))
  have hs2 : Keeps s s2 := by
    unfold s2
    repeat' first
      | (with_reducible first
          | assumption
          | exact .refl _
          | apply Keeps.ite
          | apply Keeps.after (State.done_keeps ..)
          | apply Keeps.after (State.updPool_keeps ..)
          | apply Keeps.after (State.updVol_keeps ..))
  have hs3 : Keeps s s3 := by
    unfold s3
    repeat' first
      | (with_reducible first
          | assumption
          | exact .refl _
          | apply Keeps.ite
          | apply Keeps.after (State.done_keeps ..)
          | apply Keeps.after (State.updPool_keeps ..)
          | apply Keeps.after (State.updVol_keeps ..)
          | apply Keeps.after (State.dropLines_keeps ..)
          | apply Keeps.after (State.trimDirty_keeps ..)
          | apply Keeps.after (State.volSized_keeps ..))
  have hs4 : Keeps s s4 := by
    unfold s4
    repeat' first
      | (with_reducible first
          | assumption
          | exact .refl _
          | apply Keeps.ite
          | apply Keeps.after (State.done_keeps ..)
          | apply Keeps.after (State.updPool_keeps ..)
          | apply Keeps.after (State.updVol_keeps ..))
  repeat' first
    | (with_reducible first
        | assumption
        | exact .refl _
        | apply Keeps.ite
        | apply Keeps.after (State.done_keeps ..)
        | apply Keeps.after (State.updPool_keeps ..)
        | apply Keeps.after (State.updVol_keeps ..)
        | apply Keeps.after (State.dropLines_keeps ..)
        | apply Keeps.after (State.trimDirty_keeps ..)
        | apply Keeps.after (State.volSized_keeps ..))

theorem volDelete_keeps (d : Desc) (s : State) :
    Keeps s (volDelete d s) := by
  unfold volDelete
  extract_lets _ _
  repeat' first
    | (with_reducible first
        | assumption
        | exact .refl _
        | apply Keeps.ite
        | apply Keeps.after (State.defer_keeps ..)
        | apply Keeps.after (State.checked_keeps (hok := ?_) ..)
        | fail_if_no_progress refine Keeps.mk' ?_ rfl rfl rfl rfl rfl rfl)
    | intro _

theorem execVolDelete_keeps (s : State) :
    OKeeps s (execVolDelete s) := by
  unfold execVolDelete
  repeat' first
    | (with_reducible first
        | assumption
        | exact .refl _
        | apply OKeeps.next
        | apply OKeeps.ite
        | apply Keeps.ite
        | apply Keeps.after (State.ringCmd_keeps (hbody := ?_) ..)
        | apply Keeps.after (volDelete_keeps ..)
        | fail_if_no_progress refine Keeps.mk' ?_ rfl rfl rfl rfl rfl rfl)
    | intro _

theorem State.volDeleteNow_keeps (s : State) (d : Desc) :
    Keeps s (State.volDeleteNow s d) := by
  unfold State.volDeleteNow
  extract_lets _ s1
  have hs1 : Keeps s s1 := by
    unfold s1
    repeat' first
      | (with_reducible first
          | assumption
          | exact .refl _
          | apply Keeps.ite
          | apply Keeps.after (State.updVol_keeps ..)
          | apply Keeps.after (State.dropLines_keeps ..))
  repeat' first
    | (with_reducible first
        | assumption
        | exact .refl _
        | apply Keeps.ite
        | apply Keeps.after (State.updVol_keeps ..)
        | apply Keeps.after (State.dropLines_keeps ..)
        | apply Keeps.after (State.trimDirty_keeps ..))

theorem State.volSeam_keeps (s : State) (v : Nat) :
    Keeps s (State.volSeam s v) := by
  unfold State.volSeam
  extract_lets v1 v2 s1 s2 s3
  have hs1 : Keeps s s1 := by
    unfold s1
    repeat' first
      | (with_reducible first
          | assumption
          | exact .refl _
          | apply Keeps.ite
          | apply Keeps.after (State.raise_keeps ..)
          | apply Keeps.after (State.updPool_keeps ..)
          | apply Keeps.after (State.updVol_keeps ..))
  have hs2 : Keeps s s2 := by
    unfold s2
    repeat' first
      | (with_reducible first
          | assumption
          | exact .refl _
          | apply Keeps.ite
          | apply Keeps.after (State.raise_keeps ..)
          | apply Keeps.after (State.updPool_keeps ..)
          | apply Keeps.after (State.updVol_keeps ..)
          | apply Keeps.after (State.volSized_keeps ..)
          | fail_if_no_progress refine Keeps.mk' ?_ rfl rfl rfl rfl rfl rfl)
      | split
  have hs3 : Keeps s s3 := by
    unfold s3
    repeat' first
      | (with_reducible first
          | assumption
          | exact .refl _
          | apply Keeps.ite
          | apply Keeps.after (State.raise_keeps ..)
          | apply Keeps.after (State.updPool_keeps ..)
          | apply Keeps.after (State.updVol_keeps ..))
  repeat' first
    | (with_reducible first
        | assumption
        | exact .refl _
        | apply Keeps.ite
        | apply Keeps.after (State.raise_keeps ..)
        | apply Keeps.after (State.updPool_keeps ..)
        | apply Keeps.after (State.updVol_keeps ..))

theorem State.volFlushed_keeps (s : State) (v : Nat) :
    Keeps s (State.volFlushed s v) := by
  unfold State.volFlushed
  extract_lets _ s1
  have hs1 : Keeps s s1 := by
    unfold s1
    repeat' first
      | (with_reducible first
          | assumption
          | exact .refl _
          | apply Keeps.ite
          | apply Keeps.after (State.doneOpt_keeps ..)
          | apply Keeps.after (State.setVol_keeps ..)
          | apply Keeps.after (State.updVol_keeps ..)
          | apply Keeps.after (State.nsChanged_keeps ..)
          | apply Keeps.after (State.dropLines_keeps ..))
  repeat' first
    | (with_reducible first
        | assumption
        | exact .refl _
        | apply Keeps.ite
        | apply Keeps.after (State.doneOpt_keeps ..))

theorem execLayVolSelWrite_keeps (w : Word) (s : State) :
    OKeeps s (execLayVolSelWrite w s) := by
  unfold execLayVolSelWrite
  repeat' first
    | (with_reducible first
        | assumption
        | exact .refl _
        | apply OKeeps.next
        | apply OKeeps.ite
        | apply Keeps.ite
        | apply Keeps.after (State.hostWrite_keeps (hf := ?_) ..)
        | apply Keeps.after (State.regWrite_keeps ..)
        | fail_if_no_progress refine Keeps.mk' ?_ rfl rfl rfl rfl rfl rfl)
    | intro _

theorem State.volSnap_keeps (s : State) :
    Keeps s (State.volSnap s) := by
  unfold State.volSnap
  extract_lets _ _ _ s1 s2 s3 s4
  have hs1 : Keeps s s1 := by
    unfold s1
    repeat' first
      | (with_reducible first
          | assumption
          | exact .refl _
          | apply Keeps.ite
          | apply Keeps.after (State.wrReg_keeps ..)
          | apply Keeps.after (State.dirtyLost_keeps ..)
          | fail_if_no_progress refine Keeps.mk' ?_ rfl rfl rfl rfl rfl rfl)
  have hs2 : Keeps s s2 := by
    unfold s2
    repeat' first
      | (with_reducible first
          | assumption
          | exact .refl _
          | apply Keeps.ite
          | apply Keeps.after (State.wrReg_keeps ..))
  have hs3 : Keeps s s3 := by
    unfold s3
    repeat' first
      | (with_reducible first
          | assumption
          | exact .refl _
          | apply Keeps.ite
          | apply Keeps.after (State.wrReg_keeps ..))
  have hs4 : Keeps s s4 := by
    unfold s4
    repeat' first
      | (with_reducible first
          | assumption
          | exact .refl _
          | apply Keeps.ite
          | apply Keeps.after (State.wrReg_keeps ..))
  repeat' first
    | (with_reducible first
        | assumption
        | exact .refl _
        | apply Keeps.ite
        | apply Keeps.after (State.wrReg_keeps ..))

theorem State.startResync_keeps (s : State) (p : Nat) (full : Bool) (listed : List (Nat × Nat)) :
    Keeps s (State.startResync s p full listed) := by
  unfold State.startResync
  extract_lets _ _ _
  repeat' first
    | (with_reducible first
        | assumption
        | exact .refl _
        | apply Keeps.ite
        | apply Keeps.after (State.raise_keeps ..)
        | apply Keeps.after (State.setPool_keeps ..))

theorem State.resyncSeam_keeps (s : State) (p : Nat) :
    Keeps s (State.resyncSeam s p) := by
  unfold State.resyncSeam
  repeat' first
    | (with_reducible first
        | assumption
        | exact .refl _
        | apply Keeps.ite
        | apply Keeps.after (State.raise_keeps ..)
        | apply Keeps.after (State.updPool_keeps ..)
        | fail_if_no_progress refine Keeps.mk' ?_ rfl rfl rfl rfl rfl rfl)
    | split

theorem State.importPool_keeps (s : State) (im : Import) (ls : List (Nat × List Byte)) (l : List Byte) :
    Keeps s (State.importPool s im ls l) := by
  unfold State.importPool
  extract_lets _ _ _ _ _ _ _ _ _ _ _ _ _
  repeat' first
    | (with_reducible first
        | assumption
        | exact .refl _
        | apply Keeps.ite
        | apply Keeps.ite2
        | apply Keeps.ite1
        | apply Keeps.after (State.done_keeps ..)
        | apply Keeps.after (State.setPool_keeps ..)
        | apply Keeps.after (State.slotsChanged_keeps ..))

theorem State.importLine_keeps (s : State) (l : ImpLine) :
    Keeps s (State.importLine s l) := by
  unfold State.importLine
  extract_lets _ _ s1
  have hs1 : Keeps s s1 := by
    unfold s1
    repeat' first
      | (with_reducible first
          | assumption
          | exact .refl _
          | apply Keeps.ite
          | apply Keeps.ite1
          | apply Keeps.after (State.setLine_keeps ..))
  repeat' first
    | (with_reducible first
        | assumption
        | exact .refl _
        | apply Keeps.ite
        | apply Keeps.ite1
        | apply Keeps.after (State.setLine_keeps ..)
        | apply Keeps.after (State.addDirty_keeps ..))

theorem State.importVol_keeps (s : State) (r : ImpVol) :
    Keeps s (State.importVol s r) := by
  unfold State.importVol
  extract_lets _ _
  repeat' first
    | (with_reducible first
        | assumption
        | exact .refl _
        | apply Keeps.ite
        | apply Keeps.after (State.setVol_keeps ..))

theorem State.dirtyLost_keeps (s : State) (v cause n : Nat) :
    Keeps s (State.dirtyLost s v cause n) := by
  unfold State.dirtyLost
  repeat' first
    | (with_reducible first
        | assumption
        | exact .refl _
        | apply Keeps.ite
        | apply Keeps.after (State.raise_keeps ..)
        | apply Keeps.after (State.updVol_keeps ..)
        | apply Keeps.after (State.reliability_keeps ..))

theorem State.poolImport_keeps (s : State) (im : Import) :
    Keeps s (State.poolImport s im) := by
  unfold State.poolImport
  extract_lets v1 v2 v3 v4 v5 v6 v7 s1 s2 s3 s4 v8 s5 s6 v9 v10 v11 s7 s8
  have hs1 : Keeps s s1 := by
    unfold s1
    repeat' first
      | (with_reducible first
          | assumption
          | exact .refl _
          | apply Keeps.ite
          | apply Keeps.ite2
          | apply Keeps.ite1
          | apply Keeps.after (State.setFld_keeps ..)
          | apply Keeps.after (State.raise_keeps ..)
          | apply Keeps.after (State.startResync_keeps ..)
          | apply Keeps.after (State.importPool_keeps ..)
          | apply Keeps.after (State.importLine_keeps ..)
          | apply Keeps.after (State.importVol_keeps ..)
          | apply Keeps.after (State.dirtyLost_keeps ..)
          | apply Keeps.after (State.each_keeps (hf := ?_) ..)
          | fail_if_no_progress refine Keeps.mk' ?_ rfl rfl rfl rfl rfl rfl)
  have hs2 : Keeps s s2 := by
    unfold s2
    repeat' first
      | (with_reducible first
          | assumption
          | exact .refl _
          | apply Keeps.ite
          | apply Keeps.ite2
          | apply Keeps.ite1
          | apply Keeps.after (State.setFld_keeps ..))
  have hs3 : Keeps s s3 := by
    unfold s3
    repeat' first
      | (with_reducible first
          | assumption
          | exact .refl _
          | apply Keeps.ite
          | apply Keeps.ite2
          | apply Keeps.ite1
          | apply Keeps.after (State.setFld_keeps ..)
          | apply Keeps.after (State.raise_keeps ..)
          | apply Keeps.after (State.startResync_keeps ..)
          | apply Keeps.after (State.importPool_keeps ..)
          | apply Keeps.after (State.importLine_keeps ..)
          | apply Keeps.after (State.importVol_keeps ..)
          | apply Keeps.after (State.dirtyLost_keeps ..)
          | apply Keeps.after (State.each_keeps (hf := ?_) ..)
          | fail_if_no_progress refine Keeps.mk' ?_ rfl rfl rfl rfl rfl rfl
          | apply Keeps.foldl
          | apply Keeps.foldlPair)
      | split
      | unfold v1
      | unfold v2
      | unfold v3
      | unfold v4
      | unfold v5
      | unfold v6
      | unfold v7
      | unfold v8
      | unfold v9
      | unfold v10
      | unfold v11
      | intro _
  have hs4 : Keeps s s4 := by
    unfold s4
    repeat' first
      | (with_reducible first
          | assumption
          | exact .refl _
          | apply Keeps.ite
          | apply Keeps.ite2
          | apply Keeps.ite1
          | apply Keeps.after (State.setFld_keeps ..)
          | apply Keeps.after (State.raise_keeps ..)
          | apply Keeps.after (State.startResync_keeps ..)
          | apply Keeps.after (State.importPool_keeps ..)
          | apply Keeps.after (State.importLine_keeps ..)
          | apply Keeps.after (State.importVol_keeps ..)
          | apply Keeps.after (State.dirtyLost_keeps ..)
          | apply Keeps.after (State.each_keeps (hf := ?_) ..)
          | fail_if_no_progress refine Keeps.mk' ?_ rfl rfl rfl rfl rfl rfl
          | apply Keeps.foldl
          | apply Keeps.foldlPair)
      | split
      | unfold v1
      | unfold v2
      | unfold v3
      | unfold v4
      | unfold v5
      | unfold v6
      | unfold v7
      | unfold v8
      | unfold v9
      | unfold v10
      | unfold v11
      | intro _
  have hs5 : Keeps s s5 := by
    unfold s5
    repeat' first
      | (with_reducible first
          | assumption
          | exact .refl _
          | apply Keeps.ite
          | apply Keeps.ite2
          | apply Keeps.ite1
          | apply Keeps.after (State.setFld_keeps ..)
          | apply Keeps.after (State.raise_keeps ..)
          | apply Keeps.after (State.startResync_keeps ..)
          | apply Keeps.after (State.importPool_keeps ..)
          | apply Keeps.after (State.importLine_keeps ..)
          | apply Keeps.after (State.importVol_keeps ..)
          | apply Keeps.after (State.dirtyLost_keeps ..)
          | apply Keeps.after (State.each_keeps (hf := ?_) ..)
          | fail_if_no_progress refine Keeps.mk' ?_ rfl rfl rfl rfl rfl rfl)
  have hs6 : Keeps s s6 := by
    unfold s6
    repeat' first
      | (with_reducible first
          | assumption
          | exact .refl _
          | apply Keeps.ite
          | apply Keeps.ite2
          | apply Keeps.ite1
          | apply Keeps.after (State.setFld_keeps ..)
          | apply Keeps.after (State.raise_keeps ..)
          | apply Keeps.after (State.startResync_keeps ..)
          | apply Keeps.after (State.importPool_keeps ..)
          | apply Keeps.after (State.importLine_keeps ..)
          | apply Keeps.after (State.importVol_keeps ..)
          | apply Keeps.after (State.dirtyLost_keeps ..)
          | apply Keeps.after (State.each_keeps (hf := ?_) ..)
          | fail_if_no_progress refine Keeps.mk' ?_ rfl rfl rfl rfl rfl rfl
          | apply Keeps.foldl
          | apply Keeps.foldlPair)
      | split
      | unfold v1
      | unfold v2
      | unfold v3
      | unfold v4
      | unfold v5
      | unfold v6
      | unfold v7
      | unfold v8
      | unfold v9
      | unfold v10
      | unfold v11
      | intro _
  have hs7 : Keeps s s7 := by
    unfold s7
    repeat' first
      | (with_reducible first
          | assumption
          | exact .refl _
          | apply Keeps.ite
          | apply Keeps.ite2
          | apply Keeps.ite1
          | apply Keeps.after (State.setFld_keeps ..)
          | apply Keeps.after (State.raise_keeps ..)
          | apply Keeps.after (State.startResync_keeps ..)
          | apply Keeps.after (State.importPool_keeps ..)
          | apply Keeps.after (State.importLine_keeps ..)
          | apply Keeps.after (State.importVol_keeps ..)
          | apply Keeps.after (State.dirtyLost_keeps ..)
          | apply Keeps.after (State.each_keeps (hf := ?_) ..)
          | fail_if_no_progress refine Keeps.mk' ?_ rfl rfl rfl rfl rfl rfl)
  have hs8 : Keeps s s8 := by
    unfold s8
    repeat' first
      | (with_reducible first
          | assumption
          | exact .refl _
          | apply Keeps.ite
          | apply Keeps.ite2
          | apply Keeps.ite1
          | apply Keeps.after (State.setFld_keeps ..)
          | apply Keeps.after (State.raise_keeps ..)
          | apply Keeps.after (State.startResync_keeps ..)
          | apply Keeps.after (State.importPool_keeps ..)
          | apply Keeps.after (State.importLine_keeps ..)
          | apply Keeps.after (State.importVol_keeps ..)
          | apply Keeps.after (State.dirtyLost_keeps ..)
          | apply Keeps.after (State.each_keeps (hf := ?_) ..)
          | fail_if_no_progress refine Keeps.mk' ?_ rfl rfl rfl rfl rfl rfl
          | apply Keeps.foldl
          | apply Keeps.foldlPair)
      | split
      | unfold v1
      | unfold v2
      | unfold v3
      | unfold v4
      | unfold v5
      | unfold v6
      | unfold v7
      | unfold v8
      | unfold v9
      | unfold v10
      | unfold v11
      | intro _
  repeat' first
    | (with_reducible first
        | assumption
        | exact .refl _
        | apply Keeps.ite
        | apply Keeps.ite2
        | apply Keeps.ite1
        | apply Keeps.after (State.setFld_keeps ..)
        | apply Keeps.after (State.raise_keeps ..)
        | apply Keeps.after (State.startResync_keeps ..)
        | apply Keeps.after (State.importPool_keeps ..)
        | apply Keeps.after (State.importLine_keeps ..)
        | apply Keeps.after (State.importVol_keeps ..)
        | apply Keeps.after (State.dirtyLost_keeps ..)
        | apply Keeps.after (State.each_keeps (hf := ?_) ..)
        | fail_if_no_progress refine Keeps.mk' ?_ rfl rfl rfl rfl rfl rfl
        | apply Keeps.foldl
        | apply Keeps.foldlPair)
    | split
    | unfold v1
    | unfold v2
    | unfold v3
    | unfold v4
    | unfold v5
    | unfold v6
    | unfold v7
    | unfold v8
    | unfold v9
    | unfold v10
    | unfold v11
    | intro _

theorem execPoolImport_keeps (im : Import) (s : State) :
    OKeeps s (execPoolImport im s) := by
  unfold execPoolImport
  repeat' first
    | (with_reducible first
        | assumption
        | exact .refl _
        | apply OKeeps.next
        | apply OKeeps.ite
        | apply Keeps.ite
        | apply Keeps.after (State.poolImport_keeps ..))

end Sys2Proof.Machine
end

