-- ==== Sys2Proof/Laws/KeepRoutine.lean ====
section
/-!
SUPPORT. What the operations of Machine/Routine.lean keep (Laws/Keep.lean).
-/

namespace Sys2Proof.Machine

open Sys2Proof

theorem State.spend_keeps (s : State) (r : SlotRun) :
    Keeps s (State.spend s r) := by
  unfold State.spend
  repeat' first
    | (with_reducible first
        | assumption
        | exact .refl _
        | apply Keeps.ite
        | apply Keeps.ite2
        | apply Keeps.ite1
        | apply Keeps.after (State.acc_keeps ..)
        | fail_if_no_progress refine Keeps.mk' ?_ rfl rfl rfl rfl rfl rfl
        | apply Keeps.foldl
        | apply Keeps.foldlPair)
    | split
    | intro _
    | extract_lets
    | (dsimp +zetaDelta only; split)

theorem State.enter_keeps (s : State) (r : SlotRun) (it : Item) :
    Keeps s (State.enter s r it) := by
  unfold State.enter
  repeat' first
    | (with_reducible first
        | assumption
        | exact .refl _
        | apply Keeps.ite
        | apply Keeps.ite2
        | apply Keeps.ite1
        | apply Keeps.after (State.acc_keeps ..)
        | apply Keeps.after (State.spend_keeps ..)
        | fail_if_no_progress refine Keeps.mk' ?_ rfl rfl rfl rfl rfl rfl
        | apply Keeps.foldl
        | apply Keeps.foldlPair)
    | split
    | intro _
    | extract_lets
    | (dsimp +zetaDelta only; split)

theorem State.advance_keeps (s : State) (it : Item) (code leg : Nat) (wait : Wait) (at_ : Nat) :
    Keeps s (State.advance s it code leg wait at_) := by
  unfold State.advance
  extract_lets _
  repeat' first
    | (with_reducible first
        | assumption
        | exact .refl _
        | apply Keeps.ite
        | fail_if_no_progress refine Keeps.mk' ?_ rfl rfl rfl rfl rfl rfl)

theorem State.endItem_keeps (s : State) (it : Item) :
    Keeps s (State.endItem s it) := by
  unfold State.endItem
  extract_lets _
  repeat' first
    | (with_reducible first
        | assumption
        | exact .refl _
        | apply Keeps.ite
        | fail_if_no_progress refine Keeps.mk' ?_ rfl rfl rfl rfl rfl rfl)

theorem State.later_keeps (s : State) (it : Item) :
    Keeps s (State.later s it) := by
  exact State.advance_keeps ..

theorem State.run_keeps (s : State) (k : Fin 12) (c : Fin 256) (code : Nat) (body : Item → State → State) (hbody : ∀ a0 x, Keeps x (body a0 x)) :
    Keeps s (State.run s k c code body) := by
  unfold State.run
  repeat' first
    | (with_reducible first
        | assumption
        | exact .refl _
        | apply Keeps.ite
        | apply Keeps.ite2
        | apply Keeps.ite1
        | apply Keeps.after (hbody ..)
        | apply Keeps.after (State.enter_keeps ..)
        | fail_if_no_progress refine Keeps.mk' ?_ rfl rfl rfl rfl rfl rfl
        | apply Keeps.foldl
        | apply Keeps.foldlPair)
    | split
    | intro _
    | extract_lets
    | (dsimp +zetaDelta only; split)

theorem State.laneDone_keeps (s : State) :
    Keeps s (State.laneDone s) := by
  unfold State.laneDone
  extract_lets v1
  repeat' first
    | (with_reducible first
        | assumption
        | exact .refl _
        | apply Keeps.ite
        | fail_if_no_progress refine Keeps.mk' ?_ rfl rfl rfl rfl rfl rfl)
    | split

theorem execMemoryLaneComplete_keeps (s : State) :
    OKeeps s (execMemoryLaneComplete s) := by
  unfold execMemoryLaneComplete
  repeat' first
    | (with_reducible first
        | assumption
        | exact .refl _
        | apply OKeeps.next
        | apply OKeeps.ite
        | apply Keeps.ite
        | apply Keeps.after (State.laneDone_keeps ..))

theorem State.releaseRef_keeps (s : State) (r : Ref) :
    Keeps s (State.releaseRef s r) := by
  unfold State.releaseRef
  repeat' first
    | (with_reducible first
        | assumption
        | exact .refl _
        | apply Keeps.ite
        | apply Keeps.ite1
        | apply Keeps.after (State.freeTag_keeps ..)
        | fail_if_no_progress refine Keeps.mk' ?_ rfl rfl rfl rfl rfl rfl
        | apply Keeps.foldl
        | apply Keeps.foldlPair)
    | intro _

theorem State.postParity_keeps (s : State) (k : Nat) (r : Ref) :
    Keeps s (State.postParity s k r) := by
  unfold State.postParity
  repeat' first
    | (with_reducible first
        | assumption
        | exact .refl _
        | apply Keeps.ite
        | apply Keeps.ite2
        | apply Keeps.ite1
        | apply Keeps.after (State.acc_keeps ..)
        | apply Keeps.after (State.parityAdd_keeps ..)
        | fail_if_no_progress refine Keeps.mk' ?_ rfl rfl rfl rfl rfl rfl
        | apply Keeps.foldl
        | apply Keeps.foldlPair)
    | split
    | intro _
    | extract_lets
    | (dsimp +zetaDelta only; split)

theorem State.parityDone_keeps (s : State) (k : Nat) :
    Keeps s (State.parityDone s k) := by
  unfold State.parityDone
  extract_lets v1
  repeat' first
    | (with_reducible first
        | assumption
        | exact .refl _
        | apply Keeps.ite
        | apply Keeps.after (State.wakeRef_keeps ..)
        | apply Keeps.after (State.releaseRef_keeps ..)
        | fail_if_no_progress refine Keeps.mk' ?_ rfl rfl rfl rfl rfl rfl)
    | split

theorem execParityRequestComplete_keeps (k : Fin 12) (s : State) :
    OKeeps s (execParityRequestComplete k s) := by
  unfold execParityRequestComplete
  repeat' first
    | (with_reducible first
        | assumption
        | exact .refl _
        | apply OKeeps.next
        | apply OKeeps.ite
        | apply Keeps.ite
        | apply Keeps.after (State.parityDone_keeps ..))

theorem State.submit_keeps (s t : State) (c : DrvCmd) (h : s.submit c = .ok t) : Keeps s t := by
  unfold State.submit at h
  extract_lets n q x depth m c2 s1 s2 s3 at h
  split at h
  · cases h
  split at h
  · cases h; exact (State.drvEntry_keeps ..).trans (State.setCmd_keeps ..)
  split at h
  · cases h
  split at h
  · cases h
  split at h
  · cases h
  cases h
  have h1 : Keeps s s1 := (State.setCmd_keeps ..).trans (State.updBay_keeps ..)
  have h2 : Keeps s s2 := .ite h1 (h1.trans (State.updBay_keeps ..))
  have h3 : Keeps s s3 := (h2.trans (State.acc_keeps ..)).trans (State.acc_keeps ..)
  exact (h3.trans (State.digest_keeps ..)).trans (State.emitNet_keeps ..)

theorem State.submitMany_keeps (ref : Ref) (k p : Nat) (write maint : Bool) (n : Nat) (xs : List Xfer) (s : State) :
    Keeps s (State.submitMany ref k p write maint n xs s).st := by
  induction n generalizing xs s with
  | zero => cases xs <;> exact .refl _
  | succ n ih =>
    cases xs with
    | nil => exact .refl _
    | cons x xs =>
      unfold State.submitMany
      extract_lets r c
      split
      · rename_i t h
        exact .trans (.ite (State.submit_keeps _ _ _ h) ((State.submit_keeps _ _ _ h).trans (State.updPool_keeps ..))) (ih ..)
      all_goals exact .refl _

theorem State.toReap_keeps (s : State) (it : Item) :
    Keeps s (State.toReap s it) := by
  unfold State.toReap
  repeat' first
    | (with_reducible first
        | assumption
        | exact .refl _
        | apply Keeps.ite
        | apply Keeps.ite2
        | apply Keeps.after (State.advance_keeps ..))

end Sys2Proof.Machine
end

