-- ==== Sys2Proof/Laws/KeepPoolWork.lean ====
section
/-!
SUPPORT. What the operations of Machine/PoolWork.lean keep (Laws/Keep.lean).
-/

namespace Sys2Proof.Machine

open Sys2Proof

/-- What a routine starts keeps both. -/
def StartKeeps (start : Starts) : Prop := ∀ s p t, start s p = some t → Keeps s t

theorem State.takeStripe_keeps (s : State) (p k : Nat) (e : DirtyStripe) :
    Keeps s (State.takeStripe s p k e) := by
  unfold State.takeStripe
  extract_lets _ _ _ s1 s2
  have hs1 : Keeps s s1 := by
    unfold s1
    repeat' first
      | (with_reducible first
          | assumption
          | exact .refl _
          | apply Keeps.ite
          | apply Keeps.ite2
          | apply Keeps.ite1
          | apply Keeps.after (State.updPool_keeps ..)
          | apply Keeps.after (State.updLine_keeps ..)
          | apply Keeps.after (State.newWork_keeps ..)
          | apply Keeps.after (State.parityPlan_keeps ..)
          | fail_if_no_progress refine Keeps.mk' ?_ rfl rfl rfl rfl rfl rfl
          | apply Keeps.foldl
          | apply Keeps.foldlPair)
      | intro _
      | extract_lets
  have hs2 : Keeps s s2 := by
    unfold s2
    repeat' first
      | (with_reducible first
          | assumption
          | exact .refl _
          | apply Keeps.ite
          | apply Keeps.ite2
          | apply Keeps.ite1
          | apply Keeps.after (State.updPool_keeps ..)
          | apply Keeps.after (State.updLine_keeps ..)
          | apply Keeps.after (State.newWork_keeps ..)
          | apply Keeps.after (State.parityPlan_keeps ..)
          | fail_if_no_progress refine Keeps.mk' ?_ rfl rfl rfl rfl rfl rfl
          | apply Keeps.foldl
          | apply Keeps.foldlPair)
      | intro _
      | extract_lets
  repeat' first
    | (with_reducible first
        | assumption
        | exact .refl _
        | apply Keeps.ite
        | apply Keeps.ite2
        | apply Keeps.ite1
        | apply Keeps.after (State.updPool_keeps ..)
        | apply Keeps.after (State.updLine_keeps ..)
        | apply Keeps.after (State.newWork_keeps ..)
        | apply Keeps.after (State.parityPlan_keeps ..)
        | fail_if_no_progress refine Keeps.mk' ?_ rfl rfl rfl rfl rfl rfl
        | apply Keeps.foldl
        | apply Keeps.foldlPair)
    | intro _
    | extract_lets

theorem State.openStart_keeps (s : State) (r : SlotRun) (code : Nat) :
    Keeps s (State.openStart s r code) := by
  unfold State.openStart
  repeat' first
    | (with_reducible first
        | assumption
        | exact .refl _
        | apply Keeps.ite
        | apply Keeps.ite2
        | apply Keeps.ite1
        | apply Keeps.after (State.acc_keeps ..)
        | apply Keeps.after (State.lanePost_keeps ..)
        | apply Keeps.after (State.spend_keeps ..)
        | fail_if_no_progress refine Keeps.mk' ?_ rfl rfl rfl rfl rfl rfl
        | apply Keeps.foldl
        | apply Keeps.foldlPair)
    | split
    | intro _
    | extract_lets
    | (dsimp +zetaDelta only; split)

theorem State.startRun_keeps (s : State) (k c code : Nat) (start : Starts) (h : StartKeeps start) :
    Keeps s (State.startRun s k c code start) := by
  unfold State.startRun
  split
  · split
    · exact (h _ _ _ ‹_›).trans (State.openStart_keeps ..)
    · exact .refl _
  · exact .refl _

theorem State.poolRun_keeps (s : State) (k c code : Nat) (leg : Item → State → State) (start : Starts) (hleg : ∀ a x, Keeps x (leg a x))
    (h : StartKeeps start) : Keeps s (State.poolRun s k c code leg start) := by
  unfold State.poolRun
  split
  · exact (State.enter_keeps ..).trans (hleg ..)
  · exact State.startRun_keeps _ _ _ _ _ h

theorem State.beginDestage_keeps (k : Nat) : StartKeeps (State.beginDestage k) := by
  intro s p t h
  unfold State.beginDestage at h
  split at h
  · split at h <;> cases h
    exact State.takeStripe_keeps ..
  · cases h

theorem State.destageStep_keeps (s : State) (k c : Nat) : Keeps s (State.destageStep s k c) :=
  State.startRun_keeps _ _ _ _ _ (State.beginDestage_keeps k)

theorem execDestageStep_keeps (k : Fin 12) (c : Fin 256) (s : State) :
    OKeeps s (execDestageStep k c s) := by
  unfold execDestageStep
  repeat' first
    | (with_reducible first
        | assumption
        | exact .refl _
        | apply OKeeps.next
        | apply OKeeps.ite
        | apply Keeps.ite
        | apply Keeps.after (State.destageStep_keeps ..)
        | fail_if_no_progress refine Keeps.mk' ?_ rfl rfl rfl rfl rfl rfl)
    | intro _

theorem State.dropShadows_keeps (s : State) (is : List Nat) :
    Keeps s (State.dropShadows s is) := by
  unfold State.dropShadows
  repeat' first
    | (with_reducible first
        | assumption
        | exact .refl _
        | apply Keeps.ite
        | apply Keeps.after (State.setLine_keeps ..)
        | fail_if_no_progress refine Keeps.mk' ?_ rfl rfl rfl rfl rfl rfl
        | apply Keeps.foldl
        | apply Keeps.foldlPair)
    | intro _
    | extract_lets

theorem State.linesBack_keeps (s : State) (w : Work) :
    Keeps s (State.linesBack s w) := by
  unfold State.linesBack
  extract_lets s1
  have hs1 : Keeps s s1 := by
    unfold s1
    repeat' first
      | (with_reducible first
          | assumption
          | exact .refl _
          | apply Keeps.ite
          | apply Keeps.ite1
          | apply Keeps.after (State.updLine_keeps ..)
          | apply Keeps.after (State.addDirty_keeps ..)
          | fail_if_no_progress refine Keeps.mk' ?_ rfl rfl rfl rfl rfl rfl
          | apply Keeps.foldl
          | apply Keeps.foldlPair)
      | intro _
      | extract_lets
  repeat' first
    | (with_reducible first
        | assumption
        | exact .refl _
        | apply Keeps.ite
        | apply Keeps.ite1
        | apply Keeps.after (State.updLine_keeps ..)
        | apply Keeps.after (State.addDirty_keeps ..)
        | fail_if_no_progress refine Keeps.mk' ?_ rfl rfl rfl rfl rfl rfl
        | apply Keeps.foldl
        | apply Keeps.foldlPair)
    | intro _
    | extract_lets

theorem State.actDone_keeps (s : State) (p id : Nat) :
    Keeps s (State.actDone s p id) := by
  unfold State.actDone
  repeat' first
    | (with_reducible first
        | assumption
        | exact .refl _
        | apply Keeps.ite
        | apply Keeps.after (State.done_keeps ..)
        | apply Keeps.after (State.updPool_keeps ..)
        | fail_if_no_progress refine Keeps.mk' ?_ rfl rfl rfl rfl rfl rfl)
    | intro _
    | extract_lets

theorem State.flushed_keeps (s : State) (p : Nat) (f : FlushFor) :
    Keeps s (State.flushed s p f) := by
  unfold State.flushed
  repeat' first
    | (with_reducible first
        | assumption
        | exact .refl _
        | apply Keeps.ite
        | apply Keeps.after (State.wakeWb_keeps ..)
        | apply Keeps.after (State.updPool_keeps ..)
        | apply Keeps.after (State.volFlushed_keeps ..)
        | fail_if_no_progress refine Keeps.mk' ?_ rfl rfl rfl rfl rfl rfl)
    | split
    | intro _
    | extract_lets
    | (dsimp +zetaDelta only; split)

theorem State.retireEntry_keeps (s : State) (slot : Nat) (shadows : List Nat) :
    Keeps s (State.retireEntry s slot shadows) := by
  unfold State.retireEntry
  repeat' first
    | (with_reducible first
        | assumption
        | exact .refl _
        | apply Keeps.ite
        | apply Keeps.after (State.setJent_keeps ..)
        | apply Keeps.after (State.dropShadows_keeps ..)
        | fail_if_no_progress refine Keeps.mk' ?_ rfl rfl rfl rfl rfl rfl)
    | intro _

theorem State.workCounts_keeps (s : State) (w : Work) (copied : Bool) :
    Keeps s (State.workCounts s w copied) := by
  unfold State.workCounts
  repeat' first
    | (with_reducible first
        | assumption
        | exact .refl _
        | apply Keeps.ite
        | apply Keeps.ite1
        | apply Keeps.after (State.cntLay_keeps ..)
        | apply Keeps.after (State.cntMnt_keeps ..)
        | apply Keeps.after (State.updPool_keeps ..)
        | apply Keeps.after (State.updVol_keeps ..)
        | apply Keeps.after (State.actDone_keeps ..)
        | apply Keeps.after (State.flushed_keeps ..)
        | apply Keeps.after (State.retireEntry_keeps ..)
        | fail_if_no_progress refine Keeps.mk' ?_ rfl rfl rfl rfl rfl rfl
        | apply Keeps.foldl
        | apply Keeps.foldlPair)
    | split
    | intro _
    | extract_lets
    | (dsimp +zetaDelta only; split)

theorem State.endWork_keeps (s : State) (it : Item) (w : Work) (copied : Bool) :
    Keeps s (State.endWork s it w copied) := by
  unfold State.endWork
  repeat' first
    | (with_reducible first
        | assumption
        | exact .refl _
        | apply Keeps.ite
        | apply Keeps.after (State.dropWork_keeps ..)
        | apply Keeps.after (State.endItem_keeps ..)
        | apply Keeps.after (State.releaseRef_keeps ..)
        | apply Keeps.after (State.workCounts_keeps ..)
        | fail_if_no_progress refine Keeps.mk' ?_ rfl rfl rfl rfl rfl rfl)
    | intro _

theorem State.dropRows_keeps (s : State) (w : Work) (rows : List Nat) :
    Keeps s (State.dropRows s w rows) := by
  unfold State.dropRows
  extract_lets _ _ s1 s2
  have hs1 : Keeps s s1 := by
    unfold s1
    repeat' first
      | (with_reducible first
          | assumption
          | exact .refl _
          | apply Keeps.ite
          | apply Keeps.ite2
          | apply Keeps.ite1
          | apply Keeps.after (State.updLine_keeps ..)
          | apply Keeps.after (State.updWork_keeps ..)
          | apply Keeps.after (State.wantMark_keeps ..)
          | fail_if_no_progress refine Keeps.mk' ?_ rfl rfl rfl rfl rfl rfl
          | apply Keeps.foldl
          | apply Keeps.foldlPair)
      | intro _
      | extract_lets
  have hs2 : Keeps s s2 := by
    unfold s2
    repeat' first
      | (with_reducible first
          | assumption
          | exact .refl _
          | apply Keeps.ite
          | apply Keeps.ite2
          | apply Keeps.ite1
          | apply Keeps.after (State.updLine_keeps ..)
          | apply Keeps.after (State.updWork_keeps ..)
          | apply Keeps.after (State.wantMark_keeps ..)
          | fail_if_no_progress refine Keeps.mk' ?_ rfl rfl rfl rfl rfl rfl
          | apply Keeps.foldl
          | apply Keeps.foldlPair)
      | intro _
      | extract_lets
  repeat' first
    | (with_reducible first
        | assumption
        | exact .refl _
        | apply Keeps.ite
        | apply Keeps.ite2
        | apply Keeps.ite1
        | apply Keeps.after (State.updLine_keeps ..)
        | apply Keeps.after (State.updWork_keeps ..)
        | apply Keeps.after (State.wantMark_keeps ..)
        | fail_if_no_progress refine Keeps.mk' ?_ rfl rfl rfl rfl rfl rfl
        | apply Keeps.foldl
        | apply Keeps.foldlPair)
    | intro _
    | extract_lets

theorem State.emptyDestage_keeps (s : State) (it : Item) (w : Work) :
    Keeps s (State.emptyDestage s it w) := by
  unfold State.emptyDestage
  repeat' first
    | (with_reducible first
        | assumption
        | exact .refl _
        | apply Keeps.ite
        | apply Keeps.after (State.advance_keeps ..)
        | apply Keeps.after (State.linesBack_keeps ..)
        | apply Keeps.after (State.endWork_keeps ..)
        | apply Keeps.after (State.journalRetire_keeps ..)
        | fail_if_no_progress refine Keeps.mk' ?_ rfl rfl rfl rfl rfl rfl)
    | split
    | intro _
    | extract_lets
    | (dsimp +zetaDelta only; split)

theorem State.parityPlan_keeps (it : Item) (s : State) :
    Keeps s (State.parityPlan it s) := by
  unfold State.parityPlan
  repeat' first
    | (with_reducible first
        | assumption
        | exact .refl _
        | apply Keeps.ite
        | apply Keeps.ite2
        | apply Keeps.ite1
        | apply Keeps.after (State.cntLay_keeps ..)
        | apply Keeps.after (State.updWork_keeps ..)
        | apply Keeps.after (State.advance_keeps ..)
        | apply Keeps.after (State.endItem_keeps ..)
        | apply Keeps.after (State.postParity_keeps ..)
        | apply Keeps.after (State.dropRows_keeps ..)
        | apply Keeps.after (State.emptyDestage_keeps ..)
        | apply Keeps.after (State.journalPut_keeps ..)
        | apply Keeps.after (State.drvSubmit_keeps ..)
        | fail_if_no_progress refine Keeps.mk' ?_ rfl rfl rfl rfl rfl rfl)
    | split
    | intro _
    | extract_lets
    | (dsimp +zetaDelta only; split)

theorem execParityPlan_keeps (k : Fin 12) (c : Fin 256) (s : State) :
    OKeeps s (execParityPlan k c s) := by
  unfold execParityPlan
  repeat' first
    | (with_reducible first
        | assumption
        | exact .refl _
        | apply OKeeps.next
        | apply OKeeps.ite
        | apply Keeps.ite
        | apply Keeps.after (State.run_keeps (hbody := ?_) ..)
        | apply Keeps.after (State.parityPlan_keeps ..)
        | fail_if_no_progress refine Keeps.mk' ?_ rfl rfl rfl rfl rfl rfl)
    | intro _

theorem State.putShadow_keeps (s : State) (w : Work) (u : UnitVal) :
    Keeps s (State.putShadow s w u) := by
  unfold State.putShadow
  extract_lets v1
  repeat' first
    | (with_reducible first
        | assumption
        | exact .refl _
        | apply Keeps.ite
        | apply Keeps.after (State.setLine_keeps ..)
        | apply Keeps.after (State.updWork_keeps ..)
        | refine Keeps.trans ?_ (.pair (by assumption) (State.freeSlot_keeps ..))
        | apply Keeps.after (State.freeSlot_keeps ..)
        | fail_if_no_progress refine Keeps.mk' ?_ rfl rfl rfl rfl rfl rfl)
    | split
    | unfold v1
    | intro _
    | extract_lets
    | (dsimp +zetaDelta only; split)

theorem State.journalPut_keeps (it : Item) (s : State) :
    Keeps s (State.journalPut it s) := by
  unfold State.journalPut
  repeat' first
    | (with_reducible first
        | assumption
        | exact .refl _
        | apply Keeps.ite
        | apply Keeps.ite2
        | apply Keeps.ite1
        | apply Keeps.after (State.drvSubmit_keeps ..)
        | apply Keeps.after (State.setJent_keeps ..)
        | apply Keeps.after (State.updWork_keeps ..)
        | apply Keeps.after (State.lane_keeps ..)
        | apply Keeps.after (State.stay_keeps ..)
        | apply Keeps.after (State.dropShadows_keeps ..)
        | apply Keeps.after (State.putShadow_keeps ..)
        | apply Keeps.after (State.advance_keeps ..)
        | apply Keeps.after (State.endItem_keeps ..)
        | fail_if_no_progress refine Keeps.mk' ?_ rfl rfl rfl rfl rfl rfl
        | apply Keeps.foldl
        | apply Keeps.foldlPair)
    | split
    | intro _
    | extract_lets
    | (dsimp +zetaDelta only; split)

theorem execJournalPut_keeps (k : Fin 12) (c : Fin 256) (s : State) :
    OKeeps s (execJournalPut k c s) := by
  unfold execJournalPut
  repeat' first
    | (with_reducible first
        | assumption
        | exact .refl _
        | apply OKeeps.next
        | apply OKeeps.ite
        | apply Keeps.ite
        | apply Keeps.after (State.run_keeps (hbody := ?_) ..)
        | apply Keeps.after (State.journalPut_keeps ..)
        | fail_if_no_progress refine Keeps.mk' ?_ rfl rfl rfl rfl rfl rfl)
    | intro _

theorem State.retireLine_keeps (s : State) (l : Nat × Nat) :
    Keeps s (State.retireLine s l) := by
  unfold State.retireLine
  repeat' first
    | (with_reducible first
        | assumption
        | exact .refl _
        | apply Keeps.ite
        | apply Keeps.ite2
        | apply Keeps.ite1
        | apply Keeps.after (State.updLine_keeps ..)
        | fail_if_no_progress refine Keeps.mk' ?_ rfl rfl rfl rfl rfl rfl)
    | intro _
    | extract_lets

theorem State.journalRetire_keeps (it : Item) (s : State) :
    Keeps s (State.journalRetire it s) := by
  unfold State.journalRetire
  repeat' first
    | (with_reducible first
        | assumption
        | exact .refl _
        | apply Keeps.ite
        | apply Keeps.ite2
        | apply Keeps.ite1
        | apply Keeps.after (State.updPool_keeps ..)
        | apply Keeps.after (State.addDirty_keeps ..)
        | apply Keeps.after (State.lane_keeps ..)
        | apply Keeps.after (State.retireEntry_keeps ..)
        | apply Keeps.after (State.endWork_keeps ..)
        | apply Keeps.after (State.retireLine_keeps ..)
        | apply Keeps.after (State.endItem_keeps ..)
        | fail_if_no_progress refine Keeps.mk' ?_ rfl rfl rfl rfl rfl rfl
        | apply Keeps.foldl
        | apply Keeps.foldlPair)
    | split
    | intro _
    | extract_lets
    | (dsimp +zetaDelta only; split)

theorem execJournalRetire_keeps (k : Fin 12) (c : Fin 256) (s : State) :
    OKeeps s (execJournalRetire k c s) := by
  unfold execJournalRetire
  repeat' first
    | (with_reducible first
        | assumption
        | exact .refl _
        | apply OKeeps.next
        | apply OKeeps.ite
        | apply Keeps.ite
        | apply Keeps.after (State.run_keeps (hbody := ?_) ..)
        | apply Keeps.after (State.journalRetire_keeps ..)
        | fail_if_no_progress refine Keeps.mk' ?_ rfl rfl rfl rfl rfl rfl)
    | intro _

theorem State.redoDestage_keeps (s : State) (it : Item) (w : Work) :
    Keeps s (State.redoDestage s it w) := by
  unfold State.redoDestage
  extract_lets s1 s2 v1 v2 s3
  have hs1 : Keeps s s1 := by
    unfold s1
    repeat' first
      | (with_reducible first
          | assumption
          | exact .refl _
          | apply Keeps.ite
          | apply Keeps.ite2
          | apply Keeps.ite1
          | apply Keeps.after (State.updPool_keeps ..)
          | apply Keeps.after (State.setJent_keeps ..)
          | apply Keeps.after (State.dropWork_keeps ..)
          | apply Keeps.after (State.endItem_keeps ..)
          | apply Keeps.after (State.releaseRef_keeps ..)
          | apply Keeps.after (State.linesBack_keeps ..)
          | fail_if_no_progress refine Keeps.mk' ?_ rfl rfl rfl rfl rfl rfl)
      | split
      | unfold v1
      | unfold v2
      | intro _
      | extract_lets
      | (dsimp +zetaDelta only; split)
  have hs2 : Keeps s s2 := by
    unfold s2
    repeat' first
      | (with_reducible first
          | assumption
          | exact .refl _
          | apply Keeps.ite
          | apply Keeps.ite2
          | apply Keeps.ite1
          | apply Keeps.after (State.updPool_keeps ..)
          | apply Keeps.after (State.setJent_keeps ..)
          | apply Keeps.after (State.dropWork_keeps ..)
          | apply Keeps.after (State.endItem_keeps ..)
          | apply Keeps.after (State.releaseRef_keeps ..)
          | apply Keeps.after (State.linesBack_keeps ..)
          | fail_if_no_progress refine Keeps.mk' ?_ rfl rfl rfl rfl rfl rfl)
      | split
      | unfold v1
      | unfold v2
      | intro _
      | extract_lets
      | (dsimp +zetaDelta only; split)
  have hs3 : Keeps s s3 := by
    unfold s3
    repeat' first
      | (with_reducible first
          | assumption
          | exact .refl _
          | apply Keeps.ite
          | apply Keeps.ite2
          | apply Keeps.ite1
          | apply Keeps.after (State.updPool_keeps ..)
          | apply Keeps.after (State.setJent_keeps ..)
          | apply Keeps.after (State.dropWork_keeps ..)
          | apply Keeps.after (State.endItem_keeps ..)
          | apply Keeps.after (State.releaseRef_keeps ..)
          | apply Keeps.after (State.linesBack_keeps ..)
          | fail_if_no_progress refine Keeps.mk' ?_ rfl rfl rfl rfl rfl rfl)
      | split
      | unfold v1
      | unfold v2
      | intro _
      | extract_lets
      | (dsimp +zetaDelta only; split)
  repeat' first
    | (with_reducible first
        | assumption
        | exact .refl _
        | apply Keeps.ite
        | apply Keeps.ite2
        | apply Keeps.ite1
        | apply Keeps.after (State.updPool_keeps ..)
        | apply Keeps.after (State.setJent_keeps ..)
        | apply Keeps.after (State.dropWork_keeps ..)
        | apply Keeps.after (State.endItem_keeps ..)
        | apply Keeps.after (State.releaseRef_keeps ..)
        | apply Keeps.after (State.linesBack_keeps ..)
        | fail_if_no_progress refine Keeps.mk' ?_ rfl rfl rfl rfl rfl rfl)
    | split
    | unfold v1
    | unfold v2
    | intro _
    | extract_lets
    | (dsimp +zetaDelta only; split)

theorem State.afterReads_keeps (s : State) (it : Item) (w : Work) :
    Keeps s (State.afterReads s it w) := by
  unfold State.afterReads
  extract_lets v1
  repeat' first
    | (with_reducible first
        | assumption
        | exact .refl _
        | apply Keeps.ite
        | apply Keeps.after (State.advance_keeps ..)
        | apply Keeps.after (State.endWork_keeps ..)
        | apply Keeps.after (State.parityPlan_keeps ..)
        | apply Keeps.after (State.rebuildStep_keeps ..)
        | apply Keeps.after (State.scrubStep_keeps ..)
        | apply Keeps.after (State.resyncStep_keeps ..)
        | apply Keeps.after (State.selftestStep_keeps ..)
        | fail_if_no_progress refine Keeps.mk' ?_ rfl rfl rfl rfl rfl rfl)
    | split
    | unfold v1
    | intro _
    | extract_lets
    | (dsimp +zetaDelta only; split)

theorem State.afterWrites_keeps (s : State) (it : Item) (w : Work) :
    Keeps s (State.afterWrites s it w) := by
  unfold State.afterWrites
  repeat' first
    | (with_reducible first
        | assumption
        | exact .refl _
        | apply Keeps.ite
        | apply Keeps.after (State.updWork_keeps ..)
        | apply Keeps.after (State.advance_keeps ..)
        | apply Keeps.after (State.endWork_keeps ..)
        | apply Keeps.after (State.journalRetire_keeps ..)
        | apply Keeps.after (State.redoDestage_keeps ..)
        | apply Keeps.after (State.drvSubmit_keeps ..)
        | fail_if_no_progress refine Keeps.mk' ?_ rfl rfl rfl rfl rfl rfl)
    | split
    | intro _
    | extract_lets
    | (dsimp +zetaDelta only; split)

theorem State.submitWork_keeps (it : Item) (w : Work) (s : State) :
    Keeps s (State.submitWork it w s) := by
  unfold State.submitWork
  repeat' first
    | (with_reducible first
        | assumption
        | exact .refl _
        | apply Keeps.ite
        | apply Keeps.ite2
        | apply Keeps.ite1
        | apply Keeps.after (State.updPool_keeps ..)
        | apply Keeps.after (State.updWork_keeps ..)
        | apply Keeps.after (State.start_keeps ..)
        | apply Keeps.after (State.lane_keeps ..)
        | apply Keeps.after (State.stay_keeps ..)
        | apply Keeps.after (State.afterReads_keeps ..)
        | apply Keeps.after (State.afterWrites_keeps ..)
        | apply Keeps.after (State.later_keeps ..)
        | apply Keeps.after (State.submitMany_keeps ..)
        | apply Keeps.after (State.toReap_keeps ..)
        | fail_if_no_progress refine Keeps.mk' ?_ rfl rfl rfl rfl rfl rfl
        | apply Keeps.foldl
        | apply Keeps.foldlPair)
    | split
    | intro _
    | extract_lets
    | (dsimp +zetaDelta only; split)

theorem State.reapWork_keeps (id : Nat) (s : State) (e : Nat × DrvCmd) :
    Keeps s (State.reapWork id s e) := by
  unfold State.reapWork
  extract_lets v1 s1 v2
  have hs1 : Keeps s s1 := by
    unfold s1
    repeat' first
      | (with_reducible first
          | assumption
          | exact .refl _
          | apply Keeps.ite
          | apply Keeps.ite2
          | apply Keeps.ite1
          | apply Keeps.after (State.cntLay_keeps ..)
          | apply Keeps.after (State.raise_keeps ..)
          | apply Keeps.after (State.updWork_keeps ..)
          | apply Keeps.after (State.setCmd_keeps ..)
          | apply Keeps.after (State.freeTag_keeps ..)
          | fail_if_no_progress refine Keeps.mk' ?_ rfl rfl rfl rfl rfl rfl)
      | split
      | unfold v1
      | unfold v2
      | intro _
      | extract_lets
      | (dsimp +zetaDelta only; split)
  repeat' first
    | (with_reducible first
        | assumption
        | exact .refl _
        | apply Keeps.ite
        | apply Keeps.ite2
        | apply Keeps.ite1
        | apply Keeps.after (State.cntLay_keeps ..)
        | apply Keeps.after (State.raise_keeps ..)
        | apply Keeps.after (State.updWork_keeps ..)
        | apply Keeps.after (State.setCmd_keeps ..)
        | apply Keeps.after (State.freeTag_keeps ..)
        | fail_if_no_progress refine Keeps.mk' ?_ rfl rfl rfl rfl rfl rfl)
    | split
    | unfold v1
    | unfold v2
    | intro _
    | extract_lets
    | (dsimp +zetaDelta only; split)

theorem State.reapWorkItem_keeps (it : Item) (w : Work) (s : State) :
    Keeps s (State.reapWorkItem it w s) := by
  unfold State.reapWorkItem
  extract_lets s1 _ _ s2
  have hs1 : Keeps s s1 := by
    unfold s1
    repeat' first
      | (with_reducible first
          | assumption
          | exact .refl _
          | apply Keeps.ite
          | apply Keeps.ite1
          | apply Keeps.after (State.updWork_keeps ..)
          | apply Keeps.after (State.advance_keeps ..)
          | apply Keeps.after (State.toReap_keeps ..)
          | apply Keeps.after (State.endWork_keeps ..)
          | apply Keeps.after (State.afterReads_keeps ..)
          | apply Keeps.after (State.afterWrites_keeps ..)
          | apply Keeps.after (State.reapWork_keeps ..)
          | apply Keeps.after (State.drvSubmit_keeps ..)
          | fail_if_no_progress refine Keeps.mk' ?_ rfl rfl rfl rfl rfl rfl
          | apply Keeps.foldl
          | apply Keeps.foldlPair)
      | intro _
      | extract_lets
  have hs2 : Keeps s s2 := by
    unfold s2
    repeat' first
      | (with_reducible first
          | assumption
          | exact .refl _
          | apply Keeps.ite
          | apply Keeps.ite1
          | apply Keeps.after (State.updWork_keeps ..)
          | apply Keeps.after (State.advance_keeps ..)
          | apply Keeps.after (State.toReap_keeps ..)
          | apply Keeps.after (State.endWork_keeps ..)
          | apply Keeps.after (State.afterReads_keeps ..)
          | apply Keeps.after (State.afterWrites_keeps ..)
          | apply Keeps.after (State.reapWork_keeps ..)
          | apply Keeps.after (State.drvSubmit_keeps ..)
          | fail_if_no_progress refine Keeps.mk' ?_ rfl rfl rfl rfl rfl rfl
          | apply Keeps.foldl
          | apply Keeps.foldlPair)
      | intro _
      | extract_lets
  repeat' first
    | (with_reducible first
        | assumption
        | exact .refl _
        | apply Keeps.ite
        | apply Keeps.ite1
        | apply Keeps.after (State.updWork_keeps ..)
        | apply Keeps.after (State.advance_keeps ..)
        | apply Keeps.after (State.toReap_keeps ..)
        | apply Keeps.after (State.endWork_keeps ..)
        | apply Keeps.after (State.afterReads_keeps ..)
        | apply Keeps.after (State.afterWrites_keeps ..)
        | apply Keeps.after (State.reapWork_keeps ..)
        | apply Keeps.after (State.drvSubmit_keeps ..)
        | fail_if_no_progress refine Keeps.mk' ?_ rfl rfl rfl rfl rfl rfl
        | apply Keeps.foldl
        | apply Keeps.foldlPair)
    | intro _
    | extract_lets

theorem State.begin_keeps (s : State) (p id charge : Nat) :
    Keeps s (State.begin s p id charge) := by
  unfold State.begin
  repeat' first
    | (with_reducible first
        | assumption
        | exact .refl _
        | apply Keeps.ite
        | apply Keeps.after (State.updPool_keeps ..)
        | fail_if_no_progress refine Keeps.mk' ?_ rfl rfl rfl rfl rfl rfl)
    | intro _
    | extract_lets

theorem State.syncFirst_keeps (s : State) (p st : Nat) :
    Keeps s (State.syncFirst s p st) := by
  unfold State.syncFirst
  repeat' first
    | (with_reducible first
        | assumption
        | exact .refl _
        | apply Keeps.ite
        | apply Keeps.after (State.updPool_keeps ..)
        | fail_if_no_progress refine Keeps.mk' ?_ rfl rfl rfl rfl rfl rfl)
    | intro _
    | extract_lets

theorem State.rebuildLeg_keeps (it : Item) (s : State) :
    Keeps s (State.rebuildLeg it s) := by
  unfold State.rebuildLeg
  repeat' first
    | (with_reducible first
        | assumption
        | exact .refl _
        | apply Keeps.ite
        | apply Keeps.ite2
        | apply Keeps.ite1
        | apply Keeps.after (State.drvSubmit_keeps ..)
        | apply Keeps.after (State.updWork_keeps ..)
        | apply Keeps.after (State.present_keeps ..)
        | apply Keeps.after (State.wantMark_keeps ..)
        | apply Keeps.after (State.cntLay_keeps ..)
        | apply Keeps.after (State.lane_keeps ..)
        | apply Keeps.after (State.endWork_keeps ..)
        | apply Keeps.after (State.advance_keeps ..)
        | apply Keeps.after (State.endItem_keeps ..)
        | apply Keeps.after (State.postParity_keeps ..)
        | fail_if_no_progress refine Keeps.mk' ?_ rfl rfl rfl rfl rfl rfl
        | apply Keeps.foldl
        | apply Keeps.foldlPair)
    | split
    | intro _
    | extract_lets
    | (dsimp +zetaDelta only; split)

theorem State.beginRebuild_keeps (s t : State) (p k : Nat) (a : Activity) (h : s.beginRebuild p k a = some t) : Keeps s t := by
  unfold State.beginRebuild at h
  extract_lets P at h
  split at h
  · cases h
  extract_lets T charge s1 at h
  have h1 : Keeps s s1 := (State.begin_keeps ..).trans (State.cntMnt_keeps ..)
  split_ifs at h <;> cases h
  · exact State.syncFirst_keeps ..
  · exact h1.trans (State.actDone_keeps ..)
  · exact h1.trans (State.newWork_keeps ..)

theorem State.rebuildStep_keeps (s : State) (k c : Nat) : Keeps s (State.rebuildStep s k c) := by
  refine State.poolRun_keeps _ _ _ _ _ _ State.rebuildLeg_keeps ?_
  intro s p t h
  obtain ⟨a, -, ha⟩ := List.exists_of_findSome?_eq_some h
  exact State.beginRebuild_keeps _ _ _ _ _ ha

theorem execRebuildStep_keeps (k : Fin 12) (c : Fin 256) (s : State) :
    OKeeps s (execRebuildStep k c s) := by
  unfold execRebuildStep
  repeat' first
    | (with_reducible first
        | assumption
        | exact .refl _
        | apply OKeeps.next
        | apply OKeeps.ite
        | apply Keeps.ite
        | apply Keeps.after (State.rebuildStep_keeps ..)
        | fail_if_no_progress refine Keeps.mk' ?_ rfl rfl rfl rfl rfl rfl)
    | intro _

theorem State.scrubLeg_keeps (it : Item) (s : State) :
    Keeps s (State.scrubLeg it s) := by
  unfold State.scrubLeg
  repeat' first
    | (with_reducible first
        | assumption
        | exact .refl _
        | apply Keeps.ite
        | apply Keeps.ite2
        | apply Keeps.ite1
        | apply Keeps.after (State.drvSubmit_keeps ..)
        | apply Keeps.after (State.updWork_keeps ..)
        | apply Keeps.after (State.wantMark_keeps ..)
        | apply Keeps.after (State.cntLay_keeps ..)
        | apply Keeps.after (State.cntMnt_keeps ..)
        | apply Keeps.after (State.lane_keeps ..)
        | apply Keeps.after (State.endWork_keeps ..)
        | apply Keeps.after (State.journalPut_keeps ..)
        | apply Keeps.after (State.advance_keeps ..)
        | apply Keeps.after (State.endItem_keeps ..)
        | apply Keeps.after (State.postParity_keeps ..)
        | fail_if_no_progress refine Keeps.mk' ?_ rfl rfl rfl rfl rfl rfl
        | apply Keeps.foldl
        | apply Keeps.foldlPair)
    | split
    | intro _
    | extract_lets
    | (dsimp +zetaDelta only; split)

theorem State.beginStripe_keeps (s : State) (p k : Nat) (a : Activity) (e : Nat × State) (h : s.beginStripe p k a = some e) :
    Keeps s e.2 := by
  unfold State.beginStripe at h
  split at h
  · cases h
  dsimp only at h
  split at h
  · cases h; exact State.begin_keeps ..
  · cases h

theorem State.beginScrub_keeps (k : Nat) : StartKeeps (State.beginScrub k) := by
  intro s p t h
  unfold State.beginScrub at h
  split at h
  · cases h
  obtain ⟨e, he, rfl⟩ := Option.map_eq_some_iff.1 h
  exact (State.beginStripe_keeps _ _ _ _ _ he).trans (State.newWork_keeps ..)

theorem State.scrubStep_keeps (s : State) (k c : Nat) : Keeps s (State.scrubStep s k c) :=
  State.poolRun_keeps _ _ _ _ _ _ State.scrubLeg_keeps (State.beginScrub_keeps k)

theorem execScrubStep_keeps (k : Fin 12) (c : Fin 256) (s : State) :
    OKeeps s (execScrubStep k c s) := by
  unfold execScrubStep
  repeat' first
    | (with_reducible first
        | assumption
        | exact .refl _
        | apply OKeeps.next
        | apply OKeeps.ite
        | apply Keeps.ite
        | apply Keeps.after (State.scrubStep_keeps ..)
        | fail_if_no_progress refine Keeps.mk' ?_ rfl rfl rfl rfl rfl rfl)
    | intro _

theorem State.beginSync_keeps (k : Nat) : StartKeeps (State.beginSync k) := by
  intro s p t h
  unfold State.beginSync at h
  extract_lets v1 v2 v3 v4 v5 at h
  have hnew : ∀ x kind st y, Keeps s x → v4 x kind st = some y → Keeps s y := by
    intro x kind st y hx hy
    cases hy
    exact hx.trans (State.newWork_keeps ..)
  split at h
  · exact hnew _ _ _ _ (State.updPool_keeps ..) h
  split at h
  · split at h
    · exact hnew _ _ _ _ (State.updPool_keeps ..) h
    · cases h
  split at h
  · exact hnew _ _ _ _ (State.updVol_keeps ..) h
  split at h
  · cases h
  split at h
  · cases h
  · exact hnew _ _ _ _ (State.beginStripe_keeps _ _ _ _ _ ‹_›) h

theorem State.putStripe_keeps (s : State) (it : Item) (id : Nat) (puts : List UnitVal) (code : Nat) :
    Keeps s (State.putStripe s it id puts code) := by
  unfold State.putStripe
  repeat' first
    | (with_reducible first
        | assumption
        | exact .refl _
        | apply Keeps.ite
        | apply Keeps.ite2
        | apply Keeps.ite1
        | apply Keeps.after (State.updWork_keeps ..)
        | apply Keeps.after (State.lane_keeps ..)
        | apply Keeps.after (State.advance_keeps ..)
        | apply Keeps.after (State.postParity_keeps ..)
        | fail_if_no_progress refine Keeps.mk' ?_ rfl rfl rfl rfl rfl rfl
        | apply Keeps.foldl
        | apply Keeps.foldlPair)
    | split
    | intro _
    | extract_lets
    | (dsimp +zetaDelta only; split)

theorem State.syncEnd_keeps (s : State) (it : Item) (w : Work) (lost unchecked : Bool) :
    Keeps s (State.syncEnd s it w lost unchecked) := by
  unfold State.syncEnd
  extract_lets s1 s2
  have hs1 : Keeps s s1 := by
    unfold s1
    repeat' first
      | (with_reducible first
          | assumption
          | exact .refl _
          | apply Keeps.ite
          | apply Keeps.after (State.cntLay_keeps ..)
          | apply Keeps.after (State.updPool_keeps ..)
          | apply Keeps.after (State.wantMark_keeps ..)
          | apply Keeps.after (State.endWork_keeps ..)
          | fail_if_no_progress refine Keeps.mk' ?_ rfl rfl rfl rfl rfl rfl)
      | intro _
      | extract_lets
  have hs2 : Keeps s s2 := by
    unfold s2
    repeat' first
      | (with_reducible first
          | assumption
          | exact .refl _
          | apply Keeps.ite
          | apply Keeps.after (State.cntLay_keeps ..)
          | apply Keeps.after (State.updPool_keeps ..)
          | apply Keeps.after (State.wantMark_keeps ..)
          | apply Keeps.after (State.endWork_keeps ..)
          | fail_if_no_progress refine Keeps.mk' ?_ rfl rfl rfl rfl rfl rfl)
      | intro _
      | extract_lets
  repeat' first
    | (with_reducible first
        | assumption
        | exact .refl _
        | apply Keeps.ite
        | apply Keeps.after (State.cntLay_keeps ..)
        | apply Keeps.after (State.updPool_keeps ..)
        | apply Keeps.after (State.wantMark_keeps ..)
        | apply Keeps.after (State.endWork_keeps ..)
        | fail_if_no_progress refine Keeps.mk' ?_ rfl rfl rfl rfl rfl rfl)
    | intro _
    | extract_lets

theorem State.syncLeg_keeps (it : Item) (s : State) :
    Keeps s (State.syncLeg it s) := by
  unfold State.syncLeg
  repeat' first
    | (with_reducible first
        | assumption
        | exact .refl _
        | apply Keeps.ite
        | apply Keeps.ite2
        | apply Keeps.after (State.cntLay_keeps ..)
        | apply Keeps.after (State.updPool_keeps ..)
        | apply Keeps.after (State.updWork_keeps ..)
        | apply Keeps.after (State.postCipher_keeps ..)
        | apply Keeps.after (State.advance_keeps ..)
        | apply Keeps.after (State.endItem_keeps ..)
        | apply Keeps.after (State.endWork_keeps ..)
        | apply Keeps.after (State.journalPut_keeps ..)
        | apply Keeps.after (State.putStripe_keeps ..)
        | apply Keeps.after (State.syncEnd_keeps ..)
        | apply Keeps.after (State.resyncStep_keeps ..)
        | apply Keeps.after (State.drvSubmit_keeps ..)
        | apply Keeps.after (State.request_keeps ..)
        | fail_if_no_progress refine Keeps.mk' ?_ rfl rfl rfl rfl rfl rfl)
    | split
    | intro _
    | extract_lets
    | (dsimp +zetaDelta only; split)

theorem State.resyncStep_keeps (s : State) (k c : Nat) : Keeps s (State.resyncStep s k c) :=
  State.poolRun_keeps _ _ _ _ _ _ State.syncLeg_keeps (State.beginSync_keeps k)

theorem execResyncStep_keeps (k : Fin 12) (c : Fin 256) (s : State) :
    OKeeps s (execResyncStep k c s) := by
  unfold execResyncStep
  repeat' first
    | (with_reducible first
        | assumption
        | exact .refl _
        | apply OKeeps.next
        | apply OKeeps.ite
        | apply Keeps.ite
        | apply Keeps.after (State.resyncStep_keeps ..)
        | fail_if_no_progress refine Keeps.mk' ?_ rfl rfl rfl rfl rfl rfl)
    | intro _

theorem State.flushSeam_keeps (s : State) (p : Nat) :
    Keeps s (State.flushSeam s p) := by
  unfold State.flushSeam
  extract_lets _ _ _
  repeat' first
    | (with_reducible first
        | assumption
        | exact .refl _
        | apply Keeps.ite
        | apply Keeps.after (State.setPool_keeps ..)
        | apply Keeps.after (State.newWork_keeps ..)
        | apply Keeps.after (State.metaFlush_keeps ..)
        | fail_if_no_progress refine Keeps.mk' ?_ rfl rfl rfl rfl rfl rfl)
    | intro _

theorem State.metaFlush_keeps (it : Item) (s : State) :
    Keeps s (State.metaFlush it s) := by
  unfold State.metaFlush
  repeat' first
    | (with_reducible first
        | assumption
        | exact .refl _
        | apply Keeps.ite
        | apply Keeps.ite2
        | apply Keeps.ite1
        | apply Keeps.after (State.drvSubmit_keeps ..)
        | apply Keeps.after (State.updWork_keeps ..)
        | apply Keeps.after (State.lane_keeps ..)
        | apply Keeps.after (State.endWork_keeps ..)
        | apply Keeps.after (State.advance_keeps ..)
        | apply Keeps.after (State.endItem_keeps ..)
        | fail_if_no_progress refine Keeps.mk' ?_ rfl rfl rfl rfl rfl rfl
        | apply Keeps.foldl
        | apply Keeps.foldlPair)
    | split
    | intro _
    | extract_lets
    | (dsimp +zetaDelta only; split)

theorem execMetaFlush_keeps (k : Fin 12) (c : Fin 256) (s : State) :
    OKeeps s (execMetaFlush k c s) := by
  unfold execMetaFlush
  repeat' first
    | (with_reducible first
        | assumption
        | exact .refl _
        | apply OKeeps.next
        | apply OKeeps.ite
        | apply Keeps.ite
        | apply Keeps.after (State.run_keeps (hbody := ?_) ..)
        | apply Keeps.after (State.metaFlush_keeps ..)
        | fail_if_no_progress refine Keeps.mk' ?_ rfl rfl rfl rfl rfl rfl)
    | intro _

theorem State.poolSeam_keeps (s : State) (p : Nat) :
    Keeps s (State.poolSeam s p) := by
  unfold State.poolSeam
  repeat' first
    | (with_reducible first
        | assumption
        | exact .refl _
        | apply Keeps.ite
        | apply Keeps.after (State.maintSeam_keeps ..)
        | apply Keeps.after (State.resyncSeam_keeps ..)
        | apply Keeps.after (State.flushSeam_keeps ..)
        | fail_if_no_progress refine Keeps.mk' ?_ rfl rfl rfl rfl rfl rfl)
    | intro _

theorem State.journalWaits_keeps (s : State) :
    Keeps s (State.journalWaits s) := by
  unfold State.journalWaits
  repeat' first
    | (with_reducible first
        | assumption
        | exact .refl _
        | apply Keeps.ite
        | apply Keeps.after (State.cntLay_keeps ..)
        | apply Keeps.after (State.journalPut_keeps ..)
        | fail_if_no_progress refine Keeps.mk' ?_ rfl rfl rfl rfl rfl rfl)
    | intro _
    | extract_lets

end Sys2Proof.Machine
end

