-- ==== Sys2Proof/Laws/KeepPorts.lean ====
section
/-!
SUPPORT. What the operations of Machine/Ports.lean keep (Laws/Keep.lean).
-/

namespace Sys2Proof.Machine

open Sys2Proof

theorem State.setLport_keeps (s : State) (m : Nat) (x : LPort) :
    Keeps s (State.setLport s m x) := by
  unfold State.setLport
  extract_lets _
  repeat' first
    | (with_reducible first
        | assumption
        | exact .refl _
        | apply Keeps.ite
        | fail_if_no_progress refine Keeps.mk' ?_ rfl rfl rfl rfl rfl rfl)

theorem State.updLport_keeps (s : State) (m : Nat) (f : LPort → LPort) :
    Keeps s (State.updLport s m f) := by
  unfold State.updLport
  repeat' first
    | (with_reducible first
        | assumption
        | exact .refl _
        | apply Keeps.ite
        | apply Keeps.after (State.setLport_keeps ..))

theorem State.countDiscard_keeps (s : State) (m kind n : Nat) :
    Keeps s (State.countDiscard s m kind n) := by
  unfold State.countDiscard
  repeat' first
    | (with_reducible first
        | assumption
        | exact .refl _
        | apply Keeps.ite
        | apply Keeps.ite2
        | apply Keeps.ite1
        | fail_if_no_progress refine Keeps.mk' ?_ rfl rfl rfl rfl rfl rfl
        | apply Keeps.foldl
        | apply Keeps.foldlPair)
    | split
    | intro _
    | extract_lets
    | (dsimp +zetaDelta only; split)

theorem State.cntMac_keeps (s : State) (m j n : Nat) :
    Keeps s (State.cntMac s m j n) := by
  unfold State.cntMac
  repeat' first
    | (with_reducible first
        | assumption
        | exact .refl _
        | apply Keeps.ite
        | apply Keeps.after (State.acc_keeps ..))

theorem State.setAddr_keeps (s : State) (m e : Nat) (a : Option AddrEnt) :
    Keeps s (State.setAddr s m e a) := by
  unfold State.setAddr
  extract_lets _
  repeat' first
    | (with_reducible first
        | assumption
        | exact .refl _
        | apply Keeps.ite
        | fail_if_no_progress refine Keeps.mk' ?_ rfl rfl rfl rfl rfl rfl)

theorem State.setOcc_keeps (s : State) (m i : Nat) (x : Nat × Nat) :
    Keeps s (State.setOcc s m i x) := by
  unfold State.setOcc
  extract_lets _
  repeat' first
    | (with_reducible first
        | assumption
        | exact .refl _
        | apply Keeps.ite
        | fail_if_no_progress refine Keeps.mk' ?_ rfl rfl rfl rfl rfl rfl)

theorem State.emitPfc_keeps (s : State) (m i quanta : Nat) :
    Keeps s (State.emitPfc s m i quanta) := by
  unfold State.emitPfc
  repeat' first
    | (with_reducible first
        | assumption
        | exact .refl _
        | apply Keeps.ite
        | apply Keeps.ite2
        | apply Keeps.ite1
        | apply Keeps.after (State.emit_keeps ..)
        | apply Keeps.after (State.cntMac_keeps ..)
        | fail_if_no_progress refine Keeps.mk' ?_ rfl rfl rfl rfl rfl rfl
        | apply Keeps.foldl
        | apply Keeps.foldlPair)
    | split
    | intro _
    | extract_lets
    | (dsimp +zetaDelta only; split)

theorem State.sendPfc_keeps (s : State) (m i quanta : Nat) :
    Keeps s (State.sendPfc s m i quanta) := by
  unfold State.sendPfc
  repeat' first
    | (with_reducible first
        | assumption
        | exact .refl _
        | apply Keeps.ite
        | apply Keeps.ite2
        | apply Keeps.ite1
        | apply Keeps.after (State.emitPfc_keeps ..)
        | fail_if_no_progress refine Keeps.mk' ?_ rfl rfl rfl rfl rfl rfl
        | apply Keeps.foldl
        | apply Keeps.foldlPair)
    | split
    | intro _
    | extract_lets
    | (dsimp +zetaDelta only; split)

theorem State.flushPfc_keeps (s : State) (m : Nat) :
    Keeps s (State.flushPfc s m) := by
  unfold State.flushPfc
  repeat' first
    | (with_reducible first
        | assumption
        | exact .refl _
        | apply Keeps.ite
        | apply Keeps.ite2
        | apply Keeps.ite1
        | apply Keeps.after (State.emitPfc_keeps ..)
        | fail_if_no_progress refine Keeps.mk' ?_ rfl rfl rfl rfl rfl rfl
        | apply Keeps.foldl
        | apply Keeps.foldlPair)
    | split
    | intro _
    | extract_lets
    | (dsimp +zetaDelta only; split)

theorem State.setXoff_keeps (s : State) (m i : Nat) (b : Bool) :
    Keeps s (State.setXoff s m i b) := by
  unfold State.setXoff
  extract_lets _
  repeat' first
    | (with_reducible first
        | assumption
        | exact .refl _
        | apply Keeps.ite
        | apply Keeps.after (State.setFld_keeps ..))

theorem State.pfcPair_keeps (s : State) (m i : Nat) :
    Keeps s (State.pfcPair s m i) := by
  unfold State.pfcPair
  extract_lets _ _ _
  repeat' first
    | (with_reducible first
        | assumption
        | exact .refl _
        | apply Keeps.ite
        | apply Keeps.ite1
        | apply Keeps.after (State.sendPfc_keeps ..)
        | apply Keeps.after (State.setXoff_keeps ..))

theorem State.pfcCheck_keeps (s : State) :
    Keeps s (State.pfcCheck s) := by
  unfold State.pfcCheck
  repeat' first
    | (with_reducible first
        | assumption
        | exact .refl _
        | apply Keeps.ite
        | apply Keeps.ite2
        | apply Keeps.ite1
        | apply Keeps.after (State.pfcPair_keeps ..)
        | fail_if_no_progress refine Keeps.mk' ?_ rfl rfl rfl rfl rfl rfl
        | apply Keeps.foldl
        | apply Keeps.foldlPair)
    | intro _

theorem State.takeCells_keeps (s : State) (a : Acct) (c : Nat) :
    Keeps s (State.takeCells s a c) := by
  unfold State.takeCells
  extract_lets v1 v2 s1 v3
  have hs1 : Keeps s s1 := by
    unfold s1
    repeat' first
      | (with_reducible first
          | assumption
          | exact .refl _
          | apply Keeps.ite
          | apply Keeps.after (State.setFld_keeps ..)
          | apply Keeps.after (State.setOcc_keeps ..)
          | apply Keeps.after (State.pfcCheck_keeps ..)
          | fail_if_no_progress refine Keeps.mk' ?_ rfl rfl rfl rfl rfl rfl)
  repeat' first
    | (with_reducible first
        | assumption
        | exact .refl _
        | apply Keeps.ite
        | apply Keeps.after (State.setFld_keeps ..)
        | apply Keeps.after (State.setOcc_keeps ..)
        | apply Keeps.after (State.pfcCheck_keeps ..)
        | fail_if_no_progress refine Keeps.mk' ?_ rfl rfl rfl rfl rfl rfl)
    | split

theorem State.freeCells_keeps (s : State) (a : Acct) (c : Nat) :
    Keeps s (State.freeCells s a c) := by
  unfold State.freeCells
  extract_lets v1 v2
  repeat' first
    | (with_reducible first
        | assumption
        | exact .refl _
        | apply Keeps.ite
        | apply Keeps.after (State.setOcc_keeps ..)
        | apply Keeps.after (State.pfcCheck_keeps ..)
        | fail_if_no_progress refine Keeps.mk' ?_ rfl rfl rfl rfl rfl rfl)
    | split

theorem State.toHold_keeps (s : State) (a : Acct) (c : Nat) :
    Keeps s (State.toHold s a c).2 := by
  unfold State.toHold
  repeat' first
    | (with_reducible first
        | assumption
        | exact .refl _
        | apply Keeps.ite
        | apply Keeps.ite2
        | apply Keeps.after (State.takeCells_keeps ..)
        | apply Keeps.after (State.freeCells_keeps ..))

theorem State.setStep_keeps (s : State) (m n : Nat) :
    Keeps s (State.setStep s m n) := by
  unfold State.setStep
  repeat' first
    | (with_reducible first
        | assumption
        | exact .refl _
        | apply Keeps.ite
        | apply Keeps.after (State.updLport_keeps ..))

theorem State.setLocks_keeps (s : State) (m b : Nat) :
    Keeps s (State.setLocks s m b) := by
  unfold State.setLocks
  repeat' first
    | (with_reducible first
        | assumption
        | exact .refl _
        | apply Keeps.ite
        | apply Keeps.after (State.setFld_keeps ..))

theorem State.setLanes_keeps (s : State) (m : Nat) (f : Fld) (b : Bool) :
    Keeps s (State.setLanes s m f b) := by
  unfold State.setLanes
  extract_lets _ _
  repeat' first
    | (with_reducible first
        | assumption
        | exact .refl _
        | apply Keeps.ite
        | apply Keeps.after (State.setFld_keeps ..))

theorem State.bringUp_keeps (s : State) (p : Nat) :
    Keeps s (State.bringUp s p) := by
  unfold State.bringUp
  repeat' first
    | (with_reducible first
        | assumption
        | exact .refl _
        | apply Keeps.ite
        | apply Keeps.after (State.updLport_keeps ..)
        | fail_if_no_progress refine Keeps.mk' ?_ rfl rfl rfl rfl rfl rfl
        | apply Keeps.foldl
        | apply Keeps.foldlPair)
    | intro _

theorem State.macEnable_keeps (s : State) (p : Nat) (w : Word) :
    Keeps s (State.macEnable s p w) := by
  unfold State.macEnable
  repeat' first
    | (with_reducible first
        | assumption
        | exact .refl _
        | apply Keeps.ite
        | apply Keeps.ite2
        | apply Keeps.ite1
        | apply Keeps.after (State.setFld_keeps ..)
        | apply Keeps.after (State.bringUp_keeps ..)
        | apply Keeps.after (State.regWrite_keeps ..)
        | fail_if_no_progress refine Keeps.mk' ?_ rfl rfl rfl rfl rfl rfl
        | apply Keeps.foldl
        | apply Keeps.foldlPair)
    | split
    | intro _
    | extract_lets
    | (dsimp +zetaDelta only; split)

theorem execMacCtlEnable_keeps (p : Fin 16) (w : Word) (s : State) :
    OKeeps s (execMacCtlEnable p w s) := by
  unfold execMacCtlEnable
  repeat' first
    | (with_reducible first
        | assumption
        | exact .refl _
        | apply OKeeps.next
        | apply OKeeps.ite
        | apply Keeps.ite
        | apply Keeps.after (State.hostWrite_keeps (hf := ?_) ..)
        | apply Keeps.after (State.macEnable_keeps ..)
        | fail_if_no_progress refine Keeps.mk' ?_ rfl rfl rfl rfl rfl rfl)
    | intro _

theorem State.linkDownDue_keeps (s : State) (reason n : Nat) (m : Nat) :
    Keeps s (State.linkDownDue s reason n m) := by
  unfold State.linkDownDue
  repeat' first
    | (with_reducible first
        | assumption
        | exact .refl _
        | apply Keeps.ite
        | apply Keeps.ite2
        | apply Keeps.ite1
        | apply Keeps.after (State.updLport_keeps ..)
        | fail_if_no_progress refine Keeps.mk' ?_ rfl rfl rfl rfl rfl rfl
        | apply Keeps.foldl
        | apply Keeps.foldlPair)
    | split
    | intro _
    | extract_lets
    | (dsimp +zetaDelta only; split)

theorem State.macDisable_keeps (s : State) (p : Nat) (w : Word) :
    Keeps s (State.macDisable s p w) := by
  unfold State.macDisable
  repeat' first
    | (with_reducible first
        | assumption
        | exact .refl _
        | apply Keeps.ite
        | apply Keeps.ite2
        | apply Keeps.ite1
        | apply Keeps.after (State.setFld_keeps ..)
        | apply Keeps.after (State.linkDownDue_keeps ..)
        | apply Keeps.after (State.regWrite_keeps ..)
        | fail_if_no_progress refine Keeps.mk' ?_ rfl rfl rfl rfl rfl rfl
        | apply Keeps.foldl
        | apply Keeps.foldlPair)
    | split
    | intro _
    | extract_lets
    | (dsimp +zetaDelta only; split)

theorem execMacCtlDisable_keeps (p : Fin 16) (w : Word) (s : State) :
    OKeeps s (execMacCtlDisable p w s) := by
  unfold execMacCtlDisable
  repeat' first
    | (with_reducible first
        | assumption
        | exact .refl _
        | apply OKeeps.next
        | apply OKeeps.ite
        | apply Keeps.ite
        | apply Keeps.after (State.hostWrite_keeps (hf := ?_) ..)
        | apply Keeps.after (State.macDisable_keeps ..)
        | fail_if_no_progress refine Keeps.mk' ?_ rfl rfl rfl rfl rfl rfl)
    | intro _

theorem State.macReset_keeps (s : State) (p : Nat) (w : Word) :
    Keeps s (State.macReset s p w) := by
  unfold State.macReset
  repeat' first
    | (with_reducible first
        | assumption
        | exact .refl _
        | apply Keeps.ite
        | apply Keeps.ite2
        | apply Keeps.ite1
        | apply Keeps.after (State.wrReg_keeps ..)
        | apply Keeps.after (State.senderReset_keeps ..)
        | apply Keeps.after (State.updLport_keeps ..)
        | apply Keeps.after (State.setLocks_keeps ..)
        | apply Keeps.after (State.linkDownDue_keeps ..)
        | apply Keeps.after (State.regWrite_keeps ..)
        | fail_if_no_progress refine Keeps.mk' ?_ rfl rfl rfl rfl rfl rfl
        | apply Keeps.foldl
        | apply Keeps.foldlPair)
    | split
    | intro _
    | extract_lets
    | (dsimp +zetaDelta only; split)

theorem execMacCtlReset_keeps (p : Fin 16) (w : Word) (s : State) :
    OKeeps s (execMacCtlReset p w s) := by
  unfold execMacCtlReset
  repeat' first
    | (with_reducible first
        | assumption
        | exact .refl _
        | apply OKeeps.next
        | apply OKeeps.ite
        | apply Keeps.ite
        | apply Keeps.after (State.hostWrite_keeps (hf := ?_) ..)
        | apply Keeps.after (State.macReset_keeps ..)
        | fail_if_no_progress refine Keeps.mk' ?_ rfl rfl rfl rfl rfl rfl)
    | intro _

theorem State.stepTo_keeps (s : State) (m a b : Nat) :
    Keeps s (State.stepTo s m a b) := by
  unfold State.stepTo
  repeat' first
    | (with_reducible first
        | assumption
        | exact .refl _
        | apply Keeps.ite
        | apply Keeps.after (State.setStep_keeps ..))

theorem execAutonegComplete_keeps (m : Fin 128) (s : State) :
    OKeeps s (execAutonegComplete m s) := by
  unfold execAutonegComplete
  repeat' first
    | (with_reducible first
        | assumption
        | exact .refl _
        | apply OKeeps.next
        | apply OKeeps.ite
        | apply Keeps.ite
        | apply Keeps.after (State.stepTo_keeps ..))

theorem execAutonegRestart_keeps (m : Fin 128) (s : State) :
    OKeeps s (execAutonegRestart m s) := by
  unfold execAutonegRestart
  repeat' first
    | (with_reducible first
        | assumption
        | exact .refl _
        | apply OKeeps.next
        | apply OKeeps.ite
        | apply Keeps.ite
        | apply Keeps.after (State.stepTo_keeps ..))

theorem execLinkTrainingComplete_keeps (m : Fin 128) (s : State) :
    OKeeps s (execLinkTrainingComplete m s) := by
  unfold execLinkTrainingComplete
  repeat' first
    | (with_reducible first
        | assumption
        | exact .refl _
        | apply OKeeps.next
        | apply OKeeps.ite
        | apply Keeps.ite
        | apply Keeps.after (State.stepTo_keeps ..))

theorem execLinkTrainingAbandon_keeps (m : Fin 128) (s : State) :
    OKeeps s (execLinkTrainingAbandon m s) := by
  unfold execLinkTrainingAbandon
  repeat' first
    | (with_reducible first
        | assumption
        | exact .refl _
        | apply OKeeps.next
        | apply OKeeps.ite
        | apply Keeps.ite
        | apply Keeps.after (State.stepTo_keeps ..))

theorem State.pcsLock_keeps (s : State) (m : Nat) :
    Keeps s (State.pcsLock s m) := by
  unfold State.pcsLock
  extract_lets _
  repeat' first
    | (with_reducible first
        | assumption
        | exact .refl _
        | apply Keeps.ite
        | apply Keeps.after (State.satFld_keeps ..)
        | apply Keeps.after (State.cntMac_keeps ..)
        | apply Keeps.after (State.setStep_keeps ..)
        | apply Keeps.after (State.setLocks_keeps ..)
        | apply Keeps.after (State.setLanes_keeps ..))

theorem execPcsFecLock_keeps (m : Fin 128) (s : State) :
    OKeeps s (execPcsFecLock m s) := by
  unfold execPcsFecLock
  repeat' first
    | (with_reducible first
        | assumption
        | exact .refl _
        | apply OKeeps.next
        | apply OKeeps.ite
        | apply Keeps.ite
        | apply Keeps.after (State.pcsLock_keeps ..))

theorem execUpHoldExpire_keeps (m : Fin 128) (s : State) :
    OKeeps s (execUpHoldExpire m s) := by
  unfold execUpHoldExpire
  repeat' first
    | (with_reducible first
        | assumption
        | exact .refl _
        | apply OKeeps.next
        | apply OKeeps.ite
        | apply Keeps.ite
        | apply Keeps.after (State.updLport_keeps ..))

theorem execDownHoldExpire_keeps (m : Fin 128) (s : State) :
    OKeeps s (execDownHoldExpire m s) := by
  unfold execDownHoldExpire
  repeat' first
    | (with_reducible first
        | assumption
        | exact .refl _
        | apply OKeeps.next
        | apply OKeeps.ite
        | apply Keeps.ite
        | apply Keeps.after (State.updLport_keeps ..))

theorem State.pfcReceive_keeps (s : State) (m vec : Nat) (quanta : List Nat) :
    Keeps s (State.pfcReceive s m vec quanta) := by
  unfold State.pfcReceive
  repeat' first
    | (with_reducible first
        | assumption
        | exact .refl _
        | apply Keeps.ite
        | apply Keeps.ite2
        | apply Keeps.ite1
        | apply Keeps.after (State.setFld_keeps ..)
        | apply Keeps.after (State.countDiscard_keeps ..)
        | apply Keeps.after (State.cntMac_keeps ..)
        | fail_if_no_progress refine Keeps.mk' ?_ rfl rfl rfl rfl rfl rfl
        | apply Keeps.foldl
        | apply Keeps.foldlPair)
    | split
    | intro _
    | extract_lets
    | (dsimp +zetaDelta only; split)

theorem execPfcFrameReceive_keeps (m : Fin 128) (vec : BitVec 8) (quanta : List Nat) (s : State) :
    OKeeps s (execPfcFrameReceive m vec quanta s) := by
  unfold execPfcFrameReceive
  repeat' first
    | (with_reducible first
        | assumption
        | exact .refl _
        | apply OKeeps.next
        | apply OKeeps.ite
        | apply Keeps.ite
        | apply Keeps.after (State.pfcReceive_keeps ..))

theorem execPfcPauseExpire_keeps (m : Fin 128) (i : Fin 8) (s : State) :
    OKeeps s (execPfcPauseExpire m i s) := by
  unfold execPfcPauseExpire
  extract_lets _ _ s1
  have hs1 : Keeps s s1 := by
    unfold s1
    repeat' first
      | (with_reducible first
          | assumption
          | exact .refl _
          | apply OKeeps.next
          | apply OKeeps.ite
          | apply Keeps.ite
          | apply Keeps.after (State.setFld_keeps ..)
          | fail_if_no_progress refine Keeps.mk' ?_ rfl rfl rfl rfl rfl rfl)
  repeat' first
    | (with_reducible first
        | assumption
        | exact .refl _
        | apply OKeeps.next
        | apply OKeeps.ite
        | apply Keeps.ite
        | apply Keeps.after (State.setFld_keeps ..))

theorem execPfcXoffRepeat_keeps (m : Fin 128) (i : Fin 8) (s : State) :
    OKeeps s (execPfcXoffRepeat m i s) := by
  unfold execPfcXoffRepeat
  repeat' first
    | (with_reducible first
        | assumption
        | exact .refl _
        | apply OKeeps.next
        | apply OKeeps.ite
        | apply Keeps.ite
        | apply Keeps.after (State.sendPfc_keeps ..))

theorem State.fecWindow_keeps (s : State) (m corr uncorr : Nat) :
    Keeps s (State.fecWindow s m corr uncorr) := by
  unfold State.fecWindow
  extract_lets s1 s2 _ _
  have hs1 : Keeps s s1 := by
    unfold s1
    repeat' first
      | (with_reducible first
          | assumption
          | exact .refl _
          | apply Keeps.ite
          | apply Keeps.after (State.setFld_keeps ..)
          | apply Keeps.after (State.satFld_keeps ..)
          | apply Keeps.after (State.raise_keeps ..)
          | apply Keeps.after (State.cntMac_keeps ..))
  have hs2 : Keeps s s2 := by
    unfold s2
    repeat' first
      | (with_reducible first
          | assumption
          | exact .refl _
          | apply Keeps.ite
          | apply Keeps.after (State.setFld_keeps ..)
          | apply Keeps.after (State.satFld_keeps ..)
          | apply Keeps.after (State.raise_keeps ..)
          | apply Keeps.after (State.cntMac_keeps ..))
  repeat' first
    | (with_reducible first
        | assumption
        | exact .refl _
        | apply Keeps.ite
        | apply Keeps.after (State.setFld_keeps ..)
        | apply Keeps.after (State.satFld_keeps ..)
        | apply Keeps.after (State.raise_keeps ..))

theorem execFecWindowEnd_keeps (m : Fin 128) (corr uncorr : Word) (s : State) :
    OKeeps s (execFecWindowEnd m corr uncorr s) := by
  unfold execFecWindowEnd
  repeat' first
    | (with_reducible first
        | assumption
        | exact .refl _
        | apply OKeeps.next
        | apply OKeeps.ite
        | apply Keeps.ite
        | apply Keeps.after (State.fecWindow_keeps ..))

theorem State.txStamp_keeps (s : State) (m c : Nat) (bytes : List Byte) :
    Keeps s (State.txStamp s m c bytes) := by
  unfold State.txStamp
  repeat' first
    | (with_reducible first
        | assumption
        | exact .refl _
        | apply Keeps.ite
        | apply Keeps.ite2
        | apply Keeps.ite1
        | fail_if_no_progress refine Keeps.mk' ?_ rfl rfl rfl rfl rfl rfl
        | apply Keeps.foldl
        | apply Keeps.foldlPair)
    | split
    | intro _
    | extract_lets
    | (dsimp +zetaDelta only; split)

theorem State.setPtpState_keeps (s : State) (st src : Nat) :
    Keeps s (State.setPtpState s st src) := by
  unfold State.setPtpState
  extract_lets s1
  have hs1 : Keeps s s1 := by
    unfold s1
    repeat' first
      | (with_reducible first
          | assumption
          | exact .refl _
          | apply Keeps.ite
          | apply Keeps.after (State.setFld_keeps ..))
  repeat' first
    | (with_reducible first
        | assumption
        | exact .refl _
        | apply Keeps.ite
        | apply Keeps.after (State.setFld_keeps ..)
        | apply Keeps.after (State.raise_keeps ..))

theorem State.ptpCtl_keeps (s : State) :
    Keeps s (State.ptpCtl s) := by
  unfold State.ptpCtl
  repeat' first
    | (with_reducible first
        | assumption
        | exact .refl _
        | apply Keeps.ite
        | apply Keeps.ite2
        | apply Keeps.ite1
        | apply Keeps.after (State.setPtpState_keeps ..)
        | fail_if_no_progress refine Keeps.mk' ?_ rfl rfl rfl rfl rfl rfl
        | apply Keeps.foldl
        | apply Keeps.foldlPair)
    | split
    | intro _
    | extract_lets
    | (dsimp +zetaDelta only; split)

theorem execPtpSourceLoss_keeps (s : State) :
    OKeeps s (execPtpSourceLoss s) := by
  unfold execPtpSourceLoss
  extract_lets _ _
  repeat' first
    | (with_reducible first
        | assumption
        | exact .refl _
        | apply OKeeps.next
        | apply OKeeps.ite
        | apply Keeps.ite
        | apply Keeps.after (State.setPtpState_keeps ..))

theorem State.trimUpdate_keeps (s : State) :
    Keeps s (State.trimUpdate s) := by
  unfold State.trimUpdate
  repeat' first
    | (with_reducible first
        | assumption
        | exact .refl _
        | apply Keeps.ite
        | apply Keeps.ite2
        | apply Keeps.ite1
        | apply Keeps.after (State.setFld_keeps ..)
        | apply Keeps.after (State.draw_keeps ..)
        | fail_if_no_progress refine Keeps.mk' ?_ rfl rfl rfl rfl rfl rfl
        | apply Keeps.foldl
        | apply Keeps.foldlPair)
    | split
    | intro _
    | extract_lets
    | (dsimp +zetaDelta only; split)

theorem execPllTrimUpdate_keeps (s : State) :
    OKeeps s (execPllTrimUpdate s) := by
  unfold execPllTrimUpdate
  repeat' first
    | (with_reducible first
        | assumption
        | exact .refl _
        | apply OKeeps.next
        | apply OKeeps.ite
        | apply Keeps.ite
        | apply Keeps.after (State.trimUpdate_keeps ..))

theorem execMacPtpSeamNsRead_keeps (s : State) :
    OKeeps s (execMacPtpSeamNsRead s) := by
  unfold execMacPtpSeamNsRead
  extract_lets _ _ _ _ s1
  have hs1 : Keeps s s1 := by
    unfold s1
    repeat' first
      | (with_reducible first
          | assumption
          | exact .refl _
          | apply OKeeps.next
          | apply OKeeps.ite
          | apply Keeps.ite
          | apply Keeps.after (State.emit_keeps ..)
          | fail_if_no_progress refine Keeps.mk' ?_ rfl rfl rfl rfl rfl rfl)
  repeat' first
    | (with_reducible first
        | assumption
        | exact .refl _
        | apply OKeeps.next
        | apply OKeeps.ite
        | apply Keeps.ite
        | apply Keeps.after (State.emit_keeps ..))

theorem State.ptpSeam_keeps (s : State) :
    Keeps s (State.ptpSeam s) := by
  unfold State.ptpSeam
  repeat' first
    | (with_reducible first
        | assumption
        | exact .refl _
        | apply Keeps.ite
        | apply Keeps.ite2
        | apply Keeps.ite1
        | apply Keeps.after (State.setFld_keeps ..)
        | fail_if_no_progress refine Keeps.mk' ?_ rfl rfl rfl rfl rfl rfl
        | apply Keeps.foldl
        | apply Keeps.foldlPair)
    | split
    | intro _
    | extract_lets
    | (dsimp +zetaDelta only; split)

end Sys2Proof.Machine
end

