-- ==== Sys2Proof/Laws/KeepEgress.lean ====
section
/-!
SUPPORT. What the operations of Machine/Egress.lean keep (Laws/Keep.lean).
-/

namespace Sys2Proof.Machine

open Sys2Proof

theorem State.setVt_keeps (s : State) (m : Nat) (p : Point) (x : Nat × Nat) :
    Keeps s (State.setVt s m p x) := by
  unfold State.setVt
  extract_lets _
  repeat' first
    | (with_reducible first
        | assumption
        | exact .refl _
        | apply Keeps.ite
        | fail_if_no_progress refine Keeps.mk' ?_ rfl rfl rfl rfl rfl rfl)

theorem State.setTag_keeps (s : State) (m : Nat) (c : Child) (x : Nat × Nat) :
    Keeps s (State.setTag s m c x) := by
  unfold State.setTag
  extract_lets _
  repeat' first
    | (with_reducible first
        | assumption
        | exact .refl _
        | apply Keeps.ite
        | fail_if_no_progress refine Keeps.mk' ?_ rfl rfl rfl rfl rfl rfl)

theorem State.wake_keeps (s : State) (f : EgFrame) :
    Keeps s (State.wake s f) := by
  unfold State.wake
  repeat' first
    | (with_reducible first
        | assumption
        | exact .refl _
        | apply Keeps.ite
        | apply Keeps.ite2
        | apply Keeps.ite1
        | apply Keeps.after (State.setTag_keeps ..)
        | fail_if_no_progress refine Keeps.mk' ?_ rfl rfl rfl rfl rfl rfl
        | apply Keeps.foldl
        | apply Keeps.foldlPair)
    | split
    | intro _

theorem State.floodLeft_keeps (s : State) (id : Nat) :
    Keeps s (State.floodLeft s id) := by
  unfold State.floodLeft
  extract_lets v1
  repeat' first
    | (with_reducible first
        | assumption
        | exact .refl _
        | apply Keeps.ite
        | apply Keeps.after (State.freeCells_keeps ..)
        | fail_if_no_progress refine Keeps.mk' ?_ rfl rfl rfl rfl rfl rfl)
    | split

theorem State.freeFrame_keeps (s : State) (f : EgFrame) :
    Keeps s (State.freeFrame s f) := by
  unfold State.freeFrame
  extract_lets s1
  have hs1 : Keeps s s1 := by
    unfold s1
    repeat' first
      | (with_reducible first
          | assumption
          | exact .refl _
          | apply Keeps.ite
          | apply Keeps.after (State.freeCells_keeps ..))
  repeat' first
    | (with_reducible first
        | assumption
        | exact .refl _
        | apply Keeps.ite
        | apply Keeps.after (State.freeCells_keeps ..)
        | apply Keeps.after (State.floodLeft_keeps ..)
        | fail_if_no_progress refine Keeps.mk' ?_ rfl rfl rfl rfl rfl rfl)
    | split

theorem State.enqueue_keeps (s : State) (f : EgFrame) :
    Keeps s (State.enqueue s f) := by
  unfold State.enqueue
  repeat' first
    | (with_reducible first
        | assumption
        | exact .refl _
        | apply Keeps.ite
        | apply Keeps.ite2
        | apply Keeps.ite1
        | apply Keeps.after (State.wake_keeps ..)
        | apply Keeps.after (State.freeFrame_keeps ..)
        | apply Keeps.after (State.cntSwc_keeps ..)
        | apply Keeps.after (State.countDiscard_keeps ..)
        | fail_if_no_progress refine Keeps.mk' ?_ rfl rfl rfl rfl rfl rfl
        | apply Keeps.foldl
        | apply Keeps.foldlPair)
    | split
    | intro _
    | extract_lets
    | (dsimp +zetaDelta only; split)

theorem State.sendMgtOf_keeps (s : State) (m prio : Nat) (bytes : List Byte) (cm : Option (List Byte × Nat × CmMsg)) :
    Keeps s (State.sendMgtOf s m prio bytes cm) := by
  unfold State.sendMgtOf
  repeat' first
    | (with_reducible first
        | assumption
        | exact .refl _
        | apply Keeps.ite
        | apply Keeps.ite2
        | apply Keeps.ite1
        | apply Keeps.after (State.enqueue_keeps ..)
        | apply Keeps.after (State.takeCells_keeps ..)
        | fail_if_no_progress refine Keeps.mk' ?_ rfl rfl rfl rfl rfl rfl
        | apply Keeps.foldl
        | apply Keeps.foldlPair)
    | split
    | intro _
    | extract_lets
    | (dsimp +zetaDelta only; split)

theorem State.sendMgt_keeps (s : State) (m prio : Nat) (bytes : List Byte) :
    Keeps s (State.sendMgt s m prio bytes) := by
  unfold State.sendMgt
  repeat' first
    | (with_reducible first
        | assumption
        | exact .refl _
        | apply Keeps.ite
        | apply Keeps.ite2
        | apply Keeps.ite1
        | apply Keeps.after (State.sendMgtOf_keeps ..)
        | fail_if_no_progress refine Keeps.mk' ?_ rfl rfl rfl rfl rfl rfl
        | apply Keeps.foldl
        | apply Keeps.foldlPair)
    | split
    | intro _
    | extract_lets
    | (dsimp +zetaDelta only; split)

theorem State.unqueued_keeps (s : State) (f : EgFrame) :
    Keeps s (State.unqueued s f) := by
  unfold State.unqueued
  repeat' first
    | (with_reducible first
        | assumption
        | exact .refl _
        | apply Keeps.ite
        | apply Keeps.ite2
        | apply Keeps.ite1
        | apply Keeps.after (State.setVt_keeps ..)
        | apply Keeps.after (State.setTag_keeps ..)
        | fail_if_no_progress refine Keeps.mk' ?_ rfl rfl rfl rfl rfl rfl
        | apply Keeps.foldl
        | apply Keeps.foldlPair)
    | split
    | intro _
    | extract_lets
    | (dsimp +zetaDelta only; split)

theorem State.discardQueued_keeps (s : State) (p : EgFrame → Bool) :
    Keeps s (State.discardQueued s p) := by
  unfold State.discardQueued
  repeat' first
    | (with_reducible first
        | assumption
        | exact .refl _
        | apply Keeps.ite
        | apply Keeps.ite2
        | apply Keeps.ite1
        | apply Keeps.after (State.freeFrame_keeps ..)
        | apply Keeps.after (State.unqueued_keeps ..)
        | fail_if_no_progress refine Keeps.mk' ?_ rfl rfl rfl rfl rfl rfl
        | apply Keeps.foldl
        | apply Keeps.foldlPair)
    | split
    | intro _
    | extract_lets
    | (dsimp +zetaDelta only; split)

theorem State.setDeficit_keeps (s : State) (m : Nat) (p : Point) (v : Nat) :
    Keeps s (State.setDeficit s m p v) := by
  unfold State.setDeficit
  extract_lets _
  repeat' first
    | (with_reducible first
        | assumption
        | exact .refl _
        | apply Keeps.ite
        | fail_if_no_progress refine Keeps.mk' ?_ rfl rfl rfl rfl rfl rfl)

theorem State.descend_keeps (s : State) (m fuel : Nat) (p : Point) (fs : List EgFrame) : Keeps s (State.descend s m fuel p fs).2 := by
  induction fuel generalizing s p fs with
  | zero => exact .refl _
  | succ fuel ih =>
    unfold State.descend
    split
    · exact .refl _
    extract_lets s1 fs1
    have h1 : Keeps s s1 := .ite (.refl _) (State.setVt_keeps ..)
    split
    · exact h1.trans (ih ..)
    · exact h1.trans (ih ..)
    · exact h1

theorem State.egressSelect_keeps (s : State) (m : Nat) :
    Keeps s (State.egressSelect s m) := by
  unfold State.egressSelect
  repeat' first
    | (with_reducible first
        | assumption
        | exact .refl _
        | apply Keeps.ite
        | refine Keeps.trans ?_ (.pair (by assumption) (State.descend_keeps ..))
        | apply Keeps.after (State.descend_keeps ..)
        | fail_if_no_progress refine Keeps.mk' ?_ rfl rfl rfl rfl rfl rfl)
    | split

theorem execEgressSelect_keeps (m : Fin 128) (s : State) :
    OKeeps s (execEgressSelect m s) := by
  unfold execEgressSelect
  repeat' first
    | (with_reducible first
        | assumption
        | exact .refl _
        | apply OKeeps.next
        | apply OKeeps.ite
        | apply Keeps.ite
        | apply Keeps.after (State.egressSelect_keeps ..))

theorem State.chargePoint_keeps (s : State) (m : Nat) (f : EgFrame) (L : Nat) (pc : Point × Child) :
    Keeps s (State.chargePoint s m f L pc) := by
  unfold State.chargePoint
  extract_lets v1
  repeat' first
    | (with_reducible first
        | assumption
        | exact .refl _
        | apply Keeps.ite
        | apply Keeps.ite2
        | apply Keeps.ite1
        | apply Keeps.after (State.setVt_keeps ..)
        | apply Keeps.after (State.setTag_keeps ..)
        | fail_if_no_progress refine Keeps.mk' ?_ rfl rfl rfl rfl rfl rfl)
    | split

theorem State.payShapers_keeps (s : State) (m : Nat) (f : EgFrame) (L : Nat) :
    Keeps s (State.payShapers s m f L) := by
  unfold State.payShapers
  repeat' first
    | (with_reducible first
        | assumption
        | exact .refl _
        | apply Keeps.ite
        | apply Keeps.ite2
        | apply Keeps.ite1
        | apply Keeps.after (State.setDeficit_keeps ..)
        | fail_if_no_progress refine Keeps.mk' ?_ rfl rfl rfl rfl rfl rfl
        | apply Keeps.foldl
        | apply Keeps.foldlPair)
    | split
    | intro _

theorem State.departed_keeps (s : State) (id : Nat) :
    Keeps s (State.departed s id) := by
  unfold State.departed
  repeat' first
    | (with_reducible first
        | assumption
        | exact .refl _
        | apply Keeps.ite
        | apply Keeps.ite2
        | apply Keeps.ite1
        | apply Keeps.after (State.discardQueued_keeps ..)
        | fail_if_no_progress refine Keeps.mk' ?_ rfl rfl rfl rfl rfl rfl
        | apply Keeps.foldl
        | apply Keeps.foldlPair)
    | split
    | intro _
    | extract_lets
    | (dsimp +zetaDelta only; split)

theorem State.frameDepart_keeps (s : State) (m cycle : Nat) :
    Keeps s (State.frameDepart s m cycle) := by
  unfold State.frameDepart
  repeat' first
    | (with_reducible first
        | assumption
        | exact .refl _
        | apply Keeps.ite
        | apply Keeps.ite2
        | apply Keeps.ite1
        | apply Keeps.after (State.freeFrame_keeps ..)
        | apply Keeps.after (State.chargePoint_keeps ..)
        | apply Keeps.after (State.payShapers_keeps ..)
        | apply Keeps.after (State.cntSwc_keeps ..)
        | apply Keeps.after (State.entry_keeps ..)
        | apply Keeps.after (State.emitNet_keeps ..)
        | apply Keeps.after (State.cntMac_keeps ..)
        | apply Keeps.after (State.flushPfc_keeps ..)
        | apply Keeps.after (State.txStamp_keeps ..)
        | fail_if_no_progress refine Keeps.mk' ?_ rfl rfl rfl rfl rfl rfl
        | apply Keeps.foldl
        | apply Keeps.foldlPair)
    | split
    | intro _
    | extract_lets
    | (dsimp +zetaDelta only; split)

theorem execFrameDepart_keeps (m : Fin 128) (cycle : Fin 2048) (s : State) :
    OKeeps s (execFrameDepart m cycle s) := by
  unfold execFrameDepart
  repeat' first
    | (with_reducible first
        | assumption
        | exact .refl _
        | apply OKeeps.next
        | apply OKeeps.ite
        | apply Keeps.ite
        | apply Keeps.after (State.frameDepart_keeps ..))

theorem State.shaperStart_keeps (s : State) (p : Nat → Bool) :
    Keeps s (State.shaperStart s p) := by
  unfold State.shaperStart
  repeat' first
    | (with_reducible first
        | assumption
        | exact .refl _
        | apply Keeps.ite
        | apply Keeps.ite2
        | apply Keeps.ite1
        | fail_if_no_progress refine Keeps.mk' ?_ rfl rfl rfl rfl rfl rfl
        | apply Keeps.foldl
        | apply Keeps.foldlPair)
    | split
    | intro _
    | extract_lets
    | (dsimp +zetaDelta only; split)

theorem State.shaperRefill_keeps (s : State) :
    Keeps s (State.shaperRefill s) := by
  unfold State.shaperRefill
  repeat' first
    | (with_reducible first
        | assumption
        | exact .refl _
        | apply Keeps.ite
        | apply Keeps.ite2
        | apply Keeps.ite1
        | apply Keeps.after (State.setDeficit_keeps ..)
        | fail_if_no_progress refine Keeps.mk' ?_ rfl rfl rfl rfl rfl rfl
        | apply Keeps.foldl
        | apply Keeps.foldlPair)
    | intro _

theorem State.hierarchyReset_keeps (s : State) (m : Nat) :
    Keeps s (State.hierarchyReset s m) := by
  unfold State.hierarchyReset
  extract_lets _ _
  repeat' first
    | (with_reducible first
        | assumption
        | exact .refl _
        | apply Keeps.ite
        | apply Keeps.ite1
        | fail_if_no_progress refine Keeps.mk' ?_ rfl rfl rfl rfl rfl rfl)

theorem State.portStop_keeps (s : State) (m : Nat) :
    Keeps s (State.portStop s m) := by
  unfold State.portStop
  repeat' first
    | (with_reducible first
        | assumption
        | exact .refl _
        | apply Keeps.ite
        | apply Keeps.ite2
        | apply Keeps.ite1
        | apply Keeps.after (State.freeFrame_keeps ..)
        | apply Keeps.after (State.discardQueued_keeps ..)
        | apply Keeps.after (State.emitNet_keeps ..)
        | apply Keeps.after (State.countDiscard_keeps ..)
        | fail_if_no_progress refine Keeps.mk' ?_ rfl rfl rfl rfl rfl rfl
        | apply Keeps.foldl
        | apply Keeps.foldlPair)
    | split
    | intro _
    | extract_lets
    | (dsimp +zetaDelta only; split)

theorem State.hierarchyFresh_keeps (s : State) (m : Nat) :
    Keeps s (State.hierarchyFresh s m) := by
  unfold State.hierarchyFresh
  repeat' first
    | (with_reducible first
        | assumption
        | exact .refl _
        | apply Keeps.ite
        | apply Keeps.ite2
        | apply Keeps.ite1
        | apply Keeps.after (State.discardQueued_keeps ..)
        | apply Keeps.after (State.hierarchyReset_keeps ..)
        | fail_if_no_progress refine Keeps.mk' ?_ rfl rfl rfl rfl rfl rfl
        | apply Keeps.foldl
        | apply Keeps.foldlPair)
    | split
    | intro _
    | extract_lets
    | (dsimp +zetaDelta only; split)

theorem State.portFlush_keeps (s : State) (m : Nat) :
    Keeps s (State.portFlush s m) := by
  unfold State.portFlush
  repeat' first
    | (with_reducible first
        | assumption
        | exact .refl _
        | apply Keeps.ite
        | apply Keeps.ite2
        | apply Keeps.ite1
        | apply Keeps.after (State.hierarchyReset_keeps ..)
        | apply Keeps.after (State.portStop_keeps ..)
        | apply Keeps.after (State.setFld_keeps ..)
        | fail_if_no_progress refine Keeps.mk' ?_ rfl rfl rfl rfl rfl rfl
        | apply Keeps.foldl
        | apply Keeps.foldlPair)
    | split
    | intro _
    | extract_lets
    | (dsimp +zetaDelta only; split)

end Sys2Proof.Machine
end

