-- ==== Sys2Proof/Laws/KeepQps.lean ====
section
/-!
SUPPORT. What the operations of Machine/Qps.lean keep (Laws/Keep.lean).
-/

namespace Sys2Proof.Machine

open Sys2Proof

theorem State.setQp_keeps (s : State) (q : Nat) (x : Qp) :
    Keeps s (State.setQp s q x) := by
  unfold State.setQp
  extract_lets _
  repeat' first
    | (with_reducible first
        | assumption
        | exact .refl _
        | apply Keeps.ite
        | fail_if_no_progress refine Keeps.mk' ?_ rfl rfl rfl rfl rfl rfl)

theorem State.updQp_keeps (s : State) (q : Nat) (f : Qp → Qp) :
    Keeps s (State.updQp s q f) := by
  unfold State.updQp
  repeat' first
    | (with_reducible first
        | assumption
        | exact .refl _
        | apply Keeps.ite
        | apply Keeps.after (State.setQp_keeps ..))

theorem State.qpWant_keeps (s : State) (q : Nat) (n : QpNext) :
    Keeps s (State.qpWant s q n) := by
  unfold State.qpWant
  repeat' first
    | (with_reducible first
        | assumption
        | exact .refl _
        | apply Keeps.ite
        | apply Keeps.after (State.updQp_keeps ..))

theorem State.qpFail_keeps (s : State) (q cause : Nat) :
    Keeps s (State.qpFail s q cause) := by
  unfold State.qpFail
  extract_lets _
  repeat' first
    | (with_reducible first
        | assumption
        | exact .refl _
        | apply Keeps.ite
        | apply Keeps.after (State.qpWant_keeps ..))

theorem State.useQp_keeps (s : State) (q : Nat) :
    Keeps s (State.useQp s q) := by
  unfold State.useQp
  extract_lets _ _
  repeat' first
    | (with_reducible first
        | assumption
        | exact .refl _
        | apply Keeps.ite
        | apply Keeps.after (State.updQp_keeps ..)
        | fail_if_no_progress refine Keeps.mk' ?_ rfl rfl rfl rfl rfl rfl)

theorem State.addXfer_keeps (s : State) (n : Nat) :
    Keeps s (State.addXfer s n) := by
  unfold State.addXfer
  extract_lets _
  repeat' first
    | (with_reducible first
        | assumption
        | exact .refl _
        | apply Keeps.ite
        | fail_if_no_progress refine Keeps.mk' ?_ rfl rfl rfl rfl rfl rfl)

theorem State.grantFetch_keeps (s : State) (q : Nat) :
    Keeps s (State.grantFetch s q) := by
  unfold State.grantFetch
  extract_lets s1
  have hs1 : Keeps s s1 := by
    unfold s1
    repeat' first
      | (with_reducible first
          | assumption
          | exact .refl _
          | apply Keeps.ite
          | apply Keeps.after (State.updQp_keeps ..)
          | apply Keeps.after (State.addXfer_keeps ..)
          | apply Keeps.after (State.fetch_keeps ..)
          | fail_if_no_progress refine Keeps.mk' ?_ rfl rfl rfl rfl rfl rfl)
      | split
  repeat' first
    | (with_reducible first
        | assumption
        | exact .refl _
        | apply Keeps.ite
        | apply Keeps.after (State.updQp_keeps ..)
        | apply Keeps.after (State.addXfer_keeps ..))

theorem State.askFetch_keeps (s : State) (q k : Nat) :
    Keeps s (State.askFetch s q k).2 := by
  unfold State.askFetch
  extract_lets _ s1
  have hs1 : Keeps s s1 := by
    unfold s1
    repeat' first
      | (with_reducible first
          | assumption
          | exact .refl _
          | apply Keeps.ite
          | apply Keeps.ite2
          | apply Keeps.after (State.updQp_keeps ..))
  repeat' first
    | (with_reducible first
        | assumption
        | exact .refl _
        | apply Keeps.ite
        | apply Keeps.ite2
        | apply Keeps.after (State.updQp_keeps ..)
        | apply Keeps.after (State.grantFetch_keeps ..))

theorem State.askEgress_keeps (s : State) (q : Nat) :
    Keeps s (State.askEgress s q) := by
  unfold State.askEgress
  repeat' first
    | (with_reducible first
        | assumption
        | exact .refl _
        | apply Keeps.ite
        | apply Keeps.ite2
        | apply Keeps.ite1
        | apply Keeps.after (State.fetch_keeps ..)
        | apply Keeps.after (State.updQp_keeps ..)
        | apply Keeps.after (State.askFetch_keeps ..)
        | fail_if_no_progress refine Keeps.mk' ?_ rfl rfl rfl rfl rfl rfl
        | apply Keeps.foldl
        | apply Keeps.foldlPair)
    | split
    | intro _
    | extract_lets
    | (dsimp +zetaDelta only; split)

theorem State.askTimer_keeps (s : State) (q : Nat) :
    Keeps s (State.askTimer s q) := by
  unfold State.askTimer
  repeat' first
    | (with_reducible first
        | assumption
        | exact .refl _
        | apply Keeps.ite
        | apply Keeps.ite2
        | apply Keeps.ite1
        | apply Keeps.after (State.fetch_keeps ..)
        | apply Keeps.after (State.updQp_keeps ..)
        | apply Keeps.after (State.askFetch_keeps ..)
        | fail_if_no_progress refine Keeps.mk' ?_ rfl rfl rfl rfl rfl rfl
        | apply Keeps.foldl
        | apply Keeps.foldlPair)
    | split
    | intro _
    | extract_lets
    | (dsimp +zetaDelta only; split)

theorem State.tickFetches_keeps (s : State) :
    Keeps s (State.tickFetches s) := by
  unfold State.tickFetches
  extract_lets _ s1
  have hs1 : Keeps s s1 := by
    unfold s1
    repeat' first
      | (with_reducible first
          | assumption
          | exact .refl _
          | apply Keeps.ite
          | apply Keeps.after (State.grantFetch_keeps ..)
          | fail_if_no_progress refine Keeps.mk' ?_ rfl rfl rfl rfl rfl rfl)
  repeat' first
    | (with_reducible first
        | assumption
        | exact .refl _
        | apply Keeps.ite
        | apply Keeps.after (State.grantFetch_keeps ..)
        | fail_if_no_progress refine Keeps.mk' ?_ rfl rfl rfl rfl rfl rfl
        | apply Keeps.foldl
        | apply Keeps.foldlPair)
    | intro _

theorem State.fetchDone_keeps (s : State) (q : Nat) :
    Keeps s (State.fetchDone s q) := by
  unfold State.fetchDone
  repeat' first
    | (with_reducible first
        | assumption
        | exact .refl _
        | apply Keeps.ite
        | apply Keeps.after (State.updQp_keeps ..))

theorem State.sendCtl_keeps (s : State) (q : Nat) (wait : Option Nat) (bytes : List Byte) :
    Keeps s (State.sendCtl s q wait bytes) := by
  unfold State.sendCtl
  extract_lets _
  repeat' first
    | (with_reducible first
        | assumption
        | exact .refl _
        | apply Keeps.ite
        | apply Keeps.after (State.takeCells_keeps ..)
        | apply Keeps.after (State.enqueue_keeps ..))

theorem State.sendAck_keeps (s : State) (q : Nat) :
    Keeps s (State.sendAck s q) := by
  unfold State.sendAck
  extract_lets _
  repeat' first
    | (with_reducible first
        | assumption
        | exact .refl _
        | apply Keeps.ite
        | apply Keeps.after (State.sendCtl_keeps ..))

theorem State.sendNak_keeps (s : State) (q syn : Nat) :
    Keeps s (State.sendNak s q syn) := by
  unfold State.sendNak
  extract_lets _
  repeat' first
    | (with_reducible first
        | assumption
        | exact .refl _
        | apply Keeps.ite
        | apply Keeps.after (State.sendCtl_keeps ..))

theorem State.nakFail_keeps (s : State) (q syn cause : Nat) :
    Keeps s (State.nakFail s q syn cause) := by
  unfold State.nakFail
  repeat' first
    | (with_reducible first
        | assumption
        | exact .refl _
        | apply Keeps.ite
        | apply Keeps.ite2
        | apply Keeps.ite1
        | apply Keeps.after (State.updQp_keeps ..)
        | apply Keeps.after (State.qpWant_keeps ..)
        | apply Keeps.after (State.qpFail_keeps ..)
        | apply Keeps.after (State.sendNak_keeps ..)
        | fail_if_no_progress refine Keeps.mk' ?_ rfl rfl rfl rfl rfl rfl
        | apply Keeps.foldl
        | apply Keeps.foldlPair)
    | split
    | intro _
    | extract_lets
    | (dsimp +zetaDelta only; split)

theorem State.cnp_keeps (s : State) (q : Nat) :
    Keeps s (State.cnp s q) := by
  unfold State.cnp
  extract_lets _ _
  repeat' first
    | (with_reducible first
        | assumption
        | exact .refl _
        | apply Keeps.ite
        | apply Keeps.after (State.cntRdm_keeps ..)
        | apply Keeps.after (State.updQp_keeps ..)
        | apply Keeps.after (State.sendCtl_keeps ..))

theorem State.sendHeld_keeps (s : State) (q : Nat) (ch wait : Option Nat) (bytes : List Byte) (stomp : Bool) :
    Keeps s (State.sendHeld s q ch wait bytes stomp) := by
  unfold State.sendHeld
  repeat' first
    | (with_reducible first
        | assumption
        | exact .refl _
        | apply Keeps.ite
        | apply Keeps.after (State.cntTmg_keeps ..)
        | apply Keeps.after (State.enqueue_keeps ..))

theorem State.resendOne_keeps (s : State) (q : Nat) (h : Held) :
    Keeps s (State.resendOne s q h) := by
  unfold State.resendOne
  repeat' first
    | (with_reducible first
        | assumption
        | exact .refl _
        | apply Keeps.ite
        | apply Keeps.ite2
        | apply Keeps.ite1
        | apply Keeps.after (State.updQp_keeps ..)
        | apply Keeps.after (State.sendHeld_keeps ..)
        | fail_if_no_progress refine Keeps.mk' ?_ rfl rfl rfl rfl rfl rfl
        | apply Keeps.foldl
        | apply Keeps.foldlPair)
    | split
    | intro _
    | extract_lets
    | (dsimp +zetaDelta only; split)

theorem State.resendSome_keeps (q n : Nat) (s : State) : Keeps s (State.resendSome q n s) := by
  induction n generalizing s with
  | zero => exact .refl _
  | succ n ih =>
    unfold State.resendSome
    repeat' first
      | (with_reducible first
          | assumption
          | exact .refl _
          | apply Keeps.ite
          | apply Keeps.after (State.resendOne_keeps ..)
          | apply Keeps.after (State.updQp_keeps ..)
          | apply Keeps.after (State.cntRdm_keeps ..)
          | apply Keeps.after (ih ..))
      | split

theorem State.resendFrom_keeps (s : State) (q p : Nat) :
    Keeps s (State.resendFrom s q p) := by
  unfold State.resendFrom
  repeat' first
    | (with_reducible first
        | assumption
        | exact .refl _
        | apply Keeps.ite
        | apply Keeps.ite2
        | apply Keeps.ite1
        | apply Keeps.after (State.resend_keeps ..)
        | apply Keeps.after (State.updQp_keeps ..)
        | apply Keeps.after (State.resendSome_keeps ..)
        | fail_if_no_progress refine Keeps.mk' ?_ rfl rfl rfl rfl rfl rfl
        | apply Keeps.foldl
        | apply Keeps.foldlPair)
    | split
    | intro _
    | extract_lets
    | (dsimp +zetaDelta only; split)

theorem State.setDeadline_keeps (s : State) (q : Nat) :
    Keeps s (State.setDeadline s q) := by
  unfold State.setDeadline
  repeat' first
    | (with_reducible first
        | assumption
        | exact .refl _
        | apply Keeps.ite
        | apply Keeps.after (State.updQp_keeps ..))

end Sys2Proof.Machine
end

