-- ==== Sys2Proof/Laws/KeepMeter.lean ====
section
/-!
SUPPORT. What the operations of Machine/Meter.lean keep (Laws/Keep.lean).
-/

namespace Sys2Proof.Machine

open Sys2Proof

theorem State.cntChan_keeps (s : State) (i j n : Nat) :
    Keeps s (State.cntChan s i j n) := by
  unfold State.cntChan
  repeat' first
    | (with_reducible first
        | assumption
        | exact .refl _
        | apply Keeps.ite
        | apply Keeps.after (State.acc_keeps ..))

theorem State.meterCap_keeps (s : State) (i : Nat) (c : Capsule) :
    Keeps s (State.meterCap s i c).2 := by
  unfold State.meterCap
  extract_lets _ _ _
  repeat' first
    | (with_reducible first
        | assumption
        | exact .refl _
        | apply Keeps.ite
        | apply Keeps.ite2
        | apply Keeps.after (State.cntTmg_keeps ..)
        | apply Keeps.after (State.setChan_keeps ..)
        | apply Keeps.after (State.cntChan_keeps ..))

theorem State.deferCap_keeps (s : State) (i : Nat) (c : Capsule) :
    Keeps s (State.deferCap s i c) := by
  unfold State.deferCap
  extract_lets _
  repeat' first
    | (with_reducible first
        | assumption
        | exact .refl _
        | apply Keeps.ite
        | apply Keeps.after (State.cntTmg_keeps ..)
        | apply Keeps.after (State.setChan_keeps ..)
        | apply Keeps.after (State.updCap_keeps ..)
        | apply Keeps.after (State.postCap_keeps ..))

theorem State.chargeCap_keeps (s : State) (i : Nat) (c : Capsule) :
    Keeps s (State.chargeCap s i c) := by
  unfold State.chargeCap
  extract_lets _
  repeat' first
    | (with_reducible first
        | assumption
        | exact .refl _
        | apply Keeps.ite
        | apply Keeps.after (State.cntTmg_keeps ..)
        | apply Keeps.after (State.postCap_keeps ..)
        | refine Keeps.trans ?_ (.pair (by assumption) (State.meterCap_keeps ..))
        | apply Keeps.after (State.meterCap_keeps ..)
        | apply Keeps.after (State.deferCap_keeps ..))

theorem State.serveDefer_keeps (i : Nat) (n : Nat) (s : State) : Keeps s (State.serveDefer i n s) := by
  induction n generalizing s with
  | zero => exact .refl _
  | succ n ih =>
    unfold State.serveDefer
    repeat' first
      | (with_reducible first
          | exact .refl _
          | apply Keeps.ite
          | apply Keeps.after (ih ..)
          | apply Keeps.after (State.cntTmg_keeps ..)
          | apply Keeps.after (State.setChan_keeps ..)
          | apply Keeps.after (State.postCap_keeps ..)
          | refine Keeps.trans ?_ (.pair (by assumption) (State.meterCap_keeps ..))
          | apply Keeps.after (State.meterCap_keeps ..)
          | fail_if_no_progress refine Keeps.mk' ?_ rfl rfl rfl rfl rfl rfl
          | apply Keeps.foldl)
      | split

theorem State.meterRefill_keeps (s : State) :
    Keeps s (State.meterRefill s) := by
  unfold State.meterRefill
  repeat' first
    | (with_reducible first
        | assumption
        | exact .refl _
        | apply Keeps.ite
        | apply Keeps.ite2
        | apply Keeps.ite1
        | apply Keeps.after (State.setChan_keeps ..)
        | fail_if_no_progress refine Keeps.mk' ?_ rfl rfl rfl rfl rfl rfl
        | apply Keeps.foldl
        | apply Keeps.foldlPair)
    | split
    | intro _
    | extract_lets
    | (dsimp +zetaDelta only; split)

theorem State.meterSeam_keeps (s : State) :
    Keeps s (State.meterSeam s) := by
  unfold State.meterSeam
  repeat' first
    | (with_reducible first
        | assumption
        | exact .refl _
        | apply Keeps.ite
        | apply Keeps.ite2
        | apply Keeps.ite1
        | apply Keeps.after (State.serveDefer_keeps ..)
        | fail_if_no_progress refine Keeps.mk' ?_ rfl rfl rfl rfl rfl rfl
        | apply Keeps.foldl
        | apply Keeps.foldlPair)
    | split
    | intro _
    | extract_lets
    | (dsimp +zetaDelta only; split)

theorem State.meterSnap_keeps (s : State) :
    Keeps s (State.meterSnap s) := by
  unfold State.meterSnap
  extract_lets v1 s1 _
  have hs1 : Keeps s s1 := by
    unfold s1
    repeat' first
      | (with_reducible first
          | assumption
          | exact .refl _
          | apply Keeps.ite
          | apply Keeps.after (State.wrReg_keeps ..)
          | fail_if_no_progress refine Keeps.mk' ?_ rfl rfl rfl rfl rfl rfl)
  repeat' first
    | (with_reducible first
        | assumption
        | exact .refl _
        | apply Keeps.ite
        | apply Keeps.after (State.wrReg_keeps ..)
        | fail_if_no_progress refine Keeps.mk' ?_ rfl rfl rfl rfl rfl rfl)
    | split

theorem execTmgChanSelWrite_keeps (w : Word) (s : State) :
    OKeeps s (execTmgChanSelWrite w s) := by
  unfold execTmgChanSelWrite
  repeat' first
    | (with_reducible first
        | assumption
        | exact .refl _
        | apply OKeeps.next
        | apply OKeeps.ite
        | apply Keeps.ite
        | apply Keeps.after (State.hostWrite_keeps (hf := ?_) ..)
        | apply Keeps.after (State.regWrite_keeps ..)
        | fail_if_no_progress refine Keeps.mk' ?_ rfl rfl rfl rfl rfl rfl)
    | intro _

end Sys2Proof.Machine
end

