-- ==== Sys2Proof/Laws/KeepRdma.lean ====
section
/-!
SUPPORT. What the operations of Machine/Rdma.lean keep (Laws/Keep.lean).
-/

namespace Sys2Proof.Machine

open Sys2Proof

theorem State.freeTo_keeps (s : State) (q p : Nat) :
    Keeps s (State.freeTo s q p) := by
  unfold State.freeTo
  extract_lets _ _ _ s1 s2
  have hs1 : Keeps s s1 := by
    unfold s1
    repeat' first
      | (with_reducible first
          | assumption
          | exact .refl _
          | apply Keeps.ite
          | apply Keeps.after (State.freeCells_keeps ..)
          | apply Keeps.after (State.updQp_keeps ..)
          | apply Keeps.after (State.setDeadline_keeps ..)
          | fail_if_no_progress refine Keeps.mk' ?_ rfl rfl rfl rfl rfl rfl
          | apply Keeps.foldl
          | apply Keeps.foldlPair)
      | intro _
      | extract_lets
  have hs2 : Keeps s s2 := by
    unfold s2
    repeat' first
      | (with_reducible first
          | assumption
          | exact .refl _
          | apply Keeps.ite
          | apply Keeps.after (State.freeCells_keeps ..)
          | apply Keeps.after (State.updQp_keeps ..)
          | apply Keeps.after (State.setDeadline_keeps ..)
          | fail_if_no_progress refine Keeps.mk' ?_ rfl rfl rfl rfl rfl rfl
          | apply Keeps.foldl
          | apply Keeps.foldlPair)
      | intro _
      | extract_lets
  repeat' first
    | (with_reducible first
        | assumption
        | exact .refl _
        | apply Keeps.ite
        | apply Keeps.after (State.freeCells_keeps ..)
        | apply Keeps.after (State.updQp_keeps ..)
        | apply Keeps.after (State.setDeadline_keeps ..)
        | fail_if_no_progress refine Keeps.mk' ?_ rfl rfl rfl rfl rfl rfl
        | apply Keeps.foldl
        | apply Keeps.foldlPair)
    | intro _
    | extract_lets

theorem State.rateUpdate_keeps (s : State) (q : Nat) (rtt : Int) :
    Keeps s (State.rateUpdate s q rtt) := by
  unfold State.rateUpdate
  extract_lets _ _ _ _ _ _ _ _ _ _ _ _ _ _ _ _
  repeat' first
    | (with_reducible first
        | assumption
        | exact .refl _
        | apply Keeps.ite
        | apply Keeps.after (State.setQp_keeps ..)
        | fail_if_no_progress refine Keeps.mk' ?_ rfl rfl rfl rfl rfl rfl)
    | intro _

theorem State.sample_keeps (s : State) (q p stamp : Nat) :
    Keeps s (State.sample s q p stamp) := by
  unfold State.sample
  extract_lets _
  repeat' first
    | (with_reducible first
        | assumption
        | exact .refl _
        | apply Keeps.ite
        | apply Keeps.after (State.updQp_keeps ..)
        | apply Keeps.after (State.rateUpdate_keeps ..)
        | apply Keeps.after (State.stamp_keeps ..)
        | fail_if_no_progress refine Keeps.mk' ?_ rfl rfl rfl rfl rfl rfl)
    | intro _
    | extract_lets

theorem State.cnpIn_keeps (s : State) (q : Nat) :
    Keeps s (State.cnpIn s q) := by
  unfold State.cnpIn
  extract_lets s1 _ _
  have hs1 : Keeps s s1 := by
    unfold s1
    repeat' first
      | (with_reducible first
          | assumption
          | exact .refl _
          | apply Keeps.ite
          | apply Keeps.after (State.cntRdm_keeps ..)
          | apply Keeps.after (State.setQp_keeps ..)
          | fail_if_no_progress refine Keeps.mk' ?_ rfl rfl rfl rfl rfl rfl)
      | intro _
  repeat' first
    | (with_reducible first
        | assumption
        | exact .refl _
        | apply Keeps.ite
        | apply Keeps.after (State.cntRdm_keeps ..)
        | apply Keeps.after (State.setQp_keeps ..)
        | fail_if_no_progress refine Keeps.mk' ?_ rfl rfl rfl rfl rfl rfl)
    | intro _

theorem State.ackIn_keeps (s : State) (q p stamp : Nat) :
    Keeps s (State.ackIn s q p stamp) := by
  unfold State.ackIn
  extract_lets s1
  have hs1 : Keeps s s1 := by
    unfold s1
    repeat' first
      | (with_reducible first
          | assumption
          | exact .refl _
          | apply Keeps.ite
          | apply Keeps.after (State.updQp_keeps ..)
          | apply Keeps.after (State.freeTo_keeps ..)
          | apply Keeps.after (State.sample_keeps ..)
          | apply Keeps.after (State.stamp_keeps ..)
          | fail_if_no_progress refine Keeps.mk' ?_ rfl rfl rfl rfl rfl rfl)
      | intro _
      | extract_lets
  repeat' first
    | (with_reducible first
        | assumption
        | exact .refl _
        | apply Keeps.ite
        | apply Keeps.after (State.updQp_keeps ..)
        | apply Keeps.after (State.freeTo_keeps ..)
        | apply Keeps.after (State.sample_keeps ..)
        | apply Keeps.after (State.stamp_keeps ..)
        | fail_if_no_progress refine Keeps.mk' ?_ rfl rfl rfl rfl rfl rfl)
    | intro _
    | extract_lets

theorem State.freeBefore_keeps (s : State) (q p : Nat) :
    Keeps s (State.freeBefore s q p) := by
  unfold State.freeBefore
  repeat' first
    | (with_reducible first
        | assumption
        | exact .refl _
        | apply Keeps.ite
        | apply Keeps.after (State.freeTo_keeps ..)
        | fail_if_no_progress refine Keeps.mk' ?_ rfl rfl rfl rfl rfl rfl)
    | intro _

theorem State.nakIn_keeps (s : State) (q p syn : Nat) :
    Keeps s (State.nakIn s q p syn) := by
  unfold State.nakIn
  extract_lets s1 _
  have hs1 : Keeps s s1 := by
    unfold s1
    repeat' first
      | (with_reducible first
          | assumption
          | exact .refl _
          | apply Keeps.ite
          | apply Keeps.after (State.cntRdm_keeps ..)
          | apply Keeps.after (State.setQp_keeps ..)
          | apply Keeps.after (State.updQp_keeps ..)
          | apply Keeps.after (State.qpFail_keeps ..)
          | apply Keeps.after (State.resendFrom_keeps ..)
          | apply Keeps.after (State.setDeadline_keeps ..)
          | apply Keeps.after (State.freeBefore_keeps ..)
          | fail_if_no_progress refine Keeps.mk' ?_ rfl rfl rfl rfl rfl rfl)
      | intro _
      | extract_lets
  repeat' first
    | (with_reducible first
        | assumption
        | exact .refl _
        | apply Keeps.ite
        | apply Keeps.after (State.cntRdm_keeps ..)
        | apply Keeps.after (State.setQp_keeps ..)
        | apply Keeps.after (State.updQp_keeps ..)
        | apply Keeps.after (State.qpFail_keeps ..)
        | apply Keeps.after (State.resendFrom_keeps ..)
        | apply Keeps.after (State.setDeadline_keeps ..)
        | apply Keeps.after (State.freeBefore_keeps ..)
        | fail_if_no_progress refine Keeps.mk' ?_ rfl rfl rfl rfl rfl rfl)
    | intro _
    | extract_lets

theorem State.aethIn_keeps (s : State) (q : Nat) (f : Frame) :
    Keeps s (State.aethIn s q f) := by
  unfold State.aethIn
  extract_lets _ _
  repeat' first
    | (with_reducible first
        | assumption
        | exact .refl _
        | apply Keeps.ite
        | apply Keeps.after (State.cntRdm_keeps ..)
        | apply Keeps.after (State.ackIn_keeps ..)
        | apply Keeps.after (State.nakIn_keeps ..)
        | apply Keeps.after (State.stamp_keeps ..)
        | fail_if_no_progress refine Keeps.mk' ?_ rfl rfl rfl rfl rfl rfl)
    | intro _

theorem State.payloadIn_keeps (s : State) (w : Nat) (data : List Byte) (a : Acct) (c : Nat) :
    Keeps s (State.payloadIn s w data a c) := by
  unfold State.payloadIn
  repeat' first
    | (with_reducible first
        | assumption
        | exact .refl _
        | apply Keeps.ite
        | apply Keeps.after (State.updWb_keeps ..)
        | apply Keeps.after (State.wakeWb_keeps ..)
        | apply Keeps.after (State.freeCells_keeps ..)
        | refine Keeps.trans ?_ (.pair (by assumption) (State.toHold_keeps ..))
        | apply Keeps.after (State.toHold_keeps ..)
        | fail_if_no_progress refine Keeps.mk' ?_ rfl rfl rfl rfl rfl rfl)
    | split
    | intro _
    | extract_lets

theorem State.reissueGap_keeps (s : State) (q : Nat) (e : ReadEnt) :
    Keeps s (State.reissueGap s q e) := by
  unfold State.reissueGap
  repeat' first
    | (with_reducible first
        | assumption
        | exact .refl _
        | apply Keeps.ite
        | apply Keeps.ite2
        | apply Keeps.ite1
        | apply Keeps.after (State.resend_keeps ..)
        | apply Keeps.after (State.updQp_keeps ..)
        | apply Keeps.after (State.resendSome_keeps ..)
        | fail_if_no_progress refine Keeps.mk' ?_ rfl rfl rfl rfl rfl rfl
        | apply Keeps.foldl
        | apply Keeps.foldlPair)
    | split
    | intro _
    | extract_lets
    | (dsimp +zetaDelta only; split)

theorem State.readIn_keeps (s : State) (q : Nat) (f : Frame) :
    Keeps s (State.readIn s q f).2 := by
  unfold State.readIn
  repeat' first
    | (with_reducible first
        | assumption
        | exact .refl _
        | apply Keeps.ite
        | apply Keeps.ite2
        | apply Keeps.ite1
        | apply Keeps.after (State.stamp_keeps ..)
        | apply Keeps.after (State.cntRdm_keeps ..)
        | apply Keeps.after (State.updQp_keeps ..)
        | apply Keeps.after (State.qpFail_keeps ..)
        | apply Keeps.after (State.cnp_keeps ..)
        | apply Keeps.after (State.ackIn_keeps ..)
        | apply Keeps.after (State.payloadIn_keeps ..)
        | apply Keeps.after (State.reissueGap_keeps ..)
        | fail_if_no_progress refine Keeps.mk' ?_ rfl rfl rfl rfl rfl rfl
        | apply Keeps.foldl
        | apply Keeps.foldlPair)
    | split
    | intro _
    | extract_lets
    | (dsimp +zetaDelta only; split)

theorem State.accepted_keeps (s : State) (q : Nat) (f : Frame) (read ends : Bool) :
    Keeps s (State.accepted s q f read ends) := by
  unfold State.accepted
  extract_lets s1 s2
  have hs1 : Keeps s s1 := by
    unfold s1
    repeat' first
      | (with_reducible first
          | assumption
          | exact .refl _
          | apply Keeps.ite
          | apply Keeps.after (State.updQp_keeps ..)
          | apply Keeps.after (State.qpWant_keeps ..)
          | apply Keeps.after (State.cnp_keeps ..)
          | fail_if_no_progress refine Keeps.mk' ?_ rfl rfl rfl rfl rfl rfl)
      | intro _
      | extract_lets
  have hs2 : Keeps s s2 := by
    unfold s2
    repeat' first
      | (with_reducible first
          | assumption
          | exact .refl _
          | apply Keeps.ite
          | apply Keeps.after (State.updQp_keeps ..)
          | apply Keeps.after (State.qpWant_keeps ..)
          | apply Keeps.after (State.cnp_keeps ..)
          | fail_if_no_progress refine Keeps.mk' ?_ rfl rfl rfl rfl rfl rfl)
      | intro _
      | extract_lets
  repeat' first
    | (with_reducible first
        | assumption
        | exact .refl _
        | apply Keeps.ite
        | apply Keeps.after (State.updQp_keeps ..)
        | apply Keeps.after (State.qpWant_keeps ..)
        | apply Keeps.after (State.cnp_keeps ..)
        | fail_if_no_progress refine Keeps.mk' ?_ rfl rfl rfl rfl rfl rfl)
    | intro _
    | extract_lets

theorem State.settleList_keeps (s : State) (cs : List (Acct × Nat)) :
    Keeps s (State.settleList s cs).2 := by
  unfold State.settleList
  repeat' first
    | (with_reducible first
        | assumption
        | exact .refl _
        | apply Keeps.ite
        | apply Keeps.ite2
        | apply Keeps.ite1
        | refine Keeps.trans ?_ (.pair (by assumption) (State.toHold_keeps ..))
        | apply Keeps.after (State.toHold_keeps ..)
        | fail_if_no_progress refine Keeps.mk' ?_ rfl rfl rfl rfl rfl rfl
        | apply Keeps.foldl
        | apply Keeps.foldlPair)
    | split
    | intro _
    | extract_lets

theorem State.dropRx_keeps (s : State) (q : Nat) :
    Keeps s (State.dropRx s q) := by
  unfold State.dropRx
  extract_lets _ s1
  have hs1 : Keeps s s1 := by
    unfold s1
    repeat' first
      | (with_reducible first
          | assumption
          | exact .refl _
          | apply Keeps.ite
          | apply Keeps.ite2
          | apply Keeps.ite1
          | apply Keeps.after (State.freeCells_keeps ..)
          | apply Keeps.after (State.updQp_keeps ..)
          | fail_if_no_progress refine Keeps.mk' ?_ rfl rfl rfl rfl rfl rfl
          | apply Keeps.foldl
          | apply Keeps.foldlPair)
      | intro _
      | extract_lets
  repeat' first
    | (with_reducible first
        | assumption
        | exact .refl _
        | apply Keeps.ite
        | apply Keeps.ite2
        | apply Keeps.ite1
        | apply Keeps.after (State.freeCells_keeps ..)
        | apply Keeps.after (State.updQp_keeps ..)
        | fail_if_no_progress refine Keeps.mk' ?_ rfl rfl rfl rfl rfl rfl
        | apply Keeps.foldl
        | apply Keeps.foldlPair)
    | intro _
    | extract_lets

theorem State.acceptCapsule_keeps (s t : State) (q : Nat) (bytes : List Byte) (cells : List (Acct × Nat)) (dscp stamp : Nat) (parked : Bool)
    (h : s.acceptCapsule q bytes cells dscp stamp parked = some t) : Keeps s t := by
  unfold State.acceptCapsule at h
  extract_lets sqe ch k x c _ s1 s2 s3 at h
  have h1 : Keeps s s1 := Keeps.mk' (.refl _) rfl rfl rfl rfl rfl rfl
  have h2 : Keeps s s2 := h1.trans (State.updQp_keeps ..)
  have h3 : Keeps s s3 := .ite (h2.trans (State.updCtrl_keeps ..)) h2
  split_ifs at h
  have e := Option.some.inj h
  clear h
  rw [← e]
  unfold ch
  split
  · exact h3.trans (State.chargeCap_keeps ..)
  · exact h3.trans (State.postCap_keeps ..)

theorem State.sendIn_keeps (s : State) (q : Nat) (f : Frame) (parked : Bool) :
    Keeps s (State.sendIn s q f parked).2 := by
  unfold State.sendIn
  repeat' first
    | (with_reducible first
        | assumption
        | exact .refl _
        | apply Keeps.ite
        | apply Keeps.ite2
        | apply Keeps.ite1
        | apply Keeps.after (State.stamp_keeps ..)
        | refine Keeps.trans ?_ (State.acceptCapsule_keeps _ _ _ _ _ _ _ _ (by assumption))
        | apply Keeps.after (State.cntCmd_keeps ..)
        | apply Keeps.after (State.updQp_keeps ..)
        | apply Keeps.after (State.nakFail_keeps ..)
        | apply Keeps.after (State.accepted_keeps ..)
        | refine Keeps.trans ?_ (.pair (by assumption) (State.settleList_keeps ..))
        | apply Keeps.after (State.settleList_keeps ..)
        | fail_if_no_progress refine Keeps.mk' ?_ rfl rfl rfl rfl rfl rfl
        | apply Keeps.foldl
        | apply Keeps.foldlPair)
    | split
    | intro _
    | extract_lets
    | (dsimp +zetaDelta only; split)

theorem State.requestIn_keeps (s : State) (q : Nat) (f : Frame) (parked : Bool) :
    Keeps s (State.requestIn s q f parked).2 := by
  unfold State.requestIn
  extract_lets _ _ _ _ s1
  have hs1 : Keeps s s1 := by
    unfold s1
    repeat' first
      | (with_reducible first
          | assumption
          | exact .refl _
          | apply Keeps.ite
          | apply Keeps.ite2
          | apply Keeps.after (State.updQp_keeps ..)
          | apply Keeps.after (State.nakFail_keeps ..)
          | apply Keeps.after (State.accepted_keeps ..)
          | refine Keeps.trans ?_ (.pair (by assumption) (State.sendIn_keeps ..))
          | apply Keeps.after (State.sendIn_keeps ..)
          | fail_if_no_progress refine Keeps.mk' ?_ rfl rfl rfl rfl rfl rfl)
      | intro _
      | extract_lets
  repeat' first
    | (with_reducible first
        | assumption
        | exact .refl _
        | apply Keeps.ite
        | apply Keeps.ite2
        | apply Keeps.after (State.updQp_keeps ..)
        | apply Keeps.after (State.nakFail_keeps ..)
        | apply Keeps.after (State.accepted_keeps ..)
        | refine Keeps.trans ?_ (.pair (by assumption) (State.sendIn_keeps ..))
        | apply Keeps.after (State.sendIn_keeps ..)
        | fail_if_no_progress refine Keeps.mk' ?_ rfl rfl rfl rfl rfl rfl)
    | intro _
    | extract_lets

theorem State.duplicate_keeps (s : State) (q : Nat) (f : Frame) :
    Keeps s (State.duplicate s q f) := by
  unfold State.duplicate
  extract_lets _ _ s1 s2 _
  have hs1 : Keeps s s1 := by
    unfold s1
    repeat' first
      | (with_reducible first
          | assumption
          | exact .refl _
          | apply Keeps.ite
          | apply Keeps.after (State.cntRdm_keeps ..)
          | apply Keeps.after (State.updQp_keeps ..)
          | apply Keeps.after (State.cnp_keeps ..)
          | fail_if_no_progress refine Keeps.mk' ?_ rfl rfl rfl rfl rfl rfl)
      | intro _
      | extract_lets
  have hs2 : Keeps s s2 := by
    unfold s2
    repeat' first
      | (with_reducible first
          | assumption
          | exact .refl _
          | apply Keeps.ite
          | apply Keeps.after (State.cntRdm_keeps ..)
          | apply Keeps.after (State.updQp_keeps ..)
          | apply Keeps.after (State.cnp_keeps ..)
          | fail_if_no_progress refine Keeps.mk' ?_ rfl rfl rfl rfl rfl rfl)
      | intro _
      | extract_lets
  repeat' first
    | (with_reducible first
        | assumption
        | exact .refl _
        | apply Keeps.ite
        | apply Keeps.after (State.cntRdm_keeps ..)
        | apply Keeps.after (State.updQp_keeps ..)
        | apply Keeps.after (State.cnp_keeps ..)
        | fail_if_no_progress refine Keeps.mk' ?_ rfl rfl rfl rfl rfl rfl)
    | intro _
    | extract_lets

theorem State.process_keeps (s : State) (q : Nat) (f : Frame) (parked : Bool) :
    Keeps s (State.process s q f parked) := by
  unfold State.process
  extract_lets _ _ _ _ s1 _
  have hs1 : Keeps s s1 := by
    unfold s1
    repeat' first
      | (with_reducible first
          | assumption
          | exact .refl _
          | apply Keeps.ite
          | apply Keeps.after (State.cntRdm_keeps ..)
          | apply Keeps.after (State.freeCells_keeps ..)
          | apply Keeps.after (State.updQp_keeps ..)
          | apply Keeps.after (State.useQp_keeps ..)
          | apply Keeps.after (State.sendNak_keeps ..)
          | apply Keeps.after (State.cnpIn_keeps ..)
          | apply Keeps.after (State.aethIn_keeps ..)
          | refine Keeps.trans ?_ (.pair (by assumption) (State.readIn_keeps ..))
          | apply Keeps.after (State.readIn_keeps ..)
          | refine Keeps.trans ?_ (.pair (by assumption) (State.requestIn_keeps ..))
          | apply Keeps.after (State.requestIn_keeps ..)
          | apply Keeps.after (State.duplicate_keeps ..)
          | fail_if_no_progress refine Keeps.mk' ?_ rfl rfl rfl rfl rfl rfl)
      | split
      | intro _
      | extract_lets
  repeat' first
    | (with_reducible first
        | assumption
        | exact .refl _
        | apply Keeps.ite
        | apply Keeps.after (State.cntRdm_keeps ..)
        | apply Keeps.after (State.freeCells_keeps ..)
        | apply Keeps.after (State.updQp_keeps ..)
        | apply Keeps.after (State.useQp_keeps ..)
        | apply Keeps.after (State.sendNak_keeps ..)
        | apply Keeps.after (State.cnpIn_keeps ..)
        | apply Keeps.after (State.aethIn_keeps ..)
        | refine Keeps.trans ?_ (.pair (by assumption) (State.readIn_keeps ..))
        | apply Keeps.after (State.readIn_keeps ..)
        | refine Keeps.trans ?_ (.pair (by assumption) (State.requestIn_keeps ..))
        | apply Keeps.after (State.requestIn_keeps ..)
        | apply Keeps.after (State.duplicate_keeps ..)
        | fail_if_no_progress refine Keeps.mk' ?_ rfl rfl rfl rfl rfl rfl)
    | split
    | intro _
    | extract_lets

theorem State.park_keeps (s : State) (q : Nat) (f : Frame) :
    Keeps s (State.park s q f) := by
  unfold State.park
  extract_lets _ _
  repeat' first
    | (with_reducible first
        | assumption
        | exact .refl _
        | apply Keeps.ite
        | apply Keeps.after (State.satFld_keeps ..)
        | apply Keeps.after (State.acc_keeps ..)
        | apply Keeps.after (State.takeCells_keeps ..)
        | apply Keeps.after (State.freeCells_keeps ..)
        | apply Keeps.after (State.updQp_keeps ..)
        | refine Keeps.trans ?_ (.pair (by assumption) (State.askFetch_keeps ..))
        | apply Keeps.after (State.askFetch_keeps ..)
        | fail_if_no_progress refine Keeps.mk' ?_ rfl rfl rfl rfl rfl rfl)
    | split
    | intro _
    | extract_lets

theorem State.roceIn_keeps (s : State) (f : Frame) :
    Keeps s (State.roceIn s f) := by
  unfold State.roceIn
  extract_lets v1 _ v2
  repeat' first
    | (with_reducible first
        | assumption
        | exact .refl _
        | apply Keeps.ite
        | apply Keeps.after (State.cntRdm_keeps ..)
        | apply Keeps.after (State.freeCells_keeps ..)
        | apply Keeps.after (State.process_keeps ..)
        | apply Keeps.after (State.park_keeps ..)
        | fail_if_no_progress refine Keeps.mk' ?_ rfl rfl rfl rfl rfl rfl)
    | split
    | unfold v1
    | unfold v2
    | intro _
    | extract_lets
    | (dsimp +zetaDelta only; split)

theorem State.takeRoce_keeps (s : State) (p : Nat → Nat → Bool) :
    Keeps s (State.takeRoce s p) := by
  unfold State.takeRoce
  extract_lets v1
  repeat' first
    | (with_reducible first
        | assumption
        | exact .refl _
        | apply Keeps.ite
        | apply Keeps.after (State.roceIn_keeps ..)
        | fail_if_no_progress refine Keeps.mk' ?_ rfl rfl rfl rfl rfl rfl)
    | split
    | unfold v1
    | intro _
    | extract_lets
    | (dsimp +zetaDelta only; split)

theorem execRocePacketReceive_keeps (s : State) :
    OKeeps s (execRocePacketReceive s) := by
  unfold execRocePacketReceive
  repeat' first
    | (with_reducible first
        | assumption
        | exact .refl _
        | apply OKeeps.next
        | apply OKeeps.ite
        | apply Keeps.ite
        | apply Keeps.after (State.takeRoce_keeps ..)
        | fail_if_no_progress refine Keeps.mk' ?_ rfl rfl rfl rfl rfl rfl)
    | intro _
    | extract_lets

theorem execAckReceive_keeps (s : State) :
    OKeeps s (execAckReceive s) := by
  unfold execAckReceive
  repeat' first
    | (with_reducible first
        | assumption
        | exact .refl _
        | apply OKeeps.next
        | apply OKeeps.ite
        | apply Keeps.ite
        | apply Keeps.after (State.takeRoce_keeps ..)
        | fail_if_no_progress refine Keeps.mk' ?_ rfl rfl rfl rfl rfl rfl)
    | intro _
    | extract_lets

theorem execNakReceive_keeps (s : State) :
    OKeeps s (execNakReceive s) := by
  unfold execNakReceive
  repeat' first
    | (with_reducible first
        | assumption
        | exact .refl _
        | apply OKeeps.next
        | apply OKeeps.ite
        | apply Keeps.ite
        | apply Keeps.after (State.takeRoce_keeps ..)
        | fail_if_no_progress refine Keeps.mk' ?_ rfl rfl rfl rfl rfl rfl)
    | intro _
    | extract_lets

theorem execReadResponseReceive_keeps (s : State) :
    OKeeps s (execReadResponseReceive s) := by
  unfold execReadResponseReceive
  repeat' first
    | (with_reducible first
        | assumption
        | exact .refl _
        | apply OKeeps.next
        | apply OKeeps.ite
        | apply Keeps.ite
        | apply Keeps.after (State.takeRoce_keeps ..)
        | fail_if_no_progress refine Keeps.mk' ?_ rfl rfl rfl rfl rfl rfl)
    | intro _
    | extract_lets

theorem execCnpReceive_keeps (s : State) :
    OKeeps s (execCnpReceive s) := by
  unfold execCnpReceive
  repeat' first
    | (with_reducible first
        | assumption
        | exact .refl _
        | apply OKeeps.next
        | apply OKeeps.ite
        | apply Keeps.ite
        | apply Keeps.after (State.takeRoce_keeps ..)
        | fail_if_no_progress refine Keeps.mk' ?_ rfl rfl rfl rfl rfl rfl)
    | intro _
    | extract_lets

theorem State.armMsg_keeps (s : State) (q : Nat) (m : Msg) :
    Keeps s (State.armMsg s q m) := by
  unfold State.armMsg
  repeat' first
    | (with_reducible first
        | assumption
        | exact .refl _
        | apply Keeps.ite
        | apply Keeps.ite2
        | apply Keeps.ite1
        | apply Keeps.after (State.updQp_keeps ..)
        | apply Keeps.after (State.askEgress_keeps ..)
        | fail_if_no_progress refine Keeps.mk' ?_ rfl rfl rfl rfl rfl rfl
        | apply Keeps.foldl
        | apply Keeps.foldlPair)
    | split
    | intro _
    | extract_lets
    | (dsimp +zetaDelta only; split)

theorem State.releaseOne_keeps (s : State) (q stamp : Nat) :
    Keeps s (State.releaseOne s q stamp) := by
  unfold State.releaseOne
  extract_lets v1 v2
  repeat' first
    | (with_reducible first
        | assumption
        | exact .refl _
        | apply Keeps.ite
        | apply Keeps.after (State.digest_keeps ..)
        | apply Keeps.after (State.takeCells_keeps ..)
        | apply Keeps.after (State.setQp_keeps ..)
        | apply Keeps.after (State.useQp_keeps ..)
        | apply Keeps.after (State.sendHeld_keeps ..)
        | apply Keeps.after (State.stamp_keeps ..)
        | fail_if_no_progress refine Keeps.mk' ?_ rfl rfl rfl rfl rfl rfl)
    | split
    | unfold v1
    | unfold v2
    | intro _
    | extract_lets
    | (dsimp +zetaDelta only; split)

theorem State.releaseMany_keeps (q stamp : Nat) (n : Nat) (s : State) : Keeps s (State.releaseMany q stamp n s) := by
  induction n generalizing s with
  | zero => exact .refl _
  | succ n ih =>
    unfold State.releaseMany
    repeat' first
      | (with_reducible first
          | exact .refl _
          | apply Keeps.ite
          | apply Keeps.after (ih ..)
          | apply Keeps.after (State.releaseOne_keeps ..)
          | apply Keeps.after (State.resendSome_keeps ..)
          | apply Keeps.after (State.stamp_keeps ..)
          | fail_if_no_progress refine Keeps.mk' ?_ rfl rfl rfl rfl rfl rfl
          | apply Keeps.foldl)
      | split
      | extract_lets
      | intro _

theorem execTransmissionRelease_keeps (q : Fin 1048576) (cycle : Fin 2048) (s : State) :
    OKeeps s (execTransmissionRelease q cycle s) := by
  unfold execTransmissionRelease
  repeat' first
    | (with_reducible first
        | assumption
        | exact .refl _
        | apply OKeeps.next
        | apply OKeeps.ite
        | apply Keeps.ite
        | apply Keeps.ite2
        | apply Keeps.ite1
        | apply Keeps.after (State.fetch_keeps ..)
        | apply Keeps.after (State.askEgress_keeps ..)
        | apply Keeps.after (State.resendSome_keeps ..)
        | apply Keeps.after (State.releaseOne_keeps ..)
        | fail_if_no_progress refine Keeps.mk' ?_ rfl rfl rfl rfl rfl rfl
        | apply Keeps.foldl
        | apply Keeps.foldlPair)
    | split
    | intro _
    | extract_lets
    | (dsimp +zetaDelta only; split)

theorem State.penRelease_keeps (s : State) (q : Nat) :
    Keeps s (State.penRelease s q) := by
  unfold State.penRelease
  repeat' first
    | (with_reducible first
        | assumption
        | exact .refl _
        | apply Keeps.ite
        | apply Keeps.ite2
        | apply Keeps.ite1
        | apply Keeps.after (State.cntRdm_keeps ..)
        | apply Keeps.after (State.freeCells_keeps ..)
        | apply Keeps.after (State.updQp_keeps ..)
        | apply Keeps.after (State.process_keeps ..)
        | fail_if_no_progress refine Keeps.mk' ?_ rfl rfl rfl rfl rfl rfl
        | apply Keeps.foldl
        | apply Keeps.foldlPair)
    | split
    | intro _
    | extract_lets
    | (dsimp +zetaDelta only; split)

theorem State.contextFetched_keeps (s : State) (q : Nat) :
    Keeps s (State.contextFetched s q) := by
  unfold State.contextFetched
  repeat' first
    | (with_reducible first
        | assumption
        | exact .refl _
        | apply Keeps.ite
        | apply Keeps.after (State.fetchDone_keeps ..)
        | apply Keeps.after (State.penRelease_keeps ..)
        | fail_if_no_progress refine Keeps.mk' ?_ rfl rfl rfl rfl rfl rfl)
    | intro _

theorem execContextFetchComplete_keeps (q : Fin 1048576) (s : State) :
    OKeeps s (execContextFetchComplete q s) := by
  unfold execContextFetchComplete
  repeat' first
    | (with_reducible first
        | assumption
        | exact .refl _
        | apply OKeeps.next
        | apply OKeeps.ite
        | apply Keeps.ite
        | apply Keeps.after (State.contextFetched_keeps ..)
        | fail_if_no_progress refine Keeps.mk' ?_ rfl rfl rfl rfl rfl rfl)
    | intro _

theorem State.egressFetched_keeps (s : State) (q stamp : Nat) :
    Keeps s (State.egressFetched s q stamp) := by
  unfold State.egressFetched
  repeat' first
    | (with_reducible first
        | assumption
        | exact .refl _
        | apply Keeps.ite
        | apply Keeps.after (State.fetchDone_keeps ..)
        | apply Keeps.after (State.releaseMany_keeps ..)
        | apply Keeps.after (State.penRelease_keeps ..)
        | apply Keeps.after (State.stamp_keeps ..)
        | fail_if_no_progress refine Keeps.mk' ?_ rfl rfl rfl rfl rfl rfl)
    | intro _

theorem execEgressFetchRelease_keeps (q : Fin 1048576) (cycle : Fin 2048) (s : State) :
    OKeeps s (execEgressFetchRelease q cycle s) := by
  unfold execEgressFetchRelease
  repeat' first
    | (with_reducible first
        | assumption
        | exact .refl _
        | apply OKeeps.next
        | apply OKeeps.ite
        | apply Keeps.ite
        | apply Keeps.after (State.egressFetched_keeps ..)
        | fail_if_no_progress refine Keeps.mk' ?_ rfl rfl rfl rfl rfl rfl)
    | intro _

theorem State.ackExpired_keeps (s : State) (q : Nat) :
    Keeps s (State.ackExpired s q) := by
  unfold State.ackExpired
  extract_lets s1 _ _ _ s2
  have hs1 : Keeps s s1 := by
    unfold s1
    repeat' first
      | (with_reducible first
          | assumption
          | exact .refl _
          | apply Keeps.ite
          | apply Keeps.after (State.cntRdm_keeps ..)
          | apply Keeps.after (State.setQp_keeps ..)
          | apply Keeps.after (State.updQp_keeps ..)
          | apply Keeps.after (State.qpFail_keeps ..)
          | apply Keeps.after (State.resendFrom_keeps ..)
          | apply Keeps.after (State.setDeadline_keeps ..)
          | fail_if_no_progress refine Keeps.mk' ?_ rfl rfl rfl rfl rfl rfl)
      | intro _
      | extract_lets
  have hs2 : Keeps s s2 := by
    unfold s2
    repeat' first
      | (with_reducible first
          | assumption
          | exact .refl _
          | apply Keeps.ite
          | apply Keeps.after (State.cntRdm_keeps ..)
          | apply Keeps.after (State.setQp_keeps ..)
          | apply Keeps.after (State.updQp_keeps ..)
          | apply Keeps.after (State.qpFail_keeps ..)
          | apply Keeps.after (State.resendFrom_keeps ..)
          | apply Keeps.after (State.setDeadline_keeps ..)
          | fail_if_no_progress refine Keeps.mk' ?_ rfl rfl rfl rfl rfl rfl)
      | intro _
      | extract_lets
  repeat' first
    | (with_reducible first
        | assumption
        | exact .refl _
        | apply Keeps.ite
        | apply Keeps.after (State.cntRdm_keeps ..)
        | apply Keeps.after (State.setQp_keeps ..)
        | apply Keeps.after (State.updQp_keeps ..)
        | apply Keeps.after (State.qpFail_keeps ..)
        | apply Keeps.after (State.resendFrom_keeps ..)
        | apply Keeps.after (State.setDeadline_keeps ..)
        | fail_if_no_progress refine Keeps.mk' ?_ rfl rfl rfl rfl rfl rfl)
    | intro _
    | extract_lets

theorem State.rnrEnds_keeps (s : State) (q : Nat) :
    Keeps s (State.rnrEnds s q) := by
  unfold State.rnrEnds
  extract_lets _
  repeat' first
    | (with_reducible first
        | assumption
        | exact .refl _
        | apply Keeps.ite
        | apply Keeps.after (State.setQp_keeps ..)
        | apply Keeps.after (State.resendFrom_keeps ..)
        | apply Keeps.after (State.setDeadline_keeps ..)
        | fail_if_no_progress refine Keeps.mk' ?_ rfl rfl rfl rfl rfl rfl)
    | intro _

theorem State.deadline_keeps (s : State) (q : Nat) (due : Bool) (act : State → State) (hact : ∀ x, Keeps x (act x)) :
    Keeps s (State.deadline s q due act) := by
  unfold State.deadline
  repeat' first
    | (with_reducible first
        | assumption
        | exact .refl _
        | apply Keeps.ite
        | apply Keeps.ite2
        | apply Keeps.ite1
        | apply Keeps.after (hact ..)
        | apply Keeps.after (State.askTimer_keeps ..)
        | fail_if_no_progress refine Keeps.mk' ?_ rfl rfl rfl rfl rfl rfl
        | apply Keeps.foldl
        | apply Keeps.foldlPair)
    | split
    | intro _
    | extract_lets
    | (dsimp +zetaDelta only; split)

theorem execAckTimeout_keeps (q : Fin 1048576) (s : State) :
    OKeeps s (execAckTimeout q s) := by
  unfold execAckTimeout
  repeat' first
    | (with_reducible first
        | assumption
        | exact .refl _
        | apply OKeeps.next
        | apply OKeeps.ite
        | apply Keeps.ite
        | apply Keeps.after (State.ackExpired_keeps ..)
        | apply Keeps.after (State.deadline_keeps (hact := ?_) ..)
        | fail_if_no_progress refine Keeps.mk' ?_ rfl rfl rfl rfl rfl rfl)
    | intro _
    | extract_lets

theorem execRnrResume_keeps (q : Fin 1048576) (s : State) :
    OKeeps s (execRnrResume q s) := by
  unfold execRnrResume
  repeat' first
    | (with_reducible first
        | assumption
        | exact .refl _
        | apply OKeeps.next
        | apply OKeeps.ite
        | apply Keeps.ite
        | apply Keeps.after (State.rnrEnds_keeps ..)
        | apply Keeps.after (State.deadline_keeps (hact := ?_) ..)
        | fail_if_no_progress refine Keeps.mk' ?_ rfl rfl rfl rfl rfl rfl)
    | intro _
    | extract_lets

theorem State.deadlines_keeps (s : State) (q : Nat) :
    Keeps s (State.deadlines s q) := by
  unfold State.deadlines
  extract_lets s1
  have hs1 : Keeps s s1 := by
    unfold s1
    repeat' first
      | (with_reducible first
          | assumption
          | exact .refl _
          | apply Keeps.ite
          | apply Keeps.after (State.ackExpired_keeps ..)
          | apply Keeps.after (State.rnrEnds_keeps ..)
          | apply Keeps.after (State.deadline_keeps (hact := ?_) ..)
          | fail_if_no_progress refine Keeps.mk' ?_ rfl rfl rfl rfl rfl rfl)
      | intro _
      | extract_lets
  repeat' first
    | (with_reducible first
        | assumption
        | exact .refl _
        | apply Keeps.ite
        | apply Keeps.after (State.ackExpired_keeps ..)
        | apply Keeps.after (State.rnrEnds_keeps ..)
        | apply Keeps.after (State.deadline_keeps (hact := ?_) ..)
        | fail_if_no_progress refine Keeps.mk' ?_ rfl rfl rfl rfl rfl rfl)
    | intro _
    | extract_lets

theorem State.timerFetched_keeps (s : State) (q : Nat) :
    Keeps s (State.timerFetched s q) := by
  unfold State.timerFetched
  repeat' first
    | (with_reducible first
        | assumption
        | exact .refl _
        | apply Keeps.ite
        | apply Keeps.ite2
        | apply Keeps.ite1
        | apply Keeps.after (State.updQp_keeps ..)
        | apply Keeps.after (State.fetchDone_keeps ..)
        | apply Keeps.after (State.penRelease_keeps ..)
        | apply Keeps.after (State.deadlines_keeps ..)
        | fail_if_no_progress refine Keeps.mk' ?_ rfl rfl rfl rfl rfl rfl
        | apply Keeps.foldl
        | apply Keeps.foldlPair)
    | split
    | intro _
    | extract_lets
    | (dsimp +zetaDelta only; split)

theorem execTimerFetchComplete_keeps (q : Fin 1048576) (s : State) :
    OKeeps s (execTimerFetchComplete q s) := by
  unfold execTimerFetchComplete
  repeat' first
    | (with_reducible first
        | assumption
        | exact .refl _
        | apply OKeeps.next
        | apply OKeeps.ite
        | apply Keeps.ite
        | apply Keeps.after (State.timerFetched_keeps ..)
        | fail_if_no_progress refine Keeps.mk' ?_ rfl rfl rfl rfl rfl rfl)
    | intro _

theorem State.cmPut_keeps (s : State) (m e : Nat) (rmac rip : List Byte) (rqpn : Nat) (msg : CmMsg) :
    Keeps s (State.cmPut s m e rmac rip rqpn msg) := by
  unfold State.cmPut
  repeat' first
    | (with_reducible first
        | assumption
        | exact .refl _
        | apply Keeps.ite
        | apply Keeps.ite2
        | apply Keeps.ite1
        | apply Keeps.after (State.sendMgtOf_keeps ..)
        | fail_if_no_progress refine Keeps.mk' ?_ rfl rfl rfl rfl rfl rfl
        | apply Keeps.foldl
        | apply Keeps.foldlPair)
    | split
    | intro _
    | extract_lets
    | (dsimp +zetaDelta only; split)

theorem State.cmSend_keeps (s : State) (q : Nat) (msg : CmMsg) :
    Keeps s (State.cmSend s q msg) := by
  unfold State.cmSend
  repeat' first
    | (with_reducible first
        | assumption
        | exact .refl _
        | apply Keeps.ite
        | apply Keeps.ite2
        | apply Keeps.ite1
        | apply Keeps.after (State.entry_keeps ..)
        | apply Keeps.after (State.cmPut_keeps ..)
        | fail_if_no_progress refine Keeps.mk' ?_ rfl rfl rfl rfl rfl rfl
        | apply Keeps.foldl
        | apply Keeps.foldlPair)
    | split
    | intro _
    | extract_lets
    | (dsimp +zetaDelta only; split)

theorem State.sendRep_keeps (s : State) (q : Nat) :
    Keeps s (State.sendRep s q) := by
  unfold State.sendRep
  extract_lets _
  repeat' first
    | (with_reducible first
        | assumption
        | exact .refl _
        | apply Keeps.ite
        | apply Keeps.after (State.updQp_keeps ..)
        | apply Keeps.after (State.cmSend_keeps ..)
        | fail_if_no_progress refine Keeps.mk' ?_ rfl rfl rfl rfl rfl rfl)
    | intro _
    | extract_lets

theorem State.sendDreq_keeps (s : State) (q : Nat) :
    Keeps s (State.sendDreq s q) := by
  unfold State.sendDreq
  repeat' first
    | (with_reducible first
        | assumption
        | exact .refl _
        | apply Keeps.ite
        | apply Keeps.after (State.updQp_keeps ..)
        | apply Keeps.after (State.cmSend_keeps ..)
        | fail_if_no_progress refine Keeps.mk' ?_ rfl rfl rfl rfl rfl rfl)
    | intro _
    | extract_lets

theorem State.cmReject_keeps (s : State) (f : Frame) (rqpn order : Nat) (why : RejReason) (status : Nat) :
    Keeps s (State.cmReject s f rqpn order why status) := by
  unfold State.cmReject
  repeat' first
    | (with_reducible first
        | assumption
        | exact .refl _
        | apply Keeps.ite
        | apply Keeps.ite2
        | apply Keeps.ite1
        | apply Keeps.after (State.entry_keeps ..)
        | apply Keeps.after (State.raise_keeps ..)
        | apply Keeps.after (State.cmPut_keeps ..)
        | fail_if_no_progress refine Keeps.mk' ?_ rfl rfl rfl rfl rfl rfl
        | apply Keeps.foldl
        | apply Keeps.foldlPair)
    | split
    | intro _
    | extract_lets
    | (dsimp +zetaDelta only; split)

theorem State.buildQp_keeps (s : State) (r : CmReq) (f : Frame) (q e : Nat) :
    Keeps s (State.buildQp s r f q e) := by
  unfold State.buildQp
  extract_lets _ s1 _ _
  have hs1 : Keeps s s1 := by
    unfold s1
    repeat' first
      | (with_reducible first
          | assumption
          | exact .refl _
          | apply Keeps.ite
          | apply Keeps.after (State.entry_keeps ..)
          | refine Keeps.trans ?_ (.pair (by assumption) (State.drawShared_keeps ..))
          | apply Keeps.after (State.drawShared_keeps ..)
          | apply Keeps.after (State.setQp_keeps ..)
          | fail_if_no_progress refine Keeps.mk' ?_ rfl rfl rfl rfl rfl rfl)
      | split
      | intro _
  repeat' first
    | (with_reducible first
        | assumption
        | exact .refl _
        | apply Keeps.ite
        | apply Keeps.after (State.entry_keeps ..)
        | refine Keeps.trans ?_ (.pair (by assumption) (State.drawShared_keeps ..))
        | apply Keeps.after (State.drawShared_keeps ..)
        | apply Keeps.after (State.setQp_keeps ..)
        | fail_if_no_progress refine Keeps.mk' ?_ rfl rfl rfl rfl rfl rfl)
    | split
    | intro _

theorem State.cmReq_keeps (s : State) (r : CmReq) (f : Frame) :
    Keeps s (State.cmReq s r f) := by
  unfold State.cmReq
  repeat' first
    | (with_reducible first
        | assumption
        | exact .refl _
        | apply Keeps.ite
        | apply Keeps.ite2
        | apply Keeps.ite1
        | apply Keeps.after (State.cmSend_keeps ..)
        | apply Keeps.after (State.cmReject_keeps ..)
        | apply Keeps.after (State.buildQp_keeps ..)
        | fail_if_no_progress refine Keeps.mk' ?_ rfl rfl rfl rfl rfl rfl
        | apply Keeps.foldl
        | apply Keeps.foldlPair)
    | split
    | intro _
    | extract_lets
    | (dsimp +zetaDelta only; split)

theorem State.takeCm_keeps (s : State) (k : Frame → State → State) (hk : ∀ a0 x, Keeps x (k a0 x)) :
    Keeps s (State.takeCm s k) := by
  unfold State.takeCm
  extract_lets v1
  repeat' first
    | (with_reducible first
        | assumption
        | exact .refl _
        | apply Keeps.ite
        | apply Keeps.after (hk ..)
        | fail_if_no_progress refine Keeps.mk' ?_ rfl rfl rfl rfl rfl rfl)
    | split
    | unfold v1
    | intro _
    | extract_lets
    | (dsimp +zetaDelta only; split)

theorem State.withCm_keeps (s : State) (rep : Replica) (k : Frame → State → State) (hk : ∀ a0 x, Keeps x (k a0 x)) :
    Keeps s (State.withCm s rep k) := by
  unfold State.withCm
  repeat' first
    | (with_reducible first
        | assumption
        | exact .refl _
        | apply Keeps.ite
        | apply Keeps.after (State.replicate_keeps ..)
        | apply Keeps.after (State.takeCm_keeps (hk := ?_) ..)
        | apply Keeps.after (hk ..)
        | fail_if_no_progress refine Keeps.mk' ?_ rfl rfl rfl rfl rfl rfl)
    | intro _

theorem execCmReq_keeps (r : CmReq) (s : State) :
    OKeeps s (execCmReq r s) := by
  unfold execCmReq
  repeat' first
    | (with_reducible first
        | assumption
        | exact .refl _
        | apply OKeeps.next
        | apply OKeeps.ite
        | apply Keeps.ite
        | apply Keeps.after (State.cmReq_keeps ..)
        | apply Keeps.after (State.withCm_keeps (hk := ?_) ..)
        | fail_if_no_progress refine Keeps.mk' ?_ rfl rfl rfl rfl rfl rfl)
    | intro _
    | extract_lets

theorem State.repResend_keeps (s : State) (q : Nat) :
    Keeps s (State.repResend s q) := by
  unfold State.repResend
  extract_lets _
  repeat' first
    | (with_reducible first
        | assumption
        | exact .refl _
        | apply Keeps.ite
        | apply Keeps.after (State.qpWant_keeps ..)
        | apply Keeps.after (State.cmSend_keeps ..)
        | apply Keeps.after (State.sendRep_keeps ..)
        | fail_if_no_progress refine Keeps.mk' ?_ rfl rfl rfl rfl rfl rfl)
    | intro _

theorem execRepResend_keeps (q : Fin 1048576) (s : State) :
    OKeeps s (execRepResend q s) := by
  unfold execRepResend
  repeat' first
    | (with_reducible first
        | assumption
        | exact .refl _
        | apply OKeeps.next
        | apply OKeeps.ite
        | apply Keeps.ite
        | apply Keeps.after (State.repResend_keeps ..)
        | fail_if_no_progress refine Keeps.mk' ?_ rfl rfl rfl rfl rfl rfl)
    | intro _

theorem State.rtuIn_keeps (s : State) (q : Nat) :
    Keeps s (State.rtuIn s q) := by
  unfold State.rtuIn
  repeat' first
    | (with_reducible first
        | assumption
        | exact .refl _
        | apply Keeps.ite
        | apply Keeps.after (State.qpWant_keeps ..)
        | fail_if_no_progress refine Keeps.mk' ?_ rfl rfl rfl rfl rfl rfl)
    | intro _

theorem execCmRtu_keeps (q : Fin 1048576) (s : State) :
    OKeeps s (execCmRtu q s) := by
  unfold execCmRtu
  repeat' first
    | (with_reducible first
        | assumption
        | exact .refl _
        | apply OKeeps.next
        | apply OKeeps.ite
        | apply Keeps.ite
        | apply Keeps.after (State.withCm_keeps (hk := ?_) ..)
        | apply Keeps.after (State.rtuIn_keeps ..)
        | fail_if_no_progress refine Keeps.mk' ?_ rfl rfl rfl rfl rfl rfl)
    | intro _
    | extract_lets

theorem State.dreqIn_keeps (s : State) (q : Nat) :
    Keeps s (State.dreqIn s q) := by
  unfold State.dreqIn
  extract_lets _ s1
  have hs1 : Keeps s s1 := by
    unfold s1
    repeat' first
      | (with_reducible first
          | assumption
          | exact .refl _
          | apply Keeps.ite
          | apply Keeps.after (State.updQp_keeps ..)
          | apply Keeps.after (State.qpWant_keeps ..)
          | apply Keeps.after (State.qpFail_keeps ..)
          | apply Keeps.after (State.cmSend_keeps ..)
          | fail_if_no_progress refine Keeps.mk' ?_ rfl rfl rfl rfl rfl rfl)
      | intro _
      | extract_lets
  repeat' first
    | (with_reducible first
        | assumption
        | exact .refl _
        | apply Keeps.ite
        | apply Keeps.after (State.updQp_keeps ..)
        | apply Keeps.after (State.qpWant_keeps ..)
        | apply Keeps.after (State.qpFail_keeps ..)
        | apply Keeps.after (State.cmSend_keeps ..)
        | fail_if_no_progress refine Keeps.mk' ?_ rfl rfl rfl rfl rfl rfl)
    | intro _
    | extract_lets

theorem execCmDreq_keeps (q : Fin 1048576) (s : State) :
    OKeeps s (execCmDreq q s) := by
  unfold execCmDreq
  repeat' first
    | (with_reducible first
        | assumption
        | exact .refl _
        | apply OKeeps.next
        | apply OKeeps.ite
        | apply Keeps.ite
        | apply Keeps.after (State.withCm_keeps (hk := ?_) ..)
        | apply Keeps.after (State.dreqIn_keeps ..)
        | fail_if_no_progress refine Keeps.mk' ?_ rfl rfl rfl rfl rfl rfl)
    | intro _
    | extract_lets

theorem State.drepIn_keeps (s : State) (q : Nat) :
    Keeps s (State.drepIn s q) := by
  unfold State.drepIn
  repeat' first
    | (with_reducible first
        | assumption
        | exact .refl _
        | apply Keeps.ite
        | apply Keeps.after (State.qpWant_keeps ..)
        | fail_if_no_progress refine Keeps.mk' ?_ rfl rfl rfl rfl rfl rfl)
    | intro _

theorem execCmDrep_keeps (q : Fin 1048576) (s : State) :
    OKeeps s (execCmDrep q s) := by
  unfold execCmDrep
  repeat' first
    | (with_reducible first
        | assumption
        | exact .refl _
        | apply OKeeps.next
        | apply OKeeps.ite
        | apply Keeps.ite
        | apply Keeps.after (State.withCm_keeps (hk := ?_) ..)
        | apply Keeps.after (State.drepIn_keeps ..)
        | fail_if_no_progress refine Keeps.mk' ?_ rfl rfl rfl rfl rfl rfl)
    | intro _
    | extract_lets

theorem State.dreqResend_keeps (s : State) (q : Nat) :
    Keeps s (State.dreqResend s q) := by
  unfold State.dreqResend
  extract_lets _
  repeat' first
    | (with_reducible first
        | assumption
        | exact .refl _
        | apply Keeps.ite
        | apply Keeps.after (State.qpWant_keeps ..)
        | apply Keeps.after (State.sendDreq_keeps ..)
        | fail_if_no_progress refine Keeps.mk' ?_ rfl rfl rfl rfl rfl rfl)
    | intro _

theorem execDreqResend_keeps (q : Fin 1048576) (s : State) :
    OKeeps s (execDreqResend q s) := by
  unfold execDreqResend
  repeat' first
    | (with_reducible first
        | assumption
        | exact .refl _
        | apply OKeeps.next
        | apply OKeeps.ite
        | apply Keeps.ite
        | apply Keeps.after (State.dreqResend_keeps ..)
        | fail_if_no_progress refine Keeps.mk' ?_ rfl rfl rfl rfl rfl rfl)
    | intro _

theorem State.drained_keeps (s : State) (q : Nat) :
    Keeps s (State.drained s q) := by
  unfold State.drained
  extract_lets _
  repeat' first
    | (with_reducible first
        | assumption
        | exact .refl _
        | apply Keeps.ite
        | apply Keeps.after (State.qpWant_keeps ..)
        | fail_if_no_progress refine Keeps.mk' ?_ rfl rfl rfl rfl rfl rfl)
    | intro _

theorem execQpDrained_keeps (q : Fin 1048576) (s : State) :
    OKeeps s (execQpDrained q s) := by
  unfold execQpDrained
  repeat' first
    | (with_reducible first
        | assumption
        | exact .refl _
        | apply OKeeps.next
        | apply OKeeps.ite
        | apply Keeps.ite
        | apply Keeps.after (State.drained_keeps ..)
        | fail_if_no_progress refine Keeps.mk' ?_ rfl rfl rfl rfl rfl rfl)
    | intro _

theorem State.drainExpired_keeps (s : State) (q : Nat) :
    Keeps s (State.drainExpired s q) := by
  unfold State.drainExpired
  extract_lets _
  repeat' first
    | (with_reducible first
        | assumption
        | exact .refl _
        | apply Keeps.ite
        | apply Keeps.after (State.qpFail_keeps ..)
        | fail_if_no_progress refine Keeps.mk' ?_ rfl rfl rfl rfl rfl rfl)
    | intro _

theorem execDrainTimeout_keeps (q : Fin 1048576) (s : State) :
    OKeeps s (execDrainTimeout q s) := by
  unfold execDrainTimeout
  repeat' first
    | (with_reducible first
        | assumption
        | exact .refl _
        | apply OKeeps.next
        | apply OKeeps.ite
        | apply Keeps.ite
        | apply Keeps.after (State.drainExpired_keeps ..)
        | fail_if_no_progress refine Keeps.mk' ?_ rfl rfl rfl rfl rfl rfl)
    | intro _

theorem State.errCleared_keeps (s : State) (q : Nat) :
    Keeps s (State.errCleared s q) := by
  unfold State.errCleared
  extract_lets _
  repeat' first
    | (with_reducible first
        | assumption
        | exact .refl _
        | apply Keeps.ite
        | apply Keeps.after (State.qpWant_keeps ..)
        | fail_if_no_progress refine Keeps.mk' ?_ rfl rfl rfl rfl rfl rfl)
    | intro _

theorem execQpErrCleared_keeps (q : Fin 1048576) (s : State) :
    OKeeps s (execQpErrCleared q s) := by
  unfold execQpErrCleared
  repeat' first
    | (with_reducible first
        | assumption
        | exact .refl _
        | apply OKeeps.next
        | apply OKeeps.ite
        | apply Keeps.ite
        | apply Keeps.after (State.errCleared_keeps ..)
        | fail_if_no_progress refine Keeps.mk' ?_ rfl rfl rfl rfl rfl rfl)
    | intro _

theorem State.timewaitEnds_keeps (s : State) (q : Nat) :
    Keeps s (State.timewaitEnds s q) := by
  unfold State.timewaitEnds
  extract_lets _
  repeat' first
    | (with_reducible first
        | assumption
        | exact .refl _
        | apply Keeps.ite
        | apply Keeps.after (State.qpWant_keeps ..)
        | fail_if_no_progress refine Keeps.mk' ?_ rfl rfl rfl rfl rfl rfl)
    | intro _

theorem execTimewaitExpire_keeps (q : Fin 1048576) (s : State) :
    OKeeps s (execTimewaitExpire q s) := by
  unfold execTimewaitExpire
  repeat' first
    | (with_reducible first
        | assumption
        | exact .refl _
        | apply OKeeps.next
        | apply OKeeps.ite
        | apply Keeps.ite
        | apply Keeps.after (State.timewaitEnds_keeps ..)
        | fail_if_no_progress refine Keeps.mk' ?_ rfl rfl rfl rfl rfl rfl)
    | intro _

theorem State.qpEnd_keeps (s : State) (q mode : Nat) :
    Keeps s (State.qpEnd s q mode) := by
  unfold State.qpEnd
  extract_lets _
  repeat' first
    | (with_reducible first
        | assumption
        | exact .refl _
        | apply Keeps.ite
        | apply Keeps.after (State.qpWant_keeps ..)
        | apply Keeps.after (State.qpFail_keeps ..)
        | apply Keeps.after (State.cmSend_keeps ..)
        | fail_if_no_progress refine Keeps.mk' ?_ rfl rfl rfl rfl rfl rfl)
    | intro _

theorem qpDestroy_keeps (d : Desc) (s : State) :
    Keeps s (qpDestroy d s) := by
  unfold qpDestroy
  extract_lets _ _ _ _
  repeat' first
    | (with_reducible first
        | assumption
        | exact .refl _
        | apply Keeps.ite
        | apply Keeps.after (State.checked_keeps (hok := ?_) ..)
        | apply Keeps.after (State.updQp_keeps ..)
        | apply Keeps.after (State.qpEnd_keeps ..)
        | fail_if_no_progress refine Keeps.mk' ?_ rfl rfl rfl rfl rfl rfl)
    | intro _
    | extract_lets

theorem execQpDestroy_keeps (s : State) :
    OKeeps s (execQpDestroy s) := by
  unfold execQpDestroy
  repeat' first
    | (with_reducible first
        | assumption
        | exact .refl _
        | apply OKeeps.next
        | apply OKeeps.ite
        | apply Keeps.ite
        | apply Keeps.after (State.ringCmd_keeps (hbody := ?_) ..)
        | apply Keeps.after (qpDestroy_keeps ..)
        | fail_if_no_progress refine Keeps.mk' ?_ rfl rfl rfl rfl rfl rfl)
    | intro _

theorem State.flushPen_keeps (s : State) (q n : Nat) :
    Keeps s (State.flushPen s q n) := by
  unfold State.flushPen
  extract_lets _
  repeat' first
    | (with_reducible first
        | assumption
        | exact .refl _
        | apply Keeps.ite
        | apply Keeps.after (State.cntRdm_keeps ..)
        | apply Keeps.after (State.freeCells_keeps ..)
        | apply Keeps.after (State.updQp_keeps ..)
        | fail_if_no_progress refine Keeps.mk' ?_ rfl rfl rfl rfl rfl rfl
        | apply Keeps.foldl
        | apply Keeps.foldlPair)
    | intro _
    | extract_lets

theorem State.flushTx_keeps (s : State) (q : Nat) :
    Keeps s (State.flushTx s q) := by
  unfold State.flushTx
  extract_lets _ s1
  have hs1 : Keeps s s1 := by
    unfold s1
    repeat' first
      | (with_reducible first
          | assumption
          | exact .refl _
          | apply Keeps.ite
          | apply Keeps.after (State.freeCells_keeps ..)
          | apply Keeps.after (State.updQp_keeps ..)
          | apply Keeps.after (State.dropRx_keeps ..)
          | fail_if_no_progress refine Keeps.mk' ?_ rfl rfl rfl rfl rfl rfl
          | apply Keeps.foldl
          | apply Keeps.foldlPair)
      | intro _
      | extract_lets
  repeat' first
    | (with_reducible first
        | assumption
        | exact .refl _
        | apply Keeps.ite
        | apply Keeps.after (State.freeCells_keeps ..)
        | apply Keeps.after (State.updQp_keeps ..)
        | apply Keeps.after (State.dropRx_keeps ..)
        | fail_if_no_progress refine Keeps.mk' ?_ rfl rfl rfl rfl rfl rfl
        | apply Keeps.foldl
        | apply Keeps.foldlPair)
    | intro _
    | extract_lets

theorem State.enterErr_keeps (s : State) (q c : Nat) :
    Keeps s (State.enterErr s q c) := by
  unfold State.enterErr
  extract_lets _ _ s1 s2
  have hs1 : Keeps s s1 := by
    unfold s1
    repeat' first
      | (with_reducible first
          | assumption
          | exact .refl _
          | apply Keeps.ite
          | apply Keeps.after (State.raise_keeps ..)
          | apply Keeps.after (State.updQp_keeps ..)
          | apply Keeps.after (State.flushPen_keeps ..)
          | apply Keeps.after (State.flushTx_keeps ..)
          | fail_if_no_progress refine Keeps.mk' ?_ rfl rfl rfl rfl rfl rfl)
      | intro _
      | extract_lets
  have hs2 : Keeps s s2 := by
    unfold s2
    repeat' first
      | (with_reducible first
          | assumption
          | exact .refl _
          | apply Keeps.ite
          | apply Keeps.after (State.raise_keeps ..)
          | apply Keeps.after (State.updQp_keeps ..)
          | apply Keeps.after (State.flushPen_keeps ..)
          | apply Keeps.after (State.flushTx_keeps ..)
          | fail_if_no_progress refine Keeps.mk' ?_ rfl rfl rfl rfl rfl rfl)
      | intro _
      | extract_lets
  repeat' first
    | (with_reducible first
        | assumption
        | exact .refl _
        | apply Keeps.ite
        | apply Keeps.after (State.raise_keeps ..)
        | apply Keeps.after (State.updQp_keeps ..)
        | apply Keeps.after (State.flushPen_keeps ..)
        | apply Keeps.after (State.flushTx_keeps ..)
        | fail_if_no_progress refine Keeps.mk' ?_ rfl rfl rfl rfl rfl rfl)
    | intro _
    | extract_lets

theorem State.enterTimewait_keeps (s : State) (q : Nat) :
    Keeps s (State.enterTimewait s q) := by
  unfold State.enterTimewait
  extract_lets _ s1 s2 s3
  have hs1 : Keeps s s1 := by
    unfold s1
    repeat' first
      | (with_reducible first
          | assumption
          | exact .refl _
          | apply Keeps.ite
          | apply Keeps.after (State.doneOpt_keeps ..)
          | apply Keeps.after (State.updQp_keeps ..)
          | apply Keeps.after (State.cmSend_keeps ..)
          | apply Keeps.after (State.flushPen_keeps ..)
          | apply Keeps.after (State.flushTx_keeps ..)
          | fail_if_no_progress refine Keeps.mk' ?_ rfl rfl rfl rfl rfl rfl)
      | intro _
      | extract_lets
  have hs2 : Keeps s s2 := by
    unfold s2
    repeat' first
      | (with_reducible first
          | assumption
          | exact .refl _
          | apply Keeps.ite
          | apply Keeps.after (State.doneOpt_keeps ..)
          | apply Keeps.after (State.updQp_keeps ..)
          | apply Keeps.after (State.cmSend_keeps ..)
          | apply Keeps.after (State.flushPen_keeps ..)
          | apply Keeps.after (State.flushTx_keeps ..)
          | fail_if_no_progress refine Keeps.mk' ?_ rfl rfl rfl rfl rfl rfl)
      | intro _
      | extract_lets
  have hs3 : Keeps s s3 := by
    unfold s3
    repeat' first
      | (with_reducible first
          | assumption
          | exact .refl _
          | apply Keeps.ite
          | apply Keeps.after (State.doneOpt_keeps ..)
          | apply Keeps.after (State.updQp_keeps ..)
          | apply Keeps.after (State.cmSend_keeps ..)
          | apply Keeps.after (State.flushPen_keeps ..)
          | apply Keeps.after (State.flushTx_keeps ..)
          | fail_if_no_progress refine Keeps.mk' ?_ rfl rfl rfl rfl rfl rfl)
      | intro _
      | extract_lets
  repeat' first
    | (with_reducible first
        | assumption
        | exact .refl _
        | apply Keeps.ite
        | apply Keeps.after (State.doneOpt_keeps ..)
        | apply Keeps.after (State.updQp_keeps ..)
        | apply Keeps.after (State.cmSend_keeps ..)
        | apply Keeps.after (State.flushPen_keeps ..)
        | apply Keeps.after (State.flushTx_keeps ..)
        | fail_if_no_progress refine Keeps.mk' ?_ rfl rfl rfl rfl rfl rfl)
    | intro _
    | extract_lets

theorem State.qpStep_keeps (s : State) (q : Nat) (n : QpNext) :
    Keeps s (State.qpStep s q n) := by
  unfold State.qpStep
  repeat' first
    | (with_reducible first
        | assumption
        | exact .refl _
        | apply Keeps.ite
        | apply Keeps.ite2
        | apply Keeps.ite1
        | apply Keeps.after (State.raise_keeps ..)
        | apply Keeps.after (State.setQp_keeps ..)
        | apply Keeps.after (State.updQp_keeps ..)
        | apply Keeps.after (State.sendRep_keeps ..)
        | apply Keeps.after (State.sendDreq_keeps ..)
        | apply Keeps.after (State.enterErr_keeps ..)
        | apply Keeps.after (State.enterTimewait_keeps ..)
        | fail_if_no_progress refine Keeps.mk' ?_ rfl rfl rfl rfl rfl rfl
        | apply Keeps.foldl
        | apply Keeps.foldlPair)
    | split
    | intro _
    | extract_lets
    | (dsimp +zetaDelta only; split)

theorem State.qpChange_keeps (s : State) (q : Nat) :
    Keeps s (State.qpChange s q) := by
  unfold State.qpChange
  repeat' first
    | (with_reducible first
        | assumption
        | exact .refl _
        | apply Keeps.ite
        | apply Keeps.ite2
        | apply Keeps.ite1
        | apply Keeps.after (State.updQp_keeps ..)
        | apply Keeps.after (State.qpStep_keeps ..)
        | fail_if_no_progress refine Keeps.mk' ?_ rfl rfl rfl rfl rfl rfl
        | apply Keeps.foldl
        | apply Keeps.foldlPair)
    | split
    | intro _
    | extract_lets
    | (dsimp +zetaDelta only; split)

theorem State.qpTimers_keeps (s : State) (q : Nat) :
    Keeps s (State.qpTimers s q) := by
  unfold State.qpTimers
  repeat' first
    | (with_reducible first
        | assumption
        | exact .refl _
        | apply Keeps.ite
        | apply Keeps.after (State.drained_keeps ..)
        | apply Keeps.after (State.drainExpired_keeps ..)
        | apply Keeps.after (State.errCleared_keeps ..)
        | apply Keeps.after (State.timewaitEnds_keeps ..)
        | fail_if_no_progress refine Keeps.mk' ?_ rfl rfl rfl rfl rfl rfl)
    | intro _

theorem State.ackSeam_keeps (s : State) (q : Nat) :
    Keeps s (State.ackSeam s q) := by
  unfold State.ackSeam
  extract_lets _ s1 s2
  have hs1 : Keeps s s1 := by
    unfold s1
    repeat' first
      | (with_reducible first
          | assumption
          | exact .refl _
          | apply Keeps.ite
          | apply Keeps.ite2
          | apply Keeps.ite1
          | apply Keeps.after (State.updQp_keeps ..)
          | apply Keeps.after (State.sendCtl_keeps ..)
          | apply Keeps.after (State.sendAck_keeps ..)
          | fail_if_no_progress refine Keeps.mk' ?_ rfl rfl rfl rfl rfl rfl
          | apply Keeps.foldl
          | apply Keeps.foldlPair)
      | intro _
      | extract_lets
  have hs2 : Keeps s s2 := by
    unfold s2
    repeat' first
      | (with_reducible first
          | assumption
          | exact .refl _
          | apply Keeps.ite
          | apply Keeps.ite2
          | apply Keeps.ite1
          | apply Keeps.after (State.updQp_keeps ..)
          | apply Keeps.after (State.sendCtl_keeps ..)
          | apply Keeps.after (State.sendAck_keeps ..)
          | fail_if_no_progress refine Keeps.mk' ?_ rfl rfl rfl rfl rfl rfl
          | apply Keeps.foldl
          | apply Keeps.foldlPair)
      | intro _
      | extract_lets
  repeat' first
    | (with_reducible first
        | assumption
        | exact .refl _
        | apply Keeps.ite
        | apply Keeps.ite2
        | apply Keeps.ite1
        | apply Keeps.after (State.updQp_keeps ..)
        | apply Keeps.after (State.sendCtl_keeps ..)
        | apply Keeps.after (State.sendAck_keeps ..)
        | fail_if_no_progress refine Keeps.mk' ?_ rfl rfl rfl rfl rfl rfl
        | apply Keeps.foldl
        | apply Keeps.foldlPair)
    | intro _
    | extract_lets

theorem State.refillQp_keeps (s : State) (q : Nat) :
    Keeps s (State.refillQp s q) := by
  unfold State.refillQp
  extract_lets _
  repeat' first
    | (with_reducible first
        | assumption
        | exact .refl _
        | apply Keeps.ite
        | apply Keeps.after (State.updQp_keeps ..)
        | fail_if_no_progress refine Keeps.mk' ?_ rfl rfl rfl rfl rfl rfl)
    | intro _
    | extract_lets

theorem State.countWait_keeps (s : State) (q : Nat) :
    Keeps s (State.countWait s q) := by
  unfold State.countWait
  extract_lets s1 v1 v2
  have hs1 : Keeps s s1 := by
    unfold s1
    repeat' first
      | (with_reducible first
          | assumption
          | exact .refl _
          | apply Keeps.ite
          | apply Keeps.after (State.cntRdm_keeps ..)
          | apply Keeps.after (State.raise_keeps ..)
          | fail_if_no_progress refine Keeps.mk' ?_ rfl rfl rfl rfl rfl rfl)
      | split
      | unfold v1
      | unfold v2
      | intro _
      | extract_lets
      | (dsimp +zetaDelta only; split)
  repeat' first
    | (with_reducible first
        | assumption
        | exact .refl _
        | apply Keeps.ite
        | apply Keeps.after (State.cntRdm_keeps ..)
        | apply Keeps.after (State.raise_keeps ..)
        | fail_if_no_progress refine Keeps.mk' ?_ rfl rfl rfl rfl rfl rfl)
    | split
    | unfold v1
    | unfold v2
    | intro _
    | extract_lets
    | (dsimp +zetaDelta only; split)

theorem State.qpSnap_keeps (s : State) :
    Keeps s (State.qpSnap s) := by
  unfold State.qpSnap
  extract_lets _ s1 _ _ _
  have hs1 : Keeps s s1 := by
    unfold s1
    repeat' first
      | (with_reducible first
          | assumption
          | exact .refl _
          | apply Keeps.ite
          | apply Keeps.after (State.wrReg_keeps ..)
          | fail_if_no_progress refine Keeps.mk' ?_ rfl rfl rfl rfl rfl rfl)
      | intro _
  repeat' first
    | (with_reducible first
        | assumption
        | exact .refl _
        | apply Keeps.ite
        | apply Keeps.after (State.wrReg_keeps ..)
        | fail_if_no_progress refine Keeps.mk' ?_ rfl rfl rfl rfl rfl rfl)
    | intro _

theorem execRdmQpSelWrite_keeps (w : Word) (s : State) :
    OKeeps s (execRdmQpSelWrite w s) := by
  unfold execRdmQpSelWrite
  repeat' first
    | (with_reducible first
        | assumption
        | exact .refl _
        | apply OKeeps.next
        | apply OKeeps.ite
        | apply Keeps.ite
        | apply Keeps.after (State.hostWrite_keeps (hf := ?_) ..)
        | apply Keeps.after (State.regWrite_keeps ..)
        | fail_if_no_progress refine Keeps.mk' ?_ rfl rfl rfl rfl rfl rfl)
    | intro _
    | extract_lets

theorem State.settleCells_keeps (s : State) :
    Keeps s (State.settleCells s) := by
  unfold State.settleCells
  extract_lets s1
  have hs1 : Keeps s s1 := by
    unfold s1
    repeat' first
      | (with_reducible first
          | assumption
          | exact .refl _
          | apply Keeps.ite
          | apply Keeps.ite1
          | apply Keeps.after (State.updWb_keeps ..)
          | apply Keeps.after (State.updCap_keeps ..)
          | refine Keeps.trans ?_ (.pair (by assumption) (State.settleList_keeps ..))
          | apply Keeps.after (State.settleList_keeps ..)
          | fail_if_no_progress refine Keeps.mk' ?_ rfl rfl rfl rfl rfl rfl
          | apply Keeps.foldl
          | apply Keeps.foldlPair)
      | split
      | intro _
      | extract_lets
  repeat' first
    | (with_reducible first
        | assumption
        | exact .refl _
        | apply Keeps.ite
        | apply Keeps.ite1
        | apply Keeps.after (State.updWb_keeps ..)
        | apply Keeps.after (State.updCap_keeps ..)
        | refine Keeps.trans ?_ (.pair (by assumption) (State.settleList_keeps ..))
        | apply Keeps.after (State.settleList_keeps ..)
        | fail_if_no_progress refine Keeps.mk' ?_ rfl rfl rfl rfl rfl rfl
        | apply Keeps.foldl
        | apply Keeps.foldlPair)
    | split
    | intro _
    | extract_lets

theorem State.rdmSeam_keeps (s : State) :
    Keeps s (State.rdmSeam s) := by
  unfold State.rdmSeam
  repeat' first
    | (with_reducible first
        | assumption
        | exact .refl _
        | apply Keeps.ite
        | apply Keeps.after (State.updQp_keeps ..)
        | apply Keeps.after (State.accepted_keeps ..)
        | apply Keeps.after (State.deadlines_keeps ..)
        | apply Keeps.after (State.ackSeam_keeps ..)
        | apply Keeps.after (State.refillQp_keeps ..)
        | apply Keeps.after (State.countWait_keeps ..)
        | fail_if_no_progress refine Keeps.mk' ?_ rfl rfl rfl rfl rfl rfl
        | apply Keeps.foldl
        | apply Keeps.foldlPair)
    | intro _
    | extract_lets

theorem State.rdmTick_keeps (s : State) :
    Keeps s (State.rdmTick s) := by
  unfold State.rdmTick
  extract_lets s1
  have hs1 : Keeps s s1 := by
    unfold s1
    repeat' first
      | (with_reducible first
          | assumption
          | exact .refl _
          | apply Keeps.ite
          | apply Keeps.after (State.tickFetches_keeps ..)
          | apply Keeps.after (State.contextFetched_keeps ..)
          | apply Keeps.after (State.egressFetched_keeps ..)
          | apply Keeps.after (State.timerFetched_keeps ..)
          | fail_if_no_progress refine Keeps.mk' ?_ rfl rfl rfl rfl rfl rfl
          | apply Keeps.foldl
          | apply Keeps.foldlPair)
      | intro _
      | extract_lets
  repeat' first
    | (with_reducible first
        | assumption
        | exact .refl _
        | apply Keeps.ite
        | apply Keeps.after (State.tickFetches_keeps ..)
        | apply Keeps.after (State.contextFetched_keeps ..)
        | apply Keeps.after (State.egressFetched_keeps ..)
        | apply Keeps.after (State.timerFetched_keeps ..)
        | fail_if_no_progress refine Keeps.mk' ?_ rfl rfl rfl rfl rfl rfl
        | apply Keeps.foldl
        | apply Keeps.foldlPair)
    | intro _
    | extract_lets

end Sys2Proof.Machine
end

