-- ==== Sys2Proof/Laws/KeepCmd.lean ====
section
/-!
SUPPORT. What the operations of Machine/Cmd.lean keep (Laws/Keep.lean).
-/

namespace Sys2Proof.Machine

open Sys2Proof

theorem State.sendCqe_keeps (s : State) (q : Nat) (chan : Option Nat) (w dw cid st : Nat) :
    Keeps s (State.sendCqe s q chan w dw cid st) := by
  unfold State.sendCqe
  extract_lets _
  repeat' first
    | (with_reducible first
        | assumption
        | exact .refl _
        | apply Keeps.ite
        | apply Keeps.after (State.armMsg_keeps ..))

theorem State.freeAll_keeps (s : State) (cs : List (Acct × Nat)) :
    Keeps s (State.freeAll s cs) := by
  unfold State.freeAll
  repeat' first
    | (with_reducible first
        | assumption
        | exact .refl _
        | apply Keeps.ite
        | apply Keeps.ite2
        | apply Keeps.ite1
        | apply Keeps.after (State.freeCells_keeps ..)
        | fail_if_no_progress refine Keeps.mk' ?_ rfl rfl rfl rfl rfl rfl
        | apply Keeps.foldl
        | apply Keeps.foldlPair)
    | intro _

theorem State.shortAnswer_keeps (s : State) (it : Item) (c : Capsule) (a : Answer) :
    Keeps s (State.shortAnswer s it c a) := by
  unfold State.shortAnswer
  extract_lets s1 s2
  have hs1 : Keeps s s1 := by
    unfold s1
    repeat' first
      | (with_reducible first
          | assumption
          | exact .refl _
          | apply Keeps.ite
          | apply Keeps.after (State.cnt_keeps ..)
          | apply Keeps.after (State.cntCmd_keeps ..)
          | apply Keeps.after (State.updCap_keeps ..)
          | apply Keeps.after (State.advance_keeps ..)
          | apply Keeps.after (State.xferArm_keeps ..)
          | apply Keeps.after (State.answer_keeps ..)
          | fail_if_no_progress refine Keeps.mk' ?_ rfl rfl rfl rfl rfl rfl)
      | split
  have hs2 : Keeps s s2 := by
    unfold s2
    repeat' first
      | (with_reducible first
          | assumption
          | exact .refl _
          | apply Keeps.ite
          | apply Keeps.after (State.cnt_keeps ..)
          | apply Keeps.after (State.cntCmd_keeps ..)
          | apply Keeps.after (State.updCap_keeps ..))
  repeat' first
    | (with_reducible first
        | assumption
        | exact .refl _
        | apply Keeps.ite
        | apply Keeps.after (State.cnt_keeps ..)
        | apply Keeps.after (State.cntCmd_keeps ..)
        | apply Keeps.after (State.updCap_keeps ..)
        | apply Keeps.after (State.advance_keeps ..))

theorem State.rxParse_keeps (it : Item) (s : State) :
    Keeps s (State.rxParse it s) := by
  unfold State.rxParse
  repeat' first
    | (with_reducible first
        | assumption
        | exact .refl _
        | apply Keeps.ite
        | apply Keeps.after (State.dropCap_keeps ..)
        | apply Keeps.after (State.advance_keeps ..)
        | apply Keeps.after (State.endItem_keeps ..)
        | apply Keeps.after (State.freeAll_keeps ..)
        | apply Keeps.after (State.shortAnswer_keeps ..)
        | apply Keeps.after (State.cmdAdmit_keeps ..)
        | fail_if_no_progress refine Keeps.mk' ?_ rfl rfl rfl rfl rfl rfl)
    | split

theorem execRxParse_keeps (k : Fin 12) (c : Fin 256) (s : State) :
    OKeeps s (execRxParse k c s) := by
  unfold execRxParse
  repeat' first
    | (with_reducible first
        | assumption
        | exact .refl _
        | apply OKeeps.next
        | apply OKeeps.ite
        | apply Keeps.ite
        | apply Keeps.after (State.run_keeps (hbody := ?_) ..)
        | apply Keeps.after (State.rxParse_keeps ..)
        | fail_if_no_progress refine Keeps.mk' ?_ rfl rfl rfl rfl rfl rfl)
    | intro _

theorem State.armAnswer_keeps (s : State) (it : Item) (c : Capsule) :
    Keeps s (State.armAnswer s it c) := by
  unfold State.armAnswer
  extract_lets v1 v2 s1 s2 s3
  have hs1 : Keeps s s1 := by
    unfold s1
    repeat' first
      | (with_reducible first
          | assumption
          | exact .refl _
          | apply Keeps.ite
          | apply Keeps.ite2
          | apply Keeps.ite1
          | apply Keeps.after (State.cntCmd_keeps ..)
          | apply Keeps.after (State.setChan_keeps ..)
          | apply Keeps.after (State.dropCap_keeps ..)
          | apply Keeps.after (State.endItem_keeps ..))
  have hs2 : Keeps s s2 := by
    unfold s2
    repeat' first
      | (with_reducible first
          | assumption
          | exact .refl _
          | apply Keeps.ite
          | apply Keeps.ite2
          | apply Keeps.ite1
          | apply Keeps.after (State.cntCmd_keeps ..)
          | apply Keeps.after (State.setChan_keeps ..)
          | apply Keeps.after (State.dropCap_keeps ..)
          | apply Keeps.after (State.endItem_keeps ..)
          | apply Keeps.after (State.updQp_keeps ..)
          | apply Keeps.after (State.sendCqe_keeps ..)
          | apply Keeps.after (State.freeAll_keeps ..)
          | apply Keeps.after (State.answer_keeps ..)
          | fail_if_no_progress refine Keeps.mk' ?_ rfl rfl rfl rfl rfl rfl)
      | split
  have hs3 : Keeps s s3 := by
    unfold s3
    repeat' first
      | (with_reducible first
          | assumption
          | exact .refl _
          | apply Keeps.ite
          | apply Keeps.ite2
          | apply Keeps.ite1
          | apply Keeps.after (State.cntCmd_keeps ..)
          | apply Keeps.after (State.setChan_keeps ..)
          | apply Keeps.after (State.dropCap_keeps ..)
          | apply Keeps.after (State.endItem_keeps ..)
          | apply Keeps.after (State.updQp_keeps ..)
          | apply Keeps.after (State.sendCqe_keeps ..)
          | apply Keeps.after (State.freeAll_keeps ..)
          | apply Keeps.after (State.answer_keeps ..)
          | fail_if_no_progress refine Keeps.mk' ?_ rfl rfl rfl rfl rfl rfl)
      | split
  repeat' first
    | (with_reducible first
        | assumption
        | exact .refl _
        | apply Keeps.ite
        | apply Keeps.ite2
        | apply Keeps.ite1
        | apply Keeps.after (State.cntCmd_keeps ..)
        | apply Keeps.after (State.setChan_keeps ..)
        | apply Keeps.after (State.dropCap_keeps ..)
        | apply Keeps.after (State.endItem_keeps ..)
        | apply Keeps.after (State.updQp_keeps ..)
        | apply Keeps.after (State.sendCqe_keeps ..)
        | apply Keeps.after (State.freeAll_keeps ..))

theorem State.suspendResp_keeps (it : Item) (s : State) :
    Keeps s (State.suspendResp it s) := by
  unfold State.suspendResp
  repeat' first
    | (with_reducible first
        | assumption
        | exact .refl _
        | apply Keeps.ite
        | apply Keeps.after (State.updCap_keeps ..)
        | apply Keeps.after (State.endItem_keeps ..)
        | apply Keeps.after (State.armAnswer_keeps ..)
        | apply Keeps.after (State.answer_keeps ..)
        | fail_if_no_progress refine Keeps.mk' ?_ rfl rfl rfl rfl rfl rfl)
    | split

theorem State.setResv_keeps (s : State) (v : Nat) (r : Resv) :
    Keeps s (State.setResv s v r) := by
  unfold State.setResv
  extract_lets _
  repeat' first
    | (with_reducible first
        | assumption
        | exact .refl _
        | apply Keeps.ite
        | fail_if_no_progress refine Keeps.mk' ?_ rfl rfl rfl rfl rfl rfl)

theorem State.tagFor_keeps (s : State) (chan : Option Nat) (cls : Nat) :
    Keeps s (State.tagFor s chan cls).2 := by
  unfold State.tagFor
  extract_lets v1 v2 v3 v4 v5 v6 s1 v7 v8
  have hs1 : Keeps s s1 := by
    unfold s1
    repeat' first
      | (with_reducible first
          | assumption
          | exact .refl _
          | apply Keeps.ite
          | apply Keeps.ite2
          | apply Keeps.after (State.cntTel_keeps ..)
          | fail_if_no_progress refine Keeps.mk' ?_ rfl rfl rfl rfl rfl rfl)
  repeat' first
    | (with_reducible first
        | assumption
        | exact .refl _
        | apply Keeps.ite
        | apply Keeps.ite2
        | apply Keeps.after (State.cntTel_keeps ..)
        | fail_if_no_progress refine Keeps.mk' ?_ rfl rfl rfl rfl rfl rfl)

theorem State.stamp_keeps (s : State) (w n : Nat) :
    Keeps s (State.stamp s w n) := by
  unfold State.stamp
  repeat' first
    | (with_reducible first
        | assumption
        | exact .refl _
        | apply Keeps.ite
        | apply Keeps.ite1
        | refine Keeps.trans ?_ (.pair (by assumption) (State.draw_keeps ..))
        | apply Keeps.after (State.draw_keeps ..)
        | apply Keeps.after (State.updWb_keeps ..))

theorem State.stampFirst_keeps (s : State) (w n : Nat) :
    Keeps s (State.stampFirst s w n) := by
  unfold State.stampFirst
  repeat' first
    | (with_reducible first
        | assumption
        | exact .refl _
        | apply Keeps.ite
        | apply Keeps.ite1
        | apply Keeps.after (State.stamp_keeps ..))

theorem State.admitCap_keeps (s : State) (it : Item) (q : Nat) (c : Capsule) :
    Keeps s (State.admitCap s it q c) := by
  unfold State.admitCap
  extract_lets v1 v2 v3 s1 v4 v5 v6
  have hs1 : Keeps s s1 := by
    unfold s1
    repeat' first
      | (with_reducible first
          | assumption
          | exact .refl _
          | apply Keeps.ite
          | apply Keeps.after (State.setChan_keeps ..)
          | apply Keeps.after (State.setWb_keeps ..)
          | apply Keeps.after (State.dropCap_keeps ..)
          | refine Keeps.trans ?_ (.pair (by assumption) (State.tagFor_keeps ..))
          | apply Keeps.after (State.tagFor_keeps ..)
          | apply Keeps.after (State.stamp_keeps ..)
          | apply Keeps.after (State.lockCheck_keeps ..)
          | fail_if_no_progress refine Keeps.mk' ?_ rfl rfl rfl rfl rfl rfl)
      | split
  repeat' first
    | (with_reducible first
        | assumption
        | exact .refl _
        | apply Keeps.ite
        | apply Keeps.after (State.setChan_keeps ..)
        | apply Keeps.after (State.setWb_keeps ..)
        | apply Keeps.after (State.dropCap_keeps ..)
        | refine Keeps.trans ?_ (.pair (by assumption) (State.tagFor_keeps ..))
        | apply Keeps.after (State.tagFor_keeps ..)
        | apply Keeps.after (State.stamp_keeps ..)
        | apply Keeps.after (State.lockCheck_keeps ..)
        | fail_if_no_progress refine Keeps.mk' ?_ rfl rfl rfl rfl rfl rfl)

theorem State.resumeWb_keeps (s : State) (it : Item) (w : Nat) :
    Keeps s (State.resumeWb s it w) := by
  unfold State.resumeWb
  extract_lets v1 v2 s1 v3 s2 s3
  have hs1 : Keeps s s1 := by
    unfold s1
    repeat' first
      | (with_reducible first
          | assumption
          | exact .refl _
          | apply Keeps.ite
          | apply Keeps.after (State.updWb_keeps ..)
          | apply Keeps.after (State.advance_keeps ..)
          | apply Keeps.after (State.toReap_keeps ..)
          | apply Keeps.after (State.lockCheck_keeps ..)
          | apply Keeps.after (State.cplRetire_keeps ..)
          | apply Keeps.after (State.drvSubmit_keeps ..)
          | apply Keeps.after (State.piCheck_keeps ..)
          | apply Keeps.after (State.xferArm_keeps ..)
          | fail_if_no_progress refine Keeps.mk' ?_ rfl rfl rfl rfl rfl rfl)
  have hs2 : Keeps s s2 := by
    unfold s2
    repeat' first
      | (with_reducible first
          | assumption
          | exact .refl _
          | apply Keeps.ite
          | apply Keeps.after (State.updWb_keeps ..)
          | apply Keeps.after (State.advance_keeps ..)
          | apply Keeps.after (State.toReap_keeps ..)
          | apply Keeps.after (State.lockCheck_keeps ..)
          | apply Keeps.after (State.cplRetire_keeps ..)
          | apply Keeps.after (State.drvSubmit_keeps ..)
          | apply Keeps.after (State.piCheck_keeps ..)
          | apply Keeps.after (State.xferArm_keeps ..)
          | fail_if_no_progress refine Keeps.mk' ?_ rfl rfl rfl rfl rfl rfl)
  have hs3 : Keeps s s3 := by
    unfold s3
    repeat' first
      | (with_reducible first
          | assumption
          | exact .refl _
          | apply Keeps.ite
          | apply Keeps.after (State.updWb_keeps ..))
  repeat' first
    | (with_reducible first
        | assumption
        | exact .refl _
        | apply Keeps.ite
        | apply Keeps.after (State.updWb_keeps ..)
        | apply Keeps.after (State.advance_keeps ..)
        | apply Keeps.after (State.toReap_keeps ..)
        | apply Keeps.after (State.lockCheck_keeps ..)
        | apply Keeps.after (State.cplRetire_keeps ..)
        | apply Keeps.after (State.drvSubmit_keeps ..)
        | apply Keeps.after (State.piCheck_keeps ..)
        | apply Keeps.after (State.xferArm_keeps ..)
        | fail_if_no_progress refine Keeps.mk' ?_ rfl rfl rfl rfl rfl rfl)
    | split

theorem State.cmdAdmit_keeps (it : Item) (s : State) :
    Keeps s (State.cmdAdmit it s) := by
  unfold State.cmdAdmit
  repeat' first
    | (with_reducible first
        | assumption
        | exact .refl _
        | apply Keeps.ite
        | apply Keeps.ite2
        | apply Keeps.ite1
        | apply Keeps.after (State.dropCap_keeps ..)
        | apply Keeps.after (State.freeAll_keeps ..)
        | apply Keeps.after (State.shortAnswer_keeps ..)
        | apply Keeps.after (State.suspendResp_keeps ..)
        | apply Keeps.after (State.admitCap_keeps ..)
        | apply Keeps.after (State.resumeWb_keeps ..)
        | apply Keeps.after (State.stay_keeps ..)
        | apply Keeps.after (State.advance_keeps ..)
        | apply Keeps.after (State.endItem_keeps ..)
        | apply Keeps.after (State.answer_keeps ..)
        | fail_if_no_progress refine Keeps.mk' ?_ rfl rfl rfl rfl rfl rfl
        | apply Keeps.foldl
        | apply Keeps.foldlPair)
    | split
    | intro _
    | extract_lets
    | (dsimp +zetaDelta only; split)

theorem execCmdAdmit_keeps (k : Fin 12) (c : Fin 256) (s : State) :
    OKeeps s (execCmdAdmit k c s) := by
  unfold execCmdAdmit
  repeat' first
    | (with_reducible first
        | assumption
        | exact .refl _
        | apply OKeeps.next
        | apply OKeeps.ite
        | apply Keeps.ite
        | apply Keeps.ite2
        | apply Keeps.ite1
        | apply Keeps.after (State.cmdAdmit_keeps ..)
        | apply Keeps.after (State.run_keeps ..)
        | fail_if_no_progress refine Keeps.mk' ?_ rfl rfl rfl rfl rfl rfl
        | apply Keeps.foldl
        | apply Keeps.foldlPair)
    | split
    | intro _
    | extract_lets
    | (dsimp +zetaDelta only; split)

theorem execSuspendResp_keeps (k : Fin 12) (c : Fin 256) (s : State) :
    OKeeps s (execSuspendResp k c s) := by
  unfold execSuspendResp
  repeat' first
    | (with_reducible first
        | assumption
        | exact .refl _
        | apply OKeeps.next
        | apply OKeeps.ite
        | apply Keeps.ite
        | apply Keeps.after (State.run_keeps (hbody := ?_) ..)
        | apply Keeps.after (State.suspendResp_keeps ..)
        | fail_if_no_progress refine Keeps.mk' ?_ rfl rfl rfl rfl rfl rfl)
    | intro _

theorem State.setLock_keeps (s : State) (l : Nat) (x : Lock) :
    Keeps s (State.setLock s l x) := by
  unfold State.setLock
  extract_lets _
  repeat' first
    | (with_reducible first
        | assumption
        | exact .refl _
        | apply Keeps.ite
        | fail_if_no_progress refine Keeps.mk' ?_ rfl rfl rfl rfl rfl rfl)

theorem State.cutOff_keeps (s : State) (it : Item) (w : Nat) :
    Keeps s (State.cutOff s it w) := by
  unfold State.cutOff
  repeat' first
    | (with_reducible first
        | assumption
        | exact .refl _
        | apply Keeps.ite
        | apply Keeps.after (State.advance_keeps ..)
        | apply Keeps.after (State.toReap_keeps ..))

theorem State.onWb_keeps (s : State) (it : Item) (body : Nat → Waybill → State → State) (hbody : ∀ a0 a1 x, Keeps x (body a0 a1 x)) :
    Keeps s (State.onWb s it body) := by
  unfold State.onWb
  repeat' first
    | (with_reducible first
        | assumption
        | exact .refl _
        | apply Keeps.ite
        | apply Keeps.after (State.endItem_keeps ..)
        | apply Keeps.after (State.cutOff_keeps ..)
        | apply Keeps.after (hbody ..)
        | fail_if_no_progress refine Keeps.mk' ?_ rfl rfl rfl rfl rfl rfl)
    | split

theorem State.lockCheck_keeps (it : Item) (s : State) :
    Keeps s (State.lockCheck it s) := by
  unfold State.lockCheck
  repeat' first
    | (with_reducible first
        | assumption
        | exact .refl _
        | apply Keeps.ite
        | apply Keeps.ite2
        | apply Keeps.ite1
        | apply Keeps.after (State.updWb_keeps ..)
        | apply Keeps.after (State.stamp_keeps ..)
        | apply Keeps.after (State.setLock_keeps ..)
        | apply Keeps.after (State.onWb_keeps ..)
        | apply Keeps.after (State.cntCmd_keeps ..)
        | apply Keeps.after (State.stay_keeps ..)
        | apply Keeps.after (State.advance_keeps ..)
        | fail_if_no_progress refine Keeps.mk' ?_ rfl rfl rfl rfl rfl rfl
        | apply Keeps.foldl
        | apply Keeps.foldlPair)
    | split
    | intro _
    | extract_lets
    | (dsimp +zetaDelta only; split)

theorem execLockCheck_keeps (k : Fin 12) (c : Fin 256) (s : State) :
    OKeeps s (execLockCheck k c s) := by
  unfold execLockCheck
  repeat' first
    | (with_reducible first
        | assumption
        | exact .refl _
        | apply OKeeps.next
        | apply OKeeps.ite
        | apply Keeps.ite
        | apply Keeps.after (State.run_keeps (hbody := ?_) ..)
        | apply Keeps.after (State.lockCheck_keeps ..)
        | fail_if_no_progress refine Keeps.mk' ?_ rfl rfl rfl rfl rfl rfl)
    | intro _

theorem State.unlock_keeps (s : State) (l : Nat) :
    Keeps s (State.unlock s l) := by
  unfold State.unlock
  extract_lets _ s1
  have hs1 : Keeps s s1 := by
    unfold s1
    repeat' first
      | (with_reducible first
          | assumption
          | exact .refl _
          | apply Keeps.ite
          | apply Keeps.ite2
          | apply Keeps.ite1
          | apply Keeps.after (State.updWb_keeps ..)
          | apply Keeps.after (State.wakeWb_keeps ..)
          | apply Keeps.after (State.stamp_keeps ..)
          | apply Keeps.after (State.setLock_keeps ..))
  repeat' first
    | (with_reducible first
        | assumption
        | exact .refl _
        | apply Keeps.ite
        | apply Keeps.ite2
        | apply Keeps.ite1
        | apply Keeps.after (State.updWb_keeps ..)
        | apply Keeps.after (State.wakeWb_keeps ..)
        | apply Keeps.after (State.stamp_keeps ..)
        | apply Keeps.after (State.setLock_keeps ..)
        | fail_if_no_progress refine Keeps.mk' ?_ rfl rfl rfl rfl rfl rfl
        | apply Keeps.foldl
        | apply Keeps.foldlPair)
    | intro _

theorem State.unlockSeam_keeps (s : State) :
    Keeps s (State.unlockSeam s) := by
  unfold State.unlockSeam
  extract_lets _ _
  repeat' first
    | (with_reducible first
        | assumption
        | exact .refl _
        | apply Keeps.ite
        | apply Keeps.after (State.unlock_keeps ..)
        | fail_if_no_progress refine Keeps.mk' ?_ rfl rfl rfl rfl rfl rfl
        | apply Keeps.foldl
        | apply Keeps.foldlPair)
    | intro _

theorem State.releaseLock_keeps (s : State) (w : Nat) :
    Keeps s (State.releaseLock s w) := by
  unfold State.releaseLock
  extract_lets _ _ s1
  have hs1 : Keeps s s1 := by
    unfold s1
    repeat' first
      | (with_reducible first
          | assumption
          | exact .refl _
          | apply Keeps.ite
          | apply Keeps.after (State.updWb_keeps ..)
          | apply Keeps.after (State.unlock_keeps ..)
          | fail_if_no_progress refine Keeps.mk' ?_ rfl rfl rfl rfl rfl rfl)
  repeat' first
    | (with_reducible first
        | assumption
        | exact .refl _
        | apply Keeps.ite
        | apply Keeps.after (State.updWb_keeps ..))

theorem State.traceOf_keeps (s : State) (w : Nat) :
    Keeps s (State.traceOf s w) := by
  unfold State.traceOf
  extract_lets s1 v1 _ v2 v3
  have hs1 : Keeps s s1 := by
    unfold s1
    repeat' first
      | (with_reducible first
          | assumption
          | exact .refl _
          | apply Keeps.ite
          | apply Keeps.ite2
          | apply Keeps.ite1
          | apply Keeps.after (State.stamp_keeps ..))
  repeat' first
    | (with_reducible first
        | assumption
        | exact .refl _
        | apply Keeps.ite
        | apply Keeps.ite2
        | apply Keeps.ite1
        | apply Keeps.after (State.stamp_keeps ..)
        | fail_if_no_progress refine Keeps.mk' ?_ rfl rfl rfl rfl rfl rfl)

theorem State.dropFilling_keeps (s : State) (x : Waybill) :
    Keeps s (State.dropFilling s x) := by
  unfold State.dropFilling
  repeat' first
    | (with_reducible first
        | assumption
        | exact .refl _
        | apply Keeps.ite
        | apply Keeps.after (State.setLine_keeps ..)
        | fail_if_no_progress refine Keeps.mk' ?_ rfl rfl rfl rfl rfl rfl
        | apply Keeps.foldl
        | apply Keeps.foldlPair)
    | split
    | intro _

theorem State.forgetWb_keeps (s : State) (w : Nat) :
    Keeps s (State.forgetWb s w) := by
  unfold State.forgetWb
  repeat' first
    | (with_reducible first
        | assumption
        | exact .refl _
        | apply Keeps.ite
        | apply Keeps.after (State.updQp_keeps ..)
        | fail_if_no_progress refine Keeps.mk' ?_ rfl rfl rfl rfl rfl rfl)
    | split

theorem State.freeWb_keeps (s : State) (w : Nat) :
    Keeps s (State.freeWb s w) := by
  unfold State.freeWb
  extract_lets v1 s1 s2 s3 s4 v2 v3 s5 s6 v4 s7
  have hs1 : Keeps s s1 := by
    unfold s1
    repeat' first
      | (with_reducible first
          | assumption
          | exact .refl _
          | apply Keeps.ite
          | apply Keeps.after (State.setWb_keeps ..)
          | apply Keeps.after (State.dropItems_keeps ..)
          | apply Keeps.after (State.releaseRef_keeps ..)
          | apply Keeps.after (State.cntChan_keeps ..)
          | apply Keeps.after (State.freeAll_keeps ..)
          | apply Keeps.after (State.stamp_keeps ..)
          | apply Keeps.after (State.releaseLock_keeps ..))
  have hs2 : Keeps s s2 := by
    unfold s2
    repeat' first
      | (with_reducible first
          | assumption
          | exact .refl _
          | apply Keeps.ite
          | apply Keeps.after (State.setWb_keeps ..)
          | apply Keeps.after (State.dropItems_keeps ..)
          | apply Keeps.after (State.releaseRef_keeps ..)
          | apply Keeps.after (State.cntChan_keeps ..)
          | apply Keeps.after (State.freeAll_keeps ..)
          | apply Keeps.after (State.stamp_keeps ..)
          | apply Keeps.after (State.releaseLock_keeps ..)
          | apply Keeps.after (State.traceOf_keeps ..))
  have hs3 : Keeps s s3 := by
    unfold s3
    repeat' first
      | (with_reducible first
          | assumption
          | exact .refl _
          | apply Keeps.ite
          | apply Keeps.after (State.setWb_keeps ..)
          | apply Keeps.after (State.dropItems_keeps ..)
          | apply Keeps.after (State.releaseRef_keeps ..)
          | apply Keeps.after (State.cntChan_keeps ..)
          | apply Keeps.after (State.freeAll_keeps ..)
          | apply Keeps.after (State.stamp_keeps ..)
          | apply Keeps.after (State.releaseLock_keeps ..)
          | apply Keeps.after (State.traceOf_keeps ..)
          | apply Keeps.after (State.dropFilling_keeps ..)
          | apply Keeps.after (State.forgetWb_keeps ..))
  have hs4 : Keeps s s4 := by
    unfold s4
    repeat' first
      | (with_reducible first
          | assumption
          | exact .refl _
          | apply Keeps.ite
          | apply Keeps.after (State.setWb_keeps ..)
          | apply Keeps.after (State.dropItems_keeps ..)
          | apply Keeps.after (State.releaseRef_keeps ..)
          | apply Keeps.after (State.cntChan_keeps ..)
          | apply Keeps.after (State.freeAll_keeps ..))
  have hs5 : Keeps s s5 := by
    unfold s5
    repeat' first
      | (with_reducible first
          | assumption
          | exact .refl _
          | apply Keeps.ite
          | apply Keeps.after (State.setWb_keeps ..)
          | apply Keeps.after (State.dropItems_keeps ..)
          | apply Keeps.after (State.releaseRef_keeps ..)
          | apply Keeps.after (State.cntChan_keeps ..)
          | apply Keeps.after (State.freeAll_keeps ..)
          | apply Keeps.after (State.stamp_keeps ..)
          | apply Keeps.after (State.releaseLock_keeps ..)
          | apply Keeps.after (State.traceOf_keeps ..)
          | apply Keeps.after (State.dropFilling_keeps ..)
          | apply Keeps.after (State.forgetWb_keeps ..)
          | fail_if_no_progress refine Keeps.mk' ?_ rfl rfl rfl rfl rfl rfl)
  have hs6 : Keeps s s6 := by
    unfold s6
    repeat' first
      | (with_reducible first
          | assumption
          | exact .refl _
          | apply Keeps.ite
          | apply Keeps.after (State.setWb_keeps ..)
          | apply Keeps.after (State.dropItems_keeps ..))
  have hs7 : Keeps s s7 := by
    unfold s7
    repeat' first
      | (with_reducible first
          | assumption
          | exact .refl _
          | apply Keeps.ite
          | apply Keeps.after (State.setWb_keeps ..)
          | apply Keeps.after (State.dropItems_keeps ..)
          | apply Keeps.after (State.releaseRef_keeps ..)
          | apply Keeps.after (State.cntChan_keeps ..)
          | apply Keeps.after (State.freeAll_keeps ..)
          | apply Keeps.after (State.stamp_keeps ..)
          | apply Keeps.after (State.releaseLock_keeps ..)
          | apply Keeps.after (State.traceOf_keeps ..)
          | apply Keeps.after (State.dropFilling_keeps ..)
          | apply Keeps.after (State.forgetWb_keeps ..)
          | fail_if_no_progress refine Keeps.mk' ?_ rfl rfl rfl rfl rfl rfl)
      | split
  repeat' first
    | (with_reducible first
        | assumption
        | exact .refl _
        | apply Keeps.ite
        | apply Keeps.after (State.setWb_keeps ..))

theorem State.cplRetire_keeps (it : Item) (s : State) :
    Keeps s (State.cplRetire it s) := by
  unfold State.cplRetire
  repeat' first
    | (with_reducible first
        | assumption
        | exact .refl _
        | apply Keeps.ite
        | apply Keeps.after (State.endItem_keeps ..)
        | apply Keeps.after (State.later_keeps ..)
        | apply Keeps.after (State.toReap_keeps ..)
        | apply Keeps.after (State.freeWb_keeps ..)
        | fail_if_no_progress refine Keeps.mk' ?_ rfl rfl rfl rfl rfl rfl)
    | split

theorem execCplRetire_keeps (k : Fin 12) (c : Fin 256) (s : State) :
    OKeeps s (execCplRetire k c s) := by
  unfold execCplRetire
  repeat' first
    | (with_reducible first
        | assumption
        | exact .refl _
        | apply OKeeps.next
        | apply OKeeps.ite
        | apply Keeps.ite
        | apply Keeps.after (State.run_keeps (hbody := ?_) ..)
        | apply Keeps.after (State.cplRetire_keeps ..)
        | fail_if_no_progress refine Keeps.mk' ?_ rfl rfl rfl rfl rfl rfl)
    | intro _

theorem State.wakeCut_keeps (s : State) (w : Nat) :
    Keeps s (State.wakeCut s w) := by
  unfold State.wakeCut
  extract_lets _ s1
  have hs1 : Keeps s s1 := by
    unfold s1
    repeat' first
      | (with_reducible first
          | assumption
          | exact .refl _
          | apply Keeps.ite
          | apply Keeps.after (State.dropItems_keeps ..))
  repeat' first
    | (with_reducible first
        | assumption
        | exact .refl _
        | apply Keeps.ite
        | apply Keeps.after (State.dropItems_keeps ..)
        | apply Keeps.after (State.wakeWb_keeps ..))

theorem State.cutWb_keeps (s : State) (w : Nat) (preempt : Bool) :
    Keeps s (State.cutWb s w preempt) := by
  unfold State.cutWb
  repeat' first
    | (with_reducible first
        | assumption
        | exact .refl _
        | apply Keeps.ite
        | apply Keeps.ite2
        | apply Keeps.ite1
        | apply Keeps.after (State.updWb_keeps ..)
        | apply Keeps.after (State.releaseLock_keeps ..)
        | apply Keeps.after (State.wakeCut_keeps ..)
        | apply Keeps.after (State.cntCmd_keeps ..)
        | apply Keeps.after (State.preempted_keeps ..)
        | fail_if_no_progress refine Keeps.mk' ?_ rfl rfl rfl rfl rfl rfl
        | apply Keeps.foldl
        | apply Keeps.foldlPair)
    | split
    | intro _
    | extract_lets
    | (dsimp +zetaDelta only; split)

theorem State.abortSeam_keeps (s : State) :
    Keeps s (State.abortSeam s) := by
  unfold State.abortSeam
  extract_lets _
  repeat' first
    | (with_reducible first
        | assumption
        | exact .refl _
        | apply Keeps.ite
        | apply Keeps.after (State.cutWb_keeps ..)
        | fail_if_no_progress refine Keeps.mk' ?_ rfl rfl rfl rfl rfl rfl
        | apply Keeps.foldl
        | apply Keeps.foldlPair)
    | intro _

theorem State.abortScan_keeps (it : Item) (s : State) :
    Keeps s (State.abortScan it s) := by
  unfold State.abortScan
  repeat' first
    | (with_reducible first
        | assumption
        | exact .refl _
        | apply Keeps.ite
        | apply Keeps.after (State.cntCmd_keeps ..)
        | apply Keeps.after (State.complete_keeps ..)
        | apply Keeps.after (State.done_keeps ..)
        | apply Keeps.after (State.updWb_keeps ..)
        | apply Keeps.after (State.updCap_keeps ..)
        | apply Keeps.after (State.addItem_keeps ..)
        | apply Keeps.after (State.updCtrl_keeps ..)
        | apply Keeps.after (State.advance_keeps ..)
        | apply Keeps.after (State.stamp_keeps ..)
        | apply Keeps.after (State.onWb_keeps (hbody := ?_) ..)
        | apply Keeps.after (State.xferArm_keeps ..)
        | apply Keeps.after (State.answer_keeps ..)
        | fail_if_no_progress refine Keeps.mk' ?_ rfl rfl rfl rfl rfl rfl)
    | split
    | intro _
    | extract_lets

theorem execAbortScan_keeps (k : Fin 12) (c : Fin 256) (s : State) :
    OKeeps s (execAbortScan k c s) := by
  unfold execAbortScan
  repeat' first
    | (with_reducible first
        | assumption
        | exact .refl _
        | apply OKeeps.next
        | apply OKeeps.ite
        | apply Keeps.ite
        | apply Keeps.after (State.run_keeps (hbody := ?_) ..)
        | apply Keeps.after (State.abortScan_keeps ..)
        | fail_if_no_progress refine Keeps.mk' ?_ rfl rfl rfl rfl rfl rfl)
    | intro _

theorem State.abortDeferred_keeps (s : State) :
    Keeps s (State.abortDeferred s) := by
  unfold State.abortDeferred
  repeat' first
    | (with_reducible first
        | assumption
        | exact .refl _
        | apply Keeps.ite
        | apply Keeps.after (State.setChan_keeps ..)
        | apply Keeps.after (State.postCap_keeps ..)
        | fail_if_no_progress refine Keeps.mk' ?_ rfl rfl rfl rfl rfl rfl
        | apply Keeps.foldl
        | apply Keeps.foldlPair)
    | split
    | intro _

theorem State.cmdErr_keeps (s : State) (q : Nat) :
    Keeps s (State.cmdErr s q) := by
  unfold State.cmdErr
  extract_lets v1 v2 s1
  have hs1 : Keeps s s1 := by
    unfold s1
    repeat' first
      | (with_reducible first
          | assumption
          | exact .refl _
          | apply Keeps.ite
          | apply Keeps.after (State.cntCmd_keeps ..)
          | apply Keeps.after (State.setChan_keeps ..)
          | apply Keeps.after (State.updWb_keeps ..)
          | apply Keeps.after (State.dropCap_keeps ..)
          | apply Keeps.after (State.dropItems_keeps ..)
          | apply Keeps.after (State.freeAll_keeps ..)
          | apply Keeps.after (State.wakeCut_keeps ..)
          | fail_if_no_progress refine Keeps.mk' ?_ rfl rfl rfl rfl rfl rfl
          | apply Keeps.foldl
          | apply Keeps.foldlPair)
      | split
      | unfold v1
      | unfold v2
      | intro _
  repeat' first
    | (with_reducible first
        | assumption
        | exact .refl _
        | apply Keeps.ite
        | apply Keeps.after (State.cntCmd_keeps ..)
        | apply Keeps.after (State.setChan_keeps ..)
        | apply Keeps.after (State.updWb_keeps ..)
        | apply Keeps.after (State.dropCap_keeps ..)
        | apply Keeps.after (State.dropItems_keeps ..)
        | apply Keeps.after (State.freeAll_keeps ..)
        | apply Keeps.after (State.wakeCut_keeps ..)
        | fail_if_no_progress refine Keeps.mk' ?_ rfl rfl rfl rfl rfl rfl
        | apply Keeps.foldl
        | apply Keeps.foldlPair)
    | split
    | unfold v1
    | unfold v2
    | intro _

theorem State.admitWaits_keeps (s : State) :
    Keeps s (State.admitWaits s) := by
  unfold State.admitWaits
  repeat' first
    | (with_reducible first
        | assumption
        | exact .refl _
        | apply Keeps.ite
        | apply Keeps.ite2
        | apply Keeps.ite1
        | apply Keeps.after (State.cntCmd_keeps ..)
        | apply Keeps.after (State.cntLay_keeps ..)
        | apply Keeps.after (State.cntDrv_keeps ..)
        | apply Keeps.after (State.raise_keeps ..)
        | fail_if_no_progress refine Keeps.mk' ?_ rfl rfl rfl rfl rfl rfl
        | apply Keeps.foldl
        | apply Keeps.foldlPair)
    | split
    | intro _
    | extract_lets
    | (dsimp +zetaDelta only; split)

theorem State.creditSeam_keeps (s : State) :
    Keeps s (State.creditSeam s) := by
  unfold State.creditSeam
  repeat' first
    | (with_reducible first
        | assumption
        | exact .refl _
        | apply Keeps.ite
        | apply Keeps.after (State.setChan_keeps ..)
        | fail_if_no_progress refine Keeps.mk' ?_ rfl rfl rfl rfl rfl rfl
        | apply Keeps.foldl
        | apply Keeps.foldlPair)
    | intro _

end Sys2Proof.Machine
end

