-- ==== Sys2Proof/Laws/KeepCmdData.lean ====
section
/-!
SUPPORT. What the operations of Machine/CmdData.lean keep (Laws/Keep.lean).
-/

namespace Sys2Proof.Machine

open Sys2Proof

theorem State.mapXlate_keeps (it : Item) (s : State) :
    Keeps s (State.mapXlate it s) := by
  unfold State.mapXlate
  repeat' first
    | (with_reducible first
        | assumption
        | exact .refl _
        | apply Keeps.ite
        | apply Keeps.ite2
        | apply Keeps.ite1
        | apply Keeps.after (State.updWb_keeps ..)
        | apply Keeps.after (State.addItem_keeps ..)
        | apply Keeps.after (State.stamp_keeps ..)
        | apply Keeps.after (State.onWb_keeps ..)
        | apply Keeps.after (State.cacheProbe_keeps ..)
        | apply Keeps.after (State.piCheck_keeps ..)
        | apply Keeps.after (State.xferArm_keeps ..)
        | apply Keeps.after (State.lane_keeps ..)
        | apply Keeps.after (State.advance_keeps ..)
        | apply Keeps.after (State.endItem_keeps ..)
        | fail_if_no_progress refine Keeps.mk' ?_ rfl rfl rfl rfl rfl rfl
        | apply Keeps.foldl
        | apply Keeps.foldlPair)
    | split
    | intro _
    | extract_lets
    | (dsimp +zetaDelta only; split)

theorem execMapXlate_keeps (k : Fin 12) (c : Fin 256) (s : State) :
    OKeeps s (execMapXlate k c s) := by
  unfold execMapXlate
  repeat' first
    | (with_reducible first
        | assumption
        | exact .refl _
        | apply OKeeps.next
        | apply OKeeps.ite
        | apply Keeps.ite
        | apply Keeps.after (State.run_keeps (hbody := ?_) ..)
        | apply Keeps.after (State.mapXlate_keeps ..)
        | fail_if_no_progress refine Keeps.mk' ?_ rfl rfl rfl rfl rfl rfl)
    | intro _

theorem State.cacheProbe_keeps (it : Item) (s : State) :
    Keeps s (State.cacheProbe it s) := by
  unfold State.cacheProbe
  repeat' first
    | (with_reducible first
        | assumption
        | exact .refl _
        | apply Keeps.ite
        | apply Keeps.ite2
        | apply Keeps.ite1
        | apply Keeps.after (State.updWb_keeps ..)
        | apply Keeps.after (State.stamp_keeps ..)
        | apply Keeps.after (State.onWb_keeps ..)
        | apply Keeps.after (State.mapXlate_keeps ..)
        | apply Keeps.after (State.drvSubmit_keeps ..)
        | apply Keeps.after (State.piCheck_keeps ..)
        | apply Keeps.after (State.updLine_keeps ..)
        | apply Keeps.after (State.cntLay_keeps ..)
        | apply Keeps.after (State.lane_keeps ..)
        | apply Keeps.after (State.advance_keeps ..)
        | fail_if_no_progress refine Keeps.mk' ?_ rfl rfl rfl rfl rfl rfl
        | apply Keeps.foldl
        | apply Keeps.foldlPair)
    | split
    | intro _
    | extract_lets
    | (dsimp +zetaDelta only; split)

theorem execCacheProbe_keeps (k : Fin 12) (c : Fin 256) (s : State) :
    OKeeps s (execCacheProbe k c s) := by
  unfold execCacheProbe
  repeat' first
    | (with_reducible first
        | assumption
        | exact .refl _
        | apply OKeeps.next
        | apply OKeeps.ite
        | apply Keeps.ite
        | apply Keeps.after (State.run_keeps (hbody := ?_) ..)
        | apply Keeps.after (State.cacheProbe_keeps ..)
        | fail_if_no_progress refine Keeps.mk' ?_ rfl rfl rfl rfl rfl rfl)
    | intro _

theorem State.hurry_keeps (s : State) (p st : Nat) :
    Keeps s (State.hurry s p st) := by
  unfold State.hurry
  repeat' first
    | (with_reducible first
        | assumption
        | exact .refl _
        | apply Keeps.ite
        | apply Keeps.after (State.updPool_keeps ..)
        | fail_if_no_progress refine Keeps.mk' ?_ rfl rfl rfl rfl rfl rfl)
    | intro _
    | extract_lets

theorem State.readOn_keeps (s : State) (it : Item) (w : Nat) :
    Keeps s (State.readOn s it w) := by
  unfold State.readOn
  repeat' first
    | (with_reducible first
        | assumption
        | exact .refl _
        | apply Keeps.ite
        | apply Keeps.ite2
        | apply Keeps.ite1
        | apply Keeps.after (State.updWb_keeps ..)
        | apply Keeps.after (State.stamp_keeps ..)
        | apply Keeps.after (State.stampFirst_keeps ..)
        | apply Keeps.after (State.hurry_keeps ..)
        | apply Keeps.after (State.piCheck_keeps ..)
        | apply Keeps.after (State.wantMark_keeps ..)
        | apply Keeps.after (State.cntLay_keeps ..)
        | apply Keeps.after (State.lane_keeps ..)
        | apply Keeps.after (State.stay_keeps ..)
        | apply Keeps.after (State.advance_keeps ..)
        | apply Keeps.after (State.later_keeps ..)
        | apply Keeps.after (State.postParity_keeps ..)
        | apply Keeps.after (State.submitMany_keeps ..)
        | apply Keeps.after (State.toReap_keeps ..)
        | fail_if_no_progress refine Keeps.mk' ?_ rfl rfl rfl rfl rfl rfl
        | apply Keeps.foldl
        | apply Keeps.foldlPair)
    | split
    | intro _
    | extract_lets
    | (dsimp +zetaDelta only; split)

theorem State.drvSubmit_keeps (it : Item) (s : State) :
    Keeps s (State.drvSubmit it s) := by
  unfold State.drvSubmit
  repeat' first
    | (with_reducible first
        | assumption
        | exact .refl _
        | apply Keeps.ite
        | apply Keeps.after (State.endItem_keeps ..)
        | apply Keeps.after (State.submitWork_keeps ..)
        | apply Keeps.after (State.onWb_keeps (hbody := ?_) ..)
        | apply Keeps.after (State.readOn_keeps ..)
        | fail_if_no_progress refine Keeps.mk' ?_ rfl rfl rfl rfl rfl rfl)
    | split
    | intro _
    | extract_lets
    | (dsimp +zetaDelta only; split)

theorem State.reapRead_keeps (w : Nat) (s : State) (e : Nat × DrvCmd) :
    Keeps s (State.reapRead w s e) := by
  unfold State.reapRead
  extract_lets v1 v2 v3 _ _ v4 v5
  repeat' first
    | (with_reducible first
        | assumption
        | exact .refl _
        | apply Keeps.ite
        | apply Keeps.ite2
        | apply Keeps.ite1
        | apply Keeps.after (State.updWb_keeps ..)
        | apply Keeps.after (State.setCmd_keeps ..)
        | apply Keeps.after (State.stamp_keeps ..)
        | apply Keeps.after (State.stampFirst_keeps ..)
        | fail_if_no_progress refine Keeps.mk' ?_ rfl rfl rfl rfl rfl rfl)
    | split
    | unfold v1
    | unfold v2
    | unfold v3
    | unfold v4
    | unfold v5
    | intro _
    | extract_lets
    | (dsimp +zetaDelta only; split)

theorem State.drvReap_keeps (it : Item) (s : State) :
    Keeps s (State.drvReap it s) := by
  unfold State.drvReap
  repeat' first
    | (with_reducible first
        | assumption
        | exact .refl _
        | apply Keeps.ite
        | apply Keeps.after (State.endItem_keeps ..)
        | apply Keeps.after (State.toReap_keeps ..)
        | apply Keeps.after (State.reapWorkItem_keeps ..)
        | apply Keeps.after (State.cutOff_keeps ..)
        | apply Keeps.after (State.readOn_keeps ..)
        | apply Keeps.after (State.reapRead_keeps ..)
        | fail_if_no_progress refine Keeps.mk' ?_ rfl rfl rfl rfl rfl rfl
        | apply Keeps.foldl
        | apply Keeps.foldlPair)
    | split
    | intro _
    | extract_lets
    | (dsimp +zetaDelta only; split)

theorem State.forgetCipher_keeps (s : State) (w : Nat) :
    Keeps s (State.forgetCipher s w) := by
  unfold State.forgetCipher
  repeat' first
    | (with_reducible first
        | assumption
        | exact .refl _
        | apply Keeps.ite
        | apply Keeps.ite2
        | apply Keeps.ite1
        | fail_if_no_progress refine Keeps.mk' ?_ rfl rfl rfl rfl rfl rfl
        | apply Keeps.foldl
        | apply Keeps.foldlPair)
    | split
    | intro _
    | extract_lets
    | (dsimp +zetaDelta only; split)

theorem State.piCheck_keeps (it : Item) (s : State) :
    Keeps s (State.piCheck it s) := by
  unfold State.piCheck
  repeat' first
    | (with_reducible first
        | assumption
        | exact .refl _
        | apply Keeps.ite
        | apply Keeps.ite2
        | apply Keeps.ite1
        | apply Keeps.after (State.updWb_keeps ..)
        | apply Keeps.after (State.postCipher_keeps ..)
        | apply Keeps.after (State.stampFirst_keeps ..)
        | apply Keeps.after (State.onWb_keeps ..)
        | apply Keeps.after (State.forgetCipher_keeps ..)
        | apply Keeps.after (State.cacheFill_keeps ..)
        | apply Keeps.after (State.xferArm_keeps ..)
        | apply Keeps.after (State.cntCip_keeps ..)
        | apply Keeps.after (State.raise_keeps ..)
        | apply Keeps.after (State.advance_keeps ..)
        | fail_if_no_progress refine Keeps.mk' ?_ rfl rfl rfl rfl rfl rfl
        | apply Keeps.foldl
        | apply Keeps.foldlPair)
    | split
    | intro _
    | extract_lets
    | (dsimp +zetaDelta only; split)

theorem execPiCheck_keeps (k : Fin 12) (c : Fin 256) (s : State) :
    OKeeps s (execPiCheck k c s) := by
  unfold execPiCheck
  repeat' first
    | (with_reducible first
        | assumption
        | exact .refl _
        | apply OKeeps.next
        | apply OKeeps.ite
        | apply Keeps.ite
        | apply Keeps.after (State.run_keeps (hbody := ?_) ..)
        | apply Keeps.after (State.piCheck_keeps ..)
        | fail_if_no_progress refine Keeps.mk' ?_ rfl rfl rfl rfl rfl rfl)
    | intro _

theorem State.countUnits_keeps (s : State) (V : Vol) (enc : Bool) (n : Nat) :
    Keeps s (State.countUnits s V enc n) := by
  unfold State.countUnits
  repeat' first
    | (with_reducible first
        | assumption
        | exact .refl _
        | apply Keeps.ite
        | apply Keeps.after (State.cntCip_keeps ..)
        | fail_if_no_progress refine Keeps.mk' ?_ rfl rfl rfl rfl rfl rfl)
    | intro _

theorem State.wakeTo_keeps (s : State) (w code at_ : Nat) :
    Keeps s (State.wakeTo s w code at_) := by
  exact State.wakeItems_keeps ..

theorem State.cipherWrite_keeps (s : State) (kp : Option KeyPair) (w inv at_ : Nat) :
    Keeps s (State.cipherWrite s kp w inv at_) := by
  unfold State.cipherWrite
  repeat' first
    | (with_reducible first
        | assumption
        | exact .refl _
        | apply Keeps.ite
        | apply Keeps.ite2
        | apply Keeps.ite1
        | apply Keeps.after (State.updWb_keeps ..)
        | apply Keeps.after (State.stamp_keeps ..)
        | apply Keeps.after (State.countUnits_keeps ..)
        | apply Keeps.after (State.wakeTo_keeps ..)
        | apply Keeps.after (State.cacheFill_keeps ..)
        | apply Keeps.after (State.xferArm_keeps ..)
        | apply Keeps.after (State.cntChk_keeps ..)
        | fail_if_no_progress refine Keeps.mk' ?_ rfl rfl rfl rfl rfl rfl
        | apply Keeps.foldl
        | apply Keeps.foldlPair)
    | split
    | intro _
    | extract_lets
    | (dsimp +zetaDelta only; split)

theorem State.poisonLine_keeps (s : State) (v t : Nat) :
    Keeps s (State.poisonLine s v t) := by
  unfold State.poisonLine
  extract_lets s1
  have hs1 : Keeps s s1 := by
    unfold s1
    repeat' first
      | (with_reducible first
          | assumption
          | exact .refl _
          | apply Keeps.ite
          | apply Keeps.after (State.raise_keeps ..)
          | apply Keeps.after (State.setLine_keeps ..)
          | fail_if_no_progress refine Keeps.mk' ?_ rfl rfl rfl rfl rfl rfl)
      | split
      | intro _
      | extract_lets
      | (dsimp +zetaDelta only; split)
  repeat' first
    | (with_reducible first
        | assumption
        | exact .refl _
        | apply Keeps.ite
        | apply Keeps.after (State.raise_keeps ..)
        | apply Keeps.after (State.setLine_keeps ..)
        | fail_if_no_progress refine Keeps.mk' ?_ rfl rfl rfl rfl rfl rfl)
    | split
    | intro _
    | extract_lets
    | (dsimp +zetaDelta only; split)

theorem State.evictLine_keeps (s : State) (v t : Nat) :
    Keeps s (State.evictLine s v t) := by
  unfold State.evictLine
  repeat' first
    | (with_reducible first
        | assumption
        | exact .refl _
        | apply Keeps.ite
        | apply Keeps.after (State.setLine_keeps ..)
        | fail_if_no_progress refine Keeps.mk' ?_ rfl rfl rfl rfl rfl rfl)
    | split
    | intro _
    | extract_lets
    | (dsimp +zetaDelta only; split)

theorem State.readDigests_keeps (s : State) (w : Nat) (outs : List (Nat × BlkOut × Bool)) :
    Keeps s (State.readDigests s w outs) := by
  unfold State.readDigests
  extract_lets v1 v2 v3 s1 v4
  have hs1 : Keeps s s1 := by
    unfold s1
    repeat' first
      | (with_reducible first
          | assumption
          | exact .refl _
          | apply Keeps.ite
          | apply Keeps.ite2
          | apply Keeps.ite1
          | apply Keeps.after (State.entry_keeps ..)
          | apply Keeps.after (State.digest_keeps ..)
          | fail_if_no_progress refine Keeps.mk' ?_ rfl rfl rfl rfl rfl rfl
          | apply Keeps.foldl
          | apply Keeps.foldlPair)
      | split
      | unfold v1
      | unfold v2
      | unfold v3
      | unfold v4
      | intro _
      | extract_lets
      | (dsimp +zetaDelta only; split)
  repeat' first
    | (with_reducible first
        | assumption
        | exact .refl _
        | apply Keeps.ite
        | apply Keeps.ite2
        | apply Keeps.ite1
        | apply Keeps.after (State.entry_keeps ..)
        | apply Keeps.after (State.digest_keeps ..)
        | fail_if_no_progress refine Keeps.mk' ?_ rfl rfl rfl rfl rfl rfl
        | apply Keeps.foldl
        | apply Keeps.foldlPair)
    | split
    | unfold v1
    | unfold v2
    | unfold v3
    | unfold v4
    | intro _
    | extract_lets
    | (dsimp +zetaDelta only; split)

theorem State.cipherRead_keeps (s : State) (kp : Option KeyPair) (w inv at_ : Nat) :
    Keeps s (State.cipherRead s kp w inv at_) := by
  unfold State.cipherRead
  repeat' first
    | (with_reducible first
        | assumption
        | exact .refl _
        | apply Keeps.ite
        | apply Keeps.ite2
        | apply Keeps.ite1
        | apply Keeps.after (State.updWb_keeps ..)
        | apply Keeps.after (State.stamp_keeps ..)
        | apply Keeps.after (State.drvSubmit_keeps ..)
        | apply Keeps.after (State.countUnits_keeps ..)
        | apply Keeps.after (State.wakeTo_keeps ..)
        | apply Keeps.after (State.poisonLine_keeps ..)
        | apply Keeps.after (State.evictLine_keeps ..)
        | apply Keeps.after (State.readDigests_keeps ..)
        | apply Keeps.after (State.xferArm_keeps ..)
        | apply Keeps.after (State.updPool_keeps ..)
        | apply Keeps.after (State.evict_keeps ..)
        | apply Keeps.after (State.cntLay_keeps ..)
        | apply Keeps.after (State.cntChk_keeps ..)
        | fail_if_no_progress refine Keeps.mk' ?_ rfl rfl rfl rfl rfl rfl
        | apply Keeps.foldl
        | apply Keeps.foldlPair)
    | split
    | intro _
    | extract_lets
    | (dsimp +zetaDelta only; split)

theorem State.cipherDone_keeps (s : State) (k : Nat) :
    Keeps s (State.cipherDone s k) := by
  unfold State.cipherDone
  repeat' first
    | (with_reducible first
        | assumption
        | exact .refl _
        | apply Keeps.ite
        | apply Keeps.ite2
        | apply Keeps.ite1
        | apply Keeps.after (State.dropCipher_keeps ..)
        | apply Keeps.after (State.countUnits_keeps ..)
        | apply Keeps.after (State.cipherWrite_keeps ..)
        | apply Keeps.after (State.cipherRead_keeps ..)
        | apply Keeps.after (State.wakeRef_keeps ..)
        | fail_if_no_progress refine Keeps.mk' ?_ rfl rfl rfl rfl rfl rfl
        | apply Keeps.foldl
        | apply Keeps.foldlPair)
    | split
    | intro _
    | extract_lets
    | (dsimp +zetaDelta only; split)

theorem execCipherRequestComplete_keeps (k : Fin 12) (s : State) :
    OKeeps s (execCipherRequestComplete k s) := by
  unfold execCipherRequestComplete
  repeat' first
    | (with_reducible first
        | assumption
        | exact .refl _
        | apply OKeeps.next
        | apply OKeeps.ite
        | apply Keeps.ite
        | apply Keeps.after (State.cipherDone_keeps ..)
        | fail_if_no_progress refine Keeps.mk' ?_ rfl rfl rfl rfl rfl rfl)
    | intro _

theorem State.allocLine_keeps (s : State) (v t : Nat) :
    Keeps s (State.allocLine s v t) := by
  unfold State.allocLine
  extract_lets _ v1
  repeat' first
    | (with_reducible first
        | assumption
        | exact .refl _
        | apply Keeps.ite
        | apply Keeps.ite2
        | apply Keeps.ite1
        | apply Keeps.after (State.setLine_keeps ..)
        | refine Keeps.trans ?_ (.pair (by assumption) (State.freeSlot_keeps ..))
        | apply Keeps.after (State.freeSlot_keeps ..)
        | fail_if_no_progress refine Keeps.mk' ?_ rfl rfl rfl rfl rfl rfl)
    | split
    | unfold v1
    | intro _
    | extract_lets
    | (dsimp +zetaDelta only; split)

theorem State.fillPart_keeps (wt : Bool) (v : Nat) (s : State) (u : UnitPart) :
    Keeps s (State.fillPart wt v s u) := by
  unfold State.fillPart
  extract_lets s1
  have hs1 : Keeps s s1 := by
    unfold s1
    repeat' first
      | (with_reducible first
          | assumption
          | exact .refl _
          | apply Keeps.ite
          | apply Keeps.ite1
          | apply Keeps.after (State.setLine_keeps ..)
          | apply Keeps.after (State.addDirty_keeps ..)
          | apply Keeps.after (State.allocLine_keeps ..)
          | fail_if_no_progress refine Keeps.mk' ?_ rfl rfl rfl rfl rfl rfl)
      | split
      | intro _
      | extract_lets
      | (dsimp +zetaDelta only; split)
  repeat' first
    | (with_reducible first
        | assumption
        | exact .refl _
        | apply Keeps.ite
        | apply Keeps.ite1
        | apply Keeps.after (State.setLine_keeps ..)
        | apply Keeps.after (State.addDirty_keeps ..)
        | apply Keeps.after (State.allocLine_keeps ..)
        | fail_if_no_progress refine Keeps.mk' ?_ rfl rfl rfl rfl rfl rfl)
    | split
    | intro _
    | extract_lets
    | (dsimp +zetaDelta only; split)

theorem State.cacheFill_keeps (it : Item) (s : State) :
    Keeps s (State.cacheFill it s) := by
  unfold State.cacheFill
  repeat' first
    | (with_reducible first
        | assumption
        | exact .refl _
        | apply Keeps.ite
        | apply Keeps.ite2
        | apply Keeps.ite1
        | apply Keeps.after (State.updWb_keeps ..)
        | apply Keeps.after (State.freeAll_keeps ..)
        | apply Keeps.after (State.stamp_keeps ..)
        | apply Keeps.after (State.onWb_keeps ..)
        | apply Keeps.after (State.allocLine_keeps ..)
        | apply Keeps.after (State.fillPart_keeps ..)
        | apply Keeps.after (State.xferArm_keeps ..)
        | apply Keeps.after (State.lane_keeps ..)
        | apply Keeps.after (State.advance_keeps ..)
        | fail_if_no_progress refine Keeps.mk' ?_ rfl rfl rfl rfl rfl rfl
        | apply Keeps.foldl
        | apply Keeps.foldlPair)
    | split
    | intro _
    | extract_lets
    | (dsimp +zetaDelta only; split)

theorem execCacheFill_keeps (k : Fin 12) (c : Fin 256) (s : State) :
    OKeeps s (execCacheFill k c s) := by
  unfold execCacheFill
  repeat' first
    | (with_reducible first
        | assumption
        | exact .refl _
        | apply OKeeps.next
        | apply OKeeps.ite
        | apply Keeps.ite
        | apply Keeps.after (State.run_keeps (hbody := ?_) ..)
        | apply Keeps.after (State.cacheFill_keeps ..)
        | fail_if_no_progress refine Keeps.mk' ?_ rfl rfl rfl rfl rfl rfl)
    | intro _

theorem State.durableSeam_keeps (s : State) :
    Keeps s (State.durableSeam s) := by
  unfold State.durableSeam
  repeat' first
    | (with_reducible first
        | assumption
        | exact .refl _
        | apply Keeps.ite
        | apply Keeps.after (State.wakeWb_keeps ..)
        | apply Keeps.after (State.stampFirst_keeps ..)
        | fail_if_no_progress refine Keeps.mk' ?_ rfl rfl rfl rfl rfl rfl
        | apply Keeps.foldl
        | apply Keeps.foldlPair)
    | intro _
    | extract_lets

theorem State.finishWb_keeps (s : State) (it : Item) (w : Nat) :
    Keeps s (State.finishWb s it w) := by
  unfold State.finishWb
  extract_lets v1 s1 s2
  have hs1 : Keeps s s1 := by
    unfold s1
    repeat' first
      | (with_reducible first
          | assumption
          | exact .refl _
          | apply Keeps.ite
          | apply Keeps.after (State.digest_keeps ..)
          | apply Keeps.after (State.updWb_keeps ..)
          | apply Keeps.after (State.advance_keeps ..)
          | apply Keeps.after (State.updQp_keeps ..)
          | apply Keeps.after (State.sendCqe_keeps ..)
          | apply Keeps.after (State.stamp_keeps ..)
          | apply Keeps.after (State.cplRetire_keeps ..)
          | fail_if_no_progress refine Keeps.mk' ?_ rfl rfl rfl rfl rfl rfl)
      | split
      | unfold v1
      | intro _
      | extract_lets
      | (dsimp +zetaDelta only; split)
  have hs2 : Keeps s s2 := by
    unfold s2
    repeat' first
      | (with_reducible first
          | assumption
          | exact .refl _
          | apply Keeps.ite
          | apply Keeps.after (State.digest_keeps ..)
          | apply Keeps.after (State.updWb_keeps ..)
          | apply Keeps.after (State.advance_keeps ..)
          | apply Keeps.after (State.updQp_keeps ..)
          | apply Keeps.after (State.sendCqe_keeps ..)
          | apply Keeps.after (State.stamp_keeps ..)
          | apply Keeps.after (State.cplRetire_keeps ..)
          | fail_if_no_progress refine Keeps.mk' ?_ rfl rfl rfl rfl rfl rfl)
      | split
      | unfold v1
      | intro _
      | extract_lets
      | (dsimp +zetaDelta only; split)
  repeat' first
    | (with_reducible first
        | assumption
        | exact .refl _
        | apply Keeps.ite
        | apply Keeps.after (State.digest_keeps ..)
        | apply Keeps.after (State.updWb_keeps ..)
        | apply Keeps.after (State.advance_keeps ..)
        | apply Keeps.after (State.updQp_keeps ..)
        | apply Keeps.after (State.sendCqe_keeps ..)
        | apply Keeps.after (State.stamp_keeps ..)
        | apply Keeps.after (State.cplRetire_keeps ..)
        | fail_if_no_progress refine Keeps.mk' ?_ rfl rfl rfl rfl rfl rfl)
    | split
    | unfold v1
    | intro _
    | extract_lets
    | (dsimp +zetaDelta only; split)

theorem State.armData_keeps (s : State) (w off : Nat) (data : List Byte) :
    Keeps s (State.armData s w off data) := by
  unfold State.armData
  extract_lets v1
  repeat' first
    | (with_reducible first
        | assumption
        | exact .refl _
        | apply Keeps.ite
        | apply Keeps.after (State.updWb_keeps ..)
        | apply Keeps.after (State.armMsg_keeps ..)
        | fail_if_no_progress refine Keeps.mk' ?_ rfl rfl rfl rfl rfl rfl)
    | split
    | unfold v1
    | intro _
    | extract_lets
    | (dsimp +zetaDelta only; split)

theorem State.armRead_keeps (s : State) (w off n : Nat) :
    Keeps s (State.armRead s w off n) := by
  unfold State.armRead
  repeat' first
    | (with_reducible first
        | assumption
        | exact .refl _
        | apply Keeps.ite
        | apply Keeps.ite2
        | apply Keeps.ite1
        | apply Keeps.after (State.stampFirst_keeps ..)
        | apply Keeps.after (State.armMsg_keeps ..)
        | fail_if_no_progress refine Keeps.mk' ?_ rfl rfl rfl rfl rfl rfl
        | apply Keeps.foldl
        | apply Keeps.foldlPair)
    | split
    | intro _
    | extract_lets
    | (dsimp +zetaDelta only; split)

theorem State.armPayload_keeps (s : State) (it : Item) (w f : Nat) :
    Keeps s (State.armPayload s it w f) := by
  unfold State.armPayload
  extract_lets v1 v2 v3 s4
  have hs4 : Keeps s s4 := by
    unfold s4
    repeat' first
      | (with_reducible first
          | assumption
          | exact .refl _
          | apply Keeps.ite
          | apply Keeps.ite2
          | apply Keeps.ite1
          | apply Keeps.after (State.updWb_keeps ..)
          | apply Keeps.after (State.piCheck_keeps ..)
          | apply Keeps.after (State.armRead_keeps ..)
          | apply Keeps.after (State.xferArm_keeps ..)
          | apply Keeps.after (State.advance_keeps ..)
          | fail_if_no_progress refine Keeps.mk' ?_ rfl rfl rfl rfl rfl rfl
          | apply Keeps.foldl
          | apply Keeps.foldlPair)
      | split
      | intro _
      | extract_lets
      | (dsimp +zetaDelta only; split)
  repeat' first
    | (with_reducible first
        | assumption
        | exact .refl _
        | apply Keeps.ite
        | apply Keeps.ite2
        | apply Keeps.ite1
        | apply Keeps.after (State.updWb_keeps ..)
        | apply Keeps.after (State.piCheck_keeps ..)
        | apply Keeps.after (State.armRead_keeps ..)
        | apply Keeps.after (State.xferArm_keeps ..)
        | apply Keeps.after (State.advance_keeps ..)
        | fail_if_no_progress refine Keeps.mk' ?_ rfl rfl rfl rfl rfl rfl
        | apply Keeps.foldl
        | apply Keeps.foldlPair)
    | split
    | intro _
    | extract_lets
    | (dsimp +zetaDelta only; split)

theorem State.xferArm_keeps (it : Item) (s : State) :
    Keeps s (State.xferArm it s) := by
  unfold State.xferArm
  repeat' first
    | (with_reducible first
        | assumption
        | exact .refl _
        | apply Keeps.ite
        | apply Keeps.ite2
        | apply Keeps.ite1
        | apply Keeps.after (State.updWb_keeps ..)
        | apply Keeps.after (State.adminStep_keeps ..)
        | apply Keeps.after (State.armAnswer_keeps ..)
        | apply Keeps.after (State.cutOff_keeps ..)
        | apply Keeps.after (State.cplRetire_keeps ..)
        | apply Keeps.after (State.piCheck_keeps ..)
        | apply Keeps.after (State.finishWb_keeps ..)
        | apply Keeps.after (State.armData_keeps ..)
        | apply Keeps.after (State.armRead_keeps ..)
        | apply Keeps.after (State.armPayload_keeps ..)
        | apply Keeps.after (State.advance_keeps ..)
        | apply Keeps.after (State.endItem_keeps ..)
        | apply Keeps.after (State.releaseRef_keeps ..)
        | apply Keeps.after (State.toReap_keeps ..)
        | fail_if_no_progress refine Keeps.mk' ?_ rfl rfl rfl rfl rfl rfl
        | apply Keeps.foldl
        | apply Keeps.foldlPair)
    | split
    | intro _
    | extract_lets
    | (dsimp +zetaDelta only; split)

theorem execXferArm_keeps (k : Fin 12) (c : Fin 256) (s : State) :
    OKeeps s (execXferArm k c s) := by
  unfold execXferArm
  repeat' first
    | (with_reducible first
        | assumption
        | exact .refl _
        | apply OKeeps.next
        | apply OKeeps.ite
        | apply Keeps.ite
        | apply Keeps.after (State.run_keeps (hbody := ?_) ..)
        | apply Keeps.after (State.xferArm_keeps ..)
        | fail_if_no_progress refine Keeps.mk' ?_ rfl rfl rfl rfl rfl rfl)
    | intro _

theorem State.repairSeam_keeps (s : State) (p : Nat) :
    Keeps s (State.repairSeam s p) := by
  unfold State.repairSeam
  repeat' first
    | (with_reducible first
        | assumption
        | exact .refl _
        | apply Keeps.ite
        | apply Keeps.ite2
        | apply Keeps.ite1
        | apply Keeps.after (State.updPool_keeps ..)
        | apply Keeps.after (State.newWork_keeps ..)
        | apply Keeps.after (State.parityPlan_keeps ..)
        | fail_if_no_progress refine Keeps.mk' ?_ rfl rfl rfl rfl rfl rfl
        | apply Keeps.foldl
        | apply Keeps.foldlPair)
    | intro _
    | extract_lets

end Sys2Proof.Machine
end

