-- ==== Sys2Proof/Laws/KeepHostIf.lean ====
section
/-!
SUPPORT. What the operations of Machine/HostIf.lean keep (Laws/Keep.lean).
-/

namespace Sys2Proof.Machine

open Sys2Proof

theorem State.ringEnable_keeps (s : State) (k : Nat) :
    Keeps s (State.ringEnable s k) := by
  unfold State.ringEnable
  extract_lets _ s1 _
  have hs1 : Keeps s s1 := by
    unfold s1
    repeat' first
      | (with_reducible first
          | assumption
          | exact .refl _
          | apply Keeps.ite
          | apply Keeps.after (State.wrReg_keeps ..)
          | apply Keeps.after (State.setFld_keeps ..)
          | apply Keeps.after (State.setRing_keeps ..)
          | apply Keeps.after (State.setRingState_keeps ..))
  repeat' first
    | (with_reducible first
        | assumption
        | exact .refl _
        | apply Keeps.ite
        | apply Keeps.after (State.wrReg_keeps ..)
        | apply Keeps.after (State.setFld_keeps ..)
        | apply Keeps.after (State.setRing_keeps ..))

theorem State.ctlEnable_keeps (s : State) (k : Nat) (w : Word) :
    Keeps s (State.ctlEnable s k w) := by
  unfold State.ctlEnable
  extract_lets _ s1
  have hs1 : Keeps s s1 := by
    unfold s1
    repeat' first
      | (with_reducible first
          | assumption
          | exact .refl _
          | apply Keeps.ite
          | apply Keeps.after (State.regWrite_keeps ..))
  repeat' first
    | (with_reducible first
        | assumption
        | exact .refl _
        | apply Keeps.ite
        | apply Keeps.after (State.regWrite_keeps ..)
        | apply Keeps.after (State.ringEnable_keeps ..))

theorem execRingCtlEnable_keeps (k : Fin 64) (w : Word) (s : State) :
    OKeeps s (execRingCtlEnable k w s) := by
  unfold execRingCtlEnable
  repeat' first
    | (with_reducible first
        | assumption
        | exact .refl _
        | apply OKeeps.next
        | apply OKeeps.ite
        | apply Keeps.ite
        | apply Keeps.after (State.irqCheck_keeps ..)
        | apply Keeps.after (State.hostWrite_keeps (hf := ?_) ..)
        | apply Keeps.after (State.ctlEnable_keeps ..)
        | fail_if_no_progress refine Keeps.mk' ?_ rfl rfl rfl rfl rfl rfl)
    | intro _

theorem State.owedReports_keeps (s : State) :
    Keeps s (State.owedReports s) := by
  unfold State.owedReports
  extract_lets v1 v2 s1 v3
  have hs1 : Keeps s s1 := by
    unfold s1
    repeat' first
      | (with_reducible first
          | assumption
          | exact .refl _
          | apply Keeps.ite
          | apply Keeps.ite2
          | apply Keeps.ite1
          | apply Keeps.after (State.raise_keeps ..)
          | fail_if_no_progress refine Keeps.mk' ?_ rfl rfl rfl rfl rfl rfl)
  repeat' first
    | (with_reducible first
        | assumption
        | exact .refl _
        | apply Keeps.ite
        | apply Keeps.ite2
        | apply Keeps.ite1
        | apply Keeps.after (State.raise_keeps ..)
        | fail_if_no_progress refine Keeps.mk' ?_ rfl rfl rfl rfl rfl rfl)
    | split

theorem State.evtCtlEnable_keeps (w : Word) (s : State) :
    Keeps s (State.evtCtlEnable w s) := by
  unfold State.evtCtlEnable
  extract_lets _ s1
  have hs1 : Keeps s s1 := by
    unfold s1
    repeat' first
      | (with_reducible first
          | assumption
          | exact .refl _
          | apply Keeps.ite
          | apply Keeps.after (State.irqCheck_keeps ..)
          | apply Keeps.after (State.drainEvents_keeps ..)
          | apply Keeps.after (State.ctlEnable_keeps ..))
  repeat' first
    | (with_reducible first
        | assumption
        | exact .refl _
        | apply Keeps.ite
        | apply Keeps.after (State.irqCheck_keeps ..)
        | apply Keeps.after (State.drainEvents_keeps ..)
        | apply Keeps.after (State.ctlEnable_keeps ..)
        | apply Keeps.after (State.owedReports_keeps ..))

theorem execRingEvtCtlEnable_keeps (w : Word) (s : State) :
    OKeeps s (execRingEvtCtlEnable w s) := by
  unfold execRingEvtCtlEnable
  repeat' first
    | (with_reducible first
        | assumption
        | exact .refl _
        | apply OKeeps.next
        | apply OKeeps.ite
        | apply Keeps.ite
        | apply Keeps.after (State.hostWrite_keeps (hf := ?_) ..)
        | apply Keeps.after (State.evtCtlEnable_keeps ..)
        | fail_if_no_progress refine Keeps.mk' ?_ rfl rfl rfl rfl rfl rfl)
    | intro _

theorem State.ctlDisable_keeps (s : State) (k : Nat) (w : Word) :
    Keeps s (State.ctlDisable s k w) := by
  unfold State.ctlDisable
  extract_lets _ s1 _
  have hs1 : Keeps s s1 := by
    unfold s1
    repeat' first
      | (with_reducible first
          | assumption
          | exact .refl _
          | apply Keeps.ite
          | apply Keeps.after (State.setFld_keeps ..)
          | apply Keeps.after (State.setRing_keeps ..)
          | apply Keeps.after (State.regWrite_keeps ..))
  repeat' first
    | (with_reducible first
        | assumption
        | exact .refl _
        | apply Keeps.ite
        | apply Keeps.after (State.setFld_keeps ..)
        | apply Keeps.after (State.setRing_keeps ..))

theorem execRingCtlDisable_keeps (k : Fin 64) (w : Word) (s : State) :
    OKeeps s (execRingCtlDisable k w s) := by
  unfold execRingCtlDisable
  repeat' first
    | (with_reducible first
        | assumption
        | exact .refl _
        | apply OKeeps.next
        | apply OKeeps.ite
        | apply Keeps.ite
        | apply Keeps.ite2
        | apply Keeps.ite1
        | apply Keeps.after (State.ctlDisable_keeps ..)
        | apply Keeps.after (State.irqCheck_keeps ..)
        | apply Keeps.after (State.hostWrite_keeps ..)
        | fail_if_no_progress refine Keeps.mk' ?_ rfl rfl rfl rfl rfl rfl
        | apply Keeps.foldl
        | apply Keeps.foldlPair)
    | split
    | intro _
    | extract_lets
    | (dsimp +zetaDelta only; split)

theorem execRingEvtCtlDisable_keeps (w : Word) (s : State) :
    OKeeps s (execRingEvtCtlDisable w s) := by
  unfold execRingEvtCtlDisable
  repeat' first
    | (with_reducible first
        | assumption
        | exact .refl _
        | apply OKeeps.next
        | apply OKeeps.ite
        | apply Keeps.ite
        | apply Keeps.ite2
        | apply Keeps.ite1
        | apply Keeps.after (State.ctlDisable_keeps ..)
        | apply Keeps.after (State.irqCheck_keeps ..)
        | apply Keeps.after (State.settleRing_keeps ..)
        | apply Keeps.after (State.hostWrite_keeps ..)
        | fail_if_no_progress refine Keeps.mk' ?_ rfl rfl rfl rfl rfl rfl
        | apply Keeps.foldl
        | apply Keeps.foldlPair)
    | split
    | intro _
    | extract_lets
    | (dsimp +zetaDelta only; split)

theorem execRingDisableDrained_keeps (k : Fin 64) (s : State) :
    OKeeps s (execRingDisableDrained k s) := by
  unfold execRingDisableDrained
  repeat' first
    | (with_reducible first
        | assumption
        | exact .refl _
        | apply OKeeps.next
        | apply OKeeps.ite
        | apply Keeps.ite
        | apply Keeps.after (State.settleRing_keeps ..))

theorem State.cmdDoorbell_keeps (s : State) (k v : Nat) :
    Keeps s (State.cmdDoorbell s k v) := by
  unfold State.cmdDoorbell
  extract_lets _
  repeat' first
    | (with_reducible first
        | assumption
        | exact .refl _
        | apply Keeps.ite
        | apply Keeps.after (State.setRing_keeps ..)
        | apply Keeps.after (State.ringToError_keeps ..))

theorem execCommandDoorbell_keeps (k : Fin 64) (v : Word) (s : State) :
    OKeeps s (execCommandDoorbell k v s) := by
  unfold execCommandDoorbell
  repeat' first
    | (with_reducible first
        | assumption
        | exact .refl _
        | apply OKeeps.next
        | apply OKeeps.ite
        | apply Keeps.ite
        | apply Keeps.after (State.hostWrite_keeps (hf := ?_) ..)
        | apply Keeps.after (State.cmdDoorbell_keeps ..)
        | fail_if_no_progress refine Keeps.mk' ?_ rfl rfl rfl rfl rfl rfl)
    | intro _

theorem State.consDoorbell_keeps (s : State) (k page v : Nat) :
    Keeps s (State.consDoorbell s k page v) := by
  unfold State.consDoorbell
  extract_lets _ _ _
  repeat' first
    | (with_reducible first
        | assumption
        | exact .refl _
        | apply Keeps.ite
        | apply Keeps.after (State.setRing_keeps ..)
        | apply Keeps.after (State.irqCheck_keeps ..)
        | apply Keeps.after (State.ringToError_keeps ..))

theorem execCompletionDoorbell_keeps (k : Fin 64) (v : Word) (s : State) :
    OKeeps s (execCompletionDoorbell k v s) := by
  unfold execCompletionDoorbell
  repeat' first
    | (with_reducible first
        | assumption
        | exact .refl _
        | apply OKeeps.next
        | apply OKeeps.ite
        | apply Keeps.ite
        | apply Keeps.after (State.hostWrite_keeps (hf := ?_) ..)
        | apply Keeps.after (State.consDoorbell_keeps ..)
        | fail_if_no_progress refine Keeps.mk' ?_ rfl rfl rfl rfl rfl rfl)
    | intro _

theorem execEventDoorbell_keeps (v : Word) (s : State) :
    OKeeps s (execEventDoorbell v s) := by
  unfold execEventDoorbell
  repeat' first
    | (with_reducible first
        | assumption
        | exact .refl _
        | apply OKeeps.next
        | apply OKeeps.ite
        | apply Keeps.ite
        | apply Keeps.after (State.drainEvents_keeps ..)
        | apply Keeps.after (State.hostWrite_keeps (hf := ?_) ..)
        | apply Keeps.after (State.consDoorbell_keeps ..)
        | fail_if_no_progress refine Keeps.mk' ?_ rfl rfl rfl rfl rfl rfl)
    | intro _

theorem State.takeTurn_keeps (s : State) (k : Nat) :
    Keeps s (State.takeTurn s k) := by
  unfold State.takeTurn
  repeat' first
    | (with_reducible first
        | assumption
        | exact .refl _
        | apply Keeps.ite
        | apply Keeps.ite2
        | apply Keeps.ite1
        | fail_if_no_progress refine Keeps.mk' ?_ rfl rfl rfl rfl rfl rfl
        | apply Keeps.foldl
        | apply Keeps.foldlPair)
    | split
    | intro _
    | extract_lets
    | (dsimp +zetaDelta only; split)

theorem State.backoff_keeps (s : State) :
    Keeps s (State.backoff s).2 := by
  unfold State.backoff
  repeat' first
    | (with_reducible first
        | assumption
        | exact .refl _
        | apply Keeps.ite
        | apply Keeps.ite2
        | refine Keeps.trans ?_ (.pair (by assumption) (State.draw_keeps ..))
        | apply Keeps.after (State.draw_keeps ..))

theorem State.busy_keeps (s : State) (d : Desc) :
    Keeps s (State.busy s d) := by
  unfold State.busy
  repeat' first
    | (with_reducible first
        | assumption
        | exact .refl _
        | apply Keeps.ite
        | apply Keeps.after (State.complete_keeps ..)
        | refine Keeps.trans ?_ (.pair (by assumption) (State.backoff_keeps ..))
        | apply Keeps.after (State.backoff_keeps ..))

theorem State.fetch_keeps (s : State) (k : Nat) (bytes : List Byte) :
    Keeps s (State.fetch s k bytes) := by
  unfold State.fetch
  repeat' first
    | (with_reducible first
        | assumption
        | exact .refl _
        | apply Keeps.ite
        | apply Keeps.ite2
        | apply Keeps.ite1
        | apply Keeps.after (State.takeTurn_keeps ..)
        | apply Keeps.after (State.busy_keeps ..)
        | apply Keeps.after (State.setFld_keeps ..)
        | apply Keeps.after (State.emit_keeps ..)
        | apply Keeps.after (State.setRing_keeps ..)
        | apply Keeps.after (State.done_keeps ..)
        | fail_if_no_progress refine Keeps.mk' ?_ rfl rfl rfl rfl rfl rfl
        | apply Keeps.foldl
        | apply Keeps.foldlPair)
    | split
    | intro _
    | extract_lets
    | (dsimp +zetaDelta only; split)

theorem execDescriptorFetch_keeps (k : Fin 64) (bytes : List Byte) (s : State) :
    OKeeps s (execDescriptorFetch k bytes s) := by
  unfold execDescriptorFetch
  repeat' first
    | (with_reducible first
        | assumption
        | exact .refl _
        | apply OKeeps.next
        | apply OKeeps.ite
        | apply Keeps.ite
        | apply Keeps.after (State.fetch_keeps ..))

theorem execNop_keeps (k : Fin 64) (bytes : List Byte) (s : State) :
    OKeeps s (execNop k bytes s) := by
  unfold execNop
  repeat' first
    | (with_reducible first
        | assumption
        | exact .refl _
        | apply OKeeps.next
        | apply OKeeps.ite
        | apply Keeps.ite
        | apply Keeps.after (State.fetch_keeps ..))

theorem execRingDmaErr_keeps (k : Fin 65) (addr : BitVec 64) (s : State) :
    OKeeps s (execRingDmaErr k addr s) := by
  unfold execRingDmaErr
  repeat' first
    | (with_reducible first
        | assumption
        | exact .refl _
        | apply OKeeps.next
        | apply OKeeps.ite
        | apply Keeps.ite
        | apply Keeps.after (State.ringToError_keeps ..))

theorem execMgtBusyRetry_keeps (s : State) :
    OKeeps s (execMgtBusyRetry s) := by
  unfold execMgtBusyRetry
  extract_lets v1
  repeat' first
    | (with_reducible first
        | assumption
        | exact .refl _
        | apply OKeeps.next
        | apply OKeeps.ite
        | apply Keeps.ite
        | apply Keeps.after (State.busy_keeps ..)
        | fail_if_no_progress refine Keeps.mk' ?_ rfl rfl rfl rfl rfl rfl)
    | split

theorem execMsixCoalesceTimeout_keeps (k : Fin 65) (s : State) :
    OKeeps s (execMsixCoalesceTimeout k s) := by
  unfold execMsixCoalesceTimeout
  extract_lets _ _
  repeat' first
    | (with_reducible first
        | assumption
        | exact .refl _
        | apply OKeeps.next
        | apply OKeeps.ite
        | apply Keeps.ite
        | apply Keeps.after (State.msix_keeps ..)
        | apply Keeps.after (State.setRing_keeps ..))

theorem State.stopRing_keeps (s : State) (k : Nat) :
    Keeps s (State.stopRing s k) := by
  unfold State.stopRing
  extract_lets _
  repeat' first
    | (with_reducible first
        | assumption
        | exact .refl _
        | apply Keeps.ite
        | apply Keeps.after (State.setRing_keeps ..)
        | apply Keeps.after (State.setRingState_keeps ..))

theorem State.stopRings_keeps (s : State) (kind : Nat) :
    Keeps s (State.stopRings s kind) := by
  unfold State.stopRings
  extract_lets _ s1
  have hs1 : Keeps s s1 := by
    unfold s1
    repeat' first
      | (with_reducible first
          | assumption
          | exact .refl _
          | apply Keeps.ite
          | apply Keeps.after (State.raise_keeps ..)
          | apply Keeps.after (State.stopRing_keeps ..)
          | fail_if_no_progress refine Keeps.mk' ?_ rfl rfl rfl rfl rfl rfl
          | apply Keeps.foldl
          | apply Keeps.foldlPair)
      | intro _
  repeat' first
    | (with_reducible first
        | assumption
        | exact .refl _
        | apply Keeps.ite
        | apply Keeps.after (State.raise_keeps ..))

theorem ringCreate_keeps (d : Desc) (s : State) :
    Keeps s (ringCreate d s) := by
  unfold ringCreate
  extract_lets _ _ _
  repeat' first
    | (with_reducible first
        | assumption
        | exact .refl _
        | apply Keeps.ite
        | apply Keeps.after (State.wrReg_keeps ..)
        | apply Keeps.after (State.setFld_keeps ..)
        | apply Keeps.after (State.done_keeps ..)
        | apply Keeps.after (State.checked_keeps (hok := ?_) ..)
        | apply Keeps.after (State.ringEnable_keeps ..)
        | fail_if_no_progress refine Keeps.mk' ?_ rfl rfl rfl rfl rfl rfl)
    | intro _

theorem execRingCreate_keeps (s : State) :
    OKeeps s (execRingCreate s) := by
  unfold execRingCreate
  repeat' first
    | (with_reducible first
        | assumption
        | exact .refl _
        | apply OKeeps.next
        | apply OKeeps.ite
        | apply Keeps.ite
        | apply Keeps.after (State.ringCmd_keeps (hbody := ?_) ..)
        | apply Keeps.after (ringCreate_keeps ..)
        | fail_if_no_progress refine Keeps.mk' ?_ rfl rfl rfl rfl rfl rfl)
    | intro _

theorem ringDelete_keeps (d : Desc) (s : State) :
    Keeps s (ringDelete d s) := by
  unfold ringDelete
  extract_lets _
  repeat' first
    | (with_reducible first
        | assumption
        | exact .refl _
        | apply Keeps.ite
        | apply Keeps.after (State.setRing_keeps ..)
        | apply Keeps.after (State.checked_keeps (hok := ?_) ..)
        | fail_if_no_progress refine Keeps.mk' ?_ rfl rfl rfl rfl rfl rfl)
    | intro _

theorem execRingDelete_keeps (s : State) :
    OKeeps s (execRingDelete s) := by
  unfold execRingDelete
  repeat' first
    | (with_reducible first
        | assumption
        | exact .refl _
        | apply OKeeps.next
        | apply OKeeps.ite
        | apply Keeps.ite
        | apply Keeps.after (State.ringCmd_keeps (hbody := ?_) ..)
        | apply Keeps.after (ringDelete_keeps ..)
        | fail_if_no_progress refine Keeps.mk' ?_ rfl rfl rfl rfl rfl rfl)
    | intro _

theorem State.setHost_keeps (s : State) (h : Nat) (e : HostEnt) :
    Keeps s (State.setHost s h e) := by
  unfold State.setHost
  extract_lets _
  repeat' first
    | (with_reducible first
        | assumption
        | exact .refl _
        | apply Keeps.ite
        | fail_if_no_progress refine Keeps.mk' ?_ rfl rfl rfl rfl rfl rfl)

theorem hostAdd_keeps (ok : Bool) (nqn : List Byte) (d : Desc) (s : State) :
    Keeps s (hostAdd ok nqn d s) := by
  unfold hostAdd
  extract_lets _ _
  repeat' first
    | (with_reducible first
        | assumption
        | exact .refl _
        | apply Keeps.ite
        | apply Keeps.ite2
        | apply Keeps.after (State.done_keeps ..)
        | apply Keeps.after (State.checked_keeps (hok := ?_) ..)
        | apply Keeps.after (State.setHost_keeps ..)
        | fail_if_no_progress refine Keeps.mk' ?_ rfl rfl rfl rfl rfl rfl)
    | intro _

theorem execHostAdd_keeps (ok : Bool) (nqn : List Byte) (s : State) :
    OKeeps s (execHostAdd ok nqn s) := by
  unfold execHostAdd
  repeat' first
    | (with_reducible first
        | assumption
        | exact .refl _
        | apply OKeeps.next
        | apply OKeeps.ite
        | apply Keeps.ite
        | apply Keeps.after (State.ringData_keeps (hbody := ?_) ..)
        | apply Keeps.after (hostAdd_keeps ..)
        | fail_if_no_progress refine Keeps.mk' ?_ rfl rfl rfl rfl rfl rfl)
    | intro _

end Sys2Proof.Machine
end

