-- ==== Sys2Proof/Laws/KeepAdmin.lean ====
section
/-!
SUPPORT. What the operations of Machine/Admin.lean keep (Laws/Keep.lean).
-/

namespace Sys2Proof.Machine

open Sys2Proof

theorem State.bindSeam_keeps (s : State) :
    Keeps s (State.bindSeam s) := by
  unfold State.bindSeam
  extract_lets v1 v2 v3
  repeat' first
    | (with_reducible first
        | assumption
        | exact .refl _
        | apply Keeps.ite
        | apply Keeps.after (State.raise_keeps ..)
        | apply Keeps.after (State.setCtrl_keeps ..)
        | apply Keeps.after (State.updQp_keeps ..)
        | fail_if_no_progress refine Keeps.mk' ?_ rfl rfl rfl rfl rfl rfl
        | apply Keeps.foldl
        | apply Keeps.foldlPair)
    | split
    | unfold v1
    | unfold v2
    | unfold v3
    | intro _

theorem State.endTest_keeps (s : State) (k result : Nat) :
    Keeps s (State.endTest s k result) := by
  unfold State.endTest
  repeat' first
    | (with_reducible first
        | assumption
        | exact .refl _
        | apply Keeps.ite
        | apply Keeps.after (State.raise_keeps ..)
        | apply Keeps.after (State.dropItems_keeps ..)
        | apply Keeps.after (State.updCtrl_keeps ..)
        | apply Keeps.after (State.dropWork_keeps ..)
        | apply Keeps.after (State.endAct_keeps ..)
        | apply Keeps.after (State.releaseRef_keeps ..)
        | fail_if_no_progress refine Keeps.mk' ?_ rfl rfl rfl rfl rfl rfl
        | apply Keeps.foldl
        | apply Keeps.foldlPair)
    | split
    | intro _

theorem State.selfTest_keeps (s : State) (k : Nat) (sqe : List Byte) :
    Keeps s (State.selfTest s k sqe).2 := by
  unfold State.selfTest
  extract_lets _ _ _
  repeat' first
    | (with_reducible first
        | assumption
        | exact .refl _
        | apply Keeps.ite
        | apply Keeps.ite2
        | apply Keeps.after (State.updCtrl_keeps ..)
        | apply Keeps.after (State.endTest_keeps ..))

theorem State.testSeam_keeps (s : State) :
    Keeps s (State.testSeam s) := by
  unfold State.testSeam
  repeat' first
    | (with_reducible first
        | assumption
        | exact .refl _
        | apply Keeps.ite
        | apply Keeps.ite2
        | apply Keeps.ite1
        | apply Keeps.after (State.done_keeps ..)
        | apply Keeps.after (State.updCtrl_keeps ..)
        | apply Keeps.after (State.updPool_keeps ..)
        | apply Keeps.after (State.newWork_keeps ..)
        | apply Keeps.after (State.endAct_keeps ..)
        | apply Keeps.after (State.busy_keeps ..)
        | apply Keeps.after (State.endTest_keeps ..)
        | apply Keeps.after (State.selftestStep_keeps ..)
        | fail_if_no_progress refine Keeps.mk' ?_ rfl rfl rfl rfl rfl rfl
        | apply Keeps.foldl
        | apply Keeps.foldlPair)
    | split
    | intro _

theorem State.shortStep_keeps (s : State) (it : Item) (w : Work) (k : Nat) :
    Keeps s (State.shortStep s it w k) := by
  unfold State.shortStep
  repeat' first
    | (with_reducible first
        | assumption
        | exact .refl _
        | apply Keeps.ite
        | apply Keeps.ite2
        | apply Keeps.ite1
        | apply Keeps.after (State.updCtrl_keeps ..)
        | apply Keeps.after (State.selftestStep_keeps ..)
        | apply Keeps.after (State.postCipher_keeps ..)
        | apply Keeps.after (State.updWork_keeps ..)
        | apply Keeps.after (State.lane_keeps ..)
        | apply Keeps.after (State.endWork_keeps ..)
        | apply Keeps.after (State.advance_keeps ..)
        | apply Keeps.after (State.postParity_keeps ..)
        | fail_if_no_progress refine Keeps.mk' ?_ rfl rfl rfl rfl rfl rfl
        | apply Keeps.foldl
        | apply Keeps.foldlPair)
    | split
    | intro _
    | extract_lets
    | (dsimp +zetaDelta only; split)

theorem State.testLeg_keeps (it : Item) (s : State) :
    Keeps s (State.testLeg it s) := by
  unfold State.testLeg
  repeat' first
    | (with_reducible first
        | assumption
        | exact .refl _
        | apply Keeps.ite
        | apply Keeps.ite2
        | apply Keeps.ite1
        | apply Keeps.after (State.updCtrl_keeps ..)
        | apply Keeps.after (State.shortStep_keeps ..)
        | apply Keeps.after (State.drvSubmit_keeps ..)
        | apply Keeps.after (State.updWork_keeps ..)
        | apply Keeps.after (State.lane_keeps ..)
        | apply Keeps.after (State.actDone_keeps ..)
        | apply Keeps.after (State.endWork_keeps ..)
        | apply Keeps.after (State.advance_keeps ..)
        | apply Keeps.after (State.endItem_keeps ..)
        | fail_if_no_progress refine Keeps.mk' ?_ rfl rfl rfl rfl rfl rfl
        | apply Keeps.foldl
        | apply Keeps.foldlPair)
    | split
    | intro _
    | extract_lets
    | (dsimp +zetaDelta only; split)

theorem State.beginTest_keeps (k : Nat) : StartKeeps (State.beginTest k) := by
  intro s p t h
  unfold State.beginTest at h
  split at h
  · cases h
  obtain ⟨e, he, rfl⟩ := Option.map_eq_some_iff.1 h
  exact (State.beginStripe_keeps _ _ _ _ _ he).trans (State.newWork_keeps ..)

theorem State.selftestStep_keeps (s : State) (k c : Nat) : Keeps s (State.selftestStep s k c) :=
  State.poolRun_keeps _ _ _ _ _ _ State.testLeg_keeps (State.beginTest_keeps k)

theorem execSelftestStep_keeps (k : Fin 12) (c : Fin 256) (s : State) :
    OKeeps s (execSelftestStep k c s) := by
  unfold execSelftestStep
  repeat' first
    | (with_reducible first
        | assumption
        | exact .refl _
        | apply OKeeps.next
        | apply OKeeps.ite
        | apply Keeps.ite
        | apply Keeps.after (State.selftestStep_keeps ..))

theorem State.katoExpire_keeps (s : State) (k : Nat) :
    Keeps s (State.katoExpire s k) := by
  unfold State.katoExpire
  extract_lets _ s1 s2
  have hs1 : Keeps s s1 := by
    unfold s1
    repeat' first
      | (with_reducible first
          | assumption
          | exact .refl _
          | apply Keeps.ite
          | apply Keeps.after (State.cntCmd_keeps ..)
          | apply Keeps.after (State.raise_keeps ..)
          | apply Keeps.after (State.updCtrl_keeps ..)
          | apply Keeps.after (State.qpFail_keeps ..)
          | apply Keeps.after (State.endTest_keeps ..)
          | fail_if_no_progress refine Keeps.mk' ?_ rfl rfl rfl rfl rfl rfl
          | apply Keeps.foldl
          | apply Keeps.foldlPair)
      | intro _
  have hs2 : Keeps s s2 := by
    unfold s2
    repeat' first
      | (with_reducible first
          | assumption
          | exact .refl _
          | apply Keeps.ite
          | apply Keeps.after (State.cntCmd_keeps ..)
          | apply Keeps.after (State.raise_keeps ..)
          | apply Keeps.after (State.updCtrl_keeps ..)
          | apply Keeps.after (State.qpFail_keeps ..)
          | apply Keeps.after (State.endTest_keeps ..))
  repeat' first
    | (with_reducible first
        | assumption
        | exact .refl _
        | apply Keeps.ite
        | apply Keeps.after (State.cntCmd_keeps ..)
        | apply Keeps.after (State.raise_keeps ..))

theorem execKeepAliveExpire_keeps (k : Fin 49152) (s : State) :
    OKeeps s (execKeepAliveExpire k s) := by
  unfold execKeepAliveExpire
  repeat' first
    | (with_reducible first
        | assumption
        | exact .refl _
        | apply OKeeps.next
        | apply OKeeps.ite
        | apply Keeps.ite
        | apply Keeps.after (State.katoExpire_keeps ..))

theorem State.shutdownDone_keeps (s : State) (k : Nat) :
    Keeps s (State.shutdownDone s k) := by
  unfold State.shutdownDone
  extract_lets v1 v2
  repeat' first
    | (with_reducible first
        | assumption
        | exact .refl _
        | apply Keeps.ite
        | apply Keeps.after (State.updCtrl_keeps ..))

theorem execControllerShutdownComplete_keeps (k : Fin 49152) (s : State) :
    OKeeps s (execControllerShutdownComplete k s) := by
  unfold execControllerShutdownComplete
  repeat' first
    | (with_reducible first
        | assumption
        | exact .refl _
        | apply OKeeps.next
        | apply OKeeps.ite
        | apply Keeps.ite
        | apply Keeps.after (State.shutdownDone_keeps ..))

theorem State.disableDone_keeps (s : State) (k : Nat) :
    Keeps s (State.disableDone s k) := by
  unfold State.disableDone
  extract_lets _ _
  repeat' first
    | (with_reducible first
        | assumption
        | exact .refl _
        | apply Keeps.ite
        | apply Keeps.after (State.updCtrl_keeps ..))

theorem execControllerDisableComplete_keeps (k : Fin 49152) (s : State) :
    OKeeps s (execControllerDisableComplete k s) := by
  unfold execControllerDisableComplete
  repeat' first
    | (with_reducible first
        | assumption
        | exact .refl _
        | apply OKeeps.next
        | apply OKeeps.ite
        | apply Keeps.ite
        | apply Keeps.after (State.disableDone_keeps ..))

theorem State.ctrlEnd_keeps (s : State) (k : Nat) :
    Keeps s (State.ctrlEnd s k) := by
  unfold State.ctrlEnd
  extract_lets _ s1
  have hs1 : Keeps s s1 := by
    unfold s1
    repeat' first
      | (with_reducible first
          | assumption
          | exact .refl _
          | apply Keeps.ite
          | apply Keeps.after (State.raise_keeps ..)
          | apply Keeps.after (State.setCtrl_keeps ..)
          | apply Keeps.after (State.endTest_keeps ..))
  repeat' first
    | (with_reducible first
        | assumption
        | exact .refl _
        | apply Keeps.ite
        | apply Keeps.after (State.raise_keeps ..))

theorem State.ccSet_keeps (s : State) (k w : Nat) :
    Keeps s (State.ccSet s k w) := by
  unfold State.ccSet
  extract_lets _ _ s1 s2 s3 _
  have hs1 : Keeps s s1 := by
    unfold s1
    repeat' first
      | (with_reducible first
          | assumption
          | exact .refl _
          | apply Keeps.ite
          | apply Keeps.after (State.updCtrl_keeps ..))
  have hs2 : Keeps s s2 := by
    unfold s2
    repeat' first
      | (with_reducible first
          | assumption
          | exact .refl _
          | apply Keeps.ite
          | apply Keeps.after (State.updCtrl_keeps ..)
          | apply Keeps.after (State.qpEnd_keeps ..)
          | apply Keeps.after (State.endTest_keeps ..)
          | fail_if_no_progress refine Keeps.mk' ?_ rfl rfl rfl rfl rfl rfl
          | apply Keeps.foldl
          | apply Keeps.foldlPair)
      | intro _
  have hs3 : Keeps s s3 := by
    unfold s3
    repeat' first
      | (with_reducible first
          | assumption
          | exact .refl _
          | apply Keeps.ite
          | apply Keeps.after (State.updCtrl_keeps ..)
          | apply Keeps.after (State.qpEnd_keeps ..)
          | apply Keeps.after (State.endTest_keeps ..))
  repeat' first
    | (with_reducible first
        | assumption
        | exact .refl _
        | apply Keeps.ite
        | apply Keeps.after (State.updCtrl_keeps ..))

theorem State.setFeat_keeps (s : State) (k : Nat) (sqe : List Byte) :
    Keeps s (State.setFeat s k sqe).2 := by
  unfold State.setFeat
  extract_lets _ _ _ _ _ _ _ _ _ _
  repeat' first
    | (with_reducible first
        | assumption
        | exact .refl _
        | apply Keeps.ite
        | apply Keeps.ite2
        | apply Keeps.after (State.updCtrl_keeps ..)
        | apply Keeps.after (State.setResv_keeps ..)
        | fail_if_no_progress refine Keeps.mk' ?_ rfl rfl rfl rfl rfl rfl
        | apply Keeps.foldl
        | apply Keeps.foldlPair)
    | intro _

theorem State.getLog_keeps (s : State) (k len : Nat) (sqe : List Byte) :
    Keeps s (State.getLog s k len sqe).2 := by
  unfold State.getLog
  extract_lets v1 v2 v3 s1 s2
  have hs1 : Keeps s s1 := by
    unfold s1
    repeat' first
      | (with_reducible first
          | assumption
          | exact .refl _
          | apply Keeps.ite
          | apply Keeps.ite2
          | refine Keeps.trans ?_ (.pair (by assumption) (State.draw_keeps ..))
          | apply Keeps.after (State.draw_keeps ..))
  have hs2 : Keeps s s2 := by
    unfold s2
    repeat' first
      | (with_reducible first
          | assumption
          | exact .refl _
          | apply Keeps.ite
          | apply Keeps.ite2
          | refine Keeps.trans ?_ (.pair (by assumption) (State.draw_keeps ..))
          | apply Keeps.after (State.draw_keeps ..)
          | apply Keeps.after (State.updCtrl_keeps ..))
  repeat' first
    | (with_reducible first
        | assumption
        | exact .refl _
        | apply Keeps.ite
        | apply Keeps.ite2
        | refine Keeps.trans ?_ (.pair (by assumption) (State.draw_keeps ..))
        | apply Keeps.after (State.draw_keeps ..)
        | apply Keeps.after (State.updCtrl_keeps ..)
        | fail_if_no_progress refine Keeps.mk' ?_ rfl rfl rfl rfl rfl rfl)
    | split

theorem State.aevMerge_keeps (s : State) :
    Keeps s (State.aevMerge s) := by
  unfold State.aevMerge
  extract_lets _ _
  repeat' first
    | (with_reducible first
        | assumption
        | exact .refl _
        | apply Keeps.ite
        | apply Keeps.ite2
        | apply Keeps.ite1
        | apply Keeps.after (State.setCtrl_keeps ..)
        | fail_if_no_progress refine Keeps.mk' ?_ rfl rfl rfl rfl rfl rfl
        | apply Keeps.foldl
        | apply Keeps.foldlPair)
    | intro _

theorem State.aevDeliver_keeps (k : Nat) (n : Nat) (s : State) : Keeps s (State.aevDeliver k n s) := by
  induction n generalizing s with
  | zero => exact .refl _
  | succ n ih =>
    unfold State.aevDeliver
    repeat' first
      | (with_reducible first
          | exact .refl _
          | apply Keeps.ite
          | apply Keeps.after (ih ..)
          | apply Keeps.after (State.addItem_keeps ..)
          | apply Keeps.after (State.setCtrl_keeps ..)
          | apply Keeps.after (State.stamp_keeps ..)
          | apply Keeps.after (State.adminStep_keeps ..)
          | apply Keeps.after (State.answer_keeps ..)
          | fail_if_no_progress refine Keeps.mk' ?_ rfl rfl rfl rfl rfl rfl
          | apply Keeps.foldl)
      | split
      | extract_lets

theorem State.aevSeam_keeps (s : State) :
    Keeps s (State.aevSeam s) := by
  unfold State.aevSeam
  extract_lets s1
  have hs1 : Keeps s s1 := by
    unfold s1
    repeat' first
      | (with_reducible first
          | assumption
          | exact .refl _
          | apply Keeps.ite
          | apply Keeps.after (State.aevMerge_keeps ..))
  repeat' first
    | (with_reducible first
        | assumption
        | exact .refl _
        | apply Keeps.ite
        | apply Keeps.after (State.aevMerge_keeps ..)
        | apply Keeps.after (State.aevDeliver_keeps ..)
        | fail_if_no_progress refine Keeps.mk' ?_ rfl rfl rfl rfl rfl rfl
        | apply Keeps.foldl
        | apply Keeps.foldlPair)
    | intro _

theorem State.resvApply_keeps (s : State) (c : ResvChange) :
    Keeps s (State.resvApply s c) := by
  unfold State.resvApply
  extract_lets s1 s2
  have hs1 : Keeps s s1 := by
    unfold s1
    repeat' first
      | (with_reducible first
          | assumption
          | exact .refl _
          | apply Keeps.ite
          | apply Keeps.ite2
          | apply Keeps.ite1
          | apply Keeps.after (State.raise_keeps ..)
          | apply Keeps.after (State.setCtrl_keeps ..)
          | apply Keeps.after (State.aev_keeps ..)
          | apply Keeps.after (State.setResv_keeps ..))
  have hs2 : Keeps s s2 := by
    unfold s2
    repeat' first
      | (with_reducible first
          | assumption
          | exact .refl _
          | apply Keeps.ite
          | apply Keeps.ite2
          | apply Keeps.ite1
          | apply Keeps.after (State.raise_keeps ..)
          | apply Keeps.after (State.setCtrl_keeps ..)
          | apply Keeps.after (State.aev_keeps ..)
          | apply Keeps.after (State.setResv_keeps ..)
          | apply Keeps.after (State.cutWb_keeps ..)
          | fail_if_no_progress refine Keeps.mk' ?_ rfl rfl rfl rfl rfl rfl
          | apply Keeps.foldl
          | apply Keeps.foldlPair)
      | split
      | intro _
  repeat' first
    | (with_reducible first
        | assumption
        | exact .refl _
        | apply Keeps.ite
        | apply Keeps.ite2
        | apply Keeps.ite1
        | apply Keeps.after (State.raise_keeps ..)
        | apply Keeps.after (State.setCtrl_keeps ..)
        | apply Keeps.after (State.aev_keeps ..)
        | apply Keeps.after (State.setResv_keeps ..)
        | apply Keeps.after (State.cutWb_keeps ..)
        | fail_if_no_progress refine Keeps.mk' ?_ rfl rfl rfl rfl rfl rfl
        | apply Keeps.foldl
        | apply Keeps.foldlPair)
    | split
    | intro _

theorem State.resvSeam_keeps (s : State) :
    Keeps s (State.resvSeam s) := by
  unfold State.resvSeam
  extract_lets _ _
  repeat' first
    | (with_reducible first
        | assumption
        | exact .refl _
        | apply Keeps.ite
        | apply Keeps.after (State.resvApply_keeps ..)
        | fail_if_no_progress refine Keeps.mk' ?_ rfl rfl rfl rfl rfl rfl
        | apply Keeps.foldl
        | apply Keeps.foldlPair)
    | intro _

theorem State.resvCommand_keeps (s : State) (w : Nat) (q : Nat) (x : Waybill) :
    Keeps s (State.resvCommand s w q x).2 := by
  unfold State.resvCommand
  extract_lets v1 v2 v3 v4
  repeat' first
    | (with_reducible first
        | assumption
        | exact .refl _
        | apply Keeps.ite
        | apply Keeps.ite2
        | apply Keeps.after (State.cntCmd_keeps ..)
        | apply Keeps.after (State.updPool_keeps ..)
        | fail_if_no_progress refine Keeps.mk' ?_ rfl rfl rfl rfl rfl rfl)
    | split

theorem State.adminCommand_keeps (s : State) (k : Nat) (x : Waybill) :
    Keeps s (State.adminCommand s k x).2 := by
  unfold State.adminCommand
  extract_lets v1 v2 v3
  repeat' first
    | (with_reducible first
        | assumption
        | exact .refl _
        | apply Keeps.ite
        | apply Keeps.ite2
        | refine Keeps.trans ?_ (.pair (by assumption) (State.selfTest_keeps ..))
        | apply Keeps.after (State.selfTest_keeps ..)
        | refine Keeps.trans ?_ (.pair (by assumption) (State.setFeat_keeps ..))
        | apply Keeps.after (State.setFeat_keeps ..)
        | refine Keeps.trans ?_ (.pair (by assumption) (State.getLog_keeps ..))
        | apply Keeps.after (State.getLog_keeps ..)
        | fail_if_no_progress refine Keeps.mk' ?_ rfl rfl rfl rfl rfl rfl)
    | split

theorem State.adminLane_keeps (s : State) (it : Item) (n : Nat) :
    Keeps s (State.adminLane s it n) := by
  unfold State.adminLane
  repeat' first
    | (with_reducible first
        | assumption
        | exact .refl _
        | apply Keeps.ite
        | apply Keeps.ite2
        | apply Keeps.ite1
        | apply Keeps.after (State.lane_keeps ..)
        | fail_if_no_progress refine Keeps.mk' ?_ rfl rfl rfl rfl rfl rfl
        | apply Keeps.foldl
        | apply Keeps.foldlPair)
    | split
    | intro _
    | extract_lets
    | (dsimp +zetaDelta only; split)

theorem State.adminDone_keeps (s : State) (it : Item) (w : Nat) (r : Reply) (wait : Bool) :
    Keeps s (State.adminDone s it w r wait) := by
  unfold State.adminDone
  repeat' first
    | (with_reducible first
        | assumption
        | exact .refl _
        | apply Keeps.ite
        | apply Keeps.ite2
        | apply Keeps.ite1
        | apply Keeps.after (State.updWb_keeps ..)
        | apply Keeps.after (State.adminLane_keeps ..)
        | apply Keeps.after (State.adminStep_keeps ..)
        | apply Keeps.after (State.xferArm_keeps ..)
        | apply Keeps.after (State.advance_keeps ..)
        | fail_if_no_progress refine Keeps.mk' ?_ rfl rfl rfl rfl rfl rfl
        | apply Keeps.foldl
        | apply Keeps.foldlPair)
    | split
    | intro _
    | extract_lets
    | (dsimp +zetaDelta only; split)

theorem State.adminStep_keeps (it : Item) (s : State) :
    Keeps s (State.adminStep it s) := by
  unfold State.adminStep
  repeat' first
    | (with_reducible first
        | assumption
        | exact .refl _
        | apply Keeps.ite
        | apply Keeps.ite2
        | apply Keeps.ite1
        | apply Keeps.after (State.updWb_keeps ..)
        | apply Keeps.after (State.setCtrl_keeps ..)
        | apply Keeps.after (State.ccSet_keeps ..)
        | refine Keeps.trans ?_ (.pair (by assumption) (State.resvCommand_keeps ..))
        | apply Keeps.after (State.resvCommand_keeps ..)
        | refine Keeps.trans ?_ (.pair (by assumption) (State.adminCommand_keeps ..))
        | apply Keeps.after (State.adminCommand_keeps ..)
        | apply Keeps.after (State.adminLane_keeps ..)
        | apply Keeps.after (State.adminDone_keeps ..)
        | apply Keeps.after (State.onWb_keeps ..)
        | apply Keeps.after (State.freeWb_keeps ..)
        | apply Keeps.after (State.finishWb_keeps ..)
        | apply Keeps.after (State.xferArm_keeps ..)
        | apply Keeps.after (State.advance_keeps ..)
        | fail_if_no_progress refine Keeps.mk' ?_ rfl rfl rfl rfl rfl rfl
        | apply Keeps.foldl
        | apply Keeps.foldlPair)
    | split
    | intro _
    | extract_lets
    | (dsimp +zetaDelta only; split)

theorem execAdminStep_keeps (k : Fin 12) (c : Fin 256) (s : State) :
    OKeeps s (execAdminStep k c s) := by
  unfold execAdminStep
  repeat' first
    | (with_reducible first
        | assumption
        | exact .refl _
        | apply OKeeps.next
        | apply OKeeps.ite
        | apply Keeps.ite
        | apply Keeps.after (State.run_keeps (hbody := ?_) ..)
        | apply Keeps.after (State.adminStep_keeps ..)
        | fail_if_no_progress refine Keeps.mk' ?_ rfl rfl rfl rfl rfl rfl)
    | intro _

theorem State.ctrlSeam_keeps (s : State) :
    Keeps s (State.ctrlSeam s) := by
  unfold State.ctrlSeam
  extract_lets s1
  have hs1 : Keeps s s1 := by
    unfold s1
    repeat' first
      | (with_reducible first
          | assumption
          | exact .refl _
          | apply Keeps.ite
          | apply Keeps.after (State.updCtrl_keeps ..)
          | apply Keeps.after (State.katoExpire_keeps ..)
          | apply Keeps.after (State.shutdownDone_keeps ..)
          | apply Keeps.after (State.disableDone_keeps ..)
          | fail_if_no_progress refine Keeps.mk' ?_ rfl rfl rfl rfl rfl rfl
          | apply Keeps.foldl
          | apply Keeps.foldlPair)
      | intro _
  repeat' first
    | (with_reducible first
        | assumption
        | exact .refl _
        | apply Keeps.ite
        | apply Keeps.after (State.updCtrl_keeps ..)
        | apply Keeps.after (State.katoExpire_keeps ..)
        | apply Keeps.after (State.shutdownDone_keeps ..)
        | apply Keeps.after (State.disableDone_keeps ..)
        | fail_if_no_progress refine Keeps.mk' ?_ rfl rfl rfl rfl rfl rfl
        | apply Keeps.foldl
        | apply Keeps.foldlPair)
    | intro _

theorem State.engineSeam_keeps (s : State) :
    Keeps s (State.engineSeam s) := by
  unfold State.engineSeam
  repeat' first
    | (with_reducible first
        | assumption
        | exact .refl _
        | apply Keeps.ite
        | apply Keeps.after (State.updQp_keeps ..)
        | apply Keeps.after (State.qpFail_keeps ..)
        | fail_if_no_progress refine Keeps.mk' ?_ rfl rfl rfl rfl rfl rfl
        | apply Keeps.foldl
        | apply Keeps.foldlPair)
    | intro _

end Sys2Proof.Machine
end

