-- ==== Sys2Proof/Laws/KeepSerai.lean ====
section
/-!
SUPPORT. What the operations of Machine/Serai.lean keep (Laws/Keep.lean).
-/

namespace Sys2Proof.Machine

open Sys2Proof

theorem State.learnFull_keeps (s : State) (vlan : Nat) :
    Keeps s (State.learnFull s vlan) := by
  unfold State.learnFull
  extract_lets s1 v1 v2 v3
  have hs1 : Keeps s s1 := by
    unfold s1
    repeat' first
      | (with_reducible first
          | assumption
          | exact .refl _
          | apply Keeps.ite
          | apply Keeps.after (State.cntSwc_keeps ..))
  repeat' first
    | (with_reducible first
        | assumption
        | exact .refl _
        | apply Keeps.ite
        | apply Keeps.after (State.cntSwc_keeps ..)
        | apply Keeps.after (State.raise_keeps ..)
        | fail_if_no_progress refine Keeps.mk' ?_ rfl rfl rfl rfl rfl rfl)

theorem State.learn_keeps (s : State) (m vlan : Nat) (mac : List Byte) :
    Keeps s (State.learn s m vlan mac) := by
  unfold State.learn
  extract_lets v1 v2 v3
  repeat' first
    | (with_reducible first
        | assumption
        | exact .refl _
        | apply Keeps.ite
        | apply Keeps.after (State.learnFull_keeps ..)
        | fail_if_no_progress refine Keeps.mk' ?_ rfl rfl rfl rfl rfl rfl)
    | split

theorem State.ageOut_keeps (s : State) :
    Keeps s (State.ageOut s) := by
  unfold State.ageOut
  extract_lets _
  repeat' first
    | (with_reducible first
        | assumption
        | exact .refl _
        | apply Keeps.ite
        | fail_if_no_progress refine Keeps.mk' ?_ rfl rfl rfl rfl rfl rfl)

theorem execMacAgeOut_keeps (vlan : Fin 4096) (mac : List Byte) (s : State) :
    OKeeps s (execMacAgeOut vlan mac s) := by
  unfold execMacAgeOut
  extract_lets _
  repeat' first
    | (with_reducible first
        | assumption
        | exact .refl _
        | apply OKeeps.next
        | apply OKeeps.ite
        | apply Keeps.ite
        | fail_if_no_progress refine Keeps.mk' ?_ rfl rfl rfl rfl rfl rfl)

theorem State.countRefused_keeps (s : State) (m i c : Nat) (d : Dest) (bs : List Byte) :
    Keeps s (State.countRefused s m i c d bs) := by
  unfold State.countRefused
  repeat' first
    | (with_reducible first
        | assumption
        | exact .refl _
        | apply Keeps.ite
        | apply Keeps.ite2
        | apply Keeps.ite1
        | apply Keeps.after (State.satFld_keeps ..)
        | apply Keeps.after (State.acc_keeps ..)
        | apply Keeps.after (State.cnt_keeps ..)
        | apply Keeps.after (State.cntSwc_keeps ..)
        | fail_if_no_progress refine Keeps.mk' ?_ rfl rfl rfl rfl rfl rfl
        | apply Keeps.foldl
        | apply Keeps.foldlPair)
    | split
    | intro _
    | extract_lets
    | (dsimp +zetaDelta only; split)

theorem State.fwdCopy_keeps (s : State) (f : Frame) (acct : Acct) (group : Option Nat) (n : Nat) :
    Keeps s (State.fwdCopy s f acct group n) := by
  unfold State.fwdCopy
  repeat' first
    | (with_reducible first
        | assumption
        | exact .refl _
        | apply Keeps.ite
        | apply Keeps.after (State.enqueue_keeps ..))

theorem State.admitFrame_keeps (s : State) (f : Frame) :
    Keeps s (State.admitFrame s f) := by
  unfold State.admitFrame
  extract_lets s1 v1 s2 s3 v2
  have hs1 : Keeps s s1 := by
    unfold s1
    repeat' first
      | (with_reducible first
          | assumption
          | exact .refl _
          | apply Keeps.ite
          | apply Keeps.after (State.cntSwc_keeps ..)
          | apply Keeps.after (State.takeCells_keeps ..))
  have hs2 : Keeps s s2 := by
    unfold s2
    repeat' first
      | (with_reducible first
          | assumption
          | exact .refl _
          | apply Keeps.ite
          | apply Keeps.after (State.cntSwc_keeps ..)
          | apply Keeps.after (State.takeCells_keeps ..)
          | apply Keeps.after (State.fwdCopy_keeps ..)
          | fail_if_no_progress refine Keeps.mk' ?_ rfl rfl rfl rfl rfl rfl)
  have hs3 : Keeps s s3 := by
    unfold s3
    repeat' first
      | (with_reducible first
          | assumption
          | exact .refl _
          | apply Keeps.ite
          | apply Keeps.after (State.cntSwc_keeps ..)
          | apply Keeps.after (State.takeCells_keeps ..))
  repeat' first
    | (with_reducible first
        | assumption
        | exact .refl _
        | apply Keeps.ite
        | apply Keeps.after (State.cntSwc_keeps ..)
        | apply Keeps.after (State.takeCells_keeps ..)
        | apply Keeps.after (State.fwdCopy_keeps ..)
        | fail_if_no_progress refine Keeps.mk' ?_ rfl rfl rfl rfl rfl rfl
        | apply Keeps.foldl
        | apply Keeps.foldlPair)
    | split
    | unfold v1
    | unfold v2
    | intro _

theorem State.countDropped_keeps (s : State) (m : Nat) (h : Hdr) (bytes : List Byte) :
    Keeps s (State.countDropped s m h bytes) := by
  unfold State.countDropped
  repeat' first
    | (with_reducible first
        | assumption
        | exact .refl _
        | apply Keeps.ite
        | apply Keeps.ite2
        | apply Keeps.ite1
        | apply Keeps.after (State.cntSwc_keeps ..)
        | apply Keeps.after (State.countDiscard_keeps ..)
        | apply Keeps.after (State.cntMac_keeps ..)
        | fail_if_no_progress refine Keeps.mk' ?_ rfl rfl rfl rfl rfl rfl
        | apply Keeps.foldl
        | apply Keeps.foldlPair)
    | split
    | intro _
    | extract_lets
    | (dsimp +zetaDelta only; split)

theorem State.headerLookup_keeps (s : State) (m : Nat) (bytes : List Byte) (cycle : Nat) :
    Keeps s (State.headerLookup s m bytes cycle) := by
  unfold State.headerLookup
  repeat' first
    | (with_reducible first
        | assumption
        | exact .refl _
        | apply Keeps.ite
        | apply Keeps.ite2
        | apply Keeps.ite1
        | apply Keeps.after (State.stamp_keeps ..)
        | apply Keeps.after (State.cntSwc_keeps ..)
        | apply Keeps.after (State.entry_keeps ..)
        | apply Keeps.after (State.cntMac_keeps ..)
        | apply Keeps.after (State.countRefused_keeps ..)
        | apply Keeps.after (State.admitFrame_keeps ..)
        | apply Keeps.after (State.countDropped_keeps ..)
        | fail_if_no_progress refine Keeps.mk' ?_ rfl rfl rfl rfl rfl rfl
        | apply Keeps.foldl
        | apply Keeps.foldlPair)
    | split
    | intro _
    | extract_lets
    | (dsimp +zetaDelta only; split)

theorem execFrameHeaderLookup_keeps (m : Fin 128) (bytes : List Byte) (cycle : Fin 2048) (s : State) :
    OKeeps s (execFrameHeaderLookup m bytes cycle s) := by
  unfold execFrameHeaderLookup
  repeat' first
    | (with_reducible first
        | assumption
        | exact .refl _
        | apply OKeeps.next
        | apply OKeeps.ite
        | apply Keeps.ite
        | apply Keeps.after (State.headerLookup_keeps ..))

theorem State.tailCopies_keeps (s : State) (f : Frame) :
    Keeps s (State.tailCopies s f) := by
  unfold State.tailCopies
  repeat' first
    | (with_reducible first
        | assumption
        | exact .refl _
        | apply Keeps.ite
        | apply Keeps.ite2
        | apply Keeps.ite1
        | apply Keeps.after (State.discardQueued_keeps ..)
        | apply Keeps.after (State.cntSwc_keeps ..)
        | apply Keeps.after (State.done_keeps ..)
        | fail_if_no_progress refine Keeps.mk' ?_ rfl rfl rfl rfl rfl rfl
        | apply Keeps.foldl
        | apply Keeps.foldlPair)
    | split
    | intro _
    | extract_lets
    | (dsimp +zetaDelta only; split)

theorem State.returnExcess_keeps (s : State) (f : Frame) (c : Nat) :
    Keeps s (State.returnExcess s f c) := by
  unfold State.returnExcess
  extract_lets v1 _ v2 v3 v4 s1 v5
  have hs1 : Keeps s s1 := by
    unfold s1
    repeat' first
      | (with_reducible first
          | assumption
          | exact .refl _
          | apply Keeps.ite
          | apply Keeps.ite2
          | apply Keeps.ite1
          | apply Keeps.after (State.freeCells_keeps ..))
  repeat' first
    | (with_reducible first
        | assumption
        | exact .refl _
        | apply Keeps.ite
        | apply Keeps.ite2
        | apply Keeps.ite1
        | apply Keeps.after (State.freeCells_keeps ..)
        | fail_if_no_progress refine Keeps.mk' ?_ rfl rfl rfl rfl rfl rfl)

theorem State.deliver_keeps (s : State) (f : Frame) :
    Keeps s (State.deliver s f) := by
  unfold State.deliver
  extract_lets v1
  repeat' first
    | (with_reducible first
        | assumption
        | exact .refl _
        | apply Keeps.ite
        | apply Keeps.after (State.freeCells_keeps ..)
        | apply Keeps.after (State.floodLeft_keeps ..)
        | apply Keeps.after (State.tailCopies_keeps ..)
        | fail_if_no_progress refine Keeps.mk' ?_ rfl rfl rfl rfl rfl rfl)
    | split

theorem State.dropTail_keeps (s : State) (f : Frame) :
    Keeps s (State.dropTail s f) := by
  unfold State.dropTail
  repeat' first
    | (with_reducible first
        | assumption
        | exact .refl _
        | apply Keeps.ite
        | apply Keeps.ite2
        | apply Keeps.ite1
        | apply Keeps.after (State.freeCells_keeps ..)
        | apply Keeps.after (State.deliver_keeps ..)
        | fail_if_no_progress refine Keeps.mk' ?_ rfl rfl rfl rfl rfl rfl
        | apply Keeps.foldl
        | apply Keeps.foldlPair)
    | split
    | intro _
    | extract_lets
    | (dsimp +zetaDelta only; split)

theorem State.copySend_keeps (s : State) (f : Frame) (ce : Bool) (len cycle : Nat) :
    Keeps s (State.copySend s f ce len cycle) := by
  unfold State.copySend
  extract_lets _
  repeat' first
    | (with_reducible first
        | assumption
        | exact .refl _
        | apply Keeps.ite
        | apply Keeps.after (State.linkSend_keeps ..)
        | fail_if_no_progress refine Keeps.mk' ?_ rfl rfl rfl rfl rfl rfl)

theorem State.frameTail_keeps (s : State) (m : Nat) (rest : List Byte) (bad : Bool) (cycle : Nat) :
    Keeps s (State.frameTail s m rest bad cycle) := by
  unfold State.frameTail
  repeat' first
    | (with_reducible first
        | assumption
        | exact .refl _
        | apply Keeps.ite
        | apply Keeps.ite2
        | apply Keeps.ite1
        | apply Keeps.after (State.cntSwc_keeps ..)
        | apply Keeps.after (State.cntMac_keeps ..)
        | apply Keeps.after (State.freeCells_keeps ..)
        | apply Keeps.after (State.learn_keeps ..)
        | apply Keeps.after (State.returnExcess_keeps ..)
        | apply Keeps.after (State.deliver_keeps ..)
        | apply Keeps.after (State.dropTail_keeps ..)
        | apply Keeps.after (State.copySend_keeps ..)
        | fail_if_no_progress refine Keeps.mk' ?_ rfl rfl rfl rfl rfl rfl
        | apply Keeps.foldl
        | apply Keeps.foldlPair)
    | split
    | intro _
    | extract_lets
    | (dsimp +zetaDelta only; split)

theorem execFrameTail_keeps (m : Fin 128) (rest : List Byte) (bad : Bool) (cycle : Fin 2048) (s : State) :
    OKeeps s (execFrameTail m rest bad cycle s) := by
  unfold execFrameTail
  repeat' first
    | (with_reducible first
        | assumption
        | exact .refl _
        | apply OKeeps.next
        | apply OKeeps.ite
        | apply Keeps.ite
        | apply Keeps.after (State.frameTail_keeps ..))

theorem State.lockLoss_keeps (s : State) (m : Nat) :
    Keeps s (State.lockLoss s m) := by
  unfold State.lockLoss
  extract_lets _ s1
  have hs1 : Keeps s s1 := by
    unfold s1
    repeat' first
      | (with_reducible first
          | assumption
          | exact .refl _
          | apply Keeps.ite
          | apply Keeps.after (State.updLport_keeps ..)
          | apply Keeps.after (State.setStep_keeps ..)
          | apply Keeps.after (State.setLocks_keeps ..))
  repeat' first
    | (with_reducible first
        | assumption
        | exact .refl _
        | apply Keeps.ite
        | apply Keeps.after (State.updLport_keeps ..)
        | apply Keeps.after (State.setStep_keeps ..)
        | apply Keeps.after (State.setLocks_keeps ..)
        | apply Keeps.after (State.frameTail_keeps ..))

theorem execLockLoss_keeps (m : Fin 128) (s : State) :
    OKeeps s (execLockLoss m s) := by
  unfold execLockLoss
  repeat' first
    | (with_reducible first
        | assumption
        | exact .refl _
        | apply OKeeps.next
        | apply OKeeps.ite
        | apply Keeps.ite
        | apply Keeps.after (State.lockLoss_keeps ..))

theorem State.linkEntry_keeps (s : State) (m : Nat) (up : Bool) :
    Keeps s (State.linkEntry s m up) := by
  unfold State.linkEntry
  repeat' first
    | (with_reducible first
        | assumption
        | exact .refl _
        | apply Keeps.ite
        | apply Keeps.after (State.entry_keeps ..))

theorem State.losePort_keeps (s : State) (p cause : Nat) :
    Keeps s (State.losePort s p cause) := by
  unfold State.losePort
  repeat' first
    | (with_reducible first
        | assumption
        | exact .refl _
        | apply Keeps.ite
        | apply Keeps.ite2
        | apply Keeps.ite1
        | apply Keeps.after (State.portStop_keeps ..)
        | apply Keeps.after (State.setFld_keeps ..)
        | apply Keeps.after (State.updLport_keeps ..)
        | apply Keeps.after (State.linkDownDue_keeps ..)
        | apply Keeps.after (State.frameTail_keeps ..)
        | fail_if_no_progress refine Keeps.mk' ?_ rfl rfl rfl rfl rfl rfl
        | apply Keeps.foldl
        | apply Keeps.foldlPair)
    | split
    | intro _
    | extract_lets
    | (dsimp +zetaDelta only; split)

theorem State.calibrated_keeps (s : State) (m : Nat) :
    Keeps s (State.calibrated s m) := by
  unfold State.calibrated
  repeat' first
    | (with_reducible first
        | assumption
        | exact .refl _
        | apply Keeps.ite
        | apply Keeps.ite2
        | apply Keeps.ite1
        | apply Keeps.after (State.setFld_keeps ..)
        | apply Keeps.after (State.updLport_keeps ..)
        | apply Keeps.after (State.setLanes_keeps ..)
        | fail_if_no_progress refine Keeps.mk' ?_ rfl rfl rfl rfl rfl rfl
        | apply Keeps.foldl
        | apply Keeps.foldlPair)
    | split
    | intro _
    | extract_lets
    | (dsimp +zetaDelta only; split)

theorem State.calibration_keeps (s : State) (m : Nat) (pass : Bool) :
    Keeps s (State.calibration s m pass) := by
  unfold State.calibration
  repeat' first
    | (with_reducible first
        | assumption
        | exact .refl _
        | apply Keeps.ite
        | apply Keeps.ite2
        | apply Keeps.ite1
        | apply Keeps.after (State.updLport_keeps ..)
        | apply Keeps.after (State.setLanes_keeps ..)
        | apply Keeps.after (State.losePort_keeps ..)
        | apply Keeps.after (State.calibrated_keeps ..)
        | fail_if_no_progress refine Keeps.mk' ?_ rfl rfl rfl rfl rfl rfl
        | apply Keeps.foldl
        | apply Keeps.foldlPair)
    | split
    | intro _
    | extract_lets
    | (dsimp +zetaDelta only; split)

theorem execSerdesCalibrationDone_keeps (m : Fin 128) (pass : Bool) (s : State) :
    OKeeps s (execSerdesCalibrationDone m pass s) := by
  unfold execSerdesCalibrationDone
  repeat' first
    | (with_reducible first
        | assumption
        | exact .refl _
        | apply OKeeps.next
        | apply OKeeps.ite
        | apply Keeps.ite
        | apply Keeps.ite2
        | apply Keeps.ite1
        | apply Keeps.after (State.calibration_keeps ..)
        | fail_if_no_progress refine Keeps.mk' ?_ rfl rfl rfl rfl rfl rfl
        | apply Keeps.foldl
        | apply Keeps.foldlPair)
    | split
    | intro _
    | extract_lets
    | (dsimp +zetaDelta only; split)

theorem State.linkUps_keeps (s : State) :
    Keeps s (State.linkUps s) := by
  unfold State.linkUps
  repeat' first
    | (with_reducible first
        | assumption
        | exact .refl _
        | apply Keeps.ite
        | apply Keeps.ite2
        | apply Keeps.ite1
        | apply Keeps.after (State.setFld_keeps ..)
        | apply Keeps.after (State.raise_keeps ..)
        | apply Keeps.after (State.updLport_keeps ..)
        | apply Keeps.after (State.pfcPair_keeps ..)
        | apply Keeps.after (State.linkEntry_keeps ..)
        | fail_if_no_progress refine Keeps.mk' ?_ rfl rfl rfl rfl rfl rfl
        | apply Keeps.foldl
        | apply Keeps.foldlPair)
    | split
    | intro _
    | extract_lets
    | (dsimp +zetaDelta only; split)

theorem State.linkDowns_keeps (s : State) :
    Keeps s (State.linkDowns s) := by
  unfold State.linkDowns
  repeat' first
    | (with_reducible first
        | assumption
        | exact .refl _
        | apply Keeps.ite
        | apply Keeps.after (State.setFld_keeps ..)
        | apply Keeps.after (State.raise_keeps ..)
        | apply Keeps.after (State.updLport_keeps ..)
        | apply Keeps.after (State.portFlush_keeps ..)
        | apply Keeps.after (State.frameTail_keeps ..)
        | apply Keeps.after (State.linkEntry_keeps ..)
        | fail_if_no_progress refine Keeps.mk' ?_ rfl rfl rfl rfl rfl rfl
        | apply Keeps.foldl
        | apply Keeps.foldlPair)
    | intro _

theorem State.answer_keeps (s : State) (f : Frame) (a : AddrEnt) :
    Keeps s (State.answer s f a) := by
  unfold State.answer
  extract_lets _ _ _
  repeat' first
    | (with_reducible first
        | assumption
        | exact .refl _
        | apply Keeps.ite
        | apply Keeps.after (State.updLport_keeps ..)
        | apply Keeps.after (State.sendMgt_keeps ..))

theorem State.delayReq_keeps (s : State) (f : Frame) :
    Keeps s (State.delayReq s f) := by
  unfold State.delayReq
  repeat' first
    | (with_reducible first
        | assumption
        | exact .refl _
        | apply Keeps.ite
        | apply Keeps.ite2
        | apply Keeps.ite1
        | apply Keeps.after (State.sendMgt_keeps ..)
        | apply Keeps.after (State.entry_keeps ..)
        | fail_if_no_progress refine Keeps.mk' ?_ rfl rfl rfl rfl rfl rfl
        | apply Keeps.foldl
        | apply Keeps.foldlPair)
    | split
    | intro _
    | extract_lets
    | (dsimp +zetaDelta only; split)

theorem State.ptpMessage_keeps (s : State) (f : Frame) :
    Keeps s (State.ptpMessage s f) := by
  unfold State.ptpMessage
  repeat' first
    | (with_reducible first
        | assumption
        | exact .refl _
        | apply Keeps.ite
        | apply Keeps.ite2
        | apply Keeps.ite1
        | refine Keeps.trans ?_ (.pair (by assumption) (State.draw_keeps ..))
        | apply Keeps.after (State.draw_keeps ..)
        | apply Keeps.after (State.setPtpState_keeps ..)
        | apply Keeps.after (State.delayReq_keeps ..)
        | fail_if_no_progress refine Keeps.mk' ?_ rfl rfl rfl rfl rfl rfl
        | apply Keeps.foldl
        | apply Keeps.foldlPair)
    | split
    | intro _
    | extract_lets
    | (dsimp +zetaDelta only; split)

theorem State.managementFrame_keeps (s : State) :
    Keeps s (State.managementFrame s) := by
  unfold State.managementFrame
  extract_lets v1
  repeat' first
    | (with_reducible first
        | assumption
        | exact .refl _
        | apply Keeps.ite
        | apply Keeps.after (State.entry_keeps ..)
        | apply Keeps.after (State.freeCells_keeps ..)
        | apply Keeps.after (State.answer_keeps ..)
        | apply Keeps.after (State.ptpMessage_keeps ..)
        | fail_if_no_progress refine Keeps.mk' ?_ rfl rfl rfl rfl rfl rfl)
    | split

theorem execManagementFrame_keeps (s : State) :
    OKeeps s (execManagementFrame s) := by
  unfold execManagementFrame
  repeat' first
    | (with_reducible first
        | assumption
        | exact .refl _
        | apply OKeeps.next
        | apply OKeeps.ite
        | apply Keeps.ite
        | apply Keeps.after (State.managementFrame_keeps ..))

theorem netAddrSet_keeps (d : Desc) (s : State) :
    Keeps s (netAddrSet d s) := by
  unfold netAddrSet
  extract_lets v1 v2 v3 v4 v5 v6 v7 v8 v9 v10 v11 v12 v13 v14
  repeat' first
    | (with_reducible first
        | assumption
        | exact .refl _
        | apply Keeps.ite
        | apply Keeps.ite2
        | apply Keeps.ite1
        | apply Keeps.after (State.complete_keeps ..)
        | apply Keeps.after (State.done_keeps ..)
        | apply Keeps.after (State.defer_keeps ..)
        | fail_if_no_progress refine Keeps.mk' ?_ rfl rfl rfl rfl rfl rfl)
    | split

theorem State.addrApply_keeps (s : State) (d : Desc) :
    Keeps s (State.addrApply s d) := by
  unfold State.addrApply
  repeat' first
    | (with_reducible first
        | assumption
        | exact .refl _
        | apply Keeps.ite
        | apply Keeps.ite2
        | apply Keeps.ite1
        | apply Keeps.after (State.complete_keeps ..)
        | apply Keeps.after (State.done_keeps ..)
        | apply Keeps.after (State.setAddr_keeps ..)
        | fail_if_no_progress refine Keeps.mk' ?_ rfl rfl rfl rfl rfl rfl
        | apply Keeps.foldl
        | apply Keeps.foldlPair)
    | split
    | intro _
    | extract_lets
    | (dsimp +zetaDelta only; split)

theorem execNetAddrSet_keeps (s : State) :
    OKeeps s (execNetAddrSet s) := by
  unfold execNetAddrSet
  repeat' first
    | (with_reducible first
        | assumption
        | exact .refl _
        | apply OKeeps.next
        | apply OKeeps.ite
        | apply Keeps.ite
        | apply Keeps.after (State.ringCmd_keeps (hbody := ?_) ..)
        | apply Keeps.after (netAddrSet_keeps ..)
        | fail_if_no_progress refine Keeps.mk' ?_ rfl rfl rfl rfl rfl rfl)
    | intro _

end Sys2Proof.Machine
end

