-- ==== Sys2Proof/Laws/KeepBay.lean ====
section
/-!
SUPPORT. What the operations of Machine/Bay.lean keep (Laws/Keep.lean).
-/

namespace Sys2Proof.Machine

open Sys2Proof

theorem State.setPw_keeps (s : State) (b : Nat) (x : BayPw) :
    Keeps s (State.setPw s b x) := by
  unfold State.setPw
  extract_lets _
  repeat' first
    | (with_reducible first
        | assumption
        | exact .refl _
        | apply Keeps.ite
        | fail_if_no_progress refine Keeps.mk' ?_ rfl rfl rfl rfl rfl rfl)
    | intro _
    | extract_lets

theorem State.updPw_keeps (s : State) (b : Nat) (f : BayPw → BayPw) :
    Keeps s (State.updPw s b f) := by
  unfold State.updPw
  repeat' first
    | (with_reducible first
        | assumption
        | exact .refl _
        | apply Keeps.ite
        | apply Keeps.after (State.setPw_keeps ..)
        | fail_if_no_progress refine Keeps.mk' ?_ rfl rfl rfl rfl rfl rfl)
    | intro _

theorem State.setPwSt_keeps (s : State) (b st : Nat) :
    Keeps s (State.setPwSt s b st) := by
  unfold State.setPwSt
  repeat' first
    | (with_reducible first
        | assumption
        | exact .refl _
        | apply Keeps.ite
        | apply Keeps.after (State.setFld_keeps ..)
        | fail_if_no_progress refine Keeps.mk' ?_ rfl rfl rfl rfl rfl rfl)
    | intro _

theorem State.setPwBit_keeps (s : State) (b : Nat) (f : Fld) (v : Bool) :
    Keeps s (State.setPwBit s b f v) := by
  unfold State.setPwBit
  repeat' first
    | (with_reducible first
        | assumption
        | exact .refl _
        | apply Keeps.ite
        | apply Keeps.after (State.setFld_keeps ..)
        | fail_if_no_progress refine Keeps.mk' ?_ rfl rfl rfl rfl rfl rfl)
    | intro _

theorem State.setPresent_keeps (s : State) (b : Nat) (v : Bool) :
    Keeps s (State.setPresent s b v) := by
  unfold State.setPresent
  extract_lets _
  repeat' first
    | (with_reducible first
        | assumption
        | exact .refl _
        | apply Keeps.ite
        | apply Keeps.after (State.wrReg_keeps ..)
        | apply Keeps.after (State.setPwBit_keeps ..)
        | fail_if_no_progress refine Keeps.mk' ?_ rfl rfl rfl rfl rfl rfl)
    | intro _

theorem State.setPg_keeps (s : State) (b : Nat) (v : Bool) :
    Keeps s (State.setPg s b v) := by
  unfold State.setPg
  extract_lets _
  repeat' first
    | (with_reducible first
        | assumption
        | exact .refl _
        | apply Keeps.ite
        | apply Keeps.after (State.wrReg_keeps ..)
        | apply Keeps.after (State.setPwBit_keeps ..)
        | fail_if_no_progress refine Keeps.mk' ?_ rfl rfl rfl rfl rfl rfl)
    | intro _

theorem State.pwEvent_keeps (s : State) (code v0 v1 v2 : Nat) :
    Keeps s (State.pwEvent s code v0 v1 v2) := by
  unfold State.pwEvent
  extract_lets _
  repeat' first
    | (with_reducible first
        | assumption
        | exact .refl _
        | apply Keeps.ite
        | fail_if_no_progress refine Keeps.mk' ?_ rfl rfl rfl rfl rfl rfl)
    | intro _

theorem State.pwNote_keeps (s : State) (b cause : Nat) :
    Keeps s (State.pwNote s b cause) := by
  unfold State.pwNote
  extract_lets _
  repeat' first
    | (with_reducible first
        | assumption
        | exact .refl _
        | apply Keeps.ite
        | fail_if_no_progress refine Keeps.mk' ?_ rfl rfl rfl rfl rfl rfl)
    | intro _

theorem State.gateOff_keeps (s : State) (b : Nat) :
    Keeps s (State.gateOff s b) := by
  unfold State.gateOff
  extract_lets s1
  have hs1 : Keeps s s1 := by
    unfold s1
    repeat' first
      | (with_reducible first
          | assumption
          | exact .refl _
          | apply Keeps.ite
          | apply Keeps.after (State.digest_keeps ..)
          | apply Keeps.after (State.updPw_keeps ..)
          | apply Keeps.after (State.setPwBit_keeps ..)
          | apply Keeps.after (State.setPg_keeps ..)
          | fail_if_no_progress refine Keeps.mk' ?_ rfl rfl rfl rfl rfl rfl)
      | intro _
      | extract_lets
  repeat' first
    | (with_reducible first
        | assumption
        | exact .refl _
        | apply Keeps.ite
        | apply Keeps.after (State.digest_keeps ..)
        | apply Keeps.after (State.updPw_keeps ..)
        | apply Keeps.after (State.setPwBit_keeps ..)
        | apply Keeps.after (State.setPg_keeps ..)
        | fail_if_no_progress refine Keeps.mk' ?_ rfl rfl rfl rfl rfl rfl)
    | intro _
    | extract_lets

theorem State.setRetries_keeps (s : State) (b n : Nat) :
    Keeps s (State.setRetries s b n) := by
  unfold State.setRetries
  repeat' first
    | (with_reducible first
        | assumption
        | exact .refl _
        | apply Keeps.ite
        | apply Keeps.after (State.setFld_keeps ..)
        | fail_if_no_progress refine Keeps.mk' ?_ rfl rfl rfl rfl rfl rfl)
    | intro _

theorem State.dropRequest_keeps (s : State) (b : Nat) :
    Keeps s (State.dropRequest s b) := by
  unfold State.dropRequest
  repeat' first
    | (with_reducible first
        | assumption
        | exact .refl _
        | apply Keeps.ite
        | apply Keeps.after (State.setPwBit_keeps ..)
        | fail_if_no_progress refine Keeps.mk' ?_ rfl rfl rfl rfl rfl rfl)
    | intro _

theorem State.toOff_keeps (s : State) (b note reason : Nat) :
    Keeps s (State.toOff s b note reason) := by
  unfold State.toOff
  extract_lets _ s1 s2
  have hs1 : Keeps s s1 := by
    unfold s1
    repeat' first
      | (with_reducible first
          | assumption
          | exact .refl _
          | apply Keeps.ite
          | apply Keeps.after (State.updPw_keeps ..)
          | apply Keeps.after (State.setPwSt_keeps ..)
          | apply Keeps.after (State.pwEvent_keeps ..)
          | apply Keeps.after (State.pwNote_keeps ..)
          | apply Keeps.after (State.gateOff_keeps ..)
          | apply Keeps.after (State.setRetries_keeps ..)
          | apply Keeps.after (State.dropRequest_keeps ..)
          | fail_if_no_progress refine Keeps.mk' ?_ rfl rfl rfl rfl rfl rfl)
      | intro _
      | extract_lets
  have hs2 : Keeps s s2 := by
    unfold s2
    repeat' first
      | (with_reducible first
          | assumption
          | exact .refl _
          | apply Keeps.ite
          | apply Keeps.after (State.updPw_keeps ..)
          | apply Keeps.after (State.setPwSt_keeps ..)
          | apply Keeps.after (State.pwEvent_keeps ..)
          | apply Keeps.after (State.pwNote_keeps ..)
          | apply Keeps.after (State.gateOff_keeps ..)
          | apply Keeps.after (State.setRetries_keeps ..)
          | apply Keeps.after (State.dropRequest_keeps ..)
          | fail_if_no_progress refine Keeps.mk' ?_ rfl rfl rfl rfl rfl rfl)
      | intro _
      | extract_lets
  repeat' first
    | (with_reducible first
        | assumption
        | exact .refl _
        | apply Keeps.ite
        | apply Keeps.after (State.updPw_keeps ..)
        | apply Keeps.after (State.setPwSt_keeps ..)
        | apply Keeps.after (State.pwEvent_keeps ..)
        | apply Keeps.after (State.pwNote_keeps ..)
        | apply Keeps.after (State.gateOff_keeps ..)
        | apply Keeps.after (State.setRetries_keeps ..)
        | apply Keeps.after (State.dropRequest_keeps ..)
        | fail_if_no_progress refine Keeps.mk' ?_ rfl rfl rfl rfl rfl rfl)
    | intro _
    | extract_lets

theorem State.countTrips_keeps (s : State) (b : Nat) (trips : List Nat) :
    Keeps s (State.countTrips s b trips) := by
  unfold State.countTrips
  repeat' first
    | (with_reducible first
        | assumption
        | exact .refl _
        | apply Keeps.ite
        | apply Keeps.after (State.setFld_keeps ..)
        | apply Keeps.after (State.satFld_keeps ..)
        | apply Keeps.after (State.cntBay_keeps ..)
        | fail_if_no_progress refine Keeps.mk' ?_ rfl rfl rfl rfl rfl rfl
        | apply Keeps.foldl
        | apply Keeps.foldlPair)
    | intro _
    | extract_lets

theorem State.tripped_keeps (s : State) (b : Nat) :
    Keeps s (State.tripped s b) := by
  unfold State.tripped
  extract_lets _
  repeat' first
    | (with_reducible first
        | assumption
        | exact .refl _
        | apply Keeps.ite
        | apply Keeps.after (State.cntBay_keeps ..)
        | apply Keeps.after (State.updPw_keeps ..)
        | apply Keeps.after (State.setPwSt_keeps ..)
        | apply Keeps.after (State.pwNote_keeps ..)
        | apply Keeps.after (State.gateOff_keeps ..)
        | fail_if_no_progress refine Keeps.mk' ?_ rfl rfl rfl rfl rfl rfl)
    | intro _
    | extract_lets

theorem State.damaged_keeps (s : State) (b cause : Nat) :
    Keeps s (State.damaged s b cause) := by
  unfold State.damaged
  extract_lets _
  repeat' first
    | (with_reducible first
        | assumption
        | exact .refl _
        | apply Keeps.ite
        | apply Keeps.after (State.setFld_keeps ..)
        | apply Keeps.after (State.cntBay_keeps ..)
        | apply Keeps.after (State.updPw_keeps ..)
        | apply Keeps.after (State.setPwSt_keeps ..)
        | apply Keeps.after (State.pwEvent_keeps ..)
        | apply Keeps.after (State.pwNote_keeps ..)
        | apply Keeps.after (State.gateOff_keeps ..)
        | apply Keeps.after (State.dropRequest_keeps ..)
        | fail_if_no_progress refine Keeps.mk' ?_ rfl rfl rfl rfl rfl rfl)
    | intro _
    | extract_lets

theorem State.request_keeps (s : State) (b : Nat) :
    Keeps s (State.request s b) := by
  unfold State.request
  repeat' first
    | (with_reducible first
        | assumption
        | exact .refl _
        | apply Keeps.ite
        | apply Keeps.after (State.setPwBit_keeps ..)
        | fail_if_no_progress refine Keeps.mk' ?_ rfl rfl rfl rfl rfl rfl)
    | intro _

theorem State.startInrush_keeps (s : State) (b : Nat) :
    Keeps s (State.startInrush s b) := by
  unfold State.startInrush
  extract_lets _ _ _ _ s1 s2 s3
  have hs1 : Keeps s s1 := by
    unfold s1
    repeat' first
      | (with_reducible first
          | assumption
          | exact .refl _
          | apply Keeps.ite
          | apply Keeps.after (State.cntBay_keeps ..)
          | apply Keeps.after (State.digest_keeps ..)
          | apply Keeps.after (State.updPw_keeps ..)
          | apply Keeps.after (State.setPwSt_keeps ..)
          | apply Keeps.after (State.setPwBit_keeps ..)
          | apply Keeps.after (State.pwEvent_keeps ..)
          | apply Keeps.after (State.setRetries_keeps ..)
          | apply Keeps.after (State.dropRequest_keeps ..)
          | fail_if_no_progress refine Keeps.mk' ?_ rfl rfl rfl rfl rfl rfl)
      | intro _
      | extract_lets
  have hs2 : Keeps s s2 := by
    unfold s2
    repeat' first
      | (with_reducible first
          | assumption
          | exact .refl _
          | apply Keeps.ite
          | apply Keeps.after (State.cntBay_keeps ..)
          | apply Keeps.after (State.digest_keeps ..)
          | apply Keeps.after (State.updPw_keeps ..)
          | apply Keeps.after (State.setPwSt_keeps ..)
          | apply Keeps.after (State.setPwBit_keeps ..)
          | apply Keeps.after (State.pwEvent_keeps ..)
          | apply Keeps.after (State.setRetries_keeps ..)
          | apply Keeps.after (State.dropRequest_keeps ..)
          | fail_if_no_progress refine Keeps.mk' ?_ rfl rfl rfl rfl rfl rfl)
      | intro _
      | extract_lets
  have hs3 : Keeps s s3 := by
    unfold s3
    repeat' first
      | (with_reducible first
          | assumption
          | exact .refl _
          | apply Keeps.ite
          | apply Keeps.after (State.cntBay_keeps ..)
          | apply Keeps.after (State.digest_keeps ..)
          | apply Keeps.after (State.updPw_keeps ..)
          | apply Keeps.after (State.setPwSt_keeps ..)
          | apply Keeps.after (State.setPwBit_keeps ..)
          | apply Keeps.after (State.pwEvent_keeps ..)
          | apply Keeps.after (State.setRetries_keeps ..)
          | apply Keeps.after (State.dropRequest_keeps ..)
          | fail_if_no_progress refine Keeps.mk' ?_ rfl rfl rfl rfl rfl rfl)
      | intro _
      | extract_lets
  repeat' first
    | (with_reducible first
        | assumption
        | exact .refl _
        | apply Keeps.ite
        | apply Keeps.after (State.cntBay_keeps ..)
        | apply Keeps.after (State.digest_keeps ..)
        | apply Keeps.after (State.updPw_keeps ..)
        | apply Keeps.after (State.setPwSt_keeps ..)
        | apply Keeps.after (State.setPwBit_keeps ..)
        | apply Keeps.after (State.pwEvent_keeps ..)
        | apply Keeps.after (State.setRetries_keeps ..)
        | apply Keeps.after (State.dropRequest_keeps ..)
        | fail_if_no_progress refine Keeps.mk' ?_ rfl rfl rfl rfl rfl rfl)
    | intro _
    | extract_lets

theorem State.inrushFails_keeps (s : State) (b : Nat) :
    Keeps s (State.inrushFails s b).2 := by
  unfold State.inrushFails
  extract_lets s1
  have hs1 : Keeps s s1 := by
    unfold s1
    repeat' first
      | (with_reducible first
          | assumption
          | exact .refl _
          | apply Keeps.ite
          | apply Keeps.ite2
          | apply Keeps.after (State.updPw_keeps ..)
          | fail_if_no_progress refine Keeps.mk' ?_ rfl rfl rfl rfl rfl rfl)
      | intro _
      | extract_lets
  repeat' first
    | (with_reducible first
        | assumption
        | exact .refl _
        | apply Keeps.ite
        | apply Keeps.ite2
        | apply Keeps.after (State.updPw_keeps ..)
        | fail_if_no_progress refine Keeps.mk' ?_ rfl rfl rfl rfl rfl rfl)
    | intro _
    | extract_lets

theorem State.curveEval_keeps (s : State) (b i : Nat) :
    Keeps s (State.curveEval s b i).2 := by
  unfold State.curveEval
  extract_lets _
  repeat' first
    | (with_reducible first
        | assumption
        | exact .refl _
        | apply Keeps.ite
        | apply Keeps.ite2
        | apply Keeps.after (State.updPw_keeps ..)
        | fail_if_no_progress refine Keeps.mk' ?_ rfl rfl rfl rfl rfl rfl)
    | intro _
    | extract_lets

theorem State.timerEval_keeps (s : State) (b i v : Nat) (gok : Bool) :
    Keeps s (State.timerEval s b i v gok).2 := by
  unfold State.timerEval
  extract_lets _
  repeat' first
    | (with_reducible first
        | assumption
        | exact .refl _
        | apply Keeps.ite
        | apply Keeps.ite2
        | apply Keeps.after (State.updPw_keeps ..)
        | apply Keeps.after (State.setPwSt_keeps ..)
        | refine Keeps.trans ?_ (.pair (by assumption) (State.inrushFails_keeps ..))
        | apply Keeps.after (State.inrushFails_keeps ..)
        | refine Keeps.trans ?_ (.pair (by assumption) (State.curveEval_keeps ..))
        | apply Keeps.after (State.curveEval_keeps ..)
        | fail_if_no_progress refine Keeps.mk' ?_ rfl rfl rfl rfl rfl rfl)
    | intro _
    | extract_lets

theorem State.modelEval_keeps (s : State) (b p : Nat) :
    Keeps s (State.modelEval s b p).2 := by
  unfold State.modelEval
  extract_lets s1 _
  have hs1 : Keeps s s1 := by
    unfold s1
    repeat' first
      | (with_reducible first
          | assumption
          | exact .refl _
          | apply Keeps.ite
          | apply Keeps.ite2
          | apply Keeps.after (State.updPw_keeps ..)
          | apply Keeps.after (State.thermStep_keeps ..)
          | fail_if_no_progress refine Keeps.mk' ?_ rfl rfl rfl rfl rfl rfl)
      | intro _
      | extract_lets
  repeat' first
    | (with_reducible first
        | assumption
        | exact .refl _
        | apply Keeps.ite
        | apply Keeps.ite2
        | apply Keeps.after (State.updPw_keeps ..)
        | apply Keeps.after (State.thermStep_keeps ..)
        | fail_if_no_progress refine Keeps.mk' ?_ rfl rfl rfl rfl rfl rfl)
    | intro _
    | extract_lets

theorem State.damageEval_keeps (s : State) (b i v drop : Nat) (gok : Bool) :
    Keeps s (State.damageEval s b i v drop gok).2 := by
  unfold State.damageEval
  extract_lets _ _ _ _ s1 _ _
  have hs1 : Keeps s s1 := by
    unfold s1
    repeat' first
      | (with_reducible first
          | assumption
          | exact .refl _
          | apply Keeps.ite
          | apply Keeps.ite2
          | apply Keeps.after (State.run_keeps (hbody := ?_) ..)
          | apply Keeps.after (State.updPw_keeps ..)
          | fail_if_no_progress refine Keeps.mk' ?_ rfl rfl rfl rfl rfl rfl)
      | intro _
      | extract_lets
  repeat' first
    | (with_reducible first
        | assumption
        | exact .refl _
        | apply Keeps.ite
        | apply Keeps.ite2
        | apply Keeps.after (State.run_keeps (hbody := ?_) ..)
        | apply Keeps.after (State.updPw_keeps ..)
        | fail_if_no_progress refine Keeps.mk' ?_ rfl rfl rfl rfl rfl rfl)
    | intro _
    | extract_lets

theorem State.pgEval_keeps (s : State) (b i : Nat) (clean : Bool) :
    Keeps s (State.pgEval s b i clean) := by
  unfold State.pgEval
  extract_lets s1 _ _ s2
  have hs1 : Keeps s s1 := by
    unfold s1
    repeat' first
      | (with_reducible first
          | assumption
          | exact .refl _
          | apply Keeps.ite
          | apply Keeps.after (State.updPw_keeps ..)
          | apply Keeps.after (State.setPg_keeps ..)
          | apply Keeps.after (State.pwEvent_keeps ..)
          | apply Keeps.after (State.pwNote_keeps ..)
          | apply Keeps.after (State.setRetries_keeps ..)
          | fail_if_no_progress refine Keeps.mk' ?_ rfl rfl rfl rfl rfl rfl)
      | intro _
      | extract_lets
  have hs2 : Keeps s s2 := by
    unfold s2
    repeat' first
      | (with_reducible first
          | assumption
          | exact .refl _
          | apply Keeps.ite
          | apply Keeps.after (State.updPw_keeps ..)
          | apply Keeps.after (State.setPg_keeps ..)
          | apply Keeps.after (State.pwEvent_keeps ..)
          | apply Keeps.after (State.pwNote_keeps ..)
          | apply Keeps.after (State.setRetries_keeps ..)
          | fail_if_no_progress refine Keeps.mk' ?_ rfl rfl rfl rfl rfl rfl)
      | intro _
      | extract_lets
  repeat' first
    | (with_reducible first
        | assumption
        | exact .refl _
        | apply Keeps.ite
        | apply Keeps.after (State.updPw_keeps ..)
        | apply Keeps.after (State.setPg_keeps ..)
        | apply Keeps.after (State.pwEvent_keeps ..)
        | apply Keeps.after (State.pwNote_keeps ..)
        | apply Keeps.after (State.setRetries_keeps ..)
        | fail_if_no_progress refine Keeps.mk' ?_ rfl rfl rfl rfl rfl rfl)
    | intro _
    | extract_lets

theorem State.confirm_keeps (s : State) (b : Nat) (v : Bool) :
    Keeps s (State.confirm s b v) := by
  unfold State.confirm
  repeat' first
    | (with_reducible first
        | assumption
        | exact .refl _
        | apply Keeps.ite
        | apply Keeps.after (State.updPw_keeps ..)
        | apply Keeps.after (State.setPresent_keeps ..)
        | apply Keeps.after (State.pwEvent_keeps ..)
        | fail_if_no_progress refine Keeps.mk' ?_ rfl rfl rfl rfl rfl rfl)
    | intro _
    | extract_lets

theorem State.presenceEval_keeps (s : State) (b : Nat) (raw : Bool) :
    Keeps s (State.presenceEval s b raw).2 := by
  unfold State.presenceEval
  extract_lets _
  repeat' first
    | (with_reducible first
        | assumption
        | exact .refl _
        | apply Keeps.ite
        | apply Keeps.ite2
        | apply Keeps.after (State.satFld_keeps ..)
        | apply Keeps.after (State.updPw_keeps ..)
        | apply Keeps.after (State.confirm_keeps ..)
        | fail_if_no_progress refine Keeps.mk' ?_ rfl rfl rfl rfl rfl rfl)
    | intro _
    | extract_lets

theorem State.presenceAct_keeps (s : State) (b : Nat) :
    Keeps s (State.presenceAct s b) := by
  unfold State.presenceAct
  repeat' first
    | (with_reducible first
        | assumption
        | exact .refl _
        | apply Keeps.ite
        | apply Keeps.ite2
        | apply Keeps.ite1
        | apply Keeps.after (State.pwNote_keeps ..)
        | apply Keeps.after (State.setRetries_keeps ..)
        | apply Keeps.after (State.dropRequest_keeps ..)
        | apply Keeps.after (State.toOff_keeps ..)
        | apply Keeps.after (State.request_keeps ..)
        | fail_if_no_progress refine Keeps.mk' ?_ rfl rfl rfl rfl rfl rfl
        | apply Keeps.foldl
        | apply Keeps.foldlPair)
    | split
    | intro _
    | extract_lets
    | (dsimp +zetaDelta only; split)

theorem State.pwDone_keeps (s : State) (b : Nat) (d : Option Desc) (status : Nat) :
    Keeps s (State.pwDone s b d status) := by
  unfold State.pwDone
  repeat' first
    | (with_reducible first
        | assumption
        | exact .refl _
        | apply Keeps.ite
        | apply Keeps.after (State.done_keeps ..)
        | apply Keeps.after (State.updPw_keeps ..)
        | fail_if_no_progress refine Keeps.mk' ?_ rfl rfl rfl rfl rfl rfl)
    | split
    | intro _
    | extract_lets
    | (dsimp +zetaDelta only; split)

theorem State.commandEval_keeps (s : State) (b : Nat) (still : Bool) :
    Keeps s (State.commandEval s b still) := by
  unfold State.commandEval
  extract_lets v1 _
  repeat' first
    | (with_reducible first
        | assumption
        | exact .refl _
        | apply Keeps.ite
        | apply Keeps.after (State.setFld_keeps ..)
        | apply Keeps.after (State.updPw_keeps ..)
        | apply Keeps.after (State.setPwSt_keeps ..)
        | apply Keeps.after (State.setRetries_keeps ..)
        | apply Keeps.after (State.dropRequest_keeps ..)
        | apply Keeps.after (State.toOff_keeps ..)
        | apply Keeps.after (State.request_keeps ..)
        | apply Keeps.after (State.pwDone_keeps ..)
        | fail_if_no_progress refine Keeps.mk' ?_ rfl rfl rfl rfl rfl rfl)
    | split
    | unfold v1
    | intro _
    | extract_lets
    | (dsimp +zetaDelta only; split)

theorem State.cycleEnd_keeps (s : State) (b : Nat) :
    Keeps s (State.cycleEnd s b) := by
  unfold State.cycleEnd
  repeat' first
    | (with_reducible first
        | assumption
        | exact .refl _
        | apply Keeps.ite
        | apply Keeps.after (State.updPw_keeps ..)
        | apply Keeps.after (State.request_keeps ..)
        | apply Keeps.after (State.pwDone_keeps ..)
        | fail_if_no_progress refine Keeps.mk' ?_ rfl rfl rfl rfl rfl rfl)
    | split
    | intro _
    | extract_lets
    | (dsimp +zetaDelta only; split)

theorem State.countdown_keeps (s : State) (b : Nat) :
    Keeps s (State.countdown s b) := by
  unfold State.countdown
  extract_lets s1
  have hs1 : Keeps s s1 := by
    unfold s1
    repeat' first
      | (with_reducible first
          | assumption
          | exact .refl _
          | apply Keeps.ite
          | apply Keeps.after (State.updPw_keeps ..)
          | apply Keeps.after (State.cycleEnd_keeps ..)
          | fail_if_no_progress refine Keeps.mk' ?_ rfl rfl rfl rfl rfl rfl)
      | split
      | intro _
      | extract_lets
      | (dsimp +zetaDelta only; split)
  repeat' first
    | (with_reducible first
        | assumption
        | exact .refl _
        | apply Keeps.ite
        | apply Keeps.after (State.updPw_keeps ..)
        | apply Keeps.after (State.cycleEnd_keeps ..)
        | fail_if_no_progress refine Keeps.mk' ?_ rfl rfl rfl rfl rfl rfl)
    | split
    | intro _
    | extract_lets
    | (dsimp +zetaDelta only; split)

theorem State.resolve_keeps (s : State) (b : Nat) (trips : List Nat) (dmg : Option Nat) (presence still : Bool) :
    Keeps s (State.resolve s b trips dmg presence still) := by
  unfold State.resolve
  extract_lets v1 s1 s2 s3 s4 s5 s6
  have hs1 : Keeps s s1 := by
    unfold s1
    repeat' first
      | (with_reducible first
          | assumption
          | exact .refl _
          | apply Keeps.ite
          | apply Keeps.after (State.pwEvent_keeps ..)
          | apply Keeps.after (State.countTrips_keeps ..)
          | apply Keeps.after (State.tripped_keeps ..)
          | apply Keeps.after (State.damaged_keeps ..)
          | apply Keeps.after (State.presenceAct_keeps ..)
          | apply Keeps.after (State.commandEval_keeps ..)
          | apply Keeps.after (State.countdown_keeps ..)
          | fail_if_no_progress refine Keeps.mk' ?_ rfl rfl rfl rfl rfl rfl
          | apply Keeps.foldl
          | apply Keeps.foldlPair)
      | split
      | unfold v1
      | intro _
      | extract_lets
      | (dsimp +zetaDelta only; split)
  have hs2 : Keeps s s2 := by
    unfold s2
    repeat' first
      | (with_reducible first
          | assumption
          | exact .refl _
          | apply Keeps.ite
          | apply Keeps.after (State.pwEvent_keeps ..)
          | apply Keeps.after (State.countTrips_keeps ..)
          | apply Keeps.after (State.tripped_keeps ..)
          | apply Keeps.after (State.damaged_keeps ..)
          | apply Keeps.after (State.presenceAct_keeps ..)
          | apply Keeps.after (State.commandEval_keeps ..)
          | apply Keeps.after (State.countdown_keeps ..)
          | fail_if_no_progress refine Keeps.mk' ?_ rfl rfl rfl rfl rfl rfl
          | apply Keeps.foldl
          | apply Keeps.foldlPair)
      | split
      | unfold v1
      | intro _
      | extract_lets
      | (dsimp +zetaDelta only; split)
  have hs3 : Keeps s s3 := by
    unfold s3
    repeat' first
      | (with_reducible first
          | assumption
          | exact .refl _
          | apply Keeps.ite
          | apply Keeps.after (State.pwEvent_keeps ..)
          | apply Keeps.after (State.countTrips_keeps ..)
          | apply Keeps.after (State.tripped_keeps ..)
          | apply Keeps.after (State.damaged_keeps ..)
          | apply Keeps.after (State.presenceAct_keeps ..)
          | apply Keeps.after (State.commandEval_keeps ..)
          | apply Keeps.after (State.countdown_keeps ..)
          | fail_if_no_progress refine Keeps.mk' ?_ rfl rfl rfl rfl rfl rfl
          | apply Keeps.foldl
          | apply Keeps.foldlPair)
      | split
      | unfold v1
      | intro _
      | extract_lets
      | (dsimp +zetaDelta only; split)
  have hs4 : Keeps s s4 := by
    unfold s4
    repeat' first
      | (with_reducible first
          | assumption
          | exact .refl _
          | apply Keeps.ite
          | apply Keeps.after (State.pwEvent_keeps ..)
          | apply Keeps.after (State.countTrips_keeps ..)
          | apply Keeps.after (State.tripped_keeps ..)
          | apply Keeps.after (State.damaged_keeps ..)
          | apply Keeps.after (State.presenceAct_keeps ..)
          | apply Keeps.after (State.commandEval_keeps ..)
          | apply Keeps.after (State.countdown_keeps ..)
          | fail_if_no_progress refine Keeps.mk' ?_ rfl rfl rfl rfl rfl rfl
          | apply Keeps.foldl
          | apply Keeps.foldlPair)
      | split
      | unfold v1
      | intro _
      | extract_lets
      | (dsimp +zetaDelta only; split)
  have hs5 : Keeps s s5 := by
    unfold s5
    repeat' first
      | (with_reducible first
          | assumption
          | exact .refl _
          | apply Keeps.ite
          | apply Keeps.after (State.pwEvent_keeps ..)
          | apply Keeps.after (State.countTrips_keeps ..)
          | apply Keeps.after (State.tripped_keeps ..)
          | apply Keeps.after (State.damaged_keeps ..)
          | apply Keeps.after (State.presenceAct_keeps ..)
          | apply Keeps.after (State.commandEval_keeps ..)
          | apply Keeps.after (State.countdown_keeps ..)
          | fail_if_no_progress refine Keeps.mk' ?_ rfl rfl rfl rfl rfl rfl
          | apply Keeps.foldl
          | apply Keeps.foldlPair)
      | split
      | unfold v1
      | intro _
      | extract_lets
      | (dsimp +zetaDelta only; split)
  have hs6 : Keeps s s6 := by
    unfold s6
    repeat' first
      | (with_reducible first
          | assumption
          | exact .refl _
          | apply Keeps.ite
          | apply Keeps.after (State.pwEvent_keeps ..)
          | apply Keeps.after (State.countTrips_keeps ..)
          | apply Keeps.after (State.tripped_keeps ..)
          | apply Keeps.after (State.damaged_keeps ..)
          | apply Keeps.after (State.presenceAct_keeps ..)
          | apply Keeps.after (State.commandEval_keeps ..)
          | apply Keeps.after (State.countdown_keeps ..)
          | fail_if_no_progress refine Keeps.mk' ?_ rfl rfl rfl rfl rfl rfl
          | apply Keeps.foldl
          | apply Keeps.foldlPair)
      | split
      | unfold v1
      | intro _
      | extract_lets
      | (dsimp +zetaDelta only; split)
  repeat' first
    | (with_reducible first
        | assumption
        | exact .refl _
        | apply Keeps.ite
        | apply Keeps.after (State.pwEvent_keeps ..)
        | apply Keeps.after (State.countTrips_keeps ..)
        | apply Keeps.after (State.tripped_keeps ..)
        | apply Keeps.after (State.damaged_keeps ..)
        | apply Keeps.after (State.presenceAct_keeps ..)
        | apply Keeps.after (State.commandEval_keeps ..)
        | apply Keeps.after (State.countdown_keeps ..)
        | fail_if_no_progress refine Keeps.mk' ?_ rfl rfl rfl rfl rfl rfl
        | apply Keeps.foldl
        | apply Keeps.foldlPair)
    | split
    | unfold v1
    | intro _
    | extract_lets
    | (dsimp +zetaDelta only; split)

theorem State.pwShow_keeps (s : State) (b : Nat) :
    Keeps s (State.pwShow s b) := by
  unfold State.pwShow
  extract_lets _
  repeat' first
    | (with_reducible first
        | assumption
        | exact .refl _
        | apply Keeps.ite
        | apply Keeps.after (State.setFld_keeps ..)
        | apply Keeps.after (State.setPwBit_keeps ..)
        | fail_if_no_progress refine Keeps.mk' ?_ rfl rfl rfl rfl rfl rfl)
    | intro _

theorem State.showInrush_keeps (s : State) :
    Keeps s (State.showInrush s) := by
  unfold State.showInrush
  repeat' first
    | (with_reducible first
        | assumption
        | exact .refl _
        | apply Keeps.ite
        | apply Keeps.after (State.setFld_keeps ..)
        | fail_if_no_progress refine Keeps.mk' ?_ rfl rfl rfl rfl rfl rfl)
    | intro _

theorem State.bayShadow_keeps (s : State) (b i v p drop : Nat) (x : BaySample) :
    Keeps s (State.bayShadow s b i v p drop x) := by
  unfold State.bayShadow
  extract_lets _ _ _ s1 _ s2
  have hs1 : Keeps s s1 := by
    unfold s1
    repeat' first
      | (with_reducible first
          | assumption
          | exact .refl _
          | apply Keeps.ite
          | apply Keeps.ite2
          | apply Keeps.ite1
          | apply Keeps.after (State.setFld_keeps ..)
          | apply Keeps.after (State.updPw_keeps ..)
          | apply Keeps.after (State.setPwSt_keeps ..)
          | apply Keeps.after (State.setPresent_keeps ..)
          | refine Keeps.trans ?_ (.pair (by assumption) (State.timerEval_keeps ..))
          | apply Keeps.after (State.timerEval_keeps ..)
          | refine Keeps.trans ?_ (.pair (by assumption) (State.modelEval_keeps ..))
          | apply Keeps.after (State.modelEval_keeps ..)
          | refine Keeps.trans ?_ (.pair (by assumption) (State.damageEval_keeps ..))
          | apply Keeps.after (State.damageEval_keeps ..)
          | apply Keeps.after (State.present_keeps ..)
          | fail_if_no_progress refine Keeps.mk' ?_ rfl rfl rfl rfl rfl rfl)
      | intro _
      | extract_lets
  have hs2 : Keeps s s2 := by
    unfold s2
    repeat' first
      | (with_reducible first
          | assumption
          | exact .refl _
          | apply Keeps.ite
          | apply Keeps.ite2
          | apply Keeps.ite1
          | apply Keeps.after (State.setFld_keeps ..)
          | apply Keeps.after (State.updPw_keeps ..)
          | apply Keeps.after (State.setPwSt_keeps ..)
          | apply Keeps.after (State.setPresent_keeps ..)
          | refine Keeps.trans ?_ (.pair (by assumption) (State.timerEval_keeps ..))
          | apply Keeps.after (State.timerEval_keeps ..)
          | refine Keeps.trans ?_ (.pair (by assumption) (State.modelEval_keeps ..))
          | apply Keeps.after (State.modelEval_keeps ..)
          | refine Keeps.trans ?_ (.pair (by assumption) (State.damageEval_keeps ..))
          | apply Keeps.after (State.damageEval_keeps ..)
          | apply Keeps.after (State.present_keeps ..)
          | fail_if_no_progress refine Keeps.mk' ?_ rfl rfl rfl rfl rfl rfl)
      | intro _
      | extract_lets
  repeat' first
    | (with_reducible first
        | assumption
        | exact .refl _
        | apply Keeps.ite
        | apply Keeps.ite2
        | apply Keeps.ite1
        | apply Keeps.after (State.setFld_keeps ..)
        | apply Keeps.after (State.updPw_keeps ..)
        | apply Keeps.after (State.setPwSt_keeps ..)
        | apply Keeps.after (State.setPresent_keeps ..)
        | refine Keeps.trans ?_ (.pair (by assumption) (State.timerEval_keeps ..))
        | apply Keeps.after (State.timerEval_keeps ..)
        | refine Keeps.trans ?_ (.pair (by assumption) (State.modelEval_keeps ..))
        | apply Keeps.after (State.modelEval_keeps ..)
        | refine Keeps.trans ?_ (.pair (by assumption) (State.damageEval_keeps ..))
        | apply Keeps.after (State.damageEval_keeps ..)
        | apply Keeps.after (State.present_keeps ..)
        | fail_if_no_progress refine Keeps.mk' ?_ rfl rfl rfl rfl rfl rfl)
    | intro _
    | extract_lets

theorem State.bayEval_keeps (s : State) (b : Nat) (x : BaySample) :
    Keeps s (State.bayEval s b x) := by
  unfold State.bayEval
  repeat' first
    | (with_reducible first
        | assumption
        | exact .refl _
        | apply Keeps.ite
        | apply Keeps.ite2
        | apply Keeps.ite1
        | apply Keeps.after (State.setPwBit_keeps ..)
        | refine Keeps.trans ?_ (.pair (by assumption) (State.timerEval_keeps ..))
        | apply Keeps.after (State.timerEval_keeps ..)
        | refine Keeps.trans ?_ (.pair (by assumption) (State.modelEval_keeps ..))
        | apply Keeps.after (State.modelEval_keeps ..)
        | refine Keeps.trans ?_ (.pair (by assumption) (State.damageEval_keeps ..))
        | apply Keeps.after (State.damageEval_keeps ..)
        | apply Keeps.after (State.pgEval_keeps ..)
        | refine Keeps.trans ?_ (.pair (by assumption) (State.presenceEval_keeps ..))
        | apply Keeps.after (State.presenceEval_keeps ..)
        | apply Keeps.after (State.resolve_keeps ..)
        | apply Keeps.after (State.pwShow_keeps ..)
        | apply Keeps.after (State.bayShadow_keeps ..)
        | apply Keeps.after (State.present_keeps ..)
        | apply Keeps.after (State.setFld_keeps ..)
        | fail_if_no_progress refine Keeps.mk' ?_ rfl rfl rfl rfl rfl rfl
        | apply Keeps.foldl
        | apply Keeps.foldlPair)
    | split
    | intro _
    | extract_lets
    | (dsimp +zetaDelta only; split)

theorem State.startAll_keeps (s : State) :
    Keeps s (State.startAll s) := by
  unfold State.startAll
  repeat' first
    | (with_reducible first
        | assumption
        | exact .refl _
        | apply Keeps.ite
        | apply Keeps.after (State.startInrush_keeps ..)
        | apply Keeps.after (State.showInrush_keeps ..)
        | fail_if_no_progress refine Keeps.mk' ?_ rfl rfl rfl rfl rfl rfl
        | apply Keeps.foldl
        | apply Keeps.foldlPair)
    | intro _

theorem execInrushTimeout_keeps (b : Fin 128) (s : State) :
    OKeeps s (execInrushTimeout b s) := by
  unfold execInrushTimeout
  extract_lets _
  repeat' first
    | (with_reducible first
        | assumption
        | exact .refl _
        | apply OKeeps.next
        | apply OKeeps.ite
        | apply Keeps.ite
        | apply Keeps.ite2
        | apply Keeps.ite1
        | refine Keeps.trans ?_ (.pair (by assumption) (State.inrushFails_keeps ..))
        | apply Keeps.after (State.inrushFails_keeps ..)
        | apply Keeps.after (State.resolve_keeps ..)
        | apply Keeps.after (State.pwShow_keeps ..)
        | apply Keeps.after (State.startAll_keeps ..)
        | fail_if_no_progress refine Keeps.mk' ?_ rfl rfl rfl rfl rfl rfl)
    | intro _

theorem execPresenceConfirm_keeps (b : Fin 128) (s : State) :
    OKeeps s (execPresenceConfirm b s) := by
  unfold execPresenceConfirm
  repeat' first
    | (with_reducible first
        | assumption
        | exact .refl _
        | apply OKeeps.next
        | apply OKeeps.ite
        | apply Keeps.ite
        | apply Keeps.after (State.updPw_keeps ..)
        | apply Keeps.after (State.setPresent_keeps ..)
        | apply Keeps.after (State.confirm_keeps ..)
        | apply Keeps.after (State.presenceAct_keeps ..)
        | apply Keeps.after (State.startAll_keeps ..)
        | fail_if_no_progress refine Keeps.mk' ?_ rfl rfl rfl rfl rfl rfl)
    | intro _
    | extract_lets

theorem execRetryDelayExpire_keeps (b : Fin 128) (s : State) :
    OKeeps s (execRetryDelayExpire b s) := by
  unfold execRetryDelayExpire
  repeat' first
    | (with_reducible first
        | assumption
        | exact .refl _
        | apply OKeeps.next
        | apply OKeeps.ite
        | apply Keeps.ite
        | apply Keeps.after (State.updPw_keeps ..)
        | apply Keeps.after (State.startAll_keeps ..)
        | fail_if_no_progress refine Keeps.mk' ?_ rfl rfl rfl rfl rfl rfl)
    | intro _
    | extract_lets

theorem execRetryCountReset_keeps (b : Fin 128) (s : State) :
    OKeeps s (execRetryCountReset b s) := by
  unfold execRetryCountReset
  repeat' first
    | (with_reducible first
        | assumption
        | exact .refl _
        | apply OKeeps.next
        | apply OKeeps.ite
        | apply Keeps.ite
        | apply Keeps.after (State.setRetries_keeps ..)
        | fail_if_no_progress refine Keeps.mk' ?_ rfl rfl rfl rfl rfl rfl)
    | intro _

theorem execBayCycleOffExpire_keeps (b : Fin 128) (s : State) :
    OKeeps s (execBayCycleOffExpire b s) := by
  unfold execBayCycleOffExpire
  repeat' first
    | (with_reducible first
        | assumption
        | exact .refl _
        | apply OKeeps.next
        | apply OKeeps.ite
        | apply Keeps.ite
        | apply Keeps.after (State.cycleEnd_keeps ..)
        | apply Keeps.after (State.startAll_keeps ..)
        | fail_if_no_progress refine Keeps.mk' ?_ rfl rfl rfl rfl rfl rfl)
    | split
    | intro _
    | extract_lets
    | (dsimp +zetaDelta only; split)

theorem bayPower_keeps (d : Desc) (s : State) :
    Keeps s (bayPower d s) := by
  unfold bayPower
  extract_lets _ _ _ _ _ _ _
  repeat' first
    | (with_reducible first
        | assumption
        | exact .refl _
        | apply Keeps.ite
        | apply Keeps.after (State.complete_keeps ..)
        | apply Keeps.after (State.defer_keeps ..)
        | apply Keeps.after (State.checked_keeps (hok := ?_) ..)
        | fail_if_no_progress refine Keeps.mk' ?_ rfl rfl rfl rfl rfl rfl)
    | intro _
    | extract_lets

theorem execBayPower_keeps (s : State) :
    OKeeps s (execBayPower s) := by
  unfold execBayPower
  repeat' first
    | (with_reducible first
        | assumption
        | exact .refl _
        | apply OKeeps.next
        | apply OKeeps.ite
        | apply Keeps.ite
        | apply Keeps.after (State.ringCmd_keeps (hbody := ?_) ..)
        | apply Keeps.after (bayPower_keeps ..)
        | fail_if_no_progress refine Keeps.mk' ?_ rfl rfl rfl rfl rfl rfl)
    | intro _

theorem State.bayPowerNow_keeps (s : State) (d : Desc) :
    Keeps s (State.bayPowerNow s d) := by
  unfold State.bayPowerNow
  extract_lets _ s1
  have hs1 : Keeps s s1 := by
    unfold s1
    repeat' first
      | (with_reducible first
          | assumption
          | exact .refl _
          | apply Keeps.ite
          | apply Keeps.after (State.setFld_keeps ..)
          | apply Keeps.after (State.complete_keeps ..)
          | apply Keeps.after (State.updPw_keeps ..)
          | fail_if_no_progress refine Keeps.mk' ?_ rfl rfl rfl rfl rfl rfl)
      | intro _
      | extract_lets
  repeat' first
    | (with_reducible first
        | assumption
        | exact .refl _
        | apply Keeps.ite
        | apply Keeps.after (State.setFld_keeps ..)
        | apply Keeps.after (State.complete_keeps ..)
        | apply Keeps.after (State.updPw_keeps ..)
        | fail_if_no_progress refine Keeps.mk' ?_ rfl rfl rfl rfl rfl rfl)
    | intro _
    | extract_lets

theorem State.powerSeam_keeps (s : State) :
    Keeps s (State.powerSeam s) := by
  unfold State.powerSeam
  extract_lets s1 s2 s3 v1
  have hs1 : Keeps s s1 := by
    unfold s1
    repeat' first
      | (with_reducible first
          | assumption
          | exact .refl _
          | apply Keeps.ite
          | apply Keeps.ite2
          | apply Keeps.ite1
          | apply Keeps.after (State.raise_keeps ..)
          | apply Keeps.after (State.complete_keeps ..)
          | apply Keeps.after (State.done_keeps ..)
          | apply Keeps.after (State.bayPowerGood_keeps ..)
          | apply Keeps.after (State.bayGateOff_keeps ..)
          | apply Keeps.after (State.updPw_keeps ..)
          | fail_if_no_progress refine Keeps.mk' ?_ rfl rfl rfl rfl rfl rfl
          | apply Keeps.foldl
          | apply Keeps.foldlPair)
      | split
      | unfold v1
      | intro _
      | extract_lets
      | (dsimp +zetaDelta only; split)
  have hs2 : Keeps s s2 := by
    unfold s2
    repeat' first
      | (with_reducible first
          | assumption
          | exact .refl _
          | apply Keeps.ite
          | apply Keeps.ite2
          | apply Keeps.ite1
          | apply Keeps.after (State.raise_keeps ..)
          | apply Keeps.after (State.complete_keeps ..)
          | apply Keeps.after (State.done_keeps ..)
          | apply Keeps.after (State.bayPowerGood_keeps ..)
          | apply Keeps.after (State.bayGateOff_keeps ..)
          | apply Keeps.after (State.updPw_keeps ..)
          | fail_if_no_progress refine Keeps.mk' ?_ rfl rfl rfl rfl rfl rfl
          | apply Keeps.foldl
          | apply Keeps.foldlPair)
      | split
      | unfold v1
      | intro _
      | extract_lets
      | (dsimp +zetaDelta only; split)
  have hs3 : Keeps s s3 := by
    unfold s3
    repeat' first
      | (with_reducible first
          | assumption
          | exact .refl _
          | apply Keeps.ite
          | apply Keeps.ite2
          | apply Keeps.ite1
          | apply Keeps.after (State.raise_keeps ..)
          | apply Keeps.after (State.complete_keeps ..)
          | apply Keeps.after (State.done_keeps ..)
          | apply Keeps.after (State.bayPowerGood_keeps ..)
          | apply Keeps.after (State.bayGateOff_keeps ..)
          | apply Keeps.after (State.updPw_keeps ..)
          | fail_if_no_progress refine Keeps.mk' ?_ rfl rfl rfl rfl rfl rfl
          | apply Keeps.foldl
          | apply Keeps.foldlPair)
      | split
      | unfold v1
      | intro _
      | extract_lets
      | (dsimp +zetaDelta only; split)
  repeat' first
    | (with_reducible first
        | assumption
        | exact .refl _
        | apply Keeps.ite
        | apply Keeps.ite2
        | apply Keeps.ite1
        | apply Keeps.after (State.raise_keeps ..)
        | apply Keeps.after (State.complete_keeps ..)
        | apply Keeps.after (State.done_keeps ..)
        | apply Keeps.after (State.bayPowerGood_keeps ..)
        | apply Keeps.after (State.bayGateOff_keeps ..)
        | apply Keeps.after (State.updPw_keeps ..)
        | fail_if_no_progress refine Keeps.mk' ?_ rfl rfl rfl rfl rfl rfl
        | apply Keeps.foldl
        | apply Keeps.foldlPair)
    | split
    | unfold v1
    | intro _
    | extract_lets
    | (dsimp +zetaDelta only; split)

theorem State.allBaysOff_keeps (s : State) :
    Keeps s (State.allBaysOff s) := by
  unfold State.allBaysOff
  repeat' first
    | (with_reducible first
        | assumption
        | exact .refl _
        | apply Keeps.ite
        | apply Keeps.after (State.updPw_keeps ..)
        | fail_if_no_progress refine Keeps.mk' ?_ rfl rfl rfl rfl rfl rfl
        | apply Keeps.foldl
        | apply Keeps.foldlPair)
    | intro _
    | extract_lets

end Sys2Proof.Machine
end

