-- ==== Sys2Proof/Laws/KeepEnv.lean ====
section
/-!
SUPPORT. What the operations of Machine/Env.lean keep (Laws/Keep.lean).
-/

namespace Sys2Proof.Machine

open Sys2Proof

theorem State.setSens_keeps (s : State) (k : Nat) (x : SensLevel) :
    Keeps s (State.setSens s k x) := by
  unfold State.setSens
  extract_lets _
  repeat' first
    | (with_reducible first
        | assumption
        | exact .refl _
        | apply Keeps.ite
        | fail_if_no_progress refine Keeps.mk' ?_ rfl rfl rfl rfl rfl rfl)
    | intro _
    | extract_lets

theorem State.sense_keeps (s : State) (k : Nat) (t : Int) :
    Keeps s (State.sense s k t) := by
  unfold State.sense
  extract_lets _ _ s1
  have hs1 : Keeps s s1 := by
    unfold s1
    repeat' first
      | (with_reducible first
          | assumption
          | exact .refl _
          | apply Keeps.ite
          | apply Keeps.after (State.raise_keeps ..)
          | apply Keeps.after (State.setSens_keeps ..)
          | fail_if_no_progress refine Keeps.mk' ?_ rfl rfl rfl rfl rfl rfl)
      | intro _
  repeat' first
    | (with_reducible first
        | assumption
        | exact .refl _
        | apply Keeps.ite
        | apply Keeps.after (State.raise_keeps ..)
        | apply Keeps.after (State.setSens_keeps ..)
        | fail_if_no_progress refine Keeps.mk' ?_ rfl rfl rfl rfl rfl rfl)
    | intro _

theorem State.thermStep_keeps (s : State) (i sum : Nat) :
    Keeps s (State.thermStep s i sum) := by
  unfold State.thermStep
  extract_lets v1 v2 v3 s1 v4 s2 v5 _
  have hs1 : Keeps s s1 := by
    unfold s1
    repeat' first
      | (with_reducible first
          | assumption
          | exact .refl _
          | apply Keeps.ite
          | apply Keeps.ite2
          | apply Keeps.ite1
          | apply Keeps.after (State.setFld_keeps ..)
          | apply Keeps.after (State.cntEnv_keeps ..)
          | refine Keeps.trans ?_ (.pair (by assumption) (State.draw_keeps ..))
          | apply Keeps.after (State.draw_keeps ..)
          | apply Keeps.after (State.raise_keeps ..)
          | apply Keeps.after (State.setSens_keeps ..)
          | apply Keeps.after (State.sense_keeps ..)
          | fail_if_no_progress refine Keeps.mk' ?_ rfl rfl rfl rfl rfl rfl)
      | split
      | unfold v1
      | unfold v2
      | unfold v3
      | unfold v4
      | unfold v5
      | intro _
      | extract_lets
      | (dsimp +zetaDelta only; split)
  have hs2 : Keeps s s2 := by
    unfold s2
    repeat' first
      | (with_reducible first
          | assumption
          | exact .refl _
          | apply Keeps.ite
          | apply Keeps.ite2
          | apply Keeps.ite1
          | apply Keeps.after (State.setFld_keeps ..)
          | apply Keeps.after (State.cntEnv_keeps ..)
          | refine Keeps.trans ?_ (.pair (by assumption) (State.draw_keeps ..))
          | apply Keeps.after (State.draw_keeps ..)
          | apply Keeps.after (State.raise_keeps ..)
          | apply Keeps.after (State.setSens_keeps ..)
          | apply Keeps.after (State.sense_keeps ..)
          | fail_if_no_progress refine Keeps.mk' ?_ rfl rfl rfl rfl rfl rfl)
      | split
      | unfold v1
      | unfold v2
      | unfold v3
      | unfold v4
      | unfold v5
      | intro _
      | extract_lets
      | (dsimp +zetaDelta only; split)
  repeat' first
    | (with_reducible first
        | assumption
        | exact .refl _
        | apply Keeps.ite
        | apply Keeps.ite2
        | apply Keeps.ite1
        | apply Keeps.after (State.setFld_keeps ..)
        | apply Keeps.after (State.cntEnv_keeps ..)
        | refine Keeps.trans ?_ (.pair (by assumption) (State.draw_keeps ..))
        | apply Keeps.after (State.draw_keeps ..)
        | apply Keeps.after (State.raise_keeps ..)
        | apply Keeps.after (State.setSens_keeps ..)
        | apply Keeps.after (State.sense_keeps ..)
        | fail_if_no_progress refine Keeps.mk' ?_ rfl rfl rfl rfl rfl rfl)
    | split
    | unfold v1
    | unfold v2
    | unfold v3
    | unfold v4
    | unfold v5
    | intro _
    | extract_lets
    | (dsimp +zetaDelta only; split)

theorem State.shelfEvents_keeps (s : State) :
    Keeps s (State.shelfEvents s) := by
  unfold State.shelfEvents
  extract_lets _
  repeat' first
    | (with_reducible first
        | assumption
        | exact .refl _
        | apply Keeps.ite
        | apply Keeps.after (State.updCtrl_keeps ..)
        | apply Keeps.after (State.aev_keeps ..)
        | fail_if_no_progress refine Keeps.mk' ?_ rfl rfl rfl rfl rfl rfl
        | apply Keeps.foldl
        | apply Keeps.foldlPair)
    | intro _
    | extract_lets

theorem State.setFanRun_keeps (s : State) (f n : Nat) :
    Keeps s (State.setFanRun s f n) := by
  unfold State.setFanRun
  extract_lets _
  repeat' first
    | (with_reducible first
        | assumption
        | exact .refl _
        | apply Keeps.ite
        | fail_if_no_progress refine Keeps.mk' ?_ rfl rfl rfl rfl rfl rfl)
    | intro _
    | extract_lets

theorem State.fanSet_keeps (s : State) (f : Nat) (bad : Bool) :
    Keeps s (State.fanSet s f bad) := by
  unfold State.fanSet
  extract_lets s1
  have hs1 : Keeps s s1 := by
    unfold s1
    repeat' first
      | (with_reducible first
          | assumption
          | exact .refl _
          | apply Keeps.ite
          | apply Keeps.after (State.setFld_keeps ..)
          | apply Keeps.after (State.cntEnv_keeps ..)
          | apply Keeps.after (State.raise_keeps ..)
          | apply Keeps.after (State.setFanRun_keeps ..)
          | fail_if_no_progress refine Keeps.mk' ?_ rfl rfl rfl rfl rfl rfl)
      | intro _
  repeat' first
    | (with_reducible first
        | assumption
        | exact .refl _
        | apply Keeps.ite
        | apply Keeps.after (State.setFld_keeps ..)
        | apply Keeps.after (State.cntEnv_keeps ..)
        | apply Keeps.after (State.raise_keeps ..)
        | apply Keeps.after (State.setFanRun_keeps ..)
        | fail_if_no_progress refine Keeps.mk' ?_ rfl rfl rfl rfl rfl rfl)
    | intro _

theorem State.fanStep_keeps (s : State) (f pulses : Nat) :
    Keeps s (State.fanStep s f pulses) := by
  unfold State.fanStep
  extract_lets _ s1
  have hs1 : Keeps s s1 := by
    unfold s1
    repeat' first
      | (with_reducible first
          | assumption
          | exact .refl _
          | apply Keeps.ite
          | apply Keeps.after (State.setFld_keeps ..)
          | apply Keeps.after (State.setFanRun_keeps ..)
          | apply Keeps.after (State.fanSet_keeps ..)
          | fail_if_no_progress refine Keeps.mk' ?_ rfl rfl rfl rfl rfl rfl)
      | intro _
  repeat' first
    | (with_reducible first
        | assumption
        | exact .refl _
        | apply Keeps.ite
        | apply Keeps.after (State.setFld_keeps ..)
        | apply Keeps.after (State.setFanRun_keeps ..)
        | apply Keeps.after (State.fanSet_keeps ..)
        | fail_if_no_progress refine Keeps.mk' ?_ rfl rfl rfl rfl rfl rfl)
    | intro _

theorem execFanFail_keeps (f : Fin 12) (s : State) :
    OKeeps s (execFanFail f s) := by
  unfold execFanFail
  repeat' first
    | (with_reducible first
        | assumption
        | exact .refl _
        | apply OKeeps.next
        | apply OKeeps.ite
        | apply Keeps.ite
        | apply Keeps.after (State.fanSet_keeps ..)
        | fail_if_no_progress refine Keeps.mk' ?_ rfl rfl rfl rfl rfl rfl)
    | intro _

theorem execFanRestore_keeps (f : Fin 12) (s : State) :
    OKeeps s (execFanRestore f s) := by
  unfold execFanRestore
  repeat' first
    | (with_reducible first
        | assumption
        | exact .refl _
        | apply OKeeps.next
        | apply OKeeps.ite
        | apply Keeps.ite
        | apply Keeps.after (State.fanSet_keeps ..)
        | fail_if_no_progress refine Keeps.mk' ?_ rfl rfl rfl rfl rfl rfl)
    | intro _

theorem State.holdEvent_keeps (s : State) :
    Keeps s (State.holdEvent s) := by
  unfold State.holdEvent
  repeat' first
    | (with_reducible first
        | assumption
        | exact .refl _
        | apply Keeps.ite
        | apply Keeps.after (State.raise_keeps ..)
        | fail_if_no_progress refine Keeps.mk' ?_ rfl rfl rfl rfl rfl rfl)
    | intro _

theorem State.readyUpdate_keeps (s : State) (always : Bool) :
    Keeps s (State.readyUpdate s always) := by
  unfold State.readyUpdate
  extract_lets _ _ s1
  have hs1 : Keeps s s1 := by
    unfold s1
    repeat' first
      | (with_reducible first
          | assumption
          | exact .refl _
          | apply Keeps.ite
          | apply Keeps.after (State.setFld_keeps ..)
          | apply Keeps.after (State.holdEvent_keeps ..)
          | fail_if_no_progress refine Keeps.mk' ?_ rfl rfl rfl rfl rfl rfl)
      | intro _
  repeat' first
    | (with_reducible first
        | assumption
        | exact .refl _
        | apply Keeps.ite
        | apply Keeps.after (State.setFld_keeps ..)
        | apply Keeps.after (State.holdEvent_keeps ..)
        | fail_if_no_progress refine Keeps.mk' ?_ rfl rfl rfl rfl rfl rfl)
    | intro _

theorem State.setCharge_keeps (s : State) (on : Bool) :
    Keeps s (State.setCharge s on) := by
  unfold State.setCharge
  extract_lets s1 _
  have hs1 : Keeps s s1 := by
    unfold s1
    repeat' first
      | (with_reducible first
          | assumption
          | exact .refl _
          | apply Keeps.ite
          | apply Keeps.after (State.setFld_keeps ..)
          | fail_if_no_progress refine Keeps.mk' ?_ rfl rfl rfl rfl rfl rfl)
      | intro _
  repeat' first
    | (with_reducible first
        | assumption
        | exact .refl _
        | apply Keeps.ite
        | apply Keeps.after (State.setFld_keeps ..)
        | fail_if_no_progress refine Keeps.mk' ?_ rfl rfl rfl rfl rfl rfl)
    | intro _

theorem State.chargerSwitch_keeps (s : State) :
    Keeps s (State.chargerSwitch s) := by
  unfold State.chargerSwitch
  extract_lets _ _
  repeat' first
    | (with_reducible first
        | assumption
        | exact .refl _
        | apply Keeps.ite
        | apply Keeps.after (State.setCharge_keeps ..)
        | fail_if_no_progress refine Keeps.mk' ?_ rfl rfl rfl rfl rfl rfl)
    | intro _

theorem State.chargerTimeout_keeps (s : State) :
    Keeps s (State.chargerTimeout s) := by
  unfold State.chargerTimeout
  repeat' first
    | (with_reducible first
        | assumption
        | exact .refl _
        | apply Keeps.ite
        | apply Keeps.after (State.setFld_keeps ..)
        | apply Keeps.after (State.cntEnv_keeps ..)
        | apply Keeps.after (State.readyUpdate_keeps ..)
        | apply Keeps.after (State.setCharge_keeps ..)
        | fail_if_no_progress refine Keeps.mk' ?_ rfl rfl rfl rfl rfl rfl)
    | split
    | intro _
    | extract_lets
    | (dsimp +zetaDelta only; split)

theorem execChargerTimeout_keeps (s : State) :
    OKeeps s (execChargerTimeout s) := by
  unfold execChargerTimeout
  repeat' first
    | (with_reducible first
        | assumption
        | exact .refl _
        | apply OKeeps.next
        | apply OKeeps.ite
        | apply Keeps.ite
        | apply Keeps.after (State.chargerTimeout_keeps ..)
        | fail_if_no_progress refine Keeps.mk' ?_ rfl rfl rfl rfl rfl rfl)
    | intro _

theorem State.holdClear_keeps (s : State) :
    Keeps s (State.holdClear s) := by
  unfold State.holdClear
  extract_lets s1
  have hs1 : Keeps s s1 := by
    unfold s1
    repeat' first
      | (with_reducible first
          | assumption
          | exact .refl _
          | apply Keeps.ite
          | apply Keeps.after (State.setFld_keeps ..)
          | apply Keeps.after (State.readyUpdate_keeps ..)
          | apply Keeps.after (State.setCharge_keeps ..)
          | apply Keeps.after (State.chargerSwitch_keeps ..)
          | fail_if_no_progress refine Keeps.mk' ?_ rfl rfl rfl rfl rfl rfl)
      | intro _
  repeat' first
    | (with_reducible first
        | assumption
        | exact .refl _
        | apply Keeps.ite
        | apply Keeps.after (State.setFld_keeps ..)
        | apply Keeps.after (State.readyUpdate_keeps ..)
        | apply Keeps.after (State.setCharge_keeps ..)
        | apply Keeps.after (State.chargerSwitch_keeps ..)
        | fail_if_no_progress refine Keeps.mk' ?_ rfl rfl rfl rfl rfl rfl)
    | intro _

theorem execHoldFaultClear_keeps (w : Word) (s : State) :
    OKeeps s (execHoldFaultClear w s) := by
  unfold execHoldFaultClear
  repeat' first
    | (with_reducible first
        | assumption
        | exact .refl _
        | apply OKeeps.next
        | apply OKeeps.ite
        | apply Keeps.ite
        | apply Keeps.after (State.hostWrite_keeps (hf := ?_) ..)
        | apply Keeps.after (State.holdClear_keeps ..)
        | fail_if_no_progress refine Keeps.mk' ?_ rfl rfl rfl rfl rfl rfl)
    | intro _
    | extract_lets

theorem State.writeDuty_keeps (s : State) (u : Nat) :
    Keeps s (State.writeDuty s u) := by
  unfold State.writeDuty
  extract_lets _ _ s1 _ s2
  have hs1 : Keeps s s1 := by
    unfold s1
    repeat' first
      | (with_reducible first
          | assumption
          | exact .refl _
          | apply Keeps.ite
          | apply Keeps.after (State.setFld_keeps ..)
          | apply Keeps.after (State.raise_keeps ..)
          | fail_if_no_progress refine Keeps.mk' ?_ rfl rfl rfl rfl rfl rfl)
      | intro _
  have hs2 : Keeps s s2 := by
    unfold s2
    repeat' first
      | (with_reducible first
          | assumption
          | exact .refl _
          | apply Keeps.ite
          | apply Keeps.after (State.setFld_keeps ..)
          | apply Keeps.after (State.raise_keeps ..)
          | fail_if_no_progress refine Keeps.mk' ?_ rfl rfl rfl rfl rfl rfl)
      | intro _
  repeat' first
    | (with_reducible first
        | assumption
        | exact .refl _
        | apply Keeps.ite
        | apply Keeps.after (State.setFld_keeps ..)
        | apply Keeps.after (State.raise_keeps ..)
        | fail_if_no_progress refine Keeps.mk' ?_ rfl rfl rfl rfl rfl rfl)
    | intro _

theorem State.dutyStep_keeps (s : State) :
    Keeps s (State.dutyStep s) := by
  unfold State.dutyStep
  extract_lets v1 v2 v3 v4 v5 v6 v7 v8 s1 s2
  have hs1 : Keeps s s1 := by
    unfold s1
    repeat' first
      | (with_reducible first
          | assumption
          | exact .refl _
          | apply Keeps.ite
          | apply Keeps.ite2
          | apply Keeps.ite1
          | apply Keeps.after (State.setFld_keeps ..)
          | apply Keeps.after (State.writeDuty_keeps ..)
          | fail_if_no_progress refine Keeps.mk' ?_ rfl rfl rfl rfl rfl rfl)
      | split
      | unfold v1
      | unfold v2
      | unfold v3
      | unfold v4
      | unfold v5
      | unfold v6
      | unfold v7
      | unfold v8
      | intro _
      | extract_lets
      | (dsimp +zetaDelta only; split)
  have hs2 : Keeps s s2 := by
    unfold s2
    repeat' first
      | (with_reducible first
          | assumption
          | exact .refl _
          | apply Keeps.ite
          | apply Keeps.ite2
          | apply Keeps.ite1
          | apply Keeps.after (State.setFld_keeps ..)
          | apply Keeps.after (State.writeDuty_keeps ..)
          | fail_if_no_progress refine Keeps.mk' ?_ rfl rfl rfl rfl rfl rfl)
      | split
      | unfold v1
      | unfold v2
      | unfold v3
      | unfold v4
      | unfold v5
      | unfold v6
      | unfold v7
      | unfold v8
      | intro _
      | extract_lets
      | (dsimp +zetaDelta only; split)
  repeat' first
    | (with_reducible first
        | assumption
        | exact .refl _
        | apply Keeps.ite
        | apply Keeps.ite2
        | apply Keeps.ite1
        | apply Keeps.after (State.setFld_keeps ..)
        | apply Keeps.after (State.writeDuty_keeps ..)
        | fail_if_no_progress refine Keeps.mk' ?_ rfl rfl rfl rfl rfl rfl)
    | split
    | unfold v1
    | unfold v2
    | unfold v3
    | unfold v4
    | unfold v5
    | unfold v6
    | unfold v7
    | unfold v8
    | intro _
    | extract_lets
    | (dsimp +zetaDelta only; split)

theorem State.holdStep_keeps (s : State) :
    Keeps s (State.holdStep s) := by
  unfold State.holdStep
  extract_lets _ _ s1 s2 s3 s4 s5 s6
  have hs1 : Keeps s s1 := by
    unfold s1
    repeat' first
      | (with_reducible first
          | assumption
          | exact .refl _
          | apply Keeps.ite
          | apply Keeps.ite1
          | apply Keeps.after (State.setFld_keeps ..)
          | apply Keeps.after (State.cntEnv_keeps ..)
          | apply Keeps.after (State.readyUpdate_keeps ..)
          | fail_if_no_progress refine Keeps.mk' ?_ rfl rfl rfl rfl rfl rfl)
      | intro _
      | extract_lets
  have hs2 : Keeps s s2 := by
    unfold s2
    repeat' first
      | (with_reducible first
          | assumption
          | exact .refl _
          | apply Keeps.ite
          | apply Keeps.ite1
          | apply Keeps.after (State.setFld_keeps ..)
          | apply Keeps.after (State.cntEnv_keeps ..)
          | apply Keeps.after (State.readyUpdate_keeps ..)
          | fail_if_no_progress refine Keeps.mk' ?_ rfl rfl rfl rfl rfl rfl)
      | intro _
      | extract_lets
  have hs3 : Keeps s s3 := by
    unfold s3
    repeat' first
      | (with_reducible first
          | assumption
          | exact .refl _
          | apply Keeps.ite
          | apply Keeps.ite1
          | apply Keeps.after (State.setFld_keeps ..)
          | apply Keeps.after (State.cntEnv_keeps ..)
          | apply Keeps.after (State.readyUpdate_keeps ..)
          | fail_if_no_progress refine Keeps.mk' ?_ rfl rfl rfl rfl rfl rfl)
      | intro _
      | extract_lets
  have hs4 : Keeps s s4 := by
    unfold s4
    repeat' first
      | (with_reducible first
          | assumption
          | exact .refl _
          | apply Keeps.ite
          | apply Keeps.ite1
          | apply Keeps.after (State.setFld_keeps ..)
          | apply Keeps.after (State.cntEnv_keeps ..)
          | apply Keeps.after (State.readyUpdate_keeps ..)
          | fail_if_no_progress refine Keeps.mk' ?_ rfl rfl rfl rfl rfl rfl)
      | intro _
      | extract_lets
  have hs5 : Keeps s s5 := by
    unfold s5
    repeat' first
      | (with_reducible first
          | assumption
          | exact .refl _
          | apply Keeps.ite
          | apply Keeps.ite1
          | apply Keeps.after (State.setFld_keeps ..)
          | apply Keeps.after (State.cntEnv_keeps ..)
          | apply Keeps.after (State.readyUpdate_keeps ..)
          | fail_if_no_progress refine Keeps.mk' ?_ rfl rfl rfl rfl rfl rfl)
      | intro _
      | extract_lets
  have hs6 : Keeps s s6 := by
    unfold s6
    repeat' first
      | (with_reducible first
          | assumption
          | exact .refl _
          | apply Keeps.ite
          | apply Keeps.ite1
          | apply Keeps.after (State.setFld_keeps ..)
          | apply Keeps.after (State.cntEnv_keeps ..)
          | apply Keeps.after (State.readyUpdate_keeps ..)
          | fail_if_no_progress refine Keeps.mk' ?_ rfl rfl rfl rfl rfl rfl)
      | intro _
      | extract_lets
  repeat' first
    | (with_reducible first
        | assumption
        | exact .refl _
        | apply Keeps.ite
        | apply Keeps.ite1
        | apply Keeps.after (State.setFld_keeps ..)
        | apply Keeps.after (State.cntEnv_keeps ..)
        | apply Keeps.after (State.readyUpdate_keeps ..)
        | fail_if_no_progress refine Keeps.mk' ?_ rfl rfl rfl rfl rfl rfl)
    | intro _
    | extract_lets

theorem State.setNow_keeps (s : State) :
    Keeps s (State.setNow s) := by
  unfold State.setNow
  extract_lets _
  repeat' first
    | (with_reducible first
        | assumption
        | exact .refl _
        | apply Keeps.ite
        | apply Keeps.ite2
        | apply Keeps.ite1
        | apply Keeps.after (State.done_keeps ..)
        | fail_if_no_progress refine Keeps.mk' ?_ rfl rfl rfl rfl rfl rfl
        | apply Keeps.foldl
        | apply Keeps.foldlPair)
    | intro _
    | extract_lets

theorem State.orderDump_keeps (s : State) (why : Nat) :
    Keeps s (State.orderDump s why) := by
  unfold State.orderDump
  extract_lets _
  repeat' first
    | (with_reducible first
        | assumption
        | exact .refl _
        | apply Keeps.ite
        | fail_if_no_progress refine Keeps.mk' ?_ rfl rfl rfl rfl rfl rfl)
    | intro _

theorem State.critShutdown_keeps (s : State) :
    Keeps s (State.critShutdown s) := by
  unfold State.critShutdown
  extract_lets s1 _
  have hs1 : Keeps s s1 := by
    unfold s1
    repeat' first
      | (with_reducible first
          | assumption
          | exact .refl _
          | apply Keeps.ite
          | apply Keeps.after (State.orderDump_keeps ..)
          | fail_if_no_progress refine Keeps.mk' ?_ rfl rfl rfl rfl rfl rfl)
      | intro _
  repeat' first
    | (with_reducible first
        | assumption
        | exact .refl _
        | apply Keeps.ite
        | apply Keeps.after (State.orderDump_keeps ..)
        | fail_if_no_progress refine Keeps.mk' ?_ rfl rfl rfl rfl rfl rfl)
    | intro _

theorem execCriticalTempShutdown_keeps (s : State) :
    OKeeps s (execCriticalTempShutdown s) := by
  unfold execCriticalTempShutdown
  repeat' first
    | (with_reducible first
        | assumption
        | exact .refl _
        | apply OKeeps.next
        | apply OKeeps.ite
        | apply Keeps.ite
        | apply Keeps.after (State.critShutdown_keeps ..)
        | fail_if_no_progress refine Keeps.mk' ?_ rfl rfl rfl rfl rfl rfl)
    | intro _

theorem State.fanLoop_keeps (s : State) (x : EnvSample) :
    Keeps s (State.fanLoop s x) := by
  unfold State.fanLoop
  extract_lets s1 s2 s3 s4 s5 s6 s7 s8 s9
  have hs1 : Keeps s s1 := by
    unfold s1
    repeat' first
      | (with_reducible first
          | assumption
          | exact .refl _
          | apply Keeps.ite
          | apply Keeps.after (State.setFld_keeps ..)
          | apply Keeps.after (State.sense_keeps ..)
          | apply Keeps.after (State.thermStep_keeps ..)
          | apply Keeps.after (State.shelfEvents_keeps ..)
          | apply Keeps.after (State.fanStep_keeps ..)
          | apply Keeps.after (State.dutyStep_keeps ..)
          | apply Keeps.after (State.holdStep_keeps ..)
          | apply Keeps.after (State.setNow_keeps ..)
          | apply Keeps.after (State.critShutdown_keeps ..)
          | fail_if_no_progress refine Keeps.mk' ?_ rfl rfl rfl rfl rfl rfl
          | apply Keeps.foldl
          | apply Keeps.foldlPair)
      | split
      | intro _
      | extract_lets
      | (dsimp +zetaDelta only; split)
  have hs2 : Keeps s s2 := by
    unfold s2
    repeat' first
      | (with_reducible first
          | assumption
          | exact .refl _
          | apply Keeps.ite
          | apply Keeps.after (State.setFld_keeps ..)
          | apply Keeps.after (State.sense_keeps ..)
          | apply Keeps.after (State.thermStep_keeps ..)
          | apply Keeps.after (State.shelfEvents_keeps ..)
          | apply Keeps.after (State.fanStep_keeps ..)
          | apply Keeps.after (State.dutyStep_keeps ..)
          | apply Keeps.after (State.holdStep_keeps ..)
          | apply Keeps.after (State.setNow_keeps ..)
          | apply Keeps.after (State.critShutdown_keeps ..)
          | fail_if_no_progress refine Keeps.mk' ?_ rfl rfl rfl rfl rfl rfl
          | apply Keeps.foldl
          | apply Keeps.foldlPair)
      | split
      | intro _
      | extract_lets
      | (dsimp +zetaDelta only; split)
  have hs3 : Keeps s s3 := by
    unfold s3
    repeat' first
      | (with_reducible first
          | assumption
          | exact .refl _
          | apply Keeps.ite
          | apply Keeps.after (State.setFld_keeps ..)
          | apply Keeps.after (State.sense_keeps ..)
          | apply Keeps.after (State.thermStep_keeps ..)
          | apply Keeps.after (State.shelfEvents_keeps ..)
          | apply Keeps.after (State.fanStep_keeps ..)
          | apply Keeps.after (State.dutyStep_keeps ..)
          | apply Keeps.after (State.holdStep_keeps ..)
          | apply Keeps.after (State.setNow_keeps ..)
          | apply Keeps.after (State.critShutdown_keeps ..)
          | fail_if_no_progress refine Keeps.mk' ?_ rfl rfl rfl rfl rfl rfl
          | apply Keeps.foldl
          | apply Keeps.foldlPair)
      | split
      | intro _
      | extract_lets
      | (dsimp +zetaDelta only; split)
  have hs4 : Keeps s s4 := by
    unfold s4
    repeat' first
      | (with_reducible first
          | assumption
          | exact .refl _
          | apply Keeps.ite
          | apply Keeps.after (State.setFld_keeps ..)
          | apply Keeps.after (State.sense_keeps ..)
          | apply Keeps.after (State.thermStep_keeps ..)
          | apply Keeps.after (State.shelfEvents_keeps ..)
          | apply Keeps.after (State.fanStep_keeps ..)
          | apply Keeps.after (State.dutyStep_keeps ..)
          | apply Keeps.after (State.holdStep_keeps ..)
          | apply Keeps.after (State.setNow_keeps ..)
          | apply Keeps.after (State.critShutdown_keeps ..)
          | fail_if_no_progress refine Keeps.mk' ?_ rfl rfl rfl rfl rfl rfl
          | apply Keeps.foldl
          | apply Keeps.foldlPair)
      | split
      | intro _
      | extract_lets
      | (dsimp +zetaDelta only; split)
  have hs5 : Keeps s s5 := by
    unfold s5
    repeat' first
      | (with_reducible first
          | assumption
          | exact .refl _
          | apply Keeps.ite
          | apply Keeps.after (State.setFld_keeps ..)
          | apply Keeps.after (State.sense_keeps ..)
          | apply Keeps.after (State.thermStep_keeps ..)
          | apply Keeps.after (State.shelfEvents_keeps ..)
          | apply Keeps.after (State.fanStep_keeps ..)
          | apply Keeps.after (State.dutyStep_keeps ..)
          | apply Keeps.after (State.holdStep_keeps ..)
          | apply Keeps.after (State.setNow_keeps ..)
          | apply Keeps.after (State.critShutdown_keeps ..)
          | fail_if_no_progress refine Keeps.mk' ?_ rfl rfl rfl rfl rfl rfl
          | apply Keeps.foldl
          | apply Keeps.foldlPair)
      | split
      | intro _
      | extract_lets
      | (dsimp +zetaDelta only; split)
  have hs6 : Keeps s s6 := by
    unfold s6
    repeat' first
      | (with_reducible first
          | assumption
          | exact .refl _
          | apply Keeps.ite
          | apply Keeps.after (State.setFld_keeps ..)
          | apply Keeps.after (State.sense_keeps ..)
          | apply Keeps.after (State.thermStep_keeps ..)
          | apply Keeps.after (State.shelfEvents_keeps ..)
          | apply Keeps.after (State.fanStep_keeps ..)
          | apply Keeps.after (State.dutyStep_keeps ..)
          | apply Keeps.after (State.holdStep_keeps ..)
          | apply Keeps.after (State.setNow_keeps ..)
          | apply Keeps.after (State.critShutdown_keeps ..)
          | fail_if_no_progress refine Keeps.mk' ?_ rfl rfl rfl rfl rfl rfl
          | apply Keeps.foldl
          | apply Keeps.foldlPair)
      | split
      | intro _
      | extract_lets
      | (dsimp +zetaDelta only; split)
  have hs7 : Keeps s s7 := by
    unfold s7
    repeat' first
      | (with_reducible first
          | assumption
          | exact .refl _
          | apply Keeps.ite
          | apply Keeps.after (State.setFld_keeps ..)
          | apply Keeps.after (State.sense_keeps ..)
          | apply Keeps.after (State.thermStep_keeps ..)
          | apply Keeps.after (State.shelfEvents_keeps ..)
          | apply Keeps.after (State.fanStep_keeps ..)
          | apply Keeps.after (State.dutyStep_keeps ..)
          | apply Keeps.after (State.holdStep_keeps ..)
          | apply Keeps.after (State.setNow_keeps ..)
          | apply Keeps.after (State.critShutdown_keeps ..)
          | fail_if_no_progress refine Keeps.mk' ?_ rfl rfl rfl rfl rfl rfl
          | apply Keeps.foldl
          | apply Keeps.foldlPair)
      | split
      | intro _
      | extract_lets
      | (dsimp +zetaDelta only; split)
  have hs8 : Keeps s s8 := by
    unfold s8
    repeat' first
      | (with_reducible first
          | assumption
          | exact .refl _
          | apply Keeps.ite
          | apply Keeps.after (State.setFld_keeps ..)
          | apply Keeps.after (State.sense_keeps ..)
          | apply Keeps.after (State.thermStep_keeps ..)
          | apply Keeps.after (State.shelfEvents_keeps ..)
          | apply Keeps.after (State.fanStep_keeps ..)
          | apply Keeps.after (State.dutyStep_keeps ..)
          | apply Keeps.after (State.holdStep_keeps ..)
          | apply Keeps.after (State.setNow_keeps ..)
          | apply Keeps.after (State.critShutdown_keeps ..)
          | fail_if_no_progress refine Keeps.mk' ?_ rfl rfl rfl rfl rfl rfl
          | apply Keeps.foldl
          | apply Keeps.foldlPair)
      | split
      | intro _
      | extract_lets
      | (dsimp +zetaDelta only; split)
  have hs9 : Keeps s s9 := by
    unfold s9
    repeat' first
      | (with_reducible first
          | assumption
          | exact .refl _
          | apply Keeps.ite
          | apply Keeps.after (State.setFld_keeps ..)
          | apply Keeps.after (State.sense_keeps ..)
          | apply Keeps.after (State.thermStep_keeps ..)
          | apply Keeps.after (State.shelfEvents_keeps ..)
          | apply Keeps.after (State.fanStep_keeps ..)
          | apply Keeps.after (State.dutyStep_keeps ..)
          | apply Keeps.after (State.holdStep_keeps ..)
          | apply Keeps.after (State.setNow_keeps ..)
          | apply Keeps.after (State.critShutdown_keeps ..)
          | fail_if_no_progress refine Keeps.mk' ?_ rfl rfl rfl rfl rfl rfl
          | apply Keeps.foldl
          | apply Keeps.foldlPair)
      | split
      | intro _
      | extract_lets
      | (dsimp +zetaDelta only; split)
  repeat' first
    | (with_reducible first
        | assumption
        | exact .refl _
        | apply Keeps.ite
        | apply Keeps.after (State.setFld_keeps ..)
        | apply Keeps.after (State.sense_keeps ..)
        | apply Keeps.after (State.thermStep_keeps ..)
        | apply Keeps.after (State.shelfEvents_keeps ..)
        | apply Keeps.after (State.fanStep_keeps ..)
        | apply Keeps.after (State.dutyStep_keeps ..)
        | apply Keeps.after (State.holdStep_keeps ..)
        | apply Keeps.after (State.setNow_keeps ..)
        | apply Keeps.after (State.critShutdown_keeps ..)
        | fail_if_no_progress refine Keeps.mk' ?_ rfl rfl rfl rfl rfl rfl
        | apply Keeps.foldl
        | apply Keeps.foldlPair)
    | split
    | intro _
    | extract_lets
    | (dsimp +zetaDelta only; split)

theorem execFanLoopStep_keeps (x : EnvSample) (s : State) :
    OKeeps s (execFanLoopStep x s) := by
  unfold execFanLoopStep
  repeat' first
    | (with_reducible first
        | assumption
        | exact .refl _
        | apply OKeeps.next
        | apply OKeeps.ite
        | apply Keeps.ite
        | apply Keeps.after (State.fanLoop_keeps ..)
        | fail_if_no_progress refine Keeps.mk' ?_ rfl rfl rfl rfl rfl rfl)
    | intro _

theorem execPwmLoopStall_keeps (s : State) :
    OKeeps s (execPwmLoopStall s) := by
  unfold execPwmLoopStall
  extract_lets s1 _
  have hs1 : Keeps s s1 := by
    unfold s1
    repeat' first
      | (with_reducible first
          | assumption
          | exact .refl _
          | apply OKeeps.next
          | apply OKeeps.ite
          | apply Keeps.ite
          | apply Keeps.after (State.setFld_keeps ..)
          | apply Keeps.after (State.cntEnv_keeps ..)
          | fail_if_no_progress refine Keeps.mk' ?_ rfl rfl rfl rfl rfl rfl)
      | intro _
  repeat' first
    | (with_reducible first
        | assumption
        | exact .refl _
        | apply OKeeps.next
        | apply OKeeps.ite
        | apply Keeps.ite
        | apply Keeps.after (State.setFld_keeps ..)
        | apply Keeps.after (State.cntEnv_keeps ..)
        | fail_if_no_progress refine Keeps.mk' ?_ rfl rfl rfl rfl rfl rfl)
    | intro _

theorem State.powerFail_keeps (s : State) :
    Keeps s (State.powerFail s) := by
  unfold State.powerFail
  extract_lets _ s1 s2 s3
  have hs1 : Keeps s s1 := by
    unfold s1
    repeat' first
      | (with_reducible first
          | assumption
          | exact .refl _
          | apply Keeps.ite
          | apply Keeps.after (State.setFld_keeps ..)
          | apply Keeps.after (State.chargerSwitch_keeps ..)
          | apply Keeps.after (State.orderDump_keeps ..)
          | fail_if_no_progress refine Keeps.mk' ?_ rfl rfl rfl rfl rfl rfl)
      | intro _
  have hs2 : Keeps s s2 := by
    unfold s2
    repeat' first
      | (with_reducible first
          | assumption
          | exact .refl _
          | apply Keeps.ite
          | apply Keeps.after (State.setFld_keeps ..)
          | apply Keeps.after (State.chargerSwitch_keeps ..)
          | apply Keeps.after (State.orderDump_keeps ..)
          | fail_if_no_progress refine Keeps.mk' ?_ rfl rfl rfl rfl rfl rfl)
      | intro _
  have hs3 : Keeps s s3 := by
    unfold s3
    repeat' first
      | (with_reducible first
          | assumption
          | exact .refl _
          | apply Keeps.ite
          | apply Keeps.after (State.setFld_keeps ..)
          | apply Keeps.after (State.chargerSwitch_keeps ..)
          | apply Keeps.after (State.orderDump_keeps ..)
          | fail_if_no_progress refine Keeps.mk' ?_ rfl rfl rfl rfl rfl rfl)
      | intro _
  repeat' first
    | (with_reducible first
        | assumption
        | exact .refl _
        | apply Keeps.ite
        | apply Keeps.after (State.setFld_keeps ..)
        | apply Keeps.after (State.chargerSwitch_keeps ..)
        | apply Keeps.after (State.orderDump_keeps ..)
        | fail_if_no_progress refine Keeps.mk' ?_ rfl rfl rfl rfl rfl rfl)
    | intro _

theorem execPowerFailLatch_keeps (s : State) :
    OKeeps s (execPowerFailLatch s) := by
  unfold execPowerFailLatch
  repeat' first
    | (with_reducible first
        | assumption
        | exact .refl _
        | apply OKeeps.next
        | apply OKeeps.ite
        | apply Keeps.ite
        | apply Keeps.after (State.powerFail_keeps ..)
        | fail_if_no_progress refine Keeps.mk' ?_ rfl rfl rfl rfl rfl rfl)
    | intro _

theorem execInputPowerReturn_keeps (s : State) :
    OKeeps s (execInputPowerReturn s) := by
  unfold execInputPowerReturn
  extract_lets _
  repeat' first
    | (with_reducible first
        | assumption
        | exact .refl _
        | apply OKeeps.next
        | apply OKeeps.ite
        | apply Keeps.ite
        | apply Keeps.after (State.cntEnv_keeps ..)
        | apply Keeps.after (State.chargerSwitch_keeps ..)
        | fail_if_no_progress refine Keeps.mk' ?_ rfl rfl rfl rfl rfl rfl)
    | intro _

theorem envSet_keeps (d : Desc) (s : State) :
    Keeps s (envSet d s) := by
  unfold envSet
  extract_lets _ _
  repeat' first
    | (with_reducible first
        | assumption
        | exact .refl _
        | apply Keeps.ite
        | apply Keeps.after (State.checked_keeps (hok := ?_) ..)
        | apply Keeps.after (State.orderDump_keeps ..)
        | fail_if_no_progress refine Keeps.mk' ?_ rfl rfl rfl rfl rfl rfl)
    | intro _
    | extract_lets

theorem execEnvSet_keeps (s : State) :
    OKeeps s (execEnvSet s) := by
  unfold execEnvSet
  repeat' first
    | (with_reducible first
        | assumption
        | exact .refl _
        | apply OKeeps.next
        | apply OKeeps.ite
        | apply Keeps.ite
        | apply Keeps.after (State.ringCmd_keeps (hbody := ?_) ..)
        | apply Keeps.after (envSet_keeps ..)
        | fail_if_no_progress refine Keeps.mk' ?_ rfl rfl rfl rfl rfl rfl)
    | intro _

theorem State.evaluation_keeps (s : State) (vbus hold : Nat) (bays : List BaySample) :
    Keeps s (State.evaluation s vbus hold bays) := by
  unfold State.evaluation
  extract_lets s1 s2 v1 s3 s4
  have hs1 : Keeps s s1 := by
    unfold s1
    repeat' first
      | (with_reducible first
          | assumption
          | exact .refl _
          | apply Keeps.ite
          | apply Keeps.after (State.setFld_keeps ..)
          | apply Keeps.after (State.bayEval_keeps ..)
          | apply Keeps.after (State.startAll_keeps ..)
          | apply Keeps.after (State.chargerSwitch_keeps ..)
          | apply Keeps.after (State.chargerTimeout_keeps ..)
          | fail_if_no_progress refine Keeps.mk' ?_ rfl rfl rfl rfl rfl rfl
          | apply Keeps.foldl
          | apply Keeps.foldlPair)
      | split
      | unfold v1
      | intro _
      | extract_lets
      | (dsimp +zetaDelta only; split)
  have hs2 : Keeps s s2 := by
    unfold s2
    repeat' first
      | (with_reducible first
          | assumption
          | exact .refl _
          | apply Keeps.ite
          | apply Keeps.after (State.setFld_keeps ..)
          | apply Keeps.after (State.bayEval_keeps ..)
          | apply Keeps.after (State.startAll_keeps ..)
          | apply Keeps.after (State.chargerSwitch_keeps ..)
          | apply Keeps.after (State.chargerTimeout_keeps ..)
          | fail_if_no_progress refine Keeps.mk' ?_ rfl rfl rfl rfl rfl rfl
          | apply Keeps.foldl
          | apply Keeps.foldlPair)
      | split
      | unfold v1
      | intro _
      | extract_lets
      | (dsimp +zetaDelta only; split)
  have hs3 : Keeps s s3 := by
    unfold s3
    repeat' first
      | (with_reducible first
          | assumption
          | exact .refl _
          | apply Keeps.ite
          | apply Keeps.after (State.setFld_keeps ..)
          | apply Keeps.after (State.bayEval_keeps ..)
          | apply Keeps.after (State.startAll_keeps ..)
          | apply Keeps.after (State.chargerSwitch_keeps ..)
          | apply Keeps.after (State.chargerTimeout_keeps ..)
          | fail_if_no_progress refine Keeps.mk' ?_ rfl rfl rfl rfl rfl rfl
          | apply Keeps.foldl
          | apply Keeps.foldlPair)
      | split
      | unfold v1
      | intro _
      | extract_lets
      | (dsimp +zetaDelta only; split)
  have hs4 : Keeps s s4 := by
    unfold s4
    repeat' first
      | (with_reducible first
          | assumption
          | exact .refl _
          | apply Keeps.ite
          | apply Keeps.after (State.setFld_keeps ..)
          | apply Keeps.after (State.bayEval_keeps ..)
          | apply Keeps.after (State.startAll_keeps ..)
          | apply Keeps.after (State.chargerSwitch_keeps ..)
          | apply Keeps.after (State.chargerTimeout_keeps ..)
          | fail_if_no_progress refine Keeps.mk' ?_ rfl rfl rfl rfl rfl rfl
          | apply Keeps.foldl
          | apply Keeps.foldlPair)
      | split
      | unfold v1
      | intro _
      | extract_lets
      | (dsimp +zetaDelta only; split)
  repeat' first
    | (with_reducible first
        | assumption
        | exact .refl _
        | apply Keeps.ite
        | apply Keeps.after (State.setFld_keeps ..)
        | apply Keeps.after (State.bayEval_keeps ..)
        | apply Keeps.after (State.startAll_keeps ..)
        | apply Keeps.after (State.chargerSwitch_keeps ..)
        | apply Keeps.after (State.chargerTimeout_keeps ..)
        | fail_if_no_progress refine Keeps.mk' ?_ rfl rfl rfl rfl rfl rfl
        | apply Keeps.foldl
        | apply Keeps.foldlPair)
    | split
    | unfold v1
    | intro _
    | extract_lets
    | (dsimp +zetaDelta only; split)

theorem execBayEvaluation_keeps (vbus hold : Fin 4096) (bays : List BaySample) (s : State) :
    OKeeps s (execBayEvaluation vbus hold bays s) := by
  unfold execBayEvaluation
  repeat' first
    | (with_reducible first
        | assumption
        | exact .refl _
        | apply OKeeps.next
        | apply OKeeps.ite
        | apply Keeps.ite
        | apply Keeps.after (State.evaluation_keeps ..)
        | fail_if_no_progress refine Keeps.mk' ?_ rfl rfl rfl rfl rfl rfl)
    | intro _

end Sys2Proof.Machine
end

