-- ==== Sys2Proof/Laws/KeepFaults.lean ====
section
/-!
SUPPORT. What the operations of Machine/Faults.lean keep (Laws/Keep.lean).
-/

namespace Sys2Proof.Machine

open Sys2Proof

theorem State.clusterFault_keeps (s : State) (k cause engine unit : Nat) :
    Keeps s (State.clusterFault s k cause engine unit) := by
  unfold State.clusterFault
  repeat' first
    | (with_reducible first
        | assumption
        | exact .refl _
        | apply Keeps.ite
        | apply Keeps.ite2
        | apply Keeps.ite1
        | apply Keeps.after (State.detect_keeps ..)
        | apply Keeps.after (State.overrun_keeps ..)
        | fail_if_no_progress refine Keeps.mk' ?_ rfl rfl rfl rfl rfl rfl
        | apply Keeps.foldl
        | apply Keeps.foldlPair)
    | split
    | intro _
    | extract_lets
    | (dsimp +zetaDelta only; split)

theorem execClusterFault_keeps (k : Fin 12) (cause engine : Fin 8) (unit : Fin 16) (s : State) :
    OKeeps s (execClusterFault k cause engine unit s) := by
  unfold execClusterFault
  repeat' first
    | (with_reducible first
        | assumption
        | exact .refl _
        | apply OKeeps.next
        | apply OKeeps.ite
        | apply Keeps.ite
        | apply Keeps.after (State.clusterFault_keeps ..))

theorem execPortLost_keeps (p : Fin 16) (cause : Fin 4) (ref : Bool) (s : State) :
    OKeeps s (execPortLost p cause ref s) := by
  unfold execPortLost
  extract_lets s1
  have hs1 : Keeps s s1 := by
    unfold s1
    repeat' first
      | (with_reducible first
          | assumption
          | exact .refl _
          | apply OKeeps.next
          | apply OKeeps.ite
          | apply Keeps.ite
          | apply Keeps.after (State.clockSet_keeps ..))
  repeat' first
    | (with_reducible first
        | assumption
        | exact .refl _
        | apply OKeeps.next
        | apply OKeeps.ite
        | apply Keeps.ite
        | apply Keeps.after (State.clockSet_keeps ..)
        | apply Keeps.after (State.losePort_keeps ..))

theorem State.loseStack_keeps (s : State) (n cause : Nat) :
    Keeps s (State.loseStack s n cause) := by
  unfold State.loseStack
  extract_lets _ s1 s2 s3 _ s4
  have hs1 : Keeps s s1 := by
    unfold s1
    repeat' first
      | (with_reducible first
          | assumption
          | exact .refl _
          | apply Keeps.ite
          | apply Keeps.after (State.setFld_keeps ..))
  have hs2 : Keeps s s2 := by
    unfold s2
    repeat' first
      | (with_reducible first
          | assumption
          | exact .refl _
          | apply Keeps.ite
          | apply Keeps.after (State.setFld_keeps ..))
  have hs3 : Keeps s s3 := by
    unfold s3
    repeat' first
      | (with_reducible first
          | assumption
          | exact .refl _
          | apply Keeps.ite
          | apply Keeps.after (State.setFld_keeps ..)
          | apply Keeps.after (State.raise_keeps ..)
          | apply Keeps.after (State.clockSet_keeps ..))
  have hs4 : Keeps s s4 := by
    unfold s4
    repeat' first
      | (with_reducible first
          | assumption
          | exact .refl _
          | apply Keeps.ite
          | apply Keeps.after (State.setFld_keeps ..)
          | apply Keeps.after (State.raise_keeps ..)
          | apply Keeps.after (State.clockSet_keeps ..)
          | fail_if_no_progress refine Keeps.mk' ?_ rfl rfl rfl rfl rfl rfl)
  repeat' first
    | (with_reducible first
        | assumption
        | exact .refl _
        | apply Keeps.ite
        | apply Keeps.after (State.setFld_keeps ..)
        | apply Keeps.after (State.raise_keeps ..))

theorem execHbmStackLost_keeps (n : Fin 4) (cause : Fin 4) (s : State) :
    OKeeps s (execHbmStackLost n cause s) := by
  unfold execHbmStackLost
  repeat' first
    | (with_reducible first
        | assumption
        | exact .refl _
        | apply OKeeps.next
        | apply OKeeps.ite
        | apply Keeps.ite
        | apply Keeps.after (State.loseStack_keeps ..))

theorem State.dropStackLines_keeps (s : State) (n : Nat) :
    Keeps s (State.dropStackLines s n) := by
  unfold State.dropStackLines
  extract_lets _ _ s1
  have hs1 : Keeps s s1 := by
    unfold s1
    repeat' first
      | (with_reducible first
          | assumption
          | exact .refl _
          | apply Keeps.ite
          | apply Keeps.ite2
          | apply Keeps.ite1
          | apply Keeps.after (State.dropLine_keeps ..)
          | apply Keeps.after (State.dirtyLost_keeps ..)
          | fail_if_no_progress refine Keeps.mk' ?_ rfl rfl rfl rfl rfl rfl
          | apply Keeps.foldl
          | apply Keeps.foldlPair)
      | intro _
  repeat' first
    | (with_reducible first
        | assumption
        | exact .refl _
        | apply Keeps.ite
        | apply Keeps.ite2
        | apply Keeps.ite1
        | apply Keeps.after (State.dropLine_keeps ..)
        | apply Keeps.after (State.dirtyLost_keeps ..)
        | fail_if_no_progress refine Keeps.mk' ?_ rfl rfl rfl rfl rfl rfl
        | apply Keeps.foldl
        | apply Keeps.foldlPair)
    | intro _

theorem State.stackDestages_keeps (s : State) (n : Nat) (ws : List Work) :
    Keeps s (State.stackDestages s n ws) := by
  unfold State.stackDestages
  extract_lets v1 s1
  have hs1 : Keeps s s1 := by
    unfold s1
    repeat' first
      | (with_reducible first
          | assumption
          | exact .refl _
          | apply Keeps.ite
          | apply Keeps.ite1
          | apply Keeps.after (State.dropItems_keeps ..)
          | apply Keeps.after (State.updPool_keeps ..)
          | apply Keeps.after (State.dropWork_keeps ..)
          | apply Keeps.after (State.startResync_keeps ..)
          | apply Keeps.after (State.releaseRef_keeps ..)
          | apply Keeps.after (State.linesBack_keeps ..)
          | fail_if_no_progress refine Keeps.mk' ?_ rfl rfl rfl rfl rfl rfl
          | apply Keeps.foldl
          | apply Keeps.foldlPair)
      | split
      | unfold v1
      | intro _
  repeat' first
    | (with_reducible first
        | assumption
        | exact .refl _
        | apply Keeps.ite
        | apply Keeps.ite1
        | apply Keeps.after (State.dropItems_keeps ..)
        | apply Keeps.after (State.updPool_keeps ..)
        | apply Keeps.after (State.dropWork_keeps ..)
        | apply Keeps.after (State.startResync_keeps ..)
        | apply Keeps.after (State.releaseRef_keeps ..)
        | apply Keeps.after (State.linesBack_keeps ..)
        | fail_if_no_progress refine Keeps.mk' ?_ rfl rfl rfl rfl rfl rfl
        | apply Keeps.foldl
        | apply Keeps.foldlPair)
    | split
    | unfold v1
    | intro _

theorem State.stackMaps_keeps (s : State) (n : Nat) :
    Keeps s (State.stackMaps s n) := by
  unfold State.stackMaps
  repeat' first
    | (with_reducible first
        | assumption
        | exact .refl _
        | apply Keeps.ite
        | apply Keeps.after (State.updVol_keeps ..)
        | fail_if_no_progress refine Keeps.mk' ?_ rfl rfl rfl rfl rfl rfl
        | apply Keeps.foldl
        | apply Keeps.foldlPair)
    | intro _

theorem State.stackDrop_keeps (s : State) (n : Nat) :
    Keeps s (State.stackDrop s n) := by
  unfold State.stackDrop
  extract_lets _
  repeat' first
    | (with_reducible first
        | assumption
        | exact .refl _
        | apply Keeps.ite
        | apply Keeps.after (State.dropStackLines_keeps ..)
        | apply Keeps.after (State.stackDestages_keeps ..)
        | apply Keeps.after (State.stackMaps_keeps ..))

theorem State.badLine_keeps (s : State) (i : Nat) :
    Keeps s (State.badLine s i) := by
  unfold State.badLine
  extract_lets _ _ s1
  have hs1 : Keeps s s1 := by
    unfold s1
    repeat' first
      | (with_reducible first
          | assumption
          | exact .refl _
          | apply Keeps.ite
          | apply Keeps.after (State.cntChk_keeps ..)
          | apply Keeps.after (State.setLine_keeps ..)
          | apply Keeps.after (State.poisonLine_keeps ..)
          | apply Keeps.after (State.evictLine_keeps ..)
          | fail_if_no_progress refine Keeps.mk' ?_ rfl rfl rfl rfl rfl rfl)
  repeat' first
    | (with_reducible first
        | assumption
        | exact .refl _
        | apply Keeps.ite
        | apply Keeps.after (State.cntChk_keeps ..)
        | apply Keeps.after (State.setLine_keeps ..)
        | apply Keeps.after (State.poisonLine_keeps ..)
        | apply Keeps.after (State.evictLine_keeps ..))

theorem State.badImage_keeps (s : State) (b : Bool) (k engine : Nat) :
    Keeps s (State.badImage s b k engine) := by
  unfold State.badImage
  extract_lets v1 v2 s1
  have hs1 : Keeps s s1 := by
    unfold s1
    repeat' first
      | (with_reducible first
          | assumption
          | exact .refl _
          | apply Keeps.ite
          | apply Keeps.after (State.doneOpt_keeps ..)
          | apply Keeps.after (State.setBuf_keeps ..)
          | apply Keeps.after (State.loadStatus_keeps ..)
          | apply Keeps.after (State.loadEnd_keeps ..)
          | apply Keeps.after (State.detect_keeps ..)
          | fail_if_no_progress refine Keeps.mk' ?_ rfl rfl rfl rfl rfl rfl)
  repeat' first
    | (with_reducible first
        | assumption
        | exact .refl _
        | apply Keeps.ite
        | apply Keeps.after (State.doneOpt_keeps ..)
        | apply Keeps.after (State.setBuf_keeps ..)
        | apply Keeps.after (State.loadStatus_keeps ..)
        | apply Keeps.after (State.loadEnd_keeps ..)
        | apply Keeps.after (State.detect_keeps ..)
        | fail_if_no_progress refine Keeps.mk' ?_ rfl rfl rfl rfl rfl rfl)
    | split

theorem execHbmUncorrectable_keeps (n : Fin 4) (r : HbmRegion) (s : State) :
    OKeeps s (execHbmUncorrectable n r s) := by
  unfold execHbmUncorrectable
  extract_lets s1
  have hs1 : Keeps s s1 := by
    unfold s1
    repeat' first
      | (with_reducible first
          | assumption
          | exact .refl _
          | apply OKeeps.next
          | apply OKeeps.ite
          | apply Keeps.ite
          | apply Keeps.after (State.satFld_keeps ..))
  repeat' first
    | (with_reducible first
        | assumption
        | exact .refl _
        | apply OKeeps.next
        | apply OKeeps.ite
        | apply Keeps.ite
        | apply Keeps.after (State.satFld_keeps ..)
        | apply Keeps.after (State.dropTrace_keeps ..)
        | apply Keeps.after (State.dropSnap_keeps ..)
        | apply Keeps.after (State.loseStack_keeps ..)
        | apply Keeps.after (State.badLine_keeps ..)
        | apply Keeps.after (State.badImage_keeps ..)
        | fail_if_no_progress refine Keeps.mk' ?_ rfl rfl rfl rfl rfl rfl)
    | split

theorem State.fatalError_keeps (s : State) (src : Nat) :
    Keeps s (State.fatalError s src) := by
  unfold State.fatalError
  extract_lets _
  repeat' first
    | (with_reducible first
        | assumption
        | exact .refl _
        | apply Keeps.ite
        | apply Keeps.after (State.setFld_keeps ..)
        | apply Keeps.after (State.chipReset_keeps ..)
        | apply Keeps.after (State.orderDump_keeps ..))

theorem execFatalError_keeps (src : Fin 8) (s : State) :
    OKeeps s (execFatalError src s) := by
  unfold execFatalError
  repeat' first
    | (with_reducible first
        | assumption
        | exact .refl _
        | apply OKeeps.next
        | apply OKeeps.ite
        | apply Keeps.ite
        | apply Keeps.after (State.fatalError_keeps ..))

theorem State.spoilFrame_keeps (s : State) (id : Nat) :
    Keeps s (State.spoilFrame s id) := by
  unfold State.spoilFrame
  extract_lets _ _ s1
  have hs1 : Keeps s s1 := by
    unfold s1
    repeat' first
      | (with_reducible first
          | assumption
          | exact .refl _
          | apply Keeps.ite
          | apply Keeps.ite2
          | apply Keeps.ite1
          | apply Keeps.after (State.updQp_keeps ..)
          | fail_if_no_progress refine Keeps.mk' ?_ rfl rfl rfl rfl rfl rfl)
  repeat' first
    | (with_reducible first
        | assumption
        | exact .refl _
        | apply Keeps.ite
        | apply Keeps.ite2
        | apply Keeps.ite1
        | apply Keeps.after (State.updQp_keeps ..)
        | fail_if_no_progress refine Keeps.mk' ?_ rfl rfl rfl rfl rfl rfl
        | apply Keeps.foldl
        | apply Keeps.foldlPair)
    | intro _

theorem State.spoilEgress_keeps (s : State) (id : Nat) :
    Keeps s (State.spoilEgress s id) := by
  unfold State.spoilEgress
  repeat' first
    | (with_reducible first
        | assumption
        | exact .refl _
        | apply Keeps.ite
        | apply Keeps.ite2
        | apply Keeps.ite1
        | apply Keeps.after (State.discardQueued_keeps ..)
        | apply Keeps.after (State.cntSwc_keeps ..)
        | fail_if_no_progress refine Keeps.mk' ?_ rfl rfl rfl rfl rfl rfl
        | apply Keeps.foldl
        | apply Keeps.foldlPair)
    | split
    | intro _
    | extract_lets
    | (dsimp +zetaDelta only; split)

theorem execSeraiEccError_keeps (area : Fin 5) (index : Word) (corrected : Bool) (hit : SeraiHit) (s : State) :
    OKeeps s (execSeraiEccError area index corrected hit s) := by
  unfold execSeraiEccError
  extract_lets s1
  have hs1 : Keeps s s1 := by
    unfold s1
    repeat' first
      | (with_reducible first
          | assumption
          | exact .refl _
          | apply OKeeps.next
          | apply OKeeps.ite
          | apply Keeps.ite
          | apply Keeps.after (State.cntSwc_keeps ..)
          | apply Keeps.after (State.raise_keeps ..))
  repeat' first
    | (with_reducible first
        | assumption
        | exact .refl _
        | apply OKeeps.next
        | apply OKeeps.ite
        | apply Keeps.ite
        | apply Keeps.after (State.cntSwc_keeps ..)
        | apply Keeps.after (State.raise_keeps ..)
        | apply Keeps.after (State.updQp_keeps ..)
        | apply Keeps.after (State.fatalError_keeps ..)
        | apply Keeps.after (State.spoilFrame_keeps ..)
        | apply Keeps.after (State.spoilEgress_keeps ..)
        | fail_if_no_progress refine Keeps.mk' ?_ rfl rfl rfl rfl rfl rfl)
    | split

end Sys2Proof.Machine
end

