-- ==== Sys2Proof/Laws/KeepGlb.lean ====
section
/-!
SUPPORT. What the operations of Machine/Glb.lean keep (Laws/Keep.lean).
-/

namespace Sys2Proof.Machine

open Sys2Proof

theorem State.msixUnmask_keeps (s : State) (v : Nat) :
    Keeps s (State.msixUnmask s v) := by
  unfold State.msixUnmask
  repeat' first
    | (with_reducible first
        | assumption
        | exact .refl _
        | apply Keeps.ite
        | apply Keeps.ite2
        | apply Keeps.ite1
        | apply Keeps.after (State.setFld_keeps ..)
        | apply Keeps.after (State.msix_keeps ..)
        | fail_if_no_progress refine Keeps.mk' ?_ rfl rfl rfl rfl rfl rfl
        | apply Keeps.foldl
        | apply Keeps.foldlPair)
    | split
    | intro _
    | extract_lets
    | (dsimp +zetaDelta only; split)

theorem State.afterWrite_keeps (s : State) (off : Nat) :
    Keeps s (State.afterWrite s off) := by
  unfold State.afterWrite
  repeat' first
    | (with_reducible first
        | assumption
        | exact .refl _
        | apply Keeps.ite
        | apply Keeps.ite2
        | apply Keeps.ite1
        | apply Keeps.after (State.msixUnmask_keeps ..)
        | apply Keeps.after (State.wrReg_keeps ..)
        | apply Keeps.after (State.irqCheck_keeps ..)
        | fail_if_no_progress refine Keeps.mk' ?_ rfl rfl rfl rfl rfl rfl
        | apply Keeps.foldl
        | apply Keeps.foldlPair)
    | split
    | intro _
    | extract_lets
    | (dsimp +zetaDelta only; split)

theorem State.pfcChanged_keeps (s : State) (m : Option Nat) :
    Keeps s (State.pfcChanged s m) := by
  unfold State.pfcChanged
  repeat' first
    | (with_reducible first
        | assumption
        | exact .refl _
        | apply Keeps.ite
        | apply Keeps.ite2
        | apply Keeps.ite1
        | apply Keeps.after (State.pfcPair_keeps ..)
        | apply Keeps.after (State.pfcCheck_keeps ..)
        | fail_if_no_progress refine Keeps.mk' ?_ rfl rfl rfl rfl rfl rfl
        | apply Keeps.foldl
        | apply Keeps.foldlPair)
    | split
    | intro _
    | extract_lets
    | (dsimp +zetaDelta only; split)

theorem State.reconfigured_keeps (s : State) (off : Nat) :
    Keeps s (State.reconfigured s off) := by
  unfold State.reconfigured
  repeat' first
    | (with_reducible first
        | assumption
        | exact .refl _
        | apply Keeps.ite
        | apply Keeps.ite2
        | apply Keeps.ite1
        | apply Keeps.after (State.shaperStart_keeps ..)
        | apply Keeps.after (State.pfcChanged_keeps ..)
        | apply Keeps.after (State.ptpCtl_keeps ..)
        | fail_if_no_progress refine Keeps.mk' ?_ rfl rfl rfl rfl rfl rfl
        | apply Keeps.foldl
        | apply Keeps.foldlPair)
    | split
    | intro _
    | extract_lets
    | (dsimp +zetaDelta only; split)

theorem State.write32_keeps (s : State) (off : Nat) (w : Word) :
    Keeps s (State.write32 s off w) := by
  unfold State.write32
  repeat' first
    | (with_reducible first
        | assumption
        | exact .refl _
        | apply Keeps.ite
        | apply Keeps.ite2
        | apply Keeps.ite1
        | apply Keeps.after (State.afterWrite_keeps ..)
        | apply Keeps.after (State.reconfigured_keeps ..)
        | apply Keeps.after (State.hostWrite_keeps ..)
        | apply Keeps.after (State.regWrite_keeps ..)
        | fail_if_no_progress refine Keeps.mk' ?_ rfl rfl rfl rfl rfl rfl
        | apply Keeps.foldl
        | apply Keeps.foldlPair)
    | split
    | intro _
    | extract_lets
    | (dsimp +zetaDelta only; split)

theorem State.registerWrite_keeps (s : State) (off size : Nat) (w : BitVec 64) (abandoned : Bool) :
    Keeps s (State.registerWrite s off size w abandoned) := by
  unfold State.registerWrite
  repeat' first
    | (with_reducible first
        | assumption
        | exact .refl _
        | apply Keeps.ite
        | apply Keeps.ite2
        | apply Keeps.ite1
        | apply Keeps.after (State.write32_keeps ..)
        | apply Keeps.after (State.satFld_keeps ..)
        | fail_if_no_progress refine Keeps.mk' ?_ rfl rfl rfl rfl rfl rfl
        | apply Keeps.foldl
        | apply Keeps.foldlPair)
    | split
    | intro _
    | extract_lets
    | (dsimp +zetaDelta only; split)

theorem execRegisterWrite_keeps (off size : Nat) (w : BitVec 64) (abandoned : Bool) (s : State) :
    OKeeps s (execRegisterWrite off size w abandoned s) := by
  unfold execRegisterWrite
  repeat' first
    | (with_reducible first
        | assumption
        | exact .refl _
        | apply OKeeps.next
        | apply OKeeps.ite
        | apply Keeps.ite
        | apply Keeps.ite2
        | apply Keeps.ite1
        | apply Keeps.after (State.registerWrite_keeps ..)
        | fail_if_no_progress refine Keeps.mk' ?_ rfl rfl rfl rfl rfl rfl
        | apply Keeps.foldl
        | apply Keeps.foldlPair)
    | split
    | intro _
    | extract_lets
    | (dsimp +zetaDelta only; split)

theorem State.readClear_keeps (s : State) (off : Nat) :
    Keeps s (State.readClear s off) := by
  unfold State.readClear
  repeat' first
    | (with_reducible first
        | assumption
        | exact .refl _
        | apply Keeps.ite
        | apply Keeps.after (State.setFld_keeps ..)
        | apply Keeps.after (State.acc_keeps ..)
        | fail_if_no_progress refine Keeps.mk' ?_ rfl rfl rfl rfl rfl rfl
        | apply Keeps.foldl
        | apply Keeps.foldlPair)
    | split
    | intro _

theorem State.read32_keeps (s : State) (off : Nat) :
    Keeps s (State.read32 s off).2 := by
  unfold State.read32
  repeat' first
    | (with_reducible first
        | assumption
        | exact .refl _
        | apply Keeps.ite
        | apply Keeps.ite2
        | apply Keeps.ite1
        | apply Keeps.after (State.latch_keeps ..)
        | apply Keeps.after (State.readClear_keeps ..)
        | fail_if_no_progress refine Keeps.mk' ?_ rfl rfl rfl rfl rfl rfl
        | apply Keeps.foldl
        | apply Keeps.foldlPair)
    | split
    | intro _
    | extract_lets
    | (dsimp +zetaDelta only; split)

theorem State.readOut_keeps (s : State) (off : Nat) :
    Keeps s (State.readOut s off) := by
  unfold State.readOut
  repeat' first
    | (with_reducible first
        | assumption
        | exact .refl _
        | apply Keeps.ite
        | apply Keeps.ite2
        | apply Keeps.ite1
        | apply Keeps.after (State.read32_keeps ..)
        | apply Keeps.after (State.emit_keeps ..)
        | fail_if_no_progress refine Keeps.mk' ?_ rfl rfl rfl rfl rfl rfl
        | apply Keeps.foldl
        | apply Keeps.foldlPair)
    | split
    | intro _
    | extract_lets
    | (dsimp +zetaDelta only; split)

theorem State.registerRead_keeps (s : State) (off size : Nat) :
    Keeps s (State.registerRead s off size) := by
  unfold State.registerRead
  repeat' first
    | (with_reducible first
        | assumption
        | exact .refl _
        | apply Keeps.ite
        | apply Keeps.ite2
        | apply Keeps.ite1
        | apply Keeps.after (State.read32_keeps ..)
        | apply Keeps.after (State.readOut_keeps ..)
        | apply Keeps.after (State.emit_keeps ..)
        | fail_if_no_progress refine Keeps.mk' ?_ rfl rfl rfl rfl rfl rfl
        | apply Keeps.foldl
        | apply Keeps.foldlPair)
    | split
    | intro _
    | extract_lets
    | (dsimp +zetaDelta only; split)

theorem execRegisterReadClear_keeps (a : RegAccess) (s : State) :
    OKeeps s (execRegisterReadClear a s) := by
  unfold execRegisterReadClear
  repeat' first
    | (with_reducible first
        | assumption
        | exact .refl _
        | apply OKeeps.next
        | apply OKeeps.ite
        | apply Keeps.ite
        | apply Keeps.ite2
        | apply Keeps.ite1
        | apply Keeps.after (State.registerRead_keeps ..)
        | fail_if_no_progress refine Keeps.mk' ?_ rfl rfl rfl rfl rfl rfl
        | apply Keeps.foldl
        | apply Keeps.foldlPair)
    | split
    | intro _
    | extract_lets
    | (dsimp +zetaDelta only; split)

theorem execCounterLowRead_keeps (a : RegAccess) (s : State) :
    OKeeps s (execCounterLowRead a s) := by
  unfold execCounterLowRead
  repeat' first
    | (with_reducible first
        | assumption
        | exact .refl _
        | apply OKeeps.next
        | apply OKeeps.ite
        | apply Keeps.ite
        | apply Keeps.ite2
        | apply Keeps.ite1
        | apply Keeps.after (State.registerRead_keeps ..)
        | fail_if_no_progress refine Keeps.mk' ?_ rfl rfl rfl rfl rfl rfl
        | apply Keeps.foldl
        | apply Keeps.foldlPair)
    | split
    | intro _
    | extract_lets
    | (dsimp +zetaDelta only; split)

theorem execAbandonedRegisterRead_keeps (off : Nat) (s : State) :
    OKeeps s (execAbandonedRegisterRead off s) := by
  unfold execAbandonedRegisterRead
  repeat' first
    | (with_reducible first
        | assumption
        | exact .refl _
        | apply OKeeps.next
        | apply OKeeps.ite
        | apply Keeps.ite
        | apply Keeps.after (State.satFld_keeps ..)
        | apply Keeps.after (State.emit_keeps ..))

theorem State.lockWrite_keeps (s : State) (w : Word) :
    Keeps s (State.lockWrite s w) := by
  unfold State.lockWrite
  extract_lets s1 v1
  have hs1 : Keeps s s1 := by
    unfold s1
    repeat' first
      | (with_reducible first
          | assumption
          | exact .refl _
          | apply Keeps.ite
          | apply Keeps.after (State.setFld_keeps ..))
  repeat' first
    | (with_reducible first
        | assumption
        | exact .refl _
        | apply Keeps.ite
        | apply Keeps.after (State.setFld_keeps ..)
        | fail_if_no_progress refine Keeps.mk' ?_ rfl rfl rfl rfl rfl rfl)
    | split
    | unfold v1
    | intro _
    | extract_lets

theorem execGlbLockSet_keeps (w : Word) (s : State) :
    OKeeps s (execGlbLockSet w s) := by
  unfold execGlbLockSet
  repeat' first
    | (with_reducible first
        | assumption
        | exact .refl _
        | apply OKeeps.next
        | apply OKeeps.ite
        | apply Keeps.ite
        | apply Keeps.after (State.lockWrite_keeps ..))

theorem execEndpointReset_keeps (kind : Fin 4) (ref : Bool) (s : State) :
    OKeeps s (execEndpointReset kind ref s) := by
  unfold execEndpointReset
  extract_lets s1 s2 _
  have hs1 : Keeps s s1 := by
    unfold s1
    repeat' first
      | (with_reducible first
          | assumption
          | exact .refl _
          | apply OKeeps.next
          | apply OKeeps.ite
          | apply Keeps.ite
          | apply Keeps.after (State.clockSet_keeps ..)
          | apply Keeps.after (State.stopRings_keeps ..)
          | apply Keeps.after (State.copyAbort_keeps ..))
  have hs2 : Keeps s s2 := by
    unfold s2
    repeat' first
      | (with_reducible first
          | assumption
          | exact .refl _
          | apply OKeeps.next
          | apply OKeeps.ite
          | apply Keeps.ite
          | apply Keeps.after (State.clockSet_keeps ..))
  repeat' first
    | (with_reducible first
        | assumption
        | exact .refl _
        | apply OKeeps.next
        | apply OKeeps.ite
        | apply Keeps.ite
        | apply Keeps.after (State.clockSet_keeps ..)
        | apply Keeps.after (State.stopRings_keeps ..)
        | apply Keeps.after (State.copyAbort_keeps ..)
        | fail_if_no_progress refine Keeps.mk' ?_ rfl rfl rfl rfl rfl rfl)

end Sys2Proof.Machine
end

