-- ==== Sys2Proof/Laws/KeepChan.lean ====
section
/-!
SUPPORT. What the operations of Machine/Chan.lean keep (Laws/Keep.lean).
-/

namespace Sys2Proof.Machine

open Sys2Proof

theorem hostRemove_keeps (d : Desc) (s : State) :
    Keeps s (hostRemove d s) := by
  unfold hostRemove
  extract_lets _
  repeat' first
    | (with_reducible first
        | assumption
        | exact .refl _
        | apply Keeps.ite
        | apply Keeps.after (State.done_keeps ..)
        | apply Keeps.after (State.checked_keeps (hok := ?_) ..)
        | apply Keeps.after (State.setHost_keeps ..)
        | fail_if_no_progress refine Keeps.mk' ?_ rfl rfl rfl rfl rfl rfl)
    | intro _

theorem execHostRemove_keeps (s : State) :
    OKeeps s (execHostRemove s) := by
  unfold execHostRemove
  repeat' first
    | (with_reducible first
        | assumption
        | exact .refl _
        | apply OKeeps.next
        | apply OKeeps.ite
        | apply Keeps.ite
        | apply Keeps.after (State.ringCmd_keeps (hbody := ?_) ..)
        | apply Keeps.after (hostRemove_keeps ..)
        | fail_if_no_progress refine Keeps.mk' ?_ rfl rfl rfl rfl rfl rfl)
    | intro _

theorem imgLoad_keeps (d : Desc) (s : State) :
    Keeps s (imgLoad d s) := by
  unfold imgLoad
  repeat' first
    | (with_reducible first
        | assumption
        | exact .refl _
        | apply Keeps.ite
        | apply Keeps.ite2
        | apply Keeps.ite1
        | apply Keeps.after (State.done_keeps ..)
        | apply Keeps.after (State.checked_keeps (hok := ?_) ..)
        | refine Keeps.trans ?_ (.pair (by assumption) (State.loadStart_keeps ..))
        | apply Keeps.after (State.loadStart_keeps ..)
        | fail_if_no_progress refine Keeps.mk' ?_ rfl rfl rfl rfl rfl rfl)
    | intro _

theorem execImgLoad_keeps (s : State) :
    OKeeps s (execImgLoad s) := by
  unfold execImgLoad
  repeat' first
    | (with_reducible first
        | assumption
        | exact .refl _
        | apply OKeeps.next
        | apply OKeeps.ite
        | apply Keeps.ite
        | apply Keeps.after (State.ringCmd_keeps (hbody := ?_) ..)
        | apply Keeps.after (imgLoad_keeps ..)
        | fail_if_no_progress refine Keeps.mk' ?_ rfl rfl rfl rfl rfl rfl)
    | intro _

theorem State.copyDone_keeps (s : State) (b ok : Bool) (bytes : List Byte) :
    Keeps s (State.copyDone s b ok bytes) := by
  unfold State.copyDone
  extract_lets v1
  repeat' first
    | (with_reducible first
        | assumption
        | exact .refl _
        | apply Keeps.ite
        | apply Keeps.after (State.mgtSend_keeps ..)
        | apply Keeps.after (State.setBuf_keeps ..)
        | apply Keeps.after (State.loadEnd_keeps ..)
        | fail_if_no_progress refine Keeps.mk' ?_ rfl rfl rfl rfl rfl rfl)
    | split

theorem execImageCopyComplete_keeps (b ok : Bool) (bytes : List Byte) (s : State) :
    OKeeps s (execImageCopyComplete b ok bytes s) := by
  unfold execImageCopyComplete
  repeat' first
    | (with_reducible first
        | assumption
        | exact .refl _
        | apply OKeeps.next
        | apply OKeeps.ite
        | apply Keeps.ite
        | apply Keeps.after (State.copyDone_keeps ..))

theorem State.imageVerdictIn_keeps (s : State) (b ok : Bool) :
    Keeps s (State.imageVerdictIn s b ok) := by
  unfold State.imageVerdictIn
  extract_lets _ _
  repeat' first
    | (with_reducible first
        | assumption
        | exact .refl _
        | apply Keeps.ite
        | apply Keeps.after (State.setBuf_keeps ..)
        | apply Keeps.after (State.loadEnd_keeps ..))

theorem imgSwap_keeps (d : Desc) (s : State) :
    Keeps s (imgSwap d s) := by
  unfold imgSwap
  repeat' first
    | (with_reducible first
        | assumption
        | exact .refl _
        | apply Keeps.ite
        | apply Keeps.after (State.checked_keeps (hok := ?_) ..)
        | apply Keeps.after (State.swapRequest_keeps ..)
        | fail_if_no_progress refine Keeps.mk' ?_ rfl rfl rfl rfl rfl rfl)
    | intro _

theorem execImgSwap_keeps (s : State) :
    OKeeps s (execImgSwap s) := by
  unfold execImgSwap
  repeat' first
    | (with_reducible first
        | assumption
        | exact .refl _
        | apply OKeeps.next
        | apply OKeeps.ite
        | apply Keeps.ite
        | apply Keeps.after (State.ringCmd_keeps (hbody := ?_) ..)
        | apply Keeps.after (imgSwap_keeps ..)
        | fail_if_no_progress refine Keeps.mk' ?_ rfl rfl rfl rfl rfl rfl)
    | intro _

theorem variantExit_keeps (d : Desc) (s : State) :
    Keeps s (variantExit d s) := by
  unfold variantExit
  extract_lets _
  repeat' first
    | (with_reducible first
        | assumption
        | exact .refl _
        | apply Keeps.ite
        | apply Keeps.after (State.checked_keeps (hok := ?_) ..)
        | fail_if_no_progress refine Keeps.mk' ?_ rfl rfl rfl rfl rfl rfl)
    | intro _

theorem execVariantExit_keeps (s : State) :
    OKeeps s (execVariantExit s) := by
  unfold execVariantExit
  repeat' first
    | (with_reducible first
        | assumption
        | exact .refl _
        | apply OKeeps.next
        | apply OKeeps.ite
        | apply Keeps.ite
        | apply Keeps.after (State.ringCmd_keeps (hbody := ?_) ..)
        | apply Keeps.after (variantExit_keeps ..)
        | fail_if_no_progress refine Keeps.mk' ?_ rfl rfl rfl rfl rfl rfl)
    | intro _

theorem State.exitNow_keeps (s : State) :
    Keeps s (State.exitNow s) := by
  unfold State.exitNow
  repeat' first
    | (with_reducible first
        | assumption
        | exact .refl _
        | apply Keeps.ite
        | apply Keeps.ite2
        | apply Keeps.ite1
        | apply Keeps.after (State.exitVariant_keeps ..)
        | apply Keeps.after (State.done_keeps ..)
        | fail_if_no_progress refine Keeps.mk' ?_ rfl rfl rfl rfl rfl rfl
        | apply Keeps.foldl
        | apply Keeps.foldlPair)
    | split
    | intro _
    | extract_lets
    | (dsimp +zetaDelta only; split)

theorem chanCreate_keeps (d : Desc) (s : State) :
    Keeps s (chanCreate d s) := by
  unfold chanCreate
  extract_lets _ _ _
  repeat' first
    | (with_reducible first
        | assumption
        | exact .refl _
        | apply Keeps.ite
        | apply Keeps.after (State.defer_keeps ..)
        | apply Keeps.after (State.checked_keeps (hok := ?_) ..)
        | fail_if_no_progress refine Keeps.mk' ?_ rfl rfl rfl rfl rfl rfl)
    | intro _

theorem execChanCreate_keeps (s : State) :
    OKeeps s (execChanCreate s) := by
  unfold execChanCreate
  repeat' first
    | (with_reducible first
        | assumption
        | exact .refl _
        | apply OKeeps.next
        | apply OKeeps.ite
        | apply Keeps.ite
        | apply Keeps.after (State.ringCmd_keeps (hbody := ?_) ..)
        | apply Keeps.after (chanCreate_keeps ..)
        | fail_if_no_progress refine Keeps.mk' ?_ rfl rfl rfl rfl rfl rfl)
    | intro _

theorem State.takeChan_keeps (s : State) :
    Keeps s (State.takeChan s) := by
  unfold State.takeChan
  repeat' first
    | (with_reducible first
        | assumption
        | exact .refl _
        | apply Keeps.ite
        | apply Keeps.ite2
        | apply Keeps.ite1
        | fail_if_no_progress refine Keeps.mk' ?_ rfl rfl rfl rfl rfl rfl
        | apply Keeps.foldl
        | apply Keeps.foldlPair)
    | split
    | intro _
    | extract_lets
    | (dsimp +zetaDelta only; split)

theorem State.chanCreateNow_keeps (s : State) (d : Desc) :
    Keeps s (State.chanCreateNow s d) := by
  unfold State.chanCreateNow
  repeat' first
    | (with_reducible first
        | assumption
        | exact .refl _
        | apply Keeps.ite
        | apply Keeps.ite2
        | apply Keeps.ite1
        | apply Keeps.after (State.setChan_keeps ..)
        | apply Keeps.after (State.nsChanged_keeps ..)
        | refine Keeps.trans ?_ (.pair (by assumption) (State.takeChan_keeps ..))
        | apply Keeps.after (State.takeChan_keeps ..)
        | apply Keeps.after (State.acc_keeps ..)
        | apply Keeps.after (State.complete_keeps ..)
        | apply Keeps.after (State.done_keeps ..)
        | fail_if_no_progress refine Keeps.mk' ?_ rfl rfl rfl rfl rfl rfl
        | apply Keeps.foldl
        | apply Keeps.foldlPair)
    | split
    | intro _
    | extract_lets
    | (dsimp +zetaDelta only; split)

theorem chanModify_keeps (d : Desc) (s : State) :
    Keeps s (chanModify d s) := by
  unfold chanModify
  extract_lets _ _ _
  repeat' first
    | (with_reducible first
        | assumption
        | exact .refl _
        | apply Keeps.ite
        | apply Keeps.after (State.defer_keeps ..)
        | apply Keeps.after (State.checked_keeps (hok := ?_) ..)
        | fail_if_no_progress refine Keeps.mk' ?_ rfl rfl rfl rfl rfl rfl)
    | intro _

theorem execChanModify_keeps (s : State) :
    OKeeps s (execChanModify s) := by
  unfold execChanModify
  repeat' first
    | (with_reducible first
        | assumption
        | exact .refl _
        | apply OKeeps.next
        | apply OKeeps.ite
        | apply Keeps.ite
        | apply Keeps.after (State.ringCmd_keeps (hbody := ?_) ..)
        | apply Keeps.after (chanModify_keeps ..)
        | fail_if_no_progress refine Keeps.mk' ?_ rfl rfl rfl rfl rfl rfl)
    | intro _

theorem State.leaveClass_keeps (s : State) (i : Nat) :
    Keeps s (State.leaveClass s i) := by
  unfold State.leaveClass
  extract_lets v1
  repeat' first
    | (with_reducible first
        | assumption
        | exact .refl _
        | apply Keeps.ite
        | apply Keeps.after (State.setChan_keeps ..)
        | fail_if_no_progress refine Keeps.mk' ?_ rfl rfl rfl rfl rfl rfl)
    | split

theorem State.chanModifyNow_keeps (s : State) (d : Desc) :
    Keeps s (State.chanModifyNow s d) := by
  unfold State.chanModifyNow
  repeat' first
    | (with_reducible first
        | assumption
        | exact .refl _
        | apply Keeps.ite
        | apply Keeps.ite2
        | apply Keeps.ite1
        | apply Keeps.after (State.setChan_keeps ..)
        | apply Keeps.after (State.releaseDeferred_keeps ..)
        | apply Keeps.after (State.leaveClass_keeps ..)
        | apply Keeps.after (State.moveCapsules_keeps ..)
        | apply Keeps.after (State.complete_keeps ..)
        | apply Keeps.after (State.done_keeps ..)
        | fail_if_no_progress refine Keeps.mk' ?_ rfl rfl rfl rfl rfl rfl
        | apply Keeps.foldl
        | apply Keeps.foldlPair)
    | split
    | intro _
    | extract_lets
    | (dsimp +zetaDelta only; split)

theorem chanDestroy_keeps (d : Desc) (s : State) :
    Keeps s (chanDestroy d s) := by
  unfold chanDestroy
  repeat' first
    | (with_reducible first
        | assumption
        | exact .refl _
        | apply Keeps.ite
        | apply Keeps.after (State.defer_keeps ..)
        | apply Keeps.after (State.checked_keeps (hok := ?_) ..)
        | fail_if_no_progress refine Keeps.mk' ?_ rfl rfl rfl rfl rfl rfl)
    | intro _

theorem execChanDestroy_keeps (s : State) :
    OKeeps s (execChanDestroy s) := by
  unfold execChanDestroy
  repeat' first
    | (with_reducible first
        | assumption
        | exact .refl _
        | apply OKeeps.next
        | apply OKeeps.ite
        | apply Keeps.ite
        | apply Keeps.after (State.ringCmd_keeps (hbody := ?_) ..)
        | apply Keeps.after (chanDestroy_keeps ..)
        | fail_if_no_progress refine Keeps.mk' ?_ rfl rfl rfl rfl rfl rfl)
    | intro _

theorem State.chanDestroyNow_keeps (s : State) (d : Desc) :
    Keeps s (State.chanDestroyNow s d) := by
  unfold State.chanDestroyNow
  repeat' first
    | (with_reducible first
        | assumption
        | exact .refl _
        | apply Keeps.ite
        | apply Keeps.ite2
        | apply Keeps.ite1
        | apply Keeps.after (State.setChan_keeps ..)
        | apply Keeps.after (State.releaseDeferred_keeps ..)
        | apply Keeps.after (State.moveCapsules_keeps ..)
        | apply Keeps.after (State.done_keeps ..)
        | fail_if_no_progress refine Keeps.mk' ?_ rfl rfl rfl rfl rfl rfl
        | apply Keeps.foldl
        | apply Keeps.foldlPair)
    | split
    | intro _
    | extract_lets
    | (dsimp +zetaDelta only; split)

theorem State.channelFree_keeps (s : State) (i : Nat) :
    Keeps s (State.channelFree s i) := by
  unfold State.channelFree
  extract_lets _ _ s1 _ s2 _ s3 s4
  have hs1 : Keeps s s1 := by
    unfold s1
    repeat' first
      | (with_reducible first
          | assumption
          | exact .refl _
          | apply Keeps.ite
          | apply Keeps.after (State.doneOpt_keeps ..)
          | apply Keeps.after (State.setChan_keeps ..)
          | apply Keeps.after (State.nsChangedTo_keeps ..)
          | fail_if_no_progress refine Keeps.mk' ?_ rfl rfl rfl rfl rfl rfl)
  have hs2 : Keeps s s2 := by
    unfold s2
    repeat' first
      | (with_reducible first
          | assumption
          | exact .refl _
          | apply Keeps.ite
          | apply Keeps.after (State.doneOpt_keeps ..)
          | apply Keeps.after (State.setChan_keeps ..))
  have hs3 : Keeps s s3 := by
    unfold s3
    repeat' first
      | (with_reducible first
          | assumption
          | exact .refl _
          | apply Keeps.ite
          | apply Keeps.after (State.doneOpt_keeps ..)
          | apply Keeps.after (State.setChan_keeps ..)
          | apply Keeps.after (State.nsChangedTo_keeps ..)
          | fail_if_no_progress refine Keeps.mk' ?_ rfl rfl rfl rfl rfl rfl)
  have hs4 : Keeps s s4 := by
    unfold s4
    repeat' first
      | (with_reducible first
          | assumption
          | exact .refl _
          | apply Keeps.ite
          | apply Keeps.after (State.doneOpt_keeps ..)
          | apply Keeps.after (State.setChan_keeps ..)
          | apply Keeps.after (State.nsChangedTo_keeps ..))
  repeat' first
    | (with_reducible first
        | assumption
        | exact .refl _
        | apply Keeps.ite
        | apply Keeps.after (State.doneOpt_keeps ..))

theorem State.freeChans_keeps (s : State) :
    Keeps s (State.freeChans s) := by
  unfold State.freeChans
  repeat' first
    | (with_reducible first
        | assumption
        | exact .refl _
        | apply Keeps.ite
        | apply Keeps.ite2
        | apply Keeps.ite1
        | apply Keeps.after (State.channelFree_keeps ..)
        | fail_if_no_progress refine Keeps.mk' ?_ rfl rfl rfl rfl rfl rfl
        | apply Keeps.foldl
        | apply Keeps.foldlPair)
    | split
    | intro _
    | extract_lets
    | (dsimp +zetaDelta only; split)

theorem execChannelFree_keeps (c : Fin 262144) (s : State) :
    OKeeps s (execChannelFree c s) := by
  unfold execChannelFree
  repeat' first
    | (with_reducible first
        | assumption
        | exact .refl _
        | apply OKeeps.next
        | apply OKeeps.ite
        | apply Keeps.ite
        | apply Keeps.after (State.channelFree_keeps ..))

theorem chanQuery_keeps (d : Desc) (s : State) :
    Keeps s (chanQuery d s) := by
  unfold chanQuery
  extract_lets _ _
  repeat' first
    | (with_reducible first
        | assumption
        | exact .refl _
        | apply Keeps.ite
        | apply Keeps.after (State.complete_keeps ..)
        | apply Keeps.after (State.checked_keeps (hok := ?_) ..)
        | fail_if_no_progress refine Keeps.mk' ?_ rfl rfl rfl rfl rfl rfl)
    | intro _

theorem execChanQuery_keeps (s : State) :
    OKeeps s (execChanQuery s) := by
  unfold execChanQuery
  repeat' first
    | (with_reducible first
        | assumption
        | exact .refl _
        | apply OKeeps.next
        | apply OKeeps.ite
        | apply Keeps.ite
        | apply Keeps.after (State.ringCmd_keeps (hbody := ?_) ..)
        | apply Keeps.after (chanQuery_keeps ..)
        | fail_if_no_progress refine Keeps.mk' ?_ rfl rfl rfl rfl rfl rfl)
    | intro _

theorem chanList_keeps (ok : Bool) (d : Desc) (s : State) :
    Keeps s (chanList ok d s) := by
  unfold chanList
  extract_lets _ _ _
  repeat' first
    | (with_reducible first
        | assumption
        | exact .refl _
        | apply Keeps.ite
        | apply Keeps.after (State.emit_keeps ..)
        | apply Keeps.after (State.complete_keeps ..)
        | apply Keeps.after (State.checked_keeps (hok := ?_) ..)
        | apply Keeps.after (State.hostWrite_keeps (hf := ?_) ..)
        | fail_if_no_progress refine Keeps.mk' ?_ rfl rfl rfl rfl rfl rfl)
    | intro _

theorem execChanList_keeps (ok : Bool) (s : State) :
    OKeeps s (execChanList ok s) := by
  unfold execChanList
  repeat' first
    | (with_reducible first
        | assumption
        | exact .refl _
        | apply OKeeps.next
        | apply OKeeps.ite
        | apply Keeps.ite
        | apply Keeps.after (State.ringCmd_keeps (hbody := ?_) ..)
        | apply Keeps.after (chanList_keeps ..)
        | fail_if_no_progress refine Keeps.mk' ?_ rfl rfl rfl rfl rfl rfl)
    | intro _

end Sys2Proof.Machine
end

