-- ==== Sys2Proof/Laws/KeepBoot.lean ====
section
/-!
SUPPORT. What the operations of Machine/Boot.lean keep (Laws/Keep.lean).
-/

namespace Sys2Proof.Machine

open Sys2Proof

theorem State.writeRecord_keeps (s : State) (r : BootRec) :
    Keeps s (State.writeRecord s r) := by
  unfold State.writeRecord
  extract_lets _ _ s1 s2 s3
  have hs1 : Keeps s s1 := by
    unfold s1
    repeat' first
      | (with_reducible first
          | assumption
          | exact .refl _
          | apply Keeps.ite
          | apply Keeps.after (State.setFld_keeps ..)
          | fail_if_no_progress refine Keeps.mk' ?_ rfl rfl rfl rfl rfl rfl)
  have hs2 : Keeps s s2 := by
    unfold s2
    repeat' first
      | (with_reducible first
          | assumption
          | exact .refl _
          | apply Keeps.ite
          | apply Keeps.after (State.setFld_keeps ..))
  have hs3 : Keeps s s3 := by
    unfold s3
    repeat' first
      | (with_reducible first
          | assumption
          | exact .refl _
          | apply Keeps.ite
          | apply Keeps.after (State.setFld_keeps ..))
  repeat' first
    | (with_reducible first
        | assumption
        | exact .refl _
        | apply Keeps.ite
        | apply Keeps.after (State.setFld_keeps ..))

theorem State.showRecord_keeps (s : State) (r : BootRec) :
    Keeps s (State.showRecord s r) := by
  unfold State.showRecord
  extract_lets s1 s2
  have hs1 : Keeps s s1 := by
    unfold s1
    repeat' first
      | (with_reducible first
          | assumption
          | exact .refl _
          | apply Keeps.ite
          | apply Keeps.after (State.setFld_keeps ..))
  have hs2 : Keeps s s2 := by
    unfold s2
    repeat' first
      | (with_reducible first
          | assumption
          | exact .refl _
          | apply Keeps.ite
          | apply Keeps.after (State.setFld_keeps ..))
  repeat' first
    | (with_reducible first
        | assumption
        | exact .refl _
        | apply Keeps.ite
        | apply Keeps.after (State.setFld_keeps ..))

theorem State.showStaged_keeps (s : State) :
    Keeps s (State.showStaged s) := by
  unfold State.showStaged
  repeat' first
    | (with_reducible first
        | assumption
        | exact .refl _
        | apply Keeps.ite
        | apply Keeps.after (State.setFld_keeps ..))

theorem State.identityKeys_keeps (s : State) :
    Keeps s (State.identityKeys s) := by
  unfold State.identityKeys
  extract_lets _ _ _ _
  repeat' first
    | (with_reducible first
        | assumption
        | exact .refl _
        | apply Keeps.ite
        | apply Keeps.after (State.setMeas_keeps ..)
        | fail_if_no_progress refine Keeps.mk' ?_ rfl rfl rfl rfl rfl rfl)

theorem State.runPackage_keeps (s : State) (slot : Nat) (l : Loaded) :
    Keeps s (State.runPackage s slot l) := by
  unfold State.runPackage
  extract_lets _ s1 s2 s3 s4 s5 s6
  have hs1 : Keeps s s1 := by
    unfold s1
    repeat' first
      | (with_reducible first
          | assumption
          | exact .refl _
          | apply Keeps.ite
          | apply Keeps.after (State.setFld_keeps ..)
          | apply Keeps.after (State.cntMgt_keeps ..)
          | apply Keeps.after (State.setMeas_keeps ..)
          | apply Keeps.after (State.showStaged_keeps ..)
          | apply Keeps.after (State.identityKeys_keeps ..)
          | fail_if_no_progress refine Keeps.mk' ?_ rfl rfl rfl rfl rfl rfl)
  have hs2 : Keeps s s2 := by
    unfold s2
    repeat' first
      | (with_reducible first
          | assumption
          | exact .refl _
          | apply Keeps.ite
          | apply Keeps.after (State.setFld_keeps ..))
  have hs3 : Keeps s s3 := by
    unfold s3
    repeat' first
      | (with_reducible first
          | assumption
          | exact .refl _
          | apply Keeps.ite
          | apply Keeps.after (State.setFld_keeps ..))
  have hs4 : Keeps s s4 := by
    unfold s4
    repeat' first
      | (with_reducible first
          | assumption
          | exact .refl _
          | apply Keeps.ite
          | apply Keeps.after (State.setFld_keeps ..))
  have hs5 : Keeps s s5 := by
    unfold s5
    repeat' first
      | (with_reducible first
          | assumption
          | exact .refl _
          | apply Keeps.ite
          | apply Keeps.after (State.setFld_keeps ..))
  have hs6 : Keeps s s6 := by
    unfold s6
    repeat' first
      | (with_reducible first
          | assumption
          | exact .refl _
          | apply Keeps.ite
          | apply Keeps.after (State.setFld_keeps ..)
          | apply Keeps.after (State.cntMgt_keeps ..))
  repeat' first
    | (with_reducible first
        | assumption
        | exact .refl _
        | apply Keeps.ite
        | apply Keeps.after (State.setFld_keeps ..)
        | apply Keeps.after (State.cntMgt_keeps ..)
        | apply Keeps.after (State.setMeas_keeps ..)
        | apply Keeps.after (State.showStaged_keeps ..)
        | apply Keeps.after (State.identityKeys_keeps ..))

theorem State.loadCatalogue_keeps (s : State) :
    Keeps s (State.loadCatalogue s) := by
  unfold State.loadCatalogue
  extract_lets _ _
  repeat' first
    | (with_reducible first
        | assumption
        | exact .refl _
        | apply Keeps.ite
        | apply Keeps.after (State.setMeas_keeps ..)
        | fail_if_no_progress refine Keeps.mk' ?_ rfl rfl rfl rfl rfl rfl)

theorem State.fwStart_keeps (s : State) :
    Keeps s (State.fwStart s) := by
  unfold State.fwStart
  extract_lets _ s1 s2
  have hs1 : Keeps s s1 := by
    unfold s1
    repeat' first
      | (with_reducible first
          | assumption
          | exact .refl _
          | apply Keeps.ite
          | apply Keeps.after (State.setFld_keeps ..)
          | apply Keeps.after (State.logResume_keeps ..)
          | fail_if_no_progress refine Keeps.mk' ?_ rfl rfl rfl rfl rfl rfl)
  have hs2 : Keeps s s2 := by
    unfold s2
    repeat' first
      | (with_reducible first
          | assumption
          | exact .refl _
          | apply Keeps.ite
          | apply Keeps.after (State.setFld_keeps ..))
  repeat' first
    | (with_reducible first
        | assumption
        | exact .refl _
        | apply Keeps.ite
        | apply Keeps.after (State.setFld_keeps ..)
        | apply Keeps.after (State.logResume_keeps ..))

theorem State.fellBack_keeps (s : State) (refused cause : Nat) :
    Keeps s (State.fellBack s refused cause) := by
  unfold State.fellBack
  repeat' first
    | (with_reducible first
        | assumption
        | exact .refl _
        | apply Keeps.ite
        | apply Keeps.after (State.setFld_keeps ..)
        | apply Keeps.after (State.raise_keeps ..))

theorem State.bootReady_keeps (s : State) :
    Keeps s (State.bootReady s) := by
  unfold State.bootReady
  extract_lets _ s1 _ _ s2 _
  have hs1 : Keeps s s1 := by
    unfold s1
    repeat' first
      | (with_reducible first
          | assumption
          | exact .refl _
          | apply Keeps.ite
          | apply Keeps.after (State.setFld_keeps ..))
  have hs2 : Keeps s s2 := by
    unfold s2
    repeat' first
      | (with_reducible first
          | assumption
          | exact .refl _
          | apply Keeps.ite
          | apply Keeps.after (State.setFld_keeps ..)
          | apply Keeps.after (State.writeRecord_keeps ..))
  repeat' first
    | (with_reducible first
        | assumption
        | exact .refl _
        | apply Keeps.ite
        | apply Keeps.after (State.setFld_keeps ..)
        | apply Keeps.after (State.writeRecord_keeps ..)
        | fail_if_no_progress refine Keeps.mk' ?_ rfl rfl rfl rfl rfl rfl)

theorem State.boot_keeps (s : State) (unread : Nat) :
    Keeps s (State.boot s unread) := by
  unfold State.boot
  extract_lets s1 v1
  have hs1 : Keeps s s1 := by
    unfold s1
    repeat' first
      | (with_reducible first
          | assumption
          | exact .refl _
          | apply Keeps.ite
          | apply Keeps.after (State.setFld_keeps ..)
          | apply Keeps.after (State.resetReleased_keeps ..))
  repeat' first
    | (with_reducible first
        | assumption
        | exact .refl _
        | apply Keeps.ite
        | apply Keeps.after (State.setFld_keeps ..)
        | apply Keeps.after (State.resetReleased_keeps ..)
        | apply Keeps.after (State.writeRecord_keeps ..)
        | apply Keeps.after (State.showRecord_keeps ..)
        | apply Keeps.after (State.runPackage_keeps ..)
        | apply Keeps.after (State.loadCatalogue_keeps ..)
        | apply Keeps.after (State.fwStart_keeps ..)
        | apply Keeps.after (State.fellBack_keeps ..)
        | apply Keeps.after (State.bootReady_keeps ..)
        | fail_if_no_progress refine Keeps.mk' ?_ rfl rfl rfl rfl rfl rfl)
    | split
    | unfold v1
    | intro _
    | extract_lets
    | (dsimp +zetaDelta only; split)

theorem execBoot_keeps (unread : BitVec 2) (s : State) :
    OKeeps s (execBoot unread s) := by
  unfold execBoot
  repeat' first
    | (with_reducible first
        | assumption
        | exact .refl _
        | apply OKeeps.next
        | apply OKeeps.ite
        | apply Keeps.ite
        | apply Keeps.after (State.boot_keeps ..))

theorem State.recoveryRefused_keeps (s : State) (st : Nat) :
    Keeps s (State.recoveryRefused s st) := by
  unfold State.recoveryRefused
  repeat' first
    | (with_reducible first
        | assumption
        | exact .refl _
        | apply Keeps.ite
        | apply Keeps.after (State.setFld_keeps ..))

theorem execRecoveryGo_keeps (w : Word) (ok : Bool) (pkg : List Byte) (s : State) :
    OKeeps s (execRecoveryGo w ok pkg s) := by
  unfold execRecoveryGo
  extract_lets v1 s1 s2 s3 v2
  have hs1 : Keeps s s1 := by
    unfold s1
    repeat' first
      | (with_reducible first
          | assumption
          | exact .refl _
          | apply OKeeps.next
          | apply OKeeps.ite
          | apply Keeps.ite
          | apply Keeps.after (State.runPackage_keeps ..)
          | apply Keeps.after (State.loadCatalogue_keeps ..)
          | apply Keeps.after (State.fwStart_keeps ..)
          | apply Keeps.after (State.bootReady_keeps ..)
          | apply Keeps.after (State.recoveryRefused_keeps ..))
  have hs2 : Keeps s s2 := by
    unfold s2
    repeat' first
      | (with_reducible first
          | assumption
          | exact .refl _
          | apply OKeeps.next
          | apply OKeeps.ite
          | apply Keeps.ite
          | apply Keeps.after (State.runPackage_keeps ..))
  have hs3 : Keeps s s3 := by
    unfold s3
    repeat' first
      | (with_reducible first
          | assumption
          | exact .refl _
          | apply OKeeps.next
          | apply OKeeps.ite
          | apply Keeps.ite
          | apply Keeps.after (State.runPackage_keeps ..)
          | apply Keeps.after (State.loadCatalogue_keeps ..)
          | apply Keeps.after (State.fwStart_keeps ..))
  repeat' first
    | (with_reducible first
        | assumption
        | exact .refl _
        | apply OKeeps.next
        | apply OKeeps.ite
        | apply Keeps.ite
        | apply Keeps.after (State.runPackage_keeps ..)
        | apply Keeps.after (State.loadCatalogue_keeps ..)
        | apply Keeps.after (State.fwStart_keeps ..)
        | apply Keeps.after (State.bootReady_keeps ..)
        | apply Keeps.after (State.recoveryRefused_keeps ..)
        | fail_if_no_progress refine Keeps.mk' ?_ rfl rfl rfl rfl rfl rfl)
    | split

theorem State.abortStarted_keeps (s : State) (p : Desc → Bool) :
    Keeps s (State.abortStarted s p) := by
  unfold State.abortStarted
  extract_lets _ _ _ _ s1 _ s2 _ _ s3 _
  have hs1 : Keeps s s1 := by
    unfold s1
    repeat' first
      | (with_reducible first
          | assumption
          | exact .refl _
          | apply Keeps.ite
          | apply Keeps.ite2
          | apply Keeps.after (State.done_keeps ..)
          | apply Keeps.after (State.updPool_keeps ..)
          | apply Keeps.after (State.changes_keeps ..)
          | fail_if_no_progress refine Keeps.mk' ?_ rfl rfl rfl rfl rfl rfl)
  have hs2 : Keeps s s2 := by
    unfold s2
    repeat' first
      | (with_reducible first
          | assumption
          | exact .refl _
          | apply Keeps.ite
          | apply Keeps.ite2
          | apply Keeps.after (State.done_keeps ..)
          | apply Keeps.after (State.updPool_keeps ..)
          | apply Keeps.after (State.changes_keeps ..)
          | fail_if_no_progress refine Keeps.mk' ?_ rfl rfl rfl rfl rfl rfl
          | apply Keeps.foldl
          | apply Keeps.foldlPair)
      | intro _
  have hs3 : Keeps s s3 := by
    unfold s3
    repeat' first
      | (with_reducible first
          | assumption
          | exact .refl _
          | apply Keeps.ite
          | apply Keeps.ite2
          | apply Keeps.after (State.done_keeps ..)
          | apply Keeps.after (State.updPool_keeps ..)
          | apply Keeps.after (State.changes_keeps ..)
          | fail_if_no_progress refine Keeps.mk' ?_ rfl rfl rfl rfl rfl rfl)
  repeat' first
    | (with_reducible first
        | assumption
        | exact .refl _
        | apply Keeps.ite
        | apply Keeps.ite2
        | apply Keeps.after (State.done_keeps ..)
        | apply Keeps.after (State.updPool_keeps ..)
        | apply Keeps.after (State.changes_keeps ..)
        | fail_if_no_progress refine Keeps.mk' ?_ rfl rfl rfl rfl rfl rfl
        | apply Keeps.foldl
        | apply Keeps.foldlPair)
    | intro _

theorem State.abortImages_keeps (s : State) :
    Keeps s (State.abortImages s) := by
  unfold State.abortImages
  repeat' first
    | (with_reducible first
        | assumption
        | exact .refl _
        | apply Keeps.ite
        | apply Keeps.ite2
        | apply Keeps.ite1
        | apply Keeps.after (State.setBuf_keeps ..)
        | apply Keeps.after (State.loadEnd_keeps ..)
        | apply Keeps.after (State.done_keeps ..)
        | fail_if_no_progress refine Keeps.mk' ?_ rfl rfl rfl rfl rfl rfl
        | apply Keeps.foldl
        | apply Keeps.foldlPair)
    | split
    | intro _
    | extract_lets
    | (dsimp +zetaDelta only; split)

theorem State.abortWaits_keeps (s : State) :
    Keeps s (State.abortWaits s) := by
  unfold State.abortWaits
  repeat' first
    | (with_reducible first
        | assumption
        | exact .refl _
        | apply Keeps.ite
        | apply Keeps.ite2
        | apply Keeps.ite1
        | apply Keeps.after (State.joinAbort_keeps ..)
        | apply Keeps.after (State.setPool_keeps ..)
        | apply Keeps.after (State.setRing_keeps ..)
        | apply Keeps.after (State.done_keeps ..)
        | apply Keeps.after (State.doneOpt_keeps ..)
        | apply Keeps.after (State.setQp_keeps ..)
        | fail_if_no_progress refine Keeps.mk' ?_ rfl rfl rfl rfl rfl rfl
        | apply Keeps.foldl
        | apply Keeps.foldlPair)
    | split
    | intro _
    | extract_lets
    | (dsimp +zetaDelta only; split)

theorem State.sessionEnd_keeps (s : State) (id : Nat) :
    Keeps s (State.sessionEnd s id) := by
  unfold State.sessionEnd
  extract_lets v1
  repeat' first
    | (with_reducible first
        | assumption
        | exact .refl _
        | apply Keeps.ite
        | apply Keeps.after (State.raise_keeps ..)
        | fail_if_no_progress refine Keeps.mk' ?_ rfl rfl rfl rfl rfl rfl)
    | split

theorem State.coresReset_keeps (s : State) :
    Keeps s (State.coresReset s) := by
  unfold State.coresReset
  repeat' first
    | (with_reducible first
        | assumption
        | exact .refl _
        | apply Keeps.ite
        | apply Keeps.ite2
        | apply Keeps.ite1
        | apply Keeps.after (State.abortStarted_keeps ..)
        | apply Keeps.after (State.abortImages_keeps ..)
        | apply Keeps.after (State.abortWaits_keeps ..)
        | apply Keeps.after (State.sessionEnd_keeps ..)
        | fail_if_no_progress refine Keeps.mk' ?_ rfl rfl rfl rfl rfl rfl
        | apply Keeps.foldl
        | apply Keeps.foldlPair)
    | split
    | intro _
    | extract_lets
    | (dsimp +zetaDelta only; split)

theorem State.core3Reset_keeps (s : State) :
    Keeps s (State.core3Reset s) := by
  unfold State.core3Reset
  repeat' first
    | (with_reducible first
        | assumption
        | exact .refl _
        | apply Keeps.ite
        | apply Keeps.after (State.abortStarted_keeps ..))

theorem State.restart_keeps (s : State) (sram : Bool) (unread : Nat) :
    Keeps s (State.restart s sram unread) := by
  unfold State.restart
  extract_lets v1 s1
  have hs1 : Keeps s s1 := by
    unfold s1
    repeat' first
      | (with_reducible first
          | assumption
          | exact .refl _
          | apply Keeps.ite
          | apply Keeps.after (State.setFld_keeps ..))
  repeat' first
    | (with_reducible first
        | assumption
        | exact .refl _
        | apply Keeps.ite
        | apply Keeps.after (State.setFld_keeps ..)
        | apply Keeps.after (State.identityKeys_keeps ..)
        | apply Keeps.after (State.runPackage_keeps ..)
        | apply Keeps.after (State.fellBack_keeps ..)
        | fail_if_no_progress refine Keeps.mk' ?_ rfl rfl rfl rfl rfl rfl)
    | split

theorem State.watchdog_keeps (s : State) (cause : Nat) (sram : Bool) (unread : Nat) :
    Keeps s (State.watchdog s cause sram unread) := by
  unfold State.watchdog
  extract_lets v1 v2 s1 s2 v3 v4 s3 s4
  have hs1 : Keeps s s1 := by
    unfold s1
    repeat' first
      | (with_reducible first
          | assumption
          | exact .refl _
          | apply Keeps.ite
          | apply Keeps.after (State.cntMgt_keeps ..)
          | apply Keeps.after (State.raise_keeps ..)
          | apply Keeps.after (State.runPackage_keeps ..)
          | apply Keeps.after (State.fellBack_keeps ..)
          | apply Keeps.after (State.coresReset_keeps ..)
          | apply Keeps.after (State.restart_keeps ..)
          | fail_if_no_progress refine Keeps.mk' ?_ rfl rfl rfl rfl rfl rfl)
  have hs2 : Keeps s s2 := by
    unfold s2
    repeat' first
      | (with_reducible first
          | assumption
          | exact .refl _
          | apply Keeps.ite
          | apply Keeps.after (State.cntMgt_keeps ..)
          | apply Keeps.after (State.raise_keeps ..)
          | apply Keeps.after (State.runPackage_keeps ..)
          | apply Keeps.after (State.fellBack_keeps ..)
          | apply Keeps.after (State.coresReset_keeps ..))
  have hs3 : Keeps s s3 := by
    unfold s3
    repeat' first
      | (with_reducible first
          | assumption
          | exact .refl _
          | apply Keeps.ite
          | apply Keeps.after (State.cntMgt_keeps ..)
          | apply Keeps.after (State.raise_keeps ..)
          | apply Keeps.after (State.runPackage_keeps ..)
          | apply Keeps.after (State.fellBack_keeps ..)
          | apply Keeps.after (State.coresReset_keeps ..)
          | apply Keeps.after (State.restart_keeps ..)
          | fail_if_no_progress refine Keeps.mk' ?_ rfl rfl rfl rfl rfl rfl)
  have hs4 : Keeps s s4 := by
    unfold s4
    repeat' first
      | (with_reducible first
          | assumption
          | exact .refl _
          | apply Keeps.ite
          | apply Keeps.after (State.cntMgt_keeps ..)
          | apply Keeps.after (State.raise_keeps ..)
          | apply Keeps.after (State.runPackage_keeps ..)
          | apply Keeps.after (State.fellBack_keeps ..)
          | apply Keeps.after (State.coresReset_keeps ..)
          | apply Keeps.after (State.restart_keeps ..)
          | fail_if_no_progress refine Keeps.mk' ?_ rfl rfl rfl rfl rfl rfl)
      | split
  repeat' first
    | (with_reducible first
        | assumption
        | exact .refl _
        | apply Keeps.ite
        | apply Keeps.after (State.cntMgt_keeps ..)
        | apply Keeps.after (State.raise_keeps ..))

theorem execMgtWatchdogReset_keeps (cause : Fin 4) (sram : Bool) (unread : BitVec 2) (s : State) :
    OKeeps s (execMgtWatchdogReset cause sram unread s) := by
  unfold execMgtWatchdogReset
  repeat' first
    | (with_reducible first
        | assumption
        | exact .refl _
        | apply OKeeps.next
        | apply OKeeps.ite
        | apply Keeps.ite
        | apply Keeps.after (State.watchdog_keeps ..))

theorem execCore3WatchdogReset_keeps (cause : Fin 4) (s : State) :
    OKeeps s (execCore3WatchdogReset cause s) := by
  unfold execCore3WatchdogReset
  extract_lets _ _ s1
  have hs1 : Keeps s s1 := by
    unfold s1
    repeat' first
      | (with_reducible first
          | assumption
          | exact .refl _
          | apply OKeeps.next
          | apply OKeeps.ite
          | apply Keeps.ite
          | apply Keeps.after (State.cntMgt_keeps ..)
          | apply Keeps.after (State.raise_keeps ..)
          | apply Keeps.after (State.logResume_keeps ..)
          | apply Keeps.after (State.core3Reset_keeps ..)
          | fail_if_no_progress refine Keeps.mk' ?_ rfl rfl rfl rfl rfl rfl)
  repeat' first
    | (with_reducible first
        | assumption
        | exact .refl _
        | apply OKeeps.next
        | apply OKeeps.ite
        | apply Keeps.ite
        | apply Keeps.after (State.cntMgt_keeps ..)
        | apply Keeps.after (State.raise_keeps ..)
        | apply Keeps.after (State.logResume_keeps ..)
        | apply Keeps.after (State.core3Reset_keeps ..))

theorem execMgtPllLoss_keeps (s : State) :
    OKeeps s (execMgtPllLoss s) := by
  unfold execMgtPllLoss
  extract_lets s1 s2 _ s3 s4
  have hs1 : Keeps s s1 := by
    unfold s1
    repeat' first
      | (with_reducible first
          | assumption
          | exact .refl _
          | apply OKeeps.next
          | apply OKeeps.ite
          | apply Keeps.ite
          | apply Keeps.after (State.setFld_keeps ..)
          | apply Keeps.after (State.raise_keeps ..))
  have hs2 : Keeps s s2 := by
    unfold s2
    repeat' first
      | (with_reducible first
          | assumption
          | exact .refl _
          | apply OKeeps.next
          | apply OKeeps.ite
          | apply Keeps.ite
          | apply Keeps.after (State.setFld_keeps ..)
          | apply Keeps.after (State.raise_keeps ..)
          | apply Keeps.after (State.coresReset_keeps ..)
          | apply Keeps.after (State.core3Reset_keeps ..))
  have hs3 : Keeps s s3 := by
    unfold s3
    repeat' first
      | (with_reducible first
          | assumption
          | exact .refl _
          | apply OKeeps.next
          | apply OKeeps.ite
          | apply Keeps.ite
          | apply Keeps.after (State.setFld_keeps ..)
          | apply Keeps.after (State.raise_keeps ..)
          | apply Keeps.after (State.coresReset_keeps ..)
          | apply Keeps.after (State.core3Reset_keeps ..)
          | fail_if_no_progress refine Keeps.mk' ?_ rfl rfl rfl rfl rfl rfl)
  have hs4 : Keeps s s4 := by
    unfold s4
    repeat' first
      | (with_reducible first
          | assumption
          | exact .refl _
          | apply OKeeps.next
          | apply OKeeps.ite
          | apply Keeps.ite
          | apply Keeps.after (State.setFld_keeps ..))
  repeat' first
    | (with_reducible first
        | assumption
        | exact .refl _
        | apply OKeeps.next
        | apply OKeeps.ite
        | apply Keeps.ite
        | apply Keeps.after (State.setFld_keeps ..))

theorem execMgtPllRelock_keeps (s : State) :
    OKeeps s (execMgtPllRelock s) := by
  unfold execMgtPllRelock
  extract_lets s1 s2 _ s3
  have hs1 : Keeps s s1 := by
    unfold s1
    repeat' first
      | (with_reducible first
          | assumption
          | exact .refl _
          | apply OKeeps.next
          | apply OKeeps.ite
          | apply Keeps.ite
          | apply Keeps.after (State.setFld_keeps ..))
  have hs2 : Keeps s s2 := by
    unfold s2
    repeat' first
      | (with_reducible first
          | assumption
          | exact .refl _
          | apply OKeeps.next
          | apply OKeeps.ite
          | apply Keeps.ite
          | apply Keeps.after (State.setFld_keeps ..)
          | apply Keeps.after (State.satFld_keeps ..))
  have hs3 : Keeps s s3 := by
    unfold s3
    repeat' first
      | (with_reducible first
          | assumption
          | exact .refl _
          | apply OKeeps.next
          | apply OKeeps.ite
          | apply Keeps.ite
          | apply Keeps.after (State.setFld_keeps ..)
          | apply Keeps.after (State.satFld_keeps ..)
          | apply Keeps.after (State.raise_keeps ..)
          | apply Keeps.after (State.fwStart_keeps ..)
          | apply Keeps.after (State.bootReady_keeps ..)
          | apply Keeps.after (State.restart_keeps ..)
          | fail_if_no_progress refine Keeps.mk' ?_ rfl rfl rfl rfl rfl rfl)
  repeat' first
    | (with_reducible first
        | assumption
        | exact .refl _
        | apply OKeeps.next
        | apply OKeeps.ite
        | apply Keeps.ite
        | apply Keeps.after (State.setFld_keeps ..)
        | apply Keeps.after (State.satFld_keeps ..)
        | apply Keeps.after (State.raise_keeps ..)
        | apply Keeps.after (State.fwStart_keeps ..)
        | apply Keeps.after (State.bootReady_keeps ..))

theorem execHbmTrainingDone_keeps (fail : BitVec 4) (s : State) :
    OKeeps s (execHbmTrainingDone fail s) := by
  unfold execHbmTrainingDone
  extract_lets s1 s2 s3 s4 s5
  have hs1 : Keeps s s1 := by
    unfold s1
    repeat' first
      | (with_reducible first
          | assumption
          | exact .refl _
          | apply OKeeps.next
          | apply OKeeps.ite
          | apply Keeps.ite
          | apply Keeps.after (State.setFld_keeps ..)
          | apply Keeps.after (State.loseStack_keeps ..)
          | apply Keeps.after (State.resetReleased_keeps ..))
  have hs2 : Keeps s s2 := by
    unfold s2
    repeat' first
      | (with_reducible first
          | assumption
          | exact .refl _
          | apply OKeeps.next
          | apply OKeeps.ite
          | apply Keeps.ite
          | apply Keeps.after (State.setFld_keeps ..))
  have hs3 : Keeps s s3 := by
    unfold s3
    repeat' first
      | (with_reducible first
          | assumption
          | exact .refl _
          | apply OKeeps.next
          | apply OKeeps.ite
          | apply Keeps.ite
          | apply Keeps.after (State.setFld_keeps ..))
  have hs4 : Keeps s s4 := by
    unfold s4
    repeat' first
      | (with_reducible first
          | assumption
          | exact .refl _
          | apply OKeeps.next
          | apply OKeeps.ite
          | apply Keeps.ite
          | apply Keeps.after (State.setFld_keeps ..))
  have hs5 : Keeps s s5 := by
    unfold s5
    repeat' first
      | (with_reducible first
          | assumption
          | exact .refl _
          | apply OKeeps.next
          | apply OKeeps.ite
          | apply Keeps.ite
          | apply Keeps.after (State.setFld_keeps ..)
          | apply Keeps.after (State.loseStack_keeps ..)
          | apply Keeps.after (State.resetReleased_keeps ..)
          | apply Keeps.after (State.bootReady_keeps ..)
          | fail_if_no_progress refine Keeps.mk' ?_ rfl rfl rfl rfl rfl rfl
          | apply Keeps.foldl
          | apply Keeps.foldlPair)
      | intro _
  repeat' first
    | (with_reducible first
        | assumption
        | exact .refl _
        | apply OKeeps.next
        | apply OKeeps.ite
        | apply Keeps.ite
        | apply Keeps.after (State.setFld_keeps ..)
        | apply Keeps.after (State.loseStack_keeps ..)
        | apply Keeps.after (State.resetReleased_keeps ..)
        | apply Keeps.after (State.bootReady_keeps ..))

end Sys2Proof.Machine
end

