-- ==== Sys2Proof/Laws/KeepAttest.lean ====
section
/-!
SUPPORT. What the operations of Machine/Attest.lean keep (Laws/Keep.lean).
-/

namespace Sys2Proof.Machine

open Sys2Proof

theorem State.measureKeys_keeps (s : State) :
    Keeps s (State.measureKeys s) := by
  unfold State.measureKeys
  repeat' first
    | (with_reducible first
        | assumption
        | exact .refl _
        | apply Keeps.ite
        | apply Keeps.after (State.setMeas_keeps ..)
        | fail_if_no_progress refine Keeps.mk' ?_ rfl rfl rfl rfl rfl rfl
        | apply Keeps.foldl
        | apply Keeps.foldlPair)
    | intro _
    | extract_lets

theorem State.setItk_keeps (s : State) (k : List Byte) :
    Keeps s (State.setItk s k) := by
  unfold State.setItk
  extract_lets _ _
  repeat' first
    | (with_reducible first
        | assumption
        | exact .refl _
        | apply Keeps.ite
        | apply Keeps.after (State.measureKeys_keeps ..)
        | fail_if_no_progress refine Keeps.mk' ?_ rfl rfl rfl rfl rfl rfl)
    | intro _
    | extract_lets

theorem execItkCommit_keeps (w : Word) (s : State) :
    OKeeps s (execItkCommit w s) := by
  unfold execItkCommit
  repeat' first
    | (with_reducible first
        | assumption
        | exact .refl _
        | apply OKeeps.next
        | apply OKeeps.ite
        | apply Keeps.ite
        | apply Keeps.ite2
        | apply Keeps.ite1
        | apply Keeps.after (State.setItk_keeps ..)
        | apply Keeps.after (State.setFld_keeps ..)
        | apply Keeps.after (State.violation_keeps ..)
        | fail_if_no_progress refine Keeps.mk' ?_ rfl rfl rfl rfl rfl rfl
        | apply Keeps.foldl
        | apply Keeps.foldlPair)
    | split
    | intro _
    | extract_lets
    | (dsimp +zetaDelta only; split)

theorem execItkClear_keeps (w : Word) (s : State) :
    OKeeps s (execItkClear w s) := by
  unfold execItkClear
  repeat' first
    | (with_reducible first
        | assumption
        | exact .refl _
        | apply OKeeps.next
        | apply OKeeps.ite
        | apply Keeps.ite
        | apply Keeps.ite2
        | apply Keeps.ite1
        | apply Keeps.after (State.setItk_keeps ..)
        | apply Keeps.after (State.violation_keeps ..)
        | fail_if_no_progress refine Keeps.mk' ?_ rfl rfl rfl rfl rfl rfl
        | apply Keeps.foldl
        | apply Keeps.foldlPair)
    | split
    | intro _
    | extract_lets
    | (dsimp +zetaDelta only; split)

theorem execMgtMeasSelWrite_keeps (w : Word) (s : State) :
    OKeeps s (execMgtMeasSelWrite w s) := by
  unfold execMgtMeasSelWrite
  extract_lets _ s1 _
  have hs1 : Keeps s s1 := by
    unfold s1
    repeat' first
      | (with_reducible first
          | assumption
          | exact .refl _
          | apply OKeeps.next
          | apply OKeeps.ite
          | apply Keeps.ite
          | apply Keeps.after (State.setFld_keeps ..)
          | fail_if_no_progress refine Keeps.mk' ?_ rfl rfl rfl rfl rfl rfl)
      | intro _
  repeat' first
    | (with_reducible first
        | assumption
        | exact .refl _
        | apply OKeeps.next
        | apply OKeeps.ite
        | apply Keeps.ite
        | apply Keeps.after (State.setFld_keeps ..)
        | fail_if_no_progress refine Keeps.mk' ?_ rfl rfl rfl rfl rfl rfl)
    | intro _

theorem State.measSnap_keeps (s : State) :
    Keeps s (State.measSnap s) := by
  unfold State.measSnap
  extract_lets _ _ s1
  have hs1 : Keeps s s1 := by
    unfold s1
    repeat' first
      | (with_reducible first
          | assumption
          | exact .refl _
          | apply Keeps.ite
          | apply Keeps.after (State.wrReg_keeps ..)
          | fail_if_no_progress refine Keeps.mk' ?_ rfl rfl rfl rfl rfl rfl
          | apply Keeps.foldl
          | apply Keeps.foldlPair)
      | intro _
      | extract_lets
  repeat' first
    | (with_reducible first
        | assumption
        | exact .refl _
        | apply Keeps.ite
        | apply Keeps.after (State.wrReg_keeps ..)
        | fail_if_no_progress refine Keeps.mk' ?_ rfl rfl rfl rfl rfl rfl
        | apply Keeps.foldl
        | apply Keeps.foldlPair)
    | intro _
    | extract_lets

theorem State.measAnswer_keeps (s : State) (transport : Nat) (m : SpdmMsg) :
    Keeps s (State.measAnswer s transport m) := by
  unfold State.measAnswer
  repeat' first
    | (with_reducible first
        | assumption
        | exact .refl _
        | apply Keeps.ite
        | apply Keeps.after (State.emit_keeps ..)
        | apply Keeps.after (State.spdm_keeps ..)
        | fail_if_no_progress refine Keeps.mk' ?_ rfl rfl rfl rfl rfl rfl)
    | split
    | intro _
    | extract_lets
    | (dsimp +zetaDelta only; split)

theorem State.measAnswers_keeps (s : State) :
    Keeps s (State.measAnswers s) := by
  unfold State.measAnswers
  extract_lets _
  repeat' first
    | (with_reducible first
        | assumption
        | exact .refl _
        | apply Keeps.ite
        | apply Keeps.ite2
        | apply Keeps.ite1
        | apply Keeps.after (State.measAnswer_keeps ..)
        | fail_if_no_progress refine Keeps.mk' ?_ rfl rfl rfl rfl rfl rfl
        | apply Keeps.foldl
        | apply Keeps.foldlPair)
    | intro _
    | extract_lets

theorem State.spdmError_keeps (s : State) (transport : Nat) (r : SpdmRsp) :
    Keeps s (State.spdmError s transport r) := by
  unfold State.spdmError
  repeat' first
    | (with_reducible first
        | assumption
        | exact .refl _
        | apply Keeps.ite
        | apply Keeps.after (State.cntMgt_keeps ..)
        | apply Keeps.after (State.emit_keeps ..)
        | apply Keeps.after (State.spdm_keeps ..)
        | fail_if_no_progress refine Keeps.mk' ?_ rfl rfl rfl rfl rfl rfl)
    | intro _

theorem State.inSession_keeps (s : State) (t id : Nat) (k : SpdmSess → State → State) (hk : ∀ a0 x, Keeps x (k a0 x)) :
    Keeps s (State.inSession s t id k) := by
  unfold State.inSession
  repeat' first
    | (with_reducible first
        | assumption
        | exact .refl _
        | apply Keeps.ite
        | apply Keeps.after (State.spdmError_keeps ..)
        | apply Keeps.after (hk ..)
        | fail_if_no_progress refine Keeps.mk' ?_ rfl rfl rfl rfl rfl rfl)
    | split
    | intro _
    | extract_lets
    | (dsimp +zetaDelta only; split)

theorem State.spdm_keeps (s : State) (t : Nat) (m : SpdmMsg) :
    Keeps s (State.spdm s t m) := by
  unfold State.spdm
  extract_lets s1 v1 _ v2
  have hs1 : Keeps s s1 := by
    unfold s1
    repeat' first
      | (with_reducible first
          | assumption
          | exact .refl _
          | apply Keeps.ite
          | apply Keeps.after (State.cntMgt_keeps ..)
          | apply Keeps.after (State.emit_keeps ..)
          | refine Keeps.trans ?_ (.pair (by assumption) (State.draw_keeps ..))
          | apply Keeps.after (State.draw_keeps ..)
          | apply Keeps.after (State.raise_keeps ..)
          | apply Keeps.after (State.sessionEnd_keeps ..)
          | apply Keeps.after (State.spdmError_keeps ..)
          | apply Keeps.after (State.inSession_keeps (hk := ?_) ..)
          | fail_if_no_progress refine Keeps.mk' ?_ rfl rfl rfl rfl rfl rfl)
      | split
      | unfold v1
      | unfold v2
      | intro _
      | extract_lets
      | (dsimp +zetaDelta only; split)
  repeat' first
    | (with_reducible first
        | assumption
        | exact .refl _
        | apply Keeps.ite
        | apply Keeps.after (State.cntMgt_keeps ..)
        | apply Keeps.after (State.emit_keeps ..)
        | refine Keeps.trans ?_ (.pair (by assumption) (State.draw_keeps ..))
        | apply Keeps.after (State.draw_keeps ..)
        | apply Keeps.after (State.raise_keeps ..)
        | apply Keeps.after (State.sessionEnd_keeps ..)
        | apply Keeps.after (State.spdmError_keeps ..)
        | apply Keeps.after (State.inSession_keeps (hk := ?_) ..)
        | fail_if_no_progress refine Keeps.mk' ?_ rfl rfl rfl rfl rfl rfl)
    | split
    | unfold v1
    | unfold v2
    | intro _
    | extract_lets
    | (dsimp +zetaDelta only; split)

theorem State.mctpIn_keeps (s : State) (smb good : Bool) (size : Nat) (k : State → State) (hk : ∀ x, Keeps x (k x)) :
    Keeps s (State.mctpIn s smb good size k) := by
  unfold State.mctpIn
  repeat' first
    | (with_reducible first
        | assumption
        | exact .refl _
        | apply Keeps.ite
        | apply Keeps.after (State.cntMgt_keeps ..)
        | apply Keeps.after (hk ..)
        | fail_if_no_progress refine Keeps.mk' ?_ rfl rfl rfl rfl rfl rfl)
    | intro _

theorem execSpdmRequest_keeps (smb good : Bool) (size : Nat) (m : SpdmMsg) (s : State) :
    OKeeps s (execSpdmRequest smb good size m s) := by
  unfold execSpdmRequest
  repeat' first
    | (with_reducible first
        | assumption
        | exact .refl _
        | apply OKeeps.next
        | apply OKeeps.ite
        | apply Keeps.ite
        | apply Keeps.after (State.spdm_keeps ..)
        | apply Keeps.after (State.mctpIn_keeps (hk := ?_) ..)
        | fail_if_no_progress refine Keeps.mk' ?_ rfl rfl rfl rfl rfl rfl)
    | intro _
    | extract_lets

theorem execSpdmHeartbeatTimeout_keeps (session : Nat) (s : State) :
    OKeeps s (execSpdmHeartbeatTimeout session s) := by
  unfold execSpdmHeartbeatTimeout
  repeat' first
    | (with_reducible first
        | assumption
        | exact .refl _
        | apply OKeeps.next
        | apply OKeeps.ite
        | apply Keeps.ite
        | apply Keeps.after (State.sessionEnd_keeps ..)
        | fail_if_no_progress refine Keeps.mk' ?_ rfl rfl rfl rfl rfl rfl)
    | intro _

theorem execMctpControlRequest_keeps (smb good : Bool) (size : Nat) (m : MctpReq) (s : State) :
    OKeeps s (execMctpControlRequest smb good size m s) := by
  unfold execMctpControlRequest
  extract_lets v1 v2
  repeat' first
    | (with_reducible first
        | assumption
        | exact .refl _
        | apply OKeeps.next
        | apply OKeeps.ite
        | apply Keeps.ite
        | apply Keeps.after (State.setFld_keeps ..)
        | apply Keeps.after (State.emit_keeps ..)
        | apply Keeps.after (State.mctpIn_keeps (hk := ?_) ..)
        | fail_if_no_progress refine Keeps.mk' ?_ rfl rfl rfl rfl rfl rfl)
    | split
    | unfold v1
    | unfold v2
    | intro _
    | extract_lets
    | (dsimp +zetaDelta only; split)

theorem State.pldm_keeps (s : State) (t : Nat) (m : PldmReq) :
    Keeps s (State.pldm s t m) := by
  unfold State.pldm
  extract_lets s1 _ v1
  have hs1 : Keeps s s1 := by
    unfold s1
    repeat' first
      | (with_reducible first
          | assumption
          | exact .refl _
          | apply Keeps.ite
          | apply Keeps.after (State.cntMgt_keeps ..)
          | apply Keeps.after (State.emit_keeps ..)
          | fail_if_no_progress refine Keeps.mk' ?_ rfl rfl rfl rfl rfl rfl)
      | split
      | unfold v1
      | intro _
      | extract_lets
      | (dsimp +zetaDelta only; split)
  repeat' first
    | (with_reducible first
        | assumption
        | exact .refl _
        | apply Keeps.ite
        | apply Keeps.after (State.cntMgt_keeps ..)
        | apply Keeps.after (State.emit_keeps ..)
        | fail_if_no_progress refine Keeps.mk' ?_ rfl rfl rfl rfl rfl rfl)
    | split
    | unfold v1
    | intro _
    | extract_lets
    | (dsimp +zetaDelta only; split)

theorem execPldmRequest_keeps (smb good : Bool) (size : Nat) (m : PldmReq) (s : State) :
    OKeeps s (execPldmRequest smb good size m s) := by
  unfold execPldmRequest
  repeat' first
    | (with_reducible first
        | assumption
        | exact .refl _
        | apply OKeeps.next
        | apply OKeeps.ite
        | apply Keeps.ite
        | apply Keeps.after (State.mctpIn_keeps (hk := ?_) ..)
        | apply Keeps.after (State.pldm_keeps ..)
        | fail_if_no_progress refine Keeps.mk' ?_ rfl rfl rfl rfl rfl rfl)
    | intro _
    | extract_lets

end Sys2Proof.Machine
end

