-- ==== Sys2Proof/Laws/KeepDump.lean ====
section
/-!
SUPPORT. What the operations of Machine/Dump.lean keep (Laws/Keep.lean).
-/

namespace Sys2Proof.Machine

open Sys2Proof

theorem State.dumpPhase_keeps (fuel n : Nat) (s : State) : Keeps s (State.dumpPhase fuel n s) := by
  induction fuel generalizing n s with
  | zero => exact .refl _
  | succ fuel ih =>
    unfold State.dumpPhase
    repeat' first
      | (with_reducible first
          | exact .refl _
          | apply Keeps.ite
          | apply Keeps.after (ih ..)
          | apply Keeps.after (State.emitNet_keeps ..)
          | fail_if_no_progress refine Keeps.mk' ?_ rfl rfl rfl rfl rfl rfl
          | apply Keeps.foldl)
      | split
      | extract_lets
      | intro _

theorem State.abandonAll_keeps (s : State) :
    Keeps s (State.abandonAll s) := by
  unfold State.abandonAll
  extract_lets _ _ _ _ s1
  have hs1 : Keeps s s1 := by
    unfold s1
    repeat' first
      | (with_reducible first
          | assumption
          | exact .refl _
          | apply Keeps.ite
          | apply Keeps.ite2
          | apply Keeps.ite1
          | apply Keeps.after (State.updQp_keeps ..)
          | fail_if_no_progress refine Keeps.mk' ?_ rfl rfl rfl rfl rfl rfl)
  repeat' first
    | (with_reducible first
        | assumption
        | exact .refl _
        | apply Keeps.ite
        | apply Keeps.ite2
        | apply Keeps.ite1
        | apply Keeps.after (State.updQp_keeps ..)
        | fail_if_no_progress refine Keeps.mk' ?_ rfl rfl rfl rfl rfl rfl
        | apply Keeps.foldl
        | apply Keeps.foldlPair)
    | intro _

theorem State.dumpStart_keeps (s : State) :
    Keeps s (State.dumpStart s) := by
  unfold State.dumpStart
  extract_lets _ _ s1 s2 _ _
  have hs1 : Keeps s s1 := by
    unfold s1
    repeat' first
      | (with_reducible first
          | assumption
          | exact .refl _
          | apply Keeps.ite
          | apply Keeps.ite2
          | apply Keeps.ite1
          | apply Keeps.after (State.wrReg_keeps ..)
          | apply Keeps.after (State.setFld_keeps ..))
  have hs2 : Keeps s s2 := by
    unfold s2
    repeat' first
      | (with_reducible first
          | assumption
          | exact .refl _
          | apply Keeps.ite
          | apply Keeps.ite2
          | apply Keeps.ite1
          | apply Keeps.after (State.wrReg_keeps ..))
  repeat' first
    | (with_reducible first
        | assumption
        | exact .refl _
        | apply Keeps.ite
        | apply Keeps.ite2
        | apply Keeps.ite1
        | apply Keeps.after (State.wrReg_keeps ..)
        | apply Keeps.after (State.setFld_keeps ..)
        | apply Keeps.after (State.dumpPhase_keeps ..)
        | fail_if_no_progress refine Keeps.mk' ?_ rfl rfl rfl rfl rfl rfl)

theorem State.dumpBegin_keeps (s : State) :
    Keeps s (State.dumpBegin s) := by
  unfold State.dumpBegin
  extract_lets s1
  have hs1 : Keeps s s1 := by
    unfold s1
    repeat' first
      | (with_reducible first
          | assumption
          | exact .refl _
          | apply Keeps.ite
          | apply Keeps.after (State.seamEntry_keeps ..)
          | apply Keeps.after (State.dumpEnter_keeps ..)
          | apply Keeps.after (State.abandonAll_keeps ..))
  repeat' first
    | (with_reducible first
        | assumption
        | exact .refl _
        | apply Keeps.ite
        | apply Keeps.after (State.seamEntry_keeps ..)
        | apply Keeps.after (State.dumpEnter_keeps ..)
        | apply Keeps.after (State.abandonAll_keeps ..)
        | apply Keeps.after (State.dumpStart_keeps ..))

theorem execDumpEntry_keeps (s : State) :
    OKeeps s (execDumpEntry s) := by
  unfold execDumpEntry
  repeat' first
    | (with_reducible first
        | assumption
        | exact .refl _
        | apply OKeeps.next
        | apply OKeeps.ite
        | apply Keeps.ite
        | apply Keeps.after (State.dumpBegin_keeps ..))

theorem State.updDump_keeps (s : State) (f : Dump → Dump) :
    Keeps s (State.updDump s f) := by
  unfold State.updDump
  extract_lets _
  repeat' first
    | (with_reducible first
        | assumption
        | exact .refl _
        | apply Keeps.ite
        | fail_if_no_progress refine Keeps.mk' ?_ rfl rfl rfl rfl rfl rfl)

theorem State.updJob_keeps (s : State) (id : Nat) (f : DumpJob → DumpJob) :
    Keeps s (State.updJob s id f) := by
  unfold State.updJob
  repeat' first
    | (with_reducible first
        | assumption
        | exact .refl _
        | apply Keeps.ite
        | apply Keeps.after (State.updDump_keeps ..))

theorem State.dumpStep_keeps (s : State) (k : Nat) :
    Keeps s (State.dumpStep s k) := by
  unfold State.dumpStep
  repeat' first
    | (with_reducible first
        | assumption
        | exact .refl _
        | apply Keeps.ite
        | apply Keeps.ite2
        | apply Keeps.ite1
        | apply Keeps.after (State.updJob_keeps ..)
        | apply Keeps.after (State.lanePost_keeps ..)
        | fail_if_no_progress refine Keeps.mk' ?_ rfl rfl rfl rfl rfl rfl
        | apply Keeps.foldl
        | apply Keeps.foldlPair)
    | split
    | intro _
    | extract_lets
    | (dsimp +zetaDelta only; split)

theorem execDumpStep_keeps (k : Fin 12) (s : State) :
    OKeeps s (execDumpStep k s) := by
  unfold execDumpStep
  repeat' first
    | (with_reducible first
        | assumption
        | exact .refl _
        | apply OKeeps.next
        | apply OKeeps.ite
        | apply Keeps.ite
        | apply Keeps.after (State.dumpStep_keeps ..))

theorem State.dumpCmd_keeps (s : State) (x : Dump) (j : DumpJob) :
    Keeps s (State.dumpCmd s x j) := by
  unfold State.dumpCmd
  extract_lets v1 v2
  repeat' first
    | (with_reducible first
        | assumption
        | exact .refl _
        | apply Keeps.ite
        | apply Keeps.after (State.updJob_keeps ..)
        | refine Keeps.trans ?_ (State.submit_keeps _ _ _ (by assumption))
        | fail_if_no_progress refine Keeps.mk' ?_ rfl rfl rfl rfl rfl rfl)
    | split

theorem State.dumpSubmit_keeps (s : State) (k : Nat) :
    Keeps s (State.dumpSubmit s k) := by
  unfold State.dumpSubmit
  repeat' first
    | (with_reducible first
        | assumption
        | exact .refl _
        | apply Keeps.ite
        | apply Keeps.after (State.dumpCmd_keeps ..)
        | fail_if_no_progress refine Keeps.mk' ?_ rfl rfl rfl rfl rfl rfl
        | apply Keeps.foldl
        | apply Keeps.foldlPair)
    | split
    | intro _

theorem State.dumpReap_keeps (s : State) (k : Nat) :
    Keeps s (State.dumpReap s k) := by
  unfold State.dumpReap
  repeat' first
    | (with_reducible first
        | assumption
        | exact .refl _
        | apply Keeps.ite
        | apply Keeps.ite2
        | apply Keeps.ite1
        | apply Keeps.after (State.freeTag_keeps ..)
        | apply Keeps.after (State.updJob_keeps ..)
        | fail_if_no_progress refine Keeps.mk' ?_ rfl rfl rfl rfl rfl rfl
        | apply Keeps.foldl
        | apply Keeps.foldlPair)
    | split
    | intro _

theorem execDrvSubmit_keeps (k : Fin 12) (c : Fin 256) (s : State) :
    OKeeps s (execDrvSubmit k c s) := by
  unfold execDrvSubmit
  repeat' first
    | (with_reducible first
        | assumption
        | exact .refl _
        | apply OKeeps.next
        | apply OKeeps.ite
        | apply Keeps.ite
        | apply Keeps.after (State.run_keeps (hbody := ?_) ..)
        | apply Keeps.after (State.drvSubmit_keeps ..)
        | apply Keeps.after (State.dumpSubmit_keeps ..)
        | fail_if_no_progress refine Keeps.mk' ?_ rfl rfl rfl rfl rfl rfl)
    | intro _

theorem execDrvReap_keeps (k : Fin 12) (c : Fin 256) (s : State) :
    OKeeps s (execDrvReap k c s) := by
  unfold execDrvReap
  repeat' first
    | (with_reducible first
        | assumption
        | exact .refl _
        | apply OKeeps.next
        | apply OKeeps.ite
        | apply Keeps.ite
        | apply Keeps.after (State.run_keeps (hbody := ?_) ..)
        | apply Keeps.after (State.drvReap_keeps ..)
        | apply Keeps.after (State.dumpReap_keeps ..)
        | fail_if_no_progress refine Keeps.mk' ?_ rfl rfl rfl rfl rfl rfl)
    | intro _

theorem State.jobEnd_keeps (s : State) (x : Dump) (j : DumpJob) :
    Keeps s (State.jobEnd s x j) := by
  unfold State.jobEnd
  extract_lets v1 s1 s2
  have hs1 : Keeps s s1 := by
    unfold s1
    repeat' first
      | (with_reducible first
          | assumption
          | exact .refl _
          | apply Keeps.ite
          | apply Keeps.after (State.setFld_keeps ..)
          | apply Keeps.after (State.satFld_keeps ..)
          | apply Keeps.after (State.dumpPhase_keeps ..)
          | apply Keeps.after (State.updDump_keeps ..))
  have hs2 : Keeps s s2 := by
    unfold s2
    repeat' first
      | (with_reducible first
          | assumption
          | exact .refl _
          | apply Keeps.ite
          | apply Keeps.after (State.setFld_keeps ..)
          | apply Keeps.after (State.satFld_keeps ..)
          | apply Keeps.after (State.dumpPhase_keeps ..)
          | apply Keeps.after (State.updDump_keeps ..))
  repeat' first
    | (with_reducible first
        | assumption
        | exact .refl _
        | apply Keeps.ite
        | apply Keeps.after (State.setFld_keeps ..)
        | apply Keeps.after (State.satFld_keeps ..)
        | apply Keeps.after (State.dumpPhase_keeps ..)
        | apply Keeps.after (State.updDump_keeps ..)
        | fail_if_no_progress refine Keeps.mk' ?_ rfl rfl rfl rfl rfl rfl)
    | split

theorem State.dumpWriteDone_keeps (s : State) :
    Keeps s (State.dumpWriteDone s) := by
  unfold State.dumpWriteDone
  repeat' first
    | (with_reducible first
        | assumption
        | exact .refl _
        | apply Keeps.ite
        | apply Keeps.after (State.jobEnd_keeps ..)
        | fail_if_no_progress refine Keeps.mk' ?_ rfl rfl rfl rfl rfl rfl)
    | split

theorem execDumpWriteComplete_keeps (s : State) :
    OKeeps s (execDumpWriteComplete s) := by
  unfold execDumpWriteComplete
  repeat' first
    | (with_reducible first
        | assumption
        | exact .refl _
        | apply OKeeps.next
        | apply OKeeps.ite
        | apply Keeps.ite
        | apply Keeps.after (State.dumpWriteDone_keeps ..))

theorem State.dumpEnd_keeps (s : State) (x : Dump) :
    Keeps s (State.dumpEnd s x) := by
  unfold State.dumpEnd
  extract_lets _ _ s1 s2 s3 s4 _ _ _ s5 _ s6 s7 s8
  have hs1 : Keeps s s1 := by
    unfold s1
    repeat' first
      | (with_reducible first
          | assumption
          | exact .refl _
          | apply Keeps.ite
          | apply Keeps.after (State.setFld_keeps ..))
  have hs2 : Keeps s s2 := by
    unfold s2
    repeat' first
      | (with_reducible first
          | assumption
          | exact .refl _
          | apply Keeps.ite
          | apply Keeps.after (State.setFld_keeps ..))
  have hs3 : Keeps s s3 := by
    unfold s3
    repeat' first
      | (with_reducible first
          | assumption
          | exact .refl _
          | apply Keeps.ite
          | apply Keeps.after (State.setFld_keeps ..))
  have hs4 : Keeps s s4 := by
    unfold s4
    repeat' first
      | (with_reducible first
          | assumption
          | exact .refl _
          | apply Keeps.ite
          | apply Keeps.after (State.setFld_keeps ..)
          | apply Keeps.after (State.cntEnv_keeps ..)
          | apply Keeps.after (State.raise_keeps ..)
          | apply Keeps.after (State.doneOpt_keeps ..)
          | apply Keeps.after (State.report_keeps ..)
          | apply Keeps.after (State.chipReset_keeps ..)
          | apply Keeps.after (State.sequencerStop_keeps ..))
  have hs5 : Keeps s s5 := by
    unfold s5
    repeat' first
      | (with_reducible first
          | assumption
          | exact .refl _
          | apply Keeps.ite
          | apply Keeps.after (State.setFld_keeps ..)
          | apply Keeps.after (State.cntEnv_keeps ..)
          | apply Keeps.after (State.raise_keeps ..)
          | apply Keeps.after (State.doneOpt_keeps ..)
          | apply Keeps.after (State.report_keeps ..)
          | apply Keeps.after (State.chipReset_keeps ..)
          | apply Keeps.after (State.sequencerStop_keeps ..)
          | apply Keeps.after (State.allBaysOff_keeps ..)
          | fail_if_no_progress refine Keeps.mk' ?_ rfl rfl rfl rfl rfl rfl)
  have hs6 : Keeps s s6 := by
    unfold s6
    repeat' first
      | (with_reducible first
          | assumption
          | exact .refl _
          | apply Keeps.ite
          | apply Keeps.after (State.setFld_keeps ..))
  have hs7 : Keeps s s7 := by
    unfold s7
    repeat' first
      | (with_reducible first
          | assumption
          | exact .refl _
          | apply Keeps.ite
          | apply Keeps.after (State.setFld_keeps ..)
          | apply Keeps.after (State.cntEnv_keeps ..)
          | apply Keeps.after (State.raise_keeps ..)
          | apply Keeps.after (State.doneOpt_keeps ..))
  have hs8 : Keeps s s8 := by
    unfold s8
    repeat' first
      | (with_reducible first
          | assumption
          | exact .refl _
          | apply Keeps.ite
          | apply Keeps.after (State.setFld_keeps ..)
          | apply Keeps.after (State.cntEnv_keeps ..)
          | apply Keeps.after (State.raise_keeps ..)
          | apply Keeps.after (State.doneOpt_keeps ..)
          | apply Keeps.after (State.report_keeps ..)
          | apply Keeps.after (State.chipReset_keeps ..)
          | apply Keeps.after (State.sequencerStop_keeps ..)
          | apply Keeps.after (State.allBaysOff_keeps ..))
  repeat' first
    | (with_reducible first
        | assumption
        | exact .refl _
        | apply Keeps.ite
        | apply Keeps.after (State.setFld_keeps ..)
        | apply Keeps.after (State.cntEnv_keeps ..)
        | apply Keeps.after (State.raise_keeps ..)
        | apply Keeps.after (State.doneOpt_keeps ..)
        | apply Keeps.after (State.report_keeps ..)
        | apply Keeps.after (State.chipReset_keeps ..))

theorem execDumpComplete_keeps (s : State) :
    OKeeps s (execDumpComplete s) := by
  unfold execDumpComplete
  repeat' first
    | (with_reducible first
        | assumption
        | exact .refl _
        | apply OKeeps.next
        | apply OKeeps.ite
        | apply Keeps.ite
        | apply Keeps.after (State.dumpEnd_keeps ..)
        | fail_if_no_progress refine Keeps.mk' ?_ rfl rfl rfl rfl rfl rfl)
    | split

theorem State.dumpReport_keeps (s : State) :
    Keeps s (State.dumpReport s) := by
  unfold State.dumpReport
  extract_lets _
  repeat' first
    | (with_reducible first
        | assumption
        | exact .refl _
        | apply Keeps.ite
        | apply Keeps.after (State.raise_keeps ..)
        | apply Keeps.after (State.report_keeps ..)
        | fail_if_no_progress refine Keeps.mk' ?_ rfl rfl rfl rfl rfl rfl)

end Sys2Proof.Machine
end

