-- ==== Sys2Proof/Laws/KeepFirmware.lean ====
section
/-!
SUPPORT. What the operations of Machine/Firmware.lean keep (Laws/Keep.lean).
-/

namespace Sys2Proof.Machine

open Sys2Proof

theorem State.flashFailed_keeps (s : State) (dev slot : Nat) :
    Keeps s (State.flashFailed s dev slot) := by
  unfold State.flashFailed
  repeat' first
    | (with_reducible first
        | assumption
        | exact .refl _
        | apply Keeps.ite
        | refine Keeps.trans ?_ (.pair (by assumption) (State.draw_keeps ..))
        | apply Keeps.after (State.draw_keeps ..)
        | apply Keeps.after (State.raise_keeps ..))

theorem State.writePackage_keeps (s : State) (pkg : List Byte) (failed : Nat) :
    Keeps s (State.writePackage s pkg failed) := by
  unfold State.writePackage
  extract_lets _ _ s1 _ _ s2 s3 s4 s5
  have hs1 : Keeps s s1 := by
    unfold s1
    repeat' first
      | (with_reducible first
          | assumption
          | exact .refl _
          | apply Keeps.ite
          | apply Keeps.after (State.setFld_keeps ..)
          | apply Keeps.after (State.raise_keeps ..)
          | apply Keeps.after (State.writeRecord_keeps ..))
  have hs2 : Keeps s s2 := by
    unfold s2
    repeat' first
      | (with_reducible first
          | assumption
          | exact .refl _
          | apply Keeps.ite
          | apply Keeps.after (State.setFld_keeps ..)
          | apply Keeps.after (State.raise_keeps ..)
          | apply Keeps.after (State.writeRecord_keeps ..)
          | apply Keeps.after (State.showStaged_keeps ..)
          | apply Keeps.after (State.flashFailed_keeps ..)
          | fail_if_no_progress refine Keeps.mk' ?_ rfl rfl rfl rfl rfl rfl)
  have hs3 : Keeps s s3 := by
    unfold s3
    repeat' first
      | (with_reducible first
          | assumption
          | exact .refl _
          | apply Keeps.ite
          | apply Keeps.after (State.setFld_keeps ..))
  have hs4 : Keeps s s4 := by
    unfold s4
    repeat' first
      | (with_reducible first
          | assumption
          | exact .refl _
          | apply Keeps.ite
          | apply Keeps.after (State.setFld_keeps ..)
          | apply Keeps.after (State.raise_keeps ..)
          | apply Keeps.after (State.writeRecord_keeps ..)
          | apply Keeps.after (State.showStaged_keeps ..)
          | apply Keeps.after (State.flashFailed_keeps ..))
  have hs5 : Keeps s s5 := by
    unfold s5
    repeat' first
      | (with_reducible first
          | assumption
          | exact .refl _
          | apply Keeps.ite
          | apply Keeps.after (State.setFld_keeps ..)
          | apply Keeps.after (State.raise_keeps ..)
          | apply Keeps.after (State.writeRecord_keeps ..)
          | apply Keeps.after (State.showStaged_keeps ..))
  repeat' first
    | (with_reducible first
        | assumption
        | exact .refl _
        | apply Keeps.ite
        | apply Keeps.after (State.setFld_keeps ..)
        | apply Keeps.after (State.raise_keeps ..))

theorem State.stagePeer_keeps (s : State) (pkg : List Byte) (failed : Nat) :
    Keeps s (State.stagePeer s pkg failed).2 := by
  unfold State.stagePeer
  repeat' first
    | (with_reducible first
        | assumption
        | exact .refl _
        | apply Keeps.ite
        | apply Keeps.ite2
        | apply Keeps.after (State.writePackage_keeps ..)
        | fail_if_no_progress refine Keeps.mk' ?_ rfl rfl rfl rfl rfl rfl)
    | split

theorem State.stageRead_keeps (s : State) :
    Keeps s (State.stageRead s) := by
  unfold State.stageRead
  repeat' first
    | (with_reducible first
        | assumption
        | exact .refl _
        | apply Keeps.ite
        | apply Keeps.ite2
        | apply Keeps.ite1
        | apply Keeps.after (State.showStaged_keeps ..)
        | refine Keeps.trans ?_ (.pair (by assumption) (State.draw_keeps ..))
        | apply Keeps.after (State.draw_keeps ..)
        | fail_if_no_progress refine Keeps.mk' ?_ rfl rfl rfl rfl rfl rfl
        | apply Keeps.foldl
        | apply Keeps.foldlPair)
    | split
    | intro _
    | extract_lets
    | (dsimp +zetaDelta only; split)

theorem fwStage_keeps (ok : Bool) (pkg : List Byte) (failed : Nat) (d : Desc) (s : State) :
    Keeps s (fwStage ok pkg failed d s) := by
  unfold fwStage
  repeat' first
    | (with_reducible first
        | assumption
        | exact .refl _
        | apply Keeps.ite
        | apply Keeps.ite2
        | apply Keeps.ite1
        | apply Keeps.after (State.writePackage_keeps ..)
        | apply Keeps.after (State.stageRead_keeps ..)
        | apply Keeps.after (State.mgtSend_keeps ..)
        | apply Keeps.after (State.checked_keeps ..)
        | apply Keeps.after (State.complete_keeps ..)
        | apply Keeps.after (State.done_keeps ..)
        | fail_if_no_progress refine Keeps.mk' ?_ rfl rfl rfl rfl rfl rfl
        | apply Keeps.foldl
        | apply Keeps.foldlPair)
    | split
    | intro _
    | extract_lets
    | (dsimp +zetaDelta only; split)

theorem execFwStage_keeps (ok : Bool) (pkg : List Byte) (failed : BitVec 2) (s : State) :
    OKeeps s (execFwStage ok pkg failed s) := by
  unfold execFwStage
  repeat' first
    | (with_reducible first
        | assumption
        | exact .refl _
        | apply OKeeps.next
        | apply OKeeps.ite
        | apply Keeps.ite
        | apply Keeps.after (State.ringData_keeps (hbody := ?_) ..)
        | apply Keeps.after (fwStage_keeps ..)
        | fail_if_no_progress refine Keeps.mk' ?_ rfl rfl rfl rfl rfl rfl)
    | intro _

theorem State.stagePeerDone_keeps (s : State) (status : Nat) :
    Keeps s (State.stagePeerDone s status) := by
  unfold State.stagePeerDone
  extract_lets v1 s1
  have hs1 : Keeps s s1 := by
    unfold s1
    repeat' first
      | (with_reducible first
          | assumption
          | exact .refl _
          | apply Keeps.ite
          | apply Keeps.after (State.complete_keeps ..)
          | fail_if_no_progress refine Keeps.mk' ?_ rfl rfl rfl rfl rfl rfl)
  repeat' first
    | (with_reducible first
        | assumption
        | exact .refl _
        | apply Keeps.ite
        | apply Keeps.after (State.complete_keeps ..)
        | fail_if_no_progress refine Keeps.mk' ?_ rfl rfl rfl rfl rfl rfl)
    | split

theorem State.activateNow_keeps (s : State) (unread : Nat) :
    Keeps s (State.activateNow s unread).2 := by
  unfold State.activateNow
  extract_lets v1 v2 v3 s1 s2 v4 s3 v5 s4
  have hs1 : Keeps s s1 := by
    unfold s1
    repeat' first
      | (with_reducible first
          | assumption
          | exact .refl _
          | apply Keeps.ite
          | apply Keeps.ite2
          | apply Keeps.after (State.raise_keeps ..)
          | apply Keeps.after (State.writeRecord_keeps ..))
  have hs2 : Keeps s s2 := by
    unfold s2
    repeat' first
      | (with_reducible first
          | assumption
          | exact .refl _
          | apply Keeps.ite
          | apply Keeps.ite2
          | apply Keeps.after (State.raise_keeps ..)
          | apply Keeps.after (State.writeRecord_keeps ..)
          | apply Keeps.after (State.showStaged_keeps ..)
          | apply Keeps.after (State.runPackage_keeps ..)
          | apply Keeps.after (State.fwStart_keeps ..)
          | apply Keeps.after (State.fellBack_keeps ..)
          | apply Keeps.after (State.coresReset_keeps ..))
  have hs3 : Keeps s s3 := by
    unfold s3
    repeat' first
      | (with_reducible first
          | assumption
          | exact .refl _
          | apply Keeps.ite
          | apply Keeps.ite2
          | apply Keeps.after (State.raise_keeps ..)
          | apply Keeps.after (State.writeRecord_keeps ..))
  have hs4 : Keeps s s4 := by
    unfold s4
    repeat' first
      | (with_reducible first
          | assumption
          | exact .refl _
          | apply Keeps.ite
          | apply Keeps.ite2
          | apply Keeps.after (State.raise_keeps ..)
          | apply Keeps.after (State.writeRecord_keeps ..)
          | apply Keeps.after (State.showStaged_keeps ..)
          | apply Keeps.after (State.runPackage_keeps ..)
          | apply Keeps.after (State.fwStart_keeps ..)
          | apply Keeps.after (State.fellBack_keeps ..)
          | apply Keeps.after (State.coresReset_keeps ..)
          | apply Keeps.after (State.core3Reset_keeps ..)
          | apply Keeps.after (State.restart_keeps ..)
          | fail_if_no_progress refine Keeps.mk' ?_ rfl rfl rfl rfl rfl rfl)
      | split
  repeat' first
    | (with_reducible first
        | assumption
        | exact .refl _
        | apply Keeps.ite
        | apply Keeps.ite2
        | apply Keeps.after (State.raise_keeps ..)
        | apply Keeps.after (State.writeRecord_keeps ..)
        | apply Keeps.after (State.showStaged_keeps ..)
        | apply Keeps.after (State.runPackage_keeps ..)
        | apply Keeps.after (State.fwStart_keeps ..)
        | apply Keeps.after (State.fellBack_keeps ..)
        | apply Keeps.after (State.coresReset_keeps ..)
        | apply Keeps.after (State.core3Reset_keeps ..)
        | apply Keeps.after (State.restart_keeps ..)
        | fail_if_no_progress refine Keeps.mk' ?_ rfl rfl rfl rfl rfl rfl)
    | split

theorem State.activateLater_keeps (s : State) :
    Keeps s (State.activateLater s) := by
  unfold State.activateLater
  extract_lets _
  repeat' first
    | (with_reducible first
        | assumption
        | exact .refl _
        | apply Keeps.ite
        | apply Keeps.after (State.writeRecord_keeps ..))

theorem State.commitSvn_keeps (s : State) : Keeps s (State.commitSvn s) := by
  unfold State.commitSvn
  extract_lets n
  split
  · exact .refl _
  · refine .trans ?_ (State.raise_keeps ..)
    exact ⟨⟨⟨rfl, fun i => ⟨i.regs, i.backlog, i.history, i.schedule⟩, rfl, by simp only; omega⟩, rfl⟩, rfl, .inl rfl⟩

theorem State.activateDone_keeps (s : State) (d : Desc) (unread : Nat) :
    Keeps s (State.activateDone s d unread) := by
  unfold State.activateDone
  repeat' first
    | (with_reducible first
        | assumption
        | exact .refl _
        | apply Keeps.ite
        | apply Keeps.after (State.complete_keeps ..)
        | refine Keeps.trans ?_ (.pair (by assumption) (State.activateNow_keeps ..))
        | apply Keeps.after (State.activateNow_keeps ..))

theorem fwActivate_keeps (unread : Nat) (d : Desc) (s : State) :
    Keeps s (fwActivate unread d s) := by
  unfold fwActivate
  extract_lets _ _ _ _ _ _
  repeat' first
    | (with_reducible first
        | assumption
        | exact .refl _
        | apply Keeps.ite
        | apply Keeps.after (State.complete_keeps ..)
        | apply Keeps.after (State.done_keeps ..)
        | apply Keeps.after (State.mgtSend_keeps ..)
        | apply Keeps.after (State.checked_keeps (hok := ?_) ..)
        | apply Keeps.after (State.fwStarting_keeps ..)
        | apply Keeps.after (State.activateLater_keeps ..)
        | apply Keeps.after (State.commitSvn_keeps ..)
        | apply Keeps.after (State.activateDone_keeps ..)
        | fail_if_no_progress refine Keeps.mk' ?_ rfl rfl rfl rfl rfl rfl)
    | intro _

theorem execFwActivate_keeps (unread : BitVec 2) (s : State) :
    OKeeps s (execFwActivate unread s) := by
  unfold execFwActivate
  repeat' first
    | (with_reducible first
        | assumption
        | exact .refl _
        | apply OKeeps.next
        | apply OKeeps.ite
        | apply Keeps.ite
        | apply Keeps.after (State.ringCmd_keeps (hbody := ?_) ..)
        | apply Keeps.after (fwActivate_keeps ..)
        | fail_if_no_progress refine Keeps.mk' ?_ rfl rfl rfl rfl rfl rfl)
    | intro _

theorem State.activatePeer_keeps (s : State) (mode unread : Nat) :
    Keeps s (State.activatePeer s mode unread) := by
  unfold State.activatePeer
  repeat' first
    | (with_reducible first
        | assumption
        | exact .refl _
        | apply Keeps.ite
        | apply Keeps.after (State.mgtSend_keeps ..)
        | refine Keeps.trans ?_ (.pair (by assumption) (State.activateNow_keeps ..))
        | apply Keeps.after (State.activateNow_keeps ..)
        | apply Keeps.after (State.activateLater_keeps ..)
        | apply Keeps.after (State.commitSvn_keeps ..))

theorem State.activatePeerDone_keeps (s : State) (status unread : Nat) :
    Keeps s (State.activatePeerDone s status unread) := by
  unfold State.activatePeerDone
  extract_lets v1 s1
  have hs1 : Keeps s s1 := by
    unfold s1
    repeat' first
      | (with_reducible first
          | assumption
          | exact .refl _
          | apply Keeps.ite
          | apply Keeps.after (State.complete_keeps ..)
          | apply Keeps.after (State.activateDone_keeps ..)
          | fail_if_no_progress refine Keeps.mk' ?_ rfl rfl rfl rfl rfl rfl)
  repeat' first
    | (with_reducible first
        | assumption
        | exact .refl _
        | apply Keeps.ite
        | apply Keeps.after (State.complete_keeps ..)
        | apply Keeps.after (State.activateDone_keeps ..)
        | fail_if_no_progress refine Keeps.mk' ?_ rfl rfl rfl rfl rfl rfl)
    | split

end Sys2Proof.Machine
end

