-- ==== Sys2Proof/Laws/KeepPair.lean ====
section
/-!
SUPPORT. What the operations of Machine/Pair.lean keep (Laws/Keep.lean).
-/

namespace Sys2Proof.Machine

open Sys2Proof

theorem State.pairWant_keeps (s : State) (st : Nat) :
    Keeps s (State.pairWant s st) := by
  unfold State.pairWant
  repeat' first
    | (with_reducible first
        | assumption
        | exact .refl _
        | apply Keeps.ite
        | apply Keeps.after (State.setPair_keeps ..)
        | (intro _; exact rfl)
        | fail_if_no_progress refine Keeps.mk' ?_ rfl rfl rfl rfl rfl rfl)
    | intro _
    | extract_lets

theorem State.leaveLockstep_keeps (s : State) (reason : Nat) :
    Keeps s (State.leaveLockstep s reason) := by
  unfold State.leaveLockstep
  repeat' first
    | (with_reducible first
        | assumption
        | exact .refl _
        | apply Keeps.ite
        | apply Keeps.after (State.setPair_keeps ..)
        | (intro _; exact rfl)
        | fail_if_no_progress refine Keeps.mk' ?_ rfl rfl rfl rfl rfl rfl)
    | intro _
    | extract_lets

theorem State.startWait_keeps (s : State) (reason : Nat) :
    Keeps s (State.startWait s reason) := by
  unfold State.startWait
  repeat' first
    | (with_reducible first
        | assumption
        | exact .refl _
        | apply Keeps.ite
        | apply Keeps.after (State.setPair_keeps ..)
        | (intro _; exact rfl)
        | fail_if_no_progress refine Keeps.mk' ?_ rfl rfl rfl rfl rfl rfl)
    | intro _
    | extract_lets

theorem State.setStriping_keeps (s : State) (k : Nat) (on : Bool) :
    Keeps s (State.setStriping s k on) := by
  unfold State.setStriping
  repeat' first
    | (with_reducible first
        | assumption
        | exact .refl _
        | apply Keeps.ite
        | apply Keeps.after (State.setFld_keeps ..)
        | fail_if_no_progress refine Keeps.mk' ?_ rfl rfl rfl rfl rfl rfl)
    | intro _

theorem State.linkCheck_keeps (s : State) :
    Keeps s (State.linkCheck s) := by
  unfold State.linkCheck
  extract_lets _ s1 s2 s3
  have hs1 : Keeps s s1 := by
    unfold s1
    repeat' first
      | (with_reducible first
          | assumption
          | exact .refl _
          | apply Keeps.ite
          | apply Keeps.after (State.setFld_keeps ..)
          | apply Keeps.after (State.unkey_keeps ..)
          | apply Keeps.after (State.setPair_keeps ..)
          | (intro _; exact rfl)
          | apply Keeps.after (State.startWait_keeps ..)
          | apply Keeps.after (State.joinAbort_keeps ..)
          | fail_if_no_progress refine Keeps.mk' ?_ rfl rfl rfl rfl rfl rfl)
      | intro _
      | extract_lets
  have hs2 : Keeps s s2 := by
    unfold s2
    repeat' first
      | (with_reducible first
          | assumption
          | exact .refl _
          | apply Keeps.ite
          | apply Keeps.after (State.setFld_keeps ..)
          | apply Keeps.after (State.unkey_keeps ..)
          | apply Keeps.after (State.setPair_keeps ..)
          | (intro _; exact rfl)
          | apply Keeps.after (State.startWait_keeps ..)
          | apply Keeps.after (State.joinAbort_keeps ..)
          | fail_if_no_progress refine Keeps.mk' ?_ rfl rfl rfl rfl rfl rfl)
      | intro _
      | extract_lets
  have hs3 : Keeps s s3 := by
    unfold s3
    repeat' first
      | (with_reducible first
          | assumption
          | exact .refl _
          | apply Keeps.ite
          | apply Keeps.after (State.setFld_keeps ..)
          | apply Keeps.after (State.unkey_keeps ..)
          | apply Keeps.after (State.setPair_keeps ..)
          | (intro _; exact rfl)
          | apply Keeps.after (State.startWait_keeps ..)
          | apply Keeps.after (State.joinAbort_keeps ..)
          | fail_if_no_progress refine Keeps.mk' ?_ rfl rfl rfl rfl rfl rfl)
      | intro _
      | extract_lets
  repeat' first
    | (with_reducible first
        | assumption
        | exact .refl _
        | apply Keeps.ite
        | apply Keeps.after (State.setFld_keeps ..)
        | apply Keeps.after (State.unkey_keeps ..)
        | apply Keeps.after (State.setPair_keeps ..)
        | (intro _; exact rfl)
        | apply Keeps.after (State.startWait_keeps ..)
        | apply Keeps.after (State.joinAbort_keeps ..)
        | fail_if_no_progress refine Keeps.mk' ?_ rfl rfl rfl rfl rfl rfl)
    | intro _
    | extract_lets

theorem State.bundleLock_keeps (s : State) (k : Nat) (rx lock : Bool) :
    Keeps s (State.bundleLock s k rx lock) := by
  unfold State.bundleLock
  extract_lets s1 _ _ _ s2
  have hs1 : Keeps s s1 := State.setPair_keeps _ _ (by intro p; split <;> rfl)
  have hs2 : Keeps s s2 := by
    unfold s2
    repeat' first
      | (with_reducible first
          | assumption
          | exact .refl _
          | apply Keeps.ite
          | apply Keeps.ite1
          | apply Keeps.after (State.setPair_keeps ..)
          | (intro _; exact rfl)
          | apply Keeps.after (State.setStriping_keeps ..)
          | apply Keeps.after (State.linkCheck_keeps ..)
          | fail_if_no_progress refine Keeps.mk' ?_ rfl rfl rfl rfl rfl rfl)
      | intro _
      | extract_lets
  repeat' first
    | (with_reducible first
        | assumption
        | exact .refl _
        | apply Keeps.ite
        | apply Keeps.ite1
        | apply Keeps.after (State.setPair_keeps ..)
        | (intro _; exact rfl)
        | apply Keeps.after (State.setStriping_keeps ..)
        | apply Keeps.after (State.linkCheck_keeps ..)
        | fail_if_no_progress refine Keeps.mk' ?_ rfl rfl rfl rfl rfl rfl)
    | intro _
    | extract_lets

theorem execPairBundleLockChange_keeps (k : Fin 16) (rx lock ref : Bool) (s : State) :
    OKeeps s (execPairBundleLockChange k rx lock ref s) := by
  unfold execPairBundleLockChange
  extract_lets s1
  have hs1 : Keeps s s1 := by
    unfold s1
    repeat' first
      | (with_reducible first
          | assumption
          | exact .refl _
          | apply OKeeps.next
          | apply OKeeps.ite
          | apply Keeps.ite
          | apply Keeps.after (State.clockSet_keeps ..)
          | apply Keeps.after (State.bundleLock_keeps ..)
          | fail_if_no_progress refine Keeps.mk' ?_ rfl rfl rfl rfl rfl rfl)
      | intro _
  repeat' first
    | (with_reducible first
        | assumption
        | exact .refl _
        | apply OKeeps.next
        | apply OKeeps.ite
        | apply Keeps.ite
        | apply Keeps.after (State.clockSet_keeps ..)
        | apply Keeps.after (State.bundleLock_keeps ..)
        | fail_if_no_progress refine Keeps.mk' ?_ rfl rfl rfl rfl rfl rfl)
    | intro _

theorem execBundleRejoin_keeps (k : Fin 16) (s : State) :
    OKeeps s (execBundleRejoin k s) := by
  unfold execBundleRejoin
  repeat' first
    | (with_reducible first
        | assumption
        | exact .refl _
        | apply OKeeps.next
        | apply OKeeps.ite
        | apply Keeps.ite
        | apply Keeps.ite2
        | apply Keeps.ite1
        | apply Keeps.after (State.setPair_keeps ..)
        | (intro _; exact rfl)
        | apply Keeps.after (State.setStriping_keeps ..)
        | fail_if_no_progress refine Keeps.mk' ?_ rfl rfl rfl rfl rfl rfl)
    | split
    | intro _
    | extract_lets
    | (dsimp +zetaDelta only; split)

theorem State.shareSend_keeps (s : State) :
    Keeps s (State.shareSend s) := by
  unfold State.shareSend
  repeat' first
    | (with_reducible first
        | assumption
        | exact .refl _
        | apply Keeps.ite
        | apply Keeps.ite2
        | apply Keeps.ite1
        | refine Keeps.trans ?_ (.pair (by assumption) (State.draw_keeps ..))
        | apply Keeps.after (State.draw_keeps ..)
        | apply Keeps.after (State.linkSend_keeps ..)
        | apply Keeps.after (State.setPair_keeps ..)
        | (intro _; exact rfl)
        | fail_if_no_progress refine Keeps.mk' ?_ rfl rfl rfl rfl rfl rfl
        | apply Keeps.foldl
        | apply Keeps.foldlPair)
    | split
    | intro _
    | extract_lets

theorem State.peerSeen_keeps (s : State) (ident : List Nat) :
    Keeps s (State.peerSeen s ident) := by
  unfold State.peerSeen
  extract_lets s1 s2
  have hs1 : Keeps s s1 := by
    unfold s1
    repeat' first
      | (with_reducible first
          | assumption
          | exact .refl _
          | apply Keeps.ite
          | apply Keeps.after (State.wrReg_keeps ..)
          | fail_if_no_progress refine Keeps.mk' ?_ rfl rfl rfl rfl rfl rfl)
      | intro _
  have hs2 : Keeps s s2 := by
    unfold s2
    repeat' first
      | (with_reducible first
          | assumption
          | exact .refl _
          | apply Keeps.ite
          | apply Keeps.after (State.wrReg_keeps ..)
          | fail_if_no_progress refine Keeps.mk' ?_ rfl rfl rfl rfl rfl rfl)
      | intro _
  repeat' first
    | (with_reducible first
        | assumption
        | exact .refl _
        | apply Keeps.ite
        | apply Keeps.after (State.wrReg_keeps ..)
        | fail_if_no_progress refine Keeps.mk' ?_ rfl rfl rfl rfl rfl rfl)
    | intro _

theorem State.openStreams_keeps (s : State) :
    Keeps s (State.openStreams s) := by
  unfold State.openStreams
  repeat' first
    | (with_reducible first
        | assumption
        | exact .refl _
        | apply Keeps.ite
        | apply Keeps.after (State.setFld_keeps ..)
        | fail_if_no_progress refine Keeps.mk' ?_ rfl rfl rfl rfl rfl rfl
        | apply Keeps.foldl
        | apply Keeps.foldlPair)
    | intro _
    | extract_lets

theorem State.keyLink_keeps (s : State) (k : Keyx) :
    Keeps s (State.keyLink s k) := by
  unfold State.keyLink
  extract_lets _ _ _ _ _ s1
  have hs1 : Keeps s s1 := by
    unfold s1
    repeat' first
      | (with_reducible first
          | assumption
          | exact .refl _
          | apply Keeps.ite
          | apply Keeps.after (State.setFld_keeps ..)
          | apply Keeps.after (State.setPair_keeps ..)
          | (intro _; exact rfl)
          | apply Keeps.after (State.openStreams_keeps ..)
          | fail_if_no_progress refine Keeps.mk' ?_ rfl rfl rfl rfl rfl rfl)
      | intro _
      | extract_lets
  repeat' first
    | (with_reducible first
        | assumption
        | exact .refl _
        | apply Keeps.ite
        | apply Keeps.after (State.setFld_keeps ..)
        | apply Keeps.after (State.setPair_keeps ..)
        | (intro _; exact rfl)
        | apply Keeps.after (State.openStreams_keeps ..)
        | fail_if_no_progress refine Keeps.mk' ?_ rfl rfl rfl rfl rfl rfl)
    | intro _
    | extract_lets

theorem State.keyxIn_keeps (s : State) (bytes : List Byte) :
    Keeps s (State.keyxIn s bytes) := by
  unfold State.keyxIn
  extract_lets s1 v1 s2
  have hs1 : Keeps s s1 := by
    unfold s1
    repeat' first
      | (with_reducible first
          | assumption
          | exact .refl _
          | apply Keeps.ite
          | apply Keeps.after (State.cntPair_keeps ..)
          | apply Keeps.after (State.setPair_keeps ..)
          | (intro _; exact rfl)
          | apply Keeps.after (State.shareSend_keeps ..)
          | apply Keeps.after (State.peerSeen_keeps ..)
          | apply Keeps.after (State.keyLink_keeps ..)
          | fail_if_no_progress refine Keeps.mk' ?_ rfl rfl rfl rfl rfl rfl)
      | split
      | unfold v1
      | intro _
      | extract_lets
      | (dsimp +zetaDelta only; split)
  have hs2 : Keeps s s2 := by
    unfold s2
    repeat' first
      | (with_reducible first
          | assumption
          | exact .refl _
          | apply Keeps.ite
          | apply Keeps.after (State.cntPair_keeps ..)
          | apply Keeps.after (State.setPair_keeps ..)
          | (intro _; exact rfl)
          | apply Keeps.after (State.shareSend_keeps ..)
          | apply Keeps.after (State.peerSeen_keeps ..)
          | apply Keeps.after (State.keyLink_keeps ..)
          | fail_if_no_progress refine Keeps.mk' ?_ rfl rfl rfl rfl rfl rfl)
      | split
      | unfold v1
      | intro _
      | extract_lets
      | (dsimp +zetaDelta only; split)
  repeat' first
    | (with_reducible first
        | assumption
        | exact .refl _
        | apply Keeps.ite
        | apply Keeps.after (State.cntPair_keeps ..)
        | apply Keeps.after (State.setPair_keeps ..)
        | (intro _; exact rfl)
        | apply Keeps.after (State.shareSend_keeps ..)
        | apply Keeps.after (State.peerSeen_keeps ..)
        | apply Keeps.after (State.keyLink_keeps ..)
        | fail_if_no_progress refine Keeps.mk' ?_ rfl rfl rfl rfl rfl rfl)
    | split
    | unfold v1
    | intro _
    | extract_lets
    | (dsimp +zetaDelta only; split)

theorem execKeyxReceive_keeps (bytes : List Byte) (s : State) :
    OKeeps s (execKeyxReceive bytes s) := by
  unfold execKeyxReceive
  repeat' first
    | (with_reducible first
        | assumption
        | exact .refl _
        | apply OKeeps.next
        | apply OKeeps.ite
        | apply Keeps.ite
        | apply Keeps.after (State.keyxIn_keeps ..)
        | fail_if_no_progress refine Keeps.mk' ?_ rfl rfl rfl rfl rfl rfl)
    | intro _

theorem State.rekeyTx_keeps (s : State) :
    Keeps s (State.rekeyTx s) := by
  unfold State.rekeyTx
  repeat' first
    | (with_reducible first
        | assumption
        | exact .refl _
        | apply Keeps.ite
        | apply Keeps.after (State.setPair_keeps ..)
        | (intro _; exact rfl)
        | fail_if_no_progress refine Keeps.mk' ?_ rfl rfl rfl rfl rfl rfl)
    | intro _
    | extract_lets

theorem State.linkRekey_keeps (s : State) :
    Keeps s (State.linkRekey s) := by
  unfold State.linkRekey
  repeat' first
    | (with_reducible first
        | assumption
        | exact .refl _
        | apply Keeps.ite
        | apply Keeps.after (State.setPair_keeps ..)
        | (intro _; exact rfl)
        | apply Keeps.after (State.rekeyTx_keeps ..)
        | fail_if_no_progress refine Keeps.mk' ?_ rfl rfl rfl rfl rfl rfl)
    | intro _
    | extract_lets

theorem execLinkRekey_keeps (s : State) :
    OKeeps s (execLinkRekey s) := by
  unfold execLinkRekey
  repeat' first
    | (with_reducible first
        | assumption
        | exact .refl _
        | apply OKeeps.next
        | apply OKeeps.ite
        | apply Keeps.ite
        | apply Keeps.after (State.linkRekey_keeps ..)
        | fail_if_no_progress refine Keeps.mk' ?_ rfl rfl rfl rfl rfl rfl)
    | intro _

theorem State.resendAsk_keeps (s : State) (stream : Nat) :
    Keeps s (State.resendAsk s stream) := by
  unfold State.resendAsk
  repeat' first
    | (with_reducible first
        | assumption
        | exact .refl _
        | apply Keeps.ite
        | apply Keeps.after (State.cntPair_keeps ..)
        | apply Keeps.after (State.linkSend_keeps ..)
        | fail_if_no_progress refine Keeps.mk' ?_ rfl rfl rfl rfl rfl rfl)
    | intro _

theorem State.gapOn_keeps (s : State) (stream : Nat) :
    Keeps s (State.gapOn s stream) := by
  unfold State.gapOn
  repeat' first
    | (with_reducible first
        | assumption
        | exact .refl _
        | apply Keeps.ite
        | apply Keeps.after (State.leaveLockstep_keeps ..)
        | apply Keeps.after (State.joinAbort_keeps ..)
        | apply Keeps.after (State.resendAsk_keeps ..)
        | fail_if_no_progress refine Keeps.mk' ?_ rfl rfl rfl rfl rfl rfl)
    | intro _

theorem State.epochSeen_keeps (s : State) (e : Nat) :
    Keeps s (State.epochSeen s e) := by
  unfold State.epochSeen
  extract_lets s1
  have hs1 : Keeps s s1 := by
    unfold s1
    repeat' first
      | (with_reducible first
          | assumption
          | exact .refl _
          | apply Keeps.ite
          | apply Keeps.after (State.setPair_keeps ..)
          | (intro _; exact rfl)
          | apply Keeps.after (State.rekeyTx_keeps ..)
          | fail_if_no_progress refine Keeps.mk' ?_ rfl rfl rfl rfl rfl rfl)
      | intro _
      | extract_lets
  repeat' first
    | (with_reducible first
        | assumption
        | exact .refl _
        | apply Keeps.ite
        | apply Keeps.after (State.setPair_keeps ..)
        | (intro _; exact rfl)
        | apply Keeps.after (State.rekeyTx_keeps ..)
        | fail_if_no_progress refine Keeps.mk' ?_ rfl rfl rfl rfl rfl rfl)
    | intro _
    | extract_lets

theorem State.linkOpen_keeps (s : State) (typ : Nat) (bytes : List Byte) :
    Keeps s (State.linkOpen s typ bytes).2 := by
  unfold State.linkOpen
  extract_lets s1 v1 v2 v3 s2 s3 v4 v5
  have hs1 : Keeps s s1 := by
    unfold s1
    repeat' first
      | (with_reducible first
          | assumption
          | exact .refl _
          | apply Keeps.ite
          | apply Keeps.ite2
          | apply Keeps.after (State.cntPair_keeps ..)
          | refine Keeps.trans ?_ (.pair (by assumption) (State.alive_keeps ..))
          | apply Keeps.after (State.alive_keeps ..)
          | apply Keeps.after (State.gapOn_keeps ..)
          | apply Keeps.after (State.epochSeen_keeps ..)
          | fail_if_no_progress refine Keeps.mk' ?_ rfl rfl rfl rfl rfl rfl)
      | split
      | unfold v1
      | unfold v2
      | unfold v3
      | unfold v4
      | unfold v5
      | intro _
      | extract_lets
      | (dsimp +zetaDelta only; split)
  have hs2 : Keeps s s2 := by
    unfold s2
    repeat' first
      | (with_reducible first
          | assumption
          | exact .refl _
          | apply Keeps.ite
          | apply Keeps.ite2
          | apply Keeps.after (State.cntPair_keeps ..)
          | refine Keeps.trans ?_ (.pair (by assumption) (State.alive_keeps ..))
          | apply Keeps.after (State.alive_keeps ..)
          | apply Keeps.after (State.gapOn_keeps ..)
          | apply Keeps.after (State.epochSeen_keeps ..)
          | fail_if_no_progress refine Keeps.mk' ?_ rfl rfl rfl rfl rfl rfl)
      | split
      | unfold v1
      | unfold v2
      | unfold v3
      | unfold v4
      | unfold v5
      | intro _
      | extract_lets
      | (dsimp +zetaDelta only; split)
  have hs3 : Keeps s s3 := by
    unfold s3
    repeat' first
      | (with_reducible first
          | assumption
          | exact .refl _
          | apply Keeps.ite
          | apply Keeps.ite2
          | apply Keeps.after (State.cntPair_keeps ..)
          | refine Keeps.trans ?_ (.pair (by assumption) (State.alive_keeps ..))
          | apply Keeps.after (State.alive_keeps ..)
          | apply Keeps.after (State.gapOn_keeps ..)
          | apply Keeps.after (State.epochSeen_keeps ..)
          | fail_if_no_progress refine Keeps.mk' ?_ rfl rfl rfl rfl rfl rfl)
      | split
      | unfold v1
      | unfold v2
      | unfold v3
      | unfold v4
      | unfold v5
      | intro _
      | extract_lets
      | (dsimp +zetaDelta only; split)
  repeat' first
    | (with_reducible first
        | assumption
        | exact .refl _
        | apply Keeps.ite
        | apply Keeps.ite2
        | apply Keeps.after (State.cntPair_keeps ..)
        | refine Keeps.trans ?_ (.pair (by assumption) (State.alive_keeps ..))
        | apply Keeps.after (State.alive_keeps ..)
        | apply Keeps.after (State.gapOn_keeps ..)
        | apply Keeps.after (State.epochSeen_keeps ..)
        | fail_if_no_progress refine Keeps.mk' ?_ rfl rfl rfl rfl rfl rfl)
    | split
    | unfold v1
    | unfold v2
    | unfold v3
    | unfold v4
    | unfold v5
    | intro _
    | extract_lets
    | (dsimp +zetaDelta only; split)

theorem State.resend_keeps (s : State) (bytes : List Byte) :
    Keeps s (State.resend s bytes) := by
  unfold State.resend
  repeat' first
    | (with_reducible first
        | assumption
        | exact .refl _
        | apply Keeps.ite
        | apply Keeps.ite2
        | apply Keeps.ite1
        | apply Keeps.after (State.linkPut_keeps ..)
        | refine Keeps.trans ?_ (.pair (by assumption) (State.linkOpen_keeps ..))
        | apply Keeps.after (State.linkOpen_keeps ..)
        | fail_if_no_progress refine Keeps.mk' ?_ rfl rfl rfl rfl rfl rfl
        | apply Keeps.foldl
        | apply Keeps.foldlPair)
    | split
    | intro _
    | extract_lets
    | (dsimp +zetaDelta only; split)

theorem execResendFrameReceive_keeps (bytes : List Byte) (s : State) :
    OKeeps s (execResendFrameReceive bytes s) := by
  unfold execResendFrameReceive
  repeat' first
    | (with_reducible first
        | assumption
        | exact .refl _
        | apply OKeeps.next
        | apply OKeeps.ite
        | apply Keeps.ite
        | apply Keeps.after (State.resend_keeps ..)
        | fail_if_no_progress refine Keeps.mk' ?_ rfl rfl rfl rfl rfl rfl)
    | intro _

theorem execZeroiseMarker_keeps (code : Fin 7) (s : State) :
    OKeeps s (execZeroiseMarker code s) := by
  unfold execZeroiseMarker
  extract_lets s1
  have hs1 : Keeps s s1 := by
    unfold s1
    repeat' first
      | (with_reducible first
          | assumption
          | exact .refl _
          | apply OKeeps.next
          | apply OKeeps.ite
          | apply Keeps.ite
          | apply Keeps.after (State.unkey_keeps ..)
          | apply Keeps.after (State.zeroAlarm_keeps ..)
          | apply Keeps.after (State.startWait_keeps ..)
          | fail_if_no_progress refine Keeps.mk' ?_ rfl rfl rfl rfl rfl rfl)
      | intro _
  repeat' first
    | (with_reducible first
        | assumption
        | exact .refl _
        | apply OKeeps.next
        | apply OKeeps.ite
        | apply Keeps.ite
        | apply Keeps.after (State.unkey_keeps ..)
        | apply Keeps.after (State.zeroAlarm_keeps ..)
        | apply Keeps.after (State.startWait_keeps ..)
        | fail_if_no_progress refine Keeps.mk' ?_ rfl rfl rfl rfl rfl rfl)
    | intro _

theorem State.claim_keeps (s : State) :
    Keeps s (State.claim s) := by
  unfold State.claim
  repeat' first
    | (with_reducible first
        | assumption
        | exact .refl _
        | apply Keeps.ite
        | apply Keeps.after (State.setFld_keeps ..)
        | fail_if_no_progress refine Keeps.mk' ?_ rfl rfl rfl rfl rfl rfl)
    | intro _

theorem State.roleClaim_keeps (s : State) :
    Keeps s (State.roleClaim s) := by
  unfold State.roleClaim
  repeat' first
    | (with_reducible first
        | assumption
        | exact .refl _
        | apply Keeps.ite
        | apply Keeps.after (State.setPair_keeps ..)
        | (intro _; exact rfl)
        | apply Keeps.after (State.pairWant_keeps ..)
        | apply Keeps.after (State.claim_keeps ..)
        | fail_if_no_progress refine Keeps.mk' ?_ rfl rfl rfl rfl rfl rfl)
    | intro _
    | extract_lets

theorem execRoleClaimTimeout_keeps (s : State) :
    OKeeps s (execRoleClaimTimeout s) := by
  unfold execRoleClaimTimeout
  repeat' first
    | (with_reducible first
        | assumption
        | exact .refl _
        | apply OKeeps.next
        | apply OKeeps.ite
        | apply Keeps.ite
        | apply Keeps.after (State.roleClaim_keeps ..)
        | fail_if_no_progress refine Keeps.mk' ?_ rfl rfl rfl rfl rfl rfl)
    | intro _

theorem State.takeOutputs_keeps (s : State) :
    Keeps s (State.takeOutputs s) := by
  unfold State.takeOutputs
  repeat' first
    | (with_reducible first
        | assumption
        | exact .refl _
        | apply Keeps.ite
        | apply Keeps.after (State.setPair_keeps ..)
        | (intro _; exact rfl)
        | fail_if_no_progress refine Keeps.mk' ?_ rfl rfl rfl rfl rfl rfl)
    | intro _
    | extract_lets

theorem execClaimHoldExpire_keeps (s : State) :
    OKeeps s (execClaimHoldExpire s) := by
  unfold execClaimHoldExpire
  repeat' first
    | (with_reducible first
        | assumption
        | exact .refl _
        | apply OKeeps.next
        | apply OKeeps.ite
        | apply Keeps.ite
        | apply Keeps.after (State.takeOutputs_keeps ..)
        | fail_if_no_progress refine Keeps.mk' ?_ rfl rfl rfl rfl rfl rfl)
    | split
    | intro _
    | extract_lets
    | (dsimp +zetaDelta only; split)

theorem State.yieldClaim_keeps (s : State) :
    Keeps s (State.yieldClaim s) := by
  unfold State.yieldClaim
  repeat' first
    | (with_reducible first
        | assumption
        | exact .refl _
        | apply Keeps.ite
        | apply Keeps.after (State.releaseRole_keeps ..)
        | apply Keeps.after (State.pairWant_keeps ..)
        | fail_if_no_progress refine Keeps.mk' ?_ rfl rfl rfl rfl rfl rfl)
    | intro _

theorem State.peerClaims_keeps (s : State) :
    Keeps s (State.peerClaims s) := by
  unfold State.peerClaims
  extract_lets s1 s2 _ _ s3
  have hs1 : Keeps s s1 := by
    unfold s1
    repeat' first
      | (with_reducible first
          | assumption
          | exact .refl _
          | apply Keeps.ite
          | apply Keeps.after (State.doneOpt_keeps ..)
          | apply Keeps.after (State.setPair_keeps ..)
          | (intro _; exact rfl)
          | apply Keeps.after (State.roleClaim_keeps ..)
          | fail_if_no_progress refine Keeps.mk' ?_ rfl rfl rfl rfl rfl rfl)
      | intro _
      | extract_lets
  have hs2 : Keeps s s2 := by
    unfold s2
    repeat' first
      | (with_reducible first
          | assumption
          | exact .refl _
          | apply Keeps.ite
          | apply Keeps.after (State.doneOpt_keeps ..)
          | apply Keeps.after (State.setPair_keeps ..)
          | (intro _; exact rfl)
          | apply Keeps.after (State.roleClaim_keeps ..)
          | fail_if_no_progress refine Keeps.mk' ?_ rfl rfl rfl rfl rfl rfl)
      | intro _
      | extract_lets
  have hs3 : Keeps s s3 := by
    unfold s3
    repeat' first
      | (with_reducible first
          | assumption
          | exact .refl _
          | apply Keeps.ite
          | apply Keeps.after (State.doneOpt_keeps ..)
          | apply Keeps.after (State.setPair_keeps ..)
          | (intro _; exact rfl)
          | apply Keeps.after (State.roleClaim_keeps ..)
          | fail_if_no_progress refine Keeps.mk' ?_ rfl rfl rfl rfl rfl rfl)
      | intro _
      | extract_lets
  repeat' first
    | (with_reducible first
        | assumption
        | exact .refl _
        | apply Keeps.ite
        | apply Keeps.after (State.doneOpt_keeps ..)
        | apply Keeps.after (State.setPair_keeps ..)
        | (intro _; exact rfl)
        | apply Keeps.after (State.roleClaim_keeps ..)
        | fail_if_no_progress refine Keeps.mk' ?_ rfl rfl rfl rfl rfl rfl)
    | intro _
    | extract_lets

theorem execPeerClaimSensed_keeps (s : State) :
    OKeeps s (execPeerClaimSensed s) := by
  unfold execPeerClaimSensed
  repeat' first
    | (with_reducible first
        | assumption
        | exact .refl _
        | apply OKeeps.next
        | apply OKeeps.ite
        | apply Keeps.ite
        | apply Keeps.after (State.peerClaims_keeps ..)
        | fail_if_no_progress refine Keeps.mk' ?_ rfl rfl rfl rfl rfl rfl)
    | intro _

end Sys2Proof.Machine
end

