-- ==== Sys2Proof/Laws/KeepLockstep.lean ====
section
/-!
SUPPORT. What the operations of Machine/Lockstep.lean keep (Laws/Keep.lean).
-/

namespace Sys2Proof.Machine

open Sys2Proof

theorem State.digestClose_keeps (s : State) :
    Keeps s (State.digestClose s).2 := by
  unfold State.digestClose
  repeat' first
    | (with_reducible first
        | assumption
        | exact .refl _
        | apply Keeps.ite
        | apply Keeps.ite2
        | apply Keeps.after (State.setPair_keeps ..)
        | (intro _; exact rfl)
        | fail_if_no_progress refine Keeps.mk' ?_ rfl rfl rfl rfl rfl rfl)
    | intro _
    | extract_lets

theorem State.bayEntries_keeps (s : State) :
    Keeps s (State.bayEntries s) := by
  unfold State.bayEntries
  extract_lets _
  repeat' first
    | (with_reducible first
        | assumption
        | exact .refl _
        | apply Keeps.ite
        | apply Keeps.ite2
        | apply Keeps.ite1
        | apply Keeps.after (State.entry_keeps ..)
        | apply Keeps.after (State.setPair_keeps ..)
        | (intro _; exact rfl)
        | fail_if_no_progress refine Keeps.mk' ?_ rfl rfl rfl rfl rfl rfl
        | apply Keeps.foldl
        | apply Keeps.foldlPair)
    | intro _
    | extract_lets

theorem State.recordSend_keeps (s : State) (digest : Nat) :
    Keeps s (State.recordSend s digest) := by
  unfold State.recordSend
  extract_lets _ s1 _ _ s2
  have hs1 : Keeps s s1 := by
    unfold s1
    repeat' first
      | (with_reducible first
          | assumption
          | exact .refl _
          | apply Keeps.ite
          | apply Keeps.after (State.digest_keeps ..)
          | apply Keeps.after (State.linkSend_keeps ..)
          | apply Keeps.after (State.setPair_keeps ..)
          | (intro _; exact rfl)
          | apply Keeps.after (State.bayEntries_keeps ..)
          | fail_if_no_progress refine Keeps.mk' ?_ rfl rfl rfl rfl rfl rfl
          | apply Keeps.foldl
          | apply Keeps.foldlPair)
      | intro _
      | extract_lets
  have hs2 : Keeps s s2 := by
    unfold s2
    repeat' first
      | (with_reducible first
          | assumption
          | exact .refl _
          | apply Keeps.ite
          | apply Keeps.after (State.digest_keeps ..)
          | apply Keeps.after (State.linkSend_keeps ..)
          | apply Keeps.after (State.setPair_keeps ..)
          | (intro _; exact rfl)
          | apply Keeps.after (State.bayEntries_keeps ..)
          | fail_if_no_progress refine Keeps.mk' ?_ rfl rfl rfl rfl rfl rfl
          | apply Keeps.foldl
          | apply Keeps.foldlPair)
      | intro _
      | extract_lets
  repeat' first
    | (with_reducible first
        | assumption
        | exact .refl _
        | apply Keeps.ite
        | apply Keeps.after (State.digest_keeps ..)
        | apply Keeps.after (State.linkSend_keeps ..)
        | apply Keeps.after (State.setPair_keeps ..)
        | (intro _; exact rfl)
        | apply Keeps.after (State.bayEntries_keeps ..)
        | fail_if_no_progress refine Keeps.mk' ?_ rfl rfl rfl rfl rfl rfl
        | apply Keeps.foldl
        | apply Keeps.foldlPair)
    | intro _
    | extract_lets

theorem State.statusSend_keeps (s : State) (ack : Nat) :
    Keeps s (State.statusSend s ack) := by
  unfold State.statusSend
  repeat' first
    | (with_reducible first
        | assumption
        | exact .refl _
        | apply Keeps.ite
        | apply Keeps.after (State.linkSend_keeps ..)
        | fail_if_no_progress refine Keeps.mk' ?_ rfl rfl rfl rfl rfl rfl)
    | intro _

theorem runCommand_keeps (ok : Bool) (data : List Byte) (d : Desc) (s : State) :
    Keeps s (runCommand ok data d s) := by
  unfold runCommand
  extract_lets _
  repeat' first
    | (with_reducible first
        | assumption
        | exact .refl _
        | apply Keeps.ite
        | apply Keeps.after (maintStart_keeps ..)
        | apply Keeps.after (maintStop_keeps ..)
        | apply Keeps.after (keyDestroy_keeps ..)
        | apply Keeps.after (poolCreate_keeps ..)
        | apply Keeps.after (poolDestroy_keeps ..)
        | apply Keeps.after (poolMemberAdd_keeps ..)
        | apply Keeps.after (poolMemberRemove_keeps ..)
        | apply Keeps.after (volCreate_keeps ..)
        | apply Keeps.after (volResize_keeps ..)
        | apply Keeps.after (volDelete_keeps ..)
        | apply Keeps.after (qpDestroy_keeps ..)
        | apply Keeps.after (hostAdd_keeps ..)
        | apply Keeps.after (netAddrSet_keeps ..)
        | apply Keeps.after (telConfig_keeps ..)
        | apply Keeps.after (hostRemove_keeps ..)
        | apply Keeps.after (imgSwap_keeps ..)
        | apply Keeps.after (variantExit_keeps ..)
        | apply Keeps.after (chanCreate_keeps ..)
        | apply Keeps.after (chanModify_keeps ..)
        | apply Keeps.after (chanDestroy_keeps ..)
        | fail_if_no_progress refine Keeps.mk' ?_ rfl rfl rfl rfl rfl rfl)
    | intro _

theorem State.applyReplica_keeps (s : State) (r : Replica) :
    Keeps s (State.applyReplica s r) := by
  unfold State.applyReplica
  extract_lets v1
  repeat' first
    | (with_reducible first
        | assumption
        | exact .refl _
        | apply Keeps.ite
        | apply Keeps.after (State.start_keeps ..)
        | apply Keeps.after (State.keyChange_keeps ..)
        | apply Keeps.after (State.cmReq_keeps ..)
        | apply Keeps.after (State.takeCm_keeps (hk := ?_) ..)
        | apply Keeps.after (State.rtuIn_keeps ..)
        | apply Keeps.after (State.dreqIn_keeps ..)
        | apply Keeps.after (State.drepIn_keeps ..)
        | apply Keeps.after (State.setPair_keeps ..)
        | (intro _; exact rfl)
        | apply Keeps.after (runCommand_keeps ..)
        | fail_if_no_progress refine Keeps.mk' ?_ rfl rfl rfl rfl rfl rfl)
    | split
    | unfold v1
    | intro _
    | extract_lets
    | (dsimp +zetaDelta only; split)

theorem State.applyCpl_keeps (s : State) (t st : Nat) :
    Keeps s (State.applyCpl s t st) := by
  unfold State.applyCpl
  repeat' first
    | (with_reducible first
        | assumption
        | exact .refl _
        | apply Keeps.ite
        | apply Keeps.ite2
        | apply Keeps.ite1
        | apply Keeps.after (State.setCmd_keeps ..)
        | apply Keeps.after (State.wakeRef_keeps ..)
        | apply Keeps.after (State.setPair_keeps ..)
        | (intro _; exact rfl)
        | fail_if_no_progress refine Keeps.mk' ?_ rfl rfl rfl rfl rfl rfl)
    | split
    | intro _
    | extract_lets
    | (dsimp +zetaDelta only; split)

theorem State.applyBay_keeps (s : State) (b st retries : Nat) (pg : Bool) (ms : Nat) :
    Keeps s (State.applyBay s b st retries pg ms) := by
  unfold State.applyBay
  extract_lets _ s1 s2
  have hs1 : Keeps s s1 := by
    unfold s1
    repeat' first
      | (with_reducible first
          | assumption
          | exact .refl _
          | apply Keeps.ite
          | apply Keeps.after (State.digest_keeps ..)
          | apply Keeps.after (State.updPw_keeps ..)
          | apply Keeps.after (State.setPwSt_keeps ..)
          | apply Keeps.after (State.setPwBit_keeps ..)
          | apply Keeps.after (State.setPg_keeps ..)
          | apply Keeps.after (State.pwNote_keeps ..)
          | apply Keeps.after (State.setRetries_keeps ..)
          | fail_if_no_progress refine Keeps.mk' ?_ rfl rfl rfl rfl rfl rfl)
      | intro _
      | extract_lets
  have hs2 : Keeps s s2 := by
    unfold s2
    repeat' first
      | (with_reducible first
          | assumption
          | exact .refl _
          | apply Keeps.ite
          | apply Keeps.after (State.digest_keeps ..)
          | apply Keeps.after (State.updPw_keeps ..)
          | apply Keeps.after (State.setPwSt_keeps ..)
          | apply Keeps.after (State.setPwBit_keeps ..)
          | apply Keeps.after (State.setPg_keeps ..)
          | apply Keeps.after (State.pwNote_keeps ..)
          | apply Keeps.after (State.setRetries_keeps ..)
          | fail_if_no_progress refine Keeps.mk' ?_ rfl rfl rfl rfl rfl rfl)
      | intro _
      | extract_lets
  repeat' first
    | (with_reducible first
        | assumption
        | exact .refl _
        | apply Keeps.ite
        | apply Keeps.after (State.digest_keeps ..)
        | apply Keeps.after (State.updPw_keeps ..)
        | apply Keeps.after (State.setPwSt_keeps ..)
        | apply Keeps.after (State.setPwBit_keeps ..)
        | apply Keeps.after (State.setPg_keeps ..)
        | apply Keeps.after (State.pwNote_keeps ..)
        | apply Keeps.after (State.setRetries_keeps ..)
        | fail_if_no_progress refine Keeps.mk' ?_ rfl rfl rfl rfl rfl rfl)
    | intro _
    | extract_lets

theorem State.applyVariant_keeps (s : State) (v fenced idled : Nat) :
    Keeps s (State.applyVariant s v fenced idled) := by
  unfold State.applyVariant
  extract_lets v1 s1
  have hs1 : Keeps s s1 := by
    unfold s1
    repeat' first
      | (with_reducible first
          | assumption
          | exact .refl _
          | apply Keeps.ite
          | apply Keeps.after (State.setFld_keeps ..)
          | apply Keeps.after (State.suspendAll_keeps ..)
          | apply Keeps.after (State.restartAll_keeps ..)
          | apply Keeps.after (State.enterVariant_keeps ..)
          | apply Keeps.after (State.exitVariant_keeps ..)
          | fail_if_no_progress refine Keeps.mk' ?_ rfl rfl rfl rfl rfl rfl
          | apply Keeps.foldl
          | apply Keeps.foldlPair)
      | split
      | unfold v1
      | intro _
      | extract_lets
      | (dsimp +zetaDelta only; split)
  repeat' first
    | (with_reducible first
        | assumption
        | exact .refl _
        | apply Keeps.ite
        | apply Keeps.after (State.setFld_keeps ..)
        | apply Keeps.after (State.suspendAll_keeps ..)
        | apply Keeps.after (State.restartAll_keeps ..)
        | apply Keeps.after (State.enterVariant_keeps ..)
        | apply Keeps.after (State.exitVariant_keeps ..)
        | fail_if_no_progress refine Keeps.mk' ?_ rfl rfl rfl rfl rfl rfl
        | apply Keeps.foldl
        | apply Keeps.foldlPair)
    | split
    | unfold v1
    | intro _
    | extract_lets
    | (dsimp +zetaDelta only; split)

theorem State.applySeam_keeps (s : State) (kind : Nat) (v : List Byte) :
    Keeps s (State.applySeam s kind v) := by
  unfold State.applySeam
  extract_lets _
  repeat' first
    | (with_reducible first
        | assumption
        | exact .refl _
        | apply Keeps.ite
        | apply Keeps.after (State.swapNow_keeps ..)
        | apply Keeps.after (State.stackDrop_keeps ..)
        | apply Keeps.after (State.setPair_keeps ..)
        | (intro _; exact rfl)
        | apply Keeps.after (State.applyVariant_keeps ..)
        | fail_if_no_progress refine Keeps.mk' ?_ rfl rfl rfl rfl rfl rfl
        | apply Keeps.foldl
        | apply Keeps.foldlPair)
    | intro _
    | extract_lets

theorem State.applyLink_keeps (s : State) (m : Nat) (up : Bool) :
    Keeps s (State.applyLink s m up) := by
  unfold State.applyLink
  extract_lets s1
  have hs1 : Keeps s s1 := by
    unfold s1
    repeat' first
      | (with_reducible first
          | assumption
          | exact .refl _
          | apply Keeps.ite
          | apply Keeps.after (State.portFlush_keeps ..)
          | apply Keeps.after (State.setPair_keeps ..)
          | (intro _; exact rfl)
          | fail_if_no_progress refine Keeps.mk' ?_ rfl rfl rfl rfl rfl rfl)
      | intro _
      | extract_lets
  repeat' first
    | (with_reducible first
        | assumption
        | exact .refl _
        | apply Keeps.ite
        | apply Keeps.after (State.portFlush_keeps ..)
        | apply Keeps.after (State.setPair_keeps ..)
        | (intro _; exact rfl)
        | fail_if_no_progress refine Keeps.mk' ?_ rfl rfl rfl rfl rfl rfl)
    | intro _
    | extract_lets

theorem State.applyEntry_keeps (s : State) (e : List Byte) :
    Keeps s (State.applyEntry s e) := by
  unfold State.applyEntry
  repeat' first
    | (with_reducible first
        | assumption
        | exact .refl _
        | apply Keeps.ite
        | apply Keeps.ite2
        | apply Keeps.ite1
        | apply Keeps.after (State.departed_keeps ..)
        | apply Keeps.after (State.setPair_keeps ..)
        | (intro _; exact rfl)
        | apply Keeps.after (State.applyReplica_keeps ..)
        | apply Keeps.after (State.applyCpl_keeps ..)
        | apply Keeps.after (State.applyBay_keeps ..)
        | apply Keeps.after (State.applySeam_keeps ..)
        | apply Keeps.after (State.applyLink_keeps ..)
        | fail_if_no_progress refine Keeps.mk' ?_ rfl rfl rfl rfl rfl rfl)
    | split
    | intro _
    | extract_lets
    | (dsimp +zetaDelta only; split)

theorem State.diverged_keeps (s : State) (own active : Nat) :
    Keeps s (State.diverged s own active) := by
  unfold State.diverged
  extract_lets s1 s2 s3
  have hs1 : Keeps s s1 := by
    unfold s1
    repeat' first
      | (with_reducible first
          | assumption
          | exact .refl _
          | apply Keeps.ite
          | apply Keeps.after (State.wrReg_keeps ..)
          | apply Keeps.after (State.cntPair_keeps ..)
          | apply Keeps.after (State.raise_keeps ..)
          | apply Keeps.after (State.setPair_keeps ..)
          | (intro _; exact rfl)
          | apply Keeps.after (State.pairWant_keeps ..)
          | fail_if_no_progress refine Keeps.mk' ?_ rfl rfl rfl rfl rfl rfl)
      | intro _
      | extract_lets
  have hs2 : Keeps s s2 := by
    unfold s2
    repeat' first
      | (with_reducible first
          | assumption
          | exact .refl _
          | apply Keeps.ite
          | apply Keeps.after (State.wrReg_keeps ..)
          | apply Keeps.after (State.cntPair_keeps ..)
          | apply Keeps.after (State.raise_keeps ..)
          | apply Keeps.after (State.setPair_keeps ..)
          | (intro _; exact rfl)
          | apply Keeps.after (State.pairWant_keeps ..)
          | fail_if_no_progress refine Keeps.mk' ?_ rfl rfl rfl rfl rfl rfl)
      | intro _
      | extract_lets
  have hs3 : Keeps s s3 := by
    unfold s3
    repeat' first
      | (with_reducible first
          | assumption
          | exact .refl _
          | apply Keeps.ite
          | apply Keeps.after (State.wrReg_keeps ..)
          | apply Keeps.after (State.cntPair_keeps ..)
          | apply Keeps.after (State.raise_keeps ..)
          | apply Keeps.after (State.setPair_keeps ..)
          | (intro _; exact rfl)
          | apply Keeps.after (State.pairWant_keeps ..)
          | fail_if_no_progress refine Keeps.mk' ?_ rfl rfl rfl rfl rfl rfl)
      | intro _
      | extract_lets
  repeat' first
    | (with_reducible first
        | assumption
        | exact .refl _
        | apply Keeps.ite
        | apply Keeps.after (State.wrReg_keeps ..)
        | apply Keeps.after (State.cntPair_keeps ..)
        | apply Keeps.after (State.raise_keeps ..)
        | apply Keeps.after (State.setPair_keeps ..)
        | (intro _; exact rfl)
        | apply Keeps.after (State.pairWant_keeps ..)
        | fail_if_no_progress refine Keeps.mk' ?_ rfl rfl rfl rfl rfl rfl)
    | intro _
    | extract_lets

theorem State.openRecords_keeps (fs : List (List Byte)) (s : State) : Keeps s (State.openRecords fs s).2 := by
  induction fs generalizing s with
  | nil => exact .refl _
  | cons f fs ih =>
    unfold State.openRecords
    extract_lets r rest
    split <;> exact (State.linkOpen_keeps ..).trans (ih ..)

theorem State.recordApply_keeps (s : State) (frames : List (List Byte)) :
    Keeps s (State.recordApply s frames) := by
  unfold State.recordApply
  repeat' first
    | (with_reducible first
        | assumption
        | exact .refl _
        | apply Keeps.ite
        | apply Keeps.after (State.setPair_keeps ..)
        | (intro _; exact rfl)
        | refine Keeps.trans ?_ (.pair (by assumption) (State.digestClose_keeps ..))
        | apply Keeps.after (State.digestClose_keeps ..)
        | apply Keeps.after (State.statusSend_keeps ..)
        | apply Keeps.after (State.applyEntry_keeps ..)
        | apply Keeps.after (State.diverged_keeps ..)
        | refine Keeps.trans ?_ (.pair (by assumption) (State.openRecords_keeps ..))
        | apply Keeps.after (State.openRecords_keeps ..)
        | fail_if_no_progress refine Keeps.mk' ?_ rfl rfl rfl rfl rfl rfl
        | apply Keeps.foldl
        | apply Keeps.foldlPair)
    | split
    | intro _
    | extract_lets
    | (dsimp +zetaDelta only; split)

theorem execRecordApply_keeps (frames : List (List Byte)) (s : State) :
    OKeeps s (execRecordApply frames s) := by
  unfold execRecordApply
  repeat' first
    | (with_reducible first
        | assumption
        | exact .refl _
        | apply OKeeps.next
        | apply OKeeps.ite
        | apply Keeps.ite
        | apply Keeps.after (State.recordApply_keeps ..)
        | fail_if_no_progress refine Keeps.mk' ?_ rfl rfl rfl rfl rfl rfl)
    | intro _

theorem State.present_keeps (s : State) (p : List Byte) :
    Keeps s (State.present s p) := by
  unfold State.present
  extract_lets v1 v2 v3 v4 v5 v6 v7 v8 v9 v10 s1
  have hs1 : Keeps s s1 := by
    unfold s1
    repeat' first
      | (with_reducible first
          | assumption
          | exact .refl _
          | apply Keeps.ite
          | apply Keeps.after (State.entry_keeps ..)
          | apply Keeps.after (State.stamp_keeps ..)
          | apply Keeps.after (State.learn_keeps ..)
          | apply Keeps.after (State.admitFrame_keeps ..)
          | apply Keeps.after (State.deliver_keeps ..)
          | apply Keeps.after (State.setPair_keeps ..)
          | (intro _; exact rfl)
          | fail_if_no_progress refine Keeps.mk' ?_ rfl rfl rfl rfl rfl rfl)
      | split
      | unfold v1
      | unfold v2
      | unfold v3
      | unfold v4
      | unfold v5
      | unfold v6
      | unfold v7
      | unfold v8
      | unfold v9
      | unfold v10
      | intro _
      | extract_lets
      | (dsimp +zetaDelta only; split)
  repeat' first
    | (with_reducible first
        | assumption
        | exact .refl _
        | apply Keeps.ite
        | apply Keeps.after (State.entry_keeps ..)
        | apply Keeps.after (State.stamp_keeps ..)
        | apply Keeps.after (State.learn_keeps ..)
        | apply Keeps.after (State.admitFrame_keeps ..)
        | apply Keeps.after (State.deliver_keeps ..)
        | apply Keeps.after (State.setPair_keeps ..)
        | (intro _; exact rfl)
        | fail_if_no_progress refine Keeps.mk' ?_ rfl rfl rfl rfl rfl rfl)
    | split
    | unfold v1
    | unfold v2
    | unfold v3
    | unfold v4
    | unfold v5
    | unfold v6
    | unfold v7
    | unfold v8
    | unfold v9
    | unfold v10
    | intro _
    | extract_lets
    | (dsimp +zetaDelta only; split)

theorem execIngressFrameReceive_keeps (bytes : List Byte) (s : State) :
    OKeeps s (execIngressFrameReceive bytes s) := by
  unfold execIngressFrameReceive
  repeat' first
    | (with_reducible first
        | assumption
        | exact .refl _
        | apply OKeeps.next
        | apply OKeeps.ite
        | apply Keeps.ite
        | apply Keeps.after (State.setPair_keeps ..)
        | (intro _; exact rfl)
        | refine Keeps.trans ?_ (.pair (by assumption) (State.linkOpen_keeps ..))
        | apply Keeps.after (State.linkOpen_keeps ..)
        | apply Keeps.after (State.present_keeps ..)
        | fail_if_no_progress refine Keeps.mk' ?_ rfl rfl rfl rfl rfl rfl)
    | split
    | intro _
    | extract_lets
    | (dsimp +zetaDelta only; split)

theorem State.presentEarly_keeps (s : State) :
    Keeps s (State.presentEarly s) := by
  unfold State.presentEarly
  extract_lets _ s1
  have hs1 : Keeps s s1 := by
    unfold s1
    repeat' first
      | (with_reducible first
          | assumption
          | exact .refl _
          | apply Keeps.ite
          | apply Keeps.after (State.setPair_keeps ..)
          | (intro _; exact rfl)
          | apply Keeps.after (State.present_keeps ..)
          | fail_if_no_progress refine Keeps.mk' ?_ rfl rfl rfl rfl rfl rfl
          | apply Keeps.foldl
          | apply Keeps.foldlPair)
      | intro _
      | extract_lets
  repeat' first
    | (with_reducible first
        | assumption
        | exact .refl _
        | apply Keeps.ite
        | apply Keeps.after (State.setPair_keeps ..)
        | (intro _; exact rfl)
        | apply Keeps.after (State.present_keeps ..)
        | fail_if_no_progress refine Keeps.mk' ?_ rfl rfl rfl rfl rfl rfl
        | apply Keeps.foldl
        | apply Keeps.foldlPair)
    | intro _
    | extract_lets

theorem State.releaseHeld_keeps (s : State) :
    Keeps s (State.releaseHeld s) := by
  unfold State.releaseHeld
  extract_lets _ s1
  have hs1 : Keeps s s1 := by
    unfold s1
    repeat' first
      | (with_reducible first
          | assumption
          | exact .refl _
          | apply Keeps.ite
          | apply Keeps.after (State.drainEvents_keeps ..)
          | apply Keeps.after (State.postCpl_keeps ..)
          | refine Keeps.trans ?_ (.pair (by assumption) (State.backoff_keeps ..))
          | apply Keeps.after (State.backoff_keeps ..)
          | apply Keeps.after (State.setPair_keeps ..)
          | (intro _; exact rfl)
          | fail_if_no_progress refine Keeps.mk' ?_ rfl rfl rfl rfl rfl rfl
          | apply Keeps.foldl
          | apply Keeps.foldlPair)
      | intro _
      | extract_lets
  repeat' first
    | (with_reducible first
        | assumption
        | exact .refl _
        | apply Keeps.ite
        | apply Keeps.after (State.drainEvents_keeps ..)
        | apply Keeps.after (State.postCpl_keeps ..)
        | refine Keeps.trans ?_ (.pair (by assumption) (State.backoff_keeps ..))
        | apply Keeps.after (State.backoff_keeps ..)
        | apply Keeps.after (State.setPair_keeps ..)
        | (intro _; exact rfl)
        | fail_if_no_progress refine Keeps.mk' ?_ rfl rfl rfl rfl rfl rfl
        | apply Keeps.foldl
        | apply Keeps.foldlPair)
    | intro _
    | extract_lets

theorem State.handRelease_keeps (s : State) :
    Keeps s (State.handRelease s) := by
  unfold State.handRelease
  repeat' first
    | (with_reducible first
        | assumption
        | exact .refl _
        | apply Keeps.ite
        | apply Keeps.after (State.cntPair_keeps ..)
        | apply Keeps.after (State.releaseRole_keeps ..)
        | apply Keeps.after (State.pairWant_keeps ..)
        | fail_if_no_progress refine Keeps.mk' ?_ rfl rfl rfl rfl rfl rfl)
    | split
    | intro _
    | extract_lets
    | (dsimp +zetaDelta only; split)

theorem State.statusIn_keeps (s : State) (bytes : List Byte) (cycle : Nat) :
    Keeps s (State.statusIn s bytes cycle) := by
  unfold State.statusIn
  repeat' first
    | (with_reducible first
        | assumption
        | exact .refl _
        | apply Keeps.ite
        | apply Keeps.after (State.setFld_keeps ..)
        | apply Keeps.after (State.cntPair_keeps ..)
        | apply Keeps.after (State.setPair_keeps ..)
        | (intro _; exact rfl)
        | refine Keeps.trans ?_ (.pair (by assumption) (State.linkOpen_keeps ..))
        | apply Keeps.after (State.linkOpen_keeps ..)
        | apply Keeps.after (State.releaseHeld_keeps ..)
        | apply Keeps.after (State.handRelease_keeps ..)
        | fail_if_no_progress refine Keeps.mk' ?_ rfl rfl rfl rfl rfl rfl)
    | split
    | intro _
    | extract_lets
    | (dsimp +zetaDelta only; split)

theorem execStatusFrameReceive_keeps (bytes : List Byte) (cycle : Fin 2048) (s : State) :
    OKeeps s (execStatusFrameReceive bytes cycle s) := by
  unfold execStatusFrameReceive
  repeat' first
    | (with_reducible first
        | assumption
        | exact .refl _
        | apply OKeeps.next
        | apply OKeeps.ite
        | apply Keeps.ite
        | apply Keeps.after (State.statusIn_keeps ..)
        | fail_if_no_progress refine Keeps.mk' ?_ rfl rfl rfl rfl rfl rfl)
    | intro _

theorem State.ackApply_keeps (s : State) :
    Keeps s (State.ackApply s) := by
  unfold State.ackApply
  repeat' first
    | (with_reducible first
        | assumption
        | exact .refl _
        | apply Keeps.ite
        | apply Keeps.after (State.entry_keeps ..)
        | apply Keeps.after (State.setPair_keeps ..)
        | (intro _; exact rfl)
        | fail_if_no_progress refine Keeps.mk' ?_ rfl rfl rfl rfl rfl rfl)
    | intro _
    | extract_lets

theorem State.standbyLost_keeps (s : State) :
    Keeps s (State.standbyLost s) := by
  unfold State.standbyLost
  extract_lets _
  repeat' first
    | (with_reducible first
        | assumption
        | exact .refl _
        | apply Keeps.ite
        | apply Keeps.ite2
        | apply Keeps.ite1
        | refine Keeps.trans ?_ (.pair (by assumption) (State.draw_keeps ..))
        | apply Keeps.after (State.draw_keeps ..)
        | apply Keeps.after (State.setPair_keeps ..)
        | (intro _; exact rfl)
        | apply Keeps.after (State.pairWant_keeps ..)
        | fail_if_no_progress refine Keeps.mk' ?_ rfl rfl rfl rfl rfl rfl)
    | split
    | intro _
    | extract_lets
    | (dsimp +zetaDelta only; split)

theorem execStandbyLost_keeps (s : State) :
    OKeeps s (execStandbyLost s) := by
  unfold execStandbyLost
  repeat' first
    | (with_reducible first
        | assumption
        | exact .refl _
        | apply OKeeps.next
        | apply OKeeps.ite
        | apply Keeps.ite
        | apply Keeps.after (State.standbyLost_keeps ..)
        | fail_if_no_progress refine Keeps.mk' ?_ rfl rfl rfl rfl rfl rfl)
    | intro _

theorem State.recordMissing_keeps (s : State) :
    Keeps s (State.recordMissing s) := by
  unfold State.recordMissing
  repeat' first
    | (with_reducible first
        | assumption
        | exact .refl _
        | apply Keeps.ite
        | apply Keeps.after (State.cntPair_keeps ..)
        | apply Keeps.after (State.pairWant_keeps ..)
        | apply Keeps.after (State.startWait_keeps ..)
        | fail_if_no_progress refine Keeps.mk' ?_ rfl rfl rfl rfl rfl rfl)
    | intro _

theorem execRecordMissing_keeps (s : State) :
    OKeeps s (execRecordMissing s) := by
  unfold execRecordMissing
  repeat' first
    | (with_reducible first
        | assumption
        | exact .refl _
        | apply OKeeps.next
        | apply OKeeps.ite
        | apply Keeps.ite
        | apply Keeps.after (State.recordMissing_keeps ..)
        | fail_if_no_progress refine Keeps.mk' ?_ rfl rfl rfl rfl rfl rfl)
    | intro _

theorem State.lossExpired_keeps (s : State) :
    Keeps s (State.lossExpired s) := by
  unfold State.lossExpired
  repeat' first
    | (with_reducible first
        | assumption
        | exact .refl _
        | apply Keeps.ite
        | apply Keeps.after (State.leaveLockstep_keeps ..)
        | fail_if_no_progress refine Keeps.mk' ?_ rfl rfl rfl rfl rfl rfl)
    | intro _
    | extract_lets

theorem execLossWaitExpire_keeps (s : State) :
    OKeeps s (execLossWaitExpire s) := by
  unfold execLossWaitExpire
  repeat' first
    | (with_reducible first
        | assumption
        | exact .refl _
        | apply OKeeps.next
        | apply OKeeps.ite
        | apply Keeps.ite
        | apply Keeps.after (State.lossExpired_keeps ..)
        | fail_if_no_progress refine Keeps.mk' ?_ rfl rfl rfl rfl rfl rfl)
    | intro _

theorem execTickBoundaryMark_keeps (offset latency : Fin 65536) (s : State) :
    OKeeps s (execTickBoundaryMark offset latency s) := by
  unfold execTickBoundaryMark
  extract_lets s1 s2
  have hs1 : Keeps s s1 := by
    unfold s1
    repeat' first
      | (with_reducible first
          | assumption
          | exact .refl _
          | apply OKeeps.next
          | apply OKeeps.ite
          | apply Keeps.ite
          | apply Keeps.after (State.setFld_keeps ..)
          | refine Keeps.trans ?_ (.pair (by assumption) (State.draw_keeps ..))
          | apply Keeps.after (State.draw_keeps ..)
          | apply Keeps.after (State.setPair_keeps ..)
          | (intro _; exact rfl)
          | fail_if_no_progress refine Keeps.mk' ?_ rfl rfl rfl rfl rfl rfl)
      | split
      | intro _
      | extract_lets
  have hs2 : Keeps s s2 := by
    unfold s2
    repeat' first
      | (with_reducible first
          | assumption
          | exact .refl _
          | apply OKeeps.next
          | apply OKeeps.ite
          | apply Keeps.ite
          | apply Keeps.after (State.setFld_keeps ..)
          | refine Keeps.trans ?_ (.pair (by assumption) (State.draw_keeps ..))
          | apply Keeps.after (State.draw_keeps ..)
          | apply Keeps.after (State.setPair_keeps ..)
          | (intro _; exact rfl)
          | fail_if_no_progress refine Keeps.mk' ?_ rfl rfl rfl rfl rfl rfl)
      | split
      | intro _
      | extract_lets
  repeat' first
    | (with_reducible first
        | assumption
        | exact .refl _
        | apply OKeeps.next
        | apply OKeeps.ite
        | apply Keeps.ite
        | apply Keeps.after (State.setFld_keeps ..)
        | refine Keeps.trans ?_ (.pair (by assumption) (State.draw_keeps ..))
        | apply Keeps.after (State.draw_keeps ..)
        | apply Keeps.after (State.setPair_keeps ..)
        | (intro _; exact rfl)
        | fail_if_no_progress refine Keeps.mk' ?_ rfl rfl rfl rfl rfl rfl)
    | split
    | intro _
    | extract_lets

theorem State.offsetLoss_keeps (s : State) :
    Keeps s (State.offsetLoss s) := by
  unfold State.offsetLoss
  repeat' first
    | (with_reducible first
        | assumption
        | exact .refl _
        | apply Keeps.ite
        | apply Keeps.after (State.leaveLockstep_keeps ..)
        | fail_if_no_progress refine Keeps.mk' ?_ rfl rfl rfl rfl rfl rfl)
    | intro _

theorem execLockstepOffsetLoss_keeps (s : State) :
    OKeeps s (execLockstepOffsetLoss s) := by
  unfold execLockstepOffsetLoss
  repeat' first
    | (with_reducible first
        | assumption
        | exact .refl _
        | apply OKeeps.next
        | apply OKeeps.ite
        | apply Keeps.ite
        | apply Keeps.after (State.offsetLoss_keeps ..)
        | fail_if_no_progress refine Keeps.mk' ?_ rfl rfl rfl rfl rfl rfl)
    | intro _

theorem State.dropLockstep_keeps (s : State) :
    Keeps s (State.dropLockstep s) := by
  unfold State.dropLockstep
  extract_lets _ _ _ _ _ _
  repeat' first
    | (with_reducible first
        | assumption
        | exact .refl _
        | apply Keeps.ite
        | fail_if_no_progress refine Keeps.mk' ?_ rfl rfl rfl rfl rfl rfl)
    | intro _
    | extract_lets

end Sys2Proof.Machine
end

