-- ==== Sys2Proof/Laws/KeepTakeover.lean ====
section
/-!
SUPPORT. What the operations of Machine/Takeover.lean keep (Laws/Keep.lean).
-/

namespace Sys2Proof.Machine

open Sys2Proof

theorem State.claimFor_keeps (s : State) (kind : Nat) :
    Keeps s (State.claimFor s kind) := by
  unfold State.claimFor
  repeat' first
    | (with_reducible first
        | assumption
        | exact .refl _
        | apply Keeps.ite
        | apply Keeps.after (State.setPair_keeps ..)
        | (intro _; exact rfl)
        | apply Keeps.after (State.claim_keeps ..))

theorem State.coldClaim_keeps (s : State) :
    Keeps s (State.coldClaim s) := by
  unfold State.coldClaim
  repeat' first
    | (with_reducible first
        | assumption
        | exact .refl _
        | apply Keeps.ite
        | apply Keeps.after (State.pairWant_keeps ..)
        | apply Keeps.after (State.claimFor_keeps ..))

theorem State.releaseConfirmed_keeps (s : State) :
    Keeps s (State.releaseConfirmed s) := by
  unfold State.releaseConfirmed
  extract_lets s1
  have hs1 : Keeps s s1 := by
    unfold s1
    repeat' first
      | (with_reducible first
          | assumption
          | exact .refl _
          | apply Keeps.ite
          | apply Keeps.after (State.setPair_keeps ..)
          | (intro _; exact rfl))
  repeat' first
    | (with_reducible first
        | assumption
        | exact .refl _
        | apply Keeps.ite
        | apply Keeps.after (State.setPair_keeps ..)
        | (intro _; exact rfl)
        | apply Keeps.after (State.pairWant_keeps ..)
        | apply Keeps.after (State.joinAbort_keeps ..)
        | apply Keeps.after (State.claimFor_keeps ..)
        | apply Keeps.after (State.coldClaim_keeps ..))

theorem execReleaseConfirmed_keeps (s : State) :
    OKeeps s (execReleaseConfirmed s) := by
  unfold execReleaseConfirmed
  repeat' first
    | (with_reducible first
        | assumption
        | exact .refl _
        | apply OKeeps.next
        | apply OKeeps.ite
        | apply Keeps.ite
        | apply Keeps.after (State.releaseConfirmed_keeps ..))

theorem State.takeoverSeam_keeps (s : State) :
    Keeps s (State.takeoverSeam s) := by
  unfold State.takeoverSeam
  extract_lets s1 s2 _ s3
  have hs1 : Keeps s s1 := by
    unfold s1
    repeat' first
      | (with_reducible first
          | assumption
          | exact .refl _
          | apply Keeps.ite
          | apply Keeps.after (State.wrReg_keeps ..)
          | apply Keeps.after (State.cluEnter_keeps ..)
          | apply Keeps.after (State.updQp_keeps ..)
          | apply Keeps.after (State.setPair_keeps ..)
          | (intro _; exact rfl)
          | fail_if_no_progress refine Keeps.mk' ?_ rfl rfl rfl rfl rfl rfl
          | apply Keeps.foldl
          | apply Keeps.foldlPair)
      | intro _
  have hs2 : Keeps s s2 := by
    unfold s2
    repeat' first
      | (with_reducible first
          | assumption
          | exact .refl _
          | apply Keeps.ite
          | apply Keeps.after (State.wrReg_keeps ..))
  have hs3 : Keeps s s3 := by
    unfold s3
    repeat' first
      | (with_reducible first
          | assumption
          | exact .refl _
          | apply Keeps.ite
          | apply Keeps.after (State.wrReg_keeps ..)
          | apply Keeps.after (State.cluEnter_keeps ..)
          | apply Keeps.after (State.updQp_keeps ..)
          | apply Keeps.after (State.setPair_keeps ..)
          | (intro _; exact rfl)
          | fail_if_no_progress refine Keeps.mk' ?_ rfl rfl rfl rfl rfl rfl
          | apply Keeps.foldl
          | apply Keeps.foldlPair)
      | intro _
  repeat' first
    | (with_reducible first
        | assumption
        | exact .refl _
        | apply Keeps.ite
        | apply Keeps.after (State.wrReg_keeps ..)
        | apply Keeps.after (State.cluEnter_keeps ..)
        | apply Keeps.after (State.updQp_keeps ..)
        | apply Keeps.after (State.setPair_keeps ..)
        | (intro _; exact rfl))

theorem State.announce_keeps (s : State) :
    Keeps s (State.announce s) := by
  unfold State.announce
  repeat' first
    | (with_reducible first
        | assumption
        | exact .refl _
        | apply Keeps.ite
        | apply Keeps.ite2
        | apply Keeps.after (State.sendMgt_keeps ..)
        | fail_if_no_progress refine Keeps.mk' ?_ rfl rfl rfl rfl rfl rfl
        | apply Keeps.foldl
        | apply Keeps.foldlPair)
    | intro _

theorem State.announceAgain_keeps (s : State) :
    Keeps s (State.announceAgain s) := by
  unfold State.announceAgain
  repeat' first
    | (with_reducible first
        | assumption
        | exact .refl _
        | apply Keeps.ite
        | apply Keeps.after (State.setPair_keeps ..)
        | (intro _; exact rfl)
        | apply Keeps.after (State.announce_keeps ..)
        | fail_if_no_progress refine Keeps.mk' ?_ rfl rfl rfl rfl rfl rfl)
    | split

theorem execAddressAnnounceRepeat_keeps (s : State) :
    OKeeps s (execAddressAnnounceRepeat s) := by
  unfold execAddressAnnounceRepeat
  repeat' first
    | (with_reducible first
        | assumption
        | exact .refl _
        | apply OKeeps.next
        | apply OKeeps.ite
        | apply Keeps.ite
        | apply Keeps.after (State.announceAgain_keeps ..))

theorem State.resubmit_keeps (s : State) (b : Nat) (write : Bool) :
    Keeps s (State.resubmit s b write) := by
  unfold State.resubmit
  repeat' first
    | (with_reducible first
        | assumption
        | exact .refl _
        | apply Keeps.ite
        | apply Keeps.ite2
        | apply Keeps.ite1
        | apply Keeps.after (State.entry_keeps ..)
        | apply Keeps.after (State.emitNet_keeps ..)
        | apply Keeps.after (State.updBay_keeps ..)
        | apply Keeps.after (State.setCmd_keeps ..)
        | apply Keeps.after (State.drvSubmit_keeps ..)
        | fail_if_no_progress refine Keeps.mk' ?_ rfl rfl rfl rfl rfl rfl
        | apply Keeps.foldl
        | apply Keeps.foldlPair)
    | intro _

theorem State.takeBay_keeps (s : State) (b : Nat) :
    Keeps s (State.takeBay s b) := by
  unfold State.takeBay
  extract_lets s1 s2
  have hs1 : Keeps s s1 := by
    unfold s1
    repeat' first
      | (with_reducible first
          | assumption
          | exact .refl _
          | apply Keeps.ite
          | apply Keeps.after (State.emitNet_keeps ..))
  have hs2 : Keeps s s2 := by
    unfold s2
    repeat' first
      | (with_reducible first
          | assumption
          | exact .refl _
          | apply Keeps.ite
          | apply Keeps.after (State.emitNet_keeps ..)
          | apply Keeps.after (State.updBay_keeps ..)
          | apply Keeps.after (State.endAll_keeps ..)
          | apply Keeps.after (State.setPair_keeps ..)
          | (intro _; exact rfl))
  repeat' first
    | (with_reducible first
        | assumption
        | exact .refl _
        | apply Keeps.ite
        | apply Keeps.after (State.emitNet_keeps ..)
        | apply Keeps.after (State.updBay_keeps ..)
        | apply Keeps.after (State.endAll_keeps ..)
        | apply Keeps.after (State.setPair_keeps ..)
        | (intro _; exact rfl)
        | apply Keeps.after (State.resubmit_keeps ..))

theorem State.takeoverSeven_keeps (s : State) : Keeps s (State.takeoverSeven s) := by
  unfold State.takeoverSeven
  extract_lets s1 s2 s3 s4
  have h2 : Keeps s s2 := (State.takeOutputs_keeps ..).foldl fun _ _ => .ite (State.hierarchyFresh_keeps ..) (State.portFlush_keeps ..)
  have h3 : Keeps s s3 := h2.foldl fun _ _ => State.takeBay_keeps ..
  have h4 : Keeps s s4 := (h3.trans (State.announce_keeps ..)).trans (State.setPair_keeps _ _ (by intro _; exact rfl))
  exact ((h4.trans (State.cntPair_keeps ..)).trans (State.raise_keeps ..)).trans (State.pairWant_keeps ..)

theorem State.dumpTakeover_keeps (s : State) :
    Keeps s (State.dumpTakeover s) := by
  unfold State.dumpTakeover
  repeat' first
    | (with_reducible first
        | assumption
        | exact .refl _
        | apply Keeps.ite
        | apply Keeps.after (State.dumpStart_keeps ..))

theorem State.preempted_keeps (s : State) (b : Nat) :
    Keeps s (State.preempted s b) := by
  unfold State.preempted
  extract_lets s1
  have hs1 : Keeps s s1 := by
    unfold s1
    repeat' first
      | (with_reducible first
          | assumption
          | exact .refl _
          | apply Keeps.ite
          | apply Keeps.after (State.setPair_keeps ..)
          | (intro _; exact rfl))
  repeat' first
    | (with_reducible first
        | assumption
        | exact .refl _
        | apply Keeps.ite
        | apply Keeps.after (State.setPair_keeps ..)
        | (intro _; exact rfl)
        | apply Keeps.after (State.resubmit_keeps ..))

theorem execReservationPreemptComplete_keeps (b : Fin 128) (s : State) :
    OKeeps s (execReservationPreemptComplete b s) := by
  unfold execReservationPreemptComplete
  repeat' first
    | (with_reducible first
        | assumption
        | exact .refl _
        | apply OKeeps.next
        | apply OKeeps.ite
        | apply Keeps.ite
        | apply Keeps.after (State.preempted_keeps ..))

theorem State.handover_keeps (s : State) :
    Keeps s (State.handover s) := by
  unfold State.handover
  repeat' first
    | (with_reducible first
        | assumption
        | exact .refl _
        | apply Keeps.ite
        | apply Keeps.after (State.seamEntry_keeps ..)
        | apply Keeps.after (State.setPair_keeps ..)
        | (intro _; exact rfl))

theorem State.handAbandon_keeps (s : State) :
    Keeps s (State.handAbandon s) := by
  unfold State.handAbandon
  extract_lets _
  repeat' first
    | (with_reducible first
        | assumption
        | exact .refl _
        | apply Keeps.ite
        | apply Keeps.after (State.doneOpt_keeps ..)
        | apply Keeps.after (State.setPair_keeps ..)
        | (intro _; exact rfl))

theorem pairTakeover_keeps (d : Desc) (s : State) :
    Keeps s (pairTakeover d s) := by
  unfold pairTakeover
  extract_lets _ _
  repeat' first
    | (with_reducible first
        | assumption
        | exact .refl _
        | apply Keeps.ite
        | apply Keeps.after (State.done_keeps ..)
        | apply Keeps.after (State.checked_keeps (hok := ?_) ..)
        | apply Keeps.after (State.setPair_keeps ..)
        | (intro _; exact rfl)
        | apply Keeps.after (State.coldClaim_keeps ..)
        | fail_if_no_progress refine Keeps.mk' ?_ rfl rfl rfl rfl rfl rfl)
    | intro _

theorem execPairTakeover_keeps (s : State) :
    OKeeps s (execPairTakeover s) := by
  unfold execPairTakeover
  repeat' first
    | (with_reducible first
        | assumption
        | exact .refl _
        | apply OKeeps.next
        | apply OKeeps.ite
        | apply Keeps.ite
        | apply Keeps.after (State.ringCmd_keeps (hbody := ?_) ..)
        | apply Keeps.after (pairTakeover_keeps ..)
        | fail_if_no_progress refine Keeps.mk' ?_ rfl rfl rfl rfl rfl rfl)
    | intro _

end Sys2Proof.Machine
end

