-- ==== Sys2Proof/Laws/KeepJoin.lean ====
section
/-!
SUPPORT. What the operations of Machine/Join.lean keep (Laws/Keep.lean).
-/

namespace Sys2Proof.Machine

open Sys2Proof

/-- The count of ticks becomes another's. -/
theorem State.rebase_runs (s : State) (now : Nat) : Runs s (State.rebase s now) :=
  ⟨⟨rfl, fun i => ⟨i.regs, i.backlog, i.history, i.schedule⟩, rfl, Nat.le_refl _⟩, rfl⟩

theorem State.adopt_runs (s : State) (x : JoinImage) (t : Nat) : Runs s (State.adopt s x t) := by
  unfold State.adopt
  extract_lets s1 _ _ _ _ _ _ _ _ _ _ s2
  have h1 : Runs s s1 := State.rebase_runs ..
  have h2 : Keeps s1 s2 := Keeps.mk' (.refl _) rfl rfl rfl rfl rfl rfl
  refine h1.trans (Keeps.trans (h2.trans (State.wrReg_keeps ..)) (Keeps.foldl (.refl _) fun x f => ?_)).toRuns
  exact (State.freeCells_keeps ..).trans (State.freeCells_keeps ..)

theorem State.setPhase_keeps (s : State) (n : Nat) :
    Keeps s (State.setPhase s n) := by
  unfold State.setPhase
  repeat' first
    | (with_reducible first
        | assumption
        | exact .refl _
        | apply Keeps.ite
        | apply Keeps.after (State.setFld_keeps ..))

theorem State.updJoin_keeps (s : State) (f : Join → Join) :
    Keeps s (State.updJoin s f) := by
  unfold State.updJoin
  repeat' first
    | (with_reducible first
        | assumption
        | exact .refl _
        | apply Keeps.ite
        | apply Keeps.after (State.setPair_keeps ..)
        | (intro _; exact rfl))

theorem pairJoin_keeps (d : Desc) (s : State) :
    Keeps s (pairJoin d s) := by
  unfold pairJoin
  extract_lets _
  repeat' first
    | (with_reducible first
        | assumption
        | exact .refl _
        | apply Keeps.ite
        | apply Keeps.after (State.start_keeps ..)
        | apply Keeps.after (State.checked_keeps (hok := ?_) ..)
        | apply Keeps.after (State.setPair_keeps ..)
        | (intro _; exact rfl)
        | apply Keeps.after (State.pairWant_keeps ..)
        | fail_if_no_progress refine Keeps.mk' ?_ rfl rfl rfl rfl rfl rfl)
    | intro _

theorem execPairJoin_keeps (s : State) :
    OKeeps s (execPairJoin s) := by
  unfold execPairJoin
  repeat' first
    | (with_reducible first
        | assumption
        | exact .refl _
        | apply OKeeps.next
        | apply OKeeps.ite
        | apply Keeps.ite
        | apply Keeps.after (State.ringCmd_keeps (hbody := ?_) ..)
        | apply Keeps.after (pairJoin_keeps ..)
        | fail_if_no_progress refine Keeps.mk' ?_ rfl rfl rfl rfl rfl rfl)
    | intro _

theorem State.joinBegin_keeps (s : State) :
    Keeps s (State.joinBegin s) := by
  unfold State.joinBegin
  extract_lets s1 _ s2
  have hs1 : Keeps s s1 := by
    unfold s1
    repeat' first
      | (with_reducible first
          | assumption
          | exact .refl _
          | apply Keeps.ite
          | apply Keeps.after (State.wrReg_keeps ..)
          | apply Keeps.after (State.mgtSend_keeps ..)
          | apply Keeps.after (State.setPhase_keeps ..))
  have hs2 : Keeps s s2 := by
    unfold s2
    repeat' first
      | (with_reducible first
          | assumption
          | exact .refl _
          | apply Keeps.ite
          | apply Keeps.after (State.wrReg_keeps ..)
          | apply Keeps.after (State.mgtSend_keeps ..)
          | apply Keeps.after (State.setPhase_keeps ..)
          | apply Keeps.after (State.updJoin_keeps ..)
          | fail_if_no_progress refine Keeps.mk' ?_ rfl rfl rfl rfl rfl rfl
          | apply Keeps.foldl
          | apply Keeps.foldlPair)
      | intro _
  repeat' first
    | (with_reducible first
        | assumption
        | exact .refl _
        | apply Keeps.ite
        | apply Keeps.after (State.wrReg_keeps ..)
        | apply Keeps.after (State.mgtSend_keeps ..)
        | apply Keeps.after (State.setPhase_keeps ..)
        | apply Keeps.after (State.updJoin_keeps ..))

theorem State.joinVerdict_keeps (s : State) (ok : Bool) :
    Keeps s (State.joinVerdict s ok) := by
  unfold State.joinVerdict
  extract_lets s1
  have hs1 : Keeps s s1 := by
    unfold s1
    repeat' first
      | (with_reducible first
          | assumption
          | exact .refl _
          | apply Keeps.ite
          | apply Keeps.after (State.joinAbort_keeps ..)
          | apply Keeps.after (State.setPhase_keeps ..)
          | apply Keeps.after (State.updJoin_keeps ..))
  repeat' first
    | (with_reducible first
        | assumption
        | exact .refl _
        | apply Keeps.ite
        | apply Keeps.after (State.joinAbort_keeps ..)
        | apply Keeps.after (State.setPhase_keeps ..))

theorem execJoinPrecopyEnd_keeps (residue : Nat) (passes : Fin 33) (s : State) :
    OKeeps s (execJoinPrecopyEnd residue passes s) := by
  unfold execJoinPrecopyEnd
  repeat' first
    | (with_reducible first
        | assumption
        | exact .refl _
        | apply OKeeps.next
        | apply OKeeps.ite
        | apply Keeps.ite
        | apply Keeps.after (State.setFld_keeps ..)
        | apply Keeps.after (State.updJoin_keeps ..))

theorem State.holdBegin_keeps (s : State) :
    Keeps s (State.holdBegin s) := by
  unfold State.holdBegin
  extract_lets _ s1 _ _ s2
  have hs1 : Keeps s s1 := by
    unfold s1
    repeat' first
      | (with_reducible first
          | assumption
          | exact .refl _
          | apply Keeps.ite
          | apply Keeps.after (State.linkSend_keeps ..)
          | apply Keeps.after (State.mgtSend_keeps ..)
          | apply Keeps.after (State.setLine_keeps ..)
          | apply Keeps.after (State.setPhase_keeps ..)
          | apply Keeps.after (State.updJoin_keeps ..)
          | fail_if_no_progress refine Keeps.mk' ?_ rfl rfl rfl rfl rfl rfl
          | apply Keeps.foldl
          | apply Keeps.foldlPair)
      | intro _
  have hs2 : Keeps s s2 := by
    unfold s2
    repeat' first
      | (with_reducible first
          | assumption
          | exact .refl _
          | apply Keeps.ite
          | apply Keeps.after (State.linkSend_keeps ..)
          | apply Keeps.after (State.mgtSend_keeps ..)
          | apply Keeps.after (State.setLine_keeps ..)
          | apply Keeps.after (State.setPhase_keeps ..)
          | apply Keeps.after (State.updJoin_keeps ..))
  repeat' first
    | (with_reducible first
        | assumption
        | exact .refl _
        | apply Keeps.ite
        | apply Keeps.after (State.linkSend_keeps ..)
        | apply Keeps.after (State.mgtSend_keeps ..)
        | apply Keeps.after (State.setLine_keeps ..)
        | apply Keeps.after (State.setPhase_keeps ..)
        | apply Keeps.after (State.updJoin_keeps ..)
        | fail_if_no_progress refine Keeps.mk' ?_ rfl rfl rfl rfl rfl rfl
        | apply Keeps.foldl
        | apply Keeps.foldlPair)
    | intro _

theorem execJoinFrameReceive_keeps (bytes : List Byte) (s : State) :
    OKeeps s (execJoinFrameReceive bytes s) := by
  unfold execJoinFrameReceive
  repeat' first
    | (with_reducible first
        | assumption
        | exact .refl _
        | apply OKeeps.next
        | apply OKeeps.ite
        | apply Keeps.ite
        | refine Keeps.trans ?_ (.pair (by assumption) (State.linkOpen_keeps ..))
        | apply Keeps.after (State.linkOpen_keeps ..)
        | apply Keeps.after (State.updJoin_keeps ..)
        | fail_if_no_progress refine Keeps.mk' ?_ rfl rfl rfl rfl rfl rfl)
    | split

theorem State.holdEnd_keeps (s : State) :
    Keeps s (State.holdEnd s) := by
  unfold State.holdEnd
  repeat' first
    | (with_reducible first
        | assumption
        | exact .refl _
        | apply Keeps.ite
        | apply Keeps.after (State.mgtSend_keeps ..)
        | apply Keeps.after (State.joinAbort_keeps ..)
        | apply Keeps.after (State.updJoin_keeps ..)
        | fail_if_no_progress refine Keeps.mk' ?_ rfl rfl rfl rfl rfl rfl)
    | split

theorem execJoinHoldEnd_keeps (s : State) :
    OKeeps s (execJoinHoldEnd s) := by
  unfold execJoinHoldEnd
  repeat' first
    | (with_reducible first
        | assumption
        | exact .refl _
        | apply OKeeps.next
        | apply OKeeps.ite
        | apply Keeps.ite
        | apply Keeps.after (State.holdEnd_keeps ..))

theorem State.holdTimeout_keeps (s : State) :
    Keeps s (State.holdTimeout s) := by
  unfold State.holdTimeout
  repeat' first
    | (with_reducible first
        | assumption
        | exact .refl _
        | apply Keeps.ite
        | apply Keeps.after (State.joinAbort_keeps ..))

theorem execJoinHoldTimeout_keeps (s : State) :
    OKeeps s (execJoinHoldTimeout s) := by
  unfold execJoinHoldTimeout
  repeat' first
    | (with_reducible first
        | assumption
        | exact .refl _
        | apply OKeeps.next
        | apply OKeeps.ite
        | apply Keeps.ite
        | apply Keeps.after (State.holdTimeout_keeps ..))

theorem State.joinFaults_keeps (s : State) :
    Keeps s (State.joinFaults s) := by
  unfold State.joinFaults
  extract_lets _ _ s1 _ s2
  have hs1 : Keeps s s1 := by
    unfold s1
    repeat' first
      | (with_reducible first
          | assumption
          | exact .refl _
          | apply Keeps.ite
          | apply Keeps.after (State.mgtSend_keeps ..)
          | apply Keeps.after (State.joinAbort_keeps ..))
  have hs2 : Keeps s s2 := by
    unfold s2
    repeat' first
      | (with_reducible first
          | assumption
          | exact .refl _
          | apply Keeps.ite
          | apply Keeps.after (State.mgtSend_keeps ..)
          | apply Keeps.after (State.joinAbort_keeps ..))
  repeat' first
    | (with_reducible first
        | assumption
        | exact .refl _
        | apply Keeps.ite
        | apply Keeps.after (State.mgtSend_keeps ..))

theorem State.joinDone_keeps (s : State) (j : Join) :
    Keeps s (State.joinDone s j) := by
  unfold State.joinDone
  extract_lets s1 s2
  have hs1 : Keeps s s1 := by
    unfold s1
    repeat' first
      | (with_reducible first
          | assumption
          | exact .refl _
          | apply Keeps.ite
          | apply Keeps.after (State.setFld_keeps ..)
          | apply Keeps.after (State.cntPair_keeps ..)
          | apply Keeps.after (State.raise_keeps ..)
          | apply Keeps.after (State.doneOpt_keeps ..)
          | apply Keeps.after (State.setPair_keeps ..)
          | (intro _; exact rfl)
          | apply Keeps.after (State.setPhase_keeps ..))
  have hs2 : Keeps s s2 := by
    unfold s2
    repeat' first
      | (with_reducible first
          | assumption
          | exact .refl _
          | apply Keeps.ite
          | apply Keeps.after (State.setFld_keeps ..)
          | apply Keeps.after (State.cntPair_keeps ..)
          | apply Keeps.after (State.raise_keeps ..))
  repeat' first
    | (with_reducible first
        | assumption
        | exact .refl _
        | apply Keeps.ite
        | apply Keeps.after (State.setFld_keeps ..)
        | apply Keeps.after (State.cntPair_keeps ..)
        | apply Keeps.after (State.raise_keeps ..)
        | apply Keeps.after (State.doneOpt_keeps ..)
        | apply Keeps.after (State.setPair_keeps ..)
        | (intro _; exact rfl))

theorem State.joinStop_keeps (s : State) (j : Join) (cause : Nat) :
    Keeps s (State.joinStop s j cause) := by
  unfold State.joinStop
  extract_lets _ s1 s2 s3 s4
  have hs1 : Keeps s s1 := by
    unfold s1
    repeat' first
      | (with_reducible first
          | assumption
          | exact .refl _
          | apply Keeps.ite
          | apply Keeps.after (State.setFld_keeps ..)
          | apply Keeps.after (State.cntPair_keeps ..)
          | apply Keeps.after (State.doneOpt_keeps ..)
          | apply Keeps.after (State.mgtSend_keeps ..))
  have hs2 : Keeps s s2 := by
    unfold s2
    repeat' first
      | (with_reducible first
          | assumption
          | exact .refl _
          | apply Keeps.ite
          | apply Keeps.after (State.setFld_keeps ..)
          | apply Keeps.after (State.cntPair_keeps ..)
          | apply Keeps.after (State.doneOpt_keeps ..)
          | apply Keeps.after (State.mgtSend_keeps ..)
          | apply Keeps.after (State.setPair_keeps ..)
          | (intro _; exact rfl)
          | apply Keeps.after (State.pairWant_keeps ..)
          | apply Keeps.after (State.joinAbort_keeps ..)
          | apply Keeps.after (State.setPhase_keeps ..))
  have hs3 : Keeps s s3 := by
    unfold s3
    repeat' first
      | (with_reducible first
          | assumption
          | exact .refl _
          | apply Keeps.ite
          | apply Keeps.after (State.setFld_keeps ..))
  have hs4 : Keeps s s4 := by
    unfold s4
    repeat' first
      | (with_reducible first
          | assumption
          | exact .refl _
          | apply Keeps.ite
          | apply Keeps.after (State.setFld_keeps ..)
          | apply Keeps.after (State.cntPair_keeps ..)
          | apply Keeps.after (State.doneOpt_keeps ..)
          | apply Keeps.after (State.mgtSend_keeps ..)
          | apply Keeps.after (State.setPair_keeps ..)
          | (intro _; exact rfl))
  repeat' first
    | (with_reducible first
        | assumption
        | exact .refl _
        | apply Keeps.ite
        | apply Keeps.after (State.setFld_keeps ..)
        | apply Keeps.after (State.cntPair_keeps ..)
        | apply Keeps.after (State.doneOpt_keeps ..)
        | apply Keeps.after (State.mgtSend_keeps ..)
        | apply Keeps.after (State.setPair_keeps ..)
        | (intro _; exact rfl)
        | apply Keeps.after (State.pairWant_keeps ..))

/-- The first part of the seam of a join, up to the hold's end. -/
theorem State.joinSeam_begin (s : State) :
    Keeps s (let s := if s.pairState == pairJoinActive || s.pairState == pairJoinStandby then s.joinFaults else s
             let s := if s.joinHold then s.updJoin fun j => { j with holdTicks := j.holdTicks + 1 } else s
             s.holdTimeout) := by
  extract_lets s1 s2
  have h1 : Keeps s s1 := Keeps.ite (State.joinFaults_keeps ..) (.refl _)
  have h2 : Keeps s1 s2 := Keeps.ite (State.updJoin_keeps ..) (.refl _)
  exact (h1.trans h2).trans (State.holdTimeout_keeps ..)

/-- Only a standby that joins takes another's state. -/
theorem State.joinSeam_keeps (s : State) (h : s.pairState ≠ pairJoinStandby) : Keeps s (State.joinSeam s) := by
  unfold State.joinSeam
  extract_lets s1 s2 s3
  have h3 : Keeps s s3 := State.joinSeam_begin s
  have hp : s3.pairState ≠ pairJoinStandby := by
    unfold State.pairState at h ⊢
    rw [h3.straps]
    rcases h3.role with e | e
    · rw [e]; exact h
    · rw [e]; split <;> decide
  clear_value s3
  split
  · exact h3
  · rename_i j _
    split
    · split
      · exact h3.trans (State.joinStop_keeps ..)
      · split
        · exact (h3.trans (State.joinDone_keeps ..)).trans (State.pairWant_keeps ..)
        · exact h3.trans (Keeps.ite (State.holdBegin_keeps ..) (.refl _))
    · exact h3

theorem State.joinSeam_runs (s : State) : Runs s (State.joinSeam s) := by
  unfold State.joinSeam
  extract_lets s1 s2 s3
  have h3 : Keeps s s3 := State.joinSeam_begin s
  clear_value s3
  split
  · exact h3.toRuns
  · rename_i j _
    split
    · split
      · exact (h3.trans (State.joinStop_keeps ..)).toRuns
      · split
        · exact ((h3.trans (State.joinDone_keeps ..)).trans (State.pairWant_keeps ..)).toRuns
        · exact (h3.trans (Keeps.ite (State.holdBegin_keeps ..) (.refl _))).toRuns
    · split
      · split
        · exact (h3.trans (State.joinStop_keeps ..)).toRuns
        · split
          · refine Runs.trans ?_ (Keeps.trans (State.schedEvent_keeps ..) (State.pairWant_keeps ..)).toRuns
            refine Runs.trans ?_ (State.adopt_runs ..)
            refine (h3.trans (State.setPair_keeps _ _ ?_)).toRuns
            exact fun _ => rfl
          · exact h3.toRuns
      · exact h3.toRuns

theorem State.rehearseStart_keeps (s : State) (d : Desc) (r : Rehearse) :
    Keeps s (State.rehearseStart s d r) := by
  unfold State.rehearseStart
  extract_lets _ s1
  have hs1 : Keeps s s1 := by
    unfold s1
    repeat' first
      | (with_reducible first
          | assumption
          | exact .refl _
          | apply Keeps.ite
          | apply Keeps.after (State.wrReg_keeps ..)
          | apply Keeps.after (State.setFld_keeps ..))
  repeat' first
    | (with_reducible first
        | assumption
        | exact .refl _
        | apply Keeps.ite
        | apply Keeps.after (State.wrReg_keeps ..)
        | apply Keeps.after (State.setFld_keeps ..)
        | apply Keeps.after (State.cntPair_keeps ..)
        | apply Keeps.after (State.done_keeps ..)
        | apply Keeps.after (State.mgtSend_keeps ..)
        | apply Keeps.after (State.setPair_keeps ..)
        | (intro _; exact rfl))

theorem pairRehearse_keeps (peer : Bool) (d : Desc) (s : State) :
    Keeps s (pairRehearse peer d s) := by
  unfold pairRehearse
  extract_lets _
  repeat' first
    | (with_reducible first
        | assumption
        | exact .refl _
        | apply Keeps.ite
        | apply Keeps.after (State.checked_keeps (hok := ?_) ..)
        | apply Keeps.after (State.rehearseStart_keeps ..)
        | fail_if_no_progress refine Keeps.mk' ?_ rfl rfl rfl rfl rfl rfl)
    | intro _

theorem execPairRehearse_keeps (peer : Bool) (s : State) :
    OKeeps s (execPairRehearse peer s) := by
  unfold execPairRehearse
  repeat' first
    | (with_reducible first
        | assumption
        | exact .refl _
        | apply OKeeps.next
        | apply OKeeps.ite
        | apply Keeps.ite
        | apply Keeps.after (State.ringCmd_keeps (hbody := ?_) ..)
        | apply Keeps.after (pairRehearse_keeps ..)
        | fail_if_no_progress refine Keeps.mk' ?_ rfl rfl rfl rfl rfl rfl)
    | intro _

theorem State.rehearseEnd_keeps (s : State) (result n : Nat) :
    Keeps s (State.rehearseEnd s result n) := by
  unfold State.rehearseEnd
  extract_lets v1 s1 s2
  have hs1 : Keeps s s1 := by
    unfold s1
    repeat' first
      | (with_reducible first
          | assumption
          | exact .refl _
          | apply Keeps.ite
          | apply Keeps.after (State.setFld_keeps ..))
  have hs2 : Keeps s s2 := by
    unfold s2
    repeat' first
      | (with_reducible first
          | assumption
          | exact .refl _
          | apply Keeps.ite
          | apply Keeps.after (State.setFld_keeps ..)
          | apply Keeps.after (State.cntPair_keeps ..))
  repeat' first
    | (with_reducible first
        | assumption
        | exact .refl _
        | apply Keeps.ite
        | apply Keeps.after (State.setFld_keeps ..)
        | apply Keeps.after (State.cntPair_keeps ..)
        | apply Keeps.after (State.raise_keeps ..)
        | apply Keeps.after (State.setPair_keeps ..)
        | (intro _; exact rfl)
        | fail_if_no_progress refine Keeps.mk' ?_ rfl rfl rfl rfl rfl rfl)
    | split

theorem execRehearsalEnd_keeps (result : Fin 4) (n : Fin 17) (s : State) :
    OKeeps s (execRehearsalEnd result n s) := by
  unfold execRehearsalEnd
  repeat' first
    | (with_reducible first
        | assumption
        | exact .refl _
        | apply OKeeps.next
        | apply OKeeps.ite
        | apply Keeps.ite
        | apply Keeps.after (State.mgtSend_keeps ..)
        | apply Keeps.after (State.setPair_keeps ..)
        | (intro _; exact rfl)
        | apply Keeps.after (State.rehearseEnd_keeps ..))

theorem State.rehearseSeam_keeps (s : State) :
    Keeps s (State.rehearseSeam s) := by
  unfold State.rehearseSeam
  repeat' first
    | (with_reducible first
        | assumption
        | exact .refl _
        | apply Keeps.ite
        | apply Keeps.after (State.setPair_keeps ..)
        | (intro _; exact rfl)
        | apply Keeps.after (State.rehearseEnd_keeps ..))

theorem State.imageIn_keeps (s : State) (b : Bool) (bytes : List Byte) :
    Keeps s (State.imageIn s b bytes) := by
  unfold State.imageIn
  extract_lets _ _
  repeat' first
    | (with_reducible first
        | assumption
        | exact .refl _
        | apply Keeps.ite
        | apply Keeps.after (State.mgtSend_keeps ..)
        | apply Keeps.after (State.setBuf_keeps ..)
        | apply Keeps.after (State.loadEnd_keeps ..))

theorem State.mgtMsg_keeps (s : State) (m : MgtMsg) (failed unread : Nat) :
    Keeps s (State.mgtMsg s m failed unread) := by
  unfold State.mgtMsg
  repeat' first
    | (with_reducible first
        | assumption
        | exact .refl _
        | apply Keeps.ite
        | apply Keeps.ite2
        | apply Keeps.ite1
        | apply Keeps.after (State.setFld_keeps ..)
        | apply Keeps.after (State.emit_keeps ..)
        | apply Keeps.after (State.mgtSend_keeps ..)
        | apply Keeps.after (State.report_keeps ..)
        | apply Keeps.after (State.start_keeps ..)
        | apply Keeps.after (State.imageVerdictIn_keeps ..)
        | refine Keeps.trans ?_ (.pair (by assumption) (State.stagePeer_keeps ..))
        | apply Keeps.after (State.stagePeer_keeps ..)
        | apply Keeps.after (State.stagePeerDone_keeps ..)
        | apply Keeps.after (State.activatePeer_keeps ..)
        | apply Keeps.after (State.activatePeerDone_keeps ..)
        | apply Keeps.after (State.setPair_keeps ..)
        | (intro _; exact rfl)
        | apply Keeps.after (State.pairWant_keeps ..)
        | apply Keeps.after (State.joinAbort_keeps ..)
        | apply Keeps.after (State.claim_keeps ..)
        | apply Keeps.after (State.yieldClaim_keeps ..)
        | apply Keeps.after (State.updJoin_keeps ..)
        | apply Keeps.after (State.joinVerdict_keeps ..)
        | apply Keeps.after (State.rehearseEnd_keeps ..)
        | apply Keeps.after (State.imageIn_keeps ..)
        | fail_if_no_progress refine Keeps.mk' ?_ rfl rfl rfl rfl rfl rfl)
    | split

theorem State.mgtIn_keeps (s : State) (bytes : List Byte) (failed unread : Nat) :
    Keeps s (State.mgtIn s bytes failed unread) := by
  unfold State.mgtIn
  repeat' first
    | (with_reducible first
        | assumption
        | exact .refl _
        | apply Keeps.ite
        | apply Keeps.after (State.setPair_keeps ..)
        | (intro _; exact rfl)
        | refine Keeps.trans ?_ (.pair (by assumption) (State.linkOpen_keeps ..))
        | apply Keeps.after (State.linkOpen_keeps ..)
        | apply Keeps.after (State.mgtMsg_keeps ..)
        | fail_if_no_progress refine Keeps.mk' ?_ rfl rfl rfl rfl rfl rfl)
    | split
    | intro _
    | extract_lets

theorem execMgtFrameReceive_keeps (bytes : List Byte) (failed unread : BitVec 2) (s : State) :
    OKeeps s (execMgtFrameReceive bytes failed unread s) := by
  unfold execMgtFrameReceive
  repeat' first
    | (with_reducible first
        | assumption
        | exact .refl _
        | apply OKeeps.next
        | apply OKeeps.ite
        | apply Keeps.ite
        | apply Keeps.after (State.mgtIn_keeps ..))

end Sys2Proof.Machine
end

