-- ==== Sys2Proof/Laws/KeepSeam.lean ====
section
/-!
SUPPORT. What the operations of Machine/Seam.lean keep (Laws/Keep.lean).
-/

namespace Sys2Proof.Machine

open Sys2Proof

theorem State.each_keeps (s : State) (ks : List Nat) (f : State → Nat → State) (hf : ∀ x a1, Keeps x (f x a1)) :
    Keeps s (State.each s ks f) := by
  unfold State.each
  repeat' first
    | (with_reducible first
        | assumption
        | exact .refl _
        | apply Keeps.ite
        | apply Keeps.after (hf ..)
        | fail_if_no_progress refine Keeps.mk' ?_ rfl rfl rfl rfl rfl rfl
        | apply Keeps.foldl
        | apply Keeps.foldlPair)
    | intro _

theorem State.lanesDue_keeps (s : State) :
    Keeps s (State.lanesDue s) := by
  unfold State.lanesDue
  extract_lets v1
  repeat' first
    | (with_reducible first
        | assumption
        | exact .refl _
        | apply Keeps.ite
        | fail_if_no_progress refine Keeps.mk' ?_ rfl rfl rfl rfl rfl rfl)
    | split
    | unfold v1
    | intro _
    | extract_lets
    | (dsimp +zetaDelta only; split)

theorem State.cipherDue_keeps (k : Nat) (n : Nat) (s : State) : Keeps s (State.cipherDue k n s) := by
  induction n generalizing s with
  | zero => exact .refl _
  | succ n ih =>
    unfold State.cipherDue
    repeat' first
      | (with_reducible first
          | exact .refl _
          | apply Keeps.ite
          | apply Keeps.after (ih ..)
          | apply Keeps.after (State.cipherDone_keeps ..)
          | fail_if_no_progress refine Keeps.mk' ?_ rfl rfl rfl rfl rfl rfl
          | apply Keeps.foldl)
      | split
      | extract_lets
      | intro _

theorem State.parityDue_keeps (k : Nat) (n : Nat) (s : State) : Keeps s (State.parityDue k n s) := by
  induction n generalizing s with
  | zero => exact .refl _
  | succ n ih =>
    unfold State.parityDue
    repeat' first
      | (with_reducible first
          | exact .refl _
          | apply Keeps.ite
          | apply Keeps.after (ih ..)
          | apply Keeps.after (State.parityDone_keeps ..)
          | fail_if_no_progress refine Keeps.mk' ?_ rfl rfl rfl rfl rfl rfl
          | apply Keeps.foldl)
      | split
      | extract_lets
      | intro _

theorem State.tagsDue_keeps (s : State) :
    Keeps s (State.tagsDue s) := by
  unfold State.tagsDue
  repeat' first
    | (with_reducible first
        | assumption
        | exact .refl _
        | apply Keeps.ite
        | apply Keeps.ite1
        | apply Keeps.after (State.freeTag_keeps ..)
        | fail_if_no_progress refine Keeps.mk' ?_ rfl rfl rfl rfl rfl rfl
        | apply Keeps.foldl
        | apply Keeps.foldlPair)
    | intro _
    | extract_lets

theorem State.handOff_keeps (s : State) :
    Keeps s (State.handOff s) := by
  unfold State.handOff
  extract_lets s1 s2 s3
  have hs1 : Keeps s s1 := by
    unfold s1
    repeat' first
      | (with_reducible first
          | assumption
          | exact .refl _
          | apply Keeps.ite
          | apply Keeps.after (State.settleCells_keeps ..)
          | apply Keeps.after (State.rdmSeam_keeps ..)
          | apply Keeps.after (State.unlockSeam_keeps ..)
          | apply Keeps.after (State.abortSeam_keeps ..)
          | apply Keeps.after (State.abortDeferred_keeps ..)
          | apply Keeps.after (State.durableSeam_keeps ..)
          | apply Keeps.after (State.traceSeam_keeps ..)
          | apply Keeps.after (State.ackApply_keeps ..)
          | apply Keeps.after (State.each_keeps (hf := ?_) ..)
          | apply Keeps.after (State.lanesDue_keeps ..)
          | apply Keeps.after (State.cipherDue_keeps ..)
          | apply Keeps.after (State.parityDue_keeps ..)
          | apply Keeps.after (State.tagsDue_keeps ..)
          | fail_if_no_progress refine Keeps.mk' ?_ rfl rfl rfl rfl rfl rfl
          | apply Keeps.foldl
          | apply Keeps.foldlPair)
      | intro _
      | extract_lets
  have hs2 : Keeps s s2 := by
    unfold s2
    repeat' first
      | (with_reducible first
          | assumption
          | exact .refl _
          | apply Keeps.ite
          | apply Keeps.after (State.settleCells_keeps ..)
          | apply Keeps.after (State.rdmSeam_keeps ..)
          | apply Keeps.after (State.unlockSeam_keeps ..)
          | apply Keeps.after (State.abortSeam_keeps ..)
          | apply Keeps.after (State.abortDeferred_keeps ..)
          | apply Keeps.after (State.durableSeam_keeps ..)
          | apply Keeps.after (State.traceSeam_keeps ..)
          | apply Keeps.after (State.ackApply_keeps ..)
          | apply Keeps.after (State.each_keeps (hf := ?_) ..)
          | apply Keeps.after (State.lanesDue_keeps ..)
          | apply Keeps.after (State.cipherDue_keeps ..)
          | apply Keeps.after (State.parityDue_keeps ..)
          | apply Keeps.after (State.tagsDue_keeps ..)
          | fail_if_no_progress refine Keeps.mk' ?_ rfl rfl rfl rfl rfl rfl
          | apply Keeps.foldl
          | apply Keeps.foldlPair)
      | intro _
      | extract_lets
  have hs3 : Keeps s s3 := by
    unfold s3
    repeat' first
      | (with_reducible first
          | assumption
          | exact .refl _
          | apply Keeps.ite
          | apply Keeps.after (State.settleCells_keeps ..)
          | apply Keeps.after (State.rdmSeam_keeps ..)
          | apply Keeps.after (State.unlockSeam_keeps ..)
          | apply Keeps.after (State.abortSeam_keeps ..)
          | apply Keeps.after (State.abortDeferred_keeps ..)
          | apply Keeps.after (State.durableSeam_keeps ..)
          | apply Keeps.after (State.traceSeam_keeps ..)
          | apply Keeps.after (State.ackApply_keeps ..)
          | apply Keeps.after (State.each_keeps (hf := ?_) ..)
          | apply Keeps.after (State.lanesDue_keeps ..)
          | apply Keeps.after (State.cipherDue_keeps ..)
          | apply Keeps.after (State.parityDue_keeps ..)
          | apply Keeps.after (State.tagsDue_keeps ..)
          | fail_if_no_progress refine Keeps.mk' ?_ rfl rfl rfl rfl rfl rfl
          | apply Keeps.foldl
          | apply Keeps.foldlPair)
      | intro _
      | extract_lets
  repeat' first
    | (with_reducible first
        | assumption
        | exact .refl _
        | apply Keeps.ite
        | apply Keeps.after (State.settleCells_keeps ..)
        | apply Keeps.after (State.rdmSeam_keeps ..)
        | apply Keeps.after (State.unlockSeam_keeps ..)
        | apply Keeps.after (State.abortSeam_keeps ..)
        | apply Keeps.after (State.abortDeferred_keeps ..)
        | apply Keeps.after (State.durableSeam_keeps ..)
        | apply Keeps.after (State.traceSeam_keeps ..)
        | apply Keeps.after (State.ackApply_keeps ..)
        | apply Keeps.after (State.each_keeps (hf := ?_) ..)
        | apply Keeps.after (State.lanesDue_keeps ..)
        | apply Keeps.after (State.cipherDue_keeps ..)
        | apply Keeps.after (State.parityDue_keeps ..)
        | apply Keeps.after (State.tagsDue_keeps ..)
        | fail_if_no_progress refine Keeps.mk' ?_ rfl rfl rfl rfl rfl rfl
        | apply Keeps.foldl
        | apply Keeps.foldlPair)
    | intro _
    | extract_lets

theorem State.stackNow_keeps (s : State) (n : Nat) :
    Keeps s (State.stackNow s n) := by
  unfold State.stackNow
  repeat' first
    | (with_reducible first
        | assumption
        | exact .refl _
        | apply Keeps.ite
        | apply Keeps.after (State.variantDrop_keeps ..)
        | apply Keeps.after (State.stackVariant_keeps ..)
        | apply Keeps.after (State.stackDrop_keeps ..)
        | fail_if_no_progress refine Keeps.mk' ?_ rfl rfl rfl rfl rfl rfl)
    | intro _

theorem State.portsNow_keeps (s : State) (ps : List Nat) :
    Keeps s (State.portsNow s ps) := by
  unfold State.portsNow
  extract_lets _ _ s1
  have hs1 : Keeps s s1 := by
    unfold s1
    repeat' first
      | (with_reducible first
          | assumption
          | exact .refl _
          | apply Keeps.ite
          | apply Keeps.after (State.raise_keeps ..)
          | apply Keeps.after (State.portsVariant_keeps ..)
          | apply Keeps.after (State.each_keeps (hf := ?_) ..)
          | fail_if_no_progress refine Keeps.mk' ?_ rfl rfl rfl rfl rfl rfl
          | apply Keeps.foldl
          | apply Keeps.foldlPair)
      | intro _
      | extract_lets
  repeat' first
    | (with_reducible first
        | assumption
        | exact .refl _
        | apply Keeps.ite
        | apply Keeps.after (State.raise_keeps ..)
        | apply Keeps.after (State.portsVariant_keeps ..)
        | apply Keeps.after (State.each_keeps (hf := ?_) ..)
        | fail_if_no_progress refine Keeps.mk' ?_ rfl rfl rfl rfl rfl rfl
        | apply Keeps.foldl
        | apply Keeps.foldlPair)
    | intro _
    | extract_lets

theorem State.startSeam_keeps (s : State) :
    Keeps s (State.startSeam s) := by
  unfold State.startSeam
  repeat' first
    | (with_reducible first
        | assumption
        | exact .refl _
        | apply Keeps.ite
        | apply Keeps.ite2
        | apply Keeps.ite1
        | apply Keeps.after (State.schedEvent_keeps ..)
        | fail_if_no_progress refine Keeps.mk' ?_ rfl rfl rfl rfl rfl rfl
        | apply Keeps.foldl
        | apply Keeps.foldlPair)
    | split
    | intro _
    | extract_lets
    | (dsimp +zetaDelta only; split)

theorem State.fenceDump_keeps (s : State) (f : PendFault) :
    Keeps s (State.fenceDump s f) := by
  unfold State.fenceDump
  repeat' first
    | (with_reducible first
        | assumption
        | exact .refl _
        | apply Keeps.ite
        | apply Keeps.ite2
        | apply Keeps.ite1
        | apply Keeps.after (State.setFld_keeps ..)
        | apply Keeps.after (State.cluEnter_keeps ..)
        | fail_if_no_progress refine Keeps.mk' ?_ rfl rfl rfl rfl rfl rfl
        | apply Keeps.foldl
        | apply Keeps.foldlPair)
    | split
    | intro _
    | extract_lets
    | (dsimp +zetaDelta only; split)

theorem State.faultsDump_keeps (s : State) :
    Keeps s (State.faultsDump s) := by
  unfold State.faultsDump
  repeat' first
    | (with_reducible first
        | assumption
        | exact .refl _
        | apply Keeps.ite
        | apply Keeps.ite2
        | apply Keeps.ite1
        | apply Keeps.after (State.stackDrop_keeps ..)
        | apply Keeps.after (State.raise_keeps ..)
        | apply Keeps.after (State.each_keeps ..)
        | apply Keeps.after (State.fenceDump_keeps ..)
        | fail_if_no_progress refine Keeps.mk' ?_ rfl rfl rfl rfl rfl rfl
        | apply Keeps.foldl
        | apply Keeps.foldlPair)
    | split
    | intro _
    | extract_lets
    | (dsimp +zetaDelta only; split)

theorem State.variants_keeps (s : State) :
    Keeps s (State.variants s) := by
  unfold State.variants
  repeat' first
    | (with_reducible first
        | assumption
        | exact .refl _
        | apply Keeps.ite
        | apply Keeps.ite2
        | apply Keeps.ite1
        | apply Keeps.after (State.exitNow_keeps ..)
        | apply Keeps.after (State.swapNow_keeps ..)
        | apply Keeps.after (State.fenceNow_keeps ..)
        | apply Keeps.after (State.raise_keeps ..)
        | apply Keeps.after (State.each_keeps ..)
        | apply Keeps.after (State.stackNow_keeps ..)
        | apply Keeps.after (State.portsNow_keeps ..)
        | apply Keeps.after (State.handover_keeps ..)
        | fail_if_no_progress refine Keeps.mk' ?_ rfl rfl rfl rfl rfl rfl
        | apply Keeps.foldl
        | apply Keeps.foldlPair)
    | split
    | intro _
    | extract_lets
    | (dsimp +zetaDelta only; split)

theorem State.seamCommand_keeps (s : State) (d : Desc) :
    Keeps s (State.seamCommand s d) := by
  unfold State.seamCommand
  extract_lets _
  repeat' first
    | (with_reducible first
        | assumption
        | exact .refl _
        | apply Keeps.ite
        | apply Keeps.after (State.discoveryChanged_keeps ..)
        | apply Keeps.after (State.maintRequest_keeps ..)
        | apply Keeps.after (State.maintHalt_keeps ..)
        | apply Keeps.after (State.poolGone_keeps ..)
        | apply Keeps.after (State.volCreateNow_keeps ..)
        | apply Keeps.after (State.volResizeNow_keeps ..)
        | apply Keeps.after (State.volDeleteNow_keeps ..)
        | apply Keeps.after (State.addrApply_keeps ..)
        | apply Keeps.after (State.bayPowerNow_keeps ..)
        | apply Keeps.after (State.telConfigNow_keeps ..)
        | apply Keeps.after (State.logReadNow_keeps ..)
        | apply Keeps.after (State.chanCreateNow_keeps ..)
        | apply Keeps.after (State.chanModifyNow_keeps ..)
        | apply Keeps.after (State.chanDestroyNow_keeps ..)
        | fail_if_no_progress refine Keeps.mk' ?_ rfl rfl rfl rfl rfl rfl)
    | intro _

theorem State.seamCommands_keeps (s : State) :
    Keeps s (State.seamCommands s) := by
  unfold State.seamCommands
  extract_lets _
  repeat' first
    | (with_reducible first
        | assumption
        | exact .refl _
        | apply Keeps.ite
        | apply Keeps.after (State.seamCommand_keeps ..)
        | fail_if_no_progress refine Keeps.mk' ?_ rfl rfl rfl rfl rfl rfl
        | apply Keeps.foldl
        | apply Keeps.foldlPair)
    | intro _

theorem State.xoffTicks_keeps (s : State) :
    Keeps s (State.xoffTicks s) := by
  unfold State.xoffTicks
  repeat' first
    | (with_reducible first
        | assumption
        | exact .refl _
        | apply Keeps.ite
        | apply Keeps.ite2
        | apply Keeps.ite1
        | apply Keeps.after (State.acc_keeps ..)
        | fail_if_no_progress refine Keeps.mk' ?_ rfl rfl rfl rfl rfl rfl
        | apply Keeps.foldl
        | apply Keeps.foldlPair)
    | intro _
    | extract_lets

theorem State.mapReload_keeps (s : State) :
    Keeps s (State.mapReload s) := by
  unfold State.mapReload
  repeat' first
    | (with_reducible first
        | assumption
        | exact .refl _
        | apply Keeps.ite
        | refine Keeps.trans ?_ (.pair (by assumption) (State.draw_keeps ..))
        | apply Keeps.after (State.draw_keeps ..)
        | apply Keeps.after (State.updVol_keeps ..)
        | apply Keeps.after (State.each_keeps (hf := ?_) ..)
        | fail_if_no_progress refine Keeps.mk' ?_ rfl rfl rfl rfl rfl rfl
        | apply Keeps.foldl
        | apply Keeps.foldlPair)
    | split
    | intro _
    | extract_lets

theorem State.lockMeasure_keeps (s : State) :
    Keeps s (State.lockMeasure s) := by
  unfold State.lockMeasure
  extract_lets _
  repeat' first
    | (with_reducible first
        | assumption
        | exact .refl _
        | apply Keeps.ite
        | apply Keeps.after (State.setMeas_keeps ..)
        | fail_if_no_progress refine Keeps.mk' ?_ rfl rfl rfl rfl rfl rfl)
    | intro _

theorem State.layoutChanges_keeps (s : State) :
    Keeps s (State.layoutChanges s) := by
  unfold State.layoutChanges
  extract_lets _ s1 s2
  have hs1 : Keeps s s1 := by
    unfold s1
    repeat' first
      | (with_reducible first
          | assumption
          | exact .refl _
          | apply Keeps.ite
          | apply Keeps.after (State.poolOnline_keeps ..)
          | apply Keeps.after (State.volSeam_keeps ..)
          | apply Keeps.after (State.volSnap_keeps ..)
          | apply Keeps.after (State.poolSeam_keeps ..)
          | apply Keeps.after (State.journalWaits_keeps ..)
          | apply Keeps.after (State.repairSeam_keeps ..)
          | apply Keeps.after (State.each_keeps (hf := ?_) ..)
          | apply Keeps.after (State.mapReload_keeps ..)
          | fail_if_no_progress refine Keeps.mk' ?_ rfl rfl rfl rfl rfl rfl
          | apply Keeps.foldl
          | apply Keeps.foldlPair)
      | intro _
      | extract_lets
  have hs2 : Keeps s s2 := by
    unfold s2
    repeat' first
      | (with_reducible first
          | assumption
          | exact .refl _
          | apply Keeps.ite
          | apply Keeps.after (State.poolOnline_keeps ..)
          | apply Keeps.after (State.volSeam_keeps ..)
          | apply Keeps.after (State.volSnap_keeps ..)
          | apply Keeps.after (State.poolSeam_keeps ..)
          | apply Keeps.after (State.journalWaits_keeps ..)
          | apply Keeps.after (State.repairSeam_keeps ..)
          | apply Keeps.after (State.each_keeps (hf := ?_) ..)
          | apply Keeps.after (State.mapReload_keeps ..)
          | fail_if_no_progress refine Keeps.mk' ?_ rfl rfl rfl rfl rfl rfl
          | apply Keeps.foldl
          | apply Keeps.foldlPair)
      | intro _
      | extract_lets
  repeat' first
    | (with_reducible first
        | assumption
        | exact .refl _
        | apply Keeps.ite
        | apply Keeps.after (State.poolOnline_keeps ..)
        | apply Keeps.after (State.volSeam_keeps ..)
        | apply Keeps.after (State.volSnap_keeps ..)
        | apply Keeps.after (State.poolSeam_keeps ..)
        | apply Keeps.after (State.journalWaits_keeps ..)
        | apply Keeps.after (State.repairSeam_keeps ..)
        | apply Keeps.after (State.each_keeps (hf := ?_) ..)
        | apply Keeps.after (State.mapReload_keeps ..)
        | fail_if_no_progress refine Keeps.mk' ?_ rfl rfl rfl rfl rfl rfl
        | apply Keeps.foldl
        | apply Keeps.foldlPair)
    | intro _
    | extract_lets

theorem State.hostChanges_keeps (s : State) :
    Keeps s (State.hostChanges s) := by
  unfold State.hostChanges
  extract_lets s1 _ s2 s3 s4
  have hs1 : Keeps s s1 := by
    unfold s1
    repeat' first
      | (with_reducible first
          | assumption
          | exact .refl _
          | apply Keeps.ite
          | apply Keeps.after (State.repResend_keeps ..)
          | apply Keeps.after (State.dreqResend_keeps ..)
          | apply Keeps.after (State.qpChange_keeps ..)
          | apply Keeps.after (State.qpTimers_keeps ..)
          | apply Keeps.after (State.cmdErr_keeps ..)
          | apply Keeps.after (State.bindSeam_keeps ..)
          | apply Keeps.after (State.testSeam_keeps ..)
          | apply Keeps.after (State.ctrlEnd_keeps ..)
          | apply Keeps.after (State.aevSeam_keeps ..)
          | apply Keeps.after (State.resvSeam_keeps ..)
          | apply Keeps.after (State.ctrlSeam_keeps ..)
          | apply Keeps.after (State.engineSeam_keeps ..)
          | apply Keeps.after (State.each_keeps (hf := ?_) ..)
          | fail_if_no_progress refine Keeps.mk' ?_ rfl rfl rfl rfl rfl rfl
          | apply Keeps.foldl
          | apply Keeps.foldlPair)
      | intro _
      | extract_lets
  have hs2 : Keeps s s2 := by
    unfold s2
    repeat' first
      | (with_reducible first
          | assumption
          | exact .refl _
          | apply Keeps.ite
          | apply Keeps.after (State.repResend_keeps ..)
          | apply Keeps.after (State.dreqResend_keeps ..)
          | apply Keeps.after (State.qpChange_keeps ..)
          | apply Keeps.after (State.qpTimers_keeps ..)
          | apply Keeps.after (State.cmdErr_keeps ..)
          | apply Keeps.after (State.bindSeam_keeps ..)
          | apply Keeps.after (State.testSeam_keeps ..)
          | apply Keeps.after (State.ctrlEnd_keeps ..)
          | apply Keeps.after (State.aevSeam_keeps ..)
          | apply Keeps.after (State.resvSeam_keeps ..)
          | apply Keeps.after (State.ctrlSeam_keeps ..)
          | apply Keeps.after (State.engineSeam_keeps ..)
          | apply Keeps.after (State.each_keeps (hf := ?_) ..)
          | fail_if_no_progress refine Keeps.mk' ?_ rfl rfl rfl rfl rfl rfl
          | apply Keeps.foldl
          | apply Keeps.foldlPair)
      | intro _
      | extract_lets
  have hs3 : Keeps s s3 := by
    unfold s3
    repeat' first
      | (with_reducible first
          | assumption
          | exact .refl _
          | apply Keeps.ite
          | apply Keeps.after (State.repResend_keeps ..)
          | apply Keeps.after (State.dreqResend_keeps ..)
          | apply Keeps.after (State.qpChange_keeps ..)
          | apply Keeps.after (State.qpTimers_keeps ..)
          | apply Keeps.after (State.cmdErr_keeps ..)
          | apply Keeps.after (State.bindSeam_keeps ..)
          | apply Keeps.after (State.testSeam_keeps ..)
          | apply Keeps.after (State.ctrlEnd_keeps ..)
          | apply Keeps.after (State.aevSeam_keeps ..)
          | apply Keeps.after (State.resvSeam_keeps ..)
          | apply Keeps.after (State.ctrlSeam_keeps ..)
          | apply Keeps.after (State.engineSeam_keeps ..)
          | apply Keeps.after (State.each_keeps (hf := ?_) ..)
          | fail_if_no_progress refine Keeps.mk' ?_ rfl rfl rfl rfl rfl rfl
          | apply Keeps.foldl
          | apply Keeps.foldlPair)
      | intro _
      | extract_lets
  have hs4 : Keeps s s4 := by
    unfold s4
    repeat' first
      | (with_reducible first
          | assumption
          | exact .refl _
          | apply Keeps.ite
          | apply Keeps.after (State.repResend_keeps ..)
          | apply Keeps.after (State.dreqResend_keeps ..)
          | apply Keeps.after (State.qpChange_keeps ..)
          | apply Keeps.after (State.qpTimers_keeps ..)
          | apply Keeps.after (State.cmdErr_keeps ..)
          | apply Keeps.after (State.bindSeam_keeps ..)
          | apply Keeps.after (State.testSeam_keeps ..)
          | apply Keeps.after (State.ctrlEnd_keeps ..)
          | apply Keeps.after (State.aevSeam_keeps ..)
          | apply Keeps.after (State.resvSeam_keeps ..)
          | apply Keeps.after (State.ctrlSeam_keeps ..)
          | apply Keeps.after (State.engineSeam_keeps ..)
          | apply Keeps.after (State.each_keeps (hf := ?_) ..)
          | fail_if_no_progress refine Keeps.mk' ?_ rfl rfl rfl rfl rfl rfl
          | apply Keeps.foldl
          | apply Keeps.foldlPair)
      | intro _
      | extract_lets
  repeat' first
    | (with_reducible first
        | assumption
        | exact .refl _
        | apply Keeps.ite
        | apply Keeps.after (State.repResend_keeps ..)
        | apply Keeps.after (State.dreqResend_keeps ..)
        | apply Keeps.after (State.qpChange_keeps ..)
        | apply Keeps.after (State.qpTimers_keeps ..)
        | apply Keeps.after (State.cmdErr_keeps ..)
        | apply Keeps.after (State.bindSeam_keeps ..)
        | apply Keeps.after (State.testSeam_keeps ..)
        | apply Keeps.after (State.ctrlEnd_keeps ..)
        | apply Keeps.after (State.aevSeam_keeps ..)
        | apply Keeps.after (State.resvSeam_keeps ..)
        | apply Keeps.after (State.ctrlSeam_keeps ..)
        | apply Keeps.after (State.engineSeam_keeps ..)
        | apply Keeps.after (State.each_keeps (hf := ?_) ..)
        | fail_if_no_progress refine Keeps.mk' ?_ rfl rfl rfl rfl rfl rfl
        | apply Keeps.foldl
        | apply Keeps.foldlPair)
    | intro _
    | extract_lets

theorem State.channelChanges_keeps (s : State) :
    Keeps s (State.channelChanges s) := by
  unfold State.channelChanges
  repeat' first
    | (with_reducible first
        | assumption
        | exact .refl _
        | apply Keeps.ite
        | apply Keeps.ite2
        | apply Keeps.ite1
        | apply Keeps.after (State.leaveClass_keeps ..)
        | apply Keeps.after (State.freeChans_keeps ..)
        | apply Keeps.after (State.admitWaits_keeps ..)
        | apply Keeps.after (State.creditSeam_keeps ..)
        | apply Keeps.after (State.shaperRefill_keeps ..)
        | apply Keeps.after (State.returnHome_keeps ..)
        | apply Keeps.after (State.meterSeam_keeps ..)
        | apply Keeps.after (State.meterSnap_keeps ..)
        | apply Keeps.after (State.each_keeps ..)
        | apply Keeps.after (State.xoffTicks_keeps ..)
        | apply Keeps.after (State.ageOut_keeps ..)
        | fail_if_no_progress refine Keeps.mk' ?_ rfl rfl rfl rfl rfl rfl
        | apply Keeps.foldl
        | apply Keeps.foldlPair)
    | split
    | intro _
    | extract_lets
    | (dsimp +zetaDelta only; split)

theorem State.changes_keeps (s : State) :
    Keeps s (State.changes s) := by
  unfold State.changes
  repeat' first
    | (with_reducible first
        | assumption
        | exact .refl _
        | apply Keeps.ite
        | apply Keeps.ite2
        | apply Keeps.ite1
        | apply Keeps.after (State.measSnap_keeps ..)
        | apply Keeps.after (State.measAnswers_keeps ..)
        | apply Keeps.after (State.powerSeam_keeps ..)
        | apply Keeps.after (State.cipSeam_keeps ..)
        | apply Keeps.after (State.cluSeam_keeps ..)
        | apply Keeps.after (State.driveSeam_keeps ..)
        | apply Keeps.after (State.dumpBegin_keeps ..)
        | apply Keeps.after (State.dumpWriteDone_keeps ..)
        | apply Keeps.after (State.dumpReport_keeps ..)
        | apply Keeps.after (State.meterRefill_keeps ..)
        | apply Keeps.after (State.trimUpdate_keeps ..)
        | apply Keeps.after (State.qpSnap_keeps ..)
        | apply Keeps.after (State.startSeam_keeps ..)
        | apply Keeps.after (State.faultsDump_keeps ..)
        | apply Keeps.after (State.variants_keeps ..)
        | apply Keeps.after (State.seamCommands_keeps ..)
        | apply Keeps.after (State.lockMeasure_keeps ..)
        | apply Keeps.after (State.layoutChanges_keeps ..)
        | apply Keeps.after (State.hostChanges_keeps ..)
        | apply Keeps.after (State.channelChanges_keeps ..)
        | apply Keeps.after (State.linkUps_keeps ..)
        | apply Keeps.after (State.linkDowns_keeps ..)
        | apply Keeps.after (State.dumpTakeover_keeps ..)
        | apply Keeps.after (State.creditRefill_keeps ..)
        | fail_if_no_progress refine Keeps.mk' ?_ rfl rfl rfl rfl rfl rfl
        | apply Keeps.foldl
        | apply Keeps.foldlPair)
    | split
    | intro _
    | extract_lets
    | (dsimp +zetaDelta only; split)

theorem State.pairDecide_keeps (s : State) :
    Keeps s (State.pairDecide s) := by
  unfold State.pairDecide
  extract_lets s1 s2 s3 s4 s5 s6 v1
  have hs1 : Keeps s s1 := by
    unfold s1
    repeat' first
      | (with_reducible first
          | assumption
          | exact .refl _
          | apply Keeps.ite
          | apply Keeps.after (State.cntPair_keeps ..)
          | apply Keeps.after (State.leaveLockstep_keeps ..)
          | apply Keeps.after (State.roleClaim_keeps ..)
          | apply Keeps.after (State.takeOutputs_keeps ..)
          | apply Keeps.after (State.standbyLost_keeps ..)
          | apply Keeps.after (State.recordMissing_keeps ..)
          | apply Keeps.after (State.lossExpired_keeps ..)
          | apply Keeps.after (State.offsetLoss_keeps ..)
          | apply Keeps.after (State.takeoverSeven_keeps ..)
          | fail_if_no_progress refine Keeps.mk' ?_ rfl rfl rfl rfl rfl rfl)
      | split
      | unfold v1
      | intro _
      | extract_lets
      | (dsimp +zetaDelta only; split)
  have hs2 : Keeps s s2 := by
    unfold s2
    repeat' first
      | (with_reducible first
          | assumption
          | exact .refl _
          | apply Keeps.ite
          | apply Keeps.after (State.cntPair_keeps ..)
          | apply Keeps.after (State.leaveLockstep_keeps ..)
          | apply Keeps.after (State.roleClaim_keeps ..)
          | apply Keeps.after (State.takeOutputs_keeps ..)
          | apply Keeps.after (State.standbyLost_keeps ..)
          | apply Keeps.after (State.recordMissing_keeps ..)
          | apply Keeps.after (State.lossExpired_keeps ..)
          | apply Keeps.after (State.offsetLoss_keeps ..)
          | apply Keeps.after (State.takeoverSeven_keeps ..)
          | fail_if_no_progress refine Keeps.mk' ?_ rfl rfl rfl rfl rfl rfl)
      | split
      | unfold v1
      | intro _
      | extract_lets
      | (dsimp +zetaDelta only; split)
  have hs3 : Keeps s s3 := by
    unfold s3
    repeat' first
      | (with_reducible first
          | assumption
          | exact .refl _
          | apply Keeps.ite
          | apply Keeps.after (State.cntPair_keeps ..)
          | apply Keeps.after (State.leaveLockstep_keeps ..)
          | apply Keeps.after (State.roleClaim_keeps ..)
          | apply Keeps.after (State.takeOutputs_keeps ..)
          | apply Keeps.after (State.standbyLost_keeps ..)
          | apply Keeps.after (State.recordMissing_keeps ..)
          | apply Keeps.after (State.lossExpired_keeps ..)
          | apply Keeps.after (State.offsetLoss_keeps ..)
          | apply Keeps.after (State.takeoverSeven_keeps ..)
          | fail_if_no_progress refine Keeps.mk' ?_ rfl rfl rfl rfl rfl rfl)
      | split
      | unfold v1
      | intro _
      | extract_lets
      | (dsimp +zetaDelta only; split)
  have hs4 : Keeps s s4 := by
    unfold s4
    repeat' first
      | (with_reducible first
          | assumption
          | exact .refl _
          | apply Keeps.ite
          | apply Keeps.after (State.cntPair_keeps ..)
          | apply Keeps.after (State.leaveLockstep_keeps ..)
          | apply Keeps.after (State.roleClaim_keeps ..)
          | apply Keeps.after (State.takeOutputs_keeps ..)
          | apply Keeps.after (State.standbyLost_keeps ..)
          | apply Keeps.after (State.recordMissing_keeps ..)
          | apply Keeps.after (State.lossExpired_keeps ..)
          | apply Keeps.after (State.offsetLoss_keeps ..)
          | apply Keeps.after (State.takeoverSeven_keeps ..)
          | fail_if_no_progress refine Keeps.mk' ?_ rfl rfl rfl rfl rfl rfl)
      | split
      | unfold v1
      | intro _
      | extract_lets
      | (dsimp +zetaDelta only; split)
  have hs5 : Keeps s s5 := by
    unfold s5
    repeat' first
      | (with_reducible first
          | assumption
          | exact .refl _
          | apply Keeps.ite
          | apply Keeps.after (State.cntPair_keeps ..)
          | apply Keeps.after (State.leaveLockstep_keeps ..)
          | apply Keeps.after (State.roleClaim_keeps ..)
          | apply Keeps.after (State.takeOutputs_keeps ..)
          | apply Keeps.after (State.standbyLost_keeps ..)
          | apply Keeps.after (State.recordMissing_keeps ..)
          | apply Keeps.after (State.lossExpired_keeps ..)
          | apply Keeps.after (State.offsetLoss_keeps ..)
          | apply Keeps.after (State.takeoverSeven_keeps ..)
          | fail_if_no_progress refine Keeps.mk' ?_ rfl rfl rfl rfl rfl rfl)
      | split
      | unfold v1
      | intro _
      | extract_lets
      | (dsimp +zetaDelta only; split)
  have hs6 : Keeps s s6 := by
    unfold s6
    repeat' first
      | (with_reducible first
          | assumption
          | exact .refl _
          | apply Keeps.ite
          | apply Keeps.after (State.cntPair_keeps ..)
          | apply Keeps.after (State.leaveLockstep_keeps ..)
          | apply Keeps.after (State.roleClaim_keeps ..)
          | apply Keeps.after (State.takeOutputs_keeps ..)
          | apply Keeps.after (State.standbyLost_keeps ..)
          | apply Keeps.after (State.recordMissing_keeps ..)
          | apply Keeps.after (State.lossExpired_keeps ..)
          | apply Keeps.after (State.offsetLoss_keeps ..)
          | apply Keeps.after (State.takeoverSeven_keeps ..)
          | fail_if_no_progress refine Keeps.mk' ?_ rfl rfl rfl rfl rfl rfl)
      | split
      | unfold v1
      | intro _
      | extract_lets
      | (dsimp +zetaDelta only; split)
  repeat' first
    | (with_reducible first
        | assumption
        | exact .refl _
        | apply Keeps.ite
        | apply Keeps.after (State.cntPair_keeps ..)
        | apply Keeps.after (State.leaveLockstep_keeps ..)
        | apply Keeps.after (State.roleClaim_keeps ..)
        | apply Keeps.after (State.takeOutputs_keeps ..)
        | apply Keeps.after (State.standbyLost_keeps ..)
        | apply Keeps.after (State.recordMissing_keeps ..)
        | apply Keeps.after (State.lossExpired_keeps ..)
        | apply Keeps.after (State.offsetLoss_keeps ..)
        | apply Keeps.after (State.takeoverSeven_keeps ..)
        | fail_if_no_progress refine Keeps.mk' ?_ rfl rfl rfl rfl rfl rfl)
    | split
    | unfold v1
    | intro _
    | extract_lets
    | (dsimp +zetaDelta only; split)

theorem State.withoutPeer_keeps (s : State) :
    Keeps s (State.withoutPeer s) := by
  unfold State.withoutPeer
  repeat' first
    | (with_reducible first
        | assumption
        | exact .refl _
        | apply Keeps.ite
        | refine Keeps.trans ?_ (.pair (by assumption) (State.draw_keeps ..))
        | apply Keeps.after (State.draw_keeps ..)
        | apply Keeps.after (State.loadEnd_keeps ..)
        | apply Keeps.after (State.stagePeerDone_keeps ..)
        | apply Keeps.after (State.activatePeerDone_keeps ..)
        | apply Keeps.after (State.releaseHeld_keeps ..)
        | fail_if_no_progress refine Keeps.mk' ?_ rfl rfl rfl rfl rfl rfl
        | apply Keeps.foldl
        | apply Keeps.foldlPair)
    | split
    | intro _
    | extract_lets

theorem State.pairMove_keeps (s : State) (old new : Nat) :
    Keeps (s.setPair fun p => { p with st := new, next := none }) (State.pairMove s old new) := by
  unfold State.pairMove
  extract_lets s1 s2 s3 _
  have hs1 : Keeps (s.setPair fun p => { p with st := new, next := none }) s1 := by
    unfold s1
    repeat' first
      | (with_reducible first
          | assumption
          | exact .refl _
          | apply Keeps.ite
          | apply Keeps.after (State.cntPair_keeps ..)
          | apply Keeps.after (State.raise_keeps ..)
          | apply Keeps.after (State.setPair_keeps ..)
          | (intro _; exact rfl)
          | apply Keeps.after (State.takeOutputs_keeps ..)
          | apply Keeps.after (State.releaseHeld_keeps ..)
          | apply Keeps.after (State.dropLockstep_keeps ..)
          | apply Keeps.after (State.takeoverSeam_keeps ..)
          | apply Keeps.after (State.handAbandon_keeps ..)
          | apply Keeps.after (State.setPhase_keeps ..)
          | apply Keeps.after (State.joinBegin_keeps ..)
          | apply Keeps.after (State.withoutPeer_keeps ..)
          | fail_if_no_progress refine Keeps.mk' ?_ rfl rfl rfl rfl rfl rfl)
      | intro _
      | extract_lets
  have hs2 : Keeps (s.setPair fun p => { p with st := new, next := none }) s2 := by
    unfold s2
    repeat' first
      | (with_reducible first
          | assumption
          | exact .refl _
          | apply Keeps.ite
          | apply Keeps.after (State.cntPair_keeps ..)
          | apply Keeps.after (State.raise_keeps ..)
          | apply Keeps.after (State.setPair_keeps ..)
          | (intro _; exact rfl)
          | apply Keeps.after (State.takeOutputs_keeps ..)
          | apply Keeps.after (State.releaseHeld_keeps ..)
          | apply Keeps.after (State.dropLockstep_keeps ..)
          | apply Keeps.after (State.takeoverSeam_keeps ..)
          | apply Keeps.after (State.handAbandon_keeps ..)
          | apply Keeps.after (State.setPhase_keeps ..)
          | apply Keeps.after (State.joinBegin_keeps ..)
          | apply Keeps.after (State.withoutPeer_keeps ..)
          | fail_if_no_progress refine Keeps.mk' ?_ rfl rfl rfl rfl rfl rfl)
      | intro _
      | extract_lets
  have hs3 : Keeps (s.setPair fun p => { p with st := new, next := none }) s3 := by
    unfold s3
    repeat' first
      | (with_reducible first
          | assumption
          | exact .refl _
          | apply Keeps.ite
          | apply Keeps.after (State.cntPair_keeps ..)
          | apply Keeps.after (State.raise_keeps ..)
          | apply Keeps.after (State.setPair_keeps ..)
          | (intro _; exact rfl)
          | apply Keeps.after (State.takeOutputs_keeps ..)
          | apply Keeps.after (State.releaseHeld_keeps ..)
          | apply Keeps.after (State.dropLockstep_keeps ..)
          | apply Keeps.after (State.takeoverSeam_keeps ..)
          | apply Keeps.after (State.handAbandon_keeps ..)
          | apply Keeps.after (State.setPhase_keeps ..)
          | apply Keeps.after (State.joinBegin_keeps ..)
          | apply Keeps.after (State.withoutPeer_keeps ..)
          | fail_if_no_progress refine Keeps.mk' ?_ rfl rfl rfl rfl rfl rfl)
      | intro _
      | extract_lets
  repeat' first
    | (with_reducible first
        | assumption
        | exact .refl _
        | apply Keeps.ite
        | apply Keeps.after (State.cntPair_keeps ..)
        | apply Keeps.after (State.raise_keeps ..)
        | apply Keeps.after (State.setPair_keeps ..)
        | (intro _; exact rfl)
        | apply Keeps.after (State.takeOutputs_keeps ..)
        | apply Keeps.after (State.releaseHeld_keeps ..)
        | apply Keeps.after (State.dropLockstep_keeps ..)
        | apply Keeps.after (State.takeoverSeam_keeps ..)
        | apply Keeps.after (State.handAbandon_keeps ..)
        | apply Keeps.after (State.setPhase_keeps ..)
        | apply Keeps.after (State.joinBegin_keeps ..)
        | apply Keeps.after (State.withoutPeer_keeps ..)
        | fail_if_no_progress refine Keeps.mk' ?_ rfl rfl rfl rfl rfl rfl)
    | intro _
    | extract_lets

/-- The move of the pair state keeps all but that. -/
theorem State.pairMove_runs (s : State) (old new : Nat) : Runs s (State.pairMove s old new) ∧ (State.pairMove s old new).now = s.now :=
  have h := State.pairMove_keeps s old new
  have r : Runs s (s.setPair fun p => { p with st := new, next := none }) :=
    ⟨⟨rfl, fun i => ⟨i.regs, i.backlog, i.history, i.schedule⟩, rfl, Nat.le_refl _⟩, rfl⟩
  ⟨r.trans h.toRuns, h.now⟩

theorem State.tellPeer_keeps (s : State) :
    Keeps s (State.tellPeer s) := by
  unfold State.tellPeer
  extract_lets _
  repeat' first
    | (with_reducible first
        | assumption
        | exact .refl _
        | apply Keeps.ite
        | apply Keeps.after (State.report_keeps ..)
        | apply Keeps.after (State.setPair_keeps ..)
        | (intro _; exact rfl)
        | fail_if_no_progress refine Keeps.mk' ?_ rfl rfl rfl rfl rfl rfl)
    | intro _
    | extract_lets

theorem State.linkReport_keeps (s : State) :
    Keeps s (State.linkReport s) := by
  unfold State.linkReport
  repeat' first
    | (with_reducible first
        | assumption
        | exact .refl _
        | apply Keeps.ite
        | apply Keeps.after (State.raise_keeps ..)
        | apply Keeps.after (State.setPair_keeps ..)
        | (intro _; exact rfl)
        | fail_if_no_progress refine Keeps.mk' ?_ rfl rfl rfl rfl rfl rfl)
    | split
    | intro _
    | extract_lets
    | (dsimp +zetaDelta only; split)

/-- The part of the pair's seam after joins and rehearsals. -/
def State.pairRest (s : State) (digest : Nat) : State :=
  let s := if s.pair.handTick.all fun h => decide (s.itn.tick ≤ h) then s.recordSend digest else s
  let s := if s.isStandby then s.statusSend (s.itn.tick - 1) else s
  let s := s.shareSend.linkRekey.linkReport.announceAgain
  let s := match s.pair.next with
    | some st => s.pairMove s.pair.st st
    | none => s
  let s := s.tellPeer
  s.setPair fun p => { p with recordDone := false, ingress := if s.isStandby then 0 else p.ingress }

theorem State.handOffPhase_keeps (s : State) :
    Keeps s (State.handOffPhase s) := by
  unfold State.handOffPhase
  repeat' first
    | (with_reducible first
        | assumption
        | exact .refl _
        | apply Keeps.ite
        | apply Keeps.ite2
        | apply Keeps.ite1
        | apply Keeps.after (State.handOff_keeps ..)
        | fail_if_no_progress refine Keeps.mk' ?_ rfl rfl rfl rfl rfl rfl
        | apply Keeps.foldl
        | apply Keeps.foldlPair)
    | split
    | intro _
    | extract_lets
    | (dsimp +zetaDelta only; split)

theorem State.latchPhase_keeps (s : State) :
    Keeps s (State.latchPhase s) := by
  unfold State.latchPhase
  repeat' first
    | (with_reducible first
        | assumption
        | exact .refl _
        | apply Keeps.ite
        | apply Keeps.ite2
        | apply Keeps.ite1
        | apply Keeps.after (State.idleSlots_keeps ..)
        | apply Keeps.after (State.ctrSnap_keeps ..)
        | apply Keeps.after (State.dumpLatch_keeps ..)
        | fail_if_no_progress refine Keeps.mk' ?_ rfl rfl rfl rfl rfl rfl
        | apply Keeps.foldl
        | apply Keeps.foldlPair)
    | split
    | intro _
    | extract_lets
    | (dsimp +zetaDelta only; split)

theorem State.digestPhase_keeps (s : State) :
    Keeps s (State.digestPhase s).2 := by
  unfold State.digestPhase
  repeat' first
    | (with_reducible first
        | assumption
        | exact .refl _
        | apply Keeps.ite
        | apply Keeps.ite2
        | apply Keeps.ite1
        | refine Keeps.trans ?_ (.pair (by assumption) (State.digestClose_keeps ..))
        | apply Keeps.after (State.digestClose_keeps ..)
        | fail_if_no_progress refine Keeps.mk' ?_ rfl rfl rfl rfl rfl rfl
        | apply Keeps.foldl
        | apply Keeps.foldlPair)
    | split
    | intro _
    | extract_lets
    | (dsimp +zetaDelta only; split)

theorem State.pairSeam_eq (s : State) (digest : Nat) : s.pairSeam digest = s.joinSeam.rehearseSeam.pairRest digest := rfl

theorem State.pairRest_runs (s : State) (digest : Nat) : Runs s (s.pairRest digest) ∧ (s.pairRest digest).now = s.now := by
  unfold State.pairRest
  extract_lets s1 s2 s3 s4 s5
  have h1 : Keeps s s1 := Keeps.ite (State.recordSend_keeps ..) (.refl _)
  have h2 : Keeps s s2 := h1.trans (Keeps.ite (State.statusSend_keeps ..) (.refl _))
  have h3 : Keeps s s3 := (((h2.trans (State.shareSend_keeps ..)).trans (State.linkRekey_keeps ..)).trans (State.linkReport_keeps ..)).trans
    (State.announceAgain_keeps ..)
  have h4 : Runs s s4 ∧ s4.now = s.now := by
    unfold s4
    split
    · rename_i st _
      have h := State.pairMove_runs s3 s3.pair.st st
      exact ⟨h3.toRuns.trans h.1, h.2.trans h3.now⟩
    · exact ⟨h3.toRuns, h3.now⟩
  have h5 : Keeps s4 s5 := State.tellPeer_keeps ..
  have h6 := h5.trans (State.setPair_keeps s5 (fun p => { p with recordDone := false, ingress := if s5.isStandby then 0 else p.ingress }) fun _ => rfl)
  exact ⟨h4.1.trans h6.toRuns, h6.now.trans h4.2⟩

theorem State.pairSeam_runs (s : State) (digest : Nat) :
    Runs s (s.pairSeam digest) ∧ (s.pairState ≠ pairJoinStandby → (s.pairSeam digest).now = s.now) := by
  rw [State.pairSeam_eq]
  have h := State.pairRest_runs s.joinSeam.rehearseSeam digest
  have r := State.rehearseSeam_keeps s.joinSeam
  exact ⟨((State.joinSeam_runs s).trans r.toRuns).trans h.1, fun hp => (h.2.trans r.now).trans (State.joinSeam_keeps s hp).now⟩

/-- The boundary: one tick later. -/
theorem State.boundary_runs (s : State) (fresh : Bool) : Runs s (s.boundary fresh) ∧ (s.boundary fresh).now = s.now + 1 := by
  unfold State.boundary
  extract_lets s1 _ s2 _
  have h1 : Keeps s s1 := State.ptpSeam_keeps ..
  have h2 : Keeps s s2 := h1.trans (Keeps.ite (Keeps.mk' (.refl _) rfl rfl rfl rfl rfl rfl) (.refl _))
  exact ⟨h2.toRuns.trans ⟨⟨rfl, fun i => ⟨i.regs, i.backlog, i.history, i.schedule⟩, rfl, Nat.le_refl _⟩, rfl⟩, congrArg (· + 1) h2.now⟩

variable {s t : State}

/-- A standby whose join has not ended keeps its role through what keeps both. -/
theorem Keeps.notJoining (h : Keeps s t) (hp : s.pairState ≠ pairJoinStandby) : t.pairState ≠ pairJoinStandby := by
  unfold State.pairState at hp ⊢
  rw [h.straps]
  rcases h.role with e | e
  · rw [e]; exact hp
  · rw [e]; split <;> decide

theorem State.changePhase_runs (s : State) (hold : Bool) (digest : Nat) :
    Runs s (s.changePhase hold digest) ∧ (s.pairState ≠ pairJoinStandby → (s.changePhase hold digest).now = s.now) := by
  unfold State.changePhase
  extract_lets s1 s2
  have h1 : Keeps s s1 := Keeps.ite (State.pairDecide_keeps ..) (.refl _)
  have h2 : Keeps s s2 := h1.trans (Keeps.ite (State.powerSeam_keeps ..) (State.changes_keeps ..))
  split
  · have h := State.pairSeam_runs s2 digest
    exact ⟨h2.toRuns.trans h.1, fun hp => (h.2 (h2.notJoining hp)).trans h2.now⟩
  · exact ⟨h2.toRuns, fun _ => h2.now⟩

theorem State.boundaryPhase_runs (s : State) (fresh : Bool) : Runs s (s.boundaryPhase fresh) ∧ (s.boundaryPhase fresh).now = s.now + 1 := by
  unfold State.boundaryPhase
  extract_lets s1 s2 s3
  have h0 := State.drainEvents_keeps s
  have h1 := State.boundary_runs s.drainEvents fresh
  have h3 : Keeps s1 s3 := (State.loadTick_keeps ..).trans (Keeps.ite (.refl _) (State.rdmTick_keeps ..))
  have h4 := h3.trans (State.presentEarly_keeps ..)
  exact ⟨(h0.toRuns.trans h1.1).trans h4.toRuns, by rw [h4.now, h1.2, h0.now]⟩

/-- The seam keeps the queue, the invariant and the straps; it counts one tick, but on a standby whose join ends here (15 R464). -/
theorem State.seam_runs (s : State) : Runs s s.seam ∧ (s.pairState ≠ pairJoinStandby → s.seam.now = s.now + 1) := by
  unfold State.seam
  split
  · exact ⟨⟨⟨rfl, fun i => ⟨i.regs, i.backlog, i.history, i.schedule⟩, rfl, Nat.le_refl _⟩, rfl⟩, fun _ => rfl⟩
  · extract_lets t
    have h1 : Keeps s t.2 := ((State.handOffPhase_keeps ..).trans (State.latchPhase_keeps ..)).trans (State.digestPhase_keeps ..)
    have h2 : Keeps s t.2.memoryPhase := h1.trans (State.memoryPhase_keeps ..)
    have h3 := State.changePhase_runs t.2.memoryPhase s.joinHold t.1
    have h4 := State.boundaryPhase_runs (t.2.memoryPhase.changePhase s.joinHold t.1) s.itn.starting
    exact ⟨(h2.toRuns.trans h3.1).trans h4.1, fun hp => by rw [h4.2, h3.2 (h2.notJoining hp), h2.now]⟩

end Sys2Proof.Machine
end

