-- ==== Sys2Proof/Laws/Bits.lean ====
section
/-!
SUPPORT. What a bit field reads after a field of the same word is written.
-/

namespace Sys2Proof.Machine

open Sys2Proof

/-- The field lies within the word. -/
abbrev Fld.fits (f : Fld) : Prop := f.lsb + f.width ≤ 32

/-- Two fields of one word share no bit. -/
abbrev Fld.apart (f g : Fld) : Prop := f.lsb + f.width ≤ g.lsb ∨ g.lsb + g.width ≤ f.lsb

theorem Fld.mask_bit (f : Fld) (i : Nat) (hi : i < 32) :
    f.mask.toNat.testBit i = (decide (f.lsb ≤ i) && decide (i < f.lsb + f.width)) := by
  simp only [Fld.mask, BitVec.toNat_ofNat, Nat.testBit_mod_two_pow, Nat.testBit_shiftLeft, Nat.testBit_two_pow_sub_one, hi, decide_true,
    Bool.true_and, ge_iff_le]
  by_cases h : f.lsb ≤ i
  · simp only [h, decide_true, Bool.true_and]; congr 1; simp only [eq_iff_iff]; omega
  · simp [h]

/-- Each bit of the word after field `f` is set to `v`. -/
theorem Fld.put_bit (f : Fld) (w : Word) (v i : Nat) (hi : i < 32) :
    (f.put w v).toNat.testBit i = if f.lsb ≤ i ∧ i < f.lsb + f.width then v.testBit (i - f.lsb) else w.toNat.testBit i := by
  have hm := f.mask_bit i hi
  have hn : (~~~f.mask).toNat.testBit i = !(decide (f.lsb ≤ i) && decide (i < f.lsb + f.width)) := by
    rw [← hm, BitVec.testBit_toNat, BitVec.testBit_toNat, BitVec.getLsbD_not]; simp [hi]
  simp only [Fld.put, BitVec.toNat_or, BitVec.toNat_and, Nat.testBit_or, Nat.testBit_and, hn, BitVec.toNat_ofNat, Nat.testBit_mod_two_pow,
    hi, decide_true, Bool.true_and, Nat.testBit_shiftLeft, ge_iff_le]
  by_cases h : f.lsb ≤ i
  · by_cases h' : i < f.lsb + f.width
    · simp [h, h', show i - f.lsb < f.width by omega]
    · simp [h, h', show ¬ i - f.lsb < f.width by omega]
  · simp [h]

theorem Fld.get_bit (f : Fld) (w : Word) (j : Nat) : (f.get w).testBit j = (decide (j < f.width) && w.toNat.testBit (f.lsb + j)) := by
  simp [Fld.get, Nat.testBit_mod_two_pow, Nat.testBit_shiftRight]

/-- The field written reads as the value, in its width. -/
theorem Fld.get_put (f : Fld) (w : Word) (v : Nat) (h : f.fits) : f.get (f.put w v) = v % 2 ^ f.width := by
  refine Nat.eq_of_testBit_eq fun j => ?_
  rw [Fld.get_bit, Nat.testBit_mod_two_pow]
  by_cases hj : j < f.width
  · unfold Fld.fits at h
    rw [Fld.put_bit f w v _ (by omega)]
    simp [hj]
  · simp [hj]

/-- Another field reads as before. -/
theorem Fld.get_put_apart (f g : Fld) (w : Word) (v : Nat) (h : g.apart f) (hg : g.fits) : g.get (f.put w v) = g.get w := by
  refine Nat.eq_of_testBit_eq fun j => ?_
  rw [Fld.get_bit, Fld.get_bit]
  by_cases hj : j < g.width
  · unfold Fld.fits at hg; unfold Fld.apart at h
    rw [Fld.put_bit f w v _ (by omega), if_neg (by omega)]
  · simp [hj]

end Sys2Proof.Machine
end

