-- ==== Sys2Proof/Laws/State.lean ====
section
/-!
SUPPORT. What each named update of the state leaves alone: one lemma for each, with one equation for each part of the state.
-/

namespace Sys2Proof.Machine

open Sys2Proof

variable (s : State)

@[simp] theorem State.wrReg_frame (off : Nat) (w : Word) :
    (s.wrReg off w).now = s.now ∧ (s.wrReg off w).straps = s.straps ∧ (s.wrReg off w).itn = s.itn ∧ (s.wrReg off w).hst = s.hst ∧
    (s.wrReg off w).net = s.net ∧ (s.wrReg off w).rdm = s.rdm ∧ (s.wrReg off w).cmd = s.cmd ∧ (s.wrReg off w).lay = s.lay ∧
    (s.wrReg off w).cip = s.cip ∧ (s.wrReg off w).drv = s.drv ∧ (s.wrReg off w).pwr = s.pwr ∧ (s.wrReg off w).env = s.env ∧
    (s.wrReg off w).pair = s.pair ∧ (s.wrReg off w).mgt = s.mgt ∧ (s.wrReg off w).crs = s.crs ∧ (s.wrReg off w).tel = s.tel ∧
    (s.wrReg off w).out = s.out ∧ (s.wrReg off w).drawn = s.drawn ∧ (s.wrReg off w).pending = s.pending :=
  ⟨rfl, rfl, rfl, rfl, rfl, rfl, rfl, rfl, rfl, rfl, rfl, rfl, rfl, rfl, rfl, rfl, rfl, rfl, rfl⟩

@[simp] theorem State.setFld_frame (off : Nat) (f : Fld) (v : Nat) :
    (s.setFld off f v).now = s.now ∧ (s.setFld off f v).straps = s.straps ∧ (s.setFld off f v).itn = s.itn ∧
    (s.setFld off f v).hst = s.hst ∧ (s.setFld off f v).net = s.net ∧ (s.setFld off f v).rdm = s.rdm ∧ (s.setFld off f v).cmd = s.cmd ∧
    (s.setFld off f v).lay = s.lay ∧ (s.setFld off f v).cip = s.cip ∧ (s.setFld off f v).drv = s.drv ∧ (s.setFld off f v).pwr = s.pwr ∧
    (s.setFld off f v).env = s.env ∧ (s.setFld off f v).pair = s.pair ∧ (s.setFld off f v).mgt = s.mgt ∧ (s.setFld off f v).crs = s.crs ∧
    (s.setFld off f v).tel = s.tel ∧ (s.setFld off f v).out = s.out ∧ (s.setFld off f v).drawn = s.drawn ∧
    (s.setFld off f v).pending = s.pending :=
  ⟨rfl, rfl, rfl, rfl, rfl, rfl, rfl, rfl, rfl, rfl, rfl, rfl, rfl, rfl, rfl, rfl, rfl, rfl, rfl⟩

@[simp] theorem State.satFld_frame (off : Nat) (f : Fld) (n : Nat) :
    (s.satFld off f n).now = s.now ∧ (s.satFld off f n).straps = s.straps ∧ (s.satFld off f n).itn = s.itn ∧
    (s.satFld off f n).hst = s.hst ∧ (s.satFld off f n).net = s.net ∧ (s.satFld off f n).rdm = s.rdm ∧ (s.satFld off f n).cmd = s.cmd ∧
    (s.satFld off f n).lay = s.lay ∧ (s.satFld off f n).cip = s.cip ∧ (s.satFld off f n).drv = s.drv ∧ (s.satFld off f n).pwr = s.pwr ∧
    (s.satFld off f n).env = s.env ∧ (s.satFld off f n).pair = s.pair ∧ (s.satFld off f n).mgt = s.mgt ∧ (s.satFld off f n).crs = s.crs ∧
    (s.satFld off f n).tel = s.tel ∧ (s.satFld off f n).out = s.out ∧ (s.satFld off f n).drawn = s.drawn ∧
    (s.satFld off f n).pending = s.pending :=
  ⟨rfl, rfl, rfl, rfl, rfl, rfl, rfl, rfl, rfl, rfl, rfl, rfl, rfl, rfl, rfl, rfl, rfl, rfl, rfl⟩

@[simp] theorem State.setRingState_frame (k v : Nat) :
    (s.setRingState k v).now = s.now ∧ (s.setRingState k v).straps = s.straps ∧ (s.setRingState k v).itn = s.itn ∧
    (s.setRingState k v).hst = s.hst ∧ (s.setRingState k v).net = s.net ∧ (s.setRingState k v).rdm = s.rdm ∧
    (s.setRingState k v).cmd = s.cmd ∧ (s.setRingState k v).lay = s.lay ∧ (s.setRingState k v).cip = s.cip ∧
    (s.setRingState k v).drv = s.drv ∧ (s.setRingState k v).pwr = s.pwr ∧ (s.setRingState k v).env = s.env ∧
    (s.setRingState k v).pair = s.pair ∧ (s.setRingState k v).mgt = s.mgt ∧ (s.setRingState k v).crs = s.crs ∧
    (s.setRingState k v).tel = s.tel ∧ (s.setRingState k v).out = s.out ∧ (s.setRingState k v).drawn = s.drawn ∧
    (s.setRingState k v).pending = s.pending :=
  ⟨rfl, rfl, rfl, rfl, rfl, rfl, rfl, rfl, rfl, rfl, rfl, rfl, rfl, rfl, rfl, rfl, rfl, rfl, rfl⟩

@[simp] theorem State.setBayState_frame (b st : Nat) :
    (s.setBayState b st).now = s.now ∧ (s.setBayState b st).straps = s.straps ∧ (s.setBayState b st).itn = s.itn ∧
    (s.setBayState b st).hst = s.hst ∧ (s.setBayState b st).net = s.net ∧ (s.setBayState b st).rdm = s.rdm ∧
    (s.setBayState b st).cmd = s.cmd ∧ (s.setBayState b st).lay = s.lay ∧ (s.setBayState b st).cip = s.cip ∧
    (s.setBayState b st).drv = s.drv ∧ (s.setBayState b st).pwr = s.pwr ∧ (s.setBayState b st).env = s.env ∧
    (s.setBayState b st).pair = s.pair ∧ (s.setBayState b st).mgt = s.mgt ∧ (s.setBayState b st).crs = s.crs ∧
    (s.setBayState b st).tel = s.tel ∧ (s.setBayState b st).out = s.out ∧ (s.setBayState b st).drawn = s.drawn ∧
    (s.setBayState b st).pending = s.pending :=
  ⟨rfl, rfl, rfl, rfl, rfl, rfl, rfl, rfl, rfl, rfl, rfl, rfl, rfl, rfl, rfl, rfl, rfl, rfl, rfl⟩

@[simp] theorem State.setPwSt_frame (b st : Nat) :
    (s.setPwSt b st).now = s.now ∧ (s.setPwSt b st).straps = s.straps ∧ (s.setPwSt b st).itn = s.itn ∧ (s.setPwSt b st).hst = s.hst ∧
    (s.setPwSt b st).net = s.net ∧ (s.setPwSt b st).rdm = s.rdm ∧ (s.setPwSt b st).cmd = s.cmd ∧ (s.setPwSt b st).lay = s.lay ∧
    (s.setPwSt b st).cip = s.cip ∧ (s.setPwSt b st).drv = s.drv ∧ (s.setPwSt b st).pwr = s.pwr ∧ (s.setPwSt b st).env = s.env ∧
    (s.setPwSt b st).pair = s.pair ∧ (s.setPwSt b st).mgt = s.mgt ∧ (s.setPwSt b st).crs = s.crs ∧ (s.setPwSt b st).tel = s.tel ∧
    (s.setPwSt b st).out = s.out ∧ (s.setPwSt b st).drawn = s.drawn ∧ (s.setPwSt b st).pending = s.pending :=
  ⟨rfl, rfl, rfl, rfl, rfl, rfl, rfl, rfl, rfl, rfl, rfl, rfl, rfl, rfl, rfl, rfl, rfl, rfl, rfl⟩

@[simp] theorem State.setPwBit_frame (b : Nat) (f : Fld) (v : Bool) :
    (s.setPwBit b f v).now = s.now ∧ (s.setPwBit b f v).straps = s.straps ∧ (s.setPwBit b f v).itn = s.itn ∧
    (s.setPwBit b f v).hst = s.hst ∧ (s.setPwBit b f v).net = s.net ∧ (s.setPwBit b f v).rdm = s.rdm ∧ (s.setPwBit b f v).cmd = s.cmd ∧
    (s.setPwBit b f v).lay = s.lay ∧ (s.setPwBit b f v).cip = s.cip ∧ (s.setPwBit b f v).drv = s.drv ∧ (s.setPwBit b f v).pwr = s.pwr ∧
    (s.setPwBit b f v).env = s.env ∧ (s.setPwBit b f v).pair = s.pair ∧ (s.setPwBit b f v).mgt = s.mgt ∧ (s.setPwBit b f v).crs = s.crs ∧
    (s.setPwBit b f v).tel = s.tel ∧ (s.setPwBit b f v).out = s.out ∧ (s.setPwBit b f v).drawn = s.drawn ∧
    (s.setPwBit b f v).pending = s.pending :=
  ⟨rfl, rfl, rfl, rfl, rfl, rfl, rfl, rfl, rfl, rfl, rfl, rfl, rfl, rfl, rfl, rfl, rfl, rfl, rfl⟩

@[simp] theorem State.setPresent_frame (b : Nat) (v : Bool) :
    (s.setPresent b v).now = s.now ∧ (s.setPresent b v).straps = s.straps ∧ (s.setPresent b v).itn = s.itn ∧
    (s.setPresent b v).hst = s.hst ∧ (s.setPresent b v).net = s.net ∧ (s.setPresent b v).rdm = s.rdm ∧ (s.setPresent b v).cmd = s.cmd ∧
    (s.setPresent b v).lay = s.lay ∧ (s.setPresent b v).cip = s.cip ∧ (s.setPresent b v).drv = s.drv ∧ (s.setPresent b v).pwr = s.pwr ∧
    (s.setPresent b v).env = s.env ∧ (s.setPresent b v).pair = s.pair ∧ (s.setPresent b v).mgt = s.mgt ∧ (s.setPresent b v).crs = s.crs ∧
    (s.setPresent b v).tel = s.tel ∧ (s.setPresent b v).out = s.out ∧ (s.setPresent b v).drawn = s.drawn ∧
    (s.setPresent b v).pending = s.pending :=
  ⟨rfl, rfl, rfl, rfl, rfl, rfl, rfl, rfl, rfl, rfl, rfl, rfl, rfl, rfl, rfl, rfl, rfl, rfl, rfl⟩

@[simp] theorem State.setRetries_frame (b n : Nat) :
    (s.setRetries b n).now = s.now ∧ (s.setRetries b n).straps = s.straps ∧ (s.setRetries b n).itn = s.itn ∧
    (s.setRetries b n).hst = s.hst ∧ (s.setRetries b n).net = s.net ∧ (s.setRetries b n).rdm = s.rdm ∧ (s.setRetries b n).cmd = s.cmd ∧
    (s.setRetries b n).lay = s.lay ∧ (s.setRetries b n).cip = s.cip ∧ (s.setRetries b n).drv = s.drv ∧ (s.setRetries b n).pwr = s.pwr ∧
    (s.setRetries b n).env = s.env ∧ (s.setRetries b n).pair = s.pair ∧ (s.setRetries b n).mgt = s.mgt ∧ (s.setRetries b n).crs = s.crs ∧
    (s.setRetries b n).tel = s.tel ∧ (s.setRetries b n).out = s.out ∧ (s.setRetries b n).drawn = s.drawn ∧
    (s.setRetries b n).pending = s.pending :=
  ⟨rfl, rfl, rfl, rfl, rfl, rfl, rfl, rfl, rfl, rfl, rfl, rfl, rfl, rfl, rfl, rfl, rfl, rfl, rfl⟩

@[simp] theorem State.setPhase_frame (n : Nat) :
    (s.setPhase n).now = s.now ∧ (s.setPhase n).straps = s.straps ∧ (s.setPhase n).itn = s.itn ∧ (s.setPhase n).hst = s.hst ∧
    (s.setPhase n).net = s.net ∧ (s.setPhase n).rdm = s.rdm ∧ (s.setPhase n).cmd = s.cmd ∧ (s.setPhase n).lay = s.lay ∧
    (s.setPhase n).cip = s.cip ∧ (s.setPhase n).drv = s.drv ∧ (s.setPhase n).pwr = s.pwr ∧ (s.setPhase n).env = s.env ∧
    (s.setPhase n).pair = s.pair ∧ (s.setPhase n).mgt = s.mgt ∧ (s.setPhase n).crs = s.crs ∧ (s.setPhase n).tel = s.tel ∧
    (s.setPhase n).out = s.out ∧ (s.setPhase n).drawn = s.drawn ∧ (s.setPhase n).pending = s.pending :=
  ⟨rfl, rfl, rfl, rfl, rfl, rfl, rfl, rfl, rfl, rfl, rfl, rfl, rfl, rfl, rfl, rfl, rfl, rfl, rfl⟩

@[simp] theorem State.emit_frame (o : Out) :
    (s.emit o).regs = s.regs ∧ (s.emit o).now = s.now ∧ (s.emit o).straps = s.straps ∧ (s.emit o).itn = s.itn ∧ (s.emit o).hst = s.hst ∧
    (s.emit o).net = s.net ∧ (s.emit o).rdm = s.rdm ∧ (s.emit o).cmd = s.cmd ∧ (s.emit o).lay = s.lay ∧ (s.emit o).cip = s.cip ∧
    (s.emit o).drv = s.drv ∧ (s.emit o).pwr = s.pwr ∧ (s.emit o).env = s.env ∧ (s.emit o).pair = s.pair ∧ (s.emit o).mgt = s.mgt ∧
    (s.emit o).crs = s.crs ∧ (s.emit o).tel = s.tel ∧ (s.emit o).drawn = s.drawn ∧ (s.emit o).pending = s.pending :=
  ⟨rfl, rfl, rfl, rfl, rfl, rfl, rfl, rfl, rfl, rfl, rfl, rfl, rfl, rfl, rfl, rfl, rfl, rfl, rfl⟩

@[simp] theorem State.acc_frame (g i j n : Nat) :
    (s.acc g i j n).regs = s.regs ∧ (s.acc g i j n).now = s.now ∧ (s.acc g i j n).straps = s.straps ∧ (s.acc g i j n).itn = s.itn ∧
    (s.acc g i j n).hst = s.hst ∧ (s.acc g i j n).net = s.net ∧ (s.acc g i j n).rdm = s.rdm ∧ (s.acc g i j n).cmd = s.cmd ∧
    (s.acc g i j n).lay = s.lay ∧ (s.acc g i j n).cip = s.cip ∧ (s.acc g i j n).drv = s.drv ∧ (s.acc g i j n).pwr = s.pwr ∧
    (s.acc g i j n).env = s.env ∧ (s.acc g i j n).pair = s.pair ∧ (s.acc g i j n).mgt = s.mgt ∧ (s.acc g i j n).crs = s.crs ∧
    (s.acc g i j n).out = s.out ∧ (s.acc g i j n).drawn = s.drawn ∧ (s.acc g i j n).pending = s.pending :=
  ⟨rfl, rfl, rfl, rfl, rfl, rfl, rfl, rfl, rfl, rfl, rfl, rfl, rfl, rfl, rfl, rfl, rfl, rfl, rfl⟩

@[simp] theorem State.cnt_frame (off g i j n : Nat) :
    (s.cnt off g i j n).now = s.now ∧ (s.cnt off g i j n).straps = s.straps ∧ (s.cnt off g i j n).itn = s.itn ∧
    (s.cnt off g i j n).hst = s.hst ∧ (s.cnt off g i j n).net = s.net ∧ (s.cnt off g i j n).rdm = s.rdm ∧ (s.cnt off g i j n).cmd = s.cmd ∧
    (s.cnt off g i j n).lay = s.lay ∧ (s.cnt off g i j n).cip = s.cip ∧ (s.cnt off g i j n).drv = s.drv ∧ (s.cnt off g i j n).pwr = s.pwr ∧
    (s.cnt off g i j n).env = s.env ∧ (s.cnt off g i j n).pair = s.pair ∧ (s.cnt off g i j n).mgt = s.mgt ∧
    (s.cnt off g i j n).crs = s.crs ∧ (s.cnt off g i j n).out = s.out ∧ (s.cnt off g i j n).drawn = s.drawn ∧
    (s.cnt off g i j n).pending = s.pending :=
  ⟨rfl, rfl, rfl, rfl, rfl, rfl, rfl, rfl, rfl, rfl, rfl, rfl, rfl, rfl, rfl, rfl, rfl, rfl⟩

/-- Entering a run changes only the accumulators, the slots left to the runs and the items. -/
@[simp] theorem State.enter_frame (r : SlotRun) (it : Item) :
    (s.enter r it).regs = s.regs ∧ (s.enter r it).now = s.now ∧ (s.enter r it).straps = s.straps ∧ (s.enter r it).hst = s.hst ∧
    (s.enter r it).net = s.net ∧ (s.enter r it).rdm = s.rdm ∧ (s.enter r it).lay = s.lay ∧ (s.enter r it).cip = s.cip ∧
    (s.enter r it).drv = s.drv ∧ (s.enter r it).pwr = s.pwr ∧ (s.enter r it).env = s.env ∧ (s.enter r it).pair = s.pair ∧
    (s.enter r it).mgt = s.mgt ∧ (s.enter r it).crs = s.crs ∧ (s.enter r it).out = s.out ∧ (s.enter r it).drawn = s.drawn ∧
    (s.enter r it).pending = s.pending ∧ (s.enter r it).itn = { s.itn with slots := (s.enter r it).itn.slots } ∧
    (s.enter r it).cmd = { s.cmd with items := (s.enter r it).cmd.items } := by
  unfold State.enter
  cases it.on.isSome <;> exact ⟨rfl, rfl, rfl, rfl, rfl, rfl, rfl, rfl, rfl, rfl, rfl, rfl, rfl, rfl, rfl, rfl, rfl, rfl, rfl⟩

@[simp] theorem State.setRing_frame (k : Nat) (r : Ring) :
    (s.setRing k r).regs = s.regs ∧ (s.setRing k r).now = s.now ∧ (s.setRing k r).straps = s.straps ∧ (s.setRing k r).itn = s.itn ∧
    (s.setRing k r).net = s.net ∧ (s.setRing k r).rdm = s.rdm ∧ (s.setRing k r).cmd = s.cmd ∧ (s.setRing k r).lay = s.lay ∧
    (s.setRing k r).cip = s.cip ∧ (s.setRing k r).drv = s.drv ∧ (s.setRing k r).pwr = s.pwr ∧ (s.setRing k r).env = s.env ∧
    (s.setRing k r).pair = s.pair ∧ (s.setRing k r).mgt = s.mgt ∧ (s.setRing k r).crs = s.crs ∧ (s.setRing k r).tel = s.tel ∧
    (s.setRing k r).out = s.out ∧ (s.setRing k r).drawn = s.drawn ∧ (s.setRing k r).pending = s.pending :=
  ⟨rfl, rfl, rfl, rfl, rfl, rfl, rfl, rfl, rfl, rfl, rfl, rfl, rfl, rfl, rfl, rfl, rfl, rfl, rfl⟩

@[simp] theorem State.setHost_frame (h : Nat) (e : HostEnt) :
    (s.setHost h e).regs = s.regs ∧ (s.setHost h e).now = s.now ∧ (s.setHost h e).straps = s.straps ∧ (s.setHost h e).itn = s.itn ∧
    (s.setHost h e).net = s.net ∧ (s.setHost h e).rdm = s.rdm ∧ (s.setHost h e).cmd = s.cmd ∧ (s.setHost h e).lay = s.lay ∧
    (s.setHost h e).cip = s.cip ∧ (s.setHost h e).drv = s.drv ∧ (s.setHost h e).pwr = s.pwr ∧ (s.setHost h e).env = s.env ∧
    (s.setHost h e).pair = s.pair ∧ (s.setHost h e).mgt = s.mgt ∧ (s.setHost h e).crs = s.crs ∧ (s.setHost h e).tel = s.tel ∧
    (s.setHost h e).out = s.out ∧ (s.setHost h e).drawn = s.drawn ∧ (s.setHost h e).pending = s.pending :=
  ⟨rfl, rfl, rfl, rfl, rfl, rfl, rfl, rfl, rfl, rfl, rfl, rfl, rfl, rfl, rfl, rfl, rfl, rfl, rfl⟩

@[simp] theorem State.setChan_frame (i : Nat) (c : Chan) :
    (s.setChan i c).regs = s.regs ∧ (s.setChan i c).now = s.now ∧ (s.setChan i c).straps = s.straps ∧ (s.setChan i c).itn = s.itn ∧
    (s.setChan i c).net = s.net ∧ (s.setChan i c).rdm = s.rdm ∧ (s.setChan i c).cmd = s.cmd ∧ (s.setChan i c).lay = s.lay ∧
    (s.setChan i c).cip = s.cip ∧ (s.setChan i c).drv = s.drv ∧ (s.setChan i c).pwr = s.pwr ∧ (s.setChan i c).env = s.env ∧
    (s.setChan i c).pair = s.pair ∧ (s.setChan i c).mgt = s.mgt ∧ (s.setChan i c).crs = s.crs ∧ (s.setChan i c).tel = s.tel ∧
    (s.setChan i c).out = s.out ∧ (s.setChan i c).drawn = s.drawn ∧ (s.setChan i c).pending = s.pending :=
  ⟨rfl, rfl, rfl, rfl, rfl, rfl, rfl, rfl, rfl, rfl, rfl, rfl, rfl, rfl, rfl, rfl, rfl, rfl, rfl⟩

@[simp] theorem State.start_frame (d : Desc) :
    (s.start d).regs = s.regs ∧ (s.start d).now = s.now ∧ (s.start d).straps = s.straps ∧ (s.start d).itn = s.itn ∧
    (s.start d).net = s.net ∧ (s.start d).rdm = s.rdm ∧ (s.start d).cmd = s.cmd ∧ (s.start d).lay = s.lay ∧ (s.start d).cip = s.cip ∧
    (s.start d).drv = s.drv ∧ (s.start d).pwr = s.pwr ∧ (s.start d).env = s.env ∧ (s.start d).pair = s.pair ∧ (s.start d).mgt = s.mgt ∧
    (s.start d).crs = s.crs ∧ (s.start d).tel = s.tel ∧ (s.start d).out = s.out ∧ (s.start d).drawn = s.drawn ∧
    (s.start d).pending = s.pending :=
  ⟨rfl, rfl, rfl, rfl, rfl, rfl, rfl, rfl, rfl, rfl, rfl, rfl, rfl, rfl, rfl, rfl, rfl, rfl, rfl⟩

@[simp] theorem State.defer_frame (d : Desc) :
    (s.defer d).regs = s.regs ∧ (s.defer d).now = s.now ∧ (s.defer d).straps = s.straps ∧ (s.defer d).itn = s.itn ∧
    (s.defer d).net = s.net ∧ (s.defer d).rdm = s.rdm ∧ (s.defer d).cmd = s.cmd ∧ (s.defer d).lay = s.lay ∧ (s.defer d).cip = s.cip ∧
    (s.defer d).drv = s.drv ∧ (s.defer d).pwr = s.pwr ∧ (s.defer d).env = s.env ∧ (s.defer d).pair = s.pair ∧ (s.defer d).mgt = s.mgt ∧
    (s.defer d).crs = s.crs ∧ (s.defer d).tel = s.tel ∧ (s.defer d).out = s.out ∧ (s.defer d).drawn = s.drawn ∧
    (s.defer d).pending = s.pending :=
  ⟨rfl, rfl, rfl, rfl, rfl, rfl, rfl, rfl, rfl, rfl, rfl, rfl, rfl, rfl, rfl, rfl, rfl, rfl, rfl⟩

@[simp] theorem State.setWb_frame (w : Nat) (x : Waybill) :
    (s.setWb w x).regs = s.regs ∧ (s.setWb w x).now = s.now ∧ (s.setWb w x).straps = s.straps ∧ (s.setWb w x).itn = s.itn ∧
    (s.setWb w x).hst = s.hst ∧ (s.setWb w x).net = s.net ∧ (s.setWb w x).rdm = s.rdm ∧ (s.setWb w x).lay = s.lay ∧
    (s.setWb w x).cip = s.cip ∧ (s.setWb w x).drv = s.drv ∧ (s.setWb w x).pwr = s.pwr ∧ (s.setWb w x).env = s.env ∧
    (s.setWb w x).pair = s.pair ∧ (s.setWb w x).mgt = s.mgt ∧ (s.setWb w x).crs = s.crs ∧ (s.setWb w x).tel = s.tel ∧
    (s.setWb w x).out = s.out ∧ (s.setWb w x).drawn = s.drawn ∧ (s.setWb w x).pending = s.pending :=
  ⟨rfl, rfl, rfl, rfl, rfl, rfl, rfl, rfl, rfl, rfl, rfl, rfl, rfl, rfl, rfl, rfl, rfl, rfl, rfl⟩

@[simp] theorem State.updWb_frame (w : Nat) (f : Waybill → Waybill) :
    (s.updWb w f).regs = s.regs ∧ (s.updWb w f).now = s.now ∧ (s.updWb w f).straps = s.straps ∧ (s.updWb w f).itn = s.itn ∧
    (s.updWb w f).hst = s.hst ∧ (s.updWb w f).net = s.net ∧ (s.updWb w f).rdm = s.rdm ∧ (s.updWb w f).lay = s.lay ∧
    (s.updWb w f).cip = s.cip ∧ (s.updWb w f).drv = s.drv ∧ (s.updWb w f).pwr = s.pwr ∧ (s.updWb w f).env = s.env ∧
    (s.updWb w f).pair = s.pair ∧ (s.updWb w f).mgt = s.mgt ∧ (s.updWb w f).crs = s.crs ∧ (s.updWb w f).tel = s.tel ∧
    (s.updWb w f).out = s.out ∧ (s.updWb w f).drawn = s.drawn ∧ (s.updWb w f).pending = s.pending :=
  ⟨rfl, rfl, rfl, rfl, rfl, rfl, rfl, rfl, rfl, rfl, rfl, rfl, rfl, rfl, rfl, rfl, rfl, rfl, rfl⟩

@[simp] theorem State.updCap_frame (id : Nat) (f : Capsule → Capsule) :
    (s.updCap id f).regs = s.regs ∧ (s.updCap id f).now = s.now ∧ (s.updCap id f).straps = s.straps ∧ (s.updCap id f).itn = s.itn ∧
    (s.updCap id f).hst = s.hst ∧ (s.updCap id f).net = s.net ∧ (s.updCap id f).rdm = s.rdm ∧ (s.updCap id f).lay = s.lay ∧
    (s.updCap id f).cip = s.cip ∧ (s.updCap id f).drv = s.drv ∧ (s.updCap id f).pwr = s.pwr ∧ (s.updCap id f).env = s.env ∧
    (s.updCap id f).pair = s.pair ∧ (s.updCap id f).mgt = s.mgt ∧ (s.updCap id f).crs = s.crs ∧ (s.updCap id f).tel = s.tel ∧
    (s.updCap id f).out = s.out ∧ (s.updCap id f).drawn = s.drawn ∧ (s.updCap id f).pending = s.pending :=
  ⟨rfl, rfl, rfl, rfl, rfl, rfl, rfl, rfl, rfl, rfl, rfl, rfl, rfl, rfl, rfl, rfl, rfl, rfl, rfl⟩

@[simp] theorem State.dropCap_frame (id : Nat) :
    (s.dropCap id).regs = s.regs ∧ (s.dropCap id).now = s.now ∧ (s.dropCap id).straps = s.straps ∧ (s.dropCap id).itn = s.itn ∧
    (s.dropCap id).hst = s.hst ∧ (s.dropCap id).net = s.net ∧ (s.dropCap id).rdm = s.rdm ∧ (s.dropCap id).lay = s.lay ∧
    (s.dropCap id).cip = s.cip ∧ (s.dropCap id).drv = s.drv ∧ (s.dropCap id).pwr = s.pwr ∧ (s.dropCap id).env = s.env ∧
    (s.dropCap id).pair = s.pair ∧ (s.dropCap id).mgt = s.mgt ∧ (s.dropCap id).crs = s.crs ∧ (s.dropCap id).tel = s.tel ∧
    (s.dropCap id).out = s.out ∧ (s.dropCap id).drawn = s.drawn ∧ (s.dropCap id).pending = s.pending :=
  ⟨rfl, rfl, rfl, rfl, rfl, rfl, rfl, rfl, rfl, rfl, rfl, rfl, rfl, rfl, rfl, rfl, rfl, rfl, rfl⟩

@[simp] theorem State.addItem_frame (it : Item) :
    (s.addItem it).regs = s.regs ∧ (s.addItem it).now = s.now ∧ (s.addItem it).straps = s.straps ∧ (s.addItem it).itn = s.itn ∧
    (s.addItem it).hst = s.hst ∧ (s.addItem it).net = s.net ∧ (s.addItem it).rdm = s.rdm ∧ (s.addItem it).lay = s.lay ∧
    (s.addItem it).cip = s.cip ∧ (s.addItem it).drv = s.drv ∧ (s.addItem it).pwr = s.pwr ∧ (s.addItem it).env = s.env ∧
    (s.addItem it).pair = s.pair ∧ (s.addItem it).mgt = s.mgt ∧ (s.addItem it).crs = s.crs ∧ (s.addItem it).tel = s.tel ∧
    (s.addItem it).out = s.out ∧ (s.addItem it).drawn = s.drawn ∧ (s.addItem it).pending = s.pending :=
  ⟨rfl, rfl, rfl, rfl, rfl, rfl, rfl, rfl, rfl, rfl, rfl, rfl, rfl, rfl, rfl, rfl, rfl, rfl, rfl⟩

@[simp] theorem State.dropItems_frame (p : Item → Bool) :
    (s.dropItems p).regs = s.regs ∧ (s.dropItems p).now = s.now ∧ (s.dropItems p).straps = s.straps ∧ (s.dropItems p).itn = s.itn ∧
    (s.dropItems p).hst = s.hst ∧ (s.dropItems p).net = s.net ∧ (s.dropItems p).rdm = s.rdm ∧ (s.dropItems p).lay = s.lay ∧
    (s.dropItems p).cip = s.cip ∧ (s.dropItems p).drv = s.drv ∧ (s.dropItems p).pwr = s.pwr ∧ (s.dropItems p).env = s.env ∧
    (s.dropItems p).pair = s.pair ∧ (s.dropItems p).mgt = s.mgt ∧ (s.dropItems p).crs = s.crs ∧ (s.dropItems p).tel = s.tel ∧
    (s.dropItems p).out = s.out ∧ (s.dropItems p).drawn = s.drawn ∧ (s.dropItems p).pending = s.pending :=
  ⟨rfl, rfl, rfl, rfl, rfl, rfl, rfl, rfl, rfl, rfl, rfl, rfl, rfl, rfl, rfl, rfl, rfl, rfl, rfl⟩

@[simp] theorem State.wakeItems_frame (p : Item → Bool) (f : Item → Item) :
    (s.wakeItems p f).regs = s.regs ∧ (s.wakeItems p f).now = s.now ∧ (s.wakeItems p f).straps = s.straps ∧ (s.wakeItems p f).itn = s.itn ∧
    (s.wakeItems p f).hst = s.hst ∧ (s.wakeItems p f).net = s.net ∧ (s.wakeItems p f).rdm = s.rdm ∧ (s.wakeItems p f).lay = s.lay ∧
    (s.wakeItems p f).cip = s.cip ∧ (s.wakeItems p f).drv = s.drv ∧ (s.wakeItems p f).pwr = s.pwr ∧ (s.wakeItems p f).env = s.env ∧
    (s.wakeItems p f).pair = s.pair ∧ (s.wakeItems p f).mgt = s.mgt ∧ (s.wakeItems p f).crs = s.crs ∧ (s.wakeItems p f).tel = s.tel ∧
    (s.wakeItems p f).out = s.out ∧ (s.wakeItems p f).drawn = s.drawn ∧ (s.wakeItems p f).pending = s.pending :=
  ⟨rfl, rfl, rfl, rfl, rfl, rfl, rfl, rfl, rfl, rfl, rfl, rfl, rfl, rfl, rfl, rfl, rfl, rfl, rfl⟩

@[simp] theorem State.advance_frame (it : Item) (code leg : Nat) (wait : Wait) (n : Nat) :
    (s.advance it code leg wait n).regs = s.regs ∧ (s.advance it code leg wait n).now = s.now ∧
    (s.advance it code leg wait n).straps = s.straps ∧ (s.advance it code leg wait n).itn = s.itn ∧
    (s.advance it code leg wait n).hst = s.hst ∧ (s.advance it code leg wait n).net = s.net ∧ (s.advance it code leg wait n).rdm = s.rdm ∧
    (s.advance it code leg wait n).lay = s.lay ∧ (s.advance it code leg wait n).cip = s.cip ∧ (s.advance it code leg wait n).drv = s.drv ∧
    (s.advance it code leg wait n).pwr = s.pwr ∧ (s.advance it code leg wait n).env = s.env ∧ (s.advance it code leg wait n).pair = s.pair ∧
    (s.advance it code leg wait n).mgt = s.mgt ∧ (s.advance it code leg wait n).crs = s.crs ∧ (s.advance it code leg wait n).tel = s.tel ∧
    (s.advance it code leg wait n).out = s.out ∧ (s.advance it code leg wait n).drawn = s.drawn ∧
    (s.advance it code leg wait n).pending = s.pending :=
  ⟨rfl, rfl, rfl, rfl, rfl, rfl, rfl, rfl, rfl, rfl, rfl, rfl, rfl, rfl, rfl, rfl, rfl, rfl, rfl⟩

@[simp] theorem State.endItem_frame (it : Item) :
    (s.endItem it).regs = s.regs ∧ (s.endItem it).now = s.now ∧ (s.endItem it).straps = s.straps ∧ (s.endItem it).itn = s.itn ∧
    (s.endItem it).hst = s.hst ∧ (s.endItem it).net = s.net ∧ (s.endItem it).rdm = s.rdm ∧ (s.endItem it).lay = s.lay ∧
    (s.endItem it).cip = s.cip ∧ (s.endItem it).drv = s.drv ∧ (s.endItem it).pwr = s.pwr ∧ (s.endItem it).env = s.env ∧
    (s.endItem it).pair = s.pair ∧ (s.endItem it).mgt = s.mgt ∧ (s.endItem it).crs = s.crs ∧ (s.endItem it).tel = s.tel ∧
    (s.endItem it).out = s.out ∧ (s.endItem it).drawn = s.drawn ∧ (s.endItem it).pending = s.pending :=
  ⟨rfl, rfl, rfl, rfl, rfl, rfl, rfl, rfl, rfl, rfl, rfl, rfl, rfl, rfl, rfl, rfl, rfl, rfl, rfl⟩

@[simp] theorem State.later_frame (it : Item) :
    (s.later it).regs = s.regs ∧ (s.later it).now = s.now ∧ (s.later it).straps = s.straps ∧ (s.later it).itn = s.itn ∧
    (s.later it).hst = s.hst ∧ (s.later it).net = s.net ∧ (s.later it).rdm = s.rdm ∧ (s.later it).lay = s.lay ∧ (s.later it).cip = s.cip ∧
    (s.later it).drv = s.drv ∧ (s.later it).pwr = s.pwr ∧ (s.later it).env = s.env ∧ (s.later it).pair = s.pair ∧ (s.later it).mgt = s.mgt ∧
    (s.later it).crs = s.crs ∧ (s.later it).tel = s.tel ∧ (s.later it).out = s.out ∧ (s.later it).drawn = s.drawn ∧
    (s.later it).pending = s.pending :=
  ⟨rfl, rfl, rfl, rfl, rfl, rfl, rfl, rfl, rfl, rfl, rfl, rfl, rfl, rfl, rfl, rfl, rfl, rfl, rfl⟩

@[simp] theorem State.setCtrl_frame (k : Nat) (x : Ctrl) :
    (s.setCtrl k x).regs = s.regs ∧ (s.setCtrl k x).now = s.now ∧ (s.setCtrl k x).straps = s.straps ∧ (s.setCtrl k x).itn = s.itn ∧
    (s.setCtrl k x).hst = s.hst ∧ (s.setCtrl k x).net = s.net ∧ (s.setCtrl k x).rdm = s.rdm ∧ (s.setCtrl k x).lay = s.lay ∧
    (s.setCtrl k x).cip = s.cip ∧ (s.setCtrl k x).drv = s.drv ∧ (s.setCtrl k x).pwr = s.pwr ∧ (s.setCtrl k x).env = s.env ∧
    (s.setCtrl k x).pair = s.pair ∧ (s.setCtrl k x).mgt = s.mgt ∧ (s.setCtrl k x).crs = s.crs ∧ (s.setCtrl k x).tel = s.tel ∧
    (s.setCtrl k x).out = s.out ∧ (s.setCtrl k x).drawn = s.drawn ∧ (s.setCtrl k x).pending = s.pending :=
  ⟨rfl, rfl, rfl, rfl, rfl, rfl, rfl, rfl, rfl, rfl, rfl, rfl, rfl, rfl, rfl, rfl, rfl, rfl, rfl⟩

@[simp] theorem State.updCtrl_frame (k : Nat) (f : Ctrl → Ctrl) :
    (s.updCtrl k f).regs = s.regs ∧ (s.updCtrl k f).now = s.now ∧ (s.updCtrl k f).straps = s.straps ∧ (s.updCtrl k f).itn = s.itn ∧
    (s.updCtrl k f).hst = s.hst ∧ (s.updCtrl k f).net = s.net ∧ (s.updCtrl k f).rdm = s.rdm ∧ (s.updCtrl k f).lay = s.lay ∧
    (s.updCtrl k f).cip = s.cip ∧ (s.updCtrl k f).drv = s.drv ∧ (s.updCtrl k f).pwr = s.pwr ∧ (s.updCtrl k f).env = s.env ∧
    (s.updCtrl k f).pair = s.pair ∧ (s.updCtrl k f).mgt = s.mgt ∧ (s.updCtrl k f).crs = s.crs ∧ (s.updCtrl k f).tel = s.tel ∧
    (s.updCtrl k f).out = s.out ∧ (s.updCtrl k f).drawn = s.drawn ∧ (s.updCtrl k f).pending = s.pending :=
  ⟨rfl, rfl, rfl, rfl, rfl, rfl, rfl, rfl, rfl, rfl, rfl, rfl, rfl, rfl, rfl, rfl, rfl, rfl, rfl⟩

@[simp] theorem State.setPool_frame (p : Nat) (x : Pool) :
    (s.setPool p x).regs = s.regs ∧ (s.setPool p x).now = s.now ∧ (s.setPool p x).straps = s.straps ∧ (s.setPool p x).itn = s.itn ∧
    (s.setPool p x).hst = s.hst ∧ (s.setPool p x).net = s.net ∧ (s.setPool p x).rdm = s.rdm ∧ (s.setPool p x).cmd = s.cmd ∧
    (s.setPool p x).cip = s.cip ∧ (s.setPool p x).drv = s.drv ∧ (s.setPool p x).pwr = s.pwr ∧ (s.setPool p x).env = s.env ∧
    (s.setPool p x).pair = s.pair ∧ (s.setPool p x).mgt = s.mgt ∧ (s.setPool p x).crs = s.crs ∧ (s.setPool p x).tel = s.tel ∧
    (s.setPool p x).out = s.out ∧ (s.setPool p x).drawn = s.drawn ∧ (s.setPool p x).pending = s.pending :=
  ⟨rfl, rfl, rfl, rfl, rfl, rfl, rfl, rfl, rfl, rfl, rfl, rfl, rfl, rfl, rfl, rfl, rfl, rfl, rfl⟩

@[simp] theorem State.updPool_frame (p : Nat) (f : Pool → Pool) :
    (s.updPool p f).regs = s.regs ∧ (s.updPool p f).now = s.now ∧ (s.updPool p f).straps = s.straps ∧ (s.updPool p f).itn = s.itn ∧
    (s.updPool p f).hst = s.hst ∧ (s.updPool p f).net = s.net ∧ (s.updPool p f).rdm = s.rdm ∧ (s.updPool p f).cmd = s.cmd ∧
    (s.updPool p f).cip = s.cip ∧ (s.updPool p f).drv = s.drv ∧ (s.updPool p f).pwr = s.pwr ∧ (s.updPool p f).env = s.env ∧
    (s.updPool p f).pair = s.pair ∧ (s.updPool p f).mgt = s.mgt ∧ (s.updPool p f).crs = s.crs ∧ (s.updPool p f).tel = s.tel ∧
    (s.updPool p f).out = s.out ∧ (s.updPool p f).drawn = s.drawn ∧ (s.updPool p f).pending = s.pending :=
  ⟨rfl, rfl, rfl, rfl, rfl, rfl, rfl, rfl, rfl, rfl, rfl, rfl, rfl, rfl, rfl, rfl, rfl, rfl, rfl⟩

@[simp] theorem State.setVol_frame (v : Nat) (x : Vol) :
    (s.setVol v x).regs = s.regs ∧ (s.setVol v x).now = s.now ∧ (s.setVol v x).straps = s.straps ∧ (s.setVol v x).itn = s.itn ∧
    (s.setVol v x).hst = s.hst ∧ (s.setVol v x).net = s.net ∧ (s.setVol v x).rdm = s.rdm ∧ (s.setVol v x).cmd = s.cmd ∧
    (s.setVol v x).cip = s.cip ∧ (s.setVol v x).drv = s.drv ∧ (s.setVol v x).pwr = s.pwr ∧ (s.setVol v x).env = s.env ∧
    (s.setVol v x).pair = s.pair ∧ (s.setVol v x).mgt = s.mgt ∧ (s.setVol v x).crs = s.crs ∧ (s.setVol v x).tel = s.tel ∧
    (s.setVol v x).out = s.out ∧ (s.setVol v x).drawn = s.drawn ∧ (s.setVol v x).pending = s.pending :=
  ⟨rfl, rfl, rfl, rfl, rfl, rfl, rfl, rfl, rfl, rfl, rfl, rfl, rfl, rfl, rfl, rfl, rfl, rfl, rfl⟩

@[simp] theorem State.updVol_frame (v : Nat) (f : Vol → Vol) :
    (s.updVol v f).regs = s.regs ∧ (s.updVol v f).now = s.now ∧ (s.updVol v f).straps = s.straps ∧ (s.updVol v f).itn = s.itn ∧
    (s.updVol v f).hst = s.hst ∧ (s.updVol v f).net = s.net ∧ (s.updVol v f).rdm = s.rdm ∧ (s.updVol v f).cmd = s.cmd ∧
    (s.updVol v f).cip = s.cip ∧ (s.updVol v f).drv = s.drv ∧ (s.updVol v f).pwr = s.pwr ∧ (s.updVol v f).env = s.env ∧
    (s.updVol v f).pair = s.pair ∧ (s.updVol v f).mgt = s.mgt ∧ (s.updVol v f).crs = s.crs ∧ (s.updVol v f).tel = s.tel ∧
    (s.updVol v f).out = s.out ∧ (s.updVol v f).drawn = s.drawn ∧ (s.updVol v f).pending = s.pending :=
  ⟨rfl, rfl, rfl, rfl, rfl, rfl, rfl, rfl, rfl, rfl, rfl, rfl, rfl, rfl, rfl, rfl, rfl, rfl, rfl⟩

@[simp] theorem State.setLine_frame (i : Nat) (x : Line) :
    (s.setLine i x).regs = s.regs ∧ (s.setLine i x).now = s.now ∧ (s.setLine i x).straps = s.straps ∧ (s.setLine i x).itn = s.itn ∧
    (s.setLine i x).hst = s.hst ∧ (s.setLine i x).net = s.net ∧ (s.setLine i x).rdm = s.rdm ∧ (s.setLine i x).cmd = s.cmd ∧
    (s.setLine i x).cip = s.cip ∧ (s.setLine i x).drv = s.drv ∧ (s.setLine i x).pwr = s.pwr ∧ (s.setLine i x).env = s.env ∧
    (s.setLine i x).pair = s.pair ∧ (s.setLine i x).mgt = s.mgt ∧ (s.setLine i x).crs = s.crs ∧ (s.setLine i x).tel = s.tel ∧
    (s.setLine i x).out = s.out ∧ (s.setLine i x).drawn = s.drawn ∧ (s.setLine i x).pending = s.pending :=
  ⟨rfl, rfl, rfl, rfl, rfl, rfl, rfl, rfl, rfl, rfl, rfl, rfl, rfl, rfl, rfl, rfl, rfl, rfl, rfl⟩

@[simp] theorem State.updLine_frame (i : Nat) (f : Line → Line) :
    (s.updLine i f).regs = s.regs ∧ (s.updLine i f).now = s.now ∧ (s.updLine i f).straps = s.straps ∧ (s.updLine i f).itn = s.itn ∧
    (s.updLine i f).hst = s.hst ∧ (s.updLine i f).net = s.net ∧ (s.updLine i f).rdm = s.rdm ∧ (s.updLine i f).cmd = s.cmd ∧
    (s.updLine i f).cip = s.cip ∧ (s.updLine i f).drv = s.drv ∧ (s.updLine i f).pwr = s.pwr ∧ (s.updLine i f).env = s.env ∧
    (s.updLine i f).pair = s.pair ∧ (s.updLine i f).mgt = s.mgt ∧ (s.updLine i f).crs = s.crs ∧ (s.updLine i f).tel = s.tel ∧
    (s.updLine i f).out = s.out ∧ (s.updLine i f).drawn = s.drawn ∧ (s.updLine i f).pending = s.pending :=
  ⟨rfl, rfl, rfl, rfl, rfl, rfl, rfl, rfl, rfl, rfl, rfl, rfl, rfl, rfl, rfl, rfl, rfl, rfl, rfl⟩

@[simp] theorem State.setJent_frame (i : Nat) (x : JEnt) :
    (s.setJent i x).regs = s.regs ∧ (s.setJent i x).now = s.now ∧ (s.setJent i x).straps = s.straps ∧ (s.setJent i x).itn = s.itn ∧
    (s.setJent i x).hst = s.hst ∧ (s.setJent i x).net = s.net ∧ (s.setJent i x).rdm = s.rdm ∧ (s.setJent i x).cmd = s.cmd ∧
    (s.setJent i x).cip = s.cip ∧ (s.setJent i x).drv = s.drv ∧ (s.setJent i x).pwr = s.pwr ∧ (s.setJent i x).env = s.env ∧
    (s.setJent i x).pair = s.pair ∧ (s.setJent i x).mgt = s.mgt ∧ (s.setJent i x).crs = s.crs ∧ (s.setJent i x).tel = s.tel ∧
    (s.setJent i x).out = s.out ∧ (s.setJent i x).drawn = s.drawn ∧ (s.setJent i x).pending = s.pending :=
  ⟨rfl, rfl, rfl, rfl, rfl, rfl, rfl, rfl, rfl, rfl, rfl, rfl, rfl, rfl, rfl, rfl, rfl, rfl, rfl⟩

@[simp] theorem State.updWork_frame (id : Nat) (f : Work → Work) :
    (s.updWork id f).regs = s.regs ∧ (s.updWork id f).now = s.now ∧ (s.updWork id f).straps = s.straps ∧ (s.updWork id f).itn = s.itn ∧
    (s.updWork id f).hst = s.hst ∧ (s.updWork id f).net = s.net ∧ (s.updWork id f).rdm = s.rdm ∧ (s.updWork id f).cmd = s.cmd ∧
    (s.updWork id f).cip = s.cip ∧ (s.updWork id f).drv = s.drv ∧ (s.updWork id f).pwr = s.pwr ∧ (s.updWork id f).env = s.env ∧
    (s.updWork id f).pair = s.pair ∧ (s.updWork id f).mgt = s.mgt ∧ (s.updWork id f).crs = s.crs ∧ (s.updWork id f).tel = s.tel ∧
    (s.updWork id f).out = s.out ∧ (s.updWork id f).drawn = s.drawn ∧ (s.updWork id f).pending = s.pending :=
  ⟨rfl, rfl, rfl, rfl, rfl, rfl, rfl, rfl, rfl, rfl, rfl, rfl, rfl, rfl, rfl, rfl, rfl, rfl, rfl⟩

@[simp] theorem State.dropWork_frame (id : Nat) :
    (s.dropWork id).regs = s.regs ∧ (s.dropWork id).now = s.now ∧ (s.dropWork id).straps = s.straps ∧ (s.dropWork id).itn = s.itn ∧
    (s.dropWork id).hst = s.hst ∧ (s.dropWork id).net = s.net ∧ (s.dropWork id).rdm = s.rdm ∧ (s.dropWork id).cmd = s.cmd ∧
    (s.dropWork id).cip = s.cip ∧ (s.dropWork id).drv = s.drv ∧ (s.dropWork id).pwr = s.pwr ∧ (s.dropWork id).env = s.env ∧
    (s.dropWork id).pair = s.pair ∧ (s.dropWork id).mgt = s.mgt ∧ (s.dropWork id).crs = s.crs ∧ (s.dropWork id).tel = s.tel ∧
    (s.dropWork id).out = s.out ∧ (s.dropWork id).drawn = s.drawn ∧ (s.dropWork id).pending = s.pending :=
  ⟨rfl, rfl, rfl, rfl, rfl, rfl, rfl, rfl, rfl, rfl, rfl, rfl, rfl, rfl, rfl, rfl, rfl, rfl, rfl⟩

@[simp] theorem State.setKey_frame (i : Nat) (k : Option KeyPair) :
    (s.setKey i k).regs = s.regs ∧ (s.setKey i k).now = s.now ∧ (s.setKey i k).straps = s.straps ∧ (s.setKey i k).itn = s.itn ∧
    (s.setKey i k).hst = s.hst ∧ (s.setKey i k).net = s.net ∧ (s.setKey i k).rdm = s.rdm ∧ (s.setKey i k).cmd = s.cmd ∧
    (s.setKey i k).lay = s.lay ∧ (s.setKey i k).drv = s.drv ∧ (s.setKey i k).pwr = s.pwr ∧ (s.setKey i k).env = s.env ∧
    (s.setKey i k).pair = s.pair ∧ (s.setKey i k).mgt = s.mgt ∧ (s.setKey i k).crs = s.crs ∧ (s.setKey i k).tel = s.tel ∧
    (s.setKey i k).out = s.out ∧ (s.setKey i k).drawn = s.drawn ∧ (s.setKey i k).pending = s.pending :=
  ⟨rfl, rfl, rfl, rfl, rfl, rfl, rfl, rfl, rfl, rfl, rfl, rfl, rfl, rfl, rfl, rfl, rfl, rfl, rfl⟩

@[simp] theorem State.setKek_frame (i : Nat) (k : List Byte) :
    (s.setKek i k).regs = s.regs ∧ (s.setKek i k).now = s.now ∧ (s.setKek i k).straps = s.straps ∧ (s.setKek i k).itn = s.itn ∧
    (s.setKek i k).hst = s.hst ∧ (s.setKek i k).net = s.net ∧ (s.setKek i k).rdm = s.rdm ∧ (s.setKek i k).cmd = s.cmd ∧
    (s.setKek i k).lay = s.lay ∧ (s.setKek i k).drv = s.drv ∧ (s.setKek i k).pwr = s.pwr ∧ (s.setKek i k).env = s.env ∧
    (s.setKek i k).pair = s.pair ∧ (s.setKek i k).mgt = s.mgt ∧ (s.setKek i k).crs = s.crs ∧ (s.setKek i k).tel = s.tel ∧
    (s.setKek i k).out = s.out ∧ (s.setKek i k).drawn = s.drawn ∧ (s.setKek i k).pending = s.pending :=
  ⟨rfl, rfl, rfl, rfl, rfl, rfl, rfl, rfl, rfl, rfl, rfl, rfl, rfl, rfl, rfl, rfl, rfl, rfl, rfl⟩

@[simp] theorem State.setBay_frame (b : Nat) (x : Bay) :
    (s.setBay b x).regs = s.regs ∧ (s.setBay b x).now = s.now ∧ (s.setBay b x).straps = s.straps ∧ (s.setBay b x).itn = s.itn ∧
    (s.setBay b x).hst = s.hst ∧ (s.setBay b x).net = s.net ∧ (s.setBay b x).rdm = s.rdm ∧ (s.setBay b x).cmd = s.cmd ∧
    (s.setBay b x).lay = s.lay ∧ (s.setBay b x).cip = s.cip ∧ (s.setBay b x).pwr = s.pwr ∧ (s.setBay b x).env = s.env ∧
    (s.setBay b x).pair = s.pair ∧ (s.setBay b x).mgt = s.mgt ∧ (s.setBay b x).crs = s.crs ∧ (s.setBay b x).tel = s.tel ∧
    (s.setBay b x).out = s.out ∧ (s.setBay b x).drawn = s.drawn ∧ (s.setBay b x).pending = s.pending :=
  ⟨rfl, rfl, rfl, rfl, rfl, rfl, rfl, rfl, rfl, rfl, rfl, rfl, rfl, rfl, rfl, rfl, rfl, rfl, rfl⟩

@[simp] theorem State.updBay_frame (b : Nat) (f : Bay → Bay) :
    (s.updBay b f).regs = s.regs ∧ (s.updBay b f).now = s.now ∧ (s.updBay b f).straps = s.straps ∧ (s.updBay b f).itn = s.itn ∧
    (s.updBay b f).hst = s.hst ∧ (s.updBay b f).net = s.net ∧ (s.updBay b f).rdm = s.rdm ∧ (s.updBay b f).cmd = s.cmd ∧
    (s.updBay b f).lay = s.lay ∧ (s.updBay b f).cip = s.cip ∧ (s.updBay b f).pwr = s.pwr ∧ (s.updBay b f).env = s.env ∧
    (s.updBay b f).pair = s.pair ∧ (s.updBay b f).mgt = s.mgt ∧ (s.updBay b f).crs = s.crs ∧ (s.updBay b f).tel = s.tel ∧
    (s.updBay b f).out = s.out ∧ (s.updBay b f).drawn = s.drawn ∧ (s.updBay b f).pending = s.pending :=
  ⟨rfl, rfl, rfl, rfl, rfl, rfl, rfl, rfl, rfl, rfl, rfl, rfl, rfl, rfl, rfl, rfl, rfl, rfl, rfl⟩

@[simp] theorem State.bayWant_frame (b : Nat) (n : BayNext) :
    (s.bayWant b n).regs = s.regs ∧ (s.bayWant b n).now = s.now ∧ (s.bayWant b n).straps = s.straps ∧ (s.bayWant b n).itn = s.itn ∧
    (s.bayWant b n).hst = s.hst ∧ (s.bayWant b n).net = s.net ∧ (s.bayWant b n).rdm = s.rdm ∧ (s.bayWant b n).cmd = s.cmd ∧
    (s.bayWant b n).lay = s.lay ∧ (s.bayWant b n).cip = s.cip ∧ (s.bayWant b n).pwr = s.pwr ∧ (s.bayWant b n).env = s.env ∧
    (s.bayWant b n).pair = s.pair ∧ (s.bayWant b n).mgt = s.mgt ∧ (s.bayWant b n).crs = s.crs ∧ (s.bayWant b n).tel = s.tel ∧
    (s.bayWant b n).out = s.out ∧ (s.bayWant b n).drawn = s.drawn ∧ (s.bayWant b n).pending = s.pending :=
  ⟨rfl, rfl, rfl, rfl, rfl, rfl, rfl, rfl, rfl, rfl, rfl, rfl, rfl, rfl, rfl, rfl, rfl, rfl, rfl⟩

@[simp] theorem State.setCmd_frame (t : Nat) (c : Option DrvCmd) :
    (s.setCmd t c).regs = s.regs ∧ (s.setCmd t c).now = s.now ∧ (s.setCmd t c).straps = s.straps ∧ (s.setCmd t c).itn = s.itn ∧
    (s.setCmd t c).hst = s.hst ∧ (s.setCmd t c).net = s.net ∧ (s.setCmd t c).rdm = s.rdm ∧ (s.setCmd t c).cmd = s.cmd ∧
    (s.setCmd t c).lay = s.lay ∧ (s.setCmd t c).cip = s.cip ∧ (s.setCmd t c).pwr = s.pwr ∧ (s.setCmd t c).env = s.env ∧
    (s.setCmd t c).pair = s.pair ∧ (s.setCmd t c).mgt = s.mgt ∧ (s.setCmd t c).crs = s.crs ∧ (s.setCmd t c).tel = s.tel ∧
    (s.setCmd t c).out = s.out ∧ (s.setCmd t c).drawn = s.drawn ∧ (s.setCmd t c).pending = s.pending :=
  ⟨rfl, rfl, rfl, rfl, rfl, rfl, rfl, rfl, rfl, rfl, rfl, rfl, rfl, rfl, rfl, rfl, rfl, rfl, rfl⟩

@[simp] theorem State.setPw_frame (b : Nat) (x : BayPw) :
    (s.setPw b x).regs = s.regs ∧ (s.setPw b x).now = s.now ∧ (s.setPw b x).straps = s.straps ∧ (s.setPw b x).itn = s.itn ∧
    (s.setPw b x).hst = s.hst ∧ (s.setPw b x).net = s.net ∧ (s.setPw b x).rdm = s.rdm ∧ (s.setPw b x).cmd = s.cmd ∧
    (s.setPw b x).lay = s.lay ∧ (s.setPw b x).cip = s.cip ∧ (s.setPw b x).drv = s.drv ∧ (s.setPw b x).env = s.env ∧
    (s.setPw b x).pair = s.pair ∧ (s.setPw b x).mgt = s.mgt ∧ (s.setPw b x).crs = s.crs ∧ (s.setPw b x).tel = s.tel ∧
    (s.setPw b x).out = s.out ∧ (s.setPw b x).drawn = s.drawn ∧ (s.setPw b x).pending = s.pending :=
  ⟨rfl, rfl, rfl, rfl, rfl, rfl, rfl, rfl, rfl, rfl, rfl, rfl, rfl, rfl, rfl, rfl, rfl, rfl, rfl⟩

@[simp] theorem State.updPw_frame (b : Nat) (f : BayPw → BayPw) :
    (s.updPw b f).regs = s.regs ∧ (s.updPw b f).now = s.now ∧ (s.updPw b f).straps = s.straps ∧ (s.updPw b f).itn = s.itn ∧
    (s.updPw b f).hst = s.hst ∧ (s.updPw b f).net = s.net ∧ (s.updPw b f).rdm = s.rdm ∧ (s.updPw b f).cmd = s.cmd ∧
    (s.updPw b f).lay = s.lay ∧ (s.updPw b f).cip = s.cip ∧ (s.updPw b f).drv = s.drv ∧ (s.updPw b f).env = s.env ∧
    (s.updPw b f).pair = s.pair ∧ (s.updPw b f).mgt = s.mgt ∧ (s.updPw b f).crs = s.crs ∧ (s.updPw b f).tel = s.tel ∧
    (s.updPw b f).out = s.out ∧ (s.updPw b f).drawn = s.drawn ∧ (s.updPw b f).pending = s.pending :=
  ⟨rfl, rfl, rfl, rfl, rfl, rfl, rfl, rfl, rfl, rfl, rfl, rfl, rfl, rfl, rfl, rfl, rfl, rfl, rfl⟩

@[simp] theorem State.setPair_frame (f : Pair → Pair) :
    (s.setPair f).regs = s.regs ∧ (s.setPair f).now = s.now ∧ (s.setPair f).straps = s.straps ∧ (s.setPair f).itn = s.itn ∧
    (s.setPair f).hst = s.hst ∧ (s.setPair f).net = s.net ∧ (s.setPair f).rdm = s.rdm ∧ (s.setPair f).cmd = s.cmd ∧
    (s.setPair f).lay = s.lay ∧ (s.setPair f).cip = s.cip ∧ (s.setPair f).drv = s.drv ∧ (s.setPair f).pwr = s.pwr ∧
    (s.setPair f).env = s.env ∧ (s.setPair f).mgt = s.mgt ∧ (s.setPair f).crs = s.crs ∧ (s.setPair f).tel = s.tel ∧
    (s.setPair f).out = s.out ∧ (s.setPair f).drawn = s.drawn ∧ (s.setPair f).pending = s.pending :=
  ⟨rfl, rfl, rfl, rfl, rfl, rfl, rfl, rfl, rfl, rfl, rfl, rfl, rfl, rfl, rfl, rfl, rfl, rfl, rfl⟩

@[simp] theorem State.updJoin_frame (f : Join → Join) :
    (s.updJoin f).regs = s.regs ∧ (s.updJoin f).now = s.now ∧ (s.updJoin f).straps = s.straps ∧ (s.updJoin f).itn = s.itn ∧
    (s.updJoin f).hst = s.hst ∧ (s.updJoin f).net = s.net ∧ (s.updJoin f).rdm = s.rdm ∧ (s.updJoin f).cmd = s.cmd ∧
    (s.updJoin f).lay = s.lay ∧ (s.updJoin f).cip = s.cip ∧ (s.updJoin f).drv = s.drv ∧ (s.updJoin f).pwr = s.pwr ∧
    (s.updJoin f).env = s.env ∧ (s.updJoin f).mgt = s.mgt ∧ (s.updJoin f).crs = s.crs ∧ (s.updJoin f).tel = s.tel ∧
    (s.updJoin f).out = s.out ∧ (s.updJoin f).drawn = s.drawn ∧ (s.updJoin f).pending = s.pending :=
  ⟨rfl, rfl, rfl, rfl, rfl, rfl, rfl, rfl, rfl, rfl, rfl, rfl, rfl, rfl, rfl, rfl, rfl, rfl, rfl⟩

@[simp] theorem State.setLport_frame (m : Nat) (x : LPort) :
    (s.setLport m x).regs = s.regs ∧ (s.setLport m x).now = s.now ∧ (s.setLport m x).straps = s.straps ∧ (s.setLport m x).itn = s.itn ∧
    (s.setLport m x).hst = s.hst ∧ (s.setLport m x).rdm = s.rdm ∧ (s.setLport m x).cmd = s.cmd ∧ (s.setLport m x).lay = s.lay ∧
    (s.setLport m x).cip = s.cip ∧ (s.setLport m x).drv = s.drv ∧ (s.setLport m x).pwr = s.pwr ∧ (s.setLport m x).env = s.env ∧
    (s.setLport m x).pair = s.pair ∧ (s.setLport m x).mgt = s.mgt ∧ (s.setLport m x).crs = s.crs ∧ (s.setLport m x).tel = s.tel ∧
    (s.setLport m x).out = s.out ∧ (s.setLport m x).drawn = s.drawn ∧ (s.setLport m x).pending = s.pending :=
  ⟨rfl, rfl, rfl, rfl, rfl, rfl, rfl, rfl, rfl, rfl, rfl, rfl, rfl, rfl, rfl, rfl, rfl, rfl, rfl⟩

@[simp] theorem State.updLport_frame (m : Nat) (f : LPort → LPort) :
    (s.updLport m f).regs = s.regs ∧ (s.updLport m f).now = s.now ∧ (s.updLport m f).straps = s.straps ∧ (s.updLport m f).itn = s.itn ∧
    (s.updLport m f).hst = s.hst ∧ (s.updLport m f).rdm = s.rdm ∧ (s.updLport m f).cmd = s.cmd ∧ (s.updLport m f).lay = s.lay ∧
    (s.updLport m f).cip = s.cip ∧ (s.updLport m f).drv = s.drv ∧ (s.updLport m f).pwr = s.pwr ∧ (s.updLport m f).env = s.env ∧
    (s.updLport m f).pair = s.pair ∧ (s.updLport m f).mgt = s.mgt ∧ (s.updLport m f).crs = s.crs ∧ (s.updLport m f).tel = s.tel ∧
    (s.updLport m f).out = s.out ∧ (s.updLport m f).drawn = s.drawn ∧ (s.updLport m f).pending = s.pending :=
  ⟨rfl, rfl, rfl, rfl, rfl, rfl, rfl, rfl, rfl, rfl, rfl, rfl, rfl, rfl, rfl, rfl, rfl, rfl, rfl⟩

@[simp] theorem State.setQp_frame (q : Nat) (x : Qp) :
    (s.setQp q x).regs = s.regs ∧ (s.setQp q x).now = s.now ∧ (s.setQp q x).straps = s.straps ∧ (s.setQp q x).itn = s.itn ∧
    (s.setQp q x).hst = s.hst ∧ (s.setQp q x).net = s.net ∧ (s.setQp q x).cmd = s.cmd ∧ (s.setQp q x).lay = s.lay ∧
    (s.setQp q x).cip = s.cip ∧ (s.setQp q x).drv = s.drv ∧ (s.setQp q x).pwr = s.pwr ∧ (s.setQp q x).env = s.env ∧
    (s.setQp q x).pair = s.pair ∧ (s.setQp q x).mgt = s.mgt ∧ (s.setQp q x).crs = s.crs ∧ (s.setQp q x).tel = s.tel ∧
    (s.setQp q x).out = s.out ∧ (s.setQp q x).drawn = s.drawn ∧ (s.setQp q x).pending = s.pending :=
  ⟨rfl, rfl, rfl, rfl, rfl, rfl, rfl, rfl, rfl, rfl, rfl, rfl, rfl, rfl, rfl, rfl, rfl, rfl, rfl⟩

@[simp] theorem State.updQp_frame (q : Nat) (f : Qp → Qp) :
    (s.updQp q f).regs = s.regs ∧ (s.updQp q f).now = s.now ∧ (s.updQp q f).straps = s.straps ∧ (s.updQp q f).itn = s.itn ∧
    (s.updQp q f).hst = s.hst ∧ (s.updQp q f).net = s.net ∧ (s.updQp q f).cmd = s.cmd ∧ (s.updQp q f).lay = s.lay ∧
    (s.updQp q f).cip = s.cip ∧ (s.updQp q f).drv = s.drv ∧ (s.updQp q f).pwr = s.pwr ∧ (s.updQp q f).env = s.env ∧
    (s.updQp q f).pair = s.pair ∧ (s.updQp q f).mgt = s.mgt ∧ (s.updQp q f).crs = s.crs ∧ (s.updQp q f).tel = s.tel ∧
    (s.updQp q f).out = s.out ∧ (s.updQp q f).drawn = s.drawn ∧ (s.updQp q f).pending = s.pending :=
  ⟨rfl, rfl, rfl, rfl, rfl, rfl, rfl, rfl, rfl, rfl, rfl, rfl, rfl, rfl, rfl, rfl, rfl, rfl, rfl⟩

@[simp] theorem State.setMeas_frame (i : Nat) (v : List Byte) :
    (s.setMeas i v).regs = s.regs ∧ (s.setMeas i v).now = s.now ∧ (s.setMeas i v).straps = s.straps ∧ (s.setMeas i v).itn = s.itn ∧
    (s.setMeas i v).hst = s.hst ∧ (s.setMeas i v).net = s.net ∧ (s.setMeas i v).rdm = s.rdm ∧ (s.setMeas i v).cmd = s.cmd ∧
    (s.setMeas i v).lay = s.lay ∧ (s.setMeas i v).cip = s.cip ∧ (s.setMeas i v).drv = s.drv ∧ (s.setMeas i v).pwr = s.pwr ∧
    (s.setMeas i v).env = s.env ∧ (s.setMeas i v).pair = s.pair ∧ (s.setMeas i v).crs = s.crs ∧ (s.setMeas i v).tel = s.tel ∧
    (s.setMeas i v).out = s.out ∧ (s.setMeas i v).drawn = s.drawn ∧ (s.setMeas i v).pending = s.pending :=
  ⟨rfl, rfl, rfl, rfl, rfl, rfl, rfl, rfl, rfl, rfl, rfl, rfl, rfl, rfl, rfl, rfl, rfl, rfl, rfl⟩

end Sys2Proof.Machine
end

