-- ==== Sys2Proof/Laws/Ops.lean ====
section
/-!
SUPPORT. What the operations shared by the meanings do: registers read back, and what telling the control host changes (events, completions,
interrupts).
-/

namespace Sys2Proof.Machine

open Sys2Proof

variable {s t u : State}

/-! ### Registers -/

@[simp] theorem State.rd_wrReg_ne {off o : Nat} {w : Word} (h : o ≠ off) : (s.wrReg off w).rd o = s.rd o := Tab.rd_wr_ne h

theorem State.rd_wrReg (h : Tab.wf regReset s.regs = true) (off : Nat) (w : Word) : (s.wrReg off w).rd off = w :=
  Tab.rd_wr_same (Tab.rising_of_wf h)

@[simp] theorem State.rd_setFld_ne {off o : Nat} {f : Fld} {v : Nat} (h : o ≠ off) : (s.setFld off f v).rd o = s.rd o :=
  State.rd_wrReg_ne h

@[simp] theorem State.fld_setFld_ne {off o : Nat} {f g : Fld} {v : Nat} (h : o ≠ off) : (s.setFld off f v).fld o g = s.fld o g :=
  congrArg g.get (State.rd_setFld_ne h)

theorem State.fld_setFld (h : Tab.wf regReset s.regs = true) {off : Nat} {f : Fld} (v : Nat) (hf : f.fits) :
    (s.setFld off f v).fld off f = v % 2 ^ f.width := by
  rw [State.fld, State.setFld, State.rd_wrReg h, Fld.get_put _ _ _ hf]

theorem State.fld_setFld_apart (h : Tab.wf regReset s.regs = true) {off : Nat} {f g : Fld} (v : Nat) (a : g.apart f) (hg : g.fits) :
    (s.setFld off f v).fld off g = s.fld off g := by
  rw [State.fld, State.setFld, State.rd_wrReg h, Fld.get_put_apart _ _ _ _ a hg, State.fld]

theorem State.wf_wrReg (h : Tab.wf regReset s.regs = true) (off : Nat) (w : Word) : Tab.wf regReset (s.wrReg off w).regs = true := Tab.wf_wr h
theorem State.wf_setFld (h : Tab.wf regReset s.regs = true) (off : Nat) (f : Fld) (v : Nat) :
    Tab.wf regReset (s.setFld off f v).regs = true := Tab.wf_wr h

/-! ### Telling the control host -/

theorem Tells.refl (s : State) : Tells s s := ⟨fun _ _ => rfl, rfl, rfl, rfl, ⟨[], rfl⟩, by simp⟩

theorem Tells.trans (h : Tells s t) (g : Tells t u) : Tells s u where
  regs off ho := (g.regs off ho).trans (h.regs off ho)
  hst := by rw [g.hst, h.hst]
  tel := by rw [g.tel, h.tel]
  pair := by rw [g.pair, h.pair]
  out := by
    obtain ⟨a, ha⟩ := h.out
    obtain ⟨b, hb⟩ := g.out
    exact ⟨b ++ a, by rw [hb, ha, List.append_assoc]⟩
  parts := by
    have a := h.parts
    have b := g.parts
    simp only [a] at b
    exact b

theorem Tells.ite {c : Prop} [Decidable c] (h : Tells s t) (g : Tells s u) : Tells s (if c then t else u) := by
  split
  · exact h
  · exact g

theorem Tells.setFld {off : Nat} (h : tellOff off = true) (f : Fld) (v : Nat) : Tells s (s.setFld off f v) :=
  ⟨fun o ho => State.rd_setFld_ne (fun e => Bool.noConfusion ((e ▸ ho).symm.trans h)), rfl, rfl, rfl, ⟨[], rfl⟩, by simp⟩

theorem Tells.setRing (k : Nat) (r : Ring) : Tells s (s.setRing k r) := ⟨fun _ _ => rfl, rfl, rfl, rfl, ⟨[], rfl⟩, by simp⟩

theorem Tells.emit (o : Out) : Tells s (s.emit o) := ⟨fun _ _ => rfl, rfl, rfl, rfl, ⟨[o], rfl⟩, by simp⟩

theorem Tells.upd {hst tel pair} (hh : hst = { s.hst with rings := hst.rings, evSeq := hst.evSeq, backlog := hst.backlog, lostOwed := hst.lostOwed, started := hst.started })
    (ht : tel = { s.tel with hist := tel.hist, errQ := tel.errQ }) (hp : pair = { s.pair with held := pair.held }) :
    Tells s { s with hst := hst, tel := tel, pair := pair } := ⟨fun _ _ => rfl, hh, ht, hp, ⟨[], rfl⟩, by simp⟩

theorem Fld.get_lt (f : Fld) (w : Word) : f.get w < 2 ^ f.width := Nat.mod_lt _ (Nat.pow_pos (by decide))

theorem Tells.msix (v : Nat) (h : v < 2048) : Tells s (s.msix v) := by
  unfold State.msix
  refine .ite (.setFld ?_ ..) (.emit _)
  simp [tellOff, Reg.MSIX_PBA]; omega

theorem tellOff_ringIdx {k : Nat} (h : k ≤ 64) : tellOff (ringIdx k) = true := by
  by_cases e : k = 64
  · subst e; rfl
  · simp [tellOff, ringIdx, evtRing, Reg.RING_EVT_IDX, Reg.RING_IDX, e]; omega

/-- No register of another block is touched. -/
theorem tellOff_block {off : Nat} (h : off / 0x100000 ≠ 4) : tellOff off = false := by
  simp only [tellOff, Reg.RING_EVT_IDX, Reg.RING_EVT_LOST, Bool.or_eq_false_iff, decide_eq_false_iff_not, beq_eq_false_iff_ne]; omega

/-- Nor are a ring's control and state. -/
theorem tellOff_ring {k : Nat} (h : k ≤ 64) : tellOff (ringCtl k) = false ∧ tellOff (ringStatus k) = false := by
  by_cases e : k = 64
  · subst e; decide
  · simp [tellOff, ringCtl, ringStatus, evtRing, Reg.RING_CTL, Reg.RING_STATUS, Reg.RING_EVT_IDX, Reg.RING_EVT_LOST, e]; omega

theorem Tells.irqCheck (k : Nat) : Tells s (s.irqCheck k) := by
  unfold State.irqCheck
  refine .ite (.trans (.setRing ..) (.msix _ ?_)) (.refl _)
  exact Fld.get_lt _ _

theorem Tells.ringAdvance {k : Nat} (h : k ≤ 64) : Tells s (s.ringAdvance k) := by
  unfold State.ringAdvance
  extract_lets
  exact ((Tells.setFld (tellOff_ringIdx h) _ _).trans (.setRing ..)).trans (.irqCheck k)

theorem Tells.newEvent (code v0 v1 v2 : Nat) : Tells s (s.newEvent code v0 v1 v2).2 := by
  unfold State.newEvent
  extract_lets e h
  clear_value e h
  generalize (s.hst.evSeq + 1) % 4294967296 = q
  generalize List.drop _ _ = hist
  exact ⟨fun _ _ => rfl, rfl, rfl, rfl, ⟨[], rfl⟩, ⟨rfl, rfl, rfl, rfl, rfl, rfl, rfl, rfl, rfl, rfl, rfl, rfl, rfl, rfl, rfl⟩⟩

theorem Tells.payLost : Tells s s.payLost := by
  unfold State.payLost
  refine .ite (.refl _) ?_
  split
  rename_i e s' h
  refine .trans (t := s') ?_ (Tells.upd rfl rfl rfl)
  have g := Tells.newEvent (s := s) Ev.RING_EVENTS_LOST s.hst.lostOwed 0 0
  rwa [h] at g

theorem Tells.postEvent : Tells s s.postEvent := by
  unfold State.postEvent
  split
  · exact .refl _
  · refine .ite ?_ (.refl _)
    extract_lets
    exact (Tells.trans (.upd rfl rfl rfl) (.emit _)).trans (.ringAdvance (by decide))

theorem Tells.postEvents (n : Nat) : Tells s (s.postEvents n) := by
  induction n generalizing s with
  | zero => exact .refl _
  | succ n ih => exact (Tells.postEvent.trans .payLost).trans ih

theorem Tells.drainEvents : Tells s s.drainEvents := Tells.payLost.trans (.postEvents _)

/-- An event touches nothing else. -/
theorem State.raise_tells (s : State) (code v0 v1 v2 : Nat) : Tells s (s.raise code v0 v1 v2) := by
  unfold State.raise
  extract_lets s1
  refine .trans (t := s1) .payLost ?_
  split
  rename_i e s2 h
  have g := Tells.newEvent (s := s1) code v0 v1 v2
  rw [h] at g
  exact g.trans (.ite (.trans (.upd rfl rfl rfl) (.setFld (by decide) ..)) (.trans (.upd rfl rfl rfl) .drainEvents))

/-- A completion posted touches nothing else. -/
theorem State.postCpl_tells (s : State) (d : Desc) (st r0 r1 b : Nat) : Tells s (s.postCpl d st r0 r1 b) := by
  unfold State.postCpl
  extract_lets k r s1 r1 c t
  split
  · exact .refl _
  · have h1 : Tells s s1 := .setRing ..
    refine h1.trans (.ite ((Tells.emit _).trans (.ringAdvance ?_)) (.ite (.setRing ..) (.refl _)))
    omega

/-- A completion touches nothing else. -/
theorem State.complete_tells (s : State) (d : Desc) (st r0 r1 b : Nat) : Tells s (s.complete d st r0 r1 b) := by
  unfold State.complete
  extract_lets _ s1
  have h1 : Tells s s1 := .upd rfl rfl rfl
  exact h1.trans (.ite (.upd rfl rfl rfl) (State.postCpl_tells ..))

theorem State.done_tells (s : State) (d : Desc) (st : Nat) : Tells s (s.done d st) := State.complete_tells ..

theorem State.doneOpt_tells (s : State) (d : Option Desc) (st r0 r1 : Nat) : Tells s (s.doneOpt d st r0 r1) := by
  cases d
  · exact .refl _
  · exact State.complete_tells ..

/-! What each of them leaves alone. -/

@[simp] theorem State.raise_frame (s : State) (code v0 v1 v2 : Nat) :
    (s.raise code v0 v1 v2).now = s.now ∧ (s.raise code v0 v1 v2).straps = s.straps ∧ (s.raise code v0 v1 v2).itn = s.itn ∧
    (s.raise code v0 v1 v2).net = s.net ∧ (s.raise code v0 v1 v2).rdm = s.rdm ∧ (s.raise code v0 v1 v2).cmd = s.cmd ∧
    (s.raise code v0 v1 v2).lay = s.lay ∧ (s.raise code v0 v1 v2).cip = s.cip ∧ (s.raise code v0 v1 v2).drv = s.drv ∧
    (s.raise code v0 v1 v2).pwr = s.pwr ∧ (s.raise code v0 v1 v2).env = s.env ∧ (s.raise code v0 v1 v2).mgt = s.mgt ∧
    (s.raise code v0 v1 v2).crs = s.crs ∧ (s.raise code v0 v1 v2).drawn = s.drawn ∧ (s.raise code v0 v1 v2).pending = s.pending :=
  (s.raise_tells code v0 v1 v2).parts

@[simp] theorem State.raise_hst (s : State) (code v0 v1 v2 : Nat) :
    (s.raise code v0 v1 v2).hst.hosts = s.hst.hosts ∧ (s.raise code v0 v1 v2).hst.chans = s.hst.chans ∧ (s.raise code v0 v1 v2).hst.queue = s.hst.queue ∧
    (s.raise code v0 v1 v2).hst.atSeam = s.hst.atSeam := by
  rw [(s.raise_tells code v0 v1 v2).hst]; simp

@[simp] theorem State.raise_rd (s : State) (code v0 v1 v2 : Nat) {off : Nat} (h : tellOff off = false) : (s.raise code v0 v1 v2).rd off = s.rd off :=
  (s.raise_tells code v0 v1 v2).regs off h

@[simp] theorem State.raise_fld (s : State) (code v0 v1 v2 : Nat) {off : Nat} (f : Fld) (h : tellOff off = false) : (s.raise code v0 v1 v2).fld off f = s.fld off f :=
  congrArg f.get (s.raise_rd code v0 v1 v2 h)

@[simp] theorem State.complete_frame (s : State) (d : Desc) (st r0 r1 b : Nat) :
    (s.complete d st r0 r1 b).now = s.now ∧ (s.complete d st r0 r1 b).straps = s.straps ∧ (s.complete d st r0 r1 b).itn = s.itn ∧
    (s.complete d st r0 r1 b).net = s.net ∧ (s.complete d st r0 r1 b).rdm = s.rdm ∧ (s.complete d st r0 r1 b).cmd = s.cmd ∧
    (s.complete d st r0 r1 b).lay = s.lay ∧ (s.complete d st r0 r1 b).cip = s.cip ∧ (s.complete d st r0 r1 b).drv = s.drv ∧
    (s.complete d st r0 r1 b).pwr = s.pwr ∧ (s.complete d st r0 r1 b).env = s.env ∧ (s.complete d st r0 r1 b).mgt = s.mgt ∧
    (s.complete d st r0 r1 b).crs = s.crs ∧ (s.complete d st r0 r1 b).drawn = s.drawn ∧ (s.complete d st r0 r1 b).pending = s.pending :=
  (s.complete_tells d st r0 r1 b).parts

@[simp] theorem State.complete_hst (s : State) (d : Desc) (st r0 r1 b : Nat) :
    (s.complete d st r0 r1 b).hst.hosts = s.hst.hosts ∧ (s.complete d st r0 r1 b).hst.chans = s.hst.chans ∧ (s.complete d st r0 r1 b).hst.queue = s.hst.queue ∧
    (s.complete d st r0 r1 b).hst.atSeam = s.hst.atSeam := by
  rw [(s.complete_tells d st r0 r1 b).hst]; simp

@[simp] theorem State.complete_rd (s : State) (d : Desc) (st r0 r1 b : Nat) {off : Nat} (h : tellOff off = false) : (s.complete d st r0 r1 b).rd off = s.rd off :=
  (s.complete_tells d st r0 r1 b).regs off h

@[simp] theorem State.complete_fld (s : State) (d : Desc) (st r0 r1 b : Nat) {off : Nat} (f : Fld) (h : tellOff off = false) : (s.complete d st r0 r1 b).fld off f = s.fld off f :=
  congrArg f.get (s.complete_rd d st r0 r1 b h)

@[simp] theorem State.done_frame (s : State) (d : Desc) (st : Nat) :
    (s.done d st).now = s.now ∧ (s.done d st).straps = s.straps ∧ (s.done d st).itn = s.itn ∧ (s.done d st).net = s.net ∧
    (s.done d st).rdm = s.rdm ∧ (s.done d st).cmd = s.cmd ∧ (s.done d st).lay = s.lay ∧ (s.done d st).cip = s.cip ∧
    (s.done d st).drv = s.drv ∧ (s.done d st).pwr = s.pwr ∧ (s.done d st).env = s.env ∧ (s.done d st).mgt = s.mgt ∧
    (s.done d st).crs = s.crs ∧ (s.done d st).drawn = s.drawn ∧ (s.done d st).pending = s.pending :=
  (s.done_tells d st).parts

@[simp] theorem State.done_hst (s : State) (d : Desc) (st : Nat) :
    (s.done d st).hst.hosts = s.hst.hosts ∧ (s.done d st).hst.chans = s.hst.chans ∧ (s.done d st).hst.queue = s.hst.queue ∧
    (s.done d st).hst.atSeam = s.hst.atSeam := by
  rw [(s.done_tells d st).hst]; simp

@[simp] theorem State.done_rd (s : State) (d : Desc) (st : Nat) {off : Nat} (h : tellOff off = false) : (s.done d st).rd off = s.rd off :=
  (s.done_tells d st).regs off h

@[simp] theorem State.done_fld (s : State) (d : Desc) (st : Nat) {off : Nat} (f : Fld) (h : tellOff off = false) : (s.done d st).fld off f = s.fld off f :=
  congrArg f.get (s.done_rd d st h)

@[simp] theorem State.doneOpt_frame (s : State) (d : Option Desc) (st r0 r1 : Nat) :
    (s.doneOpt d st r0 r1).now = s.now ∧ (s.doneOpt d st r0 r1).straps = s.straps ∧ (s.doneOpt d st r0 r1).itn = s.itn ∧
    (s.doneOpt d st r0 r1).net = s.net ∧ (s.doneOpt d st r0 r1).rdm = s.rdm ∧ (s.doneOpt d st r0 r1).cmd = s.cmd ∧
    (s.doneOpt d st r0 r1).lay = s.lay ∧ (s.doneOpt d st r0 r1).cip = s.cip ∧ (s.doneOpt d st r0 r1).drv = s.drv ∧
    (s.doneOpt d st r0 r1).pwr = s.pwr ∧ (s.doneOpt d st r0 r1).env = s.env ∧ (s.doneOpt d st r0 r1).mgt = s.mgt ∧
    (s.doneOpt d st r0 r1).crs = s.crs ∧ (s.doneOpt d st r0 r1).drawn = s.drawn ∧ (s.doneOpt d st r0 r1).pending = s.pending :=
  (s.doneOpt_tells d st r0 r1).parts

@[simp] theorem State.doneOpt_hst (s : State) (d : Option Desc) (st r0 r1 : Nat) :
    (s.doneOpt d st r0 r1).hst.hosts = s.hst.hosts ∧ (s.doneOpt d st r0 r1).hst.chans = s.hst.chans ∧ (s.doneOpt d st r0 r1).hst.queue = s.hst.queue ∧
    (s.doneOpt d st r0 r1).hst.atSeam = s.hst.atSeam := by
  rw [(s.doneOpt_tells d st r0 r1).hst]; simp

@[simp] theorem State.doneOpt_rd (s : State) (d : Option Desc) (st r0 r1 : Nat) {off : Nat} (h : tellOff off = false) : (s.doneOpt d st r0 r1).rd off = s.rd off :=
  (s.doneOpt_tells d st r0 r1).regs off h

@[simp] theorem State.doneOpt_fld (s : State) (d : Option Desc) (st r0 r1 : Nat) {off : Nat} (f : Fld) (h : tellOff off = false) : (s.doneOpt d st r0 r1).fld off f = s.fld off f :=
  congrArg f.get (s.doneOpt_rd d st r0 r1 h)

/-! ### Ring commands -/

theorem Desc.withBays_of_ne {d : Desc} (h : d.opcode ≠ Op.POOL_CREATE) (list : List Byte) : d.withBays list = d := if_neg h

@[simp] theorem Desc.withBays_opcode (d : Desc) (list : List Byte) : (d.withBays list).opcode = d.opcode := by
  unfold Desc.withBays; split <;> rfl

/-- What a ring command does when its descriptor comes next, a POOL_CREATE when its bay list names no bay in use (03 R95): its body runs on the
started descriptor, and an active in lockstep has the standby repeat it where R94 says so. -/
theorem State.ringData_takes {op : Nat} {d : Desc} (h : s.Takes op d) (ok : Bool) (data : List Byte) (body : Desc → State → State)
    (hb : op = Op.POOL_CREATE → s.objectBusy (d.withBays data) = false) :
    s.ringData op ok data body =
      if replicatedOpcodes.contains op then
        (body (d.withBays data) (s.start (d.withBays data))).replicate (.command (d.withBays data).toBytes ok data)
      else body (d.withBays data) (s.start (d.withBays data)) := by
  have hs : (s.start (d.withBays data)).isStandby = s.isStandby := rfl
  have hr : (!standbyOpcodes.contains op && s.isStandby) = false := by
    rcases h.role with e | e
    · simp [e]
    · rw [e]; rfl
  unfold State.ringData
  rw [h.firmware, h.noHold, Bool.not_false, Bool.and_self, if_pos rfl, h.next]
  dsimp only
  rw [if_pos ⟨(Desc.withBays_opcode ..).trans h.code, hb⟩]
  simp only [hs, Bool.and_comm s.isStandby, hr, Bool.false_eq_true, if_false]

/-- The same of every opcode but POOL_CREATE. -/
theorem State.ringData_takes' {op : Nat} {d : Desc} (h : s.Takes op d) (hop : op ≠ Op.POOL_CREATE) (ok : Bool) (data : List Byte)
    (body : Desc → State → State) :
    s.ringData op ok data body =
      if replicatedOpcodes.contains op then (body d (s.start d)).replicate (.command d.toBytes ok data) else body d (s.start d) := by
  have e := Desc.withBays_of_ne (by rw [h.code]; exact hop) data
  have := State.ringData_takes h ok data body (fun e => absurd e hop)
  rwa [e] at this

theorem State.ringCmd_takes {op : Nat} {d : Desc} (h : s.Takes op d) (hop : op ≠ Op.POOL_CREATE) (body : Desc → State → State) :
    s.ringCmd op body =
      if replicatedOpcodes.contains op then (body d (s.start d)).replicate (.command d.toBytes true []) else body d (s.start d) :=
  State.ringData_takes' h hop true [] body

/-- Checks that all hold let the effect take place. -/
theorem State.checked_of_all {d : Desc} {cs : List (Bool × Nat)} {ok : State → State} (h : cs.all (·.1) = true) : s.checked d cs ok = ok s := by
  have : firstFail cs = none := by
    induction cs with
    | nil => rfl
    | cons c cs ih =>
      simp only [List.all_cons, Bool.and_eq_true] at h
      simp [firstFail, h.1, ih h.2]
  simp [State.checked, this]

end Sys2Proof.Machine
end

