-- ==== Sys2Proof/Laws/Regs.lean ====
section
/-!
SUPPORT. What a write of a register changes while the setup lock is open: the fields of that register, and the flags of a refused
configuration.
-/

namespace Sys2Proof.Machine

open Sys2Proof

variable {s t u : State}

/-- `t` differs from `s` only in the register at `off` and, where a configuration was refused, in the flag that says so. -/
structure Writes (off : Nat) (s t : State) : Prop where
  rest : t = { s with regs := t.regs }
  regs : ∀ o, o ≠ off → o ≠ Reg.SWC_STATUS → o ≠ Reg.BAY_GLB_STATUS → t.rd o = s.rd o
  wf : Tab.wf regReset s.regs = true → Tab.wf regReset t.regs = true

theorem Writes.refl (off : Nat) (s : State) : Writes off s s := ⟨rfl, fun _ _ _ _ => rfl, id⟩

theorem Writes.trans {off : Nat} (h : Writes off s t) (g : Writes off t u) : Writes off s u :=
  ⟨by rw [g.rest, h.rest], fun o h1 h2 h3 => (g.regs o h1 h2 h3).trans (h.regs o h1 h2 h3), g.wf ∘ h.wf⟩

theorem Writes.wrReg (s : State) (off : Nat) (w : Word) : Writes off s (s.wrReg off w) :=
  ⟨rfl, fun _ h1 _ _ => State.rd_wrReg_ne h1, fun h => State.wf_wrReg h ..⟩

/-- A refused write sets one of two flags. -/
theorem State.writeFate_refuse {off : Nat} {f : FieldDef} {v r : Nat} {b : Fld} (h : s.writeFate off f v = .refuse r b) :
    r = Reg.SWC_STATUS ∨ r = Reg.BAY_GLB_STATUS := by
  unfold State.writeFate at h
  extract_lets ku s' at h
  have hk : ∀ b : Bool, ku b ≠ .refuse r ‹Fld› := by
    intro b; simp only [ku]; split <;> simp
  split at h <;> first
    | exact absurd h (hk _)
    | cases h
    | (repeat' split at h) <;> first | (cases h; exact .inl rfl) | (cases h; exact .inr rfl) | cases h

theorem State.writeField_writes (s : State) (off : Nat) (w : Word) (f : FieldDef) : Writes off s (s.writeField off w f) := by
  unfold State.writeField
  extract_lets v
  split
  · split
    · exact .refl ..
    · exact .wrReg ..
  · split
    · split
      · exact .wrReg ..
      · exact .refl ..
      · rename_i r b h
        have hr := State.writeFate_refuse h
        refine ⟨rfl, fun o _ h2 h3 => State.rd_setFld_ne ?_, fun h => State.wf_wrReg h ..⟩
        rintro rfl
        exact hr.elim h2 h3
    · exact .refl ..

theorem State.writeFields_writes (fs : List FieldDef) (s : State) (off : Nat) (w : Word) :
    Writes off s (fs.foldl (fun s f => s.writeField off w f) s) := by
  induction fs generalizing s with
  | nil => exact .refl ..
  | cons f fs ih => exact (State.writeField_writes s off w f).trans (ih _)

/-- A register write while the lock is open. -/
theorem State.regWrite_writes (h : s.locked = false) (off : Nat) (w : Word) : Writes off s (s.regWrite off w) := by
  unfold State.regWrite
  split
  · exact .refl ..
  · split
    · exact .refl ..
    · rename_i r _ _
      simp only [h, Bool.and_false, Bool.false_and, Bool.false_eq_true, if_false]
      split
      · exact ⟨rfl, fun _ _ h2 _ => State.rd_setFld_ne h2, fun h => State.wf_wrReg h ..⟩
      · exact State.writeFields_writes ..

theorem Writes.fld {off o : Nat} (h : Writes off s t) (f : Fld) (h1 : o ≠ off) (h2 : o ≠ Reg.SWC_STATUS) (h3 : o ≠ Reg.BAY_GLB_STATUS) :
    t.fld o f = s.fld o f := congrArg f.get (h.regs o h1 h2 h3)

/-! ### The value written -/

/-- The fields of each register of the table lie within its word and share no bit. -/
def RegDef.tidy (r : RegDef) : Bool :=
  r.fields.all (fun f => decide (f.fld.lsb + f.fld.width ≤ 32)) &&
    decide (r.fields.Pairwise fun f g => f.fld.lsb + f.fld.width ≤ g.fld.lsb ∨ g.fld.lsb + g.fld.width ≤ f.fld.lsb)

theorem regTable_tidy : regTable.all RegDef.tidy = true := by decide +kernel

/-- Every register of the blocks, the first of which begins at `lo`, lies in the range of its own block. -/
def blocksHold : Nat → List (Nat × List RegDef) → Bool
  | _, [] => true
  | lo, b :: bs => b.2.all (fun r => r.offsets.all fun o => decide (lo ≤ o) && decide (o < b.1)) && blocksHold b.1 bs

/-- No register lies outside its block (19 R537): `regAt` loses none of `regTable`. -/
theorem regBlocks_hold : blocksHold 0 regBlocks = true := by decide +kernel

theorem regAt_mem {off : Nat} {r : RegDef} (h : regAt off = some r) : r ∈ regTable := by
  unfold regAt at h
  split at h
  · cases h
  · rename_i b hb
    exact List.mem_flatMap.mpr ⟨b, List.mem_of_find?_eq_some hb, List.mem_of_find?_eq_some h⟩

theorem RegDef.tidy_of_at {off : Nat} {r : RegDef} (h : regAt off = some r) : r.tidy = true :=
  List.all_eq_true.mp regTable_tidy r (regAt_mem h)

theorem RegDef.fits {off : Nat} {r : RegDef} (h : regAt off = some r) {f : FieldDef} (hf : f ∈ r.fields) : f.fld.fits := by
  have := RegDef.tidy_of_at h
  simp only [RegDef.tidy, Bool.and_eq_true, List.all_eq_true, decide_eq_true_eq] at this
  exact this.1 f hf

/-- A bit that a masked clear does not name stays. -/
theorem Fld.get_clear_apart (f g : Fld) (w v : Word) (h : g.apart f) (hg : g.fits) : g.get (w &&& ~~~(v &&& f.mask)) = g.get w := by
  refine Nat.eq_of_testBit_eq fun j => ?_
  rw [Fld.get_bit, Fld.get_bit]
  by_cases hj : j < g.width
  · unfold Fld.fits at hg; unfold Fld.apart at h
    have hi : g.lsb + j < 32 := by omega
    have hm := f.mask_bit (g.lsb + j) hi
    have : f.mask.getLsbD (g.lsb + j) = false := by
      rw [← BitVec.testBit_toNat, hm]
      simp only [Bool.and_eq_false_iff, decide_eq_false_iff_not]; omega
    congr 1
    rw [BitVec.testBit_toNat, BitVec.testBit_toNat, BitVec.getLsbD_and, BitVec.getLsbD_not, BitVec.getLsbD_and, this]
    simp [hi]
  · simp [hj]

/-- A write of another field of the register leaves a field apart from it alone. -/
theorem State.writeField_other (hw : Tab.wf regReset s.regs = true) {off : Nat} (h1 : off ≠ Reg.SWC_STATUS) (h2 : off ≠ Reg.BAY_GLB_STATUS)
    (w : Word) (f : FieldDef) {g : Fld} (a : g.apart f.fld) (hg : g.fits) : (s.writeField off w f).fld off g = s.fld off g := by
  unfold State.writeField
  extract_lets v
  split
  · split
    · rfl
    · rw [State.fld, State.rd_wrReg hw, Fld.get_clear_apart _ _ _ _ a hg]; rfl
  · split
    · split
      · exact State.fld_setFld_apart hw _ a hg
      · rfl
      · rename_i r b h
        refine State.fld_setFld_ne ?_
        rintro rfl
        exact (State.writeFate_refuse h).elim h1 h2
    · rfl

theorem State.writeFields_other (fs : List FieldDef) {off : Nat} (h1 : off ≠ Reg.SWC_STATUS) (h2 : off ≠ Reg.BAY_GLB_STATUS) (w : Word)
    {g : Fld} (hg : g.fits) (s : State) (hw : Tab.wf regReset s.regs = true) (a : ∀ f ∈ fs, g.apart f.fld) :
    (fs.foldl (fun s f => s.writeField off w f) s).fld off g = s.fld off g := by
  induction fs generalizing s with
  | nil => rfl
  | cons f fs ih =>
    rw [List.foldl_cons, ih _ ((State.writeField_writes s off w f).wf hw) fun x hx => a x (.tail _ hx)]
    exact State.writeField_other hw h1 h2 w f (a f (.head _)) hg

/-- While the lock is open, a field that software may write and whose meaning puts no condition on it holds the value written (00 R12), unless
the write asks for PFC where 06 R180 refuses it. -/
theorem State.regWrite_fld (hw : Tab.wf regReset s.regs = true) (hl : s.locked = false) {off : Nat} (h1 : off ≠ Reg.SWC_STATUS)
    (h2 : off ≠ Reg.BAY_GLB_STATUS) (h3 : chkSw1 off = false) {r : RegDef} (hr : regAt off = some r) {f : FieldDef} (hf : f ∈ r.fields)
    (ha : f.writable = true) (hu : f.rule = .any) (w : Word) (hp : s.pfcRefused off w r = false) : (s.regWrite off w).fld off f.fld = f.fld.get w := by
  have hfit := RegDef.fits hr hf
  have ht := RegDef.tidy_of_at hr
  simp only [RegDef.tidy, Bool.and_eq_true, decide_eq_true_eq] at ht
  unfold State.regWrite
  simp only [hr, h3, hl, hp, Bool.and_false, Bool.false_and, Bool.false_eq_true, if_false]
  obtain ⟨l, l', e⟩ := List.append_of_mem hf
  rw [e] at ht ⊢
  rw [List.foldl_append, List.foldl_cons]
  have hs := State.writeFields_writes l s off w
  generalize List.foldl _ s l = s1 at hs ⊢
  have hw1 := hs.wf hw
  have hl1 : s1.locked = false := by
    rw [← hl]
    by_cases ho : Reg.GLB_LOCK = off
    · subst ho
      exfalso
      have : (regAt Reg.GLB_LOCK).all fun r => r.fields.all fun f => !(f.writable && decide (f.rule = .any)) := by decide +kernel
      rw [hr] at this
      have := List.all_eq_true.mp this f hf
      simp [ha, hu] at this
    · exact congrArg (· == 1) (hs.fld Fd.GLB_LOCK_LOCKED ho (by decide) (by decide))
  have hset : s1.writeField off w f = s1.setFld off f.fld (f.fld.get w) := by
    have hacc : f.acc ≠ .w1c := by intro c; simp [FieldDef.writable, c] at ha
    simp [State.writeField, hacc, ha, State.lockOpen, hl1, State.writeFate, hu]
  rw [State.writeFields_other l' h1 h2 w hfit _ ((State.writeField_writes s1 off w f).wf hw1), hset, State.fld_setFld hw1 _ hfit,
    Nat.mod_eq_of_lt (Fld.get_lt _ _)]
  intro x hx
  have := (List.pairwise_append.mp ht.2).2.1
  exact (List.pairwise_cons.mp this).1 x hx

end Sys2Proof.Machine
end

