-- ==== Sys2Proof/Certificates/Slice0/Obligations.lean ====
section
/-! DEFINITION. The statements about the model, for the provers: each `Obligations.X : Prop` says what one part of the specification asks of the
commands of that part. A clause whose conclusion is `exec c s = .next t` says that the command completes and gives the whole next state: what
`t` does not mention is unchanged. Numbers such as 03 R79 name chapter and rule. -/

open Sys2Proof Sys2Proof.Machine

/-! ### The machine as a whole -/

/-- A step takes the command at the front of the queue and runs it on the state with the queue's rest. -/
def Obligations.StepRunsTheFrontCommand : Prop :=
  ∀ (c : Instr) (cs : List Instr) (s : State),
    step { s with pending := c :: cs } = exec c { s with pending := cs }

/-- With nothing commanded, the block idles (the model's choice: log entry 1). -/
def Obligations.EmptyQueueIdles : Prop := ∀ s : State, s.pending = [] → step s = .next s

/-- The invariant holds right after reset. -/
def Obligations.ResetMeetsTheInvariant : Prop := State.reset.Inv

/-- Every step keeps the invariant: the register file in canonical form, at most 65,536 events waiting (03 R89), at most 262,144 in the history (18
R532), at most 1,024 records in the schedule log (16 R485). -/
def Obligations.StepKeepsTheInvariant : Prop := ∀ s t : State, s.Inv → step s = .next t → t.Inv

/-- Every command completes, whatever the state, and leaves the queue of waiting commands alone; so every run is safe. -/
def Obligations.EveryCommandCompletes : Prop :=  (∀ (c : Instr) (s : State), ∃ t, exec c s = .next t ∧ t.pending = s.pending) ∧ ∀ (s : State) (n : Nat), Safe s n

/-- Fuses are only ever blown: no command lowers the security version floor, and none changes the keys' revocation bits (16 R482, R497). -/
def Obligations.SecurityFloorNeverFalls : Prop :=  ∀ (c : Instr) (s t : State), exec c s = .next t → s.mgt.floor ≤ t.mgt.floor ∧ t.mgt.revoked = s.mgt.revoked

/-- The straps are sampled when the always-on supply rises, and by no other command (15, Terms; 17 Table 17-6 step 3). -/
def Obligations.StrapsChangeOnlyAtPowerOn : Prop :=
  (∀ (c : Instr) (s t : State), (∀ a b d, c ≠ .powerOnReset a b d) → exec c s = .next t → t.straps = s.straps)
    ∧ ∀ (a b d : Bool) (s : State), ∃ t, exec (.powerOnReset a b d) s = .next t ∧ t.straps = ⟨a, b, d⟩

/-- Ticks pass only at seams: each SEAM counts one, but at the seam of a joining standby, which takes over the active's count (15 R464); a power-on
starts the count again, and no other command touches it. The standby's case is left open here. -/
def Obligations.OnlySeamsCountTicks : Prop :=
  (∀ (c : Instr) (s t : State), c ≠ .seam → (∀ a b d, c ≠ .powerOnReset a b d) → c ≠ .alwaysOnSupplyLoss → exec c s = .next t → t.now = s.now)
    ∧ ∀ s : State, s.pairState ≠ pairJoinStandby → ∃ t, exec .seam s = .next t ∧ t.now = s.now + 1 ∧ t.straps = s.straps

/-- The pair state changes only in a seam's change of state (15 R442); a chip reset, or the loss of the always-on supply, puts it back. -/
def Obligations.PairStateChangesOnlyAtSeamOrReset : Prop :=  ∀ (c : Instr) (s t : State), c ≠ .seam → exec c s = .next t → t.pair.st = s.pair.st ∨ t.pair.st = State.reset.pair.st

/-! ### Registers and the setup lock -/

/-- REGISTER_WRITE (00 R9, R12, Table 0-7): while the setup lock is open, a 4-byte write sets each field that software may write and whose meaning puts
no condition on it. It changes no register of another purpose: none but the register written, the flags of a refused configuration, the pending bits
of interrupts, the LED that SMBUS_EN clears, XOFF_SENT and the PTP slave's state; and no state but the registers, what has been sent and counted, the
rings with their events, the tagging state, the shapers' buckets and the PFC frames that wait. A write of 8 bytes is two writes of 4 bytes, the lower
offset first. -/
def Obligations.RegisterWriteSetsItsFields : Prop :=
  (∀ (s : State) (off : Nat) (w : BitVec 64) (r : RegDef) (f : FieldDef),
    s.Inv → (s.mgtReady || earlyBlock off) = true → s.locked = false → ownRegister off = false → chkSw1 off = false → regAt off = some r → f ∈ r.fields →
    f.writable = true → f.rule = .any → s.pfcRefused off (w.setWidth 32) r = false →
    ∃ t, exec (.registerWrite off 4 w false) s = .next t ∧ t.fld off f.fld = f.fld.get (w.setWidth 32)
      ∧ (∀ o, o ≠ off → o ≠ Reg.SWC_STATUS → o ≠ Reg.BAY_GLB_STATUS → tellOff o = false → (∀ b, o ≠ Reg.BAY_LED b) → (∀ m, o ≠ Reg.MAC_LP_STATUS m) →
          o ≠ Reg.MAC_PTP_STATUS → t.rd o = s.rd o)
      ∧ t = { s with
          regs := t.regs, out := t.out
          hst := { s.hst with rings := t.hst.rings, evSeq := t.hst.evSeq, backlog := t.hst.backlog, lostOwed := t.hst.lostOwed, started := t.hst.started }
          tel := { s.tel with x := t.tel.x, hist := t.tel.hist, errQ := t.tel.errQ, xings := t.tel.xings, acc := t.tel.acc }
          net := { s.net with deficit := t.net.deficit, pfcDue := t.net.pfcDue }
          pair := { s.pair with held := t.pair.held } })
  ∧ ∀ (s : State) (off : Nat) (w : BitVec 64),
      ∃ u, exec (.registerWrite off 4 w false) s = .next u
        ∧ exec (.registerWrite off 8 w false) s = exec (.registerWrite (off + 4) 4 (w >>> 32) false) u

/-- REGISTER_WRITE of a size other than 4 and 8 bytes is ignored (00 R9); one that a handshake crossing abandons is counted once and reaches nothing
(17 R514); one to a block other than GLB, CRS and MGT before management firmware is READY is ignored and counted, once for each of its words (16 R480);
and one of 4 bytes to a register that has a row of its own changes nothing. -/
def Obligations.RegisterWriteThatReachesNothing : Prop :=
  (∀ (s : State) (off size : Nat) (w : BitVec 64) (a : Bool), size ≠ 4 → size ≠ 8 → exec (.registerWrite off size w a) s = .next s)
  ∧ (∀ (s : State) (off size : Nat) (w : BitVec 64), size = 4 ∨ size = 8 →
      exec (.registerWrite off size w true) s = .next (s.satFld Reg.CRS_XING Fd.CRS_XING_ABANDONED_WR 1))
  ∧ (∀ (s : State) (off : Nat) (w : BitVec 64), ownRegister off = false → s.mgtReady = false → earlyBlock off = false →
      exec (.registerWrite off 4 w false) s = .next (s.cntMgt 6 1)
      ∧ (ownRegister (off + 4) = false → earlyBlock (off + 4) = false → exec (.registerWrite off 8 w false) s = .next ((s.cntMgt 6 1).cntMgt 6 1)))
  ∧ ∀ (s : State) (off : Nat) (w : BitVec 64), ownRegister off = true → exec (.registerWrite off 4 w false) s = .next s

/-- A field that the setup lock closes keeps its value, whatever is written at its offset by an access of any size (00 Table 0-7, RWL; 03 R76). -/
def Obligations.LockedFieldsKeepTheirValue : Prop :=
  ∀ (s : State) (off size : Nat) (w : BitVec 64) (a : Bool) (r : RegDef) (f : FieldDef),
    s.Inv → s.locked = true → regAt off = some r → f ∈ r.fields → f.acc = .rwl → s.lockOpen off f = false →
    ∃ t, exec (.registerWrite off size w a) s = .next t ∧ t.fld off f.fld = s.fld off f.fld

/-- Reads. REGISTER_READ_CLEAR of 4 bytes answers the register's value and clears its RC fields (Table 0-7), one of 8 bytes is two of 4 bytes, the lower
offset first, and a narrower one answers the addressed bytes of the register's value (R9); a low word of a counter answers its value and
latches its high word (00 R11), and the next read of the high word answers the latched value and uses it up; MAC_PTP_SEAM_NS latches the seconds of
the same boundary (04 R138); an abandoned read answers 0xFFFF_FFFF and is counted (17 R514). -/
def Obligations.RegisterReadsAnswer : Prop :=
  (∀ (s : State) (off : Nat) (r : RegDef) (f : FieldDef), s.Inv → s.mgtReady = true → Tab.rd (fun _ => none) s.hst.latched off = none →
      regAt off = some r → f ∈ r.fields → f.acc = .rc →
      ∃ t, exec (.registerReadClear ⟨off, 4⟩) s = .next t ∧ t.out = .regRead off (s.readReg off) :: s.out ∧ t.fld off f.fld = 0
        ∧ (∀ o, o ≠ off → t.rd o = s.rd o) ∧ t = { s with regs := t.regs, out := t.out })
  ∧ (∀ (s : State) (off : Nat), off = Reg.ITN_TICK_LO ∨ off = Reg.PAIR_TICK_LO → Tab.rising s.hst.latched = true →
      ∃ t, exec (.counterLowRead ⟨off, 4⟩) s = .next t ∧ t.out = .regRead off (s.readReg off) :: s.out
        ∧ Tab.rd (fun _ => none) t.hst.latched (off + 4) = some (s.readReg (off + 4)) ∧ t.regs = s.regs)
  ∧ (∀ (s : State) (off : Nat) (w : Word), counterLow.contains off = false → Tab.rd (fun _ => none) s.hst.latched off = some w →
      ∃ t, exec (.registerReadClear ⟨off, 4⟩) s = .next t ∧ t.out = .regRead off w :: s.out
        ∧ t = { s with out := t.out, hst := { s.hst with latched := Tab.wr (fun _ => none) s.hst.latched off none } })
  ∧ (∀ s : State, Tab.rising s.hst.latched = true → s.mgtReady = true →
      ∃ t, exec .macPtpSeamNsRead s = .next t ∧ t.out = .regRead Reg.MAC_PTP_SEAM_NS (BitVec.ofNat 32 s.net.seamNs) :: s.out
        ∧ Tab.rd (fun _ => none) t.hst.latched Reg.MAC_PTP_SEAM_SEC_LO = some (BitVec.ofNat 32 s.net.seamSec)
        ∧ Tab.rd (fun _ => none) t.hst.latched Reg.MAC_PTP_SEAM_SEC_HI = some (BitVec.ofNat 32 (s.net.seamSec / 4294967296 % 65536))
        ∧ t.regs = s.regs ∧ t.net = s.net)
  ∧ (∀ (s : State) (off : Nat), ∃ u, exec (.registerReadClear ⟨off, 4⟩) s = .next u
      ∧ exec (.registerReadClear ⟨off, 8⟩) s = exec (.registerReadClear ⟨off + 4, 4⟩) u)
  ∧ (∀ (s : State) (off size : Nat), size ≠ 4 → size ≠ 8 → counterLow.contains (off - off % 4) = false →
      Tab.rd (fun _ => none) s.hst.latched (off - off % 4) = none →
      ∃ t, exec (.registerReadClear ⟨off, size⟩) s = .next t
        ∧ t.out = .regRead off (BitVec.ofNat 32 ((s.readReg (off - off % 4)).toNat / 2 ^ (8 * (off % 4)) % 2 ^ (8 * size))) :: s.out
        ∧ (∀ o, o ≠ off - off % 4 → t.rd o = s.rd o))
  ∧ ∀ (s : State) (off : Nat), s.Inv →
      ∃ t, exec (.abandonedRegisterRead off) s = .next t ∧ t.out = .regRead off 0xFFFFFFFF :: s.out
        ∧ t.fld Reg.CRS_XING Fd.CRS_XING_ABANDONED_RD = min 65535 (s.fld Reg.CRS_XING Fd.CRS_XING_ABANDONED_RD + 1)
        ∧ (∀ o, o ≠ Reg.CRS_XING → t.rd o = s.rd o) ∧ t = { s with regs := t.regs, out := t.out }

/-- GLB_LOCK_SET (19 R542, R543): with an image running, command ring 0 and the event ring RUNNING and a valid shaping tree the lock is set, REFUSED
is cleared and measurement 6 is due; otherwise the code of the first condition that fails, in this order, is recorded and the lock stays open, and SET
may be written again in any state; a write of 0, or one while the lock is set, has no effect. -/
def Obligations.LockSetChecksAndLocks : Prop :=
  (∀ (s : State) (w : Word), s.Inv → s.locked = false → Fd.GLB_LOCK_SET.get w = 1 → s.lockRefusal = none →
      ∃ t, exec (.glbLockSet w) s = .next t ∧ t.locked = true ∧ t.fld Reg.GLB_LOCK Fd.GLB_LOCK_REFUSED = 0 ∧ t.mgt.meas6Due = true
        ∧ (∀ o, o ≠ Reg.GLB_LOCK → t.rd o = s.rd o) ∧ t = { s with regs := t.regs, mgt := { s.mgt with meas6Due := true } })
  ∧ (∀ (s : State) (w : Word) (c : Nat), s.Inv → s.locked = false → Fd.GLB_LOCK_SET.get w = 1 → s.lockRefusal = some c →
      ∃ t, exec (.glbLockSet w) s = .next t ∧ t.locked = false ∧ t.fld Reg.GLB_LOCK Fd.GLB_LOCK_REFUSED = c
        ∧ (∀ o, o ≠ Reg.GLB_LOCK → o ≠ Reg.TMG_STATUS → t.rd o = s.rd o) ∧ t = { s with regs := t.regs })
  ∧ (∀ (s : State) (w : Word), Fd.GLB_LOCK_SET.get w = 0 ∨ s.locked = true → exec (.glbLockSet w) s = .next s)
  ∧ ∀ s : State, s.lockRefusal = if s.itn.running = false then some 1
      else if s.ringState 0 ≠ ringRunning ∨ s.ringState evtRing ≠ ringRunning then some 2 else if s.treeFault ≠ none then some 3 else none

/-- The selectors of a snapshot: once management is READY, a write sets the field (two of TEL_CTR_SEL while the lock is open) and asks for the
snapshot of the next seam (05 R149, 07 R202, 09 R274, 11 R348, 18 R523; MGT_MEAS_SEL takes 1 to 9 only, 16 R486); it changes nothing else. -/
def Obligations.SelectorWritesAskForASnapshot : Prop :=
  (∀ (s : State) (w : Word), s.Inv → s.mgtReady = true →
      (∃ t, exec (.rdmQpSelWrite w) s = .next t ∧ t.fld Reg.RDM_QP_SEL Fd.RDM_QP_SEL_QPN = Fd.RDM_QP_SEL_QPN.get w
        ∧ (∀ o, o ≠ Reg.RDM_QP_SEL → t.rd o = s.rd o) ∧ t = { s with regs := t.regs, rdm := { s.rdm with selDue := true } })
      ∧ (∃ t, exec (.tmgChanSelWrite w) s = .next t ∧ t.fld Reg.TMG_CHAN_SEL Fd.TMG_CHAN_SEL_HANDLE = Fd.TMG_CHAN_SEL_HANDLE.get w
        ∧ (∀ o, o ≠ Reg.TMG_CHAN_SEL → t.rd o = s.rd o) ∧ t = { s with regs := t.regs, net := { s.net with tmgSel := true } })
      ∧ (∃ t, exec (.layVolSelWrite w) s = .next t ∧ t.fld Reg.LAY_VOL_SEL Fd.LAY_VOL_SEL_VOLUME = Fd.LAY_VOL_SEL_VOLUME.get w
        ∧ (∀ o, o ≠ Reg.LAY_VOL_SEL → t.rd o = s.rd o) ∧ t = { s with regs := t.regs, lay := { s.lay with selDue := true } })
      ∧ (∃ t, exec (.cipKeySelWrite w) s = .next t ∧ t.fld Reg.CIP_KEY_SEL Fd.CIP_KEY_SEL_SLOT = Fd.CIP_KEY_SEL_SLOT.get w
        ∧ (∀ o, o ≠ Reg.CIP_KEY_SEL → t.rd o = s.rd o) ∧ t = { s with regs := t.regs, cip := { s.cip with selDue := true } })
      ∧ ∃ t, exec (.telCtrSelWrite w) s = .next t
        ∧ (s.locked = false → t.fld Reg.TEL_CTR_SEL Fd.TEL_CTR_SEL_GROUP = Fd.TEL_CTR_SEL_GROUP.get w
            ∧ t.fld Reg.TEL_CTR_SEL Fd.TEL_CTR_SEL_INDEX = Fd.TEL_CTR_SEL_INDEX.get w)
        ∧ t.fld Reg.TEL_CTR_SEL Fd.TEL_CTR_SEL_INSTANCE = Fd.TEL_CTR_SEL_INSTANCE.get w
        ∧ (∀ o, o ≠ Reg.TEL_CTR_SEL → t.rd o = s.rd o) ∧ t = { s with regs := t.regs, tel := { s.tel with ctrDue := true } })
  ∧ ∀ (s : State) (w : Word), s.Inv →
      ∃ t, exec (.mgtMeasSelWrite w) s = .next t ∧ t.mgt = { s.mgt with measDue := true }
        ∧ t.fld Reg.MGT_MEAS_SEL Fd.MGT_MEAS_SEL_INDEX
            = (if 1 ≤ Fd.MGT_MEAS_SEL_INDEX.get w ∧ Fd.MGT_MEAS_SEL_INDEX.get w ≤ 9 then Fd.MGT_MEAS_SEL_INDEX.get w
               else s.fld Reg.MGT_MEAS_SEL Fd.MGT_MEAS_SEL_INDEX)
        ∧ (∀ o, o ≠ Reg.MGT_MEAS_SEL → t.rd o = s.rd o) ∧ t = { s with regs := t.regs, mgt := t.mgt }

/-! ### The control host interface -/

/-- RING_CTL written with ENABLE 1 (03 R79, Table 3-3): a DISABLED ring whose setup is valid is RUNNING with index 0, phase 1 and no entry posted;
with an invalid setup it stays DISABLED and ERR_STATUS says RING_FORMAT. Enabling the event ring raises the reports that wait for it and posts the
backlog. RING_CTL written with ENABLE 0 (03 R80): a command ring that is not DISABLED stops fetching and drains; once no descriptor started from it remains, it is
DISABLED, and the RING_DELETE that waited for it completes (R102). The event ring is DISABLED at once. -/
def Obligations.RingsAreEnabledAndDisabled : Prop :=
  (∀ (s : State) (w : Word) (k : Nat) (u : State), s.Inv → s.mgtReady = true → s.locked = false → k ≤ evtRing → Fd.RING_CTL_ENABLE.get w = 1 →
    s.ringState k = ringDisabled → u = s.regWrite (ringCtl k) w →
    let v := (((u.setFld (ringCtl k) Fd.RING_CTL_ENABLE 1).setRingState k ringRunning).wrReg (ringIdx k) 0).setRing k
      { Ring.reset with entries := s.fld (ringSize k) Fd.RING_SIZE_ENTRIES, outst := (s.ring k).outst }
    let bad := u.setFld (ringStatus k) Fd.RING_STATUS_ERR_STATUS St.RING_FORMAT
    v.ringState k = ringRunning ∧ v.fld (ringCtl k) Fd.RING_CTL_ENABLE = 1 ∧ v.rd (ringIdx k) = 0 ∧ bad.ringState k = ringDisabled
      ∧ (entriesOk (s.fld (ringSize k) Fd.RING_SIZE_ENTRIES) = true →
          (∀ h : k < 64, exec (.ringCtlEnable ⟨k, h⟩ w) s = .next (v.irqCheck k))
          ∧ (k = evtRing → exec (.ringEvtCtlEnable w) s = .next (v.owedReports.drainEvents.irqCheck k)))
      ∧ (entriesOk (s.fld (ringSize k) Fd.RING_SIZE_ENTRIES) = false →
          (∀ h : k < 64, exec (.ringCtlEnable ⟨k, h⟩ w) s = .next (bad.irqCheck k))
          ∧ (k = evtRing → exec (.ringEvtCtlEnable w) s = .next (bad.irqCheck k))))
  ∧ ((∀ (s : State) (k : Fin 64) (w : Word), s.Inv → s.mgtReady = true → s.locked = false → Fd.RING_CTL_ENABLE.get w = 0 → s.ringState k ≠ ringDisabled →
      ∃ u : State, exec (.ringCtlDisable k w) s = .next (u.irqCheck k) ∧ u.ringState k = s.ringState k ∧ u.fld (ringCtl k) Fd.RING_CTL_ENABLE = 0 ∧ u.canFetch k = false
        ∧ (∀ o, o ≠ ringCtl k → o ≠ Reg.SWC_STATUS → o ≠ Reg.BAY_GLB_STATUS → u.rd o = s.rd o)
        ∧ u = { s.setRing k { s.ring k with draining := true } with regs := u.regs })
  ∧ (∀ (s : State) (w : Word), s.Inv → s.mgtReady = true → s.locked = false → Fd.RING_CTL_ENABLE.get w = 0 → s.ringState evtRing ≠ ringDisabled →
      s.ringBusy evtRing = false → Tab.rising s.hst.rings = true →
      ∃ t, exec (.ringEvtCtlDisable w) s = .next t ∧ t.ringState evtRing = ringDisabled ∧ t.fld Reg.RING_EVT_CTL Fd.RING_CTL_ENABLE = 0)
  ∧ ∀ (s : State) (k : Fin 64), s.ringBusy k = false → (s.ring k).draining = true ∨ (s.ring k).deleting ≠ none →
      exec (.ringDisableDrained k) s = .next
        ((((s.setRing k { s.ring k with
              draining := false, deleting := none, held := [],
              resetup := (s.ring k).resetup || (s.ring k).draining && (s.ringState k == ringError || s.ringState k == ringStopped) }).setRingState k
            ringDisabled).setFld (ringCtl k) Fd.RING_CTL_ENABLE 0).doneOpt (s.ring k).deleting St.OK 0 0))

/-- Doorbells (03 R81, R82, R84): a value below the ring's length moves the producer index, and a consumer index that frees no more than is posted
moves too, with the entries left counted again (R98); a value out of range puts the RUNNING ring in ERROR and raises RING_DOORBELL_ERR. The event
doorbell then posts the backlog into the freed slots. -/
def Obligations.DoorbellsMoveTheIndices : Prop :=
  ∀ (s : State) (k : Fin 64) (v : Word), s.mgtReady = true →
    (s.ringState k = ringRunning → s.fld (ringCtl k) Fd.RING_CTL_ENABLE = 1 → v.toNat ≠ (s.ring k).producer →
      (v.toNat < (s.ring k).entries → exec (.commandDoorbell k v) s = .next (s.setRing k { s.ring k with producer := v.toNat }))
      ∧ ((s.ring k).entries ≤ v.toNat →
          exec (.commandDoorbell k v) s = .next (s.ringToError k Ev.RING_DOORBELL_ERR k.val k.val v.toNat)))
    ∧ (s.ringState k = ringRunning →
        let e := (s.ring k).entries
        let left := (s.ringTail k + e - v.toNat) % e
        (v.toNat < e → (v.toNat + e - (s.ring k).cons) % e ≤ (s.ringTail k + e - (s.ring k).cons) % e →
          exec (.completionDoorbell k v) s = .next ((s.setRing k (if (s.ring k).sent
            then { s.ring k with cons := v.toNat, sent := false, unsig := left, firstUnsig := s.now }
            else { s.ring k with cons := v.toNat, unsig := min (s.ring k).unsig left })).irqCheck k))
        ∧ (e ≤ v.toNat ∨ (s.ringTail k + e - (s.ring k).cons) % e < (v.toNat + e - (s.ring k).cons) % e →
          exec (.completionDoorbell k v) s = .next (s.ringToError k Ev.RING_DOORBELL_ERR k.val (64 + k.val) v.toNat)))
    ∧ (s.ringState evtRing = ringRunning → v.toNat < (s.ring evtRing).entries →
        (v.toNat + (s.ring evtRing).entries - (s.ring evtRing).cons) % (s.ring evtRing).entries
          ≤ (s.ringTail evtRing + (s.ring evtRing).entries - (s.ring evtRing).cons) % (s.ring evtRing).entries →
        ∃ r : Ring, r.cons = v.toNat ∧ exec (.eventDoorbell v) s = .next (((s.setRing evtRing r).irqCheck evtRing).drainEvents))

/-- Fetching (03 R78, R82, R85, R90 to R92): the ring whose turn it is is read at slot CMD_HEAD, 64 bytes; the head moves by one, the descriptor counts in
the ring's turn and as outstanding. A NOP completes at fetch with success, an unknown opcode with GEN_OPCODE, a reserved flag with GEN_FIELD; one that
a FENCE holds back waits; any other enters the management work queue, or, when its level is full, completes with MGT_BUSY_RETRY and a back-off that the
spec leaves open, as does one that has waited past its limit. A ring whose turn it is not is not read. -/
def Obligations.DescriptorsAreFetched : Prop :=
  (∀ (s : State) (k : Fin 64) (bytes : List Byte) (d : Desc) (u : State), s.fetchRing = some k.val → d = Desc.ofBytes k s.hst.fetchSeq s.now bytes →
      (let h := s.fld (Reg.RING_IDX k) Fd.RING_IDX_CMD_HEAD
       let n := if s.hst.turn = k ∧ s.hst.turnCount < turnLimit then s.hst.turnCount + 1 else 1
       let a := (({ s with hst := { s.hst with turn := k, turnCount := n } } : State).emit (.hostRead (s.cmdSlot k h) 64)).setFld (Reg.RING_IDX k)
         Fd.RING_IDX_CMD_HEAD (if (s.ring k).entries ≤ h + 1 then 0 else h + 1)
       let b := a.setRing k { s.ring k with outst := (s.ring k).outst + 1 }
       u = { b with hst := { b.hst with fetchSeq := s.hst.fetchSeq + 1 } }) →
      (opcodes.contains d.opcode = false → exec (.descriptorFetch k bytes) s = .next (u.done d St.GEN_OPCODE))
      ∧ (opcodes.contains d.opcode = true → 8 ≤ d.flags → exec (.descriptorFetch k bytes) s = .next (u.done d St.GEN_FIELD))
      ∧ (opcodes.contains d.opcode = true → d.flags < 8 → d.opcode ≠ Op.NOP →
          (u.fenceHeld d = true → exec (.descriptorFetch k bytes) s = .next { u with hst := { u.hst with queue := u.hst.queue ++ [{ d with late := true }] } })
          ∧ (u.fenceHeld d = false → u.levelCount d.prio < 1024 →
              exec (.descriptorFetch k bytes) s = .next { u with hst := { u.hst with queue := u.hst.queue ++ [d] } })
          ∧ (u.fenceHeld d = false → 1024 ≤ u.levelCount d.prio →
              ∃ b, 100 ≤ b ∧ b ≤ 100000 ∧ exec (.descriptorFetch k bytes) s = .next ({ u with drawn := u.drawn + 1 }.complete d St.MGT_BUSY_RETRY 0 0 b)))
      ∧ (d.opcode = Op.NOP → d.flags < 8 →
          (d.handle = 0 → d.reservedZero [] = true → exec (.nop k bytes) s = .next (u.done d St.OK))
          ∧ (d.handle ≠ 0 ∨ d.reservedZero [] = false → exec (.nop k bytes) s = .next (u.done d St.GEN_FIELD))))
  ∧ (∀ (s : State) (k : Fin 64) (bytes : List Byte), s.fetchRing ≠ some k.val →
      exec (.descriptorFetch k bytes) s = .next s ∧ exec (.nop k bytes) s = .next s)
  ∧ ∀ (s : State) (d : Desc), (s.hst.queue.find? fun d => d.overdue s.now || s.overfull d) = some d →
      ∃ b, 100 ≤ b ∧ b ≤ 100000 ∧ exec .mgtBusyRetry s = .next
        ({ s with hst := { s.hst with queue := s.hst.queue.filter fun e => e.seq ≠ d.seq }, drawn := s.drawn + 1 }.complete d St.MGT_BUSY_RETRY 0 0 b)

/-- What stops a ring or tells the host (03 R98, R99, Table 3-3): an unsuccessful DMA puts a RUNNING ring in ERROR and raises RING_DMA_ERR; once
TIME_US has passed since the first entry not signalled its message is sent; an endpoint reset puts each RUNNING or ERROR ring in STOPPED, raises
RING_STOPPED once and aborts the copy of a dump; the channel's clock is shown as lost when it is (17 R500). -/
def Obligations.RingsStopAndSignal : Prop :=
  (∀ (s : State) (k : Fin 65) (addr : BitVec 64), s.Inv → s.ringState k = ringRunning →
      ∃ t, exec (.ringDmaErr k addr) s = .next t ∧ t.ringState k = ringError
        ∧ Tells ((s.setRingState k ringError).setFld (ringStatus k) Fd.RING_STATUS_ERR_STATUS Ev.RING_DMA_ERR) t)
  ∧ (∀ (s : State) (k : Fin 65), s.fld (ringCtl k) Fd.RING_CTL_IRQ_EN = 1 → (s.ring k).sent = false → 0 < (s.ring k).unsig →
      0 < s.fld (ringCoal k) Fd.RING_COAL_TIME_US → s.fld (ringCoal k) Fd.RING_COAL_TIME_US * 125 ≤ (s.now - (s.ring k).firstUnsig) * 128 →
      exec (.msixCoalesceTimeout k) s = .next ((s.setRing k { s.ring k with sent := true, unsig := 0 }).msix (s.fld (ringCtl k) Fd.RING_CTL_VECTOR)))
  ∧ ∀ (s u : State) (kind : Fin 4), s.Inv → u = (s.stopRings kind).copyAbort →
      exec (.endpointReset kind false) s = .next u
        ∧ exec (.endpointReset kind true) s = .next { u.clockSet 7 0 false with crs := { u.crs with linkUp := false } }
        ∧ (∀ k < 65, s.ringState k = ringRunning ∨ s.ringState k = ringError → u.ringState k = ringStopped)
        ∧ (∀ k < 65, s.ringState k ≠ ringRunning → s.ringState k ≠ ringError → u.ringState k = s.ringState k)
        ∧ u.flag Reg.TEL_STATUS Fd.TEL_STATUS_DUMPING = false

/-- The ring and host opcodes (03 R102, R103). RING_CREATE writes the setup into the ring's registers and enables it; RING_DELETE waits until the
named ring has drained; HOST_ADD and HOST_REMOVE fill and clear an entry of the host table. -/
def Obligations.RingAndHostCommands : Prop :=
  (∀ (s : State) (d : Desc), s.Takes Op.RING_CREATE d → d.handle = 0 →
      d.reservedZero [(8, 1), (10, 2), (12, 4), (16, 8), (24, 8), (32, 2), (34, 2)] = true → 0 < d.f 8 1 → d.f 8 1 ≤ 63 → d.f 10 2 ≤ 2047 →
      entriesOk (d.f 12 4) = true → d.f 16 8 % 4096 = 0 → d.f 24 8 % 4096 = 0 → s.ringState (d.f 8 1) = ringDisabled → s.Inv →
      let k := d.f 8 1
      let a := (((((s.start d).wrReg (Reg.RING_CMD_BASE_LO k) (BitVec.ofNat 32 (d.f 16 8))).wrReg (Reg.RING_CMD_BASE_HI k)
        (BitVec.ofNat 32 (d.f 16 8 / 4294967296))).wrReg (Reg.RING_CPL_BASE_LO k) (BitVec.ofNat 32 (d.f 24 8))).wrReg (Reg.RING_CPL_BASE_HI k)
        (BitVec.ofNat 32 (d.f 24 8 / 4294967296)))
      let b := (((a.setFld (Reg.RING_SIZE k) Fd.RING_SIZE_ENTRIES (d.f 12 4)).setFld (Reg.RING_CTL k) Fd.RING_CTL_VECTOR (d.f 10 2)).setFld
        (Reg.RING_COAL k) Fd.RING_COAL_COUNT (d.f 32 2)).setFld (Reg.RING_COAL k) Fd.RING_COAL_TIME_US (d.f 34 2)
      exec .ringCreate s = .next (((((b.setFld (ringCtl k) Fd.RING_CTL_ENABLE 1).setRingState k ringRunning).wrReg (ringIdx k) 0).setRing k
        { Ring.reset with entries := d.f 12 4, outst := (s.ring (d.f 8 1)).outst }).done d St.OK))
  ∧ (∀ (s : State) (d : Desc), s.Takes Op.RING_DELETE d → d.handle = 0 → d.reservedZero [(8, 1)] = true → d.f 8 1 ≤ 63 → d.f 8 1 ≠ d.ring →
      0 < d.f 8 1 → s.ringState (d.f 8 1) ≠ ringDisabled →
      exec .ringDelete s = .next ((s.start d).setRing (d.f 8 1) { s.ring (d.f 8 1) with deleting := some d }))
  ∧ (∀ (s : State) (d : Desc) (nqn : List Byte), s.Takes Op.HOST_ADD d → d.handle = 0 → d.reservedZero [(8, 2), (16, 8), (24, 16)] = true →
      d.f 8 2 ≤ 16383 → cString (nqn.take 256) ≠ [] → (cString (nqn.take 256)).length < 224 → (s.hostEnt (d.f 8 2)).nqn = [] →
      (∀ e ∈ s.hst.hosts, e.2.nqn ≠ cString (nqn.take 256)) →
      exec (.hostAdd true nqn) s = .next ((((s.start d).setHost (d.f 8 2) { nqn := cString (nqn.take 256), hostid := d.bytes 24 16 }).done d St.OK).replicate
        (.command d.toBytes true nqn)))
  ∧ ∀ (s : State) (d : Desc), s.Takes Op.HOST_REMOVE d → d.handle = 0 → d.reservedZero [(8, 2)] = true → d.f 8 2 ≤ 16383 →
      (s.hostEnt (d.f 8 2)).nqn ≠ [] → (∀ c ∈ s.liveChans, (s.chan c).host ≠ d.f 8 2) → s.hostConnected (d.f 8 2) = false →
      exec .hostRemove s = .next ((((s.start d).setHost (d.f 8 2) HostEnt.reset).done d St.OK).replicate (.command d.toBytes true []))

/-! ### The itinerary -/

/-- Image loads (02 R59, Table 2-9): a request for an EMPTY or READY buffer makes it LOADING, by command or by ITN_CTL.LOAD, and one for any other buffer
is refused with ITN_BUSY; when the copy has ended, an image that passes the checks of Table 2-8 is READY, its IMAGE_ID is shown and its measurement
recorded, and one that fails leaves the buffer EMPTY with the status of the first check that fails. The request completes with that status. An active
in lockstep sends a checked image to its standby first (15 R449). -/
def Obligations.ImagesAreLoaded : Prop :=
  (∀ (s u : State) (d : Desc) (b : Bool), s.Takes Op.IMG_LOAD d → u = s.start d → d.handle = 0 → d.reservedZero [(8, 1), (16, 8), (24, 4)] = true →
      d.f 8 1 = b2n b → d.aligned 16 4096 = true →
      ((u.buf b).st = .empty ∨ (u.buf b).st = .ready →
        exec .imgLoad s = .next ((((u.setBuf b { st := .loading, bytes := [], img := Image.blank, loader := some d, loadSize := d.f 24 4 }).wrReg
          (Reg.ITN_IMAGE_ID_LO (b2n b)) 0).wrReg (Reg.ITN_IMAGE_ID_HI (b2n b)) 0).setMeas (7 + b2n b) (zeros 48)))
      ∧ ((u.buf b).st ≠ .empty → (u.buf b).st ≠ .ready → exec .imgLoad s = .next ((u.loadStatus St.ITN_BUSY).done d St.ITN_BUSY)))
  ∧ (∀ (s u : State) (w : Word) (b : Bool), s.mgtReady = true → s.locked = false → Fd.ITN_CTL_LOAD.get w = 1 → u = s.regWrite Reg.ITN_CTL w →
      b = u.flag Reg.ITN_CTL Fd.ITN_CTL_BUF → (u.buf b).st = .empty ∨ (u.buf b).st = .ready →
      exec (.itnCtlLoad w) s = .next ((((u.setBuf b { st := .loading, bytes := [], img := Image.blank, loader := none, loadSize := u.fld Reg.ITN_LOAD_SIZE Fd.ITN_LOAD_SIZE_SIZE }).wrReg
        (Reg.ITN_IMAGE_ID_LO (b2n b)) 0).wrReg (Reg.ITN_IMAGE_ID_HI (b2n b)) 0).setMeas
        (7 + b2n b) (zeros 48)))
  ∧ ∀ (s : State) (b ok : Bool) (bytes : List Byte), (s.buf b).st = .loading →
      exec (.imageCopyComplete b ok bytes) s = .next (match s.imageVerdict b ok bytes with
        | some c => ((s.loadStatus c).setBuf b ImgBuf.reset).doneOpt (s.buf b).loader c 0 0
        | none =>
          if s.pairState = pairPaired then (s.setBuf b { s.buf b with bytes := bytes }).mgtSend (.image b bytes)
          else (((((s.loadStatus St.OK).setBuf b
            { st := .ready, bytes := bytes, img := readImage bytes, loader := none, loadSize := (s.buf b).loadSize }).wrReg
            (Reg.ITN_IMAGE_ID_LO (b2n b)) (BitVec.ofNat 32 (readImage bytes).id)).wrReg
            (Reg.ITN_IMAGE_ID_HI (b2n b)) (BitVec.ofNat 32 ((readImage bytes).id / 4294967296))).setMeas (7 + b2n b) (readImage bytes).meas).doneOpt
            (s.buf b).loader St.OK 0 0)

/-- Swaps and the start of the sequencer (02 R60 to R62): an accepted swap is pending for the next seam when its mode is 0 and the image allows it,
and for the cycle's end otherwise; at its seam the two buffers change places, the variant for the fault in force is taken over and ITN_SWAPPED is
raised; a refused swap changes nothing but ITN_LOAD_STATUS. START runs buffer A from tick 0. Variants (02 R71): an accepted VARIANT_EXIT waits for the
next seam, one that names another variant or comes too soon is refused with GEN_STATE; once variant 0 is restored a moved channel returns to its home
cluster at the first seam at which it has no waybill in flight, and its commands that are not yet admitted go with it. That ITN_SWAPPED and
CHANNEL_RETURN_HOME take effect only where SEAM follows is the model's choice (log entry 122). -/
def Obligations.ImagesAreSwappedAndVariantsLeft : Prop :=
  ((∀ (s u : State) (d : Desc), s.Takes Op.IMG_SWAP d → u = s.start d → d.handle = 0 → d.reservedZero [(8, 1)] = true → d.f 8 1 ≤ 1 →
      (u.swapRefusal = none →
        let v := u.setBuf (!u.itn.activeB) { u.buf (!u.itn.activeB) with st := .pending }
        let n := if d.f 8 1 = 0 ∧ natBit (u.buf (!u.itn.activeB)).img.flags 0 then 1 else 2
        exec .imgSwap s = .next ({ v with itn := { v.itn with swapPend := n, swapDesc := some d } }.replicate (.command d.toBytes true [])))
      ∧ ∀ c, u.swapRefusal = some c → exec .imgSwap s = .next (((u.loadStatus c).done d c).replicate (.command d.toBytes true [])))
  ∧ (∀ (s u : State) (w : Word), s.mgtReady = true → s.locked = false → Fd.ITN_CTL_SWAP.get w = 1 → u = s.regWrite Reg.ITN_CTL w → u.swapRefusal = none →
      let v := u.setBuf (!u.itn.activeB) { u.buf (!u.itn.activeB) with st := .pending }
      exec (.itnCtlSwap w) s = .next { v with itn := { v.itn with
        swapPend := if natBit (u.buf (!u.itn.activeB)).img.flags 0 then 1 else 2, swapDesc := none } })
  ∧ (∀ s : State, s.changesRun = true → s.swapDue = true →
      let b := !s.itn.activeB
      let u := (s.setBuf s.itn.activeB { s.buf s.itn.activeB with st := .ready })
      let v := u.setBuf b { u.buf b with st := .running }
      let x : State := { v with itn := { v.itn with activeB := b, swapPend := 0, swapDesc := none, variant := (s.variantIn (s.buf b).img).getD 0 } }
      let y := (x.replaceWork.loadStatus St.OK).raise Ev.ITN_SWAPPED (x.img.id % 4294967296) (x.img.id / 4294967296) 0
      y.img = x.img ∧ exec .itnSwapped s = .next (((y.schedEvent 2 0).seamEntry 2 (leBytes 1 (b2n b))).doneOpt s.itn.swapDesc St.OK y.img.id 0))
  ∧ ∀ (s u : State) (w : Word), s.mgtReady = true → s.locked = false → Fd.ITN_CTL_START.get w = 1 → u = s.regWrite Reg.ITN_CTL w →
      u.itn.running = false → u.itn.stopped = false → u.itn.bufA.st = .ready → u.flag Reg.CRS_STATUS Fd.CRS_STATUS_HBM_READY = true →
      exec (.itnCtlStart w) s = .next { (u.setFld Reg.ITN_CTL Fd.ITN_CTL_START 1) with
        itn := { u.itn with bufA := { u.itn.bufA with st := .running }, running := true, starting := true, activeB := false, tick := 0 } })
  ∧ ((∀ (s u : State) (d : Desc), s.Takes Op.VARIANT_EXIT d → u = s.start d → d.handle = 0 → d.reservedZero [(8, 1)] = true →
      1 ≤ d.f 8 1 → d.f 8 1 ≤ 16 →
      (u.itn.running = true → u.itn.variant = d.f 8 1 → u.itn.exitDesc = none → u.exitOk = true →
        exec .variantExit s = .next ({ u with itn := { u.itn with exitDesc := some d } }.replicate (.command d.toBytes true [])))
      ∧ (u.itn.running = false ∨ u.itn.variant ≠ d.f 8 1 ∨ u.itn.exitDesc ≠ none ∨ u.exitOk = false → exec .variantExit s = .next ((u.done d St.GEN_STATE).replicate (.command d.toBytes true []))))
  ∧ ∀ (s : State) (c : Fin 262144), s.changesRun = true → (s.chan c).st ≠ .free → (s.chan c).cluster ≠ (s.chan c).home →
      s.itn.variant = 0 → s.inFlight c = 0 →
      exec (.channelReturnHome c) s = .next (s.setChan c { s.chan c with cluster := (s.chan c).home }).moveCapsules)

/-! ### Channels -/

/-- The channel opcodes (03 R107 to R111): with their checks passed, CHAN_CREATE, CHAN_MODIFY and CHAN_DESTROY take effect at the next seam;
CHAN_QUERY answers the state, class, clusters, host, namespace and commands in flight; CHAN_LIST writes the records of up to N live channels from
FIRST on and answers their count and the index of the next. The life of a channel (03 R105 to R110): bound at its seam on the cluster of R47 with a
full bucket; once CLOSING, and after the seam at which it became so, it is FREE when no waybill of it is in flight, its generation advances, its index
joins the free list, and the opcode that closed it completes with the number of capsules answered. That CHANNEL_FREE takes effect only where SEAM
follows is the model's choice (log entry 122). -/
def Obligations.ChannelsAreMadeBoundAndFreed : Prop :=
  ((∀ (s u : State) (d : Desc), s.Takes Op.CHAN_CREATE d → u = s.start d → d.handle = 0 → d.reservedZero [(8, 15), (24, 20)] = true → d.f 8 2 ≤ 16383 →
      d.f 10 1 ≤ 253 → d.f 11 1 ≤ 11 ∨ d.f 11 1 = 0xFF → d.f 12 4 ≤ 65536 → d.f 16 4 ≤ 65535 ∨ d.f 16 4 = 0xFFFFFFFF → d.f 20 1 ≤ 3 → d.f 21 1 ≤ 7 →
      d.meterOk = true → u.schedOk (d.f 40 2) (d.f 42 2) = true → (u.hostEnt (d.f 8 2)).nqn ≠ [] →
      (d.f 12 4 = 0 ∨ ((u.vol (d.f 12 4 - 1)).st ≠ 0 ∧ (u.vol (d.f 12 4 - 1)).st ≠ 3)) → u.findChan (d.f 8 2) (d.f 12 4) = none →
      u.classOk (d.f 10 1) (d.f 12 4) = true → d.f 16 4 = u.keyOf (d.f 12 4) → u.liveChans.length < 262144 →
      exec .chanCreate s = .next ((u.defer d).replicate (.command d.toBytes true [])))
  ∧ (∀ (s u : State) (d : Desc) (i : Nat), s.Takes Op.CHAN_MODIFY d → u = s.start d → u.chanOf d.handle = some i → d.reservedZero [(8, 15), (24, 22)] = true →
      0 < d.f 44 2 → d.f 44 2 < 16 → (natBit (d.f 44 2) 0 = true → d.f 10 1 ≤ 253 ∧ (u.chan i).st ≠ .suspended ∧ u.classOk (d.f 10 1) (u.chan i).nsid = true) →
      (natBit (d.f 44 2) 1 = true → d.f 21 1 ≤ 7) → (natBit (d.f 44 2) 2 = true → d.meterOk = true) →
      (natBit (d.f 44 2) 3 = true → u.schedOk (d.f 40 2) (d.f 42 2) = true) → (u.chan i).st ≠ .closing →
      exec .chanModify s = .next ((u.defer d).replicate (.command d.toBytes true [])))
  ∧ (∀ (s u : State) (d : Desc) (i : Nat), s.Takes Op.CHAN_DESTROY d → u = s.start d → u.chanOf d.handle = some i → d.reservedZero [] = true →
      (u.chan i).st ≠ .closing → exec .chanDestroy s = .next ((u.defer d).replicate (.command d.toBytes true [])))
  ∧ (∀ (s u : State) (d : Desc) (i : Nat), s.Takes Op.CHAN_QUERY d → u = s.start d → u.chanOf d.handle = some i → d.reservedZero [] = true →
      exec .chanQuery s = .next (u.complete d St.OK (chanCode (u.chan i).st + 256 * (u.chan i).cls + 65536 * (u.chan i).cluster + 16777216 * (u.chan i).home
        + 4294967296 * u.inFlight i) ((u.chan i).host + 4294967296 * (u.chan i).nsid) 0))
  ∧ ∀ (s u : State) (d : Desc) (all : List Nat), s.Takes Op.CHAN_LIST d → u = s.start d → d.handle = 0 → d.reservedZero [(8, 2), (12, 4), (16, 8)] = true →
      d.aligned 16 8 = true → d.f 12 4 < 262144 → 1 ≤ d.f 8 2 → d.f 8 2 ≤ 4096 → all = u.liveChans.filter (fun i => decide (d.f 12 4 ≤ i)) →
      exec (.chanList true) s = .next ((if all = [] then u else u.emit (.hostWrite (d.f 16 8) ((all.take (d.f 8 2)).flatMap u.chanRecord))).complete d St.OK
        (min (d.f 8 2) all.length) ((all.drop (d.f 8 2)).headD 0xFFFFFFFF) 0))
  ∧ ((∀ (s : State) (d : Desc) (k i : Nat), s.findChan (d.f 8 2) (d.f 12 4) = none → s.pickCluster (d.f 10 1) (d.f 11 1) = some k → s.freeChan = some i →
      Tab.rising s.hst.chans = true →
      ∃ u : State, s.chanCreateNow d = (if d.f 12 4 = 0 then u else u.nsChanged (d.f 12 4 - 1)).complete d St.OK
          ((if d.f 12 4 = 0 then u else u.nsChanged (d.f 12 4 - 1)).handleOf i + k * 4294967296)
          ((if d.f 12 4 = 0 then u else u.nsChanged (d.f 12 4 - 1)).capLeft (d.f 10 1) k) 0
        ∧ (u.chan i).st = .opened ∧ (u.chan i).host = d.f 8 2 ∧ (u.chan i).nsid = d.f 12 4 ∧ (u.chan i).gen = (s.chan i).gen
        ∧ (u.chan i).cls = d.f 10 1 ∧ (u.chan i).cluster = k ∧ (u.chan i).home = k ∧ (u.chan i).tc = d.f 32 4 * 1000 ∧ (u.chan i).tp = d.f 36 4 * 1000
        ∧ (u.chan i).firstEntry = (s.vol (d.f 12 4 - 1)).first ∧ (u.chan i).slabCount = (s.vol (d.f 12 4 - 1)).slabs.length
        ∧ (∀ j, j ≠ i → u.chan j = s.chan j)
        ∧ (s.hst.chanFresh < 262144 → i = s.hst.chanFresh ∧ u.hst.chanFresh = s.hst.chanFresh + 1 ∧ u.hst.chanFreed = s.hst.chanFreed)
        ∧ (262144 ≤ s.hst.chanFresh → s.hst.chanFreed = i :: u.hst.chanFreed ∧ u.hst.chanFresh = s.hst.chanFresh))
  ∧ ∀ (s : State) (c : Fin 262144), s.changesRun = true → (s.chan c).st = .closing → (s.chan c).closedAt < s.now → s.inFlight c = 0 →
      let caps := s.cmd.caps.map fun (x : Capsule) => if x.chan = some c.val then { x with chan := none } else x
      let u := ({ s with cmd := { s.cmd with caps := caps } } : State).setChan c { Chan.reset with gen := if (s.chan c).gen = 16383 then 1 else (s.chan c).gen + 1 }
      let v : State := { u with hst := { u.hst with chanFreed := u.hst.chanFreed ++ [c.val] } }
      exec (.channelFree c) s = .next
        ((if (s.chan c).nsid = 0 then v else v.nsChangedTo ((s.chan c).nsid - 1) (· == (s.chan c).host)).doneOpt (s.chan c).destroy St.OK (s.chan c).answered 0))

/-! ### The cipher engine and the check units -/

/-- Key slots (11 R348 to R352): KEY_LOAD of a data key pair whose blob unwraps, with distinct halves and the check value that the slot's volumes ask
for, KEY_LOAD of a KEK whose blob the session's key opens, and KEY_DESTROY of a loaded slot that no volume uses, or by force, or of a loaded KEK,
change the key store at the next seam and complete there with the check value, or the number of volumes; a blob that does not unwrap is counted and refused with CIP_UNWRAP, and a KEK blob without a session, or with a number already
used, with CIP_AUTH. -/
def Obligations.KeysAreLoadedAndDestroyed : Prop :=
  (∀ (s u : State) (d : Desc) (blob : List Byte), s.Takes Op.KEY_LOAD d → u = s.start d → d.f 8 1 = 0 →
      d.reservedZero [(8, 1), (9, 1), (12, 4), (16, 8), (24, 2)] = true → d.handle < 65536 → d.f 9 1 < 16 → d.f 12 4 = 0 → d.f 24 2 = 72 → u.noAlarm = true →
      u.keyStop = false → u.keyPair d.handle = none → (∀ c ∈ u.cip.changes, c.kek = true ∨ c.index ≠ d.handle) → u.kek (d.f 9 1) ≠ [] →
      exec (.keyLoad true blob) s = .next (match Config.unwrapKey (u.kek (d.f 9 1)) blob with
        | none => (u.cntCip 6 1).done d St.CIP_UNWRAP
        | some raw =>
          let k1 := raw.take 32
          let k2 := sliceB raw 32 32
          if k1 = k2 then u.done d St.CIP_KEY_WEAK
          else if (u.volsOfKey d.handle).all fun v => (u.vol v).kcv == kcvOf k1 then
            (u.keyChange ⟨false, d.handle, some ⟨k1, k2, kcvOf k1⟩, [], some d, kcvOf k1⟩).replicate (.key false d.handle 0 (k1 ++ k2))
          else u.done d St.CIP_KEY_MISMATCH))
  ∧ (∀ (s u : State) (d : Desc) (blob : List Byte), s.Takes Op.KEY_LOAD d → u = s.start d → d.f 8 1 = 1 →
      d.reservedZero [(8, 1), (9, 1), (12, 4), (16, 8), (24, 2)] = true → d.handle < 16 → d.f 9 1 = 0 → d.f 24 2 = 68 → u.noAlarm = true → u.keyStop = false →
      (u.session (d.f 12 4) = none → exec (.keyLoad true blob) s = .next (u.done d St.CIP_AUTH))
      ∧ ∀ x, u.session (d.f 12 4) = some x →
          let seq := leField blob 0 8
          let plain := Config.gcmOpen x.key (sliceB blob 8 12) (leBytes 1 d.handle ++ leBytes 4 (d.f 12 4) ++ blob.take 8) (sliceB blob 20 32) (sliceB blob 52 16)
          let v : State := { u with mgt := { u.mgt with sessions := u.mgt.sessions.map fun y => if y.id == d.f 12 4 then { y with lastSeq := seq } else y } }
          (seq ≤ x.lastSeq → exec (.keyLoad true blob) s = .next ((u.cntCip 6 1).done d St.CIP_AUTH))
          ∧ (x.lastSeq < seq → exec (.keyLoad true blob) s = .next (match plain with
            | none => (u.cntCip 6 1).done d St.CIP_AUTH
            | some k => (v.keyChange ⟨true, d.handle, none, k, some d, kcvOf k⟩).replicate (.key true d.handle seq k))))
  ∧ (∀ (s u : State) (d : Desc), s.Takes Op.KEY_DESTROY d → u = s.start d → d.reservedZero [(8, 1), (9, 1)] = true →
      (d.f 8 1 = 0 → d.f 9 1 ≤ 1 → d.handle < 65536 → (u.keyPair d.handle).isSome = true → d.f 9 1 = 1 ∨ u.volsOfKey d.handle = [] →
        exec .keyDestroy s = .next
          ((u.keyChange ⟨false, d.handle, none, [], some d, (u.volsOfKey d.handle).length⟩).replicate (.command d.toBytes true [])))
      ∧ (d.f 8 1 = 1 → d.f 9 1 = 0 → d.handle < 16 → u.kek d.handle ≠ [] →
        exec .keyDestroy s = .next ((u.keyChange ⟨true, d.handle, none, [], some d, 0⟩).replicate (.command d.toBytes true []))))
  ∧ ∀ (s : State) (c : KeyChange),
      (c.kek = false → s.keyApply c = (s.setKey c.index c.pair).doneOpt c.desc St.OK c.result 0)
      ∧ (c.kek = true → s.keyApply c = (s.setKek c.index c.raw).doneOpt c.desc St.OK c.result 0)

/-- Alarms and zeroisation (11 R354 to R357, Table 11-10, Table 11-11): a source of scope zeroisation latches its alarm bit, sets ZEROISED, discards
every request that uses a key, answers the changes of the key store that wait and clears every key slot and KEK at once, and its events follow at the
seam; a halt of the generator only latches its bit; an array's alarm latches the bit of its cluster, discards that array's requests and is a fence
cause. A latched bit is cleared by a write of 1 unless its source is still present, and ZEROISED ends once no bit is latched; a halted generator
repeats its start-up tests every 977 ticks, and when it passes resumes key use at the next seam. -/
def Obligations.AlarmsZeroiseTheKeys : Prop :=
  (∀ (s : State) (code : Fin 17) (k : Fin 12), (2 ≤ code.val ∧ code.val ≤ 5) ∨ (code.val = 1 ∧ s.flag Reg.CIP_CFG Fd.CIP_CFG_TAMPER_EN = true) →
      exec (.cipherAlarm code k) s = .next ((({ s with cip := { s.cip with alarms := s.cip.alarms ++ [(code.val, 0xFF)] } }.setFld
        Reg.CIP_ALARM ⟨code.val - 1, 1⟩ 1).zeroise).zeroLink code))
  ∧ (∀ s : State,
      let v := (s.cip.reqs.filter (·.keyed)).foldl (fun s r => s.discardCipher true r) (s.setFld Reg.CIP_STATUS Fd.CIP_STATUS_ZEROISED 1)
      s.zeroise = v.cip.changes.foldl (fun s c => s.doneOpt c.desc St.CIP_ALARMED 0 0) { v with cip := { v.cip with
        keys := [], keks := [], changes := [], zeroed := some ((s.cip.keys.filter fun e => e.2.isSome).length, s.cip.keks.length) } })
  ∧ (∀ (s : State) (k : Fin 12),
      exec (.cipherAlarm 6 k) s = .next
        ({ s with cip := { s.cip with alarms := s.cip.alarms ++ [(6, 0xFF)], halting := true, testTick := s.now } }.setFld Reg.CIP_ALARM ⟨5, 1⟩ 1)
      ∧ let u := ({ s with cip := { s.cip with alarms := s.cip.alarms ++ [(16, k.val)] } } : State).setFld Reg.CIP_ALARM Fd.CIP_ALARM_ARRAY
          (setNatBit (s.fld Reg.CIP_ALARM Fd.CIP_ALARM_ARRAY) k true)
        exec (.cipherAlarm 16 k) s = .next (((s.cip.reqs.filter fun r => r.cluster == k.val).foldl (fun s r => s.discardCipher false r) u).detect k 5 0))
  ∧ (∀ (s : State) (pass : Bool), s.flag Reg.CIP_STATUS Fd.CIP_STATUS_HALT = true →
      (s.cip.testTick + 977 ≤ s.now →
        exec (.rngRetest pass) s = .next { s with cip := { s.cip with resuming := s.cip.resuming || pass, testTick := s.now } })
      ∧ (s.now < s.cip.testTick + 977 → exec (.rngRetest pass) s = .next s))
  ∧ ∀ (s : State) (w present : Word), s.Inv → s.mgtReady = true →
      let a := s.rd Reg.CIP_ALARM &&& ~~~(w &&& ~~~present)
      let u := s.wrReg Reg.CIP_ALARM a
      let v := (clusters.filter fun k => s.cluState k == cluWaitClear && !natBit (Fd.CIP_ALARM_ARRAY.get a) k).foldl (fun s k => s.cluWant k cluChecking 0) u
      (a = 0 → exec (.cipAlarmClear w present) s = .next (v.setFld Reg.CIP_STATUS Fd.CIP_STATUS_ZEROISED 0))
      ∧ (a ≠ 0 → exec (.cipAlarmClear w present) s = .next v)

/-- The software check engine of control software (11 R359): START takes the polynomial, address and length and makes the engine BUSY; when the read
has ended the result is in CHK_SW_RES, DONE is set and BUSY cleared; a length of 0 or above 16 MiB, or a failed read, gives its status and no result.
The second engine is read-only from BAR0. -/
def Obligations.CheckEngineRuns : Prop :=
  (∀ (s u : State) (w : Word), s.mgtReady = true → Fd.CHK_SW_CTL_START.get w = 1 → u = s.regWrite (Reg.CHK_SW_CTL 0) w →
      u.flag (Reg.CHK_SW_STATUS 0) Fd.CHK_SW_STATUS_BUSY = false →
      let run : SwRun :=
        { poly := u.fld (Reg.CHK_SW_CTL 0) Fd.CHK_SW_CTL_POLY, cont := u.flag (Reg.CHK_SW_CTL 0) Fd.CHK_SW_CTL_CONTINUE
          addr := hiLo (u.rd (Reg.CHK_SW_ADDR_HI 0)).toNat (u.rd (Reg.CHK_SW_ADDR_LO 0)).toNat, len := u.fld (Reg.CHK_SW_LEN 0) Fd.CHK_SW_LEN_LEN }
      exec (.chkSwStart 0 w) s = .next
        ({ u with cip := { u.cip with sw := Tab.wr (fun _ => none) u.cip.sw 0 (some run) } }.setFld (Reg.CHK_SW_STATUS 0) Fd.CHK_SW_STATUS_BUSY 1))
  ∧ (∀ (s : State) (w : Word), s.mgtReady = true → exec (.chkSwStart 1 w) s = .next s)
  ∧ ∀ (s : State) (n : Fin 2) (ok : Bool) (data : List Byte) (r : SwRun), Tab.rd (fun _ => none) s.cip.sw n = some r →
      let u := ({ s with cip := { s.cip with sw := Tab.wr (fun _ => none) s.cip.sw n none } }.setFld (Reg.CHK_SW_STATUS n) Fd.CHK_SW_STATUS_BUSY 0).setFld
        (Reg.CHK_SW_STATUS n) Fd.CHK_SW_STATUS_DONE 1
      let v := u.setFld (Reg.CHK_SW_STATUS n) Fd.CHK_SW_STATUS_STATUS 0
      let x := r.result (hiLo (v.rd (Reg.CHK_SW_RES_HI n)).toNat (v.rd (Reg.CHK_SW_RES_LO n)).toNat) (data.take r.len)
      (0 < r.len → r.len ≤ 16777216 →
        exec (.chkSwDone n true data) s = .next
          ((v.wrReg (Reg.CHK_SW_RES_LO n) (BitVec.ofNat 32 x)).wrReg (Reg.CHK_SW_RES_HI n) (BitVec.ofNat 32 (x / 4294967296)))
        ∧ exec (.chkSwDone n false data) s = .next (u.setFld (Reg.CHK_SW_STATUS n) Fd.CHK_SW_STATUS_STATUS St.CHK_DMA))
      ∧ (r.len = 0 ∨ 16777216 < r.len → exec (.chkSwDone n ok data) s = .next (u.setFld (Reg.CHK_SW_STATUS n) Fd.CHK_SW_STATUS_STATUS St.CHK_LEN))

/-! ### Pools, volumes and maintenance -/

/-- Pool opcodes (09 R264 to R268, Table 9-5, Table 9-7): POOL_CREATE with its checks passed keeps the pool with the geometry, the bays in slot order
and a UUID that the spec leaves open, and completes at the seam; POOL_DESTROY of a pool without volumes and activities clears the labels of its ONLINE
members; POOL_MEMBER_ADD and POOL_MEMBER_REMOVE change a slot at the next seam. Volume opcodes (09 R277, R279, R280): with their checks passed they
take effect at the next seam, where the volume becomes INITIALISING, or READY at once with UNINIT, on the lowest free slabs. The import of a shelf
whose bays hold no valid label sets START to 3 and leaves run generation 1; pools are imported once, by running firmware, and in a paired shelf only by
a controller that has become ALONE (15 R439). -/
def Obligations.PoolAndVolumeCommands : Prop :=
  ((∀ (s u : State) (d e : Desc) (list : List Byte) (bays : List Nat) (P : Pool), s.Takes Op.POOL_CREATE e → d = e.withBays list → s.objectBusy d = false →
      u = s.start d → d.handle < 16 →
      d.reservedZero [(8, 1), (9, 1), (10, 1), (11, 1), (12, 1), (16, 8)] = true → geomOk (d.f 8 1) (d.f 9 1) (d.f 10 1) (d.f 11 1) (d.f 12 1) = true → list.length = 128 →
      bays = ((list.take 128).take (d.f 10 1)).map (·.toNat) → (∀ b ∈ bays, b < 128) → (∀ b ∈ list.drop (d.f 10 1), b = 0xFF) → (u.pool d.handle).st = 0 →
      (u.pool d.handle).desc = none → (u.poolClass d.handle).isSome = true → bays.eraseDups.length = d.f 10 1 → (∀ b ∈ bays, u.bayReady b = true) →
      (∀ b ∈ bays, (u.bay b).ident.fmt = true) →
      P = poolOf d (u.fld Reg.LAY_DUMP_CFG Fd.LAY_DUMP_CFG_DUMP_GIB) (bays.map fun b => (b, (u.bay b).ident.bytes)) → 1 ≤ P.frames → 1 ≤ P.slabs →
      ∃ uuid, exec (.poolCreate true list) s = .next (({ u with drawn := u.drawn + 2 }.setPool d.handle { P with uuid := uuid, desc := some d }).replicate
        (.command d.toBytes true list)))
  ∧ (∀ (s u : State) (d : Desc), s.Takes Op.POOL_DESTROY d → u = s.start d → d.handle < 16 → d.reservedZero [] = true → (u.pool d.handle).st ≠ 0 →
      u.volsOf d.handle = [] → (u.pool d.handle).acts = [] →
      exec .poolDestroy s = .next (((((u.pool d.handle).bays.filter u.online).foldl (fun s b => (s.emitNet (.label b 0 (zeros 4096))).emitNet (.label b 1 (zeros 4096))) u).defer
        d).replicate (.command d.toBytes true [])))
  ∧ (∀ (s u : State) (d : Desc) (P : Pool), s.Takes Op.POOL_MEMBER_ADD d → u = s.start d → P = u.pool d.handle → d.handle < 16 → d.reservedZero [(8, 1), (9, 1)] = true →
      P.slotOk (d.f 8 1) = true → d.f 9 1 < 128 → P.st ≠ 0 → (P.slot (d.f 8 1)).st = .missing ∨ (P.slot (d.f 8 1)).st = .vacant → u.bayReady (d.f 9 1) = true →
      (u.bay (d.f 9 1)).ident.fmt = true → P.base + P.frames * P.strip ≤ (u.bay (d.f 9 1)).ident.bytes →
      exec .poolMemberAdd s = .next ((u.updPool d.handle fun P => { P with changes := P.changes ++ [(d.f 8 1, some (d.f 9 1), some d)] }).replicate
        (.command d.toBytes true [])))
  ∧ ∀ (s u : State) (d : Desc) (P : Pool), s.Takes Op.POOL_MEMBER_REMOVE d → u = s.start d → P = u.pool d.handle → d.handle < 16 → d.reservedZero [(8, 1)] = true →
      P.slotOk (d.f 8 1) = true → P.st ≠ 0 → (P.slot (d.f 8 1)).st = .present ∨ (P.slot (d.f 8 1)).st = .copyback →
      (P.missing < 2 → exec .poolMemberRemove s = .next ((u.updPool d.handle fun P => { P with changes := P.changes ++ [(d.f 8 1, none, some d)] }).replicate
        (.command d.toBytes true [])))
      ∧ (2 ≤ P.missing → exec .poolMemberRemove s = .next ((u.done d St.LAY_REDUNDANCY).replicate (.command d.toBytes true []))))
  ∧ ((∀ (s u : State) (d : Desc), s.Takes Op.VOL_CREATE d → u = s.start d → d.handle < 65536 →
      d.reservedZero [(8, 1), (9, 1), (10, 1), (12, 4), (16, 8), (24, 16)] = true → d.f 8 1 < 16 → d.f 9 1 ≤ 4 → d.f 10 1 ≤ 1 → d.f 12 4 < 65536 ∨ d.f 12 4 = 0xFFFFFFFF →
      1 ≤ d.f 16 8 → (u.vol d.handle).st = 0 → (u.pool (d.f 8 1)).st ≠ 0 → (u.pool (d.f 8 1)).st ≠ 5 → d.f 12 4 = 0xFFFFFFFF ∨ (u.keyPair (d.f 12 4)).isSome = true →
      allZero (d.bytes 24 16) = false → (∀ v ∈ u.vols, (u.vol v).nguid ≠ d.bytes 24 16) →
      u.canHold d.handle (d.f 8 1) ((u.pool (d.f 8 1)).slabsFor (d.f 9 1) (d.f 16 8)) ((u.pool (d.f 8 1)).slabsFor (d.f 9 1) (d.f 16 8)) = true →
      exec .volCreate s = .next ((u.defer d).replicate (.command d.toBytes true [])))
  ∧ (∀ (s u : State) (d : Desc), s.Takes Op.VOL_RESIZE d → u = s.start d → d.handle < 65536 → d.reservedZero [(16, 8)] = true → 1 ≤ d.f 16 8 → (u.vol d.handle).st = 2 →
      (u.pool (u.vol d.handle).pool).slabsFor (u.vol d.handle).lbaf (d.f 16 8) ≤ (u.vol d.handle).slabs.length →
      exec .volResize s = .next ((u.defer d).replicate (.command d.toBytes true [])))
  ∧ (∀ (s u : State) (d : Desc), s.Takes Op.VOL_DELETE d → u = s.start d → d.handle < 65536 → d.reservedZero [] = true → (u.vol d.handle).st ≠ 0 → (u.vol d.handle).st ≠ 1 →
      (∀ c ∈ u.liveChans, (u.chan c).nsid ≠ d.handle + 1) → exec .volDelete s = .next ((u.defer d).replicate (.command d.toBytes true [])))
  ∧ (∀ (s : State) (d : Desc) (need : Nat), d.handle < 65536 → (∀ v ∈ s.vols, (s.vol v).nguid ≠ d.bytes 24 16) →
      need = (s.pool (d.f 8 1)).slabsFor (d.f 9 1) (d.f 16 8) → s.canHold d.handle (d.f 8 1) need need = true →
      let slabs := lowestFree (s.slabsUsed (d.f 8 1)) (s.pool (d.f 8 1)).slabs need
      let key := if d.f 12 4 = 0xFFFFFFFF then none else some (d.f 12 4)
      let x : Vol :=
        { Vol.reset with
          st := if d.f 10 1 = 1 then 2 else 1, pool := d.f 8 1, lbaf := d.f 9 1, key := key, kcv := ((key.bind s.keyPair).map (·.kcv)).getD 0, blocks := d.f 16 8
          nguid := d.bytes 24 16, uninit := d.f 10 1 == 1, first := (s.mapFor d.handle need).getD 0, slabs := slabs
          initEnd := if d.f 10 1 = 1 then 0 else need * (s.pool (d.f 8 1)).slabStripes, desc := some d, flushing := true, result := need }
      let u := (((s.setVol d.handle x).updPool (d.f 8 1) fun P => { P.withdraw slabs with flushFor := P.flushFor ++ [.vol d.handle] }).nsChanged d.handle).chanMaps d.handle
      s.volCreateNow d = if d.f 10 1 = 1 then u.raise Ev.LAY_VOL_READY d.handle need 0 else u)
  ∧ (∀ (s : State) (im : Import), s.fwRuns = true → s.lay.imported = false → s.pairState = pairSingle ∨ s.pairState = pairAlone →
      (∀ e ∈ im.labels, bestLabel e.2.1 e.2.2 = none) → s.lay.pools = [] → s.lay.vols = [] →
      let resvs := im.resvs.foldl (fun t r => Tab.wr (fun _ => Resv.reset) t r.vol { regs := r.regs, rtype := r.rtype, holder := r.holder, gen := r.gen, ptpl := true }) s.cmd.resvs
      exec (.poolImport im) s = .next { s.setFld Reg.LAY_STATUS Fd.LAY_STATUS_START 3 with
        lay := { s.lay with runGen := 1, imported := true, journal := [] }, cmd := { s.cmd with resvs := resvs } })
  ∧ ∀ (s : State) (im : Import), s.fwRuns = false ∨ s.lay.imported = true ∨ (s.pairState ≠ pairSingle ∧ s.pairState ≠ pairAlone) →
      exec (.poolImport im) s = .next s)

/-- Maintenance (10 R312 to R314, R322, R325, R327): MAINT_START and MAINT_STOP with their checks passed take effect at the next seam; waiting
activities start, in priority order, once nothing blocks them and none of a lower rank, which they preempt, holds their members; a preempting activity whose stripes in flight have ended and
whose record is written is PREEMPTED; the load of a pool is recomputed in ticks of index 255; a scrub that repeats is requested again once it is due.
That these four rows take effect only where SEAM follows is the model's choice (log entry 122). -/
def Obligations.MaintenanceRuns : Prop :=
  (∀ (s u : State) (d : Desc), s.Takes Op.MAINT_START d → u = s.start d → d.handle < 16 → d.reservedZero [(8, 1), (9, 1), (10, 1), (11, 1)] = true → d.f 8 1 = 1 ∨ d.f 8 1 = 2 →
      d.f 9 1 ≤ 1 → d.f 11 1 ≤ 1 → d.f 8 1 = 1 ∨ (d.f 10 1 = 0 ∧ d.f 11 1 = 0) → (u.pool d.handle).st ≠ 0 → (u.pool d.handle).ofKind (d.f 8 1) = [] →
      exec .maintStart s = .next ((u.defer d).replicate (.command d.toBytes true [])))
  ∧ (∀ (s u : State) (d : Desc), s.Takes Op.MAINT_START d → u = s.start d → d.handle < 16 → d.reservedZero [(8, 1), (9, 1), (10, 1), (11, 1)] = true → d.f 8 1 = 3 →
      d.f 9 1 ≤ 1 → d.f 10 1 = 0 → d.f 11 1 = 0 → (u.pool d.handle).st ≠ 0 → (∃ a ∈ (u.pool d.handle).acts, a.st = .held) →
      exec .maintStart s = .next ((u.defer d).replicate (.command d.toBytes true [])))
  ∧ (∀ (s u : State) (d : Desc), s.Takes Op.MAINT_STOP d → u = s.start d → d.handle < 16 → d.reservedZero [(8, 1)] = true → 1 ≤ d.f 8 1 → d.f 8 1 ≤ 3 → (u.pool d.handle).st ≠ 0 →
      ((u.pool d.handle).ofKind (d.f 8 1) ≠ [] → exec .maintStop s = .next ((u.defer d).replicate (.command d.toBytes true [])))
      ∧ ((u.pool d.handle).ofKind (d.f 8 1) = [] → exec .maintStop s = .next ((u.done d St.MAINT_NONE).replicate (.command d.toBytes true []))))
  ∧ (∀ (s : State) (p : Fin 16), s.atSeam = true →
      ((s.pool p).st ≠ 0 → exec (.maintActivityStart p) s = .next ((s.pool p).waiting.foldl (fun s a => s.tryAct p a.id) s))
      ∧ ∀ (id : Nat) (a : Activity), (s.pool p).acts.find? (fun b => b.id == id) = some a →
          ((s.pool p).blocked a = true → s.tryAct p id = s)
          ∧ ((s.pool p).blocked a = false → (∀ b ∈ (s.pool p).acts, b.rank ≤ a.rank ∨ b.holds = false) → s.tryAct p id = s.startAct p a)
          ∧ ((s.pool p).blocked a = false → (∃ b ∈ (s.pool p).acts, a.rank < b.rank ∧ b.holds = true) →
              s.tryAct p id = s.setPool p { s.pool p with acts := (s.pool p).acts.map fun b =>
                if a.rank < b.rank ∧ b.st = .running then { b with st := .preempting, preemptor := a.kind, recSt := 0 } else b }))
  ∧ (∀ (s : State) (p : Fin 16), s.atSeam = true →
      exec (.maintPreempted p) s = .next ((s.pool p).acts.foldl (fun s a => s.preemptNow p a) s)
      ∧ ∀ a : Activity,
          (a.st = .preempting → s.actWorks p a.id = [] → a.recSt = 2 → s.preemptNow p a =
            (s.updPool p fun P => P.updAct a.id fun a => { a with st := .preempted, recSt := 0 }).raise Ev.MAINT_PREEMPTED p a.kind a.preemptor)
          ∧ (a.st = .preempting → s.actWorks p a.id = [] → a.recSt ≠ 2 → s.preemptNow p a = s.askRecord p a)
          ∧ (a.st ≠ .preempting ∨ s.actWorks p a.id ≠ [] → s.preemptNow p a = s))
  ∧ (∀ s : State, s.itn.tick % 256 = 255 → s.atSeam = true →
      exec .maintLoadUpdate s = .next (s.pools.foldl (fun s p =>
        (s.updPool p fun P => { P with load := s.hostLoad p }).setFld (Reg.LAY_MNT_STATUS p) Fd.LAY_MNT_STATUS_LOAD (s.hostLoad p)) s))
  ∧ ∀ (s : State) (p : Fin 16) (t r m : Nat), s.atSeam = true → (s.pool p).scrubNext = some (t, r, m) → t + r * dayTicks ≤ s.now →
      (∀ a ∈ (s.pool p).acts, a.kind ≠ 1) →
      exec (.scrubRepeat p) s = .next (s.setPool p
        ({ s.pool p with scrubNext := none }.addAct { (Activity.of 1 m [] [(0, (s.pool p).stripes)]) with rep := r }))

/-! ### Pool work -/

/-- Destage and journal (09 R288 to R294). A run that can start a destage takes the first stripe in order, when R288 lets it go, with a copy of its
dirty lines, which become DESTAGING. PARITY_PLAN leg 1 drops rows beyond parity and names the units to read, or, when none is missing, goes on to leg 2,
which counts the plans, forms the new units and posts the parity request. JOURNAL_PUT waits while no journal slot is free, and otherwise writes the
entry, a missing data unit going to a shadow line; JOURNAL_RETIRE retires it, marks the lines and ends the work. What completes outside the routines (02
R20, R33, R43): the oldest memory-lane request makes its item's next leg ready two ticks after its posting; the oldest request of a parity unit frees
the tags whose data it has used and wakes its item; with none there is nothing to do. -/
def Obligations.StripesAreDestagedAndRequestsComplete : Prop :=
  ((∀ (s : State) (k : Fin 12) (c : Fin 256), s.openRun k c Rt.destageStep = none ∨ s.classPool c = none ∨
      (∃ p, s.classPool c = some p ∧ State.beginDestage k s p = none) → exec (.destageStep k c) s = .next s)
  ∧ (∀ (s : State) (k : Fin 12) (c : Fin 256) (r : SlotRun) (p : Nat) (e : DirtyStripe), s.openRun k c Rt.destageStep = some r → s.classPool c = some p →
      (s.destageOrder p).head? = some e → s.destageDue p e = true → s.poolCluster p e.stripe = k →
      let ls := s.takeable p e.stripe
      let w : Work :=
        { (Work.of .destage p e.stripe) with
          rows := (ls.map fun l => l.2.1).eraseDups, new := ls.map fun l => { stripe := e.stripe, row := l.2.1, pos := l.2.2, data := (s.line l.1).data }
          partials := (ls.filter fun l => (s.line l.1).valid != 255).map fun l => (l.2.1, l.2.2, (s.line l.1).valid)
          lines := ls.map fun l => (l.1, (s.line l.1).wgen), jslot := e.redo, redo := e.redo.isSome }
      let u := ls.foldl (fun s l => s.updLine l.1 fun x => { x with st := .destaging }) s
      let v := u.updPool p fun P => { P with dirty := P.dirty.filter fun x => x.stripe != e.stripe }
      let x := v.newWork w k Rt.parityPlan (v.laneWait Rt.destageStep) v.now
      exec (.destageStep k c) s = .next
        (((x.acc 14 (r.engine / 8) 0 (x.legCycles r.chain Rt.destageStep 1)).spend r).lanePost r.engine r.cls 64))
  ∧ (∀ (s u : State) (k : Fin 12) (c : Fin 256) (it : Item) (w : Work), s.RunsWork k c Rt.parityPlan u it w →
      (it.leg = 1 →
        let gone := w.rows.filter fun r => (u.pool w.pool).rowPlan w r == .beyond
        let v := if gone = [] then u else u.dropRows w gone
        let y := (v.work? w.id).getD w
        let need := (u.pool w.pool).destageNeed y
        (y.rows = [] → exec (.parityPlan k c) s = .next (v.emptyDestage it y))
        ∧ (y.rows ≠ [] → need = [] →
            exec (.parityPlan k c) s = .next ((v.updWork w.id fun x => { x with st := .reading }).advance it Rt.parityPlan 2 .none v.now))
        ∧ (y.rows ≠ [] → need ≠ [] →
            exec (.parityPlan k c) s = .next ((v.updWork w.id fun x => { x with st := .reading, need := need }).advance it Rt.drvSubmit 1 .none v.now)))
      ∧ (it.leg ≠ 1 →
        let P := u.pool w.pool
        let n (x : RowPlan) : Nat := ((w.rows.map fun r => P.rowPlan w r).filter (· == x)).length
        let v := if w.kind = .destage then (((u.cntLay 0 (n .full)).cntLay 1 (n .rmw)).cntLay 2 (n .rcw)).cntLay 3 (n .degraded) else u
        let outs := w.rows.map fun r => (r, P.rowWrites w r)
        let puts := outs.flatMap fun o => o.2.1
        let shadow := outs.flatMap fun o => o.2.2.map fun e => ({ stripe := w.stripe, row := o.1, pos := e.1, data := e.2 } : UnitVal)
        let repairs := (w.media.filter fun m => puts.any fun x => x.row == m.2.1 && x.pos == m.2.2 && !(w.dirtyAt x.row).contains x.pos).length
        exec (.parityPlan k c) s = .next
          ((((v.cntLay 5 repairs).updWork w.id fun x => { x with
              st := .parity, puts := puts, need := [], new := if x.kind = .destage then shadow else [] }).postParity it.cluster it.ref).advance it Rt.journalPut 1
            .event v.now)))
  ∧ (∀ (s u : State) (k : Fin 12) (c : Fin 256) (it : Item) (w : Work), s.RunsWork k c Rt.journalPut u it w →
      let slot := w.jslot.getD (Tab.lowest u.lay.journal)
      (journalSlots ≤ slot → exec (.journalPut k c) s = .next (u.stay it 8 false))
      ∧ (slot < journalSlots →
        let P := u.pool w.pool
        let old := match w.jslot with | some _ => (u.shadowsOf w.pool w.stripe).map (·.1) | none => []
        let v := (if w.kind = .destage then w.new else []).foldl (fun s x => s.putShadow w x)
          ((u.dropShadows old).updWork w.id fun x => { x with shadows := [] })
        let rows := (w.puts.map (·.row)).eraseDups
        let e : JEnt :=
          { st := if w.redo then 2 else 1, pool := w.pool, kind := w.jkind, degraded := rows.any fun r => !(P.absent w r).isEmpty
            rows := P.rowBits rows, stripe := w.stripe, positions := ((w.puts.map (·.pos)).eraseDups).foldl (fun a j => a + 2 ^ (j % 32)) 0
            shadow := (((v.work? w.id).map (·.shadows)).getD []).headD 0xFFFFFFFF, seq := v.lay.jseq }
        let x := v.setJent slot e
        let y : State := { x with lay := { x.lay with jseq := x.lay.jseq + 1 } }
        exec (.journalPut k c) s = .next
          (((y.updWork w.id fun z => { z with st := .journalled, jslot := some slot }).lane it 128 0).advance it Rt.drvSubmit 1 (y.laneWait Rt.journalPut) y.now)))
  ∧ ∀ (s u : State) (k : Fin 12) (c : Fin 256) (it : Item) (w : Work), s.RunsWork k c Rt.journalRetire u it w →
      let v := match w.jslot with | some i => (u.lane it 192 0).retireEntry i w.shadows | none => u
      let x := w.lines.foldl State.retireLine v
      let y := if w.kind = .destage ∧ w.lines.length = (u.pool w.pool).d then x.updPool w.pool fun P => P.clearLost w.stripe else x
      let z := y.endWork it w false
      exec (.journalRetire k c) s = .next
        (if w.kind = .destage ∧ (z.dirtyIn w.pool w.stripe).isEmpty = false then z.addDirty w.pool w.stripe z.now else z))
  ∧ ((∀ (s : State) (k : Fin 12),
      ((∀ it ∈ s.cmd.items, ∀ p, it.wait ≠ .lane p) → exec .memoryLaneComplete s = .next s)
      ∧ (s.lay.parity.find? (fun r => r.cluster == k.val) = none → exec (.parityRequestComplete k) s = .next s))
  ∧ (∀ (s : State) (it : Item) (p : Nat), s.cmd.items.find? (fun it => match it.wait with | .lane _ => true | _ => false) = some it → it.wait = .lane p →
      exec .memoryLaneComplete s = .next
        { s with cmd := { s.cmd with items := s.cmd.items.map fun x => if x = it then { it with wait := .none, ready := p + 2 } else x } })
  ∧ ∀ (s : State) (k : Fin 12) (q : ParReq), s.lay.parity.find? (fun r => r.cluster == k.val) = some q →
      exec (.parityRequestComplete k) s = .next (({ s with lay := { s.lay with parity := s.lay.parity.erase q } }.releaseRef q.ref).wakeRef q.ref))

/-- Rebuild, scrub, resynchronisation, marking, initialisation, sanitize and META_FLUSH (09 R276, R278, R297; 10 R308, R312, R315 to R317, R321, R323): a
run that can start new work begins the next stripe of a running activity when its credit, E and the stripe allow it, and charges it; a stripe under way
names the units it reads, and once they are in recovers, checks or overwrites them, posts its parity request and goes on to its writes, or ends, marked
lost when it cannot be recovered; META_FLUSH writes its pages to every member that is not missing. A run with no item and nothing to start does nothing. -/
def Obligations.MaintenanceSteps : Prop :=
  ((∀ (s : State) (k : Fin 12) (c : Fin 256),
      let idle (code : Nat) (start : Starts) (i : Instr) : Prop :=
        s.nextRun k c code = none → s.openRun k c code = none ∨ s.classPool c = none ∨ (∃ p, s.classPool c = some p ∧ start s p = none) → exec i s = .next s
      idle Rt.rebuildStep (fun s p => ((s.pool p).acts.filter (·.isPass)).findSome? (s.beginRebuild p k)) (.rebuildStep k c)
      ∧ idle Rt.scrubStep (State.beginScrub k) (.scrubStep k c) ∧ idle Rt.resyncStep (State.beginSync k) (.resyncStep k c)
      ∧ idle Rt.selftestStep (State.beginTest k) (.selftestStep k c))
  ∧ (∀ (s t : State) (k : Fin 12) (c : Fin 256) (r : SlotRun) (p : Nat), s.Opens k c Rt.rebuildStep r p →
      ((s.pool p).acts.filter (·.isPass)).findSome? (s.beginRebuild p k) = some t → exec (.rebuildStep k c) s = .next (t.openStart r Rt.rebuildStep))
  ∧ (∀ (s : State) (p k st : Nat) (a : Activity), (s.pool p).passStripe a a.issued = some st → a.st = .running →
      let ts := (s.pool p).targetsIn a st
      let charge := ts.1.length * (s.pool p).strip * 1000
      let u := (s.begin p a.id charge).cntMnt 7 ts.2
      ((s.pool p).unsynced st = false → (∀ r, (s.pool p).resync = some r → r.full = true) → s.mayBegin p k st charge a = true →
        (ts.1 = [] → s.beginRebuild p k a = some (u.actDone p a.id))
        ∧ (ts.1 ≠ [] → s.beginRebuild p k a = some (u.newWork (Work.of (.rebuild a.id) p st) k Rt.rebuildStep (u.laneWait Rt.rebuildStep) u.now)))
      ∧ ((s.pool p).unsynced st = true → (∀ r, (s.pool p).resync = some r → r.full = true) → ts.1 ≠ [] → s.poolCluster p st = k →
          s.beginRebuild p k a = some (s.syncFirst p st)))
  ∧ (∀ (s u : State) (k : Fin 12) (c : Fin 256) (it : Item) (w : Work) (id : Nat) (a : Activity), s.RunsWork k c Rt.rebuildStep u it w → w.kind = .rebuild id →
      (u.pool w.pool).acts.find? (·.id == id) = some a →
      let P := u.pool w.pool
      let ts := (P.targetsIn a w.stripe).1
      let copied := (List.range P.u).all fun r => ts.all fun j => (P.present w r).contains j
      let v := ((u.lane it 64 0).cntLay 5 w.media.length).updWork w.id fun x => { x with st := .parity, puts := P.rebuildPuts w ts, redo := copied }
      (P.rebuildLost w ts = true → exec (.rebuildStep k c) s = .next ((u.endWork it w false).wantMark w.pool w.stripe 1))
      ∧ (P.rebuildLost w ts = false → P.rebuildNeed w ts ≠ [] → exec (.rebuildStep k c) s = .next
          ((u.updWork w.id fun x => { x with st := .reading, need := P.rebuildNeed w ts }).advance it Rt.drvSubmit 1 .none u.now))
      ∧ (P.rebuildLost w ts = false → P.rebuildNeed w ts = [] →
          (copied = true → exec (.rebuildStep k c) s = .next (v.advance it Rt.drvSubmit 1 .none v.now))
          ∧ (copied = false → exec (.rebuildStep k c) s = .next ((v.postParity it.cluster it.ref).advance it Rt.drvSubmit 1 .event v.now)))))
  ∧ ((∀ (s : State) (k : Fin 12) (c : Fin 256) (r : SlotRun) (p st : Nat) (a : Activity), s.Opens k c Rt.scrubStep r p →
      (s.pool p).acts.find? (fun a => a.kind == 1 && a.st == .running) = some a → covStripe a.issued a.cov = some st → (s.pool p).resync = none →
      s.mayBegin p k st ((s.pool p).stripeCharge st) a = true →
      exec (.scrubStep k c) s = .next
        (((s.begin p a.id ((s.pool p).stripeCharge st)).newWork (Work.of (.scrub a.id) p st) k Rt.scrubStep (s.laneWait Rt.scrubStep) s.now).openStart r Rt.scrubStep))
  ∧ (∀ (s u : State) (k : Fin 12) (c : Fin 256) (it : Item) (w : Work), s.RunsWork k c Rt.scrubStep u it w →
      let P := u.pool w.pool
      let fs := (List.range P.u).map fun r => P.scrubRow w r
      let puts := fs.flatMap (·.puts)
      let v := (u.lane it 64 0).cntLay 15 (fs.filter (·.unchecked)).length
      let mend := (puts.filter fun x => !w.bad.contains (x.stripe, x.row, x.pos)).length
      (P.allNeed w ≠ [] → exec (.scrubStep k c) s = .next
        ((u.updWork w.id fun x => { x with st := .reading, need := P.allNeed w }).advance it Rt.drvSubmit 1 .none u.now))
      ∧ (P.allNeed w = [] →
          (fs.any (·.lost) = true → exec (.scrubStep k c) s = .next ((v.endWork it w false).wantMark w.pool w.stripe 4))
          ∧ (fs.any (·.lost) = false → puts = [] → exec (.scrubStep k c) s = .next (v.endWork it w false))
          ∧ (fs.any (·.lost) = false → puts ≠ [] → exec (.scrubStep k c) s = .next
              (((((v.cntMnt 3 mend).cntLay 5 (puts.length - mend)).updWork w.id fun x => { x with st := .parity, puts := puts }).postParity it.cluster
                it.ref).advance it Rt.journalPut 1 .event v.now)))))
  ∧ ((∀ (s t : State) (k : Fin 12) (c : Fin 256) (r : SlotRun) (p : Nat), s.Opens k c Rt.resyncStep r p → State.beginSync k s p = some t →
      exec (.resyncStep k c) s = .next (t.openStart r Rt.resyncStep))
  ∧ (∀ (s : State) (p k st cause : Nat) (P : Pool), P = s.pool p → s.maintWorks p < s.inflightMax p →
      P.poison.find? (fun m => s.poolCluster p m.1 == k && !s.stripeHeld p m.1) = some (st, cause) →
      let u := s.updPool p fun P => { P with poison := P.poison.erase (st, cause) }
      State.beginSync k s p = some (u.newWork (Work.of (.mark cause) p st) k Rt.resyncStep (u.laneWait Rt.resyncStep) u.now))
  ∧ (∀ (s u : State) (k : Fin 12) (c : Fin 256) (it : Item) (w : Work), s.RunsWork k c Rt.resyncStep u it w →
      let P := u.pool w.pool
      (∀ cause, w.kind = .mark cause → exec (.resyncStep k c) s = .next (u.putStripe it w.id (P.stripeOf w.stripe fun _ _ => poisonUnit) Rt.journalPut))
      ∧ (∀ a, w.kind = .sanitize a → exec (.resyncStep k c) s = .next (u.putStripe it w.id ((List.range P.u).flatMap fun r => (List.range P.w).map fun j =>
          { stripe := w.stripe, row := r, pos := j, data := zeroUnit }) Rt.journalPut))
      ∧ (∀ v, w.kind = .init v →
          let V := u.vol v
          (w.st = .planned → V.key.isSome = true → exec (.resyncStep k c) s = .next
            (((u.updWork w.id fun x => { x with st := .reading, pair := u.volKey V }).postCipher it.cluster it.ref 0
              (passesOf (P.d * unitBlocks V.lbaf) (lbaData V.lbaf)) false (u.volKey V)).advance it Rt.resyncStep 2 .event u.now))
          ∧ (w.st ≠ .planned ∨ V.key = none → exec (.resyncStep k c) s = .next (u.putStripe it w.id
              (P.stripeOf w.stripe fun r j => zeroVolUnit V w.pair v (((u.unitOwner w.pool w.stripe r j).map (·.2)).getD 0)) Rt.journalPut)))
      ∧ (∀ slot, w.kind = .resync slot →
          let need := if (List.range P.u).all (fun r => decide (2 ≤ (P.absent w r).length)) = true then [] else P.allNeed w
          let fs := (List.range P.u).map fun r => u.syncRow P w r
          let puts := fs.flatMap (·.puts)
          let lost := fs.any (·.lost)
          let un := fs.any (·.unchecked)
          let v := if un = true then (u.cntLay 15 1).updPool w.pool fun P => { P with resync := P.resync.map fun r => { r with unverified := r.unverified + 1 } } else u
          (slot.isSome = true → P.isLost w.stripe = true →
            exec (.resyncStep k c) s = .next (u.putStripe it w.id (P.stripeOf w.stripe fun _ _ => poisonUnit) Rt.drvSubmit))
          ∧ (slot = none ∨ P.isLost w.stripe = false →
              (need ≠ [] → exec (.resyncStep k c) s = .next
                ((u.updWork w.id fun x => { x with st := .reading, need := need }).advance it Rt.drvSubmit 1 .none u.now))
              ∧ (need = [] → lost = true ∨ puts = [] → exec (.resyncStep k c) s = .next (u.syncEnd it w lost un))
              ∧ (need = [] → lost = false → puts ≠ [] → exec (.resyncStep k c) s = .next (v.putStripe it w.id puts Rt.drvSubmit)))))
  ∧ ∀ (u : State) (it : Item) (id : Nat) (puts : List UnitVal) (code : Nat), u.putStripe it id puts code =
      (((u.lane it 64 0).updWork id fun x => { x with st := .parity, puts := puts, vals := [] }).postParity it.cluster it.ref).advance it code 1 .event u.now)
  ∧ ∀ (s u : State) (k : Fin 12) (c : Fin 256) (it : Item) (w : Work) (raw : List (Nat × Nat × List Byte)), s.RunsWork k c Rt.metaFlush u it w →
      raw = (u.pool w.pool).bays.flatMap (fun b => ((w.fors.flatMap (u.flushBytes w.pool)).eraseDups).map fun g => (b, g.1, g.2)) →
      let v := u.updWork w.id fun x => { x with raw := raw, st := .journalled }
      (raw = [] → exec (.metaFlush k c) s = .next (v.endWork it w false))
      ∧ (raw ≠ [] → exec (.metaFlush k c) s = .next ((v.lane it 0 flushPage).advance it Rt.drvSubmit 1 (v.laneWait Rt.metaFlush) v.now))

/-! ### Network ports -/

/-- Control of a port (04 R115, R128, Table 4-6), the other fields of the write being written first: ENABLE going from 0 to 1 starts the bring-up of
each of its logical ports at step 2; ENABLE going from 1 to 0 takes each of them down at the next seam with reason 2; RESET takes them down with reason
4, clears the port's own status but a loss, begins its crossings anew, and with ENABLE restarts bring-up at step 2; a write that asks for none of it
does no more than the write. -/
def Obligations.PortsAreControlled : Prop :=
  ∀ (s u : State) (p : Fin 16) (w : Word), s.mgtReady = true → u = s.regWrite (Reg.MAC_CTL p) w →
    (Fd.MAC_CTL_ENABLE.get w = 1 → s.fld (Reg.MAC_CTL p) Fd.MAC_CTL_ENABLE = 0 →
      exec (.macCtlEnable p w) s = .next ((u.setFld (Reg.MAC_CTL p) Fd.MAC_CTL_ENABLE 1).bringUp p))
    ∧ (Fd.MAC_CTL_ENABLE.get w ≠ 1 ∨ s.fld (Reg.MAC_CTL p) Fd.MAC_CTL_ENABLE ≠ 0 → exec (.macCtlEnable p w) s = .next u)
    ∧ (Fd.MAC_CTL_ENABLE.get w = 0 → u.fld (Reg.MAC_CTL p) Fd.MAC_CTL_ENABLE = 1 →
      exec (.macCtlDisable p w) s = .next ((u.lportsOf p).foldl (State.linkDownDue · 2 0) (u.setFld (Reg.MAC_CTL p) Fd.MAC_CTL_ENABLE 0)))
    ∧ (Fd.MAC_CTL_ENABLE.get w ≠ 0 ∨ u.fld (Reg.MAC_CTL p) Fd.MAC_CTL_ENABLE ≠ 1 → exec (.macCtlDisable p w) s = .next u)
    ∧ (Fd.MAC_CTL_RESET.get w = 0 → exec (.macCtlReset p w) s = .next u)
    ∧ (Fd.MAC_CTL_RESET.get w ≠ 0 →
      let v := (u.lportsOf p).foldl (State.linkDownDue · 4 (if u.fld (Reg.MAC_CTL p) Fd.MAC_CTL_ENABLE = 1 then 2 else 0)) u
      let a := ((v.wrReg (Reg.MAC_STATUS p) (v.rd (Reg.MAC_STATUS p) &&& (Fd.MAC_STATUS_LOST.mask ||| Fd.MAC_STATUS_LOST_CAUSE.mask))).wrReg (Reg.MAC_LANE_POL p)
        (regReset (Reg.MAC_LANE_POL p))).wrReg (Reg.MAC_TS_LAT p) (regReset (Reg.MAC_TS_LAT p))
      exec (.macCtlReset p w) s = .next ((a.lportsOf p).foldl (fun s m =>
        ((((s.setLocks m 0).wrReg (Reg.MAC_LP_FEC_CORR m) 0).wrReg (Reg.MAC_LP_FEC_UNCORR m) 0).senderReset 1 m).updLport m fun x =>
          { x with calFails := 0, calOk := false, resetDone := true }) a))

/-- Bring-up and loss of a link (04 R127, R128, R131, Table 4-6): each step leads to the next that is not skipped, auto-negotiation without a partner
and abandoned training go back; the lock, held for UP_HOLD, brings the link up at the next seam; a lock that returns within DOWN_HOLD counts a loss,
one that does not takes the link down with reason 1; a failed calibration is counted, and the third in a row loses the port; a port that is not at the
step stays as it is. Pauses and PTP (04 R124, R125, R135, R136): a PFC frame pauses the enabled priorities that it names for their quanta, its other
bits being counted, and a pause that has run out ends; while XOFF holds and the link is up its frame is sent again, after the frame in transmission; a
lost PTP source is replaced by BACKUP or leads to HOLDOVER, and is nothing to a slave that is off; the trim moves only at the seam that ends tick index
255, once, by at most 50 units, and stays within ±100,000. -/
def Obligations.LinksComeUpAndPause : Prop :=
  (∀ (s : State) (m : Fin 128),
    ((s.lport m).step = 2 → s.lportExists m = true → exec (.serdesCalibrationDone m true) s = .next (s.calibrated m))
    ∧ (∀ u, u = (s.setLanes m Fd.MAC_STATUS_CAL_OK false).updLport m (fun x => { x with calFails := x.calFails + 1 }) → (s.lport m).step = 2 → s.lportExists m = true →
        exec (.serdesCalibrationDone m false) s = .next (if 3 ≤ (u.lport m).calFails then u.losePort (m / 8) 1 else u))
    ∧ (∀ pass, (s.lport m).step ≠ 2 ∨ s.lportExists m = false → exec (.serdesCalibrationDone m pass) s = .next s)
    ∧ ((s.lport m).step = 3 → exec (.autonegComplete m) s = .next (s.setStep m (if s.needsLt m then 4 else 5)) ∧ exec (.autonegRestart m) s = .next (s.setStep m 3))
    ∧ ((s.lport m).step ≠ 3 → exec (.autonegComplete m) s = .next s ∧ exec (.autonegRestart m) s = .next s)
    ∧ ((s.lport m).step = 4 → exec (.linkTrainingComplete m) s = .next (s.setStep m 5)
        ∧ exec (.linkTrainingAbandon m) s = .next (s.setStep m (if s.needsAn m then 3 else if s.needsLt m then 4 else 5)))
    ∧ ((s.lport m).step ≠ 4 → exec (.linkTrainingComplete m) s = .next s ∧ exec (.linkTrainingAbandon m) s = .next s)
    ∧ ((s.lport m).step = 5 → exec (.pcsFecLock m) s = .next (((s.setLocks m 1).setLanes m Fd.MAC_STATUS_CDR_LOCK true).setStep m 6))
    ∧ ((s.lport m).step = 8 →
        ((s.lport m).pendDown = 0 →
          exec (.pcsFecLock m) s = .next ((((s.setLocks m 1).setStep m 7).satFld (Reg.MAC_LP_STATUS m) Fd.MAC_LP_STATUS_LOSS_CNT 1).cntMac m 11 1))
        ∧ exec (.downHoldExpire m) s = .next (s.updLport m fun x => { x with pendDown := if x.pendDown = 0 then 1 else x.pendDown }))
    ∧ ((s.lport m).step ≠ 5 → (s.lport m).step ≠ 8 ∨ (s.lport m).pendDown ≠ 0 → exec (.pcsFecLock m) s = .next s)
    ∧ ((s.lport m).step ≠ 8 → exec (.downHoldExpire m) s = .next s)
    ∧ ((s.lport m).step = 6 → exec (.upHoldExpire m) s = .next (s.updLport m fun x => { x with pendUp := true }))
    ∧ ((s.lport m).step ≠ 6 → exec (.upHoldExpire m) s = .next s))
  ∧ ((∀ (s : State) (m : Fin 128) (vec : BitVec 8) (quanta : List Nat),
      let other := ((List.range 8).filter fun i => natBit vec.toNat i && !(s.cntMac m 7 1).lossless m i).length
      let body := fun (s : State) (i : Nat) =>
        if natBit vec.toNat i && s.lossless m i then
          { s with net := { s.net with quanta := Tab.wr (fun _ => 0) s.net.quanta (8 * m.val + i) (quanta.getD i 0 % 65536) } }.setFld (Reg.MAC_LP_STATUS m)
            Fd.MAC_LP_STATUS_PAUSED (setNatBit (s.fld (Reg.MAC_LP_STATUS m) Fd.MAC_LP_STATUS_PAUSED) i (quanta.getD i 0 % 65536 != 0))
        else s
      (s.passes m = true → exec (.pfcFrameReceive m vec quanta) s = .next
        ((List.range 8).foldl body (if other = 0 then s.cntMac m 7 1 else (s.cntMac m 7 1).countDiscard m 5 other)))
      ∧ (s.passes m = false → exec (.pfcFrameReceive m vec quanta) s = .next s))
  ∧ (∀ (s : State) (m : Fin 128) (i : Fin 8),
      exec (.pfcPauseExpire m i) s = .next ({ s with net := { s.net with quanta := Tab.wr (fun _ => 0) s.net.quanta (8 * m.val + i.val) 0 } }.setFld
        (Reg.MAC_LP_STATUS m) Fd.MAC_LP_STATUS_PAUSED (setNatBit (s.fld (Reg.MAC_LP_STATUS m) Fd.MAC_LP_STATUS_PAUSED) i false))
      ∧ (let q := s.fld1 (Reg.MAC_LP_TIMERS m) Fd.MAC_LP_TIMERS_QUANTA
        (s.xoff m i = true → s.egressUp m = true →
          (∀ f, Tab.rd (fun _ => none) s.net.tx m.val = some f →
            exec (.pfcXoffRepeat m i) s = .next { s with net := { s.net with pfcDue := s.net.pfcDue ++ [(m.val, i.val, q)] } })
          ∧ (Tab.rd (fun _ => none) s.net.tx m.val = none → s.netOn = true →
            exec (.pfcXoffRepeat m i) s = .next ((s.emit (.pfc m i q)).cntMac m 8 1)))
        ∧ (s.xoff m i = false ∨ s.egressUp m = false → exec (.pfcXoffRepeat m i) s = .next s)))
  ∧ (∀ s : State, s.Inv →
      (s.ptpState = 0 → exec .ptpSourceLoss s = .next s)
      ∧ (s.ptpState ≠ 0 → ∃ t, exec .ptpSourceLoss s = .next t
        ∧ (s.fld Reg.MAC_PTP_CTL Fd.MAC_PTP_CTL_BACKUP ≠ 255 → s.fld Reg.MAC_PTP_STATUS Fd.MAC_PTP_STATUS_CUR_SRC ≠ s.fld Reg.MAC_PTP_CTL Fd.MAC_PTP_CTL_BACKUP →
            t.ptpState = 1 ∧ t.fld Reg.MAC_PTP_STATUS Fd.MAC_PTP_STATUS_CUR_SRC = s.fld Reg.MAC_PTP_CTL Fd.MAC_PTP_CTL_BACKUP)
        ∧ (s.fld Reg.MAC_PTP_CTL Fd.MAC_PTP_CTL_BACKUP = 255 ∨
              s.fld Reg.MAC_PTP_STATUS Fd.MAC_PTP_STATUS_CUR_SRC = s.fld Reg.MAC_PTP_CTL Fd.MAC_PTP_CTL_BACKUP →
            t.ptpState = 4 ∧ t.fld Reg.MAC_PTP_STATUS Fd.MAC_PTP_STATUS_CUR_SRC = s.fld Reg.MAC_PTP_STATUS Fd.MAC_PTP_STATUS_CUR_SRC)))
  ∧ ∀ s : State, s.Inv →
      (s.atSeam = true → s.itn.tick % 256 = 255 → s.flag Reg.MAC_PTP_CTL Fd.MAC_PTP_CTL_DISCIPLINE_EN = true → s.ptpState = 3 → s.isStandby = false →
          s.net.trimTick ≠ some s.now →
        ∃ t, exec .pllTrimUpdate s = .next t ∧ (∀ o, o ≠ Reg.MAC_PTP_TRIM → t.rd o = s.rd o)
          ∧ t = { s with regs := t.regs, drawn := s.drawn + 1, net := { s.net with trimTick := some s.now } }
          ∧ toInt32 (t.fld Reg.MAC_PTP_TRIM Fd.MAC_PTP_TRIM_TRIM) ≤ 100000 ∧ -100000 ≤ toInt32 (t.fld Reg.MAC_PTP_TRIM Fd.MAC_PTP_TRIM_TRIM)
          ∧ (-100000 ≤ toInt32 (s.fld Reg.MAC_PTP_TRIM Fd.MAC_PTP_TRIM_TRIM) → toInt32 (s.fld Reg.MAC_PTP_TRIM Fd.MAC_PTP_TRIM_TRIM) ≤ 100000 →
              toInt32 (t.fld Reg.MAC_PTP_TRIM Fd.MAC_PTP_TRIM_TRIM) ≤ toInt32 (s.fld Reg.MAC_PTP_TRIM Fd.MAC_PTP_TRIM_TRIM) + 50
              ∧ toInt32 (s.fld Reg.MAC_PTP_TRIM Fd.MAC_PTP_TRIM_TRIM) - 50 ≤ toInt32 (t.fld Reg.MAC_PTP_TRIM Fd.MAC_PTP_TRIM_TRIM)))
      ∧ (s.atSeam = false ∨ s.itn.tick % 256 ≠ 255 ∨ s.flag Reg.MAC_PTP_CTL Fd.MAC_PTP_CTL_DISCIPLINE_EN = false ∨ s.ptpState ≠ 3 ∨ s.isStandby = true ∨
          s.net.trimTick = some s.now → exec .pllTrimUpdate s = .next s))

/-! ### Frames through the serai and the egress hierarchy -/

/-- Header lookup (06 R181 to R195, 04 R121, 15 R444, R465): a port that does not receive, that has a frame in reception, or a dump's plan leaves the
frame out; a port that is not alone in the network, or whose pair holds for a join, counts the frame and discards it. Otherwise the row of Table 4-5
gives its destination, and a discard of rows 2, 3, 7 and 8 is counted; the account of Table 6-2, of the pen or of management firmware that has room
admits it, and where none has it is refused with a count; it is refused as well, with a count, where its convoy of copies has no room; a RoCEv2 frame
that is admitted is marked CE, and counted, where the threshold is reached. The frame is then in reception. -/
def Obligations.FramesAreLookedUp : Prop :=
  ∀ (s : State) (m : Fin 128) (bytes : List Byte) (cycle : Fin 2048),
    (∀ f, s.passes m = false ∨ Tab.rd (fun _ => none) s.net.rx m.val = some f ∨ s.itn.dumpPlan = true → exec (.frameHeaderLookup m bytes cycle) s = .next s)
    ∧ (s.passes m = true → Tab.rd (fun _ => none) s.net.rx m.val = none → s.itn.dumpPlan = false →
      (s.netOn = false ∨ s.joinHold = true → exec (.frameHeaderLookup m bytes cycle) s = .next ((s.cntMac m 0 1).cntMac m 5 1))
      ∧ (s.netOn = true → s.joinHold = false →
        let h := parseHdr bytes
        let L := h.len (s.maxFrame m)
        let c := cellsOf L
        let d := (s.destOf m bytes).1
        let u := s.countDropped m h bytes
        let a := u.areaOf m h.prio c d bytes
        let pair := u.copied m bytes
        let f (v : State) : Frame :=
          { id := v.net.frameSeq, m := m, i := h.prio, bytes := bytes, len := L, cells := c, acct := .none, dest := .drop, bad := false, pairCopy := false,
            refused := true, ce := false, stamp := v.stampAt cycle, ptp := v.rxStamp m cycle, entry := (s.destOf m bytes).2 }
        (a = .none → d.isDrop = false →
          let v := u.countRefused m h.prio c d bytes
          exec (.frameHeaderLookup m bytes cycle) s = .next (v.admitFrame (f v)))
        ∧ (a ≠ .none ∨ d.isDrop = true → u.convoyFree < copiesOf d pair * c →
          let v := u.cntSwc (match d with | .flood _ => 8 | _ => 7) 1
          exec (.frameHeaderLookup m bytes cycle) s = .next (v.admitFrame (f v)))
        ∧ (a ≠ .none ∨ d.isDrop = true → copiesOf d pair * c ≤ u.convoyFree →
          (d ≠ .rdma ∨ u.ecnIn m h.prio bytes = false →
            exec (.frameHeaderLookup m bytes cycle) s = .next (u.admitFrame { f u with acct := a, dest := d, pairCopy := pair, refused := false }))
          ∧ (d = .rdma → u.ecnIn m h.prio bytes = true →
            let v := u.cntSwc 5 1
            exec (.frameHeaderLookup m bytes cycle) s = .next
              (v.admitFrame { f v with bytes := markCe bytes, acct := a, dest := .rdma, pairCopy := pair, refused := false, ce := true })))))

/-- The tail (06 R181, R187, R195, 15 R444, R465): with no frame in reception nothing happens, and under a join's hold the frame goes no further.
Otherwise the frame leaves reception and is counted with its bytes and its errors, the cells beyond its actual length go back, a good frame that was not
refused and takes row 8 is learned, the pair's copy leaves once the tail is in, and the frame goes where its lookup decided, a runt for the transport or
for management firmware giving its cells back. A lost lock ends the frame with a bad tail and starts DOWN_HOLD, or starts UP_HOLD anew; an address table
entry that has not been refreshed is removed. Egress (07 R217 to R221): a free port that transmits and whose shaper holds tokens begins the frame to
which the hierarchy descends, or idles; a departing frame is stamped, lets the PFC frames out that waited for it, frees its cells unless it is held, is
counted and recorded, pays every shaper on its path, and charges each point of it; a forwarded frame whose tail is not in does not depart. -/
def Obligations.FramesEndOrLeaveThePort : Prop :=
  ((∀ (s : State) (m : Fin 128) (rest : List Byte) (bad : Bool) (cycle : Fin 2048), Tab.rd (fun _ => none) s.net.rx m.val = none →
      exec (.frameTail m rest bad cycle) s = .next s)
  ∧ (∀ (s : State) (m : Fin 128) (rest : List Byte) (bad : Bool) (cycle : Fin 2048) (f : Frame), Tab.rd (fun _ => none) s.net.rx m.val = some f →
      let u := { s with net := { s.net with rx := Tab.wr (fun _ => none) s.net.rx m none } }
      (s.joinHold = true → exec (.frameTail m rest bad cycle) s = .next ((u.dropTail f).freeCells .convoy (if f.pairCopy then f.cells else 0)))
      ∧ (s.joinHold = false →
        let got := f.bytes.length + rest.length + 4
        let n := min got (s.maxFrame m + 1)
        let runt := decide (got < 64)
        let cut := decide (s.maxFrame m < got)
        let mismatch := !runt && (parseHdr f.bytes).ipVer != 0 && n != f.len
        let bytes := (f.bytes ++ rest).take (n - 4)
        let c := min f.cells (cellsOf n)
        let a := (u.cntMac m 0 1).cntMac m 1 n
        let b := if runt then a.cntMac m 4 1 else a
        let x := if mismatch then b.cntSwc 2 1 else b
        let y := (if bad || cut || mismatch then x.cntMac m 5 1 else x).returnExcess f c
        let g := { f with bytes := bytes, bad := bad || cut || mismatch || runt || f.bad, cells := c }
        let z := if !g.bad && !f.refused && y.classify m bytes == .other then y.learn m (parseHdr f.bytes).vlan (parseHdr f.bytes).src else y
        let t := if f.pairCopy then (if runt then z else z.copySend g f.ce n cycle).freeCells .convoy c else z
        (runt = true → f.dest = .rdma ∨ f.dest = .mgt ∨ f.dest = .ptp → exec (.frameTail m rest bad cycle) s = .next (t.freeCells f.acct c))
        ∧ (runt = false ∨ (f.dest ≠ .rdma ∧ f.dest ≠ .mgt ∧ f.dest ≠ .ptp) → exec (.frameTail m rest bad cycle) s = .next (t.deliver g))))
  ∧ (∀ (s : State) (m : Fin 128),
      ((s.lport m).step = 7 → exec (.lockLoss m) s = .next (((s.setLocks m 0).frameTail m [] true 2047).setStep m 8))
      ∧ ((s.lport m).step = 6 → exec (.lockLoss m) s = .next ((s.setLocks m 0).updLport m fun x => { x with step := 5, pendUp := false }))
      ∧ ((s.lport m).step ≠ 6 → (s.lport m).step ≠ 7 → exec (.lockLoss m) s = .next s))
  ∧ ∀ (s : State) (vlan : Fin 4096) (mac : List Byte), exec (.macAgeOut vlan mac) s = .next { s with net := { s.net with
      learned := s.net.learned.filter fun e => !(e.vlan == vlan.val && e.mac == mac && s.aged e) } })
  ∧ ((∀ (s u : State) (m : Fin 128) (f : EgFrame), Tab.rd (fun _ => none) s.net.tx m.val = none → s.sends m = true → s.netOn = true → s.joinHold = false →
      s.shaperOk m .port = true →
      (s.descend m 7 .port (s.eligible m) = (some f, u) → exec (.egressSelect m) s = .next { u with net := { u.net with
          egress := u.net.egress.filter (fun (g : EgFrame) => g.id ≠ f.id || (g.leaf == Leaf.mgt) != (f.leaf == Leaf.mgt))
          tx := Tab.wr (fun _ => none) u.net.tx m (some f) } })
      ∧ (s.eligible m = [] → exec (.egressSelect m) s = .next s))
  ∧ (∀ (s : State) (m : Fin 128) (f : EgFrame), Tab.rd (fun _ => none) s.net.tx m.val = some f ∨ s.sends m = false ∨ s.netOn = false ∨ s.joinHold = true ∨
      s.shaperOk m .port = false → exec (.egressSelect m) s = .next s)
  ∧ (∀ (s : State) (m : Fin 128) (cycle : Fin 2048) (f : EgFrame), Tab.rd (fun _ => none) s.net.tx m.val = none ∨
      (Tab.rd (fun _ => none) s.net.tx m.val = some f ∧ f.src ≠ none) → exec (.frameDepart m cycle) s = .next s)
  ∧ ∀ (s : State) (m : Fin 128) (cycle : Fin 2048) (f : EgFrame), Tab.rd (fun _ => none) s.net.tx m.val = some f → f.src = none →
      let L := s.frameLen m f.bytes.length
      let u := (((({ s with net := { s.net with tx := Tab.wr (fun _ => none) s.net.tx m none } }.emitNet f.out).txStamp m cycle f.bytes).flushPfc m).freeFrame f)
      let r := if f.leaf == Leaf.mgt then u else u.entry 3 (leBytes 4 f.id ++ leBytes 2 cycle ++ leBytes 2 (if f.held then 0 else f.cells))
      let w := (r.cntMac m 2 1).cntMac m 3 (f.bytes.length + 4)
      let v := if f.bad && !f.held then w.cntSwc 3 1 else w
      exec (.frameDepart m cycle) s = .next ((v.framePath f).foldl (fun s pc => s.chargePoint m f L pc) (v.payShapers m f L)))

/-- Management frames and address entries (04 R119 to R121, R135, Table 4-4): running firmware takes the oldest frame that waits and frees its cells,
discards a bad one, gives a PTP message of its clock's domain on a port on which it listens to the slave, and answers a request at most 4,096 times a
second per logical port. NET_ADDR_SET with a field out of range ends with GEN_FIELD, then the checks of Table 4-4 are made in their order, and a change
that passes them takes effect at the next seam. -/
def Obligations.FirmwareAnswersFrames : Prop :=
  (∀ s : State, s.net.toMgt = [] ∨ s.fwRuns = false → exec .managementFrame s = .next s)
  ∧ (∀ (s u : State) (f : Frame) (rest : List Frame), s.net.toMgt = f :: rest → s.fwRuns = true →
      u = ({ s with net := { s.net with toMgt := rest } }).freeCells f.acct f.cells →
      (f.bad = true → exec .managementFrame s = .next u)
      ∧ (f.bad = false → f.dest = .ptp →
          let dom := beField f.bytes (ptpOff (parseHdr f.bytes) + 4) 1
          (u.ptpState = 0 ∨ u.ptpHears f.m = false ∨ dom ≠ u.fld Reg.MAC_PTP_CTL Fd.MAC_PTP_CTL_DOMAIN → exec .managementFrame s = .next u)
          ∧ (u.ptpState = 1 ∨ u.ptpState = 4 → u.ptpHears f.m = true → dom = u.fld Reg.MAC_PTP_CTL Fd.MAC_PTP_CTL_DOMAIN → ptpType f.bytes = 0xB →
              exec .managementFrame s = .next (u.setPtpState 2 f.m)))
      ∧ (f.bad = false → f.dest ≠ .ptp → u.addr f.m f.entry = none ∨ u.netOn = false ∨ asks f.bytes = false → exec .managementFrame s = .next u)
      ∧ (∀ a, f.bad = false → f.dest ≠ .ptp → u.addr f.m f.entry = some a → u.netOn = true → asks f.bytes = true →
          let x := u.lport f.m
          (4096 ≤ x.answers → u.now < x.ansTick + 976563 → exec .managementFrame s = .next u)
          ∧ (0 < x.answers → x.answers < 4096 → u.now < x.ansTick + 976563 →
              exec .managementFrame s = .next ((u.updLport f.m fun x => { x with answers := (u.lport f.m).answers + 1 }).sendMgt f.m a.prio (answerFrame f a)))
          ∧ (x.ansTick + 976563 ≤ u.now ∨ x.answers = 0 →
              exec .managementFrame s = .next ((u.updLport f.m fun x => { x with answers := 1, ansTick := u.now }).sendMgt f.m a.prio (answerFrame f a)))))
  ∧ (∀ (s u : State) (d : Desc), s.Takes Op.NET_ADDR_SET d → u = s.start d →
      let fields := decide (d.f 8 1 ≤ 127) && decide (d.f 9 1 ≤ 3) && decide (d.f 10 1 ≤ 1) && d.handle == 0 && d.f 23 1 == 0 && allZero (d.bytes 40 24)
      let entry := (d.f 11 1 == 4 || d.f 11 1 == 6) && decide (d.f 12 2 ≤ 4094) && decide (d.f 14 1 ≤ 7) && decide (d.f 15 1 ≤ 63)
        && unicastMac (d.bytes 16 6) && decide (1 ≤ d.f 22 1) && decide (d.f 22 1 ≤ if d.f 11 1 = 4 then 32 else 128)
        && (d.f 11 1 != 4 || allZero (d.bytes 28 12)) && (d.f 12 2 != 0 || d.f 14 1 == d.f 15 1 / 8)
      (fields = false ∨ (d.f 10 1 ≠ 0 ∧ entry = false) → exec .netAddrSet s = .next ((u.done d St.GEN_FIELD).replicate (.command d.toBytes true [])))
      ∧ (fields = true → d.f 10 1 = 0 ∨ entry = true →
          (∀ r, u.addrRefusal d = some r → exec .netAddrSet s = .next ((u.complete d r.1 r.2.1 r.2.2 0).replicate (.command d.toBytes true [])))
          ∧ (u.addrRefusal d = none → exec .netAddrSet s = .next ((u.defer d).replicate (.command d.toBytes true [])))))
  ∧ ∀ (u : State) (d : Desc), (u.lportExists (d.f 8 1) = false → u.addrRefusal d = some (St.MAC_NO_PORT, 0, 0))
      ∧ (u.lportExists (d.f 8 1) = true →
        (d.f 10 1 = 0 → u.addrRefusal d =
          if (u.addr (d.f 8 1) (d.f 9 1)).isSome = true ∧ u.addrBusy (d.f 8 1) (d.f 9 1) = true then some (St.MAC_ADDR_BUSY, 0, 0) else none)
        ∧ (∀ x, d.f 10 1 = 1 → (u.entries (d.f 8 1)).find? (fun x => x.1 != d.f 9 1 && x.2.mac != d.bytes 16 6) = some x →
            u.addrRefusal d = some (St.CFG_CONFLICT, 16 + 255 * 256, hiLo x.1 0xFFFFFFFF))
        ∧ (d.f 10 1 = 1 → (∀ x ∈ u.entries (d.f 8 1), x.1 ≠ d.f 9 1 → x.2.mac = d.bytes 16 6) →
            ((∃ n < 128, ∃ x ∈ u.entries n, x.2.vlan = d.f 12 2 ∧ x.2.ip = d.bytes 24 16) → u.addrRefusal d = some (St.MAC_ADDR_IN_USE, 0, 0))
            ∧ ((∀ n < 128, ∀ x ∈ u.entries n, x.2.vlan = d.f 12 2 → x.2.ip ≠ d.bytes 24 16) →
                let pfc := u.fld (Reg.MAC_LP_CFG (d.f 8 1)) Fd.MAC_LP_CFG_PFC_EN
                (pfc ≠ 0 → natBit pfc (d.f 14 1) = false → u.addrRefusal d = some (St.CFG_CONFLICT, 14 + 255 * 256, Reg.MAC_LP_CFG (d.f 8 1)))
                ∧ (pfc = 0 ∨ natBit pfc (d.f 14 1) = true → u.addrRefusal d =
                    if (u.addr (d.f 8 1) (d.f 9 1)).isSome = true ∧ u.addrBusy (d.f 8 1) (d.f 9 1) = true then some (St.MAC_ADDR_BUSY, 0, 0) else none))))

/-! ### The RDMA transport -/

/-- Packets are received in the order of Table 5-7 (05 R156 to R165): a frame cut off or with a bad ICRC, a wrong header and an unknown QP are counted
and the frame's cells are freed; a CM packet waits for firmware; a packet of a QP whose context is not resident is parked; one from another address is
counted, one of a QP in ERR too. In sequence, a SEND joins its capsule or ends it, a zero-length READ moves the response record, and every other request
is answered with the NAK of its cause; a gap is answered with one NAK, and an earlier PSN is a duplicate. Responses (05 R167, R168, R172, R174, Table
5-8): a valid ACK completes the probe's sample, frees the held packets up to its PSN and restores the retries; a PSN outside the window is counted; a
NAK goes by its syndrome: a sequence NAK resends from its PSN or, with no retry left, fails the QP with cause 0x01, an RNR NAK starts its wait or fails
with 0x02, the others fail with 0x03 to 0x05; a READ response packet in order joins the waybill's payload, the last one completing the READ, one of a
wrong length fails with 0x09, a gap reissues the READ once; a CNP cuts the rate once in CNP_HOLD. With no frame, with a frame of another kind, or under
a join's hold a row takes none. -/
def Obligations.PacketsAndResponsesAreReceived : Prop :=
  ((∀ s : State, s.joinHold = true ∨ s.net.toRdma = [] → exec .rocePacketReceive s = .next s ∧ exec .ackReceive s = .next s ∧ exec .nakReceive s = .next s ∧
      exec .readResponseReceive s = .next s ∧ exec .cnpReceive s = .next s)
  ∧ (∀ (s u : State) (f : Frame), s.FirstFrame u f →
      let op := (parseBth f.bytes).op
      let k := beField f.bytes ((parseHdr f.bytes).l4 + 20) 1 / 32 % 4
      exec .rocePacketReceive s = .next (u.roceIn f)
      ∧ (op = 0x11 → k = 0 → exec .ackReceive s = .next (u.roceIn f)) ∧ (op ≠ 0x11 ∨ k ≠ 0 → exec .ackReceive s = .next s)
      ∧ (op = 0x11 → k ≠ 0 → exec .nakReceive s = .next (u.roceIn f)) ∧ (op ≠ 0x11 ∨ k = 0 → exec .nakReceive s = .next s)
      ∧ (0x0D ≤ op → op ≤ 0x10 → exec .readResponseReceive s = .next (u.roceIn f)) ∧ (op < 0x0D ∨ 0x10 < op → exec .readResponseReceive s = .next s)
      ∧ (op = 0x81 → exec .cnpReceive s = .next (u.roceIn f)) ∧ (op ≠ 0x81 → exec .cnpReceive s = .next s)))
  ∧ (∀ (s u : State) (f : Frame), s.FirstFrame u f →
    let b := parseBth f.bytes
    (f.bad = true ∨ icrcOk f.bytes = false → exec .rocePacketReceive s = .next ((u.cntRdm 0 1).freeCells f.acct f.cells))
    ∧ (f.bad = false → icrcOk f.bytes = true →
        (b.tver ≠ 0 ∨ b.pkey ≠ 0xFFFF ∧ b.pkey ≠ 0x7FFF → exec .rocePacketReceive s = .next ((u.cntRdm 1 1).freeCells f.acct f.cells))
        ∧ (b.tver = 0 → b.pkey = 0xFFFF ∨ b.pkey = 0x7FFF →
            (b.qpn = 1 → exec .rocePacketReceive s = .next ({ u with rdm := { u.rdm with cm := u.rdm.cm ++ [f] } }.freeCells f.acct f.cells))
            ∧ (b.qpn ≠ 1 → u.qpOf b.qpn = none → exec .rocePacketReceive s = .next ((u.cntRdm 2 1).freeCells f.acct f.cells))
            ∧ (∀ q, b.qpn ≠ 1 → u.qpOf b.qpn = some q →
                ((u.qp q).st.receives = false → exec .rocePacketReceive s = .next ((u.cntRdm 2 1).freeCells f.acct f.cells))
                ∧ ((u.qp q).st.receives = true → u.parks q = true → exec .rocePacketReceive s = .next (u.park q f))))))
  ∧ (∀ (s u : State) (f : Frame) (q : Nat), s.Reaches u f q →
    let h := parseHdr f.bytes
    (h.srcIp ≠ (u.qp q).rip ∨ h.vlan ≠ (u.qp q).vlan → exec .rocePacketReceive s = .next ((u.cntRdm 3 1).freeCells f.acct f.cells))
    ∧ (h.srcIp = (u.qp q).rip → h.vlan = (u.qp q).vlan → (u.qp q).st = .err → exec .rocePacketReceive s = .next ((u.cntRdm 4 1).freeCells f.acct f.cells)))
  ∧ (∀ (s u : State) (f : Frame) (q : Nat), s.Handles u f q →
    let b := parseBth f.bytes
    let v := u.useQp q
    let x := v.qp q
    let d := psnSub b.psn (u.qp q).epsn
    let nak (syn cause : Nat) : Prop := exec .rocePacketReceive s = .next ((v.nakFail q syn cause).freeCells f.acct f.cells)
    (d = 0 → b.op = 0x0C →
      let len := beField f.bytes ((parseHdr f.bytes).l4 + 32) 4
      (len = 0 → x.inReads < x.ird →
        let w := (v.updQp q fun x => { x with inReads := x.inReads + 1, ackDue := true }).accepted q f true true
        exec .rocePacketReceive s = .next ((w.updQp q fun y => { y with readDue := y.readDue ++ [(b.psn, y.msn)] }).freeCells f.acct f.cells))
      ∧ (len = 0 → x.ird ≤ x.inReads → nak synInv 0x07)
      ∧ (0 < len → len ≤ 2147483648 → nak synAccess 0x08)
      ∧ (2147483648 < len → nak synInv 0x07))
    ∧ (d = 0 → 0x06 ≤ b.op → b.op ≤ 0x0B → nak synAccess 0x08)
    ∧ (d = 0 → b.op = 0x03 ∨ b.op = 0x05 ∨ b.op = 0x13 ∨ b.op = 0x14 ∨ b.op = 0x16 ∨ b.op = 0x17 → nak synInv 0x06)
    ∧ (d = 0 → b.op = 0x00 ∨ b.op = 0x01 ∨ b.op = 0x02 ∨ b.op = 0x04 →
      let data := bthBody f.bytes
      let first := b.op == 0x00 || b.op == 0x04
      let last := b.op == 0x02 || b.op == 0x04
      let got := if first then [] else x.rx
      let dscp := if first then (parseHdr f.bytes).dscp else x.rxDscp
      let short := if last then data.isEmpty || decide (x.mtu < data.length) else data.length != x.mtu
      let n := got.length + data.length
      (first = x.reasm → nak synInv 0x06)
      ∧ (first ≠ x.reasm → short = true ∨ 16448 < n ∨ (last = true ∧ n < 64) → nak synInv 0x07)
      ∧ (first ≠ x.reasm → short = false → n ≤ 16448 →
          (last = true → 64 ≤ n →
            let cs := v.settleList (x.rxCells ++ [(f.acct, f.cells)])
            (cs.2.acceptCapsule q (got ++ data) cs.1 dscp f.stamp false = none →
              exec .rocePacketReceive s = .next ((v.cntCmd 1 1).freeCells f.acct f.cells))
            ∧ (∀ w, cs.2.acceptCapsule q (got ++ data) cs.1 dscp f.stamp false = some w → exec .rocePacketReceive s = .next
                ((w.updQp q fun x => { x with rx := [], rxCells := [], reasm := false, ackDue := true }).accepted q f false true)))
          ∧ (last = false →
            let w := if first then { v with rdm := { v.rdm with handles := v.rdm.handles + 1 } } else v
            exec .rocePacketReceive s = .next ((w.updQp q fun y => { y with
              rx := (if first then [] else y.rx) ++ data, rxCells := y.rxCells ++ [(f.acct, f.cells)], rxDscp := dscp
              rxHandle := if first then v.rdm.handles % 4294967296 else y.rxHandle, reasm := true, ackDue := true }).accepted q f false false))))
    ∧ (0 < d → d < 8388608 → isRequest b.op = true →
      ((u.qp q).nakSent = false → (u.qp q).failing = false →
        exec .rocePacketReceive s = .next ((((v.sendNak q synSeq).updQp q fun x => { x with nakSent := true }).cntRdm 12 1).freeCells f.acct f.cells))
      ∧ ((u.qp q).nakSent = true ∨ (u.qp q).failing = true → exec .rocePacketReceive s = .next (v.freeCells f.acct f.cells)))
    ∧ (8388608 ≤ d → isRequest b.op = true → exec .rocePacketReceive s = .next ((v.duplicate q f).freeCells f.acct f.cells)))
  ∧ (∀ (s u : State) (f : Frame) (q : Nat), s.Handles u f q →
    let b := parseBth f.bytes
    let v := u.useQp q
    let syn := beField f.bytes ((parseHdr f.bytes).l4 + 20) 1
    let fail (w : State) (cause : Nat) : Prop := exec .nakReceive s = .next ((w.qpFail q cause).freeCells f.acct f.cells)
    (b.op = 0x11 → syn / 32 % 4 = 0 →
      ((v.qp q).validRsp b.psn = true → exec .ackReceive s = .next
        ((((v.sample q b.psn f.stamp).freeTo q b.psn).updQp q fun x => { x with retryLeft := x.retryCnt }).freeCells f.acct f.cells))
      ∧ ((v.qp q).validRsp b.psn = false → exec .ackReceive s = .next ((v.cntRdm 9 1).freeCells f.acct f.cells)))
    ∧ (b.op = 0x11 → syn / 32 % 4 ≠ 0 →
      let w := v.freeBefore q b.psn
      ((v.qp q).validRsp b.psn = false → exec .nakReceive s = .next ((v.cntRdm 9 1).freeCells f.acct f.cells))
      ∧ ((v.qp q).validRsp b.psn = true →
        (syn / 32 % 4 = 1 →
          ((w.qp q).rnrLeft = 0 → (w.qp q).rnrCnt ≠ 7 → fail (w.updQp q fun x => { x with ackDeadline := 0 }) 0x02)
          ∧ (0 < (w.qp q).rnrLeft ∨ (w.qp q).rnrCnt = 7 → exec .nakReceive s = .next ((w.setQp q { w.qp q with
              rnrLeft := if (w.qp q).rnrCnt = 7 then (w.qp q).rnrLeft else (w.qp q).rnrLeft - 1, rnrResume := w.now + rnrTicks (syn % 32)
              rnrPsn := b.psn, ackDeadline := 0 }).freeCells f.acct f.cells)))
        ∧ (syn / 32 % 4 ≠ 1 → syn % 32 = 0 →
          ((w.qp q).retryLeft = 0 → fail w 0x01)
          ∧ (0 < (w.qp q).retryLeft → exec .nakReceive s = .next
              ((((w.setQp q { w.qp q with retryLeft := (w.qp q).retryLeft - 1 }).resendFrom q b.psn).setDeadline q).freeCells f.acct f.cells)))
        ∧ (∀ n, syn / 32 % 4 ≠ 1 → syn % 32 = n → 1 ≤ n → n ≤ 3 → fail v (n + 2))
        ∧ (syn / 32 % 4 ≠ 1 → 3 < syn % 32 → exec .nakReceive s = .next ((v.cntRdm 1 1).freeCells f.acct f.cells)))))
  ∧ ∀ (s u : State) (f : Frame) (q : Nat), s.Handles u f q →
    let b := parseBth f.bytes
    let v := u.useQp q
    (0x0D ≤ b.op → b.op ≤ 0x10 →
      let data := if b.op = 0x0E then bthBody f.bytes else (bthBody f.bytes).drop 4
      let last := b.op = 0x0F ∨ b.op = 0x10
      ((v.qp q).reads = [] → exec .readResponseReceive s = .next ((v.cntRdm 9 1).freeCells f.acct f.cells))
      ∧ (∀ (e : ReadEnt) (es : List ReadEnt), (v.qp q).reads = e :: es →
        let nx := e.next (v.qp q).mtu
        let a := v.ackIn q b.psn f.stamp
        let c := if (parseHdr f.bytes).ecn = 3 then a.cnp q else a
        let e' := { e with got := e.got + data.length, gap := none }
        (b.psn = nx → (last ∧ data.length ≠ e.len - e.got) ∨ (¬ last ∧ (data.length ≠ (v.qp q).mtu ∨ e.len - e.got ≤ (v.qp q).mtu)) →
          exec .readResponseReceive s = .next ((v.qpFail q 0x09).freeCells f.acct f.cells))
        ∧ (b.psn = nx → (last ∧ data.length = e.len - e.got) ∨ (¬ last ∧ data.length = (v.qp q).mtu ∧ (v.qp q).mtu < e.len - e.got) →
            ∀ w, w = c.updQp q (fun x => if last then { x with reads := es, readsOut := x.readsOut - 1 } else { x with reads := e' :: es }) →
            ((w.wb e.wb).st = .payload ∨ (w.wb e.wb).st = .locked → exec .readResponseReceive s = .next (w.payloadIn e.wb data f.acct f.cells))
            ∧ ((w.wb e.wb).st ≠ .payload → (w.wb e.wb).st ≠ .locked → exec .readResponseReceive s = .next (w.freeCells f.acct f.cells)))
        ∧ (b.psn ≠ nx → (v.qp q).validRsp b.psn = true → psnSub b.psn nx < 8388608 →
            (e.gap = some e.got → exec .readResponseReceive s = .next (v.freeCells f.acct f.cells))
            ∧ (e.gap ≠ some e.got → exec .readResponseReceive s = .next
                (((v.updQp q fun x => { x with reads := { e with gap := some e.got } :: es }).reissueGap q e).freeCells f.acct f.cells)))
        ∧ (b.psn ≠ nx → (v.qp q).validRsp b.psn = false ∨ 8388608 ≤ psnSub b.psn nx →
            exec .readResponseReceive s = .next ((v.cntRdm 9 1).freeCells f.acct f.cells))))
    ∧ (b.op = 0x81 →
      let w := v.cntRdm 10 1
      let x := w.qp q
      let cut := w.fld1 (Reg.RDM_CC_GAIN x.prof) Fd.RDM_CC_GAIN_CNP_CUT
      (x.cnpHold ≤ w.now → exec .cnpReceive s = .next ((w.setQp q { x with
          rate := if w.ccEn then max (w.ccRateMin x.prof) (x.rate * (256 - cut) / 256) else x.rate, inc := 0
          cnpHold := w.now + w.fld1 (Reg.RDM_CC_DELAY x.prof) Fd.RDM_CC_DELAY_CNP_HOLD }).freeCells f.acct f.cells))
      ∧ (w.now < x.cnpHold → exec .cnpReceive s = .next (w.freeCells f.acct f.cells)))

/-- Transmission, fetches and deadlines (05 R152 to R157, R166, R167, R169, R175): a packet that nothing holds back is released, one to be resent goes
before it, and a context that is not resident is fetched first; any other wait, and a join's hold, leaves the QP as it is. A fetch completes from two
ticks after its grant, the parked packets are processed, and the transmission or the expiry that waited for it is acted on; one that waited with a fetch
of another kind is acted on in its tick. An expired ACK deadline of a resident QP costs a retry and resends from UNA_PSN, or fails the QP with cause
0x01, and after a takeover costs none; the end of an RNR wait resends from its PSN; a QP that is not resident has a timer fetch asked for, and a deadline
that has not expired is nothing. The end of a QP (05 R147, R148, Table 5-4): a drained QP disconnects, one that drains for a second fails with cause
0x0C, one in ERR with no waybill left waits in TIMEWAIT, and TIMEWAIT ends in FREE after its time; QP_DESTROY makes its checks, refuses the connection
of a QP in RTR, drains a QP in RTS with MODE 0, and ends one in RTS, DRAIN or DISC with MODE 1 and cause 0x0B. -/
def Obligations.TransmissionsAndQueuePairEnds : Prop :=
  (∀ (s : State) (q : Fin 1048576) (cycle : Fin 2048),
    (s.joinHold = true ∨ s.txWait q = .idle ∨ s.txWait q = .pace ∨ s.txWait q = .limit ∨ s.txWait q = .cells → exec (.transmissionRelease q cycle) s = .next s)
    ∧ (s.joinHold = false →
      (s.txWait q = .go → exec (.transmissionRelease q cycle) s = .next (s.releaseOne q (s.stampAt cycle)))
      ∧ (s.txWait q = .again → exec (.transmissionRelease q cycle) s = .next (State.resendSome q 1 s))
      ∧ (s.txWait q = .fetch → (s.qp q).resident = true → exec (.transmissionRelease q cycle) s = .next s)
      ∧ (s.txWait q = .fetch → (s.qp q).resident = false → exec (.transmissionRelease q cycle) s = .next (s.askEgress q)))
    ∧ (∀ g t, s.joinHold = false → (s.qp q).fetch = some g → g.grant = some t → t + 2 ≤ s.now →
        let u := (s.updQp q fun x => { x with fetch := none, resident := true, home := x.ctxBytes q }).penRelease q
        (g.kind = 0 → exec (.contextFetchComplete q) s = .next u)
        ∧ (g.kind = 1 → exec (.egressFetchRelease q cycle) s = .next (State.releaseMany q (s.stampAt cycle) 4096 u))
        ∧ (g.kind = 2 → exec (.timerFetchComplete q) s = .next (u.deadlines q)))
    ∧ (s.fetchDue q 0 = false → exec (.contextFetchComplete q) s = .next s)
    ∧ (s.fetchDue q 1 = false →
        (s.releaseDue q = true → exec (.egressFetchRelease q cycle) s = .next (State.releaseMany q (s.stampAt cycle) 4096 s))
        ∧ (s.releaseDue q = false → exec (.egressFetchRelease q cycle) s = .next s))
    ∧ (s.fetchDue q 2 = false →
        (∀ t, (s.qp q).resident = true → (s.qp q).timerAt = some t → t ≤ s.now →
          exec (.timerFetchComplete q) s = .next ((s.updQp q fun x => { x with timerAt := none }).deadlines q))
        ∧ ((s.qp q).resident = false ∨ (s.qp q).timerAt = none → exec (.timerFetchComplete q) s = .next s)))
  ∧ (∀ (s : State) (q : Fin 1048576),
    (s.ackDue q = false → exec (.ackTimeout q) s = .next s)
    ∧ (s.rnrDue q = false → exec (.rnrResume q) s = .next s)
    ∧ (s.ackDue q = true → (s.qp q).resident = false → exec (.ackTimeout q) s = .next (s.askTimer q))
    ∧ (s.rnrDue q = true → (s.qp q).resident = false → exec (.rnrResume q) s = .next (s.askTimer q))
    ∧ (∀ t, (s.qp q).resident = true → (s.qp q).timerAt = some t → s.now < t → exec (.ackTimeout q) s = .next s ∧ exec (.rnrResume q) s = .next s)
    ∧ ((s.qp q).resident = true → (∀ t, (s.qp q).timerAt = some t → t ≤ s.now) →
      (s.ackDue q = true →
        let u := s.cntRdm 8 1
        let free := u.pair.freeResend.contains q.val
        let v := { u with pair := { u.pair with freeResend := u.pair.freeResend.filter (· != q.val) } }
        ((u.qp q).retryLeft = 0 → free = false → exec (.ackTimeout q) s = .next ((u.updQp q fun x => { x with ackDeadline := 0 }).qpFail q 0x01))
        ∧ (0 < (u.qp q).retryLeft → free = false → exec (.ackTimeout q) s = .next
            (((v.setQp q { u.qp q with retryLeft := (u.qp q).retryLeft - 1 }).resendFrom q (u.qp q).unaPsn).setDeadline q))
        ∧ (free = true → exec (.ackTimeout q) s = .next (((v.setQp q (u.qp q)).resendFrom q (u.qp q).unaPsn).setDeadline q)))
      ∧ (s.rnrDue q = true →
        exec (.rnrResume q) s = .next (((s.setQp q { s.qp q with rnrResume := 0 }).resendFrom q (s.qp q).rnrPsn).setDeadline q))))
  ∧ (∀ (s : State) (q : Fin 1048576),
      ((s.qp q).st = .drain → s.wbsOf q = [] → (s.qp q).held = [] → (s.qp q).tx = [] → exec (.qpDrained q) s = .next (s.qpWant q .disc))
      ∧ ((s.qp q).st ≠ .drain ∨ s.wbsOf q ≠ [] ∨ (s.qp q).held ≠ [] ∨ (s.qp q).tx ≠ [] → exec (.qpDrained q) s = .next s)
      ∧ ((s.qp q).st = .drain → (s.qp q).drainTick + 976563 ≤ s.now → exec (.drainTimeout q) s = .next (s.qpWant q (.err 0x0C)))
      ∧ ((s.qp q).st ≠ .drain ∨ s.now < (s.qp q).drainTick + 976563 → exec (.drainTimeout q) s = .next s)
      ∧ ((s.qp q).st = .err → s.wbsOf q = [] → exec (.qpErrCleared q) s = .next (s.qpWant q .timewait))
      ∧ ((s.qp q).st ≠ .err ∨ s.wbsOf q ≠ [] → exec (.qpErrCleared q) s = .next s)
      ∧ ((s.qp q).st = .timewait → (s.qp q).twTick + s.fld1 Reg.RDM_CM_CFG Fd.RDM_CM_CFG_TIMEWAIT * 256 ≤ s.now →
          exec (.timewaitExpire q) s = .next (s.qpWant q .free))
      ∧ ((s.qp q).st ≠ .timewait ∨ s.now < (s.qp q).twTick + s.fld1 Reg.RDM_CM_CFG Fd.RDM_CM_CFG_TIMEWAIT * 256 → exec (.timewaitExpire q) s = .next s))
  ∧ ∀ (s u : State) (d : Desc) (q : Nat), s.Takes Op.QP_DESTROY d → u = s.start d → q = d.f 8 4 % 1048576 →
      let fields := d.handle == 0 && d.reservedZero [(8, 4), (12, 1)] && decide (d.f 8 4 < 16777216) && decide (d.f 12 1 ≤ 1)
      let x := u.qp q
      let ends (t : State) : Prop := exec .qpDestroy s = .next (t.replicate (.command d.toBytes true []))
      (fields = false → ends (u.done d St.GEN_FIELD))
      ∧ (fields = true → u.qpOf (d.f 8 4) ≠ some q → ends (u.done d St.RDM_NO_QP))
      ∧ (fields = true → u.qpOf (d.f 8 4) = some q → x.st = .timewait ∨ (d.f 12 1 = 0 ∧ (x.st = .drain ∨ x.st = .disc ∨ x.st = .err)) →
          ends (u.done d St.RDM_QP_STATE))
      ∧ (fields = true → u.qpOf (d.f 8 4) = some q → x.st ≠ .timewait → d.f 12 1 = 1 ∨ (x.st ≠ .drain ∧ x.st ≠ .disc ∧ x.st ≠ .err) →
          let v := u.updQp q fun x => { x with destroy := some d }
          let y := v.qp q
          (y.stNow = .rtr → ends ((v.cmSend q (.rej .consumerReject 0)).qpWant q .timewait))
          ∧ (d.f 12 1 = 0 → y.stNow = .rts → ends (v.qpWant q .drain))
          ∧ (d.f 12 1 = 1 → y.stNow = .rts ∨ y.stNow ≠ .rtr ∧ (y.st = .drain ∨ y.st = .disc) → ends (v.qpWant q (.err 0x0B)))
          ∧ (y.stNow ≠ .rtr → y.stNow ≠ .rts → d.f 12 1 = 0 ∨ (y.st ≠ .drain ∧ y.st ≠ .disc) → ends v))

/-- Connection management (05 R144 to R147, 15 R449, Table 5-3): firmware that runs and is no standby's takes the oldest CM packet. A REQ is rejected
with the order of the first check that fails: service, transport, address entry, a stale connection, a record format, limits of the queue, path MTU,
pending connections and QP numbers; one of a QP that is already in RTR has its REP repeated; a good one builds a context in RTR at the next seam. RTU,
DREQ and DREP move the QP on, a DREQ being answered by one DREP, and the answer joins the management leaf of the address entry. REP and DREQ are repeated
every 16,384 ticks, and the fourth unanswered ends the QP. Without running firmware, on a standby, or with no packet nothing happens. -/
def Obligations.ConnectionsAreManaged : Prop :=
  (∀ (s : State) (r : CmReq) (q : Fin 1048576), s.fwRuns = false ∨ s.isStandby = true ∨ s.rdm.cm = [] → exec (.cmReq r) s = .next s ∧ exec (.cmRtu q) s = .next s ∧
      exec (.cmDreq q) s = .next s ∧ exec (.cmDrep q) s = .next s)
  ∧ (∀ (s u : State) (f : Frame) (rest : List Frame), s.fwRuns = true → s.isStandby = false → s.rdm.cm = f :: rest → u = { s with rdm := { s.rdm with cm := rest } } →
      (∀ r : CmReq,
        let h := parseHdr f.bytes
        let ends (t : State) : Prop := exec (.cmReq r) s = .next (t.replicate (.cmReq r))
        let rejects (o : Nat) (why : RejReason) (st : Nat) : Prop := ends (u.cmReject f r.remoteQpn o why st)
        let peer (x : Qp) : Bool := x.rip == h.srcIp && x.rqpn == r.remoteQpn
        let opens (q : Nat) : Bool := (u.qp q).st == .rtr || (u.qp q).next == .rtr
        let path : Prop := 3 ≤ r.pmtu ∧ r.pmtu ≤ 5 ∧ 128 * 2 ^ r.pmtu + 102 ≤ u.maxFrame f.m ∧ r.respRes ≠ 0
        let pending := (u.knownQps.filter opens).length
        let most := u.fld1 Reg.RDM_CM_CFG Fd.RDM_CM_CFG_MAX_PENDING
        (r.serviceId ≠ u.serviceId → rejects 1 .invalidServiceId 0)
        ∧ (r.serviceId = u.serviceId →
          (r.rc = false → rejects 2 .consumerReject 0)
          ∧ (r.rc = true → u.matchEntry f.m h.vlan h.dstIp = none → rejects 3 .invalidGid 0)
          ∧ (∀ e, r.rc = true → u.matchEntry f.m h.vlan h.dstIp = some e →
            let stale (q : Nat) : Bool := peer (u.qp q) && ((u.qp q).st == .rts || (u.qp q).st == .drain || (u.qp q).st == .disc)
            let twin := u.knownQps.find? fun q => peer (u.qp q) && opens q
            ((∃ q ∈ u.liveQps, stale q = true) → rejects 4 .staleConnection 0)
            ∧ ((∀ q ∈ u.liveQps, stale q = false) →
              (∀ q, twin = some q → (u.qp q).st = .rtr → ends (u.cmSend q (.rep (u.qpn q) (u.qp q).unaPsn (u.qp q).ord (u.qp q).ird ((u.qp q).depth - 1))))
              ∧ (∀ q, twin = some q → (u.qp q).st ≠ .rtr → ends u)
              ∧ (twin = none →
                (r.recfmt ≠ 0 → rejects 5 .consumerReject cmInvalidRecfmt)
                ∧ (∀ st, r.recfmt = 0 → u.reqLimits r = some st → rejects 6 .consumerReject st)
                ∧ (r.recfmt = 0 → u.reqLimits r = none →
                  (¬ path → rejects 7 .consumerReject 0)
                  ∧ (path → most ≤ pending → rejects 8 .noResources 0)
                  ∧ (path → pending < most → u.nextQp = none → rejects 9 .noQpAvailable 0)
                  ∧ (∀ q, path → pending < most → u.nextQp = some q → ends (u.buildQp r f q e))))))))
      ∧ ∀ q : Fin 1048576,
          let x := u.qp q
          let drep := u.cmSend q (.drep (u.qpn q))
          (x.st = .rtr → exec (.cmRtu q) s = .next ((u.qpWant q .rts).replicate (.cmRtu q)))
          ∧ (x.st ≠ .rtr → exec (.cmRtu q) s = .next (u.replicate (.cmRtu q)))
          ∧ (x.st = .disc → exec (.cmDreq q) s = .next ((drep.qpWant q .timewait).replicate (.cmDreq q))
              ∧ exec (.cmDrep q) s = .next ((u.qpWant q .timewait).replicate (.cmDrep q)))
          ∧ (x.st ≠ .disc → exec (.cmDrep q) s = .next (u.replicate (.cmDrep q)))
          ∧ (x.st = .rts ∨ x.st = .drain → exec (.cmDreq q) s = .next
              (((drep.updQp q fun x => { x with dreqCause := true }).qpFail q 0x0A).replicate (.cmDreq q)))
          ∧ (x.st = .rtr → x.next = .rts → exec (.cmDreq q) s = .next
              (((u.updQp q fun x => { x with dreqCause := true }).qpFail q 0x0A).replicate (.cmDreq q)))
          ∧ (x.st = .err ∨ x.st = .timewait → exec (.cmDreq q) s = .next (drep.replicate (.cmDreq q)))
          ∧ (x.st = .free ∨ (x.st = .rtr ∧ x.next ≠ .rts) → exec (.cmDreq q) s = .next (u.replicate (.cmDreq q))))
  ∧ (∀ (s : State) (m e : Nat) (rmac rip : List Byte) (n : Nat) (msg : CmMsg),
      (s.netOn = true → s.cmPut m e rmac rip n msg =
        s.sendMgtOf m (s.addrOr m e).prio (cmFrame (s.addrOr m e) rmac rip msg) (some (rip, n, msg)))
      ∧ (s.netOn = false → s.cmPut m e rmac rip n msg = s))
  ∧ ∀ (s : State) (q : Fin 1048576),
      ((s.qp q).next = .none → (s.qp q).cmTick + 16384 ≤ s.now →
        ((s.qp q).st = .rtr → ((s.qp q).cmSent < 4 → exec (.repResend q) s = .next (s.sendRep q))
          ∧ (4 ≤ (s.qp q).cmSent → exec (.repResend q) s = .next ((s.cmSend q (.rej .timeout 0)).qpWant q .timewait)))
        ∧ ((s.qp q).st = .disc → ((s.qp q).cmSent < 4 → exec (.dreqResend q) s = .next (s.sendDreq q))
          ∧ (4 ≤ (s.qp q).cmSent → exec (.dreqResend q) s = .next (s.qpWant q .timewait))))
      ∧ ((s.qp q).next ≠ .none ∨ s.now < (s.qp q).cmTick + 16384 ∨ (s.qp q).st ≠ .rtr → exec (.repResend q) s = .next s)
      ∧ ((s.qp q).next ≠ .none ∨ s.now < (s.qp q).cmTick + 16384 ∨ (s.qp q).st ≠ .disc → exec (.dreqResend q) s = .next s)

/-! ### The command engine -/

/-- From capsule to waybill (08 R238 to R240, R249, R251, 02 R69): a capsule that a row of Table 8-6 answers goes to XFER_ARM with that status, any other
to CMD_ADMIT, where it is answered, suspended, admitted, or stays for what it lacks; a command that is restarted goes on by its state; the answer of a
suspended channel is Namespace Not Ready, or what rows 2 and 3 make of it. Range locks, retirement and Abort (08 R243 to R246, R248 to R250): a command
that takes no entry is LOCKED; one that does takes the lowest free entry, HOLDING when no entry conflicts and WAITING for the number that do; without a
free entry it stays; a COMMITTED waybill becomes FREE, an ABANDONED one when nothing of it is outstanding; an Abort beyond the limit says so, one that
names a command not yet admitted marks it, one that names a command in flight sets its flag at the seam, one that names an Asynchronous Event Request
completes it in the next tick, and one that names none answers 1. A routine with no item to take does nothing, and one on a waybill that is FREE, cut
short or ABANDONED does not do its work. -/
def Obligations.CapsulesLocksAndAborts : Prop :=
  ((∀ (s : State) (k : Fin 12) (c : Fin 256),
      let none_ (code : Nat) (i : Instr) : Prop := s.nextRun k c code = none → exec i s = .next s
      none_ Rt.rxParse (.rxParse k c) ∧ none_ Rt.cmdAdmit (.cmdAdmit k c) ∧ none_ Rt.suspendResp (.suspendResp k c) ∧ none_ Rt.lockCheck (.lockCheck k c)
      ∧ none_ Rt.cplRetire (.cplRetire k c) ∧ none_ Rt.abortScan (.abortScan k c) ∧ none_ Rt.mapXlate (.mapXlate k c) ∧ none_ Rt.cacheProbe (.cacheProbe k c)
      ∧ none_ Rt.piCheck (.piCheck k c) ∧ none_ Rt.cacheFill (.cacheFill k c) ∧ none_ Rt.xferArm (.xferArm k c) ∧ none_ Rt.adminStep (.adminStep k c)
      ∧ none_ Rt.parityPlan (.parityPlan k c) ∧ none_ Rt.journalPut (.journalPut k c)
      ∧ none_ Rt.journalRetire (.journalRetire k c) ∧ none_ Rt.metaFlush (.metaFlush k c))
  ∧ ∀ (s u : State) (k : Fin 12) (c : Fin 256) (it : Item) (w : Nat) (x : Waybill), it.ref = .wb w → x = u.wb w →
      let stops (code : Nat) (i : Instr) : Prop := s.Enters k c code u it →
        (x.st = .free → exec i s = .next (u.endItem it)) ∧ (x.st ≠ .free → x.cut = true ∨ x.st = .abandoned → exec i s = .next (u.cutOff it w))
      stops Rt.lockCheck (.lockCheck k c) ∧ stops Rt.abortScan (.abortScan k c) ∧ stops Rt.mapXlate (.mapXlate k c) ∧ stops Rt.cacheProbe (.cacheProbe k c)
      ∧ stops Rt.piCheck (.piCheck k c) ∧ stops Rt.cacheFill (.cacheFill k c) ∧ stops Rt.adminStep (.adminStep k c))
  ∧ ((∀ (s u : State) (k : Fin 12) (c : Fin 256) (it : Item) (id : Nat), s.Enters k c Rt.rxParse u it → it.ref = .cap id →
      (u.cap? id = none → exec (.rxParse k c) s = .next (u.endItem it))
      ∧ ∀ cap, u.cap? id = some cap →
        (u.qpOf cap.qpn = none → exec (.rxParse k c) s = .next (((u.endItem it).freeAll cap.cells).dropCap id))
        ∧ ∀ q, u.qpOf cap.qpn = some q →
          (u.parseRows q cap = none → exec (.rxParse k c) s = .next (u.advance it Rt.cmdAdmit 1 .none u.now))
          ∧ (∀ a, u.parseRows q cap = some a →
              let v := match a.cnt with | some n => u.cntCmd n 1 | none => u
              exec (.rxParse k c) s = .next
                ((v.updCap cap.id fun x => { x with answer := some (a.status, 0), counted := x.counted && a.counted }).advance it Rt.xferArm 1 .none v.now)))
  ∧ (∀ (s u : State) (k : Fin 12) (c : Fin 256) (it : Item) (id q : Nat) (cap : Capsule), s.Enters k c Rt.cmdAdmit u it → it.ref = .cap id →
      u.cap? id = some cap → u.qpOf cap.qpn = some q →
      let write := isRw (u.qp q).qid cap.sqe && sqeOp cap.sqe != 0x02
      (u.admitRows q cap = .pass → write = false ∨ u.behind cap = false → exec (.cmdAdmit k c) s = .next (u.admitCap it q cap))
      ∧ (u.admitRows q cap = .pass → write = true → u.behind cap = true → exec (.cmdAdmit k c) s = .next (u.stay it 9 true))
      ∧ (∀ n, u.admitRows q cap = .wait n → exec (.cmdAdmit k c) s = .next (u.stay it n (n != 2)))
      ∧ (u.admitRows q cap = .suspend → exec (.cmdAdmit k c) s = .next (u.advance it Rt.suspendResp 1 .none u.now))
      ∧ (∀ a, u.admitRows q cap = .answer a → exec (.cmdAdmit k c) s = .next (u.shortAnswer it cap a)))
  ∧ (∀ (s u : State) (k : Fin 12) (c : Fin 256) (it : Item) (w : Nat), s.Enters k c Rt.cmdAdmit u it → it.ref = .wb w →
      exec (.cmdAdmit k c) s = .next (u.resumeWb it w))
  ∧ ∀ (s u : State) (k : Fin 12) (c : Fin 256) (it : Item) (id : Nat) (cap : Capsule), s.Enters k c Rt.suspendResp u it → it.ref = .cap id →
      u.cap? id = some cap →
      exec (.suspendResp k c) s = .next (u.armAnswer it { cap with answer := some (Nv.notReady, 0) })
      ∧ (let v := (u.cntCmd 0 1).endItem it
        ∀ q, v.qpOf cap.qpn = some q → isConnect cap.sqe = false → (∀ i, cap.chan = some i → ∀ t : State, (t.chan i).st ≠ .closing) →
          u.armAnswer it { cap with answer := some (Nv.notReady, 0) } =
            ((v.sendCqe q cap.chan noWb 0 cap.cid (u.lastStatus cap Nv.notReady)).freeAll cap.cells).dropCap cap.id))
  ∧ ((∀ (s u : State) (k : Fin 12) (c : Fin 256) (it : Item) (w : Nat) (x : Waybill), s.RunsWb k c Rt.lockCheck u it w → x = u.wb w →
      (x.locks = false → exec (.lockCheck k c) s = .next ((u.updWb w fun y => { y with st := .locked }).advance it x.afterLock 1 .none u.now))
      ∧ (x.locks = true → 65536 ≤ Tab.lowest u.cmd.locks → exec (.lockCheck k c) s = .next (u.stay it 4 false))
      ∧ (x.locks = true → Tab.lowest u.cmd.locks < 65536 →
          let l := Tab.lowest u.cmd.locks
          let e : Lock :=
            { volume := x.volume, state := 0, write := x.write, ordered := x.ordered, waybill := w, first := x.slba, last := x.slba + x.blocks - 1
              seq := u.cmd.lockSeq, blockers := 0, chan := x.chan % 262144, noRange := !x.io }
          let n := (u.cmd.locks.filter fun (o : Nat × Lock) => e.conflicts o.2).length
          let v := u.setLock l { e with state := if n = 0 then 2 else 1, blockers := n }
          let y := ({ v with cmd := { v.cmd with lockSeq := (v.cmd.lockSeq + 1) % 4294967296 } }).updWb w fun x =>
            { x with st := if n = 0 then .locked else .lockWait, lock := l, lockValid := true }
          (n = 0 → exec (.lockCheck k c) s = .next ((y.stamp w 2).advance it x.afterLock 1 .none y.now))
          ∧ (0 < n → exec (.lockCheck k c) s = .next ((y.cntCmd 7 1).advance it x.afterLock 1 .event y.now))))
  ∧ (∀ (s u : State) (k : Fin 12) (c : Fin 256) (it : Item) (w : Nat) (x : Waybill), s.Enters k c Rt.cplRetire u it → it.ref = .wb w → x = u.wb w →
      (x.st = .committed → exec (.cplRetire k c) s = .next (u.freeWb w))
      ∧ (x.st = .abandoned →
          (u.refCmds it.ref ≠ [] → exec (.cplRetire k c) s = .next (u.toReap it))
          ∧ (u.refCmds it.ref = [] → x.filled = true → u.now < x.fillTick + 2 → exec (.cplRetire k c) s = .next (u.later it))
          ∧ (u.refCmds it.ref = [] → x.filled = false ∨ x.fillTick + 2 ≤ u.now → exec (.cplRetire k c) s = .next (u.freeWb w)))
      ∧ (x.st ≠ .committed → x.st ≠ .abandoned → exec (.cplRetire k c) s = .next (u.endItem it)))
  ∧ ∀ (s u : State) (k : Fin 12) (c : Fin 256) (it : Item) (w : Nat) (x : Waybill), s.RunsWb k c Rt.abortScan u it w → x = u.wb w →
      let sqid := sqeDw x.sqe 10 % 65536
      let cid := sqeDw x.sqe 10 / 65536
      let key := (u.qp ((u.qpOf x.qpn).getD 0)).ctrl
      let ends (v : State) (st dw : Nat) : Prop := exec (.abortScan k c) s = .next
        ((v.updWb w fun x => { x with status := st, dw0 := dw }).advance it Rt.xferArm 1 .none (v.now + 1))
      let qs := Tab.keys (fun y => y.bound && y.ctrl == key && y.qid == sqid) u.rdm.qps
      (x.beyond = true → ends u Nv.abortLimit 0)
      ∧ (x.beyond = false → qs = [] → ends (u.cntCmd 11 1) 0 1)
      ∧ (∀ p ps, x.beyond = false → qs = p :: ps →
          let waits (e : Capsule) : Bool := e.qpn == u.qpn p && e.cid == cid && e.counted
          let runs := u.wbsThat fun y => y.qpn == u.qpn p && y.cid == cid && y.st != .committed && y.st != .abandoned && !isAbort y
          let aer (a : AerSlot) : Bool := a.qpn == u.qpn p && a.cid == cid
          (∀ e, u.cmd.caps.find? waits = some e → ends (u.updCap e.id fun e => { e with abort := true }) 0 0)
          ∧ (u.cmd.caps.find? waits = none →
            (∀ v vs, runs = v :: vs → ends { u with cmd := { u.cmd with abortDue := u.cmd.abortDue ++ [v] } } 0 0)
            ∧ (runs = [] → (u.ctrl key).aers.any aer = false → ends (u.cntCmd 11 1) 0 1)
            ∧ (runs = [] → (u.ctrl key).aers.any aer = true →
                let y := u.updCtrl key fun c => { c with aers := c.aers.filter fun a => !aer a }
                let id := y.cmd.capSeq
                let cap : Capsule :=
                  { id := id, qpn := u.qpn p, chan := y.chanOf x.chan, cid := cid, sqe := zeros 64, icd := [], tick := y.now, reject := false, abort := false
                    counted := true, answer := some (Nv.abortReq, 0), cells := [], cluster := it.cluster, cls := it.cls, dscp := 0, pre := 0
                    deferred := false, wasDeferred := false, parked := false, stamp := 0 }
                let z : State := { y with cmd := { y.cmd with caps := y.cmd.caps ++ [cap], capSeq := id + 1 } }
                ends (z.addItem { ref := .cap id, cluster := it.cluster, cls := it.cls, code := Rt.xferArm, leg := 1, wait := .none, ready := z.now + 1 }) 0 0))))

/-- The data path of a read (08 Table 8-9; 09 R281 to R286, R293, R299; 11 R340): leg 1 of the map lookup asks for its entry; a read's cache lookup
follows at once and leg 2 comes after both requests, a write's payload or its check follows beside leg 2, which resolves the members; when every sector
of a read is in lines the lines are read, and otherwise the read goes to DRV_SUBMIT; the lines and the misses are counted. -/
def Obligations.ReadsFindTheirUnits : Prop :=
  ∀ (s u : State) (k : Fin 12) (c : Fin 256) (it : Item) (w : Nat) (x : Waybill), x = u.wb w →
    (s.RunsWb k c Rt.mapXlate u it w →
      (it.leg = 1 →
        let v := u.lane it 64 0
        (x.write = false → exec (.mapXlate k c) s = .next (v.advance it Rt.cacheProbe 1 .none v.now))
        ∧ (x.write = true → exec (.mapXlate k c) s = .next
            ((v.addItem { it with code := Rt.mapXlate, leg := 2, wait := v.laneWait Rt.mapXlate, ready := v.now, on := none, step := 0 }).advance it
              (if x.opcode = 0x08 then Rt.piCheck else Rt.xferArm) 1 .none v.now)))
      ∧ (it.leg ≠ 1 →
        let v := (u.updWb w fun y => { y with
          map := (unitsOf (u.vol x.volume).lbaf y.slba y.blocks).map fun t => (t, u.mapPlace (u.chan y.chan).firstEntry x.volume t) }).stamp w 3
        (x.write = true → exec (.mapXlate k c) s = .next (v.endItem it))
        ∧ (x.write = false → exec (.mapXlate k c) s = .next (v.advance it Rt.cacheProbe 2 .none v.now))))
    ∧ (s.RunsWb k c Rt.cacheProbe u it w →
      (it.leg = 1 →
        exec (.cacheProbe k c) s = .next ((u.lane it 64 0).advance it Rt.mapXlate 2
          (if Config.prefetches Rt.mapXlate then u.laneWait Rt.mapXlate else u.laneWait Rt.cacheProbe) u.now))
      ∧ (it.leg ≠ 1 →
        let f := (u.vol x.volume).lbaf
        let us := x.map.map fun (e : Nat × Nat × Nat × Nat) => e.1
        let found := us.filterMap fun t => (u.findLine x.volume t).map fun l => (t, l.1, l.2)
        let parts := (found.filter fun (e : Nat × Nat × Line) => Nat.land e.2.2.valid (x.maskOf f e.1) != 0).map
          fun (e : Nat × Nat × Line) => ({ unit := e.1, valid := e.2.2.valid, data := e.2.2.data, dirty := e.2.2.isDirty } : UnitPart)
        let full := parts.filter fun p => covers p.valid (x.maskOf f p.unit)
        let v := found.foldl (fun s (e : Nat × Nat × Line) =>
          if full.any (fun p => p.unit == e.1) then s.updLine e.2.1 fun l => { l with ref := true } else s) u
        let y := (v.cntLay 8 full.length).cntLay 9 (us.length - full.length)
        (full.length = us.length →
          let z := (y.updWb w fun y => { y with lines := parts, hit := true, st := .media, pendingIo := min 255 full.length }).stamp w 4
          exec (.cacheProbe k c) s = .next
            ((z.lane it 0 (min 131072 (4096 * full.length))).advance it Rt.piCheck 1 (z.laneWait Rt.cacheProbe) z.now))
        ∧ (full.length ≠ us.length →
          let z := (y.updWb w fun y => { y with lines := parts, hit := false, pendingIo := 0 }).stamp w 4
          exec (.cacheProbe k c) s = .next (z.advance it Rt.drvSubmit 1 .none z.now))))

/-- Checks and the cipher (02 R42, 11 R340 to R345): PI_CHECK of an invocation whose volume's key is not LOADED ends the command with Access Denied, and
any other posts the request of the invocation to the array of its cluster, which takes it (an invocation is at most 128 KiB): a read's
next leg waits for it, a write posts its further invocations and then waits. The array completes its requests in its order, latency in the tick and the rest before the tick after the next; a standby waits for the digests of a read; what a command that has ended had posted is dropped.
Cache writes and transfers (08 R237, Table 8-9; 09 R281, R282): leg 1 allocates a line for each unit of the invocation; leg 2 counts the invocation, and
the last writes every part, frees the payload, sets FILLED and waits until the data is durable. XFER_ARM arms a short answer; it arms the next READ of a
write's payload, or takes the payload that came in the capsule; it arms the data of a read's invocation, and with the last one the completion; it
fetches the data of a command that ADMIN_STEP executes; and the completion of a command that has failed, is durable or has been executed is armed with
its status, the waybill becoming COMMITTED. -/
def Obligations.RequestsAreCheckedAndAnswered : Prop :=
  ((∀ (s u : State) (k : Fin 12) (c : Fin 256) (it : Item) (w : Nat) (x : Waybill), s.RunsWb k c Rt.piCheck u it w → x = u.wb w →
      let V := u.vol x.volume
      let a := if x.write then u.updWb w fun y => { y with st := .fill } else u
      let b := if x.st = .payload then a.stampFirst w 11 else a
      let v := if x.hit then b.updWb w fun y => { y with pendingIo := 0 } else b
      let i := if x.write then x.piPosted else x.progress
      (v.keyReady V = false → exec (.piCheck k c) s = .next ((((v.forgetCipher w).cntCip 4 1).updWb w fun y =>
          { y with status := stDenied, piFail := some (y.slba, stDenied) }).advance it Rt.xferArm 1 .none v.now))
      ∧ (v.keyReady V = true →
          let y := (v.postCipher it.cluster it.ref i (passesOf (x.invRange V.lbaf i).length (lbaData V.lbaf)) (v.latencyClass it.cls) (v.volKey V)).updWb w
            fun y => { y with piPosted := i + 1 }
          (x.write = false → exec (.piCheck k c) s = .next (y.advance it Rt.xferArm 1 .event y.now))
          ∧ (x.write = true → i + 1 < x.invs V.lbaf → exec (.piCheck k c) s = .next (y.advance it Rt.piCheck 1 .none y.now))
          ∧ (x.write = true → x.invs V.lbaf ≤ i + 1 → exec (.piCheck k c) s = .next (y.advance it Rt.cacheFill 1 .event y.now))))
  ∧ (∀ (s : State) (k : Fin 12), s.nextCipher k = none → exec (.cipherRequestComplete k) s = .next s)
  ∧ ∀ (s u : State) (k : Fin 12) (r : CipReq), s.nextCipher k = some r → u = s.dropCipher r →
      (∀ id, r.ref = .work id →
        let v := match (u.work? id).map (·.kind) with
          | some (.init v) => u.countUnits (u.vol v) true ((u.pool (u.vol v).pool).d * unitBlocks (u.vol v).lbaf)
          | _ => u
        exec (.cipherRequestComplete k) s = .next (v.wakeRef r.ref))
      ∧ (∀ w, r.ref = .wb w →
          ((s.wb w).write = false → s.digsReady w r.inv = false → exec (.cipherRequestComplete k) s = .next s)
          ∧ ((s.wb w).write = true ∨ s.digsReady w r.inv = true →
            let at_ := if r.latency then u.now else u.now + 1
            ((u.wb w).st = .free ∨ (u.wb w).st = .abandoned ∨ (u.wb w).cut = true → exec (.cipherRequestComplete k) s = .next u)
            ∧ ((u.wb w).st ≠ .free → (u.wb w).st ≠ .abandoned → (u.wb w).cut = false →
                ((u.wb w).write = true → exec (.cipherRequestComplete k) s = .next (u.cipherWrite r.pair w r.inv at_))
                ∧ ((u.wb w).write = false → exec (.cipherRequestComplete k) s = .next (u.cipherRead r.pair w r.inv at_))))))
  ∧ (∀ (s u : State) (k : Fin 12) (c : Fin 256) (it : Item) (w : Nat) (x : Waybill), s.RunsWb k c Rt.cacheFill u it w → x = u.wb w →
      let f := (u.vol x.volume).lbaf
      let us := ((x.invRange f x.progress).map fun b => b / unitBlocks f).eraseDups
      let a := (u.lane it 64 (4096 * us.length)).updWb w fun y => { y with progress := y.progress + 1 }
      (it.leg = 1 → exec (.cacheFill k c) s = .next
        ((us.foldl (fun s t => s.allocLine x.volume t) (u.lane it 64 0)).advance it Rt.cacheFill 2 (u.laneWait Rt.cacheFill) u.now))
      ∧ (it.leg ≠ 1 → x.progress + 1 < x.invs f → exec (.cacheFill k c) s = .next (a.advance it Rt.cacheFill 1 .none a.now))
      ∧ (it.leg ≠ 1 → x.invs f ≤ x.progress + 1 →
          let b := (x.stored.foldl (State.fillPart x.wt x.volume) a).freeAll x.pay
          let v := (b.updWb w fun y => { y with
            pay := [], filled := true, resv := [], st := .durableWait, fillTick := b.now, stored := [], posted := y.progress }).stamp w 12
          exec (.cacheFill k c) s = .next (v.advance it Rt.xferArm 1 (if x.wt = true ∨ v.mirrors = true then .event else v.laneWait Rt.cacheFill) v.now)))
  ∧ ((∀ (s u : State) (k : Fin 12) (c : Fin 256) (it : Item) (id : Nat), s.Enters k c Rt.xferArm u it → it.ref = .cap id →
      (u.cap? id = none → exec (.xferArm k c) s = .next (u.endItem it))
      ∧ ∀ cap, u.cap? id = some cap → exec (.xferArm k c) s = .next (u.armAnswer it cap))
  ∧ (∀ (s u : State) (k : Fin 12) (c : Fin 256) (it : Item) (w : Nat) (x : Waybill), s.Enters k c Rt.xferArm u it → it.ref = .wb w → x = u.wb w →
      (x.st = .free → exec (.xferArm k c) s = .next (u.endItem it))
      ∧ (x.st = .abandoned → exec (.xferArm k c) s = .next (u.cutOff it w))
      ∧ (x.st = .committed → exec (.xferArm k c) s = .next (u.advance it Rt.cplRetire 1 .none u.now))
      ∧ (x.st = .durableWait → exec (.xferArm k c) s = .next (u.finishWb it w))
      ∧ (x.st = .admitted ∨ x.st = .lockWait ∨ x.st = .locked ∨ x.st = .payload ∨ x.st = .media ∨ x.st = .fill → x.cut = true →
          (u.refCmds it.ref = [] → exec (.xferArm k c) s = .next ((u.updWb w fun y => { y with data := [] }).finishWb it w))
          ∧ (u.refCmds it.ref ≠ [] → exec (.xferArm k c) s = .next (u.toReap it))))
  ∧ (∀ (s u : State) (k : Fin 12) (c : Fin 256) (it : Item) (w : Nat) (x : Waybill), s.RunsWb k c Rt.xferArm u it w → x = u.wb w →
      x.st = .admitted ∨ x.st = .lockWait ∨ x.st = .locked ∨ x.st = .payload ∨ x.st = .media ∨ x.st = .fill →
      let f := (u.vol x.volume).lbaf
      let unit := lbaData f + lbaMeta f
      (x.io = true → x.piFail.isSome = true → exec (.xferArm k c) s = .next (u.finishWb it w))
      ∧ (x.io = true → x.piFail = none → x.write = true → x.keyed = true →
          let v := (u.armRead w (x.sent * invBlocks f * unit) ((x.invRange f x.sent).length * unit)).updWb w fun y => { y with st := .payload, sent := x.sent + 1 }
          (x.sent + 1 < x.invs f → exec (.xferArm k c) s = .next (v.advance it Rt.xferArm 1 .none v.now))
          ∧ (x.invs f ≤ x.sent + 1 → exec (.xferArm k c) s = .next (v.advance it Rt.piCheck 1 .event v.now)))
      ∧ (x.io = true → x.piFail = none → x.write = true → x.keyed = false →
          exec (.xferArm k c) s = .next ((u.updWb w fun y => { y with st := .payload, data := y.icd }).advance it Rt.piCheck 1 .none u.now))
      ∧ (x.io = true → x.piFail = none → x.write = false →
          let v := (u.armData w (x.progress * invBlocks f * unit) x.data).updWb w fun y => { y with progress := y.progress + 1, sent := y.sent + 1, data := [] }
          (x.progress + 1 < x.invs f → exec (.xferArm k c) s = .next (v.advance it Rt.piCheck 1 .none v.now))
          ∧ (x.invs f ≤ x.progress + 1 → exec (.xferArm k c) s = .next ((v.releaseRef it.ref).finishWb it w)))
      ∧ (x.io = false → x.progress = 0 → x.takesData = true → x.keyed = true →
          exec (.xferArm k c) s = .next ((u.armRead w 0 ((sglLen x.sqe).getD 0)).advance it Rt.adminStep 1 .event u.now))
      ∧ (x.io = false → x.progress ≠ 0 ∨ x.takesData = false ∨ x.keyed = false → exec (.xferArm k c) s = .next ((u.armData w 0 x.data).finishWb it w)))
  ∧ ∀ (u : State) (it : Item) (w q : Nat) (x : Waybill), x = u.wb w → u.qpOf x.qpn = some q →
      let a := u.sendCqe q (u.wbChan w) w x.dw0 x.cid x.status
      let v := if isConnect x.sqe && x.status != 0 then a.updQp q fun y => { y with engineErr := true } else a
      let d := v.digest 4 [w, (v.wb w).cid, (v.wb w).status]
      u.finishWb it w = ((d.updWb w fun x => { x with st := .committed, armed := true, data := [] }).stamp w 14).advance it Rt.cplRetire 1 .none d.now)

/-- Controllers (08 R229, R231, R233, R234, R247, R249, R253, R256 to R260): a keep-alive timer that has run out ends the controller's self-test and asks
ERR of its QPs, with its event; a shutdown is complete when no waybill is in flight, a disable when the I/O QPs have left DRAIN; none of them is
anything to a controller that is not waiting for it. ADMIN_STEP takes a long transfer in further invocations; it executes a Connect, whose binding is due
at the seam, a Property Get and a Property Set of CC, a Flush, the reservation commands, an Asynchronous Event Request, held within its limit and
answered at once beyond it, and the commands of the admin queue; each answer goes to XFER_ARM, over the lanes when data moves, and the answer to a held
request that an event completes goes on. SELFTEST_STEP takes a step of the short test on the unit of the step, or reads its stripe, and then checks it
and records the first failing block; that the steps of the short test find nothing is the model's choice (log entry 133). -/
def Obligations.ControllersAreServed : Prop :=
  (∀ (s : State) (k : Fin 49152),
      (s.katoDue k = true →
        let qs := (s.ctrlQps k).filter fun q => (s.qp q).st == .rtr || (s.qp q).st == .rts || (s.qp q).st == .drain
        let u := ((qs.foldl (fun s q => s.qpFail q 0x0D) s).endTest k 2).updCtrl k fun c => { c with expired := true, aers := [] }
        exec (.keepAliveExpire k) s = .next ((u.cntCmd 14 1).raise Ev.CMD_KATO_EXPIRED (ctrlHost k) (cntlid k) (s.ctrl k).kato))
      ∧ (s.katoDue k = false → exec (.keepAliveExpire k) s = .next s)
      ∧ (let flying := s.wbsThat fun x => match s.qpOf x.qpn with | some q => (s.qp q).bound && (s.qp q).ctrl == k.val | none => false
        ((s.ctrl k).live = true → (s.ctrl k).shutting = true → flying = [] →
          exec (.controllerShutdownComplete k) s = .next (s.updCtrl k fun c => { c with shutting := false, shst := 2 }))
        ∧ ((s.ctrl k).live = false ∨ (s.ctrl k).shutting = false ∨ flying ≠ [] → exec (.controllerShutdownComplete k) s = .next s))
      ∧ (let busy (x : Qp) : Prop := x.st = .rts ∨ x.st = .drain ∨ x.next = .drain ∨ x.next2 = .drain
        ((s.ctrl k).live = true → (s.ctrl k).disabling = true → (∀ q ∈ s.ioQps k, ¬ busy (s.qp q)) →
          exec (.controllerDisableComplete k) s = .next (s.updCtrl k fun c => { c with disabling := false, rdy := false }))
        ∧ ((s.ctrl k).live = false ∨ (s.ctrl k).disabling = false ∨ (∃ q ∈ s.ioQps k, busy (s.qp q)) → exec (.controllerDisableComplete k) s = .next s)))
  ∧ ((∀ (s u : State) (k : Fin 12) (c : Fin 256) (it : Item) (id : Nat), s.Enters k c Rt.adminStep u it → it.ref = .cap id →
      exec (.adminStep k c) s = .next (u.advance it Rt.xferArm 1 .none u.now))
  ∧ (∀ (s u : State) (k : Fin 12) (c : Fin 256) (it : Item) (w : Nat) (x y : Waybill) (Q : Qp), s.RunsWb k c Rt.adminStep u it w → x = u.wb w →
      Q = u.qp ((u.qpOf x.qpn).getD 0) → y = { x with data := if x.icd.isEmpty then x.data else x.icd } →
      let ends (v : State) (r : Reply) : Prop := exec (.adminStep k c) s = .next (v.adminDone it w r false)
      (0 < x.progress →
        let left := x.data.length - 4096 * x.progress
        let v := (u.adminLane it left).updWb w fun z => { z with progress := z.progress + 1 }
        (x.progress + 1 < ceilDiv x.data.length 4096 → exec (.adminStep k c) s = .next (v.advance it Rt.adminStep 1 (v.adminWait left) v.now))
        ∧ (ceilDiv x.data.length 4096 ≤ x.progress + 1 → exec (.adminStep k c) s = .next (v.advance it Rt.xferArm 1 (v.adminWait left) v.now)))
      ∧ (x.progress = 0 → isConnect x.sqe = true →
        let r := u.connect ((u.qpOf x.qpn).getD 0) x.sqe y.data
        match r.2 with
        | none => ends u r.1
        | some b => ends { u with cmd := { u.cmd with binds := u.cmd.binds ++ [b] } } r.1)
      ∧ (x.progress = 0 → isFabrics x.sqe = true → isConnect x.sqe = false →
        let off := leField x.sqe 44 4
        let size := leField x.sqe 40 1 % 8
        (∀ v, fctype x.sqe = 4 → u.propGet Q.ctrl off size = some v → ends u (.ok v))
        ∧ (fctype x.sqe = 4 → u.propGet Q.ctrl off size = none → ends u (.err Nv.field))
        ∧ (fctype x.sqe ≠ 4 → off = 0x14 → size = 0 → ends (u.ccSet Q.ctrl (leField x.sqe 48 4)) (.ok 0))
        ∧ (fctype x.sqe ≠ 4 → off ≠ 0x14 ∨ size ≠ 0 → ends u (.err Nv.field)))
      ∧ (x.progress = 0 → isFabrics x.sqe = false → Q.qid ≠ 0 →
        (x.opcode = 0 → ends u (.ok 0))
        ∧ (x.opcode ≠ 0 →
          let r := u.resvCommand w ((u.qpOf x.qpn).getD 0) y
          let wait := r.2.cmd.resvDue.length != u.cmd.resvDue.length && (match r.2.cmd.resvDue.getLast? with | some c => c.resv.ptpl | none => false)
          exec (.adminStep k c) s = .next (r.2.adminDone it w r.1 wait)))
      ∧ (x.progress = 0 → isFabrics x.sqe = false → Q.qid = 0 → x.opcode = 0x0C →
          (4 ≤ (u.ctrl Q.ctrl).aers.length → exec (.adminStep k c) s = .next
            (((u.updWb w fun z => { z with status := Nv.aerLimit }).finishWb it w).freeWb w))
          ∧ ((u.ctrl Q.ctrl).aers.length < 4 → exec (.adminStep k c) s = .next
              ((u.setCtrl Q.ctrl { u.ctrl Q.ctrl with aers := (u.ctrl Q.ctrl).aers ++ [{ qpn := x.qpn, cid := x.cid }] }).freeWb w)))
      ∧ (x.progress = 0 → isFabrics x.sqe = false → Q.qid = 0 → x.opcode ≠ 0x0C → ends (u.adminCommand Q.ctrl y).2 (u.adminCommand Q.ctrl y).1))
  ∧ ∀ (u : State) (it : Item) (w : Nat) (r : Reply) (wait : Bool),
      let n := r.data.length + (if (u.wb w).takesData then max (u.wb w).data.length (u.wb w).icd.length else 0)
      let v := (u.adminLane it n).updWb w fun z => { z with status := r.status, dw0 := r.dw, data := r.data, progress := 1 }
      u.adminDone it w r wait = if wait = true then v.advance it Rt.xferArm 1 .event v.now
        else v.advance it (if 4096 < r.data.length then Rt.adminStep else Rt.xferArm) 1 (v.adminWait n) v.now)
  ∧ (∀ (s u : State) (k : Fin 12) (c : Fin 256) (it : Item) (w : Work) (ctrl a : Nat), s.RunsWork k c Rt.selftestStep u it w → w.kind = .test ctrl a →
      let next (v : State) : State := (v.endWork it w false).updCtrl ctrl fun c => { c with test := c.test.map fun t => { t with step := t.step + 1 } }
      let goes (v : State) (t : Wait) : Prop := exec (.selftestStep k c) s = .next (v.advance it Rt.selftestStep 1 t u.now)
      let step (st : WorkSt) : State := u.updWork w.id fun w => { w with st := st }
      let need := (u.pool w.pool).allNeed w
      (∀ n rest, w.redo = true → w.rows = n :: rest →
        (u.serves n = false ∨ (w.st ≠ .planned ∧ w.st ≠ .reading) → exec (.selftestStep k c) s = .next (next u))
        ∧ (u.serves n = true → w.st = .planned → goes ((step .reading).postCipher n it.ref 0 1 false none) .event)
        ∧ (u.serves n = true → w.st = .reading → goes ((step .parity).postParity n it.ref) .event))
      ∧ (w.redo = true → w.rows = [] →
        (w.st = .planned → goes ((step .reading).lane it 128 0) (u.laneWait Rt.selftestStep))
        ∧ (w.st ≠ .planned → exec (.selftestStep k c) s = .next (next u)))
      ∧ (w.redo = false → need ≠ [] → exec (.selftestStep k c) s = .next
          ((u.updWork w.id fun x => { x with st := .reading, need := need }).advance it Rt.drvSubmit 1 .none u.now))
      ∧ (w.redo = false → need = [] → exec (.selftestStep k c) s = .next
          ((((u.lane it 64 0).endWork it w false).actDone w.pool a).updCtrl ctrl fun c => { c with test := c.test.map fun t =>
            { t with bad := t.bad <|> u.testFinds w (match (u.ctrl ctrl).test with | some t => t.vols | none => []) } })))
  ∧ (∀ (s t : State) (k : Fin 12) (c : Fin 256) (r : SlotRun) (p : Nat), s.Opens k c Rt.selftestStep r p → State.beginTest k s p = some t →
      exec (.selftestStep k c) s = .next (t.openStart r Rt.selftestStep))

/-! ### Drives -/

/-- Bring-up of a bay by its steps (12 R363, R364, R366 to R369, Table 12-3): PERST is released 100 ms after power-good, or after the 10 ms of a retry; a
link within what the root port supports and at or above the limits leads on and is degraded below MAX_GTS or the full width; one below them and an
attempt that fails are counted and retried, the attempt past LINK_RETRIES failing the bay with reason 2; a link recovery in service is counted, and
one that goes below a limit is a containment; the steps of firmware follow one another; the drive's report makes the bay ONLINE at the next seam or
fails it with reason 9, as does a later step that exceeds its maximum. Drives at work (12 R372 to R378, Tables 12-5 and 12-7): a completion that fits
its command is counted by its status and latched, any other is a protocol error; a command that has outrun CMD_TO is aborted, and one that outruns
ABORT_TO contains the bay; an access within the bay's windows is made, any other refused, the bay contained and failed with reason 6; containment cuts
the link and asks RECOVERING with its cause, its release leads back to bring-up, and RECOVER_MAX ends the recovery; a poll takes the warnings and the
temperature. Each of these leaves the state as it is where it has nothing to act on; that DRV_HEALTH is raised on a change of the warning byte is the
model's choice (log entry 149). -/
def Obligations.BaysAndDrives : Prop :=
  (∀ (s : State) (b : Fin 128),
    let up : Prop := s.bayState b = dbLinking ∨ s.bayState b = dbRecovering
    let release : Prop := up ∧ (s.bay b).step = 3 ∧ (s.bay b).pg = true ∧ s.msSince (s.bay b).pgTick 100 = true ∧ (s.bay b).retrying = false ∧ (s.bay b).contained = none
    let u := (s.cntDrv 9 1).updBay b fun x => { x with fails := (s.bay b).fails + 1, perst := true, retrying := true, step := 3 }
    let few : Prop := (s.bay b).fails + 1 ≤ u.fld Reg.DRV_RECOVER Fd.DRV_RECOVER_LINK_RETRIES
    (release → exec (.bayPerstRelease b) s = .next (s.updBay b fun x => { x with perst := false, step := 4 }))
    ∧ (¬ release → exec (.bayPerstRelease b) s = .next s)
    ∧ ((s.bay b).retrying = true → s.bayLive b = true →
        exec (.perstRetryRelease b) s = .next (s.updBay b fun x => { x with perst := false, retrying := false, step := 4 }))
    ∧ ((s.bay b).retrying = false ∨ s.bayLive b = false → exec (.perstRetryRelease b) s = .next s)
    ∧ (up → (s.bay b).step = 4 → few → exec (.bayTrainingFail b) s = .next u)
    ∧ (up → (s.bay b).step = 4 → ¬ few → exec (.bayTrainingFail b) s = .next (u.bayWant b (.failed 2)))
    ∧ (¬ (up ∧ (s.bay b).step = 4) → exec (.bayTrainingFail b) s = .next s)
    ∧ (∀ (rate width : Fin 16) (flit : Bool),
        (up → (s.bay b).step = 4 → s.linkCan b rate width flit = true → s.linkOk b rate width = true → exec (.bayLinkUp b rate width flit) s = .next
          (((s.linkSet b rate width).setFld (Reg.DRV_BAY_STATUS b) Fd.DRV_BAY_STATUS_FLIT (b2n flit)).updBay b fun x => { x with step := 5, fails := 0 }))
        ∧ (up → (s.bay b).step = 4 → s.linkCan b rate width flit = true → s.linkOk b rate width = false → few →
          exec (.bayLinkUp b rate width flit) s = .next u)
        ∧ (up → (s.bay b).step = 4 → s.linkCan b rate width flit = true → s.linkOk b rate width = false → ¬ few →
          exec (.bayLinkUp b rate width flit) s = .next (u.bayWant b (.failed 2)))
        ∧ (¬ (up ∧ (s.bay b).step = 4 ∧ s.linkCan b rate width flit = true) → exec (.bayLinkUp b rate width flit) s = .next s))
    ∧ (s.bayLive b = true → (s.bay b).step = 5 → exec (.firstConfigRequest b) s = .next (s.updBay b fun x => { x with step := 6 }))
    ∧ (¬ (s.bayLive b = true ∧ (s.bay b).step = 5) → exec (.firstConfigRequest b) s = .next s)
    ∧ (∀ rate width : Fin 16,
        let v := s.cntDrv 9 1
        let served : Prop := 5 ≤ (s.bay b).step ∧ s.bayLive b = true ∧ s.linkCan b rate width (s.flag (Reg.DRV_BAY_STATUS b) Fd.DRV_BAY_STATUS_FLIT) = true
        let same : Prop := v.fld (Reg.DRV_BAY_STATUS b) Fd.DRV_BAY_STATUS_RATE = rate.val ∧ v.fld (Reg.DRV_BAY_STATUS b) Fd.DRV_BAY_STATUS_WIDTH = width.val
        (served → same → exec (.linkRateChange b rate width) s = .next v)
        ∧ (served → ¬ same → v.linkOk b rate width = true → exec (.linkRateChange b rate width) s = .next (v.linkSet b rate width))
        ∧ (served → ¬ same → v.linkOk b rate width = false → exec (.linkRateChange b rate width) s = .next (v.contain b 6))
        ∧ (¬ served → exec (.linkRateChange b rate width) s = .next s))
    ∧ (∀ capTo : Fin 256,
        let v := s.updBay b fun x => { x with step := 8, capTo := capTo }
        let due : Prop := s.fwRuns = true ∧ s.bayLive b = true ∧ (s.bay b).step = 6
        (due → s.bayState b = dbLinking → exec (.bayConfigComplete b capTo) s = .next (v.bayWant b .init))
        ∧ (due → s.bayState b ≠ dbLinking → exec (.bayConfigComplete b capTo) s = .next v)
        ∧ (¬ due → exec (.bayConfigComplete b capTo) s = .next s))
    ∧ (let due : Prop := s.fwRuns = true ∧ s.bayLive b = true ∧ (s.bay b).step = 8;
        (due → exec (.bayControllerReady b) s = .next (s.updBay b fun x => { x with step := 9 }))
        ∧ (¬ due → exec (.bayControllerReady b) s = .next s))
    ∧ (∀ r : DriveReport,
        let due : Prop := s.fwRuns = true ∧ (s.bay b).step = 9 ∧ (s.bayState b = dbInit ∨ s.bayState b = dbRecovering ∨ (s.bay b).next = .init)
        let fit : Prop := r.nvme14 = true ∧ r.ns1 = true ∧ (s.straps.pairEn = true → r.shared = true ∧ r.resv = true) ∧ r.format = true ∧ 2 ≤ r.pairs
          ∧ (r.mdts = 0 ∨ 65536 ≤ r.mdts) ∧ (r.vwc = true → r.vwcOff = true)
        let h := min 12 ((r.pairs + 1) / 2)
        let v := ((s.setFld (Reg.DRV_BAY_STATUS b) Fd.DRV_BAY_STATUS_HOSTQ h).setFld (Reg.DRV_BAY_STATUS b) Fd.DRV_BAY_STATUS_MNTQ (min 12 (r.pairs - h))).setFld
          (Reg.DRV_BAY_STATUS b) Fd.DRV_BAY_STATUS_VWC_OFF (b2n r.vwc)
        (due → ¬ fit → exec (.bayInitComplete b r) s = .next (s.bayWant b (.failed 9)))
        ∧ (due → fit → exec (.bayInitComplete b r) s = .next ((v.updBay b fun x => { x with
            step := 10, ident := { bytes := r.capacity, fmt := r.format, mdts := r.mdts, depth := min 1024 (r.mqes + 1), crdt := r.crdt },
            posted := [], tails := [], rung := [] }).bayWant b .online))
        ∧ (¬ due → exec (.bayInitComplete b r) s = .next s))
    ∧ (let late : Prop := s.bayState b = dbInit ∨ (s.bayState b = dbLinking ∧ 5 ≤ (s.bay b).step);
        (late → exec (.bringupStepTimeout b) s = .next (s.bayWant b (.failed 9)))
        ∧ (¬ late → s.bayState b = dbLinking → (s.bay b).step = 4 → few → exec (.bringupStepTimeout b) s = .next u)
        ∧ (¬ late → s.bayState b = dbLinking → (s.bay b).step = 4 → ¬ few → exec (.bringupStepTimeout b) s = .next (u.bayWant b (.failed 2)))
        ∧ (¬ late → ¬ (s.bayState b = dbLinking ∧ (s.bay b).step = 4) → exec (.bringupStepTimeout b) s = .next s)))
  ∧ (∀ (s : State) (b : Fin 128) (q : Fin 64) (cid : Fin 65536) (phase : Bool) (sct : Fin 8) (sc : Fin 256) (crd : Fin 4) (dnr : Bool),
      let n := Tab.rd (fun _ => 0) (s.bay b).posted q.val
      let heard : Prop := (s.bay b).contained = none ∧ 8 ≤ (s.bay b).step ∧ q.val ≠ 0
      let fits (c : DrvCmd) : Prop := c.st = 0 ∧ c.bay = b ∧ c.queue = q ∧ phase = (n / or1 (s.bay b).ident.depth % 2 == 0)
      let u := s.updBay b fun x => { x with posted := Tab.wr (fun _ => 0) x.posted q (n + 1) }
      (∀ c, heard → s.cmd? cid = some c → fits c → exec (.driveCompletion b q cid phase sct sc crd dnr) s = .next
        (((u.driveStatus c (sct.val * 256 + sc.val) dnr).cplCycles b c).latch cid c (sct.val * 256 + sc.val) crd dnr))
      ∧ (heard → (∀ c, s.cmd? cid = some c → ¬ fits c) → exec (.driveCompletion b q cid phase sct sc crd dnr) s = .next ((s.cntDrv 11 1).contain b 3))
      ∧ (¬ heard → exec (.driveCompletion b q cid phase sct sc crd dnr) s = .next s))
  ∧ (∀ (s : State) (t : Fin 65536),
      let late (c : DrvCmd) : Prop := c.st = 0 ∧ c.abort = none ∧ s.msSince c.tick (s.fld1 Reg.DRV_TIMERS Fd.DRV_TIMERS_CMD_TO) = true
      let lost (c : DrvCmd) : Prop := c.st = 0 ∧ ∃ a, c.abort = some a ∧ s.msSince a (s.fld1 Reg.DRV_TIMERS Fd.DRV_TIMERS_ABORT_TO) = true
      (∀ c, s.cmd? t = some c → late c →
        let u := (((s.cntDrv 4 1).cntDrv 5 1).acc 11 c.bay 5 1).satFld (Reg.DRV_BAY_ERR c.bay) Fd.DRV_BAY_ERR_TIMEOUTS 1
        exec (.driveCommandTimeout t) s = .next ((u.setCmd t (some { c with abort := some u.now })).emitNet (.drvAbort c.bay t)))
      ∧ ((∀ c, s.cmd? t = some c → ¬ late c) → exec (.driveCommandTimeout t) s = .next s)
      ∧ (∀ c, s.cmd? t = some c → lost c → exec (.driveAbortTimeout t) s = .next (s.contain c.bay 4))
      ∧ ((∀ c, s.cmd? t = some c → ¬ lost c) → exec (.driveAbortTimeout t) s = .next s))
  ∧ (∀ (s : State) (b : Fin 128) (addr : BitVec 64) (write : Bool) (data : List Byte) (len : Fin 4097),
      let ends (u : State) : Prop := exec (.driveDmaAccess b addr write data len) s = .next u
      let n := if write then data.length else len.val
      let refused := (((s.emit (.drvRefused b addr.toNat)).contain b 5).cntDrv 10 1).bayWant b (if s.online b then .failed 6 else (s.bay b).next)
      let off := addr.toNat - queueWindow b
      let queues : Prop := queueWindow b ≤ addr.toNat ∧ addr.toNat + n ≤ queueWindow b + 0x800000
      let o := (addr.toNat - 0x10000000000000) % 0x200000
      let listed (c : DrvCmd) : Prop := c.bay = b ∧ c.st = 0 ∧ write = false ∧ addr.toNat % 0x1000 + n ≤ 0x1000
      let moves (c : DrvCmd) : Prop := c.bay = b ∧ c.st = 0 ∧ (write = !c.write) ∧ o + n ≤ c.units * unitBytes
      ((s.bay b).contained ≠ none ∨ (s.bay b).step < 5 → ends s)
      ∧ ((s.bay b).contained = none → 5 ≤ (s.bay b).step →
        (queues → write = true → 0x10000 ≤ off % 0x20000 → ends s)
        ∧ (queues → write = false → off % 0x20000 < 0x10000 → ends (s.emit (.drvRead b addr.toNat (s.sqBytes b off len))))
        ∧ (queues → (write = true ↔ off % 0x20000 < 0x10000) → ends refused)
        ∧ (¬ queues → 0x20000000000000 ≤ addr.toNat →
          let t := (addr.toNat - 0x20000000000000) / 0x1000
          (∀ c, s.cmd? t = some c → listed c → ends (s.emit (.drvRead b addr.toNat
            (sliceB ((List.range 512).flatMap fun i => leBytes 8 (dataWindow t + (i + 1) * 4096)) (addr.toNat % 0x1000) n))))
          ∧ ((∀ c, s.cmd? t = some c → ¬ listed c) → ends refused))
        ∧ (¬ queues → addr.toNat < 0x20000000000000 → 0x10000000000000 ≤ addr.toNat →
          let t := (addr.toNat - 0x10000000000000) / 0x200000
          (∀ c, s.cmd? t = some c → moves c → write = true → ends (s.setCmd t (some { c with
            buf := c.buf.take o ++ (List.range (o - c.buf.length)).map (fun i => Config.staleByte (c.buf.length + i)) ++ data ++ c.buf.drop (o + n) })))
          ∧ (∀ c, s.cmd? t = some c → moves c → write = false → ends (s.emit (.drvRead b addr.toNat (sliceB c.buf o n))))
          ∧ ((∀ c, s.cmd? t = some c → ¬ moves c) → ends refused))
        ∧ (¬ queues → addr.toNat < 0x10000000000000 → ends refused)))
  ∧ (∀ (s : State) (b : Fin 128) (cause : Fin 7) (ref : Bool), ref = false ∨ cause.val ≠ 1 →
      (s.online b = true → (s.bay b).contained = none →
        (0 < cause.val → cause.val ≠ 5 → exec (.containmentTrigger b cause ref) s = .next (((s.cntDrv 6 1).cutLink b).bayWant b (.recovering cause)))
        ∧ (cause.val = 5 → exec (.containmentTrigger b cause ref) s = .next (((((s.cntDrv 6 1).cutLink b).bayWant b (.recovering 5)).cntDrv 10 1).bayWant b (.failed 6))))
      ∧ (s.online b = true → (s.bay b).contained ≠ none → cause.val = 5 →
          exec (.containmentTrigger b cause ref) s = .next ((s.cntDrv 10 1).bayWant b (.failed 6)))
      ∧ (cause.val = 0 ∨ s.online b = false ∨ ((s.bay b).contained ≠ none ∧ cause.val ≠ 5) → exec (.containmentTrigger b cause ref) s = .next s))
  ∧ (∀ (s : State) (b : Fin 128), exec (.containmentTrigger b 1 true) s = exec (.containmentTrigger b 1 false) (s.clockSet 5 (b.val * s.fullWidth / 32) false))
  ∧ (∀ (s : State) (b : Fin 128),
      let due : Prop := s.bayState b = dbRecovering ∧ (s.bay b).contained.any (fun t => s.msSince t 10) = true
      let go := (s.bay b).pg && !(s.bay b).retryPg && s.msSince (s.bay b).pgTick 100
      let spent : Prop := s.bayState b = dbRecovering ∧ (s.bay b).next ≠ .online
        ∧ s.msSince (s.bay b).recStart (s.fld Reg.DRV_RECOVER Fd.DRV_RECOVER_RECOVER_MAX) = true
      (due → exec (.containmentRelease b) s = .next
        (s.updBay b fun x => { x with contained := none, perst := !go, step := if go then 4 else if x.pg then 3 else 0 }))
      ∧ (¬ due → exec (.containmentRelease b) s = .next s)
      ∧ (spent → exec (.recoverTimeout b) s = .next (s.bayWant b (.failed 3)))
      ∧ (¬ spent → exec (.recoverTimeout b) s = .next s))
  ∧ (∀ (s : State) (p : Fin 16), exec (.writeRetryPermitted p) s = .next
      (s.updPool p fun P => { P with dirty := P.dirty.map fun e => if e.after ≤ s.now then { e with after := 0 } else e }))
  ∧ ∀ (s : State) (b : Fin 128) (w : BitVec 8) (temp : Fin 65536),
      let told : Prop := w.toNat ≠ (s.bay b).warning ∧ (natBit w.toNat 0 || natBit w.toNat 1 || natBit w.toNat 4) = true
      let u := s.updBay b fun x => { x with warning := w.toNat, temp := temp, tempTick := some s.now }
      let v := u.raise Ev.DRV_HEALTH b w.toNat temp
      let fails (v : State) : Prop := (natBit w.toNat 2 || natBit w.toNat 3) = true ∧ v.flag Reg.DRV_CFG Fd.DRV_CFG_HEALTH_FAIL = true
      (s.fwRuns = true → s.online b = true →
        (told → fails v → exec (.smartPoll b w temp) s = .next (v.bayWant b (.failed 7)))
        ∧ (told → ¬ fails v → exec (.smartPoll b w temp) s = .next v)
        ∧ (¬ told → fails u → exec (.smartPoll b w temp) s = .next (u.bayWant b (.failed 7)))
        ∧ (¬ told → ¬ fails u → exec (.smartPoll b w temp) s = .next u))
      ∧ (s.fwRuns = true → s.online b = false → s.flag (Reg.DRV_BAY_CFG b) Fd.DRV_BAY_CFG_SMBUS_EN = true →
          exec (.smartPoll b w temp) s = .next (s.updBay b fun x => { x with temp := temp, tempTick := some s.now }))
      ∧ (s.fwRuns = false ∨ (s.online b = false ∧ s.flag (Reg.DRV_BAY_CFG b) Fd.DRV_BAY_CFG_SMBUS_EN = false) → exec (.smartPoll b w temp) s = .next s)

/-! ### Bay power, the shelf and the dump -/

/-- Bay power (13 R386 to R408). On the driving controller an inrush timer at INRUSH_MAX is a trip of cause 4; a presence change that has held for
100 ms is confirmed and acted on; a retry delay and the off time of a CYCLE that have ended ask for power again, and power-good for 10 s clears
RETRIES; a controller that does not drive the bays only follows presence. BAY_POWER is checked by Table 13-8, and by CFG_CONFLICT for an LED command
on a bay whose SMBUS_EN is set: the first check that fails gives its status, and a command that passes all of them is committed at the next seam. -/
def Obligations.BayPowerIsEvaluated : Prop :=
  (∀ (s : State) (b : Fin 128),
      (let due : Prop := s.pwSt b = bayInrush ∧ s.drives = true ∧ s.inrushMax b ≤ (s.pw b).timer + 1;
        (due → exec (.inrushTimeout b) s = .next ((((s.inrushFails b).2.resolve b (s.inrushFails b).1 none false false).pwShow b).startAll))
        ∧ (¬ due → exec (.inrushTimeout b) s = .next s))
      ∧ (let due : Prop := s.pwBit b Fd.BAY_STATUS_PRS_RAW ≠ s.bayPresent b ∧ 12500 ≤ (s.pw b).debounce + 1;
        (due → s.drives = true → exec (.presenceConfirm b) s = .next (((s.confirm b !s.bayPresent b).presenceAct b).startAll))
        ∧ (due → s.drives = false → exec (.presenceConfirm b) s = .next ((s.setPresent b !s.bayPresent b).updPw b fun x => { x with debounce := 0 }))
        ∧ (¬ due → exec (.presenceConfirm b) s = .next s))
      ∧ (let due : Prop := s.pwSt b = bayRetry ∧ (s.pw b).delay ≤ 1 ∧ s.drives = true;
        (due → exec (.retryDelayExpire b) s = .next (s.updPw b fun x => { x with delay := 0 }).startAll)
        ∧ (¬ due → exec (.retryDelayExpire b) s = .next s))
      ∧ (let due : Prop := s.bayPg b = true ∧ 1250000 ≤ (s.pw b).pgAge + 1 ∧ s.drives = true;
        (due → exec (.retryCountReset b) s = .next (s.setRetries b 0))
        ∧ (¬ due → exec (.retryCountReset b) s = .next s))
      ∧ (∀ n e, n ≤ 1 → (s.pw b).cycle = some (n, e) → exec (.bayCycleOffExpire b) s = .next
          ((((s.updPw b fun x => { x with cycle := none }).request b).pwDone b e St.OK)).startAll)
      ∧ ((∀ n e, (s.pw b).cycle = some (n, e) → 1 < n) → exec (.bayCycleOffExpire b) s = .next s))
  ∧ ∀ (s u : State) (d : Desc), s.Takes Op.BAY_POWER d → u = s.start d →
      let b := d.handle % 128
      let op := d.f 8 1
      let form : Prop := d.handle < 128 ∧ d.reservedZero [(8, 1), (10, 2), (12, 1), (13, 1)] = true ∧ op ≤ 4
        ∧ (op = 2 → 100 ≤ d.f 10 2 ∧ d.f 10 2 ≤ 60000) ∧ (op ≠ 2 → d.f 10 2 = 0) ∧ (op = 4 → d.f 12 1 ≤ 3 ∧ d.f 13 1 ≤ 3) ∧ (op ≠ 4 → d.f 12 2 = 0)
      let bays := if u.fld Reg.DRV_CFG Fd.DRV_CFG_MODE = 0 then 64 else 128
      let turnsOn : Prop := op = 1 ∨ op = 2
      let taken : Prop := b < bays ∧ op = 4 ∧ u.flag (Reg.DRV_BAY_CFG b) Fd.DRV_BAY_CFG_SMBUS_EN = true
      let no (st : Nat) : Prop := exec .bayPower s = .next (u.done d st)
      (form → taken → exec .bayPower s = .next (u.complete d St.CFG_CONFLICT (12 + 0xFF * 256) (Reg.DRV_BAY_CFG b) 0))
      ∧ (¬ form → no St.GEN_FIELD)
      ∧ (form → bays ≤ b → no St.BAY_NO_BAY)
      ∧ (form → b < bays → ¬ taken →
        (turnsOn → u.curveValid b = false → no St.BAY_CURVE_INVALID)
        ∧ (turnsOn → u.curveValid b = true → u.pwSt b = bayDamaged → no St.BAY_DAMAGED_STATE)
        ∧ (op = 1 → u.curveValid b = true → u.pwSt b = bayLatched → no St.GEN_STATE)
        ∧ (op = 1 → u.curveValid b = true → u.pwSt b ≠ bayDamaged → u.pwSt b ≠ bayLatched → u.bayPresent b = false → no St.BAY_NOT_PRESENT)
        ∧ (op = 1 → u.curveValid b = true → u.pwSt b ≠ bayDamaged → u.pwSt b ≠ bayLatched → u.bayPresent b = true → exec .bayPower s = .next (u.defer d))
        ∧ (op = 2 → u.curveValid b = true → u.pwSt b ≠ bayDamaged → exec .bayPower s = .next (u.defer d))
        ∧ (op = 3 → u.pwSt b ≠ bayDamaged → u.pwSt b ≠ bayLatched → no St.GEN_STATE)
        ∧ (op = 3 → u.pwSt b = bayDamaged ∨ u.pwSt b = bayLatched → exec .bayPower s = .next (u.defer d))
        ∧ (op = 0 ∨ op = 4 → exec .bayPower s = .next (u.defer d)))

/-- The shelf (13 R385; 14 R410 to R428): the bank, which during a dump may fall too low for its headers, and the bays are evaluated together; core 3
takes a step of the fan loop while it runs, and a stall of a second sets the duty that follows a failure; a fan changes state after 30 steps; a charger
that runs too long is a FAULT that software clears; a latched power failure orders a dump, which a critical temperature orders as a shutdown, unless one
is ordered or has ended; a pulse that was not latched is counted, and another return of input power starts its wait; ENV_SET sets a duty or shuts the
shelf down, or ends with the status of the first check that it fails. -/
def Obligations.TheShelfIsKept : Prop :=
  (∀ (s : State) (vbus hold : Fin 4096) (bays : List BaySample),
      let a := s.setFld Reg.ENV_VBUS Fd.ENV_VBUS_VBUS (min 0xFFFF (vbus * s.fld1 Reg.ENV_SENSE Fd.ENV_SENSE_VBUS_GAIN / 64))
      let u := a.setFld Reg.ENV_HOLD_STATUS Fd.ENV_HOLD_STATUS_V (min 0xFFFF (hold * a.fld1 Reg.ENV_SENSE Fd.ENV_SENSE_HOLD_GAIN / 64))
      let falls (x : Dump) : Prop := x.phase < 3 ∧ u.fld Reg.ENV_HOLD_STATUS Fd.ENV_HOLD_STATUS_V < u.fld Reg.ENV_HOLD_V Fd.ENV_HOLD_V_V_MIN
      let ends (v : State) : Prop := exec (.bayEvaluation vbus hold bays) s = .next
        ((List.range 128).foldl (fun (s : State) b => s.bayEval b (bays.getD b BaySample.zero)) v.chargerSwitch.chargerTimeout).startAll
      (∀ x, u.env.dump = some x → falls x → ends { u with env := { u.env with dump := some { x with low := true } } })
      ∧ ((∀ x, u.env.dump = some x → ¬ falls x) → ends u))
  ∧ (∀ (s : State) (x : EnvSample),
      let a := (List.range 8).foldl (fun (s : State) i => s.thermStep i (x.therms.getD i 0)) s.setNow
      let b := a.setFld Reg.ENV_TEMPS Fd.ENV_TEMPS_DIE (toI16 x.die)
      let c := match maxInt (b.validTherms.map b.thermT) with
        | some t => b.setFld Reg.ENV_TEMPS Fd.ENV_TEMPS_SHELF (toI16 t)
        | none => b
      let d := (c.validDrives.foldl (fun (s : State) k => s.sense (0x100 + k) (s.driveT k)) c).sense 0x200 (ofI16 (toI16 x.die))
      let e := (List.range 12).foldl (fun (s : State) f => s.fanStep f (x.pulses.getD f 0)) d.shelfEvents
      (s.mgt.core3Down = false → exec (.fanLoopStep x) s = .next (if e.critFor 100 then e.critShutdown else e).dutyStep.holdStep)
      ∧ (s.mgt.core3Down = true → exec (.fanLoopStep x) s = .next s))
  ∧ (∀ (s : State) (f : Fin 12),
      let due : Prop := s.flag (Reg.ENV_FAN_CFG f) Fd.ENV_FAN_CFG_PRESENT = true ∧ s.fanAsks f = true ∧ 30 ≤ s.fanRun f + 1
      (due → s.fanFailed f = false → exec (.fanFail f) s = .next (s.fanSet f true))
      ∧ (due → s.fanFailed f = true → exec (.fanRestore f) s = .next (s.fanSet f false))
      ∧ (¬ due ∨ s.fanFailed f = true → exec (.fanFail f) s = .next s)
      ∧ (¬ due ∨ s.fanFailed f = false → exec (.fanRestore f) s = .next s))
  ∧ (∀ s : State,
      let due : Prop := (∃ t, s.env.chargeTick = some t ∧ s.msSince t (1000 * s.fld1 Reg.ENV_HOLD_CHG Fd.ENV_HOLD_CHG_CHG_TIMEOUT) = true) ∧
        s.fld Reg.ENV_HOLD_STATUS Fd.ENV_HOLD_STATUS_V < s.fld Reg.ENV_HOLD_V Fd.ENV_HOLD_V_V_OFF
      (due → exec .chargerTimeout s = .next ((((s.setFld Reg.ENV_HOLD_STATUS Fd.ENV_HOLD_STATUS_FAULT 1).setCharge false).cntEnv 5 1).readyUpdate true))
      ∧ (¬ due → exec .chargerTimeout s = .next s))
  ∧ (∀ (s : State) (w : Word),
      let u := s.setFld Reg.ENV_HOLD_STATUS Fd.ENV_HOLD_STATUS_FAULT 0
      (s.mgtReady = true → s.holdFault = true → Fd.ENV_HOLD_STATUS_FAULT.get w = 1 → exec (.holdFaultClear w) s = .next
        ((u.setCharge (decide (u.fld Reg.ENV_HOLD_STATUS Fd.ENV_HOLD_STATUS_V < u.fld Reg.ENV_HOLD_V Fd.ENV_HOLD_V_V_OFF))).chargerSwitch.readyUpdate false))
      ∧ (s.mgtReady = true → s.holdFault = false ∨ Fd.ENV_HOLD_STATUS_FAULT.get w ≠ 1 → exec (.holdFaultClear w) s = .next s)
      ∧ (s.mgtReady = false → exec (.holdFaultClear w) s = .next (s.cntMgt 6 1)))
  ∧ (∀ s : State,
      let free : Prop := s.itn.dumpDue = 0 ∧ s.itn.stopped = false
      let a : State := { s with env := { s.env with low := true, highTick := none } }
      let b := a.setFld Reg.ENV_HOLD_STATUS Fd.ENV_HOLD_STATUS_PF 1
      let u : State := { b with itn := { b.itn with dumpDue := 1 } }
      (free → s.critFor 99 = true → s.drives = true → exec .criticalTempShutdown s = .next
        { s with itn := { s.itn with dumpDue := 2 }, env := { s.env with critical := true } })
      ∧ (¬ free ∨ s.critFor 99 = false ∨ s.drives = false → exec .criticalTempShutdown s = .next s)
      ∧ (free → exec .powerFailLatch s = .next (u.setFld Reg.ENV_STATUS Fd.ENV_STATUS_DUTY (percent (u.fld Reg.ENV_CFG Fd.ENV_CFG_DUMP_DUTY))).chargerSwitch)
      ∧ (¬ free → exec .powerFailLatch s = .next b.chargerSwitch))
  ∧ (∀ s : State,
      let due : Prop := s.msSince s.env.dutyTick 1000 = true ∧ s.env.stalled = false ∧ s.drives = true
      let u := ((s.setFld Reg.ENV_STATUS Fd.ENV_STATUS_STALL 1).setFld Reg.ENV_STATUS Fd.ENV_STATUS_DUTY
        (percent (s.fld Reg.ENV_CFG Fd.ENV_CFG_FAIL_DUTY))).cntEnv 4 1
      (due → exec .pwmLoopStall s = .next { u with env := { u.env with stalled := true } })
      ∧ (¬ due → exec .pwmLoopStall s = .next s))
  ∧ (∀ s : State, (s.env.low = true → exec .inputPowerReturn s = .next ({ s with env := { s.env with low := false, highTick := some s.now } } : State).chargerSwitch)
      ∧ (s.env.low = false → exec .inputPowerReturn s = .next (s.cntEnv 0 1)))
  ∧ ∀ (s u : State) (d : Desc), s.Takes Op.ENV_SET d → u = s.start d →
      let op := d.f 8 1
      let duty := d.f 10 2
      let form : Prop := d.handle = 0 ∧ d.reservedZero [(8, 1), (10, 2)] = true ∧ op ≤ 2 ∧ duty ≤ 1024 ∧ (op ≠ 1 → duty = 0)
      let busy : Prop := u.itn.dumpDue ≠ 0 ∨ u.itn.stopped = true
      (¬ form → exec .envSet s = .next (u.done d St.GEN_FIELD))
      ∧ (form → op = 0 → exec .envSet s = .next { u with env := { u.env with setDue := u.env.setDue ++ [(none, d)] } })
      ∧ (form → op = 1 → exec .envSet s = .next { u with env := { u.env with setDue := u.env.setDue ++ [(some duty, d)] } })
      ∧ (form → op = 2 → busy → exec .envSet s = .next (u.done d St.ENV_DUMP_ACTIVE))
      ∧ (form → op = 2 → ¬ busy → exec .envSet s = .next { u with itn := { u.itn with dumpDue := 2 }, env := { u.env with shutdown := some d } })

/-- The dump (01 R26; 02 R65; 09 R295; 14 R424 to R428; 15 R457). A dump that is due is entered, and everything else abandoned, when the seam follows:
within a tick DUMP_ENTRY changes nothing (log entry 122). While the dump plan serves a cluster, DUMP_STEP takes the first write of the phase that has not
been taken, from the second tick on, with its data two ticks later; DRV_SUBMIT sends up to eight commands of a write whose data is there, and DRV_REAP
takes up to eight latched completions. A write that has ended leaves its phase, and a failed one is counted; when the members have flushed, the outcome,
the time and the lines written are recorded and the sequencer stops, with the opcode of a shutdown completed, the bays commanded off after a critical
temperature and a chip reset after a fatal error. At other times DRV_SUBMIT and DRV_REAP serve the plan in force: a run submits for the pool work or the
read of its item, or takes up to eight of its completions. -/
def Obligations.TheDumpIsWritten : Prop :=
  (∀ s : State,
      let due : Prop := s.itn.dumpDue ≠ 0 ∧ s.itn.dumpPlan = false ∧ s.itn.stopped = false
      let u := ((s.seamEntry 3 (leBytes 1 s.itn.dumpDue)).dumpEnter).abandonAll
      (s.atSeam = true → due → u.isStandby = true → exec .dumpEntry s = .next u)
      ∧ (s.atSeam = true → due → u.isStandby = false → exec .dumpEntry s = .next u.dumpStart)
      ∧ (s.atSeam = false ∨ ¬ due → exec .dumpEntry s = .next s))
  ∧ (∀ (s : State) (k : Fin 12),
      (s.dumpsOn k = false ∨ s.env.dump = none → exec (.dumpStep k) s = .next s)
      ∧ ∀ x, s.dumpsOn k = true → s.env.dump = some x →
        (s.now < x.entered + 2 ∨ x.jobs.find? (fun j => j.ready.isNone) = none → exec (.dumpStep k) s = .next s)
        ∧ ∀ j, x.entered + 2 ≤ s.now → x.jobs.find? (fun j => j.ready.isNone) = some j → exec (.dumpStep k) s = .next
            ((s.lanePost (8 * k) noClass (4096 * j.units)).updJob j.id fun j => { j with ready := some (s.now + 2), cluster := k }))
  ∧ (∀ (s : State) (k : Fin 12) (c : Fin 256), s.dumpsOn k = true →
      let can (j : DumpJob) : Bool := j.cluster == k && decide (j.sent < j.units) && (match j.ready with | some t => decide (t ≤ s.now) | none => false)
      ((∀ x, s.env.dump = some x → x.jobs.find? can = none) → exec (.drvSubmit k c) s = .next s)
      ∧ (∀ x j, s.env.dump = some x → x.jobs.find? can = some j → exec (.drvSubmit k c) s = .next ((List.range 8).foldl (fun (s : State) _ =>
          match s.env.dump.bind fun x => x.jobs.find? (·.id == j.id) with
          | some j => if j.sent < j.units then s.dumpCmd x j else s
          | none => s) s))
      ∧ exec (.drvReap k c) s = .next (((s.cmdsThat fun c => c.cluster == k && c.st == 1 && decide (c.latched < s.now)).take 8).foldl
          (fun (s : State) (e : Nat × DrvCmd) => match e.2.ref with
            | .work id => (s.freeTag e.1).updJob id fun j => { j with finished := j.finished + e.2.units, bad := j.bad || e.2.status != 0 }
            | _ => s.freeTag e.1) s))
  ∧ (∀ (s : State) (k : Fin 12) (c : Fin 256), s.dumpsOn k = false →
      (s.nextRun k c Rt.drvSubmit = none → exec (.drvSubmit k c) s = .next s) ∧ (s.nextRun k c Rt.drvReap = none → exec (.drvReap k c) s = .next s)
      ∧ (∀ (u : State) (it : Item) (w : Work), (s.RunsWork k c Rt.drvSubmit u it w → exec (.drvSubmit k c) s = .next (u.submitWork it w))
        ∧ (s.RunsWork k c Rt.drvReap u it w → exec (.drvReap k c) s = .next (u.reapWorkItem it w)))
      ∧ (∀ (u : State) (it : Item) (w : Nat), s.RunsWb k c Rt.drvSubmit u it w → exec (.drvSubmit k c) s = .next (u.readOn it w))
      ∧ (∀ (u : State) (it : Item) (w : Nat), s.Enters k c Rt.drvReap u it → it.ref = .wb w → (u.wb w).st ≠ .free →
          let v := (u.refLatched it.ref).foldl (State.reapRead w) u
          let given : Prop := (v.wb w).cut = true ∨ (v.wb w).st = .abandoned
          (v.refCmds it.ref ≠ [] → exec (.drvReap k c) s = .next (v.toReap it))
          ∧ (v.refCmds it.ref = [] → given → exec (.drvReap k c) s = .next (v.cutOff it w))
          ∧ (v.refCmds it.ref = [] → ¬ given → exec (.drvReap k c) s = .next (v.readOn it w))))
  ∧ (∀ s : State,
      ((∀ x, s.env.dump = some x → x.jobs.find? (fun j => j.finished == j.units) = none) → exec .dumpWriteComplete s = .next s)
      ∧ (∀ x j, s.env.dump = some x → x.jobs.find? (fun j => j.finished == j.units) = some j →
        let m := s.fld Reg.ENV_DUMP_ERR Fd.ENV_DUMP_ERR_JOURNAL
        let t := if j.bad = false then s.updDump fun x => if j.kind = 3 then { x with lines := x.lines + ((s.dumpLines.drop (32 * j.idx)).take 32).length } else x
          else if j.kind = 3 then s.satFld Reg.ENV_DUMP_ERR Fd.ENV_DUMP_ERR_CHUNKS 1
          else if j.kind = 4 then s.satFld Reg.ENV_DUMP_ERR Fd.ENV_DUMP_ERR_HEADERS 1
          else s.setFld Reg.ENV_DUMP_ERR Fd.ENV_DUMP_ERR_JOURNAL (setNatBit m (if x.copies.head? = some j.bay then 0 else 1) true)
        let u := t.updDump fun x => { x with jobs := x.jobs.filter (·.id != j.id) }
        ∀ y, u.env.dump = some y → exec .dumpWriteComplete s = .next (if y.jobs.isEmpty then State.dumpPhase 4 (y.phase + 1) u else u)))
  ∧ ∀ s : State, ((∀ x, s.env.dump = some x → x.phase ≠ 3) → exec .dumpComplete s = .next s)
    ∧ ∀ x, s.env.dump = some x → x.phase = 3 →
      let us := ((s.now - x.entered) * 1024) / 1000
      let down := s.itn.dumpDue == 2
      let a := s.setFld Reg.ENV_DUMP_LAST Fd.ENV_DUMP_LAST_OUTCOME (if x.low then 2 else if down then 3 else 1)
      let b := (a.setFld Reg.ENV_DUMP_LAST Fd.ENV_DUMP_LAST_LINES (min 0xFFFFFFF x.lines)).setFld Reg.ENV_DUMP_TIME wordFld (min 0xFFFFFFFF us)
      let c := (b.cntEnv (if down then 2 else 1) 1).sequencerStop
      let d : State := { c with env := { c.env with dump := none, shutdown := none, critical := false, report := true } }
      let e := d.setFld Reg.CRS_STATUS Fd.CRS_STATUS_MON_ARMED 0
      let f := if down then (e.raise Ev.ENV_SHUTDOWN_DONE x.lines us 0).doneOpt c.env.shutdown St.OK x.lines us else e
      let g := if c.env.critical then f.allBaysOff else f
      (d.itn.dumpDue = 3 → exec .dumpComplete s = .next (g.chipReset rcFatal (g.fld Reg.CRS_RESET_CAUSE Fd.CRS_RESET_CAUSE_FATAL_SRC)))
      ∧ (d.itn.dumpDue ≠ 3 → exec .dumpComplete s = .next g)

/-! ### The pair: link, lockstep, roles and joins -/

/-- The pair link (15 R431 to R438): a bundle that holds lock both ways stripes, one that has lost it leaves striping and rejoins after 100 ms, a lost
reference clock is noted, and the link goes up and down with at least 12 bundles; the key exchange that an authenticated peer ends with link keys, and
its refusals; the advance of the active's epoch at the end of a tick that is a multiple of 1,048,576; the resending of management frames; the zeroise
marker, followed or not; and what a received frame must be to be accepted. Without a pair, without a link, or with nothing due, the state stays. -/
def Obligations.ThePairLinkIsKept : Prop :=
  (∀ (s : State) (k : Fin 16) (rx lock ref : Bool),
      let a := if ref then s.clockSet 6 (k.val / 4) false else s
      let u := a.setPair fun p => if rx then { p with rxLock := setNatBit p.rxLock k lock } else { p with txLock := setNatBit p.txLock k lock }
      let both : Prop := natBit u.pair.rxLock k = true ∧ natBit u.pair.txLock k = true
      let out := u.pair.rejoin.filter fun (e : Nat × Nat) => e.1 != k.val
      let was := natBit (u.fld Reg.PAIR_LINK Fd.PAIR_LINK_BUNDLES) k
      let ends (v : State) : Prop := exec (.pairBundleLockChange k rx lock ref) s = .next v.linkCheck
      (s.straps.pairEn = true →
        (¬ both → ends ((u.setPair fun p => { p with rejoin := out, dropped := if was then setNatBit p.dropped k true else p.dropped }).setStriping k false))
        ∧ (both → natBit u.pair.dropped k = true → ends (u.setPair fun p => { p with rejoin := out ++ [(k.val, u.now)] }))
        ∧ (both → natBit u.pair.dropped k = false → ends (u.setStriping k true)))
      ∧ (s.straps.pairEn = false → exec (.pairBundleLockChange k rx lock ref) s = .next s))
  ∧ (∀ s : State,
      let up := (s.setFld Reg.PAIR_LINK Fd.PAIR_LINK_UP 1).setPair fun p =>
        { p with linkDue := some 1, shareSent := false, seed := [], downTick := p.downTick <|> some s.now }
      let d := ((s.unkey 1).setFld Reg.PAIR_LINK Fd.PAIR_LINK_UP 0).setPair fun p =>
        { p with linkDue := some 2, downTick := p.downTick <|> some (s.unkey 1).now, shareSent := false, seed := [] }
      (s.bundlesUp = s.pairUp → s.linkCheck = s) ∧ (s.bundlesUp = true → s.pairUp = false → s.linkCheck = up)
      ∧ (s.bundlesUp = false → s.pairUp = true → s.linkCheck =
          (if d.pairState = pairLocked ∨ d.pairState = pairHolding then d.startWait 1 else d).joinAbort 4))
  ∧ (∀ (s : State) (k : Fin 16),
      let due (e : Nat × Nat) : Prop := s.msSince e.2 100 = true
      (∀ e, (s.pair.rejoin.find? fun (e : Nat × Nat) => e.1 == k.val) = some e → due e → exec (.bundleRejoin k) s = .next ((s.setPair fun p => { p with
          rejoin := p.rejoin.filter fun (e : Nat × Nat) => e.1 != k.val, dropped := setNatBit p.dropped k.val false }).setStriping k.val true))
      ∧ ((∀ e, (s.pair.rejoin.find? fun (e : Nat × Nat) => e.1 == k.val) = some e → ¬ due e) → exec (.bundleRejoin k) s = .next s))
  ∧ (∀ (s : State) (bytes : List Byte),
      let u := s.cntPair 1 1
      let heard : Prop := s.straps.pairEn = true ∧ s.pairUp = true ∧ s.pairKeyed = false ∧ s.fwRuns = true
      (¬ heard → exec (.keyxReceive bytes) s = .next s)
      ∧ (heard → leField bytes 0 1 ≠ lfKeyx → exec (.keyxReceive bytes) s = .next (u.cntPair 2 1))
      ∧ (heard → leField bytes 0 1 = lfKeyx →
          let fit (k : Keyx) (c : DevCert) : Bool := c.rooted && c.part == 0x9600 && c.stepping == 0xB0
            && Config.ecdsaVerify c.key (Config.sha384 k.share) k.sigR k.sigS && u.pinOk c.ident
          exec (.keyxReceive bytes) s = .next (match Config.keyxRead (sliceB bytes 16 (leField bytes 4 2)) with
            | none => u.cntPair 2 1
            | some k => match (Config.devCert k.chain).filter (fit k) with
              | none => u.setPair fun p => { p with linkDue := some 3 }
              | some c => (u.shareSend.peerSeen c.ident).keyLink k)))
  ∧ (∀ s : State,
      let due : Prop := s.pairKeyed = true ∧ s.isStandby = false ∧ s.itn.tick % 1048576 = 0 ∧ s.pair.rekeyTick ≠ some s.now
      (due → exec .linkRekey s = .next (s.setPair fun p => { p with
        rekeyTick := some s.now, keyTx := nextKey p.keyTx, epochTx := (p.epochTx + 1) % 65536 }))
      ∧ (¬ due → exec .linkRekey s = .next s))
  ∧ (∀ (s : State) (bytes : List Byte), exec (.resendFrameReceive bytes) s = .next (match s.linkOpen lfResend bytes with
      | (none, u) => u
      | (some p, u) => (u.pair.mgtLog.filter fun (e : Nat × List Byte) => decide ((e.1 + 65536 - leField p 1 2) % 65536 < 0x8000)).foldl
          (fun (s : State) (e : Nat × List Byte) => s.linkPut lfMgt (leField p 0 1) e.1 e.2) u))
  ∧ (∀ (s : State) (code : Fin 7),
      let waits := fun u : State => if u.pairState = pairLocked ∨ u.pairState = pairHolding then u.startWait 1 else u
      let follows : Prop := s.flag Reg.PAIR_CFG Fd.PAIR_CFG_ZERO_FOLLOW = true ∧ code.val ≠ 0 ∧ code.val ≠ 6
      (s.pairUp = true → ¬ follows → exec (.zeroiseMarker code) s = .next (waits (s.unkey 3)))
      ∧ (s.pairUp = true → follows → exec (.zeroiseMarker code) s = .next (waits (s.zeroAlarm code.val)))
      ∧ (s.pairUp = false → exec (.zeroiseMarker code) s = .next s))
  ∧ (∀ (s : State) (typ : Nat) (bytes : List Byte), s.pairUp = true → s.pairKeyed = true →
      let u := s.cntPair 1 1
      let stream := leField bytes 1 1
      let opened (key : List Byte) := Config.gcmOpen key (linkIv (1 - u.slotNo) (leField bytes 8 8)) (bytes.take 16) (sliceB bytes 16 (leField bytes 4 2))
        (sliceB bytes (16 + leField bytes 4 2) 16)
      let form : Prop := leField bytes 0 1 = typ ∧ u.rightWay typ = true ∧ streamOk typ stream = true
      let v := u.epochSeen (leField bytes 6 2)
      let ahead := (leField bytes 2 2 + 65536 - v.fld (Reg.CHK_ALIVE stream) Fd.CHK_ALIVE_EXPECT) % 65536
      let r := v.alive stream (leField bytes 2 2)
      (¬ form ∨ u.epochKey (leField bytes 6 2) = none → s.linkOpen typ bytes = (none, u.cntPair 2 1))
      ∧ (∀ key, form → u.epochKey (leField bytes 6 2) = some key → s.linkOpen typ bytes = (match opened key with
        | none => (none, u.cntPair 2 1)
        | some p =>
          if stream = 0xFF then (some p, v)
          else if r.1 = true then (some p, r.2)
          else (none, if ahead < 0x8000 then r.2.gapOn stream else r.2))))
  ∧ ∀ (s : State) (typ : Nat) (bytes : List Byte), s.pairUp = false ∨ s.pairKeyed = false → s.linkOpen typ bytes = (none, s)

/-- Lockstep (15 R443 to R456): an accepted copy of a frame is presented in its tick and waits otherwise; a complete record is applied entry by entry,
and the digests are compared; a receipt releases what the active holds back, and one that comes late for what it holds counts in HELD_TICKS; a record
that is missing, a release that does not come, an offset out of tolerance and a standby that is lost end lockstep; the boundary mark shows the offset
and trims the PLL by a free value. What is not accepted, or comes in another state of the pair, changes nothing beyond the frame's acceptance. -/
def Obligations.LockstepIsKept : Prop :=
  (∀ (s : State) (bytes : List Byte), exec (.ingressFrameReceive bytes) s = .next (match s.linkOpen lfIngress bytes with
      | (none, u) => u
      | (some p, u) =>
        if u.pairState = pairLocked ∧ u.pair.next = none then
          if leField p 0 4 = u.itn.tick % 4294967296 then u.present p else u.setPair fun q => { q with early := q.early ++ [p] }
        else u))
  ∧ (∀ (s : State) (frames : List (List Byte)), exec (.recordApply frames) s = .next (match State.openRecords frames s with
      | (none, u) => u
      | (some bytes, u) =>
        let es := recordEntries (leField bytes 8 4) bytes
        let digest := leField (es.getLastD []) 1 8
        let v := (es.foldl State.applyEntry u).digestClose
        let w := v.2.setPair fun p => { p with rcvd := some (leField bytes 0 8), recordDone := true }
        if 16 + 16 * leField bytes 8 4 ≤ bytes.length ∧ leField (es.getLastD []) 0 1 = 0x0F then
          if u.pairState = pairJoinStandby then (u.setPair fun p => { p with rcvd := some (leField bytes 0 8) }).statusSend (leField bytes 0 8)
          else if u.pairState = pairLocked ∧ u.pair.next = none ∧ leField bytes 0 8 = u.itn.tick ∧ u.pair.recordDone = false
            ∧ leField bytes 12 4 = u.pair.ingress then
            (if v.1 = digest then w.setPair fun p => { p with digestTick := some (leField bytes 0 8) } else w.diverged v.1 digest).statusSend
              (leField bytes 0 8 - 2)
          else u
        else u))
  ∧ (∀ (s : State) (bytes : List Byte) (cycle : Fin 2048), exec (.statusFrameReceive bytes cycle) s = .next (match s.linkOpen lfStatus bytes with
      | (none, u) => u
      | (some p, u) =>
        let st := leField p 24 1
        let v := (u.setPair fun q => { q with statusTick := u.now }).setFld Reg.PAIR_STATUS Fd.PAIR_STATUS_PEER_STATE st
        let w := v.setPair fun q => { q with receipt := maxOpt q.receipt (leField p 0 8), mirror := maxOpt q.mirror (leField p 8 8) }
        if st = pairIdle ∨ st = pairSuspect then if v.pairState = pairPaired then v.setPair fun q => { q with peerLeft := some st } else v
        else if st = pairJoinStandby ∨ st = pairLocked ∨ st = pairHolding then
          (if v.pairHolds = true ∧ 992 < cycle.val ∧ 0 < v.itn.tick ∧ v.receipted (v.itn.tick - 1) = false ∧ v.holding = true
            ∧ w.receipted (w.itn.tick - 1) = true then w.cntPair 13 1 else w).releaseHeld.handRelease
        else v))
  ∧ (∀ s : State,
      let on : Prop := s.pairState = pairPaired ∧ s.pair.next = none
      (∀ x, on → s.lossReason = some (some x) → exec .standbyLost s = .next ((s.setPair fun p => { p with waitReason := x }).pairWant pairAlone))
      ∧ (on → s.lossReason = some none →
          exec .standbyLost s = .next ((s.draw.2.setPair fun p => { p with waitReason := 1 + s.draw.1 % 7 }).pairWant pairAlone))
      ∧ (¬ on ∨ s.lossReason = none → exec .standbyLost s = .next s))
  ∧ (∀ s : State,
      let missing : Prop := s.pairState = pairLocked ∧ s.pair.next = none ∧ s.pair.recordDone = false
      let leaves : Prop := (s.pairState = pairLocked ∨ s.pairState = pairHolding) ∧ s.pair.next ≠ some pairIdle ∧ s.pair.next ≠ some pairTakingOver
      let expired : Prop := ∃ t, s.pair.waitTick = some t ∧ t + s.lossWait ≤ s.now
      (missing → exec .recordMissing s = .next (((s.cntPair 8 1).pairWant pairHolding).startWait 2))
      ∧ (¬ missing → exec .recordMissing s = .next s)
      ∧ (expired → leaves → exec .lossWaitExpire s = .next (s.setPair fun p => { p with next := some pairIdle, waitReason := s.pair.waitReason }))
      ∧ (¬ (expired ∧ leaves) → exec .lossWaitExpire s = .next s)
      ∧ (4 ≤ s.pair.offBad → leaves → exec .lockstepOffsetLoss s = .next (s.setPair fun p => { p with next := some pairIdle, waitReason := 5 }))
      ∧ (¬ (4 ≤ s.pair.offBad ∧ leaves) → exec .lockstepOffsetLoss s = .next s))
  ∧ ∀ (s : State) (offset latency : Fin 65536),
      let a := s.setFld Reg.PAIR_TIMING Fd.PAIR_TIMING_OFFSET offset
      let b := a.setFld Reg.PAIR_TIMING Fd.PAIR_TIMING_LAT_MAX (max (a.fld Reg.PAIR_TIMING Fd.PAIR_TIMING_LAT_MAX) latency)
      (s.pairUp = true → s.isStandby = true → exec (.tickBoundaryMark offset latency) s = .next (b.draw.2.setPair fun p =>
        { p with trim := (b.draw.1 % 400001 : Int) - 200000, offBad := if offsetOk offset then 0 else p.offBad + 1 }))
      ∧ (s.pairUp = false ∨ s.isStandby = false → exec (.tickBoundaryMark offset latency) s = .next s)

/-- Roles and takeover (15 R439 to R441, R455 to R462): the claim in INIT after the claim wait, or the role of a standby with the line low; its
confirmation after 10 ms; what a peer's claim ends, a handover that waited for it completing; the takeover of a standby once the release is confirmed,
the cold claim with COLD_AUTO, and the join that has lost its active; the announcements, repeated after 1 ms and after 10 ms; the writes that a
completed preempt releases; and PAIR_TAKEOVER, which ends with the status of the first check it fails, hands over, or claims cold. -/
def Obligations.TheRoleIsTakenOver : Prop :=
  (∀ s : State,
      let open_ : Prop := s.pairState = pairInit ∧ s.pair.next = none ∧ s.crs.dead = false
      let waited : Prop := s.msSince s.pair.highTick (if s.straps.pairSlot then 100 * s.fld1 Reg.PAIR_CFG Fd.PAIR_CFG_CLAIM_WAIT else 100) = true
      (open_ → s.actLow = true → exec .roleClaimTimeout s = .next (s.setPair fun p => { p with next := some pairIdle }))
      ∧ (open_ → s.actLow = false → waited →
          exec .roleClaimTimeout s = .next ((s.claim.setPair fun p => { p with claimTick := some s.now }).pairWant pairAlone))
      ∧ (¬ open_ ∨ (s.actLow = false ∧ ¬ waited) → exec .roleClaimTimeout s = .next s))
  ∧ (∀ s : State,
      let due : Prop := s.claimed = true ∧ ∃ t, s.pair.claimTick = some t ∧ s.msSince t 10 = true
      (due → exec .claimHoldExpire s = .next (s.setPair fun p => { p with shared := true, net := true, claimTick := none }))
      ∧ (¬ due → exec .claimHoldExpire s = .next s))
  ∧ (∀ s : State,
      let a := s.setPair fun p => { p with peerLow := true }
      let b := a.setPair fun p => { p with shared := false }
      let ends (t : State) : Prop := exec .peerClaimSensed s = .next (if t.pairState = pairInit then t.roleClaim else t)
      (s.straps.pairEn = true → a.claimed = true → exec .peerClaimSensed s = .next a)
      ∧ (s.straps.pairEn = true → a.claimed = false →
        (∀ h, b.pair.handTick = some h → b.pairState = pairIdle →
          ends ((b.setPair fun p => { p with handDesc := none, handTick := none }).doneOpt b.pair.handDesc St.OK (h % 4294967296) 0))
        ∧ (b.pair.handTick = none ∨ b.pairState ≠ pairIdle → ends b))
      ∧ (s.straps.pairEn = false → exec .peerClaimSensed s = .next s))
  ∧ (∀ s : State,
      let free : Prop := s.straps.pairEn = true ∧ s.claimed = false ∧ s.crs.dead = false
      let u := s.setPair fun p => { p with peerLow := false, highTick := s.now }
      let copied : Prop := u.pairState = pairLocked ∨ u.pairState = pairHolding
      let cold : Prop := (u.pairState = pairIdle ∨ u.pairState = pairSuspect) ∧ u.flag Reg.PAIR_CFG Fd.PAIR_CFG_COLD_AUTO = true ∧ u.pair.handTick = none
      (free → copied → exec .releaseConfirmed s = .next ((u.claimFor (if u.pair.kind = 2 then 2 else 1)).pairWant pairTakingOver))
      ∧ (free → ¬ copied → cold → exec .releaseConfirmed s = .next u.coldClaim)
      ∧ (free → ¬ copied → ¬ cold → exec .releaseConfirmed s = .next (u.joinAbort 4))
      ∧ (¬ free → exec .releaseConfirmed s = .next s))
  ∧ (∀ s : State,
      let due (t : Nat) : Prop := (s.pair.announced = 1 ∧ s.msSince t 1 = true) ∨ (s.pair.announced = 2 ∧ s.msSince t 10 = true)
      (∀ t, s.pair.annTick = some t → due t → exec .addressAnnounceRepeat s = .next (s.announce.setPair fun p => { p with
          announced := p.announced + 1, annTick := if p.announced = 2 then none else p.annTick }))
      ∧ ((∀ t, s.pair.annTick = some t → ¬ due t) → exec .addressAnnounceRepeat s = .next s))
  ∧ (∀ (s : State) (b : Fin 128),
      let u := s.setPair fun p => { p with preempts := p.preempts.filter (· != b.val) }
      (s.pair.preempts.contains b.val = true → u.online b = true → exec (.reservationPreemptComplete b) s = .next (u.resubmit b true))
      ∧ (s.pair.preempts.contains b.val = true → u.online b = false → exec (.reservationPreemptComplete b) s = .next u)
      ∧ (s.pair.preempts.contains b.val = false → exec (.reservationPreemptComplete b) s = .next s))
  ∧ ∀ (s u : State) (d : Desc), s.Takes Op.PAIR_TAKEOVER d → u = s.start d →
      let mode := d.f 8 1
      let form : Prop := d.handle = 0 ∧ d.reservedZero [(8, 1)] = true ∧ mode ≤ 1
      let able : Prop := if mode = 0 then u.pairState = pairPaired ∧ u.pair.handDesc = none ∧ u.pair.handTick = none
        else u.pairState = pairIdle ∨ u.pairState = pairSuspect
      let no (st : Nat) : Prop := exec .pairTakeover s = .next (u.done d st)
      (¬ form → no St.GEN_FIELD)
      ∧ (form → u.straps.pairEn = false → no St.PAIR_NOT_PAIRED)
      ∧ (form → u.straps.pairEn = true → ¬ able → no St.PAIR_STATE)
      ∧ (form → u.straps.pairEn = true → able → mode = 0 → exec .pairTakeover s = .next (u.setPair fun p => { p with handDesc := some d }))
      ∧ (form → u.straps.pairEn = true → able → mode = 1 → u.actLow = true → no St.PAIR_NOT_RELEASED)
      ∧ (form → u.straps.pairEn = true → able → mode = 1 → u.actLow = false → exec .pairTakeover s = .next (u.coldClaim.done d St.OK))

/-- Joins, management frames and rehearsal (15 R449, R463 to R467): PAIR_JOIN starts a join, or ends with the status of the first check that it fails;
the pre-copy ends at the residue or after the passes; a payload of the copied state is kept; equal CRCs end the hold and different ones abort it; a hold
that is too long aborts; a complete management message takes effect; PAIR_REHEARSE starts a rehearsal or ends with the status of the first check that
it fails, and its end is recorded with its result. With nothing to act on the state stays. -/
def Obligations.JoinsAndRehearsals : Prop :=
  (∀ (s u : State) (d : Desc), s.Takes Op.PAIR_JOIN d → u = s.start d →
      let form : Prop := d.handle = 0 ∧ d.reservedZero [] = true
      let peer := u.fld Reg.PAIR_STATUS Fd.PAIR_STATUS_PEER_STATE
      let able : Prop := u.pairState = pairAlone ∧ u.pair.next = none ∧ (peer = pairIdle ∨ peer = pairSuspect)
      let linked : Prop := u.pairUp = true ∧ u.pairKeyed = true
      let no (st : Nat) : Prop := exec .pairJoin s = .next (u.done d st)
      (¬ form → no St.GEN_FIELD)
      ∧ (form → u.straps.pairEn = false → no St.PAIR_NOT_PAIRED)
      ∧ (form → u.straps.pairEn = true → ¬ able → no St.PAIR_STATE)
      ∧ (form → u.straps.pairEn = true → able → u.pair.rehearsal ≠ none → no St.PAIR_BUSY)
      ∧ (form → u.straps.pairEn = true → able → u.pair.rehearsal = none → ¬ linked → no St.PAIR_LINK_DOWN)
      ∧ (form → u.straps.pairEn = true → able → u.pair.rehearsal = none → linked → u.pair.peerFw ≠ (u.rd Reg.MGT_FW_VER).toNat → no St.PAIR_PEER_MISMATCH)
      ∧ (form → u.straps.pairEn = true → able → u.pair.rehearsal = none → linked → u.pair.peerFw = (u.rd Reg.MGT_FW_VER).toNat →
          exec .pairJoin s = .next (u.setPair fun p => { p with join := some (Join.start (some d)), next := some pairJoinActive })))
  ∧ (∀ (s : State) (residue : Nat) (passes : Fin 33),
      let due : Prop := s.pairState = pairJoinActive ∧ s.joinPhase = 2 ∧
        (residue ≤ s.fld1 Reg.PAIR_JOIN_CFG Fd.PAIR_JOIN_CFG_RESIDUE ∨ s.fld Reg.PAIR_JOIN_CFG Fd.PAIR_JOIN_CFG_PASSES ≤ passes.val)
      (due → exec (.joinPrecopyEnd residue passes) s = .next
        ((s.setFld Reg.PAIR_JOIN_STATUS Fd.PAIR_JOIN_STATUS_PASS passes).updJoin fun j => { j with holdDue := true }))
      ∧ (¬ due → exec (.joinPrecopyEnd residue passes) s = .next s))
  ∧ (∀ (s : State) (bytes : List Byte), exec (.joinFrameReceive bytes) s = .next (match s.linkOpen lfJoin bytes with
      | (none, u) => u
      | (some p, u) => if u.pairState = pairJoinStandby then u.updJoin fun j => { j with pages := j.pages ++ [p] } else u))
  ∧ (∀ s : State,
      let ready (j : Join) : Prop := s.pairState = pairJoinActive ∧ s.joinPhase = 3 ∧ j.peerCrc ≠ none ∧ j.endTick = none ∧ j.abort = none
      (∀ j, s.pair.join = some j → ready j → j.peerCrc = j.crc →
          exec .joinHoldEnd s = .next ((s.updJoin fun j => { j with endTick := some s.itn.tick }).mgtSend (.joinEnd s.itn.tick)))
      ∧ (∀ j, s.pair.join = some j → ready j → j.peerCrc ≠ j.crc →
          exec .joinHoldEnd s = .next (s.setPair fun p => { p with join := some { j with abort := some 5 } }))
      ∧ ((∀ j, s.pair.join = some j → ¬ ready j) → exec .joinHoldEnd s = .next s))
  ∧ (∀ s : State,
      let late (j : Join) : Prop := s.joinHold = true ∧ j.endTick = none ∧ s.fld Reg.PAIR_JOIN_CFG Fd.PAIR_JOIN_CFG_HOLD_MAX ≤ j.holdTicks
      (∀ j, s.pair.join = some j → late j → exec .joinHoldTimeout s = .next (s.joinAbort 3))
      ∧ ((∀ j, s.pair.join = some j → ¬ late j) → exec .joinHoldTimeout s = .next s))
  ∧ (∀ (s : State) (bytes : List Byte) (failed unread : BitVec 2),
      exec (.mgtFrameReceive bytes failed unread) s = .next (match s.linkOpen lfMgt bytes with
        | (none, u) => u
        | (some p, u) =>
          let v := u.setPair fun q => { q with mgtBuf := [] }
          match Config.mgtRead (u.pair.mgtBuf ++ [p]) with
          | none => u.setPair fun q => { q with mgtBuf := u.pair.mgtBuf ++ [p] }
          | some m => if v.fwRuns = true then v.mgtMsg m failed.toNat unread.toNat else v))
  ∧ (∀ (s u : State) (d : Desc) (peer : Bool), s.Takes Op.PAIR_REHEARSE d → u = s.start d →
      let r := Rehearse.ofDesc d
      let form : Prop := d.handle = 0 ∧ d.reservedZero [(8, 1), (10, 5), (16, 6), (24, 16)] = true ∧ u.rehearseOk r = true
      let counted : Prop := 1 ≤ d.f 13 1 ∧ d.f 13 1 ≤ 16
      let free : Prop := u.pair.join = none ∧ u.pair.rehearsal = none
      let no (st : Nat) : Prop := exec (.pairRehearse peer) s = .next (u.done d st)
      (¬ form → no St.GEN_FIELD)
      ∧ (form → ¬ counted → no St.RING_FORMAT)
      ∧ (form → counted → u.straps.pairEn = false → no St.PAIR_NOT_PAIRED)
      ∧ (form → counted → u.straps.pairEn = true → u.pairState ≠ pairPaired → no St.PAIR_STATE)
      ∧ (form → counted → u.straps.pairEn = true → u.pairState = pairPaired → ¬ free → no St.PAIR_BUSY)
      ∧ (form → counted → u.straps.pairEn = true → u.pairState = pairPaired → free → u.rehearsable r peer = false → no St.PAIR_REHEARSE_REFUSED)
      ∧ (form → counted → u.straps.pairEn = true → u.pairState = pairPaired → free → u.rehearsable r peer = true →
          exec (.pairRehearse peer) s = .next (u.rehearseStart d r)))
  ∧ ∀ (s : State) (n : Fin 17) (result : Fin 4),
      (s.pair.rehearsal = none → exec (.rehearsalEnd result n) s = .next s)
      ∧ ∀ r, s.pair.rehearsal = some r →
        (s.isStandby = true → exec (.rehearsalEnd result n) s = .next ((s.setPair fun p => { p with rehearsal := none }).mgtSend (.rehearsed result n)))
        ∧ (s.isStandby = false →
          let a := (s.setFld Reg.PAIR_RHS_STATUS Fd.PAIR_RHS_STATUS_BUSY 0).setFld Reg.PAIR_RHS_STATUS Fd.PAIR_RHS_STATUS_RESULT result
          let b := if result.val = 0 then a else (a.cntPair 15 1).setFld Reg.PAIR_STATUS Fd.PAIR_STATUS_RHS_FAIL 1
          exec (.rehearsalEnd result n) s = .next
            ((b.setPair fun p => { p with rehearsal := none, rhsTick := b.now }).raise Ev.PAIR_REHEARSE_DONE (r.kind * 256 + r.index % 256) result n))

/-! ### Boot, management cores, attestation and firmware -/

/-- The boot (16 R473 to R481; 17 R501, Table 17-6): the boot ROM loads the slot of R477, or the other one, or stops in recovery; recovery runs a
package that passes every check and refuses any other by its status, and a write without GO, or while no recovery waits, does nothing; a watchdog reset
aborts what was not committed and restarts the cores, from the other slot at the fourth within a minute when it may replace the running one; the
management PLL holds the cores in reset while it is out of lock and restarts them when it locks again; trained HBM lets the boot end, and a stack that
failed training is lost. Each happens once: where it is not due the state stays. -/
def Obligations.TheCoresBoot : Prop :=
  (∀ (s : State) (unread : BitVec 2),
      let u := s.resetReleased
      let r := u.bootRec unread.toNat
      let slot := r.choose.1
      let v := match r.choose.2.2 with | some w => u.writeRecord w | none => u.showRecord r
      let runs (k : Nat) (l : Loaded) : State :=
        let w := ((v.runPackage k l).loadCatalogue).fwStart
        { w with mgt := { w.mgt with bootStep := 9 } }
      let ends (w : State) : Prop := exec (.boot unread) s = .next w
      (s.crs.dead = true ∨ s.mgt.bootStep ≠ 0 → ends s)
      ∧ (s.crs.dead = false → s.mgt.bootStep = 0 →
        ends (match v.loadSlot slot unread.toNat with
          | .ok l =>
            (if r.choose.2.1 = true then (runs slot l).fellBack ((runs slot l).slotVersion r.pending unread.toNat) 1 else runs slot l).bootReady
          | .error _ => match v.loadSlot (1 - slot) unread.toNat with
            | .ok l => ((runs (1 - slot) l).fellBack (v.slotVersion slot unread.toNat) 3).bootReady
            | .error e =>
              let w := (v.setFld Reg.MGT_STATUS Fd.MGT_STATUS_RECOVERY 1).setFld Reg.MGT_STATUS Fd.MGT_STATUS_BOOT_FAIL e
              { w with mgt := { w.mgt with bootStep := 5 } })))
  ∧ (∀ (s : State) (w : Word) (ok : Bool) (pkg : List Byte),
      let asked : Prop := Fd.MGT_RECOV_CTL_GO.get w ≠ 0 ∧ s.fld Reg.MGT_STATUS Fd.MGT_STATUS_RECOVERY ≠ 0 ∧ s.fld Reg.MGT_STATUS Fd.MGT_STATUS_FW_RUN ≠ 1
      let sized : Prop := 8192 ≤ s.fld Reg.MGT_RECOV_SIZE Fd.MGT_RECOV_SIZE_SIZE ∧ s.fld Reg.MGT_RECOV_SIZE Fd.MGT_RECOV_SIZE_SIZE ≤ 16777216
        ∧ (s.rd Reg.MGT_RECOV_ADDR_LO).toNat % 4096 = 0
      let status (st : Nat) : State := s.setFld Reg.MGT_RECOV_CTL Fd.MGT_RECOV_CTL_STATUS st
      let a := (status 0).runPackage 0 { bytes := pkg, device := 0, retries := 0 }
      let b := (if a.mgt.bootStep = 9 then a else a.loadCatalogue).fwStart
      (asked → ¬ sized → exec (.recoveryGo w ok pkg) s = .next (status St.GEN_FIELD))
      ∧ (asked → sized → ok = false → exec (.recoveryGo w ok pkg) s = .next (status St.GEN_DMA))
      ∧ (asked → sized → ok = true → exec (.recoveryGo w ok pkg) s = .next (match s.pkgFail pkg with
          | some c => status (pkgStatus c)
          | none => ({ b with mgt := { b.mgt with bootStep := 9 } } : State).bootReady))
      ∧ (¬ asked → exec (.recoveryGo w ok pkg) s = .next s))
  ∧ (∀ (s : State) (cause : Fin 4) (sram : Bool) (unread : BitVec 2),
      let ts := s.lastMinute s.mgt.wdog
      let u := (({ s with mgt := { s.mgt with wdog := ts } } : State).cntMgt 0 1).coresReset
      let v : State := { u with mgt := { u.mgt with wdog := [] } }
      let ends (w : State) : Prop := exec (.mgtWatchdogReset cause sram unread) s = .next w
      (cause.val ≠ 0 → s.fwRuns = true →
        (ts.length < 4 → ends ((u.restart sram unread.toNat).raise Ev.MGT_WATCHDOG 1 cause ts.length))
        ∧ (4 ≤ ts.length → ends ((match u.fallbackSlot unread.toNat with
            | none => u.restart sram unread.toNat
            | some l => (v.runPackage v.spareSlot l).fellBack (pkgVersion u.mgt.running) 2).raise Ev.MGT_WATCHDOG 1 cause ts.length)))
      ∧ (cause.val = 0 ∨ s.fwRuns = false → ends s))
  ∧ (∀ (s : State) (cause : Fin 4),
      let ts := s.lastMinute s.mgt.wdog3
      (cause.val ≠ 0 → s.core3Runs = true → exec (.core3WatchdogReset cause) s = .next
        ((((({ s with mgt := { s.mgt with wdog3 := ts } } : State).cntMgt 1 1).core3Reset).logResume).raise Ev.MGT_WATCHDOG 2 cause ts.length))
      ∧ (cause.val = 0 ∨ s.core3Runs = false → exec (.core3WatchdogReset cause) s = .next s))
  ∧ (∀ s : State,
      let a := ((s.setFld Reg.CRS_CLK_STATUS Fd.CRS_CLK_STATUS_MGT_LOCK 0).raise Ev.CRS_CLOCK 0x100 1 0).coresReset.core3Reset
      let b : State := { a with mgt := { a.mgt with coresDown := true, core3Down := true } }
      (s.fld Reg.CRS_CLK_STATUS Fd.CRS_CLK_STATUS_MGT_LOCK ≠ 0 →
        exec .mgtPllLoss s = .next ((b.setFld Reg.MGT_STATUS Fd.MGT_STATUS_FW_RUN 0).setFld Reg.MGT_STATUS Fd.MGT_STATUS_CORE_UP 0))
      ∧ (s.fld Reg.CRS_CLK_STATUS Fd.CRS_CLK_STATUS_MGT_LOCK = 0 → exec .mgtPllLoss s = .next s))
  ∧ (∀ s : State,
      let a := (s.setFld Reg.CRS_CLK_STATUS Fd.CRS_CLK_STATUS_MGT_LOCK 1).satFld Reg.CRS_CLK_LOSS Fd.CRS_CLK_LOSS_MGT_RELOCKS 1
      let b := if a.mgt.running.isEmpty then { a with mgt := { a.mgt with coresDown := false, core3Down := false } } else (a.restart true 0).fwStart
      (s.mgt.coresDown = true → exec .mgtPllRelock s = .next (b.raise Ev.CRS_CLOCK 0x100 0 0).bootReady)
      ∧ (s.mgt.coresDown = false → exec .mgtPllRelock s = .next s))
  ∧ ∀ (s : State) (fail : BitVec 4),
      let a := s.resetReleased.setFld Reg.HBM_STATUS Fd.HBM_STATUS_READY (15 - fail.toNat)
      let b := (a.setFld Reg.CRS_CLK_STATUS Fd.CRS_CLK_STATUS_HBM_LOCK 15).setFld Reg.CRS_STATUS Fd.CRS_STATUS_HBM_READY 1
      (s.crs.dead = false → s.flag Reg.CRS_STATUS Fd.CRS_STATUS_HBM_READY = false → exec (.hbmTrainingDone fail) s = .next
        (((List.range 4).filter (natBit fail.toNat ·)).foldl (fun (s : State) n => s.loseStack n 2) b).bootReady)
      ∧ (s.crs.dead = true ∨ s.flag Reg.CRS_STATUS Fd.CRS_STATUS_HBM_READY = true → exec (.hbmTrainingDone fail) s = .next s)

/-- Attestation and platform management (16 R484 to R492): a signing key is enrolled or refused, and cleared, and under the setup lock either write is
a violation; a message on a working transport reaches firmware when it is intact and of at most 4,096 bytes, and is dropped and counted otherwise, and
one on a transport that does not work is not received; each SPDM, MCTP and PLDM request has its answer, a measurement request at the next seam; a
session without heartbeat ends. -/
def Obligations.RequestsToManagementAreAnswered : Prop :=
  (∀ (s : State) (w : Word),
      let taken : Prop := ∃ j, j < 8 ∧ j ≠ s.fld Reg.MGT_ITK_SEL Fd.MGT_ITK_SEL_SLOT ∧ s.itkEntry j ≠ [] ∧ (s.itkEntry j).take 8 = s.itkData.take 8
      let fit : Prop := allZero (s.itkData.take 8) = false ∧ ¬ taken
      let refused := s.setFld Reg.MGT_ITK_STATUS Fd.MGT_ITK_STATUS_ERR 1
      let commit := Fd.MGT_ITK_CTL_COMMIT.get w
      let clear := Fd.MGT_ITK_CTL_CLEAR.get w
      (commit = 0 → exec (.itkCommit w) s = .next s)
      ∧ (commit ≠ 0 → s.locked = true → exec (.itkCommit w) s = .next (s.violation Reg.MGT_ITK_CTL w))
      ∧ (commit ≠ 0 → s.locked = false → fit →
          exec (.itkCommit w) s = .next (if Config.onCurve (s.itkData.drop 8) = true then s.setItk s.itkData else refused))
      ∧ (commit ≠ 0 → s.locked = false → ¬ fit → exec (.itkCommit w) s = .next refused)
      ∧ (clear = 0 → exec (.itkClear w) s = .next s)
      ∧ (clear ≠ 0 → s.locked = false → exec (.itkClear w) s = .next (s.setItk []))
      ∧ (clear ≠ 0 → s.locked = true → commit = 1 → exec (.itkClear w) s = .next s)
      ∧ (clear ≠ 0 → s.locked = true → commit ≠ 1 → exec (.itkClear w) s = .next (s.violation Reg.MGT_ITK_CTL w)))
  ∧ (∀ (s : State) (smb good : Bool) (size : Nat),
      let works : Prop := (if smb then s.flag Reg.MGT_SMB_CFG Fd.MGT_SMB_CFG_ENABLE else s.crs.linkUp) = true
      let heard : Prop := good = true ∧ size ≤ 4096 ∧ s.fwRuns = true
      let t := mctpTransport smb
      let f := if smb then Fd.MGT_MCTP_EID_SMB else Fd.MGT_MCTP_EID_VDM
      (works → heard →
        (∀ m, exec (.spdmRequest smb good size m) s = .next (s.spdm t m))
        ∧ (∀ m, exec (.pldmRequest smb good size m) s = .next (s.pldm t m))
        ∧ (∀ n, exec (.mctpControlRequest smb good size (.setEid n)) s = .next ((s.setFld Reg.MGT_MCTP f n).emit (.mctp t (.eid (n % 256)))))
        ∧ exec (.mctpControlRequest smb good size .getEid) s = .next (s.emit (.mctp t (.eid (s.fld Reg.MGT_MCTP f))))
        ∧ exec (.mctpControlRequest smb good size .getTypes) s = .next (s.emit (.mctp t (.types [0, 1, 5, 6])))
        ∧ exec (.mctpControlRequest smb good size .other) s = .next (s.emit (.mctp t .error)))
      ∧ (works → ¬ heard →
        (∀ m, exec (.spdmRequest smb good size m) s = .next (s.cntMgt 5 1)) ∧ (∀ m, exec (.pldmRequest smb good size m) s = .next (s.cntMgt 5 1))
        ∧ ∀ m, exec (.mctpControlRequest smb good size m) s = .next (s.cntMgt 5 1))
      ∧ (¬ works →
        (∀ m, exec (.spdmRequest smb good size m) s = .next s) ∧ (∀ m, exec (.pldmRequest smb good size m) s = .next s)
        ∧ ∀ m, exec (.mctpControlRequest smb good size m) s = .next s))
  ∧ (∀ (s : State) (t v : Nat),
      let u := s.cntMgt 2 1
      let chain := Config.ownChain s.mgt.aliasSeed
      let answers (q : SpdmReq) (r : SpdmRsp) : Prop := s.spdm t { version := v, req := q } = u.emit (.spdm t r)
      let fails (q : SpdmReq) (r : SpdmRsp) : Prop := s.spdm t { version := v, req := q } = u.spdmError t r
      answers .getVersion (.version [0x13, 0x12])
      ∧ (∀ q, v ≠ 0x12 → v ≠ 0x13 → q ≠ .getVersion → fails q .invalid)
      ∧ (v = 0x12 ∨ v = 0x13 →
        answers .getCapabilities (.capabilities 21 4096) ∧ answers .negotiateAlgorithms .algorithms ∧ answers .getDigests (.digests (Config.sha384 chain))
        ∧ answers .chunkSend .chunkSendAck ∧ answers .chunkGet .chunk ∧ fails .other .unsupported
        ∧ (∀ off len, answers (.getCertificate 0 off len) (.certificate (sliceB chain off len)))
        ∧ (∀ slot off len, slot ≠ 0 → fails (.getCertificate slot off len) .invalid)
        ∧ (∀ nonce, answers (.challenge 0 nonce) (.challengeAuth (Config.sha384 chain)
            (Config.ecdsaSign u.mgt.aliasSeed (Config.sha384 (Config.spdmTranscript nonce [])))))
        ∧ (∀ slot nonce, slot ≠ 0 → fails (.challenge slot nonce) .invalid)
        ∧ (∀ i sign nonce, (1 ≤ i ∧ i ≤ 9) ∨ i = 0xFF → s.spdm t { version := v, req := .getMeasurements i sign nonce }
            = { u with mgt := { u.mgt with measReqs := u.mgt.measReqs ++ [(t, { version := v, req := .getMeasurements i sign nonce })] } })
        ∧ (∀ i sign nonce, ¬ ((1 ≤ i ∧ i ≤ 9) ∨ i = 0xFF) → fails (.getMeasurements i sign nonce) .invalid)
        ∧ (∀ half share, 8 ≤ u.mgt.sessions.length → fails (.keyExchange half share) .sessionLimit)
        ∧ (∀ half share, u.mgt.sessions.length < 8 →
          let a := u.draw.2
          let b := a.draw.2
          let x : SpdmSess := { id := half % 65536 + 65536 * b.freeHalf (half % 65536) u.draw.1, transport := t, secret := Config.spdmSecret share a.draw.1
                                key := [], lastSeq := 0 }
          s.spdm t { version := v, req := .keyExchange half share } =
            ((({ b with mgt := { b.mgt with sessions := b.mgt.sessions ++ [x] } } : State).raise Ev.MGT_SPDM_SESSION x.id 1 t).emit
              (.spdm t (.keyExchange x.id 60))))
        ∧ (∀ id, u.sessionOn t id = none → fails (.heartbeat id) .invalid ∧ fails (.keyUpdate id) .invalid ∧ fails (.endSession id) .invalid
            ∧ ∀ ok, fails (.finish id ok) .invalid)
        ∧ (∀ id x, u.sessionOn t id = some x → answers (.heartbeat id) (.heartbeatAck id) ∧ answers (.keyUpdate id) (.keyUpdateAck id)
            ∧ s.spdm t { version := v, req := .endSession id } = (u.emit (.spdm t (.endSessionAck id))).sessionEnd id
            ∧ fails (.finish id false) .invalid
            ∧ s.spdm t { version := v, req := .finish id true } =
              (({ u with mgt := { u.mgt with sessions := u.mgt.sessions.map fun (z : SpdmSess) =>
                if z.id == id then { x with key := Config.hkdf x.secret kekLabel 32 } else z } } : State).emit (.spdm t (.finish id))))))
  ∧ (∀ (s : State) (t : Nat),
      let u := s.cntMgt 4 1
      let answers (q : PldmReq) (r : PldmRsp) : Prop := s.pldm t q = u.emit (.pldm t r)
      answers .getTid (.tid u.mgt.tid) ∧ answers .getTypes (.types [0, 2]) ∧ answers .getRepositoryInfo (.repository pldmSensors.length)
      ∧ answers .other .error ∧ answers (.getVersion 0) (.version 0) ∧ answers (.getVersion 2) (.version 2)
      ∧ answers (.getCommands 0) (.commands [1, 2, 3, 4, 5]) ∧ answers (.getCommands 2) (.commands [0x11, 0x21, 0x50, 0x51])
      ∧ (∀ n, n ≠ 0 → n ≠ 2 → answers (.getVersion n) .error ∧ answers (.getCommands n) .error)
      ∧ (∀ n, s.pldm t (.setTid n) = ({ u with mgt := { u.mgt with tid := n % 256 } } : State).emit (.pldm t (.tid (n % 256))))
      ∧ (∀ n, n ∈ pldmSensors → answers (.getPdr n) (.pdr n ((pldmSensors.dropWhile (· != n)).getD 1 0)))
      ∧ (∀ n, n ∈ pldmSensors → n < 0x200 → answers (.getSensorReading n) (.reading (u.sensor n)) ∧ answers (.getStateSensorReadings n) .error)
      ∧ (∀ n, n ∈ pldmSensors → 0x200 ≤ n → answers (.getStateSensorReadings n) (.reading (u.sensor n)) ∧ answers (.getSensorReading n) .error)
      ∧ (∀ n, n ∉ pldmSensors → answers (.getPdr n) .error ∧ answers (.getSensorReading n) .error ∧ answers (.getStateSensorReadings n) .error))
  ∧ ∀ (s : State) (session : Nat),
      (∀ x, s.mgt.sessions.find? (fun x => x.id == session) = some x → exec (.spdmHeartbeatTimeout session) s = .next
        (({ s with mgt := { s.mgt with sessions := s.mgt.sessions.filter (·.id != session) } } : State).raise Ev.MGT_SPDM_SESSION session 0 x.transport))
      ∧ (s.mgt.sessions.find? (fun x => x.id == session) = none → exec (.spdmHeartbeatTimeout session) s = .next s)

/-- Firmware update (16 R493 to R497; 03 R569): a package that passes every check is written to the slot that does not run, on the standby of a pair
too; a read that fails may leave that slot without a package, a free value; MODE 1 leaves it pending, MODE 0 activates it in service, after the standby
of a pair, MODE 2 raises the security version floor; each precondition that fails has its status, the first that does. -/
def Obligations.FirmwareIsUpdated : Prop :=
  (∀ (s u : State) (d : Desc) (ok : Bool) (pkg : List Byte) (failed : BitVec 2), s.Takes Op.FW_STAGE d → u = s.start d →
      let form : Prop := d.handle = 0 ∧ d.reservedZero [(16, 8), (24, 4)] = true ∧ d.aligned 16 4096 = true ∧ 8192 ≤ d.f 24 4 ∧ d.f 24 4 ≤ 16777216
      let ends (v : State) : Prop := exec (.fwStage ok pkg failed) s = .next v
      let lost : State := { u.draw.2 with mgt := { u.draw.2.mgt with
        flash0 := u.draw.2.mgt.flash0.setSlot u.draw.2.spareSlot [], flash1 := u.draw.2.mgt.flash1.setSlot u.draw.2.spareSlot [] } }
      let v := u.writePackage pkg failed.toNat
      let r0 := pkgVersion pkg + pkgSvn pkg * 4294967296
      (¬ form → ends (u.done d St.GEN_FIELD))
      ∧ (form → u.fwBusy = true → ends (u.done d St.MGT_FW_BUSY))
      ∧ (form → u.fwBusy = false → ok = false → ends ((if u.draw.1 % 2 = 0 then u.draw.2 else lost.showStaged).done d St.GEN_DMA))
      ∧ (form → u.fwBusy = false → ok = true → ends (match u.packageStatus pkg (d.f 24 4) with
        | some st => u.done d st
        | none =>
          if failed.toNat = 3 then v.done d St.MGT_FW_FLASH
          else if v.pairHolds = true then ({ v with mgt := { v.mgt with staging := some (d, r0, 3 - failed.toNat) } } : State).mgtSend (.package pkg)
          else v.complete d St.OK r0 (3 - failed.toNat) 0)))
  ∧ ∀ (s u : State) (d : Desc) (unread : BitVec 2), s.Takes Op.FW_ACTIVATE d → u = s.start d →
      let mode := d.f 8 1
      let form : Prop := d.handle = 0 ∧ d.reservedZero [(8, 1)] = true ∧ mode ≤ 2
      let ends (v : State) : Prop := exec (.fwActivate unread) s = .next v
      let settled : Prop := u.fld Reg.MGT_BOOT Fd.MGT_BOOT_RUN_SLOT = (u.bootRec 0).active ∧ (u.bootRec 0).pending = 0xFF
        ∧ u.flag Reg.MGT_STATUS Fd.MGT_STATUS_FALLBACK = false ∧ u.flag Reg.MGT_STATUS Fd.MGT_STATUS_RECOVERY = false
      let told := if u.pairHolds then u.mgtSend (.activate 2) else u
      let raised := if pkgSvn told.mgt.running ≤ told.mgt.floor then told
        else ({ told with mgt := { told.mgt with floor := pkgSvn told.mgt.running } } : State).raise Ev.MGT_SVN_COMMITTED (pkgSvn told.mgt.running) 0 0
      let fits (l : Loaded) : Bool := decide (mode = 1 ∨ (pkgCatalogue l.bytes = u.mgt.catalogue ∧ pkgMajor l.bytes = pkgMajor u.mgt.running))
      let agreed (l : Loaded) : Bool := !u.pairHolds || u.pair.peerStaged == pkgVersion l.bytes
      let v := if u.fwStarting.pairHolds then u.fwStarting.mgtSend (.activate mode) else u.fwStarting
      (¬ form → ends (u.done d St.GEN_FIELD))
      ∧ (form → mode = 2 → ¬ settled → ends (u.done d St.GEN_STATE))
      ∧ (form → mode = 2 → settled → ends (raised.complete d St.OK raised.mgt.floor 0 0))
      ∧ (form → mode ≠ 2 → u.fwBusy = true → ends (u.done d St.MGT_FW_BUSY))
      ∧ (form → mode ≠ 2 → u.fwBusy = false → ends (match u.stagedPkg with
        | none => u.done d St.MGT_FW_NONE
        | some l =>
          if fits l = false then u.done d St.MGT_FW_NEEDS_RESET
          else if agreed l = false then u.done d St.MGT_FW_PEER
          else if mode = 1 then (v.writeRecord { v.bootRec 0 with pending := v.spareSlot, tries := 0 }).done d St.OK
          else if v.pairHolds = true then { v with mgt := { v.mgt with act := some d } }
          else v.activateDone d unread.toNat))

/-! ### Resets, clocks, faults and telemetry -/

/-- Resets and clocks (15 R441; 14 R426; 17 R500 to R512): power-on and each cause of a chip reset, and what asks for one without effect; supplies while
the monitors are armed and disarmed; the auxiliary PLL and a returning reference clock; and a cluster's reset, check, its time limit, and a retest, each
due at the next seam (log entry 148), where it takes effect as far as the cluster still is in the state from which Table 17-8 makes it. -/
def Obligations.ResetsAndClocksAct : Prop :=
  (∀ (s : State) (a b c : Bool), exec (.powerOnReset a b c) s = .next (s.powerOff { pairEn := a, pairSlot := b, chSris := c } false)
      ∧ exec .alwaysOnSupplyLoss s = .next (s.powerOff s.straps true))
  ∧ (∀ (s : State) (w : Word),
      let go : Prop := Fd.CRS_CHIP_RESET_KEY.get w = 0xC5A5 ∧ Fd.CRS_CHIP_RESET_GO.get w = 1
      let back : Prop := s.itn.stopped = true ∧ s.itn.dumpDue = 1 ∧ s.core3Runs = true ∧
        ∃ t, s.env.highTick = some t ∧ s.msSince t (s.fld1 Reg.ENV_DUMP_TIMING Fd.ENV_DUMP_TIMING_RESTORE_MS) = true
      exec .externalReset s = .next (s.chipReset rcExternal 0) ∧ exec .coreClockLoss s = .next (s.chipReset rcClock 0)
      ∧ (go → exec (.crsChipResetGo w) s = .next (s.chipReset rcSoftware 0)) ∧ (¬ go → exec (.crsChipResetGo w) s = .next s)
      ∧ (back → exec .restoreReset s = .next (s.chipReset rcRestore 0)) ∧ (¬ back → exec .restoreReset s = .next s))
  ∧ (∀ (s : State) (sup : Fin 2),
      let u := s.setFld Reg.CRS_STATUS Fd.CRS_STATUS_SUPPLY_OK (setNatBit (s.fld Reg.CRS_STATUS Fd.CRS_STATUS_SUPPLY_OK) sup.val false)
      (s.flag Reg.CRS_STATUS Fd.CRS_STATUS_MON_ARMED = true → exec (.coreSupplyLoss sup) s = .next ((s.zeroAlarm 2).chipReset rcSupply 0))
      ∧ (s.flag Reg.CRS_STATUS Fd.CRS_STATUS_MON_ARMED = false → exec (.coreSupplyLoss sup) s = .next (if sup.val = 0 then u.releaseRole else u)))
  ∧ (∀ s : State,
      let a := ({ s with crs := { s.crs with auxLost := true } } : State).setFld Reg.CRS_CLK_STATUS Fd.CRS_CLK_STATUS_AUX_LOCK 0
      let b := ({ s with crs := { s.crs with auxLost := false } } : State).setFld Reg.CRS_CLK_STATUS Fd.CRS_CLK_STATUS_AUX_LOCK 1
      (s.crs.dead = false → s.crs.auxLost = false → exec .auxPllLoss s = .next (((a.setFld Reg.CRS_CLK_STATUS Fd.CRS_CLK_STATUS_AUX_FALLBACK 1).satFld
          Reg.CRS_CLK_LOSS Fd.CRS_CLK_LOSS_AUX_FALLBACKS 1).raise Ev.CRS_CLOCK 0x200 2 0))
      ∧ (s.crs.dead = true ∨ s.crs.auxLost = true → exec .auxPllLoss s = .next s)
      ∧ (s.crs.auxLost = true → exec .auxPllReturn s = .next ((b.setFld Reg.CRS_CLK_STATUS Fd.CRS_CLK_STATUS_AUX_FALLBACK 0).raise Ev.CRS_CLOCK 0x200 3 0))
      ∧ (s.crs.auxLost = false → exec .auxPllReturn s = .next s))
  ∧ (∀ (s : State) (dom i : Fin 8),
      let gone : Prop := 4 ≤ dom.val ∧ natBit (s.fld Reg.CRS_CLK_STATUS (clockField dom)) i = false
      let u := s.clockSet dom i true
      (gone → dom.val ≠ 7 → exec (.referenceClockReturn dom i) s = .next u)
      ∧ (gone → dom.val = 7 →
          exec (.referenceClockReturn dom i) s = .next (({ u with crs := { u.crs with linkUp := true } } : State).copyNext (u.tel.snaps.length + 1)))
      ∧ (¬ gone → exec (.referenceClockReturn dom i) s = .next s))
  ∧ (∀ (s : State) (k : Fin 12),
      let x := s.cluChk k
      let spent : Prop := s.cluState k = cluReset ∧ s.msSince x.since 1 = true
      let alarmed : Prop := x.cause = 5 ∧ natBit (s.fld Reg.CIP_ALARM Fd.CIP_ALARM_ARRAY) k = true
      let ended (step : Fin 7) : State := s.cluWant k (if step.val = 0 then cluPassed else cluFailed) step
      (spent → alarmed → exec (.clusterResetRelease k) s = .next (s.cluWant k cluWaitClear 0))
      ∧ (spent → ¬ alarmed → exec (.clusterResetRelease k) s = .next (s.cluWant k cluChecking 0))
      ∧ (¬ spent → exec (.clusterResetRelease k) s = .next s)
      ∧ (∀ step : Fin 7,
        (s.cluState k = cluChecking → exec (.clusterCheckDone k step) s = .next (ended step))
        ∧ (s.cluState k ≠ cluChecking → exec (.clusterCheckDone k step) s = .next s)
        ∧ (s.cluState k = cluChecking → step.val ≠ 0 → s.msSince x.since 200 = true → exec (.clusterCheckTimeout k step) s = .next (ended step))
        ∧ (s.cluState k ≠ cluChecking ∨ step.val = 0 ∨ s.msSince x.since 200 = false → exec (.clusterCheckTimeout k step) s = .next s))
      ∧ (∀ w,
        let again : Prop := Fd.CRS_CLU_CTL_RETEST.get w = 1 ∧ (s.cluState k = cluPassed ∨ s.cluState k = cluFailed)
        (again → exec (.crsCluCtlRetest k w) s = .next (s.cluWant k cluReset 0)) ∧ (¬ again → exec (.crsCluCtlRetest k w) s = .next s)))
  ∧ ∀ (s : State) (k step : Nat),
      let x := s.cluChk k
      let pass := s.cluEnter k cluPassed x.cause
      let fail := (s.cluEnter k cluFailed x.cause).setFld (Reg.CRS_CLU_STATUS k) Fd.CRS_CLU_STATUS_FAIL_STEP step
      (s.cluState k = cluChecking → s.cluNow (k, cluPassed, 0) = pass.raise Ev.CRS_CLUSTER_CHECK k 0 (pass.fld (Reg.CRS_CLU_STATUS k) Fd.CRS_CLU_STATUS_CHECKS))
      ∧ (s.cluState k = cluChecking → step ≠ 0 →
          s.cluNow (k, cluFailed, step) = fail.raise Ev.CRS_CLUSTER_CHECK k step (fail.fld (Reg.CRS_CLU_STATUS k) Fd.CRS_CLU_STATUS_CHECKS))
      ∧ (s.cluState k = cluReset ∨ s.cluState k = cluWaitClear →
          s.cluNow (k, cluChecking, step) = (s.cluEnter k cluChecking x.cause).satFld (Reg.CRS_CLU_STATUS k) Fd.CRS_CLU_STATUS_CHECKS 1)
      ∧ (s.cluState k = cluReset → s.cluNow (k, cluWaitClear, step) = s.cluEnter k cluWaitClear x.cause)
      ∧ (s.cluState k = cluPassed ∨ s.cluState k = cluFailed → s.cluNow (k, cluReset, step) = s.cluEnter k cluReset x.cause)
      ∧ (s.cluState k = cluInService → ∀ st, s.cluNow (k, st, step) = s)

/-- Faults (02 R41, R66; 04 R131; 06 R187, R198; 17 R500, R506, R507; 19 R547, R548): a cluster's fence cause is recorded, the first of them in its
register, for the seam, and an overrun is counted and reported first; a port is lost once, on its PLL's loss only while it is enabled, its frames in
reception ended and its transmission stopped; a stack is lost once; an uncorrectable error is counted and handled by what it hits; a corrected one only
counts; a fatal error resets a paired shelf, orders the dump of a single one, and is only recorded during a dump. -/
def Obligations.FaultsAreHandled : Prop :=
  (∀ (s : State) (k : Fin 12) (cause engine : Fin 8) (unit : Fin 16),
      let r := Reg.ITN_FAULT_CAUSE k
      let first := ((s.setFld r Fd.ITN_FAULT_CAUSE_VALID 1).setFld r Fd.ITN_FAULT_CAUSE_CAUSE cause).setFld r Fd.ITN_FAULT_CAUSE_ENGINE
        (if cause.val = 4 ∨ cause.val = 5 then 0 else engine)
      let pend (u : State) : State := { u with itn := { u.itn with pendFaults := u.itn.pendFaults ++ [{ cluster := k, cause := cause, engine := engine }] } }
      (cause.val = 0 → exec (.clusterFault k cause engine unit) s = .next s)
      ∧ (cause.val ≠ 0 → cause.val ≠ 6 → s.flag r Fd.ITN_FAULT_CAUSE_VALID = true → exec (.clusterFault k cause engine unit) s = .next (pend s))
      ∧ (cause.val ≠ 0 → cause.val ≠ 6 → s.flag r Fd.ITN_FAULT_CAUSE_VALID = false → exec (.clusterFault k cause engine unit) s = .next (pend first))
      ∧ (cause.val = 6 → exec (.clusterFault k cause engine unit) s = .next
        ((((s.satFld Reg.ITN_OVERRUN_CNT wordFld 1).acc 14 k 5 1).raise Ev.ITN_BUDGET_OVERRUN k unit 0).detect k 6 engine)))
  ∧ (∀ (s : State) (p : Fin 16) (cause : Fin 4) (ref : Bool),
      let u := if ref then s.clockSet 4 (p.val / 4) false else s
      let counts : Prop := cause.val ≠ 0 ∧ (cause.val = 2 → u.fld (Reg.MAC_CTL p) Fd.MAC_CTL_ENABLE ≠ 0)
      let a := (u.setFld (Reg.MAC_STATUS p) Fd.MAC_STATUS_LOST 1).setFld (Reg.MAC_STATUS p) Fd.MAC_STATUS_LOST_CAUSE cause
      let b := (a.lportsOf p).foldl (fun (s : State) m =>
        let s := s.frameTail m [] true 2047
        ((if s.shadows then s else s.portStop m).linkDownDue 3 0 m).updLport m fun x => { x with calOk := false, resetDone := false }) a
      (counts → u.portLost p = false → exec (.portLost p cause ref) s = .next { b with itn := { b.itn with pendPorts := b.itn.pendPorts ++ [p.val] } })
      ∧ (¬ counts ∨ u.portLost p = true → exec (.portLost p cause ref) s = .next u))
  ∧ (∀ (s : State) (n cause : Fin 4),
      let a := s.setFld Reg.HBM_STATUS Fd.HBM_STATUS_LOST (setNatBit (s.fld Reg.HBM_STATUS Fd.HBM_STATUS_LOST) n true)
      let b := a.setFld Reg.HBM_STATUS Fd.HBM_STATUS_LOST_CAUSE (a.fld Reg.HBM_STATUS Fd.HBM_STATUS_LOST_CAUSE + cause * 4 ^ n.val)
      let e := if cause.val = 1 then b.clockSet 3 n false else b
      let c : State := { e with itn := { e.itn with pendStacks := e.itn.pendStacks ++ [n.val] } }
      let counts : Prop := (cause.val = 1 ∨ cause.val = 2) ∧ s.stackLost n = false
      (counts → exec (.hbmStackLost n cause) s = .next (c.raise Ev.HBM_STACK_LOST n cause (c.stackChoice n)))
      ∧ (¬ counts → exec (.hbmStackLost n cause) s = .next s))
  ∧ (∀ (s u : State) (n : Fin 4), u = s.satFld (Reg.HBM_ECC n) Fd.HBM_ECC_UNCORR 1 →
      (u.stackLost n = true → ∀ r, exec (.hbmUncorrectable n r) s = .next u)
      ∧ (u.stackLost n = false →
        exec (.hbmUncorrectable n .twoCopy) s = .next u
        ∧ (∀ i, exec (.hbmUncorrectable n (.line i)) s = .next (u.badLine i))
        ∧ (∀ b k e, exec (.hbmUncorrectable n (.image b k e)) s = .next (u.badImage b k e))
        ∧ (∀ i, exec (.hbmUncorrectable n (.snapshot i)) s = .next (u.dropSnap i)) ∧ (∀ i, exec (.hbmUncorrectable n (.trace i)) s = .next (u.dropTrace i))
        ∧ exec (.hbmUncorrectable n .other) s = .next (u.loseStack n 3)))
  ∧ (∀ (s : State) (area : Fin 5) (index : Word) (hit : SeraiHit), exec (.seraiEccError area index true hit) s = .next (s.cntSwc 14 1))
  ∧ (∀ (s u : State) (area : Fin 5) (index : Word), u = (s.cntSwc 15 1).raise Ev.SWC_ECC_UNCORR area index.toNat 0 →
      exec (.seraiEccError area index false .unused) s = .next u
      ∧ (∀ id, exec (.seraiEccError area index false (.frame id)) s = .next (u.spoilFrame id))
      ∧ (∀ id, exec (.seraiEccError area index false (.egress id)) s = .next (u.spoilEgress id))
      ∧ (∀ q psn, exec (.seraiEccError area index false (.held q psn)) s = .next
          (u.updQp q fun x => { x with held := x.held.map fun h => if h.psn = psn then { h with stomp := true } else h }))
      ∧ exec (.seraiEccError area index false .control) s = .next (u.fatalError 1))
  ∧ ∀ (s : State) (src : Fin 8),
      let u := s.setFld Reg.CRS_RESET_CAUSE Fd.CRS_RESET_CAUSE_FATAL_SRC src
      (src.val = 0 ∨ 5 < src.val → exec (.fatalError src) s = .next s)
      ∧ (src.val ≠ 0 → src.val ≤ 5 →
        (s.itn.dumpDue ≠ 0 → exec (.fatalError src) s = .next u)
        ∧ (s.itn.dumpDue = 0 → s.straps.pairEn = true → exec (.fatalError src) s = .next (s.chipReset rcFatal src))
        ∧ (s.itn.dumpDue = 0 → s.straps.pairEn = false → s.itn.stopped = false →
            exec (.fatalError src) s = .next { u with itn := { u.itn with dumpDue := 3 } })
        ∧ (s.itn.dumpDue = 0 → s.straps.pairEn = false → s.itn.stopped = true → exec (.fatalError src) s = .next u))

/-- Telemetry (18 R524 to R535): at a seam that ends tick index 255 a cycle ends, once, which latches a snapshot when the interval has come, and skips it
while two wait; within a tick TELEMETRY_DUMP_LATCH changes nothing (log entry 122); a copy that ends delivers its snapshot or is given up; the oldest
event selected for the error log is written with a credit, without one by its kind, or counted as suppressed, after the record of what was suppressed
once credit has returned; TEL_CONFIG and LOG_READ end with the status of the first check that they fail, and act at the next seam. -/
def Obligations.TelemetryIsKept : Prop :=
  (∀ s : State,
      let n := s.fld Reg.TEL_DUMP_CTL Fd.TEL_DUMP_CTL_INTERVAL
      let due : Prop := s.atSeam = true ∧ s.itn.tick % 256 = 255 ∧ s.itn.running = true ∧ s.tel.latchTick ≠ some s.now
      let u : State := { s with tel := { s.tel with cycles := s.tel.cycles + 1, latchTick := some s.now } }
      (¬ due → exec .telemetryDumpLatch s = .next s)
      ∧ (due → n = 0 ∨ s.dumping = true → exec .telemetryDumpLatch s = .next { s with tel := { s.tel with cycles := 0, latchTick := some s.now } })
      ∧ (due → n ≠ 0 → s.dumping = false →
        ((s.tel.cycles + 1) % n ≠ 0 → exec .telemetryDumpLatch s = .next u)
        ∧ ((s.tel.cycles + 1) % n = 0 → s.tel.snaps.length ≤ 1 → exec .telemetryDumpLatch s = .next (u.takeSnap.copyNext 3))
        ∧ ((s.tel.cycles + 1) % n = 0 → 2 ≤ s.tel.snaps.length → exec .telemetryDumpLatch s = .next ((u.skipSnap.cntTel 1 1).copyNext 3))))
  ∧ (∀ (s : State) (ok : Bool),
      let copying : Prop := s.tel.snaps ≠ [] ∧ s.flag Reg.TEL_STATUS Fd.TEL_STATUS_DUMPING = true
      (¬ copying → exec (.telDumpCopyDone ok) s = .next s)
      ∧ ∀ x xs, s.tel.snaps = x :: xs → copying →
        (ok = true → exec (.telDumpCopyDone ok) s = .next ((s.copyDumpDone x).copyNext 3))
        ∧ (ok = false → exec (.telDumpCopyDone ok) s = .next
          ((({ s with tel := { s.tel with snaps := xs } } : State).skipSnap.cntTel 3 1).setFld Reg.TEL_STATUS Fd.TEL_STATUS_DUMPING 0)))
  ∧ (∀ s : State,
      (s.core3Runs = false ∨ s.dumping = true → exec .errorLogWrite s = .next s)
      ∧ (s.core3Runs = true → s.dumping = false →
        let v := s.logSuppressed
        (v.tel.errQ = [] → exec .errorLogWrite s = .next v)
        ∧ ∀ h q, v.tel.errQ = h :: q →
          let u : State := { v with tel := { v.tel with errQ := q } }
          (freeOfCredit.contains h.ev.code = true → exec .errorLogWrite s = .next (u.logWrite h))
          ∧ (freeOfCredit.contains h.ev.code = false → v.tel.credit ≠ 0 →
              exec .errorLogWrite s = .next (({ u with tel := { u.tel with credit := u.tel.credit - 1 } } : State).logWrite h))
          ∧ (freeOfCredit.contains h.ev.code = false → v.tel.credit = 0 → exec .errorLogWrite s = .next
            (({ u with tel := { u.tel with suppressed := u.tel.suppressed + 1, supLast := h.ev.code
                                           supFirst := if u.tel.suppressed = 0 then h.ev.code else u.tel.supFirst } } : State).cntTel 7 1))))
  ∧ (∀ (s u : State) (d : Desc), s.Takes Op.TEL_CONFIG d → u = s.start d →
      let ends (v : State) : Prop := exec .telConfig s = .next (v.replicate (.command d.toBytes true []))
      let dumps := natBit (d.f 8 1) 0
      let tags := natBit (d.f 8 1) 1
      let form : Prop := d.handle = 0 ∧ d.reservedZero [(8, 32)] = true ∧ 1 ≤ d.f 8 1 ∧ d.f 8 1 ≤ 3 ∧ d.f 11 1 ≤ 7 ∧ d.f 32 2 % 2 = 0
        ∧ (dumps = true → d.dumpSetOk = true) ∧ (tags = true → d.tagSetOk = true)
      let own : Prop := tags = true → u.isStandby = true → d.ring = 255
      let fits : Prop := dumps = true → 64 + blocksLen (snapGroups (d.f 32 2) (natBit (d.f 11 1) 1)) ≤ d.f 24 4
      (¬ form → ends (u.done d St.GEN_FIELD))
      ∧ (form → ¬ own → ends (u.done d St.GEN_NOT_ACTIVE))
      ∧ (form → own → ¬ fits → ends (u.done d St.TEL_SLOT_SMALL))
      ∧ (form → own → fits → ends (u.defer d)))
  ∧ ∀ (s u : State) (d : Desc) (ok : Bool), s.Takes Op.LOG_READ d → u = s.start d →
      let log := d.f 8 1
      let form : Prop := d.handle = 0 ∧ d.reservedZero [(8, 1), (9, 1), (10, 2), (16, 8), (24, 8)] = true ∧ 1 ≤ log ∧ log ≤ 5
        ∧ (log ≠ 5 → d.f 9 1 = 0) ∧ d.f 9 1 ≤ 15 ∧ d.f 24 8 % 64 = 0
      let counted : Prop := 1 ≤ d.f 10 2 ∧ d.f 10 2 ≤ 4096
      let there : Prop := log = 5 → (u.pool (d.f 9 1)).st ≠ 0
      let ends (v : State) : Prop := exec (.logRead ok) s = .next v
      (¬ form → ends (u.done d St.GEN_FIELD))
      ∧ (form → ¬ counted → ends (u.done d St.RING_FORMAT))
      ∧ (form → counted → ¬ there → ends (u.done d St.LAY_NO_POOL))
      ∧ (form → counted → there → ok = false → ends (u.done d St.GEN_DMA))
      ∧ (form → counted → there → ok = true → ends (u.defer d))

/-! ### Rules of the spec stated whole -/

/-- 00 R11: of the two words of a 64-bit counter the low one is at the lower offset; a read of the low word latches the high word, and the next read
of the high word, whatever the counter has become, returns the latched value. -/
def Obligations.CounterWordsAreLatched : Prop :=
  ∀ (s : State) (off : Nat), off = Reg.ITN_TICK_LO ∨ off = Reg.PAIR_TICK_LO → s.mgtReady = true → Tab.rising s.hst.latched = true →
    (∃ count, (off = Reg.ITN_TICK_LO → count = s.itn.tick) ∧ (off = Reg.PAIR_TICK_LO → count = s.pairTick)
      ∧ (s.readReg off).toNat = count % 4294967296 ∧ (s.readReg (off + 4)).toNat = count / 4294967296 % 4294967296)
    ∧ ∃ t, exec (.counterLowRead ⟨off, 4⟩) s = .next t ∧ t.out = .regRead off (s.readReg off) :: s.out
      ∧ ∀ x : State, x.hst.latched = t.hst.latched →
          ∃ y, exec (.registerReadClear ⟨off + 4, 4⟩) x = .next y ∧ y.out = .regRead (off + 4) (s.readReg (off + 4)) :: x.out

/-- 19 R546: a bit of GLB_IRQ_CPL_LO, GLB_IRQ_CPL_HI or GLB_IRQ_EVT is 1 exactly while its ring's tail differs from the consumer index last accepted;
nothing else of the ring or of its interrupt enters, and a read of the register answers these bits. -/
def Obligations.UnconsumedEntriesShow : Prop :=
  ∀ s : State, s.mgtReady = true →
    (∀ k, k < 32 → natBit (s.readReg Reg.GLB_IRQ_CPL_LO).toNat k = (s.ringTail k != (s.ring k).cons)
      ∧ natBit (s.readReg Reg.GLB_IRQ_CPL_HI).toNat k = (s.ringTail (32 + k) != (s.ring (32 + k)).cons))
    ∧ Fd.GLB_IRQ_EVT_PENDING.get (s.readReg Reg.GLB_IRQ_EVT) = b2n (s.ringTail evtRing != (s.ring evtRing).cons)
    ∧ ∀ off, off = Reg.GLB_IRQ_CPL_LO ∨ off = Reg.GLB_IRQ_CPL_HI ∨ off = Reg.GLB_IRQ_EVT → Tab.rd (fun _ => none) s.hst.latched off = none →
        ∃ t, exec (.registerReadClear ⟨off, 4⟩) s = .next t ∧ t.out = .regRead off (s.readReg off) :: s.out

/-- 04 R130: a 100 ms window with at least THR uncorrected codewords sets FEC_DEGRADED and, when it was clear, raises MAC_FEC_DEGRADED; a window below
the threshold clears it; THR 0 disables the check; the link and its bring-up stay as they are. -/
def Obligations.FecDegradationFollowsTheWindow : Prop :=
  ∀ (s u : State) (m : Fin 128) (corr uncorr : Word), s.Inv →
    u = (((s.satFld (Reg.MAC_LP_FEC_CORR m) wordFld corr.toNat).cntMac m 9 corr.toNat).satFld (Reg.MAC_LP_FEC_UNCORR m) wordFld
      uncorr.toNat).cntMac m 10 uncorr.toNat →
    (0 < u.fld (Reg.MAC_LP_FEC_THR m) Fd.MAC_LP_FEC_THR_THR → u.fld (Reg.MAC_LP_FEC_THR m) Fd.MAC_LP_FEC_THR_THR ≤ uncorr.toNat →
      (u.fld (Reg.MAC_LP_STATUS m) Fd.MAC_LP_STATUS_FEC_DEGRADED = 0 → exec (.fecWindowEnd m corr uncorr) s = .next
        ((u.setFld (Reg.MAC_LP_STATUS m) Fd.MAC_LP_STATUS_FEC_DEGRADED 1).raise Ev.MAC_FEC_DEGRADED m uncorr.toNat 0))
      ∧ (u.fld (Reg.MAC_LP_STATUS m) Fd.MAC_LP_STATUS_FEC_DEGRADED = 1 → exec (.fecWindowEnd m corr uncorr) s = .next u))
    ∧ (uncorr.toNat < u.fld (Reg.MAC_LP_FEC_THR m) Fd.MAC_LP_FEC_THR_THR ∨ u.fld (Reg.MAC_LP_FEC_THR m) Fd.MAC_LP_FEC_THR_THR = 0 →
        exec (.fecWindowEnd m corr uncorr) s = .next (u.setFld (Reg.MAC_LP_STATUS m) Fd.MAC_LP_STATUS_FEC_DEGRADED 0))
    ∧ ∃ t, exec (.fecWindowEnd m corr uncorr) s = .next t ∧ t.linkUp m = s.linkUp m ∧ t.lport m = s.lport m

/-! ### The seam -/

/-- A seam (01 R21, R27 to R29; 02 Table 2-1; 15 R442, R465): its phases follow one another: the hand-off; the latch of the performance counters and the
digest of the tick; the memory phase, which closes the lane accounts; the change phase with the pair's part; and the boundary, which begins the next
tick and loads its slot entries. While a join holds, the hand-off does nothing and the change phase makes no change but those of bay power. Without
supplies only time passes. -/
def Obligations.ASeamRunsItsPhases : Prop :=
  (∀ s : State,
      let t := s.handOffPhase.latchPhase.digestPhase
      (s.crs.dead = true → exec .seam s = .next { s with now := s.now + 1 })
      ∧ (s.crs.dead = false → exec .seam s = .next ((t.2.memoryPhase.changePhase s.joinHold t.1).boundaryPhase s.itn.starting)))
  ∧ (∀ s : State, (s.joinHold = true → s.handOffPhase = s) ∧ (s.joinHold = false → s.handOffPhase = s.handOff))
  ∧ (∀ s : State, (s.joinHold = true → s.latchPhase = s.ctrSnap) ∧ (s.joinHold = false → s.latchPhase = s.idleSlots.dumpLatch.ctrSnap))
  ∧ (∀ s : State, (s.pair.recordDone = true → s.isStandby = true → s.digestPhase = (0, s))
      ∧ (s.pair.recordDone = false ∨ s.isStandby = false → s.digestPhase = s.digestClose))
  ∧ (∀ (s : State) (hold : Bool) (digest : Nat),
      let p := if s.straps.pairEn = true then s.pairDecide else s
      let q := if hold = true then p.powerSeam else p.changes
      s.changePhase hold digest = if q.straps.pairEn = true then q.pairSeam digest else q)
  ∧ ∀ (s : State) (fresh : Bool),
      let b := s.drainEvents.boundary fresh
      let l := b.loadTick b.itn.tick
      s.boundaryPhase fresh = (if l.joinHold then l else l.rdmTick).presentEarly
end

