-- ==== Sys2Proof/Laws/Locked.lean ====
section
/-!
SUPPORT. Register writes under the setup lock, and reads that clear: which fields and registers they change.
-/

namespace Sys2Proof.Machine

open Sys2Proof

variable {s t u : State}

/-- Clearing the fields of a register one after another leaves each of them zero, when they fit and lie apart. -/
theorem State.clearFields_fld (fs : List FieldDef) (off : Nat) (s : State) (hw : Tab.wf regReset s.regs = true) (f : FieldDef) (hf : f ∈ fs)
    (fit : ∀ g ∈ fs, g.fld.fits) (ap : fs.Pairwise fun f g => f.fld.apart g.fld) :
    (fs.foldl (fun s f => s.setFld off f.fld 0) s).fld off f.fld = 0 := by
  have other : ∀ (fs : List FieldDef) (s : State), Tab.wf regReset s.regs = true → (∀ g ∈ fs, f.fld.apart g.fld) → f.fld.fits →
      (fs.foldl (fun s f => s.setFld off f.fld 0) s).fld off f.fld = s.fld off f.fld := by
    intro fs
    induction fs with
    | nil => intro s _ _ _; rfl
    | cons g fs ih =>
      intro s hw a hfit
      rw [List.foldl_cons, ih _ (State.wf_setFld hw ..) (fun x hx => a x (.tail _ hx)) hfit,
        State.fld_setFld_apart hw _ (a g (.head _)) hfit]
  induction fs generalizing s with
  | nil => cases hf
  | cons g fs ih =>
    rw [List.foldl_cons]
    rw [List.pairwise_cons] at ap
    rcases List.mem_cons.mp hf with rfl | h
    · rw [other fs _ (State.wf_setFld hw ..) (fun x hx => ap.1 x hx) (fit _ (.head _)), State.fld_setFld hw _ (fit _ (.head _)), Nat.zero_mod]
    · exact ih _ (State.wf_setFld hw ..) h (fun x hx => fit x (.tail _ hx)) ap.2

/-- It changes no other register. -/
theorem State.clearFields_rd (fs : List FieldDef) (off : Nat) (s : State) {o : Nat} (h : o ≠ off) : (fs.foldl (fun s f => s.setFld off f.fld 0) s).rd o = s.rd o := by
  induction fs generalizing s with
  | nil => rfl
  | cons g fs ih => rw [List.foldl_cons, ih, State.rd_setFld_ne h]

/-- It changes registers only. -/
theorem State.clearFields_rest (fs : List FieldDef) (off : Nat) (s : State) : (fs.foldl (fun s f => s.setFld off f.fld 0) s) = { s with regs := (fs.foldl (fun s f => s.setFld off f.fld 0) s).regs } := by
  induction fs generalizing s with
  | nil => rfl
  | cons g fs ih => rw [List.foldl_cons, ih]; rfl

/-- A write of a register with one writable field of any value sets that field. -/
theorem State.regWrite_single (off : Nat) (r : RegDef) (f : FieldDef) (hr : regAt off = some r) (hf : r.fields = [f]) (hc : chkSw1 off = false) (ha : f.acc = .rw)
    (hl : f.lockFree = true) (hu : f.rule = .any) (hw : lockedWo off = fun _ => false) (s : State) (w : Word) : s.regWrite off w = s.setFld off f.fld (f.fld.get w) := by
  have hv : s.violates off w f = false := by simp [State.violates, ha]
  simp [State.regWrite, State.pfcRefused, hr, hf, hc, hw, hv, State.writeField, ha, FieldDef.writable, State.lockOpen, hl, State.writeFate, hu]

/-- A register without RWL fields has none. -/
theorem RegDef.noRwl_absurd {off : Nat} {r : RegDef} {f : FieldDef} (hr : regAt off = some r) (hf : f ∈ r.fields) (ha : f.acc = .rwl)
    (h : ((regAt off).all fun r => r.fields.all fun f => f.acc != .rwl) = true) : False := by
  rw [hr] at h
  have := List.all_eq_true.mp h f hf
  simp [ha] at this

/-- The registers that completions, events and interrupts change have no RWL field; nor have the ring status registers. -/
theorem tellOff_noRwl {off : Nat} (h : tellOff off = true) : ((regAt off).all fun r => r.fields.all fun f => f.acc != .rwl) = true := by
  have A : ∀ j < 64, ((regAt (0x00400020 + 0x40 * j)).all fun r => r.fields.all fun f => f.acc != .rwl) = true := by decide +kernel
  have B : ∀ j < 256, ((regAt (0x00448000 + j)).all fun r => r.fields.all fun f => f.acc != .rwl) = true := by decide +kernel
  simp only [tellOff, Bool.or_eq_true, decide_eq_true_eq, beq_iff_eq] at h
  rcases h with ((h | rfl) | rfl) | h
  · obtain ⟨j, hj, rfl⟩ : ∃ j, j < 64 ∧ off = 0x00400020 + 0x40 * j := ⟨(off - 0x00400020) / 0x40, by omega, by omega⟩
    exact A j hj
  · decide +kernel
  · decide +kernel
  · obtain ⟨j, hj, rfl⟩ : ∃ j, j < 256 ∧ off = 0x00448000 + j := ⟨off - 0x00448000, by omega, by omega⟩
    exact B j hj

theorem ringStatus_noRwl {k : Nat} (h : k ≤ 64) : ((regAt (ringStatus k)).all fun r => r.fields.all fun f => f.acc != .rwl) = true := by
  have A : ∀ j < 65, ((regAt (ringStatus j)).all fun r => r.fields.all fun f => f.acc != .rwl) = true := by decide +kernel
  exact A k (by omega)

/-- A write of an RWL register keeps the lock closed for its fields. -/
theorem Writes.lockOpen {off : Nat} {r : RegDef} {f : FieldDef} (hr : regAt off = some r) (hf : f ∈ r.fields) (ha : f.acc = .rwl) (W : Writes off s t) (hl : s.locked = true)
    (ho : s.lockOpen off f = false) : t.locked = true ∧ t.lockOpen off f = false := by
  have n1 : Reg.GLB_LOCK ≠ off := by rintro rfl; exact RegDef.noRwl_absurd hr hf ha (by decide +kernel)
  have l : t.locked = s.locked := congrArg (· == 1) (W.fld Fd.GLB_LOCK_LOCKED n1 (by decide) (by decide))
  refine ⟨l.trans hl, ?_⟩
  unfold State.lockOpen at ho ⊢
  have : t.resetupOpen off = s.resetupOpen off := by
    unfold State.resetupOpen
    split
    · rfl
    · rename_i k hk
      have hk64 : k ≤ 64 := by
        unfold ringOfReg at hk
        split at hk
        · cases hk; omega
        · split at hk <;> cases hk; decide
      have n2 : ringStatus k ≠ off := by rintro rfl; exact RegDef.noRwl_absurd hr hf ha (ringStatus_noRwl hk64)
      have n3 : ringStatus k ≠ Reg.SWC_STATUS ∧ ringStatus k ≠ Reg.BAY_GLB_STATUS := by
        have : ∀ k < 65, ringStatus k ≠ Reg.SWC_STATUS ∧ ringStatus k ≠ Reg.BAY_GLB_STATUS := by decide +kernel
        exact this k (by omega)
      have e : t.ringState k = s.ringState k := W.fld _ n2 n3.1 n3.2
      have hh : t.ring k = s.ring k := by rw [W.rest]; rfl
      rw [e, hh]
  rw [this, l]; exact ho

/-- Under the lock a write leaves a closed RWL field as it was. -/
theorem State.writeFields_locked (fs : List FieldDef) {off : Nat} {r : RegDef} {f : FieldDef} (hr : regAt off = some r) (hf : f ∈ r.fields) (ha : f.acc = .rwl) (w : Word)
    (sub : ∀ g ∈ fs, g = f ∨ f.fld.apart g.fld) (s : State) (i : Tab.wf regReset s.regs = true) (hl : s.locked = true) (ho : s.lockOpen off f = false)
    (h1 : off ≠ Reg.SWC_STATUS) (h2 : off ≠ Reg.BAY_GLB_STATUS) :
    (fs.foldl (fun s f => s.writeField off w f) s).fld off f.fld = s.fld off f.fld := by
  induction fs generalizing s with
  | nil => rfl
  | cons g fs ih =>
    have W := State.writeField_writes s off w g
    have L := W.lockOpen hr hf ha hl ho
    rw [List.foldl_cons, ih (fun x hx => sub x (.tail _ hx)) _ (W.wf i) L.1 L.2]
    rcases sub g (.head _) with rfl | a
    · unfold State.writeField
      simp [ha, ho]
    · exact State.writeField_other i h1 h2 w g a (RegDef.fits hr hf)

/-- What follows a register write changes no register below the MSI-X block. -/
theorem State.irqCheck_rd (k off : Nat) (h : off < 0x00448000) : (s.irqCheck k).rd off = s.rd off := by
  unfold State.irqCheck
  extract_lets r
  split
  · unfold State.msix
    split
    · refine State.rd_setFld_ne ?_
      rintro rfl; simp [Reg.MSIX_PBA] at h
    · rfl
  · rfl

/-- Neither does a message. -/
theorem State.msix_rd (s : State) (v off : Nat) (h : off < 0x00448000) : (s.msix v).rd off = s.rd off := by
  unfold State.msix
  split
  · refine State.rd_setFld_ne ?_
    rintro rfl; simp [Reg.MSIX_PBA] at h
  · rfl

theorem State.msixUnmask_rd (s : State) (v off : Nat) (h : off < 0x00448000) : (s.msixUnmask v).rd off = s.rd off := by
  unfold State.msixUnmask
  extract_lets o f
  split
  · rw [State.msix_rd _ _ _ h]
    refine State.rd_setFld_ne ?_
    intro e
    rw [e] at h
    simp [o, Reg.MSIX_PBA] at h
  · rfl

theorem State.afterWrite_rd (s : State) (off : Nat) : (s.afterWrite off).rd off = s.rd off := by
  unfold State.afterWrite
  split
  · rename_i k hk
    apply State.irqCheck_rd
    unfold ringOfReg at hk
    split at hk
    · omega
    · split at hk
      · omega
      · cases hk
  · split
    · rename_i h
      refine State.msixUnmask_rd _ _ _ ?_
      have := h.2
      simp only [Reg.MSIX_CTRL] at this
      omega
    split
    · rename_i h
      extract_lets b
      split
      · refine State.rd_wrReg_ne ?_
        simp [Reg.DRV_BAY_CFG, Reg.BAY_LED] at h ⊢
        omega
      · rfl
    · split <;> rfl

/-- Two fields of a tidy register lie apart. -/
theorem RegDef.apart_of_pairwise {l : List FieldDef} (h : l.Pairwise fun f g => f.fld.lsb + f.fld.width ≤ g.fld.lsb ∨ g.fld.lsb + g.fld.width ≤ f.fld.lsb) {f g : FieldDef}
    (hf : f ∈ l) (hg : g ∈ l) (ne : f ≠ g) : f.fld.apart g.fld := by
  induction l with
  | nil => cases hf
  | cons x l ih =>
    rw [List.pairwise_cons] at h
    rcases List.mem_cons.mp hf with e | hf' <;> rcases List.mem_cons.mp hg with e' | hg'
    · exact absurd (e.trans e'.symm) ne
    · rw [e]; exact h.1 _ hg'
    · rw [e']; exact (h.1 _ hf').symm
    · exact ih h.2 hf' hg'

/-- A violation changes GLB_VIOL_ADDR, GLB_VIOL_CNT and the registers of the event ring. -/
theorem State.violation_rd (s : State) {off o : Nat} (w : Word) (h3 : o ≠ Reg.GLB_VIOL_ADDR) (h4 : o ≠ Reg.GLB_VIOL_CNT) (h5 : tellOff o = false) : (s.violation off w).rd o = s.rd o := by
  unfold State.violation
  extract_lets u due n
  have e : u.rd o = s.rd o := (State.rd_setFld_ne h4).trans (State.rd_setFld_ne h3)
  clear_value u
  rw [← e]
  split
  · rw [State.raise_rd _ _ _ _ _ h5]; rfl
  · rfl

/-! ### What a new value brings about -/

/-- The registers that a new value of a setting changes elsewhere: XOFF_SENT of the ports, the PTP slave's state, and what tells the control host. -/
def retuneOff (off : Nat) : Bool :=
  tellOff off || decide (0x00801008 ≤ off ∧ off < 0x00803008 ∧ off % 0x40 = 8) || off == Reg.MAC_PTP_STATUS

/-- `t` differs from `s` only in what a new value of a setting brings about: PFC frames with their counts, fresh shapers, the PTP slave's state, and
what tells the control host. -/
structure Retunes (s t : State) : Prop where
  regs : ∀ off, retuneOff off = false → t.rd off = s.rd off
  rest : t = { s with
    regs := t.regs, out := t.out
    hst := { s.hst with rings := t.hst.rings, evSeq := t.hst.evSeq, backlog := t.hst.backlog, lostOwed := t.hst.lostOwed, started := t.hst.started }
    tel := { s.tel with hist := t.tel.hist, errQ := t.tel.errQ, xings := t.tel.xings, acc := t.tel.acc }
    net := { s.net with deficit := t.net.deficit, pfcDue := t.net.pfcDue }
    pair := { s.pair with held := t.pair.held } }

theorem Retunes.refl (s : State) : Retunes s s := ⟨fun _ _ => rfl, rfl⟩

theorem Retunes.trans (h : Retunes s t) (g : Retunes t u) : Retunes s u :=
  ⟨fun o ho => (g.regs o ho).trans (h.regs o ho), by rw [g.rest, h.rest]⟩

theorem Retunes.ite {c : Prop} [Decidable c] (h : Retunes s t) (g : Retunes s u) : Retunes s (if c then t else u) := by
  split
  · exact h
  · exact g

theorem Tells.retunes (h : Tells s t) : Retunes s t where
  regs o ho := h.regs o (by simp only [retuneOff, Bool.or_eq_false_iff] at ho; exact ho.1.1)
  rest := by
    have hh := h.hst; have ht := h.tel; have hp := h.pair
    obtain ⟨p1, p2, p3, p4, p5, p6, p7, p8, p9, p10, p11, p12, p13, p14, p15⟩ := h.parts
    cases t
    simp only at hh ht hp p1 p2 p3 p4 p5 p6 p7 p8 p9 p10 p11 p12 p13 p14 p15 ⊢
    subst p1 p2 p3 p4 p5 p6 p7 p8 p9 p10 p11 p12 p13 p14 p15
    rw [State.mk.injEq]
    refine ⟨?_, ?_, ?_, ?_, ?_, ?_, ?_, ?_, ?_, ?_, ?_, ?_, ?_, ?_, ?_, ?_, ?_, ?_, ?_, ?_⟩ <;> first | rfl | assumption | skip
    rw [ht]

theorem Retunes.setFld {off : Nat} (h : retuneOff off = true) (f : Fld) (v : Nat) : Retunes s (s.setFld off f v) :=
  ⟨fun o ho => State.rd_setFld_ne (fun e => Bool.noConfusion ((e ▸ ho).symm.trans h)), rfl⟩

theorem retuneOff_lp {m : Nat} (h : m < 128) : retuneOff (Reg.MAC_LP_STATUS m) = true := by
  simp [retuneOff, Reg.MAC_LP_STATUS]; omega

theorem Retunes.sendPfc (m i q : Nat) : Retunes s (s.sendPfc m i q) := by
  unfold State.sendPfc State.emitPfc
  refine .ite ⟨fun _ _ => rfl, rfl⟩ (.ite ⟨fun _ _ => rfl, rfl⟩ (.refl _))

theorem Retunes.pfcPair {m : Nat} (h : m < 128) (i : Nat) : Retunes s (s.pfcPair m i) := by
  have X (b : Bool) : Retunes s (s.setXoff m i b) := .setFld (retuneOff_lp h) ..
  unfold State.pfcPair
  refine .ite (.ite (X _) (.refl _)) (.ite (.refl _) ?_)
  extract_lets
  exact .ite ((X _).trans (.sendPfc ..)) (.ite ((X _).trans (.sendPfc ..)) (.refl _))

theorem Retunes.foldl {α : Type} (f : State → α → State) (l : List α) (h : ∀ s x, x ∈ l → Retunes s (f s x)) : Retunes s (l.foldl f s) := by
  induction l generalizing s with
  | nil => exact .refl _
  | cons x l ih => exact (h s x (.head _)).trans (ih fun s y hy => h s y (.tail _ hy))

theorem Retunes.pfcCheck : Retunes s s.pfcCheck := by
  refine .foldl _ _ fun s p hp => .pfcPair ?_ _
  rcases List.mem_append.mp hp with h | h
  · obtain ⟨e, he, rfl⟩ := List.mem_map.mp h
    have := of_decide_eq_true (List.mem_filter.mp he).2
    simp only; omega
  · obtain ⟨m, hm, h⟩ := List.mem_flatMap.mp h
    have := List.mem_range.mp hm
    simp only at h
    split at h
    · cases h
    · obtain ⟨i, _, rfl⟩ := List.mem_map.mp h
      exact this

theorem Retunes.pfcChanged (m : Option Nat) (h : ∀ x, m = some x → x < 128) : Retunes s (s.pfcChanged m) := by
  unfold State.pfcChanged
  split
  · exact Retunes.pfcCheck.trans (.foldl _ _ fun s i _ => .pfcPair (h _ rfl) i)
  · exact .pfcCheck

theorem Retunes.shaperStart (p : Nat → Bool) : Retunes s (s.shaperStart p) := ⟨fun _ _ => rfl, rfl⟩

theorem Retunes.setPtpState (st src : Nat) : Retunes s (s.setPtpState st src) := by
  have X (s : State) (f : Fld) (v : Nat) : Retunes s (s.setFld Reg.MAC_PTP_STATUS f v) := .setFld (by decide) ..
  unfold State.setPtpState
  extract_lets u
  exact (X ..).trans (.ite (.refl _) ((X ..).trans (State.raise_tells ..).retunes))

theorem Retunes.ptpCtl : Retunes s s.ptpCtl := by
  unfold State.ptpCtl
  exact .ite (.ite (.setPtpState ..) (.refl _)) (.ite (.refl _) (.setPtpState ..))

/-- A new value of a setting changes the register itself no more. -/
theorem Retunes.reconfigured (off : Nat) : Retunes s (s.reconfigured off) := by
  unfold State.reconfigured
  split
  · rename_i h
    refine .pfcChanged _ fun x hx => ?_
    cases hx
    simp only [regIdx, Reg.MAC_LP_CFG] at h ⊢; omega
  split
  · exact .pfcChanged _ nofun
  split
  · rename_i h
    refine .pfcChanged _ fun x hx => ?_
    cases hx
    simp only [regIdx, Reg.SWC_PQ_BUF] at h ⊢; omega
  split
  · exact .shaperStart _
  split
  · exact .shaperStart _
  split
  · exact .ptpCtl
  · exact .refl _

theorem State.reconfigured_own (s : State) (off : Nat) : (s.reconfigured off).rd off = s.rd off := by
  by_cases h : retuneOff off = false
  · exact (Retunes.reconfigured off).regs off h
  · unfold State.reconfigured
    simp only [retuneOff, tellOff, Bool.or_eq_false_iff, not_and_or, Bool.not_eq_false, Bool.or_eq_true, decide_eq_true_eq, beq_iff_eq, Reg.RING_EVT_IDX,
      Reg.RING_EVT_LOST, Reg.MAC_PTP_STATUS] at h
    rw [if_neg, if_neg, if_neg, if_neg, if_neg, if_neg] <;>
      simp only [Reg.MAC_PTP_CTL, Reg.TMG_NODE_RATE, Reg.TMG_PORT_RATE, Reg.SWC_PQ_BUF, Reg.SWC_SERAI_CFG, Reg.SWC_HOLD_CFG, Reg.SWC_SHARED_CFG, Reg.MAC_LP_CFG] <;> omega

/-- What some writes bring with them changes no register but pending bits of interrupts and LEDs, and of the rest only the rings, what has been sent
and the tagging state. -/
theorem State.afterWrite_frame (s : State) (off : Nat) :
    (∀ o, tellOff o = false → (off < Reg.DRV_BAY_CFG 128 → ∀ b, o ≠ Reg.BAY_LED b) → (s.afterWrite off).rd o = s.rd o)
      ∧ s.afterWrite off = { s with
          regs := (s.afterWrite off).regs, out := (s.afterWrite off).out, tel := { s.tel with x := (s.afterWrite off).tel.x }
          hst := { s.hst with rings := (s.afterWrite off).hst.rings } } := by
  have M (u : State) (v : Nat) (h : v < 2048) : (∀ o, tellOff o = false → (u.msix v).rd o = u.rd o) ∧ u.msix v = { u with regs := (u.msix v).regs, out := (u.msix v).out } := by
    refine ⟨(Tells.msix v h).regs, ?_⟩
    unfold State.msix
    split <;> rfl
  unfold State.afterWrite
  split
  · rename_i k hk
    refine ⟨fun o ho _ => (Tells.irqCheck k).regs o ho, ?_⟩
    unfold State.irqCheck
    extract_lets r
    split
    · rw [(M _ _ (Fld.get_lt _ _)).2]; rfl
    · rfl
  · split
    · rename_i h
      unfold State.msixUnmask
      extract_lets o' f
      have hv : regIdx (Reg.MSIX_CTRL 0) 0x10 off < 2048 := by
        simp only [regIdx, Reg.MSIX_CTRL] at h ⊢; omega
      split
      · refine ⟨fun o ho _ => ?_, ?_⟩
        · rw [(M _ _ hv).1 o ho]
          refine State.rd_setFld_ne ?_
          rintro rfl
          simp [tellOff, o', Reg.MSIX_PBA] at ho; omega
        · rw [(M _ _ hv).2]; rfl
      · exact ⟨fun _ _ _ => rfl, rfl⟩
    split
    · rename_i hb
      extract_lets b
      split
      · exact ⟨fun o _ h => State.rd_wrReg_ne (h hb.2.1 b), rfl⟩
      · exact ⟨fun _ _ _ => rfl, rfl⟩
    · split
      · exact ⟨fun _ _ _ => rfl, rfl⟩
      · exact ⟨fun _ _ _ => rfl, rfl⟩

theorem retuneOff_noRwl {off : Nat} (h : retuneOff off = true) : ((regAt off).all fun r => r.fields.all fun f => f.acc != .rwl) = true := by
  have A : ∀ j < 128, ((regAt (Reg.MAC_LP_STATUS j)).all fun r => r.fields.all fun f => f.acc != .rwl) = true := by decide +kernel
  simp only [retuneOff, Bool.or_eq_true, decide_eq_true_eq, beq_iff_eq] at h
  rcases h with (h | h) | rfl
  · exact tellOff_noRwl h
  · obtain ⟨j, hj, rfl⟩ : ∃ j, j < 128 ∧ off = Reg.MAC_LP_STATUS j := ⟨(off - 0x00801008) / 0x40, by omega, by simp only [Reg.MAC_LP_STATUS]; omega⟩
    exact A j hj
  · decide +kernel

/-- A write of the register 4 above leaves a register with an RWL field as it was. -/
theorem State.write32_other (s : State) {off o : Nat} {r : RegDef} {f : FieldDef} (hr : regAt o = some r) (hf : f ∈ r.fields) (ha : f.acc = .rwl) (e : off = o + 4)
    (w : Word) : (s.write32 off w).rd o = s.rd o := by
  have ne : o ≠ off := by omega
  have no {x : Nat} (h : ((regAt x).all fun r => r.fields.all fun f => f.acc != .rwl) = true) : o ≠ x := by rintro rfl; exact RegDef.noRwl_absurd hr hf ha h
  have nr : retuneOff o = false := by
    cases h : retuneOff o
    · rfl
    · exact (RegDef.noRwl_absurd hr hf ha (retuneOff_noRwl h)).elim
  have nt : tellOff o = false := by simp only [retuneOff, Bool.or_eq_false_iff] at nr; exact nr.1.1
  unfold State.write32
  split
  · rfl
  unfold State.hostWrite
  split
  · have R : (s.regWrite off w).rd o = s.rd o := by
      unfold State.regWrite
      split
      · rfl
      split
      · rfl
      extract_lets bad u
      have : u.rd o = s.rd o := by
        simp only [u]
        split
        · exact State.rd_setFld_ne (no (by decide +kernel))
        · exact (State.writeFields_writes ..).regs o ne (no (by decide +kernel)) (no (by decide +kernel))
      split
      · exact (State.violation_rd _ _ (no (by decide +kernel)) (no (by decide +kernel)) nt).trans this
      · exact this
    have T := ((State.afterWrite_frame (s.regWrite off w) off).1 o nt fun h b hb => by simp only [Reg.DRV_BAY_CFG, Reg.BAY_LED] at h hb; omega).trans R
    show State.rd (if _ then _ else _) o = _
    split
    · exact T
    · exact ((Retunes.reconfigured off).regs o nr).trans T
  · exact State.rd_setFld_ne (no (by decide +kernel))

end Sys2Proof.Machine
end

