-- ==== Sys2Proof/Laws/Runs.lean ====
section
/-!
SUPPORT. Unfolding steps that the statements share: a routine that runs on a command's item, a host write while management firmware is
ready, a command of an unpaired controller, a frame taken for the transport, and masks of bits.
-/

namespace Sys2Proof.Machine

open Sys2Proof

variable {s u : State}

/-- A routine that runs on a command does its work on that command. -/
theorem State.onWb_runs {k : Fin 12} {c : Fin 256} {code it w} (R : s.RunsWb k c code u it w) (body : Nat → Waybill → State → State) :
    u.onWb it body = body w (u.wb w) u := by
  unfold State.onWb; rw [R.ref]; dsimp only
  rw [if_neg R.live, if_neg]
  simp [R.whole, R.kept]

/-- A routine does its leg on the item that its run takes. -/
theorem State.run_enters {k : Fin 12} {c : Fin 256} {code it} (E : s.Enters k c code u it) (body : Item → State → State) :
    s.run k c code body = body it u := by
  obtain ⟨r, x, h, rfl, rfl⟩ := E
  unfold State.run; rw [h]

/-- The same of a pool routine. -/
theorem State.poolRun_enters {k : Fin 12} {c : Fin 256} {code it} (E : s.Enters k c code u it) (leg : Item → State → State) (start : Starts) :
    s.poolRun k.val c.val code leg start = leg it u := by
  obtain ⟨r, x, h, rfl, rfl⟩ := E
  unfold State.poolRun; rw [h]

theorem State.run_runs {k : Fin 12} {c : Fin 256} {code it w} (R : s.RunsWb k c code u it w) (body : Item → State → State) :
    s.run k c code body = body it u := State.run_enters R.enters body

/-- A run of a routine of pool work that takes an item. -/
theorem State.run_works {k : Fin 12} {c : Fin 256} {code it w} (R : s.RunsWork k c code u it w) (body : Item → State → State) :
    s.run k c code body = body it u := State.run_enters R.enters body

theorem State.poolRun_works {k : Fin 12} {c : Fin 256} {code it w} (R : s.RunsWork k c code u it w) (leg : Item → State → State) (start : Starts) :
    s.poolRun k c code leg start = leg it u := State.poolRun_enters R.enters leg start

/-- A pool routine that starts new work. -/
theorem State.poolRun_opens {k : Fin 12} {c : Fin 256} {code r p t} (O : s.Opens k c code r p) (leg : Item → State → State) {start : Starts}
    (h : start s p = some t) : s.poolRun k c code leg start = t.openStart r code := by
  unfold State.poolRun State.startRun
  simp only [O.idle, O.run, O.pool, h]

/-- Entering a run changes only the accumulators, the slots left to the runs and the items. -/
theorem State.Enters.frame {k : Fin 12} {c : Fin 256} {code it} (E : s.Enters k c code u it) :
    u.regs = s.regs ∧ u.now = s.now ∧ u.straps = s.straps ∧ u.hst = s.hst ∧ u.net = s.net ∧ u.rdm = s.rdm ∧ u.lay = s.lay ∧ u.cip = s.cip ∧
    u.drv = s.drv ∧ u.pwr = s.pwr ∧ u.env = s.env ∧ u.pair = s.pair ∧ u.mgt = s.mgt ∧ u.crs = s.crs ∧ u.out = s.out ∧ u.drawn = s.drawn ∧
    u.pending = s.pending ∧ u.itn = { s.itn with slots := u.itn.slots } ∧ u.cmd = { s.cmd with items := u.cmd.items } := by
  obtain ⟨r, x, -, -, rfl⟩ := E
  exact State.enter_frame s r x

/-- A controller that is not PAIRED has nothing repeated by its peer. -/
theorem State.replicate_unpaired {s u : State} {d : Desc} (h : s.pairState ≠ pairPaired) (r : Replica) (x : State) (e : x.pairState = s.pairState) : x.replicate r = x := by
  rw [← e] at h
  simp [State.replicate, h]

/-- A host write reaches every block once management firmware is ready. -/
theorem State.hostWrite_ready {s : State} (h : s.mgtReady = true) (off : Nat) (f : State → State) : s.hostWrite off f = f s := by
  rw [State.hostWrite, h, Bool.true_or, if_pos rfl]

/-- A completion leaves the pair state. -/
theorem State.done_pairState {s : State} (d : Desc) (st : Nat) : (s.done d st).pairState = s.pairState := by
  unfold State.pairState; have := State.done_tells s d st
  rw [this.pair, this.parts.2.1]

/-- The transport takes the first frame that waits for it, when the command asks for its kind. -/
theorem State.takeRoce_first {s u : State} {f rest} (p) (h1 : s.joinHold = false) (h2 : s.net.toRdma = f :: rest) (hu : u = { s with net := { s.net with toRdma := rest } })
   (h : p (parseBth f.bytes).op (beField f.bytes ((parseHdr f.bytes).l4 + 20) 1 / 32 % 4) = true) : s.takeRoce p = u.roceIn f := by
  unfold State.takeRoce; rw [if_neg (by simp [h1]), h2]; simp only [h, if_true, ← hu]

/-- The first frame is taken by a row that its opcode and syndrome select. -/
theorem State.FirstFrame.take {s u : State} {f : Frame} (F : s.FirstFrame u f) (p)
    (h : p (parseBth f.bytes).op (beField f.bytes ((parseHdr f.bytes).l4 + 20) 1 / 32 % 4) = true) : s.takeRoce p = u.roceIn f := by
  obtain ⟨rest, e⟩ : ∃ rest, s.net.toRdma = f :: rest := by
    have := F.head
    cases e : s.net.toRdma with
    | nil => simp [e] at this
    | cons a l => simp [e] at this; exact ⟨l, by rw [this]⟩
  refine State.takeRoce_first p F.free e ?_ h
  rw [F.taken, e]; rfl

/-- A frame that passes checks 1 to 4 is processed at once. -/
theorem State.Reaches.roceIn {s u : State} {f : Frame} {q : Nat} (R : s.Reaches u f q) : u.roceIn f = u.process q f false := by
  unfold State.roceIn
  rw [if_neg (by simp [R.sound, R.icrc]), if_neg (by rcases R.pkey with h | h <;> simp [R.tver, h]), if_neg R.data]
  simp [R.qp, R.receives, R.atOnce]

/-- A field that is the whole word. -/
theorem put_word (w : Word) (v : Nat) : (wordFld.put w v).toNat = v % 4294967296 := by
  have h := Fld.get_put wordFld w v (by decide)
  have e : wordFld.get (wordFld.put w v) = (wordFld.put w v).toNat := by
    show (_ >>> 0) % 2 ^ 32 = _
    rw [Nat.shiftRight_zero, Nat.mod_eq_of_lt (BitVec.isLt _)]
  rw [← e, h]; rfl

/-- The bits of a mask built from a list of indices. -/
theorem mask_sum (p : Nat → Bool) (n : Nat) :
    let m := ((List.range n).filter p).foldl (fun a i => a + 2 ^ i) 0
    m < 2 ^ n ∧ ∀ k, k < n → natBit m k = p k := by
  induction n with
  | zero => exact ⟨Nat.one_pos, fun k h => absurd h (by omega)⟩
  | succ n ih =>
    intro m
    obtain ⟨h1, h2⟩ := ih
    have hm : m = ((List.range n).filter p).foldl (fun a i => a + 2 ^ i) 0 + (if p n then 2 ^ n else 0) := by
      simp only [m, List.range_succ, List.filter_append, List.foldl_append]
      cases h : p n <;> simp [h]
    have hp : 2 ^ (n + 1) = 2 ^ n + 2 ^ n := by omega
    generalize ((List.range n).filter p).foldl (fun a i => a + 2 ^ i) 0 = x at h1 h2 hm
    refine ⟨by rw [hm, hp]; split <;> omega, fun k hk => ?_⟩
    rcases Nat.lt_succ_iff_lt_or_eq.mp hk with hk | rfl
    · rw [← h2 k hk, hm]
      split
      · have : 2 ^ n = 2 ^ k * (2 * 2 ^ (n - k - 1)) := by
          rw [← Nat.pow_succ', ← Nat.pow_add]; congr 1; omega
        simp only [natBit]
        rw [this, Nat.add_mul_div_left _ _ (Nat.two_pow_pos k)]
        congr 1
        omega
      · rfl
    · rw [hm]
      simp only [natBit]
      cases hq : p k
      · simp [Nat.div_eq_of_lt h1]
      · simp only [if_true]
        rw [Nat.add_div_right _ (Nat.two_pow_pos k), Nat.div_eq_of_lt h1]; rfl

theorem bit_mod (v k : Nat) (h : k < 32) : natBit (v % 4294967296) k = natBit v k := by
  have : (4294967296 : Nat) = 2 ^ k * (2 * 2 ^ (31 - k)) := by
    rw [← Nat.pow_succ', ← Nat.pow_add]; have : k + (31 - k).succ = 32 := by omega
    rw [this]
  simp only [natBit]
  rw [this, Nat.mod_mul_right_div_self, Nat.mod_mul_right_mod]

/-- A read of a register with no pending latch returns its fields under its views. -/
theorem State.readReg_ready (s : State) (h : s.mgtReady = true) (off : Nat) (hb : off < doorbellBase) (hr : (regAt off).isNone = false) :
    s.readReg off = (s.view off).over (s.rd off) := by
  simp [State.readReg, Nat.not_le.mpr hb, hr, h]

end Sys2Proof.Machine
end

