-- ==== Sys2Proof/WellFormed.lean ====
section
/-!
DEFINITION. When a command is one that the outside world can send: the lengths that the chapters of spec/ give to what a transfer, a frame
or a set of samples carries. A meaning is defined for every term; these checks say which terms stand for a real event.
-/

namespace Sys2Proof

/-- The command is well-formed: a descriptor has 64 B (03 R85), the HOST_ADD buffer 256 B (R103), a wrapped key pair 72 B and a KEK blob 68 B
(11 R350, Table 11-9), a bay list 128 B (09 R266), a frame at least its Ethernet header, a PFC frame eight 16-bit quanta (04 R124), a MAC address
6 B, a drive's write the bytes it names (12 R372), an evaluation 128 bays (13 R386), a loop step 8 thermistors and 12 fans (14 R410 to R414), a
link frame its header and, KEYX apart, its tag (15 R433); a failed transfer brings nothing (03 R97). -/
def Instr.wf : Instr → Bool
  | .imageCopyComplete _ ok bytes => ok || bytes.isEmpty
  | .descriptorFetch _ bytes => bytes.length == 64
  | .nop _ bytes => bytes.length == 64
  | .hostAdd ok nqn => !ok || nqn.length == 256
  | .keyLoad ok blob => !ok || blob.length == 72 || blob.length == 68
  | .poolCreate ok list => !ok || list.length == 128
  | .fwStage ok pkg _ => ok || pkg.isEmpty
  | .frameHeaderLookup _ bytes _ => decide (14 ≤ bytes.length)
  | .pfcFrameReceive _ _ quanta => quanta.length == 8 && quanta.all (fun q => decide (q < 65536))
  | .macAgeOut _ mac => mac.length == 6
  | .chkSwDone _ ok data => ok || data.isEmpty
  | .driveDmaAccess _ _ write data len => if write then data.length == len.val else data.isEmpty
  | .bayEvaluation _ _ bays => bays.length == 128
  | .fanLoopStep x => x.therms.length == 8 && x.pulses.length == 12
  | .keyxReceive bytes => decide (16 ≤ bytes.length)
  | .ingressFrameReceive bytes => decide (32 ≤ bytes.length)
  | .recordApply frames => frames.all fun b => decide (32 ≤ b.length)
  | .statusFrameReceive bytes _ => decide (32 ≤ bytes.length)
  | .mgtFrameReceive bytes _ _ => decide (32 ≤ bytes.length)
  | .joinFrameReceive bytes => decide (32 ≤ bytes.length)
  | .resendFrameReceive bytes => decide (32 ≤ bytes.length)
  | .recoveryGo _ ok pkg => ok || pkg.isEmpty
  | .registerWrite ..
  | .seam
  | .memoryLaneComplete
  | .cipherRequestComplete ..
  | .parityRequestComplete ..
  | .rxParse ..
  | .cmdAdmit ..
  | .lockCheck ..
  | .mapXlate ..
  | .cacheProbe ..
  | .drvSubmit ..
  | .drvReap ..
  | .piCheck ..
  | .xferArm ..
  | .cplRetire ..
  | .cacheFill ..
  | .destageStep ..
  | .parityPlan ..
  | .journalPut ..
  | .journalRetire ..
  | .rebuildStep ..
  | .scrubStep ..
  | .resyncStep ..
  | .metaFlush ..
  | .selftestStep ..
  | .adminStep ..
  | .abortScan ..
  | .dumpStep ..
  | .suspendResp ..
  | .itnCtlLoad ..
  | .itnCtlSwap ..
  | .itnCtlStart ..
  | .itnSwapped
  | .clusterFault ..
  | .channelReturnHome ..
  | .dumpEntry
  | .registerReadClear ..
  | .counterLowRead ..
  | .ringCtlEnable ..
  | .ringCtlDisable ..
  | .ringEvtCtlEnable ..
  | .ringEvtCtlDisable ..
  | .ringDisableDrained ..
  | .commandDoorbell ..
  | .completionDoorbell ..
  | .eventDoorbell ..
  | .ringDmaErr ..
  | .mgtBusyRetry
  | .msixCoalesceTimeout ..
  | .endpointReset ..
  | .ringCreate
  | .ringDelete
  | .imgLoad
  | .imgSwap
  | .variantExit
  | .hostRemove
  | .chanCreate
  | .chanModify
  | .chanDestroy
  | .channelFree ..
  | .chanQuery
  | .chanList ..
  | .keyDestroy
  | .poolDestroy
  | .poolMemberAdd
  | .poolMemberRemove
  | .volCreate
  | .volDelete
  | .volResize
  | .maintStart
  | .maintStop
  | .bayPower
  | .envSet
  | .pairJoin
  | .pairTakeover
  | .pairRehearse ..
  | .fwActivate ..
  | .telConfig
  | .logRead ..
  | .netAddrSet
  | .qpDestroy
  | .macCtlEnable ..
  | .macCtlDisable ..
  | .macCtlReset ..
  | .serdesCalibrationDone ..
  | .autonegComplete ..
  | .autonegRestart ..
  | .linkTrainingComplete ..
  | .linkTrainingAbandon ..
  | .pcsFecLock ..
  | .upHoldExpire ..
  | .lockLoss ..
  | .downHoldExpire ..
  | .frameTail ..
  | .pfcPauseExpire ..
  | .pfcXoffRepeat ..
  | .fecWindowEnd ..
  | .portLost ..
  | .managementFrame
  | .ptpSourceLoss
  | .pllTrimUpdate
  | .macPtpSeamNsRead
  | .frameDepart ..
  | .egressSelect ..
  | .seraiEccError ..
  | .cmReq ..
  | .repResend ..
  | .cmRtu ..
  | .cmDreq ..
  | .cmDrep ..
  | .dreqResend ..
  | .qpDrained ..
  | .drainTimeout ..
  | .qpErrCleared ..
  | .timewaitExpire ..
  | .rocePacketReceive
  | .ackReceive
  | .nakReceive
  | .readResponseReceive
  | .cnpReceive
  | .ackTimeout ..
  | .rnrResume ..
  | .contextFetchComplete ..
  | .egressFetchRelease ..
  | .timerFetchComplete ..
  | .transmissionRelease ..
  | .rdmQpSelWrite ..
  | .tmgChanSelWrite ..
  | .layVolSelWrite ..
  | .cipKeySelWrite ..
  | .keepAliveExpire ..
  | .controllerShutdownComplete ..
  | .controllerDisableComplete ..
  | .poolImport ..
  | .maintActivityStart ..
  | .maintPreempted ..
  | .scrubRepeat ..
  | .maintLoadUpdate
  | .hbmStackLost ..
  | .hbmUncorrectable ..
  | .cipherAlarm ..
  | .rngRetest ..
  | .cipAlarmClear ..
  | .zeroiseMarker ..
  | .chkSwStart ..
  | .bayLinkUp ..
  | .linkRateChange ..
  | .bayTrainingFail ..
  | .perstRetryRelease ..
  | .bayConfigComplete ..
  | .bayControllerReady ..
  | .bayInitComplete ..
  | .bringupStepTimeout ..
  | .containmentTrigger ..
  | .containmentRelease ..
  | .recoverTimeout ..
  | .driveCompletion ..
  | .driveCommandTimeout ..
  | .driveAbortTimeout ..
  | .writeRetryPermitted ..
  | .smartPoll ..
  | .inrushTimeout ..
  | .presenceConfirm ..
  | .retryDelayExpire ..
  | .retryCountReset ..
  | .bayCycleOffExpire ..
  | .fanFail ..
  | .fanRestore ..
  | .criticalTempShutdown
  | .pwmLoopStall
  | .chargerTimeout
  | .holdFaultClear ..
  | .powerFailLatch
  | .dumpWriteComplete
  | .dumpComplete
  | .restoreReset
  | .pairBundleLockChange ..
  | .bundleRejoin ..
  | .linkRekey
  | .recordMissing
  | .lossWaitExpire
  | .standbyLost
  | .roleClaimTimeout
  | .peerClaimSensed
  | .lockstepOffsetLoss
  | .releaseConfirmed
  | .addressAnnounceRepeat
  | .reservationPreemptComplete ..
  | .joinPrecopyEnd ..
  | .joinHoldEnd
  | .joinHoldTimeout
  | .rehearsalEnd ..
  | .mgtWatchdogReset ..
  | .core3WatchdogReset ..
  | .boot ..
  | .itkCommit ..
  | .itkClear ..
  | .mgtMeasSelWrite ..
  | .spdmRequest ..
  | .spdmHeartbeatTimeout ..
  | .pldmRequest ..
  | .powerOnReset ..
  | .externalReset
  | .crsChipResetGo ..
  | .coreClockLoss
  | .coreSupplyLoss ..
  | .fatalError ..
  | .mgtPllLoss
  | .mgtPllRelock
  | .auxPllLoss
  | .auxPllReturn
  | .hbmTrainingDone ..
  | .clusterResetRelease ..
  | .clusterCheckDone ..
  | .clusterCheckTimeout ..
  | .crsCluCtlRetest ..
  | .telemetryDumpLatch
  | .telDumpCopyDone ..
  | .telCtrSelWrite ..
  | .errorLogWrite
  | .glbLockSet ..
  | .bayPerstRelease ..
  | .firstConfigRequest ..
  | .mctpControlRequest ..
  | .referenceClockReturn ..
  | .alwaysOnSupplyLoss
  | .inputPowerReturn
  | .claimHoldExpire
  | .tickBoundaryMark ..
  | .abandonedRegisterRead .. => true

end Sys2Proof
end

