-- ==== Sys2Proof/Tests/Slice0.lean ====
section
/-! SUPPORT. Tests of the model: ill-formed commands that `Instr.wf` refuses, worked examples of the specification, and for every statement of
`Certificates/Slice0/Obligations.lean` a theorem `witness_<Name>` that shows, clause by clause, a state and operands that meet all its hypotheses. -/

namespace Sys2Proof.Tests

open Sys2Proof Sys2Proof.Machine

set_option Elab.async false

/-! ## Small states -/
/-- The state after reset with management firmware running. -/
def onS : State :=
  ((State.reset.setFld Reg.MGT_STATUS Fd.MGT_STATUS_READY 1).setFld Reg.MGT_STATUS Fd.MGT_STATUS_FW_RUN 1).setFld Reg.MGT_STATUS Fd.MGT_STATUS_CORE_UP 15

/-- The 56 operand bytes that hold the named fields (descriptor offset, size, value). -/
def opsOf (fs : List (Nat × Nat × Nat)) : List Byte :=
  (List.range 56).map fun i => match fs.find? fun f => decide (f.1 ≤ i + 8) && decide (i + 8 < f.1 + f.2.1) with
    | some f => BitVec.ofNat 8 (f.2.2 / 256 ^ (i + 8 - f.1))
    | none => 0

/-- A descriptor of ring 0 with this opcode, handle and fields. -/
def cmdD (op handle : Nat) (fs : List (Nat × Nat × Nat)) : Desc :=
  { ring := 0, seq := 0, fetchTick := 0, opcode := op, flags := 0, cmdId := 7, handle := handle, ops := opsOf fs }

/-- `s` with one descriptor waiting. -/
def withD (s : State) (d : Desc) : State := { s with hst := { s.hst with queue := [d] } }

theorem inv_of {s : State} (h : (Tab.wf regReset s.regs && decide (s.hst.backlog.length ≤ backlogMax) && decide (s.tel.hist.length ≤ historyMax)
    && decide (s.mgt.schedLog.length ≤ 1024)) = true) : s.Inv := by
  simp only [Bool.and_eq_true, decide_eq_true_eq] at h
  exact ⟨h.1.1.1, h.1.1.2, h.1.2, h.2⟩

theorem takes_of {s : State} {op : Nat} {d : Desc} (h : s.fwRuns = true ∧ s.joinHold = false ∧ s.nextDesc = some d ∧ d.opcode = op
    ∧ (s.isStandby = false ∨ standbyOpcodes.contains op = true)) : s.Takes op d := ⟨h.1, h.2.1, h.2.2.1, h.2.2.2.1, h.2.2.2.2⟩

theorem enters_of {s : State} {k : Fin 12} {c : Fin 256} {code : Nat} {r : SlotRun} {x : Item} (h : s.nextRun k.val c.val code = some (r, x)) :
    s.Enters k c code (s.enter r x) (s.begun r x) := ⟨r, x, h, rfl, rfl⟩

theorem runsWb_of {s : State} {k : Fin 12} {c : Fin 256} {code : Nat} {r : SlotRun} {x : Item} {w : Nat}
    (h : s.nextRun k.val c.val code = some (r, x) ∧ (s.begun r x).ref = .wb w ∧ ((s.enter r x).wb w).st ≠ .free
      ∧ ((s.enter r x).wb w).st ≠ .abandoned ∧ ((s.enter r x).wb w).cut = false) : s.RunsWb k c code (s.enter r x) (s.begun r x) w :=
  ⟨enters_of h.1, h.2.1, h.2.2.1, h.2.2.2.1, h.2.2.2.2⟩

theorem runsWork_of {s : State} {k : Fin 12} {c : Fin 256} {code : Nat} {r : SlotRun} {x : Item} {w : Work}
    (h : s.nextRun k.val c.val code = some (r, x) ∧ (s.begun r x).ref = .work w.id ∧ (s.enter r x).work? w.id = some w) :
    s.RunsWork k c code (s.enter r x) (s.begun r x) w := ⟨enters_of h.1, h.2.1, h.2.2⟩

theorem opens_of {s : State} {k : Fin 12} {c : Fin 256} {code : Nat} {r : SlotRun} {p : Nat}
    (h : s.nextRun k c code = none ∧ s.openRun k c code = some r ∧ s.classPool c = some p) : s.Opens k c code r p := ⟨h.1, h.2.1, h.2.2⟩

theorem firstFrame_of {s : State} {f : Frame} (h : s.joinHold = false ∧ s.net.toRdma.head? = some f) :
    s.FirstFrame { s with net := { s.net with toRdma := s.net.toRdma.tail } } f := ⟨h.1, h.2, rfl⟩

theorem reaches_of {s : State} {f : Frame} {q : Nat} (h : s.joinHold = false ∧ s.net.toRdma.head? = some f ∧ f.bad = false ∧ icrcOk f.bytes = true
    ∧ (parseBth f.bytes).tver = 0 ∧ (parseBth f.bytes).pkey = 0xFFFF ∧ (parseBth f.bytes).qpn ≠ 1
    ∧ ({ s with net := { s.net with toRdma := s.net.toRdma.tail } } : State).qpOf (parseBth f.bytes).qpn = some q
    ∧ (({ s with net := { s.net with toRdma := s.net.toRdma.tail } } : State).qp q).st.receives = true
    ∧ ({ s with net := { s.net with toRdma := s.net.toRdma.tail } } : State).parks q = false) :
    s.Reaches { s with net := { s.net with toRdma := s.net.toRdma.tail } } f q :=
  ⟨firstFrame_of ⟨h.1, h.2.1⟩, h.2.2.1, h.2.2.2.1, h.2.2.2.2.1, .inl h.2.2.2.2.2.1, h.2.2.2.2.2.2.1, h.2.2.2.2.2.2.2.1, h.2.2.2.2.2.2.2.2.1,
    h.2.2.2.2.2.2.2.2.2⟩

theorem handles_of {s u : State} {f : Frame} {q : Nat} (r : s.Reaches u f q)
    (h : (parseHdr f.bytes).srcIp = (u.qp q).rip ∧ (parseHdr f.bytes).vlan = (u.qp q).vlan ∧ (u.qp q).st ≠ .err) : s.Handles u f q :=
  ⟨r, h.1, h.2.1, h.2.2⟩

theorem onS_inv : onS.Inv := inv_of (by decide +kernel)

/-- A class table entry with a capacity of 100 on every cluster. -/
def wCls (id kind commands pool : Nat) : Cls :=
  { id := id, kind := kind, prio := 0, commands := commands, quota := 256, maxXfer := 0, bounds := [], pool := pool, bandwidth := 1000000
    caps := List.replicate 12 100 }

/-- The routines of Table 2-2, each with a chain of its own. -/
def wCodes : List Nat := List.range' 1 24

def wChain (code : Nat) : Chain := { id := code, worst := 0, legs := [(code, 1, 0), (code, 2, 0), (code, 3, 0)] }

/-- An image with an I/O class (1), an administrative class (2) and the class of pool 0 (3), with runs on every cluster. -/
def wImg : Image :=
  { Image.blank with id := 5, base := 4, flags := 1, classes := [wCls 1 0 15 0, wCls 2 2 8 0, wCls 3 3 0 0], runs := [[4095, 4095, 4095]]
                     chains := wCodes.map wChain, uses := [[1, 2, 3].flatMap fun c => wCodes.map fun x => (c, x)] }

/-- The run of class `cls` for routine `code` on engine 0 of cluster 0. -/
def slotR (cls code : Nat) : SlotRun := { engine := 0, pos := 24 * cls + code, len := 1, cls := cls, chain := code, left := 4 }

/-- The sequencer runs `wImg`; in the current tick engine 0 has a run of each chain for classes 1 and 3. -/
def runS : State :=
  { onS with itn := { onS.itn with running := true, tick := 1, bufA := { ImgBuf.reset with st := .running, img := wImg }
                                   slots := [1, 3].flatMap fun c => wCodes.map (slotR c) }
             now := 10 }

/-- SEAM comes next, so that the changes of the seam run. -/
def atS (s : State) : State := { s with pending := [.seam] }

/-- An item of `ref` for class `cls` on cluster 0 that waits for routine `code`. -/
def itemOf (ref : Ref) (cls code leg : Nat) : Item := { ref := ref, cluster := 0, cls := cls, code := code, leg := leg, wait := .none, ready := 0 }

/-- `s` with one item in the ready queues. -/
def withI (s : State) (it : Item) : State := { s with cmd := { s.cmd with items := [it] } }

theorem runS_inv : runS.Inv := inv_of (by decide +kernel)

/-- A pool of four drives, bays 0 to 3, in the flat layout: strips of four units, 16,384 stripes. -/
def wPool : Pool :=
  { Pool.reset with st := 2, layout := 0, k := 2, n := 4, shift := 14, dump := 0, frames := 16384
                    slots := (List.range 4).map fun b => { st := .present, bay := b, target := none, gen := 0, built := [], bytes := 1000000000000 } }

/-- Volume 0 of pool 0, READY on slab 0. -/
def wVol : Vol := { Vol.reset with st := 2, pool := 0, lbaf := 0, blocks := 1000, nguid := [1], slabs := [0] }

/-- Bays 0 to 4 are ONLINE with drives of 1 TB. -/
def driveS : State :=
  (List.range 5).foldl (fun s b => (s.setBayState b dbOnline).setBay b
    { Bay.reset with ident := { bytes := 1000000000000, fmt := true, mdts := 5, depth := 64, crdt := [] } }) runS

/-- Pool 0 on bays 0 to 3, with volume 0. -/
def poolS : State := { driveS with lay := { driveS.lay with pools := [(0, wPool)], vols := [(0, wVol)] } }

/-- Logical port 0 is up, at address 02:00:00:00:00:01, 10.0.0.1. -/
def netS : State :=
  ((runS.setFld (Reg.MAC_LP_STATUS 0) Fd.MAC_LP_STATUS_LINK_UP 1).setLport 0 { LPort.reset with step := 7, calOk := true }).setAddr 0 0
    (some { family := 4, vlan := 0, prio := 0, dscp := 0, mac := [2, 0, 0, 0, 0, 1], pfx := 24, ip := ip16 [10, 0, 0, 1] })

/-- The 60 bytes of a RoCEv2 frame for that address without its FCS: type of service, BTH opcode, flags and destination QP. -/
def roceB (tos op : Byte) (qp : Byte) (psn : Byte) : List Byte :=
  [2, 0, 0, 0, 0, 1, 2, 0, 0, 0, 0, 2, 8, 0, 0x45, tos, 0, 44, 0, 0, 0, 0, 64, 17, 0, 0, 10, 0, 0, 2, 10, 0, 0, 1]
    ++ [0xC0, 0, 0x12, 0xB7, 0, 24, 0, 0] ++ [op, 0, 0xFF, 0xFF, 0, 0, 0, qp, 0, 0, 0, psn] ++ [0, 0, 0, 0, 0, 0]

/-- A frame of 64 B received on logical port 0. -/
def rxF (dest : Dest) : Frame :=
  { id := 0, m := 0, i := 0, bytes := roceB 0 4 5 0, len := 64, cells := 1, acct := .ing 0 0 false, dest := dest, bad := false, pairCopy := false, stamp := 0, entry := 0
    refused := false, ce := false, ptp := 0 }

/-- Waybill 3 waits for this routine; volume 0 exists. -/
def wbS (x : Waybill) (code leg : Nat) : State :=
  withI ({ runS with lay := { runS.lay with vols := [(0, wVol)] } }.setWb 3 x) (itemOf (.wb 3) 1 code leg)

def wbI (code leg : Nat) : Item := itemOf (.wb 3) 1 code leg

/-- An admitted write of one block, and a read. -/
def writeX : Waybill := { Waybill.reset with st := .admitted, write := true, blocks := 1, slba := 8, qpn := 5 }
def readX : Waybill := { writeX with write := false }

/-- The register at this offset. -/
def rAt (off : Nat) (h : (regAt off).isSome := by decide +kernel) : RegDef := (regAt off).get h

/-- `s` with the setup lock set. -/
def lockedS : State := onS.setFld Reg.GLB_LOCK Fd.GLB_LOCK_LOCKED 1

/-- Command ring 0 and the event ring are RUNNING, and an image runs: the lock may be set. -/
def readyS : State :=
  let s := (onS.setRingState 0 ringRunning).setRingState evtRing ringRunning
  { s with itn := { s.itn with running := true } }

/-- The first field of the register at this offset. -/
def fAt (off : Nat) (h : (regAt off).isSome := by decide +kernel) (g : (rAt off h).fields ≠ [] := by decide +kernel) : FieldDef := (rAt off h).fields.head g

/-- The egress hierarchy of `readyS` is free of faults (the test walks all its nodes). -/
theorem readyS_free : readyS.lockRefusal = none := by decide +kernel

/-- Command ring 0 is RUNNING with 16 entries and one descriptor to fetch. -/
def ringS : State :=
  ((onS.setRingState 0 ringRunning).setFld (ringCtl 0) Fd.RING_CTL_ENABLE 1).setRing 0 { Ring.reset with entries := 16, producer := 1 }

/-- The event ring is RUNNING with 16 entries. -/
def evtS : State := (onS.setRingState evtRing ringRunning).setRing evtRing { Ring.reset with entries := 16 }

/-- `n` descriptors wait at level 0. -/
def fullS (n : Nat) : State := { ringS with hst := { ringS.hst with queue := List.replicate n (cmdD Op.IMG_SWAP 0 []) } }

/-- Ring 1 is set up with 16 entries. -/
def sizedS : State := onS.setFld (ringSize 1) Fd.RING_SIZE_ENTRIES 16

/-- Buffer B holds a successor of the running image. -/
def succS : State := { runS with itn := { runS.itn with bufB := { ImgBuf.reset with st := .ready, img := { wImg with id := 6, base := 5 } } } }

/-- Buffer A holds an image that waits for START, and HBM is ready. -/
def loadedS : State :=
  { (onS.setFld Reg.CRS_STATUS Fd.CRS_STATUS_HBM_READY 1) with itn := { onS.itn with bufA := { ImgBuf.reset with st := .ready, img := wImg } } }

/-- Variant 16 is in force, for the fault of cluster 0, and every cluster serves. -/
def variantS : State := { runS with itn := { runS.itn with variant := 16, faultKind := 1 } }

/-- Host 16,383 is in the table and node 1,023 of the tree is a root. -/
def nodeS : State :=
  (((runS.setHost 16383 { HostEnt.reset with nqn := [0x61] }).setFld (Reg.TMG_NODE_CFG 1023) Fd.TMG_NODE_CFG_VALID 1).setFld
    (Reg.TMG_NODE_CFG 1023) Fd.TMG_NODE_CFG_ROOT 1)

/-- Channel 9 of generation 2 is OPEN in class 1. -/
def chanS : State := nodeS.setChan 9 { Chan.reset with st := .opened, gen := 2, cls := 1, nsid := 1, host := 16383 }

/-- The operands of CHAN_CREATE for an administrative channel. -/
def createD : Desc := cmdD Op.CHAN_CREATE 0 [(8, 2, 16383), (10, 1, 2), (11, 1, 0xFF), (16, 4, 0xFFFFFFFF), (20, 1, 3), (21, 1, 7), (40, 2, 1023), (42, 2, 1)]

/-- An SPDM session 9 on transport 0. -/
def sessS : State := { onS with mgt := { onS.mgt with sessions := [{ id := 9, transport := 0, secret := [], key := [1], lastSeq := 5 }] } }

/-- Check engine 1 runs over 16 MiB and 1 B. -/
def swS : State := { onS with cip := { onS.cip with sw := [(1, some ⟨0, false, 4096, 16777217⟩)] } }

/-- Slot 3 of pool 0 is missing. -/
def gapS : State := poolS.updPool 0 fun P => P.setSlot 3 { P.slot 3 with st := .missing }

/-- Slots 2 and 3 of pool 0 are missing. -/
def gap2S : State := gapS.updPool 0 fun P => P.setSlot 2 { P.slot 2 with st := .missing }

/-- A scrub that waits in pool 0. -/
def scrubA : Activity := { Activity.of 1 0 [] [(0, 16384)] with id := 4 }

/-- A scrub of pool 0 that yields. -/
def yieldA : Activity := { scrubA with st := .preempting, recSt := 2 }

/-- Single controller, no pool imported yet. -/
def freshS : State := { onS with straps := { onS.straps with pairEn := false } }

def noImport : Import := { labels := [], header := none, journals := [], summary := none, vols := [], lost := [], passes := [], resvs := [], lines := [] }

/-- The first stripe of pool 0 has a dirty line of volume 0 that was written through. -/
def dirtyS : State :=
  { (poolS.updPool 0 fun P => { P with dirty := [{ stripe := 0, tick := 5, redo := none, bay := none, after := 0 }] }) with
    lay := { (poolS.updPool 0 fun P => { P with dirty := [{ stripe := 0, tick := 5, redo := none, bay := none, after := 0 }] }).lay with
      lines := [(0, { Line.reset with st := .dirty, valid := 255, wt := true })] } }

/-- Work item 1 on stripe 0 of pool 0, for the item that waits for this routine and leg. -/
def workS (s : State) (w : Work) (code leg : Nat) : State :=
  { s with lay := { s.lay with works := [{ w with id := 1 }] }, cmd := { s.cmd with items := [itemOf (.work 1) 3 code leg] } }

def workI (code leg : Nat) : Item := itemOf (.work 1) 3 code leg

/-- A destage of one whole unit. -/
def destageW : Work := { Work.of .destage 0 0 with id := 1, rows := [0], new := [⟨0, 0, 0, []⟩] }

/-- The same with every unit of the row read. -/
def readW : Work := { destageW with vals := (List.range 4).map fun j => ⟨0, 0, j, []⟩ }

/-- A rebuild of slot 3 onto bay 4. -/
def passA : Activity := { Activity.of 3 0 [3] [(0, 16384)] with id := 2, st := .running, credit := 100000000 }

/-- Slot 3 of pool 0 is rebuilt in place. -/
def passS : State :=
  poolS.updPool 0 fun P => { (P.setSlot 3 { P.slot 3 with target := some 3, st := .missing }) with acts := [passA] }

/-- A running scrub of pool 0. -/
def scrubbingA : Activity := { Activity.of 1 0 [] [(0, 16384)] with id := 4, st := .running, credit := 100000000 }

/-- Port 15 is enabled. -/
def portS : State := onS.setFld (Reg.MAC_CTL 15) Fd.MAC_CTL_ENABLE 1

/-- Logical port 0 waits for this step. -/
def stepS (n : Nat) : State := onS.setLport 0 { LPort.reset with step := n }

/-- The PTP clock follows its source, at the end of a cycle. -/
def ptpS (backup trim : Nat) : State :=
  let s := ((onS.setFld Reg.MAC_PTP_STATUS Fd.MAC_PTP_STATUS_STATE 3).setFld Reg.MAC_PTP_CTL Fd.MAC_PTP_CTL_BACKUP backup).setFld Reg.MAC_PTP_TRIM
    Fd.MAC_PTP_TRIM_TRIM trim
  let s := s.setFld Reg.MAC_PTP_CTL Fd.MAC_PTP_CTL_DISCIPLINE_EN 1
  { s with itn := { s.itn with tick := 255 } }

/-- Logical port 0 exists and waits for its calibration. -/
def upS : State := stepS 2

/-- Pair (0, 0) has neither minimum nor limit. -/
def tightS : State := (netS.setFld (Reg.SWC_PQ_BUF 0 0) Fd.SWC_PQ_BUF_MIN 0).setFld (Reg.SWC_PQ_LIM 0 0) Fd.SWC_PQ_LIM_LIMIT 0

/-- Pair (0, 0) is at its marking threshold. -/
def ecnS : State := (netS.setFld (Reg.SWC_PQ_LIM 0 0) Fd.SWC_PQ_LIM_ECN_IN_THR 1).setOcc 0 0 (1, 0)

/-- A frame in the queue of egress on logical port 0. -/
def egF : EgFrame :=
  { id := 0, m := 0, i := 0, leaf := .fwd, bytes := roceB 0 4 5 0, cells := 1, acct := .none, ready := true, bad := false, held := false, src := none, group := none, wait := none }

/-- An ARP request for 10.0.0.1. -/
def arpB : List Byte :=
  [2, 0, 0, 0, 0, 1, 2, 0, 0, 0, 0, 2, 8, 6, 0, 1, 8, 0, 6, 4, 0, 1, 2, 0, 0, 0, 0, 2, 10, 0, 0, 2, 0, 0, 0, 0, 0, 0, 10, 0, 0, 1] ++ List.replicate 18 0

/-- Management frame `f` waits; the port has answered `n` in this second. -/
def mgtS (f : Frame) (n : Nat) : State :=
  { (netS.updLport 0 fun x => { x with answers := n }) with net := { (netS.updLport 0 fun x => { x with answers := n }).net with toMgt := [f] } }

/-- A RoCEv2 frame for 10.0.0.1 with its ICRC: BTH opcode and flags, key, destination QP, PSN, and what follows the BTH. -/
def pktB (op flags key qp psn : Nat) (pay : List Byte) : List Byte :=
  let b := [2, 0, 0, 0, 0, 1, 2, 0, 0, 0, 0, 2, 8, 0, 0x45, 0, 0, BitVec.ofNat 8 (44 + pay.length), 0, 0, 0, 0, 64, 17, 0, 0, 10, 0, 0, 2, 10, 0, 0, 1]
    ++ [0xC0, 0, 0x12, 0xB7, 0, BitVec.ofNat 8 (24 + pay.length), 0, 0]
    ++ [BitVec.ofNat 8 op, BitVec.ofNat 8 flags] ++ beBytes 2 key ++ [0] ++ beBytes 3 qp ++ [0] ++ beBytes 3 psn ++ pay
  b ++ leBytes 4 (crc32 (icrcInput b)).toNat

def pktF (op flags key qp psn : Nat) (pay : List Byte) : Frame := { rxF .rdma with bytes := pktB op flags key qp psn pay }

/-- A QP in RTS with 10.0.0.2. -/
def qpX : Qp := { Qp.reset with st := .rts, resident := true, rip := ip16 [10, 0, 0, 2], nextPsn := 1, ird := 1, ord := 1, retryLeft := 1, pmtu := 3 }

/-- QP 5 is as given and frame `f` waits for the transport. -/
def rocS (x : Qp) (f : Frame) : State :=
  { netS with rdm := { netS.rdm with qps := [(5, x)] }, net := { netS.net with toRdma := [f] } }

/-- Waybill 3 waits for its payload. -/
def payS (x : Qp) (f : Frame) : State := (rocS x f).setWb 3 { Waybill.reset with st := .payload, write := true }

def readE : ReadEnt := { psn := 0, len := 4, wb := 3, got := 0, va := 0, rkey := 0, gap := none }

/-- The last QP index is as given. -/
def lastS (x : Qp) : State := { netS with rdm := { netS.rdm with qps := [(1048575, x)] }, now := 2000000 }

def msgM : Msg := { op := 1, chan := none, wb := 0, data := List.replicate 16 0, len := 16, va := 0, rkey := 0, off := 0, pinTo := 0, after := 0, armed := 0 }

/-- A CM packet waits for firmware. -/
def cmS (x : Qp) : State := { lastS x with rdm := { (lastS x).rdm with cm := [pktF 0x64 0 0xFFFF 1 0 []] } }

def cmR : CmReq :=
  { serviceId := netS.serviceId, rc := true, recfmt := 0, qid := 0, hsqsize := 31, hrqsize := 32, pmtu := 5, respRes := 1, initDepth := 1, startPsn := 0,
    remoteQpn := 7, retryCnt := 7, rnrCnt := 7 }

/-- What lets the head of a transmit queue go: the held cells fit in their reserve. -/
theorem txWait_of {s : State} {q : Nat} {m : Msg} {ms : List Msg}
    (h : (s.qp q).tx = m :: ms ∧ (((s.qp q).st != .rts && (s.qp q).st != .drain) || (s.qp q).failing || (s.qp q).rnrResume != 0) = false
      ∧ ¬ s.fld1 Reg.RDM_CFG Fd.RDM_CFG_MAX_UNACKED * 65536 ≤ (s.qp q).unacked ∧ m.op ≠ 2 ∧ (s.paced q && decide ((s.qp q).bucket < 0)) = false
      ∧ s.net.holdCells + frameCells (s.nextPacket q m) ≤ s.fld Reg.SWC_HOLD_CFG Fd.SWC_HOLD_CFG_HOLD_RESERVE
      ∧ (s.qp q).resend = []) :
    s.txWait q = if (!(s.qp q).resident || decide (s.now < m.after)) = true then .fetch else .go := by
  obtain ⟨h1, h2, h3, h4, h5, h6, h8⟩ := h
  have h7 : s.holdRoom (frameCells (s.nextPacket q m)) = true := by simp only [State.holdRoom, decide_eq_true_eq]; omega
  simp [State.txWait, h1, h2, h3, h4, h5, h7, h8]

def goS : State := lastS { qpX with tx := [msgM] }
def fetchS : State :=
  let s := lastS { qpX with tx := [msgM], resident := false }
  { s with rdm := { s.rdm with xfers := [(homeStack 1048575, 100000)] } }

theorem goS_go : goS.txWait 1048575 = .go := (txWait_of (m := msgM) (ms := []) (by decide +kernel)).trans (by decide +kernel)
theorem fetchS_fetch : fetchS.txWait 1048575 = .fetch := (txWait_of (m := msgM) (ms := []) (by decide +kernel)).trans (by decide +kernel)

/-- Keep Alive as a command of the admin queue. -/
def aliveB : List Byte := [0x18, 0x40] ++ List.replicate 37 0 ++ [0x40] ++ List.replicate 24 0

def wCap : Capsule :=
  { id := 1, qpn := 5, chan := none, cid := 0, sqe := aliveB, icd := [], tick := 0, reject := false, abort := false, counted := true, answer := none, cells := [],
    cluster := 0, cls := 1, dscp := 0, deferred := false, wasDeferred := false, parked := false, stamp := 0, pre := 0 }

/-- Capsule 1 of QP 5 waits for this routine; channel 9 is in this state. -/
def capS (c : Capsule) (x : QpSt) (ch : ChanSt) (code : Nat) : State :=
  let s := runS.setChan 9 { Chan.reset with st := ch, cls := 1 }
  { s with cmd := { s.cmd with caps := [c], items := [itemOf (.cap 1) 1 code 1] }
           rdm := { s.rdm with qps := [(5, { Qp.reset with st := x, bound := true, depth := 32 })] } }

def capI (code : Nat) : Item := itemOf (.cap 1) 1 code 1

/-- A Keep Alive, and an Abort of command 7 of queue 0. -/
def adminX : Waybill := { Waybill.reset with st := .admitted, opcode := 0x18, sqe := aliveB }
def abortX : Waybill := { Waybill.reset with st := .locked, opcode := 8, qpn := 5, sqe := [8, 0x40] ++ List.replicate 40 0 ++ [7, 0] ++ List.replicate 20 0 }

/-- Every lock entry is taken. -/
def lockedOut (s : State) : State := { s with cmd := { s.cmd with locks := (List.range' 0 65536).map fun i => (i, Lock.reset) } }

theorem lowestFrom_range' (n k : Nat) : lowestFrom k (List.range' k n) = k + n := by
  induction n generalizing k with
  | zero => rfl
  | succ n ih => rw [List.range'_succ]; simp [lowestFrom, ih]; omega

theorem lowest_lockedOut (s : State) : Tab.lowest ((lockedOut s).cmd.locks) = 65536 := by
  have h : (lockedOut s).cmd.locks = (List.range' 0 65536).map fun i => (i, Lock.reset) := rfl
  rw [h, Tab.lowest, List.map_map]
  exact (congrArg (lowestFrom 0) (List.map_id (List.range' 0 65536))).trans ((lowestFrom_range' 65536 0).trans (Nat.zero_add _))

/-- Waybill 2 holds the range of the write of one block. -/
def heldS : State :=
  let s := wbS writeX Rt.lockCheck 1
  { s with cmd := { s.cmd with locks := [(0, { Lock.reset with state := 2, write := true, waybill := 2, first := 8, last := 8 })] } }

/-- QP 5 is bound and has the command that the Abort names, on waybill 2. -/
def abortS : State :=
  let s := wbS abortX Rt.abortScan 1
  { (s.setWb 2 { Waybill.reset with st := .locked, qpn := 5, cid := 7 }) with rdm := { s.rdm with qps := [(5, { Qp.reset with st := .rts, bound := true })] } }

/-- The volume has a key slot that is not loaded. -/
def keylessS (s : State) : State := { s with lay := { s.lay with vols := [(0, { wVol with key := some 5 })] } }

def cipR (ref : Ref) : CipReq := { cluster := 11, ref := ref, inv := 0, passes := 1, latency := false, keyed := false, posted := 0, pair := none }

/-- The array of cluster 11 has this request. -/
def cipS (s : State) (ref : Ref) : State := { s with cip := { s.cip with reqs := [cipR ref] } }

/-- QP 5 is in RTS. -/
def withQp (s : State) : State := { s with rdm := { s.rdm with qps := [(5, { Qp.reset with st := .rts, resident := true })] } }

/-- Controller 49,151 is live. -/
def ctrlS (c : Ctrl) : State := { (runS.setCtrl 49151 { c with live := true }) with now := 2000000 }

/-- Waybill 3 of QP 5, of queue `qid`, waits for ADMIN_STEP; its controller 0 holds `n` event requests. -/
def admS (x : Waybill) (qid n : Nat) : State :=
  let s := wbS x Rt.adminStep 1
  (({ s with rdm := { s.rdm with qps := [(5, { Qp.reset with st := .rts, resident := true, bound := true, qid := qid })] } }).setCtrl 0
    { Ctrl.reset with live := true, aers := (List.range n).map fun i => ⟨5, i⟩ })

/-- A Property Set of CC. -/
def ccX : Waybill :=
  { Waybill.reset with st := .locked, qpn := 5, opcode := 0x7F, sqe := [0x7F, 0x40] ++ List.replicate 42 0 ++ [0x14] ++ List.replicate 19 0 }

def testW (redo : Bool) : Work := { Work.of (.test 0 4) 0 0 with id := 1, redo := redo }

/-- Work item 1 of pool 0 waits for SELFTEST_STEP. -/
def testS (redo : Bool) : State :=
  { poolS with lay := { poolS.lay with works := [testW redo] }, cmd := { poolS.cmd with items := [itemOf (.work 1) 3 Rt.selftestStep 1] } }

/-- Bay 127 is in this state and at this step, long after power on. -/
def bayS (st : Nat) (x : Bay) : State := { (onS.setBayState 127 st).setBay 127 x with now := 100000000 }

def bayX (step : Nat) : Bay := { Bay.reset with pg := true, step := step }

/-- A drive that meets 12 R370. -/
def reportR : DriveReport :=
  { nvme14 := true, ns1 := true, shared := true, format := true, pairs := 2, mdts := 65536, mqes := 63, vwc := false, vwcOff := false, capacity := 1000000000000
    crdt := [], resv := true }

/-- A command of bay 127 in slot 65,535. -/
def drvC : DrvCmd :=
  { bay := 127, queue := 1, cluster := 0, write := false, maint := false, lba := 0, units := 1, ref := .wb 3, keys := [], buf := [], tick := 0, st := 0, status := 0
    dnr := false, crd := 0, abort := none, latched := 0, slot := 0 }

def cmdS (c : DrvCmd) : State :=
  { bayS dbOnline (bayX 10) with drv := { (bayS dbOnline (bayX 10)).drv with cmds := [(65535, some c)] } }

def healthS (v : Nat) : State := (bayS dbOnline (bayX 10)).setFld Reg.DRV_CFG Fd.DRV_CFG_HEALTH_FAIL v

/-- Bay 127 has this power state and record. -/
def pwS (st : Nat) (x : BayPw) : State := (onS.setPwSt 127 st).setPw 127 x

/-- Bay 127 has a fuse curve. -/
def curveS : State :=
  (onS.setFld (Reg.BAY_CURVE 127 0) Fd.BAY_CURVE_LIMIT 10000).setFld (Reg.BAY_CURVE 127 0) Fd.BAY_CURVE_TIME 1

def mode1S : State := curveS.setFld Reg.DRV_CFG Fd.DRV_CFG_MODE 1

/-- Fan 11 is present; it has asked to change its state for 29 steps. -/
def fanS (failed : Bool) (rpm : Nat) : State :=
  let s := (onS.setFld (Reg.ENV_FAN_CFG 11) Fd.ENV_FAN_CFG_PRESENT 1).setFld (Reg.ENV_FAN_STATUS 11) Fd.ENV_FAN_STATUS_FAILED (b2n failed)
  ((s.setFld (Reg.ENV_FAN_STATUS 11) Fd.ENV_FAN_STATUS_RPM rpm).setFld Reg.ENV_STATUS Fd.ENV_STATUS_DUTY 307).setFanRun 11 29

/-- The environment is as given, long after power on. -/
def envS (e : Env) : State := { onS with env := e, now := 200000000 }

def dumpJ (ready : Option Nat) (sent finished units cluster : Nat) : DumpJob :=
  { id := 1, kind := 0, idx := 0, bay := 0, lba := 0, units := units, sent := sent, finished := finished, ready := ready, cluster := cluster, bad := false }

def dumpX (phase : Nat) (jobs : List DumpJob) : Dump := { entered := 0, members := [0], copies := [0], phase := phase, jobs := jobs, lines := 0, low := false }

/-- The dump plan is in force with this dump. -/
def dumpS (x : Dump) : State :=
  { runS with itn := { runS.itn with dumpPlan := true, dumpDue := 1 }, env := { runS.env with dump := some x } }

/-- A read of the dump's write in slot 9 has completed. -/
def reapS : State :=
  let s := dumpS (dumpX 0 [dumpJ (some 2) 1 0 1 11])
  { s with drv := { s.drv with cmds := [(9, some { bay := 0, queue := 1, cluster := 11, write := true, maint := false, lba := 0, units := 1, ref := .work 1, keys := []
                                                   buf := [], tick := 0, st := 1, status := 0, dnr := false, crd := 0, abort := none, latched := 9, slot := 0 })] } }

/-- Work item 1 waits for this routine. -/
def workFor (code : Nat) : State :=
  { runS with lay := { runS.lay with works := [{ Work.of .destage 0 0 with id := 1 }] }, cmd := { runS.cmd with items := [itemOf (.work 1) 3 code 1] } }

/-- A pair member in this state, with what is given. -/
def pairS (st : Nat) (p : Pair → Pair) : State :=
  { (onS.setFld Reg.PAIR_LINK Fd.PAIR_LINK_UP 1) with straps := { onS.straps with pairEn := true }, pair := p { onS.pair with st := st }, now := 20000000 }

/-- The link is keyed. -/
def keyedS (st : Nat) (p : Pair → Pair) : State := (pairS st p).setFld Reg.PAIR_LINK Fd.PAIR_LINK_KEYED 1

/-- The join is in this phase. -/
def joinS (phase : Nat) (p : Pair → Pair) : State := (pairS pairJoinActive p).setFld Reg.PAIR_JOIN_STATUS Fd.PAIR_JOIN_STATUS_PHASE phase

def joinJ (peer crc : Option Nat) (ticks : Nat) : Join := { Join.start none with peerCrc := peer, crc := crc, holdTicks := ticks }

/-- Bay 127 is ONLINE and its preempt is under way. -/
def preS (st : Nat) : State := (pairS pairTakingOver fun p => { p with preempts := [127] }).setBayState 127 st

/-- Rehearse the power supply with COUNT 16. -/
def rehD : Desc := cmdD Op.PAIR_REHEARSE 0 [(8, 1, 5), (13, 1, 16), (14, 1, 4), (16, 6, 2), (24, 4, 167772162)]

def rehR : Rehearse := { kind := 5, index := 0, entry := 0, count := 16, family := 4, srcMac := [2, 0, 0, 0, 0, 0], srcIp := [] }

/-- The link-frame header of an INGRESS frame of epoch 9. -/
def badB : List Byte := [1, 1, 0, 0, 0, 0, 9, 0] ++ List.replicate 56 0

/-- The cores wait in recovery for a package of 16 MiB. -/
def recovS : State :=
  ((State.reset.setFld Reg.MGT_STATUS Fd.MGT_STATUS_RECOVERY 1).setFld Reg.MGT_RECOV_SIZE Fd.MGT_RECOV_SIZE_SIZE 16777216)

/-- Watchdog resets at ticks 7, 8 and 9, and now 10. -/
def wdogS (ts : List Nat) : State := { runS with mgt := { runS.mgt with wdog := ts } }

/-- An attestation key with identifier 1 is to be enrolled. -/
def itkS : State := onS.wrReg (Reg.MGT_ITK_DATA 0) 1

/-- The link to the host works. -/
def linkS : State := { onS with crs := { onS.crs with linkUp := true } }

def spdmX : SpdmSess := { id := 9, transport := 0, secret := [], key := [1], lastSeq := 0 }

/-- Eight sessions. -/
def sess8S : State := { onS with mgt := { onS.mgt with sessions := List.replicate 8 spdmX } }

def stageD : Desc := cmdD Op.FW_STAGE 0 [(16, 8, 4096), (24, 4, 16777216)]

/-- Cluster 11 is in this state for this fence cause, and 200 ms have passed. -/
def cluS (st cause : Nat) : State := { onS.cluEnter 11 st cause with now := 195313 }

/-- A dump has ended and power has been back for long. -/
def backS : State := { onS with itn := { onS.itn with stopped := true, dumpDue := 1 }, env := { onS.env with highTick := some 0 }, now := 2000000000 }

/-- A cycle ends; a snapshot is due every fourth. -/
def latchS (cycles : Nat) (snaps : List Snap) : State :=
  let s := { runS with itn := { runS.itn with tick := 255 }, tel := { runS.tel with cycles := cycles, snaps := snaps } }
  s.setFld Reg.TEL_DUMP_CTL Fd.TEL_DUMP_CTL_INTERVAL 4

def snapX : Snap := { seq := 0, tick := 0, ptpSec := 0, ptpNs := 0, groups := 0, chans := false, values := [], role := 0 }

def histH (code : Nat) : HistEnt := { ev := { code := code, seq := 0, tick := 0, v0 := 0, v1 := 0, v2 := 0 }, ptpSec := 0, ptpNs := 0 }

/-- One event waits for the error log, with this credit. -/
def logS (code credit : Nat) : State := { onS with tel := { onS.tel with errQ := [histH code], credit := credit, suppressed := 0 } }

/-- The threshold of logical port 127 is 5; it is or is not degraded. -/
def fecS (thr deg : Nat) : State :=
  (onS.setFld (Reg.MAC_LP_FEC_THR 127) Fd.MAC_LP_FEC_THR_THR thr).setFld (Reg.MAC_LP_STATUS 127) Fd.MAC_LP_STATUS_FEC_DEGRADED deg

/-- The hold of a join, and a standby that has applied the record of the tick. -/
def holdS : State := joinS 3 fun p => p
def standbyS : State := pairS pairLocked fun p => { p with recordDone := true }

theorem none_all {α : Type} {o : Option α} {P : α → Prop} (h : o = none) : ∀ x, o = some x → P x := by rintro x rfl; cases h
theorem some_all {α : Type} {o : Option α} {P : α → Prop} {y : α} (h : o = some y) (p : P y) : ∀ x, o = some x → P x := by
  rintro x e; rw [h] at e; cases e; exact p
theorem nil_all {α : Type} {l : List α} {P : α → Prop} (h : l = []) : ∀ x ∈ l, P x := by rintro x m; rw [h] at m; cases m

/-- All units of a stripe as read, the unit of row 0 at position 0 holding `b`. -/
def rowsOf (b : List Byte) : List UnitVal :=
  (List.range 4).flatMap fun r => (List.range 4).map fun j => ⟨0, r, j, if r = 0 ∧ j = 0 then b else [0]⟩

/-- Slot 3 of pool 0 is rebuilt in place by `a`. -/
def passT (a : Activity) : State :=
  poolS.updPool 0 fun P => { (P.setSlot 3 { P.slot 3 with target := some 3, st := .missing }) with acts := [a] }

/-- Pool work of this kind, with what has been read. -/
def workW (k : WorkKind) (vals : List UnitVal) : Work := { Work.of k 0 0 with id := 1, vals := vals }

/-- Pool 0 with a change. -/
def poolT (f : Pool → Pool) : State := poolS.updPool 0 f

/-! ## Witnesses -/

theorem witness_EmptyQueueIdles :
    (∃ (s : State), s.pending = []) :=
  ⟨onS, by decide +kernel⟩

theorem witness_StepKeepsTheInvariant :
    (∃ (s : State) (t : State), s.Inv ∧ step s = .next t) :=
  ⟨onS, onS, inv_of (by decide +kernel), rfl⟩

theorem witness_SecurityFloorNeverFalls :
    (∃ (c : Instr) (s : State) (t : State), exec c s = .next t) :=
  ⟨.registerWrite 0 2 0 false, onS, onS, rfl⟩

theorem witness_StrapsChangeOnlyAtPowerOn :
    (∃ (c : Instr) (s : State) (t : State), (∀ a b d, c ≠ .powerOnReset a b d) ∧ exec c s = .next t) :=
  ⟨.registerWrite 0 2 0 false, onS, onS, fun _ _ _ => Instr.noConfusion, rfl⟩

theorem witness_OnlySeamsCountTicks :
    (∃ (c : Instr) (s : State) (t : State), (∀ a b d, c ≠ .powerOnReset a b d) ∧ c ≠ .seam ∧ c ≠ .alwaysOnSupplyLoss ∧ exec c s = .next t) ∧
    (∃ (s : State), s.pairState ≠ pairJoinStandby) :=
  ⟨⟨.registerWrite 0 2 0 false, onS, onS, fun _ _ _ => Instr.noConfusion, Instr.noConfusion, Instr.noConfusion, rfl⟩,
   ⟨onS, by decide +kernel⟩⟩

theorem witness_PairStateChangesOnlyAtSeamOrReset :
    (∃ (c : Instr) (s : State) (t : State), c ≠ .seam ∧ exec c s = .next t) :=
  ⟨.registerWrite 0 2 0 false, onS, onS, Instr.noConfusion, rfl⟩

theorem witness_RegisterWriteSetsItsFields :
    (∃ (s : State) (off : Nat) (w : BitVec 64) (r : RegDef) (f : FieldDef), s.Inv ∧ (s.mgtReady || earlyBlock off) = true ∧ s.locked = false ∧ ownRegister off = false ∧ chkSw1 off = false ∧ regAt off = some r ∧ f ∈ r.fields ∧ f.writable = true ∧ f.rule = .any ∧ s.pfcRefused off (w.setWidth 32) r = false) :=
  ⟨onS, Reg.GLB_SCRATCH 3, 5, rAt (Reg.GLB_SCRATCH 3), fAt (Reg.GLB_SCRATCH 3), inv_of (by decide +kernel), by decide +kernel⟩

theorem witness_RegisterWriteThatReachesNothing :
    (∃ (s : State) (off : Nat) (size : Nat) (w : BitVec 64) (a : Bool), size ≠ 4 ∧ size ≠ 8) ∧
    (∃ (s : State) (off : Nat) (size : Nat) (w : BitVec 64), (size = 4 ∨ size = 8)) ∧
    (∃ (s : State) (off : Nat) (w : BitVec 64), ownRegister off = false ∧ s.mgtReady = false ∧ earlyBlock off = false ∧ ownRegister (off + 4) = false ∧ earlyBlock (off + 4) = false) ∧
    (∃ (s : State) (off : Nat) (w : BitVec 64), ownRegister off = true) :=
  ⟨⟨onS, 0, 2, 0, false, by decide +kernel⟩,
   ⟨onS, 0, 8, 0, by decide +kernel⟩,
   ⟨State.reset, Reg.TMG_CFG, 1, by decide +kernel⟩,
   ⟨onS, Reg.GLB_LOCK, 1, by decide +kernel⟩⟩

theorem witness_LockedFieldsKeepTheirValue :
    (∃ (s : State) (off : Nat) (size : Nat) (w : BitVec 64) (a : Bool) (r : RegDef) (f : FieldDef), s.Inv ∧ s.locked = true ∧ regAt off = some r ∧ f ∈ r.fields ∧ f.acc = .rwl ∧ s.lockOpen off f = false) :=
  ⟨lockedS, Reg.BAY_GLB_CFG, 8, 0, false, rAt Reg.BAY_GLB_CFG, fAt Reg.BAY_GLB_CFG, inv_of (by decide +kernel), by decide +kernel⟩

theorem witness_RegisterReadsAnswer :
    (∃ (s : State) (off : Nat) (r : RegDef) (f : FieldDef), s.Inv ∧ s.mgtReady = true ∧ Tab.rd (fun _ => none) s.hst.latched off = none ∧ regAt off = some r ∧ f ∈ r.fields ∧ f.acc = .rc) ∧
    (∃ (s : State) (off : Nat), (off = Reg.ITN_TICK_LO ∨ off = Reg.PAIR_TICK_LO) ∧ Tab.rising s.hst.latched = true) ∧
    (∃ (s : State) (off : Nat) (w : Word), counterLow.contains off = false ∧ Tab.rd (fun _ => none) s.hst.latched off = some w) ∧
    (∃ (s : State), Tab.rising s.hst.latched = true ∧ s.mgtReady = true) ∧
    (∃ (s : State) (off : Nat) (size : Nat), size ≠ 4 ∧ size ≠ 8 ∧ counterLow.contains (off - off % 4) = false ∧ Tab.rd (fun _ => none) s.hst.latched (off - off % 4) = none) ∧
    (∃ (s : State) (off : Nat), s.Inv) :=
  ⟨⟨onS, Reg.GLB_VIOL_CNT, rAt Reg.GLB_VIOL_CNT, fAt Reg.GLB_VIOL_CNT, inv_of (by decide +kernel), by decide +kernel⟩,
   ⟨onS, Reg.ITN_TICK_LO, by decide +kernel⟩,
   ⟨{ onS with hst := { onS.hst with latched := [(Reg.ITN_TICK_HI, some 5)] } }, Reg.ITN_TICK_HI, 5, by decide +kernel⟩,
   ⟨onS, by decide +kernel⟩,
   ⟨onS, Reg.GLB_VIOL_CNT + 3, 1, by decide +kernel⟩,
   ⟨onS, 0, inv_of (by decide +kernel)⟩⟩

theorem witness_LockSetChecksAndLocks :
    (∃ (s : State) (w : Word), s.Inv ∧ s.locked = false ∧ Fd.GLB_LOCK_SET.get w = 1 ∧ s.lockRefusal = none) ∧
    (∃ (s : State) (w : Word) (c : Nat), s.Inv ∧ s.locked = false ∧ Fd.GLB_LOCK_SET.get w = 1 ∧ s.lockRefusal = some c) ∧
    (∃ (s : State) (w : Word), (Fd.GLB_LOCK_SET.get w = 0 ∨ s.locked = true)) :=
  ⟨⟨readyS, 1, inv_of (by decide +kernel), by decide +kernel, by decide +kernel, readyS_free⟩,
   ⟨onS, 1, 1, inv_of (by decide +kernel), by decide +kernel⟩,
   ⟨lockedS, 1, by decide +kernel⟩⟩

theorem witness_SelectorWritesAskForASnapshot :
    (∃ (s : State) (w : Word), s.Inv ∧ s.mgtReady = true) :=
  ⟨onS, 0, inv_of (by decide +kernel), by decide +kernel⟩

theorem witness_RingsAreEnabledAndDisabled :
    (∃ (s : State) (w : Word) (k : Nat) (u : State), u = s.regWrite (ringCtl k) w ∧ s.Inv ∧ k < 64 ∧ s.mgtReady = true ∧ s.locked = false ∧ k ≤ evtRing ∧ Fd.RING_CTL_ENABLE.get w = 1 ∧ s.ringState k = ringDisabled ∧ entriesOk (s.fld (ringSize k) Fd.RING_SIZE_ENTRIES) = true) ∧
    (∃ (s : State) (w : Word) (k : Nat) (u : State), u = s.regWrite (ringCtl k) w ∧ k = evtRing ∧ s.Inv ∧ s.mgtReady = true ∧ s.locked = false ∧ k ≤ evtRing ∧ Fd.RING_CTL_ENABLE.get w = 1 ∧ s.ringState k = ringDisabled ∧ entriesOk (s.fld (ringSize k) Fd.RING_SIZE_ENTRIES) = true) ∧
    (∃ (s : State) (w : Word) (k : Nat) (u : State), u = s.regWrite (ringCtl k) w ∧ s.Inv ∧ k < 64 ∧ s.mgtReady = true ∧ s.locked = false ∧ k ≤ evtRing ∧ Fd.RING_CTL_ENABLE.get w = 1 ∧ s.ringState k = ringDisabled ∧ entriesOk (s.fld (ringSize k) Fd.RING_SIZE_ENTRIES) = false) ∧
    (∃ (s : State) (w : Word) (k : Nat) (u : State), u = s.regWrite (ringCtl k) w ∧ k = evtRing ∧ s.Inv ∧ s.mgtReady = true ∧ s.locked = false ∧ k ≤ evtRing ∧ Fd.RING_CTL_ENABLE.get w = 1 ∧ s.ringState k = ringDisabled ∧ entriesOk (s.fld (ringSize k) Fd.RING_SIZE_ENTRIES) = false) ∧
    (∃ (s : State) (k : Fin 64) (w : Word), s.Inv ∧ s.mgtReady = true ∧ s.locked = false ∧ Fd.RING_CTL_ENABLE.get w = 0 ∧ s.ringState k ≠ ringDisabled) ∧
    (∃ (s : State) (w : Word), s.Inv ∧ s.mgtReady = true ∧ s.locked = false ∧ Fd.RING_CTL_ENABLE.get w = 0 ∧ s.ringState evtRing ≠ ringDisabled ∧ s.ringBusy evtRing = false ∧ Tab.rising s.hst.rings = true) ∧
    (∃ (s : State) (k : Fin 64), s.ringBusy k = false ∧ ((s.ring k).draining = true ∨ (s.ring k).deleting ≠ none)) :=
  ⟨⟨sizedS, 1, 1, _, rfl, inv_of (by decide +kernel), by decide +kernel⟩,
   ⟨onS.setFld (ringSize evtRing) Fd.RING_SIZE_ENTRIES 65536, 1, _, _, rfl, rfl, inv_of (by decide +kernel), by decide +kernel⟩,
   ⟨onS.setFld (ringSize 63) Fd.RING_SIZE_ENTRIES 1, 1, 63, _, rfl, inv_of (by decide +kernel), by decide +kernel⟩,
   ⟨onS.setFld (ringSize evtRing) Fd.RING_SIZE_ENTRIES 1, 1, _, _, rfl, rfl, inv_of (by decide +kernel), by decide +kernel⟩,
   ⟨ringS, 0, 0, inv_of (by decide +kernel), by decide +kernel⟩,
   ⟨evtS, 0, inv_of (by decide +kernel), by decide +kernel⟩,
   ⟨onS.setRing 63 { Ring.reset with draining := true }, 63, by decide +kernel⟩⟩

theorem witness_DoorbellsMoveTheIndices :
    (∃ (s : State) (k : Fin 64) (v : Word), s.mgtReady = true ∧ s.ringState k = ringRunning ∧ s.fld (ringCtl k) Fd.RING_CTL_ENABLE = 1 ∧ v.toNat ≠ (s.ring k).producer ∧ v.toNat < (s.ring k).entries) ∧
    (∃ (s : State) (k : Fin 64) (v : Word), s.mgtReady = true ∧ s.ringState k = ringRunning ∧ s.fld (ringCtl k) Fd.RING_CTL_ENABLE = 1 ∧ v.toNat ≠ (s.ring k).producer ∧ (s.ring k).entries ≤ v.toNat) ∧
    (∃ (s : State) (k : Fin 64) (v : Word) (e : _), e = (s.ring k).entries ∧ s.mgtReady = true ∧ s.ringState k = ringRunning ∧ v.toNat < e ∧ (v.toNat + e - (s.ring k).cons) % e ≤ (s.ringTail k + e - (s.ring k).cons) % e) ∧
    (∃ (s : State) (k : Fin 64) (v : Word) (e : _), e = (s.ring k).entries ∧ s.mgtReady = true ∧ s.ringState k = ringRunning ∧ (e ≤ v.toNat ∨ (s.ringTail k + e - (s.ring k).cons) % e < (v.toNat + e - (s.ring k).cons) % e)) ∧
    (∃ (s : State) (k : Fin 64) (v : Word), s.mgtReady = true ∧ s.ringState evtRing = ringRunning ∧ v.toNat < (s.ring evtRing).entries ∧ (v.toNat + (s.ring evtRing).entries - (s.ring evtRing).cons) % (s.ring evtRing).entries ≤ (s.ringTail evtRing + (s.ring evtRing).entries - (s.ring evtRing).cons) % (s.ring evtRing).entries) :=
  ⟨⟨ringS, 0, 15, by decide +kernel⟩,
   ⟨ringS, 0, 16, by decide +kernel⟩,
   ⟨(ringS.setFld (ringCoal 0) Fd.RING_COAL_COUNT 4).setRing 0 { Ring.reset with entries := 16, sent := true }, 0, 0, _, rfl, by decide +kernel⟩,
   ⟨ringS, 0, 16, _, rfl, by decide +kernel⟩,
   ⟨evtS, 0, 0, by decide +kernel⟩⟩

theorem witness_DescriptorsAreFetched :
    (∃ (s : State) (k : Fin 64) (bytes : List Byte) (d : Desc) (u : State), d = Desc.ofBytes k s.hst.fetchSeq s.now bytes ∧ ((let h := s.fld (Reg.RING_IDX k) Fd.RING_IDX_CMD_HEAD
       let n := if s.hst.turn = k ∧ s.hst.turnCount < turnLimit then s.hst.turnCount + 1 else 1
       let a := (({ s with hst := { s.hst with turn := k, turnCount := n } } : State).emit (.hostRead (s.cmdSlot k h) 64)).setFld (Reg.RING_IDX k)
         Fd.RING_IDX_CMD_HEAD (if (s.ring k).entries ≤ h + 1 then 0 else h + 1)
       let b := a.setRing k { s.ring k with outst := (s.ring k).outst + 1 }
       u = { b with hst := { b.hst with fetchSeq := s.hst.fetchSeq + 1 } })) ∧ s.fetchRing = some k.val ∧ opcodes.contains d.opcode = false) ∧
    (∃ (s : State) (k : Fin 64) (bytes : List Byte) (d : Desc) (u : State), d = Desc.ofBytes k s.hst.fetchSeq s.now bytes ∧ ((let h := s.fld (Reg.RING_IDX k) Fd.RING_IDX_CMD_HEAD
       let n := if s.hst.turn = k ∧ s.hst.turnCount < turnLimit then s.hst.turnCount + 1 else 1
       let a := (({ s with hst := { s.hst with turn := k, turnCount := n } } : State).emit (.hostRead (s.cmdSlot k h) 64)).setFld (Reg.RING_IDX k)
         Fd.RING_IDX_CMD_HEAD (if (s.ring k).entries ≤ h + 1 then 0 else h + 1)
       let b := a.setRing k { s.ring k with outst := (s.ring k).outst + 1 }
       u = { b with hst := { b.hst with fetchSeq := s.hst.fetchSeq + 1 } })) ∧ s.fetchRing = some k.val ∧ opcodes.contains d.opcode = true ∧ 8 ≤ d.flags) ∧
    (∃ (s : State) (k : Fin 64) (bytes : List Byte) (d : Desc) (u : State), d = Desc.ofBytes k s.hst.fetchSeq s.now bytes ∧ ((let h := s.fld (Reg.RING_IDX k) Fd.RING_IDX_CMD_HEAD
       let n := if s.hst.turn = k ∧ s.hst.turnCount < turnLimit then s.hst.turnCount + 1 else 1
       let a := (({ s with hst := { s.hst with turn := k, turnCount := n } } : State).emit (.hostRead (s.cmdSlot k h) 64)).setFld (Reg.RING_IDX k)
         Fd.RING_IDX_CMD_HEAD (if (s.ring k).entries ≤ h + 1 then 0 else h + 1)
       let b := a.setRing k { s.ring k with outst := (s.ring k).outst + 1 }
       u = { b with hst := { b.hst with fetchSeq := s.hst.fetchSeq + 1 } })) ∧ s.fetchRing = some k.val ∧ opcodes.contains d.opcode = true ∧ d.flags < 8 ∧ d.opcode ≠ Op.NOP ∧ u.fenceHeld d = true) ∧
    (∃ (s : State) (k : Fin 64) (bytes : List Byte) (d : Desc) (u : State), d = Desc.ofBytes k s.hst.fetchSeq s.now bytes ∧ ((let h := s.fld (Reg.RING_IDX k) Fd.RING_IDX_CMD_HEAD
       let n := if s.hst.turn = k ∧ s.hst.turnCount < turnLimit then s.hst.turnCount + 1 else 1
       let a := (({ s with hst := { s.hst with turn := k, turnCount := n } } : State).emit (.hostRead (s.cmdSlot k h) 64)).setFld (Reg.RING_IDX k)
         Fd.RING_IDX_CMD_HEAD (if (s.ring k).entries ≤ h + 1 then 0 else h + 1)
       let b := a.setRing k { s.ring k with outst := (s.ring k).outst + 1 }
       u = { b with hst := { b.hst with fetchSeq := s.hst.fetchSeq + 1 } })) ∧ s.fetchRing = some k.val ∧ opcodes.contains d.opcode = true ∧ d.flags < 8 ∧ d.opcode ≠ Op.NOP ∧ u.fenceHeld d = false ∧ u.levelCount d.prio < 1024) ∧
    (∃ (s : State) (k : Fin 64) (bytes : List Byte) (d : Desc) (u : State), d = Desc.ofBytes k s.hst.fetchSeq s.now bytes ∧ ((let h := s.fld (Reg.RING_IDX k) Fd.RING_IDX_CMD_HEAD
       let n := if s.hst.turn = k ∧ s.hst.turnCount < turnLimit then s.hst.turnCount + 1 else 1
       let a := (({ s with hst := { s.hst with turn := k, turnCount := n } } : State).emit (.hostRead (s.cmdSlot k h) 64)).setFld (Reg.RING_IDX k)
         Fd.RING_IDX_CMD_HEAD (if (s.ring k).entries ≤ h + 1 then 0 else h + 1)
       let b := a.setRing k { s.ring k with outst := (s.ring k).outst + 1 }
       u = { b with hst := { b.hst with fetchSeq := s.hst.fetchSeq + 1 } })) ∧ s.fetchRing = some k.val ∧ opcodes.contains d.opcode = true ∧ d.flags < 8 ∧ d.opcode ≠ Op.NOP ∧ u.fenceHeld d = false ∧ 1024 ≤ u.levelCount d.prio) ∧
    (∃ (s : State) (k : Fin 64) (bytes : List Byte) (d : Desc) (u : State), d = Desc.ofBytes k s.hst.fetchSeq s.now bytes ∧ ((let h := s.fld (Reg.RING_IDX k) Fd.RING_IDX_CMD_HEAD
       let n := if s.hst.turn = k ∧ s.hst.turnCount < turnLimit then s.hst.turnCount + 1 else 1
       let a := (({ s with hst := { s.hst with turn := k, turnCount := n } } : State).emit (.hostRead (s.cmdSlot k h) 64)).setFld (Reg.RING_IDX k)
         Fd.RING_IDX_CMD_HEAD (if (s.ring k).entries ≤ h + 1 then 0 else h + 1)
       let b := a.setRing k { s.ring k with outst := (s.ring k).outst + 1 }
       u = { b with hst := { b.hst with fetchSeq := s.hst.fetchSeq + 1 } })) ∧ s.fetchRing = some k.val ∧ d.opcode = Op.NOP ∧ d.flags < 8 ∧ d.handle = 0 ∧ d.reservedZero [] = true) ∧
    (∃ (s : State) (k : Fin 64) (bytes : List Byte) (d : Desc) (u : State), d = Desc.ofBytes k s.hst.fetchSeq s.now bytes ∧ ((let h := s.fld (Reg.RING_IDX k) Fd.RING_IDX_CMD_HEAD
       let n := if s.hst.turn = k ∧ s.hst.turnCount < turnLimit then s.hst.turnCount + 1 else 1
       let a := (({ s with hst := { s.hst with turn := k, turnCount := n } } : State).emit (.hostRead (s.cmdSlot k h) 64)).setFld (Reg.RING_IDX k)
         Fd.RING_IDX_CMD_HEAD (if (s.ring k).entries ≤ h + 1 then 0 else h + 1)
       let b := a.setRing k { s.ring k with outst := (s.ring k).outst + 1 }
       u = { b with hst := { b.hst with fetchSeq := s.hst.fetchSeq + 1 } })) ∧ s.fetchRing = some k.val ∧ d.opcode = Op.NOP ∧ d.flags < 8 ∧ (d.handle ≠ 0 ∨ d.reservedZero [] = false)) ∧
    (∃ (s : State) (k : Fin 64) (bytes : List Byte), s.fetchRing ≠ some k.val) ∧
    (∃ (s : State) (d : Desc), (s.hst.queue.find? fun d => d.overdue s.now || s.overfull d) = some d) :=
  ⟨⟨ringS, 0, (cmdD 255 0 []).toBytes, _, _, rfl, rfl, by decide +kernel⟩,
   ⟨ringS, 0, ({ cmdD Op.IMG_SWAP 0 [] with flags := 8 } : Desc).toBytes, _, _, rfl, rfl, by decide +kernel⟩,
   ⟨{ fullS 1 with hst := { (fullS 1).hst with fetchSeq := 1 } }, 0, ({ cmdD Op.IMG_SWAP 0 [] with flags := 1 } : Desc).toBytes, _, _, rfl, rfl, by decide +kernel⟩,
   ⟨fullS 1023, 0, ({ cmdD Op.IMG_SWAP 0 [] with flags := 3 } : Desc).toBytes, _, _, rfl, rfl, by decide +kernel⟩,
   ⟨fullS 1024, 0, (cmdD Op.IMG_SWAP 0 []).toBytes, _, _, rfl, rfl, by decide +kernel⟩,
   ⟨ringS, 0, (cmdD Op.NOP 0 []).toBytes, _, _, rfl, rfl, by decide +kernel⟩,
   ⟨ringS, 0, (cmdD Op.NOP 1 []).toBytes, _, _, rfl, rfl, by decide +kernel⟩,
   ⟨ringS, 1, [], by decide +kernel⟩,
   ⟨{ fullS 1 with now := 1000000000 }, cmdD Op.IMG_SWAP 0 [], by decide +kernel⟩⟩

theorem witness_RingsStopAndSignal :
    (∃ (s : State) (k : Fin 65) (addr : BitVec 64), s.Inv ∧ s.ringState k = ringRunning) ∧
    (∃ (s : State) (k : Fin 65), s.fld (ringCtl k) Fd.RING_CTL_IRQ_EN = 1 ∧ (s.ring k).sent = false ∧ 0 < (s.ring k).unsig ∧ 0 < s.fld (ringCoal k) Fd.RING_COAL_TIME_US ∧ s.fld (ringCoal k) Fd.RING_COAL_TIME_US * 125 ≤ (s.now - (s.ring k).firstUnsig) * 128) ∧
    (∃ (s : State) (u : State) (kind : Fin 4) (k : _), u = (s.stopRings kind).copyAbort ∧ s.Inv ∧ k < 65 ∧ (s.ringState k = ringRunning ∨ s.ringState k = ringError)) ∧
    (∃ (s : State) (u : State) (kind : Fin 4) (k : _), u = (s.stopRings kind).copyAbort ∧ s.Inv ∧ k < 65 ∧ s.ringState k ≠ ringRunning ∧ s.ringState k ≠ ringError) :=
  ⟨⟨evtS, 64, 0, inv_of (by decide +kernel), by decide +kernel⟩,
   ⟨{ ((ringS.setFld (ringCtl 0) Fd.RING_CTL_IRQ_EN 1).setFld (ringCoal 0) Fd.RING_COAL_TIME_US 128).setRing 0 { Ring.reset with unsig := 1, firstUnsig := 0 } with now := 125 }, 0, by decide +kernel⟩,
   ⟨evtS, _, 0, 64, rfl, inv_of (by decide +kernel), by decide +kernel⟩,
   ⟨onS, _, 3, 63, rfl, inv_of (by decide +kernel), by decide +kernel⟩⟩

theorem witness_RingAndHostCommands :
    (∃ (s : State) (d : Desc), s.Takes Op.RING_CREATE d ∧ s.Inv ∧ d.handle = 0 ∧ d.reservedZero [(8, 1), (10, 2), (12, 4), (16, 8), (24, 8), (32, 2), (34, 2)] = true ∧ 0 < d.f 8 1 ∧ d.f 8 1 ≤ 63 ∧ d.f 10 2 ≤ 2047 ∧ entriesOk (d.f 12 4) = true ∧ d.f 16 8 % 4096 = 0 ∧ d.f 24 8 % 4096 = 0 ∧ s.ringState (d.f 8 1) = ringDisabled) ∧
    (∃ (s : State) (d : Desc), s.Takes Op.RING_DELETE d ∧ d.handle = 0 ∧ d.reservedZero [(8, 1)] = true ∧ d.f 8 1 ≤ 63 ∧ d.f 8 1 ≠ d.ring ∧ 0 < d.f 8 1 ∧ s.ringState (d.f 8 1) ≠ ringDisabled) ∧
    (∃ (s : State) (d : Desc) (nqn : List Byte), s.Takes Op.HOST_ADD d ∧ (∀ e ∈ s.hst.hosts, e.2.nqn ≠ cString (nqn.take 256)) ∧ d.handle = 0 ∧ d.reservedZero [(8, 2), (16, 8), (24, 16)] = true ∧ d.f 8 2 ≤ 16383 ∧ cString (nqn.take 256) ≠ [] ∧ (cString (nqn.take 256)).length < 224 ∧ (s.hostEnt (d.f 8 2)).nqn = []) ∧
    (∃ (s : State) (d : Desc), s.Takes Op.HOST_REMOVE d ∧ (∀ c ∈ s.liveChans, (s.chan c).host ≠ d.f 8 2) ∧ d.handle = 0 ∧ d.reservedZero [(8, 2)] = true ∧ d.f 8 2 ≤ 16383 ∧ (s.hostEnt (d.f 8 2)).nqn ≠ [] ∧ s.hostConnected (d.f 8 2) = false) :=
  ⟨⟨withD onS (cmdD Op.RING_CREATE 0 [(8, 1, 63), (10, 2, 2047), (12, 4, 16), (16, 8, 4096), (24, 8, 8192)]), cmdD Op.RING_CREATE 0 [(8, 1, 63), (10, 2, 2047), (12, 4, 16), (16, 8, 4096), (24, 8, 8192)], takes_of (by decide +kernel), inv_of (by decide +kernel), by decide +kernel⟩,
   ⟨withD (onS.setRingState 63 ringRunning) (cmdD Op.RING_DELETE 0 [(8, 1, 63)]), cmdD Op.RING_DELETE 0 [(8, 1, 63)], takes_of (by decide +kernel), by decide +kernel⟩,
   ⟨withD onS (cmdD Op.HOST_ADD 0 [(8, 2, 16383)]), cmdD Op.HOST_ADD 0 [(8, 2, 16383)], [0x61], takes_of (by decide +kernel), by decide +kernel, by decide +kernel⟩,
   ⟨withD (onS.setHost 5 { HostEnt.reset with nqn := [0x61] }) (cmdD Op.HOST_REMOVE 0 [(8, 2, 5)]), cmdD Op.HOST_REMOVE 0 [(8, 2, 5)], takes_of (by decide +kernel), by decide +kernel, by decide +kernel⟩⟩

theorem witness_ImagesAreLoaded :
    (∃ (s : State) (u : State) (d : Desc) (b : Bool), u = s.start d ∧ s.Takes Op.IMG_LOAD d ∧ d.handle = 0 ∧ d.reservedZero [(8, 1), (16, 8), (24, 4)] = true ∧ d.f 8 1 = b2n b ∧ d.aligned 16 4096 = true ∧ ((u.buf b).st = .empty ∨ (u.buf b).st = .ready)) ∧
    (∃ (s : State) (u : State) (d : Desc) (b : Bool), u = s.start d ∧ s.Takes Op.IMG_LOAD d ∧ d.handle = 0 ∧ d.reservedZero [(8, 1), (16, 8), (24, 4)] = true ∧ d.f 8 1 = b2n b ∧ d.aligned 16 4096 = true ∧ (u.buf b).st ≠ .empty ∧ (u.buf b).st ≠ .ready) ∧
    (∃ (s : State) (u : State) (w : Word) (b : Bool), u = s.regWrite Reg.ITN_CTL w ∧ b = u.flag Reg.ITN_CTL Fd.ITN_CTL_BUF ∧ s.mgtReady = true ∧ s.locked = false ∧ Fd.ITN_CTL_LOAD.get w = 1 ∧ ((u.buf b).st = .empty ∨ (u.buf b).st = .ready)) ∧
    (∃ (s : State) (b : Bool) (ok : Bool) (bytes : List Byte), (s.buf b).st = .loading) :=
  ⟨⟨withD onS (cmdD Op.IMG_LOAD 0 [(8, 1, 1), (16, 8, 4096), (24, 4, 8192)]), _, cmdD Op.IMG_LOAD 0 [(8, 1, 1), (16, 8, 4096), (24, 4, 8192)], true, rfl, takes_of (by decide +kernel), by decide +kernel⟩,
   ⟨withD (onS.setBuf true { ImgBuf.reset with st := .loading }) (cmdD Op.IMG_LOAD 0 [(8, 1, 1), (16, 8, 4096), (24, 4, 8192)]), _, cmdD Op.IMG_LOAD 0 [(8, 1, 1), (16, 8, 4096), (24, 4, 8192)], true, rfl, takes_of (by decide +kernel), by decide +kernel⟩,
   ⟨onS, _, Fd.ITN_CTL_LOAD.put 0 1, _, rfl, rfl, by decide +kernel⟩,
   ⟨onS.setBuf true { ImgBuf.reset with st := .loading }, true, false, [], by decide +kernel⟩⟩

theorem witness_ImagesAreSwappedAndVariantsLeft :
    (∃ (s : State) (u : State) (d : Desc), u = s.start d ∧ s.Takes Op.IMG_SWAP d ∧ d.handle = 0 ∧ d.reservedZero [(8, 1)] = true ∧ d.f 8 1 ≤ 1 ∧ u.swapRefusal = none) ∧
    (∃ (s : State) (u : State) (d : Desc) (c : _), u = s.start d ∧ s.Takes Op.IMG_SWAP d ∧ d.handle = 0 ∧ d.reservedZero [(8, 1)] = true ∧ d.f 8 1 ≤ 1 ∧ u.swapRefusal = some c) ∧
    (∃ (s : State) (u : State) (w : Word), u = s.regWrite Reg.ITN_CTL w ∧ s.mgtReady = true ∧ s.locked = false ∧ Fd.ITN_CTL_SWAP.get w = 1 ∧ u.swapRefusal = none) ∧
    (∃ (s : State), s.changesRun = true ∧ s.swapDue = true) ∧
    (∃ (s : State) (u : State) (w : Word), u = s.regWrite Reg.ITN_CTL w ∧ s.mgtReady = true ∧ s.locked = false ∧ Fd.ITN_CTL_START.get w = 1 ∧ u.itn.running = false ∧ u.itn.stopped = false ∧ u.itn.bufA.st = .ready ∧ u.flag Reg.CRS_STATUS Fd.CRS_STATUS_HBM_READY = true) ∧
    (∃ (s : State) (u : State) (d : Desc), u = s.start d ∧ s.Takes Op.VARIANT_EXIT d ∧ d.handle = 0 ∧ d.reservedZero [(8, 1)] = true ∧ 1 ≤ d.f 8 1 ∧ d.f 8 1 ≤ 16 ∧ u.itn.running = true ∧ u.itn.variant = d.f 8 1 ∧ u.itn.exitDesc = none ∧ u.exitOk = true) ∧
    (∃ (s : State) (u : State) (d : Desc), u = s.start d ∧ s.Takes Op.VARIANT_EXIT d ∧ d.handle = 0 ∧ d.reservedZero [(8, 1)] = true ∧ 1 ≤ d.f 8 1 ∧ d.f 8 1 ≤ 16 ∧ (u.itn.running = false ∨ u.itn.variant ≠ d.f 8 1 ∨ u.itn.exitDesc ≠ none ∨ u.exitOk = false)) ∧
    (∃ (s : State) (c : Fin 262144), s.changesRun = true ∧ (s.chan c).st ≠ .free ∧ (s.chan c).cluster ≠ (s.chan c).home ∧ s.itn.variant = 0 ∧ s.inFlight c = 0) :=
  ⟨⟨withD succS (cmdD Op.IMG_SWAP 0 [(8, 1, 1)]), _, cmdD Op.IMG_SWAP 0 [(8, 1, 1)], rfl, takes_of (by decide +kernel), by decide +kernel⟩,
   ⟨withD runS (cmdD Op.IMG_SWAP 0 [(8, 1, 1)]), _, cmdD Op.IMG_SWAP 0 [(8, 1, 1)], St.GEN_STATE, rfl, takes_of (by decide +kernel), by decide +kernel⟩,
   ⟨succS, _, Fd.ITN_CTL_SWAP.put 0 1, rfl, by decide +kernel⟩,
   ⟨atS { succS with itn := { succS.itn with swapPend := 2, tick := 255 } }, by decide +kernel⟩,
   ⟨loadedS, _, Fd.ITN_CTL_START.put 0 1, rfl, by decide +kernel⟩,
   ⟨withD variantS (cmdD Op.VARIANT_EXIT 0 [(8, 1, 16)]), _, cmdD Op.VARIANT_EXIT 0 [(8, 1, 16)], rfl, takes_of (by decide +kernel), by decide +kernel⟩,
   ⟨withD variantS (cmdD Op.VARIANT_EXIT 0 [(8, 1, 1)]), _, cmdD Op.VARIANT_EXIT 0 [(8, 1, 1)], rfl, takes_of (by decide +kernel), by decide +kernel⟩,
   ⟨atS (onS.setChan 262143 { Chan.reset with st := .opened, cluster := 3 }), 262143, by decide +kernel⟩⟩

theorem witness_ChannelsAreMadeBoundAndFreed :
    (∃ (s : State) (u : State) (d : Desc), u = s.start d ∧ s.Takes Op.CHAN_CREATE d ∧ d.handle = 0 ∧ d.reservedZero [(8, 15), (24, 20)] = true ∧ d.f 8 2 ≤ 16383 ∧ d.f 10 1 ≤ 253 ∧ (d.f 11 1 ≤ 11 ∨ d.f 11 1 = 0xFF) ∧ d.f 12 4 ≤ 65536 ∧ (d.f 16 4 ≤ 65535 ∨ d.f 16 4 = 0xFFFFFFFF) ∧ d.f 20 1 ≤ 3 ∧ d.f 21 1 ≤ 7 ∧ d.meterOk = true ∧ u.schedOk (d.f 40 2) (d.f 42 2) = true ∧ (u.hostEnt (d.f 8 2)).nqn ≠ [] ∧ (d.f 12 4 = 0 ∨ ((u.vol (d.f 12 4 - 1)).st ≠ 0 ∧ (u.vol (d.f 12 4 - 1)).st ≠ 3)) ∧ u.findChan (d.f 8 2) (d.f 12 4) = none ∧ u.classOk (d.f 10 1) (d.f 12 4) = true ∧ d.f 16 4 = u.keyOf (d.f 12 4) ∧ u.liveChans.length < 262144) ∧
    (∃ (s : State) (u : State) (d : Desc) (i : Nat), u = s.start d ∧ s.Takes Op.CHAN_MODIFY d ∧ u.chanOf d.handle = some i ∧ d.reservedZero [(8, 15), (24, 22)] = true ∧ 0 < d.f 44 2 ∧ d.f 44 2 < 16 ∧ (natBit (d.f 44 2) 0 = true → d.f 10 1 ≤ 253 ∧ (u.chan i).st ≠ .suspended ∧ u.classOk (d.f 10 1) (u.chan i).nsid = true) ∧ (natBit (d.f 44 2) 1 = true → d.f 21 1 ≤ 7) ∧ (natBit (d.f 44 2) 2 = true → d.meterOk = true) ∧ (natBit (d.f 44 2) 3 = true → u.schedOk (d.f 40 2) (d.f 42 2) = true) ∧ (u.chan i).st ≠ .closing) ∧
    (∃ (s : State) (u : State) (d : Desc) (i : Nat), u = s.start d ∧ s.Takes Op.CHAN_DESTROY d ∧ u.chanOf d.handle = some i ∧ d.reservedZero [] = true ∧ (u.chan i).st ≠ .closing) ∧
    (∃ (s : State) (u : State) (d : Desc) (i : Nat), u = s.start d ∧ s.Takes Op.CHAN_QUERY d ∧ u.chanOf d.handle = some i ∧ d.reservedZero [] = true) ∧
    (∃ (s : State) (u : State) (d : Desc) (all : List Nat), u = s.start d ∧ all = u.liveChans.filter (fun i => decide (d.f 12 4 ≤ i)) ∧ s.Takes Op.CHAN_LIST d ∧ d.handle = 0 ∧ d.reservedZero [(8, 2), (12, 4), (16, 8)] = true ∧ d.aligned 16 8 = true ∧ d.f 12 4 < 262144 ∧ 1 ≤ d.f 8 2 ∧ d.f 8 2 ≤ 4096) ∧
    (∃ (s : State) (d : Desc) (k : Nat) (i : Nat), s.findChan (d.f 8 2) (d.f 12 4) = none ∧ s.pickCluster (d.f 10 1) (d.f 11 1) = some k ∧ s.freeChan = some i ∧ Tab.rising s.hst.chans = true) ∧
    (∃ (s : State) (c : Fin 262144), s.changesRun = true ∧ (s.chan c).st = .closing ∧ (s.chan c).closedAt < s.now ∧ s.inFlight c = 0) :=
  ⟨⟨withD nodeS createD, _, createD, rfl, takes_of (by decide +kernel), by decide +kernel⟩,
   ⟨withD chanS (cmdD Op.CHAN_MODIFY (2 * 262144 + 9) [(10, 1, 1), (21, 1, 7), (40, 2, 1023), (42, 2, 1), (44, 2, 15)]), _, cmdD Op.CHAN_MODIFY (2 * 262144 + 9) [(10, 1, 1), (21, 1, 7), (40, 2, 1023), (42, 2, 1), (44, 2, 15)], 9, rfl, takes_of (by decide +kernel), by decide +kernel⟩,
   ⟨withD chanS (cmdD Op.CHAN_DESTROY (2 * 262144 + 9) []), _, cmdD Op.CHAN_DESTROY (2 * 262144 + 9) [], 9, rfl, takes_of (by decide +kernel), by decide +kernel⟩,
   ⟨withD chanS (cmdD Op.CHAN_QUERY (2 * 262144 + 9) []), _, cmdD Op.CHAN_QUERY (2 * 262144 + 9) [], 9, rfl, takes_of (by decide +kernel), by decide +kernel⟩,
   ⟨withD chanS (cmdD Op.CHAN_LIST 0 [(8, 2, 4096), (12, 4, 262143), (16, 8, 8)]), _, cmdD Op.CHAN_LIST 0 [(8, 2, 4096), (12, 4, 262143), (16, 8, 8)], _, rfl, rfl, takes_of (by decide +kernel), by decide +kernel⟩,
   ⟨nodeS, createD, 0, 0, by decide +kernel⟩,
   ⟨atS { (onS.setChan 262143 { Chan.reset with st := .closing, closedAt := 9 }) with now := 10 }, 262143, by decide +kernel⟩⟩

theorem witness_KeysAreLoadedAndDestroyed :
    (∃ (s : State) (u : State) (d : Desc) (blob : List Byte), u = s.start d ∧ s.Takes Op.KEY_LOAD d ∧ (∀ c ∈ u.cip.changes, c.kek = true ∨ c.index ≠ d.handle) ∧ d.f 8 1 = 0 ∧ d.reservedZero [(8, 1), (9, 1), (12, 4), (16, 8), (24, 2)] = true ∧ d.handle < 65536 ∧ d.f 9 1 < 16 ∧ d.f 12 4 = 0 ∧ d.f 24 2 = 72 ∧ u.noAlarm = true ∧ u.keyStop = false ∧ u.keyPair d.handle = none ∧ u.kek (d.f 9 1) ≠ []) ∧
    (∃ (s : State) (u : State) (d : Desc) (blob : List Byte), u = s.start d ∧ s.Takes Op.KEY_LOAD d ∧ d.f 8 1 = 1 ∧ d.reservedZero [(8, 1), (9, 1), (12, 4), (16, 8), (24, 2)] = true ∧ d.handle < 16 ∧ d.f 9 1 = 0 ∧ d.f 24 2 = 68 ∧ u.noAlarm = true ∧ u.keyStop = false ∧ u.session (d.f 12 4) = none) ∧
    (∃ (s : State) (u : State) (d : Desc) (blob : List Byte) (x : _) (seq : _), u = s.start d ∧ seq = leField blob 0 8 ∧ s.Takes Op.KEY_LOAD d ∧ d.f 8 1 = 1 ∧ d.reservedZero [(8, 1), (9, 1), (12, 4), (16, 8), (24, 2)] = true ∧ d.handle < 16 ∧ d.f 9 1 = 0 ∧ d.f 24 2 = 68 ∧ u.noAlarm = true ∧ u.keyStop = false ∧ u.session (d.f 12 4) = some x ∧ seq ≤ x.lastSeq) ∧
    (∃ (s : State) (u : State) (d : Desc) (blob : List Byte) (x : _) (seq : _), u = s.start d ∧ seq = leField blob 0 8 ∧ s.Takes Op.KEY_LOAD d ∧ d.f 8 1 = 1 ∧ d.reservedZero [(8, 1), (9, 1), (12, 4), (16, 8), (24, 2)] = true ∧ d.handle < 16 ∧ d.f 9 1 = 0 ∧ d.f 24 2 = 68 ∧ u.noAlarm = true ∧ u.keyStop = false ∧ u.session (d.f 12 4) = some x ∧ x.lastSeq < seq) ∧
    (∃ (s : State) (u : State) (d : Desc), u = s.start d ∧ s.Takes Op.KEY_DESTROY d ∧ d.reservedZero [(8, 1), (9, 1)] = true ∧ d.f 8 1 = 0 ∧ d.f 9 1 ≤ 1 ∧ d.handle < 65536 ∧ (u.keyPair d.handle).isSome = true ∧ (d.f 9 1 = 1 ∨ u.volsOfKey d.handle = [])) ∧
    (∃ (s : State) (u : State) (d : Desc), u = s.start d ∧ s.Takes Op.KEY_DESTROY d ∧ d.reservedZero [(8, 1), (9, 1)] = true ∧ d.f 8 1 = 1 ∧ d.f 9 1 = 0 ∧ d.handle < 16 ∧ u.kek d.handle ≠ []) ∧
    (∃ (s : State) (c : KeyChange), c.kek = false) ∧
    (∃ (s : State) (c : KeyChange), c.kek = true) :=
  ⟨⟨withD (onS.setKek 15 [1]) (cmdD Op.KEY_LOAD 65535 [(9, 1, 15), (16, 8, 4096), (24, 2, 72)]), _, cmdD Op.KEY_LOAD 65535 [(9, 1, 15), (16, 8, 4096), (24, 2, 72)], [], rfl, takes_of (by decide +kernel), by decide +kernel, by decide +kernel⟩,
   ⟨withD onS (cmdD Op.KEY_LOAD 15 [(8, 1, 1), (16, 8, 4096), (24, 2, 68)]), _, cmdD Op.KEY_LOAD 15 [(8, 1, 1), (16, 8, 4096), (24, 2, 68)], [], rfl, takes_of (by decide +kernel), by decide +kernel⟩,
   ⟨withD sessS (cmdD Op.KEY_LOAD 15 [(8, 1, 1), (12, 4, 9), (16, 8, 4096), (24, 2, 68)]), _, cmdD Op.KEY_LOAD 15 [(8, 1, 1), (12, 4, 9), (16, 8, 4096), (24, 2, 68)], [5], { id := 9, transport := 0, secret := [], key := [1], lastSeq := 5 }, _, rfl, rfl, takes_of (by decide +kernel), by decide +kernel⟩,
   ⟨withD sessS (cmdD Op.KEY_LOAD 15 [(8, 1, 1), (12, 4, 9), (16, 8, 4096), (24, 2, 68)]), _, cmdD Op.KEY_LOAD 15 [(8, 1, 1), (12, 4, 9), (16, 8, 4096), (24, 2, 68)], [6], { id := 9, transport := 0, secret := [], key := [1], lastSeq := 5 }, _, rfl, rfl, takes_of (by decide +kernel), by decide +kernel⟩,
   ⟨withD (onS.setKey 65535 (some ⟨[1], [2], 3⟩)) (cmdD Op.KEY_DESTROY 65535 [(9, 1, 1)]), _, cmdD Op.KEY_DESTROY 65535 [(9, 1, 1)], rfl, takes_of (by decide +kernel), by decide +kernel⟩,
   ⟨withD (onS.setKek 15 [1]) (cmdD Op.KEY_DESTROY 15 [(8, 1, 1)]), _, cmdD Op.KEY_DESTROY 15 [(8, 1, 1)], rfl, takes_of (by decide +kernel), by decide +kernel⟩,
   ⟨onS, { kek := false, index := 65535, pair := none, raw := [], desc := none, result := 0 }, by decide +kernel⟩,
   ⟨onS, { kek := true, index := 15, pair := none, raw := [], desc := none, result := 0 }, by decide +kernel⟩⟩

theorem witness_AlarmsZeroiseTheKeys :
    (∃ (s : State) (code : Fin 17) (k : Fin 12), ((2 ≤ code.val ∧ code.val ≤ 5) ∨ (code.val = 1 ∧ s.flag Reg.CIP_CFG Fd.CIP_CFG_TAMPER_EN = true))) ∧
    (∃ (s : State) (pass : Bool), s.flag Reg.CIP_STATUS Fd.CIP_STATUS_HALT = true ∧ s.cip.testTick + 977 ≤ s.now) ∧
    (∃ (s : State) (pass : Bool), s.flag Reg.CIP_STATUS Fd.CIP_STATUS_HALT = true ∧ s.now < s.cip.testTick + 977) ∧
    (∃ (s : State) (w : Word) (present : Word) (a : _) (u : _), a = (s.rd Reg.CIP_ALARM &&& ~~~(w &&& ~~~present)) ∧ u = s.wrReg Reg.CIP_ALARM a ∧ s.Inv ∧ s.mgtReady = true ∧ a = 0) ∧
    (∃ (s : State) (w : Word) (present : Word) (a : _) (u : _), a = (s.rd Reg.CIP_ALARM &&& ~~~(w &&& ~~~present)) ∧ u = s.wrReg Reg.CIP_ALARM a ∧ s.Inv ∧ s.mgtReady = true ∧ a ≠ 0) :=
  ⟨⟨onS, 5, 11, by decide +kernel⟩,
   ⟨{ onS.setFld Reg.CIP_STATUS Fd.CIP_STATUS_HALT 1 with now := 977 }, true, by decide +kernel⟩,
   ⟨{ onS.setFld Reg.CIP_STATUS Fd.CIP_STATUS_HALT 1 with now := 976 }, true, by decide +kernel⟩,
   ⟨onS.setFld Reg.CIP_ALARM wordFld 1, 1, 0, _, _, rfl, rfl, inv_of (by decide +kernel), by decide +kernel⟩,
   ⟨onS.setFld Reg.CIP_ALARM wordFld 1, 1, 1, _, _, rfl, rfl, inv_of (by decide +kernel), by decide +kernel⟩⟩

theorem witness_CheckEngineRuns :
    (∃ (s : State) (u : State) (w : Word), u = s.regWrite (Reg.CHK_SW_CTL 0) w ∧ s.mgtReady = true ∧ Fd.CHK_SW_CTL_START.get w = 1 ∧ u.flag (Reg.CHK_SW_STATUS 0) Fd.CHK_SW_STATUS_BUSY = false) ∧
    (∃ (s : State) (w : Word), s.mgtReady = true) ∧
    (∃ (s : State) (n : Fin 2) (ok : Bool) (data : List Byte) (r : SwRun) (u : _) (v : _), u = ({ s with cip := { s.cip with sw := Tab.wr (fun _ => none) s.cip.sw n none } }.setFld (Reg.CHK_SW_STATUS n) Fd.CHK_SW_STATUS_BUSY 0).setFld (Reg.CHK_SW_STATUS n) Fd.CHK_SW_STATUS_DONE 1 ∧ v = u.setFld (Reg.CHK_SW_STATUS n) Fd.CHK_SW_STATUS_STATUS 0 ∧ Tab.rd (fun _ => none) s.cip.sw n = some r ∧ 0 < r.len ∧ r.len ≤ 16777216) ∧
    (∃ (s : State) (n : Fin 2) (ok : Bool) (data : List Byte) (r : SwRun) (u : _) (v : _), u = ({ s with cip := { s.cip with sw := Tab.wr (fun _ => none) s.cip.sw n none } }.setFld (Reg.CHK_SW_STATUS n) Fd.CHK_SW_STATUS_BUSY 0).setFld (Reg.CHK_SW_STATUS n) Fd.CHK_SW_STATUS_DONE 1 ∧ v = u.setFld (Reg.CHK_SW_STATUS n) Fd.CHK_SW_STATUS_STATUS 0 ∧ Tab.rd (fun _ => none) s.cip.sw n = some r ∧ (r.len = 0 ∨ 16777216 < r.len)) :=
  ⟨⟨onS, _, Fd.CHK_SW_CTL_START.put 0 1, rfl, by decide +kernel⟩,
   ⟨onS, 0, by decide +kernel⟩,
   ⟨{ onS with cip := { onS.cip with sw := [(1, some ⟨0, false, 4096, 16777216⟩)] } }, 1, true, [], ⟨0, false, 4096, 16777216⟩, _, _, rfl, rfl, by decide +kernel⟩,
   ⟨swS, 1, true, [], ⟨0, false, 4096, 16777217⟩, _, _, rfl, rfl, by decide +kernel⟩⟩

theorem witness_PoolAndVolumeCommands :
    (∃ (s : State) (u : State) (d : Desc) (e : Desc) (list : List Byte) (bays : List Nat) (P : Pool), d = e.withBays list ∧ u = s.start d ∧ bays = ((list.take 128).take (d.f 10 1)).map (·.toNat) ∧ P = poolOf d (u.fld Reg.LAY_DUMP_CFG Fd.LAY_DUMP_CFG_DUMP_GIB) (bays.map fun b => (b, (u.bay b).ident.bytes)) ∧ s.Takes Op.POOL_CREATE e ∧ (∀ b ∈ bays, b < 128) ∧ (∀ b ∈ list.drop (d.f 10 1), b = 0xFF) ∧ (∀ b ∈ bays, u.bayReady b = true) ∧ (∀ b ∈ bays, (u.bay b).ident.fmt = true) ∧ s.objectBusy d = false ∧ d.handle < 16 ∧ d.reservedZero [(8, 1), (9, 1), (10, 1), (11, 1), (12, 1), (16, 8)] = true ∧ geomOk (d.f 8 1) (d.f 9 1) (d.f 10 1) (d.f 11 1) (d.f 12 1) = true ∧ list.length = 128 ∧ (u.pool d.handle).st = 0 ∧ (u.pool d.handle).desc = none ∧ (u.poolClass d.handle).isSome = true ∧ bays.eraseDups.length = d.f 10 1 ∧ 1 ≤ P.frames ∧ 1 ≤ P.slabs) ∧
    (∃ (s : State) (u : State) (d : Desc), u = s.start d ∧ s.Takes Op.POOL_DESTROY d ∧ d.handle < 16 ∧ d.reservedZero [] = true ∧ (u.pool d.handle).st ≠ 0 ∧ u.volsOf d.handle = [] ∧ (u.pool d.handle).acts = []) ∧
    (∃ (s : State) (u : State) (d : Desc) (P : Pool), u = s.start d ∧ P = u.pool d.handle ∧ s.Takes Op.POOL_MEMBER_ADD d ∧ d.handle < 16 ∧ d.reservedZero [(8, 1), (9, 1)] = true ∧ P.slotOk (d.f 8 1) = true ∧ d.f 9 1 < 128 ∧ P.st ≠ 0 ∧ ((P.slot (d.f 8 1)).st = .missing ∨ (P.slot (d.f 8 1)).st = .vacant) ∧ u.bayReady (d.f 9 1) = true ∧ (u.bay (d.f 9 1)).ident.fmt = true ∧ P.base + P.frames * P.strip ≤ (u.bay (d.f 9 1)).ident.bytes) ∧
    (∃ (s : State) (u : State) (d : Desc) (P : Pool), u = s.start d ∧ P = u.pool d.handle ∧ s.Takes Op.POOL_MEMBER_REMOVE d ∧ d.handle < 16 ∧ d.reservedZero [(8, 1)] = true ∧ P.slotOk (d.f 8 1) = true ∧ P.st ≠ 0 ∧ ((P.slot (d.f 8 1)).st = .present ∨ (P.slot (d.f 8 1)).st = .copyback) ∧ P.missing < 2) ∧
    (∃ (s : State) (u : State) (d : Desc) (P : Pool), u = s.start d ∧ P = u.pool d.handle ∧ s.Takes Op.POOL_MEMBER_REMOVE d ∧ d.handle < 16 ∧ d.reservedZero [(8, 1)] = true ∧ P.slotOk (d.f 8 1) = true ∧ P.st ≠ 0 ∧ ((P.slot (d.f 8 1)).st = .present ∨ (P.slot (d.f 8 1)).st = .copyback) ∧ 2 ≤ P.missing) ∧
    (∃ (s : State) (u : State) (d : Desc), u = s.start d ∧ s.Takes Op.VOL_CREATE d ∧ (∀ v ∈ u.vols, (u.vol v).nguid ≠ d.bytes 24 16) ∧ d.handle < 65536 ∧ d.reservedZero [(8, 1), (9, 1), (10, 1), (12, 4), (16, 8), (24, 16)] = true ∧ d.f 8 1 < 16 ∧ d.f 9 1 ≤ 4 ∧ d.f 10 1 ≤ 1 ∧ (d.f 12 4 < 65536 ∨ d.f 12 4 = 0xFFFFFFFF) ∧ 1 ≤ d.f 16 8 ∧ (u.vol d.handle).st = 0 ∧ (u.pool (d.f 8 1)).st ≠ 0 ∧ (u.pool (d.f 8 1)).st ≠ 5 ∧ (d.f 12 4 = 0xFFFFFFFF ∨ (u.keyPair (d.f 12 4)).isSome = true) ∧ allZero (d.bytes 24 16) = false ∧ u.canHold d.handle (d.f 8 1) ((u.pool (d.f 8 1)).slabsFor (d.f 9 1) (d.f 16 8)) ((u.pool (d.f 8 1)).slabsFor (d.f 9 1) (d.f 16 8)) = true) ∧
    (∃ (s : State) (u : State) (d : Desc), u = s.start d ∧ s.Takes Op.VOL_RESIZE d ∧ d.handle < 65536 ∧ d.reservedZero [(16, 8)] = true ∧ 1 ≤ d.f 16 8 ∧ (u.vol d.handle).st = 2 ∧ (u.pool (u.vol d.handle).pool).slabsFor (u.vol d.handle).lbaf (d.f 16 8) ≤ (u.vol d.handle).slabs.length) ∧
    (∃ (s : State) (u : State) (d : Desc), u = s.start d ∧ s.Takes Op.VOL_DELETE d ∧ (∀ c ∈ u.liveChans, (u.chan c).nsid ≠ d.handle + 1) ∧ d.handle < 65536 ∧ d.reservedZero [] = true ∧ (u.vol d.handle).st ≠ 0 ∧ (u.vol d.handle).st ≠ 1) ∧
    (∃ (s : State) (d : Desc) (need : Nat), need = (s.pool (d.f 8 1)).slabsFor (d.f 9 1) (d.f 16 8) ∧ (∀ v ∈ s.vols, (s.vol v).nguid ≠ d.bytes 24 16) ∧ d.handle < 65536 ∧ s.canHold d.handle (d.f 8 1) need need = true) ∧
    (∃ (s : State) (im : Import), (∀ e ∈ im.labels, bestLabel e.2.1 e.2.2 = none) ∧ s.fwRuns = true ∧ s.lay.imported = false ∧ (s.pairState = pairSingle ∨ s.pairState = pairAlone) ∧ s.lay.pools = [] ∧ s.lay.vols = []) ∧
    (∃ (s : State) (im : Import), (s.fwRuns = false ∨ s.lay.imported = true ∨ (s.pairState ≠ pairSingle ∧ s.pairState ≠ pairAlone))) :=
  ⟨⟨withD driveS (cmdD Op.POOL_CREATE 0 [(9, 1, 2), (10, 1, 4), (12, 1, 14), (16, 8, 4096)]), _, _, cmdD Op.POOL_CREATE 0 [(9, 1, 2), (10, 1, 4), (12, 1, 14), (16, 8, 4096)], [0, 1, 2, 3] ++ List.replicate 124 0xFF, _, _, rfl, rfl, rfl, rfl, takes_of (by decide +kernel), by decide +kernel, by decide +kernel, by decide +kernel, by decide +kernel, by decide +kernel⟩,
   ⟨withD (poolS.setVol 0 Vol.reset) (cmdD Op.POOL_DESTROY 0 []), _, cmdD Op.POOL_DESTROY 0 [], rfl, takes_of (by decide +kernel), by decide +kernel⟩,
   ⟨withD gapS (cmdD Op.POOL_MEMBER_ADD 0 [(8, 1, 3), (9, 1, 4)]), _, cmdD Op.POOL_MEMBER_ADD 0 [(8, 1, 3), (9, 1, 4)], _, rfl, rfl, takes_of (by decide +kernel), by decide +kernel⟩,
   ⟨withD gapS (cmdD Op.POOL_MEMBER_REMOVE 0 [(8, 1, 0)]), _, cmdD Op.POOL_MEMBER_REMOVE 0 [(8, 1, 0)], _, rfl, rfl, takes_of (by decide +kernel), by decide +kernel⟩,
   ⟨withD gap2S (cmdD Op.POOL_MEMBER_REMOVE 0 [(8, 1, 0)]), _, cmdD Op.POOL_MEMBER_REMOVE 0 [(8, 1, 0)], _, rfl, rfl, takes_of (by decide +kernel), by decide +kernel⟩,
   ⟨withD poolS (cmdD Op.VOL_CREATE 65535 [(9, 1, 4), (10, 1, 1), (12, 4, 0xFFFFFFFF), (16, 8, 1), (24, 16, 7)]), _, cmdD Op.VOL_CREATE 65535 [(9, 1, 4), (10, 1, 1), (12, 4, 0xFFFFFFFF), (16, 8, 1), (24, 16, 7)], rfl, takes_of (by decide +kernel), by decide +kernel, by decide +kernel⟩,
   ⟨withD poolS (cmdD Op.VOL_RESIZE 0 [(16, 8, 1)]), _, cmdD Op.VOL_RESIZE 0 [(16, 8, 1)], rfl, takes_of (by decide +kernel), by decide +kernel⟩,
   ⟨withD poolS (cmdD Op.VOL_DELETE 0 []), _, cmdD Op.VOL_DELETE 0 [], rfl, takes_of (by decide +kernel), by decide +kernel, by decide +kernel⟩,
   ⟨poolS, cmdD Op.VOL_CREATE 65535 [(9, 1, 4), (10, 1, 1), (12, 4, 0xFFFFFFFF), (16, 8, 1), (24, 16, 7)], _, rfl, by decide +kernel, by decide +kernel⟩,
   ⟨freshS, noImport, by decide +kernel, by decide +kernel⟩,
   ⟨{ freshS with lay := { freshS.lay with imported := true } }, noImport, by decide +kernel⟩⟩

theorem witness_MaintenanceRuns :
    (∃ (s : State) (u : State) (d : Desc), u = s.start d ∧ s.Takes Op.MAINT_START d ∧ d.handle < 16 ∧ d.reservedZero [(8, 1), (9, 1), (10, 1), (11, 1)] = true ∧ (d.f 8 1 = 1 ∨ d.f 8 1 = 2) ∧ d.f 9 1 ≤ 1 ∧ d.f 11 1 ≤ 1 ∧ (d.f 8 1 = 1 ∨ (d.f 10 1 = 0 ∧ d.f 11 1 = 0)) ∧ (u.pool d.handle).st ≠ 0 ∧ (u.pool d.handle).ofKind (d.f 8 1) = []) ∧
    (∃ (s : State) (u : State) (d : Desc), u = s.start d ∧ s.Takes Op.MAINT_START d ∧ (∃ a ∈ (u.pool d.handle).acts, a.st = .held) ∧ d.handle < 16 ∧ d.reservedZero [(8, 1), (9, 1), (10, 1), (11, 1)] = true ∧ d.f 8 1 = 3 ∧ d.f 9 1 ≤ 1 ∧ d.f 10 1 = 0 ∧ d.f 11 1 = 0 ∧ (u.pool d.handle).st ≠ 0) ∧
    (∃ (s : State) (u : State) (d : Desc), u = s.start d ∧ s.Takes Op.MAINT_STOP d ∧ d.handle < 16 ∧ d.reservedZero [(8, 1)] = true ∧ 1 ≤ d.f 8 1 ∧ d.f 8 1 ≤ 3 ∧ (u.pool d.handle).st ≠ 0 ∧ (u.pool d.handle).ofKind (d.f 8 1) ≠ []) ∧
    (∃ (s : State) (u : State) (d : Desc), u = s.start d ∧ s.Takes Op.MAINT_STOP d ∧ d.handle < 16 ∧ d.reservedZero [(8, 1)] = true ∧ 1 ≤ d.f 8 1 ∧ d.f 8 1 ≤ 3 ∧ (u.pool d.handle).st ≠ 0 ∧ (u.pool d.handle).ofKind (d.f 8 1) = []) ∧
    (∃ (s : State) (p : Fin 16), s.atSeam = true ∧ (s.pool p).st ≠ 0) ∧
    (∃ (s : State) (p : Fin 16) (id : Nat) (a : Activity), s.atSeam = true ∧ (s.pool p).acts.find? (fun b => b.id == id) = some a ∧ (s.pool p).blocked a = true) ∧
    (∃ (s : State) (p : Fin 16) (id : Nat) (a : Activity), (∀ b ∈ (s.pool p).acts, b.rank ≤ a.rank ∨ b.holds = false) ∧ s.atSeam = true ∧ (s.pool p).acts.find? (fun b => b.id == id) = some a ∧ (s.pool p).blocked a = false) ∧
    (∃ (s : State) (p : Fin 16) (id : Nat) (a : Activity), (∃ b ∈ (s.pool p).acts, a.rank < b.rank ∧ b.holds = true) ∧ s.atSeam = true ∧ (s.pool p).acts.find? (fun b => b.id == id) = some a ∧ (s.pool p).blocked a = false) ∧
    (∃ (s : State) (p : Fin 16) (a : Activity), s.atSeam = true ∧ a.st = .preempting ∧ s.actWorks p a.id = [] ∧ a.recSt = 2) ∧
    (∃ (s : State) (p : Fin 16) (a : Activity), s.atSeam = true ∧ a.st = .preempting ∧ s.actWorks p a.id = [] ∧ a.recSt ≠ 2) ∧
    (∃ (s : State) (p : Fin 16) (a : Activity), s.atSeam = true ∧ (a.st ≠ .preempting ∨ s.actWorks p a.id ≠ [])) ∧
    (∃ (s : State), s.itn.tick % 256 = 255 ∧ s.atSeam = true) ∧
    (∃ (s : State) (p : Fin 16) (t : Nat) (r : Nat) (m : Nat), (∀ a ∈ (s.pool p).acts, a.kind ≠ 1) ∧ s.atSeam = true ∧ (s.pool p).scrubNext = some (t, r, m) ∧ t + r * dayTicks ≤ s.now) :=
  ⟨⟨withD poolS (cmdD Op.MAINT_START 0 [(8, 1, 1), (9, 1, 1), (10, 1, 255), (11, 1, 1)]), _, cmdD Op.MAINT_START 0 [(8, 1, 1), (9, 1, 1), (10, 1, 255), (11, 1, 1)], rfl, takes_of (by decide +kernel), by decide +kernel⟩,
   ⟨withD (poolS.updPool 0 fun P => { P with acts := [{ scrubA with st := .held }] }) (cmdD Op.MAINT_START 0 [(8, 1, 3), (9, 1, 1)]), _, cmdD Op.MAINT_START 0 [(8, 1, 3), (9, 1, 1)], rfl, takes_of (by decide +kernel), by decide +kernel, by decide +kernel⟩,
   ⟨withD (poolS.updPool 0 fun P => { P with acts := [scrubA] }) (cmdD Op.MAINT_STOP 0 [(8, 1, 1)]), _, cmdD Op.MAINT_STOP 0 [(8, 1, 1)], rfl, takes_of (by decide +kernel), by decide +kernel⟩,
   ⟨withD poolS (cmdD Op.MAINT_STOP 0 [(8, 1, 3)]), _, cmdD Op.MAINT_STOP 0 [(8, 1, 3)], rfl, takes_of (by decide +kernel), by decide +kernel⟩,
   ⟨atS poolS, 0, by decide +kernel⟩,
   ⟨atS (poolT fun P => { P with acts := [scrubA, { scrubbingA with id := 5 }] }), 0, 4, scrubA, by decide +kernel⟩,
   ⟨atS (poolS.updPool 0 fun P => { P with acts := [scrubA] }), 0, 4, scrubA, by decide +kernel, by decide +kernel⟩,
   ⟨atS (poolT fun P => { P with acts := [{ scrubbingA with id := 5 }, { scrubA with kind := 2 }] }), 0, 4, { scrubA with kind := 2 }, by decide +kernel, by decide +kernel⟩,
   ⟨atS poolS, 0, yieldA, by decide +kernel⟩,
   ⟨atS poolS, 0, { yieldA with recSt := 1 }, by decide +kernel⟩,
   ⟨atS poolS, 0, scrubA, by decide +kernel⟩,
   ⟨atS { poolS with itn := { poolS.itn with tick := 255 } }, by decide +kernel⟩,
   ⟨atS { (poolS.updPool 0 fun P => { P with scrubNext := some (0, 1, 0) }) with now := dayTicks }, 0, 0, 1, 0, by decide +kernel, by decide +kernel⟩⟩

theorem witness_StripesAreDestagedAndRequestsComplete :
    (∃ (s : State) (k : Fin 12) (c : Fin 256), (s.openRun k c Rt.destageStep = none ∨ s.classPool c = none ∨ (∃ p, s.classPool c = some p ∧ State.beginDestage k s p = none))) ∧
    (∃ (s : State) (k : Fin 12) (c : Fin 256) (r : SlotRun) (p : Nat) (e : DirtyStripe), s.openRun k c Rt.destageStep = some r ∧ s.classPool c = some p ∧ (s.destageOrder p).head? = some e ∧ s.destageDue p e = true ∧ s.poolCluster p e.stripe = k) ∧
    (∃ (s : State) (u : State) (k : Fin 12) (c : Fin 256) (it : Item) (w : Work) (gone : _) (v : _) (y : _), gone = ((w.rows.filter fun r => (u.pool w.pool).rowPlan w r == .beyond)) ∧ v = ((if gone = [] then u else u.dropRows w gone)) ∧ y = (v.work? w.id).getD w ∧ s.RunsWork k c Rt.parityPlan u it w ∧ it.leg = 1 ∧ y.rows = []) ∧
    (∃ (s : State) (u : State) (k : Fin 12) (c : Fin 256) (it : Item) (w : Work) (gone : _) (v : _) (y : _) (need : _), gone = ((w.rows.filter fun r => (u.pool w.pool).rowPlan w r == .beyond)) ∧ v = ((if gone = [] then u else u.dropRows w gone)) ∧ y = (v.work? w.id).getD w ∧ need = (u.pool w.pool).destageNeed y ∧ s.RunsWork k c Rt.parityPlan u it w ∧ it.leg = 1 ∧ y.rows ≠ [] ∧ need = []) ∧
    (∃ (s : State) (u : State) (k : Fin 12) (c : Fin 256) (it : Item) (w : Work) (gone : _) (v : _) (y : _) (need : _), gone = ((w.rows.filter fun r => (u.pool w.pool).rowPlan w r == .beyond)) ∧ v = ((if gone = [] then u else u.dropRows w gone)) ∧ y = (v.work? w.id).getD w ∧ need = (u.pool w.pool).destageNeed y ∧ s.RunsWork k c Rt.parityPlan u it w ∧ it.leg = 1 ∧ y.rows ≠ [] ∧ need ≠ []) ∧
    (∃ (s : State) (u : State) (k : Fin 12) (c : Fin 256) (it : Item) (w : Work), s.RunsWork k c Rt.parityPlan u it w ∧ it.leg ≠ 1) ∧
    (∃ (s : State) (u : State) (k : Fin 12) (c : Fin 256) (it : Item) (w : Work) (slot : _), slot = w.jslot.getD (Tab.lowest u.lay.journal) ∧ s.RunsWork k c Rt.journalPut u it w ∧ journalSlots ≤ slot) ∧
    (∃ (s : State) (u : State) (k : Fin 12) (c : Fin 256) (it : Item) (w : Work) (slot : _), slot = w.jslot.getD (Tab.lowest u.lay.journal) ∧ s.RunsWork k c Rt.journalPut u it w ∧ slot < journalSlots) ∧
    (∃ (s : State) (u : State) (k : Fin 12) (c : Fin 256) (it : Item) (w : Work), s.RunsWork k c Rt.journalRetire u it w) ∧
    (∃ (s : State) (k : Fin 12), (∀ it ∈ s.cmd.items, ∀ p, it.wait ≠ .lane p)) ∧
    (∃ (s : State) (k : Fin 12), s.lay.parity.find? (fun r => r.cluster == k.val) = none) ∧
    (∃ (s : State) (it : Item) (p : Nat), s.cmd.items.find? (fun it => match it.wait with | .lane _ => true | _ => false) = some it ∧ it.wait = .lane p) ∧
    (∃ (s : State) (k : Fin 12) (q : ParReq), s.lay.parity.find? (fun r => r.cluster == k.val) = some q) :=
  ⟨⟨onS, 0, 3, .inl (by decide +kernel)⟩,
   ⟨dirtyS, 0, 3, slotR 3 Rt.destageStep, 0, { stripe := 0, tick := 5, redo := none, bay := none, after := 0 }, by decide +kernel⟩,
   ⟨workS poolS { destageW with rows := [] } Rt.parityPlan 1, _, 0, 3, _, { destageW with rows := [] }, _, _, _, rfl, rfl, rfl, runsWork_of (r := slotR 3 Rt.parityPlan) (x := workI Rt.parityPlan 1) (by decide +kernel), by decide +kernel⟩,
   ⟨workS poolS readW Rt.parityPlan 1, _, 0, 3, _, readW, _, _, _, _, rfl, rfl, rfl, rfl, runsWork_of (r := slotR 3 Rt.parityPlan) (x := workI Rt.parityPlan 1) (by decide +kernel), by decide +kernel⟩,
   ⟨workS poolS destageW Rt.parityPlan 1, _, 0, 3, _, destageW, _, _, _, _, rfl, rfl, rfl, rfl, runsWork_of (r := slotR 3 Rt.parityPlan) (x := workI Rt.parityPlan 1) (by decide +kernel), by decide +kernel⟩,
   ⟨workS poolS readW Rt.parityPlan 2, _, 0, 3, _, readW, runsWork_of (r := slotR 3 Rt.parityPlan) (x := workI Rt.parityPlan 2) (by decide +kernel), by decide +kernel⟩,
   ⟨workS poolS { workW .repair [] with jslot := some 1048576 } Rt.journalPut 1, _, 0, 3, _, { workW .repair [] with jslot := some 1048576 }, _, rfl, runsWork_of (r := slotR 3 Rt.journalPut) (x := workI Rt.journalPut 1) (by decide +kernel), by decide +kernel⟩,
   ⟨workS poolS (workW .repair []) Rt.journalPut 1, _, 0, 3, _, (workW .repair []), _, rfl, runsWork_of (r := slotR 3 Rt.journalPut) (x := workI Rt.journalPut 1) (by decide +kernel), by decide +kernel⟩,
   ⟨workS poolS { workW .repair [] with jslot := some 1048575 } Rt.journalRetire 1, _, 0, 3, _, { workW .repair [] with jslot := some 1048575 }, runsWork_of (r := slotR 3 Rt.journalRetire) (x := workI Rt.journalRetire 1) (by decide +kernel)⟩,
   ⟨onS, 0, nil_all (by decide +kernel)⟩,
   ⟨onS, 11, by decide +kernel⟩,
   ⟨withI runS { itemOf (.wb 0) 1 0 1 with wait := .lane 9 }, { itemOf (.wb 0) 1 0 1 with wait := .lane 9 }, 9, by decide +kernel⟩,
   ⟨{ runS with lay := { runS.lay with parity := [⟨11, .work 1, 9⟩] } }, 11, ⟨11, .work 1, 9⟩, by decide +kernel⟩⟩

theorem witness_MaintenanceSteps_1 :
    (∃ (s : State) (t : State) (k : Fin 12) (c : Fin 256) (r : SlotRun) (p : Nat), s.Opens k c Rt.rebuildStep r p ∧ ((s.pool p).acts.filter (·.isPass)).findSome? (s.beginRebuild p k) = some t) ∧
    (∃ (s : State) (p : Nat) (k : Nat) (st : Nat) (a : Activity) (ts : _) (charge : _), ts = (s.pool p).targetsIn a st ∧ charge = ts.1.length * (s.pool p).strip * 1000 ∧ (∀ r, (s.pool p).resync = some r → r.full = true) ∧ (s.pool p).passStripe a a.issued = some st ∧ a.st = .running ∧ (s.pool p).unsynced st = false ∧ s.mayBegin p k st charge a = true ∧ ts.1 = []) ∧
    (∃ (s : State) (p : Nat) (k : Nat) (st : Nat) (a : Activity) (ts : _) (charge : _), ts = (s.pool p).targetsIn a st ∧ charge = ts.1.length * (s.pool p).strip * 1000 ∧ (∀ r, (s.pool p).resync = some r → r.full = true) ∧ (s.pool p).passStripe a a.issued = some st ∧ a.st = .running ∧ (s.pool p).unsynced st = false ∧ s.mayBegin p k st charge a = true ∧ ts.1 ≠ []) ∧
    (∃ (s : State) (p : Nat) (k : Nat) (st : Nat) (a : Activity) (ts : _) (charge : _), ts = (s.pool p).targetsIn a st ∧ charge = ts.1.length * (s.pool p).strip * 1000 ∧ (∀ r, (s.pool p).resync = some r → r.full = true) ∧ (s.pool p).passStripe a a.issued = some st ∧ a.st = .running ∧ (s.pool p).unsynced st = true ∧ ts.1 ≠ [] ∧ s.poolCluster p st = k) ∧
    (∃ (s : State) (u : State) (k : Fin 12) (c : Fin 256) (it : Item) (w : Work) (id : Nat) (a : Activity) (P : _) (ts : _) (copied : _), P = u.pool w.pool ∧ ts = (P.targetsIn a w.stripe).1 ∧ copied = ((List.range P.u).all fun r => ts.all fun j => (P.present w r).contains j) ∧ s.RunsWork k c Rt.rebuildStep u it w ∧ w.kind = .rebuild id ∧ (u.pool w.pool).acts.find? (·.id == id) = some a ∧ P.rebuildLost w ts = true) ∧
    (∃ (s : State) (u : State) (k : Fin 12) (c : Fin 256) (it : Item) (w : Work) (id : Nat) (a : Activity) (P : _) (ts : _) (copied : _), P = u.pool w.pool ∧ ts = (P.targetsIn a w.stripe).1 ∧ copied = ((List.range P.u).all fun r => ts.all fun j => (P.present w r).contains j) ∧ s.RunsWork k c Rt.rebuildStep u it w ∧ w.kind = .rebuild id ∧ (u.pool w.pool).acts.find? (·.id == id) = some a ∧ P.rebuildLost w ts = false ∧ P.rebuildNeed w ts ≠ []) ∧
    (∃ (s : State) (u : State) (k : Fin 12) (c : Fin 256) (it : Item) (w : Work) (id : Nat) (a : Activity) (P : _) (ts : _) (copied : _), P = u.pool w.pool ∧ ts = (P.targetsIn a w.stripe).1 ∧ copied = ((List.range P.u).all fun r => ts.all fun j => (P.present w r).contains j) ∧ s.RunsWork k c Rt.rebuildStep u it w ∧ w.kind = .rebuild id ∧ (u.pool w.pool).acts.find? (·.id == id) = some a ∧ P.rebuildLost w ts = false ∧ P.rebuildNeed w ts = [] ∧ copied = true) ∧
    (∃ (s : State) (u : State) (k : Fin 12) (c : Fin 256) (it : Item) (w : Work) (id : Nat) (a : Activity) (P : _) (ts : _) (copied : _), P = u.pool w.pool ∧ ts = (P.targetsIn a w.stripe).1 ∧ copied = ((List.range P.u).all fun r => ts.all fun j => (P.present w r).contains j) ∧ s.RunsWork k c Rt.rebuildStep u it w ∧ w.kind = .rebuild id ∧ (u.pool w.pool).acts.find? (·.id == id) = some a ∧ P.rebuildLost w ts = false ∧ P.rebuildNeed w ts = [] ∧ copied = false) ∧
    (∃ (s : State) (k : Fin 12) (c : Fin 256) (r : SlotRun) (p : Nat) (st : Nat) (a : Activity), s.Opens k c Rt.scrubStep r p ∧ (s.pool p).acts.find? (fun a => a.kind == 1 && a.st == .running) = some a ∧ covStripe a.issued a.cov = some st ∧ (s.pool p).resync = none ∧ s.mayBegin p k st ((s.pool p).stripeCharge st) a = true) ∧
    (∃ (s : State) (u : State) (k : Fin 12) (c : Fin 256) (it : Item) (w : Work) (P : _) (fs : _) (puts : _), P = u.pool w.pool ∧ fs = ((List.range P.u).map fun r => P.scrubRow w r) ∧ puts = fs.flatMap (·.puts) ∧ s.RunsWork k c Rt.scrubStep u it w ∧ P.allNeed w ≠ []) ∧
    (∃ (s : State) (u : State) (k : Fin 12) (c : Fin 256) (it : Item) (w : Work) (P : _) (fs : _) (puts : _), P = u.pool w.pool ∧ fs = ((List.range P.u).map fun r => P.scrubRow w r) ∧ puts = fs.flatMap (·.puts) ∧ s.RunsWork k c Rt.scrubStep u it w ∧ P.allNeed w = [] ∧ fs.any (·.lost) = true) ∧
    (∃ (s : State) (u : State) (k : Fin 12) (c : Fin 256) (it : Item) (w : Work) (P : _) (fs : _) (puts : _), P = u.pool w.pool ∧ fs = ((List.range P.u).map fun r => P.scrubRow w r) ∧ puts = fs.flatMap (·.puts) ∧ s.RunsWork k c Rt.scrubStep u it w ∧ P.allNeed w = [] ∧ fs.any (·.lost) = false ∧ puts = []) ∧
    (∃ (s : State) (u : State) (k : Fin 12) (c : Fin 256) (it : Item) (w : Work) (P : _) (fs : _) (puts : _), P = u.pool w.pool ∧ fs = ((List.range P.u).map fun r => P.scrubRow w r) ∧ puts = fs.flatMap (·.puts) ∧ s.RunsWork k c Rt.scrubStep u it w ∧ P.allNeed w = [] ∧ fs.any (·.lost) = false ∧ puts ≠ []) :=
  ⟨⟨passS, _, 0, 3, slotR 3 Rt.rebuildStep, 0, opens_of (by decide +kernel), (Option.some_get (by decide +kernel)).symm⟩,
   ⟨passT { passA with targets := [] }, 0, 0, 0, { passA with targets := [] }, _, _, rfl, rfl, none_all (by decide +kernel), by decide +kernel⟩,
   ⟨passS, 0, 0, 0, passA, _, _, rfl, rfl, none_all (by decide +kernel), by decide +kernel⟩,
   ⟨passS.updPool 0 (fun P => { P with resync := some ⟨true, [], 0, [], 1, 0, 0⟩ }), 0, 0, 0, passA, _, _, rfl, rfl, some_all (y := ⟨true, [], 0, [], 1, 0, 0⟩) (by decide +kernel) rfl, by decide +kernel⟩,
   ⟨workS passS { workW (.rebuild 2) [] with bad := (List.range 4).map fun j => (0, 0, j) } Rt.rebuildStep 1, _, 0, 3, _, { workW (.rebuild 2) [] with bad := (List.range 4).map fun j => (0, 0, j) }, 2, passA, _, _, _, rfl, rfl, rfl, runsWork_of (r := slotR 3 Rt.rebuildStep) (x := workI Rt.rebuildStep 1) (by decide +kernel), by decide +kernel⟩,
   ⟨workS passS (workW (.rebuild 2) []) Rt.rebuildStep 1, _, 0, 3, _, (workW (.rebuild 2) []), 2, passA, _, _, _, rfl, rfl, rfl, runsWork_of (r := slotR 3 Rt.rebuildStep) (x := workI Rt.rebuildStep 1) (by decide +kernel), by decide +kernel⟩,
   ⟨workS (passT { passA with targets := [] }) (workW (.rebuild 2) []) Rt.rebuildStep 1, _, 0, 3, _, (workW (.rebuild 2) []), 2, { passA with targets := [] }, _, _, _, rfl, rfl, rfl, runsWork_of (r := slotR 3 Rt.rebuildStep) (x := workI Rt.rebuildStep 1) (by decide +kernel), by decide +kernel⟩,
   ⟨workS passS (workW (.rebuild 2) (rowsOf [0])) Rt.rebuildStep 1, _, 0, 3, _, (workW (.rebuild 2) (rowsOf [0])), 2, passA, _, _, _, rfl, rfl, rfl, runsWork_of (r := slotR 3 Rt.rebuildStep) (x := workI Rt.rebuildStep 1) (by decide +kernel), by decide +kernel⟩,
   ⟨poolT (fun P => { P with acts := [scrubbingA] }), 0, 3, slotR 3 Rt.scrubStep, 0, 0, scrubbingA, opens_of (by decide +kernel), by decide +kernel⟩,
   ⟨workS poolS (workW (.scrub 4) []) Rt.scrubStep 2, _, 0, 3, _, (workW (.scrub 4) []), _, _, _, rfl, rfl, rfl, runsWork_of (r := slotR 3 Rt.scrubStep) (x := workI Rt.scrubStep 2) (by decide +kernel), by decide +kernel⟩,
   ⟨workS poolS { workW (.scrub 4) ((rowsOf [0]).filter fun v => v.row != 0 || v.pos == 3) with bad := [(0, 0, 0), (0, 0, 1), (0, 0, 2)] } Rt.scrubStep 2, _, 0, 3, _, { workW (.scrub 4) ((rowsOf [0]).filter fun v => v.row != 0 || v.pos == 3) with bad := [(0, 0, 0), (0, 0, 1), (0, 0, 2)] }, _, _, _, rfl, rfl, rfl, runsWork_of (r := slotR 3 Rt.scrubStep) (x := workI Rt.scrubStep 2) (by decide +kernel), by decide +kernel⟩,
   ⟨workS poolS (workW (.scrub 4) (rowsOf [0])) Rt.scrubStep 2, _, 0, 3, _, (workW (.scrub 4) (rowsOf [0])), _, _, _, rfl, rfl, rfl, runsWork_of (r := slotR 3 Rt.scrubStep) (x := workI Rt.scrubStep 2) (by decide +kernel), by decide +kernel⟩,
   ⟨workS poolS (workW (.scrub 4) (rowsOf [1])) Rt.scrubStep 2, _, 0, 3, _, (workW (.scrub 4) (rowsOf [1])), _, _, _, rfl, rfl, rfl, runsWork_of (r := slotR 3 Rt.scrubStep) (x := workI Rt.scrubStep 2) (by decide +kernel), by decide +kernel⟩⟩

theorem witness_MaintenanceSteps_2 :
    (∃ (s : State) (t : State) (k : Fin 12) (c : Fin 256) (r : SlotRun) (p : Nat), s.Opens k c Rt.resyncStep r p ∧ State.beginSync k s p = some t) ∧
    (∃ (s : State) (p : Nat) (k : Nat) (st : Nat) (cause : Nat) (P : Pool), P = s.pool p ∧ s.maintWorks p < s.inflightMax p ∧ P.poison.find? (fun m => s.poolCluster p m.1 == k && !s.stripeHeld p m.1) = some (st, cause)) ∧
    (∃ (s : State) (u : State) (k : Fin 12) (c : Fin 256) (it : Item) (w : Work) (cause : _), s.RunsWork k c Rt.resyncStep u it w ∧ w.kind = .mark cause) ∧
    (∃ (s : State) (u : State) (k : Fin 12) (c : Fin 256) (it : Item) (w : Work) (a : _), s.RunsWork k c Rt.resyncStep u it w ∧ w.kind = .sanitize a) ∧
    (∃ (s : State) (u : State) (k : Fin 12) (c : Fin 256) (it : Item) (w : Work) (v : _) (V : _), V = u.vol v ∧ s.RunsWork k c Rt.resyncStep u it w ∧ w.kind = .init v ∧ w.st = .planned ∧ V.key.isSome = true) ∧
    (∃ (s : State) (u : State) (k : Fin 12) (c : Fin 256) (it : Item) (w : Work) (v : _) (V : _), V = u.vol v ∧ s.RunsWork k c Rt.resyncStep u it w ∧ w.kind = .init v ∧ (w.st ≠ .planned ∨ V.key = none)) ∧
    (∃ (s : State) (u : State) (k : Fin 12) (c : Fin 256) (it : Item) (w : Work) (P : _) (slot : _) (fs : _) (un : _), P = u.pool w.pool ∧ fs = ((List.range P.u).map fun r => u.syncRow P w r) ∧ un = fs.any (·.unchecked) ∧ s.RunsWork k c Rt.resyncStep u it w ∧ w.kind = .resync slot ∧ slot.isSome = true ∧ P.isLost w.stripe = true) ∧
    (∃ (s : State) (u : State) (k : Fin 12) (c : Fin 256) (it : Item) (w : Work) (P : _) (slot : _) (need : _) (fs : _) (un : _), P = u.pool w.pool ∧ need = ((if (List.range P.u).all (fun r => decide (2 ≤ (P.absent w r).length)) = true then [] else P.allNeed w)) ∧ fs = ((List.range P.u).map fun r => u.syncRow P w r) ∧ un = fs.any (·.unchecked) ∧ s.RunsWork k c Rt.resyncStep u it w ∧ w.kind = .resync slot ∧ (slot = none ∨ P.isLost w.stripe = false) ∧ need ≠ []) ∧
    (∃ (s : State) (u : State) (k : Fin 12) (c : Fin 256) (it : Item) (w : Work) (P : _) (slot : _) (need : _) (fs : _) (puts : _) (lost : _) (un : _), P = u.pool w.pool ∧ need = ((if (List.range P.u).all (fun r => decide (2 ≤ (P.absent w r).length)) = true then [] else P.allNeed w)) ∧ fs = ((List.range P.u).map fun r => u.syncRow P w r) ∧ puts = fs.flatMap (·.puts) ∧ lost = fs.any (·.lost) ∧ un = fs.any (·.unchecked) ∧ s.RunsWork k c Rt.resyncStep u it w ∧ w.kind = .resync slot ∧ (slot = none ∨ P.isLost w.stripe = false) ∧ need = [] ∧ (lost = true ∨ puts = [])) ∧
    (∃ (s : State) (u : State) (k : Fin 12) (c : Fin 256) (it : Item) (w : Work) (P : _) (slot : _) (need : _) (fs : _) (puts : _) (lost : _) (un : _), P = u.pool w.pool ∧ need = ((if (List.range P.u).all (fun r => decide (2 ≤ (P.absent w r).length)) = true then [] else P.allNeed w)) ∧ fs = ((List.range P.u).map fun r => u.syncRow P w r) ∧ puts = fs.flatMap (·.puts) ∧ lost = fs.any (·.lost) ∧ un = fs.any (·.unchecked) ∧ s.RunsWork k c Rt.resyncStep u it w ∧ w.kind = .resync slot ∧ (slot = none ∨ P.isLost w.stripe = false) ∧ need = [] ∧ lost = false ∧ puts ≠ []) ∧
    (∃ (s : State) (u : State) (k : Fin 12) (c : Fin 256) (it : Item) (w : Work) (raw : List (Nat × Nat × List Byte)), raw = (u.pool w.pool).bays.flatMap (fun b => ((w.fors.flatMap (u.flushBytes w.pool)).eraseDups).map fun g => (b, g.1, g.2)) ∧ s.RunsWork k c Rt.metaFlush u it w ∧ raw = []) ∧
    (∃ (s : State) (u : State) (k : Fin 12) (c : Fin 256) (it : Item) (w : Work) (raw : List (Nat × Nat × List Byte)), raw = (u.pool w.pool).bays.flatMap (fun b => ((w.fors.flatMap (u.flushBytes w.pool)).eraseDups).map fun g => (b, g.1, g.2)) ∧ s.RunsWork k c Rt.metaFlush u it w ∧ raw ≠ []) :=
  ⟨⟨poolT (fun P => { P with poison := [(0, 3)] }), _, 0, 3, slotR 3 Rt.resyncStep, 0, opens_of (by decide +kernel), (Option.some_get (by decide +kernel)).symm⟩,
   ⟨poolT (fun P => { P with poison := [(0, 3)] }), 0, 0, 0, 3, _, rfl, by decide +kernel⟩,
   ⟨workS poolS (workW (.mark 3) []) Rt.resyncStep 1, _, 0, 3, _, (workW (.mark 3) []), 3, runsWork_of (r := slotR 3 Rt.resyncStep) (x := workI Rt.resyncStep 1) (by decide +kernel), by decide +kernel⟩,
   ⟨workS poolS (workW (.sanitize 7) []) Rt.resyncStep 1, _, 0, 3, _, (workW (.sanitize 7) []), 7, runsWork_of (r := slotR 3 Rt.resyncStep) (x := workI Rt.resyncStep 1) (by decide +kernel), by decide +kernel⟩,
   ⟨workS (keylessS poolS) (workW (.init 0) []) Rt.resyncStep 1, _, 0, 3, _, (workW (.init 0) []), 0, _, rfl, runsWork_of (r := slotR 3 Rt.resyncStep) (x := workI Rt.resyncStep 1) (by decide +kernel), by decide +kernel⟩,
   ⟨workS poolS (workW (.init 0) []) Rt.resyncStep 2, _, 0, 3, _, (workW (.init 0) []), 0, _, rfl, runsWork_of (r := slotR 3 Rt.resyncStep) (x := workI Rt.resyncStep 2) (by decide +kernel), by decide +kernel⟩,
   ⟨workS (poolT fun P => { P with lost := [⟨0, 1, 1, 0, 0⟩] }) (workW (.resync (some 5)) []) Rt.resyncStep 2, _, 0, 3, _, (workW (.resync (some 5)) []), _, some 5, _, _, rfl, rfl, rfl, runsWork_of (r := slotR 3 Rt.resyncStep) (x := workI Rt.resyncStep 2) (by decide +kernel), by decide +kernel⟩,
   ⟨workS poolS (workW (.resync (some 5)) []) Rt.resyncStep 2, _, 0, 3, _, (workW (.resync (some 5)) []), _, some 5, _, _, _, rfl, rfl, rfl, rfl, runsWork_of (r := slotR 3 Rt.resyncStep) (x := workI Rt.resyncStep 2) (by decide +kernel), by decide +kernel⟩,
   ⟨workS poolS (workW (.resync none) (rowsOf [0])) Rt.resyncStep 2, _, 0, 3, _, (workW (.resync none) (rowsOf [0])), _, none, _, _, _, _, _, rfl, rfl, rfl, rfl, rfl, rfl, runsWork_of (r := slotR 3 Rt.resyncStep) (x := workI Rt.resyncStep 2) (by decide +kernel), by decide +kernel⟩,
   ⟨workS poolS (workW (.resync none) (rowsOf [1])) Rt.resyncStep 2, _, 0, 3, _, (workW (.resync none) (rowsOf [1])), _, none, _, _, _, _, _, rfl, rfl, rfl, rfl, rfl, rfl, runsWork_of (r := slotR 3 Rt.resyncStep) (x := workI Rt.resyncStep 2) (by decide +kernel), by decide +kernel⟩,
   ⟨workS poolS (workW (.flush 0) []) Rt.metaFlush 1, _, 0, 3, _, (workW (.flush 0) []), _, rfl, runsWork_of (r := slotR 3 Rt.metaFlush) (x := workI Rt.metaFlush 1) (by decide +kernel), by decide +kernel⟩,
   ⟨workS (poolT fun P => { P with lost := [⟨0, 1, 1, 0, 0⟩] }) { workW (.flush 0) [] with fors := [.mark 0 0] } Rt.metaFlush 1, _, 0, 3, _, { workW (.flush 0) [] with fors := [.mark 0 0] }, _, rfl, runsWork_of (r := slotR 3 Rt.metaFlush) (x := workI Rt.metaFlush 1) (by decide +kernel), by decide +kernel⟩⟩

theorem witness_PortsAreControlled :
    (∃ (s : State) (u : State) (p : Fin 16) (w : Word), u = s.regWrite (Reg.MAC_CTL p) w ∧ s.mgtReady = true ∧ Fd.MAC_CTL_ENABLE.get w = 1 ∧ s.fld (Reg.MAC_CTL p) Fd.MAC_CTL_ENABLE = 0) ∧
    (∃ (s : State) (u : State) (p : Fin 16) (w : Word), u = s.regWrite (Reg.MAC_CTL p) w ∧ s.mgtReady = true ∧ (Fd.MAC_CTL_ENABLE.get w ≠ 1 ∨ s.fld (Reg.MAC_CTL p) Fd.MAC_CTL_ENABLE ≠ 0)) ∧
    (∃ (s : State) (u : State) (p : Fin 16) (w : Word), u = s.regWrite (Reg.MAC_CTL p) w ∧ s.mgtReady = true ∧ Fd.MAC_CTL_ENABLE.get w = 0 ∧ u.fld (Reg.MAC_CTL p) Fd.MAC_CTL_ENABLE = 1) ∧
    (∃ (s : State) (u : State) (p : Fin 16) (w : Word), u = s.regWrite (Reg.MAC_CTL p) w ∧ s.mgtReady = true ∧ (Fd.MAC_CTL_ENABLE.get w ≠ 0 ∨ u.fld (Reg.MAC_CTL p) Fd.MAC_CTL_ENABLE ≠ 1)) ∧
    (∃ (s : State) (u : State) (p : Fin 16) (w : Word), u = s.regWrite (Reg.MAC_CTL p) w ∧ s.mgtReady = true ∧ Fd.MAC_CTL_RESET.get w = 0) ∧
    (∃ (s : State) (u : State) (p : Fin 16) (w : Word), u = s.regWrite (Reg.MAC_CTL p) w ∧ s.mgtReady = true ∧ Fd.MAC_CTL_RESET.get w ≠ 0) :=
  ⟨⟨onS, _, 15, Fd.MAC_CTL_ENABLE.put 0 1, rfl, by decide +kernel⟩,
   ⟨portS, _, 15, 0, rfl, by decide +kernel⟩,
   ⟨portS, _, 15, 0, rfl, by decide +kernel⟩,
   ⟨onS, _, 15, 0, rfl, by decide +kernel⟩,
   ⟨onS, _, 15, 0, rfl, by decide +kernel⟩,
   ⟨onS, _, 15, Fd.MAC_CTL_RESET.put 0 1, rfl, by decide +kernel⟩⟩

theorem witness_LinksComeUpAndPause_1 :
    (∃ (s : State) (m : Fin 128), (s.lport m).step = 2 ∧ s.lportExists m = true) ∧
    (∃ (s : State) (m : Fin 128) (u : _), u = (s.setLanes m Fd.MAC_STATUS_CAL_OK false).updLport m (fun x => { x with calFails := x.calFails + 1 }) ∧ (s.lport m).step = 2 ∧ s.lportExists m = true) ∧
    (∃ (s : State) (m : Fin 128), ((s.lport m).step ≠ 2 ∨ s.lportExists m = false)) ∧
    (∃ (s : State) (m : Fin 128), (s.lport m).step = 3) ∧
    (∃ (s : State) (m : Fin 128), (s.lport m).step ≠ 3) ∧
    (∃ (s : State) (m : Fin 128), (s.lport m).step = 4) ∧
    (∃ (s : State) (m : Fin 128), (s.lport m).step ≠ 4) ∧
    (∃ (s : State) (m : Fin 128), (s.lport m).step = 5) ∧
    (∃ (s : State) (m : Fin 128), (s.lport m).step = 8 ∧ (s.lport m).pendDown = 0) ∧
    (∃ (s : State) (m : Fin 128), (s.lport m).step ≠ 5 ∧ ((s.lport m).step ≠ 8 ∨ (s.lport m).pendDown ≠ 0)) ∧
    (∃ (s : State) (m : Fin 128), (s.lport m).step ≠ 8) :=
  ⟨⟨upS, 0, by decide +kernel⟩,
   ⟨upS, 0, _, rfl, by decide +kernel⟩,
   ⟨onS, 127, by decide +kernel⟩,
   ⟨stepS 3, 0, by decide +kernel⟩,
   ⟨onS, 127, by decide +kernel⟩,
   ⟨stepS 4, 0, by decide +kernel⟩,
   ⟨onS, 127, by decide +kernel⟩,
   ⟨stepS 5, 0, by decide +kernel⟩,
   ⟨stepS 8, 0, by decide +kernel⟩,
   ⟨onS, 127, by decide +kernel⟩,
   ⟨onS, 127, by decide +kernel⟩⟩

theorem witness_LinksComeUpAndPause_2 :
    (∃ (s : State) (m : Fin 128), (s.lport m).step = 6) ∧
    (∃ (s : State) (m : Fin 128), (s.lport m).step ≠ 6) ∧
    (∃ (s : State) (m : Fin 128) (vec : BitVec 8) (quanta : List Nat), s.passes m = true) ∧
    (∃ (s : State) (m : Fin 128) (vec : BitVec 8) (quanta : List Nat), s.passes m = false) ∧
    (∃ (s : State) (m : Fin 128) (i : Fin 8) (f : _), s.xoff m i = true ∧ s.egressUp m = true ∧ Tab.rd (fun _ => none) s.net.tx m.val = some f) ∧
    (∃ (s : State) (m : Fin 128) (i : Fin 8), s.xoff m i = true ∧ s.egressUp m = true ∧ Tab.rd (fun _ => none) s.net.tx m.val = none ∧ s.netOn = true) ∧
    (∃ (s : State) (m : Fin 128) (i : Fin 8), (s.xoff m i = false ∨ s.egressUp m = false)) ∧
    (∃ (s : State), s.Inv ∧ s.ptpState = 0) ∧
    (∃ (s : State), s.Inv ∧ s.ptpState ≠ 0) ∧
    (∃ (s : State), s.Inv ∧ s.atSeam = true ∧ s.itn.tick % 256 = 255 ∧ s.flag Reg.MAC_PTP_CTL Fd.MAC_PTP_CTL_DISCIPLINE_EN = true ∧ s.ptpState = 3 ∧ s.isStandby = false ∧ s.net.trimTick ≠ some s.now) ∧
    (∃ (s : State), s.Inv ∧ (s.atSeam = false ∨ s.itn.tick % 256 ≠ 255 ∨ s.flag Reg.MAC_PTP_CTL Fd.MAC_PTP_CTL_DISCIPLINE_EN = false ∨ s.ptpState ≠ 3 ∨ s.isStandby = true ∨ s.net.trimTick = some s.now)) :=
  ⟨⟨stepS 6, 0, by decide +kernel⟩,
   ⟨onS, 127, by decide +kernel⟩,
   ⟨netS, 0, 128, [], by decide +kernel⟩,
   ⟨onS, 127, 128, [], by decide +kernel⟩,
   ⟨{ (netS.setFld (Reg.MAC_LP_STATUS 0) Fd.MAC_LP_STATUS_XOFF_SENT 128) with net := { netS.net with tx := [(0, some egF)] } }, 0, 7, egF, by decide +kernel⟩,
   ⟨(netS.setFld (Reg.MAC_LP_STATUS 0) Fd.MAC_LP_STATUS_XOFF_SENT 128), 0, 7, by decide +kernel⟩,
   ⟨onS, 127, 7, by decide +kernel⟩,
   ⟨onS, inv_of (by decide +kernel), by decide +kernel⟩,
   ⟨ptpS 3 0, inv_of (by decide +kernel), by decide +kernel⟩,
   ⟨atS (ptpS 255 0), inv_of (by decide +kernel), by decide +kernel⟩,
   ⟨ptpS 255 0, inv_of (by decide +kernel), by decide +kernel⟩⟩

theorem witness_FramesAreLookedUp :
    (∃ (s : State) (m : Fin 128) (bytes : List Byte) (cycle : Fin 2048) (f : _), (s.passes m = false ∨ Tab.rd (fun _ => none) s.net.rx m.val = some f ∨ s.itn.dumpPlan = true)) ∧
    (∃ (s : State) (m : Fin 128) (bytes : List Byte) (cycle : Fin 2048), s.passes m = true ∧ Tab.rd (fun _ => none) s.net.rx m.val = none ∧ s.itn.dumpPlan = false ∧ (s.netOn = false ∨ s.joinHold = true)) ∧
    (∃ (s : State) (m : Fin 128) (bytes : List Byte) (cycle : Fin 2048) (h : _) (L : _) (c : _) (d : _) (u : _) (a : _), h = parseHdr bytes ∧ L = h.len (s.maxFrame m) ∧ c = cellsOf L ∧ d = (s.destOf m bytes).1 ∧ u = s.countDropped m h bytes ∧ a = u.areaOf m h.prio c d bytes ∧ s.passes m = true ∧ Tab.rd (fun _ => none) s.net.rx m.val = none ∧ s.itn.dumpPlan = false ∧ s.netOn = true ∧ s.joinHold = false ∧ a = .none ∧ d.isDrop = false) ∧
    (∃ (s : State) (m : Fin 128) (bytes : List Byte) (cycle : Fin 2048) (h : _) (L : _) (c : _) (d : _) (u : _) (a : _) (pair : _), h = parseHdr bytes ∧ L = h.len (s.maxFrame m) ∧ c = cellsOf L ∧ d = (s.destOf m bytes).1 ∧ u = s.countDropped m h bytes ∧ a = u.areaOf m h.prio c d bytes ∧ pair = u.copied m bytes ∧ s.passes m = true ∧ Tab.rd (fun _ => none) s.net.rx m.val = none ∧ s.itn.dumpPlan = false ∧ s.netOn = true ∧ s.joinHold = false ∧ (a ≠ .none ∨ d.isDrop = true) ∧ u.convoyFree < copiesOf d pair * c) ∧
    (∃ (s : State) (m : Fin 128) (bytes : List Byte) (cycle : Fin 2048) (h : _) (L : _) (c : _) (d : _) (u : _) (a : _) (pair : _), h = parseHdr bytes ∧ L = h.len (s.maxFrame m) ∧ c = cellsOf L ∧ d = (s.destOf m bytes).1 ∧ u = s.countDropped m h bytes ∧ a = u.areaOf m h.prio c d bytes ∧ pair = u.copied m bytes ∧ s.passes m = true ∧ Tab.rd (fun _ => none) s.net.rx m.val = none ∧ s.itn.dumpPlan = false ∧ s.netOn = true ∧ s.joinHold = false ∧ (a ≠ .none ∨ d.isDrop = true) ∧ copiesOf d pair * c ≤ u.convoyFree ∧ (d ≠ .rdma ∨ u.ecnIn m h.prio bytes = false)) ∧
    (∃ (s : State) (m : Fin 128) (bytes : List Byte) (cycle : Fin 2048) (h : _) (L : _) (c : _) (d : _) (u : _) (a : _) (pair : _), h = parseHdr bytes ∧ L = h.len (s.maxFrame m) ∧ c = cellsOf L ∧ d = (s.destOf m bytes).1 ∧ u = s.countDropped m h bytes ∧ a = u.areaOf m h.prio c d bytes ∧ pair = u.copied m bytes ∧ s.passes m = true ∧ Tab.rd (fun _ => none) s.net.rx m.val = none ∧ s.itn.dumpPlan = false ∧ s.netOn = true ∧ s.joinHold = false ∧ (a ≠ .none ∨ d.isDrop = true) ∧ copiesOf d pair * c ≤ u.convoyFree ∧ d = .rdma ∧ u.ecnIn m h.prio bytes = true) :=
  ⟨⟨onS, 127, [], 5, rxF .rdma, by decide +kernel⟩,
   ⟨{ netS with straps := { netS.straps with pairEn := true } }, 0, roceB 0 4 5 0, 2047, by decide +kernel⟩,
   ⟨tightS, 0, roceB 0 4 5 0, 2047, _, _, _, _, _, _, rfl, rfl, rfl, rfl, rfl, rfl, by decide +kernel⟩,
   ⟨{ netS with net := { netS.net with convoyCells := 1000000 }, straps := { netS.straps with pairEn := true }, pair := { netS.pair with st := pairPaired, net := true } }, 0, roceB 0 4 5 0, 2047, _, _, _, _, _, _, _, rfl, rfl, rfl, rfl, rfl, rfl, rfl, by decide +kernel⟩,
   ⟨netS, 0, roceB 0 4 5 0, 2047, _, _, _, _, _, _, _, rfl, rfl, rfl, rfl, rfl, rfl, rfl, by decide +kernel⟩,
   ⟨ecnS, 0, roceB 2 4 5 0, 2047, _, _, _, _, _, _, _, rfl, rfl, rfl, rfl, rfl, rfl, rfl, by decide +kernel⟩⟩

theorem witness_FramesEndOrLeaveThePort :
    (∃ (s : State) (m : Fin 128) (rest : List Byte) (bad : Bool) (cycle : Fin 2048), Tab.rd (fun _ => none) s.net.rx m.val = none) ∧
    (∃ (s : State) (m : Fin 128) (rest : List Byte) (bad : Bool) (cycle : Fin 2048) (f : Frame), Tab.rd (fun _ => none) s.net.rx m.val = some f ∧ s.joinHold = true) ∧
    (∃ (s : State) (m : Fin 128) (rest : List Byte) (bad : Bool) (cycle : Fin 2048) (f : Frame) (u : _) (got : _) (n : _) (runt : _) (cut : _) (mismatch : _) (bytes : _) (c : _) (a : _) (b : _) (x : _) (y : _) (g : _) (z : _), u = { s with net := { s.net with rx := Tab.wr (fun _ => none) s.net.rx m none } } ∧ got = f.bytes.length + rest.length + 4 ∧ n = min got (s.maxFrame m + 1) ∧ runt = decide (got < 64) ∧ cut = decide (s.maxFrame m < got) ∧ mismatch = (!runt && (parseHdr f.bytes).ipVer != 0 && n != f.len) ∧ bytes = (f.bytes ++ rest).take (n - 4) ∧ c = min f.cells (cellsOf n) ∧ a = (u.cntMac m 0 1).cntMac m 1 n ∧ b = ((if runt then a.cntMac m 4 1 else a)) ∧ x = ((if mismatch then b.cntSwc 2 1 else b)) ∧ y = ((if bad || cut || mismatch then x.cntMac m 5 1 else x).returnExcess f c) ∧ g = ({ f with bytes := bytes, bad := bad || cut || mismatch || runt || f.bad, cells := c }) ∧ z = ((if !g.bad && !f.refused && y.classify m bytes == .other then y.learn m (parseHdr f.bytes).vlan (parseHdr f.bytes).src else y)) ∧ Tab.rd (fun _ => none) s.net.rx m.val = some f ∧ s.joinHold = false ∧ runt = true ∧ (f.dest = .rdma ∨ f.dest = .mgt ∨ f.dest = .ptp)) ∧
    (∃ (s : State) (m : Fin 128) (rest : List Byte) (bad : Bool) (cycle : Fin 2048) (f : Frame) (u : _) (got : _) (n : _) (runt : _) (cut : _) (mismatch : _) (bytes : _) (c : _) (a : _) (b : _) (x : _) (y : _) (g : _) (z : _), u = { s with net := { s.net with rx := Tab.wr (fun _ => none) s.net.rx m none } } ∧ got = f.bytes.length + rest.length + 4 ∧ n = min got (s.maxFrame m + 1) ∧ runt = decide (got < 64) ∧ cut = decide (s.maxFrame m < got) ∧ mismatch = (!runt && (parseHdr f.bytes).ipVer != 0 && n != f.len) ∧ bytes = (f.bytes ++ rest).take (n - 4) ∧ c = min f.cells (cellsOf n) ∧ a = (u.cntMac m 0 1).cntMac m 1 n ∧ b = ((if runt then a.cntMac m 4 1 else a)) ∧ x = ((if mismatch then b.cntSwc 2 1 else b)) ∧ y = ((if bad || cut || mismatch then x.cntMac m 5 1 else x).returnExcess f c) ∧ g = ({ f with bytes := bytes, bad := bad || cut || mismatch || runt || f.bad, cells := c }) ∧ z = ((if !g.bad && !f.refused && y.classify m bytes == .other then y.learn m (parseHdr f.bytes).vlan (parseHdr f.bytes).src else y)) ∧ Tab.rd (fun _ => none) s.net.rx m.val = some f ∧ s.joinHold = false ∧ (runt = false ∨ (f.dest ≠ .rdma ∧ f.dest ≠ .mgt ∧ f.dest ≠ .ptp))) ∧
    (∃ (s : State) (m : Fin 128), (s.lport m).step = 7) ∧
    (∃ (s : State) (m : Fin 128), (s.lport m).step = 6) ∧
    (∃ (s : State) (m : Fin 128), (s.lport m).step ≠ 6 ∧ (s.lport m).step ≠ 7) ∧
    (∃ (s : State) (u : State) (m : Fin 128) (f : EgFrame), Tab.rd (fun _ => none) s.net.tx m.val = none ∧ s.sends m = true ∧ s.netOn = true ∧ s.joinHold = false ∧ s.shaperOk m .port = true ∧ s.descend m 7 .port (s.eligible m) = (some f, u)) ∧
    (∃ (s : State) (u : State) (m : Fin 128) (f : EgFrame), Tab.rd (fun _ => none) s.net.tx m.val = none ∧ s.sends m = true ∧ s.netOn = true ∧ s.joinHold = false ∧ s.shaperOk m .port = true ∧ s.eligible m = []) ∧
    (∃ (s : State) (m : Fin 128) (f : EgFrame), (Tab.rd (fun _ => none) s.net.tx m.val = some f ∨ s.sends m = false ∨ s.netOn = false ∨ s.joinHold = true ∨ s.shaperOk m .port = false)) ∧
    (∃ (s : State) (m : Fin 128) (cycle : Fin 2048) (f : EgFrame), (Tab.rd (fun _ => none) s.net.tx m.val = none ∨ (Tab.rd (fun _ => none) s.net.tx m.val = some f ∧ f.src ≠ none))) ∧
    (∃ (s : State) (m : Fin 128) (cycle : Fin 2048) (f : EgFrame), Tab.rd (fun _ => none) s.net.tx m.val = some f ∧ f.src = none) :=
  ⟨⟨onS, 127, [], true, 5, by decide +kernel⟩,
   ⟨{ holdS with net := ({ netS with net := { netS.net with rx := [(0, some { rxF .rdma with bytes := (roceB 0 4 5 0).take 54 })] } } : State).net }, 0, [], true, 5, { rxF .rdma with bytes := (roceB 0 4 5 0).take 54 }, by decide +kernel⟩,
   ⟨{ netS with net := { netS.net with rx := [(0, some { rxF .rdma with bytes := (roceB 0 4 5 0).take 54 })] } }, 0, [], false, 5, { rxF .rdma with bytes := (roceB 0 4 5 0).take 54 }, _, _, _, _, _, _, _, _, _, _, _, _, _, _, rfl, rfl, rfl, rfl, rfl, rfl, rfl, rfl, rfl, rfl, rfl, rfl, rfl, rfl, by decide +kernel⟩,
   ⟨{ netS with net := { netS.net with rx := [(0, some { rxF .rdma with bytes := (roceB 0 4 5 0).take 54 })] } }, 0, (roceB 0 4 5 0).drop 54, false, 5, { rxF .rdma with bytes := (roceB 0 4 5 0).take 54 }, _, _, _, _, _, _, _, _, _, _, _, _, _, _, rfl, rfl, rfl, rfl, rfl, rfl, rfl, rfl, rfl, rfl, rfl, rfl, rfl, rfl, by decide +kernel⟩,
   ⟨onS.setLport 127 { LPort.reset with step := 7 }, 127, by decide +kernel⟩,
   ⟨onS.setLport 127 { LPort.reset with step := 6 }, 127, by decide +kernel⟩,
   ⟨onS, 127, by decide +kernel⟩,
   ⟨{ netS with net := { netS.net with egress := [egF] } }, (({ netS with net := { netS.net with egress := [egF] } } : State).descend 0 7 .port (({ netS with net := { netS.net with egress := [egF] } } : State).eligible 0)).2, 0, egF, by decide +kernel⟩,
   ⟨netS, netS, 0, egF, by decide +kernel⟩,
   ⟨onS, 127, egF, by decide +kernel⟩,
   ⟨onS, 127, 2047, egF, by decide +kernel⟩,
   ⟨{ netS with net := { netS.net with tx := [(0, some egF)] } }, 0, 2047, egF, by decide +kernel⟩⟩

/-- A PTP message of this type over Ethernet, domain 0, and an ARP request, for management firmware. -/
def ptpF (t : Byte) : Frame := { rxF .ptp with bytes := [1, 0x1B, 0x19, 0, 0, 0, 2, 0, 0, 0, 0, 2, 0x88, 0xF7, t, 2, 0, 44, 0, 0] ++ List.replicate 40 0 }
def arpF : Frame := { rxF .mgt with bytes := arpB }
def ptpM (st : Nat) (t : Byte) : State :=
  { (mgtS (ptpF t) 0).setFld Reg.MAC_PTP_STATUS Fd.MAC_PTP_STATUS_STATE st |>.setFld Reg.MAC_PTP_STATUS Fd.MAC_PTP_STATUS_CUR_SRC 0 with net := (mgtS (ptpF t) 0).net }

theorem witness_FirmwareAnswersFrames_1 :
    (∃ (s : State), (s.net.toMgt = [] ∨ s.fwRuns = false)) ∧
    (∃ (s : State) (u : State) (f : Frame) (rest : List Frame), u = ({ s with net := { s.net with toMgt := rest } }).freeCells f.acct f.cells ∧ s.net.toMgt = f :: rest ∧ s.fwRuns = true ∧ f.bad = true) ∧
    (∃ (s : State) (u : State) (f : Frame) (rest : List Frame) (dom : _), u = ({ s with net := { s.net with toMgt := rest } }).freeCells f.acct f.cells ∧ dom = beField f.bytes (ptpOff (parseHdr f.bytes) + 4) 1 ∧ s.net.toMgt = f :: rest ∧ s.fwRuns = true ∧ f.bad = false ∧ f.dest = .ptp ∧ (u.ptpState = 0 ∨ u.ptpHears f.m = false ∨ dom ≠ u.fld Reg.MAC_PTP_CTL Fd.MAC_PTP_CTL_DOMAIN)) ∧
    (∃ (s : State) (u : State) (f : Frame) (rest : List Frame) (dom : _), u = ({ s with net := { s.net with toMgt := rest } }).freeCells f.acct f.cells ∧ dom = beField f.bytes (ptpOff (parseHdr f.bytes) + 4) 1 ∧ s.net.toMgt = f :: rest ∧ s.fwRuns = true ∧ f.bad = false ∧ f.dest = .ptp ∧ (u.ptpState = 1 ∨ u.ptpState = 4) ∧ u.ptpHears f.m = true ∧ dom = u.fld Reg.MAC_PTP_CTL Fd.MAC_PTP_CTL_DOMAIN ∧ ptpType f.bytes = 0xB) ∧
    (∃ (s : State) (u : State) (f : Frame) (rest : List Frame), u = ({ s with net := { s.net with toMgt := rest } }).freeCells f.acct f.cells ∧ s.net.toMgt = f :: rest ∧ s.fwRuns = true ∧ f.bad = false ∧ f.dest ≠ .ptp ∧ (u.addr f.m f.entry = none ∨ u.netOn = false ∨ asks f.bytes = false)) ∧
    (∃ (s : State) (u : State) (f : Frame) (rest : List Frame) (a : _) (x : _), u = ({ s with net := { s.net with toMgt := rest } }).freeCells f.acct f.cells ∧ x = u.lport f.m ∧ s.net.toMgt = f :: rest ∧ s.fwRuns = true ∧ f.bad = false ∧ f.dest ≠ .ptp ∧ u.addr f.m f.entry = some a ∧ u.netOn = true ∧ asks f.bytes = true ∧ 4096 ≤ x.answers ∧ u.now < x.ansTick + 976563) ∧
    (∃ (s : State) (u : State) (f : Frame) (rest : List Frame) (a : _) (x : _), u = ({ s with net := { s.net with toMgt := rest } }).freeCells f.acct f.cells ∧ x = u.lport f.m ∧ s.net.toMgt = f :: rest ∧ s.fwRuns = true ∧ f.bad = false ∧ f.dest ≠ .ptp ∧ u.addr f.m f.entry = some a ∧ u.netOn = true ∧ asks f.bytes = true ∧ 0 < x.answers ∧ x.answers < 4096 ∧ u.now < x.ansTick + 976563) ∧
    (∃ (s : State) (u : State) (f : Frame) (rest : List Frame) (a : _) (x : _), u = ({ s with net := { s.net with toMgt := rest } }).freeCells f.acct f.cells ∧ x = u.lport f.m ∧ s.net.toMgt = f :: rest ∧ s.fwRuns = true ∧ f.bad = false ∧ f.dest ≠ .ptp ∧ u.addr f.m f.entry = some a ∧ u.netOn = true ∧ asks f.bytes = true ∧ (x.ansTick + 976563 ≤ u.now ∨ x.answers = 0)) ∧
    (∃ (s : State) (u : State) (d : Desc) (fields : _) (entry : _), u = s.start d ∧ fields = (decide (d.f 8 1 ≤ 127) && decide (d.f 9 1 ≤ 3) && decide (d.f 10 1 ≤ 1) && d.handle == 0 && d.f 23 1 == 0 && allZero (d.bytes 40 24)) ∧ entry = ((d.f 11 1 == 4 || d.f 11 1 == 6) && decide (d.f 12 2 ≤ 4094) && decide (d.f 14 1 ≤ 7) && decide (d.f 15 1 ≤ 63) && unicastMac (d.bytes 16 6) && decide (1 ≤ d.f 22 1) && decide (d.f 22 1 ≤ if d.f 11 1 = 4 then 32 else 128) && (d.f 11 1 != 4 || allZero (d.bytes 28 12)) && (d.f 12 2 != 0 || d.f 14 1 == d.f 15 1 / 8)) ∧ s.Takes Op.NET_ADDR_SET d ∧ (fields = false ∨ (d.f 10 1 ≠ 0 ∧ entry = false))) :=
  ⟨⟨onS, by decide +kernel⟩,
   ⟨mgtS { rxF .mgt with bad := true } 0, _, { rxF .mgt with bad := true }, [], rfl, by decide +kernel⟩,
   ⟨ptpM 0 0, _, ptpF 0, [], _, rfl, rfl, by decide +kernel⟩,
   ⟨ptpM 1 0xB, _, ptpF 0xB, [], _, rfl, rfl, by decide +kernel⟩,
   ⟨mgtS (rxF .mgt) 0, _, (rxF .mgt), [], rfl, by decide +kernel⟩,
   ⟨mgtS arpF 4096, _, arpF, [], (netS.addr 0 0).get (by decide +kernel), _, rfl, rfl, by decide +kernel⟩,
   ⟨mgtS arpF 4095, _, arpF, [], (netS.addr 0 0).get (by decide +kernel), _, rfl, rfl, by decide +kernel⟩,
   ⟨mgtS arpF 0, _, arpF, [], (netS.addr 0 0).get (by decide +kernel), _, rfl, rfl, by decide +kernel⟩,
   ⟨withD netS (cmdD Op.NET_ADDR_SET 0 [(9, 1, 4)]), _, (cmdD Op.NET_ADDR_SET 0 [(9, 1, 4)]), _, _, rfl, rfl, rfl, takes_of (by decide +kernel), by decide +kernel⟩⟩

theorem witness_FirmwareAnswersFrames_2 :
    (∃ (s : State) (u : State) (d : Desc) (fields : _) (entry : _) (r : _), u = s.start d ∧ fields = (decide (d.f 8 1 ≤ 127) && decide (d.f 9 1 ≤ 3) && decide (d.f 10 1 ≤ 1) && d.handle == 0 && d.f 23 1 == 0 && allZero (d.bytes 40 24)) ∧ entry = ((d.f 11 1 == 4 || d.f 11 1 == 6) && decide (d.f 12 2 ≤ 4094) && decide (d.f 14 1 ≤ 7) && decide (d.f 15 1 ≤ 63) && unicastMac (d.bytes 16 6) && decide (1 ≤ d.f 22 1) && decide (d.f 22 1 ≤ if d.f 11 1 = 4 then 32 else 128) && (d.f 11 1 != 4 || allZero (d.bytes 28 12)) && (d.f 12 2 != 0 || d.f 14 1 == d.f 15 1 / 8)) ∧ s.Takes Op.NET_ADDR_SET d ∧ fields = true ∧ (d.f 10 1 = 0 ∨ entry = true) ∧ u.addrRefusal d = some r) ∧
    (∃ (s : State) (u : State) (d : Desc) (fields : _) (entry : _), u = s.start d ∧ fields = (decide (d.f 8 1 ≤ 127) && decide (d.f 9 1 ≤ 3) && decide (d.f 10 1 ≤ 1) && d.handle == 0 && d.f 23 1 == 0 && allZero (d.bytes 40 24)) ∧ entry = ((d.f 11 1 == 4 || d.f 11 1 == 6) && decide (d.f 12 2 ≤ 4094) && decide (d.f 14 1 ≤ 7) && decide (d.f 15 1 ≤ 63) && unicastMac (d.bytes 16 6) && decide (1 ≤ d.f 22 1) && decide (d.f 22 1 ≤ if d.f 11 1 = 4 then 32 else 128) && (d.f 11 1 != 4 || allZero (d.bytes 28 12)) && (d.f 12 2 != 0 || d.f 14 1 == d.f 15 1 / 8)) ∧ s.Takes Op.NET_ADDR_SET d ∧ fields = true ∧ (d.f 10 1 = 0 ∨ entry = true) ∧ u.addrRefusal d = none) ∧
    (∃ (u : State) (d : Desc), u.lportExists (d.f 8 1) = false) ∧
    (∃ (u : State) (d : Desc), u.lportExists (d.f 8 1) = true ∧ d.f 10 1 = 0) ∧
    (∃ (u : State) (d : Desc) (x : _), u.lportExists (d.f 8 1) = true ∧ d.f 10 1 = 1 ∧ (u.entries (d.f 8 1)).find? (fun x => x.1 != d.f 9 1 && x.2.mac != d.bytes 16 6) = some x) ∧
    (∃ (u : State) (d : Desc), (∀ x ∈ u.entries (d.f 8 1), x.1 ≠ d.f 9 1 → x.2.mac = d.bytes 16 6) ∧ (∃ n < 128, ∃ x ∈ u.entries n, x.2.vlan = d.f 12 2 ∧ x.2.ip = d.bytes 24 16) ∧ u.lportExists (d.f 8 1) = true ∧ d.f 10 1 = 1) ∧
    (∃ (u : State) (d : Desc) (pfc : _), pfc = u.fld (Reg.MAC_LP_CFG (d.f 8 1)) Fd.MAC_LP_CFG_PFC_EN ∧ (∀ x ∈ u.entries (d.f 8 1), x.1 ≠ d.f 9 1 → x.2.mac = d.bytes 16 6) ∧ (∀ n < 128, ∀ x ∈ u.entries n, x.2.vlan = d.f 12 2 → x.2.ip ≠ d.bytes 24 16) ∧ u.lportExists (d.f 8 1) = true ∧ d.f 10 1 = 1 ∧ pfc ≠ 0 ∧ natBit pfc (d.f 14 1) = false) ∧
    (∃ (u : State) (d : Desc) (pfc : _), pfc = u.fld (Reg.MAC_LP_CFG (d.f 8 1)) Fd.MAC_LP_CFG_PFC_EN ∧ (∀ x ∈ u.entries (d.f 8 1), x.1 ≠ d.f 9 1 → x.2.mac = d.bytes 16 6) ∧ (∀ n < 128, ∀ x ∈ u.entries n, x.2.vlan = d.f 12 2 → x.2.ip ≠ d.bytes 24 16) ∧ u.lportExists (d.f 8 1) = true ∧ d.f 10 1 = 1 ∧ (pfc = 0 ∨ natBit pfc (d.f 14 1) = true)) :=
  ⟨⟨withD netS (cmdD Op.NET_ADDR_SET 0 [(8, 1, 127), (9, 1, 3)]), _, (cmdD Op.NET_ADDR_SET 0 [(8, 1, 127), (9, 1, 3)]), _, _, (((withD netS (cmdD Op.NET_ADDR_SET 0 [(8, 1, 127), (9, 1, 3)])).start (cmdD Op.NET_ADDR_SET 0 [(8, 1, 127), (9, 1, 3)])).addrRefusal (cmdD Op.NET_ADDR_SET 0 [(8, 1, 127), (9, 1, 3)])).get (by decide +kernel), rfl, rfl, rfl, takes_of (by decide +kernel), by decide +kernel⟩,
   ⟨withD netS (cmdD Op.NET_ADDR_SET 0 [(9, 1, 3)]), _, (cmdD Op.NET_ADDR_SET 0 [(9, 1, 3)]), _, _, rfl, rfl, rfl, takes_of (by decide +kernel), by decide +kernel⟩,
   ⟨onS, (cmdD Op.NET_ADDR_SET 0 [(8, 1, 127)]), by decide +kernel⟩,
   ⟨netS, (cmdD Op.NET_ADDR_SET 0 [(9, 1, 3)]), by decide +kernel⟩,
   ⟨netS, cmdD Op.NET_ADDR_SET 0 [(8, 1, 0), (9, 1, 3), (10, 1, 1), (11, 1, 6), (12, 2, 4094), (14, 1, 7), (15, 1, 63), (16, 6, 2), (22, 1, 128), (24, 8, 1)], (netS.entries 0).head (by decide +kernel), by decide +kernel⟩,
   ⟨netS, cmdD Op.NET_ADDR_SET 0 [(8, 1, 0), (9, 1, 3), (10, 1, 1), (11, 1, 4), (16, 6, 1099511627778), (22, 1, 24), (24, 4, 16777226)], by decide +kernel, by decide +kernel, by decide +kernel⟩,
   ⟨(netS.setFld (Reg.MAC_LP_CFG 0) Fd.MAC_LP_CFG_PFC_EN 1), cmdD Op.NET_ADDR_SET 0 [(8, 1, 0), (9, 1, 3), (10, 1, 1), (11, 1, 6), (12, 2, 4094), (14, 1, 7), (15, 1, 63), (16, 6, 1099511627778), (22, 1, 128), (24, 8, 1)], _, rfl, by decide +kernel, by decide +kernel, by decide +kernel⟩,
   ⟨netS, cmdD Op.NET_ADDR_SET 0 [(8, 1, 0), (9, 1, 3), (10, 1, 1), (11, 1, 6), (12, 2, 4094), (14, 1, 7), (15, 1, 63), (16, 6, 1099511627778), (22, 1, 128), (24, 8, 1)], _, rfl, by decide +kernel, by decide +kernel, by decide +kernel⟩⟩

/-- The same with every task-register bank of `rocS` full. -/
def capless (x : Qp) (f : Frame) : State :=
  { rocS x f with cmd := { (rocS x f).cmd with items := List.replicate 4096 { itemOf (.cap 1) 1 Rt.rxParse 1 with ready := 11 } } }

set_option maxRecDepth 100000

theorem witness_PacketsAndResponsesAreReceived_1 :
    (∃ (s : State), (s.joinHold = true ∨ s.net.toRdma = [])) ∧
    (∃ (s : State) (u : State) (f : Frame) (op : _) (k : _), op = (parseBth f.bytes).op ∧ k = beField f.bytes ((parseHdr f.bytes).l4 + 20) 1 / 32 % 4 ∧ s.FirstFrame u f ∧ op = 0x11 ∧ k = 0) ∧
    (∃ (s : State) (u : State) (f : Frame) (op : _) (k : _), op = (parseBth f.bytes).op ∧ k = beField f.bytes ((parseHdr f.bytes).l4 + 20) 1 / 32 % 4 ∧ s.FirstFrame u f ∧ (op ≠ 0x11 ∨ k ≠ 0)) ∧
    (∃ (s : State) (u : State) (f : Frame) (op : _) (k : _), op = (parseBth f.bytes).op ∧ k = beField f.bytes ((parseHdr f.bytes).l4 + 20) 1 / 32 % 4 ∧ s.FirstFrame u f ∧ op = 0x11 ∧ k ≠ 0) ∧
    (∃ (s : State) (u : State) (f : Frame) (op : _) (k : _), op = (parseBth f.bytes).op ∧ k = beField f.bytes ((parseHdr f.bytes).l4 + 20) 1 / 32 % 4 ∧ s.FirstFrame u f ∧ (op ≠ 0x11 ∨ k = 0)) ∧
    (∃ (s : State) (u : State) (f : Frame) (op : _), op = (parseBth f.bytes).op ∧ s.FirstFrame u f ∧ 0x0D ≤ op ∧ op ≤ 0x10) ∧
    (∃ (s : State) (u : State) (f : Frame) (op : _), op = (parseBth f.bytes).op ∧ s.FirstFrame u f ∧ (op < 0x0D ∨ 0x10 < op)) ∧
    (∃ (s : State) (u : State) (f : Frame) (op : _), op = (parseBth f.bytes).op ∧ s.FirstFrame u f ∧ op = 0x81) ∧
    (∃ (s : State) (u : State) (f : Frame) (op : _), op = (parseBth f.bytes).op ∧ s.FirstFrame u f ∧ op ≠ 0x81) ∧
    (∃ (s : State) (u : State) (f : Frame), s.FirstFrame u f ∧ (f.bad = true ∨ icrcOk f.bytes = false)) ∧
    (∃ (s : State) (u : State) (f : Frame) (b : _), b = parseBth f.bytes ∧ s.FirstFrame u f ∧ f.bad = false ∧ icrcOk f.bytes = true ∧ (b.tver ≠ 0 ∨ b.pkey ≠ 0xFFFF ∧ b.pkey ≠ 0x7FFF)) ∧
    (∃ (s : State) (u : State) (f : Frame) (b : _), b = parseBth f.bytes ∧ s.FirstFrame u f ∧ f.bad = false ∧ icrcOk f.bytes = true ∧ b.tver = 0 ∧ (b.pkey = 0xFFFF ∨ b.pkey = 0x7FFF) ∧ b.qpn = 1) ∧
    (∃ (s : State) (u : State) (f : Frame) (b : _), b = parseBth f.bytes ∧ s.FirstFrame u f ∧ f.bad = false ∧ icrcOk f.bytes = true ∧ b.tver = 0 ∧ (b.pkey = 0xFFFF ∨ b.pkey = 0x7FFF) ∧ b.qpn ≠ 1 ∧ u.qpOf b.qpn = none) :=
  ⟨⟨onS, by decide +kernel⟩,
   ⟨rocS qpX (pktF 17 0 0xFFFF 5 0 [0x1F, 0, 0, 1]), _, (pktF 17 0 0xFFFF 5 0 [0x1F, 0, 0, 1]), _, _, rfl, rfl, firstFrame_of (by decide +kernel), by decide +kernel⟩,
   ⟨rocS qpX (pktF 4 0 0xFFFF 5 0 []), _, (pktF 4 0 0xFFFF 5 0 []), _, _, rfl, rfl, firstFrame_of (by decide +kernel), by decide +kernel⟩,
   ⟨rocS qpX (pktF 17 0 0xFFFF 5 0 [0x60, 0, 0, 1]), _, (pktF 17 0 0xFFFF 5 0 [0x60, 0, 0, 1]), _, _, rfl, rfl, firstFrame_of (by decide +kernel), by decide +kernel⟩,
   ⟨rocS qpX (pktF 4 0 0xFFFF 5 0 []), _, (pktF 4 0 0xFFFF 5 0 []), _, _, rfl, rfl, firstFrame_of (by decide +kernel), by decide +kernel⟩,
   ⟨rocS qpX (pktF 16 0 0xFFFF 5 0 []), _, (pktF 16 0 0xFFFF 5 0 []), _, rfl, firstFrame_of (by decide +kernel), by decide +kernel⟩,
   ⟨rocS qpX (pktF 4 0 0xFFFF 5 0 []), _, (pktF 4 0 0xFFFF 5 0 []), _, rfl, firstFrame_of (by decide +kernel), by decide +kernel⟩,
   ⟨rocS qpX (pktF 129 0 0xFFFF 5 0 []), _, (pktF 129 0 0xFFFF 5 0 []), _, rfl, firstFrame_of (by decide +kernel), by decide +kernel⟩,
   ⟨rocS qpX (pktF 4 0 0xFFFF 5 0 []), _, (pktF 4 0 0xFFFF 5 0 []), _, rfl, firstFrame_of (by decide +kernel), by decide +kernel⟩,
   ⟨rocS qpX { rxF .rdma with bad := true }, _, { rxF .rdma with bad := true }, firstFrame_of (by decide +kernel), by decide +kernel⟩,
   ⟨rocS qpX (pktF 4 1 0xFFFF 5 0 []), _, (pktF 4 1 0xFFFF 5 0 []), _, rfl, firstFrame_of (by decide +kernel), by decide +kernel⟩,
   ⟨rocS qpX (pktF 100 0 0xFFFF 1 0 []), _, (pktF 100 0 0xFFFF 1 0 []), _, rfl, firstFrame_of (by decide +kernel), by decide +kernel⟩,
   ⟨rocS qpX (pktF 4 0 0x7FFF 6 0 []), _, (pktF 4 0 0x7FFF 6 0 []), _, rfl, firstFrame_of (by decide +kernel), by decide +kernel⟩⟩

theorem witness_PacketsAndResponsesAreReceived_2 :
    (∃ (s : State) (u : State) (f : Frame) (b : _) (q : _), b = parseBth f.bytes ∧ s.FirstFrame u f ∧ f.bad = false ∧ icrcOk f.bytes = true ∧ b.tver = 0 ∧ (b.pkey = 0xFFFF ∨ b.pkey = 0x7FFF) ∧ b.qpn ≠ 1 ∧ u.qpOf b.qpn = some q ∧ (u.qp q).st.receives = false) ∧
    (∃ (s : State) (u : State) (f : Frame) (b : _) (q : _), b = parseBth f.bytes ∧ s.FirstFrame u f ∧ f.bad = false ∧ icrcOk f.bytes = true ∧ b.tver = 0 ∧ (b.pkey = 0xFFFF ∨ b.pkey = 0x7FFF) ∧ b.qpn ≠ 1 ∧ u.qpOf b.qpn = some q ∧ (u.qp q).st.receives = true ∧ u.parks q = true) ∧
    (∃ (s : State) (u : State) (f : Frame) (q : Nat) (h : _), h = parseHdr f.bytes ∧ s.Reaches u f q ∧ (h.srcIp ≠ (u.qp q).rip ∨ h.vlan ≠ (u.qp q).vlan)) ∧
    (∃ (s : State) (u : State) (f : Frame) (q : Nat) (h : _), h = parseHdr f.bytes ∧ s.Reaches u f q ∧ h.srcIp = (u.qp q).rip ∧ h.vlan = (u.qp q).vlan ∧ (u.qp q).st = .err) ∧
    (∃ (s : State) (u : State) (f : Frame) (q : Nat) (b : _) (v : _) (x : _) (d : _) (len : _), b = parseBth f.bytes ∧ v = u.useQp q ∧ x = v.qp q ∧ d = psnSub b.psn (u.qp q).epsn ∧ len = beField f.bytes ((parseHdr f.bytes).l4 + 32) 4 ∧ s.Handles u f q ∧ d = 0 ∧ b.op = 0x0C ∧ len = 0 ∧ x.inReads < x.ird) ∧
    (∃ (s : State) (u : State) (f : Frame) (q : Nat) (b : _) (v : _) (x : _) (d : _) (len : _), b = parseBth f.bytes ∧ v = u.useQp q ∧ x = v.qp q ∧ d = psnSub b.psn (u.qp q).epsn ∧ len = beField f.bytes ((parseHdr f.bytes).l4 + 32) 4 ∧ s.Handles u f q ∧ d = 0 ∧ b.op = 0x0C ∧ len = 0 ∧ x.ird ≤ x.inReads) ∧
    (∃ (s : State) (u : State) (f : Frame) (q : Nat) (b : _) (v : _) (d : _) (len : _), b = parseBth f.bytes ∧ v = u.useQp q ∧ d = psnSub b.psn (u.qp q).epsn ∧ len = beField f.bytes ((parseHdr f.bytes).l4 + 32) 4 ∧ s.Handles u f q ∧ d = 0 ∧ b.op = 0x0C ∧ 0 < len ∧ len ≤ 2147483648) ∧
    (∃ (s : State) (u : State) (f : Frame) (q : Nat) (b : _) (v : _) (d : _) (len : _), b = parseBth f.bytes ∧ v = u.useQp q ∧ d = psnSub b.psn (u.qp q).epsn ∧ len = beField f.bytes ((parseHdr f.bytes).l4 + 32) 4 ∧ s.Handles u f q ∧ d = 0 ∧ b.op = 0x0C ∧ 2147483648 < len) ∧
    (∃ (s : State) (u : State) (f : Frame) (q : Nat) (b : _) (v : _) (d : _), b = parseBth f.bytes ∧ v = u.useQp q ∧ d = psnSub b.psn (u.qp q).epsn ∧ s.Handles u f q ∧ d = 0 ∧ 0x06 ≤ b.op ∧ b.op ≤ 0x0B) ∧
    (∃ (s : State) (u : State) (f : Frame) (q : Nat) (b : _) (v : _) (d : _), b = parseBth f.bytes ∧ v = u.useQp q ∧ d = psnSub b.psn (u.qp q).epsn ∧ s.Handles u f q ∧ d = 0 ∧ (b.op = 0x03 ∨ b.op = 0x05 ∨ b.op = 0x13 ∨ b.op = 0x14 ∨ b.op = 0x16 ∨ b.op = 0x17)) ∧
    (∃ (s : State) (u : State) (f : Frame) (q : Nat) (b : _) (v : _) (x : _) (d : _) (data : _) (first : _) (last : _) (got : _), b = parseBth f.bytes ∧ v = u.useQp q ∧ x = v.qp q ∧ d = psnSub b.psn (u.qp q).epsn ∧ data = bthBody f.bytes ∧ first = (b.op == 0x00 || b.op == 0x04) ∧ last = (b.op == 0x02 || b.op == 0x04) ∧ got = ((if first then [] else x.rx)) ∧ s.Handles u f q ∧ d = 0 ∧ (b.op = 0x00 ∨ b.op = 0x01 ∨ b.op = 0x02 ∨ b.op = 0x04) ∧ first = x.reasm) ∧
    (∃ (s : State) (u : State) (f : Frame) (q : Nat) (b : _) (v : _) (x : _) (d : _) (data : _) (first : _) (last : _) (got : _) (short : _) (n : _), b = parseBth f.bytes ∧ v = u.useQp q ∧ x = v.qp q ∧ d = psnSub b.psn (u.qp q).epsn ∧ data = bthBody f.bytes ∧ first = (b.op == 0x00 || b.op == 0x04) ∧ last = (b.op == 0x02 || b.op == 0x04) ∧ got = ((if first then [] else x.rx)) ∧ short = ((if last then data.isEmpty || decide (x.mtu < data.length) else data.length != x.mtu)) ∧ n = got.length + data.length ∧ s.Handles u f q ∧ d = 0 ∧ (b.op = 0x00 ∨ b.op = 0x01 ∨ b.op = 0x02 ∨ b.op = 0x04) ∧ first ≠ x.reasm ∧ (short = true ∨ 16448 < n ∨ (last = true ∧ n < 64))) ∧
    (∃ (s : State) (u : State) (f : Frame) (q : Nat) (b : _) (v : _) (x : _) (d : _) (data : _) (first : _) (last : _) (got : _) (dscp : _) (short : _) (n : _) (cs : _), b = parseBth f.bytes ∧ v = u.useQp q ∧ x = v.qp q ∧ d = psnSub b.psn (u.qp q).epsn ∧ data = bthBody f.bytes ∧ first = (b.op == 0x00 || b.op == 0x04) ∧ last = (b.op == 0x02 || b.op == 0x04) ∧ got = ((if first then [] else x.rx)) ∧ dscp = ((if first then (parseHdr f.bytes).dscp else x.rxDscp)) ∧ short = ((if last then data.isEmpty || decide (x.mtu < data.length) else data.length != x.mtu)) ∧ n = got.length + data.length ∧ cs = v.settleList (x.rxCells ++ [(f.acct, f.cells)]) ∧ s.Handles u f q ∧ d = 0 ∧ (b.op = 0x00 ∨ b.op = 0x01 ∨ b.op = 0x02 ∨ b.op = 0x04) ∧ first ≠ x.reasm ∧ short = false ∧ n ≤ 16448 ∧ last = true ∧ 64 ≤ n ∧ cs.2.acceptCapsule q (got ++ data) cs.1 dscp f.stamp false = none) :=
  ⟨⟨rocS { qpX with st := .disc } (pktF 4 0 0xFFFF 5 0 []), _, (pktF 4 0 0xFFFF 5 0 []), _, 5, rfl, firstFrame_of (by decide +kernel), by decide +kernel⟩,
   ⟨rocS { qpX with resident := false } (pktF 4 0 0x7FFF 5 0 []), _, (pktF 4 0 0x7FFF 5 0 []), _, 5, rfl, firstFrame_of (by decide +kernel), by decide +kernel⟩,
   ⟨rocS { qpX with rip := [] } (pktF 4 0 0xFFFF 5 0 []), _, (pktF 4 0 0xFFFF 5 0 []), 5, _, rfl, reaches_of (by decide +kernel), by decide +kernel⟩,
   ⟨rocS { qpX with st := .err } (pktF 4 0 0xFFFF 5 0 []), _, (pktF 4 0 0xFFFF 5 0 []), 5, _, rfl, reaches_of (by decide +kernel), by decide +kernel⟩,
   ⟨rocS qpX (pktF 12 0 0xFFFF 5 0 (List.replicate 16 0)), _, (pktF 12 0 0xFFFF 5 0 (List.replicate 16 0)), 5, _, _, _, _, _, rfl, rfl, rfl, rfl, rfl, handles_of (reaches_of (by decide +kernel)) (by decide +kernel), by decide +kernel⟩,
   ⟨rocS { qpX with ird := 0 } (pktF 12 0 0xFFFF 5 0 (List.replicate 16 0)), _, (pktF 12 0 0xFFFF 5 0 (List.replicate 16 0)), 5, _, _, _, _, _, rfl, rfl, rfl, rfl, rfl, handles_of (reaches_of (by decide +kernel)) (by decide +kernel), by decide +kernel⟩,
   ⟨rocS qpX (pktF 12 0 0xFFFF 5 0 (List.replicate 12 0 ++ [0x80, 0, 0, 0])), _, (pktF 12 0 0xFFFF 5 0 (List.replicate 12 0 ++ [0x80, 0, 0, 0])), 5, _, _, _, _, rfl, rfl, rfl, rfl, handles_of (reaches_of (by decide +kernel)) (by decide +kernel), by decide +kernel⟩,
   ⟨rocS qpX (pktF 12 0 0xFFFF 5 0 (List.replicate 12 0 ++ [0x80, 0, 0, 1])), _, (pktF 12 0 0xFFFF 5 0 (List.replicate 12 0 ++ [0x80, 0, 0, 1])), 5, _, _, _, _, rfl, rfl, rfl, rfl, handles_of (reaches_of (by decide +kernel)) (by decide +kernel), by decide +kernel⟩,
   ⟨rocS qpX (pktF 11 0 0xFFFF 5 0 []), _, (pktF 11 0 0xFFFF 5 0 []), 5, _, _, _, rfl, rfl, rfl, handles_of (reaches_of (by decide +kernel)) (by decide +kernel), by decide +kernel⟩,
   ⟨rocS qpX (pktF 23 0 0xFFFF 5 0 []), _, (pktF 23 0 0xFFFF 5 0 []), 5, _, _, _, rfl, rfl, rfl, handles_of (reaches_of (by decide +kernel)) (by decide +kernel), by decide +kernel⟩,
   ⟨rocS { qpX with reasm := true } (pktF 4 0 0xFFFF 5 0 []), _, (pktF 4 0 0xFFFF 5 0 []), 5, _, _, _, _, _, _, _, _, rfl, rfl, rfl, rfl, rfl, rfl, rfl, rfl, handles_of (reaches_of (by decide +kernel)) (by decide +kernel), by decide +kernel⟩,
   ⟨rocS qpX (pktF 4 0 0xFFFF 5 0 []), _, (pktF 4 0 0xFFFF 5 0 []), 5, _, _, _, _, _, _, _, _, _, _, rfl, rfl, rfl, rfl, rfl, rfl, rfl, rfl, rfl, rfl, handles_of (reaches_of (by decide +kernel)) (by decide +kernel), by decide +kernel⟩,
   ⟨capless { qpX with reasm := true, rx := List.replicate 64 0 } (pktF 2 0 0xFFFF 5 0 [0]), _, (pktF 2 0 0xFFFF 5 0 [0]), 5, _, _, _, _, _, _, _, _, _, _, _, _, rfl, rfl, rfl, rfl, rfl, rfl, rfl, rfl, rfl, rfl, rfl, rfl, handles_of (reaches_of (by decide +kernel)) (by decide +kernel), by decide +kernel⟩⟩

theorem witness_PacketsAndResponsesAreReceived_3 :
    (∃ (s : State) (u : State) (f : Frame) (q : Nat) (b : _) (v : _) (x : _) (d : _) (data : _) (first : _) (last : _) (got : _) (dscp : _) (short : _) (n : _) (cs : _) (w : _), b = parseBth f.bytes ∧ v = u.useQp q ∧ x = v.qp q ∧ d = psnSub b.psn (u.qp q).epsn ∧ data = bthBody f.bytes ∧ first = (b.op == 0x00 || b.op == 0x04) ∧ last = (b.op == 0x02 || b.op == 0x04) ∧ got = ((if first then [] else x.rx)) ∧ dscp = ((if first then (parseHdr f.bytes).dscp else x.rxDscp)) ∧ short = ((if last then data.isEmpty || decide (x.mtu < data.length) else data.length != x.mtu)) ∧ n = got.length + data.length ∧ cs = v.settleList (x.rxCells ++ [(f.acct, f.cells)]) ∧ s.Handles u f q ∧ d = 0 ∧ (b.op = 0x00 ∨ b.op = 0x01 ∨ b.op = 0x02 ∨ b.op = 0x04) ∧ first ≠ x.reasm ∧ short = false ∧ n ≤ 16448 ∧ last = true ∧ 64 ≤ n ∧ cs.2.acceptCapsule q (got ++ data) cs.1 dscp f.stamp false = some w) ∧
    (∃ (s : State) (u : State) (f : Frame) (q : Nat) (b : _) (v : _) (x : _) (d : _) (data : _) (first : _) (last : _) (got : _) (short : _) (n : _), b = parseBth f.bytes ∧ v = u.useQp q ∧ x = v.qp q ∧ d = psnSub b.psn (u.qp q).epsn ∧ data = bthBody f.bytes ∧ first = (b.op == 0x00 || b.op == 0x04) ∧ last = (b.op == 0x02 || b.op == 0x04) ∧ got = ((if first then [] else x.rx)) ∧ short = ((if last then data.isEmpty || decide (x.mtu < data.length) else data.length != x.mtu)) ∧ n = got.length + data.length ∧ s.Handles u f q ∧ d = 0 ∧ (b.op = 0x00 ∨ b.op = 0x01 ∨ b.op = 0x02 ∨ b.op = 0x04) ∧ first ≠ x.reasm ∧ short = false ∧ n ≤ 16448 ∧ last = false) ∧
    (∃ (s : State) (u : State) (f : Frame) (q : Nat) (b : _) (v : _) (d : _), b = parseBth f.bytes ∧ v = u.useQp q ∧ d = psnSub b.psn (u.qp q).epsn ∧ s.Handles u f q ∧ 0 < d ∧ d < 8388608 ∧ isRequest b.op = true ∧ (u.qp q).nakSent = false ∧ (u.qp q).failing = false) ∧
    (∃ (s : State) (u : State) (f : Frame) (q : Nat) (b : _) (v : _) (d : _), b = parseBth f.bytes ∧ v = u.useQp q ∧ d = psnSub b.psn (u.qp q).epsn ∧ s.Handles u f q ∧ 0 < d ∧ d < 8388608 ∧ isRequest b.op = true ∧ ((u.qp q).nakSent = true ∨ (u.qp q).failing = true)) ∧
    (∃ (s : State) (u : State) (f : Frame) (q : Nat) (b : _) (v : _) (d : _), b = parseBth f.bytes ∧ v = u.useQp q ∧ d = psnSub b.psn (u.qp q).epsn ∧ s.Handles u f q ∧ 8388608 ≤ d ∧ isRequest b.op = true) ∧
    (∃ (s : State) (u : State) (f : Frame) (q : Nat) (b : _) (v : _) (syn : _), b = parseBth f.bytes ∧ v = u.useQp q ∧ syn = beField f.bytes ((parseHdr f.bytes).l4 + 20) 1 ∧ s.Handles u f q ∧ b.op = 0x11 ∧ syn / 32 % 4 = 0 ∧ (v.qp q).validRsp b.psn = true) ∧
    (∃ (s : State) (u : State) (f : Frame) (q : Nat) (b : _) (v : _) (syn : _), b = parseBth f.bytes ∧ v = u.useQp q ∧ syn = beField f.bytes ((parseHdr f.bytes).l4 + 20) 1 ∧ s.Handles u f q ∧ b.op = 0x11 ∧ syn / 32 % 4 = 0 ∧ (v.qp q).validRsp b.psn = false) ∧
    (∃ (s : State) (u : State) (f : Frame) (q : Nat) (b : _) (v : _) (syn : _), b = parseBth f.bytes ∧ v = u.useQp q ∧ syn = beField f.bytes ((parseHdr f.bytes).l4 + 20) 1 ∧ s.Handles u f q ∧ b.op = 0x11 ∧ syn / 32 % 4 ≠ 0 ∧ (v.qp q).validRsp b.psn = false) ∧
    (∃ (s : State) (u : State) (f : Frame) (q : Nat) (b : _) (v : _) (syn : _) (w : _), b = parseBth f.bytes ∧ v = u.useQp q ∧ syn = beField f.bytes ((parseHdr f.bytes).l4 + 20) 1 ∧ w = v.freeBefore q b.psn ∧ s.Handles u f q ∧ b.op = 0x11 ∧ syn / 32 % 4 ≠ 0 ∧ (v.qp q).validRsp b.psn = true ∧ syn / 32 % 4 = 1 ∧ (w.qp q).rnrLeft = 0 ∧ (w.qp q).rnrCnt ≠ 7) ∧
    (∃ (s : State) (u : State) (f : Frame) (q : Nat) (b : _) (v : _) (syn : _) (w : _), b = parseBth f.bytes ∧ v = u.useQp q ∧ syn = beField f.bytes ((parseHdr f.bytes).l4 + 20) 1 ∧ w = v.freeBefore q b.psn ∧ s.Handles u f q ∧ b.op = 0x11 ∧ syn / 32 % 4 ≠ 0 ∧ (v.qp q).validRsp b.psn = true ∧ syn / 32 % 4 = 1 ∧ (0 < (w.qp q).rnrLeft ∨ (w.qp q).rnrCnt = 7)) ∧
    (∃ (s : State) (u : State) (f : Frame) (q : Nat) (b : _) (v : _) (syn : _) (w : _), b = parseBth f.bytes ∧ v = u.useQp q ∧ syn = beField f.bytes ((parseHdr f.bytes).l4 + 20) 1 ∧ w = v.freeBefore q b.psn ∧ s.Handles u f q ∧ b.op = 0x11 ∧ syn / 32 % 4 ≠ 0 ∧ (v.qp q).validRsp b.psn = true ∧ syn / 32 % 4 ≠ 1 ∧ syn % 32 = 0 ∧ (w.qp q).retryLeft = 0) ∧
    (∃ (s : State) (u : State) (f : Frame) (q : Nat) (b : _) (v : _) (syn : _) (w : _), b = parseBth f.bytes ∧ v = u.useQp q ∧ syn = beField f.bytes ((parseHdr f.bytes).l4 + 20) 1 ∧ w = v.freeBefore q b.psn ∧ s.Handles u f q ∧ b.op = 0x11 ∧ syn / 32 % 4 ≠ 0 ∧ (v.qp q).validRsp b.psn = true ∧ syn / 32 % 4 ≠ 1 ∧ syn % 32 = 0 ∧ 0 < (w.qp q).retryLeft) ∧
    (∃ (s : State) (u : State) (f : Frame) (q : Nat) (b : _) (v : _) (syn : _) (n : _), b = parseBth f.bytes ∧ v = u.useQp q ∧ syn = beField f.bytes ((parseHdr f.bytes).l4 + 20) 1 ∧ s.Handles u f q ∧ b.op = 0x11 ∧ syn / 32 % 4 ≠ 0 ∧ (v.qp q).validRsp b.psn = true ∧ syn / 32 % 4 ≠ 1 ∧ syn % 32 = n ∧ 1 ≤ n ∧ n ≤ 3) :=
  ⟨⟨rocS { qpX with reasm := true, rx := List.replicate 64 0 } (pktF 2 0 0xFFFF 5 0 [0]), _, (pktF 2 0 0xFFFF 5 0 [0]), 5, _, _, _, _, _, _, _, _, _, _, _, _, _, rfl, rfl, rfl, rfl, rfl, rfl, rfl, rfl, rfl, rfl, rfl, rfl, handles_of (reaches_of (by decide +kernel)) (by decide +kernel), by decide +kernel, by decide +kernel, by decide +kernel, by decide +kernel, by decide +kernel, by decide +kernel, by decide +kernel, (Option.some_get (by decide +kernel)).symm⟩,
   ⟨rocS { qpX with pmtu := 0 } (pktF 0 0 0xFFFF 5 0 (List.replicate 128 0)), _, (pktF 0 0 0xFFFF 5 0 (List.replicate 128 0)), 5, _, _, _, _, _, _, _, _, _, _, rfl, rfl, rfl, rfl, rfl, rfl, rfl, rfl, rfl, rfl, handles_of (reaches_of (by decide +kernel)) (by decide +kernel), by decide +kernel⟩,
   ⟨rocS qpX (pktF 4 0 0xFFFF 5 8388607 []), _, (pktF 4 0 0xFFFF 5 8388607 []), 5, _, _, _, rfl, rfl, rfl, handles_of (reaches_of (by decide +kernel)) (by decide +kernel), by decide +kernel⟩,
   ⟨rocS { qpX with nakSent := true } (pktF 4 0 0xFFFF 5 1 []), _, (pktF 4 0 0xFFFF 5 1 []), 5, _, _, _, rfl, rfl, rfl, handles_of (reaches_of (by decide +kernel)) (by decide +kernel), by decide +kernel⟩,
   ⟨rocS qpX (pktF 4 0 0xFFFF 5 8388608 []), _, (pktF 4 0 0xFFFF 5 8388608 []), 5, _, _, _, rfl, rfl, rfl, handles_of (reaches_of (by decide +kernel)) (by decide +kernel), by decide +kernel⟩,
   ⟨rocS qpX (pktF 17 0 0xFFFF 5 0 [0x1F, 0, 0, 1]), _, (pktF 17 0 0xFFFF 5 0 [0x1F, 0, 0, 1]), 5, _, _, _, rfl, rfl, rfl, handles_of (reaches_of (by decide +kernel)) (by decide +kernel), by decide +kernel⟩,
   ⟨rocS qpX (pktF 17 0 0xFFFF 5 1 [0x1F, 0, 0, 1]), _, (pktF 17 0 0xFFFF 5 1 [0x1F, 0, 0, 1]), 5, _, _, _, rfl, rfl, rfl, handles_of (reaches_of (by decide +kernel)) (by decide +kernel), by decide +kernel⟩,
   ⟨rocS qpX (pktF 17 0 0xFFFF 5 1 [0x20, 0, 0, 1]), _, (pktF 17 0 0xFFFF 5 1 [0x20, 0, 0, 1]), 5, _, _, _, rfl, rfl, rfl, handles_of (reaches_of (by decide +kernel)) (by decide +kernel), by decide +kernel⟩,
   ⟨rocS { qpX with rnrLeft := 0, rnrCnt := 6 } (pktF 17 0 0xFFFF 5 0 [0x20, 0, 0, 1]), _, (pktF 17 0 0xFFFF 5 0 [0x20, 0, 0, 1]), 5, _, _, _, _, rfl, rfl, rfl, rfl, handles_of (reaches_of (by decide +kernel)) (by decide +kernel), by decide +kernel⟩,
   ⟨rocS { qpX with rnrLeft := 1 } (pktF 17 0 0xFFFF 5 0 [0x20, 0, 0, 1]), _, (pktF 17 0 0xFFFF 5 0 [0x20, 0, 0, 1]), 5, _, _, _, _, rfl, rfl, rfl, rfl, handles_of (reaches_of (by decide +kernel)) (by decide +kernel), by decide +kernel⟩,
   ⟨rocS { qpX with retryLeft := 0 } (pktF 17 0 0xFFFF 5 0 [0x60, 0, 0, 1]), _, (pktF 17 0 0xFFFF 5 0 [0x60, 0, 0, 1]), 5, _, _, _, _, rfl, rfl, rfl, rfl, handles_of (reaches_of (by decide +kernel)) (by decide +kernel), by decide +kernel⟩,
   ⟨rocS qpX (pktF 17 0 0xFFFF 5 0 [0x60, 0, 0, 1]), _, (pktF 17 0 0xFFFF 5 0 [0x60, 0, 0, 1]), 5, _, _, _, _, rfl, rfl, rfl, rfl, handles_of (reaches_of (by decide +kernel)) (by decide +kernel), by decide +kernel⟩,
   ⟨rocS qpX (pktF 17 0 0xFFFF 5 0 [0x63, 0, 0, 1]), _, (pktF 17 0 0xFFFF 5 0 [0x63, 0, 0, 1]), 5, _, _, _, 3, rfl, rfl, rfl, handles_of (reaches_of (by decide +kernel)) (by decide +kernel), by decide +kernel⟩⟩

theorem witness_PacketsAndResponsesAreReceived_4 :
    (∃ (s : State) (u : State) (f : Frame) (q : Nat) (b : _) (v : _) (syn : _), b = parseBth f.bytes ∧ v = u.useQp q ∧ syn = beField f.bytes ((parseHdr f.bytes).l4 + 20) 1 ∧ s.Handles u f q ∧ b.op = 0x11 ∧ syn / 32 % 4 ≠ 0 ∧ (v.qp q).validRsp b.psn = true ∧ syn / 32 % 4 ≠ 1 ∧ 3 < syn % 32) ∧
    (∃ (s : State) (u : State) (f : Frame) (q : Nat) (b : _) (v : _), b = parseBth f.bytes ∧ v = u.useQp q ∧ s.Handles u f q ∧ 0x0D ≤ b.op ∧ b.op ≤ 0x10 ∧ (v.qp q).reads = []) ∧
    (∃ (s : State) (u : State) (f : Frame) (q : Nat) (b : _) (v : _) (data : _) (e : ReadEnt) (es : List ReadEnt) (nx : _) (a : _), b = parseBth f.bytes ∧ v = u.useQp q ∧ data = ((if b.op = 0x0E then bthBody f.bytes else (bthBody f.bytes).drop 4)) ∧ nx = e.next (v.qp q).mtu ∧ a = v.ackIn q b.psn f.stamp ∧ s.Handles u f q ∧ 0x0D ≤ b.op ∧ b.op ≤ 0x10 ∧ (v.qp q).reads = e :: es ∧ b.psn = nx ∧ (((b.op = 0x0F ∨ b.op = 0x10) ∧ data.length ≠ e.len - e.got) ∨ (¬ (b.op = 0x0F ∨ b.op = 0x10) ∧ (data.length ≠ (v.qp q).mtu ∨ e.len - e.got ≤ (v.qp q).mtu)))) ∧
    (∃ (s : State) (u : State) (f : Frame) (q : Nat) (b : _) (v : _) (data : _) (e : ReadEnt) (es : List ReadEnt) (nx : _) (a : _) (c : _) (e' : _) (w : _), b = parseBth f.bytes ∧ v = u.useQp q ∧ data = ((if b.op = 0x0E then bthBody f.bytes else (bthBody f.bytes).drop 4)) ∧ nx = e.next (v.qp q).mtu ∧ a = v.ackIn q b.psn f.stamp ∧ c = ((if (parseHdr f.bytes).ecn = 3 then a.cnp q else a)) ∧ e' = { e with got := e.got + data.length, gap := none } ∧ w = (c.updQp q (fun x => if (b.op = 0x0F ∨ b.op = 0x10) then { x with reads := es, readsOut := x.readsOut - 1 } else { x with reads := e' :: es })) ∧ s.Handles u f q ∧ 0x0D ≤ b.op ∧ b.op ≤ 0x10 ∧ (v.qp q).reads = e :: es ∧ b.psn = nx ∧ (((b.op = 0x0F ∨ b.op = 0x10) ∧ data.length = e.len - e.got) ∨ (¬ (b.op = 0x0F ∨ b.op = 0x10) ∧ data.length = (v.qp q).mtu ∧ (v.qp q).mtu < e.len - e.got)) ∧ ((w.wb e.wb).st = .payload ∨ (w.wb e.wb).st = .locked)) ∧
    (∃ (s : State) (u : State) (f : Frame) (q : Nat) (b : _) (v : _) (data : _) (e : ReadEnt) (es : List ReadEnt) (nx : _) (a : _) (c : _) (e' : _) (w : _), b = parseBth f.bytes ∧ v = u.useQp q ∧ data = ((if b.op = 0x0E then bthBody f.bytes else (bthBody f.bytes).drop 4)) ∧ nx = e.next (v.qp q).mtu ∧ a = v.ackIn q b.psn f.stamp ∧ c = ((if (parseHdr f.bytes).ecn = 3 then a.cnp q else a)) ∧ e' = { e with got := e.got + data.length, gap := none } ∧ w = (c.updQp q (fun x => if (b.op = 0x0F ∨ b.op = 0x10) then { x with reads := es, readsOut := x.readsOut - 1 } else { x with reads := e' :: es })) ∧ s.Handles u f q ∧ 0x0D ≤ b.op ∧ b.op ≤ 0x10 ∧ (v.qp q).reads = e :: es ∧ b.psn = nx ∧ (((b.op = 0x0F ∨ b.op = 0x10) ∧ data.length = e.len - e.got) ∨ (¬ (b.op = 0x0F ∨ b.op = 0x10) ∧ data.length = (v.qp q).mtu ∧ (v.qp q).mtu < e.len - e.got)) ∧ (w.wb e.wb).st ≠ .payload ∧ (w.wb e.wb).st ≠ .locked) ∧
    (∃ (s : State) (u : State) (f : Frame) (q : Nat) (b : _) (v : _) (data : _) (e : ReadEnt) (es : List ReadEnt) (nx : _) (a : _), b = parseBth f.bytes ∧ v = u.useQp q ∧ data = ((if b.op = 0x0E then bthBody f.bytes else (bthBody f.bytes).drop 4)) ∧ nx = e.next (v.qp q).mtu ∧ a = v.ackIn q b.psn f.stamp ∧ s.Handles u f q ∧ 0x0D ≤ b.op ∧ b.op ≤ 0x10 ∧ (v.qp q).reads = e :: es ∧ b.psn ≠ nx ∧ (v.qp q).validRsp b.psn = true ∧ psnSub b.psn nx < 8388608 ∧ e.gap = some e.got) ∧
    (∃ (s : State) (u : State) (f : Frame) (q : Nat) (b : _) (v : _) (data : _) (e : ReadEnt) (es : List ReadEnt) (nx : _) (a : _), b = parseBth f.bytes ∧ v = u.useQp q ∧ data = ((if b.op = 0x0E then bthBody f.bytes else (bthBody f.bytes).drop 4)) ∧ nx = e.next (v.qp q).mtu ∧ a = v.ackIn q b.psn f.stamp ∧ s.Handles u f q ∧ 0x0D ≤ b.op ∧ b.op ≤ 0x10 ∧ (v.qp q).reads = e :: es ∧ b.psn ≠ nx ∧ (v.qp q).validRsp b.psn = true ∧ psnSub b.psn nx < 8388608 ∧ e.gap ≠ some e.got) ∧
    (∃ (s : State) (u : State) (f : Frame) (q : Nat) (b : _) (v : _) (data : _) (e : ReadEnt) (es : List ReadEnt) (nx : _) (a : _), b = parseBth f.bytes ∧ v = u.useQp q ∧ data = ((if b.op = 0x0E then bthBody f.bytes else (bthBody f.bytes).drop 4)) ∧ nx = e.next (v.qp q).mtu ∧ a = v.ackIn q b.psn f.stamp ∧ s.Handles u f q ∧ 0x0D ≤ b.op ∧ b.op ≤ 0x10 ∧ (v.qp q).reads = e :: es ∧ b.psn ≠ nx ∧ ((v.qp q).validRsp b.psn = false ∨ 8388608 ≤ psnSub b.psn nx)) ∧
    (∃ (s : State) (u : State) (f : Frame) (q : Nat) (b : _) (v : _) (w : _) (x : _), b = parseBth f.bytes ∧ v = u.useQp q ∧ w = v.cntRdm 10 1 ∧ x = w.qp q ∧ s.Handles u f q ∧ b.op = 0x81 ∧ x.cnpHold ≤ w.now) ∧
    (∃ (s : State) (u : State) (f : Frame) (q : Nat) (b : _) (v : _) (w : _) (x : _), b = parseBth f.bytes ∧ v = u.useQp q ∧ w = v.cntRdm 10 1 ∧ x = w.qp q ∧ s.Handles u f q ∧ b.op = 0x81 ∧ w.now < x.cnpHold) :=
  ⟨⟨rocS qpX (pktF 17 0 0xFFFF 5 0 [0x7F, 0, 0, 1]), _, (pktF 17 0 0xFFFF 5 0 [0x7F, 0, 0, 1]), 5, _, _, _, rfl, rfl, rfl, handles_of (reaches_of (by decide +kernel)) (by decide +kernel), by decide +kernel⟩,
   ⟨rocS qpX (pktF 16 0 0xFFFF 5 0 []), _, (pktF 16 0 0xFFFF 5 0 []), 5, _, _, rfl, rfl, handles_of (reaches_of (by decide +kernel)) (by decide +kernel), by decide +kernel⟩,
   ⟨rocS { qpX with reads := [readE] } (pktF 16 0 0xFFFF 5 0 [0, 0, 0, 1, 1, 2, 3]), _, (pktF 16 0 0xFFFF 5 0 [0, 0, 0, 1, 1, 2, 3]), 5, _, _, _, readE, [], _, _, rfl, rfl, rfl, rfl, rfl, handles_of (reaches_of (by decide +kernel)) (by decide +kernel), by decide +kernel⟩,
   ⟨payS { qpX with reads := [readE] } (pktF 16 0 0xFFFF 5 0 [0, 0, 0, 1, 1, 2, 3, 4]), _, (pktF 16 0 0xFFFF 5 0 [0, 0, 0, 1, 1, 2, 3, 4]), 5, _, _, _, readE, [], _, _, _, _, _, rfl, rfl, rfl, rfl, rfl, rfl, rfl, rfl, handles_of (reaches_of (by decide +kernel)) (by decide +kernel), by decide +kernel⟩,
   ⟨rocS { qpX with reads := [readE] } (pktF 16 0 0xFFFF 5 0 [0, 0, 0, 1, 1, 2, 3, 4]), _, (pktF 16 0 0xFFFF 5 0 [0, 0, 0, 1, 1, 2, 3, 4]), 5, _, _, _, readE, [], _, _, _, _, _, rfl, rfl, rfl, rfl, rfl, rfl, rfl, rfl, handles_of (reaches_of (by decide +kernel)) (by decide +kernel), by decide +kernel⟩,
   ⟨rocS { qpX with reads := [{ readE with gap := some 0 }], nextPsn := 2 } (pktF 16 0 0xFFFF 5 1 [0, 0, 0, 1]), _, (pktF 16 0 0xFFFF 5 1 [0, 0, 0, 1]), 5, _, _, _, { readE with gap := some 0 }, [], _, _, rfl, rfl, rfl, rfl, rfl, handles_of (reaches_of (by decide +kernel)) (by decide +kernel), by decide +kernel⟩,
   ⟨rocS { qpX with reads := [readE], nextPsn := 2 } (pktF 16 0 0xFFFF 5 1 [0, 0, 0, 1]), _, (pktF 16 0 0xFFFF 5 1 [0, 0, 0, 1]), 5, _, _, _, readE, [], _, _, rfl, rfl, rfl, rfl, rfl, handles_of (reaches_of (by decide +kernel)) (by decide +kernel), by decide +kernel⟩,
   ⟨rocS { qpX with reads := [readE] } (pktF 16 0 0xFFFF 5 1 [0, 0, 0, 1]), _, (pktF 16 0 0xFFFF 5 1 [0, 0, 0, 1]), 5, _, _, _, readE, [], _, _, rfl, rfl, rfl, rfl, rfl, handles_of (reaches_of (by decide +kernel)) (by decide +kernel), by decide +kernel⟩,
   ⟨rocS { qpX with cnpHold := 10 } (pktF 129 0 0xFFFF 5 0 (List.replicate 16 0)), _, (pktF 129 0 0xFFFF 5 0 (List.replicate 16 0)), 5, _, _, _, _, rfl, rfl, rfl, rfl, handles_of (reaches_of (by decide +kernel)) (by decide +kernel), by decide +kernel⟩,
   ⟨rocS { qpX with cnpHold := 11 } (pktF 129 0 0xFFFF 5 0 (List.replicate 16 0)), _, (pktF 129 0 0xFFFF 5 0 (List.replicate 16 0)), 5, _, _, _, _, rfl, rfl, rfl, rfl, handles_of (reaches_of (by decide +kernel)) (by decide +kernel), by decide +kernel⟩⟩

/-- The first packet waits for its tick. -/
def waitS : State := lastS { qpX with tx := [{ msgM with after := 2000001 }] }
theorem waitS_fetch : waitS.txWait 1048575 = .fetch :=
  (txWait_of (m := { msgM with after := 2000001 }) (ms := []) (by decide +kernel)).trans (by decide +kernel)

theorem witness_TransmissionsAndQueuePairEnds_1 :
    (∃ (s : State) (q : Fin 1048576) (cycle : Fin 2048), (s.joinHold = true ∨ s.txWait q = .idle ∨ s.txWait q = .pace ∨ s.txWait q = .limit ∨ s.txWait q = .cells)) ∧
    (∃ (s : State) (q : Fin 1048576) (cycle : Fin 2048), s.joinHold = false ∧ s.txWait q = .go) ∧
    (∃ (s : State) (q : Fin 1048576) (cycle : Fin 2048), s.joinHold = false ∧ s.txWait q = .again) ∧
    (∃ (s : State) (q : Fin 1048576) (cycle : Fin 2048), s.joinHold = false ∧ s.txWait q = .fetch ∧ (s.qp q).resident = true) ∧
    (∃ (s : State) (q : Fin 1048576) (cycle : Fin 2048), s.joinHold = false ∧ s.txWait q = .fetch ∧ (s.qp q).resident = false) ∧
    (∃ (s : State) (q : Fin 1048576) (cycle : Fin 2048) (g : _) (t : _), s.joinHold = false ∧ (s.qp q).fetch = some g ∧ g.grant = some t ∧ t + 2 ≤ s.now ∧ g.kind = 0) ∧
    (∃ (s : State) (q : Fin 1048576) (cycle : Fin 2048) (g : _) (t : _), s.joinHold = false ∧ (s.qp q).fetch = some g ∧ g.grant = some t ∧ t + 2 ≤ s.now ∧ g.kind = 1) ∧
    (∃ (s : State) (q : Fin 1048576) (cycle : Fin 2048) (g : _) (t : _), s.joinHold = false ∧ (s.qp q).fetch = some g ∧ g.grant = some t ∧ t + 2 ≤ s.now ∧ g.kind = 2) ∧
    (∃ (s : State) (q : Fin 1048576) (cycle : Fin 2048), s.fetchDue q 0 = false) ∧
    (∃ (s : State) (q : Fin 1048576) (cycle : Fin 2048), s.fetchDue q 1 = false ∧ s.releaseDue q = true) ∧
    (∃ (s : State) (q : Fin 1048576) (cycle : Fin 2048), s.fetchDue q 1 = false ∧ s.releaseDue q = false) ∧
    (∃ (s : State) (q : Fin 1048576) (cycle : Fin 2048) (t : _), s.fetchDue q 2 = false ∧ (s.qp q).resident = true ∧ (s.qp q).timerAt = some t ∧ t ≤ s.now) ∧
    (∃ (s : State) (q : Fin 1048576) (cycle : Fin 2048), s.fetchDue q 2 = false ∧ ((s.qp q).resident = false ∨ (s.qp q).timerAt = none)) :=
  ⟨⟨onS, 1048575, 2047, by decide +kernel⟩,
   ⟨goS, 1048575, 2047, by decide +kernel, goS_go⟩,
   ⟨lastS { qpX with resend := [0] }, 1048575, 2047, by decide +kernel⟩,
   ⟨waitS, 1048575, 2047, by decide +kernel, waitS_fetch, by decide +kernel⟩,
   ⟨fetchS, 1048575, 2047, by decide +kernel, fetchS_fetch, by decide +kernel⟩,
   ⟨lastS { qpX with fetch := some { kind := 0, asked := 0, grant := some 1999998 } }, 1048575, 2047, { kind := 0, asked := 0, grant := some 1999998 }, 1999998, by decide +kernel⟩,
   ⟨lastS { qpX with fetch := some { kind := 1, asked := 0, grant := some 1999998 } }, 1048575, 2047, { kind := 1, asked := 0, grant := some 1999998 }, 1999998, by decide +kernel⟩,
   ⟨lastS { qpX with fetch := some { kind := 2, asked := 0, grant := some 1999998 } }, 1048575, 2047, { kind := 2, asked := 0, grant := some 1999998 }, 1999998, by decide +kernel⟩,
   ⟨onS, 1048575, 2047, by decide +kernel⟩,
   ⟨lastS { qpX with tx := [{ msgM with after := 2000000 }] }, 1048575, 2047, by decide +kernel⟩,
   ⟨onS, 1048575, 2047, by decide +kernel⟩,
   ⟨lastS { qpX with timerAt := some 2000000 }, 1048575, 2047, 2000000, by decide +kernel⟩,
   ⟨onS, 1048575, 2047, by decide +kernel⟩⟩

theorem witness_TransmissionsAndQueuePairEnds_2 :
    (∃ (s : State) (q : Fin 1048576), s.ackDue q = false) ∧
    (∃ (s : State) (q : Fin 1048576), s.rnrDue q = false) ∧
    (∃ (s : State) (q : Fin 1048576), s.ackDue q = true ∧ (s.qp q).resident = false) ∧
    (∃ (s : State) (q : Fin 1048576), s.rnrDue q = true ∧ (s.qp q).resident = false) ∧
    (∃ (s : State) (q : Fin 1048576) (t : _), (s.qp q).resident = true ∧ (s.qp q).timerAt = some t ∧ s.now < t) ∧
    (∃ (s : State) (q : Fin 1048576) (u : _) (free : _), u = s.cntRdm 8 1 ∧ free = u.pair.freeResend.contains q.val ∧ (∀ t, (s.qp q).timerAt = some t → t ≤ s.now) ∧ (s.qp q).resident = true ∧ s.ackDue q = true ∧ (u.qp q).retryLeft = 0 ∧ free = false) ∧
    (∃ (s : State) (q : Fin 1048576) (u : _) (free : _), u = s.cntRdm 8 1 ∧ free = u.pair.freeResend.contains q.val ∧ (∀ t, (s.qp q).timerAt = some t → t ≤ s.now) ∧ (s.qp q).resident = true ∧ s.ackDue q = true ∧ 0 < (u.qp q).retryLeft ∧ free = false) ∧
    (∃ (s : State) (q : Fin 1048576) (u : _) (free : _), u = s.cntRdm 8 1 ∧ free = u.pair.freeResend.contains q.val ∧ (∀ t, (s.qp q).timerAt = some t → t ≤ s.now) ∧ (s.qp q).resident = true ∧ s.ackDue q = true ∧ free = true) ∧
    (∃ (s : State) (q : Fin 1048576), (∀ t, (s.qp q).timerAt = some t → t ≤ s.now) ∧ (s.qp q).resident = true ∧ s.rnrDue q = true) ∧
    (∃ (s : State) (q : Fin 1048576), (s.qp q).st = .drain ∧ s.wbsOf q = [] ∧ (s.qp q).held = [] ∧ (s.qp q).tx = []) ∧
    (∃ (s : State) (q : Fin 1048576), ((s.qp q).st ≠ .drain ∨ s.wbsOf q ≠ [] ∨ (s.qp q).held ≠ [] ∨ (s.qp q).tx ≠ [])) ∧
    (∃ (s : State) (q : Fin 1048576), (s.qp q).st = .drain ∧ (s.qp q).drainTick + 976563 ≤ s.now) ∧
    (∃ (s : State) (q : Fin 1048576), ((s.qp q).st ≠ .drain ∨ s.now < (s.qp q).drainTick + 976563)) :=
  ⟨⟨onS, 1048575, by decide +kernel⟩,
   ⟨onS, 1048575, by decide +kernel⟩,
   ⟨lastS { qpX with ackDeadline := 2000000, resident := false }, 1048575, by decide +kernel⟩,
   ⟨lastS { qpX with rnrResume := 2000000, resident := false }, 1048575, by decide +kernel⟩,
   ⟨lastS { qpX with timerAt := some 2000001 }, 1048575, 2000001, by decide +kernel⟩,
   ⟨lastS { qpX with ackDeadline := 2000000, retryLeft := 0 }, 1048575, _, _, rfl, rfl, none_all (by decide +kernel), by decide +kernel⟩,
   ⟨lastS { qpX with ackDeadline := 2000000 }, 1048575, _, _, rfl, rfl, none_all (by decide +kernel), by decide +kernel⟩,
   ⟨{ lastS { qpX with ackDeadline := 2000000 } with pair := { onS.pair with freeResend := [1048575] } }, 1048575, _, _, rfl, rfl, none_all (by decide +kernel), by decide +kernel⟩,
   ⟨lastS { qpX with rnrResume := 2000000 }, 1048575, none_all (by decide +kernel), by decide +kernel⟩,
   ⟨lastS { qpX with st := .drain }, 1048575, by decide +kernel⟩,
   ⟨onS, 1048575, by decide +kernel⟩,
   ⟨lastS { qpX with st := .drain, drainTick := 1023437 }, 1048575, by decide +kernel⟩,
   ⟨onS, 1048575, by decide +kernel⟩⟩

theorem witness_TransmissionsAndQueuePairEnds_3 :
    (∃ (s : State) (q : Fin 1048576), (s.qp q).st = .err ∧ s.wbsOf q = []) ∧
    (∃ (s : State) (q : Fin 1048576), ((s.qp q).st ≠ .err ∨ s.wbsOf q ≠ [])) ∧
    (∃ (s : State) (q : Fin 1048576), (s.qp q).st = .timewait ∧ (s.qp q).twTick + s.fld1 Reg.RDM_CM_CFG Fd.RDM_CM_CFG_TIMEWAIT * 256 ≤ s.now) ∧
    (∃ (s : State) (q : Fin 1048576), ((s.qp q).st ≠ .timewait ∨ s.now < (s.qp q).twTick + s.fld1 Reg.RDM_CM_CFG Fd.RDM_CM_CFG_TIMEWAIT * 256)) ∧
    (∃ (s : State) (u : State) (d : Desc) (q : Nat) (fields : _), u = s.start d ∧ q = d.f 8 4 % 1048576 ∧ fields = (d.handle == 0 && d.reservedZero [(8, 4), (12, 1)] && decide (d.f 8 4 < 16777216) && decide (d.f 12 1 ≤ 1)) ∧ s.Takes Op.QP_DESTROY d ∧ fields = false) ∧
    (∃ (s : State) (u : State) (d : Desc) (q : Nat) (fields : _), u = s.start d ∧ q = d.f 8 4 % 1048576 ∧ fields = (d.handle == 0 && d.reservedZero [(8, 4), (12, 1)] && decide (d.f 8 4 < 16777216) && decide (d.f 12 1 ≤ 1)) ∧ s.Takes Op.QP_DESTROY d ∧ fields = true ∧ u.qpOf (d.f 8 4) ≠ some q) ∧
    (∃ (s : State) (u : State) (d : Desc) (q : Nat) (fields : _) (x : _), u = s.start d ∧ q = d.f 8 4 % 1048576 ∧ fields = (d.handle == 0 && d.reservedZero [(8, 4), (12, 1)] && decide (d.f 8 4 < 16777216) && decide (d.f 12 1 ≤ 1)) ∧ x = u.qp q ∧ s.Takes Op.QP_DESTROY d ∧ fields = true ∧ u.qpOf (d.f 8 4) = some q ∧ (x.st = .timewait ∨ (d.f 12 1 = 0 ∧ (x.st = .drain ∨ x.st = .disc ∨ x.st = .err)))) ∧
    (∃ (s : State) (u : State) (d : Desc) (q : Nat) (fields : _) (x : _) (v : _) (y : _), u = s.start d ∧ q = d.f 8 4 % 1048576 ∧ fields = (d.handle == 0 && d.reservedZero [(8, 4), (12, 1)] && decide (d.f 8 4 < 16777216) && decide (d.f 12 1 ≤ 1)) ∧ x = u.qp q ∧ v = (u.updQp q fun x => { x with destroy := some d }) ∧ y = v.qp q ∧ s.Takes Op.QP_DESTROY d ∧ fields = true ∧ u.qpOf (d.f 8 4) = some q ∧ x.st ≠ .timewait ∧ (d.f 12 1 = 1 ∨ (x.st ≠ .drain ∧ x.st ≠ .disc ∧ x.st ≠ .err)) ∧ y.stNow = .rtr) ∧
    (∃ (s : State) (u : State) (d : Desc) (q : Nat) (fields : _) (x : _) (v : _) (y : _), u = s.start d ∧ q = d.f 8 4 % 1048576 ∧ fields = (d.handle == 0 && d.reservedZero [(8, 4), (12, 1)] && decide (d.f 8 4 < 16777216) && decide (d.f 12 1 ≤ 1)) ∧ x = u.qp q ∧ v = (u.updQp q fun x => { x with destroy := some d }) ∧ y = v.qp q ∧ s.Takes Op.QP_DESTROY d ∧ fields = true ∧ u.qpOf (d.f 8 4) = some q ∧ x.st ≠ .timewait ∧ (d.f 12 1 = 1 ∨ (x.st ≠ .drain ∧ x.st ≠ .disc ∧ x.st ≠ .err)) ∧ d.f 12 1 = 0 ∧ y.stNow = .rts) ∧
    (∃ (s : State) (u : State) (d : Desc) (q : Nat) (fields : _) (x : _) (v : _) (y : _), u = s.start d ∧ q = d.f 8 4 % 1048576 ∧ fields = (d.handle == 0 && d.reservedZero [(8, 4), (12, 1)] && decide (d.f 8 4 < 16777216) && decide (d.f 12 1 ≤ 1)) ∧ x = u.qp q ∧ v = (u.updQp q fun x => { x with destroy := some d }) ∧ y = v.qp q ∧ s.Takes Op.QP_DESTROY d ∧ fields = true ∧ u.qpOf (d.f 8 4) = some q ∧ x.st ≠ .timewait ∧ (d.f 12 1 = 1 ∨ (x.st ≠ .drain ∧ x.st ≠ .disc ∧ x.st ≠ .err)) ∧ d.f 12 1 = 1 ∧ (y.stNow = .rts ∨ y.stNow ≠ .rtr ∧ (y.st = .drain ∨ y.st = .disc))) ∧
    (∃ (s : State) (u : State) (d : Desc) (q : Nat) (fields : _) (x : _) (v : _) (y : _), u = s.start d ∧ q = d.f 8 4 % 1048576 ∧ fields = (d.handle == 0 && d.reservedZero [(8, 4), (12, 1)] && decide (d.f 8 4 < 16777216) && decide (d.f 12 1 ≤ 1)) ∧ x = u.qp q ∧ v = (u.updQp q fun x => { x with destroy := some d }) ∧ y = v.qp q ∧ s.Takes Op.QP_DESTROY d ∧ fields = true ∧ u.qpOf (d.f 8 4) = some q ∧ x.st ≠ .timewait ∧ (d.f 12 1 = 1 ∨ (x.st ≠ .drain ∧ x.st ≠ .disc ∧ x.st ≠ .err)) ∧ y.stNow ≠ .rtr ∧ y.stNow ≠ .rts ∧ (d.f 12 1 = 0 ∨ (y.st ≠ .drain ∧ y.st ≠ .disc))) :=
  ⟨⟨lastS { qpX with st := .err }, 1048575, by decide +kernel⟩,
   ⟨onS, 1048575, by decide +kernel⟩,
   ⟨lastS { qpX with st := .timewait }, 1048575, by decide +kernel⟩,
   ⟨onS, 1048575, by decide +kernel⟩,
   ⟨withD ({ lastS qpX with now := 10 }) (cmdD Op.QP_DESTROY 0 [(8, 4, 1048575), (12, 1, 2)]), _, (cmdD Op.QP_DESTROY 0 [(8, 4, 1048575), (12, 1, 2)]), _, _, rfl, rfl, rfl, takes_of (by decide +kernel), by decide +kernel⟩,
   ⟨withD onS (cmdD Op.QP_DESTROY 0 [(8, 4, 16777215), (12, 1, 1)]), _, (cmdD Op.QP_DESTROY 0 [(8, 4, 16777215), (12, 1, 1)]), _, _, rfl, rfl, rfl, takes_of (by decide +kernel), by decide +kernel⟩,
   ⟨withD ({ lastS { qpX with st := .timewait } with now := 10 }) (cmdD Op.QP_DESTROY 0 [(8, 4, 1048575), (12, 1, 1)]), _, (cmdD Op.QP_DESTROY 0 [(8, 4, 1048575), (12, 1, 1)]), _, _, _, rfl, rfl, rfl, rfl, takes_of (by decide +kernel), by decide +kernel⟩,
   ⟨withD ({ lastS { qpX with st := .rtr } with now := 10 }) (cmdD Op.QP_DESTROY 0 [(8, 4, 1048575)]), _, (cmdD Op.QP_DESTROY 0 [(8, 4, 1048575)]), _, _, _, _, _, rfl, rfl, rfl, rfl, rfl, rfl, takes_of (by decide +kernel), by decide +kernel⟩,
   ⟨withD ({ lastS qpX with now := 10 }) (cmdD Op.QP_DESTROY 0 [(8, 4, 1048575)]), _, (cmdD Op.QP_DESTROY 0 [(8, 4, 1048575)]), _, _, _, _, _, rfl, rfl, rfl, rfl, rfl, rfl, takes_of (by decide +kernel), by decide +kernel⟩,
   ⟨withD ({ lastS qpX with now := 10 }) (cmdD Op.QP_DESTROY 0 [(8, 4, 1048575), (12, 1, 1)]), _, (cmdD Op.QP_DESTROY 0 [(8, 4, 1048575), (12, 1, 1)]), _, _, _, _, _, rfl, rfl, rfl, rfl, rfl, rfl, takes_of (by decide +kernel), by decide +kernel⟩,
   ⟨withD ({ lastS { qpX with st := .err } with now := 10 }) (cmdD Op.QP_DESTROY 0 [(8, 4, 1048575), (12, 1, 1)]), _, (cmdD Op.QP_DESTROY 0 [(8, 4, 1048575), (12, 1, 1)]), _, _, _, _, _, rfl, rfl, rfl, rfl, rfl, rfl, takes_of (by decide +kernel), by decide +kernel⟩⟩

/-- Every QP index has been given. -/
def fullQ : State := { cmS qpX with rdm := { (cmS qpX).rdm with qps := [], fresh := 1048576, freed := [] } }

theorem witness_ConnectionsAreManaged_1 :
    (∃ (s : State) (r : CmReq) (q : Fin 1048576), (s.fwRuns = false ∨ s.isStandby = true ∨ s.rdm.cm = [])) ∧
    (∃ (s : State) (u : State) (f : Frame) (rest : List Frame) (r : CmReq) (h : _), u = { s with rdm := { s.rdm with cm := rest } } ∧ h = parseHdr f.bytes ∧ s.fwRuns = true ∧ s.isStandby = false ∧ s.rdm.cm = f :: rest ∧ r.serviceId ≠ u.serviceId) ∧
    (∃ (s : State) (u : State) (f : Frame) (rest : List Frame) (r : CmReq) (h : _), u = { s with rdm := { s.rdm with cm := rest } } ∧ h = parseHdr f.bytes ∧ s.fwRuns = true ∧ s.isStandby = false ∧ s.rdm.cm = f :: rest ∧ r.serviceId = u.serviceId ∧ r.rc = false) ∧
    (∃ (s : State) (u : State) (f : Frame) (rest : List Frame) (r : CmReq) (h : _), u = { s with rdm := { s.rdm with cm := rest } } ∧ h = parseHdr f.bytes ∧ s.fwRuns = true ∧ s.isStandby = false ∧ s.rdm.cm = f :: rest ∧ r.serviceId = u.serviceId ∧ r.rc = true ∧ u.matchEntry f.m h.vlan h.dstIp = none) ∧
    (∃ (s : State) (u : State) (f : Frame) (rest : List Frame) (r : CmReq) (h : _) (e : _), u = { s with rdm := { s.rdm with cm := rest } } ∧ h = parseHdr f.bytes ∧ (∃ q ∈ u.liveQps, (fun (q : Nat) => (fun (x : Qp) => x.rip == h.srcIp && x.rqpn == r.remoteQpn) (u.qp q) && ((u.qp q).st == .rts || (u.qp q).st == .drain || (u.qp q).st == .disc)) q = true) ∧ s.fwRuns = true ∧ s.isStandby = false ∧ s.rdm.cm = f :: rest ∧ r.serviceId = u.serviceId ∧ r.rc = true ∧ u.matchEntry f.m h.vlan h.dstIp = some e) ∧
    (∃ (s : State) (u : State) (f : Frame) (rest : List Frame) (r : CmReq) (h : _) (e : _) (twin : _) (q : _), u = { s with rdm := { s.rdm with cm := rest } } ∧ h = parseHdr f.bytes ∧ twin = ((u.knownQps.find? fun q => (fun (x : Qp) => x.rip == h.srcIp && x.rqpn == r.remoteQpn) (u.qp q) && (fun (q : Nat) => (u.qp q).st == .rtr || (u.qp q).next == .rtr) q)) ∧ (∀ q ∈ u.liveQps, (fun (q : Nat) => (fun (x : Qp) => x.rip == h.srcIp && x.rqpn == r.remoteQpn) (u.qp q) && ((u.qp q).st == .rts || (u.qp q).st == .drain || (u.qp q).st == .disc)) q = false) ∧ s.fwRuns = true ∧ s.isStandby = false ∧ s.rdm.cm = f :: rest ∧ r.serviceId = u.serviceId ∧ r.rc = true ∧ u.matchEntry f.m h.vlan h.dstIp = some e ∧ twin = some q ∧ (u.qp q).st = .rtr) ∧
    (∃ (s : State) (u : State) (f : Frame) (rest : List Frame) (r : CmReq) (h : _) (e : _) (twin : _) (q : _), u = { s with rdm := { s.rdm with cm := rest } } ∧ h = parseHdr f.bytes ∧ twin = ((u.knownQps.find? fun q => (fun (x : Qp) => x.rip == h.srcIp && x.rqpn == r.remoteQpn) (u.qp q) && (fun (q : Nat) => (u.qp q).st == .rtr || (u.qp q).next == .rtr) q)) ∧ (∀ q ∈ u.liveQps, (fun (q : Nat) => (fun (x : Qp) => x.rip == h.srcIp && x.rqpn == r.remoteQpn) (u.qp q) && ((u.qp q).st == .rts || (u.qp q).st == .drain || (u.qp q).st == .disc)) q = false) ∧ s.fwRuns = true ∧ s.isStandby = false ∧ s.rdm.cm = f :: rest ∧ r.serviceId = u.serviceId ∧ r.rc = true ∧ u.matchEntry f.m h.vlan h.dstIp = some e ∧ twin = some q ∧ (u.qp q).st ≠ .rtr) ∧
    (∃ (s : State) (u : State) (f : Frame) (rest : List Frame) (r : CmReq) (h : _) (e : _) (twin : _), u = { s with rdm := { s.rdm with cm := rest } } ∧ h = parseHdr f.bytes ∧ twin = ((u.knownQps.find? fun q => (fun (x : Qp) => x.rip == h.srcIp && x.rqpn == r.remoteQpn) (u.qp q) && (fun (q : Nat) => (u.qp q).st == .rtr || (u.qp q).next == .rtr) q)) ∧ (∀ q ∈ u.liveQps, (fun (q : Nat) => (fun (x : Qp) => x.rip == h.srcIp && x.rqpn == r.remoteQpn) (u.qp q) && ((u.qp q).st == .rts || (u.qp q).st == .drain || (u.qp q).st == .disc)) q = false) ∧ s.fwRuns = true ∧ s.isStandby = false ∧ s.rdm.cm = f :: rest ∧ r.serviceId = u.serviceId ∧ r.rc = true ∧ u.matchEntry f.m h.vlan h.dstIp = some e ∧ twin = none ∧ r.recfmt ≠ 0) ∧
    (∃ (s : State) (u : State) (f : Frame) (rest : List Frame) (r : CmReq) (h : _) (e : _) (twin : _) (st : _), u = { s with rdm := { s.rdm with cm := rest } } ∧ h = parseHdr f.bytes ∧ twin = ((u.knownQps.find? fun q => (fun (x : Qp) => x.rip == h.srcIp && x.rqpn == r.remoteQpn) (u.qp q) && (fun (q : Nat) => (u.qp q).st == .rtr || (u.qp q).next == .rtr) q)) ∧ (∀ q ∈ u.liveQps, (fun (q : Nat) => (fun (x : Qp) => x.rip == h.srcIp && x.rqpn == r.remoteQpn) (u.qp q) && ((u.qp q).st == .rts || (u.qp q).st == .drain || (u.qp q).st == .disc)) q = false) ∧ s.fwRuns = true ∧ s.isStandby = false ∧ s.rdm.cm = f :: rest ∧ r.serviceId = u.serviceId ∧ r.rc = true ∧ u.matchEntry f.m h.vlan h.dstIp = some e ∧ twin = none ∧ r.recfmt = 0 ∧ u.reqLimits r = some st) ∧
    (∃ (s : State) (u : State) (f : Frame) (rest : List Frame) (r : CmReq) (h : _) (e : _) (twin : _), u = { s with rdm := { s.rdm with cm := rest } } ∧ h = parseHdr f.bytes ∧ twin = ((u.knownQps.find? fun q => (fun (x : Qp) => x.rip == h.srcIp && x.rqpn == r.remoteQpn) (u.qp q) && (fun (q : Nat) => (u.qp q).st == .rtr || (u.qp q).next == .rtr) q)) ∧ (∀ q ∈ u.liveQps, (fun (q : Nat) => (fun (x : Qp) => x.rip == h.srcIp && x.rqpn == r.remoteQpn) (u.qp q) && ((u.qp q).st == .rts || (u.qp q).st == .drain || (u.qp q).st == .disc)) q = false) ∧ s.fwRuns = true ∧ s.isStandby = false ∧ s.rdm.cm = f :: rest ∧ r.serviceId = u.serviceId ∧ r.rc = true ∧ u.matchEntry f.m h.vlan h.dstIp = some e ∧ twin = none ∧ r.recfmt = 0 ∧ u.reqLimits r = none ∧ ¬ (3 ≤ r.pmtu ∧ r.pmtu ≤ 5 ∧ 128 * 2 ^ r.pmtu + 102 ≤ u.maxFrame f.m ∧ r.respRes ≠ 0)) ∧
    (∃ (s : State) (u : State) (f : Frame) (rest : List Frame) (r : CmReq) (h : _) (pending : _) (most : _) (e : _) (twin : _), u = { s with rdm := { s.rdm with cm := rest } } ∧ h = parseHdr f.bytes ∧ pending = ((u.knownQps.filter (fun (q : Nat) => (u.qp q).st == .rtr || (u.qp q).next == .rtr)).length) ∧ most = u.fld1 Reg.RDM_CM_CFG Fd.RDM_CM_CFG_MAX_PENDING ∧ twin = ((u.knownQps.find? fun q => (fun (x : Qp) => x.rip == h.srcIp && x.rqpn == r.remoteQpn) (u.qp q) && (fun (q : Nat) => (u.qp q).st == .rtr || (u.qp q).next == .rtr) q)) ∧ (∀ q ∈ u.liveQps, (fun (q : Nat) => (fun (x : Qp) => x.rip == h.srcIp && x.rqpn == r.remoteQpn) (u.qp q) && ((u.qp q).st == .rts || (u.qp q).st == .drain || (u.qp q).st == .disc)) q = false) ∧ s.fwRuns = true ∧ s.isStandby = false ∧ s.rdm.cm = f :: rest ∧ r.serviceId = u.serviceId ∧ r.rc = true ∧ u.matchEntry f.m h.vlan h.dstIp = some e ∧ twin = none ∧ r.recfmt = 0 ∧ u.reqLimits r = none ∧ (3 ≤ r.pmtu ∧ r.pmtu ≤ 5 ∧ 128 * 2 ^ r.pmtu + 102 ≤ u.maxFrame f.m ∧ r.respRes ≠ 0) ∧ most ≤ pending) ∧
    (∃ (s : State) (u : State) (f : Frame) (rest : List Frame) (r : CmReq) (h : _) (pending : _) (most : _) (e : _) (twin : _), u = { s with rdm := { s.rdm with cm := rest } } ∧ h = parseHdr f.bytes ∧ pending = ((u.knownQps.filter (fun (q : Nat) => (u.qp q).st == .rtr || (u.qp q).next == .rtr)).length) ∧ most = u.fld1 Reg.RDM_CM_CFG Fd.RDM_CM_CFG_MAX_PENDING ∧ twin = ((u.knownQps.find? fun q => (fun (x : Qp) => x.rip == h.srcIp && x.rqpn == r.remoteQpn) (u.qp q) && (fun (q : Nat) => (u.qp q).st == .rtr || (u.qp q).next == .rtr) q)) ∧ (∀ q ∈ u.liveQps, (fun (q : Nat) => (fun (x : Qp) => x.rip == h.srcIp && x.rqpn == r.remoteQpn) (u.qp q) && ((u.qp q).st == .rts || (u.qp q).st == .drain || (u.qp q).st == .disc)) q = false) ∧ s.fwRuns = true ∧ s.isStandby = false ∧ s.rdm.cm = f :: rest ∧ r.serviceId = u.serviceId ∧ r.rc = true ∧ u.matchEntry f.m h.vlan h.dstIp = some e ∧ twin = none ∧ r.recfmt = 0 ∧ u.reqLimits r = none ∧ (3 ≤ r.pmtu ∧ r.pmtu ≤ 5 ∧ 128 * 2 ^ r.pmtu + 102 ≤ u.maxFrame f.m ∧ r.respRes ≠ 0) ∧ pending < most ∧ u.nextQp = none) ∧
    (∃ (s : State) (u : State) (f : Frame) (rest : List Frame) (r : CmReq) (h : _) (pending : _) (most : _) (e : _) (twin : _) (q : _), u = { s with rdm := { s.rdm with cm := rest } } ∧ h = parseHdr f.bytes ∧ pending = ((u.knownQps.filter (fun (q : Nat) => (u.qp q).st == .rtr || (u.qp q).next == .rtr)).length) ∧ most = u.fld1 Reg.RDM_CM_CFG Fd.RDM_CM_CFG_MAX_PENDING ∧ twin = ((u.knownQps.find? fun q => (fun (x : Qp) => x.rip == h.srcIp && x.rqpn == r.remoteQpn) (u.qp q) && (fun (q : Nat) => (u.qp q).st == .rtr || (u.qp q).next == .rtr) q)) ∧ (∀ q ∈ u.liveQps, (fun (q : Nat) => (fun (x : Qp) => x.rip == h.srcIp && x.rqpn == r.remoteQpn) (u.qp q) && ((u.qp q).st == .rts || (u.qp q).st == .drain || (u.qp q).st == .disc)) q = false) ∧ s.fwRuns = true ∧ s.isStandby = false ∧ s.rdm.cm = f :: rest ∧ r.serviceId = u.serviceId ∧ r.rc = true ∧ u.matchEntry f.m h.vlan h.dstIp = some e ∧ twin = none ∧ r.recfmt = 0 ∧ u.reqLimits r = none ∧ (3 ≤ r.pmtu ∧ r.pmtu ≤ 5 ∧ 128 * 2 ^ r.pmtu + 102 ≤ u.maxFrame f.m ∧ r.respRes ≠ 0) ∧ pending < most ∧ u.nextQp = some q) ∧
    (∃ (s : State) (u : State) (f : Frame) (rest : List Frame) (q : Fin 1048576) (x : _), u = { s with rdm := { s.rdm with cm := rest } } ∧ x = u.qp q ∧ s.fwRuns = true ∧ s.isStandby = false ∧ s.rdm.cm = f :: rest ∧ x.st ≠ .rtr) :=
  ⟨⟨onS, cmR, 1048575, by decide +kernel⟩,
   ⟨cmS qpX, _, pktF 0x64 0 0xFFFF 1 0 [], [], { cmR with serviceId := 0 }, _, rfl, rfl, by decide +kernel⟩,
   ⟨cmS qpX, _, pktF 0x64 0 0xFFFF 1 0 [], [], { cmR with rc := false }, _, rfl, rfl, by decide +kernel⟩,
   ⟨{ cmS qpX with rdm := { (cmS qpX).rdm with cm := [{ pktF 0x64 0 0xFFFF 1 0 [] with m := 127 }] } }, _, { pktF 0x64 0 0xFFFF 1 0 [] with m := 127 }, [], cmR, _, rfl, rfl, by decide +kernel⟩,
   ⟨cmS { qpX with rqpn := 7 }, _, pktF 0x64 0 0xFFFF 1 0 [], [], cmR, _, 0, rfl, rfl, by decide +kernel, by decide +kernel⟩,
   ⟨cmS { qpX with st := .rtr, rqpn := 7 }, _, pktF 0x64 0 0xFFFF 1 0 [], [], cmR, _, 0, _, 1048575, rfl, rfl, rfl, by decide +kernel, by decide +kernel⟩,
   ⟨cmS { qpX with st := .free, next := .rtr, rqpn := 7 }, _, pktF 0x64 0 0xFFFF 1 0 [], [], cmR, _, 0, _, 1048575, rfl, rfl, rfl, by decide +kernel, by decide +kernel⟩,
   ⟨{ cmS qpX with rdm := { (cmS qpX).rdm with qps := [] } }, _, pktF 0x64 0 0xFFFF 1 0 [], [], { cmR with recfmt := 1 }, _, 0, _, rfl, rfl, rfl, by decide +kernel, by decide +kernel⟩,
   ⟨{ cmS qpX with rdm := { (cmS qpX).rdm with qps := [] } }, _, pktF 0x64 0 0xFFFF 1 0 [], [], { cmR with qid := 65535 }, _, 0, _, cmInvalidQid, rfl, rfl, rfl, by decide +kernel, by decide +kernel⟩,
   ⟨{ cmS qpX with rdm := { (cmS qpX).rdm with qps := [] } }, _, pktF 0x64 0 0xFFFF 1 0 [], [], { cmR with respRes := 0 }, _, 0, _, rfl, rfl, rfl, by decide +kernel, by decide +kernel⟩,
   ⟨(cmS { qpX with st := .rtr }).setFld Reg.RDM_CM_CFG Fd.RDM_CM_CFG_MAX_PENDING 0, _, pktF 0x64 0 0xFFFF 1 0 [], [], cmR, _, _, _, 0, _, rfl, rfl, rfl, rfl, rfl, by decide +kernel, by decide +kernel⟩,
   ⟨fullQ, _, pktF 0x64 0 0xFFFF 1 0 [], [], cmR, _, _, _, 0, _, rfl, rfl, rfl, rfl, rfl, by decide +kernel, by decide +kernel⟩,
   ⟨{ cmS qpX with rdm := { (cmS qpX).rdm with qps := [] } }, _, pktF 0x64 0 0xFFFF 1 0 [], [], cmR, _, _, _, 0, _, 0, rfl, rfl, rfl, rfl, rfl, by decide +kernel, by decide +kernel⟩,
   ⟨cmS qpX, _, pktF 0x64 0 0xFFFF 1 0 [], [], 1048575, _, rfl, rfl, by decide +kernel⟩⟩

theorem witness_ConnectionsAreManaged_2 :
    (∃ (s : State) (u : State) (f : Frame) (rest : List Frame) (q : Fin 1048576) (x : _), u = { s with rdm := { s.rdm with cm := rest } } ∧ x = u.qp q ∧ s.fwRuns = true ∧ s.isStandby = false ∧ s.rdm.cm = f :: rest ∧ x.st = .disc) ∧
    (∃ (s : State) (u : State) (f : Frame) (rest : List Frame) (q : Fin 1048576) (x : _), u = { s with rdm := { s.rdm with cm := rest } } ∧ x = u.qp q ∧ s.fwRuns = true ∧ s.isStandby = false ∧ s.rdm.cm = f :: rest ∧ x.st ≠ .disc) ∧
    (∃ (s : State) (u : State) (f : Frame) (rest : List Frame) (q : Fin 1048576) (x : _), u = { s with rdm := { s.rdm with cm := rest } } ∧ x = u.qp q ∧ s.fwRuns = true ∧ s.isStandby = false ∧ s.rdm.cm = f :: rest ∧ (x.st = .rts ∨ x.st = .drain)) ∧
    (∃ (s : State) (u : State) (f : Frame) (rest : List Frame) (q : Fin 1048576) (x : _), u = { s with rdm := { s.rdm with cm := rest } } ∧ x = u.qp q ∧ s.fwRuns = true ∧ s.isStandby = false ∧ s.rdm.cm = f :: rest ∧ x.st = .rtr ∧ x.next = .rts) ∧
    (∃ (s : State) (u : State) (f : Frame) (rest : List Frame) (q : Fin 1048576) (x : _), u = { s with rdm := { s.rdm with cm := rest } } ∧ x = u.qp q ∧ s.fwRuns = true ∧ s.isStandby = false ∧ s.rdm.cm = f :: rest ∧ (x.st = .err ∨ x.st = .timewait)) ∧
    (∃ (s : State) (u : State) (f : Frame) (rest : List Frame) (q : Fin 1048576) (x : _), u = { s with rdm := { s.rdm with cm := rest } } ∧ x = u.qp q ∧ s.fwRuns = true ∧ s.isStandby = false ∧ s.rdm.cm = f :: rest ∧ (x.st = .free ∨ (x.st = .rtr ∧ x.next ≠ .rts))) ∧
    (∃ (s : State) (m : Nat) (e : Nat) (rmac : List Byte) (rip : List Byte) (n : Nat) (msg : CmMsg), s.netOn = true) ∧
    (∃ (s : State) (m : Nat) (e : Nat) (rmac : List Byte) (rip : List Byte) (n : Nat) (msg : CmMsg), s.netOn = false) ∧
    (∃ (s : State) (q : Fin 1048576), (s.qp q).next = .none ∧ (s.qp q).cmTick + 16384 ≤ s.now ∧ (s.qp q).st = .rtr ∧ (s.qp q).cmSent < 4) ∧
    (∃ (s : State) (q : Fin 1048576), (s.qp q).next = .none ∧ (s.qp q).cmTick + 16384 ≤ s.now ∧ (s.qp q).st = .rtr ∧ 4 ≤ (s.qp q).cmSent) ∧
    (∃ (s : State) (q : Fin 1048576), (s.qp q).next = .none ∧ (s.qp q).cmTick + 16384 ≤ s.now ∧ (s.qp q).st = .disc ∧ (s.qp q).cmSent < 4) ∧
    (∃ (s : State) (q : Fin 1048576), (s.qp q).next = .none ∧ (s.qp q).cmTick + 16384 ≤ s.now ∧ (s.qp q).st = .disc ∧ 4 ≤ (s.qp q).cmSent) ∧
    (∃ (s : State) (q : Fin 1048576), ((s.qp q).next ≠ .none ∨ s.now < (s.qp q).cmTick + 16384 ∨ (s.qp q).st ≠ .rtr)) ∧
    (∃ (s : State) (q : Fin 1048576), ((s.qp q).next ≠ .none ∨ s.now < (s.qp q).cmTick + 16384 ∨ (s.qp q).st ≠ .disc)) :=
  ⟨⟨cmS { qpX with st := .disc }, _, pktF 0x64 0 0xFFFF 1 0 [], [], 1048575, _, rfl, rfl, by decide +kernel⟩,
   ⟨cmS qpX, _, pktF 0x64 0 0xFFFF 1 0 [], [], 1048575, _, rfl, rfl, by decide +kernel⟩,
   ⟨cmS { qpX with st := .drain }, _, pktF 0x64 0 0xFFFF 1 0 [], [], 1048575, _, rfl, rfl, by decide +kernel⟩,
   ⟨cmS { qpX with st := .rtr, next := .rts }, _, pktF 0x64 0 0xFFFF 1 0 [], [], 1048575, _, rfl, rfl, by decide +kernel⟩,
   ⟨cmS { qpX with st := .timewait }, _, pktF 0x64 0 0xFFFF 1 0 [], [], 1048575, _, rfl, rfl, by decide +kernel⟩,
   ⟨cmS { qpX with st := .rtr }, _, pktF 0x64 0 0xFFFF 1 0 [], [], 1048575, _, rfl, rfl, by decide +kernel⟩,
   ⟨netS, 0, 0, [], [], 1, .drep 0, by decide +kernel⟩,
   ⟨{ netS with straps := { netS.straps with pairEn := true } }, 0, 0, [], [], 1, .drep 0, by decide +kernel⟩,
   ⟨lastS { qpX with st := .rtr, cmSent := 3 }, 1048575, by decide +kernel⟩,
   ⟨lastS { qpX with st := .rtr, cmSent := 4 }, 1048575, by decide +kernel⟩,
   ⟨lastS { qpX with st := .disc, cmSent := 3 }, 1048575, by decide +kernel⟩,
   ⟨lastS { qpX with st := .disc, cmSent := 4 }, 1048575, by decide +kernel⟩,
   ⟨onS, 1048575, by decide +kernel⟩,
   ⟨onS, 1048575, by decide +kernel⟩⟩

/-- The capsule of the item is gone. -/
def noCapS : State := { capS wCap .rts .opened Rt.rxParse with cmd := { (capS wCap .rts .opened Rt.rxParse).cmd with caps := [] } }

/-- A write of one block to namespace 1 on channel 9, and one ahead of it that waits for dirty lines. -/
def ioC : Capsule := { wCap with sqe := [1, 0x40, 0, 0, 1] ++ List.replicate 59 0, chan := some 9 }
def aheadI : Item := { itemOf (.cap 0) 1 Rt.cmdAdmit 1 with why := 3, passed := true }
def ioS (credit : Nat) (ahead : List Item) : State :=
  let s := ((capS ioC .rts .opened Rt.cmdAdmit).setCtrl 0 { Ctrl.reset with live := true, cc := 1 }).setChan 9 { Chan.reset with st := .opened, cls := 1, nsid := 1, credit := credit }
  { (s.setFld Reg.LAY_DIRTY_EFF Fd.LAY_DIRTY_EFF_LINES 10) with
    lay := { s.lay with vols := [(0, wVol)] }, cmd := { s.cmd with caps := [{ ioC with id := 0 }, ioC], items := ahead ++ s.cmd.items }
    rdm := { s.rdm with qps := [(5, { Qp.reset with st := .rts, bound := true, depth := 32, qid := 1 })] } }

/-- An abandoned command with a drive command out. -/
def cmdWb : State :=
  let s := wbS { adminX with st := .abandoned } Rt.cplRetire 1
  { s with drv := { s.drv with cmds := [(9, some drvC)] } }

/-- The command that the Abort names is a capsule. -/
def namedCap : State := { abortS with cmd := { abortS.cmd with caps := [{ wCap with cid := 7 }] } }

theorem witness_CapsulesLocksAndAborts_1 :
    (∃ (s : State) (u : State) (k : Fin 12) (c : Fin 256) (it : Item) (w : Nat) (x : Waybill), x = u.wb w ∧ it.ref = .wb w) ∧
    (∃ (s : State) (u : State) (k : Fin 12) (c : Fin 256) (it : Item) (id : Nat), s.Enters k c Rt.rxParse u it ∧ it.ref = .cap id ∧ u.cap? id = none) ∧
    (∃ (s : State) (u : State) (k : Fin 12) (c : Fin 256) (it : Item) (id : Nat) (cap : _), s.Enters k c Rt.rxParse u it ∧ it.ref = .cap id ∧ u.cap? id = some cap ∧ u.qpOf cap.qpn = none) ∧
    (∃ (s : State) (u : State) (k : Fin 12) (c : Fin 256) (it : Item) (id : Nat) (cap : _) (q : _), s.Enters k c Rt.rxParse u it ∧ it.ref = .cap id ∧ u.cap? id = some cap ∧ u.qpOf cap.qpn = some q ∧ u.parseRows q cap = none) ∧
    (∃ (s : State) (u : State) (k : Fin 12) (c : Fin 256) (it : Item) (id : Nat) (cap : _) (q : _) (a : _), s.Enters k c Rt.rxParse u it ∧ it.ref = .cap id ∧ u.cap? id = some cap ∧ u.qpOf cap.qpn = some q ∧ u.parseRows q cap = some a) ∧
    (∃ (s : State) (u : State) (k : Fin 12) (c : Fin 256) (it : Item) (id : Nat) (q : Nat) (cap : Capsule) (write : _), write = (isRw (u.qp q).qid cap.sqe && sqeOp cap.sqe != 0x02) ∧ s.Enters k c Rt.cmdAdmit u it ∧ it.ref = .cap id ∧ u.cap? id = some cap ∧ u.qpOf cap.qpn = some q ∧ u.admitRows q cap = .pass ∧ (write = false ∨ u.behind cap = false)) ∧
    (∃ (s : State) (u : State) (k : Fin 12) (c : Fin 256) (it : Item) (id : Nat) (q : Nat) (cap : Capsule) (write : _), write = (isRw (u.qp q).qid cap.sqe && sqeOp cap.sqe != 0x02) ∧ s.Enters k c Rt.cmdAdmit u it ∧ it.ref = .cap id ∧ u.cap? id = some cap ∧ u.qpOf cap.qpn = some q ∧ u.admitRows q cap = .pass ∧ write = true ∧ u.behind cap = true) ∧
    (∃ (s : State) (u : State) (k : Fin 12) (c : Fin 256) (it : Item) (id : Nat) (q : Nat) (cap : Capsule) (n : _), s.Enters k c Rt.cmdAdmit u it ∧ it.ref = .cap id ∧ u.cap? id = some cap ∧ u.qpOf cap.qpn = some q ∧ u.admitRows q cap = .wait n) ∧
    (∃ (s : State) (u : State) (k : Fin 12) (c : Fin 256) (it : Item) (id : Nat) (q : Nat) (cap : Capsule), s.Enters k c Rt.cmdAdmit u it ∧ it.ref = .cap id ∧ u.cap? id = some cap ∧ u.qpOf cap.qpn = some q ∧ u.admitRows q cap = .suspend) ∧
    (∃ (s : State) (u : State) (k : Fin 12) (c : Fin 256) (it : Item) (id : Nat) (q : Nat) (cap : Capsule) (a : _), s.Enters k c Rt.cmdAdmit u it ∧ it.ref = .cap id ∧ u.cap? id = some cap ∧ u.qpOf cap.qpn = some q ∧ u.admitRows q cap = .answer a) ∧
    (∃ (s : State) (u : State) (k : Fin 12) (c : Fin 256) (it : Item) (w : Nat), s.Enters k c Rt.cmdAdmit u it ∧ it.ref = .wb w) ∧
    (∃ (s : State) (u : State) (k : Fin 12) (c : Fin 256) (it : Item) (id : Nat) (cap : Capsule) (v : _) (q : _), v = (u.cntCmd 0 1).endItem it ∧ s.Enters k c Rt.suspendResp u it ∧ (∀ i, cap.chan = some i → ∀ t : State, (t.chan i).st ≠ .closing) ∧ it.ref = .cap id ∧ u.cap? id = some cap ∧ v.qpOf cap.qpn = some q ∧ isConnect cap.sqe = false) ∧
    (∃ (s : State) (u : State) (k : Fin 12) (c : Fin 256) (it : Item) (w : Nat) (x : Waybill), x = u.wb w ∧ s.RunsWb k c Rt.lockCheck u it w ∧ x.locks = false) ∧
    (∃ (s : State) (u : State) (k : Fin 12) (c : Fin 256) (it : Item) (w : Nat) (x : Waybill), x = u.wb w ∧ s.RunsWb k c Rt.lockCheck u it w ∧ x.locks = true ∧ 65536 ≤ Tab.lowest u.cmd.locks) :=
  ⟨⟨onS, onS, 11, 255, itemOf (.wb 3) 1 1 1, 3, _, rfl, by decide +kernel⟩,
   ⟨noCapS, _, 0, 1, _, 1, enters_of (r := slotR 1 Rt.rxParse) (x := capI Rt.rxParse) (by decide +kernel), by decide +kernel⟩,
   ⟨capS { wCap with qpn := 6 } .rts .opened Rt.rxParse, _, 0, 1, _, 1, { wCap with qpn := 6 }, enters_of (r := slotR 1 Rt.rxParse) (x := capI Rt.rxParse) (by decide +kernel), by decide +kernel⟩,
   ⟨capS wCap .rts .opened Rt.rxParse, _, 0, 1, _, 1, wCap, 5, enters_of (r := slotR 1 Rt.rxParse) (x := capI Rt.rxParse) (by decide +kernel), by decide +kernel⟩,
   ⟨capS wCap .drain .opened Rt.rxParse, _, 0, 1, _, 1, wCap, 5, .plain Nv.sqDeleted, enters_of (r := slotR 1 Rt.rxParse) (x := capI Rt.rxParse) (by decide +kernel), by decide +kernel⟩,
   ⟨capS wCap .rts .opened Rt.cmdAdmit, _, 0, 1, _, 1, 5, wCap, _, rfl, enters_of (r := slotR 1 Rt.cmdAdmit) (x := capI Rt.cmdAdmit) (by decide +kernel), by decide +kernel⟩,
   ⟨ioS 1000 [aheadI], _, 0, 1, _, 1, 5, ioC, _, rfl, enters_of (r := slotR 1 Rt.cmdAdmit) (x := capI Rt.cmdAdmit) (by decide +kernel), by decide +kernel⟩,
   ⟨ioS 255 [], _, 0, 1, _, 1, 5, ioC, 1, enters_of (r := slotR 1 Rt.cmdAdmit) (x := capI Rt.cmdAdmit) (by decide +kernel), by decide +kernel⟩,
   ⟨capS { wCap with chan := some 9 } .rts .suspended Rt.cmdAdmit, _, 0, 1, _, 1, 5, { wCap with chan := some 9 }, enters_of (r := slotR 1 Rt.cmdAdmit) (x := capI Rt.cmdAdmit) (by decide +kernel), by decide +kernel⟩,
   ⟨capS { wCap with chan := some 9 } .rts .closing Rt.cmdAdmit, _, 0, 1, _, 1, 5, { wCap with chan := some 9 }, { status := Nv.badNs, cnt := none, counted := true }, enters_of (r := slotR 1 Rt.cmdAdmit) (x := capI Rt.cmdAdmit) (by decide +kernel), by decide +kernel⟩,
   ⟨wbS writeX Rt.cmdAdmit 1, _, 0, 1, _, 3, enters_of (r := slotR 1 Rt.cmdAdmit) (x := wbI Rt.cmdAdmit 1) (by decide +kernel), by decide +kernel⟩,
   ⟨capS wCap .rts .opened Rt.suspendResp, _, 0, 1, _, 1, wCap, _, 5, rfl, enters_of (r := slotR 1 Rt.suspendResp) (x := capI Rt.suspendResp) (by decide +kernel), none_all rfl, by decide +kernel⟩,
   ⟨wbS adminX Rt.lockCheck 1, _, 0, 1, _, 3, _, rfl, runsWb_of (r := slotR 1 Rt.lockCheck) (x := wbI Rt.lockCheck 1) (by decide +kernel), by decide +kernel⟩,
   ⟨(lockedOut (wbS writeX Rt.lockCheck 1)), _, 0, 1, _, 3, _, rfl, runsWb_of (r := slotR 1 Rt.lockCheck) (x := wbI Rt.lockCheck 1) (by decide +kernel), by decide +kernel, (Nat.le_of_eq (lowest_lockedOut _).symm : 65536 ≤ Tab.lowest (lockedOut (wbS writeX Rt.lockCheck 1)).cmd.locks)⟩⟩

theorem witness_CapsulesLocksAndAborts_2 :
    (∃ (s : State) (u : State) (k : Fin 12) (c : Fin 256) (it : Item) (w : Nat) (x : Waybill) (l : _) (e : Lock) (n : _) (v : _), x = u.wb w ∧ l = Tab.lowest u.cmd.locks ∧ e = ({ volume := x.volume, state := 0, write := x.write, ordered := x.ordered, waybill := w, first := x.slba, last := x.slba + x.blocks - 1, seq := u.cmd.lockSeq, blockers := 0, chan := x.chan % 262144, noRange := !x.io }) ∧ n = (u.cmd.locks.filter fun (o : Nat × Lock) => e.conflicts o.2).length ∧ v = (u.setLock l { e with state := if n = 0 then 2 else 1, blockers := n }) ∧ s.RunsWb k c Rt.lockCheck u it w ∧ x.locks = true ∧ Tab.lowest u.cmd.locks < 65536 ∧ n = 0) ∧
    (∃ (s : State) (u : State) (k : Fin 12) (c : Fin 256) (it : Item) (w : Nat) (x : Waybill) (l : _) (e : Lock) (n : _) (v : _), x = u.wb w ∧ l = Tab.lowest u.cmd.locks ∧ e = ({ volume := x.volume, state := 0, write := x.write, ordered := x.ordered, waybill := w, first := x.slba, last := x.slba + x.blocks - 1, seq := u.cmd.lockSeq, blockers := 0, chan := x.chan % 262144, noRange := !x.io }) ∧ n = (u.cmd.locks.filter fun (o : Nat × Lock) => e.conflicts o.2).length ∧ v = (u.setLock l { e with state := if n = 0 then 2 else 1, blockers := n }) ∧ s.RunsWb k c Rt.lockCheck u it w ∧ x.locks = true ∧ Tab.lowest u.cmd.locks < 65536 ∧ 0 < n) ∧
    (∃ (s : State) (u : State) (k : Fin 12) (c : Fin 256) (it : Item) (w : Nat) (x : Waybill), x = u.wb w ∧ s.Enters k c Rt.cplRetire u it ∧ it.ref = .wb w ∧ x.st = .committed) ∧
    (∃ (s : State) (u : State) (k : Fin 12) (c : Fin 256) (it : Item) (w : Nat) (x : Waybill), x = u.wb w ∧ s.Enters k c Rt.cplRetire u it ∧ it.ref = .wb w ∧ x.st = .abandoned ∧ u.refCmds it.ref ≠ []) ∧
    (∃ (s : State) (u : State) (k : Fin 12) (c : Fin 256) (it : Item) (w : Nat) (x : Waybill), x = u.wb w ∧ s.Enters k c Rt.cplRetire u it ∧ it.ref = .wb w ∧ x.st = .abandoned ∧ u.refCmds it.ref = [] ∧ x.filled = true ∧ u.now < x.fillTick + 2) ∧
    (∃ (s : State) (u : State) (k : Fin 12) (c : Fin 256) (it : Item) (w : Nat) (x : Waybill), x = u.wb w ∧ s.Enters k c Rt.cplRetire u it ∧ it.ref = .wb w ∧ x.st = .abandoned ∧ u.refCmds it.ref = [] ∧ (x.filled = false ∨ x.fillTick + 2 ≤ u.now)) ∧
    (∃ (s : State) (u : State) (k : Fin 12) (c : Fin 256) (it : Item) (w : Nat) (x : Waybill), x = u.wb w ∧ s.Enters k c Rt.cplRetire u it ∧ it.ref = .wb w ∧ x.st ≠ .committed ∧ x.st ≠ .abandoned) ∧
    (∃ (s : State) (u : State) (k : Fin 12) (c : Fin 256) (it : Item) (w : Nat) (x : Waybill) (sqid : _) (key : _), x = u.wb w ∧ sqid = sqeDw x.sqe 10 % 65536 ∧ key = (u.qp ((u.qpOf x.qpn).getD 0)).ctrl ∧ s.RunsWb k c Rt.abortScan u it w ∧ x.beyond = true) ∧
    (∃ (s : State) (u : State) (k : Fin 12) (c : Fin 256) (it : Item) (w : Nat) (x : Waybill) (sqid : _) (key : _) (qs : _), x = u.wb w ∧ sqid = sqeDw x.sqe 10 % 65536 ∧ key = (u.qp ((u.qpOf x.qpn).getD 0)).ctrl ∧ qs = (Tab.keys (fun y => y.bound && y.ctrl == key && y.qid == sqid) u.rdm.qps) ∧ s.RunsWb k c Rt.abortScan u it w ∧ x.beyond = false ∧ qs = []) ∧
    (∃ (s : State) (u : State) (k : Fin 12) (c : Fin 256) (it : Item) (w : Nat) (x : Waybill) (sqid : _) (cid : _) (key : _) (qs : _) (p : _) (ps : _) (e : _), x = u.wb w ∧ sqid = sqeDw x.sqe 10 % 65536 ∧ cid = sqeDw x.sqe 10 / 65536 ∧ key = (u.qp ((u.qpOf x.qpn).getD 0)).ctrl ∧ qs = (Tab.keys (fun y => y.bound && y.ctrl == key && y.qid == sqid) u.rdm.qps) ∧ s.RunsWb k c Rt.abortScan u it w ∧ x.beyond = false ∧ qs = p :: ps ∧ u.cmd.caps.find? (fun (e : Capsule) => e.qpn == u.qpn p && e.cid == cid && e.counted) = some e) ∧
    (∃ (s : State) (u : State) (k : Fin 12) (c : Fin 256) (it : Item) (w : Nat) (x : Waybill) (sqid : _) (cid : _) (key : _) (qs : _) (p : _) (ps : _) (runs : _) (v : _) (vs : _), x = u.wb w ∧ sqid = sqeDw x.sqe 10 % 65536 ∧ cid = sqeDw x.sqe 10 / 65536 ∧ key = (u.qp ((u.qpOf x.qpn).getD 0)).ctrl ∧ qs = (Tab.keys (fun y => y.bound && y.ctrl == key && y.qid == sqid) u.rdm.qps) ∧ runs = ((u.wbsThat fun y => y.qpn == u.qpn p && y.cid == cid && y.st != .committed && y.st != .abandoned && !isAbort y)) ∧ s.RunsWb k c Rt.abortScan u it w ∧ x.beyond = false ∧ qs = p :: ps ∧ u.cmd.caps.find? (fun (e : Capsule) => e.qpn == u.qpn p && e.cid == cid && e.counted) = none ∧ runs = v :: vs) ∧
    (∃ (s : State) (u : State) (k : Fin 12) (c : Fin 256) (it : Item) (w : Nat) (x : Waybill) (sqid : _) (cid : _) (key : _) (qs : _) (p : _) (ps : _) (runs : _), x = u.wb w ∧ sqid = sqeDw x.sqe 10 % 65536 ∧ cid = sqeDw x.sqe 10 / 65536 ∧ key = (u.qp ((u.qpOf x.qpn).getD 0)).ctrl ∧ qs = (Tab.keys (fun y => y.bound && y.ctrl == key && y.qid == sqid) u.rdm.qps) ∧ runs = ((u.wbsThat fun y => y.qpn == u.qpn p && y.cid == cid && y.st != .committed && y.st != .abandoned && !isAbort y)) ∧ s.RunsWb k c Rt.abortScan u it w ∧ x.beyond = false ∧ qs = p :: ps ∧ u.cmd.caps.find? (fun (e : Capsule) => e.qpn == u.qpn p && e.cid == cid && e.counted) = none ∧ runs = [] ∧ (u.ctrl key).aers.any (fun (a : AerSlot) => a.qpn == u.qpn p && a.cid == cid) = false) ∧
    (∃ (s : State) (u : State) (k : Fin 12) (c : Fin 256) (it : Item) (w : Nat) (x : Waybill) (sqid : _) (cid : _) (key : _) (qs : _) (p : _) (ps : _) (runs : _), x = u.wb w ∧ sqid = sqeDw x.sqe 10 % 65536 ∧ cid = sqeDw x.sqe 10 / 65536 ∧ key = (u.qp ((u.qpOf x.qpn).getD 0)).ctrl ∧ qs = (Tab.keys (fun y => y.bound && y.ctrl == key && y.qid == sqid) u.rdm.qps) ∧ runs = ((u.wbsThat fun y => y.qpn == u.qpn p && y.cid == cid && y.st != .committed && y.st != .abandoned && !isAbort y)) ∧ s.RunsWb k c Rt.abortScan u it w ∧ x.beyond = false ∧ qs = p :: ps ∧ u.cmd.caps.find? (fun (e : Capsule) => e.qpn == u.qpn p && e.cid == cid && e.counted) = none ∧ runs = [] ∧ (u.ctrl key).aers.any (fun (a : AerSlot) => a.qpn == u.qpn p && a.cid == cid) = true) :=
  ⟨⟨wbS writeX Rt.lockCheck 1, _, 0, 1, _, 3, _, _, _, _, _, rfl, rfl, rfl, rfl, rfl, runsWb_of (r := slotR 1 Rt.lockCheck) (x := wbI Rt.lockCheck 1) (by decide +kernel), by decide +kernel⟩,
   ⟨heldS, _, 0, 1, _, 3, _, _, _, _, _, rfl, rfl, rfl, rfl, rfl, runsWb_of (r := slotR 1 Rt.lockCheck) (x := wbI Rt.lockCheck 1) (by decide +kernel), by decide +kernel⟩,
   ⟨wbS { adminX with st := .committed } Rt.cplRetire 1, _, 0, 1, _, 3, _, rfl, enters_of (r := slotR 1 Rt.cplRetire) (x := wbI Rt.cplRetire 1) (by decide +kernel), by decide +kernel⟩,
   ⟨cmdWb, _, 0, 1, _, 3, _, rfl, enters_of (r := slotR 1 Rt.cplRetire) (x := wbI Rt.cplRetire 1) (by decide +kernel), by decide +kernel⟩,
   ⟨wbS { adminX with st := .abandoned, filled := true, fillTick := 9 } Rt.cplRetire 1, _, 0, 1, _, 3, _, rfl, enters_of (r := slotR 1 Rt.cplRetire) (x := wbI Rt.cplRetire 1) (by decide +kernel), by decide +kernel⟩,
   ⟨wbS { adminX with st := .abandoned, filled := true, fillTick := 8 } Rt.cplRetire 1, _, 0, 1, _, 3, _, rfl, enters_of (r := slotR 1 Rt.cplRetire) (x := wbI Rt.cplRetire 1) (by decide +kernel), by decide +kernel⟩,
   ⟨wbS adminX Rt.cplRetire 1, _, 0, 1, _, 3, _, rfl, enters_of (r := slotR 1 Rt.cplRetire) (x := wbI Rt.cplRetire 1) (by decide +kernel), by decide +kernel⟩,
   ⟨wbS { abortX with beyond := true } Rt.abortScan 1, _, 0, 1, _, 3, _, _, _, rfl, rfl, rfl, runsWb_of (r := slotR 1 Rt.abortScan) (x := wbI Rt.abortScan 1) (by decide +kernel), by decide +kernel⟩,
   ⟨wbS abortX Rt.abortScan 1, _, 0, 1, _, 3, _, _, _, _, rfl, rfl, rfl, rfl, runsWb_of (r := slotR 1 Rt.abortScan) (x := wbI Rt.abortScan 1) (by decide +kernel), by decide +kernel⟩,
   ⟨namedCap, _, 0, 1, _, 3, _, _, _, _, _, 5, [], { wCap with cid := 7 }, rfl, rfl, rfl, rfl, rfl, runsWb_of (r := slotR 1 Rt.abortScan) (x := wbI Rt.abortScan 1) (by decide +kernel), by decide +kernel⟩,
   ⟨abortS, _, 0, 1, _, 3, _, _, _, _, _, 5, [], _, 2, [], rfl, rfl, rfl, rfl, rfl, rfl, runsWb_of (r := slotR 1 Rt.abortScan) (x := wbI Rt.abortScan 1) (by decide +kernel), by decide +kernel⟩,
   ⟨abortS.setWb 2 Waybill.reset, _, 0, 1, _, 3, _, _, _, _, _, 5, [], _, rfl, rfl, rfl, rfl, rfl, rfl, runsWb_of (r := slotR 1 Rt.abortScan) (x := wbI Rt.abortScan 1) (by decide +kernel), by decide +kernel⟩,
   ⟨(abortS.setWb 2 Waybill.reset).setCtrl 0 { Ctrl.reset with aers := [⟨5, 7⟩] }, _, 0, 1, _, 3, _, _, _, _, _, 5, [], _, rfl, rfl, rfl, rfl, rfl, rfl, runsWb_of (r := slotR 1 Rt.abortScan) (x := wbI Rt.abortScan 1) (by decide +kernel), by decide +kernel⟩⟩

theorem witness_ReadsFindTheirUnits :
    (∃ (s : State) (u : State) (k : Fin 12) (c : Fin 256) (it : Item) (w : Nat) (x : Waybill), x = u.wb w ∧ s.RunsWb k c Rt.mapXlate u it w ∧ it.leg = 1 ∧ x.write = false) ∧
    (∃ (s : State) (u : State) (k : Fin 12) (c : Fin 256) (it : Item) (w : Nat) (x : Waybill), x = u.wb w ∧ s.RunsWb k c Rt.mapXlate u it w ∧ it.leg = 1 ∧ x.write = true) ∧
    (∃ (s : State) (u : State) (k : Fin 12) (c : Fin 256) (it : Item) (w : Nat) (x : Waybill), x = u.wb w ∧ s.RunsWb k c Rt.mapXlate u it w ∧ it.leg ≠ 1 ∧ x.write = true) ∧
    (∃ (s : State) (u : State) (k : Fin 12) (c : Fin 256) (it : Item) (w : Nat) (x : Waybill), x = u.wb w ∧ s.RunsWb k c Rt.mapXlate u it w ∧ it.leg ≠ 1 ∧ x.write = false) ∧
    (∃ (s : State) (u : State) (k : Fin 12) (c : Fin 256) (it : Item) (w : Nat) (x : Waybill), x = u.wb w ∧ s.RunsWb k c Rt.cacheProbe u it w ∧ it.leg = 1) ∧
    (∃ (s : State) (u : State) (k : Fin 12) (c : Fin 256) (it : Item) (w : Nat) (x : Waybill) (f : _) (us : _) (found : _) (parts : _) (full : _) (v : _), x = u.wb w ∧ f = (u.vol x.volume).lbaf ∧ us = (x.map.map fun (e : Nat × Nat × Nat × Nat) => e.1) ∧ found = (us.filterMap fun t => (u.findLine x.volume t).map fun l => (t, l.1, l.2)) ∧ parts = (((found.filter fun (e : Nat × Nat × Line) => Nat.land e.2.2.valid (x.maskOf f e.1) != 0).map fun (e : Nat × Nat × Line) => ({ unit := e.1, valid := e.2.2.valid, data := e.2.2.data, dirty := e.2.2.isDirty } : UnitPart))) ∧ full = (parts.filter fun p => covers p.valid (x.maskOf f p.unit)) ∧ v = (found.foldl (fun s (e : Nat × Nat × Line) => if full.any (fun p => p.unit == e.1) then s.updLine e.2.1 fun l => { l with ref := true } else s) u) ∧ s.RunsWb k c Rt.cacheProbe u it w ∧ it.leg ≠ 1 ∧ full.length = us.length) ∧
    (∃ (s : State) (u : State) (k : Fin 12) (c : Fin 256) (it : Item) (w : Nat) (x : Waybill) (f : _) (us : _) (found : _) (parts : _) (full : _) (v : _), x = u.wb w ∧ f = (u.vol x.volume).lbaf ∧ us = (x.map.map fun (e : Nat × Nat × Nat × Nat) => e.1) ∧ found = (us.filterMap fun t => (u.findLine x.volume t).map fun l => (t, l.1, l.2)) ∧ parts = (((found.filter fun (e : Nat × Nat × Line) => Nat.land e.2.2.valid (x.maskOf f e.1) != 0).map fun (e : Nat × Nat × Line) => ({ unit := e.1, valid := e.2.2.valid, data := e.2.2.data, dirty := e.2.2.isDirty } : UnitPart))) ∧ full = (parts.filter fun p => covers p.valid (x.maskOf f p.unit)) ∧ v = (found.foldl (fun s (e : Nat × Nat × Line) => if full.any (fun p => p.unit == e.1) then s.updLine e.2.1 fun l => { l with ref := true } else s) u) ∧ s.RunsWb k c Rt.cacheProbe u it w ∧ it.leg ≠ 1 ∧ full.length ≠ us.length) :=
  ⟨⟨wbS readX Rt.mapXlate 1, _, 0, 1, _, 3, _, rfl, runsWb_of (r := slotR 1 Rt.mapXlate) (x := wbI Rt.mapXlate 1) (by decide +kernel), by decide +kernel⟩,
   ⟨wbS writeX Rt.mapXlate 1, _, 0, 1, _, 3, _, rfl, runsWb_of (r := slotR 1 Rt.mapXlate) (x := wbI Rt.mapXlate 1) (by decide +kernel), by decide +kernel⟩,
   ⟨wbS writeX Rt.mapXlate 2, _, 0, 1, _, 3, _, rfl, runsWb_of (r := slotR 1 Rt.mapXlate) (x := wbI Rt.mapXlate 2) (by decide +kernel), by decide +kernel⟩,
   ⟨wbS readX Rt.mapXlate 2, _, 0, 1, _, 3, _, rfl, runsWb_of (r := slotR 1 Rt.mapXlate) (x := wbI Rt.mapXlate 2) (by decide +kernel), by decide +kernel⟩,
   ⟨wbS readX Rt.cacheProbe 1, _, 0, 1, _, 3, _, rfl, runsWb_of (r := slotR 1 Rt.cacheProbe) (x := wbI Rt.cacheProbe 1) (by decide +kernel), by decide +kernel⟩,
   ⟨wbS readX Rt.cacheProbe 2, _, 0, 1, _, 3, _, _, _, _, _, _, _, rfl, rfl, rfl, rfl, rfl, rfl, rfl, runsWb_of (r := slotR 1 Rt.cacheProbe) (x := wbI Rt.cacheProbe 2) (by decide +kernel), by decide +kernel⟩,
   ⟨wbS { readX with map := [(0, 0, 0, 0)] } Rt.cacheProbe 2, _, 0, 1, _, 3, _, _, _, _, _, _, _, rfl, rfl, rfl, rfl, rfl, rfl, rfl, runsWb_of (r := slotR 1 Rt.cacheProbe) (x := wbI Rt.cacheProbe 2) (by decide +kernel), by decide +kernel⟩⟩

/-- The capsule of the item is gone; a command that has failed has a drive command out. -/
def goneS : State := { capS wCap .rts .opened Rt.xferArm with cmd := { (capS wCap .rts .opened Rt.xferArm).cmd with caps := [] } }
def cutS : State :=
  let s := wbS { writeX with abortReq := true } Rt.xferArm 1
  { s with drv := { s.drv with cmds := [(9, some drvC)] } }

theorem witness_RequestsAreCheckedAndAnswered_1 :
    (∃ (s : State) (u : State) (k : Fin 12) (c : Fin 256) (it : Item) (w : Nat) (x : Waybill) (V : _) (a : _) (b : _) (v : _), x = u.wb w ∧ V = u.vol x.volume ∧ a = ((if x.write then u.updWb w fun y => { y with st := .fill } else u)) ∧ b = ((if x.st = .payload then a.stampFirst w 11 else a)) ∧ v = ((if x.hit then b.updWb w fun y => { y with pendingIo := 0 } else b)) ∧ s.RunsWb k c Rt.piCheck u it w ∧ v.keyReady V = false) ∧
    (∃ (s : State) (u : State) (k : Fin 12) (c : Fin 256) (it : Item) (w : Nat) (x : Waybill) (V : _) (a : _) (b : _) (v : _) (i : _), x = u.wb w ∧ V = u.vol x.volume ∧ a = ((if x.write then u.updWb w fun y => { y with st := .fill } else u)) ∧ b = ((if x.st = .payload then a.stampFirst w 11 else a)) ∧ v = ((if x.hit then b.updWb w fun y => { y with pendingIo := 0 } else b)) ∧ i = ((if x.write then x.piPosted else x.progress)) ∧ s.RunsWb k c Rt.piCheck u it w ∧ v.keyReady V = true ∧ x.write = false) ∧
    (∃ (s : State) (u : State) (k : Fin 12) (c : Fin 256) (it : Item) (w : Nat) (x : Waybill) (V : _) (a : _) (b : _) (v : _) (i : _), x = u.wb w ∧ V = u.vol x.volume ∧ a = ((if x.write then u.updWb w fun y => { y with st := .fill } else u)) ∧ b = ((if x.st = .payload then a.stampFirst w 11 else a)) ∧ v = ((if x.hit then b.updWb w fun y => { y with pendingIo := 0 } else b)) ∧ i = ((if x.write then x.piPosted else x.progress)) ∧ s.RunsWb k c Rt.piCheck u it w ∧ v.keyReady V = true ∧ x.write = true ∧ i + 1 < x.invs V.lbaf) ∧
    (∃ (s : State) (u : State) (k : Fin 12) (c : Fin 256) (it : Item) (w : Nat) (x : Waybill) (V : _) (a : _) (b : _) (v : _) (i : _), x = u.wb w ∧ V = u.vol x.volume ∧ a = ((if x.write then u.updWb w fun y => { y with st := .fill } else u)) ∧ b = ((if x.st = .payload then a.stampFirst w 11 else a)) ∧ v = ((if x.hit then b.updWb w fun y => { y with pendingIo := 0 } else b)) ∧ i = ((if x.write then x.piPosted else x.progress)) ∧ s.RunsWb k c Rt.piCheck u it w ∧ v.keyReady V = true ∧ x.write = true ∧ x.invs V.lbaf ≤ i + 1) ∧
    (∃ (s : State) (k : Fin 12), s.nextCipher k = none) ∧
    (∃ (s : State) (u : State) (k : Fin 12) (r : CipReq) (id : _), u = s.dropCipher r ∧ s.nextCipher k = some r ∧ r.ref = .work id) ∧
    (∃ (s : State) (u : State) (k : Fin 12) (r : CipReq) (w : _), u = s.dropCipher r ∧ s.nextCipher k = some r ∧ r.ref = .wb w ∧ (s.wb w).write = false ∧ s.digsReady w r.inv = false) ∧
    (∃ (s : State) (u : State) (k : Fin 12) (r : CipReq) (w : _), u = s.dropCipher r ∧ s.nextCipher k = some r ∧ r.ref = .wb w ∧ ((s.wb w).write = true ∨ s.digsReady w r.inv = true) ∧ ((u.wb w).st = .free ∨ (u.wb w).st = .abandoned ∨ (u.wb w).cut = true)) ∧
    (∃ (s : State) (u : State) (k : Fin 12) (r : CipReq) (w : _), u = s.dropCipher r ∧ s.nextCipher k = some r ∧ r.ref = .wb w ∧ ((s.wb w).write = true ∨ s.digsReady w r.inv = true) ∧ (u.wb w).st ≠ .free ∧ (u.wb w).st ≠ .abandoned ∧ (u.wb w).cut = false ∧ (u.wb w).write = true) ∧
    (∃ (s : State) (u : State) (k : Fin 12) (r : CipReq) (w : _), u = s.dropCipher r ∧ s.nextCipher k = some r ∧ r.ref = .wb w ∧ ((s.wb w).write = true ∨ s.digsReady w r.inv = true) ∧ (u.wb w).st ≠ .free ∧ (u.wb w).st ≠ .abandoned ∧ (u.wb w).cut = false ∧ (u.wb w).write = false) ∧
    (∃ (s : State) (u : State) (k : Fin 12) (c : Fin 256) (it : Item) (w : Nat) (x : Waybill) (f : _) (us : _), x = u.wb w ∧ f = (u.vol x.volume).lbaf ∧ us = ((x.invRange f x.progress).map fun b => b / unitBlocks f).eraseDups ∧ s.RunsWb k c Rt.cacheFill u it w ∧ it.leg = 1) ∧
    (∃ (s : State) (u : State) (k : Fin 12) (c : Fin 256) (it : Item) (w : Nat) (x : Waybill) (f : _) (us : _), x = u.wb w ∧ f = (u.vol x.volume).lbaf ∧ us = ((x.invRange f x.progress).map fun b => b / unitBlocks f).eraseDups ∧ s.RunsWb k c Rt.cacheFill u it w ∧ it.leg ≠ 1 ∧ x.progress + 1 < x.invs f) ∧
    (∃ (s : State) (u : State) (k : Fin 12) (c : Fin 256) (it : Item) (w : Nat) (x : Waybill) (f : _) (us : _), x = u.wb w ∧ f = (u.vol x.volume).lbaf ∧ us = ((x.invRange f x.progress).map fun b => b / unitBlocks f).eraseDups ∧ s.RunsWb k c Rt.cacheFill u it w ∧ it.leg ≠ 1 ∧ x.invs f ≤ x.progress + 1) ∧
    (∃ (s : State) (u : State) (k : Fin 12) (c : Fin 256) (it : Item) (id : Nat), s.Enters k c Rt.xferArm u it ∧ it.ref = .cap id ∧ u.cap? id = none) ∧
    (∃ (s : State) (u : State) (k : Fin 12) (c : Fin 256) (it : Item) (id : Nat) (cap : _), s.Enters k c Rt.xferArm u it ∧ it.ref = .cap id ∧ u.cap? id = some cap) :=
  ⟨⟨(keylessS (wbS readX Rt.piCheck 1)), _, 0, 1, _, 3, _, _, _, _, _, rfl, rfl, rfl, rfl, rfl, runsWb_of (r := slotR 1 Rt.piCheck) (x := wbI Rt.piCheck 1) (by decide +kernel), by decide +kernel⟩,
   ⟨wbS readX Rt.piCheck 1, _, 0, 1, _, 3, _, _, _, _, _, _, rfl, rfl, rfl, rfl, rfl, rfl, runsWb_of (r := slotR 1 Rt.piCheck) (x := wbI Rt.piCheck 1) (by decide +kernel), by decide +kernel⟩,
   ⟨wbS { writeX with blocks := 4096 } Rt.piCheck 1, _, 0, 1, _, 3, _, _, _, _, _, _, rfl, rfl, rfl, rfl, rfl, rfl, runsWb_of (r := slotR 1 Rt.piCheck) (x := wbI Rt.piCheck 1) (by decide +kernel), by decide +kernel⟩,
   ⟨wbS writeX Rt.piCheck 1, _, 0, 1, _, 3, _, _, _, _, _, _, rfl, rfl, rfl, rfl, rfl, rfl, runsWb_of (r := slotR 1 Rt.piCheck) (x := wbI Rt.piCheck 1) (by decide +kernel), by decide +kernel⟩,
   ⟨onS, 11, by decide +kernel⟩,
   ⟨cipS ({ runS with lay := { runS.lay with works := [{ Work.of .destage 0 0 with id := 1 }] } }) (.work 1), _, 11, cipR (.work 1), 1, rfl, by decide +kernel⟩,
   ⟨cipS ({ wbS readX Rt.piCheck 1 with straps := { onS.straps with pairEn := true }, pair := { onS.pair with st := pairSuspect } }) (.wb 3), _, 11, cipR (.wb 3), 3, rfl, by decide +kernel⟩,
   ⟨cipS (wbS { writeX with st := .abandoned } Rt.piCheck 1) (.wb 3), _, 11, cipR (.wb 3), 3, rfl, by decide +kernel⟩,
   ⟨cipS (wbS writeX Rt.piCheck 1) (.wb 3), _, 11, cipR (.wb 3), 3, rfl, by decide +kernel⟩,
   ⟨cipS (wbS readX Rt.piCheck 1) (.wb 3), _, 11, cipR (.wb 3), 3, rfl, by decide +kernel⟩,
   ⟨wbS writeX Rt.cacheFill 1, _, 0, 1, _, 3, _, _, _, rfl, rfl, rfl, runsWb_of (r := slotR 1 Rt.cacheFill) (x := wbI Rt.cacheFill 1) (by decide +kernel), by decide +kernel⟩,
   ⟨wbS { writeX with blocks := 4096 } Rt.cacheFill 2, _, 0, 1, _, 3, _, _, _, rfl, rfl, rfl, runsWb_of (r := slotR 1 Rt.cacheFill) (x := wbI Rt.cacheFill 2) (by decide +kernel), by decide +kernel⟩,
   ⟨wbS writeX Rt.cacheFill 2, _, 0, 1, _, 3, _, _, _, rfl, rfl, rfl, runsWb_of (r := slotR 1 Rt.cacheFill) (x := wbI Rt.cacheFill 2) (by decide +kernel), by decide +kernel⟩,
   ⟨goneS, _, 0, 1, _, 1, enters_of (r := slotR 1 Rt.xferArm) (x := capI Rt.xferArm) (by decide +kernel), by decide +kernel⟩,
   ⟨capS wCap .rts .opened Rt.xferArm, _, 0, 1, _, 1, wCap, enters_of (r := slotR 1 Rt.xferArm) (x := capI Rt.xferArm) (by decide +kernel), by decide +kernel⟩⟩

theorem witness_RequestsAreCheckedAndAnswered_2 :
    (∃ (s : State) (u : State) (k : Fin 12) (c : Fin 256) (it : Item) (w : Nat) (x : Waybill), x = u.wb w ∧ s.Enters k c Rt.xferArm u it ∧ it.ref = .wb w ∧ x.st = .free) ∧
    (∃ (s : State) (u : State) (k : Fin 12) (c : Fin 256) (it : Item) (w : Nat) (x : Waybill), x = u.wb w ∧ s.Enters k c Rt.xferArm u it ∧ it.ref = .wb w ∧ x.st = .abandoned) ∧
    (∃ (s : State) (u : State) (k : Fin 12) (c : Fin 256) (it : Item) (w : Nat) (x : Waybill), x = u.wb w ∧ s.Enters k c Rt.xferArm u it ∧ it.ref = .wb w ∧ x.st = .committed) ∧
    (∃ (s : State) (u : State) (k : Fin 12) (c : Fin 256) (it : Item) (w : Nat) (x : Waybill), x = u.wb w ∧ s.Enters k c Rt.xferArm u it ∧ it.ref = .wb w ∧ x.st = .durableWait) ∧
    (∃ (s : State) (u : State) (k : Fin 12) (c : Fin 256) (it : Item) (w : Nat) (x : Waybill), x = u.wb w ∧ s.Enters k c Rt.xferArm u it ∧ it.ref = .wb w ∧ (x.st = .admitted ∨ x.st = .lockWait ∨ x.st = .locked ∨ x.st = .payload ∨ x.st = .media ∨ x.st = .fill) ∧ x.cut = true ∧ u.refCmds it.ref = []) ∧
    (∃ (s : State) (u : State) (k : Fin 12) (c : Fin 256) (it : Item) (w : Nat) (x : Waybill), x = u.wb w ∧ s.Enters k c Rt.xferArm u it ∧ it.ref = .wb w ∧ (x.st = .admitted ∨ x.st = .lockWait ∨ x.st = .locked ∨ x.st = .payload ∨ x.st = .media ∨ x.st = .fill) ∧ x.cut = true ∧ u.refCmds it.ref ≠ []) ∧
    (∃ (s : State) (u : State) (k : Fin 12) (c : Fin 256) (it : Item) (w : Nat) (x : Waybill) (f : _), x = u.wb w ∧ f = (u.vol x.volume).lbaf ∧ s.RunsWb k c Rt.xferArm u it w ∧ (x.st = .admitted ∨ x.st = .lockWait ∨ x.st = .locked ∨ x.st = .payload ∨ x.st = .media ∨ x.st = .fill) ∧ x.io = true ∧ x.piFail.isSome = true) ∧
    (∃ (s : State) (u : State) (k : Fin 12) (c : Fin 256) (it : Item) (w : Nat) (x : Waybill) (f : _) (unit : _), x = u.wb w ∧ f = (u.vol x.volume).lbaf ∧ unit = lbaData f + lbaMeta f ∧ s.RunsWb k c Rt.xferArm u it w ∧ (x.st = .admitted ∨ x.st = .lockWait ∨ x.st = .locked ∨ x.st = .payload ∨ x.st = .media ∨ x.st = .fill) ∧ x.io = true ∧ x.piFail = none ∧ x.write = true ∧ x.keyed = true ∧ x.sent + 1 < x.invs f) ∧
    (∃ (s : State) (u : State) (k : Fin 12) (c : Fin 256) (it : Item) (w : Nat) (x : Waybill) (f : _) (unit : _), x = u.wb w ∧ f = (u.vol x.volume).lbaf ∧ unit = lbaData f + lbaMeta f ∧ s.RunsWb k c Rt.xferArm u it w ∧ (x.st = .admitted ∨ x.st = .lockWait ∨ x.st = .locked ∨ x.st = .payload ∨ x.st = .media ∨ x.st = .fill) ∧ x.io = true ∧ x.piFail = none ∧ x.write = true ∧ x.keyed = true ∧ x.invs f ≤ x.sent + 1) ∧
    (∃ (s : State) (u : State) (k : Fin 12) (c : Fin 256) (it : Item) (w : Nat) (x : Waybill) (f : _), x = u.wb w ∧ f = (u.vol x.volume).lbaf ∧ s.RunsWb k c Rt.xferArm u it w ∧ (x.st = .admitted ∨ x.st = .lockWait ∨ x.st = .locked ∨ x.st = .payload ∨ x.st = .media ∨ x.st = .fill) ∧ x.io = true ∧ x.piFail = none ∧ x.write = true ∧ x.keyed = false) ∧
    (∃ (s : State) (u : State) (k : Fin 12) (c : Fin 256) (it : Item) (w : Nat) (x : Waybill) (f : _) (unit : _), x = u.wb w ∧ f = (u.vol x.volume).lbaf ∧ unit = lbaData f + lbaMeta f ∧ s.RunsWb k c Rt.xferArm u it w ∧ (x.st = .admitted ∨ x.st = .lockWait ∨ x.st = .locked ∨ x.st = .payload ∨ x.st = .media ∨ x.st = .fill) ∧ x.io = true ∧ x.piFail = none ∧ x.write = false ∧ x.progress + 1 < x.invs f) ∧
    (∃ (s : State) (u : State) (k : Fin 12) (c : Fin 256) (it : Item) (w : Nat) (x : Waybill) (f : _) (unit : _), x = u.wb w ∧ f = (u.vol x.volume).lbaf ∧ unit = lbaData f + lbaMeta f ∧ s.RunsWb k c Rt.xferArm u it w ∧ (x.st = .admitted ∨ x.st = .lockWait ∨ x.st = .locked ∨ x.st = .payload ∨ x.st = .media ∨ x.st = .fill) ∧ x.io = true ∧ x.piFail = none ∧ x.write = false ∧ x.invs f ≤ x.progress + 1) ∧
    (∃ (s : State) (u : State) (k : Fin 12) (c : Fin 256) (it : Item) (w : Nat) (x : Waybill) (f : _), x = u.wb w ∧ f = (u.vol x.volume).lbaf ∧ s.RunsWb k c Rt.xferArm u it w ∧ (x.st = .admitted ∨ x.st = .lockWait ∨ x.st = .locked ∨ x.st = .payload ∨ x.st = .media ∨ x.st = .fill) ∧ x.io = false ∧ x.progress = 0 ∧ x.takesData = true ∧ x.keyed = true) ∧
    (∃ (s : State) (u : State) (k : Fin 12) (c : Fin 256) (it : Item) (w : Nat) (x : Waybill) (f : _), x = u.wb w ∧ f = (u.vol x.volume).lbaf ∧ s.RunsWb k c Rt.xferArm u it w ∧ (x.st = .admitted ∨ x.st = .lockWait ∨ x.st = .locked ∨ x.st = .payload ∨ x.st = .media ∨ x.st = .fill) ∧ x.io = false ∧ (x.progress ≠ 0 ∨ x.takesData = false ∨ x.keyed = false)) ∧
    (∃ (u : State) (it : Item) (w : Nat) (q : Nat) (x : Waybill), x = u.wb w ∧ u.qpOf x.qpn = some q) :=
  ⟨⟨wbS Waybill.reset Rt.xferArm 1, _, 0, 1, _, 3, _, rfl, enters_of (r := slotR 1 Rt.xferArm) (x := wbI Rt.xferArm 1) (by decide +kernel), by decide +kernel⟩,
   ⟨wbS { writeX with st := .abandoned } Rt.xferArm 1, _, 0, 1, _, 3, _, rfl, enters_of (r := slotR 1 Rt.xferArm) (x := wbI Rt.xferArm 1) (by decide +kernel), by decide +kernel⟩,
   ⟨wbS { writeX with st := .committed } Rt.xferArm 1, _, 0, 1, _, 3, _, rfl, enters_of (r := slotR 1 Rt.xferArm) (x := wbI Rt.xferArm 1) (by decide +kernel), by decide +kernel⟩,
   ⟨wbS { writeX with st := .durableWait } Rt.xferArm 1, _, 0, 1, _, 3, _, rfl, enters_of (r := slotR 1 Rt.xferArm) (x := wbI Rt.xferArm 1) (by decide +kernel), by decide +kernel⟩,
   ⟨wbS { writeX with abortReq := true } Rt.xferArm 1, _, 0, 1, _, 3, _, rfl, enters_of (r := slotR 1 Rt.xferArm) (x := wbI Rt.xferArm 1) (by decide +kernel), by decide +kernel⟩,
   ⟨cutS, _, 0, 1, _, 3, _, rfl, enters_of (r := slotR 1 Rt.xferArm) (x := wbI Rt.xferArm 1) (by decide +kernel), by decide +kernel⟩,
   ⟨wbS { writeX with piFail := some (0, 1) } Rt.xferArm 1, _, 0, 1, _, 3, _, _, rfl, rfl, runsWb_of (r := slotR 1 Rt.xferArm) (x := wbI Rt.xferArm 1) (by decide +kernel), by decide +kernel⟩,
   ⟨wbS { writeX with blocks := 4096, sqe := (List.replicate 39 0 ++ [0x40] ++ List.replicate 24 0) } Rt.xferArm 1, _, 0, 1, _, 3, _, _, _, rfl, rfl, rfl, runsWb_of (r := slotR 1 Rt.xferArm) (x := wbI Rt.xferArm 1) (by decide +kernel), by decide +kernel⟩,
   ⟨wbS { writeX with sqe := (List.replicate 39 0 ++ [0x40] ++ List.replicate 24 0) } Rt.xferArm 1, _, 0, 1, _, 3, _, _, _, rfl, rfl, rfl, runsWb_of (r := slotR 1 Rt.xferArm) (x := wbI Rt.xferArm 1) (by decide +kernel), by decide +kernel⟩,
   ⟨wbS writeX Rt.xferArm 1, _, 0, 1, _, 3, _, _, rfl, rfl, runsWb_of (r := slotR 1 Rt.xferArm) (x := wbI Rt.xferArm 1) (by decide +kernel), by decide +kernel⟩,
   ⟨wbS { readX with blocks := 4096 } Rt.xferArm 1, _, 0, 1, _, 3, _, _, _, rfl, rfl, rfl, runsWb_of (r := slotR 1 Rt.xferArm) (x := wbI Rt.xferArm 1) (by decide +kernel), by decide +kernel⟩,
   ⟨wbS readX Rt.xferArm 1, _, 0, 1, _, 3, _, _, _, rfl, rfl, rfl, runsWb_of (r := slotR 1 Rt.xferArm) (x := wbI Rt.xferArm 1) (by decide +kernel), by decide +kernel⟩,
   ⟨wbS { Waybill.reset with st := .locked, sqe := ([0x7F, 0x40, 0, 0, 1] ++ List.replicate 34 0 ++ [0x40] ++ List.replicate 24 0) } Rt.xferArm 1, _, 0, 1, _, 3, _, _, rfl, rfl, runsWb_of (r := slotR 1 Rt.xferArm) (x := wbI Rt.xferArm 1) (by decide +kernel), by decide +kernel⟩,
   ⟨wbS adminX Rt.xferArm 1, _, 0, 1, _, 3, _, _, rfl, rfl, runsWb_of (r := slotR 1 Rt.xferArm) (x := wbI Rt.xferArm 1) (by decide +kernel), by decide +kernel⟩,
   ⟨withQp (wbS { adminX with qpn := 5 } Rt.xferArm 1), wbI Rt.xferArm 1, 3, 5, _, rfl, by decide +kernel⟩⟩

set_option maxRecDepth 100000

theorem witness_ControllersAreServed_1 :
    (∃ (s : State) (k : Fin 49152), s.katoDue k = true) ∧
    (∃ (s : State) (k : Fin 49152), s.katoDue k = false) ∧
    (∃ (s : State) (k : Fin 49152) (flying : _), flying = ((s.wbsThat fun x => match s.qpOf x.qpn with | some q => (s.qp q).bound && (s.qp q).ctrl == k.val | none => false)) ∧ (s.ctrl k).live = true ∧ (s.ctrl k).shutting = true ∧ flying = []) ∧
    (∃ (s : State) (k : Fin 49152) (flying : _), flying = ((s.wbsThat fun x => match s.qpOf x.qpn with | some q => (s.qp q).bound && (s.qp q).ctrl == k.val | none => false)) ∧ ((s.ctrl k).live = false ∨ (s.ctrl k).shutting = false ∨ flying ≠ [])) ∧
    (∃ (s : State) (k : Fin 49152), (∀ q ∈ s.ioQps k, ¬ (fun (x : Qp) => x.st = .rts ∨ x.st = .drain ∨ x.next = .drain ∨ x.next2 = .drain) (s.qp q)) ∧ (s.ctrl k).live = true ∧ (s.ctrl k).disabling = true) ∧
    (∃ (s : State) (k : Fin 49152), ((s.ctrl k).live = false ∨ (s.ctrl k).disabling = false ∨ (∃ q ∈ s.ioQps k, (fun (x : Qp) => x.st = .rts ∨ x.st = .drain ∨ x.next = .drain ∨ x.next2 = .drain) (s.qp q)))) ∧
    (∃ (s : State) (u : State) (k : Fin 12) (c : Fin 256) (it : Item) (id : Nat), s.Enters k c Rt.adminStep u it ∧ it.ref = .cap id) ∧
    (∃ (s : State) (u : State) (k : Fin 12) (c : Fin 256) (it : Item) (w : Nat) (x : Waybill) (y : Waybill) (Q : Qp) (left : _), x = u.wb w ∧ Q = u.qp ((u.qpOf x.qpn).getD 0) ∧ y = ({ x with data := if x.icd.isEmpty then x.data else x.icd }) ∧ left = x.data.length - 4096 * x.progress ∧ s.RunsWb k c Rt.adminStep u it w ∧ 0 < x.progress ∧ x.progress + 1 < ceilDiv x.data.length 4096) ∧
    (∃ (s : State) (u : State) (k : Fin 12) (c : Fin 256) (it : Item) (w : Nat) (x : Waybill) (y : Waybill) (Q : Qp) (left : _), x = u.wb w ∧ Q = u.qp ((u.qpOf x.qpn).getD 0) ∧ y = ({ x with data := if x.icd.isEmpty then x.data else x.icd }) ∧ left = x.data.length - 4096 * x.progress ∧ s.RunsWb k c Rt.adminStep u it w ∧ 0 < x.progress ∧ ceilDiv x.data.length 4096 ≤ x.progress + 1) ∧
    (∃ (s : State) (u : State) (k : Fin 12) (c : Fin 256) (it : Item) (w : Nat) (x : Waybill) (y : Waybill) (Q : Qp), x = u.wb w ∧ Q = u.qp ((u.qpOf x.qpn).getD 0) ∧ y = ({ x with data := if x.icd.isEmpty then x.data else x.icd }) ∧ s.RunsWb k c Rt.adminStep u it w ∧ x.progress = 0 ∧ isConnect x.sqe = true) ∧
    (∃ (s : State) (u : State) (k : Fin 12) (c : Fin 256) (it : Item) (w : Nat) (x : Waybill) (y : Waybill) (Q : Qp) (off : _) (size : _) (v : _), x = u.wb w ∧ Q = u.qp ((u.qpOf x.qpn).getD 0) ∧ y = ({ x with data := if x.icd.isEmpty then x.data else x.icd }) ∧ off = leField x.sqe 44 4 ∧ size = leField x.sqe 40 1 % 8 ∧ s.RunsWb k c Rt.adminStep u it w ∧ x.progress = 0 ∧ isFabrics x.sqe = true ∧ isConnect x.sqe = false ∧ fctype x.sqe = 4 ∧ u.propGet Q.ctrl off size = some v) ∧
    (∃ (s : State) (u : State) (k : Fin 12) (c : Fin 256) (it : Item) (w : Nat) (x : Waybill) (y : Waybill) (Q : Qp) (off : _) (size : _), x = u.wb w ∧ Q = u.qp ((u.qpOf x.qpn).getD 0) ∧ y = ({ x with data := if x.icd.isEmpty then x.data else x.icd }) ∧ off = leField x.sqe 44 4 ∧ size = leField x.sqe 40 1 % 8 ∧ s.RunsWb k c Rt.adminStep u it w ∧ x.progress = 0 ∧ isFabrics x.sqe = true ∧ isConnect x.sqe = false ∧ fctype x.sqe = 4 ∧ u.propGet Q.ctrl off size = none) ∧
    (∃ (s : State) (u : State) (k : Fin 12) (c : Fin 256) (it : Item) (w : Nat) (x : Waybill) (y : Waybill) (Q : Qp) (off : _) (size : _), x = u.wb w ∧ Q = u.qp ((u.qpOf x.qpn).getD 0) ∧ y = ({ x with data := if x.icd.isEmpty then x.data else x.icd }) ∧ off = leField x.sqe 44 4 ∧ size = leField x.sqe 40 1 % 8 ∧ s.RunsWb k c Rt.adminStep u it w ∧ x.progress = 0 ∧ isFabrics x.sqe = true ∧ isConnect x.sqe = false ∧ fctype x.sqe ≠ 4 ∧ off = 0x14 ∧ size = 0) ∧
    (∃ (s : State) (u : State) (k : Fin 12) (c : Fin 256) (it : Item) (w : Nat) (x : Waybill) (y : Waybill) (Q : Qp) (off : _) (size : _), x = u.wb w ∧ Q = u.qp ((u.qpOf x.qpn).getD 0) ∧ y = ({ x with data := if x.icd.isEmpty then x.data else x.icd }) ∧ off = leField x.sqe 44 4 ∧ size = leField x.sqe 40 1 % 8 ∧ s.RunsWb k c Rt.adminStep u it w ∧ x.progress = 0 ∧ isFabrics x.sqe = true ∧ isConnect x.sqe = false ∧ fctype x.sqe ≠ 4 ∧ (off ≠ 0x14 ∨ size ≠ 0)) :=
  ⟨⟨ctrlS { Ctrl.reset with kato := 1 }, 49151, by decide +kernel⟩,
   ⟨onS, 49151, by decide +kernel⟩,
   ⟨ctrlS { Ctrl.reset with shutting := true }, 49151, _, rfl, by decide +kernel⟩,
   ⟨onS, 49151, _, rfl, by decide +kernel⟩,
   ⟨ctrlS { Ctrl.reset with disabling := true }, 49151, nil_all (by decide +kernel), by decide +kernel⟩,
   ⟨onS, 49151, .inl (by decide +kernel)⟩,
   ⟨capS wCap .rts .opened Rt.adminStep, _, 0, 1, _, 1, enters_of (r := slotR 1 Rt.adminStep) (x := capI Rt.adminStep) (by decide +kernel), by decide +kernel⟩,
   ⟨admS ({ adminX with progress := 1, data := List.replicate 8193 0 }) 0 0, _, 0, 1, _, 3, _, _, _, _, rfl, rfl, rfl, rfl, runsWb_of (r := slotR 1 Rt.adminStep) (x := wbI Rt.adminStep 1) (by decide +kernel), by decide +kernel⟩,
   ⟨admS ({ adminX with progress := 1 }) 0 0, _, 0, 1, _, 3, _, _, _, _, rfl, rfl, rfl, rfl, runsWb_of (r := slotR 1 Rt.adminStep) (x := wbI Rt.adminStep 1) (by decide +kernel), by decide +kernel⟩,
   ⟨admS ({ adminX with qpn := 5, sqe := ([0x7F, 0x40, 0, 0, 1] ++ List.replicate 34 0 ++ [0x40] ++ List.replicate 24 0) }) 0 0, _, 0, 1, _, 3, _, _, _, rfl, rfl, rfl, runsWb_of (r := slotR 1 Rt.adminStep) (x := wbI Rt.adminStep 1) (by decide +kernel), by decide +kernel⟩,
   ⟨admS ({ adminX with qpn := 5, sqe := ([0x7F, 0x40, 0, 0, 4] ++ List.replicate 39 0 ++ [20] ++ List.replicate 19 0) }) 0 0, _, 0, 1, _, 3, _, _, _, _, _, 0, rfl, rfl, rfl, rfl, rfl, runsWb_of (r := slotR 1 Rt.adminStep) (x := wbI Rt.adminStep 1) (by decide +kernel), by decide +kernel⟩,
   ⟨admS ({ adminX with qpn := 5, sqe := ([0x7F, 0x40, 0, 0, 4] ++ List.replicate 39 0 ++ [24] ++ List.replicate 19 0) }) 0 0, _, 0, 1, _, 3, _, _, _, _, _, rfl, rfl, rfl, rfl, rfl, runsWb_of (r := slotR 1 Rt.adminStep) (x := wbI Rt.adminStep 1) (by decide +kernel), by decide +kernel⟩,
   ⟨admS ({ adminX with qpn := 5, sqe := ([0x7F, 0x40, 0, 0, 0] ++ List.replicate 39 0 ++ [20] ++ List.replicate 19 0) }) 0 0, _, 0, 1, _, 3, _, _, _, _, _, rfl, rfl, rfl, rfl, rfl, runsWb_of (r := slotR 1 Rt.adminStep) (x := wbI Rt.adminStep 1) (by decide +kernel), by decide +kernel⟩,
   ⟨admS ({ adminX with qpn := 5, sqe := ([0x7F, 0x40, 0, 0, 0] ++ List.replicate 39 0 ++ [24] ++ List.replicate 19 0) }) 0 0, _, 0, 1, _, 3, _, _, _, _, _, rfl, rfl, rfl, rfl, rfl, runsWb_of (r := slotR 1 Rt.adminStep) (x := wbI Rt.adminStep 1) (by decide +kernel), by decide +kernel⟩⟩

theorem witness_ControllersAreServed_2 :
    (∃ (s : State) (u : State) (k : Fin 12) (c : Fin 256) (it : Item) (w : Nat) (x : Waybill) (y : Waybill) (Q : Qp), x = u.wb w ∧ Q = u.qp ((u.qpOf x.qpn).getD 0) ∧ y = ({ x with data := if x.icd.isEmpty then x.data else x.icd }) ∧ s.RunsWb k c Rt.adminStep u it w ∧ x.progress = 0 ∧ isFabrics x.sqe = false ∧ Q.qid ≠ 0 ∧ x.opcode = 0) ∧
    (∃ (s : State) (u : State) (k : Fin 12) (c : Fin 256) (it : Item) (w : Nat) (x : Waybill) (y : Waybill) (Q : Qp), x = u.wb w ∧ Q = u.qp ((u.qpOf x.qpn).getD 0) ∧ y = ({ x with data := if x.icd.isEmpty then x.data else x.icd }) ∧ s.RunsWb k c Rt.adminStep u it w ∧ x.progress = 0 ∧ isFabrics x.sqe = false ∧ Q.qid ≠ 0 ∧ x.opcode ≠ 0) ∧
    (∃ (s : State) (u : State) (k : Fin 12) (c : Fin 256) (it : Item) (w : Nat) (x : Waybill) (y : Waybill) (Q : Qp), x = u.wb w ∧ Q = u.qp ((u.qpOf x.qpn).getD 0) ∧ y = ({ x with data := if x.icd.isEmpty then x.data else x.icd }) ∧ s.RunsWb k c Rt.adminStep u it w ∧ x.progress = 0 ∧ isFabrics x.sqe = false ∧ Q.qid = 0 ∧ x.opcode = 0x0C ∧ 4 ≤ (u.ctrl Q.ctrl).aers.length) ∧
    (∃ (s : State) (u : State) (k : Fin 12) (c : Fin 256) (it : Item) (w : Nat) (x : Waybill) (y : Waybill) (Q : Qp), x = u.wb w ∧ Q = u.qp ((u.qpOf x.qpn).getD 0) ∧ y = ({ x with data := if x.icd.isEmpty then x.data else x.icd }) ∧ s.RunsWb k c Rt.adminStep u it w ∧ x.progress = 0 ∧ isFabrics x.sqe = false ∧ Q.qid = 0 ∧ x.opcode = 0x0C ∧ (u.ctrl Q.ctrl).aers.length < 4) ∧
    (∃ (s : State) (u : State) (k : Fin 12) (c : Fin 256) (it : Item) (w : Nat) (x : Waybill) (y : Waybill) (Q : Qp), x = u.wb w ∧ Q = u.qp ((u.qpOf x.qpn).getD 0) ∧ y = ({ x with data := if x.icd.isEmpty then x.data else x.icd }) ∧ s.RunsWb k c Rt.adminStep u it w ∧ x.progress = 0 ∧ isFabrics x.sqe = false ∧ Q.qid = 0 ∧ x.opcode ≠ 0x0C) ∧
    (∃ (s : State) (u : State) (k : Fin 12) (c : Fin 256) (it : Item) (w : Work) (ctrl : Nat) (a : Nat) (n : _) (rest : _), s.RunsWork k c Rt.selftestStep u it w ∧ w.kind = .test ctrl a ∧ w.redo = true ∧ w.rows = n :: rest ∧ (u.serves n = false ∨ (w.st ≠ .planned ∧ w.st ≠ .reading))) ∧
    (∃ (s : State) (u : State) (k : Fin 12) (c : Fin 256) (it : Item) (w : Work) (ctrl : Nat) (a : Nat) (n : _) (rest : _), s.RunsWork k c Rt.selftestStep u it w ∧ w.kind = .test ctrl a ∧ w.redo = true ∧ w.rows = n :: rest ∧ u.serves n = true ∧ w.st = .planned) ∧
    (∃ (s : State) (u : State) (k : Fin 12) (c : Fin 256) (it : Item) (w : Work) (ctrl : Nat) (a : Nat) (n : _) (rest : _), s.RunsWork k c Rt.selftestStep u it w ∧ w.kind = .test ctrl a ∧ w.redo = true ∧ w.rows = n :: rest ∧ u.serves n = true ∧ w.st = .reading) ∧
    (∃ (s : State) (u : State) (k : Fin 12) (c : Fin 256) (it : Item) (w : Work) (ctrl : Nat) (a : Nat), s.RunsWork k c Rt.selftestStep u it w ∧ w.kind = .test ctrl a ∧ w.redo = true ∧ w.rows = [] ∧ w.st = .planned) ∧
    (∃ (s : State) (u : State) (k : Fin 12) (c : Fin 256) (it : Item) (w : Work) (ctrl : Nat) (a : Nat), s.RunsWork k c Rt.selftestStep u it w ∧ w.kind = .test ctrl a ∧ w.redo = true ∧ w.rows = [] ∧ w.st ≠ .planned) ∧
    (∃ (s : State) (u : State) (k : Fin 12) (c : Fin 256) (it : Item) (w : Work) (ctrl : Nat) (a : Nat) (need : _), need = (u.pool w.pool).allNeed w ∧ s.RunsWork k c Rt.selftestStep u it w ∧ w.kind = .test ctrl a ∧ w.redo = false ∧ need ≠ []) ∧
    (∃ (s : State) (u : State) (k : Fin 12) (c : Fin 256) (it : Item) (w : Work) (ctrl : Nat) (a : Nat) (need : _), need = (u.pool w.pool).allNeed w ∧ s.RunsWork k c Rt.selftestStep u it w ∧ w.kind = .test ctrl a ∧ w.redo = false ∧ need = []) ∧
    (∃ (s : State) (t : State) (k : Fin 12) (c : Fin 256) (r : SlotRun) (p : Nat), s.Opens k c Rt.selftestStep r p ∧ State.beginTest k s p = some t) :=
  ⟨⟨admS ({ adminX with qpn := 5, sqe := List.replicate 64 0, opcode := 0 }) 1 0, _, 0, 1, _, 3, _, _, _, rfl, rfl, rfl, runsWb_of (r := slotR 1 Rt.adminStep) (x := wbI Rt.adminStep 1) (by decide +kernel), by decide +kernel⟩,
   ⟨admS ({ adminX with qpn := 5, sqe := (0x0D :: List.replicate 63 0), opcode := 0x0D }) 1 0, _, 0, 1, _, 3, _, _, _, rfl, rfl, rfl, runsWb_of (r := slotR 1 Rt.adminStep) (x := wbI Rt.adminStep 1) (by decide +kernel), by decide +kernel⟩,
   ⟨admS ({ adminX with qpn := 5, sqe := (0x0C :: List.replicate 63 0), opcode := 0x0C }) 0 4, _, 0, 1, _, 3, _, _, _, rfl, rfl, rfl, runsWb_of (r := slotR 1 Rt.adminStep) (x := wbI Rt.adminStep 1) (by decide +kernel), by decide +kernel⟩,
   ⟨admS ({ adminX with qpn := 5, sqe := (0x0C :: List.replicate 63 0), opcode := 0x0C }) 0 3, _, 0, 1, _, 3, _, _, _, rfl, rfl, rfl, runsWb_of (r := slotR 1 Rt.adminStep) (x := wbI Rt.adminStep 1) (by decide +kernel), by decide +kernel⟩,
   ⟨admS ({ adminX with qpn := 5, sqe := aliveB }) 0 0, _, 0, 1, _, 3, _, _, _, rfl, rfl, rfl, runsWb_of (r := slotR 1 Rt.adminStep) (x := wbI Rt.adminStep 1) (by decide +kernel), by decide +kernel⟩,
   ⟨workS poolS { testW true with rows := [11], st := .parity } Rt.selftestStep 1, _, 0, 3, _, { testW true with rows := [11], st := .parity }, 0, 4, 11, [], runsWork_of (r := slotR 3 Rt.selftestStep) (x := workI Rt.selftestStep 1) (by decide +kernel), by decide +kernel⟩,
   ⟨workS poolS { testW true with rows := [11] } Rt.selftestStep 1, _, 0, 3, _, { testW true with rows := [11] }, 0, 4, 11, [], runsWork_of (r := slotR 3 Rt.selftestStep) (x := workI Rt.selftestStep 1) (by decide +kernel), by decide +kernel⟩,
   ⟨workS poolS { testW true with rows := [11], st := .reading } Rt.selftestStep 1, _, 0, 3, _, { testW true with rows := [11], st := .reading }, 0, 4, 11, [], runsWork_of (r := slotR 3 Rt.selftestStep) (x := workI Rt.selftestStep 1) (by decide +kernel), by decide +kernel⟩,
   ⟨workS poolS (testW true) Rt.selftestStep 1, _, 0, 3, _, (testW true), 0, 4, runsWork_of (r := slotR 3 Rt.selftestStep) (x := workI Rt.selftestStep 1) (by decide +kernel), by decide +kernel⟩,
   ⟨workS poolS { testW true with st := .reading } Rt.selftestStep 1, _, 0, 3, _, { testW true with st := .reading }, 0, 4, runsWork_of (r := slotR 3 Rt.selftestStep) (x := workI Rt.selftestStep 1) (by decide +kernel), by decide +kernel⟩,
   ⟨workS poolS (testW false) Rt.selftestStep 1, _, 0, 3, _, (testW false), 0, 4, _, rfl, runsWork_of (r := slotR 3 Rt.selftestStep) (x := workI Rt.selftestStep 1) (by decide +kernel), by decide +kernel⟩,
   ⟨workS poolS { testW false with vals := rowsOf [0] } Rt.selftestStep 1, _, 0, 3, _, { testW false with vals := rowsOf [0] }, 0, 4, _, rfl, runsWork_of (r := slotR 3 Rt.selftestStep) (x := workI Rt.selftestStep 1) (by decide +kernel), by decide +kernel⟩,
   ⟨poolT (fun P => { P with acts := [{ Activity.of 5 0 [] [(0, 16384)] with id := 4, st := .running, credit := 100000000 }] }), _, 0, 3, slotR 3 Rt.selftestStep, 0, opens_of (by decide +kernel), (Option.some_get (by decide +kernel)).symm⟩⟩

theorem witness_BaysAndDrives_1 :
    (∃ (s : State) (b : Fin 128) (u : _), u = ((s.cntDrv 9 1).updBay b fun x => { x with fails := (s.bay b).fails + 1, perst := true, retrying := true, step := 3 }) ∧ ((s.bayState b = dbLinking ∨ s.bayState b = dbRecovering) ∧ (s.bay b).step = 3 ∧ (s.bay b).pg = true ∧ s.msSince (s.bay b).pgTick 100 = true ∧ (s.bay b).retrying = false ∧ (s.bay b).contained = none)) ∧
    (∃ (s : State) (b : Fin 128) (u : _), u = ((s.cntDrv 9 1).updBay b fun x => { x with fails := (s.bay b).fails + 1, perst := true, retrying := true, step := 3 }) ∧ ¬ ((s.bayState b = dbLinking ∨ s.bayState b = dbRecovering) ∧ (s.bay b).step = 3 ∧ (s.bay b).pg = true ∧ s.msSince (s.bay b).pgTick 100 = true ∧ (s.bay b).retrying = false ∧ (s.bay b).contained = none)) ∧
    (∃ (s : State) (b : Fin 128) (u : _), u = ((s.cntDrv 9 1).updBay b fun x => { x with fails := (s.bay b).fails + 1, perst := true, retrying := true, step := 3 }) ∧ (s.bay b).retrying = true ∧ s.bayLive b = true) ∧
    (∃ (s : State) (b : Fin 128) (u : _), u = ((s.cntDrv 9 1).updBay b fun x => { x with fails := (s.bay b).fails + 1, perst := true, retrying := true, step := 3 }) ∧ ((s.bay b).retrying = false ∨ s.bayLive b = false)) ∧
    (∃ (s : State) (b : Fin 128) (u : _), u = ((s.cntDrv 9 1).updBay b fun x => { x with fails := (s.bay b).fails + 1, perst := true, retrying := true, step := 3 }) ∧ (s.bayState b = dbLinking ∨ s.bayState b = dbRecovering) ∧ (s.bay b).step = 4 ∧ ((s.bay b).fails + 1 ≤ u.fld Reg.DRV_RECOVER Fd.DRV_RECOVER_LINK_RETRIES)) ∧
    (∃ (s : State) (b : Fin 128) (u : _), u = ((s.cntDrv 9 1).updBay b fun x => { x with fails := (s.bay b).fails + 1, perst := true, retrying := true, step := 3 }) ∧ (s.bayState b = dbLinking ∨ s.bayState b = dbRecovering) ∧ (s.bay b).step = 4 ∧ ¬ ((s.bay b).fails + 1 ≤ u.fld Reg.DRV_RECOVER Fd.DRV_RECOVER_LINK_RETRIES)) ∧
    (∃ (s : State) (b : Fin 128) (u : _), u = ((s.cntDrv 9 1).updBay b fun x => { x with fails := (s.bay b).fails + 1, perst := true, retrying := true, step := 3 }) ∧ ¬ ((s.bayState b = dbLinking ∨ s.bayState b = dbRecovering) ∧ (s.bay b).step = 4)) ∧
    (∃ (s : State) (b : Fin 128) (u : _) (rate : Fin 16) (width : Fin 16) (flit : Bool), u = ((s.cntDrv 9 1).updBay b fun x => { x with fails := (s.bay b).fails + 1, perst := true, retrying := true, step := 3 }) ∧ (s.bayState b = dbLinking ∨ s.bayState b = dbRecovering) ∧ (s.bay b).step = 4 ∧ s.linkCan b rate width flit = true ∧ s.linkOk b rate width = true) ∧
    (∃ (s : State) (b : Fin 128) (u : _) (rate : Fin 16) (width : Fin 16) (flit : Bool), u = ((s.cntDrv 9 1).updBay b fun x => { x with fails := (s.bay b).fails + 1, perst := true, retrying := true, step := 3 }) ∧ (s.bayState b = dbLinking ∨ s.bayState b = dbRecovering) ∧ (s.bay b).step = 4 ∧ s.linkCan b rate width flit = true ∧ s.linkOk b rate width = false ∧ ((s.bay b).fails + 1 ≤ u.fld Reg.DRV_RECOVER Fd.DRV_RECOVER_LINK_RETRIES)) ∧
    (∃ (s : State) (b : Fin 128) (u : _) (rate : Fin 16) (width : Fin 16) (flit : Bool), u = ((s.cntDrv 9 1).updBay b fun x => { x with fails := (s.bay b).fails + 1, perst := true, retrying := true, step := 3 }) ∧ (s.bayState b = dbLinking ∨ s.bayState b = dbRecovering) ∧ (s.bay b).step = 4 ∧ s.linkCan b rate width flit = true ∧ s.linkOk b rate width = false ∧ ¬ ((s.bay b).fails + 1 ≤ u.fld Reg.DRV_RECOVER Fd.DRV_RECOVER_LINK_RETRIES)) ∧
    (∃ (s : State) (b : Fin 128) (u : _) (rate : Fin 16) (width : Fin 16) (flit : Bool), u = ((s.cntDrv 9 1).updBay b fun x => { x with fails := (s.bay b).fails + 1, perst := true, retrying := true, step := 3 }) ∧ ¬ ((s.bayState b = dbLinking ∨ s.bayState b = dbRecovering) ∧ (s.bay b).step = 4 ∧ s.linkCan b rate width flit = true)) ∧
    (∃ (s : State) (b : Fin 128) (u : _), u = ((s.cntDrv 9 1).updBay b fun x => { x with fails := (s.bay b).fails + 1, perst := true, retrying := true, step := 3 }) ∧ s.bayLive b = true ∧ (s.bay b).step = 5) ∧
    (∃ (s : State) (b : Fin 128) (u : _), u = ((s.cntDrv 9 1).updBay b fun x => { x with fails := (s.bay b).fails + 1, perst := true, retrying := true, step := 3 }) ∧ ¬ (s.bayLive b = true ∧ (s.bay b).step = 5)) ∧
    (∃ (s : State) (b : Fin 128) (u : _) (rate : Fin 16) (width : Fin 16) (v : _), u = ((s.cntDrv 9 1).updBay b fun x => { x with fails := (s.bay b).fails + 1, perst := true, retrying := true, step := 3 }) ∧ v = s.cntDrv 9 1 ∧ (5 ≤ (s.bay b).step ∧ s.bayLive b = true ∧ s.linkCan b rate width (s.flag (Reg.DRV_BAY_STATUS b) Fd.DRV_BAY_STATUS_FLIT) = true) ∧ (v.fld (Reg.DRV_BAY_STATUS b) Fd.DRV_BAY_STATUS_RATE = rate.val ∧ v.fld (Reg.DRV_BAY_STATUS b) Fd.DRV_BAY_STATUS_WIDTH = width.val)) ∧
    (∃ (s : State) (b : Fin 128) (u : _) (rate : Fin 16) (width : Fin 16) (v : _), u = ((s.cntDrv 9 1).updBay b fun x => { x with fails := (s.bay b).fails + 1, perst := true, retrying := true, step := 3 }) ∧ v = s.cntDrv 9 1 ∧ (5 ≤ (s.bay b).step ∧ s.bayLive b = true ∧ s.linkCan b rate width (s.flag (Reg.DRV_BAY_STATUS b) Fd.DRV_BAY_STATUS_FLIT) = true) ∧ ¬ (v.fld (Reg.DRV_BAY_STATUS b) Fd.DRV_BAY_STATUS_RATE = rate.val ∧ v.fld (Reg.DRV_BAY_STATUS b) Fd.DRV_BAY_STATUS_WIDTH = width.val) ∧ v.linkOk b rate width = true) :=
  ⟨⟨bayS dbLinking (bayX 3), 127, _, rfl, by decide +kernel⟩,
   ⟨onS, 127, _, rfl, by decide +kernel⟩,
   ⟨bayS dbLinking { bayX 3 with retrying := true }, 127, _, rfl, by decide +kernel⟩,
   ⟨onS, 127, _, rfl, by decide +kernel⟩,
   ⟨bayS dbLinking (bayX 4), 127, _, rfl, by decide +kernel⟩,
   ⟨bayS dbLinking { bayX 4 with fails := 255 }, 127, _, rfl, by decide +kernel⟩,
   ⟨onS, 127, _, rfl, by decide +kernel⟩,
   ⟨bayS dbLinking (bayX 4), 127, _, 5, 4, false, rfl, by decide +kernel⟩,
   ⟨(bayS dbLinking (bayX 4)).setFld (Reg.DRV_BAY_CFG 127) Fd.DRV_BAY_CFG_MIN_WIDTH 4, 127, _, 5, 2, false, rfl, by decide +kernel⟩,
   ⟨(bayS dbLinking { bayX 4 with fails := 255 }).setFld (Reg.DRV_BAY_CFG 127) Fd.DRV_BAY_CFG_MIN_WIDTH 4, 127, _, 5, 2, false, rfl, by decide +kernel⟩,
   ⟨onS, 127, _, 5, 4, false, rfl, by decide +kernel⟩,
   ⟨bayS dbLinking (bayX 5), 127, _, rfl, by decide +kernel⟩,
   ⟨onS, 127, _, rfl, by decide +kernel⟩,
   ⟨((bayS dbLinking (bayX 5)).setFld (Reg.DRV_BAY_STATUS 127) Fd.DRV_BAY_STATUS_RATE 5).setFld (Reg.DRV_BAY_STATUS 127) Fd.DRV_BAY_STATUS_WIDTH 4, 127, _, 5, 4, _, rfl, rfl, by decide +kernel⟩,
   ⟨bayS dbLinking (bayX 5), 127, _, 5, 4, _, rfl, rfl, by decide +kernel⟩⟩

theorem witness_BaysAndDrives_2 :
    (∃ (s : State) (b : Fin 128) (u : _) (rate : Fin 16) (width : Fin 16) (v : _), u = ((s.cntDrv 9 1).updBay b fun x => { x with fails := (s.bay b).fails + 1, perst := true, retrying := true, step := 3 }) ∧ v = s.cntDrv 9 1 ∧ (5 ≤ (s.bay b).step ∧ s.bayLive b = true ∧ s.linkCan b rate width (s.flag (Reg.DRV_BAY_STATUS b) Fd.DRV_BAY_STATUS_FLIT) = true) ∧ ¬ (v.fld (Reg.DRV_BAY_STATUS b) Fd.DRV_BAY_STATUS_RATE = rate.val ∧ v.fld (Reg.DRV_BAY_STATUS b) Fd.DRV_BAY_STATUS_WIDTH = width.val) ∧ v.linkOk b rate width = false) ∧
    (∃ (s : State) (b : Fin 128) (u : _) (rate : Fin 16) (width : Fin 16) (v : _), u = ((s.cntDrv 9 1).updBay b fun x => { x with fails := (s.bay b).fails + 1, perst := true, retrying := true, step := 3 }) ∧ v = s.cntDrv 9 1 ∧ ¬ (5 ≤ (s.bay b).step ∧ s.bayLive b = true ∧ s.linkCan b rate width (s.flag (Reg.DRV_BAY_STATUS b) Fd.DRV_BAY_STATUS_FLIT) = true)) ∧
    (∃ (s : State) (b : Fin 128) (u : _) (capTo : Fin 256), u = ((s.cntDrv 9 1).updBay b fun x => { x with fails := (s.bay b).fails + 1, perst := true, retrying := true, step := 3 }) ∧ (s.fwRuns = true ∧ s.bayLive b = true ∧ (s.bay b).step = 6) ∧ s.bayState b = dbLinking) ∧
    (∃ (s : State) (b : Fin 128) (u : _) (capTo : Fin 256), u = ((s.cntDrv 9 1).updBay b fun x => { x with fails := (s.bay b).fails + 1, perst := true, retrying := true, step := 3 }) ∧ (s.fwRuns = true ∧ s.bayLive b = true ∧ (s.bay b).step = 6) ∧ s.bayState b ≠ dbLinking) ∧
    (∃ (s : State) (b : Fin 128) (u : _) (capTo : Fin 256), u = ((s.cntDrv 9 1).updBay b fun x => { x with fails := (s.bay b).fails + 1, perst := true, retrying := true, step := 3 }) ∧ ¬ (s.fwRuns = true ∧ s.bayLive b = true ∧ (s.bay b).step = 6)) ∧
    (∃ (s : State) (b : Fin 128) (u : _), u = ((s.cntDrv 9 1).updBay b fun x => { x with fails := (s.bay b).fails + 1, perst := true, retrying := true, step := 3 }) ∧ (s.fwRuns = true ∧ s.bayLive b = true ∧ (s.bay b).step = 8)) ∧
    (∃ (s : State) (b : Fin 128) (u : _), u = ((s.cntDrv 9 1).updBay b fun x => { x with fails := (s.bay b).fails + 1, perst := true, retrying := true, step := 3 }) ∧ ¬ (s.fwRuns = true ∧ s.bayLive b = true ∧ (s.bay b).step = 8)) ∧
    (∃ (s : State) (b : Fin 128) (u : _) (r : DriveReport) (h : _), u = ((s.cntDrv 9 1).updBay b fun x => { x with fails := (s.bay b).fails + 1, perst := true, retrying := true, step := 3 }) ∧ h = min 12 ((r.pairs + 1) / 2) ∧ (s.fwRuns = true ∧ (s.bay b).step = 9 ∧ (s.bayState b = dbInit ∨ s.bayState b = dbRecovering ∨ (s.bay b).next = .init)) ∧ ¬ (r.nvme14 = true ∧ r.ns1 = true ∧ (s.straps.pairEn = true → r.shared = true ∧ r.resv = true) ∧ r.format = true ∧ 2 ≤ r.pairs ∧ (r.mdts = 0 ∨ 65536 ≤ r.mdts) ∧ (r.vwc = true → r.vwcOff = true))) ∧
    (∃ (s : State) (b : Fin 128) (u : _) (r : DriveReport) (h : _), u = ((s.cntDrv 9 1).updBay b fun x => { x with fails := (s.bay b).fails + 1, perst := true, retrying := true, step := 3 }) ∧ h = min 12 ((r.pairs + 1) / 2) ∧ (s.fwRuns = true ∧ (s.bay b).step = 9 ∧ (s.bayState b = dbInit ∨ s.bayState b = dbRecovering ∨ (s.bay b).next = .init)) ∧ (r.nvme14 = true ∧ r.ns1 = true ∧ (s.straps.pairEn = true → r.shared = true ∧ r.resv = true) ∧ r.format = true ∧ 2 ≤ r.pairs ∧ (r.mdts = 0 ∨ 65536 ≤ r.mdts) ∧ (r.vwc = true → r.vwcOff = true))) ∧
    (∃ (s : State) (b : Fin 128) (u : _) (r : DriveReport) (h : _), u = ((s.cntDrv 9 1).updBay b fun x => { x with fails := (s.bay b).fails + 1, perst := true, retrying := true, step := 3 }) ∧ h = min 12 ((r.pairs + 1) / 2) ∧ ¬ (s.fwRuns = true ∧ (s.bay b).step = 9 ∧ (s.bayState b = dbInit ∨ s.bayState b = dbRecovering ∨ (s.bay b).next = .init))) ∧
    (∃ (s : State) (b : Fin 128) (u : _), u = ((s.cntDrv 9 1).updBay b fun x => { x with fails := (s.bay b).fails + 1, perst := true, retrying := true, step := 3 }) ∧ (s.bayState b = dbInit ∨ (s.bayState b = dbLinking ∧ 5 ≤ (s.bay b).step))) ∧
    (∃ (s : State) (b : Fin 128) (u : _), u = ((s.cntDrv 9 1).updBay b fun x => { x with fails := (s.bay b).fails + 1, perst := true, retrying := true, step := 3 }) ∧ ¬ (s.bayState b = dbInit ∨ (s.bayState b = dbLinking ∧ 5 ≤ (s.bay b).step)) ∧ s.bayState b = dbLinking ∧ (s.bay b).step = 4 ∧ ((s.bay b).fails + 1 ≤ u.fld Reg.DRV_RECOVER Fd.DRV_RECOVER_LINK_RETRIES)) ∧
    (∃ (s : State) (b : Fin 128) (u : _), u = ((s.cntDrv 9 1).updBay b fun x => { x with fails := (s.bay b).fails + 1, perst := true, retrying := true, step := 3 }) ∧ ¬ (s.bayState b = dbInit ∨ (s.bayState b = dbLinking ∧ 5 ≤ (s.bay b).step)) ∧ s.bayState b = dbLinking ∧ (s.bay b).step = 4 ∧ ¬ ((s.bay b).fails + 1 ≤ u.fld Reg.DRV_RECOVER Fd.DRV_RECOVER_LINK_RETRIES)) ∧
    (∃ (s : State) (b : Fin 128) (u : _), u = ((s.cntDrv 9 1).updBay b fun x => { x with fails := (s.bay b).fails + 1, perst := true, retrying := true, step := 3 }) ∧ ¬ (s.bayState b = dbInit ∨ (s.bayState b = dbLinking ∧ 5 ≤ (s.bay b).step)) ∧ ¬ (s.bayState b = dbLinking ∧ (s.bay b).step = 4)) ∧
    (∃ (s : State) (b : Fin 128) (q : Fin 64) (cid : Fin 65536) (phase : Bool) (sct : Fin 8) (sc : Fin 256) (crd : Fin 4) (dnr : Bool) (n : _) (c : _), n = Tab.rd (fun _ => 0) (s.bay b).posted q.val ∧ ((s.bay b).contained = none ∧ 8 ≤ (s.bay b).step ∧ q.val ≠ 0) ∧ s.cmd? cid = some c ∧ (fun (c : DrvCmd) => c.st = 0 ∧ c.bay = b ∧ c.queue = q ∧ phase = (n / or1 (s.bay b).ident.depth % 2 == 0)) c) :=
  ⟨⟨(bayS dbLinking (bayX 5)).setFld (Reg.DRV_BAY_CFG 127) Fd.DRV_BAY_CFG_MIN_WIDTH 4, 127, _, 5, 2, _, rfl, rfl, by decide +kernel⟩,
   ⟨onS, 127, _, 5, 4, _, rfl, rfl, by decide +kernel⟩,
   ⟨bayS dbLinking (bayX 6), 127, _, 255, rfl, by decide +kernel⟩,
   ⟨bayS dbRecovering (bayX 6), 127, _, 255, rfl, by decide +kernel⟩,
   ⟨onS, 127, _, 255, rfl, by decide +kernel⟩,
   ⟨bayS dbLinking (bayX 8), 127, _, rfl, by decide +kernel⟩,
   ⟨onS, 127, _, rfl, by decide +kernel⟩,
   ⟨bayS dbLinking { bayX 9 with next := .init }, 127, _, { reportR with pairs := 1 }, _, rfl, rfl, by decide +kernel⟩,
   ⟨bayS dbLinking { bayX 9 with next := .init }, 127, _, reportR, _, rfl, rfl, by decide +kernel⟩,
   ⟨onS, 127, _, reportR, _, rfl, rfl, by decide +kernel⟩,
   ⟨bayS dbInit (bayX 9), 127, _, rfl, by decide +kernel⟩,
   ⟨bayS dbLinking (bayX 4), 127, _, rfl, by decide +kernel⟩,
   ⟨bayS dbLinking { bayX 4 with fails := 255 }, 127, _, rfl, by decide +kernel⟩,
   ⟨onS, 127, _, rfl, by decide +kernel⟩,
   ⟨cmdS drvC, 127, 1, 65535, true, 0, 0, 0, false, _, drvC, rfl, by decide +kernel⟩⟩

theorem witness_BaysAndDrives_3 :
    (∃ (s : State) (b : Fin 128) (q : Fin 64) (cid : Fin 65536) (phase : Bool) (sct : Fin 8) (sc : Fin 256) (crd : Fin 4) (dnr : Bool) (n : _), n = Tab.rd (fun _ => 0) (s.bay b).posted q.val ∧ (∀ c, s.cmd? cid = some c → ¬ (fun (c : DrvCmd) => c.st = 0 ∧ c.bay = b ∧ c.queue = q ∧ phase = (n / or1 (s.bay b).ident.depth % 2 == 0)) c) ∧ ((s.bay b).contained = none ∧ 8 ≤ (s.bay b).step ∧ q.val ≠ 0)) ∧
    (∃ (s : State) (b : Fin 128) (q : Fin 64) (cid : Fin 65536) (phase : Bool) (sct : Fin 8) (sc : Fin 256) (crd : Fin 4) (dnr : Bool) (n : _), n = Tab.rd (fun _ => 0) (s.bay b).posted q.val ∧ ¬ ((s.bay b).contained = none ∧ 8 ≤ (s.bay b).step ∧ q.val ≠ 0)) ∧
    (∃ (s : State) (t : Fin 65536) (c : _), s.cmd? t = some c ∧ (fun (c : DrvCmd) => c.st = 0 ∧ c.abort = none ∧ s.msSince c.tick (s.fld1 Reg.DRV_TIMERS Fd.DRV_TIMERS_CMD_TO) = true) c) ∧
    (∃ (s : State) (t : Fin 65536), (∀ c, s.cmd? t = some c → ¬ (fun (c : DrvCmd) => c.st = 0 ∧ c.abort = none ∧ s.msSince c.tick (s.fld1 Reg.DRV_TIMERS Fd.DRV_TIMERS_CMD_TO) = true) c)) ∧
    (∃ (s : State) (t : Fin 65536) (c : _), (fun (c : DrvCmd) => c.st = 0 ∧ ∃ a, c.abort = some a ∧ s.msSince a (s.fld1 Reg.DRV_TIMERS Fd.DRV_TIMERS_ABORT_TO) = true) c ∧ s.cmd? t = some c) ∧
    (∃ (s : State) (t : Fin 65536), (∀ c, s.cmd? t = some c → ¬ (fun (c : DrvCmd) => c.st = 0 ∧ ∃ a, c.abort = some a ∧ s.msSince a (s.fld1 Reg.DRV_TIMERS Fd.DRV_TIMERS_ABORT_TO) = true) c)) ∧
    (∃ (s : State) (b : Fin 128) (addr : BitVec 64) (write : Bool) (data : List Byte) (len : Fin 4097) (n : _) (o : _), n = ((if write then data.length else len.val)) ∧ o = (addr.toNat - 0x10000000000000) % 0x200000 ∧ ((s.bay b).contained ≠ none ∨ (s.bay b).step < 5)) ∧
    (∃ (s : State) (b : Fin 128) (addr : BitVec 64) (write : Bool) (data : List Byte) (len : Fin 4097) (n : _) (off : _) (o : _), n = ((if write then data.length else len.val)) ∧ off = addr.toNat - queueWindow b ∧ o = (addr.toNat - 0x10000000000000) % 0x200000 ∧ write = true ∧ (s.bay b).contained = none ∧ 5 ≤ (s.bay b).step ∧ (queueWindow b ≤ addr.toNat ∧ addr.toNat + n ≤ queueWindow b + 0x800000) ∧ 0x10000 ≤ off % 0x20000) ∧
    (∃ (s : State) (b : Fin 128) (addr : BitVec 64) (write : Bool) (data : List Byte) (len : Fin 4097) (n : _) (off : _) (o : _), n = ((if write then data.length else len.val)) ∧ off = addr.toNat - queueWindow b ∧ o = (addr.toNat - 0x10000000000000) % 0x200000 ∧ write = false ∧ (s.bay b).contained = none ∧ 5 ≤ (s.bay b).step ∧ (queueWindow b ≤ addr.toNat ∧ addr.toNat + n ≤ queueWindow b + 0x800000) ∧ off % 0x20000 < 0x10000) ∧
    (∃ (s : State) (b : Fin 128) (addr : BitVec 64) (write : Bool) (data : List Byte) (len : Fin 4097) (n : _) (off : _) (o : _), n = ((if write then data.length else len.val)) ∧ off = addr.toNat - queueWindow b ∧ o = (addr.toNat - 0x10000000000000) % 0x200000 ∧ (s.bay b).contained = none ∧ 5 ≤ (s.bay b).step ∧ (queueWindow b ≤ addr.toNat ∧ addr.toNat + n ≤ queueWindow b + 0x800000) ∧ (write = true ↔ off % 0x20000 < 0x10000)) ∧
    (∃ (s : State) (b : Fin 128) (addr : BitVec 64) (write : Bool) (data : List Byte) (len : Fin 4097) (n : _) (o : _) (t : _) (c : _), n = ((if write then data.length else len.val)) ∧ o = (addr.toNat - 0x10000000000000) % 0x200000 ∧ t = (addr.toNat - 0x20000000000000) / 0x1000 ∧ (s.bay b).contained = none ∧ 5 ≤ (s.bay b).step ∧ ¬ (queueWindow b ≤ addr.toNat ∧ addr.toNat + n ≤ queueWindow b + 0x800000) ∧ 0x20000000000000 ≤ addr.toNat ∧ s.cmd? t = some c ∧ (fun (c : DrvCmd) => c.bay = b ∧ c.st = 0 ∧ write = false ∧ addr.toNat % 0x1000 + n ≤ 0x1000) c) ∧
    (∃ (s : State) (b : Fin 128) (addr : BitVec 64) (write : Bool) (data : List Byte) (len : Fin 4097) (n : _) (o : _) (t : _), n = ((if write then data.length else len.val)) ∧ o = (addr.toNat - 0x10000000000000) % 0x200000 ∧ t = (addr.toNat - 0x20000000000000) / 0x1000 ∧ (∀ c, s.cmd? t = some c → ¬ (fun (c : DrvCmd) => c.bay = b ∧ c.st = 0 ∧ write = false ∧ addr.toNat % 0x1000 + n ≤ 0x1000) c) ∧ (s.bay b).contained = none ∧ 5 ≤ (s.bay b).step ∧ ¬ (queueWindow b ≤ addr.toNat ∧ addr.toNat + n ≤ queueWindow b + 0x800000) ∧ 0x20000000000000 ≤ addr.toNat) ∧
    (∃ (s : State) (b : Fin 128) (addr : BitVec 64) (write : Bool) (data : List Byte) (len : Fin 4097) (n : _) (o : _) (t : _) (c : _), n = ((if write then data.length else len.val)) ∧ o = (addr.toNat - 0x10000000000000) % 0x200000 ∧ t = (addr.toNat - 0x10000000000000) / 0x200000 ∧ write = true ∧ (s.bay b).contained = none ∧ 5 ≤ (s.bay b).step ∧ ¬ (queueWindow b ≤ addr.toNat ∧ addr.toNat + n ≤ queueWindow b + 0x800000) ∧ addr.toNat < 0x20000000000000 ∧ 0x10000000000000 ≤ addr.toNat ∧ s.cmd? t = some c ∧ (fun (c : DrvCmd) => c.bay = b ∧ c.st = 0 ∧ (write = !c.write) ∧ o + n ≤ c.units * unitBytes) c) ∧
    (∃ (s : State) (b : Fin 128) (addr : BitVec 64) (write : Bool) (data : List Byte) (len : Fin 4097) (n : _) (o : _) (t : _) (c : _), n = ((if write then data.length else len.val)) ∧ o = (addr.toNat - 0x10000000000000) % 0x200000 ∧ t = (addr.toNat - 0x10000000000000) / 0x200000 ∧ write = false ∧ (s.bay b).contained = none ∧ 5 ≤ (s.bay b).step ∧ ¬ (queueWindow b ≤ addr.toNat ∧ addr.toNat + n ≤ queueWindow b + 0x800000) ∧ addr.toNat < 0x20000000000000 ∧ 0x10000000000000 ≤ addr.toNat ∧ s.cmd? t = some c ∧ (fun (c : DrvCmd) => c.bay = b ∧ c.st = 0 ∧ (write = !c.write) ∧ o + n ≤ c.units * unitBytes) c) ∧
    (∃ (s : State) (b : Fin 128) (addr : BitVec 64) (write : Bool) (data : List Byte) (len : Fin 4097) (n : _) (o : _) (t : _), n = ((if write then data.length else len.val)) ∧ o = (addr.toNat - 0x10000000000000) % 0x200000 ∧ t = (addr.toNat - 0x10000000000000) / 0x200000 ∧ (∀ c, s.cmd? t = some c → ¬ (fun (c : DrvCmd) => c.bay = b ∧ c.st = 0 ∧ (write = !c.write) ∧ o + n ≤ c.units * unitBytes) c) ∧ (s.bay b).contained = none ∧ 5 ≤ (s.bay b).step ∧ ¬ (queueWindow b ≤ addr.toNat ∧ addr.toNat + n ≤ queueWindow b + 0x800000) ∧ addr.toNat < 0x20000000000000 ∧ 0x10000000000000 ≤ addr.toNat) :=
  ⟨⟨bayS dbOnline (bayX 10), 127, 1, 65535, true, 0, 0, 0, false, _, rfl, none_all (by decide +kernel), by decide +kernel⟩,
   ⟨onS, 127, 1, 65535, true, 0, 0, 0, false, _, rfl, by decide +kernel⟩,
   ⟨cmdS drvC, 65535, drvC, by decide +kernel⟩,
   ⟨onS, 65535, none_all (by decide +kernel)⟩,
   ⟨cmdS { drvC with abort := some 0 }, 65535, { drvC with abort := some 0 }, ⟨by decide +kernel, 0, by decide +kernel, by decide +kernel⟩, by decide +kernel⟩,
   ⟨onS, 65535, none_all (by decide +kernel)⟩,
   ⟨onS, 127, 0, true, [], 0, _, _, rfl, rfl, by decide +kernel⟩,
   ⟨bayS dbOnline (bayX 10), 127, BitVec.ofNat 64 (queueWindow 127 + 65536), _, [], 0, _, _, _, rfl, rfl, rfl, rfl, by decide +kernel⟩,
   ⟨bayS dbOnline (bayX 10), 127, BitVec.ofNat 64 (queueWindow 127 + 65535), _, [], 1, _, _, _, rfl, rfl, rfl, rfl, by decide +kernel⟩,
   ⟨bayS dbOnline (bayX 10), 127, BitVec.ofNat 64 (queueWindow 127 + 65535), true, [], 0, _, _, _, rfl, rfl, rfl, by decide +kernel⟩,
   ⟨cmdS drvC, 127, 0x2000000FFFF000, false, [], 4096, _, _, _, drvC, rfl, rfl, rfl, by decide +kernel⟩,
   ⟨bayS dbOnline (bayX 10), 127, 0x20000000000000, false, [], 0, _, _, _, rfl, rfl, rfl, none_all (by decide +kernel), by decide +kernel⟩,
   ⟨cmdS drvC, 127, 0x10001FFFE00000, _, [], 0, _, _, _, drvC, rfl, rfl, rfl, rfl, by decide +kernel⟩,
   ⟨cmdS { drvC with write := true }, 127, 0x10001FFFE00000, _, [], 4096, _, _, _, { drvC with write := true }, rfl, rfl, rfl, rfl, by decide +kernel⟩,
   ⟨bayS dbOnline (bayX 10), 127, 0x10000000000000, false, [], 0, _, _, _, rfl, rfl, rfl, none_all (by decide +kernel), by decide +kernel⟩⟩

theorem witness_BaysAndDrives_4 :
    (∃ (s : State) (b : Fin 128) (addr : BitVec 64) (write : Bool) (data : List Byte) (len : Fin 4097) (n : _) (o : _), n = ((if write then data.length else len.val)) ∧ o = (addr.toNat - 0x10000000000000) % 0x200000 ∧ (s.bay b).contained = none ∧ 5 ≤ (s.bay b).step ∧ ¬ (queueWindow b ≤ addr.toNat ∧ addr.toNat + n ≤ queueWindow b + 0x800000) ∧ addr.toNat < 0x10000000000000) ∧
    (∃ (s : State) (b : Fin 128) (cause : Fin 7) (ref : Bool), (ref = false ∨ cause.val ≠ 1) ∧ s.online b = true ∧ (s.bay b).contained = none ∧ 0 < cause.val ∧ cause.val ≠ 5) ∧
    (∃ (s : State) (b : Fin 128) (cause : Fin 7) (ref : Bool), (ref = false ∨ cause.val ≠ 1) ∧ s.online b = true ∧ (s.bay b).contained = none ∧ cause.val = 5) ∧
    (∃ (s : State) (b : Fin 128) (cause : Fin 7) (ref : Bool), (ref = false ∨ cause.val ≠ 1) ∧ s.online b = true ∧ (s.bay b).contained ≠ none ∧ cause.val = 5) ∧
    (∃ (s : State) (b : Fin 128) (cause : Fin 7) (ref : Bool), (ref = false ∨ cause.val ≠ 1) ∧ (cause.val = 0 ∨ s.online b = false ∨ ((s.bay b).contained ≠ none ∧ cause.val ≠ 5))) ∧
    (∃ (s : State) (b : Fin 128), (s.bayState b = dbRecovering ∧ (s.bay b).contained.any (fun t => s.msSince t 10) = true)) ∧
    (∃ (s : State) (b : Fin 128), ¬ (s.bayState b = dbRecovering ∧ (s.bay b).contained.any (fun t => s.msSince t 10) = true)) ∧
    (∃ (s : State) (b : Fin 128), (s.bayState b = dbRecovering ∧ (s.bay b).next ≠ .online ∧ s.msSince (s.bay b).recStart (s.fld Reg.DRV_RECOVER Fd.DRV_RECOVER_RECOVER_MAX) = true)) ∧
    (∃ (s : State) (b : Fin 128), ¬ (s.bayState b = dbRecovering ∧ (s.bay b).next ≠ .online ∧ s.msSince (s.bay b).recStart (s.fld Reg.DRV_RECOVER Fd.DRV_RECOVER_RECOVER_MAX) = true)) ∧
    (∃ (s : State) (b : Fin 128) (w : BitVec 8) (temp : Fin 65536) (u : _) (v : _), u = (s.updBay b fun x => { x with warning := w.toNat, temp := temp, tempTick := some s.now }) ∧ v = u.raise Ev.DRV_HEALTH b w.toNat temp ∧ s.fwRuns = true ∧ s.online b = true ∧ (w.toNat ≠ (s.bay b).warning ∧ (natBit w.toNat 0 || natBit w.toNat 1 || natBit w.toNat 4) = true) ∧ (fun (v : State) => (natBit w.toNat 2 || natBit w.toNat 3) = true ∧ v.flag Reg.DRV_CFG Fd.DRV_CFG_HEALTH_FAIL = true) v) ∧
    (∃ (s : State) (b : Fin 128) (w : BitVec 8) (temp : Fin 65536) (u : _) (v : _), u = (s.updBay b fun x => { x with warning := w.toNat, temp := temp, tempTick := some s.now }) ∧ v = u.raise Ev.DRV_HEALTH b w.toNat temp ∧ s.fwRuns = true ∧ s.online b = true ∧ (w.toNat ≠ (s.bay b).warning ∧ (natBit w.toNat 0 || natBit w.toNat 1 || natBit w.toNat 4) = true) ∧ ¬ (fun (v : State) => (natBit w.toNat 2 || natBit w.toNat 3) = true ∧ v.flag Reg.DRV_CFG Fd.DRV_CFG_HEALTH_FAIL = true) v) ∧
    (∃ (s : State) (b : Fin 128) (w : BitVec 8) (temp : Fin 65536) (u : _) (v : _), u = (s.updBay b fun x => { x with warning := w.toNat, temp := temp, tempTick := some s.now }) ∧ v = u.raise Ev.DRV_HEALTH b w.toNat temp ∧ s.fwRuns = true ∧ s.online b = true ∧ ¬ (w.toNat ≠ (s.bay b).warning ∧ (natBit w.toNat 0 || natBit w.toNat 1 || natBit w.toNat 4) = true) ∧ (fun (v : State) => (natBit w.toNat 2 || natBit w.toNat 3) = true ∧ v.flag Reg.DRV_CFG Fd.DRV_CFG_HEALTH_FAIL = true) u) ∧
    (∃ (s : State) (b : Fin 128) (w : BitVec 8) (temp : Fin 65536) (u : _) (v : _), u = (s.updBay b fun x => { x with warning := w.toNat, temp := temp, tempTick := some s.now }) ∧ v = u.raise Ev.DRV_HEALTH b w.toNat temp ∧ s.fwRuns = true ∧ s.online b = true ∧ ¬ (w.toNat ≠ (s.bay b).warning ∧ (natBit w.toNat 0 || natBit w.toNat 1 || natBit w.toNat 4) = true) ∧ ¬ (fun (v : State) => (natBit w.toNat 2 || natBit w.toNat 3) = true ∧ v.flag Reg.DRV_CFG Fd.DRV_CFG_HEALTH_FAIL = true) u) ∧
    (∃ (s : State) (b : Fin 128) (w : BitVec 8) (temp : Fin 65536) (u : _) (v : _), u = (s.updBay b fun x => { x with warning := w.toNat, temp := temp, tempTick := some s.now }) ∧ v = u.raise Ev.DRV_HEALTH b w.toNat temp ∧ s.fwRuns = true ∧ s.online b = false ∧ s.flag (Reg.DRV_BAY_CFG b) Fd.DRV_BAY_CFG_SMBUS_EN = true) ∧
    (∃ (s : State) (b : Fin 128) (w : BitVec 8) (temp : Fin 65536) (u : _) (v : _), u = (s.updBay b fun x => { x with warning := w.toNat, temp := temp, tempTick := some s.now }) ∧ v = u.raise Ev.DRV_HEALTH b w.toNat temp ∧ (s.fwRuns = false ∨ (s.online b = false ∧ s.flag (Reg.DRV_BAY_CFG b) Fd.DRV_BAY_CFG_SMBUS_EN = false))) :=
  ⟨⟨bayS dbOnline (bayX 10), 127, 0xFFFFFFFFFFFFF, true, [], 0, _, _, rfl, rfl, by decide +kernel⟩,
   ⟨bayS dbOnline (bayX 10), 127, 6, false, by decide +kernel⟩,
   ⟨bayS dbOnline (bayX 10), 127, 5, false, by decide +kernel⟩,
   ⟨bayS dbOnline { bayX 10 with contained := some 0 }, 127, 5, false, by decide +kernel⟩,
   ⟨bayS dbOnline (bayX 10), 127, 0, false, by decide +kernel⟩,
   ⟨bayS dbRecovering { bayX 10 with contained := some 0 }, 127, by decide +kernel⟩,
   ⟨onS, 127, by decide +kernel⟩,
   ⟨bayS dbRecovering { bayX 10 with recStart := 0 }, 127, by decide +kernel⟩,
   ⟨onS, 127, by decide +kernel⟩,
   ⟨healthS 1, 127, 9, 0, _, _, rfl, rfl, by decide +kernel⟩,
   ⟨healthS 0, 127, 31, 0, _, _, rfl, rfl, by decide +kernel⟩,
   ⟨healthS 1, 127, 8, 0, _, _, rfl, rfl, by decide +kernel⟩,
   ⟨healthS 0, 127, 0, 65535, _, _, rfl, rfl, by decide +kernel⟩,
   ⟨onS.setFld (Reg.DRV_BAY_CFG 127) Fd.DRV_BAY_CFG_SMBUS_EN 1, 127, 8, 0, _, _, rfl, rfl, by decide +kernel⟩,
   ⟨onS.setFld (Reg.DRV_BAY_CFG 127) Fd.DRV_BAY_CFG_SMBUS_EN 0, 127, 8, 0, _, _, rfl, rfl, by decide +kernel⟩⟩

/-- The peer drives the bays. -/
def noDrives (s : State) : State := { s with straps := { s.straps with pairEn := true }, pair := { s.pair with st := pairIdle } }

theorem witness_BayPowerIsEvaluated_1 :
    (∃ (s : State) (b : Fin 128), (s.pwSt b = bayInrush ∧ s.drives = true ∧ s.inrushMax b ≤ (s.pw b).timer + 1)) ∧
    (∃ (s : State) (b : Fin 128), ¬ (s.pwSt b = bayInrush ∧ s.drives = true ∧ s.inrushMax b ≤ (s.pw b).timer + 1)) ∧
    (∃ (s : State) (b : Fin 128), (s.pwBit b Fd.BAY_STATUS_PRS_RAW ≠ s.bayPresent b ∧ 12500 ≤ (s.pw b).debounce + 1) ∧ s.drives = true) ∧
    (∃ (s : State) (b : Fin 128), (s.pwBit b Fd.BAY_STATUS_PRS_RAW ≠ s.bayPresent b ∧ 12500 ≤ (s.pw b).debounce + 1) ∧ s.drives = false) ∧
    (∃ (s : State) (b : Fin 128), ¬ (s.pwBit b Fd.BAY_STATUS_PRS_RAW ≠ s.bayPresent b ∧ 12500 ≤ (s.pw b).debounce + 1)) ∧
    (∃ (s : State) (b : Fin 128), (s.pwSt b = bayRetry ∧ (s.pw b).delay ≤ 1 ∧ s.drives = true)) ∧
    (∃ (s : State) (b : Fin 128), ¬ (s.pwSt b = bayRetry ∧ (s.pw b).delay ≤ 1 ∧ s.drives = true)) ∧
    (∃ (s : State) (b : Fin 128), (s.bayPg b = true ∧ 1250000 ≤ (s.pw b).pgAge + 1 ∧ s.drives = true)) ∧
    (∃ (s : State) (b : Fin 128), ¬ (s.bayPg b = true ∧ 1250000 ≤ (s.pw b).pgAge + 1 ∧ s.drives = true)) ∧
    (∃ (s : State) (b : Fin 128) (n : _) (e : _), n ≤ 1 ∧ (s.pw b).cycle = some (n, e)) ∧
    (∃ (s : State) (b : Fin 128), (∀ n e, (s.pw b).cycle = some (n, e) → 1 < n)) ∧
    (∃ (s : State) (u : State) (d : Desc) (b : _) (op : _) (bays : _), u = s.start d ∧ b = d.handle % 128 ∧ op = d.f 8 1 ∧ bays = ((if u.fld Reg.DRV_CFG Fd.DRV_CFG_MODE = 0 then 64 else 128)) ∧ s.Takes Op.BAY_POWER d ∧ (d.handle < 128 ∧ d.reservedZero [(8, 1), (10, 2), (12, 1), (13, 1)] = true ∧ op ≤ 4 ∧ (op = 2 → 100 ≤ d.f 10 2 ∧ d.f 10 2 ≤ 60000) ∧ (op ≠ 2 → d.f 10 2 = 0) ∧ (op = 4 → d.f 12 1 ≤ 3 ∧ d.f 13 1 ≤ 3) ∧ (op ≠ 4 → d.f 12 2 = 0)) ∧ (b < bays ∧ op = 4 ∧ u.flag (Reg.DRV_BAY_CFG b) Fd.DRV_BAY_CFG_SMBUS_EN = true)) :=
  ⟨⟨pwS bayInrush { BayPw.reset with timer := 6255 }, 127, by decide +kernel⟩,
   ⟨onS, 127, by decide +kernel⟩,
   ⟨(pwS bayOff { BayPw.reset with debounce := 12499 }).setPwBit 127 Fd.BAY_STATUS_PRS_RAW true, 127, by decide +kernel⟩,
   ⟨noDrives ((pwS bayOff { BayPw.reset with debounce := 12499 }).setPwBit 127 Fd.BAY_STATUS_PRS_RAW true), 127, by decide +kernel⟩,
   ⟨onS, 127, by decide +kernel⟩,
   ⟨pwS bayRetry { BayPw.reset with delay := 1 }, 127, by decide +kernel⟩,
   ⟨onS, 127, by decide +kernel⟩,
   ⟨(pwS bayOn { BayPw.reset with pgAge := 1249999 }).setPwBit 127 Fd.BAY_STATUS_PG true, 127, by decide +kernel⟩,
   ⟨onS, 127, by decide +kernel⟩,
   ⟨pwS bayOff { BayPw.reset with cycle := some (1, none) }, 127, 1, none, by decide +kernel⟩,
   ⟨onS, 127, fun n e h => nomatch (show (none : Option (Nat × Option Desc)) = some (n, e) from h)⟩,
   ⟨withD (onS.setFld (Reg.DRV_BAY_CFG 63) Fd.DRV_BAY_CFG_SMBUS_EN 1) (cmdD Op.BAY_POWER 63 [(8, 1, 4), (12, 1, 3), (13, 1, 3)]), _, (cmdD Op.BAY_POWER 63 [(8, 1, 4), (12, 1, 3), (13, 1, 3)]), _, _, _, rfl, rfl, rfl, rfl, takes_of (by decide +kernel), by decide +kernel⟩⟩

theorem witness_BayPowerIsEvaluated_2 :
    (∃ (s : State) (u : State) (d : Desc) (b : _) (op : _) (bays : _), u = s.start d ∧ b = d.handle % 128 ∧ op = d.f 8 1 ∧ bays = ((if u.fld Reg.DRV_CFG Fd.DRV_CFG_MODE = 0 then 64 else 128)) ∧ s.Takes Op.BAY_POWER d ∧ ¬ (d.handle < 128 ∧ d.reservedZero [(8, 1), (10, 2), (12, 1), (13, 1)] = true ∧ op ≤ 4 ∧ (op = 2 → 100 ≤ d.f 10 2 ∧ d.f 10 2 ≤ 60000) ∧ (op ≠ 2 → d.f 10 2 = 0) ∧ (op = 4 → d.f 12 1 ≤ 3 ∧ d.f 13 1 ≤ 3) ∧ (op ≠ 4 → d.f 12 2 = 0))) ∧
    (∃ (s : State) (u : State) (d : Desc) (b : _) (op : _) (bays : _), u = s.start d ∧ b = d.handle % 128 ∧ op = d.f 8 1 ∧ bays = ((if u.fld Reg.DRV_CFG Fd.DRV_CFG_MODE = 0 then 64 else 128)) ∧ s.Takes Op.BAY_POWER d ∧ (d.handle < 128 ∧ d.reservedZero [(8, 1), (10, 2), (12, 1), (13, 1)] = true ∧ op ≤ 4 ∧ (op = 2 → 100 ≤ d.f 10 2 ∧ d.f 10 2 ≤ 60000) ∧ (op ≠ 2 → d.f 10 2 = 0) ∧ (op = 4 → d.f 12 1 ≤ 3 ∧ d.f 13 1 ≤ 3) ∧ (op ≠ 4 → d.f 12 2 = 0)) ∧ bays ≤ b) ∧
    (∃ (s : State) (u : State) (d : Desc) (b : _) (op : _) (bays : _), u = s.start d ∧ b = d.handle % 128 ∧ op = d.f 8 1 ∧ bays = ((if u.fld Reg.DRV_CFG Fd.DRV_CFG_MODE = 0 then 64 else 128)) ∧ s.Takes Op.BAY_POWER d ∧ (d.handle < 128 ∧ d.reservedZero [(8, 1), (10, 2), (12, 1), (13, 1)] = true ∧ op ≤ 4 ∧ (op = 2 → 100 ≤ d.f 10 2 ∧ d.f 10 2 ≤ 60000) ∧ (op ≠ 2 → d.f 10 2 = 0) ∧ (op = 4 → d.f 12 1 ≤ 3 ∧ d.f 13 1 ≤ 3) ∧ (op ≠ 4 → d.f 12 2 = 0)) ∧ b < bays ∧ ¬ (b < bays ∧ op = 4 ∧ u.flag (Reg.DRV_BAY_CFG b) Fd.DRV_BAY_CFG_SMBUS_EN = true) ∧ (op = 1 ∨ op = 2) ∧ u.curveValid b = false) ∧
    (∃ (s : State) (u : State) (d : Desc) (b : _) (op : _) (bays : _), u = s.start d ∧ b = d.handle % 128 ∧ op = d.f 8 1 ∧ bays = ((if u.fld Reg.DRV_CFG Fd.DRV_CFG_MODE = 0 then 64 else 128)) ∧ s.Takes Op.BAY_POWER d ∧ (d.handle < 128 ∧ d.reservedZero [(8, 1), (10, 2), (12, 1), (13, 1)] = true ∧ op ≤ 4 ∧ (op = 2 → 100 ≤ d.f 10 2 ∧ d.f 10 2 ≤ 60000) ∧ (op ≠ 2 → d.f 10 2 = 0) ∧ (op = 4 → d.f 12 1 ≤ 3 ∧ d.f 13 1 ≤ 3) ∧ (op ≠ 4 → d.f 12 2 = 0)) ∧ b < bays ∧ ¬ (b < bays ∧ op = 4 ∧ u.flag (Reg.DRV_BAY_CFG b) Fd.DRV_BAY_CFG_SMBUS_EN = true) ∧ (op = 1 ∨ op = 2) ∧ u.curveValid b = true ∧ u.pwSt b = bayDamaged) ∧
    (∃ (s : State) (u : State) (d : Desc) (b : _) (op : _) (bays : _), u = s.start d ∧ b = d.handle % 128 ∧ op = d.f 8 1 ∧ bays = ((if u.fld Reg.DRV_CFG Fd.DRV_CFG_MODE = 0 then 64 else 128)) ∧ s.Takes Op.BAY_POWER d ∧ (d.handle < 128 ∧ d.reservedZero [(8, 1), (10, 2), (12, 1), (13, 1)] = true ∧ op ≤ 4 ∧ (op = 2 → 100 ≤ d.f 10 2 ∧ d.f 10 2 ≤ 60000) ∧ (op ≠ 2 → d.f 10 2 = 0) ∧ (op = 4 → d.f 12 1 ≤ 3 ∧ d.f 13 1 ≤ 3) ∧ (op ≠ 4 → d.f 12 2 = 0)) ∧ b < bays ∧ ¬ (b < bays ∧ op = 4 ∧ u.flag (Reg.DRV_BAY_CFG b) Fd.DRV_BAY_CFG_SMBUS_EN = true) ∧ op = 1 ∧ u.curveValid b = true ∧ u.pwSt b = bayLatched) ∧
    (∃ (s : State) (u : State) (d : Desc) (b : _) (op : _) (bays : _), u = s.start d ∧ b = d.handle % 128 ∧ op = d.f 8 1 ∧ bays = ((if u.fld Reg.DRV_CFG Fd.DRV_CFG_MODE = 0 then 64 else 128)) ∧ s.Takes Op.BAY_POWER d ∧ (d.handle < 128 ∧ d.reservedZero [(8, 1), (10, 2), (12, 1), (13, 1)] = true ∧ op ≤ 4 ∧ (op = 2 → 100 ≤ d.f 10 2 ∧ d.f 10 2 ≤ 60000) ∧ (op ≠ 2 → d.f 10 2 = 0) ∧ (op = 4 → d.f 12 1 ≤ 3 ∧ d.f 13 1 ≤ 3) ∧ (op ≠ 4 → d.f 12 2 = 0)) ∧ b < bays ∧ ¬ (b < bays ∧ op = 4 ∧ u.flag (Reg.DRV_BAY_CFG b) Fd.DRV_BAY_CFG_SMBUS_EN = true) ∧ op = 1 ∧ u.curveValid b = true ∧ u.pwSt b ≠ bayDamaged ∧ u.pwSt b ≠ bayLatched ∧ u.bayPresent b = false) ∧
    (∃ (s : State) (u : State) (d : Desc) (b : _) (op : _) (bays : _), u = s.start d ∧ b = d.handle % 128 ∧ op = d.f 8 1 ∧ bays = ((if u.fld Reg.DRV_CFG Fd.DRV_CFG_MODE = 0 then 64 else 128)) ∧ s.Takes Op.BAY_POWER d ∧ (d.handle < 128 ∧ d.reservedZero [(8, 1), (10, 2), (12, 1), (13, 1)] = true ∧ op ≤ 4 ∧ (op = 2 → 100 ≤ d.f 10 2 ∧ d.f 10 2 ≤ 60000) ∧ (op ≠ 2 → d.f 10 2 = 0) ∧ (op = 4 → d.f 12 1 ≤ 3 ∧ d.f 13 1 ≤ 3) ∧ (op ≠ 4 → d.f 12 2 = 0)) ∧ b < bays ∧ ¬ (b < bays ∧ op = 4 ∧ u.flag (Reg.DRV_BAY_CFG b) Fd.DRV_BAY_CFG_SMBUS_EN = true) ∧ op = 1 ∧ u.curveValid b = true ∧ u.pwSt b ≠ bayDamaged ∧ u.pwSt b ≠ bayLatched ∧ u.bayPresent b = true) ∧
    (∃ (s : State) (u : State) (d : Desc) (b : _) (op : _) (bays : _), u = s.start d ∧ b = d.handle % 128 ∧ op = d.f 8 1 ∧ bays = ((if u.fld Reg.DRV_CFG Fd.DRV_CFG_MODE = 0 then 64 else 128)) ∧ s.Takes Op.BAY_POWER d ∧ (d.handle < 128 ∧ d.reservedZero [(8, 1), (10, 2), (12, 1), (13, 1)] = true ∧ op ≤ 4 ∧ (op = 2 → 100 ≤ d.f 10 2 ∧ d.f 10 2 ≤ 60000) ∧ (op ≠ 2 → d.f 10 2 = 0) ∧ (op = 4 → d.f 12 1 ≤ 3 ∧ d.f 13 1 ≤ 3) ∧ (op ≠ 4 → d.f 12 2 = 0)) ∧ b < bays ∧ ¬ (b < bays ∧ op = 4 ∧ u.flag (Reg.DRV_BAY_CFG b) Fd.DRV_BAY_CFG_SMBUS_EN = true) ∧ op = 2 ∧ u.curveValid b = true ∧ u.pwSt b ≠ bayDamaged) ∧
    (∃ (s : State) (u : State) (d : Desc) (b : _) (op : _) (bays : _), u = s.start d ∧ b = d.handle % 128 ∧ op = d.f 8 1 ∧ bays = ((if u.fld Reg.DRV_CFG Fd.DRV_CFG_MODE = 0 then 64 else 128)) ∧ s.Takes Op.BAY_POWER d ∧ (d.handle < 128 ∧ d.reservedZero [(8, 1), (10, 2), (12, 1), (13, 1)] = true ∧ op ≤ 4 ∧ (op = 2 → 100 ≤ d.f 10 2 ∧ d.f 10 2 ≤ 60000) ∧ (op ≠ 2 → d.f 10 2 = 0) ∧ (op = 4 → d.f 12 1 ≤ 3 ∧ d.f 13 1 ≤ 3) ∧ (op ≠ 4 → d.f 12 2 = 0)) ∧ b < bays ∧ ¬ (b < bays ∧ op = 4 ∧ u.flag (Reg.DRV_BAY_CFG b) Fd.DRV_BAY_CFG_SMBUS_EN = true) ∧ op = 3 ∧ u.pwSt b ≠ bayDamaged ∧ u.pwSt b ≠ bayLatched) ∧
    (∃ (s : State) (u : State) (d : Desc) (b : _) (op : _) (bays : _), u = s.start d ∧ b = d.handle % 128 ∧ op = d.f 8 1 ∧ bays = ((if u.fld Reg.DRV_CFG Fd.DRV_CFG_MODE = 0 then 64 else 128)) ∧ s.Takes Op.BAY_POWER d ∧ (d.handle < 128 ∧ d.reservedZero [(8, 1), (10, 2), (12, 1), (13, 1)] = true ∧ op ≤ 4 ∧ (op = 2 → 100 ≤ d.f 10 2 ∧ d.f 10 2 ≤ 60000) ∧ (op ≠ 2 → d.f 10 2 = 0) ∧ (op = 4 → d.f 12 1 ≤ 3 ∧ d.f 13 1 ≤ 3) ∧ (op ≠ 4 → d.f 12 2 = 0)) ∧ b < bays ∧ ¬ (b < bays ∧ op = 4 ∧ u.flag (Reg.DRV_BAY_CFG b) Fd.DRV_BAY_CFG_SMBUS_EN = true) ∧ op = 3 ∧ (u.pwSt b = bayDamaged ∨ u.pwSt b = bayLatched)) ∧
    (∃ (s : State) (u : State) (d : Desc) (b : _) (op : _) (bays : _), u = s.start d ∧ b = d.handle % 128 ∧ op = d.f 8 1 ∧ bays = ((if u.fld Reg.DRV_CFG Fd.DRV_CFG_MODE = 0 then 64 else 128)) ∧ s.Takes Op.BAY_POWER d ∧ (d.handle < 128 ∧ d.reservedZero [(8, 1), (10, 2), (12, 1), (13, 1)] = true ∧ op ≤ 4 ∧ (op = 2 → 100 ≤ d.f 10 2 ∧ d.f 10 2 ≤ 60000) ∧ (op ≠ 2 → d.f 10 2 = 0) ∧ (op = 4 → d.f 12 1 ≤ 3 ∧ d.f 13 1 ≤ 3) ∧ (op ≠ 4 → d.f 12 2 = 0)) ∧ b < bays ∧ ¬ (b < bays ∧ op = 4 ∧ u.flag (Reg.DRV_BAY_CFG b) Fd.DRV_BAY_CFG_SMBUS_EN = true) ∧ (op = 0 ∨ op = 4)) :=
  ⟨⟨withD onS (cmdD Op.BAY_POWER 63 [(8, 1, 5)]), _, (cmdD Op.BAY_POWER 63 [(8, 1, 5)]), _, _, _, rfl, rfl, rfl, rfl, takes_of (by decide +kernel), by decide +kernel⟩,
   ⟨withD onS (cmdD Op.BAY_POWER 64 [(8, 1, 1)]), _, (cmdD Op.BAY_POWER 64 [(8, 1, 1)]), _, _, _, rfl, rfl, rfl, rfl, takes_of (by decide +kernel), by decide +kernel⟩,
   ⟨withD onS (cmdD Op.BAY_POWER 63 [(8, 1, 2), (10, 2, 100)]), _, (cmdD Op.BAY_POWER 63 [(8, 1, 2), (10, 2, 100)]), _, _, _, rfl, rfl, rfl, rfl, takes_of (by decide +kernel), by decide +kernel⟩,
   ⟨withD (mode1S.setPwSt 127 bayDamaged) (cmdD Op.BAY_POWER 127 [(8, 1, 1)]), _, (cmdD Op.BAY_POWER 127 [(8, 1, 1)]), _, _, _, rfl, rfl, rfl, rfl, takes_of (by decide +kernel), by decide +kernel⟩,
   ⟨withD (mode1S.setPwSt 127 bayLatched) (cmdD Op.BAY_POWER 127 [(8, 1, 1)]), _, (cmdD Op.BAY_POWER 127 [(8, 1, 1)]), _, _, _, rfl, rfl, rfl, rfl, takes_of (by decide +kernel), by decide +kernel⟩,
   ⟨withD mode1S (cmdD Op.BAY_POWER 127 [(8, 1, 1)]), _, (cmdD Op.BAY_POWER 127 [(8, 1, 1)]), _, _, _, rfl, rfl, rfl, rfl, takes_of (by decide +kernel), by decide +kernel⟩,
   ⟨withD (mode1S.setPwBit 127 Fd.BAY_STATUS_PRESENT true) (cmdD Op.BAY_POWER 127 [(8, 1, 1)]), _, (cmdD Op.BAY_POWER 127 [(8, 1, 1)]), _, _, _, rfl, rfl, rfl, rfl, takes_of (by decide +kernel), by decide +kernel⟩,
   ⟨withD mode1S (cmdD Op.BAY_POWER 127 [(8, 1, 2), (10, 2, 60000)]), _, (cmdD Op.BAY_POWER 127 [(8, 1, 2), (10, 2, 60000)]), _, _, _, rfl, rfl, rfl, rfl, takes_of (by decide +kernel), by decide +kernel⟩,
   ⟨withD onS (cmdD Op.BAY_POWER 63 [(8, 1, 3)]), _, (cmdD Op.BAY_POWER 63 [(8, 1, 3)]), _, _, _, rfl, rfl, rfl, rfl, takes_of (by decide +kernel), by decide +kernel⟩,
   ⟨withD (onS.setPwSt 63 bayLatched) (cmdD Op.BAY_POWER 63 [(8, 1, 3)]), _, (cmdD Op.BAY_POWER 63 [(8, 1, 3)]), _, _, _, rfl, rfl, rfl, rfl, takes_of (by decide +kernel), by decide +kernel⟩,
   ⟨withD onS (cmdD Op.BAY_POWER 63 []), _, (cmdD Op.BAY_POWER 63 []), _, _, _, rfl, rfl, rfl, rfl, takes_of (by decide +kernel), by decide +kernel⟩⟩

/-- Core 3 is down; the sequencer has stopped after a dump. -/
def coreDown : State := { onS with mgt := { onS.mgt with core3Down := true } }
def stoppedS : State := { onS with itn := { onS.itn with stopped := true } }

theorem witness_TheShelfIsKept_1 :
    (∃ (s : State) (vbus : Fin 4096) (hold : Fin 4096) (bays : List BaySample) (a : _) (u : _) (x : _), a = s.setFld Reg.ENV_VBUS Fd.ENV_VBUS_VBUS (min 0xFFFF (vbus * s.fld1 Reg.ENV_SENSE Fd.ENV_SENSE_VBUS_GAIN / 64)) ∧ u = a.setFld Reg.ENV_HOLD_STATUS Fd.ENV_HOLD_STATUS_V (min 0xFFFF (hold * a.fld1 Reg.ENV_SENSE Fd.ENV_SENSE_HOLD_GAIN / 64)) ∧ u.env.dump = some x ∧ (fun (x : Dump) => x.phase < 3 ∧ u.fld Reg.ENV_HOLD_STATUS Fd.ENV_HOLD_STATUS_V < u.fld Reg.ENV_HOLD_V Fd.ENV_HOLD_V_V_MIN) x) ∧
    (∃ (s : State) (vbus : Fin 4096) (hold : Fin 4096) (bays : List BaySample) (a : _) (u : _), a = s.setFld Reg.ENV_VBUS Fd.ENV_VBUS_VBUS (min 0xFFFF (vbus * s.fld1 Reg.ENV_SENSE Fd.ENV_SENSE_VBUS_GAIN / 64)) ∧ u = a.setFld Reg.ENV_HOLD_STATUS Fd.ENV_HOLD_STATUS_V (min 0xFFFF (hold * a.fld1 Reg.ENV_SENSE Fd.ENV_SENSE_HOLD_GAIN / 64)) ∧ (∀ x, u.env.dump = some x → ¬ (fun (x : Dump) => x.phase < 3 ∧ u.fld Reg.ENV_HOLD_STATUS Fd.ENV_HOLD_STATUS_V < u.fld Reg.ENV_HOLD_V Fd.ENV_HOLD_V_V_MIN) x)) ∧
    (∃ (s : State) (x : EnvSample) (a : _) (b : _) (c : _) (d : _), a = (List.range 8).foldl (fun (s : State) i => s.thermStep i (x.therms.getD i 0)) s.setNow ∧ b = a.setFld Reg.ENV_TEMPS Fd.ENV_TEMPS_DIE (toI16 x.die) ∧ c = (match maxInt (b.validTherms.map b.thermT) with | some t => b.setFld Reg.ENV_TEMPS Fd.ENV_TEMPS_SHELF (toI16 t) | none => b) ∧ d = (c.validDrives.foldl (fun (s : State) k => s.sense (0x100 + k) (s.driveT k)) c).sense 0x200 (ofI16 (toI16 x.die)) ∧ s.mgt.core3Down = false) ∧
    (∃ (s : State) (x : EnvSample) (a : _) (b : _) (c : _) (d : _), a = (List.range 8).foldl (fun (s : State) i => s.thermStep i (x.therms.getD i 0)) s.setNow ∧ b = a.setFld Reg.ENV_TEMPS Fd.ENV_TEMPS_DIE (toI16 x.die) ∧ c = (match maxInt (b.validTherms.map b.thermT) with | some t => b.setFld Reg.ENV_TEMPS Fd.ENV_TEMPS_SHELF (toI16 t) | none => b) ∧ d = (c.validDrives.foldl (fun (s : State) k => s.sense (0x100 + k) (s.driveT k)) c).sense 0x200 (ofI16 (toI16 x.die)) ∧ s.mgt.core3Down = true) ∧
    (∃ (s : State) (f : Fin 12), (s.flag (Reg.ENV_FAN_CFG f) Fd.ENV_FAN_CFG_PRESENT = true ∧ s.fanAsks f = true ∧ 30 ≤ s.fanRun f + 1) ∧ s.fanFailed f = false) ∧
    (∃ (s : State) (f : Fin 12), (s.flag (Reg.ENV_FAN_CFG f) Fd.ENV_FAN_CFG_PRESENT = true ∧ s.fanAsks f = true ∧ 30 ≤ s.fanRun f + 1) ∧ s.fanFailed f = true) ∧
    (∃ (s : State) (f : Fin 12), (¬ (s.flag (Reg.ENV_FAN_CFG f) Fd.ENV_FAN_CFG_PRESENT = true ∧ s.fanAsks f = true ∧ 30 ≤ s.fanRun f + 1) ∨ s.fanFailed f = true)) ∧
    (∃ (s : State) (f : Fin 12), (¬ (s.flag (Reg.ENV_FAN_CFG f) Fd.ENV_FAN_CFG_PRESENT = true ∧ s.fanAsks f = true ∧ 30 ≤ s.fanRun f + 1) ∨ s.fanFailed f = false)) ∧
    (∃ (s : State), ((∃ t, s.env.chargeTick = some t ∧ s.msSince t (1000 * s.fld1 Reg.ENV_HOLD_CHG Fd.ENV_HOLD_CHG_CHG_TIMEOUT) = true) ∧ s.fld Reg.ENV_HOLD_STATUS Fd.ENV_HOLD_STATUS_V < s.fld Reg.ENV_HOLD_V Fd.ENV_HOLD_V_V_OFF)) ∧
    (∃ (s : State), ¬ ((∃ t, s.env.chargeTick = some t ∧ s.msSince t (1000 * s.fld1 Reg.ENV_HOLD_CHG Fd.ENV_HOLD_CHG_CHG_TIMEOUT) = true) ∧ s.fld Reg.ENV_HOLD_STATUS Fd.ENV_HOLD_STATUS_V < s.fld Reg.ENV_HOLD_V Fd.ENV_HOLD_V_V_OFF)) ∧
    (∃ (s : State) (w : Word), s.mgtReady = true ∧ s.holdFault = true ∧ Fd.ENV_HOLD_STATUS_FAULT.get w = 1) ∧
    (∃ (s : State) (w : Word), s.mgtReady = true ∧ (s.holdFault = false ∨ Fd.ENV_HOLD_STATUS_FAULT.get w ≠ 1)) ∧
    (∃ (s : State) (w : Word), s.mgtReady = false) :=
  ⟨⟨dumpS (dumpX 0 []), 0, 0, [], _, _, dumpX 0 [], rfl, rfl, by decide +kernel⟩,
   ⟨onS, 4095, 4095, [], _, _, rfl, rfl, none_all (by decide +kernel)⟩,
   ⟨onS, { therms := [], die := 0, pulses := [] }, _, _, _, _, rfl, rfl, rfl, rfl, by decide +kernel⟩,
   ⟨coreDown, { therms := [], die := 0, pulses := [] }, _, _, _, _, rfl, rfl, rfl, rfl, by decide +kernel⟩,
   ⟨fanS false 999, 11, by decide +kernel⟩,
   ⟨fanS true 1000, 11, by decide +kernel⟩,
   ⟨onS, 11, by decide +kernel⟩,
   ⟨onS, 11, by decide +kernel⟩,
   ⟨envS { Env.reset with chargeTick := some 0 }, ⟨⟨0, by decide +kernel, by decide +kernel⟩, by decide +kernel⟩⟩,
   ⟨onS, fun h => nomatch h.1.choose_spec.1⟩,
   ⟨onS.setFld Reg.ENV_HOLD_STATUS Fd.ENV_HOLD_STATUS_FAULT 1, Fd.ENV_HOLD_STATUS_FAULT.put 0 1, by decide +kernel⟩,
   ⟨onS, 0, by decide +kernel⟩,
   ⟨State.reset, 0, by decide +kernel⟩⟩

theorem witness_TheShelfIsKept_2 :
    (∃ (s : State) (a : State) (b : _), a = { s with env := { s.env with low := true, highTick := none } } ∧ b = a.setFld Reg.ENV_HOLD_STATUS Fd.ENV_HOLD_STATUS_PF 1 ∧ (s.itn.dumpDue = 0 ∧ s.itn.stopped = false) ∧ s.critFor 99 = true ∧ s.drives = true) ∧
    (∃ (s : State) (a : State) (b : _), a = { s with env := { s.env with low := true, highTick := none } } ∧ b = a.setFld Reg.ENV_HOLD_STATUS Fd.ENV_HOLD_STATUS_PF 1 ∧ (¬ (s.itn.dumpDue = 0 ∧ s.itn.stopped = false) ∨ s.critFor 99 = false ∨ s.drives = false)) ∧
    (∃ (s : State) (a : State) (b : _), a = { s with env := { s.env with low := true, highTick := none } } ∧ b = a.setFld Reg.ENV_HOLD_STATUS Fd.ENV_HOLD_STATUS_PF 1 ∧ ¬ (s.itn.dumpDue = 0 ∧ s.itn.stopped = false)) ∧
    (∃ (s : State), (s.msSince s.env.dutyTick 1000 = true ∧ s.env.stalled = false ∧ s.drives = true)) ∧
    (∃ (s : State), ¬ (s.msSince s.env.dutyTick 1000 = true ∧ s.env.stalled = false ∧ s.drives = true)) ∧
    (∃ (s : State), s.env.low = true) ∧
    (∃ (s : State), s.env.low = false) ∧
    (∃ (s : State) (u : State) (d : Desc) (op : _) (duty : _), u = s.start d ∧ op = d.f 8 1 ∧ duty = d.f 10 2 ∧ s.Takes Op.ENV_SET d ∧ ¬ (d.handle = 0 ∧ d.reservedZero [(8, 1), (10, 2)] = true ∧ op ≤ 2 ∧ duty ≤ 1024 ∧ (op ≠ 1 → duty = 0))) ∧
    (∃ (s : State) (u : State) (d : Desc) (op : _) (duty : _), u = s.start d ∧ op = d.f 8 1 ∧ duty = d.f 10 2 ∧ s.Takes Op.ENV_SET d ∧ (d.handle = 0 ∧ d.reservedZero [(8, 1), (10, 2)] = true ∧ op ≤ 2 ∧ duty ≤ 1024 ∧ (op ≠ 1 → duty = 0)) ∧ op = 0) ∧
    (∃ (s : State) (u : State) (d : Desc) (op : _) (duty : _), u = s.start d ∧ op = d.f 8 1 ∧ duty = d.f 10 2 ∧ s.Takes Op.ENV_SET d ∧ (d.handle = 0 ∧ d.reservedZero [(8, 1), (10, 2)] = true ∧ op ≤ 2 ∧ duty ≤ 1024 ∧ (op ≠ 1 → duty = 0)) ∧ op = 1) ∧
    (∃ (s : State) (u : State) (d : Desc) (op : _) (duty : _), u = s.start d ∧ op = d.f 8 1 ∧ duty = d.f 10 2 ∧ s.Takes Op.ENV_SET d ∧ (d.handle = 0 ∧ d.reservedZero [(8, 1), (10, 2)] = true ∧ op ≤ 2 ∧ duty ≤ 1024 ∧ (op ≠ 1 → duty = 0)) ∧ op = 2 ∧ (u.itn.dumpDue ≠ 0 ∨ u.itn.stopped = true)) ∧
    (∃ (s : State) (u : State) (d : Desc) (op : _) (duty : _), u = s.start d ∧ op = d.f 8 1 ∧ duty = d.f 10 2 ∧ s.Takes Op.ENV_SET d ∧ (d.handle = 0 ∧ d.reservedZero [(8, 1), (10, 2)] = true ∧ op ≤ 2 ∧ duty ≤ 1024 ∧ (op ≠ 1 → duty = 0)) ∧ op = 2 ∧ ¬ (u.itn.dumpDue ≠ 0 ∨ u.itn.stopped = true)) :=
  ⟨⟨envS { Env.reset with levels := [(0x200, { level := 0, crit := 99 })] }, _, _, rfl, rfl, by decide +kernel⟩,
   ⟨onS, _, _, rfl, rfl, by decide +kernel⟩,
   ⟨stoppedS, _, _, rfl, rfl, by decide +kernel⟩,
   ⟨envS Env.reset, by decide +kernel⟩,
   ⟨onS, by decide +kernel⟩,
   ⟨envS { Env.reset with low := true }, by decide +kernel⟩,
   ⟨onS, by decide +kernel⟩,
   ⟨withD onS (cmdD Op.ENV_SET 0 [(8, 1, 3)]), _, (cmdD Op.ENV_SET 0 [(8, 1, 3)]), _, _, rfl, rfl, rfl, takes_of (by decide +kernel), by decide +kernel⟩,
   ⟨withD onS (cmdD Op.ENV_SET 0 []), _, (cmdD Op.ENV_SET 0 []), _, _, rfl, rfl, rfl, takes_of (by decide +kernel), by decide +kernel⟩,
   ⟨withD onS (cmdD Op.ENV_SET 0 [(8, 1, 1), (10, 2, 1024)]), _, (cmdD Op.ENV_SET 0 [(8, 1, 1), (10, 2, 1024)]), _, _, rfl, rfl, rfl, takes_of (by decide +kernel), by decide +kernel⟩,
   ⟨withD stoppedS (cmdD Op.ENV_SET 0 [(8, 1, 2)]), _, (cmdD Op.ENV_SET 0 [(8, 1, 2)]), _, _, rfl, rfl, rfl, takes_of (by decide +kernel), by decide +kernel⟩,
   ⟨withD onS (cmdD Op.ENV_SET 0 [(8, 1, 2)]), _, (cmdD Op.ENV_SET 0 [(8, 1, 2)]), _, _, rfl, rfl, rfl, takes_of (by decide +kernel), by decide +kernel⟩⟩

/-- A command whose drive command is out. -/
def outW : State :=
  let s := wbS readX Rt.drvReap 1
  { s with drv := { s.drv with cmds := [(9, some drvC)] } }

theorem witness_TheDumpIsWritten_1 :
    (∃ (s : State) (u : _), u = ((s.seamEntry 3 (leBytes 1 s.itn.dumpDue)).dumpEnter).abandonAll ∧ s.atSeam = true ∧ (s.itn.dumpDue ≠ 0 ∧ s.itn.dumpPlan = false ∧ s.itn.stopped = false) ∧ u.isStandby = true) ∧
    (∃ (s : State) (u : _), u = ((s.seamEntry 3 (leBytes 1 s.itn.dumpDue)).dumpEnter).abandonAll ∧ s.atSeam = true ∧ (s.itn.dumpDue ≠ 0 ∧ s.itn.dumpPlan = false ∧ s.itn.stopped = false) ∧ u.isStandby = false) ∧
    (∃ (s : State), (s.atSeam = false ∨ ¬ (s.itn.dumpDue ≠ 0 ∧ s.itn.dumpPlan = false ∧ s.itn.stopped = false))) ∧
    (∃ (s : State) (k : Fin 12), (s.dumpsOn k = false ∨ s.env.dump = none)) ∧
    (∃ (s : State) (k : Fin 12) (x : _), s.dumpsOn k = true ∧ s.env.dump = some x ∧ (s.now < x.entered + 2 ∨ x.jobs.find? (fun j => j.ready.isNone) = none)) ∧
    (∃ (s : State) (k : Fin 12) (x : _) (j : _), s.dumpsOn k = true ∧ s.env.dump = some x ∧ x.entered + 2 ≤ s.now ∧ x.jobs.find? (fun j => j.ready.isNone) = some j) ∧
    (∃ (s : State) (k : Fin 12) (c : Fin 256), (∀ x, s.env.dump = some x → x.jobs.find? (fun (j : DumpJob) => j.cluster == k && decide (j.sent < j.units) && (match j.ready with | some t => decide (t ≤ s.now) | none => false)) = none) ∧ s.dumpsOn k = true) ∧
    (∃ (s : State) (k : Fin 12) (c : Fin 256) (x : _) (j : _), s.dumpsOn k = true ∧ s.env.dump = some x ∧ x.jobs.find? (fun (j : DumpJob) => j.cluster == k && decide (j.sent < j.units) && (match j.ready with | some t => decide (t ≤ s.now) | none => false)) = some j) ∧
    (∃ (s : State) (k : Fin 12) (c : Fin 256), s.dumpsOn k = false ∧ s.nextRun k c Rt.drvSubmit = none) ∧
    (∃ (s : State) (k : Fin 12) (c : Fin 256), s.dumpsOn k = false ∧ s.nextRun k c Rt.drvReap = none) ∧
    (∃ (s : State) (k : Fin 12) (c : Fin 256) (u : State) (it : Item) (w : Work), s.RunsWork k c Rt.drvSubmit u it w ∧ s.dumpsOn k = false) :=
  ⟨⟨atS ({ runS with itn := { runS.itn with dumpDue := 3 }, straps := { runS.straps with pairEn := true }, pair := { runS.pair with st := pairSuspect } }), _, rfl, by decide +kernel⟩,
   ⟨atS ({ runS with itn := { runS.itn with dumpDue := 3 } }), _, rfl, by decide +kernel⟩,
   ⟨onS, by decide +kernel⟩,
   ⟨onS, 11, by decide +kernel⟩,
   ⟨dumpS (dumpX 0 []), 11, dumpX 0 [], by decide +kernel⟩,
   ⟨dumpS (dumpX 0 [dumpJ none 0 0 1 0]), 11, dumpX 0 [dumpJ none 0 0 1 0], dumpJ none 0 0 1 0, by decide +kernel⟩,
   ⟨dumpS (dumpX 0 []), 11, 255, some_all (y := dumpX 0 []) (by decide +kernel) (by decide +kernel), by decide +kernel⟩,
   ⟨dumpS (dumpX 0 [dumpJ (some 10) 7 0 8 11]), 11, 255, dumpX 0 [dumpJ (some 10) 7 0 8 11], dumpJ (some 10) 7 0 8 11, by decide +kernel⟩,
   ⟨onS, 11, 255, by decide +kernel⟩,
   ⟨onS, 11, 255, by decide +kernel⟩,
   ⟨workS poolS (workW .destage []) Rt.drvSubmit 1, 0, 3, _, _, workW .destage [], runsWork_of (r := slotR 3 Rt.drvSubmit) (x := workI Rt.drvSubmit 1) (by decide +kernel), by decide +kernel⟩⟩

theorem witness_TheDumpIsWritten_2 :
    (∃ (s : State) (k : Fin 12) (c : Fin 256) (u : State) (it : Item) (w : Work), s.RunsWork k c Rt.drvReap u it w ∧ s.dumpsOn k = false) ∧
    (∃ (s : State) (k : Fin 12) (c : Fin 256) (u : State) (it : Item) (w : Nat), s.RunsWb k c Rt.drvSubmit u it w ∧ s.dumpsOn k = false) ∧
    (∃ (s : State) (k : Fin 12) (c : Fin 256) (u : State) (it : Item) (w : Nat) (v : _), v = (u.refLatched it.ref).foldl (State.reapRead w) u ∧ s.Enters k c Rt.drvReap u it ∧ s.dumpsOn k = false ∧ it.ref = .wb w ∧ (u.wb w).st ≠ .free ∧ v.refCmds it.ref ≠ []) ∧
    (∃ (s : State) (k : Fin 12) (c : Fin 256) (u : State) (it : Item) (w : Nat) (v : _), v = (u.refLatched it.ref).foldl (State.reapRead w) u ∧ s.Enters k c Rt.drvReap u it ∧ s.dumpsOn k = false ∧ it.ref = .wb w ∧ (u.wb w).st ≠ .free ∧ v.refCmds it.ref = [] ∧ ((v.wb w).cut = true ∨ (v.wb w).st = .abandoned)) ∧
    (∃ (s : State) (k : Fin 12) (c : Fin 256) (u : State) (it : Item) (w : Nat) (v : _), v = (u.refLatched it.ref).foldl (State.reapRead w) u ∧ s.Enters k c Rt.drvReap u it ∧ s.dumpsOn k = false ∧ it.ref = .wb w ∧ (u.wb w).st ≠ .free ∧ v.refCmds it.ref = [] ∧ ¬ ((v.wb w).cut = true ∨ (v.wb w).st = .abandoned)) ∧
    (∃ (s : State), (∀ x, s.env.dump = some x → x.jobs.find? (fun j => j.finished == j.units) = none)) ∧
    (∃ (s : State) (x : _) (j : _) (m : _) (t : _) (u : _) (y : _), m = s.fld Reg.ENV_DUMP_ERR Fd.ENV_DUMP_ERR_JOURNAL ∧ t = ((if j.bad = false then s.updDump fun x => if j.kind = 3 then { x with lines := x.lines + ((s.dumpLines.drop (32 * j.idx)).take 32).length } else x else if j.kind = 3 then s.satFld Reg.ENV_DUMP_ERR Fd.ENV_DUMP_ERR_CHUNKS 1 else if j.kind = 4 then s.satFld Reg.ENV_DUMP_ERR Fd.ENV_DUMP_ERR_HEADERS 1 else s.setFld Reg.ENV_DUMP_ERR Fd.ENV_DUMP_ERR_JOURNAL (setNatBit m (if x.copies.head? = some j.bay then 0 else 1) true))) ∧ u = ((t.updDump fun x => { x with jobs := x.jobs.filter (·.id != j.id) })) ∧ s.env.dump = some x ∧ x.jobs.find? (fun j => j.finished == j.units) = some j ∧ u.env.dump = some y) ∧
    (∃ (s : State), (∀ x, s.env.dump = some x → x.phase ≠ 3)) ∧
    (∃ (s : State) (x : _) (us : _) (down : _) (a : _) (b : _) (c : _) (d : State) (e : _) (f : _), us = ((s.now - x.entered) * 1024) / 1000 ∧ down = (s.itn.dumpDue == 2) ∧ a = (s.setFld Reg.ENV_DUMP_LAST Fd.ENV_DUMP_LAST_OUTCOME (if x.low then 2 else if down then 3 else 1)) ∧ b = (a.setFld Reg.ENV_DUMP_LAST Fd.ENV_DUMP_LAST_LINES (min 0xFFFFFFF x.lines)).setFld Reg.ENV_DUMP_TIME wordFld (min 0xFFFFFFFF us) ∧ c = ((b.cntEnv (if down then 2 else 1) 1).sequencerStop) ∧ d = { c with env := { c.env with dump := none, shutdown := none, critical := false, report := true } } ∧ e = d.setFld Reg.CRS_STATUS Fd.CRS_STATUS_MON_ARMED 0 ∧ f = ((if down then (e.raise Ev.ENV_SHUTDOWN_DONE x.lines us 0).doneOpt c.env.shutdown St.OK x.lines us else e)) ∧ s.env.dump = some x ∧ x.phase = 3 ∧ d.itn.dumpDue = 3) ∧
    (∃ (s : State) (x : _) (us : _) (down : _) (a : _) (b : _) (c : _) (d : State) (e : _) (f : _), us = ((s.now - x.entered) * 1024) / 1000 ∧ down = (s.itn.dumpDue == 2) ∧ a = (s.setFld Reg.ENV_DUMP_LAST Fd.ENV_DUMP_LAST_OUTCOME (if x.low then 2 else if down then 3 else 1)) ∧ b = (a.setFld Reg.ENV_DUMP_LAST Fd.ENV_DUMP_LAST_LINES (min 0xFFFFFFF x.lines)).setFld Reg.ENV_DUMP_TIME wordFld (min 0xFFFFFFFF us) ∧ c = ((b.cntEnv (if down then 2 else 1) 1).sequencerStop) ∧ d = { c with env := { c.env with dump := none, shutdown := none, critical := false, report := true } } ∧ e = d.setFld Reg.CRS_STATUS Fd.CRS_STATUS_MON_ARMED 0 ∧ f = ((if down then (e.raise Ev.ENV_SHUTDOWN_DONE x.lines us 0).doneOpt c.env.shutdown St.OK x.lines us else e)) ∧ s.env.dump = some x ∧ x.phase = 3 ∧ d.itn.dumpDue ≠ 3) :=
  ⟨⟨workS poolS (workW .destage []) Rt.drvReap 1, 0, 3, _, _, workW .destage [], runsWork_of (r := slotR 3 Rt.drvReap) (x := workI Rt.drvReap 1) (by decide +kernel), by decide +kernel⟩,
   ⟨wbS readX Rt.drvSubmit 1, 0, 1, _, _, 3, runsWb_of (r := slotR 1 Rt.drvSubmit) (x := wbI Rt.drvSubmit 1) (by decide +kernel), by decide +kernel⟩,
   ⟨outW, 0, 1, _, _, 3, _, rfl, enters_of (r := slotR 1 Rt.drvReap) (x := wbI Rt.drvReap 1) (by decide +kernel), by decide +kernel⟩,
   ⟨wbS { readX with abortReq := true } Rt.drvReap 1, 0, 1, _, _, 3, _, rfl, enters_of (r := slotR 1 Rt.drvReap) (x := wbI Rt.drvReap 1) (by decide +kernel), by decide +kernel⟩,
   ⟨wbS readX Rt.drvReap 1, 0, 1, _, _, 3, _, rfl, enters_of (r := slotR 1 Rt.drvReap) (x := wbI Rt.drvReap 1) (by decide +kernel), by decide +kernel⟩,
   ⟨onS, none_all (by decide +kernel)⟩,
   ⟨dumpS (dumpX 0 [dumpJ (some 2) 1 1 1 11]), dumpX 0 [dumpJ (some 2) 1 1 1 11], dumpJ (some 2) 1 1 1 11, _, _, _, _, rfl, rfl, rfl, by decide +kernel, by decide +kernel, (Option.some_get (by decide +kernel)).symm⟩,
   ⟨onS, none_all (by decide +kernel)⟩,
   ⟨{ dumpS (dumpX 3 []) with itn := { (dumpS (dumpX 3 [])).itn with dumpDue := 3 } }, dumpX 3 [], _, _, _, _, _, _, _, _, rfl, rfl, rfl, rfl, rfl, rfl, rfl, rfl, by decide +kernel⟩,
   ⟨dumpS (dumpX 3 []), dumpX 3 [], _, _, _, _, _, _, _, _, rfl, rfl, rfl, rfl, rfl, rfl, rfl, rfl, by decide +kernel⟩⟩

theorem witness_ThePairLinkIsKept_1 :
    (∃ (s : State) (k : Fin 16) (rx : Bool) (lock : Bool) (ref : Bool) (a : _) (u : _), a = ((if ref then s.clockSet 6 (k.val / 4) false else s)) ∧ u = ((a.setPair fun p => if rx then { p with rxLock := setNatBit p.rxLock k lock } else { p with txLock := setNatBit p.txLock k lock })) ∧ s.straps.pairEn = true ∧ ¬ (natBit u.pair.rxLock k = true ∧ natBit u.pair.txLock k = true)) ∧
    (∃ (s : State) (k : Fin 16) (rx : Bool) (lock : Bool) (ref : Bool) (a : _) (u : _), a = ((if ref then s.clockSet 6 (k.val / 4) false else s)) ∧ u = ((a.setPair fun p => if rx then { p with rxLock := setNatBit p.rxLock k lock } else { p with txLock := setNatBit p.txLock k lock })) ∧ s.straps.pairEn = true ∧ (natBit u.pair.rxLock k = true ∧ natBit u.pair.txLock k = true) ∧ natBit u.pair.dropped k = true) ∧
    (∃ (s : State) (k : Fin 16) (rx : Bool) (lock : Bool) (ref : Bool) (a : _) (u : _), a = ((if ref then s.clockSet 6 (k.val / 4) false else s)) ∧ u = ((a.setPair fun p => if rx then { p with rxLock := setNatBit p.rxLock k lock } else { p with txLock := setNatBit p.txLock k lock })) ∧ s.straps.pairEn = true ∧ (natBit u.pair.rxLock k = true ∧ natBit u.pair.txLock k = true) ∧ natBit u.pair.dropped k = false) ∧
    (∃ (s : State) (k : Fin 16) (rx : Bool) (lock : Bool) (ref : Bool) (a : _) (u : _), a = ((if ref then s.clockSet 6 (k.val / 4) false else s)) ∧ u = ((a.setPair fun p => if rx then { p with rxLock := setNatBit p.rxLock k lock } else { p with txLock := setNatBit p.txLock k lock })) ∧ s.straps.pairEn = false) ∧
    (∃ (s : State), s.bundlesUp = s.pairUp) ∧
    (∃ (s : State), s.bundlesUp = true ∧ s.pairUp = false) ∧
    (∃ (s : State), s.bundlesUp = false ∧ s.pairUp = true) ∧
    (∃ (s : State) (k : Fin 16) (e : _), (s.pair.rejoin.find? fun (e : Nat × Nat) => e.1 == k.val) = some e ∧ (fun (e : Nat × Nat) => s.msSince e.2 100 = true) e) ∧
    (∃ (s : State) (k : Fin 16), (∀ e, (s.pair.rejoin.find? fun (e : Nat × Nat) => e.1 == k.val) = some e → ¬ (fun (e : Nat × Nat) => s.msSince e.2 100 = true) e)) ∧
    (∃ (s : State) (bytes : List Byte), ¬ (s.straps.pairEn = true ∧ s.pairUp = true ∧ s.pairKeyed = false ∧ s.fwRuns = true)) :=
  ⟨⟨pairS pairAlone id, 15, true, false, false, _, _, rfl, rfl, by decide +kernel⟩,
   ⟨pairS pairAlone fun p => { p with txLock := 32768, dropped := 32768 }, 15, true, true, false, _, _, rfl, rfl, by decide +kernel⟩,
   ⟨pairS pairAlone fun p => { p with txLock := 32768 }, 15, true, true, false, _, _, rfl, rfl, by decide +kernel⟩,
   ⟨onS, 15, true, true, false, _, _, rfl, rfl, by decide +kernel⟩,
   ⟨onS, by decide +kernel⟩,
   ⟨{ onS with straps := { onS.straps with pairEn := true }, pair := { onS.pair with rxLock := 65535, txLock := 65535 } }, by decide +kernel⟩,
   ⟨pairS pairAlone id, by decide +kernel⟩,
   ⟨pairS pairAlone fun p => { p with rejoin := [(15, 0)] }, 15, (15, 0), by decide +kernel⟩,
   ⟨onS, 15, none_all (by decide +kernel)⟩,
   ⟨onS, [], by decide +kernel⟩⟩

theorem witness_ThePairLinkIsKept_2 :
    (∃ (s : State) (bytes : List Byte), (s.straps.pairEn = true ∧ s.pairUp = true ∧ s.pairKeyed = false ∧ s.fwRuns = true) ∧ leField bytes 0 1 ≠ lfKeyx) ∧
    (∃ (s : State) (bytes : List Byte), (s.straps.pairEn = true ∧ s.pairUp = true ∧ s.pairKeyed = false ∧ s.fwRuns = true) ∧ leField bytes 0 1 = lfKeyx) ∧
    (∃ (s : State), (s.pairKeyed = true ∧ s.isStandby = false ∧ s.itn.tick % 1048576 = 0 ∧ s.pair.rekeyTick ≠ some s.now)) ∧
    (∃ (s : State), ¬ (s.pairKeyed = true ∧ s.isStandby = false ∧ s.itn.tick % 1048576 = 0 ∧ s.pair.rekeyTick ≠ some s.now)) ∧
    (∃ (s : State) (code : Fin 7), s.pairUp = true ∧ ¬ (s.flag Reg.PAIR_CFG Fd.PAIR_CFG_ZERO_FOLLOW = true ∧ code.val ≠ 0 ∧ code.val ≠ 6)) ∧
    (∃ (s : State) (code : Fin 7), s.pairUp = true ∧ (s.flag Reg.PAIR_CFG Fd.PAIR_CFG_ZERO_FOLLOW = true ∧ code.val ≠ 0 ∧ code.val ≠ 6)) ∧
    (∃ (s : State) (code : Fin 7), s.pairUp = false) ∧
    (∃ (s : State) (typ : Nat) (bytes : List Byte) (u : _) (stream : _) (v : _), u = s.cntPair 1 1 ∧ stream = leField bytes 1 1 ∧ v = u.epochSeen (leField bytes 6 2) ∧ s.pairUp = true ∧ s.pairKeyed = true ∧ (¬ (leField bytes 0 1 = typ ∧ u.rightWay typ = true ∧ streamOk typ stream = true) ∨ u.epochKey (leField bytes 6 2) = none)) ∧
    (∃ (s : State) (typ : Nat) (bytes : List Byte) (u : _) (stream : _) (v : _) (key : _), u = s.cntPair 1 1 ∧ stream = leField bytes 1 1 ∧ v = u.epochSeen (leField bytes 6 2) ∧ s.pairUp = true ∧ s.pairKeyed = true ∧ (leField bytes 0 1 = typ ∧ u.rightWay typ = true ∧ streamOk typ stream = true) ∧ u.epochKey (leField bytes 6 2) = some key) ∧
    (∃ (s : State) (typ : Nat) (bytes : List Byte), (s.pairUp = false ∨ s.pairKeyed = false)) :=
  ⟨⟨pairS pairIdle id, [1], by decide +kernel⟩,
   ⟨pairS pairIdle id, [7], by decide +kernel⟩,
   ⟨keyedS pairAlone id, by decide +kernel⟩,
   ⟨onS, by decide +kernel⟩,
   ⟨(pairS pairLocked id).setFld Reg.PAIR_CFG Fd.PAIR_CFG_ZERO_FOLLOW 0, 5, by decide +kernel⟩,
   ⟨(pairS pairLocked id).setFld Reg.PAIR_CFG Fd.PAIR_CFG_ZERO_FOLLOW 1, 5, by decide +kernel⟩,
   ⟨onS, 6, by decide +kernel⟩,
   ⟨keyedS pairIdle id, lfIngress, badB, _, _, _, rfl, rfl, rfl, by decide +kernel⟩,
   ⟨keyedS pairIdle (fun p => { p with epochRx := 9, keyRx := [1] }), lfIngress, [1, 0] ++ badB.drop 2, _, _, _, [1], rfl, rfl, rfl, by decide +kernel⟩,
   ⟨onS, lfIngress, badB, by decide +kernel⟩⟩

theorem witness_LockstepIsKept :
    (∃ (s : State) (x : _), (s.pairState = pairPaired ∧ s.pair.next = none) ∧ s.lossReason = some (some x)) ∧
    (∃ (s : State), (s.pairState = pairPaired ∧ s.pair.next = none) ∧ s.lossReason = some none) ∧
    (∃ (s : State), (¬ (s.pairState = pairPaired ∧ s.pair.next = none) ∨ s.lossReason = none)) ∧
    (∃ (s : State), (s.pairState = pairLocked ∧ s.pair.next = none ∧ s.pair.recordDone = false)) ∧
    (∃ (s : State), ¬ (s.pairState = pairLocked ∧ s.pair.next = none ∧ s.pair.recordDone = false)) ∧
    (∃ (s : State), (∃ t, s.pair.waitTick = some t ∧ t + s.lossWait ≤ s.now) ∧ ((s.pairState = pairLocked ∨ s.pairState = pairHolding) ∧ s.pair.next ≠ some pairIdle ∧ s.pair.next ≠ some pairTakingOver)) ∧
    (∃ (s : State), ¬ ((∃ t, s.pair.waitTick = some t ∧ t + s.lossWait ≤ s.now) ∧ ((s.pairState = pairLocked ∨ s.pairState = pairHolding) ∧ s.pair.next ≠ some pairIdle ∧ s.pair.next ≠ some pairTakingOver))) ∧
    (∃ (s : State), 4 ≤ s.pair.offBad ∧ ((s.pairState = pairLocked ∨ s.pairState = pairHolding) ∧ s.pair.next ≠ some pairIdle ∧ s.pair.next ≠ some pairTakingOver)) ∧
    (∃ (s : State), ¬ (4 ≤ s.pair.offBad ∧ ((s.pairState = pairLocked ∨ s.pairState = pairHolding) ∧ s.pair.next ≠ some pairIdle ∧ s.pair.next ≠ some pairTakingOver))) ∧
    (∃ (s : State) (offset : Fin 65536) (latency : Fin 65536) (a : _), a = s.setFld Reg.PAIR_TIMING Fd.PAIR_TIMING_OFFSET offset ∧ s.pairUp = true ∧ s.isStandby = true) ∧
    (∃ (s : State) (offset : Fin 65536) (latency : Fin 65536) (a : _), a = s.setFld Reg.PAIR_TIMING Fd.PAIR_TIMING_OFFSET offset ∧ (s.pairUp = false ∨ s.isStandby = false)) :=
  ⟨⟨pairS pairPaired fun p => { p with peerLeft := some pairSuspect }, 3, by decide +kernel⟩,
   ⟨pairS pairPaired fun p => { p with peerLeft := some pairIdle }, by decide +kernel⟩,
   ⟨onS, by decide +kernel⟩,
   ⟨pairS pairLocked id, by decide +kernel⟩,
   ⟨onS, by decide +kernel⟩,
   ⟨pairS pairLocked fun p => { p with waitTick := some 19999988 }, ⟨19999988, by decide +kernel, by decide +kernel⟩, by decide +kernel⟩,
   ⟨onS, fun h => absurd h.2 (by decide +kernel)⟩,
   ⟨pairS pairLocked fun p => { p with offBad := 4 }, by decide +kernel⟩,
   ⟨onS, by decide +kernel⟩,
   ⟨pairS pairLocked id, 65535, 65535, _, rfl, by decide +kernel⟩,
   ⟨onS, 0, 0, _, rfl, by decide +kernel⟩⟩

theorem witness_TheRoleIsTakenOver_1 :
    (∃ (s : State), (s.pairState = pairInit ∧ s.pair.next = none ∧ s.crs.dead = false) ∧ s.actLow = true) ∧
    (∃ (s : State), (s.pairState = pairInit ∧ s.pair.next = none ∧ s.crs.dead = false) ∧ s.actLow = false ∧ (s.msSince s.pair.highTick (if s.straps.pairSlot then 100 * s.fld1 Reg.PAIR_CFG Fd.PAIR_CFG_CLAIM_WAIT else 100) = true)) ∧
    (∃ (s : State), (¬ (s.pairState = pairInit ∧ s.pair.next = none ∧ s.crs.dead = false) ∨ (s.actLow = false ∧ ¬ (s.msSince s.pair.highTick (if s.straps.pairSlot then 100 * s.fld1 Reg.PAIR_CFG Fd.PAIR_CFG_CLAIM_WAIT else 100) = true)))) ∧
    (∃ (s : State), (s.claimed = true ∧ ∃ t, s.pair.claimTick = some t ∧ s.msSince t 10 = true)) ∧
    (∃ (s : State), ¬ (s.claimed = true ∧ ∃ t, s.pair.claimTick = some t ∧ s.msSince t 10 = true)) ∧
    (∃ (s : State) (a : _), a = (s.setPair fun p => { p with peerLow := true }) ∧ s.straps.pairEn = true ∧ a.claimed = true) ∧
    (∃ (s : State) (a : _) (b : _) (h : _), a = (s.setPair fun p => { p with peerLow := true }) ∧ b = (a.setPair fun p => { p with shared := false }) ∧ s.straps.pairEn = true ∧ a.claimed = false ∧ b.pair.handTick = some h ∧ b.pairState = pairIdle) ∧
    (∃ (s : State) (a : _) (b : _), a = (s.setPair fun p => { p with peerLow := true }) ∧ b = (a.setPair fun p => { p with shared := false }) ∧ s.straps.pairEn = true ∧ a.claimed = false ∧ (b.pair.handTick = none ∨ b.pairState ≠ pairIdle)) ∧
    (∃ (s : State) (a : _), a = (s.setPair fun p => { p with peerLow := true }) ∧ s.straps.pairEn = false) ∧
    (∃ (s : State) (u : _), u = (s.setPair fun p => { p with peerLow := false, highTick := s.now }) ∧ (s.straps.pairEn = true ∧ s.claimed = false ∧ s.crs.dead = false) ∧ (u.pairState = pairLocked ∨ u.pairState = pairHolding)) ∧
    (∃ (s : State) (u : _), u = (s.setPair fun p => { p with peerLow := false, highTick := s.now }) ∧ (s.straps.pairEn = true ∧ s.claimed = false ∧ s.crs.dead = false) ∧ ¬ (u.pairState = pairLocked ∨ u.pairState = pairHolding) ∧ ((u.pairState = pairIdle ∨ u.pairState = pairSuspect) ∧ u.flag Reg.PAIR_CFG Fd.PAIR_CFG_COLD_AUTO = true ∧ u.pair.handTick = none)) ∧
    (∃ (s : State) (u : _), u = (s.setPair fun p => { p with peerLow := false, highTick := s.now }) ∧ (s.straps.pairEn = true ∧ s.claimed = false ∧ s.crs.dead = false) ∧ ¬ (u.pairState = pairLocked ∨ u.pairState = pairHolding) ∧ ¬ ((u.pairState = pairIdle ∨ u.pairState = pairSuspect) ∧ u.flag Reg.PAIR_CFG Fd.PAIR_CFG_COLD_AUTO = true ∧ u.pair.handTick = none)) :=
  ⟨⟨pairS pairInit fun p => { p with peerLow := true }, by decide +kernel⟩,
   ⟨pairS pairInit id, by decide +kernel⟩,
   ⟨onS, by decide +kernel⟩,
   ⟨(pairS pairAlone fun p => { p with claimTick := some 0 }).setFld Reg.PAIR_STATUS Fd.PAIR_STATUS_CLAIMED 1, ⟨by decide +kernel, 0, by decide +kernel, by decide +kernel⟩⟩,
   ⟨onS, fun h => absurd h.1 (by decide +kernel)⟩,
   ⟨(pairS pairAlone id).setFld Reg.PAIR_STATUS Fd.PAIR_STATUS_CLAIMED 1, _, rfl, by decide +kernel⟩,
   ⟨pairS pairIdle fun p => { p with handTick := some 5 }, _, _, 5, rfl, rfl, by decide +kernel⟩,
   ⟨pairS pairLocked id, _, _, rfl, rfl, by decide +kernel⟩,
   ⟨onS, _, rfl, by decide +kernel⟩,
   ⟨pairS pairHolding id, _, rfl, by decide +kernel⟩,
   ⟨(pairS pairSuspect id).setFld Reg.PAIR_CFG Fd.PAIR_CFG_COLD_AUTO 1, _, rfl, by decide +kernel⟩,
   ⟨pairS pairAlone id, _, rfl, by decide +kernel⟩⟩

theorem witness_TheRoleIsTakenOver_2 :
    (∃ (s : State) (u : _), u = (s.setPair fun p => { p with peerLow := false, highTick := s.now }) ∧ ¬ (s.straps.pairEn = true ∧ s.claimed = false ∧ s.crs.dead = false)) ∧
    (∃ (s : State) (t : _), s.pair.annTick = some t ∧ (fun (t : Nat) => (s.pair.announced = 1 ∧ s.msSince t 1 = true) ∨ (s.pair.announced = 2 ∧ s.msSince t 10 = true)) t) ∧
    (∃ (s : State), (∀ t, s.pair.annTick = some t → ¬ (fun (t : Nat) => (s.pair.announced = 1 ∧ s.msSince t 1 = true) ∨ (s.pair.announced = 2 ∧ s.msSince t 10 = true)) t)) ∧
    (∃ (s : State) (b : Fin 128) (u : _), u = ((s.setPair fun p => { p with preempts := p.preempts.filter (· != b.val) })) ∧ s.pair.preempts.contains b.val = true ∧ u.online b = true) ∧
    (∃ (s : State) (b : Fin 128) (u : _), u = ((s.setPair fun p => { p with preempts := p.preempts.filter (· != b.val) })) ∧ s.pair.preempts.contains b.val = true ∧ u.online b = false) ∧
    (∃ (s : State) (b : Fin 128), s.pair.preempts.contains b.val = false) ∧
    (∃ (s : State) (u : State) (d : Desc) (mode : _), u = s.start d ∧ mode = d.f 8 1 ∧ s.Takes Op.PAIR_TAKEOVER d ∧ ¬ (d.handle = 0 ∧ d.reservedZero [(8, 1)] = true ∧ mode ≤ 1)) ∧
    (∃ (s : State) (u : State) (d : Desc) (mode : _), u = s.start d ∧ mode = d.f 8 1 ∧ s.Takes Op.PAIR_TAKEOVER d ∧ (d.handle = 0 ∧ d.reservedZero [(8, 1)] = true ∧ mode ≤ 1) ∧ u.straps.pairEn = false) ∧
    (∃ (s : State) (u : State) (d : Desc) (mode : _), u = s.start d ∧ mode = d.f 8 1 ∧ s.Takes Op.PAIR_TAKEOVER d ∧ (d.handle = 0 ∧ d.reservedZero [(8, 1)] = true ∧ mode ≤ 1) ∧ u.straps.pairEn = true ∧ ¬ (if mode = 0 then u.pairState = pairPaired ∧ u.pair.handDesc = none ∧ u.pair.handTick = none else u.pairState = pairIdle ∨ u.pairState = pairSuspect)) ∧
    (∃ (s : State) (u : State) (d : Desc) (mode : _), u = s.start d ∧ mode = d.f 8 1 ∧ s.Takes Op.PAIR_TAKEOVER d ∧ (d.handle = 0 ∧ d.reservedZero [(8, 1)] = true ∧ mode ≤ 1) ∧ u.straps.pairEn = true ∧ (if mode = 0 then u.pairState = pairPaired ∧ u.pair.handDesc = none ∧ u.pair.handTick = none else u.pairState = pairIdle ∨ u.pairState = pairSuspect) ∧ mode = 0) ∧
    (∃ (s : State) (u : State) (d : Desc) (mode : _), u = s.start d ∧ mode = d.f 8 1 ∧ s.Takes Op.PAIR_TAKEOVER d ∧ (d.handle = 0 ∧ d.reservedZero [(8, 1)] = true ∧ mode ≤ 1) ∧ u.straps.pairEn = true ∧ (if mode = 0 then u.pairState = pairPaired ∧ u.pair.handDesc = none ∧ u.pair.handTick = none else u.pairState = pairIdle ∨ u.pairState = pairSuspect) ∧ mode = 1 ∧ u.actLow = true) ∧
    (∃ (s : State) (u : State) (d : Desc) (mode : _), u = s.start d ∧ mode = d.f 8 1 ∧ s.Takes Op.PAIR_TAKEOVER d ∧ (d.handle = 0 ∧ d.reservedZero [(8, 1)] = true ∧ mode ≤ 1) ∧ u.straps.pairEn = true ∧ (if mode = 0 then u.pairState = pairPaired ∧ u.pair.handDesc = none ∧ u.pair.handTick = none else u.pairState = pairIdle ∨ u.pairState = pairSuspect) ∧ mode = 1 ∧ u.actLow = false) :=
  ⟨⟨onS, _, rfl, by decide +kernel⟩,
   ⟨pairS pairTakingOver fun p => { p with annTick := some 0, announced := 1 }, 0, by decide +kernel⟩,
   ⟨onS, none_all (by decide +kernel)⟩,
   ⟨preS dbOnline, 127, _, rfl, by decide +kernel⟩,
   ⟨preS 0, 127, _, rfl, by decide +kernel⟩,
   ⟨onS, 127, by decide +kernel⟩,
   ⟨withD onS (cmdD Op.PAIR_TAKEOVER 0 [(8, 1, 2)]), _, (cmdD Op.PAIR_TAKEOVER 0 [(8, 1, 2)]), _, rfl, rfl, takes_of (by decide +kernel), by decide +kernel⟩,
   ⟨withD onS (cmdD Op.PAIR_TAKEOVER 0 []), _, (cmdD Op.PAIR_TAKEOVER 0 []), _, rfl, rfl, takes_of (by decide +kernel), by decide +kernel⟩,
   ⟨withD ({ (pairS pairAlone id) with now := 10 }) (cmdD Op.PAIR_TAKEOVER 0 []), _, (cmdD Op.PAIR_TAKEOVER 0 []), _, rfl, rfl, takes_of (by decide +kernel), by decide +kernel⟩,
   ⟨withD ({ (pairS pairPaired id) with now := 10 }) (cmdD Op.PAIR_TAKEOVER 0 []), _, (cmdD Op.PAIR_TAKEOVER 0 []), _, rfl, rfl, takes_of (by decide +kernel), by decide +kernel⟩,
   ⟨withD ({ (pairS pairSuspect fun p => { p with peerLow := true }) with now := 10 }) (cmdD Op.PAIR_TAKEOVER 0 [(8, 1, 1)]), _, (cmdD Op.PAIR_TAKEOVER 0 [(8, 1, 1)]), _, rfl, rfl, takes_of (by decide +kernel), by decide +kernel⟩,
   ⟨withD ({ (pairS pairSuspect id) with now := 10 }) (cmdD Op.PAIR_TAKEOVER 0 [(8, 1, 1)]), _, (cmdD Op.PAIR_TAKEOVER 0 [(8, 1, 1)]), _, rfl, rfl, takes_of (by decide +kernel), by decide +kernel⟩⟩

theorem witness_JoinsAndRehearsals_1 :
    (∃ (s : State) (u : State) (d : Desc) (peer : _), u = s.start d ∧ peer = u.fld Reg.PAIR_STATUS Fd.PAIR_STATUS_PEER_STATE ∧ s.Takes Op.PAIR_JOIN d ∧ ¬ (d.handle = 0 ∧ d.reservedZero [] = true)) ∧
    (∃ (s : State) (u : State) (d : Desc) (peer : _), u = s.start d ∧ peer = u.fld Reg.PAIR_STATUS Fd.PAIR_STATUS_PEER_STATE ∧ s.Takes Op.PAIR_JOIN d ∧ (d.handle = 0 ∧ d.reservedZero [] = true) ∧ u.straps.pairEn = false) ∧
    (∃ (s : State) (u : State) (d : Desc) (peer : _), u = s.start d ∧ peer = u.fld Reg.PAIR_STATUS Fd.PAIR_STATUS_PEER_STATE ∧ s.Takes Op.PAIR_JOIN d ∧ (d.handle = 0 ∧ d.reservedZero [] = true) ∧ u.straps.pairEn = true ∧ ¬ (u.pairState = pairAlone ∧ u.pair.next = none ∧ (peer = pairIdle ∨ peer = pairSuspect))) ∧
    (∃ (s : State) (u : State) (d : Desc) (peer : _), u = s.start d ∧ peer = u.fld Reg.PAIR_STATUS Fd.PAIR_STATUS_PEER_STATE ∧ s.Takes Op.PAIR_JOIN d ∧ (d.handle = 0 ∧ d.reservedZero [] = true) ∧ u.straps.pairEn = true ∧ (u.pairState = pairAlone ∧ u.pair.next = none ∧ (peer = pairIdle ∨ peer = pairSuspect)) ∧ u.pair.rehearsal ≠ none) ∧
    (∃ (s : State) (u : State) (d : Desc) (peer : _), u = s.start d ∧ peer = u.fld Reg.PAIR_STATUS Fd.PAIR_STATUS_PEER_STATE ∧ s.Takes Op.PAIR_JOIN d ∧ (d.handle = 0 ∧ d.reservedZero [] = true) ∧ u.straps.pairEn = true ∧ (u.pairState = pairAlone ∧ u.pair.next = none ∧ (peer = pairIdle ∨ peer = pairSuspect)) ∧ u.pair.rehearsal = none ∧ ¬ (u.pairUp = true ∧ u.pairKeyed = true)) ∧
    (∃ (s : State) (u : State) (d : Desc) (peer : _), u = s.start d ∧ peer = u.fld Reg.PAIR_STATUS Fd.PAIR_STATUS_PEER_STATE ∧ s.Takes Op.PAIR_JOIN d ∧ (d.handle = 0 ∧ d.reservedZero [] = true) ∧ u.straps.pairEn = true ∧ (u.pairState = pairAlone ∧ u.pair.next = none ∧ (peer = pairIdle ∨ peer = pairSuspect)) ∧ u.pair.rehearsal = none ∧ (u.pairUp = true ∧ u.pairKeyed = true) ∧ u.pair.peerFw ≠ (u.rd Reg.MGT_FW_VER).toNat) ∧
    (∃ (s : State) (u : State) (d : Desc) (peer : _), u = s.start d ∧ peer = u.fld Reg.PAIR_STATUS Fd.PAIR_STATUS_PEER_STATE ∧ s.Takes Op.PAIR_JOIN d ∧ (d.handle = 0 ∧ d.reservedZero [] = true) ∧ u.straps.pairEn = true ∧ (u.pairState = pairAlone ∧ u.pair.next = none ∧ (peer = pairIdle ∨ peer = pairSuspect)) ∧ u.pair.rehearsal = none ∧ (u.pairUp = true ∧ u.pairKeyed = true) ∧ u.pair.peerFw = (u.rd Reg.MGT_FW_VER).toNat) ∧
    (∃ (s : State) (residue : Nat) (passes : Fin 33), (s.pairState = pairJoinActive ∧ s.joinPhase = 2 ∧ (residue ≤ s.fld1 Reg.PAIR_JOIN_CFG Fd.PAIR_JOIN_CFG_RESIDUE ∨ s.fld Reg.PAIR_JOIN_CFG Fd.PAIR_JOIN_CFG_PASSES ≤ passes.val))) ∧
    (∃ (s : State) (residue : Nat) (passes : Fin 33), ¬ (s.pairState = pairJoinActive ∧ s.joinPhase = 2 ∧ (residue ≤ s.fld1 Reg.PAIR_JOIN_CFG Fd.PAIR_JOIN_CFG_RESIDUE ∨ s.fld Reg.PAIR_JOIN_CFG Fd.PAIR_JOIN_CFG_PASSES ≤ passes.val))) ∧
    (∃ (s : State) (j : _), s.pair.join = some j ∧ (fun (j : Join) => s.pairState = pairJoinActive ∧ s.joinPhase = 3 ∧ j.peerCrc ≠ none ∧ j.endTick = none ∧ j.abort = none) j ∧ j.peerCrc = j.crc) ∧
    (∃ (s : State) (j : _), s.pair.join = some j ∧ (fun (j : Join) => s.pairState = pairJoinActive ∧ s.joinPhase = 3 ∧ j.peerCrc ≠ none ∧ j.endTick = none ∧ j.abort = none) j ∧ j.peerCrc ≠ j.crc) ∧
    (∃ (s : State), (∀ j, s.pair.join = some j → ¬ (fun (j : Join) => s.pairState = pairJoinActive ∧ s.joinPhase = 3 ∧ j.peerCrc ≠ none ∧ j.endTick = none ∧ j.abort = none) j)) :=
  ⟨⟨withD onS (cmdD Op.PAIR_JOIN 1 []), _, (cmdD Op.PAIR_JOIN 1 []), _, rfl, rfl, takes_of (by decide +kernel), by decide +kernel⟩,
   ⟨withD onS (cmdD Op.PAIR_JOIN 0 []), _, (cmdD Op.PAIR_JOIN 0 []), _, rfl, rfl, takes_of (by decide +kernel), by decide +kernel⟩,
   ⟨withD ({ (pairS pairAlone id) with now := 10 }) (cmdD Op.PAIR_JOIN 0 []), _, (cmdD Op.PAIR_JOIN 0 []), _, rfl, rfl, takes_of (by decide +kernel), by decide +kernel⟩,
   ⟨withD ({ (keyedS pairAlone fun p => { p with rehearsal := some rehR }) with now := 10 }.setFld Reg.PAIR_STATUS Fd.PAIR_STATUS_PEER_STATE pairSuspect) (cmdD Op.PAIR_JOIN 0 []), _, (cmdD Op.PAIR_JOIN 0 []), _, rfl, rfl, takes_of (by decide +kernel), by decide +kernel⟩,
   ⟨withD ({ (pairS pairAlone id) with now := 10 }.setFld Reg.PAIR_STATUS Fd.PAIR_STATUS_PEER_STATE pairSuspect) (cmdD Op.PAIR_JOIN 0 []), _, (cmdD Op.PAIR_JOIN 0 []), _, rfl, rfl, takes_of (by decide +kernel), by decide +kernel⟩,
   ⟨withD ({ (keyedS pairAlone fun p => { p with peerFw := 1 }) with now := 10 }.setFld Reg.PAIR_STATUS Fd.PAIR_STATUS_PEER_STATE pairSuspect) (cmdD Op.PAIR_JOIN 0 []), _, (cmdD Op.PAIR_JOIN 0 []), _, rfl, rfl, takes_of (by decide +kernel), by decide +kernel⟩,
   ⟨withD ({ (keyedS pairAlone id) with now := 10 }.setFld Reg.PAIR_STATUS Fd.PAIR_STATUS_PEER_STATE pairSuspect) (cmdD Op.PAIR_JOIN 0 []), _, (cmdD Op.PAIR_JOIN 0 []), _, rfl, rfl, takes_of (by decide +kernel), by decide +kernel⟩,
   ⟨joinS 2 id, 64, 0, by decide +kernel⟩,
   ⟨onS, 0, 32, by decide +kernel⟩,
   ⟨joinS 3 fun p => { p with join := some (joinJ (some 5) (some 5) 0) }, joinJ (some 5) (some 5) 0, by decide +kernel⟩,
   ⟨joinS 3 fun p => { p with join := some (joinJ (some 5) (some 6) 0) }, joinJ (some 5) (some 6) 0, by decide +kernel⟩,
   ⟨onS, none_all (by decide +kernel)⟩⟩

theorem witness_JoinsAndRehearsals_2 :
    (∃ (s : State) (j : _), s.pair.join = some j ∧ (fun (j : Join) => s.joinHold = true ∧ j.endTick = none ∧ s.fld Reg.PAIR_JOIN_CFG Fd.PAIR_JOIN_CFG_HOLD_MAX ≤ j.holdTicks) j) ∧
    (∃ (s : State), (∀ j, s.pair.join = some j → ¬ (fun (j : Join) => s.joinHold = true ∧ j.endTick = none ∧ s.fld Reg.PAIR_JOIN_CFG Fd.PAIR_JOIN_CFG_HOLD_MAX ≤ j.holdTicks) j)) ∧
    (∃ (s : State) (u : State) (d : Desc) (peer : Bool) (r : _), u = s.start d ∧ r = Rehearse.ofDesc d ∧ s.Takes Op.PAIR_REHEARSE d ∧ ¬ (d.handle = 0 ∧ d.reservedZero [(8, 1), (10, 5), (16, 6), (24, 16)] = true ∧ u.rehearseOk r = true)) ∧
    (∃ (s : State) (u : State) (d : Desc) (peer : Bool) (r : _), u = s.start d ∧ r = Rehearse.ofDesc d ∧ s.Takes Op.PAIR_REHEARSE d ∧ (d.handle = 0 ∧ d.reservedZero [(8, 1), (10, 5), (16, 6), (24, 16)] = true ∧ u.rehearseOk r = true) ∧ ¬ (1 ≤ d.f 13 1 ∧ d.f 13 1 ≤ 16)) ∧
    (∃ (s : State) (u : State) (d : Desc) (peer : Bool) (r : _), u = s.start d ∧ r = Rehearse.ofDesc d ∧ s.Takes Op.PAIR_REHEARSE d ∧ (d.handle = 0 ∧ d.reservedZero [(8, 1), (10, 5), (16, 6), (24, 16)] = true ∧ u.rehearseOk r = true) ∧ (1 ≤ d.f 13 1 ∧ d.f 13 1 ≤ 16) ∧ u.straps.pairEn = false) ∧
    (∃ (s : State) (u : State) (d : Desc) (peer : Bool) (r : _), u = s.start d ∧ r = Rehearse.ofDesc d ∧ s.Takes Op.PAIR_REHEARSE d ∧ (d.handle = 0 ∧ d.reservedZero [(8, 1), (10, 5), (16, 6), (24, 16)] = true ∧ u.rehearseOk r = true) ∧ (1 ≤ d.f 13 1 ∧ d.f 13 1 ≤ 16) ∧ u.straps.pairEn = true ∧ u.pairState ≠ pairPaired) ∧
    (∃ (s : State) (u : State) (d : Desc) (peer : Bool) (r : _), u = s.start d ∧ r = Rehearse.ofDesc d ∧ s.Takes Op.PAIR_REHEARSE d ∧ (d.handle = 0 ∧ d.reservedZero [(8, 1), (10, 5), (16, 6), (24, 16)] = true ∧ u.rehearseOk r = true) ∧ (1 ≤ d.f 13 1 ∧ d.f 13 1 ≤ 16) ∧ u.straps.pairEn = true ∧ u.pairState = pairPaired ∧ ¬ (u.pair.join = none ∧ u.pair.rehearsal = none)) ∧
    (∃ (s : State) (u : State) (d : Desc) (peer : Bool) (r : _), u = s.start d ∧ r = Rehearse.ofDesc d ∧ s.Takes Op.PAIR_REHEARSE d ∧ (d.handle = 0 ∧ d.reservedZero [(8, 1), (10, 5), (16, 6), (24, 16)] = true ∧ u.rehearseOk r = true) ∧ (1 ≤ d.f 13 1 ∧ d.f 13 1 ≤ 16) ∧ u.straps.pairEn = true ∧ u.pairState = pairPaired ∧ (u.pair.join = none ∧ u.pair.rehearsal = none) ∧ u.rehearsable r peer = false) ∧
    (∃ (s : State) (u : State) (d : Desc) (peer : Bool) (r : _), u = s.start d ∧ r = Rehearse.ofDesc d ∧ s.Takes Op.PAIR_REHEARSE d ∧ (d.handle = 0 ∧ d.reservedZero [(8, 1), (10, 5), (16, 6), (24, 16)] = true ∧ u.rehearseOk r = true) ∧ (1 ≤ d.f 13 1 ∧ d.f 13 1 ≤ 16) ∧ u.straps.pairEn = true ∧ u.pairState = pairPaired ∧ (u.pair.join = none ∧ u.pair.rehearsal = none) ∧ u.rehearsable r peer = true) ∧
    (∃ (s : State) (n : Fin 17) (result : Fin 4), s.pair.rehearsal = none) ∧
    (∃ (s : State) (n : Fin 17) (result : Fin 4) (r : _), s.pair.rehearsal = some r ∧ s.isStandby = true) ∧
    (∃ (s : State) (n : Fin 17) (result : Fin 4) (r : _), s.pair.rehearsal = some r ∧ s.isStandby = false) :=
  ⟨⟨joinS 3 fun p => { p with join := some (joinJ none none 1024) }, joinJ none none 1024, by decide +kernel⟩,
   ⟨onS, none_all (by decide +kernel)⟩,
   ⟨withD onS (cmdD Op.PAIR_REHEARSE 1 []), _, (cmdD Op.PAIR_REHEARSE 1 []), true, _, rfl, rfl, takes_of (by decide +kernel), by decide +kernel⟩,
   ⟨withD onS (cmdD Op.PAIR_REHEARSE 0 [(8, 1, 5), (13, 1, 17), (14, 1, 4), (16, 6, 2), (24, 4, 167772162)]), _, (cmdD Op.PAIR_REHEARSE 0 [(8, 1, 5), (13, 1, 17), (14, 1, 4), (16, 6, 2), (24, 4, 167772162)]), true, _, rfl, rfl, takes_of (by decide +kernel), by decide +kernel⟩,
   ⟨withD onS (cmdD Op.PAIR_REHEARSE 0 [(8, 1, 5), (13, 1, 16), (14, 1, 4), (16, 6, 2), (24, 4, 167772162)]), _, (cmdD Op.PAIR_REHEARSE 0 [(8, 1, 5), (13, 1, 16), (14, 1, 4), (16, 6, 2), (24, 4, 167772162)]), true, _, rfl, rfl, takes_of (by decide +kernel), by decide +kernel⟩,
   ⟨withD ({ (pairS pairAlone id) with now := 10 }) (cmdD Op.PAIR_REHEARSE 0 [(8, 1, 5), (13, 1, 16), (14, 1, 4), (16, 6, 2), (24, 4, 167772162)]), _, (cmdD Op.PAIR_REHEARSE 0 [(8, 1, 5), (13, 1, 16), (14, 1, 4), (16, 6, 2), (24, 4, 167772162)]), true, _, rfl, rfl, takes_of (by decide +kernel), by decide +kernel⟩,
   ⟨withD ({ (pairS pairPaired fun p => { p with rehearsal := some rehR }) with now := 10 }) (cmdD Op.PAIR_REHEARSE 0 [(8, 1, 5), (13, 1, 16), (14, 1, 4), (16, 6, 2), (24, 4, 167772162)]), _, (cmdD Op.PAIR_REHEARSE 0 [(8, 1, 5), (13, 1, 16), (14, 1, 4), (16, 6, 2), (24, 4, 167772162)]), true, _, rfl, rfl, takes_of (by decide +kernel), by decide +kernel⟩,
   ⟨withD ({ (pairS pairPaired id) with now := 10 }) (cmdD Op.PAIR_REHEARSE 0 [(8, 1, 4), (10, 2, 11), (13, 1, 1), (14, 1, 6), (16, 6, 2), (24, 4, 1)]), _, (cmdD Op.PAIR_REHEARSE 0 [(8, 1, 4), (10, 2, 11), (13, 1, 1), (14, 1, 6), (16, 6, 2), (24, 4, 1)]), false, _, rfl, rfl, takes_of (by decide +kernel), by decide +kernel⟩,
   ⟨withD ({ (pairS pairPaired id) with now := 10 }) (cmdD Op.PAIR_REHEARSE 0 [(8, 1, 5), (13, 1, 16), (14, 1, 4), (16, 6, 2), (24, 4, 167772162)]), _, (cmdD Op.PAIR_REHEARSE 0 [(8, 1, 5), (13, 1, 16), (14, 1, 4), (16, 6, 2), (24, 4, 167772162)]), true, _, rfl, rfl, takes_of (by decide +kernel), by decide +kernel⟩,
   ⟨onS, 16, 3, by decide +kernel⟩,
   ⟨pairS pairLocked fun p => { p with rehearsal := some rehR }, 16, 3, rehR, by decide +kernel⟩,
   ⟨pairS pairPaired fun p => { p with rehearsal := some rehR }, 16, 3, rehR, by decide +kernel⟩⟩

theorem witness_TheCoresBoot_1 :
    (∃ (s : State) (w : Word) (ok : Bool) (pkg : List Byte) (a : _), a = ((fun (st : Nat) => s.setFld Reg.MGT_RECOV_CTL Fd.MGT_RECOV_CTL_STATUS st) 0).runPackage 0 { bytes := pkg, device := 0, retries := 0 } ∧ (Fd.MGT_RECOV_CTL_GO.get w ≠ 0 ∧ s.fld Reg.MGT_STATUS Fd.MGT_STATUS_RECOVERY ≠ 0 ∧ s.fld Reg.MGT_STATUS Fd.MGT_STATUS_FW_RUN ≠ 1) ∧ ¬ (8192 ≤ s.fld Reg.MGT_RECOV_SIZE Fd.MGT_RECOV_SIZE_SIZE ∧ s.fld Reg.MGT_RECOV_SIZE Fd.MGT_RECOV_SIZE_SIZE ≤ 16777216 ∧ (s.rd Reg.MGT_RECOV_ADDR_LO).toNat % 4096 = 0)) ∧
    (∃ (s : State) (w : Word) (ok : Bool) (pkg : List Byte) (a : _), a = ((fun (st : Nat) => s.setFld Reg.MGT_RECOV_CTL Fd.MGT_RECOV_CTL_STATUS st) 0).runPackage 0 { bytes := pkg, device := 0, retries := 0 } ∧ ok = false ∧ (Fd.MGT_RECOV_CTL_GO.get w ≠ 0 ∧ s.fld Reg.MGT_STATUS Fd.MGT_STATUS_RECOVERY ≠ 0 ∧ s.fld Reg.MGT_STATUS Fd.MGT_STATUS_FW_RUN ≠ 1) ∧ (8192 ≤ s.fld Reg.MGT_RECOV_SIZE Fd.MGT_RECOV_SIZE_SIZE ∧ s.fld Reg.MGT_RECOV_SIZE Fd.MGT_RECOV_SIZE_SIZE ≤ 16777216 ∧ (s.rd Reg.MGT_RECOV_ADDR_LO).toNat % 4096 = 0)) ∧
    (∃ (s : State) (w : Word) (ok : Bool) (pkg : List Byte) (a : _), a = ((fun (st : Nat) => s.setFld Reg.MGT_RECOV_CTL Fd.MGT_RECOV_CTL_STATUS st) 0).runPackage 0 { bytes := pkg, device := 0, retries := 0 } ∧ ok = true ∧ (Fd.MGT_RECOV_CTL_GO.get w ≠ 0 ∧ s.fld Reg.MGT_STATUS Fd.MGT_STATUS_RECOVERY ≠ 0 ∧ s.fld Reg.MGT_STATUS Fd.MGT_STATUS_FW_RUN ≠ 1) ∧ (8192 ≤ s.fld Reg.MGT_RECOV_SIZE Fd.MGT_RECOV_SIZE_SIZE ∧ s.fld Reg.MGT_RECOV_SIZE Fd.MGT_RECOV_SIZE_SIZE ≤ 16777216 ∧ (s.rd Reg.MGT_RECOV_ADDR_LO).toNat % 4096 = 0)) ∧
    (∃ (s : State) (w : Word) (ok : Bool) (pkg : List Byte) (a : _), a = ((fun (st : Nat) => s.setFld Reg.MGT_RECOV_CTL Fd.MGT_RECOV_CTL_STATUS st) 0).runPackage 0 { bytes := pkg, device := 0, retries := 0 } ∧ ¬ (Fd.MGT_RECOV_CTL_GO.get w ≠ 0 ∧ s.fld Reg.MGT_STATUS Fd.MGT_STATUS_RECOVERY ≠ 0 ∧ s.fld Reg.MGT_STATUS Fd.MGT_STATUS_FW_RUN ≠ 1)) ∧
    (∃ (s : State) (cause : Fin 4) (sram : Bool) (unread : BitVec 2) (ts : _) (u : _), ts = s.lastMinute s.mgt.wdog ∧ u = (({ s with mgt := { s.mgt with wdog := ts } } : State).cntMgt 0 1).coresReset ∧ cause.val ≠ 0 ∧ s.fwRuns = true ∧ ts.length < 4) ∧
    (∃ (s : State) (cause : Fin 4) (sram : Bool) (unread : BitVec 2) (ts : _) (u : _), ts = s.lastMinute s.mgt.wdog ∧ u = (({ s with mgt := { s.mgt with wdog := ts } } : State).cntMgt 0 1).coresReset ∧ cause.val ≠ 0 ∧ s.fwRuns = true ∧ 4 ≤ ts.length) ∧
    (∃ (s : State) (cause : Fin 4) (sram : Bool) (unread : BitVec 2) (ts : _) (u : _), ts = s.lastMinute s.mgt.wdog ∧ u = (({ s with mgt := { s.mgt with wdog := ts } } : State).cntMgt 0 1).coresReset ∧ (cause.val = 0 ∨ s.fwRuns = false)) ∧
    (∃ (s : State) (cause : Fin 4), cause.val ≠ 0 ∧ s.core3Runs = true) ∧
    (∃ (s : State) (cause : Fin 4), (cause.val = 0 ∨ s.core3Runs = false)) :=
  ⟨⟨recovS.setFld Reg.MGT_RECOV_SIZE Fd.MGT_RECOV_SIZE_SIZE 8191, Fd.MGT_RECOV_CTL_GO.put 0 1, true, [], _, rfl, by decide +kernel⟩,
   ⟨recovS, Fd.MGT_RECOV_CTL_GO.put 0 1, _, [], _, rfl, rfl, by decide +kernel⟩,
   ⟨recovS, Fd.MGT_RECOV_CTL_GO.put 0 1, _, [], _, rfl, rfl, by decide +kernel⟩,
   ⟨onS, 0, true, [], _, rfl, by decide +kernel⟩,
   ⟨wdogS [7, 8], 3, true, 3, _, _, rfl, rfl, by decide +kernel⟩,
   ⟨wdogS [7, 8, 9], 3, true, 3, _, _, rfl, rfl, by decide +kernel⟩,
   ⟨State.reset, 3, true, 0, _, _, rfl, rfl, by decide +kernel⟩,
   ⟨onS, 3, by decide +kernel⟩,
   ⟨onS, 0, by decide +kernel⟩⟩

theorem witness_TheCoresBoot_2 :
    (∃ (s : State) (a : _), a = ((s.setFld Reg.CRS_CLK_STATUS Fd.CRS_CLK_STATUS_MGT_LOCK 0).raise Ev.CRS_CLOCK 0x100 1 0).coresReset.core3Reset ∧ s.fld Reg.CRS_CLK_STATUS Fd.CRS_CLK_STATUS_MGT_LOCK ≠ 0) ∧
    (∃ (s : State) (a : _), a = ((s.setFld Reg.CRS_CLK_STATUS Fd.CRS_CLK_STATUS_MGT_LOCK 0).raise Ev.CRS_CLOCK 0x100 1 0).coresReset.core3Reset ∧ s.fld Reg.CRS_CLK_STATUS Fd.CRS_CLK_STATUS_MGT_LOCK = 0) ∧
    (∃ (s : State) (a : _), a = (s.setFld Reg.CRS_CLK_STATUS Fd.CRS_CLK_STATUS_MGT_LOCK 1).satFld Reg.CRS_CLK_LOSS Fd.CRS_CLK_LOSS_MGT_RELOCKS 1 ∧ s.mgt.coresDown = true) ∧
    (∃ (s : State) (a : _), a = (s.setFld Reg.CRS_CLK_STATUS Fd.CRS_CLK_STATUS_MGT_LOCK 1).satFld Reg.CRS_CLK_LOSS Fd.CRS_CLK_LOSS_MGT_RELOCKS 1 ∧ s.mgt.coresDown = false) ∧
    (∃ (s : State) (fail : BitVec 4) (a : _), a = s.resetReleased.setFld Reg.HBM_STATUS Fd.HBM_STATUS_READY (15 - fail.toNat) ∧ s.crs.dead = false ∧ s.flag Reg.CRS_STATUS Fd.CRS_STATUS_HBM_READY = false) ∧
    (∃ (s : State) (fail : BitVec 4) (a : _), a = s.resetReleased.setFld Reg.HBM_STATUS Fd.HBM_STATUS_READY (15 - fail.toNat) ∧ (s.crs.dead = true ∨ s.flag Reg.CRS_STATUS Fd.CRS_STATUS_HBM_READY = true)) ∧
    (∃ s : State, s.crs.dead = true ∨ s.mgt.bootStep ≠ 0) ∧
    (∃ s : State, s.crs.dead = false ∧ s.mgt.bootStep = 0) :=
  ⟨⟨onS.setFld Reg.CRS_CLK_STATUS Fd.CRS_CLK_STATUS_MGT_LOCK 1, _, rfl, by decide +kernel⟩,
   ⟨onS.setFld Reg.CRS_CLK_STATUS Fd.CRS_CLK_STATUS_MGT_LOCK 0, _, rfl, by decide +kernel⟩,
   ⟨{ onS with mgt := { onS.mgt with coresDown := true } }, _, rfl, by decide +kernel⟩,
   ⟨onS, _, rfl, by decide +kernel⟩,
   ⟨State.reset, 8, _, rfl, by decide +kernel⟩,
   ⟨onS.setFld Reg.CRS_STATUS Fd.CRS_STATUS_HBM_READY 1, 8, _, rfl, by decide +kernel⟩,
   ⟨{ State.reset with mgt := { State.reset.mgt with bootStep := 9 } }, by decide +kernel⟩,
   ⟨{ State.reset with crs := { State.reset.crs with dead := false }, mgt := { State.reset.mgt with bootStep := 0 } }, by decide +kernel⟩⟩

theorem witness_RequestsToManagementAreAnswered_1 :
    (∃ (s : State) (w : Word) (commit : _), commit = Fd.MGT_ITK_CTL_COMMIT.get w ∧ commit = 0) ∧
    (∃ (s : State) (w : Word) (commit : _), commit = Fd.MGT_ITK_CTL_COMMIT.get w ∧ commit ≠ 0 ∧ s.locked = true) ∧
    (∃ (s : State) (w : Word) (commit : _), commit = Fd.MGT_ITK_CTL_COMMIT.get w ∧ (allZero (s.itkData.take 8) = false ∧ ¬ (∃ j, j < 8 ∧ j ≠ s.fld Reg.MGT_ITK_SEL Fd.MGT_ITK_SEL_SLOT ∧ s.itkEntry j ≠ [] ∧ (s.itkEntry j).take 8 = s.itkData.take 8)) ∧ commit ≠ 0 ∧ s.locked = false) ∧
    (∃ (s : State) (w : Word) (commit : _), commit = Fd.MGT_ITK_CTL_COMMIT.get w ∧ ¬ (allZero (s.itkData.take 8) = false ∧ ¬ (∃ j, j < 8 ∧ j ≠ s.fld Reg.MGT_ITK_SEL Fd.MGT_ITK_SEL_SLOT ∧ s.itkEntry j ≠ [] ∧ (s.itkEntry j).take 8 = s.itkData.take 8)) ∧ commit ≠ 0 ∧ s.locked = false) ∧
    (∃ (s : State) (w : Word) (clear : _), clear = Fd.MGT_ITK_CTL_CLEAR.get w ∧ clear = 0) ∧
    (∃ (s : State) (w : Word) (clear : _), clear = Fd.MGT_ITK_CTL_CLEAR.get w ∧ clear ≠ 0 ∧ s.locked = false) ∧
    (∃ (s : State) (w : Word) (commit : _) (clear : _), commit = Fd.MGT_ITK_CTL_COMMIT.get w ∧ clear = Fd.MGT_ITK_CTL_CLEAR.get w ∧ clear ≠ 0 ∧ s.locked = true ∧ commit = 1) ∧
    (∃ (s : State) (w : Word) (commit : _) (clear : _), commit = Fd.MGT_ITK_CTL_COMMIT.get w ∧ clear = Fd.MGT_ITK_CTL_CLEAR.get w ∧ clear ≠ 0 ∧ s.locked = true ∧ commit ≠ 1) ∧
    (∃ (s : State) (smb : Bool) (good : Bool) (size : Nat), ((if smb then s.flag Reg.MGT_SMB_CFG Fd.MGT_SMB_CFG_ENABLE else s.crs.linkUp) = true) ∧ (good = true ∧ size ≤ 4096 ∧ s.fwRuns = true)) ∧
    (∃ (s : State) (smb : Bool) (good : Bool) (size : Nat), ((if smb then s.flag Reg.MGT_SMB_CFG Fd.MGT_SMB_CFG_ENABLE else s.crs.linkUp) = true) ∧ (good = true ∧ size ≤ 4096 ∧ s.fwRuns = true)) ∧
    (∃ (s : State) (smb : Bool) (good : Bool) (size : Nat), ((if smb then s.flag Reg.MGT_SMB_CFG Fd.MGT_SMB_CFG_ENABLE else s.crs.linkUp) = true) ∧ ¬ (good = true ∧ size ≤ 4096 ∧ s.fwRuns = true)) ∧
    (∃ (s : State) (smb : Bool) (good : Bool) (size : Nat), ¬ ((if smb then s.flag Reg.MGT_SMB_CFG Fd.MGT_SMB_CFG_ENABLE else s.crs.linkUp) = true)) ∧
    (∃ (s : State) (t : Nat) (v : Nat) (u : _) (q : SpdmReq), u = s.cntMgt 2 1 ∧ v ≠ 0x12 ∧ v ≠ 0x13 ∧ q ≠ .getVersion) ∧
    (∃ (s : State) (t : Nat) (v : Nat) (u : _), u = s.cntMgt 2 1 ∧ (v = 0x12 ∨ v = 0x13)) ∧
    (∃ (s : State) (t : Nat) (v : Nat) (u : _) (slot : _), u = s.cntMgt 2 1 ∧ (v = 0x12 ∨ v = 0x13) ∧ slot ≠ 0) :=
  ⟨⟨onS, 0, _, rfl, by decide +kernel⟩,
   ⟨lockedS, Fd.MGT_ITK_CTL_COMMIT.put 0 1, _, rfl, by decide +kernel⟩,
   ⟨itkS, Fd.MGT_ITK_CTL_COMMIT.put 0 1, _, rfl, by decide +kernel, by decide +kernel⟩,
   ⟨onS, Fd.MGT_ITK_CTL_COMMIT.put 0 1, _, rfl, by decide +kernel, by decide +kernel⟩,
   ⟨onS, 0, _, rfl, by decide +kernel⟩,
   ⟨onS, Fd.MGT_ITK_CTL_CLEAR.put 0 1, _, rfl, by decide +kernel⟩,
   ⟨lockedS, Fd.MGT_ITK_CTL_CLEAR.put (Fd.MGT_ITK_CTL_COMMIT.put 0 1) 1, _, _, rfl, rfl, by decide +kernel⟩,
   ⟨lockedS, Fd.MGT_ITK_CTL_CLEAR.put 0 1, _, _, rfl, rfl, by decide +kernel⟩,
   ⟨linkS, false, true, 4096, by decide +kernel⟩,
   ⟨linkS, false, true, 4096, by decide +kernel⟩,
   ⟨linkS, false, true, 4097, by decide +kernel⟩,
   ⟨{ onS with crs := { onS.crs with linkUp := false } }, false, true, 0, by decide +kernel⟩,
   ⟨onS, 1, 0x11, _, .getCapabilities, rfl, by decide +kernel⟩,
   ⟨onS, 1, 0x12, _, rfl, by decide +kernel⟩,
   ⟨onS, 1, 0x13, _, 1, rfl, by decide +kernel⟩⟩

theorem witness_RequestsToManagementAreAnswered_2 :
    (∃ (s : State) (t : Nat) (v : Nat) (u : _), u = s.cntMgt 2 1 ∧ (v = 0x12 ∨ v = 0x13)) ∧
    (∃ (s : State) (t : Nat) (v : Nat) (u : _) (slot : _), u = s.cntMgt 2 1 ∧ (v = 0x12 ∨ v = 0x13) ∧ slot ≠ 0) ∧
    (∃ (s : State) (t : Nat) (v : Nat) (u : _) (i : _), u = s.cntMgt 2 1 ∧ (v = 0x12 ∨ v = 0x13) ∧ ((1 ≤ i ∧ i ≤ 9) ∨ i = 0xFF)) ∧
    (∃ (s : State) (t : Nat) (v : Nat) (u : _) (i : _), u = s.cntMgt 2 1 ∧ (v = 0x12 ∨ v = 0x13) ∧ ¬ ((1 ≤ i ∧ i ≤ 9) ∨ i = 0xFF)) ∧
    (∃ (s : State) (t : Nat) (v : Nat) (u : _), u = s.cntMgt 2 1 ∧ (v = 0x12 ∨ v = 0x13) ∧ 8 ≤ u.mgt.sessions.length) ∧
    (∃ (s : State) (t : Nat) (v : Nat) (u : _), u = s.cntMgt 2 1 ∧ (v = 0x12 ∨ v = 0x13) ∧ u.mgt.sessions.length < 8) ∧
    (∃ (s : State) (t : Nat) (v : Nat) (u : _) (id : _), u = s.cntMgt 2 1 ∧ (v = 0x12 ∨ v = 0x13) ∧ u.sessionOn t id = none) ∧
    (∃ (s : State) (t : Nat) (v : Nat) (u : _) (id : _) (x : _), u = s.cntMgt 2 1 ∧ (v = 0x12 ∨ v = 0x13) ∧ u.sessionOn t id = some x) ∧
    (∃ (s : State) (t : Nat) (u : _) (n : _), u = s.cntMgt 4 1 ∧ n ≠ 0 ∧ n ≠ 2) ∧
    (∃ (s : State) (t : Nat) (u : _) (n : _), u = s.cntMgt 4 1 ∧ n ∈ pldmSensors ∧ n < 0x200) ∧
    (∃ (s : State) (t : Nat) (u : _) (n : _), u = s.cntMgt 4 1 ∧ n ∈ pldmSensors ∧ 0x200 ≤ n) ∧
    (∃ (s : State) (t : Nat) (u : _) (n : _), u = s.cntMgt 4 1 ∧ n ∉ pldmSensors) ∧
    (∃ (s : State) (session : Nat) (x : _), s.mgt.sessions.find? (fun x => x.id == session) = some x) ∧
    (∃ (s : State) (session : Nat), s.mgt.sessions.find? (fun x => x.id == session) = none) :=
  ⟨⟨onS, 1, 0x12, _, rfl, by decide +kernel⟩,
   ⟨onS, 1, 0x13, _, 1, rfl, by decide +kernel⟩,
   ⟨onS, 1, 0x12, _, 0xFF, rfl, by decide +kernel⟩,
   ⟨onS, 1, 0x12, _, 10, rfl, by decide +kernel⟩,
   ⟨sess8S, 1, 0x13, _, rfl, by decide +kernel⟩,
   ⟨onS, 1, 0x12, _, rfl, by decide +kernel⟩,
   ⟨onS, 1, 0x12, _, 9, rfl, by decide +kernel⟩,
   ⟨sess8S, 0, 0x12, _, 9, spdmX, rfl, by decide +kernel⟩,
   ⟨onS, 1, _, 7, rfl, by decide +kernel⟩,
   ⟨onS, 1, _, 0x17F, rfl, by decide +kernel⟩,
   ⟨onS, 1, _, 0x30F, rfl, by decide +kernel⟩,
   ⟨onS, 1, _, 5, rfl, by decide +kernel⟩,
   ⟨sess8S, 9, spdmX, by decide +kernel⟩,
   ⟨onS, 9, by decide +kernel⟩⟩

theorem witness_FirmwareIsUpdated :
    (∃ (s : State) (u : State) (d : Desc) (ok : Bool) (pkg : List Byte) (failed : BitVec 2), u = s.start d ∧ s.Takes Op.FW_STAGE d ∧ ¬ (d.handle = 0 ∧ d.reservedZero [(16, 8), (24, 4)] = true ∧ d.aligned 16 4096 = true ∧ 8192 ≤ d.f 24 4 ∧ d.f 24 4 ≤ 16777216)) ∧
    (∃ (s : State) (u : State) (d : Desc) (ok : Bool) (pkg : List Byte) (failed : BitVec 2), u = s.start d ∧ s.Takes Op.FW_STAGE d ∧ (d.handle = 0 ∧ d.reservedZero [(16, 8), (24, 4)] = true ∧ d.aligned 16 4096 = true ∧ 8192 ≤ d.f 24 4 ∧ d.f 24 4 ≤ 16777216) ∧ u.fwBusy = true) ∧
    (∃ (s : State) (u : State) (d : Desc) (ok : Bool) (pkg : List Byte) (failed : BitVec 2), u = s.start d ∧ ok = false ∧ s.Takes Op.FW_STAGE d ∧ (d.handle = 0 ∧ d.reservedZero [(16, 8), (24, 4)] = true ∧ d.aligned 16 4096 = true ∧ 8192 ≤ d.f 24 4 ∧ d.f 24 4 ≤ 16777216) ∧ u.fwBusy = false) ∧
    (∃ (s : State) (u : State) (d : Desc) (ok : Bool) (pkg : List Byte) (failed : BitVec 2), u = s.start d ∧ ok = true ∧ s.Takes Op.FW_STAGE d ∧ (d.handle = 0 ∧ d.reservedZero [(16, 8), (24, 4)] = true ∧ d.aligned 16 4096 = true ∧ 8192 ≤ d.f 24 4 ∧ d.f 24 4 ≤ 16777216) ∧ u.fwBusy = false) ∧
    (∃ (s : State) (u : State) (d : Desc) (unread : BitVec 2) (mode : _) (told : _), u = s.start d ∧ mode = d.f 8 1 ∧ told = ((if u.pairHolds then u.mgtSend (.activate 2) else u)) ∧ s.Takes Op.FW_ACTIVATE d ∧ ¬ (d.handle = 0 ∧ d.reservedZero [(8, 1)] = true ∧ mode ≤ 2)) ∧
    (∃ (s : State) (u : State) (d : Desc) (unread : BitVec 2) (mode : _) (told : _), u = s.start d ∧ mode = d.f 8 1 ∧ told = ((if u.pairHolds then u.mgtSend (.activate 2) else u)) ∧ s.Takes Op.FW_ACTIVATE d ∧ (d.handle = 0 ∧ d.reservedZero [(8, 1)] = true ∧ mode ≤ 2) ∧ mode = 2 ∧ ¬ (u.fld Reg.MGT_BOOT Fd.MGT_BOOT_RUN_SLOT = (u.bootRec 0).active ∧ (u.bootRec 0).pending = 0xFF ∧ u.flag Reg.MGT_STATUS Fd.MGT_STATUS_FALLBACK = false ∧ u.flag Reg.MGT_STATUS Fd.MGT_STATUS_RECOVERY = false)) ∧
    (∃ (s : State) (u : State) (d : Desc) (unread : BitVec 2) (mode : _) (told : _), u = s.start d ∧ mode = d.f 8 1 ∧ told = ((if u.pairHolds then u.mgtSend (.activate 2) else u)) ∧ s.Takes Op.FW_ACTIVATE d ∧ (d.handle = 0 ∧ d.reservedZero [(8, 1)] = true ∧ mode ≤ 2) ∧ mode = 2 ∧ (u.fld Reg.MGT_BOOT Fd.MGT_BOOT_RUN_SLOT = (u.bootRec 0).active ∧ (u.bootRec 0).pending = 0xFF ∧ u.flag Reg.MGT_STATUS Fd.MGT_STATUS_FALLBACK = false ∧ u.flag Reg.MGT_STATUS Fd.MGT_STATUS_RECOVERY = false)) ∧
    (∃ (s : State) (u : State) (d : Desc) (unread : BitVec 2) (mode : _) (told : _), u = s.start d ∧ mode = d.f 8 1 ∧ told = ((if u.pairHolds then u.mgtSend (.activate 2) else u)) ∧ s.Takes Op.FW_ACTIVATE d ∧ (d.handle = 0 ∧ d.reservedZero [(8, 1)] = true ∧ mode ≤ 2) ∧ mode ≠ 2 ∧ u.fwBusy = true) ∧
    (∃ (s : State) (u : State) (d : Desc) (unread : BitVec 2) (mode : _) (told : _), u = s.start d ∧ mode = d.f 8 1 ∧ told = ((if u.pairHolds then u.mgtSend (.activate 2) else u)) ∧ s.Takes Op.FW_ACTIVATE d ∧ (d.handle = 0 ∧ d.reservedZero [(8, 1)] = true ∧ mode ≤ 2) ∧ mode ≠ 2 ∧ u.fwBusy = false) :=
  ⟨⟨withD onS (cmdD Op.FW_STAGE 0 [(16, 8, 4096), (24, 4, 8191)]), _, (cmdD Op.FW_STAGE 0 [(16, 8, 4096), (24, 4, 8191)]), true, [], 3, rfl, takes_of (by decide +kernel), by decide +kernel⟩,
   ⟨withD ({ onS with env := { onS.env with shutdown := some stageD } }) stageD, _, stageD, true, [], 3, rfl, takes_of (by decide +kernel), by decide +kernel⟩,
   ⟨withD onS stageD, _, stageD, _, [], 3, rfl, rfl, takes_of (by decide +kernel), by decide +kernel⟩,
   ⟨withD onS stageD, _, stageD, _, [], 3, rfl, rfl, takes_of (by decide +kernel), by decide +kernel⟩,
   ⟨withD onS (cmdD Op.FW_ACTIVATE 0 [(8, 1, 3)]), _, (cmdD Op.FW_ACTIVATE 0 [(8, 1, 3)]), 3, _, _, rfl, rfl, rfl, takes_of (by decide +kernel), by decide +kernel⟩,
   ⟨withD (onS.setFld Reg.MGT_STATUS Fd.MGT_STATUS_FALLBACK 1) (cmdD Op.FW_ACTIVATE 0 [(8, 1, 2)]), _, (cmdD Op.FW_ACTIVATE 0 [(8, 1, 2)]), 3, _, _, rfl, rfl, rfl, takes_of (by decide +kernel), by decide +kernel⟩,
   ⟨withD onS (cmdD Op.FW_ACTIVATE 0 [(8, 1, 2)]), _, (cmdD Op.FW_ACTIVATE 0 [(8, 1, 2)]), 3, _, _, rfl, rfl, rfl, takes_of (by decide +kernel), by decide +kernel⟩,
   ⟨withD ({ onS with env := { onS.env with shutdown := some stageD } }) (cmdD Op.FW_ACTIVATE 0 [(8, 1, 1)]), _, (cmdD Op.FW_ACTIVATE 0 [(8, 1, 1)]), 3, _, _, rfl, rfl, rfl, takes_of (by decide +kernel), by decide +kernel⟩,
   ⟨withD onS (cmdD Op.FW_ACTIVATE 0 [(8, 1, 1)]), _, (cmdD Op.FW_ACTIVATE 0 [(8, 1, 1)]), 3, _, _, rfl, rfl, rfl, takes_of (by decide +kernel), by decide +kernel⟩⟩

theorem witness_ResetsAndClocksAct_1 :
    (∃ (s : State) (w : Word), (Fd.CRS_CHIP_RESET_KEY.get w = 0xC5A5 ∧ Fd.CRS_CHIP_RESET_GO.get w = 1)) ∧
    (∃ (s : State) (w : Word), ¬ (Fd.CRS_CHIP_RESET_KEY.get w = 0xC5A5 ∧ Fd.CRS_CHIP_RESET_GO.get w = 1)) ∧
    (∃ (s : State) (w : Word), (s.itn.stopped = true ∧ s.itn.dumpDue = 1 ∧ s.core3Runs = true ∧ ∃ t, s.env.highTick = some t ∧ s.msSince t (s.fld1 Reg.ENV_DUMP_TIMING Fd.ENV_DUMP_TIMING_RESTORE_MS) = true)) ∧
    (∃ (s : State) (w : Word), ¬ (s.itn.stopped = true ∧ s.itn.dumpDue = 1 ∧ s.core3Runs = true ∧ ∃ t, s.env.highTick = some t ∧ s.msSince t (s.fld1 Reg.ENV_DUMP_TIMING Fd.ENV_DUMP_TIMING_RESTORE_MS) = true)) ∧
    (∃ (s : State) (sup : Fin 2), s.flag Reg.CRS_STATUS Fd.CRS_STATUS_MON_ARMED = true) ∧
    (∃ (s : State) (sup : Fin 2), s.flag Reg.CRS_STATUS Fd.CRS_STATUS_MON_ARMED = false) ∧
    (∃ (s : State), s.crs.dead = false ∧ s.crs.auxLost = false) ∧
    (∃ (s : State), (s.crs.dead = true ∨ s.crs.auxLost = true)) ∧
    (∃ (s : State), s.crs.auxLost = true) ∧
    (∃ (s : State), s.crs.auxLost = false) ∧
    (∃ (s : State) (dom : Fin 8) (i : Fin 8), (4 ≤ dom.val ∧ natBit (s.fld Reg.CRS_CLK_STATUS (clockField dom)) i = false) ∧ dom.val ≠ 7) ∧
    (∃ (s : State) (dom : Fin 8) (i : Fin 8), (4 ≤ dom.val ∧ natBit (s.fld Reg.CRS_CLK_STATUS (clockField dom)) i = false) ∧ dom.val = 7) ∧
    (∃ (s : State) (dom : Fin 8) (i : Fin 8), ¬ (4 ≤ dom.val ∧ natBit (s.fld Reg.CRS_CLK_STATUS (clockField dom)) i = false)) :=
  ⟨⟨onS, Fd.CRS_CHIP_RESET_KEY.put 0 0xC5A5 + Fd.CRS_CHIP_RESET_GO.put 0 1, by decide +kernel⟩,
   ⟨onS, 0, by decide +kernel⟩,
   ⟨backS, 0, ⟨by decide +kernel, by decide +kernel, by decide +kernel, 0, by decide +kernel, by decide +kernel⟩⟩,
   ⟨onS, 0, fun h => absurd h.1 (by decide +kernel)⟩,
   ⟨onS.setFld Reg.CRS_STATUS Fd.CRS_STATUS_MON_ARMED 1, 1, by decide +kernel⟩,
   ⟨onS.setFld Reg.CRS_STATUS Fd.CRS_STATUS_MON_ARMED 0, 1, by decide +kernel⟩,
   ⟨onS, by decide +kernel⟩,
   ⟨{ onS with crs := { onS.crs with auxLost := true } }, by decide +kernel⟩,
   ⟨{ onS with crs := { onS.crs with auxLost := true } }, by decide +kernel⟩,
   ⟨onS, by decide +kernel⟩,
   ⟨onS.setFld Reg.CRS_CLK_STATUS Fd.CRS_CLK_STATUS_NET_REF 0, 4, 3, by decide +kernel⟩,
   ⟨onS.setFld Reg.CRS_CLK_STATUS Fd.CRS_CLK_STATUS_CH_REF 0, 7, 0, by decide +kernel⟩,
   ⟨onS, 3, 0, by decide +kernel⟩⟩

theorem witness_ResetsAndClocksAct_2 :
    (∃ (s : State) (k : Fin 12) (x : _), x = s.cluChk k ∧ (s.cluState k = cluReset ∧ s.msSince x.since 1 = true) ∧ (x.cause = 5 ∧ natBit (s.fld Reg.CIP_ALARM Fd.CIP_ALARM_ARRAY) k = true)) ∧
    (∃ (s : State) (k : Fin 12) (x : _), x = s.cluChk k ∧ (s.cluState k = cluReset ∧ s.msSince x.since 1 = true) ∧ ¬ (x.cause = 5 ∧ natBit (s.fld Reg.CIP_ALARM Fd.CIP_ALARM_ARRAY) k = true)) ∧
    (∃ (s : State) (k : Fin 12) (x : _), x = s.cluChk k ∧ ¬ (s.cluState k = cluReset ∧ s.msSince x.since 1 = true)) ∧
    (∃ (s : State) (k : Fin 12) (x : _) (step : Fin 7), x = s.cluChk k ∧ s.cluState k ≠ cluChecking) ∧
    (∃ (s : State) (k : Fin 12) (x : _) (step : Fin 7), x = s.cluChk k ∧ s.cluState k = cluChecking ∧ step.val ≠ 0 ∧ s.msSince x.since 200 = true) ∧
    (∃ (s : State) (k : Fin 12) (x : _) (step : Fin 7), x = s.cluChk k ∧ (s.cluState k ≠ cluChecking ∨ step.val = 0 ∨ s.msSince x.since 200 = false)) ∧
    (∃ (s : State) (k : Fin 12) (x : _) (w : _), x = s.cluChk k ∧ (Fd.CRS_CLU_CTL_RETEST.get w = 1 ∧ (s.cluState k = cluPassed ∨ s.cluState k = cluFailed))) ∧
    (∃ (s : State) (k : Fin 12) (x : _) (w : _), x = s.cluChk k ∧ ¬ (Fd.CRS_CLU_CTL_RETEST.get w = 1 ∧ (s.cluState k = cluPassed ∨ s.cluState k = cluFailed))) ∧
    (∃ (s : State) (k : Nat) (step : Nat) (x : _), x = s.cluChk k ∧ s.cluState k = cluChecking ∧ step ≠ 0) ∧
    (∃ (s : State) (k : Nat) (step : Nat) (x : _), x = s.cluChk k ∧ (s.cluState k = cluReset ∨ s.cluState k = cluWaitClear)) ∧
    (∃ (s : State) (k : Nat) (step : Nat) (x : _), x = s.cluChk k ∧ s.cluState k = cluReset) ∧
    (∃ (s : State) (k : Nat) (step : Nat) (x : _), x = s.cluChk k ∧ (s.cluState k = cluPassed ∨ s.cluState k = cluFailed)) ∧
    (∃ (s : State) (k : Nat) (step : Nat) (x : _), x = s.cluChk k ∧ s.cluState k = cluInService) :=
  ⟨⟨(cluS cluReset 5).setFld Reg.CIP_ALARM Fd.CIP_ALARM_ARRAY 2048, 11, _, rfl, by decide +kernel⟩,
   ⟨cluS cluReset 1, 11, _, rfl, by decide +kernel⟩,
   ⟨onS, 11, _, rfl, by decide +kernel⟩,
   ⟨onS, 11, _, 6, rfl, by decide +kernel⟩,
   ⟨cluS cluChecking 1, 11, _, 6, rfl, by decide +kernel⟩,
   ⟨onS, 11, _, 0, rfl, by decide +kernel⟩,
   ⟨cluS cluFailed 1, 11, _, Fd.CRS_CLU_CTL_RETEST.put 0 1, rfl, by decide +kernel⟩,
   ⟨onS, 11, _, 0, rfl, by decide +kernel⟩,
   ⟨cluS cluChecking 1, 11, 6, _, rfl, by decide +kernel⟩,
   ⟨cluS cluWaitClear 1, 11, 6, _, rfl, by decide +kernel⟩,
   ⟨cluS cluReset 1, 11, 6, _, rfl, by decide +kernel⟩,
   ⟨cluS cluPassed 1, 11, 6, _, rfl, by decide +kernel⟩,
   ⟨cluS cluInService 1, 11, 6, _, rfl, by decide +kernel⟩⟩

theorem witness_FaultsAreHandled_1 :
    (∃ (s : State) (k : Fin 12) (cause : Fin 8) (engine : Fin 8) (unit : Fin 16) (r : _), r = Reg.ITN_FAULT_CAUSE k ∧ cause.val = 0) ∧
    (∃ (s : State) (k : Fin 12) (cause : Fin 8) (engine : Fin 8) (unit : Fin 16) (r : _), r = Reg.ITN_FAULT_CAUSE k ∧ cause.val ≠ 0 ∧ cause.val ≠ 6 ∧ s.flag r Fd.ITN_FAULT_CAUSE_VALID = true) ∧
    (∃ (s : State) (k : Fin 12) (cause : Fin 8) (engine : Fin 8) (unit : Fin 16) (r : _), r = Reg.ITN_FAULT_CAUSE k ∧ cause.val ≠ 0 ∧ cause.val ≠ 6 ∧ s.flag r Fd.ITN_FAULT_CAUSE_VALID = false) ∧
    (∃ (s : State) (k : Fin 12) (cause : Fin 8) (engine : Fin 8) (unit : Fin 16) (r : _), r = Reg.ITN_FAULT_CAUSE k ∧ cause.val = 6) ∧
    (∃ (s : State) (p : Fin 16) (cause : Fin 4) (ref : Bool) (u : _) (a : _), u = ((if ref then s.clockSet 4 (p.val / 4) false else s)) ∧ a = (u.setFld (Reg.MAC_STATUS p) Fd.MAC_STATUS_LOST 1).setFld (Reg.MAC_STATUS p) Fd.MAC_STATUS_LOST_CAUSE cause ∧ (cause.val ≠ 0 ∧ (cause.val = 2 → u.fld (Reg.MAC_CTL p) Fd.MAC_CTL_ENABLE ≠ 0)) ∧ u.portLost p = false) ∧
    (∃ (s : State) (p : Fin 16) (cause : Fin 4) (ref : Bool) (u : _) (a : _), u = ((if ref then s.clockSet 4 (p.val / 4) false else s)) ∧ a = (u.setFld (Reg.MAC_STATUS p) Fd.MAC_STATUS_LOST 1).setFld (Reg.MAC_STATUS p) Fd.MAC_STATUS_LOST_CAUSE cause ∧ (¬ (cause.val ≠ 0 ∧ (cause.val = 2 → u.fld (Reg.MAC_CTL p) Fd.MAC_CTL_ENABLE ≠ 0)) ∨ u.portLost p = true)) ∧
    (∃ (s : State) (n : Fin 4) (cause : Fin 4) (a : _) (b : _) (e : _), a = s.setFld Reg.HBM_STATUS Fd.HBM_STATUS_LOST (setNatBit (s.fld Reg.HBM_STATUS Fd.HBM_STATUS_LOST) n true) ∧ b = a.setFld Reg.HBM_STATUS Fd.HBM_STATUS_LOST_CAUSE (a.fld Reg.HBM_STATUS Fd.HBM_STATUS_LOST_CAUSE + cause * 4 ^ n.val) ∧ e = ((if cause.val = 1 then b.clockSet 3 n false else b)) ∧ ((cause.val = 1 ∨ cause.val = 2) ∧ s.stackLost n = false)) ∧
    (∃ (s : State) (n : Fin 4) (cause : Fin 4) (a : _) (b : _) (e : _), a = s.setFld Reg.HBM_STATUS Fd.HBM_STATUS_LOST (setNatBit (s.fld Reg.HBM_STATUS Fd.HBM_STATUS_LOST) n true) ∧ b = a.setFld Reg.HBM_STATUS Fd.HBM_STATUS_LOST_CAUSE (a.fld Reg.HBM_STATUS Fd.HBM_STATUS_LOST_CAUSE + cause * 4 ^ n.val) ∧ e = ((if cause.val = 1 then b.clockSet 3 n false else b)) ∧ ¬ ((cause.val = 1 ∨ cause.val = 2) ∧ s.stackLost n = false)) ∧
    (∃ (s : State) (u : State) (n : Fin 4), u = s.satFld (Reg.HBM_ECC n) Fd.HBM_ECC_UNCORR 1 ∧ u.stackLost n = true) :=
  ⟨⟨onS, 11, 0, 7, 15, _, rfl, by decide +kernel⟩,
   ⟨onS.setFld (Reg.ITN_FAULT_CAUSE 11) Fd.ITN_FAULT_CAUSE_VALID 1, 11, 7, 7, 15, _, rfl, by decide +kernel⟩,
   ⟨onS, 11, 7, 7, 15, _, rfl, by decide +kernel⟩,
   ⟨onS, 11, 6, 7, 15, _, rfl, by decide +kernel⟩,
   ⟨onS.setFld (Reg.MAC_CTL 15) Fd.MAC_CTL_ENABLE 1, 15, 2, false, _, _, rfl, rfl, by decide +kernel⟩,
   ⟨onS, 15, 0, false, _, _, rfl, rfl, by decide +kernel⟩,
   ⟨onS, 3, 2, _, _, _, rfl, rfl, rfl, by decide +kernel⟩,
   ⟨onS, 3, 0, _, _, _, rfl, rfl, rfl, by decide +kernel⟩,
   ⟨onS.setFld Reg.HBM_STATUS Fd.HBM_STATUS_LOST 8, _, 3, rfl, by decide +kernel⟩⟩

theorem witness_FaultsAreHandled_2 :
    (∃ (s : State) (u : State) (n : Fin 4), u = s.satFld (Reg.HBM_ECC n) Fd.HBM_ECC_UNCORR 1 ∧ u.stackLost n = false) ∧
    (∃ (s : State) (u : State) (n : Fin 4), u = s.satFld (Reg.HBM_ECC n) Fd.HBM_ECC_UNCORR 1 ∧ u.stackLost n = false) ∧
    (∃ (s : State) (u : State) (area : Fin 5) (index : Word), u = (s.cntSwc 15 1).raise Ev.SWC_ECC_UNCORR area index.toNat 0) ∧
    (∃ (s : State) (u : State) (area : Fin 5) (index : Word), u = (s.cntSwc 15 1).raise Ev.SWC_ECC_UNCORR area index.toNat 0) ∧
    (∃ (s : State) (src : Fin 8), (src.val = 0 ∨ 5 < src.val)) ∧
    (∃ (s : State) (src : Fin 8), src.val ≠ 0 ∧ src.val ≤ 5 ∧ s.itn.dumpDue ≠ 0) ∧
    (∃ (s : State) (src : Fin 8), src.val ≠ 0 ∧ src.val ≤ 5 ∧ s.itn.dumpDue = 0 ∧ s.straps.pairEn = true) ∧
    (∃ (s : State) (src : Fin 8), src.val ≠ 0 ∧ src.val ≤ 5 ∧ s.itn.dumpDue = 0 ∧ s.straps.pairEn = false ∧ s.itn.stopped = false) ∧
    (∃ (s : State) (src : Fin 8), src.val ≠ 0 ∧ src.val ≤ 5 ∧ s.itn.dumpDue = 0 ∧ s.straps.pairEn = false ∧ s.itn.stopped = true) :=
  ⟨⟨onS, _, 3, rfl, by decide +kernel⟩,
   ⟨onS, _, 3, rfl, by decide +kernel⟩,
   ⟨onS, _, 4, 0, rfl⟩,
   ⟨onS, _, 4, 0, rfl⟩,
   ⟨onS, 6, by decide +kernel⟩,
   ⟨{ onS with itn := { onS.itn with dumpDue := 1 } }, 5, by decide +kernel⟩,
   ⟨{ onS with straps := { onS.straps with pairEn := true } }, 5, by decide +kernel⟩,
   ⟨onS, 5, by decide +kernel⟩,
   ⟨{ onS with itn := { onS.itn with stopped := true } }, 5, by decide +kernel⟩⟩

theorem witness_TelemetryIsKept_1 :
    (∃ (s : State), ¬ (s.atSeam = true ∧ s.itn.tick % 256 = 255 ∧ s.itn.running = true ∧ s.tel.latchTick ≠ some s.now)) ∧
    (∃ (s : State) (n : _), n = s.fld Reg.TEL_DUMP_CTL Fd.TEL_DUMP_CTL_INTERVAL ∧ (s.atSeam = true ∧ s.itn.tick % 256 = 255 ∧ s.itn.running = true ∧ s.tel.latchTick ≠ some s.now) ∧ (n = 0 ∨ s.dumping = true)) ∧
    (∃ (s : State) (n : _), n = s.fld Reg.TEL_DUMP_CTL Fd.TEL_DUMP_CTL_INTERVAL ∧ (s.atSeam = true ∧ s.itn.tick % 256 = 255 ∧ s.itn.running = true ∧ s.tel.latchTick ≠ some s.now) ∧ n ≠ 0 ∧ s.dumping = false ∧ (s.tel.cycles + 1) % n ≠ 0) ∧
    (∃ (s : State) (n : _), n = s.fld Reg.TEL_DUMP_CTL Fd.TEL_DUMP_CTL_INTERVAL ∧ (s.atSeam = true ∧ s.itn.tick % 256 = 255 ∧ s.itn.running = true ∧ s.tel.latchTick ≠ some s.now) ∧ n ≠ 0 ∧ s.dumping = false ∧ (s.tel.cycles + 1) % n = 0 ∧ s.tel.snaps.length ≤ 1) ∧
    (∃ (s : State) (n : _), n = s.fld Reg.TEL_DUMP_CTL Fd.TEL_DUMP_CTL_INTERVAL ∧ (s.atSeam = true ∧ s.itn.tick % 256 = 255 ∧ s.itn.running = true ∧ s.tel.latchTick ≠ some s.now) ∧ n ≠ 0 ∧ s.dumping = false ∧ (s.tel.cycles + 1) % n = 0 ∧ 2 ≤ s.tel.snaps.length) ∧
    (∃ (s : State) (ok : Bool), ¬ (s.tel.snaps ≠ [] ∧ s.flag Reg.TEL_STATUS Fd.TEL_STATUS_DUMPING = true)) ∧
    (∃ (s : State) (ok : Bool) (x : _) (xs : _), ok = true ∧ s.tel.snaps = x :: xs ∧ (s.tel.snaps ≠ [] ∧ s.flag Reg.TEL_STATUS Fd.TEL_STATUS_DUMPING = true)) ∧
    (∃ (s : State) (ok : Bool) (x : _) (xs : _), ok = false ∧ s.tel.snaps = x :: xs ∧ (s.tel.snaps ≠ [] ∧ s.flag Reg.TEL_STATUS Fd.TEL_STATUS_DUMPING = true)) ∧
    (∃ (s : State), (s.core3Runs = false ∨ s.dumping = true)) ∧
    (∃ (s : State) (v : _), v = s.logSuppressed ∧ s.core3Runs = true ∧ s.dumping = false ∧ v.tel.errQ = []) ∧
    (∃ (s : State) (v : _) (h : _) (q : _), v = s.logSuppressed ∧ s.core3Runs = true ∧ s.dumping = false ∧ v.tel.errQ = h :: q ∧ freeOfCredit.contains h.ev.code = true) :=
  ⟨⟨onS, by decide +kernel⟩,
   ⟨atS ((latchS 2 []).setFld Reg.TEL_DUMP_CTL Fd.TEL_DUMP_CTL_INTERVAL 0), _, rfl, by decide +kernel⟩,
   ⟨atS (latchS 1 []), _, rfl, by decide +kernel⟩,
   ⟨atS (latchS 3 [snapX]), _, rfl, by decide +kernel⟩,
   ⟨atS (latchS 3 [snapX, snapX]), _, rfl, by decide +kernel⟩,
   ⟨onS, true, by decide +kernel⟩,
   ⟨(latchS 3 [snapX]).setFld Reg.TEL_STATUS Fd.TEL_STATUS_DUMPING 1, _, snapX, [], rfl, by decide +kernel⟩,
   ⟨(latchS 3 [snapX]).setFld Reg.TEL_STATUS Fd.TEL_STATUS_DUMPING 1, _, snapX, [], rfl, by decide +kernel⟩,
   ⟨{ onS with mgt := { onS.mgt with core3Down := true } }, by decide +kernel⟩,
   ⟨onS, _, rfl, by decide +kernel⟩,
   ⟨logS Ev.CIP_ALARM 0, _, histH Ev.CIP_ALARM, [], rfl, by decide +kernel⟩⟩

theorem witness_TelemetryIsKept_2 :
    (∃ (s : State) (v : _) (h : _) (q : _), v = s.logSuppressed ∧ s.core3Runs = true ∧ s.dumping = false ∧ v.tel.errQ = h :: q ∧ freeOfCredit.contains h.ev.code = false ∧ v.tel.credit ≠ 0) ∧
    (∃ (s : State) (v : _) (h : _) (q : _), v = s.logSuppressed ∧ s.core3Runs = true ∧ s.dumping = false ∧ v.tel.errQ = h :: q ∧ freeOfCredit.contains h.ev.code = false ∧ v.tel.credit = 0) ∧
    (∃ (s : State) (u : State) (d : Desc) (dumps : _) (tags : _), u = s.start d ∧ dumps = natBit (d.f 8 1) 0 ∧ tags = natBit (d.f 8 1) 1 ∧ s.Takes Op.TEL_CONFIG d ∧ ¬ (d.handle = 0 ∧ d.reservedZero [(8, 32)] = true ∧ 1 ≤ d.f 8 1 ∧ d.f 8 1 ≤ 3 ∧ d.f 11 1 ≤ 7 ∧ d.f 32 2 % 2 = 0 ∧ (dumps = true → d.dumpSetOk = true) ∧ (tags = true → d.tagSetOk = true))) ∧
    (∃ (s : State) (u : State) (d : Desc) (dumps : _) (tags : _), u = s.start d ∧ dumps = natBit (d.f 8 1) 0 ∧ tags = natBit (d.f 8 1) 1 ∧ s.Takes Op.TEL_CONFIG d ∧ (d.handle = 0 ∧ d.reservedZero [(8, 32)] = true ∧ 1 ≤ d.f 8 1 ∧ d.f 8 1 ≤ 3 ∧ d.f 11 1 ≤ 7 ∧ d.f 32 2 % 2 = 0 ∧ (dumps = true → d.dumpSetOk = true) ∧ (tags = true → d.tagSetOk = true)) ∧ ¬ (tags = true → u.isStandby = true → d.ring = 255)) ∧
    (∃ (s : State) (u : State) (d : Desc) (dumps : _) (tags : _), u = s.start d ∧ dumps = natBit (d.f 8 1) 0 ∧ tags = natBit (d.f 8 1) 1 ∧ s.Takes Op.TEL_CONFIG d ∧ (d.handle = 0 ∧ d.reservedZero [(8, 32)] = true ∧ 1 ≤ d.f 8 1 ∧ d.f 8 1 ≤ 3 ∧ d.f 11 1 ≤ 7 ∧ d.f 32 2 % 2 = 0 ∧ (dumps = true → d.dumpSetOk = true) ∧ (tags = true → d.tagSetOk = true)) ∧ (tags = true → u.isStandby = true → d.ring = 255) ∧ ¬ (dumps = true → 64 + blocksLen (snapGroups (d.f 32 2) (natBit (d.f 11 1) 1)) ≤ d.f 24 4)) ∧
    (∃ (s : State) (u : State) (d : Desc) (dumps : _) (tags : _), u = s.start d ∧ dumps = natBit (d.f 8 1) 0 ∧ tags = natBit (d.f 8 1) 1 ∧ s.Takes Op.TEL_CONFIG d ∧ (d.handle = 0 ∧ d.reservedZero [(8, 32)] = true ∧ 1 ≤ d.f 8 1 ∧ d.f 8 1 ≤ 3 ∧ d.f 11 1 ≤ 7 ∧ d.f 32 2 % 2 = 0 ∧ (dumps = true → d.dumpSetOk = true) ∧ (tags = true → d.tagSetOk = true)) ∧ (tags = true → u.isStandby = true → d.ring = 255) ∧ (dumps = true → 64 + blocksLen (snapGroups (d.f 32 2) (natBit (d.f 11 1) 1)) ≤ d.f 24 4)) ∧
    (∃ (s : State) (u : State) (d : Desc) (ok : Bool) (log : _), u = s.start d ∧ log = d.f 8 1 ∧ s.Takes Op.LOG_READ d ∧ ¬ (d.handle = 0 ∧ d.reservedZero [(8, 1), (9, 1), (10, 2), (16, 8), (24, 8)] = true ∧ 1 ≤ log ∧ log ≤ 5 ∧ (log ≠ 5 → d.f 9 1 = 0) ∧ d.f 9 1 ≤ 15 ∧ d.f 24 8 % 64 = 0)) ∧
    (∃ (s : State) (u : State) (d : Desc) (ok : Bool) (log : _), u = s.start d ∧ log = d.f 8 1 ∧ s.Takes Op.LOG_READ d ∧ (d.handle = 0 ∧ d.reservedZero [(8, 1), (9, 1), (10, 2), (16, 8), (24, 8)] = true ∧ 1 ≤ log ∧ log ≤ 5 ∧ (log ≠ 5 → d.f 9 1 = 0) ∧ d.f 9 1 ≤ 15 ∧ d.f 24 8 % 64 = 0) ∧ ¬ (1 ≤ d.f 10 2 ∧ d.f 10 2 ≤ 4096)) ∧
    (∃ (s : State) (u : State) (d : Desc) (ok : Bool) (log : _), u = s.start d ∧ log = d.f 8 1 ∧ s.Takes Op.LOG_READ d ∧ (d.handle = 0 ∧ d.reservedZero [(8, 1), (9, 1), (10, 2), (16, 8), (24, 8)] = true ∧ 1 ≤ log ∧ log ≤ 5 ∧ (log ≠ 5 → d.f 9 1 = 0) ∧ d.f 9 1 ≤ 15 ∧ d.f 24 8 % 64 = 0) ∧ (1 ≤ d.f 10 2 ∧ d.f 10 2 ≤ 4096) ∧ ¬ (log = 5 → (u.pool (d.f 9 1)).st ≠ 0)) ∧
    (∃ (s : State) (u : State) (d : Desc) (ok : Bool) (log : _), u = s.start d ∧ log = d.f 8 1 ∧ ok = false ∧ s.Takes Op.LOG_READ d ∧ (d.handle = 0 ∧ d.reservedZero [(8, 1), (9, 1), (10, 2), (16, 8), (24, 8)] = true ∧ 1 ≤ log ∧ log ≤ 5 ∧ (log ≠ 5 → d.f 9 1 = 0) ∧ d.f 9 1 ≤ 15 ∧ d.f 24 8 % 64 = 0) ∧ (1 ≤ d.f 10 2 ∧ d.f 10 2 ≤ 4096) ∧ (log = 5 → (u.pool (d.f 9 1)).st ≠ 0)) ∧
    (∃ (s : State) (u : State) (d : Desc) (ok : Bool) (log : _), u = s.start d ∧ log = d.f 8 1 ∧ ok = true ∧ s.Takes Op.LOG_READ d ∧ (d.handle = 0 ∧ d.reservedZero [(8, 1), (9, 1), (10, 2), (16, 8), (24, 8)] = true ∧ 1 ≤ log ∧ log ≤ 5 ∧ (log ≠ 5 → d.f 9 1 = 0) ∧ d.f 9 1 ≤ 15 ∧ d.f 24 8 % 64 = 0) ∧ (1 ≤ d.f 10 2 ∧ d.f 10 2 ≤ 4096) ∧ (log = 5 → (u.pool (d.f 9 1)).st ≠ 0)) :=
  ⟨⟨logS Ev.MAC_LINK_DOWN 1, _, histH Ev.MAC_LINK_DOWN, [], rfl, by decide +kernel⟩,
   ⟨logS Ev.MAC_LINK_DOWN 0, _, histH Ev.MAC_LINK_DOWN, [], rfl, by decide +kernel⟩,
   ⟨withD onS (cmdD Op.TEL_CONFIG 0 []), _, (cmdD Op.TEL_CONFIG 0 []), _, _, rfl, rfl, rfl, takes_of (by decide +kernel), by decide +kernel⟩,
   ⟨withD ({ (pairS pairIdle fun p => p) with now := 10 }) (cmdD Op.TEL_CONFIG 0 [(8, 1, 2), (9, 1, 24), (10, 1, 2), (36, 4, 1)]), _, (cmdD Op.TEL_CONFIG 0 [(8, 1, 2), (9, 1, 24), (10, 1, 2), (36, 4, 1)]), _, _, rfl, rfl, rfl, takes_of (by decide +kernel), by decide +kernel⟩,
   ⟨withD onS (cmdD Op.TEL_CONFIG 0 [(8, 1, 1), (11, 1, 7), (16, 8, 4096), (24, 4, 65536), (28, 2, 2), (34, 2, 1), (32, 2, 65534)]), _, (cmdD Op.TEL_CONFIG 0 [(8, 1, 1), (11, 1, 7), (16, 8, 4096), (24, 4, 65536), (28, 2, 2), (34, 2, 1), (32, 2, 65534)]), _, _, rfl, rfl, rfl, takes_of (by decide +kernel), by decide +kernel⟩,
   ⟨withD onS (cmdD Op.TEL_CONFIG 0 [(8, 1, 1), (11, 1, 7), (16, 8, 4096), (24, 4, 268435456), (28, 2, 1024), (34, 2, 1), (32, 2, 2)]), _, (cmdD Op.TEL_CONFIG 0 [(8, 1, 1), (11, 1, 7), (16, 8, 4096), (24, 4, 268435456), (28, 2, 1024), (34, 2, 1), (32, 2, 2)]), _, _, rfl, rfl, rfl, takes_of (by decide +kernel), by decide +kernel⟩,
   ⟨withD onS (cmdD Op.LOG_READ 0 []), _, (cmdD Op.LOG_READ 0 []), true, _, rfl, rfl, takes_of (by decide +kernel), by decide +kernel⟩,
   ⟨withD onS (cmdD Op.LOG_READ 0 [(8, 1, 1), (10, 2, 4097), (24, 8, 64)]), _, (cmdD Op.LOG_READ 0 [(8, 1, 1), (10, 2, 4097), (24, 8, 64)]), true, _, rfl, rfl, takes_of (by decide +kernel), by decide +kernel⟩,
   ⟨withD onS (cmdD Op.LOG_READ 0 [(8, 1, 5), (9, 1, 15), (10, 2, 4096), (24, 8, 64)]), _, (cmdD Op.LOG_READ 0 [(8, 1, 5), (9, 1, 15), (10, 2, 4096), (24, 8, 64)]), true, _, rfl, rfl, takes_of (by decide +kernel), by decide +kernel⟩,
   ⟨withD ({ poolS with now := 0 }) (cmdD Op.LOG_READ 0 [(8, 1, 5), (10, 2, 1), (24, 8, 64)]), _, (cmdD Op.LOG_READ 0 [(8, 1, 5), (10, 2, 1), (24, 8, 64)]), _, _, rfl, rfl, rfl, takes_of (by decide +kernel), by decide +kernel⟩,
   ⟨withD onS (cmdD Op.LOG_READ 0 [(8, 1, 1), (10, 2, 4096), (24, 8, 64)]), _, (cmdD Op.LOG_READ 0 [(8, 1, 1), (10, 2, 4096), (24, 8, 64)]), _, _, rfl, rfl, rfl, takes_of (by decide +kernel), by decide +kernel⟩⟩

theorem witness_CounterWordsAreLatched :
    (∃ (s : State) (off : Nat), (off = Reg.ITN_TICK_LO ∨ off = Reg.PAIR_TICK_LO) ∧ s.mgtReady = true ∧ Tab.rising s.hst.latched = true) :=
  ⟨onS, Reg.PAIR_TICK_LO, by decide +kernel⟩

theorem witness_UnconsumedEntriesShow :
    (∃ (s : State) (k : _), s.mgtReady = true ∧ k < 32) ∧
    (∃ (s : State) (off : _), s.mgtReady = true ∧ (off = Reg.GLB_IRQ_CPL_LO ∨ off = Reg.GLB_IRQ_CPL_HI ∨ off = Reg.GLB_IRQ_EVT) ∧ Tab.rd (fun _ => none) s.hst.latched off = none) :=
  ⟨⟨onS, 31, by decide +kernel⟩,
   ⟨onS, Reg.GLB_IRQ_EVT, by decide +kernel⟩⟩

theorem witness_FecDegradationFollowsTheWindow :
    (∃ (s : State) (u : State) (m : Fin 128) (corr : Word) (uncorr : Word), u = (((s.satFld (Reg.MAC_LP_FEC_CORR m) wordFld corr.toNat).cntMac m 9 corr.toNat).satFld (Reg.MAC_LP_FEC_UNCORR m) wordFld uncorr.toNat).cntMac m 10 uncorr.toNat ∧ s.Inv ∧ 0 < u.fld (Reg.MAC_LP_FEC_THR m) Fd.MAC_LP_FEC_THR_THR ∧ u.fld (Reg.MAC_LP_FEC_THR m) Fd.MAC_LP_FEC_THR_THR ≤ uncorr.toNat ∧ u.fld (Reg.MAC_LP_STATUS m) Fd.MAC_LP_STATUS_FEC_DEGRADED = 0) ∧
    (∃ (s : State) (u : State) (m : Fin 128) (corr : Word) (uncorr : Word), u = (((s.satFld (Reg.MAC_LP_FEC_CORR m) wordFld corr.toNat).cntMac m 9 corr.toNat).satFld (Reg.MAC_LP_FEC_UNCORR m) wordFld uncorr.toNat).cntMac m 10 uncorr.toNat ∧ s.Inv ∧ 0 < u.fld (Reg.MAC_LP_FEC_THR m) Fd.MAC_LP_FEC_THR_THR ∧ u.fld (Reg.MAC_LP_FEC_THR m) Fd.MAC_LP_FEC_THR_THR ≤ uncorr.toNat ∧ u.fld (Reg.MAC_LP_STATUS m) Fd.MAC_LP_STATUS_FEC_DEGRADED = 1) ∧
    (∃ (s : State) (u : State) (m : Fin 128) (corr : Word) (uncorr : Word), u = (((s.satFld (Reg.MAC_LP_FEC_CORR m) wordFld corr.toNat).cntMac m 9 corr.toNat).satFld (Reg.MAC_LP_FEC_UNCORR m) wordFld uncorr.toNat).cntMac m 10 uncorr.toNat ∧ s.Inv ∧ (uncorr.toNat < u.fld (Reg.MAC_LP_FEC_THR m) Fd.MAC_LP_FEC_THR_THR ∨ u.fld (Reg.MAC_LP_FEC_THR m) Fd.MAC_LP_FEC_THR_THR = 0)) :=
  ⟨⟨fecS 5 0, _, 127, 0, 5, rfl, inv_of (by decide +kernel), by decide +kernel⟩,
   ⟨fecS 5 1, _, 127, 0, 5, rfl, inv_of (by decide +kernel), by decide +kernel⟩,
   ⟨fecS 5 1, _, 127, 0, 4, rfl, inv_of (by decide +kernel), by decide +kernel⟩⟩

theorem witness_ASeamRunsItsPhases :
    (∃ (s : State), s.crs.dead = true) ∧
    (∃ (s : State), s.crs.dead = false) ∧
    (∃ (s : State), s.joinHold = true) ∧
    (∃ (s : State), s.joinHold = false) ∧
    (∃ (s : State), s.pair.recordDone = true ∧ s.isStandby = true) ∧
    (∃ (s : State), (s.pair.recordDone = false ∨ s.isStandby = false)) :=
  ⟨⟨{ onS with crs := { onS.crs with dead := true } }, by decide +kernel⟩,
   ⟨onS, by decide +kernel⟩,
   ⟨holdS, by decide +kernel⟩,
   ⟨onS, by decide +kernel⟩,
   ⟨standbyS, by decide +kernel⟩,
   ⟨onS, by decide +kernel⟩⟩

/-! ## Ill-formed commands are refused -/

theorem wf_imageCopyComplete : (Instr.imageCopyComplete true false [0]).wf = false := by decide
theorem wf_descriptorFetch : (Instr.descriptorFetch 0 (List.replicate 63 0)).wf = false := by decide
theorem wf_nop : (Instr.nop 0 []).wf = false := by decide
theorem wf_hostAdd : (Instr.hostAdd true [0x61]).wf = false := by decide
theorem wf_keyLoad : (Instr.keyLoad true (List.replicate 70 0)).wf = false := by decide
theorem wf_poolCreate : (Instr.poolCreate true []).wf = false := by decide
theorem wf_fwStage : (Instr.fwStage false [0] 0).wf = false := by decide
theorem wf_frameHeaderLookup : (Instr.frameHeaderLookup 0 (List.replicate 13 0) 0).wf = false := by decide
theorem wf_pfcFrameReceive : (Instr.pfcFrameReceive 0 1 [0, 0, 0, 0, 0, 0, 0]).wf = false := by decide
theorem wf_pfcFrameReceive_quanta : (Instr.pfcFrameReceive 0 1 [65536, 0, 0, 0, 0, 0, 0, 0]).wf = false := by decide
theorem wf_macAgeOut : (Instr.macAgeOut 1 [2, 0, 0, 0, 0]).wf = false := by decide
theorem wf_chkSwDone : (Instr.chkSwDone 0 false [0]).wf = false := by decide
theorem wf_driveDmaAccess_write : (Instr.driveDmaAccess 0 0 true [0] 2).wf = false := by decide
theorem wf_driveDmaAccess_read : (Instr.driveDmaAccess 0 0 false [0] 1).wf = false := by decide
theorem wf_bayEvaluation : (Instr.bayEvaluation 0 0 []).wf = false := by decide
theorem wf_fanLoopStep : (Instr.fanLoopStep { therms := [], die := 0, pulses := List.replicate 12 0 }).wf = false := by decide
theorem wf_keyxReceive : (Instr.keyxReceive (List.replicate 15 0)).wf = false := by decide
theorem wf_ingressFrameReceive : (Instr.ingressFrameReceive []).wf = false := by decide
theorem wf_recordApply : (Instr.recordApply [List.replicate 32 0, List.replicate 31 0]).wf = false := by decide
theorem wf_statusFrameReceive : (Instr.statusFrameReceive [] 0).wf = false := by decide
theorem wf_mgtFrameReceive : (Instr.mgtFrameReceive [] 0 0).wf = false := by decide
theorem wf_joinFrameReceive : (Instr.joinFrameReceive []).wf = false := by decide
theorem wf_resendFrameReceive : (Instr.resendFrameReceive []).wf = false := by decide
theorem wf_recoveryGo : (Instr.recoveryGo 1 false [0]).wf = false := by decide

/-! ## Worked examples of the specification -/

/-- The nine characters "123456789" of 11 Table 11-12. -/
def digits : List Byte := [0x31, 0x32, 0x33, 0x34, 0x35, 0x36, 0x37, 0x38, 0x39]

theorem test_crc32c_check_value : crc32c digits = 0xE3069283 := by decide +kernel
theorem test_crc16_check_value : crc16 digits = 0xD0DB := by decide +kernel
theorem test_crc64_check_value : crc64 digits = 0xAE8B14860A799888 := by decide +kernel

/-- 11 Table 11-13: T1 from T0, where bit 127 is set, and T2 from T1, where it is not. -/
theorem test_tweak_reduces : mulAlpha [0x3A, 0x8F, 0x01, 0xC2, 0x55, 0x7E, 0x90, 0x1B, 0x64, 0xD3, 0x0F, 0xA8, 0x27, 0xE1, 0x4C, 0x96]
    = [0xF3, 0x1E, 0x03, 0x84, 0xAB, 0xFC, 0x20, 0x37, 0xC8, 0xA6, 0x1F, 0x50, 0x4F, 0xC2, 0x99, 0x2C] := by decide +kernel
theorem test_tweak_shifts : mulAlpha [0xF3, 0x1E, 0x03, 0x84, 0xAB, 0xFC, 0x20, 0x37, 0xC8, 0xA6, 0x1F, 0x50, 0x4F, 0xC2, 0x99, 0x2C]
    = [0xE6, 0x3D, 0x06, 0x08, 0x57, 0xF9, 0x41, 0x6E, 0x90, 0x4D, 0x3F, 0xA0, 0x9E, 0x84, 0x33, 0x59] := by decide +kernel

/-- 09 Table 9-8: the data bytes of one offset of a row of a 6+2 stripe, each as a unit that repeats it. -/
def row62 : List (Nat × List Byte) :=
  [(0, 0x4B), (1, 0x7E), (2, 0x13), (3, 0xA9), (4, 0x5C), (5, 0xE0)].map fun (e : Nat × Byte) => (e.1, List.replicate unitBytes e.2)

theorem test_parity_P : (sumP row62).take 1 = [0x33] := by decide +kernel
theorem test_parity_Q : (sumQ row62).take 1 = [0x22] := by decide +kernel

/-- 09, double recovery: D1 and D4 are found from the survivors, P and Q. -/
theorem test_parity_double_recovery :
    (rowData 6 ((row62.filter fun e => e.1 != 1 && e.1 != 4)
      ++ [(6, List.replicate unitBytes 0x33), (7, List.replicate unitBytes 0x22)])).map (fun r => (r.filter fun e => e.1 == 1 || e.1 == 4).map
        fun e => (e.1, e.2.take 1)) = some [(1, [0x7E]), (4, [0x5C])] := by decide +kernel

/-- 09, the declustered pool of "placing a unit": N = 11, k = 3, one spare, a strip of 64 KiB, DUMP_GIB 2. -/
def declustered : Pool := { Pool.reset with st := 2, layout := 1, k := 3, n := 11, spare := 1, shift := 16, dump := 2, frames := 1000000 }

theorem test_place_unit : declustered.place 1330 = (27, 2, 2) := by decide +kernel
theorem test_place_member : declustered.memberAt (declustered.frameOf 27) (declustered.stripPos 27 2) = 5 ∧
    declustered.posOf 13 5 = 7 ∧ declustered.lba 13 2 = 786642 := by decide +kernel
theorem test_place_slab : declustered.slabStripes = 1366 ∧ declustered.slabUnits * 4096 = 268566528 := by decide +kernel
/-- Member 5 has failed: its strip of frame 13 goes to member 0. -/
theorem test_place_spare : declustered.spareOf [5] 13 5 = some 0 := by decide +kernel

/-- 05 Table 5-11: QP 5 uses profile 0 at its reset values. -/
def ccS (rate grad lastQ : Nat) (hold : Nat) : State :=
  netS.setQp 5 { Qp.reset with st := .rts, rate := rate, baseRtt := 6000, baseSet := 1, lastQ := lastQ, grad := grad, cnpHold := hold }

theorem test_cc_first_sample : (((ccS 40000 200 2000 0).rateUpdate 5 12000).qp 5).rate = 31625 ∧
    (((ccS 40000 200 2000 0).rateUpdate 5 12000).qp 5).grad = 675 := by decide +kernel
theorem test_cc_cnp : (({ ccS 31625 675 6000 0 with now := 101 }.cnpIn 5).qp 5).rate = 23718 ∧
    (({ ccS 31625 675 6000 0 with now := 101 }.cnpIn 5).qp 5).cnpHold = 151 := by decide +kernel
theorem test_cc_second_sample : (((ccS 23718 675 6000 151).rateUpdate 5 9000).qp 5).rate = 23077 ∧
    (((ccS 23718 675 6000 151).rateUpdate 5 9000).qp 5).grad = 216 := by decide +kernel

/-- 19 Table 19-4: the lock is refused before the event ring is enabled. -/
def unreadyS : State :=
  let s := onS.setRingState 0 ringRunning
  { s with itn := { s.itn with running := true } }

theorem test_lock_refused : (unreadyS.lockWrite 1).readReg Reg.GLB_LOCK = 0x00020000 := by decide +kernel
theorem test_lock_set : (readyS.lockWrite 1).readReg Reg.GLB_LOCK = 0x80000000 := by
  rw [State.lockWrite, if_neg (by decide +kernel), readyS_free]
  decide +kernel

/-- 19 Table 19-3: word 0 of lot "K7Q2MA". -/
theorem test_chip_id_word0 : charWord [0x4B, 0x37, 0x51, 0x32, 0x4D, 0x41] 0 = 0x3251374B := by decide +kernel

/-- 13 Table 13-9: the increments of the curve of bay 113, and DEC. -/
theorem test_curve_increments : (List.map (fun t => ceilDiv curveFull (8 * t)) [15625, 1563, 157, 16, 1563]) = [135, 1342, 13358, 131072, 1342] := by
  decide +kernel
/-- 13 Table 13-10, e11: 3,400 mA lies in the band of point 0. -/
theorem test_curve_band : curveStep [(3000, 15625), (5000, 1563), (8000, 157), (12000, 16)] 1563 3400 0 = 135 ∧
    curveStep [(3000, 15625), (5000, 1563), (8000, 157), (12000, 16)] 1563 1900 135 = 0 := by decide +kernel

/-- 14, "sizing the bank": a pool of 128 members, 20,000 journal slots at the peak. -/
def bankS : State :=
  let s := (((((onS.setFld Reg.ENV_DUMP_RATE Fd.ENV_DUMP_RATE_RATE 5000).setFld Reg.ENV_DUMP_RATE Fd.ENV_DUMP_RATE_WLAT 2000).setFld
    Reg.ENV_DUMP_TIMING Fd.ENV_DUMP_TIMING_FLUSH_US 2000).setFld Reg.ENV_DUMP_TIMING Fd.ENV_DUMP_TIMING_PF_FILTER 2).setFld
    Reg.LAY_DIRTY_EFF Fd.LAY_DIRTY_EFF_LINES 4194304).setFld Reg.ENV_HOLD_CFG Fd.ENV_HOLD_CFG_MARGIN 20
  let s := ((s.setFld Reg.ENV_HOLD_V Fd.ENV_HOLD_V_V_MIN 8000).setFld Reg.ENV_HOLD_CFG Fd.ENV_HOLD_CFG_C_MF 5000).setFld
    Reg.ENV_HOLD_CFG Fd.ENV_HOLD_CFG_EFF 85
  let s := s.setFld Reg.ENV_HOLD_STATUS Fd.ENV_HOLD_STATUS_V 16000
  { s with
    lay := { s.lay with pools := [(0, { Pool.reset with st := 2, n := 128, slots := (List.range 128).map fun b => { Slot.reset with st := .present, bay := b } })] }
    env := { s.env with journal := [(0, 20000)] } }

theorem test_hold_time : bankS.tHold = 36000 := by decide +kernel
theorem test_hold_energy_available : bankS.eAvail = 408000 := by decide +kernel

end Sys2Proof.Tests
end

/-! ## Reads of the words of a 64-bit counter (00 R11) -/

namespace Sys2Proof.Machine

open Sys2Proof

variable {s : State} {off : Nat}

/-! ### What the two words of a counter show -/

@[simp] theorem State.view_itnTickLo (s : State) : s.view Reg.ITN_TICK_LO = [(wordFld, s.itn.tick)] := rfl

@[simp] theorem State.view_itnTickHi (s : State) : s.view Reg.ITN_TICK_HI = [(wordFld, s.itn.tick / 4294967296)] := rfl

@[simp] theorem State.view_pairTickLo (s : State) : s.view Reg.PAIR_TICK_LO = [(wordFld, s.pairTick)] := rfl

@[simp] theorem State.view_pairTickHi (s : State) : s.view Reg.PAIR_TICK_HI = [(wordFld, s.pairTick / 4294967296)] := rfl

/-- A register whose view is one whole word reads as that word, whatever the register file holds. -/
theorem State.readReg_wholeWord (ready : s.mgtReady = true) (below : off < doorbellBase) (listed : (regAt off).isNone = false) {v : Nat}
    (shown : s.view off = [(wordFld, v)]) : (s.readReg off).toNat = v % 4294967296 := by
  rw [State.readReg_ready s ready off below listed, shown]
  exact put_word (s.rd off) v

/-- The words of ITN_TICK are the low and the high half of the tick counter. -/
theorem State.readReg_itnTick (ready : s.mgtReady = true) :
    (s.readReg Reg.ITN_TICK_LO).toNat = s.itn.tick % 4294967296 ∧
    (s.readReg Reg.ITN_TICK_HI).toNat = s.itn.tick / 4294967296 % 4294967296 :=
  ⟨State.readReg_wholeWord ready (by decide) (by decide +kernel) s.view_itnTickLo,
   State.readReg_wholeWord ready (by decide) (by decide +kernel) s.view_itnTickHi⟩

/-- The words of PAIR_TICK are the low and the high half of the last complete tick. -/
theorem State.readReg_pairTick (ready : s.mgtReady = true) :
    (s.readReg Reg.PAIR_TICK_LO).toNat = s.pairTick % 4294967296 ∧
    (s.readReg Reg.PAIR_TICK_HI).toNat = s.pairTick / 4294967296 % 4294967296 :=
  ⟨State.readReg_wholeWord ready (by decide) (by decide +kernel) s.view_pairTickLo,
   State.readReg_wholeWord ready (by decide) (by decide +kernel) s.view_pairTickHi⟩

/-! ### Reads that latch and reads of a latched word -/

/-- The state with the word `w` latched for the next read of `off`; none when no word is. -/
def State.setLatch (s : State) (off : Nat) (w : Option Word) : State :=
  { s with hst := { s.hst with latched := Tab.wr (fun _ => none) s.hst.latched off w } }

theorem State.latched_setLatch (rising : Tab.rising s.hst.latched = true) (off : Nat) (w : Option Word) :
    Tab.rd (fun _ => none) (s.setLatch off w).hst.latched off = w := Tab.rd_wr_same rising

/-- COUNTER_LOW_READ of a counter's low word returns it and latches the high word. -/
theorem exec_counterLowRead_low (low : counterLow.contains off = true) :
    exec (.counterLowRead ⟨off, 4⟩) s = .next ((s.setLatch (off + 4) (some (s.readReg (off + 4)))).emit (.regRead off (s.readReg off))) := by
  show Host.Outcome.next (s.readOut off) = _
  rw [State.readOut, State.read32, if_pos low]
  rfl

/-- A read of a word that is latched returns the latched word and uses it up. -/
theorem exec_registerReadClear_latched (notLow : counterLow.contains off = false) {w : Word}
    (latched : Tab.rd (fun _ => none) s.hst.latched off = some w) :
    exec (.registerReadClear ⟨off, 4⟩) s = .next ((s.setLatch off none).emit (.regRead off w)) := by
  show Host.Outcome.next (s.readOut off) = _
  rw [State.readOut, State.read32, if_neg (Bool.eq_false_iff.mp notLow), latched]
  rfl

/-- After a read of a counter's low word, any state that still holds the latched words answers a read of the high word with the value it had
when the low word was read. -/
theorem exec_highRead_after_lowRead (low : counterLow.contains off = true) (notLow : counterLow.contains (off + 4) = false)
    (rising : Tab.rising s.hst.latched = true) :
    ∃ t, exec (.counterLowRead ⟨off, 4⟩) s = .next t ∧ t.out = .regRead off (s.readReg off) :: s.out
      ∧ ∀ x : State, x.hst.latched = t.hst.latched →
          ∃ y, exec (.registerReadClear ⟨off + 4, 4⟩) x = .next y ∧ y.out = .regRead (off + 4) (s.readReg (off + 4)) :: x.out := by
  refine ⟨_, exec_counterLowRead_low low, rfl, fun x kept => ?_⟩
  have latched : Tab.rd (fun _ => none) x.hst.latched (off + 4) = some (s.readReg (off + 4)) := by
    rw [kept]
    exact State.latched_setLatch rising _ _
  exact ⟨_, exec_registerReadClear_latched notLow latched, rfl⟩

/-- Settles O57: each of the two counters shows its halves in its two words, and the high half that a read of the low word latches is what the next
read of the high word returns. -/
theorem counterWordsAreLatched : Obligations.CounterWordsAreLatched := by
  unfold Obligations.CounterWordsAreLatched
  rintro s off (rfl | rfl) ready rising
  · exact ⟨⟨s.itn.tick, fun _ => rfl, fun h => absurd h (by decide), State.readReg_itnTick ready⟩,
      exec_highRead_after_lowRead (by decide) (by decide) rising⟩
  · exact ⟨⟨s.pairTick, fun h => absurd h (by decide), fun _ => rfl, State.readReg_pairTick ready⟩,
      exec_highRead_after_lowRead (by decide) (by decide) rising⟩

end Sys2Proof.Machine

/-! ## The setup lock (19 R542, R543) -/

namespace Sys2Proof.Machine

open Sys2Proof

variable {s : State} {w : Word}

/-! ### The checks of a request -/

/-- The conditions of R542 in their order, each with the code that REFUSED records when it is the first to fail. -/
theorem State.lockRefusal_eq (s : State) :
    s.lockRefusal = if s.itn.running = false then some 1
      else if s.ringState 0 ≠ ringRunning ∨ s.ringState evtRing ≠ ringRunning then some 2
      else if s.treeFault ≠ none then some 3 else none := by
  cases image : s.itn.running
  · simp [State.lockRefusal, firstFail, image]
  by_cases rings : s.ringState 0 = ringRunning ∧ s.ringState evtRing = ringRunning
  · cases tree : s.treeFault <;> simp [State.lockRefusal, firstFail, image, rings, tree]
  · have refused : s.ringState 0 ≠ ringRunning ∨ s.ringState evtRing ≠ ringRunning := Decidable.not_and_iff_not_or_not.mp rings
    simp [State.lockRefusal, firstFail, image, rings, refused]

/-- A code of REFUSED fits its field. -/
theorem State.lockRefusal_lt {c : Nat} (refused : s.lockRefusal = some c) : c < 16 := by
  rw [State.lockRefusal_eq] at refused
  split_ifs at refused <;> cases refused <;> decide

/-! ### What a write of GLB_LOCK does -/

/-- TMG_STATUS names the node `fault` of an invalid shaping tree; without one it stays as it is (07 R214). -/
def State.noteTree (s : State) : Option Nat → State
  | some n => (s.setFld Reg.TMG_STATUS Fd.TMG_STATUS_TREE_ERR 1).setFld Reg.TMG_STATUS Fd.TMG_STATUS_TREE_NODE n
  | none => s

theorem State.rd_noteTree_ne {o : Nat} (other : o ≠ Reg.TMG_STATUS) (s : State) : ∀ fault, (s.noteTree fault).rd o = s.rd o
  | some _ => by rw [State.noteTree, State.rd_setFld_ne other, State.rd_setFld_ne other]
  | none => rfl

theorem State.noteTree_rest (s : State) : ∀ fault, s.noteTree fault = { s with regs := (s.noteTree fault).regs }
  | some _ => rfl
  | none => rfl

theorem State.lockWrite_ignored (idle : Fd.GLB_LOCK_SET.get w = 0 ∨ s.locked = true) : s.lockWrite w = s := if_pos idle

/-- SET written as 1 while the lock is open is a request that R542 checks, not a write without effect. -/
theorem State.not_lockWrite_idle (opened : s.locked = false) (set : Fd.GLB_LOCK_SET.get w = 1) :
    ¬ (Fd.GLB_LOCK_SET.get w = 0 ∨ s.locked = true) := by
  simp [opened, set]

theorem State.lockWrite_locks (opened : s.locked = false) (set : Fd.GLB_LOCK_SET.get w = 1) (free : s.lockRefusal = none) :
    s.lockWrite w = { (s.setFld Reg.GLB_LOCK Fd.GLB_LOCK_REFUSED 0).setFld Reg.GLB_LOCK Fd.GLB_LOCK_LOCKED 1 with
      mgt := { s.mgt with meas6Due := true } } := by
  rw [State.lockWrite, if_neg (State.not_lockWrite_idle opened set), free]
  rfl

theorem State.lockWrite_refuses {c : Nat} (opened : s.locked = false) (set : Fd.GLB_LOCK_SET.get w = 1) (refused : s.lockRefusal = some c) :
    let coded := s.setFld Reg.GLB_LOCK Fd.GLB_LOCK_REFUSED c
    s.lockWrite w = coded.noteTree (if c = 3 then coded.treeFault else none) := by
  intro coded
  rw [State.lockWrite, if_neg (State.not_lockWrite_idle opened set), refused]
  rfl

/-! ### The states that a request leaves -/

theorem exec_glbLockSet (s : State) (w : Word) : exec (.glbLockSet w) s = .next (s.lockWrite w) := rfl

/-- A request that passes every check sets LOCKED, clears REFUSED, makes measurement 6 due, and changes nothing else. -/
theorem exec_glbLockSet_locks (inv : s.Inv) (opened : s.locked = false) (set : Fd.GLB_LOCK_SET.get w = 1) (free : s.lockRefusal = none) :
    ∃ t, exec (.glbLockSet w) s = .next t ∧ t.locked = true ∧ t.fld Reg.GLB_LOCK Fd.GLB_LOCK_REFUSED = 0 ∧ t.mgt.meas6Due = true
      ∧ (∀ o, o ≠ Reg.GLB_LOCK → t.rd o = s.rd o) ∧ t = { s with regs := t.regs, mgt := { s.mgt with meas6Due := true } } := by
  let cleared := s.setFld Reg.GLB_LOCK Fd.GLB_LOCK_REFUSED 0
  have wf : Tab.wf regReset cleared.regs = true := State.wf_setFld inv.regs ..
  have locked : (cleared.setFld Reg.GLB_LOCK Fd.GLB_LOCK_LOCKED 1).fld Reg.GLB_LOCK Fd.GLB_LOCK_LOCKED = 1 :=
    State.fld_setFld wf 1 (by decide)
  have noCode : (cleared.setFld Reg.GLB_LOCK Fd.GLB_LOCK_LOCKED 1).fld Reg.GLB_LOCK Fd.GLB_LOCK_REFUSED = 0 :=
    (State.fld_setFld_apart wf 1 (by decide) (by decide)).trans (State.fld_setFld inv.regs 0 (by decide))
  have rest (o : Nat) (other : o ≠ Reg.GLB_LOCK) : (cleared.setFld Reg.GLB_LOCK Fd.GLB_LOCK_LOCKED 1).rd o = s.rd o :=
    (State.rd_setFld_ne other).trans (State.rd_setFld_ne other)
  exact ⟨_, (exec_glbLockSet s w).trans (congrArg _ (State.lockWrite_locks opened set free)), beq_iff_eq.mpr locked, noCode, rfl, rest, rfl⟩

/-- A request that fails a check records the code and leaves the lock open; besides GLB_LOCK it changes at most TMG_STATUS. -/
theorem exec_glbLockSet_refuses {c : Nat} (inv : s.Inv) (opened : s.locked = false) (set : Fd.GLB_LOCK_SET.get w = 1)
    (refused : s.lockRefusal = some c) :
    ∃ t, exec (.glbLockSet w) s = .next t ∧ t.locked = false ∧ t.fld Reg.GLB_LOCK Fd.GLB_LOCK_REFUSED = c
      ∧ (∀ o, o ≠ Reg.GLB_LOCK → o ≠ Reg.TMG_STATUS → t.rd o = s.rd o) ∧ t = { s with regs := t.regs } := by
  let coded := s.setFld Reg.GLB_LOCK Fd.GLB_LOCK_REFUSED c
  have written : s.lockWrite w = coded.noteTree (if c = 3 then coded.treeFault else none) := State.lockWrite_refuses opened set refused
  generalize (if c = 3 then coded.treeFault else none) = fault at written
  have lockWord : (coded.noteTree fault).rd Reg.GLB_LOCK = coded.rd Reg.GLB_LOCK := State.rd_noteTree_ne (by decide) coded fault
  have stillOpen : (coded.noteTree fault).fld Reg.GLB_LOCK Fd.GLB_LOCK_LOCKED = s.fld Reg.GLB_LOCK Fd.GLB_LOCK_LOCKED :=
    (congrArg _ lockWord).trans (State.fld_setFld_apart inv.regs c (by decide) (by decide))
  have code : (coded.noteTree fault).fld Reg.GLB_LOCK Fd.GLB_LOCK_REFUSED = c :=
    calc (coded.noteTree fault).fld Reg.GLB_LOCK Fd.GLB_LOCK_REFUSED
      _ = coded.fld Reg.GLB_LOCK Fd.GLB_LOCK_REFUSED := congrArg _ lockWord
      _ = c % 2 ^ 4 := State.fld_setFld inv.regs c (by decide)
      _ = c := Nat.mod_eq_of_lt (State.lockRefusal_lt refused)
  exact ⟨_, (exec_glbLockSet s w).trans (congrArg _ written), (congrArg (· == 1) stillOpen).trans opened, code,
    fun o notLock notTree => (State.rd_noteTree_ne notTree coded fault).trans (State.rd_setFld_ne notLock),
    coded.noteTree_rest fault⟩

/-- Settles O14: a write of GLB_LOCK either is no request, locks, or records the first failed check. -/
theorem lockSetChecksAndLocks : Obligations.LockSetChecksAndLocks := by
  unfold Obligations.LockSetChecksAndLocks
  exact ⟨fun _ _ => exec_glbLockSet_locks, fun _ _ _ => exec_glbLockSet_refuses,
    fun s w idle => (exec_glbLockSet s w).trans (congrArg _ (State.lockWrite_ignored idle)), State.lockRefusal_eq⟩

end Sys2Proof.Machine

/-! ## Interrupt causes (19 R546) -/

namespace Sys2Proof.Machine

open Sys2Proof

variable {s : State} {off : Nat}

@[simp] theorem State.view_irqCplLo (s : State) : s.view Reg.GLB_IRQ_CPL_LO = [(wordFld, s.pendingMask 0)] := rfl

@[simp] theorem State.view_irqCplHi (s : State) : s.view Reg.GLB_IRQ_CPL_HI = [(wordFld, s.pendingMask 32)] := rfl

@[simp] theorem State.view_irqEvt (s : State) : s.view Reg.GLB_IRQ_EVT =
    [(Fd.GLB_IRQ_EVT_BACKLOG, b2n (!s.hst.backlog.isEmpty)), (Fd.GLB_IRQ_EVT_PENDING, b2n (s.unconsumed evtRing))] := rfl

theorem State.natBit_pendingMask (s : State) (first : Nat) {k : Nat} (small : k < 32) :
    natBit (s.pendingMask first) k = s.unconsumed (first + k) :=
  (mask_sum (fun i => s.unconsumed (first + i)) 32).2 k small

/-- A register that shows the pending mask of the rings from `first` on reads as that mask. -/
theorem State.natBit_readReg_pendingMask (ready : s.mgtReady = true) (below : off < doorbellBase) (listed : (regAt off).isNone = false)
    {first k : Nat} (shown : s.view off = [(wordFld, s.pendingMask first)]) (small : k < 32) :
    natBit (s.readReg off).toNat k = s.unconsumed (first + k) := by
  rw [State.readReg_wholeWord ready below listed shown, bit_mod _ _ small, State.natBit_pendingMask s first small]

theorem State.irqEvt_pending (ready : s.mgtReady = true) :
    Fd.GLB_IRQ_EVT_PENDING.get (s.readReg Reg.GLB_IRQ_EVT) = b2n (s.unconsumed evtRing) := by
  rw [State.readReg_ready s ready _ (by decide) (by decide +kernel), State.view_irqEvt]
  refine (Fld.get_put _ _ _ (by decide)).trans ?_
  cases s.unconsumed evtRing <;> rfl

/-- Clearing the RC fields of a register sends nothing to the control host. -/
@[simp] theorem State.readClear_out (s : State) (off : Nat) : (s.readClear off).out = s.out := by
  rw [State.readClear]
  split
  · rfl
  · rw [State.clearFields_rest]

theorem State.read32_unlatched (notLow : counterLow.contains off = false) (unlatched : Tab.rd (fun _ => none) s.hst.latched off = none) :
    s.read32 off = (s.readReg off, if s.mgtReady || earlyBlock off then s.readClear off else s) := by
  rw [State.read32, if_neg (Bool.eq_false_iff.mp notLow), unlatched]

/-- A read of a register that is no counter's low word and has no word latched answers the register's value. -/
theorem exec_registerReadClear_unlatched (notLow : counterLow.contains off = false)
    (unlatched : Tab.rd (fun _ => none) s.hst.latched off = none) :
    ∃ t, exec (.registerReadClear ⟨off, 4⟩) s = .next t ∧ t.out = .regRead off (s.readReg off) :: s.out := by
  refine ⟨s.readOut off, rfl, ?_⟩
  have sent : (if s.mgtReady || earlyBlock off then s.readClear off else s).out = s.out := by
    split
    · exact State.readClear_out s off
    · rfl
  rw [State.readOut, State.read32_unlatched notLow unlatched]
  exact congrArg (_ :: ·) sent

/-- Settles O58: the two completion registers show the mask of unconsumed rings, and the event register the bit of the event ring. -/
theorem unconsumedEntriesShow : Obligations.UnconsumedEntriesShow := by
  unfold Obligations.UnconsumedEntriesShow
  refine fun s ready => ⟨fun k small => ⟨?_, ?_⟩, State.irqEvt_pending ready, fun off irq unlatched => ?_⟩
  · have bit := State.natBit_readReg_pendingMask ready (by decide) (by decide +kernel) s.view_irqCplLo small
    rwa [Nat.zero_add] at bit
  · exact State.natBit_readReg_pendingMask ready (by decide) (by decide +kernel) s.view_irqCplHi small
  · have notLow : counterLow.contains off = false := by rcases irq with rfl | rfl | rfl <;> decide
    exact exec_registerReadClear_unlatched notLow unlatched

end Sys2Proof.Machine

/-! ## The machine as a whole -/

namespace Sys2Proof.Machine

open Sys2Proof

/-- Settles O1: the front of the queue is the command that `step` runs. -/
theorem stepRunsTheFrontCommand : Obligations.StepRunsTheFrontCommand := by
  unfold Obligations.StepRunsTheFrontCommand
  exact fun _ _ _ => rfl

/-- Settles O2: without a command, `step` takes its first branch. -/
theorem emptyQueueIdles : Obligations.EmptyQueueIdles := by
  unfold Obligations.EmptyQueueIdles
  intro s idle
  rw [step, idle]

/-- Settles O3: nothing is listed after reset. -/
theorem resetMeetsTheInvariant : Obligations.ResetMeetsTheInvariant := by
  unfold Obligations.ResetMeetsTheInvariant
  exact ⟨rfl, Nat.zero_le _, Nat.zero_le _, Nat.zero_le _⟩

/-! ### What each command keeps -/

/-- The commands that end no tick and bring no supply up or down. -/
def inTick : Instr → Bool
  | .seam | .powerOnReset .. | .alwaysOnSupplyLoss => false
  | _ => true

/-- A command within a tick keeps what `Keeps` lists, by the lemma about its meaning. -/
theorem exec_keeps (c : Instr) (s : State) (within : inTick c = true) : OKeeps s (exec c s) := by
  cases c with
  | seam | powerOnReset | alwaysOnSupplyLoss => exact nomatch within
  | memoryLaneComplete => exact execMemoryLaneComplete_keeps s
  | cipherRequestComplete k => exact execCipherRequestComplete_keeps k s
  | parityRequestComplete k => exact execParityRequestComplete_keeps k s
  | rxParse k c => exact execRxParse_keeps k c s
  | cmdAdmit k c => exact execCmdAdmit_keeps k c s
  | lockCheck k c => exact execLockCheck_keeps k c s
  | mapXlate k c => exact execMapXlate_keeps k c s
  | cacheProbe k c => exact execCacheProbe_keeps k c s
  | drvSubmit k c => exact execDrvSubmit_keeps k c s
  | drvReap k c => exact execDrvReap_keeps k c s
  | piCheck k c => exact execPiCheck_keeps k c s
  | xferArm k c => exact execXferArm_keeps k c s
  | cplRetire k c => exact execCplRetire_keeps k c s
  | cacheFill k c => exact execCacheFill_keeps k c s
  | destageStep k c => exact execDestageStep_keeps k c s
  | parityPlan k c => exact execParityPlan_keeps k c s
  | journalPut k c => exact execJournalPut_keeps k c s
  | journalRetire k c => exact execJournalRetire_keeps k c s
  | rebuildStep k c => exact execRebuildStep_keeps k c s
  | scrubStep k c => exact execScrubStep_keeps k c s
  | resyncStep k c => exact execResyncStep_keeps k c s
  | metaFlush k c => exact execMetaFlush_keeps k c s
  | selftestStep k c => exact execSelftestStep_keeps k c s
  | adminStep k c => exact execAdminStep_keeps k c s
  | abortScan k c => exact execAbortScan_keeps k c s
  | dumpStep k => exact execDumpStep_keeps k s
  | suspendResp k c => exact execSuspendResp_keeps k c s
  | itnCtlLoad w => exact execItnCtlLoad_keeps w s
  | itnCtlSwap w => exact execItnCtlSwap_keeps w s
  | itnCtlStart w => exact execItnCtlStart_keeps w s
  | imageCopyComplete b ok bytes => exact execImageCopyComplete_keeps b ok bytes s
  | itnSwapped => exact execItnSwapped_keeps s
  | clusterFault k cause engine unit => exact execClusterFault_keeps k cause engine unit s
  | channelReturnHome c => exact execChannelReturnHome_keeps c s
  | dumpEntry => exact execDumpEntry_keeps s
  | registerWrite off size w abandoned => exact execRegisterWrite_keeps off size w abandoned s
  | registerReadClear off => exact execRegisterReadClear_keeps off s
  | counterLowRead off => exact execCounterLowRead_keeps off s
  | ringCtlEnable k w => exact execRingCtlEnable_keeps k w s
  | ringCtlDisable k w => exact execRingCtlDisable_keeps k w s
  | ringEvtCtlEnable w => exact execRingEvtCtlEnable_keeps w s
  | ringEvtCtlDisable w => exact execRingEvtCtlDisable_keeps w s
  | ringDisableDrained k => exact execRingDisableDrained_keeps k s
  | commandDoorbell k v => exact execCommandDoorbell_keeps k v s
  | completionDoorbell k v => exact execCompletionDoorbell_keeps k v s
  | eventDoorbell v => exact execEventDoorbell_keeps v s
  | descriptorFetch k bytes => exact execDescriptorFetch_keeps k bytes s
  | ringDmaErr k addr => exact execRingDmaErr_keeps k addr s
  | mgtBusyRetry => exact execMgtBusyRetry_keeps s
  | msixCoalesceTimeout k => exact execMsixCoalesceTimeout_keeps k s
  | endpointReset kind ref => exact execEndpointReset_keeps kind ref s
  | nop k bytes => exact execNop_keeps k bytes s
  | ringCreate => exact execRingCreate_keeps s
  | ringDelete => exact execRingDelete_keeps s
  | imgLoad => exact execImgLoad_keeps s
  | imgSwap => exact execImgSwap_keeps s
  | variantExit => exact execVariantExit_keeps s
  | hostAdd ok nqn => exact execHostAdd_keeps ok nqn s
  | hostRemove => exact execHostRemove_keeps s
  | chanCreate => exact execChanCreate_keeps s
  | chanModify => exact execChanModify_keeps s
  | chanDestroy => exact execChanDestroy_keeps s
  | channelFree c => exact execChannelFree_keeps c s
  | chanQuery => exact execChanQuery_keeps s
  | chanList ok => exact execChanList_keeps ok s
  | keyLoad ok blob => exact execKeyLoad_keeps ok blob s
  | keyDestroy => exact execKeyDestroy_keeps s
  | poolCreate ok list => exact execPoolCreate_keeps ok list s
  | poolDestroy => exact execPoolDestroy_keeps s
  | poolMemberAdd => exact execPoolMemberAdd_keeps s
  | poolMemberRemove => exact execPoolMemberRemove_keeps s
  | volCreate => exact execVolCreate_keeps s
  | volDelete => exact execVolDelete_keeps s
  | volResize => exact execVolResize_keeps s
  | maintStart => exact execMaintStart_keeps s
  | maintStop => exact execMaintStop_keeps s
  | bayPower => exact execBayPower_keeps s
  | envSet => exact execEnvSet_keeps s
  | pairJoin => exact execPairJoin_keeps s
  | pairTakeover => exact execPairTakeover_keeps s
  | pairRehearse peer => exact execPairRehearse_keeps peer s
  | fwStage ok pkg failed => exact execFwStage_keeps ok pkg failed s
  | fwActivate unread => exact execFwActivate_keeps unread s
  | telConfig => exact execTelConfig_keeps s
  | logRead ok => exact execLogRead_keeps ok s
  | netAddrSet => exact execNetAddrSet_keeps s
  | qpDestroy => exact execQpDestroy_keeps s
  | macCtlEnable p w => exact execMacCtlEnable_keeps p w s
  | macCtlDisable p w => exact execMacCtlDisable_keeps p w s
  | macCtlReset p w => exact execMacCtlReset_keeps p w s
  | serdesCalibrationDone m pass => exact execSerdesCalibrationDone_keeps m pass s
  | autonegComplete m => exact execAutonegComplete_keeps m s
  | autonegRestart m => exact execAutonegRestart_keeps m s
  | linkTrainingComplete m => exact execLinkTrainingComplete_keeps m s
  | linkTrainingAbandon m => exact execLinkTrainingAbandon_keeps m s
  | pcsFecLock m => exact execPcsFecLock_keeps m s
  | upHoldExpire m => exact execUpHoldExpire_keeps m s
  | lockLoss m => exact execLockLoss_keeps m s
  | downHoldExpire m => exact execDownHoldExpire_keeps m s
  | frameHeaderLookup m bytes cycle => exact execFrameHeaderLookup_keeps m bytes cycle s
  | frameTail m rest bad cycle => exact execFrameTail_keeps m rest bad cycle s
  | pfcFrameReceive m vec quanta => exact execPfcFrameReceive_keeps m vec quanta s
  | pfcPauseExpire m pr => exact execPfcPauseExpire_keeps m pr s
  | pfcXoffRepeat m pr => exact execPfcXoffRepeat_keeps m pr s
  | fecWindowEnd m corr uncorr => exact execFecWindowEnd_keeps m corr uncorr s
  | portLost p cause ref => exact execPortLost_keeps p cause ref s
  | managementFrame => exact execManagementFrame_keeps s
  | ptpSourceLoss => exact execPtpSourceLoss_keeps s
  | pllTrimUpdate => exact execPllTrimUpdate_keeps s
  | macPtpSeamNsRead => exact execMacPtpSeamNsRead_keeps s
  | frameDepart m cycle => exact execFrameDepart_keeps m cycle s
  | egressSelect m => exact execEgressSelect_keeps m s
  | macAgeOut vlan mac => exact execMacAgeOut_keeps vlan mac s
  | seraiEccError area index corrected hit => exact execSeraiEccError_keeps area index corrected hit s
  | cmReq r => exact execCmReq_keeps r s
  | repResend q => exact execRepResend_keeps q s
  | cmRtu q => exact execCmRtu_keeps q s
  | cmDreq q => exact execCmDreq_keeps q s
  | cmDrep q => exact execCmDrep_keeps q s
  | dreqResend q => exact execDreqResend_keeps q s
  | qpDrained q => exact execQpDrained_keeps q s
  | drainTimeout q => exact execDrainTimeout_keeps q s
  | qpErrCleared q => exact execQpErrCleared_keeps q s
  | timewaitExpire q => exact execTimewaitExpire_keeps q s
  | rocePacketReceive => exact execRocePacketReceive_keeps s
  | ackReceive => exact execAckReceive_keeps s
  | nakReceive => exact execNakReceive_keeps s
  | readResponseReceive => exact execReadResponseReceive_keeps s
  | cnpReceive => exact execCnpReceive_keeps s
  | ackTimeout q => exact execAckTimeout_keeps q s
  | rnrResume q => exact execRnrResume_keeps q s
  | contextFetchComplete q => exact execContextFetchComplete_keeps q s
  | egressFetchRelease q cycle => exact execEgressFetchRelease_keeps q cycle s
  | timerFetchComplete q => exact execTimerFetchComplete_keeps q s
  | transmissionRelease q cycle => exact execTransmissionRelease_keeps q cycle s
  | rdmQpSelWrite w => exact execRdmQpSelWrite_keeps w s
  | tmgChanSelWrite w => exact execTmgChanSelWrite_keeps w s
  | layVolSelWrite w => exact execLayVolSelWrite_keeps w s
  | cipKeySelWrite w => exact execCipKeySelWrite_keeps w s
  | keepAliveExpire k => exact execKeepAliveExpire_keeps k s
  | controllerShutdownComplete k => exact execControllerShutdownComplete_keeps k s
  | controllerDisableComplete k => exact execControllerDisableComplete_keeps k s
  | poolImport im => exact execPoolImport_keeps im s
  | maintActivityStart p => exact execMaintActivityStart_keeps p s
  | maintPreempted p => exact execMaintPreempted_keeps p s
  | scrubRepeat p => exact execScrubRepeat_keeps p s
  | maintLoadUpdate => exact execMaintLoadUpdate_keeps s
  | hbmStackLost n cause => exact execHbmStackLost_keeps n cause s
  | hbmUncorrectable n r => exact execHbmUncorrectable_keeps n r s
  | cipherAlarm code k => exact execCipherAlarm_keeps code k s
  | rngRetest pass => exact execRngRetest_keeps pass s
  | cipAlarmClear w present => exact execCipAlarmClear_keeps w present s
  | zeroiseMarker code => exact execZeroiseMarker_keeps code s
  | chkSwStart n w => exact execChkSwStart_keeps n w s
  | chkSwDone n ok data => exact execChkSwDone_keeps n ok data s
  | bayLinkUp b rate width flit => exact execBayLinkUp_keeps b rate width flit s
  | linkRateChange b rate width => exact execLinkRateChange_keeps b rate width s
  | bayTrainingFail b => exact execBayTrainingFail_keeps b s
  | perstRetryRelease b => exact execPerstRetryRelease_keeps b s
  | bayConfigComplete b capTo => exact execBayConfigComplete_keeps b capTo s
  | bayControllerReady b => exact execBayControllerReady_keeps b s
  | bayInitComplete b r => exact execBayInitComplete_keeps b r s
  | bringupStepTimeout b => exact execBringupStepTimeout_keeps b s
  | containmentTrigger b cause ref => exact execContainmentTrigger_keeps b cause ref s
  | containmentRelease b => exact execContainmentRelease_keeps b s
  | recoverTimeout b => exact execRecoverTimeout_keeps b s
  | driveCompletion b q cid phase sct sc crd dnr => exact execDriveCompletion_keeps b q cid phase sct sc crd dnr s
  | driveCommandTimeout t => exact execDriveCommandTimeout_keeps t s
  | driveAbortTimeout t => exact execDriveAbortTimeout_keeps t s
  | driveDmaAccess b addr write data len => exact execDriveDmaAccess_keeps b addr write data len s
  | writeRetryPermitted p => exact execWriteRetryPermitted_keeps p s
  | smartPoll b warning temp => exact execSmartPoll_keeps b warning temp s
  | bayEvaluation vbus hold bays => exact execBayEvaluation_keeps vbus hold bays s
  | inrushTimeout b => exact execInrushTimeout_keeps b s
  | presenceConfirm b => exact execPresenceConfirm_keeps b s
  | retryDelayExpire b => exact execRetryDelayExpire_keeps b s
  | retryCountReset b => exact execRetryCountReset_keeps b s
  | bayCycleOffExpire b => exact execBayCycleOffExpire_keeps b s
  | fanLoopStep x => exact execFanLoopStep_keeps x s
  | fanFail f => exact execFanFail_keeps f s
  | fanRestore f => exact execFanRestore_keeps f s
  | criticalTempShutdown => exact execCriticalTempShutdown_keeps s
  | pwmLoopStall => exact execPwmLoopStall_keeps s
  | chargerTimeout => exact execChargerTimeout_keeps s
  | holdFaultClear w => exact execHoldFaultClear_keeps w s
  | powerFailLatch => exact execPowerFailLatch_keeps s
  | dumpWriteComplete => exact execDumpWriteComplete_keeps s
  | dumpComplete => exact execDumpComplete_keeps s
  | restoreReset => exact execRestoreReset_keeps s
  | pairBundleLockChange k rx lock ref => exact execPairBundleLockChange_keeps k rx lock ref s
  | bundleRejoin k => exact execBundleRejoin_keeps k s
  | keyxReceive bytes => exact execKeyxReceive_keeps bytes s
  | linkRekey => exact execLinkRekey_keeps s
  | ingressFrameReceive bytes => exact execIngressFrameReceive_keeps bytes s
  | recordApply frames => exact execRecordApply_keeps frames s
  | statusFrameReceive bytes cycle => exact execStatusFrameReceive_keeps bytes cycle s
  | mgtFrameReceive bytes failed unread => exact execMgtFrameReceive_keeps bytes failed unread s
  | joinFrameReceive bytes => exact execJoinFrameReceive_keeps bytes s
  | resendFrameReceive bytes => exact execResendFrameReceive_keeps bytes s
  | recordMissing => exact execRecordMissing_keeps s
  | lossWaitExpire => exact execLossWaitExpire_keeps s
  | standbyLost => exact execStandbyLost_keeps s
  | roleClaimTimeout => exact execRoleClaimTimeout_keeps s
  | peerClaimSensed => exact execPeerClaimSensed_keeps s
  | lockstepOffsetLoss => exact execLockstepOffsetLoss_keeps s
  | releaseConfirmed => exact execReleaseConfirmed_keeps s
  | addressAnnounceRepeat => exact execAddressAnnounceRepeat_keeps s
  | reservationPreemptComplete b => exact execReservationPreemptComplete_keeps b s
  | joinPrecopyEnd residue passes => exact execJoinPrecopyEnd_keeps residue passes s
  | joinHoldEnd => exact execJoinHoldEnd_keeps s
  | joinHoldTimeout => exact execJoinHoldTimeout_keeps s
  | rehearsalEnd result n => exact execRehearsalEnd_keeps result n s
  | mgtWatchdogReset cause sram unread => exact execMgtWatchdogReset_keeps cause sram unread s
  | core3WatchdogReset cause => exact execCore3WatchdogReset_keeps cause s
  | boot unread => exact execBoot_keeps unread s
  | recoveryGo w ok pkg => exact execRecoveryGo_keeps w ok pkg s
  | itkCommit w => exact execItkCommit_keeps w s
  | itkClear w => exact execItkClear_keeps w s
  | mgtMeasSelWrite w => exact execMgtMeasSelWrite_keeps w s
  | spdmRequest smb good size m => exact execSpdmRequest_keeps smb good size m s
  | spdmHeartbeatTimeout session => exact execSpdmHeartbeatTimeout_keeps session s
  | pldmRequest smb good size m => exact execPldmRequest_keeps smb good size m s
  | externalReset => exact execExternalReset_keeps s
  | crsChipResetGo w => exact execCrsChipResetGo_keeps w s
  | coreClockLoss => exact execCoreClockLoss_keeps s
  | coreSupplyLoss sup => exact execCoreSupplyLoss_keeps sup s
  | fatalError src => exact execFatalError_keeps src s
  | mgtPllLoss => exact execMgtPllLoss_keeps s
  | mgtPllRelock => exact execMgtPllRelock_keeps s
  | auxPllLoss => exact execAuxPllLoss_keeps s
  | auxPllReturn => exact execAuxPllReturn_keeps s
  | hbmTrainingDone fail => exact execHbmTrainingDone_keeps fail s
  | clusterResetRelease k => exact execClusterResetRelease_keeps k s
  | clusterCheckDone k step => exact execClusterCheckDone_keeps k step s
  | clusterCheckTimeout k step => exact execClusterCheckTimeout_keeps k step s
  | crsCluCtlRetest k w => exact execCrsCluCtlRetest_keeps k w s
  | telemetryDumpLatch => exact execTelemetryDumpLatch_keeps s
  | telDumpCopyDone ok => exact execTelDumpCopyDone_keeps ok s
  | telCtrSelWrite w => exact execTelCtrSelWrite_keeps w s
  | errorLogWrite => exact execErrorLogWrite_keeps s
  | glbLockSet w => exact execGlbLockSet_keeps w s
  | bayPerstRelease b => exact execBayPerstRelease_keeps b s
  | firstConfigRequest b => exact execFirstConfigRequest_keeps b s
  | mctpControlRequest smb good size m => exact execMctpControlRequest_keeps smb good size m s
  | referenceClockReturn dom n => exact execReferenceClockReturn_keeps dom n s
  | inputPowerReturn => exact execInputPowerReturn_keeps s
  | claimHoldExpire => exact execClaimHoldExpire_keeps s
  | tickBoundaryMark offset latency => exact execTickBoundaryMark_keeps offset latency s
  | abandonedRegisterRead off => exact execAbandonedRegisterRead_keeps off s

/-- The other commands are the seam, the power-on and the loss of the always-on supply. -/
theorem eq_of_not_inTick {c : Instr} (h : inTick c = false) :
    c = .seam ∨ (∃ a b d, c = .powerOnReset a b d) ∨ c = .alwaysOnSupplyLoss := by
  unfold inTick at h
  split at h
  · exact .inl rfl
  · exact .inr (.inl ⟨_, _, _, rfl⟩)
  · exact .inr (.inr rfl)
  · exact nomatch h

variable {c : Instr} {s t : State}

/-! ### What all commands keep -/

/-- Every command answers a next state. -/
theorem exec_next (c : Instr) (s : State) : ∃ t, exec c s = .next t := by
  cases c with
  | seraiEccError area i corrected hit => cases corrected <;> exact ⟨_, rfl⟩
  | chkSwDone n ok data => show ∃ t, execChkSwDone n ok data s = .next t; unfold execChkSwDone; split <;> exact ⟨_, rfl⟩
  | _ => exact ⟨_, rfl⟩

/-- Every command keeps the queue, the invariant and the fuses. -/
theorem exec_follows (done : exec c s = .next t) : Follows s t := by
  cases within : inTick c
  case true => exact (exec_keeps c s within t done).toFollows
  case false =>
    rcases eq_of_not_inTick within with rfl | ⟨a, b, d, rfl⟩ | rfl <;> cases done
    · exact (State.seam_runs s).1.toFollows
    · exact State.powerOff_follows ..
    · exact State.powerOff_follows ..

/-- A step keeps the invariant: the command that it runs does, and the queue is no part of it. -/
theorem step_inv (inv : s.Inv) (stepped : step s = .next t) : t.Inv := by
  unfold step at stepped
  split at stepped
  · cases stepped; exact inv
  · exact (exec_follows stepped).inv ⟨inv.regs, inv.backlog, inv.history, inv.schedule⟩

/-- Every step answers a next state. -/
theorem step_next (s : State) : ∃ t, step s = .next t := by
  unfold step
  split
  · exact ⟨s, rfl⟩
  · exact exec_next ..

theorem safe (n : Nat) : ∀ s, Safe s n := by
  induction n with
  | zero => exact fun _ => trivial
  | succ n ih =>
    intro s
    obtain ⟨t, stepped⟩ := step_next s
    exact ⟨t, stepped, ih t⟩

/-- Settles O4: what `Follows` says of every command carries the invariant through a step. -/
theorem stepKeepsTheInvariant : Obligations.StepKeepsTheInvariant := by
  unfold Obligations.StepKeepsTheInvariant
  exact fun _ _ => step_inv

/-- Settles O5: no arm of `exec` answers a fault or a refusal. -/
theorem everyCommandCompletes : Obligations.EveryCommandCompletes := by
  unfold Obligations.EveryCommandCompletes
  refine ⟨fun c s => ?_, fun s n => safe n s⟩
  obtain ⟨t, done⟩ := exec_next c s
  exact ⟨t, done, (exec_follows done).queue⟩

/-- Settles O6: the fuses are among what every command keeps. -/
theorem securityFloorNeverFalls : Obligations.SecurityFloorNeverFalls := by
  unfold Obligations.SecurityFloorNeverFalls
  exact fun _ _ _ done => ⟨(exec_follows done).floor, (exec_follows done).revoked⟩

/-- Settles O7: within a tick, at a seam and at the loss of the supply the straps stand. -/
theorem strapsChangeOnlyAtPowerOn : Obligations.StrapsChangeOnlyAtPowerOn := by
  unfold Obligations.StrapsChangeOnlyAtPowerOn
  refine ⟨fun c s t noPowerOn done => ?_, fun _ _ _ _ => ⟨_, rfl, rfl⟩⟩
  cases within : inTick c
  case true => exact (exec_keeps c s within t done).straps
  case false =>
    rcases eq_of_not_inTick within with rfl | ⟨a, b, d, rfl⟩ | rfl
    · cases done; exact (State.seam_runs s).1.straps
    · exact absurd rfl (noPowerOn a b d)
    · cases done; rfl

/-- Settles O8: within a tick the count stands, and a seam counts one. -/
theorem onlySeamsCountTicks : Obligations.OnlySeamsCountTicks := by
  unfold Obligations.OnlySeamsCountTicks
  refine ⟨fun c s t noSeam noPowerOn noLoss done => ?_, fun s joined => ?_⟩
  · cases within : inTick c
    case true => exact (exec_keeps c s within t done).now
    case false =>
      rcases eq_of_not_inTick within with rfl | ⟨a, b, d, rfl⟩ | rfl
      · exact absurd rfl noSeam
      · exact absurd rfl (noPowerOn a b d)
      · exact absurd rfl noLoss
  · exact ⟨s.seam, rfl, (State.seam_runs s).2 joined, (State.seam_runs s).1.straps⟩

/-- Settles O9: within a tick the pair state stands or is reset, and a power-on or the loss of the supply resets it. -/
theorem pairStateChangesOnlyAtSeamOrReset : Obligations.PairStateChangesOnlyAtSeamOrReset := by
  unfold Obligations.PairStateChangesOnlyAtSeamOrReset
  intro c s t noSeam done
  cases within : inTick c
  case true => exact (exec_keeps c s within t done).role
  case false =>
    rcases eq_of_not_inTick within with rfl | ⟨a, b, d, rfl⟩ | rfl
    · exact absurd rfl noSeam
    · cases done; exact .inr rfl
    · cases done; exact .inr rfl

end Sys2Proof.Machine

/-! ## Register writes (00 R9, R12; 03 R76) -/

namespace Sys2Proof.Machine

open Sys2Proof

variable {s : State} {off : Nat} {r : RegDef} {f : FieldDef}

/-! ### What an access of each size does -/

theorem exec_registerWrite_narrow {size : Nat} (not4 : size ≠ 4) (not8 : size ≠ 8) (w : BitVec 64) (a : Bool) :
    exec (.registerWrite off size w a) s = .next s := by
  show Host.Outcome.next (s.registerWrite off size w a) = _
  simp [State.registerWrite, not4, not8]

theorem exec_registerWrite_abandoned {size : Nat} (whole : size = 4 ∨ size = 8) (w : BitVec 64) :
    exec (.registerWrite off size w true) s = .next (s.satFld Reg.CRS_XING Fd.CRS_XING_ABANDONED_WR 1) := by
  rcases whole with rfl | rfl <;> rfl

theorem exec_registerWrite4 (w : BitVec 64) : exec (.registerWrite off 4 w false) s = .next (s.write32 off (w.setWidth 32)) := rfl

theorem exec_registerWrite8 (w : BitVec 64) : exec (.registerWrite off 8 w false) s =
    .next ((s.write32 off (w.setWidth 32)).write32 (off + 4) ((w >>> 32).setWidth 32)) := rfl

/-- A register with a row of its own is left to that row. -/
theorem State.write32_own (own : ownRegister off = true) (s : State) (w : Word) : s.write32 off w = s := if_pos own

/-- Before READY a write to another block is ignored and counted. -/
theorem State.write32_early (own : ownRegister off = false) (busy : s.mgtReady = false) (late : earlyBlock off = false) (w : Word) :
    s.write32 off w = s.cntMgt 6 1 := by
  simp [State.write32, State.hostWrite, own, busy, late]

/-- A write that reaches its register sets it, and brings with it what its new value asks for. -/
theorem State.write32_reaches (own : ownRegister off = false) (reached : (s.mgtReady || earlyBlock off) = true) (w : Word) :
    let t := (s.regWrite off w).afterWrite off
    s.write32 off w = if t.rd off = s.rd off then t else t.reconfigured off := by
  intro t
  rw [State.write32, if_neg (Bool.eq_false_iff.mp own), State.hostWrite, if_pos reached]

/-- What a write brings with it leaves the register written as the write has left it. -/
theorem State.rd_write32_own (own : ownRegister off = false) (reached : (s.mgtReady || earlyBlock off) = true) (w : Word) :
    (s.write32 off w).rd off = (s.regWrite off w).rd off := by
  rw [State.write32_reaches own reached]
  split
  · exact State.afterWrite_rd ..
  · exact (State.reconfigured_own ..).trans (State.afterWrite_rd ..)

/-- A write counted as too early leaves MGT_STATUS.READY as it is. -/
theorem State.mgtReady_cntMgt (s : State) (n k : Nat) (small : n < 16) : (s.cntMgt n k).mgtReady = s.mgtReady := by
  have apart : Reg.MGT_STATUS ≠ Reg.MGT_CNT n := by simp only [Reg.MGT_STATUS, Reg.MGT_CNT]; omega
  exact congrArg (· == 1) (State.fld_setFld_ne apart)

/-- Settles O11: each of the four kinds of write reaches nothing. -/
theorem registerWriteThatReachesNothing : Obligations.RegisterWriteThatReachesNothing := by
  unfold Obligations.RegisterWriteThatReachesNothing
  refine ⟨fun s off size w a => exec_registerWrite_narrow (w := w) (a := a), fun s off size w whole => exec_registerWrite_abandoned whole w,
    fun s off w own busy late => ⟨?_, fun own4 late4 => ?_⟩, fun s off w own => ?_⟩
  · rw [exec_registerWrite4, State.write32_early own busy late]
  · have still : (s.cntMgt 6 1).mgtReady = false := (State.mgtReady_cntMgt s 6 1 (by decide)).trans busy
    rw [exec_registerWrite8, State.write32_early own busy late, State.write32_early own4 still late4]
  · rw [exec_registerWrite4, State.write32_own own]

/-! ### A write while the lock is open -/

/-- The status registers that flag a refused configuration hold no field that software sets without condition. -/
theorem off_ne_flagReg (listed : regAt off = some r) (mem : f ∈ r.fields) (writable : f.writable = true) (free : f.rule = .any) {o : Nat}
    (none : ((regAt o).all fun r => r.fields.all fun f => !(f.writable && decide (f.rule = .any))) = true) : off ≠ o := by
  rintro rfl
  rw [listed] at none
  have := List.all_eq_true.mp none f mem
  simp [writable, free] at this

/-- The registers that a new value changes elsewhere are those that tell the control host, and the status of ports and of the PTP slave. -/
theorem retuneOff_eq_false {o : Nat} (quiet : tellOff o = false) (noPort : ∀ m, o ≠ Reg.MAC_LP_STATUS m) (noPtp : o ≠ Reg.MAC_PTP_STATUS) :
    retuneOff o = false := by
  simp only [retuneOff, quiet, Bool.false_or, Bool.or_eq_false_iff, decide_eq_false_iff_not, beq_eq_false_iff_ne]
  refine ⟨fun h => noPort ((o - 0x00801008) / 0x40) ?_, noPtp⟩
  simp only [Reg.MAC_LP_STATUS]
  omega

/-- What a write of 4 bytes may change besides its register while the lock is open. -/
theorem State.write32_frame (own : ownRegister off = false) (reached : (s.mgtReady || earlyBlock off) = true) (opened : s.locked = false) (w : Word) :
    let t := s.write32 off w
    (∀ o, o ≠ off → o ≠ Reg.SWC_STATUS → o ≠ Reg.BAY_GLB_STATUS → tellOff o = false → (∀ b, o ≠ Reg.BAY_LED b) → (∀ m, o ≠ Reg.MAC_LP_STATUS m) →
        o ≠ Reg.MAC_PTP_STATUS → t.rd o = s.rd o)
    ∧ t = { s with
        regs := t.regs, out := t.out
        hst := { s.hst with rings := t.hst.rings, evSeq := t.hst.evSeq, backlog := t.hst.backlog, lostOwed := t.hst.lostOwed, started := t.hst.started }
        tel := { s.tel with x := t.tel.x, hist := t.tel.hist, errQ := t.tel.errQ, xings := t.tel.xings, acc := t.tel.acc }
        net := { s.net with deficit := t.net.deficit, pfcDue := t.net.pfcDue }
        pair := { s.pair with held := t.pair.held } } := by
  intro t
  have W := State.regWrite_writes opened off w
  obtain ⟨afterRd, afterRest⟩ := State.afterWrite_frame (s.regWrite off w) off
  have R : Retunes ((s.regWrite off w).afterWrite off) t := by
    show Retunes _ (s.write32 off w)
    rw [State.write32_reaches own reached]
    exact .ite (.refl _) (.reconfigured _)
  clear_value t
  constructor
  · intro o notOff notSwc notBay quiet noLed noPort noPtp
    rw [R.regs o (retuneOff_eq_false quiet noPort noPtp), afterRd o quiet fun _ => noLed, W.regs o notOff notSwc notBay]
  · rw [R.rest, afterRest, W.rest]

/-- Settles O10: the write sets the field, and its frame is that of the register file, of what follows a write and of a new value's effects. -/
theorem registerWriteSetsItsFields : Obligations.RegisterWriteSetsItsFields := by
  unfold Obligations.RegisterWriteSetsItsFields
  refine ⟨fun s off w r f inv reached opened own notChk listed mem writable free allowed => ?_, fun s off w => ⟨_, rfl, rfl⟩⟩
  obtain ⟨others, rest⟩ := State.write32_frame own reached opened (w.setWidth 32)
  refine ⟨_, exec_registerWrite4 w, ?_, others, rest⟩
  have notSwc := off_ne_flagReg (o := Reg.SWC_STATUS) listed mem writable free (by decide +kernel)
  have notBay := off_ne_flagReg (o := Reg.BAY_GLB_STATUS) listed mem writable free (by decide +kernel)
  exact (congrArg f.fld.get (State.rd_write32_own own reached _)).trans
    (State.regWrite_fld inv.regs opened notSwc notBay notChk listed mem writable free _ allowed)

/-! ### A write while the lock is closed -/

/-- A register with an RWL field is none of those without one. -/
theorem off_ne_noRwl (listed : regAt off = some r) (mem : f ∈ r.fields) (rwl : f.acc = .rwl) {o : Nat}
    (none : ((regAt o).all fun r => r.fields.all fun f => f.acc != .rwl) = true) : off ≠ o := by
  rintro rfl
  exact RegDef.noRwl_absurd listed mem rwl none

/-- Under the lock a register write leaves a closed field as it is. -/
theorem State.regWrite_locked (inv : s.Inv) (closed : s.locked = true) (listed : regAt off = some r) (mem : f ∈ r.fields) (rwl : f.acc = .rwl)
    (shut : s.lockOpen off f = false) (w : Word) : (s.regWrite off w).fld off f.fld = s.fld off f.fld := by
  have ne {o : Nat} := off_ne_noRwl (o := o) listed mem rwl
  have notSwc : off ≠ Reg.SWC_STATUS := ne (by decide +kernel)
  have tidy := RegDef.tidy_of_at listed
  simp only [RegDef.tidy, Bool.and_eq_true, decide_eq_true_eq] at tidy
  have apart (g : FieldDef) (hg : g ∈ r.fields) : g = f ∨ f.fld.apart g.fld :=
    (eq_or_ne g f).imp_right fun other => RegDef.apart_of_pairwise tidy.2 mem hg other.symm
  have quiet : tellOff off = false := by
    cases h : tellOff off
    · rfl
    · exact absurd rfl (ne (tellOff_noRwl h))
  unfold State.regWrite
  rw [listed]
  dsimp only
  split
  · rfl
  · generalize e : (if s.pfcRefused off w r = true then s.setFld Reg.SWC_STATUS Fd.SWC_STATUS_CFG_REFUSED 1
      else r.fields.foldl (fun s f => s.writeField off w f) s) = u
    have kept : u.fld off f.fld = s.fld off f.fld := by
      rw [← e]
      split
      · exact State.fld_setFld_ne notSwc
      · exact State.writeFields_locked r.fields listed mem rwl w apart s inv.regs closed shut notSwc (ne (by decide +kernel))
    split
    · exact (congrArg f.fld.get (State.violation_rd u w (ne (by decide +kernel)) (ne (by decide +kernel)) quiet)).trans kept
    · exact kept

/-- Under the lock a write of 4 bytes leaves a closed field as it is. -/
theorem State.write32_locked (inv : s.Inv) (closed : s.locked = true) (listed : regAt off = some r) (mem : f ∈ r.fields) (rwl : f.acc = .rwl)
    (shut : s.lockOpen off f = false) (w : Word) : (s.write32 off w).fld off f.fld = s.fld off f.fld := by
  cases own : ownRegister off
  case true => rw [State.write32_own own]
  case false =>
    by_cases reached : (s.mgtReady || earlyBlock off) = true
    · exact (congrArg f.fld.get (State.rd_write32_own own reached w)).trans (State.regWrite_locked inv closed listed mem rwl shut w)
    · obtain ⟨busy, late⟩ := Bool.or_eq_false_iff.mp (Bool.eq_false_iff.mpr reached)
      rw [State.write32_early own busy late]
      exact State.fld_setFld_ne (off_ne_noRwl listed mem rwl (by decide +kernel))

/-- Settles O12: a closed field keeps its value through a write of its register, of the one above it, and through no write at all. -/
theorem lockedFieldsKeepTheirValue : Obligations.LockedFieldsKeepTheirValue := by
  unfold Obligations.LockedFieldsKeepTheirValue
  intro s off size w a r f inv closed listed mem rwl shut
  by_cases whole : size = 4 ∨ size = 8
  case neg =>
    obtain ⟨not4, not8⟩ := not_or.mp whole
    exact ⟨s, exec_registerWrite_narrow not4 not8 w a, rfl⟩
  cases a
  case true =>
    exact ⟨_, exec_registerWrite_abandoned whole w, State.fld_setFld_ne (off_ne_noRwl listed mem rwl (by decide +kernel))⟩
  have low := State.write32_locked inv closed listed mem rwl shut (w.setWidth 32)
  rcases whole with rfl | rfl
  · exact ⟨_, exec_registerWrite4 w, low⟩
  · exact ⟨_, exec_registerWrite8 w, (congrArg f.fld.get (State.write32_other _ listed mem rwl rfl _)).trans low⟩

end Sys2Proof.Machine

/-! ## Register reads (00 R9, R11, R12) -/

namespace Sys2Proof.Machine

open Sys2Proof

variable {s : State} {off : Nat} {r : RegDef} {f : FieldDef}

/-! ### Reads that clear -/

/-- What a read of a listed register leaves: its RC fields are zero, and nothing else has changed. -/
theorem State.readClear_listed (listed : regAt off = some r) (s : State) :
    let t := s.readClear off
    (∀ o, o ≠ off → t.rd o = s.rd o) ∧ t = { s with regs := t.regs }
    ∧ (s.Inv → f ∈ r.fields → f.acc = .rc → t.fld off f.fld = 0) := by
  intro t
  have cleared : t = (r.fields.filter fun f => f.acc == .rc).foldl (fun s f => s.setFld off f.fld 0) s := by
    show s.readClear off = _
    unfold State.readClear
    rw [listed]
  have tidy := RegDef.tidy_of_at listed
  simp only [RegDef.tidy, Bool.and_eq_true, decide_eq_true_eq] at tidy
  refine ⟨fun o other => ?_, ?_, fun inv mem rc => ?_⟩
  · rw [cleared]; exact State.clearFields_rd _ off s other
  · rw [cleared]; exact State.clearFields_rest ..
  · rw [cleared]
    exact State.clearFields_fld _ off s inv.regs f (List.mem_filter.mpr ⟨mem, by simp [rc]⟩)
      (fun g hg => RegDef.fits listed (List.mem_filter.mp hg).1) (tidy.2.filter _)

/-- A read of any offset changes no other register. -/
theorem State.rd_readClear_ne {o : Nat} (other : o ≠ off) (s : State) : (s.readClear off).rd o = s.rd o := by
  cases listed : regAt off with
  | none => unfold State.readClear; rw [listed]
  | some r => exact (State.readClear_listed (f := ⟨"", ⟨0, 0⟩, .rc, 0, .any, false⟩) listed s).1 o other

/-- The low words of the counters hold no RC field. -/
theorem counterLow_noRc (listed : regAt off = some r) (mem : f ∈ r.fields) (rc : f.acc = .rc) : counterLow.contains off = false := by
  have none : ∀ o ∈ counterLow, ((regAt o).all fun r => r.fields.all fun f => f.acc != .rc) = true := by decide +kernel
  refine Bool.eq_false_iff.mpr fun low => ?_
  have quiet := none off (List.contains_iff_mem.mp low)
  rw [listed] at quiet
  have := List.all_eq_true.mp quiet f mem
  simp [rc] at this

/-- A read that latches nothing and takes no latched word answers the register's value. -/
theorem State.read32_plain (notLow : counterLow.contains off = false) (unlatched : Tab.rd (fun _ => none) s.hst.latched off = none) :
    s.read32 off = (s.readReg off, if s.mgtReady || earlyBlock off then s.readClear off else s) := by
  rw [State.read32, if_neg (Bool.eq_false_iff.mp notLow), unlatched]

/-- A read of 4 bytes of a register with RC fields answers its value and clears them. -/
theorem exec_registerReadClear_rc (inv : s.Inv) (ready : s.mgtReady = true) (unlatched : Tab.rd (fun _ => none) s.hst.latched off = none)
    (listed : regAt off = some r) (mem : f ∈ r.fields) (rc : f.acc = .rc) :
    ∃ t, exec (.registerReadClear ⟨off, 4⟩) s = .next t ∧ t.out = .regRead off (s.readReg off) :: s.out ∧ t.fld off f.fld = 0
      ∧ (∀ o, o ≠ off → t.rd o = s.rd o) ∧ t = { s with regs := t.regs, out := t.out } := by
  have read := State.read32_plain (counterLow_noRc listed mem rc) unlatched
  rw [ready, Bool.true_or, if_pos rfl] at read
  obtain ⟨others, rest, zero⟩ := State.readClear_listed (f := f) listed s
  refine ⟨(s.readClear off).emit (.regRead off (s.readReg off)), ?_, ?_, zero inv mem rc, others, ?_⟩
  · show Host.Outcome.next (s.readOut off) = _
    rw [State.readOut, read]
  · rw [rest]; rfl
  · rw [rest]; rfl

/-- A narrow read answers the addressed bytes of the register's value. -/
theorem exec_registerReadClear_narrow {size : Nat} (not4 : size ≠ 4) (not8 : size ≠ 8) (notLow : counterLow.contains (off - off % 4) = false)
    (unlatched : Tab.rd (fun _ => none) s.hst.latched (off - off % 4) = none) :
    ∃ t, exec (.registerReadClear ⟨off, size⟩) s = .next t
      ∧ t.out = .regRead off (BitVec.ofNat 32 ((s.readReg (off - off % 4)).toNat / 2 ^ (8 * (off % 4)) % 2 ^ (8 * size))) :: s.out
      ∧ (∀ o, o ≠ off - off % 4 → t.rd o = s.rd o) := by
  refine ⟨_, rfl, ?_, fun o other => ?_⟩
  all_goals rw [State.registerRead, if_neg not8, if_neg not4, State.read32_plain notLow unlatched]
  · have kept : (s.readClear (off - off % 4)).out = s.out := by
      unfold State.readClear
      split
      · rfl
      · rw [State.clearFields_rest]
    dsimp only
    split
    · exact congrArg (_ :: ·) kept
    · rfl
  · dsimp only
    split
    · exact State.rd_readClear_ne other s
    · rfl

/-! ### Reads that latch -/

/-- A read of the nanoseconds latches the two words of the seconds of the same boundary. -/
theorem exec_macPtpSeamNsRead_latches (rising : Tab.rising s.hst.latched = true) (ready : s.mgtReady = true) :
    ∃ t, exec .macPtpSeamNsRead s = .next t ∧ t.out = .regRead Reg.MAC_PTP_SEAM_NS (BitVec.ofNat 32 s.net.seamNs) :: s.out
      ∧ Tab.rd (fun _ => none) t.hst.latched Reg.MAC_PTP_SEAM_SEC_LO = some (BitVec.ofNat 32 s.net.seamSec)
      ∧ Tab.rd (fun _ => none) t.hst.latched Reg.MAC_PTP_SEAM_SEC_HI = some (BitVec.ofNat 32 (s.net.seamSec / 4294967296 % 65536))
      ∧ t.regs = s.regs ∧ t.net = s.net := by
  refine ⟨_, rfl, ?_, ?_, Tab.rd_wr_same (Tab.rising_wr rising), rfl, rfl⟩
  · have same : State.mgtReady { s with hst := { s.hst with latched := _ } } = true := ready
    exact congrArg (· :: s.out) (congrArg _ (if_pos same))
  · exact (Tab.rd_wr_ne (by decide)).trans (Tab.rd_wr_same rising)

/-- An abandoned read answers all ones and is counted. -/
theorem exec_abandonedRegisterRead_counts (inv : s.Inv) (off : Nat) :
    ∃ t, exec (.abandonedRegisterRead off) s = .next t ∧ t.out = .regRead off 0xFFFFFFFF :: s.out
      ∧ t.fld Reg.CRS_XING Fd.CRS_XING_ABANDONED_RD = min 65535 (s.fld Reg.CRS_XING Fd.CRS_XING_ABANDONED_RD + 1)
      ∧ (∀ o, o ≠ Reg.CRS_XING → t.rd o = s.rd o) ∧ t = { s with regs := t.regs, out := t.out } := by
  refine ⟨_, rfl, rfl, ?_, fun o other => State.rd_setFld_ne other, rfl⟩
  refine (State.fld_setFld inv.regs _ (by decide)).trans ?_
  simp only [satAdd, Fld.max, Fd.CRS_XING_ABANDONED_RD]
  omega

/-- Settles O13: a read answers, clears, latches or counts, by its kind and size. -/
theorem registerReadsAnswer : Obligations.RegisterReadsAnswer := by
  unfold Obligations.RegisterReadsAnswer
  refine ⟨fun s off r f => exec_registerReadClear_rc, fun s off which rising => ?_, fun s off w notLow latched => ?_,
    fun s => exec_macPtpSeamNsRead_latches, fun s off => ⟨_, rfl, rfl⟩, fun s off size => exec_registerReadClear_narrow,
    fun s off inv => exec_abandonedRegisterRead_counts inv off⟩
  · have low : counterLow.contains off = true := by rcases which with rfl | rfl <;> decide
    exact ⟨_, exec_counterLowRead_low low, rfl, State.latched_setLatch rising _ _, rfl⟩
  · exact ⟨_, exec_registerReadClear_latched notLow latched, rfl, rfl⟩

/-! ## The selectors of a snapshot -/

/-- A read-write field whose meaning puts no condition on it is set where the lock lets the write through. -/
theorem State.writeField_any (rw : f.acc = .rw) (free : f.rule = .any) (s : State) (w : Word) :
    s.writeField off w f = if s.lockOpen off f = true then s.setFld off f.fld (f.fld.get w) else s := by
  simp [State.writeField, rw, FieldDef.writable, State.writeFate, free]

/-- A register with one unconditioned field, written with its selector, holds the field written and has changed nothing else. -/
theorem State.setFld_selects (inv : s.Inv) (off : Nat) {g : Fld} (fits : g.fits) (w : Word) :
    (s.setFld off g (g.get w)).fld off g = g.get w ∧ ∀ o, o ≠ off → (s.setFld off g (g.get w)).rd o = s.rd o :=
  ⟨(State.fld_setFld inv.regs _ fits).trans (Nat.mod_eq_of_lt (Fld.get_lt ..)), fun _ other => State.rd_setFld_ne other⟩

/-- The fields of TEL_CTR_SEL, of which the setup lock closes two. -/
theorem regAt_telCtrSel : regAt Reg.TEL_CTR_SEL = some ⟨"TEL_CTR_SEL", 0x01C00030, [], [
    ⟨"GROUP", Fd.TEL_CTR_SEL_GROUP, .rw, 0, .any, false⟩, ⟨"INDEX", Fd.TEL_CTR_SEL_INDEX, .rw, 0, .any, false⟩,
    ⟨"INSTANCE", Fd.TEL_CTR_SEL_INSTANCE, .rw, 0, .any, true⟩]⟩ := by decide +kernel

theorem State.locked_setFld (other : Reg.GLB_LOCK ≠ off) (s : State) (g : Fld) (v : Nat) : (s.setFld off g v).locked = s.locked :=
  congrArg (· == 1) (State.fld_setFld_ne other)

/-- A register of read-write fields without a condition is written field by field, whatever the lock. -/
theorem State.regWrite_fields (listed : regAt off = some r) (notChk : chkSw1 off = false) (notItn : off ≠ Reg.ITN_CTL)
    (plain : ∀ f ∈ r.fields, f.acc = .rw ∧ f.rule = .any) (s : State) (w : Word) :
    s.regWrite off w = r.fields.foldl (fun s f => s.writeField off w f) s := by
  have lawful : r.fields.any (s.violates off w) = false := by
    simp only [List.any_eq_false]
    intro f mem
    simp [State.violates, (plain f mem).1]
  have granted : s.pfcRefused off w r = false := by
    simp only [State.pfcRefused, List.any_eq_false]
    intro f mem
    simp [(plain f mem).2]
  unfold State.regWrite
  rw [listed]
  simp [notChk, lawful, granted, lockedWo, notItn]

/-- A write of TEL_CTR_SEL sets INSTANCE, and the two fields that the lock closes while it is open. -/
theorem State.regWrite_telCtrSel (s : State) (w : Word) : s.regWrite Reg.TEL_CTR_SEL w =
    (if s.locked = true then s
     else (s.setFld Reg.TEL_CTR_SEL Fd.TEL_CTR_SEL_GROUP (Fd.TEL_CTR_SEL_GROUP.get w)).setFld Reg.TEL_CTR_SEL Fd.TEL_CTR_SEL_INDEX
      (Fd.TEL_CTR_SEL_INDEX.get w)).setFld Reg.TEL_CTR_SEL Fd.TEL_CTR_SEL_INSTANCE (Fd.TEL_CTR_SEL_INSTANCE.get w) := by
  have noRing (t : State) : t.resetupOpen Reg.TEL_CTR_SEL = false := rfl
  have stays (t : State) (g : Fld) (v : Nat) : (t.setFld Reg.TEL_CTR_SEL g v).locked = t.locked := State.locked_setFld (by decide) ..
  rw [State.regWrite_fields regAt_telCtrSel (by decide) (by decide) (by simp)]
  cases locked : s.locked <;> simp [State.writeField_any, State.lockOpen, noRing, stays, locked]

/-- What a write of TEL_CTR_SEL leaves in its fields. -/
theorem State.fld_regWrite_telCtrSel (inv : s.Inv) (w : Word) :
    let t := s.regWrite Reg.TEL_CTR_SEL w
    (s.locked = false → t.fld Reg.TEL_CTR_SEL Fd.TEL_CTR_SEL_GROUP = Fd.TEL_CTR_SEL_GROUP.get w
        ∧ t.fld Reg.TEL_CTR_SEL Fd.TEL_CTR_SEL_INDEX = Fd.TEL_CTR_SEL_INDEX.get w)
    ∧ t.fld Reg.TEL_CTR_SEL Fd.TEL_CTR_SEL_INSTANCE = Fd.TEL_CTR_SEL_INSTANCE.get w
    ∧ (∀ o, o ≠ Reg.TEL_CTR_SEL → t.rd o = s.rd o) ∧ t = { s with regs := t.regs } := by
  intro t
  have fit (g : Fld) : g.get w % 2 ^ g.width = g.get w := Nat.mod_eq_of_lt (Fld.get_lt ..)
  have wf (u : State) (h : Tab.wf regReset u.regs = true) (g : Fld) (v : Nat) := State.wf_setFld h Reg.TEL_CTR_SEL g v
  have inst (u : State) (h : Tab.wf regReset u.regs = true) := State.fld_setFld (f := Fd.TEL_CTR_SEL_INSTANCE) h (off := Reg.TEL_CTR_SEL)
    (Fd.TEL_CTR_SEL_INSTANCE.get w) (by decide)
  cases locked : s.locked
  · have written : t = _ := (State.regWrite_telCtrSel s w).trans (by rw [if_neg (Bool.eq_false_iff.mp locked)])
    have grouped := wf s inv.regs Fd.TEL_CTR_SEL_GROUP (Fd.TEL_CTR_SEL_GROUP.get w)
    have indexed := wf _ grouped Fd.TEL_CTR_SEL_INDEX (Fd.TEL_CTR_SEL_INDEX.get w)
    rw [written]
    refine ⟨fun _ => ⟨?_, ?_⟩, (inst _ indexed).trans (fit _), fun o other => ?_, rfl⟩
    · rw [State.fld_setFld_apart indexed _ (by decide) (by decide), State.fld_setFld_apart grouped _ (by decide) (by decide),
        State.fld_setFld inv.regs _ (by decide), fit]
    · rw [State.fld_setFld_apart indexed _ (by decide) (by decide), State.fld_setFld grouped _ (by decide), fit]
    · rw [State.rd_setFld_ne other, State.rd_setFld_ne other, State.rd_setFld_ne other]
  · have written : t = _ := (State.regWrite_telCtrSel s w).trans (by rw [if_pos locked])
    rw [written]
    exact ⟨nofun, (inst _ inv.regs).trans (fit _), fun o other => State.rd_setFld_ne other, rfl⟩

/-- The selector of measurements takes the numbers 1 to 9. -/
theorem exec_mgtMeasSelWrite_selects (inv : s.Inv) (w : Word) :
    ∃ t, exec (.mgtMeasSelWrite w) s = .next t ∧ t.mgt = { s.mgt with measDue := true }
      ∧ t.fld Reg.MGT_MEAS_SEL Fd.MGT_MEAS_SEL_INDEX
          = (if 1 ≤ Fd.MGT_MEAS_SEL_INDEX.get w ∧ Fd.MGT_MEAS_SEL_INDEX.get w ≤ 9 then Fd.MGT_MEAS_SEL_INDEX.get w
             else s.fld Reg.MGT_MEAS_SEL Fd.MGT_MEAS_SEL_INDEX)
      ∧ (∀ o, o ≠ Reg.MGT_MEAS_SEL → t.rd o = s.rd o) ∧ t = { s with regs := t.regs, mgt := t.mgt } := by
  have run : exec (.mgtMeasSelWrite w) s =
      let u := if 1 ≤ Fd.MGT_MEAS_SEL_INDEX.get w ∧ Fd.MGT_MEAS_SEL_INDEX.get w ≤ 9
        then s.setFld Reg.MGT_MEAS_SEL Fd.MGT_MEAS_SEL_INDEX (Fd.MGT_MEAS_SEL_INDEX.get w) else s
      .next { u with mgt := { u.mgt with measDue := true } } := rfl
  by_cases named : 1 ≤ Fd.MGT_MEAS_SEL_INDEX.get w ∧ Fd.MGT_MEAS_SEL_INDEX.get w ≤ 9
  · obtain ⟨set, others⟩ := State.setFld_selects inv Reg.MGT_MEAS_SEL (g := Fd.MGT_MEAS_SEL_INDEX) (by decide) w
    rw [if_pos named] at run
    exact ⟨_, run, rfl, set.trans (if_pos named).symm, others, rfl⟩
  · rw [if_neg named] at run
    exact ⟨_, run, rfl, (if_neg named).symm, fun _ _ => rfl, rfl⟩

/-- The register at `off` is a selector: one read-write field, which the lock leaves open and on which no condition stands. -/
def isSelector (off : Nat) (g : Fld) : Bool :=
  match regAt off with
  | some ⟨_, _, _, [f]⟩ => f.fld == g && f.acc == .rw && f.rule == .any && f.lockFree && !chkSw1 off && off != Reg.ITN_CTL && decide g.fits
  | _ => false

/-- A write of a selector sets its field and asks for what `ask` asks. -/
theorem State.hostWrite_selector {g : Fld} (sel : isSelector off g = true) (inv : s.Inv) (ready : s.mgtReady = true) (w : Word) (ask : State → State) :
    let t := s.setFld off g (g.get w)
    s.hostWrite off (fun s => ask (s.regWrite off w)) = ask t ∧ t.fld off g = g.get w ∧ ∀ o, o ≠ off → t.rd o = s.rd o := by
  intro t
  unfold isSelector at sel
  split at sel
  · rename_i f listed
    simp only [Bool.and_eq_true, beq_iff_eq, Bool.not_eq_true', bne_iff_ne, decide_eq_true_eq] at sel
    obtain ⟨⟨⟨⟨⟨⟨rfl, rw⟩, free⟩, lockFree⟩, notChk⟩, notItn⟩, fits⟩ := sel
    have written := State.regWrite_fields listed notChk notItn (by simp [rw, free]) s w
    refine ⟨?_, State.setFld_selects inv off fits w⟩
    rw [State.hostWrite_ready ready, written]
    simp [State.writeField_any rw free, State.lockOpen, lockFree, t]
  · exact nomatch sel

/-- Settles O15: four selectors are alike, and TEL_CTR_SEL and MGT_MEAS_SEL have lemmas of their own. -/
theorem selectorWritesAskForASnapshot : Obligations.SelectorWritesAskForASnapshot := by
  unfold Obligations.SelectorWritesAskForASnapshot
  refine ⟨fun s w inv ready => ⟨?_, ?_, ?_, ?_, ?_⟩, fun s w inv => exec_mgtMeasSelWrite_selects inv w⟩
  · obtain ⟨done, set, others⟩ := State.hostWrite_selector (off := Reg.RDM_QP_SEL) (g := Fd.RDM_QP_SEL_QPN) (by decide +kernel) inv ready w
      fun u => { u with rdm := { u.rdm with selDue := true } }
    exact ⟨_, congrArg Host.Outcome.next done, set, others, rfl⟩
  · obtain ⟨done, set, others⟩ := State.hostWrite_selector (off := Reg.TMG_CHAN_SEL) (g := Fd.TMG_CHAN_SEL_HANDLE) (by decide +kernel) inv ready w
      fun u => { u with net := { u.net with tmgSel := true } }
    exact ⟨_, congrArg Host.Outcome.next done, set, others, rfl⟩
  · obtain ⟨done, set, others⟩ := State.hostWrite_selector (off := Reg.LAY_VOL_SEL) (g := Fd.LAY_VOL_SEL_VOLUME) (by decide +kernel) inv ready w
      fun u => { u with lay := { u.lay with selDue := true } }
    exact ⟨_, congrArg Host.Outcome.next done, set, others, rfl⟩
  · obtain ⟨done, set, others⟩ := State.hostWrite_selector (off := Reg.CIP_KEY_SEL) (g := Fd.CIP_KEY_SEL_SLOT) (by decide +kernel) inv ready w
      fun u => { u with cip := { u.cip with selDue := true } }
    exact ⟨_, congrArg Host.Outcome.next done, set, others, rfl⟩
  · obtain ⟨set, inst, others, rest⟩ := State.fld_regWrite_telCtrSel inv w
    refine ⟨{ s.regWrite Reg.TEL_CTR_SEL w with tel := { s.tel with ctrDue := true } }, ?_, set, inst, others, by rw [rest]⟩
    show Host.Outcome.next (s.hostWrite _ _) = _
    rw [State.hostWrite_ready ready, rest]

end Sys2Proof.Machine

/-! ## Rings (03 R78 to R92, R98, R99) -/

namespace Sys2Proof.Machine

open Sys2Proof

variable {s u : State} {k : Nat} {w : Word}

/-! ### The registers of a ring lie apart -/

/-- The registers of a ring and the two flags of a refused configuration are different registers. -/
structure RingApart (k : Nat) : Prop where
  status_ctl : ringStatus k ≠ ringCtl k
  idx_ctl : ringIdx k ≠ ringCtl k
  idx_status : ringIdx k ≠ ringStatus k
  size_ctl : ringSize k ≠ ringCtl k
  status_swc : ringStatus k ≠ Reg.SWC_STATUS
  status_bay : ringStatus k ≠ Reg.BAY_GLB_STATUS
  size_swc : ringSize k ≠ Reg.SWC_STATUS
  size_bay : ringSize k ≠ Reg.BAY_GLB_STATUS

theorem ringApart (small : k ≤ evtRing) : RingApart k := by
  have apart : ∀ k < 65, (ringStatus k ≠ ringCtl k ∧ ringIdx k ≠ ringCtl k ∧ ringIdx k ≠ ringStatus k ∧ ringSize k ≠ ringCtl k)
      ∧ (ringStatus k ≠ Reg.SWC_STATUS ∧ ringStatus k ≠ Reg.BAY_GLB_STATUS ∧ ringSize k ≠ Reg.SWC_STATUS ∧ ringSize k ≠ Reg.BAY_GLB_STATUS) := by
    decide +kernel
  obtain ⟨⟨a, b, c, d⟩, e, f, g, h⟩ := apart k (Nat.lt_succ_of_le small)
  exact ⟨a, b, c, d, e, f, g, h⟩

/-! ### What a write of RING_CTL leaves alone -/

/-- While the lock is open, a write of RING_CTL leaves the state of the ring, its size and its hidden part as they are. -/
theorem State.regWrite_ringCtl (opened : s.locked = false) (small : k ≤ evtRing) (w : Word) :
    let u := s.regWrite (ringCtl k) w
    u.ringState k = s.ringState k ∧ u.fld (ringSize k) Fd.RING_SIZE_ENTRIES = s.fld (ringSize k) Fd.RING_SIZE_ENTRIES ∧ u.hst = s.hst := by
  intro u
  have A := ringApart small
  have W := State.regWrite_writes opened (ringCtl k) w
  exact ⟨W.fld _ A.status_ctl A.status_swc A.status_bay, W.fld _ A.size_ctl A.size_swc A.size_bay, by rw [show u = _ from W.rest]⟩

/-- The state with ring `k` enabled with `n` entries: RUNNING, with index 0, phase 1 and no entry posted. -/
def State.ringStarted (s : State) (k n : Nat) : State :=
  (((s.setFld (ringCtl k) Fd.RING_CTL_ENABLE 1).setRingState k ringRunning).wrReg (ringIdx k) 0).setRing k
    { Ring.reset with entries := n, outst := (s.ring k).outst }

/-- The state in which the setup of ring `k` is refused. -/
def State.ringRefused (s : State) (k : Nat) : State := s.setFld (ringStatus k) Fd.RING_STATUS_ERR_STATUS St.RING_FORMAT

/-- A ring is started or refused by the size in its register. -/
theorem State.ringEnable_eq (s : State) (k : Nat) : s.ringEnable k =
    if entriesOk (s.fld (ringSize k) Fd.RING_SIZE_ENTRIES) = true then s.ringStarted k (s.fld (ringSize k) Fd.RING_SIZE_ENTRIES) else s.ringRefused k := rfl

theorem State.ringStarted_running (wf : Tab.wf regReset u.regs = true) (small : k ≤ evtRing) (n : Nat) : (u.ringStarted k n).ringState k = ringRunning := by
  have A := ringApart small
  refine (congrArg Fd.RING_STATUS_STATE.get (State.rd_wrReg_ne A.idx_status.symm)).trans ?_
  exact State.fld_setFld (State.wf_setFld wf ..) ringRunning (by decide)

theorem State.ringStarted_enable (wf : Tab.wf regReset u.regs = true) (small : k ≤ evtRing) (n : Nat) :
    (u.ringStarted k n).fld (ringCtl k) Fd.RING_CTL_ENABLE = 1 := by
  have A := ringApart small
  refine (congrArg Fd.RING_CTL_ENABLE.get (State.rd_wrReg_ne A.idx_ctl.symm)).trans ?_
  exact (State.fld_setFld_ne A.status_ctl.symm).trans (State.fld_setFld wf 1 (by decide))

theorem State.ringStarted_idx (wf : Tab.wf regReset u.regs = true) (k n : Nat) : (u.ringStarted k n).rd (ringIdx k) = 0 :=
  State.rd_wrReg (State.wf_setFld (State.wf_setFld wf ..) ..) (ringIdx k) 0

/-- A refused setup leaves the state of the ring. -/
theorem State.ringState_ringRefused (wf : Tab.wf regReset u.regs = true) : (u.ringRefused k).ringState k = u.ringState k :=
  State.fld_setFld_apart wf St.RING_FORMAT (by decide) (by decide)

/-! ### Enabling -/

/-- ENABLE written as 1 to a DISABLED ring while the lock is open enables it, after the other fields. -/
theorem State.ctlEnable_disabled (opened : s.locked = false) (small : k ≤ evtRing) (enable : Fd.RING_CTL_ENABLE.get w = 1)
    (disabled : s.ringState k = ringDisabled) : s.ctlEnable k w = (s.regWrite (ringCtl k) w).ringEnable k := by
  obtain ⟨state, -, -⟩ := State.regWrite_ringCtl opened small w
  simp [State.ctlEnable, State.enableOpen, opened, enable, state, disabled]

/-- Its effect by the size in its register. -/
theorem State.ctlEnable_eq (opened : s.locked = false) (small : k ≤ evtRing) (enable : Fd.RING_CTL_ENABLE.get w = 1)
    (disabled : s.ringState k = ringDisabled) :
    s.ctlEnable k w = if entriesOk (s.fld (ringSize k) Fd.RING_SIZE_ENTRIES) = true
      then (s.regWrite (ringCtl k) w).ringStarted k (s.fld (ringSize k) Fd.RING_SIZE_ENTRIES) else (s.regWrite (ringCtl k) w).ringRefused k := by
  obtain ⟨-, size, -⟩ := State.regWrite_ringCtl opened small w
  rw [State.ctlEnable_disabled opened small enable disabled, State.ringEnable_eq, size]

theorem exec_ringCtlEnable (ready : s.mgtReady = true) (k : Fin 64) (w : Word) :
    exec (.ringCtlEnable k w) s = .next ((s.ctlEnable k w).irqCheck k) :=
  congrArg Host.Outcome.next (State.hostWrite_ready ready ..)

theorem exec_ringEvtCtlEnable (ready : s.mgtReady = true) (w : Word) : exec (.ringEvtCtlEnable w) s = .next (s.evtCtlEnable w) :=
  congrArg Host.Outcome.next (State.hostWrite_ready ready ..)

/-- Enabling the event ring raises what waits for it and posts the backlog once it runs. -/
theorem State.evtCtlEnable_disabled (disabled : s.ringState evtRing = ringDisabled) {v : State} (enabled : s.ctlEnable evtRing w = v) :
    s.evtCtlEnable w = if v.ringState evtRing = ringRunning then v.owedReports.drainEvents.irqCheck evtRing else v.irqCheck evtRing := by
  have notYet : (ringDisabled != ringRunning) = true := by decide
  simp only [State.evtCtlEnable, enabled, disabled, notYet, Bool.true_and, beq_iff_eq]

/-! ### Disabling -/

/-- ENABLE written as 0 to a ring that is not DISABLED stops its fetching and lets it drain. -/
theorem State.ctlDisable_drains (opened : s.locked = false) (small : k ≤ evtRing) (disable : Fd.RING_CTL_ENABLE.get w = 0)
    (on : s.ringState k ≠ ringDisabled) :
    s.ctlDisable k w = ((s.regWrite (ringCtl k) w).setFld (ringCtl k) Fd.RING_CTL_ENABLE 0).setRing k { s.ring k with draining := true } := by
  obtain ⟨state, -, hst⟩ := State.regWrite_ringCtl opened small w
  have ring : (s.regWrite (ringCtl k) w).ring k = s.ring k := by rw [State.ring, hst]; rfl
  simp [State.ctlDisable, State.enableOpen, opened, disable, state, on, ring]

/-- What the draining ring shows. -/
theorem State.ctlDisable_shows (inv : s.Inv) (opened : s.locked = false) (small : k ≤ evtRing) (disable : Fd.RING_CTL_ENABLE.get w = 0)
    (on : s.ringState k ≠ ringDisabled) :
    let u := s.ctlDisable k w
    Tab.wf regReset u.regs = true ∧ u.ringState k = s.ringState k ∧ u.fld (ringCtl k) Fd.RING_CTL_ENABLE = 0
      ∧ (∀ o, o ≠ ringCtl k → o ≠ Reg.SWC_STATUS → o ≠ Reg.BAY_GLB_STATUS → u.rd o = s.rd o)
      ∧ u = { s.setRing k { s.ring k with draining := true } with regs := u.regs } := by
  intro u
  have drains : u = _ := State.ctlDisable_drains opened small disable on
  have W := State.regWrite_writes opened (ringCtl k) w
  have wf := W.wf inv.regs
  obtain ⟨state, -, -⟩ := State.regWrite_ringCtl opened small w
  rw [drains]
  refine ⟨State.wf_setFld wf .., ?_, State.fld_setFld wf 0 (by decide), fun o notCtl notSwc notBay => ?_, ?_⟩
  · exact (State.fld_setFld_ne (ringApart small).status_ctl).trans state
  · exact (State.rd_setFld_ne notCtl).trans (W.regs o notCtl notSwc notBay)
  · rw [W.rest]; rfl

theorem exec_ringCtlDisable (ready : s.mgtReady = true) (k : Fin 64) (w : Word) :
    exec (.ringCtlDisable k w) s = .next ((s.ctlDisable k w).irqCheck k) :=
  congrArg Host.Outcome.next (State.hostWrite_ready ready ..)

/-- A ring that no command holds is settled once it drains or is to be deleted. -/
theorem State.settleRing_idle (idle : s.ringBusy k = false) (ends : (s.ring k).draining = true ∨ (s.ring k).deleting ≠ none) :
    s.settleRing k = (((s.setRing k { s.ring k with
          draining := false, deleting := none, held := [],
          resetup := (s.ring k).resetup || (s.ring k).draining && (s.ringState k == ringError || s.ringState k == ringStopped) }).setRingState k
        ringDisabled).setFld (ringCtl k) Fd.RING_CTL_ENABLE 0).doneOpt (s.ring k).deleting St.OK 0 0 := if_pos ⟨idle, ends⟩

/-- A settled ring is DISABLED, and stays so through what tells the control host. -/
theorem State.settleRing_disabled (wf : Tab.wf regReset s.regs = true) (small : k ≤ evtRing) (idle : s.ringBusy k = false)
    (ends : (s.ring k).draining = true ∨ (s.ring k).deleting ≠ none) {t : State} (told : Tells (s.settleRing k) t) :
    t.ringState k = ringDisabled ∧ t.fld (ringCtl k) Fd.RING_CTL_ENABLE = 0 := by
  obtain ⟨ctl, status⟩ := tellOff_ring small
  rw [State.settleRing_idle idle ends] at told
  have all := (State.doneOpt_tells ..).trans told
  constructor
  · refine (congrArg Fd.RING_STATUS_STATE.get (all.regs _ status)).trans ?_
    exact (State.fld_setFld_ne (ringApart small).status_ctl).trans (State.fld_setFld wf ringDisabled (by decide))
  · refine (congrArg Fd.RING_CTL_ENABLE.get (all.regs _ ctl)).trans ?_
    exact State.fld_setFld (State.wf_setFld wf ..) 0 (by decide)

/-- The event ring is settled in the write that disables it. -/
theorem exec_ringEvtCtlDisable_settles (inv : s.Inv) (ready : s.mgtReady = true) (opened : s.locked = false)
    (disable : Fd.RING_CTL_ENABLE.get w = 0) (on : s.ringState evtRing ≠ ringDisabled) (idle : s.ringBusy evtRing = false)
    (rising : Tab.rising s.hst.rings = true) :
    ∃ t, exec (.ringEvtCtlDisable w) s = .next t ∧ t.ringState evtRing = ringDisabled ∧ t.fld Reg.RING_EVT_CTL Fd.RING_CTL_ENABLE = 0 := by
  obtain ⟨wf, -, -, -, rest⟩ := State.ctlDisable_shows inv opened (Nat.le_refl evtRing) disable on
  have drains : ((s.ctlDisable evtRing w).ring evtRing).draining = true := by
    rw [rest]
    exact congrArg Ring.draining (Tab.rd_wr_same rising)
  have stillIdle : (s.ctlDisable evtRing w).ringBusy evtRing = false := by rw [rest]; exact idle
  refine ⟨((s.ctlDisable evtRing w).settleRing evtRing).irqCheck evtRing, ?_,
    State.settleRing_disabled wf (Nat.le_refl evtRing) stillIdle (.inl drains) (.irqCheck _)⟩
  refine congrArg Host.Outcome.next ((State.hostWrite_ready ready ..).trans ?_)
  simp only [drains, if_true]

/-- Settles O16: enabling starts or refuses the ring, disabling drains it, and a drained ring is settled. -/
theorem ringsAreEnabledAndDisabled : Obligations.RingsAreEnabledAndDisabled := by
  unfold Obligations.RingsAreEnabledAndDisabled
  refine ⟨fun s w k u inv ready opened small enable disabled hu => ?_, fun s k w inv ready opened disable on => ?_,
    fun s w => exec_ringEvtCtlDisable_settles, fun s k idle ends => congrArg Host.Outcome.next (State.settleRing_idle idle ends)⟩
  · subst hu
    intro v bad
    have wf := (State.regWrite_writes opened (ringCtl k) w).wf inv.regs
    obtain ⟨state, -, hst⟩ := State.regWrite_ringCtl opened small w
    have enabled := State.ctlEnable_eq opened small enable disabled
    have started : (s.regWrite (ringCtl k) w).ringStarted k (s.fld (ringSize k) Fd.RING_SIZE_ENTRIES) = v := by
      rw [State.ringStarted, State.ring, hst]; rfl
    have running : v.ringState k = ringRunning := started ▸ State.ringStarted_running wf small _
    have stays : bad.ringState k = ringDisabled := (State.ringState_ringRefused wf).trans (state.trans disabled)
    refine ⟨running, started ▸ State.ringStarted_enable wf small _, started ▸ State.ringStarted_idx wf k _, stays,
      fun valid => ⟨fun h => ?_, fun evt => ?_⟩, fun invalid => ⟨fun h => ?_, fun evt => ?_⟩⟩
    · rw [if_pos valid, started] at enabled
      rw [exec_ringCtlEnable ready]
      exact congrArg (fun t => Host.Outcome.next (t.irqCheck k)) enabled
    · subst evt
      rw [if_pos valid, started] at enabled
      rw [exec_ringEvtCtlEnable ready, State.evtCtlEnable_disabled disabled enabled, if_pos running]
    · rw [if_neg (Bool.eq_false_iff.mp invalid)] at enabled
      rw [exec_ringCtlEnable ready]
      exact congrArg (fun t => Host.Outcome.next (t.irqCheck k)) enabled
    · subst evt
      rw [if_neg (Bool.eq_false_iff.mp invalid)] at enabled
      rw [exec_ringEvtCtlEnable ready, State.evtCtlEnable_disabled disabled enabled]
      exact congrArg Host.Outcome.next (if_neg fun run => absurd (stays.symm.trans run) (by decide))
  · obtain ⟨-, state, off, others, rest⟩ := State.ctlDisable_shows inv opened (Nat.le_of_lt k.isLt) disable on
    refine ⟨_, exec_ringCtlDisable ready k w, state, off, ?_, others, rest⟩
    simp [State.canFetch, off]

end Sys2Proof.Machine

/-! ### Doorbells (03 R81, R82, R84) -/

namespace Sys2Proof.Machine

open Sys2Proof

variable {s u t : State} {k : Nat} {w : Word} {d : Desc}

theorem ringValue_command (k : Fin 64) : ringValue k = k := if_neg (Nat.ne_of_lt k.isLt)

theorem exec_commandDoorbell (ready : s.mgtReady = true) (k : Fin 64) (v : Word) :
    exec (.commandDoorbell k v) s = .next (s.cmdDoorbell k v.toNat) := congrArg Host.Outcome.next (State.hostWrite_ready ready ..)

theorem exec_completionDoorbell (ready : s.mgtReady = true) (k : Fin 64) (v : Word) :
    exec (.completionDoorbell k v) s = .next (s.consDoorbell k (64 + k) v.toNat) := congrArg Host.Outcome.next (State.hostWrite_ready ready ..)

theorem exec_eventDoorbell (ready : s.mgtReady = true) (v : Word) :
    exec (.eventDoorbell v) s = .next (s.consDoorbell evtRing 128 v.toNat).drainEvents := congrArg Host.Outcome.next (State.hostWrite_ready ready ..)

/-- A command doorbell of an enabled RUNNING ring that repeats no value is accepted or refused by its range. -/
theorem State.cmdDoorbell_new {v : Nat} (running : s.ringState k = ringRunning) (enabled : s.fld (ringCtl k) Fd.RING_CTL_ENABLE = 1)
    (new : v ≠ (s.ring k).producer) :
    s.cmdDoorbell k v = if (s.ring k).entries ≤ v then s.ringToError k Ev.RING_DOORBELL_ERR (ringValue k) k v
      else s.setRing k { s.ring k with producer := v } := by
  simp [State.cmdDoorbell, running, enabled, new]

/-- A consumer doorbell of a RUNNING ring that frees posted entries only: the entries left count again. -/
theorem State.consDoorbell_frees {page v : Nat} (running : s.ringState k = ringRunning)
    (inRange : v < (s.ring k).entries)
    (posted : (v + (s.ring k).entries - (s.ring k).cons) % (s.ring k).entries ≤ (s.ringTail k + (s.ring k).entries - (s.ring k).cons) % (s.ring k).entries) :
    s.consDoorbell k page v = (s.setRing k (if (s.ring k).sent
      then { s.ring k with cons := v, sent := false, unsig := (s.ringTail k + (s.ring k).entries - v) % (s.ring k).entries, firstUnsig := s.now }
      else { s.ring k with cons := v, unsig := min (s.ring k).unsig ((s.ringTail k + (s.ring k).entries - v) % (s.ring k).entries) })).irqCheck k := by
  simp [State.consDoorbell, running, Nat.not_le.mpr inRange, Nat.not_lt.mpr posted]

/-- One that names no posted entry puts the ring in ERROR. -/
theorem State.consDoorbell_refused {page v : Nat} (running : s.ringState k = ringRunning)
    (out : (s.ring k).entries ≤ v ∨ (s.ringTail k + (s.ring k).entries - (s.ring k).cons) % (s.ring k).entries
      < (v + (s.ring k).entries - (s.ring k).cons) % (s.ring k).entries) :
    s.consDoorbell k page v = s.ringToError k Ev.RING_DOORBELL_ERR (ringValue k) page v := by
  unfold State.consDoorbell
  simp only [running, ne_eq, not_true_eq_false, if_false]
  exact if_pos out

/-- Settles O17: each doorbell by its ring and its range. -/
theorem doorbellsMoveTheIndices : Obligations.DoorbellsMoveTheIndices := by
  unfold Obligations.DoorbellsMoveTheIndices
  intro s k v ready
  refine ⟨fun running enabled new => ?_, fun running => ?_, fun running inRange posted => ?_⟩
  · have moves := State.cmdDoorbell_new running enabled new
    rw [exec_commandDoorbell ready, moves, ringValue_command]
    exact ⟨fun inRange => congrArg _ (if_neg (Nat.not_le.mpr inRange)), fun out => congrArg _ (if_pos out)⟩
  · intro e left
    refine ⟨fun inRange posted => ?_, fun out => ?_⟩
    · rw [exec_completionDoorbell ready, State.consDoorbell_frees running inRange posted]
    · rw [exec_completionDoorbell ready, State.consDoorbell_refused running out, ringValue_command]
  · rw [exec_eventDoorbell ready, State.consDoorbell_frees running inRange posted]
    exact ⟨_, by split <;> rfl, rfl⟩

/-! ### Fetching (03 R78, R85, R90 to R92) -/

/-- The state in which ring `k` has been read at its head: the turn, the head, the count of outstanding descriptors and the fetch order have moved. -/
def State.fetched (s : State) (k : Nat) : State :=
  let h := s.fld (Reg.RING_IDX k) Fd.RING_IDX_CMD_HEAD
  let a := ((s.takeTurn k).emit (.hostRead (s.cmdSlot k h) 64)).setFld (Reg.RING_IDX k) Fd.RING_IDX_CMD_HEAD
    (if (s.ring k).entries ≤ h + 1 then 0 else h + 1)
  let b := a.setRing k { s.ring k with outst := (s.ring k).outst + 1 }
  { b with hst := { b.hst with fetchSeq := s.hst.fetchSeq + 1 } }

/-- What becomes of the descriptor `d` that has been fetched. -/
def State.received (s : State) (d : Desc) : State :=
  if ¬ opcodes.contains d.opcode then s.done d St.GEN_OPCODE
  else if 8 ≤ d.flags then s.done d St.GEN_FIELD
  else if d.opcode = Op.NOP then s.done d (if d.handle = 0 ∧ d.reservedZero [] then St.OK else St.GEN_FIELD)
  else if s.fenceHeld d then { s with hst := { s.hst with queue := s.hst.queue ++ [{ d with late := true }] } }
  else if 1024 ≤ s.levelCount d.prio then s.busy d
  else { s with hst := { s.hst with queue := s.hst.queue ++ [d] } }

theorem State.fetch_eq (s : State) (k : Nat) (bytes : List Byte) :
    s.fetch k bytes = (s.fetched k).received (Desc.ofBytes k s.hst.fetchSeq s.now bytes) := rfl

/-- MGT_BUSY_RETRY carries a back-off of 100 to 100,000 µs that the spec leaves open. -/
theorem State.busy_backoff (s : State) (d : Desc) :
    ∃ b, 100 ≤ b ∧ b ≤ 100000 ∧ s.busy d = { s with drawn := s.drawn + 1 }.complete d St.MGT_BUSY_RETRY 0 0 b :=
  ⟨100 + (Config.freeValue s.drawn).toNat % 99901, by omega, by omega, rfl⟩

theorem State.received_unknown (unknown : opcodes.contains d.opcode = false) : s.received d = s.done d St.GEN_OPCODE :=
  if_pos (Bool.eq_false_iff.mp unknown)

/-- A known opcode with a reserved flag. -/
theorem State.received_flag (known : opcodes.contains d.opcode = true) (flag : 8 ≤ d.flags) : s.received d = s.done d St.GEN_FIELD := by
  rw [State.received, if_neg (not_not_intro known), if_pos flag]

theorem State.received_nop (nop : d.opcode = Op.NOP) (plain : d.flags < 8) :
    s.received d = s.done d (if d.handle = 0 ∧ d.reservedZero [] then St.OK else St.GEN_FIELD) := by
  rw [State.received, if_neg (by rw [nop]; decide), if_neg (Nat.not_le.mpr plain), if_pos nop]

/-- A descriptor of a known opcode joins the work queue, waits for a fence, or finds its level full. -/
theorem State.received_work (known : opcodes.contains d.opcode = true) (plain : d.flags < 8) (work : d.opcode ≠ Op.NOP) :
    s.received d = if s.fenceHeld d then { s with hst := { s.hst with queue := s.hst.queue ++ [{ d with late := true }] } }
      else if 1024 ≤ s.levelCount d.prio then s.busy d else { s with hst := { s.hst with queue := s.hst.queue ++ [d] } } := by
  rw [State.received, if_neg (not_not_intro known), if_neg (Nat.not_le.mpr plain), if_neg work]

theorem exec_descriptorFetch_turn {k : Fin 64} {bytes : List Byte} (turn : s.fetchRing = some k.val) :
    exec (.descriptorFetch k bytes) s = .next ((s.fetched k).received (Desc.ofBytes k s.hst.fetchSeq s.now bytes)) :=
  congrArg Host.Outcome.next (if_pos turn)

theorem exec_nop_turn {k : Fin 64} {bytes : List Byte} (turn : s.fetchRing = some k.val)
    (nop : (Desc.ofBytes k s.hst.fetchSeq s.now bytes).opcode = Op.NOP) :
    exec (.nop k bytes) s = .next ((s.fetched k).received (Desc.ofBytes k s.hst.fetchSeq s.now bytes)) :=
  congrArg Host.Outcome.next (if_pos ⟨turn, nop⟩)

/-- Settles O18: what a fetched descriptor becomes, by its opcode, its flags and its level. -/
theorem descriptorsAreFetched : Obligations.DescriptorsAreFetched := by
  unfold Obligations.DescriptorsAreFetched
  refine ⟨fun s k bytes d u turn hd hu => ?_, fun s k bytes other => ⟨?_, ?_⟩, fun s d late => ?_⟩
  · replace hu : u = s.fetched k := hu
    have runs : exec (.descriptorFetch k bytes) s = .next (u.received d) := by rw [exec_descriptorFetch_turn turn, ← hd, ← hu]
    refine ⟨fun unknown => ?_, fun known flag => ?_, fun known plain work => ?_, fun nop plain => ?_⟩
    · rw [runs, State.received_unknown unknown]
    · rw [runs, State.received_flag known flag]
    · rw [runs, State.received_work known plain work]
      refine ⟨fun held => by rw [if_pos held], fun free room => ?_, fun free full => ?_⟩
      · rw [if_neg (Bool.eq_false_iff.mp free), if_neg (Nat.not_le.mpr room)]
      · rw [if_neg (Bool.eq_false_iff.mp free), if_pos full]
        obtain ⟨b, low, high, busy⟩ := u.busy_backoff d
        exact ⟨b, low, high, congrArg _ busy⟩
    · have nops : exec (.nop k bytes) s = .next (u.received d) := by rw [exec_nop_turn turn (hd ▸ nop), ← hd, ← hu]
      rw [nops, State.received_nop nop plain]
      refine ⟨fun handle zero => by rw [if_pos ⟨handle, zero⟩], fun bad => ?_⟩
      rw [if_neg fun ok => bad.elim (· ok.1) fun notZero => Bool.false_ne_true (notZero.symm.trans ok.2)]
  · exact congrArg Host.Outcome.next (if_neg other)
  · exact congrArg Host.Outcome.next (if_neg fun h => other h.1)
  · obtain ⟨b, low, high, busy⟩ := State.busy_backoff { s with hst := { s.hst with queue := s.hst.queue.filter fun e => e.seq ≠ d.seq } } d
    refine ⟨b, low, high, ?_⟩
    show Host.Outcome.next (match s.hst.queue.find? _ with | none => s | some d => _) = _
    rw [late]
    exact congrArg _ busy

/-! ### What stops a ring or tells the host (03 R98, R99) -/

theorem State.ringToError_tells (s : State) (k code v0 v1 v2 : Nat) :
    Tells ((s.setRingState k ringError).setFld (ringStatus k) Fd.RING_STATUS_ERR_STATUS code) (s.ringToError k code v0 v1 v2) :=
  (Tells.setRing ..).trans (State.raise_tells ..)

/-- A ring that leaves RUNNING is in ERROR. -/
theorem State.ringToError_error (inv : s.Inv) (small : k ≤ evtRing) (code v0 v1 v2 : Nat) : (s.ringToError k code v0 v1 v2).ringState k = ringError := by
  refine (congrArg Fd.RING_STATUS_STATE.get ((s.ringToError_tells k code v0 v1 v2).regs _ (tellOff_ring small).2)).trans ?_
  refine (State.fld_setFld_apart (State.wf_setFld inv.regs ..) code (by decide) (by decide)).trans ?_
  exact State.fld_setFld inv.regs ringError (by decide)

theorem ringStatus_inj {j k : Nat} (smallJ : j < 65) (smallK : k < 65) (same : ringStatus j = ringStatus k) : j = k := by
  simp only [ringStatus, evtRing, Reg.RING_EVT_STATUS, Reg.RING_STATUS] at same
  by_cases hj : j = 64 <;> by_cases hk : k = 64 <;> simp only [hj, hk, if_true, if_false] at same <;> omega

/-- Stopping rings sets their state, and that of no other ring. -/
theorem State.stopRing_foldl {ks : List Nat} (small : ∀ j ∈ ks, j < 65) (s : State) (wf : Tab.wf regReset s.regs = true) {k : Nat} (smallK : k < 65) :
    (ks.foldl State.stopRing s).ringState k = if k ∈ ks then ringStopped else s.ringState k := by
  induction ks generalizing s with
  | nil => simp
  | cons j js ih =>
    rw [List.foldl_cons, ih (fun i hi => small i (.tail _ hi)) (s.stopRing j) (State.wf_setFld wf ..)]
    by_cases later : k ∈ js
    · simp [later]
    by_cases here : k = j
    · subst here
      simp only [later, if_false, List.mem_cons, true_or, if_true]
      exact State.fld_setFld wf ringStopped (by decide)
    · have apart : ringStatus k ≠ ringStatus j := fun same => here (ringStatus_inj smallK (small j (.head _)) same)
      simp only [later, if_false, List.mem_cons, here, or_self]
      exact State.fld_setFld_ne apart

/-- An endpoint reset stops the rings that are RUNNING or in ERROR, and no other. -/
theorem State.stopRings_ringState (inv : s.Inv) (kind : Nat) (small : k < 65) :
    (s.stopRings kind).ringState k = if s.ringState k = ringRunning ∨ s.ringState k = ringError then ringStopped else s.ringState k := by
  have named : (k ∈ (List.range 65).filter fun k => s.ringState k == ringRunning || s.ringState k == ringError)
      ↔ s.ringState k = ringRunning ∨ s.ringState k = ringError := by simp [small]
  unfold State.stopRings
  extract_lets ks t
  have stopped : t.ringState k = _ := State.stopRing_foldl (fun j hj => List.mem_range.mp (List.mem_filter.mp hj).1) s inv.regs small
  simp only [named] at stopped
  rw [← stopped]
  split
  · rfl
  · exact State.raise_fld _ _ _ _ _ _ (tellOff_ring (Nat.le_of_lt_succ small)).2

end Sys2Proof.Machine

namespace Sys2Proof.Machine

open Sys2Proof

variable {s u t : State} {k : Nat} {d : Desc}

/-! ### Endpoint resets -/

theorem State.copyAbort_rd {o : Nat} (notCnt : o ≠ Reg.TEL_CNT 3) (notStatus : o ≠ Reg.TEL_STATUS) (s : State) : s.copyAbort.rd o = s.rd o := by
  unfold State.copyAbort
  split
  · exact (State.rd_setFld_ne notStatus).trans (State.rd_setFld_ne notCnt)
  · rfl

/-- After an endpoint reset no dump is being copied. -/
theorem State.copyAbort_dumping (inv : s.Inv) : s.copyAbort.flag Reg.TEL_STATUS Fd.TEL_STATUS_DUMPING = false := by
  unfold State.copyAbort
  split
  · exact congrArg (· == 1) (State.fld_setFld (State.wf_setFld inv.regs ..) 0 (by decide))
  · rename_i idle
    exact Bool.eq_false_iff.mpr idle

/-- The end of a dump's copy leaves the rings. -/
theorem State.copyAbort_ringState (small : k < 65) (s : State) : s.copyAbort.ringState k = s.ringState k := by
  have apart : ∀ k < 65, ringStatus k ≠ Reg.TEL_CNT 3 ∧ ringStatus k ≠ Reg.TEL_STATUS := by decide +kernel
  exact congrArg Fd.RING_STATUS_STATE.get (State.copyAbort_rd (apart k small).1 (apart k small).2 s)

/-- The message of a ring whose time limit has passed is sent. -/
theorem exec_msixCoalesceTimeout_due {k : Fin 65} (on : s.fld (ringCtl k) Fd.RING_CTL_IRQ_EN = 1) (silent : (s.ring k).sent = false)
    (owed : 0 < (s.ring k).unsig) (limited : 0 < s.fld (ringCoal k) Fd.RING_COAL_TIME_US)
    (passed : s.fld (ringCoal k) Fd.RING_COAL_TIME_US * 125 ≤ (s.now - (s.ring k).firstUnsig) * 128) :
    exec (.msixCoalesceTimeout k) s = .next ((s.setRing k { s.ring k with sent := true, unsig := 0 }).msix (s.fld (ringCtl k) Fd.RING_CTL_VECTOR)) :=
  congrArg Host.Outcome.next (if_pos ⟨on, silent, owed, Nat.pos_iff_ne_zero.mp limited, passed⟩)

/-- Settles O19: a failed DMA, a time limit and an endpoint reset, each with what it does to its ring. -/
theorem ringsStopAndSignal : Obligations.RingsStopAndSignal := by
  unfold Obligations.RingsStopAndSignal
  refine ⟨fun s k addr inv running => ?_, fun s k => exec_msixCoalesceTimeout_due, fun s u kind inv hu => ?_⟩
  · exact ⟨_, congrArg Host.Outcome.next (if_pos running), State.ringToError_error inv (Nat.le_of_lt_succ k.isLt) .., State.ringToError_tells ..⟩
  · subst hu
    have stopped (k : Nat) (small : k < 65) := (State.copyAbort_ringState small _).trans (State.stopRings_ringState inv kind small)
    refine ⟨rfl, rfl, fun k small on => (stopped k small).trans (if_pos on), fun k small notRunning notError => ?_,
      State.copyAbort_dumping ((State.stopRings_keeps s kind).inv inv)⟩
    exact (stopped k small).trans (if_neg (not_or.mpr ⟨notRunning, notError⟩))

/-! ## Ring commands (03 R91 to R95, R102, R103) -/

/-- A ring command that the standby does not repeat runs its body on the started descriptor. -/
theorem State.ringCmd_alone {op : Nat} (takes : s.Takes op d) (alone : (op != Op.POOL_CREATE && !replicatedOpcodes.contains op) = true)
    (body : Desc → State → State) : s.ringCmd op body = body d (s.start d) := by
  simp only [Bool.and_eq_true, bne_iff_ne, Bool.not_eq_true'] at alone
  rw [State.ringCmd_takes takes alone.1, if_neg (Bool.eq_false_iff.mp alone.2)]

/-- One that the standby repeats is sent to it as well (03 R94). -/
theorem State.ringCmd_repeated {op : Nat} (takes : s.Takes op d) (repeats : (op != Op.POOL_CREATE && replicatedOpcodes.contains op) = true)
    (body : Desc → State → State) : s.ringCmd op body = (body d (s.start d)).replicate (.command d.toBytes true []) := by
  simp only [Bool.and_eq_true, bne_iff_ne] at repeats
  rw [State.ringCmd_takes takes repeats.1, if_pos repeats.2]

/-- The same of a command that reads a buffer. -/
theorem State.ringData_alone {op : Nat} (takes : s.Takes op d) (alone : (op != Op.POOL_CREATE && !replicatedOpcodes.contains op) = true)
    (ok : Bool) (data : List Byte) (body : Desc → State → State) : s.ringData op ok data body = body d (s.start d) := by
  simp only [Bool.and_eq_true, bne_iff_ne, Bool.not_eq_true'] at alone
  rw [State.ringData_takes' takes alone.1, if_neg (Bool.eq_false_iff.mp alone.2)]

theorem State.ringData_repeated {op : Nat} (takes : s.Takes op d) (repeats : (op != Op.POOL_CREATE && replicatedOpcodes.contains op) = true)
    (ok : Bool) (data : List Byte) (body : Desc → State → State) :
    s.ringData op ok data body = (body d (s.start d)).replicate (.command d.toBytes ok data) := by
  simp only [Bool.and_eq_true, bne_iff_ne] at repeats
  rw [State.ringData_takes' takes repeats.1, if_pos repeats.2]

/-! ### RING_CREATE, RING_DELETE, HOST_ADD and HOST_REMOVE -/

theorem ringCreate_ok (s : State) (handle : d.handle = 0)
    (zero : d.reservedZero [(8, 1), (10, 2), (12, 4), (16, 8), (24, 8), (32, 2), (34, 2)] = true) (pos : 0 < d.f 8 1) (ring : d.f 8 1 ≤ 63)
    (vector : d.f 10 2 ≤ 2047) (entries : entriesOk (d.f 12 4) = true) (cmd : d.f 16 8 % 4096 = 0) (cpl : d.f 24 8 % 4096 = 0)
    (disabled : s.ringState (d.f 8 1) = ringDisabled) (wf : Tab.wf regReset s.regs = true) :
    let k := d.f 8 1
    let a := ((((s.wrReg (Reg.RING_CMD_BASE_LO k) (BitVec.ofNat 32 (d.f 16 8))).wrReg (Reg.RING_CMD_BASE_HI k)
      (BitVec.ofNat 32 (d.f 16 8 / 4294967296))).wrReg (Reg.RING_CPL_BASE_LO k) (BitVec.ofNat 32 (d.f 24 8))).wrReg (Reg.RING_CPL_BASE_HI k)
      (BitVec.ofNat 32 (d.f 24 8 / 4294967296)))
    let b := (((a.setFld (Reg.RING_SIZE k) Fd.RING_SIZE_ENTRIES (d.f 12 4)).setFld (Reg.RING_CTL k) Fd.RING_CTL_VECTOR (d.f 10 2)).setFld
      (Reg.RING_COAL k) Fd.RING_COAL_COUNT (d.f 32 2)).setFld (Reg.RING_COAL k) Fd.RING_COAL_TIME_US (d.f 34 2)
    ringCreate d s = (b.ringStarted k (d.f 12 4)).done d St.OK := by
  intro k a b
  have size : b.fld (ringSize k) Fd.RING_SIZE_ENTRIES = d.f 12 4 := by
    have same : ringSize k = Reg.RING_SIZE k := if_neg (by simp only [evtRing]; omega)
    have fits : d.f 12 4 < 2 ^ 17 := by
      simp only [entriesOk, Bool.and_eq_true, decide_eq_true_eq] at entries
      omega
    have coal : Reg.RING_SIZE k ≠ Reg.RING_COAL k := by simp only [Reg.RING_SIZE, Reg.RING_COAL]; omega
    have ctl : Reg.RING_SIZE k ≠ Reg.RING_CTL k := by simp only [Reg.RING_SIZE, Reg.RING_CTL]; omega
    have wfA : Tab.wf regReset a.regs = true := State.wf_wrReg (State.wf_wrReg (State.wf_wrReg (State.wf_wrReg wf ..) ..) ..) ..
    rw [same]
    calc b.fld (Reg.RING_SIZE k) Fd.RING_SIZE_ENTRIES
      _ = (a.setFld (Reg.RING_SIZE k) Fd.RING_SIZE_ENTRIES (d.f 12 4)).fld (Reg.RING_SIZE k) Fd.RING_SIZE_ENTRIES := by
        rw [State.fld_setFld_ne coal, State.fld_setFld_ne coal, State.fld_setFld_ne ctl]
      _ = d.f 12 4 % 2 ^ 17 := State.fld_setFld wfA _ (by decide)
      _ = d.f 12 4 := Nat.mod_eq_of_lt fits
  have enabled : b.ringEnable k = b.ringStarted k (d.f 12 4) := by rw [State.ringEnable_eq, size, if_pos entries]
  rw [← enabled]
  unfold ringCreate
  refine (State.checked_of_all ?_).trans rfl
  simp [handle, zero, ring, vector, entries, cmd, cpl, disabled, Nat.pos_iff_ne_zero.mp pos]

theorem ringDelete_ok (s : State) (handle : d.handle = 0) (zero : d.reservedZero [(8, 1)] = true) (ring : d.f 8 1 ≤ 63) (other : d.f 8 1 ≠ d.ring)
    (pos : 0 < d.f 8 1) (on : s.ringState (d.f 8 1) ≠ ringDisabled) :
    ringDelete d s = s.setRing (d.f 8 1) { s.ring (d.f 8 1) with deleting := some d } := by
  unfold ringDelete
  refine (State.checked_of_all ?_).trans rfl
  simp [handle, zero, ring, other, on, Nat.pos_iff_ne_zero.mp pos]

theorem hostAdd_ok (s : State) {nqn : List Byte} (handle : d.handle = 0) (zero : d.reservedZero [(8, 2), (16, 8), (24, 16)] = true)
    (index : d.f 8 2 ≤ 16383) (named : cString (nqn.take 256) ≠ []) (short : (cString (nqn.take 256)).length < 224) (free : (s.hostEnt (d.f 8 2)).nqn = [])
    (new : ∀ e ∈ s.hst.hosts, e.2.nqn ≠ cString (nqn.take 256)) :
    hostAdd true nqn d s = (s.setHost (d.f 8 2) { nqn := cString (nqn.take 256), hostid := d.bytes 24 16 }).done d St.OK := by
  have noTwin : s.hst.hosts.any (fun e => e.2.nqn == cString (nqn.take 256)) = false := by
    simp only [List.any_eq_false, beq_iff_eq]
    exact new
  unfold hostAdd
  refine (State.checked_of_all ?_).trans rfl
  simp [handle, zero, index, named, short, free, noTwin]

theorem hostRemove_ok (s : State) (handle : d.handle = 0) (zero : d.reservedZero [(8, 2)] = true) (index : d.f 8 2 ≤ 16383)
    (known : (s.hostEnt (d.f 8 2)).nqn ≠ []) (noChan : ∀ c ∈ s.liveChans, (s.chan c).host ≠ d.f 8 2) (noQp : s.hostConnected (d.f 8 2) = false) :
    hostRemove d s = (s.setHost (d.f 8 2) HostEnt.reset).done d St.OK := by
  have free : s.liveChans.any (fun i => (s.chan i).host == d.f 8 2) = false := by
    simp only [List.any_eq_false, beq_iff_eq]
    exact noChan
  unfold hostRemove
  refine (State.checked_of_all ?_).trans rfl
  simp [handle, zero, index, known, free, noQp]

/-- Settles O20: the body of each opcode, its checks passed, on the started descriptor. -/
theorem ringAndHostCommands : Obligations.RingAndHostCommands := by
  unfold Obligations.RingAndHostCommands
  refine ⟨?_, ?_, ?_, ?_⟩
  · intro s d takes handle zero pos ring vector entries cmd cpl disabled inv k a b
    refine congrArg Host.Outcome.next ((State.ringCmd_alone takes (by decide) _).trans ?_)
    exact ringCreate_ok (s.start d) handle zero pos ring vector entries cmd cpl disabled inv.regs
  · intro s d takes handle zero ring other pos on
    refine congrArg Host.Outcome.next ((State.ringCmd_alone takes (by decide) _).trans ?_)
    exact ringDelete_ok (s.start d) handle zero ring other pos on
  · intro s d nqn takes handle zero index named short free new
    refine congrArg Host.Outcome.next ((State.ringData_repeated takes (by decide) ..).trans ?_)
    rw [hostAdd_ok (s.start d) handle zero index named short free new]
  · intro s d takes handle zero index known noChan noQp
    refine congrArg Host.Outcome.next ((State.ringCmd_repeated takes (by decide) _).trans ?_)
    rw [hostRemove_ok (s.start d) handle zero index known noChan noQp]

end Sys2Proof.Machine

/-! ## The itinerary (02) -/

namespace Sys2Proof.Machine

open Sys2Proof

variable {s u : State} {d : Desc} {w : Word}

/-! ### Loads (02 R59, Table 2-9) -/

/-- A load into buffer `b` has started. -/
def State.loading (s : State) (b : Bool) (size : Nat) (d : Option Desc) : State :=
  (((s.setBuf b { st := .loading, bytes := [], img := Image.blank, loader := d, loadSize := size }).wrReg (Reg.ITN_IMAGE_ID_LO (b2n b)) 0).wrReg
    (Reg.ITN_IMAGE_ID_HI (b2n b)) 0).setMeas (7 + b2n b) (zeros 48)

theorem State.loadStart_free {b : Bool} (free : (s.buf b).st = .empty ∨ (s.buf b).st = .ready) (size : Nat) (d : Option Desc) :
    s.loadStart b size d = (true, s.loading b size d) := if_pos free

theorem State.loadStart_busy {b : Bool} (notEmpty : (s.buf b).st ≠ .empty) (notReady : (s.buf b).st ≠ .ready) (size : Nat) (d : Option Desc) :
    s.loadStart b size d = (false, s.loadStatus St.ITN_BUSY) := if_neg (not_or.mpr ⟨notEmpty, notReady⟩)

/-- IMG_LOAD with its operands in order asks for the load of the buffer that it names. -/
theorem imgLoad_ok {b : Bool} (handle : d.handle = 0) (zero : d.reservedZero [(8, 1), (16, 8), (24, 4)] = true) (named : d.f 8 1 = b2n b)
    (aligned : d.aligned 16 4096 = true) (s : State) :
    imgLoad d s = if (s.loadStart b (d.f 24 4) (some d)).1 then (s.loadStart b (d.f 24 4) (some d)).2
      else (s.loadStart b (d.f 24 4) (some d)).2.done d St.ITN_BUSY := by
  have small : b2n b ≤ 1 := by cases b <;> decide
  have which : (b2n b == 1) = b := by cases b <;> rfl
  unfold imgLoad
  refine (State.checked_of_all ?_).trans ?_
  · simp [handle, zero, named, aligned, small]
  · rw [named, which]

/-- Settles O21: a load by its buffer's state, and its end by the verdict of the checks. -/
theorem imagesAreLoaded : Obligations.ImagesAreLoaded := by
  unfold Obligations.ImagesAreLoaded
  refine ⟨fun s u d b takes hu handle zero named aligned => ?_, fun s u w b ready opened load hu hb free => ?_, fun s b ok bytes loading => ?_⟩
  · subst hu
    have runs : exec .imgLoad s = .next (imgLoad d (s.start d)) := congrArg Host.Outcome.next (State.ringCmd_alone takes (by decide) _)
    rw [runs, imgLoad_ok handle zero named aligned]
    exact ⟨fun free => by rw [State.loadStart_free free]; rfl, fun notEmpty notReady => by rw [State.loadStart_busy notEmpty notReady]; rfl⟩
  · subst hu hb
    refine congrArg Host.Outcome.next ((State.hostWrite_ready ready ..).trans ?_)
    simp only [State.itnCtlLoad, opened, load, State.loadStart_free free]
    rfl
  · refine congrArg Host.Outcome.next ?_
    unfold State.copyDone
    rw [if_neg (not_not_intro loading)]
    cases s.imageVerdict b ok bytes <;> rfl

/-! ### Swaps and the start (02 R60 to R62) -/

/-- A swap that no check refuses is pending. -/
def State.swapPending (s : State) (n : Nat) (d : Option Desc) : State :=
  let v := s.setBuf (!s.itn.activeB) { s.buf (!s.itn.activeB) with st := .pending }
  { v with itn := { v.itn with swapPend := n, swapDesc := d } }

theorem State.swapRequest_ok (accepted : s.swapRefusal = none) (mode : Nat) (d : Option Desc) :
    s.swapRequest mode d = s.swapPending (if mode = 0 ∧ natBit (s.buf (!s.itn.activeB)).img.flags 0 then 1 else 2) d := by
  unfold State.swapRequest
  rw [accepted]
  rfl

theorem State.swapRequest_refused {c : Nat} (refused : s.swapRefusal = some c) (mode : Nat) (d : Option Desc) :
    s.swapRequest mode d = (s.loadStatus c).doneOpt d c 0 0 := by
  unfold State.swapRequest
  rw [refused]

theorem imgSwap_ok (handle : d.handle = 0) (zero : d.reservedZero [(8, 1)] = true) (mode : d.f 8 1 ≤ 1) (s : State) :
    imgSwap d s = s.swapRequest (d.f 8 1) (some d) := by
  unfold imgSwap
  refine (State.checked_of_all ?_).trans rfl
  simp [handle, zero, mode]

theorem variantExit_ok (handle : d.handle = 0) (zero : d.reservedZero [(8, 1)] = true) (low : 1 ≤ d.f 8 1) (high : d.f 8 1 ≤ 16) (s : State) :
    variantExit d s = if s.itn.running = true ∧ s.itn.variant = d.f 8 1 ∧ s.itn.exitDesc = none ∧ s.exitOk = true
      then { s with itn := { s.itn with exitDesc := some d } } else s.done d St.GEN_STATE := by
  have operands : (d.handle == 0 && d.reservedZero [(8, 1)] && decide (1 ≤ d.f 8 1) && decide (d.f 8 1 ≤ 16)) = true := by
    simp [handle, zero, low, high]
  unfold variantExit State.checked
  dsimp only
  rw [firstFail, if_pos operands, firstFail]
  by_cases accepted : s.itn.running = true ∧ s.itn.variant = d.f 8 1 ∧ s.itn.exitDesc = none ∧ s.exitOk = true
  · rw [if_pos accepted, if_pos (by simp [accepted])]
    rfl
  · have refused : (s.itn.running && s.itn.variant == d.f 8 1 && s.itn.exitDesc.isNone && s.exitOk) = false := by
      simpa [and_assoc] using accepted
    rw [if_neg accepted, if_neg (Bool.eq_false_iff.mp refused)]

/-- Settles O22: swaps, the start, exits and homeward channels by their conditions. -/
theorem imagesAreSwappedAndVariantsLeft : Obligations.ImagesAreSwappedAndVariantsLeft := by
  unfold Obligations.ImagesAreSwappedAndVariantsLeft
  refine ⟨⟨?_, ?_, ?_, ?_⟩, ?_, ?_⟩
  · intro s u d takes hu handle zero mode
    subst hu
    have runs : exec .imgSwap s = .next (((s.start d).swapRequest (d.f 8 1) (some d)).replicate (.command d.toBytes true [])) := by
      rw [← imgSwap_ok handle zero mode]
      exact congrArg Host.Outcome.next (State.ringCmd_repeated takes (by decide) _)
    rw [runs]
    exact ⟨fun accepted => by rw [State.swapRequest_ok accepted]; rfl, fun c refused => by rw [State.swapRequest_refused refused]; rfl⟩
  · intro s u w ready opened swap hu accepted
    subst hu
    refine congrArg Host.Outcome.next ((State.hostWrite_ready ready ..).trans ?_)
    simp only [opened, swap, State.swapRequest_ok accepted, true_and]
    rfl
  · intro s changes due b u v x y
    have sameItn : y.itn = x.itn := (State.raise_frame ..).2.2.1
    refine ⟨by rw [State.img, State.buf, sameItn]; rfl, congrArg Host.Outcome.next ?_⟩
    rw [if_pos changes, State.swapNow, if_pos due]
  · intro s u w ready opened start hu stopped notDone image hbm
    subst hu
    refine congrArg Host.Outcome.next ((State.hostWrite_ready ready ..).trans ?_)
    exact if_neg (by simp [opened, start, stopped, notDone, image, hbm])
  · intro s u d takes hu handle zero low high
    subst hu
    have runs : exec .variantExit s = .next ((variantExit d (s.start d)).replicate (.command d.toBytes true [])) :=
      congrArg Host.Outcome.next (State.ringCmd_repeated takes (by decide) variantExit)
    rw [variantExit_ok handle zero low high] at runs
    refine ⟨fun running variant free ok => ?_, fun refused => ?_⟩
    · rw [if_pos ⟨running, variant, free, ok⟩] at runs
      exact runs
    · rw [if_neg] at runs
      · exact runs
      · rintro ⟨running, variant, free, ok⟩
        rcases refused with off | other | pending | early
        · exact Bool.false_ne_true (off.symm.trans running)
        · exact other variant
        · exact pending free
        · exact Bool.false_ne_true (early.symm.trans ok)
  · intro s c changes live away variant0 quiet
    refine congrArg Host.Outcome.next ?_
    rw [if_pos changes]
    exact if_pos ⟨live, away, variant0, quiet⟩

end Sys2Proof.Machine

/-! ## Channels (03 R104 to R111) -/

namespace Sys2Proof.Machine

open Sys2Proof

variable {s u t : State} {d : Desc}

/-- A check that holds only under a mask bit. -/
theorem not_or_of_imp {b c : Bool} (h : b = true → c = true) : (!b || c) = true := by
  cases b
  · rfl
  · exact h rfl

/-! ### The opcodes, their checks passed -/

theorem chanCreate_ok (handle : d.handle = 0) (zero : d.reservedZero [(8, 15), (24, 20)] = true) (host : d.f 8 2 ≤ 16383) (cls : d.f 10 1 ≤ 253)
    (cluster : d.f 11 1 ≤ 11 ∨ d.f 11 1 = 0xFF) (nsid : d.f 12 4 ≤ 65536) (key : d.f 16 4 ≤ 65535 ∨ d.f 16 4 = 0xFFFFFFFF) (policy : d.f 20 1 ≤ 3)
    (attr : d.f 21 1 ≤ 7) (meter : d.meterOk = true) (sched : s.schedOk (d.f 40 2) (d.f 42 2) = true) (known : (s.hostEnt (d.f 8 2)).nqn ≠ [])
    (volume : d.f 12 4 = 0 ∨ ((s.vol (d.f 12 4 - 1)).st ≠ 0 ∧ (s.vol (d.f 12 4 - 1)).st ≠ 3)) (new : s.findChan (d.f 8 2) (d.f 12 4) = none)
    (serves : s.classOk (d.f 10 1) (d.f 12 4) = true) (slot : d.f 16 4 = s.keyOf (d.f 12 4)) (room : s.liveChans.length < 262144) :
    chanCreate d s = s.defer d := by
  unfold chanCreate
  refine (State.checked_of_all ?_).trans rfl
  simp [handle, zero, host, cls, cluster, nsid, key, policy, attr, meter, sched, known, volume, new, serves, ← slot, room]

theorem chanModify_ok {i : Nat} (live : s.chanOf d.handle = some i) (zero : d.reservedZero [(8, 15), (24, 22)] = true) (some : 0 < d.f 44 2)
    (fields : d.f 44 2 < 16)
    (cls : natBit (d.f 44 2) 0 = true → d.f 10 1 ≤ 253 ∧ (s.chan i).st ≠ .suspended ∧ s.classOk (d.f 10 1) (s.chan i).nsid = true)
    (attr : natBit (d.f 44 2) 1 = true → d.f 21 1 ≤ 7) (meter : natBit (d.f 44 2) 2 = true → d.meterOk = true)
    (sched : natBit (d.f 44 2) 3 = true → s.schedOk (d.f 40 2) (d.f 42 2) = true) (opened : (s.chan i).st ≠ .closing) :
    chanModify d s = s.defer d := by
  have class253 : (!natBit (d.f 44 2) 0 || decide (d.f 10 1 ≤ 253)) = true := not_or_of_imp fun bit => decide_eq_true (cls bit).1
  have serving : (!natBit (d.f 44 2) 0 || (s.chan i).st != .suspended) = true := not_or_of_imp fun bit => bne_iff_ne.mpr (cls bit).2.1
  have serves : (!natBit (d.f 44 2) 0 || s.classOk (d.f 10 1) (s.chan i).nsid) = true := not_or_of_imp fun bit => (cls bit).2.2
  have attr7 : (!natBit (d.f 44 2) 1 || decide (d.f 21 1 ≤ 7)) = true := not_or_of_imp fun bit => decide_eq_true (attr bit)
  unfold chanModify
  refine (State.checked_of_all ?_).trans rfl
  simp only [List.all_cons, List.all_nil, live, Option.getD_some, zero, class253, serving, serves, attr7, not_or_of_imp meter, not_or_of_imp sched]
  simp [Nat.pos_iff_ne_zero.mp some, fields, opened]

theorem chanDestroy_ok {i : Nat} (live : s.chanOf d.handle = some i) (zero : d.reservedZero [] = true) (opened : (s.chan i).st ≠ .closing) :
    chanDestroy d s = s.defer d := by
  unfold chanDestroy
  refine (State.checked_of_all ?_).trans rfl
  simp [live, zero, opened]

theorem chanQuery_ok {i : Nat} (live : s.chanOf d.handle = some i) (zero : d.reservedZero [] = true) :
    chanQuery d s = s.complete d St.OK (chanCode (s.chan i).st + 256 * (s.chan i).cls + 65536 * (s.chan i).cluster + 16777216 * (s.chan i).home
      + 4294967296 * s.inFlight i) ((s.chan i).host + 4294967296 * (s.chan i).nsid) 0 := by
  unfold chanQuery
  refine (State.checked_of_all ?_).trans ?_
  · simp [live, zero]
  · rw [live, Option.getD_some]

theorem chanList_ok {all : List Nat} (handle : d.handle = 0) (zero : d.reservedZero [(8, 2), (12, 4), (16, 8)] = true) (aligned : d.aligned 16 8 = true)
    (first : d.f 12 4 < 262144) (low : 1 ≤ d.f 8 2) (high : d.f 8 2 ≤ 4096) (live : all = s.liveChans.filter (fun i => decide (d.f 12 4 ≤ i))) :
    chanList true d s = (if all = [] then s else s.emit (.hostWrite (d.f 16 8) ((all.take (d.f 8 2)).flatMap s.chanRecord))).complete d St.OK
      (min (d.f 8 2) all.length) ((all.drop (d.f 8 2)).headD 0xFFFFFFFF) 0 := by
  have none : (all.take (d.f 8 2)).isEmpty = decide (all = []) := by
    cases all with
    | nil => simp
    | cons i is =>
      obtain ⟨n, more⟩ := Nat.exists_eq_succ_of_ne_zero (Nat.one_le_iff_ne_zero.mp low)
      simp [more]
  unfold chanList
  refine (State.checked_of_all ?_).trans ?_
  · simp [handle, zero, aligned, first, low, high]
  · rw [← live, none, List.length_take]
    simp only [decide_eq_true_eq]

/-! ### The life of a channel -/

/-- The channel that CHAN_CREATE makes on cluster `k`, before its index is taken. -/
def State.freshChan (s : State) (d : Desc) (i k : Nat) : Chan :=
  { st := .opened, gen := (s.chan i).gen, host := d.f 8 2, nsid := d.f 12 4, cls := d.f 10 1, oldCls := [], cluster := k, home := k,
    keySlot := d.f 16 4, policy := d.f 20 1, attr := d.f 21 1, meterMode := d.f 22 1, cir := d.f 24 4, pir := d.f 28 4,
    cbs := d.f 32 4, pbs := d.f 36 4, node := d.f 40 2, weight := d.f 42 2, credit := s.creditCap (d.f 10 1), born := s.hst.chanBorn,
    destroy := none, answered := 0, closedAt := 0, tc := d.f 32 4 * 1000, tp := d.f 36 4 * 1000, colour := 0, defq := [],
    firstEntry := (s.vol (d.f 12 4 - 1)).first, slabCount := (s.vol (d.f 12 4 - 1)).slabs.length }

/-- The state in which that channel is bound, its counters cleared. -/
def State.chanBound (s : State) (d : Desc) (i k : Nat) : State :=
  let s := s.takeChan
  let s := s.setChan i (s.freshChan d i k)
  let s := { s with tel := { s.tel with acc := (List.range 32).foldl (fun t j => Tab.wr (fun _ => 0) t (telKey 15 i j) 0) s.tel.acc } }
  { s with hst := { s.hst with chanBorn := s.hst.chanBorn + 1 } }

theorem State.chanCreateNow_bound {i k : Nat} (new : s.findChan (d.f 8 2) (d.f 12 4) = none) (cluster : s.pickCluster (d.f 10 1) (d.f 11 1) = some k)
    (free : s.freeChan = some i) :
    let u := s.chanBound d i k
    let v := if d.f 12 4 = 0 then u else u.nsChanged (d.f 12 4 - 1)
    s.chanCreateNow d = v.complete d St.OK (v.handleOf i + k * 4294967296) (v.capLeft (d.f 10 1) k) 0 := by
  unfold State.chanCreateNow
  simp only [new, cluster, free]
  rfl

theorem State.takeChan_chans (s : State) : s.takeChan.hst.chans = s.hst.chans := by unfold State.takeChan; split <;> rfl

theorem State.takeChan_chan (s : State) (i : Nat) : s.takeChan.chan i = s.chan i := congrArg (Tab.rd (fun _ => Chan.reset) · i) s.takeChan_chans

theorem State.takeChan_lay (s : State) : s.takeChan.lay = s.lay := by unfold State.takeChan; split <;> rfl

/-- The new channel is read back, the others as before. -/
theorem State.chanBound_chan (rising : Tab.rising s.hst.chans = true) (d : Desc) (i k : Nat) :
    (s.chanBound d i k).chan i = s.takeChan.freshChan d i k ∧ ∀ j, j ≠ i → (s.chanBound d i k).chan j = s.chan j := by
  refine ⟨Tab.rd_wr_same ?_, fun j other => (Tab.rd_wr_ne other).trans (s.takeChan_chan j)⟩
  rw [State.takeChan_chans]
  exact rising

theorem State.chanBound_unused {i k : Nat} (unused : s.hst.chanFresh < 262144) (free : s.freeChan = some i) :
    i = s.hst.chanFresh ∧ (s.chanBound d i k).hst.chanFresh = s.hst.chanFresh + 1 ∧ (s.chanBound d i k).hst.chanFreed = s.hst.chanFreed := by
  rw [State.freeChan, if_pos unused] at free
  rw [State.chanBound, State.takeChan, if_pos unused]
  exact ⟨(Option.some.inj free).symm, rfl, rfl⟩

theorem State.chanBound_reused {i k : Nat} (used : 262144 ≤ s.hst.chanFresh) (free : s.freeChan = some i) :
    s.hst.chanFreed = i :: (s.chanBound d i k).hst.chanFreed ∧ (s.chanBound d i k).hst.chanFresh = s.hst.chanFresh := by
  rw [State.freeChan, if_neg (Nat.not_lt.mpr used)] at free
  rw [State.chanBound, State.takeChan, if_neg (Nat.not_lt.mpr used)]
  refine ⟨?_, rfl⟩
  obtain ⟨rest, list⟩ := List.head?_eq_some_iff.mp free
  show s.hst.chanFreed = i :: s.hst.chanFreed.drop 1
  rw [list]
  rfl

/-- Settles O23: the opcodes with their checks passed, the binding of a new channel and the end of a closed one. -/
theorem channelsAreMadeBoundAndFreed : Obligations.ChannelsAreMadeBoundAndFreed := by
  unfold Obligations.ChannelsAreMadeBoundAndFreed
  refine ⟨⟨?_, ?_, ?_, ?_, ?_⟩, ?_, ?_⟩
  · intro s u d takes hu handle zero host cls cluster nsid key policy attr meter sched known volume new serves slot room
    subst hu
    refine congrArg Host.Outcome.next ((State.ringCmd_repeated takes (by decide) _).trans ?_)
    rw [chanCreate_ok handle zero host cls cluster nsid key policy attr meter sched known volume new serves slot room]
  · intro s u d i takes hu live zero some fields cls attr meter sched opened
    subst hu
    refine congrArg Host.Outcome.next ((State.ringCmd_repeated takes (by decide) _).trans ?_)
    rw [chanModify_ok live zero some fields cls attr meter sched opened]
  · intro s u d i takes hu live zero opened
    subst hu
    refine congrArg Host.Outcome.next ((State.ringCmd_repeated takes (by decide) _).trans ?_)
    rw [chanDestroy_ok live zero opened]
  · intro s u d i takes hu live zero
    subst hu
    exact congrArg Host.Outcome.next ((State.ringCmd_alone takes (by decide) _).trans (chanQuery_ok live zero))
  · intro s u d all takes hu handle zero aligned first low high live
    subst hu
    exact congrArg Host.Outcome.next ((State.ringCmd_alone takes (by decide) _).trans (chanList_ok handle zero aligned first low high live))
  · intro s d k i new cluster free rising
    obtain ⟨bound, others⟩ := State.chanBound_chan rising d i k
    have vols : s.takeChan.vol (d.f 12 4 - 1) = s.vol (d.f 12 4 - 1) := by rw [State.vol, State.takeChan_lay]; rfl
    refine ⟨s.chanBound d i k, State.chanCreateNow_bound new cluster free, ?_⟩
    have gen : (s.takeChan.chan i).gen = (s.chan i).gen := congrArg Chan.gen (s.takeChan_chan i)
    have first : (s.takeChan.vol (d.f 12 4 - 1)).first = (s.vol (d.f 12 4 - 1)).first := congrArg Vol.first vols
    have slabs : (s.takeChan.vol (d.f 12 4 - 1)).slabs.length = (s.vol (d.f 12 4 - 1)).slabs.length := congrArg (·.slabs.length) vols
    rw [bound]
    exact ⟨rfl, rfl, rfl, gen, rfl, rfl, rfl, rfl, rfl, first, slabs, others, fun unused => State.chanBound_unused unused free,
      fun used => State.chanBound_reused used free⟩
  · intro s c changes closing later quiet
    refine congrArg Host.Outcome.next ?_
    rw [if_pos changes]
    exact if_neg (by simp [closing, later, quiet])

end Sys2Proof.Machine

/-! ## The cipher engine and the check units (chapter 11) -/

namespace Sys2Proof.Machine

open Sys2Proof

variable {s u t : State} {d : Desc} {blob : List Byte}

/-! ### Key slots -/

theorem firstFail_of_all {cs : List (Bool × Nat)} (h : cs.all (·.1) = true) : firstFail cs = none := by
  induction cs with
  | nil => rfl
  | cons c cs ih =>
    obtain ⟨ok, code⟩ := c
    simp only [List.all_cons, Bool.and_eq_true] at h
    simp only [firstFail, h.1, if_true]
    exact ih h.2

/-- KEY_LOAD of a data key pair: what the unwrapped blob gives. -/
theorem keyLoadPair_ok (slot : d.handle < 65536) (len : d.f 24 2 = 72) (noAlarm : s.noAlarm = true) (keys : s.keyStop = false)
    (empty : s.keyPair d.handle = none) (idle : ∀ c ∈ s.cip.changes, c.kek = true ∨ c.index ≠ d.handle) (kek : s.kek (d.f 9 1) ≠ []) :
    keyLoadPair true blob d s = match Config.unwrapKey (s.kek (d.f 9 1)) blob with
      | none => (s.cntCip 6 1).done d St.CIP_UNWRAP
      | some raw =>
        let k1 := raw.take 32
        let k2 := sliceB raw 32 32
        if k1 = k2 then s.done d St.CIP_KEY_WEAK
        else if (s.volsOfKey d.handle).all fun v => (s.vol v).kcv == kcvOf k1 then
          (s.keyChange ⟨false, d.handle, some ⟨k1, k2, kcvOf k1⟩, [], some d, kcvOf k1⟩).replicate (.key false d.handle 0 (k1 ++ k2))
        else s.done d St.CIP_KEY_MISMATCH := by
  have noChange : s.cip.changes.any (fun c => !c.kek && c.index == d.handle) = false := by
    simp only [List.any_eq_false, Bool.and_eq_true, Bool.not_eq_true', beq_iff_eq, not_and_or, Bool.not_eq_false]
    exact idle
  have passes : firstFail [(d.f 24 2 == 72, St.CIP_LEN), (s.noAlarm && !s.keyStop, St.CIP_ALARMED),
      ((s.keyPair d.handle).isNone && !s.cip.changes.any (fun c => !c.kek && c.index == d.handle), St.CIP_SLOT_STATE),
      (!(s.kek (d.f 9 1)).isEmpty, St.CIP_NO_KEK)] = none := firstFail_of_all (by simp [len, noAlarm, keys, empty, noChange, kek])
  simp only [keyLoadPair, Nat.mod_eq_of_lt slot, passes]
  cases Config.unwrapKey (s.kek (d.f 9 1)) blob with
  | none => rfl
  | some raw =>
    by_cases weak : raw.take 32 = sliceB raw 32 32
    · simp [State.checked, firstFail, weak]
    · cases fits : (s.volsOfKey d.handle).all fun v => (s.vol v).kcv == kcvOf (raw.take 32) <;>
        simp only [State.checked, firstFail, Option.isNone_some, Option.isSome_some, Option.getD_some, Bool.false_and, Bool.false_eq_true, if_false,
          if_true, bne_iff_ne, ne_eq, weak, not_false_eq_true, fits]

/-- KEY_LOAD of a KEK under a session that is not known. -/
theorem keyLoadKek_noSession (len : d.f 24 2 = 68) (noAlarm : s.noAlarm = true) (keys : s.keyStop = false) (none : s.session (d.f 12 4) = none) :
    keyLoadKek true blob d s = s.done d St.CIP_AUTH := by
  simp [keyLoadKek, firstFail, len, noAlarm, keys, none]

/-- A blob whose number the session has used already. -/
theorem keyLoadKek_used {x : SpdmSess} (len : d.f 24 2 = 68) (noAlarm : s.noAlarm = true) (keys : s.keyStop = false)
    (sess : s.session (d.f 12 4) = some x) (used : leField blob 0 8 ≤ x.lastSeq) :
    keyLoadKek true blob d s = (s.cntCip 6 1).done d St.CIP_AUTH := by
  simp [keyLoadKek, firstFail, len, noAlarm, keys, sess, Nat.not_lt.mpr used, State.checked]

/-- A blob with a new number: what its opening gives. -/
theorem keyLoadKek_new {x : SpdmSess} (slot : d.handle < 16) (len : d.f 24 2 = 68) (noAlarm : s.noAlarm = true) (keys : s.keyStop = false)
    (sess : s.session (d.f 12 4) = some x) (new : x.lastSeq < leField blob 0 8) :
    let seq := leField blob 0 8
    let plain := Config.gcmOpen x.key (sliceB blob 8 12) (leBytes 1 d.handle ++ leBytes 4 (d.f 12 4) ++ blob.take 8) (sliceB blob 20 32) (sliceB blob 52 16)
    let v : State := { s with mgt := { s.mgt with sessions := s.mgt.sessions.map fun y => if y.id == d.f 12 4 then { y with lastSeq := seq } else y } }
    keyLoadKek true blob d s = match plain with
      | none => (s.cntCip 6 1).done d St.CIP_AUTH
      | some k => (v.keyChange ⟨true, d.handle, none, k, some d, kcvOf k⟩).replicate (.key true d.handle seq k) := by
  intro seq plain v
  have passes : firstFail [(d.f 24 2 == 68, St.CIP_LEN), (s.noAlarm && !s.keyStop, St.CIP_ALARMED), ((some x).isSome, St.CIP_AUTH)] = none :=
    firstFail_of_all (by simp [len, noAlarm, keys])
  simp only [keyLoadKek, Nat.mod_eq_of_lt slot, sess, passes, if_pos new]
  unfold plain
  cases Config.gcmOpen x.key (sliceB blob 8 12) (leBytes 1 d.handle ++ leBytes 4 (d.f 12 4) ++ blob.take 8) (sliceB blob 20 32) (sliceB blob 52 16) <;> rfl

theorem keyLoad_pair (kind : d.f 8 1 = 0) (zero : d.reservedZero [(8, 1), (9, 1), (12, 4), (16, 8), (24, 2)] = true) (slot : d.handle < 65536)
    (kek : d.f 9 1 < 16) (session : d.f 12 4 = 0) (s : State) : keyLoad true blob d s = keyLoadPair true blob d s := by
  unfold keyLoad
  refine (State.checked_of_all ?_).trans (if_pos kind)
  simp [kind, zero, slot, kek, session]

theorem keyLoad_kek (kind : d.f 8 1 = 1) (zero : d.reservedZero [(8, 1), (9, 1), (12, 4), (16, 8), (24, 2)] = true) (slot : d.handle < 16)
    (kek : d.f 9 1 = 0) (s : State) : keyLoad true blob d s = keyLoadKek true blob d s := by
  unfold keyLoad
  refine (State.checked_of_all ?_).trans (if_neg (by omega))
  simp [kind, zero, slot, kek]

/-- KEY_DESTROY of a loaded slot that no volume uses, or by force. -/
theorem keyDestroy_pair (zero : d.reservedZero [(8, 1), (9, 1)] = true) (kind : d.f 8 1 = 0) (force : d.f 9 1 ≤ 1) (slot : d.handle < 65536)
    (loaded : (s.keyPair d.handle).isSome = true) (unused : d.f 9 1 = 1 ∨ s.volsOfKey d.handle = []) :
    keyDestroy d s = s.keyChange ⟨false, d.handle, none, [], some d, (s.volsOfKey d.handle).length⟩ := by
  unfold keyDestroy
  simp only [Nat.mod_eq_of_lt slot, kind]
  refine (State.checked_of_all ?_).trans rfl
  simpa [zero, force, slot, loaded] using unused

theorem keyDestroy_kek (zero : d.reservedZero [(8, 1), (9, 1)] = true) (kind : d.f 8 1 = 1) (force : d.f 9 1 = 0) (slot : d.handle < 16)
    (loaded : s.kek d.handle ≠ []) : keyDestroy d s = s.keyChange ⟨true, d.handle, none, [], some d, 0⟩ := by
  unfold keyDestroy
  simp only [Nat.mod_eq_of_lt (Nat.lt_trans slot (by omega : 16 < 65536)), kind]
  refine (State.checked_of_all ?_).trans rfl
  simp [zero, force, slot, loaded]

/-- Settles O24: each KIND of the two opcodes with its checks passed, and the change that the seam makes. -/
theorem keysAreLoadedAndDestroyed : Obligations.KeysAreLoadedAndDestroyed := by
  unfold Obligations.KeysAreLoadedAndDestroyed
  refine ⟨?_, ?_, ?_, ?_⟩
  · intro s u d blob takes hu kind zero slot kekSlot session len noAlarm keys empty idle kek
    subst hu
    refine congrArg Host.Outcome.next ((State.ringData_alone takes (by decide) ..).trans ((keyLoad_pair kind zero slot kekSlot session _).trans ?_))
    exact keyLoadPair_ok slot len noAlarm keys empty idle kek
  · intro s u d blob takes hu kind zero slot kekSlot len noAlarm keys
    subst hu
    have runs : exec (.keyLoad true blob) s = .next (keyLoadKek true blob d (s.start d)) :=
      congrArg Host.Outcome.next ((State.ringData_alone takes (by decide) ..).trans (keyLoad_kek kind zero slot kekSlot _))
    rw [runs]
    refine ⟨fun none => ?_, fun x sess => ⟨fun used => ?_, fun new => ?_⟩⟩
    · rw [keyLoadKek_noSession len noAlarm keys none]
    · rw [keyLoadKek_used len noAlarm keys sess used]
    · exact congrArg Host.Outcome.next (keyLoadKek_new slot len noAlarm keys sess new)
  · intro s u d takes hu zero
    subst hu
    have runs : exec .keyDestroy s = .next ((keyDestroy d (s.start d)).replicate (.command d.toBytes true [])) :=
      congrArg Host.Outcome.next (State.ringCmd_repeated takes (by decide) _)
    rw [runs]
    refine ⟨fun kind force slot loaded unused => ?_, fun kind force slot loaded => ?_⟩
    · rw [keyDestroy_pair zero kind force slot loaded unused]
    · rw [keyDestroy_kek zero kind force slot loaded]
  · intro s c
    exact ⟨fun pair => by rw [State.keyApply, pair]; rfl, fun kek => by rw [State.keyApply, kek]; rfl⟩

/-! ### Alarms -/

/-- Asking for changes of clusters leaves the registers. -/
theorem State.foldl_cluWant_regs (st step : Nat) (ks : List Nat) (s : State) : (ks.foldl (fun s k => s.cluWant k st step) s).regs = s.regs := by
  induction ks generalizing s with
  | nil => rfl
  | cons k ks ih =>
    refine (ih _).trans ?_
    show (s.cluWant k st step).regs = s.regs
    unfold State.cluWant
    split <;> rfl

/-- CIP_ALARM's new value is the alarm state after a clearing write. -/
theorem State.alarmClear_eq (inv : s.Inv) (w present : Word) :
    let a := s.rd Reg.CIP_ALARM &&& ~~~(w &&& ~~~present)
    let v := (clusters.filter fun k => s.cluState k == cluWaitClear && !natBit (Fd.CIP_ALARM_ARRAY.get a) k).foldl (fun s k => s.cluWant k cluChecking 0)
      (s.wrReg Reg.CIP_ALARM a)
    State.alarmClear w present s = if a = 0 then v.setFld Reg.CIP_STATUS Fd.CIP_STATUS_ZEROISED 0 else v := by
  intro a v
  have written : (s.wrReg Reg.CIP_ALARM a).rd Reg.CIP_ALARM = a := State.rd_wrReg inv.regs ..
  have apart : ∀ k ∈ clusters, Reg.CRS_CLU_STATUS k ≠ Reg.CIP_ALARM := by decide +kernel
  have same : (clusters.filter fun k => (s.wrReg Reg.CIP_ALARM a).cluState k == cluWaitClear &&
      !natBit ((s.wrReg Reg.CIP_ALARM a).fld Reg.CIP_ALARM Fd.CIP_ALARM_ARRAY) k)
      = clusters.filter fun k => s.cluState k == cluWaitClear && !natBit (Fd.CIP_ALARM_ARRAY.get a) k := by
    refine List.filter_congr fun k listed => ?_
    rw [State.cluState, State.fld, State.rd_wrReg_ne (apart k listed), State.fld, written]
    rfl
  have after : v.rd Reg.CIP_ALARM = a := (congrArg (Tab.rd regReset · Reg.CIP_ALARM) (State.foldl_cluWant_regs ..)).trans written
  have asked : (clusters.filter fun k => (s.wrReg Reg.CIP_ALARM a).cluState k == cluWaitClear &&
      !natBit ((s.wrReg Reg.CIP_ALARM a).fld Reg.CIP_ALARM Fd.CIP_ALARM_ARRAY) k).foldl (fun s k => s.cluWant k cluChecking 0) (s.wrReg Reg.CIP_ALARM a)
      = v := congrArg (List.foldl _ _) same
  refine (congrArg (fun x : State => if x.noAlarm then x.setFld Reg.CIP_STATUS Fd.CIP_STATUS_ZEROISED 0 else x) asked).trans ?_
  simp only [State.noAlarm, after, beq_iff_eq]

theorem exec_cipherAlarm_zeroise {code : Fin 17} (h : (2 ≤ code.val ∧ code.val ≤ 5) ∨ (code.val = 1 ∧ s.flag Reg.CIP_CFG Fd.CIP_CFG_TAMPER_EN = true))
    (k : Fin 12) : exec (.cipherAlarm code k) s = .next (s.zeroAlarm code) := by
  refine congrArg Host.Outcome.next ?_
  have source : ¬(code.val = 0 ∨ (6 < code.val ∧ code.val ≠ 16) ∨ (code.val = 1 ∧ !s.flag Reg.CIP_CFG Fd.CIP_CFG_TAMPER_EN)) := by
    rcases h with range | ⟨one, enabled⟩
    · omega
    · simp [one, enabled]
  rw [State.alarm, if_neg source, if_neg (by omega), if_neg (by omega)]

/-- Settles O25: alarms by their scope, the tests of a halted generator, and the clearing write. -/
theorem alarmsZeroiseTheKeys : Obligations.AlarmsZeroiseTheKeys := by
  unfold Obligations.AlarmsZeroiseTheKeys
  refine ⟨fun s code k h => exec_cipherAlarm_zeroise h k, fun s => rfl, fun s k => ⟨rfl, rfl⟩, ?_, ?_⟩
  · intro s pass halted
    refine ⟨fun due => congrArg Host.Outcome.next (if_pos ?_), fun early => congrArg Host.Outcome.next (if_neg ?_)⟩
    · simp only [halted, retestTicks, due, decide_true, Bool.and_true]
    · simp only [halted, retestTicks, Nat.not_le.mpr early, decide_false, Bool.and_false, Bool.false_eq_true, not_false_eq_true]
  · intro s w present inv ready a u v
    have runs : exec (.cipAlarmClear w present) s = .next (if a = 0 then v.setFld Reg.CIP_STATUS Fd.CIP_STATUS_ZEROISED 0 else v) :=
      congrArg Host.Outcome.next ((State.hostWrite_ready ready ..).trans (State.alarmClear_eq inv w present))
    exact ⟨fun clear => runs.trans (congrArg Host.Outcome.next (if_pos clear)), fun latched => runs.trans (congrArg Host.Outcome.next (if_neg latched))⟩

/-! ### The software check engine -/

/-- Settles O26: the engine's start, the engine that is read-only, and the end of a run by its length and its read. -/
theorem checkEngineRuns : Obligations.CheckEngineRuns := by
  unfold Obligations.CheckEngineRuns
  refine ⟨?_, ?_, ?_⟩
  · intro s u w ready start hu idle run
    subst hu
    refine congrArg Host.Outcome.next ((State.hostWrite_ready ready ..).trans ?_)
    have starts : ¬(Fd.CHK_SW_CTL_START.get w == 0 ||
        (s.regWrite (Reg.CHK_SW_CTL 0) w).flag (Reg.CHK_SW_STATUS 0) Fd.CHK_SW_STATUS_BUSY) = true := by
      rw [start, idle]
      decide
    exact if_neg starts
  · intro s w ready
    exact congrArg Host.Outcome.next (State.hostWrite_ready ready ..)
  · intro s n ok data r running u v x
    refine ⟨fun some fits => ?_, fun bad => ?_⟩
    · have good : (decide (r.len = 0) || decide (16777216 < r.len)) = false := by simpa using ⟨Nat.pos_iff_ne_zero.mp some, fits⟩
      constructor <;>
      · show execChkSwDone .. = _
        simp only [execChkSwDone, running, good]
        rfl
    · have good : (decide (r.len = 0) || decide (16777216 < r.len)) = true := by simpa using bad
      show execChkSwDone .. = _
      simp only [execChkSwDone, running, good]
      rfl

end Sys2Proof.Machine

/-! ## Pools, volumes and maintenance (chapters 9 and 10) -/

namespace Sys2Proof.Machine

open Sys2Proof

variable {s u t : State} {d : Desc}

/-! ### The pool opcodes, their checks passed -/

theorem poolCreate_ok {list : List Byte} {bays : List Nat} {P : Pool} (small : d.handle < 16)
    (zero : d.reservedZero [(8, 1), (9, 1), (10, 1), (11, 1), (12, 1), (16, 8)] = true)
    (geom : geomOk (d.f 8 1) (d.f 9 1) (d.f 10 1) (d.f 11 1) (d.f 12 1) = true) (whole : list.length = 128)
    (named : bays = ((list.take 128).take (d.f 10 1)).map (·.toNat)) (inRange : ∀ b ∈ bays, b < 128) (rest : ∀ b ∈ list.drop (d.f 10 1), b = 0xFF)
    (free : (s.pool d.handle).st = 0) (quiet : (s.pool d.handle).desc = none) (served : (s.poolClass d.handle).isSome = true)
    (distinct : bays.eraseDups.length = d.f 10 1) (ready : ∀ b ∈ bays, s.bayReady b = true) (format : ∀ b ∈ bays, (s.bay b).ident.fmt = true)
    (made : P = poolOf d (s.fld Reg.LAY_DUMP_CFG Fd.LAY_DUMP_CFG_DUMP_GIB) (bays.map fun b => (b, (s.bay b).ident.bytes)))
    (frames : 1 ≤ P.frames) (slabs : 1 ≤ P.slabs) :
    ∃ uuid, poolCreate true list d s = { s with drawn := s.drawn + 2 }.setPool d.handle { P with uuid := uuid, desc := some d } := by
  refine ⟨leBytes 8 s.draw.1 ++ leBytes 8 s.draw.2.draw.1, ?_⟩
  unfold poolCreate
  simp only [Nat.mod_eq_of_lt small, ← named, ← made]
  refine (State.checked_of_all ?_).trans rfl
  simp only [List.all_cons, List.all_nil, Bool.and_eq_true, decide_eq_true_eq, beq_iff_eq, List.all_eq_true, Option.isNone_iff_eq_none, and_true]
  exact ⟨⟨⟨small, zero⟩, geom⟩, trivial, ⟨⟨whole, inRange⟩, rest⟩, ⟨free, quiet⟩, served, ⟨distinct, ready⟩, format, frames, slabs⟩

theorem poolDestroy_ok (small : d.handle < 16) (zero : d.reservedZero [] = true) (live : (s.pool d.handle).st ≠ 0) (noVols : s.volsOf d.handle = [])
    (noActs : (s.pool d.handle).acts = []) :
    poolDestroy d s = (((s.pool d.handle).bays.filter s.online).foldl
      (fun s b => (s.emitNet (.label b 0 (zeros 4096))).emitNet (.label b 1 (zeros 4096))) s).defer d := by
  unfold poolDestroy
  simp only [Nat.mod_eq_of_lt small]
  refine (State.checked_of_all ?_).trans rfl
  simp [small, zero, live, noVols, noActs]

theorem poolMemberAdd_ok (small : d.handle < 16) (zero : d.reservedZero [(8, 1), (9, 1)] = true) (slot : (s.pool d.handle).slotOk (d.f 8 1) = true)
    (bay : d.f 9 1 < 128) (live : (s.pool d.handle).st ≠ 0)
    (gone : ((s.pool d.handle).slot (d.f 8 1)).st = .missing ∨ ((s.pool d.handle).slot (d.f 8 1)).st = .vacant) (ready : s.bayReady (d.f 9 1) = true)
    (format : (s.bay (d.f 9 1)).ident.fmt = true)
    (room : (s.pool d.handle).base + (s.pool d.handle).frames * (s.pool d.handle).strip ≤ (s.bay (d.f 9 1)).ident.bytes) :
    poolMemberAdd d s = s.updPool d.handle fun P => { P with changes := P.changes ++ [(d.f 8 1, some (d.f 9 1), some d)] } := by
  unfold poolMemberAdd
  simp only [Nat.mod_eq_of_lt small]
  refine (State.checked_of_all ?_).trans rfl
  simp [small, zero, slot, bay, live, gone, ready, format, room]

/-- POOL_MEMBER_REMOVE: with two members missing the redundancy forbids it. -/
theorem poolMemberRemove_checked (small : d.handle < 16) (zero : d.reservedZero [(8, 1)] = true) (slot : (s.pool d.handle).slotOk (d.f 8 1) = true)
    (live : (s.pool d.handle).st ≠ 0)
    (here : ((s.pool d.handle).slot (d.f 8 1)).st = .present ∨ ((s.pool d.handle).slot (d.f 8 1)).st = .copyback) :
    poolMemberRemove d s = if (s.pool d.handle).missing < 2 then
        s.updPool d.handle fun P => { P with changes := P.changes ++ [(d.f 8 1, none, some d)] }
      else s.done d St.LAY_REDUNDANCY := by
  have passes : (((s.pool d.handle).slot (d.f 8 1)).st == .present || ((s.pool d.handle).slot (d.f 8 1)).st == .copyback) = true := by simpa using here
  unfold poolMemberRemove
  simp only [Nat.mod_eq_of_lt small, State.checked, firstFail, decide_eq_true small, zero, slot, bne_iff_ne.mpr live, passes, Bool.and_self, if_true]
  by_cases redundant : (s.pool d.handle).missing < 2 <;> simp only [redundant, decide_true, decide_false, if_true, if_false, Bool.false_eq_true]

/-! ### The volume opcodes, their checks passed -/

theorem volCreate_ok (small : d.handle < 65536) (zero : d.reservedZero [(8, 1), (9, 1), (10, 1), (12, 4), (16, 8), (24, 16)] = true) (pool : d.f 8 1 < 16)
    (format : d.f 9 1 ≤ 4) (uninit : d.f 10 1 ≤ 1) (key : d.f 12 4 < 65536 ∨ d.f 12 4 = 0xFFFFFFFF) (blocks : 1 ≤ d.f 16 8)
    (free : (s.vol d.handle).st = 0) (live : (s.pool (d.f 8 1)).st ≠ 0) (usable : (s.pool (d.f 8 1)).st ≠ 5)
    (loaded : d.f 12 4 = 0xFFFFFFFF ∨ (s.keyPair (d.f 12 4)).isSome = true) (named : allZero (d.bytes 24 16) = false)
    (new : ∀ v ∈ s.vols, (s.vol v).nguid ≠ d.bytes 24 16)
    (room : s.canHold d.handle (d.f 8 1) ((s.pool (d.f 8 1)).slabsFor (d.f 9 1) (d.f 16 8)) ((s.pool (d.f 8 1)).slabsFor (d.f 9 1) (d.f 16 8)) = true) :
    volCreate d s = s.defer d := by
  have noTwin : s.vols.all (fun i => (s.vol i).nguid != d.bytes 24 16) = true := List.all_eq_true.mpr fun v listed => bne_iff_ne.mpr (new v listed)
  unfold volCreate
  simp only [Nat.mod_eq_of_lt small]
  refine (State.checked_of_all ?_).trans rfl
  simp [small, zero, pool, format, uninit, key, blocks, free, live, usable, loaded, named, noTwin, room]

theorem volResize_ok (small : d.handle < 65536) (zero : d.reservedZero [(16, 8)] = true) (blocks : 1 ≤ d.f 16 8) (ready : (s.vol d.handle).st = 2)
    (less : (s.pool (s.vol d.handle).pool).slabsFor (s.vol d.handle).lbaf (d.f 16 8) ≤ (s.vol d.handle).slabs.length) : volResize d s = s.defer d := by
  unfold volResize
  simp only [Nat.mod_eq_of_lt small]
  refine (State.checked_of_all ?_).trans rfl
  simp [small, zero, blocks, ready, less]

theorem volDelete_ok (small : d.handle < 65536) (zero : d.reservedZero [] = true) (live : (s.vol d.handle).st ≠ 0) (settled : (s.vol d.handle).st ≠ 1)
    (unbound : ∀ c ∈ s.liveChans, (s.chan c).nsid ≠ d.handle + 1) : volDelete d s = s.defer d := by
  have noChan : s.liveChans.all (fun i => (s.chan i).nsid != d.handle + 1) = true := List.all_eq_true.mpr fun c listed => bne_iff_ne.mpr (unbound c listed)
  unfold volDelete
  simp only [Nat.mod_eq_of_lt small]
  refine (State.checked_of_all ?_).trans rfl
  simp [small, zero, live, settled, noChan]

/-- A volume is made at its seam when its identifier is still free and its pool still holds it. -/
theorem State.volCreateNow_ok {need : Nat} (small : d.handle < 65536) (new : ∀ v ∈ s.vols, (s.vol v).nguid ≠ d.bytes 24 16)
    (needs : need = (s.pool (d.f 8 1)).slabsFor (d.f 9 1) (d.f 16 8)) (room : s.canHold d.handle (d.f 8 1) need need = true) :
    let slabs := lowestFree (s.slabsUsed (d.f 8 1)) (s.pool (d.f 8 1)).slabs need
    let key := if d.f 12 4 = 0xFFFFFFFF then none else some (d.f 12 4)
    let x : Vol :=
      { Vol.reset with
        st := if d.f 10 1 = 1 then 2 else 1, pool := d.f 8 1, lbaf := d.f 9 1, key := key, kcv := ((key.bind s.keyPair).map (·.kcv)).getD 0, blocks := d.f 16 8
        nguid := d.bytes 24 16, uninit := d.f 10 1 == 1, first := (s.mapFor d.handle need).getD 0, slabs := slabs
        initEnd := if d.f 10 1 = 1 then 0 else need * (s.pool (d.f 8 1)).slabStripes, desc := some d, flushing := true, result := need }
    let u := (((s.setVol d.handle x).updPool (d.f 8 1) fun P => { P.withdraw slabs with flushFor := P.flushFor ++ [.vol d.handle] }).nsChanged d.handle).chanMaps d.handle
    s.volCreateNow d = if d.f 10 1 = 1 then u.raise Ev.LAY_VOL_READY d.handle need 0 else u := by
  intro slabs key x u
  have noTwin : s.vols.any (fun i => (s.vol i).nguid == d.bytes 24 16) = false := by
    simp only [List.any_eq_false, beq_iff_eq]
    exact new
  subst needs
  unfold State.volCreateNow
  simp only [Nat.mod_eq_of_lt small, noTwin, room, Bool.not_true, Bool.false_eq_true, if_false, beq_iff_eq]
  rfl

/-! ### The import of the pools -/

/-- Without pools no volume is taken from a snapshot. -/
theorem State.foldl_importVol_none (rs : List ImpVol) (noPools : s.lay.pools = []) : rs.foldl State.importVol s = s := by
  induction rs with
  | nil => rfl
  | cons r rs ih =>
    have noPool : (s.pool r.pool).st = 0 := by rw [State.pool, noPools]; rfl
    rw [List.foldl_cons, State.importVol, if_pos noPool, ih]

/-- A shelf without a valid label imports nothing but reservations. -/
theorem State.poolImport_empty {im : Import} (noLabel : ∀ e ∈ im.labels, bestLabel e.2.1 e.2.2 = none) (noPools : s.lay.pools = [])
    (noVols : s.lay.vols = []) :
    let resvs := im.resvs.foldl (fun t r => Tab.wr (fun _ => Resv.reset) t r.vol { regs := r.regs, rtype := r.rtype, holder := r.holder, gen := r.gen, ptpl := true }) s.cmd.resvs
    s.poolImport im = { s.setFld Reg.LAY_STATUS Fd.LAY_STATUS_START 3 with
      lay := { s.lay with runGen := 1, imported := true, journal := [] }, cmd := { s.cmd with resvs := resvs } } := by
  intro resvs
  have empty : im.labels.filterMap (fun (e : Nat × List Byte × List Byte) => (bestLabel e.2.1 e.2.2).map fun l => (e.1, l)) = [] := by
    rw [List.filterMap_eq_nil_iff]
    exact fun e listed => by rw [noLabel e listed]; rfl
  have noHeader : im.header.filter (fun (h : Nat × List Nat) => h.1 == 0 && false) = none := by
    cases im.header with
    | none => rfl
    | some h => simp
  have importVols : im.vols.foldl State.importVol ({ s with lay := { s.lay with runGen := 1, imported := true } }.setFld Reg.LAY_STATUS Fd.LAY_STATUS_START 3)
      = { s with lay := { s.lay with runGen := 1, imported := true } }.setFld Reg.LAY_STATUS Fd.LAY_STATUS_START 3 := State.foldl_importVol_none _ noPools
  unfold State.poolImport
  simp only [empty, List.foldl_nil, List.isEmpty_nil, Bool.not_true, noHeader, Option.isNone_none, if_true, Option.bind_none, Option.getD_none, List.map_nil,
    List.filter_nil, importVols]
  have noKeys {α : Type} (p : α → Bool) : Tab.keys p [] = [] := rfl
  simp only [State.pools, State.vols, State.setFld_frame, noPools, noVols, noKeys, List.foldl_nil]
  rfl

/-- Settles O27: each opcode with its checks passed, a volume at its seam, and the import of an empty shelf. -/
theorem poolAndVolumeCommands : Obligations.PoolAndVolumeCommands := by
  unfold Obligations.PoolAndVolumeCommands
  refine ⟨⟨?_, ?_, ?_, ?_⟩, ?_, ?_, ?_, ?_, ?_, ?_⟩
  · intro s u d e list bays P takes hd free hu small zero geom whole named inRange rest none quiet served distinct ready format made frames slabs
    subst hu
    subst hd
    obtain ⟨uuid, runs⟩ := poolCreate_ok small zero geom whole named inRange rest none quiet served distinct ready format made frames slabs
    refine ⟨uuid, congrArg Host.Outcome.next ((State.ringData_takes takes true list _ fun _ => free).trans ((if_pos (by decide)).trans ?_))⟩
    rw [runs]
  · intro s u d takes hu small zero live noVols noActs
    subst hu
    refine congrArg Host.Outcome.next ((State.ringCmd_repeated takes (by decide) _).trans ?_)
    rw [poolDestroy_ok small zero live noVols noActs]
  · intro s u d P takes hu hP small zero slot bay live gone ready format room
    subst hu
    subst hP
    refine congrArg Host.Outcome.next ((State.ringCmd_repeated takes (by decide) _).trans ?_)
    rw [poolMemberAdd_ok small zero slot bay live gone ready format room]
  · intro s u d P takes hu hP small zero slot live here
    subst hu
    subst hP
    have runs : exec .poolMemberRemove s = .next ((poolMemberRemove d (s.start d)).replicate (.command d.toBytes true [])) :=
      congrArg Host.Outcome.next (State.ringCmd_repeated takes (by decide) _)
    rw [runs, poolMemberRemove_checked small zero slot live here]
    exact ⟨fun redundant => by rw [if_pos redundant], fun two => by rw [if_neg (Nat.not_lt.mpr two)]⟩
  · intro s u d takes hu small zero pool format uninit key blocks free live usable loaded named new room
    subst hu
    refine congrArg Host.Outcome.next ((State.ringCmd_repeated takes (by decide) _).trans ?_)
    rw [volCreate_ok small zero pool format uninit key blocks free live usable loaded named new room]
  · intro s u d takes hu small zero blocks ready less
    subst hu
    refine congrArg Host.Outcome.next ((State.ringCmd_repeated takes (by decide) _).trans ?_)
    rw [volResize_ok small zero blocks ready less]
  · intro s u d takes hu small zero live settled unbound
    subst hu
    refine congrArg Host.Outcome.next ((State.ringCmd_repeated takes (by decide) _).trans ?_)
    rw [volDelete_ok small zero live settled unbound]
  · intro s d need small new needs room
    exact State.volCreateNow_ok small new needs room
  · intro s im runs first role noLabel noPools noVols resvs
    refine congrArg Host.Outcome.next ((if_pos ?_).trans (State.poolImport_empty noLabel noPools noVols))
    simpa [runs, first] using role
  · intro s im barred
    refine congrArg Host.Outcome.next (if_neg fun runs => ?_)
    simp only [Bool.and_eq_true, Bool.not_eq_true', Bool.or_eq_true, beq_iff_eq] at runs
    obtain ⟨⟨firmware, first⟩, role⟩ := runs
    rcases barred with stopped | again | ⟨notSingle, notAlone⟩
    · exact Bool.false_ne_true (stopped.symm.trans firmware)
    · exact Bool.false_ne_true (first.symm.trans again)
    · exact role.elim notSingle notAlone

end Sys2Proof.Machine

/-! ## Maintenance (chapter 10) -/

namespace Sys2Proof.Machine

open Sys2Proof

variable {s u t : State} {d : Desc} {p : Nat} {a : Activity}

/-- MAINT_START of a scrub or a sanitize that the pool does not have yet. -/
theorem maintStart_new (small : d.handle < 16) (zero : d.reservedZero [(8, 1), (9, 1), (10, 1), (11, 1)] = true) (kind : d.f 8 1 = 1 ∨ d.f 8 1 = 2)
    (mode : d.f 9 1 ≤ 1) (uninit : d.f 11 1 ≤ 1) (fields : d.f 8 1 = 1 ∨ (d.f 10 1 = 0 ∧ d.f 11 1 = 0)) (live : (s.pool d.handle).st ≠ 0)
    (new : (s.pool d.handle).ofKind (d.f 8 1) = []) : maintStart d s = s.defer d := by
  have low : 1 ≤ d.f 8 1 := by omega
  have high : d.f 8 1 ≤ 3 := by omega
  have notPass : d.f 8 1 ≠ 3 := by omega
  unfold maintStart
  simp only [Nat.mod_eq_of_lt small]
  refine (State.checked_of_all ?_).trans rfl
  simp [small, zero, low, high, mode, uninit, fields, live, new, notPass]

/-- MAINT_START of a pass that is held. -/
theorem maintStart_held (small : d.handle < 16) (zero : d.reservedZero [(8, 1), (9, 1), (10, 1), (11, 1)] = true) (kind : d.f 8 1 = 3)
    (mode : d.f 9 1 ≤ 1) (noRep : d.f 10 1 = 0) (noUninit : d.f 11 1 = 0) (live : (s.pool d.handle).st ≠ 0)
    (held : ∃ a ∈ (s.pool d.handle).acts, a.st = .held) : maintStart d s = s.defer d := by
  have found : (s.pool d.handle).acts.any (fun a => a.st == .held) = true := by
    simp only [List.any_eq_true, beq_iff_eq]
    exact held
  unfold maintStart
  simp only [Nat.mod_eq_of_lt small]
  refine (State.checked_of_all ?_).trans rfl
  simp [small, zero, kind, mode, noRep, noUninit, live, found]

theorem maintStop_checked (small : d.handle < 16) (zero : d.reservedZero [(8, 1)] = true) (low : 1 ≤ d.f 8 1) (high : d.f 8 1 ≤ 3)
    (live : (s.pool d.handle).st ≠ 0) :
    maintStop d s = if (s.pool d.handle).ofKind (d.f 8 1) = [] then s.done d St.MAINT_NONE else s.defer d := by
  unfold maintStop
  simp only [Nat.mod_eq_of_lt small, State.checked, firstFail, decide_eq_true small, zero, decide_eq_true low, decide_eq_true high, bne_iff_ne.mpr live,
    Bool.and_self, if_true]
  by_cases none : (s.pool d.handle).ofKind (d.f 8 1) = [] <;> simp [none]

/-! ### What a waiting activity does -/

theorem State.tryAct_found {id : Nat} (found : (s.pool p).acts.find? (fun b => b.id == id) = some a) :
    s.tryAct p id = if (s.pool p).blocked a then s
      else if ((s.pool p).acts.filter fun b => decide (a.rank < b.rank) && b.holds).isEmpty then s.startAct p a
      else s.setPool p { s.pool p with acts := (s.pool p).acts.map fun b =>
        if a.rank < b.rank ∧ b.st = .running then { b with st := .preempting, preemptor := a.kind, recSt := 0 } else b } := by
  rw [State.tryAct, found]

/-- No activity of a lower rank holds a member. -/
theorem Pool.noneLower_iff {P : Pool} : (P.acts.filter fun b => decide (a.rank < b.rank) && b.holds).isEmpty = true ↔
    ∀ b ∈ P.acts, b.rank ≤ a.rank ∨ b.holds = false := by
  simp [List.filter_eq_nil_iff, imp_iff_not_or]

theorem State.scrubRepeat_due {t r m : Nat} (next : (s.pool p).scrubNext = some (t, r, m)) (due : t + r * dayTicks ≤ s.now)
    (idle : ∀ a ∈ (s.pool p).acts, a.kind ≠ 1) :
    s.scrubRepeat p = s.setPool p ({ s.pool p with scrubNext := none }.addAct { (Activity.of 1 m [] [(0, (s.pool p).stripes)]) with rep := r }) := by
  have noScrub : (s.pool p).acts.all (fun a => a.kind != 1) = true := List.all_eq_true.mpr fun a listed => bne_iff_ne.mpr (idle a listed)
  simp only [State.scrubRepeat, next]
  exact if_pos ⟨due, noScrub⟩

/-- Settles O28: the two opcodes with their checks passed, and what each row does at the seam. -/
theorem maintenanceRuns : Obligations.MaintenanceRuns := by
  unfold Obligations.MaintenanceRuns
  refine ⟨?_, ?_, ?_, ?_, ?_, ?_, ?_⟩
  · intro s u d takes hu small zero kind mode uninit fields live new
    subst hu
    refine congrArg Host.Outcome.next ((State.ringCmd_repeated takes (by decide) _).trans ?_)
    rw [maintStart_new small zero kind mode uninit fields live new]
  · intro s u d takes hu small zero kind mode noRep noUninit live held
    subst hu
    refine congrArg Host.Outcome.next ((State.ringCmd_repeated takes (by decide) _).trans ?_)
    rw [maintStart_held small zero kind mode noRep noUninit live held]
  · intro s u d takes hu small zero low high live
    subst hu
    have runs : exec .maintStop s = .next ((maintStop d (s.start d)).replicate (.command d.toBytes true [])) :=
      congrArg Host.Outcome.next (State.ringCmd_repeated takes (by decide) _)
    rw [runs, maintStop_checked small zero low high live]
    exact ⟨fun some => by rw [if_neg some], fun none => by rw [if_pos none]⟩
  · intro s p seam
    refine ⟨fun live => congrArg Host.Outcome.next (if_pos ⟨live, seam⟩), fun id a found => ?_⟩
    rw [State.tryAct_found found]
    refine ⟨fun blocked => if_pos blocked, fun free alone => ?_, fun free ⟨b, listed, lower, holds⟩ => ?_⟩
    · rw [if_neg (Bool.eq_false_iff.mp free), if_pos (Pool.noneLower_iff.mpr alone)]
    · rw [if_neg (Bool.eq_false_iff.mp free), if_neg fun none => ?_]
      rcases Pool.noneLower_iff.mp none b listed with higher | free
      · exact absurd lower (Nat.not_lt.mpr higher)
      · exact Bool.false_ne_true (free.symm.trans holds)
  · intro s p seam
    refine ⟨congrArg Host.Outcome.next (if_pos seam), fun a => ⟨fun preempting quiet written => ?_, fun preempting quiet unwritten => ?_, fun other => ?_⟩⟩
    · rw [State.preemptNow, if_pos ⟨preempting, by rw [quiet]; rfl⟩, if_pos written]
    · rw [State.preemptNow, if_pos ⟨preempting, by rw [quiet]; rfl⟩, if_neg unwritten]
    · refine if_neg fun ⟨preempting, quiet⟩ => ?_
      rcases other with stays | working
      · exact stays preempting
      · exact working (List.isEmpty_iff.mp quiet)
  · intro s last seam
    exact congrArg Host.Outcome.next (if_pos ⟨last, seam⟩)
  · intro s p t r m seam next due none
    exact congrArg Host.Outcome.next ((if_pos seam).trans (State.scrubRepeat_due next due none))

end Sys2Proof.Machine

/-! ## Destage and journal (09 R288 to R294), and requests that complete (02 R20, R33, R43) -/

namespace Sys2Proof.Machine

open Sys2Proof

variable {s u t : State} {k : Nat} {c : Nat} {code : Nat} {it : Item} {w : Work} {start : Starts}

/-! ### Starting new work -/

theorem State.startRun_none (h : s.openRun k c code = none ∨ s.classPool c = none ∨ ∃ p, s.classPool c = some p ∧ start s p = none) :
    s.startRun k c code start = s := by
  unfold State.startRun
  rcases h with noRun | noPool | ⟨p, pool, nothing⟩
  · rw [noRun]
  · rw [noPool]
    split
    · contradiction
    · rfl
  · rw [pool]
    split
    · rename_i p' open? pool'
      cases Option.some.inj pool'
      rw [nothing]
    · rfl

theorem State.startRun_some {r : SlotRun} {p : Nat} (run : s.openRun k c code = some r) (pool : s.classPool c = some p) (begins : start s p = some t) :
    s.startRun k c code start = t.openStart r code := by
  simp only [State.startRun, run, pool, begins]

theorem State.beginDestage_first {p : Nat} {e : DirtyStripe} (first : (s.destageOrder p).head? = some e) (due : s.destageDue p e = true)
    (here : s.poolCluster p e.stripe = k) : State.beginDestage k s p = some (s.takeStripe p k e) := by
  simp only [State.beginDestage, first, due, here, beq_self_eq_true, Bool.and_self, if_true]

/-! ### What a routine does on its work -/

/-- The legs of PARITY_PLAN. -/
theorem State.parityPlan_reads (ref : it.ref = .work w.id) (item : s.work? w.id = some w) (leg : it.leg = 1) :
    let gone := w.rows.filter fun r => (s.pool w.pool).rowPlan w r == .beyond
    let v := if gone = [] then s else s.dropRows w gone
    let y := (v.work? w.id).getD w
    let need := (s.pool w.pool).destageNeed y
    s.parityPlan it = if y.rows = [] then v.emptyDestage it y
      else if need = [] then (v.updWork w.id fun x => { x with st := .reading }).advance it Rt.parityPlan 2 .none v.now
      else (v.updWork w.id fun x => { x with st := .reading, need := need }).advance it Rt.drvSubmit 1 .none v.now := by
  unfold State.parityPlan
  simp only [ref, item, leg, List.isEmpty_iff, if_true]

/-- Leg 2 of PARITY_PLAN counts the plans, forms the units to write and posts the parity request. -/
theorem State.parityPlan_writes (ref : it.ref = .work w.id) (item : s.work? w.id = some w) (leg : it.leg ≠ 1) :
    let P := s.pool w.pool
    let n (x : RowPlan) : Nat := ((w.rows.map fun r => P.rowPlan w r).filter (· == x)).length
    let v := if w.kind = .destage then (((s.cntLay 0 (n .full)).cntLay 1 (n .rmw)).cntLay 2 (n .rcw)).cntLay 3 (n .degraded) else s
    let outs := w.rows.map fun r => (r, P.rowWrites w r)
    let puts := outs.flatMap fun o => o.2.1
    let shadow := outs.flatMap fun o => o.2.2.map fun e => ({ stripe := w.stripe, row := o.1, pos := e.1, data := e.2 } : UnitVal)
    let repairs := (w.media.filter fun m => puts.any fun x => x.row == m.2.1 && x.pos == m.2.2 && !(w.dirtyAt x.row).contains x.pos).length
    s.parityPlan it = (((v.cntLay 5 repairs).updWork w.id fun x => { x with
        st := .parity, puts := puts, need := [], new := if x.kind = .destage then shadow else [] }).postParity it.cluster it.ref).advance it Rt.journalPut 1
      .event v.now := by
  unfold State.parityPlan
  simp only [ref, item, if_neg leg]

theorem State.journalPut_full (ref : it.ref = .work w.id) (item : s.work? w.id = some w)
    (full : journalSlots ≤ w.jslot.getD (Tab.lowest s.lay.journal)) : s.journalPut it = s.stay it 8 false := by
  unfold State.journalPut
  simp only [ref, item, if_pos full]

/-- JOURNAL_PUT of a work whose slot is free writes its entry. -/
theorem State.journalPut_writes (ref : it.ref = .work w.id) (item : s.work? w.id = some w)
    (free : w.jslot.getD (Tab.lowest s.lay.journal) < journalSlots) :
    let slot := w.jslot.getD (Tab.lowest s.lay.journal)
    let P := s.pool w.pool
    let old := match w.jslot with | some _ => (s.shadowsOf w.pool w.stripe).map (·.1) | none => []
    let v := (if w.kind = .destage then w.new else []).foldl (fun s x => s.putShadow w x)
      ((s.dropShadows old).updWork w.id fun x => { x with shadows := [] })
    let rows := (w.puts.map (·.row)).eraseDups
    let e : JEnt :=
      { st := if w.redo then 2 else 1, pool := w.pool, kind := w.jkind, degraded := rows.any fun r => !(P.absent w r).isEmpty
        rows := P.rowBits rows, stripe := w.stripe, positions := ((w.puts.map (·.pos)).eraseDups).foldl (fun a j => a + 2 ^ (j % 32)) 0
        shadow := (((v.work? w.id).map (·.shadows)).getD []).headD 0xFFFFFFFF, seq := v.lay.jseq }
    let x := v.setJent slot e
    let y : State := { x with lay := { x.lay with jseq := x.lay.jseq + 1 } }
    s.journalPut it =
      ((y.updWork w.id fun z => { z with st := .journalled, jslot := some slot }).lane it 128 0).advance it Rt.drvSubmit 1 (y.laneWait Rt.journalPut) y.now := by
  unfold State.journalPut
  simp only [ref, item]
  exact if_neg (Nat.not_le.mpr free)

theorem State.journalRetire_ends (ref : it.ref = .work w.id) (item : s.work? w.id = some w) :
    let v := match w.jslot with | some i => (s.lane it 192 0).retireEntry i w.shadows | none => s
    let x := w.lines.foldl State.retireLine v
    let y := if w.kind = .destage ∧ w.lines.length = (s.pool w.pool).d then x.updPool w.pool fun P => P.clearLost w.stripe else x
    let z := y.endWork it w false
    s.journalRetire it = if w.kind = .destage ∧ (z.dirtyIn w.pool w.stripe).isEmpty = false then z.addDirty w.pool w.stripe z.now else z := by
  unfold State.journalRetire
  simp only [ref, item, Bool.not_eq_true] <;> rfl

/-! ### Requests that complete -/

/-- An item that waits for a memory-lane request. -/
def Item.onLane (it : Item) : Bool := match it.wait with | .lane _ => true | _ => false

theorem State.laneDone_none (quiet : ∀ it ∈ s.cmd.items, ∀ p, it.wait ≠ .lane p) : s.laneDone = s := by
  have noRequest : s.cmd.items.find? Item.onLane = none := by
    rw [List.find?_eq_none]
    intro it listed
    unfold Item.onLane
    split
    · rename_i p wait
      exact absurd wait (quiet it listed p)
    · exact Bool.false_ne_true
  unfold State.laneDone
  split
  · rfl
  · rename_i it found
    cases noRequest.symm.trans found

theorem State.laneDone_first {p : Nat} (first : s.cmd.items.find? Item.onLane = some it)
    (wait : it.wait = .lane p) :
    s.laneDone = { s with cmd := { s.cmd with items := s.cmd.items.map fun x => if x = it then { it with wait := .none, ready := p + 2 } else x } } := by
  unfold State.laneDone
  split
  · rename_i none
    cases first.symm.trans none
  · rename_i found
    cases Option.some.inj (first.symm.trans found)
    simp only [wait]

/-- Settles O29: the start of a destage, the legs of its routines, and the requests that complete. -/
theorem stripesAreDestagedAndRequestsComplete : Obligations.StripesAreDestagedAndRequestsComplete := by
  unfold Obligations.StripesAreDestagedAndRequestsComplete
  refine ⟨⟨?_, ?_, ?_, ?_, ?_⟩, ?_, ?_, ?_⟩
  · intro s k c nothing
    exact congrArg Host.Outcome.next (State.startRun_none nothing)
  · intro s k c r p e run pool first due here ls w u v x
    exact congrArg Host.Outcome.next (State.startRun_some run pool (State.beginDestage_first first due here))
  · intro s u k c it w R
    have runs : exec (.parityPlan k c) s = .next (u.parityPlan it) := congrArg Host.Outcome.next (State.run_works R _)
    rw [runs]
    refine ⟨fun leg => ?_, fun leg => ?_⟩
    · intro gone v y need
      rw [State.parityPlan_reads R.ref R.item leg]
      exact ⟨fun empty => by rw [if_pos empty], fun rows whole => by rw [if_neg rows, if_pos whole], fun rows missing => by rw [if_neg rows, if_neg missing]⟩
    · exact congrArg Host.Outcome.next (State.parityPlan_writes R.ref R.item leg)
  · intro s u k c it w R slot
    have runs : exec (.journalPut k c) s = .next (u.journalPut it) := congrArg Host.Outcome.next (State.run_works R _)
    rw [runs]
    refine ⟨fun full => congrArg Host.Outcome.next (State.journalPut_full R.ref R.item full), fun free => ?_⟩
    exact congrArg Host.Outcome.next (State.journalPut_writes R.ref R.item free)
  · intro s u k c it w R
    exact congrArg Host.Outcome.next ((State.run_works R _).trans (State.journalRetire_ends R.ref R.item))
  · intro s k
    refine ⟨fun none => congrArg Host.Outcome.next (State.laneDone_none none), fun none => congrArg Host.Outcome.next ?_⟩
    rw [State.parityDone, none]
  · intro s it p first wait
    exact congrArg Host.Outcome.next (State.laneDone_first first wait)
  · intro s k q first
    refine congrArg Host.Outcome.next ?_
    rw [State.parityDone, first]

end Sys2Proof.Machine

/-! ## Maintenance steps (09 R276, R278, R297; 10 R308, R312, R315 to R317, R321, R323) -/

namespace Sys2Proof.Machine

open Sys2Proof

variable {s u t : State} {k c code p st id : Nat} {it : Item} {w : Work} {a : Activity} {start : Starts}

/-- A pool routine with no item and nothing to start. -/
theorem State.poolRun_idle (noItem : s.nextRun k c code = none)
    (nothing : s.openRun k c code = none ∨ s.classPool c = none ∨ ∃ p, s.classPool c = some p ∧ start s p = none) (leg : Item → State → State) :
    s.poolRun k c code leg start = s := by
  rw [State.poolRun, noItem]
  exact State.startRun_none nothing

theorem notEmpty_of_ne_nil {α : Type} {l : List α} (h : l ≠ []) : (!l.isEmpty) = true := by simpa using h

theorem not_notEmpty_of_eq_nil {α : Type} {l : List α} (h : l = []) : ¬(!l.isEmpty) = true := by simp [h]

/-! ### REBUILD_STEP -/

/-- A running pass whose next stripe is `st`, with the resynchronisation, if any, of the whole pool. -/
theorem State.beginRebuild_next (next : (s.pool p).passStripe a a.issued = some st) (running : a.st = .running)
    (full : ∀ r, (s.pool p).resync = some r → r.full = true) :
    let ts := (s.pool p).targetsIn a st
    let charge := ts.1.length * (s.pool p).strip * 1000
    let u := (s.begin p a.id charge).cntMnt 7 ts.2
    s.beginRebuild p k a = if (s.pool p).unsynced st = true ∧ ¬ts.1.isEmpty = true then
        (if s.poolCluster p st = k then some (s.syncFirst p st) else none)
      else if !s.mayBegin p k st charge a then none
      else if ts.1.isEmpty then some (u.actDone p a.id)
      else some (u.newWork (Work.of (.rebuild a.id) p st) k Rt.rebuildStep (u.laneWait Rt.rebuildStep) u.now) := by
  unfold State.beginRebuild
  simp only [next]
  refine if_neg ?_
  cases resync : (s.pool p).resync with
  | none => simp [running]
  | some r => simp [running, full r resync]

theorem State.rebuildLeg_of (ref : it.ref = .work w.id) (item : s.work? w.id = some w) (kind : w.kind = .rebuild id)
    (act : (s.pool w.pool).acts.find? (·.id == id) = some a) :
    let P := s.pool w.pool
    let ts := (P.targetsIn a w.stripe).1
    let copied := (List.range P.u).all fun r => ts.all fun j => (P.present w r).contains j
    let v := ((s.lane it 64 0).cntLay 5 w.media.length).updWork w.id fun x => { x with st := .parity, puts := P.rebuildPuts w ts, redo := copied }
    State.rebuildLeg it s = if P.rebuildLost w ts then (s.endWork it w false).wantMark w.pool w.stripe 1
      else if !(P.rebuildNeed w ts).isEmpty then
        (s.updWork w.id fun x => { x with st := .reading, need := P.rebuildNeed w ts }).advance it Rt.drvSubmit 1 .none s.now
      else if copied then v.advance it Rt.drvSubmit 1 .none v.now
      else (v.postParity it.cluster it.ref).advance it Rt.drvSubmit 1 .event v.now := by
  unfold State.rebuildLeg
  simp only [ref, item, kind, act]

/-! ### SCRUB_STEP -/

theorem State.beginScrub_next (running : (s.pool p).acts.find? (fun a => a.kind == 1 && a.st == .running) = some a) (next : covStripe a.issued a.cov = some st)
    (settled : (s.pool p).resync = none) (may : s.mayBegin p k st ((s.pool p).stripeCharge st) a = true) :
    State.beginScrub k s p = some ((s.begin p a.id ((s.pool p).stripeCharge st)).newWork (Work.of (.scrub a.id) p st) k Rt.scrubStep
      (s.laneWait Rt.scrubStep) s.now) := by
  simp only [State.beginScrub, running, State.beginStripe, next, settled, may, Option.isNone_none, Bool.and_self, if_true, Option.map_some]

theorem State.scrubLeg_of (ref : it.ref = .work w.id) (item : s.work? w.id = some w) :
    let P := s.pool w.pool
    let fs := (List.range P.u).map fun r => P.scrubRow w r
    let puts := fs.flatMap (·.puts)
    let v := (s.lane it 64 0).cntLay 15 (fs.filter (·.unchecked)).length
    let mend := (puts.filter fun x => !w.bad.contains (x.stripe, x.row, x.pos)).length
    State.scrubLeg it s = if !(P.allNeed w).isEmpty then
        (s.updWork w.id fun x => { x with st := .reading, need := P.allNeed w }).advance it Rt.drvSubmit 1 .none s.now
      else if fs.any (·.lost) then (v.endWork it w false).wantMark w.pool w.stripe 4
      else if puts.isEmpty then v.endWork it w false
      else ((((v.cntMnt 3 mend).cntLay 5 (puts.length - mend)).updWork w.id fun x => { x with st := .parity, puts := puts }).postParity it.cluster
        it.ref).advance it Rt.journalPut 1 .event v.now := by
  unfold State.scrubLeg
  simp only [ref, item]
  rfl

/-! ### RESYNC_STEP -/

/-- A stripe to be marked comes before all other work of RESYNC_STEP. -/
theorem State.beginSync_marks {cause : Nat} (room : s.maintWorks p < s.inflightMax p)
    (marked : (s.pool p).poison.find? (fun m => s.poolCluster p m.1 == k && !s.stripeHeld p m.1) = some (st, cause)) :
    let u := s.updPool p fun P => { P with poison := P.poison.erase (st, cause) }
    State.beginSync k s p = some (u.newWork (Work.of (.mark cause) p st) k Rt.resyncStep (u.laneWait Rt.resyncStep) u.now) := by
  unfold State.beginSync
  simp only [room, decide_true, if_true, marked]

theorem State.syncLeg_mark {cause : Nat} (ref : it.ref = .work w.id) (item : s.work? w.id = some w) (kind : w.kind = .mark cause) :
    State.syncLeg it s = s.putStripe it w.id ((s.pool w.pool).stripeOf w.stripe fun _ _ => poisonUnit) Rt.journalPut := by
  simp only [State.syncLeg, ref, item, kind]

theorem State.syncLeg_sanitize (ref : it.ref = .work w.id) (item : s.work? w.id = some w) (kind : w.kind = .sanitize id) :
    State.syncLeg it s = s.putStripe it w.id ((List.range (s.pool w.pool).u).flatMap fun r => (List.range (s.pool w.pool).w).map fun j =>
      { stripe := w.stripe, row := r, pos := j, data := zeroUnit }) Rt.journalPut := by
  simp only [State.syncLeg, ref, item, kind]

/-- The units of an initialised stripe are encrypted first when the volume has a key. -/
theorem State.syncLeg_init {v : Nat} (ref : it.ref = .work w.id) (item : s.work? w.id = some w) (kind : w.kind = .init v) :
    let P := s.pool w.pool
    let V := s.vol v
    State.syncLeg it s = if w.st = .planned ∧ V.key.isSome = true then
        ((s.updWork w.id fun x => { x with st := .reading, pair := s.volKey V }).postCipher it.cluster it.ref 0
          (passesOf (P.d * unitBlocks V.lbaf) (lbaData V.lbaf)) false (s.volKey V)).advance it Rt.resyncStep 2 .event s.now
      else s.putStripe it w.id (P.stripeOf w.stripe fun r j => zeroVolUnit V w.pair v (((s.unitOwner w.pool w.stripe r j).map (·.2)).getD 0))
        Rt.journalPut := by
  simp only [State.syncLeg, ref, item, kind]

theorem State.syncLeg_resync {slot : Option Nat} (ref : it.ref = .work w.id) (item : s.work? w.id = some w) (kind : w.kind = .resync slot) :
    let P := s.pool w.pool
    let need := if (List.range P.u).all (fun r => decide (2 ≤ (P.absent w r).length)) = true then [] else P.allNeed w
    let fs := (List.range P.u).map fun r => s.syncRow P w r
    let puts := fs.flatMap (·.puts)
    let lost := fs.any (·.lost)
    let un := fs.any (·.unchecked)
    let v := if un = true then (s.cntLay 15 1).updPool w.pool fun P => { P with resync := P.resync.map fun r => { r with unverified := r.unverified + 1 } } else s
    State.syncLeg it s = if slot.isSome = true ∧ P.isLost w.stripe = true then s.putStripe it w.id (P.stripeOf w.stripe fun _ _ => poisonUnit) Rt.drvSubmit
      else if !need.isEmpty then (s.updWork w.id fun x => { x with st := .reading, need := need }).advance it Rt.drvSubmit 1 .none s.now
      else if lost ∨ puts.isEmpty then s.syncEnd it w lost un
      else v.putStripe it w.id puts Rt.drvSubmit := by
  simp only [State.syncLeg, ref, item, kind]

/-! ### META_FLUSH -/

theorem State.metaFlush_of (ref : it.ref = .work w.id) (item : s.work? w.id = some w) :
    let raw := (s.pool w.pool).bays.flatMap fun b => ((w.fors.flatMap (s.flushBytes w.pool)).eraseDups).map fun g => (b, g.1, g.2)
    let v := s.updWork w.id fun x => { x with raw := raw, st := .journalled }
    s.metaFlush it = if raw.isEmpty then v.endWork it w false else (v.lane it 0 flushPage).advance it Rt.drvSubmit 1 (v.laneWait Rt.metaFlush) v.now := by
  simp only [State.metaFlush, ref, item]

/-- Settles O30: what each step starts, and what it does on its work. -/
theorem maintenanceSteps : Obligations.MaintenanceSteps := by
  unfold Obligations.MaintenanceSteps
  refine ⟨⟨?_, ?_, ?_, ?_⟩, ⟨?_, ?_⟩, ⟨?_, ?_, ?_, ?_⟩, ?_⟩
  · intro s k c idle
    exact ⟨fun noItem nothing => congrArg Host.Outcome.next (State.poolRun_idle noItem nothing _),
      fun noItem nothing => congrArg Host.Outcome.next (State.poolRun_idle noItem nothing _),
      fun noItem nothing => congrArg Host.Outcome.next (State.poolRun_idle noItem nothing _),
      fun noItem nothing => congrArg Host.Outcome.next (State.poolRun_idle noItem nothing _)⟩
  · intro s t k c r p O begins
    exact congrArg Host.Outcome.next (State.poolRun_opens O _ begins)
  · intro s p k st a next running ts charge u
    refine ⟨fun synced full may => ?_, fun unsynced full targets here => ?_⟩
    · rw [State.beginRebuild_next next running full, if_neg fun h => Bool.false_ne_true (synced.symm.trans h.1), if_neg (by rw [may]; decide)]
      refine ⟨fun none => if_pos (List.isEmpty_iff.mpr none), fun some => if_neg fun none => some (List.isEmpty_iff.mp none)⟩
    · rw [State.beginRebuild_next next running full, if_pos ⟨unsynced, fun none => targets (List.isEmpty_iff.mp none)⟩, if_pos here]
  · intro s u k c it w id a R kind act P ts copied v
    have runs : exec (.rebuildStep k c) s = .next (State.rebuildLeg it u) := congrArg Host.Outcome.next (State.poolRun_works R _ _)
    rw [runs, State.rebuildLeg_of R.ref R.item kind act]
    refine ⟨fun lost => ?_, fun kept missing => ?_, fun kept whole => ⟨fun all => ?_, fun some => ?_⟩⟩
    · rw [if_pos lost]
    · rw [if_neg (Bool.eq_false_iff.mp kept), if_pos (notEmpty_of_ne_nil missing)]
    · rw [if_neg (Bool.eq_false_iff.mp kept), if_neg (not_notEmpty_of_eq_nil whole), if_pos all]
    · rw [if_neg (Bool.eq_false_iff.mp kept), if_neg (not_notEmpty_of_eq_nil whole), if_neg (Bool.eq_false_iff.mp some)]
  · intro s k c r p st a O running next settled may
    exact congrArg Host.Outcome.next (State.poolRun_opens O _ (State.beginScrub_next running next settled may))
  · intro s u k c it w R P fs puts v mend
    have runs : exec (.scrubStep k c) s = .next (State.scrubLeg it u) := congrArg Host.Outcome.next (State.poolRun_works R _ _)
    rw [runs, State.scrubLeg_of R.ref R.item]
    refine ⟨fun missing => ?_, fun whole => ⟨fun lost => ?_, fun kept none => ?_, fun kept some => ?_⟩⟩
    · rw [if_pos (notEmpty_of_ne_nil missing)]
    · rw [if_neg (not_notEmpty_of_eq_nil whole), if_pos lost]
    · rw [if_neg (not_notEmpty_of_eq_nil whole), if_neg (Bool.eq_false_iff.mp kept), if_pos (List.isEmpty_iff.mpr none)]
    · rw [if_neg (not_notEmpty_of_eq_nil whole), if_neg (Bool.eq_false_iff.mp kept), if_neg fun none => some (List.isEmpty_iff.mp none)]
  · intro s t k c r p O begins
    exact congrArg Host.Outcome.next (State.poolRun_opens O _ begins)
  · intro s p k st cause P hP room marked
    subst hP
    exact State.beginSync_marks room marked
  · intro s u k c it w R P
    have runs : exec (.resyncStep k c) s = .next (State.syncLeg it u) := congrArg Host.Outcome.next (State.poolRun_works R _ _)
    rw [runs]
    refine ⟨fun cause kind => ?_, fun a kind => ?_, fun v kind => ?_, fun slot kind => ?_⟩
    · rw [State.syncLeg_mark R.ref R.item kind]
    · rw [State.syncLeg_sanitize R.ref R.item kind]
    · intro V
      rw [State.syncLeg_init R.ref R.item kind]
      refine ⟨fun planned keyed => by rw [if_pos ⟨planned, keyed⟩], fun other => ?_⟩
      rw [if_neg fun h => other.elim (· h.1) fun plain => Bool.false_ne_true ((congrArg Option.isSome plain).symm.trans h.2)]
    · intro need fs puts lost un v
      rw [State.syncLeg_resync R.ref R.item kind]
      refine ⟨fun shadowed gone => by rw [if_pos ⟨shadowed, gone⟩], fun other => ?_⟩
      rw [if_neg fun h => other.elim (fun plain => Bool.false_ne_true ((congrArg Option.isSome plain).symm.trans h.1))
        fun kept => Bool.false_ne_true (kept.symm.trans h.2)]
      refine ⟨fun missing => ?_, fun whole ends => ?_, fun whole kept some => ?_⟩
      · rw [if_pos (notEmpty_of_ne_nil missing)]
      · rw [if_neg (not_notEmpty_of_eq_nil whole), if_pos (ends.imp id List.isEmpty_iff.mpr)]
      · rw [if_neg (not_notEmpty_of_eq_nil whole), if_neg fun ends => ends.elim (fun lost => Bool.false_ne_true (kept.symm.trans lost)) fun none =>
          some (List.isEmpty_iff.mp none)]
  · intro u it id puts code
    rfl
  · intro s u k c it w raw R hraw v
    subst hraw
    have runs : exec (.metaFlush k c) s = .next (u.metaFlush it) := congrArg Host.Outcome.next (State.run_works R _)
    rw [runs, State.metaFlush_of R.ref R.item]
    exact ⟨fun none => by rw [if_pos (List.isEmpty_iff.mpr none)], fun some => by rw [if_neg fun none => some (List.isEmpty_iff.mp none)]⟩

end Sys2Proof.Machine

/-! ## Network ports (chapter 4) -/

namespace Sys2Proof.Machine

open Sys2Proof

variable {s u t : State}

/-- Settles O31: each bit of MAC_CTL that the write changes, and the writes that ask for nothing. -/
theorem portsAreControlled : Obligations.PortsAreControlled := by
  unfold Obligations.PortsAreControlled
  intro s u p w ready hu
  subst hu
  have enable : exec (.macCtlEnable p w) s = .next (s.macEnable p w) := congrArg Host.Outcome.next (State.hostWrite_ready ready ..)
  have disable : exec (.macCtlDisable p w) s = .next (s.macDisable p w) := congrArg Host.Outcome.next (State.hostWrite_ready ready ..)
  have reset : exec (.macCtlReset p w) s = .next (s.macReset p w) := congrArg Host.Outcome.next (State.hostWrite_ready ready ..)
  rw [enable, disable, reset]
  refine ⟨fun on was => ?_, fun other => ?_, fun off is => ?_, fun other => ?_, fun noReset => ?_, fun resets => ?_⟩
  · exact congrArg Host.Outcome.next (if_pos ⟨on, was⟩)
  · exact congrArg Host.Outcome.next (if_neg fun h => other.elim (· h.1) (· h.2))
  · exact congrArg Host.Outcome.next (if_pos ⟨off, is⟩)
  · exact congrArg Host.Outcome.next (if_neg fun h => other.elim (· h.1) (· h.2))
  · exact congrArg Host.Outcome.next (if_pos noReset)
  · exact congrArg Host.Outcome.next (if_neg resets)

/-! ### Bring-up -/

theorem State.calibration_due {m : Nat} (step : (s.lport m).step = 2) (there : s.lportExists m = true) (pass : Bool) :
    let u := (s.setLanes m Fd.MAC_STATUS_CAL_OK false).updLport m fun x => { x with calFails := x.calFails + 1 }
    s.calibration m pass = if pass then s.calibrated m else if 3 ≤ (u.lport m).calFails then u.losePort (m / 8) 1 else u :=
  if_neg fun h => h.elim (· step) (· there)

theorem State.stepTo_at {m a : Nat} (step : (s.lport m).step = a) (b : Nat) : s.stepTo m a b = s.setStep m b := if_pos step

theorem State.stepTo_away {m a : Nat} (step : (s.lport m).step ≠ a) (b : Nat) : s.stepTo m a b = s := if_neg step

/-! ### The PTP clock -/

/-- The slave's new state and its source are read back. -/
theorem State.setPtpState_shows (inv : s.Inv) {st src : Nat} (code : st < 8) (byte : src < 256) :
    (s.setPtpState st src).ptpState = st ∧ (s.setPtpState st src).fld Reg.MAC_PTP_STATUS Fd.MAC_PTP_STATUS_CUR_SRC = src := by
  have wf : Tab.wf regReset (s.setFld Reg.MAC_PTP_STATUS Fd.MAC_PTP_STATUS_CUR_SRC src).regs = true := State.wf_setFld inv.regs ..
  have source : (s.setFld Reg.MAC_PTP_STATUS Fd.MAC_PTP_STATUS_CUR_SRC src).fld Reg.MAC_PTP_STATUS Fd.MAC_PTP_STATUS_CUR_SRC = src :=
    (State.fld_setFld inv.regs _ (by decide)).trans (Nat.mod_eq_of_lt byte)
  by_cases same : (s.setFld Reg.MAC_PTP_STATUS Fd.MAC_PTP_STATUS_CUR_SRC src).ptpState = st
  · have stays : s.setPtpState st src = s.setFld Reg.MAC_PTP_STATUS Fd.MAC_PTP_STATUS_CUR_SRC src := if_pos same
    rw [stays]
    exact ⟨same, source⟩
  · have moves : s.setPtpState st src = ((s.setFld Reg.MAC_PTP_STATUS Fd.MAC_PTP_STATUS_CUR_SRC src).setFld Reg.MAC_PTP_STATUS Fd.MAC_PTP_STATUS_STATE st).raise
        Ev.MAC_PTP_STATE st src 0 := if_neg same
    rw [moves]
    refine ⟨(State.raise_fld _ _ _ _ _ _ (by decide)).trans ((State.fld_setFld wf _ (by decide)).trans (Nat.mod_eq_of_lt code)), ?_⟩
    exact (State.raise_fld _ _ _ _ _ _ (by decide)).trans ((State.fld_setFld_apart wf _ (by decide) (by decide)).trans source)

/-- A trim within its bounds is read back as it was written. -/
theorem toInt32_ofInt32 {i : Int} (low : -100000 ≤ i) (high : i ≤ 100000) : toInt32 (ofInt32 i % 2 ^ Fd.MAC_PTP_TRIM_TRIM.width) = i := by
  show toInt32 (ofInt32 i % 4294967296) = i
  unfold toInt32 ofInt32
  split <;> omega

/-- A step of the trim, with a free value, stays within the bounds, and moves by at most 50 units. -/
theorem State.trimUpdate_moves (last : s.itn.tick % 256 = 255)
    (on : s.flag Reg.MAC_PTP_CTL Fd.MAC_PTP_CTL_DISCIPLINE_EN = true) (slave : s.ptpState = 3) (own : s.isStandby = false) (new : s.net.trimTick ≠ some s.now) :
    ∃ i : Int, (-100000 ≤ i ∧ i ≤ 100000) ∧ (-100000 ≤ s.trimNow → s.trimNow ≤ 100000 → i ≤ s.trimNow + 50 ∧ s.trimNow - 50 ≤ i)
      ∧ s.trimUpdate = { s with drawn := s.drawn + 1, net := { s.net with trimTick := some s.now } }.setFld Reg.MAC_PTP_TRIM Fd.MAC_PTP_TRIM_TRIM (ofInt32 i) := by
  refine ⟨max (-100000) (min 100000 (s.trimNow + ((s.draw.1 % 101 : Nat) : Int) - 50)), ?_, ?_, ?_⟩
  · omega
  · omega
  · exact if_pos ⟨last, on, slave, by simp [own], new⟩

/-- Settles O32: the steps of bring-up, the pauses, the sources of the PTP clock, and the trim. -/
theorem linksComeUpAndPause : Obligations.LinksComeUpAndPause := by
  unfold Obligations.LinksComeUpAndPause
  refine ⟨?_, ?_, ?_, ?_, ?_⟩
  · intro s m
    refine ⟨fun step there => ?_, fun u hu step there => ?_, fun pass away => ?_, fun step => ⟨?_, ?_⟩, fun away => ⟨?_, ?_⟩, fun step => ⟨?_, ?_⟩,
      fun away => ⟨?_, ?_⟩, fun step => ?_, fun step => ⟨fun none => ?_, ?_⟩, fun not5 not8 => ?_, fun away => ?_, fun step => ?_, fun away => ?_⟩ <;>
      refine congrArg Host.Outcome.next ?_
    · exact State.calibration_due step there true
    · subst hu
      exact State.calibration_due step there false
    · exact if_pos (away.imp id Bool.eq_false_iff.mp)
    · exact State.stepTo_at step _
    · exact State.stepTo_at step _
    · exact State.stepTo_away away _
    · exact State.stepTo_away away _
    · exact State.stepTo_at step _
    · exact State.stepTo_at step _
    · exact State.stepTo_away away _
    · exact State.stepTo_away away _
    · exact if_pos step
    · exact (if_neg (by rw [step]; decide)).trans (if_pos ⟨step, none⟩)
    · exact if_pos step
    · exact (if_neg not5).trans (if_neg fun h => not8.elim (· h.1) (· h.2))
    · exact if_neg away
    · exact if_pos step
    · exact if_neg away
  · intro s m vec quanta other body
    refine ⟨fun passes => congrArg Host.Outcome.next (if_neg (by rw [passes]; decide)), fun blocked => congrArg Host.Outcome.next (if_pos (by rw [blocked]; rfl))⟩
  · intro s m i
    refine ⟨rfl, fun holds up => ⟨fun f busy => ?_, fun free net => ?_⟩, fun other => congrArg Host.Outcome.next (if_neg ?_)⟩
    · refine congrArg Host.Outcome.next ((if_pos (by rw [holds, up]; rfl)).trans (if_pos (by rw [busy]; rfl)))
    · refine congrArg Host.Outcome.next ((if_pos (by rw [holds, up]; rfl)).trans ((if_neg (by rw [free]; decide)).trans (if_pos net)))
    · simpa using fun holds : s.xoff m i = true => other.elim (fun h => absurd holds (Bool.eq_false_iff.mp h)) id
  · intro s inv
    refine ⟨fun off => congrArg Host.Outcome.next (if_pos off), fun on => ?_⟩
    by_cases backup : s.fld Reg.MAC_PTP_CTL Fd.MAC_PTP_CTL_BACKUP ≠ 255 ∧
        s.fld Reg.MAC_PTP_STATUS Fd.MAC_PTP_STATUS_CUR_SRC ≠ s.fld Reg.MAC_PTP_CTL Fd.MAC_PTP_CTL_BACKUP
    · refine ⟨_, congrArg Host.Outcome.next ((if_neg on).trans (if_pos backup)), fun _ _ => ?_, fun none => ?_⟩
      · exact State.setPtpState_shows inv (by decide) (Fld.get_lt ..)
      · exact (none.elim backup.1 backup.2).elim
    · refine ⟨_, congrArg Host.Outcome.next ((if_neg on).trans (if_neg backup)), fun some other => absurd ⟨some, other⟩ backup, fun _ => ?_⟩
      exact State.setPtpState_shows inv (by decide) (Fld.get_lt ..)
  · intro s inv
    refine ⟨fun seam last on slave own new => ?_, fun notDue => ?_⟩
    · obtain ⟨i, ⟨low, high⟩, moves, runs⟩ := State.trimUpdate_moves last on slave own new
      have shows : toInt32 (s.trimUpdate.fld Reg.MAC_PTP_TRIM Fd.MAC_PTP_TRIM_TRIM) = i := by
        have read : s.trimUpdate.fld Reg.MAC_PTP_TRIM Fd.MAC_PTP_TRIM_TRIM = ofInt32 i % 2 ^ Fd.MAC_PTP_TRIM_TRIM.width := by
          rw [runs]
          exact State.fld_setFld inv.regs _ (by decide)
        rw [read, toInt32_ofInt32 low high]
      refine ⟨s.trimUpdate, congrArg Host.Outcome.next (if_pos seam), fun o other => ?_, ?_, shows ▸ high, shows ▸ low, fun above below => ?_⟩
      · rw [runs]
        exact State.rd_setFld_ne other
      · rw [runs]
        rfl
      · rw [shows]
        exact moves above below
    · refine congrArg Host.Outcome.next ?_
      by_cases seam : s.atSeam = true
      · refine (if_pos seam).trans (if_neg ?_)
        rintro ⟨last, on, slave, own, new⟩
        rcases notDue with no | no | no | no | no | no
        · exact Bool.false_ne_true (no.symm.trans seam)
        · exact no last
        · exact Bool.false_ne_true (no.symm.trans on)
        · exact no slave
        · exact own no
        · exact new no
      · exact if_neg seam

end Sys2Proof.Machine

/-! ## Frames through the serai and the egress hierarchy (chapters 6 and 7) -/

namespace Sys2Proof.Machine

open Sys2Proof

variable {s u t : State} {m cycle : Nat} {bytes : List Byte}

/-! ### Header lookup -/

/-- The frame as the lookup leaves it in reception when nothing takes it. -/
def State.refusedFrame (s v : State) (m : Nat) (bytes : List Byte) (cycle : Nat) : Frame :=
  { id := v.net.frameSeq, m := m, i := (parseHdr bytes).prio, bytes := bytes, len := (parseHdr bytes).len (s.maxFrame m)
    cells := cellsOf ((parseHdr bytes).len (s.maxFrame m)), acct := .none, dest := .drop, bad := false, pairCopy := false, refused := true, ce := false
    stamp := v.stampAt cycle, ptp := v.rxStamp m cycle, entry := (s.destOf m bytes).2 }

theorem State.lookup_hears (passes : s.passes m = true) (free : Tab.rd (fun _ => none) s.net.rx m = none) (noDump : s.itn.dumpPlan = false) :
    (!s.passes m || (Tab.rd (fun _ => none) s.net.rx m).isSome || s.itn.dumpPlan) = false := by
  rw [passes, free, noDump]
  rfl

theorem State.lookup_carries (net : s.netOn = true) (noHold : s.joinHold = false) : (!s.netOn || s.joinHold) = false := by
  rw [net, noHold]
  rfl

/-- Only a frame that no account has room for is turned away. -/
theorem notTurned {a : Acct} {d : Dest} (taken : a ≠ .none ∨ d.isDrop = true) : (a == .none && !d.isDrop) = false := by
  rcases taken with some | drop
  · simp [some]
  · simp [drop]

/-- A frame that no account has room for is refused. -/
theorem State.headerLookup_refused (passes : s.passes m = true) (free : Tab.rd (fun _ => none) s.net.rx m = none) (noDump : s.itn.dumpPlan = false)
    (net : s.netOn = true) (noHold : s.joinHold = false)
    (full : (s.countDropped m (parseHdr bytes) bytes).areaOf m (parseHdr bytes).prio (cellsOf ((parseHdr bytes).len (s.maxFrame m))) (s.destOf m bytes).1 bytes
      = .none) (kept : (s.destOf m bytes).1.isDrop = false) :
    let v := (s.countDropped m (parseHdr bytes) bytes).countRefused m (parseHdr bytes).prio (cellsOf ((parseHdr bytes).len (s.maxFrame m)))
      (s.destOf m bytes).1 bytes
    s.headerLookup m bytes cycle = v.admitFrame (s.refusedFrame v m bytes cycle) := by
  intro v
  have turned : (Acct.none == Acct.none && !false) = true := rfl
  have noCopies : copiesOf .drop false = 0 := rfl
  have dropped : (Dest.drop == Dest.rdma) = false := rfl
  unfold State.headerLookup
  simp only [State.lookup_hears passes free noDump, State.lookup_carries net noHold, full, kept, turned, noCopies, dropped, Bool.not_true, Bool.and_false, Bool.false_and, Bool.true_or, Nat.zero_mul, Nat.not_lt_zero,
    decide_false, Bool.false_eq_true, if_false, if_true]
  rfl

/-- A frame that an account takes, or that is discarded, for which the convoy has no room. -/
theorem State.headerLookup_noConvoy (passes : s.passes m = true) (free : Tab.rd (fun _ => none) s.net.rx m = none) (noDump : s.itn.dumpPlan = false)
    (net : s.netOn = true) (noHold : s.joinHold = false)
    (taken : (s.countDropped m (parseHdr bytes) bytes).areaOf m (parseHdr bytes).prio (cellsOf ((parseHdr bytes).len (s.maxFrame m))) (s.destOf m bytes).1 bytes
      ≠ .none ∨ (s.destOf m bytes).1.isDrop = true)
    (short : (s.countDropped m (parseHdr bytes) bytes).convoyFree
      < copiesOf (s.destOf m bytes).1 ((s.countDropped m (parseHdr bytes) bytes).copied m bytes) * cellsOf ((parseHdr bytes).len (s.maxFrame m))) :
    let v := (s.countDropped m (parseHdr bytes) bytes).cntSwc (match (s.destOf m bytes).1 with | .flood _ => 8 | _ => 7) 1
    s.headerLookup m bytes cycle = v.admitFrame (s.refusedFrame v m bytes cycle) := by
  intro v
  unfold State.headerLookup
  simp only [State.lookup_hears passes free noDump, State.lookup_carries net noHold, notTurned taken, short, Bool.not_true, Bool.not_false,
    Bool.and_true, Bool.and_false, Bool.false_and, Bool.or_true, decide_true, Bool.false_eq_true, if_false, if_true] <;> rfl

/-- A frame that is admitted, or discarded by its row, marked where the threshold is reached. -/
theorem State.headerLookup_admitted {ce : Bool} (passes : s.passes m = true) (free : Tab.rd (fun _ => none) s.net.rx m = none) (noDump : s.itn.dumpPlan = false)
    (net : s.netOn = true) (noHold : s.joinHold = false)
    (taken : (s.countDropped m (parseHdr bytes) bytes).areaOf m (parseHdr bytes).prio (cellsOf ((parseHdr bytes).len (s.maxFrame m))) (s.destOf m bytes).1 bytes
      ≠ .none ∨ (s.destOf m bytes).1.isDrop = true)
    (room : copiesOf (s.destOf m bytes).1 ((s.countDropped m (parseHdr bytes) bytes).copied m bytes) * cellsOf ((parseHdr bytes).len (s.maxFrame m))
      ≤ (s.countDropped m (parseHdr bytes) bytes).convoyFree)
    (marks : ((s.destOf m bytes).1 == .rdma && (s.countDropped m (parseHdr bytes) bytes).ecnIn m (parseHdr bytes).prio bytes) = ce) :
    let u := s.countDropped m (parseHdr bytes) bytes
    let v := if ce then u.cntSwc 5 1 else u
    s.headerLookup m bytes cycle = v.admitFrame { s.refusedFrame v m bytes cycle with
      bytes := if ce then markCe bytes else bytes
      acct := u.areaOf m (parseHdr bytes).prio (cellsOf ((parseHdr bytes).len (s.maxFrame m))) (s.destOf m bytes).1 bytes
      dest := (s.destOf m bytes).1, pairCopy := u.copied m bytes, refused := false, ce := ce } := by
  intro u v
  subst marks
  unfold State.headerLookup
  simp only [State.lookup_hears passes free noDump, State.lookup_carries net noHold, notTurned taken, Nat.not_lt.mpr room, Bool.not_false,
    Bool.and_true, Bool.or_false, decide_false, Bool.false_eq_true, if_false]
  rfl

/-- Settles O33: a frame that is left out or discarded at once, refused, or admitted. -/
theorem framesAreLookedUp : Obligations.FramesAreLookedUp := by
  unfold Obligations.FramesAreLookedUp
  intro s m bytes cycle
  refine ⟨fun f out => congrArg Host.Outcome.next (if_pos ?_), fun passes free noDump => ⟨fun away => ?_, fun net noHold => ?_⟩⟩
  · rcases out with silent | busy | dump
    · simp [silent]
    · simp [busy]
    · simp [dump]
  · refine congrArg Host.Outcome.next ((if_neg (Bool.eq_false_iff.mp (State.lookup_hears passes free noDump))).trans (if_pos ?_))
    simpa using away
  · intro h L c d u a pair f
    refine ⟨fun full kept => ?_, fun taken short => ?_, fun taken room => ?_⟩
    · intro v
      exact congrArg Host.Outcome.next (State.headerLookup_refused passes free noDump net noHold full kept)
    · intro v
      exact congrArg Host.Outcome.next (State.headerLookup_noConvoy passes free noDump net noHold taken short)
    · refine ⟨fun unmarked => congrArg Host.Outcome.next ?_, fun rdma marked => congrArg Host.Outcome.next ?_⟩
      · refine State.headerLookup_admitted (ce := false) passes free noDump net noHold taken room ?_
        rcases unmarked with other | below
        · exact (congrArg (· && _) (beq_eq_false_iff_ne.mpr other)).trans (Bool.false_and _)
        · exact (congrArg (_ && ·) below).trans (Bool.and_false _)
      · have marks : ((s.destOf m bytes).1 == .rdma && u.ecnIn m (parseHdr bytes).prio bytes) = true := by
          rw [Bool.and_eq_true]
          exact ⟨beq_iff_eq.mpr rdma, marked⟩
        refine (State.headerLookup_admitted passes free noDump net noHold taken room marks).trans ?_
        exact congrArg (fun dest => (u.cntSwc 5 1).admitFrame { s.refusedFrame (u.cntSwc 5 1) m bytes cycle with
          bytes := markCe bytes, acct := a, dest := dest, pairCopy := pair, refused := false, ce := true }) rdma

end Sys2Proof.Machine

/-! ### Tails, lost locks, address ageing and egress -/

namespace Sys2Proof.Machine

open Sys2Proof

variable {s u t : State} {m cycle : Nat} {bytes rest : List Byte} {bad : Bool} {f : Frame}

/-- Where a frame goes once its tail is in: a runt for the transport or for management firmware gives its cells back. -/
def State.tailEnd (s : State) (runt : Bool) (f : Frame) : State :=
  match runt, f.dest with
  | true, .rdma | true, .mgt | true, .ptp => s.freeCells f.acct f.cells
  | _, _ => s.deliver f

theorem State.tailEnd_runt (firmware : f.dest = .rdma ∨ f.dest = .mgt ∨ f.dest = .ptp) (s : State) : s.tailEnd true f = s.freeCells f.acct f.cells := by
  unfold State.tailEnd
  rcases firmware with dest | dest | dest <;> rw [dest]

theorem State.tailEnd_other {runt : Bool} (other : runt = false ∨ (f.dest ≠ .rdma ∧ f.dest ≠ .mgt ∧ f.dest ≠ .ptp)) (s : State) :
    s.tailEnd runt f = s.deliver f := by
  unfold State.tailEnd
  rcases other with whole | ⟨notRdma, notMgt, notPtp⟩
  · rw [whole]
  · split
    · contradiction
    · contradiction
    · contradiction
    · rfl

theorem State.frameTail_none (idle : Tab.rd (fun _ => none) s.net.rx m = none) : s.frameTail m rest bad cycle = s := by
  rw [State.frameTail, idle]

theorem State.frameTail_held (busy : Tab.rd (fun _ => none) s.net.rx m = some f) (holds : s.joinHold = true) :
    s.frameTail m rest bad cycle = (({ s with net := { s.net with rx := Tab.wr (fun _ => none) s.net.rx m none } }).dropTail f).freeCells .convoy
      (if f.pairCopy then f.cells else 0) := by
  rw [State.frameTail, busy]
  exact if_pos holds

/-- The tail of a frame in reception: what is counted, given back, learned and copied before the frame goes on. -/
theorem State.frameTail_ends (busy : Tab.rd (fun _ => none) s.net.rx m = some f) (noHold : s.joinHold = false) :
    let u := { s with net := { s.net with rx := Tab.wr (fun _ => none) s.net.rx m none } }
    let got := f.bytes.length + rest.length + 4
    let n := min got (s.maxFrame m + 1)
    let runt := decide (got < 64)
    let cut := decide (s.maxFrame m < got)
    let mismatch := !runt && (parseHdr f.bytes).ipVer != 0 && n != f.len
    let bytes := (f.bytes ++ rest).take (n - 4)
    let c := min f.cells (cellsOf n)
    let a := (u.cntMac m 0 1).cntMac m 1 n
    let b := if runt then a.cntMac m 4 1 else a
    let x := if mismatch then b.cntSwc 2 1 else b
    let y := (if bad || cut || mismatch then x.cntMac m 5 1 else x).returnExcess f c
    let g := { f with bytes := bytes, bad := bad || cut || mismatch || runt || f.bad, cells := c }
    let z := if !g.bad && !f.refused && y.classify m bytes == .other then y.learn m (parseHdr f.bytes).vlan (parseHdr f.bytes).src else y
    let t := if f.pairCopy then (if runt then z else z.copySend g f.ce n cycle).freeCells .convoy c else z
    s.frameTail m rest bad cycle = t.tailEnd runt g := by
  rw [State.frameTail, busy]
  exact if_neg (Bool.eq_false_iff.mp noHold)

theorem State.lockLoss_up (step : (s.lport m).step = 7) : s.lockLoss m = ((s.setLocks m 0).frameTail m [] true 2047).setStep m 8 := by
  simp only [State.lockLoss, step, or_true, if_true]

theorem State.lockLoss_holding (step : (s.lport m).step = 6) :
    s.lockLoss m = (s.setLocks m 0).updLport m fun x => { x with step := 5, pendUp := false } := by
  simp only [State.lockLoss, step, true_or, if_true]
  rfl

theorem State.lockLoss_other (not6 : (s.lport m).step ≠ 6) (not7 : (s.lport m).step ≠ 7) : s.lockLoss m = s := by
  simp only [State.lockLoss, not6, not7, or_self, if_false]

/-- What keeps a port from beginning a frame. -/
theorem State.egressSelect_open (idle : Tab.rd (fun _ => none) s.net.tx m = none) (sends : s.sends m = true) (net : s.netOn = true)
    (noHold : s.joinHold = false) (tokens : s.shaperOk m .port = true) :
    ((Tab.rd (fun _ => none) s.net.tx m).isSome || !s.sends m || !s.netOn || s.joinHold || !s.shaperOk m .port) = false := by
  simp [idle, sends, net, noHold, tokens]

/-- A port that begins the frame to which the hierarchy descends. -/
theorem State.egressSelect_begins {f : EgFrame}
    (opens : ((Tab.rd (fun _ => none) s.net.tx m).isSome || !s.sends m || !s.netOn || s.joinHold || !s.shaperOk m .port) = false)
    (chosen : s.descend m 7 .port (s.eligible m) = (some f, u)) :
    s.egressSelect m = { u with net := { u.net with
      egress := u.net.egress.filter (fun (g : EgFrame) => g.id ≠ f.id || (g.leaf == Leaf.mgt) != (f.leaf == Leaf.mgt))
      tx := Tab.wr (fun _ => none) u.net.tx m (some f) } } := by
  rw [State.egressSelect, if_neg (Bool.eq_false_iff.mp opens), chosen]

theorem State.choose_nil (p : Point) (s : State) : s.choose m p [] = none := by
  cases p <;> rfl

/-- With nothing eligible the hierarchy ends in no frame. -/
theorem State.egressSelect_idle (none : s.eligible m = []) : s.egressSelect m = s := by
  have nothing : s.descend m 7 .port [] = (.none, s) := by rw [State.descend, State.choose_nil]
  rw [State.egressSelect, none, nothing]
  exact ite_self s

theorem State.frameDepart_none (idle : Tab.rd (fun _ => none) s.net.tx m = none) : s.frameDepart m cycle = s := by
  rw [State.frameDepart, idle]

theorem State.frameDepart_waits {f : EgFrame} (busy : Tab.rd (fun _ => none) s.net.tx m = some f) (unfinished : f.src ≠ none) :
    s.frameDepart m cycle = s := by
  rw [State.frameDepart, busy]
  exact if_pos (Option.isSome_iff_ne_none.mpr unfinished)

/-- Settles O34: tails, lost locks and ageing, the frame that a port begins, and the frame that departs. -/
theorem framesEndOrLeaveThePort : Obligations.FramesEndOrLeaveThePort := by
  unfold Obligations.FramesEndOrLeaveThePort
  refine ⟨⟨?_, ?_, ?_, ?_⟩, ?_, ?_, ?_, ?_⟩
  · intro s m rest bad cycle idle
    exact congrArg Host.Outcome.next (State.frameTail_none idle)
  · intro s m rest bad cycle f busy u
    refine ⟨fun holds => congrArg Host.Outcome.next (State.frameTail_held busy holds), fun noHold => ?_⟩
    intro got n runt cut mismatch bytes c a b x y g z t
    have ends : exec (.frameTail m rest bad cycle) s = .next (t.tailEnd runt g) := congrArg Host.Outcome.next (State.frameTail_ends busy noHold)
    rw [ends]
    refine ⟨fun short firmware => ?_, fun other => ?_⟩
    · rw [short]
      exact congrArg Host.Outcome.next (State.tailEnd_runt (f := g) firmware t)
    · exact congrArg Host.Outcome.next (State.tailEnd_other (f := g) other t)
  · intro s m
    exact ⟨fun up => congrArg Host.Outcome.next (State.lockLoss_up up), fun holding => congrArg Host.Outcome.next (State.lockLoss_holding holding),
      fun not6 not7 => congrArg Host.Outcome.next (State.lockLoss_other not6 not7)⟩
  · intro s vlan mac
    rfl
  · intro s u m f idle sends net noHold tokens
    refine ⟨fun chosen => ?_, fun none => congrArg Host.Outcome.next (State.egressSelect_idle none)⟩
    exact congrArg Host.Outcome.next (State.egressSelect_begins (State.egressSelect_open idle sends net noHold tokens) chosen)
  · intro s m f barred
    refine congrArg Host.Outcome.next (if_pos ?_)
    rcases barred with busy | silent | away | holds | empty
    · simp [busy]
    · simp [silent]
    · simp [away]
    · simp [holds]
    · simp [empty]
  · intro s m cycle f stays
    refine congrArg Host.Outcome.next ?_
    rcases stays with idle | ⟨busy, unfinished⟩
    · exact State.frameDepart_none idle
    · exact State.frameDepart_waits busy unfinished
  · intro s m cycle f busy whole L u r w v
    refine congrArg Host.Outcome.next ?_
    show s.frameDepart m cycle = _
    rw [State.frameDepart, busy]
    exact if_neg (by rw [whole]; decide)

end Sys2Proof.Machine

/-! ## Management frames and address entries (04 R119 to R121, R135, Table 4-4) -/

namespace Sys2Proof.Machine

open Sys2Proof

variable {s u t : State} {d : Desc} {f : Frame} {a : AddrEnt}

/-! ### Management frames -/

theorem State.managementFrame_takes {rest : List Frame} (first : s.net.toMgt = f :: rest) (runs : s.fwRuns = true) :
    let u := ({ s with net := { s.net with toMgt := rest } }).freeCells f.acct f.cells
    s.managementFrame = if f.bad then u else if f.dest = .ptp then u.ptpMessage f
      else match u.addr f.m f.entry with | some a => if u.netOn then u.answer f a else u | none => u := by
  rw [State.managementFrame, first]
  exact if_neg (by rw [runs]; decide)

/-- The first answer of a second. -/
theorem State.answer_first (asked : asks f.bytes = true) (fresh : (s.lport f.m).ansTick + 976563 ≤ s.now ∨ (s.lport f.m).answers = 0) :
    s.answer f a = (s.updLport f.m fun x => { x with answers := 1, ansTick := s.now }).sendMgt f.m a.prio (answerFrame f a) := by
  have new : (decide ((s.lport f.m).ansTick + 976563 ≤ s.now) || (s.lport f.m).answers == 0) = true := by simpa using fresh
  simp only [State.answer, new, asked]
  rfl

/-- A later answer of the same second, up to 4,096 of them. -/
theorem State.answer_later (asked : asks f.bytes = true) (some : 0 < (s.lport f.m).answers) (room : (s.lport f.m).answers < 4096)
    (within : s.now < (s.lport f.m).ansTick + 976563) :
    s.answer f a = (s.updLport f.m fun x => { x with answers := (s.lport f.m).answers + 1 }).sendMgt f.m a.prio (answerFrame f a) := by
  have old : (decide ((s.lport f.m).ansTick + 976563 ≤ s.now) || (s.lport f.m).answers == 0) = false := by
    simpa using ⟨within, Nat.pos_iff_ne_zero.mp some⟩
  have few : ¬(4096 ≤ (s.lport f.m).answers ∨ asks f.bytes = false) := by simp [asked, room]
  simp only [State.answer, old, Bool.false_eq_true, if_false]
  exact if_neg few

theorem State.answer_spent (full : 4096 ≤ (s.lport f.m).answers) (within : s.now < (s.lport f.m).ansTick + 976563) : s.answer f a = s := by
  have old : (decide ((s.lport f.m).ansTick + 976563 ≤ s.now) || (s.lport f.m).answers == 0) = false := by
    have some : (s.lport f.m).answers ≠ 0 := by omega
    simpa using ⟨within, some⟩
  simp only [State.answer, old, Bool.false_eq_true, if_false]
  exact if_pos (.inl full)

theorem State.answer_unasked (other : asks f.bytes = false) : s.answer f a = s := if_pos (.inr other)

/-! ### NET_ADDR_SET -/

theorem netAddrSet_bad (fields : (decide (d.f 8 1 ≤ 127) && decide (d.f 9 1 ≤ 3) && decide (d.f 10 1 ≤ 1) && d.handle == 0 && d.f 23 1 == 0
      && allZero (d.bytes 40 24)) = false ∨ (d.f 10 1 ≠ 0 ∧ ((d.f 11 1 == 4 || d.f 11 1 == 6) && decide (d.f 12 2 ≤ 4094) && decide (d.f 14 1 ≤ 7)
      && decide (d.f 15 1 ≤ 63) && unicastMac (d.bytes 16 6) && decide (1 ≤ d.f 22 1) && decide (d.f 22 1 ≤ if d.f 11 1 = 4 then 32 else 128)
      && (d.f 11 1 != 4 || allZero (d.bytes 28 12)) && (d.f 12 2 != 0 || d.f 14 1 == d.f 15 1 / 8)) = false)) :
    netAddrSet d s = s.done d St.GEN_FIELD := by
  refine if_pos ?_
  rcases fields with bad | ⟨sets, bad⟩
  · rw [bad]
    rfl
  · rw [bad, beq_eq_false_iff_ne.mpr sets]
    simp

theorem netAddrSet_good (fields : (decide (d.f 8 1 ≤ 127) && decide (d.f 9 1 ≤ 3) && decide (d.f 10 1 ≤ 1) && d.handle == 0 && d.f 23 1 == 0
      && allZero (d.bytes 40 24)) = true) (entry : d.f 10 1 = 0 ∨ ((d.f 11 1 == 4 || d.f 11 1 == 6) && decide (d.f 12 2 ≤ 4094) && decide (d.f 14 1 ≤ 7)
      && decide (d.f 15 1 ≤ 63) && unicastMac (d.bytes 16 6) && decide (1 ≤ d.f 22 1) && decide (d.f 22 1 ≤ if d.f 11 1 = 4 then 32 else 128)
      && (d.f 11 1 != 4 || allZero (d.bytes 28 12)) && (d.f 12 2 != 0 || d.f 14 1 == d.f 15 1 / 8)) = true) :
    netAddrSet d s = match s.addrRefusal d with | some r => s.complete d r.1 r.2.1 r.2.2 0 | none => s.defer d := by
  refine if_neg ?_
  rw [fields]
  rcases entry with removes | good
  · simp [removes]
  · rw [good]
    simp

/-- The checks of Table 4-4 on a port that exists. -/
theorem State.addrRefusal_exists (there : s.lportExists (d.f 8 1) = true) :
    s.addrRefusal d = match (if d.f 10 1 = 0 then none else ((s.entries (d.f 8 1)).filter fun x => x.1 != d.f 9 1).find? fun x => x.2.mac != d.bytes 16 6) with
      | some x => some (St.CFG_CONFLICT, 16 + 255 * 256, hiLo x.1 0xFFFFFFFF)
      | none =>
        if d.f 10 1 = 1 ∧ ((List.range 128).any fun n => (s.entries n).any fun x => x.2.vlan == d.f 12 2 && x.2.ip == d.bytes 24 16) then
          some (St.MAC_ADDR_IN_USE, 0, 0)
        else if d.f 10 1 = 1 ∧ s.fld (Reg.MAC_LP_CFG (d.f 8 1)) Fd.MAC_LP_CFG_PFC_EN ≠ 0 ∧
            ¬natBit (s.fld (Reg.MAC_LP_CFG (d.f 8 1)) Fd.MAC_LP_CFG_PFC_EN) (d.f 14 1) then
          some (St.CFG_CONFLICT, 14 + 255 * 256, Reg.MAC_LP_CFG (d.f 8 1))
        else if (s.addr (d.f 8 1) (d.f 9 1)).isSome ∧ s.addrBusy (d.f 8 1) (d.f 9 1) then some (St.MAC_ADDR_BUSY, 0, 0)
        else none := if_neg (by rw [there]; decide)

/-- The address of another port's entry. -/
theorem State.addrInUse_iff : ((List.range 128).any fun n => (s.entries n).any fun x => x.2.vlan == d.f 12 2 && x.2.ip == d.bytes 24 16) = true ↔
    ∃ n < 128, ∃ x ∈ s.entries n, x.2.vlan = d.f 12 2 ∧ x.2.ip = d.bytes 24 16 := by
  simp only [List.any_eq_true, List.mem_range, Bool.and_eq_true, beq_iff_eq]

/-- An entry to set whose port has one MAC address. -/
theorem State.addrRefusal_sets (there : s.lportExists (d.f 8 1) = true) (sets : d.f 10 1 = 1)
    (one : ∀ x ∈ s.entries (d.f 8 1), x.1 ≠ d.f 9 1 → x.2.mac = d.bytes 16 6) :
    s.addrRefusal d =
      if ((List.range 128).any fun n => (s.entries n).any fun x => x.2.vlan == d.f 12 2 && x.2.ip == d.bytes 24 16) = true then
        some (St.MAC_ADDR_IN_USE, 0, 0)
      else if s.fld (Reg.MAC_LP_CFG (d.f 8 1)) Fd.MAC_LP_CFG_PFC_EN ≠ 0 ∧
          natBit (s.fld (Reg.MAC_LP_CFG (d.f 8 1)) Fd.MAC_LP_CFG_PFC_EN) (d.f 14 1) = false then
        some (St.CFG_CONFLICT, 14 + 255 * 256, Reg.MAC_LP_CFG (d.f 8 1))
      else if (s.addr (d.f 8 1) (d.f 9 1)).isSome = true ∧ s.addrBusy (d.f 8 1) (d.f 9 1) = true then some (St.MAC_ADDR_BUSY, 0, 0)
      else none := by
  have noOther : ((s.entries (d.f 8 1)).filter fun x => x.1 != d.f 9 1).find? (fun x => x.2.mac != d.bytes 16 6) = none := by
    simpa [List.find?_eq_none] using fun e a listed other => one (e, a) listed other
  rw [State.addrRefusal_exists there, sets, if_neg Nat.one_ne_zero, noOther]
  simp only [true_and, Bool.not_eq_true]

/-- An entry to remove. -/
theorem State.addrRefusal_removes (there : s.lportExists (d.f 8 1) = true) (removes : d.f 10 1 = 0) :
    s.addrRefusal d =
      if (s.addr (d.f 8 1) (d.f 9 1)).isSome = true ∧ s.addrBusy (d.f 8 1) (d.f 9 1) = true then some (St.MAC_ADDR_BUSY, 0, 0) else none := by
  rw [State.addrRefusal_exists there, removes, if_pos rfl]
  simp only [Nat.zero_ne_one, false_and, if_false]

/-- An entry to set beside one of another MAC address. -/
theorem State.addrRefusal_conflict {x : Nat × AddrEnt} (there : s.lportExists (d.f 8 1) = true) (sets : d.f 10 1 = 1)
    (other : (s.entries (d.f 8 1)).find? (fun x => x.1 != d.f 9 1 && x.2.mac != d.bytes 16 6) = some x) :
    s.addrRefusal d = some (St.CFG_CONFLICT, 16 + 255 * 256, hiLo x.1 0xFFFFFFFF) := by
  have found : ((s.entries (d.f 8 1)).filter fun x => x.1 != d.f 9 1).find? (fun x => x.2.mac != d.bytes 16 6) = some x := by
    simpa only [List.find?_filter, Bool.decide_and, Bool.decide_eq_true] using other
  rw [State.addrRefusal_exists there, sets, if_neg Nat.one_ne_zero, found]

/-- Settles O35: the frame that firmware takes, and NET_ADDR_SET by the order of its checks. -/
theorem firmwareAnswersFrames : Obligations.FirmwareAnswersFrames := by
  unfold Obligations.FirmwareAnswersFrames
  refine ⟨?_, ?_, ?_, ?_⟩
  · intro s nothing
    refine congrArg Host.Outcome.next ?_
    show s.managementFrame = s
    unfold State.managementFrame
    split
    · rfl
    · rename_i some
      rcases nothing with none | stopped
      · cases none.symm.trans some
      · rw [stopped]
        rfl
  · intro s u f rest first runs hu
    subst hu
    have takes : exec .managementFrame s = .next s.managementFrame := rfl
    rw [takes, State.managementFrame_takes first runs]
    refine ⟨fun bad => ?_, fun good ptp => ⟨fun deaf => ?_, fun waits hears domain announce => ?_⟩, fun good other silent => ?_, fun a good other entry net asked => ?_⟩
    · rw [if_pos bad]
    · rw [if_neg (Bool.eq_false_iff.mp good), if_pos ptp]
      exact congrArg Host.Outcome.next (if_pos deaf)
    · rw [if_neg (Bool.eq_false_iff.mp good), if_pos ptp]
      refine congrArg Host.Outcome.next ((if_neg ?_).trans ((if_pos announce).trans (if_pos waits)))
      rintro (off | deaf | foreign)
      · omega
      · exact Bool.false_ne_true (deaf.symm.trans hears)
      · exact foreign domain
    · rw [if_neg (Bool.eq_false_iff.mp good), if_neg other]
      split
      · rename_i a entry
        rcases silent with none | away | unasked
        · cases none.symm.trans entry
        · rw [away, if_neg Bool.false_ne_true]
        · rw [State.answer_unasked unasked, ite_self]
      · rfl
    · rw [if_neg (Bool.eq_false_iff.mp good), if_neg other, entry]
      simp only [if_pos net]
      refine ⟨fun full within => ?_, fun some room within => ?_, fun fresh => ?_⟩
      · rw [State.answer_spent full within]
      · rw [State.answer_later asked some room within]
      · rw [State.answer_first asked fresh]
  · intro s u d takes hu fields entry
    subst hu
    have runs : exec .netAddrSet s = .next ((netAddrSet d (s.start d)).replicate (.command d.toBytes true [])) :=
      congrArg Host.Outcome.next (State.ringCmd_repeated takes (by decide) _)
    rw [runs]
    refine ⟨fun bad => ?_, fun sound good => ⟨fun r refused => ?_, fun accepted => ?_⟩⟩
    · rw [netAddrSet_bad bad]
    · rw [netAddrSet_good sound good, refused]
    · rw [netAddrSet_good sound good, accepted]
  · intro u d
    refine ⟨fun none => if_pos (by rw [none]; rfl), fun there => ⟨fun removes => ?_, fun x sets other => ?_, fun sets one => ⟨fun used => ?_, fun new => ?_⟩⟩⟩
    · exact State.addrRefusal_removes there removes
    · exact State.addrRefusal_conflict there sets other
    · rw [State.addrRefusal_sets there sets one, if_pos (State.addrInUse_iff.mpr used)]
    · have free : ¬((List.range 128).any fun n => (u.entries n).any fun x => x.2.vlan == d.f 12 2 && x.2.ip == d.bytes 24 16) = true := by
        rw [State.addrInUse_iff]
        rintro ⟨n, port, x, listed, vlan, ip⟩
        exact new n port x listed vlan ip
      rw [State.addrRefusal_sets there sets one, if_neg free]
      refine ⟨fun enabled off => if_pos ⟨enabled, off⟩, fun fine => if_neg ?_⟩
      rintro ⟨enabled, off⟩
      exact fine.elim enabled fun on => Bool.false_ne_true (off.symm.trans on)

end Sys2Proof.Machine

/-! ## Packets and responses are received (05 R156 to R168, R172, R174, Tables 5-7 and 5-8) -/

namespace Sys2Proof.Machine

open Sys2Proof

variable {s u v : State} {f : Frame} {q : Nat}

/-! ### The first frame -/

/-- A row whose kind the first frame is not takes none. -/
theorem State.FirstFrame.leave (F : s.FirstFrame u f) (p : Nat → Nat → Bool)
    (other : p (parseBth f.bytes).op (beField f.bytes ((parseHdr f.bytes).l4 + 20) 1 / 32 % 4) = false) : s.takeRoce p = s := by
  obtain ⟨rest, list⟩ := List.head?_eq_some_iff.mp F.head
  rw [State.takeRoce, F.free, list]
  exact if_neg (Bool.eq_false_iff.mp other)

theorem State.takeRoce_none (nothing : s.joinHold = true ∨ s.net.toRdma = []) (p : Nat → Nat → Bool) : s.takeRoce p = s := by
  have empty : (if s.joinHold then [] else s.net.toRdma) = [] := by
    rcases nothing with holds | none
    · exact if_pos holds
    · rw [none, ite_self]
  rw [State.takeRoce, empty]

theorem State.FirstFrame.receive (F : s.FirstFrame u f) : exec .rocePacketReceive s = .next (u.roceIn f) :=
  congrArg Host.Outcome.next (F.take _ rfl)

theorem State.FirstFrame.ack (F : s.FirstFrame u f) (op : (parseBth f.bytes).op = 0x11)
    (kind : beField f.bytes ((parseHdr f.bytes).l4 + 20) 1 / 32 % 4 = 0) : exec .ackReceive s = .next (u.roceIn f) :=
  congrArg Host.Outcome.next (F.take _ (by simp only [op, kind, beq_self_eq_true, Bool.and_self]))

theorem State.FirstFrame.nak (F : s.FirstFrame u f) (op : (parseBth f.bytes).op = 0x11)
    (kind : beField f.bytes ((parseHdr f.bytes).l4 + 20) 1 / 32 % 4 ≠ 0) : exec .nakReceive s = .next (u.roceIn f) :=
  congrArg Host.Outcome.next (F.take _ (by simp only [op, bne_iff_ne.mpr kind, beq_self_eq_true, Bool.and_self]))

theorem State.FirstFrame.readResponse (F : s.FirstFrame u f) (low : 0x0D ≤ (parseBth f.bytes).op) (high : (parseBth f.bytes).op ≤ 0x10) :
    exec .readResponseReceive s = .next (u.roceIn f) :=
  congrArg Host.Outcome.next (F.take _ (by simp only [low, high, decide_true, Bool.and_self]))

theorem State.FirstFrame.cnp (F : s.FirstFrame u f) (op : (parseBth f.bytes).op = 0x81) : exec .cnpReceive s = .next (u.roceIn f) :=
  congrArg Host.Outcome.next (F.take _ (by simp only [op, beq_self_eq_true]))

/-! ### A frame that is handled -/

/-- The frame's cells are freed unless its handling keeps them. -/
def Frame.settle (f : Frame) (r : Bool × State) : State := if r.1 then r.2 else r.2.freeCells f.acct f.cells

@[simp] theorem Frame.settle_drop (f : Frame) (s : State) : f.settle (false, s) = s.freeCells f.acct f.cells := rfl

@[simp] theorem Frame.settle_keep (f : Frame) (s : State) : f.settle (true, s) = s := rfl

/-- A frame of a live QP is handled by its opcode, on the QP's resident context. -/
theorem State.Handles.roceIn (H : s.Handles u f q) :
    u.roceIn f = f.settle
      (if isRequest (parseBth f.bytes).op then
        (if psnSub (parseBth f.bytes).psn (u.qp q).epsn = 0 then (u.useQp q).requestIn q f false
        else if psnSub (parseBth f.bytes).psn (u.qp q).epsn < 8388608 then
          (false, if (u.qp q).nakSent || (u.qp q).failing then u.useQp q
            else (((u.useQp q).sendNak q synSeq).updQp q fun x => { x with nakSent := true }).cntRdm 12 1)
        else (false, (u.useQp q).duplicate q f))
      else if 0x0D ≤ (parseBth f.bytes).op ∧ (parseBth f.bytes).op ≤ 0x10 then (u.useQp q).readIn q f
      else if (parseBth f.bytes).op = 0x11 then (false, (u.useQp q).aethIn q f)
      else if (parseBth f.bytes).op = 0x81 then (false, (u.useQp q).cnpIn q)
      else (false, (u.useQp q).cntRdm 1 1)) := by
  rw [State.Reaches.roceIn H.toReaches]
  refine (if_neg ?_).trans ((if_neg H.live).trans rfl)
  rintro (addr | vlan)
  · exact addr H.addr
  · exact vlan H.vlan

theorem isRequest_of_le {op : Nat} (h : op ≤ 0x0C) : isRequest op = true := by simp [isRequest, h]

/-- An in-sequence request. -/
theorem State.Handles.inSequence (H : s.Handles u f q) (next : psnSub (parseBth f.bytes).psn (u.qp q).epsn = 0)
    (request : isRequest (parseBth f.bytes).op = true) :
    exec .rocePacketReceive s = .next (f.settle ((u.useQp q).requestIn q f false)) := by
  rw [H.first.receive, H.roceIn, if_pos request, if_pos next]

/-- A request after a gap. -/
theorem State.Handles.gap (H : s.Handles u f q) (ahead : 0 < psnSub (parseBth f.bytes).psn (u.qp q).epsn)
    (near : psnSub (parseBth f.bytes).psn (u.qp q).epsn < 8388608) (request : isRequest (parseBth f.bytes).op = true) :
    exec .rocePacketReceive s = .next ((if (u.qp q).nakSent || (u.qp q).failing then u.useQp q
      else (((u.useQp q).sendNak q synSeq).updQp q fun x => { x with nakSent := true }).cntRdm 12 1).freeCells f.acct f.cells) := by
  rw [H.first.receive, H.roceIn, if_pos request, if_neg (Nat.pos_iff_ne_zero.mp ahead), if_pos near, Frame.settle_drop]

theorem State.Handles.duplicate (H : s.Handles u f q) (behind : 8388608 ≤ psnSub (parseBth f.bytes).psn (u.qp q).epsn)
    (request : isRequest (parseBth f.bytes).op = true) :
    exec .rocePacketReceive s = .next (((u.useQp q).duplicate q f).freeCells f.acct f.cells) := by
  rw [H.first.receive, H.roceIn, if_pos request, if_neg (by omega), if_neg (by omega), Frame.settle_drop]

theorem State.Handles.aeth (H : s.Handles u f q) (op : (parseBth f.bytes).op = 0x11) :
    u.roceIn f = ((u.useQp q).aethIn q f).freeCells f.acct f.cells := by
  rw [H.roceIn, op, if_neg (by decide), if_neg (by decide), if_pos rfl, Frame.settle_drop]

theorem State.Handles.response (H : s.Handles u f q) (low : 0x0D ≤ (parseBth f.bytes).op) (high : (parseBth f.bytes).op ≤ 0x10) :
    exec .readResponseReceive s = .next (f.settle ((u.useQp q).readIn q f)) := by
  have noRequest : ¬isRequest (parseBth f.bytes).op = true := by
    simp only [isRequest, Bool.or_eq_true, decide_eq_true_eq, beq_iff_eq]
    omega
  rw [H.first.readResponse low high, H.roceIn, if_neg noRequest, if_pos ⟨low, high⟩]

theorem State.Handles.cnpIn (H : s.Handles u f q) (op : (parseBth f.bytes).op = 0x81) :
    exec .cnpReceive s = .next (((u.useQp q).cnpIn q).freeCells f.acct f.cells) := by
  rw [H.first.cnp op, H.roceIn, op, if_neg (by decide), if_neg (by decide), if_neg (by decide), if_pos rfl, Frame.settle_drop]

/-! ### Requests in sequence -/

theorem State.requestIn_send (op : (parseBth f.bytes).op = 0x00 ∨ (parseBth f.bytes).op = 0x01 ∨ (parseBth f.bytes).op = 0x02 ∨ (parseBth f.bytes).op = 0x04) :
    s.requestIn q f false = s.sendIn q f false := if_pos op

theorem State.requestIn_probe (op : (parseBth f.bytes).op = 0x0C) (empty : beField f.bytes ((parseHdr f.bytes).l4 + 32) 4 = 0)
    (room : (s.qp q).inReads < (s.qp q).ird) :
    s.requestIn q f false = (false, ((s.updQp q fun x => { x with inReads := x.inReads + 1, ackDue := true }).accepted q f true true).updQp q fun x =>
      { x with readDue := x.readDue ++ [((parseBth f.bytes).psn, x.msn)] }) := by
  simp only [State.requestIn, op, empty, Nat.not_le.mpr room, if_true, if_false, Nat.reduceEqDiff, or_self, OfNat.ofNat_ne_zero]

theorem State.requestIn_probes (op : (parseBth f.bytes).op = 0x0C) (empty : beField f.bytes ((parseHdr f.bytes).l4 + 32) 4 = 0)
    (full : (s.qp q).ird ≤ (s.qp q).inReads) : s.requestIn q f false = (false, s.nakFail q synInv 0x07) := by
  simp only [State.requestIn, op, empty, full, if_true, if_false, Nat.reduceEqDiff, or_self, OfNat.ofNat_ne_zero]

theorem State.requestIn_read (op : (parseBth f.bytes).op = 0x0C) (some : 0 < beField f.bytes ((parseHdr f.bytes).l4 + 32) 4)
    (fits : beField f.bytes ((parseHdr f.bytes).l4 + 32) 4 ≤ 2147483648) : s.requestIn q f false = (false, s.nakFail q synAccess 0x08) := by
  simp only [State.requestIn, op, Nat.pos_iff_ne_zero.mp some, fits, if_true, if_false, Nat.reduceEqDiff, or_self, OfNat.ofNat_ne_zero]

theorem State.requestIn_long (op : (parseBth f.bytes).op = 0x0C) (long : 2147483648 < beField f.bytes ((parseHdr f.bytes).l4 + 32) 4) :
    s.requestIn q f false = (false, s.nakFail q synInv 0x07) := by
  have some : beField f.bytes ((parseHdr f.bytes).l4 + 32) 4 ≠ 0 := by omega
  simp only [State.requestIn, op, some, Nat.not_le.mpr long, if_true, if_false, Nat.reduceEqDiff, or_self, OfNat.ofNat_ne_zero]

theorem State.requestIn_write (low : 0x06 ≤ (parseBth f.bytes).op) (high : (parseBth f.bytes).op ≤ 0x0B) :
    s.requestIn q f false = (false, s.nakFail q synAccess 0x08) :=
  (if_neg (by omega)).trans ((if_neg (by omega)).trans (if_pos ⟨low, high⟩))

theorem State.requestIn_other (op : (parseBth f.bytes).op = 0x03 ∨ (parseBth f.bytes).op = 0x05 ∨ (parseBth f.bytes).op = 0x13 ∨ (parseBth f.bytes).op = 0x14
    ∨ (parseBth f.bytes).op = 0x16 ∨ (parseBth f.bytes).op = 0x17) : s.requestIn q f false = (false, s.nakFail q synInv 0x06) :=
  (if_neg (by omega)).trans ((if_neg (by omega)).trans (if_neg (by omega)))

/-! ### SEND packets in sequence -/

/-- A SEND packet that begins a message, and one that ends it. -/
def Frame.sendFirst (f : Frame) : Bool := (parseBth f.bytes).op == 0x00 || (parseBth f.bytes).op == 0x04
def Frame.sendLast (f : Frame) : Bool := (parseBth f.bytes).op == 0x02 || (parseBth f.bytes).op == 0x04

/-- The bytes of the message before the packet, its code point, whether the packet's length does not fit its place, and the message's length with it. -/
def State.sendGot (s : State) (q : Nat) (f : Frame) : List Byte := if f.sendFirst then [] else (s.qp q).rx
def State.sendDscp (s : State) (q : Nat) (f : Frame) : Nat := if f.sendFirst then (parseHdr f.bytes).dscp else (s.qp q).rxDscp
def State.sendShort (s : State) (q : Nat) (f : Frame) : Bool :=
  if f.sendLast then (bthBody f.bytes).isEmpty || decide ((s.qp q).mtu < (bthBody f.bytes).length) else (bthBody f.bytes).length != (s.qp q).mtu

theorem State.sendIn_misplaced (misplaced : f.sendFirst = (s.qp q).reasm) : s.sendIn q f false = (false, s.nakFail q synInv 0x06) :=
  if_pos (beq_iff_eq.mpr misplaced)

theorem State.sendGot_length (s : State) (q : Nat) (f : Frame) : (s.sendGot q f).length = if f.sendFirst then 0 else (s.qp q).rx.length := by
  unfold State.sendGot
  split <;> rfl

theorem State.sendIn_badLength (placed : f.sendFirst ≠ (s.qp q).reasm)
    (bad : s.sendShort q f = true ∨ 16448 < (s.sendGot q f).length + (bthBody f.bytes).length
      ∨ (f.sendLast = true ∧ (s.sendGot q f).length + (bthBody f.bytes).length < 64)) :
    s.sendIn q f false = (false, s.nakFail q synInv 0x07) := by
  rw [State.sendGot_length] at bad
  refine (if_neg fun h => placed (beq_iff_eq.mp h)).trans ?_
  by_cases short : s.sendShort q f = true
  · exact if_pos short
  · exact (if_neg short).trans (if_pos (bad.resolve_left short))

/-- What the packet that ends a capsule leaves, when the capsule finds its queue full and when it is accepted. -/
def State.sendEnd (s : State) (q : Nat) (f : Frame) : Option State → Bool × State
  | none => (false, s.cntCmd 1 1)
  | some w => (true, (w.updQp q fun x => { x with rx := [], rxCells := [], reasm := false, ackDue := true }).accepted q f false true)

/-- The packet that ends a capsule of a good length: the capsule is accepted or finds its queue full. -/
theorem State.sendIn_last (placed : f.sendFirst ≠ (s.qp q).reasm) (fits : s.sendShort q f = false)
    (most : (s.sendGot q f).length + (bthBody f.bytes).length ≤ 16448) (last : f.sendLast = true)
    (least : 64 ≤ (s.sendGot q f).length + (bthBody f.bytes).length) {r : Option State}
    (taken : (s.settleList ((s.qp q).rxCells ++ [(f.acct, f.cells)])).2.acceptCapsule q (s.sendGot q f ++ bthBody f.bytes)
      (s.settleList ((s.qp q).rxCells ++ [(f.acct, f.cells)])).1 (s.sendDscp q f) f.stamp false = r) :
    s.sendIn q f false = s.sendEnd q f r := by
  rw [State.sendGot_length] at most least
  refine (if_neg fun h => placed (beq_iff_eq.mp h)).trans ((if_neg (Bool.eq_false_iff.mp fits)).trans
    ((if_neg fun h => h.elim (Nat.not_lt.mpr most) fun h => Nat.not_lt.mpr least h.2).trans ((if_pos last).trans ?_)))
  generalize s.settleList ((s.qp q).rxCells ++ [(f.acct, f.cells)]) = settled at taken ⊢
  obtain ⟨cells, w⟩ := settled
  exact congrArg (s.sendEnd q f) taken

/-- A packet that does not end its capsule joins it. -/
theorem State.sendIn_more (placed : f.sendFirst ≠ (s.qp q).reasm) (fits : s.sendShort q f = false)
    (most : (s.sendGot q f).length + (bthBody f.bytes).length ≤ 16448) (more : f.sendLast = false) :
    let w := if f.sendFirst then { s with rdm := { s.rdm with handles := s.rdm.handles + 1 } } else s
    s.sendIn q f false = (true, (w.updQp q fun y => { y with
      rx := (if f.sendFirst then [] else y.rx) ++ bthBody f.bytes, rxCells := y.rxCells ++ [(f.acct, f.cells)], rxDscp := s.sendDscp q f
      rxHandle := if f.sendFirst then s.rdm.handles % 4294967296 else y.rxHandle, reasm := true, ackDue := true }).accepted q f false false) := by
  rw [State.sendGot_length] at most
  exact (if_neg fun h => placed (beq_iff_eq.mp h)).trans ((if_neg (Bool.eq_false_iff.mp fits)).trans
    ((if_neg fun h => h.elim (Nat.not_lt.mpr most) fun h => Bool.false_ne_true (more.symm.trans h.1)).trans (if_neg (Bool.eq_false_iff.mp more))))

/-! ### Acknowledgements -/

theorem State.aethIn_invalid (invalid : (s.qp q).validRsp (parseBth f.bytes).psn = false) : s.aethIn q f = s.cntRdm 9 1 :=
  if_pos (by rw [invalid]; rfl)

theorem State.aethIn_ack (valid : (s.qp q).validRsp (parseBth f.bytes).psn = true)
    (kind : beField f.bytes ((parseHdr f.bytes).l4 + 20) 1 / 32 % 4 = 0) : s.aethIn q f = s.ackIn q (parseBth f.bytes).psn f.stamp :=
  (if_neg (by rw [valid]; decide)).trans (if_pos kind)

theorem State.aethIn_nak (valid : (s.qp q).validRsp (parseBth f.bytes).psn = true)
    (kind : beField f.bytes ((parseHdr f.bytes).l4 + 20) 1 / 32 % 4 ≠ 0) :
    s.aethIn q f = s.nakIn q (parseBth f.bytes).psn (beField f.bytes ((parseHdr f.bytes).l4 + 20) 1) :=
  (if_neg (by rw [valid]; decide)).trans (if_neg kind)

section
variable {p syn : Nat}

theorem State.nakIn_rnrSpent (kind : syn / 32 % 4 = 1) (spent : ((s.freeBefore q p).qp q).rnrLeft = 0) (bounded : ((s.freeBefore q p).qp q).rnrCnt ≠ 7) :
    s.nakIn q p syn = ((s.freeBefore q p).updQp q fun x => { x with ackDeadline := 0 }).qpFail q 0x02 :=
  (if_pos kind).trans (if_pos ⟨spent, bounded⟩)

theorem State.nakIn_rnrWaits (kind : syn / 32 % 4 = 1) (left : 0 < ((s.freeBefore q p).qp q).rnrLeft ∨ ((s.freeBefore q p).qp q).rnrCnt = 7) :
    let w := s.freeBefore q p
    s.nakIn q p syn = w.setQp q { w.qp q with rnrLeft := if (w.qp q).rnrCnt = 7 then (w.qp q).rnrLeft else (w.qp q).rnrLeft - 1
                                              rnrResume := w.now + rnrTicks (syn % 32), rnrPsn := p, ackDeadline := 0 } :=
  (if_pos kind).trans (if_neg (by omega))

theorem State.nakIn_sequenceSpent (notRnr : syn / 32 % 4 ≠ 1) (code : syn % 32 = 0) (spent : ((s.freeBefore q p).qp q).retryLeft = 0) :
    s.nakIn q p syn = (s.freeBefore q p).qpFail q 0x01 :=
  (if_neg notRnr).trans ((if_pos code).trans (if_pos spent))

theorem State.nakIn_sequence (notRnr : syn / 32 % 4 ≠ 1) (code : syn % 32 = 0) (left : 0 < ((s.freeBefore q p).qp q).retryLeft) :
    let w := s.freeBefore q p
    s.nakIn q p syn = ((w.setQp q { w.qp q with retryLeft := (w.qp q).retryLeft - 1 }).resendFrom q p).setDeadline q :=
  (if_neg notRnr).trans ((if_pos code).trans (if_neg (Nat.pos_iff_ne_zero.mp left)))

/-- The NAKs that end the QP. -/
theorem State.nakIn_fatal (notRnr : syn / 32 % 4 ≠ 1) (low : 1 ≤ syn % 32) (high : syn % 32 ≤ 3) : s.nakIn q p syn = s.qpFail q (syn % 32 + 2) := by
  obtain code | code | code : syn % 32 = 1 ∨ syn % 32 = 2 ∨ syn % 32 = 3 := by omega
  all_goals
    simp only [State.nakIn, if_neg notRnr, code]
    rfl

theorem State.nakIn_unknown (notRnr : syn / 32 % 4 ≠ 1) (code : 3 < syn % 32) : s.nakIn q p syn = s.cntRdm 1 1 :=
  (if_neg notRnr).trans ((if_neg (by omega)).trans ((if_neg (by omega)).trans ((if_neg (by omega)).trans (if_neg (by omega)))))

end

/-! ### READ responses -/

section
variable {e : ReadEnt} {es : List ReadEnt}

theorem State.readIn_none (none : (s.qp q).reads = []) : s.readIn q f = (false, s.cntRdm 9 1) := by
  rw [State.readIn, none]

/-- The data of a response packet: First, Last and Only carry an AETH. -/
def Frame.readData (f : Frame) : List Byte := if (parseBth f.bytes).op = 0x0E then bthBody f.bytes else (bthBody f.bytes).drop 4

/-- A response packet whose length does not fit its place in the answer. -/
def State.readShort (s : State) (q : Nat) (f : Frame) (e : ReadEnt) : Bool :=
  if (parseBth f.bytes).op == 0x0F || (parseBth f.bytes).op == 0x10 then f.readData.length != e.len - e.got
  else f.readData.length != (s.qp q).mtu || decide (e.len - e.got ≤ (s.qp q).mtu)

theorem State.readShort_iff : s.readShort q f e = true ↔
    (((parseBth f.bytes).op = 0x0F ∨ (parseBth f.bytes).op = 0x10) ∧ f.readData.length ≠ e.len - e.got)
    ∨ (¬((parseBth f.bytes).op = 0x0F ∨ (parseBth f.bytes).op = 0x10) ∧ (f.readData.length ≠ (s.qp q).mtu ∨ e.len - e.got ≤ (s.qp q).mtu)) := by
  unfold State.readShort
  by_cases last : (parseBth f.bytes).op = 0x0F ∨ (parseBth f.bytes).op = 0x10
  · rw [if_pos (by simpa using last)]
    simp [last]
  · rw [if_neg (by simpa using last)]
    simp [last]

theorem State.readIn_bad (first : (s.qp q).reads = e :: es) (next : (parseBth f.bytes).psn = e.next (s.qp q).mtu) (bad : s.readShort q f e = true) :
    s.readIn q f = (false, s.qpFail q 0x09) := by
  rw [State.readIn, first]
  exact (if_pos next).trans (if_pos bad)

/-- A good response packet in order: it is acknowledged, and the entry moves on. -/
def State.readMoved (s : State) (q : Nat) (f : Frame) (e : ReadEnt) (es : List ReadEnt) : State :=
  let a := s.ackIn q (parseBth f.bytes).psn f.stamp
  let c := if (parseHdr f.bytes).ecn = 3 then a.cnp q else a
  c.updQp q fun x => if (parseBth f.bytes).op = 0x0F ∨ (parseBth f.bytes).op = 0x10 then { x with reads := es, readsOut := x.readsOut - 1 }
    else { x with reads := { e with got := e.got + f.readData.length, gap := none } :: es }

theorem State.readIn_good (first : (s.qp q).reads = e :: es) (next : (parseBth f.bytes).psn = e.next (s.qp q).mtu) (good : s.readShort q f e = false) :
    let w := s.readMoved q f e es
    s.readIn q f = if (w.wb e.wb).st = .payload ∨ (w.wb e.wb).st = .locked then (true, w.payloadIn e.wb f.readData f.acct f.cells) else (false, w) := by
  rw [State.readIn, first]
  refine (if_pos next).trans ((if_neg (Bool.eq_false_iff.mp good)).trans ?_)
  simp only [Bool.or_eq_true, beq_iff_eq]
  rfl

theorem State.readIn_gap (first : (s.qp q).reads = e :: es) (gap : (parseBth f.bytes).psn ≠ e.next (s.qp q).mtu)
    (valid : (s.qp q).validRsp (parseBth f.bytes).psn = true) (near : psnSub (parseBth f.bytes).psn (e.next (s.qp q).mtu) < 8388608) :
    s.readIn q f = if e.gap = some e.got then (false, s)
      else (false, (s.updQp q fun x => { x with reads := { e with gap := some e.got } :: es }).reissueGap q e) := by
  rw [State.readIn, first]
  exact (if_neg gap).trans (if_pos ⟨valid, near⟩)

theorem State.readIn_invalid (first : (s.qp q).reads = e :: es) (gap : (parseBth f.bytes).psn ≠ e.next (s.qp q).mtu)
    (invalid : (s.qp q).validRsp (parseBth f.bytes).psn = false ∨ 8388608 ≤ psnSub (parseBth f.bytes).psn (e.next (s.qp q).mtu)) :
    s.readIn q f = (false, s.cntRdm 9 1) := by
  rw [State.readIn, first]
  refine (if_neg gap).trans (if_neg fun h => ?_)
  exact invalid.elim (fun no => Bool.false_ne_true (no.symm.trans h.1)) (Nat.not_le.mpr h.2)

end

/-! ### The statement's groups -/

/-- A row takes the first frame, or leaves it, by its opcode. -/
theorem State.FirstFrame.rows (F : s.FirstFrame u f) :
    let op := (parseBth f.bytes).op
    let k := beField f.bytes ((parseHdr f.bytes).l4 + 20) 1 / 32 % 4
    exec .rocePacketReceive s = .next (u.roceIn f)
    ∧ (op = 0x11 → k = 0 → exec .ackReceive s = .next (u.roceIn f)) ∧ (op ≠ 0x11 ∨ k ≠ 0 → exec .ackReceive s = .next s)
    ∧ (op = 0x11 → k ≠ 0 → exec .nakReceive s = .next (u.roceIn f)) ∧ (op ≠ 0x11 ∨ k = 0 → exec .nakReceive s = .next s)
    ∧ (0x0D ≤ op → op ≤ 0x10 → exec .readResponseReceive s = .next (u.roceIn f)) ∧ (op < 0x0D ∨ 0x10 < op → exec .readResponseReceive s = .next s)
    ∧ (op = 0x81 → exec .cnpReceive s = .next (u.roceIn f)) ∧ (op ≠ 0x81 → exec .cnpReceive s = .next s) := by
  intro op k
  refine ⟨F.receive, F.ack, fun other => ?_, F.nak, fun other => ?_, F.readResponse, fun other => ?_, F.cnp, fun other => ?_⟩ <;>
    refine congrArg Host.Outcome.next (F.leave _ ?_)
  · rcases other with op | kind
    · rw [beq_eq_false_iff_ne.mpr op, Bool.false_and]
    · rw [beq_eq_false_iff_ne.mpr kind, Bool.and_false]
  · rcases other with op | kind
    · rw [beq_eq_false_iff_ne.mpr op, Bool.false_and]
    · rw [bne_eq_false_iff_eq.mpr kind, Bool.and_false]
  · rcases other with low | high
    · rw [decide_eq_false (Nat.not_le.mpr low), Bool.false_and]
    · rw [decide_eq_false (Nat.not_le.mpr high), Bool.and_false]
  · exact beq_eq_false_iff_ne.mpr other

/-- Checks 1 to 4 of Table 5-7. -/
theorem State.FirstFrame.checks (F : s.FirstFrame u f) :
    let b := parseBth f.bytes
    (f.bad = true ∨ icrcOk f.bytes = false → exec .rocePacketReceive s = .next ((u.cntRdm 0 1).freeCells f.acct f.cells))
    ∧ (f.bad = false → icrcOk f.bytes = true →
        (b.tver ≠ 0 ∨ b.pkey ≠ 0xFFFF ∧ b.pkey ≠ 0x7FFF → exec .rocePacketReceive s = .next ((u.cntRdm 1 1).freeCells f.acct f.cells))
        ∧ (b.tver = 0 → b.pkey = 0xFFFF ∨ b.pkey = 0x7FFF →
            (b.qpn = 1 → exec .rocePacketReceive s = .next ({ u with rdm := { u.rdm with cm := u.rdm.cm ++ [f] } }.freeCells f.acct f.cells))
            ∧ (b.qpn ≠ 1 → u.qpOf b.qpn = none → exec .rocePacketReceive s = .next ((u.cntRdm 2 1).freeCells f.acct f.cells))
            ∧ (∀ q, b.qpn ≠ 1 → u.qpOf b.qpn = some q →
                ((u.qp q).st.receives = false → exec .rocePacketReceive s = .next ((u.cntRdm 2 1).freeCells f.acct f.cells))
                ∧ ((u.qp q).st.receives = true → u.parks q = true → exec .rocePacketReceive s = .next (u.park q f))))) := by
  intro b
  rw [F.receive, State.roceIn]
  refine ⟨fun broken => ?_, fun sound icrc => ?_⟩
  · rw [if_pos (broken.imp id Bool.eq_false_iff.mp)]
  · rw [if_neg fun h => h.elim (Bool.eq_false_iff.mp sound) (· icrc)]
    refine ⟨fun header => ?_, fun tver pkey => ?_⟩
    · rw [if_pos header]
    · rw [if_neg fun h => h.elim (· tver) fun h => pkey.elim h.1 h.2]
      refine ⟨fun cm => ?_, fun data unknown => ?_, fun q data known => ⟨fun deaf => ?_, fun hears parks => ?_⟩⟩
      · rw [if_pos cm]
      · rw [if_neg data, unknown]
      · rw [if_neg data, known]
        exact congrArg Host.Outcome.next (if_pos (by rw [deaf]; rfl))
      · rw [if_neg data, known]
        exact congrArg Host.Outcome.next ((if_neg (by rw [hears]; decide)).trans (if_pos parks))

/-- Checks 5 and 6. -/
theorem State.Reaches.checks (R : s.Reaches u f q) :
    let h := parseHdr f.bytes
    (h.srcIp ≠ (u.qp q).rip ∨ h.vlan ≠ (u.qp q).vlan → exec .rocePacketReceive s = .next ((u.cntRdm 3 1).freeCells f.acct f.cells))
    ∧ (h.srcIp = (u.qp q).rip → h.vlan = (u.qp q).vlan → (u.qp q).st = .err → exec .rocePacketReceive s = .next ((u.cntRdm 4 1).freeCells f.acct f.cells)) := by
  intro h
  rw [R.first.receive, R.roceIn]
  refine ⟨fun other => ?_, fun ip vlan dead => ?_⟩
  · exact congrArg Host.Outcome.next (if_pos other)
  · exact congrArg Host.Outcome.next ((if_neg fun other => other.elim (· ip) (· vlan)).trans (if_pos dead))

/-- A SEND packet in sequence. -/
theorem State.Handles.send (H : s.Handles u f q) (next : psnSub (parseBth f.bytes).psn (u.qp q).epsn = 0)
    (op : (parseBth f.bytes).op = 0x00 ∨ (parseBth f.bytes).op = 0x01 ∨ (parseBth f.bytes).op = 0x02 ∨ (parseBth f.bytes).op = 0x04) :
    exec .rocePacketReceive s = .next (f.settle ((u.useQp q).sendIn q f false)) := by
  rw [H.inSequence next (isRequest_of_le (by omega)), State.requestIn_send op]

/-- Settles O36: the rows that take a frame, the checks in their order, requests, acknowledgements, READ responses and CNPs. -/
theorem packetsAndResponsesAreReceived : Obligations.PacketsAndResponsesAreReceived := by
  unfold Obligations.PacketsAndResponsesAreReceived
  refine ⟨⟨?_, ?_⟩, ?_, ?_, ?_, ?_, ?_⟩
  · intro s nothing
    have idle (p : Nat → Nat → Bool) := congrArg (Host.Outcome.next (φ := Fault) (ρ := Refusal)) (State.takeRoce_none nothing p)
    exact ⟨idle _, idle _, idle _, idle _, idle _⟩
  · exact fun s u f F => F.rows
  · exact fun s u f F => F.checks
  · exact fun s u f q R => R.checks
  · intro s u f q H b v x d nak
    refine ⟨?_, ?_, ?_, ?_, ?_, ?_⟩
    · intro next op len
      have runs := H.inSequence next (isRequest_of_le (op.le.trans (by decide)))
      refine ⟨fun empty room => ?_, fun empty full => ?_, fun some fits => ?_, fun long => ?_⟩
      · rw [State.requestIn_probe op empty room] at runs
        exact runs
      · rw [State.requestIn_probes op empty full] at runs
        exact runs
      · rw [State.requestIn_read op some fits] at runs
        exact runs
      · rw [State.requestIn_long op long] at runs
        exact runs
    · intro next low high
      have runs := H.inSequence next (isRequest_of_le (Nat.le_trans high (by decide)))
      rw [State.requestIn_write low high] at runs
      exact runs
    · intro next op
      have request : isRequest b.op = true := by
        rcases op with op | op | op | op | op | op <;> rw [op] <;> rfl
      have runs := H.inSequence next request
      rw [State.requestIn_other op] at runs
      exact runs
    · intro next op data first last got dscp short n
      have runs := H.send next op
      refine ⟨fun misplaced => ?_, fun placed bad => ?_, fun placed fits most => ⟨fun ends least => ?_, fun more => ?_⟩⟩
      · rw [State.sendIn_misplaced misplaced] at runs
        exact runs
      · rw [State.sendIn_badLength placed bad] at runs
        exact runs
      · intro cs
        refine ⟨fun full => ?_, fun w taken => ?_⟩
        · rw [State.sendIn_last placed fits most ends least full] at runs
          exact runs
        · rw [State.sendIn_last placed fits most ends least taken] at runs
          exact runs
      · rw [State.sendIn_more placed fits most more] at runs
        exact runs
    · intro ahead near request
      have runs := H.gap ahead near request
      refine ⟨fun fresh live => ?_, fun told => ?_⟩
      · rw [fresh, live] at runs
        exact runs
      · rw [if_pos (by simpa using told)] at runs
        exact runs
    · exact fun behind request => H.duplicate behind request
  · intro s u f q H b v syn fail
    refine ⟨fun op kind => ?_, fun op kind => ?_⟩
    · rw [H.first.ack op kind, H.aeth op]
      refine ⟨fun valid => ?_, fun invalid => ?_⟩
      · rw [State.aethIn_ack valid kind]
        rfl
      · rw [State.aethIn_invalid invalid]
    · intro w
      have runs := H.first.nak op kind
      rw [H.aeth op] at runs
      refine ⟨fun invalid => ?_, fun valid => ?_⟩
      · rw [State.aethIn_invalid invalid] at runs
        exact runs
      · rw [State.aethIn_nak valid kind] at runs
        refine ⟨fun rnr => ⟨fun spent bounded => ?_, fun left => ?_⟩, fun notRnr code => ⟨fun spent => ?_, fun left => ?_⟩, fun n notRnr code low high => ?_,
          fun notRnr code => ?_⟩
        · rw [State.nakIn_rnrSpent rnr spent bounded] at runs
          exact runs
        · rw [State.nakIn_rnrWaits rnr left] at runs
          exact runs
        · rw [State.nakIn_sequenceSpent notRnr code spent] at runs
          exact runs
        · rw [State.nakIn_sequence notRnr code left] at runs
          exact runs
        · subst code
          rw [State.nakIn_fatal notRnr low high] at runs
          exact runs
        · rw [State.nakIn_unknown notRnr code] at runs
          exact runs
  · intro s u f q H b v
    refine ⟨?_, ?_⟩
    · intro low high data last
      have runs := H.response low high
      refine ⟨fun none => ?_, fun e es first => ?_⟩
      · rw [State.readIn_none none] at runs
        exact runs
      · intro nx a c e'
        refine ⟨fun next bad => ?_, fun next good w hw => ?_, fun gap valid near => ?_, fun gap invalid => ?_⟩
        · rw [State.readIn_bad first next (State.readShort_iff.mpr bad)] at runs
          exact runs
        · have fits : v.readShort q f e = false := by
            rw [Bool.eq_false_iff, Ne, State.readShort_iff]
            rintro (⟨ends, length⟩ | ⟨more, length⟩)
            · exact good.elim (fun h => length h.2) fun h => h.1 ends
            · exact good.elim (fun h => more h.1) fun h => length.elim (· h.2.1) (Nat.not_le.mpr h.2.2)
          have moved : v.readMoved q f e es = w := hw.symm
          rw [State.readIn_good first next fits, moved] at runs
          refine ⟨fun kept => ?_, fun notPayload notLocked => ?_⟩
          · rw [if_pos kept] at runs
            exact runs
          · rw [if_neg fun kept => kept.elim notPayload notLocked] at runs
            exact runs
        · rw [State.readIn_gap first gap valid near] at runs
          refine ⟨fun told => ?_, fun new => ?_⟩
          · rw [if_pos told] at runs
            exact runs
          · rw [if_neg new] at runs
            exact runs
        · rw [State.readIn_invalid first gap invalid] at runs
          exact runs
    · intro op w x cut
      rw [H.cnpIn op]
      exact ⟨fun free => congrArg (fun y : State => Host.Outcome.next (y.freeCells f.acct f.cells)) (if_pos free),
        fun held => congrArg (fun y : State => Host.Outcome.next (y.freeCells f.acct f.cells)) (if_neg (Nat.not_le.mpr held))⟩

end Sys2Proof.Machine

/-! ## Transmission, fetches, deadlines and the end of a queue pair (05 R147, R148, R152 to R157, R166, R167, R169, R175) -/

namespace Sys2Proof.Machine

open Sys2Proof

variable {s u t : State} {q : Nat} {d : Desc}

/-! ### Fetches -/

theorem State.fetchDue_of {g : Fetch} {k n : Nat} (noHold : s.joinHold = false) (fetch : (s.qp q).fetch = some g) (kind : g.kind = k)
    (grant : g.grant = some n) (due : n + 2 ≤ s.now) : s.fetchDue q k = true := by
  simp [State.fetchDue, fetch, noHold, kind, grant, due]

/-! ### Deadlines -/

theorem State.deadline_none {due : Bool} (none : due = false) (act : State → State) : s.deadline q due act = s := if_pos (by rw [none]; rfl)

theorem State.deadline_away {due : Bool} (expired : due = true) (away : (s.qp q).resident = false) (act : State → State) :
    s.deadline q due act = s.askTimer q :=
  (if_neg (by rw [expired]; decide)).trans (if_pos (by rw [away]; rfl))

/-- An earlier expiry of a resident QP still waits for its tick. -/
theorem State.deadline_later {n : Nat} (here : (s.qp q).resident = true) (waits : (s.qp q).timerAt = some n) (early : s.now < n) (due : Bool)
    (act : State → State) : s.deadline q due act = s := by
  cases due with
  | false => exact State.deadline_none rfl act
  | true => exact (if_neg (by decide)).trans ((if_neg (by rw [here]; decide)).trans (if_pos (by simpa [waits] using early)))

theorem State.deadline_now {due : Bool} (expired : due = true) (here : (s.qp q).resident = true) (reached : ∀ n, (s.qp q).timerAt = some n → n ≤ s.now)
    (act : State → State) : s.deadline q due act = act s := by
  refine (if_neg (by rw [expired]; decide)).trans ((if_neg (by rw [here]; decide)).trans (if_neg ?_))
  cases waits : (s.qp q).timerAt with
  | none => exact Bool.false_ne_true
  | some n => simpa using reached n waits

/-! ### The end of a queue pair -/

theorem State.qpFail_drain (drains : (s.qp q).st = .drain) (cause : Nat) : s.qpFail q cause = s.qpWant q (.err cause) := by
  have now : (s.qp q).stNow = .drain := (if_neg fun h => by rw [drains] at h; cases h.1).trans drains
  exact if_pos (.inr now)

/-- A QP that MODE `mode` of QP_DESTROY leaves as it is. -/
def QpSt.barsDestroy (st : QpSt) (mode : Nat) : Bool := !(st != .timewait && !(mode == 0 && (st == .drain || st == .disc || st == .err)))

theorem QpSt.barsDestroy_iff {st : QpSt} {mode : Nat} :
    st.barsDestroy mode = true ↔ st = .timewait ∨ (mode = 0 ∧ (st = .drain ∨ st = .disc ∨ st = .err)) := by
  cases st <;> simp [QpSt.barsDestroy]

/-- The field check of QP_DESTROY. -/
def Desc.destroyFields (d : Desc) : Bool :=
  d.handle == 0 && d.reservedZero [(8, 4), (12, 1)] && decide (d.f 8 4 < 16777216) && decide (d.f 12 1 ≤ 1)

theorem qpDestroy_fields (bad : d.destroyFields = false) (s : State) : qpDestroy d s = s.done d St.GEN_FIELD := by
  have first := bad
  unfold Desc.destroyFields at first
  simp only [qpDestroy, State.checked, firstFail, first, Bool.false_eq_true, if_false]

theorem qpDestroy_unknown (good : d.destroyFields = true) (unknown : s.qpOf (d.f 8 4) ≠ some (d.f 8 4 % 1048576)) :
    qpDestroy d s = s.done d St.RDM_NO_QP := by
  have first := good
  unfold Desc.destroyFields at first
  simp only [qpDestroy, State.checked, firstFail, first, beq_eq_false_iff_ne.mpr unknown, Bool.false_eq_true, if_false, if_true]

theorem qpDestroy_barred (good : d.destroyFields = true) (known : s.qpOf (d.f 8 4) = some (d.f 8 4 % 1048576))
    (barred : (s.qp (d.f 8 4 % 1048576)).st.barsDestroy (d.f 12 1) = true) : qpDestroy d s = s.done d St.RDM_QP_STATE := by
  have first := good
  have last := barred
  unfold Desc.destroyFields at first
  rw [QpSt.barsDestroy, Bool.not_eq_true'] at last
  simp only [qpDestroy, State.checked, firstFail, first, known, last, beq_self_eq_true, Bool.false_eq_true, if_false, if_true]

theorem qpDestroy_ok (good : d.destroyFields = true) (known : s.qpOf (d.f 8 4) = some (d.f 8 4 % 1048576))
    (free : (s.qp (d.f 8 4 % 1048576)).st.barsDestroy (d.f 12 1) = false) :
    qpDestroy d s = (s.updQp (d.f 8 4 % 1048576) fun x => { x with destroy := some d }).qpEnd (d.f 8 4 % 1048576) (d.f 12 1) := by
  have first := good
  have last := free
  unfold Desc.destroyFields at first
  rw [QpSt.barsDestroy, Bool.not_eq_false'] at last
  simp only [qpDestroy, State.checked, firstFail, first, known, last, beq_self_eq_true, if_true]

/-- Settles O37: what releases a packet, what a fetch lets go on, the deadlines, and the end of a queue pair. -/
theorem transmissionsAndQueuePairEnds : Obligations.TransmissionsAndQueuePairEnds := by
  unfold Obligations.TransmissionsAndQueuePairEnds
  refine ⟨?_, ?_, ?_, ?_⟩
  · intro s q cycle
    refine ⟨fun waits => ?_, fun noHold => ⟨fun go => ?_, fun again => ?_, fun fetch here => ?_, fun fetch away => ?_⟩, fun g n noHold fetch grant due => ?_, fun none => ?_,
      fun none => ⟨fun waits => ?_, fun idle => ?_⟩, fun none => ⟨fun n here waits reached => ?_, fun idle => ?_⟩⟩
    · refine congrArg Host.Outcome.next ?_
      by_cases holds : s.joinHold = true
      · exact if_pos holds
      · refine (if_neg holds).trans ?_
        rcases waits with hold | idle | pace | limit | cells
        · exact absurd hold holds
        · rw [idle]
        · rw [pace]
        · rw [limit]
        · rw [cells]
    · refine congrArg Host.Outcome.next ((if_neg (Bool.eq_false_iff.mp noHold)).trans ?_)
      rw [go]
    · refine congrArg Host.Outcome.next ((if_neg (Bool.eq_false_iff.mp noHold)).trans ?_)
      rw [again]
    · refine congrArg Host.Outcome.next ((if_neg (Bool.eq_false_iff.mp noHold)).trans ?_)
      rw [fetch]
      exact if_pos here
    · refine congrArg Host.Outcome.next ((if_neg (Bool.eq_false_iff.mp noHold)).trans ?_)
      rw [fetch]
      exact if_neg (Bool.eq_false_iff.mp away)
    · exact ⟨fun kind => congrArg Host.Outcome.next (if_pos (State.fetchDue_of noHold fetch kind grant due)),
        fun kind => congrArg Host.Outcome.next (if_pos (State.fetchDue_of noHold fetch kind grant due)),
        fun kind => congrArg Host.Outcome.next (if_pos (State.fetchDue_of noHold fetch kind grant due))⟩
    · exact congrArg Host.Outcome.next (if_neg (Bool.eq_false_iff.mp none))
    · exact congrArg Host.Outcome.next ((if_neg (Bool.eq_false_iff.mp none)).trans (if_pos waits))
    · exact congrArg Host.Outcome.next ((if_neg (Bool.eq_false_iff.mp none)).trans (if_neg (Bool.eq_false_iff.mp idle)))
    · refine congrArg Host.Outcome.next ((if_neg (Bool.eq_false_iff.mp none)).trans (if_pos ?_))
      simp [here, waits, reached]
    · refine congrArg Host.Outcome.next ((if_neg (Bool.eq_false_iff.mp none)).trans (if_neg ?_))
      rcases idle with away | noTimer
      · simp [away]
      · simp [noTimer]
  · intro s q
    refine ⟨fun none => ?_, fun none => ?_, fun due away => ?_, fun due away => ?_, fun n here waits early => ⟨?_, ?_⟩, fun here reached => ⟨fun due => ?_, fun due => ?_⟩⟩
    · exact congrArg Host.Outcome.next (State.deadline_none none _)
    · exact congrArg Host.Outcome.next (State.deadline_none none _)
    · exact congrArg Host.Outcome.next (State.deadline_away due away _)
    · exact congrArg Host.Outcome.next (State.deadline_away due away _)
    · exact congrArg Host.Outcome.next (State.deadline_later here waits early _ _)
    · exact congrArg Host.Outcome.next (State.deadline_later here waits early _ _)
    · intro u free v
      have runs : exec (.ackTimeout q) s = .next (s.ackExpired q) := congrArg Host.Outcome.next (State.deadline_now due here reached _)
      rw [runs]
      refine ⟨fun spent charged => ?_, fun left charged => ?_, fun takenOver => ?_⟩
      · exact congrArg Host.Outcome.next (if_pos ⟨spent, Bool.eq_false_iff.mp charged⟩)
      · refine congrArg Host.Outcome.next ((if_neg fun h => Nat.pos_iff_ne_zero.mp left h.1).trans ?_)
        show ((v.setQp q { u.qp q with retryLeft := if free then (u.qp q).retryLeft else (u.qp q).retryLeft - 1 }).resendFrom q (u.qp q).unaPsn).setDeadline q = _
        rw [charged, if_neg Bool.false_ne_true]
      · refine congrArg Host.Outcome.next ((if_neg fun h => h.2 takenOver).trans ?_)
        show ((v.setQp q { u.qp q with retryLeft := if free then (u.qp q).retryLeft else (u.qp q).retryLeft - 1 }).resendFrom q (u.qp q).unaPsn).setDeadline q = _
        rw [takenOver, if_pos rfl]
    · exact congrArg Host.Outcome.next (State.deadline_now due here reached _)
  · intro s q
    refine ⟨fun drains noWb noHeld noTx => ?_, fun busy => ?_, fun drains late => ?_, fun early => ?_, fun dead noWb => ?_, fun busy => ?_, fun waits ended => ?_, fun early => ?_⟩ <;>
      refine congrArg Host.Outcome.next ?_
    · exact if_pos ⟨drains, List.isEmpty_iff.mpr noWb, List.isEmpty_iff.mpr noHeld, List.isEmpty_iff.mpr noTx⟩
    · refine if_neg fun ⟨drains, noWb, noHeld, noTx⟩ => ?_
      rcases busy with other | wb | held | tx
      · exact other drains
      · exact wb (List.isEmpty_iff.mp noWb)
      · exact held (List.isEmpty_iff.mp noHeld)
      · exact tx (List.isEmpty_iff.mp noTx)
    · exact (if_pos ⟨drains, late⟩).trans (State.qpFail_drain drains _)
    · exact if_neg fun h => early.elim (· h.1) (Nat.not_lt.mpr h.2)
    · exact if_pos ⟨dead, List.isEmpty_iff.mpr noWb⟩
    · exact if_neg fun h => busy.elim (· h.1) (· (List.isEmpty_iff.mp h.2))
    · exact if_pos ⟨waits, ended⟩
    · exact if_neg fun h => early.elim (· h.1) (Nat.not_lt.mpr h.2)
  · intro s u d q takes hu hq fields x ends
    subst hu
    subst hq
    have runs : exec .qpDestroy s = .next ((qpDestroy d (s.start d)).replicate (.command d.toBytes true [])) :=
      congrArg Host.Outcome.next (State.ringCmd_repeated takes (by decide) _)
    refine ⟨fun bad => ?_, fun good unknown => ?_, fun good known barred => ?_, fun good known notTimewait free => ?_⟩
    · rw [qpDestroy_fields bad] at runs
      exact runs
    · rw [qpDestroy_unknown good unknown] at runs
      exact runs
    · rw [qpDestroy_barred good known (QpSt.barsDestroy_iff.mpr barred)] at runs
      exact runs
    · intro v y
      have allowed : x.st.barsDestroy (d.f 12 1) = false := by
        rw [Bool.eq_false_iff, Ne, QpSt.barsDestroy_iff]
        rintro (timewait | ⟨mode, ending⟩)
        · exact notTimewait timewait
        · rcases free with hard | ⟨notDrain, notDisc, notErr⟩
          · omega
          · exact ending.elim notDrain fun h => h.elim notDisc notErr
      rw [qpDestroy_ok good known allowed] at runs
      refine ⟨fun rtr => ?_, fun mode rts => ?_, fun mode ending => ?_, fun notRtr notRts other => ?_⟩
      · rw [State.qpEnd, if_pos rtr] at runs
        exact runs
      · have notRtr : ¬y.stNow = .rtr := fun rtr => by cases rts.symm.trans rtr
        rw [State.qpEnd, if_neg notRtr, if_neg (by omega), if_pos rts] at runs
        exact runs
      · have notRtr : ¬y.stNow = .rtr := fun rtr => ending.elim (fun rts => by cases rts.symm.trans rtr) (·.1 rtr)
        rw [State.qpEnd, if_neg notRtr, if_pos mode, if_pos (ending.imp id (·.2))] at runs
        exact runs
      · rw [State.qpEnd, if_neg notRtr] at runs
        by_cases hard : d.f 12 1 = 1
        · have still : ¬(y.stNow = .rts ∨ y.st = .drain ∨ y.st = .disc) := by
            rintro (rts | ending)
            · exact notRts rts
            · rcases other with soft | ⟨notDrain, notDisc⟩
              · omega
              · exact ending.elim notDrain notDisc
          rw [if_pos hard, if_neg still] at runs
          exact runs
        · rw [if_neg hard, if_neg notRts] at runs
          exact runs

end Sys2Proof.Machine

/-! ## Connection management (05 R144 to R147, 15 R449, Table 5-3) -/

namespace Sys2Proof.Machine

open Sys2Proof

variable {s u t : State} {q : Nat} {r : CmReq} {f : Frame}

theorem State.withCm_none (nothing : s.fwRuns = false ∨ s.isStandby = true ∨ s.rdm.cm = []) (rep : Replica) (k : Frame → State → State) :
    s.withCm rep k = s := by
  refine if_neg ?_
  rcases nothing with stopped | standby | none
  · simp [stopped]
  · simp [standby]
  · simp [none]

theorem State.withCm_first {rest : List Frame} (runs : s.fwRuns = true) (own : s.isStandby = false) (first : s.rdm.cm = f :: rest) (rep : Replica)
    (k : Frame → State → State) : s.withCm rep k = (k f { s with rdm := { s.rdm with cm := rest } }).replicate rep := by
  refine (if_pos (by simp [runs, own, first])).trans ?_
  rw [State.takeCm, first]

/-! ### A REQ, by the first check that fails -/

/-- The QP of the peer that has sent the REQ. -/
def State.isPeer (s : State) (r : CmReq) (f : Frame) (q : Nat) : Bool := (s.qp q).rip == (parseHdr f.bytes).srcIp && (s.qp q).rqpn == r.remoteQpn

/-- A QP in RTR or on its way there. -/
def State.opening (s : State) (q : Nat) : Bool := (s.qp q).st == .rtr || (s.qp q).next == .rtr

theorem State.cmReq_service (other : r.serviceId ≠ s.serviceId) : s.cmReq r f = s.cmReject f r.remoteQpn 1 .invalidServiceId 0 := if_pos other

theorem State.cmReq_transport (service : r.serviceId = s.serviceId) (other : r.rc = false) : s.cmReq r f = s.cmReject f r.remoteQpn 2 .consumerReject 0 :=
  (if_neg (· service)).trans (if_pos (by rw [other]; rfl))

theorem State.cmReq_noEntry (service : r.serviceId = s.serviceId) (rc : r.rc = true)
    (none : s.matchEntry f.m (parseHdr f.bytes).vlan (parseHdr f.bytes).dstIp = none) : s.cmReq r f = s.cmReject f r.remoteQpn 3 .invalidGid 0 := by
  refine (if_neg (· service)).trans ((if_neg (by rw [rc]; decide)).trans ?_)
  rw [none]

theorem State.cmReq_stale {e : Nat} (service : r.serviceId = s.serviceId) (rc : r.rc = true)
    (entry : s.matchEntry f.m (parseHdr f.bytes).vlan (parseHdr f.bytes).dstIp = some e)
    (stale : s.liveQps.any (fun q => s.isPeer r f q && ((s.qp q).st == .rts || (s.qp q).st == .drain || (s.qp q).st == .disc)) = true) :
    s.cmReq r f = s.cmReject f r.remoteQpn 4 .staleConnection 0 := by
  refine (if_neg (· service)).trans ((if_neg (by rw [rc]; decide)).trans ?_)
  rw [entry]
  exact if_pos stale

/-- A REQ that passes checks 1 to 4, of a QP that is already in RTR. -/
theorem State.cmReq_twin {e : Nat} (service : r.serviceId = s.serviceId) (rc : r.rc = true)
    (entry : s.matchEntry f.m (parseHdr f.bytes).vlan (parseHdr f.bytes).dstIp = some e)
    (fresh : s.liveQps.any (fun q => s.isPeer r f q && ((s.qp q).st == .rts || (s.qp q).st == .drain || (s.qp q).st == .disc)) = false)
    (twin : s.knownQps.find? (fun q => s.isPeer r f q && s.opening q) = some q) :
    s.cmReq r f = if (s.qp q).st = .rtr then s.cmSend q (.rep (s.qpn q) (s.qp q).unaPsn (s.qp q).ord (s.qp q).ird ((s.qp q).depth - 1)) else s := by
  refine (if_neg (· service)).trans ((if_neg (by rw [rc]; decide)).trans ?_)
  rw [entry]
  refine (if_neg (Bool.eq_false_iff.mp fresh)).trans ?_
  split
  · rename_i found
    cases Option.some.inj (found.symm.trans twin)
    rfl
  · rename_i none
    cases none.symm.trans twin

/-- Checks 5 to 9 of Table 5-3, which a REQ of a new QP meets. -/
def State.newReq (s : State) (r : CmReq) (f : Frame) (e : Nat) : State :=
  if r.recfmt ≠ 0 then s.cmReject f r.remoteQpn 5 .consumerReject cmInvalidRecfmt
  else match s.reqLimits r with
    | some st => s.cmReject f r.remoteQpn 6 .consumerReject st
    | none =>
      if (r.pmtu < 3 ∨ 5 < r.pmtu) ∨ s.maxFrame f.m < 128 * 2 ^ r.pmtu + 102 ∨ r.respRes = 0 then s.cmReject f r.remoteQpn 7 .consumerReject 0
      else if s.fld1 Reg.RDM_CM_CFG Fd.RDM_CM_CFG_MAX_PENDING ≤ (s.knownQps.filter s.opening).length then
        s.cmReject f r.remoteQpn 8 .noResources 0
      else match s.nextQp with
        | none => s.cmReject f r.remoteQpn 9 .noQpAvailable 0
        | some q => s.buildQp r f q e

theorem State.cmReq_new {e : Nat} (service : r.serviceId = s.serviceId) (rc : r.rc = true)
    (entry : s.matchEntry f.m (parseHdr f.bytes).vlan (parseHdr f.bytes).dstIp = some e)
    (fresh : s.liveQps.any (fun q => s.isPeer r f q && ((s.qp q).st == .rts || (s.qp q).st == .drain || (s.qp q).st == .disc)) = false)
    (noTwin : s.knownQps.find? (fun q => s.isPeer r f q && s.opening q) = none) : s.cmReq r f = s.newReq r f e := by
  refine (if_neg (· service)).trans ((if_neg (by rw [rc]; decide)).trans ?_)
  rw [entry]
  refine (if_neg (Bool.eq_false_iff.mp fresh)).trans ?_
  split
  · rename_i found
    cases found.symm.trans noTwin
  · rfl

section
variable {e : Nat}

theorem State.newReq_format (other : r.recfmt ≠ 0) : s.newReq r f e = s.cmReject f r.remoteQpn 5 .consumerReject cmInvalidRecfmt := if_pos other

theorem State.newReq_limits {st : Nat} (format : r.recfmt = 0) (limit : s.reqLimits r = some st) :
    s.newReq r f e = s.cmReject f r.remoteQpn 6 .consumerReject st := by
  rw [State.newReq, limit]
  exact if_neg (· format)

theorem State.newReq_path (format : r.recfmt = 0) (limits : s.reqLimits r = none)
    (bad : ¬(3 ≤ r.pmtu ∧ r.pmtu ≤ 5 ∧ 128 * 2 ^ r.pmtu + 102 ≤ s.maxFrame f.m ∧ r.respRes ≠ 0)) :
    s.newReq r f e = s.cmReject f r.remoteQpn 7 .consumerReject 0 := by
  rw [State.newReq, limits]
  exact (if_neg (· format)).trans (if_pos (by omega))

theorem State.newReq_pending (format : r.recfmt = 0) (limits : s.reqLimits r = none)
    (path : 3 ≤ r.pmtu ∧ r.pmtu ≤ 5 ∧ 128 * 2 ^ r.pmtu + 102 ≤ s.maxFrame f.m ∧ r.respRes ≠ 0)
    (full : s.fld1 Reg.RDM_CM_CFG Fd.RDM_CM_CFG_MAX_PENDING ≤ (s.knownQps.filter s.opening).length) :
    s.newReq r f e = s.cmReject f r.remoteQpn 8 .noResources 0 := by
  rw [State.newReq, limits]
  exact (if_neg (· format)).trans ((if_neg (by omega)).trans (if_pos full))

theorem State.newReq_noQp (format : r.recfmt = 0) (limits : s.reqLimits r = none)
    (path : 3 ≤ r.pmtu ∧ r.pmtu ≤ 5 ∧ 128 * 2 ^ r.pmtu + 102 ≤ s.maxFrame f.m ∧ r.respRes ≠ 0)
    (room : (s.knownQps.filter s.opening).length < s.fld1 Reg.RDM_CM_CFG Fd.RDM_CM_CFG_MAX_PENDING) (none : s.nextQp = none) :
    s.newReq r f e = s.cmReject f r.remoteQpn 9 .noQpAvailable 0 := by
  rw [State.newReq, limits, none]
  exact (if_neg (· format)).trans ((if_neg (by omega)).trans (if_neg (Nat.not_le.mpr room)))

theorem State.newReq_builds (format : r.recfmt = 0) (limits : s.reqLimits r = none)
    (path : 3 ≤ r.pmtu ∧ r.pmtu ≤ 5 ∧ 128 * 2 ^ r.pmtu + 102 ≤ s.maxFrame f.m ∧ r.respRes ≠ 0)
    (room : (s.knownQps.filter s.opening).length < s.fld1 Reg.RDM_CM_CFG Fd.RDM_CM_CFG_MAX_PENDING) (free : s.nextQp = some q) :
    s.newReq r f e = s.buildQp r f q e := by
  rw [State.newReq, limits, free]
  exact (if_neg (· format)).trans ((if_neg (by omega)).trans (if_neg (Nat.not_le.mpr room)))

end

/-! ### RTU, DREQ and DREP, and repeats -/

/-- The states in which a DREQ is answered by a DREP. -/
theorem State.dreqIn_answered (answers : (s.qp q).st = .rts ∨ (s.qp q).st = .drain ∨ (s.qp q).st = .disc ∨ (s.qp q).st = .err ∨ (s.qp q).st = .timewait) :
    let drep := s.cmSend q (.drep (s.qpn q))
    s.dreqIn q = if (s.qp q).stNow = .rts ∨ (s.qp q).stNow = .drain then (drep.updQp q fun x => { x with dreqCause := true }).qpFail q 0x0A
      else if (s.qp q).st = .disc then drep.qpWant q .timewait else drep := by
  intro drep
  unfold State.dreqIn
  simp only [if_pos answers]
  rfl

theorem State.dreqIn_silent (silent : (s.qp q).st = .free ∨ (s.qp q).st = .rtr) :
    s.dreqIn q = if (s.qp q).stNow = .rts ∨ (s.qp q).stNow = .drain then (s.updQp q fun x => { x with dreqCause := true }).qpFail q 0x0A else s := by
  have noAnswer : ¬((s.qp q).st = .rts ∨ (s.qp q).st = .drain ∨ (s.qp q).st = .disc ∨ (s.qp q).st = .err ∨ (s.qp q).st = .timewait) := by
    rcases silent with st | st <;> rw [st] <;> decide
  have notDisc : (s.qp q).st ≠ .disc := by
    rcases silent with st | st <;> rw [st] <;> decide
  unfold State.dreqIn
  simp only [if_neg noAnswer, if_neg notDisc]

theorem Qp.stNow_of_ne {x : Qp} (h : x.st ≠ .rtr ∨ x.next ≠ .rts) : x.stNow = x.st := if_neg fun g => h.elim (· g.1) (· g.2)

/-- Settles O38: a REQ by its checks, the other packets by the QP's state, and the repeats. -/
theorem connectionsAreManaged : Obligations.ConnectionsAreManaged := by
  unfold Obligations.ConnectionsAreManaged
  refine ⟨?_, ?_, ?_, ?_⟩
  · intro s r q nothing
    exact ⟨congrArg Host.Outcome.next (State.withCm_none nothing _ _), congrArg Host.Outcome.next (State.withCm_none nothing _ _),
      congrArg Host.Outcome.next (State.withCm_none nothing _ _), congrArg Host.Outcome.next (State.withCm_none nothing _ _)⟩
  · intro s u f rest runs own first hu
    subst hu
    refine ⟨?_, ?_⟩
    · intro r h ends rejects peer opens path pending most
      have req : exec (.cmReq r) s = .next (({ s with rdm := { s.rdm with cm := rest } }.cmReq r f).replicate (.cmReq r)) :=
        congrArg Host.Outcome.next (State.withCm_first runs own first _ _)
      refine ⟨fun other => ?_, fun service => ⟨fun other => ?_, fun rc none => ?_, fun e rc entry => ?_⟩⟩
      · rw [State.cmReq_service other] at req
        exact req
      · rw [State.cmReq_transport service other] at req
        exact req
      · rw [State.cmReq_noEntry service rc none] at req
        exact req
      · intro stale twin
        refine ⟨fun ⟨q, live, old⟩ => ?_, fun fresh => ?_⟩
        · rw [State.cmReq_stale service rc entry (List.any_eq_true.mpr ⟨q, live, old⟩)] at req
          exact req
        · have noStale : ({ s with rdm := { s.rdm with cm := rest } } : State).liveQps.any stale = false := by
            rw [List.any_eq_false]
            exact fun q live old => Bool.false_ne_true ((fresh q live).symm.trans old)
          refine ⟨fun q found rtr => ?_, fun q found coming => ?_, fun noTwin => ?_⟩
          · rw [State.cmReq_twin service rc entry noStale found, if_pos rtr] at req
            exact req
          · rw [State.cmReq_twin service rc entry noStale found, if_neg coming] at req
            exact req
          · rw [State.cmReq_new service rc entry noStale noTwin] at req
            refine ⟨fun format => ?_, fun st format limit => ?_, fun format limits => ⟨fun bad => ?_, fun good full => ?_, fun good room none => ?_, fun q good room free => ?_⟩⟩
            · rw [State.newReq_format format] at req
              exact req
            · rw [State.newReq_limits format limit] at req
              exact req
            · rw [State.newReq_path format limits bad] at req
              exact req
            · rw [State.newReq_pending format limits good full] at req
              exact req
            · rw [State.newReq_noQp format limits good room none] at req
              exact req
            · rw [State.newReq_builds format limits good room free] at req
              exact req
    · intro q x drep
      have rtu : exec (.cmRtu q) s = .next (({ s with rdm := { s.rdm with cm := rest } }.rtuIn q).replicate (.cmRtu q)) :=
        congrArg Host.Outcome.next (State.withCm_first runs own first _ _)
      have dreq : exec (.cmDreq q) s = .next (({ s with rdm := { s.rdm with cm := rest } }.dreqIn q).replicate (.cmDreq q)) :=
        congrArg Host.Outcome.next (State.withCm_first runs own first _ _)
      have drepIn : exec (.cmDrep q) s = .next (({ s with rdm := { s.rdm with cm := rest } }.drepIn q).replicate (.cmDrep q)) :=
        congrArg Host.Outcome.next (State.withCm_first runs own first _ _)
      refine ⟨fun rtr => ?_, fun other => ?_, fun disc => ⟨?_, ?_⟩, fun other => ?_, fun live => ?_, fun rtr waits => ?_, fun ending => ?_, fun silent => ?_⟩
      · rw [State.rtuIn, if_pos rtr] at rtu
        exact rtu
      · rw [State.rtuIn, if_neg other] at rtu
        exact rtu
      · have now : x.stNow = .disc := (Qp.stNow_of_ne (.inl (by rw [disc]; decide))).trans disc
        have ended : ¬(x.stNow = .rts ∨ x.stNow = .drain) := by rw [now]; decide
        rw [State.dreqIn_answered (.inr (.inr (.inl disc))), if_neg ended, if_pos disc] at dreq
        exact dreq
      · rw [State.drepIn, if_pos disc] at drepIn
        exact drepIn
      · rw [State.drepIn, if_neg other] at drepIn
        exact drepIn
      · have now : x.stNow = x.st := Qp.stNow_of_ne (.inl (by rcases live with st | st <;> rw [st] <;> decide))
        rw [State.dreqIn_answered (live.imp id .inl), if_pos (now.symm ▸ live)] at dreq
        exact dreq
      · have now : x.stNow = .rts := if_pos ⟨rtr, waits⟩
        rw [State.dreqIn_silent (.inr rtr), if_pos (.inl now)] at dreq
        exact dreq
      · have now : x.stNow = x.st := Qp.stNow_of_ne (.inl (by rcases ending with st | st <;> rw [st] <;> decide))
        have ended : ¬(x.stNow = .rts ∨ x.stNow = .drain) := by
          rw [now]
          rcases ending with st | st <;> rw [st] <;> decide
        have notDisc : ¬x.st = .disc := by rcases ending with st | st <;> rw [st] <;> decide
        rw [State.dreqIn_answered (.inr (.inr (.inr ending))), if_neg ended, if_neg notDisc] at dreq
        exact dreq
      · have now : x.stNow = x.st := Qp.stNow_of_ne (silent.imp (fun st => by rw [st]; decide) (·.2))
        have ended : ¬(x.stNow = .rts ∨ x.stNow = .drain) := by
          rw [now]
          rcases silent with st | ⟨st, _⟩ <;> rw [st] <;> decide
        rw [State.dreqIn_silent (silent.imp id (·.1)), if_neg ended] at dreq
        exact dreq
  · intro s m e rmac rip n msg
    exact ⟨fun net => if_pos net, fun off => if_neg (Bool.eq_false_iff.mp off)⟩
  · intro s q
    refine ⟨fun settled due => ⟨fun rtr => ⟨fun some => ?_, fun last => ?_⟩, fun disc => ⟨fun some => ?_, fun last => ?_⟩⟩, fun waits => ?_, fun waits => ?_⟩ <;>
      refine congrArg Host.Outcome.next ?_
    · exact (if_neg fun h => h.elim (· rtr) fun h => h.elim (Nat.not_lt.mpr due) (· settled)).trans (if_pos some)
    · exact (if_neg fun h => h.elim (· rtr) fun h => h.elim (Nat.not_lt.mpr due) (· settled)).trans (if_neg (Nat.not_lt.mpr last))
    · exact (if_neg fun h => h.elim (· disc) fun h => h.elim (Nat.not_lt.mpr due) (· settled)).trans (if_pos some)
    · exact (if_neg fun h => h.elim (· disc) fun h => h.elim (Nat.not_lt.mpr due) (· settled)).trans (if_neg (Nat.not_lt.mpr last))
    · refine if_pos ?_
      rcases waits with changing | early | other
      · exact .inr (.inr changing)
      · exact .inr (.inl early)
      · exact .inl other
    · refine if_pos ?_
      rcases waits with changing | early | other
      · exact .inr (.inr changing)
      · exact .inr (.inl early)
      · exact .inl other

end Sys2Proof.Machine

/-! ## From capsule to waybill: admission, range locks, retirement and Abort (08 R231 to R260) -/

namespace Sys2Proof.Machine

open Sys2Proof

variable {s u : State} {k : Fin 12} {c : Fin 256} {it : Item} {w : Nat}

/-! ### Runs that find nothing to do -/

theorem State.run_none {code : Nat} (idle : s.nextRun k c code = none) (body : Item → State → State) : s.run k c code body = s := by
  unfold State.run
  rw [idle]

theorem State.onWb_free (ref : it.ref = .wb w) (free : (s.wb w).st = .free) (body : Nat → Waybill → State → State) : s.onWb it body = s.endItem it := by
  unfold State.onWb
  rw [ref]
  exact if_pos free

theorem State.onWb_stopped (ref : it.ref = .wb w) (taken : (s.wb w).st ≠ .free) (stopped : (s.wb w).cut = true ∨ (s.wb w).st = .abandoned)
    (body : Nat → Waybill → State → State) : s.onWb it body = s.cutOff it w := by
  unfold State.onWb
  rw [ref]
  exact (if_neg taken).trans (if_pos (by simpa using stopped))

/-- A routine whose work on a waybill goes through `onWb` leaves a FREE one and cuts off one that must not go on. -/
theorem State.run_stops {code : Nat} {routine : Item → State → State} {body : Nat → Waybill → State → State} {o : Host.Outcome State Fault Refusal}
    (E : s.Enters k c code u it) (ref : it.ref = .wb w) (runs : o = .next (s.run k c code routine)) (byWb : routine it u = u.onWb it body) :
    ((u.wb w).st = .free → o = .next (u.endItem it))
    ∧ ((u.wb w).st ≠ .free → (u.wb w).cut = true ∨ (u.wb w).st = .abandoned → o = .next (u.cutOff it w)) := by
  have does : o = .next (u.onWb it body) := runs.trans (congrArg Host.Outcome.next ((State.run_enters E _).trans byWb))
  exact ⟨fun free => does.trans (congrArg Host.Outcome.next (State.onWb_free ref free _)),
    fun taken stopped => does.trans (congrArg Host.Outcome.next (State.onWb_stopped ref taken stopped _))⟩

theorem State.run_none_next {code : Nat} {body : Item → State → State} (idle : s.nextRun k c code = none) :
    (Host.Outcome.next (s.run k c code body) : Host.Outcome State Fault Refusal) = .next s :=
  congrArg Host.Outcome.next (State.run_none idle body)

/-- ADMIN_STEP takes a waybill through `onWb` too. -/
theorem State.adminStep_onWb (ref : it.ref = .wb w) : ∃ body, s.adminStep it = s.onWb it body := by
  unfold State.adminStep
  rw [ref]
  exact ⟨_, rfl⟩

/-! ### Capsules -/

theorem State.rxParse_absent {id : Nat} (ref : it.ref = .cap id) (absent : s.cap? id = none) : s.rxParse it = s.endItem it := by
  simp only [State.rxParse, ref, absent]

theorem State.rxParse_orphan {id : Nat} {cap : Capsule} (ref : it.ref = .cap id) (here : s.cap? id = some cap) (orphan : s.qpOf cap.qpn = none) :
    s.rxParse it = ((s.endItem it).freeAll cap.cells).dropCap id := by
  simp only [State.rxParse, ref, here, orphan]

theorem State.rxParse_passed {id q : Nat} {cap : Capsule} (ref : it.ref = .cap id) (here : s.cap? id = some cap) (qp : s.qpOf cap.qpn = some q)
    (passed : s.parseRows q cap = none) : s.rxParse it = s.advance it Rt.cmdAdmit 1 .none s.now := by
  simp only [State.rxParse, ref, here, qp, passed]

theorem State.rxParse_answered {id q : Nat} {cap : Capsule} {a : Answer} (ref : it.ref = .cap id) (here : s.cap? id = some cap)
    (qp : s.qpOf cap.qpn = some q) (answered : s.parseRows q cap = some a) : s.rxParse it = s.shortAnswer it cap a := by
  simp only [State.rxParse, ref, here, qp, answered]

/-- What CMD_ADMIT makes of the row that decides a capsule. -/
def State.admitBy (s : State) (it : Item) (q : Nat) (cap : Capsule) : Admit → State
  | .answer a => s.shortAnswer it cap a
  | .suspend => s.advance it Rt.suspendResp 1 .none s.now
  | .pass => if isRw (s.qp q).qid cap.sqe && sqeOp cap.sqe != 0x02 && s.behind cap then s.stay it 9 true else s.admitCap it q cap
  | .wait n => s.stay it n (n != 2)

theorem State.cmdAdmit_cap {id q : Nat} {cap : Capsule} (ref : it.ref = .cap id) (here : s.cap? id = some cap) (qp : s.qpOf cap.qpn = some q) :
    s.cmdAdmit it = s.admitBy it q cap (s.admitRows q cap) := by
  simp only [State.cmdAdmit, ref, here, qp]
  cases s.admitRows q cap <;> rfl

theorem State.cmdAdmit_wb (ref : it.ref = .wb w) : s.cmdAdmit it = s.resumeWb it w := by
  simp only [State.cmdAdmit, ref]

theorem State.suspendResp_cap {id : Nat} {cap : Capsule} (ref : it.ref = .cap id) (here : s.cap? id = some cap) :
    s.suspendResp it = s.armAnswer it { cap with answer := some (Nv.notReady, 0) } := by
  simp only [State.suspendResp, ref, here]

/-- An answer of a command that is no Connect, on a channel that is not CLOSING, is sent, its cells are freed and the capsule is dropped. -/
theorem State.armAnswer_sent {q st dw : Nat} {cap : Capsule} (answer : cap.answer = some (st, dw)) (qp : ((s.cntCmd 0 1).endItem it).qpOf cap.qpn = some q)
    (command : isConnect cap.sqe = false) (live : ∀ i, cap.chan = some i → ∀ t : State, (t.chan i).st ≠ .closing) :
    s.armAnswer it cap = (((((s.cntCmd 0 1).endItem it).sendCqe q cap.chan noWb dw cap.cid (s.lastStatus cap st)).freeAll cap.cells).dropCap cap.id) := by
  simp only [State.armAnswer, qp, command, Bool.false_and, Bool.false_eq_true, if_false, answer, Option.getD_some]
  cases onChan : cap.chan with
  | none => rfl
  | some i => simp only [live i onChan, false_and, if_false]

/-! ### Range locks and retirement -/

theorem State.lockCheck_free (R : s.RunsWb k c Rt.lockCheck u it w) (free : (u.wb w).locks = false) :
    u.lockCheck it = (u.updWb w fun y => { y with st := .locked }).advance it (u.wb w).afterLock 1 .none u.now := by
  unfold State.lockCheck
  rw [State.onWb_runs R]
  exact if_pos (by rw [free]; rfl)

theorem State.lockCheck_full (R : s.RunsWb k c Rt.lockCheck u it w) (locks : (u.wb w).locks = true) (full : 65536 ≤ Tab.lowest u.cmd.locks) :
    u.lockCheck it = u.stay it 4 false := by
  unfold State.lockCheck
  rw [State.onWb_runs R]
  exact (if_neg (by simp [locks])).trans (if_pos full)

/-- The lock entry of a waybill, before the conflicts are counted. -/
def State.lockOf (s : State) (w : Nat) : Lock :=
  { volume := (s.wb w).volume, state := 0, write := (s.wb w).write, ordered := (s.wb w).ordered, waybill := w, first := (s.wb w).slba
    last := (s.wb w).slba + (s.wb w).blocks - 1, seq := s.cmd.lockSeq, blockers := 0, chan := (s.wb w).chan % 262144, noRange := !(s.wb w).io }

/-- How many entries conflict with the entry of a waybill. -/
def State.blockersOf (s : State) (w : Nat) : Nat := (s.cmd.locks.filter fun (o : Nat × Lock) => (s.lockOf w).conflicts o.2).length

/-- The state with the entry of a waybill in the lowest free place. -/
def State.withLock (s : State) (w : Nat) : State :=
  let n := s.blockersOf w
  let v := s.setLock (Tab.lowest s.cmd.locks) { s.lockOf w with state := if n = 0 then 2 else 1, blockers := n }
  ({ v with cmd := { v.cmd with lockSeq := (v.cmd.lockSeq + 1) % 4294967296 } }).updWb w fun x =>
    { x with st := if n = 0 then .locked else .lockWait, lock := Tab.lowest s.cmd.locks, lockValid := true }

theorem State.lockCheck_entered (R : s.RunsWb k c Rt.lockCheck u it w) (locks : (u.wb w).locks = true) (room : Tab.lowest u.cmd.locks < 65536) :
    u.lockCheck it = if u.blockersOf w = 0 then ((u.withLock w).stamp w 2).advance it (u.wb w).afterLock 1 .none (u.withLock w).now
      else ((u.withLock w).cntCmd 7 1).advance it (u.wb w).afterLock 1 .event (u.withLock w).now := by
  unfold State.lockCheck
  rw [State.onWb_runs R]
  exact (if_neg (by simp [locks])).trans (if_neg (by omega))

/-- What CPL_RETIRE does on a waybill. -/
theorem State.cplRetire_wb (ref : it.ref = .wb w) : s.cplRetire it =
    if (s.wb w).st = .committed then s.freeWb w
    else if (s.wb w).st = .abandoned then
      (if !(s.refCmds it.ref).isEmpty then s.toReap it
       else if (s.wb w).filled ∧ s.now < (s.wb w).fillTick + 2 then s.later it
       else s.freeWb w)
    else s.endItem it := by
  unfold State.cplRetire
  rw [ref]

/-! ### Abort (R256 to R259) -/

/-- The end of an Abort: its status and DW0, with the answer in the next tick. -/
def State.abortDone (s : State) (it : Item) (w st dw : Nat) : State :=
  (s.updWb w fun x => { x with status := st, dw0 := dw }).advance it Rt.xferArm 1 .none (s.now + 1)

/-- The queue pairs of the Abort's controller that serve the queue it names. -/
def State.abortQps (s : State) (w : Nat) : List Nat :=
  Tab.keys (fun y => y.bound && y.ctrl == (s.qp ((s.qpOf (s.wb w).qpn).getD 0)).ctrl && y.qid == sqeDw (s.wb w).sqe 10 % 65536) s.rdm.qps

theorem State.abortScan_beyond (R : s.RunsWb k c Rt.abortScan u it w) (beyond : (u.wb w).beyond = true) :
    u.abortScan it = u.abortDone it w Nv.abortLimit 0 := by
  unfold State.abortScan
  rw [State.onWb_runs R]
  exact if_pos beyond

theorem State.abortScan_noQueue (R : s.RunsWb k c Rt.abortScan u it w) (within : (u.wb w).beyond = false) (noQueue : u.abortQps w = []) :
    u.abortScan it = (u.cntCmd 11 1).abortDone it w 0 1 := by
  have noHead : (u.abortQps w).head? = none := by rw [noQueue]; rfl
  unfold State.abortQps at noHead
  unfold State.abortScan
  rw [State.onWb_runs R]
  simp only [within, Bool.false_eq_true, if_false, noHead]
  rfl

section

variable {p : Nat} {ps : List Nat}

/-- The command not yet admitted that an Abort names. -/
def State.abortCap (s : State) (w p : Nat) : Option Capsule :=
  s.cmd.caps.find? fun e => e.qpn == s.qpn p && e.cid == sqeDw (s.wb w).sqe 10 / 65536 && e.counted

/-- The waybills of the command in flight that an Abort names. -/
def State.abortRuns (s : State) (w p : Nat) : List Nat :=
  s.wbsThat fun y => y.qpn == s.qpn p && y.cid == sqeDw (s.wb w).sqe 10 / 65536 && y.st != .committed && y.st != .abandoned && !isAbort y

theorem State.abortScan_cap {e : Capsule} (R : s.RunsWb k c Rt.abortScan u it w) (within : (u.wb w).beyond = false) (queue : u.abortQps w = p :: ps)
    (waits : u.abortCap w p = some e) : u.abortScan it = (u.updCap e.id fun e => { e with abort := true }).abortDone it w 0 0 := by
  have head : (u.abortQps w).head? = some p := by rw [queue]; rfl
  unfold State.abortQps at head
  unfold State.abortCap at waits
  unfold State.abortScan
  rw [State.onWb_runs R]
  simp only [within, Bool.false_eq_true, if_false, head, waits]
  rfl

theorem State.abortScan_wb {v : Nat} {vs : List Nat} (R : s.RunsWb k c Rt.abortScan u it w) (within : (u.wb w).beyond = false)
    (queue : u.abortQps w = p :: ps) (noCap : u.abortCap w p = none) (runs : u.abortRuns w p = v :: vs) :
    u.abortScan it = State.abortDone { u with cmd := { u.cmd with abortDue := u.cmd.abortDue ++ [v] } } it w 0 0 := by
  have head : (u.abortQps w).head? = some p := by rw [queue]; rfl
  have first : (u.abortRuns w p).head? = some v := by rw [runs]; rfl
  unfold State.abortQps at head
  unfold State.abortCap at noCap
  unfold State.abortRuns at first
  unfold State.abortScan
  rw [State.onWb_runs R]
  simp only [within, Bool.false_eq_true, if_false, head, noCap, first]
  rfl

/-- Whether a held Asynchronous Event Request is the one that an Abort names. -/
def State.abortsAer (s : State) (w p : Nat) (a : AerSlot) : Bool := a.qpn == s.qpn p && a.cid == sqeDw (s.wb w).sqe 10 / 65536

/-- The controller that an Abort is sent to. -/
def State.abortCtrl (s : State) (w : Nat) : Nat := (s.qp ((s.qpOf (s.wb w).qpn).getD 0)).ctrl

/-- The state in which the held request has been answered with Command Abort Requested. -/
def State.abortAer (s : State) (it : Item) (w p : Nat) : State :=
  let y := s.updCtrl (s.abortCtrl w) fun c => { c with aers := c.aers.filter fun a => !s.abortsAer w p a }
  let id := y.cmd.capSeq
  let cap : Capsule :=
    { id := id, qpn := s.qpn p, chan := y.chanOf (s.wb w).chan, cid := sqeDw (s.wb w).sqe 10 / 65536, sqe := zeros 64, icd := [], tick := y.now
      reject := false, abort := false, counted := true, answer := some (Nv.abortReq, 0), cells := [], cluster := it.cluster, cls := it.cls, dscp := 0
      pre := 0, deferred := false, wasDeferred := false, parked := false, stamp := 0 }
  let z : State := { y with cmd := { y.cmd with caps := y.cmd.caps ++ [cap], capSeq := id + 1 } }
  z.addItem { ref := .cap id, cluster := it.cluster, cls := it.cls, code := Rt.xferArm, leg := 1, wait := .none, ready := z.now + 1 }

theorem State.abortScan_aer (R : s.RunsWb k c Rt.abortScan u it w) (within : (u.wb w).beyond = false) (queue : u.abortQps w = p :: ps)
    (noCap : u.abortCap w p = none) (noRun : u.abortRuns w p = []) :
    u.abortScan it = if (u.ctrl (u.abortCtrl w)).aers.any (u.abortsAer w p) then (u.abortAer it w p).abortDone it w 0 0
      else (u.cntCmd 11 1).abortDone it w 0 1 := by
  have head : (u.abortQps w).head? = some p := by rw [queue]; rfl
  have noFirst : (u.abortRuns w p).head? = none := by rw [noRun]; rfl
  unfold State.abortQps at head
  unfold State.abortCap at noCap
  unfold State.abortRuns at noFirst
  unfold State.abortScan
  rw [State.onWb_runs R]
  simp only [within, Bool.false_eq_true, if_false, head, noCap, noFirst]
  rfl

end

/-- Settles O39: a run without an item changes nothing, one on a waybill that must not go on ends or cuts off its item, and each of the others is its
routine in the case of the state. -/
theorem capsulesLocksAndAborts : Obligations.CapsulesLocksAndAborts := by
  unfold Obligations.CapsulesLocksAndAborts
  refine ⟨⟨fun s k c => ?_, fun s u k c it w x ref hx => ?_⟩, ⟨fun s u k c it id E ref => ?_, fun s u k c it id q cap E ref here qp => ?_,
    fun s u k c it w E ref => ?_, fun s u k c it id cap E ref here => ?_⟩, fun s u k c it w x R hx => ?_, fun s u k c it w x E ref hx => ?_,
    fun s u k c it w x R hx => ?_⟩
  · intro idle
    exact ⟨State.run_none_next, State.run_none_next, State.run_none_next, State.run_none_next, State.run_none_next, State.run_none_next,
      State.run_none_next, State.run_none_next, State.run_none_next, State.run_none_next, State.run_none_next, State.run_none_next,
      State.run_none_next, State.run_none_next, State.run_none_next, State.run_none_next⟩
  · subst hx
    intro stops
    obtain ⟨_, adminStep⟩ := State.adminStep_onWb (s := u) ref
    exact ⟨fun E => State.run_stops E ref rfl rfl, fun E => State.run_stops E ref rfl rfl, fun E => State.run_stops E ref rfl rfl,
      fun E => State.run_stops E ref rfl rfl, fun E => State.run_stops E ref rfl rfl, fun E => State.run_stops E ref rfl rfl,
      fun E => State.run_stops E ref rfl adminStep⟩
  · have runs : exec (.rxParse k c) s = .next (u.rxParse it) := congrArg Host.Outcome.next (State.run_enters E _)
    refine ⟨fun absent => ?_, fun cap here => ⟨fun orphan => ?_, fun q qp => ⟨fun passed => ?_, fun a answered => ?_⟩⟩⟩
    · rw [runs, State.rxParse_absent ref absent]
    · rw [runs, State.rxParse_orphan ref here orphan]
    · rw [runs, State.rxParse_passed ref here qp passed]
    · exact runs.trans (congrArg Host.Outcome.next (State.rxParse_answered ref here qp answered))
  · have runs : exec (.cmdAdmit k c) s = .next (u.admitBy it q cap (u.admitRows q cap)) :=
      congrArg Host.Outcome.next ((State.run_enters E _).trans (State.cmdAdmit_cap ref here qp))
    refine ⟨fun row free => ?_, fun row write behind => ?_, fun n row => ?_, fun row => ?_, fun a row => ?_⟩
    · rw [runs, row]
      refine congrArg Host.Outcome.next (if_neg fun held => ?_)
      obtain ⟨write, behind⟩ := Bool.and_eq_true_iff.mp held
      rcases free with noWrite | notBehind
      · exact Bool.false_ne_true (noWrite.symm.trans write)
      · exact Bool.false_ne_true (notBehind.symm.trans behind)
    · rw [runs, row]
      exact congrArg Host.Outcome.next (if_pos (Bool.and_eq_true_iff.mpr ⟨write, behind⟩))
    · rw [runs, row]; rfl
    · rw [runs, row]; rfl
    · rw [runs, row]; rfl
  · exact congrArg Host.Outcome.next ((State.run_enters E _).trans (State.cmdAdmit_wb ref))
  · exact ⟨congrArg Host.Outcome.next ((State.run_enters E _).trans (State.suspendResp_cap ref here)),
      fun q qp command live => State.armAnswer_sent rfl qp command live⟩
  · subst hx
    have runs : exec (.lockCheck k c) s = .next (u.lockCheck it) := congrArg Host.Outcome.next (State.run_runs R _)
    refine ⟨fun free => ?_, fun locks full => ?_, fun locks room => ?_⟩
    · rw [runs, State.lockCheck_free R free]
    · rw [runs, State.lockCheck_full R locks full]
    · have entered := runs.trans (congrArg Host.Outcome.next (State.lockCheck_entered R locks room))
      exact ⟨fun n => entered.trans (congrArg Host.Outcome.next (if_pos n)),
        fun n => entered.trans (congrArg Host.Outcome.next (if_neg (Nat.pos_iff_ne_zero.mp n)))⟩
  · subst hx
    have runs : exec (.cplRetire k c) s = _ := congrArg Host.Outcome.next ((State.run_enters E _).trans (State.cplRetire_wb ref))
    refine ⟨fun committed => ?_, fun abandoned => ⟨fun cmds => ?_, fun cmds filled early => ?_, fun cmds passed => ?_⟩, fun notCommitted kept => ?_⟩
    · rw [runs, if_pos committed]
    all_goals rw [runs]
    · rw [if_neg (by rw [abandoned]; decide), if_pos abandoned, if_pos (notEmpty_of_ne_nil cmds)]
    · rw [if_neg (by rw [abandoned]; decide), if_pos abandoned, if_neg (not_notEmpty_of_eq_nil cmds), if_pos ⟨filled, early⟩]
    · rw [if_neg (by rw [abandoned]; decide), if_pos abandoned, if_neg (not_notEmpty_of_eq_nil cmds), if_neg]
      rintro ⟨filled, early⟩
      rcases passed with no | late
      · exact Bool.false_ne_true (no.symm.trans filled)
      · omega
    · rw [if_neg notCommitted, if_neg kept]
  · subst hx
    have runs : exec (.abortScan k c) s = .next (u.abortScan it) := congrArg Host.Outcome.next (State.run_runs R _)
    refine ⟨fun beyond => ?_, fun within noQueue => ?_, fun p ps within queue => ?_⟩
    · exact runs.trans (congrArg Host.Outcome.next (State.abortScan_beyond R beyond))
    · exact runs.trans (congrArg Host.Outcome.next (State.abortScan_noQueue R within noQueue))
    · refine ⟨fun e waits => ?_, fun noCap => ⟨fun v vs named => ?_, fun noRun noAer => ?_, fun noRun aer => ?_⟩⟩
      · exact runs.trans (congrArg Host.Outcome.next (State.abortScan_cap R within queue waits))
      · exact runs.trans (congrArg Host.Outcome.next (State.abortScan_wb R within queue noCap named))
      · exact runs.trans (congrArg Host.Outcome.next ((State.abortScan_aer R within queue noCap noRun).trans (if_neg (Bool.eq_false_iff.mp noAer))))
      · exact runs.trans (congrArg Host.Outcome.next ((State.abortScan_aer R within queue noCap noRun).trans (if_pos aer)))

end Sys2Proof.Machine

/-! ## The data path of a read: map, cache, member (08 Table 8-9) -/

namespace Sys2Proof.Machine

open Sys2Proof

/-- Settles O40: each leg of MAP_XLATE and CACHE_PROBE is its routine in the case of the leg, of the direction and of what the lines hold. -/
theorem readsFindTheirUnits : Obligations.ReadsFindTheirUnits := by
  unfold Obligations.ReadsFindTheirUnits
  intro s u k c it w x hx
  subst hx
  refine ⟨fun R => ?_, fun R => ?_⟩
  · have runs : exec (.mapXlate k c) s = .next (u.mapXlate it) := congrArg Host.Outcome.next (State.run_runs R _)
    unfold State.mapXlate at runs
    rw [State.onWb_runs R] at runs
    refine ⟨fun leg1 => ?_, fun leg2 => ?_⟩
    · rw [if_pos leg1] at runs
      exact ⟨fun read => runs.trans (congrArg Host.Outcome.next (if_neg (Bool.eq_false_iff.mp read))),
        fun write => runs.trans (congrArg Host.Outcome.next (if_pos write))⟩
    · rw [if_neg leg2] at runs
      exact ⟨fun write => runs.trans (congrArg Host.Outcome.next (if_pos write)),
        fun read => runs.trans (congrArg Host.Outcome.next (if_neg (Bool.eq_false_iff.mp read)))⟩
  · have runs : exec (.cacheProbe k c) s = .next (u.cacheProbe it) := congrArg Host.Outcome.next (State.run_runs R _)
    unfold State.cacheProbe at runs
    rw [State.onWb_runs R] at runs
    refine ⟨fun leg1 => runs.trans (congrArg Host.Outcome.next (if_pos leg1)), fun leg2 => ?_⟩
    rw [if_neg leg2] at runs
    refine ⟨fun all => ?_, fun missing => ?_⟩
    · refine runs.trans (congrArg Host.Outcome.next ?_)
      simp only [beq_iff_eq.mpr all, if_true]
    · refine runs.trans (congrArg Host.Outcome.next ?_)
      simp only [beq_eq_false_iff_ne.mpr missing, if_false, Bool.false_eq_true]

end Sys2Proof.Machine

/-! ## Protection checks, the cipher, cache writes, transfers and completions (08 R237, Table 8-9; 11 R340 to R345) -/

namespace Sys2Proof.Machine

open Sys2Proof

variable {s u : State} {k : Fin 12} {c : Fin 256} {it : Item} {w : Nat}

/-! ### The cipher -/

/-- An invocation is at most 128 KiB, the largest request that an array takes (R340). -/
theorem invocation_fits_array (x : Waybill) (f i : Nat) : ¬ arrayMax < (x.invRange f i).length * lbaData f := by
  have range : (x.invRange f i).length ≤ invBlocks f := by
    unfold Waybill.invRange
    rw [List.length_map, List.length_range]
    exact Nat.min_le_left _ _
  have whole : (x.invRange f i).length * lbaData f ≤ 131072 :=
    (Nat.mul_le_mul_right _ range).trans (Nat.div_mul_le_self _ _)
  exact Nat.not_lt.mpr whole

theorem State.cipherDone_none {k : Nat} (idle : s.nextCipher k = none) : s.cipherDone k = s := by
  unfold State.cipherDone
  rw [idle]

theorem State.cipherDone_work {k id : Nat} {r : CipReq} (next : s.nextCipher k = some r) (ref : r.ref = .work id) :
    let u := s.dropCipher r
    let v := match (u.work? id).map (·.kind) with
      | some (.init v) => u.countUnits (u.vol v) true ((u.pool (u.vol v).pool).d * unitBlocks (u.vol v).lbaf)
      | _ => u
    s.cipherDone k = v.wakeRef r.ref := by
  simp only [State.cipherDone, next, ref, Bool.false_eq_true, if_false] <;> rfl

/-- A standby's request of a read waits for the digests of its units. -/
theorem State.cipherDone_waits {k : Nat} {r : CipReq} (next : s.nextCipher k = some r) (ref : r.ref = .wb w) (read : (s.wb w).write = false)
    (waits : s.digsReady w r.inv = false) : s.cipherDone k = s := by
  simp only [State.cipherDone, next, ref, read, waits, Bool.not_false, Bool.and_self, if_true]

theorem State.cipherDone_wb {k : Nat} {r : CipReq} (next : s.nextCipher k = some r) (ref : r.ref = .wb w)
    (ready : (s.wb w).write = true ∨ s.digsReady w r.inv = true) :
    let u := s.dropCipher r
    let at_ := if r.latency then u.now else u.now + 1
    s.cipherDone k = if (u.wb w).st = .free || (u.wb w).cut || (u.wb w).st == .abandoned then u
      else if (u.wb w).write then u.cipherWrite r.pair w r.inv at_ else u.cipherRead r.pair w r.inv at_ := by
  have goes : (!(s.wb w).write && !s.digsReady w r.inv) = false := by
    rcases ready with write | digests
    · rw [write]; rfl
    · rw [digests, Bool.not_true, Bool.and_false]
  simp only [State.cipherDone, next, ref, goes, Bool.false_eq_true, if_false]

/-! ### Transfers -/

theorem State.xferArm_absent {id : Nat} (ref : it.ref = .cap id) (absent : s.cap? id = none) : s.xferArm it = s.endItem it := by
  simp only [State.xferArm, ref, absent]

theorem State.xferArm_cap {id : Nat} {cap : Capsule} (ref : it.ref = .cap id) (here : s.cap? id = some cap) : s.xferArm it = s.armAnswer it cap := by
  simp only [State.xferArm, ref, here]

/-- The states of a waybill that is still on its way. -/
def WbSt.onWay (t : WbSt) : Prop := t = .admitted ∨ t = .lockWait ∨ t = .locked ∨ t = .payload ∨ t = .media ∨ t = .fill

/-- XFER_ARM on a waybill that is on its way: cut short, it is answered or reaped; its commands of I/O and of ADMIN_STEP go on. -/
theorem State.xferArm_onWay (ref : it.ref = .wb w) (onWay : (s.wb w).st.onWay) :
    let x := s.wb w
    let f := (s.vol x.volume).lbaf
    s.xferArm it =
      if x.cut then (if (s.refCmds it.ref).isEmpty then (s.updWb w fun x => { x with data := [] }).finishWb it w else s.toReap it)
      else if x.io then
        (if x.piFail.isSome then s.finishWb it w
         else if x.write then
           (if x.keyed then s.armPayload it w f
            else (s.updWb w fun x => { x with st := .payload, data := x.icd }).advance it Rt.piCheck 1 .none s.now)
         else
           let s := s.armData w (x.progress * invBlocks f * (lbaData f + lbaMeta f)) x.data
           let s := s.updWb w fun x => { x with progress := x.progress + 1, sent := x.sent + 1, data := [] }
           if x.progress + 1 < x.invs f then s.advance it Rt.piCheck 1 .none s.now else (s.releaseRef it.ref).finishWb it w)
      else if x.progress = 0 ∧ x.takesData && x.keyed then (s.armRead w 0 ((sglLen x.sqe).getD 0)).advance it Rt.adminStep 1 .event s.now
      else (s.armData w 0 x.data).finishWb it w := by
  rcases onWay with h | h | h | h | h | h <;> simp only [State.xferArm, ref, h]

/-- Settles O41: an invocation always fits the array, so PI_CHECK refuses only for the key; the array's completion, CACHE_FILL and XFER_ARM are their
code in each case of the item and of the waybill's state. -/
theorem requestsAreCheckedAndAnswered : Obligations.RequestsAreCheckedAndAnswered := by
  unfold Obligations.RequestsAreCheckedAndAnswered
  refine ⟨⟨fun s u k c it w x R hx => ?_, fun s k idle => congrArg Host.Outcome.next (State.cipherDone_none idle), fun s u k r next hu => ?_⟩,
    fun s u k c it w x R hx => ?_, fun s u k c it id E ref => ?_, fun s u k c it w x E ref hx => ?_, fun s u k c it w x R hx onWay => ?_,
    fun u it w q x hx qp => ?_⟩
  · subst hx
    have runs : exec (.piCheck k c) s = .next (u.piCheck it) := congrArg Host.Outcome.next (State.run_runs R _)
    unfold State.piCheck at runs
    rw [State.onWb_runs R] at runs
    refine ⟨fun noKey => runs.trans (congrArg Host.Outcome.next (if_pos (by rw [noKey]; rfl))), fun key => ?_⟩
    have posts := runs.trans (congrArg Host.Outcome.next ((if_neg (by rw [key]; decide)).trans (if_neg (invocation_fits_array _ _ _))))
    exact ⟨fun read => posts.trans (congrArg Host.Outcome.next (if_pos (by rw [read]; rfl))),
      fun write more => posts.trans (congrArg Host.Outcome.next ((if_neg (by rw [write]; decide)).trans (if_pos more))),
      fun write last => posts.trans (congrArg Host.Outcome.next ((if_neg (by rw [write]; decide)).trans (if_neg (Nat.not_lt.mpr last))))⟩
  · subst hu
    refine ⟨fun id ref => congrArg Host.Outcome.next (State.cipherDone_work next ref), fun w ref => ⟨fun read waits =>
      congrArg Host.Outcome.next (State.cipherDone_waits next ref read waits), fun ready => ?_⟩⟩
    refine ⟨fun ended => ?_, fun taken kept whole => ?_⟩
    · refine congrArg Host.Outcome.next ((State.cipherDone_wb next ref ready).trans (if_pos ?_))
      rcases ended with h | h | h <;> simp [h]
    · have goes := (State.cipherDone_wb next ref ready).trans (if_neg (by simp [taken, kept, whole]))
      exact ⟨fun write => congrArg Host.Outcome.next (goes.trans (if_pos write)),
        fun read => congrArg Host.Outcome.next (goes.trans (if_neg (Bool.eq_false_iff.mp read)))⟩
  · subst hx
    have runs : exec (.cacheFill k c) s = .next (u.cacheFill it) := congrArg Host.Outcome.next (State.run_runs R _)
    unfold State.cacheFill at runs
    rw [State.onWb_runs R] at runs
    refine ⟨fun leg1 => runs.trans (congrArg Host.Outcome.next (if_pos leg1)), fun leg2 more => runs.trans (congrArg Host.Outcome.next
      ((if_neg leg2).trans (if_pos more))), fun leg2 last => ?_⟩
    have ends := runs.trans (congrArg Host.Outcome.next ((if_neg leg2).trans (if_neg (Nat.not_lt.mpr last))))
    refine ends.trans (congrArg Host.Outcome.next ?_)
    simp only [Bool.or_eq_true]
    split <;> rfl
  · have runs : exec (.xferArm k c) s = .next (u.xferArm it) := congrArg Host.Outcome.next (State.run_enters E _)
    exact ⟨fun absent => runs.trans (congrArg Host.Outcome.next (State.xferArm_absent ref absent)),
      fun cap here => runs.trans (congrArg Host.Outcome.next (State.xferArm_cap ref here))⟩
  · subst hx
    have runs : exec (.xferArm k c) s = .next (u.xferArm it) := congrArg Host.Outcome.next (State.run_enters E _)
    refine ⟨fun free => ?_, fun abandoned => ?_, fun committed => ?_, fun durable => ?_, fun onWay cut => ?_⟩
    · rw [runs]; simp only [State.xferArm, ref, free]
    · rw [runs]; simp only [State.xferArm, ref, abandoned]
    · rw [runs]; simp only [State.xferArm, ref, committed]
    · rw [runs]; simp only [State.xferArm, ref, durable]
    · have ends := runs.trans (congrArg Host.Outcome.next ((State.xferArm_onWay ref onWay).trans (if_pos cut)))
      exact ⟨fun none_ => ends.trans (congrArg Host.Outcome.next (if_pos (List.isEmpty_iff.mpr none_))),
        fun some_ => ends.trans (congrArg Host.Outcome.next (if_neg fun h => some_ (List.isEmpty_iff.mp h)))⟩
  · subst hx
    have runs : exec (.xferArm k c) s = .next (u.xferArm it) := congrArg Host.Outcome.next (State.run_runs R _)
    have goes := runs.trans (congrArg Host.Outcome.next ((State.xferArm_onWay R.ref onWay).trans (if_neg (by rw [R.whole]; decide))))
    refine ⟨fun io failed => ?_, fun io passed write keyed => ?_, fun io passed write inCapsule => ?_, fun io passed read => ?_,
      fun admin first data keyed => ?_, fun admin executed => ?_⟩
    · exact goes.trans (congrArg Host.Outcome.next ((if_pos io).trans (if_pos failed)))
    · have arms := goes.trans (congrArg Host.Outcome.next ((if_pos io).trans ((if_neg (by rw [passed]; decide)).trans ((if_pos write).trans (if_pos keyed)))))
      exact ⟨fun more => arms.trans (congrArg Host.Outcome.next (if_pos more)),
        fun last => arms.trans (congrArg Host.Outcome.next (if_neg (Nat.not_lt.mpr last)))⟩
    · exact goes.trans (congrArg Host.Outcome.next ((if_pos io).trans ((if_neg (by rw [passed]; decide)).trans ((if_pos write).trans
        (if_neg (Bool.eq_false_iff.mp inCapsule))))))
    · have arms := goes.trans (congrArg Host.Outcome.next ((if_pos io).trans ((if_neg (by rw [passed]; decide)).trans
        (if_neg (Bool.eq_false_iff.mp read)))))
      exact ⟨fun more => arms.trans (congrArg Host.Outcome.next (if_pos more)),
        fun last => arms.trans (congrArg Host.Outcome.next (if_neg (Nat.not_lt.mpr last)))⟩
    · exact goes.trans (congrArg Host.Outcome.next ((if_neg (Bool.eq_false_iff.mp admin)).trans (if_pos (by simp [first, data, keyed]))))
    · refine goes.trans (congrArg Host.Outcome.next ((if_neg (Bool.eq_false_iff.mp admin)).trans (if_neg ?_)))
      rcases executed with h | h | h <;> simp [h]
  · subst hx
    unfold State.finishWb
    simp only [qp]

end Sys2Proof.Machine

/-! ## Controllers (08 R229 to R260): their timers, ADMIN_STEP and SELFTEST_STEP -/

namespace Sys2Proof.Machine

open Sys2Proof

variable {s u : State} {k : Fin 12} {c : Fin 256} {it : Item} {w : Nat}

/-! ### Timers of a controller -/

theorem State.katoExpire_notDue {k : Nat} (notDue : s.katoDue k = false) : s.katoExpire k = s :=
  if_pos (by rw [notDue]; rfl)

/-- The waybills in flight of a controller. -/
def State.ctrlFlying (s : State) (k : Nat) : List Nat :=
  s.wbsThat fun x => match s.qpOf x.qpn with | some q => (s.qp q).bound && (s.qp q).ctrl == k | none => false

theorem State.shutdownDone_eq (s : State) (k : Nat) : s.shutdownDone k =
    if (s.ctrl k).live && (s.ctrl k).shutting && !!(s.ctrlFlying k).isEmpty then s.updCtrl k fun c => { c with shutting := false, shst := 2 } else s := rfl

theorem State.shutdownDone_left {k : Nat} (live : (s.ctrl k).live = true) (shutting : (s.ctrl k).shutting = true) (left : s.ctrlFlying k = []) :
    s.shutdownDone k = s.updCtrl k fun c => { c with shutting := false, shst := 2 } :=
  (s.shutdownDone_eq k).trans (if_pos (by simp [live, shutting, left]))

theorem State.shutdownDone_waits {k : Nat} (waits : (s.ctrl k).live = false ∨ (s.ctrl k).shutting = false ∨ s.ctrlFlying k ≠ []) :
    s.shutdownDone k = s := by
  refine (s.shutdownDone_eq k).trans (if_neg ?_)
  rcases waits with h | h | h <;> simp [h]

theorem State.disableDone_waits {k : Nat} (waits : (s.ctrl k).live = false ∨ (s.ctrl k).disabling = false ∨
    ∃ q ∈ s.ioQps k, (s.qp q).st = .rts ∨ (s.qp q).st = .drain ∨ (s.qp q).next = .drain ∨ (s.qp q).next2 = .drain) : s.disableDone k = s := by
  refine if_neg ?_
  rcases waits with h | h | ⟨q, mem, busy⟩
  · simp [h]
  · simp [h]
  · have any : ((s.ioQps k).any fun q => (s.qp q).st == .rts || (s.qp q).st == .drain || (s.qp q).next == .drain || (s.qp q).next2 == .drain) = true :=
      List.any_eq_true.mpr ⟨q, mem, by rcases busy with b | b | b | b <;> simp [b]⟩
    simp [any]

theorem State.disableDone_left {k : Nat} (live : (s.ctrl k).live = true) (disabling : (s.ctrl k).disabling = true)
    (left : ∀ q ∈ s.ioQps k, ¬ ((s.qp q).st = .rts ∨ (s.qp q).st = .drain ∨ (s.qp q).next = .drain ∨ (s.qp q).next2 = .drain)) :
    s.disableDone k = s.updCtrl k fun c => { c with disabling := false, rdy := false } := by
  have any : ((s.ioQps k).any fun q => (s.qp q).st == .rts || (s.qp q).st == .drain || (s.qp q).next == .drain || (s.qp q).next2 == .drain) = false := by
    refine List.any_eq_false.mpr fun q mem => ?_
    simpa [or_assoc] using left q mem
  exact if_pos (by simp [live, disabling, any])

/-! ### ADMIN_STEP -/

theorem State.adminStep_cap {id : Nat} (ref : it.ref = .cap id) : s.adminStep it = s.advance it Rt.xferArm 1 .none s.now := by
  simp only [State.adminStep, ref]

theorem State.adminDone_next (u : State) (it : Item) (w : Nat) (r : Reply) (wait : Bool) :
    let n := r.data.length + (if (u.wb w).takesData then max (u.wb w).data.length (u.wb w).icd.length else 0)
    let v := (u.adminLane it n).updWb w fun z => { z with status := r.status, dw0 := r.dw, data := r.data, progress := 1 }
    u.adminDone it w r wait = if wait = true then v.advance it Rt.xferArm 1 .event v.now
      else v.advance it (if 4096 < r.data.length then Rt.adminStep else Rt.xferArm) 1 (v.adminWait n) v.now := by
  unfold State.adminDone
  by_cases long : 4096 < r.data.length
  · simp only [if_pos long]
  · simp only [if_neg long]

/-! ### SELFTEST_STEP -/

theorem State.testLeg_short {v : Work} {ctrl a : Nat} (ref : it.ref = .work v.id) (item : s.work? v.id = some v) (kind : v.kind = .test ctrl a)
    (short : v.redo = true) : s.testLeg it = s.shortStep it v ctrl := by
  simp only [State.testLeg, ref, item, kind, short, if_true]

/-- The end of a step of the short test. -/
def State.nextTestStep (s : State) (it : Item) (v : Work) (ctrl : Nat) : State :=
  (s.endWork it v false).updCtrl ctrl fun c => { c with test := c.test.map fun t => { t with step := t.step + 1 } }

theorem State.shortStep_unit {v : Work} {ctrl n : Nat} {rest : List Nat} (rows : v.rows = n :: rest) :
    s.shortStep it v ctrl =
      if !s.serves n then s.nextTestStep it v ctrl
      else if v.st = .planned then
        ((s.updWork v.id fun w => { w with st := .reading }).postCipher n it.ref 0 1 false none).advance it Rt.selftestStep 1 .event s.now
      else if v.st = .reading then
        ((s.updWork v.id fun w => { w with st := .parity }).postParity n it.ref).advance it Rt.selftestStep 1 .event s.now
      else s.nextTestStep it v ctrl := by
  simp only [State.shortStep, rows]
  rfl

theorem State.shortStep_lanes {v : Work} {ctrl : Nat} (rows : v.rows = []) :
    s.shortStep it v ctrl =
      if v.st = .planned then
        ((s.updWork v.id fun w => { w with st := .reading }).lane it 128 0).advance it Rt.selftestStep 1 (s.laneWait Rt.selftestStep) s.now
      else s.nextTestStep it v ctrl := by
  simp only [State.shortStep, rows]
  rfl

theorem State.testLeg_stripe {v : Work} {ctrl a : Nat} (ref : it.ref = .work v.id) (item : s.work? v.id = some v) (kind : v.kind = .test ctrl a)
    (stripe : v.redo = false) :
    s.testLeg it =
      if !((s.pool v.pool).allNeed v).isEmpty then
        (s.updWork v.id fun x => { x with st := .reading, need := (s.pool v.pool).allNeed v }).advance it Rt.drvSubmit 1 .none s.now
      else (((s.lane it 64 0).endWork it v false).actDone v.pool a).updCtrl ctrl fun c => { c with test := c.test.map fun t =>
        { t with bad := t.bad <|> s.testFinds v (match (s.ctrl ctrl).test with | some t => t.vols | none => []) } } := by
  simp only [State.testLeg, ref, item, kind, stripe, Bool.false_eq_true, if_false] <;> rfl

/-- Settles O42: the timers act exactly when they are due, and ADMIN_STEP and SELFTEST_STEP do what their code says of each command and of each step. -/
theorem controllersAreServed : Obligations.ControllersAreServed := by
  unfold Obligations.ControllersAreServed
  refine ⟨fun s k => ⟨fun due => ?_, fun notDue => congrArg Host.Outcome.next (State.katoExpire_notDue notDue),
      ⟨fun live shutting left => congrArg Host.Outcome.next (State.shutdownDone_left live shutting left),
        fun waits => congrArg Host.Outcome.next (State.shutdownDone_waits waits)⟩,
      fun live disabling left => congrArg Host.Outcome.next (State.disableDone_left live disabling left),
      fun waits => congrArg Host.Outcome.next (State.disableDone_waits waits)⟩,
    ⟨fun s u k c it id E ref => ?_, fun s u k c it w x y Q R hx hQ hy => ?_, fun u it w r wait => State.adminDone_next u it w r wait⟩,
    fun s u k c it w ctrl a R kind => ?_, fun s t k c r p O begins => ?_⟩
  · exact congrArg Host.Outcome.next (if_neg (by rw [due]; decide))
  · exact congrArg Host.Outcome.next ((State.run_enters E _).trans (State.adminStep_cap ref))
  · subst hx hQ hy
    have runs : exec (.adminStep k c) s = .next (u.adminStep it) := congrArg Host.Outcome.next (State.run_runs R _)
    unfold State.adminStep at runs
    rw [R.ref] at runs
    simp only at runs
    rw [State.onWb_runs R] at runs
    refine ⟨fun further => ?_, fun first isC => ?_, fun first fabrics other => ?_, fun first command io => ?_, fun first command admin aer => ?_,
      fun first command admin other => ?_⟩
    · have goes := runs.trans (congrArg Host.Outcome.next (if_pos further))
      exact ⟨fun more => goes.trans (congrArg Host.Outcome.next (if_pos more)),
        fun last => goes.trans (congrArg Host.Outcome.next (if_neg (Nat.not_lt.mpr last)))⟩
    all_goals
      rw [if_neg (by omega)] at runs
    · have fabrics : isFabrics (u.wb w).sqe = true := (Bool.and_eq_true_iff.mp isC).1
      rw [if_pos fabrics, if_pos isC] at runs
      dsimp only
      generalize u.connect ((u.qpOf (u.wb w).qpn).getD 0) (u.wb w).sqe (if (u.wb w).icd.isEmpty then (u.wb w).data else (u.wb w).icd) = reply at runs ⊢
      obtain ⟨answer, bound⟩ := reply
      cases bound with
      | none => exact runs
      | some b => exact runs
    · rw [if_pos fabrics, if_neg (Bool.eq_false_iff.mp other)] at runs
      refine ⟨fun v get value => ?_, fun get noValue => ?_, fun set off size => ?_, fun set wrong => ?_⟩
      · refine (runs.trans (congrArg Host.Outcome.next (if_pos get))).trans ?_
        rw [value]
      · refine (runs.trans (congrArg Host.Outcome.next (if_pos get))).trans ?_
        rw [noValue]
      · exact runs.trans (congrArg Host.Outcome.next ((if_neg set).trans (if_pos ⟨off, size⟩)))
      · exact runs.trans (congrArg Host.Outcome.next ((if_neg set).trans (if_neg fun h => wrong.elim (absurd h.1) (absurd h.2))))
    · rw [if_neg (Bool.eq_false_iff.mp command), if_pos io] at runs
      exact ⟨fun flush => runs.trans (congrArg Host.Outcome.next (if_pos flush)),
        fun resv => runs.trans (congrArg Host.Outcome.next (if_neg resv))⟩
    · rw [if_neg (Bool.eq_false_iff.mp command), if_neg (not_not.mpr admin), if_pos aer] at runs
      exact ⟨fun full => runs.trans (congrArg Host.Outcome.next (if_pos full)),
        fun room => runs.trans (congrArg Host.Outcome.next (if_neg (Nat.not_le.mpr room)))⟩
    · rw [if_neg (Bool.eq_false_iff.mp command), if_neg (not_not.mpr admin), if_neg other] at runs
      exact runs
  · have runs : exec (.selftestStep k c) s = .next (u.testLeg it) := congrArg Host.Outcome.next (State.poolRun_works R _ _)
    refine ⟨fun n rest short rows => ?_, fun short rows => ?_, fun stripe need => ?_, fun stripe need => ?_⟩
    · have unit := runs.trans (congrArg Host.Outcome.next ((State.testLeg_short R.ref R.item kind short).trans (State.shortStep_unit rows)))
      refine ⟨fun ended => ?_, fun serves planned => ?_, fun serves reading => ?_⟩
      · refine unit.trans (congrArg Host.Outcome.next ?_)
        rcases ended with lost | ⟨notPlanned, notReading⟩
        · exact if_pos (by rw [lost]; rfl)
        · rw [if_neg notPlanned, if_neg notReading, ite_self]
          rfl
      · exact unit.trans (congrArg Host.Outcome.next ((if_neg (by rw [serves]; decide)).trans (if_pos planned)))
      · exact unit.trans (congrArg Host.Outcome.next ((if_neg (by rw [serves]; decide)).trans
          ((if_neg (by rw [reading]; decide)).trans (if_pos reading))))
    · have lanes := runs.trans (congrArg Host.Outcome.next ((State.testLeg_short R.ref R.item kind short).trans (State.shortStep_lanes rows)))
      exact ⟨fun planned => lanes.trans (congrArg Host.Outcome.next (if_pos planned)),
        fun ended => lanes.trans (congrArg Host.Outcome.next (if_neg ended))⟩
    · exact runs.trans (congrArg Host.Outcome.next ((State.testLeg_stripe R.ref R.item kind stripe).trans (if_pos (notEmpty_of_ne_nil need))))
    · exact runs.trans (congrArg Host.Outcome.next ((State.testLeg_stripe R.ref R.item kind stripe).trans (if_neg (not_notEmpty_of_eq_nil need))))
  · exact congrArg Host.Outcome.next (State.poolRun_opens O _ begins)

end Sys2Proof.Machine

/-! ## Bays and drives (12 R363 to R378, Tables 12-3, 12-5 and 12-7) -/

namespace Sys2Proof.Machine

open Sys2Proof

variable {s u : State}

theorem next_of_pos {p : Prop} [Decidable p] {a b : State} (h : p) :
    (Host.Outcome.next (if p then a else b) : Host.Outcome State Fault Refusal) = .next a := congrArg Host.Outcome.next (if_pos h)

theorem next_of_neg {p : Prop} [Decidable p] {a b : State} (h : ¬ p) :
    (Host.Outcome.next (if p then a else b) : Host.Outcome State Fault Refusal) = .next b := congrArg Host.Outcome.next (if_neg h)

section

variable {b : Nat}

/-! ### Training -/

/-- A failed training attempt, counted, with the bay held in reset for its retry. -/
def State.trainFailed (s : State) (b : Nat) : State :=
  (s.cntDrv 9 1).updBay b fun x => { x with fails := (s.bay b).fails + 1, perst := true, retrying := true, step := 3 }

theorem State.trainFail_few (up : s.bayState b = dbLinking ∨ s.bayState b = dbRecovering) (step : (s.bay b).step = 4)
    (few : (s.bay b).fails + 1 ≤ (s.trainFailed b).fld Reg.DRV_RECOVER Fd.DRV_RECOVER_LINK_RETRIES) : s.trainFail b = s.trainFailed b :=
  (if_pos ⟨up, step⟩).trans (if_neg (Nat.not_lt.mpr few))

theorem State.trainFail_last (up : s.bayState b = dbLinking ∨ s.bayState b = dbRecovering) (step : (s.bay b).step = 4)
    (last : ¬ (s.bay b).fails + 1 ≤ (s.trainFailed b).fld Reg.DRV_RECOVER Fd.DRV_RECOVER_LINK_RETRIES) :
    s.trainFail b = (s.trainFailed b).bayWant b (.failed 2) :=
  (if_pos ⟨up, step⟩).trans (if_pos (Nat.not_le.mp last))

/-! ### Containment -/

theorem State.contain_idle (idle : s.online b = false ∨ (s.bay b).contained ≠ none) (cause : Nat) : s.contain b cause = s :=
  if_neg fun ⟨online, free⟩ => idle.elim (fun off => Bool.false_ne_true (off.symm.trans online)) (absurd free)

theorem State.contain_online (online : s.online b = true) (free : (s.bay b).contained = none) (cause : Nat) :
    s.contain b cause = ((s.cntDrv 6 1).cutLink b).bayWant b (.recovering cause) := by
  refine (if_pos ⟨online, free⟩).trans ?_
  rw [State.containNow, if_pos free]

/-! ### Accesses of a drive -/

/-- A refused access of a drive: its bay is contained and failed with reason 6. -/
def State.dmaRefused (s : State) (b addr : Nat) : State :=
  (((s.emit (.drvRefused b addr)).contain b 5).cntDrv 10 1).bayWant b (if s.online b then .failed 6 else (s.bay b).next)

variable {addr len : Nat} {write : Bool} {data : List Byte}

/-- The bytes that an access moves. -/
def dmaBytes (write : Bool) (data : List Byte) (len : Nat) : Nat := if write then data.length else len

/-- An access to the list window: it reads the list of a command of the bay. -/
def State.listDma (s : State) (b addr : Nat) (write : Bool) (n : Nat) : State :=
  match s.cmd? ((addr - 0x20000000000000) / 0x1000) with
  | some c =>
    if c.bay = b ∧ c.st = 0 ∧ write = false ∧ addr % 0x1000 + n ≤ 0x1000 then
      s.emit (.drvRead b addr (sliceB ((List.range 512).flatMap fun i => leBytes 8 (dataWindow ((addr - 0x20000000000000) / 0x1000) + (i + 1) * 4096))
        (addr % 0x1000) n))
    else s.dmaRefused b addr
  | none => s.dmaRefused b addr

/-- An access to the data window: it moves the data of a command of the bay, in the command's direction. -/
def State.dataDma (s : State) (b addr : Nat) (write : Bool) (data : List Byte) (n : Nat) : State :=
  match s.cmd? ((addr - 0x10000000000000) / 0x200000) with
  | some c =>
    let off := (addr - 0x10000000000000) % 0x200000
    if c.bay = b ∧ c.st = 0 ∧ (write = !c.write) ∧ off + n ≤ c.units * unitBytes then
      if write then s.setCmd ((addr - 0x10000000000000) / 0x200000) (some { c with
        buf := c.buf.take off ++ (List.range (off - c.buf.length)).map (fun i => Config.staleByte (c.buf.length + i)) ++ data ++ c.buf.drop (off + n) })
      else s.emit (.drvRead b addr (sliceB c.buf off n))
    else s.dmaRefused b addr
  | none => s.dmaRefused b addr

theorem State.driveDma_closed (closed : (s.bay b).contained ≠ none ∨ (s.bay b).step < 5) : s.driveDma b addr write data len = s := if_pos closed

section

variable (free : (s.bay b).contained = none) (trained : 5 ≤ (s.bay b).step)
include free trained

theorem State.driveDma_queues (queues : queueWindow b ≤ addr ∧ addr + dmaBytes write data len ≤ queueWindow b + 0x800000) :
    s.driveDma b addr write data len =
      if write then (if 0x10000 ≤ (addr - queueWindow b) % 0x20000 then s else s.dmaRefused b addr)
      else if (addr - queueWindow b) % 0x20000 < 0x10000 then s.emit (.drvRead b addr (s.sqBytes b (addr - queueWindow b) len))
      else s.dmaRefused b addr :=
  (if_neg (by simp only [free, not_or]; exact ⟨fun h => h rfl, Nat.not_lt.mpr trained⟩)).trans (if_pos queues)

variable (outside : ¬ (queueWindow b ≤ addr ∧ addr + dmaBytes write data len ≤ queueWindow b + 0x800000))
include outside

theorem State.driveDma_list (list : 0x20000000000000 ≤ addr) :
    s.driveDma b addr write data len = s.listDma b addr write (dmaBytes write data len) :=
  (if_neg (by simp only [free, not_or]; exact ⟨fun h => h rfl, Nat.not_lt.mpr trained⟩)).trans ((if_neg outside).trans (if_pos list))

theorem State.driveDma_data (noList : ¬ 0x20000000000000 ≤ addr) (window : 0x10000000000000 ≤ addr) :
    s.driveDma b addr write data len = s.dataDma b addr write data (dmaBytes write data len) :=
  (if_neg (by simp only [free, not_or]; exact ⟨fun h => h rfl, Nat.not_lt.mpr trained⟩)).trans ((if_neg outside).trans ((if_neg noList).trans (if_pos window)))

theorem State.driveDma_nowhere (below : ¬ 0x10000000000000 ≤ addr) : s.driveDma b addr write data len = s.dmaRefused b addr :=
  (if_neg (by simp only [free, not_or]; exact ⟨fun h => h rfl, Nat.not_lt.mpr trained⟩)).trans ((if_neg outside).trans
    ((if_neg (by omega)).trans (if_neg below)))

end

theorem State.listDma_read {n : Nat} {c : DrvCmd} (named : s.cmd? ((addr - 0x20000000000000) / 0x1000) = some c)
    (listed : c.bay = b ∧ c.st = 0 ∧ write = false ∧ addr % 0x1000 + n ≤ 0x1000) :
    s.listDma b addr write n = s.emit (.drvRead b addr
      (sliceB ((List.range 512).flatMap fun i => leBytes 8 (dataWindow ((addr - 0x20000000000000) / 0x1000) + (i + 1) * 4096)) (addr % 0x1000) n)) := by
  simp only [State.listDma, named]
  exact if_pos listed

theorem State.listDma_refused {n : Nat}
    (unlisted : ∀ c, s.cmd? ((addr - 0x20000000000000) / 0x1000) = some c → ¬ (c.bay = b ∧ c.st = 0 ∧ write = false ∧ addr % 0x1000 + n ≤ 0x1000)) :
    s.listDma b addr write n = s.dmaRefused b addr := by
  unfold State.listDma
  cases named : s.cmd? ((addr - 0x20000000000000) / 0x1000) with
  | none => rfl
  | some c => exact if_neg (unlisted c named)

theorem State.dataDma_moves {n : Nat} {c : DrvCmd} (named : s.cmd? ((addr - 0x10000000000000) / 0x200000) = some c)
    (moves : c.bay = b ∧ c.st = 0 ∧ (write = !c.write) ∧ (addr - 0x10000000000000) % 0x200000 + n ≤ c.units * unitBytes) :
    let off := (addr - 0x10000000000000) % 0x200000
    s.dataDma b addr write data n =
      if write then s.setCmd ((addr - 0x10000000000000) / 0x200000) (some { c with
        buf := c.buf.take off ++ (List.range (off - c.buf.length)).map (fun i => Config.staleByte (c.buf.length + i)) ++ data ++ c.buf.drop (off + n) })
      else s.emit (.drvRead b addr (sliceB c.buf off n)) := by
  simp only [State.dataDma, named]
  exact if_pos moves

theorem State.dataDma_refused {n : Nat}
    (still : ∀ c, s.cmd? ((addr - 0x10000000000000) / 0x200000) = some c →
      ¬ (c.bay = b ∧ c.st = 0 ∧ (write = !c.write) ∧ (addr - 0x10000000000000) % 0x200000 + n ≤ c.units * unitBytes)) :
    s.dataDma b addr write data n = s.dmaRefused b addr := by
  unfold State.dataDma
  cases named : s.cmd? ((addr - 0x10000000000000) / 0x200000) with
  | none => rfl
  | some c => exact if_neg (still c named)

end

/-! ### Commands of a drive -/

/-- Whether a completion entry fits the command that it names. -/
def State.cplFits (s : State) (b q : Nat) (phase : Bool) (c : DrvCmd) : Prop :=
  c.st = 0 ∧ c.bay = b ∧ c.queue = q ∧ phase = (Tab.rd (fun _ => 0) (s.bay b).posted q / or1 (s.bay b).ident.depth % 2 == 0)

section

variable {b q cid status crd : Nat} {phase dnr : Bool}

theorem State.driveCompletion_unheard (unheard : ¬ ((s.bay b).contained = none ∧ 8 ≤ (s.bay b).step ∧ q ≠ 0)) :
    s.driveCompletion b q cid phase status crd dnr = s := by
  unfold State.driveCompletion
  by_cases closed : (s.bay b).contained ≠ none ∨ (s.bay b).step < 8
  · exact if_pos closed
  · refine (if_neg closed).trans (if_pos ?_)
    obtain ⟨free, trained⟩ := not_or.mp closed
    by_contra other
    exact unheard ⟨not_not.mp free, Nat.not_lt.mp trained, other⟩

variable (free : (s.bay b).contained = none) (trained : 8 ≤ (s.bay b).step) (io : q ≠ 0)
include free trained io

theorem State.driveCompletion_fits {c : DrvCmd} (named : s.cmd? cid = some c) (fits : s.cplFits b q phase c) :
    let u := s.updBay b fun x => { x with posted := Tab.wr (fun _ => 0) x.posted q (Tab.rd (fun _ => 0) (s.bay b).posted q + 1) }
    s.driveCompletion b q cid phase status crd dnr = ((u.driveStatus c status dnr).cplCycles b c).latch cid c status crd dnr := by
  unfold State.driveCompletion
  refine (if_neg (by simp only [free, not_or]; exact ⟨fun h => h rfl, Nat.not_lt.mpr trained⟩)).trans ((if_neg io).trans ?_)
  rw [named]
  exact if_pos fits

theorem State.driveCompletion_wrong (wrong : ∀ c, s.cmd? cid = some c → ¬ s.cplFits b q phase c) :
    s.driveCompletion b q cid phase status crd dnr = (s.cntDrv 11 1).contain b 3 := by
  unfold State.driveCompletion
  refine (if_neg (by simp only [free, not_or]; exact ⟨fun h => h rfl, Nat.not_lt.mpr trained⟩)).trans ((if_neg io).trans ?_)
  cases named : s.cmd? cid with
  | none => rfl
  | some c => exact if_neg (wrong c named)

end

/-- A command that has outrun CMD_TO. -/
def State.cmdLate (s : State) (c : DrvCmd) : Prop :=
  c.st = 0 ∧ c.abort = none ∧ s.msSince c.tick (s.fld1 Reg.DRV_TIMERS Fd.DRV_TIMERS_CMD_TO) = true

/-- A command whose Abort has outrun ABORT_TO. -/
def State.abortLost (s : State) (c : DrvCmd) : Prop :=
  c.st = 0 ∧ ∃ a, c.abort = some a ∧ s.msSince a (s.fld1 Reg.DRV_TIMERS Fd.DRV_TIMERS_ABORT_TO) = true

theorem exec_commandTimeout_late {t : Fin 65536} {c : DrvCmd} (named : s.cmd? t = some c) (late : s.cmdLate c) :
    let u := (((s.cntDrv 4 1).cntDrv 5 1).acc 11 c.bay 5 1).satFld (Reg.DRV_BAY_ERR c.bay) Fd.DRV_BAY_ERR_TIMEOUTS 1
    exec (.driveCommandTimeout t) s = .next ((u.setCmd t (some { c with abort := some u.now })).emitNet (.drvAbort c.bay t)) := by
  refine (congrArg Host.Outcome.next ?_ : execDriveCommandTimeout t s = _)
  rw [named]
  exact if_pos late

theorem exec_commandTimeout_early {t : Fin 65536} (early : ∀ c, s.cmd? t = some c → ¬ s.cmdLate c) : exec (.driveCommandTimeout t) s = .next s := by
  refine (congrArg Host.Outcome.next ?_ : execDriveCommandTimeout t s = _)
  cases named : s.cmd? t with
  | none => rfl
  | some c => exact if_neg (early c named)

theorem exec_abortTimeout_lost {t : Fin 65536} {c : DrvCmd} (named : s.cmd? t = some c) (lost : s.abortLost c) :
    exec (.driveAbortTimeout t) s = .next (s.contain c.bay 4) := by
  obtain ⟨out, a, aborted, late⟩ := lost
  refine (congrArg Host.Outcome.next ?_ : execDriveAbortTimeout t s = _)
  rw [named]
  simp only [aborted]
  exact if_pos ⟨out, late⟩

theorem exec_abortTimeout_kept {t : Fin 65536} (kept : ∀ c, s.cmd? t = some c → ¬ s.abortLost c) : exec (.driveAbortTimeout t) s = .next s := by
  refine (congrArg Host.Outcome.next ?_ : execDriveAbortTimeout t s = _)
  cases named : s.cmd? t with
  | none => rfl
  | some c =>
    cases aborted : c.abort with
    | none => simp only [aborted]
    | some a => simp only [aborted]; exact if_neg fun ⟨out, late⟩ => kept c named ⟨out, a, aborted, late⟩

/-- The state after a poll of an ONLINE bay, before HEALTH_FAIL acts on it. -/
def State.pollShown (s : State) (b w temp : Nat) : State :=
  let u := s.updBay b fun x => { x with warning := w, temp := temp, tempTick := some s.now }
  if w ≠ (s.bay b).warning ∧ (natBit w 0 || natBit w 1 || natBit w 4) = true then u.raise Ev.DRV_HEALTH b w temp else u

theorem exec_smartPoll_online {b : Fin 128} {w : BitVec 8} {temp : Fin 65536} (fw : s.fwRuns = true) (online : s.online b = true) :
    exec (.smartPoll b w temp) s = .next
      (if (natBit w.toNat 2 || natBit w.toNat 3) && (s.pollShown b w.toNat temp).flag Reg.DRV_CFG Fd.DRV_CFG_HEALTH_FAIL then
        (s.pollShown b w.toNat temp).bayWant b (.failed 7) else s.pollShown b w.toNat temp) :=
  (next_of_neg (by rw [fw]; decide)).trans (next_of_pos online)

/-! ### The obligation -/

theorem DriveReport.fit_iff (r : DriveReport) (paired : Bool) :
    (r.nvme14 && r.ns1 && (!paired || (r.shared && r.resv)) && r.format && decide (2 ≤ r.pairs) && (r.mdts == 0 || decide (65536 ≤ r.mdts))
      && (!r.vwc || r.vwcOff)) = true
      ↔ r.nvme14 = true ∧ r.ns1 = true ∧ (paired = true → r.shared = true ∧ r.resv = true) ∧ r.format = true ∧ 2 ≤ r.pairs
        ∧ (r.mdts = 0 ∨ 65536 ≤ r.mdts) ∧ (r.vwc = true → r.vwcOff = true) := by
  cases paired <;> cases r.vwc <;> simp [and_assoc]

/-- Settles O43: each row of the bring-up acts exactly in its state of the bay, and each row of a drive at work is its code in each case of the command
or of the address that it names. -/
theorem baysAndDrives : Obligations.BaysAndDrives := by
  unfold Obligations.BaysAndDrives
  refine ⟨fun s b => ⟨fun release => ?_, fun kept => ?_, fun retrying live => ?_, fun idle => ?_, fun up step few => ?_, fun up step last => ?_,
      fun idle => ?_, fun rate width flit => ⟨fun up step can ok => ?_, fun up step can bad few => ?_, fun up step can bad last => ?_, fun idle => ?_⟩,
      fun live step => ?_, fun idle => ?_, fun rate width => ⟨fun served same => ?_, fun served other ok => ?_, fun served other bad => ?_, fun idle => ?_⟩,
      fun capTo => ⟨fun due linking => ?_, fun due other => ?_, fun idle => ?_⟩, ⟨fun due => ?_, fun idle => ?_⟩,
      fun r => ⟨fun due unfit => ?_, fun due fit => ?_, fun idle => ?_⟩,
      ⟨fun late => ?_, fun early linking step few => ?_, fun early linking step last => ?_, fun early idle => ?_⟩⟩,
    fun s b q cid phase sct sc crd dnr => ⟨fun c heard named fits => ?_, fun heard wrong => ?_, fun unheard => ?_⟩,
    fun s t => ⟨fun c named late => exec_commandTimeout_late named late, fun early => exec_commandTimeout_early early,
      fun c named lost => exec_abortTimeout_lost named lost, fun kept => exec_abortTimeout_kept kept⟩,
    fun s b addr write data len => ?_, fun s b cause ref lost => ?_, fun s b => rfl, fun s b => ?_, fun s p => rfl, fun s b w temp => ?_⟩
  · obtain ⟨up, step, pg, ms, first, free⟩ := release
    exact next_of_pos ⟨up, step, pg, ms, by rw [first]; rfl, free⟩
  · exact next_of_neg fun ⟨up, step, pg, ms, first, free⟩ => kept ⟨up, step, pg, ms, by simpa using first, free⟩
  · exact next_of_pos (Bool.and_eq_true_iff.mpr ⟨retrying, live⟩)
  · refine next_of_neg fun h => ?_
    obtain ⟨retrying, live⟩ := Bool.and_eq_true_iff.mp h
    exact idle.elim (fun no => Bool.false_ne_true (no.symm.trans retrying)) (fun no => Bool.false_ne_true (no.symm.trans live))
  · exact congrArg Host.Outcome.next (State.trainFail_few up step few)
  · exact congrArg Host.Outcome.next (State.trainFail_last up step last)
  · exact next_of_neg idle
  · exact (next_of_pos ⟨up, step⟩).trans ((next_of_neg (by rw [can]; decide)).trans (next_of_pos ok))
  · exact (next_of_pos ⟨up, step⟩).trans ((next_of_neg (by rw [can]; decide)).trans ((next_of_neg (Bool.eq_false_iff.mp bad)).trans
      (congrArg Host.Outcome.next (State.trainFail_few up step few))))
  · exact (next_of_pos ⟨up, step⟩).trans ((next_of_neg (by rw [can]; decide)).trans ((next_of_neg (Bool.eq_false_iff.mp bad)).trans
      (congrArg Host.Outcome.next (State.trainFail_last up step last))))
  · by_cases training : (s.bayState b = dbLinking ∨ s.bayState b = dbRecovering) ∧ (s.bay b).step = 4
    · refine (next_of_pos training).trans (next_of_pos ?_)
      cases can : s.linkCan b rate width flit with
      | true => exact absurd ⟨training.1, training.2, can⟩ idle
      | false => rfl
    · exact next_of_neg training
  · exact next_of_pos (by simp [live, step])
  · exact next_of_neg (by simpa using idle)
  · obtain ⟨step, live, can⟩ := served
    exact (next_of_neg (by simp [live, can]; omega)).trans (next_of_pos same)
  · obtain ⟨step, live, can⟩ := served
    exact (next_of_neg (by simp [live, can]; omega)).trans ((next_of_neg other).trans (next_of_pos ok))
  · obtain ⟨step, live, can⟩ := served
    exact (next_of_neg (by simp [live, can]; omega)).trans ((next_of_neg other).trans (next_of_neg (Bool.eq_false_iff.mp bad)))
  · refine next_of_pos ?_
    by_contra served
    simp only [not_or, Bool.not_eq_true', Bool.not_eq_false, Nat.not_lt] at served
    exact idle served
  · obtain ⟨fw, live, step⟩ := due
    exact (next_of_pos (by simp [fw, live, step])).trans (next_of_pos linking)
  · obtain ⟨fw, live, step⟩ := due
    exact (next_of_pos (by simp [fw, live, step])).trans (next_of_neg other)
  · exact next_of_neg (by simpa [and_assoc] using idle)
  · obtain ⟨fw, live, step⟩ := due
    exact next_of_pos (by simp [fw, live, step])
  · exact next_of_neg (by simpa [and_assoc] using idle)
  · obtain ⟨fw, step, state⟩ := due
    refine (next_of_pos (by simpa [fw, step, or_assoc] using state)).trans (next_of_pos ?_)
    rw [Bool.not_eq_true', Bool.eq_false_iff]
    exact fun ok => unfit ((DriveReport.fit_iff r _).mp ok)
  · obtain ⟨fw, step, state⟩ := due
    refine (next_of_pos (by simpa [fw, step, or_assoc] using state)).trans (next_of_neg ?_)
    rw [Bool.not_eq_true', Bool.not_eq_false]
    exact (DriveReport.fit_iff r _).mpr fit
  · refine next_of_neg fun h => idle ?_
    simpa [and_assoc, and_comm, or_assoc] using h
  · exact next_of_pos late
  · exact (next_of_neg early).trans ((next_of_pos linking).trans (congrArg Host.Outcome.next (State.trainFail_few (.inl linking) step few)))
  · exact (next_of_neg early).trans ((next_of_pos linking).trans (congrArg Host.Outcome.next (State.trainFail_last (.inl linking) step last)))
  · refine (next_of_neg early).trans ?_
    by_cases linking : s.bayState b = dbLinking
    · exact (next_of_pos linking).trans (next_of_neg fun h => idle ⟨linking, h.2⟩)
    · exact next_of_neg linking
  · obtain ⟨free, trained, io⟩ := heard
    exact congrArg Host.Outcome.next (State.driveCompletion_fits free trained io named fits)
  · obtain ⟨free, trained, io⟩ := heard
    exact congrArg Host.Outcome.next (State.driveCompletion_wrong free trained io wrong)
  · exact congrArg Host.Outcome.next (State.driveCompletion_unheard unheard)
  · refine ⟨fun closed => congrArg Host.Outcome.next (State.driveDma_closed closed), fun free trained => ⟨fun queues isWrite tail => ?_, fun queues read entries => ?_,
      fun queues wrong => ?_, fun outside list => ⟨fun c named listed => ?_, fun unlisted => ?_⟩,
      fun outside noList window => ⟨fun c named moves isWrite => ?_, fun c named moves read => ?_, fun still => ?_⟩, fun outside below => ?_⟩⟩
    · exact congrArg Host.Outcome.next ((State.driveDma_queues free trained queues).trans ((if_pos isWrite).trans (if_pos tail)))
    · exact congrArg Host.Outcome.next ((State.driveDma_queues free trained queues).trans ((if_neg (Bool.eq_false_iff.mp read)).trans (if_pos entries)))
    · refine congrArg Host.Outcome.next ((State.driveDma_queues free trained queues).trans ?_)
      by_cases isWrite : write = true
      · exact (if_pos isWrite).trans (if_neg (Nat.not_le.mpr (wrong.mp isWrite)))
      · exact (if_neg isWrite).trans (if_neg fun entries => isWrite (wrong.mpr entries))
    · exact congrArg Host.Outcome.next ((State.driveDma_list free trained outside list).trans (State.listDma_read named listed))
    · exact congrArg Host.Outcome.next ((State.driveDma_list free trained outside list).trans (State.listDma_refused unlisted))
    · exact congrArg Host.Outcome.next ((State.driveDma_data free trained outside (Nat.not_le.mpr noList) window).trans
        ((State.dataDma_moves named moves).trans (if_pos isWrite)))
    · exact congrArg Host.Outcome.next ((State.driveDma_data free trained outside (Nat.not_le.mpr noList) window).trans
        ((State.dataDma_moves named moves).trans (if_neg (Bool.eq_false_iff.mp read))))
    · exact congrArg Host.Outcome.next ((State.driveDma_data free trained outside (Nat.not_le.mpr noList) window).trans (State.dataDma_refused still))
    · exact congrArg Host.Outcome.next (State.driveDma_nowhere free trained outside (Nat.not_le.mpr below))
  · have runs : exec (.containmentTrigger b cause ref) s = .next (if cause.val = 0 then s
        else if cause.val = 5 ∧ s.online b then ((s.contain b 5).cntDrv 10 1).bayWant b (.failed 6) else s.contain b cause) := by
      have kept : ¬ (ref && cause.val == 1) = true := by
        rcases lost with h | h <;> simp [h]
      have same : (if ref && cause.val == 1 then s.clockSet 5 (b.val * s.fullWidth / 32) false else s) = s := if_neg kept
      exact congrArg Host.Outcome.next (by simp only [same])
    refine ⟨fun online free => ⟨fun some_ other => ?_, fun dma => ?_⟩, fun online held dma => ?_, fun idle => ?_⟩
    · exact runs.trans ((next_of_neg (by omega)).trans ((next_of_neg fun h => other h.1).trans
        (congrArg Host.Outcome.next (State.contain_online online free _))))
    · refine runs.trans ((next_of_neg (by omega)).trans ((next_of_pos ⟨dma, online⟩).trans ?_))
      rw [State.contain_online online free]
    · refine runs.trans ((next_of_neg (by omega)).trans ((next_of_pos ⟨dma, online⟩).trans ?_))
      rw [State.contain_idle (.inr held)]
    · refine runs.trans ?_
      by_cases zero : cause.val = 0
      · exact next_of_pos zero
      · refine (next_of_neg zero).trans ((next_of_neg ?_).trans (congrArg Host.Outcome.next (State.contain_idle ?_ _)))
        · rintro ⟨dma, online⟩
          rcases idle with h | h | h
          · exact zero h
          · exact Bool.false_ne_true (h.symm.trans online)
          · exact h.2 dma
        · rcases idle with h | h | h
          · exact absurd h zero
          · exact .inl h
          · exact .inr h.1
  · exact ⟨fun due => next_of_pos due, fun idle => next_of_neg idle, fun spent => next_of_pos spent, fun idle => next_of_neg idle⟩
  · refine ⟨fun fw online => ?_, fun fw offline smbus => ?_, fun idle => ?_⟩
    · have polls (v : State) (r : exec (.smartPoll b w temp) s = .next
          (if (natBit w.toNat 2 || natBit w.toNat 3) && v.flag Reg.DRV_CFG Fd.DRV_CFG_HEALTH_FAIL then v.bayWant b (.failed 7) else v)) :
          ((natBit w.toNat 2 || natBit w.toNat 3) = true ∧ v.flag Reg.DRV_CFG Fd.DRV_CFG_HEALTH_FAIL = true →
            exec (.smartPoll b w temp) s = .next (v.bayWant b (.failed 7)))
          ∧ (¬ ((natBit w.toNat 2 || natBit w.toNat 3) = true ∧ v.flag Reg.DRV_CFG Fd.DRV_CFG_HEALTH_FAIL = true) →
            exec (.smartPoll b w temp) s = .next v) :=
        ⟨fun fails => r.trans (next_of_pos (Bool.and_eq_true_iff.mpr fails)), fun fine => r.trans (next_of_neg fun h => fine (Bool.and_eq_true_iff.mp h))⟩
      have goes := exec_smartPoll_online (b := b) (w := w) (temp := temp) fw online
      unfold State.pollShown at goes
      by_cases told : w.toNat ≠ (s.bay b).warning ∧ (natBit w.toNat 0 || natBit w.toNat 1 || natBit w.toNat 4) = true
      · simp only [if_pos told] at goes
        obtain ⟨fails, fine⟩ := polls _ goes
        exact ⟨fun _ => fails, fun _ => fine, fun untold => absurd told untold, fun untold => absurd told untold⟩
      · simp only [if_neg told] at goes
        obtain ⟨fails, fine⟩ := polls _ goes
        exact ⟨fun h => absurd h told, fun h => absurd h told, fun _ => fails, fun _ => fine⟩
    · exact (next_of_neg (by rw [fw]; decide)).trans ((next_of_neg (by rw [offline]; decide)).trans (next_of_pos smbus))
    · by_cases fw : s.fwRuns = true
      · obtain ⟨offline, smbus⟩ := idle.resolve_left (by rw [fw]; decide)
        exact (next_of_neg (by rw [fw]; decide)).trans ((next_of_neg (by rw [offline]; decide)).trans (next_of_neg (by rw [smbus]; decide)))
      · exact next_of_pos (by simpa using fw)

end Sys2Proof.Machine

/-! ## Bay power (13 R386 to R408, Table 13-8) -/

namespace Sys2Proof.Machine

open Sys2Proof

variable {s u : State}

/-! ### Timers of a bay -/

theorem exec_cycleOffExpire {b : Fin 128} {n : Nat} {e : Option Desc} (cycle : (s.pw b).cycle = some (n, e)) :
    exec (.bayCycleOffExpire b) s = .next
      (if n ≤ 1 then ((((s.updPw b fun x => { x with cycle := none }).request b).pwDone b e St.OK)).startAll else s) := by
  refine (congrArg Host.Outcome.next ?_ : execBayCycleOffExpire b s = _)
  simp only [State.cycleEnd, cycle]

theorem exec_cycleOffExpire_waits {b : Fin 128} (waits : ∀ n e, (s.pw b).cycle = some (n, e) → 1 < n) : exec (.bayCycleOffExpire b) s = .next s := by
  cases cycle : (s.pw b).cycle with
  | none =>
    refine (congrArg Host.Outcome.next ?_ : execBayCycleOffExpire b s = _)
    rw [cycle]
  | some off => exact (exec_cycleOffExpire cycle).trans (next_of_neg (Nat.not_le.mpr (waits off.1 off.2 cycle)))

/-! ### BAY_POWER -/

section

variable {d : Desc}

/-- The operands of BAY_POWER are in form. -/
def Desc.bayForm (d : Desc) : Bool :=
  decide (d.handle < 128) && d.reservedZero [(8, 1), (10, 2), (12, 1), (13, 1)] && decide (d.f 8 1 ≤ 4)
    && (if d.f 8 1 = 2 then decide (100 ≤ d.f 10 2) && decide (d.f 10 2 ≤ 60000) else d.f 10 2 == 0)
    && (if d.f 8 1 = 4 then decide (d.f 12 1 ≤ 3) && decide (d.f 13 1 ≤ 3) else d.f 12 2 == 0)

theorem Desc.bayForm_iff (d : Desc) : Desc.bayForm d = true ↔
    d.handle < 128 ∧ d.reservedZero [(8, 1), (10, 2), (12, 1), (13, 1)] = true ∧ d.f 8 1 ≤ 4
      ∧ (d.f 8 1 = 2 → 100 ≤ d.f 10 2 ∧ d.f 10 2 ≤ 60000) ∧ (d.f 8 1 ≠ 2 → d.f 10 2 = 0)
      ∧ (d.f 8 1 = 4 → d.f 12 1 ≤ 3 ∧ d.f 13 1 ≤ 3) ∧ (d.f 8 1 ≠ 4 → d.f 12 2 = 0) := by
  unfold Desc.bayForm
  by_cases cycle : d.f 8 1 = 2
  · simp [cycle, and_assoc]
  · by_cases led : d.f 8 1 = 4
    · simp [led, and_assoc]
    · simp [cycle, led, and_assoc]

/-- The LEDs of the bay are the SMBus's. -/
def State.ledsTaken (u : State) (d : Desc) : Bool :=
  u.bayExists (d.handle % 128) && d.f 8 1 == 4 && u.flag (Reg.DRV_BAY_CFG (d.handle % 128)) Fd.DRV_BAY_CFG_SMBUS_EN

/-- The checks of Table 13-8 in their order. -/
def State.bayChecks (u : State) (d : Desc) : List (Bool × Nat) :=
  let b := d.handle % 128
  let on := d.f 8 1 == 1 || d.f 8 1 == 2
  [(Desc.bayForm d, St.GEN_FIELD), (u.bayExists b, St.BAY_NO_BAY), (!on || u.curveValid b, St.BAY_CURVE_INVALID),
   (!on || u.pwSt b != bayDamaged, St.BAY_DAMAGED_STATE), (d.f 8 1 != 1 || u.pwSt b != bayLatched, St.GEN_STATE),
   (d.f 8 1 != 1 || u.bayPresent b, St.BAY_NOT_PRESENT), (d.f 8 1 != 3 || u.pwSt b == bayDamaged || u.pwSt b == bayLatched, St.GEN_STATE)]

theorem bayPower_eq (d : Desc) (u : State) : bayPower d u =
    if Desc.bayForm d && u.ledsTaken d then u.complete d St.CFG_CONFLICT (12 + 0xFF * 256) (Reg.DRV_BAY_CFG (d.handle % 128)) 0
    else u.checked d (u.bayChecks d) fun s => s.defer d := by
  unfold State.ledsTaken
  rw [← Bool.and_assoc, ← Bool.and_assoc]
  rfl

theorem bayPower_taken (form : Desc.bayForm d = true) (taken : u.ledsTaken d = true) :
    bayPower d u = u.complete d St.CFG_CONFLICT (12 + 0xFF * 256) (Reg.DRV_BAY_CFG (d.handle % 128)) 0 :=
  (bayPower_eq d u).trans (if_pos (Bool.and_eq_true_iff.mpr ⟨form, taken⟩))

theorem bayPower_formless (formless : Desc.bayForm d = false) : bayPower d u = u.done d St.GEN_FIELD := by
  rw [bayPower_eq, formless, Bool.false_and, if_neg (by decide)]
  simp only [State.checked, State.bayChecks, firstFail, formless, Bool.false_eq_true, if_false]

/-- With the form passed and the LEDs its own, the first of the other checks that fails gives the status. -/
theorem bayPower_checked (form : Desc.bayForm d = true) (free : u.ledsTaken d = false) {st : Option Nat} (fails : firstFail (u.bayChecks d).tail = st) :
    bayPower d u = match st with | some st => u.done d st | none => u.defer d := by
  rw [bayPower_eq, free, Bool.and_false, if_neg (by decide)]
  have first : firstFail (u.bayChecks d) = st := by
    rw [← fails]
    simp only [State.bayChecks, firstFail, form, if_true, List.tail_cons]
  rw [State.checked, first]
  cases st <;> rfl

end

/-- Settles O44: each timer acts exactly when it is due, and BAY_POWER ends with the first check of Table 13-8 that fails. -/
theorem bayPowerIsEvaluated : Obligations.BayPowerIsEvaluated := by
  unfold Obligations.BayPowerIsEvaluated
  refine ⟨fun s b => ⟨⟨fun due => next_of_pos due, fun idle => next_of_neg idle⟩, ⟨fun due drives => ?_, fun due follows => ?_, fun idle => ?_⟩,
    ⟨fun due => next_of_pos due, fun idle => next_of_neg idle⟩, ⟨fun due => next_of_pos due, fun idle => next_of_neg idle⟩,
    fun n e ended cycle => (exec_cycleOffExpire cycle).trans (next_of_pos ended), exec_cycleOffExpire_waits⟩, fun s u d takes hu => ?_⟩
  · exact (next_of_neg (not_or.mpr ⟨due.1, Nat.not_lt.mpr due.2⟩)).trans (next_of_neg (by rw [drives]; decide))
  · exact (next_of_neg (not_or.mpr ⟨due.1, Nat.not_lt.mpr due.2⟩)).trans (next_of_pos (by rw [follows]; rfl))
  · refine next_of_pos ?_
    by_contra h
    obtain ⟨differs, held⟩ := not_or.mp h
    exact idle ⟨differs, Nat.not_lt.mp held⟩
  · subst hu
    have runs : exec .bayPower s = .next (bayPower d (s.start d)) := congrArg Host.Outcome.next (State.ringCmd_alone takes (by decide) _)
    rw [runs]
    generalize s.start d = u
    intro b op form bays turnsOn taken no
    have formIff : Desc.bayForm d = true ↔ form := Desc.bayForm_iff d
    have takenIff : u.ledsTaken d = true ↔ taken := by
      rw [State.ledsTaken, Bool.and_eq_true, Bool.and_eq_true, beq_iff_eq, and_assoc]
      exact and_congr decide_eq_true_iff Iff.rfl
    have exists_ (bay : b < bays) : u.bayExists (d.handle % 128) = true := decide_eq_true bay
    refine ⟨fun inForm leds => congrArg Host.Outcome.next (bayPower_taken (formIff.mpr inForm) (takenIff.mpr leds)),
      fun formless => congrArg Host.Outcome.next (bayPower_formless (Bool.eq_false_iff.mpr (mt formIff.mp formless))), fun inForm noBay => ?_,
      fun inForm bay own => ?_⟩
    · have absent : u.bayExists (d.handle % 128) = false := decide_eq_false (Nat.not_lt.mpr noBay)
      have free : u.ledsTaken d = false := Bool.eq_false_iff.mpr (mt takenIff.mp fun leds => absurd leds.1 (Nat.not_lt.mpr noBay))
      exact congrArg Host.Outcome.next (bayPower_checked (formIff.mpr inForm) free (st := some _) (by simp [State.bayChecks, firstFail, absent]))
    · have free : u.ledsTaken d = false := Bool.eq_false_iff.mpr (mt takenIff.mp own)
      have fails (st : Nat) (h : firstFail (u.bayChecks d).tail = some st) : no st :=
        congrArg Host.Outcome.next (bayPower_checked (formIff.mpr inForm) free h)
      have passes (h : firstFail (u.bayChecks d).tail = none) : (Host.Outcome.next (bayPower d u) : Host.Outcome State Fault Refusal) = .next (u.defer d) :=
        congrArg Host.Outcome.next (bayPower_checked (formIff.mpr inForm) free h)
      have here : u.bayExists b = true := exists_ bay
      have bayIs : d.handle % 128 = b := rfl
      have code : d.f 8 1 = op := rfl
      unfold State.bayChecks at fails passes
      simp only [bayIs, code, List.tail_cons] at fails passes
      refine ⟨fun on invalid => fails _ ?_, fun on valid damaged => fails _ ?_, fun on valid latched => fails _ ?_,
        fun on valid whole unlatched absent => fails _ ?_, fun on valid whole unlatched present => passes ?_, fun cycle valid whole => passes ?_,
        fun clear whole unlatched => fails _ ?_, fun clear hurt => passes ?_, fun other => passes ?_⟩
      · rcases on with on | on <;> simp [firstFail, here, on, invalid]
      · rcases on with on | on <;> simp [firstFail, here, on, valid, damaged]
      · simp [firstFail, here, on, valid, latched, bayLatched, bayDamaged]
      · simp [firstFail, here, on, valid, whole, unlatched, absent]
      · simp [firstFail, here, on, valid, whole, unlatched, present]
      · simp [firstFail, here, cycle, valid, whole]
      · simp [firstFail, here, clear, whole, unlatched]
      · rcases hurt with hurt | hurt <;> simp [firstFail, here, clear, hurt]
      · rcases other with other | other <;> simp [firstFail, here, other]

end Sys2Proof.Machine

/-! ## The shelf (13 R385; 14 R410 to R428) -/

namespace Sys2Proof.Machine

open Sys2Proof

variable {s u : State}

/-! ### Dumps that are ordered -/

/-- No dump is ordered, and none has ended. -/
def State.dumpFree (s : State) : Prop := s.itn.dumpDue = 0 ∧ s.itn.stopped = false

theorem State.orderDump_free (free : s.dumpFree) (why : Nat) : s.orderDump why = { s with itn := { s.itn with dumpDue := why } } :=
  if_neg (not_or.mpr ⟨not_not.mpr free.1, Bool.eq_false_iff.mp free.2⟩)

theorem State.dumpFree_not_busy (free : s.dumpFree) : ¬ (s.itn.dumpDue != 0 || s.itn.stopped) = true := by
  simp [free.1, free.2]

theorem State.busy_of_not_dumpFree (busy : ¬ s.dumpFree) : (s.itn.dumpDue != 0 || s.itn.stopped) = true := by
  unfold State.dumpFree at busy
  by_cases due : s.itn.dumpDue = 0
  · simpa [due] using busy
  · simp [due]

theorem State.critShutdown_ordered (free : s.dumpFree) (drives : s.drives = true) :
    s.critShutdown = { s with itn := { s.itn with dumpDue := 2 }, env := { s.env with critical := true } } := by
  rw [State.critShutdown, if_neg (by simp [drives, free.1, free.2]), State.orderDump_free free]

theorem State.critShutdown_idle (idle : ¬ s.dumpFree ∨ s.drives = false) : s.critShutdown = s := by
  refine if_pos ?_
  rcases idle with busy | follows
  · rw [Bool.or_assoc, State.busy_of_not_dumpFree busy, Bool.or_true]
  · simp [follows]

/-- The state in which the loss of input power is shown. -/
def State.inputLost (s : State) : State :=
  ({ s with env := { s.env with low := true, highTick := none } } : State).setFld Reg.ENV_HOLD_STATUS Fd.ENV_HOLD_STATUS_PF 1

theorem State.powerFail_eq (s : State) : s.powerFail =
    (if s.inputLost.itn.dumpDue != 0 || s.inputLost.itn.stopped then s.inputLost
     else (s.inputLost.orderDump 1).setFld Reg.ENV_STATUS Fd.ENV_STATUS_DUTY
      (percent (s.inputLost.fld Reg.ENV_CFG Fd.ENV_CFG_DUMP_DUTY))).chargerSwitch := rfl

theorem State.powerFail_ordered (free : s.inputLost.dumpFree) :
    let u : State := { s.inputLost with itn := { s.inputLost.itn with dumpDue := 1 } }
    s.powerFail = (u.setFld Reg.ENV_STATUS Fd.ENV_STATUS_DUTY (percent (u.fld Reg.ENV_CFG Fd.ENV_CFG_DUMP_DUTY))).chargerSwitch := by
  rw [State.powerFail_eq, if_neg (State.dumpFree_not_busy free), State.orderDump_free free]
  rfl

theorem State.powerFail_busy (busy : ¬ s.inputLost.dumpFree) : s.powerFail = s.inputLost.chargerSwitch := by
  rw [State.powerFail_eq, if_pos (State.busy_of_not_dumpFree busy)]

/-! ### The bank and its charger -/

/-- The bank is too low for the headers of the dump that runs. -/
def State.dumpFalls (s : State) (x : Dump) : Prop :=
  x.phase < 3 ∧ s.fld Reg.ENV_HOLD_STATUS Fd.ENV_HOLD_STATUS_V < s.fld Reg.ENV_HOLD_V Fd.ENV_HOLD_V_V_MIN

/-- The state after the two measurements of an evaluation. -/
def State.measured (s : State) (vbus hold : Nat) : State :=
  let a := s.setFld Reg.ENV_VBUS Fd.ENV_VBUS_VBUS (min 0xFFFF (vbus * s.fld1 Reg.ENV_SENSE Fd.ENV_SENSE_VBUS_GAIN / 64))
  a.setFld Reg.ENV_HOLD_STATUS Fd.ENV_HOLD_STATUS_V (min 0xFFFF (hold * a.fld1 Reg.ENV_SENSE Fd.ENV_SENSE_HOLD_GAIN / 64))

/-- A dump that runs notes a bank that has fallen too low. -/
def State.bankNoted (s : State) : State :=
  match s.env.dump with
  | some x => if x.phase < 3 ∧ s.fld Reg.ENV_HOLD_STATUS Fd.ENV_HOLD_STATUS_V < s.fld Reg.ENV_HOLD_V Fd.ENV_HOLD_V_V_MIN
      then { s with env := { s.env with dump := some { x with low := true } } } else s
  | none => s

theorem State.bankNoted_falls {x : Dump} (dump : s.env.dump = some x) (falls : s.dumpFalls x) :
    s.bankNoted = { s with env := { s.env with dump := some { x with low := true } } } := by
  unfold State.bankNoted
  rw [dump]
  exact if_pos falls

theorem State.bankNoted_holds (holds : ∀ x, s.env.dump = some x → ¬ s.dumpFalls x) : s.bankNoted = s := by
  unfold State.bankNoted
  cases dump : s.env.dump with
  | none => rfl
  | some x => exact if_neg (holds x dump)

/-- The rest of an evaluation: the charger and the bays. -/
def State.evaluated (s : State) (bays : List BaySample) : State :=
  ((List.range 128).foldl (fun (s : State) b => s.bayEval b (bays.getD b BaySample.zero)) s.chargerSwitch.chargerTimeout).startAll

theorem exec_bayEvaluation (s : State) (vbus hold : Fin 4096) (bays : List BaySample) :
    exec (.bayEvaluation vbus hold bays) s = .next ((s.measured vbus hold).bankNoted.evaluated bays) := rfl

/-- A charger that has run too long is due to be a FAULT. -/
def State.chargerLate (s : State) : Prop :=
  (∃ t, s.env.chargeTick = some t ∧ s.msSince t (1000 * s.fld1 Reg.ENV_HOLD_CHG Fd.ENV_HOLD_CHG_CHG_TIMEOUT) = true)
    ∧ s.fld Reg.ENV_HOLD_STATUS Fd.ENV_HOLD_STATUS_V < s.fld Reg.ENV_HOLD_V Fd.ENV_HOLD_V_V_OFF

theorem State.chargerTimeout_late (late : s.chargerLate) :
    s.chargerTimeout = (((s.setFld Reg.ENV_HOLD_STATUS Fd.ENV_HOLD_STATUS_FAULT 1).setCharge false).cntEnv 5 1).readyUpdate true := by
  obtain ⟨⟨t, charging, long⟩, low⟩ := late
  unfold State.chargerTimeout
  rw [charging]
  exact if_pos (Bool.and_eq_true_iff.mpr ⟨long, decide_eq_true low⟩)

theorem State.chargerTimeout_early (early : ¬ s.chargerLate) : s.chargerTimeout = s := by
  unfold State.chargerTimeout
  cases charging : s.env.chargeTick with
  | none => rfl
  | some t =>
    refine if_neg fun h => early ?_
    obtain ⟨long, low⟩ := Bool.and_eq_true_iff.mp h
    exact ⟨⟨t, charging, long⟩, of_decide_eq_true low⟩

/-! ### ENV_SET -/

section

variable {d : Desc}

/-- The operands of ENV_SET are in form. -/
def Desc.envForm (d : Desc) : Bool :=
  d.handle == 0 && d.reservedZero [(8, 1), (10, 2)] && decide (d.f 8 1 ≤ 2) && decide (d.f 10 2 ≤ 1024) && (d.f 8 1 == 1 || d.f 10 2 == 0)

theorem Desc.envForm_iff (d : Desc) : Desc.envForm d = true ↔
    d.handle = 0 ∧ d.reservedZero [(8, 1), (10, 2)] = true ∧ d.f 8 1 ≤ 2 ∧ d.f 10 2 ≤ 1024 ∧ (d.f 8 1 ≠ 1 → d.f 10 2 = 0) := by
  unfold Desc.envForm
  by_cases sets : d.f 8 1 = 1
  · simp [sets, and_assoc]
  · simp [sets, and_assoc]

theorem envSet_formless (formless : Desc.envForm d = false) : envSet d s = s.done d St.GEN_FIELD := by
  unfold Desc.envForm at formless
  simp only [envSet, State.checked, firstFail, formless, Bool.false_eq_true, if_false]

theorem envSet_busy (form : Desc.envForm d = true) (down : d.f 8 1 = 2) (busy : ¬ s.dumpFree) : envSet d s = s.done d St.ENV_DUMP_ACTIVE := by
  have active : (s.itn.dumpDue == 0 && !s.itn.stopped) = false := by
    have ordered := State.busy_of_not_dumpFree busy
    rw [Bool.or_eq_true] at ordered
    rcases ordered with due | stopped
    · rw [beq_eq_false_iff_ne.mpr (bne_iff_ne.mp due), Bool.false_and]
    · rw [stopped, Bool.not_true, Bool.and_false]
  unfold Desc.envForm at form
  simp only [envSet, State.checked, firstFail, form, if_true]
  simp only [down, active, bne_self_eq_false, Bool.or_self, Bool.false_eq_true, if_false]

theorem envSet_passed (form : Desc.envForm d = true) (free : d.f 8 1 ≠ 2 ∨ s.dumpFree) :
    envSet d s = if d.f 8 1 = 2 then { s.orderDump 2 with env := { s.env with shutdown := some d } }
      else { s with env := { s.env with setDue := s.env.setDue ++ [(if d.f 8 1 = 1 then some (d.f 10 2) else none, d)] } } := by
  unfold Desc.envForm at form
  unfold envSet
  refine (State.checked_of_all ?_).trans rfl
  rcases free with other | free
  · simp [form, other]
  · simp [form, free.1, free.2]

end

/-- Settles O45: each row of the shelf acts exactly when it is due, and ENV_SET ends with the first check that fails. -/
theorem theShelfIsKept : Obligations.TheShelfIsKept := by
  unfold Obligations.TheShelfIsKept
  refine ⟨fun s vbus hold bays => ⟨fun x dump falls => ?_, fun holds => ?_⟩, fun s x => ⟨fun runs => ?_, fun down => ?_⟩,
    fun s f => ⟨fun due good => ?_, fun due bad => ?_, fun idle => ?_, fun idle => ?_⟩,
    fun s => ⟨fun due => congrArg Host.Outcome.next (State.chargerTimeout_late due), fun early => congrArg Host.Outcome.next (State.chargerTimeout_early early)⟩,
    fun s w => ⟨fun ready fault one => ?_, fun ready idle => ?_, fun notReady => ?_⟩,
    fun s => ⟨fun free crit drives => ?_, fun idle => ?_, fun free => congrArg Host.Outcome.next (State.powerFail_ordered free),
      fun busy => congrArg Host.Outcome.next (State.powerFail_busy busy)⟩,
    fun s => ⟨fun due => ?_, fun idle => ?_⟩, fun s => ⟨fun low => next_of_pos low, fun high => next_of_neg (Bool.eq_false_iff.mp high)⟩,
    fun s u d takes hu => ?_⟩
  · have noted := State.bankNoted_falls (s := s.measured vbus hold) dump falls
    exact (exec_bayEvaluation ..).trans (congrArg (fun v => Host.Outcome.next (State.evaluated v bays)) noted)
  · have noted := State.bankNoted_holds (s := s.measured vbus hold) holds
    exact (exec_bayEvaluation ..).trans (congrArg (fun v => Host.Outcome.next (State.evaluated v bays)) noted)
  · exact next_of_neg (Bool.eq_false_iff.mp runs)
  · exact next_of_pos down
  · obtain ⟨present, asks, long⟩ := due
    exact next_of_pos (by simp [present, asks, good, fanSteps, long])
  · obtain ⟨present, asks, long⟩ := due
    exact next_of_pos (by simp [present, asks, bad, fanSteps, long])
  · refine next_of_neg fun h => ?_
    simp only [Bool.and_eq_true, Bool.not_eq_true', decide_eq_true_eq] at h
    obtain ⟨⟨⟨present, good⟩, asks⟩, long⟩ := h
    exact idle.elim (fun no => no ⟨present, asks, long⟩) (fun bad => Bool.false_ne_true (good.symm.trans bad))
  · refine next_of_neg fun h => ?_
    simp only [Bool.and_eq_true, decide_eq_true_eq] at h
    obtain ⟨⟨⟨present, bad⟩, asks⟩, long⟩ := h
    exact idle.elim (fun no => no ⟨present, asks, long⟩) (fun good => Bool.false_ne_true (good.symm.trans bad))
  · exact congrArg Host.Outcome.next ((State.hostWrite_ready ready _ _).trans ((if_pos one).trans (if_neg (by rw [fault]; decide))))
  · refine congrArg Host.Outcome.next ((State.hostWrite_ready ready _ _).trans ?_)
    by_cases one : Fd.ENV_HOLD_STATUS_FAULT.get w = 1
    · exact (if_pos one).trans (if_pos (by rw [idle.resolve_right (not_not.mpr one)]; rfl))
    · exact if_neg one
  · exact next_of_neg (by rw [notReady]; decide)
  · exact (next_of_pos crit).trans (congrArg Host.Outcome.next (State.critShutdown_ordered free drives))
  · by_cases crit : s.critFor 99 = true
    · refine (next_of_pos crit).trans (congrArg Host.Outcome.next (State.critShutdown_idle ?_))
      exact idle.imp_right fun h => h.resolve_left (by rw [crit]; decide)
    · exact next_of_neg crit
  · obtain ⟨late, first, drives⟩ := due
    exact next_of_pos (by simp [late, first, drives])
  · exact next_of_neg (by simpa [and_assoc] using idle)
  · subst hu
    have runs : exec .envSet s = .next (envSet d (s.start d)) := congrArg Host.Outcome.next (State.ringCmd_alone takes (by decide) _)
    rw [runs]
    generalize s.start d = u
    intro op duty form busy
    have formIff : Desc.envForm d = true ↔ form := Desc.envForm_iff d
    have freeIff : u.dumpFree ↔ ¬ busy := by simp [State.dumpFree, busy]
    refine ⟨fun formless => ?_, fun inForm clear => ?_, fun inForm sets => ?_, fun inForm down active => ?_, fun inForm down idle => ?_⟩
    · exact congrArg Host.Outcome.next (envSet_formless (Bool.eq_false_iff.mpr (mt formIff.mp formless)))
    · refine congrArg Host.Outcome.next ((envSet_passed (formIff.mpr inForm) (.inl ?_)).trans ?_)
      · show op ≠ 2
        omega
      · have code : d.f 8 1 = 0 := clear
        simp only [code, if_neg (by decide : ¬ 0 = 2), if_neg (by decide : ¬ 0 = 1)]
    · refine congrArg Host.Outcome.next ((envSet_passed (formIff.mpr inForm) (.inl ?_)).trans ?_)
      · show op ≠ 2
        omega
      · have code : d.f 8 1 = 1 := sets
        simp only [code, if_neg (by decide : ¬ 1 = 2), if_true]
        rfl
    · exact congrArg Host.Outcome.next (envSet_busy (formIff.mpr inForm) down (mt freeIff.mp (not_not.mpr active)))
    · have free := freeIff.mpr idle
      refine congrArg Host.Outcome.next ((envSet_passed (formIff.mpr inForm) (.inr free)).trans ((if_pos down).trans ?_))
      rw [State.orderDump_free free]

end Sys2Proof.Machine

/-! ## The dump (01 R26; 02 R65; 09 R295; 14 R424 to R428) -/

namespace Sys2Proof.Machine

open Sys2Proof

variable {s u : State}

/-! ### Steps of the dump -/

section

variable {k : Nat} {x : Dump}

theorem State.dumpStep_off (off : s.dumpsOn k = false ∨ s.env.dump = none) : s.dumpStep k = s := by
  unfold State.dumpStep
  by_cases serves : s.dumpsOn k = true
  · refine (if_neg (by rw [serves]; decide)).trans ?_
    rw [off.resolve_left (by rw [serves]; decide)]
  · exact if_pos (by simpa using serves)

theorem State.dumpStep_waits (serves : s.dumpsOn k = true) (dump : s.env.dump = some x)
    (waits : s.now < x.entered + 2 ∨ x.jobs.find? (fun j => j.ready.isNone) = none) : s.dumpStep k = s := by
  unfold State.dumpStep
  refine (if_neg (by rw [serves]; decide)).trans ?_
  have noJob : (if s.now < x.entered + 2 then none else x.jobs.find? (fun j => j.ready.isNone)) = none := by
    by_cases early : s.now < x.entered + 2
    · exact if_pos early
    · exact (if_neg early).trans (waits.resolve_left early)
  simp only [dump, noJob]

theorem State.dumpStep_takes {j : DumpJob} (serves : s.dumpsOn k = true) (dump : s.env.dump = some x) (later : x.entered + 2 ≤ s.now)
    (first : x.jobs.find? (fun j => j.ready.isNone) = some j) :
    s.dumpStep k = (s.lanePost (8 * k) noClass (4096 * j.units)).updJob j.id fun j => { j with ready := some (s.now + 2), cluster := k } := by
  unfold State.dumpStep
  refine (if_neg (by rw [serves]; decide)).trans ?_
  simp only [dump, if_neg (Nat.not_lt.mpr later), first]

/-- A write of the dump that cluster `k` can send. -/
def State.dumpSends (s : State) (k : Nat) (j : DumpJob) : Bool :=
  j.cluster == k && decide (j.sent < j.units) && (match j.ready with | some t => decide (t ≤ s.now) | none => false)

/-- One of the eight submissions of a run for write `j` of the dump. -/
def State.dumpSend (j : DumpJob) (x : Dump) (s : State) : State :=
  match s.env.dump.bind fun x => x.jobs.find? (·.id == j.id) with
  | some j => if j.sent < j.units then s.dumpCmd x j else s
  | none => s

/-- A run that submits for a dump sends for the first write that it can send. -/
def State.submitFor (s : State) (x : Dump) : Option DumpJob → State
  | none => s
  | some j => (List.range 8).foldl (fun (s : State) _ => s.dumpSend j x) s

theorem State.dumpSubmit_dump (dump : s.env.dump = some x) : s.dumpSubmit k = s.submitFor x (x.jobs.find? (s.dumpSends k)) := by
  unfold State.dumpSubmit
  rw [dump]
  rfl

theorem State.dumpSubmit_none (noJob : ∀ x, s.env.dump = some x → x.jobs.find? (s.dumpSends k) = none) : s.dumpSubmit k = s := by
  cases dump : s.env.dump with
  | none => unfold State.dumpSubmit; rw [dump]
  | some x => rw [State.dumpSubmit_dump dump, noJob x dump]; rfl

theorem State.dumpSubmit_sends {j : DumpJob} (dump : s.env.dump = some x) (first : x.jobs.find? (s.dumpSends k) = some j) :
    s.dumpSubmit k = (List.range 8).foldl (fun (s : State) _ => s.dumpSend j x) s := by
  rw [State.dumpSubmit_dump dump, first]
  rfl

/-! ### Its end -/

theorem State.dumpWriteDone_none (running : ∀ x, s.env.dump = some x → x.jobs.find? (fun j => j.finished == j.units) = none) :
    s.dumpWriteDone = s := by
  unfold State.dumpWriteDone
  cases dump : s.env.dump with
  | none => rfl
  | some x => simp only [running x dump]

theorem State.dumpWriteDone_ends {j : DumpJob} (dump : s.env.dump = some x) (ended : x.jobs.find? (fun j => j.finished == j.units) = some j) :
    s.dumpWriteDone = s.jobEnd x j := by
  unfold State.dumpWriteDone
  simp only [dump, ended]

/-- A write of the dump that has ended is counted. -/
def State.jobCounted (s : State) (x : Dump) (j : DumpJob) : State :=
  if j.bad = false then s.updDump fun x => if j.kind = 3 then { x with lines := x.lines + ((s.dumpLines.drop (32 * j.idx)).take 32).length } else x
  else if j.kind = 3 then s.satFld Reg.ENV_DUMP_ERR Fd.ENV_DUMP_ERR_CHUNKS 1
  else if j.kind = 4 then s.satFld Reg.ENV_DUMP_ERR Fd.ENV_DUMP_ERR_HEADERS 1
  else s.setFld Reg.ENV_DUMP_ERR Fd.ENV_DUMP_ERR_JOURNAL
    (setNatBit (s.fld Reg.ENV_DUMP_ERR Fd.ENV_DUMP_ERR_JOURNAL) (if x.copies.head? = some j.bay then 0 else 1) true)

theorem State.jobEnd_next {j : DumpJob} {y : Dump}
    (dump : ((s.jobCounted x j).updDump fun x => { x with jobs := x.jobs.filter (·.id != j.id) }).env.dump = some y) :
    let u := (s.jobCounted x j).updDump fun x => { x with jobs := x.jobs.filter (·.id != j.id) }
    s.jobEnd x j = if y.jobs.isEmpty then State.dumpPhase 4 (y.phase + 1) u else u := by
  unfold State.jobCounted at dump
  unfold State.jobCounted State.jobEnd
  simp only [Bool.not_eq_true', dump]

theorem exec_dumpComplete_none (running : ∀ x, s.env.dump = some x → x.phase ≠ 3) : exec .dumpComplete s = .next s := by
  refine (congrArg Host.Outcome.next ?_ : execDumpComplete s = _)
  cases dump : s.env.dump with
  | none => rfl
  | some x => exact if_neg (running x dump)

theorem exec_dumpComplete_ends (dump : s.env.dump = some x) (flushed : x.phase = 3) : exec .dumpComplete s = .next (s.dumpEnd x) := by
  refine (congrArg Host.Outcome.next ?_ : execDumpComplete s = _)
  rw [dump]
  exact if_pos flushed

end

/-! ### Submission and reaping outside a dump -/

section

variable {k : Fin 12} {c : Fin 256} {it : Item}

theorem State.drvSubmit_work {w : Work} (R : s.RunsWork k c Rt.drvSubmit u it w) : u.drvSubmit it = u.submitWork it w := by
  unfold State.drvSubmit
  simp only [R.ref, R.item]

theorem State.drvSubmit_wb {w : Nat} (R : s.RunsWb k c Rt.drvSubmit u it w) : u.drvSubmit it = u.readOn it w := by
  unfold State.drvSubmit
  simp only [R.ref]
  exact State.onWb_runs R _

theorem State.drvReap_work {w : Work} (R : s.RunsWork k c Rt.drvReap u it w) : u.drvReap it = u.reapWorkItem it w := by
  unfold State.drvReap
  simp only [R.ref, R.item]

theorem State.drvReap_wb {w : Nat} (ref : it.ref = .wb w) (taken : (u.wb w).st ≠ .free) :
    let v := (u.refLatched it.ref).foldl (State.reapRead w) u
    u.drvReap it = if !(v.refCmds it.ref).isEmpty then v.toReap it
      else if (v.wb w).cut || (v.wb w).st == .abandoned then v.cutOff it w else v.readOn it w := by
  simp only [State.drvReap, ref]
  exact if_neg taken

end

/-- Settles O46: a dump is entered only at a seam; each of its steps, submissions and reapings is its code in the case of the dump's writes; outside a dump
the runs serve their items. -/
theorem theDumpIsWritten : Obligations.TheDumpIsWritten := by
  unfold Obligations.TheDumpIsWritten
  refine ⟨fun s => ⟨fun seam due standby => ?_, fun seam due active => ?_, fun idle => ?_⟩,
    fun s k => ⟨fun off => congrArg Host.Outcome.next (State.dumpStep_off off), fun x serves dump =>
      ⟨fun waits => congrArg Host.Outcome.next (State.dumpStep_waits serves dump waits),
        fun j later first => congrArg Host.Outcome.next (State.dumpStep_takes serves dump later first)⟩⟩,
    fun s k c serves => ⟨fun noJob => ?_, fun x j dump first => ?_, ?_⟩,
    fun s k c off => ⟨fun idle => ?_, fun idle => ?_, fun u it w => ⟨fun R => ?_, fun R => ?_⟩, fun u it w R => ?_, fun u it w E ref taken => ?_⟩,
    fun s => ⟨fun running => congrArg Host.Outcome.next (State.dumpWriteDone_none running), fun x j dump ended => ?_⟩,
    fun s => ⟨exec_dumpComplete_none, fun x dump flushed => ?_⟩⟩
  · obtain ⟨ordered, outside, running⟩ := due
    exact (next_of_pos seam).trans ((next_of_pos ⟨ordered, Bool.eq_false_iff.mp outside, Bool.eq_false_iff.mp running⟩).trans (next_of_pos standby))
  · obtain ⟨ordered, outside, running⟩ := due
    exact (next_of_pos seam).trans ((next_of_pos ⟨ordered, Bool.eq_false_iff.mp outside, Bool.eq_false_iff.mp running⟩).trans
      (next_of_neg (Bool.eq_false_iff.mp active)))
  · by_cases seam : s.atSeam = true
    · refine (next_of_pos seam).trans (next_of_neg fun ⟨ordered, outside, running⟩ => ?_)
      exact idle.resolve_left (by rw [seam]; decide) ⟨ordered, Bool.eq_false_iff.mpr outside, Bool.eq_false_iff.mpr running⟩
    · exact next_of_neg seam
  · exact (next_of_pos serves).trans (congrArg Host.Outcome.next (State.dumpSubmit_none noJob))
  · exact (next_of_pos serves).trans (congrArg Host.Outcome.next (State.dumpSubmit_sends dump first))
  · refine (next_of_pos serves).trans (congrArg Host.Outcome.next ?_)
    unfold State.dumpReap
    rfl
  · exact (next_of_neg (Bool.eq_false_iff.mp off)).trans (congrArg Host.Outcome.next (State.run_none idle _))
  · exact (next_of_neg (Bool.eq_false_iff.mp off)).trans (congrArg Host.Outcome.next (State.run_none idle _))
  · exact (next_of_neg (Bool.eq_false_iff.mp off)).trans (congrArg Host.Outcome.next ((State.run_works R _).trans (State.drvSubmit_work R)))
  · exact (next_of_neg (Bool.eq_false_iff.mp off)).trans (congrArg Host.Outcome.next ((State.run_works R _).trans (State.drvReap_work R)))
  · exact (next_of_neg (Bool.eq_false_iff.mp off)).trans (congrArg Host.Outcome.next ((State.run_runs R _).trans (State.drvSubmit_wb R)))
  · have runs : exec (.drvReap k c) s = .next (u.drvReap it) :=
      (next_of_neg (Bool.eq_false_iff.mp off)).trans (congrArg Host.Outcome.next (State.run_enters E _))
    rw [State.drvReap_wb ref taken] at runs
    refine ⟨fun out => runs.trans (next_of_pos (notEmpty_of_ne_nil out)), fun back given => ?_, fun back whole => ?_⟩
    · exact runs.trans ((next_of_neg (not_notEmpty_of_eq_nil back)).trans (next_of_pos (by simpa using given)))
    · exact runs.trans ((next_of_neg (not_notEmpty_of_eq_nil back)).trans (next_of_neg (by simpa using whole)))
  · intro m t u y left
    exact congrArg Host.Outcome.next ((State.dumpWriteDone_ends dump ended).trans (State.jobEnd_next left))
  · have runs := exec_dumpComplete_ends dump flushed
    refine ⟨fun fatal => ?_, fun other => ?_⟩
    · exact runs.trans (next_of_pos (beq_iff_eq.mpr fatal))
    · exact runs.trans (next_of_neg (mt beq_iff_eq.mp other))

end Sys2Proof.Machine

/-! ## The pair link (15 R431 to R438) -/

namespace Sys2Proof.Machine

open Sys2Proof

variable {s u : State}

/-! ### Bundles -/

/-- The lock of a bundle is noted. -/
def State.lockNoted (s : State) (k : Nat) (rx lock : Bool) : State :=
  s.setPair fun p => if rx then { p with rxLock := setNatBit p.rxLock k lock } else { p with txLock := setNatBit p.txLock k lock }

/-- What a bundle does once its lock is noted. -/
def State.bundleActs (u : State) (k : Nat) : State :=
  let out := u.pair.rejoin.filter fun (e : Nat × Nat) => e.1 != k
  if !(natBit u.pair.rxLock k && natBit u.pair.txLock k) then
    (u.setPair fun p => { p with
      rejoin := out, dropped := if natBit (u.fld Reg.PAIR_LINK Fd.PAIR_LINK_BUNDLES) k then setNatBit p.dropped k true else p.dropped }).setStriping k false
  else if natBit u.pair.dropped k then u.setPair fun p => { p with rejoin := out ++ [(k, u.now)] }
  else u.setStriping k true

theorem State.bundleLock_eq (s : State) (k : Nat) (rx lock : Bool) : s.bundleLock k rx lock = ((s.lockNoted k rx lock).bundleActs k).linkCheck := rfl

section

variable {k : Nat}

theorem State.bundleActs_unlocked (unlocked : ¬ (natBit u.pair.rxLock k = true ∧ natBit u.pair.txLock k = true)) :
    u.bundleActs k = (u.setPair fun p => { p with
      rejoin := u.pair.rejoin.filter fun (e : Nat × Nat) => e.1 != k
      dropped := if natBit (u.fld Reg.PAIR_LINK Fd.PAIR_LINK_BUNDLES) k then setNatBit p.dropped k true else p.dropped }).setStriping k false :=
  if_pos (by rw [Bool.not_eq_true', Bool.eq_false_iff]; exact mt Bool.and_eq_true_iff.mp unlocked)

section

variable (both : natBit u.pair.rxLock k = true ∧ natBit u.pair.txLock k = true)
include both

theorem State.bundleActs_rejoins (dropped : natBit u.pair.dropped k = true) :
    u.bundleActs k = u.setPair fun p => { p with rejoin := (u.pair.rejoin.filter fun (e : Nat × Nat) => e.1 != k) ++ [(k, u.now)] } :=
  (if_neg (by rw [both.1, both.2]; decide)).trans (if_pos dropped)

theorem State.bundleActs_stripes (kept : natBit u.pair.dropped k = false) : u.bundleActs k = u.setStriping k true :=
  (if_neg (by rw [both.1, both.2]; decide)).trans (if_neg (Bool.eq_false_iff.mp kept))

end

end

theorem exec_bundleRejoin_due {k : Fin 16} {e : Nat × Nat} (waits : (s.pair.rejoin.find? fun (e : Nat × Nat) => e.1 == k.val) = some e)
    (due : s.msSince e.2 100 = true) : exec (.bundleRejoin k) s = .next ((s.setPair fun p => { p with
      rejoin := p.rejoin.filter fun (e : Nat × Nat) => e.1 != k.val, dropped := setNatBit p.dropped k.val false }).setStriping k.val true) := by
  refine (congrArg Host.Outcome.next ?_ : execBundleRejoin k s = _)
  rw [waits]
  exact if_pos due

theorem exec_bundleRejoin_waits {k : Fin 16}
    (early : ∀ e, (s.pair.rejoin.find? fun (e : Nat × Nat) => e.1 == k.val) = some e → ¬ s.msSince e.2 100 = true) :
    exec (.bundleRejoin k) s = .next s := by
  refine (congrArg Host.Outcome.next ?_ : execBundleRejoin k s = _)
  cases waits : s.pair.rejoin.find? fun (e : Nat × Nat) => e.1 == k.val with
  | none => rfl
  | some e => exact if_neg (early e waits)

/-- The link comes up. -/
def State.linkGoesUp (s : State) : State :=
  (s.setFld Reg.PAIR_LINK Fd.PAIR_LINK_UP 1).setPair fun p =>
    { p with linkDue := some 1, shareSent := false, seed := [], downTick := p.downTick <|> some s.now }

/-- The link goes down, before lockstep waits for it. -/
def State.linkGoesDown (s : State) : State :=
  ((s.unkey 1).setFld Reg.PAIR_LINK Fd.PAIR_LINK_UP 0).setPair fun p =>
    { p with linkDue := some 2, downTick := p.downTick <|> some (s.unkey 1).now, shareSent := false, seed := [] }

theorem State.linkCheck_same (same : s.bundlesUp = s.pairUp) : s.linkCheck = s := if_pos (beq_iff_eq.mpr same)

theorem State.linkCheck_up (bundles : s.bundlesUp = true) (down : s.pairUp = false) : s.linkCheck = s.linkGoesUp :=
  (if_neg (by rw [bundles, down]; decide)).trans (if_pos bundles)

theorem State.linkCheck_down (bundles : s.bundlesUp = false) (up : s.pairUp = true) : s.linkCheck =
    (if s.linkGoesDown.pairState == pairLocked || s.linkGoesDown.pairState == pairHolding then s.linkGoesDown.startWait 1 else s.linkGoesDown).joinAbort 4 :=
  (if_neg (by rw [bundles, up]; decide)).trans (if_neg (by rw [bundles]; decide))

/-! ### Zeroise markers -/

/-- A standby in lockstep begins to wait for the link. -/
def State.lossWaits (u : State) : State := if u.pairState = pairLocked ∨ u.pairState = pairHolding then u.startWait 1 else u

theorem exec_zeroiseMarker (up : s.pairUp = true) (code : Fin 7) : exec (.zeroiseMarker code) s = .next (State.lossWaits
    (if s.flag Reg.PAIR_CFG Fd.PAIR_CFG_ZERO_FOLLOW && code.val != 0 && code.val != 6 then s.zeroAlarm code.val else s.unkey 3)) := by
  refine (next_of_neg (by rw [up]; decide)).trans (congrArg Host.Outcome.next ?_)
  simp only [State.lossWaits, Bool.or_eq_true, beq_iff_eq]

/-! ### Frames that are opened -/

section

variable {typ : Nat} {bytes : List Byte}

theorem State.linkOpen_down (down : s.pairUp = false ∨ s.pairKeyed = false) : s.linkOpen typ bytes = (none, s) :=
  if_pos (by rcases down with h | h <;> simp [h])

/-- The form of a frame of a type. -/
def State.linkForm (u : State) (typ : Nat) (bytes : List Byte) : Prop :=
  leField bytes 0 1 = typ ∧ u.rightWay typ = true ∧ streamOk typ (leField bytes 1 1) = true

section

variable (up : s.pairUp = true) (keyed : s.pairKeyed = true)
include up keyed

theorem State.linkOpen_formless (formless : ¬ (s.cntPair 1 1).linkForm typ bytes) : s.linkOpen typ bytes = (none, (s.cntPair 1 1).cntPair 2 1) := by
  refine (if_neg (by simp [up, keyed])).trans (if_pos ?_)
  by_contra h
  obtain ⟨isTyp, way, stream⟩ := by simpa only [not_or, not_not, Bool.not_eq_false] using h
  exact formless ⟨isTyp, way, stream⟩

theorem State.linkOpen_keyless (keyless : (s.cntPair 1 1).epochKey (leField bytes 6 2) = none) :
    s.linkOpen typ bytes = (none, (s.cntPair 1 1).cntPair 2 1) := by
  by_cases form : (s.cntPair 1 1).linkForm typ bytes
  · refine (if_neg (by simp [up, keyed])).trans ((if_neg ?_).trans ?_)
    · obtain ⟨isTyp, way, stream⟩ := form
      simp [isTyp, way, stream]
    · rw [keyless]
  · exact State.linkOpen_formless up keyed form

/-- A frame in form, under the key of its epoch. -/
theorem State.linkOpen_keyed {key : List Byte} (form : (s.cntPair 1 1).linkForm typ bytes)
    (epoch : (s.cntPair 1 1).epochKey (leField bytes 6 2) = some key) :
    let u := s.cntPair 1 1
    let stream := leField bytes 1 1
    let v := u.epochSeen (leField bytes 6 2)
    let ahead := (leField bytes 2 2 + 65536 - v.fld (Reg.CHK_ALIVE stream) Fd.CHK_ALIVE_EXPECT) % 65536
    let r := v.alive stream (leField bytes 2 2)
    s.linkOpen typ bytes = match Config.gcmOpen key (linkIv (1 - u.slotNo) (leField bytes 8 8)) (bytes.take 16) (sliceB bytes 16 (leField bytes 4 2))
        (sliceB bytes (16 + leField bytes 4 2) 16) with
      | none => (none, u.cntPair 2 1)
      | some p => if stream = 0xFF then (some p, v) else if r.1 = true then (some p, r.2) else (none, if ahead < 0x8000 then r.2.gapOn stream else r.2) := by
  refine (if_neg (by simp [up, keyed])).trans ((if_neg ?_).trans ?_)
  · obtain ⟨isTyp, way, stream⟩ := form
    simp [isTyp, way, stream]
  · rw [epoch] <;> rfl

end

end

/-! ### The key exchange -/

section

variable {bytes : List Byte}

/-- Whether a key exchange of a rooted certificate of this part is signed by it and meets the pin. -/
def State.keyxFits (u : State) (k : Keyx) (c : DevCert) : Bool :=
  c.rooted && c.part == 0x9600 && c.stepping == 0xB0 && Config.ecdsaVerify c.key (Config.sha384 k.share) k.sigR k.sigS && u.pinOk c.ident

/-- What the key exchange that is read makes of the link. -/
def State.keyxTaken (u : State) (k : Keyx) : Option DevCert → State
  | none => u.setPair fun p => { p with linkDue := some 3 }
  | some c => (u.shareSend.peerSeen c.ident).keyLink k

/-- What a frame that is heard makes of the link: counted bad, a link that is taken, or a refusal. -/
def State.keyxHeard (u : State) : Option Keyx → State
  | none => u.cntPair 2 1
  | some k =>
    if u.keyxOk k then
      (match Config.devCert k.chain with | some c => u.shareSend.peerSeen c.ident | none => u.shareSend).keyLink k
    else u.setPair fun p => { p with linkDue := some 3 }

theorem State.keyxOk_none {k : Keyx} (cert : Config.devCert k.chain = none) : u.keyxOk k = false := by
  unfold State.keyxOk
  rw [cert]

theorem State.keyxOk_some {k : Keyx} {c : DevCert} (cert : Config.devCert k.chain = some c) : u.keyxOk k = u.keyxFits k c := by
  unfold State.keyxOk
  rw [cert]
  rfl

theorem State.keyxHeard_refused {k : Keyx} (bad : u.keyxOk k = false) : u.keyxHeard (some k) = u.setPair fun p => { p with linkDue := some 3 } :=
  if_neg (Bool.eq_false_iff.mp bad)

theorem State.keyxHeard_accepted {k : Keyx} {c : DevCert} (ok : u.keyxOk k = true) (cert : Config.devCert k.chain = some c) :
    u.keyxHeard (some k) = (u.shareSend.peerSeen c.ident).keyLink k := by
  refine (if_pos ok).trans ?_
  rw [cert]

/-- With the certificate's checks, a key exchange that is read is taken or refused. -/
theorem State.keyxHeard_some (u : State) (k : Keyx) : u.keyxHeard (some k) = u.keyxTaken k ((Config.devCert k.chain).filter (u.keyxFits k)) := by
  cases cert : Config.devCert k.chain with
  | none => exact State.keyxHeard_refused (State.keyxOk_none cert)
  | some c =>
    have ok := State.keyxOk_some (u := u) cert
    cases fits : u.keyxFits k c with
    | false =>
      rw [Option.filter_some_neg fits]
      exact State.keyxHeard_refused (ok.trans fits)
    | true =>
      rw [Option.filter_some_pos fits]
      exact State.keyxHeard_accepted (ok.trans fits) cert

theorem State.keyxIn_deaf (deaf : ¬ (s.pairUp = true ∧ s.pairKeyed = false ∧ s.fwRuns = true)) : s.keyxIn bytes = s := by
  refine if_pos ?_
  by_contra h
  obtain ⟨⟨up, keyed⟩, fw⟩ := by simpa only [Bool.or_eq_true, not_or, Bool.not_eq_true, Bool.not_eq_false'] using h
  exact deaf ⟨up, keyed, fw⟩

variable (up : s.pairUp = true) (unkeyed : s.pairKeyed = false) (fw : s.fwRuns = true)
include up unkeyed fw

theorem State.keyxIn_heard : s.keyxIn bytes = (s.cntPair 1 1).keyxHeard
    (if leField bytes 0 1 = lfKeyx then Config.keyxRead (sliceB bytes 16 (leField bytes 4 2)) else none) :=
  if_neg (by simp [up, unkeyed, fw])

end

/-- Settles O47: a bundle acts by its locks, the link by its bundles, and each frame of the link is opened, counted or refused as its code says. -/
theorem thePairLinkIsKept : Obligations.ThePairLinkIsKept := by
  unfold Obligations.ThePairLinkIsKept
  refine ⟨fun s k rx lock ref => ?_, fun s => ⟨State.linkCheck_same, State.linkCheck_up, fun bundles up => ?_⟩,
    fun s k => ⟨fun e waits due => exec_bundleRejoin_due waits due, exec_bundleRejoin_waits⟩,
    fun s bytes => ⟨fun deaf => ?_, fun heard other => ?_, fun heard isKeyx => ?_⟩, fun s => ⟨fun due => ?_, fun idle => ?_⟩,
    fun s bytes => ?_, fun s code => ⟨fun up kept => ?_, fun up follows => ?_, fun down => ?_⟩,
    fun s typ bytes up keyed => ⟨fun bad => ?_, fun key form epoch => State.linkOpen_keyed up keyed form epoch⟩,
    fun s typ bytes down => State.linkOpen_down down⟩
  · refine ⟨fun paired => ?_, fun alone => next_of_pos (by rw [alone]; rfl)⟩
    have runs : exec (.pairBundleLockChange k rx lock ref) s = .next
        (((if ref then s.clockSet 6 (k.val / 4) false else s).lockNoted k rx lock).bundleActs k).linkCheck := next_of_neg (by rw [paired]; decide)
    refine ⟨fun unlocked => ?_, fun both dropped => ?_, fun both kept => ?_⟩
    · exact runs.trans (congrArg (fun v => Host.Outcome.next (State.linkCheck v)) (State.bundleActs_unlocked unlocked))
    · exact runs.trans (congrArg (fun v => Host.Outcome.next (State.linkCheck v)) (State.bundleActs_rejoins both dropped))
    · exact runs.trans (congrArg (fun v => Host.Outcome.next (State.linkCheck v)) (State.bundleActs_stripes both kept))
  · rw [State.linkCheck_down bundles up]
    simp only [Bool.or_eq_true, beq_iff_eq]
    rfl
  · by_cases paired : s.straps.pairEn = true
    · refine (next_of_pos paired).trans (congrArg Host.Outcome.next (State.keyxIn_deaf fun ⟨up, unkeyed, fw⟩ => deaf ⟨paired, up, unkeyed, fw⟩))
    · exact next_of_neg paired
  · obtain ⟨paired, up, unkeyed, fw⟩ := heard
    refine (next_of_pos paired).trans (congrArg Host.Outcome.next ((State.keyxIn_heard up unkeyed fw).trans ?_))
    rw [if_neg other]
    rfl
  · obtain ⟨paired, up, unkeyed, fw⟩ := heard
    intro fit
    have taken := (next_of_pos paired : exec (.keyxReceive bytes) s = _).trans (congrArg Host.Outcome.next (State.keyxIn_heard up unkeyed fw))
    rw [if_pos isKeyx] at taken
    cases read : Config.keyxRead (sliceB bytes 16 (leField bytes 4 2)) with
    | none =>
      rw [read] at taken
      exact taken
    | some k =>
      rw [read, State.keyxHeard_some] at taken
      have fitIs : fit = (s.cntPair 1 1).keyxFits := rfl
      clear_value fit
      subst fitIs
      dsimp only
      generalize (Config.devCert k.chain).filter ((s.cntPair 1 1).keyxFits k) = cert at taken ⊢
      cases cert with
      | none => exact taken
      | some c => exact taken
  · obtain ⟨keyed, active, due, fresh⟩ := due
    exact next_of_pos (by simp [keyed, active, due, fresh])
  · refine next_of_neg fun h => idle ?_
    simpa [and_assoc] using h
  · rfl
  · refine (exec_zeroiseMarker up code).trans (congrArg (fun v => Host.Outcome.next (State.lossWaits v)) (if_neg fun h => kept ?_))
    simpa [and_assoc] using h
  · obtain ⟨follow, source, whole⟩ := follows
    exact (exec_zeroiseMarker up code).trans (congrArg (fun v => Host.Outcome.next (State.lossWaits v)) (if_pos (by simp [follow, source, whole])))
  · exact next_of_pos (by rw [down]; rfl)
  · by_cases form : (s.cntPair 1 1).linkForm typ bytes
    · exact State.linkOpen_keyless up keyed (bad.resolve_left (not_not.mpr form))
    · exact State.linkOpen_formless up keyed form

end Sys2Proof.Machine

/-! ## Lockstep (15 R443 to R456) -/

namespace Sys2Proof.Machine

open Sys2Proof

variable {s u : State}

/-- Lockstep as the frames of the active ask for it: LOCKED with no change that waits. -/
theorem locked_iff (u : State) : ¬ (u.pairState ≠ pairLocked ∨ u.pair.next.isSome = true) ↔ u.pairState = pairLocked ∧ u.pair.next = none := by
  rw [not_or, not_not, Bool.not_eq_true, Option.isSome_eq_false_iff, Option.isNone_iff_eq_none]

/-! ### Frames of the active -/

/-- What an accepted copy of a frame does. -/
def State.ingressTaken (u : State) (p : List Byte) : State :=
  if u.pairState ≠ pairLocked ∨ u.pair.next.isSome = true then u
  else if leField p 0 4 = u.itn.tick % 4294967296 then u.present p
  else u.setPair fun q => { q with early := q.early ++ [p] }

theorem State.ingressTaken_locked (u : State) (p : List Byte) : u.ingressTaken p =
    if u.pairState = pairLocked ∧ u.pair.next = none then
      if leField p 0 4 = u.itn.tick % 4294967296 then u.present p else u.setPair fun q => { q with early := q.early ++ [p] }
    else u := by
  by_cases locked : u.pairState = pairLocked ∧ u.pair.next = none
  · rw [if_pos locked]
    exact if_neg ((locked_iff u).mpr locked)
  · rw [if_neg locked]
    exact if_pos (not_not.mp (mt (locked_iff u).mp locked))

/-- What an accepted record does. -/
def State.recordTaken (u : State) (bytes : List Byte) : State :=
  let tick := leField bytes 0 8
  let n := leField bytes 8 4
  let es := recordEntries n bytes
  let last := es.getLastD []
  if !(decide (16 + 16 * n ≤ bytes.length) && leField last 0 1 == 0x0F) then u
  else if u.pairState = pairJoinStandby then (u.setPair fun p => { p with rcvd := some tick }).statusSend tick
  else if u.pairState ≠ pairLocked ∨ u.pair.next.isSome = true ∨ tick ≠ u.itn.tick ∨ u.pair.recordDone = true ∨ leField bytes 12 4 ≠ u.pair.ingress then u
  else
    let v := (es.foldl State.applyEntry u).digestClose
    let w := v.2.setPair fun p => { p with rcvd := some tick, recordDone := true }
    (if v.1 = leField last 1 8 then w.setPair fun p => { p with digestTick := some tick } else w.diverged v.1 (leField last 1 8)).statusSend (tick - 2)

theorem State.recordTaken_eq (u : State) (bytes : List Byte) :
    let es := recordEntries (leField bytes 8 4) bytes
    let digest := leField (es.getLastD []) 1 8
    let v := (es.foldl State.applyEntry u).digestClose
    let w := v.2.setPair fun p => { p with rcvd := some (leField bytes 0 8), recordDone := true }
    u.recordTaken bytes =
      if 16 + 16 * leField bytes 8 4 ≤ bytes.length ∧ leField (es.getLastD []) 0 1 = 0x0F then
        if u.pairState = pairJoinStandby then (u.setPair fun p => { p with rcvd := some (leField bytes 0 8) }).statusSend (leField bytes 0 8)
        else if u.pairState = pairLocked ∧ u.pair.next = none ∧ leField bytes 0 8 = u.itn.tick ∧ u.pair.recordDone = false
          ∧ leField bytes 12 4 = u.pair.ingress then
          (if v.1 = digest then w.setPair fun p => { p with digestTick := some (leField bytes 0 8) } else w.diverged v.1 digest).statusSend
            (leField bytes 0 8 - 2)
        else u
      else u := by
  intro es digest v w
  by_cases full : 16 + 16 * leField bytes 8 4 ≤ bytes.length ∧ leField (es.getLastD []) 0 1 = 0x0F
  · refine (if_neg ?_).trans (Eq.trans ?_ (if_pos full).symm)
    · rw [Bool.not_eq_true', Bool.not_eq_false, Bool.and_eq_true, decide_eq_true_eq, beq_iff_eq]
      exact full
    · by_cases joins : u.pairState = pairJoinStandby
      · exact (if_pos joins).trans (if_pos joins).symm
      · refine (if_neg joins).trans (Eq.trans ?_ (if_neg joins).symm)
        by_cases follows : u.pairState = pairLocked ∧ u.pair.next = none ∧ leField bytes 0 8 = u.itn.tick ∧ u.pair.recordDone = false
            ∧ leField bytes 12 4 = u.pair.ingress
        · refine (if_neg ?_).trans (if_pos follows).symm
          obtain ⟨locked, quiet, now_, first, count⟩ := follows
          simp [locked, quiet, now_, first, count]
        · refine (if_pos ?_).trans (if_neg follows).symm
          by_contra h
          simp only [not_or, not_not, Bool.not_eq_true, Option.isSome_eq_false_iff, Option.isNone_iff_eq_none] at h
          exact follows h
  · refine (if_pos ?_).trans (if_neg full).symm
    rw [Bool.not_eq_true', Bool.and_eq_false_iff, decide_eq_false_iff_not, beq_eq_false_iff_ne]
    exact not_and_or.mp full

/-! ### The standby's status -/

/-- The peer's state of a status frame is shown. -/
def State.statusShown (u : State) (p : List Byte) : State :=
  (u.setPair fun q => { q with statusTick := u.now }).setFld Reg.PAIR_STATUS Fd.PAIR_STATUS_PEER_STATE (leField p 24 1)

/-- What an accepted status frame does. -/
def State.statusTaken (u : State) (p : List Byte) (cycle : Nat) : State :=
  let st := leField p 24 1
  let v := u.statusShown p
  if st = pairIdle ∨ st = pairSuspect then if v.pairState = pairPaired then v.setPair fun q => { q with peerLeft := some st } else v
  else if st ≠ pairJoinStandby ∧ st ≠ pairLocked ∧ st ≠ pairHolding then v
  else
    let late := v.pairHolds && decide (992 < cycle) && decide (0 < v.itn.tick) && !v.receipted (v.itn.tick - 1) && v.holding
    let w := v.setPair fun q => { q with receipt := maxOpt q.receipt (leField p 0 8), mirror := maxOpt q.mirror (leField p 8 8) }
    (if late && w.receipted (w.itn.tick - 1) then w.cntPair 13 1 else w).releaseHeld.handRelease

theorem State.statusTaken_eq (u : State) (p : List Byte) (cycle : Nat) :
    let st := leField p 24 1
    let v := u.statusShown p
    let w := v.setPair fun q => { q with receipt := maxOpt q.receipt (leField p 0 8), mirror := maxOpt q.mirror (leField p 8 8) }
    u.statusTaken p cycle =
      if st = pairIdle ∨ st = pairSuspect then if v.pairState = pairPaired then v.setPair fun q => { q with peerLeft := some st } else v
      else if st = pairJoinStandby ∨ st = pairLocked ∨ st = pairHolding then
        (if v.pairHolds = true ∧ 992 < cycle ∧ 0 < v.itn.tick ∧ v.receipted (v.itn.tick - 1) = false ∧ v.holding = true
          ∧ w.receipted (w.itn.tick - 1) = true then w.cntPair 13 1 else w).releaseHeld.handRelease
      else v := by
  intro st v w
  refine if_congr Iff.rfl rfl ?_
  by_cases lockstep : st = pairJoinStandby ∨ st = pairLocked ∨ st = pairHolding
  · refine (if_neg fun h => ?_).trans (Eq.trans ?_ (if_pos lockstep).symm)
    · rcases lockstep with l | l | l
      · exact h.1 l
      · exact h.2.1 l
      · exact h.2.2 l
    · refine congrArg (fun x => State.handRelease (State.releaseHeld x)) (if_congr ?_ rfl rfl)
      simp only [Bool.and_eq_true, decide_eq_true_eq, Bool.not_eq_true', and_assoc]
      rfl
  · refine (if_pos ?_).trans (if_neg lockstep).symm
    exact ⟨fun l => lockstep (.inl l), fun l => lockstep (.inr (.inl l)), fun l => lockstep (.inr (.inr l))⟩

/-! ### What ends lockstep -/

/-- Lockstep can be left. -/
def State.canLeave (s : State) : Prop :=
  (s.pairState = pairLocked ∨ s.pairState = pairHolding) ∧ s.pair.next ≠ some pairIdle ∧ s.pair.next ≠ some pairTakingOver

theorem State.leaveLockstep_leaves (leaves : s.canLeave) (reason : Nat) :
    s.leaveLockstep reason = s.setPair fun p => { p with next := some pairIdle, waitReason := reason } := by
  refine if_pos ?_
  simpa [and_assoc, State.canLeave] using leaves

theorem State.leaveLockstep_stays (stays : ¬ s.canLeave) (reason : Nat) : s.leaveLockstep reason = s := by
  refine if_neg fun h => stays ?_
  simpa [and_assoc, State.canLeave] using h

theorem State.standbyLost_idle (idle : ¬ (s.pairState = pairPaired ∧ s.pair.next = none) ∨ s.lossReason = none) : s.standbyLost = s := by
  unfold State.standbyLost
  by_cases on : s.pairState = pairPaired ∧ s.pair.next = none
  · rw [if_neg (by simp [on]), idle.resolve_left (not_not.mpr on)]
  · refine if_pos ?_
    by_contra h
    simp only [not_or, not_not, Bool.not_eq_true, Option.isSome_eq_false_iff, Option.isNone_iff_eq_none] at h
    exact on h

theorem State.standbyLost_known {x : Nat} (on : s.pairState = pairPaired ∧ s.pair.next = none) (lost : s.lossReason = some (some x)) :
    s.standbyLost = (s.setPair fun p => { p with waitReason := x }).pairWant pairAlone := by
  unfold State.standbyLost
  rw [if_neg (by simp [on]), lost]

theorem State.standbyLost_drawn (on : s.pairState = pairPaired ∧ s.pair.next = none) (lost : s.lossReason = some none) :
    s.standbyLost = (s.draw.2.setPair fun p => { p with waitReason := 1 + s.draw.1 % 7 }).pairWant pairAlone := by
  unfold State.standbyLost
  rw [if_neg (by simp [on]), lost]

/-- A wait for the active that has run out. -/
def State.waitOver (s : State) : Prop := ∃ t, s.pair.waitTick = some t ∧ t + s.lossWait ≤ s.now

theorem State.waitOver_iff (s : State) : (s.pair.waitTick.any fun t => decide (t + s.lossWait ≤ s.now)) = true ↔ s.waitOver := by
  simp [State.waitOver, Option.any_eq_true]

/-- Settles O48: what a frame of the peer does is decided by whether it is accepted and by the pair's state, and lockstep ends exactly for its causes. -/
theorem lockstepIsKept : Obligations.LockstepIsKept := by
  unfold Obligations.LockstepIsKept
  refine ⟨fun s bytes => ?_, fun s frames => ?_, fun s bytes cycle => ?_,
    fun s => ⟨fun x on lost => congrArg Host.Outcome.next (State.standbyLost_known on lost),
      fun on lost => congrArg Host.Outcome.next (State.standbyLost_drawn on lost), fun idle => congrArg Host.Outcome.next (State.standbyLost_idle idle)⟩,
    fun s => ⟨fun missing => ?_, fun kept => ?_, fun expired leaves => ?_, fun idle => ?_, fun bad leaves => ?_, fun idle => ?_⟩,
    fun s offset latency => ⟨fun up standby => ?_, fun idle => ?_⟩⟩
  · refine congrArg Host.Outcome.next ?_
    obtain ⟨p, u⟩ := s.linkOpen lfIngress bytes
    cases p with
    | none => rfl
    | some p => exact u.ingressTaken_locked p
  · refine congrArg Host.Outcome.next ?_
    unfold State.recordApply
    obtain ⟨p, u⟩ := State.openRecords frames s
    cases p with
    | none => rfl
    | some bytes => exact u.recordTaken_eq bytes
  · refine congrArg Host.Outcome.next ?_
    unfold State.statusIn
    obtain ⟨p, u⟩ := s.linkOpen lfStatus bytes
    cases p with
    | none => rfl
    | some p => exact u.statusTaken_eq p cycle
  · obtain ⟨locked, quiet, first⟩ := missing
    exact next_of_pos (by simp [locked, quiet, first])
  · refine next_of_neg fun h => kept ?_
    simpa [and_assoc] using h
  · exact (next_of_pos (s.waitOver_iff.mpr expired)).trans (congrArg Host.Outcome.next (State.leaveLockstep_leaves leaves _))
  · by_cases expired : s.waitOver
    · exact (next_of_pos (s.waitOver_iff.mpr expired)).trans
        (congrArg Host.Outcome.next (State.leaveLockstep_stays (fun leaves => idle ⟨expired, leaves⟩) _))
    · exact next_of_neg (mt s.waitOver_iff.mp expired)
  · exact (next_of_pos bad).trans (congrArg Host.Outcome.next (State.leaveLockstep_leaves leaves _))
  · by_cases bad : 4 ≤ s.pair.offBad
    · exact (next_of_pos bad).trans (congrArg Host.Outcome.next (State.leaveLockstep_stays (fun leaves => idle ⟨bad, leaves⟩) _))
    · exact next_of_neg bad
  · exact next_of_neg (by simp [up, standby])
  · exact next_of_pos (by rcases idle with h | h <;> simp [h])

end Sys2Proof.Machine

/-! ## Roles and takeover (15 R439 to R441, R455 to R462) -/

namespace Sys2Proof.Machine

open Sys2Proof

variable {s u : State}

/-! ### The claim -/

/-- A chip in INIT with no change that waits, not dead, whose role is open. -/
def State.roleOpen (s : State) : Prop := s.pairState = pairInit ∧ s.pair.next = none ∧ s.crs.dead = false

theorem State.roleClaim_open (isOpen : s.roleOpen) : s.roleClaim =
    if s.actLow then s.pairWant pairIdle
    else if s.msSince s.pair.highTick s.claimMs then (s.claim.setPair fun p => { p with claimTick := some s.now }).pairWant pairAlone else s := by
  obtain ⟨init, quiet, alive⟩ := isOpen
  exact if_neg (by simp [init, quiet, alive])

theorem State.roleClaim_closed (closed : ¬ s.roleOpen) : s.roleClaim = s := by
  refine if_pos ?_
  by_contra h
  simp only [not_or, not_not, Bool.not_eq_true, Option.isSome_eq_false_iff, Option.isNone_iff_eq_none] at h
  exact closed h

theorem exec_claimHold_due {t : Nat} (claims : s.claimed = true) (tick : s.pair.claimTick = some t) (held : s.msSince t 10 = true) :
    exec .claimHoldExpire s = .next s.takeOutputs := by
  refine (congrArg Host.Outcome.next ?_ : execClaimHoldExpire s = _)
  rw [tick]
  exact if_pos (Bool.and_eq_true_iff.mpr ⟨claims, held⟩)

theorem exec_claimHold_waits (waits : ¬ (s.claimed = true ∧ ∃ t, s.pair.claimTick = some t ∧ s.msSince t 10 = true)) :
    exec .claimHoldExpire s = .next s := by
  refine (congrArg Host.Outcome.next ?_ : execClaimHoldExpire s = _)
  cases tick : s.pair.claimTick with
  | none => rfl
  | some t =>
    refine if_neg fun h => waits ?_
    obtain ⟨claims, held⟩ := Bool.and_eq_true_iff.mp h
    exact ⟨claims, t, tick, held⟩

/-! ### The peer's claim -/

/-- The peer has claimed: the line is low and, unless this controller claims too, it no longer shares. -/
def State.peerShares (s : State) : State := (s.setPair fun p => { p with peerLow := true }).setPair fun p => { p with shared := false }

/-- A chip in INIT has its role decided at once. -/
def State.roleNow (t : State) : State := if t.pairState = pairInit then t.roleClaim else t

theorem State.roleNow_eq (t : State) : (if t.pairState == pairInit then t.roleClaim else t) = t.roleNow := by
  simp only [State.roleNow, beq_iff_eq]

theorem State.peerClaims_both (claims : (s.setPair fun p => { p with peerLow := true }).claimed = true) :
    s.peerClaims = s.setPair fun p => { p with peerLow := true } := if_pos claims

section

variable (yields : (s.setPair fun p => { p with peerLow := true }).claimed = false)
include yields

theorem State.peerClaims_handover {h : Nat} (hand : s.peerShares.pair.handTick = some h) (idle : s.peerShares.pairState = pairIdle) :
    s.peerClaims = ((s.peerShares.setPair fun p => { p with handDesc := none, handTick := none }).doneOpt s.peerShares.pair.handDesc St.OK
      (h % 4294967296) 0).roleNow := by
  refine (if_neg (Bool.eq_false_iff.mp yields)).trans ((State.roleNow_eq _).trans (congrArg State.roleNow ((if_pos ?_).trans ?_)))
  · exact Bool.and_eq_true_iff.mpr ⟨(congrArg Option.isSome hand).trans rfl, beq_iff_eq.mpr idle⟩
  · exact congrArg (fun x => (s.peerShares.setPair fun p => { p with handDesc := none, handTick := none }).doneOpt s.peerShares.pair.handDesc St.OK
      (x % 4294967296) 0) ((congrArg (Option.getD · 0) hand).trans rfl)

theorem State.peerClaims_yields (still : s.peerShares.pair.handTick = none ∨ s.peerShares.pairState ≠ pairIdle) :
    s.peerClaims = s.peerShares.roleNow := by
  refine (if_neg (Bool.eq_false_iff.mp yields)).trans ((State.roleNow_eq _).trans (congrArg State.roleNow (if_neg fun h => ?_)))
  obtain ⟨hand, idle⟩ := Bool.and_eq_true_iff.mp h
  rcases still with noHand | other
  · exact Bool.false_ne_true ((congrArg Option.isSome noHand).symm.trans hand)
  · exact other (beq_iff_eq.mp idle)

end

/-! ### The release -/

section

/-- The state in which the line is high again. -/
def State.lineHigh (s : State) : State := s.setPair fun p => { p with peerLow := false, highTick := s.now }

theorem State.releaseConfirmed_closed (closed : ¬ (s.straps.pairEn = true ∧ s.claimed = false ∧ s.crs.dead = false)) : s.releaseConfirmed = s := by
  refine if_pos ?_
  by_contra h
  obtain ⟨⟨paired, unclaimed⟩, alive⟩ := by
    simpa only [Bool.or_eq_true, not_or, Bool.not_eq_true, Bool.not_eq_false'] using h
  exact closed ⟨paired, unclaimed, alive⟩

theorem State.releaseConfirmed_free (free : s.straps.pairEn = true ∧ s.claimed = false ∧ s.crs.dead = false) : s.releaseConfirmed =
    if s.lineHigh.pairState = pairLocked ∨ s.lineHigh.pairState = pairHolding then
      (s.lineHigh.claimFor (if s.lineHigh.pair.kind = 2 then 2 else 1)).pairWant pairTakingOver
    else if (s.lineHigh.pairState = pairIdle ∨ s.lineHigh.pairState = pairSuspect) ∧ s.lineHigh.flag Reg.PAIR_CFG Fd.PAIR_CFG_COLD_AUTO
      ∧ s.lineHigh.pair.handTick.isNone then s.lineHigh.coldClaim
    else s.lineHigh.joinAbort 4 :=
  if_neg (by simp [free])

end

/-! ### Announcements and preempts -/

/-- An announcement is due again, 1 ms after the first and 10 ms after the second. -/
def State.announceDue (s : State) (t : Nat) : Prop :=
  (s.pair.announced = 1 ∧ s.msSince t 1 = true) ∨ (s.pair.announced = 2 ∧ s.msSince t 10 = true)

theorem State.announceAgain_due {t : Nat} (tick : s.pair.annTick = some t) (due : s.announceDue t) :
    s.announceAgain = s.announce.setPair fun p => { p with announced := p.announced + 1, annTick := if p.announced = 2 then none else p.annTick } := by
  unfold State.announceAgain
  rw [tick]
  exact if_pos due

theorem State.announceAgain_waits (waits : ∀ t, s.pair.annTick = some t → ¬ s.announceDue t) : s.announceAgain = s := by
  unfold State.announceAgain
  cases tick : s.pair.annTick with
  | none => rfl
  | some t => exact if_neg (waits t tick)

/-! ### PAIR_TAKEOVER -/

/-- The first check that fails gives the status. -/
theorem State.checked_of_first {d : Desc} {cs : List (Bool × Nat)} {ok : State → State} {st : Nat} (first : firstFail cs = some st) :
    s.checked d cs ok = s.done d st := by
  rw [State.checked, first]

section

variable {d : Desc}

/-- The operands of PAIR_TAKEOVER are in form. -/
def Desc.takeForm (d : Desc) : Bool := d.handle == 0 && d.reservedZero [(8, 1)] && decide (d.f 8 1 ≤ 1)

theorem Desc.takeForm_iff (d : Desc) : Desc.takeForm d = true ↔ d.handle = 0 ∧ d.reservedZero [(8, 1)] = true ∧ d.f 8 1 ≤ 1 := by
  simp [Desc.takeForm, and_assoc]

/-- The pair is in a state in which the mode can take over. -/
def State.canTake (s : State) (d : Desc) : Bool :=
  if d.f 8 1 = 0 then s.pairState == pairPaired && s.pair.handDesc.isNone && s.pair.handTick.isNone
  else s.pairState == pairIdle || s.pairState == pairSuspect

theorem State.canTake_iff (s : State) (d : Desc) : s.canTake d = true ↔
    if d.f 8 1 = 0 then s.pairState = pairPaired ∧ s.pair.handDesc = none ∧ s.pair.handTick = none
    else s.pairState = pairIdle ∨ s.pairState = pairSuspect := by
  unfold State.canTake
  by_cases hand : d.f 8 1 = 0
  · simp [hand, and_assoc]
  · simp [hand]

/-- The checks of PAIR_TAKEOVER in their order. -/
def State.takeChecks (s : State) (d : Desc) : List (Bool × Nat) :=
  [(Desc.takeForm d, St.GEN_FIELD), (s.straps.pairEn, St.PAIR_NOT_PAIRED), (s.canTake d, St.PAIR_STATE), (d.f 8 1 == 0 || !s.actLow, St.PAIR_NOT_RELEASED)]

theorem pairTakeover_eq (d : Desc) (s : State) : pairTakeover d s = s.checked d (s.takeChecks d) fun s => if d.f 8 1 = 0 then s.setPair fun p => { p with handDesc := some d } else s.coldClaim.done d St.OK := rfl

end

/-- Settles O49: each row of the roles acts exactly when it is due, and PAIR_TAKEOVER ends with the first check that fails. -/
theorem theRoleIsTakenOver : Obligations.TheRoleIsTakenOver := by
  unfold Obligations.TheRoleIsTakenOver
  refine ⟨fun s => ⟨fun isOpen low => ?_, fun isOpen high waited => ?_, fun idle => ?_⟩,
    fun s => ⟨fun ⟨claims, t, tick, held⟩ => exec_claimHold_due claims tick held, exec_claimHold_waits⟩,
    fun s => ⟨fun paired claims => ?_, fun paired yields => ⟨fun h hand idle => ?_, fun still => ?_⟩, fun alone => next_of_neg (Bool.eq_false_iff.mp alone)⟩,
    fun s => ⟨fun free copied => ?_, fun free fresh cold => ?_, fun free fresh warm => ?_,
      fun closed => congrArg Host.Outcome.next (State.releaseConfirmed_closed closed)⟩,
    fun s => ⟨fun t tick due => congrArg Host.Outcome.next (State.announceAgain_due tick due),
      fun waits => congrArg Host.Outcome.next (State.announceAgain_waits waits)⟩,
    fun s b => ⟨fun named online => (next_of_pos named).trans (next_of_pos online),
      fun named offline => (next_of_pos named).trans (next_of_neg (Bool.eq_false_iff.mp offline)), fun other => next_of_neg (Bool.eq_false_iff.mp other)⟩,
    fun s u d takes hu => ?_⟩
  · exact congrArg Host.Outcome.next ((State.roleClaim_open isOpen).trans (if_pos low))
  · exact congrArg Host.Outcome.next ((State.roleClaim_open isOpen).trans ((if_neg (Bool.eq_false_iff.mp high)).trans (if_pos waited)))
  · by_cases isOpen : s.roleOpen
    · obtain ⟨high, early⟩ := idle.resolve_left (not_not.mpr isOpen)
      exact congrArg Host.Outcome.next ((State.roleClaim_open isOpen).trans ((if_neg (Bool.eq_false_iff.mp high)).trans (if_neg early)))
    · exact congrArg Host.Outcome.next (State.roleClaim_closed isOpen)
  · exact (next_of_pos paired).trans (congrArg Host.Outcome.next (State.peerClaims_both claims))
  · exact (next_of_pos paired).trans (congrArg Host.Outcome.next (State.peerClaims_handover yields hand idle))
  · exact (next_of_pos paired).trans (congrArg Host.Outcome.next (State.peerClaims_yields yields still))
  · exact congrArg Host.Outcome.next ((State.releaseConfirmed_free free).trans (if_pos copied))
  · obtain ⟨state, auto, noHand⟩ := cold
    exact congrArg Host.Outcome.next ((State.releaseConfirmed_free free).trans ((if_neg fresh).trans
      (if_pos ⟨state, auto, Option.isNone_iff_eq_none.mpr noHand⟩)))
  · exact congrArg Host.Outcome.next ((State.releaseConfirmed_free free).trans ((if_neg fresh).trans
      (if_neg fun ⟨state, auto, noHand⟩ => warm ⟨state, auto, Option.isNone_iff_eq_none.mp noHand⟩)))
  · subst hu
    have runs : exec .pairTakeover s = .next (pairTakeover d (s.start d)) := congrArg Host.Outcome.next (State.ringCmd_alone takes (by decide) _)
    rw [runs]
    generalize s.start d = u
    intro mode form able no
    have formIff : Desc.takeForm d = true ↔ form := Desc.takeForm_iff d
    have ableIff : u.canTake d = true ↔ able := u.canTake_iff d
    have fails (st : Nat) (first : firstFail (u.takeChecks d) = some st) : no st := congrArg Host.Outcome.next ((pairTakeover_eq d u).trans (State.checked_of_first first))
    refine ⟨fun formless => fails _ ?_, fun inForm alone => fails _ ?_, fun inForm paired unable => fails _ ?_,
      fun inForm paired isAble hand => congrArg Host.Outcome.next ?_, fun inForm paired isAble cold low => fails _ ?_,
      fun inForm paired isAble cold high => congrArg Host.Outcome.next ?_⟩
    · simp only [State.takeChecks, firstFail, Bool.eq_false_iff.mpr (mt formIff.mp formless), Bool.false_eq_true, if_false]
    · simp only [State.takeChecks, firstFail, formIff.mpr inForm, alone, if_true, Bool.false_eq_true, if_false]
    · simp only [State.takeChecks, firstFail, formIff.mpr inForm, paired, Bool.eq_false_iff.mpr (mt ableIff.mp unable), if_true, Bool.false_eq_true, if_false]
    · have code : d.f 8 1 = 0 := hand
      refine (pairTakeover_eq d u).trans ((State.checked_of_all ?_).trans (if_pos hand))
      simp [State.takeChecks, formIff.mpr inForm, paired, ableIff.mpr isAble, code]
    · have code : d.f 8 1 = 1 := cold
      simp [State.takeChecks, firstFail, formIff.mpr inForm, paired, ableIff.mpr isAble, code, low]
    · have code : d.f 8 1 = 1 := cold
      refine (pairTakeover_eq d u).trans ((State.checked_of_all ?_).trans (if_neg (by rw [code]; decide)))
      simp [State.takeChecks, formIff.mpr inForm, paired, ableIff.mpr isAble, high]

end Sys2Proof.Machine

/-! ## Joins, management frames and rehearsal (15 R449, R463 to R467) -/

namespace Sys2Proof.Machine

open Sys2Proof

variable {s u : State}

/-! ### Checks in their order -/

section

variable {b : Bool} {st : Nat} {cs : List (Bool × Nat)} {d : Desc} {ok : State → State}

theorem firstFail_pass (passes : b = true) : firstFail ((b, st) :: cs) = firstFail cs := if_pos passes

theorem firstFail_stop (fails : ¬ b = true) : firstFail ((b, st) :: cs) = some st := if_neg fails

theorem State.checked_of_none (none_ : firstFail cs = none) : s.checked d cs ok = ok s := by
  rw [State.checked, none_]

end

section

variable {d : Desc}

/-! ### PAIR_JOIN -/

/-- The checks of PAIR_JOIN in their order. -/
def State.joinChecks (s : State) (d : Desc) : List (Bool × Nat) :=
  let peer := s.fld Reg.PAIR_STATUS Fd.PAIR_STATUS_PEER_STATE
  [(d.handle == 0 && d.reservedZero [], St.GEN_FIELD), (s.straps.pairEn, St.PAIR_NOT_PAIRED),
   (s.pairState == pairAlone && s.pair.next.isNone && (peer == pairIdle || peer == pairSuspect), St.PAIR_STATE),
   (s.pair.rehearsal.isNone, St.PAIR_BUSY), (s.pairUp && s.pairKeyed, St.PAIR_LINK_DOWN),
   (s.pair.peerFw == (s.rd Reg.MGT_FW_VER).toNat, St.PAIR_PEER_MISMATCH)]

theorem pairJoin_eq (d : Desc) (s : State) : pairJoin d s = s.checked d (s.joinChecks d) fun s =>
    s.setPair fun p => { p with join := some (Join.start (some d)), next := some pairJoinActive } := rfl

/-! ### PAIR_REHEARSE -/

/-- The checks of PAIR_REHEARSE in their order. -/
def State.rehearseChecks (s : State) (d : Desc) (peer : Bool) : List (Bool × Nat) :=
  let r := Rehearse.ofDesc d
  [(d.handle == 0 && d.reservedZero [(8, 1), (10, 5), (16, 6), (24, 16)] && s.rehearseOk r, St.GEN_FIELD),
   (decide (1 ≤ d.f 13 1) && decide (d.f 13 1 ≤ 16), St.RING_FORMAT), (s.straps.pairEn, St.PAIR_NOT_PAIRED),
   (s.pairState == pairPaired, St.PAIR_STATE), (s.pair.join.isNone && s.pair.rehearsal.isNone, St.PAIR_BUSY),
   (s.rehearsable r peer, St.PAIR_REHEARSE_REFUSED)]

theorem pairRehearse_eq (peer : Bool) (d : Desc) (s : State) :
    pairRehearse peer d s = s.checked d (s.rehearseChecks d peer) fun s => s.rehearseStart d (Rehearse.ofDesc d) := rfl

end

/-! ### The hold of a join -/

/-- A hold in which both CRCs are known and which has not ended. -/
def State.holdReady (s : State) (j : Join) : Prop :=
  s.pairState = pairJoinActive ∧ s.joinPhase = 3 ∧ j.peerCrc ≠ none ∧ j.endTick = none ∧ j.abort = none

theorem State.holdEnd_ready {j : Join} (join : s.pair.join = some j) (ready : s.holdReady j) :
    s.holdEnd = if j.peerCrc = j.crc then (s.updJoin fun j => { j with endTick := some s.itn.tick }).mgtSend (.joinEnd s.itn.tick) else s.joinAbort 5 := by
  obtain ⟨active, phase, crc, running, alive⟩ := ready
  unfold State.holdEnd
  rw [if_neg (by simp [active, phase]), join]
  refine if_neg ?_
  rw [running, alive]
  simpa using crc

theorem State.holdEnd_waits (waits : ∀ j, s.pair.join = some j → ¬ s.holdReady j) : s.holdEnd = s := by
  unfold State.holdEnd
  by_cases phase : s.pairState ≠ pairJoinActive ∨ s.joinPhase ≠ 3
  · exact if_pos phase
  · refine (if_neg phase).trans ?_
    obtain ⟨active, third⟩ := not_or.mp phase
    cases join : s.pair.join with
    | none => rfl
    | some j =>
      refine if_pos ?_
      by_contra h
      obtain ⟨⟨crc, running⟩, alive⟩ := by
        simpa only [Bool.or_eq_true, not_or, Option.isNone_iff_eq_none, Bool.not_eq_true, Option.isSome_eq_false_iff] using h
      exact waits j join ⟨not_not.mp active, not_not.mp third, crc, running, alive⟩

theorem State.joinAbort_active {j : Join} (active : s.pairState = pairJoinActive) (join : s.pair.join = some j) (alive : j.abort = none) (cause : Nat) :
    s.joinAbort cause = s.setPair fun p => { p with join := some { j with abort := some cause } } := by
  have aborted : s.pair.join.map (fun j => if j.abort.isSome then j else { j with abort := some cause }) = some { j with abort := some cause } := by
    rw [join, Option.map_some, if_neg (by rw [alive]; decide)]
  rw [State.joinAbort, if_pos (by rw [active]; decide)]
  exact congrArg (fun x => s.setPair fun p => { p with join := x }) aborted

/-- A hold that lasts too long. -/
def State.holdLate (s : State) (j : Join) : Prop :=
  s.joinHold = true ∧ j.endTick = none ∧ s.fld Reg.PAIR_JOIN_CFG Fd.PAIR_JOIN_CFG_HOLD_MAX ≤ j.holdTicks

theorem State.holdTimeout_late {j : Join} (join : s.pair.join = some j) (late : s.holdLate j) : s.holdTimeout = s.joinAbort 3 := by
  obtain ⟨hold, running, long⟩ := late
  exact if_pos (by simp [hold, join, running, long])

theorem State.holdTimeout_early (early : ∀ j, s.pair.join = some j → ¬ s.holdLate j) : s.holdTimeout = s := by
  refine if_neg fun h => ?_
  obtain ⟨hold, any⟩ := Bool.and_eq_true_iff.mp h
  obtain ⟨j, join, late⟩ := (Option.any_eq_true _ _).mp any
  obtain ⟨running, long⟩ := Bool.and_eq_true_iff.mp late
  exact early j join ⟨hold, Option.isNone_iff_eq_none.mp running, of_decide_eq_true long⟩

/-- Settles O50: the opcodes end with their first check that fails, and the rows of a join and of a rehearsal act exactly when they have something to
act on. -/
theorem joinsAndRehearsals : Obligations.JoinsAndRehearsals := by
  unfold Obligations.JoinsAndRehearsals
  refine ⟨fun s u d takes hu => ?_, fun s residue passes => ⟨fun due => next_of_pos due, fun idle => next_of_neg idle⟩, fun s bytes => rfl,
    fun s => ⟨fun j join ready same => ?_, fun j join ready other => ?_, fun waits => congrArg Host.Outcome.next (State.holdEnd_waits waits)⟩,
    fun s => ⟨fun j join late => congrArg Host.Outcome.next (State.holdTimeout_late join late),
      fun early => congrArg Host.Outcome.next (State.holdTimeout_early early)⟩,
    fun s bytes failed unread => ?_, fun s u d peer takes hu => ?_,
    fun s n result => ⟨fun none_ => next_of_pos (by rw [none_]; rfl), fun r running => ⟨fun standby => ?_, fun active => ?_⟩⟩⟩
  · subst hu
    have runs : exec .pairJoin s = .next (pairJoin d (s.start d)) := congrArg Host.Outcome.next (State.ringCmd_alone takes (by decide) _)
    rw [runs]
    generalize s.start d = u
    intro form peer able linked no
    have fails (st : Nat) (first : firstFail (u.joinChecks d) = some st) : no st :=
      congrArg Host.Outcome.next ((pairJoin_eq d u).trans (State.checked_of_first first))
    have formIff : (d.handle == 0 && d.reservedZero []) = true ↔ form := by simp [form]
    have ableIff : (u.pairState == pairAlone && u.pair.next.isNone && (peer == pairIdle || peer == pairSuspect)) = true ↔ able := by
      simp [able, and_assoc]
    have linkedIff : (u.pairUp && u.pairKeyed) = true ↔ linked := Bool.and_eq_true_iff
    refine ⟨fun formless => fails _ (firstFail_stop (mt formIff.mp formless)),
      fun inForm alone => fails _ ((firstFail_pass (formIff.mpr inForm)).trans (firstFail_stop (Bool.eq_false_iff.mp alone))),
      fun inForm paired unable => fails _ ((firstFail_pass (formIff.mpr inForm)).trans ((firstFail_pass paired).trans (firstFail_stop (mt ableIff.mp unable)))),
      fun inForm paired isAble busy => fails _ ?_, fun inForm paired isAble idle unlinked => fails _ ?_,
      fun inForm paired isAble idle isLinked other => fails _ ?_, fun inForm paired isAble idle isLinked same => ?_⟩
    · exact (firstFail_pass (formIff.mpr inForm)).trans ((firstFail_pass paired).trans ((firstFail_pass (ableIff.mpr isAble)).trans
        (firstFail_stop (mt Option.isNone_iff_eq_none.mp busy))))
    · exact (firstFail_pass (formIff.mpr inForm)).trans ((firstFail_pass paired).trans ((firstFail_pass (ableIff.mpr isAble)).trans
        ((firstFail_pass (Option.isNone_iff_eq_none.mpr idle)).trans (firstFail_stop (mt linkedIff.mp unlinked)))))
    · exact (firstFail_pass (formIff.mpr inForm)).trans ((firstFail_pass paired).trans ((firstFail_pass (ableIff.mpr isAble)).trans
        ((firstFail_pass (Option.isNone_iff_eq_none.mpr idle)).trans ((firstFail_pass (linkedIff.mpr isLinked)).trans
          (firstFail_stop (mt beq_iff_eq.mp other))))))
    · refine congrArg Host.Outcome.next ((pairJoin_eq d u).trans (State.checked_of_none ?_))
      exact (firstFail_pass (formIff.mpr inForm)).trans ((firstFail_pass paired).trans ((firstFail_pass (ableIff.mpr isAble)).trans
        ((firstFail_pass (Option.isNone_iff_eq_none.mpr idle)).trans ((firstFail_pass (linkedIff.mpr isLinked)).trans
          (firstFail_pass (beq_iff_eq.mpr same))))))
  · exact congrArg Host.Outcome.next ((State.holdEnd_ready join ready).trans (if_pos same))
  · have aborts := State.joinAbort_active ready.1 join ready.2.2.2.2 5
    exact congrArg Host.Outcome.next ((State.holdEnd_ready join ready).trans ((if_neg other).trans aborts))
  · refine congrArg Host.Outcome.next ?_
    unfold State.mgtIn
    obtain ⟨p, u⟩ := s.linkOpen lfMgt bytes
    cases p with
    | none => rfl
    | some p => rfl
  · subst hu
    have runs : exec (.pairRehearse peer) s = .next (pairRehearse peer d (s.start d)) :=
      congrArg Host.Outcome.next (State.ringCmd_alone takes (by decide) _)
    rw [runs]
    generalize s.start d = u
    intro r form counted free no
    have fails (st : Nat) (first : firstFail (u.rehearseChecks d peer) = some st) : no st :=
      congrArg Host.Outcome.next ((pairRehearse_eq peer d u).trans (State.checked_of_first first))
    have formIff : (d.handle == 0 && d.reservedZero [(8, 1), (10, 5), (16, 6), (24, 16)] && u.rehearseOk r) = true ↔ form := by
      simp [form, and_assoc]
    have countedIff : (decide (1 ≤ d.f 13 1) && decide (d.f 13 1 ≤ 16)) = true ↔ counted := by simp [counted]
    have freeIff : (u.pair.join.isNone && u.pair.rehearsal.isNone) = true ↔ free := by simp [free]
    refine ⟨fun formless => fails _ (firstFail_stop (mt formIff.mp formless)),
      fun inForm uncounted => fails _ ((firstFail_pass (formIff.mpr inForm)).trans (firstFail_stop (mt countedIff.mp uncounted))),
      fun inForm isCounted alone => fails _ ?_, fun inForm isCounted paired other => fails _ ?_, fun inForm isCounted paired state busy => fails _ ?_,
      fun inForm isCounted paired state isFree refused => fails _ ?_, fun inForm isCounted paired state isFree can => ?_⟩
    · exact (firstFail_pass (formIff.mpr inForm)).trans ((firstFail_pass (countedIff.mpr isCounted)).trans (firstFail_stop (Bool.eq_false_iff.mp alone)))
    · exact (firstFail_pass (formIff.mpr inForm)).trans ((firstFail_pass (countedIff.mpr isCounted)).trans ((firstFail_pass paired).trans
        (firstFail_stop (mt beq_iff_eq.mp other))))
    · exact (firstFail_pass (formIff.mpr inForm)).trans ((firstFail_pass (countedIff.mpr isCounted)).trans ((firstFail_pass paired).trans
        ((firstFail_pass (beq_iff_eq.mpr state)).trans (firstFail_stop (mt freeIff.mp busy)))))
    · exact (firstFail_pass (formIff.mpr inForm)).trans ((firstFail_pass (countedIff.mpr isCounted)).trans ((firstFail_pass paired).trans
        ((firstFail_pass (beq_iff_eq.mpr state)).trans ((firstFail_pass (freeIff.mpr isFree)).trans (firstFail_stop (Bool.eq_false_iff.mp refused))))))
    · refine congrArg Host.Outcome.next ((pairRehearse_eq peer d u).trans (State.checked_of_none ?_))
      exact (firstFail_pass (formIff.mpr inForm)).trans ((firstFail_pass (countedIff.mpr isCounted)).trans ((firstFail_pass paired).trans
        ((firstFail_pass (beq_iff_eq.mpr state)).trans ((firstFail_pass (freeIff.mpr isFree)).trans (firstFail_pass can)))))
  · exact (next_of_neg (by simp [running])).trans (next_of_pos standby)
  · refine (next_of_neg (by simp [running])).trans ((next_of_neg (Bool.eq_false_iff.mp active)).trans (congrArg Host.Outcome.next ?_))
    unfold State.rehearseEnd
    rw [running]

end Sys2Proof.Machine

/-! ## The boot (16 R473 to R481; 17 R501) -/

namespace Sys2Proof.Machine

open Sys2Proof

variable {s u : State}

/-! ### The boot ROM -/

/-- The state in which the package of a slot runs. -/
def State.bootRan (v : State) (k : Nat) (l : Loaded) : State :=
  let w := ((v.runPackage k l).loadCatalogue).fwStart
  { w with mgt := { w.mgt with bootStep := 9 } }

/-- The boot from the record shown: the slot chosen, the other one, or recovery. -/
def State.bootFrom (v : State) (r : BootRec) (slot : Nat) (gaveUp : Bool) (unread : Nat) : State :=
  match v.loadSlot slot unread, v.loadSlot (1 - slot) unread with
  | .ok l, _ => (if gaveUp then (v.bootRan slot l).fellBack ((v.bootRan slot l).slotVersion r.pending unread) 1 else v.bootRan slot l).bootReady
  | .error _, .ok l => ((v.bootRan (1 - slot) l).fellBack (v.slotVersion slot unread) 3).bootReady
  | .error _, .error e =>
    let w := (v.setFld Reg.MGT_STATUS Fd.MGT_STATUS_RECOVERY 1).setFld Reg.MGT_STATUS Fd.MGT_STATUS_BOOT_FAIL e
    { w with mgt := { w.mgt with bootStep := 5 } }

/-- The state in which the boot record is shown, or written with its next try. -/
def State.bootShown (u : State) (r : BootRec) : State :=
  match r.choose.2.2 with | some w => u.writeRecord w | none => u.showRecord r

theorem State.boot_eq (s : State) (unread : Nat) :
    let r := s.resetReleased.bootRec unread
    s.boot unread = (s.resetReleased.bootShown r).bootFrom r r.choose.1 r.choose.2.1 unread := rfl

theorem State.bootFrom_eq (v : State) (r : BootRec) (slot : Nat) (gaveUp : Bool) (unread : Nat) :
    v.bootFrom r slot gaveUp unread = match v.loadSlot slot unread with
      | .ok l =>
        (if gaveUp = true then (v.bootRan slot l).fellBack ((v.bootRan slot l).slotVersion r.pending unread) 1 else v.bootRan slot l).bootReady
      | .error _ => match v.loadSlot (1 - slot) unread with
        | .ok l => ((v.bootRan (1 - slot) l).fellBack (v.slotVersion slot unread) 3).bootReady
        | .error e =>
          let w := (v.setFld Reg.MGT_STATUS Fd.MGT_STATUS_RECOVERY 1).setFld Reg.MGT_STATUS Fd.MGT_STATUS_BOOT_FAIL e
          { w with mgt := { w.mgt with bootStep := 5 } } := by
  unfold State.bootFrom
  cases v.loadSlot slot unread with
  | ok l => rfl
  | error c => cases v.loadSlot (1 - slot) unread <;> rfl

/-! ### The watchdog -/

/-- The state in which the watchdog has reset the cores. -/
def State.wdogDown (s : State) : State :=
  (({ s with mgt := { s.mgt with wdog := s.lastMinute s.mgt.wdog } } : State).cntMgt 0 1).coresReset

/-- The cores run again after a watchdog reset, from the other slot where it may replace the running one. -/
def State.wdogUp (u : State) (sram : Bool) (unread : Nat) : Option Loaded → State
  | none => u.restart sram unread
  | some l =>
    let v : State := { u with mgt := { u.mgt with wdog := [] } }
    (v.runPackage v.spareSlot l).fellBack (pkgVersion u.mgt.running) 2

theorem State.watchdog_few (cause : Nat) (sram : Bool) (unread : Nat) (few : (s.lastMinute s.mgt.wdog).length < 4) :
    s.watchdog cause sram unread = (s.wdogDown.restart sram unread).raise Ev.MGT_WATCHDOG 1 cause (s.lastMinute s.mgt.wdog).length := by
  unfold State.watchdog
  simp only [if_neg (Nat.not_le.mpr few)]
  rfl

theorem State.watchdog_fourth (cause : Nat) (sram : Bool) (unread : Nat) (fourth : 4 ≤ (s.lastMinute s.mgt.wdog).length) {other : Option Loaded}
    (down : s.wdogDown = u) (may : u.fallbackSlot unread = other) :
    s.watchdog cause sram unread = (u.wdogUp sram unread other).raise Ev.MGT_WATCHDOG 1 cause (s.lastMinute s.mgt.wdog).length := by
  subst down
  unfold State.wdogDown at may
  unfold State.watchdog
  simp only [if_pos fourth, may]
  cases other with
  | none => simp only [State.wdogUp, State.wdogDown]
  | some l => simp only [State.wdogUp, State.wdogDown]

/-! ### Recovery -/

/-- The package of a recovery runs. -/
def State.recoveryRan (s : State) (pkg : List Byte) : State :=
  let a := (s.recoveryRefused 0).runPackage 0 { bytes := pkg, device := 0, retries := 0 }
  let b := (if a.mgt.bootStep = 9 then a else a.loadCatalogue).fwStart
  ({ b with mgt := { b.mgt with bootStep := 9 } } : State).bootReady

section

variable {w : Word} {ok : Bool} {pkg : List Byte}

/-- Recovery is asked to run a package. -/
def State.recoveryAsked (s : State) (w : Word) : Prop :=
  Fd.MGT_RECOV_CTL_GO.get w ≠ 0 ∧ s.fld Reg.MGT_STATUS Fd.MGT_STATUS_RECOVERY ≠ 0 ∧ s.fld Reg.MGT_STATUS Fd.MGT_STATUS_FW_RUN ≠ 1

/-- The size and the address of the package are in range. -/
def State.recoverySized (s : State) : Prop :=
  8192 ≤ s.fld Reg.MGT_RECOV_SIZE Fd.MGT_RECOV_SIZE_SIZE ∧ s.fld Reg.MGT_RECOV_SIZE Fd.MGT_RECOV_SIZE_SIZE ≤ 16777216
    ∧ (s.rd Reg.MGT_RECOV_ADDR_LO).toNat % 4096 = 0

theorem exec_recoveryGo_unasked (unasked : ¬ s.recoveryAsked w) : exec (.recoveryGo w ok pkg) s = .next s := by
  refine next_of_pos ?_
  by_contra h
  obtain ⟨go, recovery, stopped⟩ := by simpa only [not_or] using h
  exact unasked ⟨go, recovery, stopped⟩

section

variable (asked : s.recoveryAsked w)
include asked

theorem exec_recoveryGo_unsized (unsized : ¬ s.recoverySized) : exec (.recoveryGo w ok pkg) s = .next (s.recoveryRefused St.GEN_FIELD) := by
  obtain ⟨go, recovery, stopped⟩ := asked
  refine (next_of_neg (by simp only [go, recovery, stopped, or_self, not_false_eq_true])).trans (next_of_pos ?_)
  by_contra h
  obtain ⟨least, most, aligned⟩ := by simpa only [not_or, Nat.not_lt, not_not] using h
  exact unsized ⟨least, most, aligned⟩

variable (sized : s.recoverySized)
include sized

theorem exec_recoveryGo_sized : exec (.recoveryGo w ok pkg) s = .next
    (if ok = false then s.recoveryRefused St.GEN_DMA
     else match s.pkgFail pkg with
      | some c => s.recoveryRefused (pkgStatus c)
      | none => s.recoveryRan pkg) := by
  obtain ⟨go, recovery, stopped⟩ := asked
  obtain ⟨least, most, aligned⟩ := sized
  exact (next_of_neg (by simp only [go, recovery, stopped, or_self, not_false_eq_true])).trans (next_of_neg (by omega))

end

end

/-- Settles O51: each row of the boot acts exactly when it is due, in the order that its code writes out. -/
theorem theCoresBoot : Obligations.TheCoresBoot := by
  unfold Obligations.TheCoresBoot
  refine ⟨fun s unread => ⟨fun over_ => ?_, fun alive first => ?_⟩, fun s w ok pkg => ⟨exec_recoveryGo_unsized, fun asked sized bad => ?_,
      fun asked sized good => ?_, exec_recoveryGo_unasked⟩,
    fun s cause sram unread => ?_,
    fun s cause => ⟨fun real runs => ?_, fun idle => ?_⟩, fun s => ⟨fun locked => next_of_neg locked, fun lost => next_of_pos lost⟩,
    fun s => ⟨fun down => next_of_neg (by rw [down]; decide), fun up => next_of_pos up⟩,
    fun s fail => ⟨fun alive training => next_of_neg (by rw [alive, training]; decide), fun idle => next_of_pos (by rcases idle with h | h <;> simp [h])⟩⟩
  · refine next_of_pos ?_
    rcases over_ with dead | booted
    · rw [dead, Bool.true_or]
    · rw [bne_iff_ne.mpr booted, Bool.or_true]
  · exact (next_of_neg (by simp [alive, first])).trans (congrArg Host.Outcome.next (State.bootFrom_eq _ _ _ _ _))
  · exact (exec_recoveryGo_sized asked sized).trans (next_of_pos bad)
  · exact (exec_recoveryGo_sized asked sized).trans (next_of_neg (by rw [good]; decide))
  · intro ts u v ends
    refine ⟨fun real runs => ?_, fun idle => next_of_pos idle⟩
    have resets : exec (.mgtWatchdogReset cause sram unread) s = .next (s.watchdog cause.val sram unread.toNat) :=
      next_of_neg (by simp [real, runs])
    refine ⟨fun few => resets.trans (congrArg Host.Outcome.next (State.watchdog_few _ _ _ few)), fun fourth => ?_⟩
    have down : s.wdogDown = u := rfl
    clear_value u
    cases may : u.fallbackSlot unread.toNat with
    | none => exact resets.trans (congrArg Host.Outcome.next (State.watchdog_fourth _ _ _ fourth down may))
    | some l =>
      have up : u.wdogUp sram unread.toNat (some l) = (v.runPackage v.spareSlot l).fellBack (pkgVersion u.mgt.running) 2 := rfl
      have falls := State.watchdog_fourth cause.val sram unread.toNat fourth down may
      rw [up] at falls
      exact resets.trans (congrArg Host.Outcome.next falls)
  · exact next_of_neg (by simp [real, runs])
  · exact next_of_pos idle

end Sys2Proof.Machine

/-! ## Attestation and platform management (16 R484 to R492) -/

namespace Sys2Proof.Machine

open Sys2Proof

variable {s u : State}

/-! ### Attestation keys -/

section

variable {w : Word}

/-- Another slot holds a key with this key's first 8 bytes. -/
def State.itkTaken (s : State) : Prop :=
  ∃ j, j < 8 ∧ j ≠ s.fld Reg.MGT_ITK_SEL Fd.MGT_ITK_SEL_SLOT ∧ s.itkEntry j ≠ [] ∧ (s.itkEntry j).take 8 = s.itkData.take 8

theorem State.itkTaken_iff (s : State) : ((List.range 8).any fun j => j != s.fld Reg.MGT_ITK_SEL Fd.MGT_ITK_SEL_SLOT && !(s.itkEntry j).isEmpty
    && (s.itkEntry j).take 8 == s.itkData.take 8) = true ↔ s.itkTaken := by
  simp only [List.any_eq_true, List.mem_range, Bool.and_eq_true, bne_iff_ne, beq_iff_eq, Bool.not_eq_true', List.isEmpty_eq_false_iff, and_assoc]
  exact Iff.rfl

/-- The key of the data registers is one that may be enrolled. -/
def State.itkFits (s : State) : Prop := allZero (s.itkData.take 8) = false ∧ ¬ s.itkTaken

section

variable (asked : Fd.MGT_ITK_CTL_COMMIT.get w ≠ 0) (unlocked : s.locked = false)
include asked unlocked

theorem exec_itkCommit_fits (fits : s.itkFits) :
    exec (.itkCommit w) s = .next (if Config.onCurve (s.itkData.drop 8) = true then s.setItk s.itkData
      else s.setFld Reg.MGT_ITK_STATUS Fd.MGT_ITK_STATUS_ERR 1) := by
  refine (next_of_neg asked).trans ((next_of_neg (Bool.eq_false_iff.mp unlocked)).trans ?_)
  have free := Bool.eq_false_iff.mpr (mt s.itkTaken_iff.mp fits.2)
  rw [fits.1, free]
  cases Config.onCurve (s.itkData.drop 8) <;> rfl

theorem exec_itkCommit_refused (unfit : ¬ s.itkFits) :
    exec (.itkCommit w) s = .next (s.setFld Reg.MGT_ITK_STATUS Fd.MGT_ITK_STATUS_ERR 1) := by
  refine (next_of_neg asked).trans ((next_of_neg (Bool.eq_false_iff.mp unlocked)).trans (next_of_pos ?_))
  by_contra h
  simp only [Bool.or_eq_true, not_or, Bool.not_eq_true] at h
  obtain ⟨⟨blank, free⟩, curve⟩ := h
  exact unfit ⟨blank, mt s.itkTaken_iff.mpr (Bool.eq_false_iff.mp free)⟩

end

end

/-! ### Messages -/

section

variable {smb good : Bool} {size : Nat} {k : State → State}

/-- The transport of a message works. -/
def State.mctpWorks (s : State) (smb : Bool) : Prop := (if smb then s.flag Reg.MGT_SMB_CFG Fd.MGT_SMB_CFG_ENABLE else s.crs.linkUp) = true

/-- A message that firmware takes. -/
def State.mctpHeard (s : State) (good : Bool) (size : Nat) : Prop := good = true ∧ size ≤ 4096 ∧ s.fwRuns = true

theorem State.mctpIn_heard (works : s.mctpWorks smb) (heard : s.mctpHeard good size) : s.mctpIn smb good size k = k s := by
  obtain ⟨intact, fits, fw⟩ := heard
  exact (if_pos works).trans (if_pos (by simp [intact, fits, fw]))

theorem State.mctpIn_dropped (works : s.mctpWorks smb) (unheard : ¬ s.mctpHeard good size) : s.mctpIn smb good size k = s.cntMgt 5 1 := by
  refine (if_pos works).trans (if_neg fun h => unheard ?_)
  simpa [and_assoc, State.mctpHeard] using h

theorem State.mctpIn_deaf (deaf : ¬ s.mctpWorks smb) : s.mctpIn smb good size k = s := if_neg deaf

end

/-! ### SPDM -/

section

variable {t v : Nat}

theorem State.spdm_other {q : SpdmReq} (old : v ≠ 0x12) (new : v ≠ 0x13) (req : q ≠ .getVersion) :
    s.spdm t { version := v, req := q } = (s.cntMgt 2 1).spdmError t .invalid :=
  if_pos ⟨old, new, req⟩

theorem State.spdm_version : s.spdm t { version := v, req := .getVersion } = (s.cntMgt 2 1).emit (.spdm t (.version [0x13, 0x12])) :=
  if_neg fun h => h.2.2 rfl

/-- A request under a version that is spoken is not refused for it. -/
theorem spdm_spoken (spoken : v = 0x12 ∨ v = 0x13) (q : SpdmReq) :
    ¬ (({ version := v, req := q } : SpdmMsg).version ≠ 0x12 ∧ ({ version := v, req := q } : SpdmMsg).version ≠ 0x13
      ∧ ({ version := v, req := q } : SpdmMsg).req ≠ .getVersion) :=
  fun ⟨old, new, _⟩ => spoken.elim old new

theorem State.inSession_off {id : Nat} (off : s.sessionOn t id = none) (k : SpdmSess → State → State) : s.inSession t id k = s.spdmError t .invalid := by
  rw [State.inSession, off]

theorem State.inSession_on {id : Nat} {x : SpdmSess} (on : s.sessionOn t id = some x) (k : SpdmSess → State → State) : s.inSession t id k = k x s := by
  rw [State.inSession, on]

end

/-! ### Sessions that end -/

theorem State.sessionEnd_none {id : Nat} (none_ : s.mgt.sessions.find? (fun x => x.id == id) = none) : s.sessionEnd id = s := by
  rw [State.sessionEnd, none_]

theorem State.sessionEnd_some {id : Nat} {x : SpdmSess} (on : s.mgt.sessions.find? (fun x => x.id == id) = some x) :
    s.sessionEnd id =
      ({ s with mgt := { s.mgt with sessions := s.mgt.sessions.filter (·.id != id) } } : State).raise Ev.MGT_SPDM_SESSION id 0 x.transport := by
  rw [State.sessionEnd, on]

/-! ### PLDM sensors -/

section

variable {t n : Nat}

theorem State.pldm_sensor (known : n ∈ pldmSensors) :
    s.pldm t (.getPdr n) = (s.cntMgt 4 1).emit (.pldm t (.pdr n ((pldmSensors.dropWhile (· != n)).getD 1 0))) :=
  congrArg (fun r => (s.cntMgt 4 1).emit (.pldm t r)) (if_pos (List.contains_iff_mem.mpr known))

theorem State.pldm_reading (known : n ∈ pldmSensors) (numeric : n < 0x200) :
    s.pldm t (.getSensorReading n) = (s.cntMgt 4 1).emit (.pldm t (.reading ((s.cntMgt 4 1).sensor n)))
    ∧ s.pldm t (.getStateSensorReadings n) = (s.cntMgt 4 1).emit (.pldm t .error) := by
  have kind : stateSensor n = false := decide_eq_false (Nat.not_le.mpr numeric)
  exact ⟨congrArg (fun r => (s.cntMgt 4 1).emit (.pldm t r)) (if_pos (by rw [List.contains_iff_mem.mpr known, kind]; rfl)),
    congrArg (fun r => (s.cntMgt 4 1).emit (.pldm t r)) (if_neg (by rw [kind, Bool.and_false]; decide))⟩

theorem State.pldm_stateReading (known : n ∈ pldmSensors) (state : 0x200 ≤ n) :
    s.pldm t (.getStateSensorReadings n) = (s.cntMgt 4 1).emit (.pldm t (.reading ((s.cntMgt 4 1).sensor n)))
    ∧ s.pldm t (.getSensorReading n) = (s.cntMgt 4 1).emit (.pldm t .error) := by
  have kind : stateSensor n = true := decide_eq_true state
  exact ⟨congrArg (fun r => (s.cntMgt 4 1).emit (.pldm t r)) (if_pos (by rw [List.contains_iff_mem.mpr known, kind]; rfl)),
    congrArg (fun r => (s.cntMgt 4 1).emit (.pldm t r)) (if_neg (by rw [kind, Bool.not_true, Bool.and_false]; decide))⟩

theorem State.pldm_unknown (unknown : n ∉ pldmSensors) :
    s.pldm t (.getPdr n) = (s.cntMgt 4 1).emit (.pldm t .error) ∧ s.pldm t (.getSensorReading n) = (s.cntMgt 4 1).emit (.pldm t .error)
    ∧ s.pldm t (.getStateSensorReadings n) = (s.cntMgt 4 1).emit (.pldm t .error) := by
  have absent : ¬ pldmSensors.contains n = true := mt List.contains_iff_mem.mp unknown
  have absentAnd (b : Bool) : ¬ (pldmSensors.contains n && b) = true := fun h => absent (Bool.and_eq_true_iff.mp h).1
  exact ⟨congrArg (fun r => (s.cntMgt 4 1).emit (.pldm t r)) (if_neg absent), congrArg (fun r => (s.cntMgt 4 1).emit (.pldm t r)) (if_neg (absentAnd _)),
    congrArg (fun r => (s.cntMgt 4 1).emit (.pldm t r)) (if_neg (absentAnd _))⟩

end

/-- Settles O52: a key is enrolled or refused by its checks, a message is heard, dropped or not received by its transport and its size, and each request
has the answer that its code writes out. -/
theorem requestsToManagementAreAnswered : Obligations.RequestsToManagementAreAnswered := by
  unfold Obligations.RequestsToManagementAreAnswered
  refine ⟨fun s w => ⟨next_of_pos, fun asked locked => (next_of_neg asked).trans (next_of_pos locked), exec_itkCommit_fits, exec_itkCommit_refused,
      next_of_pos, fun asked open_ => (next_of_neg asked).trans (next_of_neg (Bool.eq_false_iff.mp open_)),
      fun asked locked both => (next_of_neg asked).trans ((next_of_pos locked).trans (next_of_pos both)),
      fun asked locked alone => (next_of_neg asked).trans ((next_of_pos locked).trans (next_of_neg alone))⟩,
    fun s smb good size => ⟨fun works heard => ?_, fun works unheard => ?_, fun deaf => ?_⟩, fun s t v => ⟨State.spdm_version,
      fun q old new req => State.spdm_other old new req, fun spoken => ?_⟩, fun s t => ?_,
    fun s session => ⟨fun x on => congrArg Host.Outcome.next (State.sessionEnd_some on), fun off => congrArg Host.Outcome.next (State.sessionEnd_none off)⟩⟩
  · have hears (k : State → State) : (Host.Outcome.next (s.mctpIn smb good size k) : Host.Outcome State Fault Refusal) = .next (k s) :=
      congrArg Host.Outcome.next (State.mctpIn_heard works heard)
    exact ⟨fun m => hears _, fun m => hears _, fun n => hears _, hears _, hears _, hears _⟩
  · have drops (k : State → State) : (Host.Outcome.next (s.mctpIn smb good size k) : Host.Outcome State Fault Refusal) = .next (s.cntMgt 5 1) :=
      congrArg Host.Outcome.next (State.mctpIn_dropped works unheard)
    exact ⟨fun m => drops _, fun m => drops _, fun m => drops _⟩
  · have stays (k : State → State) : (Host.Outcome.next (s.mctpIn smb good size k) : Host.Outcome State Fault Refusal) = .next s :=
      congrArg Host.Outcome.next (State.mctpIn_deaf deaf)
    exact ⟨fun m => stays _, fun m => stays _, fun m => stays _⟩
  · refine ⟨if_neg (spdm_spoken spoken _), if_neg (spdm_spoken spoken _), if_neg (spdm_spoken spoken _), if_neg (spdm_spoken spoken _),
      if_neg (spdm_spoken spoken _), if_neg (spdm_spoken spoken _), fun off len => if_neg (spdm_spoken spoken _),
      fun slot off len other => (if_neg (spdm_spoken spoken _)).trans (if_neg other), fun nonce => if_neg (spdm_spoken spoken _),
      fun slot nonce other => (if_neg (spdm_spoken spoken _)).trans (if_neg other),
      fun i sign nonce known => (if_neg (spdm_spoken spoken _)).trans (if_pos known),
      fun i sign nonce unknown => (if_neg (spdm_spoken spoken _)).trans (if_neg unknown),
      fun half share full => (if_neg (spdm_spoken spoken _)).trans (if_pos full),
      fun half share room => (if_neg (spdm_spoken spoken _)).trans (if_neg (Nat.not_le.mpr room)), fun id off => ?_, fun id x on => ?_⟩
    · exact ⟨(if_neg (spdm_spoken spoken _)).trans (State.inSession_off off _), (if_neg (spdm_spoken spoken _)).trans (State.inSession_off off _),
        (if_neg (spdm_spoken spoken _)).trans (State.inSession_off off _), fun ok => (if_neg (spdm_spoken spoken _)).trans (State.inSession_off off _)⟩
    · exact ⟨(if_neg (spdm_spoken spoken _)).trans (State.inSession_on on _), (if_neg (spdm_spoken spoken _)).trans (State.inSession_on on _),
        (if_neg (spdm_spoken spoken _)).trans (State.inSession_on on _), (if_neg (spdm_spoken spoken _)).trans (State.inSession_on on _),
        (if_neg (spdm_spoken spoken _)).trans (State.inSession_on on _)⟩
  · refine ⟨rfl, rfl, rfl, rfl, rfl, rfl, rfl, rfl, fun n ne0 ne2 => ⟨?_, ?_⟩, fun n => rfl, fun n known => State.pldm_sensor known,
      fun n known numeric => State.pldm_reading known numeric, fun n known state => State.pldm_stateReading known state,
      fun n unknown => State.pldm_unknown unknown⟩
    · exact congrArg (fun r => (s.cntMgt 4 1).emit (.pldm t r)) (if_neg (not_or.mpr ⟨ne0, ne2⟩))
    · exact congrArg (fun r => (s.cntMgt 4 1).emit (.pldm t r)) ((if_neg ne0).trans (if_neg ne2))

end Sys2Proof.Machine

/-! ## Firmware update (16 R493 to R497; 03 R569) -/

namespace Sys2Proof.Machine

open Sys2Proof

variable {s u : State}

section

variable {d : Desc} {ok : Bool} {pkg : List Byte}

/-! ### FW_STAGE -/

/-- The operands of FW_STAGE are in form. -/
def Desc.stageForm (d : Desc) : Bool :=
  d.handle == 0 && d.reservedZero [(16, 8), (24, 4)] && d.aligned 16 4096 && decide (8192 ≤ d.f 24 4) && decide (d.f 24 4 ≤ 16777216)

theorem Desc.stageForm_iff (d : Desc) : Desc.stageForm d = true ↔
    d.handle = 0 ∧ d.reservedZero [(16, 8), (24, 4)] = true ∧ d.aligned 16 4096 = true ∧ 8192 ≤ d.f 24 4 ∧ d.f 24 4 ≤ 16777216 := by
  simp [Desc.stageForm, and_assoc]

/-- What FW_STAGE makes of a package that its checks answer, or pass. -/
def State.staged (u : State) (d : Desc) (pkg : List Byte) (failed : Nat) : Option Nat → State
  | some st => u.done d st
  | none =>
    let v := u.writePackage pkg failed
    let r0 := pkgVersion pkg + pkgSvn pkg * 4294967296
    if failed = 3 then v.done d St.MGT_FW_FLASH
    else if v.pairHolds = true then ({ v with mgt := { v.mgt with staging := some (d, r0, 3 - failed) } } : State).mgtSend (.package pkg)
    else v.complete d St.OK r0 (3 - failed) 0

/-- FW_STAGE once its checks have passed. -/
def fwStageRest (ok : Bool) (pkg : List Byte) (failed : Nat) (d : Desc) (s : State) : State :=
  if !ok then s.stageRead.done d St.GEN_DMA else s.staged d pkg failed (s.packageStatus pkg (d.f 24 4))

theorem fwStage_eq (ok : Bool) (pkg : List Byte) {failed : Nat} (small : failed < 4) (d : Desc) (s : State) :
    fwStage ok pkg failed d s = s.checked d [(Desc.stageForm d, St.GEN_FIELD), (!s.fwBusy, St.MGT_FW_BUSY)] (fwStageRest ok pkg failed d) := by
  unfold fwStage
  simp only [Nat.mod_eq_of_lt small]
  rfl

/-! ### FW_ACTIVATE -/

/-- The operands of FW_ACTIVATE are in form. -/
def Desc.activateForm (d : Desc) : Bool := d.handle == 0 && d.reservedZero [(8, 1)] && decide (d.f 8 1 ≤ 2)

theorem Desc.activateForm_iff (d : Desc) : Desc.activateForm d = true ↔ d.handle = 0 ∧ d.reservedZero [(8, 1)] = true ∧ d.f 8 1 ≤ 2 := by
  simp [Desc.activateForm, and_assoc]

/-- The running slot is the active one, nothing is pending, and neither a fallback nor recovery runs. -/
def State.bootSettled (u : State) : Bool :=
  u.fld Reg.MGT_BOOT Fd.MGT_BOOT_RUN_SLOT == (u.bootRec 0).active && (u.bootRec 0).pending == 0xFF && !u.flag Reg.MGT_STATUS Fd.MGT_STATUS_FALLBACK
    && !u.flag Reg.MGT_STATUS Fd.MGT_STATUS_RECOVERY

theorem State.bootSettled_iff (u : State) : u.bootSettled = true ↔
    u.fld Reg.MGT_BOOT Fd.MGT_BOOT_RUN_SLOT = (u.bootRec 0).active ∧ (u.bootRec 0).pending = 0xFF
      ∧ u.flag Reg.MGT_STATUS Fd.MGT_STATUS_FALLBACK = false ∧ u.flag Reg.MGT_STATUS Fd.MGT_STATUS_RECOVERY = false := by
  simp [State.bootSettled, and_assoc]

/-- MODE 2: the standby is told and the security version floor is raised. -/
def svnCommit (d : Desc) (u : State) : State :=
  let s := (if u.pairHolds then u.mgtSend (.activate 2) else u).commitSvn
  s.complete d St.OK s.mgt.floor 0 0

theorem fwActivate_commit {unread : Nat} (mode : d.f 8 1 = 2) :
    fwActivate unread d s = s.checked d [(Desc.activateForm d, St.GEN_FIELD), (s.bootSettled, St.GEN_STATE)] (svnCommit d) :=
  if_pos mode

/-- The bytes of the staged package. -/
def State.stagedBytes (s : State) : List Byte := (s.stagedPkg.map (·.bytes)).getD []

/-- The checks of MODE 0 and MODE 1 in their order. -/
def State.activateChecks (s : State) (d : Desc) : List (Bool × Nat) :=
  [(Desc.activateForm d, St.GEN_FIELD), (!s.fwBusy, St.MGT_FW_BUSY), (s.stagedPkg.isSome, St.MGT_FW_NONE),
   (d.f 8 1 == 1 || (pkgCatalogue s.stagedBytes == s.mgt.catalogue && pkgMajor s.stagedBytes == pkgMajor s.mgt.running), St.MGT_FW_NEEDS_RESET),
   (!s.pairHolds || s.pair.peerStaged == pkgVersion s.stagedBytes, St.MGT_FW_PEER)]

/-- An activation once its checks have passed. -/
def activateRest (unread : Nat) (d : Desc) (s : State) : State :=
  let v := if s.fwStarting.pairHolds then s.fwStarting.mgtSend (.activate (d.f 8 1)) else s.fwStarting
  if d.f 8 1 = 1 then v.activateLater.done d St.OK
  else if v.pairHolds then { v with mgt := { v.mgt with act := some d } }
  else v.activateDone d unread

theorem fwActivate_activate {unread : Nat} (mode : d.f 8 1 ≠ 2) :
    fwActivate unread d s = s.checked d (s.activateChecks d) (activateRest unread d) :=
  if_neg mode

end

/-- Settles O53: FW_STAGE and FW_ACTIVATE end with their first check that fails, and go on by the mode, the flash and the pair. -/
theorem firmwareIsUpdated : Obligations.FirmwareIsUpdated := by
  unfold Obligations.FirmwareIsUpdated
  refine ⟨fun s u d ok pkg failed takes hu => ?_, fun s u d unread takes hu => ?_⟩
  · subst hu
    have runs : exec (.fwStage ok pkg failed) s = .next (fwStage ok pkg failed.toNat d (s.start d)) :=
      congrArg Host.Outcome.next (State.ringData_alone takes (by decide) _ _ _)
    rw [runs, fwStage_eq ok pkg failed.isLt]
    generalize s.start d = u
    intro form ends lost v r0
    have formIff : Desc.stageForm d = true ↔ form := Desc.stageForm_iff d
    have passed (inForm : form) (free : u.fwBusy = false) : u.checked d [(Desc.stageForm d, St.GEN_FIELD), (!u.fwBusy, St.MGT_FW_BUSY)]
        (fwStageRest ok pkg failed.toNat d) = fwStageRest ok pkg failed.toNat d u :=
      State.checked_of_none ((firstFail_pass (formIff.mpr inForm)).trans (firstFail_pass (by rw [free]; rfl)))
    refine ⟨fun formless => congrArg Host.Outcome.next (State.checked_of_first (firstFail_stop (mt formIff.mp formless))),
      fun inForm busy => congrArg Host.Outcome.next (State.checked_of_first
        ((firstFail_pass (formIff.mpr inForm)).trans (firstFail_stop (by rw [busy]; decide)))),
      fun inForm free bad => congrArg Host.Outcome.next ((passed inForm free).trans (if_pos (by rw [bad]; rfl))),
      fun inForm free good => congrArg Host.Outcome.next ((passed inForm free).trans ((if_neg (by rw [good]; decide)).trans ?_))⟩
    cases u.packageStatus pkg (d.f 24 4) <;> rfl
  · subst hu
    have runs : exec (.fwActivate unread) s = .next (fwActivate unread.toNat d (s.start d)) :=
      congrArg Host.Outcome.next (State.ringCmd_alone takes (by decide) _)
    rw [runs]
    generalize s.start d = u
    intro mode form ends settled told raised fits agreed v
    have formIff : Desc.activateForm d = true ↔ form := Desc.activateForm_iff d
    have settledIff : u.bootSettled = true ↔ settled := u.bootSettled_iff
    refine ⟨fun formless => ?_, fun inForm commits unsettled => ?_, fun inForm commits isSettled => ?_, fun inForm activates busy => ?_,
      fun inForm activates free => ?_⟩
    · by_cases commits : d.f 8 1 = 2
      · exact congrArg Host.Outcome.next ((fwActivate_commit commits).trans (State.checked_of_first (firstFail_stop (mt formIff.mp formless))))
      · exact congrArg Host.Outcome.next ((fwActivate_activate commits).trans (State.checked_of_first (firstFail_stop (mt formIff.mp formless))))
    · exact congrArg Host.Outcome.next ((fwActivate_commit commits).trans (State.checked_of_first
        ((firstFail_pass (formIff.mpr inForm)).trans (firstFail_stop (mt settledIff.mp unsettled)))))
    · exact congrArg Host.Outcome.next ((fwActivate_commit commits).trans (State.checked_of_none
        ((firstFail_pass (formIff.mpr inForm)).trans (firstFail_pass (settledIff.mpr isSettled)))))
    · exact congrArg Host.Outcome.next ((fwActivate_activate activates).trans (State.checked_of_first
        ((firstFail_pass (formIff.mpr inForm)).trans (firstFail_stop (by rw [busy]; decide)))))
    · have checks : firstFail (u.activateChecks d) = firstFail ((u.activateChecks d).drop 2) :=
        (firstFail_pass (formIff.mpr inForm)).trans (firstFail_pass (by rw [free]; rfl))
      have fails {st : Nat} (first : firstFail ((u.activateChecks d).drop 2) = some st) : ends (u.done d st) :=
        congrArg Host.Outcome.next ((fwActivate_activate activates).trans (State.checked_of_first (checks.trans first)))
      cases package : u.stagedPkg with
      | none => exact fails (firstFail_stop (by rw [package]; decide))
      | some l =>
        have bytes : u.stagedBytes = l.bytes := by rw [State.stagedBytes, package]; rfl
        have here : u.stagedPkg.isSome = true := by rw [package]; rfl
        have fitsIs : (d.f 8 1 == 1 || (pkgCatalogue u.stagedBytes == u.mgt.catalogue && pkgMajor u.stagedBytes == pkgMajor u.mgt.running)) = fits l := by
          rw [bytes, Bool.eq_iff_iff, decide_eq_true_iff, Bool.or_eq_true, Bool.and_eq_true, beq_iff_eq, beq_iff_eq, beq_iff_eq]
        have agreedIs : (!u.pairHolds || u.pair.peerStaged == pkgVersion u.stagedBytes) = agreed l := by rw [bytes]
        dsimp only
        by_cases unfit : fits l = false
        · rw [if_pos unfit]
          exact fails ((firstFail_pass here).trans (firstFail_stop (by rw [fitsIs, unfit]; decide)))
        · rw [if_neg unfit]
          have fit : fits l = true := by simpa using unfit
          by_cases apart : agreed l = false
          · rw [if_pos apart]
            exact fails ((firstFail_pass here).trans ((firstFail_pass (fitsIs.trans fit)).trans (firstFail_stop (by rw [agreedIs, apart]; decide))))
          · rw [if_neg apart]
            have agree : agreed l = true := by simpa using apart
            have passed : firstFail (u.activateChecks d) = none :=
              checks.trans ((firstFail_pass here).trans ((firstFail_pass (fitsIs.trans fit)).trans (firstFail_pass (agreedIs.trans agree))))
            refine congrArg Host.Outcome.next ((fwActivate_activate activates).trans ((State.checked_of_none passed).trans ?_))
            rfl

end Sys2Proof.Machine

/-! ## Resets and clocks (15 R441; 14 R426; 17 R500 to R512) -/

namespace Sys2Proof.Machine

open Sys2Proof

variable {s u : State}

/-- Input power is back, and the time to restore has passed. -/
def State.powerBack (s : State) : Prop :=
  s.itn.stopped = true ∧ s.itn.dumpDue = 1 ∧ s.core3Runs = true ∧
    ∃ t, s.env.highTick = some t ∧ s.msSince t (s.fld1 Reg.ENV_DUMP_TIMING Fd.ENV_DUMP_TIMING_RESTORE_MS) = true

theorem State.powerBack_iff (s : State) : (s.itn.stopped && s.itn.dumpDue == 1 && s.core3Runs
    && s.env.highTick.any (s.msSince · (s.fld1 Reg.ENV_DUMP_TIMING Fd.ENV_DUMP_TIMING_RESTORE_MS))) = true ↔ s.powerBack := by
  simp [State.powerBack, and_assoc, Option.any_eq_true]

/-! ### Clusters -/

section

variable {k step : Nat}

/-- A check that is passed or failed takes effect at its seam. -/
theorem State.cluNow_ends {st : Nat} (ends : st ≠ cluChecking ∧ st ≠ cluWaitClear ∧ st ≠ cluReset) : s.cluNow (k, st, step) = s.checkEnd k step := by
  obtain ⟨check, wait, reset⟩ := ends
  exact (if_neg check).trans ((if_neg wait).trans (if_neg reset))

theorem State.checkEnd_passed (checking : s.cluState k = cluChecking) :
    let pass := s.cluEnter k cluPassed (s.cluChk k).cause
    s.checkEnd k 0 = pass.raise Ev.CRS_CLUSTER_CHECK k 0 (pass.fld (Reg.CRS_CLU_STATUS k) Fd.CRS_CLU_STATUS_CHECKS) := by
  exact if_neg (by simp [checking])

theorem State.checkEnd_failed (checking : s.cluState k = cluChecking) (failed : step ≠ 0) :
    let fail := (s.cluEnter k cluFailed (s.cluChk k).cause).setFld (Reg.CRS_CLU_STATUS k) Fd.CRS_CLU_STATUS_FAIL_STEP step
    s.checkEnd k step = fail.raise Ev.CRS_CLUSTER_CHECK k step (fail.fld (Reg.CRS_CLU_STATUS k) Fd.CRS_CLU_STATUS_CHECKS) := by
  refine (if_neg (by simp [checking])).trans ?_
  simp only [if_neg failed]

theorem State.cluNow_checks (from_ : s.cluState k = cluReset ∨ s.cluState k = cluWaitClear) : s.cluNow (k, cluChecking, step) = s.cluCheck k := by
  unfold State.cluNow
  rw [if_pos rfl]
  exact if_pos from_

theorem State.cluNow_waits (from_ : s.cluState k = cluReset) :
    s.cluNow (k, cluWaitClear, step) = s.cluEnter k cluWaitClear (s.cluChk k).cause := by
  unfold State.cluNow
  rw [if_neg (show ¬ cluWaitClear = cluChecking by decide), if_pos rfl]
  exact if_pos from_

theorem State.cluNow_resets (from_ : s.cluState k = cluPassed ∨ s.cluState k = cluFailed) :
    s.cluNow (k, cluReset, step) = s.cluEnter k cluReset (s.cluChk k).cause := by
  unfold State.cluNow
  rw [if_neg (show ¬ cluReset = cluChecking by decide), if_neg (show ¬ cluReset = cluWaitClear by decide), if_pos rfl]
  exact if_pos from_

/-- No change of a cluster in service is made. -/
theorem State.cluNow_inService (serves : s.cluState k = cluInService) (st : Nat) : s.cluNow (k, st, step) = s := by
  unfold State.cluNow State.checkEnd
  simp only [serves]
  simp [cluInService, cluReset, cluWaitClear, cluChecking, cluPassed, cluFailed]

end

/-- Settles O54: each row acts exactly for its cause, and a change of a cluster takes effect from the states of Table 17-8 alone. -/
theorem resetsAndClocksAct : Obligations.ResetsAndClocksAct := by
  unfold Obligations.ResetsAndClocksAct
  refine ⟨fun s a b c => ⟨rfl, rfl⟩, fun s w => ⟨rfl, rfl, next_of_pos, next_of_neg, fun back => next_of_pos (s.powerBack_iff.mpr back),
      fun away => next_of_neg (mt s.powerBack_iff.mp away)⟩,
    fun s sup => ⟨next_of_pos, fun disarmed => next_of_neg (Bool.eq_false_iff.mp disarmed)⟩,
    fun s => ⟨fun alive held => next_of_neg (by simp [alive, held]), fun idle => next_of_pos (by rcases idle with h | h <;> simp [h]), next_of_pos,
      fun held => next_of_neg (Bool.eq_false_iff.mp held)⟩,
    fun s dom i => ⟨fun gone other => ?_, fun gone host => ?_, fun here => ?_⟩,
    fun s k => ⟨fun spent alarmed => ?_, fun spent clear => ?_, fun early => ?_, fun step => ⟨fun checking => next_of_pos checking,
      fun other => next_of_neg other, fun checking failed late => (next_of_pos ⟨failed, late⟩).trans (next_of_pos checking), fun idle => ?_⟩,
      fun w => ⟨next_of_pos, next_of_neg⟩⟩,
    fun s k step => ⟨fun checking => (State.cluNow_ends (by decide)).trans (State.checkEnd_passed checking),
      fun checking failed => (State.cluNow_ends (by decide)).trans (State.checkEnd_failed checking failed), State.cluNow_checks, State.cluNow_waits,
      State.cluNow_resets, State.cluNow_inService⟩⟩
  · exact (next_of_neg (by simp [gone.2, gone.1])).trans (next_of_neg other)
  · exact (next_of_neg (by simp [gone.2, gone.1])).trans (next_of_pos host)
  · refine next_of_pos ?_
    by_contra h
    obtain ⟨low, lost⟩ := not_or.mp h
    exact here ⟨Nat.not_lt.mp low, Bool.eq_false_iff.mpr lost⟩
  · obtain ⟨state, ms⟩ := spent
    obtain ⟨cause, array⟩ := alarmed
    exact (next_of_pos (by simp [state, ms])).trans (next_of_pos (by simp [cause, array]))
  · obtain ⟨state, ms⟩ := spent
    exact (next_of_pos (by simp [state, ms])).trans (next_of_neg (by simpa using clear))
  · exact next_of_neg (by simpa using early)
  · by_cases timed : step.val ≠ 0 ∧ s.msSince (s.cluChk k).since 200 = true
    · refine (next_of_pos timed).trans (next_of_neg ?_)
      rcases idle with h | h | h
      · exact h
      · exact absurd h timed.1
      · exact absurd timed.2 (Bool.eq_false_iff.mp h)
    · exact next_of_neg timed

end Sys2Proof.Machine

/-! ## Faults (02 R41, R66; 04 R131; 06 R187, R198; 17 R500 to R507; 19 R547, R548) -/

namespace Sys2Proof.Machine

open Sys2Proof

variable {s u : State}

/-- A cause that loses port `p`: none of 0, and the port's PLL only while it is enabled. -/
def State.losesPort (u : State) (p cause : Nat) : Prop := cause ≠ 0 ∧ (cause = 2 → u.fld (Reg.MAC_CTL p) Fd.MAC_CTL_ENABLE ≠ 0)

theorem State.losesPort_iff (u : State) (p cause : Nat) :
    u.losesPort p cause ↔ ¬ (cause = 0 ∨ (cause = 2 ∧ u.fld (Reg.MAC_CTL p) Fd.MAC_CTL_ENABLE = 0)) := by
  rw [not_or, not_and]
  exact Iff.rfl

/-- The state after the loss of the reference clock of a port, where it is the cause. -/
def State.portClock (s : State) (p : Nat) (ref : Bool) : State := if ref then s.clockSet 4 (p / 4) false else s

theorem exec_portLost (s : State) (p : Fin 16) (cause : Fin 4) (ref : Bool) : exec (.portLost p cause ref) s = .next
    (if cause.val = 0 ∨ (cause.val = 2 ∧ (s.portClock p ref).fld (Reg.MAC_CTL p) Fd.MAC_CTL_ENABLE = 0) then s.portClock p ref
     else (s.portClock p ref).losePort p cause) := rfl

/-- The overrun of a cluster is counted and reported, and is a fault of cause 6. -/
theorem State.overrun_engine (k engine unit : Nat) (small : engine < 8) : s.overrun (8 * k + engine) unit =
    (((s.satFld Reg.ITN_OVERRUN_CNT wordFld 1).acc 14 k 5 1).raise Ev.ITN_BUDGET_OVERRUN k unit 0).detect k 6 engine := by
  have cluster : (8 * k + engine) / 8 = k := by omega
  have local_ : (8 * k + engine) % 8 = engine := by omega
  rw [State.overrun, cluster, local_]

/-- The first fault of a cluster is shown in its register, and every one waits for the seam. -/
theorem State.detect_eq (s : State) (k cause engine : Nat) :
    let r := Reg.ITN_FAULT_CAUSE k
    let first := ((s.setFld r Fd.ITN_FAULT_CAUSE_VALID 1).setFld r Fd.ITN_FAULT_CAUSE_CAUSE cause).setFld r Fd.ITN_FAULT_CAUSE_ENGINE
      (if cause = 4 ∨ cause = 5 then 0 else engine)
    let pend (u : State) : State := { u with itn := { u.itn with pendFaults := u.itn.pendFaults ++ [{ cluster := k, cause := cause, engine := engine }] } }
    s.detect k cause engine = pend (if s.flag r Fd.ITN_FAULT_CAUSE_VALID then s else first) := rfl

theorem State.detect_again {k cause engine : Nat} (valid : s.flag (Reg.ITN_FAULT_CAUSE k) Fd.ITN_FAULT_CAUSE_VALID = true) :
    s.detect k cause engine =
      { s with itn := { s.itn with pendFaults := s.itn.pendFaults ++ [{ cluster := k, cause := cause, engine := engine }] } } := by
  rw [State.detect_eq, if_pos valid]

theorem State.detect_first {k cause engine : Nat} (free : s.flag (Reg.ITN_FAULT_CAUSE k) Fd.ITN_FAULT_CAUSE_VALID = false) :
    let r := Reg.ITN_FAULT_CAUSE k
    let first := ((s.setFld r Fd.ITN_FAULT_CAUSE_VALID 1).setFld r Fd.ITN_FAULT_CAUSE_CAUSE cause).setFld r Fd.ITN_FAULT_CAUSE_ENGINE
      (if cause = 4 ∨ cause = 5 then 0 else engine)
    s.detect k cause engine =
      { first with itn := { first.itn with pendFaults := first.itn.pendFaults ++ [{ cluster := k, cause := cause, engine := engine }] } } := by
  rw [State.detect_eq, if_neg (Bool.eq_false_iff.mp free)]

theorem exec_hbmUncorrectable (s : State) (n : Fin 4) (r : HbmRegion) :
    let u := s.satFld (Reg.HBM_ECC n) Fd.HBM_ECC_UNCORR 1
    exec (.hbmUncorrectable n r) s = .next (if u.stackLost n then u else match r with
      | .line i => u.badLine i
      | .twoCopy => u
      | .image b k e => u.badImage b k.val e.val
      | .snapshot i => u.dropSnap i
      | .trace i => u.dropTrace i
      | .other => u.loseStack n.val 3) := rfl

/-- Settles O55: each row records, counts or handles its fault exactly in its case. -/
theorem faultsAreHandled : Obligations.FaultsAreHandled := by
  unfold Obligations.FaultsAreHandled
  refine ⟨fun s k cause engine unit => ⟨fun none_ => next_of_pos none_, fun real other valid => ?_, fun real other free => ?_, fun budget => ?_⟩,
    fun s p cause ref => ⟨fun counts whole => ?_, fun kept => ?_⟩, fun s n cause => ⟨fun counts => ?_, fun kept => ?_⟩,
    fun s u n hu => ⟨fun lost r => ?_, fun whole => ?_⟩, fun s area index hit => rfl, fun s u area index hu => ?_,
    fun s src => ⟨next_of_pos, fun some_ known => ⟨fun due => ?_, fun free paired => ?_, fun free alone running => ?_, fun free alone stopped => ?_⟩⟩⟩
  · exact (next_of_neg real).trans ((next_of_neg other).trans (congrArg Host.Outcome.next (State.detect_again valid)))
  · exact (next_of_neg real).trans ((next_of_neg other).trans (congrArg Host.Outcome.next (State.detect_first free)))
  · exact (next_of_neg (by omega)).trans ((next_of_pos budget).trans (congrArg Host.Outcome.next (State.overrun_engine _ _ _ engine.isLt)))
  · exact (exec_portLost ..).trans ((next_of_neg ((State.losesPort_iff _ _ _).mp counts)).trans (next_of_neg (Bool.eq_false_iff.mp whole)))
  · refine (exec_portLost ..).trans ?_
    by_cases counts : (s.portClock p ref).losesPort p cause
    · exact (next_of_neg ((State.losesPort_iff _ _ _).mp counts)).trans (next_of_pos (kept.resolve_left (not_not.mpr counts)))
    · exact next_of_pos (not_not.mp (mt (State.losesPort_iff _ _ _).mpr counts))
  · exact (next_of_pos counts.1).trans (next_of_neg (Bool.eq_false_iff.mp counts.2))
  · by_cases real : cause.val = 1 ∨ cause.val = 2
    · refine (next_of_pos real).trans (next_of_pos ?_)
      by_contra lost
      exact kept ⟨real, Bool.eq_false_iff.mpr lost⟩
    · exact next_of_neg real
  · subst hu
    exact (exec_hbmUncorrectable ..).trans (next_of_pos lost)
  · subst hu
    have handles (r : HbmRegion) := (exec_hbmUncorrectable s n r).trans (next_of_neg (Bool.eq_false_iff.mp whole))
    exact ⟨handles _, fun i => handles _, fun b k e => handles _, fun i => handles _, fun i => handles _, handles _⟩
  · subst hu
    exact ⟨rfl, fun id => rfl, fun id => rfl, fun q psn => rfl, rfl⟩
  · exact (next_of_neg (by omega)).trans (next_of_pos due)
  · exact (next_of_neg (by omega)).trans ((next_of_neg (not_not.mpr free)).trans (next_of_pos paired))
  · exact (next_of_neg (by omega)).trans ((next_of_neg (not_not.mpr free)).trans ((next_of_neg (Bool.eq_false_iff.mp alone)).trans
      (congrArg Host.Outcome.next
        (State.orderDump_free (s := s.setFld Reg.CRS_RESET_CAUSE Fd.CRS_RESET_CAUSE_FATAL_SRC src) ⟨free, running⟩ 3))))
  · exact (next_of_neg (by omega)).trans ((next_of_neg (not_not.mpr free)).trans ((next_of_neg (Bool.eq_false_iff.mp alone)).trans
      (next_of_pos (.inr stopped))))

end Sys2Proof.Machine

/-! ## Telemetry (18 R524 to R535) -/

namespace Sys2Proof.Machine

open Sys2Proof

variable {s u : State} {d : Desc}

/-! ### Snapshots -/

/-- The seam that ends tick index 255 of a running sequencer, in which no cycle has ended yet. -/
def State.cycleEnds (s : State) : Prop :=
  s.atSeam = true ∧ s.itn.tick % 256 = 255 ∧ s.itn.running = true ∧ s.tel.latchTick ≠ some s.now

/-- The state in which the end of a cycle is counted. -/
def State.cycleCounted (s : State) : State := { s with tel := { s.tel with cycles := s.tel.cycles + 1, latchTick := some s.now } }

theorem exec_dumpLatch_idle (idle : ¬ s.cycleEnds) : exec .telemetryDumpLatch s = .next s := by
  by_cases seam : s.atSeam = true
  · refine (next_of_pos seam).trans (next_of_pos ?_)
    by_contra h
    simp only [not_or, not_not] at h
    exact idle ⟨seam, h⟩
  · exact next_of_neg seam

theorem exec_dumpLatch_due (due : s.cycleEnds) :
    let n := s.fld Reg.TEL_DUMP_CTL Fd.TEL_DUMP_CTL_INTERVAL
    let u := s.cycleCounted
    let v := if (s.tel.cycles + 1) % n ≠ 0 then u else if 2 ≤ s.tel.snaps.length then u.skipSnap.cntTel 1 1 else u.takeSnap
    exec .telemetryDumpLatch s = .next (if n = 0 ∨ s.dumping then { s with tel := { s.tel with cycles := 0, latchTick := some s.now } }
      else if (s.tel.cycles + 1) % n = 0 then v.copyNext 3 else v) := by
  obtain ⟨seam, last, running, fresh⟩ := due
  exact (next_of_pos seam).trans (next_of_neg (by simp [last, running, fresh]))

section

variable (due : s.cycleEnds) (interval : s.fld Reg.TEL_DUMP_CTL Fd.TEL_DUMP_CTL_INTERVAL ≠ 0) (serving : s.dumping = false)
include due interval serving

/-- Snapshots are taken in every interval, and no dump is in force. -/
theorem exec_dumpLatch_between (between : (s.tel.cycles + 1) % s.fld Reg.TEL_DUMP_CTL Fd.TEL_DUMP_CTL_INTERVAL ≠ 0) :
    exec .telemetryDumpLatch s = .next s.cycleCounted :=
  (exec_dumpLatch_due due).trans ((next_of_neg (by simp [interval, serving])).trans ((next_of_neg between).trans (next_of_pos between)))

theorem exec_dumpLatch_interval (complete : (s.tel.cycles + 1) % s.fld Reg.TEL_DUMP_CTL Fd.TEL_DUMP_CTL_INTERVAL = 0) :
    exec .telemetryDumpLatch s = .next
      ((if 2 ≤ s.tel.snaps.length then s.cycleCounted.skipSnap.cntTel 1 1 else s.cycleCounted.takeSnap).copyNext 3) :=
  (exec_dumpLatch_due due).trans ((next_of_neg (by simp [interval, serving])).trans ((next_of_pos complete).trans
    (congrArg (fun v : State => Host.Outcome.next (v.copyNext 3)) (if_neg (not_not.mpr complete)))))

end

/-! ### The error log -/

/-- What the oldest event selected for the error log becomes, once it has left the queue. -/
def State.errorLogged (u : State) (h : HistEnt) : State :=
  if freeOfCredit.contains h.ev.code then u.logWrite h
  else if u.tel.credit = 0 then
    ({ u with tel := { u.tel with suppressed := u.tel.suppressed + 1, supLast := h.ev.code
                                  supFirst := if u.tel.suppressed = 0 then h.ev.code else u.tel.supFirst } } : State).cntTel 7 1
  else ({ u with tel := { u.tel with credit := u.tel.credit - 1 } } : State).logWrite h

theorem State.errorLog_idle (idle : s.core3Runs = false ∨ s.dumping = true) : s.errorLog = s :=
  if_pos (by simpa using idle)

section

variable (runs : s.core3Runs = true) (serving : s.dumping = false)
include runs serving

theorem State.errorLog_empty (empty : s.logSuppressed.tel.errQ = []) : s.errorLog = s.logSuppressed := by
  refine (if_neg (by simp [runs, serving])).trans ?_
  dsimp only
  rw [empty]

theorem State.errorLog_oldest {h : HistEnt} {q : List HistEnt} (oldest : s.logSuppressed.tel.errQ = h :: q) :
    s.errorLog = State.errorLogged { s.logSuppressed with tel := { s.logSuppressed.tel with errQ := q } } h := by
  refine (if_neg (by simp [runs, serving])).trans ?_
  dsimp only
  rw [oldest]
  rfl

end

/-! ### The checks of the opcodes -/

/-- The checks of TEL_CONFIG, in order. -/
def State.telConfigChecks (s : State) (d : Desc) : List (Bool × Nat) :=
  let a := d.f 8 1
  [(d.handle == 0 && d.reservedZero [(8, 32)] && decide (1 ≤ a) && decide (a ≤ 3) && decide (d.f 11 1 ≤ 7) && d.f 32 2 % 2 == 0
      && (!natBit a 0 || d.dumpSetOk) && (!natBit a 1 || d.tagSetOk), St.GEN_FIELD),
    (!natBit a 1 || !s.isStandby || d.ring == 255, St.GEN_NOT_ACTIVE),
    (!natBit a 0 || decide (64 + blocksLen (snapGroups (d.f 32 2) (natBit (d.f 11 1) 1)) ≤ d.f 24 4), St.TEL_SLOT_SMALL)]

theorem telConfig_eq (d : Desc) (s : State) : telConfig d s = s.checked d (s.telConfigChecks d) fun s => s.defer d := rfl

/-- The checks of LOG_READ, in order. -/
def State.logReadChecks (s : State) (d : Desc) (ok : Bool) : List (Bool × Nat) :=
  [(d.handle == 0 && d.reservedZero [(8, 1), (9, 1), (10, 2), (16, 8), (24, 8)] && decide (1 ≤ d.f 8 1) && decide (d.f 8 1 ≤ 5)
      && (d.f 8 1 == 5 || d.f 9 1 == 0) && decide (d.f 9 1 ≤ 15) && d.f 24 8 % 64 == 0, St.GEN_FIELD),
    (decide (1 ≤ d.f 10 2) && decide (d.f 10 2 ≤ 4096), St.RING_FORMAT),
    (d.f 8 1 != 5 || (s.pool (d.f 9 1)).st != 0, St.LAY_NO_POOL),
    (ok, St.GEN_DMA)]

theorem logRead_eq (ok : Bool) (d : Desc) (s : State) : logRead ok d s = s.checked d (s.logReadChecks d ok) fun s => s.defer d := rfl

/-- Settles O56: cycles, copies and the error log by their cases, and the opcodes end with their first check that fails. -/
theorem telemetryIsKept : Obligations.TelemetryIsKept := by
  unfold Obligations.TelemetryIsKept
  refine ⟨fun s => ⟨exec_dumpLatch_idle, fun due off => (exec_dumpLatch_due due).trans (next_of_pos off),
      fun due interval serving => ⟨exec_dumpLatch_between due interval serving, fun complete room => ?_, fun complete full => ?_⟩⟩,
    fun s ok => ⟨fun idle => ?_, fun x xs snaps copying => ⟨fun good => ?_, fun bad => ?_⟩⟩,
    fun s => ⟨fun idle => congrArg Host.Outcome.next (State.errorLog_idle idle), fun runs serving => ⟨fun empty =>
      congrArg Host.Outcome.next (State.errorLog_empty runs serving empty), fun h q oldest => ?_⟩⟩,
    fun s u d takes hu => ?_, fun s u d ok takes hu => ?_⟩
  · exact (exec_dumpLatch_interval due interval serving complete).trans
      (congrArg (fun v : State => Host.Outcome.next (v.copyNext 3)) (if_neg (by omega)))
  · exact (exec_dumpLatch_interval due interval serving complete).trans
      (congrArg (fun v : State => Host.Outcome.next (v.copyNext 3)) (if_pos full))
  · refine congrArg Host.Outcome.next ?_
    cases snaps : s.tel.snaps with
    | nil => rfl
    | cons x xs => exact if_neg fun flag => idle ⟨by simp [snaps], flag⟩
  · subst good
    refine congrArg Host.Outcome.next ?_
    rw [snaps]
    exact (if_pos copying.2).trans (if_pos rfl)
  · subst bad
    refine congrArg Host.Outcome.next ?_
    have rest : s.tel.snaps.drop 1 = xs := by rw [snaps, List.drop_one, List.tail_cons]
    have aborts : s.copyAbort = _ := if_pos copying.2
    rw [snaps]
    refine (if_pos copying.2).trans ((if_neg Bool.false_ne_true).trans (aborts.trans ?_))
    rw [rest]
  · have logs : exec .errorLogWrite s = .next _ := congrArg Host.Outcome.next (State.errorLog_oldest runs serving oldest)
    exact ⟨fun free => logs.trans (next_of_pos free),
      fun charged credit => logs.trans ((next_of_neg (Bool.eq_false_iff.mp charged)).trans (next_of_neg credit)),
      fun charged spent => logs.trans ((next_of_neg (Bool.eq_false_iff.mp charged)).trans (next_of_pos spent))⟩
  · subst hu
    have runs : exec .telConfig s = .next ((telConfig d (s.start d)).replicate (.command d.toBytes true [])) :=
      congrArg Host.Outcome.next (State.ringCmd_repeated takes (by decide) _)
    rw [runs]
    generalize s.start d = u
    intro ends dumps tags form own fits
    have fails (st : Nat) (first : firstFail (u.telConfigChecks d) = some st) : ends (u.done d st) :=
      congrArg (fun v : State => Host.Outcome.next (v.replicate (.command d.toBytes true [])))
        ((telConfig_eq d u).trans (State.checked_of_first first))
    have formIff : (d.handle == 0 && d.reservedZero [(8, 32)] && decide (1 ≤ d.f 8 1) && decide (d.f 8 1 ≤ 3) && decide (d.f 11 1 ≤ 7)
        && d.f 32 2 % 2 == 0 && (!natBit (d.f 8 1) 0 || d.dumpSetOk) && (!natBit (d.f 8 1) 1 || d.tagSetOk)) = true ↔ form := by
      simp [form, dumps, tags, and_assoc, imp_iff_not_or]
    have ownIff : (!natBit (d.f 8 1) 1 || !u.isStandby || d.ring == 255) = true ↔ own := by
      simp [own, tags, or_assoc, imp_iff_not_or]
    have fitsIff : (!natBit (d.f 8 1) 0 || decide (64 + blocksLen (snapGroups (d.f 32 2) (natBit (d.f 11 1) 1)) ≤ d.f 24 4)) = true ↔ fits := by
      simp [fits, dumps, imp_iff_not_or]
    refine ⟨fun formless => fails _ (firstFail_stop (mt formIff.mp formless)),
      fun inForm other => fails _ ((firstFail_pass (formIff.mpr inForm)).trans (firstFail_stop (mt ownIff.mp other))),
      fun inForm isOwn small => fails _ ?_, fun inForm isOwn fit => ?_⟩
    · exact (firstFail_pass (formIff.mpr inForm)).trans ((firstFail_pass (ownIff.mpr isOwn)).trans (firstFail_stop (mt fitsIff.mp small)))
    · refine congrArg (fun v : State => Host.Outcome.next (v.replicate (.command d.toBytes true [])))
        ((telConfig_eq d u).trans (State.checked_of_none ?_))
      exact (firstFail_pass (formIff.mpr inForm)).trans ((firstFail_pass (ownIff.mpr isOwn)).trans (firstFail_pass (fitsIff.mpr fit)))
  · subst hu
    have runs : exec (.logRead ok) s = .next (logRead ok d (s.start d)) := congrArg Host.Outcome.next (State.ringCmd_alone takes (by decide) _)
    rw [runs]
    generalize s.start d = u
    intro log form counted there ends
    have fails (st : Nat) (first : firstFail (u.logReadChecks d ok) = some st) : ends (u.done d st) :=
      congrArg Host.Outcome.next ((logRead_eq ok d u).trans (State.checked_of_first first))
    have formIff : (d.handle == 0 && d.reservedZero [(8, 1), (9, 1), (10, 2), (16, 8), (24, 8)] && decide (1 ≤ d.f 8 1) && decide (d.f 8 1 ≤ 5)
        && (d.f 8 1 == 5 || d.f 9 1 == 0) && decide (d.f 9 1 ≤ 15) && d.f 24 8 % 64 == 0) = true ↔ form := by
      simp [form, log, and_assoc, or_iff_not_imp_left]
    have countedIff : (decide (1 ≤ d.f 10 2) && decide (d.f 10 2 ≤ 4096)) = true ↔ counted := by simp [counted]
    have thereIff : (d.f 8 1 != 5 || (u.pool (d.f 9 1)).st != 0) = true ↔ there := by simp [there, log, or_iff_not_imp_left]
    refine ⟨fun formless => fails _ (firstFail_stop (mt formIff.mp formless)),
      fun inForm uncounted => fails _ ((firstFail_pass (formIff.mpr inForm)).trans (firstFail_stop (mt countedIff.mp uncounted))),
      fun inForm isCounted gone => fails _ ?_, fun inForm isCounted isThere bad => fails _ ?_, fun inForm isCounted isThere good => ?_⟩
    · exact (firstFail_pass (formIff.mpr inForm)).trans ((firstFail_pass (countedIff.mpr isCounted)).trans (firstFail_stop (mt thereIff.mp gone)))
    · exact (firstFail_pass (formIff.mpr inForm)).trans ((firstFail_pass (countedIff.mpr isCounted)).trans ((firstFail_pass (thereIff.mpr isThere)).trans
        (firstFail_stop (Bool.eq_false_iff.mp bad))))
    · refine congrArg Host.Outcome.next ((logRead_eq ok d u).trans (State.checked_of_none ?_))
      exact (firstFail_pass (formIff.mpr inForm)).trans ((firstFail_pass (countedIff.mpr isCounted)).trans ((firstFail_pass (thereIff.mpr isThere)).trans
        (firstFail_pass good)))

end Sys2Proof.Machine

/-! ## The phases of a seam (01 R10 to R12; 02 Table 2-1) -/

namespace Sys2Proof.Machine

open Sys2Proof

variable {s : State}

/-! While a join holds, the hand-off and the latch of a dump leave the state alone; otherwise each phase does its own work. -/

theorem State.handOffPhase_hold (hold : s.joinHold = true) : s.handOffPhase = s := if_pos hold

theorem State.handOffPhase_free (free : s.joinHold = false) : s.handOffPhase = s.handOff := if_neg (Bool.eq_false_iff.mp free)

theorem State.latchPhase_hold (hold : s.joinHold = true) : s.latchPhase = s.ctrSnap := congrArg State.ctrSnap (if_pos hold)

theorem State.latchPhase_free (free : s.joinHold = false) : s.latchPhase = s.idleSlots.dumpLatch.ctrSnap :=
  congrArg State.ctrSnap (if_neg (Bool.eq_false_iff.mp free))

theorem State.digestPhase_standby (recorded : s.pair.recordDone = true) (standby : s.isStandby = true) : s.digestPhase = (0, s) :=
  if_pos (Bool.and_eq_true_iff.mpr ⟨recorded, standby⟩)

theorem State.digestPhase_own (own : s.pair.recordDone = false ∨ s.isStandby = false) : s.digestPhase = s.digestClose :=
  if_neg (Bool.eq_false_iff.mp (Bool.and_eq_false_iff.mpr own))

/-- Settles O60: without supplies a seam only counts the tick, and with them it runs its phases, each by the hold of a join and the pair. -/
theorem aSeamRunsItsPhases : Obligations.ASeamRunsItsPhases := by
  unfold Obligations.ASeamRunsItsPhases
  exact ⟨fun s => ⟨next_of_pos, fun supplied => next_of_neg (Bool.eq_false_iff.mp supplied)⟩,
    fun s => ⟨State.handOffPhase_hold, State.handOffPhase_free⟩, fun s => ⟨State.latchPhase_hold, State.latchPhase_free⟩,
    fun s => ⟨State.digestPhase_standby, State.digestPhase_own⟩, fun s hold digest => rfl, fun s fresh => rfl⟩

end Sys2Proof.Machine
